-- ==== Sys2Proof/Word.lean ====
section
/-! DEFINITION. Words and bytes (00_scope.md, R4: registers are 32 bits wide and little-endian), and the plainest
arithmetic on numbers the manual uses everywhere: saturation, bit tests, two's complement. -/

namespace Sys2Proof

/-- A register word (R4). -/
abbrev Word := BitVec 32

/-- A byte of memory. -/
abbrev Byte := BitVec 8

/-- Bit `i` of a number. -/
def bitOf (v i : Nat) : Bool := v / 2 ^ i % 2 = 1

/-- Bits [lo + len - 1 : lo] of a number. -/
def bitsOf (v lo len : Nat) : Nat := v / 2 ^ lo % 2 ^ len

/-- Bits [lo + len - 1 : lo] of `v` replaced by the low `len` bits of `x`. -/
def setBits (v lo len x : Nat) : Nat :=
  v / 2 ^ (lo + len) * 2 ^ (lo + len) + x % 2 ^ len * 2 ^ lo + v % 2 ^ lo

/-- Bit `i` of a number set or cleared. -/
def setBit (v i : Nat) (b : Bool) : Nat := setBits v i 1 (cond b 1 0)

/-- A counter of `n` bits that saturates at all ones. -/
def satN (n v : Nat) : Nat := min v (2 ^ n - 1)

/-- A number read as two's complement of `n` bits. -/
def signed (n v : Nat) : Int :=
  if v % 2 ^ n < 2 ^ (n - 1) then (v % 2 ^ n : Nat) else (v % 2 ^ n : Nat) - (2 ^ n : Nat)

/-- An integer as two's complement of `n` bits. -/
def twos (n : Nat) (v : Int) : Nat := (v % (2 ^ n : Nat)).toNat

/-- The numbers below `n`, ascending. -/
def numsTo (n : Nat) : List Nat := List.range n

/-- 1 for true, 0 for false. -/
def b2n (b : Bool) : Nat := cond b 1 0

/-- The numbers of the bits set in `v` among bits `i` to `i + n - 1`, ascending. -/
def bitList (v : Nat) : Nat → Nat → List Nat
  | 0, _ => []
  | n + 1, i => if bitOf v i then i :: bitList v n (i + 1) else bitList v n (i + 1)

end Sys2Proof
end

