-- ==== Sys2Proof/Syntax.lean ====
section
/-! DEFINITION. The commands the module takes: the rows of spec/opcode_table.json. A row that is a register write
carries the word written; a row that is an event carries what comes from outside the module with it (a measured value,
a received block, a pin level), and nothing the module can work out from its own state. -/

namespace Sys2Proof

/-- An act, 0 to 15 (08, R132). -/
abbrev Act := Fin 16
/-- A PE die and its channel block, 0 to 15 (01). -/
abbrev Die := Fin 16
/-- A channel, 0 to 1023 (01). -/
abbrev Chan := Fin 1024
/-- A ring, 0 to 63 (00, Table 0-3). -/
abbrev Ring := Fin 64
/-- A Brodjo port: 0 UP, 1 to 16 DN0 to DN15 (00, R11). -/
abbrev Port := Fin 17
/-- A command queue, 0 to 7 (18, R328). -/
abbrev Queue := Fin 8
/-- A trigger unit, 0 to 15 (13). -/
abbrev Trig := Fin 16
/-- An acquisition stream, 0 to 15 (13). -/
abbrev Stream := Fin 16
/-- A show, 0 to 255 (17, R319). -/
abbrev ShowId := Fin 256

/-- The four sources of register accesses, with the port of a remote access (20, R351). -/
inductive Src where
  | housekeeping
  | port (p : Port)
  | engine
  | pcie
deriving DecidableEq, Repr

/-- What the ECC finds on a read (16, R291): no error, a corrected one, an uncorrectable one. -/
inductive Ecc where
  | clean | ce | ue
deriving DecidableEq, Repr

/-- What the ECC finds on the reads of a repair step (11, R203; 16, R291): of the descriptor, and of the queue's entries. -/
structure PushEcc where
  desc : Ecc
  entry : Ecc
deriving DecidableEq, Repr

/-- The end of a flash unit (05, R87; 16, R291): whether it is verified, and what the ECC finds on the unit's read of the NVM
buffer. -/
structure FlashEnd where
  ok : Bool
  ecc : Ecc
deriving DecidableEq, Repr

/-- A stream whose DRAM ring is read for a copy, and what the ECC finds there (13, R249; 16, R291). -/
structure StreamRead where
  i : Stream
  ecc : Ecc
deriving DecidableEq, Repr

/-- What the ECC finds on the patrol engine's reads (16, R291, R293, R295): of the next region, and of the DRAM that the scrub
has come past since the last one, with the byte address there. -/
structure PatrolEcc where
  region : Ecc
  dram : Ecc
  at_ : BitVec 37
deriving DecidableEq, Repr

/-- Who asks for an atomic, and where (16, R290): an AtomicOp in BAR0 or BAR2, CAS or not, or an instruction of the
housekeeping core on the naturally aligned word of the pool that holds a byte; with what the ECC finds on the word. -/
inductive AtomicAt where
  | bar0 (cas : Bool) (a : BitVec 26) (ecc : Ecc)
  | bar2 (cas : Bool) (a : BitVec 37)
  | core (o : BitVec 24) (ecc : Ecc)
deriving DecidableEq, Repr

/-- What the SFDP tables of the flash say (05, R73): 8D-8D-8D operation, density in Gbit, log2 of the page size,
whether a 64 KiB erase type is listed. -/
structure Sfdp where
  octal : Bool
  density : Nat
  pageLog2 : Nat
  erase64k : Bool
deriving DecidableEq, Repr

/-- A retraining failure of the root change (04, R57). -/
inductive RetrainFail where
  | die (d : Die)
  | dram (stack : Fin 4)
deriving DecidableEq, Repr

/-- What the reference monitors say of LINK, REFIN and the OCXO when a source that was lost has been within its limits for 10 ms:
which of the three are valid (04, R60). -/
structure RefSeen where
  link : Bool
  refin : Bool
  ocxo : Bool
deriving DecidableEq, Repr

/-- The reply of the upstream side in an exchange (04, R68): TURN = t3 - t2, and t4 - t1 as its round trip is measured, in
fines. -/
structure SyncTurn where
  turn : BitVec 24
  round : BitVec 24
deriving DecidableEq, Repr

/-- What a readback of BOOT step 7 measures (05, R81; 06, R111): a DAC of a channel by MEAS_SEL and RB_SET, or a SENSE limit
(the high one or the low one), with the voltage in microvolts. -/
inductive Readback where
  | chan (c : Chan) (sel : Nat) (set : Nat) (uv : Int)
  | sense (m : Fin 32) (high : Bool) (uv : Int)
deriving DecidableEq, Repr

/-- A frame of the forward link (01, Tables 1-2 and 1-3): whether it starts a vector (VSTART), and whether its CRC matches. -/
structure FwdFrame where
  start : Bool
  ok : Bool
deriving DecidableEq, Repr

/-- A frame of the return link (01, Table 1-4): the channels of the die and the UI of the vector whose results it carries, and
whether its CRC matches. -/
structure RetFrame where
  chans : BitVec 64
  uis : BitVec 8
  ok : Bool
deriving DecidableEq, Repr

/-- An edge at a pin (07): the start of serial UI u; the sample of UI u by the CH or the CL comparator; an enable or
data edge of timed mode (e as in Table 7-14; 8 is T0); a strobe S1 of the CH or the CL comparator; the end of a window
strobe S2 of one of them, with whether that comparator's output changed since S1 (10, R179); the vector's T0 at the
pins. low is the CL comparator. -/
inductive PinEv where
  | ui (u : Fin 8)
  | sample (u : Fin 8) (low : Bool)
  | edge (e : Fin 9)
  | s1 (low : Bool)
  | s2 (low : Bool) (moved : Bool)
  | t0
deriving DecidableEq, Repr

/-- What port B does to the same 8-byte word in the cycle of a board write (16, R298). -/
inductive BoardColl where
  | none | read | write (v : Word)
deriving DecidableEq, Repr

/-- The header of a received frame (17, Table 17-4) and whether its CRC matches. -/
structure FrameHdr where
  crcOk : Bool
  seq : BitVec 16
  tag : BitVec 8
  dest : BitVec 9
  src : BitVec 9
deriving DecidableEq, Repr

/-- A received routed whistle, once two of its copies agree (17, R313); copies = false is a whistle without a
majority. -/
structure WhistleIn where
  copies : Bool
  wn : BitVec 8
  sh : ShowId
  origin : BitVec 9
  ring : BitVec 6
  cause : BitVec 2
deriving DecidableEq, Repr

/-- How a training ends (17, R306): ready (lane and block lock, PHY latencies measured, the PHY term of R69 in fines, the
ROOT_MHZ of the partner's IDLE blocks, and its barker), or held for a partner frequency beyond 1,000 ppm or a failed role
check. -/
inductive TrainResult where
  | ready (phy : BitVec 16) (root : BitVec 16) (barker : BitVec 56)
  | rate
  | role
deriving DecidableEq, Repr

/-- A command as it is fetched from host memory (18, Table 18-3). -/
structure HostCmd where
  id : BitVec 64
  opcode : BitVec 16
  flags : BitVec 16
  args : List (BitVec 64)
deriving DecidableEq, Repr

/-- How a host-memory request fails (18, DMA_ERROR of Table 18-6). -/
inductive DmaErr where
  | unsupported | abort | timeout | poisoned
deriving DecidableEq, Repr

/-- What the host-memory reads of a command bring back: the bytes, or a failed request (18, DMA_ERROR of Table 18-6). -/
inductive HostData where
  | bytes (b : List Byte)
  | failed (e : DmaErr)
deriving DecidableEq, Repr

/-- A TAP instruction (19, R340): boundary scan, debug of a die, a factory trim write, BYPASS. -/
inductive JtagInstr where
  | boundary
  | debug
  | trim (a : BitVec 32) (v : Word)
  | bypass
deriving DecidableEq, Repr

/-- What the THRESH measurement of a comparator brings (14, R260): the source levels read back in microvolts, and the
crossing times of rising and of falling source edges in 1/16 fine. -/
structure ThrMeas where
  va : Int
  vb : Int
  ups : List Int
  downs : List Int
deriving DecidableEq, Repr

/-- A stamp before its conversion by a bin table (12, R219; 14, R259): the interpolator, the bin's code, and how far the coarse time,
less the K terms of the path, lies from the edge's expected instant (1/64 fine). -/
structure RawStamp where
  inter : Fin 4
  code : BitVec 9
  coarse : Int
deriving DecidableEq, Repr

/-- What a live pass or a full run gathers of a channel (14, R259-R261, R271): the stamps of the common calibration edge by CH
and CL against the edge of the controller, and those of driver-tap edges by CH against their programmed times; the THRESH
measurements; the CH crossing phases (1/64 fine); the readbacks of each DAC in the order of CAL_DAC (microvolts). -/
structure ChanMeas where
  edgeH : List RawStamp
  edgeL : List RawStamp
  tap : List RawStamp
  thrH : ThrMeas
  thrL : ThrMeas
  phases : List Int
  reads : List (List Int)
deriving DecidableEq, Repr

/-- What a full run brings of a channel: a measurement, each DAC's readbacks at 10 % and at 90 % of its range (microvolts) and
the hits of the eight interpolators by bin. -/
structure FullMeas where
  c : Chan
  m : ChanMeas
  points : List (List Int × List Int)
  hits : List (List Nat)
deriving DecidableEq, Repr

/-- What a full run brings of a die (14, R258): common-edge offset, t_ramp, c (1/16 fine). -/
structure DieMeas where
  offset : Int
  ramp : Nat
  c : Int
deriving DecidableEq, Repr

/-- The commands: one constructor per row of opcode_table.json, in its order. The comment of a constructor names the
row and its rule. -/
inductive Instr where
  /-- UVLO_START (R29) -/
  | uvloStart (role : BitVec 2) (rma : Bool) (temps : List (BitVec 16))
  /-- SOFT_START (R33) -/
  | softStart (rail : Option (Fin 8))
  /-- SRAM_CLEAR (R292) -/
  | sramClear (failmap : BitVec 16)
  /-- RETURN_ERASE (R345) -/
  | returnErase (sfdp : Option Sfdp)
  /-- SELF_TEST (R36) -/
  | selfTest (failmap : BitVec 16)
  /-- DRAM_TRAINING (R33) -/
  | dramTraining (bad : Option (Fin 4 × BitVec 16))
  /-- NVM_DISCOVERY (R73) -/
  | nvmDiscovery (sfdp : Option Sfdp)
  /-- IMAGE_READ (R82) -/
  | imageRead
  /-- APPLY (R81) -/
  | apply (rb : List Readback)
  /-- IDLE_ENTRY (R33) -/
  | idleEntry
  /-- HU_CAP_MEASURED (R48) -/
  | huCapMeasured (us : Nat) (hu : BitVec 16)
  /-- RESET_BOOT (R29) -/
  | resetBoot
  /-- ENTER_CAL (R31) -/
  | enterCal
  /-- LEAVE_CAL (R29) -/
  | leaveCal
  /-- ENTER_SAFE (R29) -/
  | enterSafe
  /-- FATAL_FAULT (R37) -/
  | fatalFault (code : Fin 13) (unit : BitVec 8) (detail : BitVec 16)
  /-- RAIL_FAULT (R37) -/
  | railFault (rail : Fin 8)
  /-- CLOCK_LOSS (R37) -/
  | clockLoss
  /-- HK_WATCHDOG (R40) -/
  | hkWatchdog
  /-- TEMP_SAMPLE (R52) -/
  | tempSample (temps : List (BitVec 16))
  /-- EN_OFF (R42) -/
  | enOff
  /-- PFAIL (R42) -/
  | pfail
  /-- OFF_ENTRY (R42) -/
  | offEntry
  /-- VIN_LOW (R44) -/
  | vinLow (vin : BitVec 16)
  /-- VIN_SURGE (R44) -/
  | vinSurge (vin : BitVec 16)
  /-- POWER_HIGH (R46) -/
  | powerHigh (p : BitVec 16)
  /-- ROOT_CHANGE (R57) -/
  | rootChange (v : Word)
  /-- REF_SRC_WRITE (R57) -/
  | refSrcWrite (v : Word)
  /-- ROOT_CHANGED (R57) -/
  | rootChanged (bad : Option RetrainFail)
  /-- REF_LOST (R60) -/
  | refLost
  /-- REF_RESTORED (R60) -/
  | refRestored
  /-- OCXO_WARM (R62) -/
  | ocxoWarm
  /-- TIME_WRAP (R67) -/
  | timeWrap
  /-- SYNC_EXCHANGE (R68) -/
  | syncExchange
  /-- SYNC_REQ (R68) -/
  | syncReq (p : Port) (xch : BitVec 8) (rsp : SyncTurn)
  /-- SYNC_RSP (R71) -/
  | syncRsp (xch : BitVec 8) (turn : BitVec 24) (t2 : BitVec 64) (t4 : BitVec 64)
  /-- NVM_READ (R87) -/
  | nvmRead
  /-- NVM_PROGRAM (R88) -/
  | nvmProgram
  /-- NVM_ERASE (R88) -/
  | nvmErase
  /-- ERASE_SLOT (R89) -/
  | eraseSlot
  /-- VALIDATE_SLOT (R89) -/
  | validateSlot
  /-- CAL_COMMIT (R84) -/
  | calCommit
  /-- NVM_ABORT (R88) -/
  | nvmAbort
  /-- FLASH_OP_COMPLETE (R88) -/
  | flashOpComplete (e : FlashEnd)
  /-- HOLDUP_RETRY (R50) -/
  | holdupRetry (hu : BitVec 16)
  /-- PERSIST_PAGE (R86) -/
  | persistPage
  /-- PPMU_START (R107) -/
  | ppmuStart (c : Chan) (v : Word)
  /-- PPMU_DONE (R107) -/
  | ppmuDone (c : Chan) (vs : List Int) (ok : Bool)
  /-- DAC_READBACK_SCAN (R112) -/
  | dacReadbackScan (c : Chan) (dac : BitVec 6) (uv : Int)
  /-- SENSE_MEAS_START (R284) -/
  | senseMeasStart (m : Fin 32) (v : Word)
  /-- SREF_READBACK_START (R284) -/
  | srefReadbackStart (m : Fin 32) (v : Word)
  /-- CONVERSION_DONE (R109) -/
  | conversionDone (sref : Bool) (m : Fin 32) (v : BitVec 24) (hi : Bool)
  /-- SEQ_START (R146) -/
  | seqStart (n : Act) (v : Word)
  /-- SEQ_ARM (R147) -/
  | seqArm (n : Act) (v : Word)
  /-- SEQ_STOP (R150) -/
  | seqStop (n : Act) (v : Word)
  /-- SEQ_ABORT (R150) -/
  | seqAbort (n : Act) (v : Word)
  /-- START_CHECKS (R146) -/
  | startChecks (n : Act)
  /-- ACT_ARMED (R147) -/
  | actArmed (n : Act)
  /-- START_TIME (R148) -/
  | startTime (n : Act)
  /-- NEXT (R165) -/
  | nextVec (n : Act) (ecc : Ecc)
  /-- REPEAT (R166) -/
  | repeatVec (n : Act) (k : Nat)
  /-- JUMP (R167) -/
  | jump (n : Act)
  /-- CALL (R167) -/
  | call (n : Act)
  /-- RET (R167) -/
  | ret (n : Act)
  /-- LOOP (R168) -/
  | loopVec (n : Act)
  /-- ENDLOOP (R168) -/
  | endloop (n : Act)
  /-- BRANCH (R170) -/
  | branch (n : Act)
  /-- MATCH (R171) -/
  | matchVec (n : Act) (k : Nat)
  /-- MATCH_TIMEOUT (R171) -/
  | matchTimeout (n : Act)
  /-- WAIT_TIME (R172) -/
  | waitTime (n : Act) (k : Nat)
  /-- WAIT_TIME_REACHED (R172) -/
  | waitTimeReached (n : Act)
  /-- WAIT_WHISTLE (R173) -/
  | waitWhistle (n : Act) (k : Nat)
  /-- WAIT_TIMEOUT (R173) -/
  | waitTimeout (n : Act)
  /-- CALL_BLOCK (R174) -/
  | callBlock (n : Act) (k : Nat)
  /-- SWAP (R175) -/
  | swap (n : Act)
  /-- MARK (R176) -/
  | markVec (n : Act)
  /-- HALT (R177) -/
  | halt (n : Act)
  /-- PREFETCH_RECORD (R142) -/
  | prefetchRecord (n : Act) (k : Nat) (ecc : Ecc)
  /-- FORWARD_FRAME (R13) -/
  | forwardFrame (d : Die) (f : FwdFrame)
  /-- PIN_EDGE (R119) -/
  | pinEdge (c : Chan) (cyc : BitVec 64) (e : PinEv) (raw : Bool)
  /-- RETURN_FRAME (R17) -/
  | returnFrame (d : Die) (f : RetFrame) (ecc : Ecc)
  /-- RQ_PUSH_APPLY (R203) -/
  | rqPushApply (ecc : PushEcc)
  /-- COMPARATOR_TRANSITION (R216) -/
  | comparatorTransition (c : Chan) (low : Bool) (rise : Bool) (t : BitVec 70) (code : BitVec 9)
  /-- BURST_TIMEOUT (R196) -/
  | burstTimeout (c : Chan)
  /-- END_OF_L (R150) -/
  | endOfL (n : Act) (t : BitVec 64)
  /-- ACT_STOPPED (R152) -/
  | actStopped (n : Act)
  /-- FAIL_TILE_PUSH (R192) -/
  | failTilePush (g : Ring) (v : Word)
  /-- TILE_PUSH_PERIOD (R192) -/
  | tilePushPeriod (g : Ring)
  /-- TILE_CLEAR_DONE (R191) -/
  | tileClearDone (g : Ring)
  /-- RQ_CTRL_CLEAR (R210) -/
  | rqCtrlClear (v : Word)
  /-- RQ_FINALIZE (R212) -/
  | rqFinalize (v : Word)
  /-- RQ_FINALIZED (R215) -/
  | rqFinalized
  /-- RQ_DESC_SEL (R204) -/
  | rqDescSel (v : Word) (ecc : Ecc)
  /-- RQ_MAP_CFG_WRITE (R198) -/
  | rqMapCfgWrite (g : Ring) (v : Word)
  /-- TDC_START (R225) -/
  | tdcStart (c : Chan) (v : Word)
  /-- TDC_ABORT (R233) -/
  | tdcAbort (c : Chan) (v : Word)
  /-- MISS_CLR (R218) -/
  | missClr (c : Chan) (v : Word)
  /-- TDC_ARM_TIME (R225) -/
  | tdcArmTime (c : Chan)
  /-- TDC_TIMEOUT (R227) -/
  | tdcTimeout (c : Chan)
  /-- SKEW_WINDOW (R226) -/
  | skewWindow (c : Chan)
  /-- FREQ_GATE (R230) -/
  | freqGate (c : Chan)
  /-- TDC_RESULT (R229) -/
  | tdcResult (c : Chan)
  /-- TDC_STATUS_READ (R229) -/
  | tdcStatusRead (src : Src) (c : Chan)
  /-- LO_READ (R7) -/
  | loRead (src : Src) (a : BitVec 26) (ecc : Ecc)
  /-- TRIG_ARM (R237) -/
  | trigArm (k : Trig) (v : Word)
  /-- TRIG_DISARM (R237) -/
  | trigDisarm (k : Trig) (v : Word)
  /-- TRIG_STAGE_TIMEOUT (R236) -/
  | trigStageTimeout (k : Trig)
  /-- TRIG_HOLDOFF_END (R237) -/
  | trigHoldoffEnd (k : Trig)
  /-- STREAM_ENABLE (R250) -/
  | streamEnable (i : Stream) (v : Word)
  /-- STREAM_DISABLE (R250) -/
  | streamDisable (i : Stream) (v : Word)
  /-- INTEG_END (R242) -/
  | integEnd (i : Stream) (d : Die)
  /-- RECORD_WINDOW_END (R240) -/
  | recordWindowEnd (i : Stream)
  /-- STAMPS_CLOSE (R246) -/
  | stampsClose (i : Stream)
  /-- STREAM_RECORD (R248) -/
  | streamRecord (i : Stream)
  /-- STREAM_COPY (R249) -/
  | streamCopy (r : StreamRead)
  /-- LIVE_PASS_START (R262) -/
  | livePassStart (d : Die)
  /-- CODE_DENSITY_DONE (R220) -/
  | codeDensityDone (d : Die) (hits : List (List Nat))
  /-- LIVE_PASS_END (R254) -/
  | livePassEnd (d : Die) (m : ChanMeas)
  /-- CAL_STARVED (R265) -/
  | calStarved (d : Die)
  /-- CAL_APPLY_WAIT (R257) -/
  | calApplyWait
  /-- FULL_RUN_DONE (R266) -/
  | fullRunDone (dies : List DieMeas) (ms : List FullMeas)
  /-- MON_PIN (R276) -/
  | monPin (c : Chan) (uv : Int)
  /-- MON_DIS_CLEAR (R277) -/
  | monDisClear (c : Chan)
  /-- DCHK_DIS_CLEAR (R104) -/
  | dchkDisClear (c : Chan)
  /-- MON_SENSE (R279) -/
  | monSense (m : Fin 32) (uv : Int)
  /-- SENSE_REARM (R279) -/
  | senseRearm (m : Fin 32)
  /-- SENSE_BLANK_EXPIRY (R280) -/
  | senseBlankExpiry (m : Fin 32) (uv : Int)
  /-- SREF_WRITE (R283) -/
  | srefWrite (m : Fin 32) (v : Word)
  /-- CLR_N (R283) -/
  | clrN
  /-- PARK_N (R285) -/
  | parkN
  /-- SYS_PARK_WRITE (R285) -/
  | sysParkWrite (v : Word)
  /-- PATROL_REGION (R293) -/
  | patrolRegion (ecc : PatrolEcc)
  /-- PATROL_REGION_DONE (R295) -/
  | patrolRegionDone (ok : Bool)
  /-- BOARD_READ (R296) -/
  | boardRead (ba : BitVec 18) (coll : Option Word) (ecc : Ecc)
  /-- BOARD_WRITE (R297) -/
  | boardWrite (ba : BitVec 18) (v : BitVec 16) (coll : BoardColl)
  /-- BCS_RELEASE (R298) -/
  | bcsRelease
  /-- ATOMIC_ADD (R290) -/
  | atomicAdd (a : AtomicAt) (wide : Bool) (v : BitVec 64)
  /-- ATOMIC_SWAP (R290) -/
  | atomicSwap (a : AtomicAt) (wide : Bool) (v : BitVec 64)
  /-- BAR2_READ (R325) -/
  | bar2Read (a : BitVec 37) (len : Nat) (ecc : Ecc)
  /-- BAR2_WRITE (R325) -/
  | bar2Write (a : BitVec 37) (bytes : List Byte)
  /-- DRAM_PART_WRITE (R300) -/
  | dramPartWrite (i : Fin 16) (size : Bool) (v : Word)
  /-- SEQ_CB_MASK_WRITE (R132) -/
  | seqCbMaskWrite (n : Act) (v : Word)
  /-- FAIL_RING_CH_WRITE (R181) -/
  | failRingChWrite (g : Ring) (i : Fin 32) (v : Word)
  /-- REGISTER_WRITE (R5) -/
  | registerWrite (src : Src) (a : BitVec 26) (v : Word) (be : BitVec 4)
  /-- LINK_ACTIVE (R306) -/
  | linkActive (p : Port) (res : TrainResult)
  /-- RETRAIN (R306) -/
  | retrain (p : Port)
  /-- LNK_PORT_CFG_WRITE (R306) -/
  | lnkPortCfgWrite (p : Port) (v : Word)
  /-- BARKER_SEND (R311) -/
  | barkerSend (p : Port)
  /-- BARKER (R311) -/
  | barker (p : Port) (w : BitVec 56)
  /-- PARTNER_LOST (R312) -/
  | partnerLost (p : Port)
  /-- ACK (R308) -/
  | ack (p : Port) (seq : BitVec 16) (nak : Bool) (req : BitVec 8) (rsp : BitVec 8)
  /-- REPLAY_TIMEOUT (R308) -/
  | replayTimeout (p : Port)
  /-- LNK_TIMEOUT (R310) -/
  | lnkTimeout (p : Port) (tag : BitVec 8)
  /-- RD_REQ (R308) -/
  | rdReq (p : Port) (h : FrameHdr) (a : Word) (count : Word) (ecc : Ecc)
  /-- WR_REQ (R308) -/
  | wrReq (p : Port) (h : FrameHdr) (a : Word) (words : List Word)
  /-- RD_RSP (R310) -/
  | rdRsp (p : Port) (h : FrameHdr) (status : Word) (words : List Word)
  /-- WR_RSP (R310) -/
  | wrRsp (p : Port) (h : FrameHdr) (status : Word)
  /-- EVENT_FRAME (R335) -/
  | eventFrame (p : Port) (h : FrameHdr) (rec : List Word)
  /-- JOIN (R321) -/
  | join (p : Port) (h : FrameHdr) (profile : List Word)
  /-- JOIN_SEND (R321) -/
  | joinSend
  /-- SHOW_REPORT (R320) -/
  | showReport (p : Port) (h : FrameHdr) (sh : ShowId) (act : Act) (state : BitVec 8) (reason : BitVec 8) (cycle : BitVec 64) (t : BitVec 64)
  /-- SHOW_RUN_TIMEOUT (R322) -/
  | showRunTimeout (sh : ShowId)
  /-- BENCH (R323) -/
  | bench (p : Port) (h : FrameHdr) (sh : ShowId) (clear : Bool)
  /-- SHOW_UNBENCH (R323) -/
  | showUnbench (sh : ShowId) (i : Fin 9) (v : Word)
  /-- STOP_WHISTLE (R315) -/
  | stopWhistle (p : Port) (w : WhistleIn)
  /-- PARK_WHISTLE (R315) -/
  | parkWhistle (p : Port) (w : WhistleIn)
  /-- ABORT_WHISTLE (R315) -/
  | abortWhistle (p : Port) (w : WhistleIn)
  /-- START_WHISTLE (R315) -/
  | startWhistle (p : Port) (w : WhistleIn) (t : BitVec 64)
  /-- CUE_WHISTLE (R173) -/
  | cueWhistle (p : Port) (w : WhistleIn) (cue : BitVec 8) (t : BitVec 64)
  /-- WHISTLE_WINDOW (R314) -/
  | whistleWindow
  /-- SEND_STOP (R316) -/
  | sendStop (sh : ShowId)
  /-- SEND_PARK (R316) -/
  | sendPark (sh : ShowId)
  /-- SEND_ABORT (R316) -/
  | sendAbort (sh : ShowId)
  /-- SEND_START (R320) -/
  | sendStart (sh : ShowId)
  /-- SEND_CUE (R320) -/
  | sendCue (sh : ShowId) (cue : BitVec 8)
  /-- QUEUE_ENABLE (R328) -/
  | queueEnable (q : Queue) (v : Word)
  /-- QUEUE_DISABLE (R328) -/
  | queueDisable (q : Queue) (v : Word)
  /-- SQ_DOORBELL (R328) -/
  | sqDoorbell (q : Queue) (v : Word)
  /-- COMMAND_FETCH (R329) -/
  | commandFetch (q : Queue) (c : HostCmd)
  /-- COMMAND_COMPLETE (R328) -/
  | commandComplete (q : Queue)
  /-- CQ_HEAD_WRITE (R328) -/
  | cqHeadWrite (q : Queue) (v : Word)
  /-- CMD_TIMEOUT (R333) -/
  | cmdTimeout (q : Queue) (id : BitVec 64)
  /-- FLR (R327) -/
  | flr
  /-- NOP (R328) -/
  | nop (q : Queue) (id : BitVec 64)
  /-- REG_READ (R351) -/
  | regRead (q : Queue) (id : BitVec 64) (ecc : Ecc)
  /-- REG_WRITE (R351) -/
  | regWrite (q : Queue) (id : BitVec 64) (data : HostData)
  /-- DMA_TO_DRAM (R19) -/
  | dmaToDram (q : Queue) (id : BitVec 64) (data : HostData)
  /-- DMA_FROM_DRAM (R19) -/
  | dmaFromDram (q : Queue) (id : BitVec 64) (ecc : Ecc)
  /-- LOAD_BANK (R138) -/
  | loadBank (q : Queue) (id : BitVec 64) (data : HostData)
  /-- LOAD_BLOCK (R140) -/
  | loadBlock (q : Queue) (id : BitVec 64) (data : HostData)
  /-- ACT_START (R146) -/
  | actStart (q : Queue) (id : BitVec 64)
  /-- ACT_STOP (R150) -/
  | actStop (q : Queue) (id : BitVec 64)
  /-- ACT_ABORT (R150) -/
  | actAbort (q : Queue) (id : BitVec 64)
  /-- ACT_WAIT (R328) -/
  | actWait (q : Queue) (id : BitVec 64)
  /-- TILE_PUSH (R192) -/
  | tilePush (q : Queue) (id : BitVec 64)
  /-- FINALIZE (R212) -/
  | finalize (q : Queue) (id : BitVec 64)
  /-- RQ_CLEAR (R210) -/
  | rqClear (q : Queue) (id : BitVec 64)
  /-- MODE_REQ (R31) -/
  | modeReq (q : Queue) (id : BitVec 64)
  /-- NVM (R87) -/
  | nvmCommand (q : Queue) (id : BitVec 64) (data : HostData)
  /-- REMOTE_READ (R308) -/
  | remoteRead (q : Queue) (id : BitVec 64)
  /-- REMOTE_WRITE (R308) -/
  | remoteWrite (q : Queue) (id : BitVec 64) (data : HostData)
  /-- WHISTLE (R316) -/
  | whistle (q : Queue) (id : BitVec 64)
  /-- SIGNED_CAL_COMMIT (R344) -/
  | signedCalCommit (q : Queue) (id : BitVec 64) (data : HostData)
  /-- KEY_PROGRAM (R344) -/
  | keyProgram (q : Queue) (id : BitVec 64) (data : HostData)
  /-- KEY_REVOKE (R344) -/
  | keyRevoke (q : Queue) (id : BitVec 64) (data : HostData)
  /-- DEC_KEY_PROGRAM (R344) -/
  | decKeyProgram (q : Queue) (id : BitVec 64) (data : HostData)
  /-- RETURN_AUTH (R345) -/
  | returnAuth (q : Queue) (id : BitVec 64) (data : HostData)
  /-- ADVANCE_INTEGRATION (R342) -/
  | advanceIntegration
  /-- ADVANCE_FIELD (R342) -/
  | advanceField
  /-- DEBUG_LOCK (R340) -/
  | debugLock
  /-- BD_DOORBELL (R337) -/
  | bdDoorbell
  /-- EVT_IRQ_DEFER (R335) -/
  | evtIrqDefer
  /-- PARK_N_RELEASE (R285) -/
  | parkNRelease
  /-- CLR_N_RELEASE (R286) -/
  | clrNRelease
  /-- VIN_SURGE_END (R44) -/
  | vinSurgeEnd (vin : BitVec 16)
  /-- SOURCE_VALID_AGAIN (R60) -/
  | sourceValidAgain (seen : RefSeen)
  /-- OCXO_WARM_LOST (R62) -/
  | ocxoWarmLost
  /-- PARTNER_RATE_CHANGE (R306) -/
  | partnerRateChange (p : Port)
  /-- POWER_STATE_CHANGE (R327) -/
  | powerStateChange (d3 : Bool)
  /-- CONVENTIONAL_RESET (R324) -/
  | conventionalReset
  /-- RQ_CLEAR_DONE (R210) -/
  | rqClearDone
  /-- TILE_PUSH_END (R192) -/
  | tilePushEnd (g : Ring)
  /-- HOLDUP_EXHAUSTED (R54) -/
  | holdupExhausted
  /-- JTAG_INSTRUCTION (R340) -/
  | jtagInstruction (i : JtagInstr)
deriving DecidableEq, Repr

end Sys2Proof
end

