-- ==== Sys2Proof/Config.lean ====
section
/-! DEFINITION. What an implementation fixes and what the manual leaves open, as constants without a body: nothing in
Lean can evaluate them, so a claim holds whatever they are. The named standards the manual refers to (SHA-384, ECDSA
P-384, AES-256-GCM: R75, R343, R346) are constants of the same form. -/

namespace Sys2Proof

/-- The free value the machine takes at its `n`-th use (DESIGN CHOICE, notes/assumptions/6.md). -/
opaque Config.freeValue : Nat → BitVec 64

/-- Where in the shared pool the diagnostics area of SAFE lies: byte offset and length (16, Table 16-2; the manual places it
nowhere, DESIGN CHOICE, notes/assumptions/37.md). -/
opaque Config.diagArea : Nat × Nat

/-- SHA-384 of a byte string (FIPS 180-4; R75, R140). -/
opaque Config.sha384 : List Byte → BitVec 384

/-- ECDSA P-384 verification: public key (x, y), digest, (r, s) (SEC 1; R75, R343). -/
opaque Config.ecdsaVerify : List Byte → BitVec 384 → List Byte → List Byte → Bool

/-- AES-256-GCM decryption: key, IV, additional data, ciphertext, tag; none on a tag mismatch (R346). -/
opaque Config.aesGcmOpen : BitVec 256 → List Byte → List Byte → List Byte → List Byte → Option (List Byte)

/-- The maker key of KEY_ID 0x80, held in ROM (R343): x then y, 48 bytes each. -/
opaque Config.makerKey : List Byte

end Sys2Proof
end

