-- ==== Sys2Proof/Machine/RegMap.lean ====
section
/-! DEFINITION. The register map of BAR0 (20_register_map.md, Tables 20-1 and 20-7, R347-R350): the address of every
register, the place of every field, and one row per register with the bits each access type of R5 covers and its
Reset column. Names are the manual's. Bits no field names are reserved and read 0 (R6). -/

namespace Sys2Proof.Machine

/-- A field of a register: BAR0 address, least significant bit, width. -/
structure Field where
  addr : Nat
  lo : Nat
  len : Nat
deriving DecidableEq, Repr

/-- One register of Table 20-7: base address, index ranges with their strides (outermost first), the masks of its RW
(and RWL), W1C and WO bits (R5), its Reset column, and the bits that some field names (R6). -/
structure RegRow where
  name : String
  base : Nat
  dims : List (Nat × Nat)
  rw : Nat
  w1c : Nat
  wo : Nat
  rst : Nat
  rstKind : Nat
  named : Nat
deriving DecidableEq, Repr

/-- SYS_ID (20, Table 20-5a). -/
def SYS_ID.addr : Nat := 0x0
def SYS_ID.DEVICE : Field := ⟨SYS_ID.addr, 16, 16⟩
def SYS_ID.VENDOR : Field := ⟨SYS_ID.addr, 0, 16⟩
/-- SYS_REV (20, Table 20-5b). -/
def SYS_REV.addr : Nat := 0x4
def SYS_REV.ROM : Field := ⟨SYS_REV.addr, 16, 8⟩
def SYS_REV.CLASS : Field := ⟨SYS_REV.addr, 8, 5⟩
def SYS_REV.STEP : Field := ⟨SYS_REV.addr, 4, 4⟩
def SYS_REV.METAL : Field := ⟨SYS_REV.addr, 0, 4⟩
/-- SYS_SERIAL_LO (20, Table 20-5c). -/
def SYS_SERIAL_LO.addr : Nat := 0x8
def SYS_SERIAL_LO.SERIAL : Field := ⟨SYS_SERIAL_LO.addr, 0, 32⟩
/-- SYS_SERIAL_HI (20, Table 20-5c). -/
def SYS_SERIAL_HI.addr : Nat := 0xC
def SYS_SERIAL_HI.SERIAL : Field := ⟨SYS_SERIAL_HI.addr, 0, 32⟩
/-- SYS_MODE (02, Table 2-5). -/
def SYS_MODE.addr : Nat := 0x10
def SYS_MODE.BOOT_STEP : Field := ⟨SYS_MODE.addr, 8, 4⟩
def SYS_MODE.MODE : Field := ⟨SYS_MODE.addr, 0, 3⟩
/-- SYS_MODE_REQ (02, Table 2-4). -/
def SYS_MODE_REQ.addr : Nat := 0x14
def SYS_MODE_REQ.KEY : Field := ⟨SYS_MODE_REQ.addr, 24, 8⟩
def SYS_MODE_REQ.REQ : Field := ⟨SYS_MODE_REQ.addr, 0, 4⟩
/-- SYS_STATUS (02, Table 2-6). -/
def SYS_STATUS.addr : Nat := 0x18
def SYS_STATUS.CAL_STORE_OK : Field := ⟨SYS_STATUS.addr, 18, 1⟩
def SYS_STATUS.SECOND_SLOT : Field := ⟨SYS_STATUS.addr, 17, 1⟩
def SYS_STATUS.SLOT : Field := ⟨SYS_STATUS.addr, 16, 1⟩
def SYS_STATUS.REQ_RESULT : Field := ⟨SYS_STATUS.addr, 8, 4⟩
def SYS_STATUS.THERM_LATCH : Field := ⟨SYS_STATUS.addr, 4, 1⟩
def SYS_STATUS.THERM_WARN : Field := ⟨SYS_STATUS.addr, 3, 1⟩
def SYS_STATUS.ORPHANED : Field := ⟨SYS_STATUS.addr, 1, 1⟩
def SYS_STATUS.TRANSIT : Field := ⟨SYS_STATUS.addr, 0, 1⟩
/-- SYS_FAULT (02, Table 2-12). -/
def SYS_FAULT.addr : Nat := 0x20
def SYS_FAULT.SEEN : Field := ⟨SYS_FAULT.addr, 1, 12⟩
/-- SYS_FAULT_CODE (02, Table 2-11). -/
def SYS_FAULT_CODE.addr : Nat := 0x24
def SYS_FAULT_CODE.DETAIL : Field := ⟨SYS_FAULT_CODE.addr, 16, 16⟩
def SYS_FAULT_CODE.UNIT : Field := ⟨SYS_FAULT_CODE.addr, 8, 8⟩
def SYS_FAULT_CODE.CODE : Field := ⟨SYS_FAULT_CODE.addr, 0, 8⟩
/-- SYS_ROLE (17, Table 17-10). -/
def SYS_ROLE.addr : Nat := 0x30
def SYS_ROLE.ROLE : Field := ⟨SYS_ROLE.addr, 0, 2⟩
/-- SYS_DEVIDX (17, Table 17-11). -/
def SYS_DEVIDX.addr : Nat := 0x34
def SYS_DEVIDX.VALID : Field := ⟨SYS_DEVIDX.addr, 31, 1⟩
def SYS_DEVIDX.INDEX : Field := ⟨SYS_DEVIDX.addr, 0, 9⟩
/-- SYS_IRQ_STATUS (18, Table 18-2). -/
def SYS_IRQ_STATUS.addr : Nat := 0x40
def SYS_IRQ_STATUS.EVT : Field := ⟨SYS_IRQ_STATUS.addr, 6, 1⟩
def SYS_IRQ_STATUS.LINK : Field := ⟨SYS_IRQ_STATUS.addr, 5, 1⟩
def SYS_IRQ_STATUS.ORPHANED : Field := ⟨SYS_IRQ_STATUS.addr, 4, 1⟩
def SYS_IRQ_STATUS.THERM : Field := ⟨SYS_IRQ_STATUS.addr, 3, 1⟩
def SYS_IRQ_STATUS.MODE : Field := ⟨SYS_IRQ_STATUS.addr, 2, 1⟩
def SYS_IRQ_STATUS.FATAL : Field := ⟨SYS_IRQ_STATUS.addr, 1, 1⟩
def SYS_IRQ_STATUS.SAFE : Field := ⟨SYS_IRQ_STATUS.addr, 0, 1⟩
/-- SYS_IRQ_MASK (18, Table 18-2). -/
def SYS_IRQ_MASK.addr : Nat := 0x44
def SYS_IRQ_MASK.EVT : Field := ⟨SYS_IRQ_MASK.addr, 6, 1⟩
def SYS_IRQ_MASK.LINK : Field := ⟨SYS_IRQ_MASK.addr, 5, 1⟩
def SYS_IRQ_MASK.ORPHANED : Field := ⟨SYS_IRQ_MASK.addr, 4, 1⟩
def SYS_IRQ_MASK.THERM : Field := ⟨SYS_IRQ_MASK.addr, 3, 1⟩
def SYS_IRQ_MASK.MODE : Field := ⟨SYS_IRQ_MASK.addr, 2, 1⟩
def SYS_IRQ_MASK.FATAL : Field := ⟨SYS_IRQ_MASK.addr, 1, 1⟩
def SYS_IRQ_MASK.SAFE : Field := ⟨SYS_IRQ_MASK.addr, 0, 1⟩
/-- SYS_BIST (02, Table 2-10). -/
def SYS_BIST.addr (i : Nat) : Nat := 0x60 + 0x4 * i
def SYS_BIST.FAIL (i : Nat) : Field := ⟨SYS_BIST.addr i, 31, 1⟩
def SYS_BIST.DONE (i : Nat) : Field := ⟨SYS_BIST.addr i, 30, 1⟩
def SYS_BIST.RUN (i : Nat) : Field := ⟨SYS_BIST.addr i, 29, 1⟩
def SYS_BIST.FAILMAP (i : Nat) : Field := ⟨SYS_BIST.addr i, 0, 16⟩
/-- SYS_PARK (15, Table 15-9). -/
def SYS_PARK.addr : Nat := 0x80
def SYS_PARK.PARK_PIN : Field := ⟨SYS_PARK.addr, 31, 1⟩
def SYS_PARK.CLR_PIN : Field := ⟨SYS_PARK.addr, 30, 1⟩
def SYS_PARK.ACTS : Field := ⟨SYS_PARK.addr, 0, 16⟩
/-- SYS_BD_DOORBELL (18, Table 18-16). -/
def SYS_BD_DOORBELL.addr : Nat := 0x88
def SYS_BD_DOORBELL.RING : Field := ⟨SYS_BD_DOORBELL.addr, 0, 1⟩
/-- CLK_ROOT_CFG (04, Table 4-4). -/
def CLK_ROOT_CFG.addr : Nat := 0x10000
def CLK_ROOT_CFG.REFOUT_EN : Field := ⟨CLK_ROOT_CFG.addr, 24, 1⟩
def CLK_ROOT_CFG.REFIN_10M : Field := ⟨CLK_ROOT_CFG.addr, 20, 1⟩
def CLK_ROOT_CFG.REF_SRC : Field := ⟨CLK_ROOT_CFG.addr, 16, 2⟩
def CLK_ROOT_CFG.ROOT_MHZ : Field := ⟨CLK_ROOT_CFG.addr, 0, 16⟩
/-- CLK_STATUS (04, Table 4-5). -/
def CLK_STATUS.addr : Nat := 0x10004
def CLK_STATUS.TB_COLD : Field := ⟨CLK_STATUS.addr, 11, 1⟩
def CLK_STATUS.PCIE_LOCK : Field := ⟨CLK_STATUS.addr, 10, 1⟩
def CLK_STATUS.SRC_ACTIVE : Field := ⟨CLK_STATUS.addr, 8, 2⟩
def CLK_STATUS.HOLDOVER : Field := ⟨CLK_STATUS.addr, 7, 1⟩
def CLK_STATUS.LINK_VALID : Field := ⟨CLK_STATUS.addr, 6, 1⟩
def CLK_STATUS.REFIN_VALID : Field := ⟨CLK_STATUS.addr, 5, 1⟩
def CLK_STATUS.OCXO_OK : Field := ⟨CLK_STATUS.addr, 4, 1⟩
def CLK_STATUS.OCXO_WARM : Field := ⟨CLK_STATUS.addr, 3, 1⟩
def CLK_STATUS.ROOT_REFUSED : Field := ⟨CLK_STATUS.addr, 2, 1⟩
def CLK_STATUS.ROOT_BUSY : Field := ⟨CLK_STATUS.addr, 1, 1⟩
def CLK_STATUS.ROOT_LOCK : Field := ⟨CLK_STATUS.addr, 0, 1⟩
/-- CLK_TIME_LO (04, Table 4-6). -/
def CLK_TIME_LO.addr : Nat := 0x10010
def CLK_TIME_LO.TIME_LO : Field := ⟨CLK_TIME_LO.addr, 0, 32⟩
/-- CLK_TIME_HI (04, Table 4-7). -/
def CLK_TIME_HI.addr : Nat := 0x10014
def CLK_TIME_HI.TIME_HI : Field := ⟨CLK_TIME_HI.addr, 0, 32⟩
/-- CLK_EPOCH (04, Table 4-8). -/
def CLK_EPOCH.addr : Nat := 0x10018
def CLK_EPOCH.EPOCH : Field := ⟨CLK_EPOCH.addr, 0, 32⟩
/-- CLK_SYNC_OFFSET (04, Table 4-9). -/
def CLK_SYNC_OFFSET.addr : Nat := 0x10020
def CLK_SYNC_OFFSET.OFFSET : Field := ⟨CLK_SYNC_OFFSET.addr, 0, 32⟩
/-- CLK_SYNC_STATUS (04, Table 4-10). -/
def CLK_SYNC_STATUS.addr : Nat := 0x10024
def CLK_SYNC_STATUS.EXCH : Field := ⟨CLK_SYNC_STATUS.addr, 8, 8⟩
def CLK_SYNC_STATUS.STEPPED : Field := ⟨CLK_SYNC_STATUS.addr, 5, 1⟩
def CLK_SYNC_STATUS.UP_OUT : Field := ⟨CLK_SYNC_STATUS.addr, 4, 1⟩
def CLK_SYNC_STATUS.STATE : Field := ⟨CLK_SYNC_STATUS.addr, 0, 3⟩
/-- CLK_OCXO_TRIM (04, Table 4-11). -/
def CLK_OCXO_TRIM.addr : Nat := 0x10030
def CLK_OCXO_TRIM.AUTO : Field := ⟨CLK_OCXO_TRIM.addr, 31, 1⟩
def CLK_OCXO_TRIM.TRIM : Field := ⟨CLK_OCXO_TRIM.addr, 0, 16⟩
/-- PWR_STATUS (03, Table 3-4). -/
def PWR_STATUS.addr : Nat := 0x20000
def PWR_STATUS.VIN_SURGE : Field := ⟨PWR_STATUS.addr, 8, 1⟩
def PWR_STATUS.VIN_LOW : Field := ⟨PWR_STATUS.addr, 7, 1⟩
def PWR_STATUS.TEMP_ALERT : Field := ⟨PWR_STATUS.addr, 6, 1⟩
def PWR_STATUS.THERM_WARN : Field := ⟨PWR_STATUS.addr, 5, 1⟩
def PWR_STATUS.HOLDUP_OK : Field := ⟨PWR_STATUS.addr, 4, 1⟩
def PWR_STATUS.HU_CHARGING : Field := ⟨PWR_STATUS.addr, 3, 1⟩
def PWR_STATUS.CAP_VALID : Field := ⟨PWR_STATUS.addr, 2, 1⟩
def PWR_STATUS.POWER_GOOD : Field := ⟨PWR_STATUS.addr, 0, 1⟩
/-- PWR_VIN (03, Table 3-5). -/
def PWR_VIN.addr : Nat := 0x20004
def PWR_VIN.IIN : Field := ⟨PWR_VIN.addr, 16, 16⟩
def PWR_VIN.VIN : Field := ⟨PWR_VIN.addr, 0, 16⟩
/-- PWR_HOLDUP_V (03, Table 3-6). -/
def PWR_HOLDUP_V.addr : Nat := 0x20008
def PWR_HOLDUP_V.V : Field := ⟨PWR_HOLDUP_V.addr, 0, 16⟩
/-- PWR_HOLDUP_CAP (03, Table 3-7). -/
def PWR_HOLDUP_CAP.addr : Nat := 0x2000C
def PWR_HOLDUP_CAP.CAP : Field := ⟨PWR_HOLDUP_CAP.addr, 0, 16⟩
/-- PWR_HOLDUP_NEED (03, Table 3-8). -/
def PWR_HOLDUP_NEED.addr : Nat := 0x20010
def PWR_HOLDUP_NEED.NEED : Field := ⟨PWR_HOLDUP_NEED.addr, 0, 24⟩
/-- PWR_TEMP_MAX (03, Table 3-9). -/
def PWR_TEMP_MAX.addr : Nat := 0x20020
def PWR_TEMP_MAX.INVALID : Field := ⟨PWR_TEMP_MAX.addr, 24, 6⟩
def PWR_TEMP_MAX.SENSOR : Field := ⟨PWR_TEMP_MAX.addr, 16, 6⟩
def PWR_TEMP_MAX.TEMP : Field := ⟨PWR_TEMP_MAX.addr, 0, 16⟩
/-- PWR_TEMP_CFG (03, Table 3-10). -/
def PWR_TEMP_CFG.addr : Nat := 0x20024
def PWR_TEMP_CFG.ALERT_HYST : Field := ⟨PWR_TEMP_CFG.addr, 8, 4⟩
def PWR_TEMP_CFG.ALERT_C : Field := ⟨PWR_TEMP_CFG.addr, 0, 8⟩
/-- PWR_INPUT_P (03, Table 3-11). -/
def PWR_INPUT_P.addr : Nat := 0x20030
def PWR_INPUT_P.P : Field := ⟨PWR_INPUT_P.addr, 0, 16⟩
/-- NVM_CFG (05, Table 5-9). -/
def NVM_CFG.addr : Nat := 0x30000
def NVM_CFG.PERSIST_EN : Field := ⟨NVM_CFG.addr, 16, 1⟩
def NVM_CFG.PAGE_LOG2 : Field := ⟨NVM_CFG.addr, 8, 4⟩
def NVM_CFG.DENSITY : Field := ⟨NVM_CFG.addr, 4, 4⟩
def NVM_CFG.PROTOCOL : Field := ⟨NVM_CFG.addr, 0, 2⟩
/-- NVM_STATUS (05, Table 5-10). -/
def NVM_STATUS.addr : Nat := 0x30004
def NVM_STATUS.DONE : Field := ⟨NVM_STATUS.addr, 16, 16⟩
def NVM_STATUS.LAST_OP : Field := ⟨NVM_STATUS.addr, 12, 4⟩
def NVM_STATUS.RESULT : Field := ⟨NVM_STATUS.addr, 8, 4⟩
def NVM_STATUS.TEMP_HIGH : Field := ⟨NVM_STATUS.addr, 3, 1⟩
def NVM_STATUS.HOLDUP_LOW : Field := ⟨NVM_STATUS.addr, 2, 1⟩
def NVM_STATUS.PENDING : Field := ⟨NVM_STATUS.addr, 1, 1⟩
def NVM_STATUS.BUSY : Field := ⟨NVM_STATUS.addr, 0, 1⟩
/-- NVM_CMD (05, Table 5-11). -/
def NVM_CMD.addr : Nat := 0x30008
def NVM_CMD.KEY : Field := ⟨NVM_CMD.addr, 24, 8⟩
def NVM_CMD.OP : Field := ⟨NVM_CMD.addr, 0, 4⟩
/-- NVM_ADDR (05, Table 5-12). -/
def NVM_ADDR.addr : Nat := 0x3000C
def NVM_ADDR.ADDR : Field := ⟨NVM_ADDR.addr, 0, 28⟩
/-- NVM_LEN (05, Table 5-13). -/
def NVM_LEN.addr : Nat := 0x30010
def NVM_LEN.LEN : Field := ⟨NVM_LEN.addr, 0, 17⟩
/-- NVM_JOURNAL_SEQ (05, Table 5-14). -/
def NVM_JOURNAL_SEQ.addr : Nat := 0x30014
def NVM_JOURNAL_SEQ.SEQ : Field := ⟨NVM_JOURNAL_SEQ.addr, 0, 32⟩
/-- NVM_SLOT (05, Table 5-15). -/
def NVM_SLOT.addr : Nat := 0x30018
def NVM_SLOT.REASON_B : Field := ⟨NVM_SLOT.addr, 20, 4⟩
def NVM_SLOT.REASON_A : Field := ⟨NVM_SLOT.addr, 16, 4⟩
def NVM_SLOT.BOOTED : Field := ⟨NVM_SLOT.addr, 8, 1⟩
def NVM_SLOT.VALID_B : Field := ⟨NVM_SLOT.addr, 5, 1⟩
def NVM_SLOT.VALID_A : Field := ⟨NVM_SLOT.addr, 4, 1⟩
def NVM_SLOT.SEL : Field := ⟨NVM_SLOT.addr, 0, 1⟩
/-- LC_STATE (19, Table 19-6). -/
def LC_STATE.addr : Nat := 0x40000
def LC_STATE.REVOKED : Field := ⟨LC_STATE.addr, 20, 4⟩
def LC_STATE.PROGRAMMED : Field := ⟨LC_STATE.addr, 16, 4⟩
def LC_STATE.RMA_PIN : Field := ⟨LC_STATE.addr, 10, 1⟩
def LC_STATE.ERASE_DONE : Field := ⟨LC_STATE.addr, 9, 1⟩
def LC_STATE.DEC_KEY : Field := ⟨LC_STATE.addr, 8, 1⟩
def LC_STATE.STATE : Field := ⟨LC_STATE.addr, 0, 2⟩
/-- LC_REQ (19, Table 19-7). -/
def LC_REQ.addr : Nat := 0x40004
def LC_REQ.KEY : Field := ⟨LC_REQ.addr, 24, 8⟩
def LC_REQ.REQ : Field := ⟨LC_REQ.addr, 0, 4⟩
/-- LC_TOKEN_STATUS (19, Table 19-8). -/
def LC_TOKEN_STATUS.addr : Nat := 0x40008
def LC_TOKEN_STATUS.BUSY : Field := ⟨LC_TOKEN_STATUS.addr, 31, 1⟩
def LC_TOKEN_STATUS.BADSIG : Field := ⟨LC_TOKEN_STATUS.addr, 24, 4⟩
def LC_TOKEN_STATUS.RESULT : Field := ⟨LC_TOKEN_STATUS.addr, 8, 8⟩
def LC_TOKEN_STATUS.TYPE : Field := ⟨LC_TOKEN_STATUS.addr, 0, 8⟩
/-- LC_DEBUG (19, Table 19-9). -/
def LC_DEBUG.addr : Nat := 0x4000C
def LC_DEBUG.DEBUG_OPEN : Field := ⟨LC_DEBUG.addr, 31, 1⟩
def LC_DEBUG.TRIM_OPEN : Field := ⟨LC_DEBUG.addr, 30, 1⟩
def LC_DEBUG.DEBUG_LOCK : Field := ⟨LC_DEBUG.addr, 0, 1⟩
/-- LC_NONCE (19, Table 19-10). -/
def LC_NONCE.addr : Nat := 0x40010
def LC_NONCE.NONCE : Field := ⟨LC_NONCE.addr, 0, 32⟩
/-- EVT_CFG (18, Table 18-15). -/
def EVT_CFG.addr : Nat := 0x50000
def EVT_CFG.DRAM_EN : Field := ⟨EVT_CFG.addr, 31, 1⟩
def EVT_CFG.FWD : Field := ⟨EVT_CFG.addr, 30, 1⟩
def EVT_CFG.VEC : Field := ⟨EVT_CFG.addr, 24, 6⟩
def EVT_CFG.IRQ_LEVEL : Field := ⟨EVT_CFG.addr, 0, 16⟩
/-- EVT_WR (18, Table 18-15). -/
def EVT_WR.addr : Nat := 0x50004
def EVT_WR.COUNT : Field := ⟨EVT_WR.addr, 0, 32⟩
/-- EVT_RD (18, Table 18-15). -/
def EVT_RD.addr : Nat := 0x50008
def EVT_RD.COUNT : Field := ⟨EVT_RD.addr, 0, 32⟩
/-- EVT_LOST (18, Table 18-15). -/
def EVT_LOST.addr : Nat := 0x5000C
def EVT_LOST.COUNT : Field := ⟨EVT_LOST.addr, 0, 32⟩
/-- EVT_FILTER (18, Table 18-15). -/
def EVT_FILTER.addr (i : Nat) : Nat := 0x50010 + 0x4 * i
def EVT_FILTER.EN (i : Nat) : Field := ⟨EVT_FILTER.addr i, 31, 1⟩
def EVT_FILTER.ALL_CODES (i : Nat) : Field := ⟨EVT_FILTER.addr i, 30, 1⟩
def EVT_FILTER.SOURCE (i : Nat) : Field := ⟨EVT_FILTER.addr i, 16, 6⟩
def EVT_FILTER.CODE (i : Nat) : Field := ⟨EVT_FILTER.addr i, 0, 16⟩
/-- HOST_Q_SQ_BASE_LO (18, Table 18-12). -/
def HOST_Q_SQ_BASE_LO.addr (q : Nat) : Nat := 0x60000 + 0x100 * q
def HOST_Q_SQ_BASE_LO.BASE (q : Nat) : Field := ⟨HOST_Q_SQ_BASE_LO.addr q, 0, 32⟩
/-- HOST_Q_SQ_BASE_HI (18, Table 18-12). -/
def HOST_Q_SQ_BASE_HI.addr (q : Nat) : Nat := 0x60004 + 0x100 * q
def HOST_Q_SQ_BASE_HI.BASE (q : Nat) : Field := ⟨HOST_Q_SQ_BASE_HI.addr q, 0, 32⟩
/-- HOST_Q_CQ_BASE_LO (18, Table 18-12). -/
def HOST_Q_CQ_BASE_LO.addr (q : Nat) : Nat := 0x60008 + 0x100 * q
def HOST_Q_CQ_BASE_LO.BASE (q : Nat) : Field := ⟨HOST_Q_CQ_BASE_LO.addr q, 0, 32⟩
/-- HOST_Q_CQ_BASE_HI (18, Table 18-12). -/
def HOST_Q_CQ_BASE_HI.addr (q : Nat) : Nat := 0x6000C + 0x100 * q
def HOST_Q_CQ_BASE_HI.BASE (q : Nat) : Field := ⟨HOST_Q_CQ_BASE_HI.addr q, 0, 32⟩
/-- HOST_Q_CFG (18, Table 18-12). -/
def HOST_Q_CFG.addr (q : Nat) : Nat := 0x60010 + 0x100 * q
def HOST_Q_CFG.EN (q : Nat) : Field := ⟨HOST_Q_CFG.addr q, 31, 1⟩
def HOST_Q_CFG.VEC (q : Nat) : Field := ⟨HOST_Q_CFG.addr q, 24, 6⟩
/-- HOST_Q_SQ_TAIL (18, Table 18-12). -/
def HOST_Q_SQ_TAIL.addr (q : Nat) : Nat := 0x60014 + 0x100 * q
def HOST_Q_SQ_TAIL.TAIL (q : Nat) : Field := ⟨HOST_Q_SQ_TAIL.addr q, 0, 10⟩
/-- HOST_Q_SQ_HEAD (18, Table 18-12). -/
def HOST_Q_SQ_HEAD.addr (q : Nat) : Nat := 0x60018 + 0x100 * q
def HOST_Q_SQ_HEAD.HEAD (q : Nat) : Field := ⟨HOST_Q_SQ_HEAD.addr q, 0, 10⟩
/-- HOST_Q_CQ_HEAD (18, Table 18-12). -/
def HOST_Q_CQ_HEAD.addr (q : Nat) : Nat := 0x6001C + 0x100 * q
def HOST_Q_CQ_HEAD.HEAD (q : Nat) : Field := ⟨HOST_Q_CQ_HEAD.addr q, 0, 10⟩
/-- HOST_Q_CQ_TAIL (18, Table 18-12). -/
def HOST_Q_CQ_TAIL.addr (q : Nat) : Nat := 0x60020 + 0x100 * q
def HOST_Q_CQ_TAIL.PHASE (q : Nat) : Field := ⟨HOST_Q_CQ_TAIL.addr q, 16, 1⟩
def HOST_Q_CQ_TAIL.TAIL (q : Nat) : Field := ⟨HOST_Q_CQ_TAIL.addr q, 0, 10⟩
/-- HOST_Q_STATUS (18, Table 18-12). -/
def HOST_Q_STATUS.addr (q : Nat) : Nat := 0x60024 + 0x100 * q
def HOST_Q_STATUS.ACTIVE (q : Nat) : Field := ⟨HOST_Q_STATUS.addr q, 31, 1⟩
def HOST_Q_STATUS.CQ_FULL (q : Nat) : Field := ⟨HOST_Q_STATUS.addr q, 30, 1⟩
def HOST_Q_STATUS.BLOCKED (q : Nat) : Field := ⟨HOST_Q_STATUS.addr q, 29, 1⟩
def HOST_Q_STATUS.INFLIGHT (q : Nat) : Field := ⟨HOST_Q_STATUS.addr q, 0, 11⟩
/-- HOST_DUP_WINDOW (18, Table 18-13). -/
def HOST_DUP_WINDOW.addr : Nat := 0x60800
def HOST_DUP_WINDOW.HITS : Field := ⟨HOST_DUP_WINDOW.addr, 16, 16⟩
def HOST_DUP_WINDOW.WINDOW : Field := ⟨HOST_DUP_WINDOW.addr, 0, 13⟩
/-- HOST_TIMEOUT (18, Table 18-14). -/
def HOST_TIMEOUT.addr : Nat := 0x60804
def HOST_TIMEOUT.TIMEOUT : Field := ⟨HOST_TIMEOUT.addr, 0, 24⟩
/-- Word i of MSI-X table entry v (18, R326; Table 20-7). -/
def MSIX_TABLE.addr (v i : Nat) : Nat := 0x61000 + 0x10 * v + 0x4 * i
/-- Bit 0 of word 3, the vector mask of the PCIe MSI-X table entry. -/
def MSIX_TABLE.MASK (v : Nat) : Field := ⟨MSIX_TABLE.addr v 3, 0, 1⟩
/-- MSI-X pending bit array, word i (18, R326; Table 20-7). -/
def MSIX_PBA.addr (i : Nat) : Nat := 0x61800 + 0x4 * i
/-- The pending bit of vector v. -/
def MSIX_PBA.PENDING (v : Nat) : Field := ⟨MSIX_PBA.addr (v / 32), v % 32, 1⟩
/-- LNK_STATUS (17, Table 17-12). -/
def LNK_STATUS.addr (p : Nat) : Nat := 0x70000 + 0x100 * p
def LNK_STATUS.STATE (p : Nat) : Field := ⟨LNK_STATUS.addr p, 29, 3⟩
def LNK_STATUS.HELD_CAUSE (p : Nat) : Field := ⟨LNK_STATUS.addr p, 27, 2⟩
def LNK_STATUS.PARTNER_LOST (p : Nat) : Field := ⟨LNK_STATUS.addr p, 26, 1⟩
def LNK_STATUS.P_MODE (p : Nat) : Field := ⟨LNK_STATUS.addr p, 23, 3⟩
def LNK_STATUS.P_SYNC (p : Nat) : Field := ⟨LNK_STATUS.addr p, 20, 3⟩
def LNK_STATUS.P_TB_COLD (p : Nat) : Field := ⟨LNK_STATUS.addr p, 19, 1⟩
def LNK_STATUS.P_ORPHANED (p : Nat) : Field := ⟨LNK_STATUS.addr p, 18, 1⟩
def LNK_STATUS.P_ROLE (p : Nat) : Field := ⟨LNK_STATUS.addr p, 16, 2⟩
def LNK_STATUS.P_FAULT (p : Nat) : Field := ⟨LNK_STATUS.addr p, 8, 8⟩
def LNK_STATUS.RETRAINS (p : Nat) : Field := ⟨LNK_STATUS.addr p, 0, 8⟩
/-- LNK_RETRY_COUNT (17, Table 17-13). -/
def LNK_RETRY_COUNT.addr (p : Nat) : Nat := 0x70004 + 0x100 * p
def LNK_RETRY_COUNT.REPLAYS (p : Nat) : Field := ⟨LNK_RETRY_COUNT.addr p, 16, 16⟩
def LNK_RETRY_COUNT.EXHAUSTED (p : Nat) : Field := ⟨LNK_RETRY_COUNT.addr p, 12, 4⟩
def LNK_RETRY_COUNT.WHISTLE_BAD (p : Nat) : Field := ⟨LNK_RETRY_COUNT.addr p, 8, 4⟩
def LNK_RETRY_COUNT.LATE_RSP (p : Nat) : Field := ⟨LNK_RETRY_COUNT.addr p, 0, 8⟩
/-- LNK_DELAY (17, Table 17-14). -/
def LNK_DELAY.addr (p : Nat) : Nat := 0x70008 + 0x100 * p
def LNK_DELAY.RT (p : Nat) : Field := ⟨LNK_DELAY.addr p, 0, 24⟩
/-- LNK_DELAY_ASYM (17, Table 17-14). -/
def LNK_DELAY_ASYM.addr (p : Nat) : Nat := 0x7000C + 0x100 * p
def LNK_DELAY_ASYM.CABLE (p : Nat) : Field := ⟨LNK_DELAY_ASYM.addr p, 16, 16⟩
def LNK_DELAY_ASYM.PHY (p : Nat) : Field := ⟨LNK_DELAY_ASYM.addr p, 0, 16⟩
/-- LNK_PROFILE (17, Table 17-15). -/
def LNK_PROFILE.addr (p i : Nat) : Nat := 0x70010 + 0x100 * p + 0x4 * i
def LNK_PROFILE.WORD (p i : Nat) : Field := ⟨LNK_PROFILE.addr p i, 0, 32⟩
/-- LNK_PORT_CFG (17, Table 17-16). -/
def LNK_PORT_CFG.addr (p : Nat) : Nat := 0x70020 + 0x100 * p
def LNK_PORT_CFG.ENABLED (p : Nat) : Field := ⟨LNK_PORT_CFG.addr p, 31, 1⟩
def LNK_PORT_CFG.EXP_ROLE (p : Nat) : Field := ⟨LNK_PORT_CFG.addr p, 0, 2⟩
/-- LNK_BARKER_CFG (17, Table 17-17). -/
def LNK_BARKER_CFG.addr : Nat := 0x72000
def LNK_BARKER_CFG.LOST_CNT : Field := ⟨LNK_BARKER_CFG.addr, 16, 16⟩
def LNK_BARKER_CFG.MISS_LIMIT : Field := ⟨LNK_BARKER_CFG.addr, 0, 4⟩
/-- LNK_WHISTLE_CFG (17, Table 17-18). -/
def LNK_WHISTLE_CFG.addr : Nat := 0x72004
def LNK_WHISTLE_CFG.SEND : Field := ⟨LNK_WHISTLE_CFG.addr, 31, 1⟩
def LNK_WHISTLE_CFG.KIND : Field := ⟨LNK_WHISTLE_CFG.addr, 28, 3⟩
def LNK_WHISTLE_CFG.RESULT : Field := ⟨LNK_WHISTLE_CFG.addr, 24, 4⟩
def LNK_WHISTLE_CFG.SHOW : Field := ⟨LNK_WHISTLE_CFG.addr, 16, 8⟩
def LNK_WHISTLE_CFG.CUE : Field := ⟨LNK_WHISTLE_CFG.addr, 8, 8⟩
def LNK_WHISTLE_CFG.LAST_WN : Field := ⟨LNK_WHISTLE_CFG.addr, 0, 8⟩
/-- LNK_TIMEOUT (17, Table 17-19). -/
def LNK_TIMEOUT.addr : Nat := 0x72008
def LNK_TIMEOUT.TIMEOUT : Field := ⟨LNK_TIMEOUT.addr, 0, 24⟩
/-- LNK_WHISTLE_TIME_LO (17, Table 17-20). -/
def LNK_WHISTLE_TIME_LO.addr : Nat := 0x72010
def LNK_WHISTLE_TIME_LO.TIME : Field := ⟨LNK_WHISTLE_TIME_LO.addr, 0, 32⟩
/-- LNK_WHISTLE_TIME_HI (17, Table 17-20). -/
def LNK_WHISTLE_TIME_HI.addr : Nat := 0x72014
def LNK_WHISTLE_TIME_HI.TIME : Field := ⟨LNK_WHISTLE_TIME_HI.addr, 0, 32⟩
/-- LNK_SHOW_CFG (17, Table 17-21). -/
def LNK_SHOW_CFG.addr (s : Nat) : Nat := 0x74000 + 0x80 * s
def LNK_SHOW_CFG.VALID (s : Nat) : Field := ⟨LNK_SHOW_CFG.addr s, 31, 1⟩
def LNK_SHOW_CFG.RUNNING (s : Nat) : Field := ⟨LNK_SHOW_CFG.addr s, 30, 1⟩
def LNK_SHOW_CFG.BENCHED (s : Nat) : Field := ⟨LNK_SHOW_CFG.addr s, 29, 1⟩
def LNK_SHOW_CFG.ALL_OR_NONE (s : Nat) : Field := ⟨LNK_SHOW_CFG.addr s, 28, 1⟩
def LNK_SHOW_CFG.MIXED_IMAGES (s : Nat) : Field := ⟨LNK_SHOW_CFG.addr s, 27, 1⟩
def LNK_SHOW_CFG.CFG_REFUSED (s : Nat) : Field := ⟨LNK_SHOW_CFG.addr s, 26, 1⟩
def LNK_SHOW_CFG.ACTS (s : Nat) : Field := ⟨LNK_SHOW_CFG.addr s, 0, 16⟩
/-- LNK_SHOW_DEV (17, Table 17-22). -/
def LNK_SHOW_DEV.addr (s i : Nat) : Nat := 0x74004 + 0x80 * s + 0x4 * i
def LNK_SHOW_DEV.DEVICES (s i : Nat) : Field := ⟨LNK_SHOW_DEV.addr s i, 0, 32⟩
/-- LNK_SHOW_BENCH (17, Table 17-22). -/
def LNK_SHOW_BENCH.addr (s i : Nat) : Nat := 0x74040 + 0x80 * s + 0x4 * i
def LNK_SHOW_BENCH.DEVICES (s i : Nat) : Field := ⟨LNK_SHOW_BENCH.addr s i, 0, 32⟩
/-- MEM_PATROL_CFG (16, Table 16-4). -/
def MEM_PATROL_CFG.addr : Nat := 0x80000
def MEM_PATROL_CFG.EN : Field := ⟨MEM_PATROL_CFG.addr, 31, 1⟩
def MEM_PATROL_CFG.ARRAYS : Field := ⟨MEM_PATROL_CFG.addr, 24, 4⟩
def MEM_PATROL_CFG.DRAM_SCRUB : Field := ⟨MEM_PATROL_CFG.addr, 16, 1⟩
def MEM_PATROL_CFG.INTERVAL : Field := ⟨MEM_PATROL_CFG.addr, 0, 16⟩
/-- MEM_PATROL_STATUS (16, Table 16-5). -/
def MEM_PATROL_STATUS.addr : Nat := 0x80004
def MEM_PATROL_STATUS.FAIL : Field := ⟨MEM_PATROL_STATUS.addr, 31, 1⟩
def MEM_PATROL_STATUS.ACTIVE : Field := ⟨MEM_PATROL_STATUS.addr, 30, 1⟩
def MEM_PATROL_STATUS.FAIL_ARRAY : Field := ⟨MEM_PATROL_STATUS.addr, 28, 2⟩
def MEM_PATROL_STATUS.SWEEPS : Field := ⟨MEM_PATROL_STATUS.addr, 16, 10⟩
def MEM_PATROL_STATUS.FAIL_REGION : Field := ⟨MEM_PATROL_STATUS.addr, 0, 16⟩
/-- MEM_ECC_STATUS (16, Table 16-7). -/
def MEM_ECC_STATUS.addr : Nat := 0x80008
def MEM_ECC_STATUS.CE_CNT : Field := ⟨MEM_ECC_STATUS.addr, 16, 16⟩
def MEM_ECC_STATUS.UE_CNT : Field := ⟨MEM_ECC_STATUS.addr, 8, 8⟩
def MEM_ECC_STATUS.UE_DRAM : Field := ⟨MEM_ECC_STATUS.addr, 3, 1⟩
def MEM_ECC_STATUS.UE_SRAM : Field := ⟨MEM_ECC_STATUS.addr, 2, 1⟩
def MEM_ECC_STATUS.CE_DRAM : Field := ⟨MEM_ECC_STATUS.addr, 1, 1⟩
def MEM_ECC_STATUS.CE_SRAM : Field := ⟨MEM_ECC_STATUS.addr, 0, 1⟩
/-- MEM_COLLIDE (16, Table 16-8). -/
def MEM_COLLIDE.addr : Nat := 0x8000C
def MEM_COLLIDE.WW_CNT : Field := ⟨MEM_COLLIDE.addr, 16, 16⟩
def MEM_COLLIDE.RW_CNT : Field := ⟨MEM_COLLIDE.addr, 0, 16⟩
/-- MEM_PART_STATUS (16, Table 16-9). -/
def MEM_PART_STATUS.addr : Nat := 0x80010
def MEM_PART_STATUS.REFUSED : Field := ⟨MEM_PART_STATUS.addr, 31, 1⟩
def MEM_PART_STATUS.ENABLED : Field := ⟨MEM_PART_STATUS.addr, 0, 16⟩
/-- MEM_PATROL_SKIP (16, Table 16-6). -/
def MEM_PATROL_SKIP.addr : Nat := 0x80014
def MEM_PATROL_SKIP.SKIPPED : Field := ⟨MEM_PATROL_SKIP.addr, 0, 17⟩
/-- MEM_DRAM_PART (16, Table 16-10). -/
def MEM_DRAM_PART.addr (i : Nat) : Nat := 0x80100 + 0x8 * i
def MEM_DRAM_PART.EN (i : Nat) : Field := ⟨MEM_DRAM_PART.addr i, 31, 1⟩
def MEM_DRAM_PART.KIND (i : Nat) : Field := ⟨MEM_DRAM_PART.addr i, 25, 4⟩
def MEM_DRAM_PART.BASE (i : Nat) : Field := ⟨MEM_DRAM_PART.addr i, 0, 25⟩
/-- MEM_DRAM_PART_SIZE (16, Table 16-11). -/
def MEM_DRAM_PART_SIZE.addr (i : Nat) : Nat := 0x80104 + 0x8 * i
def MEM_DRAM_PART_SIZE.SIZE (i : Nat) : Field := ⟨MEM_DRAM_PART_SIZE.addr i, 0, 26⟩
/-- MON_SENSE_LO (15, Table 15-4). -/
def MON_SENSE_LO.addr (s : Nat) : Nat := 0x90000 + 0x20 * s
def MON_SENSE_LO.CODE (s : Nat) : Field := ⟨MON_SENSE_LO.addr s, 0, 16⟩
/-- MON_SENSE_HI (15, Table 15-4). -/
def MON_SENSE_HI.addr (s : Nat) : Nat := 0x90004 + 0x20 * s
def MON_SENSE_HI.CODE (s : Nat) : Field := ⟨MON_SENSE_HI.addr s, 0, 16⟩
/-- MON_SENSE_BLANK (15, Table 15-5). -/
def MON_SENSE_BLANK.addr (s : Nat) : Nat := 0x90008 + 0x20 * s
def MON_SENSE_BLANK.BLANKING (s : Nat) : Field := ⟨MON_SENSE_BLANK.addr s, 31, 1⟩
def MON_SENSE_BLANK.SREF (s : Nat) : Field := ⟨MON_SENSE_BLANK.addr s, 22, 5⟩
def MON_SENSE_BLANK.ON_SREF (s : Nat) : Field := ⟨MON_SENSE_BLANK.addr s, 21, 1⟩
def MON_SENSE_BLANK.ACT (s : Nat) : Field := ⟨MON_SENSE_BLANK.addr s, 17, 4⟩
def MON_SENSE_BLANK.ON_MARK (s : Nat) : Field := ⟨MON_SENSE_BLANK.addr s, 16, 1⟩
def MON_SENSE_BLANK.TIME (s : Nat) : Field := ⟨MON_SENSE_BLANK.addr s, 0, 16⟩
/-- MON_SENSE_ACTION (15, Table 15-6). -/
def MON_SENSE_ACTION.addr (s : Nat) : Nat := 0x9000C + 0x20 * s
def MON_SENSE_ACTION.EN (s : Nat) : Field := ⟨MON_SENSE_ACTION.addr s, 31, 1⟩
def MON_SENSE_ACTION.TRIPPED (s : Nat) : Field := ⟨MON_SENSE_ACTION.addr s, 30, 1⟩
def MON_SENSE_ACTION.RING (s : Nat) : Field := ⟨MON_SENSE_ACTION.addr s, 16, 6⟩
def MON_SENSE_ACTION.SREF (s : Nat) : Field := ⟨MON_SENSE_ACTION.addr s, 8, 5⟩
def MON_SENSE_ACTION.ABORT (s : Nat) : Field := ⟨MON_SENSE_ACTION.addr s, 3, 1⟩
def MON_SENSE_ACTION.CLR (s : Nat) : Field := ⟨MON_SENSE_ACTION.addr s, 2, 1⟩
def MON_SENSE_ACTION.PARK (s : Nat) : Field := ⟨MON_SENSE_ACTION.addr s, 1, 1⟩
/-- MON_SENSE_MEAS (15, Table 15-7). -/
def MON_SENSE_MEAS.addr (s : Nat) : Nat := 0x90010 + 0x20 * s
def MON_SENSE_MEAS.START (s : Nat) : Field := ⟨MON_SENSE_MEAS.addr s, 31, 1⟩
def MON_SENSE_MEAS.SEL (s : Nat) : Field := ⟨MON_SENSE_MEAS.addr s, 29, 2⟩
def MON_SENSE_MEAS.DONE (s : Nat) : Field := ⟨MON_SENSE_MEAS.addr s, 28, 1⟩
def MON_SENSE_MEAS.RB_FAIL (s : Nat) : Field := ⟨MON_SENSE_MEAS.addr s, 27, 1⟩
def MON_SENSE_MEAS.BLOCKED (s : Nat) : Field := ⟨MON_SENSE_MEAS.addr s, 26, 1⟩
def MON_SENSE_MEAS.VALUE (s : Nat) : Field := ⟨MON_SENSE_MEAS.addr s, 0, 24⟩
/-- MON_SREF_CODE (15, Table 15-8). -/
def MON_SREF_CODE.addr (s : Nat) : Nat := 0x91000 + 0x10 * s
def MON_SREF_CODE.CODE (s : Nat) : Field := ⟨MON_SREF_CODE.addr s, 0, 16⟩
/-- MON_SREF_CLRCODE (15, Table 15-8). -/
def MON_SREF_CLRCODE.addr (s : Nat) : Nat := 0x91004 + 0x10 * s
def MON_SREF_CLRCODE.CODE (s : Nat) : Field := ⟨MON_SREF_CLRCODE.addr s, 0, 16⟩
/-- MON_SREF_STATUS (15, Table 15-8). -/
def MON_SREF_STATUS.addr (s : Nat) : Nat := 0x91008 + 0x10 * s
def MON_SREF_STATUS.RB_START (s : Nat) : Field := ⟨MON_SREF_STATUS.addr s, 31, 1⟩
def MON_SREF_STATUS.RB_DONE (s : Nat) : Field := ⟨MON_SREF_STATUS.addr s, 30, 1⟩
def MON_SREF_STATUS.RB_FAIL (s : Nat) : Field := ⟨MON_SREF_STATUS.addr s, 29, 1⟩
def MON_SREF_STATUS.CLEARED (s : Nat) : Field := ⟨MON_SREF_STATUS.addr s, 28, 1⟩
def MON_SREF_STATUS.CLR_ACTIVE (s : Nat) : Field := ⟨MON_SREF_STATUS.addr s, 27, 1⟩
def MON_SREF_STATUS.REFUSED (s : Nat) : Field := ⟨MON_SREF_STATUS.addr s, 26, 1⟩
def MON_SREF_STATUS.SOURCE (s : Nat) : Field := ⟨MON_SREF_STATUS.addr s, 24, 2⟩
def MON_SREF_STATUS.VALUE (s : Nat) : Field := ⟨MON_SREF_STATUS.addr s, 0, 24⟩
/-- CAL_CTRL (14, Table 14-6). -/
def CAL_CTRL.addr : Nat := 0xA0000
def CAL_CTRL.LIVE_EN : Field := ⟨CAL_CTRL.addr, 31, 1⟩
def CAL_CTRL.COMMIT : Field := ⟨CAL_CTRL.addr, 30, 1⟩
def CAL_CTRL.FULL_ALL : Field := ⟨CAL_CTRL.addr, 29, 1⟩
def CAL_CTRL.GROUPS : Field := ⟨CAL_CTRL.addr, 20, 4⟩
def CAL_CTRL.REJ_LIMIT : Field := ⟨CAL_CTRL.addr, 16, 4⟩
def CAL_CTRL.PEND_WARN : Field := ⟨CAL_CTRL.addr, 0, 16⟩
/-- CAL_STATUS (14, Table 14-7). -/
def CAL_STATUS.addr : Nat := 0xA0004
def CAL_STATUS.FULL_BUSY : Field := ⟨CAL_STATUS.addr, 31, 1⟩
def CAL_STATUS.FULL_RESULT : Field := ⟨CAL_STATUS.addr, 28, 3⟩
def CAL_STATUS.LIVE_BUSY : Field := ⟨CAL_STATUS.addr, 27, 1⟩
def CAL_STATUS.HELD : Field := ⟨CAL_STATUS.addr, 26, 1⟩
def CAL_STATUS.CHANNEL : Field := ⟨CAL_STATUS.addr, 16, 10⟩
def CAL_STATUS.PENDING : Field := ⟨CAL_STATUS.addr, 0, 11⟩
/-- CAL_SCHED (14, Table 14-8). -/
def CAL_SCHED.addr : Nat := 0xA0008
def CAL_SCHED.TIMEOUT : Field := ⟨CAL_SCHED.addr, 16, 16⟩
def CAL_SCHED.PERIOD : Field := ⟨CAL_SCHED.addr, 0, 16⟩
/-- CAL_REJECTS (14, Table 14-9). -/
def CAL_REJECTS.addr : Nat := 0xA000C
def CAL_REJECTS.STARVED : Field := ⟨CAL_REJECTS.addr, 16, 16⟩
def CAL_REJECTS.REJECT : Field := ⟨CAL_REJECTS.addr, 0, 16⟩
/-- CAL_MASK (14, Table 14-10). -/
def CAL_MASK.addr (i : Nat) : Nat := 0xA0040 + 0x4 * i
def CAL_MASK.CHANNELS (i : Nat) : Field := ⟨CAL_MASK.addr i, 0, 32⟩
/-- CAL_LIMIT_DESKEW (14, Table 14-11). -/
def CAL_LIMIT_DESKEW.addr : Nat := 0xA0100
def CAL_LIMIT_DESKEW.FULL : Field := ⟨CAL_LIMIT_DESKEW.addr, 16, 16⟩
def CAL_LIMIT_DESKEW.LIVE : Field := ⟨CAL_LIMIT_DESKEW.addr, 0, 16⟩
/-- CAL_LIMIT_GAIN (14, Table 14-11). -/
def CAL_LIMIT_GAIN.addr : Nat := 0xA0104
def CAL_LIMIT_GAIN.DEV : Field := ⟨CAL_LIMIT_GAIN.addr, 0, 16⟩
/-- CAL_LIMIT_OFFSET (14, Table 14-11). -/
def CAL_LIMIT_OFFSET.addr : Nat := 0xA0108
def CAL_LIMIT_OFFSET.FULL : Field := ⟨CAL_LIMIT_OFFSET.addr, 16, 16⟩
def CAL_LIMIT_OFFSET.LIVE : Field := ⟨CAL_LIMIT_OFFSET.addr, 0, 16⟩
/-- CAL_LIMIT_THR (14, Table 14-11). -/
def CAL_LIMIT_THR.addr : Nat := 0xA010C
def CAL_LIMIT_THR.FULL : Field := ⟨CAL_LIMIT_THR.addr, 16, 16⟩
def CAL_LIMIT_THR.LIVE : Field := ⟨CAL_LIMIT_THR.addr, 0, 16⟩
/-- CAL_LIMIT_BIN (14, Table 14-11). -/
def CAL_LIMIT_BIN.addr : Nat := 0xA0110
def CAL_LIMIT_BIN.IOFS_MAX : Field := ⟨CAL_LIMIT_BIN.addr, 24, 8⟩
def CAL_LIMIT_BIN.BIN_MAX : Field := ⟨CAL_LIMIT_BIN.addr, 8, 8⟩
def CAL_LIMIT_BIN.BIN_MIN : Field := ⟨CAL_LIMIT_BIN.addr, 0, 8⟩
/-- CAL_LIMIT_SPREAD (14, Table 14-11). -/
def CAL_LIMIT_SPREAD.addr : Nat := 0xA0114
def CAL_LIMIT_SPREAD.MAD : Field := ⟨CAL_LIMIT_SPREAD.addr, 0, 16⟩
/-- RQ_CTRL (11, Table 11-7). -/
def RQ_CTRL.addr : Nat := 0xB0000
def RQ_CTRL.CLEAR : Field := ⟨RQ_CTRL.addr, 31, 1⟩
def RQ_CTRL.RING : Field := ⟨RQ_CTRL.addr, 16, 6⟩
def RQ_CTRL.BL_WARN : Field := ⟨RQ_CTRL.addr, 0, 7⟩
/-- RQ_STATUS (11, Table 11-8). -/
def RQ_STATUS.addr : Nat := 0xB0004
def RQ_STATUS.FINALIZING : Field := ⟨RQ_STATUS.addr, 31, 1⟩
def RQ_STATUS.CLEARING : Field := ⟨RQ_STATUS.addr, 30, 1⟩
def RQ_STATUS.CFG_REFUSED : Field := ⟨RQ_STATUS.addr, 29, 1⟩
def RQ_STATUS.MAP_REFUSED : Field := ⟨RQ_STATUS.addr, 28, 1⟩
def RQ_STATUS.CLEAR_REFUSED : Field := ⟨RQ_STATUS.addr, 27, 1⟩
def RQ_STATUS.BACKLOG : Field := ⟨RQ_STATUS.addr, 0, 17⟩
/-- RQ_FINALIZE (11, Table 11-9). -/
def RQ_FINALIZE.addr : Nat := 0xB0008
def RQ_FINALIZE.START : Field := ⟨RQ_FINALIZE.addr, 31, 1⟩
def RQ_FINALIZE.DONE : Field := ⟨RQ_FINALIZE.addr, 30, 1⟩
def RQ_FINALIZE.DIRTY_ONLY : Field := ⟨RQ_FINALIZE.addr, 29, 1⟩
def RQ_FINALIZE.RESULT : Field := ⟨RQ_FINALIZE.addr, 24, 3⟩
def RQ_FINALIZE.RING : Field := ⟨RQ_FINALIZE.addr, 16, 6⟩
/-- RQ_RESULT_BASE (11, Table 11-10). -/
def RQ_RESULT_BASE.addr : Nat := 0xB000C
def RQ_RESULT_BASE.BASE : Field := ⟨RQ_RESULT_BASE.addr, 0, 25⟩
/-- RQ_RESULT_SIZE (11, Table 11-11). -/
def RQ_RESULT_SIZE.addr : Nat := 0xB0010
def RQ_RESULT_SIZE.SIZE : Field := ⟨RQ_RESULT_SIZE.addr, 0, 24⟩
/-- RQ_DESC_SEL (11, Table 11-12). -/
def RQ_DESC_SEL.addr : Nat := 0xB0020
def RQ_DESC_SEL.QUEUE : Field := ⟨RQ_DESC_SEL.addr, 0, 20⟩
/-- RQ_DESC_W0 (11, Table 11-13). -/
def RQ_DESC_W0.addr : Nat := 0xB0024
def RQ_DESC_W0.WORD : Field := ⟨RQ_DESC_W0.addr, 0, 32⟩
/-- RQ_DESC_W1 (11, Table 11-13). -/
def RQ_DESC_W1.addr : Nat := 0xB0028
def RQ_DESC_W1.WORD : Field := ⟨RQ_DESC_W1.addr, 0, 32⟩
/-- RQ_DESC_W2 (11, Table 11-13). -/
def RQ_DESC_W2.addr : Nat := 0xB002C
def RQ_DESC_W2.WORD : Field := ⟨RQ_DESC_W2.addr, 0, 32⟩
/-- RQ_TYPE (11, Table 11-14). -/
def RQ_TYPE.addr (t : Nat) : Nat := 0xB0040 + 0x4 * t
def RQ_TYPE.SPARE_COLS (t : Nat) : Field := ⟨RQ_TYPE.addr t, 4, 4⟩
def RQ_TYPE.SPARE_ROWS (t : Nat) : Field := ⟨RQ_TYPE.addr t, 0, 4⟩
/-- RQ_MAP_CFG (11, Table 11-15). -/
def RQ_MAP_CFG.addr (g : Nat) : Nat := 0xB0100 + 0x20 * g
def RQ_MAP_CFG.ACCUM (g : Nat) : Field := ⟨RQ_MAP_CFG.addr g, 20, 1⟩
def RQ_MAP_CFG.TYPE (g : Nat) : Field := ⟨RQ_MAP_CFG.addr g, 17, 3⟩
def RQ_MAP_CFG.CHUNK_CNT (g : Nat) : Field := ⟨RQ_MAP_CFG.addr g, 8, 9⟩
def RQ_MAP_CFG.CHUNK_BASE (g : Nat) : Field := ⟨RQ_MAP_CFG.addr g, 0, 8⟩
/-- RQ_MAP_REGION (11, Table 11-16). -/
def RQ_MAP_REGION.addr (g : Nat) : Nat := 0xB0104 + 0x20 * g
def RQ_MAP_REGION.HI_WID (g : Nat) : Field := ⟨RQ_MAP_REGION.addr g, 24, 5⟩
def RQ_MAP_REGION.HI_POS (g : Nat) : Field := ⟨RQ_MAP_REGION.addr g, 16, 6⟩
def RQ_MAP_REGION.LO_WID (g : Nat) : Field := ⟨RQ_MAP_REGION.addr g, 8, 5⟩
def RQ_MAP_REGION.LO_POS (g : Nat) : Field := ⟨RQ_MAP_REGION.addr g, 0, 6⟩
/-- RQ_MAP_ROW (11, Table 11-17). -/
def RQ_MAP_ROW.addr (g : Nat) : Nat := 0xB0108 + 0x20 * g
def RQ_MAP_ROW.BANK_WID (g : Nat) : Field := ⟨RQ_MAP_ROW.addr g, 24, 4⟩
def RQ_MAP_ROW.BANK_POS (g : Nat) : Field := ⟨RQ_MAP_ROW.addr g, 16, 6⟩
def RQ_MAP_ROW.ROW_WID (g : Nat) : Field := ⟨RQ_MAP_ROW.addr g, 8, 5⟩
def RQ_MAP_ROW.ROW_POS (g : Nat) : Field := ⟨RQ_MAP_ROW.addr g, 0, 6⟩
/-- RQ_MAP_COL (11, Table 11-16). -/
def RQ_MAP_COL.addr (g : Nat) : Nat := 0xB010C + 0x20 * g
def RQ_MAP_COL.HI_WID (g : Nat) : Field := ⟨RQ_MAP_COL.addr g, 24, 5⟩
def RQ_MAP_COL.HI_POS (g : Nat) : Field := ⟨RQ_MAP_COL.addr g, 16, 6⟩
def RQ_MAP_COL.LO_WID (g : Nat) : Field := ⟨RQ_MAP_COL.addr g, 8, 5⟩
def RQ_MAP_COL.LO_POS (g : Nat) : Field := ⟨RQ_MAP_COL.addr g, 0, 6⟩
/-- RQ_RING_STATUS (11, Table 11-18). -/
def RQ_RING_STATUS.addr (g : Nat) : Nat := 0xB0110 + 0x20 * g
def RQ_RING_STATUS.LOST (g : Nat) : Field := ⟨RQ_RING_STATUS.addr g, 31, 1⟩
def RQ_RING_STATUS.UNREP (g : Nat) : Field := ⟨RQ_RING_STATUS.addr g, 0, 20⟩
/-- RQ_RING_LOST (11, Table 11-19). -/
def RQ_RING_LOST.addr (g : Nat) : Nat := 0xB0114 + 0x20 * g
def RQ_RING_LOST.COUNT (g : Nat) : Field := ⟨RQ_RING_LOST.addr g, 0, 32⟩
/-- RQ_RING_PUSH (11, Table 11-19). -/
def RQ_RING_PUSH.addr (g : Nat) : Nat := 0xB0118 + 0x20 * g
def RQ_RING_PUSH.COUNT (g : Nat) : Field := ⟨RQ_RING_PUSH.addr g, 0, 32⟩
/-- ACQ_TRIG_CTRL (13, Table 13-5). -/
def ACQ_TRIG_CTRL.addr (k : Nat) : Nat := 0xC0000 + 0x100 * k
def ACQ_TRIG_CTRL.ARM (k : Nat) : Field := ⟨ACQ_TRIG_CTRL.addr k, 31, 1⟩
def ACQ_TRIG_CTRL.DISARM (k : Nat) : Field := ⟨ACQ_TRIG_CTRL.addr k, 30, 1⟩
def ACQ_TRIG_CTRL.REPEAT (k : Nat) : Field := ⟨ACQ_TRIG_CTRL.addr k, 24, 1⟩
def ACQ_TRIG_CTRL.LAST (k : Nat) : Field := ⟨ACQ_TRIG_CTRL.addr k, 20, 2⟩
def ACQ_TRIG_CTRL.HOLDOFF (k : Nat) : Field := ⟨ACQ_TRIG_CTRL.addr k, 0, 20⟩
/-- ACQ_TRIG_STATUS (13, Table 13-6). -/
def ACQ_TRIG_STATUS.addr (k : Nat) : Nat := 0xC0004 + 0x100 * k
def ACQ_TRIG_STATUS.ARMED (k : Nat) : Field := ⟨ACQ_TRIG_STATUS.addr k, 31, 1⟩
def ACQ_TRIG_STATUS.FIRED (k : Nat) : Field := ⟨ACQ_TRIG_STATUS.addr k, 30, 1⟩
def ACQ_TRIG_STATUS.REFUSED (k : Nat) : Field := ⟨ACQ_TRIG_STATUS.addr k, 29, 1⟩
def ACQ_TRIG_STATUS.REASON (k : Nat) : Field := ⟨ACQ_TRIG_STATUS.addr k, 26, 3⟩
def ACQ_TRIG_STATUS.STAGE (k : Nat) : Field := ⟨ACQ_TRIG_STATUS.addr k, 24, 2⟩
def ACQ_TRIG_STATUS.ACT (k : Nat) : Field := ⟨ACQ_TRIG_STATUS.addr k, 20, 4⟩
def ACQ_TRIG_STATUS.COUNT (k : Nat) : Field := ⟨ACQ_TRIG_STATUS.addr k, 0, 16⟩
/-- ACQ_TRIG_LEVEL (13, Table 13-7). -/
def ACQ_TRIG_LEVEL.addr (k : Nat) : Nat := 0xC0008 + 0x100 * k
def ACQ_TRIG_LEVEL.INTERP_EN (k : Nat) : Field := ⟨ACQ_TRIG_LEVEL.addr k, 16, 1⟩
def ACQ_TRIG_LEVEL.CODE (k : Nat) : Field := ⟨ACQ_TRIG_LEVEL.addr k, 0, 16⟩
/-- ACQ_TRIG_STAGE (13, Table 13-8). -/
def ACQ_TRIG_STAGE.addr (k j : Nat) : Nat := 0xC0010 + 0x100 * k + 0x8 * j
def ACQ_TRIG_STAGE.QUAL_EN (k j : Nat) : Field := ⟨ACQ_TRIG_STAGE.addr k j, 28, 1⟩
def ACQ_TRIG_STAGE.QUAL_POL (k j : Nat) : Field := ⟨ACQ_TRIG_STAGE.addr k j, 26, 2⟩
def ACQ_TRIG_STAGE.QUAL_CH (k j : Nat) : Field := ⟨ACQ_TRIG_STAGE.addr k j, 16, 10⟩
def ACQ_TRIG_STAGE.COUNT (k j : Nat) : Field := ⟨ACQ_TRIG_STAGE.addr k j, 0, 16⟩
/-- ACQ_TRIG_TLIM (13, Table 13-8). -/
def ACQ_TRIG_TLIM.addr (k j : Nat) : Nat := 0xC0014 + 0x100 * k + 0x8 * j
def ACQ_TRIG_TLIM.TLIM (k j : Nat) : Field := ⟨ACQ_TRIG_TLIM.addr k j, 0, 32⟩
/-- ACQ_TRIG_FIRES (13, Table 13-9). -/
def ACQ_TRIG_FIRES.addr (k : Nat) : Nat := 0xC0030 + 0x100 * k
def ACQ_TRIG_FIRES.VALUE (k : Nat) : Field := ⟨ACQ_TRIG_FIRES.addr k, 0, 32⟩
/-- ACQ_TRIG_TIMEOUTS (13, Table 13-9). -/
def ACQ_TRIG_TIMEOUTS.addr (k : Nat) : Nat := 0xC0034 + 0x100 * k
def ACQ_TRIG_TIMEOUTS.VALUE (k : Nat) : Field := ⟨ACQ_TRIG_TIMEOUTS.addr k, 0, 32⟩
/-- ACQ_TRIG_TIME_LO (13, Table 13-9). -/
def ACQ_TRIG_TIME_LO.addr (k : Nat) : Nat := 0xC0038 + 0x100 * k
def ACQ_TRIG_TIME_LO.VALUE (k : Nat) : Field := ⟨ACQ_TRIG_TIME_LO.addr k, 0, 32⟩
/-- ACQ_TRIG_TIME_HI (13, Table 13-9). -/
def ACQ_TRIG_TIME_HI.addr (k : Nat) : Nat := 0xC003C + 0x100 * k
def ACQ_TRIG_TIME_HI.VALUE (k : Nat) : Field := ⟨ACQ_TRIG_TIME_HI.addr k, 0, 32⟩
/-- ACQ_TRIG_PAT (13, Table 13-10). -/
def ACQ_TRIG_PAT.addr (k j i : Nat) : Nat := 0xC4000 + 0x400 * k + 0x100 * j + 0x4 * i
/-- ACQ_STREAM_CTRL (13, Table 13-11). -/
def ACQ_STREAM_CTRL.addr (s : Nat) : Nat := 0xC2000 + 0x100 * s
def ACQ_STREAM_CTRL.EN (s : Nat) : Field := ⟨ACQ_STREAM_CTRL.addr s, 31, 1⟩
def ACQ_STREAM_CTRL.VEC (s : Nat) : Field := ⟨ACQ_STREAM_CTRL.addr s, 24, 6⟩
def ACQ_STREAM_CTRL.CMP (s : Nat) : Field := ⟨ACQ_STREAM_CTRL.addr s, 18, 2⟩
def ACQ_STREAM_CTRL.POL (s : Nat) : Field := ⟨ACQ_STREAM_CTRL.addr s, 16, 2⟩
def ACQ_STREAM_CTRL.QTY (s : Nat) : Field := ⟨ACQ_STREAM_CTRL.addr s, 12, 1⟩
def ACQ_STREAM_CTRL.KIND (s : Nat) : Field := ⟨ACQ_STREAM_CTRL.addr s, 4, 4⟩
/-- ACQ_STREAM_SRC (13, Table 13-12). -/
def ACQ_STREAM_SRC.addr (s : Nat) : Nat := 0xC2004 + 0x100 * s
def ACQ_STREAM_SRC.ACT_MASK (s : Nat) : Field := ⟨ACQ_STREAM_SRC.addr s, 16, 16⟩
def ACQ_STREAM_SRC.TRIG_MASK (s : Nat) : Field := ⟨ACQ_STREAM_SRC.addr s, 0, 16⟩
/-- ACQ_STREAM_INTEG (13, Table 13-13). -/
def ACQ_STREAM_INTEG.addr (s : Nat) : Nat := 0xC2008 + 0x100 * s
def ACQ_STREAM_INTEG.INTEG (s : Nat) : Field := ⟨ACQ_STREAM_INTEG.addr s, 0, 20⟩
/-- ACQ_STREAM_DEC (13, Table 13-13). -/
def ACQ_STREAM_DEC.addr (s : Nat) : Nat := 0xC200C + 0x100 * s
def ACQ_STREAM_DEC.DEC_EFF (s : Nat) : Field := ⟨ACQ_STREAM_DEC.addr s, 16, 5⟩
def ACQ_STREAM_DEC.DEC_LOG2 (s : Nat) : Field := ⟨ACQ_STREAM_DEC.addr s, 0, 5⟩
/-- ACQ_STREAM_WIN_OFS (13, Table 13-13). -/
def ACQ_STREAM_WIN_OFS.addr (s : Nat) : Nat := 0xC2010 + 0x100 * s
def ACQ_STREAM_WIN_OFS.OFS (s : Nat) : Field := ⟨ACQ_STREAM_WIN_OFS.addr s, 0, 24⟩
/-- ACQ_STREAM_WIN_LEN (13, Table 13-13). -/
def ACQ_STREAM_WIN_LEN.addr (s : Nat) : Nat := 0xC2014 + 0x100 * s
def ACQ_STREAM_WIN_LEN.LEN (s : Nat) : Field := ⟨ACQ_STREAM_WIN_LEN.addr s, 0, 23⟩
/-- ACQ_STREAM_REC (13, Table 13-13). -/
def ACQ_STREAM_REC.addr (s : Nat) : Nat := 0xC2018 + 0x100 * s
def ACQ_STREAM_REC.SH_EN (s : Nat) : Field := ⟨ACQ_STREAM_REC.addr s, 21, 1⟩
def ACQ_STREAM_REC.ARM_SEQ (s : Nat) : Field := ⟨ACQ_STREAM_REC.addr s, 20, 1⟩
def ACQ_STREAM_REC.ARM_TRIG (s : Nat) : Field := ⟨ACQ_STREAM_REC.addr s, 16, 4⟩
def ACQ_STREAM_REC.STROBE_OFS (s : Nat) : Field := ⟨ACQ_STREAM_REC.addr s, 10, 6⟩
def ACQ_STREAM_REC.REF_CH (s : Nat) : Field := ⟨ACQ_STREAM_REC.addr s, 0, 10⟩
/-- ACQ_STREAM_PWIN (13, Table 13-13). -/
def ACQ_STREAM_PWIN.addr (s i : Nat) : Nat := 0xC201C + 0x100 * s + 0x4 * i
/-- ACQ_STREAM_DRAM_BASE (13, Table 13-14). -/
def ACQ_STREAM_DRAM_BASE.addr (s : Nat) : Nat := 0xC2024 + 0x100 * s
def ACQ_STREAM_DRAM_BASE.VALUE (s : Nat) : Field := ⟨ACQ_STREAM_DRAM_BASE.addr s, 0, 25⟩
/-- ACQ_STREAM_DRAM_SIZE (13, Table 13-14). -/
def ACQ_STREAM_DRAM_SIZE.addr (s : Nat) : Nat := 0xC2028 + 0x100 * s
def ACQ_STREAM_DRAM_SIZE.VALUE (s : Nat) : Field := ⟨ACQ_STREAM_DRAM_SIZE.addr s, 0, 23⟩
/-- ACQ_STREAM_HOST_BASE_LO (13, Table 13-14). -/
def ACQ_STREAM_HOST_BASE_LO.addr (s : Nat) : Nat := 0xC2030 + 0x100 * s
def ACQ_STREAM_HOST_BASE_LO.VALUE (s : Nat) : Field := ⟨ACQ_STREAM_HOST_BASE_LO.addr s, 0, 32⟩
/-- ACQ_STREAM_HOST_BASE_HI (13, Table 13-14). -/
def ACQ_STREAM_HOST_BASE_HI.addr (s : Nat) : Nat := 0xC2034 + 0x100 * s
def ACQ_STREAM_HOST_BASE_HI.VALUE (s : Nat) : Field := ⟨ACQ_STREAM_HOST_BASE_HI.addr s, 0, 32⟩
/-- ACQ_STREAM_HOST_SIZE (13, Table 13-14). -/
def ACQ_STREAM_HOST_SIZE.addr (s : Nat) : Nat := 0xC2038 + 0x100 * s
def ACQ_STREAM_HOST_SIZE.VALUE (s : Nat) : Field := ⟨ACQ_STREAM_HOST_SIZE.addr s, 0, 24⟩
/-- ACQ_STREAM_HOST_RD (13, Table 13-14). -/
def ACQ_STREAM_HOST_RD.addr (s : Nat) : Nat := 0xC203C + 0x100 * s
def ACQ_STREAM_HOST_RD.VALUE (s : Nat) : Field := ⟨ACQ_STREAM_HOST_RD.addr s, 0, 32⟩
/-- ACQ_STREAM_WB_LO (13, Table 13-14). -/
def ACQ_STREAM_WB_LO.addr (s : Nat) : Nat := 0xC2040 + 0x100 * s
def ACQ_STREAM_WB_LO.VALUE (s : Nat) : Field := ⟨ACQ_STREAM_WB_LO.addr s, 0, 32⟩
/-- ACQ_STREAM_WB_HI (13, Table 13-14). -/
def ACQ_STREAM_WB_HI.addr (s : Nat) : Nat := 0xC2044 + 0x100 * s
def ACQ_STREAM_WB_HI.VALUE (s : Nat) : Field := ⟨ACQ_STREAM_WB_HI.addr s, 0, 32⟩
/-- ACQ_STREAM_HOST_WR (13, Table 13-14). -/
def ACQ_STREAM_HOST_WR.addr (s : Nat) : Nat := 0xC2048 + 0x100 * s
def ACQ_STREAM_HOST_WR.VALUE (s : Nat) : Field := ⟨ACQ_STREAM_HOST_WR.addr s, 0, 32⟩
/-- ACQ_STREAM_LOST_LO (13, Table 13-14). -/
def ACQ_STREAM_LOST_LO.addr (s : Nat) : Nat := 0xC2050 + 0x100 * s
def ACQ_STREAM_LOST_LO.VALUE (s : Nat) : Field := ⟨ACQ_STREAM_LOST_LO.addr s, 0, 32⟩
/-- ACQ_STREAM_LOST_HI (13, Table 13-14). -/
def ACQ_STREAM_LOST_HI.addr (s : Nat) : Nat := 0xC2054 + 0x100 * s
def ACQ_STREAM_LOST_HI.VALUE (s : Nat) : Field := ⟨ACQ_STREAM_LOST_HI.addr s, 0, 32⟩
/-- ACQ_STREAM_FILL (13, Table 13-14). -/
def ACQ_STREAM_FILL.addr (s : Nat) : Nat := 0xC2058 + 0x100 * s
def ACQ_STREAM_FILL.VALUE (s : Nat) : Field := ⟨ACQ_STREAM_FILL.addr s, 0, 23⟩
/-- ACQ_STREAM_STATUS (13, Table 13-15). -/
def ACQ_STREAM_STATUS.addr (s : Nat) : Nat := 0xC204C + 0x100 * s
def ACQ_STREAM_STATUS.DRAINED (s : Nat) : Field := ⟨ACQ_STREAM_STATUS.addr s, 31, 1⟩
def ACQ_STREAM_STATUS.REFUSED (s : Nat) : Field := ⟨ACQ_STREAM_STATUS.addr s, 30, 1⟩
def ACQ_STREAM_STATUS.REASON (s : Nat) : Field := ⟨ACQ_STREAM_STATUS.addr s, 27, 3⟩
def ACQ_STREAM_STATUS.CFG_REFUSED (s : Nat) : Field := ⟨ACQ_STREAM_STATUS.addr s, 26, 1⟩
def ACQ_STREAM_STATUS.GAP_OPEN (s : Nat) : Field := ⟨ACQ_STREAM_STATUS.addr s, 25, 1⟩
def ACQ_STREAM_STATUS.HOST_FULL (s : Nat) : Field := ⟨ACQ_STREAM_STATUS.addr s, 24, 1⟩
def ACQ_STREAM_STATUS.OVERLAP (s : Nat) : Field := ⟨ACQ_STREAM_STATUS.addr s, 0, 16⟩
/-- ACQ_STREAM_CH (13, Table 13-16). -/
def ACQ_STREAM_CH.addr (s i : Nat) : Nat := 0xC2080 + 0x100 * s + 0x4 * i
def ACQ_STREAM_CH.CHANNELS (s i : Nat) : Field := ⟨ACQ_STREAM_CH.addr s i, 0, 32⟩
/-- SEQ_CTRL (08, Table 8-6). -/
def SEQ_CTRL.addr (n : Nat) : Nat := 0x100000 + 0x10000 * n
def SEQ_CTRL.START_ADDR (n : Nat) : Field := ⟨SEQ_CTRL.addr n, 16, 16⟩
def SEQ_CTRL.START_HALF (n : Nat) : Field := ⟨SEQ_CTRL.addr n, 12, 1⟩
def SEQ_CTRL.READY_B (n : Nat) : Field := ⟨SEQ_CTRL.addr n, 11, 1⟩
def SEQ_CTRL.READY_A (n : Nat) : Field := ⟨SEQ_CTRL.addr n, 10, 1⟩
def SEQ_CTRL.START_QUEUE (n : Nat) : Field := ⟨SEQ_CTRL.addr n, 7, 1⟩
def SEQ_CTRL.ARM (n : Nat) : Field := ⟨SEQ_CTRL.addr n, 3, 1⟩
def SEQ_CTRL.ABORT (n : Nat) : Field := ⟨SEQ_CTRL.addr n, 2, 1⟩
def SEQ_CTRL.STOP (n : Nat) : Field := ⟨SEQ_CTRL.addr n, 1, 1⟩
def SEQ_CTRL.START (n : Nat) : Field := ⟨SEQ_CTRL.addr n, 0, 1⟩
/-- SEQ_STATUS (08, Table 8-7). -/
def SEQ_STATUS.addr (n : Nat) : Nat := 0x100004 + 0x10000 * n
def SEQ_STATUS.START_RESULT (n : Nat) : Field := ⟨SEQ_STATUS.addr n, 24, 8⟩
def SEQ_STATUS.STOP_REASON (n : Nat) : Field := ⟨SEQ_STATUS.addr n, 16, 8⟩
def SEQ_STATUS.RUNOUT_LATE (n : Nat) : Field := ⟨SEQ_STATUS.addr n, 11, 1⟩
def SEQ_STATUS.CFG_REFUSED (n : Nat) : Field := ⟨SEQ_STATUS.addr n, 10, 1⟩
def SEQ_STATUS.QUEUED (n : Nat) : Field := ⟨SEQ_STATUS.addr n, 8, 1⟩
def SEQ_STATUS.EXEC_HALF (n : Nat) : Field := ⟨SEQ_STATUS.addr n, 7, 1⟩
def SEQ_STATUS.STATE (n : Nat) : Field := ⟨SEQ_STATUS.addr n, 0, 3⟩
/-- SEQ_PC (08, Table 8-9). -/
def SEQ_PC.addr (n : Nat) : Nat := 0x100008 + 0x10000 * n
def SEQ_PC.HALF (n : Nat) : Field := ⟨SEQ_PC.addr n, 16, 1⟩
def SEQ_PC.ADDR (n : Nat) : Field := ⟨SEQ_PC.addr n, 0, 16⟩
/-- SEQ_CYCLE_LO (08, Table 8-10). -/
def SEQ_CYCLE_LO.addr (n : Nat) : Nat := 0x100010 + 0x10000 * n
def SEQ_CYCLE_LO.CYCLE (n : Nat) : Field := ⟨SEQ_CYCLE_LO.addr n, 0, 32⟩
/-- SEQ_CYCLE_HI (08, Table 8-10). -/
def SEQ_CYCLE_HI.addr (n : Nat) : Nat := 0x100014 + 0x10000 * n
def SEQ_CYCLE_HI.CYCLE (n : Nat) : Field := ⟨SEQ_CYCLE_HI.addr n, 0, 32⟩
/-- SEQ_MISSED_START (08, Table 8-11). -/
def SEQ_MISSED_START.addr (n : Nat) : Nat := 0x100018 + 0x10000 * n
def SEQ_MISSED_START.COUNT (n : Nat) : Field := ⟨SEQ_MISSED_START.addr n, 0, 32⟩
/-- SEQ_STOP_POLICY (08, Table 8-12). -/
def SEQ_STOP_POLICY.addr (n : Nat) : Nat := 0x10001C + 0x10000 * n
def SEQ_STOP_POLICY.RUNOUT_MIN (n : Nat) : Field := ⟨SEQ_STOP_POLICY.addr n, 16, 16⟩
def SEQ_STOP_POLICY.RUNOUT (n : Nat) : Field := ⟨SEQ_STOP_POLICY.addr n, 0, 16⟩
/-- SEQ_CB_MASK (08, Table 8-13). -/
def SEQ_CB_MASK.addr (n : Nat) : Nat := 0x100020 + 0x10000 * n
def SEQ_CB_MASK.MASK (n : Nat) : Field := ⟨SEQ_CB_MASK.addr n, 0, 16⟩
/-- SEQ_RING_MASK_LO (08, Table 8-14). -/
def SEQ_RING_MASK_LO.addr (n : Nat) : Nat := 0x100024 + 0x10000 * n
def SEQ_RING_MASK_LO.RINGS (n : Nat) : Field := ⟨SEQ_RING_MASK_LO.addr n, 0, 32⟩
/-- SEQ_RING_MASK_HI (08, Table 8-14). -/
def SEQ_RING_MASK_HI.addr (n : Nat) : Nat := 0x100028 + 0x10000 * n
def SEQ_RING_MASK_HI.RINGS (n : Nat) : Field := ⟨SEQ_RING_MASK_HI.addr n, 0, 32⟩
/-- SEQ_BLOCK_TABLE (08, Table 8-15). -/
def SEQ_BLOCK_TABLE.addr (n : Nat) : Nat := 0x100030 + 0x10000 * n
def SEQ_BLOCK_TABLE.BASE (n : Nat) : Field := ⟨SEQ_BLOCK_TABLE.addr n, 0, 20⟩
/-- APG_X (08, Table 8-16). -/
def APG_X.addr (n : Nat) : Nat := 0x100100 + 0x10000 * n
def APG_X.VALUE (n : Nat) : Field := ⟨APG_X.addr n, 0, 24⟩
/-- APG_Y (08, Table 8-16). -/
def APG_Y.addr (n : Nat) : Nat := 0x100104 + 0x10000 * n
def APG_Y.VALUE (n : Nat) : Field := ⟨APG_Y.addr n, 0, 24⟩
/-- APG_X_LIMIT (08, Table 8-17). -/
def APG_X_LIMIT.addr (n : Nat) : Nat := 0x100108 + 0x10000 * n
def APG_X_LIMIT.LIMIT (n : Nat) : Field := ⟨APG_X_LIMIT.addr n, 0, 24⟩
/-- APG_Y_LIMIT (08, Table 8-17). -/
def APG_Y_LIMIT.addr (n : Nat) : Nat := 0x10010C + 0x10000 * n
def APG_Y_LIMIT.LIMIT (n : Nat) : Field := ⟨APG_Y_LIMIT.addr n, 0, 24⟩
/-- APG_Z (08, Table 8-18). -/
def APG_Z.addr (n : Nat) : Nat := 0x100110 + 0x10000 * n
def APG_Z.LIMIT (n : Nat) : Field := ⟨APG_Z.addr n, 8, 8⟩
def APG_Z.VALUE (n : Nat) : Field := ⟨APG_Z.addr n, 0, 8⟩
/-- APG_DATA_LO (08, Table 8-19). -/
def APG_DATA_LO.addr (n : Nat) : Nat := 0x100118 + 0x10000 * n
def APG_DATA_LO.DATA (n : Nat) : Field := ⟨APG_DATA_LO.addr n, 0, 32⟩
/-- APG_DATA_HI (08, Table 8-19). -/
def APG_DATA_HI.addr (n : Nat) : Nat := 0x10011C + 0x10000 * n
def APG_DATA_HI.DATA (n : Nat) : Field := ⟨APG_DATA_HI.addr n, 0, 32⟩
/-- APG_CFG (08, Table 8-20). -/
def APG_CFG.addr (n : Nat) : Nat := 0x100120 + 0x10000 * n
def APG_CFG.TOPO_EN (n : Nat) : Field := ⟨APG_CFG.addr n, 8, 1⟩
def APG_CFG.STRIDE (n : Nat) : Field := ⟨APG_CFG.addr n, 0, 6⟩
/-- APG_SCR_X (08, Table 8-21). -/
def APG_SCR_X.addr (n i : Nat) : Nat := 0x100400 + 0x10000 * n + 0x4 * i
def APG_SCR_X.INV (n i : Nat) : Field := ⟨APG_SCR_X.addr n i, 6, 1⟩
def APG_SCR_X.SRC_Y (n i : Nat) : Field := ⟨APG_SCR_X.addr n i, 5, 1⟩
def APG_SCR_X.BIT (n i : Nat) : Field := ⟨APG_SCR_X.addr n i, 0, 5⟩
/-- APG_SCR_Y (08, Table 8-21). -/
def APG_SCR_Y.addr (n i : Nat) : Nat := 0x100460 + 0x10000 * n + 0x4 * i
def APG_SCR_Y.INV (n i : Nat) : Field := ⟨APG_SCR_Y.addr n i, 6, 1⟩
def APG_SCR_Y.SRC_Y (n i : Nat) : Field := ⟨APG_SCR_Y.addr n i, 5, 1⟩
def APG_SCR_Y.BIT (n i : Nat) : Field := ⟨APG_SCR_Y.addr n i, 0, 5⟩
/-- APG_TOPO_SEL (08, Table 8-22). -/
def APG_TOPO_SEL.addr (n j : Nat) : Nat := 0x1004C0 + 0x10000 * n + 0x4 * j
def APG_TOPO_SEL.SRC (n j : Nat) : Field := ⟨APG_TOPO_SEL.addr n j, 0, 6⟩
/-- APG_TOPO (08, Table 8-23). -/
def APG_TOPO.addr (n j : Nat) : Nat := 0x1004E0 + 0x10000 * n + 0x4 * j
def APG_TOPO.TABLE (n j : Nat) : Field := ⟨APG_TOPO.addr n j, 0, 32⟩
/-- APG_PINSRC (08, Table 8-24). -/
def APG_PINSRC.addr (n j : Nat) : Nat := 0x100800 + 0x10000 * n + 0x4 * j
/-- TMG_MODE (07, Table 7-8). -/
def TMG_MODE.addr (n : Nat) : Nat := 0x200000 + 0x10000 * n
def TMG_MODE.SAMPLE (n : Nat) : Field := ⟨TMG_MODE.addr n, 16, 9⟩
def TMG_MODE.K (n : Nat) : Field := ⟨TMG_MODE.addr n, 8, 4⟩
def TMG_MODE.MODE (n : Nat) : Field := ⟨TMG_MODE.addr n, 0, 1⟩
/-- TMG_CHECK (07, Table 7-9). -/
def TMG_CHECK.addr (n : Nat) : Nat := 0x200004 + 0x10000 * n
def TMG_CHECK.FAIL (n : Nat) : Field := ⟨TMG_CHECK.addr n, 31, 1⟩
def TMG_CHECK.MODE_REFUSED (n : Nat) : Field := ⟨TMG_CHECK.addr n, 30, 1⟩
def TMG_CHECK.RULE (n : Nat) : Field := ⟨TMG_CHECK.addr n, 27, 3⟩
def TMG_CHECK.TSET_A (n : Nat) : Field := ⟨TMG_CHECK.addr n, 21, 6⟩
def TMG_CHECK.TSET_B (n : Nat) : Field := ⟨TMG_CHECK.addr n, 15, 6⟩
def TMG_CHECK.CHANNEL (n : Nat) : Field := ⟨TMG_CHECK.addr n, 0, 10⟩
/-- TMG_PERIOD_LO (07, Table 7-10). -/
def TMG_PERIOD_LO.addr (n t : Nat) : Nat := 0x200100 + 0x10000 * n + 0x80 * t
def TMG_PERIOD_LO.PERIOD_LO (n t : Nat) : Field := ⟨TMG_PERIOD_LO.addr n t, 0, 32⟩
/-- TMG_PERIOD_HI (07, Table 7-11). -/
def TMG_PERIOD_HI.addr (n t : Nat) : Nat := 0x200104 + 0x10000 * n + 0x80 * t
def TMG_PERIOD_HI.VALID (n t : Nat) : Field := ⟨TMG_PERIOD_HI.addr n t, 31, 1⟩
def TMG_PERIOD_HI.PERIOD_HI (n t : Nat) : Field := ⟨TMG_PERIOD_HI.addr n t, 0, 1⟩
/-- PIN_CFG (06, Table 6-8). -/
def PIN_CFG.addr (c : Nat) : Nat := 0x400000 + 0x1000 * c
def PIN_CFG.UNUSED (c : Nat) : Field := ⟨PIN_CFG.addr c, 8, 1⟩
def PIN_CFG.DCHK_OFF (c : Nat) : Field := ⟨PIN_CFG.addr c, 3, 1⟩
def PIN_CFG.LVL_STATIC (c : Nat) : Field := ⟨PIN_CFG.addr c, 2, 1⟩
def PIN_CFG.TERM_EN (c : Nat) : Field := ⟨PIN_CFG.addr c, 1, 1⟩
def PIN_CFG.ENC (c : Nat) : Field := ⟨PIN_CFG.addr c, 0, 1⟩
/-- PIN_STATUS (06, Table 6-9). -/
def PIN_STATUS.addr (c : Nat) : Nat := 0x400004 + 0x1000 * c
def PIN_STATUS.DCHK_CNT (c : Nat) : Field := ⟨PIN_STATUS.addr c, 16, 16⟩
def PIN_STATUS.LSET_NOW (c : Nat) : Field := ⟨PIN_STATUS.addr c, 12, 4⟩
def PIN_STATUS.RB_FAIL (c : Nat) : Field := ⟨PIN_STATUS.addr c, 9, 1⟩
def PIN_STATUS.CFG_REFUSED (c : Nat) : Field := ⟨PIN_STATUS.addr c, 8, 1⟩
def PIN_STATUS.MON_DIS (c : Nat) : Field := ⟨PIN_STATUS.addr c, 7, 1⟩
def PIN_STATUS.DCHK_DIS (c : Nat) : Field := ⟨PIN_STATUS.addr c, 6, 1⟩
def PIN_STATUS.DCHK (c : Nat) : Field := ⟨PIN_STATUS.addr c, 5, 1⟩
def PIN_STATUS.STALE (c : Nat) : Field := ⟨PIN_STATUS.addr c, 4, 1⟩
def PIN_STATUS.CAL_BUS (c : Nat) : Field := ⟨PIN_STATUS.addr c, 3, 1⟩
def PIN_STATUS.PPMU_ON (c : Nat) : Field := ⟨PIN_STATUS.addr c, 2, 1⟩
def PIN_STATUS.PARKED (c : Nat) : Field := ⟨PIN_STATUS.addr c, 1, 1⟩
def PIN_STATUS.DRIVING (c : Nat) : Field := ⟨PIN_STATUS.addr c, 0, 1⟩
/-- PIN_LVL_HI (06, Table 6-10). -/
def PIN_LVL_HI.addr (c k : Nat) : Nat := 0x400100 + 0x1000 * c + 0x8 * k
def PIN_LVL_HI.CODE (c k : Nat) : Field := ⟨PIN_LVL_HI.addr c k, 0, 14⟩
/-- PIN_LVL_LO (06, Table 6-10). -/
def PIN_LVL_LO.addr (c k : Nat) : Nat := 0x400104 + 0x1000 * c + 0x8 * k
def PIN_LVL_LO.CODE (c k : Nat) : Field := ⟨PIN_LVL_LO.addr c k, 0, 14⟩
/-- PIN_VTT (06, Table 6-11). -/
def PIN_VTT.addr (c : Nat) : Nat := 0x400180 + 0x1000 * c
def PIN_VTT.CODE (c : Nat) : Field := ⟨PIN_VTT.addr c, 0, 16⟩
/-- PIN_THR_H (06, Table 6-12). -/
def PIN_THR_H.addr (c : Nat) : Nat := 0x400184 + 0x1000 * c
def PIN_THR_H.CODE (c : Nat) : Field := ⟨PIN_THR_H.addr c, 0, 16⟩
/-- PIN_THR_L (06, Table 6-12). -/
def PIN_THR_L.addr (c : Nat) : Nat := 0x400188 + 0x1000 * c
def PIN_THR_L.CODE (c : Nat) : Field := ⟨PIN_THR_L.addr c, 0, 16⟩
/-- PIN_HYST (06, Table 6-13). -/
def PIN_HYST.addr (c : Nat) : Nat := 0x40018C + 0x1000 * c
def PIN_HYST.HYST_L (c : Nat) : Field := ⟨PIN_HYST.addr c, 8, 6⟩
def PIN_HYST.HYST_H (c : Nat) : Field := ⟨PIN_HYST.addr c, 0, 6⟩
/-- PIN_HOLDOFF (06, Table 6-14). -/
def PIN_HOLDOFF.addr (c : Nat) : Nat := 0x400190 + 0x1000 * c
def PIN_HOLDOFF.HO_L (c : Nat) : Field := ⟨PIN_HOLDOFF.addr c, 8, 8⟩
def PIN_HOLDOFF.HO_H (c : Nat) : Field := ⟨PIN_HOLDOFF.addr c, 0, 8⟩
/-- PIN_DESKEW_DRV (07, Table 7-12). -/
def PIN_DESKEW_DRV.addr (c : Nat) : Nat := 0x400200 + 0x1000 * c
def PIN_DESKEW_DRV.DESKEW (c : Nat) : Field := ⟨PIN_DESKEW_DRV.addr c, 0, 18⟩
/-- PIN_DESKEW_CMP_H (07, Table 7-12). -/
def PIN_DESKEW_CMP_H.addr (c : Nat) : Nat := 0x400204 + 0x1000 * c
def PIN_DESKEW_CMP_H.DESKEW (c : Nat) : Field := ⟨PIN_DESKEW_CMP_H.addr c, 0, 18⟩
/-- PIN_DESKEW_CMP_L (07, Table 7-12). -/
def PIN_DESKEW_CMP_L.addr (c : Nat) : Nat := 0x400208 + 0x1000 * c
def PIN_DESKEW_CMP_L.DESKEW (c : Nat) : Field := ⟨PIN_DESKEW_CMP_L.addr c, 0, 18⟩
/-- PIN_TS_FMT (07, Table 7-13). -/
def PIN_TS_FMT.addr (c j : Nat) : Nat := 0x400220 + 0x1000 * c + 0x4 * j
/-- PIN_TDC_CFG (12, Table 12-4). -/
def PIN_TDC_CFG.addr (c : Nat) : Nat := 0x400300 + 0x1000 * c
def PIN_TDC_CFG.MISSED (c : Nat) : Field := ⟨PIN_TDC_CFG.addr c, 16, 16⟩
def PIN_TDC_CFG.MISS_CLR (c : Nat) : Field := ⟨PIN_TDC_CFG.addr c, 15, 1⟩
def PIN_TDC_CFG.BT_CAL_L (c : Nat) : Field := ⟨PIN_TDC_CFG.addr c, 9, 1⟩
def PIN_TDC_CFG.BT_CAL_H (c : Nat) : Field := ⟨PIN_TDC_CFG.addr c, 8, 1⟩
def PIN_TDC_CFG.EN_L (c : Nat) : Field := ⟨PIN_TDC_CFG.addr c, 1, 1⟩
def PIN_TDC_CFG.EN_H (c : Nat) : Field := ⟨PIN_TDC_CFG.addr c, 0, 1⟩
/-- PIN_TDC_MEAS (12, Table 12-5). -/
def PIN_TDC_MEAS.addr (c : Nat) : Nat := 0x400304 + 0x1000 * c
def PIN_TDC_MEAS.START (c : Nat) : Field := ⟨PIN_TDC_MEAS.addr c, 31, 1⟩
def PIN_TDC_MEAS.ABORT (c : Nat) : Field := ⟨PIN_TDC_MEAS.addr c, 30, 1⟩
def PIN_TDC_MEAS.CONT (c : Nat) : Field := ⟨PIN_TDC_MEAS.addr c, 29, 1⟩
def PIN_TDC_MEAS.AVG_LOG2 (c : Nat) : Field := ⟨PIN_TDC_MEAS.addr c, 20, 4⟩
def PIN_TDC_MEAS.NSTOP (c : Nat) : Field := ⟨PIN_TDC_MEAS.addr c, 16, 4⟩
def PIN_TDC_MEAS.ARM (c : Nat) : Field := ⟨PIN_TDC_MEAS.addr c, 8, 2⟩
def PIN_TDC_MEAS.KIND (c : Nat) : Field := ⟨PIN_TDC_MEAS.addr c, 0, 3⟩
/-- PIN_TDC_START_SEL (12, Table 12-3). -/
def PIN_TDC_START_SEL.addr (c : Nat) : Nat := 0x400308 + 0x1000 * c
def PIN_TDC_START_SEL.OCC (c : Nat) : Field := ⟨PIN_TDC_START_SEL.addr c, 16, 16⟩
def PIN_TDC_START_SEL.POL (c : Nat) : Field := ⟨PIN_TDC_START_SEL.addr c, 12, 2⟩
def PIN_TDC_START_SEL.CMP (c : Nat) : Field := ⟨PIN_TDC_START_SEL.addr c, 10, 1⟩
def PIN_TDC_START_SEL.CHANNEL (c : Nat) : Field := ⟨PIN_TDC_START_SEL.addr c, 0, 10⟩
/-- PIN_TDC_LIMIT (12, Table 12-6). -/
def PIN_TDC_LIMIT.addr (c : Nat) : Nat := 0x40030C + 0x1000 * c
def PIN_TDC_LIMIT.LIMIT (c : Nat) : Field := ⟨PIN_TDC_LIMIT.addr c, 0, 32⟩
/-- PIN_TDC_STATUS (12, Table 12-7). -/
def PIN_TDC_STATUS.addr (c : Nat) : Nat := 0x400310 + 0x1000 * c
def PIN_TDC_STATUS.BUSY (c : Nat) : Field := ⟨PIN_TDC_STATUS.addr c, 31, 1⟩
def PIN_TDC_STATUS.DONE (c : Nat) : Field := ⟨PIN_TDC_STATUS.addr c, 30, 1⟩
def PIN_TDC_STATUS.TIMEBASE_COLD (c : Nat) : Field := ⟨PIN_TDC_STATUS.addr c, 29, 1⟩
def PIN_TDC_STATUS.STALE (c : Nat) : Field := ⟨PIN_TDC_STATUS.addr c, 28, 1⟩
def PIN_TDC_STATUS.TIMEOUT (c : Nat) : Field := ⟨PIN_TDC_STATUS.addr c, 27, 1⟩
def PIN_TDC_STATUS.MISSED (c : Nat) : Field := ⟨PIN_TDC_STATUS.addr c, 26, 1⟩
def PIN_TDC_STATUS.OVERFLOW (c : Nat) : Field := ⟨PIN_TDC_STATUS.addr c, 25, 1⟩
def PIN_TDC_STATUS.TABLE_CHANGED (c : Nat) : Field := ⟨PIN_TDC_STATUS.addr c, 24, 1⟩
def PIN_TDC_STATUS.REFUSED (c : Nat) : Field := ⟨PIN_TDC_STATUS.addr c, 23, 1⟩
def PIN_TDC_STATUS.ABORTED (c : Nat) : Field := ⟨PIN_TDC_STATUS.addr c, 22, 1⟩
def PIN_TDC_STATUS.NO_SIGNAL (c : Nat) : Field := ⟨PIN_TDC_STATUS.addr c, 21, 1⟩
def PIN_TDC_STATUS.START_VALID (c : Nat) : Field := ⟨PIN_TDC_STATUS.addr c, 15, 1⟩
def PIN_TDC_STATUS.STOP_VALID (c : Nat) : Field := ⟨PIN_TDC_STATUS.addr c, 0, 15⟩
/-- PIN_TDC_T0_LO (12, Table 12-8). -/
def PIN_TDC_T0_LO.addr (c : Nat) : Nat := 0x400318 + 0x1000 * c
def PIN_TDC_T0_LO.TIME (c : Nat) : Field := ⟨PIN_TDC_T0_LO.addr c, 0, 32⟩
/-- PIN_TDC_T0_HI (12, Table 12-8). -/
def PIN_TDC_T0_HI.addr (c : Nat) : Nat := 0x40031C + 0x1000 * c
def PIN_TDC_T0_HI.TIME (c : Nat) : Field := ⟨PIN_TDC_T0_HI.addr c, 0, 32⟩
/-- PIN_TDC_INT (12, Table 12-9). -/
def PIN_TDC_INT.addr (c i : Nat) : Nat := 0x400320 + 0x1000 * c + 0x4 * i
def PIN_TDC_INT.VALUE (c i : Nat) : Field := ⟨PIN_TDC_INT.addr c i, 0, 32⟩
/-- PIN_TDC_SDEV (12, Table 12-10). -/
def PIN_TDC_SDEV.addr (c : Nat) : Nat := 0x40035C + 0x1000 * c
def PIN_TDC_SDEV.SDEV (c : Nat) : Field := ⟨PIN_TDC_SDEV.addr c, 0, 32⟩
/-- PIN_TDC_FREQ_LO (12, Table 12-11). -/
def PIN_TDC_FREQ_LO.addr (c : Nat) : Nat := 0x400360 + 0x1000 * c
def PIN_TDC_FREQ_LO.FREQ (c : Nat) : Field := ⟨PIN_TDC_FREQ_LO.addr c, 0, 32⟩
/-- PIN_TDC_FREQ_HI (12, Table 12-11). -/
def PIN_TDC_FREQ_HI.addr (c : Nat) : Nat := 0x400364 + 0x1000 * c
def PIN_TDC_FREQ_HI.FREQ (c : Nat) : Field := ⟨PIN_TDC_FREQ_HI.addr c, 0, 32⟩
/-- PIN_TDC_FREQ_N (12, Table 12-12). -/
def PIN_TDC_FREQ_N.addr (c : Nat) : Nat := 0x400368 + 0x1000 * c
def PIN_TDC_FREQ_N.DEC_LOG2 (c : Nat) : Field := ⟨PIN_TDC_FREQ_N.addr c, 24, 5⟩
def PIN_TDC_FREQ_N.N (c : Nat) : Field := ⟨PIN_TDC_FREQ_N.addr c, 0, 17⟩
/-- PIN_TDC_FREQ_RMS (12, Table 12-13). -/
def PIN_TDC_FREQ_RMS.addr (c : Nat) : Nat := 0x40036C + 0x1000 * c
def PIN_TDC_FREQ_RMS.RMS (c : Nat) : Field := ⟨PIN_TDC_FREQ_RMS.addr c, 0, 32⟩
/-- PIN_TDC_STOP_SEL (12, Table 12-3). -/
def PIN_TDC_STOP_SEL.addr (c i : Nat) : Nat := 0x400380 + 0x1000 * c + 0x4 * i
def PIN_TDC_STOP_SEL.OCC (c i : Nat) : Field := ⟨PIN_TDC_STOP_SEL.addr c i, 16, 16⟩
def PIN_TDC_STOP_SEL.POL (c i : Nat) : Field := ⟨PIN_TDC_STOP_SEL.addr c i, 12, 2⟩
def PIN_TDC_STOP_SEL.CMP (c i : Nat) : Field := ⟨PIN_TDC_STOP_SEL.addr c i, 10, 1⟩
def PIN_TDC_STOP_SEL.CHANNEL (c i : Nat) : Field := ⟨PIN_TDC_STOP_SEL.addr c i, 0, 10⟩
/-- PIN_TDC_ARM_TIME_LO (12, Table 12-14). -/
def PIN_TDC_ARM_TIME_LO.addr (c : Nat) : Nat := 0x4003C0 + 0x1000 * c
def PIN_TDC_ARM_TIME_LO.TIME (c : Nat) : Field := ⟨PIN_TDC_ARM_TIME_LO.addr c, 0, 32⟩
/-- PIN_TDC_ARM_TIME_HI (12, Table 12-14). -/
def PIN_TDC_ARM_TIME_HI.addr (c : Nat) : Nat := 0x4003C4 + 0x1000 * c
def PIN_TDC_ARM_TIME_HI.TIME (c : Nat) : Field := ⟨PIN_TDC_ARM_TIME_HI.addr c, 0, 32⟩
/-- PIN_PPMU_CFG (06, Table 6-15). -/
def PIN_PPMU_CFG.addr (c : Nat) : Nat := 0x400400 + 0x1000 * c
def PIN_PPMU_CFG.START (c : Nat) : Field := ⟨PIN_PPMU_CFG.addr c, 31, 1⟩
def PIN_PPMU_CFG.CONT (c : Nat) : Field := ⟨PIN_PPMU_CFG.addr c, 30, 1⟩
def PIN_PPMU_CFG.SETTLE (c : Nat) : Field := ⟨PIN_PPMU_CFG.addr c, 20, 8⟩
def PIN_PPMU_CFG.AVG_LOG2 (c : Nat) : Field := ⟨PIN_PPMU_CFG.addr c, 16, 4⟩
def PIN_PPMU_CFG.RB_SET (c : Nat) : Field := ⟨PIN_PPMU_CFG.addr c, 12, 4⟩
def PIN_PPMU_CFG.MEAS_SEL (c : Nat) : Field := ⟨PIN_PPMU_CFG.addr c, 8, 4⟩
def PIN_PPMU_CFG.IRANGE (c : Nat) : Field := ⟨PIN_PPMU_CFG.addr c, 2, 3⟩
def PIN_PPMU_CFG.MODE (c : Nat) : Field := ⟨PIN_PPMU_CFG.addr c, 1, 1⟩
def PIN_PPMU_CFG.CONNECT (c : Nat) : Field := ⟨PIN_PPMU_CFG.addr c, 0, 1⟩
/-- PIN_PPMU_FORCE (06, Table 6-17). -/
def PIN_PPMU_FORCE.addr (c : Nat) : Nat := 0x400404 + 0x1000 * c
def PIN_PPMU_FORCE.CLAMP_HI (c : Nat) : Field := ⟨PIN_PPMU_FORCE.addr c, 24, 8⟩
def PIN_PPMU_FORCE.CLAMP_LO (c : Nat) : Field := ⟨PIN_PPMU_FORCE.addr c, 16, 8⟩
def PIN_PPMU_FORCE.FORCE (c : Nat) : Field := ⟨PIN_PPMU_FORCE.addr c, 0, 16⟩
/-- PIN_PPMU_MEAS (06, Table 6-18). -/
def PIN_PPMU_MEAS.addr (c : Nat) : Nat := 0x400408 + 0x1000 * c
def PIN_PPMU_MEAS.PARKED (c : Nat) : Field := ⟨PIN_PPMU_MEAS.addr c, 30, 1⟩
def PIN_PPMU_MEAS.BLOCKED (c : Nat) : Field := ⟨PIN_PPMU_MEAS.addr c, 29, 1⟩
def PIN_PPMU_MEAS.RB_FAIL (c : Nat) : Field := ⟨PIN_PPMU_MEAS.addr c, 28, 1⟩
def PIN_PPMU_MEAS.OVERRANGE (c : Nat) : Field := ⟨PIN_PPMU_MEAS.addr c, 27, 1⟩
def PIN_PPMU_MEAS.CLAMP (c : Nat) : Field := ⟨PIN_PPMU_MEAS.addr c, 26, 1⟩
def PIN_PPMU_MEAS.STALE (c : Nat) : Field := ⟨PIN_PPMU_MEAS.addr c, 25, 1⟩
def PIN_PPMU_MEAS.DONE (c : Nat) : Field := ⟨PIN_PPMU_MEAS.addr c, 24, 1⟩
def PIN_PPMU_MEAS.VALUE (c : Nat) : Field := ⟨PIN_PPMU_MEAS.addr c, 0, 24⟩
/-- PIN_MON_WIN (15, Table 15-3). -/
def PIN_MON_WIN.addr (c : Nat) : Nat := 0x400500 + 0x1000 * c
def PIN_MON_WIN.EN (c : Nat) : Field := ⟨PIN_MON_WIN.addr c, 31, 1⟩
def PIN_MON_WIN.ESC (c : Nat) : Field := ⟨PIN_MON_WIN.addr c, 28, 2⟩
def PIN_MON_WIN.HI (c : Nat) : Field := ⟨PIN_MON_WIN.addr c, 16, 10⟩
def PIN_MON_WIN.LO (c : Nat) : Field := ⟨PIN_MON_WIN.addr c, 0, 10⟩
/-- PIN_FAILCNT_LO (10, Table 10-18). -/
def PIN_FAILCNT_LO.addr (c : Nat) : Nat := 0x400600 + 0x1000 * c
def PIN_FAILCNT_LO.COUNT (c : Nat) : Field := ⟨PIN_FAILCNT_LO.addr c, 0, 32⟩
/-- PIN_FAILCNT_HI (10, Table 10-18). -/
def PIN_FAILCNT_HI.addr (c : Nat) : Nat := 0x400604 + 0x1000 * c
def PIN_FAILCNT_HI.COUNT (c : Nat) : Field := ⟨PIN_FAILCNT_HI.addr c, 0, 32⟩
/-- PIN_TRK_CFG (10, Table 10-19). -/
def PIN_TRK_CFG.addr (c : Nat) : Nat := 0x400610 + 0x1000 * c
def PIN_TRK_CFG.ROLE (c : Nat) : Field := ⟨PIN_TRK_CFG.addr c, 30, 2⟩
def PIN_TRK_CFG.STROBE_CH (c : Nat) : Field := ⟨PIN_TRK_CFG.addr c, 16, 10⟩
def PIN_TRK_CFG.PRE_LVL (c : Nat) : Field := ⟨PIN_TRK_CFG.addr c, 15, 1⟩
def PIN_TRK_CFG.PRE_LEN (c : Nat) : Field := ⟨PIN_TRK_CFG.addr c, 12, 3⟩
def PIN_TRK_CFG.BURST_LEN (c : Nat) : Field := ⟨PIN_TRK_CFG.addr c, 5, 6⟩
/-- PIN_TRK_DELAY (10, Table 10-20). -/
def PIN_TRK_DELAY.addr (c : Nat) : Nat := 0x400614 + 0x1000 * c
def PIN_TRK_DELAY.DELAY (c : Nat) : Field := ⟨PIN_TRK_DELAY.addr c, 0, 18⟩
/-- PIN_QUALITY_TIME (14, Table 14-12). -/
def PIN_QUALITY_TIME.addr (c : Nat) : Nat := 0x400700 + 0x1000 * c
def PIN_QUALITY_TIME.RESID (c : Nat) : Field := ⟨PIN_QUALITY_TIME.addr c, 0, 20⟩
/-- PIN_QUALITY_EYE (14, Table 14-12). -/
def PIN_QUALITY_EYE.addr (c : Nat) : Nat := 0x400704 + 0x1000 * c
def PIN_QUALITY_EYE.EYE (c : Nat) : Field := ⟨PIN_QUALITY_EYE.addr c, 0, 16⟩
/-- PIN_QUALITY_THR (14, Table 14-12). -/
def PIN_QUALITY_THR.addr (c : Nat) : Nat := 0x400708 + 0x1000 * c
def PIN_QUALITY_THR.CL (c : Nat) : Field := ⟨PIN_QUALITY_THR.addr c, 16, 16⟩
def PIN_QUALITY_THR.CH (c : Nat) : Field := ⟨PIN_QUALITY_THR.addr c, 0, 16⟩
/-- PIN_QUALITY_TDC (14, Table 14-12). -/
def PIN_QUALITY_TDC.addr (c : Nat) : Nat := 0x40070C + 0x1000 * c
def PIN_QUALITY_TDC.CL (c : Nat) : Field := ⟨PIN_QUALITY_TDC.addr c, 16, 16⟩
def PIN_QUALITY_TDC.CH (c : Nat) : Field := ⟨PIN_QUALITY_TDC.addr c, 0, 16⟩
/-- PIN_QUALITY_AGE_LO (14, Table 14-12). -/
def PIN_QUALITY_AGE_LO.addr (c : Nat) : Nat := 0x400710 + 0x1000 * c
def PIN_QUALITY_AGE_LO.TIME (c : Nat) : Field := ⟨PIN_QUALITY_AGE_LO.addr c, 0, 32⟩
/-- PIN_QUALITY_AGE_HI (14, Table 14-12). -/
def PIN_QUALITY_AGE_HI.addr (c : Nat) : Nat := 0x400714 + 0x1000 * c
def PIN_QUALITY_AGE_HI.TIME (c : Nat) : Field := ⟨PIN_QUALITY_AGE_HI.addr c, 0, 32⟩
/-- PIN_QUALITY_STAT (14, Table 14-12). -/
def PIN_QUALITY_STAT.addr (c : Nat) : Nat := 0x400718 + 0x1000 * c
def PIN_QUALITY_STAT.REJECTS (c : Nat) : Field := ⟨PIN_QUALITY_STAT.addr c, 16, 16⟩
def PIN_QUALITY_STAT.ELIGIBLE (c : Nat) : Field := ⟨PIN_QUALITY_STAT.addr c, 8, 1⟩
def PIN_QUALITY_STAT.HELD (c : Nat) : Field := ⟨PIN_QUALITY_STAT.addr c, 0, 4⟩
/-- PIN_EDGE (07, Table 7-14). -/
def PIN_EDGE.addr (c i : Nat) : Nat := 0x400800 + 0x1000 * c + 0x4 * i
def PIN_EDGE.EN (c i : Nat) : Field := ⟨PIN_EDGE.addr c i, 31, 1⟩
def PIN_EDGE.TIME (c i : Nat) : Field := ⟨PIN_EDGE.addr c i, 0, 31⟩
/-- FAIL_CFG (10, Table 10-3). -/
def FAIL_CFG.addr (g : Nat) : Nat := 0x800000 + 0x4000 * g
def FAIL_CFG.THRESH (g : Nat) : Field := ⟨FAIL_CFG.addr g, 16, 16⟩
def FAIL_CFG.WHISTLE (g : Nat) : Field := ⟨FAIL_CFG.addr g, 8, 2⟩
def FAIL_CFG.STOP (g : Nat) : Field := ⟨FAIL_CFG.addr g, 7, 1⟩
def FAIL_CFG.BENCH (g : Nat) : Field := ⟨FAIL_CFG.addr g, 6, 1⟩
/-- FAIL_STATUS (10, Table 10-4). -/
def FAIL_STATUS.addr (g : Nat) : Nat := 0x800004 + 0x4000 * g
def FAIL_STATUS.OWNED (g : Nat) : Field := ⟨FAIL_STATUS.addr g, 20, 1⟩
def FAIL_STATUS.ACT (g : Nat) : Field := ⟨FAIL_STATUS.addr g, 16, 4⟩
def FAIL_STATUS.LINK_ERR (g : Nat) : Field := ⟨FAIL_STATUS.addr g, 10, 1⟩
def FAIL_STATUS.UNMAPPED (g : Nat) : Field := ⟨FAIL_STATUS.addr g, 9, 1⟩
def FAIL_STATUS.STRAY (g : Nat) : Field := ⟨FAIL_STATUS.addr g, 8, 1⟩
def FAIL_STATUS.MISSING (g : Nat) : Field := ⟨FAIL_STATUS.addr g, 7, 1⟩
def FAIL_STATUS.CFG_REFUSED (g : Nat) : Field := ⟨FAIL_STATUS.addr g, 6, 1⟩
def FAIL_STATUS.LOG_GAP (g : Nat) : Field := ⟨FAIL_STATUS.addr g, 5, 1⟩
def FAIL_STATUS.LOG_WRAPPED (g : Nat) : Field := ⟨FAIL_STATUS.addr g, 4, 1⟩
def FAIL_STATUS.LOG_FULL (g : Nat) : Field := ⟨FAIL_STATUS.addr g, 3, 1⟩
def FAIL_STATUS.ACTION (g : Nat) : Field := ⟨FAIL_STATUS.addr g, 2, 1⟩
def FAIL_STATUS.BENCHED (g : Nat) : Field := ⟨FAIL_STATUS.addr g, 1, 1⟩
def FAIL_STATUS.FIRST_VALID (g : Nat) : Field := ⟨FAIL_STATUS.addr g, 0, 1⟩
/-- FAIL_COUNT_LO (10, Table 10-5). -/
def FAIL_COUNT_LO.addr (g : Nat) : Nat := 0x800008 + 0x4000 * g
def FAIL_COUNT_LO.COUNT (g : Nat) : Field := ⟨FAIL_COUNT_LO.addr g, 0, 32⟩
/-- FAIL_COUNT_HI (10, Table 10-5). -/
def FAIL_COUNT_HI.addr (g : Nat) : Nat := 0x80000C + 0x4000 * g
def FAIL_COUNT_HI.COUNT (g : Nat) : Field := ⟨FAIL_COUNT_HI.addr g, 0, 32⟩
/-- FAIL_FIRST_CYCLE_LO (10, Table 10-6). -/
def FAIL_FIRST_CYCLE_LO.addr (g : Nat) : Nat := 0x800010 + 0x4000 * g
def FAIL_FIRST_CYCLE_LO.VALUE (g : Nat) : Field := ⟨FAIL_FIRST_CYCLE_LO.addr g, 0, 32⟩
/-- FAIL_FIRST_CYCLE_HI (10, Table 10-6). -/
def FAIL_FIRST_CYCLE_HI.addr (g : Nat) : Nat := 0x800014 + 0x4000 * g
def FAIL_FIRST_CYCLE_HI.VALUE (g : Nat) : Field := ⟨FAIL_FIRST_CYCLE_HI.addr g, 0, 32⟩
/-- FAIL_FIRST_TIME_LO (10, Table 10-6). -/
def FAIL_FIRST_TIME_LO.addr (g : Nat) : Nat := 0x800018 + 0x4000 * g
def FAIL_FIRST_TIME_LO.VALUE (g : Nat) : Field := ⟨FAIL_FIRST_TIME_LO.addr g, 0, 32⟩
/-- FAIL_FIRST_TIME_HI (10, Table 10-6). -/
def FAIL_FIRST_TIME_HI.addr (g : Nat) : Nat := 0x80001C + 0x4000 * g
def FAIL_FIRST_TIME_HI.VALUE (g : Nat) : Field := ⟨FAIL_FIRST_TIME_HI.addr g, 0, 32⟩
/-- FAIL_FIRST_ADDR_LO (10, Table 10-7). -/
def FAIL_FIRST_ADDR_LO.addr (g : Nat) : Nat := 0x800020 + 0x4000 * g
def FAIL_FIRST_ADDR_LO.Z (g : Nat) : Field := ⟨FAIL_FIRST_ADDR_LO.addr g, 24, 8⟩
def FAIL_FIRST_ADDR_LO.ADDR (g : Nat) : Field := ⟨FAIL_FIRST_ADDR_LO.addr g, 0, 24⟩
/-- FAIL_FIRST_ADDR_HI (10, Table 10-7). -/
def FAIL_FIRST_ADDR_HI.addr (g : Nat) : Nat := 0x800024 + 0x4000 * g
def FAIL_FIRST_ADDR_HI.Z (g : Nat) : Field := ⟨FAIL_FIRST_ADDR_HI.addr g, 24, 8⟩
def FAIL_FIRST_ADDR_HI.ADDR (g : Nat) : Field := ⟨FAIL_FIRST_ADDR_HI.addr g, 0, 24⟩
/-- FAIL_FIRST_PIN (10, Table 10-8). -/
def FAIL_FIRST_PIN.addr (g : Nat) : Nat := 0x800028 + 0x4000 * g
def FAIL_FIRST_PIN.NFAIL (g : Nat) : Field := ⟨FAIL_FIRST_PIN.addr g, 16, 16⟩
def FAIL_FIRST_PIN.CHANNEL (g : Nat) : Field := ⟨FAIL_FIRST_PIN.addr g, 0, 10⟩
/-- FAIL_LOG_BASE (10, Table 10-9). -/
def FAIL_LOG_BASE.addr (g : Nat) : Nat := 0x800030 + 0x4000 * g
def FAIL_LOG_BASE.BASE (g : Nat) : Field := ⟨FAIL_LOG_BASE.addr g, 0, 25⟩
/-- FAIL_LOG_SIZE (10, Table 10-10). -/
def FAIL_LOG_SIZE.addr (g : Nat) : Nat := 0x800034 + 0x4000 * g
def FAIL_LOG_SIZE.SIZE (g : Nat) : Field := ⟨FAIL_LOG_SIZE.addr g, 0, 28⟩
/-- FAIL_LOG_WR (10, Table 10-11). -/
def FAIL_LOG_WR.addr (g : Nat) : Nat := 0x800038 + 0x4000 * g
def FAIL_LOG_WR.WRAPPED (g : Nat) : Field := ⟨FAIL_LOG_WR.addr g, 31, 1⟩
def FAIL_LOG_WR.INDEX (g : Nat) : Field := ⟨FAIL_LOG_WR.addr g, 0, 28⟩
/-- FAIL_LOG_POLICY (10, Table 10-12). -/
def FAIL_LOG_POLICY.addr (g : Nat) : Nat := 0x80003C + 0x4000 * g
def FAIL_LOG_POLICY.MASK_EN (g : Nat) : Field := ⟨FAIL_LOG_POLICY.addr g, 1, 1⟩
def FAIL_LOG_POLICY.POLICY (g : Nat) : Field := ⟨FAIL_LOG_POLICY.addr g, 0, 1⟩
/-- FAIL_LOG_DROP (10, Table 10-13). -/
def FAIL_LOG_DROP.addr (g : Nat) : Nat := 0x800040 + 0x4000 * g
def FAIL_LOG_DROP.RATE (g : Nat) : Field := ⟨FAIL_LOG_DROP.addr g, 16, 16⟩
def FAIL_LOG_DROP.FULL (g : Nat) : Field := ⟨FAIL_LOG_DROP.addr g, 0, 16⟩
/-- FAIL_MASK_BASE (10, Table 10-9). -/
def FAIL_MASK_BASE.addr (g : Nat) : Nat := 0x800044 + 0x4000 * g
def FAIL_MASK_BASE.BASE (g : Nat) : Field := ⟨FAIL_MASK_BASE.addr g, 0, 25⟩
/-- FAIL_BITMAP_BASE (10, Table 10-9). -/
def FAIL_BITMAP_BASE.addr (g : Nat) : Nat := 0x800048 + 0x4000 * g
def FAIL_BITMAP_BASE.BASE (g : Nat) : Field := ⟨FAIL_BITMAP_BASE.addr g, 0, 25⟩
/-- FAIL_BITMAP_CFG (10, Table 10-14). -/
def FAIL_BITMAP_CFG.addr (g : Nat) : Nat := 0x80004C + 0x4000 * g
def FAIL_BITMAP_CFG.ACCUM (g : Nat) : Field := ⟨FAIL_BITMAP_CFG.addr g, 31, 1⟩
def FAIL_BITMAP_CFG.DBITS (g : Nat) : Field := ⟨FAIL_BITMAP_CFG.addr g, 24, 3⟩
def FAIL_BITMAP_CFG.ZBITS (g : Nat) : Field := ⟨FAIL_BITMAP_CFG.addr g, 16, 4⟩
def FAIL_BITMAP_CFG.YBITS (g : Nat) : Field := ⟨FAIL_BITMAP_CFG.addr g, 8, 5⟩
def FAIL_BITMAP_CFG.XBITS (g : Nat) : Field := ⟨FAIL_BITMAP_CFG.addr g, 0, 5⟩
/-- FAIL_TILE_CFG (10, Table 10-15). -/
def FAIL_TILE_CFG.addr (g : Nat) : Nat := 0x800050 + 0x4000 * g
def FAIL_TILE_CFG.PUSH (g : Nat) : Field := ⟨FAIL_TILE_CFG.addr g, 31, 1⟩
def FAIL_TILE_CFG.FINAL (g : Nat) : Field := ⟨FAIL_TILE_CFG.addr g, 30, 1⟩
def FAIL_TILE_CFG.STREAM (g : Nat) : Field := ⟨FAIL_TILE_CFG.addr g, 16, 4⟩
def FAIL_TILE_CFG.PERIOD (g : Nat) : Field := ⟨FAIL_TILE_CFG.addr g, 0, 16⟩
/-- FAIL_TILE_STATUS (10, Table 10-16). -/
def FAIL_TILE_STATUS.addr (g : Nat) : Nat := 0x800054 + 0x4000 * g
def FAIL_TILE_STATUS.CLEARING (g : Nat) : Field := ⟨FAIL_TILE_STATUS.addr g, 31, 1⟩
def FAIL_TILE_STATUS.PUSHING (g : Nat) : Field := ⟨FAIL_TILE_STATUS.addr g, 30, 1⟩
def FAIL_TILE_STATUS.STREAM_FULL (g : Nat) : Field := ⟨FAIL_TILE_STATUS.addr g, 29, 1⟩
def FAIL_TILE_STATUS.STREAM_OFF (g : Nat) : Field := ⟨FAIL_TILE_STATUS.addr g, 28, 1⟩
def FAIL_TILE_STATUS.DIRTY (g : Nat) : Field := ⟨FAIL_TILE_STATUS.addr g, 0, 26⟩
/-- FAIL_RING_CH (10, Table 10-17). -/
def FAIL_RING_CH.addr (g i : Nat) : Nat := 0x800100 + 0x4000 * g + 0x4 * i
def FAIL_RING_CH.MEMBERS (g i : Nat) : Field := ⟨FAIL_RING_CH.addr g i, 0, 32⟩

def regRows.sys : List RegRow := [
  ⟨"SYS_ID", 0x0, [], 0x0, 0x0, 0x0, 0x10241F5C, 0, 0xFFFFFFFF⟩,
  ⟨"SYS_REV", 0x4, [], 0x0, 0x0, 0x0, 0x0, 0, 0xFF1FFF⟩,
  ⟨"SYS_SERIAL_LO", 0x8, [], 0x0, 0x0, 0x0, 0x0, 0, 0xFFFFFFFF⟩,
  ⟨"SYS_SERIAL_HI", 0xC, [], 0x0, 0x0, 0x0, 0x0, 0, 0xFFFFFFFF⟩,
  ⟨"SYS_MODE", 0x10, [], 0x0, 0x0, 0x0, 0x1, 0, 0xF07⟩,
  ⟨"SYS_MODE_REQ", 0x14, [], 0x0, 0x0, 0xFF00000F, 0x0, 0, 0xFF00000F⟩,
  ⟨"SYS_STATUS", 0x18, [], 0x0, 0x2, 0x0, 0x1, 0, 0x70F1B⟩,
  ⟨"SYS_FAULT", 0x20, [], 0x0, 0x0, 0x0, 0x0, 0, 0x1FFE⟩,
  ⟨"SYS_FAULT_CODE", 0x24, [], 0x0, 0x0, 0x0, 0x0, 0, 0xFFFFFFFF⟩,
  ⟨"SYS_ROLE", 0x30, [], 0x0, 0x0, 0x0, 0x0, 0, 0x3⟩,
  ⟨"SYS_DEVIDX", 0x34, [], 0x0, 0x0, 0x0, 0x0, 0, 0x800001FF⟩,
  ⟨"SYS_IRQ_STATUS", 0x40, [], 0x0, 0x7F, 0x0, 0x0, 0, 0x7F⟩,
  ⟨"SYS_IRQ_MASK", 0x44, [], 0x7E, 0x0, 0x0, 0x1, 0, 0x7F⟩,
  ⟨"SYS_BIST", 0x60, [(8, 0x4)], 0x0, 0x0, 0x0, 0x0, 0, 0xE000FFFF⟩,
  ⟨"SYS_PARK", 0x80, [], 0xFFFF, 0x0, 0x0, 0x0, 0, 0xC000FFFF⟩,
  ⟨"SYS_BD_DOORBELL", 0x88, [], 0x0, 0x0, 0x1, 0x0, 0, 0x1⟩]

def regRows.clk : List RegRow := [
  ⟨"CLK_ROOT_CFG", 0x10000, [], 0x113FFFF, 0x0, 0x0, 0x1006400, 0, 0x113FFFF⟩,
  ⟨"CLK_STATUS", 0x10004, [], 0x0, 0x4, 0x0, 0x800, 0, 0xFFF⟩,
  ⟨"CLK_TIME_LO", 0x10010, [], 0x0, 0x0, 0x0, 0x0, 0, 0xFFFFFFFF⟩,
  ⟨"CLK_TIME_HI", 0x10014, [], 0x0, 0x0, 0x0, 0x0, 0, 0xFFFFFFFF⟩,
  ⟨"CLK_EPOCH", 0x10018, [], 0x0, 0x0, 0x0, 0x0, 0, 0xFFFFFFFF⟩,
  ⟨"CLK_SYNC_OFFSET", 0x10020, [], 0x0, 0x0, 0x0, 0x0, 0, 0xFFFFFFFF⟩,
  ⟨"CLK_SYNC_STATUS", 0x10024, [], 0x0, 0x20, 0x0, 0x0, 0, 0xFF37⟩,
  ⟨"CLK_OCXO_TRIM", 0x10030, [], 0x8000FFFF, 0x0, 0x0, 0x80000000, 0, 0x8000FFFF⟩]

def regRows.pwr : List RegRow := [
  ⟨"PWR_STATUS", 0x20000, [], 0x0, 0x80, 0x0, 0x0, 0, 0x1FD⟩,
  ⟨"PWR_VIN", 0x20004, [], 0x0, 0x0, 0x0, 0x0, 0, 0xFFFFFFFF⟩,
  ⟨"PWR_HOLDUP_V", 0x20008, [], 0x0, 0x0, 0x0, 0x0, 0, 0xFFFF⟩,
  ⟨"PWR_HOLDUP_CAP", 0x2000C, [], 0x0, 0x0, 0x0, 0x0, 0, 0xFFFF⟩,
  ⟨"PWR_HOLDUP_NEED", 0x20010, [], 0xFFFFFF, 0x0, 0x0, 0x5DC0, 0, 0xFFFFFF⟩,
  ⟨"PWR_TEMP_MAX", 0x20020, [], 0x0, 0x0, 0x0, 0x0, 0, 0x3F3FFFFF⟩,
  ⟨"PWR_TEMP_CFG", 0x20024, [], 0xFFF, 0x0, 0x0, 0x582, 0, 0xFFF⟩,
  ⟨"PWR_INPUT_P", 0x20030, [], 0x0, 0x0, 0x0, 0x0, 0, 0xFFFF⟩]

def regRows.nvm : List RegRow := [
  ⟨"NVM_CFG", 0x30000, [], 0x10000, 0x0, 0x0, 0x10000, 0, 0x10FF3⟩,
  ⟨"NVM_STATUS", 0x30004, [], 0x0, 0x0, 0x0, 0x0, 0, 0xFFFFFF0F⟩,
  ⟨"NVM_CMD", 0x30008, [], 0x0, 0x0, 0xFF00000F, 0x0, 0, 0xFF00000F⟩,
  ⟨"NVM_ADDR", 0x3000C, [], 0xFFFFFFF, 0x0, 0x0, 0x0, 0, 0xFFFFFFF⟩,
  ⟨"NVM_LEN", 0x30010, [], 0x1FFFF, 0x0, 0x0, 0x0, 0, 0x1FFFF⟩,
  ⟨"NVM_JOURNAL_SEQ", 0x30014, [], 0x0, 0x0, 0x0, 0x0, 0, 0xFFFFFFFF⟩,
  ⟨"NVM_SLOT", 0x30018, [], 0x1, 0x0, 0x0, 0x0, 0, 0xFF0131⟩]

def regRows.lc : List RegRow := [
  ⟨"LC_STATE", 0x40000, [], 0x0, 0x0, 0x0, 0x0, 0, 0xFF0703⟩,
  ⟨"LC_REQ", 0x40004, [], 0x0, 0x0, 0xFF00000F, 0x0, 0, 0xFF00000F⟩,
  ⟨"LC_TOKEN_STATUS", 0x40008, [], 0x0, 0x0, 0x0, 0x0, 0, 0x8F00FFFF⟩,
  ⟨"LC_DEBUG", 0x4000C, [], 0x1, 0x0, 0x0, 0x0, 0, 0xC0000001⟩,
  ⟨"LC_NONCE", 0x40010, [], 0x0, 0x0, 0x0, 0x0, 0, 0xFFFFFFFF⟩]

def regRows.evt : List RegRow := [
  ⟨"EVT_CFG", 0x50000, [], 0xFF00FFFF, 0x0, 0x0, 0x40000001, 0, 0xFF00FFFF⟩,
  ⟨"EVT_WR", 0x50004, [], 0x0, 0x0, 0x0, 0x0, 0, 0xFFFFFFFF⟩,
  ⟨"EVT_RD", 0x50008, [], 0xFFFFFFFF, 0x0, 0x0, 0x0, 0, 0xFFFFFFFF⟩,
  ⟨"EVT_LOST", 0x5000C, [], 0x0, 0x0, 0x0, 0x0, 0, 0xFFFFFFFF⟩,
  ⟨"EVT_FILTER", 0x50010, [(8, 0x4)], 0xC03FFFFF, 0x0, 0x0, 0x0, 0, 0xC03FFFFF⟩]

def regRows.host : List RegRow := [
  ⟨"HOST_Q_SQ_BASE_LO", 0x60000, [(8, 0x100)], 0xFFFFF000, 0x0, 0x0, 0x0, 0, 0xFFFFF000⟩,
  ⟨"HOST_Q_SQ_BASE_HI", 0x60004, [(8, 0x100)], 0xFFFFFFFF, 0x0, 0x0, 0x0, 0, 0xFFFFFFFF⟩,
  ⟨"HOST_Q_CQ_BASE_LO", 0x60008, [(8, 0x100)], 0xFFFFF000, 0x0, 0x0, 0x0, 0, 0xFFFFF000⟩,
  ⟨"HOST_Q_CQ_BASE_HI", 0x6000C, [(8, 0x100)], 0xFFFFFFFF, 0x0, 0x0, 0x0, 0, 0xFFFFFFFF⟩,
  ⟨"HOST_Q_CFG", 0x60010, [(8, 0x100)], 0xBF000000, 0x0, 0x0, 0x0, 0, 0xBF000000⟩,
  ⟨"HOST_Q_SQ_TAIL", 0x60014, [(8, 0x100)], 0x3FF, 0x0, 0x0, 0x0, 0, 0x3FF⟩,
  ⟨"HOST_Q_SQ_HEAD", 0x60018, [(8, 0x100)], 0x0, 0x0, 0x0, 0x0, 0, 0x3FF⟩,
  ⟨"HOST_Q_CQ_HEAD", 0x6001C, [(8, 0x100)], 0x3FF, 0x0, 0x0, 0x0, 0, 0x3FF⟩,
  ⟨"HOST_Q_CQ_TAIL", 0x60020, [(8, 0x100)], 0x0, 0x0, 0x0, 0x10000, 0, 0x103FF⟩,
  ⟨"HOST_Q_STATUS", 0x60024, [(8, 0x100)], 0x0, 0x0, 0x0, 0x0, 0, 0xE00007FF⟩,
  ⟨"HOST_DUP_WINDOW", 0x60800, [], 0xFFFF0000, 0x0, 0x0, 0x1000, 0, 0xFFFF1FFF⟩,
  ⟨"HOST_TIMEOUT", 0x60804, [], 0xFFFFFF, 0x0, 0x0, 0xF4240, 0, 0xFFFFFF⟩,
  ⟨"MSIX_TABLE", 0x61000, [(64, 0x10), (4, 0x4)], 0xFFFFFFFF, 0x0, 0x0, 0x0, 5, 0xFFFFFFFF⟩,
  ⟨"MSIX_PBA", 0x61800, [(2, 0x4)], 0x0, 0x0, 0x0, 0x0, 0, 0xFFFFFFFF⟩]

def regRows.lnk : List RegRow := [
  ⟨"LNK_STATUS", 0x70000, [(17, 0x100)], 0x0, 0x4000000, 0x0, 0x0, 0, 0xFFFFFFFF⟩,
  ⟨"LNK_RETRY_COUNT", 0x70004, [(17, 0x100)], 0xFFFFFFFF, 0x0, 0x0, 0x0, 0, 0xFFFFFFFF⟩,
  ⟨"LNK_DELAY", 0x70008, [(17, 0x100)], 0x0, 0x0, 0x0, 0x0, 0, 0xFFFFFF⟩,
  ⟨"LNK_DELAY_ASYM", 0x7000C, [(17, 0x100)], 0xFFFF0000, 0x0, 0x0, 0x0, 0, 0xFFFFFFFF⟩,
  ⟨"LNK_PROFILE", 0x70010, [(17, 0x100), (4, 0x4)], 0x0, 0x0, 0x0, 0x0, 0, 0xFFFFFFFF⟩,
  ⟨"LNK_PORT_CFG", 0x70020, [(17, 0x100)], 0x80000003, 0x0, 0x0, 0x0, 0, 0x80000003⟩,
  ⟨"LNK_BARKER_CFG", 0x72000, [], 0x0, 0x0, 0x0, 0x4, 0, 0xFFFF000F⟩,
  ⟨"LNK_WHISTLE_CFG", 0x72004, [], 0x70FFFF00, 0x0, 0x80000000, 0x0, 0, 0xFFFFFFFF⟩,
  ⟨"LNK_TIMEOUT", 0x72008, [], 0xFFFFFF, 0x0, 0x0, 0x14, 0, 0xFFFFFF⟩,
  ⟨"LNK_WHISTLE_TIME_LO", 0x72010, [], 0xFFFFFFFF, 0x0, 0x0, 0x0, 0, 0xFFFFFFFF⟩,
  ⟨"LNK_WHISTLE_TIME_HI", 0x72014, [], 0xFFFFFFFF, 0x0, 0x0, 0x0, 0, 0xFFFFFFFF⟩,
  ⟨"LNK_SHOW_CFG", 0x74000, [(256, 0x80)], 0x9800FFFF, 0x4000000, 0x0, 0x0, 0, 0xFC00FFFF⟩,
  ⟨"LNK_SHOW_DEV", 0x74004, [(256, 0x80), (8, 0x4)], 0xFFFFFFFF, 0x0, 0x0, 0x0, 0, 0xFFFFFFFF⟩,
  ⟨"LNK_SHOW_DEV", 0x74024, [(256, 0x80)], 0x1FFFF, 0x0, 0x0, 0x0, 0, 0x1FFFF⟩,
  ⟨"LNK_SHOW_BENCH", 0x74040, [(256, 0x80), (8, 0x4)], 0x0, 0xFFFFFFFF, 0x0, 0x0, 0, 0xFFFFFFFF⟩,
  ⟨"LNK_SHOW_BENCH", 0x74060, [(256, 0x80)], 0x0, 0x1FFFF, 0x0, 0x0, 0, 0x1FFFF⟩]

def regRows.mem : List RegRow := [
  ⟨"MEM_PATROL_CFG", 0x80000, [], 0x8F01FFFF, 0x0, 0x0, 0x8F01000A, 0, 0x8F01FFFF⟩,
  ⟨"MEM_PATROL_STATUS", 0x80004, [], 0x0, 0x80000000, 0x0, 0x0, 0, 0xF3FFFFFF⟩,
  ⟨"MEM_ECC_STATUS", 0x80008, [], 0xFFFFFF00, 0xF, 0x0, 0x0, 0, 0xFFFFFF0F⟩,
  ⟨"MEM_COLLIDE", 0x8000C, [], 0xFFFFFFFF, 0x0, 0x0, 0x0, 0, 0xFFFFFFFF⟩,
  ⟨"MEM_PART_STATUS", 0x80010, [], 0x0, 0x80000000, 0x0, 0x3, 0, 0x8000FFFF⟩,
  ⟨"MEM_PATROL_SKIP", 0x80014, [], 0x0, 0x0, 0x0, 0x0, 0, 0x1FFFF⟩,
  ⟨"MEM_DRAM_PART", 0x80100, [(16, 0x8)], 0x9FFFFFFF, 0x0, 0x0, 0x0, 3, 0x9FFFFFFF⟩,
  ⟨"MEM_DRAM_PART_SIZE", 0x80104, [(16, 0x8)], 0x3FFFFFF, 0x0, 0x0, 0x0, 4, 0x3FFFFFF⟩]

def regRows.mon : List RegRow := [
  ⟨"MON_SENSE_LO", 0x90000, [(32, 0x20)], 0xFFFF, 0x0, 0x0, 0x0, 0, 0xFFFF⟩,
  ⟨"MON_SENSE_HI", 0x90004, [(32, 0x20)], 0xFFFF, 0x0, 0x0, 0xFFFF, 0, 0xFFFF⟩,
  ⟨"MON_SENSE_BLANK", 0x90008, [(32, 0x20)], 0x7FFFFFF, 0x0, 0x0, 0x0, 0, 0x87FFFFFF⟩,
  ⟨"MON_SENSE_ACTION", 0x9000C, [(32, 0x20)], 0x803F1F0E, 0x40000000, 0x0, 0x0, 0, 0xC03F1F0E⟩,
  ⟨"MON_SENSE_MEAS", 0x90010, [(32, 0x20)], 0x60000000, 0x4000000, 0x80000000, 0x0, 0, 0xFCFFFFFF⟩,
  ⟨"MON_SREF_CODE", 0x91000, [(32, 0x10)], 0xFFFF, 0x0, 0x0, 0x0, 0, 0xFFFF⟩,
  ⟨"MON_SREF_CLRCODE", 0x91004, [(32, 0x10)], 0xFFFF, 0x0, 0x0, 0x0, 0, 0xFFFF⟩,
  ⟨"MON_SREF_STATUS", 0x91008, [(32, 0x10)], 0x0, 0x34000000, 0x80000000, 0x0, 0, 0xFFFFFFFF⟩]

def regRows.cal : List RegRow := [
  ⟨"CAL_CTRL", 0xA0000, [], 0xE0FFFFFF, 0x0, 0x0, 0x20F303E8, 0, 0xE0FFFFFF⟩,
  ⟨"CAL_STATUS", 0xA0004, [], 0x0, 0x0, 0x0, 0x0, 0, 0xFFFF07FF⟩,
  ⟨"CAL_SCHED", 0xA0008, [], 0xFFFFFFFF, 0x0, 0x0, 0xA003C, 0, 0xFFFFFFFF⟩,
  ⟨"CAL_REJECTS", 0xA000C, [], 0xFFFFFFFF, 0x0, 0x0, 0x0, 0, 0xFFFFFFFF⟩,
  ⟨"CAL_MASK", 0xA0040, [(32, 0x4)], 0xFFFFFFFF, 0x0, 0x0, 0x0, 0, 0xFFFFFFFF⟩,
  ⟨"CAL_LIMIT_DESKEW", 0xA0100, [], 0xFFFFFFFF, 0x0, 0x0, 0x3E807D0, 0, 0xFFFFFFFF⟩,
  ⟨"CAL_LIMIT_GAIN", 0xA0104, [], 0xFFFF, 0x0, 0x0, 0x4E20, 0, 0xFFFF⟩,
  ⟨"CAL_LIMIT_OFFSET", 0xA0108, [], 0xFFFFFFFF, 0x0, 0x0, 0x13881388, 0, 0xFFFFFFFF⟩,
  ⟨"CAL_LIMIT_THR", 0xA010C, [], 0xFFFFFFFF, 0x0, 0x0, 0xBB82710, 0, 0xFFFFFFFF⟩,
  ⟨"CAL_LIMIT_BIN", 0xA0110, [], 0xFF00FFFF, 0x0, 0x0, 0x4000FA1E, 0, 0xFF00FFFF⟩,
  ⟨"CAL_LIMIT_SPREAD", 0xA0114, [], 0xFFFF, 0x0, 0x0, 0x64, 0, 0xFFFF⟩]

def regRows.rq : List RegRow := [
  ⟨"RQ_CTRL", 0xB0000, [], 0x3F007F, 0x0, 0x80000000, 0x30, 0, 0x803F007F⟩,
  ⟨"RQ_STATUS", 0xB0004, [], 0x0, 0x38000000, 0x0, 0x0, 0, 0xF801FFFF⟩,
  ⟨"RQ_FINALIZE", 0xB0008, [], 0x203F0000, 0x0, 0x80000000, 0x0, 0, 0xE73F0000⟩,
  ⟨"RQ_RESULT_BASE", 0xB000C, [], 0x1FFFFFF, 0x0, 0x0, 0x0, 0, 0x1FFFFFF⟩,
  ⟨"RQ_RESULT_SIZE", 0xB0010, [], 0xFFFFFF, 0x0, 0x0, 0x0, 0, 0xFFFFFF⟩,
  ⟨"RQ_DESC_SEL", 0xB0020, [], 0xFFFFF, 0x0, 0x0, 0x0, 0, 0xFFFFF⟩,
  ⟨"RQ_DESC_W0", 0xB0024, [], 0x0, 0x0, 0x0, 0x0, 0, 0xFFFFFFFF⟩,
  ⟨"RQ_DESC_W1", 0xB0028, [], 0x0, 0x0, 0x0, 0x0, 0, 0xFFFFFFFF⟩,
  ⟨"RQ_DESC_W2", 0xB002C, [], 0x0, 0x0, 0x0, 0x0, 0, 0xFFFFFFFF⟩,
  ⟨"RQ_TYPE", 0xB0040, [(8, 0x4)], 0xFF, 0x0, 0x0, 0x0, 0, 0xFF⟩,
  ⟨"RQ_MAP_CFG", 0xB0100, [(64, 0x20)], 0x1FFFFF, 0x0, 0x0, 0x0, 0, 0x1FFFFF⟩,
  ⟨"RQ_MAP_REGION", 0xB0104, [(64, 0x20)], 0x1F3F1F3F, 0x0, 0x0, 0x0, 0, 0x1F3F1F3F⟩,
  ⟨"RQ_MAP_ROW", 0xB0108, [(64, 0x20)], 0xF3F1F3F, 0x0, 0x0, 0x0, 0, 0xF3F1F3F⟩,
  ⟨"RQ_MAP_COL", 0xB010C, [(64, 0x20)], 0x1F3F1F3F, 0x0, 0x0, 0x0, 0, 0x1F3F1F3F⟩,
  ⟨"RQ_RING_STATUS", 0xB0110, [(64, 0x20)], 0x0, 0x0, 0x0, 0x0, 0, 0x800FFFFF⟩,
  ⟨"RQ_RING_LOST", 0xB0114, [(64, 0x20)], 0x0, 0x0, 0x0, 0x0, 0, 0xFFFFFFFF⟩,
  ⟨"RQ_RING_PUSH", 0xB0118, [(64, 0x20)], 0x0, 0x0, 0x0, 0x0, 0, 0xFFFFFFFF⟩]

def regRows.acq : List RegRow := [
  ⟨"ACQ_TRIG_CTRL", 0xC0000, [(16, 0x100)], 0x13FFFFF, 0x0, 0xC0000000, 0x0, 0, 0xC13FFFFF⟩,
  ⟨"ACQ_TRIG_STATUS", 0xC0004, [(16, 0x100)], 0x0, 0x20000000, 0x0, 0x0, 0, 0xFFF0FFFF⟩,
  ⟨"ACQ_TRIG_LEVEL", 0xC0008, [(16, 0x100)], 0x1FFFF, 0x0, 0x0, 0x10000, 0, 0x1FFFF⟩,
  ⟨"ACQ_TRIG_STAGE", 0xC0010, [(16, 0x100), (4, 0x8)], 0x1FFFFFFF, 0x0, 0x0, 0x1, 0, 0x1FFFFFFF⟩,
  ⟨"ACQ_TRIG_TLIM", 0xC0014, [(16, 0x100), (4, 0x8)], 0xFFFFFFFF, 0x0, 0x0, 0x0, 0, 0xFFFFFFFF⟩,
  ⟨"ACQ_TRIG_FIRES", 0xC0030, [(16, 0x100)], 0x0, 0x0, 0x0, 0x0, 0, 0xFFFFFFFF⟩,
  ⟨"ACQ_TRIG_TIMEOUTS", 0xC0034, [(16, 0x100)], 0x0, 0x0, 0x0, 0x0, 0, 0xFFFFFFFF⟩,
  ⟨"ACQ_TRIG_TIME_LO", 0xC0038, [(16, 0x100)], 0x0, 0x0, 0x0, 0x0, 0, 0xFFFFFFFF⟩,
  ⟨"ACQ_TRIG_TIME_HI", 0xC003C, [(16, 0x100)], 0x0, 0x0, 0x0, 0x0, 0, 0xFFFFFFFF⟩,
  ⟨"ACQ_TRIG_PAT", 0xC4000, [(16, 0x400), (4, 0x100), (64, 0x4)], 0xFFFFFFFF, 0x0, 0x0, 0x0, 0, 0xFFFFFFFF⟩,
  ⟨"ACQ_STREAM_CTRL", 0xC2000, [(16, 0x100)], 0xBF0F10F0, 0x0, 0x0, 0x20000, 0, 0xBF0F10F0⟩,
  ⟨"ACQ_STREAM_SRC", 0xC2004, [(16, 0x100)], 0xFFFFFFFF, 0x0, 0x0, 0x0, 0, 0xFFFFFFFF⟩,
  ⟨"ACQ_STREAM_INTEG", 0xC2008, [(16, 0x100)], 0xFFFFF, 0x0, 0x0, 0x3E8, 0, 0xFFFFF⟩,
  ⟨"ACQ_STREAM_DEC", 0xC200C, [(16, 0x100)], 0x1F, 0x0, 0x0, 0x0, 0, 0x1F001F⟩,
  ⟨"ACQ_STREAM_WIN_OFS", 0xC2010, [(16, 0x100)], 0xFFFFFF, 0x0, 0x0, 0xA00, 0, 0xFFFFFF⟩,
  ⟨"ACQ_STREAM_WIN_LEN", 0xC2014, [(16, 0x100)], 0x7FFFFF, 0x0, 0x0, 0x1, 0, 0x7FFFFF⟩,
  ⟨"ACQ_STREAM_REC", 0xC2018, [(16, 0x100)], 0x3FFFFF, 0x0, 0x0, 0x0, 0, 0x3FFFFF⟩,
  ⟨"ACQ_STREAM_PWIN", 0xC201C, [(16, 0x100), (2, 0x4)], 0xFFFFFFFF, 0x0, 0x0, 0xFF00FF, 0, 0xFFFFFFFF⟩,
  ⟨"ACQ_STREAM_DRAM_BASE", 0xC2024, [(16, 0x100)], 0x1FFFFFF, 0x0, 0x0, 0x0, 0, 0x1FFFFFF⟩,
  ⟨"ACQ_STREAM_DRAM_SIZE", 0xC2028, [(16, 0x100)], 0x7FFFFF, 0x0, 0x0, 0x10, 0, 0x7FFFFF⟩,
  ⟨"ACQ_STREAM_HOST_BASE_LO", 0xC2030, [(16, 0x100)], 0xFFFFFFFF, 0x0, 0x0, 0x0, 0, 0xFFFFFFFF⟩,
  ⟨"ACQ_STREAM_HOST_BASE_HI", 0xC2034, [(16, 0x100)], 0xFFFFFFFF, 0x0, 0x0, 0x0, 0, 0xFFFFFFFF⟩,
  ⟨"ACQ_STREAM_HOST_SIZE", 0xC2038, [(16, 0x100)], 0xFFFFFF, 0x0, 0x0, 0x10, 0, 0xFFFFFF⟩,
  ⟨"ACQ_STREAM_HOST_RD", 0xC203C, [(16, 0x100)], 0xFFFFFFFF, 0x0, 0x0, 0x0, 0, 0xFFFFFFFF⟩,
  ⟨"ACQ_STREAM_WB_LO", 0xC2040, [(16, 0x100)], 0xFFFFFFFF, 0x0, 0x0, 0x0, 0, 0xFFFFFFFF⟩,
  ⟨"ACQ_STREAM_WB_HI", 0xC2044, [(16, 0x100)], 0xFFFFFFFF, 0x0, 0x0, 0x0, 0, 0xFFFFFFFF⟩,
  ⟨"ACQ_STREAM_HOST_WR", 0xC2048, [(16, 0x100)], 0x0, 0x0, 0x0, 0x0, 0, 0xFFFFFFFF⟩,
  ⟨"ACQ_STREAM_LOST_LO", 0xC2050, [(16, 0x100)], 0x0, 0x0, 0x0, 0x0, 0, 0xFFFFFFFF⟩,
  ⟨"ACQ_STREAM_LOST_HI", 0xC2054, [(16, 0x100)], 0x0, 0x0, 0x0, 0x0, 0, 0xFFFFFFFF⟩,
  ⟨"ACQ_STREAM_FILL", 0xC2058, [(16, 0x100)], 0x0, 0x0, 0x0, 0x0, 0, 0x7FFFFF⟩,
  ⟨"ACQ_STREAM_STATUS", 0xC204C, [(16, 0x100)], 0x0, 0x44000000, 0x0, 0x80000000, 0, 0xFF00FFFF⟩,
  ⟨"ACQ_STREAM_CH", 0xC2080, [(16, 0x100), (32, 0x4)], 0xFFFFFFFF, 0x0, 0x0, 0x0, 0, 0xFFFFFFFF⟩]

def regRows.seq : List RegRow := [
  ⟨"SEQ_CTRL", 0x100000, [(16, 0x10000)], 0xFFFF1C80, 0x0, 0xF, 0x0, 0, 0xFFFF1C8F⟩,
  ⟨"SEQ_STATUS", 0x100004, [(16, 0x10000)], 0x0, 0xC00, 0x0, 0x0, 0, 0xFFFF0D87⟩,
  ⟨"SEQ_PC", 0x100008, [(16, 0x10000)], 0x0, 0x0, 0x0, 0x0, 0, 0x1FFFF⟩,
  ⟨"SEQ_CYCLE_LO", 0x100010, [(16, 0x10000)], 0x0, 0x0, 0x0, 0x0, 0, 0xFFFFFFFF⟩,
  ⟨"SEQ_CYCLE_HI", 0x100014, [(16, 0x10000)], 0x0, 0x0, 0x0, 0x0, 0, 0xFFFFFFFF⟩,
  ⟨"SEQ_MISSED_START", 0x100018, [(16, 0x10000)], 0xFFFFFFFF, 0x0, 0x0, 0x0, 0, 0xFFFFFFFF⟩,
  ⟨"SEQ_STOP_POLICY", 0x10001C, [(16, 0x10000)], 0xFFFF, 0x0, 0x0, 0x100, 0, 0xFFFFFFFF⟩,
  ⟨"SEQ_CB_MASK", 0x100020, [(16, 0x10000)], 0xFFFF, 0x0, 0x0, 0x0, 0, 0xFFFF⟩,
  ⟨"SEQ_RING_MASK_LO", 0x100024, [(16, 0x10000)], 0xFFFFFFFF, 0x0, 0x0, 0x0, 0, 0xFFFFFFFF⟩,
  ⟨"SEQ_RING_MASK_HI", 0x100028, [(16, 0x10000)], 0xFFFFFFFF, 0x0, 0x0, 0x0, 0, 0xFFFFFFFF⟩,
  ⟨"SEQ_BLOCK_TABLE", 0x100030, [(16, 0x10000)], 0xFFFFF, 0x0, 0x0, 0x0, 0, 0xFFFFF⟩,
  ⟨"APG_X", 0x100100, [(16, 0x10000)], 0xFFFFFF, 0x0, 0x0, 0x0, 0, 0xFFFFFF⟩,
  ⟨"APG_Y", 0x100104, [(16, 0x10000)], 0xFFFFFF, 0x0, 0x0, 0x0, 0, 0xFFFFFF⟩,
  ⟨"APG_X_LIMIT", 0x100108, [(16, 0x10000)], 0xFFFFFF, 0x0, 0x0, 0xFFFFFF, 0, 0xFFFFFF⟩,
  ⟨"APG_Y_LIMIT", 0x10010C, [(16, 0x10000)], 0xFFFFFF, 0x0, 0x0, 0xFFFFFF, 0, 0xFFFFFF⟩,
  ⟨"APG_Z", 0x100110, [(16, 0x10000)], 0xFFFF, 0x0, 0x0, 0xFF00, 0, 0xFFFF⟩,
  ⟨"APG_DATA_LO", 0x100118, [(16, 0x10000)], 0xFFFFFFFF, 0x0, 0x0, 0x0, 0, 0xFFFFFFFF⟩,
  ⟨"APG_DATA_HI", 0x10011C, [(16, 0x10000)], 0xFFFFFFFF, 0x0, 0x0, 0x0, 0, 0xFFFFFFFF⟩,
  ⟨"APG_CFG", 0x100120, [(16, 0x10000)], 0x13F, 0x0, 0x0, 0x8, 0, 0x13F⟩,
  ⟨"APG_SCR_X", 0x100400, [(16, 0x10000), (24, 0x4)], 0x7F, 0x0, 0x0, 0x0, 1, 0x7F⟩,
  ⟨"APG_SCR_Y", 0x100460, [(16, 0x10000), (24, 0x4)], 0x7F, 0x0, 0x0, 0x20, 1, 0x7F⟩,
  ⟨"APG_TOPO_SEL", 0x1004C0, [(16, 0x10000), (8, 0x4)], 0x3F, 0x0, 0x0, 0x0, 1, 0x3F⟩,
  ⟨"APG_TOPO", 0x1004E0, [(16, 0x10000), (8, 0x4)], 0xFFFFFFFF, 0x0, 0x0, 0x0, 0, 0xFFFFFFFF⟩,
  ⟨"APG_PINSRC", 0x100800, [(16, 0x10000), (256, 0x4)], 0xFFFFFFFF, 0x0, 0x0, 0x2020202, 0, 0xFFFFFFFF⟩]

def regRows.tmg : List RegRow := [
  ⟨"TMG_MODE", 0x200000, [(16, 0x10000)], 0x1FF0F01, 0x0, 0x0, 0x1000000, 0, 0x1FF0F01⟩,
  ⟨"TMG_CHECK", 0x200004, [(16, 0x10000)], 0x0, 0x40000000, 0x0, 0x0, 0, 0xFFFF83FF⟩,
  ⟨"TMG_PERIOD_LO", 0x200100, [(16, 0x10000), (64, 0x80)], 0xFFFFFFFF, 0x0, 0x0, 0x0, 0, 0xFFFFFFFF⟩,
  ⟨"TMG_PERIOD_HI", 0x200104, [(16, 0x10000), (64, 0x80)], 0x80000001, 0x0, 0x0, 0x0, 0, 0x80000001⟩]

def regRows.pin : List RegRow := [
  ⟨"PIN_CFG", 0x400000, [(1024, 0x1000)], 0xF, 0x0, 0x0, 0x2, 0, 0x10F⟩,
  ⟨"PIN_STATUS", 0x400004, [(1024, 0x1000)], 0x0, 0x3E0, 0x0, 0x2, 0, 0xFFFFF3FF⟩,
  ⟨"PIN_LVL_HI", 0x400100, [(1024, 0x1000), (16, 0x8)], 0x3FFF, 0x0, 0x0, 0x0, 0, 0x3FFF⟩,
  ⟨"PIN_LVL_LO", 0x400104, [(1024, 0x1000), (16, 0x8)], 0x3FFF, 0x0, 0x0, 0x0, 0, 0x3FFF⟩,
  ⟨"PIN_VTT", 0x400180, [(1024, 0x1000)], 0xFFFF, 0x0, 0x0, 0x0, 0, 0xFFFF⟩,
  ⟨"PIN_THR_H", 0x400184, [(1024, 0x1000)], 0xFFFF, 0x0, 0x0, 0x0, 0, 0xFFFF⟩,
  ⟨"PIN_THR_L", 0x400188, [(1024, 0x1000)], 0xFFFF, 0x0, 0x0, 0x0, 0, 0xFFFF⟩,
  ⟨"PIN_HYST", 0x40018C, [(1024, 0x1000)], 0x3F3F, 0x0, 0x0, 0x0, 0, 0x3F3F⟩,
  ⟨"PIN_HOLDOFF", 0x400190, [(1024, 0x1000)], 0xFFFF, 0x0, 0x0, 0x0, 0, 0xFFFF⟩,
  ⟨"PIN_DESKEW_DRV", 0x400200, [(1024, 0x1000)], 0x3FFFF, 0x0, 0x0, 0x0, 0, 0x3FFFF⟩,
  ⟨"PIN_DESKEW_CMP_H", 0x400204, [(1024, 0x1000)], 0x3FFFF, 0x0, 0x0, 0x0, 0, 0x3FFFF⟩,
  ⟨"PIN_DESKEW_CMP_L", 0x400208, [(1024, 0x1000)], 0x3FFFF, 0x0, 0x0, 0x0, 0, 0x3FFFF⟩,
  ⟨"PIN_TS_FMT", 0x400220, [(1024, 0x1000), (8, 0x4)], 0xFFFFFFFF, 0x0, 0x0, 0x0, 0, 0xFFFFFFFF⟩,
  ⟨"PIN_TDC_CFG", 0x400300, [(1024, 0x1000)], 0x3, 0x0, 0x8000, 0x3, 0, 0xFFFF8303⟩,
  ⟨"PIN_TDC_MEAS", 0x400304, [(1024, 0x1000)], 0x20FF0307, 0x0, 0xC0000000, 0x10000, 0, 0xE0FF0307⟩,
  ⟨"PIN_TDC_START_SEL", 0x400308, [(1024, 0x1000)], 0xFFFF37FF, 0x0, 0x0, 0x10000, 2, 0xFFFF37FF⟩,
  ⟨"PIN_TDC_LIMIT", 0x40030C, [(1024, 0x1000)], 0xFFFFFFFF, 0x0, 0x0, 0x0, 0, 0xFFFFFFFF⟩,
  ⟨"PIN_TDC_STATUS", 0x400310, [(1024, 0x1000)], 0x0, 0x800000, 0x0, 0x0, 0, 0xFFE0FFFF⟩,
  ⟨"PIN_TDC_T0_LO", 0x400318, [(1024, 0x1000)], 0x0, 0x0, 0x0, 0x0, 0, 0xFFFFFFFF⟩,
  ⟨"PIN_TDC_T0_HI", 0x40031C, [(1024, 0x1000)], 0x0, 0x0, 0x0, 0x0, 0, 0xFFFFFFFF⟩,
  ⟨"PIN_TDC_INT", 0x400320, [(1024, 0x1000), (15, 0x4)], 0x0, 0x0, 0x0, 0x0, 0, 0xFFFFFFFF⟩,
  ⟨"PIN_TDC_SDEV", 0x40035C, [(1024, 0x1000)], 0x0, 0x0, 0x0, 0x0, 0, 0xFFFFFFFF⟩,
  ⟨"PIN_TDC_FREQ_LO", 0x400360, [(1024, 0x1000)], 0x0, 0x0, 0x0, 0x0, 0, 0xFFFFFFFF⟩,
  ⟨"PIN_TDC_FREQ_HI", 0x400364, [(1024, 0x1000)], 0x0, 0x0, 0x0, 0x0, 0, 0xFFFFFFFF⟩,
  ⟨"PIN_TDC_FREQ_N", 0x400368, [(1024, 0x1000)], 0x0, 0x0, 0x0, 0x0, 0, 0x1F01FFFF⟩,
  ⟨"PIN_TDC_FREQ_RMS", 0x40036C, [(1024, 0x1000)], 0x0, 0x0, 0x0, 0x0, 0, 0xFFFFFFFF⟩,
  ⟨"PIN_TDC_STOP_SEL", 0x400380, [(1024, 0x1000), (15, 0x4)], 0xFFFF37FF, 0x0, 0x0, 0x10000, 2, 0xFFFF37FF⟩,
  ⟨"PIN_TDC_ARM_TIME_LO", 0x4003C0, [(1024, 0x1000)], 0xFFFFFFFF, 0x0, 0x0, 0x0, 0, 0xFFFFFFFF⟩,
  ⟨"PIN_TDC_ARM_TIME_HI", 0x4003C4, [(1024, 0x1000)], 0xFFFFFFFF, 0x0, 0x0, 0x0, 0, 0xFFFFFFFF⟩,
  ⟨"PIN_PPMU_CFG", 0x400400, [(1024, 0x1000)], 0x4FFFFF1F, 0x0, 0x80000000, 0x0, 0, 0xCFFFFF1F⟩,
  ⟨"PIN_PPMU_FORCE", 0x400404, [(1024, 0x1000)], 0xFFFFFFFF, 0x0, 0x0, 0xFF0038E4, 0, 0xFFFFFFFF⟩,
  ⟨"PIN_PPMU_MEAS", 0x400408, [(1024, 0x1000)], 0x0, 0x60000000, 0x0, 0x0, 0, 0x7FFFFFFF⟩,
  ⟨"PIN_MON_WIN", 0x400500, [(1024, 0x1000)], 0xB3FF03FF, 0x0, 0x0, 0x3FF0000, 0, 0xB3FF03FF⟩,
  ⟨"PIN_FAILCNT_LO", 0x400600, [(1024, 0x1000)], 0x0, 0x0, 0x0, 0x0, 0, 0xFFFFFFFF⟩,
  ⟨"PIN_FAILCNT_HI", 0x400604, [(1024, 0x1000)], 0x0, 0x0, 0x0, 0x0, 0, 0xFFFFFFFF⟩,
  ⟨"PIN_TRK_CFG", 0x400610, [(1024, 0x1000)], 0xC3FFF7E0, 0x0, 0x0, 0x1100, 0, 0xC3FFF7E0⟩,
  ⟨"PIN_TRK_DELAY", 0x400614, [(1024, 0x1000)], 0x3FFFF, 0x0, 0x0, 0x0, 0, 0x3FFFF⟩,
  ⟨"PIN_QUALITY_TIME", 0x400700, [(1024, 0x1000)], 0x0, 0x0, 0x0, 0x0, 0, 0xFFFFF⟩,
  ⟨"PIN_QUALITY_EYE", 0x400704, [(1024, 0x1000)], 0x0, 0x0, 0x0, 0x0, 0, 0xFFFF⟩,
  ⟨"PIN_QUALITY_THR", 0x400708, [(1024, 0x1000)], 0x0, 0x0, 0x0, 0x0, 0, 0xFFFFFFFF⟩,
  ⟨"PIN_QUALITY_TDC", 0x40070C, [(1024, 0x1000)], 0x0, 0x0, 0x0, 0x0, 0, 0xFFFFFFFF⟩,
  ⟨"PIN_QUALITY_AGE_LO", 0x400710, [(1024, 0x1000)], 0x0, 0x0, 0x0, 0x0, 0, 0xFFFFFFFF⟩,
  ⟨"PIN_QUALITY_AGE_HI", 0x400714, [(1024, 0x1000)], 0x0, 0x0, 0x0, 0x0, 0, 0xFFFFFFFF⟩,
  ⟨"PIN_QUALITY_STAT", 0x400718, [(1024, 0x1000)], 0x0, 0x0, 0x0, 0x0, 0, 0xFFFF010F⟩,
  ⟨"PIN_EDGE", 0x400800, [(1024, 0x1000), (512, 0x4)], 0xFFFFFFFF, 0x0, 0x0, 0x0, 0, 0xFFFFFFFF⟩]

def regRows.fail : List RegRow := [
  ⟨"FAIL_CFG", 0x800000, [(64, 0x4000)], 0xFFFF03C0, 0x0, 0x0, 0x10000, 0, 0xFFFF03C0⟩,
  ⟨"FAIL_STATUS", 0x800004, [(64, 0x4000)], 0x0, 0x140, 0x0, 0x0, 0, 0x1F07FF⟩,
  ⟨"FAIL_COUNT_LO", 0x800008, [(64, 0x4000)], 0x0, 0x0, 0x0, 0x0, 0, 0xFFFFFFFF⟩,
  ⟨"FAIL_COUNT_HI", 0x80000C, [(64, 0x4000)], 0x0, 0x0, 0x0, 0x0, 0, 0xFFFFFFFF⟩,
  ⟨"FAIL_FIRST_CYCLE_LO", 0x800010, [(64, 0x4000)], 0x0, 0x0, 0x0, 0x0, 0, 0xFFFFFFFF⟩,
  ⟨"FAIL_FIRST_CYCLE_HI", 0x800014, [(64, 0x4000)], 0x0, 0x0, 0x0, 0x0, 0, 0xFFFFFFFF⟩,
  ⟨"FAIL_FIRST_TIME_LO", 0x800018, [(64, 0x4000)], 0x0, 0x0, 0x0, 0x0, 0, 0xFFFFFFFF⟩,
  ⟨"FAIL_FIRST_TIME_HI", 0x80001C, [(64, 0x4000)], 0x0, 0x0, 0x0, 0x0, 0, 0xFFFFFFFF⟩,
  ⟨"FAIL_FIRST_ADDR_LO", 0x800020, [(64, 0x4000)], 0x0, 0x0, 0x0, 0x0, 0, 0xFFFFFFFF⟩,
  ⟨"FAIL_FIRST_ADDR_HI", 0x800024, [(64, 0x4000)], 0x0, 0x0, 0x0, 0x0, 0, 0xFFFFFF⟩,
  ⟨"FAIL_FIRST_PIN", 0x800028, [(64, 0x4000)], 0x0, 0x0, 0x0, 0x0, 0, 0xFFFF03FF⟩,
  ⟨"FAIL_LOG_BASE", 0x800030, [(64, 0x4000)], 0x1FFFFFF, 0x0, 0x0, 0x0, 0, 0x1FFFFFF⟩,
  ⟨"FAIL_LOG_SIZE", 0x800034, [(64, 0x4000)], 0xFFFFFFF, 0x0, 0x0, 0x0, 0, 0xFFFFFFF⟩,
  ⟨"FAIL_LOG_WR", 0x800038, [(64, 0x4000)], 0x0, 0x0, 0x0, 0x0, 0, 0x8FFFFFFF⟩,
  ⟨"FAIL_LOG_POLICY", 0x80003C, [(64, 0x4000)], 0x3, 0x0, 0x0, 0x0, 0, 0x3⟩,
  ⟨"FAIL_LOG_DROP", 0x800040, [(64, 0x4000)], 0x0, 0x0, 0x0, 0x0, 0, 0xFFFFFFFF⟩,
  ⟨"FAIL_MASK_BASE", 0x800044, [(64, 0x4000)], 0x1FFFFFF, 0x0, 0x0, 0x0, 0, 0x1FFFFFF⟩,
  ⟨"FAIL_BITMAP_BASE", 0x800048, [(64, 0x4000)], 0x1FFFFFF, 0x0, 0x0, 0x0, 0, 0x1FFFFFF⟩,
  ⟨"FAIL_BITMAP_CFG", 0x80004C, [(64, 0x4000)], 0x870F1F1F, 0x0, 0x0, 0xC, 0, 0x870F1F1F⟩,
  ⟨"FAIL_TILE_CFG", 0x800050, [(64, 0x4000)], 0x400FFFFF, 0x0, 0x80000000, 0x0, 0, 0xC00FFFFF⟩,
  ⟨"FAIL_TILE_STATUS", 0x800054, [(64, 0x4000)], 0x0, 0x30000000, 0x0, 0x0, 0, 0xF3FFFFFF⟩,
  ⟨"FAIL_RING_CH", 0x800100, [(64, 0x4000), (32, 0x4)], 0xFFFFFFFF, 0x0, 0x0, 0x0, 0, 0xFFFFFFFF⟩]

/-- The rows of the block of Table 20-1 that holds address `a` (none in a reserved range, R348). -/
def regRowsAt (a : Nat) : List RegRow :=
  if 0x0 ≤ a ∧ a < 0x10000 then regRows.sys
  else if 0x10000 ≤ a ∧ a < 0x20000 then regRows.clk
  else if 0x20000 ≤ a ∧ a < 0x30000 then regRows.pwr
  else if 0x30000 ≤ a ∧ a < 0x40000 then regRows.nvm
  else if 0x40000 ≤ a ∧ a < 0x50000 then regRows.lc
  else if 0x50000 ≤ a ∧ a < 0x60000 then regRows.evt
  else if 0x60000 ≤ a ∧ a < 0x70000 then regRows.host
  else if 0x70000 ≤ a ∧ a < 0x80000 then regRows.lnk
  else if 0x80000 ≤ a ∧ a < 0x90000 then regRows.mem
  else if 0x90000 ≤ a ∧ a < 0xA0000 then regRows.mon
  else if 0xA0000 ≤ a ∧ a < 0xB0000 then regRows.cal
  else if 0xB0000 ≤ a ∧ a < 0xC0000 then regRows.rq
  else if 0xC0000 ≤ a ∧ a < 0xD0000 then regRows.acq
  else if 0x100000 ≤ a ∧ a < 0x200000 then regRows.seq
  else if 0x200000 ≤ a ∧ a < 0x300000 then regRows.tmg
  else if 0x400000 ≤ a ∧ a < 0x800000 then regRows.pin
  else if 0x800000 ≤ a ∧ a < 0x900000 then regRows.fail
  else []

/-- The indices of the instance of a register that stands at offset `off`, where one does. -/
def RegRow.indices : List (Nat × Nat) → Nat → Option (List Nat)
  | [], off => if off = 0 then some [] else none
  | (cnt, str) :: ds, off =>
    if off / str < cnt then (RegRow.indices ds (off % str)).map (fun l => (off / str) :: l) else none

/-- The register at address `a` of a list of rows, with its indices. -/
def regFind : List RegRow → Nat → Option (RegRow × List Nat)
  | [], _ => none
  | r :: rs, a =>
    if r.base ≤ a then
      match RegRow.indices r.dims (a - r.base) with
      | some ix => some (r, ix)
      | none => regFind rs a
    else regFind rs a

/-- Table 20-7 read in reverse: the register that stands at a BAR0 address (R348: at most one). -/
def regAt (a : Nat) : Option (RegRow × List Nat) := regFind (regRowsAt a) a

/-- The Reset column (R350), with the entries that depend on an index: APG_SCR_X/Y and APG_TOPO_SEL (Tables 8-21, 8-22), the
TDC selectors (Table 12-3), the DRAM partitions 0 and 1 (Tables 16-10, 16-11) and the mask bit of the MSI-X table's entries
(PRESUMED, notes/assumptions/38.md). -/
def RegRow.reset (r : RegRow) (ix : List Nat) : Nat :=
  match r.rstKind with
  | 1 => r.rst + ix.getLastD 0
  | 2 => r.rst + ix.headD 0
  | 3 => if ix = [0] then 0x88000000 else if ix = [1] then 0x8A020000 else 0
  | 4 => if ix = [0] then 131072 else if ix = [1] then 256 else 0
  | 5 => b2n (decide (ix.getLastD 0 = 3))
  | _ => r.rst

/-- What a register word that nothing has written holds: its Reset column; 0 where no register stands (R348). -/
def regReset (a : Nat) : Word :=
  match regAt a with
  | some (r, ix) => BitVec.ofNat 32 (r.reset ix)
  | none => 0

end Sys2Proof.Machine
end

