-- ==== Sys2Proof/Machine/Tab.lean ====
section
/-! DEFINITION. Sparse tables by number: lists of (key, value) pairs in one canonical form, keys strictly rising and no
entry equal to what an unlisted key reads as. Every memory, the register file and every indexed piece of hidden state
is held so; equal tables are equal data. -/

namespace Sys2Proof.Machine

/-- A sparse table. What an unlisted key reads as is a function given with each use. -/
abbrev Tab (α : Type) := List (Nat × α)

/-- The value at a key. -/
def Tab.get {α : Type} (d : Nat → α) : Tab α → Nat → α
  | [], k => d k
  | (k', v) :: t, k => if k = k' then v else Tab.get d t k

/-- The table with the entry of a key taken out. -/
def Tab.erase {α : Type} : Tab α → Nat → Tab α
  | [], _ => []
  | (k', v) :: t, k => if k = k' then Tab.erase t k else (k', v) :: Tab.erase t k

/-- The table with the entry of a key put in its place. -/
def Tab.insert {α : Type} : Tab α → Nat → α → Tab α
  | [], k, v => [(k, v)]
  | (k', v') :: t, k, v =>
    if k = k' then (k, v) :: t
    else if k < k' then (k, v) :: (k', v') :: t
    else (k', v') :: Tab.insert t k v

/-- The table with a key set to a value; writing what an unlisted key reads as removes the entry. -/
def Tab.set {α : Type} [DecidableEq α] (d : Nat → α) (t : Tab α) (k : Nat) (v : α) : Tab α :=
  if v = d k then Tab.erase t k else Tab.insert t k v

/-- The keys of a table are above a bound. -/
def Tab.above {α : Type} (b : Nat) : Tab α → Bool
  | [] => true
  | (k, _) :: _ => decide (b < k)

/-- The canonical form. -/
def Tab.wf {α : Type} [DecidableEq α] (d : Nat → α) : Tab α → Bool
  | [] => true
  | (k, v) :: t => decide (v ≠ d k) && Tab.above k t && Tab.wf d t

/-- The values of consecutive keys. -/
def Tab.slice {α : Type} (d : Nat → α) (t : Tab α) (k : Nat) : Nat → List α
  | 0 => []
  | n + 1 => Tab.get d t k :: Tab.slice d t (k + 1) n

/-- Consecutive keys set to the values of a list. -/
def Tab.splice {α : Type} [DecidableEq α] (d : Nat → α) (t : Tab α) (k : Nat) : List α → Tab α
  | [] => t
  | v :: vs => Tab.splice d (Tab.set d t k v) (k + 1) vs

/-- `n` consecutive keys set back to what an unlisted key reads as. -/
def Tab.clearRange {α : Type} (t : Tab α) (k n : Nat) : Tab α :=
  t.filter (fun e => decide (e.1 < k ∨ k + n ≤ e.1))

end Sys2Proof.Machine
end

