-- ==== Sys2Proof/Machine/State.lean ====
section
/-! DEFINITION. The state of the module, as plain data: every register of Table 20-7 (`regs`), every memory, every pin
with state, and the hidden state the rules give each part, with the queue of commands that wait. `State.reset` is the
module as it stands in OFF (DESIGN CHOICE, notes/assumptions/1.md). -/

namespace Sys2Proof.Machine

/-- Why a step ends in a fault. No meaning ends in one: the manual gives every command an effect, and after a host error
the module goes on (R9, R10; Free.lean). Nobody raises one; safe. -/
inductive Fault where
deriving DecidableEq, Repr

/-- Why a step is refused. -/
inductive Refusal where
  /-- The command has no meaning in this model yet. Raised by `exec` alone. Safe. -/
  | notModelled (mnemonic : String)
deriving DecidableEq, Repr

/-- The operating modes of Table 2-1 (R27). -/
inductive Mode where
  | off | boot | safe | idle | run | cal
deriving DecidableEq, Repr

/-- The mode codes of Table 2-1. -/
def Mode.code : Mode → Nat
  | .off => 0 | .boot => 1 | .safe => 2 | .idle => 3 | .run => 4 | .cal => 5

/-- Why the module sheds (R42). -/
inductive Shed where
  | enOff | pfail | tempOff
deriving DecidableEq, Repr

/-- The pins and straps that hold a level (02, 15, 17, 18, 19). A field named after an active-low pin is true while
the pin is high, but `busy`, which is true while BUSY_N is asserted. -/
structure Pins where
  en : Bool := false
  parkN : Bool := true
  clrN : Bool := true
  role : BitVec 2 := 0
  rma : Bool := false
  busy : Bool := false
  bdIrq : BitVec 4 := 0
  bdMask : BitVec 4 := 3
deriving DecidableEq, Repr

/-- The one-time-programmable fuses (19, R341-R345; 20, R355; 21, R372): the copies blown of the three life-cycle
groups, the customer key slots (public key x then y; empty = no key), the revoke fuses, the pattern key, the ERASE_DONE
fuse, the serial number and SYS_REV, and the fuses that fail their verify (R344), which the part has or has not. -/
structure Otp where
  integration : BitVec 3 := 7
  field : BitVec 3 := 0
  return_ : BitVec 3 := 0
  keys : Tab (List Byte) := []
  revoked : BitVec 4 := 0
  patternKey : Option (BitVec 256) := none
  keyDestroyed : Bool := false
  eraseDone : Bool := false
  serial : BitVec 64 := 0
  rev : Word := 0x000100A0
  defects : List Nat := []
deriving DecidableEq, Repr

/-- An event record: eight words (Table 18-8). -/
abbrev EvtRec := List Word

/-- The event-persist area (R86; the first page's SEQ is 1: DESIGN CHOICE, notes/assumptions/30.md): events waiting, how
many were not persisted, the next page's SEQ and its offset in the area, for how many of the waiting events a page is due,
and the sector to be erased ahead; the sector of the flash that the erase of a RETURN module has come to and where that ends
(R345, 0 while none runs); whether the hold-up capacitance has been measured since OFF (R48). -/
structure Persist where
  waiting : List EvtRec := []
  dropped : Nat := 0
  seq : Nat := 1
  off : Nat := 0
  due : Nat := 0
  ahead : Option Nat := none
  wipe : Option Nat := none
  wipeEnd : Nat := 0
  capDone : Bool := false
deriving DecidableEq, Repr

/-- Work of the NVM port: a read in 256-byte units, a program page by page of given bytes or from the NVM buffer (by
buffer offset), erases of `n` sectors (R87, R88), a persist page with its events, the sector ahead of it (R86), a sector of the
flash of a RETURN module (R345). The unit
in progress is one of these for a single unit. -/
inductive FlashUnit where
  | read (addr len : Nat)
  | program (addr : Nat) (bytes : List Byte)
  | buffer (addr off n : Nat)
  | erase (addr n : Nat)
  | persist (addr : Nat) (bytes : List Byte) (evts : List EvtRec)
  | ahead (addr : Nat)
  | wipe (addr : Nat)
deriving DecidableEq, Repr

/-- Who started an NVM command: the NVM_CMD register, host command NVM or a signed request (queue, CMD_ID). -/
inductive NvmSrc where
  | reg
  | cmd (q : Nat) (id : Nat)
deriving DecidableEq, Repr

/-- The NVM command that runs or is pending (R87, R88): its OP, first byte, length and slot, the units still to do, the
256-byte units done, whether the host has written ABORT, who started it; for CAL_COMMIT its SEQ and place; for host
command NVM the data and the bytes of later steps and the host address; whether a signed request runs it (R344). -/
structure NvmJob where
  op : Nat
  addr : Nat
  len : Nat
  slot : Nat
  todo : List FlashUnit
  units : Nat := 0
  aborted : Bool := false
  src : NvmSrc := .reg
  calSeq : Nat := 0
  calOff : Nat := 0
  calLen : Nat := 0
  data : List Byte := []
  left : Nat := 0
  host : Nat := 0
  lc : Bool := false
  since : Nat := 0
  owed : Bool := false
  ep : Bool := false
deriving DecidableEq, Repr

/-- A fuse blow that a life-cycle request waits for (R341, R344, R345). -/
inductive Blow where
  | integration (copy : Nat) | field (copy : Nat) | return_ (copy : Nat)
  | key (slot : Nat) (bytes : List Byte)
  | revoke (slot : Nat)
  | patternKey (k : BitVec 256)
  | destroyKey
  | eraseDone
deriving DecidableEq, Repr

/-- What follows when the fuse blows of a request are done. -/
inductive AfterBlow where
  /-- Repair of a third copy in BOOT (R341): nothing. -/
  | nothing
  /-- LC_CHANGE with the old code, then RESET_BOOT (R342, R345). -/
  | transition (old : Nat)
  /-- The command completes OK (R344). -/
  | complete
deriving DecidableEq, Repr

/-- The life-cycle request in progress. -/
structure LcJob where
  blows : List Blow
  after : AfterBlow
  src : Option (Nat × Nat) := none
deriving DecidableEq, Repr

/-- A junction sensor: its last sample, whether it is invalid, whether TEMP_SENSOR_BAD was raised (R52). -/
structure Sensor where
  last : BitVec 16 := 0
  bad : Bool := false
deriving DecidableEq, Repr

/-- A start request: an ARM, a host start, or START(t) of a show (R147-R149). -/
structure StartReq where
  arm : Bool := false
  timed : Bool := false
  t : Nat := 0
  show_ : Nat := 0
deriving DecidableEq, Repr

/-- Where a vector's symbols come from (R160): nothing yet (code 2 everywhere), the APG or INLINE (address bus, data
word, whether topology applies, X' and Y'), or a vector record in DRAM (its byte address). -/
inductive VecSrc where
  | none
  | apg (a : Nat) (data : Nat) (topo : Bool)
  | block (addr : Nat)
deriving DecidableEq, Repr

/-- One issued vector, as the forward frame carries it (R14, Table 1-3) and as the controller's delay line keeps it
(01, R17): SEQ_CYCLE, issue time, choices, addresses, masks of R134, and its source with the HOLD mark of R160. -/
structure Vec where
  cycle : Nat
  time : Nat
  tset : Nat
  lset : Nat
  capt : Nat
  x : Nat
  y : Nat
  z : Nat
  src : VecSrc
  hold : Bool
  first : Bool
  working : BitVec 64
  bench : BitVec 64
  trial : Option Nat
  mark : Nat
deriving DecidableEq, Repr

/-- A vector whose results are awaited: the blocks that have returned all of theirs, and by 1024 * UI + channel (0 =
none) the expected symbols plus 1, the results and the strobe times plus 1 (R183). A result is 1 where CH and CL were
sampled + 2 * the raw state (2 CH + CL, Table 6-5) + 8 where a window strobe saw a transition + 16 where the strobe is
missing (R196) + 32 where the return frame's CRC failed (R18) + 64 where the channel was parked at its verify point
(R103). -/
structure Flight where
  vec : Vec
  got : BitVec 16 := 0
  exp : Tab Nat := []
  res : Tab Nat := []
  times : Tab Nat := []
deriving DecidableEq, Repr

/-- A vector at the pins of one die: its executed symbols by channel of the block and UI, whether the vector before
left each channel's stage in DRIVE (R124), K_cal of each channel's drive, CH and CL paths in the bank that is in force for
it (R22, R119), the samples taken so far (by 2 * (1024 * UI + channel) + 1 for CL: 1 + the bit; and the strobe times
plus 1 of CH), the window strobes that saw a transition, the keys whose results have been returned, and whether all have;
the channel that a live pass borrows it for (R263). -/
structure PinVec where
  vec : Vec
  syms : List (List Nat)
  prev : List Bool
  banks : List (Int × Int × Int) := []
  bits : Tab Nat := []
  times : Tab Nat := []
  moved : List Nat := []
  sent : List Nat := []
  back : Bool := false
  lent : Option Nat := none
deriving DecidableEq, Repr

/-- A block that the prefetcher has reached (R142): number, table entry, mark (0 none, the STOP_REASON of R142, 0xFF an
entry that is a host error, R143), records that have arrived, the record with an uncorrectable error. -/
structure PfBlock where
  b : Nat
  addr : Nat
  nvec : Nat
  mark : Nat
  have_ : Nat
  bad : Option Nat := none
deriving DecidableEq, Repr

/-- How far a microinstruction that issues several vectors has come (R166, R171-R174). -/
inductive Progress where
  | none
  | repeat_ (left : Nat)
  | match_ (first : Nat) (trials : Nat) (taking matched : BitVec 64) (p : Option Nat)
  | waitTime (tw : Nat)
  | waitCue (first : Nat) (taken : Option Nat)
  | block (left : Nat) (addr : Nat)
deriving DecidableEq, Repr

/-- The hidden state of an act and its sequencer (08, 09). -/
structure ActSt where
  /-- What armed the act; none while no start is in progress (R147). -/
  armedBy : Option StartReq := none
  /-- Whether the start checks have passed (R146, R147). -/
  checked : Bool := false
  /-- The start held while ARMING, and the latched start (R149). -/
  held : Option StartReq := none
  queued : Option StartReq := none
  /-- The show that started the run (R185). -/
  show_ : Option Nat := none
  tStart : Nat := 0
  /-- Start of the issue cycle of vector 0 (R148, R172). -/
  iss : Nat := 0
  t0 : Nat := 0
  /-- Address of the next microinstruction; the half is SEQ_STATUS.EXEC_HALF. -/
  pc : Nat := 0
  /-- Address and half of the microinstruction that issued the last vector (R154). -/
  lastPc : Nat × Nat := (0, 0)
  working : BitVec 64 := 0
  bench : BitVec 64 := 0
  loaded : BitVec 64 := 0
  benchFail : BitVec 64 := 0
  failSeen : Bool := false
  ringSeen : BitVec 64 := 0
  matchTo : Bool := false
  waitTo : Bool := false
  calls : List (Nat × Nat) := []
  loops : List (Nat × Nat) := []
  /-- The live APG values, which of X, Y, Z, DATA_LO and DATA_HI (bits 0 to 4) reads show, and the start values of RELOAD
  (R161). -/
  x : Nat := 0
  y : Nat := 0
  z : Nat := 0
  data : Nat := 0
  live : BitVec 5 := 0
  x0 : Nat := 0
  y0 : Nat := 0
  z0 : Nat := 0
  data0 : Nat := 0
  cx : Bool := false
  cy : Bool := false
  cz : Bool := false
  /-- The last vector issued (R150). -/
  lastVec : Option Vec := none
  cue : Option (Nat × Nat) := none
  prog : Progress := .none
  /-- Number of vectors to issue in all (L + 1) and STOP_REASON, once a stop is fixed (R150). -/
  stop : Option (Nat × Nat) := none
  aborted : Bool := false
  /-- Timestamp of the end of L at the pins. -/
  endL : Option Nat := none
  runout : Nat := 0
  latency : Nat := 0
  line : List Flight := []
  prefetch : List PfBlock := []
  /-- Address the prefetcher has reached, whether it waits at a conditional flow, and the vectors it is ahead (R142). -/
  pfPc : Nat := 0
  pfHalf : Nat := 0
  pfWait : Bool := false
  pfCalls : List (Nat × Nat) := []
  pfLoops : List (Nat × Nat) := []
  pfLead : Nat := 0
  /-- SWAPs ahead that the prefetcher has followed (R175). -/
  swapFollowed : Nat := 0
  /-- Issue time of the first vector after the last conditional flow executed since the start, if any (R143). -/
  condT : Option Nat := none
  /-- Vectors whose arrival at the pins has been seen (R176, R239). -/
  atPins : Nat := 0
  marksMissed : Nat := 0
  lastMark : Option Nat := none
deriving DecidableEq, Repr

/-- A region-queue descriptor (Table 11-2), with whether its must-repair decisions are over (R205) and the nodes of the search
that found it UNREPAIRABLE (R213). -/
structure RqDesc where
  count : Nat := 0
  mustr : Nat := 0
  mustc : Nat := 0
  typ : Nat := 0
  dirty : Bool := false
  sat : Bool := false
  unrep : Bool := false
  pushes : Nat := 0
  first : Nat := 0
  ended : Bool := false
  nodes : Nat := 0
deriving DecidableEq, Repr

/-- A push of R202: ring, queue, row, column, bank, source flags (1 missing strobe, 2 lost frame, 4 drive check) and the
SEQ_CYCLE of its vector. -/
structure Push where
  ring : Nat
  q : Nat
  row : Nat
  col : Nat
  bank : Nat
  flags : Nat
  cycle : Nat
deriving DecidableEq, Repr

/-- The FINALIZE that runs (R212): its ring, DIRTY_ONLY, whether the ring owns no chunk, and the
host command it runs for. -/
structure RqFin where
  ring : Nat
  dirtyOnly : Bool
  none_ : Bool
  src : Option (Nat × Nat) := none
deriving DecidableEq, Repr

/-- The hidden state of the repair analyzer (11): descriptors by queue, the push buffer and the backlog (oldest first),
the time the buffer has spilled up to, the pushes spilled in all, whether the warning is disarmed (R209), the FINALIZE; and
the uncorrectable errors that the patrol or the scrub has found in descriptors (memory 2) and in the region-queue pool (memory
4), each with its word's byte address, until a consumer reads the word (16, R291). -/
structure RqSt where
  descs : Tab RqDesc := []
  buf : List Push := []
  backlog : List Push := []
  time : Nat := 0
  spilled : Nat := 0
  warned : Bool := false
  fin : Option RqFin := none
  upset : List (Nat × Nat) := []
deriving DecidableEq, Repr

/-- A coefficient bank of a channel, in the units of Table 14-5: K_cal of the drive, CH and CL paths (1/16 fine),
interpolator offsets CH 0-3 then CL 0-3 (1/64 fine; a missing one is 0), the eight bin tables (a missing one is the
nominal table of R273), gain (ppm) and offset of the seven DACs in the order of CAL_DAC (a missing pair is 0), the
comparator offsets (microvolts), whether the tables of CH and CL come from a code-density run (Table 12-4), and the
largest |DNL| of each TDC's tables in 0.001 bin (R271; none where the tables come without their hits). -/
structure Coef where
  drv : Int := 0
  cmpH : Int := 0
  cmpL : Int := 0
  iofs : List Int := []
  tabs : List (List Nat) := []
  dac : List (Int × Int) := []
  ofsH : Int := 0
  ofsL : Int := 0
  btH : Bool := false
  btL : Bool := false
  dnlH : Option Nat := some 0
  dnlL : Option Nat := some 0
deriving DecidableEq, Repr

/-- An expected burst of a strobe (R195): the UI it begins at (SEQ_CYCLE x UI per vector + UI), E_0 in 1/64 fine, the
beats that have got their edge with A_j (1/64 fine), and the beat from which it fails with MISSING_STROBE (R196). -/
structure Burst where
  b : Nat
  e0 : Nat
  beats : List (Nat × Int) := []
  failFrom : Option Nat := none
deriving DecidableEq, Repr

/-- The hidden state of a channel (06, 07, 10, 14): park state of PARK_STATE (0 HIZ, 1 VTT, 2 DRIVE_LO, 3 DRIVE_HI), DIB pin
id, whether a monitor parked its ring with it (R281), whether a PPMU measurement waits for the end of a live pass (R108),
what its vector symbols direct (driver on, level p high), whether vector 0 has reached it, its last executed symbol, the
once-per-start events raised; its coefficient banks, consecutive live rejections of each group and the end of its last pass;
its comparator outputs and, for a strobe, the level it has stood at and since when (1/64 fine), the UI in a row that expect
PRE_LVL, and its expected bursts; PIN_HYST and PIN_HOLDOFF as they are in force (R102); the codes of the vector before by UI
(4 = full symbol; R160); whether a re-enabled channel still waits for the next vector boundary (R104, R277). -/
structure ChanSt where
  park : Nat := 0
  dib : Nat := 0
  ringPark : Bool := false
  meas : Bool := false
  driving : Bool := false
  p : Bool := false
  started : Bool := false
  lastSym : Option Nat := none
  symDrive : Bool := false
  dchkSeen : Bool := false
  symSeen : Bool := false
  active : Coef := {}
  staged : Coef := {}
  rejRun : List Nat := []
  lastPass : Option Nat := none
  outH : Bool := false
  outL : Bool := false
  lvl : Option Bool := none
  since : Nat := 0
  preRun : Nat := 0
  bursts : List Burst := []
  hyst : Nat := 0
  hold : Nat := 0
  codes : List Nat := []
  rejoin : Bool := false
deriving DecidableEq, Repr

/-- A stamp that a TDC retains (R226): in 1/64 fine, whether it was taken while the time base was cold (R232), and whether
the bank has switched since (R223). -/
structure Kept where
  t : Int
  cold : Bool
  old : Bool := false
deriving DecidableEq, Repr

/-- The hidden state of a TDC (12): its edge counter, the last transition of each interpolator and of the output (1/64
fine), and its last stamped rise and fall. -/
structure TdcSt where
  cnt : Nat := 0
  inter : List (Option Nat) := []
  out : Option Nat := none
  rise : Option Kept := none
  fall : Option Kept := none
deriving DecidableEq, Repr

/-- How far a measurement is (R224-R230): idle; waiting for a TDC under code density; for the arm time; for a marked
vector; counting starts; taking stops; in its gate; its repetitions done. -/
inductive TdcPhase where
  | idle | release | armTime | armMark | start | stops | gate | complete
deriving DecidableEq, Repr

/-- The sums of one stop over the repetitions (R228): the number in which it is valid, the sum of its values and of their
squares, and whether one of them has no value of the manual's (a PERIOD stop after an invalid one). -/
structure StopSum where
  n : Nat := 0
  sum : Int := 0
  sq : Int := 0
  bare : Bool := false
deriving DecidableEq, Repr

/-- The hidden state of a measurement unit (12); stamps in 1/64 fine. The fields of PIN_TDC_MEAS, PIN_TDC_LIMIT and
PIN_TDC_ARM_TIME that the START took, with the selectors (TDC, polarity, OCC; the start first); repetitions done; the arming;
qualifying transitions counted; this repetition's start and stops (none = not yet, some none = invalid) with their counts
and, for SKEW, the nearest stamps so far; over the repetitions the first valid start and the sums of the stops; the kept
pairs of FREQ, from its arming, with log2 D; the flags. -/
structure TdcUnit where
  phase : TdcPhase := .idle
  kind : Nat := 0
  arm : Nat := 0
  nstop : Nat := 0
  avg : Nat := 0
  cont : Bool := false
  limit : Nat := 0
  armTime : Nat := 0
  sels : List (Nat × Nat × Nat) := []
  rep : Nat := 0
  armT : Int := 0
  cnt : Nat := 0
  start : Option Int := none
  stops : List (Option (Option Int)) := []
  counts : List Nat := []
  near : List (Option Kept) := []
  t0 : Option Int := none
  sums : List StopSum := []
  kept : List (Nat × Int) := []
  dlog : Nat := 0
  cold : Bool := false
  timeout : Bool := false
  missed : Bool := false
  changed : Bool := false
deriving DecidableEq, Repr

/-- A comparator transition kept for a trigger unit (R235, R238): channel, CL, rise, stamp, time (1/64 fine). -/
structure TrigEdge where
  chan : Nat
  low : Bool
  rise : Bool
  stamp : Option Int
  t : Int
deriving DecidableEq, Repr

/-- The hidden state of a trigger unit (13): the sample before (channel, raw state) with the time at each channel, the
completion time of the stage before (fines), the end of the hold-off, transitions since the sample before. -/
structure TrigSt where
  prev : Option (List (Nat × Nat) × List (Nat × Int)) := none
  done : Nat := 0
  holdTo : Option Nat := none
  edges : List TrigEdge := []
deriving DecidableEq, Repr

/-- A completed stream record that waits to be placed (R247): kind, flags, TIME, payload, when it may be placed. -/
structure StreamRec where
  kind : Nat
  flags : Nat
  time : Nat
  payload : List Byte
  ready : Nat
deriving DecidableEq, Repr

/-- A gap of a stream (R248): times of the first and the last lost record, COUNT, FIRST_SEQ, CAUSES, KINDS. -/
structure Gap where
  first : Nat
  last : Nat
  count : Nat
  seq : Nat
  causes : Nat
  kinds : Nat
deriving DecidableEq, Repr

/-- What a reduction keeps of one TDC (R242, R243): histogram bins, TOTAL or COUNT, MIN, MAX, SUM, SUMSQ, window counts, the
TDC's previous rise, fall and transition (none = none yet, some none = not stamped), the payload of its previous record,
whether the interval is stale; for STAMPS the open record: first index, polarity, entries, time of the first, MISSED;
cold. -/
structure Red where
  bins : Tab Nat := []
  count : Nat := 0
  mn : Int := 0
  mx : Int := 0
  sum : Int := 0
  sumsq : Nat := 0
  win : List Nat := []
  prevR : Option (Option Int) := none
  prevF : Option (Option Int) := none
  prevE : Option (Option Int) := none
  last : List Byte := []
  stale : Bool := false
  e0 : Nat := 0
  pol0 : Bool := false
  ents : List (BitVec 64) := []
  t0 : Nat := 0
  missed : Bool := false
  cold : Bool := false
deriving DecidableEq, Repr

/-- A transition inside a RECORD window (R241): channel, rise, edge index, stamp (1/64 fine). -/
structure WinEdge where
  chan : Nat
  rise : Bool
  idx : Nat
  stamp : Option Int
deriving DecidableEq, Repr

/-- The hidden state of a stream (13): the next SEQ; records waiting to be placed; records in the DRAM ring (length in
16-byte units, SEQ), its write and read positions in bytes; the open gap; times of the last vector and ACQ_GAP; the interval
start of each die and when its last results have left it (R245); the reductions by TDC (2 channel + CL); the RECORD window:
arm time, source, its transitions, cold, stale channels. -/
structure StreamSt where
  seq : Nat := 0
  waiting : List StreamRec := []
  ring : List (Nat × Nat) := []
  wr : Nat := 0
  rd : Nat := 0
  gap : Option Gap := none
  lastIrq : Option Nat := none
  lastGap : Option Nat := none
  ints : Tab Nat := []
  left : Tab Nat := []
  reds : Tab Red := []
  win : Option (Nat × Nat) := none
  edges : List WinEdge := []
  cold : Bool := false
  stale : List Nat := []
deriving DecidableEq, Repr

/-- A live pass of a die (R262): its channel, when it began, the groups it runs, the hits and the tables of its
code-density run once it is done, whether the channel's comparators are on a loopback input now (R263, R264). -/
structure PassSt where
  chan : Nat
  start : Nat
  groups : Nat := 0
  tables : Option (List (List Nat) × List (List Nat)) := none
  lent : Bool := false
deriving DecidableEq, Repr

/-- What a full run has measured of a die (CAL_DIE, R258): common-edge offset, t_ramp, c (1/16 fine). -/
structure CalDie where
  offset : Int := 0
  ramp : Nat := 0
  c : Int := 0
deriving DecidableEq, Repr

/-- The hidden state of the calibration engine (14, 05): when PENDING left 0, whether it was warned of (R257); the time
of the last full run where one is known, and whether it was since BOOT; ROOT_MHZ at the last measurement; offset, length
and SEQ of the newest valid record of the store; the die records. -/
structure CalSt where
  since : Option Nat := none
  warned : Bool := false
  full : Option Nat := none
  fullBoot : Bool := false
  root : Option Nat := none
  newest : Option (Nat × Nat × Nat) := none
  dies : Tab CalDie := []
deriving DecidableEq, Repr

/-- The hidden state of a PE die: the frames on their way to it and the vectors at its pins (R13, R17), its live pass
and the channel its schedule visited last (R262), its copy of the timestamp as the distance from the controller's count
(R24; none before BOOT step 7 loads it), DCHK and MONV of its next return frame and STALE of its last (Table 1-4), the
DRIVE_CHECK events that wait for an event slot of one (channel, time; R18), and the host requests that wait
for its main converter: when each arrives there, and what it asks for (0 to 63 the PPMU of a channel, 64 and 65 the SENSE
inputs, 66 and 67 the SREF outputs of R109), and when the reduction results that it sends have left it (R245). -/
structure DieSt where
  fwd : List Vec := []
  pins : List PinVec := []
  pass : Option PassSt := none
  lastChan : Option Nat := none
  clock : Option Int := none
  dchk : Bool := false
  monv : Bool := false
  asks : List (Nat × Nat) := []
  acqTo : Nat := 0
  evts : List (Nat × Nat) := []
  stale : Bool := false
deriving DecidableEq, Repr

/-- The hidden state of a ring (10): the cells' tile maps are DRAM bytes; whether a log record was dropped since the last
one written (R189), the push in progress (whether FINAL); members and UI per vector at the start (R187); the last
STRAY_BURST (R196). -/
structure RingSt where
  gap : Bool := false
  push : Option Bool := none
  members : Nat := 0
  uis : Nat := 8
  lastStray : Option Nat := none
deriving DecidableEq, Repr

/-- A Brodjo frame (R308, Table 17-4). -/
structure Frame where
  seq : Nat
  tag : Nat
  ftype : Nat
  dest : Nat
  src : Nat
  data : List Word
deriving DecidableEq, Repr

/-- A whistle (R313, Table 17-7). -/
structure Whistle where
  wn : Nat
  kind : Nat
  show_ : Nat
  origin : Nat
  form : Nat := 0
  ring : Nat := 0
  cause : Nat := 0
  cue : Nat := 0
  turn : Nat := 0
  ext : Nat := 0
deriving DecidableEq, Repr

/-- What a port has sent, in order. -/
inductive Sent where
  | frame (f : Frame)
  | whistle (w : Whistle)
  | barker (w : BitVec 56)
  | ack (seq : Nat) (nak : Bool) (req rsp : Nat)
deriving DecidableEq, Repr

/-- A frame that waits for its ACK: retries, time of first transmission and of the last (R308). -/
structure Unacked where
  frame : Frame
  retries : Nat := 0
  first : Nat := 0
  last : Nat := 0
deriving DecidableEq, Repr

/-- Who a reply goes back to: a host command, or the port and tag a relay took the request from (R310). -/
inductive Requester where
  | cmd (q id : Nat)
  | port (p tag src : Nat)
deriving DecidableEq, Repr

/-- A tag in use: whose request it is, whether it is a write, when it was sent (R310). -/
structure TagSt where
  tag : Nat
  who : Requester
  wr : Bool
  time : Nat
deriving DecidableEq, Repr

/-- A request that waits at a port's turnstile for a tag: whose it is, whether it is a write, its frame (R310). -/
structure Held where
  who : Requester
  wr : Bool
  frame : Frame
deriving DecidableEq, Repr

/-- The hidden state of a Brodjo port (17). -/
structure PortSt where
  tx : Nat := 0
  rx : Nat := 0
  unacked : List Unacked := []
  waiting : List Frame := []
  held : List Held := []
  nak : Bool := false
  credReq : Nat := 0
  credRsp : Nat := 0
  tags : List TagSt := []
  retired : List (Nat × Nat) := []
  bcnt : Nat := 0
  partnerIdx : Nat := 0x1FF
  orphanSeen : Bool := false
  there : Bool := false
  sent : List Sent := []
deriving DecidableEq, Repr

/-- The hidden state of the whistles (R314): the next WN, the last WN taken from each origin with its time, the times of
the whistles sent in the last 1 ms, and the whistles that wait for the window. -/
structure WhistleSt where
  wn : Nat := 0
  last : Tab (Option (Nat × Nat)) := []
  times : List Nat := []
  waiting : List Whistle := []
deriving DecidableEq, Repr

/-- The synchronisation of 04: the exchange number of the request that is out and its t1, and the last 16 offsets in
half fines (2 theta). -/
structure SyncSt where
  xch : Nat := 0
  t1 : Option Nat := none
  thetas : List Int := []
deriving DecidableEq, Repr

/-- What the manager keeps of a show (R320, R322): the release time and the reported state of member acts
(16 * device + act; code of Table 8-1 plus 1), the devices that have reported an act RUNNING, and those that have disagreed. -/
structure ShowSt where
  t : Nat := 0
  ran : List Nat := []
  bad : List Nat := []
  acts : Tab Nat := []
deriving DecidableEq, Repr

/-- What the manager keeps of a device (R321): its last join profile, the mismatch mask, whether it is lost. -/
structure DevSt where
  profile : List Word := []
  mismatch : Nat := 0
  lost : Bool := false
deriving DecidableEq, Repr

/-- An outcome of a command on its way to a completion (Table 18-4): whether it is a duplicate, whether it asks for the
vector, its TIME once that is fixed, whether its command began (R327), whether the duplicate window keeps it (R331). -/
structure Compl where
  id : Nat
  status : Nat
  result : Nat
  dup : Bool := false
  irq : Bool := false
  at_ : Option Nat := none
  began : Bool := true
  keep : Bool := true
deriving DecidableEq, Repr

/-- A command queue's engine state (R327-R333, R351): commands fetched that wait to start, with the time each was fetched at
(id, time); started commands; those that a Function Level Reset has cut off; outcomes whose completion is not written yet;
duplicates that wait for the first one; the duplicate window; the words that a REG_WRITE still has to write (id, address,
words); what remote reads have brought while D3hot keeps it from host memory (id, words). -/
structure QueueSt where
  waiting : List HostCmd := []
  started : List HostCmd := []
  cut : List HostCmd := []
  done : List Compl := []
  dups : List HostCmd := []
  window : List Compl := []
  waits : List (Nat × Nat) := []
  writes : List (Nat × Nat × List Word) := []
  owed : List (Nat × List Word) := []
deriving DecidableEq, Repr

/-- What the last read went out with (the model's own field): the bytes, whether the completion is poisoned (EP bit), whether it
is Unsupported Request. -/
structure Reply where
  bytes : List Byte
  poisoned : Bool := false
  unsupported : Bool := false
deriving DecidableEq, Repr

/-- The state of the module. -/
structure State where
  /-- The commands that wait, first in, first out. -/
  pending : List Instr
  pins : Pins
  mode : Mode
  shed : Option Shed
  otp : Otp
  /-- Registers by BAR0 address; an unlisted address reads its Reset column (R350). -/
  regs : Tab Word
  /-- The time count in fines, the slew term and the epoch (R64, R65, R67). -/
  time : BitVec 64
  slew : Int
  epoch : Word
  /-- Whether the time count runs: since the root first locked in BOOT step 1 (R64). -/
  counting : Bool
  /-- The latches of R353: 2^26 * source + address. -/
  latches : Tab Word
  /-- The next event number (R334), the last journal interrupt and whether one is suppressed (R335). -/
  evtSeq : Word
  evtIrq : Option Nat
  evtDefer : Bool
  /-- MSI-X messages sent by vector (R326), and the PCIe power state (R327). -/
  msix : Tab Nat
  d3hot : Bool
  /-- Memories by byte address: DRAM; private banks (0x20_0000 n + offset); shared pool; mailbox; flash; what the module
  has written to host memory. -/
  dram : List Host.Cell
  banks : List Host.Cell
  pool : List Host.Cell
  mailbox : List Host.Cell
  flash : List Host.Cell
  hostMem : List Host.Cell
  /-- Torn flash bytes (R54): the value the abandoned operation would have given each. -/
  torn : Tab (Option Byte)
  sensors : Tab Sensor
  alertArmed : Bool
  warnArmed : Bool
  persist : Persist
  nvm : Option NvmJob
  /-- The unit the NVM port performs now. -/
  unit : Option FlashUnit
  lc : Option LcJob
  /-- Whether the RETURN erase of this BOOT is still to come (R345). -/
  eraseDue : Bool
  /-- The image: the slot whose read comes next in step 6, the slot booted from, BODY_HASH prefix, and of HK_FIRMWARE the
  offset and length in the shared pool and the entry offset (R79). -/
  slotTried : Option Nat
  booted : Option Nat
  bodyHash : BitVec 64
  hkOff : Nat
  hkLen : Nat
  hkEntry : Nat
  sync : SyncSt
  acts : Tab ActSt
  dies : Tab DieSt
  chans : Tab ChanSt
  rings : Tab RingSt
  /-- The fail log buffer: what is in it in 1/4096 byte, and the time it was counted at (R189). -/
  logBuf : Nat
  logTime : Nat
  rq : RqSt
  /-- TDCs (2 channel + CL), measurement units by channel, trigger units, streams (12, 13). -/
  tdcs : Tab TdcSt
  units : Tab TdcUnit
  trigs : Tab TrigSt
  streams : Tab StreamSt
  cal : CalSt
  ports : Tab PortSt
  whistles : WhistleSt
  shows : Tab ShowSt
  devs : Tab DevSt
  queues : Tab QueueSt
  /-- Time of the last ECC_CE event (R291). -/
  eccTime : Option Nat
  /-- The TAP instruction in effect (0 BYPASS, 1 boundary scan, 2 debug), and the factory trims by address (R340). -/
  jtag : Nat
  trims : Tab Word
  /-- The region that the patrol engine tests now or next, counted over the four arrays (R293). -/
  patrol : Nat
  /-- The host-memory failures that AER has logged: 0 Unsupported Request, 1 Completer Abort, 2 Completion Timeout, 3 poisoned
  data (R324, Table 18-6). -/
  aer : BitVec 4
  /-- The last write of data with an uncorrectable error to host memory, which went with EP: address and length (16, Table
  16-2). -/
  ep : Option (Nat × Nat)
  /-- When the blanking timer of each SENSE monitor that runs one expires (R280). -/
  blanks : Tab Nat
  reply : Option Reply
  /-- The model's own counter behind every free value (DESIGN CHOICE, notes/assumptions/6.md). -/
  freeCtr : Nat
deriving DecidableEq, Repr

/-- The module in OFF, before the first UVLO start: nothing powered, fuses as shipped, flash erased, every register at
its Reset column (DESIGN CHOICE, notes/assumptions/1.md to 6.md). -/
def State.reset : State :=
  { pending := [], pins := {}, mode := .off, shed := none, otp := {}, regs := [], time := 0, slew := 0, epoch := 0, counting := false,
    latches := [], evtSeq := 0, evtIrq := none, evtDefer := false, msix := [], d3hot := false, dram := [], banks := [],
    pool := [], mailbox := [], flash := [], hostMem := [], torn := [], sensors := [], alertArmed := true,
    warnArmed := true, persist := {}, nvm := none, unit := none, lc := none, eraseDue := false, slotTried := none, booted := none,
    bodyHash := 0, hkOff := 0, hkLen := 0, hkEntry := 0, sync := {}, acts := [], dies := [], chans := [], rings := [], logBuf := 0, logTime := 0, rq := {}, tdcs := [], units := [], trigs := [], streams := [], cal := {},
    ports := [],
    whistles := {}, shows := [], devs := [], queues := [], eccTime := none, jtag := 0, trims := [], patrol := 0, aer := 0, ep := none, blanks := [], reply := none, freeCtr := 0 }

/-- What a byte of memory that nothing has written reads as: 0 in DRAM, banks, pool, mailbox and host memory. -/
def ramByte (_ : Nat) : Byte := 0

/-- What an erased flash byte reads as (DESIGN CHOICE, notes/assumptions/2.md). -/
def flashByte (_ : Nat) : Byte := 0xFF

end Sys2Proof.Machine
end

