-- ==== Sys2Proof/Machine/Ops.lean ====
section
/-! DEFINITION. The named operations over registers, tables, memories, interrupts, events and frames that the meanings
share. -/

namespace Sys2Proof.Machine

/-! ## One field replaced: every update of a state goes through these -/

abbrev State.withPending (s : State) (v : List Instr) : State := { s with pending := v }
abbrev State.withPins (s : State) (v : Pins) : State := { s with pins := v }
abbrev State.withMode (s : State) (v : Mode) : State := { s with mode := v }
abbrev State.withShed (s : State) (v : Option Shed) : State := { s with shed := v }
abbrev State.withOtp (s : State) (v : Otp) : State := { s with otp := v }
abbrev State.withRegs (s : State) (v : Tab Word) : State := { s with regs := v }
abbrev State.withTime (s : State) (v : BitVec 64) : State := { s with time := v }
abbrev State.withSlew (s : State) (v : Int) : State := { s with slew := v }
abbrev State.withEpoch (s : State) (v : Word) : State := { s with epoch := v }
abbrev State.withCounting (s : State) (v : Bool) : State := { s with counting := v }
abbrev State.withLatches (s : State) (v : Tab Word) : State := { s with latches := v }
abbrev State.withEvtSeq (s : State) (v : Word) : State := { s with evtSeq := v }
abbrev State.withEvtIrq (s : State) (v : Option Nat) : State := { s with evtIrq := v }
abbrev State.withEvtDefer (s : State) (v : Bool) : State := { s with evtDefer := v }
abbrev State.withMsix (s : State) (v : Tab Nat) : State := { s with msix := v }
abbrev State.withD3hot (s : State) (v : Bool) : State := { s with d3hot := v }
abbrev State.withDram (s : State) (v : List Host.Cell) : State := { s with dram := v }
abbrev State.withBanks (s : State) (v : List Host.Cell) : State := { s with banks := v }
abbrev State.withPool (s : State) (v : List Host.Cell) : State := { s with pool := v }
abbrev State.withMailbox (s : State) (v : List Host.Cell) : State := { s with mailbox := v }
abbrev State.withFlash (s : State) (v : List Host.Cell) : State := { s with flash := v }
abbrev State.withHostMem (s : State) (v : List Host.Cell) : State := { s with hostMem := v }
abbrev State.withTorn (s : State) (v : Tab (Option Byte)) : State := { s with torn := v }
abbrev State.withSensors (s : State) (v : Tab Sensor) : State := { s with sensors := v }
abbrev State.withAlertArmed (s : State) (v : Bool) : State := { s with alertArmed := v }
abbrev State.withWarnArmed (s : State) (v : Bool) : State := { s with warnArmed := v }
abbrev State.withPersist (s : State) (v : Persist) : State := { s with persist := v }
abbrev State.withNvm (s : State) (v : Option NvmJob) : State := { s with nvm := v }
abbrev State.withUnit (s : State) (v : Option FlashUnit) : State := { s with unit := v }
abbrev State.withLc (s : State) (v : Option LcJob) : State := { s with lc := v }
abbrev State.withEraseDue (s : State) (v : Bool) : State := { s with eraseDue := v }
abbrev State.withSlotTried (s : State) (v : Option Nat) : State := { s with slotTried := v }
abbrev State.withBooted (s : State) (v : Option Nat) : State := { s with booted := v }
abbrev State.withBodyHash (s : State) (v : BitVec 64) : State := { s with bodyHash := v }
abbrev State.withHkOff (s : State) (v : Nat) : State := { s with hkOff := v }
abbrev State.withHkLen (s : State) (v : Nat) : State := { s with hkLen := v }
abbrev State.withHkEntry (s : State) (v : Nat) : State := { s with hkEntry := v }
abbrev State.withSync (s : State) (v : SyncSt) : State := { s with sync := v }
abbrev State.withActs (s : State) (v : Tab ActSt) : State := { s with acts := v }
abbrev State.withDies (s : State) (v : Tab DieSt) : State := { s with dies := v }
abbrev State.withChans (s : State) (v : Tab ChanSt) : State := { s with chans := v }
abbrev State.withRings (s : State) (v : Tab RingSt) : State := { s with rings := v }
abbrev State.withLogBuf (s : State) (v : Nat) : State := { s with logBuf := v }
abbrev State.withLogTime (s : State) (v : Nat) : State := { s with logTime := v }
abbrev State.withRq (s : State) (v : RqSt) : State := { s with rq := v }
abbrev State.withTdcs (s : State) (v : Tab TdcSt) : State := { s with tdcs := v }
abbrev State.withUnits (s : State) (v : Tab TdcUnit) : State := { s with units := v }
abbrev State.withTrigs (s : State) (v : Tab TrigSt) : State := { s with trigs := v }
abbrev State.withStreams (s : State) (v : Tab StreamSt) : State := { s with streams := v }
abbrev State.withCal (s : State) (v : CalSt) : State := { s with cal := v }
abbrev State.withPorts (s : State) (v : Tab PortSt) : State := { s with ports := v }
abbrev State.withWhistles (s : State) (v : WhistleSt) : State := { s with whistles := v }
abbrev State.withShows (s : State) (v : Tab ShowSt) : State := { s with shows := v }
abbrev State.withDevs (s : State) (v : Tab DevSt) : State := { s with devs := v }
abbrev State.withQueues (s : State) (v : Tab QueueSt) : State := { s with queues := v }
abbrev State.withEccTime (s : State) (v : Option Nat) : State := { s with eccTime := v }
abbrev State.withJtag (s : State) (v : Nat) : State := { s with jtag := v }
abbrev State.withTrims (s : State) (v : Tab Word) : State := { s with trims := v }
abbrev State.withPatrol (s : State) (v : Nat) : State := { s with patrol := v }
abbrev State.withAer (s : State) (v : BitVec 4) : State := { s with aer := v }
abbrev State.withEp (s : State) (v : Option (Nat × Nat)) : State := { s with ep := v }
abbrev State.withBlanks (s : State) (v : Tab Nat) : State := { s with blanks := v }
abbrev State.withReply (s : State) (v : Option Reply) : State := { s with reply := v }
abbrev State.withFreeCtr (s : State) (v : Nat) : State := { s with freeCtr := v }

/-! ## Registers -/

/-- The stored word of the register at a BAR0 address. -/
def State.reg (s : State) (a : Nat) : Word := Tab.get regReset s.regs a

/-- A register word stored. -/
def State.setReg (s : State) (a : Nat) (w : Word) : State := s.withRegs (Tab.set regReset s.regs a w)

/-- The value of a field. -/
def State.fld (s : State) (f : Field) : Nat := bitsOf (s.reg f.addr).toNat f.lo f.len

/-- Whether a one-bit field is set. -/
def State.flag (s : State) (f : Field) : Bool := decide (s.fld f ≠ 0)

/-- A field stored; the register's other bits stay. -/
def State.put (s : State) (f : Field) (v : Nat) : State :=
  s.setReg f.addr (BitVec.ofNat 32 (setBits (s.reg f.addr).toNat f.lo f.len v))

/-- A one-bit field stored. -/
def State.putB (s : State) (f : Field) (b : Bool) : State := s.put f (b2n b)

/-- A counter field incremented, saturating at all ones. -/
def State.bump (s : State) (f : Field) : State := s.put f (satN f.len (s.fld f + 1))

/-- A _LO/_HI pair read as 64 bits; the HI register follows the LO register. -/
def State.pair (s : State) (lo : Nat) : Nat := (s.reg lo).toNat + 2 ^ 32 * (s.reg (lo + 4)).toNat

/-- A _LO/_HI pair stored. -/
def State.setPair (s : State) (lo v : Nat) : State :=
  (s.setReg lo (BitVec.ofNat 32 v)).setReg (lo + 4) (BitVec.ofNat 32 (v / 2 ^ 32))

/-! ## Hidden state by number -/

def State.act (s : State) (n : Nat) : ActSt := Tab.get (fun _ => {}) s.acts n
def State.setAct (s : State) (n : Nat) (x : ActSt) : State := s.withActs (Tab.set (fun _ => {}) s.acts n x)
def State.die (s : State) (n : Nat) : DieSt := Tab.get (fun _ => {}) s.dies n
def State.setDie (s : State) (n : Nat) (x : DieSt) : State := s.withDies (Tab.set (fun _ => {}) s.dies n x)
def State.chan (s : State) (n : Nat) : ChanSt := Tab.get (fun _ => {}) s.chans n
def State.setChan (s : State) (n : Nat) (x : ChanSt) : State := s.withChans (Tab.set (fun _ => {}) s.chans n x)
def State.ring (s : State) (n : Nat) : RingSt := Tab.get (fun _ => {}) s.rings n
def State.setRing (s : State) (n : Nat) (x : RingSt) : State := s.withRings (Tab.set (fun _ => {}) s.rings n x)
def State.port (s : State) (n : Nat) : PortSt := Tab.get (fun _ => {}) s.ports n
def State.setPort (s : State) (n : Nat) (x : PortSt) : State := s.withPorts (Tab.set (fun _ => {}) s.ports n x)
def State.show_ (s : State) (n : Nat) : ShowSt := Tab.get (fun _ => {}) s.shows n
def State.setShow (s : State) (n : Nat) (x : ShowSt) : State := s.withShows (Tab.set (fun _ => {}) s.shows n x)
def State.dev (s : State) (n : Nat) : DevSt := Tab.get (fun _ => {}) s.devs n
def State.setDev (s : State) (n : Nat) (x : DevSt) : State := s.withDevs (Tab.set (fun _ => {}) s.devs n x)
def State.queue (s : State) (n : Nat) : QueueSt := Tab.get (fun _ => {}) s.queues n
def State.setQueue (s : State) (n : Nat) (x : QueueSt) : State := s.withQueues (Tab.set (fun _ => {}) s.queues n x)
def State.sensor (s : State) (n : Nat) : Sensor := Tab.get (fun _ => {}) s.sensors n
def State.setSensor (s : State) (n : Nat) (x : Sensor) : State := s.withSensors (Tab.set (fun _ => {}) s.sensors n x)

def State.tdc (s : State) (n : Nat) : TdcSt := Tab.get (fun _ => {}) s.tdcs n
def State.setTdc (s : State) (n : Nat) (x : TdcSt) : State := s.withTdcs (Tab.set (fun _ => {}) s.tdcs n x)
def State.mu (s : State) (n : Nat) : TdcUnit := Tab.get (fun _ => {}) s.units n
def State.setMu (s : State) (n : Nat) (x : TdcUnit) : State := s.withUnits (Tab.set (fun _ => {}) s.units n x)
def State.trig (s : State) (n : Nat) : TrigSt := Tab.get (fun _ => {}) s.trigs n
def State.setTrig (s : State) (n : Nat) (x : TrigSt) : State := s.withTrigs (Tab.set (fun _ => {}) s.trigs n x)
def State.stream (s : State) (n : Nat) : StreamSt := Tab.get (fun _ => {}) s.streams n
def State.setStream (s : State) (n : Nat) (x : StreamSt) : State :=
  s.withStreams (Tab.set (fun _ => {}) s.streams n x)

/-- An operation applied for each number of a list, in order. -/
def State.each (f : Nat → State → State) : List Nat → State → State
  | [], s => s
  | n :: ns, s => State.each f ns (f n s)

/-! ## Free values -/

/-- The free value that comes next. -/
def State.free (s : State) : BitVec 64 := Config.freeValue s.freeCtr

/-- The free value taken: the next one is another. -/
def State.takeFree (s : State) : State := s.withFreeCtr (s.freeCtr + 1)

/-- A step's outcome. -/
abbrev Res := Host.Outcome State Fault Refusal

/-! ## Time -/

/-- How far time `a` is after time `b` on a count of `2 ^ w` steps (R3): negative where it is before. Times are compared so
everywhere, since the count wraps. -/
def since (w a b : Nat) : Int := signed w ((a + 2 ^ w - b % 2 ^ w) % 2 ^ w)

/-- How long after b an instant a lies, on a count of w bits: 0 where it lies at most 2^(w - 14) before it (2^50 fines are
171 s). The count wraps (R3), so no more than that can be told from a long time after (DESIGN CHOICE,
notes/assumptions/7.md). -/
def elapsed (w a b : Nat) : Nat :=
  let e := (a + 2 ^ w - b % 2 ^ w) % 2 ^ w
  if 2 ^ w - 2 ^ (w - 14) ≤ e then 0 else e

/-- Whether time `a` in fines is after time `b` (R3). -/
def after (a b : Nat) : Bool := decide (0 < since 64 a b)

/-- Whether the time count has reached a time (R3). -/
def State.past (s : State) (t : Nat) : Bool := !after t s.time.toNat

/-- An event that stands for an instant: global time is at least that. The count itself wraps with TIME_WRAP alone, so an
instant beyond the wrap leaves it (DESIGN CHOICE, notes/assumptions/7.md). -/
def State.at_ (s : State) (t : Nat) : State :=
  if after t s.time.toNat ∧ s.time.toNat < t % 2 ^ 64 then s.withTime (BitVec.ofNat 64 t) else s

/-! ## Bytes -/

/-- The `n` low bytes of a number, least significant first (R4). -/
def leBytes : Nat → Nat → List Byte
  | 0, _ => []
  | n + 1, v => BitVec.ofNat 8 v :: leBytes n (v / 256)

/-- The number a little-endian byte string spells. -/
def leNat : List Byte → Nat
  | [] => 0
  | b :: bs => b.toNat + 256 * leNat bs

/-- Words as bytes. -/
def wordBytes : List Word → List Byte
  | [] => []
  | w :: ws => leBytes 4 w.toNat ++ wordBytes ws

/-- `n` words read from a byte string. -/
def bytesWords : Nat → List Byte → List Word
  | 0, _ => []
  | n + 1, bs => BitVec.ofNat 32 (leNat (bs.take 4)) :: bytesWords n (bs.drop 4)

/-- One step of CRC-32C on eight bits, reflected form. -/
def crcBits : Nat → Nat → Nat
  | 0, c => c
  | n + 1, c => crcBits n (if c % 2 = 1 then (c / 2) ^^^ 0x82F63B78 else c / 2)

/-- CRC-32C over a byte string from a running value. -/
def crcFold : List Byte → Nat → Nat
  | [], c => c
  | b :: bs, c => crcFold bs (crcBits 8 (c ^^^ b.toNat))

/-- CRC-32C (R76). -/
def crc32c (bs : List Byte) : Nat := crcFold bs 0xFFFFFFFF ^^^ 0xFFFFFFFF

/-! ## Memories -/

/-- The size of DRAM in bytes (16). -/
def dramSize : Nat := 137438953472

/-- One byte of each memory. -/
def State.dramAt (s : State) (a : Nat) : Byte := Tab.get ramByte s.dram a
def State.bankAt (s : State) (a : Nat) : Byte := Tab.get ramByte s.banks a
def State.poolAt (s : State) (a : Nat) : Byte := Tab.get ramByte s.pool a
def State.mboxAt (s : State) (a : Nat) : Byte := Tab.get ramByte s.mailbox a
def State.flashAt (s : State) (a : Nat) : Byte := Tab.get flashByte s.flash a
def State.hostAt (s : State) (a : Nat) : Byte := Tab.get ramByte s.hostMem a

/-- Bytes of a memory read and written. -/
def State.dramBytes (s : State) (a n : Nat) : List Byte := Tab.slice ramByte s.dram a n
def State.dramPut (s : State) (a : Nat) (bs : List Byte) : State := s.withDram (Tab.splice ramByte s.dram a bs)
def State.bankBytes (s : State) (a n : Nat) : List Byte := Tab.slice ramByte s.banks a n
def State.bankPut (s : State) (a : Nat) (bs : List Byte) : State := s.withBanks (Tab.splice ramByte s.banks a bs)
def State.poolBytes (s : State) (a n : Nat) : List Byte := Tab.slice ramByte s.pool a n
def State.poolPut (s : State) (a : Nat) (bs : List Byte) : State := s.withPool (Tab.splice ramByte s.pool a bs)
def State.mboxBytes (s : State) (a n : Nat) : List Byte := Tab.slice ramByte s.mailbox a n
def State.mboxPut (s : State) (a : Nat) (bs : List Byte) : State := s.withMailbox (Tab.splice ramByte s.mailbox a bs)
/-- Bytes written to host memory by DMA. -/
def State.hostPut (s : State) (a : Nat) (bs : List Byte) : State := s.withHostMem (Tab.splice ramByte s.hostMem a bs)

/-- Bytes delivered to host memory, with the EP bit set where they hold an uncorrectable error: `ep` keeps the last such write
(16, Table 16-2). -/
def State.hostPutEp (s : State) (a : Nat) (bs : List Byte) (bad : Bool) : State :=
  let s := s.hostPut a bs
  if bad then s.withEp (some (a, bs.length)) else s

/-- Whether [a, a + n) and [b, b + m) meet. -/
def rangesMeet (a n b m : Nat) : Bool := decide (0 < n ∧ 0 < m ∧ a < b + m ∧ b < a + n)

/-! ## Canonical form -/

/-- The canonical form of a memory: addresses strictly rising, no entry equal to what an unlisted address reads as. -/
def Memory.wf (d : Nat → Byte) (m : List Host.Cell) : Bool := Tab.wf d m

/-- Every memory and the register file in canonical form. -/
def State.wf (s : State) : Bool :=
  Memory.wf ramByte s.dram && Memory.wf ramByte s.banks && Memory.wf ramByte s.pool && Memory.wf ramByte s.mailbox &&
    Memory.wf flashByte s.flash && Memory.wf ramByte s.hostMem && Tab.wf regReset s.regs

/-! ## Interrupts (18) -/

/-- MSI-X vector `v` raised: its message is sent, or held in the pending bit array while the vector is masked or the
endpoint is in D3hot (R326, R327; DEDUCED, notes/assumptions/21.md). -/
def State.raiseVec (s : State) (v : Nat) : State :=
  if s.d3hot ∨ s.flag (MSIX_TABLE.MASK v) then s.put (MSIX_PBA.PENDING v) 1
  else s.withMsix (Tab.set (fun _ => 0) s.msix v (Tab.get (fun _ => 0) s.msix v + 1))

/-- A bit of SYS_IRQ_STATUS set; vector 0 is raised when an unmasked bit becomes 1, and SAFE cannot be masked
(Table 18-2). -/
def State.sysIrq (s : State) (bit : Nat) : State :=
  let f : Field := ⟨SYS_IRQ_STATUS.addr, bit, 1⟩
  let m : Field := ⟨SYS_IRQ_MASK.addr, bit, 1⟩
  if s.flag f then s
  else if bit = 0 ∨ s.flag m then (s.put f 1).raiseVec 0
  else s.put f 1

/-- A bit of BD_IRQ set (Table 18-10): 0 SAFE, 1 FATAL, 2 MODE, 3 DOORBELL. -/
def State.bdIrq (s : State) (bit : Nat) : State :=
  s.withPins { s.pins with bdIrq := s.pins.bdIrq ||| BitVec.ofNat 4 (2 ^ bit) }

/-- Whether BIRQ_N is driven low (R337). -/
def State.birqLow (s : State) : Bool := decide (s.pins.bdIrq &&& s.pins.bdMask ≠ 0)

/-- Whether REF_OK is released: IDLE, RUN and CAL, while CLR_N is high (R28, R286). -/
def State.refOk (s : State) : Bool :=
  match s.mode with
  | .idle | .run | .cal => s.pins.clrN
  | _ => false

/-- Whether FAULT_N is driven low (R28): in SAFE, and in a shedding sequence from SAFE until OFF is entered (Table 2-14). A
fatal fault is recorded in no other mode but SAFE. -/
def State.faultLow (s : State) : Bool :=
  decide (s.mode = .safe) || (decide (s.mode = .off) && s.shed.isSome && decide (s.fld SYS_FAULT_CODE.CODE ≠ 0))

/-! ## Role and index (17) -/

/-- SYS_ROLE: 0 worker, 1 relay, 2 manager, 3 standalone (Table 17-1). -/
def State.role (s : State) : Nat := s.fld SYS_ROLE.ROLE

/-- Whether this module has a manager above it (R302). -/
def State.hasManager (s : State) : Bool := decide (s.role < 2)

/-- The device index that event records carry (R334): 1023 before VALID. -/
def State.devIndex (s : State) : Nat := if s.flag SYS_DEVIDX.VALID then s.fld SYS_DEVIDX.INDEX else 1023

/-! ## Frames (17) -/

/-- The class of a frame type (Table 17-5): RSP for replies. -/
def frameIsRsp (ftype : Nat) : Bool := decide (ftype = 2 ∨ ftype = 3)

/-- Whether the port is in state ACTIVE. -/
def State.portActive (s : State) (p : Nat) : Bool := decide (s.fld (LNK_STATUS.STATE p) = 2)

/-- The credits that a port holds of a frame's class (R309). -/
def PortSt.cred (q : PortSt) (f : Frame) : Nat := if frameIsRsp f.ftype then q.credRsp else q.credReq

/-- A frame sent on a port, or kept at the turnstile while the port is not ACTIVE or holds no credit of the frame's
class, behind the waiting frames of that class only (R308, R309). -/
def State.sendFrame (s : State) (p : Nat) (f : Frame) : State :=
  let q := s.port p
  if s.portActive p ∧ 0 < q.cred f ∧ q.waiting.all (fun g => frameIsRsp g.ftype != frameIsRsp f.ftype) then
    let f := { f with seq := q.tx }
    let q := if frameIsRsp f.ftype then { q with credRsp := q.credRsp - 1 } else { q with credReq := q.credReq - 1 }
    s.setPort p { q with
      tx := (q.tx + 1) % 65536
      unacked := q.unacked ++ [⟨f, 0, s.time.toNat, s.time.toNat⟩]
      sent := q.sent ++ [.frame f] }
  else s.setPort p { q with waiting := q.waiting ++ [f] }

/-- The frames at a port's turnstile sent as far as its credits reach, in the order of each class; `n` bounds the frames. -/
def State.flushFrames (p : Nat) : Nat → State → State
  | 0, s => s
  | n + 1, s =>
    let q := s.port p
    match q.waiting.find? (fun f => decide (0 < q.cred f)) with
    | none => s
    | some f =>
      if s.portActive p then
        let s := (s.setPort p { q with waiting := [] }).sendFrame p f
        State.flushFrames p n (s.setPort p { s.port p with waiting := q.waiting.erase f })
      else s

/-- The port towards a device, if any (R303, R308): down to a child or a grandchild, or up. -/
def State.routeTo (s : State) (dest : Nat) : Option Nat :=
  let me := s.fld SYS_DEVIDX.INDEX
  if s.role = 2 then
    if 1 ≤ dest ∧ dest ≤ 16 then some dest
    else if 17 ≤ dest ∧ dest ≤ 272 then some ((dest - 17) / 16 + 1)
    else none
  else if s.role = 1 then
    if 1 ≤ me ∧ 17 + 16 * (me - 1) ≤ dest ∧ dest < 33 + 16 * (me - 1) then some (dest - (17 + 16 * (me - 1)) + 1)
    else some 0
  else if s.role = 0 then some 0
  else none

/-! ## Partitions (16) -/

/-- The byte address of partition i (Table 16-10). -/
def State.partBase (s : State) (i : Nat) : Nat := s.fld (MEM_DRAM_PART.BASE i) * 4096

/-- The lowest-numbered enabled partition of kind EVENT (R299, R335). -/
def State.eventPart (s : State) : Option Nat :=
  (List.range 16).find? (fun i => s.flag (MEM_DRAM_PART.EN i) && decide (s.fld (MEM_DRAM_PART.KIND i) = 7))

/-! ## Event journal (18) -/

/-- 1 µs in fines (R2). -/
def usFines : Nat := 6553600

/-- The unread count EVT_WR - EVT_RD (R335). -/
def State.unread (s : State) : Nat := (s.fld EVT_WR.COUNT + 2 ^ 32 - s.fld EVT_RD.COUNT) % 2 ^ 32

/-- The journal interrupt of R335, at most once per 1 µs; a suppressed one is raised at the end of the 1 µs. -/
def State.journalIrq (s : State) : State :=
  let lvl := s.fld EVT_CFG.IRQ_LEVEL
  if lvl = 0 ∨ s.unread < lvl then s
  else
    match s.evtIrq with
    | some t =>
      if s.past (t + usFines) = false then s.withEvtDefer true
      else (((s.raiseVec (s.fld EVT_CFG.VEC)).sysIrq 6).withEvtIrq (some s.time.toNat)).withEvtDefer false
    | none => (((s.raiseVec (s.fld EVT_CFG.VEC)).sysIrq 6).withEvtIrq (some s.time.toNat)).withEvtDefer false

/-- A record copied into the EVENT partition (R335), where DRAM can be reached: not in SAFE and not while shedding (R12). -/
def State.journalDram (s : State) (w : Nat) (r : EvtRec) : State :=
  match (if s.flag EVT_CFG.DRAM_EN ∧ s.mode ≠ .safe ∧ s.mode ≠ .off then s.eventPart else none) with
  | none => s
  | some i =>
    let slots := s.fld (MEM_DRAM_PART_SIZE.SIZE i) * 128
    if slots = 0 then s else s.dramPut (s.partBase i + 32 * (w % slots)) (wordBytes r)

/-- A record written into the journal ring (R335). -/
def State.journal (s : State) (r : EvtRec) : State :=
  let w := s.fld EVT_WR.COUNT
  let s := if 32768 ≤ s.unread then s.bump EVT_LOST.COUNT else s
  let s := s.poolPut (0xF00000 + 32 * (w % 32768)) (wordBytes r)
  let s := s.journalDram w r
  let s := s.put EVT_WR.COUNT ((w + 1) % 2 ^ 32)
  s.journalIrq

/-- Whether an event is of a persisted class (R86). -/
def evtPersisted (src code : Nat) : Bool :=
  decide ((src = 0 ∧ (code = 1 ∨ code = 2 ∨ code = 4)) ∨ (src = 2 ∧ (code = 1 ∨ code = 7)) ∨
    (src = 3 ∧ (code = 1 ∨ code = 4)) ∨ (src = 4 ∧ code = 1))

/-- Whether filters never apply to an event (R336). -/
def evtUnfiltered (src code : Nat) : Bool :=
  decide (src = 0 ∨ (src = 2 ∧ (code = 1 ∨ code = 7 ∨ code = 8)) ∨ (src = 4 ∧ code = 1)) || evtPersisted src code

/-- Whether an enabled filter matches (R336, Table 18-15). -/
def State.evtFiltered (s : State) (src code : Nat) : Bool :=
  !evtUnfiltered src code &&
    (List.range 8).any (fun i => s.flag (EVT_FILTER.EN i) && decide (s.fld (EVT_FILTER.SOURCE i) = src) &&
      (s.flag (EVT_FILTER.ALL_CODES i) || decide (s.fld (EVT_FILTER.CODE i) = code)))

/-- A persisted event joins those that wait for a page, and each seventh makes a page due; beyond 16 pages it is counted in
DROPPED (R86). -/
def State.persistEvt (s : State) (r : EvtRec) : State :=
  if s.persist.waiting.length < 112 then
    s.withPersist { s.persist with waiting := s.persist.waiting ++ [r], due := max s.persist.due ((s.persist.waiting.length + 1) / 7 * 7) }
  else s.withPersist { s.persist with dropped := min 65535 (s.persist.dropped + 1) }

/-- An event record (Table 18-8). -/
def State.evtRec (s : State) (t src code p4 p5 p6 p7 : Nat) : EvtRec :=
  [BitVec.ofNat 32 t, BitVec.ofNat 32 (t / 2 ^ 32),
   BitVec.ofNat 32 (s.devIndex * 2 ^ 22 + src * 2 ^ 16 + code), s.evtSeq,
   BitVec.ofNat 32 p4, BitVec.ofNat 32 p5, BitVec.ofNat 32 p6, BitVec.ofNat 32 p7]

/-- An event raised with timestamp `t`: numbered, filtered, journaled, persisted, forwarded to the manager
(R334-R336, R86). -/
def State.eventAt (s : State) (t src code : Nat) (p4 p5 p6 p7 : Nat := 0) : State :=
  let r := s.evtRec t src code p4 p5 p6 p7
  let f := s.evtFiltered src code
  let s := s.withEvtSeq (s.evtSeq + 1)
  if f then s
  else
    let s := s.journal r
    let s := if evtPersisted src code then s.persistEvt r else s
    if s.flag EVT_CFG.FWD ∧ s.hasManager then s.sendFrame 0 ⟨0, 0, 4, 0, s.devIndex % 512, r⟩ else s

/-- An event raised now. -/
def State.event (s : State) (src code : Nat) (p4 p5 p6 p7 : Nat := 0) : State :=
  s.eventAt s.time.toNat src code p4 p5 p6 p7

/-! ## Mode -/

/-- The mode changes: the event, the interrupt bits of Tables 18-2 and 18-10 (R27). -/
def State.setMode (s : State) (m : Mode) : State :=
  if s.mode = m then s
  else ((((s.withMode m)).event 0 3 m.code).sysIrq 2).bdIrq 2

/-- Whether the module offers its full service: IDLE, RUN or CAL. -/
def State.inService (s : State) : Bool :=
  match s.mode with
  | .idle | .run | .cal => true
  | _ => false

/-! ## ECC (16, R291) -/

/-- A corrected error: counted, its bit set, ECC_CE at most once per 1 ms. -/
def State.eccCe (s : State) (dram : Bool) : State :=
  let s := s.bump MEM_ECC_STATUS.CE_CNT
  let s := if dram then s.put MEM_ECC_STATUS.CE_DRAM 1 else s.put MEM_ECC_STATUS.CE_SRAM 1
  let due : Bool := match s.eccTime with
    | none => true
    | some t => decide (6553600000 ≤ elapsed 64 s.time.toNat t)
  if due then (s.event 8 1).withEccTime (some s.time.toNat) else s

/-- An uncorrectable error in memory `id` of Table 16-2 at a byte address: counted, its bit set, ECC_UE. -/
def State.eccUe (s : State) (id addr : Nat) : State :=
  let s := s.bump MEM_ECC_STATUS.UE_CNT
  let s := if id = 4 then s.put MEM_ECC_STATUS.UE_DRAM 1 else s.put MEM_ECC_STATUS.UE_SRAM 1
  s.event 8 2 id 0 (addr % 2 ^ 32) (addr / 2 ^ 32)

/-- The word with the error within `n` bytes from `a`: a free one of them. -/
def State.eccWord (s : State) (a n : Nat) : Nat := (a + s.free.toNat % max 1 n) / 8 * 8

/-- What the ECC finds on a read of SRAM array `id` within `n` bytes from `a`. -/
def State.sramEcc (s : State) (id a n : Nat) (ecc : Ecc) : State :=
  match ecc with
  | .clean => s
  | .ce => s.eccCe false
  | .ue => s.takeFree.eccUe id (s.eccWord a n)

/-- What the ECC finds on a DRAM read by the host or by DMA (Table 16-2). -/
def State.dramEcc (s : State) (a n : Nat) (ecc : Ecc) : State :=
  match ecc with
  | .clean => s
  | .ce => s.eccCe true
  | .ue => s.takeFree.eccUe 4 (s.eccWord a n)

end Sys2Proof.Machine
end

