-- ==== Sys2Proof/Machine/Flags.lean ====
section
/-! DEFINITION. What the module's parts conclude from the state: which act owns a block, which ring a channel belongs
to, which acts execute, which parks are forced, and the output stage of a channel (06, R91). -/

namespace Sys2Proof.Machine

/-! ## Acts, blocks and rings -/

/-- SEQ_STATUS.STATE of an act (Table 8-1). -/
def State.actState (s : State) (n : Nat) : Nat := s.fld (SEQ_STATUS.STATE n)

/-- Whether an act is executing: ARMING, ARMED, RUNNING or STOPPING (R133). -/
def State.executing (s : State) (n : Nat) : Bool := decide (1 ≤ s.actState n ∧ s.actState n ≤ 4)

/-- Whether an act is RUNNING or STOPPING. -/
def State.running (s : State) (n : Nat) : Bool := decide (s.actState n = 3 ∨ s.actState n = 4)

/-- The numbers of the sixteen acts. -/
def actNums : List Nat := List.range 16

/-- Whether any act is executing. -/
def State.anyExecuting (s : State) : Bool := actNums.any s.executing

/-- The act that owns a channel block (R132). -/
def State.actOfBlock (s : State) (b : Nat) : Option Nat :=
  actNums.find? (fun n => bitOf (s.fld (SEQ_CB_MASK.MASK n)) b)

/-- The act that owns a channel. -/
def State.actOfChan (s : State) (c : Nat) : Option Nat := s.actOfBlock (c / 64)

/-- The blocks of an act in ascending order. -/
def State.actBlocks (s : State) (n : Nat) : List Nat := bitList (s.fld (SEQ_CB_MASK.MASK n)) 16 0

/-- The 64 channels of a block. -/
def blockChans (b : Nat) : List Nat := (List.range 64).map (fun i => 64 * b + i)

/-- The channels of an act in ascending order. -/
def State.actChans (s : State) (n : Nat) : List Nat := (s.actBlocks n).flatMap blockChans

/-- Whether a channel is a member of a ring (R181). -/
def State.inRing (s : State) (g c : Nat) : Bool := bitOf (s.fld (FAIL_RING_CH.MEMBERS g (c / 32))) (c % 32)

/-- The ring a channel is a member of. -/
def State.ringOf (s : State) (c : Nat) : Option Nat := (List.range 64).find? (fun g => s.inRing g c)

/-- The members of a ring in ascending channel order. -/
def State.ringChans (s : State) (g : Nat) : List Nat :=
  (List.range 32).flatMap (fun i => (bitList (s.fld (FAIL_RING_CH.MEMBERS g i)) 32 0).map (fun j => 32 * i + j))

/-- The act of a ring: the act that owns the blocks of all its members (R181). -/
def State.ringAct (s : State) (g : Nat) : Option Nat :=
  match s.ringChans g with
  | [] => none
  | c :: cs =>
    match s.actOfChan c with
    | some n => if cs.all (fun c' => s.actOfChan c' = some n) then some n else none
    | none => none

/-- Whether the act of a channel's block executes. -/
def State.chanExecuting (s : State) (c : Nat) : Bool :=
  match s.actOfChan c with
  | some n => s.executing n
  | none => false

/-- A time on the copy of the count that a die keeps (R24). -/
def State.dieTime (s : State) (d t : Nat) : Nat := (((t : Int) + (s.die d).clock.getD 0) % 2 ^ 64).toNat

/-- An event of a channel, dated by its die's copy of the count (R24), with the channel's DIB pin id (R334). -/
def State.pinEvent (s : State) (c code w4 : Nat) : State :=
  s.eventAt (s.dieTime (c / 64) s.time.toNat) 33 code w4 (s.chan c).dib

/-- The half an act executes from (R137). -/
def State.execHalf (s : State) (n : Nat) : Nat := s.fld (SEQ_STATUS.EXEC_HALF n)

/-- Whether half `h` of bank `n` counts as executing (R137, R138, R175). -/
def State.halfExecuting (s : State) (n h : Nat) : Bool :=
  s.executing n && (decide (s.execHalf n = h) || (decide (0 < (s.act n).swapFollowed) && decide (s.execHalf n ≠ h)))

/-! ## Parks and the output stage (06, Table 6-2) -/

/-- Whether a park is forced on a channel (R91 order 5). -/
def State.forcedPark (s : State) (c : Nat) : Bool :=
  !s.pins.parkN || (s.chan c).ringPark ||
    (match s.actOfChan c with
     | some n => bitOf (s.fld SYS_PARK.ACTS) n || ((s.act n).aborted && s.executing n)
     | none => false)

/-- Whether the park line is asserted for an act in any other case (R91 order 7, R133). -/
def State.parkLine (s : State) (n : Nat) : Bool := decide (s.actState n < 3) || (s.act n).endL.isSome

/-- Whether an edge of an act's vector that is due at time `t` is not placed, because its park line is asserted before it:
the park follows the end of L, and what is due at that end is still placed (R130, R133, R150). -/
def State.cutAt (s : State) (n t : Nat) : Bool :=
  decide (s.actState n < 3) || (match (s.act n).endL with | some e => after t e | none => false)

/-- The states of Table 6-1; a drive at HIGH or LOW of a level set. -/
inductive Stage where
  | drive (high : Bool) (set : Nat)
  | term | hiz | ppmu | calbus
deriving DecidableEq, Repr

/-- TERM, or HIZ where the termination is never connected (R97). -/
def State.termStage (s : State) (c : Nat) : Stage := if s.flag (PIN_CFG.TERM_EN c) then .term else .hiz

/-- The park state of a channel (R79, R91 order 5). -/
def State.parkStage (s : State) (c : Nat) : Stage :=
  match (s.chan c).park with
  | 1 => s.termStage c
  | 2 => .drive false 0
  | 3 => .drive true 0
  | _ => .hiz

/-- Whether the channels are high-impedance for the mode (R91 order 2). -/
def State.modeHiz (s : State) : Bool :=
  match s.mode with
  | .off | .safe => true
  | .boot => decide (s.fld SYS_MODE.BOOT_STEP < 8) || s.shed.isSome
  | _ => s.shed.isSome

/-- Whether a monitor or a drive check disables the channel (R91 order 4), or has and the next vector boundary is still to
come (R104, R277). -/
def State.disabled (s : State) (c : Nat) : Bool :=
  s.flag (PIN_STATUS.MON_DIS c) || s.flag (PIN_STATUS.DCHK_DIS c) || ((s.chan c).rejoin && s.chanExecuting c)

/-- Whether R91 order 7 decides the channel, or its first vector has not reached it (R133). -/
def State.atParkLine (s : State) (c : Nat) : Bool :=
  match s.actOfChan c with
  | some n => s.parkLine n || !(s.chan c).started
  | none => true

/-- The level set a channel uses (R93, R94). -/
def State.levelSet (s : State) (c : Nat) : Nat :=
  if s.flag (PIN_CFG.LVL_STATIC c) then 0 else s.fld (PIN_STATUS.LSET_NOW c)

/-- What the vector symbols direct (R91 order 8). -/
def State.directed (s : State) (c : Nat) : Stage :=
  if (s.chan c).driving then .drive (s.chan c).p (s.levelSet c) else s.termStage c

/-- The output stage of a channel: the highest entry of Table 6-2 decides (R90, R91). -/
def State.stage (s : State) (c : Nat) : Stage :=
  if s.flag (PIN_CFG.UNUSED c) then .hiz
  else if s.modeHiz then .hiz
  else if s.mode = .cal then .calbus
  else if s.disabled c then .hiz
  else if s.forcedPark c then s.parkStage c
  else if s.flag (PIN_PPMU_CFG.CONNECT c) then .ppmu
  else if s.atParkLine c then s.parkStage c
  else s.directed c

/-- Whether a channel is at park state by R91 order 5 or 7 (PIN_STATUS.PARKED). -/
def State.parked (s : State) (c : Nat) : Bool :=
  !s.flag (PIN_CFG.UNUSED c) && !s.modeHiz && decide (s.mode ≠ .cal) && !s.disabled c &&
    (s.forcedPark c || (!s.flag (PIN_PPMU_CFG.CONNECT c) && s.atParkLine c))

/-! ## SREF outputs (15) -/

/-- Whether a global clear cause is active (R283). -/
def State.clrActive (s : State) : Bool :=
  decide (s.mode ≠ .off) && (!s.pins.clrN || decide (s.mode = .safe)) || s.shed.isSome

/-- Timing set period (R118, Tables 7-10 and 7-11), in fines. -/
def State.period (s : State) (n t : Nat) : Nat :=
  s.fld (TMG_PERIOD_LO.PERIOD_LO n t) + 2 ^ 32 * s.fld (TMG_PERIOD_HI.PERIOD_HI n t)

/-- Whether an act runs in timed mode (R114). -/
def State.timed (s : State) (n : Nat) : Bool := s.flag (TMG_MODE.MODE n)

/-- ROOT_MHZ, never 0 here: a stored 0 counts as 1. -/
def State.rootMhz (s : State) : Nat := max 1 (s.fld CLK_ROOT_CFG.ROOT_MHZ)

/-- UI per vector of an act (R141, Table 7-1). -/
def State.uis (s : State) (n : Nat) : Nat :=
  if s.timed n then 1 else 2 ^ (3 - s.fld (TMG_MODE.K n))

/-- Vector-clock cycles per serial vector (Table 7-1). -/
def State.serialCycles (s : State) (n : Nat) : Nat := max 1 (2 ^ (s.fld (TMG_MODE.K n) - 3))

/-- Time in fines of `m` vector-clock cycles: 16 root periods each (Table 4-1; a fine is 1/65,536 of 10 ns), to a whole
fine below (DESIGN CHOICE, notes/assumptions/25.md). -/
def State.cyclesFines (s : State) (m : Nat) : Nat := m * 4096 * 25600 / s.rootMhz

/-- One vector-clock cycle rounded up to a whole fine (R118, R153). -/
def State.cyc (s : State) : Nat := (4096 * 25600 + s.rootMhz - 1) / s.rootMhz

/-- Time of `m` eighths of a vector-clock cycle (one UI at k = 0), in fines. -/
def State.uiFines (s : State) (k m : Nat) : Nat := m * 2 ^ k * 512 * 25600 / s.rootMhz

end Sys2Proof.Machine
end

