-- ==== Sys2Proof/Machine/Analog.lean ====
section
/-! DEFINITION. Codes and voltages (06, R92, R97, R98, R106, R110-R112; 14, R253; 15, R276, R278, R282). A programmed voltage
is a whole number of 1/65,536 microvolt, in which every step of the manual's codings is whole. -/

namespace Sys2Proof.Machine

/-- A number of microvolts in 1/65,536 microvolt. -/
def uV (v : Int) : Int := 65536 * v

/-- V of a driver level code (R92). -/
def levelV (code : Nat) : Int := uV (-1500000) + 28000000 * code

/-- V of a PIN_VTT code (R97). -/
def vttV (code : Nat) : Int := uV (-1500000) + 7000000 * code

/-- V of a threshold code (R98). -/
def thrV (code : Nat) : Int := uV (-1500000) + 7500000 * code

/-- V of a window monitor code (Table 15-3). -/
def monV (code : Nat) : Int := uV (-2000000) + 576000000 * code

/-- V of a SENSE limit code (R278). -/
def senseV (code : Nat) : Int := uV (-1000000) + 8000000 * code

/-- V of an SREF output code (R282). -/
def srefV (code : Nat) : Int := 5000000 * code

/-- V that the PPMU forces for a code in FVMI (Table 6-6). -/
def forceV (code : Nat) : Int := uV (-2000000) + 9000000 * code

/-- V of a PPMU clamp code (R106). -/
def clampV (code : Nat) : Int := uV (-2000000) + 2304000000 * code

/-- r of a PPMU current range in nA (R106). -/
def rangeNa (irange : Nat) : Nat := 2000 * 4 ^ irange

/-- The current that the PPMU forces for a code in FIMV, in r / 2^21 (Table 6-6). -/
def forceI (code : Nat) : Int := 64 * signed 16 code

/-! ## DACs of a channel -/

/-- The DACs of a channel (R92, R97, R98, Table 15-3). -/
inductive ChanDac where
  | hi (k : Nat) | lo (k : Nat) | vtt | thrH | thrL | monLo | monHi
deriving DecidableEq, Repr

/-- The DAC that MEAS_SEL and RB_SET name (Table 6-16). -/
def ChanDac.ofSel (sel set : Nat) : Option ChanDac :=
  match sel with
  | 2 => some (.hi set) | 3 => some (.lo set) | 4 => some .vtt | 5 => some .thrH | 6 => some .thrL
  | 7 => some .monLo | 8 => some .monHi | _ => none

/-- The code field of a DAC of channel c. -/
def ChanDac.field (c : Nat) : ChanDac → Field
  | .hi k => PIN_LVL_HI.CODE c k
  | .lo k => PIN_LVL_LO.CODE c k
  | .vtt => PIN_VTT.CODE c
  | .thrH => PIN_THR_H.CODE c
  | .thrL => PIN_THR_L.CODE c
  | .monLo => PIN_MON_WIN.LO c
  | .monHi => PIN_MON_WIN.HI c

/-- The voltage that a code of a DAC programs. -/
def ChanDac.volts (code : Nat) : ChanDac → Int
  | .hi _ | .lo _ => levelV code
  | .vtt => vttV code
  | .thrH | .thrL => thrV code
  | .monLo | .monHi => monV code

/-- LSB of R253 in 1/65,536 microvolt, and the highest code. -/
def ChanDac.lsb : ChanDac → Nat
  | .hi _ | .lo _ => 28000000 | .vtt => 7000000 | .thrH | .thrL => 7500000 | .monLo | .monHi => 576000000
def ChanDac.top : ChanDac → Nat
  | .hi _ | .lo _ => 16383 | .vtt | .thrH | .thrL => 65535 | .monLo | .monHi => 1023

/-- The place of a DAC in CAL_DAC (Table 14-4). -/
def ChanDac.idx : ChanDac → Nat
  | .hi _ => 0 | .lo _ => 1 | .vtt => 2 | .thrH => 3 | .thrL => 4 | .monLo => 5 | .monHi => 6

/-- C of R253: the comparator offset for a threshold, 0 for every other DAC. -/
def ChanDac.offsetC (k : Coef) : ChanDac → Int
  | .thrH => k.ofsH
  | .thrL => k.ofsL
  | _ => 0

/-- code′ of R253, from the terms of a bank: rounded to the nearest, halves up (DESIGN CHOICE, notes/assumptions/25.md), and
clamped to the DAC's range. -/
def Coef.corrected (k : Coef) (d : ChanDac) (code : Nat) : Nat :=
  let pr := k.dac.getD d.idx (0, 0)
  let num := ((code : Int) * d.lsb + uV (pr.2 - d.offsetC k)) * (1000000 + pr.1)
  let den : Int := d.lsb * 1000000
  min d.top ((2 * num + den) / (2 * den)).toNat

/-- The code that reaches a DAC of a channel: through its active coefficient bank (R92, R97, R98, R253); in CAL a test code
of the engine, which the manual leaves open: a free value (R267). -/
def State.dacInput (s : State) (c : Nat) (d : ChanDac) : Nat :=
  if s.mode = .cal then min d.top s.free.toNat else (s.chan c).active.corrected d (s.fld (d.field c))

/-- The voltage that a DAC of a channel is programmed to, which is what it gives after calibration (R92). -/
def State.dacV (s : State) (c : Nat) (d : ChanDac) : Int := d.volts (s.fld (d.field c))

/-- What stands behind a pin: a voltage in 1/65,536 microvolt, a current in 1/2^21 nA, or nothing. -/
inductive PinSource where
  | volts (v : Int) | amps (i : Int) | open_
deriving DecidableEq, Repr

/-- What the PPMU forces: the voltage of FVMI or the current of FIMV in its range r (R106, Table 6-6); nothing while MEAS_SEL
selects the pin voltage with the PPMU not forcing (Table 6-16). -/
def State.ppmuForces (s : State) (c : Nat) : PinSource :=
  let code := s.fld (PIN_PPMU_FORCE.FORCE c)
  if s.fld (PIN_PPMU_CFG.MEAS_SEL c) = 1 then .open_
  else if s.flag (PIN_PPMU_CFG.MODE c) then .amps (forceI code * rangeNa (s.fld (PIN_PPMU_CFG.IRANGE c)))
  else .volts (forceV code)

/-- The source behind the pin of a channel: a level while it drives, VTT while it is terminated (R90, R92, R97), what its PPMU
forces; none in the other states. -/
def State.source (s : State) (c : Nat) : PinSource :=
  match s.stage c with
  | .drive true k => .volts (s.dacV c (.hi k))
  | .drive false k => .volts (s.dacV c (.lo k))
  | .term => .volts (s.dacV c .vtt)
  | .ppmu => s.ppmuForces c
  | _ => .open_

/-- The voltage of an SREF output: its code's, once the apply step has enabled the outputs, in SAFE and through the whole
shedding sequence; 0 V before and in OFF (R12, R28, R42, R81, R282). -/
def State.srefOut (s : State) (m : Nat) : Int :=
  if s.mode = .safe ∨ s.shed.isSome ∨ (8 ≤ s.fld SYS_MODE.BOOT_STEP ∧ s.mode ≠ .off) then srefV (s.fld (MON_SREF_CODE.CODE m)) else 0

/-! ## Readbacks (R110-R112, Table 6-7) -/

/-- Whether a measured voltage (microvolts) lies within `mv` millivolts plus `pm` per mille of the programmed voltage. -/
def within (mv pm : Nat) (v : Int) (uv : Int) : Bool := decide (|uV uv - v| * 1000 ≤ uV (mv * 1000000) + |v| * pm)

/-- Table 6-7 for a DAC of a channel. -/
def ChanDac.within (v uv : Int) : ChanDac → Bool
  | .hi _ | .lo _ | .vtt => Machine.within 15 5 v uv
  | .thrH | .thrL => Machine.within 10 3 v uv
  | .monLo | .monHi => Machine.within 25 10 v uv

/-- Whether a readback of a DAC of a channel, in microvolts, is within Table 6-7. -/
def State.dacOk (s : State) (c : Nat) (d : ChanDac) (uv : Int) : Bool := d.within (s.dacV c d) uv

/-- The same for a SENSE limit, and for an SREF output. -/
def State.senseOk (s : State) (m : Nat) (high : Bool) (uv : Int) : Bool :=
  within 10 3 (senseV (if high then s.fld (MON_SENSE_HI.CODE m) else s.fld (MON_SENSE_LO.CODE m))) uv
def State.srefOk (s : State) (m : Nat) (uv : Int) : Bool := within 5 2 (srefV (s.fld (MON_SREF_CODE.CODE m))) uv

/-! ## Monitors (R276, R278) -/

/-- The side on which a voltage (microvolts) violates a window: true is high; none inside. -/
def sideOf (lo hi : Int) (uv : Int) : Option Bool :=
  if uV uv < lo then some false else if hi < uV uv then some true else none

/-- The side of a violation of a channel's window monitor (R276). -/
def State.pinSide (s : State) (c : Nat) (uv : Int) : Option Bool := sideOf (s.dacV c .monLo) (s.dacV c .monHi) uv

/-- The side of a violation of a SENSE monitor (R278). -/
def State.senseSide (s : State) (m : Nat) (uv : Int) : Option Bool :=
  sideOf (senseV (s.fld (MON_SENSE_LO.CODE m))) (senseV (s.fld (MON_SENSE_HI.CODE m))) uv

/-! ## The main converter of a die (R109) -/

/-- Half a microsecond, the time of one conversion, in fines. -/
def convFines : Nat := 3276800

/-- Whether one request comes before another that was made before it: by arrival at the converter; channels that arrive
together come in channel order (R107, R109). -/
def askBefore (x y : Nat × Nat) : Bool := decide (since 64 x.1 y.1 < 0 ∨ (x.1 = y.1 ∧ x.2 < y.2 ∧ y.2 < 64))

/-- The first of the requests that wait. -/
def firstAsk : List (Nat × Nat) → Option (Nat × Nat)
  | [] => none
  | x :: xs => some (xs.foldl (fun b y => if askBefore y b then y else b) x)

/-- A request joins those that wait for die d's converter, in place of one for the same thing. -/
def State.ask (s : State) (d t what : Nat) : State :=
  s.setDie d { s.die d with asks := (s.die d).asks.filter (fun x => decide (x.2 ≠ what)) ++ [(t, what)] }

/-- A request that waits no longer. -/
def State.unask (s : State) (d what : Nat) : State :=
  s.setDie d { s.die d with asks := (s.die d).asks.filter (fun x => decide (x.2 ≠ what)) }

/-- Whether a live pass holds a request back (R108). -/
def State.askHeld (s : State) (d : Nat) (x : Nat × Nat) : Bool := decide (x.2 < 64) && s.flag (PIN_STATUS.STALE (64 * d + x.2))

/-- Whether a live pass of die d reads back through the converter: the source levels of THRESH, the DACs of DAC (R260, R261). -/
def State.passReads (s : State) (d : Nat) : Bool :=
  match (s.die d).pass with
  | some p => bitOf p.groups 2 || bitOf p.groups 3
  | none => false

/-- Whether a request of the calibration engine, which comes first, waits at die d's converter. When a pass makes its readbacks
the manual does not say: while one that has any is in progress it is a free value (R109; DESIGN CHOICE,
notes/assumptions/46.md). -/
def State.engineAsks (s : State) (d : Nat) : Bool := s.passReads d && decide (s.free.toNat % 2 = 1)

/-- The free value of `engineAsks` taken. -/
def State.engineTurn (s : State) (d : Nat) : State := if s.passReads d then s.takeFree else s

/-- When the request that is next at die d's converter arrived, if it is `what` (R109). -/
def State.asked (s : State) (d what : Nat) : Option Nat :=
  match firstAsk ((s.die d).asks.filter (fun x => !s.askHeld d x)) with
  | some x => if x.2 = what ∧ s.engineAsks d = false then some x.1 else none
  | none => none

/-- Whether the converter of die d is free for a background readback: the calibration engine takes it for none and no host
request has arrived (R109, R112). -/
def State.convFree (s : State) (d : Nat) : Bool :=
  !s.engineAsks d && !(s.die d).asks.any (fun x => !s.askHeld d x && s.past x.1)

end Sys2Proof.Machine
end

