-- ==== Sys2Proof/Machine/Free.lean ====
section
/-! DEFINITION. Host errors (00, R6, R9, R10; 18, Table 18-11): the module does not check them and goes on; the results,
state and outputs of the act or block concerned are then any at all, and nothing else is touched (DESIGN CHOICE,
notes/assumptions/9.md). -/

namespace Sys2Proof

/-- Any state at all, from which the act or block that a host error concerns takes its own part; none leaves that part as it
is (DESIGN CHOICE, notes/assumptions/9.md). -/
opaque Config.anyState : Nat → Option Machine.State

end Sys2Proof

namespace Sys2Proof.Machine

/-- The state that comes next to take free parts from. -/
def State.anyState (s : State) : State := (Config.anyState s.freeCtr).getD s

/-! ## Areas of a ring in DRAM (R187, R190, R191) -/

/-- B: the sum of the address widths (R190). -/
def State.mapBits (s : State) (g : Nat) : Nat :=
  s.fld (FAIL_BITMAP_CFG.XBITS g) + s.fld (FAIL_BITMAP_CFG.YBITS g) + s.fld (FAIL_BITMAP_CFG.ZBITS g) + s.fld (FAIL_BITMAP_CFG.DBITS g)

/-- The DRAM address of a ring's bitmap, and the bytes of each of its tile maps (R190, R191). -/
def State.mapBase (s : State) (g : Nat) : Nat := s.fld (FAIL_BITMAP_BASE.BASE g) * 4096
def State.tileMapBytes (s : State) (g : Nat) : Nat := max 1 (2 ^ s.mapBits g / 32768)

/-- Bytes of one mask of a ring's fail log (R187). -/
def State.maskBytes (s : State) (g : Nat) : Nat := ((s.ring g).members * (s.ring g).uis + 255) / 256 * 32

/-- The log, the masks and the bitmap with its tile maps, as address and length. -/
def State.ringAreas (s : State) (g : Nat) : List (Nat × Nat) :=
  [(s.fld (FAIL_LOG_BASE.BASE g) * 4096, 32 * s.fld (FAIL_LOG_SIZE.SIZE g)),
   (if s.flag (FAIL_LOG_POLICY.MASK_EN g) then (s.fld (FAIL_MASK_BASE.BASE g) * 4096, s.fld (FAIL_LOG_SIZE.SIZE g) * s.maskBytes g)
    else (0, 0)),
   (s.mapBase g, 2 ^ s.mapBits g / 8 + 2 * s.tileMapBytes g)]

/-- Whether an area of a structure of one kind of Table 16-3 leaves DRAM or lies across an enabled partition of another kind,
which is a host error (R143, R301). -/
def State.misplaced (s : State) (kind base len : Nat) : Bool :=
  decide (137438953472 < base + len) ||
    (List.range 16).any (fun i =>
      s.flag (MEM_DRAM_PART.EN i) && decide (s.fld (MEM_DRAM_PART.KIND i) ≠ kind) &&
        decide (0 < len ∧ base < s.partBase i + s.fld (MEM_DRAM_PART_SIZE.SIZE i) * 4096 ∧ s.partBase i < base + len))

/-- Whether an address lies in one of the areas of a list. -/
def inAreas (as : List (Nat × Nat)) (a : Nat) : Bool := as.any (fun x => decide (x.1 ≤ a ∧ a < x.1 + x.2))

/-! ## Parts taken from another state -/

/-- A word with the bits of a mask taken from another. -/
def mixWord (m a b : Nat) : Nat := (a &&& (0xFFFFFFFF - m)) ||| (b &&& m)

/-- The registers with the bits that `m` gives each address taken from another state. -/
def State.mixRegs (s t : State) (m : Nat → Nat) : State :=
  State.each (fun a s => s.setReg a (BitVec.ofNat 32 (mixWord (m a) (s.reg a).toNat (t.reg a).toNat)))
    (s.regs.map Prod.fst ++ t.regs.map Prod.fst) s

/-- DRAM with the bytes of some addresses taken from another state. -/
def State.mixDram (s t : State) (own : Nat → Bool) : State :=
  State.each (fun a s => if own a then s.dramPut a [t.dramAt a] else s) (s.dram.map Prod.fst ++ t.dram.map Prod.fst) s

/-- The private banks, in the same way. -/
def State.mixBanks (s t : State) (own : Nat → Bool) : State :=
  State.each (fun a s => if own a then s.bankPut a [t.bankAt a] else s) (s.banks.map Prod.fst ++ t.banks.map Prod.fst) s

/-- An area of DRAM that a host error leaves free (R9). -/
def State.freeArea (s : State) (x : Nat × Nat) : State := s.takeFree.mixDram s.anyState (inAreas [x])

/-! ## What each act or block owns -/

/-- The bits of a channel's register that a host error leaves free: not what bounds the drive, protects, or belongs to the
calibration engine (R9). -/
def pinOwn (r : RegRow) : Nat :=
  match r.base with
  | 0x400000 | 0x400100 | 0x400104 | 0x400180 | 0x400400 | 0x400404 | 0x400500 => 0
  | 0x400700 | 0x400704 | 0x400708 | 0x40070C | 0x400710 | 0x400714 | 0x400718 => 0
  | 0x400004 => 0xFFFFF330
  | _ => r.named

/-- The bits of a ring's register that a host error leaves free: not the membership, and not the actions, which reach other
acts. -/
def ringOwn (r : RegRow) : Nat :=
  match r.base with
  | 0x800000 | 0x800100 => 0
  | _ => r.named

/-- The bits of an act's register that a host error leaves free: not its blocks, and not its STATE. -/
def seqOwn (r : RegRow) : Nat :=
  match r.base with
  | 0x100004 => 0xFFFF0D80
  | 0x100020 => 0
  | _ => r.named

/-- The register bits of an act: its SEQ, APG and TMG registers, its channels, its rings. -/
def State.actBits (s : State) (n a : Nat) : Nat :=
  match regAt a with
  | none => 0
  | some (r, ix) =>
    let i := ix.getD 0 0
    if r.base < 0x100000 then 0
    else if r.base < 0x400000 then (if i = n then seqOwn r else 0)
    else if r.base < 0x800000 then (if s.actOfChan i = some n then pinOwn r else 0)
    else if s.ringAct i = some n then ringOwn r else 0

/-- The register bits of one instance of a block with registers from `lo` on below `hi`. -/
def instBits (own : RegRow → Nat) (lo hi i a : Nat) : Nat :=
  match regAt a with
  | none => 0
  | some (r, ix) => if lo ≤ r.base ∧ r.base < hi ∧ ix.getD 0 0 = i then own r else 0

/-- A channel's hidden state that a host error leaves free: all but parks, with whether vector 0 has ended the one before it,
calibration and protection. -/
def ChanSt.mix (x y : ChanSt) : ChanSt :=
  { y with park := x.park, dib := x.dib, ringPark := x.ringPark, meas := x.meas, active := x.active, staged := x.staged
           rejRun := x.rejRun, lastPass := x.lastPass, rejoin := x.rejoin, started := x.started }

/-- An act's hidden state that a host error leaves free: all but its starts, aborts and its end at the pins, which parks
them, and the vectors on their way, whose results are free. -/
def ActSt.mix (x y : ActSt) : ActSt :=
  { y with armedBy := x.armedBy, checked := x.checked, held := x.held, queued := x.queued, show_ := x.show_
           aborted := x.aborted, loaded := x.loaded, lastVec := x.lastVec, endL := x.endL
           line := x.line.map (fun f => { f with res := (y.line.head?.elim f.res (·.res)) }) }

/-! ## What a host error does (R9, R10) -/

/-- The act concerned: its sequencer, its channels, its rings with their areas in DRAM. -/
def State.disturbAct (n : Nat) (s : State) : State :=
  let t := s.anyState
  let areas := ((List.range 64).filter (fun g => decide (s.ringAct g = some n))).flatMap s.ringAreas
  let rings := (List.range 64).filter (fun g => decide (s.ringAct g = some n))
  let chans := s.actChans n
  let s := (s.takeFree.mixRegs t (s.actBits n)).mixDram t (inAreas areas)
  let s := s.setAct n ((s.act n).mix (t.act n))
  let s := State.each (fun c s => s.setChan c ((s.chan c).mix (t.chan c))) chans s
  State.each (fun g s => s.setRing g (t.ring g)) rings s

/-- A channel concerned, with its act while that executes. -/
def State.disturbChan (c : Nat) (s : State) : State :=
  let t := s.anyState
  let u := (s.takeFree.mixRegs t (instBits pinOwn 0x400000 0x800000 c)).setChan c ((s.chan c).mix (t.chan c))
  match s.actOfChan c with
  | some n => if s.executing n then u.disturbAct n else u
  | none => u

/-- A ring concerned, with its act while that executes. -/
def State.disturbRing (g : Nat) (s : State) : State :=
  let t := s.anyState
  let u := ((s.takeFree.mixRegs t (instBits ringOwn 0x800000 0x900000 g)).mixDram t (inAreas (s.ringAreas g))).setRing g (t.ring g)
  match s.ringAct g with
  | some n => if s.executing n then u.disturbAct n else u
  | none => u

/-- A trigger unit concerned. -/
def State.disturbTrig (k : Nat) (s : State) : State :=
  let t := s.anyState
  (s.takeFree.mixRegs t (fun a => instBits RegRow.named 0xC0000 0xC2000 k a ||| instBits RegRow.named 0xC4000 0xD0000 k a)).setTrig k
    (t.trig k)

/-- A stream concerned, with its ring in DRAM. -/
def State.disturbStream (i : Nat) (s : State) : State :=
  let t := s.anyState
  let base := s.fld (ACQ_STREAM_DRAM_BASE.VALUE i) * 4096
  let size := s.fld (ACQ_STREAM_DRAM_SIZE.VALUE i) * 4096
  ((s.takeFree.mixRegs t (instBits RegRow.named 0xC2000 0xC4000 i)).mixDram t (inAreas [(base, size)])).setStream i (t.stream i)

/-- A command queue concerned. -/
def State.disturbQueue (q : Nat) (s : State) : State :=
  let t := s.anyState
  (s.takeFree.mixRegs t (instBits RegRow.named 0x60000 0x60800 q)).setQueue q (t.queue q)

/-- A show concerned, as this module keeps it. -/
def State.disturbShow (sh : Nat) (s : State) : State :=
  let t := s.anyState
  (s.takeFree.mixRegs t (instBits RegRow.named 0x74000 0x80000 sh)).setShow sh (t.show_ sh)

/-- The region queues of a ring concerned: its status, its descriptors and their entries. -/
def State.disturbQueues (g : Nat) (s : State) : State :=
  let t := s.anyState
  let q := s.fld (RQ_MAP_CFG.CHUNK_BASE g) * 4096
  let n := s.fld (RQ_MAP_CFG.CHUNK_CNT g) * 4096
  let s := (s.takeFree.mixRegs t (instBits RegRow.named 0xB0110 0xC0000 g)).mixDram t (inAreas [(s.partBase 0 + 512 * q, 512 * n)])
  let mine := t.rq.descs.filter (fun e => decide (q ≤ e.1 ∧ e.1 < q + n))
  s.withRq { s.rq with descs := mine.foldl (fun d e => Tab.set (fun _ => {}) d e.1 e.2) (Tab.clearRange s.rq.descs q n) }

/-- The registers of a module-wide block that no act and no protection hangs on: the counters and status words of MEM, link
statistics, and the registers of the repair analyzer that no ring owns. -/
def wideOwn (r : RegRow) : Nat :=
  match r.base with
  | 0x70004 | 0x80008 | 0x8000C | 0xB000C | 0xB0010 | 0xB0020 | 0xB0024 | 0xB0028 | 0xB002C => r.named
  | _ => 0

/-- What a host error at a register does to the act or block of that register. Blocks that all acts, the protection or the
life cycle hang on (SYS, CLK, PWR, NVM, LC, EVT, MON) keep their state (R9). -/
def State.disturbAt (s : State) (a : Nat) : State :=
  match regAt a with
  | none => s
  | some (r, ix) =>
    let i := ix.getD 0 0
    if 0x60000 ≤ r.base ∧ r.base < 0x60800 then s.disturbQueue i
    else if 0x74000 ≤ r.base ∧ r.base < 0x80000 then s.disturbShow i
    else if 0xB0100 ≤ r.base ∧ r.base < 0xC0000 then s.disturbQueues i
    else if 0xC0000 ≤ r.base ∧ r.base < 0xD0000 then
      (if 0xC2000 ≤ r.base ∧ r.base < 0xC4000 then s.disturbStream i else s.disturbTrig i)
    else if 0x100000 ≤ r.base ∧ r.base < 0x400000 then s.disturbAct i
    else if 0x400000 ≤ r.base ∧ r.base < 0x800000 then s.disturbChan i
    else if 0x800000 ≤ r.base then s.disturbRing i
    else s.takeFree.mixRegs s.anyState (fun b => if b = a then wideOwn r else 0)

/-- A register write that is a host error: it has its effect `k` or has none, and the block concerned is left free. The
life-cycle registers take none (R9). -/
def State.errWrite (s : State) (a : Nat) (k : State → State) : State :=
  let t := s.takeFree
  (if s.free.toNat % 2 = 1 ∧ ¬ (0x40000 ≤ a ∧ a < 0x50000) then k t else t).disturbAt a

/-- A field of a module-wide register free after a host error in the request that it reports. -/
def State.freeField (s : State) (f : Field) : State := s.takeFree.put f (s.free.toNat % 2 ^ f.len)

end Sys2Proof.Machine
end

