-- ==== Sys2Proof/Machine/Banks.lean ====
section
/-! DEFINITION. The switch of a coefficient bank (01, R22; 14, R255), with what it tells of the stamps of its channel (12,
R223). -/

namespace Sys2Proof.Machine

/-- Whether a measurement selects a TDC. -/
def TdcUnit.selects (u : TdcUnit) (n : Nat) : Bool := u.sels.any (fun x => decide (x.1 = n))

/-- A bank switch of a channel (R223, Table 12-2): a measurement that selects it carries TABLE_CHANGED, and the stamps that its
TDCs retain are ones of the old tables. -/
def State.tdcSwitched (s : State) (c : Nat) : State :=
  let aged : Nat → State → State := fun n s =>
    let d := s.tdc n
    s.setTdc n { d with rise := d.rise.map (fun k => { k with old := true }), fall := d.fall.map (fun k => { k with old := true }) }
  let s := aged (2 * c + 1) (aged (2 * c) s)
  s.withUnits (s.units.map (fun (k, u) =>
      (k, if u.phase ≠ .idle ∧ u.phase ≠ .complete ∧ (u.selects (2 * c) || u.selects (2 * c + 1)) = true then { u with changed := true } else u)))

/-- The staged bank of a channel switched, if it is eligible: it becomes active, with its table flags and its age. -/
def State.switchBank (c : Nat) (s : State) : State :=
  if s.flag (PIN_QUALITY_STAT.ELIGIBLE c) then
    let x := s.chan c
    let s := s.setChan c { x with active := x.staged, staged := {} }
    let s := (s.putB (PIN_TDC_CFG.BT_CAL_H c) x.staged.btH).putB (PIN_TDC_CFG.BT_CAL_L c) x.staged.btL
    let s := (s.put (PIN_QUALITY_STAT.ELIGIBLE c) 0).setPair (PIN_QUALITY_AGE_LO.addr c) s.time.toNat
    let p := s.fld CAL_STATUS.PENDING - 1
    let s := s.put CAL_STATUS.PENDING p
    let s := if p = 0 then s.withCal { s.cal with since := none, warned := false } else s
    s.tdcSwitched c
  else s

/-- Every eligible bank of a list of channels switched. -/
def State.switchBanks (s : State) (cs : List Nat) : State := State.each State.switchBank cs s

/-- Every eligible bank switched (entry to IDLE). -/
def State.switchAll (s : State) : State := s.switchBanks (numsTo 1024)

end Sys2Proof.Machine
end

