-- ==== Sys2Proof/Machine/Outcomes.lean ====
section
/-! DEFINITION. Outcomes of host commands (18, R327-R333; Table 18-6): how a started command finishes, how one ends that never
starts, and which commands an abort ends. -/

namespace Sys2Proof.Machine

/-- The first command of a list with an id taken out. -/
def takeCmd (id : Nat) : List HostCmd → Option (HostCmd × List HostCmd)
  | [] => none
  | c :: cs => if c.id.toNat = id then some (c, cs) else (takeCmd id cs).map (fun (x, r) => (x, c :: r))

/-- Argument i of a command. -/
def argOf (c : HostCmd) (i : Nat) : Nat := (c.args.getD i 0).toNat

/-- The duplicates that waited for a command complete as it does (R331). -/
def QueueSt.dupsOf (x : QueueSt) (o : Compl) : List Compl :=
  (x.dups.filter (fun c => decide (c.id.toNat = o.id))).map
    (fun c => { o with dup := true, irq := bitOf c.flags.toNat 0, began := false })

/-- The duplicates that wait for other commands. -/
def QueueSt.dupsBut (x : QueueSt) (id : Nat) : List HostCmd := x.dups.filter (fun c => decide (c.id.toNat ≠ id))

/-- What a command has kept for later steps dropped: it has no further effect. -/
def QueueSt.forget (x : QueueSt) (id : Nat) : QueueSt :=
  { x with writes := x.writes.filter (fun e => decide (e.1 ≠ id)), owed := x.owed.filter (fun e => decide (e.1 ≠ id)) }

/-- A started command finished with a status and a result: its outcome joins those whose completion is to be written. A
command that a Function Level Reset has cut off has none of its own; duplicates of it that came since complete (R327,
R331). -/
def State.finish (s : State) (q id status result : Nat) : State :=
  let x := (s.queue q).forget id
  let o : Compl := { id := id, status := status, result := result % 2 ^ 64 }
  match takeCmd id x.started with
  | some (c, r) => s.setQueue q { x with started := r, done := x.done ++ [{ o with irq := bitOf c.flags.toNat 0 }] }
  | none =>
    match takeCmd id x.cut with
    | some (_, r) =>
      s.setQueue q { x with
        cut := r, done := x.done ++ x.dupsOf { o with at_ := some s.time.toNat }, dups := x.dupsBut id }
    | none => s

/-- A command that never starts ends with a status; `r` are the commands that go on waiting (R327, R330, R331). -/
def State.endWaiting (s : State) (q : Nat) (c : HostCmd) (r : List HostCmd) (status : Nat) : State :=
  let x := s.queue q
  s.setQueue q { x with
    waiting := r, waits := x.waits.filter (fun e => decide (e.1 ≠ c.id.toNat))
    done := x.done ++ [{ id := c.id.toNat, status := status, result := 0, irq := bitOf c.flags.toNat 0, began := false }] }

/-- The commands of a queue that run: those started, and those that a Function Level Reset has cut off. -/
def State.running_ (s : State) (q : Nat) : List HostCmd := (s.queue q).started ++ (s.queue q).cut

/-- Every command that runs for a queue and that a test selects finished with ABORTED (Table 18-6). -/
def State.abortCmds (s : State) (sel : HostCmd → Bool) : State :=
  State.each (fun q s => ((s.running_ q).filter sel).foldl (fun s c => s.finish q c.id.toNat 0x0D 0) s) (List.range 8) s

/-- Whether the start of an act is still to be checked. -/
def State.startPending (s : State) (n : Nat) : Bool := decide (s.fld (SEQ_STATUS.STATE n) = 1) && !(s.act n).checked

/-- An abort of act n ends the ACT_START commands whose start of it is still to be checked (Table 18-6). An ACT_WAIT has what it
waits for and finishes with OK (DESIGN CHOICE, notes/assumptions/17.md). -/
def State.abortStarts (s : State) (n : Nat) : State :=
  if s.startPending n then s.abortCmds (fun c => decide (c.opcode = 0x20) && bitOf (argOf c 0) n) else s

end Sys2Proof.Machine
end

