-- ==== Sys2Proof/Machine/Timing.lean ====
section
/-! DEFINITION. Timing sets, the timed-mode start check, the symbol budget and the run-out (01 R15; 07 R118-R129;
08 R153, R163). -/

namespace Sys2Proof.Machine

/-- The time of edge e of timing set t at a channel, while it is enabled (R120; e as in Table 7-14). -/
def State.edge (s : State) (c t e : Nat) : Option Nat :=
  if s.flag (PIN_EDGE.EN c (8 * t + e)) then some (s.fld (PIN_EDGE.TIME c (8 * t + e))) else none

/-- The format of timing set t at a channel (Table 7-13). -/
def State.fmt (s : State) (c t : Nat) : Nat := bitsOf (s.reg (PIN_TS_FMT.addr c (t / 8))).toNat (4 * (t % 8)) 3

/-- The direction bit of timing set t at a channel (R123, Table 7-13). -/
def State.dir (s : State) (c t : Nat) : Bool := bitOf (s.reg (PIN_TS_FMT.addr c (t / 8))).toNat (4 * (t % 8) + 3)

/-- The valid timing sets of an act in ascending order. -/
def State.validSets (s : State) (n : Nat) : List Nat := (List.range 64).filter (fun t => s.flag (TMG_PERIOD_HI.VALID n t))

/-- The drive edges a format uses (R126, Table 7-4). -/
def fmtEdges (fmt : Nat) : List Nat :=
  match fmt with
  | 0 => [0] | 1 => [0, 1, 2, 3] | 2 => [0, 1] | 3 => [0, 1] | 4 => [0, 1, 2] | _ => []

/-- Dset(t): enabled E0 and the enabled D edges of the format (R128). -/
def State.dset (s : State) (c t : Nat) : List Nat := (fmtEdges (s.fmt c t) ++ [4]).filterMap (s.edge c t)

/-- X(t): Dset(t) with the time of an enabled E1 (R128). -/
def State.xset (s : State) (c t : Nat) : List Nat := s.dset c t ++ (s.edge c t 5).toList

/-- Sset(t): the times of enabled S1 and S2 (R128). -/
def State.sset (s : State) (c t : Nat) : List Nat := [6, 7].filterMap (s.edge c t)

/-- The largest of a list of numbers, 0 if it is empty. -/
def maxOf : List Nat → Nat
  | [] => 0
  | x :: xs => max x (maxOf xs)

/-- The smallest of a list of numbers, none if it is empty. -/
def minOf : List Nat → Option Nat
  | [] => none
  | x :: xs => some (match minOf xs with | none => x | some y => min x y)

/-- PMIN: the smallest PERIOD among the act's valid sets (R128). -/
def State.pmin (s : State) (n : Nat) : Nat := (minOf ((s.validSets n).map (s.period n))).getD 0

/-- A failing rule of Table 7-6: rule, set a, set b, channel. -/
structure TimingFail where
  rule : Nat
  a : Nat
  b : Nat
  chan : Nat
deriving DecidableEq, Repr

/-- The first set, then the first channel, that breaks a rule about one set (DEDUCED, notes/assumptions/22.md). -/
def State.scanRule (s : State) (n rule : Nat) (bad : Nat → Nat → Bool) : Option TimingFail :=
  ((s.validSets n).flatMap (fun t => (s.actChans n).filterMap (fun c =>
    if bad c t then some ⟨rule, t, t, c⟩ else none))).head?

/-- Whether distinct times of a list lie closer than 2,048 fines (Table 7-6 rule 4). -/
def tooClose (xs : List Nat) : Bool := xs.any (fun x => xs.any (fun y => decide (x < y ∧ y < x + 2048)))

/-- Rule 5 of Table 7-6. -/
def State.rule5 (s : State) (n : Nat) : Option TimingFail :=
  ((s.validSets n).flatMap (fun a => (s.validSets n).flatMap (fun b => (s.actChans n).filterMap (fun c =>
    match minOf (s.xset c b) with
    | some mb => if s.xset c a ≠ [] ∧ s.period n a + mb < maxOf (s.xset c a) + 2048 then some ⟨5, a, b, c⟩ else none
    | none => none)))).head?

/-- The timed-mode start check: the first failing rule of Table 7-6 (R129). -/
def State.timingCheck (s : State) (n : Nat) : Option TimingFail :=
  let pm := s.pmin n
  match (s.validSets n).find? (fun t => decide (s.period n t < s.cyc)) with
  | some t => some ⟨1, t, t, 0⟩
  | none =>
  match s.scanRule n 2 (fun c t => (s.xset c t).any (fun x => decide (4 * pm < x + 8192))) with
  | some f => some f
  | none =>
  match s.scanRule n 3 (fun c t => (s.sset c t).any (fun x => decide (2 * pm < x + 4096))) with
  | some f => some f
  | none =>
  match s.scanRule n 4 (fun c t => tooClose (s.dset c t)) with
  | some f => some f
  | none =>
  match s.rule5 n with
  | some f => some f
  | none => s.scanRule n 6 (fun c t =>
      match s.edge c t 6, s.edge c t 7 with
      | some a, some b => decide (b < a + 1024)
      | _, _ => false)

/-- The symbol demand of a block times 2^k (R15): bits per symbol times 8 in serial mode; with k = 3 for timed mode
(one symbol per vector, a vector at least one cycle). -/
def State.symDemand (s : State) (n b : Nat) : Nat :=
  ((blockChans b).map (fun c => (if s.flag (PIN_CFG.ENC c) then 4 else 2) * 8)).sum /
    (if s.timed n then 8 else 1)

/-- Whether every block of the act keeps within the 1024 symbol bits of a frame (R15). -/
def State.symBudgetOk (s : State) (n : Nat) : Bool :=
  (s.actBlocks n).all (fun b => decide (s.symDemand n b ≤ 1024 * (if s.timed n then 1 else 2 ^ s.fld (TMG_MODE.K n))))

/-- The largest comparator deskew of the act, at least 0 (R153). -/
def State.maxDeskew (s : State) (n : Nat) : Nat :=
  maxOf ((s.actChans n).flatMap (fun c =>
    [(signed 18 (s.fld (PIN_DESKEW_CMP_H.DESKEW c))).toNat, (signed 18 (s.fld (PIN_DESKEW_CMP_L.DESKEW c))).toNat]))

/-- Cycles from the issue of a vector to its result, with a margin (R153; the margin is 16 there and 0 in R163). -/
def State.latCycles (s : State) (n margin : Nat) : Nat :=
  let c := s.cyc
  let st := if s.timed n then
      let smax := maxOf ((s.validSets n).flatMap (fun t => (s.actChans n).flatMap (fun ch => s.sset ch t)))
      (smax + c + c - 1) / c
    else s.serialCycles n
  48 + st + (s.maxDeskew n + c - 1) / c + 32 + 8 + margin

/-- The same as vectors: RUNOUT_MIN with margin 16, the result latency M with margin 0 (R153, R163). -/
def State.latVectors (s : State) (n margin : Nat) : Nat :=
  let l := s.latCycles n margin
  if s.timed n then
    let pm := max 1 (s.pmin n)
    (l * s.cyc + pm - 1) / pm
  else (l + s.serialCycles n - 1) / s.serialCycles n

/-- The vector record size of an act in bytes (R141): per block, 64 channels times U symbols, padded to 256 bits. -/
def State.sliceBytes (s : State) (n b : Nat) : Nat :=
  let bits := ((blockChans b).map (fun c => (if s.flag (PIN_CFG.ENC c) then 4 else 2) * s.uis n)).sum
  (bits + 255) / 256 * 32

/-- The record size of the act: the sum of its slices. -/
def State.recBytes (s : State) (n : Nat) : Nat := ((s.actBlocks n).map (s.sliceBytes n)).sum

/-- The forward depth of R13 in fines: 48 cycles. -/
def State.fwdDepth (s : State) : Nat := s.cyclesFines 48

/-- The time a placed edge reaches a channel's pin (R119), from the vector's issue time T: D + E + K_reg + K_cal, K_cal in
1/16 fine, to the nearest fine with halves up (DESIGN CHOICE, notes/assumptions/25.md). -/
def State.edgeTime (s : State) (t e : Nat) (kreg kcal : Int) : Nat :=
  ((Int.ofNat (t + s.fwdDepth + e) + kreg) * 16 + kcal + 8).toNat / 16

/-- K_cal of a channel's drive, CH and CL paths in its active bank (R119). -/
def State.bankOf (s : State) (c : Nat) : Int × Int × Int :=
  let k := (s.chan c).active
  (k.drv, k.cmpH, k.cmpL)

/-- The time of a drive-path edge of a vector with the bank in force for it (R119). -/
def State.drvTime (s : State) (c : Nat) (k : Int × Int × Int) (v : Vec) (e : Nat) : Nat :=
  s.edgeTime v.time e (signed 18 (s.fld (PIN_DESKEW_DRV.DESKEW c))) k.1

/-- The time of a strobe or sample of comparator CH, or CL, of a vector with the bank in force for it (R117, R119). -/
def State.cmpTime (s : State) (c : Nat) (k : Int × Int × Int) (low : Bool) (v : Vec) (e : Nat) : Nat :=
  if low then s.edgeTime v.time e (signed 18 (s.fld (PIN_DESKEW_CMP_L.DESKEW c))) k.2.2
  else s.edgeTime v.time e (signed 18 (s.fld (PIN_DESKEW_CMP_H.DESKEW c))) k.2.1

/-- Serial time of UI u, `half` of 512 on, from the vector's start (R116, R117), to a whole fine below (DESIGN CHOICE,
notes/assumptions/25.md). -/
def State.uiTime (s : State) (n u half : Nat) : Nat := (u * 512 + half) * 2 ^ s.fld (TMG_MODE.K n) * 25600 / s.rootMhz

/-- The length of a vector in fines (R115, R118). -/
def State.vecLen (s : State) (n : Nat) (v : Vec) : Nat :=
  if s.timed n then s.period n v.tset else s.cyclesFines (s.serialCycles n)

/-- The end of a vector at a channel (R150): the later of T0 plus its length and its last placed edge. Every enabled edge of its
timing set counts as placed, with its strobes, or its last sample (DESIGN CHOICE, notes/assumptions/46.md). -/
def State.endAtChan (s : State) (n : Nat) (v : Vec) (c : Nat) : Nat :=
  let k := s.bankOf c
  let drv := s.vecLen n v :: (if s.timed n then (List.range 6).filterMap (s.edge c v.tset) else [])
  let cmp := if s.timed n then s.sset c v.tset
    else [s.uiTime n (s.uis n - 1) (s.fld (TMG_MODE.SAMPLE n))]
  maxOf (drv.map (s.drvTime c k v) ++ cmp.map (s.cmpTime c k false v) ++ cmp.map (s.cmpTime c k true v))

/-- The end of the last vector issued at the pins of an act, the latest of its channels (R150); none before vector 0. -/
def State.endAt (s : State) (n : Nat) : Option Nat :=
  match (s.act n).lastVec with
  | some v => some (maxOf ((s.actChans n).map (s.endAtChan n v)))
  | none => none

/-- The end of the last vector issued; an act that has issued none is at its end now (R150, which says only that no pin leaves
park state then: DESIGN CHOICE, notes/assumptions/22.md). -/
def State.endNow (s : State) (n : Nat) : Nat := (s.endAt n).getD s.time.toNat

/-- The K terms of a comparator path with a bank, in 1/64 fine (R117, R119). -/
def State.cmpKOf (s : State) (c : Nat) (k : Int × Int × Int) (low : Bool) : Int :=
  if low then 64 * signed 18 (s.fld (PIN_DESKEW_CMP_L.DESKEW c)) + 4 * k.2.2
  else 64 * signed 18 (s.fld (PIN_DESKEW_CMP_H.DESKEW c)) + 4 * k.2.1

/-- The same with the active bank. -/
def State.cmpK64 (s : State) (c : Nat) (low : Bool) : Int := s.cmpKOf c (s.bankOf c) low

end Sys2Proof.Machine
end

