-- ==== Sys2Proof/Machine/ActOps.lean ====
section
/-! DEFINITION. Starting and stopping acts, forcing parks, clearing SREF outputs and sending whistles: the operations of
08 (R146-R154), 06 (R105), 15 (R281, R283) and 17 (R314, R315) that many commands share. -/

namespace Sys2Proof.Machine

/-! ## Shows (R315, R319-R323) -/

/-- The acts of this module in a show that has VALID = 1 (R315). -/
def State.showActs (s : State) (sh : Nat) : List Nat :=
  if s.flag (LNK_SHOW_CFG.VALID sh) then bitList (s.fld (LNK_SHOW_CFG.ACTS sh)) 16 0 else []

/-- The member devices of a show, device 0 left out (R320). -/
def State.showDevs (s : State) (sh : Nat) : List Nat :=
  (numsTo 272).filterMap (fun i =>
    let d := i + 1
    if bitOf (s.fld (LNK_SHOW_DEV.DEVICES sh (d / 32))) (d % 32) then some d else none)

/-- Whether the manager has benched a device from a show. -/
def State.devBenched (s : State) (sh d : Nat) : Bool := bitOf (s.fld (LNK_SHOW_BENCH.DEVICES sh (d / 32))) (d % 32)

/-- The states of the acts a member has reported: code of Table 8-1 plus 1. -/
def ShowSt.reported (x : ShowSt) (d : Nat) : List Nat := (Tab.slice (fun _ => 0) x.acts (16 * d) 16).filter (fun v => decide (v ≠ 0))

/-- Whether every act of a member is STOPPED, as far as it has reported (R320; DEDUCED, notes/assumptions/33.md). -/
def State.memberStopped (s : State) (sh d : Nat) : Bool :=
  let r := (s.show_ sh).reported d
  r.all (fun v => decide (v = 1)) && (decide (r ≠ []) || s.devBenched sh d)

/-- The end of a show: RUNNING is cleared when every member act is STOPPED, or every member device is benched and the
manager's own acts are STOPPED (R320). -/
def State.showEnd (s : State) (sh : Nat) : State :=
  let own := (s.showActs sh).all (fun n => decide (s.actState n = 0))
  let ds := s.showDevs sh
  if s.flag (LNK_SHOW_CFG.RUNNING sh) ∧ own ∧ (ds.all (s.memberStopped sh) ∨ ds.all (s.devBenched sh)) then
    s.put (LNK_SHOW_CFG.RUNNING sh) 0
  else s

/-- Every show that act n is a member of on this module looked at for its end. -/
def State.showEnds (s : State) (n : Nat) : State :=
  State.each (fun sh s => if n ∈ s.showActs sh then s.showEnd sh else s) (numsTo 256) s

/-! ## Parks (06) -/

/-- A connected PPMU disconnected by the entry to a mode (R105). -/
def State.cutPpmu (c : Nat) (s : State) : State :=
  if s.flag (PIN_PPMU_CFG.CONNECT c) then s.put (PIN_PPMU_CFG.CONNECT c) 0 else s

/-- Every PPMU disconnected by the entry to a mode. -/
def State.cutPpmus (s : State) : State := State.each State.cutPpmu (numsTo 1024) s

/-- A connected PPMU disconnected by a forced park or a disable (R105). -/
def State.dropPpmu (c : Nat) (s : State) : State :=
  if s.flag (PIN_PPMU_CFG.CONNECT c) then (s.put (PIN_PPMU_CFG.CONNECT c) 0).put (PIN_PPMU_MEAS.PARKED c) 1 else s

/-- The PPMUs of channels on which a park is forced disconnected. -/
def State.parkPpmus (s : State) (cs : List Nat) : State := State.each State.dropPpmu cs s

/-! ## Events and reports of an act -/

/-- An event of act n (source SEQ 16 + n). -/
def State.seqEvent (s : State) (n code : Nat) (p4 p5 p6 p7 : Nat := 0) : State := s.event (16 + n) code p4 p5 p6 p7

/-- The SHOW_REPORT frame of show `sh` for act n (Table 17-5). -/
def State.reportFrame (s : State) (sh n : Nat) : Frame :=
  let cyc := s.pair (SEQ_CYCLE_LO.addr n)
  ⟨0, 0, 6, 0, s.devIndex % 512,
    [BitVec.ofNat 32 (sh + 256 * n + 65536 * s.actState n + 16777216 * s.fld (SEQ_STATUS.STOP_REASON n)),
     BitVec.ofNat 32 cyc, BitVec.ofNat 32 (cyc / 2 ^ 32), BitVec.ofNat 32 s.time.toNat,
     BitVec.ofNat 32 (s.time.toNat / 2 ^ 32)]⟩

/-- A member's SHOW_REPORT frames at a state change of act n, one for each show that the act is a member of, whoever started the
act (R320). -/
def State.showReport (s : State) (n : Nat) : State :=
  if s.hasManager then
    State.each (fun sh s => if n ∈ s.showActs sh then s.sendFrame 0 (s.reportFrame sh n) else s) (numsTo 256) s
  else s

/-- SEQ_STATUS.STATE stored, with the reports of a show act; a STOPPED act can end its show (R320). -/
def State.setActState (s : State) (n st : Nat) : State :=
  let s := (s.put (SEQ_STATUS.STATE n) st).showReport n
  if st = 0 then s.showEnds n else s

/-- A start discarded and counted (R149). -/
def State.missStart (s : State) (n : Nat) : State :=
  ((s.bump (SEQ_MISSED_START.COUNT n)).put (SEQ_STATUS.START_RESULT n) 0x0B).seqEvent n 5

/-- A queued start discarded and counted by an abort (R149). START_MISSED is stamped with the time of the abort: which
arrival the rule means for a start latched earlier it does not say (DESIGN CHOICE, notes/assumptions/46.md). -/
def State.dropQueued (s : State) (n : Nat) : State :=
  match (s.act n).queued with
  | none => s
  | some _ => ((s.setAct n { s.act n with queued := none }).put (SEQ_STATUS.QUEUED n) 0).missStart n

/-! ## Accepting a start (R146, R149) -/

/-- PIN_HYST and PIN_HOLDOFF as they stand are in force at a channel until its next vector boundary (R102), and a disable
that has ended is over, since it ended while no vector was to come (R277). -/
def State.holdHyst (c : Nat) (s : State) : State :=
  s.setChan c { s.chan c with
    hyst := (s.reg (PIN_HYST.addr c)).toNat, hold := (s.reg (PIN_HOLDOFF.addr c)).toNat, rejoin := false }

/-- A start or ARM accepted by a STOPPED act: ARMING, from START_HALF and START_ADDR, with no ring benched, and with RUNOUT
as it stands (R134, R137, R146, R153, Table 8-12). -/
def State.acceptStart (s : State) (n : Nat) (r : StartReq) : State :=
  let s := s.setAct n { s.act n with
    armedBy := some r, held := none, show_ := if r.timed then some r.show_ else none,
    pc := s.fld (SEQ_CTRL.START_ADDR n), checked := false, stop := none, aborted := false, endL := none, prog := .none
    swapFollowed := 0, pfWait := false, prefetch := [], lastVec := none, bench := 0
    runout := s.fld (SEQ_STOP_POLICY.RUNOUT n) }
  let s := State.each State.holdHyst (s.actChans n) s
  let s := s.put (SEQ_STATUS.EXEC_HALF n) (s.fld (SEQ_CTRL.START_HALF n))
  (s.put (SEQ_STATUS.START_RESULT n) 0).setActState n 1

/-- A START(t) that comes too late: START_RESULT LATE and event START_LATE; the manager hears of the miss even where events
are not forwarded (R148, R149, R322; DEDUCED, notes/assumptions/33.md). -/
def State.markLate (s : State) (n : Nat) : State :=
  let r := s.evtRec s.time.toNat (16 + n) 4 0 0 0 0
  let told := s.flag EVT_CFG.FWD && !s.evtFiltered (16 + n) 4
  let s := (s.put (SEQ_STATUS.START_RESULT n) 0x09).seqEvent n 4
  if s.hasManager ∧ told = false then s.sendFrame 0 ⟨0, 0, 4, 0, s.devIndex % 512, r⟩ else s

/-- The latched start accepted when the act returns to STOPPED; a START(t) whose t has passed is discarded as LATE
(R149). -/
def State.acceptQueued (s : State) (n : Nat) : State :=
  match (s.act n).queued with
  | none => s
  | some r =>
    let s := (s.setAct n { s.act n with queued := none }).put (SEQ_STATUS.QUEUED n) 0
    if r.timed ∧ after s.time.toNat r.t then s.markLate n else s.acceptStart n r

/-! ## Stopping (R150-R154) -/

/-- The order of stop kinds that fix the same L: Fault, Fail, Graceful, Normal (R151). -/
def stopRank (reason : Nat) : Nat :=
  if reason = 1 then 3 else if reason = 2 ∨ reason = 3 then 2 else if 4 ≤ reason ∧ reason ≤ 6 then 1 else 0

/-- The number of vectors issued since the start (SEQ_CYCLE). -/
def State.issued (s : State) (n : Nat) : Nat := s.pair (SEQ_CYCLE_LO.addr n)

/-- A tile push of a ring asked for (R192): ignored while one runs; with the stream disabled it ends at once. -/
def State.tilePush (s : State) (g : Nat) (final : Bool) : State :=
  if (s.ring g).push.isSome then s
  else if !s.flag (ACQ_STREAM_CTRL.EN (s.fld (FAIL_TILE_CFG.STREAM g))) then s.put (FAIL_TILE_STATUS.STREAM_OFF g) 1
  else (s.setRing g { s.ring g with push := some final }).put (FAIL_TILE_STATUS.PUSHING g) 1

/-- The FINAL tile pushes of an act's rings: the act has reached STOPPED (R192). -/
def State.finalPushes (s : State) (n : Nat) : State :=
  State.each (fun g s =>
    if s.ringAct g = some n ∧ s.flag (FAIL_TILE_CFG.FINAL g) then s.tilePush g true else s) (List.range 64) s

/-- What follows when an act reaches STOPPED without a run: the FINAL tile pushes of its rings (R192), and its eligible banks
switch (R255). -/
def State.neverRan (s : State) (n : Nat) : State := (s.finalPushes n).switchBanks (s.actChans n)

/-- Vector 0 of a stop made while ARMING or ARMED is never issued: the act returns to STOPPED at once (R151). -/
def State.stopEarly (s : State) (n reason : Nat) : State :=
  let s := s.put (SEQ_STATUS.STOP_REASON n) reason
  let s := (s.put (SEQ_PC.ADDR n) (s.act n).pc).put (SEQ_PC.HALF n) (s.execHalf n)
  let s := s.setPair (SEQ_CYCLE_LO.addr n) 0
  let s := s.setActState n 0
  let s := s.setAct n { s.act n with armedBy := none, held := none, show_ := none, stop := none, cue := none }
  ((s.seqEvent n 2 (reason + 256 * s.fld (SEQ_STATUS.RUNOUT_LATE n)) (s.reg (SEQ_PC.addr n)).toNat 0xFFFFFFFF
    0xFFFFFFFF).neverRan n).acceptQueued n

/-- A stop other than an abort fixes its last vector: `cnt` = L + 1; the smallest wins, then the order of R151. -/
def State.fixStop (s : State) (n cnt reason : Nat) : State :=
  let a := s.act n
  let take : Bool := match a.stop with
    | none => true
    | some (c, r) => decide (cnt < c ∨ (cnt = c ∧ stopRank reason < stopRank r))
  if s.running n ∧ !a.aborted ∧ take then
    let s := (s.setAct n { a with stop := some (cnt, reason) }).put (SEQ_STATUS.STOP_REASON n) reason
    if s.actState n = 3 then s.setActState n 4 else s
  else s

/-- A stop request that is not an abort, at the last vector issued (graceful stops; R150). -/
def State.gracefulStop (reason : Nat) (n : Nat) (s : State) : State :=
  if s.actState n = 1 ∨ s.actState n = 2 then s.stopEarly n reason
  else s.fixStop n (s.issued n) reason

/-- A fail stop with failing vector F (R150, R153): L = F + RUNOUT_EFF, or the last vector issued, with RUNOUT_LATE, when F +
RUNOUT_EFF has been issued already. -/
def State.failStop (n F reason : Nat) (s : State) : State :=
  let cnt := F + (s.act n).runout + 1
  if s.issued n < cnt then s.fixStop n cnt reason
  else
    let s' := s.fixStop n (s.issued n) reason
    if (s'.act n).stop = some (s.issued n, reason) then s'.put (SEQ_STATUS.RUNOUT_LATE n) 1 else s'

/-- The end of L at the pins of an abort made now: the earlier of its own end and now (R150). -/
def State.abortEnd (s : State) (n : Nat) : Nat :=
  match (s.act n).endL with
  | some t => t
  | none => if after s.time.toNat (s.endNow n) then s.endNow n else s.time.toNat

/-- An abort stop (R150): L is the last vector issued; edges not yet placed are discarded; every channel of the act is
parked. A queued start is discarded, also by an abort of an act that is aborted already (R149); an ACT_START that waits for the
start's checks is ended with it. -/
def State.abortAct (reason : Nat) (n : Nat) (s : State) : State :=
  if s.actState n = 1 ∨ s.actState n = 2 then ((s.abortStarts n).dropQueued n).stopEarly n reason
  else if s.running n ∧ !(s.act n).aborted then
    let a := s.act n
    let s := s.setAct n { a with
      stop := some (s.issued n, reason), aborted := true, prog := .none, endL := some (s.abortEnd n) }
    let s := s.put (SEQ_STATUS.STOP_REASON n) reason
    let s := if s.issued n = 0 then s else (s.put (SEQ_PC.ADDR n) a.lastPc.1).put (SEQ_PC.HALF n) a.lastPc.2
    let s := if s.actState n = 3 then s.setActState n 4 else s
    (s.parkPpmus (s.actChans n)).dropQueued n
  else if s.running n then s.dropQueued n
  else s

/-- Every executing act aborts with one reason. -/
def State.abortAll (s : State) (reason : Nat) : State := State.each (State.abortAct reason) actNums s

/-! ## Starting (R146-R149) -/

/-- The start check refuses: STOPPED, the code in START_RESULT, START_REFUSED (R146). -/
def State.refuseStart (s : State) (n code : Nat) : State :=
  let s := (s.put (SEQ_STATUS.START_RESULT n) code).setActState n 0
  (((s.setAct n { s.act n with armedBy := none, held := none, show_ := none }).seqEvent n 3).neverRan n).acceptQueued n

/-- An act that is not ARMED at the t of its START(t) returns to STOPPED (R148). -/
def State.lateStart (s : State) (n : Nat) : State :=
  let s := (s.put (SEQ_STATUS.START_RESULT n) 0x09).setActState n 0
  (((s.setAct n { s.act n with armedBy := none, held := none, show_ := none }).markLate n).neverRan n).acceptQueued n

/-- An ARMED act released: t_start, RUNNING, the park line released, ACT_START, mode RUN
(R148, R133, R29). `t` is the time of a START(t); without it the release is now, and t_start the beginning of the next
vector-clock cycle. How far that is, or t into its cycle, is a free value: no rule places the cycles on the time count
(DESIGN CHOICE, notes/assumptions/44.md). -/
def State.release (s : State) (n : Nat) (t : Option Nat) : State :=
  let x := s.free.toNat % s.cyc
  let ts := match t with | some t => t | none => s.time.toNat + 1 + x
  let s := s.takeFree
  let s := s.setAct n { s.act n with
    tStart := ts, iss := (if t.isSome then ts - x else ts), t0 := 0, armedBy := none, atPins := 0, lastVec := none }
  let s := State.each (fun c s => s.setChan c { s.chan c with
      started := false,
      p := decide ((s.chan c).park = 3), driving := decide ((s.chan c).park = 2 ∨ (s.chan c).park = 3),
      symDrive := decide ((s.chan c).park = 2 ∨ (s.chan c).park = 3), lastSym := none })
    (s.actChans n) s
  let s := (s.setActState n 3).seqEvent n 1
  if s.mode = .idle then s.setMode .run else s

/-- A start or ARM that arrives at an act, whatever its state (R146, R149). -/
def State.startAct (r : StartReq) (n : Nat) (s : State) : State :=
  let a := s.act n
  let byArm : Bool := match a.armedBy with | some q => q.arm | none => false
  if s.actState n = 0 then s.acceptStart n r
  else if !r.arm ∧ byArm ∧ a.held = none ∧ s.actState n = 1 then
    s.setAct n { a with held := some r, show_ := if r.timed then some r.show_ else a.show_ }
  else if !r.arm ∧ byArm ∧ s.actState n = 2 then
    if r.timed then s.setAct n { a with armedBy := some r, show_ := some r.show_ }
    else s.release n none
  else if s.flag (SEQ_CTRL.START_QUEUE n) ∧ a.queued = none then
    ((s.setAct n { a with queued := some r }).put (SEQ_STATUS.QUEUED n) 1).put (SEQ_STATUS.START_RESULT n) 0x0A
  else s.missStart n

/-! ## SREF outputs (15) -/

/-- The blanking timer of a SENSE monitor started, or started again, at time t for TIME ns, to a whole fine below (R280; DESIGN
CHOICE, notes/assumptions/25.md): a TIME of 0 starts none, and ends one that runs at once. -/
def State.blankStart (m t : Nat) (s : State) : State :=
  let n := s.fld (MON_SENSE_BLANK.TIME m)
  if n = 0 ∧ s.flag (MON_SENSE_BLANK.BLANKING m) = false then s
  else (s.put (MON_SENSE_BLANK.BLANKING m) 1).withBlanks (Tab.set (fun _ => 0) s.blanks m ((t + n * 65536 / 10) % 2 ^ 64))

/-- The blanking timers that follow an output start when it changes (R280). -/
def State.srefChanged (s : State) (m : Nat) : State :=
  State.each (fun i s =>
    if s.flag (MON_SENSE_BLANK.ON_SREF i) ∧ s.fld (MON_SENSE_BLANK.SREF i) = m then State.blankStart i s.time.toNat s
    else s) (List.range 32) s

/-- One SREF output forced to its clear code: source 1 global, 2 SENSE monitor (R283, Table 15-8). -/
def State.srefClear (source : Nat) (m : Nat) (s : State) : State :=
  let old := s.fld (MON_SREF_CODE.CODE m)
  let new := s.fld (MON_SREF_CLRCODE.CODE m)
  let s := ((s.put (MON_SREF_CODE.CODE m) new).put (MON_SREF_STATUS.CLEARED m) 1).put (MON_SREF_STATUS.SOURCE m) source
  if old = new then s else s.srefChanged m

/-- A global clear (R283). -/
def State.srefClearAll (s : State) : State := State.each (State.srefClear 1) (List.range 32) s

/-! ## Whistles (17) -/

/-- 1 ms in fines. -/
def msFines : Nat := 6553600000

/-- A whistle sent on the ACTIVE ports of a list. -/
def State.whistleOn (s : State) (w : Whistle) (ps : List Nat) : State :=
  State.each (fun p s =>
    if s.portActive p then s.setPort p { s.port p with sent := (s.port p).sent ++ [.whistle w] } else s) ps s

/-- The times of the whistles sent in the last 1 ms (R314). -/
def State.whistleTimes (s : State) : List Nat := s.whistles.times.filter (fun t => !s.past (t + msFines))

/-- Whether the 1 ms window allows another routed whistle (R314). -/
def State.whistleRoom (s : State) : Bool := decide (s.whistleTimes.length < 128)

/-- A routed whistle enters the ports with the next WN (R314). -/
def State.whistleSend (s : State) (w : Whistle) : State :=
  let wn := (s.whistles.wn + 1) % 256
  let s := s.withWhistles { s.whistles with wn := wn, times := s.whistleTimes ++ [s.time.toNat] }
  (s.put LNK_WHISTLE_CFG.LAST_WN wn).whistleOn { w with wn := wn, origin := s.fld SYS_DEVIDX.INDEX } (List.range 17)

/-- A whistle that an action or the show policy calls for: it enters the ports now, or waits for the window (R314). -/
def State.whistleCalled (s : State) (w : Whistle) : State :=
  if s.whistles.waiting = [] ∧ s.whistleRoom then s.whistleSend w
  else s.withWhistles { s.whistles with waiting := s.whistles.waiting ++ [w] }

/-- A cue kept by an act of its show (R173): executing acts keep the last one. -/
def State.keepCue (cue t : Nat) (n : Nat) (s : State) : State :=
  if s.executing n then s.setAct n { s.act n with cue := some (cue, t) } else s

/-- A START whistle at an act: ignored by an executing act of an ORPHANED module (R41). -/
def State.whistleStart (sh t : Nat) (n : Nat) (s : State) : State :=
  if s.flag SYS_STATUS.ORPHANED ∧ s.actState n ≠ 0 then s else s.startAct { timed := true, t := t, show_ := sh } n

/-- The acts of a list that have power: none in SAFE and OFF (R39, Table 1-2). -/
def State.aliveActs (s : State) (ns : List Nat) : List Nat := if s.mode = .safe ∨ s.mode = .off then [] else ns

/-- A taken routed whistle delivered to acts (R315): KIND, show, extension, cue number. -/
def State.deliverTo (s : State) (kind sh t cue : Nat) (ns : List Nat) : State :=
  match kind with
  | 1 => State.each (State.gracefulStop 3) (s.aliveActs ns) s
  | 2 => State.each (State.abortAct 0x0F) (s.aliveActs ns) s
  | 3 => State.each (State.abortAct 0x0E) (s.aliveActs ns) s
  | 4 =>
    if ns ≠ [] ∧ s.flag (LNK_SHOW_CFG.BENCHED sh) then s.event 7 9
    else State.each (State.whistleStart sh t) (s.aliveActs ns) s
  | _ => State.each (State.keepCue cue t) (s.aliveActs ns) s

/-- A whistle delivered to the module's acts of its show. -/
def State.deliver (s : State) (kind sh t cue : Nat) : State := s.deliverTo kind sh t cue (s.showActs sh)

end Sys2Proof.Machine
end

