-- ==== Sys2Proof/Machine/Operands.lean ====
section
/-! DEFINITION. How an access reaches a register (00 R5-R7; 20 R347-R354): what a mode lets the bus do at an address,
what a write stores by the access types, and the time an event carries. -/

namespace Sys2Proof.Machine

/-- What the bus may do at an address in a mode (R347). -/
inductive Access where
  | none | read | full
deriving DecidableEq, Repr

/-- The BOOT column of Table 20-1. -/
def bootAccess (a : Nat) : Access :=
  if a < 0x60000 then .full
  else if 0x61000 ≤ a ∧ a < 0x62000 then .full
  else if 0xF00000 ≤ a ∧ a < 0xF40000 then .full
  else .none

/-- The SAFE column of Table 20-1. -/
def safeAccess (a : Nat) : Access :=
  if a < 0x90000 then .full
  else if 0x90000 ≤ a ∧ a < 0xA0000 then .read
  else if 0xF00000 ≤ a ∧ a < 0xF40000 then .full
  else if 0x1000000 ≤ a ∧ a < 0x2000000 then .read
  else .none

/-- What the host may do at an address now (R347). -/
def State.access (s : State) (a : Nat) : Access :=
  match s.mode with
  | .off => .none
  | .boot => bootAccess a
  | .safe => safeAccess a
  | _ => .full

/-- Whether the RWL bits of a register are locked (R354, Table 20-4): since the end of BOOT step 8, which leaves BOOT_STEP
0xF; in FIELD. -/
def State.locked (s : State) (a : Nat) : Bool :=
  if 0x91004 ≤ a ∧ a < 0x91200 ∧ a % 16 = 4 then decide (s.fld SYS_MODE.BOOT_STEP = 0xF)
  else if a = CLK_OCXO_TRIM.addr then decide (s.fld LC_STATE.STATE = 2)
  else false

/-- The word a register holds after a write of `v`: RW bits take v, W1C bits that v sets are cleared (R5). -/
def RegRow.written (r : RegRow) (old v : Nat) : Nat :=
  ((old &&& (0xFFFFFFFF - r.rw)) ||| (v &&& r.rw)) &&& (0xFFFFFFFF - (v &&& r.w1c))

/-- A write as the access types of the register take it; locked registers and reserved addresses discard it
(R5, R348, R354). -/
def State.store (s : State) (a : Nat) (v : Word) : State :=
  match regAt a with
  | none => s
  | some (r, _) =>
    if s.locked a then s else s.setReg a (BitVec.ofNat 32 (r.written (s.reg a).toNat v.toNat))

/-- The bits of a written word that no field of its register names. -/
def reservedBits (a : Nat) (v : Word) : Nat :=
  match regAt a with
  | some (r, _) => v.toNat &&& (0xFFFFFFFF - r.named)
  | none => 0

/-- A write that the bus lets through (R347); its effect is `k`. Reserved bits written are a host error (R6, R9, Table
18-11). -/
def State.hostWrite (s : State) (a : Nat) (v : Word) (k : State → State) : State :=
  if s.access a = .full then
    if reservedBits a v = 0 then k s else s.errWrite a k
  else s

/-- Whether bit `i` of a written word is set. -/
def wbit (v : Word) (i : Nat) : Bool := bitOf v.toNat i

/-- A field of a written word. -/
def wfld (v : Word) (f : Field) : Nat := bitsOf v.toNat f.lo f.len

end Sys2Proof.Machine
end

