-- ==== Sys2Proof/Machine/Micro.lean ====
section
/-! DEFINITION. The microinstruction and what a sequencer does with it (08 R139-R145, 09 R155-R164): the fields, the
APG, the conditions, the ring masks, the prefetcher and the issue of one vector. -/

namespace Sys2Proof.Machine

/-! ## Fields of Table 9-1 -/

/-- The microinstruction word at an address of a half (R137). -/
def State.uword (s : State) (n half pc : Nat) : Nat :=
  leNat (s.bankBytes (0x200000 * n + 0x100000 * half + 16 * pc) 16)

def uFlow (w : Nat) : Nat := bitsOf w 120 8
def uTarget (w : Nat) : Nat := bitsOf w 96 24
def uTset (w : Nat) : Nat := bitsOf w 90 6
def uLset (w : Nat) : Nat := bitsOf w 86 4
def uCapt (w : Nat) : Nat := bitsOf w 80 6
def uXop (w : Nat) : Nat := bitsOf w 76 4
def uYop (w : Nat) : Nat := bitsOf w 72 4
def uZop (w : Nat) : Nat := bitsOf w 70 2
def uDop (w : Nat) : Nat := bitsOf w 66 4
def uAsel (w : Nat) : Nat := bitsOf w 64 2
def uCsel (w : Nat) : Nat := bitsOf w 56 8
def uRmop (w : Nat) : Nat := bitsOf w 48 8
def uVkind (w : Nat) : Nat := bitsOf w 46 2
def uVopnd (w : Nat) : Nat := bitsOf w 0 46

/-- Whether a condition code is defined (Table 9-6). -/
def condDefined (c : Nat) : Bool := decide (c ≤ 3 ∨ (8 ≤ c ∧ c ≤ 10) ∨ 0x40 ≤ c)

/-- Whether TARGET is one that the FLOW opcode uses (R157, Table 9-8; counts of 0 are reserved, R158). -/
def targetOk (flow t : Nat) : Bool :=
  match flow with
  | 0x00 | 0x04 | 0x06 | 0x0E => decide (t = 0)
  | 0x01 | 0x05 | 0x08 => decide (t ≠ 0)
  | 0x02 | 0x03 | 0x07 | 0x0C => decide (t < 65536)
  | 0x0D => decide (bitsOf t 16 6 = 0)
  | _ => true

/-- Whether CSEL is one that the FLOW opcode defines (Table 9-6, R171). -/
def cselOk (flow c : Nat) : Bool :=
  match flow with
  | 0x08 => decide (c ≤ 1)
  | 0x09 | 0x0A => true
  | _ => condDefined (c % 128)

/-- Whether a microinstruction holds a reserved code, so that executing it is a host error (R158). An RMOP with [55:54] = 0 and
[53:48] not 0, which Table 9-7 does not list, is taken for one (DESIGN CHOICE, notes/assumptions/46.md). -/
def uReserved (w : Nat) : Bool :=
  !(decide (uFlow w ≤ 0x0E) && targetOk (uFlow w) (uTarget w) && cselOk (uFlow w) (uCsel w) &&
    decide (uXop w ≤ 5) && decide (uYop w ≤ 7) && decide (uDop w ≤ 7) &&
    decide (bitsOf (uRmop w) 6 2 = 0 → uRmop w = 0) && decide (bitsOf (uRmop w) 6 2 = 3 → bitsOf (uRmop w) 0 6 ≤ 2) &&
    decide (uVkind w = 1 ↔ uFlow w = 0x0B) && decide (uVkind w ≠ 2 → uVopnd w = 0))

/-! ## The APG (R144, R145, R161) -/

/-- A counter incremented: from LIMIT to 0 with carry, otherwise within its full width (R144). -/
def incCtr (w lim v : Nat) : Nat × Bool := if v = lim then (0, true) else ((v + 1) % 2 ^ w, false)

/-- A counter decremented: from 0 to LIMIT with carry (R144). -/
def decCtr (lim v : Nat) : Nat × Bool := if v = 0 then (lim, true) else (v - 1, false)

/-- XOP and YOP (Table 9-4): the counter and its carry; `xc` is the X carry of this step. -/
def ctrOp (op lim start v : Nat) (xc : Bool) : Nat × Bool :=
  match op with
  | 1 => incCtr 24 lim v
  | 2 => decCtr lim v
  | 3 => (0, false)
  | 4 => (lim, false)
  | 5 => (start, false)
  | 6 => if xc then incCtr 24 lim v else (v, false)
  | 7 => if xc then decCtr lim v else (v, false)
  | _ => (v, false)

/-- ZOP (Table 9-5). -/
def zOp (op lim v : Nat) : Nat × Bool :=
  match op with
  | 1 => incCtr 8 lim v
  | 2 => decCtr lim v
  | 3 => (0, false)
  | _ => (v, false)

/-- DOP (Table 9-5) on the 64-bit data word. -/
def dOp (op start v : Nat) (xc : Bool) : Nat :=
  match op with
  | 1 => 2 ^ 64 - 1 - v
  | 2 => start
  | 3 => 0
  | 4 => 2 ^ 64 - 1
  | 5 => v * 2 % 2 ^ 64 + v / 2 ^ 63
  | 6 => v / 2 + v % 2 * 2 ^ 63
  | 7 => if xc then 2 ^ 64 - 1 - v else v
  | _ => v

/-- The APG operations of a microinstruction, in the order XOP, YOP, ZOP, DOP; carries describe this step (R156). -/
def State.apgStep (s : State) (n w : Nat) : State :=
  let a := s.act n
  let pr := ctrOp (uXop w) (s.fld (APG_X_LIMIT.LIMIT n)) a.x0 a.x false
  let x := pr.1
  let cx := pr.2
  let pr := ctrOp (uYop w) (s.fld (APG_Y_LIMIT.LIMIT n)) a.y0 a.y cx
  let y := pr.1
  let cy := pr.2
  let pr := zOp (uZop w) (s.fld (APG_Z.LIMIT n)) a.z
  let z := pr.1
  let cz := pr.2
  s.setAct n { a with x := x, y := y, z := z, data := dOp (uDop w) a.data0 a.data cx, cx := cx, cy := cy, cz := cz }

/-- A scrambled address (R144): bit i is the selected source bit, inverted when INV is 1. -/
def scramble (x y : Nat) : List (Nat × Bool × Bool) → Nat
  | [] => 0
  | (bit, srcY, inv) :: r => b2n (xor (bitOf (if srcY then y else x) bit) inv) + 2 * scramble x y r

/-- X'. -/
def State.xAddr (s : State) (n x y : Nat) : Nat :=
  scramble x y ((List.range 24).map (fun i =>
    (s.fld (APG_SCR_X.BIT n i), s.flag (APG_SCR_X.SRC_Y n i), s.flag (APG_SCR_X.INV n i))))

/-- Y'. -/
def State.yAddr (s : State) (n x y : Nat) : Nat :=
  scramble x y ((List.range 24).map (fun i =>
    (s.fld (APG_SCR_Y.BIT n i), s.flag (APG_SCR_Y.SRC_Y n i), s.flag (APG_SCR_Y.INV n i))))

/-- The address bus A (R144). -/
def addrBus (sel x y z : Nat) : Nat :=
  match sel with
  | 0 => x
  | 1 => y
  | 2 => z
  | _ => z * 65536 + y % 65536

/-- The topology bit for X' and Y' (R145). -/
def State.topoBit (s : State) (n x y : Nat) : Bool :=
  let word := x + y * 2 ^ 24
  let idx := (List.range 8).foldr (fun j acc => b2n (bitOf word (s.fld (APG_TOPO_SEL.SRC n j))) + 2 * acc) 0
  s.flag (APG_CFG.TOPO_EN n) && bitOf (s.fld (APG_TOPO.TABLE n (idx / 32))) (idx % 32)

/-! ## Ring masks and conditions (R162, R164) -/

/-- RMOP (Table 9-7). -/
def State.rmop (s : State) (n op : Nat) : State :=
  let a := s.act n
  let g := bitsOf op 0 6
  let bit : BitVec 64 := BitVec.ofNat 64 (2 ^ g)
  match bitsOf op 6 2 with
  | 1 => s.setAct n { a with working := a.working &&& ~~~bit }
  | 2 => s.setAct n { a with working := a.working ||| (bit &&& a.loaded) }
  | 3 =>
    if g = 0 then s.setAct n { a with working := a.loaded }
    else if g = 1 then s.setAct n { a with working := 0 }
    else s.setAct n { a with failSeen := false, ringSeen := 0 }
  | _ => s

/-- The condition of CSEL (R162). -/
def State.cond (s : State) (n csel : Nat) : Bool :=
  let a := s.act n
  let c := csel % 128
  let v : Bool :=
    if 0x40 ≤ c then bitOf a.ringSeen.toNat (c - 0x40)
    else match c with
      | 1 => a.cx | 2 => a.cy | 3 => a.cz | 8 => a.failSeen | 9 => a.matchTo | 10 => a.waitTo
      | _ => false
  xor v (bitOf csel 7)

/-! ## Issuing a vector -/

/-- The issue time of an act's next vector: t_start + T0 in timed mode, the start of its issue cycle in serial mode
(R118, R172). -/
def State.nextIssue (s : State) (n : Nat) : Nat :=
  if s.timed n then (s.act n).tStart + (s.act n).t0
  else (s.act n).iss + s.cyclesFines (s.issued n * s.serialCycles n)

/-- t_start + T0 of an act's next vector, from which its edges are placed (R118, R119, R148). -/
def State.nextT0 (s : State) (n : Nat) : Nat :=
  (s.act n).tStart + (if s.timed n then (s.act n).t0 else s.cyclesFines (s.issued n * s.serialCycles n))

/-- Whether an act can issue a vector: RUNNING, or STOPPING with L ahead (Table 8-1). -/
def State.canIssue (s : State) (n : Nat) : Bool :=
  !(s.act n).aborted &&
    (decide (s.actState n = 3) ||
      (decide (s.actState n = 4) && (match (s.act n).stop with | some (c, _) => decide (s.issued n < c) | none => false)))

/-- The source of a vector (Table 9-3); `blk` is the record address of a BLOCK vector. -/
def State.vecSrc (s : State) (n w blk : Nat) : VecSrc :=
  let a := s.act n
  let x := s.xAddr n a.x a.y
  let y := s.yAddr n a.x a.y
  match uVkind w with
  | 0 => .apg (addrBus (uAsel w) x y a.z) a.data (s.topoBit n x y)
  | 1 => .block blk
  | 2 => .apg (addrBus (uAsel w) x y a.z) (uVopnd w) false
  | _ => .none

/-- One vector issued (R156 step 2): tagged with SEQ_CYCLE, on its way to every die of the act, kept in the delay line
of expected symbols; SEQ_PC holds its microinstruction (R154). Vector 0 ends the ring parks of the act's channels (R281). -/
def State.issueVec (s : State) (n w blk : Nat) (trial : Option Nat) : State :=
  let a := s.act n
  let cyc := s.issued n
  let v : Vec :=
    { cycle := cyc, time := s.nextT0 n, tset := uTset w, lset := uLset w, capt := uCapt w,
      x := s.xAddr n a.x a.y, y := s.yAddr n a.x a.y, z := a.z, src := s.vecSrc n w blk, hold := decide (uVkind w = 3),
      first := decide (cyc = 0), working := a.working, bench := a.bench, trial := trial,
      mark := if uFlow w = 0x0D then uTarget w else 0 }
  let s := s.setAct n { a with
    lastPc := (a.pc, s.execHalf n), t0 := a.t0 + s.period n (uTset w), lastVec := some v, line := a.line ++ [{ vec := v }]
    pfLead := a.pfLead - 1 }
  let s := State.each (fun b s => s.setDie b { s.die b with fwd := (s.die b).fwd ++ [v] }) (s.actBlocks n) s
  let s := if cyc = 0 then State.each (fun c s => s.setChan c { s.chan c with ringPark := false }) (s.actChans n) s else s
  let s := s.setPair (SEQ_CYCLE_LO.addr n) (cyc + 1)
  (s.put (SEQ_PC.ADDR n) a.pc).put (SEQ_PC.HALF n) (s.execHalf n)

/-- A fault stop at the microinstruction at PC, which issues no vector (R150, R154). -/
def State.faultStop (s : State) (n reason : Nat) : State :=
  let s := (s.put (SEQ_PC.ADDR n) (s.act n).pc).put (SEQ_PC.HALF n) (s.execHalf n)
  let s := s.setAct n { s.act n with prog := .none }
  s.fixStop n (s.issued n) reason

/-- The next microinstruction chosen; the current one is over (R156 step 5). -/
def State.goto (s : State) (n pc : Nat) : State := s.setAct n { s.act n with pc := pc % 65536, prog := .none }

/-- PC + 1 (R157). -/
def State.pcNext (s : State) (n : Nat) : Nat := ((s.act n).pc + 1) % 65536

/-! ## The prefetcher (R142, R143, R175) -/

/-- Entry b of an act's block table (Table 8-2): ADDR, NVEC, RECBYTES, VALID. -/
def State.blockEntry (s : State) (n b : Nat) : Nat × Nat × Nat × Bool :=
  let base := s.fld (SEQ_BLOCK_TABLE.BASE n) * 131072 + 32 * b
  (leNat (s.dramBytes base 8), leNat (s.dramBytes (base + 8) 4), leNat (s.dramBytes (base + 12) 2),
    bitOf (leNat (s.dramBytes (base + 14) 1)) 0)

/-- Whether a block's entry is a host error (R143, R301; Table 8-2): records outside DRAM or across a partition of another
kind, an ADDR that is not 256-byte aligned, no vectors. -/
def State.blockMisplaced (s : State) (addr nvec recB : Nat) : Bool :=
  decide (addr % 256 ≠ 0 ∨ nvec = 0) || s.misplaced 1 addr (nvec * recB)

/-- Whether the act's block table lies across a partition of another kind, which is a host error (R301). -/
def State.tableMisplaced (s : State) (n : Nat) : Bool := s.misplaced 0 (s.fld (SEQ_BLOCK_TABLE.BASE n) * 131072) 131072

/-- A block reached: its entry checked and the CALL_BLOCK marked (R142, R143). -/
def State.checkBlock (s : State) (n b : Nat) : PfBlock :=
  let pr := s.blockEntry n b
  let addr := pr.1
  let nvec := pr.2.1
  let recB := pr.2.2.1
  let valid := pr.2.2.2
  if s.tableMisplaced n then ⟨b, 0, 0, 0xFF, 0, none⟩
  else if 4096 ≤ b ∨ !valid then ⟨b, 0, 0, 0x07, 0, none⟩
  else if recB ≠ s.recBytes n then ⟨b, addr, nvec, 0x08, 0, none⟩
  else if s.blockMisplaced addr nvec recB then ⟨b, addr, nvec, 0xFF, 0, none⟩
  else ⟨b, addr, nvec, 0, 0, none⟩

/-- The READY bit of the half that a SWAP of half `half` goes to (R139). -/
def State.swapReady (s : State) (n half : Nat) : Bool :=
  if half = 0 then s.flag (SEQ_CTRL.READY_B n) else s.flag (SEQ_CTRL.READY_A n)

/-- Whether a microinstruction is a conditional flow (Table 9-8); a SWAP is one while its destination is not READY. -/
def State.isConditional (s : State) (n half w : Nat) : Bool :=
  match uFlow w with
  | 0x01 => decide (uCsel w % 128 ≠ 0)
  | 0x07 | 0x08 | 0x09 | 0x0A => true
  | 0x0C => !s.swapReady n half
  | _ => false

/-- One microinstruction followed by the prefetcher; none where it stops: 4096 vectors ahead, at a conditional flow, at
which it then waits, a HALT, a stack fault, a marked block or one whose records are still to come (R142, R175). -/
def State.pfStep (s : State) (n : Nat) : Option State :=
  let a := s.act n
  let w := s.uword n a.pfHalf a.pfPc
  let nxt := (a.pfPc + 1) % 65536
  let one := a.pfLead + 1
  let busy : Bool := match a.prefetch.getLast? with | some p => decide (p.have_ < p.nvec ∨ p.mark ≠ 0) | none => false
  if a.pfWait ∨ busy ∨ 4096 ≤ a.pfLead then none
  else if s.isConditional n a.pfHalf w then some (s.setAct n { a with pfWait := true })
  else match uFlow w with
    | 0x00 | 0x0D => some (s.setAct n { a with pfPc := nxt, pfLead := one })
    | 0x01 => some (s.setAct n { a with pfPc := nxt, pfLead := if uCsel w = 0 then a.pfLead + max 1 (uTarget w) else one })
    | 0x02 => some (s.setAct n { a with pfPc := uTarget w % 65536, pfLead := one })
    | 0x03 =>
      if 16 ≤ a.pfCalls.length then none
      else some (s.setAct n { a with
        pfPc := uTarget w % 65536, pfCalls := (nxt, a.pfLoops.length) :: a.pfCalls, pfLead := one })
    | 0x04 =>
      match a.pfCalls with
      | (r, d) :: cs => if a.pfLoops.length ≠ d then none else some (s.setAct n { a with pfPc := r, pfCalls := cs, pfLead := one })
      | [] => none
    | 0x05 =>
      if 8 ≤ a.pfLoops.length then none
      else some (s.setAct n { a with pfPc := nxt, pfLoops := (nxt, uTarget w) :: a.pfLoops, pfLead := one })
    | 0x06 =>
      match a.pfLoops with
      | (st, c) :: ls =>
        if 1 < c then some (s.setAct n { a with pfPc := st, pfLoops := (st, c - 1) :: ls, pfLead := one })
        else some (s.setAct n { a with pfPc := nxt, pfLoops := ls, pfLead := one })
      | [] => none
    | 0x0B => some (s.setAct n { a with pfPc := nxt, prefetch := a.prefetch ++ [s.checkBlock n (uTarget w)] })
    | 0x0C => some (s.setAct n { a with
        pfPc := uTarget w % 65536, pfHalf := 1 - a.pfHalf, pfCalls := [], pfLoops := [], swapFollowed := a.swapFollowed + 1
        pfLead := one })
    | _ => none

/-- The prefetcher runs ahead as far as it can go; `k` bounds the microinstructions (R142). -/
def State.pfRun (n : Nat) : Nat → State → State
  | 0, s => s
  | k + 1, s =>
    match s.pfStep n with
    | none => s
    | some s' => State.pfRun n k s'

/-- More microinstructions than the prefetcher follows at a stretch: each takes it one vector ahead but for the last. -/
def pfFuel : Nat := 4100

/-- The prefetcher restarts where the sequencer stands: after a conditional flow has executed (R142). -/
def State.pfResume (s : State) (n : Nat) : State :=
  let a := s.act n
  State.pfRun n pfFuel (s.setAct n { a with
    pfPc := a.pc, pfHalf := s.execHalf n, pfCalls := a.calls, pfLoops := a.loops, prefetch := [], pfWait := false
    pfLead := 0, swapFollowed := 0 })

/-- A conditional flow has executed: the next vector is the first after it (R143), and the prefetcher goes on. -/
def State.condDone (s : State) (n : Nat) : State :=
  (s.setAct n { s.act n with condT := some (s.nextIssue n) }).pfResume n

/-- Whether the prefetch fill of a start is complete (R147). -/
def State.pfFull (s : State) (n : Nat) : Bool :=
  decide (4096 ≤ (s.act n).pfLead) ||
    (match (s.act n).prefetch.getLast? with
     | some p => decide (p.mark ≠ 0 ∨ p.nvec ≤ p.have_)
     | none => true)

/-- One vector issued; the prefetcher goes on as its buffer empties. -/
def State.issue (s : State) (n w blk : Nat) (trial : Option Nat) : State := State.pfRun n pfFuel (s.issueVec n w blk trial)

/-! ## Executing a microinstruction -/

/-- The microinstruction at PC. -/
def State.microWord (s : State) (n : Nat) : Nat := s.uword n (s.execHalf n) (s.act n).pc

/-- The frame of every FLOW row: the act can issue, the word at PC has this FLOW opcode, holds no reserved code, and in
timed mode its timing set is valid (R121, R158). A word with a reserved code is a host error of the act whichever row meets
it (R158, R9). -/
def microStep (flow n : Nat) (s : State) (k : Nat → State → State) : Res :=
  if !s.canIssue n then .next s
  else
    let w := s.microWord n
    if uFlow w ≠ flow ∧ uFlow w ≤ 0x0E then .next s
    else if uReserved w then .next (s.disturbAct n)
    else if s.timed n ∧ !s.flag (TMG_PERIOD_HI.VALID n (uTset w)) then .next (s.faultStop n 0x0A)
    else .next (k w s)

/-- RMOP, one vector, the APG operations: steps 1 to 3 of R156 for a microinstruction that issues one vector. -/
def State.oneVector (s : State) (n w : Nat) : State := ((s.rmop n (uRmop w)).issue n w 0 none).apgStep n w

end Sys2Proof.Machine
end

