-- ==== Sys2Proof/Machine/FailOps.lean ====
section
/-! DEFINITION. What the fail processor does with one vector's results, but for the region-queue push (10, R178-R191):
the compare, counters, first fail, ring actions, the fail log and the bitmap. -/

namespace Sys2Proof.Machine

/-- Bits of CAPT (Table 9-2). -/
def captCmp (capt : Nat) : Bool := bitOf capt 5
def captLog (capt : Nat) : Bool := bitOf capt 4
def captMap (capt : Nat) : Bool := bitOf capt 3
def captRq (capt : Nat) : Bool := bitOf capt 2
def captMark (capt : Nat) : Bool := bitOf capt 1
def captApply (capt : Nat) : Bool := bitOf capt 0

/-- Whether a full symbol expects a comparator state (Table 7-2). -/
def symExpects (sym : Nat) : Bool := decide (sym = 4 ∨ sym = 5 ∨ sym = 6 ∨ sym = 8 ∨ sym = 9 ∨ sym = 10)

/-- Whether a raw state (2 CH + CL) is one that the symbol expects; state I fails every expecting symbol (R178). -/
def symPasses (sym raw : Nat) : Bool :=
  match sym with
  | 4 | 9 => decide (raw = 1)
  | 5 | 10 => decide (raw = 2)
  | 6 => decide (raw = 0)
  | 8 => decide (raw = 1 ∨ raw = 2)
  | _ => true

/-- One failing compare: channel, UI, symbol, when it was strobed, whether its strobe was missing, its frame was lost, it
came from drive-verify. -/
structure FailCmp where
  chan : Nat
  ui : Nat
  sym : Nat
  time : Nat
  missing : Bool
  lost : Bool
  verify : Bool
deriving DecidableEq, Repr

/-- The raw state in a result (Table 6-5), where both comparators were sampled. -/
def resRaw (r : Nat) : Option Nat := if bitOf r 0 then some (r / 2 % 4) else none

/-- Whether a result fails its symbol (R178, R179): a drive-verify by the raw state alone. -/
def resFails (sym r : Nat) : Bool :=
  match resRaw r with
  | some raw => !symPasses sym raw || (bitOf r 3 && decide (sym < 9))
  | none => false

/-- The failing compares of a vector in ascending UI and channel (R178, R179, R196; R18 for a lost frame); a channel that was
parked at its verify point is not verified (R103). -/
def Flight.fails (f : Flight) : List FailCmp :=
  f.exp.filterMap (fun (k, e) =>
    let sym := e - 1
    let r := Tab.get (fun _ => 0) f.res k
    let t := Tab.get (fun _ => 0) f.times k - 1
    if !symExpects sym ∨ bitOf r 6 then none
    else if bitOf r 5 then some ⟨k % 1024, k / 1024, sym, t, false, true, false⟩
    else if bitOf r 4 then some ⟨k % 1024, k / 1024, sym, t, true, false, false⟩
    else if resFails sym r then some ⟨k % 1024, k / 1024, sym, t, false, false, decide (9 ≤ sym)⟩
    else none)

/-- The failing compares of a ring, lowest channel first (R182). -/
def State.ringFails (s : State) (g : Nat) (fs : List FailCmp) : List FailCmp :=
  (s.ringChans g).flatMap (fun c => fs.filter (fun f => decide (f.chan = c)))

/-- The strobe time of the earliest failing compare (R183). -/
def firstStrobe (fs : List FailCmp) : Nat :=
  match fs with
  | [] => 0
  | f :: gs => gs.foldl (fun t g => if after t g.time then g.time else t) f.time

/-- Step 1 of R182: PIN_FAILCNT of a failing channel, once per failing compare, saturating. -/
def State.countPin (s : State) (c : Nat) : State :=
  s.setPair (PIN_FAILCNT_LO.addr c) (satN 64 (s.pair (PIN_FAILCNT_LO.addr c) + 1))

/-- Step 3 of R182: the first fail of the ring since the start (R183). -/
def State.firstFail (s : State) (g : Nat) (v : Vec) (fs : List FailCmp) : State :=
  if s.flag (FAIL_STATUS.FIRST_VALID g) then s
  else
    let s := (s.put (FAIL_STATUS.FIRST_VALID g) 1).setPair (FAIL_FIRST_CYCLE_LO.addr g) v.cycle
    let s := s.setPair (FAIL_FIRST_TIME_LO.addr g) (firstStrobe fs)
    let s := s.setPair (FAIL_FIRST_ADDR_LO.addr g) (v.x + 2 ^ 24 * v.z + 2 ^ 32 * v.y)
    s.setReg (FAIL_FIRST_PIN.addr g)
      (BitVec.ofNat 32 ((minOf (fs.map (·.chan))).getD 0 + 65536 * satN 16 fs.length))

/-- A ring benched by a recorded fail of vector F; the last ring makes the fail stop ALL_BENCHED (R184, R135). -/
def State.benchByFail (s : State) (n g F : Nat) : State :=
  let a := s.act n
  let bit : BitVec 64 := BitVec.ofNat 64 (2 ^ g)
  let b := a.bench ||| bit
  let s := s.setAct n { a with bench := b, benchFail := a.benchFail ||| bit }
  let s := s.put (FAIL_STATUS.BENCHED g) 1
  if a.loaded &&& ~~~b = 0 then s.failStop n F 0x05 else s

/-- The whistle action of a ring (R185): 1 STOP, 2 PARK. -/
def State.ringWhistle (s : State) (n g F kind : Nat) (stops : Bool) : State :=
  match (s.act n).show_ with
  | some sh =>
    let s := s.whistleCalled { wn := 0, kind := kind, show_ := sh, origin := 0, ring := g, cause := 1 }
    let ns := (s.showActs sh)
    s.deliverTo kind sh 0 0 (if kind = 1 ∧ stops then ns.filter (fun m => decide (m ≠ n)) else ns)
  | none => if kind = 1 then s.failStop n F 0x04 else s.abortAct 0x0F n

/-- Step 4 of R182: the ring's actions at the first recorded fail that leaves FAIL_COUNT at THRESH or above (R184).
Whether they were taken is the second result. -/
def State.ringAction (s : State) (n g F : Nat) : State × Bool :=
  let th := s.fld (FAIL_CFG.THRESH g)
  let bench := s.flag (FAIL_CFG.BENCH g)
  let stop := s.flag (FAIL_CFG.STOP g)
  let wh := s.fld (FAIL_CFG.WHISTLE g)
  if th = 0 ∨ (bench = false ∧ stop = false ∧ wh = 0) ∨ s.flag (FAIL_STATUS.ACTION g) ∨ s.pair (FAIL_COUNT_LO.addr g) < th then (s, false)
  else
    let s := (s.put (FAIL_STATUS.ACTION g) 1).event 32 1
      (g + 256 * b2n bench + 512 * b2n stop + 1024 * b2n (decide (wh ≠ 0))) 0 (F % 2 ^ 32) (F / 2 ^ 32)
    let s := if bench then s.benchByFail n g F else s
    let s := if stop then s.failStop n F 0x04 else s
    (if wh = 1 ∨ wh = 2 then s.ringWhistle n g F wh stop else s, true)

/-! ## The fail log (R186-R189) -/

/-- The mask of a record (R187): bit m * U + u, padded to a multiple of 32 bytes. -/
def State.failMask (s : State) (g : Nat) (fs : List FailCmp) : List Byte :=
  let ms := s.ringChans g
  let u := (s.ring g).uis
  let bits := fs.foldl (fun acc f => acc ||| 2 ^ ((ms.idxOf f.chan) * u + f.ui)) 0
  leBytes ((ms.length * u + 255) / 256 * 32) bits

/-- The log buffer after it has drained up to time `t`, at 0.2 TB/s: 125 bytes in 4096 fines (R189). -/
def State.drainLog (s : State) (t : Nat) : State :=
  let e := elapsed 64 t s.logTime
  if e = 0 then s else (s.withLogBuf (s.logBuf - e * 125)).withLogTime (t % 2 ^ 64)

/-- The fail log record (Table 10-1). -/
def State.logRecord (s : State) (g : Nat) (v : Vec) (fs : List FailCmp) (idx : Nat) (first acted unmapped : Bool) : List Byte :=
  let msk := if s.flag (FAIL_LOG_POLICY.MASK_EN g) then
      (s.fld (FAIL_MASK_BASE.BASE g) * 4096 + idx * (s.failMask g fs).length) / 32
    else 0xFFFFFFFF
  let info := satN 16 fs.length + 65536 * g +
    2 ^ 24 * b2n (fs.any (·.verify)) + 2 ^ 25 * b2n (fs.any (·.missing)) +
    2 ^ 26 * b2n (fs.any (·.lost)) + 2 ^ 27 * b2n (s.ring g).gap + 2 ^ 28 * b2n unmapped + 2 ^ 29 * b2n first +
    2 ^ 30 * b2n acted
  leBytes 8 (firstStrobe fs) ++ leBytes 8 v.cycle ++ leBytes 4 (v.x + 2 ^ 24 * v.z) ++ leBytes 4 v.y ++ leBytes 4 msk ++ leBytes 4 info

/-- A record written at index `idx` of the log ring (1 past the last wraps), with the fail masks `msk` beside it, and the
index moved on (R188, R189). -/
def State.logWrite (s : State) (g : Nat) (v : Vec) (fs : List FailCmp) (idx : Nat) (msk : List Byte)
    (first acted unmapped : Bool) : State :=
  let rec_ := s.logRecord g v fs idx first acted unmapped
  let s := s.withLogBuf (s.logBuf + 4096 * (32 + msk.length))
  let s := s.dramPut (s.fld (FAIL_LOG_BASE.BASE g) * 4096 + 32 * idx) rec_
  let s := if msk = [] then s else s.dramPut (s.fld (FAIL_MASK_BASE.BASE g) * 4096 + idx * msk.length) msk
  let s := s.setRing g { s.ring g with gap := false }
  if s.flag (FAIL_LOG_POLICY.POLICY g) ∧ s.fld (FAIL_LOG_SIZE.SIZE g) ≤ idx + 1 then
    (s.put (FAIL_LOG_WR.INDEX g) 0).put (FAIL_LOG_WR.WRAPPED g) 1
  else s.put (FAIL_LOG_WR.INDEX g) (idx + 1)

/-- A record dropped because the log buffer is full (R189). -/
def State.logDrop (s : State) (g : Nat) : State :=
  ((s.bump (FAIL_LOG_DROP.RATE g)).put (FAIL_STATUS.LOG_GAP g) 1).setRing g { s.ring g with gap := true }

/-- Step 5 of R182: one fail log record (R186-R189). -/
def State.logFail (s : State) (g : Nat) (v : Vec) (fs : List FailCmp) (first acted unmapped : Bool) : State :=
  let size := s.fld (FAIL_LOG_SIZE.SIZE g)
  let s := s.drainLog v.time
  let idx := s.fld (FAIL_LOG_WR.INDEX g)
  let msk := if s.flag (FAIL_LOG_POLICY.MASK_EN g) then s.failMask g fs else []
  if size = 0 then s
  else if s.flag (FAIL_LOG_POLICY.POLICY g) = false ∧ size ≤ idx then
    (s.bump (FAIL_LOG_DROP.FULL g)).put (FAIL_STATUS.LOG_FULL g) 1
  else if 4096 * 262144 < s.logBuf + 4096 * (32 + msk.length) then s.logDrop g
  else
    let s := if size ≤ idx then s.put (FAIL_LOG_WR.WRAPPED g) 1 else s
    let s := if s.flag (FAIL_LOG_WR.WRAPPED g) then s.bump (FAIL_LOG_DROP.FULL g) else s
    s.logWrite g v fs (if size ≤ idx then 0 else idx) msk first acted unmapped

/-! ## The bitmap (R190, R191) -/

/-- Whether the widths of FAIL_BITMAP_CFG are ones the manual defines (R190, Table 10-14). -/
def State.mapWidthsOk (s : State) (g : Nat) : Bool :=
  decide (12 ≤ s.mapBits g ∧ s.mapBits g ≤ 38 ∧ s.fld (FAIL_BITMAP_CFG.XBITS g) ≤ 24 ∧ s.fld (FAIL_BITMAP_CFG.YBITS g) ≤ 24 ∧
    s.fld (FAIL_BITMAP_CFG.ZBITS g) ≤ 8 ∧ s.fld (FAIL_BITMAP_CFG.DBITS g) ≤ 6)

/-- The DRAM address of a ring's dirty-tile map and of its cleared-tile map (R191). -/
def State.dirtyBase (s : State) (g : Nat) : Nat := s.mapBase g + 2 ^ s.mapBits g / 8
def State.clearedBase (s : State) (g : Nat) : Nat := s.dirtyBase g + s.tileMapBytes g

/-- One bit of DRAM, by byte address and bit number counted on from it. -/
def State.dramBit (s : State) (a i : Nat) : Bool := bitOf (Tab.get ramByte s.dram (a + i / 8)).toNat (i % 8)

/-- One bit of DRAM written. -/
def State.setDramBit (s : State) (a i : Nat) (b : Bool) : State :=
  s.dramPut (a + i / 8) [BitVec.ofNat 8 (setBit (Tab.get ramByte s.dram (a + i / 8)).toNat (i % 8) b)]

/-- The position of a channel in its act's channel order (R145). -/
def State.chanPos (s : State) (n c : Nat) : Nat := (s.actChans n).idxOf c

/-- The APG_PINSRC byte of a position (Table 8-24): KIND and BIT or VAL. -/
def State.pinSrc (s : State) (n p : Nat) : Nat × Nat :=
  let b := bitsOf (s.reg (APG_PINSRC.addr n (p / 4))).toNat (8 * (p % 4)) 8
  (b / 64, b % 64)

/-- The data bit d of a failing compare (R190); none where the channel's position is not of kind DATA. -/
def State.dataBit (s : State) (n : Nat) (f : FailCmp) : Option Nat :=
  match s.pinSrc n (s.chanPos n f.chan) with
  | (2, bit) => some ((bit + s.fld (APG_CFG.STRIDE n) * f.ui) % 64)
  | _ => none

/-- The cell of a failing compare (R190). -/
def State.cellOf (s : State) (n g : Nat) (v : Vec) (f : FailCmp) : Option Nat :=
  match s.dataBit n f with
  | some d =>
    let xb := s.fld (FAIL_BITMAP_CFG.XBITS g)
    let yb := s.fld (FAIL_BITMAP_CFG.YBITS g)
    let zb := s.fld (FAIL_BITMAP_CFG.ZBITS g)
    let db := s.fld (FAIL_BITMAP_CFG.DBITS g)
    some ((((v.z % 2 ^ zb) * 2 ^ yb + v.y % 2 ^ yb) * 2 ^ xb + v.x % 2 ^ xb) * 2 ^ db + d % 2 ^ db)
  | _ => none

/-- One cell set: an uncleared tile is written whole first; a cell that goes from 0 to 1 makes its tile dirty
(R191, R192). -/
def State.setCell (s : State) (g idx : Nat) : State :=
  let tile := idx / 4096
  let base := s.mapBase g
  let s := if s.dramBit (s.clearedBase g) tile then s
    else ((s.withDram (Tab.clearRange s.dram (base + 512 * tile) 512))).setDramBit (s.clearedBase g) tile true
  if s.dramBit base idx then s
  else
    let s := s.setDramBit base idx true
    if s.dramBit (s.dirtyBase g) tile then s
    else (s.setDramBit (s.dirtyBase g) tile true).put (FAIL_TILE_STATUS.DIRTY g) (s.fld (FAIL_TILE_STATUS.DIRTY g) + 1)

/-- Step 6 of R182: the fails ORed into the ring's bitmap. -/
def State.mapFails (s : State) (n g : Nat) (v : Vec) (fs : List FailCmp) : State :=
  fs.foldl (fun s f => match s.cellOf n g v f with | some i => s.setCell g i | none => s) s

/-- Whether a fail of the vector has no data bit, so that it is not mapped and makes no push (R190, R201). -/
def State.unmapped (s : State) (n : Nat) (v : Vec) (fs : List FailCmp) : Bool :=
  (captMap v.capt || captRq v.capt) && fs.any (fun f => (s.dataBit n f).isNone)

/-- Whether an area of a ring is one that a host error misplaces: across a partition of another kind (R301), or over an area
of another ring that has an act (R197). -/
def State.areaBad (s : State) (g kind : Nat) (x : Nat × Nat) : Bool :=
  s.misplaced kind x.1 x.2 ||
    (List.range 64).any (fun h =>
      decide (h ≠ g) && (s.ringAreas h).any (fun y => rangesMeet x.1 x.2 y.1 y.2) && (s.ringAct h).isSome)

/-- The bitmap of a ring with its two maps. -/
def State.mapArea (s : State) (g : Nat) : Nat × Nat := (s.mapBase g, 2 ^ s.mapBits g / 8 + 2 * s.tileMapBytes g)

/-- The bitmap of a ring at a start with ACCUM = 0 (R191): every tile uncleared, no tile dirty. Reserved widths make no
bitmap (R190); maps that a host error places are free (R197, R301). -/
def State.clearMap (s : State) (g : Nat) : State :=
  let s := if !s.mapWidthsOk g then s
    else if s.areaBad g 2 (s.mapArea g) then s.freeArea (s.mapArea g)
    else s.withDram (Tab.clearRange s.dram (s.dirtyBase g) (2 * s.tileMapBytes g))
  (s.put (FAIL_TILE_STATUS.DIRTY g) 0).put (FAIL_TILE_STATUS.CLEARING g) 1

/-- What the fail processor keeps of a ring, cleared at a start of its act (R152, R182, Table 10-4). -/
def State.clearRing (s : State) (g : Nat) : State :=
  let s := (s.setPair (FAIL_COUNT_LO.addr g) 0).setPair (FAIL_FIRST_CYCLE_LO.addr g) 0
  let s := (s.setPair (FAIL_FIRST_TIME_LO.addr g) 0).setPair (FAIL_FIRST_ADDR_LO.addr g) 0
  let s := ((s.setReg (FAIL_FIRST_PIN.addr g) 0).setReg (FAIL_LOG_WR.addr g) 0).setReg (FAIL_LOG_DROP.addr g) 0
  let s := s.setReg (FAIL_STATUS.addr g) (BitVec.ofNat 32 ((s.reg (FAIL_STATUS.addr g)).toNat &&& 0x140))
  let n := (s.ringAct g).getD 0
  let s := s.setRing g { s.ring g with gap := false, members := (s.ringChans g).length, uis := s.uis n }
  if s.flag (FAIL_BITMAP_CFG.ACCUM g) then s else s.clearMap g

end Sys2Proof.Machine
end

