-- ==== Sys2Proof/Machine/HostOps.lean ====
section
/-! DEFINITION. Command queues and completions (18, R328-R333): what a queue holds, starting a command at the head of its
queue, its outcome, and the completions written. -/

namespace Sys2Proof.Machine

/-! ## Queues -/

/-- Commands fetched and not completed (HOST_Q_STATUS.INFLIGHT). -/
def QueueSt.inflight (x : QueueSt) : Nat := x.waiting.length + x.started.length + x.cut.length + x.done.length + x.dups.length

/-- Whether the completion ring of a queue has room (R328). -/
def State.cqRoom (s : State) (q : Nat) : Bool :=
  decide ((s.fld (HOST_Q_CQ_TAIL.TAIL q) + 1) % 1024 ≠ s.fld (HOST_Q_CQ_HEAD.HEAD q))

/-- Whether a completion waits for room: the queue then fetches nothing (R328). -/
def State.cqFull (s : State) (q : Nat) : Bool := decide ((s.queue q).done ≠ []) && !s.cqRoom q

/-- Commands submitted and not yet fetched. -/
def State.unfetched (s : State) (q : Nat) : Nat :=
  (s.fld (HOST_Q_SQ_TAIL.TAIL q) + 1024 - s.fld (HOST_Q_SQ_HEAD.HEAD q)) % 1024

/-- Whether a queue may fetch its next command now, as far as it alone goes (R328, Table 18-7). -/
def State.canFetch (s : State) (q : Nat) : Bool :=
  s.flag (HOST_Q_CFG.EN q) && decide (0 < s.unfetched q) && !s.cqFull q && decide ((s.queue q).inflight < 1024)

/-- Whether a queue holds an unfetched command that can start: none of it waits to start before (R329). -/
def State.fetchFirst (s : State) (q : Nat) : Bool := s.canFetch q && decide ((s.queue q).waiting = [])

/-- HOST_Q_STATUS (Table 18-12). -/
def State.queueStatus (s : State) (q : Nat) : Nat :=
  let x := s.queue q
  2 ^ 31 * b2n (s.flag (HOST_Q_CFG.EN q) || decide (x.started ≠ [] ∨ x.cut ≠ [])) + 2 ^ 30 * b2n (s.cqFull q) +
    2 ^ 29 * b2n (decide (x.waiting ≠ [])) + x.inflight

/-- Whether an opcode is defined (Table 18-5). -/
def opcodeOk (op : Nat) : Bool :=
  decide (op ≤ 2) || decide (0x10 ≤ op ∧ op ≤ 0x13) || decide (0x20 ≤ op ∧ op ≤ 0x23) || decide (0x30 ≤ op ∧ op ≤ 0x32) ||
    decide (op = 0x40 ∨ op = 0x41) || decide (0x50 ≤ op ∧ op ≤ 0x52) || decide (op = 0x60)

/-- Whether an opcode is SAFE-capable (Table 18-5). -/
def opcodeSafe (op : Nat) : Bool := decide (op ≤ 2 ∨ op = 0x40 ∨ op = 0x41 ∨ op = 0x60)

/-! ## Completions -/

/-- A completion as it is written (Table 18-4). -/
def State.complBytes (s : State) (q : Nat) (o : Compl) : List Byte :=
  leBytes 8 o.id ++ leBytes 1 o.status ++ leBytes 1 (s.fld (HOST_Q_CQ_TAIL.PHASE q) + 2 * b2n o.dup) ++
    leBytes 2 (s.fld (HOST_Q_SQ_HEAD.HEAD q)) ++ leBytes 1 q ++ leBytes 3 0 ++ leBytes 8 o.result ++
    leBytes 8 (o.at_.getD s.time.toNat)

/-- The last `n` elements of a list. -/
def lastN {α : Type} (n : Nat) (xs : List α) : List α := xs.drop (xs.length - n)

/-- One outcome written as a completion (R328, R331): the CQ tail advances, PHASE inverts at the wrap, the window keeps it
with its TIME, the vector is raised where asked for; duplicates that waited for it follow. What a RESET_BOOT has ended stays
out of the window, which that has cleared. -/
def State.writeCompl (s : State) (q : Nat) (o : Compl) : State :=
  let t := s.fld (HOST_Q_CQ_TAIL.TAIL q)
  let o := { o with at_ := some (o.at_.getD s.time.toNat) }
  let s := s.hostPut (s.pair (HOST_Q_CQ_BASE_LO.addr q) + 32 * t) (s.complBytes q o)
  let s := s.put (HOST_Q_CQ_TAIL.TAIL q) ((t + 1) % 1024)
  let s := if t = 1023 then s.put (HOST_Q_CQ_TAIL.PHASE q) (1 - s.fld (HOST_Q_CQ_TAIL.PHASE q)) else s
  let x := s.queue q
  let s := s.setQueue q { x with
    done := x.done.drop 1 ++ x.dupsOf o
    dups := x.dupsBut o.id
    window := if o.dup ∨ o.keep = false then x.window else lastN 4096 (x.window ++ [o]) }
  if o.irq then s.raiseVec (s.fld (HOST_Q_CFG.VEC q)) else s

/-- The outcome at the head of a queue's list written, if there is one, the completion ring has room and DMA to the host
is on (R327, R328). -/
def State.complNext (s : State) (q : Nat) : State :=
  match (s.queue q).done with
  | [] => s
  | o :: _ => if s.cqRoom q ∧ !s.d3hot then s.writeCompl q o else s

/-- Whether every act of a mask is STOPPED. -/
def State.actsStopped (s : State) (mask : Nat) : Bool := (bitList mask 16 0).all (fun n => decide (s.actState n = 0))

/-- A started ACT_WAIT whose acts are all STOPPED finishes (Table 18-5); an empty mask has no lowest act, and its result is
free. -/
def State.actWaitDone (s : State) (q : Nat) : State :=
  match (s.running_ q).find? (fun c => decide (c.opcode = 0x23) && s.actsStopped (argOf c 0)) with
  | some c =>
    (match bitList (argOf c 0) 16 0 with
     | n :: _ => s.finish q c.id.toNat 0 (s.fld (SEQ_STATUS.STOP_REASON n))
     | [] => s.takeFree.finish q c.id.toNat 0 s.free.toNat)
  | none => s

/-- RESULT of ACT_START: the acts of a mask whose start was refused, neither accepted nor queued. -/
def State.startsRefused (s : State) (mask : Nat) : Nat :=
  ((bitList mask 16 0).map (fun n =>
    if s.fld (SEQ_STATUS.START_RESULT n) = 0 ∨ s.fld (SEQ_STATUS.START_RESULT n) = 0x0A then 0 else 2 ^ n)).sum

/-- A started ACT_START none of whose acts is still to be checked finishes (Table 18-5). -/
def State.actStartDone (s : State) (q : Nat) : State :=
  match (s.running_ q).find? (fun c =>
      decide (c.opcode = 0x20) && (bitList (argOf c 0) 16 0).all (fun n => !s.startPending n)) with
  | some c => s.finish q c.id.toNat 0 (s.startsRefused (argOf c 0))
  | none => s

/-! ## Starting a command (R329, R330) -/

/-- The command at the head of its queue with an id and an opcode, if it may start now: not in OFF or BOOT, and behind a
FENCE only when every earlier command of the queue has completed. -/
def State.headCmd (s : State) (q : Nat) (id : BitVec 64) (op : Nat) : Option HostCmd :=
  match (s.queue q).waiting with
  | [] => none
  | c :: _ =>
    let x := s.queue q
    let fence : Bool := bitOf c.flags.toNat 1 && decide (x.started ≠ [] ∨ x.cut ≠ [] ∨ x.done ≠ [])
    if c.id = id ∧ c.opcode.toNat = op ∧ s.mode ≠ .off ∧ s.mode ≠ .boot ∧ fence = false then some c else none

/-- The head command moved to the started ones. -/
def State.startHead (s : State) (q : Nat) : State :=
  let x := s.queue q
  match x.waiting with
  | [] => s
  | c :: r =>
    s.setQueue q { x with
      waiting := r, started := x.started ++ [c], waits := x.waits.filter (fun e => decide (e.1 ≠ c.id.toNat)) }

/-- Whether a command moves data to or from host memory by DMA (Table 18-5). -/
def opcodeDma (op : Nat) : Bool :=
  decide (op = 1 ∨ op = 2) || decide (0x10 ≤ op ∧ op ≤ 0x13) || decide (op = 0x41 ∨ op = 0x50 ∨ op = 0x51 ∨ op = 0x60)

/-- The descriptors of the DMA engines in use: one by each command that moves host data and runs (Table 18-7; DESIGN CHOICE,
notes/assumptions/17.md). -/
def State.dmaUse (s : State) : Nat :=
  ((List.range 8).map (fun q => (s.running_ q).countP (fun c => opcodeDma c.opcode.toNat))).sum

/-- Whether the DMA engines, 16 with 64 descriptors each, take a command (R329, Table 18-7). -/
def State.dmaTakes (s : State) (op : Nat) : Bool := !opcodeDma op || decide (s.dmaUse < 1024)

/-- The frame of every command row: the head command of the queue starts, where its resource and the DMA engines accept it
(`ready`), and its effect is `k`; in SAFE a command that is not SAFE-capable ends with MODE_SAFE (R329, R330). -/
def cmdStart (q : Nat) (id : BitVec 64) (op : Nat) (ready : HostCmd → State → Bool) (k : HostCmd → State → State)
    (s : State) : Res :=
  match s.headCmd q id op with
  | none => .next s
  | some c =>
    if s.mode = .safe ∧ opcodeSafe op = false then .next (s.endWaiting q c ((s.queue q).waiting.drop 1) 3)
    else if s.dmaTakes op && ready c s then .next (k c (s.startHead q))
    else .next s

/-- No resource to wait for. -/
def always : HostCmd → State → Bool := fun _ _ => true

end Sys2Proof.Machine
end

