-- ==== Sys2Proof/Machine/RqOps.lean ====
section
/-! DEFINITION. Region queues and repair analysis (11): the region map, pushes, the must-repair rule, the backlog, clears
and the exact search of FINALIZE with its records. -/

namespace Sys2Proof.Machine

/-! ## Queues (R198, R199) -/

/-- The first queue of a ring and the number of its queues. -/
def State.ringQueue (s : State) (g : Nat) : Nat := s.fld (RQ_MAP_CFG.CHUNK_BASE g) * 4096
def State.ringQueues (s : State) (g : Nat) : Nat := s.fld (RQ_MAP_CFG.CHUNK_CNT g) * 4096

/-- The descriptor of a queue. -/
def State.desc (s : State) (q : Nat) : RqDesc := Tab.get (fun _ => {}) s.rq.descs q

/-- The descriptor of a queue stored. -/
def State.setDesc (s : State) (q : Nat) (d : RqDesc) : State :=
  s.withRq { s.rq with descs := Tab.set (fun _ => {}) s.rq.descs q d }

/-- The three words of a descriptor (Table 11-2). -/
def RqDesc.words (d : RqDesc) : Word × Word × Word :=
  (BitVec.ofNat 32 (d.count + 2 ^ 8 * satN 4 d.mustr + 2 ^ 12 * satN 4 d.mustc + 2 ^ 16 * d.typ + 2 ^ 20 * b2n d.dirty +
      2 ^ 21 * b2n (decide (0 < d.mustr + d.mustc)) + 2 ^ 22 * b2n d.sat + 2 ^ 23 * b2n d.unrep),
   BitVec.ofNat 32 d.pushes, BitVec.ofNat 32 d.first)

/-- A queue entry (Table 11-1). -/
structure RqEntry where
  row : Nat
  col : Nat
  bank : Nat
  mustr : Bool
  mustc : Bool
  flags : Nat
  hits : Nat
deriving DecidableEq, Repr

/-- The eight bytes of an entry. -/
def RqEntry.word (e : RqEntry) : Nat :=
  e.row + 2 ^ 20 * e.col + 2 ^ 36 * e.bank + 2 ^ 44 * b2n e.mustr + 2 ^ 45 * b2n e.mustc + 2 ^ 46 * (e.flags % 4) +
    2 ^ 48 * e.hits + 2 ^ 56 * (e.flags / 4) + 2 ^ 63

/-- The entry that eight bytes spell. -/
def RqEntry.ofWord (w : Nat) : RqEntry :=
  { row := bitsOf w 0 20, col := bitsOf w 20 16, bank := bitsOf w 36 8, mustr := bitOf w 44, mustc := bitOf w 45,
    flags := bitsOf w 46 2 + 4 * bitsOf w 56 1, hits := bitsOf w 48 8 }

/-- The entry's row line and column line (R201). -/
def RqEntry.rline (e : RqEntry) : Nat × Nat := (e.bank, e.row)
def RqEntry.cline (e : RqEntry) : Nat × Nat := (e.bank, e.col)

/-- The DRAM address of entry i of a queue (R199). -/
def State.entryAddr (s : State) (q i : Nat) : Nat := s.partBase 0 + 512 * q + 8 * i

/-- The valid entries of a queue, in order. -/
def State.entries (s : State) (q : Nat) : List RqEntry :=
  (List.range (s.desc q).count).map (fun i => RqEntry.ofWord (leNat (s.dramBytes (s.entryAddr q i) 8)))

/-- The valid entries of a queue written. -/
def State.putEntries (s : State) (q : Nat) (es : List RqEntry) : State :=
  s.dramPut (s.entryAddr q 0) (es.flatMap (fun e => leBytes 8 e.word))

/-- Spare rows and spare columns of a region type. -/
def State.spares (s : State) (t : Nat) : Nat × Nat := (s.fld (RQ_TYPE.SPARE_ROWS t), s.fld (RQ_TYPE.SPARE_COLS t))

/-! ## The region map (R200) -/

/-- f(pos, wid) of R200. -/
def mapField (w pos wid : Nat) : Nat := bitsOf w pos wid

/-- The queue, row, column and bank of a fail at data bit d of a vector's addresses, and r. -/
def State.regionMap (s : State) (g : Nat) (v : Vec) (d : Nat) : Nat × Nat × Nat × Nat × Nat :=
  let w := v.x + 2 ^ 24 * v.y + 2 ^ 48 * v.z + 2 ^ 56 * d
  let rl := s.fld (RQ_MAP_REGION.LO_WID g)
  let cl := s.fld (RQ_MAP_COL.LO_WID g)
  let r := mapField w (s.fld (RQ_MAP_REGION.HI_POS g)) (s.fld (RQ_MAP_REGION.HI_WID g)) * 2 ^ rl +
    mapField w (s.fld (RQ_MAP_REGION.LO_POS g)) rl
  let row := mapField w (s.fld (RQ_MAP_ROW.ROW_POS g)) (s.fld (RQ_MAP_ROW.ROW_WID g))
  let col := mapField w (s.fld (RQ_MAP_COL.HI_POS g)) (s.fld (RQ_MAP_COL.HI_WID g)) * 2 ^ cl +
    mapField w (s.fld (RQ_MAP_COL.LO_POS g)) cl
  (r, s.ringQueue g + r, row, col, mapField w (s.fld (RQ_MAP_ROW.BANK_POS g)) (s.fld (RQ_MAP_ROW.BANK_WID g)))

/-- Whether the widths of a ring's region map are ones R200 allows. -/
def State.mapOk (s : State) (g : Nat) : Bool :=
  decide (s.fld (RQ_MAP_REGION.LO_WID g) + s.fld (RQ_MAP_REGION.HI_WID g) ≤ 20 ∧
    s.fld (RQ_MAP_COL.LO_WID g) + s.fld (RQ_MAP_COL.HI_WID g) ≤ 16 ∧
    s.fld (RQ_MAP_ROW.ROW_WID g) ≤ 20 ∧ s.fld (RQ_MAP_ROW.BANK_WID g) ≤ 8 ∧
    s.fld (RQ_MAP_REGION.LO_POS g) + s.fld (RQ_MAP_REGION.LO_WID g) ≤ 62 ∧
    s.fld (RQ_MAP_REGION.HI_POS g) + s.fld (RQ_MAP_REGION.HI_WID g) ≤ 62 ∧
    s.fld (RQ_MAP_COL.LO_POS g) + s.fld (RQ_MAP_COL.LO_WID g) ≤ 62 ∧
    s.fld (RQ_MAP_COL.HI_POS g) + s.fld (RQ_MAP_COL.HI_WID g) ≤ 62 ∧
    s.fld (RQ_MAP_ROW.ROW_POS g) + s.fld (RQ_MAP_ROW.ROW_WID g) ≤ 62 ∧
    s.fld (RQ_MAP_ROW.BANK_POS g) + s.fld (RQ_MAP_ROW.BANK_WID g) ≤ 62)

/-! ## Must-repair (R205, R206) -/

/-- The distinct values of a list, in order of first appearance. -/
def distinct {α : Type} [DecidableEq α] : List α → List α
  | [] => []
  | x :: xs => x :: (distinct xs).filter (fun y => decide (y ≠ x))

/-- Step 1 of R205: the row lines that become must-repair with SC - mc column spares free, fewer than none after a cut of
RQ_TYPE. -/
def newRows (es : List RqEntry) (free : Int) : List (Nat × Nat) :=
  (distinct ((es.filter (fun e => !e.mustr)).map RqEntry.rline)).filter (fun l =>
    decide (free < es.countP (fun e => !e.mustr && !e.mustc && decide (e.rline = l))))

/-- Step 2 of R205: the column lines that become must-repair with SR - mr row spares free. -/
def newCols (es : List RqEntry) (free : Int) : List (Nat × Nat) :=
  (distinct ((es.filter (fun e => !e.mustc)).map RqEntry.cline)).filter (fun l =>
    decide (free < es.countP (fun e => !e.mustr && !e.mustc && decide (e.cline = l))))

/-- MUSTR or MUSTC set in every entry of new lines. -/
def markRows (ls : List (Nat × Nat)) (e : RqEntry) : RqEntry := { e with mustr := e.mustr || decide (e.rline ∈ ls) }
def markCols (ls : List (Nat × Nat)) (e : RqEntry) : RqEntry := { e with mustc := e.mustc || decide (e.cline ∈ ls) }

/-- Whether a region has more must-repair lines than spares (R205). -/
def RqDesc.beyond (d : RqDesc) (sr sc : Nat) : Bool := decide (sr < d.mustr ∨ sc < d.mustc)

/-- The two steps of R205 repeated until neither adds a line; `fuel` bounds the rounds (each adds a line). -/
def mustRepair (sr sc : Nat) : Nat → RqDesc × List RqEntry → RqDesc × List RqEntry
  | 0, p => p
  | fuel + 1, (d, es) =>
    let rs := newRows es ((sc : Int) - d.mustc)
    let d := { d with mustr := d.mustr + rs.length }
    let es := es.map (markRows rs)
    if d.beyond sr sc then ({ d with unrep := true, ended := true }, es)
    else
      let cs := newCols es ((sr : Int) - d.mustr)
      let d := { d with mustc := d.mustc + cs.length }
      let es := es.map (markCols cs)
      if d.beyond sr sc then ({ d with unrep := true, ended := true }, es)
      else if rs = [] ∧ cs = [] then (d, es)
      else mustRepair sr sc fuel (d, es)

/-! ## Applying a push (R203) -/

/-- The entry of a push's row, column and bank with one more hit and the push's flags; none if there is none. -/
def mergeEntry (p : Push) : List RqEntry → Option (List RqEntry)
  | [] => none
  | e :: es =>
    if e.row = p.row ∧ e.col = p.col ∧ e.bank = p.bank then
      some ({ e with hits := min 255 (e.hits + 1), flags := e.flags ||| p.flags } :: es)
    else (mergeEntry p es).map (fun es' => e :: es')

/-- The steps of R203 on a descriptor and its entries. -/
def pushStep (sr sc : Nat) (p : Push) (d : RqDesc) (es : List RqEntry) : RqDesc × List RqEntry :=
  let d := { d with pushes := satN 32 (d.pushes + 1) }
  if d.sat then (d, es)
  else if es.any (fun e => (e.mustr && decide (e.rline = (p.bank, p.row))) || (e.mustc && decide (e.cline = (p.bank, p.col)))) then
    (d, es)
  else
    let r : RqDesc × List RqEntry :=
      match mergeEntry p es with
      | some es' => (d, es')
      | none =>
        if d.count < 64 then
          ({ d with count := d.count + 1 }, es ++ [⟨p.row, p.col, p.bank, false, false, p.flags, 1⟩])
        else ({ d with sat := true, unrep := true }, es)
    let r := if r.1.ended ∨ r.1.sat then r else mustRepair sr sc 130 r
    if r = (d, es) then r else ({ r.1 with dirty := true }, r.2)

/-- One push applied to its queue: TYPE and FIRST_CYCLE are loaded at the first push (Table 11-2); a region that becomes
UNREPAIRABLE is counted (Table 11-18). -/
def State.applyPush (s : State) (p : Push) : State :=
  let d0 := s.desc p.q
  let d := if d0.pushes = 0 then { d0 with typ := s.fld (RQ_MAP_CFG.TYPE p.ring), first := p.cycle % 2 ^ 32 } else d0
  let pr := s.spares d.typ
  let sr := pr.1
  let sc := pr.2
  let pr := pushStep sr sc p d (s.entries p.q)
  let d' := pr.1
  let es := pr.2
  let s := (s.setDesc p.q d').putEntries p.q es
  if d'.unrep ∧ !d0.unrep then s.put (RQ_RING_STATUS.UNREP p.ring) (s.fld (RQ_RING_STATUS.UNREP p.ring) + 1) else s

/-! ## The push buffer and the backlog (R207-R209) -/

/-- RQ_STATUS.BACKLOG and the warning of R209 after the backlog has changed. -/
def State.backlogLevel (s : State) : State :=
  let n := s.rq.backlog.length
  let old := s.fld RQ_STATUS.BACKLOG
  let lvl := s.fld RQ_CTRL.BL_WARN * 1024
  let s := s.put RQ_STATUS.BACKLOG n
  if old < lvl ∧ lvl ≤ n ∧ !s.rq.warned then (s.withRq { s.rq with warned := true }).event 11 2
  else if s.rq.warned ∧ 2 * n < lvl then s.withRq { s.rq with warned := false }
  else s

/-- The bytes of a spilled push: the manual gives no layout, so 16 free bytes (DESIGN CHOICE, notes/assumptions/23.md). -/
def State.spillBytes (s : State) : State :=
  let bs := leBytes 8 s.free.toNat
  let s := s.takeFree
  let bs := bs ++ leBytes 8 s.free.toNat
  s.takeFree.dramPut (s.partBase 1 + 16 * (s.rq.spilled % 65536)) bs

/-- The oldest pushes of the buffer spilled into the backlog; `n` bounds them. -/
def State.spillGo : Nat → State → State
  | 0, s => s
  | n + 1, s =>
    match s.rq.buf with
    | [] => s
    | p :: ps =>
      if 65536 ≤ s.rq.backlog.length then s
      else
        let s := s.spillBytes
        State.spillGo n (s.withRq { s.rq with
          buf := ps, backlog := s.rq.backlog ++ [p], spilled := s.rq.spilled + 1 })

/-- What the buffer spills up to time t, at one push in 4,096 fines from its first waiting push on (R207: 1.6 x 10^9
pushes/s). -/
def State.spillTo (s : State) (t : Nat) : State :=
  let e := elapsed 64 t s.rq.time
  if e = 0 then s
  else
    let k := e / 4096
    let s := State.spillGo (min 4096 k) s
    let idle := decide (s.rq.buf = [] ∨ 65536 ≤ s.rq.backlog.length)
    (s.withRq { s.rq with time := (if idle then t else s.rq.time + 4096 * k) % 2 ^ 64 }).backlogLevel

/-- A push of ring g lost (R208): the first since the last clear sets LOST, raises RQ_LOST and requests the fail stop. -/
def State.losePush (s : State) (n : Nat) (p : Push) : State :=
  let s := s.bump (RQ_RING_LOST.COUNT p.ring)
  if s.flag (RQ_RING_STATUS.LOST p.ring) then s
  else
    let s := (s.put (RQ_RING_STATUS.LOST p.ring) 1).event 11 1 p.ring 0 (p.cycle % 2 ^ 32) (p.cycle / 2 ^ 32)
    s.failStop n p.cycle 0x06

/-- A push enters the push buffer, or is lost (R207, R208). -/
def State.enterPush (s : State) (n : Nat) (p : Push) : State :=
  if s.flag (RQ_RING_STATUS.LOST p.ring) ∨ 4096 ≤ s.rq.buf.length ∨ 65536 ≤ s.rq.backlog.length then s.losePush n p
  else (s.withRq { s.rq with buf := s.rq.buf ++ [p] }).bump (RQ_RING_PUSH.COUNT p.ring)

/-- Pushes with the same queue, row, column and bank made one (R202). -/
def mergePush (p : Push) : List Push → List Push
  | [] => [p]
  | x :: xs =>
    if x.q = p.q ∧ x.row = p.row ∧ x.col = p.col ∧ x.bank = p.bank then { x with flags := x.flags ||| p.flags } :: xs
    else x :: mergePush p xs

/-- Step 7 of R182: the vector's fails of ring g as pushes (R200-R202). A reserved map, or a region outside the ring's chunks,
leaves the ring's queues free (R200). -/
def State.rqPush (s : State) (n g : Nat) (v : Vec) (fs : List FailCmp) : State :=
  if s.fld (RQ_MAP_CFG.CHUNK_CNT g) = 0 then s
  else if !s.mapOk g then s.disturbQueues g
  else
    let ds := fs.filterMap (fun f => (s.dataBit n f).map (fun d => (f, s.regionMap g v d)))
    if ds.any (fun x => decide (s.ringQueues g ≤ x.2.1)) then s.disturbQueues g
    else
      let ps := ds.foldl (fun acc (f, _, q, row, col, bank) =>
        mergePush ⟨g, q, row, col, bank,
          b2n f.missing + 2 * b2n f.lost + 4 * b2n f.verify, v.cycle⟩ acc) []
      ps.foldl (fun s p => s.enterPush n p) (s.spillTo v.time)

/-! ## Uncorrectable errors in descriptors and queues (16, R291, Table 16-2) -/

/-- A region made SATURATED and UNREPAIRABLE by an uncorrectable error in its queue. -/
def State.spoilRegion (s : State) (g q : Nat) : State :=
  let d := s.desc q
  let s := s.setDesc q { d with sat := true, unrep := true }
  if d.unrep then s else s.put (RQ_RING_STATUS.UNREP g) (s.fld (RQ_RING_STATUS.UNREP g) + 1)

/-- What the ECC finds on the read of a descriptor. -/
def State.descEcc (s : State) (q : Nat) (ecc : Ecc) : State :=
  match ecc with
  | .clean => s
  | .ce => s.eccCe false
  | .ue => (s.eccUe 2 (12 * q)).setDesc q { sat := true, unrep := true }

/-- An error that waited in the descriptor SRAM or the pool met by a consumer: reported again, and over once `k` has acted. -/
def State.meetUpset (s : State) (e : Nat × Nat) (k : State → State) : State :=
  k ((s.withRq { s.rq with upset := s.rq.upset.filter (fun x => decide (x ≠ e)) }).eccUe e.1 e.2)

/-- A descriptor read where errors wait in its words. -/
def State.settleDesc (s : State) (q : Nat) : State :=
  (s.rq.upset.filter (fun e => decide (e.1 = 2) && rangesMeet e.2 8 (12 * q) 12)).foldl
    (fun s e => s.meetUpset e (fun s => s.setDesc q { sat := true, unrep := true })) s

/-- The entries of a queue read where errors wait in them. -/
def State.settleEntries (s : State) (g q : Nat) : State :=
  (s.rq.upset.filter (fun e => decide (e.1 = 4) && rangesMeet e.2 8 (s.entryAddr q 0) (8 * (s.desc q).count))).foldl
    (fun s e => s.meetUpset e (fun s => s.spoilRegion g q)) s

/-- A queue of ring g read: its descriptor, then its entries. -/
def State.settle (s : State) (g q : Nat) : State := (s.settleDesc q).settleEntries g q

/-- The queues in whose words an error lies. -/
def State.upsetQueues (s : State) (e : Nat × Nat) : List Nat :=
  if e.1 = 2 then distinct [e.2 / 12, (e.2 + 7) / 12] else [(e.2 - s.partBase 0) / 512]

/-- Every queue of a ring read (FINALIZE). -/
def State.settleRing (s : State) (g : Nat) : State :=
  State.each (fun q s => s.settle g q)
    ((s.rq.upset.flatMap s.upsetQueues).filter (fun q => decide (s.ringQueue g ≤ q ∧ q < s.ringQueue g + s.ringQueues g))) s

/-! ## Clearing (R210) -/

/-- A ring's queues cleared and its waiting pushes discarded. -/
def State.clearQueues (s : State) (g : Nat) : State :=
  let keep : Push → Bool := fun p => decide (p.ring ≠ g)
  let s := s.withRq { s.rq with
    descs := Tab.clearRange s.rq.descs (s.ringQueue g) (s.ringQueues g),
    buf := s.rq.buf.filter keep, backlog := s.rq.backlog.filter keep
    upset := s.rq.upset.filter (fun e => !rangesMeet e.2 8 (12 * s.ringQueue g) (12 * s.ringQueues g) || decide (e.1 ≠ 2)) }
  let s := ((s.setReg (RQ_RING_STATUS.addr g) 0).setReg (RQ_RING_LOST.addr g) 0).setReg (RQ_RING_PUSH.addr g) 0
  s.backlogLevel

/-! ## FINALIZE (R212-R215) -/

/-- The search of R213 over the entries on no must-repair line: the best allocation so far and the nodes. -/
def repairTry (sr sc : Nat) : List RqEntry → List (Nat × Nat) → List (Nat × Nat) →
    Option (List (Nat × Nat) × List (Nat × Nat)) × Nat → Option (List (Nat × Nat) × List (Nat × Nat)) × Nat
  | [], rows, cols, (best, nodes) =>
    let better : Bool := match best with
      | none => true
      | some (r, c) => decide (rows.length + cols.length < r.length + c.length)
    (if better then some (rows, cols) else best, nodes)
  | e :: es, rows, cols, st =>
    if e.rline ∈ rows ∨ e.cline ∈ cols then repairTry sr sc es rows cols st
    else
      let n := rows.length + cols.length + 1
      let worth : Option (List (Nat × Nat) × List (Nat × Nat)) → Bool := fun b => match b with
        | none => true
        | some (r, c) => decide (n < r.length + c.length)
      let st := if rows.length < sr ∧ worth st.1 = true then repairTry sr sc es (rows ++ [e.rline]) cols (st.1, st.2 + 1) else st
      if cols.length < sc ∧ worth st.1 = true then repairTry sr sc es rows (cols ++ [e.cline]) (st.1, st.2 + 1) else st

/-- Lexicographic order of pairs. -/
def pairLt (a b : Nat × Nat) : Bool := decide (a.1 < b.1 ∨ (a.1 = b.1 ∧ a.2 < b.2))

/-- An element put into a sorted list. -/
def insertSorted {α : Type} (lt : α → α → Bool) (x : α) : List α → List α
  | [] => [x]
  | y :: ys => if lt x y then x :: y :: ys else y :: insertSorted lt x ys

/-- A list sorted; equal elements keep their order. -/
def sortBy {α : Type} (lt : α → α → Bool) (xs : List α) : List α := xs.foldl (fun acc x => insertSorted lt x acc) []

/-- Entries in the order (bank, row, col). -/
def entryLt (a b : RqEntry) : Bool := pairLt a.rline b.rline || (decide (a.rline = b.rline) && decide (a.col < b.col))

/-- A REGION record (Table 11-3). -/
def regionRecord (g q rows cols nodes : Nat) (lost : Bool) (d : RqDesc) : List Byte :=
  leBytes 4 (2 ^ 28 + 2 ^ 26 * b2n lost + 2 ^ 25 * b2n d.sat + 2 ^ 24 * b2n d.unrep + 2 ^ 20 * d.typ + q) ++
  leBytes 4 (2 ^ 24 * g + 2 ^ 20 * satN 4 d.mustc + 2 ^ 16 * satN 4 d.mustr + 2 ^ 12 * satN 4 cols + 2 ^ 8 * satN 4 rows + d.count) ++
  leBytes 4 nodes ++ leBytes 4 d.pushes

/-- A LINE record (Table 11-4). -/
def lineRecord (q k : Nat) (col must : Bool) (l : Nat × Nat) (n : Nat) : List Byte :=
  leBytes 4 (2 * 2 ^ 28 + 2 ^ 24 * b2n must + 2 ^ 23 * b2n col + 2 ^ 20 * k + q) ++
  leBytes 4 (2 ^ 20 * l.1 + l.2) ++ leBytes 4 n ++ leBytes 4 0

/-- The LINE records of rows or columns in ascending (bank, address) order, spare indices from `k` on. -/
def lineRecords (q : Nat) (col : Bool) (es : List RqEntry) (must : List (Nat × Nat)) : Nat → List (Nat × Nat) → List (List Byte)
  | _, [] => []
  | k, l :: ls =>
    lineRecord q k col (decide (l ∈ must)) l
      (es.countP (fun e => decide ((if col then e.cline else e.rline) = l))) :: lineRecords q col es must (k + 1) ls

/-- One region finalized: its records; the region's new state (R213, R214). DIRTY is cleared where its record is `written`. -/
def State.finalizeRegion (s : State) (g q : Nat) (written : Bool) : State × List (List Byte) :=
  let d := s.desc q
  let es := s.entries q
  let lost := s.flag (RQ_RING_STATUS.LOST g)
  let pr := s.spares d.typ
  let sr := pr.1
  let sc := pr.2
  let mr := distinct ((es.filter (·.mustr)).map RqEntry.rline)
  let mc := distinct ((es.filter (·.mustc)).map RqEntry.cline)
  let u := sortBy entryLt (es.filter (fun e => !e.mustr && !e.mustc))
  let st := if d.unrep then (none, d.nodes) else repairTry (sr - d.mustr) (sc - d.mustc) u [] [] (none, 0)
  match st.1 with
  | none =>
    let d' := { d with unrep := true, dirty := d.dirty && !written, nodes := st.2 }
    let s := s.setDesc q d'
    let s := if d.unrep then s else s.put (RQ_RING_STATUS.UNREP g) (s.fld (RQ_RING_STATUS.UNREP g) + 1)
    (s, [regionRecord g q d.mustr d.mustc st.2 lost d'])
  | some (rs, cs) =>
    let d' := { d with dirty := d.dirty && !written }
    let rows := sortBy pairLt (mr ++ rs)
    let cols := sortBy pairLt (mc ++ cs)
    (s.setDesc q d', regionRecord g q rows.length cols.length st.2 lost d' ::
      (lineRecords q false es mr 0 rows ++ lineRecords q true es mc 0 cols))

/-- The regions of a ring that a FINALIZE finalizes, in ascending order (R212). -/
def State.finalizeList (s : State) (f : RqFin) : List Nat :=
  let lo := s.ringQueue f.ring
  let hi := lo + s.ringQueues f.ring
  (s.rq.descs.filter (fun e => decide (lo ≤ e.1 ∧ e.1 < hi ∧ (0 < e.2.count ∨ e.2.sat = true)) &&
    (!f.dirtyOnly || e.2.dirty))).map (·.1)

/-- Regions finalized in turn: the state, the records and the number of UNREPAIRABLE regions among them; `room` records are
written (R214). -/
def State.finalizeGo (g room : Nat) : List Nat → State × List (List Byte) × Nat → State × List (List Byte) × Nat
  | [], r => r
  | q :: qs, (s, recs, un) =>
    let pr := s.finalizeRegion g q (decide (recs.length < room))
    let s := pr.1
    let rs := pr.2
    State.finalizeGo g room qs (s, recs ++ rs, un + b2n (s.desc q).unrep)

/-- The END record (Table 11-5). -/
def endRecord (g written un unwritten : Nat) (abandoned : Bool) : List Byte :=
  leBytes 4 (3 * 2 ^ 28 + 2 ^ 27 * b2n abandoned + g) ++ leBytes 4 written ++ leBytes 4 un ++ leBytes 4 unwritten

/-- RQ_FINALIZE and RQ_STATUS report the end of a FINALIZE, and the event (R214, R215). -/
def State.finalizeReport (s : State) (ring result records un : Nat) : State :=
  let s := ((s.put RQ_FINALIZE.RESULT result).put RQ_FINALIZE.DONE 1).put RQ_STATUS.FINALIZING 0
  (s.withRq { s.rq with fin := none }).event 11 3 ring records un

/-- The records that the result area has room for, before its END record (R214). -/
def State.finalizeKept (s : State) (recs : List (List Byte)) : List (List Byte) := recs.take (s.fld RQ_RESULT_SIZE.SIZE - 1)

/-- A FINALIZE over a list of regions completed or abandoned: its records with END, RESULT, DONE and the event
(R212, R214, R215). A result area across a partition of another kind is a host error, which leaves it free (R301). -/
def State.finalizeEnd (s : State) (f : RqFin) (qs : List Nat) (abandoned : Bool) : State :=
  let pr := State.finalizeGo f.ring (s.fld RQ_RESULT_SIZE.SIZE - 1) qs (s, [], 0)
  let un := pr.2.2
  let kept := pr.1.finalizeKept pr.2.1
  let more := pr.2.1.length - kept.length
  let n := kept.length + 1
  let base := pr.1.fld RQ_RESULT_BASE.BASE * 4096
  let s := pr.1.dramPut base (kept ++ [endRecord f.ring n un more abandoned]).flatten
  let area := (base, 16 * pr.1.fld RQ_RESULT_SIZE.SIZE)
  let s := if s.misplaced 0 area.1 area.2 then s.freeArea area else s
  let s := s.finalizeReport f.ring (if abandoned then 4 else if f.none_ then 2 else if 0 < more then 3 else 0) n un
  match f.src with
  | some c => s.finish c.1 c.2 0 (n + 2 ^ 32 * un)
  | none => s

/-- Whether a push of the ring waits in the buffer or the backlog. -/
def State.pushWaits (s : State) (g : Nat) : Bool := (s.rq.backlog ++ s.rq.buf).any (fun p => decide (p.ring = g))

/-- A running FINALIZE of ring g abandoned by a start that clears (R212): how many regions it has visited by then is a
free value (DESIGN CHOICE, notes/assumptions/24.md), none while it still waits for pushes. -/
def State.abandonFinalize (s : State) (g : Nat) : State :=
  match s.rq.fin with
  | none => s
  | some f =>
    if f.ring ≠ g then s
    else
      let qs := if s.pushWaits g then [] else s.finalizeList f
      let k := s.free.toNat % (qs.length + 1)
      s.takeFree.finalizeEnd f (qs.take k) true

/-- A start of ring g's act as the region queues see it (R210, R212). -/
def State.rqStart (s : State) (g : Nat) : State :=
  if s.flag (RQ_MAP_CFG.ACCUM g) then s else (s.abandonFinalize g).clearQueues g

/-- Whether ring g's act executes. -/
def State.ringExecuting (s : State) (g : Nat) : Bool :=
  match s.ringAct g with
  | some n => s.executing n
  | none => false

/-- A CLEAR of ring g asked for (R210): refused, or run. -/
def State.rqClearReq (s : State) (g : Nat) : State :=
  if s.ringExecuting g ∨ s.rq.fin.isSome ∨ s.flag RQ_STATUS.CLEARING then s.put RQ_STATUS.CLEAR_REFUSED 1
  else (s.clearQueues g).put RQ_STATUS.CLEARING 1

/-- A FINALIZE of ring g asked for (R212): refused with BUSY, or started; while the ring's act executes, which is a host
error, the ring's queues are left free. -/
def State.finalizeReq (s : State) (g : Nat) (dirtyOnly : Bool) : State :=
  if s.rq.fin.isSome ∨ s.flag RQ_STATUS.CLEARING then s.put RQ_FINALIZE.RESULT 1
  else
    let t := (s.put RQ_FINALIZE.DONE 0).put RQ_STATUS.FINALIZING 1
    let t := t.withRq { t.rq with fin := some { ring := g, dirtyOnly := dirtyOnly, none_ := decide (s.ringQueues g = 0) } }
    if s.ringExecuting g then t.disturbQueues g else t

/-- Partition 0 or 1 moved (R300): the queues of every ring are cleared and the backlog is emptied. -/
def State.clearAllQueues (s : State) : State :=
  let s := State.each (fun g s => s.clearQueues g) (List.range 64) s
  (s.withRq { s.rq with buf := [], backlog := [] }).backlogLevel

end Sys2Proof.Machine
end

