-- ==== Sys2Proof/Machine/TdcOps.lean ====
section
/-! DEFINITION. Stamps and measurement units (12, R216-R233). Times and stamps inside are in 1/64 fine. -/

namespace Sys2Proof.Machine

/-! ## Arithmetic -/

/-- The integer square root of a number below 2^(2 n), bit by bit. -/
def isqrt (v : Nat) : Nat → Nat → Nat
  | 0, r => r
  | n + 1, r => if (r + 2 ^ n) * (r + 2 ^ n) ≤ v then isqrt v n (r + 2 ^ n) else isqrt v n r

/-- A quotient to an integer next to it: the one or the other where it is not exact (DESIGN CHOICE, notes/assumptions/25.md). -/
def State.roundTo (s : State) (num : Int) (den : Nat) : Int × State :=
  if num % (den : Int) = 0 then (num / (den : Int), s)
  else (num / (den : Int) + (s.free.toNat % 2 : Nat), s.takeFree)

/-- A square root of num / den to an integer next to it. -/
def State.sqrtTo (s : State) (num den : Nat) : Nat × State :=
  let r := isqrt (num / max 1 den) 80 0
  if r * r * den = num then (r, s) else (r + s.free.toNat % 2, s.takeFree)

/-- A stamp in the format of R3: the nearest fine, halves up (R219); the count wraps. -/
def stampFines (x : Int) : Nat := ((x + 32) / 64 % 2 ^ 64).toNat

/-- How far an instant lies after another, both in 1/64 fine; the count wraps at 2^64 fines (R3), so one that lies at most 2^56
(171 s) before the other counts as before it, any other as after it (`elapsed`; DESIGN CHOICE, notes/assumptions/7.md). -/
def ahead (a b : Int) : Int :=
  let d := (a - b) % 2 ^ 70
  if d < 2 ^ 70 - 2 ^ 56 then d else d - 2 ^ 70

/-! ## Stamps (R216-R219) -/

/-- The number of a TDC: 2 channel, and 1 more for CL. -/
def tdcNum (c : Nat) (low : Bool) : Nat := 2 * c + b2n low

/-- Whether the time base is cold (R63). -/
def State.cold (s : State) : Bool := s.flag CLK_STATUS.TB_COLD

/-- Entry `code` of the table of an interpolator (R220, R273): in P_c / 32,768. -/
def Coef.tab (k : Coef) (low : Bool) (j code : Nat) : Nat :=
  match (k.tabs.getD (4 * b2n low + j) [])[code]? with
  | some t => t
  | none => 64 * code + 32

/-- T x P_c / 32,768 in 1/64 fine, to the nearest (R217, R219). -/
def State.finePart (s : State) (t : Nat) : Nat := (2 * t * 25600 + s.rootMhz) / (2 * s.rootMhz)

/-- PIN_HYST and PIN_HOLDOFF as they are in force at a channel (R102): as they stood at the last vector boundary while its act
executes, or at its start's acceptance. One whose act does not execute has no vector boundary, and
a write is in force there at once (DESIGN CHOICE, notes/assumptions/46.md). -/
def State.hystOf (s : State) (c : Nat) : Nat := if s.chanExecuting c then (s.chan c).hyst else (s.reg (PIN_HYST.addr c)).toNat
def State.holdOf (s : State) (c : Nat) : Nat := if s.chanExecuting c then (s.chan c).hold else (s.reg (PIN_HOLDOFF.addr c)).toNat

/-- A field of a word that the register of the field may hold. -/
def Field.ofWord (f : Field) (w : Nat) : Nat := bitsOf w f.lo f.len

/-- The hold-off of a comparator in 1/64 fine (R101). -/
def State.holdoff (s : State) (c : Nat) (low : Bool) : Nat :=
  4096 * (if low then PIN_HOLDOFF.HO_L c else PIN_HOLDOFF.HO_H c).ofWord (s.holdOf c)

/-- Whether a TDC stamps and counts (R216). -/
def State.tdcEnabled (s : State) (c : Nat) (low : Bool) : Bool :=
  if low then s.flag (PIN_TDC_CFG.EN_L c) else s.flag (PIN_TDC_CFG.EN_H c)

/-- Whether the TDCs of a channel are taken by a live pass: by its code-density run, or by a loopback input that its
comparators are on (R221, R264). -/
def State.tdcHeld (s : State) (c : Nat) : Bool :=
  match (s.die (c / 64)).pass with
  | some p => decide (p.chan = c) && ((bitOf p.groups 0 && p.tables.isNone) || p.lent)
  | none => false

/-- The comparator's output after a transition (R216), and for a strobe the level it stands at. -/
def ChanSt.output (x : ChanSt) (low rise : Bool) : ChanSt :=
  if low then { x with outL := !rise } else { x with outH := rise }

/-- Whether an interpolator accepts a transition at t: at least 8 x P_c after its previous one (R218). -/
def State.interReady (s : State) (d : TdcSt) (j t : Nat) : Bool :=
  match d.inter.getD j none with
  | some l => decide (8 * 13107200 * 64 ≤ ahead t l * (s.rootMhz : Int))
  | none => true

/-- One transition at its TDC, `arr` by the interpolator's table: counted; stamped where its interpolator is ready (R217-R219),
else counted in MISSED. The second result is its edge index and its stamp. -/
def State.stamp (s : State) (c : Nat) (low rise : Bool) (arr : Nat) : State × Nat × Option Int :=
  let n := tdcNum c low
  let d := s.tdc n
  let j := d.cnt % 4
  let e := { d with cnt := d.cnt + 1 }
  if s.interReady d j arr then
    let st : Int := (arr : Int) - s.cmpK64 c low - (s.chan c).active.iofs.getD (4 * b2n low + j) 0
    let e := { e with inter := (List.range 4).map (fun i => if i = j then some arr else d.inter.getD i none) }
    let k : Kept := { t := st, cold := s.cold }
    (s.setTdc n (if rise then { e with rise := some k } else { e with fall := some k }), d.cnt, some st)
  else (((s.setTdc n e).put (PIN_TDC_CFG.MISSED c) (satN 16 (s.fld (PIN_TDC_CFG.MISSED c) + 1))), d.cnt, none)

/-! ## Measurement units (R224-R229) -/

/-- A selector (Table 12-3): TDC, polarity, OCC. -/
def State.startSel (s : State) (c : Nat) : Nat × Nat × Nat :=
  (tdcNum (s.fld (PIN_TDC_START_SEL.CHANNEL c)) (s.flag (PIN_TDC_START_SEL.CMP c)), s.fld (PIN_TDC_START_SEL.POL c),
    s.fld (PIN_TDC_START_SEL.OCC c))
def State.stopSel (s : State) (c i : Nat) : Nat × Nat × Nat :=
  (tdcNum (s.fld (PIN_TDC_STOP_SEL.CHANNEL c i)) (s.flag (PIN_TDC_STOP_SEL.CMP c i)), s.fld (PIN_TDC_STOP_SEL.POL c i),
    s.fld (PIN_TDC_STOP_SEL.OCC c i))

/-- Whether a transition has a polarity (R216): 0 RISE, 1 FALL, 2 EITHER. -/
def polOk (pol : Nat) (rise : Bool) : Bool := decide (pol = 2) || decide (pol = b2n (!rise))

/-- The selectors that a measurement uses (Table 12-1): the start, then the stops. -/
def State.usedSels (s : State) (c : Nat) : List (Nat × Nat × Nat) :=
  let kind := s.fld (PIN_TDC_MEAS.KIND c)
  s.startSel c :: (if kind = 0 ∨ kind = 3 then (List.range (s.fld (PIN_TDC_MEAS.NSTOP c))).map (s.stopSel c) else [])

/-- The number of stops of a measurement (Table 12-1). -/
def TdcUnit.stopCount (u : TdcUnit) : Nat := if u.kind = 2 then 2 else if u.kind = 4 then 0 else u.nstop

/-- LIMIT x 10 ns in 1/64 fine. -/
def TdcUnit.limit64 (u : TdcUnit) : Nat := u.limit * 65536 * 64

/-- The unit armed at an instant, the time base cold or not: it counts starts, or its gate opens (R224, R225, R230). -/
def TdcUnit.armAt (u : TdcUnit) (cold : Bool) (t : Int) : TdcUnit :=
  { u with
    phase := if u.kind = 4 then .gate else .start
    armT := t, cnt := 0, start := none, stops := List.replicate u.stopCount none
    counts := List.replicate u.stopCount 0, near := [], kept := [], dlog := 0, cold := u.cold || (cold && decide (u.kind = 4)) }

/-- The next repetition arms at an instant, or all are done (R228). -/
def TdcUnit.nextRep (u : TdcUnit) (cold : Bool) (t : Int) : TdcUnit :=
  let u := { u with rep := u.rep + 1 }
  if 2 ^ u.avg ≤ u.rep then { u with phase := .complete }
  else if u.arm = 1 then { u with phase := .armMark }
  else u.armAt cold t

/-- The values of a repetition, by stop (Table 12-1): none where the stop is invalid, some none where it is valid and what it is
measured from is not. -/
def TdcUnit.values (u : TdcUnit) : List (Option (Option Int)) :=
  let st := u.stops.map (fun x => x.getD none)
  let from_ := if u.kind = 1 then u.start :: st else List.replicate st.length u.start
  (st.zip from_).map (fun x => match x with
    | (some a, some b) => some (some (ahead a b))
    | (some _, none) => some none
    | (none, _) => none)

/-- A value added to the sums of a stop. -/
def StopSum.add (a : StopSum) (v : Option (Option Int)) : StopSum :=
  match v with
  | some (some x) => { a with n := a.n + 1, sum := a.sum + x, sq := a.sq + x * x }
  | some none => { a with n := a.n + 1, bare := true }
  | none => a

/-- The end of a repetition at an instant (R228): its values join the sums. -/
def TdcUnit.endRep (u : TdcUnit) (cold : Bool) (t : Int) : TdcUnit :=
  let vs := u.values
  let sums := (List.range u.stopCount).map (fun i => (u.sums.getD i {}).add (vs.getD i none))
  ({ u with sums := sums, t0 := if u.t0.isSome then u.t0 else u.start } : TdcUnit).nextRep cold t

/-- Element `i` of a list replaced. -/
def setAt {α : Type} (xs : List α) (i : Nat) (x : α) : List α := xs.set i x

/-- The number of stops that are decided. -/
def TdcUnit.decided (u : TdcUnit) : Nat := u.stops.countP (fun x => x.isSome)

/-- Stop i decided by a transition: valid where it was stamped (R224, R232). -/
def TdcUnit.setStop (u : TdcUnit) (i : Nat) (stamp : Option Int) (cold : Bool) : TdcUnit :=
  { u with stops := setAt u.stops i (some stamp), missed := u.missed || stamp.isNone, cold := u.cold || (cold && stamp.isSome) }

/-- One stop taken by INTERVAL (R224): selector i counts a qualifying transition later than the start. -/
def TdcUnit.intervalStop (u : TdcUnit) (n : Nat) (rise : Bool) (stamp : Option Int) (t : Int) (cold : Bool) (i : Nat) : TdcUnit :=
  let sel := u.sels.getD (i + 1) (0, 0, 0)
  let later : Bool := match u.start with | some a => decide (0 < ahead t a) | none => false
  if sel.1 = n ∧ polOk sel.2.1 rise = true ∧ (u.stops.getD i none).isNone = true ∧ later = true then
    let k := u.counts.getD i 0 + 1
    let u := { u with counts := setAt u.counts i k }
    if k = sel.2.2 then u.setStop i stamp cold else u
  else u

/-- Of a SKEW stop's candidate so far and one more stamp, the one nearer the start within the window; the earlier of two at
equal distance (R226). -/
def nearer (start lim : Int) (a : Option Kept) (b : Kept) : Option Kept :=
  let d := |ahead b.t start|
  if lim < d then a
  else match a with
    | none => some b
    | some x => if d < |ahead x.t start| ∨ (d = |ahead x.t start| ∧ ahead b.t x.t < 0) then some b else a

/-- A stamp that may be stop i of SKEW. -/
def TdcUnit.skewStop (u : TdcUnit) (n : Nat) (rise : Bool) (stamp : Option Int) (cold : Bool) (i : Nat) : TdcUnit :=
  let sel := u.sels.getD (i + 1) (0, 0, 0)
  match stamp, u.start with
  | some t, some a =>
    if sel.1 = n ∧ polOk sel.2.1 rise = true then
      { u with near := setAt u.near i (nearer a u.limit64 (u.near.getD i none) { t := t, cold := cold }) }
    else u
  | _, _ => u

/-- A transition at a unit that takes stops (Table 12-1). -/
def TdcUnit.stopSeen (u : TdcUnit) (n : Nat) (rise : Bool) (stamp : Option Int) (t : Int) (cold : Bool) : TdcUnit :=
  let sel := u.sels.headD (0, 0, 0)
  match u.kind with
  | 0 => (List.range u.stopCount).foldl (fun u i => u.intervalStop n rise stamp t cold i) u
  | 1 => if sel.1 = n ∧ polOk sel.2.1 rise = true then u.setStop u.decided stamp cold else u
  | 2 => if sel.1 = n ∧ (u.decided = 0 ↔ polOk sel.2.1 rise = false) then u.setStop u.decided stamp cold else u
  | _ => (List.range u.stopCount).foldl (fun u i => u.skewStop n rise stamp cold i) u

/-- A qualifying transition at a unit that waits for its start (R224): the OCC-th is the start. A start that was not stamped
ends the repetition (DESIGN CHOICE, notes/assumptions/25.md). `lasts` are the stamps that the stops' TDCs retain (R226). -/
def TdcUnit.startSeen (u : TdcUnit) (stamp : Option Int) (t : Int) (cold : Bool) (lasts : List (Option Kept)) : TdcUnit :=
  let u := { u with cnt := u.cnt + 1 }
  if u.cnt ≠ (u.sels.headD (0, 0, 0)).2.2 then u
  else
    match stamp with
    | none => ({ u with missed := true } : TdcUnit).endRep cold t
    | some a => { u with
        phase := .stops, start := some a, cold := u.cold || cold
        near := lasts.map (fun x => x.bind (nearer a u.limit64 none)) }

/-- The pairs kept by FREQ with one more transition (R230), its stamp counted from the arming: at 65,536 stamps held the
decimation doubles. -/
def TdcUnit.keep (u : TdcUnit) (stamp : Option Int) : TdcUnit :=
  let n := u.cnt
  let u := { u with cnt := n + 1 }
  if n % 2 ^ u.dlog ≠ 0 then u
  else
    match stamp with
    | none => { u with missed := true }
    | some t =>
      let kept := u.kept ++ [(n, ahead t u.armT)]
      if 65536 ≤ kept.length then
        { u with kept := kept.filter (fun x => decide (x.1 % 2 ^ (u.dlog + 1) = 0)), dlog := u.dlog + 1 }
      else { u with kept := kept }

/-- A transition of TDC n seen by a unit (R224, R226, R230). -/
def TdcUnit.see (u : TdcUnit) (n : Nat) (rise : Bool) (stamp : Option Int) (t : Int) (cold : Bool)
    (lasts : List (Option Kept)) : TdcUnit :=
  let sel := u.sels.headD (0, 0, 0)
  let qual : Bool := decide (sel.1 = n) && polOk sel.2.1 rise && decide (0 ≤ ahead t u.armT)
  match u.phase with
  | .start => if qual then u.startSeen stamp t cold lasts else u
  | .stops =>
    if u.selects n then
      let u := u.stopSeen n rise stamp t cold
      if u.kind ≠ 3 ∧ u.decided = u.stopCount then u.endRep cold t else u
    else u
  | .gate => if qual then u.keep stamp else u
  | _ => u

/-! ## What a unit does at an instant of its own -/

/-- The instant that a unit waits for: its arm time (R225), the timeout of its start or stops (R227), the close of its window
(R226) or of its gate (R230). -/
def TdcUnit.deadline (u : TdcUnit) : Option Int :=
  match u.phase with
  | .armTime => some u.armT
  | .start => if u.kind ≤ 2 ∧ u.limit ≠ 0 then some (u.armT + u.limit64) else none
  | .stops => if u.kind = 3 ∨ u.limit ≠ 0 then u.start.map (fun a => a + u.limit64) else none
  | .gate => some (u.armT + u.limit64)
  | _ => none

/-- Whether the instant that a unit waits for lies before a transition at t: a start or a stop at the limit itself still
counts, a gate is closed there. -/
def TdcUnit.overdue (u : TdcUnit) (t : Int) : Bool :=
  match u.phase, u.deadline with
  | .armTime, some e => decide (e ≤ t)
  | .gate, some e => decide (0 ≤ ahead t e)
  | _, some e => decide (0 < ahead t e)
  | _, none => false

/-- The SKEW window closed: each stop decided, the repetition over (R226). -/
def TdcUnit.skewClose (u : TdcUnit) (cold : Bool) (t : Int) : TdcUnit :=
  let taken := u.near.filterMap id
  ({ u with
    stops := (List.range u.stopCount).map (fun i => some ((u.near.getD i none).map (·.t)))
    cold := u.cold || taken.any (·.cold), changed := u.changed || taken.any (·.old) } : TdcUnit).endRep cold t

/-- What happens to a unit at the instant that it waits for (R225, R226, R227, R230). -/
def TdcUnit.elapse (u : TdcUnit) (cold : Bool) (t : Int) : TdcUnit :=
  match u.phase with
  | .armTime => u.armAt cold t
  | .gate => u.nextRep cold t
  | .stops => if u.kind = 3 then u.skewClose cold t else ({ u with timeout := true } : TdcUnit).endRep cold t
  | .start => ({ u with timeout := true } : TdcUnit).endRep cold t
  | _ => u

/-- A unit brought up to a transition at t, through every repetition that ends before it. -/
def TdcUnit.upTo (cold : Bool) (t : Int) : Nat → TdcUnit → TdcUnit
  | 0, u => u
  | k + 1, u =>
    match (if u.overdue t then u.deadline else none) with
    | some e => TdcUnit.upTo cold t k (u.elapse cold e)
    | none => u

/-! ## Units in the state -/

/-- The later of two stamps. -/
def laterKept (a b : Option Kept) : Option Kept :=
  match a, b with
  | some x, some y => if 0 < ahead x.t y.t then a else b
  | some _, none => a
  | none, _ => b

/-- The last qualifying stamp that a selector's TDC retains (R226); `n` is the TDC of the transition at hand and `d` what it was
before it. -/
def State.lastStamp (s : State) (n : Nat) (d : TdcSt) (sel : Nat × Nat × Nat) : Option Kept :=
  let d := if sel.1 = n then d else s.tdc sel.1
  match sel.2.1 with
  | 0 => d.rise
  | 1 => d.fall
  | _ => laterKept d.rise d.fall

/-- A transition seen by every unit that is measuring; `d` is its TDC before it. -/
def State.unitsSee (s : State) (n : Nat) (d : TdcSt) (rise : Bool) (stamp : Option Int) (t : Int) : State :=
  s.withUnits (s.units.map (fun (c, u) =>
      (c, (TdcUnit.upTo s.cold t (2 ^ u.avg + 1) u).see n rise stamp t s.cold (u.sels.tail.map (s.lastStamp n d)))))

/-- The time base has become cold: every gate that is open has a cold part (R232). -/
def State.unitsCold (s : State) : State :=
  s.withUnits (s.units.map (fun (c, u) => (c, if u.phase = .gate then { u with cold := true } else u)))

/-- The instant that channel c's unit waits for has come. -/
def State.unitElapse (s : State) (c : Nat) : State :=
  match (s.mu c).deadline with
  | none => s
  | some e =>
    let s := s.at_ (e / 64 % 2 ^ 64).toNat
    s.setMu c ((s.mu c).elapse s.cold e)

/-- Whether any TDC of a measurement is held (R232). -/
def State.unitHeld (s : State) (u : TdcUnit) : Bool := u.sels.any (fun x => s.tdcHeld (x.1 / 2))

/-- A measurement begun or begun again: what its repetitions have gathered is void, and it arms by R225. -/
def State.tdcBegin (s : State) (c : Nat) : State :=
  let u := { s.mu c with
    rep := 0, sums := [], t0 := none, kept := [], dlog := 0, cold := false, timeout := false, missed := false, changed := false }
  s.setMu c (match u.arm with
    | 1 => { u with phase := .armMark }
    | 2 => if s.past u.armTime then u.armAt s.cold (64 * s.time.toNat : Nat) else { u with phase := .armTime, armT := (64 * u.armTime : Nat) }
    | _ => u.armAt s.cold (64 * s.time.toNat : Nat))

/-- Whether a START is one Table 12-2 refuses. -/
def State.tdcRefused (s : State) (c : Nat) : Bool :=
  let kind := s.fld (PIN_TDC_MEAS.KIND c)
  let lim := s.fld (PIN_TDC_LIMIT.LIMIT c)
  s.flag (PIN_TDC_STATUS.BUSY c) || (match s.mode with | .idle | .run => false | _ => true) ||
    (s.usedSels c).any (fun x => s.flag (PIN_CFG.UNUSED (x.1 / 2))) ||
    (decide (kind = 4) && !decide (100 ≤ lim ∧ lim ≤ 1000000000)) || (decide (kind = 3) && decide (lim = 0))

/-- Whether the fields of a measurement hold a reserved code (R6, Tables 12-1, 12-3, 12-5). -/
def State.tdcReserved (s : State) (c : Nat) : Bool :=
  let kind := s.fld (PIN_TDC_MEAS.KIND c)
  decide (5 ≤ kind ∨ s.fld (PIN_TDC_MEAS.ARM c) = 3 ∨ 12 < s.fld (PIN_TDC_MEAS.AVG_LOG2 c)) ||
    ((decide (kind = 0) || decide (kind = 1) || decide (kind = 3)) && decide (s.fld (PIN_TDC_MEAS.NSTOP c) = 0)) ||
    (s.usedSels c).any (fun x => decide (x.2.1 = 3 ∨ (x.2.2 = 0 ∧ kind = 0))) || decide ((s.startSel c).2.2 = 0 ∧ kind ≠ 4) ||
    (decide (kind = 2) && decide ((s.startSel c).2.1 = 2))

/-- A START of channel c's unit (R225, R232, Table 12-2). -/
def State.tdcStart (s : State) (c : Nat) : State :=
  if s.tdcRefused c then s.put (PIN_TDC_STATUS.REFUSED c) 1
  else if s.tdcReserved c then s.disturbChan c
  else
    let w := (s.reg (PIN_TDC_STATUS.addr c)).toNat
    let s := s.setReg (PIN_TDC_STATUS.addr c) (BitVec.ofNat 32 (setBit (setBits (setBits (setBits w 24 6 0) 21 2 0) 0 16 0) 30 false))
    let s := s.put (PIN_TDC_STATUS.BUSY c) 1
    let u : TdcUnit :=
      { phase := .release, kind := s.fld (PIN_TDC_MEAS.KIND c), arm := s.fld (PIN_TDC_MEAS.ARM c),
        nstop := s.fld (PIN_TDC_MEAS.NSTOP c), avg := s.fld (PIN_TDC_MEAS.AVG_LOG2 c), cont := s.flag (PIN_TDC_MEAS.CONT c),
        limit := s.fld (PIN_TDC_LIMIT.LIMIT c), armTime := s.pair (PIN_TDC_ARM_TIME_LO.addr c), sels := s.usedSels c }
    let s := s.setMu c u
    if s.unitHeld u then s.put (PIN_TDC_STATUS.STALE c) 1 else s.tdcBegin c

/-- A measurement ended without results (Table 12-2). -/
def State.tdcAbort (c : Nat) (s : State) : State :=
  if (s.mu c).phase = .idle then s
  else
    let s := s.setMu c {}
    let s := (((s.put (PIN_TDC_STATUS.BUSY c) 0).put (PIN_TDC_STATUS.DONE c) 1).put (PIN_TDC_STATUS.ABORTED c) 1).put (PIN_TDC_STATUS.STALE c) 0
    (s.put (PIN_TDC_STATUS.START_VALID c) 0).put (PIN_TDC_STATUS.STOP_VALID c) 0

/-- Every measurement ended (Table 12-2: entry to CAL, SAFE, BOOT or OFF, and a root change). -/
def State.tdcAbortAll (s : State) : State := State.each State.tdcAbort (s.units.map (·.1)) s

/-- Units whose TDC a live pass takes: the measurement is abandoned until the TDC is released (R232). -/
def State.tdcTake (s : State) : State :=
  State.each (fun c s =>
    let u := s.mu c
    if u.phase ≠ .idle ∧ u.phase ≠ .complete ∧ s.unitHeld u = true then
      (s.setMu c { u with phase := .release }).put (PIN_TDC_STATUS.STALE c) 1
    else s) (s.units.map (·.1)) s

/-- Units that waited for a TDC which is released: their measurement begins (R232). -/
def State.tdcRelease (s : State) : State :=
  State.each (fun c s =>
    let u := s.mu c
    if u.phase = .release ∧ s.unitHeld u = false then (s.put (PIN_TDC_STATUS.STALE c) 0).tdcBegin c else s)
    (s.units.map (·.1)) s

/-- A marked vector of act n at the pins arms the units that wait for it (R225). -/
def State.tdcMark (s : State) (n t : Nat) : State :=
  State.each (fun c s =>
    let u := s.mu c
    if u.phase = .armMark ∧ s.actOfChan ((u.sels.headD (0, 0, 0)).1 / 2) = some n then
      s.setMu c (u.armAt s.cold (64 * t : Nat))
    else s) (s.units.map (·.1)) s

/-! ## Results (R228, R229, R231) -/

/-- INT[i] from the sums of a stop: the mean in 1/16 fine, saturated (R226, R228); a free value where one of its values has
none. -/
def State.intValue (s : State) (a : StopSum) : Int × Bool × State :=
  if a.n = 0 then (0, false, s)
  else if a.bare then ((s.free.toNat : Int), false, s.takeFree)
  else
    let pr := s.roundTo a.sum (4 * a.n)
    let v := pr.1
    let s := pr.2
    if v < -2147483648 then (-2147483648, true, s) else if 2147483647 < v then (2147483647, true, s) else (v, false, s)

/-- The INT registers written in turn; the second result says whether one saturated. -/
def State.writeInts (c : Nat) : List (Nat × StopSum) → State × Bool → State × Bool
  | [], r => r
  | (i, a) :: xs, (s, o) =>
    let pr := s.intValue a
    State.writeInts c xs (pr.2.2.setReg (PIN_TDC_INT.addr c i) (BitVec.ofInt 32 pr.1), o || pr.2.1)

/-- SDEV (R228): the standard deviation of INT[1], divisor n - 1, in 1/16 fine. -/
def State.sdev (s : State) (a : StopSum) : Nat × State :=
  if a.n < 2 then (0, s)
  else if a.bare then (s.free.toNat % 2 ^ 32, s.takeFree)
  else s.sqrtTo ((a.n : Int) * a.sq - a.sum * a.sum).toNat (16 * (a.n * (a.n - 1)))

/-- What follows a completion: DONE last; with CONT the whole measurement repeats, until CONT is written 0 (R228, R229). -/
def State.tdcDone (s : State) (c : Nat) : State :=
  let s := s.put (PIN_TDC_STATUS.DONE c) 1
  if (s.mu c).cont then
    if s.unitHeld (s.mu c) then (s.setMu c { s.mu c with phase := .release }).put (PIN_TDC_STATUS.STALE c) 1 else s.tdcBegin c
  else (s.setMu c {}).put (PIN_TDC_STATUS.BUSY c) 0

/-- The status flags of a completion. -/
def State.tdcFlags (s : State) (c : Nat) (u : TdcUnit) (overflow noSignal startValid : Bool) (stops : Nat) : State :=
  let s := (((s.putB (PIN_TDC_STATUS.TIMEBASE_COLD c) u.cold).putB (PIN_TDC_STATUS.TIMEOUT c) u.timeout).putB
    (PIN_TDC_STATUS.MISSED c) u.missed).putB (PIN_TDC_STATUS.TABLE_CHANGED c) u.changed
  let s := (s.putB (PIN_TDC_STATUS.OVERFLOW c) overflow).putB (PIN_TDC_STATUS.NO_SIGNAL c) noSignal
  (s.putB (PIN_TDC_STATUS.START_VALID c) startValid).put (PIN_TDC_STATUS.STOP_VALID c) stops

/-- The results of a completed measurement of kinds 0 to 3 written together (R229). -/
def State.tdcResult (s : State) (c : Nat) : State :=
  let u := s.mu c
  let s := s.setPair (PIN_TDC_T0_LO.addr c) (match u.t0 with | some t => stampFines t | none => 0)
  let sums := (List.range 15).map (fun i => (i, u.sums.getD i {}))
  let pr := State.writeInts c sums (s, false)
  let d := pr.1.sdev (u.sums.getD 0 {})
  let s := d.2.setReg (PIN_TDC_SDEV.addr c) (BitVec.ofNat 32 (satN 32 d.1))
  let stops := (sums.map (fun x => if 0 < x.2.n then 2 ^ x.1 else 0)).sum
  (s.tdcFlags c u pr.2 false u.t0.isSome stops).tdcDone c

/-- The sums of the least-squares fit over the kept pairs (R231): N, sum n, sum t, sum n n, sum n t, sum t t. -/
def fitSums (ps : List (Nat × Int)) : Nat × Int × Int × Int × Int × Int :=
  ps.foldl (fun (k, a, b, aa, ab, bb) (n, t) =>
    (k + 1, a + (n : Int), b + t, aa + (n : Int) * (n : Int), ab + (n : Int) * t, bb + t * t)) (0, 0, 0, 0, 0, 0)

/-- The FREQ results of one gate (R231): f in microhertz to the nearest, the residual in 1/16 fine; a slope that is not positive
has no frequency, and both are free values. The second result is NO_SIGNAL. -/
def State.freqFit (s : State) (c : Nat) (u : TdcUnit) : State × Bool :=
  let pr := fitSums u.kept
  let n := pr.1
  let a := pr.2.1
  let b := pr.2.2.1
  let aa := pr.2.2.2.1
  let ab := pr.2.2.2.2.1
  let bb := pr.2.2.2.2.2
  let sxx := (n : Int) * aa - a * a
  let sxy := (n : Int) * ab - a * b
  let syy := (n : Int) * bb - b * b
  let s := s.setReg (PIN_TDC_FREQ_N.addr c) (BitVec.ofNat 32 (u.dlog * 2 ^ 24 + n))
  if n < 3 then ((s.setPair (PIN_TDC_FREQ_LO.addr c) 0).setReg (PIN_TDC_FREQ_RMS.addr c) 0, true)
  else if sxy ≤ 0 then
    let s := (s.setPair (PIN_TDC_FREQ_LO.addr c) s.free.toNat).takeFree
    ((s.setReg (PIN_TDC_FREQ_RMS.addr c) (BitVec.ofNat 32 s.free.toNat)).takeFree, false)
  else
    let f := (2 * (64 * 65536 * 100000000000000) * sxx + sxy) / (2 * sxy)
    let pr := s.sqrtTo (syy * sxx - sxy * sxy).toNat (16 * n * (n - 2) * sxx.toNat)
    ((pr.2.setPair (PIN_TDC_FREQ_LO.addr c) f.toNat).setReg (PIN_TDC_FREQ_RMS.addr c) (BitVec.ofNat 32 (satN 32 pr.1)), false)

/-- The FREQ results of several gates (R228): the manual does not say how they combine, and the figures are free values
(DESIGN CHOICE, notes/assumptions/25.md). -/
def State.freqFree (s : State) (c : Nat) : State × Bool :=
  let s := (s.setPair (PIN_TDC_FREQ_LO.addr c) s.free.toNat).takeFree
  let s := (s.setReg (PIN_TDC_FREQ_RMS.addr c) (BitVec.ofNat 32 s.free.toNat)).takeFree
  let s := (s.setReg (PIN_TDC_FREQ_N.addr c) (BitVec.ofNat 32 (s.free.toNat &&& 0x1F01FFFF))).takeFree
  (s.takeFree, bitOf s.free.toNat 0)

/-- A completed FREQ measurement (R229, R231). -/
def State.freqResult (s : State) (c : Nat) : State :=
  let u := s.mu c
  let pr := if u.avg = 0 then s.freqFit c u else s.freqFree c
  (pr.1.tdcFlags c u false pr.2 (decide (u.kept ≠ [])) 0).tdcDone c

/-- The results of a completed measurement. -/
def State.unitResult (s : State) (c : Nat) : State :=
  if (s.mu c).phase ≠ .complete then s else if (s.mu c).kind = 4 then s.freqResult c else s.tdcResult c

end Sys2Proof.Machine
end

