-- ==== Sys2Proof/Machine/AcqOps.lean ====
section
/-! DEFINITION. Streams, reductions, records and triggers (13, R234-R251), and tile pushes into streams (10, R192, R193). -/

namespace Sys2Proof.Machine

/-! ## Stream records (R246-R248) -/

/-- Whether a stream is enabled. -/
def State.streamOn (s : State) (i : Nat) : Bool := s.flag (ACQ_STREAM_CTRL.EN i)

/-- Length of a record in 16-byte units, header included. -/
def StreamRec.units (r : StreamRec) : Nat := 1 + (r.payload.length + 15) / 16

/-- A record's bytes: the header of Table 13-3, the payload, zeros up to 16 bytes. -/
def StreamRec.bytes (r : StreamRec) (seq : Nat) : List Byte :=
  leBytes 8 r.time ++ leBytes 4 seq ++ leBytes 1 r.kind ++ leBytes 1 r.flags ++ leBytes 2 r.units ++ r.payload ++
    List.replicate (16 * (r.units - 1) - r.payload.length) 0

/-- Size of a stream's DRAM ring and the bytes its records take. -/
def State.ringSize (s : State) (i : Nat) : Nat := s.fld (ACQ_STREAM_DRAM_SIZE.VALUE i) * 4096
def StreamSt.used (x : StreamSt) : Nat := 16 * (x.ring.map (·.1)).sum

/-- Bytes written into a stream's DRAM ring from its write position on, modulo its size. -/
def State.ringPut (s : State) (i : Nat) : List Byte → State
  | [] => s
  | b :: bs =>
    let x := s.stream i
    let s := s.dramPut (s.fld (ACQ_STREAM_DRAM_BASE.VALUE i) * 4096 + x.wr) [b]
    State.ringPut (s.setStream i { x with wr := (x.wr + 1) % max 1 (s.ringSize i) }) i bs

/-- FILL (Table 13-14). -/
def State.streamFill (s : State) (i : Nat) : State :=
  (s.put (ACQ_STREAM_FILL.VALUE i) (((s.stream i).used + 4095) / 4096)).putB (ACQ_STREAM_STATUS.GAP_OPEN i) (s.stream i).gap.isSome

/-- A record put into the DRAM ring with the next SEQ (R247, R248). -/
def State.placeRec (s : State) (i : Nat) (r : StreamRec) : State :=
  let x := s.stream i
  let s := s.setStream i { x with seq := (x.seq + 1) % 2 ^ 32, ring := x.ring ++ [(r.units, x.seq)] }
  (s.ringPut i (r.bytes x.seq)).streamFill i

/-- The GAP record of a gap (Table 13-4). -/
def Gap.record (g : Gap) : StreamRec :=
  { kind := 2, flags := 0, time := g.first, ready := 0
    payload := leBytes 8 g.count ++ leBytes 8 g.last ++ leBytes 4 g.seq ++ leBytes 1 g.causes ++ leBytes 1 g.kinds ++
      List.replicate 10 0 }

/-- An open gap closed by its GAP record, in the reserved space (R248). -/
def State.closeGap (s : State) (i : Nat) : State :=
  match (s.stream i).gap with
  | none => s
  | some g => (s.setStream i { s.stream i with gap := none }).placeRec i g.record

/-- A record lost (R248): counted, given its SEQ, joined to the gap; ACQ_GAP at most once per 1 ms. Cause bits: 1
RING_FULL, 2 RATE, 4 ACQ_FIELD. -/
def State.loseRec (s : State) (i : Nat) (r : StreamRec) (cause : Nat) : State :=
  let x := s.stream i
  let kb := 2 ^ (r.kind - 1)
  let g : Gap := match x.gap with
    | some g => { g with last := r.time, count := g.count + 1, causes := g.causes ||| cause, kinds := (g.kinds ||| kb) % 256 }
    | none => { first := r.time, last := r.time, count := 1, seq := x.seq, causes := cause, kinds := kb % 256 }
  let due : Bool := match x.lastGap with | some t => decide (msFines ≤ elapsed 64 s.time.toNat t) | none => true
  let s := s.setStream i { x with
    seq := (x.seq + 1) % 2 ^ 32, gap := some g, lastGap := if due then some s.time.toNat else x.lastGap }
  let s := (s.setPair (ACQ_STREAM_LOST_LO.addr i) (satN 64 (s.pair (ACQ_STREAM_LOST_LO.addr i) + 1))).streamFill i
  if due then s.event 12 1 i else s

/-- A record placed in its DRAM ring where there is room for it beside the reserve, after the GAP record of an open gap,
which takes the reserve; else lost with cause RING_FULL (R248; DEDUCED, notes/assumptions/27.md). -/
def State.placeOrLose (s : State) (i : Nat) (r : StreamRec) : State :=
  let x := s.stream i
  if x.used + 16 * r.units + 48 ≤ s.ringSize i then (s.closeGap i).placeRec i r else s.loseRec i r 1

/-- Bytes of the collector's staging buffer in use. -/
def State.staging (s : State) : Nat := (s.streams.map (fun e => 16 * (e.2.waiting.map StreamRec.units).sum)).sum

/-- A record completed by the collector (R247): it waits for STREAM_RECORD, or is lost with cause RATE when the 1 MiB
staging buffer has no room. -/
def State.complete (s : State) (i : Nat) (r : StreamRec) : State :=
  if 1048576 < s.staging + 16 * r.units then s.loseRec i r 2
  else s.setStream i { s.stream i with waiting := (s.stream i).waiting ++ [r] }

/-- The waiting record that comes next: the first of those that may be placed earliest, in the order of their completion
(R247). -/
def nextReady : List StreamRec → Option StreamRec
  | [] => none
  | r :: rs => match nextReady rs with
    | none => some r
    | some q => if after r.ready q.ready then some q else some r

/-! ## Marks (R237, R239) -/

/-- Whether a channel is in a stream's mask and not UNUSED. -/
def State.inStream (s : State) (i c : Nat) : Bool :=
  bitOf (s.fld (ACQ_STREAM_CH.CHANNELS i (c / 32))) (c % 32) && !s.flag (PIN_CFG.UNUSED c)

/-- The channels of a stream in ascending order. -/
def State.streamChans (s : State) (i : Nat) : List Nat :=
  ((List.range 32).flatMap (fun j => (bitList (s.fld (ACQ_STREAM_CH.CHANNELS i j)) 32 0).map (fun b => 32 * j + b))).filter
    (fun c => !s.flag (PIN_CFG.UNUSED c))

/-- A RECORD stream armed at time `a` from source `src`; an arming while a window is open is counted (R240). Channels that a
live pass holds are stale from the beginning (R241). -/
def State.armWindow (s : State) (i a src : Nat) : State :=
  let x := s.stream i
  if x.win.isSome then s.put (ACQ_STREAM_STATUS.OVERLAP i) (satN 16 (s.fld (ACQ_STREAM_STATUS.OVERLAP i) + 1))
  else s.setStream i { x with win := some (a, src), edges := [], cold := s.cold, stale := (s.streamChans i).filter s.tdcHeld }

/-- A MARK record (Table 13-4), complete at `now`. -/
def markRecord (now t flags src unit act value cycle : Nat) : StreamRec :=
  { kind := 1, flags := flags, time := t, ready := now
    payload := leBytes 1 src ++ leBytes 1 unit ++ [0] ++ leBytes 1 act ++ leBytes 2 value ++ [0, 0] ++ leBytes 8 cycle }

/-- The marks of a trigger's firing (R237). -/
def State.trigMarks (s : State) (k t flags act chan cycle : Nat) : State :=
  State.each (fun i s =>
    if s.streamOn i then
      let s := if bitOf (s.fld (ACQ_STREAM_SRC.TRIG_MASK i)) k then s.complete i (markRecord s.time.toNat t flags 1 k act chan cycle) else s
      if s.fld (ACQ_STREAM_CTRL.KIND i) = 1 ∧ s.flag (ACQ_STREAM_REC.ARM_SEQ i) = false ∧ s.fld (ACQ_STREAM_REC.ARM_TRIG i) = k then
        s.armWindow i t k
      else s
    else s) (List.range 16) s

/-- The marks of a vector of act n with ACQ_MARK (R239). -/
def State.seqMarks (s : State) (n t value cycle : Nat) : State :=
  State.each (fun i s =>
    if s.streamOn i ∧ bitOf (s.fld (ACQ_STREAM_SRC.ACT_MASK i)) n then
      let s := s.complete i (markRecord s.time.toNat t (b2n s.cold) 2 n n value cycle)
      if s.fld (ACQ_STREAM_CTRL.KIND i) = 1 ∧ s.flag (ACQ_STREAM_REC.ARM_SEQ i) = true then s.armWindow i t (0x80 + n) else s
    else s) (List.range 16) s

/-! ## Selection (R241, R242, R245) -/

/-- Whether CMP selects a comparator. -/
def State.cmpSel (s : State) (i : Nat) (low : Bool) : Bool :=
  decide (s.fld (ACQ_STREAM_CTRL.CMP i) = 2) || decide (s.fld (ACQ_STREAM_CTRL.CMP i) = b2n low)

/-- The TDCs of a stream, in ascending channel order with CH before CL. -/
def State.streamTdcs (s : State) (i : Nat) : List Nat :=
  (s.streamChans i).flatMap (fun c => (if s.cmpSel i false then [2 * c] else []) ++ (if s.cmpSel i true then [2 * c + 1] else []))

/-- The reduction of a TDC in a stream. -/
def StreamSt.red (x : StreamSt) (n : Nat) : Red := Tab.get (fun _ => {}) x.reds n
def StreamSt.setRed (x : StreamSt) (n : Nat) (r : Red) : StreamSt := { x with reds := Tab.set (fun _ => {}) x.reds n r }

/-! ## Phase (R242) -/

/-- The phase of a stamp t at a channel: numerator, denominator, and what divides the numerator to give 1/16 fine; none
where the transition has none. -/
def State.phase (s : State) (c : Nat) (t : Int) : Option (Nat × Nat × Nat) :=
  match s.actOfChan c with
  | none => none
  | some n =>
    let root : Int := s.rootMhz
    let depth : Int := 64 * 48 * 4096 * 25600
    if !s.running n then none
    else if s.timed n then
      (s.die (c / 64)).pins.findSome? (fun p =>
        let x := ahead t (64 * p.vec.time : Nat) * root - depth
        let den := 64 * s.period n p.vec.tset * s.rootMhz
        if 0 ≤ x ∧ x < (den : Int) then some (x.toNat, den, 4 * s.rootMhz) else none)
    else
      let x := ahead t (64 * (s.act n).tStart : Nat) * root - depth
      if x < 0 then none
      else
        let den := 64 * 512 * 25600 * 2 ^ s.fld (TMG_MODE.K n)
        some (x.toNat % den, den, 4 * s.rootMhz)

/-! ## Reductions (R242-R244) -/

/-- The quantity of STATS joined (Table 13-2). -/
def Red.addValue (r : Red) (v : Int) : Red :=
  { r with
    count := r.count + 1, sum := r.sum + v, sumsq := r.sumsq + (v * v).toNat
    mn := if r.count = 0 then v else min r.mn v
    mx := if r.count = 0 then v else max r.mx v }

/-- A value of 32 bits, saturated. -/
def sat32 (v : Int) : Int := if v < -2147483648 then -2147483648 else if 2147483647 < v then 2147483647 else v

/-- The window w of a WCOUNT stream: LO and HI. -/
def State.pwin (s : State) (i w : Nat) : Nat × Nat :=
  let r := (s.reg (ACQ_STREAM_PWIN.addr i (w / 2))).toNat
  (bitsOf r (16 * (w % 2)) 8, bitsOf r (16 * (w % 2) + 8) 8)

/-- A STAMPS record (Table 13-4), closed at a time. -/
def Red.stampsRecord (r : Red) (n dec t : Nat) : StreamRec :=
  { kind := 7, flags := b2n r.cold + 4 * b2n r.missed, time := r.t0, ready := t + 2 * usFines
    payload := leBytes 4 (n / 2 + 1024 * (n % 2) + 2048 * b2n r.pol0 + 65536 * dec) ++ leBytes 4 r.ents.length ++
      leBytes 8 r.e0 ++ r.ents.flatMap (fun e => leBytes 8 e.toNat) }

/-- The open STAMPS record of a TDC closed (R246). -/
def State.closeStamps (s : State) (i n : Nat) : State :=
  let r := (s.stream i).red n
  if r.ents = [] then s
  else
    let s := s.setStream i ((s.stream i).setRed n { r with ents := [], missed := false, cold := false })
    s.complete i (r.stampsRecord n (s.fld (ACQ_STREAM_DEC.DEC_EFF i)) s.time.toNat)

/-- A transition at a STAMPS stream: every 2^DEC_EFF-th is kept; one that was not stamped as all ones (R243). -/
def State.redStamps (s : State) (i n idx : Nat) (rise : Bool) (stamp : Option Int) (t : Int) : State :=
  if idx % 2 ^ s.fld (ACQ_STREAM_DEC.DEC_EFF i) ≠ 0 then s
  else
    let x := s.stream i
    let r := x.red n
    let v : BitVec 64 := match stamp with | some a => BitVec.ofNat 64 (stampFines a) | none => BitVec.ofNat 64 (2 ^ 64 - 1)
    let r := if r.ents = [] then { r with e0 := idx, pol0 := !rise, t0 := stampFines t } else r
    let r := { r with ents := r.ents ++ [v], missed := r.missed || stamp.isNone, cold := r.cold || s.cold }
    let s := s.setStream i (x.setRed n r)
    if 64 ≤ r.ents.length then s.closeStamps i n else s

/-- A transition at a HIST or WCOUNT stream. -/
def State.redPhase (s : State) (i n : Nat) (hist : Bool) (ph : Nat × Nat × Nat) : State :=
  let x := s.stream i
  let r := x.red n
  let b := ph.1 * 256 / ph.2.1
  let r := { r with count := r.count + 1, cold := r.cold || s.cold }
  let r := if hist then { r with bins := Tab.set (fun _ => 0) r.bins b (satN 32 (Tab.get (fun _ => 0) r.bins b + 1)) }
    else { r with win := (List.range 4).map (fun w =>
      let pr := s.pwin i w
      let lo := pr.1
      let hi := pr.2
      r.win.getD w 0 + b2n (decide (lo ≤ b ∧ b ≤ hi))) }
  s.setStream i (x.setRed n r)

/-- A transition at a STATS stream: PHASE, or the time since the TDC's transition before of the polarity (Table 13-2). -/
def State.redStats (s : State) (i n : Nat) (stamp : Option Int) (ph : Option (Nat × Nat × Nat)) : State :=
  let x := s.stream i
  let r := { x.red n with cold := (x.red n).cold || s.cold }
  if s.flag (ACQ_STREAM_CTRL.QTY i) then
    let prev : Option (Option Int) := match s.fld (ACQ_STREAM_CTRL.POL i) with
      | 0 => r.prevR
      | 1 => r.prevF
      | _ => r.prevE
    match stamp, prev with
    | some t, some (some p) =>
      let pr := s.roundTo (ahead t p) 4
      let v := pr.1
      let s := pr.2
      s.setStream i (x.setRed n (r.addValue (sat32 v)))
    | _, _ => s.setStream i (x.setRed n r)
  else
    match ph with
    | some (num, _, q) =>
      let pr := s.roundTo (num : Int) q
      let v := pr.1
      let s := pr.2
      s.setStream i (x.setRed n (r.addValue v))
    | none => s.setStream i (x.setRed n r)

/-- A transition of a TDC reduced by one stream that selects it (R242). -/
def State.reduce (s : State) (i c : Nat) (low rise : Bool) (idx : Nat) (stamp : Option Int) (t : Int) : State :=
  let n := tdcNum c low
  let kind := s.fld (ACQ_STREAM_CTRL.KIND i)
  if s.streamOn i = false ∨ s.inStream i c = false ∨ s.cmpSel i low = false ∨ kind < 2 then s
  else if kind = 5 then s.redStamps i n idx rise stamp t
  else
    let pol := polOk (s.fld (ACQ_STREAM_CTRL.POL i)) rise
    let ph := match stamp with | some a => s.phase c a | none => none
    let s := if pol then
        match kind, ph with
        | 2, some p => s.redPhase i n true p
        | 4, some p => s.redPhase i n false p
        | 3, p => s.redStats i n stamp p
        | _, _ => s
      else s
    let x := s.stream i
    let r := { x.red n with prevE := some stamp }
    s.setStream i (x.setRed n (if rise then { r with prevR := some stamp } else { r with prevF := some stamp }))

/-- 48 bytes of a STATS or WCOUNT entry from offset 0x04 of the entry on; the channel word comes first. -/
def Red.entry (r : Red) (n : Nat) (stats : Bool) (qty : Nat) : List Byte :=
  if stats then
    leBytes 4 (n / 2 + 1024 * (n % 2) + 2048 * qty) ++ leBytes 4 0 ++ leBytes 8 r.count ++ leBytes 4 (twos 32 r.mn) ++
      leBytes 4 (twos 32 r.mx) ++ leBytes 8 (twos 64 r.sum) ++ leBytes 16 r.sumsq
  else
    leBytes 4 (n / 2 + 1024 * (n % 2)) ++ leBytes 4 0 ++ leBytes 8 r.count ++
      (List.range 4).flatMap (fun w => leBytes 8 (r.win.getD w 0))

/-- A HIST payload from TOTAL on. -/
def Red.histBytes (r : Red) : List Byte :=
  leBytes 8 r.count ++ (numsTo 256).flatMap (fun b => leBytes 4 (Tab.get (fun _ => 0) r.bins b))

/-- A TDC's part of its interval's record: a stale interval repeats the part before, or zeros (R243). -/
def Red.part (r : Red) (n kind qty : Nat) : List Byte :=
  let fresh := if kind = 2 then r.histBytes else r.entry n (decide (kind = 3)) qty
  if r.stale then
    (if r.last = [] then (if kind = 2 then List.replicate fresh.length 0 else fresh.take 4 ++ List.replicate 44 0) else r.last)
  else fresh

/-- A TDC's reduction at the start of its next interval. -/
def Red.next (r : Red) (part : List Byte) (held : Bool) : Red :=
  { prevR := r.prevR, prevF := r.prevF, prevE := r.prevE, last := part, stale := held }

/-- The decimation load of a die in 1/65,536 TDC, of the enabled STAMPS streams (R244). -/
def State.stampsLoad (s : State) (d : Nat) : Nat :=
  ((List.range 16).map (fun i =>
    if s.streamOn i ∧ s.fld (ACQ_STREAM_CTRL.KIND i) = 5 then
      ((s.streamTdcs i).countP (fun n => decide (n / 128 = d))) * 2 ^ (16 - s.fld (ACQ_STREAM_DEC.DEC_EFF i))
    else 0)).sum

/-- The time that a die takes to send reduction results: the 16 bytes of ACQ in each vector-clock cycle (Table 1-4) less
what the stamps of R244 take of them, 32 bytes a cycle for a whole TDC (DESIGN CHOICE, notes/assumptions/27.md). -/
def State.sendFines (s : State) (d bytes : Nat) : Nat :=
  s.cyclesFines (bytes * 65536 / max 1 (16 * 65536 - 32 * s.stampsLoad d) + 1)

/-- The results of a stream's interval sent by die d after those that it still sends; lost with cause ACQ_FIELD where the
stream's results for an earlier interval have not left the die (R245). -/
def State.sendResults (s : State) (i d t1 : Nat) (rs : List StreamRec) : State :=
  if after (Tab.get (fun _ => 0) (s.stream i).left d) t1 then rs.foldl (fun s r => s.loseRec i r 4) s
  else
    let at_ := (s.die d).acqTo
    let to_ := (if after at_ t1 then at_ else t1) + s.sendFines d (rs.map (fun r => 16 * (r.units - 1))).sum
    let s := s.setDie d { s.die d with acqTo := to_ }
    let s := s.setStream i { s.stream i with left := Tab.set (fun _ => 0) (s.stream i).left d to_ }
    rs.foldl (fun s r => s.complete i { r with ready := if after to_ r.ready then to_ else r.ready }) s

/-- The results of a die's interval (R242, R246): a HIST record per TDC, a STATS or WCOUNT record for the block. -/
def State.sendInterval (s : State) (i d t0 t1 : Nat) : State :=
  let kind := s.fld (ACQ_STREAM_CTRL.KIND i)
  let qty := s.fld (ACQ_STREAM_CTRL.QTY i)
  let ns := (s.streamTdcs i).filter (fun n => decide (n / 128 = d))
  let x := s.stream i
  let parts := ns.map (fun n => (n, x.red n, (x.red n).part n kind qty))
  let x := parts.foldl (fun x (n, r, p) => x.setRed n (r.next p (s.tdcHeld (n / 2)))) x
  let s := s.setStream i x
  if ns = [] then s
  else if kind = 2 then
    s.sendResults i d t1 (parts.map (fun (n, r, p) =>
      { kind := 4, flags := b2n r.cold + 2 * b2n r.stale, time := t0, ready := t1 + 2 * usFines
        payload := leBytes 4 (n / 2 + 1024 * (n % 2)) ++ leBytes 4 0 ++ p }))
  else s.sendResults i d t1 [
    { kind := if kind = 3 then 5 else 6
      flags := b2n (parts.any (fun x => x.2.1.cold)) + 2 * b2n (parts.any (fun x => x.2.1.stale)), time := t0
      ready := t1 + 2 * usFines
      payload := leBytes 4 ns.length ++ leBytes 4 (s.fld (ACQ_STREAM_INTEG.INTEG i)) ++ leBytes 8 0 ++
        parts.flatMap (fun x => x.2.2) }]

/-! ## RECORD windows (R240, R241) -/

/-- The window of an armed RECORD stream in 1/64 fine: [start, end). -/
def State.windowOf (s : State) (i a : Nat) : Nat × Nat :=
  let b := a + 512 * s.fld (ACQ_STREAM_WIN_OFS.OFS i)
  (64 * b, 64 * (b + 512 * s.fld (ACQ_STREAM_WIN_LEN.LEN i)))

/-- Whether a channel's transitions count in a RECORD stream: a channel of the mask, or the strobe of a block that has one. -/
def State.windowChan (s : State) (i c : Nat) : Bool :=
  s.inStream i c || (s.flag (ACQ_STREAM_REC.SH_EN i) && decide (c % 64 = s.fld (ACQ_STREAM_REC.STROBE_OFS i)) &&
    (blockChans (c / 64)).any (s.inStream i))

/-- Reductions and windows of a channel whose TDCs a live pass takes carry STALE (R243, R241); a window that is over does
not. -/
def State.streamsTake (s : State) (c : Nat) : State :=
  s.withStreams (s.streams.map (fun (i, x) =>
      let open_ : Bool := match x.win with
        | some (a, _) => s.windowChan i c && decide (ahead (64 * s.time.toNat : Nat) ((s.windowOf i a).2 : Nat) < 0)
        | none => false
      (i, { x with
        stale := if open_ then c :: x.stale else x.stale
        reds := x.reds.map (fun (n, r) => (n, if n / 2 = c then { r with stale := true } else r)) })))

/-- The TDCs of a channel released: a window that has not begun is no longer stale for it (R241). -/
def State.streamsRelease (s : State) (c : Nat) : State :=
  s.withStreams (s.streams.map (fun (i, x) =>
      let before : Bool := match x.win with
        | some (a, _) => decide (ahead (64 * s.time.toNat : Nat) ((s.windowOf i a).1 : Nat) ≤ 0)
        | none => false
      (i, { x with stale := if before then x.stale.filter (fun k => decide (k ≠ c)) else x.stale })))

/-- A transition inside an open window of a RECORD stream. -/
def State.windowSee (s : State) (i c : Nat) (low rise : Bool) (idx : Nat) (stamp : Option Int) (t : Int) : State :=
  let x := s.stream i
  match x.win with
  | none => s
  | some (a, _) =>
    let pr := s.windowOf i a
    let b := pr.1
    let e := pr.2
    if s.windowChan i c = true ∧ s.fld (ACQ_STREAM_CTRL.CMP i) = b2n low ∧ 0 ≤ ahead t (b : Nat) ∧ ahead t (e : Nat) < 0 then
      s.setStream i { x with edges := x.edges ++ [⟨c, rise, idx, stamp⟩], cold := x.cold || s.cold }
    else s

/-- Stamped rises of a list of transitions. -/
def rises (es : List WinEdge) : List (Nat × Int) :=
  es.filterMap (fun e => if e.rise then e.stamp.map (fun t => (e.idx, t)) else none)

/-- The widths of consecutive, stamped pairs whose first transition is a rise (HIGH) or a fall (LOW). -/
def pairWidths (first : Bool) : List WinEdge → List Int
  | a :: b :: es =>
    (match a.stamp, b.stamp with
      | some ta, some tb => if a.rise = first ∧ b.rise ≠ first ∧ b.idx = a.idx + 1 then [ahead tb ta] else []
      | _, _ => []) ++ pairWidths first (b :: es)
  | _ => []

/-- A field of a record entry in fines, with its rounding. -/
def State.fines (s : State) (num : Int) (den : Nat) : Nat × State :=
  let pr := s.roundTo num (64 * den)
  let v := pr.1
  let s := pr.2
  (twos 32 v, s)

/-- PERIOD of a RECORD entry: the time from its first rise to its last, over their number (Table 13-1). -/
def recPeriod (rs : List (Nat × Int)) : Option (Int × Nat) :=
  match rs.head?, rs.getLast? with
  | some a, some b => if a.1 < b.1 then some (2 * ahead b.2 a.2, b.1 - a.1) else none
  | _, _ => none

/-- The mean of a list of widths. -/
def recMean (ws : List Int) : Option (Int × Nat) := if ws = [] then none else some (ws.sum, ws.length)

/-- The time from one stamp to another, where both are there. -/
def recSpan (a b : Option Int) : Option (Int × Nat) :=
  match a, b with
  | some a, some b => some (ahead b a, 1)
  | _, _ => none

/-- Figures rounded in order; an absent one is 0. -/
def State.figs : List (Option (Int × Nat)) → State → List Nat × State
  | [], s => ([], s)
  | none :: xs, s =>
    let pr := State.figs xs s
    (0 :: pr.1, pr.2)
  | some x :: xs, s =>
    let v := s.fines x.1 x.2
    let pr := State.figs xs v.2
    (v.1 :: pr.1, pr.2)

/-- DUTY: the share of the high widths, in 1/65,536; 0 without both widths. -/
def State.recDuty (s : State) (ok : Bool) (hi tot : Int) : Nat × State :=
  if ok then
    let pr := s.roundTo (65536 * hi) tot.toNat
    (min 65535 pr.1.toNat, pr.2)
  else (0, s)

/-- The entry of one channel (Table 13-1). -/
def State.recordEntry (s : State) (i c : Nat) : List Byte × State :=
  let x := s.stream i
  let es := x.edges.filter (fun e => decide (e.chan = c))
  let rs := rises es
  let hi := pairWidths true es
  let lo := pairWidths false es
  let ref := (rises (x.edges.filter (fun e => decide (e.chan = s.fld (ACQ_STREAM_REC.REF_CH i))))).head?.map (·.2)
  let strobe := 64 * (c / 64) + s.fld (ACQ_STREAM_REC.STROBE_OFS i)
  let ts := if s.flag (ACQ_STREAM_REC.SH_EN i) then
    (rises (x.edges.filter (fun e => decide (e.chan = strobe)))).head?.map (·.2) else none
  let st := es.filterMap (·.stamp)
  let before := ts.bind (fun t => (st.filter (fun u => decide (ahead u t < 0))).getLast?)
  let after := ts.bind (fun t => (st.filter (fun u => decide (0 < ahead u t))).head?)
  let dutyOk : Bool := decide (hi ≠ [] ∧ lo ≠ [] ∧ 0 < hi.sum + lo.sum)
  let first := rs.head?.map (·.2)
  let wid := State.figs [recPeriod rs, recMean hi, recMean lo] s
  let duty := wid.2.recDuty dutyOk hi.sum (hi.sum + lo.sum)
  let rel := State.figs [recSpan ref first, recSpan before ts, recSpan ts after] duty.2
  let flags := 1024 * b2n (decide (es = [])) + 2048 * b2n (!(decide (2 ≤ rs.length) && dutyOk)) +
    4096 * b2n (rs.head?.isNone || ref.isNone) + 8192 * b2n before.isNone + 16384 * b2n after.isNone +
    32768 * b2n (decide (c ∈ x.stale))
  (leBytes 4 (c + flags + 65536 * duty.1) ++
    leBytes 2 (satN 16 (es.countP (·.rise))) ++ leBytes 2 (satN 16 (es.countP (fun e => !e.rise))) ++
    ((wid.1 ++ rel.1).map (leBytes 4)).flatten, rel.2)

/-- The entries of a list of channels. -/
def State.recordEntries (i : Nat) : List Nat → List Byte × State → List Byte × State
  | [], r => r
  | c :: cs, (bs, s) =>
    let pr := s.recordEntry i c
    let e := pr.1
    let s := pr.2
    State.recordEntries i cs (bs ++ e, s)

/-- The end of a RECORD window (R240): the record completed. -/
def State.closeWindow (s : State) (i : Nat) : State :=
  match (s.stream i).win with
  | none => s
  | some (a, src) =>
    let pr := s.windowOf i a
    let b := pr.1
    let e := pr.2
    let x := s.stream i
    let cs := s.streamChans i
    let pr := State.recordEntries i cs ([], s)
    let bs := pr.1
    let s := pr.2
    let s := s.setStream i { s.stream i with win := none, edges := [], stale := [], cold := false }
    s.complete i
      { kind := 3, flags := b2n x.cold + 2 * b2n (decide (x.stale ≠ [])), time := b / 64, ready := e / 64 + 2 * usFines
        payload := leBytes 8 a ++ leBytes 2 cs.length ++ leBytes 1 src ++ List.replicate 5 0 ++ bs }

/-! ## Enabling (R244, R245, R250) -/

/-- DEC_EFF of a STAMPS stream being enabled: the smallest that keeps every die's load at or below 3/8 (R244). -/
def State.decEff (s : State) (i : Nat) : Option Nat :=
  (List.range 17).find? (fun e => decide (s.fld (ACQ_STREAM_DEC.DEC_LOG2 i) ≤ e) &&
    (List.range 16).all (fun d =>
      decide (s.stampsLoad d + ((s.streamTdcs i).countP (fun n => decide (n / 128 = d))) * 2 ^ (16 - e) ≤ 24576)))

/-- Whether another enabled stream of the kind has a unit that this one would take (R245); one of KIND NONE takes none. -/
def State.streamConflict (s : State) (i : Nat) : Bool :=
  let kind := s.fld (ACQ_STREAM_CTRL.KIND i)
  (List.range 16).any (fun j =>
    decide (j ≠ i) && s.streamOn j && decide (s.fld (ACQ_STREAM_CTRL.KIND j) = kind ∧ kind ≠ 0) &&
      (if kind = 1 then (s.streamChans i).any (s.inStream j) else (s.streamTdcs i).any (fun n => decide (n ∈ s.streamTdcs j))))

/-- Whether the configuration breaks R240, R241 or R244. -/
def State.streamBad (s : State) (i : Nat) : Bool :=
  let kind := s.fld (ACQ_STREAM_CTRL.KIND i)
  if kind = 1 then
    let ofs := s.fld (ACQ_STREAM_WIN_OFS.OFS i)
    let len := s.fld (ACQ_STREAM_WIN_LEN.LEN i)
    (s.flag (ACQ_STREAM_REC.ARM_SEQ i) = false && decide (ofs < 2560)) || decide (len = 0 ∨ 4194304 < len) ||
      decide (s.fld (ACQ_STREAM_CTRL.CMP i) = 2) || !s.inStream i (s.fld (ACQ_STREAM_REC.REF_CH i))
  else decide (kind = 5) && (s.decEff i).isNone

/-- Whether the stream's registers hold reserved codes (R6, Tables 13-11, 13-13, 13-14). -/
def State.streamReserved (s : State) (i : Nat) : Bool :=
  decide (5 < s.fld (ACQ_STREAM_CTRL.KIND i) ∨ s.fld (ACQ_STREAM_CTRL.CMP i) = 3 ∨ s.fld (ACQ_STREAM_CTRL.POL i) = 3 ∨
    s.fld (ACQ_STREAM_INTEG.INTEG i) < 10 ∨ 1000000 < s.fld (ACQ_STREAM_INTEG.INTEG i) ∨
    16 < s.fld (ACQ_STREAM_DEC.DEC_LOG2 i) ∨ s.fld (ACQ_STREAM_DRAM_SIZE.VALUE i) < 16 ∨
    4194304 < s.fld (ACQ_STREAM_DRAM_SIZE.VALUE i) ∨ s.fld (ACQ_STREAM_HOST_SIZE.VALUE i) < 16)

/-- An enable refused (R250): 1 CONFLICT, 2 BAD_CFG, 3 MODE. -/
def State.streamRefuse (s : State) (i reason : Nat) : State :=
  ((s.put (ACQ_STREAM_CTRL.EN i) 0).put (ACQ_STREAM_STATUS.REFUSED i) 1).put (ACQ_STREAM_STATUS.REASON i) reason

/-- Whether the stream's DRAM ring lies across a partition of another kind, or leaves DRAM (R301). -/
def State.streamMisplaced (s : State) (i : Nat) : Bool :=
  s.misplaced 6 (s.fld (ACQ_STREAM_DRAM_BASE.VALUE i) * 4096) (s.ringSize i)

/-- An enable that has passed its checks (R250); the limits of R248 and R249 on the stream's event and vector run on. -/
def State.streamStart (s : State) (i : Nat) : State :=
  let s := if s.fld (ACQ_STREAM_CTRL.KIND i) = 5 then s.put (ACQ_STREAM_DEC.DEC_EFF i) ((s.decEff i).getD 0) else s
  let s := s.put (ACQ_STREAM_CTRL.EN i) 1
  let s := s.put (ACQ_STREAM_HOST_WR.VALUE i) (s.fld (ACQ_STREAM_HOST_RD.VALUE i))
  let s := (s.setPair (ACQ_STREAM_LOST_LO.addr i) 0).put (ACQ_STREAM_STATUS.OVERLAP i) 0
  let x : StreamSt :=
    { lastIrq := (s.stream i).lastIrq, lastGap := (s.stream i).lastGap
      ints := (List.range 16).foldl (fun t d => Tab.set (fun _ => 0) t d s.time.toNat) []
      reds := (s.streamTdcs i).foldl (fun t n => Tab.set (fun _ => {}) t n { stale := s.tdcHeld (n / 2) }) [] }
  ((s.setStream i x).put (ACQ_STREAM_STATUS.HOST_FULL i) 0).streamFill i

/-- EN = 1 written to a disabled stream: the enable checks (R250). -/
def State.streamEnable (s : State) (i : Nat) : State :=
  if (match s.mode with | .idle | .run => false | _ => true) = true then s.streamRefuse i 3
  else if s.streamReserved i ∨ s.streamMisplaced i = true then s.disturbStream i
  else if s.streamBad i then s.streamRefuse i 2
  else if s.streamConflict i then s.streamRefuse i 1
  else s.streamStart i

/-- Every record that the collector has completed placed or lost, the earliest first. -/
def State.placeWaiting (i : Nat) : Nat → State → State
  | 0, s => s
  | k + 1, s =>
    match nextReady (s.stream i).waiting with
    | none => s
    | some r =>
      State.placeWaiting i k ((s.setStream i { s.stream i with waiting := (s.stream i).waiting.erase r }).placeOrLose i r)

/-- A stream disabled (R250): no new records; those that are complete are placed (DEDUCED, notes/assumptions/27.md), the
open gap is closed, and the rings drain. -/
def State.streamDisable (i : Nat) (s : State) : State :=
  if s.streamOn i then
    let s := s.put (ACQ_STREAM_CTRL.EN i) 0
    let s := State.placeWaiting i (s.stream i).waiting.length s
    (s.setStream i { s.stream i with waiting := [], win := none, edges := [], reds := [] }).closeGap i
  else s

/-- Every stream disabled: a root change and entry to CAL (R250). -/
def State.streamsDisable (s : State) : State := State.each State.streamDisable (List.range 16) s

/-- Every stream ended: entry to SAFE, BOOT or OFF (R250). -/
def State.streamsEnd (s : State) : State :=
  let s := State.each (fun i s =>
    (((s.put (ACQ_STREAM_CTRL.EN i) 0).put (ACQ_STREAM_FILL.VALUE i) 0).put (ACQ_STREAM_STATUS.GAP_OPEN i) 0).put
      (ACQ_STREAM_STATUS.HOST_FULL i) 0) (List.range 16) s
  s.withStreams []

/-! ## The host ring (R249) -/

/-- The host ring's address and its size in 16-byte units. -/
def State.hostRing (s : State) (i : Nat) : Nat × Nat :=
  (s.pair (ACQ_STREAM_HOST_BASE_LO.addr i), s.fld (ACQ_STREAM_HOST_SIZE.VALUE i) * 256)

/-- The oldest record of a DRAM ring copied to the host ring where there is room, with a PAD record before it where it
would cross the end; the writeback and the vector follow (R249). In D3hot the ring fills (R327). Data with an uncorrectable
error goes with EP (R291). -/
def State.streamCopy (s : State) (i : Nat) (ecc : Ecc) : State :=
  if s.d3hot then s else
  let x := s.stream i
  match x.ring with
  | [] => s
  | (n, seq) :: rest =>
    let pr := s.hostRing i
    let base := pr.1
    let size := pr.2
    let wr := s.fld (ACQ_STREAM_HOST_WR.VALUE i)
    let rd := s.fld (ACQ_STREAM_HOST_RD.VALUE i)
    let pad := if size < wr + n then size - wr else 0
    let used := (wr + size - rd) % max 1 size
    if size < used + pad + n + 1 then s.put (ACQ_STREAM_STATUS.HOST_FULL i) 1
    else
      let dbase := s.fld (ACQ_STREAM_DRAM_BASE.VALUE i) * 4096
      let dsize := max 1 (s.ringSize i)
      let bytes := (List.range (16 * n)).map (fun k => Tab.get ramByte s.dram (dbase + (x.rd + k) % dsize))
      let padRec : StreamRec := { kind := 15, flags := 0, time := 0, payload := List.replicate (16 * (pad - 1)) 0, ready := 0 }
      let s := if pad = 0 then s else s.hostPut (base + 16 * wr) (padRec.bytes 0xFFFFFFFF)
      let at_ := if pad = 0 then wr else 0
      let s := (s.dramEcc (dbase + x.rd) (16 * n) ecc).hostPutEp (base + 16 * at_) bytes (decide (ecc = .ue))
      let wr' := (at_ + n) % max 1 size
      let s := (s.put (ACQ_STREAM_HOST_WR.VALUE i) wr').put (ACQ_STREAM_STATUS.HOST_FULL i) 0
      let s := s.hostPut (s.pair (ACQ_STREAM_WB_LO.addr i)) (leBytes 4 wr' ++ leBytes 4 seq)
      let due : Bool := match x.lastIrq with | some t => decide (usFines ≤ elapsed 64 s.time.toNat t) | none => true
      let s := (s.setStream i { x with
        ring := rest, rd := (x.rd + 16 * n) % dsize, lastIrq := if due then some s.time.toNat else x.lastIrq }).streamFill i
      if due then s.raiseVec (s.fld (ACQ_STREAM_CTRL.VEC i)) else s

/-! ## Triggers (R234-R238) -/

/-- The state that a stage of a unit asks of a channel: 0 X, 1 L, 2 H, 3 M (Table 13-10). -/
def State.patState (s : State) (k j c : Nat) : Nat := bitsOf (s.reg (ACQ_TRIG_PAT.addr k j (c / 16))).toNat (2 * (c % 16)) 2

/-- The channels of a stage that are not X, ascending. -/
def State.patChans (s : State) (k j : Nat) : List Nat :=
  (List.range 64).flatMap (fun i => (List.range 16).filterMap (fun q =>
    if bitsOf (s.reg (ACQ_TRIG_PAT.addr k j i)).toNat (2 * q) 2 = 0 then none else some (16 * i + q)))

/-- The channels of any stage of a unit. -/
def State.trigChans (s : State) (k : Nat) : List Nat := distinct ((List.range 4).flatMap (s.patChans k))

/-- Whether a sample's state (2 CH + CL, with I counted as M; R99, R234) is the one a pattern asks for. -/
def patMatches (pat raw : Nat) : Bool :=
  match pat with
  | 0 => true
  | 1 => decide (raw = 1)
  | 2 => decide (raw = 2)
  | _ => decide (raw = 0)

/-- The state of a channel in a sample. -/
def sampleOf (xs : List (Nat × Nat)) (c : Nat) : Option Nat := (xs.find? (fun x => decide (x.1 = c))).map (·.2)

/-- Whether a stage's pattern holds at a sample (R235); a channel without a sample is in no state. -/
def State.patHolds (s : State) (k j : Nat) (xs : List (Nat × Nat)) : Bool :=
  (s.patChans k j).all (fun c => match sampleOf xs c with
    | some raw => patMatches (s.patState k j c) raw
    | none => false)

/-- Unit k back in stage 0 with every count at 0. -/
def State.trigReset (s : State) (k : Nat) : State := (s.put (ACQ_TRIG_STATUS.STAGE k) 0).put (ACQ_TRIG_STATUS.COUNT k) 0

/-- A unit disarmed (R237). -/
def State.trigDisarm (k : Nat) (s : State) : State := (s.put (ACQ_TRIG_STATUS.ARMED k) 0).setTrig k {}

/-- Every unit disarmed: a root change and entry to CAL, SAFE, BOOT or OFF (R237). -/
def State.trigDisarmAll (s : State) : State := State.each State.trigDisarm (List.range 16) s

/-- A unit's ARM refused (R237): 1 TRIG_SPLIT, 2 MODE, 3 CFG. -/
def State.trigRefuse (s : State) (k reason : Nat) : State :=
  (s.put (ACQ_TRIG_STATUS.REFUSED k) 1).put (ACQ_TRIG_STATUS.REASON k) reason

/-- The act that owns every channel of a pattern (R234); none if they do not belong to one act. -/
def State.trigAct (s : State) (k : Nat) : Option Nat :=
  match (s.trigChans k).map s.actOfChan with
  | [] => none
  | a :: as => if as.all (fun b => decide (b = a)) then a else none

/-- Whether a stage in use holds a reserved code (R6, Table 13-8). -/
def State.trigReserved (s : State) (k : Nat) : Bool :=
  (List.range (s.fld (ACQ_TRIG_CTRL.LAST k) + 1)).any (fun j =>
    decide (s.fld (ACQ_TRIG_STAGE.COUNT k j) = 0) ||
      (s.flag (ACQ_TRIG_STAGE.QUAL_EN k j) && decide (s.fld (ACQ_TRIG_STAGE.QUAL_POL k j) = 3)))

/-- An ARM of unit k (R234, R237). -/
def State.trigArm (s : State) (k : Nat) : State :=
  if (match s.mode with | .idle | .run => false | _ => true) = true then s.trigRefuse k 2
  else
    match s.trigAct k with
    | none => s.trigRefuse k 1
    | some n =>
      if s.trigReserved k then State.disturbTrig k s else
      let s := (s.put (ACQ_TRIG_STATUS.ARMED k) 1).put (ACQ_TRIG_STATUS.FIRED k) 0
      let s := ((s.put (ACQ_TRIG_STATUS.ACT k) n).put (ACQ_TRIG_FIRES.VALUE k) 0).put (ACQ_TRIG_TIMEOUTS.VALUE k) 0
      (s.trigReset k).setTrig k {}

/-- The switching point of a comparator for a direction, in 1/15,000 of a threshold code (R98, R100). -/
def State.switchPoint (s : State) (c : Nat) (low rise : Bool) : Int :=
  let code : Int := ((if low then s.fld (PIN_THR_L.CODE c) else s.fld (PIN_THR_H.CODE c)) : Nat)
  let h : Int := ((if low then PIN_HYST.HYST_L c else PIN_HYST.HYST_H c).ofWord (s.hystOf c) : Nat)
  15000 * code + (if rise then 65536 * h else -65536 * h)

/-- The trigger time of R238 in 1/64 fine, with the flags CLAMPED (8) and SINGLE (16). -/
def State.trigTime (s : State) (k c : Nat) (rise : Bool) (tL tH : Option Int) (sample : Int) : Int × Nat × State :=
  if s.flag (ACQ_TRIG_LEVEL.INTERP_EN k) = false then (sample, 0, s)
  else
    match tL, tH with
    | none, none => (sample, 0, s)
    | some a, none => (a, 16, s)
    | none, some b => (b, 16, s)
    | some a, some b =>
      let vl := s.switchPoint c true rise
      let vh := s.switchPoint c false rise
      let v : Int := 15000 * (s.fld (ACQ_TRIG_LEVEL.CODE k) : Nat)
      if vl < vh ∧ vl ≤ v ∧ v ≤ vh then
        let pr := s.roundTo ((v - vl) * ahead b a) (vh - vl).toNat
        let d := pr.1
        let s := pr.2
        (a + d, 0, s)
      else if (v - vl).natAbs ≤ (v - vh).natAbs then (a, 8, s)
      else (b, 8, s)

/-- The qualifying channel of an entry (R235). -/
def State.qualChan (s : State) (k j : Nat) (xs : List (Nat × Nat)) (prev : List (Nat × Nat)) : Option Nat :=
  if s.flag (ACQ_TRIG_STAGE.QUAL_EN k j) then some (s.fld (ACQ_TRIG_STAGE.QUAL_CH k j))
  else (s.patChans k j).find? (fun c => decide (sampleOf xs c ≠ sampleOf prev c))

/-- The time of a sample for a stage: that of the stage's lowest channel which gives one (R234, R238, which leave it open
where S1 is not the same at all of them: DESIGN CHOICE, notes/assumptions/27.md). -/
def State.stageTime (s : State) (k j : Nat) (ts : List (Nat × Int)) : Int :=
  match ts.find? (fun x => decide (s.patState k j x.1 ≠ 0)) with
  | some x => x.2
  | none => (ts.headD (0, 0)).2

/-- Whether a transition lies between the sample before and a sample at t, for a stage (R235, R238). -/
def State.edgeBetween (s : State) (k j : Nat) (t : Int) (e : TrigEdge) : Bool :=
  decide (ahead e.t t < 0) && (match (s.trig k).prev with | some (_, ts) => decide (0 ≤ ahead e.t (s.stageTime k j ts)) | none => true)

/-- A firing at an entry of vector `cyc` (R237, R238). -/
def State.trigFire (s : State) (k j n : Nat) (xs : List (Nat × Nat)) (t : Int) (cyc : Nat) : State :=
  let x := s.trig k
  let prev := match x.prev with | some (p, _) => p | none => []
  let q := s.qualChan k j xs prev
  let es := x.edges.filter (fun e => decide (some e.chan = q) && s.edgeBetween k j t e &&
    (!s.flag (ACQ_TRIG_STAGE.QUAL_EN k j) || polOk (s.fld (ACQ_TRIG_STAGE.QUAL_POL k j)) e.rise))
  let dir := match es.getLast? with | some e => e.rise | none => true
  let last : Bool → Option Int := fun low =>
    ((es.filter (fun (e : TrigEdge) => decide (e.low = low ∧ e.rise = dir) && e.stamp.isSome)).getLast?.map (·.stamp)).getD none
  let pr := s.trigTime k (q.getD 0) dir (last true) (last false) t
  let t' := pr.1
  let fl := pr.2.1
  let s := pr.2.2
  let pr := match q with | some c => (c, s) | none => (s.free.toNat % 1024, s.takeFree)
  let qc := pr.1
  let s := pr.2
  let tf := stampFines t'
  let s := (s.put (ACQ_TRIG_FIRES.VALUE k) (satN 32 (s.fld (ACQ_TRIG_FIRES.VALUE k) + 1))).put (ACQ_TRIG_STATUS.FIRED k) 1
  let s := s.setPair (ACQ_TRIG_TIME_LO.addr k) tf
  let s := s.trigReset k
  let s := if s.flag (ACQ_TRIG_CTRL.REPEAT k) then
      s.setTrig k { s.trig k with holdTo := some (tf + 65536 * s.fld (ACQ_TRIG_CTRL.HOLDOFF k)) }
    else s.put (ACQ_TRIG_STATUS.ARMED k) 0
  s.trigMarks k tf (b2n s.cold + fl) n qc cyc

/-- A stage whose limit ended before the instant t has not completed in time (R236). -/
def State.stageLimit (s : State) (k : Nat) (t : Int) : State :=
  let j := s.fld (ACQ_TRIG_STATUS.STAGE k)
  let lim := s.fld (ACQ_TRIG_TLIM.TLIM k j)
  if j ≠ 0 ∧ lim ≠ 0 ∧ 0 < ahead t (64 * ((s.trig k).done + 65536 * lim) : Nat) then
    (s.trigReset k).put (ACQ_TRIG_TIMEOUTS.VALUE k) (satN 32 (s.fld (ACQ_TRIG_TIMEOUTS.VALUE k) + 1))
  else s

/-- Whether an instant lies inside the hold-off of a unit (R237). -/
def TrigSt.heldOff (x : TrigSt) (t : Int) : Bool :=
  match x.holdTo with
  | some h => decide (ahead t (64 * h : Nat) < 0)
  | none => false

/-- One sample of an armed unit, with its time at each channel (R235, R236). -/
def State.trigSample (s : State) (k n : Nat) (xs : List (Nat × Nat)) (ts : List (Nat × Int)) (cyc : Nat) : State :=
  let x := s.trig k
  let s := s.stageLimit k (s.stageTime k (s.fld (ACQ_TRIG_STATUS.STAGE k)) ts)
  let j := s.fld (ACQ_TRIG_STATUS.STAGE k)
  let t := s.stageTime k j ts
  let holds := s.patHolds k j xs
  let held := match x.prev with | some (p, _) => s.patHolds k j p | none => false
  let qual := x.edges.any (fun e => decide (e.chan = s.fld (ACQ_TRIG_STAGE.QUAL_CH k j)) &&
    polOk (s.fld (ACQ_TRIG_STAGE.QUAL_POL k j)) e.rise && s.edgeBetween k j t e)
  let entry := holds && (if s.flag (ACQ_TRIG_STAGE.QUAL_EN k j) then qual else !held)
  let s := if entry = true ∧ x.heldOff t = false then
      let cnt := s.fld (ACQ_TRIG_STATUS.COUNT k) + 1
      if cnt < s.fld (ACQ_TRIG_STAGE.COUNT k j) then s.put (ACQ_TRIG_STATUS.COUNT k) cnt
      else if j = s.fld (ACQ_TRIG_CTRL.LAST k) then s.trigFire k j n xs t cyc
      else ((s.put (ACQ_TRIG_STATUS.STAGE k) (j + 1)).put (ACQ_TRIG_STATUS.COUNT k) 0).setTrig k
        { s.trig k with done := stampFines t }
    else s
  s.setTrig k { s.trig k with prev := some (xs, ts), edges := x.edges.filter (fun e => ts.any (fun y => decide (0 ≤ ahead e.t y.2))) }

/-- The time of a vector's sample at a channel in 1/64 fine, to the nearest (R219, R234): of UI u, or of S1. -/
def State.sampleTime (s : State) (n c : Nat) (v : Vec) (u : Nat) : Int :=
  let root := s.rootMhz
  let cycle := 64 * 4096 * 25600
  let x := if s.timed n then 64 * (v.time + (s.edge c v.tset 6).getD 0) * root + 48 * cycle
    else 64 * (s.act n).tStart * root + (v.cycle * s.serialCycles n + 48) * cycle +
      64 * (u * 512 + s.fld (TMG_MODE.SAMPLE n)) * 2 ^ s.fld (TMG_MODE.K n) * 25600
  ((2 * x + root) / (2 * root) : Nat)

/-- The samples of a vector's results given to every armed unit of its act (R234), in which the state I is M. -/
def State.trigVector (s : State) (n : Nat) (f : Flight) : State :=
  State.each (fun k s =>
    if s.flag (ACQ_TRIG_STATUS.ARMED k) ∧ s.fld (ACQ_TRIG_STATUS.ACT k) = n then
      let cs := s.trigChans k
      State.each (fun u s =>
        if s.flag (ACQ_TRIG_STATUS.ARMED k) then
          let xs := cs.filterMap (fun c =>
            let r := Tab.get (fun _ => 0) f.res (1024 * u + c)
            (resRaw r).map (fun raw => (c, if raw = 3 then 0 else raw)))
          if xs = [] then s else s.trigSample k n xs (xs.map (fun x => (x.1, s.sampleTime n x.1 f.vec u))) f.vec.cycle
        else s) (List.range (s.uis n)) s
    else s) (List.range 16) s

/-- A transition kept for the armed units that may qualify with it (R235, R238). -/
def State.trigsSee (s : State) (c : Nat) (low rise : Bool) (stamp : Option Int) (t : Int) : State :=
  State.each (fun k s =>
    if s.flag (ACQ_TRIG_STATUS.ARMED k) ∧ (c ∈ s.trigChans k ∨ (List.range 4).any (fun j =>
        decide (s.fld (ACQ_TRIG_STAGE.QUAL_CH k j) = c) && s.flag (ACQ_TRIG_STAGE.QUAL_EN k j)) = true) then
      s.setTrig k { s.trig k with edges := (s.trig k).edges ++ [⟨c, low, rise, stamp, t⟩] }
    else s) (List.range 16) s

/-! ## Tile pushes (R192, R193) -/

/-- The dirty tiles of a ring in ascending order. -/
def State.dirtyTiles (s : State) (g : Nat) : List Nat :=
  let a := s.dirtyBase g
  (s.dram.filter (fun e => decide (a ≤ e.1 ∧ e.1 < a + s.tileMapBytes g))).flatMap (fun e =>
    (bitList e.2.toNat 8 0).map (fun b => 8 * (e.1 - a) + b))

/-- The highest SEQ_CYCLE whose results have passed the fail processor; a free value before any has (R193). -/
def State.passedCycle (s : State) (n : Nat) : Nat × State :=
  let c := match (s.act n).line with
    | f :: _ => f.vec.cycle
    | [] => s.issued n
  if c = 0 then (s.free.toNat, s.takeFree) else (c - 1, s)

/-- The tile record of a tile (Table 10-2); an uncleared tile reads as zeros. -/
def State.tileRecord (s : State) (g tile : Nat) (final : Bool) (cyc : Nat) : StreamRec :=
  { kind := 8, flags := 0, time := s.time.toNat, ready := s.time.toNat
    payload := leBytes 8 s.time.toNat ++ leBytes 8 cyc ++ leBytes 4 tile ++ leBytes 4 (g + 256 * b2n final) ++ leBytes 8 0 ++
      (if s.dramBit (s.clearedBase g) tile then s.dramBytes (s.mapBase g + 512 * tile) 512 else List.replicate 512 0) }

/-- The dirty tiles of a push written one by one: a tile that finds no room stays dirty and ends the push. -/
def State.pushTiles (g i : Nat) (final : Bool) (cyc : Nat) : List Nat → State → State
  | [], s => s
  | t :: ts, s =>
    let x := s.stream i
    let r := s.tileRecord g t final cyc
    let need := x.used + 16 * (x.waiting.map StreamRec.units).sum + 16 * r.units + 48
    if need ≤ s.ringSize i ∧ s.staging + 16 * r.units ≤ 1048576 then
      let s := (s.setDramBit (s.dirtyBase g) t false).put (FAIL_TILE_STATUS.DIRTY g) (s.fld (FAIL_TILE_STATUS.DIRTY g) - 1)
      State.pushTiles g i final cyc ts (s.complete i r)
    else s.put (FAIL_TILE_STATUS.STREAM_FULL g) 1

/-- The running push of a ring written and over (R192). -/
def State.tilePushEnd (s : State) (g : Nat) : State :=
  match (s.ring g).push with
  | none => s
  | some final =>
    let s := (s.setRing g { s.ring g with push := none }).put (FAIL_TILE_STATUS.PUSHING g) 0
    let i := s.fld (FAIL_TILE_CFG.STREAM g)
    if !s.streamOn i then s.put (FAIL_TILE_STATUS.STREAM_OFF g) 1
    else
      let pr := match s.ringAct g with
        | some n => s.passedCycle n
        | none => (s.free.toNat, s.takeFree)
      let cyc := pr.1
      let s := pr.2
      State.pushTiles g i final cyc (s.dirtyTiles g) s

end Sys2Proof.Machine
end

