-- ==== Sys2Proof/Machine/TrkOps.lean ====
section
/-! DEFINITION. Strobe-tracked capture (10, R194-R196). Times are in 1/64 fine, UI are numbered SEQ_CYCLE x UI per vector
+ UI. -/

namespace Sys2Proof.Machine

/-- Whether a channel is a strobe, in an act in serial mode (R194). -/
def State.isStrobe (s : State) (c : Nat) : Bool :=
  decide (s.fld (PIN_TRK_CFG.ROLE c) = 2) && (match s.actOfChan c with | some n => !s.timed n | none => false)

/-- Whether a data channel names a strobe of its own block (R194). -/
def State.namesStrobe (s : State) (c : Nat) : Bool :=
  let st := s.fld (PIN_TRK_CFG.STROBE_CH c)
  decide (st / 64 = c / 64) && decide (s.fld (PIN_TRK_CFG.ROLE st) = 2)

/-- The data channels that a strobe tracks: at most 16, the lowest (R194). -/
def State.tracked (s : State) (st : Nat) : List Nat :=
  ((blockChans (st / 64)).filter (fun c =>
    decide (s.fld (PIN_TRK_CFG.ROLE c) = 1) && decide (s.fld (PIN_TRK_CFG.STROBE_CH c) = st))).take 16

/-- The strobe that tracks a channel, if one does. -/
def State.tracker (s : State) (c : Nat) : Option Nat :=
  let st := s.fld (PIN_TRK_CFG.STROBE_CH c)
  if s.fld (PIN_TRK_CFG.ROLE c) = 1 ∧ s.namesStrobe c = true ∧ s.isStrobe st = true ∧ c ∈ s.tracked st then some st else none

/-- TRK_CONFIG (R194): the event of every data channel of an act that is compared untracked. -/
def State.trkConfig (s : State) (n : Nat) : State :=
  if s.timed n then s
  else State.each (fun c s =>
    if s.fld (PIN_TRK_CFG.ROLE c) = 1 ∧ s.tracker c = none then s.event 32 3 else s) (s.actChans n) s

/-- The time of `m` UI of an act in 1/64 fine, to the step below. -/
def State.ui64 (s : State) (n m : Nat) : Nat := m * (2 ^ s.fld (TMG_MODE.K n) * 512 * 64 * 25600) / s.rootMhz

/-- The symbol that expects a strobe's preamble level (R195). -/
def State.preSym (s : State) (st : Nat) : Nat := if s.flag (PIN_TRK_CFG.PRE_LVL st) then 5 else 4

/-- The expected symbol of a strobe in UI number `ui`, whose E_0 is `t`: a change away from PRE_LVL after PRE_LEN UI or more
begins a burst, but not inside another (R195; notes/assumptions/28.md). -/
def State.strobeSym (s : State) (st ui t sym : Nat) : State :=
  let x := s.chan st
  let len := s.fld (PIN_TRK_CFG.BURST_LEN st)
  let inside : Bool := match x.bursts.getLast? with | some b => decide (ui < b.b + len) | none => false
  if sym = s.preSym st then s.setChan st { x with preRun := x.preRun + 1 }
  else
    let begins := decide (max 1 (s.fld (PIN_TRK_CFG.PRE_LEN st)) ≤ x.preRun) && !inside
    s.setChan st { x with preRun := 0, bursts := if begins then x.bursts ++ [{ b := ui, e0 := t }] else x.bursts }

/-- The symbols of a vector at a strobe. E_0, the start of a UI, is kept without the K terms of a path, like the stamp of an
edge that it is held against (R195, R219; DEDUCED, notes/assumptions/28.md). -/
def State.strobeVector (s : State) (n st : Nat) (v : Vec) (syms : List Nat) : State :=
  State.each (fun u s =>
    s.strobeSym st (v.cycle * s.uis n + u) (64 * (v.time + s.fwdDepth) + s.ui64 n u) (syms.getD u 7))
    (List.range syms.length) s

/-- Whether an edge at t lies in the tracking range of beat j of a burst (R195); `ui m` is the time of m UI. -/
def Burst.inRange (b : Burst) (ui : Nat → Nat) (j t : Nat) : Bool :=
  let d := since 70 t (b.e0 + ui j)
  decide (-((ui 1 / 2 : Nat) : Int) ≤ d ∧ d < (ui 1 / 2 : Nat))

/-- A_j of a beat that has got its edge. -/
def Burst.edge (b : Burst) (j : Nat) : Option Int := (b.beats.find? (fun x => decide (x.1 = j))).map Prod.snd

/-- The bursts after an edge at t: the first beat that it belongs to gets it (R195, R196). Beat 0 needs the preamble, a
later beat a paired burst. -/
def takeEdge (ui : Nat → Nat) (len : Nat) (pre : Bool) (t : Nat) : List Burst → Option (List Burst)
  | [] => none
  | b :: bs =>
    match (List.range len).find? (fun j => b.inRange ui j t && b.failFrom.isNone && (b.edge j).isNone &&
        (if j = 0 then pre else (b.edge 0).isSome)) with
    | some j => some ({ b with beats := (j, (t : Int)) :: b.beats } :: bs)
    | none => (takeEdge ui len pre t bs).map (fun r => b :: r)

/-- A stray edge of a strobe (R196): STRAY, and the event at most once per 1 µs per ring. -/
def State.stray (s : State) (st : Nat) : State :=
  match s.ringOf st with
  | none => s
  | some g =>
    let s := s.put (FAIL_STATUS.STRAY g) 1
    let due : Bool := match (s.ring g).lastStray with | some t => decide (usFines ≤ elapsed 64 s.time.toNat t) | none => true
    if due then (s.setRing g { s.ring g with lastStray := some s.time.toNat }).event 32 2 else s

/-- The level the comparators say: some true H, some false L, none between (R99, R194). -/
def ChanSt.level (x : ChanSt) : Option Bool :=
  if x.outH && !x.outL then some true else if x.outL && !x.outH then some false else none

/-- An edge of a strobe at t (R194-R196). -/
def State.strobeEdge (s : State) (n st : Nat) (lvl : Bool) (t : Nat) : State :=
  let x := s.chan st
  let ui := s.ui64 n
  let pre := decide (x.lvl = some (s.flag (PIN_TRK_CFG.PRE_LVL st))) &&
    decide (((ui (s.fld (PIN_TRK_CFG.PRE_LEN st)) : Nat) : Int) - ((ui 1 / 2 : Nat) : Int) ≤ (elapsed 70 t x.since : Nat))
  let s' := s.setChan st { x with lvl := some lvl, since := t }
  match takeEdge ui (s.fld (PIN_TRK_CFG.BURST_LEN st)) pre t x.bursts with
  | some bs => s'.setChan st { s'.chan st with bursts := bs }
  | none => if pre then s'.stray st else s'

/-- A comparator transition at a strobe, at t in 1/64 fine: an edge where the pin has gone from L to H or from H to L. -/
def State.strobeSee (s : State) (c t : Nat) : State :=
  match s.actOfChan c with
  | none => s
  | some n =>
    if !s.isStrobe c then s
    else
      match (s.chan c).level, (s.chan c).lvl with
      | some l, some l' => if l = l' then s else s.strobeEdge n c l t
      | some l, none => s.setChan c { s.chan c with lvl := some l, since := t }
      | none, _ => s

/-- What a tracked channel's UI number `ui` is: no beat of a burst; a beat with its edge at A_j; one that still waits for its
edge; one that fails with MISSING_STROBE (R195, R196). -/
inductive Beat where
  | none | edge (a : Int) | waits | missing
deriving DecidableEq, Repr

/-- Whether beat j of a burst fails with MISSING_STROBE: the burst timed out at it or before (R196). -/
def Burst.fails (b : Burst) (j : Nat) : Bool := match b.failFrom with | some f => decide (f ≤ j) | none => false

/-- The burst of a tracked channel that holds a UI. -/
def State.burstOf (s : State) (c ui : Nat) : Option Burst :=
  match s.tracker c with
  | none => none
  | some st => (s.chan st).bursts.find? (fun b => decide (b.b ≤ ui ∧ ui < b.b + s.fld (PIN_TRK_CFG.BURST_LEN st)))

/-- What UI number `ui` of a channel is to the strobe that tracks it. -/
def State.trackedBeat (s : State) (c ui : Nat) : Beat :=
  match s.burstOf c ui with
  | none => .none
  | some b =>
    if b.fails (ui - b.b) then .missing
    else match b.edge (ui - b.b) with
      | some a => .edge a
      | none => .waits

/-- Whether the compare of a tracked channel in UI number `ui` fails with MISSING_STROBE (R196): its burst timed out, or
lacks the edge of this beat or an earlier one. -/
def State.missingStrobe (s : State) (c ui : Nat) : Bool :=
  match s.burstOf c ui with
  | none => false
  | some b => b.fails (ui - b.b) || (List.range (ui - b.b + 1)).any (fun j => (b.edge j).isNone)

/-- Whether a channel's tracking registers hold a reserved code that its role uses (Table 10-19). -/
def State.trkReserved (s : State) (c : Nat) : Bool :=
  let len := s.fld (PIN_TRK_CFG.BURST_LEN c)
  decide (s.fld (PIN_TRK_CFG.ROLE c) = 3) ||
    (decide (s.fld (PIN_TRK_CFG.ROLE c) = 2) && decide (s.fld (PIN_TRK_CFG.PRE_LEN c) = 0 ∨ len < 2 ∨ 32 < len))

/-- The bursts of a strobe that end before UI number `ui` forgotten. -/
def State.dropBursts (s : State) (st ui : Nat) : State :=
  let x := s.chan st
  if x.bursts = [] then s
  else s.setChan st { x with bursts := x.bursts.filter (fun b => decide (ui < b.b + s.fld (PIN_TRK_CFG.BURST_LEN st))) }

/-- The first beat of a burst without its edge. -/
def Burst.lacks (b : Burst) (len : Nat) : Option Nat := (List.range len).find? (fun j => (b.edge j).isNone)

/-- The oldest expected burst of a strobe that still waits for a beat fails from there on (R196). -/
def timeoutBurst (len : Nat) : List Burst → Option (Burst × Nat × List Burst)
  | [] => none
  | b :: bs =>
    match (if b.failFrom.isNone then b.lacks len else none) with
    | some j => some (b, j, { b with failFrom := some j } :: bs)
    | none => (timeoutBurst len bs).map (fun (x, j, r) => (x, j, b :: r))

end Sys2Proof.Machine
end

