-- ==== Sys2Proof/Machine/CalOps.lean ====
section
/-! DEFINITION. Calibration (14, R252-R273; 01, R22): bank switches, the groups of a pass, the plausibility limits, the
quality figures and staging. -/

namespace Sys2Proof.Machine

/-! ## Rounding and units -/

/-- A non-negative quotient to a whole unit: exact, or below a half the lower one; else the manual leaves it to rounding
or truncation (DESIGN CHOICE, notes/assumptions/25.md). -/
def State.roundLow (s : State) (num den : Nat) : Nat × State :=
  if 2 * (num % max 1 den) < max 1 den then (num / max 1 den, s)
  else (num / max 1 den + s.free.toNat % 2, s.takeFree)

/-- A quotient rounded so by its magnitude. -/
def State.roundMag (s : State) (num : Int) (den : Nat) : Int × State :=
  let pr := s.roundLow num.natAbs den
  let m := pr.1
  let s := pr.2
  (if num < 0 then -(m : Int) else (m : Int), s)

/-- The square root of num / den to a whole unit, in the same way. -/
def State.sqrtLow (s : State) (num den : Nat) : Nat × State :=
  let d := max 1 den
  let r := isqrt (num / d) 80 0
  if 4 * num < (2 * r + 1) * (2 * r + 1) * d then (r, s) else (r + s.free.toNat % 2, s.takeFree)

/-! ## Staging (R254) -/

/-- A channel's staged bank written whole: it is eligible (R254). -/
def State.stageBank (s : State) (c : Nat) (k : Coef) : State :=
  let s := s.setChan c { s.chan c with staged := k }
  if s.flag (PIN_QUALITY_STAT.ELIGIBLE c) then s
  else
    let s := s.put (PIN_QUALITY_STAT.ELIGIBLE c) 1
    let s := if s.fld CAL_STATUS.PENDING = 0 then s.withCal { s.cal with since := some s.time.toNat } else s
    s.put CAL_STATUS.PENDING (s.fld CAL_STATUS.PENDING + 1)

/-! ## Limits (R268, Table 14-3) -/

/-- One check: the row of Table 14-3, the value as num / den in the unit of the limit field, the limit, and whether it
bounds the value from below. -/
structure Check where
  row : Nat
  num : Int
  den : Nat
  lim : Nat
  low : Bool := false
deriving DecidableEq, Repr

/-- Whether a check fails. -/
def Check.broken (k : Check) : Bool :=
  if k.low then decide (k.num < k.lim * k.den) else decide (k.lim * k.den < k.num.natAbs)

/-- The bin table of an interpolator from its hits (R220), rounded to the nearest unit, halves up. -/
def binTable (total : Nat) : Nat → List Nat → List Nat
  | _, [] => []
  | acc, h :: hs => (2 * (2 * acc + h) * 16384 + total) / (2 * total) :: binTable total (acc + h) hs

/-- The checks of the TDC group: every bin width in 0.01 nominal. -/
def State.binChecks (s : State) (hits : List (List Nat)) : List Check :=
  hits.flatMap (fun hs => hs.flatMap (fun h =>
    [⟨0, 51200 * h, hs.sum, s.fld CAL_LIMIT_BIN.BIN_MIN, true⟩, ⟨0, 51200 * h, hs.sum, s.fld CAL_LIMIT_BIN.BIN_MAX, false⟩]))

/-- The largest |DNL| of a TDC's hits as a quotient, in 0.001 bin (R220, R271). -/
def maxDnl (hits : List (List Nat)) : Nat × Nat :=
  hits.foldl (fun acc hs => hs.foldl (fun (n, d) h =>
    let v := ((512 * h : Nat) - (hs.sum : Nat) : Int).natAbs * 1000
    if n * hs.sum < v * d then (v, hs.sum) else (n, d)) acc) (0, 1)

/-! ## Statistics of what is gathered (R259-R261, R271) -/

/-- A list in rising order. -/
def insertUp (x : Int) : List Int → List Int
  | [] => [x]
  | y :: ys => if x ≤ y then x :: y :: ys else y :: insertUp x ys
def sortUp (xs : List Int) : List Int := xs.foldr insertUp []

/-- Twice the median of a list: the middle value, or the mean of the two in the middle. -/
def median2 (xs : List Int) : Int :=
  let ys := sortUp xs
  ys.getD ((ys.length - 1) / 2) 0 + ys.getD (ys.length / 2) 0

/-- Four times the median absolute deviation of a list from its median. -/
def mad4 (xs : List Int) : Int :=
  let m := median2 xs
  median2 (xs.map (fun x => |2 * x - m|))

/-- The stamps of a channel after their conversion, without the interpolator offsets: the common edge by CH and CL, each
with its interpolator, and the driver tap by CH (1/64 fine). -/
structure Stamps where
  h : List (Nat × Int)
  l : List (Nat × Int)
  tap : List Int
deriving DecidableEq, Repr

/-- Stamps converted with the bin tables of a bank (R219, R259). -/
def State.convert (s : State) (k : Coef) (low : Bool) (xs : List RawStamp) : List (Nat × Int) :=
  xs.map (fun x => (x.inter.val, x.coarse + s.finePart (k.tab low x.inter.val x.code.toNat)))

/-- The stamps of a measurement converted with the bin tables of a bank. -/
def State.stamps (s : State) (k : Coef) (m : ChanMeas) : Stamps :=
  ⟨s.convert k false m.edgeH, s.convert k true m.edgeL, (s.convert k false m.tap).map Prod.snd⟩

/-- The stamps of one interpolator. -/
def byInter (xs : List (Nat × Int)) (j : Nat) : List Int := (xs.filter (fun x => decide (x.1 = j))).map Prod.snd

/-- The span between the 0.1 % and the 99.9 % quantile of a list: of the n values in order the one at n / 1000 from either end
(DESIGN CHOICE, notes/assumptions/29.md). -/
def quantileSpan (xs : List Int) : Int :=
  let ys := sortUp xs
  let k := ys.length / 1000
  ys.getD (ys.length - 1 - k) 0 - ys.getD k 0

/-- The switching-point error delta of a comparator in microvolts (R260); a source without a ramp time has none, and the
value is free. -/
def State.thrDelta (s : State) (d : Nat) (m : ThrMeas) : Int × State :=
  let k := Tab.get (fun _ => {}) s.cal.dies d
  if k.ramp = 0 then (signed 32 s.free.toNat, s.takeFree)
  else s.roundTo ((m.vb - m.va) * (median2 m.ups - median2 m.downs - 2 * k.c)) (4 * k.ramp)

/-- What a pass or run works out of its statistics before the checks: r_h, r_l and r_d in 1/16 fine, the interpolator
offsets in 1/64 fine, the deltas of CH and CL in microvolts, and the median absolute deviations of the drive, CH and CL
paths in 1/256 fine. -/
structure Derived where
  rh : Int
  rl : Int
  rd : Int
  iofs : List Int
  dh : Int
  dl : Int
  mads : List Int
deriving DecidableEq, Repr

/-- The offset of one interpolator (R259): its median less the mean over its TDC's four. -/
def State.iofsOf (s : State) (xs : List (Nat × Int)) (j : Nat) : Int × State :=
  let sum := ((List.range 4).map (fun i => median2 (byInter xs i))).sum
  s.roundTo (4 * median2 (byInter xs j) - sum) 8

/-- Values worked out one after the other. -/
def State.gather {α : Type} (f : α → State → Int × State) : List α → State → List Int × State
  | [], s => ([], s)
  | x :: xs, s =>
    let pr := f x s
    let rest := State.gather f xs pr.2
    (pr.1 :: rest.1, rest.2)

/-- The deskew residuals of R259; the expected edge time includes the die's common-edge offset. -/
def State.residuals (s : State) (c : Nat) (z : Stamps) : (Int × Int × Int) × State :=
  let ofs := (Tab.get (fun _ => {}) s.cal.dies (c / 64)).offset
  let h := s.roundTo (median2 (z.h.map Prod.snd) - 8 * ofs) 8
  let l := h.2.roundTo (median2 (z.l.map Prod.snd) - 8 * ofs) 8
  let d := l.2.roundTo (median2 z.tap - 8 * h.1) 8
  ((h.1, l.1, d.1), d.2)

/-- What the statistics of a channel give with the bin tables of a bank (R259, R260, R268). -/
def State.derive (s : State) (c : Nat) (k : Coef) (m : ChanMeas) : Derived × State :=
  let z := s.stamps k m
  let r := s.residuals c z
  let io := State.gather (fun i s => s.iofsOf (if i < 4 then z.h else z.l) (i % 4)) (List.range 8) r.2
  let dh := io.2.thrDelta (c / 64) m.thrH
  let dl := dh.2.thrDelta (c / 64) m.thrL
  (⟨r.1.1, r.1.2.1, r.1.2.2, io.1, dh.1, dl.1, [mad4 z.tap, mad4 (z.h.map Prod.snd), mad4 (z.l.map Prod.snd)]⟩, dl.2)

/-- The DAC that stands at a place of CAL_DAC (Table 14-4), the level DACs with the level set in use. -/
def State.dacAt (s : State) (c i : Nat) : ChanDac :=
  match i with
  | 0 => .hi (s.levelSet c)
  | 1 => .lo (s.levelSet c)
  | 2 => .vtt | 3 => .thrH | 4 => .thrL | 5 => .monLo | _ => .monHi

/-- The DACs that a live pass reads back: all seven, without the level DACs of a channel that executes and is not static
(R110, R261). -/
def State.liveDacs (s : State) (c : Nat) : List Nat :=
  if s.chanExecuting c && !s.flag (PIN_CFG.LVL_STATIC c) then [2, 3, 4, 5, 6] else List.range 7

/-- The mean residual of a DAC's readbacks at the code in use against its coding, in microvolts (R261). -/
def State.dacResid (s : State) (c : Nat) (m : ChanMeas) (i : Nat) : Int × State :=
  let xs := m.reads.getD i []
  s.roundTo (uV xs.sum - (xs.length : Int) * s.dacV c (s.dacAt c i)) (65536 * max 1 xs.length)

/-- The new offsets of the DACs that a live pass has read back, with the change of each; the others stay. -/
def State.liveOffsets (s : State) (c : Nat) (m : ChanMeas) : List Int × State :=
  State.gather (fun i s => if i ∈ s.liveDacs c then s.dacResid c m i else (0, s)) (List.range 7) s

/-- Gain (ppm) and offset (microvolts) of a DAC fitted through its readbacks at 10 % and 90 % of its range (R261): with them the
code of R253 gives the coded voltage (DEDUCED, notes/assumptions/29.md). Readbacks that do not rise have no such fit, and both
are free values. -/
def State.dacFit (s : State) (d : ChanDac) (p : List Int × List Int) : (Int × Int) × State :=
  let lo := d.top / 10
  let hi := 9 * d.top / 10
  let n : Int := max 1 p.1.length
  let k : Int := max 1 p.2.length
  -- the rise in 1/(65,536 n k) microvolt, nominal and measured
  let nominal : Int := ((hi : Int) - lo) * d.lsb * n * k
  let rise : Int := uV (p.2.sum * n - p.1.sum * k)
  if rise ≤ 0 then ((signed 32 s.free.toNat, signed 32 s.takeFree.free.toNat), s.takeFree.takeFree)
  else
    let g := s.roundTo (1000000 * (nominal - rise)) rise.toNat
    -- the output at code 0: the reading at `lo` less its share of the rise
    let span : Int := (hi : Int) - lo
    let o := g.2.roundTo (d.volts 0 * n * k * span - (uV p.1.sum * k * span - lo * rise)) (65536 * n * k * span).toNat
    ((g.1, o.1), o.2)

/-- The fits of the seven DACs. -/
def State.dacFits (f : FullMeas) : List Nat → State → List (Int × Int) × State
  | [], s => ([], s)
  | i :: is, s =>
    let pr := s.dacFit (s.dacAt f.c i) (f.points.getD i ([], []))
    let rest := State.dacFits f is pr.2
    (pr.1 :: rest.1, rest.2)

/-- Whether the statistics of a group are whole (R259-R261): 1,024 stamps behind each median, 4,096 edges of each polarity, a
readback of each DAC. -/
def State.groupWhole (s : State) (c g : Nat) (m : ChanMeas) : Bool :=
  match g with
  | 1 => [m.edgeH, m.edgeL].all (fun xs => (List.range 4).all (fun j => decide (1024 ≤ (xs.filter (fun x => decide (x.inter.val = j))).length))) &&
      decide (1024 ≤ m.tap.length)
  | 2 => [m.thrH, m.thrL].all (fun x => decide (4096 ≤ x.ups.length ∧ 4096 ≤ x.downs.length)) && decide (1 ≤ m.phases.length)
  | 3 => (s.liveDacs c).all (fun i => decide (1 ≤ (m.reads.getD i []).length))
  | _ => true

/-! ## The checks and the adoption of a group -/

/-- The checks of a group of a live pass, in the rows' order; `g` as CAL_CTRL.GROUPS numbers them, `ds` the DACs' residuals. -/
def State.liveChecks (s : State) (c g : Nat) (x : Derived) (ds : List Int) (hits : List (List Nat)) : List Check :=
  match g with
  | 0 => s.binChecks hits
  | 1 =>
    ([-x.rd, x.rh, x.rl].map (fun v => (⟨1, v * 1000000, 1048576, s.fld CAL_LIMIT_DESKEW.LIVE, false⟩ : Check))) ++
    (x.iofs.map (fun v => (⟨3, v, 64, s.fld CAL_LIMIT_BIN.IOFS_MAX, false⟩ : Check))) ++
    (x.mads.map (fun v => (⟨4, v * 1000000, 16777216, s.fld CAL_LIMIT_SPREAD.MAD, false⟩ : Check)))
  | 2 => [x.dh, x.dl].map (fun v => ⟨5, v, 1, s.fld CAL_LIMIT_THR.LIVE, false⟩)
  | _ => (s.liveDacs c).map (fun i => ⟨7, -(ds.getD i 0), 1, s.fld CAL_LIMIT_OFFSET.LIVE, false⟩)

/-- The bank with an accepted group's quantities of a live pass or of the groups 0 to 2 of a full run (R254, R259-R261). -/
def State.adopt (s : State) (g : Nat) (x : Derived) (ds : List Int) (hits tables : List (List Nat)) (k : Coef) : Coef × State :=
  match g with
  | 0 =>
    let pr := maxDnl (hits.take 4)
    let hn := pr.1
    let hd := pr.2
    let pr := maxDnl (hits.drop 4)
    let ln := pr.1
    let ld := pr.2
    let pr := s.roundLow hn hd
    let h := pr.1
    let s := pr.2
    let pr := s.roundLow ln ld
    let l := pr.1
    let s := pr.2
    ({ k with tabs := tables, btH := true, btL := true, dnlH := some h, dnlL := some l }, s)
  | 1 => ({ k with drv := k.drv - x.rd, cmpH := k.cmpH + x.rh, cmpL := k.cmpL + x.rl, iofs := x.iofs }, s)
  | 2 => ({ k with ofsH := k.ofsH + x.dh, ofsL := k.ofsL + x.dl }, s)
  | _ =>
    ({ k with
      dac := (List.range 7).map (fun i =>
        let pr := k.dac.getD i (0, 0)
        (pr.1, pr.2 - ds.getD i 0)) }, s)

/-- The checks of a group of a full run. -/
def State.fullChecks (s : State) (g : Nat) (k : Coef) (f : FullMeas) (x : Derived) (fits : List (Int × Int)) : List Check :=
  match g with
  | 0 => s.binChecks f.hits
  | 1 =>
    ([k.drv - x.rd, k.cmpH + x.rh, k.cmpL + x.rl].map (fun v =>
      (⟨2, v * 10000, 1048576, s.fld CAL_LIMIT_DESKEW.FULL, false⟩ : Check))) ++
    (x.iofs.map (fun v => (⟨3, v, 64, s.fld CAL_LIMIT_BIN.IOFS_MAX, false⟩ : Check))) ++
    (x.mads.map (fun v => (⟨4, v * 1000000, 16777216, s.fld CAL_LIMIT_SPREAD.MAD, false⟩ : Check)))
  | 2 => [k.ofsH + x.dh, k.ofsL + x.dl].map (fun v => ⟨6, v, 10, s.fld CAL_LIMIT_THR.FULL, false⟩)
  | _ =>
    (fits.map (fun v => (⟨8, v.2, 10, s.fld CAL_LIMIT_OFFSET.FULL, false⟩ : Check))) ++
    (fits.map (fun v => (⟨9, v.1, 1, s.fld CAL_LIMIT_GAIN.DEV, false⟩ : Check)))

/-! ## Rejection (R269, R270) -/

/-- A rejected group counted; its event unless the pass has raised one for the channel. -/
def State.rejectGroup (s : State) (c g : Nat) (k : Check) (quiet : Bool) : State :=
  let s := (s.bump CAL_REJECTS.REJECT).bump (PIN_QUALITY_STAT.REJECTS c)
  if quiet then s
  else
    let pr := s.roundMag k.num k.den
    let v := pr.1
    let s := pr.2
    s.event 10 1 (c + 4096 * g + 65536 * k.row) (twos 32 v) k.lim

/-- A group rejected live once more (R270). -/
def State.countReject (s : State) (c g : Nat) : State :=
  let x := s.chan c
  let n := x.rejRun.getD g 0 + 1
  let s := s.setChan c { x with rejRun := (List.range 4).map (fun i => if i = g then n else x.rejRun.getD i 0) }
  let lim := s.fld CAL_CTRL.REJ_LIMIT
  if lim ≠ 0 ∧ lim ≤ n then
    let s := s.put (PIN_QUALITY_STAT.HELD c) (s.fld (PIN_QUALITY_STAT.HELD c) ||| 2 ^ g)
    (s.put CAL_STATUS.HELD 1).event 10 2
  else s

/-- A group accepted: its run of rejections ends; a full run also releases it. -/
def State.acceptGroup (s : State) (c g : Nat) (full : Bool) : State :=
  let x := s.chan c
  let s := s.setChan c { x with rejRun := (List.range 4).map (fun i => if i = g then 0 else x.rejRun.getD i 0) }
  if full then s.put (PIN_QUALITY_STAT.HELD c) (setBit (s.fld (PIN_QUALITY_STAT.HELD c)) g false) else s

/-! ## Quality figures (R271) -/

/-- The UI of the PRBS in 1/65,536 of a fine's multiple: the act's serial rate, or 3.2 Gbit/s (2,048 fines) in timed mode
and in IDLE; as a quotient of fines. -/
def State.prbsUi (s : State) (c : Nat) : Nat × Nat :=
  match s.mode, s.actOfChan c with
  | .idle, _ | _, none => (2048, 1)
  | _, some n => if s.timed n then (2048, 1) else (2 ^ s.fld (TMG_MODE.K n) * 512 * 25600, s.rootMhz)

/-- A figure stored in its field, or a free value where it does not fit (DESIGN CHOICE, notes/assumptions/29.md). -/
def State.putFigure (s : State) (f : Field) (v : Int) : State :=
  if 0 ≤ v ∧ v < (2 ^ f.len : Nat) then s.put f v.toNat else (s.put f s.free.toNat).takeFree

/-- RESID, the root mean square of the residuals of the TIME group (R271). -/
def State.figResid (s : State) (c : Nat) (x : Derived) : State :=
  let pr := s.sqrtLow ((x.rd * x.rd + x.rh * x.rh + x.rl * x.rl).toNat * 100000000000000) (3 * 2 ^ 40)
  pr.2.putFigure (PIN_QUALITY_TIME.RESID c) pr.1

/-- EYE and the two THR figures of the THRESH group (R271). -/
def State.figThr (s : State) (c : Nat) (m : ChanMeas) (x : Derived) : State :=
  let ui := s.prbsUi c
  let pr := s.roundMag (64 * (ui.1 : Int) - quantileSpan m.phases * ui.2) (64 * ui.2)
  let s := pr.2.putFigure (PIN_QUALITY_EYE.EYE c) pr.1
  (s.put (PIN_QUALITY_THR.CH c) (satN 16 x.dh.natAbs)).put (PIN_QUALITY_THR.CL c) (satN 16 x.dl.natAbs)

/-- The largest |DNL| of a bin table, in 1/64 bin, after a bin of width w with its centre at t: half of a bin's width lies
on either side of its centre (R220). -/
def tableDnl : Int → Int → List Nat → Nat
  | _, _, [] => 0
  | w, t, x :: xs => max (2 * ((x : Int) - t) - w - 64).natAbs (tableDnl (2 * ((x : Int) - t) - w) x xs)

/-- The DNL figure of one TDC (R271): of the hits behind its tables, or, where they come from the store or are nominal, of the
tables themselves (DEDUCED, notes/assumptions/29.md). -/
def State.figDnl (s : State) (f : Field) (k : Coef) (low : Bool) (v : Option Nat) : State :=
  match v with
  | some v => s.putFigure f v
  | none =>
    let pr := s.roundLow (1000 * maxOf ((List.range 4).map (fun j => tableDnl 0 0 ((List.range 512).map (k.tab low j))))) 64
    pr.2.putFigure f pr.1

/-- The figures of the groups that a pass ran; `k` is the bank in force after it. -/
def State.figures (s : State) (c : Nat) (groups : Nat) (m : ChanMeas) (x : Derived) (k : Coef) : State :=
  let s := if bitOf groups 1 then s.figResid c x else s
  let s := if bitOf groups 2 then s.figThr c m x else s
  if bitOf groups 0 then (s.figDnl (PIN_QUALITY_TDC.CH c) k false k.dnlH).figDnl (PIN_QUALITY_TDC.CL c) k true k.dnlL else s

/-! ## Live passes (R262-R265) -/

/-- Whether a channel has its turn now (R254, R262). -/
def State.passDue (s : State) (c : Nat) : Bool :=
  bitOf (s.fld (CAL_MASK.CHANNELS (c / 32))) (c % 32) && !s.flag (PIN_CFG.UNUSED c) &&
    !s.flag (PIN_QUALITY_STAT.ELIGIBLE c) && decide (s.fld (PIN_QUALITY_STAT.HELD c) ≠ 15) &&
    (match (s.chan c).lastPass with
     | some t => s.past (t + s.fld CAL_SCHED.PERIOD * 6553600000000)
     | none => true)

/-- The channel of a die that the schedule visits next: ascending from the last one, then from the first again. -/
def State.passNext (s : State) (d : Nat) : Option Nat :=
  let cs := blockChans d
  let cs := match (s.die d).lastChan with
    | some l => cs.filter (fun c => decide (l < c)) ++ cs.filter (fun c => decide (c ≤ l))
    | none => cs
  cs.find? s.passDue

/-- Whether a live pass is in progress on any die. -/
def State.liveBusy (s : State) : Bool := (List.range 16).any (fun d => (s.die d).pass.isSome)

/-- The TDCs of a channel that a pass holds or holds no longer, `was` as it was before: measurements and reductions follow
(R221, R232, R243). -/
def State.tdcSync (s : State) (c : Nat) (was : Bool) : State :=
  if s.tdcHeld c = was then s
  else if was then (s.streamsRelease c).tdcRelease
  else s.tdcTake.streamsTake c

/-- Whether a pass has come to the groups that need a loopback input (R262, R263). -/
def PassSt.loops (p : PassSt) : Bool := (bitOf p.groups 1 || bitOf p.groups 2) && (p.tables.isSome || !bitOf p.groups 0)

/-- The pass of a die changed. -/
def State.setPass (s : State) (d : Nat) (p : PassSt) : State :=
  let was := s.tdcHeld p.chan
  (s.setDie d { s.die d with pass := some p }).tdcSync p.chan was

/-- The comparators of the channel of a die's pass on a loopback input or not. -/
def State.passLend (s : State) (d : Nat) (lent : Bool) : State :=
  match (s.die d).pass with
  | some p => s.setPass d { p with lent := lent && p.loops }
  | none => s

/-- A channel whose act does not run has its comparators on a loopback input while its pass needs them (DEDUCED,
notes/assumptions/26.md). -/
def State.passIdle (d : Nat) (s : State) : State :=
  match (s.die d).pass with
  | some p => s.passLend d (match s.actOfChan p.chan with | some n => !s.running n | none => true)
  | none => s

/-- A pass begins: STALE shows it (R262, R264). -/
def State.passStart (s : State) (d c : Nat) : State :=
  let groups := s.fld CAL_CTRL.GROUPS &&& (15 - s.fld (PIN_QUALITY_STAT.HELD c))
  let s := s.setDie d { s.die d with pass := some { chan := c, start := s.time.toNat, groups := groups }, lastChan := some c }
  let s := (s.put (PIN_STATUS.STALE c) 1).put (PIN_PPMU_MEAS.STALE c) 1
  let s := (s.put CAL_STATUS.CHANNEL c).put CAL_STATUS.LIVE_BUSY 1
  State.passIdle d (s.tdcSync c false)

/-- A pass ends: the channel and its TDCs are released, and a measurement that was started meanwhile begins (R108). -/
def State.passOver (s : State) (d c : Nat) : State :=
  let was := s.tdcHeld c
  let s := s.setDie d { s.die d with pass := none }
  let s := s.setChan c { s.chan c with lastPass := some s.time.toNat }
  let s := (s.put (PIN_STATUS.STALE c) 0).put (PIN_PPMU_MEAS.STALE c) 0
  let s := if (s.chan c).meas then (s.setChan c { s.chan c with meas := false }).ask (c / 64)
      (s.time.toNat + s.fld (PIN_PPMU_CFG.SETTLE c) * usFines) (c % 64) else s
  (s.putB CAL_STATUS.LIVE_BUSY s.liveBusy).tdcSync c was

/-- The pass of a die abandoned (R256, R266). -/
def State.passDrop (d : Nat) (s : State) : State :=
  match (s.die d).pass with
  | some p => s.passOver d p.chan
  | none => s

/-- Every live pass abandoned. -/
def State.passesDrop (s : State) : State := State.each State.passDrop (List.range 16) s

/-- The groups of a live pass checked and adopted in order; the second result is the bank, the third whether an event has
been raised. -/
def State.liveGroups (c : Nat) (p : PassSt) (x : Derived) (ds : List Int) : List Nat → State → Coef → Bool → State × Coef
  | [], s, k, _ => (s, k)
  | g :: gs, s, k, quiet =>
    if !bitOf p.groups g then State.liveGroups c p x ds gs s k quiet
    else
      let pr := p.tables.getD ([], [])
      let hits := pr.1
      let tables := pr.2
      match (s.liveChecks c g x ds hits).find? (·.broken) with
      | some b => State.liveGroups c p x ds gs ((s.rejectGroup c g b quiet).countReject c g) k true
      | none =>
        let pr := s.adopt g x ds hits tables k
        let k := pr.1
        let s := pr.2
        State.liveGroups c p x ds gs (s.acceptGroup c g false) k quiet

/-- The bank whose bin tables convert the stamps of a pass or run (R259): with the tables that it stages where the TDC group ran
and is accepted, else the active ones. -/
def State.withTables (s : State) (k : Coef) (t : Option (List (List Nat) × List (List Nat))) : Coef :=
  match t with
  | some (hits, tables) => if (s.binChecks hits).any (·.broken) then k else { k with tabs := tables }
  | none => k

/-- A live pass finishes (R254, R255, R268-R271). -/
def State.passEnd (s : State) (d : Nat) (p : PassSt) (m : ChanMeas) : State :=
  let c := p.chan
  let pr := s.derive c (s.withTables (s.chan c).active (if bitOf p.groups 0 then p.tables else none)) m
  let x := pr.1
  let ds := pr.2.liveOffsets c m
  let s := ds.2
  let pr := State.liveGroups c p x ds.1 (List.range 4) s (s.chan c).active false
  let s := pr.1
  let k := pr.2
  let s := s.figures c p.groups m x k
  let s := (s.stageBank c k).passOver d c
  if s.chanExecuting c then s else s.switchBank c

/-! ## Full runs (R266) -/

/-- The channels of a full run. -/
def State.fullChans (s : State) : List Nat :=
  (numsTo 1024).filter (fun c => !s.flag (PIN_CFG.UNUSED c) &&
    (s.flag CAL_CTRL.FULL_ALL || bitOf (s.fld (CAL_MASK.CHANNELS (c / 32))) (c % 32)))

/-- A full run begins: live passes are abandoned. -/
def State.fullStart (s : State) : State := s.passesDrop.put CAL_STATUS.FULL_BUSY 1

/-- A full run abandoned: ABORTED, CAL_DONE (R266). -/
def State.fullAbort (s : State) : State :=
  if s.flag CAL_STATUS.FULL_BUSY then
    ((s.put CAL_STATUS.FULL_BUSY 0).put CAL_STATUS.FULL_RESULT 3).event 10 4 3
  else s

/-- The groups of a full run of one channel; the third result is the number rejected. -/
def State.fullGroups (f : FullMeas) (x : Derived) (fits : List (Int × Int)) (k0 : Coef) : List Nat → State → Coef → Nat → State × Coef × Nat
  | [], s, k, n => (s, k, n)
  | g :: gs, s, k, n =>
    match (s.fullChecks g k0 f x fits).find? (·.broken) with
    | some b => State.fullGroups f x fits k0 gs (s.rejectGroup f.c g b (decide (n ≠ 0))) k (n + 1)
    | none =>
      if g = 3 then State.fullGroups f x fits k0 gs (s.acceptGroup f.c g true) { k with dac := fits } n
      else
        let pr := s.adopt g x [] f.hits (f.hits.map (fun h => binTable h.sum 0 h)) k
        let k := pr.1
        let s := pr.2
        State.fullGroups f x fits k0 gs (s.acceptGroup f.c g true) k n

/-- The results of one channel of a full run checked and staged; the second result is the number of groups rejected. -/
def State.fullChan (s : State) (f : FullMeas) : State × Nat :=
  let tables := f.hits.map (fun h => binTable h.sum 0 h)
  let pr := s.derive f.c (s.withTables (s.chan f.c).active (some (f.hits, tables))) f.m
  let x := pr.1
  let fits := State.dacFits f (List.range 7) pr.2
  let s := fits.2
  let k0 := (s.chan f.c).active
  let pr := State.fullGroups f x fits.1 k0 (List.range 4) s k0 0
  let s := pr.1
  let k := pr.2.1
  let n := pr.2.2
  ((s.figures f.c 15 f.m x k).stageBank f.c k, n)

/-- The results of all channels in turn. -/
def State.fullAll : List FullMeas → State → Nat → State × Nat
  | [], s, n => (s, n)
  | f :: fs, s, n =>
    let pr := s.fullChan f
    let s := pr.1
    let k := pr.2
    State.fullAll fs s (n + k)

/-- The die records of a full run (R258). -/
def calDies (dies : List DieMeas) : Tab CalDie :=
  (List.range 16).foldl (fun t d =>
    match dies[d]? with
    | some x => Tab.set (fun _ => {}) t d { offset := x.offset, ramp := x.ramp, c := x.c }
    | none => t) []

/-- Every channel's staged bank discarded (R256: SAFE, BOOT and OFF). -/
def State.stagedDrop (s : State) : State :=
  let s := State.each (fun c s =>
    if s.flag (PIN_QUALITY_STAT.ELIGIBLE c) then (s.setChan c { s.chan c with staged := {} }).put (PIN_QUALITY_STAT.ELIGIBLE c) 0
    else s) (numsTo 1024) s
  (s.put CAL_STATUS.PENDING 0).withCal { s.cal with since := none, warned := false }

/-- Entry to SAFE, BOOT or OFF: passes, the run and every staged bank are discarded (R256). -/
def State.calEnd (s : State) : State := s.passesDrop.fullAbort.stagedDrop

end Sys2Proof.Machine
end

