-- ==== Sys2Proof/Machine/Seq.lean ====
section
/-! DEFINITION. The FLOW opcodes (09, Table 9-8): one meaning per row. A row acts on the microinstruction at the act's
PC where that has its opcode; otherwise the event has not occurred (DEDUCED, notes/assumptions/8.md). -/

namespace Sys2Proof.Machine

/-- NEXT (R165); an uncorrectable fetch error makes the fault stop ECC_FETCH, whatever the microinstruction was (R291). A
corrected one is counted, and a microinstruction with another FLOW opcode is left to its own row (DEDUCED,
notes/assumptions/37.md). -/
def execNextVec (n : Act) (ecc : Ecc) (s : State) : Res :=
  if !s.canIssue n then .next s
  else
    match ecc with
    | .ue => .next ((s.eccUe 0 (0x200000 * n + 0x100000 * s.execHalf n + 16 * (s.act n).pc)).faultStop n 0x13)
    | .ce => microStep 0x00 n (s.eccCe false) (fun w s => (s.oneVector n w).goto n (s.pcNext n))
    | .clean => microStep 0x00 n s (fun w s => (s.oneVector n w).goto n (s.pcNext n))

/-- The repetitions left in a REPEAT. -/
def State.repeatLeft (s : State) (n w : Nat) : Nat :=
  match (s.act n).prog with
  | .repeat_ l => l
  | _ => uTarget w

/-- Up to `k` repetitions of a REPEAT (R166): after each the APG operations and the condition. -/
def State.repeatGo (n w : Nat) : Nat → State → State
  | 0, s => s
  | k + 1, s =>
    if !s.canIssue n then s
    else
      let left := s.repeatLeft n w
      let s := (s.issue n w 0 none).apgStep n w
      if left ≤ 1 ∨ s.cond n (uCsel w) = true then
        let s := s.goto n (s.pcNext n)
        if uCsel w % 128 = 0 then s else s.condDone n
      else State.repeatGo n w k (s.setAct n { s.act n with prog := .repeat_ (left - 1) })

/-- REPEAT (R166): `k` of its vectors. RMOP is applied once, before the first. -/
def execRepeatVec (n : Act) (k : Nat) (s : State) : Res :=
  microStep 0x01 n s (fun w s =>
    if k = 0 then s
    else State.repeatGo n w k (if (s.act n).prog = .none then s.rmop n (uRmop w) else s))

/-- JUMP (R167). -/
def execJump (n : Act) (s : State) : Res :=
  microStep 0x02 n s (fun w s => (s.oneVector n w).goto n (uTarget w))

/-- CALL (R167); 16 frames already open are a stack fault (R169). -/
def execCall (n : Act) (s : State) : Res :=
  microStep 0x03 n s (fun w s =>
    if 16 ≤ (s.act n).calls.length then s.faultStop n 0x0B
    else
      let s := s.oneVector n w
      let a := s.act n
      (s.setAct n { a with calls := (s.pcNext n, a.loops.length) :: a.calls }).goto n (uTarget w))

/-- RET (R167, R169). -/
def execRet (n : Act) (s : State) : Res :=
  microStep 0x04 n s (fun w s =>
    match (s.act n).calls with
    | [] => s.faultStop n 0x0B
    | (r, d) :: cs =>
      if (s.act n).loops.length ≠ d then s.faultStop n 0x0B
      else
        let s := s.oneVector n w
        (s.setAct n { s.act n with calls := cs }).goto n r)

/-- LOOP (R168, R169). -/
def execLoopVec (n : Act) (s : State) : Res :=
  microStep 0x05 n s (fun w s =>
    if 8 ≤ (s.act n).loops.length then s.faultStop n 0x0B
    else
      let s := s.oneVector n w
      let a := s.act n
      (s.setAct n { a with loops := (s.pcNext n, uTarget w) :: a.loops }).goto n (s.pcNext n))

/-- ENDLOOP (R168, R169). -/
def execEndloop (n : Act) (s : State) : Res :=
  microStep 0x06 n s (fun w s =>
    match (s.act n).loops with
    | [] => s.faultStop n 0x0B
    | (st, c) :: ls =>
      let s := s.oneVector n w
      if 1 < c then (s.setAct n { s.act n with loops := (st, c - 1) :: ls }).goto n st
      else (s.setAct n { s.act n with loops := ls }).goto n (s.pcNext n))

/-- The flow of BRANCH, whose condition is evaluated after the APG operations (R170). -/
def State.branchTo (s : State) (n w : Nat) : State :=
  (s.goto n (if s.cond n (uCsel w) then uTarget w else s.pcNext n)).condDone n

/-- BRANCH (R170). -/
def execBranch (n : Act) (s : State) : Res := microStep 0x07 n s (fun w s => (s.oneVector n w).branchTo n w)

/-- The end of a multi-vector microinstruction: the APG operations once, then PC + 1; a conditional flow lets the
prefetcher go on. -/
def State.endMicro (s : State) (n w : Nat) : State :=
  let s := s.apgStep n w
  (s.goto n (s.pcNext n)).condDone n

/-- Whether the pass of trial P is known at trial `i` (R171). -/
def State.matchKnown (s : State) (n i : Nat) (p : Option Nat) : Bool :=
  match p with
  | some t => decide (t + (s.act n).latency ≤ i)
  | none => false

/-- Up to `k` trials of a MATCH (R171). -/
def State.matchGo (n w : Nat) : Nat → State → State
  | 0, s => s
  | k + 1, s =>
    match (s.act n).prog with
    | .match_ first trials taking matched p =>
      if !s.canIssue n ∨ uTarget w ≤ trials then s
      else
        let s := s.issue n w 0 (some trials)
        if s.matchKnown n trials p then
          (s.setAct n { s.act n with matchTo := false }).endMicro n w
        else
          State.matchGo n w k (s.setAct n { s.act n with prog := .match_ first (trials + 1) taking matched p })
    | _ => s

/-- MATCH (R171): `k` of its trials. At the first, RMOP and the rings that take part; with none of them P = 0. -/
def execMatchVec (n : Act) (k : Nat) (s : State) : Res :=
  microStep 0x08 n s (fun w s =>
    if k = 0 then s
    else if (s.act n).prog = .none then
      let s := s.rmop n (uRmop w)
      let a := s.act n
      let taking := a.working &&& ~~~a.bench
      State.matchGo n w k (s.setAct n { a with
        prog := .match_ (s.issued n) 0 taking 0 (if taking = 0 then some 0 else none) })
    else State.matchGo n w k s)

/-- The rings of SEQ_RING_MASK. -/
def State.ringMask (s : State) (n : Nat) : Nat := s.fld (SEQ_RING_MASK_LO.RINGS n) + 2 ^ 32 * s.fld (SEQ_RING_MASK_HI.RINGS n)

/-- Rings set in the bench mask of an act (R134). -/
def State.benchSet (s : State) (n : Nat) (rings : BitVec 64) : State :=
  State.each (fun g s => s.put (FAIL_STATUS.BENCHED g) 1) (bitList rings.toNat 64 0)
    (s.setAct n { s.act n with bench := (s.act n).bench ||| rings })

/-- Whether the bench mask, with more rings, covers every ring whose bit was set at the start: SEQ_RING_MASK until the start
checks load it (R135). -/
def State.allBenched (s : State) (n : Nat) (rings : BitVec 64) : Bool :=
  let a := s.act n
  let at_ := if s.actState n = 1 ∧ a.checked = false then BitVec.ofNat 64 (s.ringMask n) else a.loaded
  decide (at_ ≠ 0 ∧ at_ &&& ~~~(a.bench ||| rings) = 0)

/-- Rings benched without a fail at a vector F; the last ring makes the fail stop ALL_BENCHED (R134, R135). -/
def State.benchRings (s : State) (n : Nat) (rings : BitVec 64) (F : Nat) : State :=
  let all := s.allBenched n rings
  let s := s.benchSet n rings
  if all then s.failStop n F 0x05 else s

/-- MATCH_TIMEOUT of R171 with the rings `left` that did not match and the cycle of the last trial; benched where the
condition selects it. -/
def State.matchGiveUp (s : State) (n : Nat) (left : BitVec 64) (last : Nat) (bench : Bool) : State :=
  let s := s.seqEvent n 7 (left.toNat % 2 ^ 32) (left.toNat / 2 ^ 32) (last % 2 ^ 32) (last / 2 ^ 32)
  let s := s.setAct n { s.act n with matchTo := true }
  if bench then s.benchRings n left last else s

/-- MATCH_TIMEOUT (R171): TARGET trials issued without the match becoming known. -/
def execMatchTimeout (n : Act) (s : State) : Res :=
  let w := s.microWord n
  match (s.act n).prog with
  | .match_ _ trials taking matched p =>
    if s.canIssue n ∧ uFlow w = 0x08 ∧ uTarget w ≤ trials ∧ s.matchKnown n (trials - 1) p = false then
      .next ((s.matchGiveUp n (taking &&& ~~~matched) (s.issued n - 1) (decide (uCsel w = 1))).endMicro n w)
    else .next s
  | _ => .next s

/-- A wait that is late: WAIT_TO, event WAIT_LATE, on at once (R172, R173). -/
def State.waitLate (s : State) (n w : Nat) : State :=
  let s := s.setAct n { s.act n with waitTo := true }
  (s.seqEvent n 8).endMicro n w

/-- t_w of a WAIT_TIME (R172): W is CSEL over TARGET, in 16 ticks. -/
def State.waitTw (s : State) (n w : Nat) : Nat := (s.act n).tStart + 16 * 512 * (uCsel w * 2 ^ 24 + uTarget w)

/-- Up to `k` further vectors of a WAIT_TIME, each issued before t_w (R172). -/
def State.waitTimeGo (n w : Nat) : Nat → State → State
  | 0, s => s
  | k + 1, s =>
    match (s.act n).prog with
    | .waitTime tw =>
      if !s.canIssue n ∨ tw ≤ s.nextIssue n then s
      else State.waitTimeGo n w k (s.issue n w 0 none)
    | _ => s

/-- WAIT_TIME (R172): `k` of its vectors; late where t_w is at or before the issue time of the first. -/
def execWaitTime (n : Act) (k : Nat) (s : State) : Res :=
  microStep 0x09 n s (fun w s =>
    match k, (s.act n).prog with
    | 0, _ => s
    | k + 1, .none =>
      let s := s.rmop n (uRmop w)
      let t := s.nextIssue n
      let tw := s.waitTw n w
      let s := s.issue n w 0 none
      if tw ≤ t then s.waitLate n w
      else State.waitTimeGo n w k (s.setAct n { s.act n with prog := .waitTime tw })
    | k + 1, _ => State.waitTimeGo n w (k + 1) s)

/-- WAIT_TIME_REACHED (R172): the next vector's issue time is at or after t_w. -/
def execWaitTimeReached (n : Act) (s : State) : Res :=
  let w := s.microWord n
  match (s.act n).prog with
  | .waitTime tw =>
    if s.canIssue n ∧ tw ≤ s.nextIssue n then
      .next ((s.setAct n { s.act n with waitTo := false }).endMicro n w)
    else .next s
  | _ => .next s

/-- The timeout U of a WAIT_WHISTLE in fines (R173); 0 = none. -/
def waitU (w : Nat) : Nat := (uCsel w * 2 ^ 16 + uTarget w / 256) * 16384 * 512

/-- The instant a WAIT_WHISTLE times out, if it can. -/
def waitDeadline (w first : Nat) : Option Nat := if waitU w = 0 then none else some (first + waitU w)

/-- The end of one wait vector issued at `t`: the cue is looked for (R173). -/
def State.takeCue (s : State) (n w t first : Nat) : State :=
  match (s.act n).cue with
  | some (c, tc) =>
    if c = uTarget w % 256 then
      let s := s.setAct n { s.act n with cue := none }
      if after tc t = false then s.waitLate n w
      else
        let s := s.setAct n { s.act n with prog := .waitCue first (some tc) }
        if after tc (s.nextIssue n) = false then (s.setAct n { s.act n with waitTo := false }).endMicro n w else s
    else s.setAct n { s.act n with prog := .waitCue first none }
  | none => s.setAct n { s.act n with prog := .waitCue first none }

/-- Up to `k` further wait vectors of a WAIT_WHISTLE (R173). -/
def State.waitCueGo (n w : Nat) : Nat → State → State
  | 0, s => s
  | k + 1, s =>
    match (s.act n).prog with
    | .waitCue first none =>
      let t := s.nextIssue n
      let late : Bool := match waitDeadline w first with | some d => decide (d ≤ t) | none => false
      if !s.canIssue n ∨ late = true then s
      else State.waitCueGo n w k ((s.issue n w 0 none).takeCue n w t first)
    | .waitCue first (some tc) =>
      if !s.canIssue n then s
      else
        let s := s.issue n w 0 none
        if after tc (s.nextIssue n) = false then (s.setAct n { s.act n with waitTo := false }).endMicro n w
        else State.waitCueGo n w k (s.setAct n { s.act n with prog := .waitCue first (some tc) })
    | _ => s

/-- WAIT_WHISTLE (R173): `k` of its wait vectors. -/
def execWaitWhistle (n : Act) (k : Nat) (s : State) : Res :=
  microStep 0x0A n s (fun w s =>
    match k, (s.act n).prog with
    | 0, _ => s
    | k + 1, .none =>
      let s := s.rmop n (uRmop w)
      let t := s.nextIssue n
      State.waitCueGo n w k ((s.issue n w 0 none).takeCue n w t t)
    | k + 1, _ => State.waitCueGo n w (k + 1) s)

/-- WAIT_TIMEOUT (R173): no matching cue was taken before the first wait vector's issue time plus U. -/
def execWaitTimeout (n : Act) (s : State) : Res :=
  let w := s.microWord n
  match (s.act n).prog with
  | .waitCue first none =>
    match waitDeadline w first with
    | some d =>
      if s.canIssue n ∧ d ≤ s.nextIssue n then
        .next (((s.setAct n { s.act n with waitTo := true }).seqEvent n 9).endMicro n w)
      else .next s
    | none => .next s
  | _ => .next s

/-- Record i of the block being played has arrived: once its first record has, a block streams without underrun (R143). -/
def State.pfArrived (s : State) (n i : Nat) : State :=
  let a := s.act n
  match a.prefetch with
  | p :: ps =>
    if p.have_ ≤ i then
      s.setAct n { a with prefetch := { p with have_ := min p.nvec (i + 1) } :: ps, pfLead := a.pfLead + (i + 1 - p.have_) }
    else s
  | [] => s

/-- Up to `k` vectors of a block (R174); a record with an uncorrectable error ends the play there (Table 16-2). -/
def State.blockGo (n w rec : Nat) (bad : Option Nat) (nvec : Nat) : Nat → State → State
  | 0, s => s
  | k + 1, s =>
    match (s.act n).prog with
    | .block left addr =>
      if !s.canIssue n then s
      else if bad = some (nvec - left) then s.faultStop n 0x13
      else
        let s := (s.pfArrived n (nvec - left)).issue n w addr none
        if left ≤ 1 then
          let s := s.apgStep n w
          (s.setAct n { s.act n with prefetch := (s.act n).prefetch.drop 1 }).goto n (s.pcNext n)
        else
          State.blockGo n w rec bad nvec k (s.setAct n { s.act n with prog := .block (left - 1) (addr + rec) })
    | _ => s

/-- Whether the first record of a block whose first vector is next is delivered in time whatever comes (R143). -/
def State.delivered (s : State) (n : Nat) : Bool :=
  match (s.act n).condT with
  | none => true
  | some t => decide (t + s.cyclesFines 1024 ≤ s.nextIssue n)

/-- CALL_BLOCK (R174): `k` vectors of the block at the head of the prefetch buffer; a marked entry and a first record
that has not arrived are fault stops (R142, R143); an entry that is a host error leaves the act free. -/
def execCallBlock (n : Act) (k : Nat) (s : State) : Res :=
  microStep 0x0B n s (fun w s =>
    if k = 0 then s
    else
      match (s.act n).prefetch with
      | [] => s.faultStop n 0x09
      | p :: _ =>
        if p.mark = 0xFF then s.disturbAct n
        else if p.mark ≠ 0 then s.faultStop n p.mark
        else if p.have_ = 0 ∧ s.delivered n = false then s.faultStop n 0x09
        else
          let s := if (s.act n).prog = .none then
              let s := s.rmop n (uRmop w)
              s.setAct n { s.act n with prog := .block p.nvec p.addr }
            else s
          State.blockGo n w (s.recBytes n) p.bad p.nvec k s)

/-- SWAP (R175, R139): where the prefetcher has not followed it, the READY check is made now. -/
def execSwap (n : Act) (s : State) : Res :=
  microStep 0x0C n s (fun w s =>
    let followed := (s.act n).swapFollowed
    if followed = 0 ∧ s.swapReady n (s.execHalf n) = false then s.faultStop n 0x0C
    else
      let s := s.oneVector n w
      let s := s.setAct n { s.act n with calls := [], loops := [], swapFollowed := (s.act n).swapFollowed - 1 }
      let s := (s.put (SEQ_STATUS.EXEC_HALF n) (1 - s.execHalf n)).goto n (uTarget w)
      if followed = 0 then s.condDone n else s)

/-- MARK (R176): with TARGET[23] the event SEQ_MARK, stamped with T0 at the pins, at most one per act per 1 µs; the
blanking timers start when the vector reaches the pins (PIN_EDGE). -/
def execMarkVec (n : Act) (s : State) : Res :=
  microStep 0x0D n s (fun w s =>
    let t := s.nextT0 n + s.fwdDepth
    let cyc := s.issued n
    let s := (s.oneVector n w).goto n (s.pcNext n)
    if bitOf (uTarget w) 23 then
      let a := s.act n
      let due : Bool := match a.lastMark with | some l => decide (usFines ≤ elapsed 64 t l) | none => true
      if due then
        let s := s.setAct n { a with lastMark := some t, marksMissed := 0 }
        s.eventAt t (16 + n) 6 (uTarget w % 65536 + 65536 * min 65535 a.marksMissed) 0 (cyc % 2 ^ 32) (cyc / 2 ^ 32)
      else s.setAct n { a with marksMissed := a.marksMissed + 1 }
    else s)

/-- HALT (R177): its vector is L of a normal stop. -/
def execHalt (n : Act) (s : State) : Res :=
  microStep 0x0E n s (fun w s =>
    let s := s.oneVector n w
    let s := s.setAct n { s.act n with prog := .none }
    s.fixStop n (s.issued n) 0x01)

/-- PREFETCH_RECORD (R142): records arrive for the block that is being fetched, or the next block is reached, checked and
marked; an uncorrectable error marks the record after those (R291, Table 16-2). The prefetch begins once the start checks pass
(R146, R147). -/
def execPrefetchRecord (n : Act) (k : Nat) (ecc : Ecc) (s : State) : Res :=
  if !s.executing n ∨ (s.act n).checked = false then .next s
  else
    let s := match ecc with | .ce => s.eccCe true | _ => s
    let s := State.pfRun n pfFuel s
    let a := s.act n
    match a.prefetch.reverse with
    | [] => .next s
    | p :: ps =>
      if p.mark ≠ 0 ∨ p.nvec ≤ p.have_ then .next s
      else
        let got := min p.nvec (p.have_ + min k (4096 - a.pfLead))
        let p' := { p with have_ := got, bad := if ecc = .ue ∧ p.bad = none then some p.have_ else p.bad }
        let s := s.setAct n { a with prefetch := (p' :: ps).reverse, pfLead := a.pfLead + (got - p.have_) }
        let s := if ecc = .ue then s.eccUe 4 (p.addr + s.recBytes n * p.have_) else s
        .next (State.pfRun n pfFuel s)

end Sys2Proof.Machine
end

