-- ==== Sys2Proof/Machine/Pipeline.lean ====
section
/-! DEFINITION. The path of a vector: the forward frame, the pins, the return frame and the fail processor (01, R13-R18,
R22, R23; 06, R103, R104; 07, R116-R130; 08, R141, R145; 10, R178-R185; 13, R239; 15, R280). The vectors of a die pass in
the order of their issue (DEDUCED, notes/assumptions/16.md). -/

namespace Sys2Proof.Machine

/-! ## Symbols (R122, R123, R141, R145, R160) -/

/-- What a channel receives for one UI: a full symbol, a compact code, or a reserved code of APG_PINSRC. -/
inductive SymCode where
  | full (y : Nat)
  | code (k : Nat)
  | reserved
deriving DecidableEq, Repr

/-- The code of a channel position in UI u of an APG or INLINE vector (R145). -/
def State.apgCode (s : State) (n pos a data : Nat) (topo : Bool) (u : Nat) : SymCode :=
  match s.pinSrc n pos with
  | (0, val) => if val < 3 then .code val else .reserved
  | (1, bit) => if bit < 24 then .code (b2n (bitOf a bit)) else .reserved
  | (2, bit) => .code (b2n (xor (bitOf data ((bit + s.fld (APG_CFG.STRIDE n) * u) % 64)) topo))
  | _ => .reserved

/-- Bits per symbol of a channel (R14). -/
def State.symBits (s : State) (c : Nat) : Nat := if s.flag (PIN_CFG.ENC c) then 4 else 2

/-- The place of a block's slice in a record, in bytes (R141). -/
def State.sliceAt (s : State) (n d : Nat) : Nat :=
  (((s.actBlocks n).filter (fun b => decide (b < d))).map (s.sliceBytes n)).sum

/-- The place of a channel in its slice, in bits (R141). -/
def State.chanAt (s : State) (n c : Nat) : Nat :=
  (((blockChans (c / 64)).filter (fun x => decide (x < c))).map (fun x => s.symBits x * s.uis n)).sum

/-- The slice of block d in the record of a vector, as a number; 0 where the vector is not from a block. -/
def State.sliceOf (s : State) (n d : Nat) (v : Vec) : Nat :=
  match v.src with
  | .block addr => leNat (s.dramBytes (addr + s.sliceAt n d) (s.sliceBytes n d))
  | _ => 0

/-- What channel c receives in UI u (R14, R145, R160); `slice` is its block's slice. -/
def State.symCode (s : State) (n c slice : Nat) (v : Vec) (u : Nat) : SymCode :=
  match v.src with
  | .none =>
    match (if v.first then none else (s.chan c).codes[u]?) with
    | some k => .code (if k < 4 then k else 3)
    | none => .code 2
  | .apg a data topo => s.apgCode n (s.chanPos n c) a data topo u
  | .block _ =>
    if s.flag (PIN_CFG.ENC c) then .full (bitsOf slice (s.chanAt n c + 4 * u) 4)
    else .code (bitsOf slice (s.chanAt n c + 2 * u) 2)

/-- A compact code decoded (Table 7-3). -/
def decodeCompact (dir : Bool) (last : Option Nat) (k : Nat) : Nat :=
  match k, last with
  | 0, _ => if dir then 0 else 4
  | 1, _ => if dir then 1 else 5
  | 3, some y => y
  | _, _ => if dir then 3 else 7

/-- The symbol that a channel executes (R122, R123). -/
def SymCode.symbol (dir : Bool) (last : Option Nat) : SymCode → Nat
  | .full y => if y < 11 then y else 7
  | .code k => decodeCompact dir last k
  | .reserved => 7

/-- What a channel keeps of a code for a HOLD that follows (R160): the compact code, 4 for a full symbol. -/
def SymCode.kept : SymCode → Nat
  | .full _ => 4
  | .code k => k
  | .reserved => 2

/-- A symbol as it is executed: a compare symbol without a strobe is CX (R127). -/
def symAt (strobed : Bool) (y : Nat) : Nat := if !strobed ∧ (y = 4 ∨ y = 5 ∨ y = 6 ∨ y = 8) then 7 else y

/-- The symbols of the UI of one vector at a channel, each after the one before. -/
def executed (dir strobed : Bool) : Option Nat → List SymCode → List Nat
  | _, [] => []
  | last, k :: ks => symAt strobed (k.symbol dir last) :: executed dir strobed (some (symAt strobed (k.symbol dir last))) ks

/-- Whether a vector's compares have a strobe at a channel: in timed mode S1 (R127). -/
def State.strobed (s : State) (n c : Nat) (v : Vec) : Bool := !s.timed n || (s.edge c v.tset 6).isSome

/-- Whether a symbol drives (Table 7-2). -/
def symDrives (y : Nat) : Bool := decide (y ≤ 2 ∨ y = 9 ∨ y = 10)

/-- The codes of the UI of a vector at a channel. -/
def State.codes (s : State) (n c slice : Nat) (v : Vec) : List SymCode := (List.range (s.uis n)).map (s.symCode n c slice v)

/-! ## FORWARD_FRAME -/

/-- A reserved full symbol reported once per channel and start (R122). -/
def State.symReserved (s : State) (n c : Nat) (ks : List SymCode) : State :=
  let bad := ks.any (fun k => match k with | .full y => decide (11 ≤ y) | _ => false)
  if bad ∧ (s.chan c).symSeen = false then (s.setChan c { s.chan c with symSeen := true }).seqEvent n 0x0A else s

/-- The channel after a vector's symbols have reached its die: from here, a vector boundary, PIN_HYST and PIN_HOLDOFF are in
force as they stand, and a channel enabled again follows its symbols (R102, R104, R277). A reserved code of APG_PINSRC is a
host error of the act. -/
def State.chanVector (n slice : Nat) (v : Vec) (c : Nat) (s : State) : State :=
  let ks := s.codes n c slice v
  let x := s.chan c
  let ys := executed (s.dir c v.tset) (s.strobed n c v) x.lastSym ks
  let s := if SymCode.reserved ∈ ks then s.disturbAct n else s
  let s := s.symReserved n c ks
  let x := s.chan c
  let s := s.setChan c { x with
    lastSym := ys.getLast?, symDrive := match ys.getLast? with | some y => symDrives y | none => x.symDrive
    codes := ks.map SymCode.kept, rejoin := false
    hyst := (s.reg (PIN_HYST.addr c)).toNat, hold := (s.reg (PIN_HOLDOFF.addr c)).toNat }
  let s := s.put (PIN_STATUS.LSET_NOW c) (if s.flag (PIN_CFG.LVL_STATIC c) then 0 else v.lset)
  if s.isStrobe c then s.strobeVector n c v ys else s

/-- The symbols of a vector at the channels of a block, before its channels change. -/
def State.blockSyms (s : State) (n d slice : Nat) (v : Vec) : List (List Nat) :=
  (blockChans d).map (fun c => executed (s.dir c v.tset) (s.strobed n c v) (s.chan c).lastSym (s.codes n c slice v))

/-- A vector at the pins of a die; those that have returned are kept for their late edges (R130) and for phases (R242),
more vectors than any deskew reaches. -/
def State.addPin (s : State) (d : Nat) (p : PinVec) : State :=
  let x := s.die d
  s.setDie d { x with pins := x.pins.filter (fun q => !q.back || decide (p.vec.cycle < q.vec.cycle + 128)) ++ [p] }

/-- Whether a compare symbol is one (Table 7-2): level, midband or valid. -/
def symCompares (y : Nat) : Bool := symExpects y && decide (y < 9)

/-- Whether times lie at least 512 fines apart. -/
def spaced : List Nat → Bool
  | [] => true
  | x :: xs => xs.all (fun y => decide (512 ≤ ((x : Int) - y).natAbs)) && spaced xs

/-- Whether the strobes of a channel lie at least 512 fines apart about a vector (R263): its own, those of the vector before
it at the die's pins and of the one behind it on its way there. UI lie as far apart (R115). -/
def State.strobesApart (s : State) (n c : Nat) (v : Vec) : Bool :=
  let x := s.die (c / 64)
  let vs := (x.pins.getLast?.map (·.vec)).toList ++ v :: x.fwd.head?.toList
  !s.timed n || spaced (vs.flatMap (fun w => (s.sset c w.tset).map (fun e => w.time + e)))

/-- Whether a vector may be borrowed for a live pass of channel c (R263); the THRESH group alone needs one that does not
drive. -/
def State.borrowable (s : State) (n c : Nat) (q : PassSt) (v : Vec) (ys : List Nat) : Bool :=
  q.loops && (bitOf q.groups 1 || !ys.any symDrives) &&
  ys.all (fun y => decide (y ≤ 3 ∨ y = 7) || (symCompares y && !captCmp v.capt)) &&
  decide (s.fld (PIN_TRK_CFG.ROLE c) = 0) && s.strobesApart n c v &&
  (List.range 16).all (fun k => !s.flag (ACQ_TRIG_STATUS.ARMED k) || decide (c ∉ s.trigChans k))

/-- The channel that a vector is borrowed for, of those that it may be: a free choice (notes/assumptions/26.md). -/
def State.lend (s : State) (n d : Nat) (v : Vec) (syms : List (List Nat)) : Option Nat × State :=
  match (s.die d).pass with
  | some q =>
    if s.borrowable n q.chan q v (syms.getD (q.chan % 64) []) then (if s.free.toNat % 2 = 1 then some q.chan else none, s.takeFree)
    else (none, s)
  | none => (none, s)

/-- FORWARD_FRAME (R13, R16, R22, R23): a frame reaches die d; with VSTART the one that begins the next vector on its way.
A frame whose CRC fails aborts the act that owns the block, whether it begins a vector or not. -/
def execForwardFrame (d : Die) (f : FwdFrame) (s : State) : Res :=
  match s.actOfBlock d with
  | none => .next s
  | some n =>
    if s.inService = false then .next s
    else if f.start = false then .next (if f.ok then s else s.abortAct 0x12 n)
    else
      match (s.die d).fwd with
      | [] => .next s
      | v :: vs =>
        let s := (s.at_ (v.time + s.fwdDepth)).setDie d { s.die d with fwd := vs }
        let empty : PinVec := { vec := v, syms := [], prev := [] }
        if f.ok = false then .next ((s.addPin d empty).abortAct 0x12 n)
        else
          let s := if captApply v.capt then s.switchBanks (blockChans d) else s
          if s.parkLine n then .next (s.addPin d empty)
          else
            let slice := s.sliceOf n d v
            let syms := s.blockSyms n d slice v
            let pr := s.lend n d v syms
            let s := pr.2
            let pv : PinVec :=
              { vec := v, syms := syms, prev := (blockChans d).map (fun c => (s.chan c).symDrive)
                banks := (blockChans d).map s.bankOf, lent := pr.1 }
            .next (State.each (State.chanVector n slice v) (blockChans d) (s.addPin d pv))

/-! ## PIN_EDGE -/

/-- The data of a drive symbol; none where it makes no data event (R126). -/
def symData (y : Nat) : Option Bool :=
  match y with
  | 0 | 9 => some false
  | 1 | 10 => some true
  | _ => none

/-- The level that a data edge (0 to 3: D1 to D4) sets (Table 7-4): format, data, level before, driver on before. -/
def dataEvent (fmt : Nat) (d p prev : Bool) (e : Nat) : Option Bool :=
  match fmt, e with
  | 0, 0 => some d
  | 1, 0 => if prev && d && !p then some true else none
  | 1, 1 => if prev && !d && p then some false else none
  | 1, 2 => if !prev && d then some true else none
  | 1, 3 => if !prev && !d then some false else none
  | 2, 0 => some d
  | 2, 1 => some false
  | 3, 0 => some d
  | 3, 1 => some true
  | 4, 0 => some (!d)
  | 4, 1 => some d
  | 4, 2 => some (!d)
  | _, _ => none

/-- The symbol of a vector at a channel in UI u. -/
def PinVec.sym (p : PinVec) (c u : Nat) : Option Nat := (p.syms.getD (c % 64) [])[u]?

/-- A timed-mode edge of a vector at a channel (R124-R126): `e` 0 to 3 data, 4 E0, 5 E1, 8 T0. The park state ends at T0 of
vector 0, or at its E0 where that turns the driver on. -/
def State.driveEdge (s : State) (c : Nat) (p : PinVec) (y e : Nat) : State :=
  let x := s.chan c
  let t := p.vec.tset
  let prev := p.prev.getD (c % 64) false
  let on := symDrives y && !prev
  let off := !symDrives y && prev
  let e0 := (s.edge c t 4).isSome
  let e1 := (s.edge c t 5).isSome
  if e = 8 then
    let wait := on && e0
    s.setChan c { x with
      started := x.started || (p.vec.first && !wait)
      driving := if on ∧ e0 = false then true else if off ∧ e1 = false then false else x.driving }
  else if (s.edge c t e).isNone then s
  else if e = 4 then (if on then s.setChan c { x with driving := true, started := true } else s)
  else if e = 5 then (if off then s.setChan c { x with driving := false } else s)
  else
    match symData y with
    | none => s
    | some d =>
      match dataEvent (s.fmt c t) d x.p prev e with
      | some l => s.setChan c { x with p := l }
      | none => s

/-- The start of a serial UI at a channel (R116, R125). On a channel that its PPMU holds, the suppressed events still move
its level and its driver's state, as in `driveEdge` (DESIGN CHOICE, notes/assumptions/36.md). -/
def State.serialUi (s : State) (c y : Nat) : State :=
  let x := s.chan c
  s.setChan c { x with started := true, driving := symDrives y, p := (symData y).getD x.p }

/-- K_cal of a channel's paths in the bank in force for a vector (R119). -/
def PinVec.bank (p : PinVec) (c : Nat) : Int × Int × Int := p.banks.getD (c % 64) (0, 0, 0)

/-- A drive-verify mismatch (R103, R104): DRIVE_CHECK takes an event slot of a return frame (Table 1-4; DEDUCED,
notes/assumptions/16.md). -/
def State.driveCheck (s : State) (c : Nat) : State :=
  let s := s.setDie (c / 64) { s.die (c / 64) with dchk := true }
  let s := (s.put (PIN_STATUS.DCHK c) 1).bump (PIN_STATUS.DCHK_CNT c)
  let s := if (s.chan c).dchkSeen then s
    else
      let x := s.die (c / 64)
      (s.setChan c { s.chan c with dchkSeen := true }).setDie (c / 64)
        { x with evts := x.evts ++ [(c, s.dieTime (c / 64) s.time.toNat)] }
  if s.flag (PIN_CFG.DCHK_OFF c) then s.put (PIN_STATUS.DCHK_DIS c) 1 else s

/-- What die d keeps of a vector changed. -/
def State.setPin (s : State) (d cyc : Nat) (f : PinVec → PinVec) : State :=
  s.setDie d { s.die d with pins := (s.die d).pins.map (fun p => if p.vec.cycle = cyc then f p else p) }

/-- What is kept of a sample: 1 + the bit, and 4 more where the channel is parked, which is not verified (R103). -/
def sampleBit (parked bit : Bool) : Nat := 1 + b2n bit + 4 * b2n parked

/-- The raw state of a vector's UI at a channel, once both comparators have sampled, and whether the channel was parked. -/
def PinVec.raw (p : PinVec) (k : Nat) : Option (Nat × Bool) :=
  let h := Tab.get (fun _ => 0) p.bits (2 * k)
  let l := Tab.get (fun _ => 0) p.bits (2 * k + 1)
  if h = 0 ∨ l = 0 then none else some (2 * ((h - 1) % 2) + (l - 1) % 2, decide (4 < h ∨ 4 < l))

/-- What a comparator says while its hold-off runs: its held output; otherwise what it sees of the pin (R101). -/
def State.heldBit (s : State) (c : Nat) (low raw : Bool) (t : Nat) : Bool :=
  match (s.tdc (tdcNum c low)).out with
  | some o =>
    if elapsed 70 (64 * (t % 2 ^ 64)) o < s.holdoff c low then (if low then (s.chan c).outL else (s.chan c).outH) else raw
  | none => raw

/-- A comparator samples for UI u at time t (R99, R101, R103, R117, R127); the second of the two brings the drive-verify
(R103). -/
def State.sample (s : State) (c : Nat) (p : PinVec) (u y : Nat) (low bit : Bool) (t : Nat) : State :=
  let k := 1024 * u + c
  let v := sampleBit (s.parked c) (s.heldBit c low bit t)
  let q := { p with bits := Tab.set (fun _ => 0) p.bits (2 * k + b2n low) v
                    times := if low = decide (y = 4 ∨ y = 9) then Tab.set (fun _ => 0) p.times k (t + 1) else p.times }
  match (if y = 9 ∨ y = 10 then q.raw k else none) with
  | some (raw, false) =>
    if symPasses y raw then s.setPin (c / 64) p.vec.cycle (fun _ => q)
    else (s.setPin (c / 64) p.vec.cycle (fun _ => q)).driveCheck c
  | _ => s.setPin (c / 64) p.vec.cycle (fun _ => q)

/-- When a comparator samples in a serial UI (R117), or at its tracking strobe's edge plus PIN_TRK_DELAY and its own K
terms, as the edge is kept without any, where the UI is a beat that has its edge (R195; DEDUCED, notes/assumptions/28.md);
none while a beat still waits for it. -/
def State.samplePoint (s : State) (n c : Nat) (p : PinVec) (low : Bool) (u : Nat) : Option Nat :=
  match s.trackedBeat c (p.vec.cycle * s.uis n + u) with
  | .edge a => some (((a + 64 * signed 18 (s.fld (PIN_TRK_DELAY.DELAY c)) + s.cmpKOf c (p.bank c) low + 32) / 64).toNat)
  | .waits => none
  | _ => some (s.cmpTime c (p.bank c) low p.vec (s.uiTime n u (s.fld (TMG_MODE.SAMPLE n))))

/-- A vector's T0 at the pins (R176, R239, R280): its marks, once per vector. -/
def State.vecAtPins (s : State) (n : Nat) (v : Vec) : State :=
  let t := v.time + s.fwdDepth
  if v.cycle < (s.act n).atPins then s
  else
    let s := s.setAct n { s.act n with atPins := v.cycle + 1 }
    let s := if captMark v.capt then (s.seqMarks n t (v.mark % 65536) v.cycle).tdcMark n t else s
    if bitOf v.mark 22 then
      State.each (fun m s =>
        if s.flag (MON_SENSE_BLANK.ON_MARK m) ∧ s.fld (MON_SENSE_BLANK.ACT m) = n then
          State.blankStart m t s else s) (List.range 32) s
    else s

/-- A placed edge that is due at time `t` at a channel of act n: discarded from the park line on (R130, R133). -/
def State.placed (s : State) (n t : Nat) (k : State → State) : State :=
  if s.cutAt n t then s else k (s.at_ t)

/-- An edge of a timed-mode vector: `e` as in Table 7-14, 8 for T0, which is an edge at time 0 (R124). -/
def State.edgeOf (s : State) (c t e : Nat) : Nat := if e = 8 then 0 else (s.edge c t e).getD 0

/-- PIN_EDGE (R119): an edge or strobe of vector `cyc` at channel c; `raw` is what the strobed comparator sees of the pin.
A reserved format of a vector that drives is a host error of the act. -/
def execPinEdge (c : Chan) (cyc : BitVec 64) (e : PinEv) (raw : Bool) (s : State) : Res :=
  match (s.die (c / 64)).pins.find? (fun p => decide (p.vec.cycle = cyc.toNat)), s.actOfChan c with
  | some p, some n =>
    let v := p.vec
    match e with
    | .t0 =>
      let s := (s.at_ (v.time + s.fwdDepth)).vecAtPins n v
      .next (s.passLend (c / 64) p.lent.isSome)
    | .ui u =>
      match p.sym c u with
      | some y => if s.timed n then .next s
        else .next (s.placed n (s.drvTime c (p.bank c) v (s.uiTime n u 0)) (fun s => s.serialUi c y))
      | none => .next s
    | .sample u low =>
      match p.sym c u, s.samplePoint n c p low u with
      | some y, some t => if s.timed n then .next s
        else .next (s.placed n t (fun s => s.sample c p u y low raw t))
      | _, _ => .next s
    | .edge i =>
      match p.sym c 0 with
      | some y =>
        if s.timed n = false then .next s
        else if symDrives y ∧ 5 ≤ s.fmt c v.tset then .next (s.disturbAct n)
        else .next (s.placed n (s.drvTime c (p.bank c) v (s.edgeOf c v.tset i)) (fun s => s.driveEdge c p y i))
      | none => .next s
    | .s1 low =>
      match p.sym c 0, s.edge c v.tset 6 with
      | some y, some e =>
        let t := s.cmpTime c (p.bank c) low v e
        if s.timed n = false then .next s
        else .next (s.placed n t (fun s => s.sample c p 0 y low raw t))
      | _, _ => .next s
    | .s2 low moved =>
      match s.edge c v.tset 6, s.edge c v.tset 7 with
      | some _, some e =>
        if s.timed n = false ∨ moved = false then .next s
        else .next (s.placed n (s.cmpTime c (p.bank c) low v e) (fun s =>
          s.setPin (c / 64) v.cycle (fun p => { p with moved := c.val :: p.moved })))
      | _, _ => .next s
  | _, _ => .next s

/-! ## RETURN_FRAME (R17, R18) -/

/-- The results that a vector has at a block, with its symbols plus 1: one for each UI of each channel, in timed mode one for
each channel that has an S1 (R178). -/
def State.expected (s : State) (n : Nat) (p : PinVec) (d : Nat) : List (Nat × Nat) :=
  (blockChans d).flatMap (fun c =>
    if s.strobed n c p.vec then (p.syms.getD (c % 64) []).zipIdx.map (fun (y, u) => (1024 * u + c, y + 1)) else [])

/-- A result as the frame carries it, the beats that fail for a missing strobe with it (R196); a strobe's own compares are
never recorded (R194). -/
def State.resultOf (s : State) (n : Nat) (p : PinVec) (k y : Nat) : Nat :=
  let c := k % 1024
  (match p.raw k with
   | some (raw, parked) => 1 + 2 * raw + 8 * b2n (decide (c ∈ p.moved)) + 64 * b2n (parked && decide (9 ≤ y))
   | none => 0) +
  (if symExpects y ∧ s.missingStrobe c (p.vec.cycle * s.uis n + k / 1024) = true then 16 else 0)

/-- The results of one frame. Those of a frame whose CRC fails are lost (R18); a channel whose vector a live pass borrows
returns M (R263). -/
def State.frameResults (s : State) (n : Nat) (p : PinVec) (ok : Bool) (due : List (Nat × Nat)) : List (Nat × Nat) :=
  due.map (fun (k, e) =>
    let r := if ok = false then 32 else if p.lent = some (k % 1024) then 1 else s.resultOf n p k (e - 1)
    (k, if s.isStrobe (k % 1024) ∧ r < 64 then r + 64 else r))

/-- Entries joined to a table. -/
def tabJoin (t : Tab Nat) (es : List (Nat × Nat)) : Tab Nat := es.foldl (fun t (k, v) => Tab.set (fun _ => 0) t k v) t

/-- When a result was strobed, plus 1, on its die's copy of the count (R24, R183): by the comparator that its symbol
expects, CH where it expects both or neither (DESIGN CHOICE, notes/assumptions/22.md); a compare without a sample has the
time its strobe would have had. -/
def State.resultTime (s : State) (n : Nat) (p : PinVec) (k y : Nat) : Nat :=
  let c := k % 1024
  match Tab.get (fun _ => 0) p.times k with
  | 0 =>
    let e := if s.timed n then (s.edge c p.vec.tset 6).getD 0 else s.uiTime n (k / 1024) (s.fld (TMG_MODE.SAMPLE n))
    1 + s.dieTime (c / 64) (s.cmpTime c (p.bank c) (decide (y = 4 ∨ y = 9)) p.vec e)
  | t => 1 + s.dieTime (c / 64) (t - 1)

/-- A frame's results joined to those of its vector in the delay line; `whole` where they are the block's last. -/
def State.joinResults (s : State) (n d : Nat) (p : PinVec) (due res : List (Nat × Nat)) (whole : Bool) : State :=
  let times := due.map (fun (k, e) => (k, s.resultTime n p k (e - 1)))
  let bit : BitVec 16 := if whole then BitVec.ofNat 16 (2 ^ d) else 0
  let a := s.act n
  s.setAct n { a with
    line := a.line.map (fun f =>
      if f.vec.cycle = p.vec.cycle then
        { f with got := f.got ||| bit, exp := tabJoin f.exp due, res := tabJoin f.res res, times := tabJoin f.times times }
      else f) }

/-- All 64 cells of the bitmap word of a cell set (Table 16-2). -/
def State.setWord (s : State) (g i : Nat) : State := State.each (fun j s => s.setCell g (i / 64 * 64 + j)) (List.range 64) s

/-- An uncorrectable error in the first bitmap word that a ring's fails touch; the second result says whether it is still
to come. -/
def State.mapEcc (s : State) (n g : Nat) (v : Vec) (fs : List FailCmp) (ue : Bool) : State × Bool :=
  match ue, (fs.filterMap (s.cellOf n g v)).head? with
  | true, some i => ((s.setWord g i).eccUe 4 (s.mapBase g + i / 64 * 8), false)
  | _, _ => (s, ue)

/-- A failing vector counted: by channel, by ring, and in its act (R182, R183). -/
def State.countRing (s : State) (n g : Nat) (fs : List FailCmp) : State :=
  let s := fs.foldl (fun s f => s.countPin f.chan) s
  let s := s.setPair (FAIL_COUNT_LO.addr g) (satN 64 (s.pair (FAIL_COUNT_LO.addr g) + 1))
  s.setAct n { s.act n with failSeen := true, ringSeen := (s.act n).ringSeen ||| BitVec.ofNat 64 (2 ^ g) }

/-- UNMAPPED, MISSING and LINK_ERR of FAIL_STATUS. -/
def State.markRing (s : State) (g : Nat) (fs : List FailCmp) (unm : Bool) : State :=
  let s := if unm then s.put (FAIL_STATUS.UNMAPPED g) 1 else s
  let s := if fs.any (·.missing) then s.put (FAIL_STATUS.MISSING g) 1 else s
  if fs.any (·.lost) then s.put (FAIL_STATUS.LINK_ERR g) 1 else s

/-- Whether recording a fail of ring g meets a host error in its configuration (R6, R190, R197, R301): bitmap widths, WHISTLE
3, more than 2^27 log records, a misplaced area. -/
def State.failReserved (s : State) (g : Nat) (v : Vec) : Bool :=
  let areas := s.ringAreas g
  (captMap v.capt && (!s.mapWidthsOk g || s.areaBad g 2 (areas.getD 2 (0, 0)))) || decide (s.fld (FAIL_CFG.WHISTLE g) = 3) ||
    (captLog v.capt && decide (s.fld (FAIL_LOG_SIZE.SIZE g) ≠ 0) &&
      (decide (134217728 < s.fld (FAIL_LOG_SIZE.SIZE g)) || s.areaBad g 3 (areas.getD 0 (0, 0)) ||
        s.areaBad g 3 (areas.getD 1 (0, 0))))

/-- One vector and ring with recorded fails, its configuration without a reserved code (R182). -/
def State.recordFails (s : State) (n g : Nat) (v : Vec) (fs : List FailCmp) (ue : Bool) : State × Bool :=
  let s := s.countRing n g fs
  let first := !s.flag (FAIL_STATUS.FIRST_VALID g)
  let s := s.firstFail g v fs
  let unm := s.unmapped n v fs
  let pr := (s.markRing g fs unm).ringAction n g v.cycle
  let s := if captLog v.capt then pr.1.logFail g v fs first pr.2 unm else pr.1
  let mp := if captMap v.capt then (s.mapFails n g v fs).mapEcc n g v fs ue else (s, ue)
  (if captRq v.capt then mp.1.rqPush n g v fs else mp.1, mp.2)

/-- One vector and ring with recorded fails (R182); a host error in its configuration leaves the ring and its act free. -/
def State.recordRing (s : State) (n g : Nat) (v : Vec) (fs : List FailCmp) (ue : Bool) : State × Bool :=
  if s.failReserved g v then (s.disturbRing g, ue) else s.recordFails n g v fs ue

/-- Whether a vector's fails of ring g are recorded (R180): as the masks stand for that vector. -/
def State.records (s : State) (n g : Nat) (v : Vec) : Bool :=
  captCmp v.capt && bitOf v.working.toNat g && !bitOf v.bench.toNat g && !bitOf (s.act n).benchFail.toNat g

/-- A MATCH trial (R171): the rings that it passes for are matched. -/
def State.trialResult (s : State) (n i : Nat) (f : Flight) : State :=
  match (s.act n).prog with
  | .match_ first trials taking matched p =>
    if f.vec.cycle = first + i then
      let fs := f.fails
      let pass := (bitList taking.toNat 64 0).filter (fun g => !(s.records n g f.vec && decide (s.ringFails g fs ≠ [])))
      let m := matched ||| BitVec.ofNat 64 ((pass.map (fun g => 2 ^ g)).sum)
      let p := if p = none ∧ taking &&& ~~~m = 0 then some i else p
      s.setAct n { s.act n with prog := .match_ first trials taking m p }
    else s
  | _ => s

/-- The rings with recorded fails in a vector, in ascending order. -/
def State.recordRings (n : Nat) (v : Vec) (fs : List FailCmp) : List Nat → State × Bool → State × Bool
  | [], r => r
  | g :: gs, (s, ue) =>
    let gf := if s.records n g v then s.ringFails g fs else []
    State.recordRings n v fs gs (if gf = [] then (s, ue) else s.recordRing n g v gf ue)

/-- One vector whose results are complete passes the fail processor and the triggers. -/
def State.processVec (s : State) (n : Nat) (f : Flight) (ue : Bool) : State × Bool :=
  let pr := match f.vec.trial with
    | some i => (s.trialResult n i f, ue)
    | none =>
      let fs := if captCmp f.vec.capt then f.fails else []
      if fs = [] then (s, ue) else State.recordRings n f.vec fs (List.range 64) (s, ue)
  let s := pr.1
  let ue := pr.2
  (s.trigVector n f, ue)

/-- Whether every block of the act has returned its frame for a vector. -/
def State.allGot (s : State) (n : Nat) (f : Flight) : Bool := (s.actBlocks n).all (fun b => bitOf f.got.toNat b)

/-- The vectors at the head of the delay line whose results are complete, in SEQ_CYCLE order. -/
def State.processLine (n : Nat) : Nat → State × Bool → State × Bool
  | 0, r => r
  | k + 1, (s, ue) =>
    match (s.act n).line with
    | [] => (s, ue)
    | f :: fs =>
      if s.allGot n f then
        let s := s.setAct n { s.act n with line := fs }
        State.processLine n k (s.processVec n f ue)
      else (s, ue)

/-- The results of a vector of die d that `sel` selects and that have not returned yet go to the fail processor, and the
vectors whose results are then complete pass it. -/
def State.returnResults (s : State) (n d : Nat) (p : PinVec) (sel : Nat → Bool) (ok ue : Bool) : State × Bool :=
  let exp := s.expected n p d
  let left := exp.filter (fun x => decide (x.1 ∉ p.sent))
  let due := left.filter (fun x => sel x.1)
  let whole := decide (due.length = left.length)
  let res := s.frameResults n p ok due
  let s := s.setPin d p.vec.cycle (fun q => { q with sent := q.sent ++ due.map Prod.fst, back := whole })
  let s := s.setDie d { s.die d with stale := due.any (fun x => decide (p.lent = some (x.1 % 1024))) }
  let s := s.joinResults n d p due res whole
  let pr := State.processLine n (s.act n).line.length (s, ue)
  (State.each (fun c s => if s.isStrobe c ∧ whole then s.dropBursts c ((p.vec.cycle + 1) * s.uis n) else s) (blockChans d) pr.1,
    pr.2)

/-- What a return frame carries beside results (Table 1-4): DCHK, MONV and one event that waits. Of a frame whose CRC fails
it is discarded, with D2D_CRC_RET (R18) as an event of the act that owns the block; where none does, the manual names no
act, and the source is a free value of SEQ 16 to 31 (DEDUCED, notes/assumptions/16.md). -/
def State.frameFields (s : State) (d : Nat) (ok : Bool) : State :=
  let x := s.die d
  let s := s.setDie d { x with dchk := false, monv := false, stale := false, evts := x.evts.tail }
  if ok then
    match x.evts with
    | (c, t) :: _ => s.eventAt t 33 1 c (s.chan c).dib
    | [] => s
  else
    match s.actOfBlock d with
    | some n => s.seqEvent n 0x0B
    | none => (s.event (16 + s.free.toNat % 16) 0x0B).takeFree

/-- RETURN_FRAME (R17, R18): a return frame of die d. It carries, of the oldest vector that has results to return, those of
the channels and UI given; without such a vector it carries none. A frame whose CRC fails loses those results and whatever
else it carried; `ecc` is what the ECC finds on the bitmap words read. -/
def execReturnFrame (d : Die) (f : RetFrame) (ecc : Ecc) (s : State) : Res :=
  if s.inService = false then .next s
  else
    let s := s.frameFields d f.ok
    match s.actOfBlock d, (s.die d).pins.find? (fun p => !p.back) with
    | some n, some p =>
      if s.executing n = false then .next s
      else
        let s := if ecc = .ce then s.eccCe true else s
        .next (s.returnResults n d p (fun k => bitOf f.chans.toNat (k % 64) && bitOf f.uis.toNat (k / 1024)) f.ok (decide (ecc = .ue))).1
    | _, _ => .next s

end Sys2Proof.Machine
end

