-- ==== Sys2Proof/Machine/Drain.lean ====
section
/-! DEFINITION. The end of a run (08, R152; 10, R192; 01, R22): what an act does when it becomes STOPPED, and the drain of its
results where a mode sequence stops it at once (02, R38, R41). -/

namespace Sys2Proof.Machine

/-- Pushes that are still in the push buffer go to the backlog (R152). -/
def State.flushPushes (s : State) : State := (State.spillGo 4096 s).backlogLevel

/-- The module leaves RUN when no act is RUNNING or STOPPING (R29, R133), and every eligible bank switches (R22). -/
def State.leaveRun (s : State) : State :=
  if s.mode = .run ∧ !actNums.any s.running then (s.setMode .idle).switchAll else s

/-- The run's own state cleared at its end. -/
def State.actCleared (s : State) (n : Nat) : State :=
  s.setAct n { s.act n with
    show_ := none, stop := none, endL := none, aborted := false, checked := false, cue := none, prog := .none
    prefetch := [], pfWait := false, swapFollowed := 0 }

/-- ACT_STOPPED of R152: reason, RUNOUT_LATE, SEQ_PC and the cycle of the last vector, stamped with the end of L. -/
def State.stopReport (s : State) (n t c reason : Nat) : State :=
  let l := (c + 0xFFFFFFFFFFFFFFFF) % 2 ^ 64
  s.eventAt t (16 + n) 2 (reason + 256 * s.fld (SEQ_STATUS.RUNOUT_LATE n)) (s.reg (SEQ_PC.addr n)).toNat
    (l % 2 ^ 32) (l / 2 ^ 32)

/-- The events of a die that still wait for a return frame are journaled: frames go on after the run (R17). -/
def State.flushEvts (d : Nat) (s : State) : State :=
  let x := s.die d
  x.evts.foldl (fun s (c, t) => s.eventAt t 33 1 c (s.chan c).dib) (s.setDie d { x with evts := [] })

/-- An act becomes STOPPED: every result up to L has passed the fail processor (R152). -/
def State.actStop (s : State) (n t c reason : Nat) : State :=
  let s := State.each State.flushEvts (s.actBlocks n) s
  let s := State.each State.passIdle (s.actBlocks n) ((s.flushPushes.setActState n 0).actCleared n)
  let s := (s.stopReport n t c reason).finalPushes n
  (s.switchBanks (s.actChans n)).leaveRun

/-- What the strobes of an act have sampled returns from its dies, and the vectors on their way to the pins are gone. -/
def State.drainDie (n d : Nat) (s : State) : State :=
  let s := ((s.die d).pins.filter (fun p => !p.back)).foldl (fun s p => (s.returnResults n d p (fun _ => true) true false).1) s
  s.setDie d { s.die d with fwd := [], pins := [] }

/-- Every vector in the delay line passes the fail processor with the results it has. -/
def State.drainLine (n : Nat) : Nat → State → State
  | 0, s => s
  | k + 1, s =>
    match (s.act n).line with
    | [] => s
    | f :: fs => State.drainLine n k ((s.setAct n { s.act n with line := fs }).processVec n f false).1

/-- An act aborted and drained at once (R38, R41, R150): strobes taken before the park are compared, later ones are not. -/
def State.stopNow (reason : Nat) (n : Nat) (s : State) : State :=
  let s := s.abortAct reason n
  match (s.act n).endL, (s.act n).stop with
  | some t, some (c, r) =>
    if s.actState n = 4 then
      let s := State.each (State.drainDie n) (s.actBlocks n) s
      (State.drainLine n (s.act n).line.length s).actStop n t c r
    else s
  | _, _ => s

/-- Every executing act stopped at once, with one reason. -/
def State.stopAll (s : State) (reason : Nat) : State := State.each (State.stopNow reason) actNums s

end Sys2Proof.Machine
end

