-- ==== Sys2Proof/Machine/Fuses.lean ====
section
/-! DEFINITION. What the OTP fuses spell (19, R339-R344) and what the LC registers report of them. -/

namespace Sys2Proof.Machine

/-- Whether a group of three fuse copies counts as blown (R341). -/
def groupBlown (g : BitVec 3) : Bool := decide (2 ≤ (bitList g.toNat 3 0).length)

/-- The state: the highest group that counts as blown (R341). -/
def Otp.state (o : Otp) : Nat :=
  if groupBlown o.return_ then 3 else if groupBlown o.field then 2 else if groupBlown o.integration then 1 else 0

/-- Whether a blown group stands above an unblown one (R341). -/
def Otp.broken (o : Otp) : Bool :=
  (groupBlown o.return_ && !(groupBlown o.field && groupBlown o.integration)) || (groupBlown o.field && !groupBlown o.integration)

/-- Every fuse of `a` is blown in `b` too (R341): the copies of the three groups, the revoke fuses, ERASE_DONE; the serial
number and the revision are the same. -/
def Otp.Gains (a b : Otp) : Prop :=
  a.integration &&& b.integration = a.integration ∧ a.field &&& b.field = a.field ∧ a.return_ &&& b.return_ = a.return_ ∧
    a.revoked &&& b.revoked = a.revoked ∧ (a.eraseDone = true → b.eraseDone = true) ∧ a.serial = b.serial ∧ a.rev = b.rev

/-- The key slots that are programmed. -/
def Otp.programmed (o : Otp) : Nat :=
  ((List.range 4).map (fun k => if Tab.get (fun _ => []) o.keys k = [] then 0 else 2 ^ k)).sum

/-- Whether a key slot is programmed and not revoked. -/
def Otp.usable (o : Otp) (k : Nat) : Bool := bitOf o.programmed k && !bitOf o.revoked.toNat k

/-- LC_DEBUG's open bits (Table 19-2): debug in every state but FIELD until locked, trims in FACTORY. A TAP debug instruction in
effect is BYPASS once debug is closed. -/
def State.lcDebug (s : State) : State :=
  let st := s.fld LC_STATE.STATE
  let opened := decide (st ≠ 2) && !s.flag LC_DEBUG.DEBUG_LOCK
  let s := (s.putB LC_DEBUG.DEBUG_OPEN opened).putB LC_DEBUG.TRIM_OPEN (decide (st = 0))
  s.withJtag (if opened = false ∧ s.jtag = 2 then 0 else s.jtag)

/-- The registers that report the OTP (Tables 19-6, 19-9; 20, R355): life-cycle state, serial number, revision. -/
def State.lcRefresh (s : State) : State :=
  let o := s.otp
  let s := (s.put LC_STATE.STATE o.state).putB LC_STATE.DEC_KEY o.patternKey.isSome
  let s := (s.putB LC_STATE.ERASE_DONE o.eraseDone).putB LC_STATE.RMA_PIN (!s.pins.rma)
  let s := (s.put LC_STATE.PROGRAMMED o.programmed).put LC_STATE.REVOKED o.revoked.toNat
  let s := (s.setPair SYS_SERIAL_LO.addr o.serial.toNat).setReg SYS_REV.addr o.rev
  s.lcDebug

/-- LC_NONCE takes a new random value (R344). -/
def State.newNonce (s : State) : State := (s.setReg LC_NONCE.addr (BitVec.ofNat 32 s.free.toNat)).takeFree

end Sys2Proof.Machine
end

