-- ==== Sys2Proof/Machine/NvmOps.lean ====
section
/-! DEFINITION. The flash (05, R72-R89), the hold-up check (03, R49-R51, R54) and the calibration record (14, R272, R273):
reading and writing flash, the checks of an image slot, NVM commands and persist pages. -/

namespace Sys2Proof.Machine

/-! ## Layout (R74) -/

/-- The density in bytes; 0 while no flash is discovered. -/
def State.flashSize (s : State) : Nat := s.fld NVM_CFG.DENSITY * 134217728
def State.slotSize (s : State) : Nat := (s.flashSize - 50331648) / 2
def State.pageSize (s : State) : Nat := 2 ^ s.fld NVM_CFG.PAGE_LOG2
def State.calBase (s : State) : Nat := 2 * s.slotSize
def State.persistBase (s : State) : Nat := s.calBase + 33554432

/-- The size of an erase sector. -/
def sectorSize : Nat := 65536

/-! ## Flash bytes (R54) -/

/-- The bytes the flash holds; a torn one holds the value from before the abandoned operation. -/
def State.flashBytes (s : State) (a n : Nat) : List Byte := Tab.slice flashByte s.flash a n

/-- Whether a range holds a torn byte. -/
def State.tornIn (s : State) (a n : Nat) : Bool := s.torn.any (fun e => decide (a ≤ e.1 ∧ e.1 < a + n))

/-- Bytes as a read delivers them: each bit of a torn byte is its value from before or the abandoned one, at each read
anew. -/
def State.mixTorn : Nat → List Byte → State → List Byte × State
  | _, [], s => ([], s)
  | a, b :: bs, s =>
    match Tab.get (fun _ => none) s.torn a with
    | none =>
      let pr := State.mixTorn (a + 1) bs s
      let r := pr.1
      let s := pr.2
      (b :: r, s)
    | some w =>
      let m : Byte := BitVec.ofNat 8 s.free.toNat
      let pr := State.mixTorn (a + 1) bs s.takeFree
      let r := pr.1
      let s := pr.2
      (((b &&& ~~~m) ||| (w &&& m)) :: r, s)

/-- A read of the flash. -/
def State.flashRead (s : State) (a n : Nat) : List Byte × State :=
  if s.torn = [] then (s.flashBytes a n, s) else State.mixTorn a (s.flashBytes a n) s

/-- Bytes programmed. -/
def State.flashPut (s : State) (a : Nat) (bs : List Byte) : State :=
  s.withFlash (Tab.splice flashByte s.flash a bs)

/-- A sector erased: its bytes are 0xFF, and no longer torn. -/
def State.flashErase (s : State) (a : Nat) : State :=
  (s.withFlash (Tab.clearRange s.flash a sectorSize)).withTorn (Tab.clearRange s.torn a sectorSize)

/-- Bytes torn by an abandoned program or erase that would have given `bs`. -/
def State.tear (s : State) (a : Nat) (bs : List Byte) : State :=
  s.withTorn (Tab.splice (fun _ => none) s.torn a (bs.map some))

/-! ## Life-cycle state and keys as the slots need them (R339, R343) -/

/-- LC_STATE.STATE: 0 FACTORY, 1 INTEGRATION, 2 FIELD, 3 RETURN. -/
def State.lcState (s : State) : Nat := s.fld LC_STATE.STATE

/-- Whether a customer key slot is programmed and not revoked. -/
def State.keyUsable (s : State) (k : Nat) : Bool :=
  decide (Tab.get (fun _ => []) s.otp.keys k ≠ []) && !bitOf s.otp.revoked.toNat k

/-! ## Image slots (R75-R80) -/

/-- The number a big-endian byte string spells. -/
def beNat (bs : List Byte) : Nat := leNat bs.reverse

/-- The TLV records of a body: TYPE and VALUE; none where a record does not fit, a CRC fails, or END is not last (R78,
R80). `n` bounds the records. -/
def tlvs : Nat → List Byte → Option (List (Nat × List Byte))
  | 0, _ => none
  | n + 1, bs =>
    let len := leNat ((bs.drop 4).take 4)
    let size := 8 + (len + 3) / 4 * 4
    if bs.length < 12 ∨ bs.length < size + 4 then none
    else if crc32c (bs.take size) ≠ leNat ((bs.drop size).take 4) then none
    else
      let typ := leNat (bs.take 2)
      let val := (bs.drop 8).take len
      let rest := bs.drop (size + 4)
      if typ = 0x8000 then (if rest = [] then some [(typ, val)] else none)
      else (tlvs n rest).map (fun r => (typ, val) :: r)

/-- Whether no type occurs twice. -/
def typesOnce : List (Nat × List Byte) → Bool
  | [] => true
  | r :: rs => rs.all (fun x => decide (x.1 ≠ r.1)) && typesOnce rs

/-- The records of a body that passes the structure checks (R80). -/
def bodyRecords (bs : List Byte) : Option (List (Nat × List Byte)) :=
  match tlvs bs.length bs with
  | some rs => if typesOnce rs then some rs else none
  | none => none

/-- Fields of the image header (Table 5-3). -/
def hdrBodyLen (h : List Byte) : Nat := leNat ((h.drop 8).take 4)
def hdrGeneration (h : List Byte) : Nat := leNat ((h.drop 12).take 4)
def hdrSigned (h : List Byte) : Bool := bitOf (leNat ((h.drop 16).take 4)) 0
def hdrKeyId (h : List Byte) : Nat := leNat ((h.drop 20).take 1)
def hdrSrev (h : List Byte) : Nat := leNat ((h.drop 24).take 4)
def hdrHash (h : List Byte) : List Byte := (h.drop 32).take 48

/-- The header of a slot. -/
def State.slotHeader (s : State) (k : Nat) : List Byte := s.flashBytes (k * s.slotSize) 256

/-- The REASON of the first header check of R77 that fails, 0 where all pass (Table 5-15). A wrong HDR_LEN, HDR_CRC or
GENERATION is the code of the header, 1: Table 5-15 names the codes and not which check has which (DESIGN CHOICE,
notes/assumptions/45.md). -/
def State.headerReason (s : State) (k : Nat) : Nat :=
  let h := s.slotHeader k
  if s.tornIn (k * s.slotSize) 256 ∨ h.take 4 ≠ leBytes 4 0x49585A4C then 1
  else if leNat ((h.drop 4).take 1) ≠ 1 then 2
  else if leNat ((h.drop 6).take 2) ≠ 0x100 ∨ crc32c (h.take 252) ≠ leNat (h.drop 252) ∨
    hdrGeneration h = 0 ∨ hdrGeneration h = 0xFFFFFFFF then 1
  else if hdrBodyLen h % 4 ≠ 0 ∨ s.slotSize < hdrBodyLen h + 256 then 4
  else if !bitOf (hdrSrev h) (bitsOf s.otp.rev.toNat 8 5) then 3
  else 0

/-- The body of a slot. -/
def State.slotBody (s : State) (k : Nat) : List Byte := s.flashBytes (k * s.slotSize + 256) (hdrBodyLen (s.slotHeader k))

/-- Whether a slot's signature is as R77 asks: it verifies under a usable key where SIGNED is 1; FIELD needs SIGNED. -/
def State.signatureOk (s : State) (k : Nat) : Bool :=
  let h := s.slotHeader k
  if hdrSigned h then
    decide (hdrKeyId h < 4) && s.keyUsable (hdrKeyId h) &&
      Config.ecdsaVerify (Tab.get (fun _ => []) s.otp.keys (hdrKeyId h)) (Config.sha384 (h.take 128))
        ((h.drop 128).take 48) ((h.drop 176).take 48)
  else decide (s.lcState ≠ 2)

/-- The REASON of a slot: the first check of R77 that fails, 0 where it is valid. -/
def State.slotReason (s : State) (k : Nat) : Nat :=
  let r := s.headerReason k
  if r ≠ 0 then r
  else
    let body := s.slotBody k
    if s.tornIn (k * s.slotSize + 256) body.length = true ∨
      (Config.sha384 body).toNat ≠ beNat (hdrHash (s.slotHeader k)) then 5
    else if (bodyRecords body).isNone then 7
    else if !s.signatureOk k then 6
    else 0

/-- VALID and REASON of a slot stored (R89). -/
def State.setSlot (s : State) (k reason : Nat) : State :=
  if k = 0 then (s.putB NVM_SLOT.VALID_A (decide (reason = 0))).put NVM_SLOT.REASON_A reason
  else (s.putB NVM_SLOT.VALID_B (decide (reason = 0))).put NVM_SLOT.REASON_B reason

/-! ## Hold-up and temperature (R49, R54) -/

/-- Usable hold-up energy in microjoules. -/
def State.holdupE (s : State) : Nat :=
  let v := s.fld PWR_HOLDUP_V.V
  if v ≤ 20000 then 0 else s.fld PWR_HOLDUP_CAP.CAP * (v * v - 400000000) / 20000000

/-- The energy check of R49. -/
def State.energyOk (s : State) : Bool := decide (s.fld PWR_HOLDUP_NEED.NEED ≤ s.holdupE)

/-- Whether PWR_TEMP_MAX reads 140 degrees or more. -/
def State.tempHot (s : State) : Bool := decide ((1120 : Int) ≤ signed 16 (s.fld PWR_TEMP_MAX.TEMP))

/-- Whether PWR_TEMP_MAX reads 170 degrees or more. -/
def State.temp170 (s : State) : Bool := decide ((1360 : Int) ≤ signed 16 (s.fld PWR_TEMP_MAX.TEMP))

/-- Whether a persist page may start (R49, R54, R86): the energy check alone gates it below 170 degrees. -/
def State.persistMay (s : State) : Bool := s.energyOk && !s.temp170

/-- Whether an operation that is not a persist page may start (R49, R51, R54); a shedding sequence keeps it from starting. -/
def State.flashMay (s : State) : Bool := s.energyOk && s.shed.isNone && !s.tempHot

/-! ## Persist pages (R86) -/

/-- `n` free bytes. -/
def State.freeBytes : Nat → State → List Byte × State
  | 0, s => ([], s)
  | n + 1, s =>
    let pr := State.freeBytes n s.takeFree
    let r := pr.1
    let t := pr.2
    (BitVec.ofNat 8 s.free.toNat :: r, t)

/-- A persist page: the records, free bytes where there is none, the trailer. -/
def State.persistPage (s : State) (evts : List EvtRec) : List Byte × State :=
  let pr := State.freeBytes (32 * (7 - evts.length)) s
  let pad := pr.1
  let t := pr.2
  let head := evts.flatMap wordBytes ++ pad ++ leBytes 4 0x45585A4C ++ leBytes 4 s.persist.seq ++
    leBytes 1 evts.length ++ leBytes 2 s.persist.dropped ++ leBytes 17 0
  (head ++ leBytes 4 (crc32c head), t)

/-- A page is due for every event that waits. -/
def State.persistDue (s : State) : State := s.withPersist { s.persist with due := s.persist.waiting.length }

/-- Whether a persist page is to start as soon as the port is free and it may; none does in the sequence of TEMP_OFF (R42). -/
def State.persistWants (s : State) : Bool :=
  decide (0 < s.persist.due) && decide (s.shed ≠ some .tempOff) && decide (s.persist.waiting ≠ []) && s.flag NVM_CFG.PERSIST_EN &&
    decide (s.fld NVM_CFG.DENSITY ≠ 0)

/-- The events of the next page: the 7 oldest. The one page of a shedding sequence is to hold every event that waits, PFAIL or
EN_OFF among them; where more than 7 wait it takes the 6 oldest and that one, and the rest is lost (DESIGN CHOICE,
notes/assumptions/30.md). -/
def State.persistEvts (s : State) : List EvtRec :=
  let w := s.persist.waiting
  if s.shed.isSome ∧ 7 < w.length then w.take 6 ++ w.getLast?.toList else w.take 7

/-- Whether a sector reads erased. -/
def State.sectorBlank (s : State) (a : Nat) : Bool :=
  !(s.flash.any (fun e => decide (a ≤ e.1 ∧ e.1 < a + sectorSize))) && !s.tornIn a sectorSize

/-- A persist page starts; the events behind it stay due where they were, but a shedding sequence programs one page (R86).
At the start of a sector the next one is to be erased, and later where that has failed or has been abandoned (R86: one
erased sector is always ahead). -/
def State.startPersist (s : State) : State :=
  let evts := s.persistEvts
  let pr := s.persistPage evts
  let page := pr.1
  let s := pr.2
  let p := s.persist
  let next := s.persistBase + (p.off / sectorSize + 1) % 256 * sectorSize
  (s.withUnit (some (.persist (s.persistBase + p.off) page evts))).withPersist { p with
      waiting := p.waiting.drop 7, dropped := 0, due := if s.shed.isSome then 0 else p.due - 7
      ahead := if p.off % sectorSize = 0 ∨ s.sectorBlank next = false then some next else p.ahead }

/-! ## Units (R88) -/

/-- The next unit of a command's work, with the rest of the work. -/
def State.nextUnit (s : State) : List FlashUnit → Option (FlashUnit × List FlashUnit)
  | [] => none
  | .read a n :: r => if n ≤ 256 then some (.read a n, r) else some (.read a 256, .read (a + 256) (n - 256) :: r)
  | .program a bs :: r =>
    let k := s.pageSize - a % s.pageSize
    if bs.length ≤ k then some (.program a bs, r) else some (.program a (bs.take k), .program (a + k) (bs.drop k) :: r)
  | .buffer a o n :: r =>
    let k := min n (s.pageSize - a % s.pageSize)
    some (.program a (s.mboxBytes (0x30000 + o) k), if n ≤ k then r else .buffer (a + k) (o + k) (n - k) :: r)
  | .erase a n :: r => if n ≤ 1 then some (.erase a 1, r) else some (.erase a 1, .erase (a + sectorSize) (n - 1) :: r)
  | u :: r => some (u, r)

/-- Whether a unit is gated by R49 and R54. -/
def FlashUnit.gated : FlashUnit → Bool
  | .read _ _ => false
  | _ => true

/-- 256-byte units that a unit counts for; a last page or read unit that is filled in part counts as a whole one, and a
CAL_COMMIT has no first byte given and counts its erased sectors with its pages (DESIGN CHOICE, notes/assumptions/30.md). -/
def FlashUnit.count : FlashUnit → Nat
  | .read _ n => (n + 255) / 256
  | .program _ bs => (bs.length + 255) / 256
  | .erase _ _ => 256
  | _ => 0

/-- Whether the next unit of the command is gated. -/
def State.cmdGated (s : State) : Bool :=
  match s.nvm with
  | none => false
  | some j => match s.nextUnit j.todo with
    | some (u, _) => u.gated
    | none => false

/-- Whether no program or erase is in progress, so that what waits for one is deferred. -/
def State.portFree (s : State) : Bool :=
  match s.unit with
  | none | some (.read _ _) => true
  | _ => false

/-- Whether a fuse is still to be blown, which the energy check gates too (R341). -/
def State.blowWaits (s : State) : Bool :=
  match s.lc with
  | some j => decide (j.blows ≠ [])
  | none => false

/-- PENDING, HOLDUP_LOW and TEMP_HIGH: what waits is deferred, for energy or for temperature (R49, R50, R54): a persist page, a
command's unit, the erase of the sector ahead and of a RETURN module, a fuse blow (R341). -/
def State.nvmFlags (s : State) : State :=
  let gated := s.persist.ahead.isSome || s.persist.wipe.isSome || s.cmdGated
  let free := s.portFree
  let low := !s.energyOk && ((free && (s.persistWants || gated)) || s.blowWaits)
  let hot := free && ((gated && s.tempHot) || (s.persistWants && s.temp170))
  let s := s.putB NVM_STATUS.PENDING (s.unit.isNone && s.cmdGated)
  (s.putB NVM_STATUS.HOLDUP_LOW low).putB NVM_STATUS.TEMP_HIGH hot

/-- A persist page that is due starts, where the port is free and it may; else it is deferred (R49, R54). -/
def State.persistKick (s : State) : State :=
  (if s.unit.isNone ∧ s.persistWants ∧ s.persistMay then s.startPersist else s).nvmFlags

/-- The next unit of the command starts, where it may: a wait for the flash begins (R333). -/
def State.cmdKick (s : State) : State :=
  match s.nvm with
  | none => s
  | some j =>
    match s.nextUnit j.todo with
    | none => s
    | some (u, r) => if u.gated = false ∨ s.flashMay = true then (s.withUnit (some u)).withNvm (some { j with todo := r, since := s.time.toNat }) else s

/-- The port takes its next work, if it is free: a persist page that is due, the sector ahead, the next sector of a RETURN
module, the next unit of the command; what may not start is deferred (R49, R50, R54, R86, R88, R345). In a shedding sequence
only a persist page starts (R42, R51). -/
def State.nvmKick (s : State) : State :=
  if s.unit.isSome then s.nvmFlags
  else if s.persistWants ∧ s.persistMay then s.startPersist.nvmFlags
  else if s.shed.isSome then s.nvmFlags
  else
    match s.persist.ahead, s.persist.wipe, s.flashMay with
    | some a, _, true => ((s.withUnit (some (.ahead a))).withPersist { s.persist with ahead := none }).nvmFlags
    | none, some a, true => (s.withUnit (some (.wipe a))).nvmFlags
    | _, _, _ => s.cmdKick.nvmFlags

/-! ## Commands (R87-R89) -/

/-- Whether bytes [lo, hi) reach a slot. -/
def State.reaches (s : State) (lo hi k : Nat) : Bool := decide (lo < (k + 1) * s.slotSize ∧ k * s.slotSize < hi)

/-- The bytes a command writes. -/
def State.nvmSpan (s : State) (op addr len slot : Nat) : Nat × Nat :=
  match op with
  | 2 => (addr, addr + len)
  | 3 => (addr, addr + sectorSize)
  | _ => (slot * s.slotSize, (slot + 1) * s.slotSize)

/-- Whether the bytes reach the slot booted from while the other one is not VALID (Table 5-8). -/
def State.slotInUse (s : State) (lo hi : Nat) : Bool :=
  match s.booted with
  | some b => s.reaches lo hi b && !(if b = 0 then s.flag NVM_SLOT.VALID_B else s.flag NVM_SLOT.VALID_A)
  | none => false

/-- The RESULT with which a command is refused, 0 where it runs (Table 5-8); `signed` is a commit by a signed request. The
order of the codes is the model's, LC_DENIED before MODE (DESIGN CHOICE, notes/assumptions/30.md). -/
def State.nvmRefuse (s : State) (op addr len slot : Nat) (signed_ : Bool) : Nat :=
  let pr := s.nvmSpan op addr len slot
  let lo := pr.1
  let hi := pr.2
  if s.fld NVM_CFG.DENSITY = 0 then 0xA
  else if op = 0 ∨ 6 < op then 3
  else if (op = 1 ∨ op = 2) ∧ (len = 0 ∨ 65536 < len ∨ s.flashSize < addr + len) then 3
  else if op = 2 ∧ addr % s.pageSize ≠ 0 then 3
  else if op = 3 ∧ (addr % sectorSize ≠ 0 ∨ s.flashSize < addr + sectorSize) then 3
  else if (op = 2 ∨ op = 3) ∧ s.calBase < hi then 4
  else if (op = 2 ∨ op = 3 ∨ op = 4) ∧ s.slotInUse lo hi = true then 5
  else if op = 6 ∧ !signed_ ∧ s.lcState = 2 then 6
  else if op = 6 ∧ (s.mode = .safe ∨ s.mode = .boot) then 7
  else 0

/-! ### The calibration record (R83, R84, R273) -/

/-- A TLV record (Table 5-4). -/
def tlvBytes (typ : Nat) (val : List Byte) : List Byte :=
  let b := leBytes 2 typ ++ leBytes 2 0 ++ leBytes 4 val.length ++ val ++ leBytes ((4 - val.length % 4) % 4) 0
  b ++ leBytes 4 (crc32c b)

/-- An integer as two's complement bytes. -/
def intBytes (n : Nat) (v : Int) : List Byte := leBytes n (twos (8 * n) v)

/-- A channel's part of CAL_TIMING, CAL_DAC, CAL_THRESH and CAL_TDC (Table 14-4). -/
def Coef.timing (k : Coef) : List Byte :=
  intBytes 4 k.drv ++ intBytes 4 k.cmpH ++ intBytes 4 k.cmpL ++
    (List.range 8).flatMap (fun i => intBytes 2 (k.iofs.getD i 0)) ++ leBytes 4 0
def Coef.dacs (k : Coef) : List Byte :=
  (List.range 7).flatMap (fun i => intBytes 4 (k.dac.getD i (0, 0)).1 ++ intBytes 4 (k.dac.getD i (0, 0)).2)
def Coef.thresh (k : Coef) : List Byte := intBytes 4 k.ofsH ++ intBytes 4 k.ofsL
def Coef.tdc (k : Coef) : List Byte :=
  (List.range 8).flatMap (fun j => (numsTo 512).flatMap (fun i => leBytes 2 (k.tab (decide (4 ≤ j)) (j % 4) i)))

/-- The value of CAL_HDR; the time of a full run that the module knows nothing of is free. -/
def State.calHdr (s : State) : List Byte :=
  leBytes 4 (s.cal.root.getD (s.fld CLK_ROOT_CFG.ROOT_MHZ)) ++ leBytes 2 (s.fld PWR_TEMP_MAX.TEMP) ++
    leBytes 2 (b2n s.cal.fullBoot) ++ leBytes 8 (s.cal.full.getD s.free.toNat)

/-- The body of a calibration record of the active banks. -/
def State.calBody (s : State) : List Byte :=
  let cs := numsTo 1024
  tlvBytes 0x8101 s.calHdr ++
  tlvBytes 0x8102 (cs.flatMap (fun c => (s.chan c).active.timing)) ++
  tlvBytes 0x8103 (cs.flatMap (fun c => (s.chan c).active.dacs)) ++
  tlvBytes 0x8104 (cs.flatMap (fun c => (s.chan c).active.thresh)) ++
  tlvBytes 0x8105 (cs.flatMap (fun c => (s.chan c).active.tdc)) ++
  tlvBytes 0x8106 ((List.range 16).flatMap (fun d =>
    let k := Tab.get (fun _ => {}) s.cal.dies d
    intBytes 4 k.offset ++ leBytes 4 k.ramp ++ intBytes 4 k.c ++ leBytes 4 0)) ++
  tlvBytes 0x0107 (cs.flatMap (fun c =>
    wordBytes [s.reg (PIN_QUALITY_TIME.addr c), s.reg (PIN_QUALITY_EYE.addr c), s.reg (PIN_QUALITY_THR.addr c),
      s.reg (PIN_QUALITY_TDC.addr c)])) ++
  tlvBytes 0x8000 []

/-- Where a record of a total length starts in the store (R84). -/
def State.calPlace (s : State) (total : Nat) : Nat :=
  match s.cal.newest with
  | none => 0
  | some (off, len, _) =>
    let start := (off + len + sectorSize - 1) / sectorSize * sectorSize
    if start + total ≤ (off / 16777216 + 1) * 16777216 then start else (1 - off / 16777216) * 16777216

/-- The SEQ of the next record. -/
def State.calNextSeq (s : State) : Nat := match s.cal.newest with | some (_, _, q) => q + 1 | none => 1

/-- The record's header (Table 5-6). -/
def State.calHeader (s : State) (body : List Byte) : List Byte :=
  let h := leBytes 4 0x43585A4C ++ leBytes 4 s.calNextSeq ++ leBytes 4 body.length ++ leBytes 1 s.lcState ++ leBytes 3 0 ++
    leBytes 8 s.time.toNat ++ leBytes 4 (crc32c body)
  h ++ leBytes 4 (crc32c h)

/-- The work of a CAL_COMMIT: the sectors erased, the pages after the first in ascending order, the header page last. -/
def State.calJob (s : State) (src : NvmSrc) : NvmJob :=
  let body := s.calBody
  let rec_ := s.calHeader body ++ body
  let off := s.calPlace rec_.length
  let a := s.calBase + off
  let p := s.pageSize
  { op := 6, addr := a, len := rec_.length, slot := 0, src := src, calSeq := s.calNextSeq, calOff := off, calLen := rec_.length
    todo := [.erase a ((rec_.length + sectorSize - 1) / sectorSize), .program (a + p) (rec_.drop p), .program a (rec_.take p)] }

/-! ### Starting, progress and end -/

/-- The work of a command. -/
def State.nvmJob (s : State) (op addr len slot : Nat) (src : NvmSrc) : NvmJob :=
  match op with
  | 1 => { op := 1, addr := addr, len := len, slot := slot, src := src, todo := [.read addr len] }
  | 2 => { op := 2, addr := addr, len := len, slot := slot, src := src, todo := [.buffer addr 0 len] }
  | 3 => { op := 3, addr := addr, len := len, slot := slot, src := src, todo := [.erase addr 1] }
  | 4 => { op := 4, addr := slot * s.slotSize, len := len, slot := slot, src := src,
           todo := [.erase (slot * s.slotSize) (s.slotSize / sectorSize)] }
  | 5 => { op := 5, addr := slot * s.slotSize, len := len, slot := slot, src := src, todo := [.read (slot * s.slotSize) 256] }
  | _ => s.calJob src

/-- VALID cleared for the slots that a PROGRAM, ERASE or ERASE_SLOT reaches (R89). -/
def State.nvmSoil (s : State) (op addr len slot : Nat) : State :=
  if op = 2 ∨ op = 3 ∨ op = 4 then
    let pr := s.nvmSpan op addr len slot
    let lo := pr.1
    let hi := pr.2
    let s := if s.reaches lo hi 0 then s.setSlot 0 8 else s
    if s.reaches lo hi 1 then s.setSlot 1 8 else s
  else s

/-- A job begun: BUSY, LAST_OP, DONE = 0; its first unit starts or is deferred. -/
def State.nvmBegin (s : State) (j : NvmJob) : State :=
  let s := ((s.put NVM_STATUS.BUSY 1).put NVM_STATUS.LAST_OP j.op).put NVM_STATUS.DONE 0
  (s.withNvm (some j)).nvmKick

/-- A command that passes the refusal checks begins; a refused one sets RESULT, LAST_OP and DONE (R88). -/
def State.nvmCommand (s : State) (op addr len slot : Nat) (src : NvmSrc) (signed_ : Bool) : State :=
  let r := s.nvmRefuse op addr len slot signed_
  if r ≠ 0 then
    let s := ((s.put NVM_STATUS.RESULT r).put NVM_STATUS.LAST_OP op).put NVM_STATUS.DONE 0
    match src with
    | .cmd q id => s.finish q id 7 r
    | .reg => s
  else (s.nvmSoil op addr len slot).nvmBegin (s.nvmJob op addr len slot src)

/-- The NVM_STATUS word as a command's RESULT. -/
def State.nvmStatus (s : State) : Nat := (s.reg NVM_STATUS.addr).toNat

/-- The next 64 KiB step of host command NVM (Table 18-5). -/
def State.nvmStep (s : State) (op addr left host : Nat) (data : List Byte) (q id : Nat) : State :=
  let n := min left 65536
  let s := if op = 2 then s.mboxPut 0x30000 (data.take n) else s
  let s := s.nvmCommand op addr n 0 (.cmd q id) false
  match s.nvm with
  | some j => if j.src = .cmd q id then s.withNvm (some { j with data := data.drop n, left := left - n, host := host }) else s
  | none => s

/-- Whether a job ends with data that D3hot keeps from host memory (R327). -/
def State.nvmOwes (s : State) (j : NvmJob) (r : Nat) : Bool :=
  match j.src with
  | .cmd _ _ => decide (j.op = 1 ∧ r = 0) && s.d3hot
  | .reg => false

/-- The end of a job with a RESULT (R88): a host command takes its data, goes on with its next step, or finishes. The data
of a READ stay in the NVM buffer, and the job with them, while the endpoint is in D3hot (R327; DEDUCED,
notes/assumptions/21.md). -/
def State.nvmEnd (s : State) (j : NvmJob) (r : Nat) : State :=
  if s.nvmOwes j r then s.withNvm (some { j with owed := true, since := s.time.toNat }) else
  let s := (((s.put NVM_STATUS.BUSY 0).put NVM_STATUS.RESULT r).withNvm none).nvmFlags
  let s := if j.lc then s.put LC_TOKEN_STATUS.BUSY 0 else s
  match j.src with
  | .reg => s
  | .cmd q id =>
    let s := if j.op = 1 ∧ r = 0 then s.hostPutEp j.host (s.mboxBytes 0x30000 j.len) j.ep else s
    if r = 0 ∧ 0 < j.left then s.nvmStep j.op (j.addr + j.len) j.left (j.host + j.len) j.data q id
    else s.finish q id 0 s.nvmStatus

/-- The record of a CAL_COMMIT complete in the flash: it is the newest (R84). -/
def State.calStored (s : State) (j : NvmJob) : State :=
  let s := s.withCal { s.cal with newest := some (j.calOff, j.calLen, j.calSeq) }
  (s.put NVM_JOURNAL_SEQ.SEQ j.calSeq).event 3 4 j.calSeq

/-- What a command does when its last unit is done: VALIDATE_SLOT stores its finding, CAL_COMMIT makes its record the
newest (R84, R89). -/
def State.nvmOk (s : State) (j : NvmJob) : State :=
  match j.op with
  | 5 => (s.setSlot j.slot (s.slotReason j.slot)).nvmEnd j 0
  | 6 => (s.calStored j).nvmEnd j 0
  | _ => s.nvmEnd j 0

/-- DONE; a count that its sixteen bits cannot hold is a free value (DEDUCED, notes/assumptions/30.md). -/
def State.putDone (s : State) (n : Nat) : State :=
  if n < 65536 then s.put NVM_STATUS.DONE n else (s.put NVM_STATUS.DONE s.free.toNat).takeFree

/-- A unit of the command complete and verified: DONE advances; the command ends after an ABORT or its last unit, else
goes on. A CAL_COMMIT aborted in its last page has stored its record all the same (R84). -/
def State.nvmAdvance (s : State) (j : NvmJob) (n : Nat) : State :=
  let j := { j with units := j.units + n }
  let s := (s.putDone j.units).withNvm (some j)
  if j.aborted then (if j.op = 6 ∧ j.todo = [] then s.calStored j else s).nvmEnd j 9
  else if j.todo ≠ [] then s
  else if j.op = 5 ∧ j.units = 1 ∧ s.headerReason j.slot = 0 ∧ hdrBodyLen (s.slotHeader j.slot) ≠ 0 then
    s.withNvm (some { j with todo := [.read (j.addr + 256) (hdrBodyLen (s.slotHeader j.slot))] })
  else s.nvmOk j

/-- What follows a unit for the command it belongs to, if one still runs. -/
def State.unitDone (s : State) (u : FlashUnit) (ok : Bool) : State :=
  match s.nvm with
  | none => s
  | some j => if ok then s.nvmAdvance j u.count else s.nvmEnd j 8

/-- A sector of the flash of a RETURN module erased (R345): the next one waits, or BOOT goes on to erase no more; one that
does not verify is erased again. -/
def State.wiped1 (s : State) (a : Nat) (ok : Bool) : State :=
  if ok then
    (s.flashErase a).withPersist { s.persist with
      wipe := if a + sectorSize < s.persist.wipeEnd ∧ s.mode = .boot then some (a + sectorSize) else none }
  else s.tear a (List.replicate sectorSize 0xFF)

/-- The DROPPED of a persist page. -/
def pageDropped (bs : List Byte) : Nat := leNat ((bs.drop 233).take 2)

/-- A persist page has failed its verify: its events and the number in its DROPPED wait for the next page, at the next place of
the area (DESIGN CHOICE, notes/assumptions/30.md); after the one page of a shedding sequence none follows. -/
def State.persistFailed (s : State) (bs : List Byte) (evts : List EvtRec) : State :=
  let p := s.persist
  s.withPersist { p with
    waiting := evts ++ p.waiting, dropped := min 65535 (p.dropped + pageDropped bs)
    due := if s.shed.isSome ∧ p.due = 0 then 0 else p.due + evts.length }

/-- The place and the SEQ of the next persist page, behind one that is written or torn. -/
def State.persistOn (s : State) : State :=
  s.withPersist { s.persist with off := (s.persist.off + 256) % 16777216, seq := (s.persist.seq + 1) % 2 ^ 32 }

/-- What the ECC finds on a unit's read of the NVM buffer (R291, Table 16-2): of a page to program, whose bytes are then
free; of what a READ leaves for the host, which goes to host memory with EP. -/
def State.bufferEcc (s : State) (u : FlashUnit) (ecc : Ecc) : FlashUnit × State :=
  match u with
  | .program a bs =>
    let t := s.sramEcc 3 0x30000 bs.length ecc
    if ecc = .ue then
      let pr := State.freeBytes bs.length t
      (.program a pr.1, pr.2)
    else (u, t)
  | .read _ _ =>
    match s.nvm with
    | some j =>
      let t := s.sramEcc 3 0x30000 j.len ecc
      (u, t.withNvm (some { j with ep := decide (ecc = .ue) }))
    | none => (u, s)
  | _ => (u, s)

/-- A unit ends: its effect on the flash or the buffer; one that fails its verify leaves its bytes torn
(DEDUCED, notes/assumptions/30.md). -/
def State.unitEnd (s : State) (u : FlashUnit) (ok : Bool) : State :=
  let s := s.withUnit none
  match u with
  | .read a n =>
    let pr := s.flashRead a n
    let bs := pr.1
    let s := pr.2
    let s := match s.nvm with
      | some j => if j.op = 1 then s.mboxPut (0x30000 + (a - j.addr)) bs else s
      | none => s
    s.unitDone u true
  | .program a bs => (if ok then s.flashPut a bs else s.tear a bs).unitDone u ok
  | .buffer _ _ _ => s
  | .erase a _ => (if ok then s.flashErase a else s.tear a (List.replicate sectorSize 0xFF)).unitDone u ok
  | .persist a bs evts =>
    if ok then (s.flashPut a bs).persistOn else ((s.tear a bs).persistFailed bs evts).persistOn
  | .ahead a => if ok then s.flashErase a else s.tear a (List.replicate sectorSize 0xFF)
  | .wipe a => s.wiped1 a ok

/-- The unit in progress abandoned: what it was writing is torn (R54); the next persist page goes behind a torn one. -/
def State.tearUnit (s : State) : State :=
  match s.unit with
  | none => s
  | some u =>
    let s := s.withUnit none
    match u with
    | .program a bs => s.tear a bs
    | .persist a bs _ => (s.tear a bs).persistOn
    | .erase a _ => s.tear a (List.replicate sectorSize 0xFF)
    | .ahead a | .wipe a => s.tear a (List.replicate sectorSize 0xFF)
    | _ => s

/-- A sector erase in progress suspended and abandoned (R42, R54); its command ends ABORTED (DEDUCED,
notes/assumptions/30.md). -/
def State.dropErase (s : State) : State :=
  match s.unit with
  | some (.erase _ _) =>
    let s := s.tearUnit
    match s.nvm with
    | some j => s.nvmEnd j 9
    | none => s
  | some (.ahead _) => s.tearUnit
  | some (.wipe _) => s.tearUnit.withPersist { s.persist with wipe := none }
  | _ => s

/-- Whether the unit in progress belongs to the command that runs. -/
def State.jobUnit (s : State) : Bool :=
  match s.unit with
  | some (.read _ _) => true
  | some (.program _ _) => true
  | some (.erase _ _) => true
  | _ => false

/-- A write of NVM_CMD (R87, R88): the KEY and an ABORT are judged before anything that `nvmRefuse` refuses, and an ABORT while
no command runs leaves DONE as it was (DESIGN CHOICE, notes/assumptions/30.md). -/
def State.writeNvmCmd (s : State) (v : Word) : State :=
  let op := wfld v NVM_CMD.OP
  let key := decide (wfld v NVM_CMD.KEY = 0xA5)
  match s.nvm with
  | some j =>
    if key ∧ op = 7 then
      if s.jobUnit then s.withNvm (some { j with aborted := true }) else s.nvmEnd j 9
    else s.put NVM_STATUS.RESULT 1
  | none =>
    if !key then ((s.put NVM_STATUS.RESULT 2).put NVM_STATUS.LAST_OP op).put NVM_STATUS.DONE 0
    else if op = 7 then (s.put NVM_STATUS.RESULT 0).put NVM_STATUS.LAST_OP 7
    else s.nvmCommand op (s.fld NVM_ADDR.ADDR) (s.fld NVM_LEN.LEN) (s.fld NVM_SLOT.SEL) .reg false

end Sys2Proof.Machine
end

