-- ==== Sys2Proof/Machine/ModeOps.lean ====
section
/-! DEFINITION. Mode changes (02, R27-R43): faults, SAFE entry, RESET_BOOT, the shedding sequence, OFF, loss of the manager,
CAL; the reference source (04, R59-R63). Each sequence is one step (DEDUCED, notes/assumptions/12.md). -/

namespace Sys2Proof.Machine

/-! ## Reference source and time base (R59, R60, R63) -/

/-- Whether a source may be used: 1 LINK, 2 REFIN, 3 OCXO. -/
def State.srcValid (s : State) (src : Nat) : Bool :=
  match src with
  | 1 => s.flag CLK_STATUS.LINK_VALID
  | 2 => s.flag CLK_STATUS.REFIN_VALID
  | _ => true

/-- The source that REF_SRC asks for (R59). -/
def State.srcWanted (s : State) : Nat :=
  match s.fld CLK_ROOT_CFG.REF_SRC with
  | 0 => if s.hasManager then 1 else if s.flag CLK_STATUS.REFIN_VALID then 2 else 3
  | n => n

/-- TB_COLD (R63); an open FREQ gate then has a cold part (R232). -/
def State.updateCold (s : State) : State :=
  let cold := !s.flag CLK_STATUS.OCXO_WARM || (decide (s.fld CLK_STATUS.SRC_ACTIVE = 1) && s.flag (LNK_STATUS.P_TB_COLD 0))
  let s := s.putB CLK_STATUS.TB_COLD cold
  if cold then s.unitsCold else s

/-- The module runs from the source it wants where that is valid, else from the OCXO (DEDUCED, notes/assumptions/31.md);
from the fallback oscillator while the root PLL is unlocked (R56). -/
def State.selectSource (s : State) : State :=
  (s.put CLK_STATUS.SRC_ACTIVE (if s.flag CLK_STATUS.ROOT_LOCK = false then 0 else if s.srcValid s.srcWanted then s.srcWanted else 3)).updateCold

/-- The disciplining loop (R61): while LINK or REFIN is active, the OCXO warm and AUTO = 1, it writes TRIM; what it has come to
is a free value wherever it shows (DESIGN CHOICE, notes/assumptions/31.md). -/
def State.discipline (s : State) : State :=
  let src := s.fld CLK_STATUS.SRC_ACTIVE
  if s.flag CLK_OCXO_TRIM.AUTO ∧ s.flag CLK_STATUS.OCXO_WARM ∧ (src = 1 ∨ src = 2) then
    s.takeFree.put CLK_OCXO_TRIM.TRIM (s.free.toNat % 65536)
  else s

/-- The root PLL is unlocked: the fallback oscillator takes its place, and the loop stops (R56, R61, R63). -/
def State.rootLost (s : State) : State :=
  ((s.discipline.put CLK_STATUS.ROOT_LOCK 0).put CLK_STATUS.SRC_ACTIVE 0).updateCold

/-- CLK_SYNC_STATUS.STATE. -/
def State.syncState (s : State) : Nat := s.fld CLK_SYNC_STATUS.STATE

/-- The state entered, with no exchange made since (R71). -/
def State.acquire (s : State) : State :=
  let s := ((s.put CLK_SYNC_STATUS.STATE 1).put CLK_SYNC_STATUS.EXCH 0).put CLK_SYNC_STATUS.UP_OUT 0
  (s.withSync { s.sync with thetas := [], t1 := none }).withSlew 0

/-- The synchronization acquired again once no act executes (R71). -/
def State.syncAgain (s : State) : State := if s.syncState = 3 ∧ s.anyExecuting = false then s.acquire else s

/-! ## Faults and SAFE (R37-R40) -/

/-- A fatal fault recorded and journaled (R37). -/
def State.recordFault (s : State) (code unit detail : Nat) : State :=
  let w := code + 256 * unit + 65536 * detail
  let s := s.put SYS_FAULT.SEEN (s.fld SYS_FAULT.SEEN ||| 2 ^ (code - 1))
  let s := if s.fld SYS_FAULT_CODE.CODE = 0 then s.setReg SYS_FAULT_CODE.addr (BitVec.ofNat 32 w) else s
  ((s.event 0 2 w).sysIrq 1).bdIrq 1

/-- Everything that entry to SAFE, BOOT or OFF ends: acts stop as by ABORT with reason MODE and the fail processor drains,
PPMUs disconnect, SREF outputs go to their clear codes; calibration, measurements, triggers and streams end (R29, R38, R105,
R237, R250, R256, Table 12-2). -/
def State.endService (s : State) : State :=
  ((s.stopAll 0x10).cutPpmus).srefClearAll.calEnd.tdcAbortAll.trigDisarmAll.streamsEnd

/-- The core domain and the functions of the PE domain off: they hold no state (R12, Table 1-2). The registers of CAL and of
the blocks above it are theirs. -/
def State.coreOff (s : State) : State :=
  { s with
    regs := s.regs.filter (fun e => decide (e.1 < 0xA0000)), banks := [], acts := [], dies := [], chans := [], rings := []
    logBuf := 0, rq := {}, tdcs := [], units := [], trigs := [], streams := [], cal := {} }

/-- Whether the DRAM stacks have been trained: outside BOOT, and in BOOT after step 4 (R12, R33). -/
def State.trained (s : State) : Bool := !decide (s.mode = .boot) || decide (4 < s.fld SYS_MODE.BOOT_STEP)

/-- The SAFE entry sequence (Table 2-13, R86), in its order; DRAM that is not trained goes off, and the patrol ends (R39). -/
def State.safeEntry (s : State) : State :=
  let t := ((s.setMode .safe).put SYS_STATUS.TRANSIT 1).endService.abortCmds (fun c => !opcodeSafe c.opcode.toNat)
  let s := if s.trained then t.coreOff else t.coreOff.withDram []
  let s := (s.event 0 1 (s.reg SYS_FAULT_CODE.addr).toNat).sysIrq 0
  let s := (s.bdIrq 0).persistDue
  ((s.put SYS_STATUS.TRANSIT 0).put MEM_PATROL_STATUS.ACTIVE 0).persistKick

/-- A fatal fault (R37, R40): recorded; outside SAFE it leads to SAFE. A thermal shutdown, in SAFE too, sets THERM_LATCH and
abandons a sector erase (R52-R54). -/
def State.fatal (s : State) (code unit detail : Nat) : State :=
  if s.mode = .off then s
  else
    let safe := decide (s.mode = .safe)
    let s := s.recordFault code unit detail
    let s := if code = 5 then (s.put SYS_STATUS.THERM_LATCH 1).dropErase else s
    if safe then s else s.safeEntry

/-! ## BOOT (R33, R350) -/

/-- Registers that keep their value through RESET_BOOT (Table 20-2), with PWR_HOLDUP_V and PWR_TEMP_MAX, which the module
measures again at once (DEDUCED, notes/assumptions/32.md). -/
def keptAddr (a : Nat) : Bool :=
  decide (a = SYS_ROLE.addr ∨ a = SYS_DEVIDX.addr ∨ a = CLK_ROOT_CFG.addr ∨ a = CLK_OCXO_TRIM.addr ∨
    a = PWR_HOLDUP_CAP.addr ∨ a = PWR_HOLDUP_V.addr ∨ a = PWR_TEMP_MAX.addr ∨
    (0x60000 ≤ a ∧ a < 0x62000 ∧ a ≠ HOST_DUP_WINDOW.addr))

/-- Bits of CLK_STATUS and PWR_STATUS that are kept (Table 20-2), with POWER_GOOD, VIN_SURGE and REFIN_VALID, which the module
finds again at once (DEDUCED, notes/assumptions/32.md). -/
def State.keepStatus (s old : State) : State :=
  let s := (s.putB CLK_STATUS.OCXO_WARM (old.flag CLK_STATUS.OCXO_WARM)).putB CLK_STATUS.OCXO_OK (old.flag CLK_STATUS.OCXO_OK)
  let s := (s.putB CLK_STATUS.ROOT_LOCK (old.flag CLK_STATUS.ROOT_LOCK)).putB CLK_STATUS.PCIE_LOCK (old.flag CLK_STATUS.PCIE_LOCK)
  let s := (s.putB PWR_STATUS.CAP_VALID (old.flag PWR_STATUS.CAP_VALID)).putB PWR_STATUS.POWER_GOOD (old.flag PWR_STATUS.POWER_GOOD)
  (s.putB PWR_STATUS.VIN_SURGE (old.flag PWR_STATUS.VIN_SURGE)).putB CLK_STATUS.REFIN_VALID (old.flag CLK_STATUS.REFIN_VALID)

/-- Every register but the kept ones at its Reset column, every hidden state at its beginning, and the duplicate windows
cleared (Table 20-2); deferred flash operations are discarded (R50). TEMP_ALERT and TEMP_WARN are armed again also while a
sensor is still hot: R53 does not say (DESIGN CHOICE, notes/assumptions/12.md). -/
def State.wiped (s : State) : State :=
  { s with
    regs := s.regs.filter (fun e => keptAddr e.1)
    pins := { s.pins with bdMask := 3 }
    queues := s.queues.map (fun (q, x) => (q, { x with window := [], done := x.done.map (fun o => { o with keep := false }) }))
    latches := [], alertArmed := true, warnArmed := true, persist := { s.persist with ahead := none, wipe := none, wipeEnd := 0 }, evtIrq := none, evtDefer := false, nvm := none, lc := none
    eraseDue := false, slotTried := none, booted := none, bodyHash := 0, hkOff := 0, hkLen := 0, hkEntry := 0, sync := {}, acts := []
    dies := [], chans := [], rings := [], logBuf := 0, logTime := s.time.toNat, rq := { time := s.time.toNat }, tdcs := []
    units := [], trigs := [], streams := [], cal := {}, ports := [], whistles := {}, shows := [], devs := []
    eccTime := none, patrol := 0, blanks := [] }

/-- The journal counts at their Reset column: the events of the reset itself are the first that it holds (R332, R350). -/
def State.journalNew (s : State) : State := ((s.put EVT_WR.COUNT 0).put EVT_RD.COUNT 0).put EVT_LOST.COUNT 0

/-- The module wiped, with the status bits and the events journaled since the reset began kept; started commands complete with
ABORTED (Table 20-2). -/
def State.freshen (s : State) : State :=
  let s := s.discipline
  let u := s.abortCmds (fun _ => true)
  let t := (u.wiped.put EVT_WR.COUNT (u.fld EVT_WR.COUNT)).put EVT_LOST.COUNT (u.fld EVT_LOST.COUNT)
  (t.keepStatus s).selectSource.lcRefresh.newNonce

/-- Whether a sensor reads outside -60 to +200 degrees (R52); sensors read in 0.125 degree. -/
def tempInvalid (t : BitVec 16) : Bool := decide (signed 16 t.toNat < -480 ∨ 1600 < signed 16 t.toNat)

/-- The sensors that are invalid now. -/
def State.invalidSensors (s : State) : List Nat := (List.range 40).filter (fun i => tempInvalid (s.sensor i).last)

/-- The sensor for which a BOOT that begins goes to SAFE (R32, R52). -/
def State.bootHot (s : State) : Option Nat :=
  if 8 ≤ s.invalidSensors.length then s.invalidSensors.head?
  else (List.range 40).find? (fun i => !tempInvalid (s.sensor i).last && decide ((1280 : Int) ≤ signed 16 (s.sensor i).last.toNat))

/-- The thermal check of a BOOT that begins. -/
def State.bootCheck (s : State) : State :=
  match s.bootHot with
  | some u => s.fatal 5 u 0
  | none => s

/-- RESET_BOOT (Table 2-3): acts stopped, pins parked, SREF cleared, then BOOT from step 2, or from what is left of step 1
(R30; PCIE_LOCK is set when it ends). -/
def State.resetBoot (s : State) : State :=
  let step := if s.flag CLK_STATUS.PCIE_LOCK then 2 else 1
  let s := ((s.journalNew.setMode .boot).endService).freshen
  ((s.put SYS_MODE.BOOT_STEP step).put SYS_STATUS.TRANSIT 1).bootCheck

/-! ## Shedding and OFF (R42, R43) -/

/-- The interface, core, memory and PE domains off, and what they held with them: of the registers, SYS to EVT and the SREF
outputs are left (R12, Table 1-2); the clock is the fallback oscillator (R56); a flash command is discarded (R50). -/
def State.domainsOff (s : State) : State :=
  let s := s.discipline.coreOff
  let s := { s with
    regs := s.regs.filter (fun e => decide (e.1 < 0x60000 ∨ 0x91000 ≤ e.1)), dram := [], queues := [], ports := []
    whistles := {}, shows := [], devs := [], nvm := none, persist := { s.persist with ahead := none, wipe := none }, blanks := [] }
  ((s.put CLK_STATUS.SRC_ACTIVE 0).put CLK_STATUS.ROOT_LOCK 0).put CLK_STATUS.PCIE_LOCK 0

/-- The shedding sequence begins: the event; acts stop, parks and SREF clear, loads shed; a sector erase in progress is
abandoned, at 170 degrees also a page program; one persist page otherwise (Table 2-14). -/
def State.shedding (s : State) (why : Shed) : State :=
  match s.mode with
  | .off => s
  | _ =>
    let s := match why with
      | .enOff => s.event 0 4
      | .pfail => s.event 2 1
      | .tempOff => s.event 2 8
    let s := ((s.setMode .off).put SYS_STATUS.TRANSIT 1).endService
    let s := (s.withShed (some why)).persistDue
    match why with
    | .tempOff => (s.withPersist { s.persist with due := 0 }).tearUnit.domainsOff
    | _ => s.dropErase.domainsOff.persistKick

/-- OFF: only the fuses, the flash, the pins and what lies outside the module are left; the position in the persist area
is found again from the flash (DEDUCED, notes/assumptions/30.md). -/
def State.off (s : State) : State :=
  { State.reset with
    pending := s.pending, otp := s.otp, flash := s.flash, torn := s.torn, hostMem := s.hostMem, msix := s.msix
    pins := { en := s.pins.en, parkN := s.pins.parkN, clrN := s.pins.clrN, role := s.pins.role, rma := s.pins.rma }
    persist := { seq := s.persist.seq, off := s.persist.off }, trims := s.trims
    freeCtr := s.freeCtr }

/-! ## Loss of the manager (R41) -/

/-- The manager is lost: ORPHANED; in IDLE, RUN and CAL the acts stop as by ABORT, every pin parks, SREF outputs clear,
calibration in progress is discarded and the module enters IDLE, where every eligible bank switches. -/
def State.orphan (s : State) : State :=
  let s := (s.put SYS_STATUS.ORPHANED 1).sysIrq 4
  if s.inService then
    let s := ((s.stopAll 0x11).parkPpmus (numsTo 1024)).srefClearAll.passesDrop.fullAbort
    ((s.setMode .idle).switchAll).syncAgain
  else s

/-! ## CAL (R29, R31, R266) -/

/-- CAL entered: the blocks leave the pins and a full run starts; PPMUs disconnect, measurements end, triggers disarm,
streams are disabled. -/
def State.enterCal (s : State) : State :=
  let s := (s.setMode .cal).cutPpmus
  s.fullStart.tdcAbortAll.trigDisarmAll.streamsDisable

/-- CAL left for IDLE: eligible banks switch. -/
def State.leaveCal (s : State) : State := (s.setMode .idle).switchAll

/-! ## Mode requests (R30-R32) -/

/-- Whether a request code is one of Table 2-4. -/
def reqDefined (req : Nat) : Bool := decide (1 ≤ req ∧ req ≤ 4)

/-- REQ_RESULT of a request with a valid KEY: BUSY while a transition other than BOOT is in progress (R30). -/
def State.reqResult (s : State) (req : Nat) : Nat :=
  if s.flag SYS_STATUS.TRANSIT ∧ s.mode ≠ .boot then 1
  else match req with
  | 1 => if s.flag SYS_STATUS.THERM_LATCH && s.tempHot then 4 else 0
  | 2 => if s.mode ≠ .idle then 3 else if actNums.any (fun n => decide (s.actState n = 1 ∨ s.actState n = 2)) then 5 else 0
  | 3 => if s.mode = .cal then 0 else 3
  | _ => if s.mode = .safe ∨ s.mode = .off then 3 else 0

/-- A request with a valid KEY: its result is stored, and an accepted one acts. A RESET_BOOT while BOOT step 1 runs lets it
complete, and BOOT goes on with step 2 (R30). -/
def State.modeRequest (s : State) (req : Nat) : State :=
  if reqDefined req = false then s.freeField SYS_STATUS.REQ_RESULT
  else
    let r := s.reqResult req
    let s := s.put SYS_STATUS.REQ_RESULT r
    if r ≠ 0 then s
    else match req with
      | 1 => if s.mode = .boot ∧ s.fld SYS_MODE.BOOT_STEP = 1 then s else s.resetBoot
      | 2 => s.enterCal
      | 3 => (s.fullAbort).leaveCal
      | _ => s.fatal 0x0C 0 0

/-- A write of SYS_MODE_REQ (R31). -/
def State.writeModeReq (s : State) (v : Word) : State :=
  if wfld v SYS_MODE_REQ.KEY = 0x5A then s.modeRequest (wfld v SYS_MODE_REQ.REQ) else s.put SYS_STATUS.REQ_RESULT 2

end Sys2Proof.Machine
end

