-- ==== Sys2Proof/Machine/LinkOps.lean ====
section
/-! DEFINITION. Brodjo ports, shows and the join profile (17, R302-R323): port states, loss of a partner, benching, the end
of a show, barkers. -/

namespace Sys2Proof.Machine

/-! ## Port states (R306, R307) -/

/-- Whether the role lets a port train (Table 17-1). -/
def State.portAllowed (s : State) (p : Nat) : Bool :=
  if p = 0 then decide (s.role < 2) else decide (s.role = 1 ∨ s.role = 2)

/-- Whether a partner's role is allowed on a port (Table 17-1). -/
def State.roleAllowed (s : State) (p r : Nat) : Bool :=
  match s.role, p with
  | 0, 0 => decide (r = 2 ∨ r = 1)
  | 1, 0 => decide (r = 2)
  | 1, _ => decide (r = 0)
  | 2, _ => decide (r = 1 ∨ r = 0)
  | _, _ => false

/-- A port state stored, with its HELD_CAUSE; a change sets SYS_IRQ_STATUS.LINK. -/
def State.setPortState (s : State) (p st cause : Nat) : State :=
  let old := s.fld (LNK_STATUS.STATE p)
  let s := (s.put (LNK_STATUS.STATE p) st).put (LNK_STATUS.HELD_CAUSE p) cause
  if old = st then s else s.sysIrq 5

/-- A port that ENABLED or the role has changed, a HELD one that may try again: TRAINING, or DOWN (R306). -/
def State.portEnable (s : State) (p : Nat) : State :=
  if s.flag (LNK_PORT_CFG.ENABLED p) ∧ s.portAllowed p then
    if s.fld (LNK_STATUS.STATE p) = 0 ∨ s.fld (LNK_STATUS.STATE p) = 4 then s.setPortState p 1 0 else s
  else s.setPortState p 0 1

/-! ## Benching (R320-R323) -/

/-- A frame sent towards a device; without a way there it is discarded and LNK_NO_ROUTE is raised (R308). -/
def State.sendTo (s : State) (dest : Nat) (f : Frame) : State :=
  match s.routeTo dest with
  | some p => s.sendFrame p { f with dest := dest }
  | none => s.event 7 3

/-- A device benched from a show by the manager (R323). -/
def State.bench (s : State) (sh d : Nat) : State :=
  if s.devBenched sh d then s
  else
    let f := LNK_SHOW_BENCH.DEVICES sh (d / 32)
    let s := s.put f (setBit (s.fld f) (d % 32) true)
    (s.sendTo d ⟨0, 0, 7, d, 0, [BitVec.ofNat 32 sh, 0]⟩).showEnd sh

/-- A device benched from every show that a test selects. -/
def State.benchAll (s : State) (d : Nat) (sel : State → Nat → Bool) : State :=
  State.each (fun sh s => if sel s sh then s.bench sh d else s) (numsTo 256) s

/-- A member that disagrees in a running show (R322): ABORT with cause 3, or the member is benched. It is detected once in each
run of the show, however long the cause lasts (DEDUCED, notes/assumptions/33.md). -/
def State.disagree (s : State) (sh d : Nat) : State :=
  if d ∈ (s.show_ sh).bad then s else
  let s := (s.setShow sh { s.show_ sh with bad := (s.show_ sh).bad ++ [d] }).event 7 8 d
  if s.flag (LNK_SHOW_CFG.ALL_OR_NONE sh) then
    (s.whistleCalled { wn := 0, kind := 3, show_ := sh, origin := 0, cause := 3 }).deliver 3 sh 0 0
  else s.bench sh d

/-- A device disagrees in every running show that it is a member of and not benched from. -/
def State.disagreeAll (s : State) (d : Nat) : State :=
  State.each (fun sh s =>
    if s.flag (LNK_SHOW_CFG.RUNNING sh) ∧ d ∈ s.showDevs sh ∧ s.devBenched sh d = false then s.disagree sh d else s)
    (numsTo 256) s

/-- The manager takes a device as lost: benched from every show, JOIN_LOST (R312, R322). -/
def State.deviceLost (d : Nat) (s : State) : State :=
  let s := (s.disagreeAll d).setDev d { s.dev d with lost := true }
  (s.benchAll d (fun _ _ => true)).event 7 6

/-- The devices at and below a DN port of the manager: the partner, and where that is a relay every one of the indices below it
(R303, R312). -/
def State.devsBelow (s : State) (p : Nat) : List Nat :=
  p :: (if s.fld (LNK_STATUS.P_ROLE p) = 1 then (List.range 16).map (fun i => 17 + 16 * (p - 1) + i) else [])

/-! ## Loss of a partner (R307, R312) -/

/-- A partner is lost: PARTNER_LOST, the event, and what follows by role. -/
def State.partnerLost (s : State) (p : Nat) : State :=
  let q := s.port p
  if q.there then
    let s := s.setPort p { q with there := false, orphanSeen := false }
    let s := ((s.put (LNK_STATUS.PARTNER_LOST p) 1).bump LNK_BARKER_CFG.LOST_CNT)
    let r := s.evtRec s.time.toNat 7 5 p 0 0 0
    let told := s.flag EVT_CFG.FWD && !s.evtFiltered 7 5
    let s := s.event 7 5 p
    if p = 0 then (if s.hasManager then (if s.syncState = 4 then s else s.acquire).orphan else s)
    else if s.role = 1 then
      if told then s else s.sendFrame 0 ⟨0, 0, 4, 0, s.devIndex % 512, r⟩
    else if s.role = 2 then State.each State.deviceLost (s.devsBelow p) s
    else s
  else s

/-- A port that leaves ACTIVE: its partner is lost at once (R307). -/
def State.portLeaves (s : State) (p st cause : Nat) : State :=
  let act := s.portActive p
  let s := s.setPortState p st cause
  if act then s.partnerLost p else s

/-- A port enters RETRAIN (R306). -/
def State.portRetrain (s : State) (p : Nat) : State :=
  if s.portActive p then (s.bump (LNK_STATUS.RETRAINS p)).portLeaves p 3 0 else s

/-- Entry to HELD: LNK_HELD with the cause (R306). -/
def State.portHold (s : State) (p cause : Nat) : State := (s.portLeaves p 4 cause).event 7 1 (p + 256 * cause)

/-! ## Tags (R310) -/

/-- The tags of a port that are retired now. -/
def State.retiredTags (s : State) (p : Nat) : List (Nat × Nat) :=
  (s.port p).retired.filter (fun x => !s.past x.2)

/-- Whether a tag of a port is neither in use nor retired. -/
def State.tagFree (s : State) (p t : Nat) : Bool :=
  !(s.port p).tags.any (fun x => decide (x.tag = t)) && !(s.retiredTags p).any (fun x => decide (x.1 = t))

/-- The lowest such tag. -/
def State.freeTag (s : State) (p : Nat) : Option Nat := (numsTo 256).find? (s.tagFree p)

/-- How many there are. -/
def State.freeTags (s : State) (p : Nat) : Nat := (numsTo 256).countP (s.tagFree p)

/-- A request sent on a port with a tag of it. -/
def State.sendReq (s : State) (p tag : Nat) (h : Held) : State :=
  let q := s.port p
  let s := s.setPort p { q with tags := q.tags ++ [⟨tag, h.who, h.wr, s.time.toNat⟩], retired := s.retiredTags p }
  s.sendFrame p { h.frame with tag := tag }

/-- The requests at a port's turnstile sent, in order, as far as its free tags reach; `n` bounds them. -/
def State.tagsGo (p : Nat) : Nat → State → State
  | 0, s => s
  | n + 1, s =>
    match (s.port p).held, s.freeTag p with
    | h :: hs, some t => State.tagsGo p n ((s.setPort p { s.port p with held := hs }).sendReq p t h)
    | _, _ => s

/-- The requests that wait for a tag of a port looked at again. -/
def State.tagFreed (s : State) (p : Nat) : State := State.tagsGo p (s.port p).held.length s

/-- A request that expects a reply leaves by a port, or waits there for a tag (R310). -/
def State.request (s : State) (p : Nat) (h : Held) : State :=
  (s.setPort p { s.port p with held := (s.port p).held ++ [h] }).tagFreed p

/-- Every port with requests that wait for a tag looked at, as the time of the retired tags passes. -/
def State.tagsRetired (s : State) : State :=
  State.each (fun p s => if (s.port p).held = [] then s else s.tagFreed p) (List.range 17) s

/-! ## Join profile (R321) -/

/-- The module's join profile (Table 17-9). -/
def State.profile (s : State) : List Word :=
  [BitVec.ofNat 32 s.bodyHash.toNat, BitVec.ofNat 32 (s.bodyHash.toNat / 2 ^ 32),
   BitVec.ofNat 32 (bitsOf s.otp.rev.toNat 8 5 + 256 * s.lcState + 65536 * s.role + 16777216 * s.syncState),
   s.reg CLK_SYNC_OFFSET.addr]

/-- The JOIN frame of a worker or relay. -/
def State.sendJoin (s : State) : State :=
  if s.hasManager ∧ s.portActive 0 then s.sendFrame 0 ⟨0, 0, 5, 0, s.devIndex % 512, s.profile⟩ else s

/-- Byte i of a profile. -/
def profByte (ws : List Word) (i : Nat) : Nat := bitsOf (ws.getD (i / 4) 0).toNat (8 * (i % 4)) 8

/-- The mismatching bytes of a device's profile: bytes 0 to 9 with the manager's own, byte 10 with the role at the
device's position, byte 11 with LOCKED. -/
def State.profMismatch (s : State) (d : Nat) (ws : List Word) : Nat :=
  let own := s.profile
  ((List.range 10).map (fun i => if profByte ws i = profByte own i then 0 else 2 ^ i)).sum +
    (if profByte ws 10 = 0 ∨ (profByte ws 10 = 1 ∧ d ≤ 16) then 0 else 2 ^ 10) +
    (if bitsOf (profByte ws 11) 0 3 = 2 then 0 else 2 ^ 11)

/-- A join profile taken by the manager (R321, R322). -/
def State.takeJoin (s : State) (d : Nat) (ws : List Word) : State :=
  let m := s.profMismatch d ws
  let s := s.setDev d { profile := ws, mismatch := m, lost := false }
  if m = 0 then s
  else
    let s := s.event 7 7 d m
    let s := if bitOf m 11 then s.disagreeAll d else s
    if m < 256 then s.benchAll d (fun s sh => !s.flag (LNK_SHOW_CFG.MIXED_IMAGES sh)) else s.benchAll d (fun _ _ => true)

/-! ## Barkers (R311, R312) -/

/-- The barker that a port sends (Table 17-6). -/
def State.barkerWord (s : State) (p : Nat) : BitVec 56 :=
  let idx := if s.flag SYS_DEVIDX.VALID then s.fld SYS_DEVIDX.INDEX else 0x1FF
  let me := s.fld SYS_DEVIDX.INDEX
  let child := if p = 0 then 0x1FF else if s.role = 2 then p else 17 + 16 * (me - 1) + (p - 1)
  BitVec.ofNat 56 (s.mode.code * 2 ^ 53 + s.fld SYS_FAULT_CODE.CODE * 2 ^ 45 + idx * 2 ^ 36 + child % 512 * 2 ^ 27 +
    b2n (s.flag CLK_STATUS.TB_COLD) * 2 ^ 26 + s.syncState * 2 ^ 23 + s.role * 2 ^ 21 +
    b2n (s.flag SYS_STATUS.ORPHANED) * 2 ^ 20 + ((s.port p).bcnt) % 256)

/-- What a barker reports is stored. -/
def State.storeBarker (s : State) (p : Nat) (w : BitVec 56) : State :=
  let b := w.toNat
  let s := ((s.put (LNK_STATUS.P_MODE p) (bitsOf b 53 3)).put (LNK_STATUS.P_FAULT p) (bitsOf b 45 8)).put
    (LNK_STATUS.P_TB_COLD p) (bitsOf b 26 1)
  let s := ((s.put (LNK_STATUS.P_SYNC p) (bitsOf b 23 3)).put (LNK_STATUS.P_ROLE p) (bitsOf b 21 2)).put
    (LNK_STATUS.P_ORPHANED p) (bitsOf b 20 1)
  (s.setPort p { s.port p with partnerIdx := bitsOf b 36 9, there := true }).updateCold

/-- The device at the partner end of a DN port. -/
def State.partnerDev (s : State) (p : Nat) : Nat := if s.role = 2 then p else 17 + 16 * (s.fld SYS_DEVIDX.INDEX - 1) + (p - 1)

/-- What a barker of the UP partner brings about: a worker under an orphaned partner loses its manager (R312); a LOCKED
module under an OUT partner is OUT (R71), and its slew term stays as it was: the rule does not say (DESIGN CHOICE,
notes/assumptions/35.md). -/
def State.upBarker (s : State) : State :=
  let s := if s.fld (LNK_STATUS.P_SYNC 0) = 3 ∧ s.syncState = 2 then
      (s.put CLK_SYNC_STATUS.STATE 3).put CLK_SYNC_STATUS.UP_OUT 1 else s
  let orph := s.flag (LNK_STATUS.P_ORPHANED 0)
  let seen := (s.port 0).orphanSeen
  let s := s.setPort 0 { s.port 0 with orphanSeen := orph }
  if s.role = 0 ∧ orph ∧ seen = false then s.orphan else s

/-- What a barker of a DN partner brings about at the manager (R321, R322). -/
def State.downBarker (s : State) (p : Nat) : State :=
  let m := s.fld (LNK_STATUS.P_MODE p)
  if s.role = 2 ∧ (s.fld (LNK_STATUS.P_SYNC p) ≠ 2 ∨ m = 1 ∨ m = 2 ∨ s.flag (LNK_STATUS.P_ORPHANED p)) then
    s.disagreeAll (s.partnerDev p)
  else s

end Sys2Proof.Machine
end

