-- ==== Sys2Proof/Machine/Clocks.lean ====
section
/-! DEFINITION. The commands of clocks and time (04): one meaning per row. -/

namespace Sys2Proof.Machine

/-! ## Root and reference (R55-R61) -/

/-- The root change begins (Table 4-2): what needs the root ends, and the Brodjo lanes stop. -/
def State.rootChange (s : State) : State :=
  let s := s.passesDrop.tdcAbortAll.trigDisarmAll.streamsDisable
  let s := State.each (fun p s =>
    if s.portActive p then s.portRetrain p
    else if s.fld (LNK_STATUS.STATE p) = 4 then s.setPortState p 1 0
    else s) (List.range 17) s
  s.put CLK_STATUS.ROOT_BUSY 1

/-- A HOLDOVER sync state goes back to ACQUIRING where the UP partner is valid (R71). -/
def State.upAgain (s : State) : State := if s.flag CLK_STATUS.LINK_VALID ∧ s.syncState = 4 then s.acquire else s

/-- The source that CLK_ROOT_CFG selects is taken, where it is valid (R57, R59; DEDUCED, notes/assumptions/31.md). Holdover ends
with it, and the sync state's own where the UP partner is valid (R71). -/
def State.reselect (s : State) : State :=
  let s := s.discipline
  if s.srcValid s.srcWanted then (s.selectSource.put CLK_STATUS.HOLDOVER 0).upAgain
  else if s.flag CLK_STATUS.HOLDOVER then s
  else s.selectSource

/-- The fields of CLK_ROOT_CFG stored; a change of REF_SRC or REFIN_10M moves the module to the selected source (R57). -/
def State.storeRootCfg (s : State) (v : Word) : State :=
  let t := s.store CLK_ROOT_CFG.addr v
  if wfld v CLK_ROOT_CFG.REF_SRC = s.fld CLK_ROOT_CFG.REF_SRC ∧ wfld v CLK_ROOT_CFG.REFIN_10M = s.fld CLK_ROOT_CFG.REFIN_10M then t
  else t.reselect

/-- A write of CLK_ROOT_CFG (R57): a root change where ROOT_MHZ differs, else the other fields. -/
def State.writeRootCfg (s : State) (v : Word) : State :=
  let m := wfld v CLK_ROOT_CFG.ROOT_MHZ
  if m < 19200 ∨ 25600 < m then s.freeField CLK_STATUS.ROOT_REFUSED
  else if m = s.fld CLK_ROOT_CFG.ROOT_MHZ then s.storeRootCfg v
  else if s.mode = .idle ∧ s.anyExecuting = false ∧ s.flag SYS_STATUS.TRANSIT = false then
    (s.storeRootCfg v).rootChange
  else s.put CLK_STATUS.ROOT_REFUSED 1

/-- ROOT_CHANGE (R57). -/
def execRootChange (v : Word) (s : State) : Res := .next (s.hostWrite CLK_ROOT_CFG.addr v (fun s => s.writeRootCfg v))

/-- REF_SRC_WRITE (R57, R59). -/
def execRefSrcWrite (v : Word) (s : State) : Res := .next (s.hostWrite CLK_ROOT_CFG.addr v (fun s => s.writeRootCfg v))

/-- ROOT_CHANGED (R57): the retraining is complete, or has failed for a die or a stack. -/
def execRootChanged (bad : Option RetrainFail) (s : State) : Res :=
  if s.flag CLK_STATUS.ROOT_BUSY then
    match bad with
    | none => .next ((s.event 1 3).put CLK_STATUS.ROOT_BUSY 0)
    | some (.die d) => .next (s.fatal 0x0A d 0)
    | some (.dram k) => .next (s.fatal 2 k 0)
  else .next s

/-- The active source's valid bit cleared. -/
def State.dropSource (s : State) : State :=
  match s.fld CLK_STATUS.SRC_ACTIVE with
  | 1 => s.put CLK_STATUS.LINK_VALID 0
  | 2 => s.put CLK_STATUS.REFIN_VALID 0
  | _ => s

/-- Holdover (R60, R71): the root runs from the OCXO; a worker or relay on LINK has lost its manager. -/
def State.holdover (s : State) : State :=
  let link := decide (s.fld CLK_STATUS.SRC_ACTIVE = 1)
  let s := (s.discipline.dropSource.put CLK_STATUS.HOLDOVER 1).put CLK_STATUS.SRC_ACTIVE 3
  let s := if s.syncState = 2 ∨ s.syncState = 3 then ((s.put CLK_SYNC_STATUS.STATE 4).put CLK_SYNC_STATUS.UP_OUT 0).withSlew 0 else s
  let s := s.updateCold.event 1 1
  if link ∧ s.hasManager ∧ s.flag SYS_STATUS.ORPHANED = false then s.orphan else s

/-- REF_LOST (R60, R37): the active source is lost; where it is the OCXO, or no OCXO is there to hold over, it is CLOCK_LOSS. -/
def execRefLost (s : State) : Res :=
  match s.fld CLK_STATUS.SRC_ACTIVE with
  | 0 => .next s
  | 3 => .next ((s.put CLK_STATUS.OCXO_OK 0).rootLost.fatal 7 0 0)
  | _ => if s.flag CLK_STATUS.OCXO_OK then .next s.holdover else .next (s.dropSource.rootLost.fatal 7 0 0)

/-- REF_RESTORED (R60): under AUTO, back to the preferred source, while the root runs from the OCXO (R56). -/
def execRefRestored (s : State) : Res :=
  let p := if s.hasManager then 1 else 2
  if s.flag CLK_STATUS.HOLDOVER ∧ s.fld CLK_ROOT_CFG.REF_SRC = 0 ∧ s.srcValid p ∧ s.fld CLK_STATUS.SRC_ACTIVE = 3 then
    .next ((((s.put CLK_STATUS.SRC_ACTIVE p).put CLK_STATUS.HOLDOVER 0).updateCold).event 1 2).upAgain
  else .next s

/-- What the monitors of LINK, REFIN and the OCXO say (R60). The active source is not lost here but by REF_LOST. -/
def State.seeRefs (s : State) (r : RefSeen) : State :=
  let act := s.fld CLK_STATUS.SRC_ACTIVE
  let s := if act = 1 then s else s.putB CLK_STATUS.LINK_VALID r.link
  let s := if act = 2 then s else s.putB CLK_STATUS.REFIN_VALID r.refin
  if act = 3 then s else s.putB CLK_STATUS.OCXO_OK r.ocxo

/-- SOURCE_VALID_AGAIN (R60, R71): a source that was lost has stayed within its limits for 10 ms; of the others, those that
are not active may have been lost. Outside holdover, and where the host has selected the source, the module takes it at once
(DEDUCED, notes/assumptions/31.md). -/
def execSourceValidAgain (seen : RefSeen) (s : State) : Res :=
  if s.mode = .off then .next s
  else
    let s := s.seeRefs seen
    if s.fld CLK_STATUS.SRC_ACTIVE = 0 ∨ (s.flag CLK_STATUS.HOLDOVER ∧ s.fld CLK_ROOT_CFG.REF_SRC = 0) then .next s.upAgain
    else .next s.reselect.upAgain

/-- OCXO_WARM (R62). -/
def execOcxoWarm (s : State) : Res :=
  if s.mode = .off then .next s else .next (s.put CLK_STATUS.OCXO_WARM 1).updateCold

/-- OCXO_WARM_LOST (R61, R62). -/
def execOcxoWarmLost (s : State) : Res :=
  if s.mode = .off then .next s else .next (s.discipline.put CLK_STATUS.OCXO_WARM 0).updateCold

/-! ## Time (R64-R71) -/

/-- The count wraps: a new epoch (R67). -/
def State.timeWrap (s : State) : State :=
  let s := s.withEpoch (s.epoch + 1)
  s.event 1 4 s.epoch.toNat

/-- One reference cycle of 10 ns passes: the count advances by 65,536 fines and the slew term (R2, R65), from the first lock of
the root until OFF (R64; DESIGN CHOICE, notes/assumptions/7.md); requests that wait for a link tag leave as tags are no longer
retired (R310). -/
def State.tick (s : State) : State :=
  if s.counting then
    let t := (s.time.toNat : Int) + 65536 + s.slew
    let s : State := s.withTime (BitVec.ofInt 64 t)
    (if 2 ^ 64 ≤ t then s.timeWrap else s).tagsRetired
  else s

/-- TIME_WRAP (R67). -/
def execTimeWrap (s : State) : Res := if s.mode = .off then .next s else .next ((s.withTime 0).timeWrap)

/-- SYNC_EXCHANGE (R68): a downstream module with an ACTIVE UP port sends a request and keeps t1. -/
def execSyncExchange (s : State) : Res :=
  if s.hasManager ∧ s.portActive 0 then
    let x := (s.sync.xch + 1) % 256
    let s := s.withSync { s.sync with xch := x, t1 := some s.time.toNat }
    .next (s.whistleOn { wn := x, kind := 5, show_ := 0, origin := 0 } [0])
  else .next s

/-- SYNC_REQ (R68): the upstream module stamps t2, answers with TURN and t2, and records the port's round trip; t4 - t1, which
no field of a whistle brings it, comes with the command (DEDUCED, notes/assumptions/35.md). -/
def execSyncReq (p : Port) (xch : BitVec 8) (rsp : SyncTurn) (s : State) : Res :=
  if p ≠ 0 ∧ s.portActive p then
    let s := s.whistleOn { wn := xch.toNat, kind := 5, show_ := 0, origin := 0, form := 1, turn := rsp.turn.toNat, ext := s.time.toNat } [p.val]
    .next (s.put (LNK_DELAY.RT p) (twos 24 ((rsp.round.toNat : Int) - rsp.turn.toNat)))
  else .next s

/-- The filtered offset in fines (R68): to the nearest, as in Example 4-1, halves up; with fewer than 16 exchanges the mean of
those made since the last acquire or step (DESIGN CHOICE, notes/assumptions/35.md). -/
def State.filtered (s : State) : Int :=
  let n : Int := max 1 s.sync.thetas.length
  (s.sync.thetas.sum + n) / (2 * n)

/-- The slew that reduces an offset (R65, R71). -/
def slewOf (v : Int) : Int := if 0 < v then -1 else if v < 0 then 1 else 0

/-- A time moved by a step of the count. -/
def moved (d : Int) (t : Nat) : Nat := (((t : Int) + d) % (2 : Int) ^ 64).toNat

/-- The same in 1/64 fine. -/
def moved64 (d : Int) (t : Nat) : Nat := (((t : Int) + 64 * d) % (2 : Int) ^ 70).toNat

/-- A stamp of a TDC moved by a step of the count. -/
def Kept.moved (d : Int) (x : Kept) : Kept := { x with t := x.t + 64 * d }

/-- A measurement unit after a step of the count: its arming, its start and its stops move, an arm time that it still waits for
does not. -/
def TdcUnit.moved (d : Int) (u : TdcUnit) : TdcUnit :=
  let m : Int → Int := fun t => t + 64 * d
  { u with
    armT := if u.phase = .armTime then u.armT else m u.armT
    start := u.start.map m, stops := u.stops.map (fun x => x.map (fun y => y.map m)), near := u.near.map (fun x => x.map (Kept.moved d)) }

/-- The transitions that a reduction measures from, after a step of the count. -/
def Red.moved (d : Int) (r : Red) : Red :=
  let m : Option Int → Option Int := fun x => x.map (fun t => t + 64 * d)
  { r with prevR := r.prevR.map m, prevF := r.prevF.map m, prevE := r.prevE.map m }

/-- What the module measures intervals from moves with a step of the count (R71; DEDUCED, notes/assumptions/35.md). -/
def State.moveTimers (s : State) (d : Int) : State :=
  let m := moved d
  { s with
    evtIrq := s.evtIrq.map m, eccTime := s.eccTime.map m, logTime := m s.logTime, rq := { s.rq with time := m s.rq.time }
    rings := s.rings.map (fun (g, x) => (g, { x with lastStray := x.lastStray.map m }))
    streams := s.streams.map (fun (i, x) =>
      (i, { x with
        ints := x.ints.map (fun (d, t) => (d, m t)), lastIrq := x.lastIrq.map m, lastGap := x.lastGap.map m
        waiting := x.waiting.map (fun r => { r with ready := m r.ready }), reds := x.reds.map (fun (n, r) => (n, r.moved d)) }))
    trigs := s.trigs.map (fun (k, x) => (k, { x with holdTo := x.holdTo.map m }))
    chans := s.chans.map (fun (c, x) => (c, { x with lastPass := x.lastPass.map m }))
    tdcs := s.tdcs.map (fun (n, x) => (n, { x with
        out := x.out.map (moved64 d), inter := x.inter.map (fun t => t.map (moved64 d))
        rise := x.rise.map (Kept.moved d), fall := x.fall.map (Kept.moved d) }))
    units := s.units.map (fun (c, u) => (c, u.moved d))
    dies := s.dies.map (fun (d, x) => (d, { x with asks := x.asks.map (fun (t, w) => (m t, w)), pass := x.pass.map (fun p => { p with start := m p.start }) }))
    cal := { s.cal with since := s.cal.since.map m }, blanks := s.blanks.map (fun (i, t) => (i, m t))
    whistles := { s.whistles with times := s.whistles.times.map m, last := s.whistles.last.map (fun (o, x) => (o, x.map (fun (w, t) => (w, m t)))) }
    nvm := s.nvm.map (fun j => { j with since := m j.since })
    queues := s.queues.map (fun (q, x) => (q, { x with waits := x.waits.map (fun (i, t) => (i, m t)) }))
    ports := s.ports.map (fun (p, x) =>
      (p, { x with
        unacked := x.unacked.map (fun u => { u with first := m u.first, last := m u.last })
        tags := x.tags.map (fun t => { t with time := m t.time }), retired := x.retired.map (fun (t, u) => (t, m u)) })) }

/-- The step of the count at the end of ACQUIRING (R71). One that carries it across the wrap leaves the epoch and raises no
TIME_WRAP (DESIGN CHOICE, notes/assumptions/7.md). -/
def State.timeStep (s : State) (v : Int) : State :=
  let t := s.time.toNat
  let t' := moved (-v) t
  let s := (((s.moveTimers (-v)).withTime (BitVec.ofNat 64 t')).withSync { s.sync with thetas := [] }).withSlew 0
  let s := s.event 1 5 t (t / 2 ^ 32) t' (t' / 2 ^ 32)
  ((s.put CLK_SYNC_STATUS.STEPPED 1).put CLK_SYNC_STATUS.STATE 2).put CLK_SYNC_STATUS.EXCH 0

/-- The state machine of R71 after an exchange, with the filtered offset; no step is made while an act executes. -/
def State.syncAdvance (s : State) (v : Int) : State :=
  match s.syncState with
  | 1 => if 16 ≤ s.sync.thetas.length ∧ s.anyExecuting = false then s.timeStep v else s
  | 2 =>
    if 131072 * (s.sync.thetas.length : Int) < 5 * |s.sync.thetas.sum| then
      ((s.withSlew 0).put CLK_SYNC_STATUS.STATE 3).event 1 6
    else s.withSlew (slewOf v)
  | 3 => if s.anyExecuting then s else s.acquire
  | _ => s

/-- SYNC_RSP (R68, R71): the reply to the request that is out, which arrives at t4; t3 = t2 + TURN. -/
def execSyncRsp (xch : BitVec 8) (turn : BitVec 24) (t2 t4 : BitVec 64) (s : State) : Res :=
  match s.sync.t1 with
  | none => .next s
  | some t1 =>
    let s := s.at_ t4.toNat
    if s.portActive 0 ∧ xch.toNat = s.sync.xch ∧ 0 ≤ since 64 t4.toNat t1 then
      let rt : Int := since 64 t4.toNat t1 - turn.toNat
      let a := signed 16 (s.fld (LNK_DELAY_ASYM.CABLE 0)) + signed 16 (s.fld (LNK_DELAY_ASYM.PHY 0))
      let theta2 : Int := since 64 t1 t2.toNat + since 64 t4.toNat (t2.toNat + turn.toNat) + a
      let s := s.put (LNK_DELAY.RT 0) (twos 24 rt)
      let s := s.withSync { s.sync with t1 := none, thetas := lastN 16 (s.sync.thetas ++ [theta2]) }
      let s := s.bump CLK_SYNC_STATUS.EXCH
      let v := s.filtered
      .next ((s.setReg CLK_SYNC_OFFSET.addr (BitVec.ofNat 32 (twos 32 v))).syncAdvance v)
    else .next s

end Sys2Proof.Machine
end

