-- ==== Sys2Proof/Machine/Acq.lean ====
section
/-! DEFINITION. The commands of triggers, reductions and streams (13) and of tile pushes (10, R191, R192): one meaning per
row. -/

namespace Sys2Proof.Machine

/-- A write of ACQ_TRIG_CTRL: the fields first; DISARM takes precedence (Table 13-5, R352). -/
def State.writeTrigCtrl (s : State) (k : Nat) (v : Word) : State :=
  let s := s.store (ACQ_TRIG_CTRL.addr k) v
  if wbit v 30 then s.trigDisarm k else if wbit v 31 then s.trigArm k else s

/-- TRIG_ARM (R237). -/
def execTrigArm (k : Trig) (v : Word) (s : State) : Res :=
  .next (s.hostWrite (ACQ_TRIG_CTRL.addr k) v (fun s => s.writeTrigCtrl k v))

/-- TRIG_DISARM (R237). -/
def execTrigDisarm (k : Trig) (v : Word) (s : State) : Res :=
  .next (s.hostWrite (ACQ_TRIG_CTRL.addr k) v (fun s => s.writeTrigCtrl k v))

/-- TRIG_STAGE_TIMEOUT (R236). -/
def execTrigStageTimeout (k : Trig) (s : State) : Res :=
  let j := s.fld (ACQ_TRIG_STATUS.STAGE k)
  let lim := s.fld (ACQ_TRIG_TLIM.TLIM k j)
  if s.flag (ACQ_TRIG_STATUS.ARMED k) ∧ j ≠ 0 ∧ lim ≠ 0 then
    let s := s.at_ ((s.trig k).done + 65536 * lim)
    .next ((s.trigReset k).put (ACQ_TRIG_TIMEOUTS.VALUE k) (satN 32 (s.fld (ACQ_TRIG_TIMEOUTS.VALUE k) + 1)))
  else .next s

/-- TRIG_HOLDOFF_END (R237): the unit has been in stage 0 since it fired; whether an entry lies inside the hold-off is judged
by the time of its sample. -/
def execTrigHoldoffEnd (k : Trig) (s : State) : Res :=
  match (s.trig k).holdTo with
  | none => .next s
  | some t => .next (s.at_ t)

/-- Whether a write of ACQ_STREAM_CTRL changes another field than EN. -/
def State.streamCtrlChanges (s : State) (i : Nat) (v : Word) : Bool :=
  decide ((s.reg (ACQ_STREAM_CTRL.addr i)).toNat &&& 0x3F0F10F0 ≠ v.toNat &&& 0x3F0F10F0)

/-- A write of ACQ_STREAM_CTRL (R250, R251). -/
def State.writeStreamCtrl (s : State) (i : Nat) (v : Word) : State :=
  if s.streamOn i then
    let s := if s.streamCtrlChanges i v then s.put (ACQ_STREAM_STATUS.CFG_REFUSED i) 1 else s
    if wbit v 31 then s else State.streamDisable i s
  else
    let s := (s.store (ACQ_STREAM_CTRL.addr i) v).put (ACQ_STREAM_CTRL.EN i) 0
    if wbit v 31 then s.streamEnable i else s

/-- STREAM_ENABLE (R250). -/
def execStreamEnable (i : Stream) (v : Word) (s : State) : Res :=
  .next (s.hostWrite (ACQ_STREAM_CTRL.addr i) v (fun s => s.writeStreamCtrl i v))

/-- STREAM_DISABLE (R250). -/
def execStreamDisable (i : Stream) (v : Word) (s : State) : Res :=
  .next (s.hostWrite (ACQ_STREAM_CTRL.addr i) v (fun s => s.writeStreamCtrl i v))

/-- INTEG_END (R242): the interval of die d in a HIST, STATS or WCOUNT stream ends and the next one follows. -/
def execIntegEnd (i : Stream) (d : Die) (s : State) : Res :=
  let kind := s.fld (ACQ_STREAM_CTRL.KIND i)
  if s.streamOn i ∧ 2 ≤ kind ∧ kind ≤ 4 then
    let t0 := Tab.get (fun _ => 0) (s.stream i).ints d
    let t1 := t0 + usFines * s.fld (ACQ_STREAM_INTEG.INTEG i)
    let s := s.at_ t1
    let s := s.setStream i { s.stream i with ints := Tab.set (fun _ => 0) (s.stream i).ints d t1 }
    .next (s.sendInterval i d t0 t1)
  else .next s

/-- RECORD_WINDOW_END (R240, R241). -/
def execRecordWindowEnd (i : Stream) (s : State) : Res :=
  match (s.stream i).win with
  | none => .next s
  | some (a, _) => .next ((s.at_ ((s.windowOf i a).2 / 64)).closeWindow i)

/-- The open STAMPS record that was begun first. -/
def oldestStamps : Tab Red → Option (Nat × Nat)
  | [] => none
  | (n, r) :: rs =>
    match oldestStamps rs with
    | none => if r.ents = [] then none else some (n, r.t0)
    | some (m, t) => if r.ents ≠ [] ∧ r.t0 ≤ t then some (n, r.t0) else some (m, t)

/-- STAMPS_CLOSE (R246): 10 µs after its first entry a STAMPS record is closed. -/
def execStampsClose (i : Stream) (s : State) : Res :=
  if s.streamOn i ∧ s.fld (ACQ_STREAM_CTRL.KIND i) = 5 then
    match oldestStamps (s.stream i).reds with
    | none => .next s
    | some (n, t) => .next ((s.at_ (t + 10 * usFines)).closeStamps i n)
  else .next s

/-- STREAM_RECORD (R247, R248). -/
def execStreamRecord (i : Stream) (s : State) : Res :=
  match nextReady (s.stream i).waiting with
  | none => .next s
  | some r =>
    let s := s.at_ r.ready
    let s := s.setStream i { s.stream i with waiting := (s.stream i).waiting.erase r }
    .next (s.placeOrLose i r)

/-- STREAM_COPY (R249). -/
def execStreamCopy (r : StreamRead) (s : State) : Res := .next (s.streamCopy r.i r.ecc)

/-- A write of FAIL_TILE_CFG: the fields first, then PUSH (R192, R352). -/
def State.writeTileCfg (s : State) (g : Nat) (v : Word) : State :=
  let s := s.store (FAIL_TILE_CFG.addr g) v
  if wbit v 31 then s.tilePush g false else s

/-- FAIL_TILE_PUSH (R192). -/
def execFailTilePush (g : Ring) (v : Word) (s : State) : Res :=
  .next (s.hostWrite (FAIL_TILE_CFG.addr g) v (fun s => s.writeTileCfg g v))

/-- TILE_PUSH_PERIOD (R192): the timer runs while the ring's act executes and PERIOD is not 0. -/
def execTilePushPeriod (g : Ring) (s : State) : Res :=
  if s.ringExecuting g ∧ s.fld (FAIL_TILE_CFG.PERIOD g) ≠ 0 then .next (s.tilePush g false) else .next s

/-- TILE_PUSH_END (R192). -/
def execTilePushEnd (g : Ring) (s : State) : Res := .next (s.tilePushEnd g)

/-- The tiles of a ring that are not cleared set to zeros and marked cleared, in the background (R191). Reserved widths make no
bitmap (R190); one that a host error places is free (R197, R301). -/
def State.zeroTiles (s : State) (g : Nat) : State :=
  let n := max 1 (2 ^ s.mapBits g / 4096)
  if !s.mapWidthsOk g then s
  else if s.areaBad g 2 (s.mapArea g) then s.freeArea (s.mapArea g)
  else State.each (fun t s =>
    if s.dramBit (s.clearedBase g) t then s
    else ((s.withDram (Tab.clearRange s.dram (s.mapBase g + 512 * t) 512))).setDramBit (s.clearedBase g) t true)
    (List.range n) s

/-- TILE_CLEAR_DONE (R191). -/
def execTileClearDone (g : Ring) (s : State) : Res :=
  if s.inService ∧ s.flag (FAIL_TILE_STATUS.CLEARING g) = true then .next ((s.zeroTiles g).put (FAIL_TILE_STATUS.CLEARING g) 0) else .next s

end Sys2Proof.Machine
end

