-- ==== Sys2Proof/Machine/Acts.lean ====
section
/-! DEFINITION. Starting and stopping an act (08, R146-R154): one meaning per row. -/

namespace Sys2Proof.Machine

/-! ## SEQ_CTRL (Table 8-6) -/

/-- A write of SEQ_CTRL: the fields first; of ABORT, STOP, START and ARM only the first in that order acts. -/
def State.writeSeqCtrl (s : State) (n : Nat) (v : Word) : State :=
  let s := s.store (SEQ_CTRL.addr n) v
  if wbit v 2 then s.abortAct 0x0D n
  else if wbit v 1 then s.gracefulStop 0x02 n
  else if wbit v 0 then s.startAct {} n
  else if wbit v 3 then s.startAct { arm := true } n
  else s

/-- The meaning of the four rows that write SEQ_CTRL. -/
def State.seqCtrl (s : State) (n : Nat) (v : Word) : State := s.hostWrite (SEQ_CTRL.addr n) v (fun s => s.writeSeqCtrl n v)

/-- SEQ_START (R146, R149). -/
def execSeqStart (n : Act) (v : Word) (s : State) : Res := .next (s.seqCtrl n v)

/-- SEQ_ARM (R147, R149). -/
def execSeqArm (n : Act) (v : Word) (s : State) : Res := .next (s.seqCtrl n v)

/-- SEQ_STOP (R150). -/
def execSeqStop (n : Act) (v : Word) (s : State) : Res := .next (s.seqCtrl n v)

/-- SEQ_ABORT (R150). -/
def execSeqAbort (n : Act) (v : Word) (s : State) : Res := .next (s.seqCtrl n v)

/-! ## The start checks (R146, Table 8-3) -/

/-- Whether a ring has a member and lies in the act whole (R136). -/
def State.ringWhole (s : State) (n g : Nat) : Bool :=
  decide (s.ringChans g ≠ []) && (s.ringChans g).all (fun c => decide (s.actOfChan c = some n))

/-- The refusal code of the first check that fails; 0 where all pass. -/
def State.startCheck (s : State) (n : Nat) : Nat :=
  let timedStart : Bool := match (s.act n).armedBy with | some r => r.timed | none => false
  let ready := s.swapReady n (1 - s.execHalf n)
  if s.mode ≠ .idle ∧ s.mode ≠ .run then 1
  else if timedStart ∧ s.flag SYS_STATUS.ORPHANED then 2
  else if s.flag CLK_STATUS.ROOT_BUSY then 3
  else if s.fld (SEQ_CB_MASK.MASK n) = 0 then 4
  else if ready = false then 5
  else if (bitList (s.ringMask n) 64 0).all (s.ringWhole n) = false then 6
  else if s.symBudgetOk n = false then 7
  else if s.timed n ∧ (s.timingCheck n).isSome then 8
  else 0

/-- TMG_CHECK after a timed start check (Table 7-9). -/
def State.timingReport (s : State) (n : Nat) (f : TimingFail) : State :=
  (((((s.put (TMG_CHECK.FAIL n) 1).put (TMG_CHECK.RULE n) f.rule).put (TMG_CHECK.TSET_A n) f.a).put (TMG_CHECK.TSET_B n) f.b)).put
    (TMG_CHECK.CHANNEL n) f.chan

/-- TMG_CHECK of a start that passes. -/
def State.timingClear (s : State) (n : Nat) : State :=
  let s := (s.put (TMG_CHECK.FAIL n) 0).put (TMG_CHECK.RULE n) 0
  ((s.put (TMG_CHECK.TSET_A n) 0).put (TMG_CHECK.TSET_B n) 0).put (TMG_CHECK.CHANNEL n) 0

/-- What a passed check clears of a channel (R104, R122, R160, R182). -/
def State.startChan (c : Nat) (s : State) : State :=
  (((s.put (PIN_STATUS.DCHK_CNT c) 0).put (PIN_STATUS.DCHK_DIS c) 0).setPair (PIN_FAILCNT_LO.addr c) 0).setChan c
    { s.chan c with dchkSeen := false, symSeen := false, preRun := 0, bursts := [], codes := [] }

/-- The reset of the act when its checks pass (R147, R134, R153, R152, R210, R194, R255); what has been benched since the start
was accepted stays benched (DEDUCED, notes/assumptions/46.md). Reserved codes of a channel's
tracking are a host error of the act. -/
def State.startReset (s : State) (n : Nat) : State :=
  let s := s.setPair (SEQ_CYCLE_LO.addr n) 0
  let s := (s.put (SEQ_STOP_POLICY.RUNOUT_MIN n) (satN 16 (s.latVectors n 16)))
  let rings := BitVec.ofNat 64 (s.ringMask n)
  let x := s.fld (APG_X.VALUE n)
  let y := s.fld (APG_Y.VALUE n)
  let z := s.fld (APG_Z.VALUE n)
  let d := s.pair (APG_DATA_LO.addr n)
  let a := s.act n
  let s := s.setAct n { a with
    checked := true, working := rings, loaded := rings, benchFail := 0, failSeen := false, ringSeen := 0
    matchTo := false, waitTo := false, calls := [], loops := [], x := x, y := y, z := z, data := d, live := 31
    x0 := x, y0 := y, z0 := z, data0 := d, cx := false, cy := false, cz := false, cue := none
    prog := .none, runout := max a.runout (s.latVectors n 16), latency := s.latVectors n 0, line := [], atPins := 0
    condT := none, lastVec := none }
  let s := State.each (fun d s => s.setDie d { s.die d with fwd := [], pins := [] }) (s.actBlocks n) s
  let s := State.each State.startChan (s.actChans n) s
  let s := State.each (fun g s => if s.ringAct g = some n then (s.clearRing g).rqStart g else s) (List.range 64) s
  let s := State.each (fun g s => s.put (FAIL_STATUS.BENCHED g) 1) (bitList a.bench.toNat 64 0) s
  let s := ((s.timingClear n).trkConfig n).switchBanks (s.actChans n)
  if !s.timed n ∧ (s.actChans n).any s.trkReserved then s.disturbAct n else s

/-- START_CHECKS (R146, R147): a refusal, or the reset and the start of the prefetch fill. A reserved TMG_MODE.K is a host
error of the act (Table 7-8). -/
def execStartChecks (n : Act) (s : State) : Res :=
  if s.actState n = 1 ∧ (s.act n).checked = false then
    match s.startCheck n with
    | 0 =>
      let s := (s.startReset n).pfResume n
      .next (if 10 < s.fld (TMG_MODE.K n) ∧ s.timed n = false then s.disturbAct n else s)
    | 8 => .next (((s.timingCheck n).elim s (s.timingReport n)).refuseStart n 8)
    | code => .next (s.refuseStart n code)
  else .next s

/-- Whether PARK_N or SYS_PARK holds an act (R285). -/
def State.parkHeld (s : State) (n : Nat) : Bool := !s.pins.parkN || bitOf (s.fld SYS_PARK.ACTS) n

/-- A start that an ARMED act now waits for or that releases it (R147-R149). -/
def State.armedGo (s : State) (n : Nat) (r : StartReq) : State :=
  if r.arm then s
  else if r.timed then
    if after s.time.toNat r.t then s.lateStart n
    else s.setAct n { s.act n with armedBy := some r, held := none }
  else s.release n none

/-- ACT_ARMED (R147-R149): the prefetch fill is complete. Banks that have become eligible since the start checks switch
before the act leaves ARMING (R255). -/
def execActArmed (n : Act) (s : State) : Res :=
  let a := s.act n
  if s.actState n = 1 ∧ a.checked ∧ s.pfFull n then
    let s := (s.switchBanks (s.actChans n)).setActState n 2
    if s.parkHeld n then .next (s.stopEarly n 0x0F)
    else
      let s := s.setAct n { s.act n with held := none }
      match a.held, a.armedBy with
      | some r, _ => .next (s.armedGo n r)
      | none, some r => .next (s.armedGo n r)
      | none, none => .next s
  else .next s

/-- The START(t) that an act which is ARMING or ARMED waits for. -/
def ActSt.timedStart (a : ActSt) : Option Nat :=
  match a.held, a.armedBy with
  | some r, _ => if r.timed then some r.t else none
  | none, some r => if r.timed then some r.t else none
  | none, none => none

/-- START_TIME (R148): the cycle that contains t. -/
def execStartTime (n : Act) (s : State) : Res :=
  match (s.act n).timedStart with
  | none => .next s
  | some t =>
    if s.actState n = 2 ∧ after s.time.toNat t = false then .next ((s.at_ t).release n (some t))
    else if s.actState n = 1 ∨ s.actState n = 2 then .next ((s.at_ t).lateStart n)
    else .next s

/-! ## Stopping -/

/-- Whether L is fixed and every vector up to it has been issued. -/
def State.lIssued (s : State) (n : Nat) : Bool :=
  match (s.act n).stop with
  | some (c, _) => decide (c ≤ s.issued n)
  | none => false

/-- END_OF_L (R150, R133): the count has come to `t`. Where that is the end of L at the pins, the park line is asserted from
here on. -/
def execEndOfL (n : Act) (t : BitVec 64) (s : State) : Res :=
  if s.actState n = 4 ∧ s.lIssued n ∧ (s.act n).endL = none ∧ t = BitVec.ofNat 64 (s.endNow n) then
    .next ((s.at_ (s.endNow n)).setAct n { s.act n with endL := some (s.endNow n) })
  else .next s

/-- ACT_STOPPED (R152): every result up to L has passed the fail processor. -/
def execActStopped (n : Act) (s : State) : Res :=
  let a := s.act n
  match a.endL, a.stop with
  | some t, some (c, reason) =>
    if s.actState n = 4 ∧ s.lIssued n ∧ a.line = [] then
      .next ((((s.at_ t).actStop n t c reason).syncAgain).acceptQueued n)
    else .next s
  | _, _ => .next s

end Sys2Proof.Machine
end

