-- ==== Sys2Proof/Machine/Tdc.lean ====
section
/-! DEFINITION. The commands of edge measurement (12) and of strobe tracking (10, R194-R196): one meaning per row. -/

namespace Sys2Proof.Machine

/-- Whether the comparators serve acquisition: IDLE and RUN (R91: not on CALBUS; R39). -/
def State.acquiring (s : State) : Bool :=
  match s.mode with
  | .idle | .run => true
  | _ => false

/-- A transition of a TDC that counts given to every consumer: streams, units, triggers; `d` is the TDC before it. -/
def State.consumers (s : State) (c : Nat) (d : TdcSt) (low rise : Bool) (idx : Nat) (stamp : Option Int) (t : Int) : State :=
  let s := State.each (fun i s => (s.reduce i c low rise idx stamp t).windowSee i c low rise idx stamp t) (List.range 16) s
  (s.unitsSee (tdcNum c low) d rise stamp t).trigsSee c low rise stamp t

/-- COMPARATOR_TRANSITION (R216-R219, R101): `t` is the aligned coarse time in 1/64 fine, `code` the interpolator's bin. -/
def execComparatorTransition (c : Chan) (low rise : Bool) (t : BitVec 70) (code : BitVec 9) (s : State) : Res :=
  if !s.acquiring then .next s
  else
    let n := tdcNum c low
    let d := s.tdc n
    let j := d.cnt % 4
    let arr : Nat := (t.toNat + s.finePart ((s.chan c).active.tab low j code.toNat)) % 2 ^ 70
    let hidden : Bool := match d.out with | some o => decide (elapsed 70 arr o < s.holdoff c low) | none => false
    if hidden then .next s
    else
      let s := s.at_ (arr / 64)
      let s := s.setTdc n { d with out := some arr }
      let s := s.setChan c ((s.chan c).output low rise)
      let at_ : Int := (arr : Int) - s.cmpK64 c low - (s.chan c).active.iofs.getD (4 * b2n low + j) 0
      let s := s.strobeSee c (at_ % 2 ^ 70).toNat
      if s.tdcEnabled c low = true ∧ s.tdcHeld c = false then
        let pr := s.stamp c low rise arr
        .next (pr.1.consumers c d low rise pr.2.1 pr.2.2 at_)
      else .next (s.trigsSee c low rise none at_)

/-- BURST_TIMEOUT (R196), at the end of the beat's tracking range at the strobe's comparator. -/
def execBurstTimeout (c : Chan) (s : State) : Res :=
  match s.actOfChan c with
  | none => .next s
  | some n =>
    if !s.isStrobe c then .next s
    else
      match timeoutBurst (s.fld (PIN_TRK_CFG.BURST_LEN c)) (s.chan c).bursts with
      | none => .next s
      | some (b, j, bs) =>
        let e : Int := (b.e0 + s.ui64 n j + s.ui64 n 1 / 2 : Nat) + s.cmpK64 c (s.flag (PIN_TRK_CFG.PRE_LVL c))
        .next ((s.at_ (e / 64).toNat).setChan c { s.chan c with bursts := bs })

/-- A write of PIN_TDC_MEAS: the fields first, of which CONT = 0 ends a repetition (R228); of ABORT and START only ABORT acts
(Table 12-5, R352). -/
def State.writeTdcMeas (s : State) (c : Nat) (v : Word) : State :=
  let s := s.store (PIN_TDC_MEAS.addr c) v
  let s := if wbit v 29 then s else s.setMu c { s.mu c with cont := false }
  if wbit v 30 then s.tdcAbort c else if wbit v 31 then s.tdcStart c else s

/-- TDC_START (R225, R233). -/
def execTdcStart (c : Chan) (v : Word) (s : State) : Res :=
  .next (s.hostWrite (PIN_TDC_MEAS.addr c) v (fun s => s.writeTdcMeas c v))

/-- TDC_ABORT (R233). -/
def execTdcAbort (c : Chan) (v : Word) (s : State) : Res :=
  .next (s.hostWrite (PIN_TDC_MEAS.addr c) v (fun s => s.writeTdcMeas c v))

/-- A write of PIN_TDC_CFG (Table 12-4). -/
def State.writeTdcCfg (s : State) (c : Nat) (v : Word) : State :=
  let s := s.store (PIN_TDC_CFG.addr c) v
  if wbit v 15 then s.put (PIN_TDC_CFG.MISSED c) 0 else s

/-- MISS_CLR (R218). -/
def execMissClr (c : Chan) (v : Word) (s : State) : Res :=
  .next (s.hostWrite (PIN_TDC_CFG.addr c) v (fun s => s.writeTdcCfg c v))

/-- TDC_ARM_TIME (R225). -/
def execTdcArmTime (c : Chan) (s : State) : Res :=
  if (s.mu c).phase = .armTime then .next (s.unitElapse c) else .next s

/-- TDC_TIMEOUT (R227): a start that does not come ends the repetition; a stop that does not come is not valid. -/
def execTdcTimeout (c : Chan) (s : State) : Res :=
  if (s.mu c).kind ≤ 2 ∧ ((s.mu c).phase = .start ∨ (s.mu c).phase = .stops) then .next (s.unitElapse c) else .next s

/-- SKEW_WINDOW (R226). -/
def execSkewWindow (c : Chan) (s : State) : Res :=
  if (s.mu c).kind = 3 ∧ (s.mu c).phase = .stops then .next (s.unitElapse c) else .next s

/-- FREQ_GATE (R230, R231): the gate closes; after the last repetition the results follow. -/
def execFreqGate (c : Chan) (s : State) : Res :=
  let s := if (s.mu c).phase = .gate then s.unitElapse c else s
  .next (if (s.mu c).kind = 4 then s.unitResult c else s)

/-- TDC_RESULT (R228, R229). -/
def execTdcResult (c : Chan) (s : State) : Res := .next (s.unitResult c)

end Sys2Proof.Machine
end

