-- ==== Sys2Proof/Machine/Cal.lean ====
section
/-! DEFINITION. The commands of calibration (14): one meaning per row. What a pass or a run measures comes with the
command; the checks, the banks and the figures are the module's. -/

namespace Sys2Proof.Machine

/-- 1 s in fines. -/
def secFines : Nat := 6553600000000

/-- LIVE_PASS_START (R262-R264). -/
def execLivePassStart (d : Die) (s : State) : Res :=
  if s.acquiring ∧ s.flag CAL_CTRL.LIVE_EN ∧ (s.die d).pass = none then
    match s.passNext d with
    | some c => .next (s.passStart d c)
    | none => .next s
  else .next s

/-- Whether the hits of a code-density run are whole: eight histograms of 512 bins, each with at least 2^20 hits (R220). -/
def hitsWhole (hits : List (List Nat)) : Bool :=
  decide (hits.length = 8) && hits.all (fun h => decide (h.length = 512) && decide (2 ^ 20 ≤ h.sum))

/-- CODE_DENSITY_DONE (R220, R221): the bin tables that the pass stages; the TDCs are back at their comparators. -/
def execCodeDensityDone (d : Die) (hits : List (List Nat)) (s : State) : Res :=
  match (s.die d).pass with
  | none => .next s
  | some p =>
    if bitOf p.groups 0 ∧ p.tables = none ∧ hitsWhole hits then
      let p := { p with tables := some (hits, hits.map (fun h => binTable h.sum 0 h)) }
      .next (State.passIdle d (s.setPass d p))
    else .next s

/-- LIVE_PASS_END (R254, R259-R261, R268-R271): its TDC group needs a finished code-density run, its other groups whole
statistics. -/
def execLivePassEnd (d : Die) (m : ChanMeas) (s : State) : Res :=
  match (s.die d).pass with
  | none => .next s
  | some p =>
    if (bitOf p.groups 0 ∧ p.tables = none) ∨ (List.range 4).any (fun g => bitOf p.groups g && !s.groupWhole p.chan g m) = true then .next s
    else .next (s.passEnd d p m)

/-- CAL_STARVED (R265): a pass that lasts longer than CAL_SCHED.TIMEOUT seconds is abandoned; with the reserved code 0 it may
be at any time (R9). -/
def execCalStarved (d : Die) (s : State) : Res :=
  match (s.die d).pass with
  | none => .next s
  | some p =>
    let t := s.fld CAL_SCHED.TIMEOUT
    if t = 0 ∧ s.free.toNat % 2 = 0 then .next s.takeFree
    else
      let s := (if t = 0 then s.takeFree else s.at_ (p.start + t * secFines)).passOver d p.chan
      .next ((s.bump CAL_REJECTS.STARVED).event 10 3 p.chan)

/-- CAL_APPLY_WAIT (R257): once until PENDING is 0 again. -/
def execCalApplyWait (s : State) : Res :=
  match s.cal.since with
  | none => .next s
  | some t =>
    let w := s.fld CAL_CTRL.PEND_WARN
    if s.cal.warned ∨ w = 0 then .next s
    else
      let s := (s.at_ (t + w * msFines)).event 10 5
      .next (s.withCal { s.cal with warned := true })

/-- Whether the statistics of a channel are whole for a full run (R259-R261): 16 conversions at each point of each DAC. -/
def State.runStats (s : State) (f : FullMeas) : Bool :=
  s.groupWhole f.c 1 f.m && s.groupWhole f.c 2 f.m &&
    (List.range 7).all (fun i => decide ((f.points.getD i ([], [])).1.length = 16 ∧ (f.points.getD i ([], [])).2.length = 16))

/-- Whether what a full run brings is whole: every die, every channel of the run in order, hits of every interpolator. -/
def State.runWhole (s : State) (dies : List DieMeas) (ms : List FullMeas) : Bool :=
  decide (dies.length = 16) && decide (ms.map (fun f => f.c.val) = s.fullChans) && ms.all (fun f => hitsWhole f.hits && s.runStats f)

/-- CAL_STATUS.HELD: whether some channel has a held group. -/
def State.updateHeld (s : State) : State :=
  s.putB CAL_STATUS.HELD ((numsTo 1024).any (fun c => decide (s.fld (PIN_QUALITY_STAT.HELD c) ≠ 0)))

/-- The end of a full run: its results, CAL_DONE, and the return to IDLE, where the banks switch (R266). -/
def State.fullEnd (s : State) (dies : List DieMeas) (ms : List FullMeas) : State :=
  let s := s.withCal { s.cal with dies := calDies dies }
  let pr := State.fullAll ms s 0
  let s := pr.1
  let n := pr.2
  let s := s.updateHeld
  let r := if n = 0 then 1 else 2
  let s := ((s.put CAL_STATUS.FULL_BUSY 0).put CAL_STATUS.FULL_RESULT r).event 10 4 r n
  let s := s.withCal { s.cal with full := some s.time.toNat, fullBoot := true, root := some (s.fld CLK_ROOT_CFG.ROOT_MHZ) }
  s.leaveCal

/-- FULL_RUN_DONE (R266, R272): with CAL_CTRL.COMMIT = 1 the module issues CAL_COMMIT as the host would. -/
def execFullRunDone (dies : List DieMeas) (ms : List FullMeas) (s : State) : Res :=
  if s.mode = .cal ∧ s.flag CAL_STATUS.FULL_BUSY = true ∧ s.runWhole dies ms = true then
    let s := s.fullEnd dies ms
    .next (if s.flag CAL_CTRL.COMMIT then s.writeNvmCmd 0xA5000006 else s)
  else .next s

end Sys2Proof.Machine
end

