-- ==== Sys2Proof/Machine/Channel.lean ====
section
/-! DEFINITION. The commands of the PPMU, the converters and the readbacks (06, R105-R112; 15, R284): one meaning per row.
The conversions come with the command. -/

namespace Sys2Proof.Machine

/-! ## PPMU (R105-R110) -/

/-- Whether a START with the stored fields is refused (R105, R110). -/
def State.ppmuRefused (s : State) (c : Nat) : Bool :=
  let sel := s.fld (PIN_PPMU_CFG.MEAS_SEL c)
  let set := s.fld (PIN_PPMU_CFG.RB_SET c)
  let level := decide (sel = 2 ∨ sel = 3)
  let park := (s.chan c).park
  decide (s.mode = .cal ∨ s.mode = .safe) || s.flag (PIN_CFG.UNUSED c) ||
    (level && s.chanExecuting c && !(s.flag (PIN_CFG.LVL_STATIC c) && decide (set = 0))) ||
    (level && decide (set ≠ 0) && decide (park = 2 ∨ park = 3))

/-- SETTLE of a channel's PPMU in fines (Table 6-15). -/
def State.settleFines (s : State) (c : Nat) : Nat := s.fld (PIN_PPMU_CFG.SETTLE c) * usFines

/-- A measurement begins: it asks for its die's converter once it has settled (R107, R109). -/
def State.ppmuAsk (s : State) (c : Nat) : State := s.ask (c / 64) (s.time.toNat + s.settleFines c) (c % 64)

/-- A START that is taken: under live calibration it begins when the channel is released (R108). -/
def State.ppmuStart (s : State) (c : Nat) : State :=
  let s := s.put (PIN_PPMU_MEAS.DONE c) 0
  if s.flag (PIN_STATUS.STALE c) then (s.unask (c / 64) (c % 64)).setChan c { s.chan c with meas := true }
  else (s.setChan c { s.chan c with meas := false }).ppmuAsk c

/-- A write of PIN_PPMU_CFG: the fields, CONNECT unless a forced park or a disable holds the channel, then START
(R105, R107, R352). -/
def State.writePpmuCfg (s : State) (c : Nat) (v : Word) : State :=
  let held := s.forcedPark c || s.disabled c
  let s := s.store (PIN_PPMU_CFG.addr c) v
  let s := if held then s.put (PIN_PPMU_CFG.CONNECT c) 0 else s
  if wbit v 31 then
    if 9 ≤ s.fld (PIN_PPMU_CFG.MEAS_SEL c) then s.disturbChan c
    else if s.ppmuRefused c then s.put (PIN_PPMU_MEAS.BLOCKED c) 1
    else s.ppmuStart c
  else s

/-- PPMU_START (R107). -/
def execPpmuStart (c : Chan) (v : Word) (s : State) : Res :=
  .next (s.hostWrite (PIN_PPMU_CFG.addr c) v (fun s => s.writePpmuCfg c v))

/-- 1.1 r, as I / r x 2^21 (R106, R107). -/
def clampI : Int := 2306867

/-- A current held within 1.1 r, where the clamp of FVMI and VALUE saturate (R106, R107). -/
def satCurrent (v : Int) : Int := if clampI < v then clampI else if v < -clampI then -clampI else v

/-- Whether a conversion stands at a clamp of the PPMU: 1.1 r in FVMI, CLAMP_LO or CLAMP_HI in FIMV (R106). -/
def State.atClamp (s : State) (c : Nat) (v : Int) : Bool :=
  if s.flag (PIN_PPMU_CFG.MODE c) then
    decide (uV v ≤ clampV (s.fld (PIN_PPMU_FORCE.CLAMP_LO c)) ∨ clampV (s.fld (PIN_PPMU_FORCE.CLAMP_HI c)) ≤ uV v)
  else decide (clampI ≤ v.natAbs)

/-- A voltage in microvolts held between CLAMP_LO and CLAMP_HI (R106): at a clamp the whole microvolt next to it on the inside
(DESIGN CHOICE, notes/assumptions/25.md). -/
def State.satVoltage (s : State) (c : Nat) (v : Int) : Int :=
  let lo := clampV (s.fld (PIN_PPMU_FORCE.CLAMP_LO c))
  let hi := clampV (s.fld (PIN_PPMU_FORCE.CLAMP_HI c))
  if hi < uV v then hi / 65536 else if uV v < lo then -(-lo / 65536) else v

/-- Whether the mean of the conversions of a current lies outside -1 to +1 (R107). -/
def overRange (vs : List Int) : Bool := decide ((2097152 : Int) * vs.length < |vs.sum|)

/-- The result of a measurement (R107, R110): `cur` is whether it is a current, `vs` its conversions, `clamped` whether a clamp
acted on the PPMU. The mean is a whole number next to the quotient (DESIGN CHOICE, notes/assumptions/25.md). -/
def State.ppmuResult (s : State) (c : Nat) (cur : Bool) (vs : List Int) (clamped : Bool) : State :=
  let dac := ChanDac.ofSel (s.fld (PIN_PPMU_CFG.MEAS_SEL c)) (s.fld (PIN_PPMU_CFG.RB_SET c))
  let pr := s.roundTo vs.sum (max 1 vs.length)
  let v := pr.1
  let s := ((pr.2.put (PIN_PPMU_MEAS.VALUE c) (twos 24 v)).put (PIN_PPMU_MEAS.DONE c) 1).putB (PIN_PPMU_MEAS.OVERRANGE c)
    (cur && overRange vs)
  let s := s.putB (PIN_PPMU_MEAS.CLAMP c) clamped
  match dac with
  | none => s
  | some d =>
    let bad := !s.dacOk c d v
    let s := s.putB (PIN_PPMU_MEAS.RB_FAIL c) bad
    if bad then s.put (PIN_STATUS.RB_FAIL c) 1 else s

/-- PPMU_DONE (R106-R110): the 2^AVG_LOG2 conversions `vs` of the request that is next at the die's converter, in microvolts or
as I / r x 2^21; `ok` is false where a clamp acted between them. -/
def execPpmuDone (c : Chan) (vs : List Int) (ok : Bool) (s : State) : Res :=
  match s.asked (c / 64) (c % 64) with
  | none => .next (s.engineTurn (c / 64))
  | some t =>
    if (s.mode = .idle ∨ s.mode = .run) ∧ vs.length = 2 ^ s.fld (PIN_PPMU_CFG.AVG_LOG2 c) then
      let ppmu := decide (s.fld (PIN_PPMU_CFG.MEAS_SEL c) = 0)
      let cur := ppmu && !s.flag (PIN_PPMU_CFG.MODE c)
      let s := ((s.engineTurn (c / 64)).at_ (t + vs.length * convFines)).unask (c / 64) (c % 64)
      let s := s.ppmuResult c cur (if cur then vs.map satCurrent else if ppmu then vs.map (s.satVoltage c) else vs) (ppmu && (!ok || vs.any (s.atClamp c)))
      .next (if s.flag (PIN_PPMU_CFG.CONT c) then s.ppmuAsk c else s)
    else .next s

/-- A DAC of a channel by number: 0-15 PIN_LVL_HI[k], 16-31 PIN_LVL_LO[k], 32 VTT, 33 THR_H, 34 THR_L, 35 and 36 the window
monitor's low and high thresholds; its MEAS_SEL code (Table 6-16) with the level set. -/
def dacSel (d : Nat) : Option (Nat × Nat) :=
  if d < 16 then some (2, d) else if d < 32 then some (3, d - 16) else if d < 37 then some (d - 28, 0) else none

/-- DAC_READBACK_SCAN (R112): what the background scan converts of a DAC, in microvolts, in converter time that neither the
calibration engine nor a host request takes; level DACs only where the channel does not execute or is static. -/
def execDacReadbackScan (c : Chan) (dac : BitVec 6) (uv : Int) (s : State) : Res :=
  match dacSel dac.toNat with
  | none => .next s
  | some (sel, set) =>
    let skip := decide (sel ≤ 3) && s.chanExecuting c && !s.flag (PIN_CFG.LVL_STATIC c)
    let ok := (ChanDac.ofSel sel set).all (fun d => s.dacOk c d uv)
    if (s.mode = .idle ∨ s.mode = .run) ∧ skip = false ∧ s.convFree (c / 64) = true ∧ ok = false then
      .next (((s.engineTurn (c / 64)).put (PIN_STATUS.RB_FAIL c) 1).pinEvent c 3 (c.val + 65536 * sel))
    else .next (s.engineTurn (c / 64))

/-! ## SENSE and SREF conversions (R109, R284) -/

/-- A write of MON_SENSE_MEAS (R284). -/
def State.writeSenseMeas (s : State) (m : Nat) (v : Word) : State :=
  let s := s.store (MON_SENSE_MEAS.addr m) v
  if wbit v 31 then
    if s.mode = .cal then s.put (MON_SENSE_MEAS.BLOCKED m) 1
    else (s.put (MON_SENSE_MEAS.DONE m) 0).ask (m / 2) s.time.toNat (64 + m % 2)
  else s

/-- SENSE_MEAS_START (R284). -/
def execSenseMeasStart (m : Fin 32) (v : Word) (s : State) : Res :=
  .next (s.hostWrite (MON_SENSE_MEAS.addr m) v (fun s => s.writeSenseMeas m v))

/-- A write of MON_SREF_STATUS (R284); in CAL a readback does not start. -/
def State.writeSrefStatus (s : State) (m : Nat) (v : Word) : State :=
  let s := s.store (MON_SREF_STATUS.addr m) v
  if wbit v 31 ∧ s.mode ≠ .cal then (s.put (MON_SREF_STATUS.RB_DONE m) 0).ask (m / 2) s.time.toNat (66 + m % 2) else s

/-- SREF_READBACK_START (R284). -/
def execSrefReadbackStart (m : Fin 32) (v : Word) (s : State) : Res :=
  .next (s.hostWrite (MON_SREF_STATUS.addr m) v (fun s => s.writeSrefStatus m v))

/-- The event of a SENSE or SREF readback outside tolerance; the manual names no channel for it, and words 4 and 5 are
free (DEDUCED, notes/assumptions/36.md). -/
def State.readbackEvent (s : State) : State :=
  let s' := s.takeFree
  s'.takeFree.event 33 3 (s.free.toNat % 2 ^ 32) (s'.free.toNat % 2 ^ 32)

/-- A readback of an SREF output compared with Table 6-7. -/
def State.srefCheck (s : State) (m : Nat) (uv : Int) : State :=
  if s.srefOk m uv then s else (s.put (MON_SREF_STATUS.RB_FAIL m) 1).readbackEvent

/-- A readback of a SENSE limit compared with Table 6-7. -/
def State.senseCheck (s : State) (m : Nat) (high : Bool) (uv : Int) : State :=
  if s.senseOk m high uv then s.put (MON_SENSE_MEAS.RB_FAIL m) 0
  else (s.put (MON_SENSE_MEAS.RB_FAIL m) 1).readbackEvent

/-- The result of a host request: an input, a SENSE limit or an SREF output; SEL = 3 is reserved, and what it converts is
free. -/
def State.convResult (s : State) (sref : Bool) (m : Nat) (v : BitVec 24) : State :=
  if sref then ((s.put (MON_SREF_STATUS.VALUE m) v.toNat).put (MON_SREF_STATUS.RB_DONE m) 1).srefCheck m (signed 24 v.toNat)
  else
    let t := (s.put (MON_SENSE_MEAS.VALUE m) v.toNat).put (MON_SENSE_MEAS.DONE m) 1
    match s.fld (MON_SENSE_MEAS.SEL m) with
    | 0 => t
    | 1 => t.senseCheck m false (signed 24 v.toNat)
    | 2 => t.senseCheck m true (signed 24 v.toNat)
    | _ => (t.takeFree.put (MON_SENSE_MEAS.VALUE m) (s.free.toNat % 2 ^ 24))

/-- CONVERSION_DONE (R109, R284): the result of the request that is next at the die's converter, in microvolts; where the
converter is free, a background readback of an SREF output or of a SENSE limit, `hi` the high one. -/
def execConversionDone (sref : Bool) (m : Fin 32) (v : BitVec 24) (hi : Bool) (s : State) : Res :=
  if s.mode ≠ .idle ∧ s.mode ≠ .run then .next s
  else
    let d := m.val / 2
    let what := (if sref then 66 else 64) + m.val % 2
    match s.asked d what with
    | some t => .next ((((s.engineTurn d).at_ (t + convFines)).unask d what).convResult sref m v)
    | none =>
      if s.convFree d = false then .next (s.engineTurn d)
      else if sref then .next ((s.engineTurn d).srefCheck m (signed 24 v.toNat))
      else .next ((s.engineTurn d).senseCheck m hi (signed 24 v.toNat))

/-! ## Re-enabling a channel (R104, R277) -/

/-- A write of PIN_STATUS: a disable that the host clears while the act executes ends at the next vector boundary
(R104, R277). -/
def State.writePinStatus (s : State) (c : Nat) (v : Word) : State :=
  let t := s.store (PIN_STATUS.addr c) v
  if s.disabled c ∧ t.disabled c = false ∧ s.chanExecuting c then t.setChan c { t.chan c with rejoin := true } else t

/-- MON_DIS_CLEAR (R277). -/
def execMonDisClear (c : Chan) (s : State) : Res := .next (s.hostWrite (PIN_STATUS.addr c) 0x80 (fun s => s.writePinStatus c 0x80))

/-- DCHK_DIS_CLEAR (R104). -/
def execDchkDisClear (c : Chan) (s : State) : Res := .next (s.hostWrite (PIN_STATUS.addr c) 0x40 (fun s => s.writePinStatus c 0x40))

end Sys2Proof.Machine
end

