-- ==== Sys2Proof/Machine/ApplyOps.lean ====
section
/-! DEFINITION. BOOT step 7 (05, R79-R81, R85; 14, R273): the records of a boot image applied, and the calibration record in
force. -/

namespace Sys2Proof.Machine

/-! ## Calibration bodies (R273, Table 14-4) -/

/-- `n` two's-complement integers of `w` bytes each. -/
def ints (w : Nat) : Nat → List Byte → List Int
  | 0, _ => []
  | n + 1, bs => signed (8 * w) (leNat (bs.take w)) :: ints w n (bs.drop w)

/-- `n` unsigned integers of `w` bytes each. -/
def nats (w : Nat) : Nat → List Byte → List Nat
  | 0, _ => []
  | n + 1, bs => leNat (bs.take w) :: nats w n (bs.drop w)

/-- The value of a record type; empty where it is missing. -/
def recOf (rs : List (Nat × List Byte)) (typ : Nat) : List Byte :=
  match rs.find? (fun r => decide (r.1 = typ)) with
  | some r => r.2
  | none => []

/-- Part `i` of a value of equal parts of `n` bytes. -/
def partOf (bs : List Byte) (n i : Nat) : List Byte := (bs.drop (n * i)).take n

/-- A DAC's gain and offset pairs from 14 integers. -/
def pairsOf : List Int → List (Int × Int)
  | a :: b :: r => (a, b) :: pairsOf r
  | _ => []

/-- The bank of a channel in a calibration body. -/
def storedBank (rs : List (Nat × List Byte)) (c : Nat) : Coef :=
  let t := partOf (recOf rs 0x8102) 32 c
  let k := ints 4 3 t
  let th := ints 4 2 (partOf (recOf rs 0x8104) 8 c)
  { drv := k.getD 0 0, cmpH := k.getD 1 0, cmpL := k.getD 2 0, iofs := ints 2 8 (t.drop 12)
    tabs := (List.range 8).map (fun j => nats 2 512 (partOf (partOf (recOf rs 0x8105) 8192 c) 1024 j))
    dac := pairsOf (ints 4 14 (partOf (recOf rs 0x8103) 56 c))
    ofsH := th.getD 0 0, ofsL := th.getD 1 0, dnlH := none, dnlL := none }

/-- The required types of a calibration body with their lengths. -/
def calTypes : List (Nat × Nat) :=
  [(0x8101, 16), (0x8102, 32768), (0x8103, 57344), (0x8104, 8192), (0x8105, 8388608), (0x8106, 256)]

/-- Whether a body holds every required type. -/
def calComplete (rs : List (Nat × List Byte)) : Bool := calTypes.all (fun t => rs.any (fun r => decide (r.1 = t.1)))

/-- Whether the values of a body have the lengths of Table 14-4. -/
def calShaped (rs : List (Nat × List Byte)) : Bool := calTypes.all (fun t => decide ((recOf rs t.1).length = t.2))

/-- Whether a TYPE is defined in a calibration body (Table 14-4). -/
def calDefined (typ : Nat) : Bool := decide (typ = 0x8000 ∨ typ = 0x0107 ∨ (0x8101 ≤ typ ∧ typ ≤ 0x8106))

/-- The index and TYPE of the first record of a calibration body that is not defined and CRITICAL (R78, R80). -/
def calCritical (rs : List (Nat × List Byte)) : Option (Nat × Nat) :=
  ((rs.zipIdx).find? (fun r => decide (0x8000 ≤ r.1.1) && !calDefined r.1.1)).map (fun r => (r.2, r.1.1))

/-- The images of CAL_QUALITY in the registers that they are images of (Table 14-4; DEDUCED, notes/assumptions/34.md). -/
def State.adoptQuality (s : State) (v : List Byte) : State :=
  if v.length = 16384 then
    State.each (fun c s => State.each (fun i s =>
      s.setReg (PIN_QUALITY_TIME.addr c + 4 * i) (BitVec.ofNat 32 (leNat ((v.drop (16 * c + 4 * i)).take 4)))) (List.range 4) s)
      (numsTo 1024) s
  else s

/-- A body's coefficients in the active banks, its die records, and what its header says of the last full run; each record that
is not defined and not CRITICAL is skipped with its event (R78, R80). -/
def State.adoptBody (s : State) (rs : List (Nat × List Byte)) : State :=
  let s := (rs.filter (fun r => decide (r.1 < 0x8000) && !calDefined r.1)).foldl (fun s _ => s.event 3 2) s
  let s := s.adoptQuality (recOf rs 0x0107)
  let s := State.each (fun c s => s.setChan c { s.chan c with active := storedBank rs c }) (numsTo 1024) s
  let h := recOf rs 0x8101
  let dies := (List.range 16).foldl (fun t d =>
    let v := partOf (recOf rs 0x8106) 16 d
    let k := ints 4 3 v
    Tab.set (fun _ => {}) t d { offset := k.getD 0 0, ramp := leNat ((v.drop 4).take 4), c := k.getD 2 0 }) ([] : Tab CalDie)
  s.withCal { s.cal with root := some (leNat (h.take 4)), full := some (leNat ((h.drop 8).take 8)), dies := dies }

/-! ## The calibration store (R83, R85) -/

/-- The body of the record at a store offset, where one is valid, with its SEQ and length. -/
def State.calRecord (s : State) (off : Nat) : Option (Nat × Nat × List (Nat × List Byte)) :=
  let a := s.calBase + off
  let h := s.flashBytes a 32
  let len := leNat ((h.drop 8).take 4)
  if h.take 4 ≠ leBytes 4 0x43585A4C ∨ crc32c (h.take 28) ≠ leNat (h.drop 28) ∨ 33554432 < off + 32 + len then none
  else
    let body := s.flashBytes (a + 32) len
    if s.tornIn a (32 + len) ∨ crc32c body ≠ leNat ((h.drop 24).take 4) then none
    else
      match bodyRecords body with
      | some rs => if calComplete rs then some (leNat ((h.drop 4).take 4), 32 + len, rs) else none
      | none => none

/-- The newest valid record among store sectors: its offset, SEQ, length and records. -/
def State.calNewest (s : State) : List Nat → Option (Nat × Nat × Nat × List (Nat × List Byte))
  | [] => none
  | i :: is =>
    let rest := s.calNewest is
    match s.calRecord (i * sectorSize) with
    | none => rest
    | some (q, len, rs) =>
      match rest with
      | some (o, q', len', rs') => if q < q' then some (o, q', len', rs') else some (i * sectorSize, q, len, rs)
      | none => some (i * sectorSize, q, len, rs)

/-- The newest valid record of the store brought into force; without one CAL_NOMINAL stays (R34, R85). The second result is
a record in it that is not defined and CRITICAL, with which BOOT fails (R78, R80; DEDUCED, notes/assumptions/34.md). A
record whose values are not as long as Table 14-4 says, of which R85 says nothing, is adopted with what is missing as 0
(DESIGN CHOICE, notes/assumptions/45.md). -/
def State.applyStore (s : State) : State × Option (Nat × Nat) :=
  match s.calNewest (numsTo 512) with
  | none => (s, none)
  | some x =>
    match calCritical x.2.2.2 with
    | some b => (s, some b)
    | none =>
      let s := ((s.adoptBody x.2.2.2).put SYS_STATUS.CAL_STORE_OK 1).put NVM_JOURNAL_SEQ.SEQ x.2.1
      (s.withCal { s.cal with newest := some (x.1, x.2.2.1, x.2.1) }, none)

/-! ## Image records (R79, R80) -/

/-- The required record types (Table 5-5), lowest first. -/
def imageTypes : List Nat := [0x8000, 0x8001, 0x8002, 0x8003, 0x8004, 0x8005, 0x8006, 0x8007, 0x8008, 0x8009]

/-- Whether a record's value can be applied (R79, R335). -/
def valueOk (typ : Nat) (v : List Byte) : Bool :=
  match typ with
  | 0x8001 => decide (8 ≤ v.length) && decide (leNat (v.take 4) + (v.length - 8) ≤ 0xF00000)
  | 0x8002 => decide (v.length = 4096)
  | 0x8003 => decide (v.length = 16) && v.all (fun b => decide (b.toNat < 16 ∨ b.toNat = 255))
  | 0x8004 => decide (v.length = 143364) && decide (leNat (v.take 2) = 0) && decide (leNat ((v.drop 2).take 2) = 1024)
  | 0x8005 => decide (v.length = 1024) && v.all (fun b => decide (b.toNat ≤ 3))
  | 0x8006 => decide (v.length = 128)
  | 0x8007 => match bodyRecords v with
    | some rs => calComplete rs && calShaped rs && (calCritical rs).isNone
    | none => false
  | 0x8008 => decide (v.length = 4608)
  | 0x8009 => decide (v.length = 68)
  | 0x8000 => decide (v.length = 0)
  | 0x0010 => decide (v.length ≤ 4096)
  | _ => decide (typ < 0x8000)

/-- Word i of a value. -/
def wordAt (v : List Byte) (i : Nat) : Word := BitVec.ofNat 32 (leNat ((v.drop (4 * i)).take 4))

/-- HK_FIRMWARE loaded into the shared pool, with its entry offset. -/
def State.applyFirmware (s : State) (v : List Byte) : State :=
  let s := ((s.poolPut (leNat (v.take 4)) (v.drop 8)).withHkOff (leNat (v.take 4))).withHkLen (v.length - 8)
  s.withHkEntry (leNat ((v.drop 4).take 4))

/-- CHANNEL_MAP: DIB pin ids, default rings, UNUSED. -/
def State.applyChannelMap (s : State) (v : List Byte) : State :=
  State.each (fun c s =>
    let w := (wordAt v c).toNat
    let s := s.setChan c { s.chan c with dib := bitsOf w 0 16 }
    let s := s.putB (PIN_CFG.UNUSED c) (bitOf w 23)
    if bitOf w 22 then
      let f := FAIL_RING_CH.MEMBERS (bitsOf w 16 6) (c / 32)
      s.put f (setBit (s.fld f) (c % 32) true)
    else s) (numsTo 1024) s

/-- ACT_MAP into SEQ_CB_MASK. -/
def State.applyActMap (s : State) (v : List Byte) : State :=
  State.each (fun n s => s.put (SEQ_CB_MASK.MASK n)
    ((List.range 16).map (fun b => if (v.getD b 0).toNat = n then 2 ^ b else 0)).sum) (List.range 16) s

/-- DAC_POWERUP: 35 register images of each channel. -/
def State.applyDacs (s : State) (v : List Byte) : State :=
  State.each (fun c s =>
    let w := fun i => wordAt (v.drop 4) (35 * c + i)
    let s := State.each (fun k s => (s.store (PIN_LVL_HI.addr c k) (w k)).store (PIN_LVL_LO.addr c k) (w (16 + k))) (List.range 16) s
    ((s.store (PIN_VTT.addr c) (w 32)).store (PIN_THR_H.addr c) (w 33)).store (PIN_THR_L.addr c) (w 34)) (numsTo 1024) s

/-- PARK_STATE of each channel. -/
def State.applyParks (s : State) (v : List Byte) : State :=
  State.each (fun c s => s.setChan c { s.chan c with park := (v.getD c 0).toNat }) (numsTo 1024) s

/-- SREF_CLEAR into the clear codes and the codes (R81). -/
def State.applySref (s : State) (v : List Byte) : State :=
  State.each (fun m s => (s.store (MON_SREF_CLRCODE.addr m) (wordAt v m)).store (MON_SREF_CODE.addr m) (wordAt v m))
    (List.range 32) s

/-- MON_POWERUP: the window monitors and the SENSE monitors. -/
def State.applyMons (s : State) (v : List Byte) : State :=
  let s := State.each (fun c s => s.store (PIN_MON_WIN.addr c) (wordAt v c)) (numsTo 1024) s
  State.each (fun m s =>
    let w := fun i => wordAt v (1024 + 4 * m + i)
    (((s.store (MON_SENSE_LO.addr m) (w 0)).store (MON_SENSE_HI.addr m) (w 1)).store (MON_SENSE_BLANK.addr m) (w 2)).store
      (MON_SENSE_ACTION.addr m) (w 3)) (List.range 32) s

/-- One port set up from its word of the LINKS record (R81). -/
def State.applyLink (v : List Byte) (p : Nat) (s : State) : State :=
  let w := (wordAt v p).toNat
  let s := (s.putB (LNK_PORT_CFG.ENABLED p) (bitOf w 0)).put (LNK_PORT_CFG.EXP_ROLE p) (bitsOf w 1 2)
  (s.put (LNK_DELAY_ASYM.CABLE p) (bitsOf w 16 16)).portEnable p

/-- LINK_EXPECT: port configuration and cable terms; enabled ports train (Table 2-2). -/
def State.applyLinks (s : State) (v : List Byte) : State := State.each (State.applyLink v) (List.range 17) s

/-- One record applied; an unknown one that is not critical is skipped (R80), INFO is journaled. -/
def State.applyRecord (s : State) (typ : Nat) (v : List Byte) : State :=
  match typ with
  | 0x8000 => s
  | 0x8001 => s.applyFirmware v
  | 0x8002 => s.applyChannelMap v
  | 0x8003 => s.applyActMap v
  | 0x8004 => s.applyDacs v
  | 0x8005 => s.applyParks v
  | 0x8006 => s.applySref v
  | 0x8007 => s.adoptBody ((bodyRecords v).getD [])
  | 0x8008 => s.applyMons v
  | 0x8009 => s.applyLinks v
  | 0x0010 =>
    s.event 3 3 (wordAt v 0).toNat (wordAt v 1).toNat (wordAt v 2).toNat (wordAt v 3).toNat
  | _ => s.event 3 2

/-- Whether a readback that follows a record of a type is within Table 6-7 (R81, R111). -/
def State.readbackOk (s : State) (typ : Nat) : Readback → Bool
  | .chan c sel set uv =>
    if (typ = 0x8004 ∧ 2 ≤ sel ∧ sel ≤ 6) ∨ (typ = 0x8008 ∧ 7 ≤ sel) then (ChanDac.ofSel sel set).all (fun d => s.dacOk c d uv)
    else true
  | .sense m high uv => decide (typ ≠ 0x8008) || s.senseOk m high uv

/-- The records applied in order, DACs written and then read back (R81); the result names the index and the type of one that
cannot be applied or whose readback is outside tolerance. `rb` is what the readbacks measure; the others are within
tolerance. -/
def State.applyAll (rb : List Readback) : List (Nat × List Byte) → Nat → State → State × Option (Nat × Nat)
  | [], _, s => (s, none)
  | (typ, v) :: rs, i, s =>
    if valueOk typ v = false then (s, some (i, typ))
    else
      let s := s.applyRecord typ v
      if rb.all (s.readbackOk typ) then State.applyAll rb rs (i + 1) s else (s, some (i, typ))

/-- Each PE die loads its copy of the timestamp, which is within one fine of the controller's count (R24; how far off is a free
value, notes/assumptions/7.md). -/
def State.loadClock (d : Nat) (s : State) : State :=
  s.takeFree.setDie d { s.die d with clock := some ((s.free.toNat % 3 : Nat) - 1) }

/-- BOOT step 7 for a body's records: a missing required type first (DEDUCED, notes/assumptions/34.md), then the records in
order, then the calibration store. -/
def State.applyImage (s : State) (rb : List Readback) (rs : List (Nat × List Byte)) : State :=
  match imageTypes.find? (fun t => rs.all (fun r => decide (r.1 ≠ t))) with
  | some t => s.fatal 4 ((rs.length - 1) % 256) t
  | none =>
    let pr := State.applyAll rb rs 0 s
    match pr.2 with
    | some x => pr.1.fatal 4 (x.1 % 256) x.2
    | none =>
      let pr := pr.1.applyStore
      match pr.2 with
      | some x => pr.1.fatal 4 (x.1 % 256) x.2
      | none => (State.each State.loadClock (List.range 16) pr.1).put SYS_MODE.BOOT_STEP 8

end Sys2Proof.Machine
end

