-- ==== Sys2Proof/Machine/HostQ.lean ====
section
/-! DEFINITION. The queue and interrupt registers of the host (18, R326-R333): enabling queues, doorbells, completion
room, MSI-X masks and power states, Function Level Reset. -/

namespace Sys2Proof.Machine

/-! ## MSI-X (R326, R327) -/

/-- A pending message sent once its vector is unmasked and the endpoint is in D0. -/
def State.sendPending (s : State) (v : Nat) : State :=
  if s.flag (MSIX_PBA.PENDING v) ∧ s.flag (MSIX_TABLE.MASK v) = false ∧ s.d3hot = false then
    (s.put (MSIX_PBA.PENDING v) 0).raiseVec v
  else s

/-- A write of the MSI-X table. -/
def State.writeMsix (s : State) (a : Nat) (v : Word) : State := (s.store a v).sendPending ((a - MSIX_TABLE.addr 0 0) / 16)

/-! ## Queue registers (Table 18-12) -/

/-- A write of HOST_Q_CFG: EN = 1 sets the indices to 0 and PHASE to 1. -/
def State.writeQCfg (s : State) (q : Nat) (v : Word) : State :=
  let s := s.store (HOST_Q_CFG.addr q) v
  if wfld v (HOST_Q_CFG.EN q) = 1 then
    let s := ((s.put (HOST_Q_SQ_TAIL.TAIL q) 0).put (HOST_Q_SQ_HEAD.HEAD q) 0).put (HOST_Q_CQ_HEAD.HEAD q) 0
    (s.put (HOST_Q_CQ_TAIL.TAIL q) 0).put (HOST_Q_CQ_TAIL.PHASE q) 1
  else s

/-- A write of a ring address: ignored while EN = 1. -/
def State.writeQBase (s : State) (q a : Nat) (v : Word) : State :=
  if s.flag (HOST_Q_CFG.EN q) then s else s.store a v

/-- Whether moving an index from `old` to `new` in a ring of 1024 passes `lim` or, with `onto`, reaches it. -/
def ringPasses (old new lim : Nat) (onto : Bool) : Bool :=
  let d := (new + 1024 - old) % 1024
  let r := (lim + 1024 - old) % 1024
  if onto then decide (0 < d) && decide (r ≠ 0 ∧ r ≤ d) else decide (r < d)

/-- A write of HOST_Q_SQ_TAIL (R328, Table 18-11). -/
def State.writeSqTail (s : State) (q : Nat) (v : Word) : State :=
  if ringPasses (s.fld (HOST_Q_SQ_TAIL.TAIL q)) (wfld v (HOST_Q_SQ_TAIL.TAIL q)) (s.fld (HOST_Q_SQ_HEAD.HEAD q)) true then
    (s.store (HOST_Q_SQ_TAIL.addr q) v).disturbQueue q
  else s.store (HOST_Q_SQ_TAIL.addr q) v

/-- The completions that wait written as far as there is room; `n` bounds them. -/
def State.complAll (q : Nat) : Nat → State → State
  | 0, s => s
  | n + 1, s => State.complAll q n (s.complNext q)

/-- A write of HOST_Q_CQ_HEAD: completions that waited for room are written (R328). -/
def State.writeCqHead (s : State) (q : Nat) (v : Word) : State :=
  if ringPasses (s.fld (HOST_Q_CQ_HEAD.HEAD q)) (wfld v (HOST_Q_CQ_HEAD.HEAD q)) (s.fld (HOST_Q_CQ_TAIL.TAIL q)) false then
    (s.store (HOST_Q_CQ_HEAD.addr q) v).disturbQueue q
  else
    let full := s.cqFull q
    let s := s.store (HOST_Q_CQ_HEAD.addr q) v
    if full then State.complAll q (s.queue q).done.length s else s

/-- HOST_TIMEOUT and LNK_TIMEOUT: a value below 20 is stored as 20 (R310, R333). -/
def State.writeTimeout (s : State) (f : Field) (v : Word) : State := s.put f (max 20 (wfld v f))

/-! ## Function Level Reset (R327) -/

/-- One queue at a Function Level Reset: disabled; commands not started discarded, completions not written dropped; the
started commands run to the end with what they still have to do, and the window stays. -/
def QueueSt.reset (x : QueueSt) : QueueSt :=
  { window := x.window, cut := x.cut ++ x.started, writes := x.writes, owed := x.owed }

/-- Commands a reset discards before they start: waiting, duplicates that wait, submitted ones not fetched, and those that have
ended without a start and whose completion is not written (DEDUCED, notes/assumptions/17.md). -/
def State.discarded (s : State) (q : Nat) : Nat :=
  (s.queue q).waiting.length + (s.queue q).dups.length + (if s.flag (HOST_Q_CFG.EN q) then s.unfetched q else 0) +
    (s.queue q).done.countP (fun o => !o.began)

/-- Started commands whose completions are not written. -/
def State.unwritten (s : State) (q : Nat) : Nat := (s.queue q).started.length + (s.queue q).done.countP (·.began)

/-- The MSI-X table and EVT_RD at their Reset column. -/
def State.resetMsix (s : State) : State :=
  let s := State.each (fun i s => s.setReg (0x61000 + 4 * i) (regReset (0x61000 + 4 * i))) (numsTo 256) s
  s.setReg EVT_RD.addr (regReset EVT_RD.addr)

/-- A Function Level Reset: its counts, queues disabled, MSI-X table and EVT_RD reset, event FLR. -/
def State.functionReset (s : State) : State :=
  let w4 := ((List.range 8).map s.discarded).sum
  let w5 := ((List.range 8).map s.unwritten).sum
  let s := State.each (fun q s => (s.setQueue q (s.queue q).reset).put (HOST_Q_CFG.EN q) 0) (List.range 8) s
  s.resetMsix.event 6 3 w4 w5

end Sys2Proof.Machine
end

