-- ==== Sys2Proof/Machine/LcOps.lean ====
section
/-! DEFINITION. Blowing life-cycle fuses (19, R341-R345): one at a time under the energy check, and what follows. -/

namespace Sys2Proof.Machine

/-! ## Blowing fuses (R341) -/

/-- The number of a fuse, or of the fuses of a key, by which `Otp.defects` names it. -/
def Blow.fuse : Blow → Nat
  | .integration k => k
  | .field k => 8 + k
  | .return_ k => 16 + k
  | .key k _ => 24 + k
  | .revoke k => 32 + k
  | .patternKey _ => 40
  | .destroyKey => 41
  | .eraseDone => 42

/-- Whether a blow fails its verify (R344). -/
def Otp.fails (o : Otp) (b : Blow) : Bool := decide (b.fuse ∈ o.defects)

/-- What a blow that verifies changes. -/
def Otp.blown (o : Otp) : Blow → Otp
  | .integration k => { o with integration := o.integration ||| BitVec.ofNat 3 (2 ^ k) }
  | .field k => { o with field := o.field ||| BitVec.ofNat 3 (2 ^ k) }
  | .return_ k => { o with return_ := o.return_ ||| BitVec.ofNat 3 (2 ^ k) }
  | .key k bs => { o with keys := Tab.set (fun _ => []) o.keys k bs }
  | .revoke k => { o with revoked := o.revoked ||| BitVec.ofNat 4 (2 ^ k) }
  | .patternKey k => { o with patternKey := some k }
  | .destroyKey => { o with patternKey := none, keyDestroyed := true }
  | .eraseDone => { o with eraseDone := true }

/-- One blow; a fuse that fails its verify stays as it was. -/
def Otp.blow (o : Otp) (b : Blow) : Otp := if o.fails b then o else o.blown b

/-- Whether a fuse may be blown now (R341): the energy check of R49 holds, and the module does not shed. -/
def State.mayBlow (s : State) : Bool := s.energyOk && decide (s.shed = none)

/-- The blows that the energy check lets through now, in order, with those that are deferred; a blow that fails its verify
is the first of them. -/
def State.blowGo : List Blow → State → State × List Blow
  | [], s => (s, [])
  | b :: bs, s =>
    if s.mayBlow ∧ s.otp.fails b = false then State.blowGo bs ((s.withOtp (s.otp.blow b)).lcRefresh) else (s, b :: bs)

/-- Whether a persist page is still to be programmed or in progress. -/
def State.persistPending (s : State) : Bool :=
  (match s.unit with | some (.persist _ _ _) => true | _ => false) ||
    (decide (0 < s.persist.due) && decide (s.persist.waiting ≠ []) && s.flag NVM_CFG.PERSIST_EN && decide (s.fld NVM_CFG.DENSITY ≠ 0))

/-- The RESET_BOOT at the end of a transition, once its persist page is programmed (R342, R345); a module that sheds goes
to OFF instead (R43). -/
def State.lcReset (s : State) : State :=
  match s.lc with
  | some j =>
    (match j.blows, j.after with
     | [], .transition _ => if s.persistPending ∨ s.mode = .off then s else (s.withLc none).resetBoot
     | _, _ => s)
  | none => s

/-- The fuses of a request are blown: LC_CHANGE and its persist page, then RESET_BOOT; or the command completes. -/
def State.lcDone (s : State) (j : LcJob) : State :=
  match j.after with
  | .nothing => s.withLc none
  | .complete =>
    let s := ((s.put LC_TOKEN_STATUS.BUSY 0).put LC_TOKEN_STATUS.RESULT 0).withLc none
    match j.src with
    | some (q, id) => s.finish q id 0 0
    | none => s
  | .transition old =>
    let s := (s.put LC_TOKEN_STATUS.RESULT 0).event 4 1 (old + 16 * s.lcState)
    let s := match j.src with
      | some (q, id) => s.finish q id 0 0
      | none => s
    let s := (s.withLc (some { j with blows := [], src := none })).persistDue
    s.nvmKick.lcReset

/-- A fuse of a request has failed its verify: OTP_FAIL, and what was still to be blown is not (R344; DEDUCED,
notes/assumptions/40.md); a group that counts as blown all the same is journaled. A repair of R341 has no request to fail. -/
def State.lcFail (s : State) (j : LcJob) : State :=
  let s := s.withLc none
  match j.after with
  | .nothing => s
  | a =>
    let s := (s.put LC_TOKEN_STATUS.BUSY 0).put LC_TOKEN_STATUS.RESULT 0x0F
    let s := match a with
      | .transition old =>
        if s.lcState = old then s
        else (s.event 4 1 (old + 16 * s.lcState)).persistDue.nvmKick
      | _ => s
    match j.src with
    | some (q, id) => s.finish q id 7 0x0F
    | none => s

/-- The fuse blows that wait go on as far as the energy check lets them, and up to one that fails its verify. -/
def State.lcRun (s : State) : State :=
  match s.lc with
  | none => s
  | some j =>
    if j.blows = [] then s
    else
      let pr := State.blowGo j.blows s
      let s := pr.1
      let rest := pr.2
      (match rest with
       | [] => s.lcDone { j with blows := [] }
       | b :: _ => if s.mayBlow ∧ s.otp.fails b = true then s.lcFail j else s.withLc (some { j with blows := rest })).nvmFlags

/-- A request's blows begin, behind a third copy that may still wait. -/
def State.lcBegin (s : State) (blows : List Blow) (after : AfterBlow) (src : Option (Nat × Nat)) : State :=
  let left := match s.lc with | some j => j.blows | none => []
  let s := s.withLc (some { blows := left ++ blows, after := after, src := src })
  (s.put LC_TOKEN_STATUS.BUSY 1).lcRun

/-- The copies of a group not yet blown, in ascending order. -/
def missing (g : BitVec 3) : List Nat := (List.range 3).filter (fun k => !bitOf g.toNat k)

/-- The third copies that BOOT step 2 blows (R341). -/
def Otp.repairs (o : Otp) : List Blow :=
  (if (missing o.integration).length = 1 then (missing o.integration).map .integration else []) ++
  (if (missing o.field).length = 1 then (missing o.field).map .field else []) ++
  (if (missing o.return_).length = 1 then (missing o.return_).map .return_ else [])

end Sys2Proof.Machine
end

