-- ==== Sys2Proof/Machine/LcReq.lean ====
section
/-! DEFINITION. Life-cycle requests (19, R340-R345): LC_REQ, LC_DEBUG, and the checks and effects of a signed request. -/

namespace Sys2Proof.Machine

/-! ## LC_REQ and LC_DEBUG (R340, R342) -/

/-- RESULT of the last request. -/
def State.lcResult (s : State) (r : Nat) : State := s.put LC_TOKEN_STATUS.RESULT r

/-- Whether a request may run: IDLE or SAFE, no act executing. -/
def State.lcMode (s : State) : Bool := decide (s.mode = .idle ∨ s.mode = .safe) && !s.anyExecuting

/-- Whether some customer key slot is programmed and not revoked, `but` left out. -/
def State.keyLeft (s : State) (but : Option Nat) : Bool :=
  (List.range 4).any (fun k => s.keyUsable k && decide (but ≠ some k))

/-- A transition requested by LC_REQ (R342). -/
def State.lcAdvance (s : State) (req : Nat) : State :=
  let st := s.lcState
  if s.flag LC_TOKEN_STATUS.BUSY then s.lcResult 0x0E
  else if s.lcMode = false then s.lcResult 0x03
  else if req = 1 then
    if st = 0 then s.lcBegin ((missing s.otp.integration).map .integration) (.transition st) none else s.lcResult 0x02
  else if req = 2 then
    if st ≠ 1 then s.lcResult 0x02
    else if s.keyLeft none then s.lcBegin ((missing s.otp.field).map .field) (.transition st) none
    else s.lcResult 0x04
  else s.freeField LC_TOKEN_STATUS.RESULT

/-- A write of LC_REQ (Table 19-7). -/
def State.writeLcReq (s : State) (v : Word) : State :=
  let s := s.put LC_TOKEN_STATUS.TYPE 0
  if wfld v LC_REQ.KEY = 0xC3 then s.lcAdvance (wfld v LC_REQ.REQ) else s.lcResult 0x01

/-- A write of LC_DEBUG: 1 closes debug until BOOT, 0 has no effect (Table 19-9). -/
def State.writeLcDebug (s : State) (v : Word) : State :=
  if wfld v LC_DEBUG.DEBUG_LOCK = 1 then (s.put LC_DEBUG.DEBUG_LOCK 1).lcDebug else s

/-! ## Signed requests (R343, R344) -/

/-- Fields of a signed request (Table 19-3). -/
def reqType (b : List Byte) : Nat := leNat ((b.drop 4).take 2)
def reqKeyId (b : List Byte) : Nat := leNat ((b.drop 6).take 1)
def reqSerial (b : List Byte) : Nat := leNat ((b.drop 8).take 8)
def reqNonce (b : List Byte) : Nat := leNat ((b.drop 16).take 4)
def reqPlen (b : List Byte) : Nat := leNat ((b.drop 20).take 4)
def reqPayload (b : List Byte) : List Byte := (b.drop 32).take (reqPlen b)
/-- The slot byte of a KEY_PROGRAM or KEY_REVOKE payload. -/
def reqSlot (b : List Byte) : Nat := leNat ((b.drop 32).take 1)

/-- The request types of Table 19-4. -/
def reqTypes : List Nat := [1, 2, 3, 4, 0x10]

/-- Whether a payload has the form of its type: its length, the zero bytes behind the slot, a slot that exists
(DEDUCED, notes/assumptions/40.md). -/
def payloadOk (b : List Byte) : Bool :=
  match reqType b with
  | 1 => decide (reqPlen b = 0)
  | 2 => decide (reqPlen b = 100 ∧ leNat ((b.drop 33).take 3) = 0 ∧ reqSlot b < 4)
  | 3 => decide (reqPlen b = 4 ∧ leNat ((b.drop 33).take 3) = 0 ∧ reqSlot b < 4)
  | 4 => decide (reqPlen b = 32)
  | 0x10 => decide (reqPlen b = 0)
  | _ => true

/-- The format check (Table 19-5, order 1). -/
def formatOk (b : List Byte) : Bool :=
  decide (128 ≤ b.length ∧ b.take 4 = leBytes 4 0x52585A4C ∧ reqPlen b ≤ 3968 ∧ b.length = 128 + reqPlen b ∧
    leNat ((b.drop 7).take 1) = 0 ∧ leNat ((b.drop 24).take 8) = 0) && payloadOk b

/-- Whether the state permits a type under its KEY_ID (Tables 19-2 and 19-4). -/
def typePermitted (st typ key : Nat) : Bool :=
  match typ with
  | 1 => true
  | 2 => decide (st = 0 ∨ st = 1 ∨ (st = 2 ∧ key < 4))
  | 3 => decide (st = 1 ∨ st = 2)
  | 4 => decide (st = 0 ∨ st = 1)
  | 0x10 => decide (st = 1 ∨ st = 2)
  | _ => false

/-- Whether KEY_ID names a key that may sign the type: a slot programmed and not revoked, the maker key, or none for an
unsigned KEY_PROGRAM or DEC_KEY_PROGRAM; RETURN_AUTH takes the maker key alone. -/
def State.keyIdOk (s : State) (typ key : Nat) : Bool :=
  if typ = 0x10 then decide (key = 0x80)
  else if key < 4 then s.keyUsable key
  else decide (key = 0x80) || (decide (key = 0xFF) && decide (typ = 2 ∨ typ = 4))

/-- Whether the signature verifies; an unsigned request has none to verify. -/
def State.sigOk (s : State) (b : List Byte) : Bool :=
  let n := 32 + reqPlen b
  let k := reqKeyId b
  decide (k = 0xFF) ||
    Config.ecdsaVerify (if k = 0x80 then Config.makerKey else Tab.get (fun _ => []) s.otp.keys k)
      (Config.sha384 (b.take n)) ((b.drop n).take 48) ((b.drop (n + 48)).take 48)

/-- Check 9 of Table 19-5: the code, 0 where it passes. -/
def State.typeCheck (s : State) (b : List Byte) : Nat :=
  match reqType b with
  | 2 => if Tab.get (fun _ => []) s.otp.keys (reqSlot b) = [] then 0 else 0x0B
  | 3 => if s.keyLeft (some (reqSlot b)) then 0 else 0x0C
  | 4 => if s.otp.patternKey.isSome then 0x0B else 0
  | _ => 0

/-- The effect of a request that passes every check (Table 19-4, R345). -/
def State.lcEffect (s : State) (b : List Byte) (q id : Nat) : State :=
  let s := s.lcResult 0
  let st := s.lcState
  match reqType b with
  | 1 =>
    let s := s.nvmCommand 6 0 0 0 (.cmd q id) true
    (match s.nvm with
     | some j => (s.put LC_TOKEN_STATUS.BUSY 1).withNvm (some { j with lc := true })
     | none => s)
  | 2 => s.lcBegin [.key (reqSlot b) ((reqPayload b).drop 4)] .complete (some (q, id))
  | 3 => s.lcBegin [.revoke (reqSlot b)] .complete (some (q, id))
  | 4 => s.lcBegin [.patternKey (BitVec.ofNat 256 (leNat (reqPayload b)))] .complete (some (q, id))
  | _ => (s.abortAll 0x10).lcBegin ((missing s.otp.return_).map .return_ ++ [.destroyKey]) (.transition st) (some (q, id))

/-- The code of the first of the checks 4 and 6 to 9 that fails, 0 where all pass. -/
def State.reqCode (s : State) (b : List Byte) : Nat :=
  if s.keyIdOk (reqType b) (reqKeyId b) = false then 0x09
  else if s.sigOk b = false then 0x08
  else if reqType b = 0x10 ∧ s.flag LC_STATE.RMA_PIN = false then 0x0A
  else s.typeCheck b

/-- A request refused: RESULT, the count of consecutive BAD_SIG results, the completion. -/
def State.lcRefuse (s : State) (q id r : Nat) : State :=
  let n := if r = 0x08 then min 8 (s.fld LC_TOKEN_STATUS.BADSIG + 1) else if r = 0x0D then s.fld LC_TOKEN_STATUS.BADSIG else 0
  ((s.lcResult r).put LC_TOKEN_STATUS.BADSIG n).finish q id 7 r

/-- A signed request checked in the order of Table 19-5 and, where it passes, carried out (R344). -/
def State.signedRequest (s : State) (b : List Byte) (q id : Nat) : State :=
  let typ := reqType b
  if formatOk b ∧ !typePermitted s.lcState typ (reqKeyId b) ∧ s.fld LC_TOKEN_STATUS.BADSIG < 8 ∧
      !s.flag LC_TOKEN_STATUS.BUSY then s.finish q id 0x0C 0
  else
    let s := s.put LC_TOKEN_STATUS.TYPE (typ % 256)
    if s.fld LC_TOKEN_STATUS.BADSIG = 8 then s.lcRefuse q id 0x0D
    else if s.flag LC_TOKEN_STATUS.BUSY then s.lcRefuse q id 0x0E
    else if formatOk b = false then s.lcRefuse q id 0x05
    else if s.lcMode = false then s.lcRefuse q id 0x03
    else if reqSerial b ≠ s.otp.serial.toNat then s.lcRefuse q id 0x06
    else
      let nonce := (s.reg LC_NONCE.addr).toNat
      let s := s.newNonce
      if reqNonce b ≠ nonce then s.lcRefuse q id 0x07
      else
        let r := s.reqCode b
        if r ≠ 0 then s.lcRefuse q id r else (s.put LC_TOKEN_STATUS.BADSIG 0).lcEffect b q id

end Sys2Proof.Machine
end

