-- ==== Sys2Proof/Machine/Repair.lean ====
section
/-! DEFINITION. The commands of region queues and repair (11): one meaning per row. -/

namespace Sys2Proof.Machine

/-- What the ECC finds on the read of a queue's entries (R291): which entry is free. -/
def State.entryEcc (s : State) (p : Push) (ecc : Ecc) : State :=
  if (s.desc p.q).count = 0 then s
  else
    match ecc with
    | .clean => s
    | .ce => s.eccCe true
    | .ue =>
      let a := s.entryAddr p.q (s.free.toNat % (s.desc p.q).count)
      (s.takeFree.eccUe 4 a).spoilRegion p.ring p.q

/-- A push applied to what the ECC leaves of its queue: errors found by this read, and errors that wait there (R203, R291). -/
def State.applyRead (s : State) (p : Push) (ecc : PushEcc) : State :=
  (((s.settle p.ring p.q).descEcc p.q ecc.desc).entryEcc p ecc.entry).applyPush p

/-- The oldest push applied, from the backlog before the buffer (R203, R207). -/
def State.applyOldest (s : State) (ecc : PushEcc) : State :=
  match s.rq.backlog, s.rq.buf with
  | p :: ps, _ => (s.withRq { s.rq with backlog := ps }).backlogLevel.applyRead p ecc
  | [], p :: ps => (s.withRq { s.rq with buf := ps }).applyRead p ecc
  | [], [] => s

/-- RQ_PUSH_APPLY (R203, R207), while the analyzer has power (Table 1-2). -/
def execRqPushApply (ecc : PushEcc) (s : State) : Res :=
  let s := s.spillTo s.time.toNat
  .next (if s.inService then s.applyOldest ecc else s)

/-- A write of RQ_CTRL: the fields first, then CLEAR with them (R352, R210). -/
def State.writeRqCtrl (s : State) (v : Word) : State :=
  let s := s.store RQ_CTRL.addr v
  if wbit v 31 then s.rqClearReq (s.fld RQ_CTRL.RING) else s

/-- RQ_CTRL_CLEAR (R210). -/
def execRqCtrlClear (v : Word) (s : State) : Res := .next (s.hostWrite RQ_CTRL.addr v (fun s => s.writeRqCtrl v))

/-- A write of RQ_FINALIZE (R212, R352). -/
def State.writeRqFinalize (s : State) (v : Word) : State :=
  let s := s.store RQ_FINALIZE.addr v
  if wbit v 31 then s.finalizeReq (s.fld RQ_FINALIZE.RING) (s.flag RQ_FINALIZE.DIRTY_ONLY) else s

/-- RQ_FINALIZE (R212). -/
def execRqFinalize (v : Word) (s : State) : Res := .next (s.hostWrite RQ_FINALIZE.addr v (fun s => s.writeRqFinalize v))

/-- RQ_FINALIZED (R212-R215): the FINALIZE that runs has no push left to wait for, and writes its records. -/
def execRqFinalized (s : State) : Res :=
  match s.rq.fin with
  | none => .next s
  | some f =>
    if s.inService = false ∨ (f.none_ = false ∧ s.pushWaits f.ring) then .next s
    else
      let s := s.settleRing f.ring
      .next (s.finalizeEnd f (if f.none_ then [] else s.finalizeList f) false)

/-- A write of RQ_DESC_SEL loads the descriptor's words (R204). -/
def State.writeRqDescSel (s : State) (v : Word) (ecc : Ecc) : State :=
  let s := s.store RQ_DESC_SEL.addr v
  let s := (s.settleDesc (s.fld RQ_DESC_SEL.QUEUE)).descEcc (s.fld RQ_DESC_SEL.QUEUE) ecc
  let pr := (s.desc (s.fld RQ_DESC_SEL.QUEUE)).words
  let w0 := pr.1
  let w1 := pr.2.1
  let w2 := pr.2.2
  ((s.setReg RQ_DESC_W0.addr w0).setReg RQ_DESC_W1.addr w1).setReg RQ_DESC_W2.addr w2

/-- RQ_DESC_SEL (R204, R291). -/
def execRqDescSel (v : Word) (ecc : Ecc) (s : State) : Res := .next (s.hostWrite RQ_DESC_SEL.addr v (fun s => s.writeRqDescSel v ecc))

/-- Whether chunks [b, b + n) meet those of a ring other than g (R198). -/
def State.chunkOverlap (s : State) (g b n : Nat) : Bool :=
  (List.range 64).any (fun h =>
    let hb := s.fld (RQ_MAP_CFG.CHUNK_BASE h)
    let hn := s.fld (RQ_MAP_CFG.CHUNK_CNT h)
    decide (h ≠ g ∧ 0 < n ∧ 0 < hn ∧ b < hb + hn ∧ hb < b + n))

/-- A write of RQ_MAP_CFG[g] (R198, R211); chunks past 255 are a host error, which leaves the ring's queues free. -/
def State.writeRqMapCfg (s : State) (g : Nat) (v : Word) : State :=
  let b := wfld v (RQ_MAP_CFG.CHUNK_BASE g)
  let n := wfld v (RQ_MAP_CFG.CHUNK_CNT g)
  if s.ringExecuting g then s.put RQ_STATUS.CFG_REFUSED 1
  else if 256 < b + n then s.disturbQueues g
  else if s.chunkOverlap g b n then s.put RQ_STATUS.MAP_REFUSED 1
  else s.store (RQ_MAP_CFG.addr g) v

/-- RQ_MAP_CFG_WRITE (R198, R211). -/
def execRqMapCfgWrite (g : Ring) (v : Word) (s : State) : Res := .next (s.hostWrite (RQ_MAP_CFG.addr g) v (fun s => s.writeRqMapCfg g v))

/-- A write of RQ_MAP_REGION, RQ_MAP_ROW or RQ_MAP_COL of ring g (R211). -/
def State.writeRqMap (s : State) (g a : Nat) (v : Word) : State :=
  if s.ringExecuting g then s.put RQ_STATUS.CFG_REFUSED 1 else s.store a v

/-- A write of RQ_TYPE[t] (R211). -/
def State.writeRqType (s : State) (t : Nat) (v : Word) : State :=
  if (List.range 64).any (fun g => s.ringExecuting g && decide (s.fld (RQ_MAP_CFG.TYPE g) = t)) then
    s.put RQ_STATUS.CFG_REFUSED 1
  else s.store (RQ_TYPE.addr t) v

/-- RQ_CLEAR_DONE (R210). -/
def execRqClearDone (s : State) : Res := .next (s.put RQ_STATUS.CLEARING 0)

end Sys2Proof.Machine
end

