-- ==== Sys2Proof/Machine/Views.lean ====
section
/-! DEFINITION. Registers as the bus reads them (20, R350): fields that show what the state is elsewhere (a mode, a pin, a
copy, a level) laid over the stored word. -/

namespace Sys2Proof.Machine

/-- A field of a word replaced. -/
def withF (w : Nat) (f : Field) (v : Nat) : Nat := setBits w f.lo f.len v

/-- A one-bit field of a word replaced. -/
def withB (w : Nat) (f : Field) (b : Bool) : Nat := withF w f (b2n b)

/-- PWR_STATUS (Table 3-4): THERM_WARN is 140 degrees now, as in SYS_STATUS; HU charges below 49.0 V. -/
def State.viewPwr (s : State) (w : Nat) : Nat :=
  withB (withB (withB w PWR_STATUS.THERM_WARN s.tempHot) PWR_STATUS.HOLDUP_OK s.energyOk)
    PWR_STATUS.HU_CHARGING (decide (s.fld PWR_HOLDUP_V.V < 49000))

/-- PIN_STATUS (Table 6-10): the state of the output stage. -/
def State.viewPin (s : State) (c w : Nat) : Nat :=
  let st := s.stage c
  let drive : Bool := match st with | .drive _ _ => true | _ => false
  let w := withB (withB w (PIN_STATUS.CAL_BUS c) (decide (st = .calbus))) (PIN_STATUS.PPMU_ON c) (decide (st = .ppmu))
  withF (withB (withB w (PIN_STATUS.PARKED c) (s.parked c)) (PIN_STATUS.DRIVING c) drive) (PIN_STATUS.LSET_NOW c) (s.levelSet c)

/-- FAIL_STATUS (Table 10-4): the ring's act, and the copy of WRAPPED. -/
def State.viewFail (s : State) (g w : Nat) : Nat :=
  let w := withB w (FAIL_STATUS.LOG_WRAPPED g) (s.flag (FAIL_LOG_WR.WRAPPED g))
  match s.ringAct g with
  | some n => withF (withB w (FAIL_STATUS.OWNED g) true) (FAIL_STATUS.ACT g) n
  | none => w

/-- ACQ_STREAM_STATUS.DRAINED (Table 13-14): disabled, and both rings empty. -/
def State.viewStream (s : State) (i w : Nat) : Nat :=
  withB w (ACQ_STREAM_STATUS.DRAINED i) (!s.flag (ACQ_STREAM_CTRL.EN i) && decide ((s.stream i).ring = []) &&
    decide (s.fld (ACQ_STREAM_HOST_RD.VALUE i) = s.fld (ACQ_STREAM_HOST_WR.VALUE i)))

/-- An APG register: the live value from a start until the next host write (Table 8-18). -/
def State.viewApg (s : State) (n bit live w : Nat) : Nat := if bitOf (s.act n).live.toNat bit then live % 2 ^ 32 else w

/-- The word of the register at base `b` of Table 20-7 with indices `ix`, from its stored word. -/
def State.viewOf (s : State) (b : Nat) (ix : List Nat) (w : Nat) : Nat :=
  let i := ix.headD 0
  if b = 0x10 then withF w SYS_MODE.MODE s.mode.code
  else if b = 0x18 then withB w SYS_STATUS.THERM_WARN s.tempHot
  else if b = 0x80 then withB (withB w SYS_PARK.PARK_PIN (!s.pins.parkN)) SYS_PARK.CLR_PIN (!s.pins.clrN)
  else if b = 0x10010 then s.time.toNat % 2 ^ 32
  else if b = 0x10014 then s.time.toNat / 2 ^ 32
  else if b = 0x10018 then s.epoch.toNat
  else if b = 0x20000 then s.viewPwr w
  else if b = 0x20004 then withF (withF w PWR_VIN.IIN s.free.toNat) PWR_VIN.VIN (s.free.toNat / 65536)
  else if b = 0x20030 then withF w PWR_INPUT_P.P s.free.toNat
  else if b = 0x60024 then s.queueStatus i
  else if b = 0x80010 then
    withF w MEM_PART_STATUS.ENABLED (((List.range 16).map (fun k => 2 ^ k * b2n (s.flag (MEM_DRAM_PART.EN k)))).sum)
  else if b = 0x91008 then withB w (MON_SREF_STATUS.CLR_ACTIVE i) s.clrActive
  else if b = 0xC204C then s.viewStream i w
  else if b = 0x100100 then s.viewApg i 0 (s.act i).x w
  else if b = 0x100104 then s.viewApg i 1 (s.act i).y w
  else if b = 0x100110 then withF w (APG_Z.VALUE i) (s.viewApg i 2 (s.act i).z (bitsOf w 0 (APG_Z.VALUE i).len))
  else if b = 0x100118 then s.viewApg i 3 (s.act i).data w
  else if b = 0x10011C then s.viewApg i 4 ((s.act i).data / 2 ^ 32) w
  else if b = 0x400004 then s.viewPin i w
  else if b = 0x800004 then s.viewFail i w
  else w

/-- A register as the bus reads it; WO bits, reserved bits and reserved addresses read 0 (R5, R6, R348). -/
def State.view (s : State) (a : Nat) : Word :=
  match regAt a with
  | some (r, ix) => BitVec.ofNat 32 (s.viewOf r.base ix (s.reg a).toNat &&& (r.named &&& (0xFFFFFFFF - r.wo)))
  | none => 0

end Sys2Proof.Machine
end

