-- ==== Sys2Proof/Machine/MemOps.lean ====
section
/-! DEFINITION. Memories as the outside reaches them (16, R287-R301; 18, R325): what a host write into DRAM may not touch,
partitions, blocks and ring membership, the patrol engine's regions. -/

namespace Sys2Proof.Machine

/-! ## Host writes into DRAM (Table 18-11) -/

/-- Whether a range meets the log, the masks or the bitmap of a ring whose act executes (R197). -/
def State.hitsRing (s : State) (a n g : Nat) : Bool :=
  s.ringExecuting g &&
    (rangesMeet a n (s.fld (FAIL_LOG_BASE.BASE g) * 4096) (32 * s.fld (FAIL_LOG_SIZE.SIZE g)) ||
      (s.flag (FAIL_LOG_POLICY.MASK_EN g) &&
        rangesMeet a n (s.fld (FAIL_MASK_BASE.BASE g) * 4096) (s.fld (FAIL_LOG_SIZE.SIZE g) * s.maskBytes g)) ||
      rangesMeet a n (s.mapBase g) (2 ^ s.mapBits g / 8 + 2 * s.tileMapBytes g))

/-- Whether a range meets the block table of an executing act, or a block that it refers to (R143). -/
def State.hitsBlocks (s : State) (a n act : Nat) : Bool :=
  s.executing act &&
    (rangesMeet a n (s.fld (SEQ_BLOCK_TABLE.BASE act) * 131072) 131072 ||
      (numsTo 4096).any (fun b =>
        let pr := s.blockEntry act b
        let addr := pr.1
        let nvec := pr.2.1
        let rec_ := pr.2.2.1
        let valid := pr.2.2.2
        valid && rangesMeet a n addr (nvec * rec_)))

/-- Whether a range meets the ring of a stream in use (R251). -/
def State.hitsStream (s : State) (a n i : Nat) : Bool :=
  (s.streamOn i || decide ((s.stream i).ring ≠ [])) &&
    rangesMeet a n (s.fld (ACQ_STREAM_DRAM_BASE.VALUE i) * 4096) (s.ringSize i)

/-- The rings whose region queues a write into the pool disturbs while an act executes (R199). -/
def State.hitsPool (s : State) (a n g : Nat) : Bool :=
  s.anyExecuting && rangesMeet a n (s.partBase 0) 536870912 && decide (0 < s.fld (RQ_MAP_CFG.CHUNK_CNT g))

/-- A write into DRAM by a command's DMA. Into the pool, a stream ring or a running act's blocks it is a host error, of the
region queues, the stream or the act (R143, R199, R251). -/
def State.dmaDramPut (s : State) (a : Nat) (bs : List Byte) : State :=
  let n := bs.length
  let t := s.dramPut a bs
  let t := State.each State.disturbQueues ((List.range 64).filter (s.hitsPool a n)) t
  let t := State.each State.disturbStream ((List.range 16).filter (s.hitsStream a n)) t
  State.each State.disturbAct (actNums.filter (s.hitsBlocks a n)) t

/-- A write into DRAM through BAR2, which R197 also keeps out of executing rings. -/
def State.hostDramPut (s : State) (a : Nat) (bs : List Byte) : State :=
  State.each State.disturbRing ((List.range 64).filter (s.hitsRing a bs.length)) (s.dmaDramPut a bs)

/-! ## Partitions (R299-R301) -/

/-- Base and size in 4 KiB units of the enabled partitions. -/
def State.partSpans (s : State) : List (Nat × Nat) :=
  (List.range 16).filterMap (fun i =>
    if s.flag (MEM_DRAM_PART.EN i) then some (s.fld (MEM_DRAM_PART.BASE i), s.fld (MEM_DRAM_PART_SIZE.SIZE i)) else none)

/-- Whether no two spans overlap. -/
def spansApart : List (Nat × Nat) → Bool
  | [] => true
  | x :: xs => xs.all (fun y => !rangesMeet x.1 x.2 y.1 y.2) && spansApart xs

/-- Whether partition i has a kind that is reserved for it (R300, Table 16-3). -/
def State.badKind (s : State) (i : Nat) : Bool :=
  let k := s.fld (MEM_DRAM_PART.KIND i)
  decide (2 ≤ i) && decide (7 < k ∨ k = 4 ∨ k = 5)

/-- Whether the partitions are as R300 and R301 ask. -/
def State.partsOk (s : State) : Bool :=
  spansApart s.partSpans && s.partSpans.all (fun x => decide (x.1 + x.2 ≤ 33554432)) &&
    (List.range 16).all (fun i => !s.badKind i)

/-- What a host error in the partitions leaves free: the bytes of every enabled partition that overlaps another, ends outside
DRAM or has a reserved kind (R9, R300, R301). -/
def State.badSpans (s : State) : List (Nat × Nat) :=
  (List.range 16).filterMap (fun i =>
    let x := (s.fld (MEM_DRAM_PART.BASE i), s.fld (MEM_DRAM_PART_SIZE.SIZE i))
    if s.flag (MEM_DRAM_PART.EN i) ∧
        (1 < s.partSpans.countP (fun y => rangesMeet x.1 x.2 y.1 y.2) ∨ 33554432 < x.1 + x.2 ∨ s.badKind i = true) then
      some (4096 * x.1, 4096 * x.2)
    else none)

/-- An accepted partition write: of partitions 0 and 1 only BASE is written, and a changed BASE moves the partition (R300). -/
def State.setPart (s : State) (i : Nat) (size : Bool) (v : Word) : State :=
  if size then (if i ≤ 1 then s else s.store (MEM_DRAM_PART_SIZE.addr i) v)
  else if i ≤ 1 then
    let old := s.fld (MEM_DRAM_PART.BASE i)
    let s := s.put (MEM_DRAM_PART.BASE i) (wfld v (MEM_DRAM_PART.BASE i))
    if s.fld (MEM_DRAM_PART.BASE i) = old then s else s.clearAllQueues
  else s.store (MEM_DRAM_PART.addr i) v

/-- A write of MEM_DRAM_PART[i] or MEM_DRAM_PART_SIZE[i] (R301); the ring of an enabled stream that then lies across another
kind's partition is a host error of the stream. -/
def State.writePart (s : State) (i : Nat) (size : Bool) (v : Word) : State :=
  if s.anyExecuting ∨ s.rq.fin.isSome then s.put MEM_PART_STATUS.REFUSED 1
  else
    let s := s.setPart i size v
    let s := State.each State.disturbStream ((List.range 16).filter (fun k => s.streamOn k && s.streamMisplaced k)) s
    if s.partsOk then s else s.takeFree.mixDram s.anyState (inAreas s.badSpans)

/-! ## Blocks and rings (R132, R181, R197) -/

/-- A write of SEQ_CB_MASK (R132); PPMUs of channels that come into an act whose park is forced disconnect (R105). -/
def State.writeCbMask (s : State) (n : Nat) (v : Word) : State :=
  let old := s.fld (SEQ_CB_MASK.MASK n)
  let new := wfld v (SEQ_CB_MASK.MASK n)
  let gained := (bitList new 16 0).filter (fun b => !bitOf old b)
  let owners := gained.filterMap s.actOfBlock
  if old ≠ new ∧ (s.executing n = true ∨ owners.any s.executing = true) then s.put (SEQ_STATUS.CFG_REFUSED n) 1
  else
    let s := State.each (fun m s =>
      if m = n then s else s.put (SEQ_CB_MASK.MASK m) (s.fld (SEQ_CB_MASK.MASK m) &&& (65535 - new))) actNums s
    let s := s.put (SEQ_CB_MASK.MASK n) new
    s.parkPpmus ((gained.flatMap blockChans).filter s.forcedPark)

/-- A ring register that R197 guards: refused while the ring's act executes. -/
def State.ringGuard (s : State) (g : Nat) (k : State → State) : State :=
  if s.ringExecuting g then s.put (FAIL_STATUS.CFG_REFUSED g) 1 else k s

/-- A write of FAIL_RING_CH[i] of ring g (R181, R197). -/
def State.writeRingCh (s : State) (g i : Nat) (v : Word) : State :=
  let old := s.fld (FAIL_RING_CH.MEMBERS g i)
  let moved := (List.range 32).filter (fun k => decide (bitOf old k ≠ bitOf v.toNat k))
  if s.ringExecuting g ∨ moved.any (fun k => s.chanExecuting (32 * i + k)) = true then s.put (FAIL_STATUS.CFG_REFUSED g) 1
  else
    let s := State.each (fun h s =>
      if h = g then s
      else
        let m := s.fld (FAIL_RING_CH.MEMBERS h i)
        if m &&& v.toNat = 0 then s else s.put (FAIL_RING_CH.MEMBERS h i) (m &&& (0xFFFFFFFF - v.toNat)))
      (List.range 64) s
    s.put (FAIL_RING_CH.MEMBERS g i) v.toNat

/-! ## Patrol (R293-R295) -/

/-- The regions, counted over the four arrays of Table 16-1: the array of a region, its first region and the one after its
last. -/
def patrolArray (r : Nat) : Nat := if r < 65536 then 0 else if r < 98304 then 1 else if r < 122880 then 2 else 3
def patrolStart (k : Nat) : Nat := match k with | 0 => 0 | 1 => 65536 | 2 => 98304 | _ => 122880
def patrolStop (k : Nat) : Nat := match k with | 0 => 65536 | 1 => 98304 | 2 => 122880 | _ => 123392

/-- The first region at or after `r` in an array that ARRAYS selects; `fuel` bounds the arrays. -/
def State.patrolFrom (s : State) : Nat → Nat → Option Nat
  | 0, _ => none
  | fuel + 1, r =>
    if 123392 ≤ r then none
    else if bitOf (s.fld MEM_PATROL_CFG.ARRAYS) (patrolArray r) then some r
    else s.patrolFrom fuel (patrolStop (patrolArray r))

/-- Whether the engine skips a region (R294): of an executing half, or of the housekeeping firmware. -/
def State.patrolSkips (s : State) (r : Nat) : Bool :=
  match patrolArray r with
  | 0 => s.halfExecuting (r / 4096) (r / 2048 % 2)
  | 1 => rangesMeet (512 * (r - 65536)) 512 s.hkOff s.hkLen
  | _ => false

/-- A region is over: the next one; after the last the sweep is complete (Table 16-5). -/
def State.patrolPast (s : State) (r : Nat) : State :=
  match s.patrolFrom 4 (r + 1) with
  | some q => s.withPatrol q
  | none => (s.bump MEM_PATROL_STATUS.SWEEPS).withPatrol 0

/-- An uncorrectable error in the descriptor SRAM or in the region-queue pool, found by a read that is no consumer's: it waits
for the consumer (R291). -/
def State.leaveUpset (s : State) (id a : Nat) : State :=
  if id = 2 ∨ (id = 4 ∧ rangesMeet a 8 (s.partBase 0) 536870912 = true) then
    s.withRq { s.rq with upset := s.rq.upset.filter (fun e => decide (e ≠ (id, a))) ++ [(id, a)] }
  else s

/-- What the ECC finds in a region that the engine copies (R291). -/
def State.patrolEcc (s : State) (k a : Nat) (ecc : Ecc) : State :=
  let t := s.sramEcc k a 512 ecc
  if ecc = .ue then t.leaveUpset k (s.eccWord a 512) else t

/-- What the scrub finds at a DRAM address (R295, R299): with DRAM_SCRUB it reads the enabled partitions. -/
def State.scrub (s : State) (a : Nat) (ecc : Ecc) : State :=
  if s.flag MEM_PATROL_CFG.DRAM_SCRUB ∧ s.partSpans.any (fun x => decide (4096 * x.1 ≤ a ∧ a < 4096 * (x.1 + x.2))) = true then
    let t := s.dramEcc a 1 ecc
    if ecc = .ue then t.leaveUpset 4 (s.eccWord a 1) else t
  else s

/-- The next region copied to the shadow and tested, or skipped; SKIPPED counts from the sweep's first region. -/
def State.patrolRegion (s : State) (r : Nat) (ecc : Ecc) : State :=
  let s := if s.patrol = 0 then s.put MEM_PATROL_SKIP.SKIPPED 0 else s
  if s.patrolSkips r then (s.put MEM_PATROL_SKIP.SKIPPED (s.fld MEM_PATROL_SKIP.SKIPPED + 1)).patrolPast r
  else
    let k := patrolArray r
    ((s.put MEM_PATROL_STATUS.ACTIVE 1).patrolEcc k (512 * (r - patrolStart k)) ecc).withPatrol r

/-- The march of a region is over and the region is restored (R295). -/
def State.patrolDone (s : State) (ok : Bool) : State :=
  let r := s.patrol
  let k := patrolArray r
  let s := s.put MEM_PATROL_STATUS.ACTIVE 0
  let s := if ok then s
    else (((s.put MEM_PATROL_STATUS.FAIL 1).put MEM_PATROL_STATUS.FAIL_ARRAY k).put MEM_PATROL_STATUS.FAIL_REGION
      (r - patrolStart k)).event 8 3 k (r - patrolStart k)
  s.patrolPast r

/-- What the ECC finds on a read of `n` bytes of the shared pool at an offset: an uncorrectable error in the housekeeping
firmware or in the diagnostics area of SAFE is fatal (Table 16-2). -/
def State.poolEcc (s : State) (o n : Nat) (ecc : Ecc) : State :=
  let t := s.sramEcc 1 o n ecc
  if ecc = .ue ∧ (rangesMeet o n s.hkOff s.hkLen = true ∨ rangesMeet o n Config.diagArea.1 Config.diagArea.2 = true) then
    t.fatal 6 1 0
  else t

end Sys2Proof.Machine
end

