-- ==== Sys2Proof/Machine/Memory.lean ====
section
/-! DEFINITION. The commands of the memories (16), BAR2 and the board port (18), and of the writes that move blocks, rings
and partitions: one meaning per row. What a read brings goes to `reply`. -/

namespace Sys2Proof.Machine

/-- What a read is answered with. -/
def State.answer (s : State) (bs : List Byte) (poisoned : Bool) : State :=
  s.withReply (some { bytes := bs, poisoned := poisoned })

/-! ## Patrol (R293-R295) -/

/-- PATROL_REGION (R293, R294, R291), with what the scrub has found since the last one (R295). -/
def execPatrolRegion (ecc : PatrolEcc) (s : State) : Res :=
  if s.inService ∧ s.flag MEM_PATROL_CFG.EN ∧ s.flag MEM_PATROL_STATUS.ACTIVE = false then
    let s := s.scrub ecc.at_.toNat ecc.dram
    match s.patrolFrom 4 s.patrol with
    | some r => .next (s.patrolRegion r ecc.region)
    | none =>
      match s.patrolFrom 4 0 with
      | some r => .next (((s.bump MEM_PATROL_STATUS.SWEEPS).withPatrol 0).patrolRegion r ecc.region)
      | none => .next s
  else .next s

/-- PATROL_REGION_DONE (R295). -/
def execPatrolRegionDone (ok : Bool) (s : State) : Res :=
  if s.inService ∧ s.flag MEM_PATROL_STATUS.ACTIVE = true then .next (s.patrolDone ok) else .next s

/-! ## The board port (R296-R298, R337) -/

/-- The status page (Table 18-10). -/
def State.statusPage (s : State) (i : Nat) : Nat :=
  match i with
  | 0 => (s.view SYS_MODE.addr).toNat % 65536
  | 1 => (s.view SYS_FAULT_CODE.addr).toNat % 65536
  | 2 => (s.view SYS_STATUS.addr).toNat % 65536
  | 3 => (s.view PWR_TEMP_MAX.addr).toNat % 65536
  | 4 => (s.view SYS_DEVIDX.addr).toNat % 65536
  | 5 => s.pins.bdIrq.toNat
  | 6 => s.pins.bdMask.toNat
  | _ => 0

/-- A write of the status page: BD_IRQ is W1C, BD_IRQ_MASK is RW. -/
def State.writePage (s : State) (i : Nat) (v : BitVec 16) : State :=
  match i with
  | 5 => s.withPins { s.pins with bdIrq := s.pins.bdIrq &&& ~~~(BitVec.ofNat 4 v.toNat) }
  | 6 => s.withPins { s.pins with bdMask := BitVec.ofNat 4 v.toNat }
  | _ => s

/-- BUSY_N asserted to the board port, a read-write collision counted (R296). -/
def State.rwCollision (s : State) : State :=
  (s.bump MEM_COLLIDE.RW_CNT).withPins { s.pins with busy := true }

/-- `n` undefined bytes as the answer of a read (R296, Table 16-2). -/
def State.answerFree (s : State) (n : Nat) (poisoned : Bool) : State :=
  let pr := State.freeBytes n s
  let bs := pr.1
  let s := pr.2
  s.answer bs poisoned

/-- A mailbox read by the board port: of a half, where port B may write the word in the same cycle (R296). -/
def State.boardMbox (s : State) (i : Nat) (coll : Option Word) (ecc : Ecc) : State :=
  match coll with
  | some w => ((s.mboxPut (4 * (i / 2)) (leBytes 4 w.toNat)).rwCollision).answerFree 2 false
  | none =>
    let s := s.sramEcc 3 (4 * (i / 2)) 4 ecc
    if ecc = .ue then s.answerFree 2 false else s.answer (s.mboxBytes (2 * i) 2) false

/-- Whether the housekeeping domain, with the board port, has no power: in OFF but for the shedding sequence (Table 1-2). -/
def State.hkOffNow (s : State) : Bool := decide (s.mode = .off) && s.shed.isNone

/-- BOARD_READ (R296, R291, R337). -/
def execBoardRead (ba : BitVec 18) (coll : Option Word) (ecc : Ecc) (s : State) : Res :=
  if s.hkOffNow then .next s
  else if bitOf ba.toNat 17 then .next (s.answer (leBytes 2 (s.statusPage (ba.toNat % 131072))) false)
  else .next (s.boardMbox ba.toNat coll ecc)

/-- A mailbox write by the board port: of a half, with what port B does to the word in the same cycle (R296, R297). -/
def State.boardPut (s : State) (i : Nat) (v : BitVec 16) (coll : BoardColl) : State :=
  let a := 4 * (i / 2)
  match coll with
  | .none => s.mboxPut (2 * i) (leBytes 2 v.toNat)
  | .read => ((s.mboxPut (2 * i) (leBytes 2 v.toNat)).rwCollision).answerFree 4 false
  | .write w =>
    let s := s.mboxPut a (leBytes 4 w.toNat)
    if bitsOf w.toNat (16 * (i % 2)) 16 = v.toNat then s
    else
      let s := (s.bump MEM_COLLIDE.WW_CNT).event 8 4 a
      s.withPins { s.pins with busy := true }

/-- BOARD_WRITE (R297, R337). -/
def execBoardWrite (ba : BitVec 18) (v : BitVec 16) (coll : BoardColl) (s : State) : Res :=
  if s.hkOffNow then .next s
  else if bitOf ba.toNat 17 then .next (s.writePage (ba.toNat % 131072) v)
  else .next (s.boardPut ba.toNat v coll)

/-- BCS_RELEASE (R298). -/
def execBcsRelease (s : State) : Res := .next (s.withPins { s.pins with busy := false })

/-! ## Atomics (R290) -/

/-- The byte offset in the pool of the word that an atomic of `n` bytes meets; none where it is an Unsupported Request: CAS, an
address outside the shared pool window or a misaligned one (R290). -/
def atomicWord (n : Nat) : AtomicAt → Option Nat
  | .bar0 cas a _ =>
    let a := a.toNat
    if cas ∨ a < 0x1000000 ∨ 0x2000000 ≤ a ∨ a % n ≠ 0 then none else some (a - 0x1000000)
  | .bar2 _ _ => none
  | .core o _ => some (o.toNat / n * n)

/-- What the ECC finds on the word of an atomic. -/
def atomicEcc : AtomicAt → Ecc
  | .bar0 _ _ e => e
  | .bar2 _ _ => .clean
  | .core _ e => e

/-- What an atomic may do to the pool: the housekeeping core has it while it has power (Table 1-2); the host's window may be
closed, and then reads 0, or read-only, and then keeps its words (R347). -/
def State.atomicAccess (s : State) (at_ : AtomicAt) : Access :=
  match at_ with
  | .core _ _ => .full
  | _ => s.access 0x1000000

/-- An atomic of `n` bytes on a word of the pool that the requester may read: the old value is the answer, `f` of it is stored
where the word may be written. The old value of a word with an uncorrectable error is free and the answer poisoned
(Table 16-2). -/
def State.atomicOn (s : State) (acc : Access) (o n : Nat) (ecc : Ecc) (f : Nat → Nat) : State :=
  let pr := if ecc = .ue then State.freeBytes n s else (s.poolBytes o n, s)
  let old := leNat pr.1
  let t := if acc = .full then pr.2.poolPut o (leBytes n (f old)) else pr.2
  (t.poolEcc o n ecc).answer (leBytes n old) (decide (ecc = .ue))

/-- An atomic of `n` bytes; `f` gives the value stored from the old one (R290). -/
def State.atomic (s : State) (at_ : AtomicAt) (n : Nat) (f : Nat → Nat) : State :=
  if s.hkOffNow then s
  else
    match atomicWord n at_ with
    | none => s.withReply (some { bytes := [], unsupported := true })
    | some o =>
      match s.atomicAccess at_ with
      | .none => s.answer (leBytes n 0) false
      | acc => s.atomicOn acc o n (atomicEcc at_) f

/-- ATOMIC_ADD (R290). -/
def execAtomicAdd (a : AtomicAt) (wide : Bool) (v : BitVec 64) (s : State) : Res :=
  .next (s.atomic a (if wide then 8 else 4) (fun old => old + v.toNat))

/-- ATOMIC_SWAP (R290). -/
def execAtomicSwap (a : AtomicAt) (wide : Bool) (v : BitVec 64) (s : State) : Res :=
  .next (s.atomic a (if wide then 8 else 4) (fun _ => v.toNat))

/-! ## BAR2 (R325, R12, R35) -/

/-- BAR2_READ (R325, R12, R291). -/
def execBar2Read (a : BitVec 37) (len : Nat) (ecc : Ecc) (s : State) : Res :=
  if s.mode = .off ∨ dramSize < a.toNat + len then .next s
  else if s.inService then .next ((s.dramEcc a.toNat len ecc).answer (s.dramBytes a.toNat len) (decide (ecc = .ue)))
  else .next (s.answer (List.replicate len 0xFF) false)

/-- BAR2_WRITE (R325, R12, Table 18-11). -/
def execBar2Write (a : BitVec 37) (bytes : List Byte) (s : State) : Res :=
  if s.inService = false ∨ dramSize < a.toNat + bytes.length then .next s
  else .next (s.hostDramPut a.toNat bytes)

/-! ## Partitions, blocks and rings -/

/-- DRAM_PART_WRITE (R300, R301). -/
def execDramPartWrite (i : Fin 16) (size : Bool) (v : Word) (s : State) : Res :=
  .next (s.hostWrite (if size then MEM_DRAM_PART_SIZE.addr i else MEM_DRAM_PART.addr i) v (fun s => s.writePart i size v))

/-- SEQ_CB_MASK_WRITE (R132). -/
def execSeqCbMaskWrite (n : Act) (v : Word) (s : State) : Res :=
  .next (s.hostWrite (SEQ_CB_MASK.addr n) v (fun s => s.writeCbMask n v))

/-- FAIL_RING_CH_WRITE (R181, R197). -/
def execFailRingChWrite (g : Ring) (i : Fin 32) (v : Word) (s : State) : Res :=
  .next (s.hostWrite (FAIL_RING_CH.addr g i) v (fun s => s.writeRingCh g i v))

end Sys2Proof.Machine
end

