-- ==== Sys2Proof/Machine/Nvm.lean ====
section
/-! DEFINITION. The commands of the flash (05, R86-R89; 03, R50): one meaning per row. A command row is the write of
NVM_CMD with its KEY and OP. -/

namespace Sys2Proof.Machine

/-- NVM_CMD written with KEY = 0xA5 and an OP (R87). -/
def State.nvmWrite (s : State) (op : Nat) : State :=
  s.hostWrite NVM_CMD.addr (BitVec.ofNat 32 (0xA5000000 + op)) (fun s => s.writeNvmCmd (BitVec.ofNat 32 (0xA5000000 + op)))

/-- NVM_READ (R87). -/
def execNvmRead (s : State) : Res := .next (s.nvmWrite 1)

/-- NVM_PROGRAM (R87, R88). -/
def execNvmProgram (s : State) : Res := .next (s.nvmWrite 2)

/-- NVM_ERASE (R87, R88). -/
def execNvmErase (s : State) : Res := .next (s.nvmWrite 3)

/-- ERASE_SLOT (R89). -/
def execEraseSlot (s : State) : Res := .next (s.nvmWrite 4)

/-- VALIDATE_SLOT (R89). -/
def execValidateSlot (s : State) : Res := .next (s.nvmWrite 5)

/-- CAL_COMMIT (R84). -/
def execCalCommit (s : State) : Res := .next (s.nvmWrite 6)

/-- NVM_ABORT (R88). -/
def execNvmAbort (s : State) : Res := .next (s.nvmWrite 7)

/-- The erase of a RETURN module complete: the ERASE_DONE fuse is blown, once the energy check lets it, and BOOT goes on with
step 3 (R341, R345). -/
def State.eraseFinish (s : State) : State :=
  if s.mode = .boot ∧ s.eraseDue ∧ s.persist.wipe = none ∧ s.persist.wipeEnd ≠ 0 ∧ s.mayBlow = true then
    let s := (s.withOtp (s.otp.blow .eraseDone)).lcRefresh.withPersist { s.persist with wipeEnd := 0 }
    ((s.withEraseDue false).put (SYS_BIST.RUN 0) 1).put SYS_MODE.BOOT_STEP 3
  else s

/-- FLASH_OP_COMPLETE (R88): the unit in progress ends, verified or not; the port takes its next work. -/
def execFlashOpComplete (e : FlashEnd) (s : State) : Res :=
  match s.unit with
  | none => .next s
  | some u =>
    let pr := s.bufferEcc u e.ecc
    .next (pr.2.unitEnd pr.1 e.ok).eraseFinish.nvmKick.lcReset

/-- HOLDUP_RETRY (R50): the check repeated every 1 ms, with the HU voltage. -/
def execHoldupRetry (hu : BitVec 16) (s : State) : Res :=
  if s.mode = .off ∧ s.shed = none then .next s
  else .next ((s.put PWR_HOLDUP_V.V hu.toNat).nvmKick.eraseFinish.lcRun.lcReset)

/-- PERSIST_PAGE (R86): a page is due. -/
def execPersistPage (s : State) : Res :=
  if s.persist.waiting = [] ∨ s.mode = .off then .next s
  else .next s.persistDue.nvmKick

end Sys2Proof.Machine
end

