-- ==== Sys2Proof/Machine/Protect.lean ====
section
/-! DEFINITION. The commands of monitors, parks and SREF outputs (15): one meaning per row. -/

namespace Sys2Proof.Machine

/-! ## Monitor actions (R281) -/

/-- Rings set in the bench mask of an executing act; R135 stops it when every ring of its start is benched, with vector 0 never
issued while it is ARMING or ARMED (R151). -/
def State.benchNow (rings : BitVec 64) (n : Nat) (s : State) : State :=
  if s.running n then s.benchRings n rings (s.issued n - 1)
  else
    let early := decide (s.actState n = 1 ∨ s.actState n = 2) && s.allBenched n rings
    let s := s.benchSet n rings
    if early then s.stopEarly n 0x05 else s

/-- Park of a ring: its members take their park state, and the ring is benched. -/
def State.monPark (s : State) (g n : Nat) : State :=
  let cs := s.ringChans g
  let s := (State.each (fun c s => s.setChan c { s.chan c with ringPark := true }) cs s).parkPpmus cs
  s.benchNow (BitVec.ofNat 64 (2 ^ g)) n

/-- Whistle ABORT for the show that started the ring's act, as it was when the monitor tripped, or the abort of that act
alone. -/
def State.monAbort (s : State) (g n : Nat) (show_ : Option Nat) : State :=
  match show_ with
  | some sh => (s.whistleCalled { wn := 0, kind := 3, show_ := sh, origin := 0, ring := g, cause := 2 }).deliver 3 sh 0 0
  | none => s.abortAct 0x0E n

/-- The actions on a ring, which its act must execute for: the park, then the whistle, each decided when the monitor trips
(R275). -/
def State.monRing (s : State) (g : Nat) (park abort : Bool) : State :=
  match s.ringAct g with
  | none => s
  | some n =>
    if s.executing n then
      let sh := (s.act n).show_
      let s := if park then s.monPark g n else s
      if abort then s.monAbort g n sh else s
    else s

/-- A window monitor trips on a side (R276, R281). -/
def State.pinTrip (s : State) (c : Nat) (high : Bool) : State :=
  let s := (s.put (PIN_STATUS.MON_DIS c) 1).setDie (c / 64) { s.die (c / 64) with monv := true }
  let s := (State.dropPpmu c s).pinEvent c 2 (c + 65536 * b2n high)
  let esc := s.fld (PIN_MON_WIN.ESC c)
  match s.ringOf c with
  | some g => s.monRing g (bitOf esc 0) (bitOf esc 1)
  | none => s

/-- MON_PIN (R276, R281): the pin has stood at `uv` microvolts long enough to be detected. -/
def execMonPin (c : Chan) (uv : Int) (s : State) : Res :=
  match s.pinSide c uv with
  | none => .next s
  | some high => if s.flag (PIN_MON_WIN.EN c) ∧ s.inService ∧ s.stage c ≠ .calbus then .next (s.pinTrip c high) else .next s

/-- Whether a SENSE monitor sees a violation now (R278-R280). -/
def State.senseActive (s : State) (m : Nat) : Bool :=
  s.flag (MON_SENSE_ACTION.EN m) && s.inService && !s.flag (MON_SENSE_ACTION.TRIPPED m) && !s.flag (MON_SENSE_BLANK.BLANKING m)

/-- A SENSE monitor at an input of `uv` microvolts, with the side that it violates: parks first, then the whistle, SREF clears
last (R275, R278, R279). -/
def State.senseTrip (s : State) (m : Nat) (uv : Int) : State :=
  match s.senseSide m uv with
  | none => s
  | some high =>
  if s.senseActive m then
    let s := (s.put (MON_SENSE_ACTION.TRIPPED m) 1).event 9 1 (m + 65536 * b2n high)
    let s := s.monRing (s.fld (MON_SENSE_ACTION.RING m)) (s.flag (MON_SENSE_ACTION.PARK m)) (s.flag (MON_SENSE_ACTION.ABORT m))
    if s.flag (MON_SENSE_ACTION.CLR m) then State.srefClear 2 (s.fld (MON_SENSE_ACTION.SREF m)) s else s
  else s

/-- MON_SENSE (R278, R279): the input has stood at `uv` microvolts long enough to be detected. -/
def execMonSense (m : Fin 32) (uv : Int) (s : State) : Res := .next (s.senseTrip m uv)

/-- SENSE_REARM (R279): a write of 1 to TRIPPED that keeps the other fields. -/
def execSenseRearm (m : Fin 32) (s : State) : Res :=
  .next (s.hostWrite (MON_SENSE_ACTION.addr m) 0x40000000 (fun s => s.put (MON_SENSE_ACTION.TRIPPED m) 0))

/-- SENSE_BLANK_EXPIRY (R280): with the input at `uv` microvolts; a violation that is present begins at the expiry. -/
def execSenseBlankExpiry (m : Fin 32) (uv : Int) (s : State) : Res :=
  if s.flag (MON_SENSE_BLANK.BLANKING m) then
    let t := Tab.get (fun _ => s.time.toNat) s.blanks m
    .next ((((s.at_ t).put (MON_SENSE_BLANK.BLANKING m) 0).withBlanks (Tab.set (fun _ => 0) s.blanks m 0)).senseTrip m uv)
  else .next s

/-! ## SREF outputs (R282, R283) -/

/-- A write of MON_SREF_CODE (R283); in CAL the outputs are held at their codes (R28; DEDUCED, notes/assumptions/36.md). -/
def State.writeSref (s : State) (m : Nat) (v : Word) : State :=
  if s.clrActive ∨ s.mode = .cal then s.put (MON_SREF_STATUS.REFUSED m) 1
  else
    let old := s.fld (MON_SREF_CODE.CODE m)
    let s := s.store (MON_SREF_CODE.addr m) v
    if s.fld (MON_SREF_CODE.CODE m) = old then s else s.srefChanged m

/-- SREF_WRITE (R283). -/
def execSrefWrite (m : Fin 32) (v : Word) (s : State) : Res :=
  .next (s.hostWrite (MON_SREF_CODE.addr m) v (fun s => s.writeSref m v))

/-- CLR_N (R283, R285, R286): ignored in OFF but for its level. -/
def execClrN (s : State) : Res :=
  let s : State := s.withPins { s.pins with clrN := false }
  if s.mode = .off then .next s else .next s.srefClearAll

/-- CLR_N_RELEASE (R286): the clear cause ends, REF_OK is released; the outputs stay. -/
def execClrNRelease (s : State) : Res := .next (s.withPins { s.pins with clrN := true })

/-! ## Parks (R285) -/

/-- PARK_N (R285): the park line of every act; executing acts abort with reason PARK. -/
def execParkN (s : State) : Res :=
  let s : State := s.withPins { s.pins with parkN := false }
  if s.mode = .off then .next s else .next ((s.abortAll 0x0F).parkPpmus (numsTo 1024))

/-- PARK_N_RELEASE (R285). -/
def execParkNRelease (s : State) : Res := .next (s.withPins { s.pins with parkN := true })

/-- A write of SYS_PARK: the selected acts are parked and abort with reason PARK (R285). -/
def State.writeSysPark (s : State) (v : Word) : State :=
  let s := s.store SYS_PARK.addr v
  State.each (fun n s => (State.abortAct 0x0F n s).parkPpmus (s.actChans n)) (bitList (s.fld SYS_PARK.ACTS) 16 0) s

/-- SYS_PARK_WRITE (R285). -/
def execSysParkWrite (v : Word) (s : State) : Res := .next (s.hostWrite SYS_PARK.addr v (fun s => s.writeSysPark v))

end Sys2Proof.Machine
end

