-- ==== Sys2Proof/Machine/SendOps.lean ====
section
/-! DEFINITION. Whistles that the host originates (17, R314-R316, R320) and the writes of the show table (R319, R323). -/

namespace Sys2Proof.Machine

/-- The RESULT with which LNK_WHISTLE_CFG refuses a whistle, 0 where it is sent (R314, R316, R320). -/
def State.sendRefuse (s : State) (kind sh t : Nat) : Nat :=
  let timed := decide (4 ≤ kind)
  if timed ∧ s.role < 2 then 2
  else if timed ∧ s.flag (LNK_SHOW_CFG.VALID sh) = false then 4
  else if kind = 4 ∧ after (s.time.toNat + 50 * usFines) t then 3
  else if kind = 4 ∧ s.flag (LNK_SHOW_CFG.RUNNING sh) = true then 1
  else if s.whistleRoom then 0 else 1

/-- A whistle of the host sent and acted on; START makes the show RUNNING (R314, R320). -/
def State.sendGo (s : State) (kind sh cue t : Nat) : State :=
  let s := if kind = 4 then (s.put (LNK_SHOW_CFG.RUNNING sh) 1).setShow sh { t := t } else s
  let s := s.whistleSend
    { wn := 0, kind := if kind = 5 then 5 else kind, show_ := sh, origin := 0, form := if kind = 5 then 2 else 0
      cue := if kind = 5 then cue else 0, ext := if 4 ≤ kind then t else 0 }
  (s.deliver kind sh t cue).showEnd sh

/-- A whistle originated by the host: RESULT stored; a refused one is not sent. -/
def State.sendWhistle (s : State) (kind sh cue t : Nat) : State :=
  if kind = 0 ∨ 5 < kind then (s.freeField LNK_WHISTLE_CFG.RESULT).disturbShow sh
  else
    let r := s.sendRefuse kind sh t
    let s := s.put LNK_WHISTLE_CFG.RESULT r
    if r = 0 then s.sendGo kind sh cue t else s

/-- A write of LNK_WHISTLE_CFG (R316, R352): the fields first, then SEND. -/
def State.writeWhistleCfg (s : State) (v : Word) : State :=
  let s := s.store LNK_WHISTLE_CFG.addr v
  if wfld v LNK_WHISTLE_CFG.SEND = 1 then
    s.sendWhistle (wfld v LNK_WHISTLE_CFG.KIND) (wfld v LNK_WHISTLE_CFG.SHOW) (wfld v LNK_WHISTLE_CFG.CUE)
      (s.pair LNK_WHISTLE_TIME_LO.addr)
  else s

/-- A write of LNK_PORT_CFG (R306, R307): ENABLED = 0 takes the port to DOWN; a HELD port goes back to TRAINING. -/
def State.writePortCfg (s : State) (p : Nat) (v : Word) : State :=
  let s := s.store (LNK_PORT_CFG.addr p) v
  if s.flag (LNK_PORT_CFG.ENABLED p) then s.portEnable p else s.portLeaves p 0 1

/-! ## The show table (R319, R323) -/

/-- Whether the entry of a show is closed: the show is RUNNING, or an act named in ACTS executes. -/
def State.showLocked (s : State) (sh : Nat) : Bool :=
  s.flag (LNK_SHOW_CFG.RUNNING sh) || (bitList (s.fld (LNK_SHOW_CFG.ACTS sh)) 16 0).any s.executing

/-- A write of LNK_SHOW_CFG or LNK_SHOW_DEV of a show. -/
def State.writeShow (s : State) (sh a : Nat) (v : Word) : State :=
  if s.showLocked sh then s.put (LNK_SHOW_CFG.CFG_REFUSED sh) 1 else s.store a v

/-- A device unbenched by the manager's host: BENCH with CLEAR, unless its last profile mismatches or it is lost. -/
def State.unbench (sh d : Nat) (s : State) : State :=
  if s.devBenched sh d = false ∨ (s.dev d).mismatch ≠ 0 ∨ (s.dev d).lost = true then s
  else
    let f := LNK_SHOW_BENCH.DEVICES sh (d / 32)
    let s := s.put f (setBit (s.fld f) (d % 32) false)
    s.sendTo d ⟨0, 0, 7, d, 0, [BitVec.ofNat 32 (sh + 256), 0]⟩

/-- A write of LNK_SHOW_BENCH[s][i]: each 1 unbenches its device. -/
def State.writeShowBench (s : State) (sh i : Nat) (v : Word) : State :=
  State.each (State.unbench sh) ((bitList v.toNat 32 0).map (fun j => 32 * i + j)) s

end Sys2Proof.Machine
end

