-- ==== Sys2Proof/Machine/RegWrite.lean ====
section
/-! DEFINITION. Reads and writes of BAR0 from any source (00 R4-R7; 20 R347-R354): the latches of register pairs and of
TDC results, the SRAM windows, and what a write of each register does. -/

namespace Sys2Proof.Machine

/-! ## Reads (R7, R66, R229, R349, R353) -/

/-- The number of a source in the keys of the latches. -/
def Src.index : Src → Nat
  | .housekeeping => 0 | .port p => 1 + p.val | .engine => 18 | .pcie => 19

/-- The latched word of an address for a source; 0 where it has made no latching read. -/
def State.latch (s : State) (src : Src) (a : Nat) : Word := Tab.get (fun _ => 0) s.latches (2 ^ 26 * Src.index src + a)

/-- A word latched. -/
def State.setLatch (s : State) (src : Src) (a : Nat) (w : Word) : State :=
  s.withLatches (Tab.set (fun _ => 0) s.latches (2 ^ 26 * Src.index src + a) w)

/-- Base addresses of the registers whose read latches the HI half behind them. -/
def loBases : List Nat :=
  [0x8, 0x10010, 0x60000, 0x60008, 0x72010, 0xC0038, 0xC2030, 0xC2040, 0xC2050, 0x100010, 0x100024, 0x100118, 0x200100,
    0x4003C0, 0x400600, 0x400710, 0x800008, 0x800010, 0x800018, 0x800020]

/-- Whether the register at a base address reads its latch: a HI half, CLK_EPOCH, a TDC result. -/
def isLatched (b : Nat) : Bool :=
  loBases.any (fun l => decide (b = l + 4)) || decide (b = 0x10018) || decide (0x400318 ≤ b ∧ b < 0x400370)

/-- What a read latches: the HI half (R7), with CLK_EPOCH after CLK_TIME_LO (R66), the results after PIN_TDC_STATUS
(R229). -/
def State.latchFor (s : State) (src : Src) (b a : Nat) : State :=
  if b = 0x10010 then (s.setLatch src (a + 4) (s.view (a + 4))).setLatch src (a + 8) (s.view (a + 8))
  else if loBases.any (fun l => decide (b = l)) then s.setLatch src (a + 4) (s.view (a + 4))
  else if b = 0x400310 then State.each (fun i s => s.setLatch src (a + 8 + 4 * i) (s.view (a + 8 + 4 * i))) (List.range 22) s
  else s

/-- A register read by a source: the word, and the state after its side effects. -/
def State.readReg (s : State) (src : Src) (a : Nat) : Word × State :=
  match regAt a with
  | none => (0, s)
  | some (r, _) =>
    if isLatched r.base then (s.latch src a, s)
    else
      let s := if r.base = 0x10030 then s.discipline else s
      let w := s.view a
      let s := s.latchFor src r.base a
      (w, if r.base = 0x20004 ∨ r.base = 0x20030 then s.takeFree else s)

/-- What reaches the housekeeping core in SAFE: the blocks of its own domain and of the interface domain, the SENSE registers to
read, as R347 has them, the SREF outputs, the mailbox and the pool; the core and PE domains are off (R12, Table 1-2). -/
def hkSafe (a : Nat) : Access :=
  if a < 0x90000 ∨ (0x91000 ≤ a ∧ a < 0xA0000) ∨ (0xF00000 ≤ a ∧ a < 0xF40000) ∨ (0x1000000 ≤ a ∧ a < 0x2000000) then .full
  else if 0x90000 ≤ a ∧ a < 0x91000 then .read
  else .none

/-- What a source may do at an address: the host's access of R347; the housekeeping core, which BOOT and SAFE do not hold back,
reaches what the domains that are on hold (R12; DEDUCED, notes/assumptions/42.md). -/
def State.accessOf (s : State) (src : Src) (a : Nat) : Access :=
  if s.mode = .off then .none
  else
    match src with
    | .housekeeping => if s.mode = .safe then hkSafe a else .full
    | _ => s.access a

/-- The SRAM window of an address: 3 mailbox, 1 shared pool, 0 private banks (the ids of Table 16-2), with its offset. -/
def sramWindow (a : Nat) : Option (Nat × Nat) :=
  if 0xF00000 ≤ a ∧ a < 0xF40000 then some (3, a - 0xF00000)
  else if 0x1000000 ≤ a ∧ a < 0x2000000 then some (1, a - 0x1000000)
  else if 0x2000000 ≤ a ∧ a < 0x4000000 then some (0, a - 0x2000000)
  else none

/-- Bytes of an SRAM array. -/
def State.sramBytes (s : State) (id o n : Nat) : List Byte :=
  match id with
  | 3 => s.mboxBytes o n
  | 1 => s.poolBytes o n
  | _ => s.bankBytes o n

/-- Bytes of an SRAM array stored. -/
def State.sramPut (s : State) (id o : Nat) (bs : List Byte) : State :=
  match id with
  | 3 => s.mboxPut o bs
  | 1 => s.poolPut o bs
  | _ => s.bankPut o bs

/-- The word at a BAR0 address as a source reads it. -/
def State.busRead (s : State) (src : Src) (a : Nat) : Word × State :=
  match s.accessOf src a with
  | .none => (0, s)
  | _ =>
    match sramWindow a with
    | some (id, o) => (BitVec.ofNat 32 (leNat (s.sramBytes id o 4)), s)
    | none => s.readReg src a

/-- `n` words read in ascending order. -/
def State.busReads (src : Src) : Nat → Nat → State → List Word × State
  | 0, _, s => ([], s)
  | n + 1, a, s =>
    let pr := s.busRead src a
    let w := pr.1
    let s := pr.2
    let pr := State.busReads src n (a + 4) s
    let ws := pr.1
    let s := pr.2
    (w :: ws, s)

/-- The window of an address where the mode opens it to a source. -/
def State.windowOpen (s : State) (src : Src) (a : Nat) : Option (Nat × Nat) :=
  if s.accessOf src a = .none then none else sramWindow a

/-- What the ECC finds on a read of `n` words of a window (R291, Table 16-2). -/
def State.windowEcc (s : State) (src : Src) (a n : Nat) (ecc : Ecc) : State :=
  match s.windowOpen src a with
  | none => s
  | some (id, o) => if id = 1 then s.poolEcc o (4 * n) ecc else s.sramEcc id o (4 * n) ecc

/-! ## Guards on writes -/

/-- A register of a channel that a running act closes: the write is ignored, PIN_STATUS.CFG_REFUSED (R96, R131). -/
def State.pinGuard (s : State) (c : Nat) (k : State → State) : State :=
  if s.chanExecuting c then s.put (PIN_STATUS.CFG_REFUSED c) 1 else k s

/-- A register of a channel whose write under a running act is a host error (R96, R131). -/
def State.pinError (s : State) (c a : Nat) (k : State → State) : State :=
  if s.chanExecuting c then s.errWrite a k else k s

/-- A register of a member of a ring: refused while the ring's act executes (R197). -/
def State.trkGuard (s : State) (c : Nat) (k : State → State) : State :=
  match s.ringOf c with
  | some g => s.ringGuard g k
  | none => k s

/-- SEQ_RING_MASK and SEQ_BLOCK_TABLE: refused while the act executes. -/
def State.seqGuard (s : State) (n : Nat) (k : State → State) : State :=
  if s.executing n then s.put (SEQ_STATUS.CFG_REFUSED n) 1 else k s

/-- Registers of an armed trigger unit: refused with REASON CFG (R251). -/
def State.trigGuard (s : State) (k : Nat) (f : State → State) : State :=
  if s.flag (ACQ_TRIG_STATUS.ARMED k) then (s.put (ACQ_TRIG_STATUS.REFUSED k) 1).put (ACQ_TRIG_STATUS.REASON k) 3 else f s

/-- Registers of an enabled stream, all but CTRL, SRC and HOST_RD: refused (R251). -/
def State.streamGuard (s : State) (i : Nat) (k : State → State) : State :=
  if s.streamOn i then s.put (ACQ_STREAM_STATUS.CFG_REFUSED i) 1 else k s

/-! ## Writes by block -/

/-- SYS, CLK, PWR, NVM and LC: base address, address, word. -/
def State.writeLow (s : State) (b a : Nat) (v : Word) : State :=
  match b with
  | 0x14 => s.writeModeReq v
  | 0x80 => s.writeSysPark v
  | 0x88 => if wbit v 0 then s.bdIrq 3 else s
  | 0x10000 => s.writeRootCfg v
  | 0x10030 =>
    let s := s.discipline
    if wbit v 31 then s.store a (BitVec.ofNat 32 (2 ^ 31 + (s.reg a).toNat % 65536)) else s.store a v
  | 0x20010 => s.store a (BitVec.ofNat 32 (max 12000 v.toNat))
  | 0x20024 =>
    if v.toNat / 256 % 16 = 0 ∨ v.toNat % 256 < 40 ∨ 139 < v.toNat % 256 then s.takeFree.setReg a (BitVec.ofNat 32 (s.free.toNat % 4096))
    else s.store a v
  | 0x30008 => s.writeNvmCmd v
  | 0x40004 => s.writeLcReq v
  | 0x4000C => s.writeLcDebug v
  | _ => s.store a v

/-- HOST, MSI-X and LNK; `i` and `j` are the register's indices. -/
def State.writeHostLnk (s : State) (b a i j : Nat) (v : Word) : State :=
  match b with
  | 0x60000 | 0x60004 | 0x60008 | 0x6000C => s.writeQBase i a v
  | 0x60010 => s.writeQCfg i v
  | 0x60014 => s.writeSqTail i v
  | 0x6001C => s.writeCqHead i v
  | 0x60804 => s.writeTimeout HOST_TIMEOUT.TIMEOUT v
  | 0x61000 => s.writeMsix a v
  | 0x70020 => s.writePortCfg i v
  | 0x72004 => s.writeWhistleCfg v
  | 0x72008 => s.writeTimeout LNK_TIMEOUT.TIMEOUT v
  | 0x74000 => s.writeShow i a v
  | 0x74004 | 0x74024 => s.writeShow i a v
  | 0x74040 => s.writeShowBench i j v
  | 0x74060 => s.writeShowBench i 8 v
  | _ => s.store a v

/-- MEM, MON, CAL, RQ and ACQ. -/
def State.writeMid (s : State) (b a i : Nat) (v : Word) : State :=
  match b with
  | 0x80100 => s.writePart i false v
  | 0x80104 => s.writePart i true v
  | 0x90010 => s.writeSenseMeas i v
  | 0x91000 => s.writeSref i v
  | 0x91008 => s.writeSrefStatus i v
  | 0xB0000 => s.writeRqCtrl v
  | 0xB0008 => s.writeRqFinalize v
  | 0xB0020 => s.writeRqDescSel v .clean
  | 0xB0040 => s.writeRqType i v
  | 0xB0100 => s.writeRqMapCfg i v
  | 0xB0104 | 0xB0108 | 0xB010C => s.writeRqMap i a v
  | 0xC0000 => s.writeTrigCtrl i v
  | 0xC0008 | 0xC0010 | 0xC0014 | 0xC4000 => s.trigGuard i (fun s => s.store a v)
  | 0xC2000 => s.writeStreamCtrl i v
  | 0xC2008 | 0xC200C | 0xC2010 | 0xC2014 | 0xC2018 | 0xC201C | 0xC2024 | 0xC2028 | 0xC2030 | 0xC2034 | 0xC2038 | 0xC2040
  | 0xC2044 | 0xC2048 | 0xC204C | 0xC2050 | 0xC2054 | 0xC2058 | 0xC2080 => s.streamGuard i (fun s => s.store a v)
  | _ => s.store a v

/-- A live APG value takes the host's word; where the act does not execute, reads show the register again (R352, Table
8-18); bit 0 X, 1 Y, 2 Z, 3 DATA_LO, 4 DATA_HI. -/
def State.writeApg (s : State) (n bit a : Nat) (v : Word) : State :=
  let s := s.store a v
  let x := s.act n
  let w := (s.reg a).toNat
  let x : ActSt := { x with live := if s.executing n then x.live else BitVec.ofNat 5 (setBit x.live.toNat bit false) }
  s.setAct n (match bit with
    | 0 => { x with x := w }
    | 1 => { x with y := w }
    | 2 => { x with z := bitsOf w 0 (APG_Z.VALUE n).len }
    | 3 => { x with data := x.data / 2 ^ 32 * 2 ^ 32 + w }
    | _ => { x with data := x.data % 2 ^ 32 + 2 ^ 32 * w })

/-- SEQ and TMG. -/
def State.writeSeq (s : State) (b a n : Nat) (v : Word) : State :=
  match b with
  | 0x100000 => s.writeSeqCtrl n v
  | 0x100020 => s.writeCbMask n v
  | 0x100024 | 0x100028 | 0x100030 => s.seqGuard n (fun s => s.store a v)
  | 0x100100 => s.writeApg n 0 a v
  | 0x100104 => s.writeApg n 1 a v
  | 0x100110 => s.writeApg n 2 a v
  | 0x100118 => s.writeApg n 3 a v
  | 0x10011C => s.writeApg n 4 a v
  | 0x200000 => if s.executing n then s.put (TMG_CHECK.MODE_REFUSED n) 1 else s.store a v
  | 0x200100 | 0x200104 =>
    if s.executing n then s.errWrite a (fun s => s.store a v) else s.store a v
  | _ => s.store a v

/-- PIN. -/
def State.writePin (s : State) (b a c : Nat) (v : Word) : State :=
  match b with
  | 0x400000 | 0x400200 | 0x400204 | 0x400208 => s.pinGuard c (fun s => s.store a v)
  | 0x400100 | 0x400104 | 0x400220 | 0x400800 => s.pinError c a (fun s => s.store a v)
  | 0x400004 => s.writePinStatus c v
  | 0x400300 => s.writeTdcCfg c v
  | 0x400304 => s.writeTdcMeas c v
  | 0x400400 => s.writePpmuCfg c v
  | 0x400610 | 0x400614 => s.trkGuard c (fun s => s.store a v)
  | _ => s.store a v

/-- FAIL. -/
def State.writeFail (s : State) (b a g i : Nat) (v : Word) : State :=
  match b with
  | 0x800030 | 0x800034 | 0x80003C | 0x800044 | 0x800048 | 0x80004C => s.ringGuard g (fun s => s.store a v)
  | 0x800050 => s.writeTileCfg g v
  | 0x800100 => s.writeRingCh g i v
  | _ => s.store a v

/-- What a write of the register at base `b` with indices `ix` does. -/
def State.writeReg (s : State) (b a : Nat) (ix : List Nat) (v : Word) : State :=
  let i := ix.getD 0 0
  let j := ix.getD 1 0
  if b < 0x60000 then s.writeLow b a v
  else if b < 0x80000 then s.writeHostLnk b a i j v
  else if b < 0x100000 then s.writeMid b a i v
  else if b < 0x400000 then s.writeSeq b a i v
  else if b < 0x800000 then s.writePin b a i v
  else s.writeFail b a i j v

/-! ## Writes -/

/-- Bytes replaced where their byte enable is set. -/
def mergeBe (be : BitVec 4) (old new : List Byte) : List Byte :=
  (List.range 4).map (fun i => if bitOf be.toNat i then new.getD i 0 else old.getD i 0)

/-- A write into an SRAM window (R325). Into an executing half it is a host error: the word and the act are left free (R138). -/
def State.windowWrite (s : State) (id o : Nat) (v : Word) (be : BitVec 4) : State :=
  if id = 0 ∧ s.halfExecuting (o / 0x200000) (o / 0x100000 % 2) = true then
    let pr := State.freeBytes 4 s
    (pr.2.sramPut id o pr.1).disturbAct (o / 0x200000)
  else s.sramPut id o (mergeBe be (s.sramBytes id o 4) (leBytes 4 v.toNat))

/-- A write of a word at a BAR0 address by a source (R347-R349). -/
def State.busWrite (s : State) (src : Src) (a : Nat) (v : Word) (be : BitVec 4) : State :=
  match s.accessOf src a with
  | .full =>
    (match sramWindow a with
     | some (id, o) => s.windowWrite id o v be
     | none =>
       match regAt a with
       | none => s
       | some (r, ix) =>
         if be ≠ 0xF then s
         else if reservedBits a v ≠ 0 then s.errWrite a (fun s => s.writeReg r.base a ix v)
         else s.writeReg r.base a ix v)
  | _ => s

/-- Words written in ascending order. -/
def State.busWrites (src : Src) : Nat → List Word → State → State
  | _, [], s => s
  | a, w :: ws, s => State.busWrites src (a + 4) ws (s.busWrite src a w 0xF)

/-! ## Rows -/

/-- TDC_STATUS_READ (R229). -/
def execTdcStatusRead (src : Src) (c : Chan) (s : State) : Res :=
  if s.mode = .off then .next s
  else
    let pr := s.busRead src (PIN_TDC_STATUS.addr c)
    let w := pr.1
    let s := pr.2
    .next (s.answer (leBytes 4 w.toNat) false)

/-- LO_READ (R7, R66): a read of any BAR0 word, with its latches (R353). -/
def execLoRead (src : Src) (a : BitVec 26) (ecc : Ecc) (s : State) : Res :=
  if s.mode = .off ∨ a.toNat % 4 ≠ 0 then .next s
  else
    let pr := s.busRead src a.toNat
    let w := pr.1
    let s := pr.2
    let win := (s.windowOpen src a.toNat).isSome
    .next ((s.windowEcc src a.toNat 1 ecc).answer (leBytes 4 w.toNat) (win && decide (ecc = .ue)))

/-- REGISTER_WRITE (R5, R349). -/
def execRegisterWrite (src : Src) (a : BitVec 26) (v : Word) (be : BitVec 4) (s : State) : Res :=
  if a.toNat % 4 ≠ 0 then .next s else .next (s.busWrite src a.toNat v be)

end Sys2Proof.Machine
end

