-- ==== Sys2Proof/Machine/Link.lean ====
section
/-! DEFINITION. The commands of the Brodjo link (17, R302-R323): one meaning per row. -/

namespace Sys2Proof.Machine

/-! ## Ports (R303, R306-R309) -/

/-- The device index taken from the upstream partner's CHILD when UP first reaches ACTIVE (R303). -/
def State.assignIndex (s : State) (w : BitVec 56) : State :=
  if s.flag SYS_DEVIDX.VALID then s
  else (s.put SYS_DEVIDX.INDEX (bitsOf w.toNat 27 9)).put SYS_DEVIDX.VALID 1

/-- The unacknowledged frames of a port sent again, in order; each counts in REPLAYS. -/
def State.resend (s : State) (p : Nat) (f : Unacked → Unacked) : State :=
  let q := s.port p
  let s := s.put (LNK_RETRY_COUNT.REPLAYS p) (min 65535 (s.fld (LNK_RETRY_COUNT.REPLAYS p) + q.unacked.length))
  s.setPort p { q with unacked := q.unacked.map f, sent := q.sent ++ q.unacked.map (fun u => .frame u.frame) }

/-- A port becomes ACTIVE: credits granted, unacknowledged frames replayed with a fresh retry budget, waiting frames sent;
on the UP port the index, the sync state and the join profile (R303, R308, R309, R71, R321). In HOLDOVER the sync state
waits for SOURCE_VALID_AGAIN (DESIGN CHOICE, notes/assumptions/35.md). -/
def State.portUp (s : State) (p : Nat) (phy : BitVec 16) (w : BitVec 56) : State :=
  let s := ((s.storeBarker p w).put (LNK_DELAY_ASYM.PHY p) phy.toNat).setPortState p 2 0
  let q := s.port p
  let rsp := (q.unacked.filter (fun u => frameIsRsp u.frame.ftype)).length
  let s := s.setPort p { q with nak := false, credReq := 64 - (q.unacked.length - rsp), credRsp := 64 - rsp }
  let s := s.resend p (fun u => { u with retries := 0, first := s.time.toNat, last := s.time.toNat })
  let s := if p = 0 then
      let s := s.assignIndex w
      (if s.syncState = 4 then s else s.acquire).sendJoin
    else s
  State.flushFrames p (s.port p).waiting.length s

/-- LINK_ACTIVE (R58, R306): the ROOT_MHZ of the partner's IDLE blocks is compared, then the role check decides on its
barker. -/
def execLinkActive (p : Port) (res : TrainResult) (s : State) : Res :=
  if s.fld (LNK_STATUS.STATE p) = 1 ∨ s.fld (LNK_STATUS.STATE p) = 3 then
    match res with
    | .ready phy root w =>
      let r := bitsOf w.toNat 21 2
      if root.toNat ≠ s.fld CLK_ROOT_CFG.ROOT_MHZ then .next (s.portHold p 2)
      else if s.roleAllowed p r ∧ r = s.fld (LNK_PORT_CFG.EXP_ROLE p) then .next (s.portUp p phy w) else .next (s.portHold p 3)
    | .rate => .next (s.portHold p 2)
    | .role => .next (s.portHold p 3)
  else .next s

/-- RETRAIN (R306, R307). -/
def execRetrain (p : Port) (s : State) : Res := .next (s.portRetrain p)

/-- LNK_PORT_CFG_WRITE (R306, R307). -/
def execLnkPortCfgWrite (p : Port) (v : Word) (s : State) : Res := .next (s.busWrite .pcie (LNK_PORT_CFG.addr p) v 0xF)

/-- PARTNER_RATE_CHANGE (R306): a HELD port goes back to TRAINING. -/
def execPartnerRateChange (p : Port) (s : State) : Res :=
  if s.fld (LNK_STATUS.STATE p) = 4 then .next (s.setPortState p 1 0) else .next s

/-! ## Barkers (R311, R312) -/

/-- BARKER_SEND (R311): by each side of an ACTIVE or TRAINING port. -/
def execBarkerSend (p : Port) (s : State) : Res :=
  if s.fld (LNK_STATUS.STATE p) = 1 ∨ s.portActive p = true then
    let q := s.port p
    .next (s.setPort p { q with sent := q.sent ++ [.barker (s.barkerWord p)], bcnt := (q.bcnt + 1) % 256 })
  else .next s

/-- BARKER (R311, R312, R303). -/
def execBarker (p : Port) (w : BitVec 56) (s : State) : Res :=
  if s.portActive p then
    let s := s.storeBarker p w
    if p.val = 0 then .next (s.assignIndex w).upBarker else .next (s.downBarker p)
  else if s.fld (LNK_STATUS.STATE p) = 1 then
    let there := (s.port p).there
    let s := s.storeBarker p w
    .next (s.setPort p { s.port p with there := there })
  else .next s

/-- PARTNER_LOST (R312): no valid barker for 4 µs on an ACTIVE port. -/
def execPartnerLost (p : Port) (s : State) : Res := if s.portActive p then .next (s.partnerLost p) else .next s

/-! ## Acknowledgement and replay (R308) -/

/-- A replay, or, after 8 retries or 4 µs of the oldest frame, LNK_RETRY_EXHAUSTED and RETRAIN. -/
def State.replay (s : State) (p : Nat) : State :=
  match (s.port p).unacked with
  | [] => s
  | u :: _ =>
    if 8 ≤ u.retries ∨ s.past (u.first + 4 * usFines) then
      ((s.bump (LNK_RETRY_COUNT.EXHAUSTED p)).event 7 2).portRetrain p
    else s.resend p (fun u => { u with retries := u.retries + 1, last := s.time.toNat })

/-- Whether an ACK block releases a frame: ACK_SEQ is the last one accepted; in a NAK, the one expected next. -/
def ackReleases (ack : Nat) (nak : Bool) (seq : Nat) : Bool :=
  let d := (ack + 65536 - seq) % 65536
  if nak then decide (0 < d ∧ d ≤ 32768) else decide (d < 32768)

/-- ACK (R308, R309): frames released, credits returned, waiting frames sent; a NAK replays. -/
def execAck (p : Port) (seq : BitVec 16) (nak : Bool) (req rsp : BitVec 8) (s : State) : Res :=
  if s.portActive p then
    let q := s.port p
    let s := s.setPort p { q with
      unacked := q.unacked.filter (fun u => !ackReleases seq.toNat nak u.frame.seq)
      credReq := min 64 (q.credReq + req.toNat), credRsp := min 64 (q.credRsp + rsp.toNat) }
    let s := if nak then s.replay p else s
    .next (State.flushFrames p (s.port p).waiting.length s)
  else .next s

/-- REPLAY_TIMEOUT (R308): the oldest frame has gone 500 ns without an ACK. -/
def execReplayTimeout (p : Port) (s : State) : Res :=
  match (s.port p).unacked with
  | [] => .next s
  | u :: _ => if s.portActive p then .next ((s.at_ (u.last + 3276800)).replay p) else .next s

/-- The completion of a request at whoever made it: a host command finishes; a relay passes the reply back, with the SRC of the
module that replied. In D3hot the words of a REMOTE_READ wait for D0 (R327; DEDUCED, notes/assumptions/21.md). -/
def State.replyTo (s : State) (x : TagSt) (from_ status : Nat) (words : List Word) : State :=
  match x.who with
  | .port p tag src =>
    s.sendFrame p ⟨0, tag, if x.wr then 3 else 2, src, from_, BitVec.ofNat 32 status :: 0 :: words⟩
  | .cmd q id =>
    if status = 1 then s.finish q id 9 0
    else if status = 2 then s.finish q id 0x0A 0
    else if s.d3hot ∧ x.wr = false then s.setQueue q { s.queue q with owed := (s.queue q).owed ++ [(id, words)] }
    else
      let s := match (s.running_ q).find? (fun c => decide (c.id.toNat = id)) with
        | some c => if x.wr then s else s.hostPut (argOf c 3) (wordBytes words)
        | none => s
      s.finish q id 0 0

/-- LNK_TIMEOUT (R310). -/
def execLnkTimeout (p : Port) (tag : BitVec 8) (s : State) : Res :=
  match (s.port p).tags.find? (fun x => decide (x.tag = tag.toNat)) with
  | none => .next s
  | some x =>
    let lim := usFines * s.fld LNK_TIMEOUT.TIMEOUT
    let s := s.at_ (x.time + lim)
    let q := s.port p
    let s := s.setPort p { q with
      tags := q.tags.filter (fun y => decide (y.tag ≠ x.tag))
      retired := s.retiredTags p ++ [(x.tag, s.time.toNat + 2 * lim)] }
    .next (((s.event 7 4 p x.tag).replyTo x (s.devIndex % 512) 1 []).tagFreed p)

/-! ## Received frames (R308) -/

/-- What the port does with a frame: `k` where it is accepted, which is acknowledged and gives its buffer back. -/
def State.receive (s : State) (p : Port) (h : FrameHdr) (rsp : Bool) (k : State → State) : State :=
  if s.portActive p ∧ s.mode ≠ .safe then
    let q := s.port p
    let d := (h.seq.toNat + 65536 - q.rx) % 65536
    if h.crcOk ∧ d = 0 then
      k (s.setPort p { q with
        rx := (q.rx + 1) % 65536, nak := false
        sent := q.sent ++ [.ack h.seq.toNat false (if rsp then 0 else 1) (if rsp then 1 else 0)] })
    else if h.crcOk ∧ 32768 ≤ d then
      s.setPort p { q with sent := q.sent ++ [.ack ((q.rx + 65535) % 65536) false 0 0] }
    else if q.nak then s
    else s.setPort p { q with nak := true, sent := q.sent ++ [.ack q.rx true 0 0] }
  else s

/-- Whether a frame is for this module: its DEST is the index that it has been given (R303, R308). -/
def State.forMe (s : State) (h : FrameHdr) : Bool := s.flag SYS_DEVIDX.VALID && decide (h.dest.toNat = s.fld SYS_DEVIDX.INDEX)

/-- The port a frame that came on `p` goes on by, if any (R308). -/
def State.onward (s : State) (p : Port) (h : FrameHdr) : Option Nat :=
  match s.routeTo h.dest.toNat with
  | some o => if o = p.val then none else some o
  | none => none

/-- A frame without a reply passed on unchanged. -/
def State.passOn (s : State) (p : Port) (h : FrameHdr) (ftype : Nat) (data : List Word) : State :=
  match s.onward p h with
  | some o => s.sendFrame o ⟨0, h.tag.toNat, ftype, h.dest.toNat, h.src.toNat, data⟩
  | none => s.event 7 3

/-- A request passed on with a tag of the outgoing port. -/
def State.passReq (s : State) (p : Port) (h : FrameHdr) (wr : Bool) (data : List Word) : State :=
  match s.onward p h with
  | some o =>
    s.request o ⟨.port p h.tag.toNat h.src.toNat, wr, ⟨0, 0, b2n wr, h.dest.toNat, h.src.toNat, data⟩⟩
  | none => s.event 7 3

/-- Whether a remote access is of words that BAR0 has: an aligned address, 1 to 64 words, inside BAR0. -/
def remoteOk (a n : Nat) : Bool := decide (a % 4 = 0 ∧ 1 ≤ n ∧ n ≤ 64 ∧ a + 4 * n ≤ 67108864)

/-- The words of a read, free ones where the ECC finds an uncorrectable error in a window. -/
def State.readWords (s : State) (src : Src) (a n : Nat) (ecc : Ecc) : List Word × State :=
  let bad := decide (ecc = .ue) && (s.windowOpen src a).isSome
  let pr := State.busReads src n a s
  let ws := pr.1
  let s := pr.2
  let s := s.windowEcc src a n ecc
  if bad then
    let pr := State.freeBytes (4 * n) s
    let bs := pr.1
    let s := pr.2
    (bytesWords n bs, s)
  else (ws, s)

/-- A reply sent back on the port its request came by. -/
def State.answerFrame (s : State) (p : Port) (h : FrameHdr) (ftype status : Nat) (words : List Word) : State :=
  s.sendFrame p ⟨0, h.tag.toNat, ftype, h.src.toNat, s.devIndex % 512, BitVec.ofNat 32 status :: 0 :: words⟩

/-- RD_REQ (R308): passed on, or carried out as BAR0 reads. -/
def execRdReq (p : Port) (h : FrameHdr) (a count : Word) (ecc : Ecc) (s : State) : Res :=
  .next (s.receive p h false (fun s =>
    if s.forMe h then
      if remoteOk a.toNat count.toNat then
        let pr := s.readWords (.port p) a.toNat count.toNat ecc
        let ws := pr.1
        let s := pr.2
        s.answerFrame p h 2 0 ws
      else s.answerFrame p h 2 2 []
    else s.passReq p h false [a, count]))

/-- WR_REQ (R308): passed on, or carried out as BAR0 writes. -/
def execWrReq (p : Port) (h : FrameHdr) (a : Word) (words : List Word) (s : State) : Res :=
  .next (s.receive p h false (fun s =>
    if s.forMe h then
      if remoteOk a.toNat words.length then
        (State.busWrites (.port p) a.toNat words s).answerFrame p h 3 0 []
      else s.answerFrame p h 3 2 []
    else s.passReq p h true (a :: BitVec.ofNat 32 words.length :: words)))

/-- A reply taken: it completes the request of its tag; one for a retired tag is counted (R310). -/
def State.takeReply (s : State) (p : Port) (h : FrameHdr) (wr : Bool) (status : Word) (words : List Word) : State :=
  let q := s.port p
  match q.tags.find? (fun x => decide (x.tag = h.tag.toNat ∧ x.wr = wr)) with
  | some x =>
    ((s.setPort p { q with tags := q.tags.filter (fun y => decide (y.tag ≠ x.tag)) }).replyTo x h.src.toNat status.toNat words).tagFreed p
  | none =>
    if (s.retiredTags p).any (fun x => decide (x.1 = h.tag.toNat)) then s.bump (LNK_RETRY_COUNT.LATE_RSP p) else s

/-- RD_RSP (R310). -/
def execRdRsp (p : Port) (h : FrameHdr) (status : Word) (words : List Word) (s : State) : Res :=
  .next (s.receive p h true (fun s => s.takeReply p h false status words))

/-- WR_RSP (R310). -/
def execWrRsp (p : Port) (h : FrameHdr) (status : Word) (s : State) : Res :=
  .next (s.receive p h true (fun s => s.takeReply p h true status []))

/-! ## Frames to the manager (R320-R322, R335) -/

/-- What an event record of another device tells the manager: LNK_PARTNER_LOST of a relay's DN port loses the worker
there (R312), START_LATE of a member is a disagreement (R322). -/
def State.recordTells (s : State) (r : EvtRec) : State :=
  let w2 := (r.getD 2 0).toNat
  let d := bitsOf w2 22 10
  let src := bitsOf w2 16 6
  let code := w2 % 65536
  let p := (r.getD 4 0).toNat
  if src = 7 ∧ code = 5 ∧ 1 ≤ d ∧ d ≤ 16 ∧ 1 ≤ p ∧ p ≤ 16 then s.deviceLost (17 + 16 * (d - 1) + (p - 1))
  else if 16 ≤ src ∧ src < 32 ∧ code = 4 then s.disagreeAll d
  else s

/-- EVENT_FRAME (R335, R312): journaled unchanged by the manager, passed on by a relay. -/
def execEventFrame (p : Port) (h : FrameHdr) (rec : List Word) (s : State) : Res :=
  .next (s.receive p h false (fun s =>
    if s.forMe h then (if s.role = 2 ∧ rec.length = 8 then (s.journal rec).recordTells rec else s) else s.passOn p h 4 rec))

/-- The profile of the partner on a port stored (Table 17-15). -/
def State.storeProfile (s : State) (p d : Nat) (ws : List Word) : State :=
  if p ≠ 0 ∧ d = s.partnerDev p then
    State.each (fun i s => s.setReg (LNK_PROFILE.addr p i) (ws.getD i 0)) (List.range 4) s
  else s

/-- JOIN (R321). -/
def execJoin (p : Port) (h : FrameHdr) (profile : List Word) (s : State) : Res :=
  .next (s.receive p h false (fun s =>
    let s := s.storeProfile p h.src.toNat profile
    if s.forMe h then (if s.role = 2 then s.takeJoin h.src.toNat (profile.take 4) else s) else s.passOn p h 5 profile))

/-- JOIN_SEND (R321). -/
def execJoinSend (s : State) : Res := .next s.sendJoin

/-- A member's report taken by the manager (R320). -/
def State.takeReport (s : State) (d sh act state : Nat) : State :=
  let x := s.show_ sh
  let s := s.setShow sh { x with
    acts := Tab.set (fun _ => 0) x.acts (16 * d + act) (state + 1)
    ran := if state = 3 ∧ d ∉ x.ran then x.ran ++ [d] else x.ran }
  s.showEnd sh

/-- SHOW_REPORT (R320). -/
def execShowReport (p : Port) (h : FrameHdr) (sh : ShowId) (act : Act) (state reason : BitVec 8) (cycle t : BitVec 64)
    (s : State) : Res :=
  .next (s.receive p h false (fun s =>
    if s.forMe h then (if s.role = 2 then s.takeReport h.src.toNat sh act state.toNat else s)
    else s.passOn p h 6
      [BitVec.ofNat 32 (sh.val + 256 * act.val + 65536 * state.toNat + 16777216 * reason.toNat),
       BitVec.ofNat 32 cycle.toNat, BitVec.ofNat 32 (cycle.toNat / 2 ^ 32), BitVec.ofNat 32 t.toNat,
       BitVec.ofNat 32 (t.toNat / 2 ^ 32)]))

/-- SHOW_RUN_TIMEOUT (R322): members that have not reported an act RUNNING 10 µs after t disagree. -/
def execShowRunTimeout (sh : ShowId) (s : State) : Res :=
  if s.role = 2 ∧ s.flag (LNK_SHOW_CFG.RUNNING sh) = true then
    let s := s.at_ ((s.show_ sh).t + 10 * usFines)
    let late := (s.showDevs sh).filter (fun d => decide (d ∉ (s.show_ sh).ran) && !s.devBenched sh d)
    .next (State.each (fun d s => s.disagree sh d) late s)
  else .next s

/-! ## Benching (R323) -/

/-- The module's bench from a show set, with every ring of every executing act in ACTS, or cleared. -/
def State.takeBench (s : State) (sh : Nat) (clear : Bool) : State :=
  if clear then s.put (LNK_SHOW_CFG.BENCHED sh) 0
  else
    let s := s.put (LNK_SHOW_CFG.BENCHED sh) 1
    State.each (fun n s => if s.executing n then State.benchNow (BitVec.ofNat 64 (s.ringMask n)) n s else s)
      (bitList (s.fld (LNK_SHOW_CFG.ACTS sh)) 16 0) s

/-- BENCH (R323). -/
def execBench (p : Port) (h : FrameHdr) (sh : ShowId) (clear : Bool) (s : State) : Res :=
  .next (s.receive p h false (fun s =>
    if s.forMe h then s.takeBench sh clear
    else s.passOn p h 7 [BitVec.ofNat 32 (sh.val + 256 * b2n clear), 0]))

/-- SHOW_UNBENCH (R323). -/
def execShowUnbench (sh : ShowId) (i : Fin 9) (v : Word) (s : State) : Res :=
  .next (s.busWrite .pcie (LNK_SHOW_BENCH.addr sh i) v 0xF)

/-! ## Whistles (R313-R316) -/

/-- Whether a routed whistle repeats the last one taken from its origin within 1 ms (R314). -/
def State.whistleDup (s : State) (w : WhistleIn) : Bool :=
  match Tab.get (fun _ => none) s.whistles.last w.origin.toNat with
  | some (wn, t) => decide (wn = w.wn.toNat) && !s.past (t + msFines)
  | none => false

/-- A routed whistle received (R313-R315): taken where two copies agree and it is no duplicate, passed on by a relay or
manager, delivered to the acts of its show. -/
def State.takeWhistle (s : State) (p : Port) (w : WhistleIn) (kind cue t : Nat) : State :=
  if s.portActive p = false then s
  else if w.copies = false then s.bump (LNK_RETRY_COUNT.WHISTLE_BAD p)
  else if s.whistleDup w then s
  else
    let s : State := s.withWhistles { s.whistles with
      last := Tab.set (fun _ => none) s.whistles.last w.origin.toNat (some (w.wn.toNat, s.time.toNat)) }
    let out : Whistle :=
      { wn := w.wn.toNat, kind := kind, show_ := w.sh, origin := w.origin.toNat, form := if kind = 5 then 2 else 0
        ring := w.ring.toNat, cause := w.cause.toNat, cue := cue, ext := t }
    let s := if s.role = 1 ∨ s.role = 2 then s.whistleOn out ((List.range 17).filter (fun o => decide (o ≠ p.val))) else s
    s.deliver kind w.sh t cue

/-- STOP_WHISTLE (R315, R150). -/
def execStopWhistle (p : Port) (w : WhistleIn) (s : State) : Res := .next (s.takeWhistle p w 1 0 0)

/-- PARK_WHISTLE (R315). -/
def execParkWhistle (p : Port) (w : WhistleIn) (s : State) : Res := .next (s.takeWhistle p w 2 0 0)

/-- ABORT_WHISTLE (R315). -/
def execAbortWhistle (p : Port) (w : WhistleIn) (s : State) : Res := .next (s.takeWhistle p w 3 0 0)

/-- START_WHISTLE (R315, R148). -/
def execStartWhistle (p : Port) (w : WhistleIn) (t : BitVec 64) (s : State) : Res := .next (s.takeWhistle p w 4 0 t.toNat)

/-- CUE_WHISTLE (R315, R173). -/
def execCueWhistle (p : Port) (w : WhistleIn) (cue : BitVec 8) (t : BitVec 64) (s : State) : Res :=
  .next (s.takeWhistle p w 5 cue.toNat t.toNat)

/-- WHISTLE_WINDOW (R314): the oldest whistle that waits enters the ports once the 1 ms window allows it. -/
def execWhistleWindow (s : State) : Res :=
  match s.whistles.waiting with
  | [] => .next s
  | w :: ws =>
    let s := match s.whistleTimes.head? with
      | some t => if s.whistleRoom then s else s.at_ (t + msFines)
      | none => s
    .next ((s.withWhistles { s.whistles with waiting := ws }).whistleSend w)

/-- The word of LNK_WHISTLE_CFG that sends a whistle. -/
def sendWord (kind sh cue : Nat) : Word := BitVec.ofNat 32 (2 ^ 31 + 2 ^ 28 * kind + 65536 * sh + 256 * cue)

/-- SEND_STOP (R316). -/
def execSendStop (sh : ShowId) (s : State) : Res := .next (s.busWrite .pcie LNK_WHISTLE_CFG.addr (sendWord 1 sh 0) 0xF)

/-- SEND_PARK (R316). -/
def execSendPark (sh : ShowId) (s : State) : Res := .next (s.busWrite .pcie LNK_WHISTLE_CFG.addr (sendWord 2 sh 0) 0xF)

/-- SEND_ABORT (R316). -/
def execSendAbort (sh : ShowId) (s : State) : Res := .next (s.busWrite .pcie LNK_WHISTLE_CFG.addr (sendWord 3 sh 0) 0xF)

/-- SEND_START (R320). -/
def execSendStart (sh : ShowId) (s : State) : Res := .next (s.busWrite .pcie LNK_WHISTLE_CFG.addr (sendWord 4 sh 0) 0xF)

/-- SEND_CUE (R320). -/
def execSendCue (sh : ShowId) (cue : BitVec 8) (s : State) : Res :=
  .next (s.busWrite .pcie LNK_WHISTLE_CFG.addr (sendWord 5 sh cue.toNat) 0xF)

end Sys2Proof.Machine
end

