-- ==== Sys2Proof/Machine/Host.lean ====
section
/-! DEFINITION. The commands of the host interface (18, R324-R335; 19, R343-R345): queue registers, fetching and completing,
and the effect of each host command; one meaning per row. -/

namespace Sys2Proof.Machine

/-! ## Queues (R328-R331) -/

/-- QUEUE_ENABLE (Table 18-12). -/
def execQueueEnable (q : Queue) (v : Word) (s : State) : Res := .next (s.busWrite .pcie (HOST_Q_CFG.addr q) v 0xF)

/-- QUEUE_DISABLE (Table 18-12). -/
def execQueueDisable (q : Queue) (v : Word) (s : State) : Res := .next (s.busWrite .pcie (HOST_Q_CFG.addr q) v 0xF)

/-- SQ_DOORBELL (R328). -/
def execSqDoorbell (q : Queue) (v : Word) (s : State) : Res := .next (s.busWrite .pcie (HOST_Q_SQ_TAIL.addr q) v 0xF)

/-- CQ_HEAD_WRITE (R328). -/
def execCqHeadWrite (q : Queue) (v : Word) (s : State) : Res := .next (s.busWrite .pcie (HOST_Q_CQ_HEAD.addr q) v 0xF)

/-- A suppressed duplicate: HITS and CMD_DUP (R331). -/
def State.dupHit (s : State) : State := (s.bump HOST_DUP_WINDOW.HITS).event 6 2

/-- A fetched command, behind SQ_HEAD: a duplicate is suppressed, an undefined opcode ends at once, another one waits to
start (R329, R331, Table 18-6). -/
def State.fetched (s : State) (q : Nat) (c : HostCmd) : State :=
  let x := s.queue q
  let irq := bitOf c.flags.toNat 0
  match x.window.find? (fun w => decide (w.id = c.id.toNat)) with
  | some w => (s.setQueue q { x with done := x.done ++ [{ w with dup := true, irq := irq, began := false }] }).dupHit
  | none =>
    if (x.waiting ++ x.started ++ x.cut).any (fun d => decide (d.id = c.id)) || x.done.any (fun o => decide (o.id = c.id.toNat)) then
      (s.setQueue q { x with dups := x.dups ++ [c] }).dupHit
    else if opcodeOk c.opcode.toNat then
      s.setQueue q { x with waiting := x.waiting ++ [c], waits := x.waits ++ [(c.id.toNat, s.time.toNat)] }
    else s.endWaiting q c x.waiting 1

/-- COMMAND_FETCH (R329): no enabled queue with a lower number holds an unfetched command that can start. -/
def execCommandFetch (q : Queue) (c : HostCmd) (s : State) : Res :=
  if s.mode ≠ .off ∧ s.canFetch q = true ∧ (List.range q).all (fun p => !s.fetchFirst p) = true then
    .next ((s.put (HOST_Q_SQ_HEAD.HEAD q) ((s.fld (HOST_Q_SQ_HEAD.HEAD q) + 1) % 1024)).fetched q c)
  else .next s

/-- COMMAND_COMPLETE (R328). -/
def execCommandComplete (q : Queue) (s : State) : Res := .next (((s.actWaitDone q).actStartDone q).complNext q)

/-- CMD_TIMEOUT with its queue and CMD_ID (R333). -/
def State.timeoutEvent (s : State) (q id : Nat) : State := s.event 6 1 q (id % 2 ^ 32) (id / 2 ^ 32)

/-- A command's wait has exceeded HOST_TIMEOUT: TIMEOUT and the event (R333). -/
def State.timedOut (s : State) (q id : Nat) : State := (s.finish q id 8 0).timeoutEvent q id

/-- The instant at which a wait that began at `t` exceeds HOST_TIMEOUT. -/
def State.waitOver (s : State) (t : Nat) : State := s.at_ (t + usFines * s.fld HOST_TIMEOUT.TIMEOUT)

/-- Whether HOST_TIMEOUT bounds a command's waits (R333). -/
def timeoutBounds (op : Nat) : Bool := !decide (op = 0x23 ∨ op = 0x31 ∨ op = 0x50 ∨ op = 0x51)

/-- CMD_TIMEOUT (R333): of a command that waits to start, or of an NVM command that waits for the flash or for host memory; its
operation ends with the unit in progress. The event stands for the instant at which that wait exceeds HOST_TIMEOUT. -/
def execCmdTimeout (q : Queue) (id : BitVec 64) (s : State) : Res :=
  let x := s.queue q
  match takeCmd id.toNat x.waiting with
  | some (c, r) =>
    if timeoutBounds c.opcode.toNat then
      let s := match x.waits.find? (fun e => decide (e.1 = id.toNat)) with
        | some e => s.waitOver e.2
        | none => s
      .next ((s.endWaiting q c r 8).timeoutEvent q id.toNat)
    else .next s
  | none =>
    match s.nvm with
    | some j =>
      if j.src = .cmd q id.toNat ∧ j.owed = true then .next ((((s.waitOver j.since).timedOut q id.toNat)).nvmEnd j 9)
      else if j.src = .cmd q id.toNat ∧ s.jobUnit = true then
        .next (((s.waitOver j.since).withNvm (some { j with aborted := true })).timedOut q id.toNat)
      else .next s
    | none => .next s

/-- The data that a read has for the host, delivered at the address of its command, with its completion (log 21). -/
def State.payRead (q : Nat) (s : State) (e : Nat × List Word) : State :=
  match (s.running_ q).find? (fun c => decide (c.id.toNat = e.1)) with
  | some c => (s.hostPut (argOf c 3) (wordBytes e.2)).finish q e.1 0 0
  | none => s

/-- The data that D3hot has kept from host memory delivered: of remote reads, and of an NVM READ (R327). -/
def State.deliverOwed (s : State) : State :=
  let s := State.each (fun q s => (s.queue q).owed.foldl (State.payRead q) s) (List.range 8) s
  match s.nvm with
  | some j => if j.owed then s.nvmEnd { j with owed := false } 0 else s
  | none => s

/-- FLR (R327). -/
def execFlr (s : State) : Res := if s.mode = .off then .next s else .next s.functionReset

/-- POWER_STATE_CHANGE (R327): the return to D0 delivers the data and sends the messages that wait. -/
def execPowerStateChange (d3 : Bool) (s : State) : Res :=
  if s.mode = .off then .next s
  else
    let s : State := s.withD3hot d3
    if d3 then .next s else .next (State.each (fun v s => s.sendPending v) (List.range 64) s.deliverOwed)

/-- CONVENTIONAL_RESET (R324): the function's state is reset as by a Function Level Reset, with the pending bits and the
power state (PRESUMED, notes/assumptions/41.md). -/
def execConventionalReset (s : State) : Res :=
  if s.mode = .off then .next s
  else
    let s := (s.functionReset.setReg (MSIX_PBA.addr 0) 0).setReg (MSIX_PBA.addr 1) 0
    .next (s.withD3hot false)

/-- EVT_IRQ_DEFER (R335). -/
def execEvtIrqDefer (s : State) : Res :=
  if s.evtDefer then
    let s := match s.evtIrq with
      | some t => s.at_ (t + usFines)
      | none => s
    .next (s.withEvtDefer false).journalIrq
  else .next s

/-- BD_DOORBELL (R337). -/
def execBdDoorbell (s : State) : Res := .next (s.busWrite .pcie SYS_BD_DOORBELL.addr 1 0xF)

/-! ## What the commands share -/

/-- A command whose arguments lie in the stated ranges acts; another one finishes with BAD_ARG and changes nothing. -/
def State.inRange (s : State) (q id : Nat) (ok : Bool) (k : State → State) : State :=
  if ok then k s else s.finish q id 2 0

/-- The class code of the endpoint (Table 18-1). -/
def pciClass : Nat := 0xFF0000

/-- The AER bit of a failed host-memory request. -/
def DmaErr.bit : DmaErr → Nat
  | .unsupported => 0 | .abort => 1 | .timeout => 2 | .poisoned => 3

/-- What the host-memory reads brought: the bytes, or DMA_ERROR, which AER logs. -/
def State.withData (s : State) (q id : Nat) (d : HostData) (k : List Byte → State → State) : State :=
  match d with
  | .bytes bs => k bs s
  | .failed e => (s.withAer (s.aer ||| BitVec.ofNat 4 (2 ^ DmaErr.bit e))).finish q id 0x0B 0

/-- Whether the data that came are as many bytes as were asked for. -/
def dataFits (d : HostData) (n : Nat) : Bool :=
  match d with
  | .bytes bs => decide (bs.length = n)
  | .failed _ => true

/-- Whether DMA may write host memory. -/
def dmaOn : HostCmd → State → Bool := fun _ s => !s.d3hot

/-- Whether a mask argument names acts only. -/
def actMask (c : HostCmd) : Bool := decide (argOf c 0 < 65536)

/-! ## Commands (Table 18-5) -/

/-- NOP. -/
def execNop (q : Queue) (id : BitVec 64) (s : State) : Res :=
  cmdStart q id 0 always (fun _ s => s.finish q id.toNat 0 0) s

/-- REG_READ (R351). -/
def execRegRead (q : Queue) (id : BitVec 64) (ecc : Ecc) (s : State) : Res :=
  cmdStart q id 1 dmaOn (fun c s =>
    s.inRange q id.toNat (remoteOk (argOf c 0) (argOf c 1)) (fun s =>
      let pr := State.busReads .engine (argOf c 1) (argOf c 0) s
      let ws := pr.1
      let s := pr.2
      ((s.windowEcc .engine (argOf c 0) (argOf c 1) ecc).hostPutEp (argOf c 2) (wordBytes ws)
        (decide (ecc = .ue) && (s.windowOpen .engine (argOf c 0)).isSome)).finish q id.toNat 0 0)) s

/-- The next word of a REG_WRITE: each is an access of its own, and those of other sources may fall between (R351). The command
finishes with the last. -/
def State.regWord (s : State) (q id a : Nat) (ws : List Word) : State :=
  let s := s.setQueue q ((s.queue q).forget id)
  match ws with
  | [] => s.finish q id 0 0
  | w :: r =>
    if r = [] then (s.busWrite .engine a w 0xF).finish q id 0 0
    else
      let s := s.busWrite .engine a w 0xF
      if (s.running_ q).any (fun c => decide (c.id.toNat = id)) then
        s.setQueue q { s.queue q with writes := (s.queue q).writes ++ [(id, a + 4, r)] }
      else s

/-- REG_WRITE (R351): the command starts and writes its first word; the same row again writes the next one. -/
def execRegWrite (q : Queue) (id : BitVec 64) (data : HostData) (s : State) : Res :=
  match (s.queue q).writes.find? (fun e => decide (e.1 = id.toNat)) with
  | some e => .next (s.regWord q id.toNat e.2.1 e.2.2)
  | none =>
    cmdStart q id 2 (fun c _ => !remoteOk (argOf c 0) (argOf c 1) || dataFits data (4 * argOf c 1)) (fun c s =>
      s.inRange q id.toNat (remoteOk (argOf c 0) (argOf c 1)) (fun s =>
        s.withData q id.toNat data (fun bs s => s.regWord q id.toNat (argOf c 0) (bytesWords (argOf c 1) bs)))) s

/-- Whether a DMA lies in DRAM and its count is a multiple of 4 from 4 to 2^32. -/
def dmaRange (a n : Nat) : Bool := decide (n % 4 = 0 ∧ 4 ≤ n ∧ n ≤ 4294967296 ∧ a + n ≤ dramSize)

/-- DMA_TO_DRAM (R19). -/
def execDmaToDram (q : Queue) (id : BitVec 64) (data : HostData) (s : State) : Res :=
  cmdStart q id 0x10 (fun c _ => !dmaRange (argOf c 1) (argOf c 2) || dataFits data (argOf c 2)) (fun c s =>
    s.inRange q id.toNat (dmaRange (argOf c 1) (argOf c 2)) (fun s =>
      s.withData q id.toNat data (fun bs s => (s.dmaDramPut (argOf c 1) bs).finish q id.toNat 0 0))) s

/-- DMA_FROM_DRAM (R19, R291). -/
def execDmaFromDram (q : Queue) (id : BitVec 64) (ecc : Ecc) (s : State) : Res :=
  cmdStart q id 0x11 dmaOn (fun c s =>
    s.inRange q id.toNat (dmaRange (argOf c 0) (argOf c 2)) (fun s =>
      let bs := s.dramBytes (argOf c 0) (argOf c 2)
      ((s.dramEcc (argOf c 0) (argOf c 2) ecc).hostPutEp (argOf c 1) bs (decide (ecc = .ue))).finish q id.toNat 0 0)) s

/-- Whether LOAD_BANK's arguments lie in a half. -/
def bankRange (c : HostCmd) : Bool :=
  decide (argOf c 1 < 32 ∧ argOf c 2 % 16 = 0 ∧ argOf c 3 % 16 = 0 ∧ argOf c 2 + argOf c 3 ≤ 1048576)

/-- LOAD_BANK (R138, R139). -/
def execLoadBank (q : Queue) (id : BitVec 64) (data : HostData) (s : State) : Res :=
  cmdStart q id 0x12 (fun c _ => !bankRange c || dataFits data (argOf c 3)) (fun c s =>
    s.inRange q id.toNat (bankRange c) (fun s =>
      let n := argOf c 1 % 16
      let h := argOf c 1 / 16
      if s.halfExecuting n h then s.finish q id.toNat 4 0
      else
        let s := s.put (if h = 0 then SEQ_CTRL.READY_A n else SEQ_CTRL.READY_B n) 0
        s.withData q id.toNat data (fun bs s =>
          (s.bankPut (2097152 * n + 1048576 * h + argOf c 2) bs).finish q id.toNat 0 0))) s

/-! ### LOAD_BLOCK (R140, R346) -/

/-- The arguments of LOAD_BLOCK: act, block, ENC. -/
def blockArgs (c : HostCmd) : Nat × Nat × Bool :=
  (bitsOf (argOf c 1) 0 4, bitsOf (argOf c 1) 16 12, bitOf (argOf c 1) 32)

/-- Whether no other bit of ARG1 is set. -/
def blockRange (c : HostCmd) : Bool := decide (argOf c 1 &&& (2 ^ 64 - 1 - 0x10FFF000F) = 0)

/-- Bytes that LOAD_BLOCK reads from host memory. -/
def State.blockLen (s : State) (c : HostCmd) : Nat :=
  let pr := blockArgs c
  let n := pr.1
  let b := pr.2.1
  let enc := pr.2.2
  let pr := s.blockEntry n b
  let nvec := pr.2.1
  let rec_ := pr.2.2.1
  nvec * rec_ + (if enc then 28 else 0)

/-- Address of the FLAGS byte of an entry (Table 8-2). -/
def State.blockFlags (s : State) (n b : Nat) : Nat := s.fld (SEQ_BLOCK_TABLE.BASE n) * 131072 + 32 * b + 14

/-- VALID of an entry stored. -/
def State.setValid (s : State) (n b : Nat) (v : Bool) : State :=
  let f := leNat (s.dramBytes (s.blockFlags n b) 1)
  s.dramPut (s.blockFlags n b) (leBytes 1 (setBit f 0 v))

/-- PREFIX of an entry. -/
def State.blockPrefix (s : State) (n b : Nat) : List Byte := s.dramBytes (s.blockFlags n b + 2) 16

/-- Plain record bytes written, hashed and compared (R140). -/
def State.blockStore (s : State) (q id n b : Nat) (bs : List Byte) : State :=
  let pr := s.blockEntry n b
  let addr := pr.1
  let ok := decide ((Config.sha384 bs).toNat / 2 ^ 256 = beNat (s.blockPrefix n b))
  let s := s.dmaDramPut addr bs
  if ok then (s.setValid n b true).finish q id 0 0 else s.finish q id 6 0

/-- Encrypted record bytes: IV, ciphertext, tag (R346). -/
def State.blockOpen (s : State) (q id n b : Nat) (bs : List Byte) : State :=
  match s.otp.patternKey with
  | none => s.finish q id 7 0x10
  | some k =>
    let len := bs.length - 28
    match Config.aesGcmOpen k (bs.take 12) (s.blockPrefix n b) ((bs.drop 12).take len) (bs.drop (12 + len)) with
    | some plain => s.blockStore q id n b plain
    | none =>
      let pr := s.blockEntry n b
      let addr := pr.1
      let pr := State.freeBytes len s
      let junk := pr.1
      let s := pr.2
      (s.dmaDramPut addr junk).finish q id 7 0x11

/-- LOAD_BLOCK (R140, R346). -/
def execLoadBlock (q : Queue) (id : BitVec 64) (data : HostData) (s : State) : Res :=
  cmdStart q id 0x13 (fun c s => !blockRange c || dataFits data (s.blockLen c)) (fun c s =>
    s.inRange q id.toNat (blockRange c) (fun s =>
      let pr := blockArgs c
      let n := pr.1
      let b := pr.2.1
      let enc := pr.2.2
      let pr := s.blockEntry n b
      let addr := pr.1
      let nvec := pr.2.1
      let rec_ := pr.2.2.1
      if s.executing n then s.finish q id.toNat 5 0
      else if dramSize < addr + nvec * rec_ then 
        let s' := s.disturbAct n
        s'.takeFree.finish q id.toNat (s'.free.toNat % 16) 0
      else
        (s.setValid n b false).withData q id.toNat data (fun bs s =>
          if enc then s.blockOpen q id.toNat n b bs else s.blockStore q id.toNat n b bs))) s

/-! ### Acts -/

/-- ACT_START (R146): finishes once the starts are checked (COMMAND_COMPLETE). -/
def execActStart (q : Queue) (id : BitVec 64) (s : State) : Res :=
  cmdStart q id 0x20 always (fun c s =>
    s.inRange q id.toNat (actMask c) (fun s => State.each (State.startAct {}) (bitList (argOf c 0) 16 0) s)) s

/-- ACT_STOP (R150). -/
def execActStop (q : Queue) (id : BitVec 64) (s : State) : Res :=
  cmdStart q id 0x21 always (fun c s =>
    s.inRange q id.toNat (actMask c) (fun s =>
      (State.each (State.gracefulStop 0x02) (bitList (argOf c 0) 16 0) s).finish q id.toNat 0 0)) s

/-- ACT_ABORT (R150). -/
def execActAbort (q : Queue) (id : BitVec 64) (s : State) : Res :=
  cmdStart q id 0x22 always (fun c s =>
    s.inRange q id.toNat (actMask c) (fun s =>
      (State.each (State.abortAct 0x0D) (bitList (argOf c 0) 16 0) s).finish q id.toNat 0 0)) s

/-- ACT_WAIT: finishes once every act of the mask is STOPPED (COMMAND_COMPLETE). -/
def execActWait (q : Queue) (id : BitVec 64) (s : State) : Res :=
  cmdStart q id 0x23 always (fun c s => s.inRange q id.toNat (actMask c) (fun s => s.actWaitDone q)) s

/-! ### Rings -/

/-- TILE_PUSH (R192). -/
def execTilePush (q : Queue) (id : BitVec 64) (s : State) : Res :=
  cmdStart q id 0x30 always (fun c s =>
    (State.each (fun g s => s.tilePush g false) (bitList (argOf c 0) 64 0) s).finish q id.toNat 0 0) s

/-- Whether the repair analyzer takes a FINALIZE or a CLEAR. -/
def rqFree : HostCmd → State → Bool := fun _ s => s.rq.fin.isNone && !s.flag RQ_STATUS.CLEARING

/-- The FINALIZE in progress, if any, runs for a host command. -/
def State.finFor (s : State) (q id : Nat) : State :=
  match s.rq.fin with
  | some f => s.withRq { s.rq with fin := some { f with src := some (q, id) } }
  | none => s

/-- FINALIZE (R212): finishes at DONE. -/
def execFinalize (q : Queue) (id : BitVec 64) (s : State) : Res :=
  cmdStart q id 0x31 rqFree (fun c s =>
    s.inRange q id.toNat (decide (argOf c 0 < 64)) (fun s =>
      (s.finalizeReq (argOf c 0) (bitOf (argOf c 1) 0)).finFor q id.toNat)) s

/-- RQ_CLEAR (R210); the manual gives a refused CLEAR no code, so RESULT is free then. -/
def execRqClear (q : Queue) (id : BitVec 64) (s : State) : Res :=
  cmdStart q id 0x32 rqFree (fun c s =>
    s.inRange q id.toNat (decide (argOf c 0 < 64)) (fun s =>
      let no := s.ringExecuting (argOf c 0)
      let s := s.rqClearReq (argOf c 0)
      if no then s.takeFree.finish q id.toNat 7 s.free.toNat else s.finish q id.toNat 0 0)) s

/-! ### Modes, flash, links -/

/-- MODE_REQ (R31). -/
def execModeReq (q : Queue) (id : BitVec 64) (s : State) : Res :=
  cmdStart q id 0x40 always (fun c s =>
    s.inRange q id.toNat (reqDefined (argOf c 0)) (fun s =>
      let s := s.modeRequest (argOf c 0)
      let r := s.fld SYS_STATUS.REQ_RESULT
      s.finish q id.toNat (if r = 0 then 0 else 7) r)) s

/-- Whether NVM's arguments name an operation and a slot. -/
def nvmRange (c : HostCmd) : Bool := decide (1 ≤ argOf c 0 ∧ argOf c 0 ≤ 7 ∧ argOf c 4 ≤ 1)

/-- An ABORT by host command: the operation that runs ends after its unit, a pending one at once (R88). -/
def State.nvmAbortCmd (s : State) (q id : Nat) : State :=
  let s := match s.nvm with
    | some j => if s.jobUnit then s.withNvm (some { j with aborted := true }) else s.nvmEnd j 9
    | none => (s.put NVM_STATUS.RESULT 0).put NVM_STATUS.LAST_OP 7
  s.finish q id 0 s.nvmStatus

/-- NVM (R87, R88): READ and PROGRAM in steps of 64 KiB through the NVM buffer. -/
def execNvmCommand (q : Queue) (id : BitVec 64) (data : HostData) (s : State) : Res :=
  cmdStart q id 0x41 (fun c s => !nvmRange c || decide (argOf c 0 = 7) ||
      (s.nvm.isNone && (decide (argOf c 0 ≠ 2) || dataFits data (argOf c 2)))) (fun c s =>
    s.inRange q id.toNat (nvmRange c) (fun s =>
      match argOf c 0 with
      | 1 => s.nvmStep 1 (argOf c 1) (argOf c 2) (argOf c 3) [] q id.toNat
      | 2 => s.withData q id.toNat data (fun bs s => s.nvmStep 2 (argOf c 1) (argOf c 2) 0 bs q id.toNat)
      | 7 => s.nvmAbortCmd q id.toNat
      | op => s.nvmCommand op (argOf c 1) (argOf c 2) (argOf c 4) (.cmd q id.toNat) false)) s

/-- The port a remote request leaves by: towards another device. -/
def State.remotePort (s : State) (d : Nat) : Option Nat :=
  if s.flag SYS_DEVIDX.VALID ∧ d = s.fld SYS_DEVIDX.INDEX then none else s.routeTo d

/-- Whether a remote request may leave: nowhere to go, or a tag of the port is free for it and for every earlier request that
waits for one (R310). -/
def State.remoteReady (s : State) (d : Nat) : Bool :=
  match s.remotePort d with
  | some p => decide ((s.port p).held.length < s.freeTags p)
  | none => true

/-- Whether the arguments of a remote access lie in their ranges. -/
def remoteRange (c : HostCmd) : Bool := decide (argOf c 0 ≤ 272) && remoteOk (argOf c 1) (argOf c 2)

/-- A remote request sent, or LINK_REJECT with LNK_NO_ROUTE (R308, R310). -/
def State.remoteSend (s : State) (q id d : Nat) (wr : Bool) (data : List Word) : State :=
  match s.remotePort d with
  | some p => s.request p ⟨.cmd q id, wr, ⟨0, 0, b2n wr, d, s.devIndex % 512, data⟩⟩
  | none => (s.event 7 3).finish q id 0x0A 0

/-- REMOTE_READ (R308, R310). -/
def execRemoteRead (q : Queue) (id : BitVec 64) (s : State) : Res :=
  cmdStart q id 0x50 (fun c s => !remoteRange c || s.remoteReady (argOf c 0)) (fun c s =>
    s.inRange q id.toNat (remoteRange c) (fun s =>
      s.remoteSend q id.toNat (argOf c 0) false [BitVec.ofNat 32 (argOf c 1), BitVec.ofNat 32 (argOf c 2)])) s

/-- REMOTE_WRITE (R308, R310). -/
def execRemoteWrite (q : Queue) (id : BitVec 64) (data : HostData) (s : State) : Res :=
  cmdStart q id 0x51 (fun c s => !remoteRange c || (s.remoteReady (argOf c 0) && dataFits data (4 * argOf c 2))) (fun c s =>
    s.inRange q id.toNat (remoteRange c) (fun s =>
      s.withData q id.toNat data (fun bs s =>
        s.remoteSend q id.toNat (argOf c 0) true
          (BitVec.ofNat 32 (argOf c 1) :: BitVec.ofNat 32 (argOf c 2) :: bytesWords (argOf c 2) bs)))) s

/-- Whether WHISTLE's KIND is a defined one. -/
def whistleRange (c : HostCmd) : Bool := decide (1 ≤ bitsOf (argOf c 0) 0 3 ∧ bitsOf (argOf c 0) 0 3 ≤ 5)

/-- WHISTLE (R316, R320). -/
def execWhistle (q : Queue) (id : BitVec 64) (s : State) : Res :=
  cmdStart q id 0x52 always (fun c s =>
    s.inRange q id.toNat (whistleRange c) (fun s =>
      let s := s.sendWhistle (bitsOf (argOf c 0) 0 3) (bitsOf (argOf c 0) 8 8) (bitsOf (argOf c 0) 16 8) (argOf c 1)
      let r := s.fld LNK_WHISTLE_CFG.RESULT
      s.finish q id.toNat (if r = 0 then 0 else 7) r)) s

/-! ### Signed requests (R343-R345) -/

/-- Whether the data of an LC_SIGNED are a request of a type, or of none of Table 19-4. -/
def signedIs (typ : Nat) (d : HostData) : Bool :=
  match d with
  | .bytes bs => decide (reqType bs = typ) || !decide (reqType bs ∈ reqTypes)
  | .failed _ => true

/-- The meaning of the five rows of LC_SIGNED: the request read from host memory, checked and carried out. -/
def signedCmd (typ : Nat) (q : Queue) (id : BitVec 64) (data : HostData) (ready : State → Bool) (s : State) : Res :=
  cmdStart q id 0x60 (fun c s => ready s && signedIs typ data && dataFits data (argOf c 1)) (fun _ s =>
    s.withData q id.toNat data (fun bs s => s.signedRequest bs q id.toNat)) s

/-- SIGNED_CAL_COMMIT (R344): starts when the NVM port takes it, or at once where a request runs that refuses it. -/
def execSignedCalCommit (q : Queue) (id : BitVec 64) (data : HostData) (s : State) : Res :=
  signedCmd 1 q id data (fun s => s.nvm.isNone || s.flag LC_TOKEN_STATUS.BUSY) s

/-- KEY_PROGRAM (R344). -/
def execKeyProgram (q : Queue) (id : BitVec 64) (data : HostData) (s : State) : Res :=
  signedCmd 2 q id data (fun _ => true) s

/-- KEY_REVOKE (R344). -/
def execKeyRevoke (q : Queue) (id : BitVec 64) (data : HostData) (s : State) : Res :=
  signedCmd 3 q id data (fun _ => true) s

/-- DEC_KEY_PROGRAM (R344). -/
def execDecKeyProgram (q : Queue) (id : BitVec 64) (data : HostData) (s : State) : Res :=
  signedCmd 4 q id data (fun _ => true) s

/-- RETURN_AUTH (R345). -/
def execReturnAuth (q : Queue) (id : BitVec 64) (data : HostData) (s : State) : Res :=
  signedCmd 0x10 q id data (fun _ => true) s

end Sys2Proof.Machine
end

