-- ==== Sys2Proof/Machine/LifeCycle.lean ====
section
/-! DEFINITION. The commands of the life cycle (19, R340, R342): one meaning per row. -/

namespace Sys2Proof.Machine

/-- ADVANCE_INTEGRATION (R342). -/
def execAdvanceIntegration (s : State) : Res := .next (s.busWrite .pcie LC_REQ.addr 0xC3000001 0xF)

/-- ADVANCE_FIELD (R342). -/
def execAdvanceField (s : State) : Res := .next (s.busWrite .pcie LC_REQ.addr 0xC3000002 0xF)

/-- DEBUG_LOCK (R340, Table 19-9). -/
def execDebugLock (s : State) : Res := .next (s.busWrite .pcie LC_DEBUG.addr 1 0xF)

/-- JTAG_INSTRUCTION (R340, Table 19-2): debug where it is open, else BYPASS; a factory trim write where trims are open. -/
def execJtagInstruction (i : JtagInstr) (s : State) : Res :=
  if s.mode = .off then .next s
  else
    match i with
    | .boundary => .next (s.withJtag 1)
    | .debug => .next (s.withJtag (if s.flag LC_DEBUG.DEBUG_OPEN then 2 else 0))
    | .bypass => .next (s.withJtag 0)
    | .trim a v =>
      if s.flag LC_DEBUG.TRIM_OPEN then .next (s.withTrims (Tab.set (fun _ => 0) s.trims a.toNat v)) else .next s

end Sys2Proof.Machine
end

