-- ==== Sys2Proof/Machine/Modes.lean ====
section
/-! DEFINITION. The commands of modes, BOOT, supply and temperature (02, 03, 05): one meaning per row. -/

namespace Sys2Proof.Machine

/-- Whether BOOT is at a step. -/
def State.bootAt (s : State) (k : Nat) : Bool := decide (s.mode = .boot) && decide (s.fld SYS_MODE.BOOT_STEP = k)

/-- The next BOOT step. -/
def State.bootStep (s : State) (k : Nat) : State := s.put SYS_MODE.BOOT_STEP k

/-! ## Temperature (R52, R53) -/

/-- The hottest valid sensor of a sample, the lowest of those equally hot (DESIGN CHOICE, notes/assumptions/12.md). -/
def hottest : Nat → List (BitVec 16) → Option (Nat × Int)
  | _, [] => none
  | i, t :: ts =>
    let rest := hottest (i + 1) ts
    if tempInvalid t then rest
    else
      match rest with
      | some (j, v) => if signed 16 t.toNat < v then some (j, v) else some (i, signed 16 t.toNat)
      | none => some (i, signed 16 t.toNat)

/-- PWR_TEMP_MAX of a sample (Table 3-9). With every sensor invalid TEMP and SENSOR keep what they read; of two sensors equally
hot SENSOR names the lowest (DESIGN CHOICE, notes/assumptions/12.md). -/
def State.tempMax (s : State) (ts : List (BitVec 16)) : State :=
  let s := s.put PWR_TEMP_MAX.INVALID (ts.countP tempInvalid)
  match hottest 0 ts with
  | some (i, v) => (s.put PWR_TEMP_MAX.SENSOR i).put PWR_TEMP_MAX.TEMP (twos 16 v)
  | none => s

/-- The lowest sensor whose sample and sample before are valid and at or above a threshold. -/
def State.reached (s : State) (ts : List (BitVec 16)) (lim : Int) : Option Nat :=
  (List.range 40).find? (fun i =>
    let t := ts.getD i 0
    let u := (s.sensor i).last
    !tempInvalid t && !tempInvalid u && decide (lim ≤ signed 16 t.toNat) && decide (lim ≤ signed 16 u.toNat))

/-- A sample kept; a sensor that becomes invalid raises TEMP_SENSOR_BAD once. -/
def State.keepSample (s : State) (ts : List (BitVec 16)) : State :=
  State.each (fun i s =>
    let t := ts.getD i 0
    let x := s.sensor i
    let s := s.setSensor i { last := t, bad := x.bad || tempInvalid t }
    if tempInvalid t ∧ x.bad = false then s.event 2 9 else s) (List.range 40) s

/-- TEMP_ALERT with its hysteresis. -/
def State.tempAlert (s : State) (hit : Bool) : State :=
  let c := s.fld PWR_TEMP_CFG.ALERT_C
  let max := signed 16 (s.fld PWR_TEMP_MAX.TEMP)
  if s.alertArmed ∧ hit then (((s.put PWR_STATUS.TEMP_ALERT 1).event 2 6).sysIrq 3).withAlertArmed false
  else if max < 8 * (c : Int) - 8 * (s.fld PWR_TEMP_CFG.ALERT_HYST : Int) then
    (s.put PWR_STATUS.TEMP_ALERT 0).withAlertArmed true
  else s

/-- TEMP_WARN, armed again below 135 degrees. -/
def State.tempWarn (s : State) (hit : Bool) : State :=
  if s.warnArmed ∧ hit then ((s.event 2 7).sysIrq 3).withWarnArmed false
  else if signed 16 (s.fld PWR_TEMP_MAX.TEMP) < 1080 then s.withWarnArmed true
  else s

/-- The sensor that a thermal shutdown names: the lowest that reaches 160 degrees, else the lowest invalid one of 8; which of
several R53 leaves open (DESIGN CHOICE, notes/assumptions/12.md). -/
def State.shutdownUnit (s : State) (hit : Option Nat) : Option Nat :=
  match hit with
  | some u => some u
  | none => if 8 ≤ s.invalidSensors.length then s.invalidSensors.head? else none

/-- A sample of the 40 sensors evaluated against the thresholds of Table 3-3, the highest last. A shutdown reached in SAFE while
THERM_LATCH is set abandons a sector erase all the same (R54). -/
def State.tempSample (s : State) (ts : List (BitVec 16)) : State :=
  let alert := s.reached ts (8 * (s.fld PWR_TEMP_CFG.ALERT_C : Int))
  let warn := s.reached ts 1120
  let shut := s.reached ts 1280
  let off := s.reached ts 1360
  let few := decide (s.invalidSensors.length < 8)
  let s := (s.keepSample ts).tempMax ts
  let s := (s.tempAlert alert.isSome).tempWarn warn.isSome
  if off.isSome then s.shedding .tempOff
  else
    match s.shutdownUnit shut with
    | some u =>
      if s.mode = .safe ∧ s.flag SYS_STATUS.THERM_LATCH then (if shut.isSome ∨ few then s.dropErase else s) else s.fatal 5 u 0
    | none => s

/-- TEMP_SAMPLE (R52, R53). -/
def execTempSample (temps : List (BitVec 16)) (s : State) : Res :=
  if s.mode = .off ∨ temps.length ≠ 40 then .next s else .next (s.tempSample temps)

/-! ## BOOT (R29-R36) -/

/-- UVLO_START (R29, R32, R302, R303): from OFF to BOOT step 1; the straps are sampled, and the sensors
read. A CLR_N that is already low is recognised (R285). -/
def execUvloStart (role : BitVec 2) (rma : Bool) (temps : List (BitVec 16)) (s : State) : Res :=
  if s.mode ≠ .off ∨ s.shed ≠ none then .next s
  else
    let s := s.withPins { s.pins with en := true, role := role, rma := rma }
    let s := (s.setMode .boot).put SYS_MODE.BOOT_STEP 1
    let s := (s.put SYS_ROLE.ROLE role.toNat).putB SYS_DEVIDX.VALID (decide (2 ≤ role.toNat))
    let s := ((s.put SYS_STATUS.TRANSIT 1).keepSample temps).tempMax temps
    .next ((if s.pins.clrN then s else s.srefClearAll).lcRefresh.newNonce.bootCheck)

/-- SOFT_START (R33, R64): step 1 ends; the clocks run, and the time count of a manager or standalone module starts. -/
def execSoftStart (rail : Option (Fin 8)) (s : State) : Res :=
  if s.bootAt 1 then
    let s := ((s.put CLK_STATUS.OCXO_OK 1).put CLK_STATUS.ROOT_LOCK 1).put CLK_STATUS.PCIE_LOCK 1
    let s := ((s.selectSource).withTime 0).withCounting true
    match rail with
    | some r => .next (s.fatal 8 r 0)
    | none => .next ((s.put PWR_STATUS.POWER_GOOD 1).bootStep 2)
  else .next s

/-- All SRAM zero (R292): banks, shared pool with the journal, descriptors, mailbox. -/
def State.clearSram (s : State) : State :=
  ((((s.withBanks []).withPool []).withMailbox []).withRq { time := s.time.toNat }).withPersist { s.persist with waiting := [], dropped := 0, due := 0 }

/-- SRAM_CLEAR (R292, R341, R345): step 2; every word that does clear is zero, also where one does not; the OTP is read, third
fuse copies are blown, a broken OTP is a fatal fault. -/
def execSramClear (failmap : BitVec 16) (s : State) : Res :=
  if s.bootAt 2 ∧ s.eraseDue = false then
    let s := s.clearSram
    if failmap ≠ 0 then .next (s.fatal 1 1 0)
    else
      let s := s.lcRefresh
      let fix := s.otp.repairs
      let s := if fix = [] then s else (s.withLc (some { blows := fix, after := .nothing })).lcRun
      if s.otp.broken then .next (s.fatal 0x0B 0 0)
      else
        if s.lcState = 3 ∧ s.otp.eraseDone = false then .next (s.withEraseDue true)
        else .next ((s.put (SYS_BIST.RUN 0) 1).bootStep 3)
  else .next s

/-- Whether the SFDP tables name a flash that R73 accepts; one whose page size is not of the range of R72 is none (DESIGN
CHOICE, notes/assumptions/45.md). -/
def sfdpOk (f : Sfdp) : Bool :=
  decide (f.density = 1 ∨ f.density = 2) && f.erase64k && decide (8 ≤ f.pageLog2 ∧ f.pageLog2 ≤ 10)

/-- What discovery stores of a flash (R73). -/
def State.flashFound (s : State) (f : Sfdp) : State :=
  ((s.put NVM_CFG.PAGE_LOG2 f.pageLog2).put NVM_CFG.DENSITY f.density).put NVM_CFG.PROTOCOL (if f.octal then 2 else 1)

/-- RETURN_ERASE (R345): the flash is reset and discovered, and the erase of its sectors begins, each under R49 and R54
(FLASH_OP_COMPLETE goes on with the next); without a flash nothing is erased. -/
def execReturnErase (sfdp : Option Sfdp) (s : State) : Res :=
  if s.bootAt 2 ∧ s.eraseDue then
    if s.persist.wipeEnd ≠ 0 then .next s
    else
      match sfdp with
      | none => .next (((s.withEraseDue false).put (SYS_BIST.RUN 0) 1).bootStep 3)
      | some f =>
        if sfdpOk f = false then .next (((s.withEraseDue false).put (SYS_BIST.RUN 0) 1).bootStep 3)
        else
          let s := s.tearUnit.flashFound f
          .next (s.withPersist { s.persist with wipe := some 0, wipeEnd := f.density * 134217728 }).nvmKick
  else .next s

/-- The units of a self-test group (Table 2-9). -/
def bistUnits (i : Nat) : Nat :=
  match i with
  | 4 => 0xF | 5 => 0x3FF | 7 => 0xF | _ => 0xFFFF

/-- SELF_TEST (R36): the group in progress finishes. -/
def execSelfTest (failmap : BitVec 16) (s : State) : Res :=
  if s.bootAt 3 then
    match (List.range 8).find? (fun i => !s.flag (SYS_BIST.DONE i)) with
    | none => .next s
    | some i =>
      let m := failmap.toNat &&& bistUnits i
      let s := ((s.put (SYS_BIST.RUN i) 1).put (SYS_BIST.DONE i) 1).put (SYS_BIST.FAILMAP i) m
      if m ≠ 0 then .next ((s.put (SYS_BIST.FAIL i) 1).fatal 1 i 0)
      else if i = 7 then .next (s.bootStep 4)
      else .next (s.put (SYS_BIST.RUN (i + 1)) 1)
  else .next s

/-- DRAM_TRAINING (R33, R292): step 4; all DRAM is zero. -/
def execDramTraining (bad : Option (Fin 4 × BitVec 16)) (s : State) : Res :=
  if s.bootAt 4 then
    match bad with
    | some (stack, detail) => .next (s.fatal 2 stack detail.toNat)
    | none => .next ((s.withDram []).bootStep 5)
  else .next s

/-- The header checks of step 5: REASON of each slot, NOT_CHECKED where the header is valid (R89). -/
def State.checkHeader (s : State) (k : Nat) : State :=
  let r := s.headerReason k
  s.setSlot k (if r = 0 then 8 else r)

/-- The slot tried first (R82). -/
def State.firstSlot (s : State) : Option Nat :=
  let ga := hdrGeneration (s.slotHeader 0)
  let gb := hdrGeneration (s.slotHeader 1)
  match decide (s.headerReason 0 = 0), decide (s.headerReason 1 = 0) with
  | true, true => if ga < gb then some 1 else some 0
  | true, false => some 0
  | false, true => some 1
  | false, false => none

/-- NVM_DISCOVERY (R73, R82): step 5; the flash reset abandons what the port was doing. -/
def execNvmDiscovery (sfdp : Option Sfdp) (s : State) : Res :=
  if s.bootAt 5 then
    let s := s.tearUnit
    match sfdp with
    | none => .next (s.fatal 3 0 0)
    | some f =>
      if sfdpOk f then
        let s := s.flashFound f
        let s := (s.checkHeader 0).checkHeader 1
        match s.firstSlot with
        | some k => .next ((s.withSlotTried (some k)).bootStep 6)
        | none => .next (s.fatal 3 0 0)
      else .next (s.fatal 3 0 0)
  else .next s

/-- A slot booted from (R82, R89). -/
def State.bootFrom (s : State) (k : Nat) : State :=
  let s := ((s.setSlot k 0).withBooted (some k)).withBodyHash (BitVec.ofNat 64 (leNat ((hdrHash (s.slotHeader k)).take 8)))
  ((s.put SYS_STATUS.SLOT k).put NVM_SLOT.BOOTED k).bootStep 7

/-- IMAGE_READ (R77, R82): the slot read of step 6 ends. -/
def execImageRead (s : State) : Res :=
  if s.bootAt 6 then
    match s.slotTried with
    | none => .next s
    | some k =>
      let r := s.slotReason k
      if r = 0 then .next (s.bootFrom k)
      else
        let s := s.setSlot k r
        if s.flag SYS_STATUS.SECOND_SLOT then .next (s.fatal 3 0 0)
        else
          let s := (s.event 3 1).put SYS_STATUS.SECOND_SLOT 1
          if s.headerReason (1 - k) = 0 then .next (s.withSlotTried (some (1 - k))) else .next (s.fatal 3 0 0)
  else .next s

/-- APPLY (R24, R79-R81, R85): step 7. -/
def execApply (rb : List Readback) (s : State) : Res :=
  if s.bootAt 7 then
    match s.booted with
    | none => .next s
    | some k => .next (s.applyImage rb ((bodyRecords (s.slotBody k)).getD []))
  else .next s

/-- IDLE_ENTRY (R29, R33): step 8; the RWL registers lock and IDLE is entered. -/
def execIdleEntry (s : State) : Res :=
  if s.bootAt 8 then .next (((s.bootStep 0xF).setMode .idle).put SYS_STATUS.TRANSIT 0) else .next s

/-- HU_CAP_MEASURED (R48): the time for 20 V at 100 mA in microseconds, and the HU voltage; once after every OFF. -/
def execHuCapMeasured (us : Nat) (hu : BitVec 16) (s : State) : Res :=
  if s.mode = .off ∨ s.persist.capDone then .next s
  else
    let s := (s.put PWR_HOLDUP_V.V hu.toNat).withPersist { s.persist with capDone := true }
    if 2000 ≤ us ∧ us ≤ 100000 then
      let pr := s.roundLow us 20
      let c := pr.1
      let s := pr.2
      .next ((s.put PWR_HOLDUP_CAP.CAP c).put PWR_STATUS.CAP_VALID 1)
    else .next (((s.put PWR_HOLDUP_CAP.CAP 0).put PWR_STATUS.CAP_VALID 0).event 2 5)

/-! ## Requests and faults (R31, R37-R40) -/

/-- RESET_BOOT (R29-R32): the request with a valid KEY. -/
def execResetBoot (s : State) : Res := .next (s.hostWrite SYS_MODE_REQ.addr 0x5A000001 (fun s => s.modeRequest 1))

/-- ENTER_CAL (R31). -/
def execEnterCal (s : State) : Res := .next (s.hostWrite SYS_MODE_REQ.addr 0x5A000002 (fun s => s.modeRequest 2))

/-- LEAVE_CAL (R31). -/
def execLeaveCal (s : State) : Res := .next (s.hostWrite SYS_MODE_REQ.addr 0x5A000003 (fun s => s.modeRequest 3))

/-- ENTER_SAFE (R31). -/
def execEnterSafe (s : State) : Res := .next (s.hostWrite SYS_MODE_REQ.addr 0x5A000004 (fun s => s.modeRequest 4))

/-- FATAL_FAULT (R37): a fault of Table 2-7 with its UNIT and DETAIL; code 0 is none. -/
def execFatalFault (code : Fin 13) (unit : BitVec 8) (detail : BitVec 16) (s : State) : Res :=
  if code = 0 then .next s else .next (s.fatal code unit.toNat detail.toNat)

/-- RAIL_FAULT (R37). -/
def execRailFault (rail : Fin 8) (s : State) : Res :=
  if s.mode = .off then .next s else .next ((s.put PWR_STATUS.POWER_GOOD 0).fatal 8 rail 0)

/-- CLOCK_LOSS (R37, R56): outside BOOT step 1; the housekeeping domain goes on from the fallback oscillator. -/
def execClockLoss (s : State) : Res :=
  if s.mode = .off ∨ s.bootAt 1 then .next s
  else .next (s.rootLost.fatal 7 0 0)

/-- HK_WATCHDOG (R40). -/
def execHkWatchdog (s : State) : Res := .next (s.fatal 9 0 0)

/-! ## Supply (R42-R54) -/

/-- EN_OFF (R42). -/
def execEnOff (s : State) : Res := .next ((s.withPins { s.pins with en := false }).shedding .enOff)

/-- PFAIL (R42). -/
def execPfail (s : State) : Res := .next (s.shedding .pfail)

/-- OFF_ENTRY (R42, R43): once the NVM port is idle. -/
def execOffEntry (s : State) : Res := if s.shed ≠ none ∧ s.unit = none then .next s.off else .next s

/-- VIN_LOW (R44). -/
def execVinLow (vin : BitVec 16) (s : State) : Res :=
  if s.mode = .off then .next s else .next (((s.put PWR_VIN.VIN vin.toNat).put PWR_STATUS.VIN_LOW 1).event 2 2)

/-- VIN_SURGE (R44). -/
def execVinSurge (vin : BitVec 16) (s : State) : Res :=
  if s.mode = .off then .next s else .next (((s.put PWR_VIN.VIN vin.toNat).put PWR_STATUS.VIN_SURGE 1).event 2 3)

/-- VIN_SURGE_END (R44). -/
def execVinSurgeEnd (vin : BitVec 16) (s : State) : Res :=
  if s.mode = .off then .next s else .next ((s.put PWR_VIN.VIN vin.toNat).put PWR_STATUS.VIN_SURGE 0)

/-- POWER_HIGH (R46). -/
def execPowerHigh (p : BitVec 16) (s : State) : Res :=
  if s.mode = .off then .next s else .next ((s.put PWR_INPUT_P.P p.toNat).event 2 4)

/-- HOLDUP_EXHAUSTED (R54): the hold-up energy ends before the port is idle; what it writes is torn, and OFF follows. -/
def execHoldupExhausted (s : State) : Res := if s.shed ≠ none then .next s.tearUnit.off else .next s

end Sys2Proof.Machine
end

