-- ==== Sys2Proof/Machine/Dispatch.lean ====
section
/-! DEFINITION. One arm per command: a direct call of its meaning. -/

namespace Sys2Proof.Machine

/-- The effect of a command on everything but the queue. -/
def exec (i : Instr) (s : State) : Host.Outcome State Fault Refusal :=
  match i with
  | .uvloStart role rma temps => Sys2Proof.Machine.execUvloStart role rma temps s
  | .softStart rail => Sys2Proof.Machine.execSoftStart rail s
  | .sramClear failmap => Sys2Proof.Machine.execSramClear failmap s
  | .returnErase sfdp => Sys2Proof.Machine.execReturnErase sfdp s
  | .selfTest failmap => Sys2Proof.Machine.execSelfTest failmap s
  | .dramTraining bad => Sys2Proof.Machine.execDramTraining bad s
  | .nvmDiscovery sfdp => Sys2Proof.Machine.execNvmDiscovery sfdp s
  | .imageRead => Sys2Proof.Machine.execImageRead s
  | .apply rb => Sys2Proof.Machine.execApply rb s
  | .idleEntry => Sys2Proof.Machine.execIdleEntry s
  | .huCapMeasured us hu => Sys2Proof.Machine.execHuCapMeasured us hu s
  | .resetBoot => Sys2Proof.Machine.execResetBoot s
  | .enterCal => Sys2Proof.Machine.execEnterCal s
  | .leaveCal => Sys2Proof.Machine.execLeaveCal s
  | .enterSafe => Sys2Proof.Machine.execEnterSafe s
  | .fatalFault code unit detail => Sys2Proof.Machine.execFatalFault code unit detail s
  | .railFault rail => Sys2Proof.Machine.execRailFault rail s
  | .clockLoss => Sys2Proof.Machine.execClockLoss s
  | .hkWatchdog => Sys2Proof.Machine.execHkWatchdog s
  | .tempSample temps => Sys2Proof.Machine.execTempSample temps s
  | .enOff => Sys2Proof.Machine.execEnOff s
  | .pfail => Sys2Proof.Machine.execPfail s
  | .offEntry => Sys2Proof.Machine.execOffEntry s
  | .vinLow vin => Sys2Proof.Machine.execVinLow vin s
  | .vinSurge vin => Sys2Proof.Machine.execVinSurge vin s
  | .powerHigh p => Sys2Proof.Machine.execPowerHigh p s
  | .rootChange v => Sys2Proof.Machine.execRootChange v s
  | .refSrcWrite v => Sys2Proof.Machine.execRefSrcWrite v s
  | .rootChanged bad => Sys2Proof.Machine.execRootChanged bad s
  | .refLost => Sys2Proof.Machine.execRefLost s
  | .refRestored => Sys2Proof.Machine.execRefRestored s
  | .ocxoWarm => Sys2Proof.Machine.execOcxoWarm s
  | .timeWrap => Sys2Proof.Machine.execTimeWrap s
  | .syncExchange => Sys2Proof.Machine.execSyncExchange s
  | .syncReq p xch rsp => Sys2Proof.Machine.execSyncReq p xch rsp s
  | .syncRsp xch turn t2 t4 => Sys2Proof.Machine.execSyncRsp xch turn t2 t4 s
  | .nvmRead => Sys2Proof.Machine.execNvmRead s
  | .nvmProgram => Sys2Proof.Machine.execNvmProgram s
  | .nvmErase => Sys2Proof.Machine.execNvmErase s
  | .eraseSlot => Sys2Proof.Machine.execEraseSlot s
  | .validateSlot => Sys2Proof.Machine.execValidateSlot s
  | .calCommit => Sys2Proof.Machine.execCalCommit s
  | .nvmAbort => Sys2Proof.Machine.execNvmAbort s
  | .flashOpComplete e => Sys2Proof.Machine.execFlashOpComplete e s
  | .holdupRetry hu => Sys2Proof.Machine.execHoldupRetry hu s
  | .persistPage => Sys2Proof.Machine.execPersistPage s
  | .ppmuStart c v => Sys2Proof.Machine.execPpmuStart c v s
  | .ppmuDone c vs ok => Sys2Proof.Machine.execPpmuDone c vs ok s
  | .dacReadbackScan c dac uv => Sys2Proof.Machine.execDacReadbackScan c dac uv s
  | .senseMeasStart m v => Sys2Proof.Machine.execSenseMeasStart m v s
  | .srefReadbackStart m v => Sys2Proof.Machine.execSrefReadbackStart m v s
  | .conversionDone sref m v hi => Sys2Proof.Machine.execConversionDone sref m v hi s
  | .seqStart n v => Sys2Proof.Machine.execSeqStart n v s
  | .seqArm n v => Sys2Proof.Machine.execSeqArm n v s
  | .seqStop n v => Sys2Proof.Machine.execSeqStop n v s
  | .seqAbort n v => Sys2Proof.Machine.execSeqAbort n v s
  | .startChecks n => Sys2Proof.Machine.execStartChecks n s
  | .actArmed n => Sys2Proof.Machine.execActArmed n s
  | .startTime n => Sys2Proof.Machine.execStartTime n s
  | .nextVec n ecc => Sys2Proof.Machine.execNextVec n ecc s
  | .repeatVec n k => Sys2Proof.Machine.execRepeatVec n k s
  | .jump n => Sys2Proof.Machine.execJump n s
  | .call n => Sys2Proof.Machine.execCall n s
  | .ret n => Sys2Proof.Machine.execRet n s
  | .loopVec n => Sys2Proof.Machine.execLoopVec n s
  | .endloop n => Sys2Proof.Machine.execEndloop n s
  | .branch n => Sys2Proof.Machine.execBranch n s
  | .matchVec n k => Sys2Proof.Machine.execMatchVec n k s
  | .matchTimeout n => Sys2Proof.Machine.execMatchTimeout n s
  | .waitTime n k => Sys2Proof.Machine.execWaitTime n k s
  | .waitTimeReached n => Sys2Proof.Machine.execWaitTimeReached n s
  | .waitWhistle n k => Sys2Proof.Machine.execWaitWhistle n k s
  | .waitTimeout n => Sys2Proof.Machine.execWaitTimeout n s
  | .callBlock n k => Sys2Proof.Machine.execCallBlock n k s
  | .swap n => Sys2Proof.Machine.execSwap n s
  | .markVec n => Sys2Proof.Machine.execMarkVec n s
  | .halt n => Sys2Proof.Machine.execHalt n s
  | .prefetchRecord n k ecc => Sys2Proof.Machine.execPrefetchRecord n k ecc s
  | .forwardFrame d f => Sys2Proof.Machine.execForwardFrame d f s
  | .pinEdge c cyc e raw => Sys2Proof.Machine.execPinEdge c cyc e raw s
  | .returnFrame d f ecc => Sys2Proof.Machine.execReturnFrame d f ecc s
  | .rqPushApply ecc => Sys2Proof.Machine.execRqPushApply ecc s
  | .comparatorTransition c low rise t code => Sys2Proof.Machine.execComparatorTransition c low rise t code s
  | .burstTimeout c => Sys2Proof.Machine.execBurstTimeout c s
  | .endOfL n t => Sys2Proof.Machine.execEndOfL n t s
  | .actStopped n => Sys2Proof.Machine.execActStopped n s
  | .failTilePush g v => Sys2Proof.Machine.execFailTilePush g v s
  | .tilePushPeriod g => Sys2Proof.Machine.execTilePushPeriod g s
  | .tileClearDone g => Sys2Proof.Machine.execTileClearDone g s
  | .rqCtrlClear v => Sys2Proof.Machine.execRqCtrlClear v s
  | .rqFinalize v => Sys2Proof.Machine.execRqFinalize v s
  | .rqFinalized => Sys2Proof.Machine.execRqFinalized s
  | .rqDescSel v ecc => Sys2Proof.Machine.execRqDescSel v ecc s
  | .rqMapCfgWrite g v => Sys2Proof.Machine.execRqMapCfgWrite g v s
  | .tdcStart c v => Sys2Proof.Machine.execTdcStart c v s
  | .tdcAbort c v => Sys2Proof.Machine.execTdcAbort c v s
  | .missClr c v => Sys2Proof.Machine.execMissClr c v s
  | .tdcArmTime c => Sys2Proof.Machine.execTdcArmTime c s
  | .tdcTimeout c => Sys2Proof.Machine.execTdcTimeout c s
  | .skewWindow c => Sys2Proof.Machine.execSkewWindow c s
  | .freqGate c => Sys2Proof.Machine.execFreqGate c s
  | .tdcResult c => Sys2Proof.Machine.execTdcResult c s
  | .tdcStatusRead src c => Sys2Proof.Machine.execTdcStatusRead src c s
  | .loRead src a ecc => Sys2Proof.Machine.execLoRead src a ecc s
  | .trigArm k v => Sys2Proof.Machine.execTrigArm k v s
  | .trigDisarm k v => Sys2Proof.Machine.execTrigDisarm k v s
  | .trigStageTimeout k => Sys2Proof.Machine.execTrigStageTimeout k s
  | .trigHoldoffEnd k => Sys2Proof.Machine.execTrigHoldoffEnd k s
  | .streamEnable j v => Sys2Proof.Machine.execStreamEnable j v s
  | .streamDisable j v => Sys2Proof.Machine.execStreamDisable j v s
  | .integEnd j d => Sys2Proof.Machine.execIntegEnd j d s
  | .recordWindowEnd j => Sys2Proof.Machine.execRecordWindowEnd j s
  | .stampsClose j => Sys2Proof.Machine.execStampsClose j s
  | .streamRecord j => Sys2Proof.Machine.execStreamRecord j s
  | .streamCopy r => Sys2Proof.Machine.execStreamCopy r s
  | .livePassStart d => Sys2Proof.Machine.execLivePassStart d s
  | .codeDensityDone d hits => Sys2Proof.Machine.execCodeDensityDone d hits s
  | .livePassEnd d m => Sys2Proof.Machine.execLivePassEnd d m s
  | .calStarved d => Sys2Proof.Machine.execCalStarved d s
  | .calApplyWait => Sys2Proof.Machine.execCalApplyWait s
  | .fullRunDone dies ms => Sys2Proof.Machine.execFullRunDone dies ms s
  | .monPin c uv => Sys2Proof.Machine.execMonPin c uv s
  | .monDisClear c => Sys2Proof.Machine.execMonDisClear c s
  | .dchkDisClear c => Sys2Proof.Machine.execDchkDisClear c s
  | .monSense m uv => Sys2Proof.Machine.execMonSense m uv s
  | .senseRearm m => Sys2Proof.Machine.execSenseRearm m s
  | .senseBlankExpiry m uv => Sys2Proof.Machine.execSenseBlankExpiry m uv s
  | .srefWrite m v => Sys2Proof.Machine.execSrefWrite m v s
  | .clrN => Sys2Proof.Machine.execClrN s
  | .parkN => Sys2Proof.Machine.execParkN s
  | .sysParkWrite v => Sys2Proof.Machine.execSysParkWrite v s
  | .patrolRegion ecc => Sys2Proof.Machine.execPatrolRegion ecc s
  | .patrolRegionDone ok => Sys2Proof.Machine.execPatrolRegionDone ok s
  | .boardRead ba coll ecc => Sys2Proof.Machine.execBoardRead ba coll ecc s
  | .boardWrite ba v coll => Sys2Proof.Machine.execBoardWrite ba v coll s
  | .bcsRelease => Sys2Proof.Machine.execBcsRelease s
  | .atomicAdd a wide v => Sys2Proof.Machine.execAtomicAdd a wide v s
  | .atomicSwap a wide v => Sys2Proof.Machine.execAtomicSwap a wide v s
  | .bar2Read a len ecc => Sys2Proof.Machine.execBar2Read a len ecc s
  | .bar2Write a bytes => Sys2Proof.Machine.execBar2Write a bytes s
  | .dramPartWrite j size v => Sys2Proof.Machine.execDramPartWrite j size v s
  | .seqCbMaskWrite n v => Sys2Proof.Machine.execSeqCbMaskWrite n v s
  | .failRingChWrite g j v => Sys2Proof.Machine.execFailRingChWrite g j v s
  | .registerWrite src a v be => Sys2Proof.Machine.execRegisterWrite src a v be s
  | .linkActive p res => Sys2Proof.Machine.execLinkActive p res s
  | .retrain p => Sys2Proof.Machine.execRetrain p s
  | .lnkPortCfgWrite p v => Sys2Proof.Machine.execLnkPortCfgWrite p v s
  | .barkerSend p => Sys2Proof.Machine.execBarkerSend p s
  | .barker p w => Sys2Proof.Machine.execBarker p w s
  | .partnerLost p => Sys2Proof.Machine.execPartnerLost p s
  | .ack p seq nak req rsp => Sys2Proof.Machine.execAck p seq nak req rsp s
  | .replayTimeout p => Sys2Proof.Machine.execReplayTimeout p s
  | .lnkTimeout p tag => Sys2Proof.Machine.execLnkTimeout p tag s
  | .rdReq p h a count ecc => Sys2Proof.Machine.execRdReq p h a count ecc s
  | .wrReq p h a words => Sys2Proof.Machine.execWrReq p h a words s
  | .rdRsp p h status words => Sys2Proof.Machine.execRdRsp p h status words s
  | .wrRsp p h status => Sys2Proof.Machine.execWrRsp p h status s
  | .eventFrame p h rec => Sys2Proof.Machine.execEventFrame p h rec s
  | .join p h profile => Sys2Proof.Machine.execJoin p h profile s
  | .joinSend => Sys2Proof.Machine.execJoinSend s
  | .showReport p h sh act state reason cycle t => Sys2Proof.Machine.execShowReport p h sh act state reason cycle t s
  | .showRunTimeout sh => Sys2Proof.Machine.execShowRunTimeout sh s
  | .bench p h sh clear => Sys2Proof.Machine.execBench p h sh clear s
  | .showUnbench sh j v => Sys2Proof.Machine.execShowUnbench sh j v s
  | .stopWhistle p w => Sys2Proof.Machine.execStopWhistle p w s
  | .parkWhistle p w => Sys2Proof.Machine.execParkWhistle p w s
  | .abortWhistle p w => Sys2Proof.Machine.execAbortWhistle p w s
  | .startWhistle p w t => Sys2Proof.Machine.execStartWhistle p w t s
  | .cueWhistle p w cue t => Sys2Proof.Machine.execCueWhistle p w cue t s
  | .whistleWindow => Sys2Proof.Machine.execWhistleWindow s
  | .sendStop sh => Sys2Proof.Machine.execSendStop sh s
  | .sendPark sh => Sys2Proof.Machine.execSendPark sh s
  | .sendAbort sh => Sys2Proof.Machine.execSendAbort sh s
  | .sendStart sh => Sys2Proof.Machine.execSendStart sh s
  | .sendCue sh cue => Sys2Proof.Machine.execSendCue sh cue s
  | .queueEnable q v => Sys2Proof.Machine.execQueueEnable q v s
  | .queueDisable q v => Sys2Proof.Machine.execQueueDisable q v s
  | .sqDoorbell q v => Sys2Proof.Machine.execSqDoorbell q v s
  | .commandFetch q c => Sys2Proof.Machine.execCommandFetch q c s
  | .commandComplete q => Sys2Proof.Machine.execCommandComplete q s
  | .cqHeadWrite q v => Sys2Proof.Machine.execCqHeadWrite q v s
  | .cmdTimeout q id => Sys2Proof.Machine.execCmdTimeout q id s
  | .flr => Sys2Proof.Machine.execFlr s
  | .nop q id => Sys2Proof.Machine.execNop q id s
  | .regRead q id ecc => Sys2Proof.Machine.execRegRead q id ecc s
  | .regWrite q id data => Sys2Proof.Machine.execRegWrite q id data s
  | .dmaToDram q id data => Sys2Proof.Machine.execDmaToDram q id data s
  | .dmaFromDram q id ecc => Sys2Proof.Machine.execDmaFromDram q id ecc s
  | .loadBank q id data => Sys2Proof.Machine.execLoadBank q id data s
  | .loadBlock q id data => Sys2Proof.Machine.execLoadBlock q id data s
  | .actStart q id => Sys2Proof.Machine.execActStart q id s
  | .actStop q id => Sys2Proof.Machine.execActStop q id s
  | .actAbort q id => Sys2Proof.Machine.execActAbort q id s
  | .actWait q id => Sys2Proof.Machine.execActWait q id s
  | .tilePush q id => Sys2Proof.Machine.execTilePush q id s
  | .finalize q id => Sys2Proof.Machine.execFinalize q id s
  | .rqClear q id => Sys2Proof.Machine.execRqClear q id s
  | .modeReq q id => Sys2Proof.Machine.execModeReq q id s
  | .nvmCommand q id data => Sys2Proof.Machine.execNvmCommand q id data s
  | .remoteRead q id => Sys2Proof.Machine.execRemoteRead q id s
  | .remoteWrite q id data => Sys2Proof.Machine.execRemoteWrite q id data s
  | .whistle q id => Sys2Proof.Machine.execWhistle q id s
  | .signedCalCommit q id data => Sys2Proof.Machine.execSignedCalCommit q id data s
  | .keyProgram q id data => Sys2Proof.Machine.execKeyProgram q id data s
  | .keyRevoke q id data => Sys2Proof.Machine.execKeyRevoke q id data s
  | .decKeyProgram q id data => Sys2Proof.Machine.execDecKeyProgram q id data s
  | .returnAuth q id data => Sys2Proof.Machine.execReturnAuth q id data s
  | .advanceIntegration => Sys2Proof.Machine.execAdvanceIntegration s
  | .advanceField => Sys2Proof.Machine.execAdvanceField s
  | .debugLock => Sys2Proof.Machine.execDebugLock s
  | .bdDoorbell => Sys2Proof.Machine.execBdDoorbell s
  | .evtIrqDefer => Sys2Proof.Machine.execEvtIrqDefer s
  | .parkNRelease => Sys2Proof.Machine.execParkNRelease s
  | .clrNRelease => Sys2Proof.Machine.execClrNRelease s
  | .vinSurgeEnd vin => Sys2Proof.Machine.execVinSurgeEnd vin s
  | .sourceValidAgain seen => Sys2Proof.Machine.execSourceValidAgain seen s
  | .ocxoWarmLost => Sys2Proof.Machine.execOcxoWarmLost s
  | .partnerRateChange p => Sys2Proof.Machine.execPartnerRateChange p s
  | .powerStateChange d3 => Sys2Proof.Machine.execPowerStateChange d3 s
  | .conventionalReset => Sys2Proof.Machine.execConventionalReset s
  | .rqClearDone => Sys2Proof.Machine.execRqClearDone s
  | .tilePushEnd g => Sys2Proof.Machine.execTilePushEnd g s
  | .holdupExhausted => Sys2Proof.Machine.execHoldupExhausted s
  | .jtagInstruction j => Sys2Proof.Machine.execJtagInstruction j s

end Sys2Proof.Machine
end

