-- ==== Sys2Proof/Safety.lean ====
section
/-! DEFINITION. What counts as a safe run, and the terms in which claims say what a command leaves unchanged. -/

namespace Sys2Proof

open Machine

/-- A step that answers a next state. -/
def Goes (s : State) : Prop := ∃ t, step s = .next t

/-- A state in canonical form between commands. -/
def Safe (s : State) : Prop := s.wf = true

/-- The registers that raising interrupts and events may write (R326, R335): SYS_IRQ_STATUS, EVT_WR, EVT_LOST and the two
words of the MSI-X pending bit array. -/
def Machine.evtReg (a : Nat) : Bool :=
  decide (a = SYS_IRQ_STATUS.addr ∨ a = EVT_WR.addr ∨ a = EVT_LOST.addr ∨ a = MSIX_PBA.addr 0 ∨ a = MSIX_PBA.addr 1)

/-- Every register but those listed reads as before. -/
def RegsBut (as : List Nat) (s t : State) : Prop := ∀ a, a ∉ as → t.reg a = s.reg a

/-- Every register but those listed and those of interrupts and events reads as before. -/
def RegsButEvents (as : List Nat) (s t : State) : Prop := ∀ a, a ∉ as → evtReg a = false → t.reg a = s.reg a

/-- Registers are all that changes, and of them only those listed: every memory, every pin, every hidden state is as
before. -/
def OnlyRegs (as : List Nat) (s t : State) : Prop := t.withRegs s.regs = s ∧ RegsBut as s t

/-- What few commands touch is as before: the queue, the fuses, the trims, the TAP, the epoch, the flash, the private banks,
the shedding, the PCIe power state, host memory. -/
def Still (s t : State) : Prop :=
  t.pending = s.pending ∧ t.otp = s.otp ∧ t.trims = s.trims ∧ t.jtag = s.jtag ∧ t.epoch = s.epoch ∧ t.flash = s.flash ∧
    t.banks = s.banks ∧ t.shed = s.shed ∧ t.d3hot = s.d3hot ∧ t.hostMem = s.hostMem

/-- As `Still`, and the mode, the time and the temperature samples are as before. -/
def Steady (s t : State) : Prop := Still s t ∧ t.mode = s.mode ∧ t.time = s.time ∧ t.sensors = s.sensors

/-- What a host error reaches (R9, R10; DESIGN CHOICE, notes/assumptions/9.md) is an act, a channel, a ring, a trigger unit, a
stream, a queue, a show or the repair analyzer, with its part of the registers and of DRAM: all else is as before, with the
registers of SYS, CLK, PWR, NVM, LC, MON and CAL, every park, bank, start, abort and monitor, and every ownership. -/
def Undisturbed (s t : State) : Prop :=
  { t with regs := s.regs, dram := s.dram, acts := s.acts, chans := s.chans, rings := s.rings, rq := s.rq, trigs := s.trigs,
           streams := s.streams, queues := s.queues, shows := s.shows, freeCtr := s.freeCtr } = s ∧
    (∀ a, a < 0x60000 ∨ (0x90000 ≤ a ∧ a < 0xB0000) → t.reg a = s.reg a) ∧
    (∀ c, (t.chan c).park = (s.chan c).park ∧ (t.chan c).ringPark = (s.chan c).ringPark ∧
      (t.chan c).active = (s.chan c).active ∧ (t.chan c).staged = (s.chan c).staged) ∧
    (∀ c : Chan, t.reg (PIN_CFG.addr c) = s.reg (PIN_CFG.addr c) ∧ t.reg (PIN_MON_WIN.addr c) = s.reg (PIN_MON_WIN.addr c) ∧
      t.flag (PIN_STATUS.MON_DIS c) = s.flag (PIN_STATUS.MON_DIS c)) ∧
    (∀ n, (t.act n).armedBy = (s.act n).armedBy ∧ (t.act n).aborted = (s.act n).aborted) ∧
    (∀ n : Act, t.actState n = s.actState n ∧ t.reg (SEQ_CB_MASK.addr n) = s.reg (SEQ_CB_MASK.addr n)) ∧
    ∀ (g : Ring) (i : Fin 32), t.reg (FAIL_RING_CH.addr g i) = s.reg (FAIL_RING_CH.addr g i)

/-- A write of `n` bytes of DRAM from `a` on that meets no region queue in use, no enabled stream's ring and no block of an
executing act (R143, R199, R251). -/
def Clear (a n : Nat) (s : State) : Prop :=
  (∀ g, g < 64 → s.hitsPool a n g = false) ∧ (∀ i, i < 16 → s.hitsStream a n i = false) ∧
    ∀ m, m < 16 → s.hitsBlocks a n m = false

/-- Act `n` can issue a vector of the microinstruction at its PC, which has a FLOW opcode and no reserved code (R158), and
in timed mode a valid timing set (R121). -/
def MayRun (flow n : Nat) (s : State) : Prop :=
  s.canIssue n = true ∧ uFlow (s.microWord n) = flow ∧ uReserved (s.microWord n) = false ∧
    (s.timed n = true → s.flag (TMG_PERIOD_HI.VALID n (uTset (s.microWord n))) = true)

/-- Act `n` has issued one vector (R154, R156): SEQ_CYCLE counts it, SEQ_PC names its microinstruction, the delay line
holds it, every die of the act is to receive it; every other act, and every register but those of the two and those
listed, is as before. -/
def IssuedOne (n : Nat) (as : List Nat) (s t : State) : Prop :=
  t.issued n = (s.issued n + 1) % 2 ^ 64 ∧ t.fld (SEQ_PC.ADDR n) = (s.act n).pc % 65536 ∧
    (t.act n).line.length = (s.act n).line.length + 1 ∧
    (∀ b ∈ s.actBlocks n, (t.die b).fwd.length = (s.die b).fwd.length + 1) ∧ (∀ m, m ≠ n → t.act m = s.act m) ∧
    t.dram = s.dram ∧ Steady s t ∧ RegsBut (SEQ_CYCLE_LO.addr n :: SEQ_CYCLE_HI.addr n :: SEQ_PC.addr n :: as) s t

/-- Act `n` is stopping with STACK_FAULT after the last vector it has issued (R150, R154, R169): SEQ_PC holds the address of
its microinstruction, which issued none. -/
def StackFault (n : Nat) (s t : State) : Prop :=
  t.actState n = 4 ∧ t.fld (SEQ_STATUS.STOP_REASON n) = 0xB ∧ (t.act n).stop = some (s.issued n, 0xB) ∧
    t.issued n = s.issued n ∧ t.fld (SEQ_PC.ADDR n) = (s.act n).pc % 65536 ∧ (∀ m, m ≠ n → t.act m = s.act m) ∧ Steady s t

/-- A return frame of die `d` whose CRC matches brings the last results that vector `p` of act `n` waits for, the only one
in its delay line and no trial of a MATCH (R17, R178); `F` is the vector with its results. No trigger is armed. -/
def LastResults (d : Die) (fr : RetFrame) (n : Nat) (p : PinVec) (F : Flight) (s : State) : Prop :=
  s.inService = true ∧ s.executing n = true ∧ s.actOfBlock d = some n ∧ fr.ok = true ∧
    (s.die d).pins.find? (fun q => !q.back) = some p ∧ F.vec.trial = none ∧
    (∀ k, k < 16 → s.flag (ACQ_TRIG_STATUS.ARMED k) = false) ∧
    (∀ x ∈ s.expected n p d, x.1 ∈ p.sent ∨ bitOf fr.chans.toNat (x.1 % 64) = true ∧ bitOf fr.uis.toNat (x.1 / 1024) = true) ∧
    ∃ f due, (s.act n).line = [f] ∧ f.vec.cycle = p.vec.cycle ∧
      (∀ b ∈ s.actBlocks n, b ≠ d.val → bitOf f.got.toNat b = true) ∧
      due = (s.expected n p d).filter (fun x => decide (x.1 ∉ p.sent)) ∧
      F = { f with
        got := f.got ||| BitVec.ofNat 16 (2 ^ d.val), exp := tabJoin f.exp due
        res := tabJoin f.res (s.frameResults n p true due)
        times := tabJoin f.times (due.map (fun x => (x.1, s.resultTime n p x.1 (x.2 - 1)))) }

/-- The recorded fails of vector `F` of act `n` are `fs`, all of ring `g`, whose configuration holds nothing reserved (R178 to
R182). -/
def FailsAlone (n : Nat) (g : Ring) (F : Flight) (fs : List FailCmp) (s : State) : Prop :=
  s.records n g F.vec = true ∧ s.ringFails g F.fails = fs ∧ fs ≠ [] ∧ s.failReserved g F.vec = false ∧
    ∀ h, h < 64 → h ≠ g.val → s.records n h F.vec = false ∨ s.ringFails h F.fails = []

/-- The command at the head of queue `q` is `c`, with an opcode of Table 18-5, and may start now: the DMA engines take it
(R329, R330, Table 18-7); no started command of the queue carries its CMD_ID. -/
def MayStart (q op : Nat) (c : HostCmd) (s : State) : Prop :=
  s.headCmd q c.id op = some c ∧ (s.mode = .safe → opcodeSafe op = true) ∧ s.dmaTakes op = true ∧
    ∀ d ∈ (s.queue q).started, d.id ≠ c.id

/-- The outcome of a command that has started. -/
def outcome (c : HostCmd) (status result : Nat) : Compl :=
  { id := c.id.toNat, status := status, result := result, irq := bitOf c.flags.toNat 0 }

/-- The times at which the waits of a queue's other commands began (R333). -/
def Machine.QueueSt.otherWaits (x : QueueSt) (c : HostCmd) : List (Nat × Nat) :=
  x.waits.filter (fun e => decide (e.1 ≠ c.id.toNat))

/-- A started command `c` of a queue has ended: `r` are the commands that go on, its outcome is the last of those whose
completion is to be written, and nothing that it kept for later steps is left (R328, Table 18-4). -/
def Machine.QueueSt.ended (x : QueueSt) (c : HostCmd) (r : List HostCmd) (status result : Nat) : QueueSt :=
  { x.forget c.id.toNat with started := r, done := x.done ++ [outcome c status result] }

/-- The command at the head of queue `q` has started and ended: its outcome is the last of those whose completion is to be
written; every other queue is as before (R328, Table 18-4). -/
def Ended (q : Nat) (c : HostCmd) (status result : Nat) (s t : State) : Prop :=
  t.queue q = { (s.queue q).ended c (s.queue q).started status result with
      waiting := (s.queue q).waiting.drop 1, waits := (s.queue q).otherWaits c } ∧
    ∀ p, p ≠ q → t.queue p = s.queue p

/-- The command at the head of queue `q` has ended with a status and never started (R330, R333); every other queue is as
before. -/
def NeverStarted (q : Nat) (c : HostCmd) (status : Nat) (s t : State) : Prop :=
  t.queue q = { s.queue q with
      waiting := (s.queue q).waiting.drop 1
      waits := (s.queue q).otherWaits c
      done := (s.queue q).done ++ [{ outcome c status 0 with began := false }] } ∧
    ∀ p, p ≠ q → t.queue p = s.queue p

/-- The command at the head of queue `q` has started and is still in progress; every other queue is as before. -/
def Started (q : Nat) (c : HostCmd) (s t : State) : Prop :=
  t.queue q = { s.queue q with
      waiting := (s.queue q).waiting.drop 1
      waits := (s.queue q).otherWaits c
      started := (s.queue q).started ++ [c] } ∧
    ∀ p, p ≠ q → t.queue p = s.queue p

/-- A frame that a port takes (R308): the port is ACTIVE, the module not in SAFE (Table 2-2), the CRC matches, the SEQ is the
one expected next. -/
def Arrives (p : Port) (h : FrameHdr) (s : State) : Prop :=
  s.portActive p = true ∧ s.mode ≠ .safe ∧ h.crcOk = true ∧ h.seq.toNat = (s.port p).rx

/-- A signed request that passes the checks of Table 19-5 but the signature (R344). -/
def Passes (b : List Byte) (s : State) : Prop :=
  formatOk b = true ∧ typePermitted s.lcState (reqType b) (reqKeyId b) = true ∧ s.fld LC_TOKEN_STATUS.BADSIG < 8 ∧
    s.flag LC_TOKEN_STATUS.BUSY = false ∧ s.lcMode = true ∧ reqSerial b = s.otp.serial.toNat ∧
    reqNonce b = (s.reg LC_NONCE.addr).toNat ∧ s.keyIdOk (reqType b) (reqKeyId b) = true ∧
    (reqType b = 0x10 → s.flag LC_STATE.RMA_PIN = true) ∧ s.typeCheck b = 0

/-- The base addresses of the registers whose write has an action or a guard of its own; every other one is stored (R5,
R348). -/
def Machine.actingBases : List Nat :=
  [0x14, 0x80, 0x88, 0x10000, 0x10030, 0x20010, 0x20024, 0x30008, 0x40004, 0x4000C, 0x60000, 0x60004, 0x60008,
   0x6000C, 0x60010, 0x60014, 0x6001C, 0x60804, 0x61000, 0x70020, 0x72004, 0x72008, 0x74000, 0x74004, 0x74024,
   0x74040, 0x74060, 0x80100, 0x80104, 0x90010, 0x91000, 0x91008, 0xB0000, 0xB0008, 0xB0020, 0xB0040, 0xB0100,
   0xB0104, 0xB0108, 0xB010C, 0xC0000, 0xC0008, 0xC0010, 0xC0014, 0xC4000, 0xC2000, 0xC2008, 0xC200C, 0xC2010,
   0xC2014, 0xC2018, 0xC201C, 0xC2024, 0xC2028, 0xC2030, 0xC2034, 0xC2038, 0xC2040, 0xC2044, 0xC2048, 0xC204C,
   0xC2050, 0xC2054, 0xC2058, 0xC2080, 0x100000, 0x100020, 0x100024, 0x100028, 0x100030, 0x100100, 0x100104,
   0x100110, 0x100118, 0x10011C, 0x200000, 0x200100, 0x200104, 0x400000, 0x400200, 0x400204, 0x400208, 0x400100,
   0x400104, 0x400220, 0x400800, 0x400004, 0x400300, 0x400304, 0x400400, 0x400610, 0x400614, 0x800030, 0x800034,
   0x80003C, 0x800044, 0x800048, 0x80004C, 0x800050, 0x800100]

/-- The register write that a row of one fixed register is: address and word. -/
def Machine.rowWrite : Instr → Option (Nat × Word)
  | .trigArm k v => some (ACQ_TRIG_CTRL.addr k, v)
  | .trigDisarm k v => some (ACQ_TRIG_CTRL.addr k, v)
  | .streamEnable i v => some (ACQ_STREAM_CTRL.addr i, v)
  | .streamDisable i v => some (ACQ_STREAM_CTRL.addr i, v)
  | .failTilePush g v => some (FAIL_TILE_CFG.addr g, v)
  | .seqStart n v => some (SEQ_CTRL.addr n, v)
  | .seqArm n v => some (SEQ_CTRL.addr n, v)
  | .seqStop n v => some (SEQ_CTRL.addr n, v)
  | .seqAbort n v => some (SEQ_CTRL.addr n, v)
  | .ppmuStart c v => some (PIN_PPMU_CFG.addr c, v)
  | .senseMeasStart m v => some (MON_SENSE_MEAS.addr m, v)
  | .srefReadbackStart m v => some (MON_SREF_STATUS.addr m, v)
  | .rootChange v => some (CLK_ROOT_CFG.addr, v)
  | .refSrcWrite v => some (CLK_ROOT_CFG.addr, v)
  | .queueEnable q v => some (HOST_Q_CFG.addr q, v)
  | .queueDisable q v => some (HOST_Q_CFG.addr q, v)
  | .sqDoorbell q v => some (HOST_Q_SQ_TAIL.addr q, v)
  | .cqHeadWrite q v => some (HOST_Q_CQ_HEAD.addr q, v)
  | .lnkPortCfgWrite p v => some (LNK_PORT_CFG.addr p, v)
  | .showUnbench sh i v => some (LNK_SHOW_BENCH.addr sh i, v)
  | .dramPartWrite i size v => some (if size then MEM_DRAM_PART_SIZE.addr i else MEM_DRAM_PART.addr i, v)
  | .seqCbMaskWrite n v => some (SEQ_CB_MASK.addr n, v)
  | .failRingChWrite g i v => some (FAIL_RING_CH.addr g i, v)
  | .srefWrite m v => some (MON_SREF_CODE.addr m, v)
  | .sysParkWrite v => some (SYS_PARK.addr, v)
  | .rqCtrlClear v => some (RQ_CTRL.addr, v)
  | .rqFinalize v => some (RQ_FINALIZE.addr, v)
  | .rqMapCfgWrite g v => some (RQ_MAP_CFG.addr g, v)
  | .tdcStart c v => some (PIN_TDC_MEAS.addr c, v)
  | .tdcAbort c v => some (PIN_TDC_MEAS.addr c, v)
  | .missClr c v => some (PIN_TDC_CFG.addr c, v)
  | _ => none

/-- The row that executes FLOW opcode `flow` of act `n` (Table 9-2); `k` is its choice of vectors. -/
def Machine.flowRow (n : Act) (k : Nat) : Nat → Option Instr
  | 0x00 => some (.nextVec n .clean)
  | 0x01 => some (.repeatVec n k)
  | 0x02 => some (.jump n)
  | 0x03 => some (.call n)
  | 0x04 => some (.ret n)
  | 0x05 => some (.loopVec n)
  | 0x06 => some (.endloop n)
  | 0x07 => some (.branch n)
  | 0x08 => some (.matchVec n k)
  | 0x09 => some (.waitTime n k)
  | 0x0A => some (.waitWhistle n k)
  | 0x0B => some (.callBlock n k)
  | 0x0C => some (.swap n)
  | 0x0D => some (.markVec n)
  | 0x0E => some (.halt n)
  | _ => none

end Sys2Proof
end

