-- ==== Sys2Proof/Certificates/Slice0/Obligations.lean ====
section
/-! DEFINITION. The statements about the model, one definition each. `exec c s = .next t` says that the command completes;
what follows says what the next state holds and what it leaves as it was. -/

section

open Sys2Proof Sys2Proof.Machine

/-! ## The machine as a whole -/

/-- One step with a command at the front of the queue is that command's effect on the rest of the queue. -/
def Obligations.StepRunsFrontCommand : Prop :=
  ∀ (c : Instr) (cs : List Instr) (s : State), step (s.withPending (c :: cs)) = exec c (s.withPending cs)

/-- With an empty queue a reference cycle passes: where the count does not run (before the root has locked, and in OFF)
nothing happens; where it runs, also on in the shedding sequence, it advances by 65,536 fines and the slew term, of all else
only requests that wait for a link tag can change, and a wrap starts the next epoch (the model's choice of tick,
notes/assumptions/7.md; R2, R64, R65, R67, R310). -/
def Obligations.IdleStepIsReferenceCycle : Prop :=
  ∀ s : State, s.pending = [] →
    ∃ t, step s = .next t ∧ t.pending = [] ∧ t.mode = s.mode ∧
      (s.counting = false → t = s) ∧
      (s.counting = true → 0 ≤ (s.time.toNat : Int) + 65536 + s.slew → (s.time.toNat : Int) + 65536 + s.slew < 2 ^ 64 →
        (t.time.toNat : Int) = s.time.toNat + 65536 + s.slew ∧ t.epoch = s.epoch ∧ t.regs = s.regs ∧ t.acts = s.acts ∧
        ((∀ p, (s.port p).held = []) → t.withTime s.time = s)) ∧
      (s.counting = true → (2 : Int) ^ 64 ≤ (s.time.toNat : Int) + 65536 + s.slew →
        (s.time.toNat : Int) + 65536 + s.slew < 2 ^ 65 →
        (t.time.toNat : Int) = s.time.toNat + 65536 + s.slew - 2 ^ 64 ∧ t.epoch = s.epoch + 1)

/-- The state after reset is the module in OFF: no command waits, every register reads its Reset column, every memory
reads as memory that nothing has written, and the canonical form holds (notes/assumptions/1.md, 2.md). Nothing answers:
from any source a read or a write of BAR0, and a transfer through BAR2, changes nothing (R347). -/
def Obligations.ResetIsOff : Prop :=
  State.reset.mode = .off ∧ State.reset.pending = [] ∧ State.reset.shed = none ∧ State.reset.otp.state = 1 ∧
    (∀ a, State.reset.reg a = regReset a) ∧ (∀ a, State.reset.dramAt a = 0) ∧ (∀ a, State.reset.bankAt a = 0) ∧
    (∀ a, State.reset.flashAt a = 0xFF) ∧ State.reset.wf = true ∧
    (∀ (src : Src) (a : BitVec 26) (v : Word) (be : BitVec 4) (ecc : Ecc),
      exec (.registerWrite src a v be) State.reset = .next State.reset ∧
        exec (.loRead src a ecc) State.reset = .next State.reset) ∧
    (∀ (a : BitVec 37) (bytes : List Byte), exec (.bar2Write a bytes) State.reset = .next State.reset) ∧
    (∀ (a : BitVec 37) (len : Nat) (ecc : Ecc), exec (.bar2Read a len ecc) State.reset = .next State.reset)

/-- The canonical form of the memories and of the register file is kept by every step. -/
def Obligations.StepKeepsCanonicalForm : Prop :=
  ∀ s t : State, s.wf = true → step s = .next t → t.wf = true

/-- Fuses are only ever blown, by any step: a copy of a life-cycle group, a revoke fuse or ERASE_DONE once blown stays
so, the serial number and the revision stay, and the life-cycle state never goes back. -/
def Obligations.FusesOnlyEverBlown : Prop :=
  ∀ s t : State, step s = .next t → s.otp.Gains t.otp ∧ s.otp.state ≤ t.otp.state

/-- The queue is first in, first out: a step that answers a next state takes the front command and leaves the others in
their order. -/
def Obligations.QueueIsFirstInFirstOut : Prop :=
  ∀ (c : Instr) (cs : List Instr) (s t : State), s.pending = c :: cs → step s = .next t → t.pending = cs

/-- Factory trims change by one kind of step alone: a TAP trim write while LC_DEBUG.TRIM_OPEN is set and the module is
powered. -/
def Obligations.TrimsChangeOnlyThroughTheOpenTap : Prop :=
  ∀ (c : Instr) (cs : List Instr) (s t : State), s.pending = c :: cs → step s = .next t → t.trims ≠ s.trims →
    ∃ a v, c = .jtagInstruction (.trim a v) ∧ s.flag LC_DEBUG.TRIM_OPEN = true ∧ s.mode ≠ .off

/-- Only powering up leaves OFF: a step of any other command from OFF stays in OFF. -/
def Obligations.OnlyUvloStartLeavesOff : Prop :=
  ∀ (c : Instr) (cs : List Instr) (s t : State), s.pending = c :: cs → s.mode = .off → step s = .next t → t.mode ≠ .off →
    ∃ role rma temps, c = .uvloStart role rma temps ∧ s.shed = none

/-! ## Modes, BOOT, supply, temperature (02, 03, 05) -/

/-- Powering up (R29, R32, R302, R303): UVLO_START leads from OFF to BOOT step 1 with the straps sampled, the fuses
reported and TRANSIT set; with a valid sensor at 160 degrees or more it leads to SAFE. SOFT_START ends step 1: the
clocks are locked, power is good, the count starts at 0, step 2 comes next; a rail out of range leads to SAFE. -/
def Obligations.PoweringUpCompletes : Prop :=
  (∀ (role : BitVec 2) (rma : Bool) (temps : List (BitVec 16)) (s : State), s.mode = .off → s.shed = none →
    temps.length = 40 → (∀ x ∈ temps, tempInvalid x = false ∧ signed 16 x.toNat < 1280) →
    ∃ t, exec (.uvloStart role rma temps) s = .next t ∧ t.mode = .boot ∧ t.fld SYS_MODE.BOOT_STEP = 1 ∧
      t.fld SYS_ROLE.ROLE = role.toNat ∧ t.flag SYS_DEVIDX.VALID = decide (2 ≤ role.toNat) ∧
      t.flag SYS_STATUS.TRANSIT = true ∧ t.fld LC_STATE.STATE = s.otp.state ∧ t.flag LC_STATE.RMA_PIN = !rma ∧
      t.pins.en = true ∧ t.pins.role = role ∧ t.pins.rma = rma ∧ t.otp = s.otp ∧ t.flash = s.flash ∧
      t.pending = s.pending) ∧
  (∀ (role : BitVec 2) (rma : Bool) (temps : List (BitVec 16)) (i : Nat) (s : State), s.mode = .off → s.shed = none →
    i < 40 → tempInvalid (temps.getD i 0) = false → 1280 ≤ signed 16 (temps.getD i 0).toNat →
    ∃ t, exec (.uvloStart role rma temps) s = .next t ∧ t.mode = .safe ∧ t.otp = s.otp) ∧
  (∀ s : State, s.mode = .boot → s.fld SYS_MODE.BOOT_STEP = 1 →
    ∃ t, exec (.softStart none) s = .next t ∧ t.mode = .boot ∧ t.fld SYS_MODE.BOOT_STEP = 2 ∧ t.time = 0 ∧
      t.flag CLK_STATUS.OCXO_OK = true ∧ t.flag CLK_STATUS.ROOT_LOCK = true ∧ t.flag CLK_STATUS.PCIE_LOCK = true ∧
      t.flag PWR_STATUS.POWER_GOOD = true ∧ t.counting = true ∧
      (((t.withRegs s.regs).withTime s.time).withUnits s.units).withCounting s.counting = s ∧
      RegsBut [CLK_STATUS.addr, PWR_STATUS.addr, SYS_MODE.addr] s t) ∧
  (∀ (rail : Fin 8) (s : State), s.mode = .boot → s.fld SYS_MODE.BOOT_STEP = 1 →
    ∃ t, exec (.softStart (some rail)) s = .next t ∧ t.mode = .safe ∧ t.otp = s.otp)

/-- BOOT steps 2 to 4 (R33, R36, R292, R341, R345): SRAM_CLEAR leaves every SRAM zero and the fuses reported, and the
self-test comes next; a fail of the clear or a broken group of fuses leads to SAFE; a module in RETURN whose flash is not
erased yet waits for RETURN_ERASE, which begins with the first sector where the flash may be written, waits where it may
not, and erases nothing where no flash is found. Each FLASH_OP_COMPLETE leaves its sector all 0xFF; after the last one the
ERASE_DONE fuse is blown, where no defect keeps it from it, and the self-test comes next. A self-test group that passes is
DONE with a FAILMAP of 0, and the next group or DRAM training comes next; one that fails leads to SAFE. Training that passes
leaves all DRAM zero; a bad stack leads to SAFE. -/
def Obligations.BootTestsComplete : Prop :=
  (∀ s : State, s.mode = .boot → s.fld SYS_MODE.BOOT_STEP = 2 → s.eraseDue = false → s.otp.broken = false →
    s.otp.repairs = [] → (s.otp.state = 3 → s.otp.eraseDone = true) →
    ∃ t, exec (.sramClear 0) s = .next t ∧ t.mode = .boot ∧ t.fld SYS_MODE.BOOT_STEP = 3 ∧
      t.flag (SYS_BIST.RUN 0) = true ∧ (∀ a, t.bankAt a = 0) ∧ (∀ a, t.poolAt a = 0) ∧ (∀ a, t.mboxAt a = 0) ∧
      t.fld LC_STATE.STATE = s.otp.state ∧ t.otp = s.otp ∧ t.flash = s.flash ∧ t.dram = s.dram ∧ t.time = s.time) ∧
  (∀ (failmap : BitVec 16) (s : State), s.mode = .boot → s.fld SYS_MODE.BOOT_STEP = 2 → s.eraseDue = false →
    failmap ≠ 0 ∨ s.otp.broken = true →
    ∃ t, exec (.sramClear failmap) s = .next t ∧ t.mode = .safe ∧ t.otp.serial = s.otp.serial ∧ (∀ a, t.bankAt a = 0)) ∧
  (∀ s : State, s.mode = .boot → s.fld SYS_MODE.BOOT_STEP = 2 → s.eraseDue = false → s.otp.broken = false →
    s.otp.repairs = [] → s.otp.state = 3 → s.otp.eraseDone = false →
    ∃ t, exec (.sramClear 0) s = .next t ∧ t.mode = .boot ∧ t.fld SYS_MODE.BOOT_STEP = 2 ∧ t.eraseDue = true ∧
      t.otp = s.otp) ∧
  (∀ (f : Sfdp) (s : State), s.mode = .boot → s.fld SYS_MODE.BOOT_STEP = 2 → s.eraseDue = true → sfdpOk f = true →
    s.persist.wipeEnd = 0 → s.persistWants = false → s.persist.ahead = none →
    ∃ t, exec (.returnErase (some f)) s = .next t ∧ t.mode = .boot ∧ t.fld SYS_MODE.BOOT_STEP = 2 ∧ t.eraseDue = true ∧
      t.persist.wipe = some 0 ∧ t.persist.wipeEnd = f.density * 134217728 ∧
      t.fld NVM_CFG.DENSITY = f.density ∧
      (s.flashMay = true → t.unit = some (.wipe 0)) ∧ (s.nvm = none → s.flashMay = false → t.unit = none) ∧
      t.flash = s.flash ∧ t.otp = s.otp ∧ t.banks = s.banks ∧ t.dram = s.dram) ∧
  (∀ (a : Nat) (s : State), s.mode = .boot → s.eraseDue = true → s.unit = some (.wipe a) →
    a + sectorSize < s.persist.wipeEnd →
    ∃ t, exec (.flashOpComplete ⟨true, .clean⟩) s = .next t ∧ t.persist.wipe = some (a + sectorSize) ∧ t.eraseDue = true ∧
      (∀ i, i < sectorSize → t.flashAt (a + i) = 0xFF) ∧ t.otp = s.otp) ∧
  (∀ (a : Nat) (s : State), s.mode = .boot → s.eraseDue = true → s.unit = some (.wipe a) → s.persist.wipeEnd ≠ 0 →
    s.persist.wipeEnd ≤ a + sectorSize → s.mayBlow = true → s.otp.fails .eraseDone = false →
    ∃ t, exec (.flashOpComplete ⟨true, .clean⟩) s = .next t ∧ t.fld SYS_MODE.BOOT_STEP = 3 ∧ t.eraseDue = false ∧
      t.flag (SYS_BIST.RUN 0) = true ∧ (∀ i, i < sectorSize → t.flashAt (a + i) = 0xFF) ∧
      t.otp = { s.otp with eraseDone := true } ∧ t.flag LC_STATE.ERASE_DONE = true) ∧
  (∀ s : State, s.mode = .boot → s.fld SYS_MODE.BOOT_STEP = 2 → s.eraseDue = true → s.persist.wipeEnd = 0 →
    ∃ t, exec (.returnErase none) s = .next t ∧ t.fld SYS_MODE.BOOT_STEP = 3 ∧ t.eraseDue = false ∧ t.flash = s.flash ∧
      t.otp = s.otp) ∧
  (∀ (i : Nat) (failmap : BitVec 16) (s : State), s.mode = .boot → s.fld SYS_MODE.BOOT_STEP = 3 → i < 8 →
    (∀ j, j < i → s.flag (SYS_BIST.DONE j) = true) → s.flag (SYS_BIST.DONE i) = false →
    failmap.toNat &&& bistUnits i = 0 →
    ∃ t, exec (.selfTest failmap) s = .next t ∧ t.flag (SYS_BIST.DONE i) = true ∧ t.fld (SYS_BIST.FAILMAP i) = 0 ∧
      (i < 7 → t.flag (SYS_BIST.RUN (i + 1)) = true ∧ t.fld SYS_MODE.BOOT_STEP = 3) ∧
      (i = 7 → t.fld SYS_MODE.BOOT_STEP = 4) ∧
      OnlyRegs [SYS_BIST.addr i, if i = 7 then SYS_MODE.addr else SYS_BIST.addr (i + 1)] s t) ∧
  (∀ (i : Nat) (failmap : BitVec 16) (s : State), s.mode = .boot → s.fld SYS_MODE.BOOT_STEP = 3 → i < 8 →
    (∀ j, j < i → s.flag (SYS_BIST.DONE j) = true) → s.flag (SYS_BIST.DONE i) = false →
    failmap.toNat &&& bistUnits i ≠ 0 →
    ∃ t, exec (.selfTest failmap) s = .next t ∧ t.mode = .safe ∧ t.otp = s.otp) ∧
  (∀ s : State, s.mode = .boot → s.fld SYS_MODE.BOOT_STEP = 4 →
    ∃ t, exec (.dramTraining none) s = .next t ∧ t.fld SYS_MODE.BOOT_STEP = 5 ∧ (∀ a, t.dramAt a = 0) ∧
      (t.withRegs s.regs).withDram s.dram = s ∧ RegsBut [SYS_MODE.addr] s t) ∧
  (∀ (stack : Fin 4) (detail : BitVec 16) (s : State), s.mode = .boot → s.fld SYS_MODE.BOOT_STEP = 4 →
    ∃ t, exec (.dramTraining (some (stack, detail))) s = .next t ∧ t.mode = .safe ∧ t.otp = s.otp)

/-- BOOT steps 5 to 8 (R73, R82, R81, R33): a flash that is accepted (a page size outside R72 is not: the model's choice,
notes/assumptions/45.md) has its density stored and the first valid slot is read next; no flash, none that is accepted, or
one without a valid header leads to SAFE. A slot that is valid is booted from; one that is not leads to the other slot once;
where that has no valid header, or was not valid before, it leads to SAFE. An image whose records can all be applied leads
to step 8; one with a required record missing, or with a DAC readback outside tolerance, leads to SAFE. Step 8 leads to IDLE
with TRANSIT clear. -/
def Obligations.ImageLoadingCompletes : Prop :=
  (∀ (f : Sfdp) (k : Nat) (s : State), s.mode = .boot → s.fld SYS_MODE.BOOT_STEP = 5 → sfdpOk f = true →
    (s.tearUnit.put NVM_CFG.DENSITY f.density).firstSlot = some k →
    ∃ t, exec (.nvmDiscovery (some f)) s = .next t ∧ t.mode = .boot ∧ t.fld SYS_MODE.BOOT_STEP = 6 ∧
      t.slotTried = some k ∧ t.fld NVM_CFG.DENSITY = f.density ∧ t.fld NVM_CFG.PROTOCOL = (if f.octal then 2 else 1) ∧
      t.unit = none ∧ t.otp = s.otp) ∧
  (∀ s : State, s.mode = .boot → s.fld SYS_MODE.BOOT_STEP = 5 →
    ∃ t, exec (.nvmDiscovery none) s = .next t ∧ t.mode = .safe ∧ t.otp = s.otp) ∧
  (∀ (f : Sfdp) (s : State), s.mode = .boot → s.fld SYS_MODE.BOOT_STEP = 5 → sfdpOk f = true →
    (s.tearUnit.put NVM_CFG.DENSITY f.density).firstSlot = none →
    ∃ t, exec (.nvmDiscovery (some f)) s = .next t ∧ t.mode = .safe ∧ t.otp = s.otp) ∧
  (∀ (f : Sfdp) (s : State), s.mode = .boot → s.fld SYS_MODE.BOOT_STEP = 5 → sfdpOk f = false →
    ∃ t, exec (.nvmDiscovery (some f)) s = .next t ∧ t.mode = .safe ∧ t.otp = s.otp) ∧
  (∀ (k : Fin 2) (s : State), s.mode = .boot → s.fld SYS_MODE.BOOT_STEP = 6 → s.slotTried = some k.val →
    s.slotReason k = 0 →
    ∃ t, exec .imageRead s = .next t ∧ t.mode = .boot ∧ t.fld SYS_MODE.BOOT_STEP = 7 ∧ t.booted = some k.val ∧
      t.fld SYS_STATUS.SLOT = k ∧ t.fld NVM_SLOT.BOOTED = k ∧ Steady s t) ∧
  (∀ (k : Fin 2) (s : State), s.mode = .boot → s.fld SYS_MODE.BOOT_STEP = 6 → s.slotTried = some k.val →
    s.slotReason k ≠ 0 → s.flag SYS_STATUS.SECOND_SLOT = false → s.headerReason (1 - k) = 0 →
    ∃ t, exec .imageRead s = .next t ∧ t.mode = .boot ∧ t.slotTried = some (1 - k.val) ∧
      t.flag SYS_STATUS.SECOND_SLOT = true ∧ t.fld SYS_MODE.BOOT_STEP = 6) ∧
  (∀ (k : Fin 2) (s : State), s.mode = .boot → s.fld SYS_MODE.BOOT_STEP = 6 → s.slotTried = some k.val →
    s.slotReason k ≠ 0 → s.flag SYS_STATUS.SECOND_SLOT = true ∨ s.headerReason (1 - k) ≠ 0 →
    ∃ t, exec .imageRead s = .next t ∧ t.mode = .safe ∧ t.otp = s.otp) ∧
  (∀ (k : Nat) (rb : List Readback) (rs : List (Nat × List Byte)) (s : State), s.mode = .boot →
    s.fld SYS_MODE.BOOT_STEP = 7 → s.booted = some k → bodyRecords (s.slotBody k) = some rs →
    (∀ ty ∈ imageTypes, ∃ r ∈ rs, r.1 = ty) → (State.applyAll rb rs 0 s).2 = none →
    ∃ t, exec (.apply rb) s = .next t ∧ t.otp = s.otp ∧
      (if ((State.applyAll rb rs 0 s).1.applyStore).2 = none then
        t.mode = .boot ∧ t.fld SYS_MODE.BOOT_STEP = 8 ∧ t.flash = s.flash ∧ (∀ d, d < 16 → (t.die d).clock.isSome = true)
       else t.mode = .safe)) ∧
  (∀ (k ty : Nat) (rb : List Readback) (s : State), s.mode = .boot → s.fld SYS_MODE.BOOT_STEP = 7 →
    s.booted = some k → ty ∈ imageTypes → (∀ r ∈ (bodyRecords (s.slotBody k)).getD [], r.1 ≠ ty) →
    ∃ t, exec (.apply rb) s = .next t ∧ t.mode = .safe ∧ t.otp = s.otp) ∧
  (∀ (k i ty : Nat) (rb : List Readback) (rs : List (Nat × List Byte)) (s : State), s.mode = .boot →
    s.fld SYS_MODE.BOOT_STEP = 7 → s.booted = some k → bodyRecords (s.slotBody k) = some rs →
    (∀ ty ∈ imageTypes, ∃ r ∈ rs, r.1 = ty) → (State.applyAll rb rs 0 s).2 = some (i, ty) →
    ∃ t, exec (.apply rb) s = .next t ∧ t.mode = .safe ∧ t.otp = s.otp) ∧
  (∀ s : State, s.mode = .boot → s.fld SYS_MODE.BOOT_STEP = 8 →
    ∃ t, exec .idleEntry s = .next t ∧ t.mode = .idle ∧ t.fld SYS_MODE.BOOT_STEP = 0xF ∧
      t.flag SYS_STATUS.TRANSIT = false ∧ Still s t ∧ RegsButEvents [SYS_MODE.addr, SYS_STATUS.addr] s t)

/-- The mode requests with a valid KEY (R30, R31), where no transition is in progress: RESET_BOOT with the clocks locked and
no sensor too hot leads to BOOT step 2, and the fuses, the flash and the queue stay; in BOOT step 1 it lets BOOT go on;
ENTER_CAL leads from IDLE, with no act waiting to run, to CAL; LEAVE_CAL leads from CAL to IDLE; ENTER_SAFE leads to SAFE,
and in OFF does nothing. RESET_BOOT with THERM_LATCH set while a sensor is too hot stores REQ_RESULT 4 (R32), ENTER_CAL with
an act ARMING or ARMED stores REQ_RESULT 5, and nothing else changes. ENTER_CAL or LEAVE_CAL in a mode that does not take it
stores REQ_RESULT 3, any of the four while a transition other than BOOT is in progress stores REQ_RESULT 1, and nothing else
changes. -/
def Obligations.ModeRequestsComplete : Prop :=
  (∀ s : State, s.mode ≠ .off → (s.flag SYS_STATUS.TRANSIT = false ∨ s.mode = .boot) →
    ¬(s.mode = .boot ∧ s.fld SYS_MODE.BOOT_STEP = 1) → s.flag CLK_STATUS.PCIE_LOCK = true →
    s.flag SYS_STATUS.THERM_LATCH = false → s.bootHot = none →
    ∃ t, exec .resetBoot s = .next t ∧ t.mode = .boot ∧ t.fld SYS_MODE.BOOT_STEP = 2 ∧
      t.flag SYS_STATUS.TRANSIT = true ∧ t.otp = s.otp ∧ t.flash = s.flash ∧ t.pending = s.pending ∧ t.acts = [] ∧
      t.fld LC_STATE.STATE = s.otp.state) ∧
  (∀ s : State, s.mode = .boot → s.fld SYS_MODE.BOOT_STEP = 1 →
    s.flag SYS_STATUS.THERM_LATCH = false →
    ∃ t, exec .resetBoot s = .next t ∧ t.fld SYS_STATUS.REQ_RESULT = 0 ∧ OnlyRegs [SYS_STATUS.addr] s t) ∧
  (∀ s : State, s.mode = .idle → s.flag SYS_STATUS.TRANSIT = false →
    (∀ n, n < 16 → s.actState n ≠ 1 ∧ s.actState n ≠ 2) →
    ∃ t, exec .enterCal s = .next t ∧ t.mode = .cal ∧ Still s t) ∧
  (∀ s : State, s.mode ≠ .off → (s.flag SYS_STATUS.TRANSIT = false ∨ s.mode = .boot) → s.flag SYS_STATUS.THERM_LATCH = true →
    s.tempHot = true →
    ∃ t, exec .resetBoot s = .next t ∧ t.fld SYS_STATUS.REQ_RESULT = 4 ∧ OnlyRegs [SYS_STATUS.addr] s t) ∧
  (∀ (n : Act) (s : State), s.mode = .idle → s.flag SYS_STATUS.TRANSIT = false → s.actState n = 1 ∨ s.actState n = 2 →
    ∃ t, exec .enterCal s = .next t ∧ t.fld SYS_STATUS.REQ_RESULT = 5 ∧ OnlyRegs [SYS_STATUS.addr] s t) ∧
  (∀ s : State, s.mode = .cal → s.flag SYS_STATUS.TRANSIT = false → ∃ t, exec .leaveCal s = .next t ∧ t.mode = .idle ∧ Still s t) ∧
  (∀ s : State, s.mode ≠ .off → s.mode ≠ .safe → (s.flag SYS_STATUS.TRANSIT = false ∨ s.mode = .boot) →
    ∃ t, exec .enterSafe s = .next t ∧ t.mode = .safe ∧ t.otp = s.otp ∧ (∀ a, t.bankAt a = 0)) ∧
  (∀ s : State, s.mode ≠ .off → s.mode ≠ .boot → s.flag SYS_STATUS.TRANSIT = true →
    ∀ c ∈ [Instr.resetBoot, .enterCal, .leaveCal, .enterSafe],
    ∃ t, exec c s = .next t ∧ t.fld SYS_STATUS.REQ_RESULT = 1 ∧ OnlyRegs [SYS_STATUS.addr] s t) ∧
  (∀ s : State, s.mode ≠ .off → s.mode ≠ .idle → (s.flag SYS_STATUS.TRANSIT = false ∨ s.mode = .boot) →
    ∃ t, exec .enterCal s = .next t ∧ t.fld SYS_STATUS.REQ_RESULT = 3 ∧ OnlyRegs [SYS_STATUS.addr] s t) ∧
  (∀ s : State, s.mode ≠ .off → s.mode ≠ .cal → (s.flag SYS_STATUS.TRANSIT = false ∨ s.mode = .boot) →
    ∃ t, exec .leaveCal s = .next t ∧ t.fld SYS_STATUS.REQ_RESULT = 3 ∧ OnlyRegs [SYS_STATUS.addr] s t) ∧
  (∀ s : State, s.mode = .off → exec .enterSafe s = .next s)

/-- A fatal fault (R37, R40) in any mode but OFF ends in SAFE with FAULT_N low, the private banks lost with the domain that
goes off where it was in another mode, and no fuse changes; its bit of SYS_FAULT is set, and SYS_FAULT_CODE reports it with
its UNIT and DETAIL where none was reported before. In OFF it does nothing. A rail fault, a clock loss (but in BOOT step 1,
where it does nothing) and the watchdog lead to SAFE. In SAFE a further fault is recorded: its bit of SYS_FAULT, and
SYS_FAULT_CODE where it was 0; a thermal shutdown sets THERM_LATCH in any of these modes (R53). -/
def Obligations.FatalFaultsEndInSafe : Prop :=
  (∀ (code : Fin 13) (unit : BitVec 8) (detail : BitVec 16) (s : State), code ≠ 0 → s.mode ≠ .off →
    ∃ t, exec (.fatalFault code unit detail) s = .next t ∧ t.mode = .safe ∧ t.faultLow = true ∧ t.otp = s.otp ∧
      (s.mode ≠ .safe → ∀ a, t.bankAt a = 0) ∧ t.pending = s.pending ∧
      (code = 5 → t.flag SYS_STATUS.THERM_LATCH = true) ∧ bitOf (t.fld SYS_FAULT.SEEN) (code.val - 1) = true ∧
      (s.fld SYS_FAULT_CODE.CODE = 0 →
        (t.reg SYS_FAULT_CODE.addr).toNat = code.val + 256 * unit.toNat + 65536 * detail.toNat)) ∧
  (∀ (code : Fin 13) (unit : BitVec 8) (detail : BitVec 16) (s : State), s.mode = .off →
    exec (.fatalFault code unit detail) s = .next s) ∧
  (∀ (code : Fin 13) (unit : BitVec 8) (detail : BitVec 16) (s : State), code ≠ 0 → code ≠ 5 → s.mode = .safe →
    ∃ t, exec (.fatalFault code unit detail) s = .next t ∧ bitOf (t.fld SYS_FAULT.SEEN) (code.val - 1) = true ∧
      (s.fld SYS_FAULT_CODE.CODE = 0 →
        (t.reg SYS_FAULT_CODE.addr).toNat = code.val + 256 * unit.toNat + 65536 * detail.toNat) ∧
      (s.fld SYS_FAULT_CODE.CODE ≠ 0 → t.reg SYS_FAULT_CODE.addr = s.reg SYS_FAULT_CODE.addr) ∧ Steady s t ∧
      RegsButEvents [SYS_FAULT.addr, SYS_FAULT_CODE.addr] s t) ∧
  (∀ (rail : Fin 8) (s : State), s.mode ≠ .off →
    ∃ t, exec (.railFault rail) s = .next t ∧ t.mode = .safe ∧ t.otp = s.otp) ∧
  (∀ s : State, s.mode ≠ .off → ¬(s.mode = .boot ∧ s.fld SYS_MODE.BOOT_STEP = 1) →
    ∃ t, exec .clockLoss s = .next t ∧ t.mode = .safe ∧ t.otp = s.otp) ∧
  (∀ s : State, s.mode = .boot → s.fld SYS_MODE.BOOT_STEP = 1 → exec .clockLoss s = .next s) ∧
  (∀ s : State, s.mode ≠ .off → ∃ t, exec .hkWatchdog s = .next t ∧ t.mode = .safe ∧ t.otp = s.otp)

/-- The shedding sequence (R42, R43): EN low or VIN below its limit takes any mode but OFF to OFF, with the DRAM
contents and the private banks lost and the fuses as they were; once the NVM port is idle nothing powered is left, and
the hold-up energy running out ends in the same OFF. -/
def Obligations.SheddingEndsInOff : Prop :=
  (∀ s : State, s.mode ≠ .off →
    ∃ t, exec .enOff s = .next t ∧ t.mode = .off ∧ t.shed = some .enOff ∧ t.pins.en = false ∧ (∀ a, t.dramAt a = 0) ∧
      (∀ a, t.bankAt a = 0) ∧ t.otp = s.otp ∧ t.pending = s.pending) ∧
  (∀ s : State, s.mode ≠ .off →
    ∃ t, exec .pfail s = .next t ∧ t.mode = .off ∧ t.shed = some .pfail ∧ (∀ a, t.dramAt a = 0) ∧ (∀ a, t.bankAt a = 0) ∧
      t.otp = s.otp ∧ t.pending = s.pending) ∧
  (∀ s : State, s.shed ≠ none → s.unit = none →
    ∃ t, exec .offEntry s = .next t ∧ t.mode = .off ∧ t.shed = none ∧ (∀ a, t.reg a = regReset a) ∧
      (∀ a, t.bankAt a = 0 ∧ t.poolAt a = 0 ∧ t.mboxAt a = 0 ∧ t.dramAt a = 0) ∧ t.flash = s.flash ∧ t.otp = s.otp ∧
      t.hostMem = s.hostMem ∧ t.pending = s.pending) ∧
  (∀ s : State, s.shed ≠ none → s.unit ≠ none → exec .offEntry s = .next s) ∧
  (∀ s : State, s.shed ≠ none →
    ∃ t, exec .holdupExhausted s = .next t ∧ t.mode = .off ∧ t.shed = none ∧ (∀ a, t.reg a = regReset a) ∧
      t.unit = none ∧ t.otp = s.otp ∧ t.pending = s.pending)

/-- Supply and temperature (R44, R46, R48, R52 to R54): the measured value is stored, its status bit is set or cleared
and its event raised. The hold-up capacitance is measured once after every OFF, and a time outside 2 to 100 ms stores
none. A temperature sample is kept by every
sensor; while no valid sensor is at 160 degrees or more the mode stays; a valid sensor at 160 degrees in this sample and
the one before leads to SAFE, in SAFE it sets THERM_LATCH, and at 170 degrees the module sheds. -/
def Obligations.SupplyAndTemperatureComplete : Prop :=
  (∀ (v : BitVec 16) (s : State), s.mode ≠ .off →
    ∃ t, exec (.vinLow v) s = .next t ∧ t.fld PWR_VIN.VIN = v.toNat ∧ t.flag PWR_STATUS.VIN_LOW = true ∧
      t.evtSeq = s.evtSeq + 1 ∧ Steady s t ∧ RegsButEvents [PWR_VIN.addr, PWR_STATUS.addr] s t) ∧
  (∀ (v : BitVec 16) (s : State), s.mode ≠ .off →
    ∃ t, exec (.vinSurge v) s = .next t ∧ t.fld PWR_VIN.VIN = v.toNat ∧ t.flag PWR_STATUS.VIN_SURGE = true ∧
      t.evtSeq = s.evtSeq + 1 ∧ Steady s t ∧ RegsButEvents [PWR_VIN.addr, PWR_STATUS.addr] s t) ∧
  (∀ (v : BitVec 16) (s : State), s.mode ≠ .off →
    ∃ t, exec (.vinSurgeEnd v) s = .next t ∧ t.fld PWR_VIN.VIN = v.toNat ∧ t.flag PWR_STATUS.VIN_SURGE = false ∧
      OnlyRegs [PWR_VIN.addr, PWR_STATUS.addr] s t) ∧
  (∀ (p : BitVec 16) (s : State), s.mode ≠ .off →
    ∃ t, exec (.powerHigh p) s = .next t ∧ t.fld PWR_INPUT_P.P = p.toNat ∧ t.evtSeq = s.evtSeq + 1 ∧ Steady s t ∧
      RegsButEvents [PWR_INPUT_P.addr] s t) ∧
  (∀ (us : Nat) (hu : BitVec 16) (s : State), s.mode ≠ .off → s.persist.capDone = false → 2000 ≤ us →
    us ≤ 100000 →
    ∃ t, exec (.huCapMeasured us hu) s = .next t ∧ t.flag PWR_STATUS.CAP_VALID = true ∧
      |20 * (t.fld PWR_HOLDUP_CAP.CAP : Int) - us| < 20 ∧ t.fld PWR_HOLDUP_V.V = hu.toNat ∧ t.persist.capDone = true ∧
      Steady s t ∧
      RegsBut [PWR_HOLDUP_V.addr, PWR_HOLDUP_CAP.addr, PWR_STATUS.addr] s t) ∧
  (∀ (us : Nat) (hu : BitVec 16) (s : State), s.mode ≠ .off → s.persist.capDone = false →
    us < 2000 ∨ 100000 < us →
    ∃ t, exec (.huCapMeasured us hu) s = .next t ∧ t.flag PWR_STATUS.CAP_VALID = false ∧ t.fld PWR_HOLDUP_CAP.CAP = 0 ∧
      t.persist.capDone = true ∧ t.evtSeq = s.evtSeq + 1 ∧ Steady s t) ∧
  (∀ (us : Nat) (hu : BitVec 16) (s : State), s.persist.capDone = true → exec (.huCapMeasured us hu) s = .next s) ∧
  (∀ (ts : List (BitVec 16)) (s : State), s.mode ≠ .off → ts.length = 40 →
    (∀ x ∈ ts, tempInvalid x = false ∧ signed 16 x.toNat < 1280) →
    ∃ t, exec (.tempSample ts) s = .next t ∧ t.mode = s.mode ∧ (∀ i, i < 40 → (t.sensor i).last = ts.getD i 0) ∧
      Still s t ∧ RegsButEvents [PWR_TEMP_MAX.addr, PWR_STATUS.addr, SYS_STATUS.addr] s t) ∧
  (∀ (ts : List (BitVec 16)) (i : Nat) (s : State), s.mode ≠ .off → ts.length = 40 → i < 40 →
    (∀ x ∈ ts, tempInvalid x = false ∧ signed 16 x.toNat < 1360) →
    1280 ≤ signed 16 (ts.getD i 0).toNat → 1280 ≤ signed 16 (s.sensor i).last.toNat →
    tempInvalid (s.sensor i).last = false →
    ∃ t, exec (.tempSample ts) s = .next t ∧ t.mode = .safe ∧ t.flag SYS_STATUS.THERM_LATCH = true ∧ t.otp = s.otp) ∧
  (∀ (ts : List (BitVec 16)) (i : Nat) (s : State), s.mode ≠ .off → ts.length = 40 → i < 40 →
    tempInvalid (ts.getD i 0) = false → tempInvalid (s.sensor i).last = false →
    1360 ≤ signed 16 (ts.getD i 0).toNat → 1360 ≤ signed 16 (s.sensor i).last.toNat →
    ∃ t, exec (.tempSample ts) s = .next t ∧ t.mode = .off ∧ t.shed = some .tempOff ∧ t.otp = s.otp)

/-! ## Clocks and time (04) -/

/-- Writes of CLK_ROOT_CFG (R57, R59) in a mode that opens the register: one that keeps ROOT_MHZ stores REF_SRC; where it
changes REF_SRC or REFIN_10M the selected source is taken if it is valid, and the OCXO where it is not, outside holdover
(the model's reading, notes/assumptions/31.md); otherwise it leaves every register but CLK_ROOT_CFG alone; one that changes
ROOT_MHZ in IDLE with no act executing starts the root change; in any other state it is refused. The retraining that follows
ends with ROOT_BUSY clear and an event, or in SAFE. -/
def Obligations.RootWritesComplete : Prop :=
  (∀ (v : Word) (s : State), s.mode ≠ .off → reservedBits CLK_ROOT_CFG.addr v = 0 →
    wfld v CLK_ROOT_CFG.ROOT_MHZ = s.fld CLK_ROOT_CFG.ROOT_MHZ → 19200 ≤ wfld v CLK_ROOT_CFG.ROOT_MHZ →
    wfld v CLK_ROOT_CFG.ROOT_MHZ ≤ 25600 →
    ∃ t, exec (.refSrcWrite v) s = .next t ∧ t.fld CLK_ROOT_CFG.REF_SRC = wfld v CLK_ROOT_CFG.REF_SRC ∧
      (wfld v CLK_ROOT_CFG.REF_SRC = s.fld CLK_ROOT_CFG.REF_SRC → wfld v CLK_ROOT_CFG.REFIN_10M = s.fld CLK_ROOT_CFG.REFIN_10M →
        OnlyRegs [CLK_ROOT_CFG.addr] s t) ∧
      (wfld v CLK_ROOT_CFG.REF_SRC ≠ s.fld CLK_ROOT_CFG.REF_SRC → t.flag CLK_STATUS.ROOT_LOCK = true →
        t.flag CLK_STATUS.HOLDOVER = false → t.fld CLK_STATUS.SRC_ACTIVE = (if t.srcValid t.srcWanted then t.srcWanted else 3)) ∧
      Steady s t ∧ RegsBut [CLK_ROOT_CFG.addr, CLK_STATUS.addr, CLK_SYNC_STATUS.addr, CLK_OCXO_TRIM.addr] s t) ∧
  (∀ (v : Word) (s : State), s.mode = .idle → reservedBits CLK_ROOT_CFG.addr v = 0 →
    wfld v CLK_ROOT_CFG.ROOT_MHZ ≠ s.fld CLK_ROOT_CFG.ROOT_MHZ → 19200 ≤ wfld v CLK_ROOT_CFG.ROOT_MHZ →
    wfld v CLK_ROOT_CFG.ROOT_MHZ ≤ 25600 → s.anyExecuting = false → s.flag SYS_STATUS.TRANSIT = false →
    ∃ t, exec (.rootChange v) s = .next t ∧ t.flag CLK_STATUS.ROOT_BUSY = true ∧ t.mode = .idle ∧ Still s t) ∧
  (∀ (v : Word) (s : State), s.mode ≠ .off → s.mode ≠ .idle → reservedBits CLK_ROOT_CFG.addr v = 0 →
    wfld v CLK_ROOT_CFG.ROOT_MHZ ≠ s.fld CLK_ROOT_CFG.ROOT_MHZ → 19200 ≤ wfld v CLK_ROOT_CFG.ROOT_MHZ →
    wfld v CLK_ROOT_CFG.ROOT_MHZ ≤ 25600 →
    ∃ t, exec (.rootChange v) s = .next t ∧ t.flag CLK_STATUS.ROOT_REFUSED = true ∧ OnlyRegs [CLK_STATUS.addr] s t) ∧
  (∀ s : State, s.flag CLK_STATUS.ROOT_BUSY = true →
    ∃ t, exec (.rootChanged none) s = .next t ∧ t.flag CLK_STATUS.ROOT_BUSY = false ∧ t.evtSeq = s.evtSeq + 1 ∧
      Steady s t ∧ RegsButEvents [CLK_STATUS.addr] s t) ∧
  (∀ (d : Die) (s : State), s.flag CLK_STATUS.ROOT_BUSY = true → s.mode ≠ .off →
    ∃ t, exec (.rootChanged (some (.die d))) s = .next t ∧ t.mode = .safe ∧ t.otp = s.otp)

/-- Reference sources (R59 to R63, R71): the loss of REFIN leads to holdover on the OCXO where that is valid; the loss of
LINK at a worker or relay in service orphans it, and it enters IDLE; the loss of the OCXO, or of another source where the
OCXO is not valid, leads to SAFE; the preferred source comes back with HOLDOVER clear; warming and cooling of the OCXO set
and clear OCXO_WARM, and TB_COLD follows. What the monitors say of the sources that are not active is kept; the
synchronization of a module in holdover begins again once LINK is valid (which source follows is the model's reading,
notes/assumptions/31.md). -/
def Obligations.ReferenceSourcesComplete : Prop :=
  (∀ s : State, s.fld CLK_STATUS.SRC_ACTIVE = 2 → s.flag CLK_STATUS.OCXO_OK = true →
    ∃ t, exec .refLost s = .next t ∧ t.flag CLK_STATUS.HOLDOVER = true ∧ t.fld CLK_STATUS.SRC_ACTIVE = 3 ∧
      t.flag CLK_STATUS.REFIN_VALID = false ∧ t.evtSeq = s.evtSeq + 1 ∧ Steady s t ∧
      RegsButEvents [CLK_STATUS.addr, CLK_SYNC_STATUS.addr, CLK_OCXO_TRIM.addr] s t) ∧
  (∀ s : State, s.fld CLK_STATUS.SRC_ACTIVE = 1 → s.hasManager = true → s.flag SYS_STATUS.ORPHANED = false →
    s.inService = true → s.flag CLK_STATUS.OCXO_OK = true →
    ∃ t, exec .refLost s = .next t ∧ t.mode = .idle ∧ t.flag SYS_STATUS.ORPHANED = true ∧ Still s t) ∧
  (∀ s : State, s.fld CLK_STATUS.SRC_ACTIVE = 3 ∨ s.fld CLK_STATUS.SRC_ACTIVE ≠ 0 ∧ s.flag CLK_STATUS.OCXO_OK = false →
    s.mode ≠ .off →
    ∃ t, exec .refLost s = .next t ∧ t.mode = .safe ∧ t.fld CLK_STATUS.SRC_ACTIVE = 0 ∧ t.otp = s.otp) ∧
  (∀ s : State, s.flag CLK_STATUS.HOLDOVER = true → s.fld CLK_STATUS.SRC_ACTIVE = 3 → s.fld CLK_ROOT_CFG.REF_SRC = 0 →
    s.srcValid (if s.hasManager then 1 else 2) = true →
    ∃ t, exec .refRestored s = .next t ∧ t.fld CLK_STATUS.SRC_ACTIVE = (if s.hasManager then 1 else 2) ∧
      t.flag CLK_STATUS.HOLDOVER = false ∧ t.evtSeq = s.evtSeq + 1 ∧ Steady s t ∧
      RegsButEvents [CLK_STATUS.addr, CLK_SYNC_STATUS.addr] s t) ∧
  (∀ s : State, s.mode ≠ .off →
    ∃ t, exec .ocxoWarm s = .next t ∧ t.flag CLK_STATUS.OCXO_WARM = true ∧
      t.flag CLK_STATUS.TB_COLD = (decide (s.fld CLK_STATUS.SRC_ACTIVE = 1) && s.flag (LNK_STATUS.P_TB_COLD 0)) ∧
      (t.withRegs s.regs).withUnits s.units = s ∧ RegsBut [CLK_STATUS.addr] s t) ∧
  (∀ s : State, s.mode ≠ .off →
    ∃ t, exec .ocxoWarmLost s = .next t ∧ t.flag CLK_STATUS.OCXO_WARM = false ∧ t.flag CLK_STATUS.TB_COLD = true ∧
      Steady s t ∧ RegsBut [CLK_STATUS.addr, CLK_OCXO_TRIM.addr] s t) ∧
  (∀ (r : RefSeen) (s : State), s.mode ≠ .off →
    ∃ t, exec (.sourceValidAgain r) s = .next t ∧
      t.flag CLK_STATUS.LINK_VALID = (if s.fld CLK_STATUS.SRC_ACTIVE = 1 then s.flag CLK_STATUS.LINK_VALID else r.link) ∧
      t.flag CLK_STATUS.REFIN_VALID = (if s.fld CLK_STATUS.SRC_ACTIVE = 2 then s.flag CLK_STATUS.REFIN_VALID else r.refin) ∧
      t.flag CLK_STATUS.OCXO_OK = (if s.fld CLK_STATUS.SRC_ACTIVE = 3 then s.flag CLK_STATUS.OCXO_OK else r.ocxo) ∧
      (s.fld CLK_STATUS.SRC_ACTIVE ≠ 1 → r.link = true → s.syncState = 4 → t.syncState = 1 ∧ t.slew = 0 ∧ t.sync.thetas = []) ∧
      (s.syncState ≠ 4 → t.sync = s.sync ∧ t.slew = s.slew ∧ t.reg CLK_SYNC_STATUS.addr = s.reg CLK_SYNC_STATUS.addr) ∧
      Steady s t ∧ RegsBut [CLK_STATUS.addr, CLK_SYNC_STATUS.addr, CLK_OCXO_TRIM.addr] s t)

/-- Time (R67, R68): a wrap sets the count to 0 and starts the next epoch; a sync request goes out on UP with the next
exchange number and t1 is kept; a request on a DN port is answered with t2 and TURN, and the round trip of the port is kept
(it comes with the command, the model's reading, notes/assumptions/35.md); a reply to the request that is out stores the
round trip and takes t1 away. -/
def Obligations.TimeCommandsComplete : Prop :=
  (∀ s : State, s.mode ≠ .off →
    ∃ t, exec .timeWrap s = .next t ∧ t.time = 0 ∧ t.epoch = s.epoch + 1 ∧ t.evtSeq = s.evtSeq + 1 ∧ t.mode = s.mode ∧
      t.otp = s.otp ∧ t.flash = s.flash ∧ t.banks = s.banks ∧ RegsButEvents [] s t) ∧
  (∀ s : State, s.hasManager = true → s.portActive 0 = true →
    ∃ t, exec .syncExchange s = .next t ∧ t.sync = { s.sync with xch := (s.sync.xch + 1) % 256, t1 := some s.time.toNat } ∧
      (t.port 0).sent = (s.port 0).sent ++
        [.whistle { wn := (s.sync.xch + 1) % 256, kind := 5, show_ := 0, origin := 0 }] ∧
      (∀ p, p ≠ 0 → t.port p = s.port p) ∧ (t.withSync s.sync).withPorts s.ports = s) ∧
  (∀ (p : Port) (xch : BitVec 8) (r : SyncTurn) (s : State), p ≠ 0 → s.portActive p = true →
    ∃ t, exec (.syncReq p xch r) s = .next t ∧ t.fld (LNK_DELAY.RT p) = twos 24 ((r.round.toNat : Int) - r.turn.toNat) ∧
      (t.port p).sent = (s.port p).sent ++
        [.whistle { wn := xch.toNat, kind := 5, show_ := 0, origin := 0, form := 1, turn := r.turn.toNat, ext := s.time.toNat }] ∧
      (∀ o, o ≠ p.val → t.port o = s.port o) ∧ Steady s t ∧ RegsBut [LNK_DELAY.addr p] s t) ∧
  (∀ (xch : BitVec 8) (turn : BitVec 24) (t2 t4 : BitVec 64) (t1 : Nat) (s : State), s.sync.t1 = some t1 →
    s.portActive 0 = true → xch.toNat = s.sync.xch → 0 ≤ since 64 t4.toNat t1 →
    ∃ t, exec (.syncRsp xch turn t2 t4) s = .next t ∧ t.sync.t1 = none ∧
      t.fld (LNK_DELAY.RT 0) = twos 24 (since 64 t4.toNat t1 - turn.toNat) ∧ t.mode = s.mode ∧ Still s t)

/-! ## The flash (05, 03) -/

/-- The NVM commands by register (R84, R87 to R89) while the port is idle: the command that runs and the first unit of
its work; a refused one stores its RESULT and does nothing else; an erase that the hold-up energy or the temperature
forbids waits as PENDING; ABORT marks the command that runs; a command while one runs stores RESULT 1. Which code a command with
several causes gets is the model's choice (notes/assumptions/30.md). -/
def Obligations.NvmCommandsComplete : Prop :=
  (∀ s : State, s.mode ≠ .off → s.nvm = none → s.unit = none → s.persistWants = false →
    s.persist.ahead = none → s.persist.wipe = none → s.shed = none → s.nvmRefuse 1 (s.fld NVM_ADDR.ADDR) (s.fld NVM_LEN.LEN) (s.fld NVM_SLOT.SEL) false = 0 →
    ∃ t, exec .nvmRead s = .next t ∧ t.unit = some (.read (s.fld NVM_ADDR.ADDR) (min (s.fld NVM_LEN.LEN) 256)) ∧
      t.flag NVM_STATUS.BUSY = true ∧ t.fld NVM_STATUS.LAST_OP = 1 ∧ Steady s t ∧ RegsBut [NVM_STATUS.addr] s t) ∧
  (∀ s : State, s.mode ≠ .off → s.nvm = none → s.unit = none → s.persistWants = false →
    s.persist.ahead = none → s.persist.wipe = none → s.shed = none → s.flashMay = true →
    s.nvmRefuse 2 (s.fld NVM_ADDR.ADDR) (s.fld NVM_LEN.LEN) (s.fld NVM_SLOT.SEL) false = 0 →
    ∃ t, exec .nvmProgram s = .next t ∧
      t.unit = some (.program (s.fld NVM_ADDR.ADDR) (s.mboxBytes 0x30000 (min (s.fld NVM_LEN.LEN) s.pageSize))) ∧
      t.flag NVM_STATUS.BUSY = true ∧ t.fld NVM_STATUS.LAST_OP = 2 ∧ Steady s t ∧
      RegsBut [NVM_STATUS.addr, NVM_SLOT.addr] s t) ∧
  (∀ s : State, s.mode ≠ .off → s.nvm = none → s.unit = none → s.persistWants = false →
    s.persist.ahead = none → s.persist.wipe = none → s.shed = none → s.flashMay = true →
    s.nvmRefuse 3 (s.fld NVM_ADDR.ADDR) (s.fld NVM_LEN.LEN) (s.fld NVM_SLOT.SEL) false = 0 →
    ∃ t, exec .nvmErase s = .next t ∧ t.unit = some (.erase (s.fld NVM_ADDR.ADDR) 1) ∧
      t.flag NVM_STATUS.BUSY = true ∧ t.fld NVM_STATUS.LAST_OP = 3 ∧ Steady s t ∧
      RegsBut [NVM_STATUS.addr, NVM_SLOT.addr] s t) ∧
  (∀ s : State, s.mode ≠ .off → s.nvm = none → s.unit = none → s.persistWants = false →
    s.persist.ahead = none → s.persist.wipe = none → s.shed = none → s.flashMay = false →
    s.nvmRefuse 3 (s.fld NVM_ADDR.ADDR) (s.fld NVM_LEN.LEN) (s.fld NVM_SLOT.SEL) false = 0 →
    ∃ t, exec .nvmErase s = .next t ∧ t.unit = none ∧ t.flag NVM_STATUS.PENDING = true ∧
      t.flag NVM_STATUS.BUSY = true ∧ Steady s t) ∧
  (∀ s : State, s.mode ≠ .off → s.nvm = none → s.unit = none → s.persistWants = false →
    s.persist.ahead = none → s.persist.wipe = none → s.shed = none → s.flashMay = true →
    s.nvmRefuse 4 (s.fld NVM_ADDR.ADDR) (s.fld NVM_LEN.LEN) (s.fld NVM_SLOT.SEL) false = 0 →
    ∃ t, exec .eraseSlot s = .next t ∧ t.unit = some (.erase (s.fld NVM_SLOT.SEL * s.slotSize) 1) ∧
      t.fld NVM_STATUS.LAST_OP = 4 ∧ Steady s t ∧ RegsBut [NVM_STATUS.addr, NVM_SLOT.addr] s t) ∧
  (∀ s : State, s.mode ≠ .off → s.nvm = none → s.unit = none → s.persistWants = false →
    s.persist.ahead = none → s.persist.wipe = none → s.shed = none →
    s.nvmRefuse 5 (s.fld NVM_ADDR.ADDR) (s.fld NVM_LEN.LEN) (s.fld NVM_SLOT.SEL) false = 0 →
    ∃ t, exec .validateSlot s = .next t ∧ t.unit = some (.read (s.fld NVM_SLOT.SEL * s.slotSize) 256) ∧
      t.fld NVM_STATUS.LAST_OP = 5 ∧ Steady s t ∧ RegsBut [NVM_STATUS.addr] s t) ∧
  (∀ s : State, s.mode ≠ .off → s.nvm = none → s.unit = none → s.persistWants = false →
    s.persist.ahead = none → s.persist.wipe = none → s.shed = none → s.flashMay = true →
    s.nvmRefuse 6 (s.fld NVM_ADDR.ADDR) (s.fld NVM_LEN.LEN) (s.fld NVM_SLOT.SEL) false = 0 →
    ∃ t, exec .calCommit s = .next t ∧ t.unit = some (.erase (s.calJob .reg).addr 1) ∧
      t.fld NVM_STATUS.LAST_OP = 6 ∧ Steady s t ∧ RegsBut [NVM_STATUS.addr] s t) ∧
  (∀ s : State, s.mode ≠ .off → s.nvm = none →
    s.nvmRefuse 3 (s.fld NVM_ADDR.ADDR) (s.fld NVM_LEN.LEN) (s.fld NVM_SLOT.SEL) false ≠ 0 →
    ∃ t, exec .nvmErase s = .next t ∧
      t.fld NVM_STATUS.RESULT = s.nvmRefuse 3 (s.fld NVM_ADDR.ADDR) (s.fld NVM_LEN.LEN) (s.fld NVM_SLOT.SEL) false ∧
      OnlyRegs [NVM_STATUS.addr] s t) ∧
  (∀ (j : NvmJob) (s : State), s.mode ≠ .off → s.nvm = some j → s.jobUnit = true →
    ∃ t, exec .nvmAbort s = .next t ∧ t.nvm = some { j with aborted := true } ∧ t.withNvm s.nvm = s) ∧
  (∀ s : State, s.mode ≠ .off → s.nvm = none →
    ∃ t, exec .nvmAbort s = .next t ∧ t.fld NVM_STATUS.RESULT = 0 ∧ t.fld NVM_STATUS.LAST_OP = 7 ∧
      OnlyRegs [NVM_STATUS.addr] s t) ∧
  (∀ (j : NvmJob) (s : State), s.mode ≠ .off → s.nvm = some j →
    ∃ t, exec .nvmErase s = .next t ∧ t.fld NVM_STATUS.RESULT = 1 ∧ OnlyRegs [NVM_STATUS.addr] s t)

/-- The flash port (R50, R86, R88): a unit that completes has its effect on the flash and on nothing else of it: a sector
erased reads 0xFF, a page programmed reads as its bytes (not where its read of the buffer meets an uncorrectable error,
which is counted; R291), a read leaves the flash as it was. The hold-up check stores the voltage; a persist page that is due
starts with up to seven of the events that wait. -/
def Obligations.FlashPortCompletes : Prop :=
  (∀ (a n : Nat) (ecc : Ecc) (s : State), s.unit = some (.erase a n) → s.lc = none → s.eraseDue = false →
    ∃ t, exec (.flashOpComplete ⟨true, ecc⟩) s = .next t ∧
      (∀ b, t.flashAt b = if a ≤ b ∧ b < a + sectorSize then 0xFF else s.flashAt b) ∧ t.mode = s.mode ∧ t.otp = s.otp ∧
      t.banks = s.banks) ∧
  (∀ (a : Nat) (bs : List Byte) (ecc : Ecc) (s : State), s.unit = some (.program a bs) → s.lc = none → s.eraseDue = false →
    ecc ≠ .ue → ∃ t, exec (.flashOpComplete ⟨true, ecc⟩) s = .next t ∧
      (∀ b, t.flashAt b = if a ≤ b ∧ b < a + bs.length then bs.getD (b - a) 0xFF else s.flashAt b) ∧ t.mode = s.mode ∧
      t.otp = s.otp ∧ t.banks = s.banks) ∧
  (∀ (a : Nat) (bs : List Byte) (s : State), s.unit = some (.program a bs) → s.lc = none → s.eraseDue = false →
    ∃ t, exec (.flashOpComplete ⟨true, .ue⟩) s = .next t ∧ t.fld MEM_ECC_STATUS.UE_CNT = satN 16 (s.fld MEM_ECC_STATUS.UE_CNT + 1) ∧
      (∀ b, b < a ∨ a + bs.length ≤ b → t.flashAt b = s.flashAt b) ∧ t.mode = s.mode ∧ t.otp = s.otp ∧ t.banks = s.banks) ∧
  (∀ (a n : Nat) (e : FlashEnd) (s : State), s.unit = some (.read a n) → s.lc = none → s.eraseDue = false →
    ∃ t, exec (.flashOpComplete e) s = .next t ∧ t.flash = s.flash ∧ t.torn = s.torn ∧ t.mode = s.mode ∧
      t.otp = s.otp) ∧
  (∀ (a n : Nat) (ecc : Ecc) (s : State), s.unit = some (.erase a n) → s.lc = none → s.eraseDue = false →
    ∃ t, exec (.flashOpComplete ⟨false, ecc⟩) s = .next t ∧ t.flash = s.flash ∧ t.mode = s.mode ∧ t.otp = s.otp) ∧
  (∀ (e : FlashEnd) (s : State), s.unit = none → exec (.flashOpComplete e) s = .next s) ∧
  (∀ (hu : BitVec 16) (s : State), s.mode ≠ .off → s.lc = none → s.eraseDue = false →
    ∃ t, exec (.holdupRetry hu) s = .next t ∧ t.fld PWR_HOLDUP_V.V = hu.toNat ∧ Steady s t ∧
      RegsBut [PWR_HOLDUP_V.addr, NVM_STATUS.addr] s t) ∧
  (∀ s : State, s.mode ≠ .off → s.persist.waiting ≠ [] → s.unit = none → s.flag NVM_CFG.PERSIST_EN = true →
    s.fld NVM_CFG.DENSITY ≠ 0 → s.energyOk = true → s.temp170 = false → s.shed = none →
    ∃ t bytes, exec .persistPage s = .next t ∧
      t.unit = some (.persist (s.persistBase + s.persist.off) bytes (s.persist.waiting.take 7)) ∧
      t.persist.waiting = s.persist.waiting.drop 7 ∧ t.persist.dropped = 0 ∧ Steady s t ∧ RegsBut [NVM_STATUS.addr] s t)

/-! ## Converters (06, 15) -/

/-- The PPMU (R105 to R110, R112) in IDLE or RUN: a START that is not refused clears DONE and asks for the die's converter
after SETTLE, or waits where a live pass has the channel; the result of the request that is next (whether the calibration
engine comes before it is free, notes/assumptions/46.md) is the mean of its 2^AVG_LOG2 conversions, a current held within
1.1 r and a voltage of the PPMU between CLAMP_LO and CLAMP_HI, stored with DONE, CLAMP and, for a DAC, RB_FAIL, and the
channel asks again only under CONT; a background readback of a DAC outside Table 6-7 sets RB_FAIL and raises an event, one
within it changes nothing. -/
def Obligations.PpmuCommandsComplete : Prop :=
  (∀ (c : Chan) (v : Word) (s : State), (s.mode = .idle ∨ s.mode = .run) → reservedBits (PIN_PPMU_CFG.addr c) v = 0 →
    wbit v 31 = true → (s.store (PIN_PPMU_CFG.addr c) v).fld (PIN_PPMU_CFG.MEAS_SEL c) < 9 →
    (s.store (PIN_PPMU_CFG.addr c) v).ppmuRefused c = false →
    ∃ t, exec (.ppmuStart c v) s = .next t ∧ t.flag (PIN_PPMU_MEAS.DONE c) = false ∧
      (t.chan c).meas = s.flag (PIN_STATUS.STALE c) ∧
      (t.die (c / 64)).asks = (s.die (c / 64)).asks.filter (fun x => decide (x.2 ≠ c.val % 64)) ++
        (if s.flag (PIN_STATUS.STALE c) then []
         else [(s.time.toNat + (s.store (PIN_PPMU_CFG.addr c) v).settleFines c, c.val % 64)]) ∧
      (∀ e, e ≠ c.val → t.chan e = s.chan e) ∧ (∀ d, d ≠ c.val / 64 → t.die d = s.die d) ∧
      ((t.withRegs s.regs).withChans s.chans).withDies s.dies = s ∧
      RegsBut [PIN_PPMU_CFG.addr c, PIN_PPMU_MEAS.addr c] s t) ∧
  (∀ (c : Chan) (v : Word) (s : State), (s.mode = .idle ∨ s.mode = .run) → reservedBits (PIN_PPMU_CFG.addr c) v = 0 →
    wbit v 31 = true → (s.store (PIN_PPMU_CFG.addr c) v).fld (PIN_PPMU_CFG.MEAS_SEL c) < 9 →
    (s.store (PIN_PPMU_CFG.addr c) v).ppmuRefused c = true →
    ∃ t, exec (.ppmuStart c v) s = .next t ∧ t.flag (PIN_PPMU_MEAS.BLOCKED c) = true ∧
      OnlyRegs [PIN_PPMU_CFG.addr c, PIN_PPMU_MEAS.addr c] s t) ∧
  (∀ (c : Chan) (vs ws : List Int) (ok : Bool) (since_ : Nat) (s : State), (s.mode = .idle ∨ s.mode = .run) →
    s.asked (c / 64) (c % 64) = some since_ → vs.length = 2 ^ s.fld (PIN_PPMU_CFG.AVG_LOG2 c) →
    ws = (if s.fld (PIN_PPMU_CFG.MEAS_SEL c) = 0 then
        if s.flag (PIN_PPMU_CFG.MODE c) then vs.map (s.satVoltage c) else vs.map satCurrent
      else vs) →
    ∃ t, exec (.ppmuDone c vs ok) s = .next t ∧ t.flag (PIN_PPMU_MEAS.DONE c) = true ∧
      (∃ m : Int, t.fld (PIN_PPMU_MEAS.VALUE c) = twos 24 m ∧ |m * vs.length - ws.sum| < vs.length ∧
        ∀ d, ChanDac.ofSel (s.fld (PIN_PPMU_CFG.MEAS_SEL c)) (s.fld (PIN_PPMU_CFG.RB_SET c)) = some d →
          t.flag (PIN_PPMU_MEAS.RB_FAIL c) = !s.dacOk c d m) ∧
      (s.fld (PIN_PPMU_CFG.MEAS_SEL c) = 0 → t.flag (PIN_PPMU_MEAS.CLAMP c) = (!ok || vs.any (s.atClamp c))) ∧
      (t.die (c / 64)).asks = (s.die (c / 64)).asks.filter (fun x => decide (x.2 ≠ c.val % 64)) ++
        (if s.flag (PIN_PPMU_CFG.CONT c) then [(t.time.toNat + s.settleFines c, c.val % 64)] else []) ∧
      t.chans = s.chans ∧ (∀ d, d ≠ c.val / 64 → t.die d = s.die d) ∧ t.mode = s.mode ∧ Still s t ∧
      RegsBut [PIN_PPMU_MEAS.addr c, PIN_STATUS.addr c] s t) ∧
  (∀ (c : Chan) (dac : BitVec 6) (uv : Int) (sel set : Nat) (d : ChanDac) (s : State), (s.mode = .idle ∨ s.mode = .run) →
    dacSel dac.toNat = some (sel, set) → ChanDac.ofSel sel set = some d → s.dacOk c d uv = false →
    s.convFree (c / 64) = true → 4 ≤ sel ∨ s.chanExecuting c = false ∨ s.flag (PIN_CFG.LVL_STATIC c) = true →
    ∃ t, exec (.dacReadbackScan c dac uv) s = .next t ∧ t.flag (PIN_STATUS.RB_FAIL c) = true ∧
      t.evtSeq = s.evtSeq + 1 ∧ Steady s t ∧ RegsButEvents [PIN_STATUS.addr c] s t) ∧
  (∀ (c : Chan) (dac : BitVec 6) (uv : Int) (sel set : Nat) (d : ChanDac) (s : State),
    dacSel dac.toNat = some (sel, set) → ChanDac.ofSel sel set = some d → s.dacOk c d uv = true →
    ∃ t, exec (.dacReadbackScan c dac uv) s = .next t ∧ { t with freeCtr := s.freeCtr } = s)

/-- SENSE measurements and SREF readbacks (R109, R111, R284) in IDLE or RUN: a request waits at its die's converter with its
DONE bit clear; in CAL a SENSE request is BLOCKED and an SREF one does not start; the result of the request that is next
(whether the calibration engine comes before it is free, notes/assumptions/46.md) is stored, DONE is set and the request
waits no longer. A readback outside Table 6-7 sets RB_FAIL and raises an event. -/
def Obligations.ConversionsComplete : Prop :=
  (∀ (m : Fin 32) (v : Word) (s : State), (s.mode = .idle ∨ s.mode = .run) →
    reservedBits (MON_SENSE_MEAS.addr m) v = 0 → wbit v 31 = true →
    ∃ t, exec (.senseMeasStart m v) s = .next t ∧ t.fld (MON_SENSE_MEAS.SEL m) = wfld v (MON_SENSE_MEAS.SEL m) ∧
      t.flag (MON_SENSE_MEAS.DONE m) = false ∧
      (t.die (m / 2)).asks = (s.die (m / 2)).asks.filter (fun x => decide (x.2 ≠ 64 + m.val % 2)) ++
        [(s.time.toNat, 64 + m.val % 2)] ∧
      (∀ d, d ≠ m.val / 2 → t.die d = s.die d) ∧ (t.withRegs s.regs).withDies s.dies = s ∧
      RegsBut [MON_SENSE_MEAS.addr m] s t) ∧
  (∀ (m : Fin 32) (v : Word) (s : State), s.mode = .cal → reservedBits (MON_SENSE_MEAS.addr m) v = 0 →
    wbit v 31 = true →
    ∃ t, exec (.senseMeasStart m v) s = .next t ∧ t.flag (MON_SENSE_MEAS.BLOCKED m) = true ∧
      OnlyRegs [MON_SENSE_MEAS.addr m] s t) ∧
  (∀ (m : Fin 32) (v : Word) (s : State), (s.mode = .idle ∨ s.mode = .run) →
    reservedBits (MON_SREF_STATUS.addr m) v = 0 → wbit v 31 = true →
    ∃ t, exec (.srefReadbackStart m v) s = .next t ∧ t.flag (MON_SREF_STATUS.RB_DONE m) = false ∧
      (t.die (m / 2)).asks = (s.die (m / 2)).asks.filter (fun x => decide (x.2 ≠ 66 + m.val % 2)) ++
        [(s.time.toNat, 66 + m.val % 2)] ∧
      (∀ d, d ≠ m.val / 2 → t.die d = s.die d) ∧ (t.withRegs s.regs).withDies s.dies = s ∧
      RegsBut [MON_SREF_STATUS.addr m] s t) ∧
  (∀ (m : Fin 32) (v : Word) (s : State), s.mode = .cal → reservedBits (MON_SREF_STATUS.addr m) v = 0 →
    wbit v 31 = true → ∃ t, exec (.srefReadbackStart m v) s = .next t ∧ OnlyRegs [MON_SREF_STATUS.addr m] s t) ∧
  (∀ (m : Fin 32) (v : BitVec 24) (hi : Bool) (since_ : Nat) (s : State), (s.mode = .idle ∨ s.mode = .run) →
    s.asked (m / 2) (64 + m % 2) = some since_ →
    ∃ t, exec (.conversionDone false m v hi) s = .next t ∧ t.flag (MON_SENSE_MEAS.DONE m) = true ∧
      (s.fld (MON_SENSE_MEAS.SEL m) ≠ 3 → t.fld (MON_SENSE_MEAS.VALUE m) = v.toNat) ∧
      (s.fld (MON_SENSE_MEAS.SEL m) = 1 → t.flag (MON_SENSE_MEAS.RB_FAIL m) = !s.senseOk m false (signed 24 v.toNat)) ∧
      (s.fld (MON_SENSE_MEAS.SEL m) = 2 → t.flag (MON_SENSE_MEAS.RB_FAIL m) = !s.senseOk m true (signed 24 v.toNat)) ∧
      (t.die (m / 2)).asks = (s.die (m / 2)).asks.filter (fun x => decide (x.2 ≠ 64 + m.val % 2)) ∧
      (∀ d, d ≠ m.val / 2 → t.die d = s.die d) ∧ t.mode = s.mode ∧ Still s t ∧
      RegsButEvents [MON_SENSE_MEAS.addr m] s t) ∧
  (∀ (m : Fin 32) (v : BitVec 24) (hi : Bool) (since_ : Nat) (s : State), (s.mode = .idle ∨ s.mode = .run) →
    s.asked (m / 2) (66 + m % 2) = some since_ →
    ∃ t, exec (.conversionDone true m v hi) s = .next t ∧ t.flag (MON_SREF_STATUS.RB_DONE m) = true ∧
      t.fld (MON_SREF_STATUS.VALUE m) = v.toNat % 2 ^ (MON_SREF_STATUS.VALUE m).len ∧
      (s.srefOk m (signed 24 v.toNat) = false → t.flag (MON_SREF_STATUS.RB_FAIL m) = true ∧ t.evtSeq = s.evtSeq + 1) ∧
      (t.die (m / 2)).asks = (s.die (m / 2)).asks.filter (fun x => decide (x.2 ≠ 66 + m.val % 2)) ∧
      (∀ d, d ≠ m.val / 2 → t.die d = s.die d) ∧ t.mode = s.mode ∧ Still s t ∧
      RegsButEvents [MON_SREF_STATUS.addr m] s t) ∧
  (∀ (m : Fin 32) (v : BitVec 24) (hi : Bool) (s : State), (s.mode = .idle ∨ s.mode = .run) →
    s.asked (m / 2) (66 + m % 2) = none → s.convFree (m / 2) = true → s.srefOk m (signed 24 v.toNat) = false →
    ∃ t, exec (.conversionDone true m v hi) s = .next t ∧ t.flag (MON_SREF_STATUS.RB_FAIL m) = true ∧
      t.evtSeq = s.evtSeq + 1 ∧ Steady s t ∧ RegsButEvents [MON_SREF_STATUS.addr m] s t)

/-! ## Acts and sequencers (08, 09) -/

/-- SEQ_CTRL (R146, R147, R149, R150): START and ARM bring a STOPPED act to ARMING at START_ADDR of the bank half
START_HALF, with PIN_HYST and PIN_HOLDOFF in force at its channels (R102; the model's reading, notes/assumptions/46.md) and
RUNOUT as it stands, and a show act reports it by UP (R320); STOP brings a RUNNING one to STOPPING with reason 2 after the
last vector issued; ABORT brings it to STOPPING with reason 0x0D, a queued start discarded and missed, and the end of L at
the earlier of its own end and now; an abort of a STOPPED act stores the register and does nothing else. What counts for its
own end, and for a queued start's event, is the model's choice (notes/assumptions/22.md, 46.md). -/
def Obligations.SequencerControlCompletes : Prop :=
  (∀ (n : Act) (v : Word) (s : State), s.inService = true → reservedBits (SEQ_CTRL.addr n) v = 0 →
    s.actState n = 0 → wbit v 0 = true → wbit v 1 = false → wbit v 2 = false →
    ∃ t, exec (.seqStart n v) s = .next t ∧ t.actState n = 1 ∧ (t.act n).armedBy = some {} ∧ (t.act n).checked = false ∧
      (t.act n).pc = wfld v (SEQ_CTRL.START_ADDR n) ∧ t.execHalf n = wfld v (SEQ_CTRL.START_HALF n) ∧
      t.fld (SEQ_STATUS.START_RESULT n) = 0 ∧ (t.act n).runout = s.fld (SEQ_STOP_POLICY.RUNOUT n) ∧
      (∀ c : Chan, c.val ∈ s.actChans n → (t.chan c).hyst = (s.reg (PIN_HYST.addr c)).toNat ∧
        (t.chan c).hold = (s.reg (PIN_HOLDOFF.addr c)).toNat) ∧ (∀ c, c ∉ s.actChans n → t.chan c = s.chan c) ∧
      (∀ m, m ≠ n.val → t.act m = s.act m) ∧
      (s.hasManager = false ∨ (∀ sh, sh < 256 → n.val ∉ s.showActs sh) → t.ports = s.ports) ∧
      (((t.withRegs s.regs).withActs s.acts).withChans s.chans).withPorts s.ports = s ∧
      RegsBut [SEQ_CTRL.addr n, SEQ_STATUS.addr n] s t) ∧
  (∀ (n : Act) (v : Word) (s : State), s.inService = true → reservedBits (SEQ_CTRL.addr n) v = 0 →
    s.actState n = 0 → wbit v 3 = true → wbit v 0 = false → wbit v 1 = false → wbit v 2 = false →
    ∃ t, exec (.seqArm n v) s = .next t ∧ t.actState n = 1 ∧ (t.act n).armedBy = some { arm := true } ∧
      (t.act n).pc = wfld v (SEQ_CTRL.START_ADDR n) ∧ (∀ m, m ≠ n.val → t.act m = s.act m) ∧
      (∀ c, c ∉ s.actChans n → t.chan c = s.chan c) ∧
      (s.hasManager = false ∨ (∀ sh, sh < 256 → n.val ∉ s.showActs sh) → t.ports = s.ports) ∧
      (((t.withRegs s.regs).withActs s.acts).withChans s.chans).withPorts s.ports = s ∧
      RegsBut [SEQ_CTRL.addr n, SEQ_STATUS.addr n] s t) ∧
  (∀ (n : Act) (v : Word) (s : State), s.inService = true → reservedBits (SEQ_CTRL.addr n) v = 0 →
    s.actState n = 3 → (s.act n).stop = none → (s.act n).aborted = false → wbit v 1 = true → wbit v 2 = false →
    ∃ t, exec (.seqStop n v) s = .next t ∧ t.actState n = 4 ∧ t.fld (SEQ_STATUS.STOP_REASON n) = 2 ∧
      (t.act n).stop = some (s.issued n, 2) ∧ (∀ m, m ≠ n.val → t.act m = s.act m) ∧ Steady s t ∧
      RegsBut [SEQ_CTRL.addr n, SEQ_STATUS.addr n] s t) ∧
  (∀ (n : Act) (v : Word) (s : State), s.inService = true → reservedBits (SEQ_CTRL.addr n) v = 0 →
    s.actState n = 3 → (s.act n).aborted = false → (s.act n).endL = none → wbit v 2 = true →
    ∃ t, exec (.seqAbort n v) s = .next t ∧ t.actState n = 4 ∧ t.fld (SEQ_STATUS.STOP_REASON n) = 0xD ∧
      (t.act n).stop = some (s.issued n, 0xD) ∧ (t.act n).aborted = true ∧ (t.act n).queued = none ∧
      (t.act n).endL = some (if after s.time.toNat (s.endNow n) then s.endNow n else s.time.toNat) ∧
      t.evtSeq = s.evtSeq + (if (s.act n).queued.isSome then 1 else 0) ∧
      (∀ m, m ≠ n.val → t.act m = s.act m) ∧ Steady s t) ∧
  (∀ (n : Act) (v : Word) (s : State), s.inService = true → reservedBits (SEQ_CTRL.addr n) v = 0 →
    s.actState n = 0 → wbit v 2 = true →
    ∃ t, exec (.seqAbort n v) s = .next t ∧ OnlyRegs [SEQ_CTRL.addr n] s t)

/-- Starting (R133, R146 to R149): checks that pass load the ring masks and empty the delay line; what has been benched
since the start was accepted stays so (the model's choice, notes/assumptions/46.md); a check that fails stops the act with
its code and an event. A full prefetch buffer switches the banks of the act that have become eligible (R255), arms an act
that was armed and releases one that was started: RUNNING from the next vector-clock cycle on, with mode RUN; a buffer that
is not full does neither. A START(t) releases an ARMED act at t, whose issue cycle it lies in, and an act that is not ARMED
at t is late. Which instant within a cycle the next one begins at is free (notes/assumptions/44.md). -/
def Obligations.StartingCompletes : Prop :=
  (∀ (n : Act) (s : State), s.actState n = 1 → (s.act n).checked = false →
    (s.timed n = true ∨ s.fld (TMG_MODE.K n) ≤ 10 ∧ ∀ c ∈ s.actChans n, s.trkReserved c = false) → s.startCheck n = 0 →
    ∃ t, exec (.startChecks n) s = .next t ∧ (t.act n).checked = true ∧
      (t.act n).loaded = BitVec.ofNat 64 (s.ringMask n) ∧ (t.act n).working = BitVec.ofNat 64 (s.ringMask n) ∧
      (t.act n).bench = (s.act n).bench ∧ (t.act n).line = [] ∧ (∀ m, m ≠ n.val → t.act m = s.act m) ∧ Still s t ∧ t.mode = s.mode) ∧
  (∀ (n : Act) (s : State), s.actState n = 1 → (s.act n).checked = false → s.startCheck n ≠ 0 → (s.act n).queued = none →
    ∃ t, exec (.startChecks n) s = .next t ∧ t.actState n = 0 ∧
      t.fld (SEQ_STATUS.START_RESULT n) = s.startCheck n ∧ (t.act n).armedBy = none ∧ t.evtSeq = s.evtSeq + 1 ∧
      Steady s t) ∧
  (∀ (n : Act) (s : State), s.pfFull n = false → exec (.actArmed n) s = .next s) ∧
  (∀ (n : Act) (s : State), s.actState n = 1 → (s.act n).checked = true → s.pfFull n = true → s.parkHeld n = false →
    (s.act n).held = none → (s.act n).armedBy = some { arm := true } →
    ∃ t, exec (.actArmed n) s = .next t ∧ t.actState n = 2 ∧ Steady s t ∧ t.dram = s.dram ∧
      (∀ c : Chan, c.val ∈ s.actChans n → s.flag (PIN_QUALITY_STAT.ELIGIBLE c) = true →
        (t.chan c).active = (s.chan c).staged ∧ t.flag (PIN_QUALITY_STAT.ELIGIBLE c) = false) ∧
      ((∀ c : Chan, c.val ∈ s.actChans n → s.flag (PIN_QUALITY_STAT.ELIGIBLE c) = false) →
        t.chans = s.chans ∧ RegsBut [SEQ_STATUS.addr n] s t)) ∧
  (∀ (n : Act) (s : State), s.actState n = 1 → (s.act n).checked = true → s.pfFull n = true → s.parkHeld n = false →
    (s.act n).held = none → (s.act n).armedBy = some {} →
    ∃ t, exec (.actArmed n) s = .next t ∧ t.actState n = 3 ∧ s.time.toNat < (t.act n).tStart ∧
      (t.act n).tStart ≤ s.time.toNat + s.cyc ∧ (t.act n).iss = (t.act n).tStart ∧
      t.mode = (if s.mode = .idle then .run else s.mode) ∧ t.time = s.time ∧ Still s t ∧
      (∀ c : Chan, c.val ∈ s.actChans n → s.flag (PIN_QUALITY_STAT.ELIGIBLE c) = true →
        (t.chan c).active = (s.chan c).staged ∧ t.flag (PIN_QUALITY_STAT.ELIGIBLE c) = false) ∧
      ((∀ c : Chan, c.val ∈ s.actChans n → s.flag (PIN_QUALITY_STAT.ELIGIBLE c) = false) →
        RegsButEvents [SEQ_STATUS.addr n] s t)) ∧
  (∀ (n : Act) (t0 : Nat) (s : State), s.actState n = 2 → (s.act n).timedStart = some t0 → s.time.toNat ≤ t0 →
    t0 < s.time.toNat + 2 ^ 63 → t0 < 2 ^ 64 →
    ∃ t, exec (.startTime n) s = .next t ∧ t.actState n = 3 ∧ (t.act n).tStart = t0 ∧ (t.act n).iss ≤ t0 ∧
      t0 < (t.act n).iss + s.cyc ∧ t.time.toNat = t0 ∧
      t.mode = (if s.mode = .idle then .run else s.mode) ∧ Still s t ∧ RegsButEvents [SEQ_STATUS.addr n] s t) ∧
  (∀ (n : Act) (t0 : Nat) (s : State), s.actState n = 1 → (s.act n).timedStart = some t0 → (s.act n).queued = none →
    ∃ t, exec (.startTime n) s = .next t ∧ t.actState n = 0 ∧ t.fld (SEQ_STATUS.START_RESULT n) = 9 ∧ t.mode = s.mode ∧
      Still s t)

/-- The FLOW opcodes that issue one vector (R165, R167 to R170, R175, R176): the vector is issued and the next PC is the one
the opcode names; CALL, RET, LOOP and ENDLOOP open and close their frames and no other opcode does but SWAP, which changes
the bank half and closes every frame; a MARK with TARGET[23] raises an event stamped with its T0 at the pins, at most one in
1 us, and counts those it misses. A BRANCH goes to TARGET where its condition holds after the vector. The five stack faults
of Table 9-9 issue nothing and stop the act with STACK_FAULT, SEQ_PC at the microinstruction. -/
def Obligations.SingleVectorFlowsComplete : Prop :=
  (∀ (n : Act) (s : State), MayRun 0x00 n s →
    ∃ t, exec (.nextVec n .clean) s = .next t ∧ (t.act n).pc = s.pcNext n ∧ (t.act n).calls = (s.act n).calls ∧
      (t.act n).loops = (s.act n).loops ∧ IssuedOne n [] s t) ∧
  (∀ (n : Act) (s : State), MayRun 0x02 n s →
    ∃ t, exec (.jump n) s = .next t ∧ (t.act n).pc = uTarget (s.microWord n) % 65536 ∧
      (t.act n).calls = (s.act n).calls ∧ (t.act n).loops = (s.act n).loops ∧ IssuedOne n [] s t) ∧
  (∀ (n : Act) (s : State), MayRun 0x03 n s → (s.act n).calls.length < 16 →
    ∃ t, exec (.call n) s = .next t ∧ (t.act n).pc = uTarget (s.microWord n) % 65536 ∧
      (t.act n).calls = (s.pcNext n, (s.act n).loops.length) :: (s.act n).calls ∧
      (t.act n).loops = (s.act n).loops ∧ IssuedOne n [] s t) ∧
  (∀ (n : Act) (s : State), MayRun 0x03 n s → 16 ≤ (s.act n).calls.length → s.actState n = 3 → (s.act n).stop = none →
    ∃ t, exec (.call n) s = .next t ∧ StackFault n s t) ∧
  (∀ (n : Act) (r d : Nat) (cs : List (Nat × Nat)) (s : State), MayRun 0x04 n s → (s.act n).calls = (r, d) :: cs →
    (s.act n).loops.length = d →
    ∃ t, exec (.ret n) s = .next t ∧ (t.act n).pc = r % 65536 ∧ (t.act n).calls = cs ∧
      (t.act n).loops = (s.act n).loops ∧ IssuedOne n [] s t) ∧
  (∀ (n : Act) (s : State), MayRun 0x05 n s → (s.act n).loops.length < 8 →
    ∃ t, exec (.loopVec n) s = .next t ∧ (t.act n).pc = s.pcNext n ∧
      (t.act n).loops = (s.pcNext n, uTarget (s.microWord n)) :: (s.act n).loops ∧
      (t.act n).calls = (s.act n).calls ∧ IssuedOne n [] s t) ∧
  (∀ (n : Act) (st c : Nat) (ls : List (Nat × Nat)) (s : State), MayRun 0x06 n s → (s.act n).loops = (st, c) :: ls →
    1 < c →
    ∃ t, exec (.endloop n) s = .next t ∧ (t.act n).pc = st % 65536 ∧ (t.act n).loops = (st, c - 1) :: ls ∧
      (t.act n).calls = (s.act n).calls ∧ IssuedOne n [] s t) ∧
  (∀ (n : Act) (st c : Nat) (ls : List (Nat × Nat)) (s : State), MayRun 0x06 n s → (s.act n).loops = (st, c) :: ls →
    c ≤ 1 →
    ∃ t, exec (.endloop n) s = .next t ∧ (t.act n).pc = s.pcNext n ∧ (t.act n).loops = ls ∧
      (t.act n).calls = (s.act n).calls ∧ IssuedOne n [] s t) ∧
  (∀ (n : Act) (s : State), MayRun 0x07 n s →
    ∃ t, exec (.branch n) s = .next t ∧
      (uCsel (s.microWord n) = 0 → (t.act n).pc = s.pcNext n) ∧
      (uCsel (s.microWord n) = 0x80 → (t.act n).pc = uTarget (s.microWord n) % 65536) ∧
      (uCsel (s.microWord n) = 8 → uRmop (s.microWord n) = 0 →
        (t.act n).pc = if (s.act n).failSeen then uTarget (s.microWord n) % 65536 else s.pcNext n) ∧
      (t.act n).pc = (if t.cond n (uCsel (s.microWord n)) then uTarget (s.microWord n) % 65536 else s.pcNext n) ∧
      (t.act n).calls = (s.act n).calls ∧ (t.act n).loops = (s.act n).loops ∧ IssuedOne n [] s t) ∧
  (∀ (n : Act) (s : State), MayRun 0x0C n s →
    0 < (s.act n).swapFollowed ∨ s.swapReady n (s.execHalf n) = true →
    ∃ t, exec (.swap n) s = .next t ∧ t.execHalf n = 1 - s.execHalf n ∧
      (t.act n).pc = uTarget (s.microWord n) % 65536 ∧ (t.act n).calls = [] ∧ (t.act n).loops = [] ∧
      IssuedOne n [SEQ_STATUS.addr n] s t) ∧
  (∀ (n : Act) (s : State), MayRun 0x0D n s → bitOf (uTarget (s.microWord n)) 23 = false →
    ∃ t, exec (.markVec n) s = .next t ∧ (t.act n).pc = s.pcNext n ∧ IssuedOne n [] s t) ∧
  (∀ (n : Act) (s : State), MayRun 0x0D n s → bitOf (uTarget (s.microWord n)) 23 = true → (s.act n).lastMark = none →
    ∃ t, exec (.markVec n) s = .next t ∧ (t.act n).pc = s.pcNext n ∧ t.issued n = (s.issued n + 1) % 2 ^ 64 ∧
      (t.act n).lastMark = some (s.nextT0 n + s.fwdDepth) ∧ t.evtSeq = s.evtSeq + 1 ∧ Steady s t) ∧
  (∀ (n : Act) (l : Nat) (s : State), MayRun 0x0D n s → bitOf (uTarget (s.microWord n)) 23 = true →
    (s.act n).lastMark = some l → elapsed 64 (s.nextT0 n + s.fwdDepth) l < usFines →
    ∃ t, exec (.markVec n) s = .next t ∧ (t.act n).pc = s.pcNext n ∧ (t.act n).lastMark = some l ∧
      (t.act n).marksMissed = (s.act n).marksMissed + 1 ∧ IssuedOne n [] s t) ∧
  (∀ (n : Act) (s : State), MayRun 0x04 n s → (s.act n).calls = [] → s.actState n = 3 → (s.act n).stop = none →
    ∃ t, exec (.ret n) s = .next t ∧ StackFault n s t) ∧
  (∀ (n : Act) (r d : Nat) (cs : List (Nat × Nat)) (s : State), MayRun 0x04 n s → (s.act n).calls = (r, d) :: cs →
    (s.act n).loops.length ≠ d → s.actState n = 3 → (s.act n).stop = none →
    ∃ t, exec (.ret n) s = .next t ∧ StackFault n s t) ∧
  (∀ (n : Act) (s : State), MayRun 0x05 n s → 8 ≤ (s.act n).loops.length → s.actState n = 3 → (s.act n).stop = none →
    ∃ t, exec (.loopVec n) s = .next t ∧ StackFault n s t) ∧
  (∀ (n : Act) (s : State), MayRun 0x06 n s → (s.act n).loops = [] → s.actState n = 3 → (s.act n).stop = none →
    ∃ t, exec (.endloop n) s = .next t ∧ StackFault n s t)

/-- REPEAT and HALT (R166, R177): the last repetition goes on to PC + 1, an earlier one keeps the PC with one repetition
less to go, and one after which the condition is true drops the rest; with CSEL 0, k repetitions of a longer REPEAT issue k
vectors, and the rest is to go; HALT's vector is the last one, and the act is STOPPING with reason 1. -/
def Obligations.RepeatAndHaltComplete : Prop :=
  (∀ (n : Act) (s : State), MayRun 0x01 n s → (s.act n).prog = .none → uTarget (s.microWord n) = 1 →
    ∃ t, exec (.repeatVec n 1) s = .next t ∧ (t.act n).pc = s.pcNext n ∧ (t.act n).prog = .none ∧ IssuedOne n [] s t) ∧
  (∀ (n : Act) (s : State), MayRun 0x01 n s → (s.act n).prog = .none → 1 < uTarget (s.microWord n) →
    uCsel (s.microWord n) = 0 →
    ∃ t, exec (.repeatVec n 1) s = .next t ∧ (t.act n).pc = (s.act n).pc ∧
      (t.act n).prog = .repeat_ (uTarget (s.microWord n) - 1) ∧ IssuedOne n [] s t) ∧
  (∀ (n : Act) (left : Nat) (s : State), MayRun 0x01 n s → (s.act n).prog = .repeat_ left →
    ∃ t, exec (.repeatVec n 1) s = .next t ∧ IssuedOne n [] s t ∧
      (left ≤ 1 ∨ t.cond n (uCsel (s.microWord n)) = true → (t.act n).pc = s.pcNext n ∧ (t.act n).prog = .none) ∧
      (1 < left → t.cond n (uCsel (s.microWord n)) = false → (t.act n).pc = (s.act n).pc ∧
        (t.act n).prog = .repeat_ (left - 1)) ∧
      (uCsel (s.microWord n) = 0x88 → (s.act n).failSeen = false → (t.act n).prog = .none) ∧
      (uCsel (s.microWord n) = 8 → (s.act n).failSeen = true → (t.act n).prog = .none)) ∧
  (∀ (n : Act) (k left : Nat) (s : State), MayRun 0x01 n s → s.actState n = 3 → (s.act n).prog = .repeat_ left → k < left →
    uCsel (s.microWord n) = 0 →
    ∃ t, exec (.repeatVec n k) s = .next t ∧ (t.act n).pc = (s.act n).pc ∧ (t.act n).prog = .repeat_ (left - k) ∧
      t.issued n = (s.issued n + k) % 2 ^ 64 ∧ (t.act n).line.length = (s.act n).line.length + k ∧
      (∀ m, m ≠ n.val → t.act m = s.act m) ∧ t.dram = s.dram ∧ Steady s t) ∧
  (∀ (n : Act) (s : State), MayRun 0x0E n s → s.actState n = 3 → (s.act n).stop = none →
    ∃ t, exec (.halt n) s = .next t ∧ t.actState n = 4 ∧ t.fld (SEQ_STATUS.STOP_REASON n) = 1 ∧
      (t.act n).stop = some (t.issued n, 1) ∧ IssuedOne n [SEQ_STATUS.addr n] s t)

/-- The microinstructions that wait (R171 to R173): the first trial of a MATCH keeps its PC and the rings that take
part; trials run out with the match unknown end it with MATCH_TO and an event; a WAIT_TIME whose time is ahead, and a
WAIT_WHISTLE without a cue, issue their first vector and go on waiting; the time reached, and the timeout, end the wait
at PC + 1. -/
def Obligations.WaitingFlowsComplete : Prop :=
  (∀ (n : Act) (s : State), MayRun 0x08 n s → (s.act n).prog = .none → uRmop (s.microWord n) = 0 →
    (s.act n).working &&& ~~~(s.act n).bench ≠ 0 →
    ∃ t, exec (.matchVec n 1) s = .next t ∧ (t.act n).pc = (s.act n).pc ∧
      (t.act n).prog = .match_ (s.issued n) 1 ((s.act n).working &&& ~~~(s.act n).bench) 0 none ∧ IssuedOne n [] s t) ∧
  (∀ (n : Act) (first trials : Nat) (taking matched : BitVec 64) (s : State), s.canIssue n = true →
    uFlow (s.microWord n) = 0x08 → (s.act n).prog = .match_ first trials taking matched none →
    uTarget (s.microWord n) ≤ trials → uCsel (s.microWord n) = 0 →
    ∃ t, exec (.matchTimeout n) s = .next t ∧ (t.act n).matchTo = true ∧ (t.act n).pc = s.pcNext n ∧
      (t.act n).prog = .none ∧ t.issued n = s.issued n ∧ t.evtSeq = s.evtSeq + 1 ∧ Steady s t ∧ RegsButEvents [] s t) ∧
  (∀ (n : Act) (s : State), MayRun 0x09 n s → (s.act n).prog = .none → s.nextIssue n < s.waitTw n (s.microWord n) →
    ∃ t, exec (.waitTime n 1) s = .next t ∧ (t.act n).prog = .waitTime (s.waitTw n (s.microWord n)) ∧
      (t.act n).pc = (s.act n).pc ∧ IssuedOne n [] s t) ∧
  (∀ (n : Act) (s : State), MayRun 0x09 n s → (s.act n).prog = .none → s.waitTw n (s.microWord n) ≤ s.nextIssue n →
    ∃ t, exec (.waitTime n 1) s = .next t ∧ (t.act n).waitTo = true ∧ (t.act n).pc = s.pcNext n ∧
      t.issued n = (s.issued n + 1) % 2 ^ 64 ∧ t.evtSeq = s.evtSeq + 1 ∧ Steady s t) ∧
  (∀ (n : Act) (tw : Nat) (s : State), (s.act n).prog = .waitTime tw → s.canIssue n = true → tw ≤ s.nextIssue n →
    ∃ t, exec (.waitTimeReached n) s = .next t ∧ (t.act n).waitTo = false ∧ (t.act n).pc = s.pcNext n ∧
      (t.act n).prog = .none ∧ (∀ m, m ≠ n.val → t.act m = s.act m) ∧ t.withActs s.acts = s) ∧
  (∀ (n : Act) (s : State), MayRun 0x0A n s → (s.act n).prog = .none → (s.act n).cue = none →
    ∃ t, exec (.waitWhistle n 1) s = .next t ∧ (t.act n).prog = .waitCue (s.nextIssue n) none ∧
      (t.act n).pc = (s.act n).pc ∧ IssuedOne n [] s t) ∧
  (∀ (n : Act) (first : Nat) (s : State), (s.act n).prog = .waitCue first none → s.canIssue n = true →
    waitU (s.microWord n) ≠ 0 → first + waitU (s.microWord n) ≤ s.nextIssue n →
    ∃ t, exec (.waitTimeout n) s = .next t ∧ (t.act n).waitTo = true ∧ (t.act n).pc = s.pcNext n ∧
      (t.act n).prog = .none ∧ t.evtSeq = s.evtSeq + 1 ∧ Steady s t ∧ RegsButEvents [] s t)

/-- Blocks (R142, R143, R174): CALL_BLOCK plays the block at the head of the prefetch buffer vector by vector and goes on to
PC + 1 after its last one, where its first record has arrived or is one that is never late; with nothing prefetched it is a
fault stop UNDERRUN; records that arrive are counted for the block that is being fetched, as far as 4096 vectors ahead. -/
def Obligations.BlockPlayCompletes : Prop :=
  (∀ (n : Act) (p : PfBlock) (ps : List PfBlock) (s : State), MayRun 0x0B n s → (s.act n).prog = .none →
    (s.act n).prefetch = p :: ps → p.mark = 0 → 0 < p.have_ ∨ s.delivered n = true → p.bad ≠ some 0 → 1 < p.nvec →
    ∃ t, exec (.callBlock n 1) s = .next t ∧ (t.act n).prog = .block (p.nvec - 1) (p.addr + s.recBytes n) ∧
      (t.act n).pc = (s.act n).pc ∧ (t.act n).prefetch.head?.map (·.b) = some p.b ∧ IssuedOne n [] s t) ∧
  (∀ (n : Act) (p : PfBlock) (ps : List PfBlock) (s : State), MayRun 0x0B n s → (s.act n).prog = .none →
    (s.act n).prefetch = p :: ps → p.mark = 0 → 0 < p.have_ ∨ s.delivered n = true → p.bad ≠ some 0 → p.nvec = 1 →
    ∃ t, exec (.callBlock n 1) s = .next t ∧ (t.act n).pc = s.pcNext n ∧ (∃ more, (t.act n).prefetch = ps ++ more) ∧
      IssuedOne n [] s t) ∧
  (∀ (n : Act) (s : State), MayRun 0x0B n s → (s.act n).prefetch = [] → s.actState n = 3 → (s.act n).stop = none →
    ∃ t, exec (.callBlock n 1) s = .next t ∧ t.actState n = 4 ∧ t.fld (SEQ_STATUS.STOP_REASON n) = 9 ∧
      t.issued n = s.issued n ∧ Steady s t) ∧
  (∀ (n : Act) (k : Nat) (p : PfBlock) (s : State), s.executing n = true → (s.act n).prefetch = [p] → p.mark = 0 →
    p.have_ + k < p.nvec → (s.act n).pfLead + k ≤ 4096 →
    ∃ t, exec (.prefetchRecord n k .clean) s = .next t ∧ (t.act n).prefetch = [{ p with have_ := p.have_ + k }] ∧
      (t.act n).pfLead = (s.act n).pfLead + k ∧ (∀ m, m ≠ n.val → t.act m = s.act m) ∧ t.withActs s.acts = s)

/-- The end of a run (R133, R150, R152): the end of L asserts the park line from its time on, at no other time; once every
result up to L has passed, the act is STOPPED, with its run's state cleared; the stop of the last running act leads from RUN to
IDLE and switches every eligible bank (R29, R22). Which edges count for the end of L is the model's choice
(notes/assumptions/46.md). -/
def Obligations.EndOfRunCompletes : Prop :=
  (∀ (n : Act) (s : State), s.actState n = 4 → s.lIssued n = true → (s.act n).endL = none →
    ∃ t, exec (.endOfL n (BitVec.ofNat 64 (s.endNow n))) s = .next t ∧ (t.act n).endL = some (s.endNow n) ∧
      t.parkLine n = true ∧ t.time = (s.at_ (s.endNow n)).time ∧ (∀ m, m ≠ n.val → t.act m = s.act m) ∧
      (t.withActs s.acts).withTime s.time = s) ∧
  (∀ (n : Act) (e : BitVec 64) (s : State), e ≠ BitVec.ofNat 64 (s.endNow n) → exec (.endOfL n e) s = .next s) ∧
  (∀ (n : Act) (e c reason : Nat) (s : State), s.actState n = 4 → s.lIssued n = true → (s.act n).endL = some e →
    (s.act n).stop = some (c, reason) → (s.act n).line = [] → (s.act n).queued = none →
    ∃ t, exec (.actStopped n) s = .next t ∧ t.actState n = 0 ∧ (t.act n).stop = none ∧ (t.act n).endL = none ∧
      (t.act n).prefetch = [] ∧ Still s t) ∧
  (∀ (n : Act) (e c reason : Nat) (s : State), s.actState n = 4 → s.lIssued n = true → (s.act n).endL = some e →
    (s.act n).stop = some (c, reason) → (s.act n).line = [] → (s.act n).queued = none → s.mode = .run →
    (∀ m, m < 16 → m ≠ n.val → s.running m = false) →
    ∃ t, exec (.actStopped n) s = .next t ∧ t.mode = .idle ∧
      (∀ h : Chan, s.flag (PIN_QUALITY_STAT.ELIGIBLE h) = true →
        (t.chan h).active = (s.chan h).staged ∧ t.flag (PIN_QUALITY_STAT.ELIGIBLE h) = false)) ∧
  (∀ (n : Act) (s : State), (s.act n).endL = none → exec (.actStopped n) s = .next s)

/-! ## Vectors at the pins and the fail processor (01, 07, 10) -/

/-- The forward frame (R13, R16, R22, R102, R122): a frame that arrives and begins a vector reaches the pins with the
symbols of its vector and the coefficient banks in force, and leaves each channel of the block with its last symbol and with
PIN_HYST and PIN_HOLDOFF as they stand; a vector with CAPT.APPLY switches the eligible banks of its channels; one that comes
behind the park line reaches them with no symbols, and so does one that is lost, which aborts the act with reason 0x12 as
any lost frame does. A frame that begins no vector and arrives does nothing. -/
def Obligations.ForwardFramesComplete : Prop :=
  (∀ (d : Die) (n : Nat) (v : Vec) (vs : List Vec) (s : State), s.inService = true → (s.die d).fwd = v :: vs →
    s.actOfBlock d = some n → captApply v.capt = false → s.parkLine n = false →
    (∀ c ∈ blockChans d, SymCode.reserved ∉ s.codes n c (s.sliceOf n d v) v) →
    ∃ t p, exec (.forwardFrame d ⟨true, true⟩) s = .next t ∧ (t.die d).fwd = vs ∧ (t.die d).pins.getLast? = some p ∧
      p.vec = v ∧ p.syms = s.blockSyms n d (s.sliceOf n d v) v ∧ p.banks = (blockChans d).map s.bankOf ∧
      (∀ c ∈ blockChans d, (t.chan c).lastSym = (executed (s.dir c v.tset) (s.strobed n c v) (s.chan c).lastSym
          (s.codes n c (s.sliceOf n d v) v)).getLast? ∧
        (t.chan c).hyst = (s.reg (PIN_HYST.addr c)).toNat ∧ (t.chan c).hold = (s.reg (PIN_HOLDOFF.addr c)).toNat) ∧
      (∀ b, b ≠ d.val → t.die b = s.die b) ∧ (∀ c, c / 64 ≠ d.val → t.chan c = s.chan c) ∧ t.mode = s.mode ∧ Still s t) ∧
  (∀ (d : Die) (n : Nat) (v : Vec) (vs : List Vec) (s : State), s.inService = true → (s.die d).fwd = v :: vs →
    s.actOfBlock d = some n → captApply v.capt = true →
    (∀ c ∈ blockChans d, SymCode.reserved ∉ s.codes n c (s.sliceOf n d v) v) →
    ∃ t, exec (.forwardFrame d ⟨true, true⟩) s = .next t ∧ (t.die d).fwd = vs ∧
      (∀ c : Chan, c.val ∈ blockChans d → s.flag (PIN_QUALITY_STAT.ELIGIBLE c) = true →
        (t.chan c).active = (s.chan c).staged ∧ t.flag (PIN_QUALITY_STAT.ELIGIBLE c) = false) ∧
      (∀ b, b ≠ d.val → t.die b = s.die b) ∧ (∀ c, c / 64 ≠ d.val → t.chan c = s.chan c) ∧ t.mode = s.mode ∧ Still s t) ∧
  (∀ (d : Die) (n : Nat) (v : Vec) (vs : List Vec) (s : State), s.inService = true → (s.die d).fwd = v :: vs →
    s.actOfBlock d = some n → captApply v.capt = false → s.parkLine n = true →
    ∃ t, exec (.forwardFrame d ⟨true, true⟩) s = .next t ∧ (t.die d).fwd = vs ∧
      (t.die d).pins.getLast? = some { vec := v, syms := [], prev := [] } ∧
      (∀ b, b ≠ d.val → t.die b = s.die b) ∧ (t.withDies s.dies).withTime s.time = s) ∧
  (∀ (d : Die) (n : Nat) (v : Vec) (vs : List Vec) (s : State), s.inService = true → (s.die d).fwd = v :: vs →
    s.actOfBlock d = some n → s.actState n = 3 → (s.act n).aborted = false →
    ∃ t, exec (.forwardFrame d ⟨true, false⟩) s = .next t ∧ (t.die d).fwd = vs ∧
      (t.die d).pins.getLast? = some { vec := v, syms := [], prev := [] } ∧ t.actState n = 4 ∧
      t.fld (SEQ_STATUS.STOP_REASON n) = 0x12 ∧ (t.act n).aborted = true ∧ t.parkLine n = true ∧
      (∀ b, b ≠ d.val → t.die b = s.die b) ∧ t.mode = s.mode ∧ Still s t) ∧
  (∀ (d : Die) (n : Nat) (s : State), s.inService = true → s.actOfBlock d = some n → s.actState n = 3 →
    (s.act n).aborted = false →
    ∃ t, exec (.forwardFrame d ⟨false, false⟩) s = .next t ∧ t.actState n = 4 ∧
      t.fld (SEQ_STATUS.STOP_REASON n) = 0x12 ∧ (t.act n).aborted = true ∧ t.parkLine n = true ∧ t.dies = s.dies ∧
      Steady s t) ∧
  (∀ (d : Die) (s : State), exec (.forwardFrame d ⟨false, true⟩) s = .next s)

/-- Edges at a pin (R101, R103, R116, R119, R126, R127, R130): a serial UI and a timed data edge direct the channel's stage;
what a comparator samples, or holds while its hold-off runs, is kept with the vector; a driven level that the two
comparators contradict is a drive check, whose event the die's next return frame brings (the model's reading,
notes/assumptions/16.md); S1 of a timed vector samples as a serial UI does, and S2 closes the window of a compare that the
pin has moved in; an edge that is due once the park line is asserted does nothing. T0 of a vector without marks only counts
it. -/
def Obligations.PinEdgesComplete : Prop :=
  (∀ (c : Chan) (cyc : BitVec 64) (u : Fin 8) (raw : Bool) (p : PinVec) (n y : Nat) (s : State),
    (s.die (c / 64)).pins.find? (fun q => decide (q.vec.cycle = cyc.toNat)) = some p → s.actOfChan c = some n →
    p.sym c u = some y → s.timed n = false → s.cutAt n (s.drvTime c (p.bank c) p.vec (s.uiTime n u 0)) = false →
    ∃ t, exec (.pinEdge c cyc (.ui u) raw) s = .next t ∧ (t.chan c).driving = symDrives y ∧ (t.chan c).started = true ∧
      (t.chan c).p = (symData y).getD (s.chan c).p ∧ (∀ x, x ≠ c.val → t.chan x = s.chan x) ∧
      (t.withChans s.chans).withTime s.time = s) ∧
  (∀ (c : Chan) (cyc : BitVec 64) (u : Fin 8) (raw : Bool) (p : PinVec) (n y : Nat) (s : State),
    (s.die (c / 64)).pins.find? (fun q => decide (q.vec.cycle = cyc.toNat)) = some p → s.actOfChan c = some n →
    p.sym c u = some y → s.cutAt n (s.drvTime c (p.bank c) p.vec (s.uiTime n u 0)) = true →
    exec (.pinEdge c cyc (.ui u) raw) s = .next s) ∧
  (∀ (c : Chan) (cyc : BitVec 64) (raw : Bool) (p : PinVec) (n y : Nat) (b : Bool) (s : State),
    (s.die (c / 64)).pins.find? (fun q => decide (q.vec.cycle = cyc.toNat)) = some p → s.actOfChan c = some n →
    p.sym c 0 = some y → s.timed n = true → s.fmt c p.vec.tset = 0 → symData y = some b →
    (s.edge c p.vec.tset 0).isSome = true →
    s.cutAt n (s.drvTime c (p.bank c) p.vec (s.edgeOf c p.vec.tset 0)) = false →
    ∃ t, exec (.pinEdge c cyc (.edge 0) raw) s = .next t ∧ (t.chan c).p = b ∧
      (∀ x, x ≠ c.val → t.chan x = s.chan x) ∧ (t.withChans s.chans).withTime s.time = s) ∧
  (∀ (c : Chan) (cyc : BitVec 64) (e : Fin 9) (raw : Bool) (p : PinVec) (n y : Nat) (s : State),
    (s.die (c / 64)).pins.find? (fun q => decide (q.vec.cycle = cyc.toNat)) = some p → s.actOfChan c = some n →
    p.sym c 0 = some y → (symDrives y = true → s.fmt c p.vec.tset < 5) →
    s.cutAt n (s.drvTime c (p.bank c) p.vec (s.edgeOf c p.vec.tset e)) = true →
    exec (.pinEdge c cyc (.edge e) raw) s = .next s) ∧
  (∀ (c : Chan) (cyc : BitVec 64) (u : Fin 8) (low raw : Bool) (p : PinVec) (n y tm : Nat) (s : State),
    (s.die (c / 64)).pins.find? (fun q => decide (q.vec.cycle = cyc.toNat)) = some p → s.actOfChan c = some n →
    p.sym c u = some y → s.timed n = false → s.samplePoint n c p low u = some tm → s.cutAt n tm = false → y < 9 →
    ∃ t, exec (.pinEdge c cyc (.sample u low) raw) s = .next t ∧
      (∀ q ∈ (t.die (c.val / 64)).pins, q.vec.cycle = cyc.toNat → Tab.get (fun _ => 0) q.bits (2 * (1024 * u + c) + b2n low) =
        sampleBit (s.parked c) (s.heldBit c low raw tm)) ∧
      (t.die (c / 64)).pins.map (·.vec.cycle) = (s.die (c / 64)).pins.map (·.vec.cycle) ∧
      (∀ b, b ≠ c.val / 64 → t.die b = s.die b) ∧ (t.withDies s.dies).withTime s.time = s) ∧
  (∀ (c : Chan) (cyc : BitVec 64) (u : Fin 8) (low raw o : Bool) (p : PinVec) (n y tm : Nat) (s : State),
    (s.die (c / 64)).pins.find? (fun q => decide (q.vec.cycle = cyc.toNat)) = some p → s.actOfChan c = some n →
    p.sym c u = some y → s.timed n = false → s.samplePoint n c p low u = some tm → s.cutAt n tm = false → y = 9 ∨ y = 10 →
    s.parked c = false → Tab.get (fun _ => 0) p.bits (2 * (1024 * u + c) + b2n (!low)) = 1 + b2n o →
    symPasses y (if low then 2 * b2n o + b2n (s.heldBit c low raw tm) else 2 * b2n (s.heldBit c low raw tm) + b2n o) = false →
    ∃ t, exec (.pinEdge c cyc (.sample u low) raw) s = .next t ∧ t.flag (PIN_STATUS.DCHK c) = true ∧
      t.fld (PIN_STATUS.DCHK_CNT c) = satN 16 (s.fld (PIN_STATUS.DCHK_CNT c) + 1) ∧ (t.chan c).dchkSeen = true ∧
      (t.die (c / 64)).dchk = true ∧ t.evtSeq = s.evtSeq ∧ (t.die (c / 64)).evts = (s.die (c / 64)).evts ++
        (if (s.chan c).dchkSeen then [] else [(c.val, s.dieTime (c / 64) t.time.toNat)]) ∧
      (∀ x, x ≠ c.val → t.chan x = s.chan x) ∧ t.mode = s.mode ∧ Still s t ∧
      RegsBut [PIN_STATUS.addr c] s t) ∧
  (∀ (c : Chan) (cyc : BitVec 64) (low raw : Bool) (p : PinVec) (n y e : Nat) (s : State),
    (s.die (c / 64)).pins.find? (fun q => decide (q.vec.cycle = cyc.toNat)) = some p → s.actOfChan c = some n →
    p.sym c 0 = some y → s.timed n = true → s.edge c p.vec.tset 6 = some e →
    s.cutAt n (s.cmpTime c (p.bank c) low p.vec e) = false → y < 9 →
    ∃ t, exec (.pinEdge c cyc (.s1 low) raw) s = .next t ∧
      (∀ q ∈ (t.die (c.val / 64)).pins, q.vec.cycle = cyc.toNat → Tab.get (fun _ => 0) q.bits (2 * c + b2n low) =
        sampleBit (s.parked c) (s.heldBit c low raw (s.cmpTime c (p.bank c) low p.vec e))) ∧
      (t.die (c / 64)).pins.map (·.vec.cycle) = (s.die (c / 64)).pins.map (·.vec.cycle) ∧
      (∀ b, b ≠ c.val / 64 → t.die b = s.die b) ∧ (t.withDies s.dies).withTime s.time = s) ∧
  (∀ (c : Chan) (cyc : BitVec 64) (low raw : Bool) (p : PinVec) (n e1 e : Nat) (s : State),
    (s.die (c / 64)).pins.find? (fun q => decide (q.vec.cycle = cyc.toNat)) = some p → s.actOfChan c = some n →
    s.timed n = true → s.edge c p.vec.tset 6 = some e1 → s.edge c p.vec.tset 7 = some e →
    s.cutAt n (s.cmpTime c (p.bank c) low p.vec e) = false →
    ∃ t, exec (.pinEdge c cyc (.s2 low true) raw) s = .next t ∧
      (∀ q ∈ (t.die (c.val / 64)).pins, q.vec.cycle = cyc.toNat → c.val ∈ q.moved) ∧
      (t.die (c / 64)).pins.map (·.bits) = (s.die (c / 64)).pins.map (·.bits) ∧
      (∀ b, b ≠ c.val / 64 → t.die b = s.die b) ∧ (t.withDies s.dies).withTime s.time = s) ∧
  (∀ (c : Chan) (cyc : BitVec 64) (low raw : Bool) (s : State), exec (.pinEdge c cyc (.s2 low false) raw) s = .next s) ∧
  (∀ (c : Chan) (cyc : BitVec 64) (raw : Bool) (p : PinVec) (n : Nat) (s : State),
    (s.die (c / 64)).pins.find? (fun q => decide (q.vec.cycle = cyc.toNat)) = some p → s.actOfChan c = some n →
    (s.act n).atPins ≤ cyc.toNat → captMark p.vec.capt = false → bitOf p.vec.mark 22 = false →
    ∃ t, exec (.pinEdge c cyc .t0 raw) s = .next t ∧ (t.act n).atPins = cyc.toNat + 1 ∧
      (∀ m, m ≠ n → t.act m = s.act m) ∧
      ((s.die (c / 64)).pass = none → (t.withActs s.acts).withTime s.time = s))

/-- The return frame (R17, R18): the results that it carries of the oldest vector of the block with results to return join
those of that vector in the delay line, which waits for the other blocks; the last block's frame lets a vector that compares
nothing through; a frame without such a vector carries none. Each brings DCHK and one of the events that wait at its die
(R17). Of a frame whose CRC fails all that is lost, and it is an event, of the act that owns the block, and of a free source
where none does (the model's choice, notes/assumptions/16.md). A module that is not in service has no frames. -/
def Obligations.ReturnFramesComplete : Prop :=
  (∀ (d : Die) (fr : RetFrame) (n : Nat) (p : PinVec) (f : Flight) (fs : List Flight) (s : State), s.inService = true →
    s.executing n = true → s.actOfBlock d = some n → (s.die d).pins.find? (fun q => !q.back) = some p →
    (s.act n).line = f :: fs → f.vec.cycle = p.vec.cycle →
    (∃ b ∈ s.actBlocks n, b ≠ d.val ∧ bitOf f.got.toNat b = false) → fr.ok = true →
    (∀ x ∈ s.expected n p d, x.1 ∈ p.sent ∨ bitOf fr.chans.toNat (x.1 % 64) = true ∧ bitOf fr.uis.toNat (x.1 / 1024) = true) →
    ∃ t, exec (.returnFrame d fr .clean) s = .next t ∧
      (∀ q ∈ (t.die d).pins, q.vec.cycle = p.vec.cycle → q.back = true) ∧
      (t.die d).pins.map (·.vec) = (s.die d).pins.map (·.vec) ∧ (t.act n).line.map (·.vec) = (s.act n).line.map (·.vec) ∧
      ((t.act n).line.head?.map (fun g => bitOf g.got.toNat d)) = some true ∧
      (t.die d).dchk = false ∧ (t.die d).evts = (s.die d).evts.tail ∧ t.evtSeq = s.evtSeq + min 1 (s.die d).evts.length ∧
      (∀ b, b ≠ d.val → t.die b = s.die b) ∧ (∀ m, m ≠ n → t.act m = s.act m) ∧ Steady s t ∧ RegsButEvents [] s t) ∧
  (∀ (d : Die) (fr : RetFrame) (n : Nat) (p : PinVec) (f : Flight) (s : State), s.inService = true →
    s.executing n = true → s.actOfBlock d = some n → (s.die d).pins.find? (fun q => !q.back) = some p →
    (s.act n).line = [f] → f.vec.cycle = p.vec.cycle →
    (∀ b ∈ s.actBlocks n, b ≠ d.val → bitOf f.got.toNat b = true) → f.vec.trial = none → captCmp f.vec.capt = false →
    fr.ok = true →
    (∀ x ∈ s.expected n p d, x.1 ∈ p.sent ∨ bitOf fr.chans.toNat (x.1 % 64) = true ∧ bitOf fr.uis.toNat (x.1 / 1024) = true) →
    ∃ t, exec (.returnFrame d fr .clean) s = .next t ∧
      (∀ q ∈ (t.die d).pins, q.vec.cycle = p.vec.cycle → q.back = true) ∧ (t.act n).line = [] ∧
      (∀ g, t.pair (FAIL_COUNT_LO.addr g) = s.pair (FAIL_COUNT_LO.addr g)) ∧ Steady s t) ∧
  (∀ (d : Die) (fr : RetFrame) (n : Nat) (p : PinVec) (f : Flight) (fs : List Flight) (s : State), s.inService = true →
    s.executing n = true → s.actOfBlock d = some n → (s.die d).pins.find? (fun q => !q.back) = some p →
    (s.act n).line = f :: fs → f.vec.cycle = p.vec.cycle →
    (∃ b ∈ s.actBlocks n, b ≠ d.val ∧ bitOf f.got.toNat b = false) → fr.ok = false →
    ∃ t, exec (.returnFrame d fr .clean) s = .next t ∧ t.evtSeq = s.evtSeq + 1 ∧ (t.die d).evts = (s.die d).evts.tail ∧
      (∀ g, (t.act n).line.head? = some g → ∀ x ∈ s.expected n p d, x.1 ∉ p.sent →
        bitOf fr.chans.toNat (x.1 % 64) = true → bitOf fr.uis.toNat (x.1 / 1024) = true →
        bitOf (Tab.get (fun _ => 0) g.res x.1) 5 = true) ∧
      Steady s t ∧ RegsButEvents [] s t) ∧
  (∀ (d : Die) (fr : RetFrame) (e : Ecc) (s : State), s.inService = true →
    ((∀ p ∈ (s.die d).pins, p.back = true) ∨ s.actOfBlock d = none ∨ ∃ n, s.actOfBlock d = some n ∧ s.executing n = false) →
    fr.ok = true →
    ∃ t, exec (.returnFrame d fr e) s = .next t ∧ (t.die d).pins = (s.die d).pins ∧ (t.die d).dchk = false ∧
      (t.die d).evts = (s.die d).evts.tail ∧ t.evtSeq = s.evtSeq + min 1 (s.die d).evts.length ∧
      ((s.die d).evts = [] → t.withDies s.dies = s) ∧ Steady s t ∧ RegsButEvents [] s t) ∧
  (∀ (d : Die) (fr : RetFrame) (e : Ecc) (s : State), s.inService = true →
    (s.actOfBlock d = none ∨ ∃ n, s.actOfBlock d = some n ∧ s.executing n = false) → fr.ok = false →
    ∃ t, exec (.returnFrame d fr e) s = .next t ∧ (t.die d).pins = (s.die d).pins ∧ (t.die d).dchk = false ∧
      (t.die d).evts = (s.die d).evts.tail ∧ t.evtSeq = s.evtSeq + 1 ∧ t.acts = s.acts ∧ Steady s t ∧ RegsButEvents [] s t) ∧
  (∀ (d : Die) (fr : RetFrame) (e : Ecc) (s : State), s.inService = false → exec (.returnFrame d fr e) s = .next s)

/-- A failing vector is counted (R182, R183): PIN_FAILCNT of every channel once per failing compare, FAIL_COUNT of the ring
once, both saturating; no other channel's and no other ring's count changes, and the act has seen a fail. So it is when the
return frame with the last results of a comparing vector comes in which one ring has recorded fails `fs` (R178 to R180): its
first fail is kept; where THRESH is reached, ACTION is set and STOP stops the act RUNOUT vectors later, or at the last one
issued, with RUNOUT_LATE (R184, R150, R153), and BENCH benches the ring; LOG appends its record (R186 to R188); MAP sets its
cells (R190). A vector without recorded fails changes none of this. -/
def Obligations.FailingVectorsAreCounted : Prop :=
  (∀ (s : State) (n : Nat) (g : Ring) (fs : List FailCmp), (∀ f ∈ fs, f.chan < 1024) →
    (∀ c : Chan, (s.countRing n g fs).pair (PIN_FAILCNT_LO.addr c) =
      min (2 ^ 64 - 1) (s.pair (PIN_FAILCNT_LO.addr c) + fs.countP (fun f => decide (f.chan = c.val)))) ∧
    (s.countRing n g fs).pair (FAIL_COUNT_LO.addr g) = min (2 ^ 64 - 1) (s.pair (FAIL_COUNT_LO.addr g) + 1) ∧
    (∀ h : Ring, h ≠ g → (s.countRing n g fs).pair (FAIL_COUNT_LO.addr h) = s.pair (FAIL_COUNT_LO.addr h)) ∧
    ((s.countRing n g fs).act n).failSeen = true ∧ (∀ m, m ≠ n → (s.countRing n g fs).act m = s.act m) ∧
    ((s.countRing n g fs).withRegs s.regs).withActs s.acts = s) ∧
  (∀ (d : Die) (fr : RetFrame) (n : Nat) (p : PinVec) (F : Flight) (g : Ring) (fs : List FailCmp) (s : State),
    LastResults d fr n p F s → FailsAlone n g F fs s → s.fld (FAIL_CFG.THRESH g) = 0 →
    captLog F.vec.capt = false → captMap F.vec.capt = false → captRq F.vec.capt = false →
    ∃ t, exec (.returnFrame d fr .clean) s = .next t ∧
      t.pair (FAIL_COUNT_LO.addr g) = min (2 ^ 64 - 1) (s.pair (FAIL_COUNT_LO.addr g) + 1) ∧
      (∀ c : Chan, t.pair (PIN_FAILCNT_LO.addr c) =
        min (2 ^ 64 - 1) (s.pair (PIN_FAILCNT_LO.addr c) + fs.countP (fun f => decide (f.chan = c.val)))) ∧
      t.flag (FAIL_STATUS.FIRST_VALID g) = true ∧
      t.pair (FAIL_FIRST_CYCLE_LO.addr g) =
        (if s.flag (FAIL_STATUS.FIRST_VALID g) then s.pair (FAIL_FIRST_CYCLE_LO.addr g) else F.vec.cycle % 2 ^ 64) ∧
      t.pair (FAIL_FIRST_TIME_LO.addr g) =
        (if s.flag (FAIL_STATUS.FIRST_VALID g) then s.pair (FAIL_FIRST_TIME_LO.addr g) else firstStrobe fs % 2 ^ 64) ∧
      (t.act n).failSeen = true ∧ (t.act n).line = [] ∧ (∀ m, m ≠ n → t.act m = s.act m) ∧ t.dram = s.dram ∧
      (∀ h : Ring, h ≠ g → t.pair (FAIL_COUNT_LO.addr h) = s.pair (FAIL_COUNT_LO.addr h)) ∧ Steady s t) ∧
  (∀ (d : Die) (fr : RetFrame) (n : Nat) (p : PinVec) (F : Flight) (g : Ring) (fs : List FailCmp) (s : State),
    LastResults d fr n p F s → FailsAlone n g F fs s → s.fld (FAIL_CFG.THRESH g) ≠ 0 →
    s.fld (FAIL_CFG.THRESH g) ≤ s.pair (FAIL_COUNT_LO.addr g) + 1 → s.flag (FAIL_STATUS.ACTION g) = false →
    s.flag (FAIL_CFG.STOP g) = true → s.flag (FAIL_CFG.BENCH g) = false → s.fld (FAIL_CFG.WHISTLE g) = 0 →
    s.actState n = 3 → (s.act n).stop = none → (s.act n).aborted = false →
    captLog F.vec.capt = false → captMap F.vec.capt = false → captRq F.vec.capt = false →
    ∃ t, exec (.returnFrame d fr .clean) s = .next t ∧ t.flag (FAIL_STATUS.ACTION g) = true ∧ t.actState n = 4 ∧
      t.fld (SEQ_STATUS.STOP_REASON n) = 4 ∧
      (s.issued n < F.vec.cycle + (s.act n).runout + 1 →
        (t.act n).stop = some (F.vec.cycle + (s.act n).runout + 1, 4) ∧
          t.fld (SEQ_STATUS.RUNOUT_LATE n) = s.fld (SEQ_STATUS.RUNOUT_LATE n)) ∧
      (F.vec.cycle + (s.act n).runout + 1 ≤ s.issued n →
        (t.act n).stop = some (s.issued n, 4) ∧ t.fld (SEQ_STATUS.RUNOUT_LATE n) = 1) ∧
      (∀ m, m ≠ n → t.act m = s.act m) ∧ t.dram = s.dram ∧ Steady s t) ∧
  (∀ (d : Die) (fr : RetFrame) (n : Nat) (p : PinVec) (F : Flight) (g : Ring) (fs : List FailCmp) (s : State),
    LastResults d fr n p F s → FailsAlone n g F fs s → s.fld (FAIL_CFG.THRESH g) ≠ 0 →
    s.fld (FAIL_CFG.THRESH g) ≤ s.pair (FAIL_COUNT_LO.addr g) + 1 → s.flag (FAIL_STATUS.ACTION g) = false →
    s.flag (FAIL_CFG.STOP g) = false → s.flag (FAIL_CFG.BENCH g) = true → s.fld (FAIL_CFG.WHISTLE g) = 0 →
    (s.act n).loaded &&& ~~~((s.act n).bench ||| BitVec.ofNat 64 (2 ^ g.val)) ≠ 0 →
    captLog F.vec.capt = false → captMap F.vec.capt = false → captRq F.vec.capt = false →
    ∃ t, exec (.returnFrame d fr .clean) s = .next t ∧ t.flag (FAIL_STATUS.ACTION g) = true ∧
      t.flag (FAIL_STATUS.BENCHED g) = true ∧ (t.act n).bench = (s.act n).bench ||| BitVec.ofNat 64 (2 ^ g.val) ∧
      (t.act n).stop = (s.act n).stop ∧ (∀ m, m ≠ n → t.act m = s.act m) ∧ t.dram = s.dram ∧ Steady s t) ∧
  (∀ (d : Die) (fr : RetFrame) (n : Nat) (p : PinVec) (F : Flight) (g : Ring) (fs : List FailCmp) (s : State),
    LastResults d fr n p F s → FailsAlone n g F fs s → s.fld (FAIL_CFG.THRESH g) = 0 →
    captLog F.vec.capt = true → captMap F.vec.capt = false → captRq F.vec.capt = false →
    s.fld (FAIL_LOG_WR.INDEX g) < s.fld (FAIL_LOG_SIZE.SIZE g) → s.flag (FAIL_LOG_POLICY.MASK_EN g) = false →
    s.logBuf + 131072 ≤ 1073741824 →
    ∃ t, exec (.returnFrame d fr .clean) s = .next t ∧
      t.dramBytes (s.fld (FAIL_LOG_BASE.BASE g) * 4096 + 32 * s.fld (FAIL_LOG_WR.INDEX g)) 32 =
        s.logRecord g F.vec fs (s.fld (FAIL_LOG_WR.INDEX g)) (!s.flag (FAIL_STATUS.FIRST_VALID g)) false false ∧
      (s.fld (FAIL_LOG_WR.INDEX g) + 1 < s.fld (FAIL_LOG_SIZE.SIZE g) →
        t.fld (FAIL_LOG_WR.INDEX g) = s.fld (FAIL_LOG_WR.INDEX g) + 1) ∧
      (∀ b, b < s.fld (FAIL_LOG_BASE.BASE g) * 4096 + 32 * s.fld (FAIL_LOG_WR.INDEX g) ∨
        s.fld (FAIL_LOG_BASE.BASE g) * 4096 + 32 * s.fld (FAIL_LOG_WR.INDEX g) + 32 ≤ b →
        Tab.get ramByte t.dram b = Tab.get ramByte s.dram b) ∧ Steady s t) ∧
  (∀ (d : Die) (fr : RetFrame) (n : Nat) (p : PinVec) (F : Flight) (g : Ring) (fs : List FailCmp) (s : State),
    LastResults d fr n p F s → FailsAlone n g F fs s → s.fld (FAIL_CFG.THRESH g) = 0 →
    captLog F.vec.capt = false → captMap F.vec.capt = true → captRq F.vec.capt = false →
    ∃ t, exec (.returnFrame d fr .clean) s = .next t ∧
      (∀ f ∈ fs, ∀ i, s.cellOf n g F.vec f = some i → t.dramBit (s.mapBase g) i = true) ∧
      (∀ b, b < s.mapBase g ∨ s.mapBase g + 2 ^ s.mapBits g / 8 + 2 * s.tileMapBytes g ≤ b →
        Tab.get ramByte t.dram b = Tab.get ramByte s.dram b) ∧ Steady s t) ∧
  (∀ (d : Die) (fr : RetFrame) (n : Nat) (p : PinVec) (F : Flight) (s : State), LastResults d fr n p F s →
    (∀ g, g < 64 → s.records n g F.vec = false ∨ s.ringFails g F.fails = []) →
    ∃ t, exec (.returnFrame d fr .clean) s = .next t ∧ (t.act n).line = [] ∧ (t.act n).failSeen = (s.act n).failSeen ∧
      (t.act n).bench = (s.act n).bench ∧ (t.act n).stop = (s.act n).stop ∧ t.dram = s.dram ∧
      (∀ m, m ≠ n → t.act m = s.act m) ∧ Steady s t ∧ RegsButEvents [] s t)

/-! ## Tile pushes and region queues (10, 11) -/

/-- Tile pushes (R191, R192): PUSH and the period start a push, unless one runs; with the stream disabled it ends at once
with STREAM_OFF. A push that finds no dirty tile writes nothing; a dirty tile that finds room goes into the stream as one
TILE record (R193) and is no longer dirty; one that finds none stays dirty, with STREAM_FULL. The background clear leaves
every tile cleared. -/
def Obligations.TilePushesComplete : Prop :=
  (∀ (g : Ring) (v : Word) (s : State), s.inService = true → reservedBits (FAIL_TILE_CFG.addr g) v = 0 →
    wbit v 31 = true → (s.ring g).push = none → s.streamOn (wfld v (FAIL_TILE_CFG.STREAM g)) = true →
    ∃ t, exec (.failTilePush g v) s = .next t ∧ (t.ring g).push = some false ∧
      t.flag (FAIL_TILE_STATUS.PUSHING g) = true ∧ t.fld (FAIL_TILE_CFG.PERIOD g) = wfld v (FAIL_TILE_CFG.PERIOD g) ∧
      (∀ h, h ≠ g.val → t.ring h = s.ring h) ∧ (t.withRegs s.regs).withRings s.rings = s ∧
      RegsBut [FAIL_TILE_CFG.addr g, FAIL_TILE_STATUS.addr g] s t) ∧
  (∀ (g : Ring) (v : Word) (s : State), s.inService = true → reservedBits (FAIL_TILE_CFG.addr g) v = 0 →
    wbit v 31 = true → (s.ring g).push = none → s.streamOn (wfld v (FAIL_TILE_CFG.STREAM g)) = false →
    ∃ t, exec (.failTilePush g v) s = .next t ∧ t.flag (FAIL_TILE_STATUS.STREAM_OFF g) = true ∧
      OnlyRegs [FAIL_TILE_CFG.addr g, FAIL_TILE_STATUS.addr g] s t) ∧
  (∀ (g : Ring) (s : State), s.ringExecuting g = true → s.fld (FAIL_TILE_CFG.PERIOD g) ≠ 0 → (s.ring g).push = none →
    s.streamOn (s.fld (FAIL_TILE_CFG.STREAM g)) = true →
    ∃ t, exec (.tilePushPeriod g) s = .next t ∧ (t.ring g).push = some false ∧
      t.flag (FAIL_TILE_STATUS.PUSHING g) = true ∧ (t.withRegs s.regs).withRings s.rings = s ∧
      RegsBut [FAIL_TILE_STATUS.addr g] s t) ∧
  (∀ (g : Ring) (final : Bool) (s : State), (s.ring g).push = some final →
    s.streamOn (s.fld (FAIL_TILE_CFG.STREAM g)) = true → s.dirtyTiles g = [] →
    ∃ t, exec (.tilePushEnd g) s = .next t ∧ (t.ring g).push = none ∧ t.flag (FAIL_TILE_STATUS.PUSHING g) = false ∧
      t.dram = s.dram ∧ Steady s t ∧ RegsBut [FAIL_TILE_STATUS.addr g] s t) ∧
  (∀ (g : Ring) (final : Bool) (n i tile : Nat) (r : StreamRec) (s : State), (s.ring g).push = some final →
    i = s.fld (FAIL_TILE_CFG.STREAM g) → s.streamOn i = true → s.dirtyTiles g = [tile] → s.ringAct g = some n →
    (s.act n).line = [] → s.issued n ≠ 0 → r = s.tileRecord g tile final (s.issued n - 1) →
    (s.stream i).used + 16 * ((s.stream i).waiting.map StreamRec.units).sum + 16 * r.units + 48 ≤ s.ringSize i →
    s.staging + 16 * r.units ≤ 1048576 →
    ∃ t, exec (.tilePushEnd g) s = .next t ∧ (t.ring g).push = none ∧ (t.stream i).waiting = (s.stream i).waiting ++ [r] ∧
      t.dramBit (s.dirtyBase g) tile = false ∧ t.fld (FAIL_TILE_STATUS.DIRTY g) = s.fld (FAIL_TILE_STATUS.DIRTY g) - 1 ∧
      t.flag (FAIL_TILE_STATUS.PUSHING g) = false ∧
      (∀ a, a ≠ s.dirtyBase g + tile / 8 → t.dramAt a = s.dramAt a) ∧ (∀ j, j ≠ i → t.stream j = s.stream j) ∧ Steady s t ∧
      RegsBut [FAIL_TILE_STATUS.addr g] s t) ∧
  (∀ (g : Ring) (final : Bool) (n i tile : Nat) (ts : List Nat) (s : State), (s.ring g).push = some final →
    i = s.fld (FAIL_TILE_CFG.STREAM g) → s.streamOn i = true → s.dirtyTiles g = tile :: ts → s.ringAct g = some n →
    s.ringSize i < (s.stream i).used + 16 * ((s.stream i).waiting.map StreamRec.units).sum + 608 →
    ∃ t, exec (.tilePushEnd g) s = .next t ∧ (t.ring g).push = none ∧ t.flag (FAIL_TILE_STATUS.STREAM_FULL g) = true ∧
      t.streams = s.streams ∧ t.dram = s.dram ∧ Steady s t ∧ RegsBut [FAIL_TILE_STATUS.addr g] s t) ∧
  (∀ (g : Ring) (final : Bool) (s : State), (s.ring g).push = some final →
    s.streamOn (s.fld (FAIL_TILE_CFG.STREAM g)) = false →
    ∃ t, exec (.tilePushEnd g) s = .next t ∧ (t.ring g).push = none ∧ t.flag (FAIL_TILE_STATUS.PUSHING g) = false ∧
      t.flag (FAIL_TILE_STATUS.STREAM_OFF g) = true ∧ (t.withRegs s.regs).withRings s.rings = s ∧
      RegsBut [FAIL_TILE_STATUS.addr g] s t) ∧
  (∀ (g : Ring) (s : State), s.inService = true → s.flag (FAIL_TILE_STATUS.CLEARING g) = true →
    s.mapWidthsOk g = true → s.areaBad g 2 (s.mapArea g) = false →
    ∃ t, exec (.tileClearDone g) s = .next t ∧ t.flag (FAIL_TILE_STATUS.CLEARING g) = false ∧
      (∀ i, i < 2 ^ s.mapBits g / 4096 → t.dramBit (s.clearedBase g) i = true) ∧
      (∀ a, a < s.mapBase g ∨ s.clearedBase g + s.tileMapBytes g ≤ a → t.dramAt a = s.dramAt a) ∧
      (t.withRegs s.regs).withDram s.dram = s ∧ RegsBut [FAIL_TILE_STATUS.addr g] s t)

/-- The commands of the region queues (R198, R204, R207, R210 to R212, R214): CLEAR empties a ring's queues and discards its
pushes; FINALIZE starts or is refused with BUSY; the end of a FINALIZE of a ring without chunks reports NO_QUEUES, and one
waits while pushes of its ring do; one whose records fit leaves no region it has finalized dirty, one whose records do not
reports RESULT_FULL; the oldest push is applied; a descriptor read loads its three words, and where an uncorrectable error
waits in them the region is SATURATED and UNREPAIRABLE (R291; that it waits there is the model's reading,
notes/assumptions/37.md); RQ_MAP_CFG is stored, or refused. -/
def Obligations.RegionQueueCommandsComplete : Prop :=
  (∀ (v : Word) (s : State), s.inService = true → reservedBits RQ_CTRL.addr v = 0 → wbit v 31 = true →
    s.ringExecuting (wfld v RQ_CTRL.RING) = false → s.rq.fin = none → s.flag RQ_STATUS.CLEARING = false →
    ∃ t, exec (.rqCtrlClear v) s = .next t ∧ t.flag RQ_STATUS.CLEARING = true ∧
      (∀ q, s.ringQueue (wfld v RQ_CTRL.RING) ≤ q →
        q < s.ringQueue (wfld v RQ_CTRL.RING) + s.ringQueues (wfld v RQ_CTRL.RING) → t.desc q = {}) ∧
      (∀ q, q < s.ringQueue (wfld v RQ_CTRL.RING) ∨
        s.ringQueue (wfld v RQ_CTRL.RING) + s.ringQueues (wfld v RQ_CTRL.RING) ≤ q → t.desc q = s.desc q) ∧
      t.pushWaits (wfld v RQ_CTRL.RING) = false ∧ Steady s t) ∧
  (∀ (v : Word) (s : State), s.inService = true → reservedBits RQ_CTRL.addr v = 0 → wbit v 31 = true →
    s.ringExecuting (wfld v RQ_CTRL.RING) = true →
    ∃ t, exec (.rqCtrlClear v) s = .next t ∧ t.flag RQ_STATUS.CLEAR_REFUSED = true ∧
      OnlyRegs [RQ_CTRL.addr, RQ_STATUS.addr] s t) ∧
  (∀ s : State, ∃ t, exec .rqClearDone s = .next t ∧ t.flag RQ_STATUS.CLEARING = false ∧
    OnlyRegs [RQ_STATUS.addr] s t) ∧
  (∀ (v : Word) (s : State), s.inService = true → reservedBits RQ_FINALIZE.addr v = 0 → wbit v 31 = true →
    s.rq.fin = none → s.flag RQ_STATUS.CLEARING = false → s.ringExecuting (wfld v RQ_FINALIZE.RING) = false →
    ∃ t, exec (.rqFinalize v) s = .next t ∧ t.flag RQ_STATUS.FINALIZING = true ∧ t.flag RQ_FINALIZE.DONE = false ∧
      t.rq = { s.rq with
        fin := some ⟨wfld v RQ_FINALIZE.RING, wbit v 29, decide (s.ringQueues (wfld v RQ_FINALIZE.RING) = 0), none⟩ } ∧
      (t.withRegs s.regs).withRq s.rq = s ∧ RegsBut [RQ_FINALIZE.addr, RQ_STATUS.addr] s t) ∧
  (∀ (v : Word) (s : State), s.inService = true → reservedBits RQ_FINALIZE.addr v = 0 → wbit v 31 = true →
    s.rq.fin.isSome = true →
    ∃ t, exec (.rqFinalize v) s = .next t ∧ t.fld RQ_FINALIZE.RESULT = 1 ∧ OnlyRegs [RQ_FINALIZE.addr] s t) ∧
  (∀ (f : RqFin) (s : State), s.inService = true → s.rq.fin = some f → f.none_ = true → f.src = none → s.rq.upset = [] →
    ∃ t, exec .rqFinalized s = .next t ∧ t.fld RQ_FINALIZE.RESULT = 2 ∧ t.flag RQ_FINALIZE.DONE = true ∧
      t.flag RQ_STATUS.FINALIZING = false ∧ t.rq = { s.rq with fin := none } ∧ t.evtSeq = s.evtSeq + 1 ∧ Steady s t ∧
      RegsButEvents [RQ_FINALIZE.addr, RQ_STATUS.addr] s t) ∧
  (∀ (f : RqFin) (s : State), s.inService = true → s.rq.fin = some f → f.none_ = false → f.src = none →
    s.pushWaits f.ring = false → f.ring < 64 → s.rq.upset = [] →
    ∃ t, exec .rqFinalized s = .next t ∧ t.flag RQ_FINALIZE.DONE = true ∧ t.flag RQ_STATUS.FINALIZING = false ∧
      t.rq.fin = none ∧
      (if (State.finalizeGo f.ring (s.fld RQ_RESULT_SIZE.SIZE - 1) (s.finalizeList f) (s, [], 0)).2.1.length ≤
          s.fld RQ_RESULT_SIZE.SIZE - 1 then
        t.fld RQ_FINALIZE.RESULT = 0 ∧ ∀ q ∈ s.finalizeList f, (t.desc q).dirty = false
      else t.fld RQ_FINALIZE.RESULT = 3) ∧ Steady s t) ∧
  (∀ (f : RqFin) (s : State), s.rq.fin = some f → f.none_ = false → s.pushWaits f.ring = true →
    exec .rqFinalized s = .next s) ∧
  (∀ (p : Push) (ps : List Push) (s : State), s.inService = true → s.rq.backlog = [] → s.rq.buf = p :: ps →
    elapsed 64 s.time.toNat s.rq.time = 0 → s.rq.upset = [] →
    ∃ t, exec (.rqPushApply ⟨.clean, .clean⟩) s = .next t ∧ t.rq.buf = ps ∧
      (t.desc p.q).pushes = satN 32 ((s.desc p.q).pushes + 1) ∧ (∀ q, q ≠ p.q → t.desc q = s.desc q) ∧ Steady s t ∧
      RegsBut [RQ_RING_STATUS.addr p.ring] s t) ∧
  (∀ (p : Push) (ps : List Push) (s : State), s.inService = true → s.rq.backlog = p :: ps →
    elapsed 64 s.time.toNat s.rq.time = 0 → s.rq.upset = [] →
    ∃ t, exec (.rqPushApply ⟨.clean, .clean⟩) s = .next t ∧ t.rq.backlog = ps ∧
      (t.desc p.q).pushes = satN 32 ((s.desc p.q).pushes + 1) ∧ (∀ q, q ≠ p.q → t.desc q = s.desc q) ∧ Steady s t) ∧
  (∀ (v : Word) (a : Nat) (s : State), s.inService = true → reservedBits RQ_DESC_SEL.addr v = 0 → s.rq.upset = [(2, a)] →
    rangesMeet a 8 (12 * v.toNat) 12 = true →
    ∃ t, exec (.rqDescSel v .clean) s = .next t ∧ (t.desc v.toNat).sat = true ∧ (t.desc v.toNat).unrep = true ∧ t.rq.upset = [] ∧
      (∀ q, q ≠ v.toNat → t.desc q = s.desc q) ∧
      t.fld MEM_ECC_STATUS.UE_CNT = satN 16 (s.fld MEM_ECC_STATUS.UE_CNT + 1) ∧ t.reg RQ_DESC_W0.addr = (t.desc v.toNat).words.1) ∧
  (∀ (v : Word) (s : State), s.inService = true → reservedBits RQ_DESC_SEL.addr v = 0 → s.rq.upset = [] →
    ∃ t, exec (.rqDescSel v .clean) s = .next t ∧ t.reg RQ_DESC_W0.addr = (s.desc v.toNat).words.1 ∧
      t.reg RQ_DESC_W1.addr = (s.desc v.toNat).words.2.1 ∧ t.reg RQ_DESC_W2.addr = (s.desc v.toNat).words.2.2 ∧
      t.fld RQ_DESC_SEL.QUEUE = v.toNat ∧
      OnlyRegs [RQ_DESC_SEL.addr, RQ_DESC_W0.addr, RQ_DESC_W1.addr, RQ_DESC_W2.addr] s t) ∧
  (∀ (g : Ring) (v : Word) (s : State), s.inService = true → reservedBits (RQ_MAP_CFG.addr g) v = 0 →
    s.ringExecuting g = false → wfld v (RQ_MAP_CFG.CHUNK_BASE g) + wfld v (RQ_MAP_CFG.CHUNK_CNT g) ≤ 256 →
    s.chunkOverlap g (wfld v (RQ_MAP_CFG.CHUNK_BASE g)) (wfld v (RQ_MAP_CFG.CHUNK_CNT g)) = false →
    ∃ t, exec (.rqMapCfgWrite g v) s = .next t ∧ t.ringQueue g = 4096 * wfld v (RQ_MAP_CFG.CHUNK_BASE g) ∧
      t.ringQueues g = 4096 * wfld v (RQ_MAP_CFG.CHUNK_CNT g) ∧ OnlyRegs [RQ_MAP_CFG.addr g] s t) ∧
  (∀ (g : Ring) (v : Word) (s : State), s.inService = true → reservedBits (RQ_MAP_CFG.addr g) v = 0 →
    s.ringExecuting g = true →
    ∃ t, exec (.rqMapCfgWrite g v) s = .next t ∧ t.flag RQ_STATUS.CFG_REFUSED = true ∧ OnlyRegs [RQ_STATUS.addr] s t)

/-- A push applied to a queue of at most 64 entries leaves a queue of at most 64 (R199, R203): PUSHES counts it; a
SATURATED region keeps everything else; a new line in a full queue makes it SATURATED and UNREPAIRABLE. -/
def Obligations.QueuesKeepTheirBound : Prop :=
  ∀ (sr sc : Nat) (p : Push) (d : RqDesc) (es : List RqEntry), es.length = d.count → d.count ≤ 64 →
    (pushStep sr sc p d es).2.length = (pushStep sr sc p d es).1.count ∧ (pushStep sr sc p d es).1.count ≤ 64 ∧
    (pushStep sr sc p d es).1.pushes = satN 32 (d.pushes + 1) ∧
    (d.sat = true → pushStep sr sc p d es = ({ d with pushes := satN 32 (d.pushes + 1) }, es)) ∧
    (d.unrep = true → (pushStep sr sc p d es).1.unrep = true) ∧
    (d.sat = false → d.count = 64 → mergeEntry p es = none →
      (∀ e ∈ es, (e.mustr = true → e.rline ≠ (p.bank, p.row)) ∧ (e.mustc = true → e.cline ≠ (p.bank, p.col))) →
      (pushStep sr sc p d es).1.sat = true ∧ (pushStep sr sc p d es).1.unrep = true)

/-- The allocation that the exact search answers (R213) covers every entry with at most sr rows and sc columns, and no
rows and columns within those spares cover the entries with fewer lines; with no answer, none cover them at all. -/
def Obligations.RepairSearchIsExact : Prop :=
  ∀ (sr sc : Nat) (es : List RqEntry),
    (∀ rs cs : List (Nat × Nat), (repairTry sr sc es [] [] (none, 0)).1 = some (rs, cs) →
      rs.length ≤ sr ∧ cs.length ≤ sc ∧ ∀ e ∈ es, e.rline ∈ rs ∨ e.cline ∈ cs) ∧
    (∀ rows cols : List (Nat × Nat), rows.length ≤ sr → cols.length ≤ sc →
      (∀ e ∈ es, e.rline ∈ rows ∨ e.cline ∈ cols) →
      ∃ rs cs, (repairTry sr sc es [] [] (none, 0)).1 = some (rs, cs) ∧ rs.length + cs.length ≤ rows.length + cols.length)

/-! ## Edge measurement, and reads and writes of BAR0 (12, 20) -/

/-- Measurement commands (R225, R229, R233, Table 12-2): START begins a measurement or is refused; ABORT ends one
without results; MISS_CLR clears MISSED; the arm time arms the unit. -/
def Obligations.MeasurementCommandsComplete : Prop :=
  (∀ (c : Chan) (v : Word) (s : State), s.inService = true → reservedBits (PIN_TDC_MEAS.addr c) v = 0 →
    wbit v 31 = true → wbit v 30 = false → (s.store (PIN_TDC_MEAS.addr c) v).tdcRefused c = false →
    (s.store (PIN_TDC_MEAS.addr c) v).tdcReserved c = false →
    ∃ t, exec (.tdcStart c v) s = .next t ∧ t.flag (PIN_TDC_STATUS.BUSY c) = true ∧
      t.flag (PIN_TDC_STATUS.DONE c) = false ∧ (t.mu c).phase ≠ .idle ∧ (t.mu c).kind = wfld v (PIN_TDC_MEAS.KIND c) ∧
      (t.mu c).nstop = wfld v (PIN_TDC_MEAS.NSTOP c) ∧ (t.mu c).rep = 0 ∧ (∀ x, x ≠ c.val → t.mu x = s.mu x) ∧
      (t.withRegs s.regs).withUnits s.units = s ∧ RegsBut [PIN_TDC_MEAS.addr c, PIN_TDC_STATUS.addr c] s t) ∧
  (∀ (c : Chan) (v : Word) (s : State), s.inService = true → reservedBits (PIN_TDC_MEAS.addr c) v = 0 →
    wbit v 31 = true → wbit v 30 = false → (s.store (PIN_TDC_MEAS.addr c) v).tdcRefused c = true →
    ∃ t, exec (.tdcStart c v) s = .next t ∧ t.flag (PIN_TDC_STATUS.REFUSED c) = true ∧
      t.mu c = { s.mu c with cont := (s.mu c).cont && wbit v 29 } ∧ (∀ x, x ≠ c.val → t.mu x = s.mu x) ∧
      (t.withRegs s.regs).withUnits s.units = s ∧ RegsBut [PIN_TDC_MEAS.addr c, PIN_TDC_STATUS.addr c] s t) ∧
  (∀ (c : Chan) (v : Word) (s : State), s.inService = true → reservedBits (PIN_TDC_MEAS.addr c) v = 0 →
    wbit v 30 = true → (s.mu c).phase ≠ .idle →
    ∃ t, exec (.tdcAbort c v) s = .next t ∧ t.flag (PIN_TDC_STATUS.BUSY c) = false ∧
      t.flag (PIN_TDC_STATUS.DONE c) = true ∧ t.flag (PIN_TDC_STATUS.ABORTED c) = true ∧
      t.flag (PIN_TDC_STATUS.START_VALID c) = false ∧ t.fld (PIN_TDC_STATUS.STOP_VALID c) = 0 ∧ t.mu c = {} ∧
      (∀ x, x ≠ c.val → t.mu x = s.mu x) ∧ (t.withRegs s.regs).withUnits s.units = s ∧
      RegsBut [PIN_TDC_MEAS.addr c, PIN_TDC_STATUS.addr c] s t) ∧
  (∀ (c : Chan) (v : Word) (s : State), s.inService = true → reservedBits (PIN_TDC_CFG.addr c) v = 0 →
    wbit v 15 = true →
    ∃ t, exec (.missClr c v) s = .next t ∧ t.fld (PIN_TDC_CFG.MISSED c) = 0 ∧ t.flag (PIN_TDC_CFG.EN_H c) = wbit v 0 ∧
      t.flag (PIN_TDC_CFG.EN_L c) = wbit v 1 ∧ OnlyRegs [PIN_TDC_CFG.addr c] s t) ∧
  (∀ (c : Chan) (s : State), (s.mu c).phase = .armTime →
    ∃ t, exec (.tdcArmTime c) s = .next t ∧ t.mu c = (s.mu c).armAt s.cold (s.mu c).armT ∧
      (∀ x, x ≠ c.val → t.mu x = s.mu x) ∧ (t.withUnits s.units).withTime s.time = s)

/-- The ends of repetitions and measurements (R226 to R231): a start or a stop that does not come ends the repetition
with TIMEOUT; the SKEW window ends one, and so does a gate; with CONT clear, the results of a complete measurement leave BUSY 0
and DONE 1, with the first start in T0; the one gate of a measurement leaves its count in FREQ_N. -/
def Obligations.MeasurementsEnd : Prop :=
  (∀ (c : Chan) (s : State), (s.mu c).phase = .start ∨ (s.mu c).phase = .stops ∧ (s.mu c).start.isSome = true →
    (s.mu c).limit ≠ 0 → (s.mu c).kind < 3 →
    ∃ t, exec (.tdcTimeout c) s = .next t ∧ (t.mu c).timeout = true ∧
      (t.mu c).rep = (s.mu c).rep + 1 ∧ (2 ^ (s.mu c).avg ≤ (s.mu c).rep + 1 → (t.mu c).phase = .complete) ∧
      (∀ x, x ≠ c.val → t.mu x = s.mu x) ∧ (t.withUnits s.units).withTime s.time = s) ∧
  (∀ (c : Chan) (a : Int) (s : State), (s.mu c).phase = .stops → (s.mu c).kind = 3 → (s.mu c).start = some a →
    ∃ t, exec (.skewWindow c) s = .next t ∧ (t.mu c).rep = (s.mu c).rep + 1 ∧ (∀ x, x ≠ c.val → t.mu x = s.mu x) ∧
      (t.withUnits s.units).withTime s.time = s) ∧
  (∀ (c : Chan) (s : State), (s.mu c).phase = .gate → (s.mu c).kind = 4 → (s.mu c).avg = 0 → (s.mu c).cont = false →
    ∃ t, exec (.freqGate c) s = .next t ∧ t.flag (PIN_TDC_STATUS.BUSY c) = false ∧ t.flag (PIN_TDC_STATUS.DONE c) = true ∧
      t.reg (PIN_TDC_FREQ_N.addr c) = BitVec.ofNat 32 ((s.mu c).dlog * 2 ^ 24 + (s.mu c).kept.length) ∧
      t.flag (PIN_TDC_STATUS.NO_SIGNAL c) = decide ((s.mu c).kept.length < 3) ∧ t.mu c = {} ∧
      (∀ x, x ≠ c.val → t.mu x = s.mu x) ∧ t.mode = s.mode ∧ Still s t) ∧
  (∀ (c : Chan) (s : State), (s.mu c).phase = .gate → (s.mu c).kind = 4 → (s.mu c).rep + 1 < 2 ^ (s.mu c).avg →
    ∃ t, exec (.freqGate c) s = .next t ∧ (t.mu c).rep = (s.mu c).rep + 1 ∧
      (t.mu c).phase = (if (s.mu c).arm = 1 then .armMark else .gate) ∧
      (∀ x, x ≠ c.val → t.mu x = s.mu x) ∧ (t.withUnits s.units).withTime s.time = s) ∧
  (∀ (c : Chan) (s : State), (s.mu c).phase = .complete → (s.mu c).kind ≠ 4 → (s.mu c).cont = false →
    ∃ t, exec (.tdcResult c) s = .next t ∧ t.flag (PIN_TDC_STATUS.BUSY c) = false ∧
      t.flag (PIN_TDC_STATUS.DONE c) = true ∧ t.flag (PIN_TDC_STATUS.START_VALID c) = (s.mu c).t0.isSome ∧
      t.flag (PIN_TDC_STATUS.TIMEOUT c) = (s.mu c).timeout ∧
      (∀ x, (s.mu c).t0 = some x → t.pair (PIN_TDC_T0_LO.addr c) = stampFines x) ∧ t.mu c = {} ∧
      (∀ x, x ≠ c.val → t.mu x = s.mu x) ∧ Steady s t)

/-- Transitions (R101, R194 to R196, R216 to R218): one inside the hold-off is not seen (how long ago an instant was is told
from the wrapping count, notes/assumptions/7.md); another is seen by the channel's comparator, counted by its TDC where that
is enabled and not held, and by no other TDC; a burst that has timed out fails from its first beat without an edge on:
MISSING_STROBE holds for that beat and for the later ones. -/
def Obligations.TransitionsComplete : Prop :=
  (∀ (c : Chan) (low rise : Bool) (t : BitVec 70) (code : BitVec 9) (s : State), s.mode ≠ .idle → s.mode ≠ .run →
    exec (.comparatorTransition c low rise t code) s = .next s) ∧
  (∀ (c : Chan) (low rise : Bool) (t0 : BitVec 70) (code : BitVec 9) (s : State), s.mode = .idle ∨ s.mode = .run →
    (s.tdc (tdcNum c low)).out = none → s.tdcEnabled c low = true → s.tdcHeld c = false →
    ∃ t, exec (.comparatorTransition c low rise t0 code) s = .next t ∧
      (t.tdc (tdcNum c low)).cnt = (s.tdc (tdcNum c low)).cnt + 1 ∧
      (low = false → (t.chan c).outH = rise ∧ (t.chan c).outL = (s.chan c).outL) ∧
      (low = true → (t.chan c).outL = !rise ∧ (t.chan c).outH = (s.chan c).outH) ∧
      (∀ n, n ≠ tdcNum c low → t.tdc n = s.tdc n) ∧ (∀ x, x ≠ c.val → t.chan x = s.chan x) ∧ t.mode = s.mode ∧ Still s t) ∧
  (∀ (c : Chan) (low rise : Bool) (t0 : BitVec 70) (code : BitVec 9) (o : Nat) (s : State), s.mode = .idle ∨ s.mode = .run →
    (s.tdc (tdcNum c low)).out = some o →
    elapsed 70 ((t0.toNat + s.finePart ((s.chan c).active.tab low ((s.tdc (tdcNum c low)).cnt % 4) code.toNat)) % 2 ^ 70) o <
      s.holdoff c low →
    exec (.comparatorTransition c low rise t0 code) s = .next s) ∧
  (∀ (c : Chan) (b : Burst) (j : Nat) (bs : List Burst) (s : State), s.isStrobe c = true →
    timeoutBurst (s.fld (PIN_TRK_CFG.BURST_LEN c)) (s.chan c).bursts = some (b, j, bs) →
    ∃ t, exec (.burstTimeout c) s = .next t ∧ (t.chan c).bursts = bs ∧ b ∈ (s.chan c).bursts ∧ b.failFrom = none ∧
      { b with failFrom := some j } ∈ bs ∧ (b.edge j).isNone = true ∧ (∀ i, i < j → (b.edge i).isSome = true) ∧
      j < s.fld (PIN_TRK_CFG.BURST_LEN c) ∧
      (∀ x ui, t.burstOf x ui = some { b with failFrom := some j } → b.b + j ≤ ui → t.missingStrobe x ui = true) ∧ (∀ x, x ≠ c.val → t.chan x = s.chan x) ∧
      (t.withChans s.chans).withTime s.time = s)

/-- Reads (R5, R7, R66, R229, R348, R353): a word is answered, the LO half latches the HI half for that source, a HI
half is answered from the latch, a reserved address reads 0, SRAM reads as its bytes; PIN_TDC_STATUS latches the
results. -/
def Obligations.ReadsComplete : Prop :=
  (∀ (src : Src) (c : Chan) (s : State), s.inService = true →
    ∃ t, exec (.tdcStatusRead src c) s = .next t ∧
      t.reply = some { bytes := leBytes 4 (s.view (PIN_TDC_STATUS.addr c)).toNat } ∧
      (∀ i, i < 22 → t.latch src (PIN_TDC_STATUS.addr c + 8 + 4 * i) = s.view (PIN_TDC_STATUS.addr c + 8 + 4 * i)) ∧
      (t.withReply s.reply).withLatches s.latches = s) ∧
  (∀ (src : Src) (s : State), s.mode ≠ .off →
    ∃ t, exec (.loRead src 0x10010 .clean) s = .next t ∧
      t.reply = some { bytes := leBytes 4 s.time.toNat } ∧
      t.latch src 0x10014 = BitVec.ofNat 32 (s.time.toNat / 2 ^ 32) ∧ t.latch src 0x10018 = s.epoch ∧
      (t.withReply s.reply).withLatches s.latches = s) ∧
  (∀ (src : Src) (a : BitVec 26) (r : RegRow) (ix : List Nat) (s : State), s.accessOf src a.toNat ≠ .none → a.toNat % 4 = 0 →
    sramWindow a.toNat = none → regAt a.toNat = some (r, ix) → isLatched r.base = true →
    ∃ t, exec (.loRead src a .clean) s = .next t ∧
      t.reply = some { bytes := leBytes 4 (s.latch src a.toNat).toNat } ∧ t.withReply s.reply = s) ∧
  (∀ (src : Src) (a : BitVec 26) (s : State), s.inService = true → a.toNat % 4 = 0 → sramWindow a.toNat = none →
    regAt a.toNat = none →
    ∃ t, exec (.loRead src a .clean) s = .next t ∧ t.reply = some { bytes := [0, 0, 0, 0] } ∧ t.withReply s.reply = s) ∧
  (∀ (src : Src) (a : BitVec 26) (s : State), s.inService = true → a.toNat % 4 = 0 → 0x1000000 ≤ a.toNat →
    a.toNat < 0x2000000 →
    ∃ t, exec (.loRead src a .clean) s = .next t ∧
      t.reply = some { bytes := leBytes 4 (leNat (s.poolBytes (a.toNat - 0x1000000) 4)) } ∧ t.withReply s.reply = s)

/-- Writes (R5, R348, R349): RW fields take the word; a write with a byte enable clear leaves a register as it was; a
reserved address discards it; SRAM takes the bytes enabled and no other. So a write of any register without an action or a
guard of its own does, unless it is locked; bit by bit, an RW bit takes the written bit, a W1C bit that the write sets is
cleared, any other bit keeps its value. -/
def Obligations.WritesComplete : Prop :=
  (∀ (src : Src) (g : Ring) (v : Word) (s : State), s.inService = true → reservedBits (FAIL_CFG.addr g) v = 0 →
    ∃ t, exec (.registerWrite src (BitVec.ofNat 26 (FAIL_CFG.addr g)) v 0xF) s = .next t ∧
      t.fld (FAIL_CFG.THRESH g) = wfld v (FAIL_CFG.THRESH g) ∧ t.flag (FAIL_CFG.STOP g) = wbit v 7 ∧
      t.flag (FAIL_CFG.BENCH g) = wbit v 6 ∧ OnlyRegs [FAIL_CFG.addr g] s t) ∧
  (∀ (src : Src) (a : BitVec 26) (v : Word) (r : RegRow) (ix : List Nat) (s : State), a.toNat % 4 = 0 →
    s.accessOf src a.toNat = .full → sramWindow a.toNat = none → regAt a.toNat = some (r, ix) → r.base ∉ Machine.actingBases →
    reservedBits a.toNat v = 0 →
    ∃ t, exec (.registerWrite src a v 0xF) s = .next t ∧
      t.reg a.toNat = (if s.locked a.toNat then s.reg a.toNat else BitVec.ofNat 32 (r.written (s.reg a.toNat).toNat v.toNat)) ∧
      OnlyRegs [a.toNat] s t) ∧
  (∀ (src : Src) (a : BitVec 26) (v : Word) (be : BitVec 4) (s : State), sramWindow a.toNat = none →
    be ≠ 0xF → exec (.registerWrite src a v be) s = .next s) ∧
  (∀ (src : Src) (a : BitVec 26) (v : Word) (be : BitVec 4) (s : State), sramWindow a.toNat = none →
    regAt a.toNat = none → exec (.registerWrite src a v be) s = .next s) ∧
  (∀ (src : Src) (a : BitVec 26) (v : Word) (be : BitVec 4) (s : State), s.inService = true →
    a.toNat % 4 = 0 → 0x1000000 ≤ a.toNat → a.toNat < 0x2000000 →
    ∃ t, exec (.registerWrite src a v be) s = .next t ∧
      (∀ i, i < 4 → bitOf be.toNat i = true →
        t.poolAt (a.toNat - 0x1000000 + i) = BitVec.ofNat 8 (v.toNat / 256 ^ i)) ∧
      (∀ i, i < 4 → bitOf be.toNat i = false → t.poolAt (a.toNat - 0x1000000 + i) = s.poolAt (a.toNat - 0x1000000 + i)) ∧
      (∀ b, b < a.toNat - 0x1000000 ∨ a.toNat - 0x1000000 + 4 ≤ b → t.poolAt b = s.poolAt b) ∧ t.withPool s.pool = s) ∧
  (∀ (r : RegRow) (old v i : Nat), i < 32 → old < 2 ^ 32 → v < 2 ^ 32 → r.rw < 2 ^ 32 → r.w1c < 2 ^ 32 →
    bitOf (r.written old v) i =
      ((if bitOf r.rw i then bitOf v i else bitOf old i) && !(bitOf v i && bitOf r.w1c i)))

/-! ## Triggers, streams and calibration (13, 14) -/

/-- Triggers (R234, R236, R237): ARM of a unit whose channels belong to one act arms it in stage 0 with its counts at 0,
of another one is refused as TRIG_SPLIT, in CAL as MODE; DISARM disarms; a stage's time limit brings it back to stage 0;
the end of a hold-off (R237) finds it there, and only the time has gone on. -/
def Obligations.TriggersComplete : Prop :=
  (∀ (k : Trig) (v : Word) (n : Act) (s : State), s.mode = .idle ∨ s.mode = .run →
    reservedBits (ACQ_TRIG_CTRL.addr k) v = 0 → wbit v 31 = true → wbit v 30 = false → s.trigAct k = some n.val →
    (s.store (ACQ_TRIG_CTRL.addr k) v).trigReserved k = false →
    ∃ t, exec (.trigArm k v) s = .next t ∧ t.flag (ACQ_TRIG_STATUS.ARMED k) = true ∧
      t.flag (ACQ_TRIG_STATUS.FIRED k) = false ∧ t.fld (ACQ_TRIG_STATUS.STAGE k) = 0 ∧
      t.fld (ACQ_TRIG_STATUS.COUNT k) = 0 ∧ t.fld (ACQ_TRIG_STATUS.ACT k) = n.val ∧ t.fld (ACQ_TRIG_FIRES.VALUE k) = 0 ∧
      t.fld (ACQ_TRIG_TIMEOUTS.VALUE k) = 0 ∧ t.trig k = {} ∧ (∀ j, j ≠ k.val → t.trig j = s.trig j) ∧ (t.withRegs s.regs).withTrigs s.trigs = s ∧
      RegsBut [ACQ_TRIG_CTRL.addr k, ACQ_TRIG_STATUS.addr k, ACQ_TRIG_FIRES.addr k, ACQ_TRIG_TIMEOUTS.addr k] s t) ∧
  (∀ (k : Trig) (v : Word) (s : State), s.mode = .idle ∨ s.mode = .run →
    reservedBits (ACQ_TRIG_CTRL.addr k) v = 0 → wbit v 31 = true → wbit v 30 = false → s.trigAct k = none →
    ∃ t, exec (.trigArm k v) s = .next t ∧ t.flag (ACQ_TRIG_STATUS.REFUSED k) = true ∧
      t.fld (ACQ_TRIG_STATUS.REASON k) = 1 ∧ OnlyRegs [ACQ_TRIG_CTRL.addr k, ACQ_TRIG_STATUS.addr k] s t) ∧
  (∀ (k : Trig) (v : Word) (s : State), s.mode = .cal →
    reservedBits (ACQ_TRIG_CTRL.addr k) v = 0 → wbit v 31 = true → wbit v 30 = false →
    ∃ t, exec (.trigArm k v) s = .next t ∧ t.flag (ACQ_TRIG_STATUS.REFUSED k) = true ∧
      t.fld (ACQ_TRIG_STATUS.REASON k) = 2 ∧ OnlyRegs [ACQ_TRIG_CTRL.addr k, ACQ_TRIG_STATUS.addr k] s t) ∧
  (∀ (k : Trig) (v : Word) (s : State), s.inService = true →
    reservedBits (ACQ_TRIG_CTRL.addr k) v = 0 → wbit v 30 = true →
    ∃ t, exec (.trigDisarm k v) s = .next t ∧ t.flag (ACQ_TRIG_STATUS.ARMED k) = false ∧ t.trig k = {} ∧
      (∀ j, j ≠ k.val → t.trig j = s.trig j) ∧ (t.withRegs s.regs).withTrigs s.trigs = s ∧
      RegsBut [ACQ_TRIG_CTRL.addr k, ACQ_TRIG_STATUS.addr k] s t) ∧
  (∀ (k : Trig) (s : State), s.flag (ACQ_TRIG_STATUS.ARMED k) = true → s.fld (ACQ_TRIG_STATUS.STAGE k) ≠ 0 →
    s.fld (ACQ_TRIG_TLIM.TLIM k (s.fld (ACQ_TRIG_STATUS.STAGE k))) ≠ 0 →
    ∃ t, exec (.trigStageTimeout k) s = .next t ∧ t.fld (ACQ_TRIG_STATUS.STAGE k) = 0 ∧
      t.fld (ACQ_TRIG_STATUS.COUNT k) = 0 ∧ t.flag (ACQ_TRIG_STATUS.ARMED k) = true ∧
      t.fld (ACQ_TRIG_TIMEOUTS.VALUE k) = satN 32 (s.fld (ACQ_TRIG_TIMEOUTS.VALUE k) + 1) ∧
      (t.withRegs s.regs).withTime s.time = s ∧ RegsBut [ACQ_TRIG_STATUS.addr k, ACQ_TRIG_TIMEOUTS.addr k] s t) ∧
  (∀ (k : Trig) (h : Nat) (s : State), (s.trig k).holdTo = some h →
    ∃ t, exec (.trigHoldoffEnd k) s = .next t ∧ t.time = (s.at_ h).time ∧ t.withTime s.time = s) ∧
  (∀ (k : Trig) (s : State), (s.trig k).holdTo = none → exec (.trigHoldoffEnd k) s = .next s)

/-- Streams (R240, R242, R246 to R250): an enable that passes its checks starts the stream with SEQ 0 and nothing waiting; a
bad one is refused; a disable places what waits at once and closes the gap (that the records that wait are placed then is
the model's reading, notes/assumptions/27.md); an interval, a window and an open STAMPS record end; a record goes to the
DRAM ring with the next SEQ, or is lost and opens a gap; a record is copied to the host ring, or finds it full, and none is
in D3hot (R327). -/
def Obligations.StreamsComplete : Prop :=
  (∀ (i : Stream) (v : Word) (s : State), s.mode = .idle ∨ s.mode = .run →
    reservedBits (ACQ_STREAM_CTRL.addr i) v = 0 → wbit v 31 = true → s.streamOn i = false →
    ((s.store (ACQ_STREAM_CTRL.addr i) v).put (ACQ_STREAM_CTRL.EN i) 0).streamReserved i = false →
    ((s.store (ACQ_STREAM_CTRL.addr i) v).put (ACQ_STREAM_CTRL.EN i) 0).streamMisplaced i = false →
    ((s.store (ACQ_STREAM_CTRL.addr i) v).put (ACQ_STREAM_CTRL.EN i) 0).streamBad i = false →
    ((s.store (ACQ_STREAM_CTRL.addr i) v).put (ACQ_STREAM_CTRL.EN i) 0).streamConflict i = false →
    ∃ t, exec (.streamEnable i v) s = .next t ∧ t.streamOn i = true ∧
      t.fld (ACQ_STREAM_CTRL.KIND i) = wfld v (ACQ_STREAM_CTRL.KIND i) ∧ (t.stream i).seq = 0 ∧ (t.stream i).ring = [] ∧
      (t.stream i).waiting = [] ∧ (t.stream i).gap = none ∧ t.pair (ACQ_STREAM_LOST_LO.addr i) = 0 ∧
      t.fld (ACQ_STREAM_HOST_WR.VALUE i) = s.fld (ACQ_STREAM_HOST_RD.VALUE i) ∧
      (∀ j, j ≠ i.val → t.stream j = s.stream j) ∧ (t.withRegs s.regs).withStreams s.streams = s ∧
      RegsBut [ACQ_STREAM_CTRL.addr i, ACQ_STREAM_DEC.addr i, ACQ_STREAM_HOST_WR.addr i, ACQ_STREAM_LOST_LO.addr i,
        ACQ_STREAM_LOST_HI.addr i, ACQ_STREAM_STATUS.addr i, ACQ_STREAM_FILL.addr i] s t) ∧
  (∀ (i : Stream) (v : Word) (s : State), s.mode = .idle ∨ s.mode = .run →
    reservedBits (ACQ_STREAM_CTRL.addr i) v = 0 → wbit v 31 = true → s.streamOn i = false →
    ((s.store (ACQ_STREAM_CTRL.addr i) v).put (ACQ_STREAM_CTRL.EN i) 0).streamReserved i = false →
    ((s.store (ACQ_STREAM_CTRL.addr i) v).put (ACQ_STREAM_CTRL.EN i) 0).streamMisplaced i = false →
    ((s.store (ACQ_STREAM_CTRL.addr i) v).put (ACQ_STREAM_CTRL.EN i) 0).streamBad i = true →
    ∃ t, exec (.streamEnable i v) s = .next t ∧ t.streamOn i = false ∧ t.flag (ACQ_STREAM_STATUS.REFUSED i) = true ∧
      t.fld (ACQ_STREAM_STATUS.REASON i) = 2 ∧ OnlyRegs [ACQ_STREAM_CTRL.addr i, ACQ_STREAM_STATUS.addr i] s t) ∧
  (∀ (i : Stream) (v : Word) (s : State), s.inService = true →
    reservedBits (ACQ_STREAM_CTRL.addr i) v = 0 → wbit v 31 = false → s.streamOn i = true →
    ∃ t, exec (.streamDisable i v) s = .next t ∧ t.streamOn i = false ∧ (t.stream i).waiting = [] ∧
      (t.stream i).win = none ∧ (t.stream i).gap = none ∧ (s.stream i).ring <+: (t.stream i).ring ∧
      (s.streamCtrlChanges i v = true → t.flag (ACQ_STREAM_STATUS.CFG_REFUSED i) = true) ∧
      t.fld (ACQ_STREAM_CTRL.KIND i) = s.fld (ACQ_STREAM_CTRL.KIND i) ∧
      (∀ j, j ≠ i.val → t.stream j = s.stream j) ∧ Steady s t ∧
      RegsButEvents [ACQ_STREAM_CTRL.addr i, ACQ_STREAM_LOST_LO.addr i, ACQ_STREAM_LOST_HI.addr i, ACQ_STREAM_STATUS.addr i,
        ACQ_STREAM_FILL.addr i] s t) ∧
  (∀ (i : Stream) (v : Word) (s : State), s.inService = true →
    reservedBits (ACQ_STREAM_CTRL.addr i) v = 0 → wbit v 31 = false → s.streamOn i = true →
    s.streamCtrlChanges i v = false → (s.stream i).gap = none → (s.stream i).waiting = [] →
    ∃ t, exec (.streamDisable i v) s = .next t ∧ t.streamOn i = false ∧ (t.stream i).ring = (s.stream i).ring ∧
      (t.stream i).seq = (s.stream i).seq ∧ (t.withRegs s.regs).withStreams s.streams = s ∧
      RegsBut [ACQ_STREAM_CTRL.addr i] s t) ∧
  (∀ (i : Stream) (d : Die) (s : State), s.streamOn i = true → 2 ≤ s.fld (ACQ_STREAM_CTRL.KIND i) →
    s.fld (ACQ_STREAM_CTRL.KIND i) ≤ 4 →
    ∃ t, exec (.integEnd i d) s = .next t ∧ Tab.get (fun _ => 0) (t.stream i).ints d =
        Tab.get (fun _ => 0) (s.stream i).ints d + usFines * s.fld (ACQ_STREAM_INTEG.INTEG i) ∧
      (∀ b, b ≠ d.val → Tab.get (fun _ => 0) (t.stream i).ints b = Tab.get (fun _ => 0) (s.stream i).ints b) ∧
      (∀ j, j ≠ i.val → t.stream j = s.stream j) ∧ t.mode = s.mode ∧ Still s t) ∧
  (∀ (i : Stream) (w : Nat × Nat) (s : State), (s.stream i).win = some w →
    ∃ t, exec (.recordWindowEnd i) s = .next t ∧ (t.stream i).win = none ∧ (t.stream i).edges = [] ∧
      (∀ j, j ≠ i.val → t.stream j = s.stream j) ∧ t.mode = s.mode ∧ Still s t) ∧
  (∀ (i : Stream) (n t0 : Nat) (s : State), s.streamOn i = true → s.fld (ACQ_STREAM_CTRL.KIND i) = 5 →
    oldestStamps (s.stream i).reds = some (n, t0) →
    ∃ t, exec (.stampsClose i) s = .next t ∧ ((t.stream i).red n).ents = [] ∧
      (∀ m, m ≠ n → (t.stream i).red m = (s.stream i).red m) ∧ (∀ j, j ≠ i.val → t.stream j = s.stream j) ∧
      t.mode = s.mode ∧ Still s t) ∧
  (∀ (i : Stream) (r : StreamRec) (s : State), nextReady (s.stream i).waiting = some r → (s.stream i).gap = none →
    (s.stream i).used + 16 * r.units + 48 ≤ s.ringSize i →
    ∃ t, exec (.streamRecord i) s = .next t ∧ (t.stream i).ring = (s.stream i).ring ++ [(r.units, (s.stream i).seq)] ∧
      (t.stream i).seq = ((s.stream i).seq + 1) % 2 ^ 32 ∧ (t.stream i).waiting = (s.stream i).waiting.erase r ∧
      (∀ j, j ≠ i.val → t.stream j = s.stream j) ∧ t.mode = s.mode ∧ Still s t ∧
      RegsBut [ACQ_STREAM_FILL.addr i, ACQ_STREAM_STATUS.addr i] s t) ∧
  (∀ (i : Stream) (r : StreamRec) (s : State), nextReady (s.stream i).waiting = some r → (s.stream i).gap = none →
    s.ringSize i < (s.stream i).used + 16 * r.units + 48 →
    ∃ t, exec (.streamRecord i) s = .next t ∧ (t.stream i).ring = (s.stream i).ring ∧
      (∃ g, (t.stream i).gap = some g ∧ g.count = 1 ∧ g.seq = (s.stream i).seq ∧ g.causes = 1 ∧ g.first = r.time) ∧
      (t.stream i).seq = ((s.stream i).seq + 1) % 2 ^ 32 ∧
      t.pair (ACQ_STREAM_LOST_LO.addr i) = satN 64 (s.pair (ACQ_STREAM_LOST_LO.addr i) + 1) ∧ t.mode = s.mode ∧ Still s t) ∧
  (∀ (i : Stream) (n q pad : Nat) (rest : List (Nat × Nat)) (e : Ecc) (s : State), (s.stream i).ring = (n, q) :: rest →
    s.d3hot = false → pad = (if (s.hostRing i).2 < s.fld (ACQ_STREAM_HOST_WR.VALUE i) + n then
      (s.hostRing i).2 - s.fld (ACQ_STREAM_HOST_WR.VALUE i) else 0) →
    (s.fld (ACQ_STREAM_HOST_WR.VALUE i) + (s.hostRing i).2 - s.fld (ACQ_STREAM_HOST_RD.VALUE i)) % max 1 (s.hostRing i).2
      + pad + n + 1 ≤ (s.hostRing i).2 →
    ∃ t, exec (.streamCopy ⟨i, e⟩) s = .next t ∧ (t.stream i).ring = rest ∧
      t.fld (ACQ_STREAM_HOST_WR.VALUE i) =
        ((if pad = 0 then s.fld (ACQ_STREAM_HOST_WR.VALUE i) else 0) + n) % (s.hostRing i).2 % 2 ^ 32 ∧
      t.flag (ACQ_STREAM_STATUS.HOST_FULL i) = false ∧ (e = .clean → t.dram = s.dram) ∧
      (e = .ue → t.fld MEM_ECC_STATUS.UE_CNT = satN 16 (s.fld MEM_ECC_STATUS.UE_CNT + 1)) ∧ t.mode = s.mode ∧ t.time = s.time ∧
      t.otp = s.otp ∧ (∀ j, j ≠ i.val → t.stream j = s.stream j)) ∧
  (∀ (i : Stream) (n q pad : Nat) (rest : List (Nat × Nat)) (e : Ecc) (s : State), (s.stream i).ring = (n, q) :: rest →
    s.d3hot = false → pad = (if (s.hostRing i).2 < s.fld (ACQ_STREAM_HOST_WR.VALUE i) + n then
      (s.hostRing i).2 - s.fld (ACQ_STREAM_HOST_WR.VALUE i) else 0) →
    (s.hostRing i).2 <
      (s.fld (ACQ_STREAM_HOST_WR.VALUE i) + (s.hostRing i).2 - s.fld (ACQ_STREAM_HOST_RD.VALUE i)) % max 1 (s.hostRing i).2
        + pad + n + 1 →
    ∃ t, exec (.streamCopy ⟨i, e⟩) s = .next t ∧ t.flag (ACQ_STREAM_STATUS.HOST_FULL i) = true ∧
      OnlyRegs [ACQ_STREAM_STATUS.addr i] s t) ∧
  (∀ (x : StreamRead) (s : State), s.d3hot = true → exec (.streamCopy x) s = .next s)

/-- Calibration (R254, R257, R262 to R266): a pass that is due begins, with STALE and LIVE_BUSY set; whole hits give it
its tables; its end releases the die and stages or switches the channel's bank; a starved pass is abandoned and counted;
the warning comes once; a full run ends in IDLE with its result, and with COMMIT goes on to the commit. -/
def Obligations.CalibrationCompletes : Prop :=
  (∀ (d : Die) (c : Nat) (s : State), s.mode = .idle ∨ s.mode = .run → s.flag CAL_CTRL.LIVE_EN = true →
    (s.die d).pass = none → s.passNext d = some c →
    ∃ t l, exec (.livePassStart d) s = .next t ∧
      (t.die d).pass = some ⟨c, s.time.toNat, s.fld CAL_CTRL.GROUPS &&& (15 - s.fld (PIN_QUALITY_STAT.HELD c)), none, l⟩ ∧
      (t.die d).lastChan = some c ∧ t.flag (PIN_STATUS.STALE c) = true ∧ t.flag CAL_STATUS.LIVE_BUSY = true ∧
      t.fld CAL_STATUS.CHANNEL = c ∧ (∀ b, b ≠ d.val → t.die b = s.die b) ∧ Steady s t) ∧
  (∀ (d : Die) (hits : List (List Nat)) (p : PassSt) (s : State), (s.die d).pass = some p → bitOf p.groups 0 = true →
    p.tables = none → hitsWhole hits = true →
    ∃ t l, exec (.codeDensityDone d hits) s = .next t ∧
      (t.die d).pass = some { p with tables := some (hits, hits.map (fun h => binTable h.sum 0 h)), lent := l } ∧
      (l = true → bitOf p.groups 1 = true ∨ bitOf p.groups 2 = true) ∧
      (∀ b, b ≠ d.val → t.die b = s.die b) ∧ Steady s t) ∧
  (∀ (d : Die) (m : ChanMeas) (p : PassSt) (s : State), (s.die d).pass = some p → p.chan < 1024 →
    bitOf p.groups 0 = false ∨ p.tables.isSome = true →
    (∀ g, g < 4 → bitOf p.groups g = true → s.groupWhole p.chan g m = true) →
    ∃ t, exec (.livePassEnd d m) s = .next t ∧ (t.die d).pass = none ∧
      t.flag (PIN_QUALITY_STAT.ELIGIBLE p.chan) = s.chanExecuting p.chan ∧
      (t.chan p.chan).lastPass = some s.time.toNat ∧ (∀ b, b ≠ d.val → b ≠ p.chan / 64 → t.die b = s.die b) ∧
      (∀ x, x ≠ p.chan → t.chan x = s.chan x) ∧ Steady s t) ∧
  (∀ (d : Die) (p : PassSt) (s : State), (s.die d).pass = some p → s.fld CAL_SCHED.TIMEOUT ≠ 0 →
    ∃ t, exec (.calStarved d) s = .next t ∧ (t.die d).pass = none ∧
      t.fld CAL_REJECTS.STARVED = satN 16 (s.fld CAL_REJECTS.STARVED + 1) ∧ t.evtSeq = s.evtSeq + 1 ∧
      (t.chan p.chan).staged = (s.chan p.chan).staged ∧ (∀ b, b ≠ d.val → b ≠ p.chan / 64 → t.die b = s.die b) ∧
      t.mode = s.mode ∧ Still s t) ∧
  (∀ (t0 : Nat) (s : State), s.cal.since = some t0 → s.cal.warned = false → s.fld CAL_CTRL.PEND_WARN ≠ 0 →
    ∃ t, exec .calApplyWait s = .next t ∧ t.cal = { s.cal with warned := true } ∧ t.evtSeq = s.evtSeq + 1 ∧
      t.mode = s.mode ∧ Still s t ∧ RegsButEvents [] s t) ∧
  (∀ (dies : List DieMeas) (ms : List FullMeas) (s : State), s.mode = .cal → s.flag CAL_STATUS.FULL_BUSY = true →
    s.runWhole dies ms = true →
    ∃ t, exec (.fullRunDone dies ms) s = .next (if s.flag CAL_CTRL.COMMIT = true then t.writeNvmCmd 0xA5000006 else t) ∧
      t.mode = .idle ∧ t.flag CAL_STATUS.FULL_BUSY = false ∧
      (t.fld CAL_STATUS.FULL_RESULT = 1 ∨ t.fld CAL_STATUS.FULL_RESULT = 2) ∧ t.cal.dies = calDies dies ∧
      t.cal.full = some s.time.toNat ∧ t.time = s.time ∧ Still s t)

/-! ## Monitors, parks and SREF outputs (15, 06) -/

/-- Monitors (R104, R276 to R281): a pin monitor disables its channel, which goes high-impedance, and with its park
action parks the ring; a SENSE monitor trips and clears its output; a monitor that is not watching does nothing; the
writes of 1 rearm it and re-enable the channel, that of an executing act from the next vector boundary on. The blanking of a
SENSE monitor ends at its deadline, and a violation that is present then trips it. -/
def Obligations.MonitorsComplete : Prop :=
  (∀ (c : Chan) (uv : Int) (high : Bool) (s : State), s.flag (PIN_MON_WIN.EN c) = true → s.inService = true →
    s.stage c ≠ .calbus → s.pinSide c uv = some high → s.fld (PIN_MON_WIN.ESC c) = 0 →
    ∃ t, exec (.monPin c uv) s = .next t ∧ t.flag (PIN_STATUS.MON_DIS c) = true ∧ t.stage c = .hiz ∧
      t.flag (PIN_PPMU_CFG.CONNECT c) = false ∧ t.evtSeq = s.evtSeq + 1 ∧ Steady s t ∧
      RegsButEvents [PIN_STATUS.addr c, PIN_PPMU_CFG.addr c, PIN_PPMU_MEAS.addr c] s t) ∧
  (∀ (c : Chan) (uv : Int) (s : State), s.pinSide c uv = none → exec (.monPin c uv) s = .next s) ∧
  (∀ (c : Chan) (uv : Int) (high : Bool) (g n : Nat) (s : State), s.flag (PIN_MON_WIN.EN c) = true → s.inService = true →
    s.stage c ≠ .calbus → s.pinSide c uv = some high → bitOf (s.fld (PIN_MON_WIN.ESC c)) 0 = true → bitOf (s.fld (PIN_MON_WIN.ESC c)) 1 = false →
    s.ringOf c = some g → s.ringAct g = some n → s.executing n = true →
    ∃ t, exec (.monPin c uv) s = .next t ∧ t.flag (PIN_STATUS.MON_DIS c) = true ∧
      (∀ x ∈ s.ringChans g, (t.chan x).ringPark = true) ∧ Steady s t ∧
      (s.running n = true → (∀ x, x ∉ s.ringChans g → t.chan x = s.chan x) ∧ bitOf (t.act n).bench.toNat g = true)) ∧
  (∀ (m : Fin 32) (uv : Int) (high : Bool) (s : State), s.senseActive m = true → s.senseSide m uv = some high →
    s.flag (MON_SENSE_ACTION.PARK m) = false →
    s.flag (MON_SENSE_ACTION.ABORT m) = false → s.flag (MON_SENSE_ACTION.CLR m) = true →
    ∃ t, exec (.monSense m uv) s = .next t ∧ t.flag (MON_SENSE_ACTION.TRIPPED m) = true ∧
      t.fld (MON_SREF_CODE.CODE (s.fld (MON_SENSE_ACTION.SREF m))) =
        s.fld (MON_SREF_CLRCODE.CODE (s.fld (MON_SENSE_ACTION.SREF m))) ∧
      t.fld (MON_SREF_STATUS.SOURCE (s.fld (MON_SENSE_ACTION.SREF m))) = 2 ∧ t.evtSeq = s.evtSeq + 1 ∧ Steady s t) ∧
  (∀ (m : Fin 32) (uv : Int) (s : State), s.senseActive m = false ∨ s.senseSide m uv = none → exec (.monSense m uv) s = .next s) ∧
  (∀ (m : Fin 32) (s : State), s.inService = true →
    ∃ t, exec (.senseRearm m) s = .next t ∧ t.flag (MON_SENSE_ACTION.TRIPPED m) = false ∧
      t.flag (MON_SENSE_ACTION.EN m) = s.flag (MON_SENSE_ACTION.EN m) ∧ OnlyRegs [MON_SENSE_ACTION.addr m] s t) ∧
  (∀ (m : Fin 32) (uv : Int) (s : State), s.flag (MON_SENSE_BLANK.BLANKING m) = true → s.senseSide m uv = none →
    ∃ t, exec (.senseBlankExpiry m uv) s = .next t ∧ t.flag (MON_SENSE_BLANK.BLANKING m) = false ∧
      t.time = (s.at_ (Tab.get (fun _ => s.time.toNat) s.blanks m)).time ∧ Tab.get (fun _ => 0) t.blanks m = 0 ∧
      ((t.withRegs s.regs).withTime s.time).withBlanks s.blanks = s ∧ RegsBut [MON_SENSE_BLANK.addr m] s t) ∧
  (∀ (m : Fin 32) (uv : Int) (high : Bool) (s : State), s.flag (MON_SENSE_BLANK.BLANKING m) = true → s.inService = true →
    s.senseSide m uv = some high →
    s.flag (MON_SENSE_ACTION.EN m) = true → s.flag (MON_SENSE_ACTION.TRIPPED m) = false →
    s.flag (MON_SENSE_ACTION.PARK m) = false → s.flag (MON_SENSE_ACTION.ABORT m) = false →
    s.flag (MON_SENSE_ACTION.CLR m) = false →
    ∃ t, exec (.senseBlankExpiry m uv) s = .next t ∧ t.flag (MON_SENSE_BLANK.BLANKING m) = false ∧
      t.flag (MON_SENSE_ACTION.TRIPPED m) = true ∧ t.evtSeq = s.evtSeq + 1 ∧ t.mode = s.mode ∧ Still s t ∧
      RegsButEvents [MON_SENSE_BLANK.addr m, MON_SENSE_ACTION.addr m] s t) ∧
  (∀ (c : Chan) (s : State), s.inService = true →
    ∃ t, exec (.monDisClear c) s = .next t ∧ t.flag (PIN_STATUS.MON_DIS c) = false ∧
      t.flag (PIN_STATUS.DCHK_DIS c) = s.flag (PIN_STATUS.DCHK_DIS c) ∧ (t.withRegs s.regs).withChans s.chans = s ∧
      (s.chanExecuting c = true → s.disabled c = true → t.disabled c = true) ∧
      (s.chanExecuting c = false → t.chans = s.chans) ∧ RegsBut [PIN_STATUS.addr c] s t) ∧
  (∀ (c : Chan) (s : State), s.inService = true →
    ∃ t, exec (.dchkDisClear c) s = .next t ∧ t.flag (PIN_STATUS.DCHK_DIS c) = false ∧
      t.flag (PIN_STATUS.MON_DIS c) = s.flag (PIN_STATUS.MON_DIS c) ∧ (t.withRegs s.regs).withChans s.chans = s ∧
      (s.chanExecuting c = true → s.disabled c = true → t.disabled c = true) ∧
      (s.chanExecuting c = false → t.chans = s.chans) ∧ RegsBut [PIN_STATUS.addr c] s t)

/-- SREF outputs and parks (R283, R285, R286): a code is stored unless a clear cause is active, or the mode is CAL (R28;
DEDUCED, notes/assumptions/36.md), and a change starts the blanking timers that follow the output, where their TIME is not
0, to a whole fine below (R280; notes/assumptions/25.md); CLR_N clears every output; PARK_N parks every channel and aborts
every executing act with reason 0x0F, SYS_PARK the acts it selects; the releases change the pin alone. -/
def Obligations.SrefAndParksComplete : Prop :=
  (∀ (m : Fin 32) (v : Word) (s : State), s.inService = true → reservedBits (MON_SREF_CODE.addr m) v = 0 →
    s.clrActive = false → s.mode ≠ .cal →
    ∃ t, exec (.srefWrite m v) s = .next t ∧ t.fld (MON_SREF_CODE.CODE m) = wfld v (MON_SREF_CODE.CODE m) ∧
      (∀ i : Fin 32, s.flag (MON_SENSE_BLANK.ON_SREF i) = true → s.fld (MON_SENSE_BLANK.SREF i) = m.val →
        s.fld (MON_SREF_CODE.CODE m) ≠ wfld v (MON_SREF_CODE.CODE m) → s.fld (MON_SENSE_BLANK.TIME i) ≠ 0 →
        t.flag (MON_SENSE_BLANK.BLANKING i) = true ∧
          Tab.get (fun _ => 0) t.blanks i = (s.time.toNat + s.fld (MON_SENSE_BLANK.TIME i) * 65536 / 10) % 2 ^ 64) ∧
      (∀ i : Fin 32, s.fld (MON_SENSE_BLANK.TIME i) = 0 → s.flag (MON_SENSE_BLANK.BLANKING i) = false →
        t.flag (MON_SENSE_BLANK.BLANKING i) = false) ∧
      (t.withRegs s.regs).withBlanks s.blanks = s ∧
      RegsBut (MON_SREF_CODE.addr m :: (List.range 32).map MON_SENSE_BLANK.addr) s t) ∧
  (∀ (m : Fin 32) (v : Word) (s : State), s.inService = true → reservedBits (MON_SREF_CODE.addr m) v = 0 →
    s.clrActive = true ∨ s.mode = .cal →
    ∃ t, exec (.srefWrite m v) s = .next t ∧ t.flag (MON_SREF_STATUS.REFUSED m) = true ∧
      OnlyRegs [MON_SREF_STATUS.addr m] s t) ∧
  (∀ s : State, s.mode ≠ .off →
    ∃ t, exec .clrN s = .next t ∧ t.pins = { s.pins with clrN := false } ∧ t.refOk = false ∧
      (∀ m : Fin 32, t.fld (MON_SREF_CODE.CODE m) = s.fld (MON_SREF_CLRCODE.CODE m) ∧
        t.flag (MON_SREF_STATUS.CLEARED m) = true ∧ t.fld (MON_SREF_STATUS.SOURCE m) = 1) ∧
      ((t.withRegs s.regs).withPins s.pins).withBlanks s.blanks = s) ∧
  (∀ s : State, exec .clrNRelease s = .next (s.withPins { s.pins with clrN := true })) ∧
  (∀ s : State, s.mode ≠ .off →
    ∃ t, exec .parkN s = .next t ∧ t.pins.parkN = false ∧ (∀ c, t.forcedPark c = true) ∧
      (∀ n : Act, s.actState n = 3 → (s.act n).aborted = false →
        t.actState n = 4 ∧ t.fld (SEQ_STATUS.STOP_REASON n) = 0xF) ∧
      (∀ n : Act, s.actState n = 1 ∨ s.actState n = 2 → t.actState n = 0) ∧
      (∀ n : Act, s.actState n = 0 → t.actState n = 0) ∧ Steady s t) ∧
  (∀ s : State, exec .parkNRelease s = .next (s.withPins { s.pins with parkN := true })) ∧
  (∀ (v : Word) (s : State), s.inService = true → reservedBits SYS_PARK.addr v = 0 →
    ∃ t, exec (.sysParkWrite v) s = .next t ∧ t.fld SYS_PARK.ACTS = wfld v SYS_PARK.ACTS ∧
      (∀ n : Act, bitOf v.toNat n = true → s.actState n = 3 → (s.act n).aborted = false →
        t.actState n = 4 ∧ t.fld (SEQ_STATUS.STOP_REASON n) = 0xF) ∧
      (∀ n : Act, bitOf v.toNat n = false → t.actState n = s.actState n ∧ t.act n = s.act n) ∧ Steady s t)

/-! ## Memories, partitions, blocks and rings (16, 08, 10) -/

/-- The patrol engine (R293 to R295): a region to test becomes active; one of an executing half is skipped and counted;
a region that is over leaves ACTIVE clear, and one that failed is reported. Its shadow leaves every memory as it was. -/
def Obligations.PatrolCompletes : Prop :=
  (∀ (r : Nat) (b : BitVec 37) (s : State), s.inService = true → s.flag MEM_PATROL_CFG.EN = true → s.flag MEM_PATROL_STATUS.ACTIVE = false →
    s.patrolFrom 4 s.patrol = some r → s.patrolSkips r = false →
    ∃ t, exec (.patrolRegion ⟨.clean, .clean, b⟩) s = .next t ∧ t.flag MEM_PATROL_STATUS.ACTIVE = true ∧ t.patrol = r ∧
      (t.withRegs s.regs).withPatrol s.patrol = s ∧ RegsBut [MEM_PATROL_STATUS.addr, MEM_PATROL_SKIP.addr] s t) ∧
  (∀ (r : Nat) (b : BitVec 37) (s : State), s.inService = true → s.flag MEM_PATROL_CFG.EN = true → s.flag MEM_PATROL_STATUS.ACTIVE = false →
    s.patrolFrom 4 s.patrol = some r → s.patrolSkips r = true → s.patrol ≠ 0 →
    ∃ t, exec (.patrolRegion ⟨.clean, .clean, b⟩) s = .next t ∧ t.flag MEM_PATROL_STATUS.ACTIVE = false ∧
      t.fld MEM_PATROL_SKIP.SKIPPED = (s.fld MEM_PATROL_SKIP.SKIPPED + 1) % 2 ^ 17 ∧
      (t.withRegs s.regs).withPatrol s.patrol = s ∧ RegsBut [MEM_PATROL_STATUS.addr, MEM_PATROL_SKIP.addr] s t) ∧
  (∀ s : State, s.flag MEM_PATROL_STATUS.ACTIVE = true →
    ∃ t, exec (.patrolRegionDone true) s = .next t ∧ t.flag MEM_PATROL_STATUS.ACTIVE = false ∧
      t.flag MEM_PATROL_STATUS.FAIL = s.flag MEM_PATROL_STATUS.FAIL ∧
      t.patrol = (s.patrolFrom 4 (s.patrol + 1)).getD 0 ∧ (t.withRegs s.regs).withPatrol s.patrol = s ∧
      RegsBut [MEM_PATROL_STATUS.addr] s t) ∧
  (∀ s : State, s.flag MEM_PATROL_STATUS.ACTIVE = true →
    ∃ t, exec (.patrolRegionDone false) s = .next t ∧ t.flag MEM_PATROL_STATUS.ACTIVE = false ∧
      t.flag MEM_PATROL_STATUS.FAIL = true ∧ t.fld MEM_PATROL_STATUS.FAIL_ARRAY = patrolArray s.patrol ∧
      t.fld MEM_PATROL_STATUS.FAIL_REGION = (s.patrol - patrolStart (patrolArray s.patrol)) % 2 ^ 16 ∧
      t.evtSeq = s.evtSeq + 1 ∧ Steady s t ∧ RegsButEvents [MEM_PATROL_STATUS.addr] s t)

/-- The board port and the AtomicOps (R290, R296 to R298, R337): reads answer two bytes; a write stores its two bytes
and no other; a collision asserts BUSY_N and counts; BD_IRQ is cleared by writing 1. An AtomicOp answers the old value
and stores the new one, and so does an atomic of the housekeeping core; a CAS, one in BAR2, outside the pool or misaligned is an
Unsupported Request and stores nothing. -/
def Obligations.BoardPortAndAtomicsComplete : Prop :=
  (∀ (ba : BitVec 18) (s : State), s.mode ≠ .off → ba.toNat < 131072 →
    ∃ t, exec (.boardRead ba none .clean) s = .next t ∧ t.reply = some { bytes := s.mboxBytes (2 * ba.toNat) 2 } ∧
      t.withReply s.reply = s) ∧
  (∀ (ba : BitVec 18) (s : State), s.mode ≠ .off → 131072 ≤ ba.toNat →
    ∃ t, exec (.boardRead ba none .clean) s = .next t ∧
      t.reply = some { bytes := leBytes 2 (s.statusPage (ba.toNat - 131072)) } ∧ t.withReply s.reply = s) ∧
  (∀ (ba : BitVec 18) (w : Word) (s : State), s.mode ≠ .off → ba.toNat < 131072 →
    ∃ t, exec (.boardRead ba (some w) .clean) s = .next t ∧ t.pins.busy = true ∧
      t.fld MEM_COLLIDE.RW_CNT = satN 16 (s.fld MEM_COLLIDE.RW_CNT + 1) ∧
      t.mboxBytes (4 * (ba.toNat / 2)) 4 = leBytes 4 w.toNat ∧ Steady s t ∧ RegsBut [MEM_COLLIDE.addr] s t) ∧
  (∀ (ba : BitVec 18) (v : BitVec 16) (s : State), s.mode ≠ .off → ba.toNat < 131072 →
    ∃ t, exec (.boardWrite ba v .none) s = .next t ∧ t.mboxAt (2 * ba.toNat) = BitVec.ofNat 8 v.toNat ∧
      t.mboxAt (2 * ba.toNat + 1) = BitVec.ofNat 8 (v.toNat / 256) ∧
      (∀ a, a < 2 * ba.toNat ∨ 2 * ba.toNat + 2 ≤ a → t.mboxAt a = s.mboxAt a) ∧ t.withMailbox s.mailbox = s) ∧
  (∀ (ba : BitVec 18) (v : BitVec 16) (w : Word) (s : State), s.mode ≠ .off → ba.toNat < 131072 →
    bitsOf w.toNat (16 * (ba.toNat % 2)) 16 ≠ v.toNat →
    ∃ t, exec (.boardWrite ba v (.write w)) s = .next t ∧ t.pins.busy = true ∧
      t.fld MEM_COLLIDE.WW_CNT = satN 16 (s.fld MEM_COLLIDE.WW_CNT + 1) ∧
      t.mboxBytes (4 * (ba.toNat / 2)) 4 = leBytes 4 w.toNat ∧ t.evtSeq = s.evtSeq + 1 ∧ Steady s t ∧
      RegsButEvents [MEM_COLLIDE.addr] s t) ∧
  (∀ (v : BitVec 16) (s : State), s.mode ≠ .off →
    ∃ t, exec (.boardWrite 131077 v .none) s = .next t ∧ t.pins.bdIrq = s.pins.bdIrq &&& ~~~(BitVec.ofNat 4 v.toNat) ∧
      t.withPins s.pins = s) ∧
  (∀ s : State, exec .bcsRelease s = .next (s.withPins { s.pins with busy := false })) ∧
  (∀ (a : BitVec 26) (wide : Bool) (v : BitVec 64) (s : State), s.inService = true → 0x1000000 ≤ a.toNat →
    a.toNat < 0x2000000 → a.toNat % (if wide then 8 else 4) = 0 →
    ∃ t, exec (.atomicAdd (.bar0 false a .clean) wide v) s = .next t ∧
      t.reply = some { bytes := s.poolBytes (a.toNat - 0x1000000) (if wide then 8 else 4) } ∧
      leNat (t.poolBytes (a.toNat - 0x1000000) (if wide then 8 else 4)) =
        (leNat (s.poolBytes (a.toNat - 0x1000000) (if wide then 8 else 4)) + v.toNat) % (if wide then 2 ^ 64 else 2 ^ 32) ∧
      (∀ b, b < a.toNat - 0x1000000 ∨ a.toNat - 0x1000000 + (if wide then 8 else 4) ≤ b → t.poolAt b = s.poolAt b) ∧
      (t.withPool s.pool).withReply s.reply = s) ∧
  (∀ (a : BitVec 26) (wide : Bool) (v : BitVec 64) (s : State), s.inService = true → 0x1000000 ≤ a.toNat →
    a.toNat < 0x2000000 → a.toNat % (if wide then 8 else 4) = 0 →
    ∃ t, exec (.atomicSwap (.bar0 false a .clean) wide v) s = .next t ∧
      t.reply = some { bytes := s.poolBytes (a.toNat - 0x1000000) (if wide then 8 else 4) } ∧
      t.poolBytes (a.toNat - 0x1000000) (if wide then 8 else 4) = leBytes (if wide then 8 else 4) v.toNat ∧
      (∀ b, b < a.toNat - 0x1000000 ∨ a.toNat - 0x1000000 + (if wide then 8 else 4) ≤ b → t.poolAt b = s.poolAt b) ∧
      (t.withPool s.pool).withReply s.reply = s) ∧
  (∀ (a : BitVec 26) (wide : Bool) (v : BitVec 64) (s : State), s.mode ≠ .off → a.toNat < 0x1000000 →
    ∃ t, exec (.atomicAdd (.bar0 false a .clean) wide v) s = .next t ∧ t.reply = some { bytes := [], unsupported := true } ∧
      t.withReply s.reply = s) ∧
  (∀ (x : AtomicAt) (wide : Bool) (v : BitVec 64) (s : State), s.mode ≠ .off → atomicWord (if wide then 8 else 4) x = none →
    ∃ t, exec (.atomicAdd x wide v) s = .next t ∧ exec (.atomicSwap x wide v) s = .next t ∧
      t.reply = some { bytes := [], unsupported := true } ∧ t.withReply s.reply = s) ∧
  (∀ (cas : Bool) (a : BitVec 26) (b : BitVec 37) (e : Ecc),
    (cas = true ∨ a.toNat < 0x1000000 ∨ 0x2000000 ≤ a.toNat ∨ a.toNat % 4 ≠ 0 → atomicWord 4 (.bar0 cas a e) = none) ∧
      atomicWord 8 (.bar2 cas b) = none) ∧
  (∀ (o : BitVec 24) (v : BitVec 64) (s : State), s.mode ≠ .off →
    ∃ t, exec (.atomicAdd (.core o .clean) false v) s = .next t ∧
      t.reply = some { bytes := s.poolBytes (o.toNat / 4 * 4) 4 } ∧
      leNat (t.poolBytes (o.toNat / 4 * 4) 4) = (leNat (s.poolBytes (o.toNat / 4 * 4) 4) + v.toNat) % 2 ^ 32 ∧
      (∀ b, b < o.toNat / 4 * 4 ∨ o.toNat / 4 * 4 + 4 ≤ b → t.poolAt b = s.poolAt b) ∧
      (t.withPool s.pool).withReply s.reply = s)

/-- BAR2 and the moves of partitions, blocks and rings (R12, R35, R132, R181, R197, R300, R301, R325): a read answers
the bytes of DRAM, outside IDLE, RUN and CAL all ones; a write that meets nothing in use stores its bytes and no other;
a partition is stored, or refused while an act executes; blocks and channels leave their old act or ring, or the write
is refused. -/
def Obligations.DramAndOwnershipComplete : Prop :=
  (∀ (a : BitVec 37) (len : Nat) (s : State), s.inService = true → a.toNat + len ≤ dramSize →
    ∃ t, exec (.bar2Read a len .clean) s = .next t ∧ t.reply = some { bytes := s.dramBytes a.toNat len } ∧
      t.withReply s.reply = s) ∧
  (∀ (a : BitVec 37) (len : Nat) (s : State), s.inService = false → s.mode ≠ .off → a.toNat + len ≤ dramSize →
    ∃ t, exec (.bar2Read a len .clean) s = .next t ∧ t.reply = some { bytes := List.replicate len 0xFF } ∧
      t.withReply s.reply = s) ∧
  (∀ (a : BitVec 37) (bytes : List Byte) (s : State), s.inService = true →
    a.toNat + bytes.length ≤ dramSize → Clear a.toNat bytes.length s →
    (∀ g, g < 64 → s.hitsRing a.toNat bytes.length g = false) →
    ∃ t, exec (.bar2Write a bytes) s = .next t ∧
      (∀ i, i < bytes.length → t.dramAt (a.toNat + i) = bytes.getD i 0) ∧
      (∀ b, b < a.toNat ∨ a.toNat + bytes.length ≤ b → t.dramAt b = s.dramAt b) ∧ t.withDram s.dram = s) ∧
  (∀ (i : Fin 16) (v : Word) (s : State), s.inService = true → reservedBits (MEM_DRAM_PART.addr i) v = 0 →
    2 ≤ i.val → s.anyExecuting = false → s.rq.fin = none → (s.store (MEM_DRAM_PART.addr i) v).partsOk = true →
    (∀ k, k < 16 → s.streamOn k = false ∨ (s.store (MEM_DRAM_PART.addr i) v).streamMisplaced k = false) →
    ∃ t, exec (.dramPartWrite i false v) s = .next t ∧ t.fld (MEM_DRAM_PART.BASE i) = wfld v (MEM_DRAM_PART.BASE i) ∧
      t.flag (MEM_DRAM_PART.EN i) = wbit v 31 ∧ t.fld (MEM_DRAM_PART.KIND i) = wfld v (MEM_DRAM_PART.KIND i) ∧
      OnlyRegs [MEM_DRAM_PART.addr i] s t) ∧
  (∀ (i : Fin 16) (size : Bool) (v : Word) (s : State), s.inService = true →
    reservedBits (if size then MEM_DRAM_PART_SIZE.addr i else MEM_DRAM_PART.addr i) v = 0 → s.anyExecuting = true →
    ∃ t, exec (.dramPartWrite i size v) s = .next t ∧ t.flag MEM_PART_STATUS.REFUSED = true ∧
      OnlyRegs [MEM_PART_STATUS.addr] s t) ∧
  (∀ (n : Act) (v : Word) (s : State), s.inService = true → reservedBits (SEQ_CB_MASK.addr n) v = 0 →
    s.anyExecuting = false →
    ∃ t, exec (.seqCbMaskWrite n v) s = .next t ∧ t.fld (SEQ_CB_MASK.MASK n) = wfld v (SEQ_CB_MASK.MASK n) ∧
      (∀ m : Act, m ≠ n → t.fld (SEQ_CB_MASK.MASK m) =
        s.fld (SEQ_CB_MASK.MASK m) &&& (65535 - wfld v (SEQ_CB_MASK.MASK n))) ∧ t.withRegs s.regs = s) ∧
  (∀ (n : Act) (v : Word) (s : State), s.inService = true → reservedBits (SEQ_CB_MASK.addr n) v = 0 →
    s.executing n = true → s.fld (SEQ_CB_MASK.MASK n) ≠ wfld v (SEQ_CB_MASK.MASK n) →
    ∃ t, exec (.seqCbMaskWrite n v) s = .next t ∧ t.flag (SEQ_STATUS.CFG_REFUSED n) = true ∧
      OnlyRegs [SEQ_STATUS.addr n] s t) ∧
  (∀ (g : Ring) (i : Fin 32) (v : Word) (s : State), s.inService = true → s.anyExecuting = false →
    ∃ t, exec (.failRingChWrite g i v) s = .next t ∧ t.fld (FAIL_RING_CH.MEMBERS g i) = v.toNat ∧
      (∀ h : Ring, h ≠ g → t.fld (FAIL_RING_CH.MEMBERS h i) = s.fld (FAIL_RING_CH.MEMBERS h i) &&& (0xFFFFFFFF - v.toNat)) ∧
      t.withRegs s.regs = s ∧ RegsBut ((List.range 64).map (fun h => FAIL_RING_CH.addr h i)) s t) ∧
  (∀ (g : Ring) (i : Fin 32) (v : Word) (s : State), s.inService = true → s.ringExecuting g = true →
    ∃ t, exec (.failRingChWrite g i v) s = .next t ∧ t.flag (FAIL_STATUS.CFG_REFUSED g) = true ∧
      OnlyRegs [FAIL_STATUS.addr g] s t)

/-- A channel stays in at most one ring, and a block in at most one act (R132, R181), over every write of a ring's
members or an act's blocks. -/
def Obligations.OwnershipStaysExclusive : Prop :=
  (∀ (s : State) (g : Ring) (i : Fin 32) (v : Word),
    (∀ h k : Ring, ∀ c, c < 1024 → s.inRing h c = true → s.inRing k c = true → h = k) →
    ∀ h k : Ring, ∀ c, c < 1024 → (s.writeRingCh g i v).inRing h c = true → (s.writeRingCh g i v).inRing k c = true → h = k) ∧
  (∀ (s : State) (n : Act) (v : Word),
    (∀ h k : Act, ∀ b, b < 16 → bitOf (s.fld (SEQ_CB_MASK.MASK h)) b = true → bitOf (s.fld (SEQ_CB_MASK.MASK k)) b = true → h = k) →
    ∀ h k : Act, ∀ b, b < 16 → bitOf ((s.writeCbMask n v).fld (SEQ_CB_MASK.MASK h)) b = true →
      bitOf ((s.writeCbMask n v).fld (SEQ_CB_MASK.MASK k)) b = true → h = k)

/-! ## The Brodjo link (17) -/

/-- Ports (R303, R306, R307, R309, R311, R312): training ends in ACTIVE with full credits where the partner's role is the
one expected and the ROOT_MHZ agree, else in HELD with its cause; on UP the index comes from the partner; RETRAIN, DOWN and
TRAINING follow their causes; a barker is sent, and one that comes is stored; a lost partner is reported once: by a relay in
an EVENT frame, and the manager takes as lost the device there and, where it is a relay, every one below it. -/
def Obligations.LinkPortsComplete : Prop :=
  (∀ (p : Port) (phy root : BitVec 16) (w : BitVec 56) (s : State), p ≠ 0 →
    s.fld (LNK_STATUS.STATE p) = 1 ∨ s.fld (LNK_STATUS.STATE p) = 3 → root.toNat = s.fld CLK_ROOT_CFG.ROOT_MHZ →
    s.roleAllowed p (bitsOf w.toNat 21 2) = true → bitsOf w.toNat 21 2 = s.fld (LNK_PORT_CFG.EXP_ROLE p) →
    ∃ t, exec (.linkActive p (.ready phy root w)) s = .next t ∧ t.fld (LNK_STATUS.STATE p) = 2 ∧
      t.fld (LNK_STATUS.HELD_CAUSE p) = 0 ∧ t.fld (LNK_STATUS.P_ROLE p) = bitsOf w.toNat 21 2 ∧
      t.fld (LNK_DELAY_ASYM.PHY p) = phy.toNat ∧
      ((s.port p).unacked = [] → (s.port p).waiting = [] → (t.port p).credReq = 64 ∧ (t.port p).credRsp = 64) ∧
      (t.port p).there = true ∧ (∀ o, o ≠ p.val → t.port o = s.port o) ∧ Steady s t ∧
      RegsButEvents [LNK_STATUS.addr p, LNK_DELAY_ASYM.addr p, LNK_RETRY_COUNT.addr p, CLK_STATUS.addr] s t) ∧
  (∀ (phy root : BitVec 16) (w : BitVec 56) (s : State), s.fld (LNK_STATUS.STATE 0) = 1 ∨ s.fld (LNK_STATUS.STATE 0) = 3 →
    root.toNat = s.fld CLK_ROOT_CFG.ROOT_MHZ → s.roleAllowed 0 (bitsOf w.toNat 21 2) = true →
    bitsOf w.toNat 21 2 = s.fld (LNK_PORT_CFG.EXP_ROLE 0) →
    ∃ t, exec (.linkActive 0 (.ready phy root w)) s = .next t ∧ t.fld (LNK_STATUS.STATE 0) = 2 ∧
      t.flag SYS_DEVIDX.VALID = true ∧
      t.fld SYS_DEVIDX.INDEX = (if s.flag SYS_DEVIDX.VALID = true then s.fld SYS_DEVIDX.INDEX else bitsOf w.toNat 27 9) ∧
      t.mode = s.mode ∧ Still s t) ∧
  (∀ (p : Port) (phy root : BitVec 16) (w : BitVec 56) (s : State),
    s.fld (LNK_STATUS.STATE p) = 1 ∨ s.fld (LNK_STATUS.STATE p) = 3 → root.toNat = s.fld CLK_ROOT_CFG.ROOT_MHZ →
    s.roleAllowed p (bitsOf w.toNat 21 2) = false ∨ bitsOf w.toNat 21 2 ≠ s.fld (LNK_PORT_CFG.EXP_ROLE p) →
    ∃ t, exec (.linkActive p (.ready phy root w)) s = .next t ∧ t.fld (LNK_STATUS.STATE p) = 4 ∧
      t.fld (LNK_STATUS.HELD_CAUSE p) = 3 ∧ t.evtSeq = s.evtSeq + 1 ∧ Steady s t ∧
      RegsButEvents [LNK_STATUS.addr p] s t) ∧
  (∀ (p : Port) (phy root : BitVec 16) (w : BitVec 56) (s : State),
    s.fld (LNK_STATUS.STATE p) = 1 ∨ s.fld (LNK_STATUS.STATE p) = 3 → root.toNat ≠ s.fld CLK_ROOT_CFG.ROOT_MHZ →
    ∃ t, exec (.linkActive p (.ready phy root w)) s = .next t ∧ t.fld (LNK_STATUS.STATE p) = 4 ∧
      t.fld (LNK_STATUS.HELD_CAUSE p) = 2 ∧ t.evtSeq = s.evtSeq + 1 ∧ Steady s t ∧
      RegsButEvents [LNK_STATUS.addr p] s t) ∧
  (∀ (p : Port) (s : State), s.fld (LNK_STATUS.STATE p) = 1 ∨ s.fld (LNK_STATUS.STATE p) = 3 →
    ∃ t, exec (.linkActive p .role) s = .next t ∧ t.fld (LNK_STATUS.STATE p) = 4 ∧
      t.fld (LNK_STATUS.HELD_CAUSE p) = 3 ∧ t.evtSeq = s.evtSeq + 1 ∧ Steady s t ∧
      RegsButEvents [LNK_STATUS.addr p] s t) ∧
  (∀ (p : Port) (s : State), s.fld (LNK_STATUS.STATE p) = 1 ∨ s.fld (LNK_STATUS.STATE p) = 3 →
    ∃ t, exec (.linkActive p .rate) s = .next t ∧ t.fld (LNK_STATUS.STATE p) = 4 ∧
      t.fld (LNK_STATUS.HELD_CAUSE p) = 2 ∧ t.evtSeq = s.evtSeq + 1 ∧ Steady s t ∧
      RegsButEvents [LNK_STATUS.addr p] s t) ∧
  (∀ (p : Port) (s : State), s.portActive p = true →
    ∃ t, exec (.retrain p) s = .next t ∧ t.fld (LNK_STATUS.STATE p) = 3 ∧
      t.fld (LNK_STATUS.RETRAINS p) = satN 8 (s.fld (LNK_STATUS.RETRAINS p) + 1) ∧ (t.port p).there = false ∧
      t.time = s.time ∧ t.otp = s.otp) ∧
  (∀ (p : Port) (s : State), s.portActive p = true → (s.port p).there = false →
    ∃ t, exec (.retrain p) s = .next t ∧ t.fld (LNK_STATUS.STATE p) = 3 ∧
      t.fld (LNK_STATUS.RETRAINS p) = satN 8 (s.fld (LNK_STATUS.RETRAINS p) + 1) ∧ t.ports = s.ports ∧ Steady s t ∧
      RegsButEvents [LNK_STATUS.addr p] s t) ∧
  (∀ (p : Port) (v : Word) (s : State), s.inService = true → reservedBits (LNK_PORT_CFG.addr p) v = 0 →
    wbit v 31 = false →
    ∃ t, exec (.lnkPortCfgWrite p v) s = .next t ∧ t.flag (LNK_PORT_CFG.ENABLED p) = false ∧
      t.fld (LNK_STATUS.STATE p) = 0 ∧ t.fld (LNK_STATUS.HELD_CAUSE p) = 1 ∧ t.time = s.time ∧ t.otp = s.otp) ∧
  (∀ (p : Port) (v : Word) (s : State), s.inService = true → reservedBits (LNK_PORT_CFG.addr p) v = 0 →
    wbit v 31 = false → (s.port p).there = false →
    ∃ t, exec (.lnkPortCfgWrite p v) s = .next t ∧ t.flag (LNK_PORT_CFG.ENABLED p) = false ∧
      t.fld (LNK_STATUS.STATE p) = 0 ∧ t.fld (LNK_STATUS.HELD_CAUSE p) = 1 ∧ Steady s t ∧
      RegsButEvents [LNK_PORT_CFG.addr p, LNK_STATUS.addr p] s t) ∧
  (∀ (p : Port) (v : Word) (s : State), s.inService = true → reservedBits (LNK_PORT_CFG.addr p) v = 0 →
    wbit v 31 = true → s.portAllowed p = true → s.fld (LNK_STATUS.STATE p) = 0 ∨ s.fld (LNK_STATUS.STATE p) = 4 →
    ∃ t, exec (.lnkPortCfgWrite p v) s = .next t ∧ t.flag (LNK_PORT_CFG.ENABLED p) = true ∧
      t.fld (LNK_PORT_CFG.EXP_ROLE p) = wfld v (LNK_PORT_CFG.EXP_ROLE p) ∧ t.fld (LNK_STATUS.STATE p) = 1 ∧ Steady s t ∧
      RegsButEvents [LNK_PORT_CFG.addr p, LNK_STATUS.addr p] s t) ∧
  (∀ (p : Port) (s : State), s.fld (LNK_STATUS.STATE p) = 4 →
    ∃ t, exec (.partnerRateChange p) s = .next t ∧ t.fld (LNK_STATUS.STATE p) = 1 ∧
      t.fld (LNK_STATUS.HELD_CAUSE p) = 0 ∧ t.ports = s.ports ∧ Steady s t ∧ RegsButEvents [LNK_STATUS.addr p] s t) ∧
  (∀ (p : Port) (s : State), s.fld (LNK_STATUS.STATE p) = 1 ∨ s.portActive p = true →
    ∃ t, exec (.barkerSend p) s = .next t ∧ (t.port p).sent = (s.port p).sent ++ [.barker (s.barkerWord p)] ∧
      (t.port p).bcnt = ((s.port p).bcnt + 1) % 256 ∧ (∀ o, o ≠ p.val → t.port o = s.port o) ∧ t.withPorts s.ports = s) ∧
  (∀ (p : Port) (w : BitVec 56) (s : State), s.portActive p = true →
    ∃ t, exec (.barker p w) s = .next t ∧ t.fld (LNK_STATUS.P_MODE p) = bitsOf w.toNat 53 3 ∧
      t.fld (LNK_STATUS.P_FAULT p) = bitsOf w.toNat 45 8 ∧ t.fld (LNK_STATUS.P_ROLE p) = bitsOf w.toNat 21 2 ∧
      t.fld (LNK_STATUS.P_SYNC p) = bitsOf w.toNat 23 3 ∧ (t.port p).there = true ∧
      (t.port p).partnerIdx = bitsOf w.toNat 36 9 ∧ t.time = s.time ∧ t.otp = s.otp) ∧
  (∀ (p : Port) (w : BitVec 56) (s : State), p ≠ 0 → s.portActive p = true → s.role ≠ 2 →
    ∃ t, exec (.barker p w) s = .next t ∧ t.fld (LNK_STATUS.P_MODE p) = bitsOf w.toNat 53 3 ∧
      t.fld (LNK_STATUS.P_FAULT p) = bitsOf w.toNat 45 8 ∧ t.fld (LNK_STATUS.P_ROLE p) = bitsOf w.toNat 21 2 ∧
      t.fld (LNK_STATUS.P_SYNC p) = bitsOf w.toNat 23 3 ∧ (t.port p).there = true ∧
      (t.port p).partnerIdx = bitsOf w.toNat 36 9 ∧ (∀ o, o ≠ p.val → t.port o = s.port o) ∧
      (t.withRegs s.regs).withPorts s.ports = s ∧ RegsBut [LNK_STATUS.addr p, CLK_STATUS.addr] s t) ∧
  (∀ (p : Port) (s : State), s.portActive p = true → (s.port p).there = true →
    ∃ t, exec (.partnerLost p) s = .next t ∧ t.flag (LNK_STATUS.PARTNER_LOST p) = true ∧ (t.port p).there = false ∧
      t.fld LNK_BARKER_CFG.LOST_CNT = satN 16 (s.fld LNK_BARKER_CFG.LOST_CNT + 1) ∧ t.time = s.time ∧ t.otp = s.otp) ∧
  (∀ (p : Port) (s : State), s.portActive p = true → (s.port p).there = true → p ≠ 0 → s.role = 1 →
    s.flag EVT_CFG.FWD = true → s.evtFiltered 7 5 = false →
    ∃ t, exec (.partnerLost p) s = .next t ∧ t.flag (LNK_STATUS.PARTNER_LOST p) = true ∧ (t.port p).there = false ∧
      t.fld LNK_BARKER_CFG.LOST_CNT = satN 16 (s.fld LNK_BARKER_CFG.LOST_CNT + 1) ∧ t.evtSeq = s.evtSeq + 1 ∧
      Steady s t ∧ RegsButEvents [LNK_STATUS.addr p, LNK_BARKER_CFG.addr] s t) ∧
  (∀ (p : Port) (s : State), s.portActive p = true → (s.port p).there = true → p ≠ 0 → s.role = 1 →
    s.portActive 0 = true → (s.port 0).waiting = [] → 0 < (s.port 0).credReq →
    ∃ t, exec (.partnerLost p) s = .next t ∧ t.flag (LNK_STATUS.PARTNER_LOST p) = true ∧ t.evtSeq = s.evtSeq + 1 ∧
      (t.port 0).sent = (s.port 0).sent ++
        [.frame ⟨(s.port 0).tx, 0, 4, 0, s.devIndex % 512, s.evtRec s.time.toNat 7 5 p 0 0 0⟩]) ∧
  (∀ (p : Port) (s : State), s.portActive p = true → (s.port p).there = true → p ≠ 0 → s.role = 2 →
    ∃ t, exec (.partnerLost p) s = .next t ∧ t.flag (LNK_STATUS.PARTNER_LOST p) = true ∧ (t.dev p).lost = true ∧
      (s.fld (LNK_STATUS.P_ROLE p) = 1 → ∀ i, i < 16 → (t.dev (17 + 16 * (p - 1) + i)).lost = true)) ∧
  (∀ (p : Port) (s : State), s.portActive p = true → (s.port p).there = false → exec (.partnerLost p) s = .next s)

/-- Frames (R308 to R310, R320, R321, R335): an ACK releases what it covers and gives credits back; a replay sends again,
and after 8 retries the port retrains; a request that arrives is acknowledged and answered with its words, its status, or
passed on with a tag of the next port, for which it waits where none is free; a reply or a timeout ends its request and
frees its tag, and in D3hot what a read has brought is kept for D0; the manager journals events and keeps join profiles and
reports; a bad frame asks once for what is expected next. What an ACK names, the last frame accepted, that it returns one
credit at acceptance, and what a frame carries, are the model's reading (notes/assumptions/33.md), and so is the data kept
(notes/assumptions/21.md). -/
def Obligations.LinkFramesComplete : Prop :=
  (∀ (p : Port) (seq : BitVec 16) (req rsp : BitVec 8) (s : State), s.portActive p = true → (s.port p).waiting = [] →
    ∃ t, exec (.ack p seq false req rsp) s = .next t ∧
      (t.port p).unacked = (s.port p).unacked.filter (fun u => !ackReleases seq.toNat false u.frame.seq) ∧
      (t.port p).credReq = min 64 ((s.port p).credReq + req.toNat) ∧
      (t.port p).credRsp = min 64 ((s.port p).credRsp + rsp.toNat) ∧ (t.port p).sent = (s.port p).sent ∧
      (∀ o, o ≠ p.val → t.port o = s.port o) ∧ t.withPorts s.ports = s) ∧
  (∀ (p : Port) (seq : BitVec 16) (req rsp : BitVec 8) (u : Unacked) (us : List Unacked) (s : State),
    s.portActive p = true → (s.port p).waiting = [] →
    (s.port p).unacked.filter (fun u => !ackReleases seq.toNat true u.frame.seq) = u :: us → u.retries < 8 →
    s.past (u.first + 4 * usFines) = false →
    ∃ t, exec (.ack p seq true req rsp) s = .next t ∧
      (t.port p).sent = (s.port p).sent ++ (u :: us).map (fun x => .frame x.frame) ∧
      (t.port p).unacked = (u :: us).map (fun x => { x with retries := x.retries + 1, last := s.time.toNat }) ∧
      t.fld (LNK_RETRY_COUNT.REPLAYS p) = min 65535 (s.fld (LNK_RETRY_COUNT.REPLAYS p) + (us.length + 1)) ∧
      (t.withRegs s.regs).withPorts s.ports = s ∧ RegsBut [LNK_RETRY_COUNT.addr p] s t) ∧
  (∀ (p : Port) (u : Unacked) (us : List Unacked) (s : State), s.portActive p = true → (s.port p).unacked = u :: us →
    u.retries < 8 → s.past (u.last + 3276800) = true → s.past (u.first + 4 * usFines) = false →
    ∃ t, exec (.replayTimeout p) s = .next t ∧
      (t.port p).sent = (s.port p).sent ++ (u :: us).map (fun x => .frame x.frame) ∧
      (t.port p).unacked = (u :: us).map (fun x => { x with retries := x.retries + 1, last := s.time.toNat }) ∧
      t.fld (LNK_RETRY_COUNT.REPLAYS p) = min 65535 (s.fld (LNK_RETRY_COUNT.REPLAYS p) + (us.length + 1)) ∧
      (t.withRegs s.regs).withPorts s.ports = s ∧ RegsBut [LNK_RETRY_COUNT.addr p] s t) ∧
  (∀ (p : Port) (u : Unacked) (us : List Unacked) (s : State), s.portActive p = true → (s.port p).unacked = u :: us →
    s.past (u.last + 3276800) = true → 8 ≤ u.retries ∨ s.past (u.first + 4 * usFines) = true → (s.port p).there = false →
    ∃ t, exec (.replayTimeout p) s = .next t ∧ t.fld (LNK_STATUS.STATE p) = 3 ∧
      t.fld (LNK_RETRY_COUNT.EXHAUSTED p) = satN 4 (s.fld (LNK_RETRY_COUNT.EXHAUSTED p) + 1) ∧
      t.evtSeq = s.evtSeq + 1 ∧ t.mode = s.mode ∧ Still s t) ∧
  (∀ (p : Port) (tag : BitVec 8) (x : TagSt) (q id : Nat) (c : HostCmd) (r : List HostCmd) (s : State),
    (s.port p).tags.find? (fun y => decide (y.tag = tag.toNat)) = some x → x.who = .cmd q id →
    takeCmd id (s.queue q).started = some (c, r) → (s.port p).held = [] →
    ∃ t, exec (.lnkTimeout p tag) s = .next t ∧ (t.port p).tags = (s.port p).tags.filter (fun y => decide (y.tag ≠ x.tag)) ∧
      t.queue q = (s.queue q).ended c r 9 0 ∧
      t.evtSeq = s.evtSeq + 1 ∧ t.mode = s.mode ∧ Still s t) ∧
  (∀ (p o : Port) (tag : BitVec 8) (x : TagSt) (g src : Nat) (s : State),
    (s.port p).tags.find? (fun y => decide (y.tag = tag.toNat)) = some x → x.who = .port o g src → o ≠ p →
    (s.port p).held = [] → s.portActive o = true → (s.port o).waiting = [] → 0 < (s.port o).credRsp →
    ∃ t, exec (.lnkTimeout p tag) s = .next t ∧ (t.port p).tags = (s.port p).tags.filter (fun y => decide (y.tag ≠ x.tag)) ∧
      (t.port o).sent = (s.port o).sent ++
        [.frame ⟨(s.port o).tx, g, if x.wr = true then 3 else 2, src, s.devIndex % 512, [1, 0]⟩] ∧
      t.evtSeq = s.evtSeq + 1 ∧ t.mode = s.mode ∧ Still s t) ∧
  (∀ (p : Port) (h : FrameHdr) (a count : Word) (s : State), Arrives p h s → s.forMe h = true → s.inService = true →
    0x1000000 ≤ a.toNat → a.toNat < 0x2000000 → a.toNat % 4 = 0 → count = 1 → (s.port p).waiting = [] →
    0 < (s.port p).credRsp →
    ∃ t, exec (.rdReq p h a count .clean) s = .next t ∧
      (t.port p).sent = (s.port p).sent ++ [.ack h.seq.toNat false 1 0,
        .frame ⟨(s.port p).tx, h.tag.toNat, 2, h.src.toNat, s.devIndex % 512,
          [0, 0, BitVec.ofNat 32 (leNat (s.poolBytes (a.toNat - 0x1000000) 4))]⟩] ∧
      (∀ o, o ≠ p.val → t.port o = s.port o) ∧ t.withPorts s.ports = s) ∧
  (∀ (p : Port) (h : FrameHdr) (a count : Word) (ecc : Ecc) (s : State), Arrives p h s → s.forMe h = true →
    remoteOk a.toNat count.toNat = false → (s.port p).waiting = [] → 0 < (s.port p).credRsp →
    ∃ t, exec (.rdReq p h a count ecc) s = .next t ∧
      (t.port p).sent = (s.port p).sent ++ [.ack h.seq.toNat false 1 0,
        .frame ⟨(s.port p).tx, h.tag.toNat, 2, h.src.toNat, s.devIndex % 512, [2, 0]⟩] ∧ t.withPorts s.ports = s) ∧
  (∀ (p : Port) (h : FrameHdr) (a count : Word) (ecc : Ecc) (o g : Nat) (s : State), Arrives p h s → s.forMe h = false →
    s.onward p h = some o → s.freeTag o = some g → (s.port o).held = [] → s.portActive o = true →
    (s.port o).waiting = [] → 0 < (s.port o).credReq →
    ∃ t, exec (.rdReq p h a count ecc) s = .next t ∧
      (t.port o).sent = (s.port o).sent ++
        [.frame ⟨(s.port o).tx, g, 0, h.dest.toNat, h.src.toNat, [a, count]⟩] ∧
      (t.port o).tags = (s.port o).tags ++ [⟨g, .port p h.tag.toNat h.src.toNat, false, s.time.toNat⟩] ∧
      t.withPorts s.ports = s) ∧
  (∀ (p : Port) (h : FrameHdr) (a count : Word) (ecc : Ecc) (o : Nat) (s : State), Arrives p h s → s.forMe h = false →
    s.onward p h = some o → s.freeTag o = none →
    ∃ t, exec (.rdReq p h a count ecc) s = .next t ∧ (t.port o).sent = (s.port o).sent ∧
      (t.port o).held = (s.port o).held ++
        [⟨.port p h.tag.toNat h.src.toNat, false, ⟨0, 0, 0, h.dest.toNat, h.src.toNat, [a, count]⟩⟩] ∧
      t.withPorts s.ports = s) ∧
  (∀ (p : Port) (h : FrameHdr) (a : Word) (words : List Word) (o g : Nat) (s : State), Arrives p h s → s.forMe h = false →
    s.onward p h = some o → s.freeTag o = some g → (s.port o).held = [] → s.portActive o = true →
    (s.port o).waiting = [] → 0 < (s.port o).credReq →
    ∃ t, exec (.wrReq p h a words) s = .next t ∧
      (t.port o).sent = (s.port o).sent ++
        [.frame ⟨(s.port o).tx, g, 1, h.dest.toNat, h.src.toNat, a :: BitVec.ofNat 32 words.length :: words⟩] ∧
      (t.port o).tags = (s.port o).tags ++ [⟨g, .port p h.tag.toNat h.src.toNat, true, s.time.toNat⟩] ∧
      t.withPorts s.ports = s) ∧
  (∀ (p : Port) (h : FrameHdr) (a : Word) (words : List Word) (s : State), Arrives p h s → s.forMe h = true →
    s.inService = true → 0x1000000 ≤ a.toNat → a.toNat + 4 * words.length ≤ 0x2000000 → a.toNat % 4 = 0 →
    1 ≤ words.length → words.length ≤ 64 → (s.port p).waiting = [] → 0 < (s.port p).credRsp →
    ∃ t, exec (.wrReq p h a words) s = .next t ∧
      (∀ i, i < 4 * words.length → t.poolAt (a.toNat - 0x1000000 + i) = (wordBytes words).getD i 0) ∧
      (∀ b, b < a.toNat - 0x1000000 ∨ a.toNat - 0x1000000 + 4 * words.length ≤ b → t.poolAt b = s.poolAt b) ∧
      (t.port p).sent = (s.port p).sent ++ [.ack h.seq.toNat false 1 0,
        .frame ⟨(s.port p).tx, h.tag.toNat, 3, h.src.toNat, s.devIndex % 512, [0, 0]⟩] ∧
      (t.withPorts s.ports).withPool s.pool = s) ∧
  (∀ (p : Port) (h : FrameHdr) (words : List Word) (x : TagSt) (q id : Nat) (c : HostCmd) (r : List HostCmd) (s : State),
    Arrives p h s → (s.port p).tags.find? (fun y => decide (y.tag = h.tag.toNat ∧ y.wr = false)) = some x →
    x.who = .cmd q id → takeCmd id (s.queue q).started = some (c, r) → (s.port p).held = [] → s.d3hot = false →
    ∃ t, exec (.rdRsp p h 0 words) s = .next t ∧
      (t.port p).tags = (s.port p).tags.filter (fun y => decide (y.tag ≠ x.tag)) ∧
      (∀ i, i < 4 * words.length → t.hostAt (argOf c 3 + i) = (wordBytes words).getD i 0) ∧
      t.queue q = (s.queue q).ended c r 0 0 ∧
      ((t.withPorts s.ports).withQueues s.queues).withHostMem s.hostMem = s) ∧
  (∀ (p : Port) (h : FrameHdr) (words : List Word) (x : TagSt) (q id : Nat) (s : State),
    Arrives p h s → (s.port p).tags.find? (fun y => decide (y.tag = h.tag.toNat ∧ y.wr = false)) = some x →
    x.who = .cmd q id → (s.port p).held = [] → s.d3hot = true → x.wr = false →
    ∃ t, exec (.rdRsp p h 0 words) s = .next t ∧
      (t.port p).tags = (s.port p).tags.filter (fun y => decide (y.tag ≠ x.tag)) ∧
      t.queue q = { s.queue q with owed := (s.queue q).owed ++ [(id, words)] } ∧
      (t.withPorts s.ports).withQueues s.queues = s) ∧
  (∀ (p : Port) (h : FrameHdr) (x : TagSt) (q id : Nat) (c : HostCmd) (r : List HostCmd) (s : State),
    Arrives p h s → (s.port p).tags.find? (fun y => decide (y.tag = h.tag.toNat ∧ y.wr = true)) = some x →
    x.who = .cmd q id → takeCmd id (s.queue q).started = some (c, r) → (s.port p).held = [] →
    ∃ t, exec (.wrRsp p h 0) s = .next t ∧
      (t.port p).tags = (s.port p).tags.filter (fun y => decide (y.tag ≠ x.tag)) ∧
      t.queue q = (s.queue q).ended c r 0 0 ∧
      (t.withPorts s.ports).withQueues s.queues = s) ∧
  (∀ (p : Port) (h : FrameHdr) (status : Word) (s : State), Arrives p h s →
    (∀ y ∈ (s.port p).tags, y.tag ≠ h.tag.toNat) → (∃ y ∈ s.retiredTags p, y.1 = h.tag.toNat) →
    ∃ t, exec (.wrRsp p h status) s = .next t ∧
      t.fld (LNK_RETRY_COUNT.LATE_RSP p) = satN 8 (s.fld (LNK_RETRY_COUNT.LATE_RSP p) + 1) ∧
      (t.withRegs s.regs).withPorts s.ports = s ∧ RegsBut [LNK_RETRY_COUNT.addr p] s t) ∧
  (∀ (p : Port) (h : FrameHdr) (record : List Word) (s : State), Arrives p h s → s.forMe h = true → s.role = 2 →
    record.length = 8 → bitsOf (record.getD 2 0).toNat 16 6 = 0 →
    ∃ t, exec (.eventFrame p h record) s = .next t ∧ t.fld EVT_WR.COUNT = (s.fld EVT_WR.COUNT + 1) % 2 ^ 32 ∧
      t.poolBytes (0xF00000 + 32 * (s.fld EVT_WR.COUNT % 32768)) 32 = wordBytes record ∧ t.evtSeq = s.evtSeq ∧ Steady s t ∧
      RegsButEvents [] s t) ∧
  (∀ (p : Port) (h : FrameHdr) (record : List Word) (s : State), s.portActive p = true →
    s.mode ≠ .safe → h.crcOk = false →
    (s.port p).nak = false →
    ∃ t, exec (.eventFrame p h record) s = .next t ∧ (t.port p).nak = true ∧
      (t.port p).sent = (s.port p).sent ++ [.ack (s.port p).rx true 0 0] ∧ (t.port p).rx = (s.port p).rx ∧
      t.withPorts s.ports = s) ∧
  (∀ (p : Port) (h : FrameHdr) (profile : List Word) (s : State), Arrives p h s → s.forMe h = true → s.role = 2 →
    s.profMismatch h.src.toNat (profile.take 4) = 0 →
    ∃ t, exec (.join p h profile) s = .next t ∧
      t.dev h.src.toNat = { profile := profile.take 4, mismatch := 0, lost := false } ∧
      (∀ d, d ≠ h.src.toNat → t.dev d = s.dev d) ∧ Steady s t ∧
      RegsBut [LNK_PROFILE.addr p 0, LNK_PROFILE.addr p 1, LNK_PROFILE.addr p 2, LNK_PROFILE.addr p 3] s t) ∧
  (∀ s : State, s.hasManager = true → s.portActive 0 = true → (s.port 0).waiting = [] → 0 < (s.port 0).credReq →
    ∃ t, exec .joinSend s = .next t ∧
      (t.port 0).sent = (s.port 0).sent ++ [.frame ⟨(s.port 0).tx, 0, 5, 0, s.devIndex % 512, s.profile⟩] ∧
      t.withPorts s.ports = s) ∧
  (∀ (p : Port) (h : FrameHdr) (sh : ShowId) (act : Act) (state reason : BitVec 8) (cycle at_ : BitVec 64) (s : State),
    Arrives p h s → s.forMe h = true → s.role = 2 →
    ∃ t, exec (.showReport p h sh act state reason cycle at_) s = .next t ∧
      Tab.get (fun _ => 0) (t.show_ sh).acts (16 * h.src.toNat + act) = state.toNat + 1 ∧
      (∀ x, x ≠ sh.val → t.show_ x = s.show_ x) ∧ Steady s t ∧ RegsBut [LNK_SHOW_CFG.addr sh] s t)

/-- Shows, benches and whistles (R173, R313 to R316, R320, R322, R323): a late member is benched; BENCH sets and clears
the module's bench; a taken whistle stops, parks, aborts, starts or cues the acts of its show, a repeated one does
nothing, one without a majority is counted; a whistle that the host sends takes the next WN and acts here too; a refused
one stores its RESULT alone. -/
def Obligations.ShowsAndWhistlesComplete : Prop :=
  (∀ (sh : ShowId) (d : Nat) (s : State), s.role = 2 → s.flag (LNK_SHOW_CFG.RUNNING sh) = true → d ∈ s.showDevs sh →
    d ∉ (s.show_ sh).ran → d ∉ (s.show_ sh).bad → s.devBenched sh d = false → s.flag (LNK_SHOW_CFG.ALL_OR_NONE sh) = false →
    ∃ t, exec (.showRunTimeout sh) s = .next t ∧ t.devBenched sh d = true ∧ t.mode = s.mode ∧ Still s t) ∧
  (∀ (sh : ShowId) (s : State), s.role = 2 → s.flag (LNK_SHOW_CFG.RUNNING sh) = true →
    (∀ d ∈ s.showDevs sh, d ∈ (s.show_ sh).ran ∨ s.devBenched sh d = true) →
    ∃ t, exec (.showRunTimeout sh) s = .next t ∧ t.withTime s.time = s) ∧
  (∀ (p : Port) (h : FrameHdr) (sh : ShowId) (clear : Bool) (s : State), Arrives p h s → s.forMe h = true →
    ∃ t, exec (.bench p h sh clear) s = .next t ∧ t.flag (LNK_SHOW_CFG.BENCHED sh) = !clear ∧ t.mode = s.mode ∧
      Still s t) ∧
  (∀ (sh : ShowId) (i : Fin 9) (v : Word) (s : State), s.inService = true →
    reservedBits (LNK_SHOW_BENCH.addr sh i) v = 0 → (i = 8 → v.toNat < 131072) →
    ∃ t, exec (.showUnbench sh i v) s = .next t ∧
      (∀ k, k < 32 → bitOf v.toNat k = true → (s.dev (32 * i + k)).mismatch = 0 → (s.dev (32 * i + k)).lost = false →
        t.devBenched sh (32 * i + k) = false) ∧
      (∀ k, k < 32 → bitOf v.toNat k = false → t.devBenched sh (32 * i + k) = s.devBenched sh (32 * i + k)) ∧
      t.mode = s.mode ∧ Still s t) ∧
  (∀ (p : Port) (w : WhistleIn) (s : State), s.portActive p = true → w.copies = true → s.whistleDup w = false →
    (∃ t, exec (.stopWhistle p w) s = .next t ∧
      Tab.get (fun _ => none) t.whistles.last w.origin.toNat = some (w.wn.toNat, s.time.toNat) ∧
      (∀ n : Act, n.val ∈ s.showActs w.sh → s.actState n = 3 → (s.act n).aborted = false → (s.act n).stop = none →
        t.actState n = 4 ∧ t.fld (SEQ_STATUS.STOP_REASON n) = 3) ∧ t.mode = s.mode ∧ Still s t) ∧
    (∃ t, exec (.parkWhistle p w) s = .next t ∧
      (∀ n : Act, n.val ∈ s.showActs w.sh → s.actState n = 3 → (s.act n).aborted = false →
        t.actState n = 4 ∧ t.fld (SEQ_STATUS.STOP_REASON n) = 0xF ∧ (t.act n).aborted = true) ∧
      t.mode = s.mode ∧ Still s t) ∧
    (∃ t, exec (.abortWhistle p w) s = .next t ∧
      (∀ n : Act, n.val ∈ s.showActs w.sh → s.actState n = 3 → (s.act n).aborted = false →
        t.actState n = 4 ∧ t.fld (SEQ_STATUS.STOP_REASON n) = 0xE ∧ (t.act n).aborted = true) ∧
      t.mode = s.mode ∧ Still s t)) ∧
  (∀ (p : Port) (w : WhistleIn) (at_ : BitVec 64) (s : State), s.portActive p = true → w.copies = true →
    s.whistleDup w = false → s.flag (LNK_SHOW_CFG.BENCHED w.sh) = false → s.flag SYS_STATUS.ORPHANED = false →
    ∃ t, exec (.startWhistle p w at_) s = .next t ∧
      (∀ n : Act, n.val ∈ s.showActs w.sh → s.actState n = 0 →
        t.actState n = 1 ∧ (t.act n).armedBy = some { timed := true, t := at_.toNat, show_ := w.sh }) ∧
      t.mode = s.mode ∧ Still s t) ∧
  (∀ (p : Port) (w : WhistleIn) (cue : BitVec 8) (at_ : BitVec 64) (s : State), s.portActive p = true → w.copies = true →
    s.whistleDup w = false →
    ∃ t, exec (.cueWhistle p w cue at_) s = .next t ∧
      (∀ n : Act, n.val ∈ s.showActs w.sh → s.executing n = true → (t.act n).cue = some (cue.toNat, at_.toNat)) ∧
      (∀ n : Act, n.val ∉ s.showActs w.sh → t.act n = s.act n) ∧ Steady s t ∧ RegsBut [LNK_WHISTLE_CFG.addr] s t) ∧
  (∀ (p : Port) (w : WhistleIn) (s : State), s.portActive p = true → w.copies = true → s.whistleDup w = true →
    exec (.stopWhistle p w) s = .next s) ∧
  (∀ (p : Port) (w : WhistleIn) (s : State), s.portActive p = true → w.copies = false →
    ∃ t, exec (.abortWhistle p w) s = .next t ∧
      t.fld (LNK_RETRY_COUNT.WHISTLE_BAD p) = satN 4 (s.fld (LNK_RETRY_COUNT.WHISTLE_BAD p) + 1) ∧
      OnlyRegs [LNK_RETRY_COUNT.addr p] s t) ∧
  (∀ (w : Whistle) (ws : List Whistle) (s : State), s.whistles.waiting = w :: ws →
    ∃ t, exec .whistleWindow s = .next t ∧ t.whistles.waiting = ws ∧ t.whistles.wn = (s.whistles.wn + 1) % 256 ∧
      t.fld LNK_WHISTLE_CFG.LAST_WN = (s.whistles.wn + 1) % 256 ∧ t.mode = s.mode ∧ Still s t ∧
      RegsBut [LNK_WHISTLE_CFG.addr] s t) ∧
  (∀ (sh : ShowId) (s : State), s.inService = true → s.whistleRoom = true →
    (∃ t, exec (.sendStop sh) s = .next t ∧ t.fld LNK_WHISTLE_CFG.RESULT = 0 ∧
      t.fld LNK_WHISTLE_CFG.LAST_WN = (s.whistles.wn + 1) % 256 ∧
      (∀ n : Act, n.val ∈ s.showActs sh → s.actState n = 3 → (s.act n).aborted = false → (s.act n).stop = none →
        t.actState n = 4 ∧ t.fld (SEQ_STATUS.STOP_REASON n) = 3) ∧ t.mode = s.mode ∧ Still s t) ∧
    (∃ t, exec (.sendPark sh) s = .next t ∧ t.fld LNK_WHISTLE_CFG.RESULT = 0 ∧
      t.fld LNK_WHISTLE_CFG.LAST_WN = (s.whistles.wn + 1) % 256 ∧
      (∀ n : Act, n.val ∈ s.showActs sh → s.actState n = 3 → (s.act n).aborted = false →
        t.actState n = 4 ∧ t.fld (SEQ_STATUS.STOP_REASON n) = 0xF) ∧ t.mode = s.mode ∧ Still s t) ∧
    (∃ t, exec (.sendAbort sh) s = .next t ∧ t.fld LNK_WHISTLE_CFG.RESULT = 0 ∧
      t.fld LNK_WHISTLE_CFG.LAST_WN = (s.whistles.wn + 1) % 256 ∧
      (∀ n : Act, n.val ∈ s.showActs sh → s.actState n = 3 → (s.act n).aborted = false →
        t.actState n = 4 ∧ t.fld (SEQ_STATUS.STOP_REASON n) = 0xE) ∧ t.mode = s.mode ∧ Still s t)) ∧
  (∀ (sh : ShowId) (s : State), s.inService = true → s.whistleRoom = false →
    ∃ t, exec (.sendStop sh) s = .next t ∧ t.fld LNK_WHISTLE_CFG.RESULT = 1 ∧ OnlyRegs [LNK_WHISTLE_CFG.addr] s t) ∧
  (∀ (sh : ShowId) (n : Act) (s : State), s.inService = true →
    s.sendRefuse 4 sh (s.pair LNK_WHISTLE_TIME_LO.addr) = 0 → s.flag (LNK_SHOW_CFG.BENCHED sh) = false →
    s.flag SYS_STATUS.ORPHANED = false → n.val ∈ s.showActs sh → s.actState n = 0 →
    ∃ t, exec (.sendStart sh) s = .next t ∧ t.fld LNK_WHISTLE_CFG.RESULT = 0 ∧
      t.flag (LNK_SHOW_CFG.RUNNING sh) = true ∧ (t.show_ sh).t = s.pair LNK_WHISTLE_TIME_LO.addr ∧ t.actState n = 1 ∧
      (t.act n).armedBy = some { timed := true, t := s.pair LNK_WHISTLE_TIME_LO.addr, show_ := sh } ∧
      t.mode = s.mode ∧ Still s t) ∧
  (∀ (sh : ShowId) (s : State), s.inService = true →
    s.sendRefuse 4 sh (s.pair LNK_WHISTLE_TIME_LO.addr) ≠ 0 →
    ∃ t, exec (.sendStart sh) s = .next t ∧
      t.fld LNK_WHISTLE_CFG.RESULT = s.sendRefuse 4 sh (s.pair LNK_WHISTLE_TIME_LO.addr) ∧
      OnlyRegs [LNK_WHISTLE_CFG.addr] s t) ∧
  (∀ (sh : ShowId) (cue : BitVec 8) (s : State), s.inService = true →
    s.sendRefuse 5 sh (s.pair LNK_WHISTLE_TIME_LO.addr) = 0 →
    ∃ t, exec (.sendCue sh cue) s = .next t ∧ t.fld LNK_WHISTLE_CFG.RESULT = 0 ∧
      t.fld LNK_WHISTLE_CFG.LAST_WN = (s.whistles.wn + 1) % 256 ∧
      (∀ n : Act, n.val ∈ s.showActs sh → s.executing n = true →
        (t.act n).cue = some (cue.toNat, s.pair LNK_WHISTLE_TIME_LO.addr)) ∧ t.mode = s.mode ∧ Still s t)

/-! ## The host interface (18) -/

/-- Queues, interrupts and resets (R324, R326 to R329, R331, R333, R335, R337): EN = 1 starts a ring at 0 with PHASE 1; the
doorbells store their index; a fetched command waits, ends as undefined, or answers as a duplicate, at once or with the
command that it repeats; ACT_WAIT and ACT_START end when what they wait for has come; an outcome is written as a completion;
a wait that exceeds HOST_TIMEOUT ends at that instant (that an NVM command ends after its unit, and that a reset lets cut
commands run on, is the model's reading, notes/assumptions/17.md); a Function Level Reset and a conventional reset (the
model's choice, notes/assumptions/41.md) disable every queue and set the mask bits (PRESUMED, notes/assumptions/38.md); the
power state is kept, and the return to D0 sends the interrupts and delivers the data that wait (notes/assumptions/21.md); a
doorbell sets its BD_IRQ bit; a suppressed journal interrupt is raised. -/
def Obligations.HostQueuesComplete : Prop :=
  (∀ (q : Queue) (v : Word) (s : State), s.inService = true → reservedBits (HOST_Q_CFG.addr q) v = 0 →
    wbit v 31 = true →
    ∃ t, exec (.queueEnable q v) s = .next t ∧ t.flag (HOST_Q_CFG.EN q) = true ∧
      t.fld (HOST_Q_CFG.VEC q) = wfld v (HOST_Q_CFG.VEC q) ∧ t.fld (HOST_Q_SQ_TAIL.TAIL q) = 0 ∧
      t.fld (HOST_Q_SQ_HEAD.HEAD q) = 0 ∧ t.fld (HOST_Q_CQ_HEAD.HEAD q) = 0 ∧ t.fld (HOST_Q_CQ_TAIL.TAIL q) = 0 ∧
      t.fld (HOST_Q_CQ_TAIL.PHASE q) = 1 ∧
      OnlyRegs [HOST_Q_CFG.addr q, HOST_Q_SQ_TAIL.addr q, HOST_Q_SQ_HEAD.addr q, HOST_Q_CQ_HEAD.addr q,
        HOST_Q_CQ_TAIL.addr q] s t) ∧
  (∀ (q : Queue) (v : Word) (s : State), s.inService = true → reservedBits (HOST_Q_CFG.addr q) v = 0 →
    wbit v 31 = false →
    ∃ t, exec (.queueDisable q v) s = .next t ∧ t.flag (HOST_Q_CFG.EN q) = false ∧ OnlyRegs [HOST_Q_CFG.addr q] s t) ∧
  (∀ (q : Queue) (v : Word) (s : State), s.inService = true →
    reservedBits (HOST_Q_SQ_TAIL.addr q) v = 0 →
    ringPasses (s.fld (HOST_Q_SQ_TAIL.TAIL q)) (wfld v (HOST_Q_SQ_TAIL.TAIL q)) (s.fld (HOST_Q_SQ_HEAD.HEAD q)) true = false →
    ∃ t, exec (.sqDoorbell q v) s = .next t ∧ t.fld (HOST_Q_SQ_TAIL.TAIL q) = wfld v (HOST_Q_SQ_TAIL.TAIL q) ∧
      OnlyRegs [HOST_Q_SQ_TAIL.addr q] s t) ∧
  (∀ (q : Queue) (v : Word) (s : State), s.inService = true →
    reservedBits (HOST_Q_CQ_HEAD.addr q) v = 0 → s.cqFull q = false →
    ringPasses (s.fld (HOST_Q_CQ_HEAD.HEAD q)) (wfld v (HOST_Q_CQ_HEAD.HEAD q)) (s.fld (HOST_Q_CQ_TAIL.TAIL q)) false = false →
    ∃ t, exec (.cqHeadWrite q v) s = .next t ∧ t.fld (HOST_Q_CQ_HEAD.HEAD q) = wfld v (HOST_Q_CQ_HEAD.HEAD q) ∧
      OnlyRegs [HOST_Q_CQ_HEAD.addr q] s t) ∧
  (∀ (q : Queue) (c : HostCmd) (s : State), s.mode ≠ .off → s.canFetch q = true →
    (∀ p, p < q.val → s.fetchFirst p = false) → (∀ w ∈ (s.queue q).window, w.id ≠ c.id.toNat) →
    (∀ d ∈ (s.queue q).waiting ++ (s.queue q).started ++ (s.queue q).cut, d.id ≠ c.id) →
    (∀ o ∈ (s.queue q).done, o.id ≠ c.id.toNat) →
    ∃ t, exec (.commandFetch q c) s = .next t ∧
      t.fld (HOST_Q_SQ_HEAD.HEAD q) = (s.fld (HOST_Q_SQ_HEAD.HEAD q) + 1) % 1024 ∧
      t.queue q = (if opcodeOk c.opcode.toNat = true then
          { s.queue q with waiting := (s.queue q).waiting ++ [c], waits := (s.queue q).waits ++ [(c.id.toNat, s.time.toNat)] }
        else { s.queue q with
          waits := (s.queue q).otherWaits c,
          done := (s.queue q).done ++ [{ outcome c 1 0 with began := false }] }) ∧
      (∀ p, p ≠ q.val → t.queue p = s.queue p) ∧ (t.withRegs s.regs).withQueues s.queues = s ∧
      RegsBut [HOST_Q_SQ_HEAD.addr q] s t) ∧
  (∀ (q : Queue) (c : HostCmd) (w : Compl) (s : State), s.mode ≠ .off → s.canFetch q = true →
    (∀ p, p < q.val → s.fetchFirst p = false) →
    (s.queue q).window.find? (fun x => decide (x.id = c.id.toNat)) = some w →
    ∃ t, exec (.commandFetch q c) s = .next t ∧
      t.queue q = { s.queue q with
        done := (s.queue q).done ++ [{ w with dup := true, irq := bitOf c.flags.toNat 0, began := false }] } ∧
      t.fld HOST_DUP_WINDOW.HITS = satN 16 (s.fld HOST_DUP_WINDOW.HITS + 1) ∧ t.evtSeq = s.evtSeq + 1 ∧ Steady s t ∧
      RegsButEvents [HOST_Q_SQ_HEAD.addr q, HOST_DUP_WINDOW.addr] s t) ∧
  (∀ (q : Queue) (c d : HostCmd) (s : State), s.mode ≠ .off → s.canFetch q = true →
    (∀ p, p < q.val → s.fetchFirst p = false) → (∀ w ∈ (s.queue q).window, w.id ≠ c.id.toNat) →
    d ∈ (s.queue q).waiting ++ (s.queue q).started ++ (s.queue q).cut → d.id = c.id →
    ∃ t, exec (.commandFetch q c) s = .next t ∧
      t.queue q = { s.queue q with dups := (s.queue q).dups ++ [c] } ∧
      t.fld HOST_DUP_WINDOW.HITS = satN 16 (s.fld HOST_DUP_WINDOW.HITS + 1) ∧ t.evtSeq = s.evtSeq + 1 ∧ Steady s t ∧
      RegsButEvents [HOST_Q_SQ_HEAD.addr q, HOST_DUP_WINDOW.addr] s t) ∧
  (∀ (q : Queue) (c : HostCmd) (s : State), s.mode = .off ∨ s.canFetch q = false ∨ (∃ p, p < q.val ∧ s.fetchFirst p = true) →
    exec (.commandFetch q c) s = .next s) ∧
  (∀ (q : Queue) (o w : Compl) (os : List Compl) (s : State), (s.queue q).done = o :: os →
    w = { o with at_ := some (o.at_.getD s.time.toNat) } →
    (∀ d ∈ (s.queue q).started ++ (s.queue q).cut, d.opcode ≠ 0x20 ∧ d.opcode ≠ 0x23) → s.cqRoom q = true → s.d3hot = false →
    ∃ t, exec (.commandComplete q) s = .next t ∧
      t.fld (HOST_Q_CQ_TAIL.TAIL q) = (s.fld (HOST_Q_CQ_TAIL.TAIL q) + 1) % 1024 ∧
      (∀ i, i < 32 → t.hostAt (s.pair (HOST_Q_CQ_BASE_LO.addr q) + 32 * s.fld (HOST_Q_CQ_TAIL.TAIL q) + i) =
        (s.complBytes q w).getD i 0) ∧
      (∀ a, a < s.pair (HOST_Q_CQ_BASE_LO.addr q) + 32 * s.fld (HOST_Q_CQ_TAIL.TAIL q) ∨
        s.pair (HOST_Q_CQ_BASE_LO.addr q) + 32 * s.fld (HOST_Q_CQ_TAIL.TAIL q) + 32 ≤ a → t.hostAt a = s.hostAt a) ∧
      t.queue q = { s.queue q with
        done := os ++ (s.queue q).dupsOf w, dups := (s.queue q).dupsBut o.id,
        window := if o.dup = true ∨ o.keep = false then (s.queue q).window else lastN 4096 ((s.queue q).window ++ [w]) } ∧
      (∀ p, p ≠ q.val → t.queue p = s.queue p) ∧
      (((t.withRegs s.regs).withQueues s.queues).withHostMem s.hostMem).withMsix s.msix = s ∧
      (o.irq = false → t.msix = s.msix ∧ RegsBut [HOST_Q_CQ_TAIL.addr q] s t) ∧
      RegsBut [HOST_Q_CQ_TAIL.addr q, MSIX_PBA.addr 0, MSIX_PBA.addr 1] s t) ∧
  (∀ (q : Queue) (c : HostCmd) (n : Nat) (ns : List Nat) (s : State), (s.queue q).started = [c] → (s.queue q).cut = [] →
    c.opcode = 0x23 → bitList (argOf c 0) 16 0 = n :: ns → s.actsStopped (argOf c 0) = true → s.cqRoom q = false →
    ∃ t, exec (.commandComplete q) s = .next t ∧
      t.queue q = (s.queue q).ended c [] 0 (s.fld (SEQ_STATUS.STOP_REASON n)) ∧
      t.withQueues s.queues = s) ∧
  (∀ (q : Queue) (c : HostCmd) (s : State), (s.queue q).started = [c] → (s.queue q).cut = [] → c.opcode = 0x20 →
    (∀ n ∈ bitList (argOf c 0) 16 0, s.startPending n = false) → s.cqRoom q = false →
    ∃ t, exec (.commandComplete q) s = .next t ∧
      t.queue q = (s.queue q).ended c [] 0 (s.startsRefused (argOf c 0) % 2 ^ 64) ∧
      t.withQueues s.queues = s) ∧
  (∀ (q : Queue) (c : HostCmd) (r : List HostCmd) (s : State), (s.queue q).waiting = c :: r →
    timeoutBounds c.opcode.toNat = true →
    ∃ t, exec (.cmdTimeout q c.id) s = .next t ∧ NeverStarted q c 8 s t ∧ t.evtSeq = s.evtSeq + 1 ∧ t.mode = s.mode ∧
      Still s t ∧ RegsButEvents [] s t ∧
      t.time = ((s.queue q).waits.find? (fun e => decide (e.1 = c.id.toNat))).elim s.time
        (fun e => (s.at_ (e.2 + usFines * s.fld HOST_TIMEOUT.TIMEOUT)).time)) ∧
  (∀ (q : Queue) (c : HostCmd) (r : List HostCmd) (j : NvmJob) (s : State),
    takeCmd c.id.toNat (s.queue q).waiting = none → s.nvm = some j → j.src = .cmd q c.id.toNat → s.jobUnit = true →
    j.owed = false → takeCmd c.id.toNat (s.queue q).started = some (c, r) →
    ∃ t, exec (.cmdTimeout q c.id) s = .next t ∧ t.nvm = some { j with aborted := true } ∧
      t.queue q = (s.queue q).ended c r 8 0 ∧ t.time = (s.at_ (j.since + usFines * s.fld HOST_TIMEOUT.TIMEOUT)).time ∧
      t.evtSeq = s.evtSeq + 1 ∧ t.mode = s.mode ∧ Still s t ∧ RegsButEvents [] s t) ∧
  (∀ (q : Queue) (c : HostCmd) (r : List HostCmd) (j : NvmJob) (s : State),
    takeCmd c.id.toNat (s.queue q).waiting = none → s.nvm = some j → j.src = .cmd q c.id.toNat → j.owed = true →
    takeCmd c.id.toNat (s.queue q).started = some (c, r) → (∀ d ∈ r ++ (s.queue q).cut, d.id ≠ c.id) →
    ∃ t, exec (.cmdTimeout q c.id) s = .next t ∧ t.nvm = none ∧ t.fld NVM_STATUS.RESULT = 9 ∧
      t.flag NVM_STATUS.BUSY = false ∧ t.queue q = (s.queue q).ended c r 8 0 ∧ t.evtSeq = s.evtSeq + 1 ∧
      t.mode = s.mode ∧ Still s t) ∧
  (∀ s : State, s.mode ≠ .off →
    ∃ t, exec .flr s = .next t ∧
      (∀ q : Queue, t.queue q = {
          window := (s.queue q).window, cut := (s.queue q).cut ++ (s.queue q).started,
          writes := (s.queue q).writes, owed := (s.queue q).owed } ∧ t.flag (HOST_Q_CFG.EN q) = false) ∧
      (∀ v, v < 64 → t.flag (MSIX_TABLE.MASK v) = true) ∧ t.fld EVT_RD.COUNT = 0 ∧ t.evtSeq = s.evtSeq + 1 ∧ Steady s t) ∧
  (∀ s : State, s.mode ≠ .off →
    ∃ t, exec .conventionalReset s = .next t ∧
      (∀ q : Queue, t.queue q = {
          window := (s.queue q).window, cut := (s.queue q).cut ++ (s.queue q).started,
          writes := (s.queue q).writes, owed := (s.queue q).owed } ∧ t.flag (HOST_Q_CFG.EN q) = false) ∧
      t.reg (MSIX_PBA.addr 0) = 0 ∧ t.reg (MSIX_PBA.addr 1) = 0 ∧ t.d3hot = false ∧ t.mode = s.mode ∧ t.time = s.time) ∧
  (∀ s : State, s.mode ≠ .off → exec (.powerStateChange true) s = .next (s.withD3hot true)) ∧
  (∀ s : State, s.mode ≠ .off → (∀ q : Queue, (s.queue q).owed = []) → (∀ j, s.nvm = some j → j.owed = false) →
    ∃ t, exec (.powerStateChange false) s = .next t ∧ t.d3hot = false ∧
      (∀ v, v < 64 → s.flag (MSIX_TABLE.MASK v) = false → t.flag (MSIX_PBA.PENDING v) = false) ∧
      (∀ v, v < 64 → s.flag (MSIX_TABLE.MASK v) = false → s.flag (MSIX_PBA.PENDING v) = true →
        Tab.get (fun _ => 0) t.msix v = Tab.get (fun _ => 0) s.msix v + 1) ∧
      ((t.withRegs s.regs).withMsix s.msix).withD3hot s.d3hot = s ∧
      RegsBut [MSIX_PBA.addr 0, MSIX_PBA.addr 1] s t) ∧
  (∀ (q : Queue) (id : Nat) (words : List Word) (c : HostCmd) (r : List HostCmd) (s : State), s.mode ≠ .off → s.nvm = none →
    (s.queue q).owed = [(id, words)] → (∀ p : Queue, p ≠ q → (s.queue p).owed = []) →
    takeCmd id (s.queue q).started = some (c, r) →
    ∃ t, exec (.powerStateChange false) s = .next t ∧ t.d3hot = false ∧ t.queue q = (s.queue q).ended c r 0 0 ∧
      (∀ i, i < 4 * words.length → t.hostAt (argOf c 3 + i) = (wordBytes words).getD i 0) ∧
      (∀ a, a < argOf c 3 ∨ argOf c 3 + 4 * words.length ≤ a → t.hostAt a = s.hostAt a) ∧
      (∀ p : Queue, p ≠ q → t.queue p = s.queue p) ∧ t.mode = s.mode ∧ t.time = s.time) ∧
  (∀ s : State, s.mode ≠ .off →
    exec .bdDoorbell s = .next (s.withPins { s.pins with bdIrq := s.pins.bdIrq ||| 8 })) ∧
  (∀ (t0 : Nat) (s : State), s.evtDefer = true → s.evtIrq = some t0 → (s.at_ (t0 + usFines)).past (t0 + usFines) = true →
    s.fld EVT_CFG.IRQ_LEVEL ≠ 0 → s.fld EVT_CFG.IRQ_LEVEL ≤ s.unread →
    ∃ t, exec .evtIrqDefer s = .next t ∧ t.evtDefer = false ∧ t.time = (s.at_ (t0 + usFines)).time ∧
      t.evtIrq = some t.time.toNat ∧ t.flag SYS_IRQ_STATUS.EVT = true ∧ t.mode = s.mode ∧ Still s t ∧
      RegsButEvents [] s t)

/-- Host commands that move data (R19, R138 to R140, R330, R351, Table 18-5): each ends OK with its bytes where they belong
and every other byte of that memory as it was; LOAD_BANK clears READY, and of an executing half ends with BUSY_SELF;
LOAD_BLOCK sets VALID where the hash prefix of the plain bytes matches, and ends with HASH_MISMATCH where it does not, with
REFUSED and RESULT 0x10 or 0x11 where an encrypted block has no key or does not open (R346); a failed host-memory request
ends with DMA_ERROR, sets its AER bit and writes nothing (notes/assumptions/17.md); REG_WRITE writes a word at a time
(R351), and ends with the last; a bad argument ends with BAD_ARG; in SAFE a command that is not SAFE-capable with
MODE_SAFE. -/
def Obligations.HostTransfersComplete : Prop :=
  (∀ (q : Queue) (c : HostCmd) (s : State), MayStart q 0 c s →
    ∃ t, exec (.nop q c.id) s = .next t ∧ Ended q c 0 0 s t ∧ t.withQueues s.queues = s) ∧
  (∀ (q : Queue) (c : HostCmd) (s : State), MayStart q 1 c s → s.d3hot = false → remoteOk (argOf c 0) (argOf c 1) = true →
    ∃ t, exec (.regRead q c.id .clean) s = .next t ∧ Ended q c 0 0 s t ∧
      (∀ i, i < 4 * argOf c 1 → t.hostAt (argOf c 2 + i) =
        (wordBytes (State.busReads .engine (argOf c 1) (argOf c 0) (s.startHead q)).1).getD i 0) ∧
      (∀ a, a < argOf c 2 ∨ argOf c 2 + 4 * argOf c 1 ≤ a → t.hostAt a = s.hostAt a) ∧
      t.mailbox = s.mailbox ∧ t.flash = s.flash ∧ t.otp = s.otp ∧
      t.regs = (State.busReads .engine (argOf c 1) (argOf c 0) (s.startHead q)).2.regs ∧ t.dram = s.dram ∧ t.banks = s.banks ∧ t.pool = s.pool ∧ t.mode = s.mode ∧ t.time = s.time ∧
      t.evtSeq = s.evtSeq) ∧
  (∀ (q : Queue) (c : HostCmd) (s : State), MayStart q 1 c s → s.d3hot = false → remoteOk (argOf c 0) (argOf c 1) = false →
    ∃ t, exec (.regRead q c.id .clean) s = .next t ∧ Ended q c 2 0 s t ∧ t.withQueues s.queues = s) ∧
  (∀ (q : Queue) (c : HostCmd) (bs : List Byte) (s : State), MayStart q 2 c s → s.inService = true →
    remoteOk (argOf c 0) (argOf c 1) = true → 0x1000000 ≤ argOf c 0 → argOf c 0 < 0x2000000 → bs.length = 4 * argOf c 1 →
    (∀ e ∈ (s.queue q).writes, e.1 ≠ c.id.toNat) →
    ∃ t, exec (.regWrite q c.id (.bytes bs)) s = .next t ∧
      (argOf c 1 = 1 → Ended q c 0 0 s t) ∧
      (1 < argOf c 1 → t.queue q = { s.queue q with
        waiting := (s.queue q).waiting.drop 1, waits := (s.queue q).otherWaits c, started := (s.queue q).started ++ [c],
        writes := (s.queue q).writes ++ [(c.id.toNat, argOf c 0 + 4, (bytesWords (argOf c 1) bs).drop 1)] }) ∧
      (∀ i, i < 4 → t.poolAt (argOf c 0 - 0x1000000 + i) = bs.getD i 0) ∧
      (∀ a, a < argOf c 0 - 0x1000000 ∨ argOf c 0 - 0x1000000 + 4 ≤ a → t.poolAt a = s.poolAt a) ∧
      (t.withPool s.pool).withQueues s.queues = s) ∧
  (∀ (q : Queue) (c : HostCmd) (r : List HostCmd) (data : HostData) (a : Nat) (w : Word) (ws : List Word) (s : State),
    s.inService = true → (s.queue q).writes.find? (fun e => decide (e.1 = c.id.toNat)) = some (c.id.toNat, a, w :: ws) →
    a % 4 = 0 → 0x1000000 ≤ a → a < 0x2000000 → takeCmd c.id.toNat (s.queue q).started = some (c, r) →
    ∃ t, exec (.regWrite q c.id data) s = .next t ∧
      t.queue q = (if ws = [] then (s.queue q).ended c r 0 0
        else { (s.queue q).forget c.id.toNat with
          writes := ((s.queue q).forget c.id.toNat).writes ++ [(c.id.toNat, a + 4, ws)] }) ∧
      (∀ i, i < 4 → t.poolAt (a - 0x1000000 + i) = (wordBytes [w]).getD i 0) ∧
      (∀ b, b < a - 0x1000000 ∨ a - 0x1000000 + 4 ≤ b → t.poolAt b = s.poolAt b) ∧
      (t.withPool s.pool).withQueues s.queues = s) ∧
  (∀ (q : Queue) (c : HostCmd) (e : DmaErr) (s : State), MayStart q 2 c s → remoteOk (argOf c 0) (argOf c 1) = true →
    (∀ e ∈ (s.queue q).writes, e.1 ≠ c.id.toNat) →
    ∃ t, exec (.regWrite q c.id (.failed e)) s = .next t ∧ Ended q c 0x0B 0 s t ∧
      t.aer = s.aer ||| BitVec.ofNat 4 (2 ^ Machine.DmaErr.bit e) ∧ (t.withAer s.aer).withQueues s.queues = s) ∧
  (∀ (q : Queue) (c : HostCmd) (bs : List Byte) (s : State), MayStart q 0x10 c s →
    dmaRange (argOf c 1) (argOf c 2) = true → bs.length = argOf c 2 → Clear (argOf c 1) bs.length s →
    ∃ t, exec (.dmaToDram q c.id (.bytes bs)) s = .next t ∧ Ended q c 0 0 s t ∧
      (∀ i, i < bs.length → t.dramAt (argOf c 1 + i) = bs.getD i 0) ∧
      (∀ a, a < argOf c 1 ∨ argOf c 1 + bs.length ≤ a → t.dramAt a = s.dramAt a) ∧
      (t.withDram s.dram).withQueues s.queues = s) ∧
  (∀ (q : Queue) (c : HostCmd) (bs : List Byte) (s : State), s.headCmd q c.id 0x10 = some c → s.mode = .safe →
    ∃ t, exec (.dmaToDram q c.id (.bytes bs)) s = .next t ∧ NeverStarted q c 3 s t ∧ t.withQueues s.queues = s) ∧
  (∀ (q : Queue) (c : HostCmd) (s : State), MayStart q 0x11 c s → s.d3hot = false →
    dmaRange (argOf c 0) (argOf c 2) = true →
    ∃ t, exec (.dmaFromDram q c.id .clean) s = .next t ∧ Ended q c 0 0 s t ∧
      (∀ i, i < argOf c 2 → t.hostAt (argOf c 1 + i) = s.dramAt (argOf c 0 + i)) ∧
      (∀ a, a < argOf c 1 ∨ argOf c 1 + argOf c 2 ≤ a → t.hostAt a = s.hostAt a) ∧
      (t.withHostMem s.hostMem).withQueues s.queues = s) ∧
  (∀ (q : Queue) (c : HostCmd) (bs : List Byte) (s : State), MayStart q 0x12 c s → bankRange c = true →
    s.halfExecuting (argOf c 1 % 16) (argOf c 1 / 16) = false → bs.length = argOf c 3 →
    ∃ t, exec (.loadBank q c.id (.bytes bs)) s = .next t ∧ Ended q c 0 0 s t ∧
      (∀ i, i < bs.length →
        t.bankAt (2097152 * (argOf c 1 % 16) + 1048576 * (argOf c 1 / 16) + argOf c 2 + i) = bs.getD i 0) ∧
      (∀ a, a < 2097152 * (argOf c 1 % 16) + 1048576 * (argOf c 1 / 16) + argOf c 2 ∨
        2097152 * (argOf c 1 % 16) + 1048576 * (argOf c 1 / 16) + argOf c 2 + bs.length ≤ a → t.bankAt a = s.bankAt a) ∧
      t.flag (if argOf c 1 / 16 = 0 then SEQ_CTRL.READY_A (argOf c 1 % 16) else SEQ_CTRL.READY_B (argOf c 1 % 16)) = false ∧
      ((t.withBanks s.banks).withQueues s.queues).withRegs s.regs = s ∧
      RegsBut [SEQ_CTRL.addr (argOf c 1 % 16)] s t) ∧
  (∀ (q : Queue) (c : HostCmd) (bs : List Byte) (s : State), MayStart q 0x12 c s → bankRange c = true →
    s.halfExecuting (argOf c 1 % 16) (argOf c 1 / 16) = true → bs.length = argOf c 3 →
    ∃ t, exec (.loadBank q c.id (.bytes bs)) s = .next t ∧ Ended q c 4 0 s t ∧ t.withQueues s.queues = s) ∧
  (∀ (q : Queue) (c : HostCmd) (bs : List Byte) (n b : Nat) (s : State), MayStart q 0x13 c s → blockRange c = true →
    blockArgs c = (n, b, false) → s.executing n = false → bs.length = s.blockLen c →
    (s.blockEntry n b).1 + (s.blockEntry n b).2.1 * (s.blockEntry n b).2.2.1 ≤ dramSize →
    Clear (s.blockEntry n b).1 bs.length s →
    (s.blockEntry n b).1 + bs.length ≤ s.blockFlags n b ∨ s.blockFlags n b < (s.blockEntry n b).1 →
    ∃ t, exec (.loadBlock q c.id (.bytes bs)) s = .next t ∧
      (if (Config.sha384 bs).toNat / 2 ^ 256 = beNat (s.blockPrefix n b) then
        Ended q c 0 0 s t ∧ bitOf (t.dramAt (s.blockFlags n b)).toNat 0 = true
       else Ended q c 6 0 s t ∧ bitOf (t.dramAt (s.blockFlags n b)).toNat 0 = false) ∧
      (∀ i, i < bs.length → t.dramAt ((s.blockEntry n b).1 + i) = bs.getD i 0) ∧
      (∀ a, a < (s.blockEntry n b).1 ∨ (s.blockEntry n b).1 + bs.length ≤ a → a ≠ s.blockFlags n b →
        t.dramAt a = s.dramAt a) ∧ (t.withDram s.dram).withQueues s.queues = s) ∧
  (∀ (q : Queue) (c : HostCmd) (k : BitVec 256) (raw : List Byte) (n b : Nat) (s : State), MayStart q 0x13 c s →
    blockRange c = true → blockArgs c = (n, b, true) → s.executing n = false → raw.length = s.blockLen c →
    (s.blockEntry n b).1 + (s.blockEntry n b).2.1 * (s.blockEntry n b).2.2.1 ≤ dramSize →
    s.otp.patternKey = some k →
    (∀ out, out = Config.aesGcmOpen k (raw.take 12) (s.blockPrefix n b) ((raw.drop 12).take (raw.length - 28))
      (raw.drop (12 + (raw.length - 28))) →
    ((out = none → Clear (s.blockEntry n b).1 (raw.length - 28) s →
      ∃ t, exec (.loadBlock q c.id (.bytes raw)) s = .next t ∧ Ended q c 7 0x11 s t ∧
        (∀ a, a < (s.blockEntry n b).1 ∨ (s.blockEntry n b).1 + (raw.length - 28) ≤ a → a ≠ s.blockFlags n b →
          t.dramAt a = s.dramAt a) ∧ t.mode = s.mode ∧ t.time = s.time ∧ t.regs = s.regs) ∧
    (∀ bs, out = some bs → Clear (s.blockEntry n b).1 bs.length s →
      (s.blockEntry n b).1 + bs.length ≤ s.blockFlags n b ∨ s.blockFlags n b < (s.blockEntry n b).1 →
      ∃ t, exec (.loadBlock q c.id (.bytes raw)) s = .next t ∧
        (if (Config.sha384 bs).toNat / 2 ^ 256 = beNat (s.blockPrefix n b) then
          Ended q c 0 0 s t ∧ bitOf (t.dramAt (s.blockFlags n b)).toNat 0 = true
         else Ended q c 6 0 s t ∧ bitOf (t.dramAt (s.blockFlags n b)).toNat 0 = false) ∧
        (∀ i, i < bs.length → t.dramAt ((s.blockEntry n b).1 + i) = bs.getD i 0) ∧
        (∀ a, a < (s.blockEntry n b).1 ∨ (s.blockEntry n b).1 + bs.length ≤ a → a ≠ s.blockFlags n b →
          t.dramAt a = s.dramAt a) ∧ (t.withDram s.dram).withQueues s.queues = s)))) ∧
  (∀ (q : Queue) (c : HostCmd) (raw : List Byte) (n b : Nat) (s : State), MayStart q 0x13 c s → blockRange c = true →
    blockArgs c = (n, b, true) → s.executing n = false → raw.length = s.blockLen c →
    (s.blockEntry n b).1 + (s.blockEntry n b).2.1 * (s.blockEntry n b).2.2.1 ≤ dramSize → s.otp.patternKey = none →
    ∃ t, exec (.loadBlock q c.id (.bytes raw)) s = .next t ∧ Ended q c 7 0x10 s t ∧
      bitOf (t.dramAt (s.blockFlags n b)).toNat 0 = false ∧ (∀ a, a ≠ s.blockFlags n b → t.dramAt a = s.dramAt a) ∧
      (t.withDram s.dram).withQueues s.queues = s) ∧
  (∀ (q : Queue) (c : HostCmd) (n b : Nat) (enc : Bool) (e : DmaErr) (s : State), MayStart q 0x13 c s → blockRange c = true →
    blockArgs c = (n, b, enc) → s.executing n = false →
    (s.blockEntry n b).1 + (s.blockEntry n b).2.1 * (s.blockEntry n b).2.2.1 ≤ dramSize →
    ∃ t, exec (.loadBlock q c.id (.failed e)) s = .next t ∧ Ended q c 0x0B 0 s t ∧
      t.aer = s.aer ||| BitVec.ofNat 4 (2 ^ Machine.DmaErr.bit e) ∧
      bitOf (t.dramAt (s.blockFlags n b)).toNat 0 = false ∧ (∀ a, a ≠ s.blockFlags n b → t.dramAt a = s.dramAt a) ∧
      ((t.withDram s.dram).withAer s.aer).withQueues s.queues = s) ∧
  (∀ (q : Queue) (c : HostCmd) (n b : Nat) (enc : Bool) (e : DmaErr) (s : State), MayStart q 0x13 c s → blockRange c = true →
    blockArgs c = (n, b, enc) → s.executing n = true →
    ∃ t, exec (.loadBlock q c.id (.failed e)) s = .next t ∧ Ended q c 5 0 s t ∧ t.withQueues s.queues = s)

/-- Host commands on acts, rings, modes, the flash and the links (R87, R88, R146, R150, R192, R210, R212, R308, R316, Table
18-5): each acts as the register it stands for, and ends at once or stays in progress until what it waits for has come. A
command that its resource refuses ends with REFUSED and the resource's code in RESULT (Table 18-6); that an abort ends the
ACT_START that waits for its act's checks with ABORTED is the model's reading (notes/assumptions/17.md). -/
def Obligations.HostCommandsComplete : Prop :=
  (∀ (q : Queue) (c : HostCmd) (s : State), MayStart q 0x20 c s → argOf c 0 < 65536 →
    ∃ t, exec (.actStart q c.id) s = .next t ∧ Started q c s t ∧
      (∀ n : Act, bitOf (argOf c 0) n = true → s.actState n = 0 →
        t.actState n = 1 ∧ (t.act n).armedBy = some {} ∧ t.fld (SEQ_STATUS.START_RESULT n) = 0) ∧
      (∀ n : Act, bitOf (argOf c 0) n = false → t.act n = s.act n ∧ t.actState n = s.actState n)) ∧
  (∀ (q : Queue) (c : HostCmd) (s : State), MayStart q 0x21 c s → argOf c 0 < 65536 →
    ∃ t, exec (.actStop q c.id) s = .next t ∧ Ended q c 0 0 s t ∧
      (∀ n : Act, bitOf (argOf c 0) n = true → s.actState n = 3 → (s.act n).aborted = false → (s.act n).stop = none →
        t.actState n = 4 ∧ t.fld (SEQ_STATUS.STOP_REASON n) = 2) ∧
      (∀ n : Act, bitOf (argOf c 0) n = false → t.act n = s.act n ∧ t.actState n = s.actState n) ∧ Steady s t) ∧
  (∀ (q : Queue) (c : HostCmd) (s : State), MayStart q 0x22 c s → argOf c 0 < 65536 →
    (∀ n : Act, bitOf (argOf c 0) n = true → s.startPending n = false) →
    ∃ t, exec (.actAbort q c.id) s = .next t ∧ Ended q c 0 0 s t ∧
      (∀ n : Act, bitOf (argOf c 0) n = true → s.actState n = 3 → (s.act n).aborted = false →
        t.actState n = 4 ∧ t.fld (SEQ_STATUS.STOP_REASON n) = 0x0D ∧ (t.act n).aborted = true) ∧
      (∀ n : Act, bitOf (argOf c 0) n = false → t.act n = s.act n ∧ t.actState n = s.actState n) ∧ Steady s t) ∧
  (∀ (q p : Queue) (c d : HostCmd) (n : Act) (s : State), MayStart q 0x22 c s → argOf c 0 < 65536 →
    bitOf (argOf c 0) n = true → s.startPending n = true → d ∈ (s.queue p).started → d.opcode = 0x20 →
    bitOf (argOf d 0) n = true → outcome c 0 0 ∉ (s.queue q).done →
    ∃ t, exec (.actAbort q c.id) s = .next t ∧ outcome c 0 0 ∈ (t.queue q).done ∧
      ∃ o ∈ (t.queue p).done, o.id = d.id.toNat ∧ o.status = 0x0D) ∧
  (∀ (q : Queue) (c : HostCmd) (n : Nat) (ns : List Nat) (s : State), MayStart q 0x23 c s → argOf c 0 < 65536 →
    bitList (argOf c 0) 16 0 = n :: ns → s.actsStopped (argOf c 0) = true → (∀ d ∈ (s.queue q).started, d.opcode ≠ 0x23) →
    ∃ t, exec (.actWait q c.id) s = .next t ∧ Ended q c 0 (s.fld (SEQ_STATUS.STOP_REASON n)) s t ∧
      t.withQueues s.queues = s) ∧
  (∀ (q : Queue) (c : HostCmd) (s : State), MayStart q 0x23 c s → argOf c 0 < 65536 →
    s.actsStopped (argOf c 0) = false → (∀ d ∈ (s.queue q).started, d.opcode ≠ 0x23) →
    ∃ t, exec (.actWait q c.id) s = .next t ∧ Started q c s t ∧ t.withQueues s.queues = s) ∧
  (∀ (q : Queue) (c : HostCmd) (s : State), MayStart q 0x30 c s →
    ∃ t, exec (.tilePush q c.id) s = .next t ∧ Ended q c 0 0 s t ∧
      (∀ g : Ring, bitOf (argOf c 0) g = true → (s.ring g).push = none →
        s.streamOn (s.fld (FAIL_TILE_CFG.STREAM g)) = true →
        (t.ring g).push = some false ∧ t.flag (FAIL_TILE_STATUS.PUSHING g) = true) ∧
      (∀ g : Ring, bitOf (argOf c 0) g = false → t.ring g = s.ring g) ∧
      ((t.withQueues s.queues).withRings s.rings).withRegs s.regs = s) ∧
  (∀ (q : Queue) (c : HostCmd) (s : State), MayStart q 0x31 c s → argOf c 0 < 64 → s.rq.fin = none →
    s.flag RQ_STATUS.CLEARING = false → s.ringExecuting (argOf c 0) = false →
    ∃ t, exec (.finalize q c.id) s = .next t ∧ Started q c s t ∧ t.flag RQ_STATUS.FINALIZING = true ∧
      t.rq.fin = some ⟨argOf c 0, bitOf (argOf c 1) 0, decide (s.ringQueues (argOf c 0) = 0), some (q.val, c.id.toNat)⟩ ∧
      ((t.withQueues s.queues).withRq s.rq).withRegs s.regs = s ∧
      RegsBut [RQ_FINALIZE.addr, RQ_STATUS.addr] s t) ∧
  (∀ (q : Queue) (c : HostCmd) (s : State), MayStart q 0x32 c s → argOf c 0 < 64 → s.rq.fin = none →
    s.flag RQ_STATUS.CLEARING = false → s.ringExecuting (argOf c 0) = false →
    ∃ t, exec (.rqClear q c.id) s = .next t ∧ Ended q c 0 0 s t ∧ t.flag RQ_STATUS.CLEARING = true ∧
      (∀ k, s.ringQueue (argOf c 0) ≤ k → k < s.ringQueue (argOf c 0) + s.ringQueues (argOf c 0) → t.desc k = {}) ∧
      t.pushWaits (argOf c 0) = false ∧ Steady s t) ∧
  (∀ (q : Queue) (c : HostCmd) (s : State), MayStart q 0x40 c s → argOf c 0 = 2 → s.mode = .idle → s.flag SYS_STATUS.TRANSIT = false →
    (∀ n, n < 16 → s.actState n ≠ 1 ∧ s.actState n ≠ 2) →
    ∃ t, exec (.modeReq q c.id) s = .next t ∧ Ended q c 0 0 s t ∧ t.mode = .cal ∧ Still s t) ∧
  (∀ (q : Queue) (c : HostCmd) (s : State), MayStart q 0x40 c s → argOf c 0 = 3 → s.mode ≠ .cal →
    s.flag SYS_STATUS.TRANSIT = false →
    ∃ t, exec (.modeReq q c.id) s = .next t ∧ Ended q c 7 3 s t ∧ t.fld SYS_STATUS.REQ_RESULT = 3 ∧
      (t.withQueues s.queues).withRegs s.regs = s ∧ RegsBut [SYS_STATUS.addr] s t) ∧
  (∀ (q : Queue) (c : HostCmd) (data : HostData) (s : State), MayStart q 0x41 c s → argOf c 0 = 1 → argOf c 4 ≤ 1 →
    s.nvm = none → s.unit = none → s.persistWants = false → s.shed = none → s.persist.ahead = none →
    s.persist.wipe = none →
    s.nvmRefuse 1 (argOf c 1) (min (argOf c 2) 65536) 0 false = 0 →
    ∃ t, exec (.nvmCommand q c.id data) s = .next t ∧ Started q c s t ∧
      t.unit = some (.read (argOf c 1) (min (argOf c 2) 256)) ∧ t.flag NVM_STATUS.BUSY = true ∧
      t.fld NVM_STATUS.LAST_OP = 1 ∧ Steady s t ∧ RegsBut [NVM_STATUS.addr] s t) ∧
  (∀ (q : Queue) (c : HostCmd) (data : HostData) (s : State), MayStart q 0x41 c s → argOf c 0 = 3 → argOf c 4 ≤ 1 →
    s.nvm = none → s.nvmRefuse 3 (argOf c 1) (argOf c 2) (argOf c 4) false ≠ 0 →
    ∃ t, exec (.nvmCommand q c.id data) s = .next t ∧
      Ended q c 7 (s.nvmRefuse 3 (argOf c 1) (argOf c 2) (argOf c 4) false) s t ∧
      (t.withQueues s.queues).withRegs s.regs = s ∧ RegsBut [NVM_STATUS.addr] s t) ∧
  (∀ (q : Queue) (c : HostCmd) (p g : Nat) (s : State), MayStart q 0x50 c s → remoteRange c = true →
    s.remotePort (argOf c 0) = some p → s.freeTag p = some g → (s.port p).held = [] → s.portActive p = true → (s.port p).waiting = [] →
    0 < (s.port p).credReq →
    ∃ t, exec (.remoteRead q c.id) s = .next t ∧ Started q c s t ∧
      (t.port p).sent = (s.port p).sent ++ [.frame ⟨(s.port p).tx, g, 0, argOf c 0, s.devIndex % 512,
        [BitVec.ofNat 32 (argOf c 1), BitVec.ofNat 32 (argOf c 2)]⟩] ∧
      (t.port p).tags = (s.port p).tags ++ [⟨g, .cmd q c.id.toNat, false, s.time.toNat⟩] ∧
      (t.withPorts s.ports).withQueues s.queues = s) ∧
  (∀ (q : Queue) (c : HostCmd) (s : State), MayStart q 0x50 c s → remoteRange c = true →
    s.remotePort (argOf c 0) = none →
    ∃ t, exec (.remoteRead q c.id) s = .next t ∧ Ended q c 0x0A 0 s t ∧ t.evtSeq = s.evtSeq + 1 ∧ Steady s t) ∧
  (∀ (q : Queue) (c : HostCmd) (s : State), MayStart q 0x50 c s → remoteRange c = true → s.remoteReady (argOf c 0) = false →
    exec (.remoteRead q c.id) s = .next s) ∧
  (∀ (q : Queue) (c : HostCmd) (bs : List Byte) (p g : Nat) (s : State), MayStart q 0x51 c s → remoteRange c = true →
    bs.length = 4 * argOf c 2 → s.remotePort (argOf c 0) = some p → s.freeTag p = some g → (s.port p).held = [] → s.portActive p = true →
    (s.port p).waiting = [] → 0 < (s.port p).credReq →
    ∃ t, exec (.remoteWrite q c.id (.bytes bs)) s = .next t ∧ Started q c s t ∧
      (t.port p).sent = (s.port p).sent ++ [.frame ⟨(s.port p).tx, g, 1, argOf c 0, s.devIndex % 512,
        BitVec.ofNat 32 (argOf c 1) :: BitVec.ofNat 32 (argOf c 2) :: bytesWords (argOf c 2) bs⟩] ∧
      (t.port p).tags = (s.port p).tags ++ [⟨g, .cmd q c.id.toNat, true, s.time.toNat⟩] ∧
      (t.withPorts s.ports).withQueues s.queues = s) ∧
  (∀ (q : Queue) (c : HostCmd) (s : State), MayStart q 0x52 c s → whistleRange c = true →
    s.sendRefuse (bitsOf (argOf c 0) 0 3) (bitsOf (argOf c 0) 8 8) (argOf c 1) = 0 →
    ∃ t, exec (.whistle q c.id) s = .next t ∧ Ended q c 0 0 s t ∧
      t.fld LNK_WHISTLE_CFG.LAST_WN = (s.whistles.wn + 1) % 256 ∧ t.mode = s.mode ∧ Still s t) ∧
  (∀ (q : Queue) (c : HostCmd) (s : State), MayStart q 0x52 c s → whistleRange c = true →
    s.sendRefuse (bitsOf (argOf c 0) 0 3) (bitsOf (argOf c 0) 8 8) (argOf c 1) ≠ 0 →
    ∃ t, exec (.whistle q c.id) s = .next t ∧
      Ended q c 7 (s.sendRefuse (bitsOf (argOf c 0) 0 3) (bitsOf (argOf c 0) 8 8) (argOf c 1)) s t ∧
      (t.withQueues s.queues).withRegs s.regs = s ∧ RegsBut [LNK_WHISTLE_CFG.addr] s t)

/-! ## Life cycle and signed requests (19) -/

/-- Signed requests (R341, R343 to R345): a request that passes every other check of Table 19-5 is carried out where its
signature verifies and its fuses verify, and refused with BAD_SIG, with nothing blown, where the signature does not; a fuse
that does not is OTP_FAIL; at BADSIG = 8 it is refused with
LOCKED_OUT. The effects are those of the fuses: a key slot, a revoke fuse, the pattern key, the RETURN group with the
pattern key destroyed; SIGNED_CAL_COMMIT starts the commit. -/
def Obligations.SignedRequestsComplete : Prop :=
  (∀ (q : Queue) (c : HostCmd) (b : List Byte) (s : State), MayStart q 0x60 c s → b.length = argOf c 1 → Passes b s →
    reqType b = 1 → s.nvm = none → s.nvmRefuse 6 0 0 0 true = 0 →
    ∃ t, exec (.signedCalCommit q c.id (.bytes b)) s = .next t ∧ t.otp = s.otp ∧
      (s.sigOk b = true → Started q c s t ∧ t.flag LC_TOKEN_STATUS.BUSY = true ∧ t.fld LC_TOKEN_STATUS.TYPE = 1 ∧
        ∃ j, t.nvm = some j ∧ j.op = 6 ∧ j.lc = true ∧ j.src = .cmd q c.id.toNat) ∧
      (s.sigOk b = false → Ended q c 7 8 s t ∧ t.fld LC_TOKEN_STATUS.RESULT = 8 ∧ t.nvm = none)) ∧
  (∀ (q : Queue) (c : HostCmd) (b : List Byte) (s : State), MayStart q 0x60 c s → b.length = argOf c 1 → Passes b s →
    reqType b = 2 → s.lc = none → s.energyOk = true → s.shed = none →
    ∃ t, exec (.keyProgram q c.id (.bytes b)) s = .next t ∧
      (s.sigOk b = true → s.otp.fails (.key (reqSlot b) ((reqPayload b).drop 4)) = true →
        Ended q c 7 0x0F s t ∧ t.fld LC_TOKEN_STATUS.RESULT = 0x0F ∧ t.otp = s.otp) ∧
      (s.sigOk b = true → s.otp.fails (.key (reqSlot b) ((reqPayload b).drop 4)) = false → Ended q c 0 0 s t ∧ t.fld LC_TOKEN_STATUS.RESULT = 0 ∧
        Tab.get (fun _ => []) t.otp.keys (reqSlot b) = (reqPayload b).drop 4 ∧ { t.otp with keys := s.otp.keys } = s.otp) ∧
      (s.sigOk b = false → Ended q c 7 8 s t ∧ t.fld LC_TOKEN_STATUS.RESULT = 8 ∧ t.otp = s.otp)) ∧
  (∀ (q : Queue) (c : HostCmd) (b : List Byte) (s : State), MayStart q 0x60 c s → b.length = argOf c 1 → Passes b s →
    reqType b = 3 → s.lc = none → s.energyOk = true → s.shed = none →
    ∃ t, exec (.keyRevoke q c.id (.bytes b)) s = .next t ∧
      (s.sigOk b = true → s.otp.fails (.revoke (reqSlot b)) = true →
        Ended q c 7 0x0F s t ∧ t.fld LC_TOKEN_STATUS.RESULT = 0x0F ∧ t.otp = s.otp) ∧
      (s.sigOk b = true → s.otp.fails (.revoke (reqSlot b)) = false → Ended q c 0 0 s t ∧ t.fld LC_TOKEN_STATUS.RESULT = 0 ∧
        t.otp = { s.otp with revoked := s.otp.revoked ||| BitVec.ofNat 4 (2 ^ reqSlot b) }) ∧
      (s.sigOk b = false → Ended q c 7 8 s t ∧ t.fld LC_TOKEN_STATUS.RESULT = 8 ∧
        t.fld LC_TOKEN_STATUS.BADSIG = s.fld LC_TOKEN_STATUS.BADSIG + 1 ∧ t.otp = s.otp)) ∧
  (∀ (q : Queue) (c : HostCmd) (b : List Byte) (s : State), MayStart q 0x60 c s → b.length = argOf c 1 → Passes b s →
    reqType b = 4 → s.lc = none → s.energyOk = true → s.shed = none →
    ∃ t, exec (.decKeyProgram q c.id (.bytes b)) s = .next t ∧
      (s.sigOk b = true → 40 ∈ s.otp.defects →
        Ended q c 7 0x0F s t ∧ t.fld LC_TOKEN_STATUS.RESULT = 0x0F ∧ t.otp = s.otp) ∧
      (s.sigOk b = true → 40 ∉ s.otp.defects → Ended q c 0 0 s t ∧ t.fld LC_TOKEN_STATUS.RESULT = 0 ∧
        t.otp = { s.otp with patternKey := some (BitVec.ofNat 256 (leNat (reqPayload b))) }) ∧
      (s.sigOk b = false → Ended q c 7 8 s t ∧ t.otp = s.otp)) ∧
  (∀ (q : Queue) (c : HostCmd) (b : List Byte) (s : State), MayStart q 0x60 c s → b.length = argOf c 1 → Passes b s →
    reqType b = 0x10 → s.lc = none → s.energyOk = true → s.shed = none →
    ∃ t, exec (.returnAuth q c.id (.bytes b)) s = .next t ∧
      (s.sigOk b = true → s.otp.defects = [] → (∃ o ∈ (t.queue q).done, { o with keep := true } = outcome c 0 0) ∧
        t.otp = { s.otp with return_ := 7, patternKey := none, keyDestroyed := true }) ∧
      (s.sigOk b = false → Ended q c 7 8 s t ∧ t.otp = s.otp)) ∧
  (∀ (q : Queue) (c : HostCmd) (b : List Byte) (s : State), MayStart q 0x60 c s → b.length = argOf c 1 →
    reqType b = 3 → s.fld LC_TOKEN_STATUS.BADSIG = 8 →
    ∃ t, exec (.keyRevoke q c.id (.bytes b)) s = .next t ∧ Ended q c 7 0x0D s t ∧ t.fld LC_TOKEN_STATUS.RESULT = 0x0D ∧
      (t.withQueues s.queues).withRegs s.regs = s ∧ RegsBut [LC_TOKEN_STATUS.addr] s t)

/-- The life cycle (R339 to R342): an advance in IDLE or SAFE with no act executing blows every copy of its group and no
other fuse, or ends with OTP_FAIL at a fuse that does not verify; out of its state it stores BAD_STATE alone, outside IDLE
and SAFE or while acts execute it stores MODE; that MODE comes before BAD_STATE is the model's reading
(notes/assumptions/40.md). DEBUG_LOCK closes debug, in a TAP that is in it too; the TAP takes its instruction, debug only
where it is open, and a trim write only where trims are open. -/
def Obligations.LifeCycleCommandsComplete : Prop :=
  (∀ s : State, s.lcMode = true → s.flag LC_TOKEN_STATUS.BUSY = false → s.lcState = 0 → s.lc = none →
    s.energyOk = true → s.shed = none → (∀ k, k < 3 → s.otp.fails (.integration k) = false) →
    ∃ t, exec .advanceIntegration s = .next t ∧ t.otp = { s.otp with integration := 7 } ∧ t.pending = s.pending) ∧
  (∀ s : State, s.lcMode = true → s.flag LC_TOKEN_STATUS.BUSY = false → s.lcState = 1 → s.lc = none →
    s.energyOk = true → s.shed = none → s.keyLeft none = true → (∀ k, k < 3 → s.otp.fails (.field k) = false) →
    ∃ t, exec .advanceField s = .next t ∧ t.otp = { s.otp with field := 7 } ∧ t.pending = s.pending) ∧
  (∀ s : State, s.lcMode = true → s.flag LC_TOKEN_STATUS.BUSY = false → s.lcState = 0 → s.lc = none →
    s.energyOk = true → s.shed = none → s.otp.integration = 0 → s.otp.fails (.integration 0) = true →
    ∃ t, exec .advanceIntegration s = .next t ∧ t.otp = s.otp ∧ t.fld LC_TOKEN_STATUS.RESULT = 0x0F ∧
      t.flag LC_TOKEN_STATUS.BUSY = false ∧ t.mode = s.mode) ∧
  (∀ s : State, s.lcMode = true → s.flag LC_TOKEN_STATUS.BUSY = false → s.lcState ≠ 0 →
    ∃ t, exec .advanceIntegration s = .next t ∧ t.fld LC_TOKEN_STATUS.RESULT = 2 ∧ OnlyRegs [LC_TOKEN_STATUS.addr] s t) ∧
  (∀ s : State, s.lcMode = true → s.flag LC_TOKEN_STATUS.BUSY = false → s.lcState = 1 →
    s.keyLeft none = false →
    ∃ t, exec .advanceField s = .next t ∧ t.fld LC_TOKEN_STATUS.RESULT = 4 ∧ OnlyRegs [LC_TOKEN_STATUS.addr] s t) ∧
  (∀ s : State, s.mode ≠ .off → s.lcMode = false → s.flag LC_TOKEN_STATUS.BUSY = false →
    ∃ t, exec .advanceField s = .next t ∧ t.fld LC_TOKEN_STATUS.RESULT = 3 ∧ OnlyRegs [LC_TOKEN_STATUS.addr] s t) ∧
  (∀ s : State, s.mode ≠ .off →
    ∃ t, exec .debugLock s = .next t ∧ t.flag LC_DEBUG.DEBUG_LOCK = true ∧ t.flag LC_DEBUG.DEBUG_OPEN = false ∧
      t.flag LC_DEBUG.TRIM_OPEN = decide (s.lcState = 0) ∧ t.jtag = (if s.jtag = 2 then 0 else s.jtag) ∧
      OnlyRegs [LC_DEBUG.addr] (s.withJtag t.jtag) t) ∧
  (∀ s : State, s.mode ≠ .off → exec (.jtagInstruction .boundary) s = .next (s.withJtag 1)) ∧
  (∀ s : State, s.mode ≠ .off → exec (.jtagInstruction .bypass) s = .next (s.withJtag 0)) ∧
  (∀ s : State, s.mode ≠ .off →
    exec (.jtagInstruction .debug) s = .next (s.withJtag (if s.flag LC_DEBUG.DEBUG_OPEN = true then 2 else 0))) ∧
  (∀ (a : BitVec 32) (v : Word) (s : State), s.mode ≠ .off → s.flag LC_DEBUG.TRIM_OPEN = true →
    ∃ t, exec (.jtagInstruction (.trim a v)) s = .next t ∧ Tab.get (fun _ => 0) t.trims a.toNat = v ∧
      (∀ b, b ≠ a.toNat → Tab.get (fun _ => 0) t.trims b = Tab.get (fun _ => 0) s.trims b) ∧ t.withTrims s.trims = s) ∧
  (∀ (a : BitVec 32) (v : Word) (s : State), s.mode ≠ .off → s.flag LC_DEBUG.TRIM_OPEN = false →
    exec (.jtagInstruction (.trim a v)) s = .next s)

/-- Host errors (R6, R9, R57, R96, R131, R143, R158, R197, R199, R212, R265, R301, R328, Table 18-11): the module goes on, and
what R9 protects is as it was; that the act or block concerned is otherwise free is the model's choice (log 9). Reserved bits
written in any row that is a register write, a reserved microinstruction code in any FLOW row, reserved codes of a start, a PPMU
measurement, a SENSE conversion, a root, a calibration timeout, a trigger, a stream and a pin format, writes into executing
halves, rings, blocks, timing sets and level sets, ring indices past their limit, maps, partitions and block table entries out
of range. -/
def Obligations.HostErrorsGoOn : Prop :=
  (∀ (src : Src) (a : BitVec 26) (v : Word) (s : State), a.toNat % 4 = 0 → s.accessOf src a.toNat = .full →
    sramWindow a.toNat = none → reservedBits a.toNat v ≠ 0 →
    ∃ t, exec (.registerWrite src a v 0xF) s = .next t ∧
      (s.free.toNat % 2 = 0 ∨ (0x40000 ≤ a.toNat ∧ a.toNat < 0x50000) → Undisturbed s t)) ∧
  (∀ (c : Instr) (a : Nat) (v : Word) (s : State), rowWrite c = some (a, v) → s.access a = .full → reservedBits a v ≠ 0 →
    ∃ t, exec c s = .next t ∧ (s.free.toNat % 2 = 0 → Undisturbed s t)) ∧
  (∀ (src : Src) (a : BitVec 26) (v : Word) (be : BitVec 4) (s : State), a.toNat % 4 = 0 → s.accessOf src a.toNat = .full →
    0x2000000 ≤ a.toNat → s.halfExecuting ((a.toNat - 0x2000000) / 0x200000) ((a.toNat - 0x2000000) / 0x100000 % 2) = true →
    ∃ t, exec (.registerWrite src a v be) s = .next t ∧ Undisturbed (s.withBanks t.banks) t ∧
      (∀ b, b < a.toNat - 0x2000000 ∨ a.toNat - 0x2000000 + 4 ≤ b → t.bankAt b = s.bankAt b) ∧
      (∀ m, m ≠ (a.toNat - 0x2000000) / 0x200000 → t.act m = s.act m) ∧ t.mode = s.mode ∧ t.time = s.time ∧ t.otp = s.otp) ∧
  (∀ (src : Src) (a : BitVec 26) (r : RegRow) (ix : List Nat) (v : Word) (s : State), a.toNat % 4 = 0 →
    s.accessOf src a.toNat = .full → regAt a.toNat = some (r, ix) → reservedBits a.toNat v = 0 →
    (r.base ∈ [TMG_PERIOD_LO.addr 0 0, TMG_PERIOD_HI.addr 0 0] ∧ s.executing (ix.getD 0 0) = true) ∨
      (r.base ∈ [PIN_LVL_HI.addr 0 0, PIN_LVL_LO.addr 0 0, PIN_TS_FMT.addr 0 0, PIN_EDGE.addr 0 0] ∧
        s.chanExecuting (ix.getD 0 0) = true) →
    ∃ t, exec (.registerWrite src a v 0xF) s = .next t ∧ Undisturbed s t) ∧
  (∀ (n : Act) (k flow : Nat) (c : Instr) (s : State), s.canIssue n = true → uFlow (s.microWord n) = flow →
    flowRow n k flow = some c → uReserved (s.microWord n) = true →
    ∃ t, exec c s = .next t ∧ Undisturbed s t ∧ (∀ m, m ≠ n.val → t.act m = s.act m)) ∧
  (∀ (n : Act) (s : State), s.actState n = 1 → (s.act n).checked = false → s.timed n = false → 10 < s.fld (TMG_MODE.K n) →
    ∃ t, exec (.startChecks n) s = .next t ∧ (∀ m, m ≠ n.val → t.act m = s.act m) ∧ t.time = s.time ∧ Still s t) ∧
  (∀ (d : Die) (p : PassSt) (s : State), (s.die d).pass = some p → s.fld CAL_SCHED.TIMEOUT = 0 →
    ∃ t, exec (.calStarved d) s = .next t ∧ (s.free.toNat % 2 = 0 → t = s.takeFree) ∧
      (s.free.toNat % 2 = 1 → (t.die d).pass = none ∧
        t.fld CAL_REJECTS.STARVED = satN 16 (s.fld CAL_REJECTS.STARVED + 1)) ∧ Steady s t) ∧
  (∀ (c : Chan) (v : Word) (s : State), s.inService = true → reservedBits (PIN_PPMU_CFG.addr c) v = 0 →
    wbit v 31 = true → 9 ≤ wfld v (PIN_PPMU_CFG.MEAS_SEL c) → ∃ t, exec (.ppmuStart c v) s = .next t ∧ Undisturbed s t) ∧
  (∀ (m : Fin 32) (v : Word) (s : State), s.inService = true → reservedBits (MON_SENSE_MEAS.addr m) v = 0 →
    wbit v 31 = true → wfld v (MON_SENSE_MEAS.SEL m) = 3 →
    ∃ t, exec (.senseMeasStart m v) s = .next t ∧ Steady s t ∧ RegsBut [MON_SENSE_MEAS.addr m] s t) ∧
  (∀ (v : Word) (s : State), s.access CLK_ROOT_CFG.addr = .full → reservedBits CLK_ROOT_CFG.addr v = 0 →
    wfld v CLK_ROOT_CFG.ROOT_MHZ < 19200 ∨ 25600 < wfld v CLK_ROOT_CFG.ROOT_MHZ →
    ∃ t, exec (.rootChange v) s = .next t ∧ exec (.refSrcWrite v) s = .next t ∧ OnlyRegs [CLK_STATUS.addr] s.takeFree t) ∧
  (∀ (q : Queue) (v : Word) (s : State), s.inService = true → reservedBits (HOST_Q_SQ_TAIL.addr q) v = 0 →
    ringPasses (s.fld (HOST_Q_SQ_TAIL.TAIL q)) (wfld v (HOST_Q_SQ_TAIL.TAIL q)) (s.fld (HOST_Q_SQ_HEAD.HEAD q)) true = true →
    ∃ t, exec (.sqDoorbell q v) s = .next t ∧ Undisturbed s t ∧ (∀ p, p ≠ q.val → t.queue p = s.queue p)) ∧
  (∀ (q : Queue) (v : Word) (s : State), s.inService = true → reservedBits (HOST_Q_CQ_HEAD.addr q) v = 0 →
    ringPasses (s.fld (HOST_Q_CQ_HEAD.HEAD q)) (wfld v (HOST_Q_CQ_HEAD.HEAD q)) (s.fld (HOST_Q_CQ_TAIL.TAIL q)) false = true →
    ∃ t, exec (.cqHeadWrite q v) s = .next t ∧ Undisturbed s t ∧ (∀ p, p ≠ q.val → t.queue p = s.queue p)) ∧
  (∀ (a : BitVec 37) (bytes : List Byte) (s : State), s.inService = true → a.toNat + bytes.length ≤ dramSize →
    ∃ t, exec (.bar2Write a bytes) s = .next t ∧ Undisturbed s t) ∧
  (∀ (q : Queue) (c : HostCmd) (bs : List Byte) (s : State), MayStart q 0x10 c s →
    dmaRange (argOf c 1) (argOf c 2) = true → bs.length = argOf c 2 →
    ∃ t, exec (.dmaToDram q c.id (.bytes bs)) s = .next t ∧ Undisturbed s t ∧ Ended q c 0 0 s t) ∧
  (∀ (q : Queue) (c : HostCmd) (bs : List Byte) (n b : Nat) (enc : Bool) (s : State), MayStart q 0x13 c s →
    blockRange c = true → blockArgs c = (n, b, enc) → s.executing n = false → bs.length = s.blockLen c →
    dramSize < (s.blockEntry n b).1 + (s.blockEntry n b).2.1 * (s.blockEntry n b).2.2.1 →
    ∃ t status, exec (.loadBlock q c.id (.bytes bs)) s = .next t ∧ Undisturbed s t ∧ Ended q c status 0 s t) ∧
  (∀ (i : Fin 16) (size : Bool) (v : Word) (s : State), s.inService = true →
    reservedBits (if size then MEM_DRAM_PART_SIZE.addr i else MEM_DRAM_PART.addr i) v = 0 → s.anyExecuting = false →
    s.rq.fin = none → (s.setPart i size v).partsOk = false →
    (∀ k, k < 16 → s.streamOn k = false ∨ (s.setPart i size v).streamMisplaced k = false) →
    ∃ t, exec (.dramPartWrite i size v) s = .next t ∧ t.regs = (s.setPart i size v).regs ∧ Steady s t) ∧
  (∀ (g : Ring) (v : Word) (s : State), s.inService = true → reservedBits (RQ_MAP_CFG.addr g) v = 0 →
    s.ringExecuting g = false → 256 < wfld v (RQ_MAP_CFG.CHUNK_BASE g) + wfld v (RQ_MAP_CFG.CHUNK_CNT g) →
    ∃ t, exec (.rqMapCfgWrite g v) s = .next t ∧ Undisturbed s t) ∧
  (∀ (v : Word) (s : State), s.inService = true → reservedBits RQ_FINALIZE.addr v = 0 → wbit v 31 = true →
    s.rq.fin = none → s.flag RQ_STATUS.CLEARING = false → s.ringExecuting (wfld v RQ_FINALIZE.RING) = true →
    ∃ t, exec (.rqFinalize v) s = .next t ∧ Undisturbed s t) ∧
  (∀ (k : Trig) (v : Word) (n : Act) (s : State), s.mode = .idle ∨ s.mode = .run →
    reservedBits (ACQ_TRIG_CTRL.addr k) v = 0 → wbit v 31 = true → wbit v 30 = false → s.trigAct k = some n.val →
    (s.store (ACQ_TRIG_CTRL.addr k) v).trigReserved k = true →
    ∃ t, exec (.trigArm k v) s = .next t ∧ Undisturbed s t ∧ (∀ j, j ≠ k.val → t.trig j = s.trig j)) ∧
  (∀ (i : Stream) (v : Word) (s : State), s.mode = .idle ∨ s.mode = .run →
    reservedBits (ACQ_STREAM_CTRL.addr i) v = 0 → wbit v 31 = true → s.streamOn i = false →
    ((s.store (ACQ_STREAM_CTRL.addr i) v).put (ACQ_STREAM_CTRL.EN i) 0).streamReserved i = true ∨
      ((s.store (ACQ_STREAM_CTRL.addr i) v).put (ACQ_STREAM_CTRL.EN i) 0).streamMisplaced i = true →
    ∃ t, exec (.streamEnable i v) s = .next t ∧ Undisturbed s t ∧ (∀ j, j ≠ i.val → t.stream j = s.stream j)) ∧
  (∀ (c : Chan) (cyc : BitVec 64) (e : Fin 9) (raw : Bool) (p : PinVec) (n y : Nat) (s : State),
    (s.die (c / 64)).pins.find? (fun x => decide (x.vec.cycle = cyc.toNat)) = some p → s.actOfChan c = some n →
    s.timed n = true → p.sym c 0 = some y → symDrives y = true → 5 ≤ s.fmt c p.vec.tset →
    ∃ t, exec (.pinEdge c cyc (.edge e) raw) s = .next t ∧ Undisturbed s t ∧ (∀ m, m ≠ n → t.act m = s.act m)) ∧
  (∀ (i : Fin 16) (size : Bool) (v : Word) (s : State), s.inService = true →
    reservedBits (if size then MEM_DRAM_PART_SIZE.addr i else MEM_DRAM_PART.addr i) v = 0 → s.anyExecuting = false →
    s.rq.fin = none → ∃ t, exec (.dramPartWrite i size v) s = .next t ∧ Undisturbed (s.setPart i size v) t)

end
end

