-- ==== Sys2Proof/Laws/Bits.lean ====
section
/-! SUPPORT. Bit fields of numbers: what a field reads as after it, or another one, is replaced. -/

namespace Sys2Proof

set_option linter.unusedTactic false
set_option linter.unreachableTactic false
set_option linter.unnecessarySeqFocus false
set_option linter.unusedSimpArgs false

theorem setBits_div (v lo len x : Nat) : setBits v lo len x / 2 ^ lo = v / 2 ^ (lo + len) * 2 ^ len + x % 2 ^ len := by
  have hp : 0 < 2 ^ lo := Nat.two_pow_pos lo
  have hb : v % 2 ^ lo < 2 ^ lo := Nat.mod_lt _ hp
  unfold setBits
  have e : v / 2 ^ (lo + len) * 2 ^ (lo + len) + x % 2 ^ len * 2 ^ lo + v % 2 ^ lo =
      v % 2 ^ lo + 2 ^ lo * (v / 2 ^ (lo + len) * 2 ^ len + x % 2 ^ len) := by
    rw [pow_add]; ring
  rw [e, Nat.add_mul_div_left _ _ hp, Nat.div_eq_of_lt hb, Nat.zero_add]

theorem setBits_mod (v lo len x : Nat) : setBits v lo len x % 2 ^ lo = v % 2 ^ lo := by
  unfold setBits
  have e : v / 2 ^ (lo + len) * 2 ^ (lo + len) + x % 2 ^ len * 2 ^ lo + v % 2 ^ lo =
      v % 2 ^ lo + 2 ^ lo * (v / 2 ^ (lo + len) * 2 ^ len + x % 2 ^ len) := by
    rw [pow_add]; ring
  rw [e, Nat.add_mul_mod_self_left, Nat.mod_mod]

/-- A field replaced reads as the low bits of the new value. -/
@[simp] theorem bitsOf_setBits_same (v lo len x : Nat) : bitsOf (setBits v lo len x) lo len = x % 2 ^ len := by
  unfold bitsOf
  rw [setBits_div, Nat.add_comm, Nat.add_mul_mod_self_right, Nat.mod_mod]

theorem setBits_div_above (v lo len x : Nat) : setBits v lo len x / 2 ^ (lo + len) = v / 2 ^ (lo + len) := by
  rw [pow_add, ← Nat.div_div_eq_div_mul, setBits_div, Nat.add_comm, Nat.add_mul_div_right _ _ (Nat.two_pow_pos len),
    Nat.div_eq_of_lt (Nat.mod_lt _ (Nat.two_pow_pos len)), Nat.zero_add, ← pow_add]

/-- A field above the one replaced reads as before. -/
theorem bitsOf_setBits_above (v lo len x : Nat) {lo' len' : Nat} (h : lo + len ≤ lo') :
    bitsOf (setBits v lo len x) lo' len' = bitsOf v lo' len' := by
  obtain ⟨n, rfl⟩ := Nat.exists_eq_add_of_le h
  unfold bitsOf
  rw [pow_add 2 (lo + len) n, ← Nat.div_div_eq_div_mul, setBits_div_above, Nat.div_div_eq_div_mul]

/-- A field below the one replaced reads as before. -/
theorem bitsOf_setBits_below (v lo len x : Nat) {lo' len' : Nat} (h : lo' + len' ≤ lo) :
    bitsOf (setBits v lo len x) lo' len' = bitsOf v lo' len' := by
  have key : ∀ w : Nat, bitsOf w lo' len' = bitsOf (w % 2 ^ lo) lo' len' := by
    intro w
    obtain ⟨n, rfl⟩ := Nat.exists_eq_add_of_le h
    unfold bitsOf
    rw [add_assoc, pow_add, Nat.mod_mul_right_div_self, pow_add, Nat.mod_mul_right_mod]
  rw [key (setBits v lo len x), setBits_mod, ← key]

theorem setBits_lt (v lo len x : Nat) {n : Nat} (hv : v < 2 ^ n) (h : lo + len ≤ n) : setBits v lo len x < 2 ^ n := by
  obtain ⟨m, rfl⟩ := Nat.exists_eq_add_of_le h
  have h1 : setBits v lo len x / 2 ^ (lo + len) = v / 2 ^ (lo + len) := setBits_div_above v lo len x
  have h2 : v / 2 ^ (lo + len) < 2 ^ m := by
    rw [Nat.div_lt_iff_lt_mul (Nat.two_pow_pos _), ← pow_add, Nat.add_comm m]; exact hv
  rw [← h1, Nat.div_lt_iff_lt_mul (Nat.two_pow_pos _), ← pow_add, Nat.add_comm m] at h2
  exact h2

end Sys2Proof
end

