-- ==== Sys2Proof/Laws/Exec.lean ====
section
/-! SUPPORT. `exec` arm by arm, and the step on a queue with a command in front. -/

namespace Sys2Proof.Machine

@[simp] theorem exec_uvloStart (role : BitVec 2) (rma : Bool) (temps : List (BitVec 16)) (s : State) :
    exec (.uvloStart role rma temps) s = execUvloStart role rma temps s := rfl

@[simp] theorem exec_softStart (rail : Option (Fin 8)) (s : State) :
    exec (.softStart rail) s = execSoftStart rail s := rfl

@[simp] theorem exec_sramClear (failmap : BitVec 16) (s : State) :
    exec (.sramClear failmap) s = execSramClear failmap s := rfl

@[simp] theorem exec_returnErase (sfdp : Option Sfdp) (s : State) :
    exec (.returnErase sfdp) s = execReturnErase sfdp s := rfl

@[simp] theorem exec_selfTest (failmap : BitVec 16) (s : State) :
    exec (.selfTest failmap) s = execSelfTest failmap s := rfl

@[simp] theorem exec_dramTraining (bad : Option (Fin 4 × BitVec 16)) (s : State) :
    exec (.dramTraining bad) s = execDramTraining bad s := rfl

@[simp] theorem exec_nvmDiscovery (sfdp : Option Sfdp) (s : State) :
    exec (.nvmDiscovery sfdp) s = execNvmDiscovery sfdp s := rfl

@[simp] theorem exec_imageRead (s : State) :
    exec (.imageRead) s = execImageRead s := rfl

@[simp] theorem exec_apply (rb : List Readback) (s : State) :
    exec (.apply rb) s = execApply rb s := rfl

@[simp] theorem exec_idleEntry (s : State) :
    exec (.idleEntry) s = execIdleEntry s := rfl

@[simp] theorem exec_huCapMeasured (us : Nat) (hu : BitVec 16) (s : State) :
    exec (.huCapMeasured us hu) s = execHuCapMeasured us hu s := rfl

@[simp] theorem exec_resetBoot (s : State) :
    exec (.resetBoot) s = execResetBoot s := rfl

@[simp] theorem exec_enterCal (s : State) :
    exec (.enterCal) s = execEnterCal s := rfl

@[simp] theorem exec_leaveCal (s : State) :
    exec (.leaveCal) s = execLeaveCal s := rfl

@[simp] theorem exec_enterSafe (s : State) :
    exec (.enterSafe) s = execEnterSafe s := rfl

@[simp] theorem exec_fatalFault (code : Fin 13) (unit : BitVec 8) (detail : BitVec 16) (s : State) :
    exec (.fatalFault code unit detail) s = execFatalFault code unit detail s := rfl

@[simp] theorem exec_railFault (rail : Fin 8) (s : State) :
    exec (.railFault rail) s = execRailFault rail s := rfl

@[simp] theorem exec_clockLoss (s : State) :
    exec (.clockLoss) s = execClockLoss s := rfl

@[simp] theorem exec_hkWatchdog (s : State) :
    exec (.hkWatchdog) s = execHkWatchdog s := rfl

@[simp] theorem exec_tempSample (temps : List (BitVec 16)) (s : State) :
    exec (.tempSample temps) s = execTempSample temps s := rfl

@[simp] theorem exec_enOff (s : State) :
    exec (.enOff) s = execEnOff s := rfl

@[simp] theorem exec_pfail (s : State) :
    exec (.pfail) s = execPfail s := rfl

@[simp] theorem exec_offEntry (s : State) :
    exec (.offEntry) s = execOffEntry s := rfl

@[simp] theorem exec_vinLow (vin : BitVec 16) (s : State) :
    exec (.vinLow vin) s = execVinLow vin s := rfl

@[simp] theorem exec_vinSurge (vin : BitVec 16) (s : State) :
    exec (.vinSurge vin) s = execVinSurge vin s := rfl

@[simp] theorem exec_powerHigh (p : BitVec 16) (s : State) :
    exec (.powerHigh p) s = execPowerHigh p s := rfl

@[simp] theorem exec_rootChange (v : Word) (s : State) :
    exec (.rootChange v) s = execRootChange v s := rfl

@[simp] theorem exec_refSrcWrite (v : Word) (s : State) :
    exec (.refSrcWrite v) s = execRefSrcWrite v s := rfl

@[simp] theorem exec_rootChanged (bad : Option RetrainFail) (s : State) :
    exec (.rootChanged bad) s = execRootChanged bad s := rfl

@[simp] theorem exec_refLost (s : State) :
    exec (.refLost) s = execRefLost s := rfl

@[simp] theorem exec_refRestored (s : State) :
    exec (.refRestored) s = execRefRestored s := rfl

@[simp] theorem exec_ocxoWarm (s : State) :
    exec (.ocxoWarm) s = execOcxoWarm s := rfl

@[simp] theorem exec_timeWrap (s : State) :
    exec (.timeWrap) s = execTimeWrap s := rfl

@[simp] theorem exec_syncExchange (s : State) :
    exec (.syncExchange) s = execSyncExchange s := rfl

@[simp] theorem exec_syncReq (p : Port) (xch : BitVec 8) (rsp : SyncTurn) (s : State) :
    exec (.syncReq p xch rsp) s = execSyncReq p xch rsp s := rfl

@[simp] theorem exec_syncRsp (xch : BitVec 8) (turn : BitVec 24) (t2 : BitVec 64) (t4 : BitVec 64) (s : State) :
    exec (.syncRsp xch turn t2 t4) s = execSyncRsp xch turn t2 t4 s := rfl

@[simp] theorem exec_nvmRead (s : State) :
    exec (.nvmRead) s = execNvmRead s := rfl

@[simp] theorem exec_nvmProgram (s : State) :
    exec (.nvmProgram) s = execNvmProgram s := rfl

@[simp] theorem exec_nvmErase (s : State) :
    exec (.nvmErase) s = execNvmErase s := rfl

@[simp] theorem exec_eraseSlot (s : State) :
    exec (.eraseSlot) s = execEraseSlot s := rfl

@[simp] theorem exec_validateSlot (s : State) :
    exec (.validateSlot) s = execValidateSlot s := rfl

@[simp] theorem exec_calCommit (s : State) :
    exec (.calCommit) s = execCalCommit s := rfl

@[simp] theorem exec_nvmAbort (s : State) :
    exec (.nvmAbort) s = execNvmAbort s := rfl

@[simp] theorem exec_flashOpComplete (e : FlashEnd) (s : State) :
    exec (.flashOpComplete e) s = execFlashOpComplete e s := rfl

@[simp] theorem exec_holdupRetry (hu : BitVec 16) (s : State) :
    exec (.holdupRetry hu) s = execHoldupRetry hu s := rfl

@[simp] theorem exec_persistPage (s : State) :
    exec (.persistPage) s = execPersistPage s := rfl

@[simp] theorem exec_ppmuStart (c : Chan) (v : Word) (s : State) :
    exec (.ppmuStart c v) s = execPpmuStart c v s := rfl

@[simp] theorem exec_ppmuDone (c : Chan) (vs : List Int) (ok : Bool) (s : State) :
    exec (.ppmuDone c vs ok) s = execPpmuDone c vs ok s := rfl

@[simp] theorem exec_dacReadbackScan (c : Chan) (dac : BitVec 6) (uv : Int) (s : State) :
    exec (.dacReadbackScan c dac uv) s = execDacReadbackScan c dac uv s := rfl

@[simp] theorem exec_senseMeasStart (m : Fin 32) (v : Word) (s : State) :
    exec (.senseMeasStart m v) s = execSenseMeasStart m v s := rfl

@[simp] theorem exec_srefReadbackStart (m : Fin 32) (v : Word) (s : State) :
    exec (.srefReadbackStart m v) s = execSrefReadbackStart m v s := rfl

@[simp] theorem exec_conversionDone (sref : Bool) (m : Fin 32) (v : BitVec 24) (hi : Bool) (s : State) :
    exec (.conversionDone sref m v hi) s = execConversionDone sref m v hi s := rfl

@[simp] theorem exec_seqStart (n : Act) (v : Word) (s : State) :
    exec (.seqStart n v) s = execSeqStart n v s := rfl

@[simp] theorem exec_seqArm (n : Act) (v : Word) (s : State) :
    exec (.seqArm n v) s = execSeqArm n v s := rfl

@[simp] theorem exec_seqStop (n : Act) (v : Word) (s : State) :
    exec (.seqStop n v) s = execSeqStop n v s := rfl

@[simp] theorem exec_seqAbort (n : Act) (v : Word) (s : State) :
    exec (.seqAbort n v) s = execSeqAbort n v s := rfl

@[simp] theorem exec_startChecks (n : Act) (s : State) :
    exec (.startChecks n) s = execStartChecks n s := rfl

@[simp] theorem exec_actArmed (n : Act) (s : State) :
    exec (.actArmed n) s = execActArmed n s := rfl

@[simp] theorem exec_startTime (n : Act) (s : State) :
    exec (.startTime n) s = execStartTime n s := rfl

@[simp] theorem exec_nextVec (n : Act) (ecc : Ecc) (s : State) :
    exec (.nextVec n ecc) s = execNextVec n ecc s := rfl

@[simp] theorem exec_repeatVec (n : Act) (k : Nat) (s : State) :
    exec (.repeatVec n k) s = execRepeatVec n k s := rfl

@[simp] theorem exec_jump (n : Act) (s : State) :
    exec (.jump n) s = execJump n s := rfl

@[simp] theorem exec_call (n : Act) (s : State) :
    exec (.call n) s = execCall n s := rfl

@[simp] theorem exec_ret (n : Act) (s : State) :
    exec (.ret n) s = execRet n s := rfl

@[simp] theorem exec_loopVec (n : Act) (s : State) :
    exec (.loopVec n) s = execLoopVec n s := rfl

@[simp] theorem exec_endloop (n : Act) (s : State) :
    exec (.endloop n) s = execEndloop n s := rfl

@[simp] theorem exec_branch (n : Act) (s : State) :
    exec (.branch n) s = execBranch n s := rfl

@[simp] theorem exec_matchVec (n : Act) (k : Nat) (s : State) :
    exec (.matchVec n k) s = execMatchVec n k s := rfl

@[simp] theorem exec_matchTimeout (n : Act) (s : State) :
    exec (.matchTimeout n) s = execMatchTimeout n s := rfl

@[simp] theorem exec_waitTime (n : Act) (k : Nat) (s : State) :
    exec (.waitTime n k) s = execWaitTime n k s := rfl

@[simp] theorem exec_waitTimeReached (n : Act) (s : State) :
    exec (.waitTimeReached n) s = execWaitTimeReached n s := rfl

@[simp] theorem exec_waitWhistle (n : Act) (k : Nat) (s : State) :
    exec (.waitWhistle n k) s = execWaitWhistle n k s := rfl

@[simp] theorem exec_waitTimeout (n : Act) (s : State) :
    exec (.waitTimeout n) s = execWaitTimeout n s := rfl

@[simp] theorem exec_callBlock (n : Act) (k : Nat) (s : State) :
    exec (.callBlock n k) s = execCallBlock n k s := rfl

@[simp] theorem exec_swap (n : Act) (s : State) :
    exec (.swap n) s = execSwap n s := rfl

@[simp] theorem exec_markVec (n : Act) (s : State) :
    exec (.markVec n) s = execMarkVec n s := rfl

@[simp] theorem exec_halt (n : Act) (s : State) :
    exec (.halt n) s = execHalt n s := rfl

@[simp] theorem exec_prefetchRecord (n : Act) (k : Nat) (ecc : Ecc) (s : State) :
    exec (.prefetchRecord n k ecc) s = execPrefetchRecord n k ecc s := rfl

@[simp] theorem exec_forwardFrame (d : Die) (f : FwdFrame) (s : State) :
    exec (.forwardFrame d f) s = execForwardFrame d f s := rfl

@[simp] theorem exec_pinEdge (c : Chan) (cyc : BitVec 64) (e : PinEv) (raw : Bool) (s : State) :
    exec (.pinEdge c cyc e raw) s = execPinEdge c cyc e raw s := rfl

@[simp] theorem exec_returnFrame (d : Die) (f : RetFrame) (ecc : Ecc) (s : State) :
    exec (.returnFrame d f ecc) s = execReturnFrame d f ecc s := rfl

@[simp] theorem exec_rqPushApply (ecc : PushEcc) (s : State) :
    exec (.rqPushApply ecc) s = execRqPushApply ecc s := rfl

@[simp] theorem exec_comparatorTransition (c : Chan) (low : Bool) (rise : Bool) (t : BitVec 70) (code : BitVec 9) (s : State) :
    exec (.comparatorTransition c low rise t code) s = execComparatorTransition c low rise t code s := rfl

@[simp] theorem exec_burstTimeout (c : Chan) (s : State) :
    exec (.burstTimeout c) s = execBurstTimeout c s := rfl

@[simp] theorem exec_endOfL (n : Act) (t : BitVec 64) (s : State) :
    exec (.endOfL n t) s = execEndOfL n t s := rfl

@[simp] theorem exec_actStopped (n : Act) (s : State) :
    exec (.actStopped n) s = execActStopped n s := rfl

@[simp] theorem exec_failTilePush (g : Ring) (v : Word) (s : State) :
    exec (.failTilePush g v) s = execFailTilePush g v s := rfl

@[simp] theorem exec_tilePushPeriod (g : Ring) (s : State) :
    exec (.tilePushPeriod g) s = execTilePushPeriod g s := rfl

@[simp] theorem exec_tileClearDone (g : Ring) (s : State) :
    exec (.tileClearDone g) s = execTileClearDone g s := rfl

@[simp] theorem exec_rqCtrlClear (v : Word) (s : State) :
    exec (.rqCtrlClear v) s = execRqCtrlClear v s := rfl

@[simp] theorem exec_rqFinalize (v : Word) (s : State) :
    exec (.rqFinalize v) s = execRqFinalize v s := rfl

@[simp] theorem exec_rqFinalized (s : State) :
    exec (.rqFinalized) s = execRqFinalized s := rfl

@[simp] theorem exec_rqDescSel (v : Word) (ecc : Ecc) (s : State) :
    exec (.rqDescSel v ecc) s = execRqDescSel v ecc s := rfl

@[simp] theorem exec_rqMapCfgWrite (g : Ring) (v : Word) (s : State) :
    exec (.rqMapCfgWrite g v) s = execRqMapCfgWrite g v s := rfl

@[simp] theorem exec_tdcStart (c : Chan) (v : Word) (s : State) :
    exec (.tdcStart c v) s = execTdcStart c v s := rfl

@[simp] theorem exec_tdcAbort (c : Chan) (v : Word) (s : State) :
    exec (.tdcAbort c v) s = execTdcAbort c v s := rfl

@[simp] theorem exec_missClr (c : Chan) (v : Word) (s : State) :
    exec (.missClr c v) s = execMissClr c v s := rfl

@[simp] theorem exec_tdcArmTime (c : Chan) (s : State) :
    exec (.tdcArmTime c) s = execTdcArmTime c s := rfl

@[simp] theorem exec_tdcTimeout (c : Chan) (s : State) :
    exec (.tdcTimeout c) s = execTdcTimeout c s := rfl

@[simp] theorem exec_skewWindow (c : Chan) (s : State) :
    exec (.skewWindow c) s = execSkewWindow c s := rfl

@[simp] theorem exec_freqGate (c : Chan) (s : State) :
    exec (.freqGate c) s = execFreqGate c s := rfl

@[simp] theorem exec_tdcResult (c : Chan) (s : State) :
    exec (.tdcResult c) s = execTdcResult c s := rfl

@[simp] theorem exec_tdcStatusRead (src : Src) (c : Chan) (s : State) :
    exec (.tdcStatusRead src c) s = execTdcStatusRead src c s := rfl

@[simp] theorem exec_loRead (src : Src) (a : BitVec 26) (ecc : Ecc) (s : State) :
    exec (.loRead src a ecc) s = execLoRead src a ecc s := rfl

@[simp] theorem exec_trigArm (k : Trig) (v : Word) (s : State) :
    exec (.trigArm k v) s = execTrigArm k v s := rfl

@[simp] theorem exec_trigDisarm (k : Trig) (v : Word) (s : State) :
    exec (.trigDisarm k v) s = execTrigDisarm k v s := rfl

@[simp] theorem exec_trigStageTimeout (k : Trig) (s : State) :
    exec (.trigStageTimeout k) s = execTrigStageTimeout k s := rfl

@[simp] theorem exec_trigHoldoffEnd (k : Trig) (s : State) :
    exec (.trigHoldoffEnd k) s = execTrigHoldoffEnd k s := rfl

@[simp] theorem exec_streamEnable (j : Stream) (v : Word) (s : State) :
    exec (.streamEnable j v) s = execStreamEnable j v s := rfl

@[simp] theorem exec_streamDisable (j : Stream) (v : Word) (s : State) :
    exec (.streamDisable j v) s = execStreamDisable j v s := rfl

@[simp] theorem exec_integEnd (j : Stream) (d : Die) (s : State) :
    exec (.integEnd j d) s = execIntegEnd j d s := rfl

@[simp] theorem exec_recordWindowEnd (j : Stream) (s : State) :
    exec (.recordWindowEnd j) s = execRecordWindowEnd j s := rfl

@[simp] theorem exec_stampsClose (j : Stream) (s : State) :
    exec (.stampsClose j) s = execStampsClose j s := rfl

@[simp] theorem exec_streamRecord (j : Stream) (s : State) :
    exec (.streamRecord j) s = execStreamRecord j s := rfl

@[simp] theorem exec_streamCopy (r : StreamRead) (s : State) :
    exec (.streamCopy r) s = execStreamCopy r s := rfl

@[simp] theorem exec_livePassStart (d : Die) (s : State) :
    exec (.livePassStart d) s = execLivePassStart d s := rfl

@[simp] theorem exec_codeDensityDone (d : Die) (hits : List (List Nat)) (s : State) :
    exec (.codeDensityDone d hits) s = execCodeDensityDone d hits s := rfl

@[simp] theorem exec_livePassEnd (d : Die) (m : ChanMeas) (s : State) :
    exec (.livePassEnd d m) s = execLivePassEnd d m s := rfl

@[simp] theorem exec_calStarved (d : Die) (s : State) :
    exec (.calStarved d) s = execCalStarved d s := rfl

@[simp] theorem exec_calApplyWait (s : State) :
    exec (.calApplyWait) s = execCalApplyWait s := rfl

@[simp] theorem exec_fullRunDone (dies : List DieMeas) (ms : List FullMeas) (s : State) :
    exec (.fullRunDone dies ms) s = execFullRunDone dies ms s := rfl

@[simp] theorem exec_monPin (c : Chan) (uv : Int) (s : State) :
    exec (.monPin c uv) s = execMonPin c uv s := rfl

@[simp] theorem exec_monDisClear (c : Chan) (s : State) :
    exec (.monDisClear c) s = execMonDisClear c s := rfl

@[simp] theorem exec_dchkDisClear (c : Chan) (s : State) :
    exec (.dchkDisClear c) s = execDchkDisClear c s := rfl

@[simp] theorem exec_monSense (m : Fin 32) (uv : Int) (s : State) :
    exec (.monSense m uv) s = execMonSense m uv s := rfl

@[simp] theorem exec_senseRearm (m : Fin 32) (s : State) :
    exec (.senseRearm m) s = execSenseRearm m s := rfl

@[simp] theorem exec_senseBlankExpiry (m : Fin 32) (uv : Int) (s : State) :
    exec (.senseBlankExpiry m uv) s = execSenseBlankExpiry m uv s := rfl

@[simp] theorem exec_srefWrite (m : Fin 32) (v : Word) (s : State) :
    exec (.srefWrite m v) s = execSrefWrite m v s := rfl

@[simp] theorem exec_clrN (s : State) :
    exec (.clrN) s = execClrN s := rfl

@[simp] theorem exec_parkN (s : State) :
    exec (.parkN) s = execParkN s := rfl

@[simp] theorem exec_sysParkWrite (v : Word) (s : State) :
    exec (.sysParkWrite v) s = execSysParkWrite v s := rfl

@[simp] theorem exec_patrolRegion (ecc : PatrolEcc) (s : State) :
    exec (.patrolRegion ecc) s = execPatrolRegion ecc s := rfl

@[simp] theorem exec_patrolRegionDone (ok : Bool) (s : State) :
    exec (.patrolRegionDone ok) s = execPatrolRegionDone ok s := rfl

@[simp] theorem exec_boardRead (ba : BitVec 18) (coll : Option Word) (ecc : Ecc) (s : State) :
    exec (.boardRead ba coll ecc) s = execBoardRead ba coll ecc s := rfl

@[simp] theorem exec_boardWrite (ba : BitVec 18) (v : BitVec 16) (coll : BoardColl) (s : State) :
    exec (.boardWrite ba v coll) s = execBoardWrite ba v coll s := rfl

@[simp] theorem exec_bcsRelease (s : State) :
    exec (.bcsRelease) s = execBcsRelease s := rfl

@[simp] theorem exec_atomicAdd (a : AtomicAt) (wide : Bool) (v : BitVec 64) (s : State) :
    exec (.atomicAdd a wide v) s = execAtomicAdd a wide v s := rfl

@[simp] theorem exec_atomicSwap (a : AtomicAt) (wide : Bool) (v : BitVec 64) (s : State) :
    exec (.atomicSwap a wide v) s = execAtomicSwap a wide v s := rfl

@[simp] theorem exec_bar2Read (a : BitVec 37) (len : Nat) (ecc : Ecc) (s : State) :
    exec (.bar2Read a len ecc) s = execBar2Read a len ecc s := rfl

@[simp] theorem exec_bar2Write (a : BitVec 37) (bytes : List Byte) (s : State) :
    exec (.bar2Write a bytes) s = execBar2Write a bytes s := rfl

@[simp] theorem exec_dramPartWrite (j : Fin 16) (size : Bool) (v : Word) (s : State) :
    exec (.dramPartWrite j size v) s = execDramPartWrite j size v s := rfl

@[simp] theorem exec_seqCbMaskWrite (n : Act) (v : Word) (s : State) :
    exec (.seqCbMaskWrite n v) s = execSeqCbMaskWrite n v s := rfl

@[simp] theorem exec_failRingChWrite (g : Ring) (j : Fin 32) (v : Word) (s : State) :
    exec (.failRingChWrite g j v) s = execFailRingChWrite g j v s := rfl

@[simp] theorem exec_registerWrite (src : Src) (a : BitVec 26) (v : Word) (be : BitVec 4) (s : State) :
    exec (.registerWrite src a v be) s = execRegisterWrite src a v be s := rfl

@[simp] theorem exec_linkActive (p : Port) (res : TrainResult) (s : State) :
    exec (.linkActive p res) s = execLinkActive p res s := rfl

@[simp] theorem exec_retrain (p : Port) (s : State) :
    exec (.retrain p) s = execRetrain p s := rfl

@[simp] theorem exec_lnkPortCfgWrite (p : Port) (v : Word) (s : State) :
    exec (.lnkPortCfgWrite p v) s = execLnkPortCfgWrite p v s := rfl

@[simp] theorem exec_barkerSend (p : Port) (s : State) :
    exec (.barkerSend p) s = execBarkerSend p s := rfl

@[simp] theorem exec_barker (p : Port) (w : BitVec 56) (s : State) :
    exec (.barker p w) s = execBarker p w s := rfl

@[simp] theorem exec_partnerLost (p : Port) (s : State) :
    exec (.partnerLost p) s = execPartnerLost p s := rfl

@[simp] theorem exec_ack (p : Port) (seq : BitVec 16) (nak : Bool) (req : BitVec 8) (rsp : BitVec 8) (s : State) :
    exec (.ack p seq nak req rsp) s = execAck p seq nak req rsp s := rfl

@[simp] theorem exec_replayTimeout (p : Port) (s : State) :
    exec (.replayTimeout p) s = execReplayTimeout p s := rfl

@[simp] theorem exec_lnkTimeout (p : Port) (tag : BitVec 8) (s : State) :
    exec (.lnkTimeout p tag) s = execLnkTimeout p tag s := rfl

@[simp] theorem exec_rdReq (p : Port) (h : FrameHdr) (a : Word) (count : Word) (ecc : Ecc) (s : State) :
    exec (.rdReq p h a count ecc) s = execRdReq p h a count ecc s := rfl

@[simp] theorem exec_wrReq (p : Port) (h : FrameHdr) (a : Word) (words : List Word) (s : State) :
    exec (.wrReq p h a words) s = execWrReq p h a words s := rfl

@[simp] theorem exec_rdRsp (p : Port) (h : FrameHdr) (status : Word) (words : List Word) (s : State) :
    exec (.rdRsp p h status words) s = execRdRsp p h status words s := rfl

@[simp] theorem exec_wrRsp (p : Port) (h : FrameHdr) (status : Word) (s : State) :
    exec (.wrRsp p h status) s = execWrRsp p h status s := rfl

@[simp] theorem exec_eventFrame (p : Port) (h : FrameHdr) (rec : List Word) (s : State) :
    exec (.eventFrame p h rec) s = execEventFrame p h rec s := rfl

@[simp] theorem exec_join (p : Port) (h : FrameHdr) (profile : List Word) (s : State) :
    exec (.join p h profile) s = execJoin p h profile s := rfl

@[simp] theorem exec_joinSend (s : State) :
    exec (.joinSend) s = execJoinSend s := rfl

@[simp] theorem exec_showReport (p : Port) (h : FrameHdr) (sh : ShowId) (act : Act) (state : BitVec 8) (reason : BitVec 8) (cycle : BitVec 64) (t : BitVec 64) (s : State) :
    exec (.showReport p h sh act state reason cycle t) s = execShowReport p h sh act state reason cycle t s := rfl

@[simp] theorem exec_showRunTimeout (sh : ShowId) (s : State) :
    exec (.showRunTimeout sh) s = execShowRunTimeout sh s := rfl

@[simp] theorem exec_bench (p : Port) (h : FrameHdr) (sh : ShowId) (clear : Bool) (s : State) :
    exec (.bench p h sh clear) s = execBench p h sh clear s := rfl

@[simp] theorem exec_showUnbench (sh : ShowId) (j : Fin 9) (v : Word) (s : State) :
    exec (.showUnbench sh j v) s = execShowUnbench sh j v s := rfl

@[simp] theorem exec_stopWhistle (p : Port) (w : WhistleIn) (s : State) :
    exec (.stopWhistle p w) s = execStopWhistle p w s := rfl

@[simp] theorem exec_parkWhistle (p : Port) (w : WhistleIn) (s : State) :
    exec (.parkWhistle p w) s = execParkWhistle p w s := rfl

@[simp] theorem exec_abortWhistle (p : Port) (w : WhistleIn) (s : State) :
    exec (.abortWhistle p w) s = execAbortWhistle p w s := rfl

@[simp] theorem exec_startWhistle (p : Port) (w : WhistleIn) (t : BitVec 64) (s : State) :
    exec (.startWhistle p w t) s = execStartWhistle p w t s := rfl

@[simp] theorem exec_cueWhistle (p : Port) (w : WhistleIn) (cue : BitVec 8) (t : BitVec 64) (s : State) :
    exec (.cueWhistle p w cue t) s = execCueWhistle p w cue t s := rfl

@[simp] theorem exec_whistleWindow (s : State) :
    exec (.whistleWindow) s = execWhistleWindow s := rfl

@[simp] theorem exec_sendStop (sh : ShowId) (s : State) :
    exec (.sendStop sh) s = execSendStop sh s := rfl

@[simp] theorem exec_sendPark (sh : ShowId) (s : State) :
    exec (.sendPark sh) s = execSendPark sh s := rfl

@[simp] theorem exec_sendAbort (sh : ShowId) (s : State) :
    exec (.sendAbort sh) s = execSendAbort sh s := rfl

@[simp] theorem exec_sendStart (sh : ShowId) (s : State) :
    exec (.sendStart sh) s = execSendStart sh s := rfl

@[simp] theorem exec_sendCue (sh : ShowId) (cue : BitVec 8) (s : State) :
    exec (.sendCue sh cue) s = execSendCue sh cue s := rfl

@[simp] theorem exec_queueEnable (q : Queue) (v : Word) (s : State) :
    exec (.queueEnable q v) s = execQueueEnable q v s := rfl

@[simp] theorem exec_queueDisable (q : Queue) (v : Word) (s : State) :
    exec (.queueDisable q v) s = execQueueDisable q v s := rfl

@[simp] theorem exec_sqDoorbell (q : Queue) (v : Word) (s : State) :
    exec (.sqDoorbell q v) s = execSqDoorbell q v s := rfl

@[simp] theorem exec_commandFetch (q : Queue) (c : HostCmd) (s : State) :
    exec (.commandFetch q c) s = execCommandFetch q c s := rfl

@[simp] theorem exec_commandComplete (q : Queue) (s : State) :
    exec (.commandComplete q) s = execCommandComplete q s := rfl

@[simp] theorem exec_cqHeadWrite (q : Queue) (v : Word) (s : State) :
    exec (.cqHeadWrite q v) s = execCqHeadWrite q v s := rfl

@[simp] theorem exec_cmdTimeout (q : Queue) (id : BitVec 64) (s : State) :
    exec (.cmdTimeout q id) s = execCmdTimeout q id s := rfl

@[simp] theorem exec_flr (s : State) :
    exec (.flr) s = execFlr s := rfl

@[simp] theorem exec_nop (q : Queue) (id : BitVec 64) (s : State) :
    exec (.nop q id) s = execNop q id s := rfl

@[simp] theorem exec_regRead (q : Queue) (id : BitVec 64) (ecc : Ecc) (s : State) :
    exec (.regRead q id ecc) s = execRegRead q id ecc s := rfl

@[simp] theorem exec_regWrite (q : Queue) (id : BitVec 64) (data : HostData) (s : State) :
    exec (.regWrite q id data) s = execRegWrite q id data s := rfl

@[simp] theorem exec_dmaToDram (q : Queue) (id : BitVec 64) (data : HostData) (s : State) :
    exec (.dmaToDram q id data) s = execDmaToDram q id data s := rfl

@[simp] theorem exec_dmaFromDram (q : Queue) (id : BitVec 64) (ecc : Ecc) (s : State) :
    exec (.dmaFromDram q id ecc) s = execDmaFromDram q id ecc s := rfl

@[simp] theorem exec_loadBank (q : Queue) (id : BitVec 64) (data : HostData) (s : State) :
    exec (.loadBank q id data) s = execLoadBank q id data s := rfl

@[simp] theorem exec_loadBlock (q : Queue) (id : BitVec 64) (data : HostData) (s : State) :
    exec (.loadBlock q id data) s = execLoadBlock q id data s := rfl

@[simp] theorem exec_actStart (q : Queue) (id : BitVec 64) (s : State) :
    exec (.actStart q id) s = execActStart q id s := rfl

@[simp] theorem exec_actStop (q : Queue) (id : BitVec 64) (s : State) :
    exec (.actStop q id) s = execActStop q id s := rfl

@[simp] theorem exec_actAbort (q : Queue) (id : BitVec 64) (s : State) :
    exec (.actAbort q id) s = execActAbort q id s := rfl

@[simp] theorem exec_actWait (q : Queue) (id : BitVec 64) (s : State) :
    exec (.actWait q id) s = execActWait q id s := rfl

@[simp] theorem exec_tilePush (q : Queue) (id : BitVec 64) (s : State) :
    exec (.tilePush q id) s = execTilePush q id s := rfl

@[simp] theorem exec_finalize (q : Queue) (id : BitVec 64) (s : State) :
    exec (.finalize q id) s = execFinalize q id s := rfl

@[simp] theorem exec_rqClear (q : Queue) (id : BitVec 64) (s : State) :
    exec (.rqClear q id) s = execRqClear q id s := rfl

@[simp] theorem exec_modeReq (q : Queue) (id : BitVec 64) (s : State) :
    exec (.modeReq q id) s = execModeReq q id s := rfl

@[simp] theorem exec_nvmCommand (q : Queue) (id : BitVec 64) (data : HostData) (s : State) :
    exec (.nvmCommand q id data) s = execNvmCommand q id data s := rfl

@[simp] theorem exec_remoteRead (q : Queue) (id : BitVec 64) (s : State) :
    exec (.remoteRead q id) s = execRemoteRead q id s := rfl

@[simp] theorem exec_remoteWrite (q : Queue) (id : BitVec 64) (data : HostData) (s : State) :
    exec (.remoteWrite q id data) s = execRemoteWrite q id data s := rfl

@[simp] theorem exec_whistle (q : Queue) (id : BitVec 64) (s : State) :
    exec (.whistle q id) s = execWhistle q id s := rfl

@[simp] theorem exec_signedCalCommit (q : Queue) (id : BitVec 64) (data : HostData) (s : State) :
    exec (.signedCalCommit q id data) s = execSignedCalCommit q id data s := rfl

@[simp] theorem exec_keyProgram (q : Queue) (id : BitVec 64) (data : HostData) (s : State) :
    exec (.keyProgram q id data) s = execKeyProgram q id data s := rfl

@[simp] theorem exec_keyRevoke (q : Queue) (id : BitVec 64) (data : HostData) (s : State) :
    exec (.keyRevoke q id data) s = execKeyRevoke q id data s := rfl

@[simp] theorem exec_decKeyProgram (q : Queue) (id : BitVec 64) (data : HostData) (s : State) :
    exec (.decKeyProgram q id data) s = execDecKeyProgram q id data s := rfl

@[simp] theorem exec_returnAuth (q : Queue) (id : BitVec 64) (data : HostData) (s : State) :
    exec (.returnAuth q id data) s = execReturnAuth q id data s := rfl

@[simp] theorem exec_advanceIntegration (s : State) :
    exec (.advanceIntegration) s = execAdvanceIntegration s := rfl

@[simp] theorem exec_advanceField (s : State) :
    exec (.advanceField) s = execAdvanceField s := rfl

@[simp] theorem exec_debugLock (s : State) :
    exec (.debugLock) s = execDebugLock s := rfl

@[simp] theorem exec_bdDoorbell (s : State) :
    exec (.bdDoorbell) s = execBdDoorbell s := rfl

@[simp] theorem exec_evtIrqDefer (s : State) :
    exec (.evtIrqDefer) s = execEvtIrqDefer s := rfl

@[simp] theorem exec_parkNRelease (s : State) :
    exec (.parkNRelease) s = execParkNRelease s := rfl

@[simp] theorem exec_clrNRelease (s : State) :
    exec (.clrNRelease) s = execClrNRelease s := rfl

@[simp] theorem exec_vinSurgeEnd (vin : BitVec 16) (s : State) :
    exec (.vinSurgeEnd vin) s = execVinSurgeEnd vin s := rfl

@[simp] theorem exec_sourceValidAgain (seen : RefSeen) (s : State) :
    exec (.sourceValidAgain seen) s = execSourceValidAgain seen s := rfl

@[simp] theorem exec_ocxoWarmLost (s : State) :
    exec (.ocxoWarmLost) s = execOcxoWarmLost s := rfl

@[simp] theorem exec_partnerRateChange (p : Port) (s : State) :
    exec (.partnerRateChange p) s = execPartnerRateChange p s := rfl

@[simp] theorem exec_powerStateChange (d3 : Bool) (s : State) :
    exec (.powerStateChange d3) s = execPowerStateChange d3 s := rfl

@[simp] theorem exec_conventionalReset (s : State) :
    exec (.conventionalReset) s = execConventionalReset s := rfl

@[simp] theorem exec_rqClearDone (s : State) :
    exec (.rqClearDone) s = execRqClearDone s := rfl

@[simp] theorem exec_tilePushEnd (g : Ring) (s : State) :
    exec (.tilePushEnd g) s = execTilePushEnd g s := rfl

@[simp] theorem exec_holdupExhausted (s : State) :
    exec (.holdupExhausted) s = execHoldupExhausted s := rfl

@[simp] theorem exec_jtagInstruction (j : JtagInstr) (s : State) :
    exec (.jtagInstruction j) s = execJtagInstruction j s := rfl

/-- The step on a queue with a command in front: the command on the queue's rest. -/
theorem step_cons (s : State) (c : Instr) (cs : List Instr) :
    step (s.withPending (c :: cs)) = exec c (s.withPending cs) := rfl

end Sys2Proof.Machine
end

