-- ==== Sys2Proof/Laws/Tab.lean ====
section
/-! SUPPORT. Laws of the sparse tables: a read after a write, and the canonical form through every operation. -/

namespace Sys2Proof.Machine

set_option linter.unusedTactic false
set_option linter.unreachableTactic false
set_option linter.unnecessarySeqFocus false
set_option linter.unusedSimpArgs false

variable {α : Type} {d : Nat → α}

@[simp] theorem Tab.get_nil (k : Nat) : Tab.get d [] k = d k := rfl

theorem Tab.get_erase_same (t : Tab α) (k : Nat) : Tab.get d (Tab.erase t k) k = d k := by
  induction t with
  | nil => rfl
  | cons e t ih =>
    obtain ⟨k', v⟩ := e
    by_cases h : k = k' <;> simp [Tab.erase, Tab.get, h] <;> simpa [h] using ih

theorem Tab.get_erase_ne (t : Tab α) {k j : Nat} (h : j ≠ k) : Tab.get d (Tab.erase t k) j = Tab.get d t j := by
  induction t with
  | nil => rfl
  | cons e t ih =>
    obtain ⟨k', v⟩ := e
    by_cases hk : k = k'
    · subst hk; simp [Tab.erase, Tab.get, h, ih]
    · simp [Tab.erase, Tab.get, hk, ih]

theorem Tab.get_insert_same (t : Tab α) (k : Nat) (v : α) : Tab.get d (Tab.insert t k v) k = v := by
  induction t with
  | nil => simp [Tab.insert, Tab.get]
  | cons e t ih =>
    obtain ⟨k', v'⟩ := e
    simp only [Tab.insert]
    split_ifs with h1 h2
    · simp [Tab.get]
    · simp [Tab.get]
    · simp [Tab.get, h1, ih]

theorem Tab.get_insert_ne (t : Tab α) {k j : Nat} (v : α) (h : j ≠ k) :
    Tab.get d (Tab.insert t k v) j = Tab.get d t j := by
  induction t with
  | nil => simp [Tab.insert, Tab.get, h]
  | cons e t ih =>
    obtain ⟨k', v'⟩ := e
    simp only [Tab.insert]
    split_ifs with h1 h2
    · subst h1; simp [Tab.get, h]
    · simp [Tab.get, h]
    · simp [Tab.get, ih]

/-- A read after a write of the same key. -/
@[simp] theorem Tab.get_set_same [DecidableEq α] (t : Tab α) (k : Nat) (v : α) :
    Tab.get d (Tab.set d t k v) k = v := by
  unfold Tab.set
  split_ifs with h
  · rw [Tab.get_erase_same, h]
  · exact Tab.get_insert_same t k v

/-- A write leaves every other key alone. -/
theorem Tab.get_set_ne [DecidableEq α] (t : Tab α) {k j : Nat} (v : α) (h : j ≠ k) :
    Tab.get d (Tab.set d t k v) j = Tab.get d t j := by
  unfold Tab.set
  split_ifs
  · exact Tab.get_erase_ne t h
  · exact Tab.get_insert_ne t v h

/-- A read after a write. -/
theorem Tab.get_set [DecidableEq α] (t : Tab α) (k j : Nat) (v : α) :
    Tab.get d (Tab.set d t k v) j = if j = k then v else Tab.get d t j := by
  split_ifs with h
  · subst h; exact Tab.get_set_same t j v
  · exact Tab.get_set_ne t v h

/-- Consecutive keys written: a key below or above them reads as before. -/
theorem Tab.get_splice_out [DecidableEq α] (vs : List α) (t : Tab α) {k j : Nat} (h : j < k ∨ k + vs.length ≤ j) :
    Tab.get d (Tab.splice d t k vs) j = Tab.get d t j := by
  induction vs generalizing t k with
  | nil => rfl
  | cons v vs ih =>
    simp only [List.length_cons] at h
    simp only [Tab.splice]
    rw [ih (t := Tab.set d t k v) (by omega), Tab.get_set_ne _ _ (by omega)]

/-- Consecutive keys written read as what was written. -/
theorem Tab.get_splice_in [DecidableEq α] (vs : List α) (t : Tab α) {k j : Nat} (h1 : k ≤ j) (h2 : j < k + vs.length) :
    Tab.get d (Tab.splice d t k vs) j = vs.getD (j - k) (d j) := by
  induction vs generalizing t k with
  | nil => simp at h2; omega
  | cons v vs ih =>
    simp only [List.length_cons] at h2
    simp only [Tab.splice]
    by_cases h : j = k
    · subst h
      rw [Tab.get_splice_out _ _ (by omega)]
      simp
    · rw [ih (t := Tab.set d t k v) (by omega) (by omega)]
      obtain ⟨n, rfl⟩ : ∃ n, j = k + 1 + n := ⟨j - (k + 1), by omega⟩
      have h3 : k + 1 + n - k = n + 1 := by omega
      simp [h3]

/-- A range cleared: its keys read as unlisted ones, every other key as before. -/
theorem Tab.get_clearRange (t : Tab α) (k n j : Nat) :
    Tab.get d (Tab.clearRange t k n) j = if k ≤ j ∧ j < k + n then d j else Tab.get d t j := by
  induction t with
  | nil => simp [Tab.clearRange]
  | cons e t ih =>
    obtain ⟨k', v⟩ := e
    simp only [Tab.clearRange] at ih ⊢
    simp only [List.filter_cons]
    by_cases hk : k' < k ∨ k + n ≤ k'
    · simp only [hk, decide_true, if_true, Tab.get, ih]
      by_cases hj : j = k'
      · subst hj; rw [if_pos rfl, if_neg (by omega)]; simp
      · simp [hj]
    · simp only [hk, decide_false, Bool.false_eq_true, if_false, ih, Tab.get]
      by_cases hj : j = k'
      · subst hj; rw [if_pos (by omega), if_pos (by omega)]
      · simp [hj]

/-! ## Canonical form -/

theorem Tab.above_of_le {b c : Nat} (h : b ≤ c) (t : Tab α) (ha : Tab.above c t = true) : Tab.above b t = true := by
  cases t with
  | nil => rfl
  | cons e t => simp only [Tab.above, decide_eq_true_eq] at ha ⊢; omega

theorem Tab.above_erase [DecidableEq α] {b : Nat} (t : Tab α) (k : Nat) (ha : Tab.above b t = true)
    (hw : Tab.wf d t = true) : Tab.above b (Tab.erase t k) = true := by
  induction t with
  | nil => rfl
  | cons e t ih =>
    obtain ⟨k', v⟩ := e
    simp only [Tab.wf, Bool.and_eq_true, Tab.above, decide_eq_true_eq] at hw ha
    simp only [Tab.erase]
    split_ifs with h
    · exact ih (Tab.above_of_le (by omega) _ hw.1.2) hw.2
    · simp [Tab.above, ha]

theorem Tab.wf_erase [DecidableEq α] (t : Tab α) (k : Nat) (hw : Tab.wf d t = true) :
    Tab.wf d (Tab.erase t k) = true := by
  induction t with
  | nil => rfl
  | cons e t ih =>
    obtain ⟨k', v⟩ := e
    simp only [Tab.wf, Bool.and_eq_true] at hw
    simp only [Tab.erase]
    split_ifs with h
    · exact ih hw.2
    · simp only [Tab.wf, Bool.and_eq_true]
      exact ⟨⟨hw.1.1, Tab.above_erase t k hw.1.2 hw.2⟩, ih hw.2⟩

theorem Tab.wf_insert [DecidableEq α] (t : Tab α) (k : Nat) (v : α) (hv : v ≠ d k) (hw : Tab.wf d t = true) :
    Tab.wf d (Tab.insert t k v) = true ∧
      ∀ b, b < k → Tab.above b t = true → Tab.above b (Tab.insert t k v) = true := by
  induction t with
  | nil => exact ⟨by simp [Tab.insert, Tab.wf, Tab.above, hv], fun b hb _ => by simp [Tab.insert, Tab.above, hb]⟩
  | cons e t ih =>
    obtain ⟨k', v'⟩ := e
    simp only [Tab.wf, Bool.and_eq_true] at hw
    simp only [Tab.insert]
    split_ifs with h1 h2
    · subst h1
      exact ⟨by simp [Tab.wf, hv, hw.1.2, hw.2], fun b hb _ => by simp [Tab.above, hb]⟩
    · exact ⟨by simp_all [Tab.wf, Tab.above], fun b hb _ => by simp [Tab.above, hb]⟩
    · refine ⟨?_, fun b _ ha => by simpa [Tab.above] using ha⟩
      simp only [Tab.wf, Bool.and_eq_true]
      exact ⟨⟨hw.1.1, (ih hw.2).2 k' (by omega) hw.1.2⟩, (ih hw.2).1⟩

/-- A write keeps the canonical form. -/
theorem Tab.wf_set [DecidableEq α] (t : Tab α) (k : Nat) (v : α) (hw : Tab.wf d t = true) :
    Tab.wf d (Tab.set d t k v) = true := by
  unfold Tab.set
  split_ifs with h
  · exact Tab.wf_erase t k hw
  · exact (Tab.wf_insert t k v h hw).1

/-- Consecutive writes keep the canonical form. -/
theorem Tab.wf_splice [DecidableEq α] (vs : List α) (t : Tab α) (k : Nat) (hw : Tab.wf d t = true) :
    Tab.wf d (Tab.splice d t k vs) = true := by
  induction vs generalizing t k with
  | nil => exact hw
  | cons v vs ih => exact ih _ _ (Tab.wf_set t k v hw)

/-- Taking entries out keeps the canonical form. -/
theorem Tab.wf_filter [DecidableEq α] (p : Nat × α → Bool) (t : Tab α) (hw : Tab.wf d t = true) :
    Tab.wf d (t.filter p) = true ∧ ∀ b, Tab.above b t = true → Tab.above b (t.filter p) = true := by
  induction t with
  | nil => exact ⟨rfl, fun _ _ => rfl⟩
  | cons e t ih =>
    simp only [Tab.wf, Bool.and_eq_true] at hw
    obtain ⟨i1, i2⟩ := ih hw.2
    simp only [List.filter_cons]
    split_ifs
    · refine ⟨?_, fun b ha => by simpa [Tab.above] using ha⟩
      simp only [Tab.wf, Bool.and_eq_true]
      exact ⟨⟨hw.1.1, i2 _ hw.1.2⟩, i1⟩
    · refine ⟨i1, fun b ha => i2 b ?_⟩
      simp only [Tab.above, decide_eq_true_eq] at ha
      exact Tab.above_of_le (by omega) _ hw.1.2

/-- Clearing a range keeps the canonical form. -/
theorem Tab.wf_clearRange [DecidableEq α] (t : Tab α) (k n : Nat) (hw : Tab.wf d t = true) :
    Tab.wf d (Tab.clearRange t k n) = true := (Tab.wf_filter _ t hw).1

end Sys2Proof.Machine
end

