-- ==== Sys2Proof/Laws/State.lean ====
section
/-! SUPPORT. One field replaced: the field reads as the new value, every other field as before. The updates `withX` are
abbreviations, so `simp` reads any field of an updated state with no lemma named; `withX_others` lists those equations,
all true by `rfl`. -/

namespace Sys2Proof.Machine

set_option linter.unusedTactic false
set_option linter.unreachableTactic false
set_option linter.unnecessarySeqFocus false
set_option linter.unusedSimpArgs false

@[simp] theorem State.withPending_pending (s : State) (v : List Instr) : (s.withPending v).pending = v := rfl

theorem State.withPending_others (s : State) (v : List Instr) : (s.withPending v).pins = s.pins ∧ (s.withPending
    v).mode = s.mode ∧ (s.withPending v).shed = s.shed ∧ (s.withPending v).otp = s.otp ∧ (s.withPending v).regs =
    s.regs ∧ (s.withPending v).time = s.time ∧ (s.withPending v).slew = s.slew ∧ (s.withPending v).epoch = s.epoch ∧
    (s.withPending v).counting = s.counting ∧ (s.withPending v).latches = s.latches ∧ (s.withPending v).evtSeq =
    s.evtSeq ∧ (s.withPending v).evtIrq = s.evtIrq ∧ (s.withPending v).evtDefer = s.evtDefer ∧ (s.withPending v).msix
    = s.msix ∧ (s.withPending v).d3hot = s.d3hot ∧ (s.withPending v).dram = s.dram ∧ (s.withPending v).banks = s.banks
    ∧ (s.withPending v).pool = s.pool ∧ (s.withPending v).mailbox = s.mailbox ∧ (s.withPending v).flash = s.flash ∧
    (s.withPending v).hostMem = s.hostMem ∧ (s.withPending v).torn = s.torn ∧ (s.withPending v).sensors = s.sensors ∧
    (s.withPending v).alertArmed = s.alertArmed ∧ (s.withPending v).warnArmed = s.warnArmed ∧ (s.withPending
    v).persist = s.persist ∧ (s.withPending v).nvm = s.nvm ∧ (s.withPending v).unit = s.unit ∧ (s.withPending v).lc =
    s.lc ∧ (s.withPending v).eraseDue = s.eraseDue ∧ (s.withPending v).slotTried = s.slotTried ∧ (s.withPending
    v).booted = s.booted ∧ (s.withPending v).bodyHash = s.bodyHash ∧ (s.withPending v).hkOff = s.hkOff ∧
    (s.withPending v).hkLen = s.hkLen ∧ (s.withPending v).hkEntry = s.hkEntry ∧ (s.withPending v).sync = s.sync ∧
    (s.withPending v).acts = s.acts ∧ (s.withPending v).dies = s.dies ∧ (s.withPending v).chans = s.chans ∧
    (s.withPending v).rings = s.rings ∧ (s.withPending v).logBuf = s.logBuf ∧ (s.withPending v).logTime = s.logTime ∧
    (s.withPending v).rq = s.rq ∧ (s.withPending v).tdcs = s.tdcs ∧ (s.withPending v).units = s.units ∧ (s.withPending
    v).trigs = s.trigs ∧ (s.withPending v).streams = s.streams ∧ (s.withPending v).cal = s.cal ∧ (s.withPending
    v).ports = s.ports ∧ (s.withPending v).whistles = s.whistles ∧ (s.withPending v).shows = s.shows ∧ (s.withPending
    v).devs = s.devs ∧ (s.withPending v).queues = s.queues ∧ (s.withPending v).eccTime = s.eccTime ∧ (s.withPending
    v).jtag = s.jtag ∧ (s.withPending v).trims = s.trims ∧ (s.withPending v).patrol = s.patrol ∧ (s.withPending v).aer
    = s.aer ∧ (s.withPending v).ep = s.ep ∧ (s.withPending v).blanks = s.blanks ∧ (s.withPending v).reply = s.reply ∧
    (s.withPending v).freeCtr = s.freeCtr := by
  repeat' constructor

@[simp] theorem State.withPins_pins (s : State) (v : Pins) : (s.withPins v).pins = v := rfl

theorem State.withPins_others (s : State) (v : Pins) : (s.withPins v).pending = s.pending ∧ (s.withPins v).mode =
    s.mode ∧ (s.withPins v).shed = s.shed ∧ (s.withPins v).otp = s.otp ∧ (s.withPins v).regs = s.regs ∧ (s.withPins
    v).time = s.time ∧ (s.withPins v).slew = s.slew ∧ (s.withPins v).epoch = s.epoch ∧ (s.withPins v).counting =
    s.counting ∧ (s.withPins v).latches = s.latches ∧ (s.withPins v).evtSeq = s.evtSeq ∧ (s.withPins v).evtIrq =
    s.evtIrq ∧ (s.withPins v).evtDefer = s.evtDefer ∧ (s.withPins v).msix = s.msix ∧ (s.withPins v).d3hot = s.d3hot ∧
    (s.withPins v).dram = s.dram ∧ (s.withPins v).banks = s.banks ∧ (s.withPins v).pool = s.pool ∧ (s.withPins
    v).mailbox = s.mailbox ∧ (s.withPins v).flash = s.flash ∧ (s.withPins v).hostMem = s.hostMem ∧ (s.withPins v).torn
    = s.torn ∧ (s.withPins v).sensors = s.sensors ∧ (s.withPins v).alertArmed = s.alertArmed ∧ (s.withPins
    v).warnArmed = s.warnArmed ∧ (s.withPins v).persist = s.persist ∧ (s.withPins v).nvm = s.nvm ∧ (s.withPins v).unit
    = s.unit ∧ (s.withPins v).lc = s.lc ∧ (s.withPins v).eraseDue = s.eraseDue ∧ (s.withPins v).slotTried =
    s.slotTried ∧ (s.withPins v).booted = s.booted ∧ (s.withPins v).bodyHash = s.bodyHash ∧ (s.withPins v).hkOff =
    s.hkOff ∧ (s.withPins v).hkLen = s.hkLen ∧ (s.withPins v).hkEntry = s.hkEntry ∧ (s.withPins v).sync = s.sync ∧
    (s.withPins v).acts = s.acts ∧ (s.withPins v).dies = s.dies ∧ (s.withPins v).chans = s.chans ∧ (s.withPins
    v).rings = s.rings ∧ (s.withPins v).logBuf = s.logBuf ∧ (s.withPins v).logTime = s.logTime ∧ (s.withPins v).rq =
    s.rq ∧ (s.withPins v).tdcs = s.tdcs ∧ (s.withPins v).units = s.units ∧ (s.withPins v).trigs = s.trigs ∧
    (s.withPins v).streams = s.streams ∧ (s.withPins v).cal = s.cal ∧ (s.withPins v).ports = s.ports ∧ (s.withPins
    v).whistles = s.whistles ∧ (s.withPins v).shows = s.shows ∧ (s.withPins v).devs = s.devs ∧ (s.withPins v).queues =
    s.queues ∧ (s.withPins v).eccTime = s.eccTime ∧ (s.withPins v).jtag = s.jtag ∧ (s.withPins v).trims = s.trims ∧
    (s.withPins v).patrol = s.patrol ∧ (s.withPins v).aer = s.aer ∧ (s.withPins v).ep = s.ep ∧ (s.withPins v).blanks =
    s.blanks ∧ (s.withPins v).reply = s.reply ∧ (s.withPins v).freeCtr = s.freeCtr := by
  repeat' constructor

@[simp] theorem State.withMode_mode (s : State) (v : Mode) : (s.withMode v).mode = v := rfl

theorem State.withMode_others (s : State) (v : Mode) : (s.withMode v).pending = s.pending ∧ (s.withMode v).pins =
    s.pins ∧ (s.withMode v).shed = s.shed ∧ (s.withMode v).otp = s.otp ∧ (s.withMode v).regs = s.regs ∧ (s.withMode
    v).time = s.time ∧ (s.withMode v).slew = s.slew ∧ (s.withMode v).epoch = s.epoch ∧ (s.withMode v).counting =
    s.counting ∧ (s.withMode v).latches = s.latches ∧ (s.withMode v).evtSeq = s.evtSeq ∧ (s.withMode v).evtIrq =
    s.evtIrq ∧ (s.withMode v).evtDefer = s.evtDefer ∧ (s.withMode v).msix = s.msix ∧ (s.withMode v).d3hot = s.d3hot ∧
    (s.withMode v).dram = s.dram ∧ (s.withMode v).banks = s.banks ∧ (s.withMode v).pool = s.pool ∧ (s.withMode
    v).mailbox = s.mailbox ∧ (s.withMode v).flash = s.flash ∧ (s.withMode v).hostMem = s.hostMem ∧ (s.withMode v).torn
    = s.torn ∧ (s.withMode v).sensors = s.sensors ∧ (s.withMode v).alertArmed = s.alertArmed ∧ (s.withMode
    v).warnArmed = s.warnArmed ∧ (s.withMode v).persist = s.persist ∧ (s.withMode v).nvm = s.nvm ∧ (s.withMode v).unit
    = s.unit ∧ (s.withMode v).lc = s.lc ∧ (s.withMode v).eraseDue = s.eraseDue ∧ (s.withMode v).slotTried =
    s.slotTried ∧ (s.withMode v).booted = s.booted ∧ (s.withMode v).bodyHash = s.bodyHash ∧ (s.withMode v).hkOff =
    s.hkOff ∧ (s.withMode v).hkLen = s.hkLen ∧ (s.withMode v).hkEntry = s.hkEntry ∧ (s.withMode v).sync = s.sync ∧
    (s.withMode v).acts = s.acts ∧ (s.withMode v).dies = s.dies ∧ (s.withMode v).chans = s.chans ∧ (s.withMode
    v).rings = s.rings ∧ (s.withMode v).logBuf = s.logBuf ∧ (s.withMode v).logTime = s.logTime ∧ (s.withMode v).rq =
    s.rq ∧ (s.withMode v).tdcs = s.tdcs ∧ (s.withMode v).units = s.units ∧ (s.withMode v).trigs = s.trigs ∧
    (s.withMode v).streams = s.streams ∧ (s.withMode v).cal = s.cal ∧ (s.withMode v).ports = s.ports ∧ (s.withMode
    v).whistles = s.whistles ∧ (s.withMode v).shows = s.shows ∧ (s.withMode v).devs = s.devs ∧ (s.withMode v).queues =
    s.queues ∧ (s.withMode v).eccTime = s.eccTime ∧ (s.withMode v).jtag = s.jtag ∧ (s.withMode v).trims = s.trims ∧
    (s.withMode v).patrol = s.patrol ∧ (s.withMode v).aer = s.aer ∧ (s.withMode v).ep = s.ep ∧ (s.withMode v).blanks =
    s.blanks ∧ (s.withMode v).reply = s.reply ∧ (s.withMode v).freeCtr = s.freeCtr := by
  repeat' constructor

@[simp] theorem State.withShed_shed (s : State) (v : Option Shed) : (s.withShed v).shed = v := rfl

theorem State.withShed_others (s : State) (v : Option Shed) : (s.withShed v).pending = s.pending ∧ (s.withShed v).pins
    = s.pins ∧ (s.withShed v).mode = s.mode ∧ (s.withShed v).otp = s.otp ∧ (s.withShed v).regs = s.regs ∧ (s.withShed
    v).time = s.time ∧ (s.withShed v).slew = s.slew ∧ (s.withShed v).epoch = s.epoch ∧ (s.withShed v).counting =
    s.counting ∧ (s.withShed v).latches = s.latches ∧ (s.withShed v).evtSeq = s.evtSeq ∧ (s.withShed v).evtIrq =
    s.evtIrq ∧ (s.withShed v).evtDefer = s.evtDefer ∧ (s.withShed v).msix = s.msix ∧ (s.withShed v).d3hot = s.d3hot ∧
    (s.withShed v).dram = s.dram ∧ (s.withShed v).banks = s.banks ∧ (s.withShed v).pool = s.pool ∧ (s.withShed
    v).mailbox = s.mailbox ∧ (s.withShed v).flash = s.flash ∧ (s.withShed v).hostMem = s.hostMem ∧ (s.withShed v).torn
    = s.torn ∧ (s.withShed v).sensors = s.sensors ∧ (s.withShed v).alertArmed = s.alertArmed ∧ (s.withShed
    v).warnArmed = s.warnArmed ∧ (s.withShed v).persist = s.persist ∧ (s.withShed v).nvm = s.nvm ∧ (s.withShed v).unit
    = s.unit ∧ (s.withShed v).lc = s.lc ∧ (s.withShed v).eraseDue = s.eraseDue ∧ (s.withShed v).slotTried =
    s.slotTried ∧ (s.withShed v).booted = s.booted ∧ (s.withShed v).bodyHash = s.bodyHash ∧ (s.withShed v).hkOff =
    s.hkOff ∧ (s.withShed v).hkLen = s.hkLen ∧ (s.withShed v).hkEntry = s.hkEntry ∧ (s.withShed v).sync = s.sync ∧
    (s.withShed v).acts = s.acts ∧ (s.withShed v).dies = s.dies ∧ (s.withShed v).chans = s.chans ∧ (s.withShed
    v).rings = s.rings ∧ (s.withShed v).logBuf = s.logBuf ∧ (s.withShed v).logTime = s.logTime ∧ (s.withShed v).rq =
    s.rq ∧ (s.withShed v).tdcs = s.tdcs ∧ (s.withShed v).units = s.units ∧ (s.withShed v).trigs = s.trigs ∧
    (s.withShed v).streams = s.streams ∧ (s.withShed v).cal = s.cal ∧ (s.withShed v).ports = s.ports ∧ (s.withShed
    v).whistles = s.whistles ∧ (s.withShed v).shows = s.shows ∧ (s.withShed v).devs = s.devs ∧ (s.withShed v).queues =
    s.queues ∧ (s.withShed v).eccTime = s.eccTime ∧ (s.withShed v).jtag = s.jtag ∧ (s.withShed v).trims = s.trims ∧
    (s.withShed v).patrol = s.patrol ∧ (s.withShed v).aer = s.aer ∧ (s.withShed v).ep = s.ep ∧ (s.withShed v).blanks =
    s.blanks ∧ (s.withShed v).reply = s.reply ∧ (s.withShed v).freeCtr = s.freeCtr := by
  repeat' constructor

@[simp] theorem State.withOtp_otp (s : State) (v : Otp) : (s.withOtp v).otp = v := rfl

theorem State.withOtp_others (s : State) (v : Otp) : (s.withOtp v).pending = s.pending ∧ (s.withOtp v).pins = s.pins ∧
    (s.withOtp v).mode = s.mode ∧ (s.withOtp v).shed = s.shed ∧ (s.withOtp v).regs = s.regs ∧ (s.withOtp v).time =
    s.time ∧ (s.withOtp v).slew = s.slew ∧ (s.withOtp v).epoch = s.epoch ∧ (s.withOtp v).counting = s.counting ∧
    (s.withOtp v).latches = s.latches ∧ (s.withOtp v).evtSeq = s.evtSeq ∧ (s.withOtp v).evtIrq = s.evtIrq ∧ (s.withOtp
    v).evtDefer = s.evtDefer ∧ (s.withOtp v).msix = s.msix ∧ (s.withOtp v).d3hot = s.d3hot ∧ (s.withOtp v).dram =
    s.dram ∧ (s.withOtp v).banks = s.banks ∧ (s.withOtp v).pool = s.pool ∧ (s.withOtp v).mailbox = s.mailbox ∧
    (s.withOtp v).flash = s.flash ∧ (s.withOtp v).hostMem = s.hostMem ∧ (s.withOtp v).torn = s.torn ∧ (s.withOtp
    v).sensors = s.sensors ∧ (s.withOtp v).alertArmed = s.alertArmed ∧ (s.withOtp v).warnArmed = s.warnArmed ∧
    (s.withOtp v).persist = s.persist ∧ (s.withOtp v).nvm = s.nvm ∧ (s.withOtp v).unit = s.unit ∧ (s.withOtp v).lc =
    s.lc ∧ (s.withOtp v).eraseDue = s.eraseDue ∧ (s.withOtp v).slotTried = s.slotTried ∧ (s.withOtp v).booted =
    s.booted ∧ (s.withOtp v).bodyHash = s.bodyHash ∧ (s.withOtp v).hkOff = s.hkOff ∧ (s.withOtp v).hkLen = s.hkLen ∧
    (s.withOtp v).hkEntry = s.hkEntry ∧ (s.withOtp v).sync = s.sync ∧ (s.withOtp v).acts = s.acts ∧ (s.withOtp v).dies
    = s.dies ∧ (s.withOtp v).chans = s.chans ∧ (s.withOtp v).rings = s.rings ∧ (s.withOtp v).logBuf = s.logBuf ∧
    (s.withOtp v).logTime = s.logTime ∧ (s.withOtp v).rq = s.rq ∧ (s.withOtp v).tdcs = s.tdcs ∧ (s.withOtp v).units =
    s.units ∧ (s.withOtp v).trigs = s.trigs ∧ (s.withOtp v).streams = s.streams ∧ (s.withOtp v).cal = s.cal ∧
    (s.withOtp v).ports = s.ports ∧ (s.withOtp v).whistles = s.whistles ∧ (s.withOtp v).shows = s.shows ∧ (s.withOtp
    v).devs = s.devs ∧ (s.withOtp v).queues = s.queues ∧ (s.withOtp v).eccTime = s.eccTime ∧ (s.withOtp v).jtag =
    s.jtag ∧ (s.withOtp v).trims = s.trims ∧ (s.withOtp v).patrol = s.patrol ∧ (s.withOtp v).aer = s.aer ∧ (s.withOtp
    v).ep = s.ep ∧ (s.withOtp v).blanks = s.blanks ∧ (s.withOtp v).reply = s.reply ∧ (s.withOtp v).freeCtr = s.freeCtr
    := by
  repeat' constructor

@[simp] theorem State.withRegs_regs (s : State) (v : Tab Word) : (s.withRegs v).regs = v := rfl

theorem State.withRegs_others (s : State) (v : Tab Word) : (s.withRegs v).pending = s.pending ∧ (s.withRegs v).pins =
    s.pins ∧ (s.withRegs v).mode = s.mode ∧ (s.withRegs v).shed = s.shed ∧ (s.withRegs v).otp = s.otp ∧ (s.withRegs
    v).time = s.time ∧ (s.withRegs v).slew = s.slew ∧ (s.withRegs v).epoch = s.epoch ∧ (s.withRegs v).counting =
    s.counting ∧ (s.withRegs v).latches = s.latches ∧ (s.withRegs v).evtSeq = s.evtSeq ∧ (s.withRegs v).evtIrq =
    s.evtIrq ∧ (s.withRegs v).evtDefer = s.evtDefer ∧ (s.withRegs v).msix = s.msix ∧ (s.withRegs v).d3hot = s.d3hot ∧
    (s.withRegs v).dram = s.dram ∧ (s.withRegs v).banks = s.banks ∧ (s.withRegs v).pool = s.pool ∧ (s.withRegs
    v).mailbox = s.mailbox ∧ (s.withRegs v).flash = s.flash ∧ (s.withRegs v).hostMem = s.hostMem ∧ (s.withRegs v).torn
    = s.torn ∧ (s.withRegs v).sensors = s.sensors ∧ (s.withRegs v).alertArmed = s.alertArmed ∧ (s.withRegs
    v).warnArmed = s.warnArmed ∧ (s.withRegs v).persist = s.persist ∧ (s.withRegs v).nvm = s.nvm ∧ (s.withRegs v).unit
    = s.unit ∧ (s.withRegs v).lc = s.lc ∧ (s.withRegs v).eraseDue = s.eraseDue ∧ (s.withRegs v).slotTried =
    s.slotTried ∧ (s.withRegs v).booted = s.booted ∧ (s.withRegs v).bodyHash = s.bodyHash ∧ (s.withRegs v).hkOff =
    s.hkOff ∧ (s.withRegs v).hkLen = s.hkLen ∧ (s.withRegs v).hkEntry = s.hkEntry ∧ (s.withRegs v).sync = s.sync ∧
    (s.withRegs v).acts = s.acts ∧ (s.withRegs v).dies = s.dies ∧ (s.withRegs v).chans = s.chans ∧ (s.withRegs
    v).rings = s.rings ∧ (s.withRegs v).logBuf = s.logBuf ∧ (s.withRegs v).logTime = s.logTime ∧ (s.withRegs v).rq =
    s.rq ∧ (s.withRegs v).tdcs = s.tdcs ∧ (s.withRegs v).units = s.units ∧ (s.withRegs v).trigs = s.trigs ∧
    (s.withRegs v).streams = s.streams ∧ (s.withRegs v).cal = s.cal ∧ (s.withRegs v).ports = s.ports ∧ (s.withRegs
    v).whistles = s.whistles ∧ (s.withRegs v).shows = s.shows ∧ (s.withRegs v).devs = s.devs ∧ (s.withRegs v).queues =
    s.queues ∧ (s.withRegs v).eccTime = s.eccTime ∧ (s.withRegs v).jtag = s.jtag ∧ (s.withRegs v).trims = s.trims ∧
    (s.withRegs v).patrol = s.patrol ∧ (s.withRegs v).aer = s.aer ∧ (s.withRegs v).ep = s.ep ∧ (s.withRegs v).blanks =
    s.blanks ∧ (s.withRegs v).reply = s.reply ∧ (s.withRegs v).freeCtr = s.freeCtr := by
  repeat' constructor

@[simp] theorem State.withTime_time (s : State) (v : BitVec 64) : (s.withTime v).time = v := rfl

theorem State.withTime_others (s : State) (v : BitVec 64) : (s.withTime v).pending = s.pending ∧ (s.withTime v).pins =
    s.pins ∧ (s.withTime v).mode = s.mode ∧ (s.withTime v).shed = s.shed ∧ (s.withTime v).otp = s.otp ∧ (s.withTime
    v).regs = s.regs ∧ (s.withTime v).slew = s.slew ∧ (s.withTime v).epoch = s.epoch ∧ (s.withTime v).counting =
    s.counting ∧ (s.withTime v).latches = s.latches ∧ (s.withTime v).evtSeq = s.evtSeq ∧ (s.withTime v).evtIrq =
    s.evtIrq ∧ (s.withTime v).evtDefer = s.evtDefer ∧ (s.withTime v).msix = s.msix ∧ (s.withTime v).d3hot = s.d3hot ∧
    (s.withTime v).dram = s.dram ∧ (s.withTime v).banks = s.banks ∧ (s.withTime v).pool = s.pool ∧ (s.withTime
    v).mailbox = s.mailbox ∧ (s.withTime v).flash = s.flash ∧ (s.withTime v).hostMem = s.hostMem ∧ (s.withTime v).torn
    = s.torn ∧ (s.withTime v).sensors = s.sensors ∧ (s.withTime v).alertArmed = s.alertArmed ∧ (s.withTime
    v).warnArmed = s.warnArmed ∧ (s.withTime v).persist = s.persist ∧ (s.withTime v).nvm = s.nvm ∧ (s.withTime v).unit
    = s.unit ∧ (s.withTime v).lc = s.lc ∧ (s.withTime v).eraseDue = s.eraseDue ∧ (s.withTime v).slotTried =
    s.slotTried ∧ (s.withTime v).booted = s.booted ∧ (s.withTime v).bodyHash = s.bodyHash ∧ (s.withTime v).hkOff =
    s.hkOff ∧ (s.withTime v).hkLen = s.hkLen ∧ (s.withTime v).hkEntry = s.hkEntry ∧ (s.withTime v).sync = s.sync ∧
    (s.withTime v).acts = s.acts ∧ (s.withTime v).dies = s.dies ∧ (s.withTime v).chans = s.chans ∧ (s.withTime
    v).rings = s.rings ∧ (s.withTime v).logBuf = s.logBuf ∧ (s.withTime v).logTime = s.logTime ∧ (s.withTime v).rq =
    s.rq ∧ (s.withTime v).tdcs = s.tdcs ∧ (s.withTime v).units = s.units ∧ (s.withTime v).trigs = s.trigs ∧
    (s.withTime v).streams = s.streams ∧ (s.withTime v).cal = s.cal ∧ (s.withTime v).ports = s.ports ∧ (s.withTime
    v).whistles = s.whistles ∧ (s.withTime v).shows = s.shows ∧ (s.withTime v).devs = s.devs ∧ (s.withTime v).queues =
    s.queues ∧ (s.withTime v).eccTime = s.eccTime ∧ (s.withTime v).jtag = s.jtag ∧ (s.withTime v).trims = s.trims ∧
    (s.withTime v).patrol = s.patrol ∧ (s.withTime v).aer = s.aer ∧ (s.withTime v).ep = s.ep ∧ (s.withTime v).blanks =
    s.blanks ∧ (s.withTime v).reply = s.reply ∧ (s.withTime v).freeCtr = s.freeCtr := by
  repeat' constructor

@[simp] theorem State.withSlew_slew (s : State) (v : Int) : (s.withSlew v).slew = v := rfl

theorem State.withSlew_others (s : State) (v : Int) : (s.withSlew v).pending = s.pending ∧ (s.withSlew v).pins =
    s.pins ∧ (s.withSlew v).mode = s.mode ∧ (s.withSlew v).shed = s.shed ∧ (s.withSlew v).otp = s.otp ∧ (s.withSlew
    v).regs = s.regs ∧ (s.withSlew v).time = s.time ∧ (s.withSlew v).epoch = s.epoch ∧ (s.withSlew v).counting =
    s.counting ∧ (s.withSlew v).latches = s.latches ∧ (s.withSlew v).evtSeq = s.evtSeq ∧ (s.withSlew v).evtIrq =
    s.evtIrq ∧ (s.withSlew v).evtDefer = s.evtDefer ∧ (s.withSlew v).msix = s.msix ∧ (s.withSlew v).d3hot = s.d3hot ∧
    (s.withSlew v).dram = s.dram ∧ (s.withSlew v).banks = s.banks ∧ (s.withSlew v).pool = s.pool ∧ (s.withSlew
    v).mailbox = s.mailbox ∧ (s.withSlew v).flash = s.flash ∧ (s.withSlew v).hostMem = s.hostMem ∧ (s.withSlew v).torn
    = s.torn ∧ (s.withSlew v).sensors = s.sensors ∧ (s.withSlew v).alertArmed = s.alertArmed ∧ (s.withSlew
    v).warnArmed = s.warnArmed ∧ (s.withSlew v).persist = s.persist ∧ (s.withSlew v).nvm = s.nvm ∧ (s.withSlew v).unit
    = s.unit ∧ (s.withSlew v).lc = s.lc ∧ (s.withSlew v).eraseDue = s.eraseDue ∧ (s.withSlew v).slotTried =
    s.slotTried ∧ (s.withSlew v).booted = s.booted ∧ (s.withSlew v).bodyHash = s.bodyHash ∧ (s.withSlew v).hkOff =
    s.hkOff ∧ (s.withSlew v).hkLen = s.hkLen ∧ (s.withSlew v).hkEntry = s.hkEntry ∧ (s.withSlew v).sync = s.sync ∧
    (s.withSlew v).acts = s.acts ∧ (s.withSlew v).dies = s.dies ∧ (s.withSlew v).chans = s.chans ∧ (s.withSlew
    v).rings = s.rings ∧ (s.withSlew v).logBuf = s.logBuf ∧ (s.withSlew v).logTime = s.logTime ∧ (s.withSlew v).rq =
    s.rq ∧ (s.withSlew v).tdcs = s.tdcs ∧ (s.withSlew v).units = s.units ∧ (s.withSlew v).trigs = s.trigs ∧
    (s.withSlew v).streams = s.streams ∧ (s.withSlew v).cal = s.cal ∧ (s.withSlew v).ports = s.ports ∧ (s.withSlew
    v).whistles = s.whistles ∧ (s.withSlew v).shows = s.shows ∧ (s.withSlew v).devs = s.devs ∧ (s.withSlew v).queues =
    s.queues ∧ (s.withSlew v).eccTime = s.eccTime ∧ (s.withSlew v).jtag = s.jtag ∧ (s.withSlew v).trims = s.trims ∧
    (s.withSlew v).patrol = s.patrol ∧ (s.withSlew v).aer = s.aer ∧ (s.withSlew v).ep = s.ep ∧ (s.withSlew v).blanks =
    s.blanks ∧ (s.withSlew v).reply = s.reply ∧ (s.withSlew v).freeCtr = s.freeCtr := by
  repeat' constructor

@[simp] theorem State.withEpoch_epoch (s : State) (v : Word) : (s.withEpoch v).epoch = v := rfl

theorem State.withEpoch_others (s : State) (v : Word) : (s.withEpoch v).pending = s.pending ∧ (s.withEpoch v).pins =
    s.pins ∧ (s.withEpoch v).mode = s.mode ∧ (s.withEpoch v).shed = s.shed ∧ (s.withEpoch v).otp = s.otp ∧
    (s.withEpoch v).regs = s.regs ∧ (s.withEpoch v).time = s.time ∧ (s.withEpoch v).slew = s.slew ∧ (s.withEpoch
    v).counting = s.counting ∧ (s.withEpoch v).latches = s.latches ∧ (s.withEpoch v).evtSeq = s.evtSeq ∧ (s.withEpoch
    v).evtIrq = s.evtIrq ∧ (s.withEpoch v).evtDefer = s.evtDefer ∧ (s.withEpoch v).msix = s.msix ∧ (s.withEpoch
    v).d3hot = s.d3hot ∧ (s.withEpoch v).dram = s.dram ∧ (s.withEpoch v).banks = s.banks ∧ (s.withEpoch v).pool =
    s.pool ∧ (s.withEpoch v).mailbox = s.mailbox ∧ (s.withEpoch v).flash = s.flash ∧ (s.withEpoch v).hostMem =
    s.hostMem ∧ (s.withEpoch v).torn = s.torn ∧ (s.withEpoch v).sensors = s.sensors ∧ (s.withEpoch v).alertArmed =
    s.alertArmed ∧ (s.withEpoch v).warnArmed = s.warnArmed ∧ (s.withEpoch v).persist = s.persist ∧ (s.withEpoch v).nvm
    = s.nvm ∧ (s.withEpoch v).unit = s.unit ∧ (s.withEpoch v).lc = s.lc ∧ (s.withEpoch v).eraseDue = s.eraseDue ∧
    (s.withEpoch v).slotTried = s.slotTried ∧ (s.withEpoch v).booted = s.booted ∧ (s.withEpoch v).bodyHash =
    s.bodyHash ∧ (s.withEpoch v).hkOff = s.hkOff ∧ (s.withEpoch v).hkLen = s.hkLen ∧ (s.withEpoch v).hkEntry =
    s.hkEntry ∧ (s.withEpoch v).sync = s.sync ∧ (s.withEpoch v).acts = s.acts ∧ (s.withEpoch v).dies = s.dies ∧
    (s.withEpoch v).chans = s.chans ∧ (s.withEpoch v).rings = s.rings ∧ (s.withEpoch v).logBuf = s.logBuf ∧
    (s.withEpoch v).logTime = s.logTime ∧ (s.withEpoch v).rq = s.rq ∧ (s.withEpoch v).tdcs = s.tdcs ∧ (s.withEpoch
    v).units = s.units ∧ (s.withEpoch v).trigs = s.trigs ∧ (s.withEpoch v).streams = s.streams ∧ (s.withEpoch v).cal =
    s.cal ∧ (s.withEpoch v).ports = s.ports ∧ (s.withEpoch v).whistles = s.whistles ∧ (s.withEpoch v).shows = s.shows
    ∧ (s.withEpoch v).devs = s.devs ∧ (s.withEpoch v).queues = s.queues ∧ (s.withEpoch v).eccTime = s.eccTime ∧
    (s.withEpoch v).jtag = s.jtag ∧ (s.withEpoch v).trims = s.trims ∧ (s.withEpoch v).patrol = s.patrol ∧ (s.withEpoch
    v).aer = s.aer ∧ (s.withEpoch v).ep = s.ep ∧ (s.withEpoch v).blanks = s.blanks ∧ (s.withEpoch v).reply = s.reply ∧
    (s.withEpoch v).freeCtr = s.freeCtr := by
  repeat' constructor

@[simp] theorem State.withCounting_counting (s : State) (v : Bool) : (s.withCounting v).counting = v := rfl

theorem State.withCounting_others (s : State) (v : Bool) : (s.withCounting v).pending = s.pending ∧ (s.withCounting
    v).pins = s.pins ∧ (s.withCounting v).mode = s.mode ∧ (s.withCounting v).shed = s.shed ∧ (s.withCounting v).otp =
    s.otp ∧ (s.withCounting v).regs = s.regs ∧ (s.withCounting v).time = s.time ∧ (s.withCounting v).slew = s.slew ∧
    (s.withCounting v).epoch = s.epoch ∧ (s.withCounting v).latches = s.latches ∧ (s.withCounting v).evtSeq = s.evtSeq
    ∧ (s.withCounting v).evtIrq = s.evtIrq ∧ (s.withCounting v).evtDefer = s.evtDefer ∧ (s.withCounting v).msix =
    s.msix ∧ (s.withCounting v).d3hot = s.d3hot ∧ (s.withCounting v).dram = s.dram ∧ (s.withCounting v).banks =
    s.banks ∧ (s.withCounting v).pool = s.pool ∧ (s.withCounting v).mailbox = s.mailbox ∧ (s.withCounting v).flash =
    s.flash ∧ (s.withCounting v).hostMem = s.hostMem ∧ (s.withCounting v).torn = s.torn ∧ (s.withCounting v).sensors =
    s.sensors ∧ (s.withCounting v).alertArmed = s.alertArmed ∧ (s.withCounting v).warnArmed = s.warnArmed ∧
    (s.withCounting v).persist = s.persist ∧ (s.withCounting v).nvm = s.nvm ∧ (s.withCounting v).unit = s.unit ∧
    (s.withCounting v).lc = s.lc ∧ (s.withCounting v).eraseDue = s.eraseDue ∧ (s.withCounting v).slotTried =
    s.slotTried ∧ (s.withCounting v).booted = s.booted ∧ (s.withCounting v).bodyHash = s.bodyHash ∧ (s.withCounting
    v).hkOff = s.hkOff ∧ (s.withCounting v).hkLen = s.hkLen ∧ (s.withCounting v).hkEntry = s.hkEntry ∧ (s.withCounting
    v).sync = s.sync ∧ (s.withCounting v).acts = s.acts ∧ (s.withCounting v).dies = s.dies ∧ (s.withCounting v).chans
    = s.chans ∧ (s.withCounting v).rings = s.rings ∧ (s.withCounting v).logBuf = s.logBuf ∧ (s.withCounting v).logTime
    = s.logTime ∧ (s.withCounting v).rq = s.rq ∧ (s.withCounting v).tdcs = s.tdcs ∧ (s.withCounting v).units = s.units
    ∧ (s.withCounting v).trigs = s.trigs ∧ (s.withCounting v).streams = s.streams ∧ (s.withCounting v).cal = s.cal ∧
    (s.withCounting v).ports = s.ports ∧ (s.withCounting v).whistles = s.whistles ∧ (s.withCounting v).shows = s.shows
    ∧ (s.withCounting v).devs = s.devs ∧ (s.withCounting v).queues = s.queues ∧ (s.withCounting v).eccTime = s.eccTime
    ∧ (s.withCounting v).jtag = s.jtag ∧ (s.withCounting v).trims = s.trims ∧ (s.withCounting v).patrol = s.patrol ∧
    (s.withCounting v).aer = s.aer ∧ (s.withCounting v).ep = s.ep ∧ (s.withCounting v).blanks = s.blanks ∧
    (s.withCounting v).reply = s.reply ∧ (s.withCounting v).freeCtr = s.freeCtr := by
  repeat' constructor

@[simp] theorem State.withLatches_latches (s : State) (v : Tab Word) : (s.withLatches v).latches = v := rfl

theorem State.withLatches_others (s : State) (v : Tab Word) : (s.withLatches v).pending = s.pending ∧ (s.withLatches
    v).pins = s.pins ∧ (s.withLatches v).mode = s.mode ∧ (s.withLatches v).shed = s.shed ∧ (s.withLatches v).otp =
    s.otp ∧ (s.withLatches v).regs = s.regs ∧ (s.withLatches v).time = s.time ∧ (s.withLatches v).slew = s.slew ∧
    (s.withLatches v).epoch = s.epoch ∧ (s.withLatches v).counting = s.counting ∧ (s.withLatches v).evtSeq = s.evtSeq
    ∧ (s.withLatches v).evtIrq = s.evtIrq ∧ (s.withLatches v).evtDefer = s.evtDefer ∧ (s.withLatches v).msix = s.msix
    ∧ (s.withLatches v).d3hot = s.d3hot ∧ (s.withLatches v).dram = s.dram ∧ (s.withLatches v).banks = s.banks ∧
    (s.withLatches v).pool = s.pool ∧ (s.withLatches v).mailbox = s.mailbox ∧ (s.withLatches v).flash = s.flash ∧
    (s.withLatches v).hostMem = s.hostMem ∧ (s.withLatches v).torn = s.torn ∧ (s.withLatches v).sensors = s.sensors ∧
    (s.withLatches v).alertArmed = s.alertArmed ∧ (s.withLatches v).warnArmed = s.warnArmed ∧ (s.withLatches
    v).persist = s.persist ∧ (s.withLatches v).nvm = s.nvm ∧ (s.withLatches v).unit = s.unit ∧ (s.withLatches v).lc =
    s.lc ∧ (s.withLatches v).eraseDue = s.eraseDue ∧ (s.withLatches v).slotTried = s.slotTried ∧ (s.withLatches
    v).booted = s.booted ∧ (s.withLatches v).bodyHash = s.bodyHash ∧ (s.withLatches v).hkOff = s.hkOff ∧
    (s.withLatches v).hkLen = s.hkLen ∧ (s.withLatches v).hkEntry = s.hkEntry ∧ (s.withLatches v).sync = s.sync ∧
    (s.withLatches v).acts = s.acts ∧ (s.withLatches v).dies = s.dies ∧ (s.withLatches v).chans = s.chans ∧
    (s.withLatches v).rings = s.rings ∧ (s.withLatches v).logBuf = s.logBuf ∧ (s.withLatches v).logTime = s.logTime ∧
    (s.withLatches v).rq = s.rq ∧ (s.withLatches v).tdcs = s.tdcs ∧ (s.withLatches v).units = s.units ∧ (s.withLatches
    v).trigs = s.trigs ∧ (s.withLatches v).streams = s.streams ∧ (s.withLatches v).cal = s.cal ∧ (s.withLatches
    v).ports = s.ports ∧ (s.withLatches v).whistles = s.whistles ∧ (s.withLatches v).shows = s.shows ∧ (s.withLatches
    v).devs = s.devs ∧ (s.withLatches v).queues = s.queues ∧ (s.withLatches v).eccTime = s.eccTime ∧ (s.withLatches
    v).jtag = s.jtag ∧ (s.withLatches v).trims = s.trims ∧ (s.withLatches v).patrol = s.patrol ∧ (s.withLatches v).aer
    = s.aer ∧ (s.withLatches v).ep = s.ep ∧ (s.withLatches v).blanks = s.blanks ∧ (s.withLatches v).reply = s.reply ∧
    (s.withLatches v).freeCtr = s.freeCtr := by
  repeat' constructor

@[simp] theorem State.withEvtSeq_evtSeq (s : State) (v : Word) : (s.withEvtSeq v).evtSeq = v := rfl

theorem State.withEvtSeq_others (s : State) (v : Word) : (s.withEvtSeq v).pending = s.pending ∧ (s.withEvtSeq v).pins
    = s.pins ∧ (s.withEvtSeq v).mode = s.mode ∧ (s.withEvtSeq v).shed = s.shed ∧ (s.withEvtSeq v).otp = s.otp ∧
    (s.withEvtSeq v).regs = s.regs ∧ (s.withEvtSeq v).time = s.time ∧ (s.withEvtSeq v).slew = s.slew ∧ (s.withEvtSeq
    v).epoch = s.epoch ∧ (s.withEvtSeq v).counting = s.counting ∧ (s.withEvtSeq v).latches = s.latches ∧ (s.withEvtSeq
    v).evtIrq = s.evtIrq ∧ (s.withEvtSeq v).evtDefer = s.evtDefer ∧ (s.withEvtSeq v).msix = s.msix ∧ (s.withEvtSeq
    v).d3hot = s.d3hot ∧ (s.withEvtSeq v).dram = s.dram ∧ (s.withEvtSeq v).banks = s.banks ∧ (s.withEvtSeq v).pool =
    s.pool ∧ (s.withEvtSeq v).mailbox = s.mailbox ∧ (s.withEvtSeq v).flash = s.flash ∧ (s.withEvtSeq v).hostMem =
    s.hostMem ∧ (s.withEvtSeq v).torn = s.torn ∧ (s.withEvtSeq v).sensors = s.sensors ∧ (s.withEvtSeq v).alertArmed =
    s.alertArmed ∧ (s.withEvtSeq v).warnArmed = s.warnArmed ∧ (s.withEvtSeq v).persist = s.persist ∧ (s.withEvtSeq
    v).nvm = s.nvm ∧ (s.withEvtSeq v).unit = s.unit ∧ (s.withEvtSeq v).lc = s.lc ∧ (s.withEvtSeq v).eraseDue =
    s.eraseDue ∧ (s.withEvtSeq v).slotTried = s.slotTried ∧ (s.withEvtSeq v).booted = s.booted ∧ (s.withEvtSeq
    v).bodyHash = s.bodyHash ∧ (s.withEvtSeq v).hkOff = s.hkOff ∧ (s.withEvtSeq v).hkLen = s.hkLen ∧ (s.withEvtSeq
    v).hkEntry = s.hkEntry ∧ (s.withEvtSeq v).sync = s.sync ∧ (s.withEvtSeq v).acts = s.acts ∧ (s.withEvtSeq v).dies =
    s.dies ∧ (s.withEvtSeq v).chans = s.chans ∧ (s.withEvtSeq v).rings = s.rings ∧ (s.withEvtSeq v).logBuf = s.logBuf
    ∧ (s.withEvtSeq v).logTime = s.logTime ∧ (s.withEvtSeq v).rq = s.rq ∧ (s.withEvtSeq v).tdcs = s.tdcs ∧
    (s.withEvtSeq v).units = s.units ∧ (s.withEvtSeq v).trigs = s.trigs ∧ (s.withEvtSeq v).streams = s.streams ∧
    (s.withEvtSeq v).cal = s.cal ∧ (s.withEvtSeq v).ports = s.ports ∧ (s.withEvtSeq v).whistles = s.whistles ∧
    (s.withEvtSeq v).shows = s.shows ∧ (s.withEvtSeq v).devs = s.devs ∧ (s.withEvtSeq v).queues = s.queues ∧
    (s.withEvtSeq v).eccTime = s.eccTime ∧ (s.withEvtSeq v).jtag = s.jtag ∧ (s.withEvtSeq v).trims = s.trims ∧
    (s.withEvtSeq v).patrol = s.patrol ∧ (s.withEvtSeq v).aer = s.aer ∧ (s.withEvtSeq v).ep = s.ep ∧ (s.withEvtSeq
    v).blanks = s.blanks ∧ (s.withEvtSeq v).reply = s.reply ∧ (s.withEvtSeq v).freeCtr = s.freeCtr := by
  repeat' constructor

@[simp] theorem State.withEvtIrq_evtIrq (s : State) (v : Option Nat) : (s.withEvtIrq v).evtIrq = v := rfl

theorem State.withEvtIrq_others (s : State) (v : Option Nat) : (s.withEvtIrq v).pending = s.pending ∧ (s.withEvtIrq
    v).pins = s.pins ∧ (s.withEvtIrq v).mode = s.mode ∧ (s.withEvtIrq v).shed = s.shed ∧ (s.withEvtIrq v).otp = s.otp
    ∧ (s.withEvtIrq v).regs = s.regs ∧ (s.withEvtIrq v).time = s.time ∧ (s.withEvtIrq v).slew = s.slew ∧ (s.withEvtIrq
    v).epoch = s.epoch ∧ (s.withEvtIrq v).counting = s.counting ∧ (s.withEvtIrq v).latches = s.latches ∧ (s.withEvtIrq
    v).evtSeq = s.evtSeq ∧ (s.withEvtIrq v).evtDefer = s.evtDefer ∧ (s.withEvtIrq v).msix = s.msix ∧ (s.withEvtIrq
    v).d3hot = s.d3hot ∧ (s.withEvtIrq v).dram = s.dram ∧ (s.withEvtIrq v).banks = s.banks ∧ (s.withEvtIrq v).pool =
    s.pool ∧ (s.withEvtIrq v).mailbox = s.mailbox ∧ (s.withEvtIrq v).flash = s.flash ∧ (s.withEvtIrq v).hostMem =
    s.hostMem ∧ (s.withEvtIrq v).torn = s.torn ∧ (s.withEvtIrq v).sensors = s.sensors ∧ (s.withEvtIrq v).alertArmed =
    s.alertArmed ∧ (s.withEvtIrq v).warnArmed = s.warnArmed ∧ (s.withEvtIrq v).persist = s.persist ∧ (s.withEvtIrq
    v).nvm = s.nvm ∧ (s.withEvtIrq v).unit = s.unit ∧ (s.withEvtIrq v).lc = s.lc ∧ (s.withEvtIrq v).eraseDue =
    s.eraseDue ∧ (s.withEvtIrq v).slotTried = s.slotTried ∧ (s.withEvtIrq v).booted = s.booted ∧ (s.withEvtIrq
    v).bodyHash = s.bodyHash ∧ (s.withEvtIrq v).hkOff = s.hkOff ∧ (s.withEvtIrq v).hkLen = s.hkLen ∧ (s.withEvtIrq
    v).hkEntry = s.hkEntry ∧ (s.withEvtIrq v).sync = s.sync ∧ (s.withEvtIrq v).acts = s.acts ∧ (s.withEvtIrq v).dies =
    s.dies ∧ (s.withEvtIrq v).chans = s.chans ∧ (s.withEvtIrq v).rings = s.rings ∧ (s.withEvtIrq v).logBuf = s.logBuf
    ∧ (s.withEvtIrq v).logTime = s.logTime ∧ (s.withEvtIrq v).rq = s.rq ∧ (s.withEvtIrq v).tdcs = s.tdcs ∧
    (s.withEvtIrq v).units = s.units ∧ (s.withEvtIrq v).trigs = s.trigs ∧ (s.withEvtIrq v).streams = s.streams ∧
    (s.withEvtIrq v).cal = s.cal ∧ (s.withEvtIrq v).ports = s.ports ∧ (s.withEvtIrq v).whistles = s.whistles ∧
    (s.withEvtIrq v).shows = s.shows ∧ (s.withEvtIrq v).devs = s.devs ∧ (s.withEvtIrq v).queues = s.queues ∧
    (s.withEvtIrq v).eccTime = s.eccTime ∧ (s.withEvtIrq v).jtag = s.jtag ∧ (s.withEvtIrq v).trims = s.trims ∧
    (s.withEvtIrq v).patrol = s.patrol ∧ (s.withEvtIrq v).aer = s.aer ∧ (s.withEvtIrq v).ep = s.ep ∧ (s.withEvtIrq
    v).blanks = s.blanks ∧ (s.withEvtIrq v).reply = s.reply ∧ (s.withEvtIrq v).freeCtr = s.freeCtr := by
  repeat' constructor

@[simp] theorem State.withEvtDefer_evtDefer (s : State) (v : Bool) : (s.withEvtDefer v).evtDefer = v := rfl

theorem State.withEvtDefer_others (s : State) (v : Bool) : (s.withEvtDefer v).pending = s.pending ∧ (s.withEvtDefer
    v).pins = s.pins ∧ (s.withEvtDefer v).mode = s.mode ∧ (s.withEvtDefer v).shed = s.shed ∧ (s.withEvtDefer v).otp =
    s.otp ∧ (s.withEvtDefer v).regs = s.regs ∧ (s.withEvtDefer v).time = s.time ∧ (s.withEvtDefer v).slew = s.slew ∧
    (s.withEvtDefer v).epoch = s.epoch ∧ (s.withEvtDefer v).counting = s.counting ∧ (s.withEvtDefer v).latches =
    s.latches ∧ (s.withEvtDefer v).evtSeq = s.evtSeq ∧ (s.withEvtDefer v).evtIrq = s.evtIrq ∧ (s.withEvtDefer v).msix
    = s.msix ∧ (s.withEvtDefer v).d3hot = s.d3hot ∧ (s.withEvtDefer v).dram = s.dram ∧ (s.withEvtDefer v).banks =
    s.banks ∧ (s.withEvtDefer v).pool = s.pool ∧ (s.withEvtDefer v).mailbox = s.mailbox ∧ (s.withEvtDefer v).flash =
    s.flash ∧ (s.withEvtDefer v).hostMem = s.hostMem ∧ (s.withEvtDefer v).torn = s.torn ∧ (s.withEvtDefer v).sensors =
    s.sensors ∧ (s.withEvtDefer v).alertArmed = s.alertArmed ∧ (s.withEvtDefer v).warnArmed = s.warnArmed ∧
    (s.withEvtDefer v).persist = s.persist ∧ (s.withEvtDefer v).nvm = s.nvm ∧ (s.withEvtDefer v).unit = s.unit ∧
    (s.withEvtDefer v).lc = s.lc ∧ (s.withEvtDefer v).eraseDue = s.eraseDue ∧ (s.withEvtDefer v).slotTried =
    s.slotTried ∧ (s.withEvtDefer v).booted = s.booted ∧ (s.withEvtDefer v).bodyHash = s.bodyHash ∧ (s.withEvtDefer
    v).hkOff = s.hkOff ∧ (s.withEvtDefer v).hkLen = s.hkLen ∧ (s.withEvtDefer v).hkEntry = s.hkEntry ∧ (s.withEvtDefer
    v).sync = s.sync ∧ (s.withEvtDefer v).acts = s.acts ∧ (s.withEvtDefer v).dies = s.dies ∧ (s.withEvtDefer v).chans
    = s.chans ∧ (s.withEvtDefer v).rings = s.rings ∧ (s.withEvtDefer v).logBuf = s.logBuf ∧ (s.withEvtDefer v).logTime
    = s.logTime ∧ (s.withEvtDefer v).rq = s.rq ∧ (s.withEvtDefer v).tdcs = s.tdcs ∧ (s.withEvtDefer v).units = s.units
    ∧ (s.withEvtDefer v).trigs = s.trigs ∧ (s.withEvtDefer v).streams = s.streams ∧ (s.withEvtDefer v).cal = s.cal ∧
    (s.withEvtDefer v).ports = s.ports ∧ (s.withEvtDefer v).whistles = s.whistles ∧ (s.withEvtDefer v).shows = s.shows
    ∧ (s.withEvtDefer v).devs = s.devs ∧ (s.withEvtDefer v).queues = s.queues ∧ (s.withEvtDefer v).eccTime = s.eccTime
    ∧ (s.withEvtDefer v).jtag = s.jtag ∧ (s.withEvtDefer v).trims = s.trims ∧ (s.withEvtDefer v).patrol = s.patrol ∧
    (s.withEvtDefer v).aer = s.aer ∧ (s.withEvtDefer v).ep = s.ep ∧ (s.withEvtDefer v).blanks = s.blanks ∧
    (s.withEvtDefer v).reply = s.reply ∧ (s.withEvtDefer v).freeCtr = s.freeCtr := by
  repeat' constructor

@[simp] theorem State.withMsix_msix (s : State) (v : Tab Nat) : (s.withMsix v).msix = v := rfl

theorem State.withMsix_others (s : State) (v : Tab Nat) : (s.withMsix v).pending = s.pending ∧ (s.withMsix v).pins =
    s.pins ∧ (s.withMsix v).mode = s.mode ∧ (s.withMsix v).shed = s.shed ∧ (s.withMsix v).otp = s.otp ∧ (s.withMsix
    v).regs = s.regs ∧ (s.withMsix v).time = s.time ∧ (s.withMsix v).slew = s.slew ∧ (s.withMsix v).epoch = s.epoch ∧
    (s.withMsix v).counting = s.counting ∧ (s.withMsix v).latches = s.latches ∧ (s.withMsix v).evtSeq = s.evtSeq ∧
    (s.withMsix v).evtIrq = s.evtIrq ∧ (s.withMsix v).evtDefer = s.evtDefer ∧ (s.withMsix v).d3hot = s.d3hot ∧
    (s.withMsix v).dram = s.dram ∧ (s.withMsix v).banks = s.banks ∧ (s.withMsix v).pool = s.pool ∧ (s.withMsix
    v).mailbox = s.mailbox ∧ (s.withMsix v).flash = s.flash ∧ (s.withMsix v).hostMem = s.hostMem ∧ (s.withMsix v).torn
    = s.torn ∧ (s.withMsix v).sensors = s.sensors ∧ (s.withMsix v).alertArmed = s.alertArmed ∧ (s.withMsix
    v).warnArmed = s.warnArmed ∧ (s.withMsix v).persist = s.persist ∧ (s.withMsix v).nvm = s.nvm ∧ (s.withMsix v).unit
    = s.unit ∧ (s.withMsix v).lc = s.lc ∧ (s.withMsix v).eraseDue = s.eraseDue ∧ (s.withMsix v).slotTried =
    s.slotTried ∧ (s.withMsix v).booted = s.booted ∧ (s.withMsix v).bodyHash = s.bodyHash ∧ (s.withMsix v).hkOff =
    s.hkOff ∧ (s.withMsix v).hkLen = s.hkLen ∧ (s.withMsix v).hkEntry = s.hkEntry ∧ (s.withMsix v).sync = s.sync ∧
    (s.withMsix v).acts = s.acts ∧ (s.withMsix v).dies = s.dies ∧ (s.withMsix v).chans = s.chans ∧ (s.withMsix
    v).rings = s.rings ∧ (s.withMsix v).logBuf = s.logBuf ∧ (s.withMsix v).logTime = s.logTime ∧ (s.withMsix v).rq =
    s.rq ∧ (s.withMsix v).tdcs = s.tdcs ∧ (s.withMsix v).units = s.units ∧ (s.withMsix v).trigs = s.trigs ∧
    (s.withMsix v).streams = s.streams ∧ (s.withMsix v).cal = s.cal ∧ (s.withMsix v).ports = s.ports ∧ (s.withMsix
    v).whistles = s.whistles ∧ (s.withMsix v).shows = s.shows ∧ (s.withMsix v).devs = s.devs ∧ (s.withMsix v).queues =
    s.queues ∧ (s.withMsix v).eccTime = s.eccTime ∧ (s.withMsix v).jtag = s.jtag ∧ (s.withMsix v).trims = s.trims ∧
    (s.withMsix v).patrol = s.patrol ∧ (s.withMsix v).aer = s.aer ∧ (s.withMsix v).ep = s.ep ∧ (s.withMsix v).blanks =
    s.blanks ∧ (s.withMsix v).reply = s.reply ∧ (s.withMsix v).freeCtr = s.freeCtr := by
  repeat' constructor

@[simp] theorem State.withD3hot_d3hot (s : State) (v : Bool) : (s.withD3hot v).d3hot = v := rfl

theorem State.withD3hot_others (s : State) (v : Bool) : (s.withD3hot v).pending = s.pending ∧ (s.withD3hot v).pins =
    s.pins ∧ (s.withD3hot v).mode = s.mode ∧ (s.withD3hot v).shed = s.shed ∧ (s.withD3hot v).otp = s.otp ∧
    (s.withD3hot v).regs = s.regs ∧ (s.withD3hot v).time = s.time ∧ (s.withD3hot v).slew = s.slew ∧ (s.withD3hot
    v).epoch = s.epoch ∧ (s.withD3hot v).counting = s.counting ∧ (s.withD3hot v).latches = s.latches ∧ (s.withD3hot
    v).evtSeq = s.evtSeq ∧ (s.withD3hot v).evtIrq = s.evtIrq ∧ (s.withD3hot v).evtDefer = s.evtDefer ∧ (s.withD3hot
    v).msix = s.msix ∧ (s.withD3hot v).dram = s.dram ∧ (s.withD3hot v).banks = s.banks ∧ (s.withD3hot v).pool = s.pool
    ∧ (s.withD3hot v).mailbox = s.mailbox ∧ (s.withD3hot v).flash = s.flash ∧ (s.withD3hot v).hostMem = s.hostMem ∧
    (s.withD3hot v).torn = s.torn ∧ (s.withD3hot v).sensors = s.sensors ∧ (s.withD3hot v).alertArmed = s.alertArmed ∧
    (s.withD3hot v).warnArmed = s.warnArmed ∧ (s.withD3hot v).persist = s.persist ∧ (s.withD3hot v).nvm = s.nvm ∧
    (s.withD3hot v).unit = s.unit ∧ (s.withD3hot v).lc = s.lc ∧ (s.withD3hot v).eraseDue = s.eraseDue ∧ (s.withD3hot
    v).slotTried = s.slotTried ∧ (s.withD3hot v).booted = s.booted ∧ (s.withD3hot v).bodyHash = s.bodyHash ∧
    (s.withD3hot v).hkOff = s.hkOff ∧ (s.withD3hot v).hkLen = s.hkLen ∧ (s.withD3hot v).hkEntry = s.hkEntry ∧
    (s.withD3hot v).sync = s.sync ∧ (s.withD3hot v).acts = s.acts ∧ (s.withD3hot v).dies = s.dies ∧ (s.withD3hot
    v).chans = s.chans ∧ (s.withD3hot v).rings = s.rings ∧ (s.withD3hot v).logBuf = s.logBuf ∧ (s.withD3hot v).logTime
    = s.logTime ∧ (s.withD3hot v).rq = s.rq ∧ (s.withD3hot v).tdcs = s.tdcs ∧ (s.withD3hot v).units = s.units ∧
    (s.withD3hot v).trigs = s.trigs ∧ (s.withD3hot v).streams = s.streams ∧ (s.withD3hot v).cal = s.cal ∧ (s.withD3hot
    v).ports = s.ports ∧ (s.withD3hot v).whistles = s.whistles ∧ (s.withD3hot v).shows = s.shows ∧ (s.withD3hot
    v).devs = s.devs ∧ (s.withD3hot v).queues = s.queues ∧ (s.withD3hot v).eccTime = s.eccTime ∧ (s.withD3hot v).jtag
    = s.jtag ∧ (s.withD3hot v).trims = s.trims ∧ (s.withD3hot v).patrol = s.patrol ∧ (s.withD3hot v).aer = s.aer ∧
    (s.withD3hot v).ep = s.ep ∧ (s.withD3hot v).blanks = s.blanks ∧ (s.withD3hot v).reply = s.reply ∧ (s.withD3hot
    v).freeCtr = s.freeCtr := by
  repeat' constructor

@[simp] theorem State.withDram_dram (s : State) (v : List Host.Cell) : (s.withDram v).dram = v := rfl

theorem State.withDram_others (s : State) (v : List Host.Cell) : (s.withDram v).pending = s.pending ∧ (s.withDram
    v).pins = s.pins ∧ (s.withDram v).mode = s.mode ∧ (s.withDram v).shed = s.shed ∧ (s.withDram v).otp = s.otp ∧
    (s.withDram v).regs = s.regs ∧ (s.withDram v).time = s.time ∧ (s.withDram v).slew = s.slew ∧ (s.withDram v).epoch
    = s.epoch ∧ (s.withDram v).counting = s.counting ∧ (s.withDram v).latches = s.latches ∧ (s.withDram v).evtSeq =
    s.evtSeq ∧ (s.withDram v).evtIrq = s.evtIrq ∧ (s.withDram v).evtDefer = s.evtDefer ∧ (s.withDram v).msix = s.msix
    ∧ (s.withDram v).d3hot = s.d3hot ∧ (s.withDram v).banks = s.banks ∧ (s.withDram v).pool = s.pool ∧ (s.withDram
    v).mailbox = s.mailbox ∧ (s.withDram v).flash = s.flash ∧ (s.withDram v).hostMem = s.hostMem ∧ (s.withDram v).torn
    = s.torn ∧ (s.withDram v).sensors = s.sensors ∧ (s.withDram v).alertArmed = s.alertArmed ∧ (s.withDram
    v).warnArmed = s.warnArmed ∧ (s.withDram v).persist = s.persist ∧ (s.withDram v).nvm = s.nvm ∧ (s.withDram v).unit
    = s.unit ∧ (s.withDram v).lc = s.lc ∧ (s.withDram v).eraseDue = s.eraseDue ∧ (s.withDram v).slotTried =
    s.slotTried ∧ (s.withDram v).booted = s.booted ∧ (s.withDram v).bodyHash = s.bodyHash ∧ (s.withDram v).hkOff =
    s.hkOff ∧ (s.withDram v).hkLen = s.hkLen ∧ (s.withDram v).hkEntry = s.hkEntry ∧ (s.withDram v).sync = s.sync ∧
    (s.withDram v).acts = s.acts ∧ (s.withDram v).dies = s.dies ∧ (s.withDram v).chans = s.chans ∧ (s.withDram
    v).rings = s.rings ∧ (s.withDram v).logBuf = s.logBuf ∧ (s.withDram v).logTime = s.logTime ∧ (s.withDram v).rq =
    s.rq ∧ (s.withDram v).tdcs = s.tdcs ∧ (s.withDram v).units = s.units ∧ (s.withDram v).trigs = s.trigs ∧
    (s.withDram v).streams = s.streams ∧ (s.withDram v).cal = s.cal ∧ (s.withDram v).ports = s.ports ∧ (s.withDram
    v).whistles = s.whistles ∧ (s.withDram v).shows = s.shows ∧ (s.withDram v).devs = s.devs ∧ (s.withDram v).queues =
    s.queues ∧ (s.withDram v).eccTime = s.eccTime ∧ (s.withDram v).jtag = s.jtag ∧ (s.withDram v).trims = s.trims ∧
    (s.withDram v).patrol = s.patrol ∧ (s.withDram v).aer = s.aer ∧ (s.withDram v).ep = s.ep ∧ (s.withDram v).blanks =
    s.blanks ∧ (s.withDram v).reply = s.reply ∧ (s.withDram v).freeCtr = s.freeCtr := by
  repeat' constructor

@[simp] theorem State.withBanks_banks (s : State) (v : List Host.Cell) : (s.withBanks v).banks = v := rfl

theorem State.withBanks_others (s : State) (v : List Host.Cell) : (s.withBanks v).pending = s.pending ∧ (s.withBanks
    v).pins = s.pins ∧ (s.withBanks v).mode = s.mode ∧ (s.withBanks v).shed = s.shed ∧ (s.withBanks v).otp = s.otp ∧
    (s.withBanks v).regs = s.regs ∧ (s.withBanks v).time = s.time ∧ (s.withBanks v).slew = s.slew ∧ (s.withBanks
    v).epoch = s.epoch ∧ (s.withBanks v).counting = s.counting ∧ (s.withBanks v).latches = s.latches ∧ (s.withBanks
    v).evtSeq = s.evtSeq ∧ (s.withBanks v).evtIrq = s.evtIrq ∧ (s.withBanks v).evtDefer = s.evtDefer ∧ (s.withBanks
    v).msix = s.msix ∧ (s.withBanks v).d3hot = s.d3hot ∧ (s.withBanks v).dram = s.dram ∧ (s.withBanks v).pool = s.pool
    ∧ (s.withBanks v).mailbox = s.mailbox ∧ (s.withBanks v).flash = s.flash ∧ (s.withBanks v).hostMem = s.hostMem ∧
    (s.withBanks v).torn = s.torn ∧ (s.withBanks v).sensors = s.sensors ∧ (s.withBanks v).alertArmed = s.alertArmed ∧
    (s.withBanks v).warnArmed = s.warnArmed ∧ (s.withBanks v).persist = s.persist ∧ (s.withBanks v).nvm = s.nvm ∧
    (s.withBanks v).unit = s.unit ∧ (s.withBanks v).lc = s.lc ∧ (s.withBanks v).eraseDue = s.eraseDue ∧ (s.withBanks
    v).slotTried = s.slotTried ∧ (s.withBanks v).booted = s.booted ∧ (s.withBanks v).bodyHash = s.bodyHash ∧
    (s.withBanks v).hkOff = s.hkOff ∧ (s.withBanks v).hkLen = s.hkLen ∧ (s.withBanks v).hkEntry = s.hkEntry ∧
    (s.withBanks v).sync = s.sync ∧ (s.withBanks v).acts = s.acts ∧ (s.withBanks v).dies = s.dies ∧ (s.withBanks
    v).chans = s.chans ∧ (s.withBanks v).rings = s.rings ∧ (s.withBanks v).logBuf = s.logBuf ∧ (s.withBanks v).logTime
    = s.logTime ∧ (s.withBanks v).rq = s.rq ∧ (s.withBanks v).tdcs = s.tdcs ∧ (s.withBanks v).units = s.units ∧
    (s.withBanks v).trigs = s.trigs ∧ (s.withBanks v).streams = s.streams ∧ (s.withBanks v).cal = s.cal ∧ (s.withBanks
    v).ports = s.ports ∧ (s.withBanks v).whistles = s.whistles ∧ (s.withBanks v).shows = s.shows ∧ (s.withBanks
    v).devs = s.devs ∧ (s.withBanks v).queues = s.queues ∧ (s.withBanks v).eccTime = s.eccTime ∧ (s.withBanks v).jtag
    = s.jtag ∧ (s.withBanks v).trims = s.trims ∧ (s.withBanks v).patrol = s.patrol ∧ (s.withBanks v).aer = s.aer ∧
    (s.withBanks v).ep = s.ep ∧ (s.withBanks v).blanks = s.blanks ∧ (s.withBanks v).reply = s.reply ∧ (s.withBanks
    v).freeCtr = s.freeCtr := by
  repeat' constructor

@[simp] theorem State.withPool_pool (s : State) (v : List Host.Cell) : (s.withPool v).pool = v := rfl

theorem State.withPool_others (s : State) (v : List Host.Cell) : (s.withPool v).pending = s.pending ∧ (s.withPool
    v).pins = s.pins ∧ (s.withPool v).mode = s.mode ∧ (s.withPool v).shed = s.shed ∧ (s.withPool v).otp = s.otp ∧
    (s.withPool v).regs = s.regs ∧ (s.withPool v).time = s.time ∧ (s.withPool v).slew = s.slew ∧ (s.withPool v).epoch
    = s.epoch ∧ (s.withPool v).counting = s.counting ∧ (s.withPool v).latches = s.latches ∧ (s.withPool v).evtSeq =
    s.evtSeq ∧ (s.withPool v).evtIrq = s.evtIrq ∧ (s.withPool v).evtDefer = s.evtDefer ∧ (s.withPool v).msix = s.msix
    ∧ (s.withPool v).d3hot = s.d3hot ∧ (s.withPool v).dram = s.dram ∧ (s.withPool v).banks = s.banks ∧ (s.withPool
    v).mailbox = s.mailbox ∧ (s.withPool v).flash = s.flash ∧ (s.withPool v).hostMem = s.hostMem ∧ (s.withPool v).torn
    = s.torn ∧ (s.withPool v).sensors = s.sensors ∧ (s.withPool v).alertArmed = s.alertArmed ∧ (s.withPool
    v).warnArmed = s.warnArmed ∧ (s.withPool v).persist = s.persist ∧ (s.withPool v).nvm = s.nvm ∧ (s.withPool v).unit
    = s.unit ∧ (s.withPool v).lc = s.lc ∧ (s.withPool v).eraseDue = s.eraseDue ∧ (s.withPool v).slotTried =
    s.slotTried ∧ (s.withPool v).booted = s.booted ∧ (s.withPool v).bodyHash = s.bodyHash ∧ (s.withPool v).hkOff =
    s.hkOff ∧ (s.withPool v).hkLen = s.hkLen ∧ (s.withPool v).hkEntry = s.hkEntry ∧ (s.withPool v).sync = s.sync ∧
    (s.withPool v).acts = s.acts ∧ (s.withPool v).dies = s.dies ∧ (s.withPool v).chans = s.chans ∧ (s.withPool
    v).rings = s.rings ∧ (s.withPool v).logBuf = s.logBuf ∧ (s.withPool v).logTime = s.logTime ∧ (s.withPool v).rq =
    s.rq ∧ (s.withPool v).tdcs = s.tdcs ∧ (s.withPool v).units = s.units ∧ (s.withPool v).trigs = s.trigs ∧
    (s.withPool v).streams = s.streams ∧ (s.withPool v).cal = s.cal ∧ (s.withPool v).ports = s.ports ∧ (s.withPool
    v).whistles = s.whistles ∧ (s.withPool v).shows = s.shows ∧ (s.withPool v).devs = s.devs ∧ (s.withPool v).queues =
    s.queues ∧ (s.withPool v).eccTime = s.eccTime ∧ (s.withPool v).jtag = s.jtag ∧ (s.withPool v).trims = s.trims ∧
    (s.withPool v).patrol = s.patrol ∧ (s.withPool v).aer = s.aer ∧ (s.withPool v).ep = s.ep ∧ (s.withPool v).blanks =
    s.blanks ∧ (s.withPool v).reply = s.reply ∧ (s.withPool v).freeCtr = s.freeCtr := by
  repeat' constructor

@[simp] theorem State.withMailbox_mailbox (s : State) (v : List Host.Cell) : (s.withMailbox v).mailbox = v := rfl

theorem State.withMailbox_others (s : State) (v : List Host.Cell) : (s.withMailbox v).pending = s.pending ∧
    (s.withMailbox v).pins = s.pins ∧ (s.withMailbox v).mode = s.mode ∧ (s.withMailbox v).shed = s.shed ∧
    (s.withMailbox v).otp = s.otp ∧ (s.withMailbox v).regs = s.regs ∧ (s.withMailbox v).time = s.time ∧ (s.withMailbox
    v).slew = s.slew ∧ (s.withMailbox v).epoch = s.epoch ∧ (s.withMailbox v).counting = s.counting ∧ (s.withMailbox
    v).latches = s.latches ∧ (s.withMailbox v).evtSeq = s.evtSeq ∧ (s.withMailbox v).evtIrq = s.evtIrq ∧
    (s.withMailbox v).evtDefer = s.evtDefer ∧ (s.withMailbox v).msix = s.msix ∧ (s.withMailbox v).d3hot = s.d3hot ∧
    (s.withMailbox v).dram = s.dram ∧ (s.withMailbox v).banks = s.banks ∧ (s.withMailbox v).pool = s.pool ∧
    (s.withMailbox v).flash = s.flash ∧ (s.withMailbox v).hostMem = s.hostMem ∧ (s.withMailbox v).torn = s.torn ∧
    (s.withMailbox v).sensors = s.sensors ∧ (s.withMailbox v).alertArmed = s.alertArmed ∧ (s.withMailbox v).warnArmed
    = s.warnArmed ∧ (s.withMailbox v).persist = s.persist ∧ (s.withMailbox v).nvm = s.nvm ∧ (s.withMailbox v).unit =
    s.unit ∧ (s.withMailbox v).lc = s.lc ∧ (s.withMailbox v).eraseDue = s.eraseDue ∧ (s.withMailbox v).slotTried =
    s.slotTried ∧ (s.withMailbox v).booted = s.booted ∧ (s.withMailbox v).bodyHash = s.bodyHash ∧ (s.withMailbox
    v).hkOff = s.hkOff ∧ (s.withMailbox v).hkLen = s.hkLen ∧ (s.withMailbox v).hkEntry = s.hkEntry ∧ (s.withMailbox
    v).sync = s.sync ∧ (s.withMailbox v).acts = s.acts ∧ (s.withMailbox v).dies = s.dies ∧ (s.withMailbox v).chans =
    s.chans ∧ (s.withMailbox v).rings = s.rings ∧ (s.withMailbox v).logBuf = s.logBuf ∧ (s.withMailbox v).logTime =
    s.logTime ∧ (s.withMailbox v).rq = s.rq ∧ (s.withMailbox v).tdcs = s.tdcs ∧ (s.withMailbox v).units = s.units ∧
    (s.withMailbox v).trigs = s.trigs ∧ (s.withMailbox v).streams = s.streams ∧ (s.withMailbox v).cal = s.cal ∧
    (s.withMailbox v).ports = s.ports ∧ (s.withMailbox v).whistles = s.whistles ∧ (s.withMailbox v).shows = s.shows ∧
    (s.withMailbox v).devs = s.devs ∧ (s.withMailbox v).queues = s.queues ∧ (s.withMailbox v).eccTime = s.eccTime ∧
    (s.withMailbox v).jtag = s.jtag ∧ (s.withMailbox v).trims = s.trims ∧ (s.withMailbox v).patrol = s.patrol ∧
    (s.withMailbox v).aer = s.aer ∧ (s.withMailbox v).ep = s.ep ∧ (s.withMailbox v).blanks = s.blanks ∧ (s.withMailbox
    v).reply = s.reply ∧ (s.withMailbox v).freeCtr = s.freeCtr := by
  repeat' constructor

@[simp] theorem State.withFlash_flash (s : State) (v : List Host.Cell) : (s.withFlash v).flash = v := rfl

theorem State.withFlash_others (s : State) (v : List Host.Cell) : (s.withFlash v).pending = s.pending ∧ (s.withFlash
    v).pins = s.pins ∧ (s.withFlash v).mode = s.mode ∧ (s.withFlash v).shed = s.shed ∧ (s.withFlash v).otp = s.otp ∧
    (s.withFlash v).regs = s.regs ∧ (s.withFlash v).time = s.time ∧ (s.withFlash v).slew = s.slew ∧ (s.withFlash
    v).epoch = s.epoch ∧ (s.withFlash v).counting = s.counting ∧ (s.withFlash v).latches = s.latches ∧ (s.withFlash
    v).evtSeq = s.evtSeq ∧ (s.withFlash v).evtIrq = s.evtIrq ∧ (s.withFlash v).evtDefer = s.evtDefer ∧ (s.withFlash
    v).msix = s.msix ∧ (s.withFlash v).d3hot = s.d3hot ∧ (s.withFlash v).dram = s.dram ∧ (s.withFlash v).banks =
    s.banks ∧ (s.withFlash v).pool = s.pool ∧ (s.withFlash v).mailbox = s.mailbox ∧ (s.withFlash v).hostMem =
    s.hostMem ∧ (s.withFlash v).torn = s.torn ∧ (s.withFlash v).sensors = s.sensors ∧ (s.withFlash v).alertArmed =
    s.alertArmed ∧ (s.withFlash v).warnArmed = s.warnArmed ∧ (s.withFlash v).persist = s.persist ∧ (s.withFlash v).nvm
    = s.nvm ∧ (s.withFlash v).unit = s.unit ∧ (s.withFlash v).lc = s.lc ∧ (s.withFlash v).eraseDue = s.eraseDue ∧
    (s.withFlash v).slotTried = s.slotTried ∧ (s.withFlash v).booted = s.booted ∧ (s.withFlash v).bodyHash =
    s.bodyHash ∧ (s.withFlash v).hkOff = s.hkOff ∧ (s.withFlash v).hkLen = s.hkLen ∧ (s.withFlash v).hkEntry =
    s.hkEntry ∧ (s.withFlash v).sync = s.sync ∧ (s.withFlash v).acts = s.acts ∧ (s.withFlash v).dies = s.dies ∧
    (s.withFlash v).chans = s.chans ∧ (s.withFlash v).rings = s.rings ∧ (s.withFlash v).logBuf = s.logBuf ∧
    (s.withFlash v).logTime = s.logTime ∧ (s.withFlash v).rq = s.rq ∧ (s.withFlash v).tdcs = s.tdcs ∧ (s.withFlash
    v).units = s.units ∧ (s.withFlash v).trigs = s.trigs ∧ (s.withFlash v).streams = s.streams ∧ (s.withFlash v).cal =
    s.cal ∧ (s.withFlash v).ports = s.ports ∧ (s.withFlash v).whistles = s.whistles ∧ (s.withFlash v).shows = s.shows
    ∧ (s.withFlash v).devs = s.devs ∧ (s.withFlash v).queues = s.queues ∧ (s.withFlash v).eccTime = s.eccTime ∧
    (s.withFlash v).jtag = s.jtag ∧ (s.withFlash v).trims = s.trims ∧ (s.withFlash v).patrol = s.patrol ∧ (s.withFlash
    v).aer = s.aer ∧ (s.withFlash v).ep = s.ep ∧ (s.withFlash v).blanks = s.blanks ∧ (s.withFlash v).reply = s.reply ∧
    (s.withFlash v).freeCtr = s.freeCtr := by
  repeat' constructor

@[simp] theorem State.withHostMem_hostMem (s : State) (v : List Host.Cell) : (s.withHostMem v).hostMem = v := rfl

theorem State.withHostMem_others (s : State) (v : List Host.Cell) : (s.withHostMem v).pending = s.pending ∧
    (s.withHostMem v).pins = s.pins ∧ (s.withHostMem v).mode = s.mode ∧ (s.withHostMem v).shed = s.shed ∧
    (s.withHostMem v).otp = s.otp ∧ (s.withHostMem v).regs = s.regs ∧ (s.withHostMem v).time = s.time ∧ (s.withHostMem
    v).slew = s.slew ∧ (s.withHostMem v).epoch = s.epoch ∧ (s.withHostMem v).counting = s.counting ∧ (s.withHostMem
    v).latches = s.latches ∧ (s.withHostMem v).evtSeq = s.evtSeq ∧ (s.withHostMem v).evtIrq = s.evtIrq ∧
    (s.withHostMem v).evtDefer = s.evtDefer ∧ (s.withHostMem v).msix = s.msix ∧ (s.withHostMem v).d3hot = s.d3hot ∧
    (s.withHostMem v).dram = s.dram ∧ (s.withHostMem v).banks = s.banks ∧ (s.withHostMem v).pool = s.pool ∧
    (s.withHostMem v).mailbox = s.mailbox ∧ (s.withHostMem v).flash = s.flash ∧ (s.withHostMem v).torn = s.torn ∧
    (s.withHostMem v).sensors = s.sensors ∧ (s.withHostMem v).alertArmed = s.alertArmed ∧ (s.withHostMem v).warnArmed
    = s.warnArmed ∧ (s.withHostMem v).persist = s.persist ∧ (s.withHostMem v).nvm = s.nvm ∧ (s.withHostMem v).unit =
    s.unit ∧ (s.withHostMem v).lc = s.lc ∧ (s.withHostMem v).eraseDue = s.eraseDue ∧ (s.withHostMem v).slotTried =
    s.slotTried ∧ (s.withHostMem v).booted = s.booted ∧ (s.withHostMem v).bodyHash = s.bodyHash ∧ (s.withHostMem
    v).hkOff = s.hkOff ∧ (s.withHostMem v).hkLen = s.hkLen ∧ (s.withHostMem v).hkEntry = s.hkEntry ∧ (s.withHostMem
    v).sync = s.sync ∧ (s.withHostMem v).acts = s.acts ∧ (s.withHostMem v).dies = s.dies ∧ (s.withHostMem v).chans =
    s.chans ∧ (s.withHostMem v).rings = s.rings ∧ (s.withHostMem v).logBuf = s.logBuf ∧ (s.withHostMem v).logTime =
    s.logTime ∧ (s.withHostMem v).rq = s.rq ∧ (s.withHostMem v).tdcs = s.tdcs ∧ (s.withHostMem v).units = s.units ∧
    (s.withHostMem v).trigs = s.trigs ∧ (s.withHostMem v).streams = s.streams ∧ (s.withHostMem v).cal = s.cal ∧
    (s.withHostMem v).ports = s.ports ∧ (s.withHostMem v).whistles = s.whistles ∧ (s.withHostMem v).shows = s.shows ∧
    (s.withHostMem v).devs = s.devs ∧ (s.withHostMem v).queues = s.queues ∧ (s.withHostMem v).eccTime = s.eccTime ∧
    (s.withHostMem v).jtag = s.jtag ∧ (s.withHostMem v).trims = s.trims ∧ (s.withHostMem v).patrol = s.patrol ∧
    (s.withHostMem v).aer = s.aer ∧ (s.withHostMem v).ep = s.ep ∧ (s.withHostMem v).blanks = s.blanks ∧ (s.withHostMem
    v).reply = s.reply ∧ (s.withHostMem v).freeCtr = s.freeCtr := by
  repeat' constructor

@[simp] theorem State.withTorn_torn (s : State) (v : Tab (Option Byte)) : (s.withTorn v).torn = v := rfl

theorem State.withTorn_others (s : State) (v : Tab (Option Byte)) : (s.withTorn v).pending = s.pending ∧ (s.withTorn
    v).pins = s.pins ∧ (s.withTorn v).mode = s.mode ∧ (s.withTorn v).shed = s.shed ∧ (s.withTorn v).otp = s.otp ∧
    (s.withTorn v).regs = s.regs ∧ (s.withTorn v).time = s.time ∧ (s.withTorn v).slew = s.slew ∧ (s.withTorn v).epoch
    = s.epoch ∧ (s.withTorn v).counting = s.counting ∧ (s.withTorn v).latches = s.latches ∧ (s.withTorn v).evtSeq =
    s.evtSeq ∧ (s.withTorn v).evtIrq = s.evtIrq ∧ (s.withTorn v).evtDefer = s.evtDefer ∧ (s.withTorn v).msix = s.msix
    ∧ (s.withTorn v).d3hot = s.d3hot ∧ (s.withTorn v).dram = s.dram ∧ (s.withTorn v).banks = s.banks ∧ (s.withTorn
    v).pool = s.pool ∧ (s.withTorn v).mailbox = s.mailbox ∧ (s.withTorn v).flash = s.flash ∧ (s.withTorn v).hostMem =
    s.hostMem ∧ (s.withTorn v).sensors = s.sensors ∧ (s.withTorn v).alertArmed = s.alertArmed ∧ (s.withTorn
    v).warnArmed = s.warnArmed ∧ (s.withTorn v).persist = s.persist ∧ (s.withTorn v).nvm = s.nvm ∧ (s.withTorn v).unit
    = s.unit ∧ (s.withTorn v).lc = s.lc ∧ (s.withTorn v).eraseDue = s.eraseDue ∧ (s.withTorn v).slotTried =
    s.slotTried ∧ (s.withTorn v).booted = s.booted ∧ (s.withTorn v).bodyHash = s.bodyHash ∧ (s.withTorn v).hkOff =
    s.hkOff ∧ (s.withTorn v).hkLen = s.hkLen ∧ (s.withTorn v).hkEntry = s.hkEntry ∧ (s.withTorn v).sync = s.sync ∧
    (s.withTorn v).acts = s.acts ∧ (s.withTorn v).dies = s.dies ∧ (s.withTorn v).chans = s.chans ∧ (s.withTorn
    v).rings = s.rings ∧ (s.withTorn v).logBuf = s.logBuf ∧ (s.withTorn v).logTime = s.logTime ∧ (s.withTorn v).rq =
    s.rq ∧ (s.withTorn v).tdcs = s.tdcs ∧ (s.withTorn v).units = s.units ∧ (s.withTorn v).trigs = s.trigs ∧
    (s.withTorn v).streams = s.streams ∧ (s.withTorn v).cal = s.cal ∧ (s.withTorn v).ports = s.ports ∧ (s.withTorn
    v).whistles = s.whistles ∧ (s.withTorn v).shows = s.shows ∧ (s.withTorn v).devs = s.devs ∧ (s.withTorn v).queues =
    s.queues ∧ (s.withTorn v).eccTime = s.eccTime ∧ (s.withTorn v).jtag = s.jtag ∧ (s.withTorn v).trims = s.trims ∧
    (s.withTorn v).patrol = s.patrol ∧ (s.withTorn v).aer = s.aer ∧ (s.withTorn v).ep = s.ep ∧ (s.withTorn v).blanks =
    s.blanks ∧ (s.withTorn v).reply = s.reply ∧ (s.withTorn v).freeCtr = s.freeCtr := by
  repeat' constructor

@[simp] theorem State.withSensors_sensors (s : State) (v : Tab Sensor) : (s.withSensors v).sensors = v := rfl

theorem State.withSensors_others (s : State) (v : Tab Sensor) : (s.withSensors v).pending = s.pending ∧ (s.withSensors
    v).pins = s.pins ∧ (s.withSensors v).mode = s.mode ∧ (s.withSensors v).shed = s.shed ∧ (s.withSensors v).otp =
    s.otp ∧ (s.withSensors v).regs = s.regs ∧ (s.withSensors v).time = s.time ∧ (s.withSensors v).slew = s.slew ∧
    (s.withSensors v).epoch = s.epoch ∧ (s.withSensors v).counting = s.counting ∧ (s.withSensors v).latches =
    s.latches ∧ (s.withSensors v).evtSeq = s.evtSeq ∧ (s.withSensors v).evtIrq = s.evtIrq ∧ (s.withSensors v).evtDefer
    = s.evtDefer ∧ (s.withSensors v).msix = s.msix ∧ (s.withSensors v).d3hot = s.d3hot ∧ (s.withSensors v).dram =
    s.dram ∧ (s.withSensors v).banks = s.banks ∧ (s.withSensors v).pool = s.pool ∧ (s.withSensors v).mailbox =
    s.mailbox ∧ (s.withSensors v).flash = s.flash ∧ (s.withSensors v).hostMem = s.hostMem ∧ (s.withSensors v).torn =
    s.torn ∧ (s.withSensors v).alertArmed = s.alertArmed ∧ (s.withSensors v).warnArmed = s.warnArmed ∧ (s.withSensors
    v).persist = s.persist ∧ (s.withSensors v).nvm = s.nvm ∧ (s.withSensors v).unit = s.unit ∧ (s.withSensors v).lc =
    s.lc ∧ (s.withSensors v).eraseDue = s.eraseDue ∧ (s.withSensors v).slotTried = s.slotTried ∧ (s.withSensors
    v).booted = s.booted ∧ (s.withSensors v).bodyHash = s.bodyHash ∧ (s.withSensors v).hkOff = s.hkOff ∧
    (s.withSensors v).hkLen = s.hkLen ∧ (s.withSensors v).hkEntry = s.hkEntry ∧ (s.withSensors v).sync = s.sync ∧
    (s.withSensors v).acts = s.acts ∧ (s.withSensors v).dies = s.dies ∧ (s.withSensors v).chans = s.chans ∧
    (s.withSensors v).rings = s.rings ∧ (s.withSensors v).logBuf = s.logBuf ∧ (s.withSensors v).logTime = s.logTime ∧
    (s.withSensors v).rq = s.rq ∧ (s.withSensors v).tdcs = s.tdcs ∧ (s.withSensors v).units = s.units ∧ (s.withSensors
    v).trigs = s.trigs ∧ (s.withSensors v).streams = s.streams ∧ (s.withSensors v).cal = s.cal ∧ (s.withSensors
    v).ports = s.ports ∧ (s.withSensors v).whistles = s.whistles ∧ (s.withSensors v).shows = s.shows ∧ (s.withSensors
    v).devs = s.devs ∧ (s.withSensors v).queues = s.queues ∧ (s.withSensors v).eccTime = s.eccTime ∧ (s.withSensors
    v).jtag = s.jtag ∧ (s.withSensors v).trims = s.trims ∧ (s.withSensors v).patrol = s.patrol ∧ (s.withSensors v).aer
    = s.aer ∧ (s.withSensors v).ep = s.ep ∧ (s.withSensors v).blanks = s.blanks ∧ (s.withSensors v).reply = s.reply ∧
    (s.withSensors v).freeCtr = s.freeCtr := by
  repeat' constructor

@[simp] theorem State.withAlertArmed_alertArmed (s : State) (v : Bool) : (s.withAlertArmed v).alertArmed = v := rfl

theorem State.withAlertArmed_others (s : State) (v : Bool) : (s.withAlertArmed v).pending = s.pending ∧
    (s.withAlertArmed v).pins = s.pins ∧ (s.withAlertArmed v).mode = s.mode ∧ (s.withAlertArmed v).shed = s.shed ∧
    (s.withAlertArmed v).otp = s.otp ∧ (s.withAlertArmed v).regs = s.regs ∧ (s.withAlertArmed v).time = s.time ∧
    (s.withAlertArmed v).slew = s.slew ∧ (s.withAlertArmed v).epoch = s.epoch ∧ (s.withAlertArmed v).counting =
    s.counting ∧ (s.withAlertArmed v).latches = s.latches ∧ (s.withAlertArmed v).evtSeq = s.evtSeq ∧ (s.withAlertArmed
    v).evtIrq = s.evtIrq ∧ (s.withAlertArmed v).evtDefer = s.evtDefer ∧ (s.withAlertArmed v).msix = s.msix ∧
    (s.withAlertArmed v).d3hot = s.d3hot ∧ (s.withAlertArmed v).dram = s.dram ∧ (s.withAlertArmed v).banks = s.banks ∧
    (s.withAlertArmed v).pool = s.pool ∧ (s.withAlertArmed v).mailbox = s.mailbox ∧ (s.withAlertArmed v).flash =
    s.flash ∧ (s.withAlertArmed v).hostMem = s.hostMem ∧ (s.withAlertArmed v).torn = s.torn ∧ (s.withAlertArmed
    v).sensors = s.sensors ∧ (s.withAlertArmed v).warnArmed = s.warnArmed ∧ (s.withAlertArmed v).persist = s.persist ∧
    (s.withAlertArmed v).nvm = s.nvm ∧ (s.withAlertArmed v).unit = s.unit ∧ (s.withAlertArmed v).lc = s.lc ∧
    (s.withAlertArmed v).eraseDue = s.eraseDue ∧ (s.withAlertArmed v).slotTried = s.slotTried ∧ (s.withAlertArmed
    v).booted = s.booted ∧ (s.withAlertArmed v).bodyHash = s.bodyHash ∧ (s.withAlertArmed v).hkOff = s.hkOff ∧
    (s.withAlertArmed v).hkLen = s.hkLen ∧ (s.withAlertArmed v).hkEntry = s.hkEntry ∧ (s.withAlertArmed v).sync =
    s.sync ∧ (s.withAlertArmed v).acts = s.acts ∧ (s.withAlertArmed v).dies = s.dies ∧ (s.withAlertArmed v).chans =
    s.chans ∧ (s.withAlertArmed v).rings = s.rings ∧ (s.withAlertArmed v).logBuf = s.logBuf ∧ (s.withAlertArmed
    v).logTime = s.logTime ∧ (s.withAlertArmed v).rq = s.rq ∧ (s.withAlertArmed v).tdcs = s.tdcs ∧ (s.withAlertArmed
    v).units = s.units ∧ (s.withAlertArmed v).trigs = s.trigs ∧ (s.withAlertArmed v).streams = s.streams ∧
    (s.withAlertArmed v).cal = s.cal ∧ (s.withAlertArmed v).ports = s.ports ∧ (s.withAlertArmed v).whistles =
    s.whistles ∧ (s.withAlertArmed v).shows = s.shows ∧ (s.withAlertArmed v).devs = s.devs ∧ (s.withAlertArmed
    v).queues = s.queues ∧ (s.withAlertArmed v).eccTime = s.eccTime ∧ (s.withAlertArmed v).jtag = s.jtag ∧
    (s.withAlertArmed v).trims = s.trims ∧ (s.withAlertArmed v).patrol = s.patrol ∧ (s.withAlertArmed v).aer = s.aer ∧
    (s.withAlertArmed v).ep = s.ep ∧ (s.withAlertArmed v).blanks = s.blanks ∧ (s.withAlertArmed v).reply = s.reply ∧
    (s.withAlertArmed v).freeCtr = s.freeCtr := by
  repeat' constructor

@[simp] theorem State.withWarnArmed_warnArmed (s : State) (v : Bool) : (s.withWarnArmed v).warnArmed = v := rfl

theorem State.withWarnArmed_others (s : State) (v : Bool) : (s.withWarnArmed v).pending = s.pending ∧ (s.withWarnArmed
    v).pins = s.pins ∧ (s.withWarnArmed v).mode = s.mode ∧ (s.withWarnArmed v).shed = s.shed ∧ (s.withWarnArmed v).otp
    = s.otp ∧ (s.withWarnArmed v).regs = s.regs ∧ (s.withWarnArmed v).time = s.time ∧ (s.withWarnArmed v).slew =
    s.slew ∧ (s.withWarnArmed v).epoch = s.epoch ∧ (s.withWarnArmed v).counting = s.counting ∧ (s.withWarnArmed
    v).latches = s.latches ∧ (s.withWarnArmed v).evtSeq = s.evtSeq ∧ (s.withWarnArmed v).evtIrq = s.evtIrq ∧
    (s.withWarnArmed v).evtDefer = s.evtDefer ∧ (s.withWarnArmed v).msix = s.msix ∧ (s.withWarnArmed v).d3hot =
    s.d3hot ∧ (s.withWarnArmed v).dram = s.dram ∧ (s.withWarnArmed v).banks = s.banks ∧ (s.withWarnArmed v).pool =
    s.pool ∧ (s.withWarnArmed v).mailbox = s.mailbox ∧ (s.withWarnArmed v).flash = s.flash ∧ (s.withWarnArmed
    v).hostMem = s.hostMem ∧ (s.withWarnArmed v).torn = s.torn ∧ (s.withWarnArmed v).sensors = s.sensors ∧
    (s.withWarnArmed v).alertArmed = s.alertArmed ∧ (s.withWarnArmed v).persist = s.persist ∧ (s.withWarnArmed v).nvm
    = s.nvm ∧ (s.withWarnArmed v).unit = s.unit ∧ (s.withWarnArmed v).lc = s.lc ∧ (s.withWarnArmed v).eraseDue =
    s.eraseDue ∧ (s.withWarnArmed v).slotTried = s.slotTried ∧ (s.withWarnArmed v).booted = s.booted ∧
    (s.withWarnArmed v).bodyHash = s.bodyHash ∧ (s.withWarnArmed v).hkOff = s.hkOff ∧ (s.withWarnArmed v).hkLen =
    s.hkLen ∧ (s.withWarnArmed v).hkEntry = s.hkEntry ∧ (s.withWarnArmed v).sync = s.sync ∧ (s.withWarnArmed v).acts =
    s.acts ∧ (s.withWarnArmed v).dies = s.dies ∧ (s.withWarnArmed v).chans = s.chans ∧ (s.withWarnArmed v).rings =
    s.rings ∧ (s.withWarnArmed v).logBuf = s.logBuf ∧ (s.withWarnArmed v).logTime = s.logTime ∧ (s.withWarnArmed v).rq
    = s.rq ∧ (s.withWarnArmed v).tdcs = s.tdcs ∧ (s.withWarnArmed v).units = s.units ∧ (s.withWarnArmed v).trigs =
    s.trigs ∧ (s.withWarnArmed v).streams = s.streams ∧ (s.withWarnArmed v).cal = s.cal ∧ (s.withWarnArmed v).ports =
    s.ports ∧ (s.withWarnArmed v).whistles = s.whistles ∧ (s.withWarnArmed v).shows = s.shows ∧ (s.withWarnArmed
    v).devs = s.devs ∧ (s.withWarnArmed v).queues = s.queues ∧ (s.withWarnArmed v).eccTime = s.eccTime ∧
    (s.withWarnArmed v).jtag = s.jtag ∧ (s.withWarnArmed v).trims = s.trims ∧ (s.withWarnArmed v).patrol = s.patrol ∧
    (s.withWarnArmed v).aer = s.aer ∧ (s.withWarnArmed v).ep = s.ep ∧ (s.withWarnArmed v).blanks = s.blanks ∧
    (s.withWarnArmed v).reply = s.reply ∧ (s.withWarnArmed v).freeCtr = s.freeCtr := by
  repeat' constructor

@[simp] theorem State.withPersist_persist (s : State) (v : Persist) : (s.withPersist v).persist = v := rfl

theorem State.withPersist_others (s : State) (v : Persist) : (s.withPersist v).pending = s.pending ∧ (s.withPersist
    v).pins = s.pins ∧ (s.withPersist v).mode = s.mode ∧ (s.withPersist v).shed = s.shed ∧ (s.withPersist v).otp =
    s.otp ∧ (s.withPersist v).regs = s.regs ∧ (s.withPersist v).time = s.time ∧ (s.withPersist v).slew = s.slew ∧
    (s.withPersist v).epoch = s.epoch ∧ (s.withPersist v).counting = s.counting ∧ (s.withPersist v).latches =
    s.latches ∧ (s.withPersist v).evtSeq = s.evtSeq ∧ (s.withPersist v).evtIrq = s.evtIrq ∧ (s.withPersist v).evtDefer
    = s.evtDefer ∧ (s.withPersist v).msix = s.msix ∧ (s.withPersist v).d3hot = s.d3hot ∧ (s.withPersist v).dram =
    s.dram ∧ (s.withPersist v).banks = s.banks ∧ (s.withPersist v).pool = s.pool ∧ (s.withPersist v).mailbox =
    s.mailbox ∧ (s.withPersist v).flash = s.flash ∧ (s.withPersist v).hostMem = s.hostMem ∧ (s.withPersist v).torn =
    s.torn ∧ (s.withPersist v).sensors = s.sensors ∧ (s.withPersist v).alertArmed = s.alertArmed ∧ (s.withPersist
    v).warnArmed = s.warnArmed ∧ (s.withPersist v).nvm = s.nvm ∧ (s.withPersist v).unit = s.unit ∧ (s.withPersist
    v).lc = s.lc ∧ (s.withPersist v).eraseDue = s.eraseDue ∧ (s.withPersist v).slotTried = s.slotTried ∧
    (s.withPersist v).booted = s.booted ∧ (s.withPersist v).bodyHash = s.bodyHash ∧ (s.withPersist v).hkOff = s.hkOff
    ∧ (s.withPersist v).hkLen = s.hkLen ∧ (s.withPersist v).hkEntry = s.hkEntry ∧ (s.withPersist v).sync = s.sync ∧
    (s.withPersist v).acts = s.acts ∧ (s.withPersist v).dies = s.dies ∧ (s.withPersist v).chans = s.chans ∧
    (s.withPersist v).rings = s.rings ∧ (s.withPersist v).logBuf = s.logBuf ∧ (s.withPersist v).logTime = s.logTime ∧
    (s.withPersist v).rq = s.rq ∧ (s.withPersist v).tdcs = s.tdcs ∧ (s.withPersist v).units = s.units ∧ (s.withPersist
    v).trigs = s.trigs ∧ (s.withPersist v).streams = s.streams ∧ (s.withPersist v).cal = s.cal ∧ (s.withPersist
    v).ports = s.ports ∧ (s.withPersist v).whistles = s.whistles ∧ (s.withPersist v).shows = s.shows ∧ (s.withPersist
    v).devs = s.devs ∧ (s.withPersist v).queues = s.queues ∧ (s.withPersist v).eccTime = s.eccTime ∧ (s.withPersist
    v).jtag = s.jtag ∧ (s.withPersist v).trims = s.trims ∧ (s.withPersist v).patrol = s.patrol ∧ (s.withPersist v).aer
    = s.aer ∧ (s.withPersist v).ep = s.ep ∧ (s.withPersist v).blanks = s.blanks ∧ (s.withPersist v).reply = s.reply ∧
    (s.withPersist v).freeCtr = s.freeCtr := by
  repeat' constructor

@[simp] theorem State.withNvm_nvm (s : State) (v : Option NvmJob) : (s.withNvm v).nvm = v := rfl

theorem State.withNvm_others (s : State) (v : Option NvmJob) : (s.withNvm v).pending = s.pending ∧ (s.withNvm v).pins
    = s.pins ∧ (s.withNvm v).mode = s.mode ∧ (s.withNvm v).shed = s.shed ∧ (s.withNvm v).otp = s.otp ∧ (s.withNvm
    v).regs = s.regs ∧ (s.withNvm v).time = s.time ∧ (s.withNvm v).slew = s.slew ∧ (s.withNvm v).epoch = s.epoch ∧
    (s.withNvm v).counting = s.counting ∧ (s.withNvm v).latches = s.latches ∧ (s.withNvm v).evtSeq = s.evtSeq ∧
    (s.withNvm v).evtIrq = s.evtIrq ∧ (s.withNvm v).evtDefer = s.evtDefer ∧ (s.withNvm v).msix = s.msix ∧ (s.withNvm
    v).d3hot = s.d3hot ∧ (s.withNvm v).dram = s.dram ∧ (s.withNvm v).banks = s.banks ∧ (s.withNvm v).pool = s.pool ∧
    (s.withNvm v).mailbox = s.mailbox ∧ (s.withNvm v).flash = s.flash ∧ (s.withNvm v).hostMem = s.hostMem ∧ (s.withNvm
    v).torn = s.torn ∧ (s.withNvm v).sensors = s.sensors ∧ (s.withNvm v).alertArmed = s.alertArmed ∧ (s.withNvm
    v).warnArmed = s.warnArmed ∧ (s.withNvm v).persist = s.persist ∧ (s.withNvm v).unit = s.unit ∧ (s.withNvm v).lc =
    s.lc ∧ (s.withNvm v).eraseDue = s.eraseDue ∧ (s.withNvm v).slotTried = s.slotTried ∧ (s.withNvm v).booted =
    s.booted ∧ (s.withNvm v).bodyHash = s.bodyHash ∧ (s.withNvm v).hkOff = s.hkOff ∧ (s.withNvm v).hkLen = s.hkLen ∧
    (s.withNvm v).hkEntry = s.hkEntry ∧ (s.withNvm v).sync = s.sync ∧ (s.withNvm v).acts = s.acts ∧ (s.withNvm v).dies
    = s.dies ∧ (s.withNvm v).chans = s.chans ∧ (s.withNvm v).rings = s.rings ∧ (s.withNvm v).logBuf = s.logBuf ∧
    (s.withNvm v).logTime = s.logTime ∧ (s.withNvm v).rq = s.rq ∧ (s.withNvm v).tdcs = s.tdcs ∧ (s.withNvm v).units =
    s.units ∧ (s.withNvm v).trigs = s.trigs ∧ (s.withNvm v).streams = s.streams ∧ (s.withNvm v).cal = s.cal ∧
    (s.withNvm v).ports = s.ports ∧ (s.withNvm v).whistles = s.whistles ∧ (s.withNvm v).shows = s.shows ∧ (s.withNvm
    v).devs = s.devs ∧ (s.withNvm v).queues = s.queues ∧ (s.withNvm v).eccTime = s.eccTime ∧ (s.withNvm v).jtag =
    s.jtag ∧ (s.withNvm v).trims = s.trims ∧ (s.withNvm v).patrol = s.patrol ∧ (s.withNvm v).aer = s.aer ∧ (s.withNvm
    v).ep = s.ep ∧ (s.withNvm v).blanks = s.blanks ∧ (s.withNvm v).reply = s.reply ∧ (s.withNvm v).freeCtr = s.freeCtr
    := by
  repeat' constructor

@[simp] theorem State.withUnit_unit (s : State) (v : Option FlashUnit) : (s.withUnit v).unit = v := rfl

theorem State.withUnit_others (s : State) (v : Option FlashUnit) : (s.withUnit v).pending = s.pending ∧ (s.withUnit
    v).pins = s.pins ∧ (s.withUnit v).mode = s.mode ∧ (s.withUnit v).shed = s.shed ∧ (s.withUnit v).otp = s.otp ∧
    (s.withUnit v).regs = s.regs ∧ (s.withUnit v).time = s.time ∧ (s.withUnit v).slew = s.slew ∧ (s.withUnit v).epoch
    = s.epoch ∧ (s.withUnit v).counting = s.counting ∧ (s.withUnit v).latches = s.latches ∧ (s.withUnit v).evtSeq =
    s.evtSeq ∧ (s.withUnit v).evtIrq = s.evtIrq ∧ (s.withUnit v).evtDefer = s.evtDefer ∧ (s.withUnit v).msix = s.msix
    ∧ (s.withUnit v).d3hot = s.d3hot ∧ (s.withUnit v).dram = s.dram ∧ (s.withUnit v).banks = s.banks ∧ (s.withUnit
    v).pool = s.pool ∧ (s.withUnit v).mailbox = s.mailbox ∧ (s.withUnit v).flash = s.flash ∧ (s.withUnit v).hostMem =
    s.hostMem ∧ (s.withUnit v).torn = s.torn ∧ (s.withUnit v).sensors = s.sensors ∧ (s.withUnit v).alertArmed =
    s.alertArmed ∧ (s.withUnit v).warnArmed = s.warnArmed ∧ (s.withUnit v).persist = s.persist ∧ (s.withUnit v).nvm =
    s.nvm ∧ (s.withUnit v).lc = s.lc ∧ (s.withUnit v).eraseDue = s.eraseDue ∧ (s.withUnit v).slotTried = s.slotTried ∧
    (s.withUnit v).booted = s.booted ∧ (s.withUnit v).bodyHash = s.bodyHash ∧ (s.withUnit v).hkOff = s.hkOff ∧
    (s.withUnit v).hkLen = s.hkLen ∧ (s.withUnit v).hkEntry = s.hkEntry ∧ (s.withUnit v).sync = s.sync ∧ (s.withUnit
    v).acts = s.acts ∧ (s.withUnit v).dies = s.dies ∧ (s.withUnit v).chans = s.chans ∧ (s.withUnit v).rings = s.rings
    ∧ (s.withUnit v).logBuf = s.logBuf ∧ (s.withUnit v).logTime = s.logTime ∧ (s.withUnit v).rq = s.rq ∧ (s.withUnit
    v).tdcs = s.tdcs ∧ (s.withUnit v).units = s.units ∧ (s.withUnit v).trigs = s.trigs ∧ (s.withUnit v).streams =
    s.streams ∧ (s.withUnit v).cal = s.cal ∧ (s.withUnit v).ports = s.ports ∧ (s.withUnit v).whistles = s.whistles ∧
    (s.withUnit v).shows = s.shows ∧ (s.withUnit v).devs = s.devs ∧ (s.withUnit v).queues = s.queues ∧ (s.withUnit
    v).eccTime = s.eccTime ∧ (s.withUnit v).jtag = s.jtag ∧ (s.withUnit v).trims = s.trims ∧ (s.withUnit v).patrol =
    s.patrol ∧ (s.withUnit v).aer = s.aer ∧ (s.withUnit v).ep = s.ep ∧ (s.withUnit v).blanks = s.blanks ∧ (s.withUnit
    v).reply = s.reply ∧ (s.withUnit v).freeCtr = s.freeCtr := by
  repeat' constructor

@[simp] theorem State.withLc_lc (s : State) (v : Option LcJob) : (s.withLc v).lc = v := rfl

theorem State.withLc_others (s : State) (v : Option LcJob) : (s.withLc v).pending = s.pending ∧ (s.withLc v).pins =
    s.pins ∧ (s.withLc v).mode = s.mode ∧ (s.withLc v).shed = s.shed ∧ (s.withLc v).otp = s.otp ∧ (s.withLc v).regs =
    s.regs ∧ (s.withLc v).time = s.time ∧ (s.withLc v).slew = s.slew ∧ (s.withLc v).epoch = s.epoch ∧ (s.withLc
    v).counting = s.counting ∧ (s.withLc v).latches = s.latches ∧ (s.withLc v).evtSeq = s.evtSeq ∧ (s.withLc v).evtIrq
    = s.evtIrq ∧ (s.withLc v).evtDefer = s.evtDefer ∧ (s.withLc v).msix = s.msix ∧ (s.withLc v).d3hot = s.d3hot ∧
    (s.withLc v).dram = s.dram ∧ (s.withLc v).banks = s.banks ∧ (s.withLc v).pool = s.pool ∧ (s.withLc v).mailbox =
    s.mailbox ∧ (s.withLc v).flash = s.flash ∧ (s.withLc v).hostMem = s.hostMem ∧ (s.withLc v).torn = s.torn ∧
    (s.withLc v).sensors = s.sensors ∧ (s.withLc v).alertArmed = s.alertArmed ∧ (s.withLc v).warnArmed = s.warnArmed ∧
    (s.withLc v).persist = s.persist ∧ (s.withLc v).nvm = s.nvm ∧ (s.withLc v).unit = s.unit ∧ (s.withLc v).eraseDue =
    s.eraseDue ∧ (s.withLc v).slotTried = s.slotTried ∧ (s.withLc v).booted = s.booted ∧ (s.withLc v).bodyHash =
    s.bodyHash ∧ (s.withLc v).hkOff = s.hkOff ∧ (s.withLc v).hkLen = s.hkLen ∧ (s.withLc v).hkEntry = s.hkEntry ∧
    (s.withLc v).sync = s.sync ∧ (s.withLc v).acts = s.acts ∧ (s.withLc v).dies = s.dies ∧ (s.withLc v).chans =
    s.chans ∧ (s.withLc v).rings = s.rings ∧ (s.withLc v).logBuf = s.logBuf ∧ (s.withLc v).logTime = s.logTime ∧
    (s.withLc v).rq = s.rq ∧ (s.withLc v).tdcs = s.tdcs ∧ (s.withLc v).units = s.units ∧ (s.withLc v).trigs = s.trigs
    ∧ (s.withLc v).streams = s.streams ∧ (s.withLc v).cal = s.cal ∧ (s.withLc v).ports = s.ports ∧ (s.withLc
    v).whistles = s.whistles ∧ (s.withLc v).shows = s.shows ∧ (s.withLc v).devs = s.devs ∧ (s.withLc v).queues =
    s.queues ∧ (s.withLc v).eccTime = s.eccTime ∧ (s.withLc v).jtag = s.jtag ∧ (s.withLc v).trims = s.trims ∧
    (s.withLc v).patrol = s.patrol ∧ (s.withLc v).aer = s.aer ∧ (s.withLc v).ep = s.ep ∧ (s.withLc v).blanks =
    s.blanks ∧ (s.withLc v).reply = s.reply ∧ (s.withLc v).freeCtr = s.freeCtr := by
  repeat' constructor

@[simp] theorem State.withEraseDue_eraseDue (s : State) (v : Bool) : (s.withEraseDue v).eraseDue = v := rfl

theorem State.withEraseDue_others (s : State) (v : Bool) : (s.withEraseDue v).pending = s.pending ∧ (s.withEraseDue
    v).pins = s.pins ∧ (s.withEraseDue v).mode = s.mode ∧ (s.withEraseDue v).shed = s.shed ∧ (s.withEraseDue v).otp =
    s.otp ∧ (s.withEraseDue v).regs = s.regs ∧ (s.withEraseDue v).time = s.time ∧ (s.withEraseDue v).slew = s.slew ∧
    (s.withEraseDue v).epoch = s.epoch ∧ (s.withEraseDue v).counting = s.counting ∧ (s.withEraseDue v).latches =
    s.latches ∧ (s.withEraseDue v).evtSeq = s.evtSeq ∧ (s.withEraseDue v).evtIrq = s.evtIrq ∧ (s.withEraseDue
    v).evtDefer = s.evtDefer ∧ (s.withEraseDue v).msix = s.msix ∧ (s.withEraseDue v).d3hot = s.d3hot ∧ (s.withEraseDue
    v).dram = s.dram ∧ (s.withEraseDue v).banks = s.banks ∧ (s.withEraseDue v).pool = s.pool ∧ (s.withEraseDue
    v).mailbox = s.mailbox ∧ (s.withEraseDue v).flash = s.flash ∧ (s.withEraseDue v).hostMem = s.hostMem ∧
    (s.withEraseDue v).torn = s.torn ∧ (s.withEraseDue v).sensors = s.sensors ∧ (s.withEraseDue v).alertArmed =
    s.alertArmed ∧ (s.withEraseDue v).warnArmed = s.warnArmed ∧ (s.withEraseDue v).persist = s.persist ∧
    (s.withEraseDue v).nvm = s.nvm ∧ (s.withEraseDue v).unit = s.unit ∧ (s.withEraseDue v).lc = s.lc ∧ (s.withEraseDue
    v).slotTried = s.slotTried ∧ (s.withEraseDue v).booted = s.booted ∧ (s.withEraseDue v).bodyHash = s.bodyHash ∧
    (s.withEraseDue v).hkOff = s.hkOff ∧ (s.withEraseDue v).hkLen = s.hkLen ∧ (s.withEraseDue v).hkEntry = s.hkEntry ∧
    (s.withEraseDue v).sync = s.sync ∧ (s.withEraseDue v).acts = s.acts ∧ (s.withEraseDue v).dies = s.dies ∧
    (s.withEraseDue v).chans = s.chans ∧ (s.withEraseDue v).rings = s.rings ∧ (s.withEraseDue v).logBuf = s.logBuf ∧
    (s.withEraseDue v).logTime = s.logTime ∧ (s.withEraseDue v).rq = s.rq ∧ (s.withEraseDue v).tdcs = s.tdcs ∧
    (s.withEraseDue v).units = s.units ∧ (s.withEraseDue v).trigs = s.trigs ∧ (s.withEraseDue v).streams = s.streams ∧
    (s.withEraseDue v).cal = s.cal ∧ (s.withEraseDue v).ports = s.ports ∧ (s.withEraseDue v).whistles = s.whistles ∧
    (s.withEraseDue v).shows = s.shows ∧ (s.withEraseDue v).devs = s.devs ∧ (s.withEraseDue v).queues = s.queues ∧
    (s.withEraseDue v).eccTime = s.eccTime ∧ (s.withEraseDue v).jtag = s.jtag ∧ (s.withEraseDue v).trims = s.trims ∧
    (s.withEraseDue v).patrol = s.patrol ∧ (s.withEraseDue v).aer = s.aer ∧ (s.withEraseDue v).ep = s.ep ∧
    (s.withEraseDue v).blanks = s.blanks ∧ (s.withEraseDue v).reply = s.reply ∧ (s.withEraseDue v).freeCtr = s.freeCtr
    := by
  repeat' constructor

@[simp] theorem State.withSlotTried_slotTried (s : State) (v : Option Nat) : (s.withSlotTried v).slotTried = v := rfl

theorem State.withSlotTried_others (s : State) (v : Option Nat) : (s.withSlotTried v).pending = s.pending ∧
    (s.withSlotTried v).pins = s.pins ∧ (s.withSlotTried v).mode = s.mode ∧ (s.withSlotTried v).shed = s.shed ∧
    (s.withSlotTried v).otp = s.otp ∧ (s.withSlotTried v).regs = s.regs ∧ (s.withSlotTried v).time = s.time ∧
    (s.withSlotTried v).slew = s.slew ∧ (s.withSlotTried v).epoch = s.epoch ∧ (s.withSlotTried v).counting =
    s.counting ∧ (s.withSlotTried v).latches = s.latches ∧ (s.withSlotTried v).evtSeq = s.evtSeq ∧ (s.withSlotTried
    v).evtIrq = s.evtIrq ∧ (s.withSlotTried v).evtDefer = s.evtDefer ∧ (s.withSlotTried v).msix = s.msix ∧
    (s.withSlotTried v).d3hot = s.d3hot ∧ (s.withSlotTried v).dram = s.dram ∧ (s.withSlotTried v).banks = s.banks ∧
    (s.withSlotTried v).pool = s.pool ∧ (s.withSlotTried v).mailbox = s.mailbox ∧ (s.withSlotTried v).flash = s.flash
    ∧ (s.withSlotTried v).hostMem = s.hostMem ∧ (s.withSlotTried v).torn = s.torn ∧ (s.withSlotTried v).sensors =
    s.sensors ∧ (s.withSlotTried v).alertArmed = s.alertArmed ∧ (s.withSlotTried v).warnArmed = s.warnArmed ∧
    (s.withSlotTried v).persist = s.persist ∧ (s.withSlotTried v).nvm = s.nvm ∧ (s.withSlotTried v).unit = s.unit ∧
    (s.withSlotTried v).lc = s.lc ∧ (s.withSlotTried v).eraseDue = s.eraseDue ∧ (s.withSlotTried v).booted = s.booted
    ∧ (s.withSlotTried v).bodyHash = s.bodyHash ∧ (s.withSlotTried v).hkOff = s.hkOff ∧ (s.withSlotTried v).hkLen =
    s.hkLen ∧ (s.withSlotTried v).hkEntry = s.hkEntry ∧ (s.withSlotTried v).sync = s.sync ∧ (s.withSlotTried v).acts =
    s.acts ∧ (s.withSlotTried v).dies = s.dies ∧ (s.withSlotTried v).chans = s.chans ∧ (s.withSlotTried v).rings =
    s.rings ∧ (s.withSlotTried v).logBuf = s.logBuf ∧ (s.withSlotTried v).logTime = s.logTime ∧ (s.withSlotTried v).rq
    = s.rq ∧ (s.withSlotTried v).tdcs = s.tdcs ∧ (s.withSlotTried v).units = s.units ∧ (s.withSlotTried v).trigs =
    s.trigs ∧ (s.withSlotTried v).streams = s.streams ∧ (s.withSlotTried v).cal = s.cal ∧ (s.withSlotTried v).ports =
    s.ports ∧ (s.withSlotTried v).whistles = s.whistles ∧ (s.withSlotTried v).shows = s.shows ∧ (s.withSlotTried
    v).devs = s.devs ∧ (s.withSlotTried v).queues = s.queues ∧ (s.withSlotTried v).eccTime = s.eccTime ∧
    (s.withSlotTried v).jtag = s.jtag ∧ (s.withSlotTried v).trims = s.trims ∧ (s.withSlotTried v).patrol = s.patrol ∧
    (s.withSlotTried v).aer = s.aer ∧ (s.withSlotTried v).ep = s.ep ∧ (s.withSlotTried v).blanks = s.blanks ∧
    (s.withSlotTried v).reply = s.reply ∧ (s.withSlotTried v).freeCtr = s.freeCtr := by
  repeat' constructor

@[simp] theorem State.withBooted_booted (s : State) (v : Option Nat) : (s.withBooted v).booted = v := rfl

theorem State.withBooted_others (s : State) (v : Option Nat) : (s.withBooted v).pending = s.pending ∧ (s.withBooted
    v).pins = s.pins ∧ (s.withBooted v).mode = s.mode ∧ (s.withBooted v).shed = s.shed ∧ (s.withBooted v).otp = s.otp
    ∧ (s.withBooted v).regs = s.regs ∧ (s.withBooted v).time = s.time ∧ (s.withBooted v).slew = s.slew ∧ (s.withBooted
    v).epoch = s.epoch ∧ (s.withBooted v).counting = s.counting ∧ (s.withBooted v).latches = s.latches ∧ (s.withBooted
    v).evtSeq = s.evtSeq ∧ (s.withBooted v).evtIrq = s.evtIrq ∧ (s.withBooted v).evtDefer = s.evtDefer ∧ (s.withBooted
    v).msix = s.msix ∧ (s.withBooted v).d3hot = s.d3hot ∧ (s.withBooted v).dram = s.dram ∧ (s.withBooted v).banks =
    s.banks ∧ (s.withBooted v).pool = s.pool ∧ (s.withBooted v).mailbox = s.mailbox ∧ (s.withBooted v).flash = s.flash
    ∧ (s.withBooted v).hostMem = s.hostMem ∧ (s.withBooted v).torn = s.torn ∧ (s.withBooted v).sensors = s.sensors ∧
    (s.withBooted v).alertArmed = s.alertArmed ∧ (s.withBooted v).warnArmed = s.warnArmed ∧ (s.withBooted v).persist =
    s.persist ∧ (s.withBooted v).nvm = s.nvm ∧ (s.withBooted v).unit = s.unit ∧ (s.withBooted v).lc = s.lc ∧
    (s.withBooted v).eraseDue = s.eraseDue ∧ (s.withBooted v).slotTried = s.slotTried ∧ (s.withBooted v).bodyHash =
    s.bodyHash ∧ (s.withBooted v).hkOff = s.hkOff ∧ (s.withBooted v).hkLen = s.hkLen ∧ (s.withBooted v).hkEntry =
    s.hkEntry ∧ (s.withBooted v).sync = s.sync ∧ (s.withBooted v).acts = s.acts ∧ (s.withBooted v).dies = s.dies ∧
    (s.withBooted v).chans = s.chans ∧ (s.withBooted v).rings = s.rings ∧ (s.withBooted v).logBuf = s.logBuf ∧
    (s.withBooted v).logTime = s.logTime ∧ (s.withBooted v).rq = s.rq ∧ (s.withBooted v).tdcs = s.tdcs ∧ (s.withBooted
    v).units = s.units ∧ (s.withBooted v).trigs = s.trigs ∧ (s.withBooted v).streams = s.streams ∧ (s.withBooted
    v).cal = s.cal ∧ (s.withBooted v).ports = s.ports ∧ (s.withBooted v).whistles = s.whistles ∧ (s.withBooted
    v).shows = s.shows ∧ (s.withBooted v).devs = s.devs ∧ (s.withBooted v).queues = s.queues ∧ (s.withBooted
    v).eccTime = s.eccTime ∧ (s.withBooted v).jtag = s.jtag ∧ (s.withBooted v).trims = s.trims ∧ (s.withBooted
    v).patrol = s.patrol ∧ (s.withBooted v).aer = s.aer ∧ (s.withBooted v).ep = s.ep ∧ (s.withBooted v).blanks =
    s.blanks ∧ (s.withBooted v).reply = s.reply ∧ (s.withBooted v).freeCtr = s.freeCtr := by
  repeat' constructor

@[simp] theorem State.withBodyHash_bodyHash (s : State) (v : BitVec 64) : (s.withBodyHash v).bodyHash = v := rfl

theorem State.withBodyHash_others (s : State) (v : BitVec 64) : (s.withBodyHash v).pending = s.pending ∧
    (s.withBodyHash v).pins = s.pins ∧ (s.withBodyHash v).mode = s.mode ∧ (s.withBodyHash v).shed = s.shed ∧
    (s.withBodyHash v).otp = s.otp ∧ (s.withBodyHash v).regs = s.regs ∧ (s.withBodyHash v).time = s.time ∧
    (s.withBodyHash v).slew = s.slew ∧ (s.withBodyHash v).epoch = s.epoch ∧ (s.withBodyHash v).counting = s.counting ∧
    (s.withBodyHash v).latches = s.latches ∧ (s.withBodyHash v).evtSeq = s.evtSeq ∧ (s.withBodyHash v).evtIrq =
    s.evtIrq ∧ (s.withBodyHash v).evtDefer = s.evtDefer ∧ (s.withBodyHash v).msix = s.msix ∧ (s.withBodyHash v).d3hot
    = s.d3hot ∧ (s.withBodyHash v).dram = s.dram ∧ (s.withBodyHash v).banks = s.banks ∧ (s.withBodyHash v).pool =
    s.pool ∧ (s.withBodyHash v).mailbox = s.mailbox ∧ (s.withBodyHash v).flash = s.flash ∧ (s.withBodyHash v).hostMem
    = s.hostMem ∧ (s.withBodyHash v).torn = s.torn ∧ (s.withBodyHash v).sensors = s.sensors ∧ (s.withBodyHash
    v).alertArmed = s.alertArmed ∧ (s.withBodyHash v).warnArmed = s.warnArmed ∧ (s.withBodyHash v).persist = s.persist
    ∧ (s.withBodyHash v).nvm = s.nvm ∧ (s.withBodyHash v).unit = s.unit ∧ (s.withBodyHash v).lc = s.lc ∧
    (s.withBodyHash v).eraseDue = s.eraseDue ∧ (s.withBodyHash v).slotTried = s.slotTried ∧ (s.withBodyHash v).booted
    = s.booted ∧ (s.withBodyHash v).hkOff = s.hkOff ∧ (s.withBodyHash v).hkLen = s.hkLen ∧ (s.withBodyHash v).hkEntry
    = s.hkEntry ∧ (s.withBodyHash v).sync = s.sync ∧ (s.withBodyHash v).acts = s.acts ∧ (s.withBodyHash v).dies =
    s.dies ∧ (s.withBodyHash v).chans = s.chans ∧ (s.withBodyHash v).rings = s.rings ∧ (s.withBodyHash v).logBuf =
    s.logBuf ∧ (s.withBodyHash v).logTime = s.logTime ∧ (s.withBodyHash v).rq = s.rq ∧ (s.withBodyHash v).tdcs =
    s.tdcs ∧ (s.withBodyHash v).units = s.units ∧ (s.withBodyHash v).trigs = s.trigs ∧ (s.withBodyHash v).streams =
    s.streams ∧ (s.withBodyHash v).cal = s.cal ∧ (s.withBodyHash v).ports = s.ports ∧ (s.withBodyHash v).whistles =
    s.whistles ∧ (s.withBodyHash v).shows = s.shows ∧ (s.withBodyHash v).devs = s.devs ∧ (s.withBodyHash v).queues =
    s.queues ∧ (s.withBodyHash v).eccTime = s.eccTime ∧ (s.withBodyHash v).jtag = s.jtag ∧ (s.withBodyHash v).trims =
    s.trims ∧ (s.withBodyHash v).patrol = s.patrol ∧ (s.withBodyHash v).aer = s.aer ∧ (s.withBodyHash v).ep = s.ep ∧
    (s.withBodyHash v).blanks = s.blanks ∧ (s.withBodyHash v).reply = s.reply ∧ (s.withBodyHash v).freeCtr = s.freeCtr
    := by
  repeat' constructor

@[simp] theorem State.withHkOff_hkOff (s : State) (v : Nat) : (s.withHkOff v).hkOff = v := rfl

theorem State.withHkOff_others (s : State) (v : Nat) : (s.withHkOff v).pending = s.pending ∧ (s.withHkOff v).pins =
    s.pins ∧ (s.withHkOff v).mode = s.mode ∧ (s.withHkOff v).shed = s.shed ∧ (s.withHkOff v).otp = s.otp ∧
    (s.withHkOff v).regs = s.regs ∧ (s.withHkOff v).time = s.time ∧ (s.withHkOff v).slew = s.slew ∧ (s.withHkOff
    v).epoch = s.epoch ∧ (s.withHkOff v).counting = s.counting ∧ (s.withHkOff v).latches = s.latches ∧ (s.withHkOff
    v).evtSeq = s.evtSeq ∧ (s.withHkOff v).evtIrq = s.evtIrq ∧ (s.withHkOff v).evtDefer = s.evtDefer ∧ (s.withHkOff
    v).msix = s.msix ∧ (s.withHkOff v).d3hot = s.d3hot ∧ (s.withHkOff v).dram = s.dram ∧ (s.withHkOff v).banks =
    s.banks ∧ (s.withHkOff v).pool = s.pool ∧ (s.withHkOff v).mailbox = s.mailbox ∧ (s.withHkOff v).flash = s.flash ∧
    (s.withHkOff v).hostMem = s.hostMem ∧ (s.withHkOff v).torn = s.torn ∧ (s.withHkOff v).sensors = s.sensors ∧
    (s.withHkOff v).alertArmed = s.alertArmed ∧ (s.withHkOff v).warnArmed = s.warnArmed ∧ (s.withHkOff v).persist =
    s.persist ∧ (s.withHkOff v).nvm = s.nvm ∧ (s.withHkOff v).unit = s.unit ∧ (s.withHkOff v).lc = s.lc ∧ (s.withHkOff
    v).eraseDue = s.eraseDue ∧ (s.withHkOff v).slotTried = s.slotTried ∧ (s.withHkOff v).booted = s.booted ∧
    (s.withHkOff v).bodyHash = s.bodyHash ∧ (s.withHkOff v).hkLen = s.hkLen ∧ (s.withHkOff v).hkEntry = s.hkEntry ∧
    (s.withHkOff v).sync = s.sync ∧ (s.withHkOff v).acts = s.acts ∧ (s.withHkOff v).dies = s.dies ∧ (s.withHkOff
    v).chans = s.chans ∧ (s.withHkOff v).rings = s.rings ∧ (s.withHkOff v).logBuf = s.logBuf ∧ (s.withHkOff v).logTime
    = s.logTime ∧ (s.withHkOff v).rq = s.rq ∧ (s.withHkOff v).tdcs = s.tdcs ∧ (s.withHkOff v).units = s.units ∧
    (s.withHkOff v).trigs = s.trigs ∧ (s.withHkOff v).streams = s.streams ∧ (s.withHkOff v).cal = s.cal ∧ (s.withHkOff
    v).ports = s.ports ∧ (s.withHkOff v).whistles = s.whistles ∧ (s.withHkOff v).shows = s.shows ∧ (s.withHkOff
    v).devs = s.devs ∧ (s.withHkOff v).queues = s.queues ∧ (s.withHkOff v).eccTime = s.eccTime ∧ (s.withHkOff v).jtag
    = s.jtag ∧ (s.withHkOff v).trims = s.trims ∧ (s.withHkOff v).patrol = s.patrol ∧ (s.withHkOff v).aer = s.aer ∧
    (s.withHkOff v).ep = s.ep ∧ (s.withHkOff v).blanks = s.blanks ∧ (s.withHkOff v).reply = s.reply ∧ (s.withHkOff
    v).freeCtr = s.freeCtr := by
  repeat' constructor

@[simp] theorem State.withHkLen_hkLen (s : State) (v : Nat) : (s.withHkLen v).hkLen = v := rfl

theorem State.withHkLen_others (s : State) (v : Nat) : (s.withHkLen v).pending = s.pending ∧ (s.withHkLen v).pins =
    s.pins ∧ (s.withHkLen v).mode = s.mode ∧ (s.withHkLen v).shed = s.shed ∧ (s.withHkLen v).otp = s.otp ∧
    (s.withHkLen v).regs = s.regs ∧ (s.withHkLen v).time = s.time ∧ (s.withHkLen v).slew = s.slew ∧ (s.withHkLen
    v).epoch = s.epoch ∧ (s.withHkLen v).counting = s.counting ∧ (s.withHkLen v).latches = s.latches ∧ (s.withHkLen
    v).evtSeq = s.evtSeq ∧ (s.withHkLen v).evtIrq = s.evtIrq ∧ (s.withHkLen v).evtDefer = s.evtDefer ∧ (s.withHkLen
    v).msix = s.msix ∧ (s.withHkLen v).d3hot = s.d3hot ∧ (s.withHkLen v).dram = s.dram ∧ (s.withHkLen v).banks =
    s.banks ∧ (s.withHkLen v).pool = s.pool ∧ (s.withHkLen v).mailbox = s.mailbox ∧ (s.withHkLen v).flash = s.flash ∧
    (s.withHkLen v).hostMem = s.hostMem ∧ (s.withHkLen v).torn = s.torn ∧ (s.withHkLen v).sensors = s.sensors ∧
    (s.withHkLen v).alertArmed = s.alertArmed ∧ (s.withHkLen v).warnArmed = s.warnArmed ∧ (s.withHkLen v).persist =
    s.persist ∧ (s.withHkLen v).nvm = s.nvm ∧ (s.withHkLen v).unit = s.unit ∧ (s.withHkLen v).lc = s.lc ∧ (s.withHkLen
    v).eraseDue = s.eraseDue ∧ (s.withHkLen v).slotTried = s.slotTried ∧ (s.withHkLen v).booted = s.booted ∧
    (s.withHkLen v).bodyHash = s.bodyHash ∧ (s.withHkLen v).hkOff = s.hkOff ∧ (s.withHkLen v).hkEntry = s.hkEntry ∧
    (s.withHkLen v).sync = s.sync ∧ (s.withHkLen v).acts = s.acts ∧ (s.withHkLen v).dies = s.dies ∧ (s.withHkLen
    v).chans = s.chans ∧ (s.withHkLen v).rings = s.rings ∧ (s.withHkLen v).logBuf = s.logBuf ∧ (s.withHkLen v).logTime
    = s.logTime ∧ (s.withHkLen v).rq = s.rq ∧ (s.withHkLen v).tdcs = s.tdcs ∧ (s.withHkLen v).units = s.units ∧
    (s.withHkLen v).trigs = s.trigs ∧ (s.withHkLen v).streams = s.streams ∧ (s.withHkLen v).cal = s.cal ∧ (s.withHkLen
    v).ports = s.ports ∧ (s.withHkLen v).whistles = s.whistles ∧ (s.withHkLen v).shows = s.shows ∧ (s.withHkLen
    v).devs = s.devs ∧ (s.withHkLen v).queues = s.queues ∧ (s.withHkLen v).eccTime = s.eccTime ∧ (s.withHkLen v).jtag
    = s.jtag ∧ (s.withHkLen v).trims = s.trims ∧ (s.withHkLen v).patrol = s.patrol ∧ (s.withHkLen v).aer = s.aer ∧
    (s.withHkLen v).ep = s.ep ∧ (s.withHkLen v).blanks = s.blanks ∧ (s.withHkLen v).reply = s.reply ∧ (s.withHkLen
    v).freeCtr = s.freeCtr := by
  repeat' constructor

@[simp] theorem State.withHkEntry_hkEntry (s : State) (v : Nat) : (s.withHkEntry v).hkEntry = v := rfl

theorem State.withHkEntry_others (s : State) (v : Nat) : (s.withHkEntry v).pending = s.pending ∧ (s.withHkEntry
    v).pins = s.pins ∧ (s.withHkEntry v).mode = s.mode ∧ (s.withHkEntry v).shed = s.shed ∧ (s.withHkEntry v).otp =
    s.otp ∧ (s.withHkEntry v).regs = s.regs ∧ (s.withHkEntry v).time = s.time ∧ (s.withHkEntry v).slew = s.slew ∧
    (s.withHkEntry v).epoch = s.epoch ∧ (s.withHkEntry v).counting = s.counting ∧ (s.withHkEntry v).latches =
    s.latches ∧ (s.withHkEntry v).evtSeq = s.evtSeq ∧ (s.withHkEntry v).evtIrq = s.evtIrq ∧ (s.withHkEntry v).evtDefer
    = s.evtDefer ∧ (s.withHkEntry v).msix = s.msix ∧ (s.withHkEntry v).d3hot = s.d3hot ∧ (s.withHkEntry v).dram =
    s.dram ∧ (s.withHkEntry v).banks = s.banks ∧ (s.withHkEntry v).pool = s.pool ∧ (s.withHkEntry v).mailbox =
    s.mailbox ∧ (s.withHkEntry v).flash = s.flash ∧ (s.withHkEntry v).hostMem = s.hostMem ∧ (s.withHkEntry v).torn =
    s.torn ∧ (s.withHkEntry v).sensors = s.sensors ∧ (s.withHkEntry v).alertArmed = s.alertArmed ∧ (s.withHkEntry
    v).warnArmed = s.warnArmed ∧ (s.withHkEntry v).persist = s.persist ∧ (s.withHkEntry v).nvm = s.nvm ∧
    (s.withHkEntry v).unit = s.unit ∧ (s.withHkEntry v).lc = s.lc ∧ (s.withHkEntry v).eraseDue = s.eraseDue ∧
    (s.withHkEntry v).slotTried = s.slotTried ∧ (s.withHkEntry v).booted = s.booted ∧ (s.withHkEntry v).bodyHash =
    s.bodyHash ∧ (s.withHkEntry v).hkOff = s.hkOff ∧ (s.withHkEntry v).hkLen = s.hkLen ∧ (s.withHkEntry v).sync =
    s.sync ∧ (s.withHkEntry v).acts = s.acts ∧ (s.withHkEntry v).dies = s.dies ∧ (s.withHkEntry v).chans = s.chans ∧
    (s.withHkEntry v).rings = s.rings ∧ (s.withHkEntry v).logBuf = s.logBuf ∧ (s.withHkEntry v).logTime = s.logTime ∧
    (s.withHkEntry v).rq = s.rq ∧ (s.withHkEntry v).tdcs = s.tdcs ∧ (s.withHkEntry v).units = s.units ∧ (s.withHkEntry
    v).trigs = s.trigs ∧ (s.withHkEntry v).streams = s.streams ∧ (s.withHkEntry v).cal = s.cal ∧ (s.withHkEntry
    v).ports = s.ports ∧ (s.withHkEntry v).whistles = s.whistles ∧ (s.withHkEntry v).shows = s.shows ∧ (s.withHkEntry
    v).devs = s.devs ∧ (s.withHkEntry v).queues = s.queues ∧ (s.withHkEntry v).eccTime = s.eccTime ∧ (s.withHkEntry
    v).jtag = s.jtag ∧ (s.withHkEntry v).trims = s.trims ∧ (s.withHkEntry v).patrol = s.patrol ∧ (s.withHkEntry v).aer
    = s.aer ∧ (s.withHkEntry v).ep = s.ep ∧ (s.withHkEntry v).blanks = s.blanks ∧ (s.withHkEntry v).reply = s.reply ∧
    (s.withHkEntry v).freeCtr = s.freeCtr := by
  repeat' constructor

@[simp] theorem State.withSync_sync (s : State) (v : SyncSt) : (s.withSync v).sync = v := rfl

theorem State.withSync_others (s : State) (v : SyncSt) : (s.withSync v).pending = s.pending ∧ (s.withSync v).pins =
    s.pins ∧ (s.withSync v).mode = s.mode ∧ (s.withSync v).shed = s.shed ∧ (s.withSync v).otp = s.otp ∧ (s.withSync
    v).regs = s.regs ∧ (s.withSync v).time = s.time ∧ (s.withSync v).slew = s.slew ∧ (s.withSync v).epoch = s.epoch ∧
    (s.withSync v).counting = s.counting ∧ (s.withSync v).latches = s.latches ∧ (s.withSync v).evtSeq = s.evtSeq ∧
    (s.withSync v).evtIrq = s.evtIrq ∧ (s.withSync v).evtDefer = s.evtDefer ∧ (s.withSync v).msix = s.msix ∧
    (s.withSync v).d3hot = s.d3hot ∧ (s.withSync v).dram = s.dram ∧ (s.withSync v).banks = s.banks ∧ (s.withSync
    v).pool = s.pool ∧ (s.withSync v).mailbox = s.mailbox ∧ (s.withSync v).flash = s.flash ∧ (s.withSync v).hostMem =
    s.hostMem ∧ (s.withSync v).torn = s.torn ∧ (s.withSync v).sensors = s.sensors ∧ (s.withSync v).alertArmed =
    s.alertArmed ∧ (s.withSync v).warnArmed = s.warnArmed ∧ (s.withSync v).persist = s.persist ∧ (s.withSync v).nvm =
    s.nvm ∧ (s.withSync v).unit = s.unit ∧ (s.withSync v).lc = s.lc ∧ (s.withSync v).eraseDue = s.eraseDue ∧
    (s.withSync v).slotTried = s.slotTried ∧ (s.withSync v).booted = s.booted ∧ (s.withSync v).bodyHash = s.bodyHash ∧
    (s.withSync v).hkOff = s.hkOff ∧ (s.withSync v).hkLen = s.hkLen ∧ (s.withSync v).hkEntry = s.hkEntry ∧ (s.withSync
    v).acts = s.acts ∧ (s.withSync v).dies = s.dies ∧ (s.withSync v).chans = s.chans ∧ (s.withSync v).rings = s.rings
    ∧ (s.withSync v).logBuf = s.logBuf ∧ (s.withSync v).logTime = s.logTime ∧ (s.withSync v).rq = s.rq ∧ (s.withSync
    v).tdcs = s.tdcs ∧ (s.withSync v).units = s.units ∧ (s.withSync v).trigs = s.trigs ∧ (s.withSync v).streams =
    s.streams ∧ (s.withSync v).cal = s.cal ∧ (s.withSync v).ports = s.ports ∧ (s.withSync v).whistles = s.whistles ∧
    (s.withSync v).shows = s.shows ∧ (s.withSync v).devs = s.devs ∧ (s.withSync v).queues = s.queues ∧ (s.withSync
    v).eccTime = s.eccTime ∧ (s.withSync v).jtag = s.jtag ∧ (s.withSync v).trims = s.trims ∧ (s.withSync v).patrol =
    s.patrol ∧ (s.withSync v).aer = s.aer ∧ (s.withSync v).ep = s.ep ∧ (s.withSync v).blanks = s.blanks ∧ (s.withSync
    v).reply = s.reply ∧ (s.withSync v).freeCtr = s.freeCtr := by
  repeat' constructor

@[simp] theorem State.withActs_acts (s : State) (v : Tab ActSt) : (s.withActs v).acts = v := rfl

theorem State.withActs_others (s : State) (v : Tab ActSt) : (s.withActs v).pending = s.pending ∧ (s.withActs v).pins =
    s.pins ∧ (s.withActs v).mode = s.mode ∧ (s.withActs v).shed = s.shed ∧ (s.withActs v).otp = s.otp ∧ (s.withActs
    v).regs = s.regs ∧ (s.withActs v).time = s.time ∧ (s.withActs v).slew = s.slew ∧ (s.withActs v).epoch = s.epoch ∧
    (s.withActs v).counting = s.counting ∧ (s.withActs v).latches = s.latches ∧ (s.withActs v).evtSeq = s.evtSeq ∧
    (s.withActs v).evtIrq = s.evtIrq ∧ (s.withActs v).evtDefer = s.evtDefer ∧ (s.withActs v).msix = s.msix ∧
    (s.withActs v).d3hot = s.d3hot ∧ (s.withActs v).dram = s.dram ∧ (s.withActs v).banks = s.banks ∧ (s.withActs
    v).pool = s.pool ∧ (s.withActs v).mailbox = s.mailbox ∧ (s.withActs v).flash = s.flash ∧ (s.withActs v).hostMem =
    s.hostMem ∧ (s.withActs v).torn = s.torn ∧ (s.withActs v).sensors = s.sensors ∧ (s.withActs v).alertArmed =
    s.alertArmed ∧ (s.withActs v).warnArmed = s.warnArmed ∧ (s.withActs v).persist = s.persist ∧ (s.withActs v).nvm =
    s.nvm ∧ (s.withActs v).unit = s.unit ∧ (s.withActs v).lc = s.lc ∧ (s.withActs v).eraseDue = s.eraseDue ∧
    (s.withActs v).slotTried = s.slotTried ∧ (s.withActs v).booted = s.booted ∧ (s.withActs v).bodyHash = s.bodyHash ∧
    (s.withActs v).hkOff = s.hkOff ∧ (s.withActs v).hkLen = s.hkLen ∧ (s.withActs v).hkEntry = s.hkEntry ∧ (s.withActs
    v).sync = s.sync ∧ (s.withActs v).dies = s.dies ∧ (s.withActs v).chans = s.chans ∧ (s.withActs v).rings = s.rings
    ∧ (s.withActs v).logBuf = s.logBuf ∧ (s.withActs v).logTime = s.logTime ∧ (s.withActs v).rq = s.rq ∧ (s.withActs
    v).tdcs = s.tdcs ∧ (s.withActs v).units = s.units ∧ (s.withActs v).trigs = s.trigs ∧ (s.withActs v).streams =
    s.streams ∧ (s.withActs v).cal = s.cal ∧ (s.withActs v).ports = s.ports ∧ (s.withActs v).whistles = s.whistles ∧
    (s.withActs v).shows = s.shows ∧ (s.withActs v).devs = s.devs ∧ (s.withActs v).queues = s.queues ∧ (s.withActs
    v).eccTime = s.eccTime ∧ (s.withActs v).jtag = s.jtag ∧ (s.withActs v).trims = s.trims ∧ (s.withActs v).patrol =
    s.patrol ∧ (s.withActs v).aer = s.aer ∧ (s.withActs v).ep = s.ep ∧ (s.withActs v).blanks = s.blanks ∧ (s.withActs
    v).reply = s.reply ∧ (s.withActs v).freeCtr = s.freeCtr := by
  repeat' constructor

@[simp] theorem State.withDies_dies (s : State) (v : Tab DieSt) : (s.withDies v).dies = v := rfl

theorem State.withDies_others (s : State) (v : Tab DieSt) : (s.withDies v).pending = s.pending ∧ (s.withDies v).pins =
    s.pins ∧ (s.withDies v).mode = s.mode ∧ (s.withDies v).shed = s.shed ∧ (s.withDies v).otp = s.otp ∧ (s.withDies
    v).regs = s.regs ∧ (s.withDies v).time = s.time ∧ (s.withDies v).slew = s.slew ∧ (s.withDies v).epoch = s.epoch ∧
    (s.withDies v).counting = s.counting ∧ (s.withDies v).latches = s.latches ∧ (s.withDies v).evtSeq = s.evtSeq ∧
    (s.withDies v).evtIrq = s.evtIrq ∧ (s.withDies v).evtDefer = s.evtDefer ∧ (s.withDies v).msix = s.msix ∧
    (s.withDies v).d3hot = s.d3hot ∧ (s.withDies v).dram = s.dram ∧ (s.withDies v).banks = s.banks ∧ (s.withDies
    v).pool = s.pool ∧ (s.withDies v).mailbox = s.mailbox ∧ (s.withDies v).flash = s.flash ∧ (s.withDies v).hostMem =
    s.hostMem ∧ (s.withDies v).torn = s.torn ∧ (s.withDies v).sensors = s.sensors ∧ (s.withDies v).alertArmed =
    s.alertArmed ∧ (s.withDies v).warnArmed = s.warnArmed ∧ (s.withDies v).persist = s.persist ∧ (s.withDies v).nvm =
    s.nvm ∧ (s.withDies v).unit = s.unit ∧ (s.withDies v).lc = s.lc ∧ (s.withDies v).eraseDue = s.eraseDue ∧
    (s.withDies v).slotTried = s.slotTried ∧ (s.withDies v).booted = s.booted ∧ (s.withDies v).bodyHash = s.bodyHash ∧
    (s.withDies v).hkOff = s.hkOff ∧ (s.withDies v).hkLen = s.hkLen ∧ (s.withDies v).hkEntry = s.hkEntry ∧ (s.withDies
    v).sync = s.sync ∧ (s.withDies v).acts = s.acts ∧ (s.withDies v).chans = s.chans ∧ (s.withDies v).rings = s.rings
    ∧ (s.withDies v).logBuf = s.logBuf ∧ (s.withDies v).logTime = s.logTime ∧ (s.withDies v).rq = s.rq ∧ (s.withDies
    v).tdcs = s.tdcs ∧ (s.withDies v).units = s.units ∧ (s.withDies v).trigs = s.trigs ∧ (s.withDies v).streams =
    s.streams ∧ (s.withDies v).cal = s.cal ∧ (s.withDies v).ports = s.ports ∧ (s.withDies v).whistles = s.whistles ∧
    (s.withDies v).shows = s.shows ∧ (s.withDies v).devs = s.devs ∧ (s.withDies v).queues = s.queues ∧ (s.withDies
    v).eccTime = s.eccTime ∧ (s.withDies v).jtag = s.jtag ∧ (s.withDies v).trims = s.trims ∧ (s.withDies v).patrol =
    s.patrol ∧ (s.withDies v).aer = s.aer ∧ (s.withDies v).ep = s.ep ∧ (s.withDies v).blanks = s.blanks ∧ (s.withDies
    v).reply = s.reply ∧ (s.withDies v).freeCtr = s.freeCtr := by
  repeat' constructor

@[simp] theorem State.withChans_chans (s : State) (v : Tab ChanSt) : (s.withChans v).chans = v := rfl

theorem State.withChans_others (s : State) (v : Tab ChanSt) : (s.withChans v).pending = s.pending ∧ (s.withChans
    v).pins = s.pins ∧ (s.withChans v).mode = s.mode ∧ (s.withChans v).shed = s.shed ∧ (s.withChans v).otp = s.otp ∧
    (s.withChans v).regs = s.regs ∧ (s.withChans v).time = s.time ∧ (s.withChans v).slew = s.slew ∧ (s.withChans
    v).epoch = s.epoch ∧ (s.withChans v).counting = s.counting ∧ (s.withChans v).latches = s.latches ∧ (s.withChans
    v).evtSeq = s.evtSeq ∧ (s.withChans v).evtIrq = s.evtIrq ∧ (s.withChans v).evtDefer = s.evtDefer ∧ (s.withChans
    v).msix = s.msix ∧ (s.withChans v).d3hot = s.d3hot ∧ (s.withChans v).dram = s.dram ∧ (s.withChans v).banks =
    s.banks ∧ (s.withChans v).pool = s.pool ∧ (s.withChans v).mailbox = s.mailbox ∧ (s.withChans v).flash = s.flash ∧
    (s.withChans v).hostMem = s.hostMem ∧ (s.withChans v).torn = s.torn ∧ (s.withChans v).sensors = s.sensors ∧
    (s.withChans v).alertArmed = s.alertArmed ∧ (s.withChans v).warnArmed = s.warnArmed ∧ (s.withChans v).persist =
    s.persist ∧ (s.withChans v).nvm = s.nvm ∧ (s.withChans v).unit = s.unit ∧ (s.withChans v).lc = s.lc ∧ (s.withChans
    v).eraseDue = s.eraseDue ∧ (s.withChans v).slotTried = s.slotTried ∧ (s.withChans v).booted = s.booted ∧
    (s.withChans v).bodyHash = s.bodyHash ∧ (s.withChans v).hkOff = s.hkOff ∧ (s.withChans v).hkLen = s.hkLen ∧
    (s.withChans v).hkEntry = s.hkEntry ∧ (s.withChans v).sync = s.sync ∧ (s.withChans v).acts = s.acts ∧ (s.withChans
    v).dies = s.dies ∧ (s.withChans v).rings = s.rings ∧ (s.withChans v).logBuf = s.logBuf ∧ (s.withChans v).logTime =
    s.logTime ∧ (s.withChans v).rq = s.rq ∧ (s.withChans v).tdcs = s.tdcs ∧ (s.withChans v).units = s.units ∧
    (s.withChans v).trigs = s.trigs ∧ (s.withChans v).streams = s.streams ∧ (s.withChans v).cal = s.cal ∧ (s.withChans
    v).ports = s.ports ∧ (s.withChans v).whistles = s.whistles ∧ (s.withChans v).shows = s.shows ∧ (s.withChans
    v).devs = s.devs ∧ (s.withChans v).queues = s.queues ∧ (s.withChans v).eccTime = s.eccTime ∧ (s.withChans v).jtag
    = s.jtag ∧ (s.withChans v).trims = s.trims ∧ (s.withChans v).patrol = s.patrol ∧ (s.withChans v).aer = s.aer ∧
    (s.withChans v).ep = s.ep ∧ (s.withChans v).blanks = s.blanks ∧ (s.withChans v).reply = s.reply ∧ (s.withChans
    v).freeCtr = s.freeCtr := by
  repeat' constructor

@[simp] theorem State.withRings_rings (s : State) (v : Tab RingSt) : (s.withRings v).rings = v := rfl

theorem State.withRings_others (s : State) (v : Tab RingSt) : (s.withRings v).pending = s.pending ∧ (s.withRings
    v).pins = s.pins ∧ (s.withRings v).mode = s.mode ∧ (s.withRings v).shed = s.shed ∧ (s.withRings v).otp = s.otp ∧
    (s.withRings v).regs = s.regs ∧ (s.withRings v).time = s.time ∧ (s.withRings v).slew = s.slew ∧ (s.withRings
    v).epoch = s.epoch ∧ (s.withRings v).counting = s.counting ∧ (s.withRings v).latches = s.latches ∧ (s.withRings
    v).evtSeq = s.evtSeq ∧ (s.withRings v).evtIrq = s.evtIrq ∧ (s.withRings v).evtDefer = s.evtDefer ∧ (s.withRings
    v).msix = s.msix ∧ (s.withRings v).d3hot = s.d3hot ∧ (s.withRings v).dram = s.dram ∧ (s.withRings v).banks =
    s.banks ∧ (s.withRings v).pool = s.pool ∧ (s.withRings v).mailbox = s.mailbox ∧ (s.withRings v).flash = s.flash ∧
    (s.withRings v).hostMem = s.hostMem ∧ (s.withRings v).torn = s.torn ∧ (s.withRings v).sensors = s.sensors ∧
    (s.withRings v).alertArmed = s.alertArmed ∧ (s.withRings v).warnArmed = s.warnArmed ∧ (s.withRings v).persist =
    s.persist ∧ (s.withRings v).nvm = s.nvm ∧ (s.withRings v).unit = s.unit ∧ (s.withRings v).lc = s.lc ∧ (s.withRings
    v).eraseDue = s.eraseDue ∧ (s.withRings v).slotTried = s.slotTried ∧ (s.withRings v).booted = s.booted ∧
    (s.withRings v).bodyHash = s.bodyHash ∧ (s.withRings v).hkOff = s.hkOff ∧ (s.withRings v).hkLen = s.hkLen ∧
    (s.withRings v).hkEntry = s.hkEntry ∧ (s.withRings v).sync = s.sync ∧ (s.withRings v).acts = s.acts ∧ (s.withRings
    v).dies = s.dies ∧ (s.withRings v).chans = s.chans ∧ (s.withRings v).logBuf = s.logBuf ∧ (s.withRings v).logTime =
    s.logTime ∧ (s.withRings v).rq = s.rq ∧ (s.withRings v).tdcs = s.tdcs ∧ (s.withRings v).units = s.units ∧
    (s.withRings v).trigs = s.trigs ∧ (s.withRings v).streams = s.streams ∧ (s.withRings v).cal = s.cal ∧ (s.withRings
    v).ports = s.ports ∧ (s.withRings v).whistles = s.whistles ∧ (s.withRings v).shows = s.shows ∧ (s.withRings
    v).devs = s.devs ∧ (s.withRings v).queues = s.queues ∧ (s.withRings v).eccTime = s.eccTime ∧ (s.withRings v).jtag
    = s.jtag ∧ (s.withRings v).trims = s.trims ∧ (s.withRings v).patrol = s.patrol ∧ (s.withRings v).aer = s.aer ∧
    (s.withRings v).ep = s.ep ∧ (s.withRings v).blanks = s.blanks ∧ (s.withRings v).reply = s.reply ∧ (s.withRings
    v).freeCtr = s.freeCtr := by
  repeat' constructor

@[simp] theorem State.withLogBuf_logBuf (s : State) (v : Nat) : (s.withLogBuf v).logBuf = v := rfl

theorem State.withLogBuf_others (s : State) (v : Nat) : (s.withLogBuf v).pending = s.pending ∧ (s.withLogBuf v).pins =
    s.pins ∧ (s.withLogBuf v).mode = s.mode ∧ (s.withLogBuf v).shed = s.shed ∧ (s.withLogBuf v).otp = s.otp ∧
    (s.withLogBuf v).regs = s.regs ∧ (s.withLogBuf v).time = s.time ∧ (s.withLogBuf v).slew = s.slew ∧ (s.withLogBuf
    v).epoch = s.epoch ∧ (s.withLogBuf v).counting = s.counting ∧ (s.withLogBuf v).latches = s.latches ∧ (s.withLogBuf
    v).evtSeq = s.evtSeq ∧ (s.withLogBuf v).evtIrq = s.evtIrq ∧ (s.withLogBuf v).evtDefer = s.evtDefer ∧ (s.withLogBuf
    v).msix = s.msix ∧ (s.withLogBuf v).d3hot = s.d3hot ∧ (s.withLogBuf v).dram = s.dram ∧ (s.withLogBuf v).banks =
    s.banks ∧ (s.withLogBuf v).pool = s.pool ∧ (s.withLogBuf v).mailbox = s.mailbox ∧ (s.withLogBuf v).flash = s.flash
    ∧ (s.withLogBuf v).hostMem = s.hostMem ∧ (s.withLogBuf v).torn = s.torn ∧ (s.withLogBuf v).sensors = s.sensors ∧
    (s.withLogBuf v).alertArmed = s.alertArmed ∧ (s.withLogBuf v).warnArmed = s.warnArmed ∧ (s.withLogBuf v).persist =
    s.persist ∧ (s.withLogBuf v).nvm = s.nvm ∧ (s.withLogBuf v).unit = s.unit ∧ (s.withLogBuf v).lc = s.lc ∧
    (s.withLogBuf v).eraseDue = s.eraseDue ∧ (s.withLogBuf v).slotTried = s.slotTried ∧ (s.withLogBuf v).booted =
    s.booted ∧ (s.withLogBuf v).bodyHash = s.bodyHash ∧ (s.withLogBuf v).hkOff = s.hkOff ∧ (s.withLogBuf v).hkLen =
    s.hkLen ∧ (s.withLogBuf v).hkEntry = s.hkEntry ∧ (s.withLogBuf v).sync = s.sync ∧ (s.withLogBuf v).acts = s.acts ∧
    (s.withLogBuf v).dies = s.dies ∧ (s.withLogBuf v).chans = s.chans ∧ (s.withLogBuf v).rings = s.rings ∧
    (s.withLogBuf v).logTime = s.logTime ∧ (s.withLogBuf v).rq = s.rq ∧ (s.withLogBuf v).tdcs = s.tdcs ∧ (s.withLogBuf
    v).units = s.units ∧ (s.withLogBuf v).trigs = s.trigs ∧ (s.withLogBuf v).streams = s.streams ∧ (s.withLogBuf
    v).cal = s.cal ∧ (s.withLogBuf v).ports = s.ports ∧ (s.withLogBuf v).whistles = s.whistles ∧ (s.withLogBuf
    v).shows = s.shows ∧ (s.withLogBuf v).devs = s.devs ∧ (s.withLogBuf v).queues = s.queues ∧ (s.withLogBuf
    v).eccTime = s.eccTime ∧ (s.withLogBuf v).jtag = s.jtag ∧ (s.withLogBuf v).trims = s.trims ∧ (s.withLogBuf
    v).patrol = s.patrol ∧ (s.withLogBuf v).aer = s.aer ∧ (s.withLogBuf v).ep = s.ep ∧ (s.withLogBuf v).blanks =
    s.blanks ∧ (s.withLogBuf v).reply = s.reply ∧ (s.withLogBuf v).freeCtr = s.freeCtr := by
  repeat' constructor

@[simp] theorem State.withLogTime_logTime (s : State) (v : Nat) : (s.withLogTime v).logTime = v := rfl

theorem State.withLogTime_others (s : State) (v : Nat) : (s.withLogTime v).pending = s.pending ∧ (s.withLogTime
    v).pins = s.pins ∧ (s.withLogTime v).mode = s.mode ∧ (s.withLogTime v).shed = s.shed ∧ (s.withLogTime v).otp =
    s.otp ∧ (s.withLogTime v).regs = s.regs ∧ (s.withLogTime v).time = s.time ∧ (s.withLogTime v).slew = s.slew ∧
    (s.withLogTime v).epoch = s.epoch ∧ (s.withLogTime v).counting = s.counting ∧ (s.withLogTime v).latches =
    s.latches ∧ (s.withLogTime v).evtSeq = s.evtSeq ∧ (s.withLogTime v).evtIrq = s.evtIrq ∧ (s.withLogTime v).evtDefer
    = s.evtDefer ∧ (s.withLogTime v).msix = s.msix ∧ (s.withLogTime v).d3hot = s.d3hot ∧ (s.withLogTime v).dram =
    s.dram ∧ (s.withLogTime v).banks = s.banks ∧ (s.withLogTime v).pool = s.pool ∧ (s.withLogTime v).mailbox =
    s.mailbox ∧ (s.withLogTime v).flash = s.flash ∧ (s.withLogTime v).hostMem = s.hostMem ∧ (s.withLogTime v).torn =
    s.torn ∧ (s.withLogTime v).sensors = s.sensors ∧ (s.withLogTime v).alertArmed = s.alertArmed ∧ (s.withLogTime
    v).warnArmed = s.warnArmed ∧ (s.withLogTime v).persist = s.persist ∧ (s.withLogTime v).nvm = s.nvm ∧
    (s.withLogTime v).unit = s.unit ∧ (s.withLogTime v).lc = s.lc ∧ (s.withLogTime v).eraseDue = s.eraseDue ∧
    (s.withLogTime v).slotTried = s.slotTried ∧ (s.withLogTime v).booted = s.booted ∧ (s.withLogTime v).bodyHash =
    s.bodyHash ∧ (s.withLogTime v).hkOff = s.hkOff ∧ (s.withLogTime v).hkLen = s.hkLen ∧ (s.withLogTime v).hkEntry =
    s.hkEntry ∧ (s.withLogTime v).sync = s.sync ∧ (s.withLogTime v).acts = s.acts ∧ (s.withLogTime v).dies = s.dies ∧
    (s.withLogTime v).chans = s.chans ∧ (s.withLogTime v).rings = s.rings ∧ (s.withLogTime v).logBuf = s.logBuf ∧
    (s.withLogTime v).rq = s.rq ∧ (s.withLogTime v).tdcs = s.tdcs ∧ (s.withLogTime v).units = s.units ∧ (s.withLogTime
    v).trigs = s.trigs ∧ (s.withLogTime v).streams = s.streams ∧ (s.withLogTime v).cal = s.cal ∧ (s.withLogTime
    v).ports = s.ports ∧ (s.withLogTime v).whistles = s.whistles ∧ (s.withLogTime v).shows = s.shows ∧ (s.withLogTime
    v).devs = s.devs ∧ (s.withLogTime v).queues = s.queues ∧ (s.withLogTime v).eccTime = s.eccTime ∧ (s.withLogTime
    v).jtag = s.jtag ∧ (s.withLogTime v).trims = s.trims ∧ (s.withLogTime v).patrol = s.patrol ∧ (s.withLogTime v).aer
    = s.aer ∧ (s.withLogTime v).ep = s.ep ∧ (s.withLogTime v).blanks = s.blanks ∧ (s.withLogTime v).reply = s.reply ∧
    (s.withLogTime v).freeCtr = s.freeCtr := by
  repeat' constructor

@[simp] theorem State.withRq_rq (s : State) (v : RqSt) : (s.withRq v).rq = v := rfl

theorem State.withRq_others (s : State) (v : RqSt) : (s.withRq v).pending = s.pending ∧ (s.withRq v).pins = s.pins ∧
    (s.withRq v).mode = s.mode ∧ (s.withRq v).shed = s.shed ∧ (s.withRq v).otp = s.otp ∧ (s.withRq v).regs = s.regs ∧
    (s.withRq v).time = s.time ∧ (s.withRq v).slew = s.slew ∧ (s.withRq v).epoch = s.epoch ∧ (s.withRq v).counting =
    s.counting ∧ (s.withRq v).latches = s.latches ∧ (s.withRq v).evtSeq = s.evtSeq ∧ (s.withRq v).evtIrq = s.evtIrq ∧
    (s.withRq v).evtDefer = s.evtDefer ∧ (s.withRq v).msix = s.msix ∧ (s.withRq v).d3hot = s.d3hot ∧ (s.withRq v).dram
    = s.dram ∧ (s.withRq v).banks = s.banks ∧ (s.withRq v).pool = s.pool ∧ (s.withRq v).mailbox = s.mailbox ∧
    (s.withRq v).flash = s.flash ∧ (s.withRq v).hostMem = s.hostMem ∧ (s.withRq v).torn = s.torn ∧ (s.withRq
    v).sensors = s.sensors ∧ (s.withRq v).alertArmed = s.alertArmed ∧ (s.withRq v).warnArmed = s.warnArmed ∧ (s.withRq
    v).persist = s.persist ∧ (s.withRq v).nvm = s.nvm ∧ (s.withRq v).unit = s.unit ∧ (s.withRq v).lc = s.lc ∧
    (s.withRq v).eraseDue = s.eraseDue ∧ (s.withRq v).slotTried = s.slotTried ∧ (s.withRq v).booted = s.booted ∧
    (s.withRq v).bodyHash = s.bodyHash ∧ (s.withRq v).hkOff = s.hkOff ∧ (s.withRq v).hkLen = s.hkLen ∧ (s.withRq
    v).hkEntry = s.hkEntry ∧ (s.withRq v).sync = s.sync ∧ (s.withRq v).acts = s.acts ∧ (s.withRq v).dies = s.dies ∧
    (s.withRq v).chans = s.chans ∧ (s.withRq v).rings = s.rings ∧ (s.withRq v).logBuf = s.logBuf ∧ (s.withRq
    v).logTime = s.logTime ∧ (s.withRq v).tdcs = s.tdcs ∧ (s.withRq v).units = s.units ∧ (s.withRq v).trigs = s.trigs
    ∧ (s.withRq v).streams = s.streams ∧ (s.withRq v).cal = s.cal ∧ (s.withRq v).ports = s.ports ∧ (s.withRq
    v).whistles = s.whistles ∧ (s.withRq v).shows = s.shows ∧ (s.withRq v).devs = s.devs ∧ (s.withRq v).queues =
    s.queues ∧ (s.withRq v).eccTime = s.eccTime ∧ (s.withRq v).jtag = s.jtag ∧ (s.withRq v).trims = s.trims ∧
    (s.withRq v).patrol = s.patrol ∧ (s.withRq v).aer = s.aer ∧ (s.withRq v).ep = s.ep ∧ (s.withRq v).blanks =
    s.blanks ∧ (s.withRq v).reply = s.reply ∧ (s.withRq v).freeCtr = s.freeCtr := by
  repeat' constructor

@[simp] theorem State.withTdcs_tdcs (s : State) (v : Tab TdcSt) : (s.withTdcs v).tdcs = v := rfl

theorem State.withTdcs_others (s : State) (v : Tab TdcSt) : (s.withTdcs v).pending = s.pending ∧ (s.withTdcs v).pins =
    s.pins ∧ (s.withTdcs v).mode = s.mode ∧ (s.withTdcs v).shed = s.shed ∧ (s.withTdcs v).otp = s.otp ∧ (s.withTdcs
    v).regs = s.regs ∧ (s.withTdcs v).time = s.time ∧ (s.withTdcs v).slew = s.slew ∧ (s.withTdcs v).epoch = s.epoch ∧
    (s.withTdcs v).counting = s.counting ∧ (s.withTdcs v).latches = s.latches ∧ (s.withTdcs v).evtSeq = s.evtSeq ∧
    (s.withTdcs v).evtIrq = s.evtIrq ∧ (s.withTdcs v).evtDefer = s.evtDefer ∧ (s.withTdcs v).msix = s.msix ∧
    (s.withTdcs v).d3hot = s.d3hot ∧ (s.withTdcs v).dram = s.dram ∧ (s.withTdcs v).banks = s.banks ∧ (s.withTdcs
    v).pool = s.pool ∧ (s.withTdcs v).mailbox = s.mailbox ∧ (s.withTdcs v).flash = s.flash ∧ (s.withTdcs v).hostMem =
    s.hostMem ∧ (s.withTdcs v).torn = s.torn ∧ (s.withTdcs v).sensors = s.sensors ∧ (s.withTdcs v).alertArmed =
    s.alertArmed ∧ (s.withTdcs v).warnArmed = s.warnArmed ∧ (s.withTdcs v).persist = s.persist ∧ (s.withTdcs v).nvm =
    s.nvm ∧ (s.withTdcs v).unit = s.unit ∧ (s.withTdcs v).lc = s.lc ∧ (s.withTdcs v).eraseDue = s.eraseDue ∧
    (s.withTdcs v).slotTried = s.slotTried ∧ (s.withTdcs v).booted = s.booted ∧ (s.withTdcs v).bodyHash = s.bodyHash ∧
    (s.withTdcs v).hkOff = s.hkOff ∧ (s.withTdcs v).hkLen = s.hkLen ∧ (s.withTdcs v).hkEntry = s.hkEntry ∧ (s.withTdcs
    v).sync = s.sync ∧ (s.withTdcs v).acts = s.acts ∧ (s.withTdcs v).dies = s.dies ∧ (s.withTdcs v).chans = s.chans ∧
    (s.withTdcs v).rings = s.rings ∧ (s.withTdcs v).logBuf = s.logBuf ∧ (s.withTdcs v).logTime = s.logTime ∧
    (s.withTdcs v).rq = s.rq ∧ (s.withTdcs v).units = s.units ∧ (s.withTdcs v).trigs = s.trigs ∧ (s.withTdcs
    v).streams = s.streams ∧ (s.withTdcs v).cal = s.cal ∧ (s.withTdcs v).ports = s.ports ∧ (s.withTdcs v).whistles =
    s.whistles ∧ (s.withTdcs v).shows = s.shows ∧ (s.withTdcs v).devs = s.devs ∧ (s.withTdcs v).queues = s.queues ∧
    (s.withTdcs v).eccTime = s.eccTime ∧ (s.withTdcs v).jtag = s.jtag ∧ (s.withTdcs v).trims = s.trims ∧ (s.withTdcs
    v).patrol = s.patrol ∧ (s.withTdcs v).aer = s.aer ∧ (s.withTdcs v).ep = s.ep ∧ (s.withTdcs v).blanks = s.blanks ∧
    (s.withTdcs v).reply = s.reply ∧ (s.withTdcs v).freeCtr = s.freeCtr := by
  repeat' constructor

@[simp] theorem State.withUnits_units (s : State) (v : Tab TdcUnit) : (s.withUnits v).units = v := rfl

theorem State.withUnits_others (s : State) (v : Tab TdcUnit) : (s.withUnits v).pending = s.pending ∧ (s.withUnits
    v).pins = s.pins ∧ (s.withUnits v).mode = s.mode ∧ (s.withUnits v).shed = s.shed ∧ (s.withUnits v).otp = s.otp ∧
    (s.withUnits v).regs = s.regs ∧ (s.withUnits v).time = s.time ∧ (s.withUnits v).slew = s.slew ∧ (s.withUnits
    v).epoch = s.epoch ∧ (s.withUnits v).counting = s.counting ∧ (s.withUnits v).latches = s.latches ∧ (s.withUnits
    v).evtSeq = s.evtSeq ∧ (s.withUnits v).evtIrq = s.evtIrq ∧ (s.withUnits v).evtDefer = s.evtDefer ∧ (s.withUnits
    v).msix = s.msix ∧ (s.withUnits v).d3hot = s.d3hot ∧ (s.withUnits v).dram = s.dram ∧ (s.withUnits v).banks =
    s.banks ∧ (s.withUnits v).pool = s.pool ∧ (s.withUnits v).mailbox = s.mailbox ∧ (s.withUnits v).flash = s.flash ∧
    (s.withUnits v).hostMem = s.hostMem ∧ (s.withUnits v).torn = s.torn ∧ (s.withUnits v).sensors = s.sensors ∧
    (s.withUnits v).alertArmed = s.alertArmed ∧ (s.withUnits v).warnArmed = s.warnArmed ∧ (s.withUnits v).persist =
    s.persist ∧ (s.withUnits v).nvm = s.nvm ∧ (s.withUnits v).unit = s.unit ∧ (s.withUnits v).lc = s.lc ∧ (s.withUnits
    v).eraseDue = s.eraseDue ∧ (s.withUnits v).slotTried = s.slotTried ∧ (s.withUnits v).booted = s.booted ∧
    (s.withUnits v).bodyHash = s.bodyHash ∧ (s.withUnits v).hkOff = s.hkOff ∧ (s.withUnits v).hkLen = s.hkLen ∧
    (s.withUnits v).hkEntry = s.hkEntry ∧ (s.withUnits v).sync = s.sync ∧ (s.withUnits v).acts = s.acts ∧ (s.withUnits
    v).dies = s.dies ∧ (s.withUnits v).chans = s.chans ∧ (s.withUnits v).rings = s.rings ∧ (s.withUnits v).logBuf =
    s.logBuf ∧ (s.withUnits v).logTime = s.logTime ∧ (s.withUnits v).rq = s.rq ∧ (s.withUnits v).tdcs = s.tdcs ∧
    (s.withUnits v).trigs = s.trigs ∧ (s.withUnits v).streams = s.streams ∧ (s.withUnits v).cal = s.cal ∧ (s.withUnits
    v).ports = s.ports ∧ (s.withUnits v).whistles = s.whistles ∧ (s.withUnits v).shows = s.shows ∧ (s.withUnits
    v).devs = s.devs ∧ (s.withUnits v).queues = s.queues ∧ (s.withUnits v).eccTime = s.eccTime ∧ (s.withUnits v).jtag
    = s.jtag ∧ (s.withUnits v).trims = s.trims ∧ (s.withUnits v).patrol = s.patrol ∧ (s.withUnits v).aer = s.aer ∧
    (s.withUnits v).ep = s.ep ∧ (s.withUnits v).blanks = s.blanks ∧ (s.withUnits v).reply = s.reply ∧ (s.withUnits
    v).freeCtr = s.freeCtr := by
  repeat' constructor

@[simp] theorem State.withTrigs_trigs (s : State) (v : Tab TrigSt) : (s.withTrigs v).trigs = v := rfl

theorem State.withTrigs_others (s : State) (v : Tab TrigSt) : (s.withTrigs v).pending = s.pending ∧ (s.withTrigs
    v).pins = s.pins ∧ (s.withTrigs v).mode = s.mode ∧ (s.withTrigs v).shed = s.shed ∧ (s.withTrigs v).otp = s.otp ∧
    (s.withTrigs v).regs = s.regs ∧ (s.withTrigs v).time = s.time ∧ (s.withTrigs v).slew = s.slew ∧ (s.withTrigs
    v).epoch = s.epoch ∧ (s.withTrigs v).counting = s.counting ∧ (s.withTrigs v).latches = s.latches ∧ (s.withTrigs
    v).evtSeq = s.evtSeq ∧ (s.withTrigs v).evtIrq = s.evtIrq ∧ (s.withTrigs v).evtDefer = s.evtDefer ∧ (s.withTrigs
    v).msix = s.msix ∧ (s.withTrigs v).d3hot = s.d3hot ∧ (s.withTrigs v).dram = s.dram ∧ (s.withTrigs v).banks =
    s.banks ∧ (s.withTrigs v).pool = s.pool ∧ (s.withTrigs v).mailbox = s.mailbox ∧ (s.withTrigs v).flash = s.flash ∧
    (s.withTrigs v).hostMem = s.hostMem ∧ (s.withTrigs v).torn = s.torn ∧ (s.withTrigs v).sensors = s.sensors ∧
    (s.withTrigs v).alertArmed = s.alertArmed ∧ (s.withTrigs v).warnArmed = s.warnArmed ∧ (s.withTrigs v).persist =
    s.persist ∧ (s.withTrigs v).nvm = s.nvm ∧ (s.withTrigs v).unit = s.unit ∧ (s.withTrigs v).lc = s.lc ∧ (s.withTrigs
    v).eraseDue = s.eraseDue ∧ (s.withTrigs v).slotTried = s.slotTried ∧ (s.withTrigs v).booted = s.booted ∧
    (s.withTrigs v).bodyHash = s.bodyHash ∧ (s.withTrigs v).hkOff = s.hkOff ∧ (s.withTrigs v).hkLen = s.hkLen ∧
    (s.withTrigs v).hkEntry = s.hkEntry ∧ (s.withTrigs v).sync = s.sync ∧ (s.withTrigs v).acts = s.acts ∧ (s.withTrigs
    v).dies = s.dies ∧ (s.withTrigs v).chans = s.chans ∧ (s.withTrigs v).rings = s.rings ∧ (s.withTrigs v).logBuf =
    s.logBuf ∧ (s.withTrigs v).logTime = s.logTime ∧ (s.withTrigs v).rq = s.rq ∧ (s.withTrigs v).tdcs = s.tdcs ∧
    (s.withTrigs v).units = s.units ∧ (s.withTrigs v).streams = s.streams ∧ (s.withTrigs v).cal = s.cal ∧ (s.withTrigs
    v).ports = s.ports ∧ (s.withTrigs v).whistles = s.whistles ∧ (s.withTrigs v).shows = s.shows ∧ (s.withTrigs
    v).devs = s.devs ∧ (s.withTrigs v).queues = s.queues ∧ (s.withTrigs v).eccTime = s.eccTime ∧ (s.withTrigs v).jtag
    = s.jtag ∧ (s.withTrigs v).trims = s.trims ∧ (s.withTrigs v).patrol = s.patrol ∧ (s.withTrigs v).aer = s.aer ∧
    (s.withTrigs v).ep = s.ep ∧ (s.withTrigs v).blanks = s.blanks ∧ (s.withTrigs v).reply = s.reply ∧ (s.withTrigs
    v).freeCtr = s.freeCtr := by
  repeat' constructor

@[simp] theorem State.withStreams_streams (s : State) (v : Tab StreamSt) : (s.withStreams v).streams = v := rfl

theorem State.withStreams_others (s : State) (v : Tab StreamSt) : (s.withStreams v).pending = s.pending ∧
    (s.withStreams v).pins = s.pins ∧ (s.withStreams v).mode = s.mode ∧ (s.withStreams v).shed = s.shed ∧
    (s.withStreams v).otp = s.otp ∧ (s.withStreams v).regs = s.regs ∧ (s.withStreams v).time = s.time ∧ (s.withStreams
    v).slew = s.slew ∧ (s.withStreams v).epoch = s.epoch ∧ (s.withStreams v).counting = s.counting ∧ (s.withStreams
    v).latches = s.latches ∧ (s.withStreams v).evtSeq = s.evtSeq ∧ (s.withStreams v).evtIrq = s.evtIrq ∧
    (s.withStreams v).evtDefer = s.evtDefer ∧ (s.withStreams v).msix = s.msix ∧ (s.withStreams v).d3hot = s.d3hot ∧
    (s.withStreams v).dram = s.dram ∧ (s.withStreams v).banks = s.banks ∧ (s.withStreams v).pool = s.pool ∧
    (s.withStreams v).mailbox = s.mailbox ∧ (s.withStreams v).flash = s.flash ∧ (s.withStreams v).hostMem = s.hostMem
    ∧ (s.withStreams v).torn = s.torn ∧ (s.withStreams v).sensors = s.sensors ∧ (s.withStreams v).alertArmed =
    s.alertArmed ∧ (s.withStreams v).warnArmed = s.warnArmed ∧ (s.withStreams v).persist = s.persist ∧ (s.withStreams
    v).nvm = s.nvm ∧ (s.withStreams v).unit = s.unit ∧ (s.withStreams v).lc = s.lc ∧ (s.withStreams v).eraseDue =
    s.eraseDue ∧ (s.withStreams v).slotTried = s.slotTried ∧ (s.withStreams v).booted = s.booted ∧ (s.withStreams
    v).bodyHash = s.bodyHash ∧ (s.withStreams v).hkOff = s.hkOff ∧ (s.withStreams v).hkLen = s.hkLen ∧ (s.withStreams
    v).hkEntry = s.hkEntry ∧ (s.withStreams v).sync = s.sync ∧ (s.withStreams v).acts = s.acts ∧ (s.withStreams
    v).dies = s.dies ∧ (s.withStreams v).chans = s.chans ∧ (s.withStreams v).rings = s.rings ∧ (s.withStreams
    v).logBuf = s.logBuf ∧ (s.withStreams v).logTime = s.logTime ∧ (s.withStreams v).rq = s.rq ∧ (s.withStreams
    v).tdcs = s.tdcs ∧ (s.withStreams v).units = s.units ∧ (s.withStreams v).trigs = s.trigs ∧ (s.withStreams v).cal =
    s.cal ∧ (s.withStreams v).ports = s.ports ∧ (s.withStreams v).whistles = s.whistles ∧ (s.withStreams v).shows =
    s.shows ∧ (s.withStreams v).devs = s.devs ∧ (s.withStreams v).queues = s.queues ∧ (s.withStreams v).eccTime =
    s.eccTime ∧ (s.withStreams v).jtag = s.jtag ∧ (s.withStreams v).trims = s.trims ∧ (s.withStreams v).patrol =
    s.patrol ∧ (s.withStreams v).aer = s.aer ∧ (s.withStreams v).ep = s.ep ∧ (s.withStreams v).blanks = s.blanks ∧
    (s.withStreams v).reply = s.reply ∧ (s.withStreams v).freeCtr = s.freeCtr := by
  repeat' constructor

@[simp] theorem State.withCal_cal (s : State) (v : CalSt) : (s.withCal v).cal = v := rfl

theorem State.withCal_others (s : State) (v : CalSt) : (s.withCal v).pending = s.pending ∧ (s.withCal v).pins = s.pins
    ∧ (s.withCal v).mode = s.mode ∧ (s.withCal v).shed = s.shed ∧ (s.withCal v).otp = s.otp ∧ (s.withCal v).regs =
    s.regs ∧ (s.withCal v).time = s.time ∧ (s.withCal v).slew = s.slew ∧ (s.withCal v).epoch = s.epoch ∧ (s.withCal
    v).counting = s.counting ∧ (s.withCal v).latches = s.latches ∧ (s.withCal v).evtSeq = s.evtSeq ∧ (s.withCal
    v).evtIrq = s.evtIrq ∧ (s.withCal v).evtDefer = s.evtDefer ∧ (s.withCal v).msix = s.msix ∧ (s.withCal v).d3hot =
    s.d3hot ∧ (s.withCal v).dram = s.dram ∧ (s.withCal v).banks = s.banks ∧ (s.withCal v).pool = s.pool ∧ (s.withCal
    v).mailbox = s.mailbox ∧ (s.withCal v).flash = s.flash ∧ (s.withCal v).hostMem = s.hostMem ∧ (s.withCal v).torn =
    s.torn ∧ (s.withCal v).sensors = s.sensors ∧ (s.withCal v).alertArmed = s.alertArmed ∧ (s.withCal v).warnArmed =
    s.warnArmed ∧ (s.withCal v).persist = s.persist ∧ (s.withCal v).nvm = s.nvm ∧ (s.withCal v).unit = s.unit ∧
    (s.withCal v).lc = s.lc ∧ (s.withCal v).eraseDue = s.eraseDue ∧ (s.withCal v).slotTried = s.slotTried ∧ (s.withCal
    v).booted = s.booted ∧ (s.withCal v).bodyHash = s.bodyHash ∧ (s.withCal v).hkOff = s.hkOff ∧ (s.withCal v).hkLen =
    s.hkLen ∧ (s.withCal v).hkEntry = s.hkEntry ∧ (s.withCal v).sync = s.sync ∧ (s.withCal v).acts = s.acts ∧
    (s.withCal v).dies = s.dies ∧ (s.withCal v).chans = s.chans ∧ (s.withCal v).rings = s.rings ∧ (s.withCal v).logBuf
    = s.logBuf ∧ (s.withCal v).logTime = s.logTime ∧ (s.withCal v).rq = s.rq ∧ (s.withCal v).tdcs = s.tdcs ∧
    (s.withCal v).units = s.units ∧ (s.withCal v).trigs = s.trigs ∧ (s.withCal v).streams = s.streams ∧ (s.withCal
    v).ports = s.ports ∧ (s.withCal v).whistles = s.whistles ∧ (s.withCal v).shows = s.shows ∧ (s.withCal v).devs =
    s.devs ∧ (s.withCal v).queues = s.queues ∧ (s.withCal v).eccTime = s.eccTime ∧ (s.withCal v).jtag = s.jtag ∧
    (s.withCal v).trims = s.trims ∧ (s.withCal v).patrol = s.patrol ∧ (s.withCal v).aer = s.aer ∧ (s.withCal v).ep =
    s.ep ∧ (s.withCal v).blanks = s.blanks ∧ (s.withCal v).reply = s.reply ∧ (s.withCal v).freeCtr = s.freeCtr := by
  repeat' constructor

@[simp] theorem State.withPorts_ports (s : State) (v : Tab PortSt) : (s.withPorts v).ports = v := rfl

theorem State.withPorts_others (s : State) (v : Tab PortSt) : (s.withPorts v).pending = s.pending ∧ (s.withPorts
    v).pins = s.pins ∧ (s.withPorts v).mode = s.mode ∧ (s.withPorts v).shed = s.shed ∧ (s.withPorts v).otp = s.otp ∧
    (s.withPorts v).regs = s.regs ∧ (s.withPorts v).time = s.time ∧ (s.withPorts v).slew = s.slew ∧ (s.withPorts
    v).epoch = s.epoch ∧ (s.withPorts v).counting = s.counting ∧ (s.withPorts v).latches = s.latches ∧ (s.withPorts
    v).evtSeq = s.evtSeq ∧ (s.withPorts v).evtIrq = s.evtIrq ∧ (s.withPorts v).evtDefer = s.evtDefer ∧ (s.withPorts
    v).msix = s.msix ∧ (s.withPorts v).d3hot = s.d3hot ∧ (s.withPorts v).dram = s.dram ∧ (s.withPorts v).banks =
    s.banks ∧ (s.withPorts v).pool = s.pool ∧ (s.withPorts v).mailbox = s.mailbox ∧ (s.withPorts v).flash = s.flash ∧
    (s.withPorts v).hostMem = s.hostMem ∧ (s.withPorts v).torn = s.torn ∧ (s.withPorts v).sensors = s.sensors ∧
    (s.withPorts v).alertArmed = s.alertArmed ∧ (s.withPorts v).warnArmed = s.warnArmed ∧ (s.withPorts v).persist =
    s.persist ∧ (s.withPorts v).nvm = s.nvm ∧ (s.withPorts v).unit = s.unit ∧ (s.withPorts v).lc = s.lc ∧ (s.withPorts
    v).eraseDue = s.eraseDue ∧ (s.withPorts v).slotTried = s.slotTried ∧ (s.withPorts v).booted = s.booted ∧
    (s.withPorts v).bodyHash = s.bodyHash ∧ (s.withPorts v).hkOff = s.hkOff ∧ (s.withPorts v).hkLen = s.hkLen ∧
    (s.withPorts v).hkEntry = s.hkEntry ∧ (s.withPorts v).sync = s.sync ∧ (s.withPorts v).acts = s.acts ∧ (s.withPorts
    v).dies = s.dies ∧ (s.withPorts v).chans = s.chans ∧ (s.withPorts v).rings = s.rings ∧ (s.withPorts v).logBuf =
    s.logBuf ∧ (s.withPorts v).logTime = s.logTime ∧ (s.withPorts v).rq = s.rq ∧ (s.withPorts v).tdcs = s.tdcs ∧
    (s.withPorts v).units = s.units ∧ (s.withPorts v).trigs = s.trigs ∧ (s.withPorts v).streams = s.streams ∧
    (s.withPorts v).cal = s.cal ∧ (s.withPorts v).whistles = s.whistles ∧ (s.withPorts v).shows = s.shows ∧
    (s.withPorts v).devs = s.devs ∧ (s.withPorts v).queues = s.queues ∧ (s.withPorts v).eccTime = s.eccTime ∧
    (s.withPorts v).jtag = s.jtag ∧ (s.withPorts v).trims = s.trims ∧ (s.withPorts v).patrol = s.patrol ∧ (s.withPorts
    v).aer = s.aer ∧ (s.withPorts v).ep = s.ep ∧ (s.withPorts v).blanks = s.blanks ∧ (s.withPorts v).reply = s.reply ∧
    (s.withPorts v).freeCtr = s.freeCtr := by
  repeat' constructor

@[simp] theorem State.withWhistles_whistles (s : State) (v : WhistleSt) : (s.withWhistles v).whistles = v := rfl

theorem State.withWhistles_others (s : State) (v : WhistleSt) : (s.withWhistles v).pending = s.pending ∧
    (s.withWhistles v).pins = s.pins ∧ (s.withWhistles v).mode = s.mode ∧ (s.withWhistles v).shed = s.shed ∧
    (s.withWhistles v).otp = s.otp ∧ (s.withWhistles v).regs = s.regs ∧ (s.withWhistles v).time = s.time ∧
    (s.withWhistles v).slew = s.slew ∧ (s.withWhistles v).epoch = s.epoch ∧ (s.withWhistles v).counting = s.counting ∧
    (s.withWhistles v).latches = s.latches ∧ (s.withWhistles v).evtSeq = s.evtSeq ∧ (s.withWhistles v).evtIrq =
    s.evtIrq ∧ (s.withWhistles v).evtDefer = s.evtDefer ∧ (s.withWhistles v).msix = s.msix ∧ (s.withWhistles v).d3hot
    = s.d3hot ∧ (s.withWhistles v).dram = s.dram ∧ (s.withWhistles v).banks = s.banks ∧ (s.withWhistles v).pool =
    s.pool ∧ (s.withWhistles v).mailbox = s.mailbox ∧ (s.withWhistles v).flash = s.flash ∧ (s.withWhistles v).hostMem
    = s.hostMem ∧ (s.withWhistles v).torn = s.torn ∧ (s.withWhistles v).sensors = s.sensors ∧ (s.withWhistles
    v).alertArmed = s.alertArmed ∧ (s.withWhistles v).warnArmed = s.warnArmed ∧ (s.withWhistles v).persist = s.persist
    ∧ (s.withWhistles v).nvm = s.nvm ∧ (s.withWhistles v).unit = s.unit ∧ (s.withWhistles v).lc = s.lc ∧
    (s.withWhistles v).eraseDue = s.eraseDue ∧ (s.withWhistles v).slotTried = s.slotTried ∧ (s.withWhistles v).booted
    = s.booted ∧ (s.withWhistles v).bodyHash = s.bodyHash ∧ (s.withWhistles v).hkOff = s.hkOff ∧ (s.withWhistles
    v).hkLen = s.hkLen ∧ (s.withWhistles v).hkEntry = s.hkEntry ∧ (s.withWhistles v).sync = s.sync ∧ (s.withWhistles
    v).acts = s.acts ∧ (s.withWhistles v).dies = s.dies ∧ (s.withWhistles v).chans = s.chans ∧ (s.withWhistles
    v).rings = s.rings ∧ (s.withWhistles v).logBuf = s.logBuf ∧ (s.withWhistles v).logTime = s.logTime ∧
    (s.withWhistles v).rq = s.rq ∧ (s.withWhistles v).tdcs = s.tdcs ∧ (s.withWhistles v).units = s.units ∧
    (s.withWhistles v).trigs = s.trigs ∧ (s.withWhistles v).streams = s.streams ∧ (s.withWhistles v).cal = s.cal ∧
    (s.withWhistles v).ports = s.ports ∧ (s.withWhistles v).shows = s.shows ∧ (s.withWhistles v).devs = s.devs ∧
    (s.withWhistles v).queues = s.queues ∧ (s.withWhistles v).eccTime = s.eccTime ∧ (s.withWhistles v).jtag = s.jtag ∧
    (s.withWhistles v).trims = s.trims ∧ (s.withWhistles v).patrol = s.patrol ∧ (s.withWhistles v).aer = s.aer ∧
    (s.withWhistles v).ep = s.ep ∧ (s.withWhistles v).blanks = s.blanks ∧ (s.withWhistles v).reply = s.reply ∧
    (s.withWhistles v).freeCtr = s.freeCtr := by
  repeat' constructor

@[simp] theorem State.withShows_shows (s : State) (v : Tab ShowSt) : (s.withShows v).shows = v := rfl

theorem State.withShows_others (s : State) (v : Tab ShowSt) : (s.withShows v).pending = s.pending ∧ (s.withShows
    v).pins = s.pins ∧ (s.withShows v).mode = s.mode ∧ (s.withShows v).shed = s.shed ∧ (s.withShows v).otp = s.otp ∧
    (s.withShows v).regs = s.regs ∧ (s.withShows v).time = s.time ∧ (s.withShows v).slew = s.slew ∧ (s.withShows
    v).epoch = s.epoch ∧ (s.withShows v).counting = s.counting ∧ (s.withShows v).latches = s.latches ∧ (s.withShows
    v).evtSeq = s.evtSeq ∧ (s.withShows v).evtIrq = s.evtIrq ∧ (s.withShows v).evtDefer = s.evtDefer ∧ (s.withShows
    v).msix = s.msix ∧ (s.withShows v).d3hot = s.d3hot ∧ (s.withShows v).dram = s.dram ∧ (s.withShows v).banks =
    s.banks ∧ (s.withShows v).pool = s.pool ∧ (s.withShows v).mailbox = s.mailbox ∧ (s.withShows v).flash = s.flash ∧
    (s.withShows v).hostMem = s.hostMem ∧ (s.withShows v).torn = s.torn ∧ (s.withShows v).sensors = s.sensors ∧
    (s.withShows v).alertArmed = s.alertArmed ∧ (s.withShows v).warnArmed = s.warnArmed ∧ (s.withShows v).persist =
    s.persist ∧ (s.withShows v).nvm = s.nvm ∧ (s.withShows v).unit = s.unit ∧ (s.withShows v).lc = s.lc ∧ (s.withShows
    v).eraseDue = s.eraseDue ∧ (s.withShows v).slotTried = s.slotTried ∧ (s.withShows v).booted = s.booted ∧
    (s.withShows v).bodyHash = s.bodyHash ∧ (s.withShows v).hkOff = s.hkOff ∧ (s.withShows v).hkLen = s.hkLen ∧
    (s.withShows v).hkEntry = s.hkEntry ∧ (s.withShows v).sync = s.sync ∧ (s.withShows v).acts = s.acts ∧ (s.withShows
    v).dies = s.dies ∧ (s.withShows v).chans = s.chans ∧ (s.withShows v).rings = s.rings ∧ (s.withShows v).logBuf =
    s.logBuf ∧ (s.withShows v).logTime = s.logTime ∧ (s.withShows v).rq = s.rq ∧ (s.withShows v).tdcs = s.tdcs ∧
    (s.withShows v).units = s.units ∧ (s.withShows v).trigs = s.trigs ∧ (s.withShows v).streams = s.streams ∧
    (s.withShows v).cal = s.cal ∧ (s.withShows v).ports = s.ports ∧ (s.withShows v).whistles = s.whistles ∧
    (s.withShows v).devs = s.devs ∧ (s.withShows v).queues = s.queues ∧ (s.withShows v).eccTime = s.eccTime ∧
    (s.withShows v).jtag = s.jtag ∧ (s.withShows v).trims = s.trims ∧ (s.withShows v).patrol = s.patrol ∧ (s.withShows
    v).aer = s.aer ∧ (s.withShows v).ep = s.ep ∧ (s.withShows v).blanks = s.blanks ∧ (s.withShows v).reply = s.reply ∧
    (s.withShows v).freeCtr = s.freeCtr := by
  repeat' constructor

@[simp] theorem State.withDevs_devs (s : State) (v : Tab DevSt) : (s.withDevs v).devs = v := rfl

theorem State.withDevs_others (s : State) (v : Tab DevSt) : (s.withDevs v).pending = s.pending ∧ (s.withDevs v).pins =
    s.pins ∧ (s.withDevs v).mode = s.mode ∧ (s.withDevs v).shed = s.shed ∧ (s.withDevs v).otp = s.otp ∧ (s.withDevs
    v).regs = s.regs ∧ (s.withDevs v).time = s.time ∧ (s.withDevs v).slew = s.slew ∧ (s.withDevs v).epoch = s.epoch ∧
    (s.withDevs v).counting = s.counting ∧ (s.withDevs v).latches = s.latches ∧ (s.withDevs v).evtSeq = s.evtSeq ∧
    (s.withDevs v).evtIrq = s.evtIrq ∧ (s.withDevs v).evtDefer = s.evtDefer ∧ (s.withDevs v).msix = s.msix ∧
    (s.withDevs v).d3hot = s.d3hot ∧ (s.withDevs v).dram = s.dram ∧ (s.withDevs v).banks = s.banks ∧ (s.withDevs
    v).pool = s.pool ∧ (s.withDevs v).mailbox = s.mailbox ∧ (s.withDevs v).flash = s.flash ∧ (s.withDevs v).hostMem =
    s.hostMem ∧ (s.withDevs v).torn = s.torn ∧ (s.withDevs v).sensors = s.sensors ∧ (s.withDevs v).alertArmed =
    s.alertArmed ∧ (s.withDevs v).warnArmed = s.warnArmed ∧ (s.withDevs v).persist = s.persist ∧ (s.withDevs v).nvm =
    s.nvm ∧ (s.withDevs v).unit = s.unit ∧ (s.withDevs v).lc = s.lc ∧ (s.withDevs v).eraseDue = s.eraseDue ∧
    (s.withDevs v).slotTried = s.slotTried ∧ (s.withDevs v).booted = s.booted ∧ (s.withDevs v).bodyHash = s.bodyHash ∧
    (s.withDevs v).hkOff = s.hkOff ∧ (s.withDevs v).hkLen = s.hkLen ∧ (s.withDevs v).hkEntry = s.hkEntry ∧ (s.withDevs
    v).sync = s.sync ∧ (s.withDevs v).acts = s.acts ∧ (s.withDevs v).dies = s.dies ∧ (s.withDevs v).chans = s.chans ∧
    (s.withDevs v).rings = s.rings ∧ (s.withDevs v).logBuf = s.logBuf ∧ (s.withDevs v).logTime = s.logTime ∧
    (s.withDevs v).rq = s.rq ∧ (s.withDevs v).tdcs = s.tdcs ∧ (s.withDevs v).units = s.units ∧ (s.withDevs v).trigs =
    s.trigs ∧ (s.withDevs v).streams = s.streams ∧ (s.withDevs v).cal = s.cal ∧ (s.withDevs v).ports = s.ports ∧
    (s.withDevs v).whistles = s.whistles ∧ (s.withDevs v).shows = s.shows ∧ (s.withDevs v).queues = s.queues ∧
    (s.withDevs v).eccTime = s.eccTime ∧ (s.withDevs v).jtag = s.jtag ∧ (s.withDevs v).trims = s.trims ∧ (s.withDevs
    v).patrol = s.patrol ∧ (s.withDevs v).aer = s.aer ∧ (s.withDevs v).ep = s.ep ∧ (s.withDevs v).blanks = s.blanks ∧
    (s.withDevs v).reply = s.reply ∧ (s.withDevs v).freeCtr = s.freeCtr := by
  repeat' constructor

@[simp] theorem State.withQueues_queues (s : State) (v : Tab QueueSt) : (s.withQueues v).queues = v := rfl

theorem State.withQueues_others (s : State) (v : Tab QueueSt) : (s.withQueues v).pending = s.pending ∧ (s.withQueues
    v).pins = s.pins ∧ (s.withQueues v).mode = s.mode ∧ (s.withQueues v).shed = s.shed ∧ (s.withQueues v).otp = s.otp
    ∧ (s.withQueues v).regs = s.regs ∧ (s.withQueues v).time = s.time ∧ (s.withQueues v).slew = s.slew ∧ (s.withQueues
    v).epoch = s.epoch ∧ (s.withQueues v).counting = s.counting ∧ (s.withQueues v).latches = s.latches ∧ (s.withQueues
    v).evtSeq = s.evtSeq ∧ (s.withQueues v).evtIrq = s.evtIrq ∧ (s.withQueues v).evtDefer = s.evtDefer ∧ (s.withQueues
    v).msix = s.msix ∧ (s.withQueues v).d3hot = s.d3hot ∧ (s.withQueues v).dram = s.dram ∧ (s.withQueues v).banks =
    s.banks ∧ (s.withQueues v).pool = s.pool ∧ (s.withQueues v).mailbox = s.mailbox ∧ (s.withQueues v).flash = s.flash
    ∧ (s.withQueues v).hostMem = s.hostMem ∧ (s.withQueues v).torn = s.torn ∧ (s.withQueues v).sensors = s.sensors ∧
    (s.withQueues v).alertArmed = s.alertArmed ∧ (s.withQueues v).warnArmed = s.warnArmed ∧ (s.withQueues v).persist =
    s.persist ∧ (s.withQueues v).nvm = s.nvm ∧ (s.withQueues v).unit = s.unit ∧ (s.withQueues v).lc = s.lc ∧
    (s.withQueues v).eraseDue = s.eraseDue ∧ (s.withQueues v).slotTried = s.slotTried ∧ (s.withQueues v).booted =
    s.booted ∧ (s.withQueues v).bodyHash = s.bodyHash ∧ (s.withQueues v).hkOff = s.hkOff ∧ (s.withQueues v).hkLen =
    s.hkLen ∧ (s.withQueues v).hkEntry = s.hkEntry ∧ (s.withQueues v).sync = s.sync ∧ (s.withQueues v).acts = s.acts ∧
    (s.withQueues v).dies = s.dies ∧ (s.withQueues v).chans = s.chans ∧ (s.withQueues v).rings = s.rings ∧
    (s.withQueues v).logBuf = s.logBuf ∧ (s.withQueues v).logTime = s.logTime ∧ (s.withQueues v).rq = s.rq ∧
    (s.withQueues v).tdcs = s.tdcs ∧ (s.withQueues v).units = s.units ∧ (s.withQueues v).trigs = s.trigs ∧
    (s.withQueues v).streams = s.streams ∧ (s.withQueues v).cal = s.cal ∧ (s.withQueues v).ports = s.ports ∧
    (s.withQueues v).whistles = s.whistles ∧ (s.withQueues v).shows = s.shows ∧ (s.withQueues v).devs = s.devs ∧
    (s.withQueues v).eccTime = s.eccTime ∧ (s.withQueues v).jtag = s.jtag ∧ (s.withQueues v).trims = s.trims ∧
    (s.withQueues v).patrol = s.patrol ∧ (s.withQueues v).aer = s.aer ∧ (s.withQueues v).ep = s.ep ∧ (s.withQueues
    v).blanks = s.blanks ∧ (s.withQueues v).reply = s.reply ∧ (s.withQueues v).freeCtr = s.freeCtr := by
  repeat' constructor

@[simp] theorem State.withEccTime_eccTime (s : State) (v : Option Nat) : (s.withEccTime v).eccTime = v := rfl

theorem State.withEccTime_others (s : State) (v : Option Nat) : (s.withEccTime v).pending = s.pending ∧ (s.withEccTime
    v).pins = s.pins ∧ (s.withEccTime v).mode = s.mode ∧ (s.withEccTime v).shed = s.shed ∧ (s.withEccTime v).otp =
    s.otp ∧ (s.withEccTime v).regs = s.regs ∧ (s.withEccTime v).time = s.time ∧ (s.withEccTime v).slew = s.slew ∧
    (s.withEccTime v).epoch = s.epoch ∧ (s.withEccTime v).counting = s.counting ∧ (s.withEccTime v).latches =
    s.latches ∧ (s.withEccTime v).evtSeq = s.evtSeq ∧ (s.withEccTime v).evtIrq = s.evtIrq ∧ (s.withEccTime v).evtDefer
    = s.evtDefer ∧ (s.withEccTime v).msix = s.msix ∧ (s.withEccTime v).d3hot = s.d3hot ∧ (s.withEccTime v).dram =
    s.dram ∧ (s.withEccTime v).banks = s.banks ∧ (s.withEccTime v).pool = s.pool ∧ (s.withEccTime v).mailbox =
    s.mailbox ∧ (s.withEccTime v).flash = s.flash ∧ (s.withEccTime v).hostMem = s.hostMem ∧ (s.withEccTime v).torn =
    s.torn ∧ (s.withEccTime v).sensors = s.sensors ∧ (s.withEccTime v).alertArmed = s.alertArmed ∧ (s.withEccTime
    v).warnArmed = s.warnArmed ∧ (s.withEccTime v).persist = s.persist ∧ (s.withEccTime v).nvm = s.nvm ∧
    (s.withEccTime v).unit = s.unit ∧ (s.withEccTime v).lc = s.lc ∧ (s.withEccTime v).eraseDue = s.eraseDue ∧
    (s.withEccTime v).slotTried = s.slotTried ∧ (s.withEccTime v).booted = s.booted ∧ (s.withEccTime v).bodyHash =
    s.bodyHash ∧ (s.withEccTime v).hkOff = s.hkOff ∧ (s.withEccTime v).hkLen = s.hkLen ∧ (s.withEccTime v).hkEntry =
    s.hkEntry ∧ (s.withEccTime v).sync = s.sync ∧ (s.withEccTime v).acts = s.acts ∧ (s.withEccTime v).dies = s.dies ∧
    (s.withEccTime v).chans = s.chans ∧ (s.withEccTime v).rings = s.rings ∧ (s.withEccTime v).logBuf = s.logBuf ∧
    (s.withEccTime v).logTime = s.logTime ∧ (s.withEccTime v).rq = s.rq ∧ (s.withEccTime v).tdcs = s.tdcs ∧
    (s.withEccTime v).units = s.units ∧ (s.withEccTime v).trigs = s.trigs ∧ (s.withEccTime v).streams = s.streams ∧
    (s.withEccTime v).cal = s.cal ∧ (s.withEccTime v).ports = s.ports ∧ (s.withEccTime v).whistles = s.whistles ∧
    (s.withEccTime v).shows = s.shows ∧ (s.withEccTime v).devs = s.devs ∧ (s.withEccTime v).queues = s.queues ∧
    (s.withEccTime v).jtag = s.jtag ∧ (s.withEccTime v).trims = s.trims ∧ (s.withEccTime v).patrol = s.patrol ∧
    (s.withEccTime v).aer = s.aer ∧ (s.withEccTime v).ep = s.ep ∧ (s.withEccTime v).blanks = s.blanks ∧ (s.withEccTime
    v).reply = s.reply ∧ (s.withEccTime v).freeCtr = s.freeCtr := by
  repeat' constructor

@[simp] theorem State.withJtag_jtag (s : State) (v : Nat) : (s.withJtag v).jtag = v := rfl

theorem State.withJtag_others (s : State) (v : Nat) : (s.withJtag v).pending = s.pending ∧ (s.withJtag v).pins =
    s.pins ∧ (s.withJtag v).mode = s.mode ∧ (s.withJtag v).shed = s.shed ∧ (s.withJtag v).otp = s.otp ∧ (s.withJtag
    v).regs = s.regs ∧ (s.withJtag v).time = s.time ∧ (s.withJtag v).slew = s.slew ∧ (s.withJtag v).epoch = s.epoch ∧
    (s.withJtag v).counting = s.counting ∧ (s.withJtag v).latches = s.latches ∧ (s.withJtag v).evtSeq = s.evtSeq ∧
    (s.withJtag v).evtIrq = s.evtIrq ∧ (s.withJtag v).evtDefer = s.evtDefer ∧ (s.withJtag v).msix = s.msix ∧
    (s.withJtag v).d3hot = s.d3hot ∧ (s.withJtag v).dram = s.dram ∧ (s.withJtag v).banks = s.banks ∧ (s.withJtag
    v).pool = s.pool ∧ (s.withJtag v).mailbox = s.mailbox ∧ (s.withJtag v).flash = s.flash ∧ (s.withJtag v).hostMem =
    s.hostMem ∧ (s.withJtag v).torn = s.torn ∧ (s.withJtag v).sensors = s.sensors ∧ (s.withJtag v).alertArmed =
    s.alertArmed ∧ (s.withJtag v).warnArmed = s.warnArmed ∧ (s.withJtag v).persist = s.persist ∧ (s.withJtag v).nvm =
    s.nvm ∧ (s.withJtag v).unit = s.unit ∧ (s.withJtag v).lc = s.lc ∧ (s.withJtag v).eraseDue = s.eraseDue ∧
    (s.withJtag v).slotTried = s.slotTried ∧ (s.withJtag v).booted = s.booted ∧ (s.withJtag v).bodyHash = s.bodyHash ∧
    (s.withJtag v).hkOff = s.hkOff ∧ (s.withJtag v).hkLen = s.hkLen ∧ (s.withJtag v).hkEntry = s.hkEntry ∧ (s.withJtag
    v).sync = s.sync ∧ (s.withJtag v).acts = s.acts ∧ (s.withJtag v).dies = s.dies ∧ (s.withJtag v).chans = s.chans ∧
    (s.withJtag v).rings = s.rings ∧ (s.withJtag v).logBuf = s.logBuf ∧ (s.withJtag v).logTime = s.logTime ∧
    (s.withJtag v).rq = s.rq ∧ (s.withJtag v).tdcs = s.tdcs ∧ (s.withJtag v).units = s.units ∧ (s.withJtag v).trigs =
    s.trigs ∧ (s.withJtag v).streams = s.streams ∧ (s.withJtag v).cal = s.cal ∧ (s.withJtag v).ports = s.ports ∧
    (s.withJtag v).whistles = s.whistles ∧ (s.withJtag v).shows = s.shows ∧ (s.withJtag v).devs = s.devs ∧ (s.withJtag
    v).queues = s.queues ∧ (s.withJtag v).eccTime = s.eccTime ∧ (s.withJtag v).trims = s.trims ∧ (s.withJtag v).patrol
    = s.patrol ∧ (s.withJtag v).aer = s.aer ∧ (s.withJtag v).ep = s.ep ∧ (s.withJtag v).blanks = s.blanks ∧
    (s.withJtag v).reply = s.reply ∧ (s.withJtag v).freeCtr = s.freeCtr := by
  repeat' constructor

@[simp] theorem State.withTrims_trims (s : State) (v : Tab Word) : (s.withTrims v).trims = v := rfl

theorem State.withTrims_others (s : State) (v : Tab Word) : (s.withTrims v).pending = s.pending ∧ (s.withTrims v).pins
    = s.pins ∧ (s.withTrims v).mode = s.mode ∧ (s.withTrims v).shed = s.shed ∧ (s.withTrims v).otp = s.otp ∧
    (s.withTrims v).regs = s.regs ∧ (s.withTrims v).time = s.time ∧ (s.withTrims v).slew = s.slew ∧ (s.withTrims
    v).epoch = s.epoch ∧ (s.withTrims v).counting = s.counting ∧ (s.withTrims v).latches = s.latches ∧ (s.withTrims
    v).evtSeq = s.evtSeq ∧ (s.withTrims v).evtIrq = s.evtIrq ∧ (s.withTrims v).evtDefer = s.evtDefer ∧ (s.withTrims
    v).msix = s.msix ∧ (s.withTrims v).d3hot = s.d3hot ∧ (s.withTrims v).dram = s.dram ∧ (s.withTrims v).banks =
    s.banks ∧ (s.withTrims v).pool = s.pool ∧ (s.withTrims v).mailbox = s.mailbox ∧ (s.withTrims v).flash = s.flash ∧
    (s.withTrims v).hostMem = s.hostMem ∧ (s.withTrims v).torn = s.torn ∧ (s.withTrims v).sensors = s.sensors ∧
    (s.withTrims v).alertArmed = s.alertArmed ∧ (s.withTrims v).warnArmed = s.warnArmed ∧ (s.withTrims v).persist =
    s.persist ∧ (s.withTrims v).nvm = s.nvm ∧ (s.withTrims v).unit = s.unit ∧ (s.withTrims v).lc = s.lc ∧ (s.withTrims
    v).eraseDue = s.eraseDue ∧ (s.withTrims v).slotTried = s.slotTried ∧ (s.withTrims v).booted = s.booted ∧
    (s.withTrims v).bodyHash = s.bodyHash ∧ (s.withTrims v).hkOff = s.hkOff ∧ (s.withTrims v).hkLen = s.hkLen ∧
    (s.withTrims v).hkEntry = s.hkEntry ∧ (s.withTrims v).sync = s.sync ∧ (s.withTrims v).acts = s.acts ∧ (s.withTrims
    v).dies = s.dies ∧ (s.withTrims v).chans = s.chans ∧ (s.withTrims v).rings = s.rings ∧ (s.withTrims v).logBuf =
    s.logBuf ∧ (s.withTrims v).logTime = s.logTime ∧ (s.withTrims v).rq = s.rq ∧ (s.withTrims v).tdcs = s.tdcs ∧
    (s.withTrims v).units = s.units ∧ (s.withTrims v).trigs = s.trigs ∧ (s.withTrims v).streams = s.streams ∧
    (s.withTrims v).cal = s.cal ∧ (s.withTrims v).ports = s.ports ∧ (s.withTrims v).whistles = s.whistles ∧
    (s.withTrims v).shows = s.shows ∧ (s.withTrims v).devs = s.devs ∧ (s.withTrims v).queues = s.queues ∧ (s.withTrims
    v).eccTime = s.eccTime ∧ (s.withTrims v).jtag = s.jtag ∧ (s.withTrims v).patrol = s.patrol ∧ (s.withTrims v).aer =
    s.aer ∧ (s.withTrims v).ep = s.ep ∧ (s.withTrims v).blanks = s.blanks ∧ (s.withTrims v).reply = s.reply ∧
    (s.withTrims v).freeCtr = s.freeCtr := by
  repeat' constructor

@[simp] theorem State.withPatrol_patrol (s : State) (v : Nat) : (s.withPatrol v).patrol = v := rfl

theorem State.withPatrol_others (s : State) (v : Nat) : (s.withPatrol v).pending = s.pending ∧ (s.withPatrol v).pins =
    s.pins ∧ (s.withPatrol v).mode = s.mode ∧ (s.withPatrol v).shed = s.shed ∧ (s.withPatrol v).otp = s.otp ∧
    (s.withPatrol v).regs = s.regs ∧ (s.withPatrol v).time = s.time ∧ (s.withPatrol v).slew = s.slew ∧ (s.withPatrol
    v).epoch = s.epoch ∧ (s.withPatrol v).counting = s.counting ∧ (s.withPatrol v).latches = s.latches ∧ (s.withPatrol
    v).evtSeq = s.evtSeq ∧ (s.withPatrol v).evtIrq = s.evtIrq ∧ (s.withPatrol v).evtDefer = s.evtDefer ∧ (s.withPatrol
    v).msix = s.msix ∧ (s.withPatrol v).d3hot = s.d3hot ∧ (s.withPatrol v).dram = s.dram ∧ (s.withPatrol v).banks =
    s.banks ∧ (s.withPatrol v).pool = s.pool ∧ (s.withPatrol v).mailbox = s.mailbox ∧ (s.withPatrol v).flash = s.flash
    ∧ (s.withPatrol v).hostMem = s.hostMem ∧ (s.withPatrol v).torn = s.torn ∧ (s.withPatrol v).sensors = s.sensors ∧
    (s.withPatrol v).alertArmed = s.alertArmed ∧ (s.withPatrol v).warnArmed = s.warnArmed ∧ (s.withPatrol v).persist =
    s.persist ∧ (s.withPatrol v).nvm = s.nvm ∧ (s.withPatrol v).unit = s.unit ∧ (s.withPatrol v).lc = s.lc ∧
    (s.withPatrol v).eraseDue = s.eraseDue ∧ (s.withPatrol v).slotTried = s.slotTried ∧ (s.withPatrol v).booted =
    s.booted ∧ (s.withPatrol v).bodyHash = s.bodyHash ∧ (s.withPatrol v).hkOff = s.hkOff ∧ (s.withPatrol v).hkLen =
    s.hkLen ∧ (s.withPatrol v).hkEntry = s.hkEntry ∧ (s.withPatrol v).sync = s.sync ∧ (s.withPatrol v).acts = s.acts ∧
    (s.withPatrol v).dies = s.dies ∧ (s.withPatrol v).chans = s.chans ∧ (s.withPatrol v).rings = s.rings ∧
    (s.withPatrol v).logBuf = s.logBuf ∧ (s.withPatrol v).logTime = s.logTime ∧ (s.withPatrol v).rq = s.rq ∧
    (s.withPatrol v).tdcs = s.tdcs ∧ (s.withPatrol v).units = s.units ∧ (s.withPatrol v).trigs = s.trigs ∧
    (s.withPatrol v).streams = s.streams ∧ (s.withPatrol v).cal = s.cal ∧ (s.withPatrol v).ports = s.ports ∧
    (s.withPatrol v).whistles = s.whistles ∧ (s.withPatrol v).shows = s.shows ∧ (s.withPatrol v).devs = s.devs ∧
    (s.withPatrol v).queues = s.queues ∧ (s.withPatrol v).eccTime = s.eccTime ∧ (s.withPatrol v).jtag = s.jtag ∧
    (s.withPatrol v).trims = s.trims ∧ (s.withPatrol v).aer = s.aer ∧ (s.withPatrol v).ep = s.ep ∧ (s.withPatrol
    v).blanks = s.blanks ∧ (s.withPatrol v).reply = s.reply ∧ (s.withPatrol v).freeCtr = s.freeCtr := by
  repeat' constructor

@[simp] theorem State.withAer_aer (s : State) (v : BitVec 4) : (s.withAer v).aer = v := rfl

theorem State.withAer_others (s : State) (v : BitVec 4) : (s.withAer v).pending = s.pending ∧ (s.withAer v).pins =
    s.pins ∧ (s.withAer v).mode = s.mode ∧ (s.withAer v).shed = s.shed ∧ (s.withAer v).otp = s.otp ∧ (s.withAer
    v).regs = s.regs ∧ (s.withAer v).time = s.time ∧ (s.withAer v).slew = s.slew ∧ (s.withAer v).epoch = s.epoch ∧
    (s.withAer v).counting = s.counting ∧ (s.withAer v).latches = s.latches ∧ (s.withAer v).evtSeq = s.evtSeq ∧
    (s.withAer v).evtIrq = s.evtIrq ∧ (s.withAer v).evtDefer = s.evtDefer ∧ (s.withAer v).msix = s.msix ∧ (s.withAer
    v).d3hot = s.d3hot ∧ (s.withAer v).dram = s.dram ∧ (s.withAer v).banks = s.banks ∧ (s.withAer v).pool = s.pool ∧
    (s.withAer v).mailbox = s.mailbox ∧ (s.withAer v).flash = s.flash ∧ (s.withAer v).hostMem = s.hostMem ∧ (s.withAer
    v).torn = s.torn ∧ (s.withAer v).sensors = s.sensors ∧ (s.withAer v).alertArmed = s.alertArmed ∧ (s.withAer
    v).warnArmed = s.warnArmed ∧ (s.withAer v).persist = s.persist ∧ (s.withAer v).nvm = s.nvm ∧ (s.withAer v).unit =
    s.unit ∧ (s.withAer v).lc = s.lc ∧ (s.withAer v).eraseDue = s.eraseDue ∧ (s.withAer v).slotTried = s.slotTried ∧
    (s.withAer v).booted = s.booted ∧ (s.withAer v).bodyHash = s.bodyHash ∧ (s.withAer v).hkOff = s.hkOff ∧ (s.withAer
    v).hkLen = s.hkLen ∧ (s.withAer v).hkEntry = s.hkEntry ∧ (s.withAer v).sync = s.sync ∧ (s.withAer v).acts = s.acts
    ∧ (s.withAer v).dies = s.dies ∧ (s.withAer v).chans = s.chans ∧ (s.withAer v).rings = s.rings ∧ (s.withAer
    v).logBuf = s.logBuf ∧ (s.withAer v).logTime = s.logTime ∧ (s.withAer v).rq = s.rq ∧ (s.withAer v).tdcs = s.tdcs ∧
    (s.withAer v).units = s.units ∧ (s.withAer v).trigs = s.trigs ∧ (s.withAer v).streams = s.streams ∧ (s.withAer
    v).cal = s.cal ∧ (s.withAer v).ports = s.ports ∧ (s.withAer v).whistles = s.whistles ∧ (s.withAer v).shows =
    s.shows ∧ (s.withAer v).devs = s.devs ∧ (s.withAer v).queues = s.queues ∧ (s.withAer v).eccTime = s.eccTime ∧
    (s.withAer v).jtag = s.jtag ∧ (s.withAer v).trims = s.trims ∧ (s.withAer v).patrol = s.patrol ∧ (s.withAer v).ep =
    s.ep ∧ (s.withAer v).blanks = s.blanks ∧ (s.withAer v).reply = s.reply ∧ (s.withAer v).freeCtr = s.freeCtr := by
  repeat' constructor

@[simp] theorem State.withEp_ep (s : State) (v : Option (Nat × Nat)) : (s.withEp v).ep = v := rfl

theorem State.withEp_others (s : State) (v : Option (Nat × Nat)) : (s.withEp v).pending = s.pending ∧ (s.withEp
    v).pins = s.pins ∧ (s.withEp v).mode = s.mode ∧ (s.withEp v).shed = s.shed ∧ (s.withEp v).otp = s.otp ∧ (s.withEp
    v).regs = s.regs ∧ (s.withEp v).time = s.time ∧ (s.withEp v).slew = s.slew ∧ (s.withEp v).epoch = s.epoch ∧
    (s.withEp v).counting = s.counting ∧ (s.withEp v).latches = s.latches ∧ (s.withEp v).evtSeq = s.evtSeq ∧ (s.withEp
    v).evtIrq = s.evtIrq ∧ (s.withEp v).evtDefer = s.evtDefer ∧ (s.withEp v).msix = s.msix ∧ (s.withEp v).d3hot =
    s.d3hot ∧ (s.withEp v).dram = s.dram ∧ (s.withEp v).banks = s.banks ∧ (s.withEp v).pool = s.pool ∧ (s.withEp
    v).mailbox = s.mailbox ∧ (s.withEp v).flash = s.flash ∧ (s.withEp v).hostMem = s.hostMem ∧ (s.withEp v).torn =
    s.torn ∧ (s.withEp v).sensors = s.sensors ∧ (s.withEp v).alertArmed = s.alertArmed ∧ (s.withEp v).warnArmed =
    s.warnArmed ∧ (s.withEp v).persist = s.persist ∧ (s.withEp v).nvm = s.nvm ∧ (s.withEp v).unit = s.unit ∧ (s.withEp
    v).lc = s.lc ∧ (s.withEp v).eraseDue = s.eraseDue ∧ (s.withEp v).slotTried = s.slotTried ∧ (s.withEp v).booted =
    s.booted ∧ (s.withEp v).bodyHash = s.bodyHash ∧ (s.withEp v).hkOff = s.hkOff ∧ (s.withEp v).hkLen = s.hkLen ∧
    (s.withEp v).hkEntry = s.hkEntry ∧ (s.withEp v).sync = s.sync ∧ (s.withEp v).acts = s.acts ∧ (s.withEp v).dies =
    s.dies ∧ (s.withEp v).chans = s.chans ∧ (s.withEp v).rings = s.rings ∧ (s.withEp v).logBuf = s.logBuf ∧ (s.withEp
    v).logTime = s.logTime ∧ (s.withEp v).rq = s.rq ∧ (s.withEp v).tdcs = s.tdcs ∧ (s.withEp v).units = s.units ∧
    (s.withEp v).trigs = s.trigs ∧ (s.withEp v).streams = s.streams ∧ (s.withEp v).cal = s.cal ∧ (s.withEp v).ports =
    s.ports ∧ (s.withEp v).whistles = s.whistles ∧ (s.withEp v).shows = s.shows ∧ (s.withEp v).devs = s.devs ∧
    (s.withEp v).queues = s.queues ∧ (s.withEp v).eccTime = s.eccTime ∧ (s.withEp v).jtag = s.jtag ∧ (s.withEp
    v).trims = s.trims ∧ (s.withEp v).patrol = s.patrol ∧ (s.withEp v).aer = s.aer ∧ (s.withEp v).blanks = s.blanks ∧
    (s.withEp v).reply = s.reply ∧ (s.withEp v).freeCtr = s.freeCtr := by
  repeat' constructor

@[simp] theorem State.withBlanks_blanks (s : State) (v : Tab Nat) : (s.withBlanks v).blanks = v := rfl

theorem State.withBlanks_others (s : State) (v : Tab Nat) : (s.withBlanks v).pending = s.pending ∧ (s.withBlanks
    v).pins = s.pins ∧ (s.withBlanks v).mode = s.mode ∧ (s.withBlanks v).shed = s.shed ∧ (s.withBlanks v).otp = s.otp
    ∧ (s.withBlanks v).regs = s.regs ∧ (s.withBlanks v).time = s.time ∧ (s.withBlanks v).slew = s.slew ∧ (s.withBlanks
    v).epoch = s.epoch ∧ (s.withBlanks v).counting = s.counting ∧ (s.withBlanks v).latches = s.latches ∧ (s.withBlanks
    v).evtSeq = s.evtSeq ∧ (s.withBlanks v).evtIrq = s.evtIrq ∧ (s.withBlanks v).evtDefer = s.evtDefer ∧ (s.withBlanks
    v).msix = s.msix ∧ (s.withBlanks v).d3hot = s.d3hot ∧ (s.withBlanks v).dram = s.dram ∧ (s.withBlanks v).banks =
    s.banks ∧ (s.withBlanks v).pool = s.pool ∧ (s.withBlanks v).mailbox = s.mailbox ∧ (s.withBlanks v).flash = s.flash
    ∧ (s.withBlanks v).hostMem = s.hostMem ∧ (s.withBlanks v).torn = s.torn ∧ (s.withBlanks v).sensors = s.sensors ∧
    (s.withBlanks v).alertArmed = s.alertArmed ∧ (s.withBlanks v).warnArmed = s.warnArmed ∧ (s.withBlanks v).persist =
    s.persist ∧ (s.withBlanks v).nvm = s.nvm ∧ (s.withBlanks v).unit = s.unit ∧ (s.withBlanks v).lc = s.lc ∧
    (s.withBlanks v).eraseDue = s.eraseDue ∧ (s.withBlanks v).slotTried = s.slotTried ∧ (s.withBlanks v).booted =
    s.booted ∧ (s.withBlanks v).bodyHash = s.bodyHash ∧ (s.withBlanks v).hkOff = s.hkOff ∧ (s.withBlanks v).hkLen =
    s.hkLen ∧ (s.withBlanks v).hkEntry = s.hkEntry ∧ (s.withBlanks v).sync = s.sync ∧ (s.withBlanks v).acts = s.acts ∧
    (s.withBlanks v).dies = s.dies ∧ (s.withBlanks v).chans = s.chans ∧ (s.withBlanks v).rings = s.rings ∧
    (s.withBlanks v).logBuf = s.logBuf ∧ (s.withBlanks v).logTime = s.logTime ∧ (s.withBlanks v).rq = s.rq ∧
    (s.withBlanks v).tdcs = s.tdcs ∧ (s.withBlanks v).units = s.units ∧ (s.withBlanks v).trigs = s.trigs ∧
    (s.withBlanks v).streams = s.streams ∧ (s.withBlanks v).cal = s.cal ∧ (s.withBlanks v).ports = s.ports ∧
    (s.withBlanks v).whistles = s.whistles ∧ (s.withBlanks v).shows = s.shows ∧ (s.withBlanks v).devs = s.devs ∧
    (s.withBlanks v).queues = s.queues ∧ (s.withBlanks v).eccTime = s.eccTime ∧ (s.withBlanks v).jtag = s.jtag ∧
    (s.withBlanks v).trims = s.trims ∧ (s.withBlanks v).patrol = s.patrol ∧ (s.withBlanks v).aer = s.aer ∧
    (s.withBlanks v).ep = s.ep ∧ (s.withBlanks v).reply = s.reply ∧ (s.withBlanks v).freeCtr = s.freeCtr := by
  repeat' constructor

@[simp] theorem State.withReply_reply (s : State) (v : Option Reply) : (s.withReply v).reply = v := rfl

theorem State.withReply_others (s : State) (v : Option Reply) : (s.withReply v).pending = s.pending ∧ (s.withReply
    v).pins = s.pins ∧ (s.withReply v).mode = s.mode ∧ (s.withReply v).shed = s.shed ∧ (s.withReply v).otp = s.otp ∧
    (s.withReply v).regs = s.regs ∧ (s.withReply v).time = s.time ∧ (s.withReply v).slew = s.slew ∧ (s.withReply
    v).epoch = s.epoch ∧ (s.withReply v).counting = s.counting ∧ (s.withReply v).latches = s.latches ∧ (s.withReply
    v).evtSeq = s.evtSeq ∧ (s.withReply v).evtIrq = s.evtIrq ∧ (s.withReply v).evtDefer = s.evtDefer ∧ (s.withReply
    v).msix = s.msix ∧ (s.withReply v).d3hot = s.d3hot ∧ (s.withReply v).dram = s.dram ∧ (s.withReply v).banks =
    s.banks ∧ (s.withReply v).pool = s.pool ∧ (s.withReply v).mailbox = s.mailbox ∧ (s.withReply v).flash = s.flash ∧
    (s.withReply v).hostMem = s.hostMem ∧ (s.withReply v).torn = s.torn ∧ (s.withReply v).sensors = s.sensors ∧
    (s.withReply v).alertArmed = s.alertArmed ∧ (s.withReply v).warnArmed = s.warnArmed ∧ (s.withReply v).persist =
    s.persist ∧ (s.withReply v).nvm = s.nvm ∧ (s.withReply v).unit = s.unit ∧ (s.withReply v).lc = s.lc ∧ (s.withReply
    v).eraseDue = s.eraseDue ∧ (s.withReply v).slotTried = s.slotTried ∧ (s.withReply v).booted = s.booted ∧
    (s.withReply v).bodyHash = s.bodyHash ∧ (s.withReply v).hkOff = s.hkOff ∧ (s.withReply v).hkLen = s.hkLen ∧
    (s.withReply v).hkEntry = s.hkEntry ∧ (s.withReply v).sync = s.sync ∧ (s.withReply v).acts = s.acts ∧ (s.withReply
    v).dies = s.dies ∧ (s.withReply v).chans = s.chans ∧ (s.withReply v).rings = s.rings ∧ (s.withReply v).logBuf =
    s.logBuf ∧ (s.withReply v).logTime = s.logTime ∧ (s.withReply v).rq = s.rq ∧ (s.withReply v).tdcs = s.tdcs ∧
    (s.withReply v).units = s.units ∧ (s.withReply v).trigs = s.trigs ∧ (s.withReply v).streams = s.streams ∧
    (s.withReply v).cal = s.cal ∧ (s.withReply v).ports = s.ports ∧ (s.withReply v).whistles = s.whistles ∧
    (s.withReply v).shows = s.shows ∧ (s.withReply v).devs = s.devs ∧ (s.withReply v).queues = s.queues ∧ (s.withReply
    v).eccTime = s.eccTime ∧ (s.withReply v).jtag = s.jtag ∧ (s.withReply v).trims = s.trims ∧ (s.withReply v).patrol
    = s.patrol ∧ (s.withReply v).aer = s.aer ∧ (s.withReply v).ep = s.ep ∧ (s.withReply v).blanks = s.blanks ∧
    (s.withReply v).freeCtr = s.freeCtr := by
  repeat' constructor

@[simp] theorem State.withFreeCtr_freeCtr (s : State) (v : Nat) : (s.withFreeCtr v).freeCtr = v := rfl

theorem State.withFreeCtr_others (s : State) (v : Nat) : (s.withFreeCtr v).pending = s.pending ∧ (s.withFreeCtr
    v).pins = s.pins ∧ (s.withFreeCtr v).mode = s.mode ∧ (s.withFreeCtr v).shed = s.shed ∧ (s.withFreeCtr v).otp =
    s.otp ∧ (s.withFreeCtr v).regs = s.regs ∧ (s.withFreeCtr v).time = s.time ∧ (s.withFreeCtr v).slew = s.slew ∧
    (s.withFreeCtr v).epoch = s.epoch ∧ (s.withFreeCtr v).counting = s.counting ∧ (s.withFreeCtr v).latches =
    s.latches ∧ (s.withFreeCtr v).evtSeq = s.evtSeq ∧ (s.withFreeCtr v).evtIrq = s.evtIrq ∧ (s.withFreeCtr v).evtDefer
    = s.evtDefer ∧ (s.withFreeCtr v).msix = s.msix ∧ (s.withFreeCtr v).d3hot = s.d3hot ∧ (s.withFreeCtr v).dram =
    s.dram ∧ (s.withFreeCtr v).banks = s.banks ∧ (s.withFreeCtr v).pool = s.pool ∧ (s.withFreeCtr v).mailbox =
    s.mailbox ∧ (s.withFreeCtr v).flash = s.flash ∧ (s.withFreeCtr v).hostMem = s.hostMem ∧ (s.withFreeCtr v).torn =
    s.torn ∧ (s.withFreeCtr v).sensors = s.sensors ∧ (s.withFreeCtr v).alertArmed = s.alertArmed ∧ (s.withFreeCtr
    v).warnArmed = s.warnArmed ∧ (s.withFreeCtr v).persist = s.persist ∧ (s.withFreeCtr v).nvm = s.nvm ∧
    (s.withFreeCtr v).unit = s.unit ∧ (s.withFreeCtr v).lc = s.lc ∧ (s.withFreeCtr v).eraseDue = s.eraseDue ∧
    (s.withFreeCtr v).slotTried = s.slotTried ∧ (s.withFreeCtr v).booted = s.booted ∧ (s.withFreeCtr v).bodyHash =
    s.bodyHash ∧ (s.withFreeCtr v).hkOff = s.hkOff ∧ (s.withFreeCtr v).hkLen = s.hkLen ∧ (s.withFreeCtr v).hkEntry =
    s.hkEntry ∧ (s.withFreeCtr v).sync = s.sync ∧ (s.withFreeCtr v).acts = s.acts ∧ (s.withFreeCtr v).dies = s.dies ∧
    (s.withFreeCtr v).chans = s.chans ∧ (s.withFreeCtr v).rings = s.rings ∧ (s.withFreeCtr v).logBuf = s.logBuf ∧
    (s.withFreeCtr v).logTime = s.logTime ∧ (s.withFreeCtr v).rq = s.rq ∧ (s.withFreeCtr v).tdcs = s.tdcs ∧
    (s.withFreeCtr v).units = s.units ∧ (s.withFreeCtr v).trigs = s.trigs ∧ (s.withFreeCtr v).streams = s.streams ∧
    (s.withFreeCtr v).cal = s.cal ∧ (s.withFreeCtr v).ports = s.ports ∧ (s.withFreeCtr v).whistles = s.whistles ∧
    (s.withFreeCtr v).shows = s.shows ∧ (s.withFreeCtr v).devs = s.devs ∧ (s.withFreeCtr v).queues = s.queues ∧
    (s.withFreeCtr v).eccTime = s.eccTime ∧ (s.withFreeCtr v).jtag = s.jtag ∧ (s.withFreeCtr v).trims = s.trims ∧
    (s.withFreeCtr v).patrol = s.patrol ∧ (s.withFreeCtr v).aer = s.aer ∧ (s.withFreeCtr v).ep = s.ep ∧ (s.withFreeCtr
    v).blanks = s.blanks ∧ (s.withFreeCtr v).reply = s.reply := by
  repeat' constructor

@[simp] theorem State.setAct_others (s : State) (n : Nat) (x : ActSt) : (s.setAct n x).pending = s.pending ∧ (s.setAct
    n x).pins = s.pins ∧ (s.setAct n x).mode = s.mode ∧ (s.setAct n x).shed = s.shed ∧ (s.setAct n x).otp = s.otp ∧
    (s.setAct n x).regs = s.regs ∧ (s.setAct n x).time = s.time ∧ (s.setAct n x).slew = s.slew ∧ (s.setAct n x).epoch
    = s.epoch ∧ (s.setAct n x).counting = s.counting ∧ (s.setAct n x).latches = s.latches ∧ (s.setAct n x).evtSeq =
    s.evtSeq ∧ (s.setAct n x).evtIrq = s.evtIrq ∧ (s.setAct n x).evtDefer = s.evtDefer ∧ (s.setAct n x).msix = s.msix
    ∧ (s.setAct n x).d3hot = s.d3hot ∧ (s.setAct n x).dram = s.dram ∧ (s.setAct n x).banks = s.banks ∧ (s.setAct n
    x).pool = s.pool ∧ (s.setAct n x).mailbox = s.mailbox ∧ (s.setAct n x).flash = s.flash ∧ (s.setAct n x).hostMem =
    s.hostMem ∧ (s.setAct n x).torn = s.torn ∧ (s.setAct n x).sensors = s.sensors ∧ (s.setAct n x).alertArmed =
    s.alertArmed ∧ (s.setAct n x).warnArmed = s.warnArmed ∧ (s.setAct n x).persist = s.persist ∧ (s.setAct n x).nvm =
    s.nvm ∧ (s.setAct n x).unit = s.unit ∧ (s.setAct n x).lc = s.lc ∧ (s.setAct n x).eraseDue = s.eraseDue ∧ (s.setAct
    n x).slotTried = s.slotTried ∧ (s.setAct n x).booted = s.booted ∧ (s.setAct n x).bodyHash = s.bodyHash ∧ (s.setAct
    n x).hkOff = s.hkOff ∧ (s.setAct n x).hkLen = s.hkLen ∧ (s.setAct n x).hkEntry = s.hkEntry ∧ (s.setAct n x).sync =
    s.sync ∧ (s.setAct n x).dies = s.dies ∧ (s.setAct n x).chans = s.chans ∧ (s.setAct n x).rings = s.rings ∧
    (s.setAct n x).logBuf = s.logBuf ∧ (s.setAct n x).logTime = s.logTime ∧ (s.setAct n x).rq = s.rq ∧ (s.setAct n
    x).tdcs = s.tdcs ∧ (s.setAct n x).units = s.units ∧ (s.setAct n x).trigs = s.trigs ∧ (s.setAct n x).streams =
    s.streams ∧ (s.setAct n x).cal = s.cal ∧ (s.setAct n x).ports = s.ports ∧ (s.setAct n x).whistles = s.whistles ∧
    (s.setAct n x).shows = s.shows ∧ (s.setAct n x).devs = s.devs ∧ (s.setAct n x).queues = s.queues ∧ (s.setAct n
    x).eccTime = s.eccTime ∧ (s.setAct n x).jtag = s.jtag ∧ (s.setAct n x).trims = s.trims ∧ (s.setAct n x).patrol =
    s.patrol ∧ (s.setAct n x).aer = s.aer ∧ (s.setAct n x).ep = s.ep ∧ (s.setAct n x).blanks = s.blanks ∧ (s.setAct n
    x).reply = s.reply ∧ (s.setAct n x).freeCtr = s.freeCtr := by
  repeat' constructor

@[simp] theorem State.setDie_others (s : State) (n : Nat) (x : DieSt) : (s.setDie n x).pending = s.pending ∧ (s.setDie
    n x).pins = s.pins ∧ (s.setDie n x).mode = s.mode ∧ (s.setDie n x).shed = s.shed ∧ (s.setDie n x).otp = s.otp ∧
    (s.setDie n x).regs = s.regs ∧ (s.setDie n x).time = s.time ∧ (s.setDie n x).slew = s.slew ∧ (s.setDie n x).epoch
    = s.epoch ∧ (s.setDie n x).counting = s.counting ∧ (s.setDie n x).latches = s.latches ∧ (s.setDie n x).evtSeq =
    s.evtSeq ∧ (s.setDie n x).evtIrq = s.evtIrq ∧ (s.setDie n x).evtDefer = s.evtDefer ∧ (s.setDie n x).msix = s.msix
    ∧ (s.setDie n x).d3hot = s.d3hot ∧ (s.setDie n x).dram = s.dram ∧ (s.setDie n x).banks = s.banks ∧ (s.setDie n
    x).pool = s.pool ∧ (s.setDie n x).mailbox = s.mailbox ∧ (s.setDie n x).flash = s.flash ∧ (s.setDie n x).hostMem =
    s.hostMem ∧ (s.setDie n x).torn = s.torn ∧ (s.setDie n x).sensors = s.sensors ∧ (s.setDie n x).alertArmed =
    s.alertArmed ∧ (s.setDie n x).warnArmed = s.warnArmed ∧ (s.setDie n x).persist = s.persist ∧ (s.setDie n x).nvm =
    s.nvm ∧ (s.setDie n x).unit = s.unit ∧ (s.setDie n x).lc = s.lc ∧ (s.setDie n x).eraseDue = s.eraseDue ∧ (s.setDie
    n x).slotTried = s.slotTried ∧ (s.setDie n x).booted = s.booted ∧ (s.setDie n x).bodyHash = s.bodyHash ∧ (s.setDie
    n x).hkOff = s.hkOff ∧ (s.setDie n x).hkLen = s.hkLen ∧ (s.setDie n x).hkEntry = s.hkEntry ∧ (s.setDie n x).sync =
    s.sync ∧ (s.setDie n x).acts = s.acts ∧ (s.setDie n x).chans = s.chans ∧ (s.setDie n x).rings = s.rings ∧
    (s.setDie n x).logBuf = s.logBuf ∧ (s.setDie n x).logTime = s.logTime ∧ (s.setDie n x).rq = s.rq ∧ (s.setDie n
    x).tdcs = s.tdcs ∧ (s.setDie n x).units = s.units ∧ (s.setDie n x).trigs = s.trigs ∧ (s.setDie n x).streams =
    s.streams ∧ (s.setDie n x).cal = s.cal ∧ (s.setDie n x).ports = s.ports ∧ (s.setDie n x).whistles = s.whistles ∧
    (s.setDie n x).shows = s.shows ∧ (s.setDie n x).devs = s.devs ∧ (s.setDie n x).queues = s.queues ∧ (s.setDie n
    x).eccTime = s.eccTime ∧ (s.setDie n x).jtag = s.jtag ∧ (s.setDie n x).trims = s.trims ∧ (s.setDie n x).patrol =
    s.patrol ∧ (s.setDie n x).aer = s.aer ∧ (s.setDie n x).ep = s.ep ∧ (s.setDie n x).blanks = s.blanks ∧ (s.setDie n
    x).reply = s.reply ∧ (s.setDie n x).freeCtr = s.freeCtr := by
  repeat' constructor

@[simp] theorem State.setChan_others (s : State) (n : Nat) (x : ChanSt) : (s.setChan n x).pending = s.pending ∧
    (s.setChan n x).pins = s.pins ∧ (s.setChan n x).mode = s.mode ∧ (s.setChan n x).shed = s.shed ∧ (s.setChan n
    x).otp = s.otp ∧ (s.setChan n x).regs = s.regs ∧ (s.setChan n x).time = s.time ∧ (s.setChan n x).slew = s.slew ∧
    (s.setChan n x).epoch = s.epoch ∧ (s.setChan n x).counting = s.counting ∧ (s.setChan n x).latches = s.latches ∧
    (s.setChan n x).evtSeq = s.evtSeq ∧ (s.setChan n x).evtIrq = s.evtIrq ∧ (s.setChan n x).evtDefer = s.evtDefer ∧
    (s.setChan n x).msix = s.msix ∧ (s.setChan n x).d3hot = s.d3hot ∧ (s.setChan n x).dram = s.dram ∧ (s.setChan n
    x).banks = s.banks ∧ (s.setChan n x).pool = s.pool ∧ (s.setChan n x).mailbox = s.mailbox ∧ (s.setChan n x).flash =
    s.flash ∧ (s.setChan n x).hostMem = s.hostMem ∧ (s.setChan n x).torn = s.torn ∧ (s.setChan n x).sensors =
    s.sensors ∧ (s.setChan n x).alertArmed = s.alertArmed ∧ (s.setChan n x).warnArmed = s.warnArmed ∧ (s.setChan n
    x).persist = s.persist ∧ (s.setChan n x).nvm = s.nvm ∧ (s.setChan n x).unit = s.unit ∧ (s.setChan n x).lc = s.lc ∧
    (s.setChan n x).eraseDue = s.eraseDue ∧ (s.setChan n x).slotTried = s.slotTried ∧ (s.setChan n x).booted =
    s.booted ∧ (s.setChan n x).bodyHash = s.bodyHash ∧ (s.setChan n x).hkOff = s.hkOff ∧ (s.setChan n x).hkLen =
    s.hkLen ∧ (s.setChan n x).hkEntry = s.hkEntry ∧ (s.setChan n x).sync = s.sync ∧ (s.setChan n x).acts = s.acts ∧
    (s.setChan n x).dies = s.dies ∧ (s.setChan n x).rings = s.rings ∧ (s.setChan n x).logBuf = s.logBuf ∧ (s.setChan n
    x).logTime = s.logTime ∧ (s.setChan n x).rq = s.rq ∧ (s.setChan n x).tdcs = s.tdcs ∧ (s.setChan n x).units =
    s.units ∧ (s.setChan n x).trigs = s.trigs ∧ (s.setChan n x).streams = s.streams ∧ (s.setChan n x).cal = s.cal ∧
    (s.setChan n x).ports = s.ports ∧ (s.setChan n x).whistles = s.whistles ∧ (s.setChan n x).shows = s.shows ∧
    (s.setChan n x).devs = s.devs ∧ (s.setChan n x).queues = s.queues ∧ (s.setChan n x).eccTime = s.eccTime ∧
    (s.setChan n x).jtag = s.jtag ∧ (s.setChan n x).trims = s.trims ∧ (s.setChan n x).patrol = s.patrol ∧ (s.setChan n
    x).aer = s.aer ∧ (s.setChan n x).ep = s.ep ∧ (s.setChan n x).blanks = s.blanks ∧ (s.setChan n x).reply = s.reply ∧
    (s.setChan n x).freeCtr = s.freeCtr := by
  repeat' constructor

@[simp] theorem State.setRing_others (s : State) (n : Nat) (x : RingSt) : (s.setRing n x).pending = s.pending ∧
    (s.setRing n x).pins = s.pins ∧ (s.setRing n x).mode = s.mode ∧ (s.setRing n x).shed = s.shed ∧ (s.setRing n
    x).otp = s.otp ∧ (s.setRing n x).regs = s.regs ∧ (s.setRing n x).time = s.time ∧ (s.setRing n x).slew = s.slew ∧
    (s.setRing n x).epoch = s.epoch ∧ (s.setRing n x).counting = s.counting ∧ (s.setRing n x).latches = s.latches ∧
    (s.setRing n x).evtSeq = s.evtSeq ∧ (s.setRing n x).evtIrq = s.evtIrq ∧ (s.setRing n x).evtDefer = s.evtDefer ∧
    (s.setRing n x).msix = s.msix ∧ (s.setRing n x).d3hot = s.d3hot ∧ (s.setRing n x).dram = s.dram ∧ (s.setRing n
    x).banks = s.banks ∧ (s.setRing n x).pool = s.pool ∧ (s.setRing n x).mailbox = s.mailbox ∧ (s.setRing n x).flash =
    s.flash ∧ (s.setRing n x).hostMem = s.hostMem ∧ (s.setRing n x).torn = s.torn ∧ (s.setRing n x).sensors =
    s.sensors ∧ (s.setRing n x).alertArmed = s.alertArmed ∧ (s.setRing n x).warnArmed = s.warnArmed ∧ (s.setRing n
    x).persist = s.persist ∧ (s.setRing n x).nvm = s.nvm ∧ (s.setRing n x).unit = s.unit ∧ (s.setRing n x).lc = s.lc ∧
    (s.setRing n x).eraseDue = s.eraseDue ∧ (s.setRing n x).slotTried = s.slotTried ∧ (s.setRing n x).booted =
    s.booted ∧ (s.setRing n x).bodyHash = s.bodyHash ∧ (s.setRing n x).hkOff = s.hkOff ∧ (s.setRing n x).hkLen =
    s.hkLen ∧ (s.setRing n x).hkEntry = s.hkEntry ∧ (s.setRing n x).sync = s.sync ∧ (s.setRing n x).acts = s.acts ∧
    (s.setRing n x).dies = s.dies ∧ (s.setRing n x).chans = s.chans ∧ (s.setRing n x).logBuf = s.logBuf ∧ (s.setRing n
    x).logTime = s.logTime ∧ (s.setRing n x).rq = s.rq ∧ (s.setRing n x).tdcs = s.tdcs ∧ (s.setRing n x).units =
    s.units ∧ (s.setRing n x).trigs = s.trigs ∧ (s.setRing n x).streams = s.streams ∧ (s.setRing n x).cal = s.cal ∧
    (s.setRing n x).ports = s.ports ∧ (s.setRing n x).whistles = s.whistles ∧ (s.setRing n x).shows = s.shows ∧
    (s.setRing n x).devs = s.devs ∧ (s.setRing n x).queues = s.queues ∧ (s.setRing n x).eccTime = s.eccTime ∧
    (s.setRing n x).jtag = s.jtag ∧ (s.setRing n x).trims = s.trims ∧ (s.setRing n x).patrol = s.patrol ∧ (s.setRing n
    x).aer = s.aer ∧ (s.setRing n x).ep = s.ep ∧ (s.setRing n x).blanks = s.blanks ∧ (s.setRing n x).reply = s.reply ∧
    (s.setRing n x).freeCtr = s.freeCtr := by
  repeat' constructor

@[simp] theorem State.setPort_others (s : State) (n : Nat) (x : PortSt) : (s.setPort n x).pending = s.pending ∧
    (s.setPort n x).pins = s.pins ∧ (s.setPort n x).mode = s.mode ∧ (s.setPort n x).shed = s.shed ∧ (s.setPort n
    x).otp = s.otp ∧ (s.setPort n x).regs = s.regs ∧ (s.setPort n x).time = s.time ∧ (s.setPort n x).slew = s.slew ∧
    (s.setPort n x).epoch = s.epoch ∧ (s.setPort n x).counting = s.counting ∧ (s.setPort n x).latches = s.latches ∧
    (s.setPort n x).evtSeq = s.evtSeq ∧ (s.setPort n x).evtIrq = s.evtIrq ∧ (s.setPort n x).evtDefer = s.evtDefer ∧
    (s.setPort n x).msix = s.msix ∧ (s.setPort n x).d3hot = s.d3hot ∧ (s.setPort n x).dram = s.dram ∧ (s.setPort n
    x).banks = s.banks ∧ (s.setPort n x).pool = s.pool ∧ (s.setPort n x).mailbox = s.mailbox ∧ (s.setPort n x).flash =
    s.flash ∧ (s.setPort n x).hostMem = s.hostMem ∧ (s.setPort n x).torn = s.torn ∧ (s.setPort n x).sensors =
    s.sensors ∧ (s.setPort n x).alertArmed = s.alertArmed ∧ (s.setPort n x).warnArmed = s.warnArmed ∧ (s.setPort n
    x).persist = s.persist ∧ (s.setPort n x).nvm = s.nvm ∧ (s.setPort n x).unit = s.unit ∧ (s.setPort n x).lc = s.lc ∧
    (s.setPort n x).eraseDue = s.eraseDue ∧ (s.setPort n x).slotTried = s.slotTried ∧ (s.setPort n x).booted =
    s.booted ∧ (s.setPort n x).bodyHash = s.bodyHash ∧ (s.setPort n x).hkOff = s.hkOff ∧ (s.setPort n x).hkLen =
    s.hkLen ∧ (s.setPort n x).hkEntry = s.hkEntry ∧ (s.setPort n x).sync = s.sync ∧ (s.setPort n x).acts = s.acts ∧
    (s.setPort n x).dies = s.dies ∧ (s.setPort n x).chans = s.chans ∧ (s.setPort n x).rings = s.rings ∧ (s.setPort n
    x).logBuf = s.logBuf ∧ (s.setPort n x).logTime = s.logTime ∧ (s.setPort n x).rq = s.rq ∧ (s.setPort n x).tdcs =
    s.tdcs ∧ (s.setPort n x).units = s.units ∧ (s.setPort n x).trigs = s.trigs ∧ (s.setPort n x).streams = s.streams ∧
    (s.setPort n x).cal = s.cal ∧ (s.setPort n x).whistles = s.whistles ∧ (s.setPort n x).shows = s.shows ∧ (s.setPort
    n x).devs = s.devs ∧ (s.setPort n x).queues = s.queues ∧ (s.setPort n x).eccTime = s.eccTime ∧ (s.setPort n
    x).jtag = s.jtag ∧ (s.setPort n x).trims = s.trims ∧ (s.setPort n x).patrol = s.patrol ∧ (s.setPort n x).aer =
    s.aer ∧ (s.setPort n x).ep = s.ep ∧ (s.setPort n x).blanks = s.blanks ∧ (s.setPort n x).reply = s.reply ∧
    (s.setPort n x).freeCtr = s.freeCtr := by
  repeat' constructor

@[simp] theorem State.setShow_others (s : State) (n : Nat) (x : ShowSt) : (s.setShow n x).pending = s.pending ∧
    (s.setShow n x).pins = s.pins ∧ (s.setShow n x).mode = s.mode ∧ (s.setShow n x).shed = s.shed ∧ (s.setShow n
    x).otp = s.otp ∧ (s.setShow n x).regs = s.regs ∧ (s.setShow n x).time = s.time ∧ (s.setShow n x).slew = s.slew ∧
    (s.setShow n x).epoch = s.epoch ∧ (s.setShow n x).counting = s.counting ∧ (s.setShow n x).latches = s.latches ∧
    (s.setShow n x).evtSeq = s.evtSeq ∧ (s.setShow n x).evtIrq = s.evtIrq ∧ (s.setShow n x).evtDefer = s.evtDefer ∧
    (s.setShow n x).msix = s.msix ∧ (s.setShow n x).d3hot = s.d3hot ∧ (s.setShow n x).dram = s.dram ∧ (s.setShow n
    x).banks = s.banks ∧ (s.setShow n x).pool = s.pool ∧ (s.setShow n x).mailbox = s.mailbox ∧ (s.setShow n x).flash =
    s.flash ∧ (s.setShow n x).hostMem = s.hostMem ∧ (s.setShow n x).torn = s.torn ∧ (s.setShow n x).sensors =
    s.sensors ∧ (s.setShow n x).alertArmed = s.alertArmed ∧ (s.setShow n x).warnArmed = s.warnArmed ∧ (s.setShow n
    x).persist = s.persist ∧ (s.setShow n x).nvm = s.nvm ∧ (s.setShow n x).unit = s.unit ∧ (s.setShow n x).lc = s.lc ∧
    (s.setShow n x).eraseDue = s.eraseDue ∧ (s.setShow n x).slotTried = s.slotTried ∧ (s.setShow n x).booted =
    s.booted ∧ (s.setShow n x).bodyHash = s.bodyHash ∧ (s.setShow n x).hkOff = s.hkOff ∧ (s.setShow n x).hkLen =
    s.hkLen ∧ (s.setShow n x).hkEntry = s.hkEntry ∧ (s.setShow n x).sync = s.sync ∧ (s.setShow n x).acts = s.acts ∧
    (s.setShow n x).dies = s.dies ∧ (s.setShow n x).chans = s.chans ∧ (s.setShow n x).rings = s.rings ∧ (s.setShow n
    x).logBuf = s.logBuf ∧ (s.setShow n x).logTime = s.logTime ∧ (s.setShow n x).rq = s.rq ∧ (s.setShow n x).tdcs =
    s.tdcs ∧ (s.setShow n x).units = s.units ∧ (s.setShow n x).trigs = s.trigs ∧ (s.setShow n x).streams = s.streams ∧
    (s.setShow n x).cal = s.cal ∧ (s.setShow n x).ports = s.ports ∧ (s.setShow n x).whistles = s.whistles ∧ (s.setShow
    n x).devs = s.devs ∧ (s.setShow n x).queues = s.queues ∧ (s.setShow n x).eccTime = s.eccTime ∧ (s.setShow n
    x).jtag = s.jtag ∧ (s.setShow n x).trims = s.trims ∧ (s.setShow n x).patrol = s.patrol ∧ (s.setShow n x).aer =
    s.aer ∧ (s.setShow n x).ep = s.ep ∧ (s.setShow n x).blanks = s.blanks ∧ (s.setShow n x).reply = s.reply ∧
    (s.setShow n x).freeCtr = s.freeCtr := by
  repeat' constructor

@[simp] theorem State.setDev_others (s : State) (n : Nat) (x : DevSt) : (s.setDev n x).pending = s.pending ∧ (s.setDev
    n x).pins = s.pins ∧ (s.setDev n x).mode = s.mode ∧ (s.setDev n x).shed = s.shed ∧ (s.setDev n x).otp = s.otp ∧
    (s.setDev n x).regs = s.regs ∧ (s.setDev n x).time = s.time ∧ (s.setDev n x).slew = s.slew ∧ (s.setDev n x).epoch
    = s.epoch ∧ (s.setDev n x).counting = s.counting ∧ (s.setDev n x).latches = s.latches ∧ (s.setDev n x).evtSeq =
    s.evtSeq ∧ (s.setDev n x).evtIrq = s.evtIrq ∧ (s.setDev n x).evtDefer = s.evtDefer ∧ (s.setDev n x).msix = s.msix
    ∧ (s.setDev n x).d3hot = s.d3hot ∧ (s.setDev n x).dram = s.dram ∧ (s.setDev n x).banks = s.banks ∧ (s.setDev n
    x).pool = s.pool ∧ (s.setDev n x).mailbox = s.mailbox ∧ (s.setDev n x).flash = s.flash ∧ (s.setDev n x).hostMem =
    s.hostMem ∧ (s.setDev n x).torn = s.torn ∧ (s.setDev n x).sensors = s.sensors ∧ (s.setDev n x).alertArmed =
    s.alertArmed ∧ (s.setDev n x).warnArmed = s.warnArmed ∧ (s.setDev n x).persist = s.persist ∧ (s.setDev n x).nvm =
    s.nvm ∧ (s.setDev n x).unit = s.unit ∧ (s.setDev n x).lc = s.lc ∧ (s.setDev n x).eraseDue = s.eraseDue ∧ (s.setDev
    n x).slotTried = s.slotTried ∧ (s.setDev n x).booted = s.booted ∧ (s.setDev n x).bodyHash = s.bodyHash ∧ (s.setDev
    n x).hkOff = s.hkOff ∧ (s.setDev n x).hkLen = s.hkLen ∧ (s.setDev n x).hkEntry = s.hkEntry ∧ (s.setDev n x).sync =
    s.sync ∧ (s.setDev n x).acts = s.acts ∧ (s.setDev n x).dies = s.dies ∧ (s.setDev n x).chans = s.chans ∧ (s.setDev
    n x).rings = s.rings ∧ (s.setDev n x).logBuf = s.logBuf ∧ (s.setDev n x).logTime = s.logTime ∧ (s.setDev n x).rq =
    s.rq ∧ (s.setDev n x).tdcs = s.tdcs ∧ (s.setDev n x).units = s.units ∧ (s.setDev n x).trigs = s.trigs ∧ (s.setDev
    n x).streams = s.streams ∧ (s.setDev n x).cal = s.cal ∧ (s.setDev n x).ports = s.ports ∧ (s.setDev n x).whistles =
    s.whistles ∧ (s.setDev n x).shows = s.shows ∧ (s.setDev n x).queues = s.queues ∧ (s.setDev n x).eccTime =
    s.eccTime ∧ (s.setDev n x).jtag = s.jtag ∧ (s.setDev n x).trims = s.trims ∧ (s.setDev n x).patrol = s.patrol ∧
    (s.setDev n x).aer = s.aer ∧ (s.setDev n x).ep = s.ep ∧ (s.setDev n x).blanks = s.blanks ∧ (s.setDev n x).reply =
    s.reply ∧ (s.setDev n x).freeCtr = s.freeCtr := by
  repeat' constructor

@[simp] theorem State.setQueue_others (s : State) (n : Nat) (x : QueueSt) : (s.setQueue n x).pending = s.pending ∧
    (s.setQueue n x).pins = s.pins ∧ (s.setQueue n x).mode = s.mode ∧ (s.setQueue n x).shed = s.shed ∧ (s.setQueue n
    x).otp = s.otp ∧ (s.setQueue n x).regs = s.regs ∧ (s.setQueue n x).time = s.time ∧ (s.setQueue n x).slew = s.slew
    ∧ (s.setQueue n x).epoch = s.epoch ∧ (s.setQueue n x).counting = s.counting ∧ (s.setQueue n x).latches = s.latches
    ∧ (s.setQueue n x).evtSeq = s.evtSeq ∧ (s.setQueue n x).evtIrq = s.evtIrq ∧ (s.setQueue n x).evtDefer = s.evtDefer
    ∧ (s.setQueue n x).msix = s.msix ∧ (s.setQueue n x).d3hot = s.d3hot ∧ (s.setQueue n x).dram = s.dram ∧ (s.setQueue
    n x).banks = s.banks ∧ (s.setQueue n x).pool = s.pool ∧ (s.setQueue n x).mailbox = s.mailbox ∧ (s.setQueue n
    x).flash = s.flash ∧ (s.setQueue n x).hostMem = s.hostMem ∧ (s.setQueue n x).torn = s.torn ∧ (s.setQueue n
    x).sensors = s.sensors ∧ (s.setQueue n x).alertArmed = s.alertArmed ∧ (s.setQueue n x).warnArmed = s.warnArmed ∧
    (s.setQueue n x).persist = s.persist ∧ (s.setQueue n x).nvm = s.nvm ∧ (s.setQueue n x).unit = s.unit ∧ (s.setQueue
    n x).lc = s.lc ∧ (s.setQueue n x).eraseDue = s.eraseDue ∧ (s.setQueue n x).slotTried = s.slotTried ∧ (s.setQueue n
    x).booted = s.booted ∧ (s.setQueue n x).bodyHash = s.bodyHash ∧ (s.setQueue n x).hkOff = s.hkOff ∧ (s.setQueue n
    x).hkLen = s.hkLen ∧ (s.setQueue n x).hkEntry = s.hkEntry ∧ (s.setQueue n x).sync = s.sync ∧ (s.setQueue n x).acts
    = s.acts ∧ (s.setQueue n x).dies = s.dies ∧ (s.setQueue n x).chans = s.chans ∧ (s.setQueue n x).rings = s.rings ∧
    (s.setQueue n x).logBuf = s.logBuf ∧ (s.setQueue n x).logTime = s.logTime ∧ (s.setQueue n x).rq = s.rq ∧
    (s.setQueue n x).tdcs = s.tdcs ∧ (s.setQueue n x).units = s.units ∧ (s.setQueue n x).trigs = s.trigs ∧ (s.setQueue
    n x).streams = s.streams ∧ (s.setQueue n x).cal = s.cal ∧ (s.setQueue n x).ports = s.ports ∧ (s.setQueue n
    x).whistles = s.whistles ∧ (s.setQueue n x).shows = s.shows ∧ (s.setQueue n x).devs = s.devs ∧ (s.setQueue n
    x).eccTime = s.eccTime ∧ (s.setQueue n x).jtag = s.jtag ∧ (s.setQueue n x).trims = s.trims ∧ (s.setQueue n
    x).patrol = s.patrol ∧ (s.setQueue n x).aer = s.aer ∧ (s.setQueue n x).ep = s.ep ∧ (s.setQueue n x).blanks =
    s.blanks ∧ (s.setQueue n x).reply = s.reply ∧ (s.setQueue n x).freeCtr = s.freeCtr := by
  repeat' constructor

@[simp] theorem State.setSensor_others (s : State) (n : Nat) (x : Sensor) : (s.setSensor n x).pending = s.pending ∧
    (s.setSensor n x).pins = s.pins ∧ (s.setSensor n x).mode = s.mode ∧ (s.setSensor n x).shed = s.shed ∧ (s.setSensor
    n x).otp = s.otp ∧ (s.setSensor n x).regs = s.regs ∧ (s.setSensor n x).time = s.time ∧ (s.setSensor n x).slew =
    s.slew ∧ (s.setSensor n x).epoch = s.epoch ∧ (s.setSensor n x).counting = s.counting ∧ (s.setSensor n x).latches =
    s.latches ∧ (s.setSensor n x).evtSeq = s.evtSeq ∧ (s.setSensor n x).evtIrq = s.evtIrq ∧ (s.setSensor n x).evtDefer
    = s.evtDefer ∧ (s.setSensor n x).msix = s.msix ∧ (s.setSensor n x).d3hot = s.d3hot ∧ (s.setSensor n x).dram =
    s.dram ∧ (s.setSensor n x).banks = s.banks ∧ (s.setSensor n x).pool = s.pool ∧ (s.setSensor n x).mailbox =
    s.mailbox ∧ (s.setSensor n x).flash = s.flash ∧ (s.setSensor n x).hostMem = s.hostMem ∧ (s.setSensor n x).torn =
    s.torn ∧ (s.setSensor n x).alertArmed = s.alertArmed ∧ (s.setSensor n x).warnArmed = s.warnArmed ∧ (s.setSensor n
    x).persist = s.persist ∧ (s.setSensor n x).nvm = s.nvm ∧ (s.setSensor n x).unit = s.unit ∧ (s.setSensor n x).lc =
    s.lc ∧ (s.setSensor n x).eraseDue = s.eraseDue ∧ (s.setSensor n x).slotTried = s.slotTried ∧ (s.setSensor n
    x).booted = s.booted ∧ (s.setSensor n x).bodyHash = s.bodyHash ∧ (s.setSensor n x).hkOff = s.hkOff ∧ (s.setSensor
    n x).hkLen = s.hkLen ∧ (s.setSensor n x).hkEntry = s.hkEntry ∧ (s.setSensor n x).sync = s.sync ∧ (s.setSensor n
    x).acts = s.acts ∧ (s.setSensor n x).dies = s.dies ∧ (s.setSensor n x).chans = s.chans ∧ (s.setSensor n x).rings =
    s.rings ∧ (s.setSensor n x).logBuf = s.logBuf ∧ (s.setSensor n x).logTime = s.logTime ∧ (s.setSensor n x).rq =
    s.rq ∧ (s.setSensor n x).tdcs = s.tdcs ∧ (s.setSensor n x).units = s.units ∧ (s.setSensor n x).trigs = s.trigs ∧
    (s.setSensor n x).streams = s.streams ∧ (s.setSensor n x).cal = s.cal ∧ (s.setSensor n x).ports = s.ports ∧
    (s.setSensor n x).whistles = s.whistles ∧ (s.setSensor n x).shows = s.shows ∧ (s.setSensor n x).devs = s.devs ∧
    (s.setSensor n x).queues = s.queues ∧ (s.setSensor n x).eccTime = s.eccTime ∧ (s.setSensor n x).jtag = s.jtag ∧
    (s.setSensor n x).trims = s.trims ∧ (s.setSensor n x).patrol = s.patrol ∧ (s.setSensor n x).aer = s.aer ∧
    (s.setSensor n x).ep = s.ep ∧ (s.setSensor n x).blanks = s.blanks ∧ (s.setSensor n x).reply = s.reply ∧
    (s.setSensor n x).freeCtr = s.freeCtr := by
  repeat' constructor

@[simp] theorem State.setTdc_others (s : State) (n : Nat) (x : TdcSt) : (s.setTdc n x).pending = s.pending ∧ (s.setTdc
    n x).pins = s.pins ∧ (s.setTdc n x).mode = s.mode ∧ (s.setTdc n x).shed = s.shed ∧ (s.setTdc n x).otp = s.otp ∧
    (s.setTdc n x).regs = s.regs ∧ (s.setTdc n x).time = s.time ∧ (s.setTdc n x).slew = s.slew ∧ (s.setTdc n x).epoch
    = s.epoch ∧ (s.setTdc n x).counting = s.counting ∧ (s.setTdc n x).latches = s.latches ∧ (s.setTdc n x).evtSeq =
    s.evtSeq ∧ (s.setTdc n x).evtIrq = s.evtIrq ∧ (s.setTdc n x).evtDefer = s.evtDefer ∧ (s.setTdc n x).msix = s.msix
    ∧ (s.setTdc n x).d3hot = s.d3hot ∧ (s.setTdc n x).dram = s.dram ∧ (s.setTdc n x).banks = s.banks ∧ (s.setTdc n
    x).pool = s.pool ∧ (s.setTdc n x).mailbox = s.mailbox ∧ (s.setTdc n x).flash = s.flash ∧ (s.setTdc n x).hostMem =
    s.hostMem ∧ (s.setTdc n x).torn = s.torn ∧ (s.setTdc n x).sensors = s.sensors ∧ (s.setTdc n x).alertArmed =
    s.alertArmed ∧ (s.setTdc n x).warnArmed = s.warnArmed ∧ (s.setTdc n x).persist = s.persist ∧ (s.setTdc n x).nvm =
    s.nvm ∧ (s.setTdc n x).unit = s.unit ∧ (s.setTdc n x).lc = s.lc ∧ (s.setTdc n x).eraseDue = s.eraseDue ∧ (s.setTdc
    n x).slotTried = s.slotTried ∧ (s.setTdc n x).booted = s.booted ∧ (s.setTdc n x).bodyHash = s.bodyHash ∧ (s.setTdc
    n x).hkOff = s.hkOff ∧ (s.setTdc n x).hkLen = s.hkLen ∧ (s.setTdc n x).hkEntry = s.hkEntry ∧ (s.setTdc n x).sync =
    s.sync ∧ (s.setTdc n x).acts = s.acts ∧ (s.setTdc n x).dies = s.dies ∧ (s.setTdc n x).chans = s.chans ∧ (s.setTdc
    n x).rings = s.rings ∧ (s.setTdc n x).logBuf = s.logBuf ∧ (s.setTdc n x).logTime = s.logTime ∧ (s.setTdc n x).rq =
    s.rq ∧ (s.setTdc n x).units = s.units ∧ (s.setTdc n x).trigs = s.trigs ∧ (s.setTdc n x).streams = s.streams ∧
    (s.setTdc n x).cal = s.cal ∧ (s.setTdc n x).ports = s.ports ∧ (s.setTdc n x).whistles = s.whistles ∧ (s.setTdc n
    x).shows = s.shows ∧ (s.setTdc n x).devs = s.devs ∧ (s.setTdc n x).queues = s.queues ∧ (s.setTdc n x).eccTime =
    s.eccTime ∧ (s.setTdc n x).jtag = s.jtag ∧ (s.setTdc n x).trims = s.trims ∧ (s.setTdc n x).patrol = s.patrol ∧
    (s.setTdc n x).aer = s.aer ∧ (s.setTdc n x).ep = s.ep ∧ (s.setTdc n x).blanks = s.blanks ∧ (s.setTdc n x).reply =
    s.reply ∧ (s.setTdc n x).freeCtr = s.freeCtr := by
  repeat' constructor

@[simp] theorem State.setMu_others (s : State) (n : Nat) (x : TdcUnit) : (s.setMu n x).pending = s.pending ∧ (s.setMu
    n x).pins = s.pins ∧ (s.setMu n x).mode = s.mode ∧ (s.setMu n x).shed = s.shed ∧ (s.setMu n x).otp = s.otp ∧
    (s.setMu n x).regs = s.regs ∧ (s.setMu n x).time = s.time ∧ (s.setMu n x).slew = s.slew ∧ (s.setMu n x).epoch =
    s.epoch ∧ (s.setMu n x).counting = s.counting ∧ (s.setMu n x).latches = s.latches ∧ (s.setMu n x).evtSeq =
    s.evtSeq ∧ (s.setMu n x).evtIrq = s.evtIrq ∧ (s.setMu n x).evtDefer = s.evtDefer ∧ (s.setMu n x).msix = s.msix ∧
    (s.setMu n x).d3hot = s.d3hot ∧ (s.setMu n x).dram = s.dram ∧ (s.setMu n x).banks = s.banks ∧ (s.setMu n x).pool =
    s.pool ∧ (s.setMu n x).mailbox = s.mailbox ∧ (s.setMu n x).flash = s.flash ∧ (s.setMu n x).hostMem = s.hostMem ∧
    (s.setMu n x).torn = s.torn ∧ (s.setMu n x).sensors = s.sensors ∧ (s.setMu n x).alertArmed = s.alertArmed ∧
    (s.setMu n x).warnArmed = s.warnArmed ∧ (s.setMu n x).persist = s.persist ∧ (s.setMu n x).nvm = s.nvm ∧ (s.setMu n
    x).unit = s.unit ∧ (s.setMu n x).lc = s.lc ∧ (s.setMu n x).eraseDue = s.eraseDue ∧ (s.setMu n x).slotTried =
    s.slotTried ∧ (s.setMu n x).booted = s.booted ∧ (s.setMu n x).bodyHash = s.bodyHash ∧ (s.setMu n x).hkOff =
    s.hkOff ∧ (s.setMu n x).hkLen = s.hkLen ∧ (s.setMu n x).hkEntry = s.hkEntry ∧ (s.setMu n x).sync = s.sync ∧
    (s.setMu n x).acts = s.acts ∧ (s.setMu n x).dies = s.dies ∧ (s.setMu n x).chans = s.chans ∧ (s.setMu n x).rings =
    s.rings ∧ (s.setMu n x).logBuf = s.logBuf ∧ (s.setMu n x).logTime = s.logTime ∧ (s.setMu n x).rq = s.rq ∧ (s.setMu
    n x).tdcs = s.tdcs ∧ (s.setMu n x).trigs = s.trigs ∧ (s.setMu n x).streams = s.streams ∧ (s.setMu n x).cal = s.cal
    ∧ (s.setMu n x).ports = s.ports ∧ (s.setMu n x).whistles = s.whistles ∧ (s.setMu n x).shows = s.shows ∧ (s.setMu n
    x).devs = s.devs ∧ (s.setMu n x).queues = s.queues ∧ (s.setMu n x).eccTime = s.eccTime ∧ (s.setMu n x).jtag =
    s.jtag ∧ (s.setMu n x).trims = s.trims ∧ (s.setMu n x).patrol = s.patrol ∧ (s.setMu n x).aer = s.aer ∧ (s.setMu n
    x).ep = s.ep ∧ (s.setMu n x).blanks = s.blanks ∧ (s.setMu n x).reply = s.reply ∧ (s.setMu n x).freeCtr = s.freeCtr
    := by
  repeat' constructor

@[simp] theorem State.setTrig_others (s : State) (n : Nat) (x : TrigSt) : (s.setTrig n x).pending = s.pending ∧
    (s.setTrig n x).pins = s.pins ∧ (s.setTrig n x).mode = s.mode ∧ (s.setTrig n x).shed = s.shed ∧ (s.setTrig n
    x).otp = s.otp ∧ (s.setTrig n x).regs = s.regs ∧ (s.setTrig n x).time = s.time ∧ (s.setTrig n x).slew = s.slew ∧
    (s.setTrig n x).epoch = s.epoch ∧ (s.setTrig n x).counting = s.counting ∧ (s.setTrig n x).latches = s.latches ∧
    (s.setTrig n x).evtSeq = s.evtSeq ∧ (s.setTrig n x).evtIrq = s.evtIrq ∧ (s.setTrig n x).evtDefer = s.evtDefer ∧
    (s.setTrig n x).msix = s.msix ∧ (s.setTrig n x).d3hot = s.d3hot ∧ (s.setTrig n x).dram = s.dram ∧ (s.setTrig n
    x).banks = s.banks ∧ (s.setTrig n x).pool = s.pool ∧ (s.setTrig n x).mailbox = s.mailbox ∧ (s.setTrig n x).flash =
    s.flash ∧ (s.setTrig n x).hostMem = s.hostMem ∧ (s.setTrig n x).torn = s.torn ∧ (s.setTrig n x).sensors =
    s.sensors ∧ (s.setTrig n x).alertArmed = s.alertArmed ∧ (s.setTrig n x).warnArmed = s.warnArmed ∧ (s.setTrig n
    x).persist = s.persist ∧ (s.setTrig n x).nvm = s.nvm ∧ (s.setTrig n x).unit = s.unit ∧ (s.setTrig n x).lc = s.lc ∧
    (s.setTrig n x).eraseDue = s.eraseDue ∧ (s.setTrig n x).slotTried = s.slotTried ∧ (s.setTrig n x).booted =
    s.booted ∧ (s.setTrig n x).bodyHash = s.bodyHash ∧ (s.setTrig n x).hkOff = s.hkOff ∧ (s.setTrig n x).hkLen =
    s.hkLen ∧ (s.setTrig n x).hkEntry = s.hkEntry ∧ (s.setTrig n x).sync = s.sync ∧ (s.setTrig n x).acts = s.acts ∧
    (s.setTrig n x).dies = s.dies ∧ (s.setTrig n x).chans = s.chans ∧ (s.setTrig n x).rings = s.rings ∧ (s.setTrig n
    x).logBuf = s.logBuf ∧ (s.setTrig n x).logTime = s.logTime ∧ (s.setTrig n x).rq = s.rq ∧ (s.setTrig n x).tdcs =
    s.tdcs ∧ (s.setTrig n x).units = s.units ∧ (s.setTrig n x).streams = s.streams ∧ (s.setTrig n x).cal = s.cal ∧
    (s.setTrig n x).ports = s.ports ∧ (s.setTrig n x).whistles = s.whistles ∧ (s.setTrig n x).shows = s.shows ∧
    (s.setTrig n x).devs = s.devs ∧ (s.setTrig n x).queues = s.queues ∧ (s.setTrig n x).eccTime = s.eccTime ∧
    (s.setTrig n x).jtag = s.jtag ∧ (s.setTrig n x).trims = s.trims ∧ (s.setTrig n x).patrol = s.patrol ∧ (s.setTrig n
    x).aer = s.aer ∧ (s.setTrig n x).ep = s.ep ∧ (s.setTrig n x).blanks = s.blanks ∧ (s.setTrig n x).reply = s.reply ∧
    (s.setTrig n x).freeCtr = s.freeCtr := by
  repeat' constructor

@[simp] theorem State.setStream_others (s : State) (n : Nat) (x : StreamSt) : (s.setStream n x).pending = s.pending ∧
    (s.setStream n x).pins = s.pins ∧ (s.setStream n x).mode = s.mode ∧ (s.setStream n x).shed = s.shed ∧ (s.setStream
    n x).otp = s.otp ∧ (s.setStream n x).regs = s.regs ∧ (s.setStream n x).time = s.time ∧ (s.setStream n x).slew =
    s.slew ∧ (s.setStream n x).epoch = s.epoch ∧ (s.setStream n x).counting = s.counting ∧ (s.setStream n x).latches =
    s.latches ∧ (s.setStream n x).evtSeq = s.evtSeq ∧ (s.setStream n x).evtIrq = s.evtIrq ∧ (s.setStream n x).evtDefer
    = s.evtDefer ∧ (s.setStream n x).msix = s.msix ∧ (s.setStream n x).d3hot = s.d3hot ∧ (s.setStream n x).dram =
    s.dram ∧ (s.setStream n x).banks = s.banks ∧ (s.setStream n x).pool = s.pool ∧ (s.setStream n x).mailbox =
    s.mailbox ∧ (s.setStream n x).flash = s.flash ∧ (s.setStream n x).hostMem = s.hostMem ∧ (s.setStream n x).torn =
    s.torn ∧ (s.setStream n x).sensors = s.sensors ∧ (s.setStream n x).alertArmed = s.alertArmed ∧ (s.setStream n
    x).warnArmed = s.warnArmed ∧ (s.setStream n x).persist = s.persist ∧ (s.setStream n x).nvm = s.nvm ∧ (s.setStream
    n x).unit = s.unit ∧ (s.setStream n x).lc = s.lc ∧ (s.setStream n x).eraseDue = s.eraseDue ∧ (s.setStream n
    x).slotTried = s.slotTried ∧ (s.setStream n x).booted = s.booted ∧ (s.setStream n x).bodyHash = s.bodyHash ∧
    (s.setStream n x).hkOff = s.hkOff ∧ (s.setStream n x).hkLen = s.hkLen ∧ (s.setStream n x).hkEntry = s.hkEntry ∧
    (s.setStream n x).sync = s.sync ∧ (s.setStream n x).acts = s.acts ∧ (s.setStream n x).dies = s.dies ∧ (s.setStream
    n x).chans = s.chans ∧ (s.setStream n x).rings = s.rings ∧ (s.setStream n x).logBuf = s.logBuf ∧ (s.setStream n
    x).logTime = s.logTime ∧ (s.setStream n x).rq = s.rq ∧ (s.setStream n x).tdcs = s.tdcs ∧ (s.setStream n x).units =
    s.units ∧ (s.setStream n x).trigs = s.trigs ∧ (s.setStream n x).cal = s.cal ∧ (s.setStream n x).ports = s.ports ∧
    (s.setStream n x).whistles = s.whistles ∧ (s.setStream n x).shows = s.shows ∧ (s.setStream n x).devs = s.devs ∧
    (s.setStream n x).queues = s.queues ∧ (s.setStream n x).eccTime = s.eccTime ∧ (s.setStream n x).jtag = s.jtag ∧
    (s.setStream n x).trims = s.trims ∧ (s.setStream n x).patrol = s.patrol ∧ (s.setStream n x).aer = s.aer ∧
    (s.setStream n x).ep = s.ep ∧ (s.setStream n x).blanks = s.blanks ∧ (s.setStream n x).reply = s.reply ∧
    (s.setStream n x).freeCtr = s.freeCtr := by
  repeat' constructor

@[simp] theorem State.setReg_others (s : State) (a : Nat) (w : Word) : (s.setReg a w).pending = s.pending ∧ (s.setReg
    a w).pins = s.pins ∧ (s.setReg a w).mode = s.mode ∧ (s.setReg a w).shed = s.shed ∧ (s.setReg a w).otp = s.otp ∧
    (s.setReg a w).time = s.time ∧ (s.setReg a w).slew = s.slew ∧ (s.setReg a w).epoch = s.epoch ∧ (s.setReg a
    w).counting = s.counting ∧ (s.setReg a w).latches = s.latches ∧ (s.setReg a w).evtSeq = s.evtSeq ∧ (s.setReg a
    w).evtIrq = s.evtIrq ∧ (s.setReg a w).evtDefer = s.evtDefer ∧ (s.setReg a w).msix = s.msix ∧ (s.setReg a w).d3hot
    = s.d3hot ∧ (s.setReg a w).dram = s.dram ∧ (s.setReg a w).banks = s.banks ∧ (s.setReg a w).pool = s.pool ∧
    (s.setReg a w).mailbox = s.mailbox ∧ (s.setReg a w).flash = s.flash ∧ (s.setReg a w).hostMem = s.hostMem ∧
    (s.setReg a w).torn = s.torn ∧ (s.setReg a w).sensors = s.sensors ∧ (s.setReg a w).alertArmed = s.alertArmed ∧
    (s.setReg a w).warnArmed = s.warnArmed ∧ (s.setReg a w).persist = s.persist ∧ (s.setReg a w).nvm = s.nvm ∧
    (s.setReg a w).unit = s.unit ∧ (s.setReg a w).lc = s.lc ∧ (s.setReg a w).eraseDue = s.eraseDue ∧ (s.setReg a
    w).slotTried = s.slotTried ∧ (s.setReg a w).booted = s.booted ∧ (s.setReg a w).bodyHash = s.bodyHash ∧ (s.setReg a
    w).hkOff = s.hkOff ∧ (s.setReg a w).hkLen = s.hkLen ∧ (s.setReg a w).hkEntry = s.hkEntry ∧ (s.setReg a w).sync =
    s.sync ∧ (s.setReg a w).acts = s.acts ∧ (s.setReg a w).dies = s.dies ∧ (s.setReg a w).chans = s.chans ∧ (s.setReg
    a w).rings = s.rings ∧ (s.setReg a w).logBuf = s.logBuf ∧ (s.setReg a w).logTime = s.logTime ∧ (s.setReg a w).rq =
    s.rq ∧ (s.setReg a w).tdcs = s.tdcs ∧ (s.setReg a w).units = s.units ∧ (s.setReg a w).trigs = s.trigs ∧ (s.setReg
    a w).streams = s.streams ∧ (s.setReg a w).cal = s.cal ∧ (s.setReg a w).ports = s.ports ∧ (s.setReg a w).whistles =
    s.whistles ∧ (s.setReg a w).shows = s.shows ∧ (s.setReg a w).devs = s.devs ∧ (s.setReg a w).queues = s.queues ∧
    (s.setReg a w).eccTime = s.eccTime ∧ (s.setReg a w).jtag = s.jtag ∧ (s.setReg a w).trims = s.trims ∧ (s.setReg a
    w).patrol = s.patrol ∧ (s.setReg a w).aer = s.aer ∧ (s.setReg a w).ep = s.ep ∧ (s.setReg a w).blanks = s.blanks ∧
    (s.setReg a w).reply = s.reply ∧ (s.setReg a w).freeCtr = s.freeCtr := by
  repeat' constructor

@[simp] theorem State.setAct_same (s : State) (n : Nat) (x : ActSt) : (s.setAct n x).act n = x := Tab.get_set_same _ _
    _

theorem State.setAct_ne (s : State) {n m : Nat} (x : ActSt) (h : m ≠ n) : (s.setAct n x).act m = s.act m :=
    Tab.get_set_ne _ _ h

@[simp] theorem State.setDie_same (s : State) (n : Nat) (x : DieSt) : (s.setDie n x).die n = x := Tab.get_set_same _ _
    _

theorem State.setDie_ne (s : State) {n m : Nat} (x : DieSt) (h : m ≠ n) : (s.setDie n x).die m = s.die m :=
    Tab.get_set_ne _ _ h

@[simp] theorem State.setChan_same (s : State) (n : Nat) (x : ChanSt) : (s.setChan n x).chan n = x := Tab.get_set_same
    _ _ _

theorem State.setChan_ne (s : State) {n m : Nat} (x : ChanSt) (h : m ≠ n) : (s.setChan n x).chan m = s.chan m :=
    Tab.get_set_ne _ _ h

@[simp] theorem State.setRing_same (s : State) (n : Nat) (x : RingSt) : (s.setRing n x).ring n = x := Tab.get_set_same
    _ _ _

theorem State.setRing_ne (s : State) {n m : Nat} (x : RingSt) (h : m ≠ n) : (s.setRing n x).ring m = s.ring m :=
    Tab.get_set_ne _ _ h

@[simp] theorem State.setPort_same (s : State) (n : Nat) (x : PortSt) : (s.setPort n x).port n = x := Tab.get_set_same
    _ _ _

theorem State.setPort_ne (s : State) {n m : Nat} (x : PortSt) (h : m ≠ n) : (s.setPort n x).port m = s.port m :=
    Tab.get_set_ne _ _ h

@[simp] theorem State.setShow_same (s : State) (n : Nat) (x : ShowSt) : (s.setShow n x).show_ n = x :=
    Tab.get_set_same _ _ _

theorem State.setShow_ne (s : State) {n m : Nat} (x : ShowSt) (h : m ≠ n) : (s.setShow n x).show_ m = s.show_ m :=
    Tab.get_set_ne _ _ h

@[simp] theorem State.setDev_same (s : State) (n : Nat) (x : DevSt) : (s.setDev n x).dev n = x := Tab.get_set_same _ _
    _

theorem State.setDev_ne (s : State) {n m : Nat} (x : DevSt) (h : m ≠ n) : (s.setDev n x).dev m = s.dev m :=
    Tab.get_set_ne _ _ h

@[simp] theorem State.setQueue_same (s : State) (n : Nat) (x : QueueSt) : (s.setQueue n x).queue n = x :=
    Tab.get_set_same _ _ _

theorem State.setQueue_ne (s : State) {n m : Nat} (x : QueueSt) (h : m ≠ n) : (s.setQueue n x).queue m = s.queue m :=
    Tab.get_set_ne _ _ h

@[simp] theorem State.setSensor_same (s : State) (n : Nat) (x : Sensor) : (s.setSensor n x).sensor n = x :=
    Tab.get_set_same _ _ _

theorem State.setSensor_ne (s : State) {n m : Nat} (x : Sensor) (h : m ≠ n) : (s.setSensor n x).sensor m = s.sensor m
    := Tab.get_set_ne _ _ h

@[simp] theorem State.setTdc_same (s : State) (n : Nat) (x : TdcSt) : (s.setTdc n x).tdc n = x := Tab.get_set_same _ _
    _

theorem State.setTdc_ne (s : State) {n m : Nat} (x : TdcSt) (h : m ≠ n) : (s.setTdc n x).tdc m = s.tdc m :=
    Tab.get_set_ne _ _ h

@[simp] theorem State.setMu_same (s : State) (n : Nat) (x : TdcUnit) : (s.setMu n x).mu n = x := Tab.get_set_same _ _
    _

theorem State.setMu_ne (s : State) {n m : Nat} (x : TdcUnit) (h : m ≠ n) : (s.setMu n x).mu m = s.mu m :=
    Tab.get_set_ne _ _ h

@[simp] theorem State.setTrig_same (s : State) (n : Nat) (x : TrigSt) : (s.setTrig n x).trig n = x := Tab.get_set_same
    _ _ _

theorem State.setTrig_ne (s : State) {n m : Nat} (x : TrigSt) (h : m ≠ n) : (s.setTrig n x).trig m = s.trig m :=
    Tab.get_set_ne _ _ h

@[simp] theorem State.setStream_same (s : State) (n : Nat) (x : StreamSt) : (s.setStream n x).stream n = x :=
    Tab.get_set_same _ _ _

theorem State.setStream_ne (s : State) {n m : Nat} (x : StreamSt) (h : m ≠ n) : (s.setStream n x).stream m = s.stream
    m := Tab.get_set_ne _ _ h

end Sys2Proof.Machine
end

