-- ==== Sys2Proof/Laws/FrameBase.lean ====
section
/-! SUPPORT. What each operation leaves unchanged, of the shared operations: registers, host errors, events, acts, queues, sequencer, fails, region queues. One lemma per operation, over
every followed field but those named in its hypotheses; `simp` rewrites with it. -/

namespace Sys2Proof.Machine

set_option linter.unusedTactic false
set_option linter.unreachableTactic false
set_option linter.unnecessarySeqFocus false
set_option linter.unusedSimpArgs false

/-- The fields of State that the frames follow. -/
inductive Followed
  | pending
  | otp
  | trims
  | jtag
  | mode
  | time
  | epoch
  | flash
  | banks
  | dram
  | shed
  | d3hot
  | sensors
  | hostMem
deriving DecidableEq, Repr

/-- The type of a followed field. -/
abbrev Followed.Ty : Followed → Type
  | .pending => List Instr
  | .otp => Otp
  | .trims => Tab Word
  | .jtag => Nat
  | .mode => Mode
  | .time => BitVec 64
  | .epoch => Word
  | .flash => List Host.Cell
  | .banks => List Host.Cell
  | .dram => List Host.Cell
  | .shed => Option Shed
  | .d3hot => Bool
  | .sensors => Tab Sensor
  | .hostMem => List Host.Cell

/-- The value of a followed field: a frame says `(f s).rd fd = s.rd fd` for every field that `f` leaves as it was; at a
named field this is, by definition, the equation of that field. -/
def State.rd (s : State) : (fd : Followed) → fd.Ty
  | .pending => s.pending
  | .otp => s.otp
  | .trims => s.trims
  | .jtag => s.jtag
  | .mode => s.mode
  | .time => s.time
  | .epoch => s.epoch
  | .flash => s.flash
  | .banks => s.banks
  | .dram => s.dram
  | .shed => s.shed
  | .d3hot => s.d3hot
  | .sensors => s.sensors
  | .hostMem => s.hostMem

theorem State.rd_pending (s : State) : s.pending = s.rd .pending := by cases s; rfl

theorem State.rd_otp (s : State) : s.otp = s.rd .otp := by cases s; rfl

theorem State.rd_trims (s : State) : s.trims = s.rd .trims := by cases s; rfl

theorem State.rd_jtag (s : State) : s.jtag = s.rd .jtag := by cases s; rfl

theorem State.rd_mode (s : State) : s.mode = s.rd .mode := by cases s; rfl

theorem State.rd_time (s : State) : s.time = s.rd .time := by cases s; rfl

theorem State.rd_epoch (s : State) : s.epoch = s.rd .epoch := by cases s; rfl

theorem State.rd_flash (s : State) : s.flash = s.rd .flash := by cases s; rfl

theorem State.rd_banks (s : State) : s.banks = s.rd .banks := by cases s; rfl

theorem State.rd_dram (s : State) : s.dram = s.rd .dram := by cases s; rfl

theorem State.rd_shed (s : State) : s.shed = s.rd .shed := by cases s; rfl

theorem State.rd_d3hot (s : State) : s.d3hot = s.rd .d3hot := by cases s; rfl

theorem State.rd_sensors (s : State) : s.sensors = s.rd .sensors := by cases s; rfl

theorem State.rd_hostMem (s : State) : s.hostMem = s.rd .hostMem := by cases s; rfl

@[simp] theorem ite_rd (c : Prop) [Decidable c] (a b : State) (fd : Followed) :
    (if c then a else b).rd fd = if c then a.rd fd else b.rd fd := by
  split <;> rfl

@[simp] theorem foldl_frame {α : Type} (f : State → α → State) (l : List α) (s : State) (fd : Followed)
    (h : ∀ s x, (f s x).rd fd = s.rd fd) : (l.foldl f s).rd fd = s.rd fd := by
  induction l generalizing s with
  | nil => rfl
  | cons x l ih => simp [ih, h]

@[simp] theorem State.withPending_frame (s : State) (v : List Instr) (fd : Followed) (h1 : fd ≠ .pending) :
    (s.withPending v).rd fd = s.rd fd := by
  cases fd <;> first | rfl | contradiction

@[simp] theorem State.withPins_frame (s : State) (v : Pins) (fd : Followed) : (s.withPins v).rd fd = s.rd fd := by
  cases fd <;> first | rfl | contradiction

@[simp] theorem State.withMode_frame (s : State) (v : Mode) (fd : Followed) (h1 : fd ≠ .mode) : (s.withMode v).rd fd =
    s.rd fd := by
  cases fd <;> first | rfl | contradiction

@[simp] theorem State.withShed_frame (s : State) (v : Option Shed) (fd : Followed) (h1 : fd ≠ .shed) : (s.withShed
    v).rd fd = s.rd fd := by
  cases fd <;> first | rfl | contradiction

@[simp] theorem State.withOtp_frame (s : State) (v : Otp) (fd : Followed) (h1 : fd ≠ .otp) : (s.withOtp v).rd fd =
    s.rd fd := by
  cases fd <;> first | rfl | contradiction

@[simp] theorem State.withRegs_frame (s : State) (v : Tab Word) (fd : Followed) : (s.withRegs v).rd fd = s.rd fd := by
  cases fd <;> first | rfl | contradiction

@[simp] theorem State.withTime_frame (s : State) (v : BitVec 64) (fd : Followed) (h1 : fd ≠ .time) : (s.withTime v).rd
    fd = s.rd fd := by
  cases fd <;> first | rfl | contradiction

@[simp] theorem State.withSlew_frame (s : State) (v : Int) (fd : Followed) : (s.withSlew v).rd fd = s.rd fd := by
  cases fd <;> first | rfl | contradiction

@[simp] theorem State.withEpoch_frame (s : State) (v : Word) (fd : Followed) (h1 : fd ≠ .epoch) : (s.withEpoch v).rd
    fd = s.rd fd := by
  cases fd <;> first | rfl | contradiction

@[simp] theorem State.withCounting_frame (s : State) (v : Bool) (fd : Followed) : (s.withCounting v).rd fd = s.rd fd
    := by
  cases fd <;> first | rfl | contradiction

@[simp] theorem State.withLatches_frame (s : State) (v : Tab Word) (fd : Followed) : (s.withLatches v).rd fd = s.rd fd
    := by
  cases fd <;> first | rfl | contradiction

@[simp] theorem State.withEvtSeq_frame (s : State) (v : Word) (fd : Followed) : (s.withEvtSeq v).rd fd = s.rd fd := by
  cases fd <;> first | rfl | contradiction

@[simp] theorem State.withEvtIrq_frame (s : State) (v : Option Nat) (fd : Followed) : (s.withEvtIrq v).rd fd = s.rd fd
    := by
  cases fd <;> first | rfl | contradiction

@[simp] theorem State.withEvtDefer_frame (s : State) (v : Bool) (fd : Followed) : (s.withEvtDefer v).rd fd = s.rd fd
    := by
  cases fd <;> first | rfl | contradiction

@[simp] theorem State.withMsix_frame (s : State) (v : Tab Nat) (fd : Followed) : (s.withMsix v).rd fd = s.rd fd := by
  cases fd <;> first | rfl | contradiction

@[simp] theorem State.withD3hot_frame (s : State) (v : Bool) (fd : Followed) (h1 : fd ≠ .d3hot) : (s.withD3hot v).rd
    fd = s.rd fd := by
  cases fd <;> first | rfl | contradiction

@[simp] theorem State.withDram_frame (s : State) (v : List Host.Cell) (fd : Followed) (h1 : fd ≠ .dram) : (s.withDram
    v).rd fd = s.rd fd := by
  cases fd <;> first | rfl | contradiction

@[simp] theorem State.withBanks_frame (s : State) (v : List Host.Cell) (fd : Followed) (h1 : fd ≠ .banks) :
    (s.withBanks v).rd fd = s.rd fd := by
  cases fd <;> first | rfl | contradiction

@[simp] theorem State.withPool_frame (s : State) (v : List Host.Cell) (fd : Followed) : (s.withPool v).rd fd = s.rd fd
    := by
  cases fd <;> first | rfl | contradiction

@[simp] theorem State.withMailbox_frame (s : State) (v : List Host.Cell) (fd : Followed) : (s.withMailbox v).rd fd =
    s.rd fd := by
  cases fd <;> first | rfl | contradiction

@[simp] theorem State.withFlash_frame (s : State) (v : List Host.Cell) (fd : Followed) (h1 : fd ≠ .flash) :
    (s.withFlash v).rd fd = s.rd fd := by
  cases fd <;> first | rfl | contradiction

@[simp] theorem State.withHostMem_frame (s : State) (v : List Host.Cell) (fd : Followed) (h1 : fd ≠ .hostMem) :
    (s.withHostMem v).rd fd = s.rd fd := by
  cases fd <;> first | rfl | contradiction

@[simp] theorem State.withTorn_frame (s : State) (v : Tab (Option Byte)) (fd : Followed) : (s.withTorn v).rd fd = s.rd
    fd := by
  cases fd <;> first | rfl | contradiction

@[simp] theorem State.withSensors_frame (s : State) (v : Tab Sensor) (fd : Followed) (h1 : fd ≠ .sensors) :
    (s.withSensors v).rd fd = s.rd fd := by
  cases fd <;> first | rfl | contradiction

@[simp] theorem State.withAlertArmed_frame (s : State) (v : Bool) (fd : Followed) : (s.withAlertArmed v).rd fd = s.rd
    fd := by
  cases fd <;> first | rfl | contradiction

@[simp] theorem State.withWarnArmed_frame (s : State) (v : Bool) (fd : Followed) : (s.withWarnArmed v).rd fd = s.rd fd
    := by
  cases fd <;> first | rfl | contradiction

@[simp] theorem State.withPersist_frame (s : State) (v : Persist) (fd : Followed) : (s.withPersist v).rd fd = s.rd fd
    := by
  cases fd <;> first | rfl | contradiction

@[simp] theorem State.withNvm_frame (s : State) (v : Option NvmJob) (fd : Followed) : (s.withNvm v).rd fd = s.rd fd :=
    by
  cases fd <;> first | rfl | contradiction

@[simp] theorem State.withUnit_frame (s : State) (v : Option FlashUnit) (fd : Followed) : (s.withUnit v).rd fd = s.rd
    fd := by
  cases fd <;> first | rfl | contradiction

@[simp] theorem State.withLc_frame (s : State) (v : Option LcJob) (fd : Followed) : (s.withLc v).rd fd = s.rd fd := by
  cases fd <;> first | rfl | contradiction

@[simp] theorem State.withEraseDue_frame (s : State) (v : Bool) (fd : Followed) : (s.withEraseDue v).rd fd = s.rd fd
    := by
  cases fd <;> first | rfl | contradiction

@[simp] theorem State.withSlotTried_frame (s : State) (v : Option Nat) (fd : Followed) : (s.withSlotTried v).rd fd =
    s.rd fd := by
  cases fd <;> first | rfl | contradiction

@[simp] theorem State.withBooted_frame (s : State) (v : Option Nat) (fd : Followed) : (s.withBooted v).rd fd = s.rd fd
    := by
  cases fd <;> first | rfl | contradiction

@[simp] theorem State.withBodyHash_frame (s : State) (v : BitVec 64) (fd : Followed) : (s.withBodyHash v).rd fd = s.rd
    fd := by
  cases fd <;> first | rfl | contradiction

@[simp] theorem State.withHkOff_frame (s : State) (v : Nat) (fd : Followed) : (s.withHkOff v).rd fd = s.rd fd := by
  cases fd <;> first | rfl | contradiction

@[simp] theorem State.withHkLen_frame (s : State) (v : Nat) (fd : Followed) : (s.withHkLen v).rd fd = s.rd fd := by
  cases fd <;> first | rfl | contradiction

@[simp] theorem State.withHkEntry_frame (s : State) (v : Nat) (fd : Followed) : (s.withHkEntry v).rd fd = s.rd fd :=
    by
  cases fd <;> first | rfl | contradiction

@[simp] theorem State.withSync_frame (s : State) (v : SyncSt) (fd : Followed) : (s.withSync v).rd fd = s.rd fd := by
  cases fd <;> first | rfl | contradiction

@[simp] theorem State.withActs_frame (s : State) (v : Tab ActSt) (fd : Followed) : (s.withActs v).rd fd = s.rd fd :=
    by
  cases fd <;> first | rfl | contradiction

@[simp] theorem State.withDies_frame (s : State) (v : Tab DieSt) (fd : Followed) : (s.withDies v).rd fd = s.rd fd :=
    by
  cases fd <;> first | rfl | contradiction

@[simp] theorem State.withChans_frame (s : State) (v : Tab ChanSt) (fd : Followed) : (s.withChans v).rd fd = s.rd fd
    := by
  cases fd <;> first | rfl | contradiction

@[simp] theorem State.withRings_frame (s : State) (v : Tab RingSt) (fd : Followed) : (s.withRings v).rd fd = s.rd fd
    := by
  cases fd <;> first | rfl | contradiction

@[simp] theorem State.withLogBuf_frame (s : State) (v : Nat) (fd : Followed) : (s.withLogBuf v).rd fd = s.rd fd := by
  cases fd <;> first | rfl | contradiction

@[simp] theorem State.withLogTime_frame (s : State) (v : Nat) (fd : Followed) : (s.withLogTime v).rd fd = s.rd fd :=
    by
  cases fd <;> first | rfl | contradiction

@[simp] theorem State.withRq_frame (s : State) (v : RqSt) (fd : Followed) : (s.withRq v).rd fd = s.rd fd := by
  cases fd <;> first | rfl | contradiction

@[simp] theorem State.withTdcs_frame (s : State) (v : Tab TdcSt) (fd : Followed) : (s.withTdcs v).rd fd = s.rd fd :=
    by
  cases fd <;> first | rfl | contradiction

@[simp] theorem State.withUnits_frame (s : State) (v : Tab TdcUnit) (fd : Followed) : (s.withUnits v).rd fd = s.rd fd
    := by
  cases fd <;> first | rfl | contradiction

@[simp] theorem State.withTrigs_frame (s : State) (v : Tab TrigSt) (fd : Followed) : (s.withTrigs v).rd fd = s.rd fd
    := by
  cases fd <;> first | rfl | contradiction

@[simp] theorem State.withStreams_frame (s : State) (v : Tab StreamSt) (fd : Followed) : (s.withStreams v).rd fd =
    s.rd fd := by
  cases fd <;> first | rfl | contradiction

@[simp] theorem State.withCal_frame (s : State) (v : CalSt) (fd : Followed) : (s.withCal v).rd fd = s.rd fd := by
  cases fd <;> first | rfl | contradiction

@[simp] theorem State.withPorts_frame (s : State) (v : Tab PortSt) (fd : Followed) : (s.withPorts v).rd fd = s.rd fd
    := by
  cases fd <;> first | rfl | contradiction

@[simp] theorem State.withWhistles_frame (s : State) (v : WhistleSt) (fd : Followed) : (s.withWhistles v).rd fd = s.rd
    fd := by
  cases fd <;> first | rfl | contradiction

@[simp] theorem State.withShows_frame (s : State) (v : Tab ShowSt) (fd : Followed) : (s.withShows v).rd fd = s.rd fd
    := by
  cases fd <;> first | rfl | contradiction

@[simp] theorem State.withDevs_frame (s : State) (v : Tab DevSt) (fd : Followed) : (s.withDevs v).rd fd = s.rd fd :=
    by
  cases fd <;> first | rfl | contradiction

@[simp] theorem State.withQueues_frame (s : State) (v : Tab QueueSt) (fd : Followed) : (s.withQueues v).rd fd = s.rd
    fd := by
  cases fd <;> first | rfl | contradiction

@[simp] theorem State.withEccTime_frame (s : State) (v : Option Nat) (fd : Followed) : (s.withEccTime v).rd fd = s.rd
    fd := by
  cases fd <;> first | rfl | contradiction

@[simp] theorem State.withJtag_frame (s : State) (v : Nat) (fd : Followed) (h1 : fd ≠ .jtag) : (s.withJtag v).rd fd =
    s.rd fd := by
  cases fd <;> first | rfl | contradiction

@[simp] theorem State.withTrims_frame (s : State) (v : Tab Word) (fd : Followed) (h1 : fd ≠ .trims) : (s.withTrims
    v).rd fd = s.rd fd := by
  cases fd <;> first | rfl | contradiction

@[simp] theorem State.withPatrol_frame (s : State) (v : Nat) (fd : Followed) : (s.withPatrol v).rd fd = s.rd fd := by
  cases fd <;> first | rfl | contradiction

@[simp] theorem State.withAer_frame (s : State) (v : BitVec 4) (fd : Followed) : (s.withAer v).rd fd = s.rd fd := by
  cases fd <;> first | rfl | contradiction

@[simp] theorem State.withEp_frame (s : State) (v : Option (Nat × Nat)) (fd : Followed) : (s.withEp v).rd fd = s.rd fd
    := by
  cases fd <;> first | rfl | contradiction

@[simp] theorem State.withBlanks_frame (s : State) (v : Tab Nat) (fd : Followed) : (s.withBlanks v).rd fd = s.rd fd :=
    by
  cases fd <;> first | rfl | contradiction

@[simp] theorem State.withReply_frame (s : State) (v : Option Reply) (fd : Followed) : (s.withReply v).rd fd = s.rd fd
    := by
  cases fd <;> first | rfl | contradiction

@[simp] theorem State.withFreeCtr_frame (s : State) (v : Nat) (fd : Followed) : (s.withFreeCtr v).rd fd = s.rd fd :=
    by
  cases fd <;> first | rfl | contradiction

@[simp] theorem State.setAct_frame (s : State) (n : Nat) (x : ActSt) (fd : Followed) : (s.setAct n x).rd fd = s.rd fd
    := by
  cases fd <;> first | rfl | contradiction

@[simp] theorem State.setDie_frame (s : State) (n : Nat) (x : DieSt) (fd : Followed) : (s.setDie n x).rd fd = s.rd fd
    := by
  cases fd <;> first | rfl | contradiction

@[simp] theorem State.setChan_frame (s : State) (n : Nat) (x : ChanSt) (fd : Followed) : (s.setChan n x).rd fd = s.rd
    fd := by
  cases fd <;> first | rfl | contradiction

@[simp] theorem State.setRing_frame (s : State) (n : Nat) (x : RingSt) (fd : Followed) : (s.setRing n x).rd fd = s.rd
    fd := by
  cases fd <;> first | rfl | contradiction

@[simp] theorem State.setPort_frame (s : State) (n : Nat) (x : PortSt) (fd : Followed) : (s.setPort n x).rd fd = s.rd
    fd := by
  cases fd <;> first | rfl | contradiction

@[simp] theorem State.setShow_frame (s : State) (n : Nat) (x : ShowSt) (fd : Followed) : (s.setShow n x).rd fd = s.rd
    fd := by
  cases fd <;> first | rfl | contradiction

@[simp] theorem State.setDev_frame (s : State) (n : Nat) (x : DevSt) (fd : Followed) : (s.setDev n x).rd fd = s.rd fd
    := by
  cases fd <;> first | rfl | contradiction

@[simp] theorem State.setQueue_frame (s : State) (n : Nat) (x : QueueSt) (fd : Followed) : (s.setQueue n x).rd fd =
    s.rd fd := by
  cases fd <;> first | rfl | contradiction

@[simp] theorem State.setSensor_frame (s : State) (n : Nat) (x : Sensor) (fd : Followed) (h1 : fd ≠ .sensors) :
    (s.setSensor n x).rd fd = s.rd fd := by
  cases fd <;> first | rfl | contradiction

@[simp] theorem State.setTdc_frame (s : State) (n : Nat) (x : TdcSt) (fd : Followed) : (s.setTdc n x).rd fd = s.rd fd
    := by
  cases fd <;> first | rfl | contradiction

@[simp] theorem State.setMu_frame (s : State) (n : Nat) (x : TdcUnit) (fd : Followed) : (s.setMu n x).rd fd = s.rd fd
    := by
  cases fd <;> first | rfl | contradiction

@[simp] theorem State.setTrig_frame (s : State) (n : Nat) (x : TrigSt) (fd : Followed) : (s.setTrig n x).rd fd = s.rd
    fd := by
  cases fd <;> first | rfl | contradiction

@[simp] theorem State.setStream_frame (s : State) (n : Nat) (x : StreamSt) (fd : Followed) : (s.setStream n x).rd fd =
    s.rd fd := by
  cases fd <;> first | rfl | contradiction

@[simp] theorem State.setReg_frame (s : State) (a : Nat) (w : Word) (fd : Followed) : (s.setReg a w).rd fd = s.rd fd
    := by
  cases fd <;> first | rfl | contradiction

@[simp] theorem ite_fst {α β : Type} (c : Prop) [Decidable c] (a b : α × β) :
    (if c then a else b).1 = if c then a.1 else b.1 := by
  split <;> rfl

@[simp] theorem ite_snd {α β : Type} (c : Prop) [Decidable c] (a b : α × β) :
    (if c then a else b).2 = if c then a.2 else b.2 := by
  split <;> rfl

theorem foldl_rel {α : Type} (R : State → State → Prop) (hr : ∀ s, R s s) (ht : ∀ a b c, R a b → R b c → R a c)
    (f : State → α → State) (h : ∀ s x, R (f s x) s) (l : List α) (s : State) : R (l.foldl f s) s := by
  induction l generalizing s with
  | nil => exact hr s
  | cons x l ih => exact ht _ _ _ (ih (f s x)) (h s x)

@[simp] theorem State.put_frame (s : State) (f : Field) (v : Nat) (fd : Followed) : (State.put s f v).rd fd = s.rd fd
    := by
  first | (simp [State.put]; done) | (simp only [State.put]; (repeat' split) <;> simp)

@[simp] theorem State.putB_frame (s : State) (f : Field) (b : Bool) (fd : Followed) : (State.putB s f b).rd fd = s.rd
    fd := by
  first | (simp [State.putB]; done) | (simp only [State.putB]; (repeat' split) <;> simp)

@[simp] theorem State.bump_frame (s : State) (f : Field) (fd : Followed) : (State.bump s f).rd fd = s.rd fd := by
  first | (simp [State.bump]; done) | (simp only [State.bump]; (repeat' split) <;> simp)

@[simp] theorem State.setPair_frame (s : State) (lo : Nat) (v : Nat) (fd : Followed) : (State.setPair s lo v).rd fd =
    s.rd fd := by
  first | (simp [State.setPair]; done) | (simp only [State.setPair]; (repeat' split) <;> simp)

theorem State.each_keep {α : Type} (get : State → α) (f : Nat → State → State) (h : ∀ n s, get (f n s) = get s)
    (l : List Nat) (s : State) : get (State.each f l s) = get s := by
  induction l generalizing s with
  | nil => rfl
  | cons x l ih => simp [State.each, ih, h]

@[simp] theorem State.each_frame (f : Nat → State → State) (l : List Nat) (s : State) (fd : Followed) (h : ∀ n s, (f n
  s).rd fd = s.rd fd) : (State.each f l s).rd fd = s.rd fd :=
  State.each_keep (fun s => s.rd fd) f h l s

@[simp] theorem State.takeFree_frame (s : State) (fd : Followed) : (State.takeFree s).rd fd = s.rd fd := by
  first | (simp [State.takeFree]; done) | (simp only [State.takeFree]; (repeat' split) <;> simp)

@[simp] theorem State.at_frame (s : State) (t : Nat) (fd : Followed) (h1 : fd ≠ .time) : (State.at_ s t).rd fd = s.rd
    fd := by
  first | (simp [h1, State.at_]; done) | (simp only [State.at_]; (repeat' split) <;> simp [h1])

@[simp] theorem State.dramPut_frame (s : State) (a : Nat) (bs : List Byte) (fd : Followed) (h1 : fd ≠ .dram) :
    (State.dramPut s a bs).rd fd = s.rd fd := by
  first | (simp [h1, State.dramPut]; done) | (simp only [State.dramPut]; (repeat' split) <;> simp [h1])

@[simp] theorem State.bankPut_frame (s : State) (a : Nat) (bs : List Byte) (fd : Followed) (h1 : fd ≠ .banks) :
    (State.bankPut s a bs).rd fd = s.rd fd := by
  first | (simp [h1, State.bankPut]; done) | (simp only [State.bankPut]; (repeat' split) <;> simp [h1])

@[simp] theorem State.poolPut_frame (s : State) (a : Nat) (bs : List Byte) (fd : Followed) : (State.poolPut s a bs).rd
    fd = s.rd fd := by
  first | (simp [State.poolPut]; done) | (simp only [State.poolPut]; (repeat' split) <;> simp)

@[simp] theorem State.mboxPut_frame (s : State) (a : Nat) (bs : List Byte) (fd : Followed) : (State.mboxPut s a bs).rd
    fd = s.rd fd := by
  first | (simp [State.mboxPut]; done) | (simp only [State.mboxPut]; (repeat' split) <;> simp)

@[simp] theorem State.hostPut_frame (s : State) (a : Nat) (bs : List Byte) (fd : Followed) (h1 : fd ≠ .hostMem) :
    (State.hostPut s a bs).rd fd = s.rd fd := by
  first | (simp [h1, State.hostPut]; done) | (simp only [State.hostPut]; (repeat' split) <;> simp [h1])

@[simp] theorem State.hostPutEp_frame (s : State) (a : Nat) (bs : List Byte) (bad : Bool) (fd : Followed) (h1 : fd ≠
    .hostMem) : (State.hostPutEp s a bs bad).rd fd = s.rd fd := by
  first | (simp [h1, State.hostPutEp]; done) | (simp only [State.hostPutEp]; (repeat' split) <;> simp [h1])

@[simp] theorem State.raiseVec_frame (s : State) (v : Nat) (fd : Followed) : (State.raiseVec s v).rd fd = s.rd fd :=
    by
  first | (simp [State.raiseVec]; done) | (simp only [State.raiseVec]; (repeat' split) <;> simp)

@[simp] theorem State.sysIrq_frame (s : State) (bit : Nat) (fd : Followed) : (State.sysIrq s bit).rd fd = s.rd fd :=
    by
  first | (simp [State.sysIrq]; done) | (simp only [State.sysIrq]; (repeat' split) <;> simp)

@[simp] theorem State.bdIrq_frame (s : State) (bit : Nat) (fd : Followed) : (State.bdIrq s bit).rd fd = s.rd fd := by
  first | (simp [State.bdIrq]; done) | (simp only [State.bdIrq]; (repeat' split) <;> simp)

@[simp] theorem State.sendFrame_frame (s : State) (p : Nat) (f : Frame) (fd : Followed) : (State.sendFrame s p f).rd
    fd = s.rd fd := by
  first | (simp [State.sendFrame]; done) | (simp only [State.sendFrame]; (repeat' split) <;> simp)

@[simp] theorem State.flushFrames_frame (p : Nat) (x1 : Nat) (x2 : State) (fd : Followed) : (State.flushFrames p x1
    x2).rd fd = x2.rd fd := by
  fun_induction State.flushFrames p x1 x2 <;> simp_all +zetaDelta

@[simp] theorem State.journalIrq_frame (s : State) (fd : Followed) : (State.journalIrq s).rd fd = s.rd fd := by
  first | (simp [State.journalIrq]; done) | (simp only [State.journalIrq]; (repeat' split) <;> simp)

@[simp] theorem State.journalDram_frame (s : State) (w : Nat) (r : EvtRec) (fd : Followed) (h1 : fd ≠ .dram) :
    (State.journalDram s w r).rd fd = s.rd fd := by
  first | (simp [h1, State.journalDram]; done) | (simp only [State.journalDram]; (repeat' split) <;> simp [h1])

@[simp] theorem State.journal_frame (s : State) (r : EvtRec) (fd : Followed) (h1 : fd ≠ .dram) : (State.journal s
    r).rd fd = s.rd fd := by
  first | (simp [h1, State.journal]; done) | (simp only [State.journal]; (repeat' split) <;> simp [h1])

@[simp] theorem State.persistEvt_frame (s : State) (r : EvtRec) (fd : Followed) : (State.persistEvt s r).rd fd = s.rd
    fd := by
  first | (simp [State.persistEvt]; done) | (simp only [State.persistEvt]; (repeat' split) <;> simp)

@[simp] theorem State.eventAt_frame (s : State) (t : Nat) (src : Nat) (code : Nat) (p4 : optParam Nat 0) (p5 :
    optParam Nat 0) (p6 : optParam Nat 0) (p7 : optParam Nat 0) (fd : Followed) (h1 : fd ≠ .dram) : (State.eventAt s t
    src code p4 p5 p6 p7).rd fd = s.rd fd := by
  first | (simp [h1, State.eventAt]; done) | (simp only [State.eventAt]; (repeat' split) <;> simp [h1])

@[simp] theorem State.event_frame (s : State) (src : Nat) (code : Nat) (p4 : optParam Nat 0) (p5 : optParam Nat 0) (p6
    : optParam Nat 0) (p7 : optParam Nat 0) (fd : Followed) (h1 : fd ≠ .dram) : (State.event s src code p4 p5 p6
    p7).rd fd = s.rd fd := by
  first | (simp [h1, State.event]; done) | (simp only [State.event]; (repeat' split) <;> simp [h1])

@[simp] theorem State.setMode_frame (s : State) (m : Mode) (fd : Followed) (h1 : fd ≠ .mode) (h2 : fd ≠ .dram) :
    (State.setMode s m).rd fd = s.rd fd := by
  first | (simp [h1, h2, State.setMode]; done) | (simp only [State.setMode]; (repeat' split) <;> simp [h1, h2])

@[simp] theorem State.eccCe_frame (s : State) (dram : Bool) (fd : Followed) (h1 : fd ≠ .dram) : (State.eccCe s
    dram).rd fd = s.rd fd := by
  first | (simp [h1, State.eccCe]; done) | (simp only [State.eccCe]; (repeat' split) <;> simp [h1])

@[simp] theorem State.eccUe_frame (s : State) (id : Nat) (addr : Nat) (fd : Followed) (h1 : fd ≠ .dram) : (State.eccUe
    s id addr).rd fd = s.rd fd := by
  first | (simp [h1, State.eccUe]; done) | (simp only [State.eccUe]; (repeat' split) <;> simp [h1])

@[simp] theorem State.sramEcc_frame (s : State) (id : Nat) (a : Nat) (n : Nat) (ecc : Ecc) (fd : Followed) (h1 : fd ≠
    .dram) : (State.sramEcc s id a n ecc).rd fd = s.rd fd := by
  first | (simp [h1, State.sramEcc]; done) | (simp only [State.sramEcc]; (repeat' split) <;> simp [h1])

@[simp] theorem State.dramEcc_frame (s : State) (a : Nat) (n : Nat) (ecc : Ecc) (fd : Followed) (h1 : fd ≠ .dram) :
    (State.dramEcc s a n ecc).rd fd = s.rd fd := by
  first | (simp [h1, State.dramEcc]; done) | (simp only [State.dramEcc]; (repeat' split) <;> simp [h1])

@[simp] theorem State.finish_frame (s : State) (q : Nat) (id : Nat) (status : Nat) (result : Nat) (fd : Followed) :
    (State.finish s q id status result).rd fd = s.rd fd := by
  first | (simp [State.finish]; done) | (simp only [State.finish]; (repeat' split) <;> simp)

@[simp] theorem State.endWaiting_frame (s : State) (q : Nat) (c : HostCmd) (r : List HostCmd) (status : Nat) (fd :
    Followed) : (State.endWaiting s q c r status).rd fd = s.rd fd := by
  first | (simp [State.endWaiting]; done) | (simp only [State.endWaiting]; (repeat' split) <;> simp)

@[simp] theorem State.abortCmds_frame (s : State) (sel : HostCmd → Bool) (fd : Followed) : (State.abortCmds s sel).rd
    fd = s.rd fd := by
  first | (simp [State.abortCmds]; done) | (simp only [State.abortCmds]; (repeat' split) <;> simp)

@[simp] theorem State.abortStarts_frame (s : State) (n : Nat) (fd : Followed) : (State.abortStarts s n).rd fd = s.rd
    fd := by
  first | (simp [State.abortStarts]; done) | (simp only [State.abortStarts]; (repeat' split) <;> simp)

@[simp] theorem State.pinEvent_frame (s : State) (c : Nat) (code : Nat) (w4 : Nat) (fd : Followed) (h1 : fd ≠ .dram) :
    (State.pinEvent s c code w4).rd fd = s.rd fd := by
  first | (simp [h1, State.pinEvent]; done) | (simp only [State.pinEvent]; (repeat' split) <;> simp [h1])

@[simp] theorem State.mixRegs_frame (s : State) (t : State) (m : Nat → Nat) (fd : Followed) : (State.mixRegs s t m).rd
    fd = s.rd fd := by
  first | (simp [State.mixRegs]; done) | (simp only [State.mixRegs]; (repeat' split) <;> simp)

@[simp] theorem State.mixDram_frame (s : State) (t : State) (own : Nat → Bool) (fd : Followed) (h1 : fd ≠ .dram) :
    (State.mixDram s t own).rd fd = s.rd fd := by
  first | (simp [h1, State.mixDram]; done) | (simp only [State.mixDram]; (repeat' split) <;> simp [h1])

@[simp] theorem State.mixBanks_frame (s : State) (t : State) (own : Nat → Bool) (fd : Followed) (h1 : fd ≠ .banks) :
    (State.mixBanks s t own).rd fd = s.rd fd := by
  first | (simp [h1, State.mixBanks]; done) | (simp only [State.mixBanks]; (repeat' split) <;> simp [h1])

@[simp] theorem State.freeArea_frame (s : State) (x : Prod Nat Nat) (fd : Followed) (h1 : fd ≠ .dram) :
    (State.freeArea s x).rd fd = s.rd fd := by
  first | (simp [h1, State.freeArea]; done) | (simp only [State.freeArea]; (repeat' split) <;> simp [h1])

@[simp] theorem State.disturbAct_frame (n : Nat) (s : State) (fd : Followed) (h1 : fd ≠ .dram) : (State.disturbAct n
    s).rd fd = s.rd fd := by
  first | (simp [h1, State.disturbAct]; done) | (simp only [State.disturbAct]; (repeat' split) <;> simp [h1])

@[simp] theorem State.disturbChan_frame (c : Nat) (s : State) (fd : Followed) (h1 : fd ≠ .dram) : (State.disturbChan c
    s).rd fd = s.rd fd := by
  first | (simp [h1, State.disturbChan]; done) | (simp only [State.disturbChan]; (repeat' split) <;> simp [h1])

@[simp] theorem State.disturbRing_frame (g : Nat) (s : State) (fd : Followed) (h1 : fd ≠ .dram) : (State.disturbRing g
    s).rd fd = s.rd fd := by
  first | (simp [h1, State.disturbRing]; done) | (simp only [State.disturbRing]; (repeat' split) <;> simp [h1])

@[simp] theorem State.disturbTrig_frame (k : Nat) (s : State) (fd : Followed) : (State.disturbTrig k s).rd fd = s.rd
    fd := by
  first | (simp [State.disturbTrig]; done) | (simp only [State.disturbTrig]; (repeat' split) <;> simp)

@[simp] theorem State.disturbStream_frame (i : Nat) (s : State) (fd : Followed) (h1 : fd ≠ .dram) :
    (State.disturbStream i s).rd fd = s.rd fd := by
  first | (simp [h1, State.disturbStream]; done) | (simp only [State.disturbStream]; (repeat' split) <;> simp [h1])

@[simp] theorem State.disturbQueue_frame (q : Nat) (s : State) (fd : Followed) : (State.disturbQueue q s).rd fd = s.rd
    fd := by
  first | (simp [State.disturbQueue]; done) | (simp only [State.disturbQueue]; (repeat' split) <;> simp)

@[simp] theorem State.disturbShow_frame (sh : Nat) (s : State) (fd : Followed) : (State.disturbShow sh s).rd fd = s.rd
    fd := by
  first | (simp [State.disturbShow]; done) | (simp only [State.disturbShow]; (repeat' split) <;> simp)

@[simp] theorem State.disturbQueues_frame (g : Nat) (s : State) (fd : Followed) (h1 : fd ≠ .dram) :
    (State.disturbQueues g s).rd fd = s.rd fd := by
  first | (simp [h1, State.disturbQueues]; done) | (simp only [State.disturbQueues]; (repeat' split) <;> simp [h1])

@[simp] theorem State.disturbAt_frame (s : State) (a : Nat) (fd : Followed) (h1 : fd ≠ .dram) : (State.disturbAt s
    a).rd fd = s.rd fd := by
  first | (simp [h1, State.disturbAt]; done) | (simp only [State.disturbAt]; (repeat' split) <;> simp [h1])

@[simp] theorem State.errWrite_frame (s : State) (a : Nat) (k : State → State) (fd : Followed) (h1 : fd ≠ .dram) (hk :
    ∀ x, (k x).rd fd = x.rd fd) : (State.errWrite s a k).rd fd = s.rd fd := by
  first | (simp [h1, hk, State.errWrite]; done) | (simp only [State.errWrite]; (repeat' split) <;> simp [h1, hk])

@[simp] theorem State.freeField_frame (s : State) (f : Field) (fd : Followed) : (State.freeField s f).rd fd = s.rd fd
    := by
  first | (simp [State.freeField]; done) | (simp only [State.freeField]; (repeat' split) <;> simp)

@[simp] theorem State.tdcSwitched_frame (s : State) (c : Nat) (fd : Followed) : (State.tdcSwitched s c).rd fd = s.rd
    fd := by
  first | (simp [State.tdcSwitched]; done) | (simp only [State.tdcSwitched]; (repeat' split) <;> simp)

@[simp] theorem State.switchBank_frame (c : Nat) (s : State) (fd : Followed) : (State.switchBank c s).rd fd = s.rd fd
    := by
  first | (simp [State.switchBank]; done) | (simp only [State.switchBank]; (repeat' split) <;> simp)

@[simp] theorem State.switchBanks_frame (s : State) (cs : List Nat) (fd : Followed) : (State.switchBanks s cs).rd fd =
    s.rd fd := by
  first | (simp [State.switchBanks]; done) | (simp only [State.switchBanks]; (repeat' split) <;> simp)

@[simp] theorem State.switchAll_frame (s : State) (fd : Followed) : (State.switchAll s).rd fd = s.rd fd := by
  first | (simp [State.switchAll]; done) | (simp only [State.switchAll]; (repeat' split) <;> simp)

@[simp] theorem State.showEnd_frame (s : State) (sh : Nat) (fd : Followed) : (State.showEnd s sh).rd fd = s.rd fd :=
    by
  first | (simp [State.showEnd]; done) | (simp only [State.showEnd]; (repeat' split) <;> simp)

@[simp] theorem State.showEnds_frame (s : State) (n : Nat) (fd : Followed) : (State.showEnds s n).rd fd = s.rd fd :=
    by
  first | (simp [State.showEnds]; done) | (simp only [State.showEnds]; (repeat' split) <;> simp)

@[simp] theorem State.cutPpmu_frame (c : Nat) (s : State) (fd : Followed) : (State.cutPpmu c s).rd fd = s.rd fd := by
  first | (simp [State.cutPpmu]; done) | (simp only [State.cutPpmu]; (repeat' split) <;> simp)

@[simp] theorem State.cutPpmus_frame (s : State) (fd : Followed) : (State.cutPpmus s).rd fd = s.rd fd := by
  first | (simp [State.cutPpmus]; done) | (simp only [State.cutPpmus]; (repeat' split) <;> simp)

@[simp] theorem State.dropPpmu_frame (c : Nat) (s : State) (fd : Followed) : (State.dropPpmu c s).rd fd = s.rd fd :=
    by
  first | (simp [State.dropPpmu]; done) | (simp only [State.dropPpmu]; (repeat' split) <;> simp)

@[simp] theorem State.parkPpmus_frame (s : State) (cs : List Nat) (fd : Followed) : (State.parkPpmus s cs).rd fd =
    s.rd fd := by
  first | (simp [State.parkPpmus]; done) | (simp only [State.parkPpmus]; (repeat' split) <;> simp)

@[simp] theorem State.seqEvent_frame (s : State) (n : Nat) (code : Nat) (p4 : optParam Nat 0) (p5 : optParam Nat 0)
    (p6 : optParam Nat 0) (p7 : optParam Nat 0) (fd : Followed) (h1 : fd ≠ .dram) : (State.seqEvent s n code p4 p5 p6
    p7).rd fd = s.rd fd := by
  first | (simp [h1, State.seqEvent]; done) | (simp only [State.seqEvent]; (repeat' split) <;> simp [h1])

@[simp] theorem State.showReport_frame (s : State) (n : Nat) (fd : Followed) : (State.showReport s n).rd fd = s.rd fd
    := by
  first | (simp [State.showReport]; done) | (simp only [State.showReport]; (repeat' split) <;> simp)

@[simp] theorem State.setActState_frame (s : State) (n : Nat) (st : Nat) (fd : Followed) : (State.setActState s n
    st).rd fd = s.rd fd := by
  first | (simp [State.setActState]; done) | (simp only [State.setActState]; (repeat' split) <;> simp)

@[simp] theorem State.missStart_frame (s : State) (n : Nat) (fd : Followed) (h1 : fd ≠ .dram) : (State.missStart s
    n).rd fd = s.rd fd := by
  first | (simp [h1, State.missStart]; done) | (simp only [State.missStart]; (repeat' split) <;> simp [h1])

@[simp] theorem State.dropQueued_frame (s : State) (n : Nat) (fd : Followed) (h1 : fd ≠ .dram) : (State.dropQueued s
    n).rd fd = s.rd fd := by
  first | (simp [h1, State.dropQueued]; done) | (simp only [State.dropQueued]; (repeat' split) <;> simp [h1])

@[simp] theorem State.holdHyst_frame (c : Nat) (s : State) (fd : Followed) : (State.holdHyst c s).rd fd = s.rd fd :=
    by
  first | (simp [State.holdHyst]; done) | (simp only [State.holdHyst]; (repeat' split) <;> simp)

@[simp] theorem State.acceptStart_frame (s : State) (n : Nat) (r : StartReq) (fd : Followed) : (State.acceptStart s n
    r).rd fd = s.rd fd := by
  first | (simp [State.acceptStart]; done) | (simp only [State.acceptStart]; (repeat' split) <;> simp)

@[simp] theorem State.markLate_frame (s : State) (n : Nat) (fd : Followed) (h1 : fd ≠ .dram) : (State.markLate s n).rd
    fd = s.rd fd := by
  first | (simp [h1, State.markLate]; done) | (simp only [State.markLate]; (repeat' split) <;> simp [h1])

@[simp] theorem State.acceptQueued_frame (s : State) (n : Nat) (fd : Followed) (h1 : fd ≠ .dram) : (State.acceptQueued
    s n).rd fd = s.rd fd := by
  first | (simp [h1, State.acceptQueued]; done) | (simp only [State.acceptQueued]; (repeat' split) <;> simp [h1])

@[simp] theorem State.tilePush_frame (s : State) (g : Nat) (final : Bool) (fd : Followed) : (State.tilePush s g
    final).rd fd = s.rd fd := by
  first | (simp [State.tilePush]; done) | (simp only [State.tilePush]; (repeat' split) <;> simp)

@[simp] theorem State.finalPushes_frame (s : State) (n : Nat) (fd : Followed) : (State.finalPushes s n).rd fd = s.rd
    fd := by
  first | (simp [State.finalPushes]; done) | (simp only [State.finalPushes]; (repeat' split) <;> simp)

@[simp] theorem State.neverRan_frame (s : State) (n : Nat) (fd : Followed) : (State.neverRan s n).rd fd = s.rd fd :=
    by
  first | (simp [State.neverRan]; done) | (simp only [State.neverRan]; (repeat' split) <;> simp)

@[simp] theorem State.stopEarly_frame (s : State) (n : Nat) (reason : Nat) (fd : Followed) (h1 : fd ≠ .dram) :
    (State.stopEarly s n reason).rd fd = s.rd fd := by
  first | (simp [h1, State.stopEarly]; done) | (simp only [State.stopEarly]; (repeat' split) <;> simp [h1])

@[simp] theorem State.fixStop_frame (s : State) (n : Nat) (cnt : Nat) (reason : Nat) (fd : Followed) : (State.fixStop
    s n cnt reason).rd fd = s.rd fd := by
  first | (simp [State.fixStop]; done) | (simp only [State.fixStop]; (repeat' split) <;> simp)

@[simp] theorem State.gracefulStop_frame (reason : Nat) (n : Nat) (s : State) (fd : Followed) (h1 : fd ≠ .dram) :
    (State.gracefulStop reason n s).rd fd = s.rd fd := by
  first | (simp [h1, State.gracefulStop]; done) | (simp only [State.gracefulStop]; (repeat' split) <;> simp [h1])

@[simp] theorem State.failStop_frame (n : Nat) (F : Nat) (reason : Nat) (s : State) (fd : Followed) : (State.failStop
    n F reason s).rd fd = s.rd fd := by
  first | (simp [State.failStop]; done) | (simp only [State.failStop]; (repeat' split) <;> simp)

@[simp] theorem State.abortAct_frame (reason : Nat) (n : Nat) (s : State) (fd : Followed) (h1 : fd ≠ .dram) :
    (State.abortAct reason n s).rd fd = s.rd fd := by
  first | (simp [h1, State.abortAct]; done) | (simp only [State.abortAct]; (repeat' split) <;> simp [h1])

@[simp] theorem State.abortAll_frame (s : State) (reason : Nat) (fd : Followed) (h1 : fd ≠ .dram) : (State.abortAll s
    reason).rd fd = s.rd fd := by
  first | (simp [h1, State.abortAll]; done) | (simp only [State.abortAll]; (repeat' split) <;> simp [h1])

@[simp] theorem State.refuseStart_frame (s : State) (n : Nat) (code : Nat) (fd : Followed) (h1 : fd ≠ .dram) :
    (State.refuseStart s n code).rd fd = s.rd fd := by
  first | (simp [h1, State.refuseStart]; done) | (simp only [State.refuseStart]; (repeat' split) <;> simp [h1])

@[simp] theorem State.lateStart_frame (s : State) (n : Nat) (fd : Followed) (h1 : fd ≠ .dram) : (State.lateStart s
    n).rd fd = s.rd fd := by
  first | (simp [h1, State.lateStart]; done) | (simp only [State.lateStart]; (repeat' split) <;> simp [h1])

@[simp] theorem State.release_frame (s : State) (n : Nat) (t : Option Nat) (fd : Followed) (h1 : fd ≠ .mode) (h2 : fd
    ≠ .dram) : (State.release s n t).rd fd = s.rd fd := by
  first | (simp [h1, h2, State.release]; done) | (simp only [State.release]; (repeat' split) <;> simp [h1, h2])

@[simp] theorem State.startAct_frame (r : StartReq) (n : Nat) (s : State) (fd : Followed) (h1 : fd ≠ .mode) (h2 : fd ≠
    .dram) : (State.startAct r n s).rd fd = s.rd fd := by
  first | (simp [h1, h2, State.startAct]; done) | (simp only [State.startAct]; (repeat' split) <;> simp [h1, h2])

@[simp] theorem State.blankStart_frame (m : Nat) (t : Nat) (s : State) (fd : Followed) : (State.blankStart m t s).rd
    fd = s.rd fd := by
  first | (simp [State.blankStart]; done) | (simp only [State.blankStart]; (repeat' split) <;> simp)

@[simp] theorem State.srefChanged_frame (s : State) (m : Nat) (fd : Followed) : (State.srefChanged s m).rd fd = s.rd
    fd := by
  first | (simp [State.srefChanged]; done) | (simp only [State.srefChanged]; (repeat' split) <;> simp)

@[simp] theorem State.srefClear_frame (source : Nat) (m : Nat) (s : State) (fd : Followed) : (State.srefClear source m
    s).rd fd = s.rd fd := by
  first | (simp [State.srefClear]; done) | (simp only [State.srefClear]; (repeat' split) <;> simp)

@[simp] theorem State.srefClearAll_frame (s : State) (fd : Followed) : (State.srefClearAll s).rd fd = s.rd fd := by
  first | (simp [State.srefClearAll]; done) | (simp only [State.srefClearAll]; (repeat' split) <;> simp)

@[simp] theorem State.whistleOn_frame (s : State) (w : Whistle) (ps : List Nat) (fd : Followed) : (State.whistleOn s w
    ps).rd fd = s.rd fd := by
  first | (simp [State.whistleOn]; done) | (simp only [State.whistleOn]; (repeat' split) <;> simp)

@[simp] theorem State.whistleSend_frame (s : State) (w : Whistle) (fd : Followed) : (State.whistleSend s w).rd fd =
    s.rd fd := by
  first | (simp [State.whistleSend]; done) | (simp only [State.whistleSend]; (repeat' split) <;> simp)

@[simp] theorem State.whistleCalled_frame (s : State) (w : Whistle) (fd : Followed) : (State.whistleCalled s w).rd fd
    = s.rd fd := by
  first | (simp [State.whistleCalled]; done) | (simp only [State.whistleCalled]; (repeat' split) <;> simp)

@[simp] theorem State.keepCue_frame (cue : Nat) (t : Nat) (n : Nat) (s : State) (fd : Followed) : (State.keepCue cue t
    n s).rd fd = s.rd fd := by
  first | (simp [State.keepCue]; done) | (simp only [State.keepCue]; (repeat' split) <;> simp)

@[simp] theorem State.whistleStart_frame (sh : Nat) (t : Nat) (n : Nat) (s : State) (fd : Followed) (h1 : fd ≠ .mode)
    (h2 : fd ≠ .dram) : (State.whistleStart sh t n s).rd fd = s.rd fd := by
  first | (simp [h1, h2, State.whistleStart]; done) | (simp only [State.whistleStart]; (repeat' split) <;> simp [h1, h2])

@[simp] theorem State.deliverTo_frame (s : State) (kind : Nat) (sh : Nat) (t : Nat) (cue : Nat) (ns : List Nat) (fd :
    Followed) (h1 : fd ≠ .mode) (h2 : fd ≠ .dram) : (State.deliverTo s kind sh t cue ns).rd fd = s.rd fd := by
  first | (simp [h1, h2, State.deliverTo]; done) | (simp only [State.deliverTo]; (repeat' split) <;> simp [h1, h2])

@[simp] theorem State.deliver_frame (s : State) (kind : Nat) (sh : Nat) (t : Nat) (cue : Nat) (fd : Followed) (h1 : fd
    ≠ .mode) (h2 : fd ≠ .dram) : (State.deliver s kind sh t cue).rd fd = s.rd fd := by
  first | (simp [h1, h2, State.deliver]; done) | (simp only [State.deliver]; (repeat' split) <;> simp [h1, h2])

@[simp] theorem State.store_frame (s : State) (a : Nat) (v : Word) (fd : Followed) : (State.store s a v).rd fd = s.rd
    fd := by
  first | (simp [State.store]; done) | (simp only [State.store]; (repeat' split) <;> simp)

@[simp] theorem State.hostWrite_frame (s : State) (a : Nat) (v : Word) (k : State → State) (fd : Followed) (h1 : fd ≠
    .dram) (hk : ∀ x, (k x).rd fd = x.rd fd) : (State.hostWrite s a v k).rd fd = s.rd fd := by
  first | (simp [h1, hk, State.hostWrite]; done) | (simp only [State.hostWrite]; (repeat' split) <;> simp [h1, hk])

@[simp] theorem State.writeCompl_frame (s : State) (q : Nat) (o : Compl) (fd : Followed) (h1 : fd ≠ .hostMem) :
    (State.writeCompl s q o).rd fd = s.rd fd := by
  first | (simp [h1, State.writeCompl]; done) | (simp only [State.writeCompl]; (repeat' split) <;> simp [h1])

@[simp] theorem State.complNext_frame (s : State) (q : Nat) (fd : Followed) (h1 : fd ≠ .hostMem) : (State.complNext s
    q).rd fd = s.rd fd := by
  first | (simp [h1, State.complNext]; done) | (simp only [State.complNext]; (repeat' split) <;> simp [h1])

@[simp] theorem State.actWaitDone_frame (s : State) (q : Nat) (fd : Followed) : (State.actWaitDone s q).rd fd = s.rd
    fd := by
  first | (simp [State.actWaitDone]; done) | (simp only [State.actWaitDone]; (repeat' split) <;> simp)

@[simp] theorem State.actStartDone_frame (s : State) (q : Nat) (fd : Followed) : (State.actStartDone s q).rd fd = s.rd
    fd := by
  first | (simp [State.actStartDone]; done) | (simp only [State.actStartDone]; (repeat' split) <;> simp)

@[simp] theorem State.startHead_frame (s : State) (q : Nat) (fd : Followed) : (State.startHead s q).rd fd = s.rd fd :=
    by
  first | (simp [State.startHead]; done) | (simp only [State.startHead]; (repeat' split) <;> simp)

@[simp] theorem State.apgStep_frame (s : State) (n : Nat) (w : Nat) (fd : Followed) : (State.apgStep s n w).rd fd =
    s.rd fd := by
  first | (simp [State.apgStep]; done) | (simp only [State.apgStep]; (repeat' split) <;> simp)

@[simp] theorem State.rmop_frame (s : State) (n : Nat) (op : Nat) (fd : Followed) : (State.rmop s n op).rd fd = s.rd
    fd := by
  first | (simp [State.rmop]; done) | (simp only [State.rmop]; (repeat' split) <;> simp)

@[simp] theorem State.issueVec_frame (s : State) (n : Nat) (w : Nat) (blk : Nat) (trial : Option Nat) (fd : Followed)
    : (State.issueVec s n w blk trial).rd fd = s.rd fd := by
  first | (simp [State.issueVec]; done) | (simp only [State.issueVec]; (repeat' split) <;> simp)

@[simp] theorem State.faultStop_frame (s : State) (n : Nat) (reason : Nat) (fd : Followed) : (State.faultStop s n
    reason).rd fd = s.rd fd := by
  first | (simp [State.faultStop]; done) | (simp only [State.faultStop]; (repeat' split) <;> simp)

@[simp] theorem State.goto_frame (s : State) (n : Nat) (pc : Nat) (fd : Followed) : (State.goto s n pc).rd fd = s.rd
    fd := by
  first | (simp [State.goto]; done) | (simp only [State.goto]; (repeat' split) <;> simp)

theorem State.pfStep_frame (s t : State) (n : Nat) (h : s.pfStep n = some t) (fd : Followed) :
    t.rd fd = s.rd fd := by
  simp only [State.pfStep] at h
  (repeat' split at h) <;> first | contradiction | (injection h with h; subst h; simp)


@[simp] theorem State.pfRun_frame (n : Nat) (x1 : Nat) (x2 : State) (fd : Followed) : (State.pfRun n x1 x2).rd fd =
    x2.rd fd := by
  fun_induction State.pfRun n x1 x2 with
  | case1 => simp
  | case2 => simp
  | case3 k s t h ih => have h2 := State.pfStep_frame _ _ _ h fd; simp_all

@[simp] theorem State.pfResume_frame (s : State) (n : Nat) (fd : Followed) : (State.pfResume s n).rd fd = s.rd fd :=
    by
  first | (simp [State.pfResume]; done) | (simp only [State.pfResume]; (repeat' split) <;> simp)

@[simp] theorem State.condDone_frame (s : State) (n : Nat) (fd : Followed) : (State.condDone s n).rd fd = s.rd fd :=
    by
  first | (simp [State.condDone]; done) | (simp only [State.condDone]; (repeat' split) <;> simp)

@[simp] theorem State.issue_frame (s : State) (n : Nat) (w : Nat) (blk : Nat) (trial : Option Nat) (fd : Followed) :
    (State.issue s n w blk trial).rd fd = s.rd fd := by
  first | (simp [State.issue]; done) | (simp only [State.issue]; (repeat' split) <;> simp)

@[simp] theorem State.oneVector_frame (s : State) (n : Nat) (w : Nat) (fd : Followed) : (State.oneVector s n w).rd fd
    = s.rd fd := by
  first | (simp [State.oneVector]; done) | (simp only [State.oneVector]; (repeat' split) <;> simp)

@[simp] theorem State.repeatGo_frame (n : Nat) (w : Nat) (x1 : Nat) (x2 : State) (fd : Followed) : (State.repeatGo n w
    x1 x2).rd fd = x2.rd fd := by
  fun_induction State.repeatGo n w x1 x2 <;> simp_all +zetaDelta

@[simp] theorem State.branchTo_frame (s : State) (n : Nat) (w : Nat) (fd : Followed) : (State.branchTo s n w).rd fd =
    s.rd fd := by
  first | (simp [State.branchTo]; done) | (simp only [State.branchTo]; (repeat' split) <;> simp)

@[simp] theorem State.endMicro_frame (s : State) (n : Nat) (w : Nat) (fd : Followed) : (State.endMicro s n w).rd fd =
    s.rd fd := by
  first | (simp [State.endMicro]; done) | (simp only [State.endMicro]; (repeat' split) <;> simp)

@[simp] theorem State.matchGo_frame (n : Nat) (w : Nat) (x1 : Nat) (x2 : State) (fd : Followed) : (State.matchGo n w
    x1 x2).rd fd = x2.rd fd := by
  fun_induction State.matchGo n w x1 x2 <;> simp_all +zetaDelta

@[simp] theorem State.benchSet_frame (s : State) (n : Nat) (rings : BitVec 64) (fd : Followed) : (State.benchSet s n
    rings).rd fd = s.rd fd := by
  first | (simp [State.benchSet]; done) | (simp only [State.benchSet]; (repeat' split) <;> simp)

@[simp] theorem State.benchRings_frame (s : State) (n : Nat) (rings : BitVec 64) (F : Nat) (fd : Followed) :
    (State.benchRings s n rings F).rd fd = s.rd fd := by
  first | (simp [State.benchRings]; done) | (simp only [State.benchRings]; (repeat' split) <;> simp)

@[simp] theorem State.matchGiveUp_frame (s : State) (n : Nat) (left : BitVec 64) (last : Nat) (bench : Bool) (fd :
    Followed) (h1 : fd ≠ .dram) : (State.matchGiveUp s n left last bench).rd fd = s.rd fd := by
  first | (simp [h1, State.matchGiveUp]; done) | (simp only [State.matchGiveUp]; (repeat' split) <;> simp [h1])

@[simp] theorem State.waitLate_frame (s : State) (n : Nat) (w : Nat) (fd : Followed) (h1 : fd ≠ .dram) :
    (State.waitLate s n w).rd fd = s.rd fd := by
  first | (simp [h1, State.waitLate]; done) | (simp only [State.waitLate]; (repeat' split) <;> simp [h1])

@[simp] theorem State.waitTimeGo_frame (n : Nat) (w : Nat) (x1 : Nat) (x2 : State) (fd : Followed) : (State.waitTimeGo
    n w x1 x2).rd fd = x2.rd fd := by
  fun_induction State.waitTimeGo n w x1 x2 <;> simp_all +zetaDelta

@[simp] theorem State.takeCue_frame (s : State) (n : Nat) (w : Nat) (t : Nat) (first : Nat) (fd : Followed) (h1 : fd ≠
    .dram) : (State.takeCue s n w t first).rd fd = s.rd fd := by
  first | (simp [h1, State.takeCue]; done) | (simp only [State.takeCue]; (repeat' split) <;> simp [h1])

@[simp] theorem State.waitCueGo_frame (n : Nat) (w : Nat) (x1 : Nat) (x2 : State) (fd : Followed) (h1 : fd ≠ .dram) :
    (State.waitCueGo n w x1 x2).rd fd = x2.rd fd := by
  fun_induction State.waitCueGo n w x1 x2 <;> simp_all +zetaDelta

@[simp] theorem State.pfArrived_frame (s : State) (n : Nat) (i : Nat) (fd : Followed) : (State.pfArrived s n i).rd fd
    = s.rd fd := by
  first | (simp [State.pfArrived]; done) | (simp only [State.pfArrived]; (repeat' split) <;> simp)

@[simp] theorem State.blockGo_frame (n : Nat) (w : Nat) (rec : Nat) (bad : Option Nat) (nvec : Nat) (x1 : Nat) (x2 :
    State) (fd : Followed) : (State.blockGo n w rec bad nvec x1 x2).rd fd = x2.rd fd := by
  fun_induction State.blockGo n w rec bad nvec x1 x2 <;> simp_all +zetaDelta

@[simp] theorem State.countPin_frame (s : State) (c : Nat) (fd : Followed) : (State.countPin s c).rd fd = s.rd fd :=
    by
  first | (simp [State.countPin]; done) | (simp only [State.countPin]; (repeat' split) <;> simp)

@[simp] theorem State.firstFail_frame (s : State) (g : Nat) (v : Vec) (fs : List FailCmp) (fd : Followed) :
    (State.firstFail s g v fs).rd fd = s.rd fd := by
  first | (simp [State.firstFail]; done) | (simp only [State.firstFail]; (repeat' split) <;> simp)

@[simp] theorem State.benchByFail_frame (s : State) (n : Nat) (g : Nat) (F : Nat) (fd : Followed) : (State.benchByFail
    s n g F).rd fd = s.rd fd := by
  first | (simp [State.benchByFail]; done) | (simp only [State.benchByFail]; (repeat' split) <;> simp)

@[simp] theorem State.ringWhistle_frame (s : State) (n : Nat) (g : Nat) (F : Nat) (kind : Nat) (stops : Bool) (fd :
    Followed) (h1 : fd ≠ .mode) (h2 : fd ≠ .dram) : (State.ringWhistle s n g F kind stops).rd fd = s.rd fd := by
  first | (simp [h1, h2, State.ringWhistle]; done) | (simp only [State.ringWhistle]; (repeat' split) <;> simp [h1, h2])

@[simp] theorem State.ringAction_frame (s : State) (n : Nat) (g : Nat) (F : Nat) (fd : Followed) (h1 : fd ≠ .mode) (h2
    : fd ≠ .dram) : (State.ringAction s n g F).1.rd fd = s.rd fd := by
  first | (simp [h1, h2, State.ringAction]; done) | (simp only [State.ringAction]; (repeat' split) <;> simp [h1, h2])

@[simp] theorem State.drainLog_frame (s : State) (t : Nat) (fd : Followed) : (State.drainLog s t).rd fd = s.rd fd :=
    by
  first | (simp [State.drainLog]; done) | (simp only [State.drainLog]; (repeat' split) <;> simp)

@[simp] theorem State.logWrite_frame (s : State) (g : Nat) (v : Vec) (fs : List FailCmp) (idx : Nat) (msk : List Byte)
    (first : Bool) (acted : Bool) (unmapped : Bool) (fd : Followed) (h1 : fd ≠ .dram) : (State.logWrite s g v fs idx
    msk first acted unmapped).rd fd = s.rd fd := by
  first | (simp [h1, State.logWrite]; done) | (simp only [State.logWrite]; (repeat' split) <;> simp [h1])

@[simp] theorem State.logDrop_frame (s : State) (g : Nat) (fd : Followed) : (State.logDrop s g).rd fd = s.rd fd := by
  first | (simp [State.logDrop]; done) | (simp only [State.logDrop]; (repeat' split) <;> simp)

@[simp] theorem State.logFail_frame (s : State) (g : Nat) (v : Vec) (fs : List FailCmp) (first : Bool) (acted : Bool)
    (unmapped : Bool) (fd : Followed) (h1 : fd ≠ .dram) : (State.logFail s g v fs first acted unmapped).rd fd = s.rd
    fd := by
  first | (simp [h1, State.logFail]; done) | (simp only [State.logFail]; (repeat' split) <;> simp [h1])

@[simp] theorem State.setDramBit_frame (s : State) (a : Nat) (i : Nat) (b : Bool) (fd : Followed) (h1 : fd ≠ .dram) :
    (State.setDramBit s a i b).rd fd = s.rd fd := by
  first | (simp [h1, State.setDramBit]; done) | (simp only [State.setDramBit]; (repeat' split) <;> simp [h1])

@[simp] theorem State.setCell_frame (s : State) (g : Nat) (idx : Nat) (fd : Followed) (h1 : fd ≠ .dram) :
    (State.setCell s g idx).rd fd = s.rd fd := by
  first | (simp [h1, State.setCell]; done) | (simp only [State.setCell]; (repeat' split) <;> simp [h1])

@[simp] theorem State.mapFails_frame (s : State) (n : Nat) (g : Nat) (v : Vec) (fs : List FailCmp) (fd : Followed) (h1
    : fd ≠ .dram) : (State.mapFails s n g v fs).rd fd = s.rd fd := by
  refine foldl_frame _ _ _ _ (fun s f => ?_)
  split <;> simp [h1]

@[simp] theorem State.clearMap_frame (s : State) (g : Nat) (fd : Followed) (h1 : fd ≠ .dram) : (State.clearMap s g).rd
    fd = s.rd fd := by
  first | (simp [h1, State.clearMap]; done) | (simp only [State.clearMap]; (repeat' split) <;> simp [h1])

@[simp] theorem State.clearRing_frame (s : State) (g : Nat) (fd : Followed) (h1 : fd ≠ .dram) : (State.clearRing s
    g).rd fd = s.rd fd := by
  first | (simp [h1, State.clearRing]; done) | (simp only [State.clearRing]; (repeat' split) <;> simp [h1])

@[simp] theorem State.setDesc_frame (s : State) (q : Nat) (d : RqDesc) (fd : Followed) : (State.setDesc s q d).rd fd =
    s.rd fd := by
  first | (simp [State.setDesc]; done) | (simp only [State.setDesc]; (repeat' split) <;> simp)

@[simp] theorem State.putEntries_frame (s : State) (q : Nat) (es : List RqEntry) (fd : Followed) (h1 : fd ≠ .dram) :
    (State.putEntries s q es).rd fd = s.rd fd := by
  first | (simp [h1, State.putEntries]; done) | (simp only [State.putEntries]; (repeat' split) <;> simp [h1])

@[simp] theorem State.applyPush_frame (s : State) (p : Push) (fd : Followed) (h1 : fd ≠ .dram) : (State.applyPush s
    p).rd fd = s.rd fd := by
  first | (simp [h1, State.applyPush]; done) | (simp only [State.applyPush]; (repeat' split) <;> simp [h1])

@[simp] theorem State.backlogLevel_frame (s : State) (fd : Followed) (h1 : fd ≠ .dram) : (State.backlogLevel s).rd fd
    = s.rd fd := by
  first | (simp [h1, State.backlogLevel]; done) | (simp only [State.backlogLevel]; (repeat' split) <;> simp [h1])

@[simp] theorem State.spillBytes_frame (s : State) (fd : Followed) (h1 : fd ≠ .dram) : (State.spillBytes s).rd fd =
    s.rd fd := by
  first | (simp [h1, State.spillBytes]; done) | (simp only [State.spillBytes]; (repeat' split) <;> simp [h1])

@[simp] theorem State.spillGo_frame (x1 : Nat) (x2 : State) (fd : Followed) (h1 : fd ≠ .dram) : (State.spillGo x1
    x2).rd fd = x2.rd fd := by
  fun_induction State.spillGo x1 x2 <;> simp_all +zetaDelta

@[simp] theorem State.spillTo_frame (s : State) (t : Nat) (fd : Followed) (h1 : fd ≠ .dram) : (State.spillTo s t).rd
    fd = s.rd fd := by
  first | (simp [h1, State.spillTo]; done) | (simp only [State.spillTo]; (repeat' split) <;> simp [h1])

@[simp] theorem State.losePush_frame (s : State) (n : Nat) (p : Push) (fd : Followed) (h1 : fd ≠ .dram) :
    (State.losePush s n p).rd fd = s.rd fd := by
  first | (simp [h1, State.losePush]; done) | (simp only [State.losePush]; (repeat' split) <;> simp [h1])

@[simp] theorem State.enterPush_frame (s : State) (n : Nat) (p : Push) (fd : Followed) (h1 : fd ≠ .dram) :
    (State.enterPush s n p).rd fd = s.rd fd := by
  first | (simp [h1, State.enterPush]; done) | (simp only [State.enterPush]; (repeat' split) <;> simp [h1])

@[simp] theorem State.rqPush_frame (s : State) (n : Nat) (g : Nat) (v : Vec) (fs : List FailCmp) (fd : Followed) (h1 :
    fd ≠ .dram) : (State.rqPush s n g v fs).rd fd = s.rd fd := by
  first | (simp [h1, State.rqPush]; done) | (simp only [State.rqPush]; (repeat' split) <;> simp [h1])

@[simp] theorem State.spoilRegion_frame (s : State) (g : Nat) (q : Nat) (fd : Followed) : (State.spoilRegion s g q).rd
    fd = s.rd fd := by
  first | (simp [State.spoilRegion]; done) | (simp only [State.spoilRegion]; (repeat' split) <;> simp)

@[simp] theorem State.descEcc_frame (s : State) (q : Nat) (ecc : Ecc) (fd : Followed) (h1 : fd ≠ .dram) :
    (State.descEcc s q ecc).rd fd = s.rd fd := by
  first | (simp [h1, State.descEcc]; done) | (simp only [State.descEcc]; (repeat' split) <;> simp [h1])

@[simp] theorem State.meetUpset_frame (s : State) (e : Prod Nat Nat) (k : State → State) (fd : Followed) (h1 : fd ≠
    .dram) (hk : ∀ x, (k x).rd fd = x.rd fd) : (State.meetUpset s e k).rd fd = s.rd fd := by
  first | (simp [h1, hk, State.meetUpset]; done) | (simp only [State.meetUpset]; (repeat' split) <;> simp [h1, hk])

@[simp] theorem State.settleDesc_frame (s : State) (q : Nat) (fd : Followed) (h1 : fd ≠ .dram) : (State.settleDesc s
    q).rd fd = s.rd fd := by
  first | (simp [h1, State.settleDesc]; done) | (simp only [State.settleDesc]; (repeat' split) <;> simp [h1])

@[simp] theorem State.settleEntries_frame (s : State) (g : Nat) (q : Nat) (fd : Followed) (h1 : fd ≠ .dram) :
    (State.settleEntries s g q).rd fd = s.rd fd := by
  first | (simp [h1, State.settleEntries]; done) | (simp only [State.settleEntries]; (repeat' split) <;> simp [h1])

@[simp] theorem State.settle_frame (s : State) (g : Nat) (q : Nat) (fd : Followed) (h1 : fd ≠ .dram) : (State.settle s
    g q).rd fd = s.rd fd := by
  first | (simp [h1, State.settle]; done) | (simp only [State.settle]; (repeat' split) <;> simp [h1])

@[simp] theorem State.settleRing_frame (s : State) (g : Nat) (fd : Followed) (h1 : fd ≠ .dram) : (State.settleRing s
    g).rd fd = s.rd fd := by
  first | (simp [h1, State.settleRing]; done) | (simp only [State.settleRing]; (repeat' split) <;> simp [h1])

@[simp] theorem State.clearQueues_frame (s : State) (g : Nat) (fd : Followed) (h1 : fd ≠ .dram) : (State.clearQueues s
    g).rd fd = s.rd fd := by
  first | (simp [h1, State.clearQueues]; done) | (simp only [State.clearQueues]; (repeat' split) <;> simp [h1])

@[simp] theorem State.finalizeRegion_frame (s : State) (g : Nat) (q : Nat) (written : Bool) (fd : Followed) :
    (State.finalizeRegion s g q written).1.rd fd = s.rd fd := by
  first | (simp [State.finalizeRegion]; done) | (simp only [State.finalizeRegion]; (repeat' split) <;> simp)

@[simp] theorem State.finalizeGo_frame (g : Nat) (room : Nat) (x1 : List Nat) (x2 : Prod State (Prod (List (List
    Byte)) Nat)) (fd : Followed) : (State.finalizeGo g room x1 x2).1.rd fd = x2.1.rd fd := by
  fun_induction State.finalizeGo g room x1 x2 <;> simp_all +zetaDelta

@[simp] theorem State.finalizeReport_frame (s : State) (ring : Nat) (result : Nat) (records : Nat) (un : Nat) (fd :
    Followed) (h1 : fd ≠ .dram) : (State.finalizeReport s ring result records un).rd fd = s.rd fd := by
  first | (simp [h1, State.finalizeReport]; done) | (simp only [State.finalizeReport]; (repeat' split) <;> simp [h1])

@[simp] theorem State.finalizeEnd_frame (s : State) (f : RqFin) (qs : List Nat) (abandoned : Bool) (fd : Followed) (h1
    : fd ≠ .dram) : (State.finalizeEnd s f qs abandoned).rd fd = s.rd fd := by
  first | (simp [h1, State.finalizeEnd]; done) | (simp only [State.finalizeEnd]; (repeat' split) <;> simp [h1])

@[simp] theorem State.abandonFinalize_frame (s : State) (g : Nat) (fd : Followed) (h1 : fd ≠ .dram) :
    (State.abandonFinalize s g).rd fd = s.rd fd := by
  first | (simp [h1, State.abandonFinalize]; done) | (simp only [State.abandonFinalize]; (repeat' split) <;> simp [h1])

@[simp] theorem State.rqStart_frame (s : State) (g : Nat) (fd : Followed) (h1 : fd ≠ .dram) : (State.rqStart s g).rd
    fd = s.rd fd := by
  first | (simp [h1, State.rqStart]; done) | (simp only [State.rqStart]; (repeat' split) <;> simp [h1])

@[simp] theorem State.rqClearReq_frame (s : State) (g : Nat) (fd : Followed) (h1 : fd ≠ .dram) : (State.rqClearReq s
    g).rd fd = s.rd fd := by
  first | (simp [h1, State.rqClearReq]; done) | (simp only [State.rqClearReq]; (repeat' split) <;> simp [h1])

@[simp] theorem State.finalizeReq_frame (s : State) (g : Nat) (dirtyOnly : Bool) (fd : Followed) (h1 : fd ≠ .dram) :
    (State.finalizeReq s g dirtyOnly).rd fd = s.rd fd := by
  first | (simp [h1, State.finalizeReq]; done) | (simp only [State.finalizeReq]; (repeat' split) <;> simp [h1])

@[simp] theorem State.clearAllQueues_frame (s : State) (fd : Followed) (h1 : fd ≠ .dram) : (State.clearAllQueues s).rd
    fd = s.rd fd := by
  first | (simp [h1, State.clearAllQueues]; done) | (simp only [State.clearAllQueues]; (repeat' split) <;> simp [h1])

end Sys2Proof.Machine
end

