-- ==== Sys2Proof/Laws/FrameEngines.lean ====
section
/-! SUPPORT. What each operation leaves unchanged, of the engines: edge measurement, acquisition, calibration, the vectors at the pins, flash, fuses, modes. One lemma per operation, over
every followed field but those named in its hypotheses; `simp` rewrites with it. -/

namespace Sys2Proof.Machine

set_option linter.unusedTactic false
set_option linter.unreachableTactic false
set_option linter.unnecessarySeqFocus false
set_option linter.unusedSimpArgs false

@[simp] theorem State.roundTo_frame (s : State) (num : Int) (den : Nat) (fd : Followed) : (State.roundTo s num
    den).2.rd fd = s.rd fd := by
  first | (simp [State.roundTo]; done) | (simp only [State.roundTo]; (repeat' split) <;> simp)

@[simp] theorem State.sqrtTo_frame (s : State) (num : Nat) (den : Nat) (fd : Followed) : (State.sqrtTo s num den).2.rd
    fd = s.rd fd := by
  first | (simp [State.sqrtTo]; done) | (simp only [State.sqrtTo]; (repeat' split) <;> simp)

@[simp] theorem State.stamp_frame (s : State) (c : Nat) (low : Bool) (rise : Bool) (arr : Nat) (fd : Followed) :
    (State.stamp s c low rise arr).1.rd fd = s.rd fd := by
  first | (simp [State.stamp]; done) | (simp only [State.stamp]; (repeat' split) <;> simp)

@[simp] theorem State.unitsSee_frame (s : State) (n : Nat) (d : TdcSt) (rise : Bool) (stamp : Option Int) (t : Int)
    (fd : Followed) : (State.unitsSee s n d rise stamp t).rd fd = s.rd fd := by
  first | (simp [State.unitsSee]; done) | (simp only [State.unitsSee]; (repeat' split) <;> simp)

@[simp] theorem State.unitsCold_frame (s : State) (fd : Followed) : (State.unitsCold s).rd fd = s.rd fd := by
  first | (simp [State.unitsCold]; done) | (simp only [State.unitsCold]; (repeat' split) <;> simp)

@[simp] theorem State.unitElapse_frame (s : State) (c : Nat) (fd : Followed) (h1 : fd ≠ .time) : (State.unitElapse s
    c).rd fd = s.rd fd := by
  first | (simp [h1, State.unitElapse]; done) | (simp only [State.unitElapse]; (repeat' split) <;> simp [h1])

@[simp] theorem State.tdcBegin_frame (s : State) (c : Nat) (fd : Followed) : (State.tdcBegin s c).rd fd = s.rd fd :=
    by
  first | (simp [State.tdcBegin]; done) | (simp only [State.tdcBegin]; (repeat' split) <;> simp)

@[simp] theorem State.tdcStart_frame (s : State) (c : Nat) (fd : Followed) (h1 : fd ≠ .dram) : (State.tdcStart s c).rd
    fd = s.rd fd := by
  first | (simp [h1, State.tdcStart]; done) | (simp only [State.tdcStart]; (repeat' split) <;> simp [h1])

@[simp] theorem State.tdcAbort_frame (c : Nat) (s : State) (fd : Followed) : (State.tdcAbort c s).rd fd = s.rd fd :=
    by
  first | (simp [State.tdcAbort]; done) | (simp only [State.tdcAbort]; (repeat' split) <;> simp)

@[simp] theorem State.tdcAbortAll_frame (s : State) (fd : Followed) : (State.tdcAbortAll s).rd fd = s.rd fd := by
  first | (simp [State.tdcAbortAll]; done) | (simp only [State.tdcAbortAll]; (repeat' split) <;> simp)

@[simp] theorem State.tdcTake_frame (s : State) (fd : Followed) : (State.tdcTake s).rd fd = s.rd fd := by
  first | (simp [State.tdcTake]; done) | (simp only [State.tdcTake]; (repeat' split) <;> simp)

@[simp] theorem State.tdcRelease_frame (s : State) (fd : Followed) : (State.tdcRelease s).rd fd = s.rd fd := by
  first | (simp [State.tdcRelease]; done) | (simp only [State.tdcRelease]; (repeat' split) <;> simp)

@[simp] theorem State.tdcMark_frame (s : State) (n : Nat) (t : Nat) (fd : Followed) : (State.tdcMark s n t).rd fd =
    s.rd fd := by
  first | (simp [State.tdcMark]; done) | (simp only [State.tdcMark]; (repeat' split) <;> simp)

@[simp] theorem State.intValue_frame (s : State) (a : StopSum) (fd : Followed) : (State.intValue s a).2.2.rd fd = s.rd
    fd := by
  first | (simp [State.intValue]; done) | (simp only [State.intValue]; (repeat' split) <;> simp)

@[simp] theorem State.writeInts_frame (c : Nat) (x1 : List (Prod Nat StopSum)) (x2 : Prod State Bool) (fd : Followed)
    : (State.writeInts c x1 x2).1.rd fd = x2.1.rd fd := by
  fun_induction State.writeInts c x1 x2 <;> simp_all +zetaDelta

@[simp] theorem State.sdev_frame (s : State) (a : StopSum) (fd : Followed) : (State.sdev s a).2.rd fd = s.rd fd := by
  first | (simp [State.sdev]; done) | (simp only [State.sdev]; (repeat' split) <;> simp)

@[simp] theorem State.tdcDone_frame (s : State) (c : Nat) (fd : Followed) : (State.tdcDone s c).rd fd = s.rd fd := by
  first | (simp [State.tdcDone]; done) | (simp only [State.tdcDone]; (repeat' split) <;> simp)

@[simp] theorem State.tdcFlags_frame (s : State) (c : Nat) (u : TdcUnit) (overflow : Bool) (noSignal : Bool)
    (startValid : Bool) (stops : Nat) (fd : Followed) : (State.tdcFlags s c u overflow noSignal startValid stops).rd
    fd = s.rd fd := by
  first | (simp [State.tdcFlags]; done) | (simp only [State.tdcFlags]; (repeat' split) <;> simp)

@[simp] theorem State.tdcResult_frame (s : State) (c : Nat) (fd : Followed) : (State.tdcResult s c).rd fd = s.rd fd :=
    by
  first | (simp [State.tdcResult]; done) | (simp only [State.tdcResult]; (repeat' split) <;> simp)

@[simp] theorem State.freqFit_frame (s : State) (c : Nat) (u : TdcUnit) (fd : Followed) : (State.freqFit s c u).1.rd
    fd = s.rd fd := by
  first | (simp [State.freqFit]; done) | (simp only [State.freqFit]; (repeat' split) <;> simp)

@[simp] theorem State.freqFree_frame (s : State) (c : Nat) (fd : Followed) : (State.freqFree s c).1.rd fd = s.rd fd :=
    by
  first | (simp [State.freqFree]; done) | (simp only [State.freqFree]; (repeat' split) <;> simp)

@[simp] theorem State.freqResult_frame (s : State) (c : Nat) (fd : Followed) : (State.freqResult s c).rd fd = s.rd fd
    := by
  first | (simp [State.freqResult]; done) | (simp only [State.freqResult]; (repeat' split) <;> simp)

@[simp] theorem State.unitResult_frame (s : State) (c : Nat) (fd : Followed) : (State.unitResult s c).rd fd = s.rd fd
    := by
  first | (simp [State.unitResult]; done) | (simp only [State.unitResult]; (repeat' split) <;> simp)

@[simp] theorem State.ringPut_frame (s : State) (i : Nat) (x1 : List Byte) (fd : Followed) (h1 : fd ≠ .dram) :
    (State.ringPut s i x1).rd fd = s.rd fd := by
  fun_induction State.ringPut s i x1 <;> simp_all +zetaDelta

@[simp] theorem State.streamFill_frame (s : State) (i : Nat) (fd : Followed) : (State.streamFill s i).rd fd = s.rd fd
    := by
  first | (simp [State.streamFill]; done) | (simp only [State.streamFill]; (repeat' split) <;> simp)

@[simp] theorem State.placeRec_frame (s : State) (i : Nat) (r : StreamRec) (fd : Followed) (h1 : fd ≠ .dram) :
    (State.placeRec s i r).rd fd = s.rd fd := by
  first | (simp [h1, State.placeRec]; done) | (simp only [State.placeRec]; (repeat' split) <;> simp [h1])

@[simp] theorem State.closeGap_frame (s : State) (i : Nat) (fd : Followed) (h1 : fd ≠ .dram) : (State.closeGap s i).rd
    fd = s.rd fd := by
  first | (simp [h1, State.closeGap]; done) | (simp only [State.closeGap]; (repeat' split) <;> simp [h1])

@[simp] theorem State.loseRec_frame (s : State) (i : Nat) (r : StreamRec) (cause : Nat) (fd : Followed) (h1 : fd ≠
    .dram) : (State.loseRec s i r cause).rd fd = s.rd fd := by
  first | (simp [h1, State.loseRec]; done) | (simp only [State.loseRec]; (repeat' split) <;> simp [h1])

@[simp] theorem State.placeOrLose_frame (s : State) (i : Nat) (r : StreamRec) (fd : Followed) (h1 : fd ≠ .dram) :
    (State.placeOrLose s i r).rd fd = s.rd fd := by
  first | (simp [h1, State.placeOrLose]; done) | (simp only [State.placeOrLose]; (repeat' split) <;> simp [h1])

@[simp] theorem State.complete_frame (s : State) (i : Nat) (r : StreamRec) (fd : Followed) (h1 : fd ≠ .dram) :
    (State.complete s i r).rd fd = s.rd fd := by
  first | (simp [h1, State.complete]; done) | (simp only [State.complete]; (repeat' split) <;> simp [h1])

@[simp] theorem State.armWindow_frame (s : State) (i : Nat) (a : Nat) (src : Nat) (fd : Followed) : (State.armWindow s
    i a src).rd fd = s.rd fd := by
  first | (simp [State.armWindow]; done) | (simp only [State.armWindow]; (repeat' split) <;> simp)

@[simp] theorem State.trigMarks_frame (s : State) (k : Nat) (t : Nat) (flags : Nat) (act : Nat) (chan : Nat) (cycle :
    Nat) (fd : Followed) (h1 : fd ≠ .dram) : (State.trigMarks s k t flags act chan cycle).rd fd = s.rd fd := by
  first | (simp [h1, State.trigMarks]; done) | (simp only [State.trigMarks]; (repeat' split) <;> simp [h1])

@[simp] theorem State.seqMarks_frame (s : State) (n : Nat) (t : Nat) (value : Nat) (cycle : Nat) (fd : Followed) (h1 :
    fd ≠ .dram) : (State.seqMarks s n t value cycle).rd fd = s.rd fd := by
  first | (simp [h1, State.seqMarks]; done) | (simp only [State.seqMarks]; (repeat' split) <;> simp [h1])

@[simp] theorem State.closeStamps_frame (s : State) (i : Nat) (n : Nat) (fd : Followed) (h1 : fd ≠ .dram) :
    (State.closeStamps s i n).rd fd = s.rd fd := by
  first | (simp [h1, State.closeStamps]; done) | (simp only [State.closeStamps]; (repeat' split) <;> simp [h1])

@[simp] theorem State.redStamps_frame (s : State) (i : Nat) (n : Nat) (idx : Nat) (rise : Bool) (stamp : Option Int)
    (t : Int) (fd : Followed) (h1 : fd ≠ .dram) : (State.redStamps s i n idx rise stamp t).rd fd = s.rd fd := by
  first | (simp [h1, State.redStamps]; done) | (simp only [State.redStamps]; (repeat' split) <;> simp [h1])

@[simp] theorem State.redPhase_frame (s : State) (i : Nat) (n : Nat) (hist : Bool) (ph : Prod Nat (Prod Nat Nat)) (fd
    : Followed) : (State.redPhase s i n hist ph).rd fd = s.rd fd := by
  first | (simp [State.redPhase]; done) | (simp only [State.redPhase]; (repeat' split) <;> simp)

@[simp] theorem State.redStats_frame (s : State) (i : Nat) (n : Nat) (stamp : Option Int) (ph : Option (Prod Nat (Prod
    Nat Nat))) (fd : Followed) : (State.redStats s i n stamp ph).rd fd = s.rd fd := by
  first | (simp [State.redStats]; done) | (simp only [State.redStats]; (repeat' split) <;> simp)

@[simp] theorem State.reduce_frame (s : State) (i : Nat) (c : Nat) (low : Bool) (rise : Bool) (idx : Nat) (stamp :
    Option Int) (t : Int) (fd : Followed) (h1 : fd ≠ .dram) : (State.reduce s i c low rise idx stamp t).rd fd = s.rd
    fd := by
  first | (simp [h1, State.reduce]; done) | (simp only [State.reduce]; (repeat' split) <;> simp [h1])

@[simp] theorem State.sendResults_frame (s : State) (i : Nat) (d : Nat) (t1 : Nat) (rs : List StreamRec) (fd :
    Followed) (h1 : fd ≠ .dram) : (State.sendResults s i d t1 rs).rd fd = s.rd fd := by
  first | (simp [h1, State.sendResults]; done) | (simp only [State.sendResults]; (repeat' split) <;> simp [h1])

@[simp] theorem State.sendInterval_frame (s : State) (i : Nat) (d : Nat) (t0 : Nat) (t1 : Nat) (fd : Followed) (h1 :
    fd ≠ .dram) : (State.sendInterval s i d t0 t1).rd fd = s.rd fd := by
  first | (simp [h1, State.sendInterval]; done) | (simp only [State.sendInterval]; (repeat' split) <;> simp [h1])

@[simp] theorem State.streamsTake_frame (s : State) (c : Nat) (fd : Followed) : (State.streamsTake s c).rd fd = s.rd
    fd := by
  first | (simp [State.streamsTake]; done) | (simp only [State.streamsTake]; (repeat' split) <;> simp)

@[simp] theorem State.streamsRelease_frame (s : State) (c : Nat) (fd : Followed) : (State.streamsRelease s c).rd fd =
    s.rd fd := by
  first | (simp [State.streamsRelease]; done) | (simp only [State.streamsRelease]; (repeat' split) <;> simp)

@[simp] theorem State.windowSee_frame (s : State) (i : Nat) (c : Nat) (low : Bool) (rise : Bool) (idx : Nat) (stamp :
    Option Int) (t : Int) (fd : Followed) : (State.windowSee s i c low rise idx stamp t).rd fd = s.rd fd := by
  first | (simp [State.windowSee]; done) | (simp only [State.windowSee]; (repeat' split) <;> simp)

@[simp] theorem State.fines_frame (s : State) (num : Int) (den : Nat) (fd : Followed) : (State.fines s num den).2.rd
    fd = s.rd fd := by
  first | (simp [State.fines]; done) | (simp only [State.fines]; (repeat' split) <;> simp)

@[simp] theorem State.figs_frame (x1 : List (Option (Prod Int Nat))) (x2 : State) (fd : Followed) : (State.figs x1
    x2).2.rd fd = x2.rd fd := by
  fun_induction State.figs x1 x2 <;> simp_all +zetaDelta

@[simp] theorem State.recDuty_frame (s : State) (ok : Bool) (hi : Int) (tot : Int) (fd : Followed) : (State.recDuty s
    ok hi tot).2.rd fd = s.rd fd := by
  first | (simp [State.recDuty]; done) | (simp only [State.recDuty]; (repeat' split) <;> simp)

@[simp] theorem State.recordEntry_frame (s : State) (i : Nat) (c : Nat) (fd : Followed) : (State.recordEntry s i
    c).2.rd fd = s.rd fd := by
  first | (simp [State.recordEntry]; done) | (simp only [State.recordEntry]; (repeat' split) <;> simp)

@[simp] theorem State.recordEntries_frame (i : Nat) (x1 : List Nat) (x2 : Prod (List Byte) State) (fd : Followed) :
    (State.recordEntries i x1 x2).2.rd fd = x2.2.rd fd := by
  fun_induction State.recordEntries i x1 x2 <;> simp_all +zetaDelta

@[simp] theorem State.closeWindow_frame (s : State) (i : Nat) (fd : Followed) (h1 : fd ≠ .dram) : (State.closeWindow s
    i).rd fd = s.rd fd := by
  first | (simp [h1, State.closeWindow]; done) | (simp only [State.closeWindow]; (repeat' split) <;> simp [h1])

@[simp] theorem State.streamRefuse_frame (s : State) (i : Nat) (reason : Nat) (fd : Followed) : (State.streamRefuse s
    i reason).rd fd = s.rd fd := by
  first | (simp [State.streamRefuse]; done) | (simp only [State.streamRefuse]; (repeat' split) <;> simp)

@[simp] theorem State.streamStart_frame (s : State) (i : Nat) (fd : Followed) : (State.streamStart s i).rd fd = s.rd
    fd := by
  first | (simp [State.streamStart]; done) | (simp only [State.streamStart]; (repeat' split) <;> simp)

@[simp] theorem State.streamEnable_frame (s : State) (i : Nat) (fd : Followed) (h1 : fd ≠ .dram) : (State.streamEnable
    s i).rd fd = s.rd fd := by
  first | (simp [h1, State.streamEnable]; done) | (simp only [State.streamEnable]; (repeat' split) <;> simp [h1])

@[simp] theorem State.placeWaiting_frame (i : Nat) (x1 : Nat) (x2 : State) (fd : Followed) (h1 : fd ≠ .dram) :
    (State.placeWaiting i x1 x2).rd fd = x2.rd fd := by
  fun_induction State.placeWaiting i x1 x2 <;> simp_all +zetaDelta

@[simp] theorem State.streamDisable_frame (i : Nat) (s : State) (fd : Followed) (h1 : fd ≠ .dram) :
    (State.streamDisable i s).rd fd = s.rd fd := by
  first | (simp [h1, State.streamDisable]; done) | (simp only [State.streamDisable]; (repeat' split) <;> simp [h1])

@[simp] theorem State.streamsDisable_frame (s : State) (fd : Followed) (h1 : fd ≠ .dram) : (State.streamsDisable s).rd
    fd = s.rd fd := by
  first | (simp [h1, State.streamsDisable]; done) | (simp only [State.streamsDisable]; (repeat' split) <;> simp [h1])

@[simp] theorem State.streamsEnd_frame (s : State) (fd : Followed) : (State.streamsEnd s).rd fd = s.rd fd := by
  first | (simp [State.streamsEnd]; done) | (simp only [State.streamsEnd]; (repeat' split) <;> simp)

@[simp] theorem State.streamCopy_frame (s : State) (i : Nat) (ecc : Ecc) (fd : Followed) (h1 : fd ≠ .dram) (h2 : fd ≠
    .hostMem) : (State.streamCopy s i ecc).rd fd = s.rd fd := by
  first | (simp [h1, h2, State.streamCopy]; done) | (simp only [State.streamCopy]; (repeat' split) <;> simp [h1, h2])

@[simp] theorem State.trigReset_frame (s : State) (k : Nat) (fd : Followed) : (State.trigReset s k).rd fd = s.rd fd :=
    by
  first | (simp [State.trigReset]; done) | (simp only [State.trigReset]; (repeat' split) <;> simp)

@[simp] theorem State.trigDisarm_frame (k : Nat) (s : State) (fd : Followed) : (State.trigDisarm k s).rd fd = s.rd fd
    := by
  first | (simp [State.trigDisarm]; done) | (simp only [State.trigDisarm]; (repeat' split) <;> simp)

@[simp] theorem State.trigDisarmAll_frame (s : State) (fd : Followed) : (State.trigDisarmAll s).rd fd = s.rd fd := by
  first | (simp [State.trigDisarmAll]; done) | (simp only [State.trigDisarmAll]; (repeat' split) <;> simp)

@[simp] theorem State.trigRefuse_frame (s : State) (k : Nat) (reason : Nat) (fd : Followed) : (State.trigRefuse s k
    reason).rd fd = s.rd fd := by
  first | (simp [State.trigRefuse]; done) | (simp only [State.trigRefuse]; (repeat' split) <;> simp)

@[simp] theorem State.trigArm_frame (s : State) (k : Nat) (fd : Followed) : (State.trigArm s k).rd fd = s.rd fd := by
  first | (simp [State.trigArm]; done) | (simp only [State.trigArm]; (repeat' split) <;> simp)

@[simp] theorem State.trigTime_frame (s : State) (k : Nat) (c : Nat) (rise : Bool) (tL : Option Int) (tH : Option Int)
    (sample : Int) (fd : Followed) : (State.trigTime s k c rise tL tH sample).2.2.rd fd = s.rd fd := by
  first | (simp [State.trigTime]; done) | (simp only [State.trigTime]; (repeat' split) <;> simp)

@[simp] theorem State.trigFire_frame (s : State) (k : Nat) (j : Nat) (n : Nat) (xs : List (Prod Nat Nat)) (t : Int)
    (cyc : Nat) (fd : Followed) (h1 : fd ≠ .dram) : (State.trigFire s k j n xs t cyc).rd fd = s.rd fd := by
  first | (simp [h1, State.trigFire]; done) | (simp only [State.trigFire]; (repeat' split) <;> simp [h1])

@[simp] theorem State.stageLimit_frame (s : State) (k : Nat) (t : Int) (fd : Followed) : (State.stageLimit s k t).rd
    fd = s.rd fd := by
  first | (simp [State.stageLimit]; done) | (simp only [State.stageLimit]; (repeat' split) <;> simp)

@[simp] theorem State.trigSample_frame (s : State) (k : Nat) (n : Nat) (xs : List (Prod Nat Nat)) (ts : List (Prod Nat
    Int)) (cyc : Nat) (fd : Followed) (h1 : fd ≠ .dram) : (State.trigSample s k n xs ts cyc).rd fd = s.rd fd := by
  first | (simp [h1, State.trigSample]; done) | (simp only [State.trigSample]; (repeat' split) <;> simp [h1])

@[simp] theorem State.trigVector_frame (s : State) (n : Nat) (f : Flight) (fd : Followed) (h1 : fd ≠ .dram) :
    (State.trigVector s n f).rd fd = s.rd fd := by
  unfold State.trigVector
  have h : ∀ (s : State) (k u : Nat) (xs : List (Nat × Nat)) (t : List (Nat × Int)) (c : Nat),
      (s.trigSample k u xs t c).rd fd = s.rd fd := fun s k u xs t c => State.trigSample_frame s k u xs t c fd h1
  simp [h]

@[simp] theorem State.trigsSee_frame (s : State) (c : Nat) (low : Bool) (rise : Bool) (stamp : Option Int) (t : Int)
    (fd : Followed) : (State.trigsSee s c low rise stamp t).rd fd = s.rd fd := by
  first | (simp [State.trigsSee]; done) | (simp only [State.trigsSee]; (repeat' split) <;> simp)

@[simp] theorem State.passedCycle_frame (s : State) (n : Nat) (fd : Followed) : (State.passedCycle s n).2.rd fd = s.rd
    fd := by
  first | (simp [State.passedCycle]; done) | (simp only [State.passedCycle]; (repeat' split) <;> simp)

@[simp] theorem State.pushTiles_frame (g : Nat) (i : Nat) (final : Bool) (cyc : Nat) (x1 : List Nat) (x2 : State) (fd
    : Followed) (h1 : fd ≠ .dram) : (State.pushTiles g i final cyc x1 x2).rd fd = x2.rd fd := by
  fun_induction State.pushTiles g i final cyc x1 x2 <;> simp_all +zetaDelta

@[simp] theorem State.tilePushEnd_frame (s : State) (g : Nat) (fd : Followed) (h1 : fd ≠ .dram) : (State.tilePushEnd s
    g).rd fd = s.rd fd := by
  first | (simp [h1, State.tilePushEnd]; done) | (simp only [State.tilePushEnd]; (repeat' split) <;> simp [h1])

@[simp] theorem State.trkConfig_frame (s : State) (n : Nat) (fd : Followed) (h1 : fd ≠ .dram) : (State.trkConfig s
    n).rd fd = s.rd fd := by
  first | (simp [h1, State.trkConfig]; done) | (simp only [State.trkConfig]; (repeat' split) <;> simp [h1])

@[simp] theorem State.strobeSym_frame (s : State) (st : Nat) (ui : Nat) (t : Nat) (sym : Nat) (fd : Followed) :
    (State.strobeSym s st ui t sym).rd fd = s.rd fd := by
  first | (simp [State.strobeSym]; done) | (simp only [State.strobeSym]; (repeat' split) <;> simp)

@[simp] theorem State.strobeVector_frame (s : State) (n : Nat) (st : Nat) (v : Vec) (syms : List Nat) (fd : Followed)
    : (State.strobeVector s n st v syms).rd fd = s.rd fd := by
  first | (simp [State.strobeVector]; done) | (simp only [State.strobeVector]; (repeat' split) <;> simp)

@[simp] theorem State.stray_frame (s : State) (st : Nat) (fd : Followed) (h1 : fd ≠ .dram) : (State.stray s st).rd fd
    = s.rd fd := by
  first | (simp [h1, State.stray]; done) | (simp only [State.stray]; (repeat' split) <;> simp [h1])

@[simp] theorem State.strobeEdge_frame (s : State) (n : Nat) (st : Nat) (lvl : Bool) (t : Nat) (fd : Followed) (h1 :
    fd ≠ .dram) : (State.strobeEdge s n st lvl t).rd fd = s.rd fd := by
  first | (simp [h1, State.strobeEdge]; done) | (simp only [State.strobeEdge]; (repeat' split) <;> simp [h1])

@[simp] theorem State.strobeSee_frame (s : State) (c : Nat) (t : Nat) (fd : Followed) (h1 : fd ≠ .dram) :
    (State.strobeSee s c t).rd fd = s.rd fd := by
  first | (simp [h1, State.strobeSee]; done) | (simp only [State.strobeSee]; (repeat' split) <;> simp [h1])

@[simp] theorem State.dropBursts_frame (s : State) (st : Nat) (ui : Nat) (fd : Followed) : (State.dropBursts s st
    ui).rd fd = s.rd fd := by
  first | (simp [State.dropBursts]; done) | (simp only [State.dropBursts]; (repeat' split) <;> simp)

@[simp] theorem State.ask_frame (s : State) (d : Nat) (t : Nat) (what : Nat) (fd : Followed) : (State.ask s d t
    what).rd fd = s.rd fd := by
  first | (simp [State.ask]; done) | (simp only [State.ask]; (repeat' split) <;> simp)

@[simp] theorem State.unask_frame (s : State) (d : Nat) (what : Nat) (fd : Followed) : (State.unask s d what).rd fd =
    s.rd fd := by
  first | (simp [State.unask]; done) | (simp only [State.unask]; (repeat' split) <;> simp)

@[simp] theorem State.engineTurn_frame (s : State) (d : Nat) (fd : Followed) : (State.engineTurn s d).rd fd = s.rd fd
    := by
  first | (simp [State.engineTurn]; done) | (simp only [State.engineTurn]; (repeat' split) <;> simp)

@[simp] theorem State.roundLow_frame (s : State) (num : Nat) (den : Nat) (fd : Followed) : (State.roundLow s num
    den).2.rd fd = s.rd fd := by
  first | (simp [State.roundLow]; done) | (simp only [State.roundLow]; (repeat' split) <;> simp)

@[simp] theorem State.roundMag_frame (s : State) (num : Int) (den : Nat) (fd : Followed) : (State.roundMag s num
    den).2.rd fd = s.rd fd := by
  first | (simp [State.roundMag]; done) | (simp only [State.roundMag]; (repeat' split) <;> simp)

@[simp] theorem State.sqrtLow_frame (s : State) (num : Nat) (den : Nat) (fd : Followed) : (State.sqrtLow s num
    den).2.rd fd = s.rd fd := by
  first | (simp [State.sqrtLow]; done) | (simp only [State.sqrtLow]; (repeat' split) <;> simp)

@[simp] theorem State.stageBank_frame (s : State) (c : Nat) (k : Coef) (fd : Followed) : (State.stageBank s c k).rd fd
    = s.rd fd := by
  first | (simp [State.stageBank]; done) | (simp only [State.stageBank]; (repeat' split) <;> simp)

@[simp] theorem State.thrDelta_frame (s : State) (d : Nat) (m : ThrMeas) (fd : Followed) : (State.thrDelta s d m).2.rd
    fd = s.rd fd := by
  first | (simp [State.thrDelta]; done) | (simp only [State.thrDelta]; (repeat' split) <;> simp)

@[simp] theorem State.iofsOf_frame (s : State) (xs : List (Prod Nat Int)) (j : Nat) (fd : Followed) : (State.iofsOf s
    xs j).2.rd fd = s.rd fd := by
  first | (simp [State.iofsOf]; done) | (simp only [State.iofsOf]; (repeat' split) <;> simp)

@[simp] theorem State.gather_frame {α : Type} (f : α → State → Int × State) (xs : List α) (s : State) (fd : Followed)
    (hk : ∀ x s, (f x s).2.rd fd = s.rd fd) : (State.gather f xs s).2.rd fd = s.rd fd := by
  induction xs generalizing s with
  | nil => rfl
  | cons x xs ih => simp [State.gather, ih, hk]

@[simp] theorem State.residuals_frame (s : State) (c : Nat) (z : Stamps) (fd : Followed) : (State.residuals s c
    z).2.rd fd = s.rd fd := by
  first | (simp [State.residuals]; done) | (simp only [State.residuals]; (repeat' split) <;> simp)

@[simp] theorem State.derive_frame (s : State) (c : Nat) (k : Coef) (m : ChanMeas) (fd : Followed) : (State.derive s c
    k m).2.rd fd = s.rd fd := by
  first | (simp [State.derive]; done) | (simp only [State.derive]; (repeat' split) <;> simp)

@[simp] theorem State.dacResid_frame (s : State) (c : Nat) (m : ChanMeas) (i : Nat) (fd : Followed) : (State.dacResid
    s c m i).2.rd fd = s.rd fd := by
  first | (simp [State.dacResid]; done) | (simp only [State.dacResid]; (repeat' split) <;> simp)

@[simp] theorem State.liveOffsets_frame (s : State) (c : Nat) (m : ChanMeas) (fd : Followed) : (State.liveOffsets s c
    m).2.rd fd = s.rd fd := by
  first | (simp [State.liveOffsets]; done) | (simp only [State.liveOffsets]; (repeat' split) <;> simp)

@[simp] theorem State.dacFit_frame (s : State) (d : ChanDac) (p : Prod (List Int) (List Int)) (fd : Followed) :
    (State.dacFit s d p).2.rd fd = s.rd fd := by
  first | (simp [State.dacFit]; done) | (simp only [State.dacFit]; (repeat' split) <;> simp)

@[simp] theorem State.dacFits_frame (f : FullMeas) (x1 : List Nat) (x2 : State) (fd : Followed) : (State.dacFits f x1
    x2).2.rd fd = x2.rd fd := by
  fun_induction State.dacFits f x1 x2 <;> simp_all +zetaDelta

@[simp] theorem State.adopt_frame (s : State) (g : Nat) (x : Derived) (ds : List Int) (hits : List (List Nat)) (tables
    : List (List Nat)) (k : Coef) (fd : Followed) : (State.adopt s g x ds hits tables k).2.rd fd = s.rd fd := by
  first | (simp [State.adopt]; done) | (simp only [State.adopt]; (repeat' split) <;> simp)

@[simp] theorem State.rejectGroup_frame (s : State) (c : Nat) (g : Nat) (k : Check) (quiet : Bool) (fd : Followed) (h1
    : fd ≠ .dram) : (State.rejectGroup s c g k quiet).rd fd = s.rd fd := by
  first | (simp [h1, State.rejectGroup]; done) | (simp only [State.rejectGroup]; (repeat' split) <;> simp [h1])

@[simp] theorem State.countReject_frame (s : State) (c : Nat) (g : Nat) (fd : Followed) (h1 : fd ≠ .dram) :
    (State.countReject s c g).rd fd = s.rd fd := by
  first | (simp [h1, State.countReject]; done) | (simp only [State.countReject]; (repeat' split) <;> simp [h1])

@[simp] theorem State.acceptGroup_frame (s : State) (c : Nat) (g : Nat) (full : Bool) (fd : Followed) :
    (State.acceptGroup s c g full).rd fd = s.rd fd := by
  first | (simp [State.acceptGroup]; done) | (simp only [State.acceptGroup]; (repeat' split) <;> simp)

@[simp] theorem State.putFigure_frame (s : State) (f : Field) (v : Int) (fd : Followed) : (State.putFigure s f v).rd
    fd = s.rd fd := by
  first | (simp [State.putFigure]; done) | (simp only [State.putFigure]; (repeat' split) <;> simp)

@[simp] theorem State.figResid_frame (s : State) (c : Nat) (x : Derived) (fd : Followed) : (State.figResid s c x).rd
    fd = s.rd fd := by
  first | (simp [State.figResid]; done) | (simp only [State.figResid]; (repeat' split) <;> simp)

@[simp] theorem State.figThr_frame (s : State) (c : Nat) (m : ChanMeas) (x : Derived) (fd : Followed) : (State.figThr
    s c m x).rd fd = s.rd fd := by
  first | (simp [State.figThr]; done) | (simp only [State.figThr]; (repeat' split) <;> simp)

@[simp] theorem State.figDnl_frame (s : State) (f : Field) (k : Coef) (low : Bool) (v : Option Nat) (fd : Followed) :
    (State.figDnl s f k low v).rd fd = s.rd fd := by
  unfold State.figDnl
  split
  · simp
  · exact (State.putFigure_frame _ _ _ _).trans (State.roundLow_frame _ _ _ _)

@[simp] theorem State.figures_frame (s : State) (c : Nat) (groups : Nat) (m : ChanMeas) (x : Derived) (k : Coef) (fd :
    Followed) : (State.figures s c groups m x k).rd fd = s.rd fd := by
  first | (simp [State.figures]; done) | (simp only [State.figures]; (repeat' split) <;> simp)

@[simp] theorem State.tdcSync_frame (s : State) (c : Nat) (was : Bool) (fd : Followed) : (State.tdcSync s c was).rd fd
    = s.rd fd := by
  first | (simp [State.tdcSync]; done) | (simp only [State.tdcSync]; (repeat' split) <;> simp)

@[simp] theorem State.setPass_frame (s : State) (d : Nat) (p : PassSt) (fd : Followed) : (State.setPass s d p).rd fd =
    s.rd fd := by
  first | (simp [State.setPass]; done) | (simp only [State.setPass]; (repeat' split) <;> simp)

@[simp] theorem State.passLend_frame (s : State) (d : Nat) (lent : Bool) (fd : Followed) : (State.passLend s d
    lent).rd fd = s.rd fd := by
  first | (simp [State.passLend]; done) | (simp only [State.passLend]; (repeat' split) <;> simp)

@[simp] theorem State.passIdle_frame (d : Nat) (s : State) (fd : Followed) : (State.passIdle d s).rd fd = s.rd fd :=
    by
  first | (simp [State.passIdle]; done) | (simp only [State.passIdle]; (repeat' split) <;> simp)

@[simp] theorem State.passStart_frame (s : State) (d : Nat) (c : Nat) (fd : Followed) : (State.passStart s d c).rd fd
    = s.rd fd := by
  first | (simp [State.passStart]; done) | (simp only [State.passStart]; (repeat' split) <;> simp)

@[simp] theorem State.passOver_frame (s : State) (d : Nat) (c : Nat) (fd : Followed) : (State.passOver s d c).rd fd =
    s.rd fd := by
  first | (simp [State.passOver]; done) | (simp only [State.passOver]; (repeat' split) <;> simp)

@[simp] theorem State.passDrop_frame (d : Nat) (s : State) (fd : Followed) : (State.passDrop d s).rd fd = s.rd fd :=
    by
  first | (simp [State.passDrop]; done) | (simp only [State.passDrop]; (repeat' split) <;> simp)

@[simp] theorem State.passesDrop_frame (s : State) (fd : Followed) : (State.passesDrop s).rd fd = s.rd fd := by
  first | (simp [State.passesDrop]; done) | (simp only [State.passesDrop]; (repeat' split) <;> simp)

@[simp] theorem State.liveGroups_frame (c : Nat) (p : PassSt) (x : Derived) (ds : List Int) (x1 : List Nat) (x2 :
    State) (x3 : Coef) (x4 : Bool) (fd : Followed) (h1 : fd ≠ .dram) : (State.liveGroups c p x ds x1 x2 x3 x4).1.rd fd
    = x2.rd fd := by
  fun_induction State.liveGroups c p x ds x1 x2 x3 x4 <;> simp_all +zetaDelta

@[simp] theorem State.passEnd_frame (s : State) (d : Nat) (p : PassSt) (m : ChanMeas) (fd : Followed) (h1 : fd ≠
    .dram) : (State.passEnd s d p m).rd fd = s.rd fd := by
  first | (simp [h1, State.passEnd]; done) | (simp only [State.passEnd]; (repeat' split) <;> simp [h1])

@[simp] theorem State.fullStart_frame (s : State) (fd : Followed) : (State.fullStart s).rd fd = s.rd fd := by
  first | (simp [State.fullStart]; done) | (simp only [State.fullStart]; (repeat' split) <;> simp)

@[simp] theorem State.fullAbort_frame (s : State) (fd : Followed) (h1 : fd ≠ .dram) : (State.fullAbort s).rd fd = s.rd
    fd := by
  first | (simp [h1, State.fullAbort]; done) | (simp only [State.fullAbort]; (repeat' split) <;> simp [h1])

@[simp] theorem State.fullGroups_frame (f : FullMeas) (x : Derived) (fits : List (Prod Int Int)) (k0 : Coef) (x1 :
    List Nat) (x2 : State) (x3 : Coef) (x4 : Nat) (fd : Followed) (h1 : fd ≠ .dram) : (State.fullGroups f x fits k0 x1
    x2 x3 x4).1.rd fd = x2.rd fd := by
  fun_induction State.fullGroups f x fits k0 x1 x2 x3 x4 <;> simp_all +zetaDelta

@[simp] theorem State.fullChan_frame (s : State) (f : FullMeas) (fd : Followed) (h1 : fd ≠ .dram) : (State.fullChan s
    f).1.rd fd = s.rd fd := by
  first | (simp [h1, State.fullChan]; done) | (simp only [State.fullChan]; (repeat' split) <;> simp [h1])

@[simp] theorem State.fullAll_frame (x1 : List FullMeas) (x2 : State) (x3 : Nat) (fd : Followed) (h1 : fd ≠ .dram) :
    (State.fullAll x1 x2 x3).1.rd fd = x2.rd fd := by
  fun_induction State.fullAll x1 x2 x3 <;> simp_all +zetaDelta

@[simp] theorem State.stagedDrop_frame (s : State) (fd : Followed) : (State.stagedDrop s).rd fd = s.rd fd := by
  first | (simp [State.stagedDrop]; done) | (simp only [State.stagedDrop]; (repeat' split) <;> simp)

@[simp] theorem State.calEnd_frame (s : State) (fd : Followed) (h1 : fd ≠ .dram) : (State.calEnd s).rd fd = s.rd fd :=
    by
  first | (simp [h1, State.calEnd]; done) | (simp only [State.calEnd]; (repeat' split) <;> simp [h1])

@[simp] theorem State.symReserved_frame (s : State) (n : Nat) (c : Nat) (ks : List SymCode) (fd : Followed) (h1 : fd ≠
    .dram) : (State.symReserved s n c ks).rd fd = s.rd fd := by
  first | (simp [h1, State.symReserved]; done) | (simp only [State.symReserved]; (repeat' split) <;> simp [h1])

@[simp] theorem State.chanVector_frame (n : Nat) (slice : Nat) (v : Vec) (c : Nat) (s : State) (fd : Followed) (h1 :
    fd ≠ .dram) : (State.chanVector n slice v c s).rd fd = s.rd fd := by
  first | (simp [h1, State.chanVector]; done) | (simp only [State.chanVector]; (repeat' split) <;> simp [h1])

@[simp] theorem State.addPin_frame (s : State) (d : Nat) (p : PinVec) (fd : Followed) : (State.addPin s d p).rd fd =
    s.rd fd := by
  first | (simp [State.addPin]; done) | (simp only [State.addPin]; (repeat' split) <;> simp)

@[simp] theorem State.lend_frame (s : State) (n : Nat) (d : Nat) (v : Vec) (syms : List (List Nat)) (fd : Followed) :
    (State.lend s n d v syms).2.rd fd = s.rd fd := by
  first | (simp [State.lend]; done) | (simp only [State.lend]; (repeat' split) <;> simp)

@[simp] theorem State.driveEdge_frame (s : State) (c : Nat) (p : PinVec) (y : Nat) (e : Nat) (fd : Followed) :
    (State.driveEdge s c p y e).rd fd = s.rd fd := by
  first | (simp [State.driveEdge]; done) | (simp only [State.driveEdge]; (repeat' split) <;> simp)

@[simp] theorem State.serialUi_frame (s : State) (c : Nat) (y : Nat) (fd : Followed) : (State.serialUi s c y).rd fd =
    s.rd fd := by
  first | (simp [State.serialUi]; done) | (simp only [State.serialUi]; (repeat' split) <;> simp)

@[simp] theorem State.driveCheck_frame (s : State) (c : Nat) (fd : Followed) : (State.driveCheck s c).rd fd = s.rd fd
    := by
  first | (simp [State.driveCheck]; done) | (simp only [State.driveCheck]; (repeat' split) <;> simp)

@[simp] theorem State.setPin_frame (s : State) (d : Nat) (cyc : Nat) (f : PinVec → PinVec) (fd : Followed) :
    (State.setPin s d cyc f).rd fd = s.rd fd := by
  first | (simp [State.setPin]; done) | (simp only [State.setPin]; (repeat' split) <;> simp)

@[simp] theorem State.sample_frame (s : State) (c : Nat) (p : PinVec) (u : Nat) (y : Nat) (low : Bool) (bit : Bool) (t
    : Nat) (fd : Followed) : (State.sample s c p u y low bit t).rd fd = s.rd fd := by
  first | (simp [State.sample]; done) | (simp only [State.sample]; (repeat' split) <;> simp)

@[simp] theorem State.vecAtPins_frame (s : State) (n : Nat) (v : Vec) (fd : Followed) (h1 : fd ≠ .dram) :
    (State.vecAtPins s n v).rd fd = s.rd fd := by
  first | (simp [h1, State.vecAtPins]; done) | (simp only [State.vecAtPins]; (repeat' split) <;> simp [h1])

@[simp] theorem State.placed_frame (s : State) (n : Nat) (t : Nat) (k : State → State) (fd : Followed) (h1 : fd ≠
    .time) (hk : ∀ x, (k x).rd fd = x.rd fd) : (State.placed s n t k).rd fd = s.rd fd := by
  first | (simp [h1, hk, State.placed]; done) | (simp only [State.placed]; (repeat' split) <;> simp [h1, hk])

@[simp] theorem State.joinResults_frame (s : State) (n : Nat) (d : Nat) (p : PinVec) (due : List (Prod Nat Nat)) (res
    : List (Prod Nat Nat)) (whole : Bool) (fd : Followed) : (State.joinResults s n d p due res whole).rd fd = s.rd fd
    := by
  first | (simp [State.joinResults]; done) | (simp only [State.joinResults]; (repeat' split) <;> simp)

@[simp] theorem State.setWord_frame (s : State) (g : Nat) (i : Nat) (fd : Followed) (h1 : fd ≠ .dram) : (State.setWord
    s g i).rd fd = s.rd fd := by
  first | (simp [h1, State.setWord]; done) | (simp only [State.setWord]; (repeat' split) <;> simp [h1])

@[simp] theorem State.mapEcc_frame (s : State) (n : Nat) (g : Nat) (v : Vec) (fs : List FailCmp) (ue : Bool) (fd :
    Followed) (h1 : fd ≠ .dram) : (State.mapEcc s n g v fs ue).1.rd fd = s.rd fd := by
  first | (simp [h1, State.mapEcc]; done) | (simp only [State.mapEcc]; (repeat' split) <;> simp [h1])

@[simp] theorem State.countRing_frame (s : State) (n : Nat) (g : Nat) (fs : List FailCmp) (fd : Followed) :
    (State.countRing s n g fs).rd fd = s.rd fd := by
  first | (simp [State.countRing]; done) | (simp only [State.countRing]; (repeat' split) <;> simp)

@[simp] theorem State.markRing_frame (s : State) (g : Nat) (fs : List FailCmp) (unm : Bool) (fd : Followed) :
    (State.markRing s g fs unm).rd fd = s.rd fd := by
  first | (simp [State.markRing]; done) | (simp only [State.markRing]; (repeat' split) <;> simp)

@[simp] theorem State.recordFails_frame (s : State) (n : Nat) (g : Nat) (v : Vec) (fs : List FailCmp) (ue : Bool) (fd
    : Followed) (h1 : fd ≠ .mode) (h2 : fd ≠ .dram) : (State.recordFails s n g v fs ue).1.rd fd = s.rd fd := by
  first | (simp [h1, h2, State.recordFails]; done) | (simp only [State.recordFails]; (repeat' split) <;> simp [h1, h2])

@[simp] theorem State.recordRing_frame (s : State) (n : Nat) (g : Nat) (v : Vec) (fs : List FailCmp) (ue : Bool) (fd :
    Followed) (h1 : fd ≠ .mode) (h2 : fd ≠ .dram) : (State.recordRing s n g v fs ue).1.rd fd = s.rd fd := by
  first | (simp [h1, h2, State.recordRing]; done) | (simp only [State.recordRing]; (repeat' split) <;> simp [h1, h2])

@[simp] theorem State.trialResult_frame (s : State) (n : Nat) (i : Nat) (f : Flight) (fd : Followed) :
    (State.trialResult s n i f).rd fd = s.rd fd := by
  first | (simp [State.trialResult]; done) | (simp only [State.trialResult]; (repeat' split) <;> simp)

@[simp] theorem State.recordRings_frame (n : Nat) (v : Vec) (fs : List FailCmp) (x1 : List Nat) (x2 : Prod State Bool)
    (fd : Followed) (h1 : fd ≠ .mode) (h2 : fd ≠ .dram) : (State.recordRings n v fs x1 x2).1.rd fd = x2.1.rd fd := by
  fun_induction State.recordRings n v fs x1 x2 <;> simp_all +zetaDelta

@[simp] theorem State.processVec_frame (s : State) (n : Nat) (f : Flight) (ue : Bool) (fd : Followed) (h1 : fd ≠
    .mode) (h2 : fd ≠ .dram) : (State.processVec s n f ue).1.rd fd = s.rd fd := by
  first | (simp [h1, h2, State.processVec]; done) | (simp only [State.processVec]; (repeat' split) <;> simp [h1, h2])

@[simp] theorem State.processLine_frame (n : Nat) (x1 : Nat) (x2 : Prod State Bool) (fd : Followed) (h1 : fd ≠ .mode)
    (h2 : fd ≠ .dram) : (State.processLine n x1 x2).1.rd fd = x2.1.rd fd := by
  fun_induction State.processLine n x1 x2 <;> simp_all +zetaDelta

@[simp] theorem State.returnResults_frame (s : State) (n : Nat) (d : Nat) (p : PinVec) (sel : Nat → Bool) (ok : Bool)
    (ue : Bool) (fd : Followed) (h1 : fd ≠ .mode) (h2 : fd ≠ .dram) : (State.returnResults s n d p sel ok ue).1.rd fd
    = s.rd fd := by
  first | (simp [h1, h2, State.returnResults]; done) | (simp only [State.returnResults]; (repeat' split) <;> simp [h1, h2])

@[simp] theorem State.frameFields_frame (s : State) (d : Nat) (ok : Bool) (fd : Followed) (h1 : fd ≠ .dram) :
    (State.frameFields s d ok).rd fd = s.rd fd := by
  first | (simp [h1, State.frameFields]; done) | (simp only [State.frameFields]; (repeat' split) <;> simp [h1])

@[simp] theorem State.flushPushes_frame (s : State) (fd : Followed) (h1 : fd ≠ .dram) : (State.flushPushes s).rd fd =
    s.rd fd := by
  first | (simp [h1, State.flushPushes]; done) | (simp only [State.flushPushes]; (repeat' split) <;> simp [h1])

@[simp] theorem State.leaveRun_frame (s : State) (fd : Followed) (h1 : fd ≠ .mode) (h2 : fd ≠ .dram) : (State.leaveRun
    s).rd fd = s.rd fd := by
  first | (simp [h1, h2, State.leaveRun]; done) | (simp only [State.leaveRun]; (repeat' split) <;> simp [h1, h2])

@[simp] theorem State.actCleared_frame (s : State) (n : Nat) (fd : Followed) : (State.actCleared s n).rd fd = s.rd fd
    := by
  first | (simp [State.actCleared]; done) | (simp only [State.actCleared]; (repeat' split) <;> simp)

@[simp] theorem State.stopReport_frame (s : State) (n : Nat) (t : Nat) (c : Nat) (reason : Nat) (fd : Followed) (h1 :
    fd ≠ .dram) : (State.stopReport s n t c reason).rd fd = s.rd fd := by
  first | (simp [h1, State.stopReport]; done) | (simp only [State.stopReport]; (repeat' split) <;> simp [h1])

@[simp] theorem State.flushEvts_frame (d : Nat) (s : State) (fd : Followed) (h1 : fd ≠ .dram) : (State.flushEvts d
    s).rd fd = s.rd fd := by
  first | (simp [h1, State.flushEvts]; done) | (simp only [State.flushEvts]; (repeat' split) <;> simp [h1])

@[simp] theorem State.actStop_frame (s : State) (n : Nat) (t : Nat) (c : Nat) (reason : Nat) (fd : Followed) (h1 : fd
    ≠ .mode) (h2 : fd ≠ .dram) : (State.actStop s n t c reason).rd fd = s.rd fd := by
  first | (simp [h1, h2, State.actStop]; done) | (simp only [State.actStop]; (repeat' split) <;> simp [h1, h2])

@[simp] theorem State.drainDie_frame (n : Nat) (d : Nat) (s : State) (fd : Followed) (h1 : fd ≠ .mode) (h2 : fd ≠
    .dram) : (State.drainDie n d s).rd fd = s.rd fd := by
  first | (simp [h1, h2, State.drainDie]; done) | (simp only [State.drainDie]; (repeat' split) <;> simp [h1, h2])

@[simp] theorem State.drainLine_frame (n : Nat) (x1 : Nat) (x2 : State) (fd : Followed) (h1 : fd ≠ .mode) (h2 : fd ≠
    .dram) : (State.drainLine n x1 x2).rd fd = x2.rd fd := by
  fun_induction State.drainLine n x1 x2 <;> simp_all +zetaDelta

@[simp] theorem State.stopNow_frame (reason : Nat) (n : Nat) (s : State) (fd : Followed) (h1 : fd ≠ .mode) (h2 : fd ≠
    .dram) : (State.stopNow reason n s).rd fd = s.rd fd := by
  first | (simp [h1, h2, State.stopNow]; done) | (simp only [State.stopNow]; (repeat' split) <;> simp [h1, h2])

@[simp] theorem State.stopAll_frame (s : State) (reason : Nat) (fd : Followed) (h1 : fd ≠ .mode) (h2 : fd ≠ .dram) :
    (State.stopAll s reason).rd fd = s.rd fd := by
  first | (simp [h1, h2, State.stopAll]; done) | (simp only [State.stopAll]; (repeat' split) <;> simp [h1, h2])

@[simp] theorem State.mixTorn_frame (x1 : Nat) (x2 : List Byte) (x3 : State) (fd : Followed) : (State.mixTorn x1 x2
    x3).2.rd fd = x3.rd fd := by
  fun_induction State.mixTorn x1 x2 x3 <;> simp_all +zetaDelta

@[simp] theorem State.flashRead_frame (s : State) (a : Nat) (n : Nat) (fd : Followed) : (State.flashRead s a n).2.rd
    fd = s.rd fd := by
  first | (simp [State.flashRead]; done) | (simp only [State.flashRead]; (repeat' split) <;> simp)

@[simp] theorem State.flashPut_frame (s : State) (a : Nat) (bs : List Byte) (fd : Followed) (h1 : fd ≠ .flash) :
    (State.flashPut s a bs).rd fd = s.rd fd := by
  first | (simp [h1, State.flashPut]; done) | (simp only [State.flashPut]; (repeat' split) <;> simp [h1])

@[simp] theorem State.flashErase_frame (s : State) (a : Nat) (fd : Followed) (h1 : fd ≠ .flash) : (State.flashErase s
    a).rd fd = s.rd fd := by
  first | (simp [h1, State.flashErase]; done) | (simp only [State.flashErase]; (repeat' split) <;> simp [h1])

@[simp] theorem State.tear_frame (s : State) (a : Nat) (bs : List Byte) (fd : Followed) : (State.tear s a bs).rd fd =
    s.rd fd := by
  first | (simp [State.tear]; done) | (simp only [State.tear]; (repeat' split) <;> simp)

@[simp] theorem State.setSlot_frame (s : State) (k : Nat) (reason : Nat) (fd : Followed) : (State.setSlot s k
    reason).rd fd = s.rd fd := by
  first | (simp [State.setSlot]; done) | (simp only [State.setSlot]; (repeat' split) <;> simp)

@[simp] theorem State.freeBytes_frame (x1 : Nat) (x2 : State) (fd : Followed) : (State.freeBytes x1 x2).2.rd fd =
    x2.rd fd := by
  fun_induction State.freeBytes x1 x2 <;> simp_all +zetaDelta

@[simp] theorem State.persistPage_frame (s : State) (evts : List EvtRec) (fd : Followed) : (State.persistPage s
    evts).2.rd fd = s.rd fd := by
  first | (simp [State.persistPage]; done) | (simp only [State.persistPage]; (repeat' split) <;> simp)

@[simp] theorem State.persistDue_frame (s : State) (fd : Followed) : (State.persistDue s).rd fd = s.rd fd := by
  first | (simp [State.persistDue]; done) | (simp only [State.persistDue]; (repeat' split) <;> simp)

@[simp] theorem State.startPersist_frame (s : State) (fd : Followed) : (State.startPersist s).rd fd = s.rd fd := by
  first | (simp [State.startPersist]; done) | (simp only [State.startPersist]; (repeat' split) <;> simp)

@[simp] theorem State.nvmFlags_frame (s : State) (fd : Followed) : (State.nvmFlags s).rd fd = s.rd fd := by
  first | (simp [State.nvmFlags]; done) | (simp only [State.nvmFlags]; (repeat' split) <;> simp)

@[simp] theorem State.persistKick_frame (s : State) (fd : Followed) : (State.persistKick s).rd fd = s.rd fd := by
  first | (simp [State.persistKick]; done) | (simp only [State.persistKick]; (repeat' split) <;> simp)

@[simp] theorem State.cmdKick_frame (s : State) (fd : Followed) : (State.cmdKick s).rd fd = s.rd fd := by
  first | (simp [State.cmdKick]; done) | (simp only [State.cmdKick]; (repeat' split) <;> simp)

@[simp] theorem State.nvmKick_frame (s : State) (fd : Followed) : (State.nvmKick s).rd fd = s.rd fd := by
  first | (simp [State.nvmKick]; done) | (simp only [State.nvmKick]; (repeat' split) <;> simp)

@[simp] theorem State.nvmSoil_frame (s : State) (op : Nat) (addr : Nat) (len : Nat) (slot : Nat) (fd : Followed) :
    (State.nvmSoil s op addr len slot).rd fd = s.rd fd := by
  first | (simp [State.nvmSoil]; done) | (simp only [State.nvmSoil]; (repeat' split) <;> simp)

@[simp] theorem State.nvmBegin_frame (s : State) (j : NvmJob) (fd : Followed) : (State.nvmBegin s j).rd fd = s.rd fd
    := by
  first | (simp [State.nvmBegin]; done) | (simp only [State.nvmBegin]; (repeat' split) <;> simp)

@[simp] theorem State.nvmCommand_frame (s : State) (op : Nat) (addr : Nat) (len : Nat) (slot : Nat) (src : NvmSrc)
    (signed_ : Bool) (fd : Followed) : (State.nvmCommand s op addr len slot src signed_).rd fd = s.rd fd := by
  first | (simp [State.nvmCommand]; done) | (simp only [State.nvmCommand]; (repeat' split) <;> simp)

@[simp] theorem State.nvmStep_frame (s : State) (op : Nat) (addr : Nat) (left : Nat) (host : Nat) (data : List Byte)
    (q : Nat) (id : Nat) (fd : Followed) : (State.nvmStep s op addr left host data q id).rd fd = s.rd fd := by
  first | (simp [State.nvmStep]; done) | (simp only [State.nvmStep]; (repeat' split) <;> simp)

@[simp] theorem State.nvmEnd_frame (s : State) (j : NvmJob) (r : Nat) (fd : Followed) (h1 : fd ≠ .hostMem) :
    (State.nvmEnd s j r).rd fd = s.rd fd := by
  first | (simp [h1, State.nvmEnd]; done) | (simp only [State.nvmEnd]; (repeat' split) <;> simp [h1])

@[simp] theorem State.calStored_frame (s : State) (j : NvmJob) (fd : Followed) (h1 : fd ≠ .dram) : (State.calStored s
    j).rd fd = s.rd fd := by
  first | (simp [h1, State.calStored]; done) | (simp only [State.calStored]; (repeat' split) <;> simp [h1])

@[simp] theorem State.nvmOk_frame (s : State) (j : NvmJob) (fd : Followed) (h1 : fd ≠ .dram) (h2 : fd ≠ .hostMem) :
    (State.nvmOk s j).rd fd = s.rd fd := by
  first | (simp [h1, h2, State.nvmOk]; done) | (simp only [State.nvmOk]; (repeat' split) <;> simp [h1, h2])

@[simp] theorem State.putDone_frame (s : State) (n : Nat) (fd : Followed) : (State.putDone s n).rd fd = s.rd fd := by
  first | (simp [State.putDone]; done) | (simp only [State.putDone]; (repeat' split) <;> simp)

@[simp] theorem State.nvmAdvance_frame (s : State) (j : NvmJob) (n : Nat) (fd : Followed) (h1 : fd ≠ .dram) (h2 : fd ≠
    .hostMem) : (State.nvmAdvance s j n).rd fd = s.rd fd := by
  first | (simp [h1, h2, State.nvmAdvance]; done) | (simp only [State.nvmAdvance]; (repeat' split) <;> simp [h1, h2])

@[simp] theorem State.unitDone_frame (s : State) (u : FlashUnit) (ok : Bool) (fd : Followed) (h1 : fd ≠ .dram) (h2 :
    fd ≠ .hostMem) : (State.unitDone s u ok).rd fd = s.rd fd := by
  first | (simp [h1, h2, State.unitDone]; done) | (simp only [State.unitDone]; (repeat' split) <;> simp [h1, h2])

@[simp] theorem State.wiped1_frame (s : State) (a : Nat) (ok : Bool) (fd : Followed) (h1 : fd ≠ .flash) :
    (State.wiped1 s a ok).rd fd = s.rd fd := by
  first | (simp [h1, State.wiped1]; done) | (simp only [State.wiped1]; (repeat' split) <;> simp [h1])

@[simp] theorem State.persistFailed_frame (s : State) (bs : List Byte) (evts : List EvtRec) (fd : Followed) :
    (State.persistFailed s bs evts).rd fd = s.rd fd := by
  first | (simp [State.persistFailed]; done) | (simp only [State.persistFailed]; (repeat' split) <;> simp)

@[simp] theorem State.persistOn_frame (s : State) (fd : Followed) : (State.persistOn s).rd fd = s.rd fd := by
  first | (simp [State.persistOn]; done) | (simp only [State.persistOn]; (repeat' split) <;> simp)

@[simp] theorem State.bufferEcc_frame (s : State) (u : FlashUnit) (ecc : Ecc) (fd : Followed) (h1 : fd ≠ .dram) :
    (State.bufferEcc s u ecc).2.rd fd = s.rd fd := by
  first | (simp [h1, State.bufferEcc]; done) | (simp only [State.bufferEcc]; (repeat' split) <;> simp [h1])

@[simp] theorem State.unitEnd_frame (s : State) (u : FlashUnit) (ok : Bool) (fd : Followed) (h1 : fd ≠ .flash) (h2 :
    fd ≠ .dram) (h3 : fd ≠ .hostMem) : (State.unitEnd s u ok).rd fd = s.rd fd := by
  first | (simp [h1, h2, h3, State.unitEnd]; done) | (simp only [State.unitEnd]; (repeat' split) <;> simp [h1, h2, h3])

@[simp] theorem State.tearUnit_frame (s : State) (fd : Followed) : (State.tearUnit s).rd fd = s.rd fd := by
  first | (simp [State.tearUnit]; done) | (simp only [State.tearUnit]; (repeat' split) <;> simp)

@[simp] theorem State.dropErase_frame (s : State) (fd : Followed) (h1 : fd ≠ .hostMem) : (State.dropErase s).rd fd =
    s.rd fd := by
  first | (simp [h1, State.dropErase]; done) | (simp only [State.dropErase]; (repeat' split) <;> simp [h1])

@[simp] theorem State.writeNvmCmd_frame (s : State) (v : Word) (fd : Followed) (h1 : fd ≠ .hostMem) :
    (State.writeNvmCmd s v).rd fd = s.rd fd := by
  first | (simp [h1, State.writeNvmCmd]; done) | (simp only [State.writeNvmCmd]; (repeat' split) <;> simp [h1])

@[simp] theorem State.lcDebug_frame (s : State) (fd : Followed) (h1 : fd ≠ .jtag) : (State.lcDebug s).rd fd = s.rd fd
    := by
  first | (simp [h1, State.lcDebug]; done) | (simp only [State.lcDebug]; (repeat' split) <;> simp [h1])

@[simp] theorem State.lcRefresh_frame (s : State) (fd : Followed) (h1 : fd ≠ .jtag) : (State.lcRefresh s).rd fd = s.rd
    fd := by
  first | (simp [h1, State.lcRefresh]; done) | (simp only [State.lcRefresh]; (repeat' split) <;> simp [h1])

@[simp] theorem State.newNonce_frame (s : State) (fd : Followed) : (State.newNonce s).rd fd = s.rd fd := by
  first | (simp [State.newNonce]; done) | (simp only [State.newNonce]; (repeat' split) <;> simp)

@[simp] theorem State.updateCold_frame (s : State) (fd : Followed) : (State.updateCold s).rd fd = s.rd fd := by
  first | (simp [State.updateCold]; done) | (simp only [State.updateCold]; (repeat' split) <;> simp)

@[simp] theorem State.selectSource_frame (s : State) (fd : Followed) : (State.selectSource s).rd fd = s.rd fd := by
  first | (simp [State.selectSource]; done) | (simp only [State.selectSource]; (repeat' split) <;> simp)

@[simp] theorem State.discipline_frame (s : State) (fd : Followed) : (State.discipline s).rd fd = s.rd fd := by
  first | (simp [State.discipline]; done) | (simp only [State.discipline]; (repeat' split) <;> simp)

@[simp] theorem State.rootLost_frame (s : State) (fd : Followed) : (State.rootLost s).rd fd = s.rd fd := by
  first | (simp [State.rootLost]; done) | (simp only [State.rootLost]; (repeat' split) <;> simp)

@[simp] theorem State.acquire_frame (s : State) (fd : Followed) : (State.acquire s).rd fd = s.rd fd := by
  first | (simp [State.acquire]; done) | (simp only [State.acquire]; (repeat' split) <;> simp)

@[simp] theorem State.syncAgain_frame (s : State) (fd : Followed) : (State.syncAgain s).rd fd = s.rd fd := by
  first | (simp [State.syncAgain]; done) | (simp only [State.syncAgain]; (repeat' split) <;> simp)

@[simp] theorem State.recordFault_frame (s : State) (code : Nat) (unit : Nat) (detail : Nat) (fd : Followed) (h1 : fd
    ≠ .dram) : (State.recordFault s code unit detail).rd fd = s.rd fd := by
  first | (simp [h1, State.recordFault]; done) | (simp only [State.recordFault]; (repeat' split) <;> simp [h1])

@[simp] theorem State.endService_frame (s : State) (fd : Followed) (h1 : fd ≠ .mode) (h2 : fd ≠ .dram) :
    (State.endService s).rd fd = s.rd fd := by
  first | (simp [h1, h2, State.endService]; done) | (simp only [State.endService]; (repeat' split) <;> simp [h1, h2])

@[simp] theorem State.coreOff_frame (s : State) (fd : Followed) (h1 : fd ≠ .banks) : (State.coreOff s).rd fd = s.rd fd
    := by
  cases fd <;> first | rfl | contradiction

@[simp] theorem State.safeEntry_frame (s : State) (fd : Followed) (h1 : fd ≠ .mode) (h2 : fd ≠ .banks) (h3 : fd ≠
    .dram) : (State.safeEntry s).rd fd = s.rd fd := by
  first | (simp [h1, h2, h3, State.safeEntry]; done) | (simp only [State.safeEntry]; (repeat' split) <;> simp [h1, h2, h3])

@[simp] theorem State.fatal_frame (s : State) (code : Nat) (unit : Nat) (detail : Nat) (fd : Followed) (h1 : fd ≠
    .mode) (h2 : fd ≠ .banks) (h3 : fd ≠ .dram) (h4 : fd ≠ .hostMem) : (State.fatal s code unit detail).rd fd = s.rd
    fd := by
  first | (simp [h1, h2, h3, h4, State.fatal]; done) | (simp only [State.fatal]; (repeat' split) <;> simp [h1, h2, h3, h4])

@[simp] theorem State.keepStatus_frame (s : State) (old : State) (fd : Followed) : (State.keepStatus s old).rd fd =
    s.rd fd := by
  first | (simp [State.keepStatus]; done) | (simp only [State.keepStatus]; (repeat' split) <;> simp)

@[simp] theorem State.wiped_frame (s : State) (fd : Followed) : (State.wiped s).rd fd = s.rd fd := by
  cases fd <;> rfl

@[simp] theorem State.journalNew_frame (s : State) (fd : Followed) : (State.journalNew s).rd fd = s.rd fd := by
  first | (simp [State.journalNew]; done) | (simp only [State.journalNew]; (repeat' split) <;> simp)

@[simp] theorem State.freshen_frame (s : State) (fd : Followed) (h1 : fd ≠ .jtag) : (State.freshen s).rd fd = s.rd fd
    := by
  first | (simp [h1, State.freshen]; done) | (simp only [State.freshen]; (repeat' split) <;> simp [h1])

@[simp] theorem State.bootCheck_frame (s : State) (fd : Followed) (h1 : fd ≠ .mode) (h2 : fd ≠ .banks) (h3 : fd ≠
    .dram) (h4 : fd ≠ .hostMem) : (State.bootCheck s).rd fd = s.rd fd := by
  first | (simp [h1, h2, h3, h4, State.bootCheck]; done) | (simp only [State.bootCheck]; (repeat' split) <;> simp [h1, h2, h3, h4])

@[simp] theorem State.resetBoot_frame (s : State) (fd : Followed) (h1 : fd ≠ .jtag) (h2 : fd ≠ .mode) (h3 : fd ≠
    .banks) (h4 : fd ≠ .dram) (h5 : fd ≠ .hostMem) : (State.resetBoot s).rd fd = s.rd fd := by
  first | (simp [h1, h2, h3, h4, h5, State.resetBoot]; done) | (simp only [State.resetBoot]; (repeat' split) <;> simp [h1, h2, h3, h4, h5])

@[simp] theorem State.domainsOff_frame (s : State) (fd : Followed) (h1 : fd ≠ .banks) (h2 : fd ≠ .dram) :
    (State.domainsOff s).rd fd = s.rd fd := by
  unfold State.domainsOff
  have h := State.coreOff_frame s.discipline fd h1
  rw [State.discipline_frame] at h
  simp only [State.put_frame]
  cases fd <;> first | contradiction | exact h

@[simp] theorem State.shedding_frame (s : State) (why : Shed) (fd : Followed) (h1 : fd ≠ .mode) (h2 : fd ≠ .banks) (h3
    : fd ≠ .dram) (h4 : fd ≠ .shed) (h5 : fd ≠ .hostMem) : (State.shedding s why).rd fd = s.rd fd := by
  unfold State.shedding; split
  · simp [h1, h2, h3, h4, h5]
  · cases why <;> simp [h1, h2, h3, h4, h5]

@[simp] theorem State.orphan_frame (s : State) (fd : Followed) (h1 : fd ≠ .mode) (h2 : fd ≠ .dram) : (State.orphan
    s).rd fd = s.rd fd := by
  first | (simp [h1, h2, State.orphan]; done) | (simp only [State.orphan]; (repeat' split) <;> simp [h1, h2])

@[simp] theorem State.enterCal_frame (s : State) (fd : Followed) (h1 : fd ≠ .mode) (h2 : fd ≠ .dram) : (State.enterCal
    s).rd fd = s.rd fd := by
  first | (simp [h1, h2, State.enterCal]; done) | (simp only [State.enterCal]; (repeat' split) <;> simp [h1, h2])

@[simp] theorem State.leaveCal_frame (s : State) (fd : Followed) (h1 : fd ≠ .mode) (h2 : fd ≠ .dram) : (State.leaveCal
    s).rd fd = s.rd fd := by
  first | (simp [h1, h2, State.leaveCal]; done) | (simp only [State.leaveCal]; (repeat' split) <;> simp [h1, h2])

@[simp] theorem State.modeRequest_frame (s : State) (req : Nat) (fd : Followed) (h1 : fd ≠ .jtag) (h2 : fd ≠ .mode)
    (h3 : fd ≠ .banks) (h4 : fd ≠ .dram) (h5 : fd ≠ .hostMem) : (State.modeRequest s req).rd fd = s.rd fd := by
  first | (simp [h1, h2, h3, h4, h5, State.modeRequest]; done) | (simp only [State.modeRequest]; (repeat' split) <;> simp [h1, h2, h3, h4, h5])

@[simp] theorem State.writeModeReq_frame (s : State) (v : Word) (fd : Followed) (h1 : fd ≠ .jtag) (h2 : fd ≠ .mode)
    (h3 : fd ≠ .banks) (h4 : fd ≠ .dram) (h5 : fd ≠ .hostMem) : (State.writeModeReq s v).rd fd = s.rd fd := by
  first | (simp [h1, h2, h3, h4, h5, State.writeModeReq]; done) | (simp only [State.writeModeReq]; (repeat' split) <;> simp [h1, h2, h3, h4, h5])

end Sys2Proof.Machine
end

