-- ==== Sys2Proof/Laws/FrameBlocks.lean ====
section
/-! SUPPORT. What each operation leaves unchanged, of the blocks: measurements, links, image records, host queues, register writes. One lemma per operation, over
every followed field but those named in its hypotheses; `simp` rewrites with it. -/

namespace Sys2Proof.Machine

set_option linter.unusedTactic false
set_option linter.unreachableTactic false
set_option linter.unnecessarySeqFocus false
set_option linter.unusedSimpArgs false

@[simp] theorem State.consumers_frame (s : State) (c : Nat) (d : TdcSt) (low : Bool) (rise : Bool) (idx : Nat) (stamp
    : Option Int) (t : Int) (fd : Followed) (h1 : fd ≠ .dram) : (State.consumers s c d low rise idx stamp t).rd fd =
    s.rd fd := by
  first | (simp [h1, State.consumers]; done) | (simp only [State.consumers]; (repeat' split) <;> simp [h1])

@[simp] theorem State.writeTdcMeas_frame (s : State) (c : Nat) (v : Word) (fd : Followed) (h1 : fd ≠ .dram) :
    (State.writeTdcMeas s c v).rd fd = s.rd fd := by
  first | (simp [h1, State.writeTdcMeas]; done) | (simp only [State.writeTdcMeas]; (repeat' split) <;> simp [h1])

@[simp] theorem State.writeTdcCfg_frame (s : State) (c : Nat) (v : Word) (fd : Followed) : (State.writeTdcCfg s c
    v).rd fd = s.rd fd := by
  first | (simp [State.writeTdcCfg]; done) | (simp only [State.writeTdcCfg]; (repeat' split) <;> simp)

@[simp] theorem State.writeTrigCtrl_frame (s : State) (k : Nat) (v : Word) (fd : Followed) : (State.writeTrigCtrl s k
    v).rd fd = s.rd fd := by
  first | (simp [State.writeTrigCtrl]; done) | (simp only [State.writeTrigCtrl]; (repeat' split) <;> simp)

@[simp] theorem State.writeStreamCtrl_frame (s : State) (i : Nat) (v : Word) (fd : Followed) (h1 : fd ≠ .dram) :
    (State.writeStreamCtrl s i v).rd fd = s.rd fd := by
  first | (simp [h1, State.writeStreamCtrl]; done) | (simp only [State.writeStreamCtrl]; (repeat' split) <;> simp [h1])

@[simp] theorem State.writeTileCfg_frame (s : State) (g : Nat) (v : Word) (fd : Followed) : (State.writeTileCfg s g
    v).rd fd = s.rd fd := by
  first | (simp [State.writeTileCfg]; done) | (simp only [State.writeTileCfg]; (repeat' split) <;> simp)

@[simp] theorem State.zeroTiles_frame (s : State) (g : Nat) (fd : Followed) (h1 : fd ≠ .dram) : (State.zeroTiles s
    g).rd fd = s.rd fd := by
  first | (simp [h1, State.zeroTiles]; done) | (simp only [State.zeroTiles]; (repeat' split) <;> simp [h1])

@[simp] theorem State.entryEcc_frame (s : State) (p : Push) (ecc : Ecc) (fd : Followed) (h1 : fd ≠ .dram) :
    (State.entryEcc s p ecc).rd fd = s.rd fd := by
  first | (simp [h1, State.entryEcc]; done) | (simp only [State.entryEcc]; (repeat' split) <;> simp [h1])

@[simp] theorem State.applyRead_frame (s : State) (p : Push) (ecc : PushEcc) (fd : Followed) (h1 : fd ≠ .dram) :
    (State.applyRead s p ecc).rd fd = s.rd fd := by
  first | (simp [h1, State.applyRead]; done) | (simp only [State.applyRead]; (repeat' split) <;> simp [h1])

@[simp] theorem State.applyOldest_frame (s : State) (ecc : PushEcc) (fd : Followed) (h1 : fd ≠ .dram) :
    (State.applyOldest s ecc).rd fd = s.rd fd := by
  first | (simp [h1, State.applyOldest]; done) | (simp only [State.applyOldest]; (repeat' split) <;> simp [h1])

@[simp] theorem State.writeRqCtrl_frame (s : State) (v : Word) (fd : Followed) (h1 : fd ≠ .dram) : (State.writeRqCtrl
    s v).rd fd = s.rd fd := by
  first | (simp [h1, State.writeRqCtrl]; done) | (simp only [State.writeRqCtrl]; (repeat' split) <;> simp [h1])

@[simp] theorem State.writeRqFinalize_frame (s : State) (v : Word) (fd : Followed) (h1 : fd ≠ .dram) :
    (State.writeRqFinalize s v).rd fd = s.rd fd := by
  first | (simp [h1, State.writeRqFinalize]; done) | (simp only [State.writeRqFinalize]; (repeat' split) <;> simp [h1])

@[simp] theorem State.writeRqDescSel_frame (s : State) (v : Word) (ecc : Ecc) (fd : Followed) (h1 : fd ≠ .dram) :
    (State.writeRqDescSel s v ecc).rd fd = s.rd fd := by
  first | (simp [h1, State.writeRqDescSel]; done) | (simp only [State.writeRqDescSel]; (repeat' split) <;> simp [h1])

@[simp] theorem State.writeRqMapCfg_frame (s : State) (g : Nat) (v : Word) (fd : Followed) (h1 : fd ≠ .dram) :
    (State.writeRqMapCfg s g v).rd fd = s.rd fd := by
  first | (simp [h1, State.writeRqMapCfg]; done) | (simp only [State.writeRqMapCfg]; (repeat' split) <;> simp [h1])

@[simp] theorem State.writeRqMap_frame (s : State) (g : Nat) (a : Nat) (v : Word) (fd : Followed) : (State.writeRqMap
    s g a v).rd fd = s.rd fd := by
  first | (simp [State.writeRqMap]; done) | (simp only [State.writeRqMap]; (repeat' split) <;> simp)

@[simp] theorem State.writeRqType_frame (s : State) (t : Nat) (v : Word) (fd : Followed) : (State.writeRqType s t
    v).rd fd = s.rd fd := by
  first | (simp [State.writeRqType]; done) | (simp only [State.writeRqType]; (repeat' split) <;> simp)

@[simp] theorem State.updateHeld_frame (s : State) (fd : Followed) : (State.updateHeld s).rd fd = s.rd fd := by
  first | (simp [State.updateHeld]; done) | (simp only [State.updateHeld]; (repeat' split) <;> simp)

@[simp] theorem State.fullEnd_frame (s : State) (dies : List DieMeas) (ms : List FullMeas) (fd : Followed) (h1 : fd ≠
    .mode) (h2 : fd ≠ .dram) : (State.fullEnd s dies ms).rd fd = s.rd fd := by
  first | (simp [h1, h2, State.fullEnd]; done) | (simp only [State.fullEnd]; (repeat' split) <;> simp [h1, h2])

@[simp] theorem State.blowGo_frame (x1 : List Blow) (x2 : State) (fd : Followed) (h1 : fd ≠ .otp) (h2 : fd ≠ .jtag) :
    (State.blowGo x1 x2).1.rd fd = x2.rd fd := by
  fun_induction State.blowGo x1 x2 <;> simp_all +zetaDelta

@[simp] theorem State.lcReset_frame (s : State) (fd : Followed) (h1 : fd ≠ .jtag) (h2 : fd ≠ .mode) (h3 : fd ≠ .banks)
    (h4 : fd ≠ .dram) (h5 : fd ≠ .hostMem) : (State.lcReset s).rd fd = s.rd fd := by
  first | (simp [h1, h2, h3, h4, h5, State.lcReset]; done) | (simp only [State.lcReset]; (repeat' split) <;> simp [h1, h2, h3, h4, h5])

@[simp] theorem State.lcDone_frame (s : State) (j : LcJob) (fd : Followed) (h1 : fd ≠ .jtag) (h2 : fd ≠ .mode) (h3 :
    fd ≠ .banks) (h4 : fd ≠ .dram) (h5 : fd ≠ .hostMem) : (State.lcDone s j).rd fd = s.rd fd := by
  first | (simp [h1, h2, h3, h4, h5, State.lcDone]; done) | (simp only [State.lcDone]; (repeat' split) <;> simp [h1, h2, h3, h4, h5])

@[simp] theorem State.lcFail_frame (s : State) (j : LcJob) (fd : Followed) (h1 : fd ≠ .dram) : (State.lcFail s j).rd
    fd = s.rd fd := by
  first | (simp [h1, State.lcFail]; done) | (simp only [State.lcFail]; (repeat' split) <;> simp [h1])

@[simp] theorem State.lcRun_frame (s : State) (fd : Followed) (h1 : fd ≠ .otp) (h2 : fd ≠ .jtag) (h3 : fd ≠ .mode) (h4
    : fd ≠ .banks) (h5 : fd ≠ .dram) (h6 : fd ≠ .hostMem) : (State.lcRun s).rd fd = s.rd fd := by
  first | (simp [h1, h2, h3, h4, h5, h6, State.lcRun]; done) | (simp only [State.lcRun]; (repeat' split) <;> simp [h1, h2, h3, h4, h5, h6])

@[simp] theorem State.lcBegin_frame (s : State) (blows : List Blow) (after : AfterBlow) (src : Option (Prod Nat Nat))
    (fd : Followed) (h1 : fd ≠ .otp) (h2 : fd ≠ .jtag) (h3 : fd ≠ .mode) (h4 : fd ≠ .banks) (h5 : fd ≠ .dram) (h6 : fd
    ≠ .hostMem) : (State.lcBegin s blows after src).rd fd = s.rd fd := by
  first | (simp [h1, h2, h3, h4, h5, h6, State.lcBegin]; done) | (simp only [State.lcBegin]; (repeat' split) <;> simp [h1, h2, h3, h4, h5, h6])

@[simp] theorem State.setPortState_frame (s : State) (p : Nat) (st : Nat) (cause : Nat) (fd : Followed) :
    (State.setPortState s p st cause).rd fd = s.rd fd := by
  first | (simp [State.setPortState]; done) | (simp only [State.setPortState]; (repeat' split) <;> simp)

@[simp] theorem State.portEnable_frame (s : State) (p : Nat) (fd : Followed) : (State.portEnable s p).rd fd = s.rd fd
    := by
  first | (simp [State.portEnable]; done) | (simp only [State.portEnable]; (repeat' split) <;> simp)

@[simp] theorem State.sendTo_frame (s : State) (dest : Nat) (f : Frame) (fd : Followed) (h1 : fd ≠ .dram) :
    (State.sendTo s dest f).rd fd = s.rd fd := by
  first | (simp [h1, State.sendTo]; done) | (simp only [State.sendTo]; (repeat' split) <;> simp [h1])

@[simp] theorem State.bench_frame (s : State) (sh : Nat) (d : Nat) (fd : Followed) (h1 : fd ≠ .dram) : (State.bench s
    sh d).rd fd = s.rd fd := by
  first | (simp [h1, State.bench]; done) | (simp only [State.bench]; (repeat' split) <;> simp [h1])

@[simp] theorem State.benchAll_frame (s : State) (d : Nat) (sel : State → Nat → Bool) (fd : Followed) (h1 : fd ≠
    .dram) : (State.benchAll s d sel).rd fd = s.rd fd := by
  first | (simp [h1, State.benchAll]; done) | (simp only [State.benchAll]; (repeat' split) <;> simp [h1])

@[simp] theorem State.disagree_frame (s : State) (sh : Nat) (d : Nat) (fd : Followed) (h1 : fd ≠ .mode) (h2 : fd ≠
    .dram) : (State.disagree s sh d).rd fd = s.rd fd := by
  first | (simp [h1, h2, State.disagree]; done) | (simp only [State.disagree]; (repeat' split) <;> simp [h1, h2])

@[simp] theorem State.disagreeAll_frame (s : State) (d : Nat) (fd : Followed) (h1 : fd ≠ .mode) (h2 : fd ≠ .dram) :
    (State.disagreeAll s d).rd fd = s.rd fd := by
  first | (simp [h1, h2, State.disagreeAll]; done) | (simp only [State.disagreeAll]; (repeat' split) <;> simp [h1, h2])

@[simp] theorem State.deviceLost_frame (d : Nat) (s : State) (fd : Followed) (h1 : fd ≠ .mode) (h2 : fd ≠ .dram) :
    (State.deviceLost d s).rd fd = s.rd fd := by
  first | (simp [h1, h2, State.deviceLost]; done) | (simp only [State.deviceLost]; (repeat' split) <;> simp [h1, h2])

@[simp] theorem State.partnerLost_frame (s : State) (p : Nat) (fd : Followed) (h1 : fd ≠ .mode) (h2 : fd ≠ .dram) :
    (State.partnerLost s p).rd fd = s.rd fd := by
  first | (simp [h1, h2, State.partnerLost]; done) | (simp only [State.partnerLost]; (repeat' split) <;> simp [h1, h2])

@[simp] theorem State.portLeaves_frame (s : State) (p : Nat) (st : Nat) (cause : Nat) (fd : Followed) (h1 : fd ≠
    .mode) (h2 : fd ≠ .dram) : (State.portLeaves s p st cause).rd fd = s.rd fd := by
  first | (simp [h1, h2, State.portLeaves]; done) | (simp only [State.portLeaves]; (repeat' split) <;> simp [h1, h2])

@[simp] theorem State.portRetrain_frame (s : State) (p : Nat) (fd : Followed) (h1 : fd ≠ .mode) (h2 : fd ≠ .dram) :
    (State.portRetrain s p).rd fd = s.rd fd := by
  first | (simp [h1, h2, State.portRetrain]; done) | (simp only [State.portRetrain]; (repeat' split) <;> simp [h1, h2])

@[simp] theorem State.portHold_frame (s : State) (p : Nat) (cause : Nat) (fd : Followed) (h1 : fd ≠ .mode) (h2 : fd ≠
    .dram) : (State.portHold s p cause).rd fd = s.rd fd := by
  first | (simp [h1, h2, State.portHold]; done) | (simp only [State.portHold]; (repeat' split) <;> simp [h1, h2])

@[simp] theorem State.sendReq_frame (s : State) (p : Nat) (tag : Nat) (h : Held) (fd : Followed) : (State.sendReq s p
    tag h).rd fd = s.rd fd := by
  first | (simp [State.sendReq]; done) | (simp only [State.sendReq]; (repeat' split) <;> simp)

@[simp] theorem State.tagsGo_frame (p : Nat) (x1 : Nat) (x2 : State) (fd : Followed) : (State.tagsGo p x1 x2).rd fd =
    x2.rd fd := by
  fun_induction State.tagsGo p x1 x2 <;> simp_all +zetaDelta

@[simp] theorem State.tagFreed_frame (s : State) (p : Nat) (fd : Followed) : (State.tagFreed s p).rd fd = s.rd fd :=
    by
  first | (simp [State.tagFreed]; done) | (simp only [State.tagFreed]; (repeat' split) <;> simp)

@[simp] theorem State.request_frame (s : State) (p : Nat) (h : Held) (fd : Followed) : (State.request s p h).rd fd =
    s.rd fd := by
  first | (simp [State.request]; done) | (simp only [State.request]; (repeat' split) <;> simp)

@[simp] theorem State.tagsRetired_frame (s : State) (fd : Followed) : (State.tagsRetired s).rd fd = s.rd fd := by
  first | (simp [State.tagsRetired]; done) | (simp only [State.tagsRetired]; (repeat' split) <;> simp)

@[simp] theorem State.sendJoin_frame (s : State) (fd : Followed) : (State.sendJoin s).rd fd = s.rd fd := by
  first | (simp [State.sendJoin]; done) | (simp only [State.sendJoin]; (repeat' split) <;> simp)

@[simp] theorem State.takeJoin_frame (s : State) (d : Nat) (ws : List Word) (fd : Followed) (h1 : fd ≠ .mode) (h2 : fd
    ≠ .dram) : (State.takeJoin s d ws).rd fd = s.rd fd := by
  first | (simp [h1, h2, State.takeJoin]; done) | (simp only [State.takeJoin]; (repeat' split) <;> simp [h1, h2])

@[simp] theorem State.storeBarker_frame (s : State) (p : Nat) (w : BitVec 56) (fd : Followed) : (State.storeBarker s p
    w).rd fd = s.rd fd := by
  first | (simp [State.storeBarker]; done) | (simp only [State.storeBarker]; (repeat' split) <;> simp)

@[simp] theorem State.upBarker_frame (s : State) (fd : Followed) (h1 : fd ≠ .mode) (h2 : fd ≠ .dram) : (State.upBarker
    s).rd fd = s.rd fd := by
  first | (simp [h1, h2, State.upBarker]; done) | (simp only [State.upBarker]; (repeat' split) <;> simp [h1, h2])

@[simp] theorem State.downBarker_frame (s : State) (p : Nat) (fd : Followed) (h1 : fd ≠ .mode) (h2 : fd ≠ .dram) :
    (State.downBarker s p).rd fd = s.rd fd := by
  first | (simp [h1, h2, State.downBarker]; done) | (simp only [State.downBarker]; (repeat' split) <;> simp [h1, h2])

@[simp] theorem State.adoptQuality_frame (s : State) (v : List Byte) (fd : Followed) : (State.adoptQuality s v).rd fd
    = s.rd fd := by
  first | (simp [State.adoptQuality]; done) | (simp only [State.adoptQuality]; (repeat' split) <;> simp)

@[simp] theorem State.adoptBody_frame (s : State) (rs : List (Prod Nat (List Byte))) (fd : Followed) (h1 : fd ≠ .dram)
    : (State.adoptBody s rs).rd fd = s.rd fd := by
  first | (simp [h1, State.adoptBody]; done) | (simp only [State.adoptBody]; (repeat' split) <;> simp [h1])

@[simp] theorem State.applyStore_frame (s : State) (fd : Followed) (h1 : fd ≠ .dram) : (State.applyStore s).1.rd fd =
    s.rd fd := by
  unfold State.applyStore
  split
  · simp [h1]
  · split <;> simp [h1]

@[simp] theorem State.applyFirmware_frame (s : State) (v : List Byte) (fd : Followed) : (State.applyFirmware s v).rd
    fd = s.rd fd := by
  first | (simp [State.applyFirmware]; done) | (simp only [State.applyFirmware]; (repeat' split) <;> simp)

@[simp] theorem State.applyChannelMap_frame (s : State) (v : List Byte) (fd : Followed) : (State.applyChannelMap s
    v).rd fd = s.rd fd := by
  first | (simp [State.applyChannelMap]; done) | (simp only [State.applyChannelMap]; (repeat' split) <;> simp)

@[simp] theorem State.applyActMap_frame (s : State) (v : List Byte) (fd : Followed) : (State.applyActMap s v).rd fd =
    s.rd fd := by
  first | (simp [State.applyActMap]; done) | (simp only [State.applyActMap]; (repeat' split) <;> simp)

@[simp] theorem State.applyDacs_frame (s : State) (v : List Byte) (fd : Followed) : (State.applyDacs s v).rd fd = s.rd
    fd := by
  first | (simp [State.applyDacs]; done) | (simp only [State.applyDacs]; (repeat' split) <;> simp)

@[simp] theorem State.applyParks_frame (s : State) (v : List Byte) (fd : Followed) : (State.applyParks s v).rd fd =
    s.rd fd := by
  first | (simp [State.applyParks]; done) | (simp only [State.applyParks]; (repeat' split) <;> simp)

@[simp] theorem State.applySref_frame (s : State) (v : List Byte) (fd : Followed) : (State.applySref s v).rd fd = s.rd
    fd := by
  first | (simp [State.applySref]; done) | (simp only [State.applySref]; (repeat' split) <;> simp)

@[simp] theorem State.applyMons_frame (s : State) (v : List Byte) (fd : Followed) : (State.applyMons s v).rd fd = s.rd
    fd := by
  first | (simp [State.applyMons]; done) | (simp only [State.applyMons]; (repeat' split) <;> simp)

@[simp] theorem State.applyLink_frame (v : List Byte) (p : Nat) (s : State) (fd : Followed) : (State.applyLink v p
    s).rd fd = s.rd fd := by
  first | (simp [State.applyLink]; done) | (simp only [State.applyLink]; (repeat' split) <;> simp)

@[simp] theorem State.applyLinks_frame (s : State) (v : List Byte) (fd : Followed) : (State.applyLinks s v).rd fd =
    s.rd fd := by
  first | (simp [State.applyLinks]; done) | (simp only [State.applyLinks]; (repeat' split) <;> simp)

@[simp] theorem State.applyRecord_frame (s : State) (typ : Nat) (v : List Byte) (fd : Followed) (h1 : fd ≠ .dram) :
    (State.applyRecord s typ v).rd fd = s.rd fd := by
  first | (simp [h1, State.applyRecord]; done) | (simp only [State.applyRecord]; (repeat' split) <;> simp [h1])

@[simp] theorem State.applyAll_frame (rb : List Readback) (x1 : List (Prod Nat (List Byte))) (x2 : Nat) (x3 : State)
    (fd : Followed) (h1 : fd ≠ .dram) : (State.applyAll rb x1 x2 x3).1.rd fd = x3.rd fd := by
  fun_induction State.applyAll rb x1 x2 x3 <;> simp_all +zetaDelta

@[simp] theorem State.loadClock_frame (d : Nat) (s : State) (fd : Followed) : (State.loadClock d s).rd fd = s.rd fd :=
    by
  first | (simp [State.loadClock]; done) | (simp only [State.loadClock]; (repeat' split) <;> simp)

@[simp] theorem State.applyImage_frame (s : State) (rb : List Readback) (rs : List (Prod Nat (List Byte))) (fd :
    Followed) (h1 : fd ≠ .mode) (h2 : fd ≠ .banks) (h3 : fd ≠ .dram) (h4 : fd ≠ .hostMem) : (State.applyImage s rb
    rs).rd fd = s.rd fd := by
  first | (simp [h1, h2, h3, h4, State.applyImage]; done) | (simp only [State.applyImage]; (repeat' split) <;> simp [h1, h2, h3, h4])

@[simp] theorem State.bootStep_frame (s : State) (k : Nat) (fd : Followed) : (State.bootStep s k).rd fd = s.rd fd :=
    by
  first | (simp [State.bootStep]; done) | (simp only [State.bootStep]; (repeat' split) <;> simp)

@[simp] theorem State.tempMax_frame (s : State) (ts : List (BitVec 16)) (fd : Followed) : (State.tempMax s ts).rd fd =
    s.rd fd := by
  first | (simp [State.tempMax]; done) | (simp only [State.tempMax]; (repeat' split) <;> simp)

@[simp] theorem State.keepSample_frame (s : State) (ts : List (BitVec 16)) (fd : Followed) (h1 : fd ≠ .dram) (h2 : fd
    ≠ .sensors) : (State.keepSample s ts).rd fd = s.rd fd := by
  first | (simp [h1, h2, State.keepSample]; done) | (simp only [State.keepSample]; (repeat' split) <;> simp [h1, h2])

@[simp] theorem State.tempAlert_frame (s : State) (hit : Bool) (fd : Followed) (h1 : fd ≠ .dram) : (State.tempAlert s
    hit).rd fd = s.rd fd := by
  first | (simp [h1, State.tempAlert]; done) | (simp only [State.tempAlert]; (repeat' split) <;> simp [h1])

@[simp] theorem State.tempWarn_frame (s : State) (hit : Bool) (fd : Followed) (h1 : fd ≠ .dram) : (State.tempWarn s
    hit).rd fd = s.rd fd := by
  first | (simp [h1, State.tempWarn]; done) | (simp only [State.tempWarn]; (repeat' split) <;> simp [h1])

@[simp] theorem State.tempSample_frame (s : State) (ts : List (BitVec 16)) (fd : Followed) (h1 : fd ≠ .mode) (h2 : fd
    ≠ .banks) (h3 : fd ≠ .dram) (h4 : fd ≠ .shed) (h5 : fd ≠ .sensors) (h6 : fd ≠ .hostMem) : (State.tempSample s
    ts).rd fd = s.rd fd := by
  first | (simp [h1, h2, h3, h4, h5, h6, State.tempSample]; done) | (simp only [State.tempSample]; (repeat' split) <;> simp [h1, h2, h3, h4, h5, h6])

@[simp] theorem State.clearSram_frame (s : State) (fd : Followed) (h1 : fd ≠ .banks) : (State.clearSram s).rd fd =
    s.rd fd := by
  first | (simp [h1, State.clearSram]; done) | (simp only [State.clearSram]; (repeat' split) <;> simp [h1])

@[simp] theorem State.flashFound_frame (s : State) (f : Sfdp) (fd : Followed) : (State.flashFound s f).rd fd = s.rd fd
    := by
  first | (simp [State.flashFound]; done) | (simp only [State.flashFound]; (repeat' split) <;> simp)

@[simp] theorem State.checkHeader_frame (s : State) (k : Nat) (fd : Followed) : (State.checkHeader s k).rd fd = s.rd
    fd := by
  first | (simp [State.checkHeader]; done) | (simp only [State.checkHeader]; (repeat' split) <;> simp)

@[simp] theorem State.bootFrom_frame (s : State) (k : Nat) (fd : Followed) : (State.bootFrom s k).rd fd = s.rd fd :=
    by
  first | (simp [State.bootFrom]; done) | (simp only [State.bootFrom]; (repeat' split) <;> simp)

@[simp] theorem State.rootChange_frame (s : State) (fd : Followed) (h1 : fd ≠ .mode) (h2 : fd ≠ .dram) :
    (State.rootChange s).rd fd = s.rd fd := by
  first | (simp [h1, h2, State.rootChange]; done) | (simp only [State.rootChange]; (repeat' split) <;> simp [h1, h2])

@[simp] theorem State.upAgain_frame (s : State) (fd : Followed) : (State.upAgain s).rd fd = s.rd fd := by
  first | (simp [State.upAgain]; done) | (simp only [State.upAgain]; (repeat' split) <;> simp)

@[simp] theorem State.reselect_frame (s : State) (fd : Followed) : (State.reselect s).rd fd = s.rd fd := by
  first | (simp [State.reselect]; done) | (simp only [State.reselect]; (repeat' split) <;> simp)

@[simp] theorem State.storeRootCfg_frame (s : State) (v : Word) (fd : Followed) : (State.storeRootCfg s v).rd fd =
    s.rd fd := by
  first | (simp [State.storeRootCfg]; done) | (simp only [State.storeRootCfg]; (repeat' split) <;> simp)

@[simp] theorem State.writeRootCfg_frame (s : State) (v : Word) (fd : Followed) (h1 : fd ≠ .mode) (h2 : fd ≠ .dram) :
    (State.writeRootCfg s v).rd fd = s.rd fd := by
  first | (simp [h1, h2, State.writeRootCfg]; done) | (simp only [State.writeRootCfg]; (repeat' split) <;> simp [h1, h2])

@[simp] theorem State.dropSource_frame (s : State) (fd : Followed) : (State.dropSource s).rd fd = s.rd fd := by
  first | (simp [State.dropSource]; done) | (simp only [State.dropSource]; (repeat' split) <;> simp)

@[simp] theorem State.holdover_frame (s : State) (fd : Followed) (h1 : fd ≠ .mode) (h2 : fd ≠ .dram) : (State.holdover
    s).rd fd = s.rd fd := by
  first | (simp [h1, h2, State.holdover]; done) | (simp only [State.holdover]; (repeat' split) <;> simp [h1, h2])

@[simp] theorem State.seeRefs_frame (s : State) (r : RefSeen) (fd : Followed) : (State.seeRefs s r).rd fd = s.rd fd :=
    by
  first | (simp [State.seeRefs]; done) | (simp only [State.seeRefs]; (repeat' split) <;> simp)

@[simp] theorem State.timeWrap_frame (s : State) (fd : Followed) (h1 : fd ≠ .epoch) (h2 : fd ≠ .dram) :
    (State.timeWrap s).rd fd = s.rd fd := by
  first | (simp [h1, h2, State.timeWrap]; done) | (simp only [State.timeWrap]; (repeat' split) <;> simp [h1, h2])

@[simp] theorem State.tick_frame (s : State) (fd : Followed) (h1 : fd ≠ .time) (h2 : fd ≠ .epoch) (h3 : fd ≠ .dram) :
    (State.tick s).rd fd = s.rd fd := by
  first | (simp [h1, h2, h3, State.tick]; done) | (simp only [State.tick]; (repeat' split) <;> simp [h1, h2, h3])

@[simp] theorem State.moveTimers_frame (s : State) (d : Int) (fd : Followed) : (State.moveTimers s d).rd fd = s.rd fd
    := by
  cases fd <;> rfl

@[simp] theorem State.timeStep_frame (s : State) (v : Int) (fd : Followed) (h1 : fd ≠ .time) (h2 : fd ≠ .dram) :
    (State.timeStep s v).rd fd = s.rd fd := by
  first | (simp [h1, h2, State.timeStep]; done) | (simp only [State.timeStep]; (repeat' split) <;> simp [h1, h2])

@[simp] theorem State.syncAdvance_frame (s : State) (v : Int) (fd : Followed) (h1 : fd ≠ .time) (h2 : fd ≠ .dram) :
    (State.syncAdvance s v).rd fd = s.rd fd := by
  first | (simp [h1, h2, State.syncAdvance]; done) | (simp only [State.syncAdvance]; (repeat' split) <;> simp [h1, h2])

@[simp] theorem State.nvmWrite_frame (s : State) (op : Nat) (fd : Followed) (h1 : fd ≠ .dram) (h2 : fd ≠ .hostMem) :
    (State.nvmWrite s op).rd fd = s.rd fd := by
  first | (simp [h1, h2, State.nvmWrite]; done) | (simp only [State.nvmWrite]; (repeat' split) <;> simp [h1, h2])

@[simp] theorem State.eraseFinish_frame (s : State) (fd : Followed) (h1 : fd ≠ .otp) (h2 : fd ≠ .jtag) :
    (State.eraseFinish s).rd fd = s.rd fd := by
  first | (simp [h1, h2, State.eraseFinish]; done) | (simp only [State.eraseFinish]; (repeat' split) <;> simp [h1, h2])

@[simp] theorem State.benchNow_frame (rings : BitVec 64) (n : Nat) (s : State) (fd : Followed) (h1 : fd ≠ .dram) :
    (State.benchNow rings n s).rd fd = s.rd fd := by
  first | (simp [h1, State.benchNow]; done) | (simp only [State.benchNow]; (repeat' split) <;> simp [h1])

@[simp] theorem State.monPark_frame (s : State) (g : Nat) (n : Nat) (fd : Followed) (h1 : fd ≠ .dram) : (State.monPark
    s g n).rd fd = s.rd fd := by
  first | (simp [h1, State.monPark]; done) | (simp only [State.monPark]; (repeat' split) <;> simp [h1])

@[simp] theorem State.monAbort_frame (s : State) (g : Nat) (n : Nat) (show_ : Option Nat) (fd : Followed) (h1 : fd ≠
    .mode) (h2 : fd ≠ .dram) : (State.monAbort s g n show_).rd fd = s.rd fd := by
  first | (simp [h1, h2, State.monAbort]; done) | (simp only [State.monAbort]; (repeat' split) <;> simp [h1, h2])

@[simp] theorem State.monRing_frame (s : State) (g : Nat) (park : Bool) (abort : Bool) (fd : Followed) (h1 : fd ≠
    .mode) (h2 : fd ≠ .dram) : (State.monRing s g park abort).rd fd = s.rd fd := by
  first | (simp [h1, h2, State.monRing]; done) | (simp only [State.monRing]; (repeat' split) <;> simp [h1, h2])

@[simp] theorem State.pinTrip_frame (s : State) (c : Nat) (high : Bool) (fd : Followed) (h1 : fd ≠ .mode) (h2 : fd ≠
    .dram) : (State.pinTrip s c high).rd fd = s.rd fd := by
  first | (simp [h1, h2, State.pinTrip]; done) | (simp only [State.pinTrip]; (repeat' split) <;> simp [h1, h2])

@[simp] theorem State.senseTrip_frame (s : State) (m : Nat) (uv : Int) (fd : Followed) (h1 : fd ≠ .mode) (h2 : fd ≠
    .dram) : (State.senseTrip s m uv).rd fd = s.rd fd := by
  first | (simp [h1, h2, State.senseTrip]; done) | (simp only [State.senseTrip]; (repeat' split) <;> simp [h1, h2])

@[simp] theorem State.writeSref_frame (s : State) (m : Nat) (v : Word) (fd : Followed) : (State.writeSref s m v).rd fd
    = s.rd fd := by
  first | (simp [State.writeSref]; done) | (simp only [State.writeSref]; (repeat' split) <;> simp)

@[simp] theorem State.writeSysPark_frame (s : State) (v : Word) (fd : Followed) (h1 : fd ≠ .dram) :
    (State.writeSysPark s v).rd fd = s.rd fd := by
  first | (simp [h1, State.writeSysPark]; done) | (simp only [State.writeSysPark]; (repeat' split) <;> simp [h1])

@[simp] theorem State.ppmuAsk_frame (s : State) (c : Nat) (fd : Followed) : (State.ppmuAsk s c).rd fd = s.rd fd := by
  first | (simp [State.ppmuAsk]; done) | (simp only [State.ppmuAsk]; (repeat' split) <;> simp)

@[simp] theorem State.ppmuStart_frame (s : State) (c : Nat) (fd : Followed) : (State.ppmuStart s c).rd fd = s.rd fd :=
    by
  first | (simp [State.ppmuStart]; done) | (simp only [State.ppmuStart]; (repeat' split) <;> simp)

@[simp] theorem State.writePpmuCfg_frame (s : State) (c : Nat) (v : Word) (fd : Followed) (h1 : fd ≠ .dram) :
    (State.writePpmuCfg s c v).rd fd = s.rd fd := by
  first | (simp [h1, State.writePpmuCfg]; done) | (simp only [State.writePpmuCfg]; (repeat' split) <;> simp [h1])

@[simp] theorem State.ppmuResult_frame (s : State) (c : Nat) (cur : Bool) (vs : List Int) (clamped : Bool) (fd :
    Followed) : (State.ppmuResult s c cur vs clamped).rd fd = s.rd fd := by
  first | (simp [State.ppmuResult]; done) | (simp only [State.ppmuResult]; (repeat' split) <;> simp)

@[simp] theorem State.writeSenseMeas_frame (s : State) (m : Nat) (v : Word) (fd : Followed) : (State.writeSenseMeas s
    m v).rd fd = s.rd fd := by
  first | (simp [State.writeSenseMeas]; done) | (simp only [State.writeSenseMeas]; (repeat' split) <;> simp)

@[simp] theorem State.writeSrefStatus_frame (s : State) (m : Nat) (v : Word) (fd : Followed) : (State.writeSrefStatus
    s m v).rd fd = s.rd fd := by
  first | (simp [State.writeSrefStatus]; done) | (simp only [State.writeSrefStatus]; (repeat' split) <;> simp)

@[simp] theorem State.readbackEvent_frame (s : State) (fd : Followed) (h1 : fd ≠ .dram) : (State.readbackEvent s).rd
    fd = s.rd fd := by
  first | (simp [h1, State.readbackEvent]; done) | (simp only [State.readbackEvent]; (repeat' split) <;> simp [h1])

@[simp] theorem State.srefCheck_frame (s : State) (m : Nat) (uv : Int) (fd : Followed) (h1 : fd ≠ .dram) :
    (State.srefCheck s m uv).rd fd = s.rd fd := by
  first | (simp [h1, State.srefCheck]; done) | (simp only [State.srefCheck]; (repeat' split) <;> simp [h1])

@[simp] theorem State.senseCheck_frame (s : State) (m : Nat) (high : Bool) (uv : Int) (fd : Followed) (h1 : fd ≠
    .dram) : (State.senseCheck s m high uv).rd fd = s.rd fd := by
  first | (simp [h1, State.senseCheck]; done) | (simp only [State.senseCheck]; (repeat' split) <;> simp [h1])

@[simp] theorem State.convResult_frame (s : State) (sref : Bool) (m : Nat) (v : BitVec 24) (fd : Followed) (h1 : fd ≠
    .dram) : (State.convResult s sref m v).rd fd = s.rd fd := by
  first | (simp [h1, State.convResult]; done) | (simp only [State.convResult]; (repeat' split) <;> simp [h1])

@[simp] theorem State.writePinStatus_frame (s : State) (c : Nat) (v : Word) (fd : Followed) : (State.writePinStatus s
    c v).rd fd = s.rd fd := by
  first | (simp [State.writePinStatus]; done) | (simp only [State.writePinStatus]; (repeat' split) <;> simp)

@[simp] theorem State.writeSeqCtrl_frame (s : State) (n : Nat) (v : Word) (fd : Followed) (h1 : fd ≠ .mode) (h2 : fd ≠
    .dram) : (State.writeSeqCtrl s n v).rd fd = s.rd fd := by
  first | (simp [h1, h2, State.writeSeqCtrl]; done) | (simp only [State.writeSeqCtrl]; (repeat' split) <;> simp [h1, h2])

@[simp] theorem State.seqCtrl_frame (s : State) (n : Nat) (v : Word) (fd : Followed) (h1 : fd ≠ .mode) (h2 : fd ≠
    .dram) : (State.seqCtrl s n v).rd fd = s.rd fd := by
  first | (simp [h1, h2, State.seqCtrl]; done) | (simp only [State.seqCtrl]; (repeat' split) <;> simp [h1, h2])

@[simp] theorem State.timingReport_frame (s : State) (n : Nat) (f : TimingFail) (fd : Followed) : (State.timingReport
    s n f).rd fd = s.rd fd := by
  first | (simp [State.timingReport]; done) | (simp only [State.timingReport]; (repeat' split) <;> simp)

@[simp] theorem State.timingClear_frame (s : State) (n : Nat) (fd : Followed) : (State.timingClear s n).rd fd = s.rd
    fd := by
  first | (simp [State.timingClear]; done) | (simp only [State.timingClear]; (repeat' split) <;> simp)

@[simp] theorem State.startChan_frame (c : Nat) (s : State) (fd : Followed) : (State.startChan c s).rd fd = s.rd fd :=
    by
  first | (simp [State.startChan]; done) | (simp only [State.startChan]; (repeat' split) <;> simp)

@[simp] theorem State.startReset_frame (s : State) (n : Nat) (fd : Followed) (h1 : fd ≠ .dram) : (State.startReset s
    n).rd fd = s.rd fd := by
  first | (simp [h1, State.startReset]; done) | (simp only [State.startReset]; (repeat' split) <;> simp [h1])

@[simp] theorem State.armedGo_frame (s : State) (n : Nat) (r : StartReq) (fd : Followed) (h1 : fd ≠ .mode) (h2 : fd ≠
    .dram) : (State.armedGo s n r).rd fd = s.rd fd := by
  first | (simp [h1, h2, State.armedGo]; done) | (simp only [State.armedGo]; (repeat' split) <;> simp [h1, h2])

@[simp] theorem State.dmaDramPut_frame (s : State) (a : Nat) (bs : List Byte) (fd : Followed) (h1 : fd ≠ .dram) :
    (State.dmaDramPut s a bs).rd fd = s.rd fd := by
  first | (simp [h1, State.dmaDramPut]; done) | (simp only [State.dmaDramPut]; (repeat' split) <;> simp [h1])

@[simp] theorem State.hostDramPut_frame (s : State) (a : Nat) (bs : List Byte) (fd : Followed) (h1 : fd ≠ .dram) :
    (State.hostDramPut s a bs).rd fd = s.rd fd := by
  first | (simp [h1, State.hostDramPut]; done) | (simp only [State.hostDramPut]; (repeat' split) <;> simp [h1])

@[simp] theorem State.setPart_frame (s : State) (i : Nat) (size : Bool) (v : Word) (fd : Followed) (h1 : fd ≠ .dram) :
    (State.setPart s i size v).rd fd = s.rd fd := by
  first | (simp [h1, State.setPart]; done) | (simp only [State.setPart]; (repeat' split) <;> simp [h1])

@[simp] theorem State.writePart_frame (s : State) (i : Nat) (size : Bool) (v : Word) (fd : Followed) (h1 : fd ≠ .dram)
    : (State.writePart s i size v).rd fd = s.rd fd := by
  first | (simp [h1, State.writePart]; done) | (simp only [State.writePart]; (repeat' split) <;> simp [h1])

@[simp] theorem State.writeCbMask_frame (s : State) (n : Nat) (v : Word) (fd : Followed) : (State.writeCbMask s n
    v).rd fd = s.rd fd := by
  first | (simp [State.writeCbMask]; done) | (simp only [State.writeCbMask]; (repeat' split) <;> simp)

@[simp] theorem State.ringGuard_frame (s : State) (g : Nat) (k : State → State) (fd : Followed) (hk : ∀ x, (k x).rd fd
    = x.rd fd) : (State.ringGuard s g k).rd fd = s.rd fd := by
  first | (simp [hk, State.ringGuard]; done) | (simp only [State.ringGuard]; (repeat' split) <;> simp [hk])

@[simp] theorem State.writeRingCh_frame (s : State) (g : Nat) (i : Nat) (v : Word) (fd : Followed) :
    (State.writeRingCh s g i v).rd fd = s.rd fd := by
  first | (simp [State.writeRingCh]; done) | (simp only [State.writeRingCh]; (repeat' split) <;> simp)

@[simp] theorem State.patrolPast_frame (s : State) (r : Nat) (fd : Followed) : (State.patrolPast s r).rd fd = s.rd fd
    := by
  first | (simp [State.patrolPast]; done) | (simp only [State.patrolPast]; (repeat' split) <;> simp)

@[simp] theorem State.leaveUpset_frame (s : State) (id : Nat) (a : Nat) (fd : Followed) : (State.leaveUpset s id a).rd
    fd = s.rd fd := by
  first | (simp [State.leaveUpset]; done) | (simp only [State.leaveUpset]; (repeat' split) <;> simp)

@[simp] theorem State.patrolEcc_frame (s : State) (k : Nat) (a : Nat) (ecc : Ecc) (fd : Followed) (h1 : fd ≠ .dram) :
    (State.patrolEcc s k a ecc).rd fd = s.rd fd := by
  first | (simp [h1, State.patrolEcc]; done) | (simp only [State.patrolEcc]; (repeat' split) <;> simp [h1])

@[simp] theorem State.scrub_frame (s : State) (a : Nat) (ecc : Ecc) (fd : Followed) (h1 : fd ≠ .dram) : (State.scrub s
    a ecc).rd fd = s.rd fd := by
  first | (simp [h1, State.scrub]; done) | (simp only [State.scrub]; (repeat' split) <;> simp [h1])

@[simp] theorem State.patrolRegion_frame (s : State) (r : Nat) (ecc : Ecc) (fd : Followed) (h1 : fd ≠ .dram) :
    (State.patrolRegion s r ecc).rd fd = s.rd fd := by
  first | (simp [h1, State.patrolRegion]; done) | (simp only [State.patrolRegion]; (repeat' split) <;> simp [h1])

@[simp] theorem State.patrolDone_frame (s : State) (ok : Bool) (fd : Followed) (h1 : fd ≠ .dram) : (State.patrolDone s
    ok).rd fd = s.rd fd := by
  first | (simp [h1, State.patrolDone]; done) | (simp only [State.patrolDone]; (repeat' split) <;> simp [h1])

@[simp] theorem State.poolEcc_frame (s : State) (o : Nat) (n : Nat) (ecc : Ecc) (fd : Followed) (h1 : fd ≠ .mode) (h2
    : fd ≠ .banks) (h3 : fd ≠ .dram) (h4 : fd ≠ .hostMem) : (State.poolEcc s o n ecc).rd fd = s.rd fd := by
  first | (simp [h1, h2, h3, h4, State.poolEcc]; done) | (simp only [State.poolEcc]; (repeat' split) <;> simp [h1, h2, h3, h4])

@[simp] theorem State.answer_frame (s : State) (bs : List Byte) (poisoned : Bool) (fd : Followed) : (State.answer s bs
    poisoned).rd fd = s.rd fd := by
  first | (simp [State.answer]; done) | (simp only [State.answer]; (repeat' split) <;> simp)

@[simp] theorem State.writePage_frame (s : State) (i : Nat) (v : BitVec 16) (fd : Followed) : (State.writePage s i
    v).rd fd = s.rd fd := by
  first | (simp [State.writePage]; done) | (simp only [State.writePage]; (repeat' split) <;> simp)

@[simp] theorem State.rwCollision_frame (s : State) (fd : Followed) : (State.rwCollision s).rd fd = s.rd fd := by
  first | (simp [State.rwCollision]; done) | (simp only [State.rwCollision]; (repeat' split) <;> simp)

@[simp] theorem State.answerFree_frame (s : State) (n : Nat) (poisoned : Bool) (fd : Followed) : (State.answerFree s n
    poisoned).rd fd = s.rd fd := by
  first | (simp [State.answerFree]; done) | (simp only [State.answerFree]; (repeat' split) <;> simp)

@[simp] theorem State.boardMbox_frame (s : State) (i : Nat) (coll : Option Word) (ecc : Ecc) (fd : Followed) (h1 : fd
    ≠ .dram) : (State.boardMbox s i coll ecc).rd fd = s.rd fd := by
  first | (simp [h1, State.boardMbox]; done) | (simp only [State.boardMbox]; (repeat' split) <;> simp [h1])

@[simp] theorem State.boardPut_frame (s : State) (i : Nat) (v : BitVec 16) (coll : BoardColl) (fd : Followed) (h1 : fd
    ≠ .dram) : (State.boardPut s i v coll).rd fd = s.rd fd := by
  first | (simp [h1, State.boardPut]; done) | (simp only [State.boardPut]; (repeat' split) <;> simp [h1])

@[simp] theorem State.atomicOn_frame (s : State) (acc : Access) (o : Nat) (n : Nat) (ecc : Ecc) (f : Nat → Nat) (fd :
    Followed) (h1 : fd ≠ .mode) (h2 : fd ≠ .banks) (h3 : fd ≠ .dram) (h4 : fd ≠ .hostMem) : (State.atomicOn s acc o n
    ecc f).rd fd = s.rd fd := by
  first | (simp [h1, h2, h3, h4, State.atomicOn]; done) | (simp only [State.atomicOn]; (repeat' split) <;> simp [h1, h2, h3, h4])

@[simp] theorem State.atomic_frame (s : State) (at_ : AtomicAt) (n : Nat) (f : Nat → Nat) (fd : Followed) (h1 : fd ≠
    .mode) (h2 : fd ≠ .banks) (h3 : fd ≠ .dram) (h4 : fd ≠ .hostMem) : (State.atomic s at_ n f).rd fd = s.rd fd := by
  first | (simp [h1, h2, h3, h4, State.atomic]; done) | (simp only [State.atomic]; (repeat' split) <;> simp [h1, h2, h3, h4])

@[simp] theorem State.sendPending_frame (s : State) (v : Nat) (fd : Followed) : (State.sendPending s v).rd fd = s.rd
    fd := by
  first | (simp [State.sendPending]; done) | (simp only [State.sendPending]; (repeat' split) <;> simp)

@[simp] theorem State.writeMsix_frame (s : State) (a : Nat) (v : Word) (fd : Followed) : (State.writeMsix s a v).rd fd
    = s.rd fd := by
  first | (simp [State.writeMsix]; done) | (simp only [State.writeMsix]; (repeat' split) <;> simp)

@[simp] theorem State.writeQCfg_frame (s : State) (q : Nat) (v : Word) (fd : Followed) : (State.writeQCfg s q v).rd fd
    = s.rd fd := by
  first | (simp [State.writeQCfg]; done) | (simp only [State.writeQCfg]; (repeat' split) <;> simp)

@[simp] theorem State.writeQBase_frame (s : State) (q : Nat) (a : Nat) (v : Word) (fd : Followed) : (State.writeQBase
    s q a v).rd fd = s.rd fd := by
  first | (simp [State.writeQBase]; done) | (simp only [State.writeQBase]; (repeat' split) <;> simp)

@[simp] theorem State.writeSqTail_frame (s : State) (q : Nat) (v : Word) (fd : Followed) : (State.writeSqTail s q
    v).rd fd = s.rd fd := by
  first | (simp [State.writeSqTail]; done) | (simp only [State.writeSqTail]; (repeat' split) <;> simp)

@[simp] theorem State.complAll_frame (q : Nat) (x1 : Nat) (x2 : State) (fd : Followed) (h1 : fd ≠ .hostMem) :
    (State.complAll q x1 x2).rd fd = x2.rd fd := by
  fun_induction State.complAll q x1 x2 <;> simp_all +zetaDelta

@[simp] theorem State.writeCqHead_frame (s : State) (q : Nat) (v : Word) (fd : Followed) (h1 : fd ≠ .hostMem) :
    (State.writeCqHead s q v).rd fd = s.rd fd := by
  first | (simp [h1, State.writeCqHead]; done) | (simp only [State.writeCqHead]; (repeat' split) <;> simp [h1])

@[simp] theorem State.writeTimeout_frame (s : State) (f : Field) (v : Word) (fd : Followed) : (State.writeTimeout s f
    v).rd fd = s.rd fd := by
  first | (simp [State.writeTimeout]; done) | (simp only [State.writeTimeout]; (repeat' split) <;> simp)

@[simp] theorem State.resetMsix_frame (s : State) (fd : Followed) : (State.resetMsix s).rd fd = s.rd fd := by
  first | (simp [State.resetMsix]; done) | (simp only [State.resetMsix]; (repeat' split) <;> simp)

@[simp] theorem State.functionReset_frame (s : State) (fd : Followed) (h1 : fd ≠ .dram) : (State.functionReset s).rd
    fd = s.rd fd := by
  first | (simp [h1, State.functionReset]; done) | (simp only [State.functionReset]; (repeat' split) <;> simp [h1])

@[simp] theorem State.lcResult_frame (s : State) (r : Nat) (fd : Followed) : (State.lcResult s r).rd fd = s.rd fd :=
    by
  first | (simp [State.lcResult]; done) | (simp only [State.lcResult]; (repeat' split) <;> simp)

@[simp] theorem State.lcAdvance_frame (s : State) (req : Nat) (fd : Followed) (h1 : fd ≠ .otp) (h2 : fd ≠ .jtag) (h3 :
    fd ≠ .mode) (h4 : fd ≠ .banks) (h5 : fd ≠ .dram) (h6 : fd ≠ .hostMem) : (State.lcAdvance s req).rd fd = s.rd fd :=
    by
  first | (simp [h1, h2, h3, h4, h5, h6, State.lcAdvance]; done) | (simp only [State.lcAdvance]; (repeat' split) <;> simp [h1, h2, h3, h4, h5, h6])

@[simp] theorem State.writeLcReq_frame (s : State) (v : Word) (fd : Followed) (h1 : fd ≠ .otp) (h2 : fd ≠ .jtag) (h3 :
    fd ≠ .mode) (h4 : fd ≠ .banks) (h5 : fd ≠ .dram) (h6 : fd ≠ .hostMem) : (State.writeLcReq s v).rd fd = s.rd fd :=
    by
  first | (simp [h1, h2, h3, h4, h5, h6, State.writeLcReq]; done) | (simp only [State.writeLcReq]; (repeat' split) <;> simp [h1, h2, h3, h4, h5, h6])

@[simp] theorem State.writeLcDebug_frame (s : State) (v : Word) (fd : Followed) (h1 : fd ≠ .jtag) :
    (State.writeLcDebug s v).rd fd = s.rd fd := by
  first | (simp [h1, State.writeLcDebug]; done) | (simp only [State.writeLcDebug]; (repeat' split) <;> simp [h1])

@[simp] theorem State.lcEffect_frame (s : State) (b : List Byte) (q : Nat) (id : Nat) (fd : Followed) (h1 : fd ≠ .otp)
    (h2 : fd ≠ .jtag) (h3 : fd ≠ .mode) (h4 : fd ≠ .banks) (h5 : fd ≠ .dram) (h6 : fd ≠ .hostMem) : (State.lcEffect s
    b q id).rd fd = s.rd fd := by
  first | (simp [h1, h2, h3, h4, h5, h6, State.lcEffect]; done) | (simp only [State.lcEffect]; (repeat' split) <;> simp [h1, h2, h3, h4, h5, h6])

@[simp] theorem State.lcRefuse_frame (s : State) (q : Nat) (id : Nat) (r : Nat) (fd : Followed) : (State.lcRefuse s q
    id r).rd fd = s.rd fd := by
  first | (simp [State.lcRefuse]; done) | (simp only [State.lcRefuse]; (repeat' split) <;> simp)

@[simp] theorem State.signedRequest_frame (s : State) (b : List Byte) (q : Nat) (id : Nat) (fd : Followed) (h1 : fd ≠
    .otp) (h2 : fd ≠ .jtag) (h3 : fd ≠ .mode) (h4 : fd ≠ .banks) (h5 : fd ≠ .dram) (h6 : fd ≠ .hostMem) :
    (State.signedRequest s b q id).rd fd = s.rd fd := by
  first | (simp [h1, h2, h3, h4, h5, h6, State.signedRequest]; done) | (simp only [State.signedRequest]; (repeat' split) <;> simp [h1, h2, h3, h4, h5, h6])

@[simp] theorem State.sendGo_frame (s : State) (kind : Nat) (sh : Nat) (cue : Nat) (t : Nat) (fd : Followed) (h1 : fd
    ≠ .mode) (h2 : fd ≠ .dram) : (State.sendGo s kind sh cue t).rd fd = s.rd fd := by
  first | (simp [h1, h2, State.sendGo]; done) | (simp only [State.sendGo]; (repeat' split) <;> simp [h1, h2])

@[simp] theorem State.sendWhistle_frame (s : State) (kind : Nat) (sh : Nat) (cue : Nat) (t : Nat) (fd : Followed) (h1
    : fd ≠ .mode) (h2 : fd ≠ .dram) : (State.sendWhistle s kind sh cue t).rd fd = s.rd fd := by
  first | (simp [h1, h2, State.sendWhistle]; done) | (simp only [State.sendWhistle]; (repeat' split) <;> simp [h1, h2])

@[simp] theorem State.writeWhistleCfg_frame (s : State) (v : Word) (fd : Followed) (h1 : fd ≠ .mode) (h2 : fd ≠ .dram)
    : (State.writeWhistleCfg s v).rd fd = s.rd fd := by
  first | (simp [h1, h2, State.writeWhistleCfg]; done) | (simp only [State.writeWhistleCfg]; (repeat' split) <;> simp [h1, h2])

@[simp] theorem State.writePortCfg_frame (s : State) (p : Nat) (v : Word) (fd : Followed) (h1 : fd ≠ .mode) (h2 : fd ≠
    .dram) : (State.writePortCfg s p v).rd fd = s.rd fd := by
  first | (simp [h1, h2, State.writePortCfg]; done) | (simp only [State.writePortCfg]; (repeat' split) <;> simp [h1, h2])

@[simp] theorem State.writeShow_frame (s : State) (sh : Nat) (a : Nat) (v : Word) (fd : Followed) : (State.writeShow s
    sh a v).rd fd = s.rd fd := by
  first | (simp [State.writeShow]; done) | (simp only [State.writeShow]; (repeat' split) <;> simp)

@[simp] theorem State.unbench_frame (sh : Nat) (d : Nat) (s : State) (fd : Followed) (h1 : fd ≠ .dram) :
    (State.unbench sh d s).rd fd = s.rd fd := by
  first | (simp [h1, State.unbench]; done) | (simp only [State.unbench]; (repeat' split) <;> simp [h1])

@[simp] theorem State.writeShowBench_frame (s : State) (sh : Nat) (i : Nat) (v : Word) (fd : Followed) (h1 : fd ≠
    .dram) : (State.writeShowBench s sh i v).rd fd = s.rd fd := by
  first | (simp [h1, State.writeShowBench]; done) | (simp only [State.writeShowBench]; (repeat' split) <;> simp [h1])

@[simp] theorem State.setLatch_frame (s : State) (src : Src) (a : Nat) (w : Word) (fd : Followed) : (State.setLatch s
    src a w).rd fd = s.rd fd := by
  first | (simp [State.setLatch]; done) | (simp only [State.setLatch]; (repeat' split) <;> simp)

@[simp] theorem State.latchFor_frame (s : State) (src : Src) (b : Nat) (a : Nat) (fd : Followed) : (State.latchFor s
    src b a).rd fd = s.rd fd := by
  first | (simp [State.latchFor]; done) | (simp only [State.latchFor]; (repeat' split) <;> simp)

@[simp] theorem State.readReg_frame (s : State) (src : Src) (a : Nat) (fd : Followed) : (State.readReg s src a).2.rd
    fd = s.rd fd := by
  first | (simp [State.readReg]; done) | (simp only [State.readReg]; (repeat' split) <;> simp)

@[simp] theorem State.sramPut_frame (s : State) (id : Nat) (o : Nat) (bs : List Byte) (fd : Followed) (h1 : fd ≠
    .banks) : (State.sramPut s id o bs).rd fd = s.rd fd := by
  first | (simp [h1, State.sramPut]; done) | (simp only [State.sramPut]; (repeat' split) <;> simp [h1])

@[simp] theorem State.busRead_frame (s : State) (src : Src) (a : Nat) (fd : Followed) : (State.busRead s src a).2.rd
    fd = s.rd fd := by
  first | (simp [State.busRead]; done) | (simp only [State.busRead]; (repeat' split) <;> simp)

@[simp] theorem State.busReads_frame (src : Src) (x1 : Nat) (x2 : Nat) (x3 : State) (fd : Followed) : (State.busReads
    src x1 x2 x3).2.rd fd = x3.rd fd := by
  fun_induction State.busReads src x1 x2 x3 <;> simp_all +zetaDelta

@[simp] theorem State.windowEcc_frame (s : State) (src : Src) (a : Nat) (n : Nat) (ecc : Ecc) (fd : Followed) (h1 : fd
    ≠ .mode) (h2 : fd ≠ .banks) (h3 : fd ≠ .dram) (h4 : fd ≠ .hostMem) : (State.windowEcc s src a n ecc).rd fd = s.rd
    fd := by
  first | (simp [h1, h2, h3, h4, State.windowEcc]; done) | (simp only [State.windowEcc]; (repeat' split) <;> simp [h1, h2, h3, h4])

@[simp] theorem State.pinGuard_frame (s : State) (c : Nat) (k : State → State) (fd : Followed) (hk : ∀ x, (k x).rd fd
    = x.rd fd) : (State.pinGuard s c k).rd fd = s.rd fd := by
  first | (simp [hk, State.pinGuard]; done) | (simp only [State.pinGuard]; (repeat' split) <;> simp [hk])

@[simp] theorem State.pinError_frame (s : State) (c : Nat) (a : Nat) (k : State → State) (fd : Followed) (h1 : fd ≠
    .dram) (hk : ∀ x, (k x).rd fd = x.rd fd) : (State.pinError s c a k).rd fd = s.rd fd := by
  first | (simp [h1, hk, State.pinError]; done) | (simp only [State.pinError]; (repeat' split) <;> simp [h1, hk])

@[simp] theorem State.trkGuard_frame (s : State) (c : Nat) (k : State → State) (fd : Followed) (hk : ∀ x, (k x).rd fd
    = x.rd fd) : (State.trkGuard s c k).rd fd = s.rd fd := by
  first | (simp [hk, State.trkGuard]; done) | (simp only [State.trkGuard]; (repeat' split) <;> simp [hk])

@[simp] theorem State.seqGuard_frame (s : State) (n : Nat) (k : State → State) (fd : Followed) (hk : ∀ x, (k x).rd fd
    = x.rd fd) : (State.seqGuard s n k).rd fd = s.rd fd := by
  first | (simp [hk, State.seqGuard]; done) | (simp only [State.seqGuard]; (repeat' split) <;> simp [hk])

@[simp] theorem State.trigGuard_frame (s : State) (k : Nat) (f : State → State) (fd : Followed) (hk : ∀ x, (f x).rd fd
    = x.rd fd) : (State.trigGuard s k f).rd fd = s.rd fd := by
  first | (simp [hk, State.trigGuard]; done) | (simp only [State.trigGuard]; (repeat' split) <;> simp [hk])

@[simp] theorem State.streamGuard_frame (s : State) (i : Nat) (k : State → State) (fd : Followed) (hk : ∀ x, (k x).rd
    fd = x.rd fd) : (State.streamGuard s i k).rd fd = s.rd fd := by
  first | (simp [hk, State.streamGuard]; done) | (simp only [State.streamGuard]; (repeat' split) <;> simp [hk])

@[simp] theorem State.writeLow_frame (s : State) (b : Nat) (a : Nat) (v : Word) (fd : Followed) (h1 : fd ≠ .otp) (h2 :
    fd ≠ .jtag) (h3 : fd ≠ .mode) (h4 : fd ≠ .banks) (h5 : fd ≠ .dram) (h6 : fd ≠ .hostMem) : (State.writeLow s b a
    v).rd fd = s.rd fd := by
  first | (simp [h1, h2, h3, h4, h5, h6, State.writeLow]; done) | (simp only [State.writeLow]; (repeat' split) <;> simp [h1, h2, h3, h4, h5, h6])

@[simp] theorem State.writeHostLnk_frame (s : State) (b : Nat) (a : Nat) (i : Nat) (j : Nat) (v : Word) (fd :
    Followed) (h1 : fd ≠ .mode) (h2 : fd ≠ .dram) (h3 : fd ≠ .hostMem) : (State.writeHostLnk s b a i j v).rd fd = s.rd
    fd := by
  unfold State.writeHostLnk
  split <;> (try split) <;> simp [h1, h2, h3]

@[simp] theorem State.writeMid_frame (s : State) (b : Nat) (a : Nat) (i : Nat) (v : Word) (fd : Followed) (h1 : fd ≠
    .dram) : (State.writeMid s b a i v).rd fd = s.rd fd := by
  first | (simp [h1, State.writeMid]; done) | (simp only [State.writeMid]; (repeat' split) <;> simp [h1])

@[simp] theorem State.writeApg_frame (s : State) (n : Nat) (bit : Nat) (a : Nat) (v : Word) (fd : Followed) :
    (State.writeApg s n bit a v).rd fd = s.rd fd := by
  first | (simp [State.writeApg]; done) | (simp only [State.writeApg]; (repeat' split) <;> simp)

@[simp] theorem State.writeSeq_frame (s : State) (b : Nat) (a : Nat) (n : Nat) (v : Word) (fd : Followed) (h1 : fd ≠
    .mode) (h2 : fd ≠ .dram) : (State.writeSeq s b a n v).rd fd = s.rd fd := by
  first | (simp [h1, h2, State.writeSeq]; done) | (simp only [State.writeSeq]; (repeat' split) <;> simp [h1, h2])

@[simp] theorem State.writePin_frame (s : State) (b : Nat) (a : Nat) (c : Nat) (v : Word) (fd : Followed) (h1 : fd ≠
    .dram) : (State.writePin s b a c v).rd fd = s.rd fd := by
  first | (simp [h1, State.writePin]; done) | (simp only [State.writePin]; (repeat' split) <;> simp [h1])

@[simp] theorem State.writeFail_frame (s : State) (b : Nat) (a : Nat) (g : Nat) (i : Nat) (v : Word) (fd : Followed) :
    (State.writeFail s b a g i v).rd fd = s.rd fd := by
  first | (simp [State.writeFail]; done) | (simp only [State.writeFail]; (repeat' split) <;> simp)

@[simp] theorem State.writeReg_frame (s : State) (b : Nat) (a : Nat) (ix : List Nat) (v : Word) (fd : Followed) (h1 :
    fd ≠ .otp) (h2 : fd ≠ .jtag) (h3 : fd ≠ .mode) (h4 : fd ≠ .banks) (h5 : fd ≠ .dram) (h6 : fd ≠ .hostMem) :
    (State.writeReg s b a ix v).rd fd = s.rd fd := by
  first | (simp [h1, h2, h3, h4, h5, h6, State.writeReg]; done) | (simp only [State.writeReg]; (repeat' split) <;> simp [h1, h2, h3, h4, h5, h6])

@[simp] theorem State.windowWrite_frame (s : State) (id : Nat) (o : Nat) (v : Word) (be : BitVec 4) (fd : Followed)
    (h1 : fd ≠ .banks) (h2 : fd ≠ .dram) : (State.windowWrite s id o v be).rd fd = s.rd fd := by
  first | (simp [h1, h2, State.windowWrite]; done) | (simp only [State.windowWrite]; (repeat' split) <;> simp [h1, h2])

@[simp] theorem State.busWrite_frame (s : State) (src : Src) (a : Nat) (v : Word) (be : BitVec 4) (fd : Followed) (h1
    : fd ≠ .otp) (h2 : fd ≠ .jtag) (h3 : fd ≠ .mode) (h4 : fd ≠ .banks) (h5 : fd ≠ .dram) (h6 : fd ≠ .hostMem) :
    (State.busWrite s src a v be).rd fd = s.rd fd := by
  first | (simp [h1, h2, h3, h4, h5, h6, State.busWrite]; done) | (simp only [State.busWrite]; (repeat' split) <;> simp [h1, h2, h3, h4, h5, h6])

@[simp] theorem State.busWrites_frame (src : Src) (x1 : Nat) (x2 : List Word) (x3 : State) (fd : Followed) (h1 : fd ≠
    .otp) (h2 : fd ≠ .jtag) (h3 : fd ≠ .mode) (h4 : fd ≠ .banks) (h5 : fd ≠ .dram) (h6 : fd ≠ .hostMem) :
    (State.busWrites src x1 x2 x3).rd fd = x3.rd fd := by
  fun_induction State.busWrites src x1 x2 x3 <;> simp_all +zetaDelta

@[simp] theorem State.assignIndex_frame (s : State) (w : BitVec 56) (fd : Followed) : (State.assignIndex s w).rd fd =
    s.rd fd := by
  first | (simp [State.assignIndex]; done) | (simp only [State.assignIndex]; (repeat' split) <;> simp)

@[simp] theorem State.resend_frame (s : State) (p : Nat) (f : Unacked → Unacked) (fd : Followed) : (State.resend s p
    f).rd fd = s.rd fd := by
  first | (simp [State.resend]; done) | (simp only [State.resend]; (repeat' split) <;> simp)

@[simp] theorem State.portUp_frame (s : State) (p : Nat) (phy : BitVec 16) (w : BitVec 56) (fd : Followed) :
    (State.portUp s p phy w).rd fd = s.rd fd := by
  first | (simp [State.portUp]; done) | (simp only [State.portUp]; (repeat' split) <;> simp)

@[simp] theorem State.replay_frame (s : State) (p : Nat) (fd : Followed) (h1 : fd ≠ .mode) (h2 : fd ≠ .dram) :
    (State.replay s p).rd fd = s.rd fd := by
  first | (simp [h1, h2, State.replay]; done) | (simp only [State.replay]; (repeat' split) <;> simp [h1, h2])

@[simp] theorem State.replyTo_frame (s : State) (x : TagSt) (from_ : Nat) (status : Nat) (words : List Word) (fd :
    Followed) (h1 : fd ≠ .hostMem) : (State.replyTo s x from_ status words).rd fd = s.rd fd := by
  first | (simp [h1, State.replyTo]; done) | (simp only [State.replyTo]; (repeat' split) <;> simp [h1])

@[simp] theorem State.receive_frame (s : State) (p : Port) (h : FrameHdr) (rsp : Bool) (k : State → State) (fd :
    Followed) (hk : ∀ x, (k x).rd fd = x.rd fd) : (State.receive s p h rsp k).rd fd = s.rd fd := by
  first | (simp [hk, State.receive]; done) | (simp only [State.receive]; (repeat' split) <;> simp [hk])

@[simp] theorem State.passOn_frame (s : State) (p : Port) (h : FrameHdr) (ftype : Nat) (data : List Word) (fd :
    Followed) (h1 : fd ≠ .dram) : (State.passOn s p h ftype data).rd fd = s.rd fd := by
  first | (simp [h1, State.passOn]; done) | (simp only [State.passOn]; (repeat' split) <;> simp [h1])

@[simp] theorem State.passReq_frame (s : State) (p : Port) (h : FrameHdr) (wr : Bool) (data : List Word) (fd :
    Followed) (h1 : fd ≠ .dram) : (State.passReq s p h wr data).rd fd = s.rd fd := by
  first | (simp [h1, State.passReq]; done) | (simp only [State.passReq]; (repeat' split) <;> simp [h1])

@[simp] theorem State.readWords_frame (s : State) (src : Src) (a : Nat) (n : Nat) (ecc : Ecc) (fd : Followed) (h1 : fd
    ≠ .mode) (h2 : fd ≠ .banks) (h3 : fd ≠ .dram) (h4 : fd ≠ .hostMem) : (State.readWords s src a n ecc).2.rd fd =
    s.rd fd := by
  first | (simp [h1, h2, h3, h4, State.readWords]; done) | (simp only [State.readWords]; (repeat' split) <;> simp [h1, h2, h3, h4])

@[simp] theorem State.answerFrame_frame (s : State) (p : Port) (h : FrameHdr) (ftype : Nat) (status : Nat) (words :
    List Word) (fd : Followed) : (State.answerFrame s p h ftype status words).rd fd = s.rd fd := by
  first | (simp [State.answerFrame]; done) | (simp only [State.answerFrame]; (repeat' split) <;> simp)

@[simp] theorem State.takeReply_frame (s : State) (p : Port) (h : FrameHdr) (wr : Bool) (status : Word) (words : List
    Word) (fd : Followed) (h1 : fd ≠ .hostMem) : (State.takeReply s p h wr status words).rd fd = s.rd fd := by
  first | (simp [h1, State.takeReply]; done) | (simp only [State.takeReply]; (repeat' split) <;> simp [h1])

@[simp] theorem State.recordTells_frame (s : State) (r : EvtRec) (fd : Followed) (h1 : fd ≠ .mode) (h2 : fd ≠ .dram) :
    (State.recordTells s r).rd fd = s.rd fd := by
  first | (simp [h1, h2, State.recordTells]; done) | (simp only [State.recordTells]; (repeat' split) <;> simp [h1, h2])

@[simp] theorem State.storeProfile_frame (s : State) (p : Nat) (d : Nat) (ws : List Word) (fd : Followed) :
    (State.storeProfile s p d ws).rd fd = s.rd fd := by
  first | (simp [State.storeProfile]; done) | (simp only [State.storeProfile]; (repeat' split) <;> simp)

@[simp] theorem State.takeReport_frame (s : State) (d : Nat) (sh : Nat) (act : Nat) (state : Nat) (fd : Followed) :
    (State.takeReport s d sh act state).rd fd = s.rd fd := by
  first | (simp [State.takeReport]; done) | (simp only [State.takeReport]; (repeat' split) <;> simp)

@[simp] theorem State.takeBench_frame (s : State) (sh : Nat) (clear : Bool) (fd : Followed) (h1 : fd ≠ .dram) :
    (State.takeBench s sh clear).rd fd = s.rd fd := by
  first | (simp [h1, State.takeBench]; done) | (simp only [State.takeBench]; (repeat' split) <;> simp [h1])

@[simp] theorem State.takeWhistle_frame (s : State) (p : Port) (w : WhistleIn) (kind : Nat) (cue : Nat) (t : Nat) (fd
    : Followed) (h1 : fd ≠ .mode) (h2 : fd ≠ .dram) : (State.takeWhistle s p w kind cue t).rd fd = s.rd fd := by
  first | (simp [h1, h2, State.takeWhistle]; done) | (simp only [State.takeWhistle]; (repeat' split) <;> simp [h1, h2])

@[simp] theorem State.dupHit_frame (s : State) (fd : Followed) (h1 : fd ≠ .dram) : (State.dupHit s).rd fd = s.rd fd :=
    by
  first | (simp [h1, State.dupHit]; done) | (simp only [State.dupHit]; (repeat' split) <;> simp [h1])

@[simp] theorem State.fetched_frame (s : State) (q : Nat) (c : HostCmd) (fd : Followed) (h1 : fd ≠ .dram) :
    (State.fetched s q c).rd fd = s.rd fd := by
  first | (simp [h1, State.fetched]; done) | (simp only [State.fetched]; (repeat' split) <;> simp [h1])

@[simp] theorem State.timeoutEvent_frame (s : State) (q : Nat) (id : Nat) (fd : Followed) (h1 : fd ≠ .dram) :
    (State.timeoutEvent s q id).rd fd = s.rd fd := by
  first | (simp [h1, State.timeoutEvent]; done) | (simp only [State.timeoutEvent]; (repeat' split) <;> simp [h1])

@[simp] theorem State.timedOut_frame (s : State) (q : Nat) (id : Nat) (fd : Followed) (h1 : fd ≠ .dram) :
    (State.timedOut s q id).rd fd = s.rd fd := by
  first | (simp [h1, State.timedOut]; done) | (simp only [State.timedOut]; (repeat' split) <;> simp [h1])

@[simp] theorem State.waitOver_frame (s : State) (t : Nat) (fd : Followed) (h1 : fd ≠ .time) : (State.waitOver s t).rd
    fd = s.rd fd := by
  first | (simp [h1, State.waitOver]; done) | (simp only [State.waitOver]; (repeat' split) <;> simp [h1])

@[simp] theorem State.payRead_frame (q : Nat) (s : State) (e : Prod Nat (List Word)) (fd : Followed) (h1 : fd ≠
    .hostMem) : (State.payRead q s e).rd fd = s.rd fd := by
  first | (simp [h1, State.payRead]; done) | (simp only [State.payRead]; (repeat' split) <;> simp [h1])

@[simp] theorem State.deliverOwed_frame (s : State) (fd : Followed) (h1 : fd ≠ .hostMem) : (State.deliverOwed s).rd fd
    = s.rd fd := by
  have h : ∀ t : State, (State.each (fun q s => (s.queue q).owed.foldl (State.payRead q) s) (List.range 8) t).rd fd = t.rd fd :=
    fun t => State.each_frame _ _ _ _ (fun q s => foldl_frame _ _ _ _ (fun s x => State.payRead_frame q s x fd h1))
  unfold State.deliverOwed
  dsimp only
  (repeat' split) <;> simp only [State.nvmEnd_frame _ _ _ fd h1, h]

@[simp] theorem State.inRange_frame (s : State) (q : Nat) (id : Nat) (ok : Bool) (k : State → State) (fd : Followed)
    (hk : ∀ x, (k x).rd fd = x.rd fd) : (State.inRange s q id ok k).rd fd = s.rd fd := by
  first | (simp [hk, State.inRange]; done) | (simp only [State.inRange]; (repeat' split) <;> simp [hk])

@[simp] theorem State.withData_frame (s : State) (q : Nat) (id : Nat) (d : HostData) (k : List Byte → State → State)
    (fd : Followed) (hk : ∀ y x, (k y x).rd fd = x.rd fd) : (State.withData s q id d k).rd fd = s.rd fd := by
  first | (simp [hk, State.withData]; done) | (simp only [State.withData]; (repeat' split) <;> simp [hk])

@[simp] theorem State.regWord_frame (s : State) (q : Nat) (id : Nat) (a : Nat) (ws : List Word) (fd : Followed) (h1 :
    fd ≠ .otp) (h2 : fd ≠ .jtag) (h3 : fd ≠ .mode) (h4 : fd ≠ .banks) (h5 : fd ≠ .dram) (h6 : fd ≠ .hostMem) :
    (State.regWord s q id a ws).rd fd = s.rd fd := by
  first | (simp [h1, h2, h3, h4, h5, h6, State.regWord]; done) | (simp only [State.regWord]; (repeat' split) <;> simp [h1, h2, h3, h4, h5, h6])

@[simp] theorem State.setValid_frame (s : State) (n : Nat) (b : Nat) (v : Bool) (fd : Followed) (h1 : fd ≠ .dram) :
    (State.setValid s n b v).rd fd = s.rd fd := by
  first | (simp [h1, State.setValid]; done) | (simp only [State.setValid]; (repeat' split) <;> simp [h1])

@[simp] theorem State.blockStore_frame (s : State) (q : Nat) (id : Nat) (n : Nat) (b : Nat) (bs : List Byte) (fd :
    Followed) (h1 : fd ≠ .dram) : (State.blockStore s q id n b bs).rd fd = s.rd fd := by
  first | (simp [h1, State.blockStore]; done) | (simp only [State.blockStore]; (repeat' split) <;> simp [h1])

@[simp] theorem State.blockOpen_frame (s : State) (q : Nat) (id : Nat) (n : Nat) (b : Nat) (bs : List Byte) (fd :
    Followed) (h1 : fd ≠ .dram) : (State.blockOpen s q id n b bs).rd fd = s.rd fd := by
  first | (simp [h1, State.blockOpen]; done) | (simp only [State.blockOpen]; (repeat' split) <;> simp [h1])

@[simp] theorem State.finFor_frame (s : State) (q : Nat) (id : Nat) (fd : Followed) : (State.finFor s q id).rd fd =
    s.rd fd := by
  first | (simp [State.finFor]; done) | (simp only [State.finFor]; (repeat' split) <;> simp)

@[simp] theorem State.nvmAbortCmd_frame (s : State) (q : Nat) (id : Nat) (fd : Followed) (h1 : fd ≠ .hostMem) :
    (State.nvmAbortCmd s q id).rd fd = s.rd fd := by
  first | (simp [h1, State.nvmAbortCmd]; done) | (simp only [State.nvmAbortCmd]; (repeat' split) <;> simp [h1])

@[simp] theorem State.remoteSend_frame (s : State) (q : Nat) (id : Nat) (d : Nat) (wr : Bool) (data : List Word) (fd :
    Followed) (h1 : fd ≠ .dram) : (State.remoteSend s q id d wr data).rd fd = s.rd fd := by
  first | (simp [h1, State.remoteSend]; done) | (simp only [State.remoteSend]; (repeat' split) <;> simp [h1])

end Sys2Proof.Machine
end

