-- ==== Sys2Proof/Laws/FrameExec.lean ====
section
/-! SUPPORT. What each command leaves unchanged of the fields followed, when it answers a next state. -/

namespace Sys2Proof.Machine

set_option linter.unusedTactic false
set_option linter.unreachableTactic false
set_option linter.unnecessarySeqFocus false
set_option linter.unusedSimpArgs false

theorem microStep_next {flow n : Nat} {s t : State} {k : Nat → State → State} (h : microStep flow n s k = .next t) :
    t = s ∨ t = s.disturbAct n ∨ t = s.faultStop n 0x0A ∨ ∃ w, t = k w s := by
  simp only [microStep] at h
  (repeat' split at h) <;>
    (obtain rfl := Host.Outcome.next.inj h
     first | exact .inl rfl | exact .inr (.inl rfl) | exact .inr (.inr (.inl rfl)) | exact .inr (.inr (.inr ⟨_, rfl⟩)))

theorem cmdStart_next {q op : Nat} {id : BitVec 64} {ready : HostCmd → State → Bool} {k : HostCmd → State → State}
    {s t : State} (h : cmdStart q id op ready k s = .next t) :
    t = s ∨ (∃ c, t = s.endWaiting q c ((s.queue q).waiting.drop 1) 3) ∨ ∃ c, t = k c (s.startHead q) := by
  simp only [cmdStart] at h
  (repeat' split at h) <;>
    (obtain rfl := Host.Outcome.next.inj h
     first | exact .inl rfl | exact .inr (.inl ⟨_, rfl⟩) | exact .inr (.inr ⟨_, rfl⟩))

theorem execNextVec_frame (n : Act) (ecc : Ecc) (s : State) (s' : State) (h : execNextVec n ecc s = .next s') (fd :
    Followed) (h1 : fd ≠ .dram) : s'.rd fd = s.rd fd := by
  simp only [execNextVec] at h
  (repeat' split at h) <;>
    first
      | (obtain h | h | h | ⟨w, h⟩ := microStep_next h <;> rw [h] <;> first | (simp [h1]; done) | ((repeat' split) <;> simp [h1]))
      | (obtain rfl := Host.Outcome.next.inj h; simp [h1])

theorem execRepeatVec_frame (n : Act) (k : Nat) (s : State) (s' : State) (h : execRepeatVec n k s = .next s') (fd :
    Followed) (h1 : fd ≠ .dram) : s'.rd fd = s.rd fd := by
  simp only [execRepeatVec] at h
  (repeat' split at h) <;>
    first
      | (obtain h | h | h | ⟨w, h⟩ := microStep_next h <;> rw [h] <;> first | (simp [h1]; done) | ((repeat' split) <;> simp [h1]))
      | (obtain rfl := Host.Outcome.next.inj h; simp [h1])

theorem execJump_frame (n : Act) (s : State) (s' : State) (h : execJump n s = .next s') (fd : Followed) (h1 : fd ≠
    .dram) : s'.rd fd = s.rd fd := by
  simp only [execJump] at h
  (repeat' split at h) <;>
    first
      | (obtain h | h | h | ⟨w, h⟩ := microStep_next h <;> rw [h] <;> first | (simp [h1]; done) | ((repeat' split) <;> simp [h1]))
      | (obtain rfl := Host.Outcome.next.inj h; simp [h1])

theorem execCall_frame (n : Act) (s : State) (s' : State) (h : execCall n s = .next s') (fd : Followed) (h1 : fd ≠
    .dram) : s'.rd fd = s.rd fd := by
  simp only [execCall] at h
  (repeat' split at h) <;>
    first
      | (obtain h | h | h | ⟨w, h⟩ := microStep_next h <;> rw [h] <;> first | (simp [h1]; done) | ((repeat' split) <;> simp [h1]))
      | (obtain rfl := Host.Outcome.next.inj h; simp [h1])

theorem execRet_frame (n : Act) (s : State) (s' : State) (h : execRet n s = .next s') (fd : Followed) (h1 : fd ≠
    .dram) : s'.rd fd = s.rd fd := by
  simp only [execRet] at h
  (repeat' split at h) <;>
    first
      | (obtain h | h | h | ⟨w, h⟩ := microStep_next h <;> rw [h] <;> first | (simp [h1]; done) | ((repeat' split) <;> simp [h1]))
      | (obtain rfl := Host.Outcome.next.inj h; simp [h1])

theorem execLoopVec_frame (n : Act) (s : State) (s' : State) (h : execLoopVec n s = .next s') (fd : Followed) (h1 : fd
    ≠ .dram) : s'.rd fd = s.rd fd := by
  simp only [execLoopVec] at h
  (repeat' split at h) <;>
    first
      | (obtain h | h | h | ⟨w, h⟩ := microStep_next h <;> rw [h] <;> first | (simp [h1]; done) | ((repeat' split) <;> simp [h1]))
      | (obtain rfl := Host.Outcome.next.inj h; simp [h1])

theorem execEndloop_frame (n : Act) (s : State) (s' : State) (h : execEndloop n s = .next s') (fd : Followed) (h1 : fd
    ≠ .dram) : s'.rd fd = s.rd fd := by
  simp only [execEndloop] at h
  (repeat' split at h) <;>
    first
      | (obtain h | h | h | ⟨w, h⟩ := microStep_next h <;> rw [h] <;> first | (simp [h1]; done) | ((repeat' split) <;> simp [h1]))
      | (obtain rfl := Host.Outcome.next.inj h; simp [h1])

theorem execBranch_frame (n : Act) (s : State) (s' : State) (h : execBranch n s = .next s') (fd : Followed) (h1 : fd ≠
    .dram) : s'.rd fd = s.rd fd := by
  simp only [execBranch] at h
  (repeat' split at h) <;>
    first
      | (obtain h | h | h | ⟨w, h⟩ := microStep_next h <;> rw [h] <;> first | (simp [h1]; done) | ((repeat' split) <;> simp [h1]))
      | (obtain rfl := Host.Outcome.next.inj h; simp [h1])

theorem execMatchVec_frame (n : Act) (k : Nat) (s : State) (s' : State) (h : execMatchVec n k s = .next s') (fd :
    Followed) (h1 : fd ≠ .dram) : s'.rd fd = s.rd fd := by
  simp only [execMatchVec] at h
  (repeat' split at h) <;>
    first
      | (obtain h | h | h | ⟨w, h⟩ := microStep_next h <;> rw [h] <;> first | (simp [h1]; done) | ((repeat' split) <;> simp [h1]))
      | (obtain rfl := Host.Outcome.next.inj h; simp [h1])

theorem execMatchTimeout_frame (n : Act) (s : State) (s' : State) (h : execMatchTimeout n s = .next s') (fd :
    Followed) (h1 : fd ≠ .dram) : s'.rd fd = s.rd fd := by
  simp only [execMatchTimeout] at h
  (repeat' split at h) <;>
    first
      | contradiction
      | (obtain rfl := Host.Outcome.next.inj h; simp [h1])

theorem execWaitTime_frame (n : Act) (k : Nat) (s : State) (s' : State) (h : execWaitTime n k s = .next s') (fd :
    Followed) (h1 : fd ≠ .dram) : s'.rd fd = s.rd fd := by
  simp only [execWaitTime] at h
  (repeat' split at h) <;>
    first
      | (obtain h | h | h | ⟨w, h⟩ := microStep_next h <;> rw [h] <;> first | (simp [h1]; done) | ((repeat' split) <;> simp [h1]))
      | (obtain rfl := Host.Outcome.next.inj h; simp [h1])

theorem execWaitTimeReached_frame (n : Act) (s : State) (s' : State) (h : execWaitTimeReached n s = .next s') (fd :
    Followed) : s'.rd fd = s.rd fd := by
  simp only [execWaitTimeReached] at h
  (repeat' split at h) <;>
    first
      | contradiction
      | (obtain rfl := Host.Outcome.next.inj h; simp)

theorem execWaitWhistle_frame (n : Act) (k : Nat) (s : State) (s' : State) (h : execWaitWhistle n k s = .next s') (fd
    : Followed) (h1 : fd ≠ .dram) : s'.rd fd = s.rd fd := by
  simp only [execWaitWhistle] at h
  (repeat' split at h) <;>
    first
      | (obtain h | h | h | ⟨w, h⟩ := microStep_next h <;> rw [h] <;> first | (simp [h1]; done) | ((repeat' split) <;> simp [h1]))
      | (obtain rfl := Host.Outcome.next.inj h; simp [h1])

theorem execWaitTimeout_frame (n : Act) (s : State) (s' : State) (h : execWaitTimeout n s = .next s') (fd : Followed)
    (h1 : fd ≠ .dram) : s'.rd fd = s.rd fd := by
  simp only [execWaitTimeout] at h
  (repeat' split at h) <;>
    first
      | contradiction
      | (obtain rfl := Host.Outcome.next.inj h; simp [h1])

theorem execCallBlock_frame (n : Act) (k : Nat) (s : State) (s' : State) (h : execCallBlock n k s = .next s') (fd :
    Followed) (h1 : fd ≠ .dram) : s'.rd fd = s.rd fd := by
  simp only [execCallBlock] at h
  (repeat' split at h) <;>
    first
      | (obtain h | h | h | ⟨w, h⟩ := microStep_next h <;> rw [h] <;> first | (simp [h1]; done) | ((repeat' split) <;> simp [h1]))
      | (obtain rfl := Host.Outcome.next.inj h; simp [h1])

theorem execSwap_frame (n : Act) (s : State) (s' : State) (h : execSwap n s = .next s') (fd : Followed) (h1 : fd ≠
    .dram) : s'.rd fd = s.rd fd := by
  simp only [execSwap] at h
  (repeat' split at h) <;>
    first
      | (obtain h | h | h | ⟨w, h⟩ := microStep_next h <;> rw [h] <;> first | (simp [h1]; done) | ((repeat' split) <;> simp [h1]))
      | (obtain rfl := Host.Outcome.next.inj h; simp [h1])

theorem execMarkVec_frame (n : Act) (s : State) (s' : State) (h : execMarkVec n s = .next s') (fd : Followed) (h1 : fd
    ≠ .dram) : s'.rd fd = s.rd fd := by
  simp only [execMarkVec] at h
  (repeat' split at h) <;>
    first
      | (obtain h | h | h | ⟨w, h⟩ := microStep_next h <;> rw [h] <;> first | (simp [h1]; done) | ((repeat' split) <;> simp [h1]))
      | (obtain rfl := Host.Outcome.next.inj h; simp [h1])

theorem execHalt_frame (n : Act) (s : State) (s' : State) (h : execHalt n s = .next s') (fd : Followed) (h1 : fd ≠
    .dram) : s'.rd fd = s.rd fd := by
  simp only [execHalt] at h
  (repeat' split at h) <;>
    first
      | (obtain h | h | h | ⟨w, h⟩ := microStep_next h <;> rw [h] <;> first | (simp [h1]; done) | ((repeat' split) <;> simp [h1]))
      | (obtain rfl := Host.Outcome.next.inj h; simp [h1])

theorem execPrefetchRecord_frame (n : Act) (k : Nat) (ecc : Ecc) (s : State) (s' : State) (h : execPrefetchRecord n k
    ecc s = .next s') (fd : Followed) (h1 : fd ≠ .dram) : s'.rd fd = s.rd fd := by
  simp only [execPrefetchRecord] at h
  (repeat' split at h) <;>
    first
      | contradiction
      | (obtain rfl := Host.Outcome.next.inj h; simp [h1])

theorem execForwardFrame_frame (d : Die) (f : FwdFrame) (s : State) (s' : State) (h : execForwardFrame d f s = .next
    s') (fd : Followed) (h1 : fd ≠ .time) (h2 : fd ≠ .dram) : s'.rd fd = s.rd fd := by
  simp only [execForwardFrame] at h
  (repeat' split at h) <;>
    first
      | contradiction
      | (obtain rfl := Host.Outcome.next.inj h; simp [h1, h2])

theorem execPinEdge_frame (c : Chan) (cyc : BitVec 64) (e : PinEv) (raw : Bool) (s : State) (s' : State) (h :
    execPinEdge c cyc e raw s = .next s') (fd : Followed) (h1 : fd ≠ .time) (h2 : fd ≠ .dram) : s'.rd fd = s.rd fd :=
    by
  simp only [execPinEdge] at h
  (repeat' split at h) <;>
    first
      | contradiction
      | (obtain rfl := Host.Outcome.next.inj h; simp [h1, h2])

theorem execReturnFrame_frame (d : Die) (f : RetFrame) (ecc : Ecc) (s : State) (s' : State) (h : execReturnFrame d f
    ecc s = .next s') (fd : Followed) (h1 : fd ≠ .mode) (h2 : fd ≠ .dram) : s'.rd fd = s.rd fd := by
  simp only [execReturnFrame] at h
  (repeat' split at h) <;>
    first
      | contradiction
      | (obtain rfl := Host.Outcome.next.inj h; simp [h1, h2])

theorem execComparatorTransition_frame (c : Chan) (low : Bool) (rise : Bool) (t : BitVec 70) (code : BitVec 9) (s :
    State) (s' : State) (h : execComparatorTransition c low rise t code s = .next s') (fd : Followed) (h1 : fd ≠
    .time) (h2 : fd ≠ .dram) : s'.rd fd = s.rd fd := by
  simp only [execComparatorTransition] at h
  (repeat' split at h) <;>
    first
      | contradiction
      | (obtain rfl := Host.Outcome.next.inj h; simp [h1, h2])

theorem execBurstTimeout_frame (c : Chan) (s : State) (s' : State) (h : execBurstTimeout c s = .next s') (fd :
    Followed) (h1 : fd ≠ .time) : s'.rd fd = s.rd fd := by
  simp only [execBurstTimeout] at h
  (repeat' split at h) <;>
    first
      | contradiction
      | (obtain rfl := Host.Outcome.next.inj h; simp [h1])

theorem execTdcStart_frame (c : Chan) (v : Word) (s : State) (s' : State) (h : execTdcStart c v s = .next s') (fd :
    Followed) (h1 : fd ≠ .dram) : s'.rd fd = s.rd fd := by
  simp only [execTdcStart] at h
  (repeat' split at h) <;>
    first
      | contradiction
      | (obtain rfl := Host.Outcome.next.inj h; simp [h1])

theorem execTdcAbort_frame (c : Chan) (v : Word) (s : State) (s' : State) (h : execTdcAbort c v s = .next s') (fd :
    Followed) (h1 : fd ≠ .dram) : s'.rd fd = s.rd fd := by
  simp only [execTdcAbort] at h
  (repeat' split at h) <;>
    first
      | contradiction
      | (obtain rfl := Host.Outcome.next.inj h; simp [h1])

theorem execMissClr_frame (c : Chan) (v : Word) (s : State) (s' : State) (h : execMissClr c v s = .next s') (fd :
    Followed) (h1 : fd ≠ .dram) : s'.rd fd = s.rd fd := by
  simp only [execMissClr] at h
  (repeat' split at h) <;>
    first
      | contradiction
      | (obtain rfl := Host.Outcome.next.inj h; simp [h1])

theorem execTdcArmTime_frame (c : Chan) (s : State) (s' : State) (h : execTdcArmTime c s = .next s') (fd : Followed)
    (h1 : fd ≠ .time) : s'.rd fd = s.rd fd := by
  simp only [execTdcArmTime] at h
  (repeat' split at h) <;>
    first
      | contradiction
      | (obtain rfl := Host.Outcome.next.inj h; simp [h1])

theorem execTdcTimeout_frame (c : Chan) (s : State) (s' : State) (h : execTdcTimeout c s = .next s') (fd : Followed)
    (h1 : fd ≠ .time) : s'.rd fd = s.rd fd := by
  simp only [execTdcTimeout] at h
  (repeat' split at h) <;>
    first
      | contradiction
      | (obtain rfl := Host.Outcome.next.inj h; simp [h1])

theorem execSkewWindow_frame (c : Chan) (s : State) (s' : State) (h : execSkewWindow c s = .next s') (fd : Followed)
    (h1 : fd ≠ .time) : s'.rd fd = s.rd fd := by
  simp only [execSkewWindow] at h
  (repeat' split at h) <;>
    first
      | contradiction
      | (obtain rfl := Host.Outcome.next.inj h; simp [h1])

theorem execFreqGate_frame (c : Chan) (s : State) (s' : State) (h : execFreqGate c s = .next s') (fd : Followed) (h1 :
    fd ≠ .time) : s'.rd fd = s.rd fd := by
  simp only [execFreqGate] at h
  (repeat' split at h) <;>
    first
      | contradiction
      | (obtain rfl := Host.Outcome.next.inj h; simp [h1])

theorem execTdcResult_frame (c : Chan) (s : State) (s' : State) (h : execTdcResult c s = .next s') (fd : Followed) :
    s'.rd fd = s.rd fd := by
  simp only [execTdcResult] at h
  (repeat' split at h) <;>
    first
      | contradiction
      | (obtain rfl := Host.Outcome.next.inj h; simp)

theorem execTrigArm_frame (k : Trig) (v : Word) (s : State) (s' : State) (h : execTrigArm k v s = .next s') (fd :
    Followed) (h1 : fd ≠ .dram) : s'.rd fd = s.rd fd := by
  simp only [execTrigArm] at h
  (repeat' split at h) <;>
    first
      | contradiction
      | (obtain rfl := Host.Outcome.next.inj h; simp [h1])

theorem execTrigDisarm_frame (k : Trig) (v : Word) (s : State) (s' : State) (h : execTrigDisarm k v s = .next s') (fd
    : Followed) (h1 : fd ≠ .dram) : s'.rd fd = s.rd fd := by
  simp only [execTrigDisarm] at h
  (repeat' split at h) <;>
    first
      | contradiction
      | (obtain rfl := Host.Outcome.next.inj h; simp [h1])

theorem execTrigStageTimeout_frame (k : Trig) (s : State) (s' : State) (h : execTrigStageTimeout k s = .next s') (fd :
    Followed) (h1 : fd ≠ .time) : s'.rd fd = s.rd fd := by
  simp only [execTrigStageTimeout] at h
  (repeat' split at h) <;>
    first
      | contradiction
      | (obtain rfl := Host.Outcome.next.inj h; simp [h1])

theorem execTrigHoldoffEnd_frame (k : Trig) (s : State) (s' : State) (h : execTrigHoldoffEnd k s = .next s') (fd :
    Followed) (h1 : fd ≠ .time) : s'.rd fd = s.rd fd := by
  simp only [execTrigHoldoffEnd] at h
  (repeat' split at h) <;>
    first
      | contradiction
      | (obtain rfl := Host.Outcome.next.inj h; simp [h1])

theorem execStreamEnable_frame (i : Stream) (v : Word) (s : State) (s' : State) (h : execStreamEnable i v s = .next
    s') (fd : Followed) (h1 : fd ≠ .dram) : s'.rd fd = s.rd fd := by
  simp only [execStreamEnable] at h
  (repeat' split at h) <;>
    first
      | contradiction
      | (obtain rfl := Host.Outcome.next.inj h; simp [h1])

theorem execStreamDisable_frame (i : Stream) (v : Word) (s : State) (s' : State) (h : execStreamDisable i v s = .next
    s') (fd : Followed) (h1 : fd ≠ .dram) : s'.rd fd = s.rd fd := by
  simp only [execStreamDisable] at h
  (repeat' split at h) <;>
    first
      | contradiction
      | (obtain rfl := Host.Outcome.next.inj h; simp [h1])

theorem execIntegEnd_frame (i : Stream) (d : Die) (s : State) (s' : State) (h : execIntegEnd i d s = .next s') (fd :
    Followed) (h1 : fd ≠ .time) (h2 : fd ≠ .dram) : s'.rd fd = s.rd fd := by
  simp only [execIntegEnd] at h
  (repeat' split at h) <;>
    first
      | contradiction
      | (obtain rfl := Host.Outcome.next.inj h; simp [h1, h2])

theorem execRecordWindowEnd_frame (i : Stream) (s : State) (s' : State) (h : execRecordWindowEnd i s = .next s') (fd :
    Followed) (h1 : fd ≠ .time) (h2 : fd ≠ .dram) : s'.rd fd = s.rd fd := by
  simp only [execRecordWindowEnd] at h
  (repeat' split at h) <;>
    first
      | contradiction
      | (obtain rfl := Host.Outcome.next.inj h; simp [h1, h2])

theorem execStampsClose_frame (i : Stream) (s : State) (s' : State) (h : execStampsClose i s = .next s') (fd :
    Followed) (h1 : fd ≠ .time) (h2 : fd ≠ .dram) : s'.rd fd = s.rd fd := by
  simp only [execStampsClose] at h
  (repeat' split at h) <;>
    first
      | contradiction
      | (obtain rfl := Host.Outcome.next.inj h; simp [h1, h2])

theorem execStreamRecord_frame (i : Stream) (s : State) (s' : State) (h : execStreamRecord i s = .next s') (fd :
    Followed) (h1 : fd ≠ .time) (h2 : fd ≠ .dram) : s'.rd fd = s.rd fd := by
  simp only [execStreamRecord] at h
  (repeat' split at h) <;>
    first
      | contradiction
      | (obtain rfl := Host.Outcome.next.inj h; simp [h1, h2])

theorem execStreamCopy_frame (r : StreamRead) (s : State) (s' : State) (h : execStreamCopy r s = .next s') (fd :
    Followed) (h1 : fd ≠ .dram) (h2 : fd ≠ .hostMem) : s'.rd fd = s.rd fd := by
  simp only [execStreamCopy] at h
  (repeat' split at h) <;>
    first
      | contradiction
      | (obtain rfl := Host.Outcome.next.inj h; simp [h1, h2])

theorem execFailTilePush_frame (g : Ring) (v : Word) (s : State) (s' : State) (h : execFailTilePush g v s = .next s')
    (fd : Followed) (h1 : fd ≠ .dram) : s'.rd fd = s.rd fd := by
  simp only [execFailTilePush] at h
  (repeat' split at h) <;>
    first
      | contradiction
      | (obtain rfl := Host.Outcome.next.inj h; simp [h1])

theorem execTilePushPeriod_frame (g : Ring) (s : State) (s' : State) (h : execTilePushPeriod g s = .next s') (fd :
    Followed) : s'.rd fd = s.rd fd := by
  simp only [execTilePushPeriod] at h
  (repeat' split at h) <;>
    first
      | contradiction
      | (obtain rfl := Host.Outcome.next.inj h; simp)

theorem execTilePushEnd_frame (g : Ring) (s : State) (s' : State) (h : execTilePushEnd g s = .next s') (fd : Followed)
    (h1 : fd ≠ .dram) : s'.rd fd = s.rd fd := by
  simp only [execTilePushEnd] at h
  (repeat' split at h) <;>
    first
      | contradiction
      | (obtain rfl := Host.Outcome.next.inj h; simp [h1])

theorem execTileClearDone_frame (g : Ring) (s : State) (s' : State) (h : execTileClearDone g s = .next s') (fd :
    Followed) (h1 : fd ≠ .dram) : s'.rd fd = s.rd fd := by
  simp only [execTileClearDone] at h
  (repeat' split at h) <;>
    first
      | contradiction
      | (obtain rfl := Host.Outcome.next.inj h; simp [h1])

theorem execRqPushApply_frame (ecc : PushEcc) (s : State) (s' : State) (h : execRqPushApply ecc s = .next s') (fd :
    Followed) (h1 : fd ≠ .dram) : s'.rd fd = s.rd fd := by
  simp only [execRqPushApply] at h
  (repeat' split at h) <;>
    first
      | contradiction
      | (obtain rfl := Host.Outcome.next.inj h; simp [h1])

theorem execRqCtrlClear_frame (v : Word) (s : State) (s' : State) (h : execRqCtrlClear v s = .next s') (fd : Followed)
    (h1 : fd ≠ .dram) : s'.rd fd = s.rd fd := by
  simp only [execRqCtrlClear] at h
  (repeat' split at h) <;>
    first
      | contradiction
      | (obtain rfl := Host.Outcome.next.inj h; simp [h1])

theorem execRqFinalize_frame (v : Word) (s : State) (s' : State) (h : execRqFinalize v s = .next s') (fd : Followed)
    (h1 : fd ≠ .dram) : s'.rd fd = s.rd fd := by
  simp only [execRqFinalize] at h
  (repeat' split at h) <;>
    first
      | contradiction
      | (obtain rfl := Host.Outcome.next.inj h; simp [h1])

theorem execRqFinalized_frame (s : State) (s' : State) (h : execRqFinalized s = .next s') (fd : Followed) (h1 : fd ≠
    .dram) : s'.rd fd = s.rd fd := by
  simp only [execRqFinalized] at h
  (repeat' split at h) <;>
    first
      | contradiction
      | (obtain rfl := Host.Outcome.next.inj h; simp [h1])

theorem execRqDescSel_frame (v : Word) (ecc : Ecc) (s : State) (s' : State) (h : execRqDescSel v ecc s = .next s') (fd
    : Followed) (h1 : fd ≠ .dram) : s'.rd fd = s.rd fd := by
  simp only [execRqDescSel] at h
  (repeat' split at h) <;>
    first
      | contradiction
      | (obtain rfl := Host.Outcome.next.inj h; simp [h1])

theorem execRqMapCfgWrite_frame (g : Ring) (v : Word) (s : State) (s' : State) (h : execRqMapCfgWrite g v s = .next
    s') (fd : Followed) (h1 : fd ≠ .dram) : s'.rd fd = s.rd fd := by
  simp only [execRqMapCfgWrite] at h
  (repeat' split at h) <;>
    first
      | contradiction
      | (obtain rfl := Host.Outcome.next.inj h; simp [h1])

theorem execRqClearDone_frame (s : State) (s' : State) (h : execRqClearDone s = .next s') (fd : Followed) : s'.rd fd =
    s.rd fd := by
  simp only [execRqClearDone] at h
  (repeat' split at h) <;>
    first
      | contradiction
      | (obtain rfl := Host.Outcome.next.inj h; simp)

theorem execLivePassStart_frame (d : Die) (s : State) (s' : State) (h : execLivePassStart d s = .next s') (fd :
    Followed) : s'.rd fd = s.rd fd := by
  simp only [execLivePassStart] at h
  (repeat' split at h) <;>
    first
      | contradiction
      | (obtain rfl := Host.Outcome.next.inj h; simp)

theorem execCodeDensityDone_frame (d : Die) (hits : List (List Nat)) (s : State) (s' : State) (h : execCodeDensityDone
    d hits s = .next s') (fd : Followed) : s'.rd fd = s.rd fd := by
  simp only [execCodeDensityDone] at h
  (repeat' split at h) <;>
    first
      | contradiction
      | (obtain rfl := Host.Outcome.next.inj h; simp)

theorem execLivePassEnd_frame (d : Die) (m : ChanMeas) (s : State) (s' : State) (h : execLivePassEnd d m s = .next s')
    (fd : Followed) (h1 : fd ≠ .dram) : s'.rd fd = s.rd fd := by
  simp only [execLivePassEnd] at h
  (repeat' split at h) <;>
    first
      | contradiction
      | (obtain rfl := Host.Outcome.next.inj h; simp [h1])

theorem execCalStarved_frame (d : Die) (s : State) (s' : State) (h : execCalStarved d s = .next s') (fd : Followed)
    (h1 : fd ≠ .time) (h2 : fd ≠ .dram) : s'.rd fd = s.rd fd := by
  simp only [execCalStarved] at h
  (repeat' split at h) <;>
    first
      | contradiction
      | (obtain rfl := Host.Outcome.next.inj h; simp [h1, h2])

theorem execCalApplyWait_frame (s : State) (s' : State) (h : execCalApplyWait s = .next s') (fd : Followed) (h1 : fd ≠
    .time) (h2 : fd ≠ .dram) : s'.rd fd = s.rd fd := by
  simp only [execCalApplyWait] at h
  (repeat' split at h) <;>
    first
      | contradiction
      | (obtain rfl := Host.Outcome.next.inj h; simp [h1, h2])

theorem execFullRunDone_frame (dies : List DieMeas) (ms : List FullMeas) (s : State) (s' : State) (h : execFullRunDone
    dies ms s = .next s') (fd : Followed) (h1 : fd ≠ .mode) (h2 : fd ≠ .dram) (h3 : fd ≠ .hostMem) : s'.rd fd = s.rd
    fd := by
  simp only [execFullRunDone] at h
  (repeat' split at h) <;>
    first
      | contradiction
      | (obtain rfl := Host.Outcome.next.inj h; simp [h1, h2, h3])

theorem execTempSample_frame (temps : List (BitVec 16)) (s : State) (s' : State) (h : execTempSample temps s = .next
    s') (fd : Followed) (h1 : fd ≠ .mode) (h2 : fd ≠ .banks) (h3 : fd ≠ .dram) (h4 : fd ≠ .shed) (h5 : fd ≠ .sensors)
    (h6 : fd ≠ .hostMem) : s'.rd fd = s.rd fd := by
  simp only [execTempSample] at h
  (repeat' split at h) <;>
    first
      | contradiction
      | (obtain rfl := Host.Outcome.next.inj h; simp [h1, h2, h3, h4, h5, h6])

theorem execUvloStart_frame (role : BitVec 2) (rma : Bool) (temps : List (BitVec 16)) (s : State) (s' : State) (h :
    execUvloStart role rma temps s = .next s') (fd : Followed) (h1 : fd ≠ .jtag) (h2 : fd ≠ .mode) (h3 : fd ≠ .banks)
    (h4 : fd ≠ .dram) (h5 : fd ≠ .sensors) (h6 : fd ≠ .hostMem) : s'.rd fd = s.rd fd := by
  simp only [execUvloStart] at h
  (repeat' split at h) <;>
    first
      | contradiction
      | (obtain rfl := Host.Outcome.next.inj h; simp [h1, h2, h3, h4, h5, h6])

theorem execSoftStart_frame (rail : Option (Fin 8)) (s : State) (s' : State) (h : execSoftStart rail s = .next s') (fd
    : Followed) (h1 : fd ≠ .mode) (h2 : fd ≠ .time) (h3 : fd ≠ .banks) (h4 : fd ≠ .dram) (h5 : fd ≠ .hostMem) : s'.rd
    fd = s.rd fd := by
  simp only [execSoftStart] at h
  (repeat' split at h) <;>
    first
      | contradiction
      | (obtain rfl := Host.Outcome.next.inj h; simp [h1, h2, h3, h4, h5])

theorem execSramClear_frame (failmap : BitVec 16) (s : State) (s' : State) (h : execSramClear failmap s = .next s')
    (fd : Followed) (h1 : fd ≠ .otp) (h2 : fd ≠ .jtag) (h3 : fd ≠ .mode) (h4 : fd ≠ .banks) (h5 : fd ≠ .dram) (h6 : fd
    ≠ .hostMem) : s'.rd fd = s.rd fd := by
  simp only [execSramClear] at h
  (repeat' split at h) <;>
    first
      | contradiction
      | (obtain rfl := Host.Outcome.next.inj h; simp [h1, h2, h3, h4, h5, h6])

theorem execReturnErase_frame (sfdp : Option Sfdp) (s : State) (s' : State) (h : execReturnErase sfdp s = .next s')
    (fd : Followed) : s'.rd fd = s.rd fd := by
  simp only [execReturnErase] at h
  (repeat' split at h) <;>
    first
      | contradiction
      | (obtain rfl := Host.Outcome.next.inj h; simp)

theorem execSelfTest_frame (failmap : BitVec 16) (s : State) (s' : State) (h : execSelfTest failmap s = .next s') (fd
    : Followed) (h1 : fd ≠ .mode) (h2 : fd ≠ .banks) (h3 : fd ≠ .dram) (h4 : fd ≠ .hostMem) : s'.rd fd = s.rd fd := by
  simp only [execSelfTest] at h
  (repeat' split at h) <;>
    first
      | contradiction
      | (obtain rfl := Host.Outcome.next.inj h; simp [h1, h2, h3, h4])

theorem execDramTraining_frame (bad : Option (Prod (Fin 4) (BitVec 16))) (s : State) (s' : State) (h :
    execDramTraining bad s = .next s') (fd : Followed) (h1 : fd ≠ .mode) (h2 : fd ≠ .banks) (h3 : fd ≠ .dram) (h4 : fd
    ≠ .hostMem) : s'.rd fd = s.rd fd := by
  simp only [execDramTraining] at h
  (repeat' split at h) <;>
    first
      | contradiction
      | (obtain rfl := Host.Outcome.next.inj h; simp [h1, h2, h3, h4])

theorem execNvmDiscovery_frame (sfdp : Option Sfdp) (s : State) (s' : State) (h : execNvmDiscovery sfdp s = .next s')
    (fd : Followed) (h1 : fd ≠ .mode) (h2 : fd ≠ .banks) (h3 : fd ≠ .dram) (h4 : fd ≠ .hostMem) : s'.rd fd = s.rd fd
    := by
  simp only [execNvmDiscovery] at h
  (repeat' split at h) <;>
    first
      | contradiction
      | (obtain rfl := Host.Outcome.next.inj h; simp [h1, h2, h3, h4])

theorem execImageRead_frame (s : State) (s' : State) (h : execImageRead s = .next s') (fd : Followed) (h1 : fd ≠
    .mode) (h2 : fd ≠ .banks) (h3 : fd ≠ .dram) (h4 : fd ≠ .hostMem) : s'.rd fd = s.rd fd := by
  simp only [execImageRead] at h
  (repeat' split at h) <;>
    first
      | contradiction
      | (obtain rfl := Host.Outcome.next.inj h; simp [h1, h2, h3, h4])

theorem execApply_frame (rb : List Readback) (s : State) (s' : State) (h : execApply rb s = .next s') (fd : Followed)
    (h1 : fd ≠ .mode) (h2 : fd ≠ .banks) (h3 : fd ≠ .dram) (h4 : fd ≠ .hostMem) : s'.rd fd = s.rd fd := by
  simp only [execApply] at h
  (repeat' split at h) <;>
    first
      | contradiction
      | (obtain rfl := Host.Outcome.next.inj h; simp [h1, h2, h3, h4])

theorem execIdleEntry_frame (s : State) (s' : State) (h : execIdleEntry s = .next s') (fd : Followed) (h1 : fd ≠
    .mode) (h2 : fd ≠ .dram) : s'.rd fd = s.rd fd := by
  simp only [execIdleEntry] at h
  (repeat' split at h) <;>
    first
      | contradiction
      | (obtain rfl := Host.Outcome.next.inj h; simp [h1, h2])

theorem execHuCapMeasured_frame (us : Nat) (hu : BitVec 16) (s : State) (s' : State) (h : execHuCapMeasured us hu s =
    .next s') (fd : Followed) (h1 : fd ≠ .dram) : s'.rd fd = s.rd fd := by
  simp only [execHuCapMeasured] at h
  (repeat' split at h) <;>
    first
      | contradiction
      | (obtain rfl := Host.Outcome.next.inj h; simp [h1])

theorem execResetBoot_frame (s : State) (s' : State) (h : execResetBoot s = .next s') (fd : Followed) (h1 : fd ≠
    .jtag) (h2 : fd ≠ .mode) (h3 : fd ≠ .banks) (h4 : fd ≠ .dram) (h5 : fd ≠ .hostMem) : s'.rd fd = s.rd fd := by
  simp only [execResetBoot] at h
  (repeat' split at h) <;>
    first
      | contradiction
      | (obtain rfl := Host.Outcome.next.inj h; simp [h1, h2, h3, h4, h5])

theorem execEnterCal_frame (s : State) (s' : State) (h : execEnterCal s = .next s') (fd : Followed) (h1 : fd ≠ .jtag)
    (h2 : fd ≠ .mode) (h3 : fd ≠ .banks) (h4 : fd ≠ .dram) (h5 : fd ≠ .hostMem) : s'.rd fd = s.rd fd := by
  simp only [execEnterCal] at h
  (repeat' split at h) <;>
    first
      | contradiction
      | (obtain rfl := Host.Outcome.next.inj h; simp [h1, h2, h3, h4, h5])

theorem execLeaveCal_frame (s : State) (s' : State) (h : execLeaveCal s = .next s') (fd : Followed) (h1 : fd ≠ .jtag)
    (h2 : fd ≠ .mode) (h3 : fd ≠ .banks) (h4 : fd ≠ .dram) (h5 : fd ≠ .hostMem) : s'.rd fd = s.rd fd := by
  simp only [execLeaveCal] at h
  (repeat' split at h) <;>
    first
      | contradiction
      | (obtain rfl := Host.Outcome.next.inj h; simp [h1, h2, h3, h4, h5])

theorem execEnterSafe_frame (s : State) (s' : State) (h : execEnterSafe s = .next s') (fd : Followed) (h1 : fd ≠
    .jtag) (h2 : fd ≠ .mode) (h3 : fd ≠ .banks) (h4 : fd ≠ .dram) (h5 : fd ≠ .hostMem) : s'.rd fd = s.rd fd := by
  simp only [execEnterSafe] at h
  (repeat' split at h) <;>
    first
      | contradiction
      | (obtain rfl := Host.Outcome.next.inj h; simp [h1, h2, h3, h4, h5])

theorem execFatalFault_frame (code : Fin 13) (unit : BitVec 8) (detail : BitVec 16) (s : State) (s' : State) (h :
    execFatalFault code unit detail s = .next s') (fd : Followed) (h1 : fd ≠ .mode) (h2 : fd ≠ .banks) (h3 : fd ≠
    .dram) (h4 : fd ≠ .hostMem) : s'.rd fd = s.rd fd := by
  simp only [execFatalFault] at h
  (repeat' split at h) <;>
    first
      | contradiction
      | (obtain rfl := Host.Outcome.next.inj h; simp [h1, h2, h3, h4])

theorem execRailFault_frame (rail : Fin 8) (s : State) (s' : State) (h : execRailFault rail s = .next s') (fd :
    Followed) (h1 : fd ≠ .mode) (h2 : fd ≠ .banks) (h3 : fd ≠ .dram) (h4 : fd ≠ .hostMem) : s'.rd fd = s.rd fd := by
  simp only [execRailFault] at h
  (repeat' split at h) <;>
    first
      | contradiction
      | (obtain rfl := Host.Outcome.next.inj h; simp [h1, h2, h3, h4])

theorem execClockLoss_frame (s : State) (s' : State) (h : execClockLoss s = .next s') (fd : Followed) (h1 : fd ≠
    .mode) (h2 : fd ≠ .banks) (h3 : fd ≠ .dram) (h4 : fd ≠ .hostMem) : s'.rd fd = s.rd fd := by
  simp only [execClockLoss] at h
  (repeat' split at h) <;>
    first
      | contradiction
      | (obtain rfl := Host.Outcome.next.inj h; simp [h1, h2, h3, h4])

theorem execHkWatchdog_frame (s : State) (s' : State) (h : execHkWatchdog s = .next s') (fd : Followed) (h1 : fd ≠
    .mode) (h2 : fd ≠ .banks) (h3 : fd ≠ .dram) (h4 : fd ≠ .hostMem) : s'.rd fd = s.rd fd := by
  simp only [execHkWatchdog] at h
  (repeat' split at h) <;>
    first
      | contradiction
      | (obtain rfl := Host.Outcome.next.inj h; simp [h1, h2, h3, h4])

theorem execEnOff_frame (s : State) (s' : State) (h : execEnOff s = .next s') (fd : Followed) (h1 : fd ≠ .mode) (h2 :
    fd ≠ .banks) (h3 : fd ≠ .dram) (h4 : fd ≠ .shed) (h5 : fd ≠ .hostMem) : s'.rd fd = s.rd fd := by
  simp only [execEnOff] at h
  (repeat' split at h) <;>
    first
      | contradiction
      | (obtain rfl := Host.Outcome.next.inj h; simp [h1, h2, h3, h4, h5])

theorem execPfail_frame (s : State) (s' : State) (h : execPfail s = .next s') (fd : Followed) (h1 : fd ≠ .mode) (h2 :
    fd ≠ .banks) (h3 : fd ≠ .dram) (h4 : fd ≠ .shed) (h5 : fd ≠ .hostMem) : s'.rd fd = s.rd fd := by
  simp only [execPfail] at h
  (repeat' split at h) <;>
    first
      | contradiction
      | (obtain rfl := Host.Outcome.next.inj h; simp [h1, h2, h3, h4, h5])

theorem execVinLow_frame (vin : BitVec 16) (s : State) (s' : State) (h : execVinLow vin s = .next s') (fd : Followed)
    (h1 : fd ≠ .dram) : s'.rd fd = s.rd fd := by
  simp only [execVinLow] at h
  (repeat' split at h) <;>
    first
      | contradiction
      | (obtain rfl := Host.Outcome.next.inj h; simp [h1])

theorem execVinSurge_frame (vin : BitVec 16) (s : State) (s' : State) (h : execVinSurge vin s = .next s') (fd :
    Followed) (h1 : fd ≠ .dram) : s'.rd fd = s.rd fd := by
  simp only [execVinSurge] at h
  (repeat' split at h) <;>
    first
      | contradiction
      | (obtain rfl := Host.Outcome.next.inj h; simp [h1])

theorem execVinSurgeEnd_frame (vin : BitVec 16) (s : State) (s' : State) (h : execVinSurgeEnd vin s = .next s') (fd :
    Followed) : s'.rd fd = s.rd fd := by
  simp only [execVinSurgeEnd] at h
  (repeat' split at h) <;>
    first
      | contradiction
      | (obtain rfl := Host.Outcome.next.inj h; simp)

theorem execPowerHigh_frame (p : BitVec 16) (s : State) (s' : State) (h : execPowerHigh p s = .next s') (fd :
    Followed) (h1 : fd ≠ .dram) : s'.rd fd = s.rd fd := by
  simp only [execPowerHigh] at h
  (repeat' split at h) <;>
    first
      | contradiction
      | (obtain rfl := Host.Outcome.next.inj h; simp [h1])

theorem execRootChange_frame (v : Word) (s : State) (s' : State) (h : execRootChange v s = .next s') (fd : Followed)
    (h1 : fd ≠ .mode) (h2 : fd ≠ .dram) : s'.rd fd = s.rd fd := by
  simp only [execRootChange] at h
  (repeat' split at h) <;>
    first
      | contradiction
      | (obtain rfl := Host.Outcome.next.inj h; simp [h1, h2])

theorem execRefSrcWrite_frame (v : Word) (s : State) (s' : State) (h : execRefSrcWrite v s = .next s') (fd : Followed)
    (h1 : fd ≠ .mode) (h2 : fd ≠ .dram) : s'.rd fd = s.rd fd := by
  simp only [execRefSrcWrite] at h
  (repeat' split at h) <;>
    first
      | contradiction
      | (obtain rfl := Host.Outcome.next.inj h; simp [h1, h2])

theorem execRootChanged_frame (bad : Option RetrainFail) (s : State) (s' : State) (h : execRootChanged bad s = .next
    s') (fd : Followed) (h1 : fd ≠ .mode) (h2 : fd ≠ .banks) (h3 : fd ≠ .dram) (h4 : fd ≠ .hostMem) : s'.rd fd = s.rd
    fd := by
  simp only [execRootChanged] at h
  (repeat' split at h) <;>
    first
      | contradiction
      | (obtain rfl := Host.Outcome.next.inj h; simp [h1, h2, h3, h4])

theorem execRefLost_frame (s : State) (s' : State) (h : execRefLost s = .next s') (fd : Followed) (h1 : fd ≠ .mode)
    (h2 : fd ≠ .banks) (h3 : fd ≠ .dram) (h4 : fd ≠ .hostMem) : s'.rd fd = s.rd fd := by
  simp only [execRefLost] at h
  (repeat' split at h) <;>
    first
      | contradiction
      | (obtain rfl := Host.Outcome.next.inj h; simp [h1, h2, h3, h4])

theorem execRefRestored_frame (s : State) (s' : State) (h : execRefRestored s = .next s') (fd : Followed) (h1 : fd ≠
    .dram) : s'.rd fd = s.rd fd := by
  simp only [execRefRestored] at h
  (repeat' split at h) <;>
    first
      | contradiction
      | (obtain rfl := Host.Outcome.next.inj h; simp [h1])

theorem execSourceValidAgain_frame (seen : RefSeen) (s : State) (s' : State) (h : execSourceValidAgain seen s = .next
    s') (fd : Followed) : s'.rd fd = s.rd fd := by
  simp only [execSourceValidAgain] at h
  (repeat' split at h) <;>
    first
      | contradiction
      | (obtain rfl := Host.Outcome.next.inj h; simp)

theorem execOcxoWarm_frame (s : State) (s' : State) (h : execOcxoWarm s = .next s') (fd : Followed) : s'.rd fd = s.rd
    fd := by
  simp only [execOcxoWarm] at h
  (repeat' split at h) <;>
    first
      | contradiction
      | (obtain rfl := Host.Outcome.next.inj h; simp)

theorem execOcxoWarmLost_frame (s : State) (s' : State) (h : execOcxoWarmLost s = .next s') (fd : Followed) : s'.rd fd
    = s.rd fd := by
  simp only [execOcxoWarmLost] at h
  (repeat' split at h) <;>
    first
      | contradiction
      | (obtain rfl := Host.Outcome.next.inj h; simp)

theorem execTimeWrap_frame (s : State) (s' : State) (h : execTimeWrap s = .next s') (fd : Followed) (h1 : fd ≠ .time)
    (h2 : fd ≠ .epoch) (h3 : fd ≠ .dram) : s'.rd fd = s.rd fd := by
  simp only [execTimeWrap] at h
  (repeat' split at h) <;>
    first
      | contradiction
      | (obtain rfl := Host.Outcome.next.inj h; simp [h1, h2, h3])

theorem execSyncExchange_frame (s : State) (s' : State) (h : execSyncExchange s = .next s') (fd : Followed) : s'.rd fd
    = s.rd fd := by
  simp only [execSyncExchange] at h
  (repeat' split at h) <;>
    first
      | contradiction
      | (obtain rfl := Host.Outcome.next.inj h; simp)

theorem execSyncReq_frame (p : Port) (xch : BitVec 8) (rsp : SyncTurn) (s : State) (s' : State) (h : execSyncReq p xch
    rsp s = .next s') (fd : Followed) : s'.rd fd = s.rd fd := by
  simp only [execSyncReq] at h
  (repeat' split at h) <;>
    first
      | contradiction
      | (obtain rfl := Host.Outcome.next.inj h; simp)

theorem execSyncRsp_frame (xch : BitVec 8) (turn : BitVec 24) (t2 : BitVec 64) (t4 : BitVec 64) (s : State) (s' :
    State) (h : execSyncRsp xch turn t2 t4 s = .next s') (fd : Followed) (h1 : fd ≠ .time) (h2 : fd ≠ .dram) : s'.rd
    fd = s.rd fd := by
  simp only [execSyncRsp] at h
  (repeat' split at h) <;>
    first
      | contradiction
      | (obtain rfl := Host.Outcome.next.inj h; simp [h1, h2])

theorem execNvmRead_frame (s : State) (s' : State) (h : execNvmRead s = .next s') (fd : Followed) (h1 : fd ≠ .dram)
    (h2 : fd ≠ .hostMem) : s'.rd fd = s.rd fd := by
  simp only [execNvmRead] at h
  (repeat' split at h) <;>
    first
      | contradiction
      | (obtain rfl := Host.Outcome.next.inj h; simp [h1, h2])

theorem execNvmProgram_frame (s : State) (s' : State) (h : execNvmProgram s = .next s') (fd : Followed) (h1 : fd ≠
    .dram) (h2 : fd ≠ .hostMem) : s'.rd fd = s.rd fd := by
  simp only [execNvmProgram] at h
  (repeat' split at h) <;>
    first
      | contradiction
      | (obtain rfl := Host.Outcome.next.inj h; simp [h1, h2])

theorem execNvmErase_frame (s : State) (s' : State) (h : execNvmErase s = .next s') (fd : Followed) (h1 : fd ≠ .dram)
    (h2 : fd ≠ .hostMem) : s'.rd fd = s.rd fd := by
  simp only [execNvmErase] at h
  (repeat' split at h) <;>
    first
      | contradiction
      | (obtain rfl := Host.Outcome.next.inj h; simp [h1, h2])

theorem execEraseSlot_frame (s : State) (s' : State) (h : execEraseSlot s = .next s') (fd : Followed) (h1 : fd ≠
    .dram) (h2 : fd ≠ .hostMem) : s'.rd fd = s.rd fd := by
  simp only [execEraseSlot] at h
  (repeat' split at h) <;>
    first
      | contradiction
      | (obtain rfl := Host.Outcome.next.inj h; simp [h1, h2])

theorem execValidateSlot_frame (s : State) (s' : State) (h : execValidateSlot s = .next s') (fd : Followed) (h1 : fd ≠
    .dram) (h2 : fd ≠ .hostMem) : s'.rd fd = s.rd fd := by
  simp only [execValidateSlot] at h
  (repeat' split at h) <;>
    first
      | contradiction
      | (obtain rfl := Host.Outcome.next.inj h; simp [h1, h2])

theorem execCalCommit_frame (s : State) (s' : State) (h : execCalCommit s = .next s') (fd : Followed) (h1 : fd ≠
    .dram) (h2 : fd ≠ .hostMem) : s'.rd fd = s.rd fd := by
  simp only [execCalCommit] at h
  (repeat' split at h) <;>
    first
      | contradiction
      | (obtain rfl := Host.Outcome.next.inj h; simp [h1, h2])

theorem execNvmAbort_frame (s : State) (s' : State) (h : execNvmAbort s = .next s') (fd : Followed) (h1 : fd ≠ .dram)
    (h2 : fd ≠ .hostMem) : s'.rd fd = s.rd fd := by
  simp only [execNvmAbort] at h
  (repeat' split at h) <;>
    first
      | contradiction
      | (obtain rfl := Host.Outcome.next.inj h; simp [h1, h2])

theorem execFlashOpComplete_frame (e : FlashEnd) (s : State) (s' : State) (h : execFlashOpComplete e s = .next s') (fd
    : Followed) (h1 : fd ≠ .otp) (h2 : fd ≠ .jtag) (h3 : fd ≠ .mode) (h4 : fd ≠ .flash) (h5 : fd ≠ .banks) (h6 : fd ≠
    .dram) (h7 : fd ≠ .hostMem) : s'.rd fd = s.rd fd := by
  simp only [execFlashOpComplete] at h
  (repeat' split at h) <;>
    first
      | contradiction
      | (obtain rfl := Host.Outcome.next.inj h; simp [h1, h2, h3, h4, h5, h6, h7])

theorem execHoldupRetry_frame (hu : BitVec 16) (s : State) (s' : State) (h : execHoldupRetry hu s = .next s') (fd :
    Followed) (h1 : fd ≠ .otp) (h2 : fd ≠ .jtag) (h3 : fd ≠ .mode) (h4 : fd ≠ .banks) (h5 : fd ≠ .dram) (h6 : fd ≠
    .hostMem) : s'.rd fd = s.rd fd := by
  simp only [execHoldupRetry] at h
  (repeat' split at h) <;>
    first
      | contradiction
      | (obtain rfl := Host.Outcome.next.inj h; simp [h1, h2, h3, h4, h5, h6])

theorem execPersistPage_frame (s : State) (s' : State) (h : execPersistPage s = .next s') (fd : Followed) : s'.rd fd =
    s.rd fd := by
  simp only [execPersistPage] at h
  (repeat' split at h) <;>
    first
      | contradiction
      | (obtain rfl := Host.Outcome.next.inj h; simp)

theorem execMonPin_frame (c : Chan) (uv : Int) (s : State) (s' : State) (h : execMonPin c uv s = .next s') (fd :
    Followed) (h1 : fd ≠ .mode) (h2 : fd ≠ .dram) : s'.rd fd = s.rd fd := by
  simp only [execMonPin] at h
  (repeat' split at h) <;>
    first
      | contradiction
      | (obtain rfl := Host.Outcome.next.inj h; simp [h1, h2])

theorem execMonSense_frame (m : Fin 32) (uv : Int) (s : State) (s' : State) (h : execMonSense m uv s = .next s') (fd :
    Followed) (h1 : fd ≠ .mode) (h2 : fd ≠ .dram) : s'.rd fd = s.rd fd := by
  simp only [execMonSense] at h
  (repeat' split at h) <;>
    first
      | contradiction
      | (obtain rfl := Host.Outcome.next.inj h; simp [h1, h2])

theorem execSenseRearm_frame (m : Fin 32) (s : State) (s' : State) (h : execSenseRearm m s = .next s') (fd : Followed)
    (h1 : fd ≠ .dram) : s'.rd fd = s.rd fd := by
  simp only [execSenseRearm] at h
  (repeat' split at h) <;>
    first
      | contradiction
      | (obtain rfl := Host.Outcome.next.inj h; simp [h1])

theorem execSenseBlankExpiry_frame (m : Fin 32) (uv : Int) (s : State) (s' : State) (h : execSenseBlankExpiry m uv s =
    .next s') (fd : Followed) (h1 : fd ≠ .mode) (h2 : fd ≠ .time) (h3 : fd ≠ .dram) : s'.rd fd = s.rd fd := by
  simp only [execSenseBlankExpiry] at h
  (repeat' split at h) <;>
    first
      | contradiction
      | (obtain rfl := Host.Outcome.next.inj h; simp [h1, h2, h3])

theorem execSrefWrite_frame (m : Fin 32) (v : Word) (s : State) (s' : State) (h : execSrefWrite m v s = .next s') (fd
    : Followed) (h1 : fd ≠ .dram) : s'.rd fd = s.rd fd := by
  simp only [execSrefWrite] at h
  (repeat' split at h) <;>
    first
      | contradiction
      | (obtain rfl := Host.Outcome.next.inj h; simp [h1])

theorem execClrN_frame (s : State) (s' : State) (h : execClrN s = .next s') (fd : Followed) : s'.rd fd = s.rd fd := by
  simp only [execClrN] at h
  (repeat' split at h) <;>
    first
      | contradiction
      | (obtain rfl := Host.Outcome.next.inj h; simp)

theorem execClrNRelease_frame (s : State) (s' : State) (h : execClrNRelease s = .next s') (fd : Followed) : s'.rd fd =
    s.rd fd := by
  simp only [execClrNRelease] at h
  (repeat' split at h) <;>
    first
      | contradiction
      | (obtain rfl := Host.Outcome.next.inj h; simp)

theorem execParkN_frame (s : State) (s' : State) (h : execParkN s = .next s') (fd : Followed) (h1 : fd ≠ .dram) :
    s'.rd fd = s.rd fd := by
  simp only [execParkN] at h
  (repeat' split at h) <;>
    first
      | contradiction
      | (obtain rfl := Host.Outcome.next.inj h; simp [h1])

theorem execParkNRelease_frame (s : State) (s' : State) (h : execParkNRelease s = .next s') (fd : Followed) : s'.rd fd
    = s.rd fd := by
  simp only [execParkNRelease] at h
  (repeat' split at h) <;>
    first
      | contradiction
      | (obtain rfl := Host.Outcome.next.inj h; simp)

theorem execSysParkWrite_frame (v : Word) (s : State) (s' : State) (h : execSysParkWrite v s = .next s') (fd :
    Followed) (h1 : fd ≠ .dram) : s'.rd fd = s.rd fd := by
  simp only [execSysParkWrite] at h
  (repeat' split at h) <;>
    first
      | contradiction
      | (obtain rfl := Host.Outcome.next.inj h; simp [h1])

theorem execPpmuStart_frame (c : Chan) (v : Word) (s : State) (s' : State) (h : execPpmuStart c v s = .next s') (fd :
    Followed) (h1 : fd ≠ .dram) : s'.rd fd = s.rd fd := by
  simp only [execPpmuStart] at h
  (repeat' split at h) <;>
    first
      | contradiction
      | (obtain rfl := Host.Outcome.next.inj h; simp [h1])

theorem execPpmuDone_frame (c : Chan) (vs : List Int) (ok : Bool) (s : State) (s' : State) (h : execPpmuDone c vs ok s
    = .next s') (fd : Followed) (h1 : fd ≠ .time) : s'.rd fd = s.rd fd := by
  simp only [execPpmuDone] at h
  (repeat' split at h) <;>
    first
      | contradiction
      | (obtain rfl := Host.Outcome.next.inj h; simp [h1])

theorem execDacReadbackScan_frame (c : Chan) (dac : BitVec 6) (uv : Int) (s : State) (s' : State) (h :
    execDacReadbackScan c dac uv s = .next s') (fd : Followed) (h1 : fd ≠ .dram) : s'.rd fd = s.rd fd := by
  simp only [execDacReadbackScan] at h
  (repeat' split at h) <;>
    first
      | contradiction
      | (obtain rfl := Host.Outcome.next.inj h; simp [h1])

theorem execSenseMeasStart_frame (m : Fin 32) (v : Word) (s : State) (s' : State) (h : execSenseMeasStart m v s =
    .next s') (fd : Followed) (h1 : fd ≠ .dram) : s'.rd fd = s.rd fd := by
  simp only [execSenseMeasStart] at h
  (repeat' split at h) <;>
    first
      | contradiction
      | (obtain rfl := Host.Outcome.next.inj h; simp [h1])

theorem execSrefReadbackStart_frame (m : Fin 32) (v : Word) (s : State) (s' : State) (h : execSrefReadbackStart m v s
    = .next s') (fd : Followed) (h1 : fd ≠ .dram) : s'.rd fd = s.rd fd := by
  simp only [execSrefReadbackStart] at h
  (repeat' split at h) <;>
    first
      | contradiction
      | (obtain rfl := Host.Outcome.next.inj h; simp [h1])

theorem execConversionDone_frame (sref : Bool) (m : Fin 32) (v : BitVec 24) (hi : Bool) (s : State) (s' : State) (h :
    execConversionDone sref m v hi s = .next s') (fd : Followed) (h1 : fd ≠ .time) (h2 : fd ≠ .dram) : s'.rd fd = s.rd
    fd := by
  simp only [execConversionDone] at h
  (repeat' split at h) <;>
    first
      | contradiction
      | (obtain rfl := Host.Outcome.next.inj h; simp [h1, h2])

theorem execMonDisClear_frame (c : Chan) (s : State) (s' : State) (h : execMonDisClear c s = .next s') (fd : Followed)
    (h1 : fd ≠ .dram) : s'.rd fd = s.rd fd := by
  simp only [execMonDisClear] at h
  (repeat' split at h) <;>
    first
      | contradiction
      | (obtain rfl := Host.Outcome.next.inj h; simp [h1])

theorem execDchkDisClear_frame (c : Chan) (s : State) (s' : State) (h : execDchkDisClear c s = .next s') (fd :
    Followed) (h1 : fd ≠ .dram) : s'.rd fd = s.rd fd := by
  simp only [execDchkDisClear] at h
  (repeat' split at h) <;>
    first
      | contradiction
      | (obtain rfl := Host.Outcome.next.inj h; simp [h1])

theorem execSeqStart_frame (n : Act) (v : Word) (s : State) (s' : State) (h : execSeqStart n v s = .next s') (fd :
    Followed) (h1 : fd ≠ .mode) (h2 : fd ≠ .dram) : s'.rd fd = s.rd fd := by
  simp only [execSeqStart] at h
  (repeat' split at h) <;>
    first
      | contradiction
      | (obtain rfl := Host.Outcome.next.inj h; simp [h1, h2])

theorem execSeqArm_frame (n : Act) (v : Word) (s : State) (s' : State) (h : execSeqArm n v s = .next s') (fd :
    Followed) (h1 : fd ≠ .mode) (h2 : fd ≠ .dram) : s'.rd fd = s.rd fd := by
  simp only [execSeqArm] at h
  (repeat' split at h) <;>
    first
      | contradiction
      | (obtain rfl := Host.Outcome.next.inj h; simp [h1, h2])

theorem execSeqStop_frame (n : Act) (v : Word) (s : State) (s' : State) (h : execSeqStop n v s = .next s') (fd :
    Followed) (h1 : fd ≠ .mode) (h2 : fd ≠ .dram) : s'.rd fd = s.rd fd := by
  simp only [execSeqStop] at h
  (repeat' split at h) <;>
    first
      | contradiction
      | (obtain rfl := Host.Outcome.next.inj h; simp [h1, h2])

theorem execSeqAbort_frame (n : Act) (v : Word) (s : State) (s' : State) (h : execSeqAbort n v s = .next s') (fd :
    Followed) (h1 : fd ≠ .mode) (h2 : fd ≠ .dram) : s'.rd fd = s.rd fd := by
  simp only [execSeqAbort] at h
  (repeat' split at h) <;>
    first
      | contradiction
      | (obtain rfl := Host.Outcome.next.inj h; simp [h1, h2])

theorem execStartChecks_frame (n : Act) (s : State) (s' : State) (h : execStartChecks n s = .next s') (fd : Followed)
    (h1 : fd ≠ .dram) : s'.rd fd = s.rd fd := by
  simp only [execStartChecks] at h
  (repeat' split at h) <;>
    first
      | contradiction
      | (obtain rfl := Host.Outcome.next.inj h; cases s.timingCheck n <;> simp [h1])

theorem execActArmed_frame (n : Act) (s : State) (s' : State) (h : execActArmed n s = .next s') (fd : Followed) (h1 :
    fd ≠ .mode) (h2 : fd ≠ .dram) : s'.rd fd = s.rd fd := by
  simp only [execActArmed] at h
  (repeat' split at h) <;>
    first
      | contradiction
      | (obtain rfl := Host.Outcome.next.inj h; simp [h1, h2])

theorem execStartTime_frame (n : Act) (s : State) (s' : State) (h : execStartTime n s = .next s') (fd : Followed) (h1
    : fd ≠ .mode) (h2 : fd ≠ .time) (h3 : fd ≠ .dram) : s'.rd fd = s.rd fd := by
  simp only [execStartTime] at h
  (repeat' split at h) <;>
    first
      | contradiction
      | (obtain rfl := Host.Outcome.next.inj h; simp [h1, h2, h3])

theorem execEndOfL_frame (n : Act) (t : BitVec 64) (s : State) (s' : State) (h : execEndOfL n t s = .next s') (fd :
    Followed) (h1 : fd ≠ .time) : s'.rd fd = s.rd fd := by
  simp only [execEndOfL] at h
  (repeat' split at h) <;>
    first
      | contradiction
      | (obtain rfl := Host.Outcome.next.inj h; simp [h1])

theorem execActStopped_frame (n : Act) (s : State) (s' : State) (h : execActStopped n s = .next s') (fd : Followed)
    (h1 : fd ≠ .mode) (h2 : fd ≠ .time) (h3 : fd ≠ .dram) : s'.rd fd = s.rd fd := by
  simp only [execActStopped] at h
  (repeat' split at h) <;>
    first
      | contradiction
      | (obtain rfl := Host.Outcome.next.inj h; simp [h1, h2, h3])

theorem execPatrolRegion_frame (ecc : PatrolEcc) (s : State) (s' : State) (h : execPatrolRegion ecc s = .next s') (fd
    : Followed) (h1 : fd ≠ .dram) : s'.rd fd = s.rd fd := by
  simp only [execPatrolRegion] at h
  (repeat' split at h) <;>
    first
      | contradiction
      | (obtain rfl := Host.Outcome.next.inj h; simp [h1])

theorem execPatrolRegionDone_frame (ok : Bool) (s : State) (s' : State) (h : execPatrolRegionDone ok s = .next s') (fd
    : Followed) (h1 : fd ≠ .dram) : s'.rd fd = s.rd fd := by
  simp only [execPatrolRegionDone] at h
  (repeat' split at h) <;>
    first
      | contradiction
      | (obtain rfl := Host.Outcome.next.inj h; simp [h1])

theorem execBoardRead_frame (ba : BitVec 18) (coll : Option Word) (ecc : Ecc) (s : State) (s' : State) (h :
    execBoardRead ba coll ecc s = .next s') (fd : Followed) (h1 : fd ≠ .dram) : s'.rd fd = s.rd fd := by
  simp only [execBoardRead] at h
  (repeat' split at h) <;>
    first
      | contradiction
      | (obtain rfl := Host.Outcome.next.inj h; simp [h1])

theorem execBoardWrite_frame (ba : BitVec 18) (v : BitVec 16) (coll : BoardColl) (s : State) (s' : State) (h :
    execBoardWrite ba v coll s = .next s') (fd : Followed) (h1 : fd ≠ .dram) : s'.rd fd = s.rd fd := by
  simp only [execBoardWrite] at h
  (repeat' split at h) <;>
    first
      | contradiction
      | (obtain rfl := Host.Outcome.next.inj h; simp [h1])

theorem execBcsRelease_frame (s : State) (s' : State) (h : execBcsRelease s = .next s') (fd : Followed) : s'.rd fd =
    s.rd fd := by
  simp only [execBcsRelease] at h
  (repeat' split at h) <;>
    first
      | contradiction
      | (obtain rfl := Host.Outcome.next.inj h; simp)

theorem execAtomicAdd_frame (a : AtomicAt) (wide : Bool) (v : BitVec 64) (s : State) (s' : State) (h : execAtomicAdd a
    wide v s = .next s') (fd : Followed) (h1 : fd ≠ .mode) (h2 : fd ≠ .banks) (h3 : fd ≠ .dram) (h4 : fd ≠ .hostMem) :
    s'.rd fd = s.rd fd := by
  simp only [execAtomicAdd] at h
  (repeat' split at h) <;>
    first
      | contradiction
      | (obtain rfl := Host.Outcome.next.inj h; simp [h1, h2, h3, h4])

theorem execAtomicSwap_frame (a : AtomicAt) (wide : Bool) (v : BitVec 64) (s : State) (s' : State) (h : execAtomicSwap
    a wide v s = .next s') (fd : Followed) (h1 : fd ≠ .mode) (h2 : fd ≠ .banks) (h3 : fd ≠ .dram) (h4 : fd ≠ .hostMem)
    : s'.rd fd = s.rd fd := by
  simp only [execAtomicSwap] at h
  (repeat' split at h) <;>
    first
      | contradiction
      | (obtain rfl := Host.Outcome.next.inj h; simp [h1, h2, h3, h4])

theorem execBar2Read_frame (a : BitVec 37) (len : Nat) (ecc : Ecc) (s : State) (s' : State) (h : execBar2Read a len
    ecc s = .next s') (fd : Followed) (h1 : fd ≠ .dram) : s'.rd fd = s.rd fd := by
  simp only [execBar2Read] at h
  (repeat' split at h) <;>
    first
      | contradiction
      | (obtain rfl := Host.Outcome.next.inj h; simp [h1])

theorem execBar2Write_frame (a : BitVec 37) (bytes : List Byte) (s : State) (s' : State) (h : execBar2Write a bytes s
    = .next s') (fd : Followed) (h1 : fd ≠ .dram) : s'.rd fd = s.rd fd := by
  simp only [execBar2Write] at h
  (repeat' split at h) <;>
    first
      | contradiction
      | (obtain rfl := Host.Outcome.next.inj h; simp [h1])

theorem execDramPartWrite_frame (i : Fin 16) (size : Bool) (v : Word) (s : State) (s' : State) (h : execDramPartWrite
    i size v s = .next s') (fd : Followed) (h1 : fd ≠ .dram) : s'.rd fd = s.rd fd := by
  simp only [execDramPartWrite] at h
  (repeat' split at h) <;>
    first
      | contradiction
      | (obtain rfl := Host.Outcome.next.inj h; simp [h1])

theorem execSeqCbMaskWrite_frame (n : Act) (v : Word) (s : State) (s' : State) (h : execSeqCbMaskWrite n v s = .next
    s') (fd : Followed) (h1 : fd ≠ .dram) : s'.rd fd = s.rd fd := by
  simp only [execSeqCbMaskWrite] at h
  (repeat' split at h) <;>
    first
      | contradiction
      | (obtain rfl := Host.Outcome.next.inj h; simp [h1])

theorem execFailRingChWrite_frame (g : Ring) (i : Fin 32) (v : Word) (s : State) (s' : State) (h : execFailRingChWrite
    g i v s = .next s') (fd : Followed) (h1 : fd ≠ .dram) : s'.rd fd = s.rd fd := by
  simp only [execFailRingChWrite] at h
  (repeat' split at h) <;>
    first
      | contradiction
      | (obtain rfl := Host.Outcome.next.inj h; simp [h1])

theorem execTdcStatusRead_frame (src : Src) (c : Chan) (s : State) (s' : State) (h : execTdcStatusRead src c s = .next
    s') (fd : Followed) : s'.rd fd = s.rd fd := by
  simp only [execTdcStatusRead] at h
  (repeat' split at h) <;>
    first
      | contradiction
      | (obtain rfl := Host.Outcome.next.inj h; simp)

theorem execLoRead_frame (src : Src) (a : BitVec 26) (ecc : Ecc) (s : State) (s' : State) (h : execLoRead src a ecc s
    = .next s') (fd : Followed) (h1 : fd ≠ .mode) (h2 : fd ≠ .banks) (h3 : fd ≠ .dram) (h4 : fd ≠ .hostMem) : s'.rd fd
    = s.rd fd := by
  simp only [execLoRead] at h
  (repeat' split at h) <;>
    first
      | contradiction
      | (obtain rfl := Host.Outcome.next.inj h; simp [h1, h2, h3, h4])

theorem execRegisterWrite_frame (src : Src) (a : BitVec 26) (v : Word) (be : BitVec 4) (s : State) (s' : State) (h :
    execRegisterWrite src a v be s = .next s') (fd : Followed) (h1 : fd ≠ .otp) (h2 : fd ≠ .jtag) (h3 : fd ≠ .mode)
    (h4 : fd ≠ .banks) (h5 : fd ≠ .dram) (h6 : fd ≠ .hostMem) : s'.rd fd = s.rd fd := by
  simp only [execRegisterWrite] at h
  (repeat' split at h) <;>
    first
      | contradiction
      | (obtain rfl := Host.Outcome.next.inj h; simp [h1, h2, h3, h4, h5, h6])

theorem execLinkActive_frame (p : Port) (res : TrainResult) (s : State) (s' : State) (h : execLinkActive p res s =
    .next s') (fd : Followed) (h1 : fd ≠ .mode) (h2 : fd ≠ .dram) : s'.rd fd = s.rd fd := by
  simp only [execLinkActive] at h
  (repeat' split at h) <;>
    first
      | contradiction
      | (obtain rfl := Host.Outcome.next.inj h; simp [h1, h2])

theorem execRetrain_frame (p : Port) (s : State) (s' : State) (h : execRetrain p s = .next s') (fd : Followed) (h1 :
    fd ≠ .mode) (h2 : fd ≠ .dram) : s'.rd fd = s.rd fd := by
  simp only [execRetrain] at h
  (repeat' split at h) <;>
    first
      | contradiction
      | (obtain rfl := Host.Outcome.next.inj h; simp [h1, h2])

theorem execLnkPortCfgWrite_frame (p : Port) (v : Word) (s : State) (s' : State) (h : execLnkPortCfgWrite p v s =
    .next s') (fd : Followed) (h1 : fd ≠ .otp) (h2 : fd ≠ .jtag) (h3 : fd ≠ .mode) (h4 : fd ≠ .banks) (h5 : fd ≠
    .dram) (h6 : fd ≠ .hostMem) : s'.rd fd = s.rd fd := by
  simp only [execLnkPortCfgWrite] at h
  (repeat' split at h) <;>
    first
      | contradiction
      | (obtain rfl := Host.Outcome.next.inj h; simp [h1, h2, h3, h4, h5, h6])

theorem execPartnerRateChange_frame (p : Port) (s : State) (s' : State) (h : execPartnerRateChange p s = .next s') (fd
    : Followed) : s'.rd fd = s.rd fd := by
  simp only [execPartnerRateChange] at h
  (repeat' split at h) <;>
    first
      | contradiction
      | (obtain rfl := Host.Outcome.next.inj h; simp)

theorem execBarkerSend_frame (p : Port) (s : State) (s' : State) (h : execBarkerSend p s = .next s') (fd : Followed) :
    s'.rd fd = s.rd fd := by
  simp only [execBarkerSend] at h
  (repeat' split at h) <;>
    first
      | contradiction
      | (obtain rfl := Host.Outcome.next.inj h; simp)

theorem execBarker_frame (p : Port) (w : BitVec 56) (s : State) (s' : State) (h : execBarker p w s = .next s') (fd :
    Followed) (h1 : fd ≠ .mode) (h2 : fd ≠ .dram) : s'.rd fd = s.rd fd := by
  simp only [execBarker] at h
  (repeat' split at h) <;>
    first
      | contradiction
      | (obtain rfl := Host.Outcome.next.inj h; simp [h1, h2])

theorem execPartnerLost_frame (p : Port) (s : State) (s' : State) (h : execPartnerLost p s = .next s') (fd : Followed)
    (h1 : fd ≠ .mode) (h2 : fd ≠ .dram) : s'.rd fd = s.rd fd := by
  simp only [execPartnerLost] at h
  (repeat' split at h) <;>
    first
      | contradiction
      | (obtain rfl := Host.Outcome.next.inj h; simp [h1, h2])

theorem execAck_frame (p : Port) (seq : BitVec 16) (nak : Bool) (req : BitVec 8) (rsp : BitVec 8) (s : State) (s' :
    State) (h : execAck p seq nak req rsp s = .next s') (fd : Followed) (h1 : fd ≠ .mode) (h2 : fd ≠ .dram) : s'.rd fd
    = s.rd fd := by
  simp only [execAck] at h
  (repeat' split at h) <;>
    first
      | contradiction
      | (obtain rfl := Host.Outcome.next.inj h; simp [h1, h2])

theorem execReplayTimeout_frame (p : Port) (s : State) (s' : State) (h : execReplayTimeout p s = .next s') (fd :
    Followed) (h1 : fd ≠ .mode) (h2 : fd ≠ .time) (h3 : fd ≠ .dram) : s'.rd fd = s.rd fd := by
  simp only [execReplayTimeout] at h
  (repeat' split at h) <;>
    first
      | contradiction
      | (obtain rfl := Host.Outcome.next.inj h; simp [h1, h2, h3])

theorem execLnkTimeout_frame (p : Port) (tag : BitVec 8) (s : State) (s' : State) (h : execLnkTimeout p tag s = .next
    s') (fd : Followed) (h1 : fd ≠ .time) (h2 : fd ≠ .dram) (h3 : fd ≠ .hostMem) : s'.rd fd = s.rd fd := by
  simp only [execLnkTimeout] at h
  (repeat' split at h) <;>
    first
      | contradiction
      | (obtain rfl := Host.Outcome.next.inj h; simp [h1, h2, h3])

theorem execRdReq_frame (p : Port) (h : FrameHdr) (a : Word) (count : Word) (ecc : Ecc) (s : State) (s' : State) (h :
    execRdReq p h a count ecc s = .next s') (fd : Followed) (h1 : fd ≠ .mode) (h2 : fd ≠ .banks) (h3 : fd ≠ .dram) (h4
    : fd ≠ .hostMem) : s'.rd fd = s.rd fd := by
  simp only [execRdReq] at h
  (repeat' split at h) <;>
    first
      | contradiction
      | (obtain rfl := Host.Outcome.next.inj h; simp [h1, h2, h3, h4])

theorem execWrReq_frame (p : Port) (h : FrameHdr) (a : Word) (words : List Word) (s : State) (s' : State) (h :
    execWrReq p h a words s = .next s') (fd : Followed) (h1 : fd ≠ .otp) (h2 : fd ≠ .jtag) (h3 : fd ≠ .mode) (h4 : fd
    ≠ .banks) (h5 : fd ≠ .dram) (h6 : fd ≠ .hostMem) : s'.rd fd = s.rd fd := by
  simp only [execWrReq] at h
  (repeat' split at h) <;>
    first
      | contradiction
      | (obtain rfl := Host.Outcome.next.inj h; simp [h1, h2, h3, h4, h5, h6])

theorem execRdRsp_frame (p : Port) (h : FrameHdr) (status : Word) (words : List Word) (s : State) (s' : State) (h :
    execRdRsp p h status words s = .next s') (fd : Followed) (h1 : fd ≠ .hostMem) : s'.rd fd = s.rd fd := by
  simp only [execRdRsp] at h
  (repeat' split at h) <;>
    first
      | contradiction
      | (obtain rfl := Host.Outcome.next.inj h; simp [h1])

theorem execWrRsp_frame (p : Port) (h : FrameHdr) (status : Word) (s : State) (s' : State) (h : execWrRsp p h status s
    = .next s') (fd : Followed) (h1 : fd ≠ .hostMem) : s'.rd fd = s.rd fd := by
  simp only [execWrRsp] at h
  (repeat' split at h) <;>
    first
      | contradiction
      | (obtain rfl := Host.Outcome.next.inj h; simp [h1])

theorem execEventFrame_frame (p : Port) (h : FrameHdr) (rec : List Word) (s : State) (s' : State) (h : execEventFrame
    p h rec s = .next s') (fd : Followed) (h1 : fd ≠ .mode) (h2 : fd ≠ .dram) : s'.rd fd = s.rd fd := by
  simp only [execEventFrame] at h
  (repeat' split at h) <;>
    first
      | contradiction
      | (obtain rfl := Host.Outcome.next.inj h; simp [h1, h2])

theorem execJoin_frame (p : Port) (h : FrameHdr) (profile : List Word) (s : State) (s' : State) (h : execJoin p h
    profile s = .next s') (fd : Followed) (h1 : fd ≠ .mode) (h2 : fd ≠ .dram) : s'.rd fd = s.rd fd := by
  simp only [execJoin] at h
  (repeat' split at h) <;>
    first
      | contradiction
      | (obtain rfl := Host.Outcome.next.inj h; simp [h1, h2])

theorem execJoinSend_frame (s : State) (s' : State) (h : execJoinSend s = .next s') (fd : Followed) : s'.rd fd = s.rd
    fd := by
  simp only [execJoinSend] at h
  (repeat' split at h) <;>
    first
      | contradiction
      | (obtain rfl := Host.Outcome.next.inj h; simp)

theorem execShowReport_frame (p : Port) (h : FrameHdr) (sh : ShowId) (act : Act) (state : BitVec 8) (reason : BitVec
    8) (cycle : BitVec 64) (t : BitVec 64) (s : State) (s' : State) (h : execShowReport p h sh act state reason cycle
    t s = .next s') (fd : Followed) (h1 : fd ≠ .dram) : s'.rd fd = s.rd fd := by
  simp only [execShowReport] at h
  (repeat' split at h) <;>
    first
      | contradiction
      | (obtain rfl := Host.Outcome.next.inj h; simp [h1])

theorem execShowRunTimeout_frame (sh : ShowId) (s : State) (s' : State) (h : execShowRunTimeout sh s = .next s') (fd :
    Followed) (h1 : fd ≠ .mode) (h2 : fd ≠ .time) (h3 : fd ≠ .dram) : s'.rd fd = s.rd fd := by
  simp only [execShowRunTimeout] at h
  (repeat' split at h) <;>
    first
      | contradiction
      | (obtain rfl := Host.Outcome.next.inj h; simp [h1, h2, h3])

theorem execBench_frame (p : Port) (h : FrameHdr) (sh : ShowId) (clear : Bool) (s : State) (s' : State) (h : execBench
    p h sh clear s = .next s') (fd : Followed) (h1 : fd ≠ .dram) : s'.rd fd = s.rd fd := by
  simp only [execBench] at h
  (repeat' split at h) <;>
    first
      | contradiction
      | (obtain rfl := Host.Outcome.next.inj h; simp [h1])

theorem execShowUnbench_frame (sh : ShowId) (i : Fin 9) (v : Word) (s : State) (s' : State) (h : execShowUnbench sh i
    v s = .next s') (fd : Followed) (h1 : fd ≠ .otp) (h2 : fd ≠ .jtag) (h3 : fd ≠ .mode) (h4 : fd ≠ .banks) (h5 : fd ≠
    .dram) (h6 : fd ≠ .hostMem) : s'.rd fd = s.rd fd := by
  simp only [execShowUnbench] at h
  (repeat' split at h) <;>
    first
      | contradiction
      | (obtain rfl := Host.Outcome.next.inj h; simp [h1, h2, h3, h4, h5, h6])

theorem execStopWhistle_frame (p : Port) (w : WhistleIn) (s : State) (s' : State) (h : execStopWhistle p w s = .next
    s') (fd : Followed) (h1 : fd ≠ .mode) (h2 : fd ≠ .dram) : s'.rd fd = s.rd fd := by
  simp only [execStopWhistle] at h
  (repeat' split at h) <;>
    first
      | contradiction
      | (obtain rfl := Host.Outcome.next.inj h; simp [h1, h2])

theorem execParkWhistle_frame (p : Port) (w : WhistleIn) (s : State) (s' : State) (h : execParkWhistle p w s = .next
    s') (fd : Followed) (h1 : fd ≠ .mode) (h2 : fd ≠ .dram) : s'.rd fd = s.rd fd := by
  simp only [execParkWhistle] at h
  (repeat' split at h) <;>
    first
      | contradiction
      | (obtain rfl := Host.Outcome.next.inj h; simp [h1, h2])

theorem execAbortWhistle_frame (p : Port) (w : WhistleIn) (s : State) (s' : State) (h : execAbortWhistle p w s = .next
    s') (fd : Followed) (h1 : fd ≠ .mode) (h2 : fd ≠ .dram) : s'.rd fd = s.rd fd := by
  simp only [execAbortWhistle] at h
  (repeat' split at h) <;>
    first
      | contradiction
      | (obtain rfl := Host.Outcome.next.inj h; simp [h1, h2])

theorem execStartWhistle_frame (p : Port) (w : WhistleIn) (t : BitVec 64) (s : State) (s' : State) (h :
    execStartWhistle p w t s = .next s') (fd : Followed) (h1 : fd ≠ .mode) (h2 : fd ≠ .dram) : s'.rd fd = s.rd fd :=
    by
  simp only [execStartWhistle] at h
  (repeat' split at h) <;>
    first
      | contradiction
      | (obtain rfl := Host.Outcome.next.inj h; simp [h1, h2])

theorem execCueWhistle_frame (p : Port) (w : WhistleIn) (cue : BitVec 8) (t : BitVec 64) (s : State) (s' : State) (h :
    execCueWhistle p w cue t s = .next s') (fd : Followed) (h1 : fd ≠ .mode) (h2 : fd ≠ .dram) : s'.rd fd = s.rd fd :=
    by
  simp only [execCueWhistle] at h
  (repeat' split at h) <;>
    first
      | contradiction
      | (obtain rfl := Host.Outcome.next.inj h; simp [h1, h2])

theorem execWhistleWindow_frame (s : State) (s' : State) (h : execWhistleWindow s = .next s') (fd : Followed) (h1 : fd
    ≠ .time) : s'.rd fd = s.rd fd := by
  simp only [execWhistleWindow] at h
  (repeat' split at h) <;>
    first
      | contradiction
      | (obtain rfl := Host.Outcome.next.inj h; simp [h1])

theorem execSendStop_frame (sh : ShowId) (s : State) (s' : State) (h : execSendStop sh s = .next s') (fd : Followed)
    (h1 : fd ≠ .otp) (h2 : fd ≠ .jtag) (h3 : fd ≠ .mode) (h4 : fd ≠ .banks) (h5 : fd ≠ .dram) (h6 : fd ≠ .hostMem) :
    s'.rd fd = s.rd fd := by
  simp only [execSendStop] at h
  (repeat' split at h) <;>
    first
      | contradiction
      | (obtain rfl := Host.Outcome.next.inj h; simp [h1, h2, h3, h4, h5, h6])

theorem execSendPark_frame (sh : ShowId) (s : State) (s' : State) (h : execSendPark sh s = .next s') (fd : Followed)
    (h1 : fd ≠ .otp) (h2 : fd ≠ .jtag) (h3 : fd ≠ .mode) (h4 : fd ≠ .banks) (h5 : fd ≠ .dram) (h6 : fd ≠ .hostMem) :
    s'.rd fd = s.rd fd := by
  simp only [execSendPark] at h
  (repeat' split at h) <;>
    first
      | contradiction
      | (obtain rfl := Host.Outcome.next.inj h; simp [h1, h2, h3, h4, h5, h6])

theorem execSendAbort_frame (sh : ShowId) (s : State) (s' : State) (h : execSendAbort sh s = .next s') (fd : Followed)
    (h1 : fd ≠ .otp) (h2 : fd ≠ .jtag) (h3 : fd ≠ .mode) (h4 : fd ≠ .banks) (h5 : fd ≠ .dram) (h6 : fd ≠ .hostMem) :
    s'.rd fd = s.rd fd := by
  simp only [execSendAbort] at h
  (repeat' split at h) <;>
    first
      | contradiction
      | (obtain rfl := Host.Outcome.next.inj h; simp [h1, h2, h3, h4, h5, h6])

theorem execSendStart_frame (sh : ShowId) (s : State) (s' : State) (h : execSendStart sh s = .next s') (fd : Followed)
    (h1 : fd ≠ .otp) (h2 : fd ≠ .jtag) (h3 : fd ≠ .mode) (h4 : fd ≠ .banks) (h5 : fd ≠ .dram) (h6 : fd ≠ .hostMem) :
    s'.rd fd = s.rd fd := by
  simp only [execSendStart] at h
  (repeat' split at h) <;>
    first
      | contradiction
      | (obtain rfl := Host.Outcome.next.inj h; simp [h1, h2, h3, h4, h5, h6])

theorem execSendCue_frame (sh : ShowId) (cue : BitVec 8) (s : State) (s' : State) (h : execSendCue sh cue s = .next
    s') (fd : Followed) (h1 : fd ≠ .otp) (h2 : fd ≠ .jtag) (h3 : fd ≠ .mode) (h4 : fd ≠ .banks) (h5 : fd ≠ .dram) (h6
    : fd ≠ .hostMem) : s'.rd fd = s.rd fd := by
  simp only [execSendCue] at h
  (repeat' split at h) <;>
    first
      | contradiction
      | (obtain rfl := Host.Outcome.next.inj h; simp [h1, h2, h3, h4, h5, h6])

theorem execQueueEnable_frame (q : Queue) (v : Word) (s : State) (s' : State) (h : execQueueEnable q v s = .next s')
    (fd : Followed) (h1 : fd ≠ .otp) (h2 : fd ≠ .jtag) (h3 : fd ≠ .mode) (h4 : fd ≠ .banks) (h5 : fd ≠ .dram) (h6 : fd
    ≠ .hostMem) : s'.rd fd = s.rd fd := by
  simp only [execQueueEnable] at h
  (repeat' split at h) <;>
    first
      | contradiction
      | (obtain rfl := Host.Outcome.next.inj h; simp [h1, h2, h3, h4, h5, h6])

theorem execQueueDisable_frame (q : Queue) (v : Word) (s : State) (s' : State) (h : execQueueDisable q v s = .next s')
    (fd : Followed) (h1 : fd ≠ .otp) (h2 : fd ≠ .jtag) (h3 : fd ≠ .mode) (h4 : fd ≠ .banks) (h5 : fd ≠ .dram) (h6 : fd
    ≠ .hostMem) : s'.rd fd = s.rd fd := by
  simp only [execQueueDisable] at h
  (repeat' split at h) <;>
    first
      | contradiction
      | (obtain rfl := Host.Outcome.next.inj h; simp [h1, h2, h3, h4, h5, h6])

theorem execSqDoorbell_frame (q : Queue) (v : Word) (s : State) (s' : State) (h : execSqDoorbell q v s = .next s') (fd
    : Followed) (h1 : fd ≠ .otp) (h2 : fd ≠ .jtag) (h3 : fd ≠ .mode) (h4 : fd ≠ .banks) (h5 : fd ≠ .dram) (h6 : fd ≠
    .hostMem) : s'.rd fd = s.rd fd := by
  simp only [execSqDoorbell] at h
  (repeat' split at h) <;>
    first
      | contradiction
      | (obtain rfl := Host.Outcome.next.inj h; simp [h1, h2, h3, h4, h5, h6])

theorem execCqHeadWrite_frame (q : Queue) (v : Word) (s : State) (s' : State) (h : execCqHeadWrite q v s = .next s')
    (fd : Followed) (h1 : fd ≠ .otp) (h2 : fd ≠ .jtag) (h3 : fd ≠ .mode) (h4 : fd ≠ .banks) (h5 : fd ≠ .dram) (h6 : fd
    ≠ .hostMem) : s'.rd fd = s.rd fd := by
  simp only [execCqHeadWrite] at h
  (repeat' split at h) <;>
    first
      | contradiction
      | (obtain rfl := Host.Outcome.next.inj h; simp [h1, h2, h3, h4, h5, h6])

theorem execCommandFetch_frame (q : Queue) (c : HostCmd) (s : State) (s' : State) (h : execCommandFetch q c s = .next
    s') (fd : Followed) (h1 : fd ≠ .dram) : s'.rd fd = s.rd fd := by
  simp only [execCommandFetch] at h
  (repeat' split at h) <;>
    first
      | contradiction
      | (obtain rfl := Host.Outcome.next.inj h; simp [h1])

theorem execCommandComplete_frame (q : Queue) (s : State) (s' : State) (h : execCommandComplete q s = .next s') (fd :
    Followed) (h1 : fd ≠ .hostMem) : s'.rd fd = s.rd fd := by
  simp only [execCommandComplete] at h
  (repeat' split at h) <;>
    first
      | contradiction
      | (obtain rfl := Host.Outcome.next.inj h; simp [h1])

theorem execCmdTimeout_frame (q : Queue) (id : BitVec 64) (s : State) (s' : State) (h : execCmdTimeout q id s = .next
    s') (fd : Followed) (h1 : fd ≠ .time) (h2 : fd ≠ .dram) (h3 : fd ≠ .hostMem) : s'.rd fd = s.rd fd := by
  simp only [execCmdTimeout] at h
  (repeat' split at h) <;>
    first
      | contradiction
      | (obtain rfl := Host.Outcome.next.inj h; simp [h1, h2, h3])

theorem execFlr_frame (s : State) (s' : State) (h : execFlr s = .next s') (fd : Followed) (h1 : fd ≠ .dram) : s'.rd fd
    = s.rd fd := by
  simp only [execFlr] at h
  (repeat' split at h) <;>
    first
      | contradiction
      | (obtain rfl := Host.Outcome.next.inj h; simp [h1])

theorem execPowerStateChange_frame (d3 : Bool) (s : State) (s' : State) (h : execPowerStateChange d3 s = .next s') (fd
    : Followed) (h1 : fd ≠ .d3hot) (h2 : fd ≠ .hostMem) : s'.rd fd = s.rd fd := by
  simp only [execPowerStateChange] at h
  (repeat' split at h) <;>
    first
      | contradiction
      | (obtain rfl := Host.Outcome.next.inj h; simp [h1, h2])

theorem execConventionalReset_frame (s : State) (s' : State) (h : execConventionalReset s = .next s') (fd : Followed)
    (h1 : fd ≠ .dram) (h2 : fd ≠ .d3hot) : s'.rd fd = s.rd fd := by
  simp only [execConventionalReset] at h
  (repeat' split at h) <;>
    first
      | contradiction
      | (obtain rfl := Host.Outcome.next.inj h; simp [h1, h2])

theorem execEvtIrqDefer_frame (s : State) (s' : State) (h : execEvtIrqDefer s = .next s') (fd : Followed) (h1 : fd ≠
    .time) : s'.rd fd = s.rd fd := by
  simp only [execEvtIrqDefer] at h
  (repeat' split at h) <;>
    first
      | contradiction
      | (obtain rfl := Host.Outcome.next.inj h; simp [h1])

theorem execBdDoorbell_frame (s : State) (s' : State) (h : execBdDoorbell s = .next s') (fd : Followed) (h1 : fd ≠
    .otp) (h2 : fd ≠ .jtag) (h3 : fd ≠ .mode) (h4 : fd ≠ .banks) (h5 : fd ≠ .dram) (h6 : fd ≠ .hostMem) : s'.rd fd =
    s.rd fd := by
  simp only [execBdDoorbell] at h
  (repeat' split at h) <;>
    first
      | contradiction
      | (obtain rfl := Host.Outcome.next.inj h; simp [h1, h2, h3, h4, h5, h6])

theorem execNop_frame (q : Queue) (id : BitVec 64) (s : State) (s' : State) (h : execNop q id s = .next s') (fd :
    Followed) : s'.rd fd = s.rd fd := by
  simp only [execNop] at h
  obtain rfl | ⟨c, rfl⟩ | ⟨c, rfl⟩ := cmdStart_next h <;>
    first | (simp; done) | (simp only [State.inRange]; (repeat' split) <;> simp)

theorem execRegRead_frame (q : Queue) (id : BitVec 64) (ecc : Ecc) (s : State) (s' : State) (h : execRegRead q id ecc
    s = .next s') (fd : Followed) (h1 : fd ≠ .mode) (h2 : fd ≠ .banks) (h3 : fd ≠ .dram) (h4 : fd ≠ .hostMem) : s'.rd
    fd = s.rd fd := by
  simp only [execRegRead] at h
  obtain rfl | ⟨c, rfl⟩ | ⟨c, rfl⟩ := cmdStart_next h <;>
    first | (simp [h1, h2, h3, h4]; done) | (simp only [State.inRange]; (repeat' split) <;> simp [h1, h2, h3, h4])

theorem execRegWrite_frame (q : Queue) (id : BitVec 64) (data : HostData) (s : State) (s' : State) (h : execRegWrite q
    id data s = .next s') (fd : Followed) (h1 : fd ≠ .otp) (h2 : fd ≠ .jtag) (h3 : fd ≠ .mode) (h4 : fd ≠ .banks) (h5
    : fd ≠ .dram) (h6 : fd ≠ .hostMem) : s'.rd fd = s.rd fd := by
  simp only [execRegWrite] at h
  split at h
  · obtain rfl := Host.Outcome.next.inj h; simp [h1, h2, h3, h4, h5, h6]
  obtain rfl | ⟨c, rfl⟩ | ⟨c, rfl⟩ := cmdStart_next h <;>
    first | (simp [h1, h2, h3, h4, h5, h6]; done) | (simp only [State.inRange]; (repeat' split) <;> simp [h1, h2, h3, h4, h5, h6])

theorem execDmaToDram_frame (q : Queue) (id : BitVec 64) (data : HostData) (s : State) (s' : State) (h : execDmaToDram
    q id data s = .next s') (fd : Followed) (h1 : fd ≠ .dram) : s'.rd fd = s.rd fd := by
  simp only [execDmaToDram] at h
  obtain rfl | ⟨c, rfl⟩ | ⟨c, rfl⟩ := cmdStart_next h <;>
    first | (simp [h1]; done) | (simp only [State.inRange]; (repeat' split) <;> simp [h1])

theorem execDmaFromDram_frame (q : Queue) (id : BitVec 64) (ecc : Ecc) (s : State) (s' : State) (h : execDmaFromDram q
    id ecc s = .next s') (fd : Followed) (h1 : fd ≠ .dram) (h2 : fd ≠ .hostMem) : s'.rd fd = s.rd fd := by
  simp only [execDmaFromDram] at h
  obtain rfl | ⟨c, rfl⟩ | ⟨c, rfl⟩ := cmdStart_next h <;>
    first | (simp [h1, h2]; done) | (simp only [State.inRange]; (repeat' split) <;> simp [h1, h2])

theorem execLoadBank_frame (q : Queue) (id : BitVec 64) (data : HostData) (s : State) (s' : State) (h : execLoadBank q
    id data s = .next s') (fd : Followed) (h1 : fd ≠ .banks) : s'.rd fd = s.rd fd := by
  simp only [execLoadBank] at h
  obtain rfl | ⟨c, rfl⟩ | ⟨c, rfl⟩ := cmdStart_next h <;>
    first | (simp [h1]; done) | (simp only [State.inRange]; (repeat' split) <;> simp [h1])

theorem execLoadBlock_frame (q : Queue) (id : BitVec 64) (data : HostData) (s : State) (s' : State) (h : execLoadBlock
    q id data s = .next s') (fd : Followed) (h1 : fd ≠ .dram) : s'.rd fd = s.rd fd := by
  simp only [execLoadBlock] at h
  obtain rfl | ⟨c, rfl⟩ | ⟨c, rfl⟩ := cmdStart_next h <;>
    first | (simp [h1]; done) | (simp only [State.inRange]; (repeat' split) <;> simp [h1])

theorem execActStart_frame (q : Queue) (id : BitVec 64) (s : State) (s' : State) (h : execActStart q id s = .next s')
    (fd : Followed) (h1 : fd ≠ .mode) (h2 : fd ≠ .dram) : s'.rd fd = s.rd fd := by
  simp only [execActStart] at h
  obtain rfl | ⟨c, rfl⟩ | ⟨c, rfl⟩ := cmdStart_next h <;>
    first | (simp [h1, h2]; done) | (simp only [State.inRange]; (repeat' split) <;> simp [h1, h2])

theorem execActStop_frame (q : Queue) (id : BitVec 64) (s : State) (s' : State) (h : execActStop q id s = .next s')
    (fd : Followed) (h1 : fd ≠ .dram) : s'.rd fd = s.rd fd := by
  simp only [execActStop] at h
  obtain rfl | ⟨c, rfl⟩ | ⟨c, rfl⟩ := cmdStart_next h <;>
    first | (simp [h1]; done) | (simp only [State.inRange]; (repeat' split) <;> simp [h1])

theorem execActAbort_frame (q : Queue) (id : BitVec 64) (s : State) (s' : State) (h : execActAbort q id s = .next s')
    (fd : Followed) (h1 : fd ≠ .dram) : s'.rd fd = s.rd fd := by
  simp only [execActAbort] at h
  obtain rfl | ⟨c, rfl⟩ | ⟨c, rfl⟩ := cmdStart_next h <;>
    first | (simp [h1]; done) | (simp only [State.inRange]; (repeat' split) <;> simp [h1])

theorem execActWait_frame (q : Queue) (id : BitVec 64) (s : State) (s' : State) (h : execActWait q id s = .next s')
    (fd : Followed) : s'.rd fd = s.rd fd := by
  simp only [execActWait] at h
  obtain rfl | ⟨c, rfl⟩ | ⟨c, rfl⟩ := cmdStart_next h <;>
    first | (simp; done) | (simp only [State.inRange]; (repeat' split) <;> simp)

theorem execTilePush_frame (q : Queue) (id : BitVec 64) (s : State) (s' : State) (h : execTilePush q id s = .next s')
    (fd : Followed) : s'.rd fd = s.rd fd := by
  simp only [execTilePush] at h
  obtain rfl | ⟨c, rfl⟩ | ⟨c, rfl⟩ := cmdStart_next h <;>
    first | (simp; done) | (simp only [State.inRange]; (repeat' split) <;> simp)

theorem execFinalize_frame (q : Queue) (id : BitVec 64) (s : State) (s' : State) (h : execFinalize q id s = .next s')
    (fd : Followed) (h1 : fd ≠ .dram) : s'.rd fd = s.rd fd := by
  simp only [execFinalize] at h
  obtain rfl | ⟨c, rfl⟩ | ⟨c, rfl⟩ := cmdStart_next h <;>
    first | (simp [h1]; done) | (simp only [State.inRange]; (repeat' split) <;> simp [h1])

theorem execRqClear_frame (q : Queue) (id : BitVec 64) (s : State) (s' : State) (h : execRqClear q id s = .next s')
    (fd : Followed) (h1 : fd ≠ .dram) : s'.rd fd = s.rd fd := by
  simp only [execRqClear] at h
  obtain rfl | ⟨c, rfl⟩ | ⟨c, rfl⟩ := cmdStart_next h <;>
    first | (simp [h1]; done) | (simp only [State.inRange]; (repeat' split) <;> simp [h1])

theorem execModeReq_frame (q : Queue) (id : BitVec 64) (s : State) (s' : State) (h : execModeReq q id s = .next s')
    (fd : Followed) (h1 : fd ≠ .jtag) (h2 : fd ≠ .mode) (h3 : fd ≠ .banks) (h4 : fd ≠ .dram) (h5 : fd ≠ .hostMem) :
    s'.rd fd = s.rd fd := by
  simp only [execModeReq] at h
  obtain rfl | ⟨c, rfl⟩ | ⟨c, rfl⟩ := cmdStart_next h <;>
    first | (simp [h1, h2, h3, h4, h5]; done) | (simp only [State.inRange]; (repeat' split) <;> simp [h1, h2, h3, h4, h5])

theorem execNvmCommand_frame (q : Queue) (id : BitVec 64) (data : HostData) (s : State) (s' : State) (h :
    execNvmCommand q id data s = .next s') (fd : Followed) (h1 : fd ≠ .hostMem) : s'.rd fd = s.rd fd := by
  simp only [execNvmCommand] at h
  obtain rfl | ⟨c, rfl⟩ | ⟨c, rfl⟩ := cmdStart_next h <;>
    first | (simp [h1]; done) | (simp only [State.inRange]; (repeat' split) <;> simp [h1])

theorem execRemoteRead_frame (q : Queue) (id : BitVec 64) (s : State) (s' : State) (h : execRemoteRead q id s = .next
    s') (fd : Followed) (h1 : fd ≠ .dram) : s'.rd fd = s.rd fd := by
  simp only [execRemoteRead] at h
  obtain rfl | ⟨c, rfl⟩ | ⟨c, rfl⟩ := cmdStart_next h <;>
    first | (simp [h1]; done) | (simp only [State.inRange]; (repeat' split) <;> simp [h1])

theorem execRemoteWrite_frame (q : Queue) (id : BitVec 64) (data : HostData) (s : State) (s' : State) (h :
    execRemoteWrite q id data s = .next s') (fd : Followed) (h1 : fd ≠ .dram) : s'.rd fd = s.rd fd := by
  simp only [execRemoteWrite] at h
  obtain rfl | ⟨c, rfl⟩ | ⟨c, rfl⟩ := cmdStart_next h <;>
    first | (simp [h1]; done) | (simp only [State.inRange]; (repeat' split) <;> simp [h1])

theorem execWhistle_frame (q : Queue) (id : BitVec 64) (s : State) (s' : State) (h : execWhistle q id s = .next s')
    (fd : Followed) (h1 : fd ≠ .mode) (h2 : fd ≠ .dram) : s'.rd fd = s.rd fd := by
  simp only [execWhistle] at h
  obtain rfl | ⟨c, rfl⟩ | ⟨c, rfl⟩ := cmdStart_next h <;>
    first | (simp [h1, h2]; done) | (simp only [State.inRange]; (repeat' split) <;> simp [h1, h2])

theorem signedCmd_frame (typ : Nat) (q : Queue) (id : BitVec 64) (data : HostData) (ready : State → Bool) (s : State)
    (s' : State) (h : signedCmd typ q id data ready s = .next s') (fd : Followed) (h1 : fd ≠ .otp) (h2 : fd ≠ .jtag)
    (h3 : fd ≠ .mode) (h4 : fd ≠ .banks) (h5 : fd ≠ .dram) (h6 : fd ≠ .hostMem) : s'.rd fd = s.rd fd := by
  simp only [signedCmd] at h
  obtain rfl | ⟨c, rfl⟩ | ⟨c, rfl⟩ := cmdStart_next h <;>
    first | (simp [h1, h2, h3, h4, h5, h6]; done) | (simp only [State.inRange]; (repeat' split) <;> simp [h1, h2, h3, h4, h5, h6])

theorem execSignedCalCommit_frame (q : Queue) (id : BitVec 64) (data : HostData) (s : State) (s' : State) (h :
    execSignedCalCommit q id data s = .next s') (fd : Followed) (h1 : fd ≠ .otp) (h2 : fd ≠ .jtag) (h3 : fd ≠ .mode)
    (h4 : fd ≠ .banks) (h5 : fd ≠ .dram) (h6 : fd ≠ .hostMem) : s'.rd fd = s.rd fd := by
  exact signedCmd_frame _ _ _ _ _ _ _ h fd h1 h2 h3 h4 h5 h6

theorem execKeyProgram_frame (q : Queue) (id : BitVec 64) (data : HostData) (s : State) (s' : State) (h :
    execKeyProgram q id data s = .next s') (fd : Followed) (h1 : fd ≠ .otp) (h2 : fd ≠ .jtag) (h3 : fd ≠ .mode) (h4 :
    fd ≠ .banks) (h5 : fd ≠ .dram) (h6 : fd ≠ .hostMem) : s'.rd fd = s.rd fd := by
  exact signedCmd_frame _ _ _ _ _ _ _ h fd h1 h2 h3 h4 h5 h6

theorem execKeyRevoke_frame (q : Queue) (id : BitVec 64) (data : HostData) (s : State) (s' : State) (h : execKeyRevoke
    q id data s = .next s') (fd : Followed) (h1 : fd ≠ .otp) (h2 : fd ≠ .jtag) (h3 : fd ≠ .mode) (h4 : fd ≠ .banks)
    (h5 : fd ≠ .dram) (h6 : fd ≠ .hostMem) : s'.rd fd = s.rd fd := by
  exact signedCmd_frame _ _ _ _ _ _ _ h fd h1 h2 h3 h4 h5 h6

theorem execDecKeyProgram_frame (q : Queue) (id : BitVec 64) (data : HostData) (s : State) (s' : State) (h :
    execDecKeyProgram q id data s = .next s') (fd : Followed) (h1 : fd ≠ .otp) (h2 : fd ≠ .jtag) (h3 : fd ≠ .mode) (h4
    : fd ≠ .banks) (h5 : fd ≠ .dram) (h6 : fd ≠ .hostMem) : s'.rd fd = s.rd fd := by
  exact signedCmd_frame _ _ _ _ _ _ _ h fd h1 h2 h3 h4 h5 h6

theorem execReturnAuth_frame (q : Queue) (id : BitVec 64) (data : HostData) (s : State) (s' : State) (h :
    execReturnAuth q id data s = .next s') (fd : Followed) (h1 : fd ≠ .otp) (h2 : fd ≠ .jtag) (h3 : fd ≠ .mode) (h4 :
    fd ≠ .banks) (h5 : fd ≠ .dram) (h6 : fd ≠ .hostMem) : s'.rd fd = s.rd fd := by
  exact signedCmd_frame _ _ _ _ _ _ _ h fd h1 h2 h3 h4 h5 h6

theorem execAdvanceIntegration_frame (s : State) (s' : State) (h : execAdvanceIntegration s = .next s') (fd :
    Followed) (h1 : fd ≠ .otp) (h2 : fd ≠ .jtag) (h3 : fd ≠ .mode) (h4 : fd ≠ .banks) (h5 : fd ≠ .dram) (h6 : fd ≠
    .hostMem) : s'.rd fd = s.rd fd := by
  simp only [execAdvanceIntegration] at h
  (repeat' split at h) <;>
    first
      | contradiction
      | (obtain rfl := Host.Outcome.next.inj h; simp [h1, h2, h3, h4, h5, h6])

theorem execAdvanceField_frame (s : State) (s' : State) (h : execAdvanceField s = .next s') (fd : Followed) (h1 : fd ≠
    .otp) (h2 : fd ≠ .jtag) (h3 : fd ≠ .mode) (h4 : fd ≠ .banks) (h5 : fd ≠ .dram) (h6 : fd ≠ .hostMem) : s'.rd fd =
    s.rd fd := by
  simp only [execAdvanceField] at h
  (repeat' split at h) <;>
    first
      | contradiction
      | (obtain rfl := Host.Outcome.next.inj h; simp [h1, h2, h3, h4, h5, h6])

theorem execDebugLock_frame (s : State) (s' : State) (h : execDebugLock s = .next s') (fd : Followed) (h1 : fd ≠ .otp)
    (h2 : fd ≠ .jtag) (h3 : fd ≠ .mode) (h4 : fd ≠ .banks) (h5 : fd ≠ .dram) (h6 : fd ≠ .hostMem) : s'.rd fd = s.rd fd
    := by
  simp only [execDebugLock] at h
  (repeat' split at h) <;>
    first
      | contradiction
      | (obtain rfl := Host.Outcome.next.inj h; simp [h1, h2, h3, h4, h5, h6])

theorem execJtagInstruction_frame (i : JtagInstr) (s : State) (s' : State) (h : execJtagInstruction i s = .next s')
    (fd : Followed) (h1 : fd ≠ .trims) (h2 : fd ≠ .jtag) : s'.rd fd = s.rd fd := by
  simp only [execJtagInstruction] at h
  (repeat' split at h) <;>
    first
      | contradiction
      | (obtain rfl := Host.Outcome.next.inj h; simp [h1, h2])

end Sys2Proof.Machine
end

