-- ==== Sys2Proof/Laws/FusesKept.lean ====
section
/-! SUPPORT. One-time fuses are only ever blown: `Otp.Gains` through every operation and every command. -/

namespace Sys2Proof.Machine

set_option linter.unusedTactic false
set_option linter.unreachableTactic false
set_option linter.unnecessarySeqFocus false
set_option linter.unusedSimpArgs false

@[simp] theorem Otp.gains_refl (o : Otp) : o.Gains o := by simp [Otp.Gains]

theorem Otp.gains_trans {a b c : Otp} (h : a.Gains b) (k : b.Gains c) : a.Gains c := by
  have and3 : ∀ x y z : BitVec 3, x &&& y = x → y &&& z = y → x &&& z = x := by decide
  have and4 : ∀ x y z : BitVec 4, x &&& y = x → y &&& z = y → x &&& z = x := by
    intro x y z h k; rw [← h, BitVec.and_assoc, k]
  obtain ⟨h1, h2, h3, h4, h5, h6, h7⟩ := h
  obtain ⟨k1, k2, k3, k4, k5, k6, k7⟩ := k
  exact ⟨and3 _ _ _ h1 k1, and3 _ _ _ h2 k2, and3 _ _ _ h3 k3, and4 _ _ _ h4 k4, fun e => k5 (h5 e), h6.trans k6,
    h7.trans k7⟩

theorem groupBlown_mono : ∀ a b : BitVec 3, a &&& b = a → groupBlown a = true → groupBlown b = true := by decide

/-- The life-cycle state follows the fuses: it never goes back (R342). -/
theorem Otp.Gains.state_le {a b : Otp} (h : a.Gains b) : a.state ≤ b.state := by
  obtain ⟨h1, h2, h3, -⟩ := h
  have k1 := groupBlown_mono _ _ h1
  have k2 := groupBlown_mono _ _ h2
  have k3 := groupBlown_mono _ _ h3
  unfold Otp.state
  split_ifs <;> simp_all

@[simp] theorem Otp.blow_gains (o : Otp) (b : Blow) : o.Gains (o.blow b) := by
  have and3 : ∀ x y : BitVec 3, x &&& (x ||| y) = x := by decide
  have and4 : ∀ x y : BitVec 4, x &&& (x ||| y) = x := by decide
  unfold Otp.blow
  split
  · exact Otp.gains_refl o
  · cases b <;> simp [Otp.Gains, Otp.blown, and3, and4]

/-- The fuses of `s` are blown in `t`. -/
abbrev OtpKept (s t : State) : Prop := Otp.Gains (s.rd .otp) (t.rd .otp)

@[simp] theorem State.withOtp_rd (s : State) (v : Otp) : (s.withOtp v).rd .otp = v := rfl

theorem OtpKept.of_eq {s t : State} (h : t.rd .otp = s.rd .otp) : OtpKept s t := by rw [OtpKept, h]; exact Otp.gains_refl _

theorem OtpKept.trans {s t u : State} (h : OtpKept s t) (k : OtpKept t u) : OtpKept s u := Otp.gains_trans h k

theorem State.blowGo_kept (bs : List Blow) (s : State) : OtpKept s (State.blowGo bs s).1 := by
  induction bs generalizing s with
  | nil => exact Otp.gains_refl _
  | cons b bs ih =>
    simp only [State.blowGo]
    split
    · refine OtpKept.trans ?_ (ih _)
      simp only [OtpKept, State.lcRefresh_frame, State.withOtp_rd]
      exact Otp.blow_gains _ _
    · exact Otp.gains_refl _


/-! ## Through the operations -/

theorem Otp.gains_ite (o a b : Otp) (c : Prop) [Decidable c] :
    o.Gains (if c then a else b) ↔ if c then o.Gains a else o.Gains b := by
  split <;> rfl

variable {o : Otp} {s : State}

@[simp] theorem State.errWrite_gains (a : Nat) (k : State → State) (hk : ∀ s, o.Gains (s.rd .otp) → o.Gains ((k s).rd
    .otp)) (hg : o.Gains (s.rd .otp)) : o.Gains ((State.errWrite s a k).rd .otp) := by
  simp only [State.errWrite]
  (repeat' split) <;> first | (exact hg) | (apply hk; simpa using hg) | (simp [hg]; done) | simp_all

@[simp] theorem State.hostWrite_gains (a : Nat) (v : Word) (k : State → State) (hk : ∀ s, o.Gains (s.rd .otp) →
    o.Gains ((k s).rd .otp)) (hg : o.Gains (s.rd .otp)) : o.Gains ((State.hostWrite s a v k).rd .otp) := by
  simp only [State.hostWrite]
  (repeat' split) <;> first | (exact hg) | (apply hk; simpa using hg) | (simp [hg]; done) | simp_all

@[simp] theorem State.lcRun_gains  (hg : o.Gains (s.rd .otp)) : o.Gains ((State.lcRun s).rd .otp) := by
  unfold State.lcRun
  split
  · exact hg
  · split
    · exact hg
    · rename_i j _ _
      have k := Otp.gains_trans hg (State.blowGo_kept j.blows s)
      dsimp only
      (repeat' split) <;> simpa using k

@[simp] theorem State.lcBegin_gains (blows : List Blow) (after : AfterBlow) (src : Option (Prod Nat Nat)) (hg :
    o.Gains (s.rd .otp)) : o.Gains ((State.lcBegin s blows after src).rd .otp) := by
  simp only [State.lcBegin]
  (repeat' split) <;> simp +contextual [hg]

@[simp] theorem State.eraseFinish_gains  (hg : o.Gains (s.rd .otp)) : o.Gains ((State.eraseFinish s).rd .otp) := by
  simp only [State.eraseFinish]
  split
  · simp only [State.put_frame, State.withEraseDue_frame, State.withPersist_frame, State.lcRefresh_frame, State.withOtp_rd, ne_eq,
      reduceCtorEq, not_false_eq_true]
    exact Otp.gains_trans hg (Otp.blow_gains _ _)
  · exact hg

@[simp] theorem State.lcAdvance_gains (req : Nat) (hg : o.Gains (s.rd .otp)) : o.Gains ((State.lcAdvance s req).rd
    .otp) := by
  simp only [State.lcAdvance]
  (repeat' split) <;> simp +contextual [hg]

@[simp] theorem State.writeLcReq_gains (v : Word) (hg : o.Gains (s.rd .otp)) : o.Gains ((State.writeLcReq s v).rd
    .otp) := by
  simp only [State.writeLcReq]
  (repeat' split) <;> simp +contextual [hg]

@[simp] theorem State.lcEffect_gains (b : List Byte) (q : Nat) (id : Nat) (hg : o.Gains (s.rd .otp)) : o.Gains
    ((State.lcEffect s b q id).rd .otp) := by
  simp only [State.lcEffect]
  (repeat' split) <;> simp +contextual [hg]

@[simp] theorem State.signedRequest_gains (b : List Byte) (q : Nat) (id : Nat) (hg : o.Gains (s.rd .otp)) : o.Gains
    ((State.signedRequest s b q id).rd .otp) := by
  simp only [State.signedRequest]
  (repeat' split) <;> simp +contextual [hg]

@[simp] theorem State.writeLow_gains (b : Nat) (a : Nat) (v : Word) (hg : o.Gains (s.rd .otp)) : o.Gains
    ((State.writeLow s b a v).rd .otp) := by
  simp only [State.writeLow]
  (repeat' split) <;> simp +contextual [hg]

@[simp] theorem State.writeReg_gains (b : Nat) (a : Nat) (ix : List Nat) (v : Word) (hg : o.Gains (s.rd .otp)) :
    o.Gains ((State.writeReg s b a ix v).rd .otp) := by
  simp only [State.writeReg]
  (repeat' split) <;> simp +contextual [hg]

@[simp] theorem State.busWrite_gains (src : Src) (a : Nat) (v : Word) (be : BitVec 4) (hg : o.Gains (s.rd .otp)) :
    o.Gains ((State.busWrite s src a v be).rd .otp) := by
  simp only [State.busWrite]
  (repeat' split) <;> simp +contextual [hg]

@[simp] theorem State.busWrites_gains (src : Src) (x1 : Nat) (x2 : List Word) (hg : o.Gains (s.rd .otp)) : o.Gains
    ((State.busWrites src x1 x2 s).rd .otp) := by
  induction x2 generalizing x1 s with
  | nil => simpa [State.busWrites] using hg
  | cons w ws ih => simp only [State.busWrites]; exact ih _ (State.busWrite_gains _ _ _ _ hg)

@[simp] theorem State.receive_gains (p : Port) (h : FrameHdr) (rsp : Bool) (k : State → State) (hk : ∀ s, o.Gains
    (s.rd .otp) → o.Gains ((k s).rd .otp)) (hg : o.Gains (s.rd .otp)) : o.Gains ((State.receive s p h rsp k).rd .otp)
    := by
  simp only [State.receive]
  (repeat' split) <;> first | (exact hg) | (apply hk; simpa using hg) | (simp [hg]; done) | simp_all

@[simp] theorem State.inRange_gains (q : Nat) (id : Nat) (ok : Bool) (k : State → State) (hk : ∀ s, o.Gains (s.rd
    .otp) → o.Gains ((k s).rd .otp)) (hg : o.Gains (s.rd .otp)) : o.Gains ((State.inRange s q id ok k).rd .otp) := by
  simp only [State.inRange]
  (repeat' split) <;> first | (exact hg) | (apply hk; simpa using hg) | (simp [hg]; done) | simp_all

@[simp] theorem State.withData_gains (q : Nat) (id : Nat) (d : HostData) (k : List Byte → State → State) (hk : ∀ b s,
    o.Gains (s.rd .otp) → o.Gains ((k b s).rd .otp)) (hg : o.Gains (s.rd .otp)) : o.Gains ((State.withData s q id d
    k).rd .otp) := by
  simp only [State.withData]
  (repeat' split) <;> first | (exact hg) | (apply hk; simpa using hg) | (simp [hg]; done) | simp_all

@[simp] theorem State.regWord_gains (q : Nat) (id : Nat) (a : Nat) (ws : List Word) (hg : o.Gains (s.rd .otp)) :
    o.Gains ((State.regWord s q id a ws).rd .otp) := by
  simp only [State.regWord]
  (repeat' split) <;> simp +contextual [hg]

@[simp] theorem State.off_otp : s.off.rd .otp = s.rd .otp := rfl

/-! ## Through the commands -/

theorem execSramClear_kept (failmap : BitVec 16) (s' : State) (h : execSramClear failmap s = .next s') : OtpKept s s'
    := by
  simp only [execSramClear] at h
  (repeat' split at h) <;>
    first
      | contradiction
      | (obtain rfl := Host.Outcome.next.inj h; simp +contextual [OtpKept, State.rd_otp, Otp.gains_ite])

theorem execOffEntry_kept  (s' : State) (h : execOffEntry s = .next s') : OtpKept s s' := by
  simp only [execOffEntry] at h
  (repeat' split at h) <;>
    first
      | contradiction
      | (obtain rfl := Host.Outcome.next.inj h; simp +contextual [OtpKept, State.rd_otp, Otp.gains_ite])

theorem execHoldupExhausted_kept  (s' : State) (h : execHoldupExhausted s = .next s') : OtpKept s s' := by
  simp only [execHoldupExhausted] at h
  (repeat' split at h) <;>
    first
      | contradiction
      | (obtain rfl := Host.Outcome.next.inj h; simp +contextual [OtpKept, State.rd_otp, Otp.gains_ite])

theorem execFlashOpComplete_kept (e : FlashEnd) (s' : State) (h : execFlashOpComplete e s = .next s') : OtpKept s s'
    := by
  simp only [execFlashOpComplete] at h
  (repeat' split at h) <;>
    first
      | contradiction
      | (obtain rfl := Host.Outcome.next.inj h; simp +contextual [OtpKept, State.rd_otp, Otp.gains_ite])

theorem execHoldupRetry_kept (hu : BitVec 16) (s' : State) (h : execHoldupRetry hu s = .next s') : OtpKept s s' := by
  simp only [execHoldupRetry] at h
  (repeat' split at h) <;>
    first
      | contradiction
      | (obtain rfl := Host.Outcome.next.inj h; simp +contextual [OtpKept, State.rd_otp, Otp.gains_ite])

theorem execRegisterWrite_kept (src : Src) (a : BitVec 26) (v : Word) (be : BitVec 4) (s' : State) (h :
    execRegisterWrite src a v be s = .next s') : OtpKept s s' := by
  simp only [execRegisterWrite] at h
  (repeat' split at h) <;>
    first
      | contradiction
      | (obtain rfl := Host.Outcome.next.inj h; simp +contextual [OtpKept, State.rd_otp, Otp.gains_ite])

theorem execLnkPortCfgWrite_kept (p : Port) (v : Word) (s' : State) (h : execLnkPortCfgWrite p v s = .next s') :
    OtpKept s s' := by
  simp only [execLnkPortCfgWrite] at h
  (repeat' split at h) <;>
    first
      | contradiction
      | (obtain rfl := Host.Outcome.next.inj h; simp +contextual [OtpKept, State.rd_otp, Otp.gains_ite])

theorem execWrReq_kept (p : Port) (h : FrameHdr) (a : Word) (words : List Word) (s' : State) (h : execWrReq p h a
    words s = .next s') : OtpKept s s' := by
  simp only [execWrReq] at h
  (repeat' split at h) <;>
    first
      | contradiction
      | (obtain rfl := Host.Outcome.next.inj h; simp +contextual [OtpKept, State.rd_otp, Otp.gains_ite])

theorem execShowUnbench_kept (sh : ShowId) (i : Fin 9) (v : Word) (s' : State) (h : execShowUnbench sh i v s = .next
    s') : OtpKept s s' := by
  simp only [execShowUnbench] at h
  (repeat' split at h) <;>
    first
      | contradiction
      | (obtain rfl := Host.Outcome.next.inj h; simp +contextual [OtpKept, State.rd_otp, Otp.gains_ite])

theorem execSendStop_kept (sh : ShowId) (s' : State) (h : execSendStop sh s = .next s') : OtpKept s s' := by
  simp only [execSendStop] at h
  (repeat' split at h) <;>
    first
      | contradiction
      | (obtain rfl := Host.Outcome.next.inj h; simp +contextual [OtpKept, State.rd_otp, Otp.gains_ite])

theorem execSendPark_kept (sh : ShowId) (s' : State) (h : execSendPark sh s = .next s') : OtpKept s s' := by
  simp only [execSendPark] at h
  (repeat' split at h) <;>
    first
      | contradiction
      | (obtain rfl := Host.Outcome.next.inj h; simp +contextual [OtpKept, State.rd_otp, Otp.gains_ite])

theorem execSendAbort_kept (sh : ShowId) (s' : State) (h : execSendAbort sh s = .next s') : OtpKept s s' := by
  simp only [execSendAbort] at h
  (repeat' split at h) <;>
    first
      | contradiction
      | (obtain rfl := Host.Outcome.next.inj h; simp +contextual [OtpKept, State.rd_otp, Otp.gains_ite])

theorem execSendStart_kept (sh : ShowId) (s' : State) (h : execSendStart sh s = .next s') : OtpKept s s' := by
  simp only [execSendStart] at h
  (repeat' split at h) <;>
    first
      | contradiction
      | (obtain rfl := Host.Outcome.next.inj h; simp +contextual [OtpKept, State.rd_otp, Otp.gains_ite])

theorem execSendCue_kept (sh : ShowId) (cue : BitVec 8) (s' : State) (h : execSendCue sh cue s = .next s') : OtpKept s
    s' := by
  simp only [execSendCue] at h
  (repeat' split at h) <;>
    first
      | contradiction
      | (obtain rfl := Host.Outcome.next.inj h; simp +contextual [OtpKept, State.rd_otp, Otp.gains_ite])

theorem execQueueEnable_kept (q : Queue) (v : Word) (s' : State) (h : execQueueEnable q v s = .next s') : OtpKept s s'
    := by
  simp only [execQueueEnable] at h
  (repeat' split at h) <;>
    first
      | contradiction
      | (obtain rfl := Host.Outcome.next.inj h; simp +contextual [OtpKept, State.rd_otp, Otp.gains_ite])

theorem execQueueDisable_kept (q : Queue) (v : Word) (s' : State) (h : execQueueDisable q v s = .next s') : OtpKept s
    s' := by
  simp only [execQueueDisable] at h
  (repeat' split at h) <;>
    first
      | contradiction
      | (obtain rfl := Host.Outcome.next.inj h; simp +contextual [OtpKept, State.rd_otp, Otp.gains_ite])

theorem execSqDoorbell_kept (q : Queue) (v : Word) (s' : State) (h : execSqDoorbell q v s = .next s') : OtpKept s s'
    := by
  simp only [execSqDoorbell] at h
  (repeat' split at h) <;>
    first
      | contradiction
      | (obtain rfl := Host.Outcome.next.inj h; simp +contextual [OtpKept, State.rd_otp, Otp.gains_ite])

theorem execCqHeadWrite_kept (q : Queue) (v : Word) (s' : State) (h : execCqHeadWrite q v s = .next s') : OtpKept s s'
    := by
  simp only [execCqHeadWrite] at h
  (repeat' split at h) <;>
    first
      | contradiction
      | (obtain rfl := Host.Outcome.next.inj h; simp +contextual [OtpKept, State.rd_otp, Otp.gains_ite])

theorem execBdDoorbell_kept  (s' : State) (h : execBdDoorbell s = .next s') : OtpKept s s' := by
  simp only [execBdDoorbell] at h
  (repeat' split at h) <;>
    first
      | contradiction
      | (obtain rfl := Host.Outcome.next.inj h; simp +contextual [OtpKept, State.rd_otp, Otp.gains_ite])

theorem execRegWrite_kept (q : Queue) (id : BitVec 64) (data : HostData) (s' : State) (h : execRegWrite q id data s =
    .next s') : OtpKept s s' := by
  simp only [execRegWrite] at h
  split at h
  · obtain rfl := Host.Outcome.next.inj h; simp [OtpKept]
  obtain rfl | ⟨c, rfl⟩ | ⟨c, rfl⟩ := cmdStart_next h
  · simp [OtpKept]
  · simp [OtpKept]
  · exact State.inRange_gains _ _ _ _
      (fun s hg => State.withData_gains _ _ _ _ (fun b s hg => by simp [hg]) hg) (by simp)

theorem signedCmd_kept (typ : Nat) (q : Queue) (id : BitVec 64) (data : HostData) (ready : State → Bool) (s' : State)
    (h : signedCmd typ q id data ready s = .next s') : OtpKept s s' := by
  simp only [signedCmd] at h
  obtain rfl | ⟨c, rfl⟩ | ⟨c, rfl⟩ := cmdStart_next h <;> simp +contextual [OtpKept, Otp.gains_ite]

theorem execSignedCalCommit_kept (q : Queue) (id : BitVec 64) (data : HostData) (s' : State) (h : execSignedCalCommit
    q id data s = .next s') : OtpKept s s' := by
  exact signedCmd_kept _ _ _ _ _ _ h

theorem execKeyProgram_kept (q : Queue) (id : BitVec 64) (data : HostData) (s' : State) (h : execKeyProgram q id data
    s = .next s') : OtpKept s s' := by
  exact signedCmd_kept _ _ _ _ _ _ h

theorem execKeyRevoke_kept (q : Queue) (id : BitVec 64) (data : HostData) (s' : State) (h : execKeyRevoke q id data s
    = .next s') : OtpKept s s' := by
  exact signedCmd_kept _ _ _ _ _ _ h

theorem execDecKeyProgram_kept (q : Queue) (id : BitVec 64) (data : HostData) (s' : State) (h : execDecKeyProgram q id
    data s = .next s') : OtpKept s s' := by
  exact signedCmd_kept _ _ _ _ _ _ h

theorem execReturnAuth_kept (q : Queue) (id : BitVec 64) (data : HostData) (s' : State) (h : execReturnAuth q id data
    s = .next s') : OtpKept s s' := by
  exact signedCmd_kept _ _ _ _ _ _ h

theorem execAdvanceIntegration_kept  (s' : State) (h : execAdvanceIntegration s = .next s') : OtpKept s s' := by
  simp only [execAdvanceIntegration] at h
  (repeat' split at h) <;>
    first
      | contradiction
      | (obtain rfl := Host.Outcome.next.inj h; simp +contextual [OtpKept, State.rd_otp, Otp.gains_ite])

theorem execAdvanceField_kept  (s' : State) (h : execAdvanceField s = .next s') : OtpKept s s' := by
  simp only [execAdvanceField] at h
  (repeat' split at h) <;>
    first
      | contradiction
      | (obtain rfl := Host.Outcome.next.inj h; simp +contextual [OtpKept, State.rd_otp, Otp.gains_ite])

theorem execDebugLock_kept  (s' : State) (h : execDebugLock s = .next s') : OtpKept s s' := by
  simp only [execDebugLock] at h
  (repeat' split at h) <;>
    first
      | contradiction
      | (obtain rfl := Host.Outcome.next.inj h; simp +contextual [OtpKept, State.rd_otp, Otp.gains_ite])

end Sys2Proof.Machine
end

