-- ==== Sys2Proof/Laws/WfBase.lean ====
section
/-! SUPPORT. Every operation keeps the canonical form of the memories and of the register file (`State.wf`): the shared
operations. -/

namespace Sys2Proof.Machine

set_option linter.unusedTactic false
set_option linter.unreachableTactic false
set_option linter.unnecessarySeqFocus false
set_option linter.unusedSimpArgs false

theorem State.wf_iff (s : State) : s.wf = true ↔
    (((((Memory.wf ramByte s.dram = true ∧ Memory.wf ramByte s.banks = true) ∧ Memory.wf ramByte s.pool = true) ∧
      Memory.wf ramByte s.mailbox = true) ∧ Memory.wf flashByte s.flash = true) ∧ Memory.wf ramByte s.hostMem = true) ∧
      Tab.wf regReset s.regs = true := by
  simp only [State.wf, Bool.and_eq_true]

@[simp] theorem ite_wf (c : Prop) [Decidable c] (a b : State) : (if c then a else b).wf = if c then a.wf else b.wf := by
  split <;> rfl

@[simp] theorem State.withPending_wf (s : State) (v : List Instr) : (s.withPending v).wf = s.wf := by
  have h : (s.withPending v).wf = s.wf := rfl
  exact h

@[simp] theorem State.withPins_wf (s : State) (v : Pins) : (s.withPins v).wf = s.wf := by
  have h : (s.withPins v).wf = s.wf := rfl
  exact h

@[simp] theorem State.withMode_wf (s : State) (v : Mode) : (s.withMode v).wf = s.wf := by
  have h : (s.withMode v).wf = s.wf := rfl
  exact h

@[simp] theorem State.withShed_wf (s : State) (v : Option Shed) : (s.withShed v).wf = s.wf := by
  have h : (s.withShed v).wf = s.wf := rfl
  exact h

@[simp] theorem State.withOtp_wf (s : State) (v : Otp) : (s.withOtp v).wf = s.wf := by
  have h : (s.withOtp v).wf = s.wf := rfl
  exact h

@[simp] theorem State.withTime_wf (s : State) (v : BitVec 64) : (s.withTime v).wf = s.wf := by
  have h : (s.withTime v).wf = s.wf := rfl
  exact h

@[simp] theorem State.withSlew_wf (s : State) (v : Int) : (s.withSlew v).wf = s.wf := by
  have h : (s.withSlew v).wf = s.wf := rfl
  exact h

@[simp] theorem State.withEpoch_wf (s : State) (v : Word) : (s.withEpoch v).wf = s.wf := by
  have h : (s.withEpoch v).wf = s.wf := rfl
  exact h

@[simp] theorem State.withCounting_wf (s : State) (v : Bool) : (s.withCounting v).wf = s.wf := by
  have h : (s.withCounting v).wf = s.wf := rfl
  exact h

@[simp] theorem State.withLatches_wf (s : State) (v : Tab Word) : (s.withLatches v).wf = s.wf := by
  have h : (s.withLatches v).wf = s.wf := rfl
  exact h

@[simp] theorem State.withEvtSeq_wf (s : State) (v : Word) : (s.withEvtSeq v).wf = s.wf := by
  have h : (s.withEvtSeq v).wf = s.wf := rfl
  exact h

@[simp] theorem State.withEvtIrq_wf (s : State) (v : Option Nat) : (s.withEvtIrq v).wf = s.wf := by
  have h : (s.withEvtIrq v).wf = s.wf := rfl
  exact h

@[simp] theorem State.withEvtDefer_wf (s : State) (v : Bool) : (s.withEvtDefer v).wf = s.wf := by
  have h : (s.withEvtDefer v).wf = s.wf := rfl
  exact h

@[simp] theorem State.withMsix_wf (s : State) (v : Tab Nat) : (s.withMsix v).wf = s.wf := by
  have h : (s.withMsix v).wf = s.wf := rfl
  exact h

@[simp] theorem State.withD3hot_wf (s : State) (v : Bool) : (s.withD3hot v).wf = s.wf := by
  have h : (s.withD3hot v).wf = s.wf := rfl
  exact h

@[simp] theorem State.withTorn_wf (s : State) (v : Tab (Option Byte)) : (s.withTorn v).wf = s.wf := by
  have h : (s.withTorn v).wf = s.wf := rfl
  exact h

@[simp] theorem State.withSensors_wf (s : State) (v : Tab Sensor) : (s.withSensors v).wf = s.wf := by
  have h : (s.withSensors v).wf = s.wf := rfl
  exact h

@[simp] theorem State.withAlertArmed_wf (s : State) (v : Bool) : (s.withAlertArmed v).wf = s.wf := by
  have h : (s.withAlertArmed v).wf = s.wf := rfl
  exact h

@[simp] theorem State.withWarnArmed_wf (s : State) (v : Bool) : (s.withWarnArmed v).wf = s.wf := by
  have h : (s.withWarnArmed v).wf = s.wf := rfl
  exact h

@[simp] theorem State.withPersist_wf (s : State) (v : Persist) : (s.withPersist v).wf = s.wf := by
  have h : (s.withPersist v).wf = s.wf := rfl
  exact h

@[simp] theorem State.withNvm_wf (s : State) (v : Option NvmJob) : (s.withNvm v).wf = s.wf := by
  have h : (s.withNvm v).wf = s.wf := rfl
  exact h

@[simp] theorem State.withUnit_wf (s : State) (v : Option FlashUnit) : (s.withUnit v).wf = s.wf := by
  have h : (s.withUnit v).wf = s.wf := rfl
  exact h

@[simp] theorem State.withLc_wf (s : State) (v : Option LcJob) : (s.withLc v).wf = s.wf := by
  have h : (s.withLc v).wf = s.wf := rfl
  exact h

@[simp] theorem State.withEraseDue_wf (s : State) (v : Bool) : (s.withEraseDue v).wf = s.wf := by
  have h : (s.withEraseDue v).wf = s.wf := rfl
  exact h

@[simp] theorem State.withSlotTried_wf (s : State) (v : Option Nat) : (s.withSlotTried v).wf = s.wf := by
  have h : (s.withSlotTried v).wf = s.wf := rfl
  exact h

@[simp] theorem State.withBooted_wf (s : State) (v : Option Nat) : (s.withBooted v).wf = s.wf := by
  have h : (s.withBooted v).wf = s.wf := rfl
  exact h

@[simp] theorem State.withBodyHash_wf (s : State) (v : BitVec 64) : (s.withBodyHash v).wf = s.wf := by
  have h : (s.withBodyHash v).wf = s.wf := rfl
  exact h

@[simp] theorem State.withHkOff_wf (s : State) (v : Nat) : (s.withHkOff v).wf = s.wf := by
  have h : (s.withHkOff v).wf = s.wf := rfl
  exact h

@[simp] theorem State.withHkLen_wf (s : State) (v : Nat) : (s.withHkLen v).wf = s.wf := by
  have h : (s.withHkLen v).wf = s.wf := rfl
  exact h

@[simp] theorem State.withHkEntry_wf (s : State) (v : Nat) : (s.withHkEntry v).wf = s.wf := by
  have h : (s.withHkEntry v).wf = s.wf := rfl
  exact h

@[simp] theorem State.withSync_wf (s : State) (v : SyncSt) : (s.withSync v).wf = s.wf := by
  have h : (s.withSync v).wf = s.wf := rfl
  exact h

@[simp] theorem State.withActs_wf (s : State) (v : Tab ActSt) : (s.withActs v).wf = s.wf := by
  have h : (s.withActs v).wf = s.wf := rfl
  exact h

@[simp] theorem State.withDies_wf (s : State) (v : Tab DieSt) : (s.withDies v).wf = s.wf := by
  have h : (s.withDies v).wf = s.wf := rfl
  exact h

@[simp] theorem State.withChans_wf (s : State) (v : Tab ChanSt) : (s.withChans v).wf = s.wf := by
  have h : (s.withChans v).wf = s.wf := rfl
  exact h

@[simp] theorem State.withRings_wf (s : State) (v : Tab RingSt) : (s.withRings v).wf = s.wf := by
  have h : (s.withRings v).wf = s.wf := rfl
  exact h

@[simp] theorem State.withLogBuf_wf (s : State) (v : Nat) : (s.withLogBuf v).wf = s.wf := by
  have h : (s.withLogBuf v).wf = s.wf := rfl
  exact h

@[simp] theorem State.withLogTime_wf (s : State) (v : Nat) : (s.withLogTime v).wf = s.wf := by
  have h : (s.withLogTime v).wf = s.wf := rfl
  exact h

@[simp] theorem State.withRq_wf (s : State) (v : RqSt) : (s.withRq v).wf = s.wf := by
  have h : (s.withRq v).wf = s.wf := rfl
  exact h

@[simp] theorem State.withTdcs_wf (s : State) (v : Tab TdcSt) : (s.withTdcs v).wf = s.wf := by
  have h : (s.withTdcs v).wf = s.wf := rfl
  exact h

@[simp] theorem State.withUnits_wf (s : State) (v : Tab TdcUnit) : (s.withUnits v).wf = s.wf := by
  have h : (s.withUnits v).wf = s.wf := rfl
  exact h

@[simp] theorem State.withTrigs_wf (s : State) (v : Tab TrigSt) : (s.withTrigs v).wf = s.wf := by
  have h : (s.withTrigs v).wf = s.wf := rfl
  exact h

@[simp] theorem State.withStreams_wf (s : State) (v : Tab StreamSt) : (s.withStreams v).wf = s.wf := by
  have h : (s.withStreams v).wf = s.wf := rfl
  exact h

@[simp] theorem State.withCal_wf (s : State) (v : CalSt) : (s.withCal v).wf = s.wf := by
  have h : (s.withCal v).wf = s.wf := rfl
  exact h

@[simp] theorem State.withPorts_wf (s : State) (v : Tab PortSt) : (s.withPorts v).wf = s.wf := by
  have h : (s.withPorts v).wf = s.wf := rfl
  exact h

@[simp] theorem State.withWhistles_wf (s : State) (v : WhistleSt) : (s.withWhistles v).wf = s.wf := by
  have h : (s.withWhistles v).wf = s.wf := rfl
  exact h

@[simp] theorem State.withShows_wf (s : State) (v : Tab ShowSt) : (s.withShows v).wf = s.wf := by
  have h : (s.withShows v).wf = s.wf := rfl
  exact h

@[simp] theorem State.withDevs_wf (s : State) (v : Tab DevSt) : (s.withDevs v).wf = s.wf := by
  have h : (s.withDevs v).wf = s.wf := rfl
  exact h

@[simp] theorem State.withQueues_wf (s : State) (v : Tab QueueSt) : (s.withQueues v).wf = s.wf := by
  have h : (s.withQueues v).wf = s.wf := rfl
  exact h

@[simp] theorem State.withEccTime_wf (s : State) (v : Option Nat) : (s.withEccTime v).wf = s.wf := by
  have h : (s.withEccTime v).wf = s.wf := rfl
  exact h

@[simp] theorem State.withJtag_wf (s : State) (v : Nat) : (s.withJtag v).wf = s.wf := by
  have h : (s.withJtag v).wf = s.wf := rfl
  exact h

@[simp] theorem State.withTrims_wf (s : State) (v : Tab Word) : (s.withTrims v).wf = s.wf := by
  have h : (s.withTrims v).wf = s.wf := rfl
  exact h

@[simp] theorem State.withPatrol_wf (s : State) (v : Nat) : (s.withPatrol v).wf = s.wf := by
  have h : (s.withPatrol v).wf = s.wf := rfl
  exact h

@[simp] theorem State.withAer_wf (s : State) (v : BitVec 4) : (s.withAer v).wf = s.wf := by
  have h : (s.withAer v).wf = s.wf := rfl
  exact h

@[simp] theorem State.withEp_wf (s : State) (v : Option (Nat × Nat)) : (s.withEp v).wf = s.wf := by
  have h : (s.withEp v).wf = s.wf := rfl
  exact h

@[simp] theorem State.withBlanks_wf (s : State) (v : Tab Nat) : (s.withBlanks v).wf = s.wf := by
  have h : (s.withBlanks v).wf = s.wf := rfl
  exact h

@[simp] theorem State.withReply_wf (s : State) (v : Option Reply) : (s.withReply v).wf = s.wf := by
  have h : (s.withReply v).wf = s.wf := rfl
  exact h

@[simp] theorem State.withFreeCtr_wf (s : State) (v : Nat) : (s.withFreeCtr v).wf = s.wf := by
  have h : (s.withFreeCtr v).wf = s.wf := rfl
  exact h

@[simp] theorem State.withDram_wf (s : State) (v : List Host.Cell) (hv : Memory.wf ramByte v = true) (hs : s.wf = true) :
    (s.withDram v).wf = true := by
  rw [State.wf_iff] at hs ⊢
  simp_all

@[simp] theorem State.wf_dram (s : State) (hs : s.wf = true) : Memory.wf ramByte s.dram = true := by
  rw [State.wf_iff] at hs
  exact hs.1.1.1.1.1.1

@[simp] theorem State.withBanks_wf (s : State) (v : List Host.Cell) (hv : Memory.wf ramByte v = true) (hs : s.wf = true) :
    (s.withBanks v).wf = true := by
  rw [State.wf_iff] at hs ⊢
  simp_all

@[simp] theorem State.wf_banks (s : State) (hs : s.wf = true) : Memory.wf ramByte s.banks = true := by
  rw [State.wf_iff] at hs
  exact hs.1.1.1.1.1.2

@[simp] theorem State.withPool_wf (s : State) (v : List Host.Cell) (hv : Memory.wf ramByte v = true) (hs : s.wf = true) :
    (s.withPool v).wf = true := by
  rw [State.wf_iff] at hs ⊢
  simp_all

@[simp] theorem State.wf_pool (s : State) (hs : s.wf = true) : Memory.wf ramByte s.pool = true := by
  rw [State.wf_iff] at hs
  exact hs.1.1.1.1.2

@[simp] theorem State.withMailbox_wf (s : State) (v : List Host.Cell) (hv : Memory.wf ramByte v = true) (hs : s.wf = true) :
    (s.withMailbox v).wf = true := by
  rw [State.wf_iff] at hs ⊢
  simp_all

@[simp] theorem State.wf_mailbox (s : State) (hs : s.wf = true) : Memory.wf ramByte s.mailbox = true := by
  rw [State.wf_iff] at hs
  exact hs.1.1.1.2

@[simp] theorem State.withFlash_wf (s : State) (v : List Host.Cell) (hv : Memory.wf flashByte v = true) (hs : s.wf = true) :
    (s.withFlash v).wf = true := by
  rw [State.wf_iff] at hs ⊢
  simp_all

@[simp] theorem State.wf_flash (s : State) (hs : s.wf = true) : Memory.wf flashByte s.flash = true := by
  rw [State.wf_iff] at hs
  exact hs.1.1.2

@[simp] theorem State.withHostMem_wf (s : State) (v : List Host.Cell) (hv : Memory.wf ramByte v = true) (hs : s.wf = true) :
    (s.withHostMem v).wf = true := by
  rw [State.wf_iff] at hs ⊢
  simp_all

@[simp] theorem State.wf_hostMem (s : State) (hs : s.wf = true) : Memory.wf ramByte s.hostMem = true := by
  rw [State.wf_iff] at hs
  exact hs.1.2

@[simp] theorem State.withRegs_wf (s : State) (v : Tab Word) (hv : Tab.wf regReset v = true) (hs : s.wf = true) :
    (s.withRegs v).wf = true := by
  rw [State.wf_iff] at hs ⊢
  simp_all

theorem State.wf_regs (s : State) (hs : s.wf = true) : Tab.wf regReset s.regs = true := by
  rw [State.wf_iff] at hs
  exact hs.2

@[simp] theorem Memory.wf_nil (d : Nat → Byte) : Memory.wf d [] = true := by
  simp only [Memory.wf, Tab.wf]

@[simp] theorem Memory.wf_splice (d : Nat → Byte) (m : List Host.Cell) (a : Nat) (bs : List Byte)
    (h : Memory.wf d m = true) : Memory.wf d (Tab.splice d m a bs) = true := Tab.wf_splice _ _ _ h

@[simp] theorem Memory.wf_clearRange (d : Nat → Byte) (m : List Host.Cell) (a n : Nat) (h : Memory.wf d m = true) :
    Memory.wf d (Tab.clearRange m a n) = true := Tab.wf_clearRange _ _ _ h

@[simp] theorem State.setReg_wf (s : State) (a : Nat) (w : Word) (hs : s.wf = true) : (s.setReg a w).wf = true :=
  State.withRegs_wf s _ (Tab.wf_set _ _ _ (State.wf_regs s hs)) hs

theorem State.each_keeps {P : State → Prop} (f : Nat → State → State) (h : ∀ n s, P s → P (f n s)) (l : List Nat)
    (s : State) (hs : P s) : P (State.each f l s) := by
  induction l generalizing s with
  | nil => exact hs
  | cons x l ih => exact ih _ (h _ _ hs)

@[simp] theorem State.each_wf (f : Nat → State → State) (h : ∀ n s, s.wf = true → (f n s).wf = true) (l : List Nat)
    (s : State) (hs : s.wf = true) : (State.each f l s).wf = true :=
  State.each_keeps (P := fun s => s.wf = true) f h l s hs

@[simp] theorem foldl_wf {α : Type} (f : State → α → State) (h : ∀ s x, s.wf = true → (f s x).wf = true) (l : List α)
    (s : State) (hs : s.wf = true) : (l.foldl f s).wf = true := by
  induction l generalizing s with
  | nil => exact hs
  | cons x l ih => exact ih _ (h _ _ hs)

@[simp] theorem State.put_wf (s : State) (f : Field) (v : Nat) (hs : s.wf = true) : (State.put s f v).wf = true := by
  first | (simp (maxDischargeDepth := 40) +contextual [hs, State.put]; done) | (simp only [State.put]; (repeat' split) <;> simp (maxDischargeDepth := 40) +contextual [hs])

@[simp] theorem State.putB_wf (s : State) (f : Field) (b : Bool) (hs : s.wf = true) : (State.putB s f b).wf = true :=
    by
  first | (simp (maxDischargeDepth := 40) +contextual [hs, State.putB]; done) | (simp only [State.putB]; (repeat' split) <;> simp (maxDischargeDepth := 40) +contextual [hs])

@[simp] theorem State.bump_wf (s : State) (f : Field) (hs : s.wf = true) : (State.bump s f).wf = true := by
  first | (simp (maxDischargeDepth := 40) +contextual [hs, State.bump]; done) | (simp only [State.bump]; (repeat' split) <;> simp (maxDischargeDepth := 40) +contextual [hs])

@[simp] theorem State.setPair_wf (s : State) (lo : Nat) (v : Nat) (hs : s.wf = true) : (State.setPair s lo v).wf =
    true := by
  first | (simp (maxDischargeDepth := 40) +contextual [hs, State.setPair]; done) | (simp only [State.setPair]; (repeat' split) <;> simp (maxDischargeDepth := 40) +contextual [hs])

@[simp] theorem State.setAct_wf (s : State) (n : Nat) (x : ActSt) (hs : s.wf = true) : (State.setAct s n x).wf = true
    := by
  first | (simp (maxDischargeDepth := 40) +contextual [hs, State.setAct]; done) | (simp only [State.setAct]; (repeat' split) <;> simp (maxDischargeDepth := 40) +contextual [hs])

@[simp] theorem State.setDie_wf (s : State) (n : Nat) (x : DieSt) (hs : s.wf = true) : (State.setDie s n x).wf = true
    := by
  first | (simp (maxDischargeDepth := 40) +contextual [hs, State.setDie]; done) | (simp only [State.setDie]; (repeat' split) <;> simp (maxDischargeDepth := 40) +contextual [hs])

@[simp] theorem State.setChan_wf (s : State) (n : Nat) (x : ChanSt) (hs : s.wf = true) : (State.setChan s n x).wf =
    true := by
  first | (simp (maxDischargeDepth := 40) +contextual [hs, State.setChan]; done) | (simp only [State.setChan]; (repeat' split) <;> simp (maxDischargeDepth := 40) +contextual [hs])

@[simp] theorem State.setRing_wf (s : State) (n : Nat) (x : RingSt) (hs : s.wf = true) : (State.setRing s n x).wf =
    true := by
  first | (simp (maxDischargeDepth := 40) +contextual [hs, State.setRing]; done) | (simp only [State.setRing]; (repeat' split) <;> simp (maxDischargeDepth := 40) +contextual [hs])

@[simp] theorem State.setPort_wf (s : State) (n : Nat) (x : PortSt) (hs : s.wf = true) : (State.setPort s n x).wf =
    true := by
  first | (simp (maxDischargeDepth := 40) +contextual [hs, State.setPort]; done) | (simp only [State.setPort]; (repeat' split) <;> simp (maxDischargeDepth := 40) +contextual [hs])

@[simp] theorem State.setShow_wf (s : State) (n : Nat) (x : ShowSt) (hs : s.wf = true) : (State.setShow s n x).wf =
    true := by
  first | (simp (maxDischargeDepth := 40) +contextual [hs, State.setShow]; done) | (simp only [State.setShow]; (repeat' split) <;> simp (maxDischargeDepth := 40) +contextual [hs])

@[simp] theorem State.setDev_wf (s : State) (n : Nat) (x : DevSt) (hs : s.wf = true) : (State.setDev s n x).wf = true
    := by
  first | (simp (maxDischargeDepth := 40) +contextual [hs, State.setDev]; done) | (simp only [State.setDev]; (repeat' split) <;> simp (maxDischargeDepth := 40) +contextual [hs])

@[simp] theorem State.setQueue_wf (s : State) (n : Nat) (x : QueueSt) (hs : s.wf = true) : (State.setQueue s n x).wf =
    true := by
  first | (simp (maxDischargeDepth := 40) +contextual [hs, State.setQueue]; done) | (simp only [State.setQueue]; (repeat' split) <;> simp (maxDischargeDepth := 40) +contextual [hs])

@[simp] theorem State.setSensor_wf (s : State) (n : Nat) (x : Sensor) (hs : s.wf = true) : (State.setSensor s n x).wf
    = true := by
  first | (simp (maxDischargeDepth := 40) +contextual [hs, State.setSensor]; done) | (simp only [State.setSensor]; (repeat' split) <;> simp (maxDischargeDepth := 40) +contextual [hs])

@[simp] theorem State.setTdc_wf (s : State) (n : Nat) (x : TdcSt) (hs : s.wf = true) : (State.setTdc s n x).wf = true
    := by
  first | (simp (maxDischargeDepth := 40) +contextual [hs, State.setTdc]; done) | (simp only [State.setTdc]; (repeat' split) <;> simp (maxDischargeDepth := 40) +contextual [hs])

@[simp] theorem State.setMu_wf (s : State) (n : Nat) (x : TdcUnit) (hs : s.wf = true) : (State.setMu s n x).wf = true
    := by
  first | (simp (maxDischargeDepth := 40) +contextual [hs, State.setMu]; done) | (simp only [State.setMu]; (repeat' split) <;> simp (maxDischargeDepth := 40) +contextual [hs])

@[simp] theorem State.setTrig_wf (s : State) (n : Nat) (x : TrigSt) (hs : s.wf = true) : (State.setTrig s n x).wf =
    true := by
  first | (simp (maxDischargeDepth := 40) +contextual [hs, State.setTrig]; done) | (simp only [State.setTrig]; (repeat' split) <;> simp (maxDischargeDepth := 40) +contextual [hs])

@[simp] theorem State.setStream_wf (s : State) (n : Nat) (x : StreamSt) (hs : s.wf = true) : (State.setStream s n
    x).wf = true := by
  first | (simp (maxDischargeDepth := 40) +contextual [hs, State.setStream]; done) | (simp only [State.setStream]; (repeat' split) <;> simp (maxDischargeDepth := 40) +contextual [hs])

@[simp] theorem State.takeFree_wf (s : State) (hs : s.wf = true) : (State.takeFree s).wf = true := by
  first | (simp (maxDischargeDepth := 40) +contextual [hs, State.takeFree]; done) | (simp only [State.takeFree]; (repeat' split) <;> simp (maxDischargeDepth := 40) +contextual [hs])

@[simp] theorem State.at__wf (s : State) (t : Nat) (hs : s.wf = true) : (State.at_ s t).wf = true := by
  first | (simp (maxDischargeDepth := 40) +contextual [hs, State.at_]; done) | (simp only [State.at_]; (repeat' split) <;> simp (maxDischargeDepth := 40) +contextual [hs])

@[simp] theorem State.dramPut_wf (s : State) (a : Nat) (bs : List Byte) (hs : s.wf = true) : (State.dramPut s a bs).wf
    = true := by
  first | (simp (maxDischargeDepth := 40) +contextual [hs, State.dramPut]; done) | (simp only [State.dramPut]; (repeat' split) <;> simp (maxDischargeDepth := 40) +contextual [hs])

@[simp] theorem State.bankPut_wf (s : State) (a : Nat) (bs : List Byte) (hs : s.wf = true) : (State.bankPut s a bs).wf
    = true := by
  first | (simp (maxDischargeDepth := 40) +contextual [hs, State.bankPut]; done) | (simp only [State.bankPut]; (repeat' split) <;> simp (maxDischargeDepth := 40) +contextual [hs])

@[simp] theorem State.poolPut_wf (s : State) (a : Nat) (bs : List Byte) (hs : s.wf = true) : (State.poolPut s a bs).wf
    = true := by
  first | (simp (maxDischargeDepth := 40) +contextual [hs, State.poolPut]; done) | (simp only [State.poolPut]; (repeat' split) <;> simp (maxDischargeDepth := 40) +contextual [hs])

@[simp] theorem State.mboxPut_wf (s : State) (a : Nat) (bs : List Byte) (hs : s.wf = true) : (State.mboxPut s a bs).wf
    = true := by
  first | (simp (maxDischargeDepth := 40) +contextual [hs, State.mboxPut]; done) | (simp only [State.mboxPut]; (repeat' split) <;> simp (maxDischargeDepth := 40) +contextual [hs])

@[simp] theorem State.hostPut_wf (s : State) (a : Nat) (bs : List Byte) (hs : s.wf = true) : (State.hostPut s a bs).wf
    = true := by
  first | (simp (maxDischargeDepth := 40) +contextual [hs, State.hostPut]; done) | (simp only [State.hostPut]; (repeat' split) <;> simp (maxDischargeDepth := 40) +contextual [hs])

@[simp] theorem State.hostPutEp_wf (s : State) (a : Nat) (bs : List Byte) (bad : Bool) (hs : s.wf = true) :
    (State.hostPutEp s a bs bad).wf = true := by
  first | (simp (maxDischargeDepth := 40) +contextual [hs, State.hostPutEp]; done) | (simp only [State.hostPutEp]; (repeat' split) <;> simp (maxDischargeDepth := 40) +contextual [hs])

@[simp] theorem State.raiseVec_wf (s : State) (v : Nat) (hs : s.wf = true) : (State.raiseVec s v).wf = true := by
  first | (simp (maxDischargeDepth := 40) +contextual [hs, State.raiseVec]; done) | (simp only [State.raiseVec]; (repeat' split) <;> simp (maxDischargeDepth := 40) +contextual [hs])

@[simp] theorem State.sysIrq_wf (s : State) (bit : Nat) (hs : s.wf = true) : (State.sysIrq s bit).wf = true := by
  first | (simp (maxDischargeDepth := 40) +contextual [hs, State.sysIrq]; done) | (simp only [State.sysIrq]; (repeat' split) <;> simp (maxDischargeDepth := 40) +contextual [hs])

@[simp] theorem State.bdIrq_wf (s : State) (bit : Nat) (hs : s.wf = true) : (State.bdIrq s bit).wf = true := by
  first | (simp (maxDischargeDepth := 40) +contextual [hs, State.bdIrq]; done) | (simp only [State.bdIrq]; (repeat' split) <;> simp (maxDischargeDepth := 40) +contextual [hs])

@[simp] theorem State.sendFrame_wf (s : State) (p : Nat) (f : Frame) (hs : s.wf = true) : (State.sendFrame s p f).wf =
    true := by
  first | (simp (maxDischargeDepth := 40) +contextual [hs, State.sendFrame]; done) | (simp only [State.sendFrame]; (repeat' split) <;> simp (maxDischargeDepth := 40) +contextual [hs])

@[simp] theorem State.flushFrames_wf (p : Nat) (x1 : Nat) (x2 : State) (hs : x2.wf = true) : (State.flushFrames p x1
    x2).wf = true := by
  fun_induction State.flushFrames p x1 x2 <;> simp_all (maxDischargeDepth := 40) +zetaDelta

@[simp] theorem State.journalIrq_wf (s : State) (hs : s.wf = true) : (State.journalIrq s).wf = true := by
  first | (simp (maxDischargeDepth := 40) +contextual [hs, State.journalIrq]; done) | (simp only [State.journalIrq]; (repeat' split) <;> simp (maxDischargeDepth := 40) +contextual [hs])

@[simp] theorem State.journalDram_wf (s : State) (w : Nat) (r : EvtRec) (hs : s.wf = true) : (State.journalDram s w
    r).wf = true := by
  first | (simp (maxDischargeDepth := 40) +contextual [hs, State.journalDram]; done) | (simp only [State.journalDram]; (repeat' split) <;> simp (maxDischargeDepth := 40) +contextual [hs])

@[simp] theorem State.journal_wf (s : State) (r : EvtRec) (hs : s.wf = true) : (State.journal s r).wf = true := by
  first | (simp (maxDischargeDepth := 40) +contextual [hs, State.journal]; done) | (simp only [State.journal]; (repeat' split) <;> simp (maxDischargeDepth := 40) +contextual [hs])

@[simp] theorem State.persistEvt_wf (s : State) (r : EvtRec) (hs : s.wf = true) : (State.persistEvt s r).wf = true :=
    by
  first | (simp (maxDischargeDepth := 40) +contextual [hs, State.persistEvt]; done) | (simp only [State.persistEvt]; (repeat' split) <;> simp (maxDischargeDepth := 40) +contextual [hs])

@[simp] theorem State.eventAt_wf (s : State) (t : Nat) (src : Nat) (code : Nat) (p4 : optParam Nat 0) (p5 : optParam
    Nat 0) (p6 : optParam Nat 0) (p7 : optParam Nat 0) (hs : s.wf = true) : (State.eventAt s t src code p4 p5 p6
    p7).wf = true := by
  first | (simp (maxDischargeDepth := 40) +contextual [hs, State.eventAt]; done) | (simp only [State.eventAt]; (repeat' split) <;> simp (maxDischargeDepth := 40) +contextual [hs])

@[simp] theorem State.event_wf (s : State) (src : Nat) (code : Nat) (p4 : optParam Nat 0) (p5 : optParam Nat 0) (p6 :
    optParam Nat 0) (p7 : optParam Nat 0) (hs : s.wf = true) : (State.event s src code p4 p5 p6 p7).wf = true := by
  first | (simp (maxDischargeDepth := 40) +contextual [hs, State.event]; done) | (simp only [State.event]; (repeat' split) <;> simp (maxDischargeDepth := 40) +contextual [hs])

@[simp] theorem State.setMode_wf (s : State) (m : Mode) (hs : s.wf = true) : (State.setMode s m).wf = true := by
  first | (simp (maxDischargeDepth := 40) +contextual [hs, State.setMode]; done) | (simp only [State.setMode]; (repeat' split) <;> simp (maxDischargeDepth := 40) +contextual [hs])

@[simp] theorem State.eccCe_wf (s : State) (dram : Bool) (hs : s.wf = true) : (State.eccCe s dram).wf = true := by
  first | (simp (maxDischargeDepth := 40) +contextual [hs, State.eccCe]; done) | (simp only [State.eccCe]; (repeat' split) <;> simp (maxDischargeDepth := 40) +contextual [hs])

@[simp] theorem State.eccUe_wf (s : State) (id : Nat) (addr : Nat) (hs : s.wf = true) : (State.eccUe s id addr).wf =
    true := by
  first | (simp (maxDischargeDepth := 40) +contextual [hs, State.eccUe]; done) | (simp only [State.eccUe]; (repeat' split) <;> simp (maxDischargeDepth := 40) +contextual [hs])

@[simp] theorem State.sramEcc_wf (s : State) (id : Nat) (a : Nat) (n : Nat) (ecc : Ecc) (hs : s.wf = true) :
    (State.sramEcc s id a n ecc).wf = true := by
  first | (simp (maxDischargeDepth := 40) +contextual [hs, State.sramEcc]; done) | (simp only [State.sramEcc]; (repeat' split) <;> simp (maxDischargeDepth := 40) +contextual [hs])

@[simp] theorem State.dramEcc_wf (s : State) (a : Nat) (n : Nat) (ecc : Ecc) (hs : s.wf = true) : (State.dramEcc s a n
    ecc).wf = true := by
  first | (simp (maxDischargeDepth := 40) +contextual [hs, State.dramEcc]; done) | (simp only [State.dramEcc]; (repeat' split) <;> simp (maxDischargeDepth := 40) +contextual [hs])

@[simp] theorem State.finish_wf (s : State) (q : Nat) (id : Nat) (status : Nat) (result : Nat) (hs : s.wf = true) :
    (State.finish s q id status result).wf = true := by
  first | (simp (maxDischargeDepth := 40) +contextual [hs, State.finish]; done) | (simp only [State.finish]; (repeat' split) <;> simp (maxDischargeDepth := 40) +contextual [hs])

@[simp] theorem State.endWaiting_wf (s : State) (q : Nat) (c : HostCmd) (r : List HostCmd) (status : Nat) (hs : s.wf =
    true) : (State.endWaiting s q c r status).wf = true := by
  first | (simp (maxDischargeDepth := 40) +contextual [hs, State.endWaiting]; done) | (simp only [State.endWaiting]; (repeat' split) <;> simp (maxDischargeDepth := 40) +contextual [hs])

@[simp] theorem State.abortCmds_wf (s : State) (sel : HostCmd → Bool) (hs : s.wf = true) : (State.abortCmds s sel).wf
    = true := by
  first | (simp (maxDischargeDepth := 40) +contextual [hs, State.abortCmds]; done) | (simp only [State.abortCmds]; (repeat' split) <;> simp (maxDischargeDepth := 40) +contextual [hs])

@[simp] theorem State.abortStarts_wf (s : State) (n : Nat) (hs : s.wf = true) : (State.abortStarts s n).wf = true :=
    by
  first | (simp (maxDischargeDepth := 40) +contextual [hs, State.abortStarts]; done) | (simp only [State.abortStarts]; (repeat' split) <;> simp (maxDischargeDepth := 40) +contextual [hs])

@[simp] theorem State.pinEvent_wf (s : State) (c : Nat) (code : Nat) (w4 : Nat) (hs : s.wf = true) : (State.pinEvent s
    c code w4).wf = true := by
  first | (simp (maxDischargeDepth := 40) +contextual [hs, State.pinEvent]; done) | (simp only [State.pinEvent]; (repeat' split) <;> simp (maxDischargeDepth := 40) +contextual [hs])

@[simp] theorem State.mixRegs_wf (s : State) (t : State) (m : Nat → Nat) (hs : s.wf = true) : (State.mixRegs s t m).wf
    = true := by
  first | (simp (maxDischargeDepth := 40) +contextual [hs, State.mixRegs]; done) | (simp only [State.mixRegs]; (repeat' split) <;> simp (maxDischargeDepth := 40) +contextual [hs])

@[simp] theorem State.mixDram_wf (s : State) (t : State) (own : Nat → Bool) (hs : s.wf = true) : (State.mixDram s t
    own).wf = true := by
  first | (simp (maxDischargeDepth := 40) +contextual [hs, State.mixDram]; done) | (simp only [State.mixDram]; (repeat' split) <;> simp (maxDischargeDepth := 40) +contextual [hs])

@[simp] theorem State.mixBanks_wf (s : State) (t : State) (own : Nat → Bool) (hs : s.wf = true) : (State.mixBanks s t
    own).wf = true := by
  first | (simp (maxDischargeDepth := 40) +contextual [hs, State.mixBanks]; done) | (simp only [State.mixBanks]; (repeat' split) <;> simp (maxDischargeDepth := 40) +contextual [hs])

@[simp] theorem State.freeArea_wf (s : State) (x : Prod Nat Nat) (hs : s.wf = true) : (State.freeArea s x).wf = true
    := by
  first | (simp (maxDischargeDepth := 40) +contextual [hs, State.freeArea]; done) | (simp only [State.freeArea]; (repeat' split) <;> simp (maxDischargeDepth := 40) +contextual [hs])

@[simp] theorem State.disturbAct_wf (n : Nat) (s : State) (hs : s.wf = true) : (State.disturbAct n s).wf = true := by
  first | (simp (maxDischargeDepth := 40) +contextual [hs, State.disturbAct]; done) | (simp only [State.disturbAct]; (repeat' split) <;> simp (maxDischargeDepth := 40) +contextual [hs])

@[simp] theorem State.disturbChan_wf (c : Nat) (s : State) (hs : s.wf = true) : (State.disturbChan c s).wf = true :=
    by
  first | (simp (maxDischargeDepth := 40) +contextual [hs, State.disturbChan]; done) | (simp only [State.disturbChan]; (repeat' split) <;> simp (maxDischargeDepth := 40) +contextual [hs])

@[simp] theorem State.disturbRing_wf (g : Nat) (s : State) (hs : s.wf = true) : (State.disturbRing g s).wf = true :=
    by
  first | (simp (maxDischargeDepth := 40) +contextual [hs, State.disturbRing]; done) | (simp only [State.disturbRing]; (repeat' split) <;> simp (maxDischargeDepth := 40) +contextual [hs])

@[simp] theorem State.disturbTrig_wf (k : Nat) (s : State) (hs : s.wf = true) : (State.disturbTrig k s).wf = true :=
    by
  first | (simp (maxDischargeDepth := 40) +contextual [hs, State.disturbTrig]; done) | (simp only [State.disturbTrig]; (repeat' split) <;> simp (maxDischargeDepth := 40) +contextual [hs])

@[simp] theorem State.disturbStream_wf (i : Nat) (s : State) (hs : s.wf = true) : (State.disturbStream i s).wf = true
    := by
  first | (simp (maxDischargeDepth := 40) +contextual [hs, State.disturbStream]; done) | (simp only [State.disturbStream]; (repeat' split) <;> simp (maxDischargeDepth := 40) +contextual [hs])

@[simp] theorem State.disturbQueue_wf (q : Nat) (s : State) (hs : s.wf = true) : (State.disturbQueue q s).wf = true :=
    by
  first | (simp (maxDischargeDepth := 40) +contextual [hs, State.disturbQueue]; done) | (simp only [State.disturbQueue]; (repeat' split) <;> simp (maxDischargeDepth := 40) +contextual [hs])

@[simp] theorem State.disturbShow_wf (sh : Nat) (s : State) (hs : s.wf = true) : (State.disturbShow sh s).wf = true :=
    by
  first | (simp (maxDischargeDepth := 40) +contextual [hs, State.disturbShow]; done) | (simp only [State.disturbShow]; (repeat' split) <;> simp (maxDischargeDepth := 40) +contextual [hs])

@[simp] theorem State.disturbQueues_wf (g : Nat) (s : State) (hs : s.wf = true) : (State.disturbQueues g s).wf = true
    := by
  first | (simp (maxDischargeDepth := 40) +contextual [hs, State.disturbQueues]; done) | (simp only [State.disturbQueues]; (repeat' split) <;> simp (maxDischargeDepth := 40) +contextual [hs])

@[simp] theorem State.disturbAt_wf (s : State) (a : Nat) (hs : s.wf = true) : (State.disturbAt s a).wf = true := by
  first | (simp (maxDischargeDepth := 40) +contextual [hs, State.disturbAt]; done) | (simp only [State.disturbAt]; (repeat' split) <;> simp (maxDischargeDepth := 40) +contextual [hs])

@[simp] theorem State.errWrite_wf (s : State) (a : Nat) (k : State → State) (hk : ∀ x, x.wf = true → (k x).wf = true)
    (hs : s.wf = true) : (State.errWrite s a k).wf = true := by
  first | (simp (maxDischargeDepth := 40) +contextual [hs, hk, State.errWrite]; done) | (simp only [State.errWrite]; (repeat' split) <;> simp (maxDischargeDepth := 40) +contextual [hs, hk])

@[simp] theorem State.freeField_wf (s : State) (f : Field) (hs : s.wf = true) : (State.freeField s f).wf = true := by
  first | (simp (maxDischargeDepth := 40) +contextual [hs, State.freeField]; done) | (simp only [State.freeField]; (repeat' split) <;> simp (maxDischargeDepth := 40) +contextual [hs])

@[simp] theorem State.tdcSwitched_wf (s : State) (c : Nat) (hs : s.wf = true) : (State.tdcSwitched s c).wf = true :=
    by
  first | (simp (maxDischargeDepth := 40) +contextual [hs, State.tdcSwitched]; done) | (simp only [State.tdcSwitched]; (repeat' split) <;> simp (maxDischargeDepth := 40) +contextual [hs])

@[simp] theorem State.switchBank_wf (c : Nat) (s : State) (hs : s.wf = true) : (State.switchBank c s).wf = true := by
  first | (simp (maxDischargeDepth := 40) +contextual [hs, State.switchBank]; done) | (simp only [State.switchBank]; (repeat' split) <;> simp (maxDischargeDepth := 40) +contextual [hs])

@[simp] theorem State.switchBanks_wf (s : State) (cs : List Nat) (hs : s.wf = true) : (State.switchBanks s cs).wf =
    true := by
  first | (simp (maxDischargeDepth := 40) +contextual [hs, State.switchBanks]; done) | (simp only [State.switchBanks]; (repeat' split) <;> simp (maxDischargeDepth := 40) +contextual [hs])

@[simp] theorem State.switchAll_wf (s : State) (hs : s.wf = true) : (State.switchAll s).wf = true := by
  first | (simp (maxDischargeDepth := 40) +contextual [hs, State.switchAll]; done) | (simp only [State.switchAll]; (repeat' split) <;> simp (maxDischargeDepth := 40) +contextual [hs])

@[simp] theorem State.showEnd_wf (s : State) (sh : Nat) (hs : s.wf = true) : (State.showEnd s sh).wf = true := by
  first | (simp (maxDischargeDepth := 40) +contextual [hs, State.showEnd]; done) | (simp only [State.showEnd]; (repeat' split) <;> simp (maxDischargeDepth := 40) +contextual [hs])

@[simp] theorem State.showEnds_wf (s : State) (n : Nat) (hs : s.wf = true) : (State.showEnds s n).wf = true := by
  first | (simp (maxDischargeDepth := 40) +contextual [hs, State.showEnds]; done) | (simp only [State.showEnds]; (repeat' split) <;> simp (maxDischargeDepth := 40) +contextual [hs])

@[simp] theorem State.cutPpmu_wf (c : Nat) (s : State) (hs : s.wf = true) : (State.cutPpmu c s).wf = true := by
  first | (simp (maxDischargeDepth := 40) +contextual [hs, State.cutPpmu]; done) | (simp only [State.cutPpmu]; (repeat' split) <;> simp (maxDischargeDepth := 40) +contextual [hs])

@[simp] theorem State.cutPpmus_wf (s : State) (hs : s.wf = true) : (State.cutPpmus s).wf = true := by
  first | (simp (maxDischargeDepth := 40) +contextual [hs, State.cutPpmus]; done) | (simp only [State.cutPpmus]; (repeat' split) <;> simp (maxDischargeDepth := 40) +contextual [hs])

@[simp] theorem State.dropPpmu_wf (c : Nat) (s : State) (hs : s.wf = true) : (State.dropPpmu c s).wf = true := by
  first | (simp (maxDischargeDepth := 40) +contextual [hs, State.dropPpmu]; done) | (simp only [State.dropPpmu]; (repeat' split) <;> simp (maxDischargeDepth := 40) +contextual [hs])

@[simp] theorem State.parkPpmus_wf (s : State) (cs : List Nat) (hs : s.wf = true) : (State.parkPpmus s cs).wf = true
    := by
  first | (simp (maxDischargeDepth := 40) +contextual [hs, State.parkPpmus]; done) | (simp only [State.parkPpmus]; (repeat' split) <;> simp (maxDischargeDepth := 40) +contextual [hs])

@[simp] theorem State.seqEvent_wf (s : State) (n : Nat) (code : Nat) (p4 : optParam Nat 0) (p5 : optParam Nat 0) (p6 :
    optParam Nat 0) (p7 : optParam Nat 0) (hs : s.wf = true) : (State.seqEvent s n code p4 p5 p6 p7).wf = true := by
  first | (simp (maxDischargeDepth := 40) +contextual [hs, State.seqEvent]; done) | (simp only [State.seqEvent]; (repeat' split) <;> simp (maxDischargeDepth := 40) +contextual [hs])

@[simp] theorem State.showReport_wf (s : State) (n : Nat) (hs : s.wf = true) : (State.showReport s n).wf = true := by
  first | (simp (maxDischargeDepth := 40) +contextual [hs, State.showReport]; done) | (simp only [State.showReport]; (repeat' split) <;> simp (maxDischargeDepth := 40) +contextual [hs])

@[simp] theorem State.setActState_wf (s : State) (n : Nat) (st : Nat) (hs : s.wf = true) : (State.setActState s n
    st).wf = true := by
  first | (simp (maxDischargeDepth := 40) +contextual [hs, State.setActState]; done) | (simp only [State.setActState]; (repeat' split) <;> simp (maxDischargeDepth := 40) +contextual [hs])

@[simp] theorem State.missStart_wf (s : State) (n : Nat) (hs : s.wf = true) : (State.missStart s n).wf = true := by
  first | (simp (maxDischargeDepth := 40) +contextual [hs, State.missStart]; done) | (simp only [State.missStart]; (repeat' split) <;> simp (maxDischargeDepth := 40) +contextual [hs])

@[simp] theorem State.dropQueued_wf (s : State) (n : Nat) (hs : s.wf = true) : (State.dropQueued s n).wf = true := by
  first | (simp (maxDischargeDepth := 40) +contextual [hs, State.dropQueued]; done) | (simp only [State.dropQueued]; (repeat' split) <;> simp (maxDischargeDepth := 40) +contextual [hs])

@[simp] theorem State.holdHyst_wf (c : Nat) (s : State) (hs : s.wf = true) : (State.holdHyst c s).wf = true := by
  first | (simp (maxDischargeDepth := 40) +contextual [hs, State.holdHyst]; done) | (simp only [State.holdHyst]; (repeat' split) <;> simp (maxDischargeDepth := 40) +contextual [hs])

@[simp] theorem State.acceptStart_wf (s : State) (n : Nat) (r : StartReq) (hs : s.wf = true) : (State.acceptStart s n
    r).wf = true := by
  first | (simp (maxDischargeDepth := 40) +contextual [hs, State.acceptStart]; done) | (simp only [State.acceptStart]; (repeat' split) <;> simp (maxDischargeDepth := 40) +contextual [hs])

@[simp] theorem State.markLate_wf (s : State) (n : Nat) (hs : s.wf = true) : (State.markLate s n).wf = true := by
  first | (simp (maxDischargeDepth := 40) +contextual [hs, State.markLate]; done) | (simp only [State.markLate]; (repeat' split) <;> simp (maxDischargeDepth := 40) +contextual [hs])

@[simp] theorem State.acceptQueued_wf (s : State) (n : Nat) (hs : s.wf = true) : (State.acceptQueued s n).wf = true :=
    by
  first | (simp (maxDischargeDepth := 40) +contextual [hs, State.acceptQueued]; done) | (simp only [State.acceptQueued]; (repeat' split) <;> simp (maxDischargeDepth := 40) +contextual [hs])

@[simp] theorem State.tilePush_wf (s : State) (g : Nat) (final : Bool) (hs : s.wf = true) : (State.tilePush s g
    final).wf = true := by
  first | (simp (maxDischargeDepth := 40) +contextual [hs, State.tilePush]; done) | (simp only [State.tilePush]; (repeat' split) <;> simp (maxDischargeDepth := 40) +contextual [hs])

@[simp] theorem State.finalPushes_wf (s : State) (n : Nat) (hs : s.wf = true) : (State.finalPushes s n).wf = true :=
    by
  first | (simp (maxDischargeDepth := 40) +contextual [hs, State.finalPushes]; done) | (simp only [State.finalPushes]; (repeat' split) <;> simp (maxDischargeDepth := 40) +contextual [hs])

@[simp] theorem State.neverRan_wf (s : State) (n : Nat) (hs : s.wf = true) : (State.neverRan s n).wf = true := by
  first | (simp (maxDischargeDepth := 40) +contextual [hs, State.neverRan]; done) | (simp only [State.neverRan]; (repeat' split) <;> simp (maxDischargeDepth := 40) +contextual [hs])

@[simp] theorem State.stopEarly_wf (s : State) (n : Nat) (reason : Nat) (hs : s.wf = true) : (State.stopEarly s n
    reason).wf = true := by
  first | (simp (maxDischargeDepth := 40) +contextual [hs, State.stopEarly]; done) | (simp only [State.stopEarly]; (repeat' split) <;> simp (maxDischargeDepth := 40) +contextual [hs])

@[simp] theorem State.fixStop_wf (s : State) (n : Nat) (cnt : Nat) (reason : Nat) (hs : s.wf = true) : (State.fixStop
    s n cnt reason).wf = true := by
  first | (simp (maxDischargeDepth := 40) +contextual [hs, State.fixStop]; done) | (simp only [State.fixStop]; (repeat' split) <;> simp (maxDischargeDepth := 40) +contextual [hs])

@[simp] theorem State.gracefulStop_wf (reason : Nat) (n : Nat) (s : State) (hs : s.wf = true) : (State.gracefulStop
    reason n s).wf = true := by
  first | (simp (maxDischargeDepth := 40) +contextual [hs, State.gracefulStop]; done) | (simp only [State.gracefulStop]; (repeat' split) <;> simp (maxDischargeDepth := 40) +contextual [hs])

@[simp] theorem State.failStop_wf (n : Nat) (F : Nat) (reason : Nat) (s : State) (hs : s.wf = true) : (State.failStop
    n F reason s).wf = true := by
  first | (simp (maxDischargeDepth := 40) +contextual [hs, State.failStop]; done) | (simp only [State.failStop]; (repeat' split) <;> simp (maxDischargeDepth := 40) +contextual [hs])

@[simp] theorem State.abortAct_wf (reason : Nat) (n : Nat) (s : State) (hs : s.wf = true) : (State.abortAct reason n
    s).wf = true := by
  first | (simp (maxDischargeDepth := 40) +contextual [hs, State.abortAct]; done) | (simp only [State.abortAct]; (repeat' split) <;> simp (maxDischargeDepth := 40) +contextual [hs])

@[simp] theorem State.abortAll_wf (s : State) (reason : Nat) (hs : s.wf = true) : (State.abortAll s reason).wf = true
    := by
  first | (simp (maxDischargeDepth := 40) +contextual [hs, State.abortAll]; done) | (simp only [State.abortAll]; (repeat' split) <;> simp (maxDischargeDepth := 40) +contextual [hs])

@[simp] theorem State.refuseStart_wf (s : State) (n : Nat) (code : Nat) (hs : s.wf = true) : (State.refuseStart s n
    code).wf = true := by
  first | (simp (maxDischargeDepth := 40) +contextual [hs, State.refuseStart]; done) | (simp only [State.refuseStart]; (repeat' split) <;> simp (maxDischargeDepth := 40) +contextual [hs])

@[simp] theorem State.lateStart_wf (s : State) (n : Nat) (hs : s.wf = true) : (State.lateStart s n).wf = true := by
  first | (simp (maxDischargeDepth := 40) +contextual [hs, State.lateStart]; done) | (simp only [State.lateStart]; (repeat' split) <;> simp (maxDischargeDepth := 40) +contextual [hs])

@[simp] theorem State.release_wf (s : State) (n : Nat) (t : Option Nat) (hs : s.wf = true) : (State.release s n t).wf
    = true := by
  first | (simp (maxDischargeDepth := 40) +contextual [hs, State.release]; done) | (simp only [State.release]; (repeat' split) <;> simp (maxDischargeDepth := 40) +contextual [hs])

@[simp] theorem State.startAct_wf (r : StartReq) (n : Nat) (s : State) (hs : s.wf = true) : (State.startAct r n s).wf
    = true := by
  first | (simp (maxDischargeDepth := 40) +contextual [hs, State.startAct]; done) | (simp only [State.startAct]; (repeat' split) <;> simp (maxDischargeDepth := 40) +contextual [hs])

@[simp] theorem State.blankStart_wf (m : Nat) (t : Nat) (s : State) (hs : s.wf = true) : (State.blankStart m t s).wf =
    true := by
  first | (simp (maxDischargeDepth := 40) +contextual [hs, State.blankStart]; done) | (simp only [State.blankStart]; (repeat' split) <;> simp (maxDischargeDepth := 40) +contextual [hs])

@[simp] theorem State.srefChanged_wf (s : State) (m : Nat) (hs : s.wf = true) : (State.srefChanged s m).wf = true :=
    by
  first | (simp (maxDischargeDepth := 40) +contextual [hs, State.srefChanged]; done) | (simp only [State.srefChanged]; (repeat' split) <;> simp (maxDischargeDepth := 40) +contextual [hs])

@[simp] theorem State.srefClear_wf (source : Nat) (m : Nat) (s : State) (hs : s.wf = true) : (State.srefClear source m
    s).wf = true := by
  first | (simp (maxDischargeDepth := 40) +contextual [hs, State.srefClear]; done) | (simp only [State.srefClear]; (repeat' split) <;> simp (maxDischargeDepth := 40) +contextual [hs])

@[simp] theorem State.srefClearAll_wf (s : State) (hs : s.wf = true) : (State.srefClearAll s).wf = true := by
  first | (simp (maxDischargeDepth := 40) +contextual [hs, State.srefClearAll]; done) | (simp only [State.srefClearAll]; (repeat' split) <;> simp (maxDischargeDepth := 40) +contextual [hs])

@[simp] theorem State.whistleOn_wf (s : State) (w : Whistle) (ps : List Nat) (hs : s.wf = true) : (State.whistleOn s w
    ps).wf = true := by
  first | (simp (maxDischargeDepth := 40) +contextual [hs, State.whistleOn]; done) | (simp only [State.whistleOn]; (repeat' split) <;> simp (maxDischargeDepth := 40) +contextual [hs])

@[simp] theorem State.whistleSend_wf (s : State) (w : Whistle) (hs : s.wf = true) : (State.whistleSend s w).wf = true
    := by
  first | (simp (maxDischargeDepth := 40) +contextual [hs, State.whistleSend]; done) | (simp only [State.whistleSend]; (repeat' split) <;> simp (maxDischargeDepth := 40) +contextual [hs])

@[simp] theorem State.whistleCalled_wf (s : State) (w : Whistle) (hs : s.wf = true) : (State.whistleCalled s w).wf =
    true := by
  first | (simp (maxDischargeDepth := 40) +contextual [hs, State.whistleCalled]; done) | (simp only [State.whistleCalled]; (repeat' split) <;> simp (maxDischargeDepth := 40) +contextual [hs])

@[simp] theorem State.keepCue_wf (cue : Nat) (t : Nat) (n : Nat) (s : State) (hs : s.wf = true) : (State.keepCue cue t
    n s).wf = true := by
  first | (simp (maxDischargeDepth := 40) +contextual [hs, State.keepCue]; done) | (simp only [State.keepCue]; (repeat' split) <;> simp (maxDischargeDepth := 40) +contextual [hs])

@[simp] theorem State.whistleStart_wf (sh : Nat) (t : Nat) (n : Nat) (s : State) (hs : s.wf = true) :
    (State.whistleStart sh t n s).wf = true := by
  first | (simp (maxDischargeDepth := 40) +contextual [hs, State.whistleStart]; done) | (simp only [State.whistleStart]; (repeat' split) <;> simp (maxDischargeDepth := 40) +contextual [hs])

@[simp] theorem State.deliverTo_wf (s : State) (kind : Nat) (sh : Nat) (t : Nat) (cue : Nat) (ns : List Nat) (hs :
    s.wf = true) : (State.deliverTo s kind sh t cue ns).wf = true := by
  first | (simp (maxDischargeDepth := 40) +contextual [hs, State.deliverTo]; done) | (simp only [State.deliverTo]; (repeat' split) <;> simp (maxDischargeDepth := 40) +contextual [hs])

@[simp] theorem State.deliver_wf (s : State) (kind : Nat) (sh : Nat) (t : Nat) (cue : Nat) (hs : s.wf = true) :
    (State.deliver s kind sh t cue).wf = true := by
  first | (simp (maxDischargeDepth := 40) +contextual [hs, State.deliver]; done) | (simp only [State.deliver]; (repeat' split) <;> simp (maxDischargeDepth := 40) +contextual [hs])

@[simp] theorem State.store_wf (s : State) (a : Nat) (v : Word) (hs : s.wf = true) : (State.store s a v).wf = true :=
    by
  first | (simp (maxDischargeDepth := 40) +contextual [hs, State.store]; done) | (simp only [State.store]; (repeat' split) <;> simp (maxDischargeDepth := 40) +contextual [hs])

@[simp] theorem State.hostWrite_wf (s : State) (a : Nat) (v : Word) (k : State → State) (hk : ∀ x, x.wf = true → (k
    x).wf = true) (hs : s.wf = true) : (State.hostWrite s a v k).wf = true := by
  first | (simp (maxDischargeDepth := 40) +contextual [hs, hk, State.hostWrite]; done) | (simp only [State.hostWrite]; (repeat' split) <;> simp (maxDischargeDepth := 40) +contextual [hs, hk])

@[simp] theorem State.writeCompl_wf (s : State) (q : Nat) (o : Compl) (hs : s.wf = true) : (State.writeCompl s q o).wf
    = true := by
  first | (simp (maxDischargeDepth := 40) +contextual [hs, State.writeCompl]; done) | (simp only [State.writeCompl]; (repeat' split) <;> simp (maxDischargeDepth := 40) +contextual [hs])

@[simp] theorem State.complNext_wf (s : State) (q : Nat) (hs : s.wf = true) : (State.complNext s q).wf = true := by
  first | (simp (maxDischargeDepth := 40) +contextual [hs, State.complNext]; done) | (simp only [State.complNext]; (repeat' split) <;> simp (maxDischargeDepth := 40) +contextual [hs])

@[simp] theorem State.actWaitDone_wf (s : State) (q : Nat) (hs : s.wf = true) : (State.actWaitDone s q).wf = true :=
    by
  first | (simp (maxDischargeDepth := 40) +contextual [hs, State.actWaitDone]; done) | (simp only [State.actWaitDone]; (repeat' split) <;> simp (maxDischargeDepth := 40) +contextual [hs])

@[simp] theorem State.actStartDone_wf (s : State) (q : Nat) (hs : s.wf = true) : (State.actStartDone s q).wf = true :=
    by
  first | (simp (maxDischargeDepth := 40) +contextual [hs, State.actStartDone]; done) | (simp only [State.actStartDone]; (repeat' split) <;> simp (maxDischargeDepth := 40) +contextual [hs])

@[simp] theorem State.startHead_wf (s : State) (q : Nat) (hs : s.wf = true) : (State.startHead s q).wf = true := by
  first | (simp (maxDischargeDepth := 40) +contextual [hs, State.startHead]; done) | (simp only [State.startHead]; (repeat' split) <;> simp (maxDischargeDepth := 40) +contextual [hs])

@[simp] theorem State.apgStep_wf (s : State) (n : Nat) (w : Nat) (hs : s.wf = true) : (State.apgStep s n w).wf = true
    := by
  first | (simp (maxDischargeDepth := 40) +contextual [hs, State.apgStep]; done) | (simp only [State.apgStep]; (repeat' split) <;> simp (maxDischargeDepth := 40) +contextual [hs])

@[simp] theorem State.rmop_wf (s : State) (n : Nat) (op : Nat) (hs : s.wf = true) : (State.rmop s n op).wf = true :=
    by
  first | (simp (maxDischargeDepth := 40) +contextual [hs, State.rmop]; done) | (simp only [State.rmop]; (repeat' split) <;> simp (maxDischargeDepth := 40) +contextual [hs])

@[simp] theorem State.issueVec_wf (s : State) (n : Nat) (w : Nat) (blk : Nat) (trial : Option Nat) (hs : s.wf = true)
    : (State.issueVec s n w blk trial).wf = true := by
  first | (simp (maxDischargeDepth := 40) +contextual [hs, State.issueVec]; done) | (simp only [State.issueVec]; (repeat' split) <;> simp (maxDischargeDepth := 40) +contextual [hs])

@[simp] theorem State.faultStop_wf (s : State) (n : Nat) (reason : Nat) (hs : s.wf = true) : (State.faultStop s n
    reason).wf = true := by
  first | (simp (maxDischargeDepth := 40) +contextual [hs, State.faultStop]; done) | (simp only [State.faultStop]; (repeat' split) <;> simp (maxDischargeDepth := 40) +contextual [hs])

@[simp] theorem State.goto_wf (s : State) (n : Nat) (pc : Nat) (hs : s.wf = true) : (State.goto s n pc).wf = true :=
    by
  first | (simp (maxDischargeDepth := 40) +contextual [hs, State.goto]; done) | (simp only [State.goto]; (repeat' split) <;> simp (maxDischargeDepth := 40) +contextual [hs])

theorem State.pfStep_wf (s t : State) (n : Nat) (hs : s.wf = true) (h : s.pfStep n = some t) : t.wf = true := by
  simp only [State.pfStep] at h
  (repeat' split at h) <;> first | contradiction | (injection h with h; subst h; simp [hs])


@[simp] theorem State.pfRun_wf (n : Nat) (x1 : Nat) (x2 : State) (hs : x2.wf = true) : (State.pfRun n x1 x2).wf = true
    := by
  induction x1 generalizing x2 with
  | zero => exact hs
  | succ k ih =>
    simp only [State.pfRun]
    split
    · exact hs
    · rename_i t h
      exact ih t (State.pfStep_wf _ t n hs h)

@[simp] theorem State.pfResume_wf (s : State) (n : Nat) (hs : s.wf = true) : (State.pfResume s n).wf = true := by
  first | (simp (maxDischargeDepth := 40) +contextual [hs, State.pfResume]; done) | (simp only [State.pfResume]; (repeat' split) <;> simp (maxDischargeDepth := 40) +contextual [hs])

@[simp] theorem State.condDone_wf (s : State) (n : Nat) (hs : s.wf = true) : (State.condDone s n).wf = true := by
  first | (simp (maxDischargeDepth := 40) +contextual [hs, State.condDone]; done) | (simp only [State.condDone]; (repeat' split) <;> simp (maxDischargeDepth := 40) +contextual [hs])

@[simp] theorem State.issue_wf (s : State) (n : Nat) (w : Nat) (blk : Nat) (trial : Option Nat) (hs : s.wf = true) :
    (State.issue s n w blk trial).wf = true := by
  first | (simp (maxDischargeDepth := 40) +contextual [hs, State.issue]; done) | (simp only [State.issue]; (repeat' split) <;> simp (maxDischargeDepth := 40) +contextual [hs])

@[simp] theorem State.oneVector_wf (s : State) (n : Nat) (w : Nat) (hs : s.wf = true) : (State.oneVector s n w).wf =
    true := by
  first | (simp (maxDischargeDepth := 40) +contextual [hs, State.oneVector]; done) | (simp only [State.oneVector]; (repeat' split) <;> simp (maxDischargeDepth := 40) +contextual [hs])

@[simp] theorem State.repeatGo_wf (n : Nat) (w : Nat) (x1 : Nat) (x2 : State) (hs : x2.wf = true) : (State.repeatGo n
    w x1 x2).wf = true := by
  fun_induction State.repeatGo n w x1 x2 <;> simp_all (maxDischargeDepth := 40) +zetaDelta

@[simp] theorem State.branchTo_wf (s : State) (n : Nat) (w : Nat) (hs : s.wf = true) : (State.branchTo s n w).wf =
    true := by
  first | (simp (maxDischargeDepth := 40) +contextual [hs, State.branchTo]; done) | (simp only [State.branchTo]; (repeat' split) <;> simp (maxDischargeDepth := 40) +contextual [hs])

@[simp] theorem State.endMicro_wf (s : State) (n : Nat) (w : Nat) (hs : s.wf = true) : (State.endMicro s n w).wf =
    true := by
  first | (simp (maxDischargeDepth := 40) +contextual [hs, State.endMicro]; done) | (simp only [State.endMicro]; (repeat' split) <;> simp (maxDischargeDepth := 40) +contextual [hs])

@[simp] theorem State.matchGo_wf (n : Nat) (w : Nat) (x1 : Nat) (x2 : State) (hs : x2.wf = true) : (State.matchGo n w
    x1 x2).wf = true := by
  fun_induction State.matchGo n w x1 x2 <;> simp_all (maxDischargeDepth := 40) +zetaDelta

@[simp] theorem State.benchSet_wf (s : State) (n : Nat) (rings : BitVec 64) (hs : s.wf = true) : (State.benchSet s n
    rings).wf = true := by
  first | (simp (maxDischargeDepth := 40) +contextual [hs, State.benchSet]; done) | (simp only [State.benchSet]; (repeat' split) <;> simp (maxDischargeDepth := 40) +contextual [hs])

@[simp] theorem State.benchRings_wf (s : State) (n : Nat) (rings : BitVec 64) (F : Nat) (hs : s.wf = true) :
    (State.benchRings s n rings F).wf = true := by
  first | (simp (maxDischargeDepth := 40) +contextual [hs, State.benchRings]; done) | (simp only [State.benchRings]; (repeat' split) <;> simp (maxDischargeDepth := 40) +contextual [hs])

@[simp] theorem State.matchGiveUp_wf (s : State) (n : Nat) (left : BitVec 64) (last : Nat) (bench : Bool) (hs : s.wf =
    true) : (State.matchGiveUp s n left last bench).wf = true := by
  first | (simp (maxDischargeDepth := 40) +contextual [hs, State.matchGiveUp]; done) | (simp only [State.matchGiveUp]; (repeat' split) <;> simp (maxDischargeDepth := 40) +contextual [hs])

@[simp] theorem State.waitLate_wf (s : State) (n : Nat) (w : Nat) (hs : s.wf = true) : (State.waitLate s n w).wf =
    true := by
  first | (simp (maxDischargeDepth := 40) +contextual [hs, State.waitLate]; done) | (simp only [State.waitLate]; (repeat' split) <;> simp (maxDischargeDepth := 40) +contextual [hs])

@[simp] theorem State.waitTimeGo_wf (n : Nat) (w : Nat) (x1 : Nat) (x2 : State) (hs : x2.wf = true) :
    (State.waitTimeGo n w x1 x2).wf = true := by
  fun_induction State.waitTimeGo n w x1 x2 <;> simp_all (maxDischargeDepth := 40) +zetaDelta

@[simp] theorem State.takeCue_wf (s : State) (n : Nat) (w : Nat) (t : Nat) (first : Nat) (hs : s.wf = true) :
    (State.takeCue s n w t first).wf = true := by
  first | (simp (maxDischargeDepth := 40) +contextual [hs, State.takeCue]; done) | (simp only [State.takeCue]; (repeat' split) <;> simp (maxDischargeDepth := 40) +contextual [hs])

@[simp] theorem State.waitCueGo_wf (n : Nat) (w : Nat) (x1 : Nat) (x2 : State) (hs : x2.wf = true) : (State.waitCueGo
    n w x1 x2).wf = true := by
  fun_induction State.waitCueGo n w x1 x2 <;> simp_all (maxDischargeDepth := 40) +zetaDelta

@[simp] theorem State.pfArrived_wf (s : State) (n : Nat) (i : Nat) (hs : s.wf = true) : (State.pfArrived s n i).wf =
    true := by
  first | (simp (maxDischargeDepth := 40) +contextual [hs, State.pfArrived]; done) | (simp only [State.pfArrived]; (repeat' split) <;> simp (maxDischargeDepth := 40) +contextual [hs])

@[simp] theorem State.blockGo_wf (n : Nat) (w : Nat) (rec : Nat) (bad : Option Nat) (nvec : Nat) (x1 : Nat) (x2 :
    State) (hs : x2.wf = true) : (State.blockGo n w rec bad nvec x1 x2).wf = true := by
  fun_induction State.blockGo n w rec bad nvec x1 x2 <;> simp_all (maxDischargeDepth := 40) +zetaDelta

@[simp] theorem State.countPin_wf (s : State) (c : Nat) (hs : s.wf = true) : (State.countPin s c).wf = true := by
  first | (simp (maxDischargeDepth := 40) +contextual [hs, State.countPin]; done) | (simp only [State.countPin]; (repeat' split) <;> simp (maxDischargeDepth := 40) +contextual [hs])

@[simp] theorem State.firstFail_wf (s : State) (g : Nat) (v : Vec) (fs : List FailCmp) (hs : s.wf = true) :
    (State.firstFail s g v fs).wf = true := by
  first | (simp (maxDischargeDepth := 40) +contextual [hs, State.firstFail]; done) | (simp only [State.firstFail]; (repeat' split) <;> simp (maxDischargeDepth := 40) +contextual [hs])

@[simp] theorem State.benchByFail_wf (s : State) (n : Nat) (g : Nat) (F : Nat) (hs : s.wf = true) : (State.benchByFail
    s n g F).wf = true := by
  first | (simp (maxDischargeDepth := 40) +contextual [hs, State.benchByFail]; done) | (simp only [State.benchByFail]; (repeat' split) <;> simp (maxDischargeDepth := 40) +contextual [hs])

@[simp] theorem State.ringWhistle_wf (s : State) (n : Nat) (g : Nat) (F : Nat) (kind : Nat) (stops : Bool) (hs : s.wf
    = true) : (State.ringWhistle s n g F kind stops).wf = true := by
  first | (simp (maxDischargeDepth := 40) +contextual [hs, State.ringWhistle]; done) | (simp only [State.ringWhistle]; (repeat' split) <;> simp (maxDischargeDepth := 40) +contextual [hs])

@[simp] theorem State.ringAction_wf (s : State) (n : Nat) (g : Nat) (F : Nat) (hs : s.wf = true) : (State.ringAction s
    n g F).1.wf = true := by
  first | (simp (maxDischargeDepth := 40) +contextual [hs, State.ringAction]; done) | (simp only [State.ringAction]; (repeat' split) <;> simp (maxDischargeDepth := 40) +contextual [hs])

@[simp] theorem State.drainLog_wf (s : State) (t : Nat) (hs : s.wf = true) : (State.drainLog s t).wf = true := by
  first | (simp (maxDischargeDepth := 40) +contextual [hs, State.drainLog]; done) | (simp only [State.drainLog]; (repeat' split) <;> simp (maxDischargeDepth := 40) +contextual [hs])

@[simp] theorem State.logWrite_wf (s : State) (g : Nat) (v : Vec) (fs : List FailCmp) (idx : Nat) (msk : List Byte)
    (first : Bool) (acted : Bool) (unmapped : Bool) (hs : s.wf = true) : (State.logWrite s g v fs idx msk first acted
    unmapped).wf = true := by
  first | (simp (maxDischargeDepth := 40) +contextual [hs, State.logWrite]; done) | (simp only [State.logWrite]; (repeat' split) <;> simp (maxDischargeDepth := 40) +contextual [hs])

@[simp] theorem State.logDrop_wf (s : State) (g : Nat) (hs : s.wf = true) : (State.logDrop s g).wf = true := by
  first | (simp (maxDischargeDepth := 40) +contextual [hs, State.logDrop]; done) | (simp only [State.logDrop]; (repeat' split) <;> simp (maxDischargeDepth := 40) +contextual [hs])

@[simp] theorem State.logFail_wf (s : State) (g : Nat) (v : Vec) (fs : List FailCmp) (first : Bool) (acted : Bool)
    (unmapped : Bool) (hs : s.wf = true) : (State.logFail s g v fs first acted unmapped).wf = true := by
  first | (simp (maxDischargeDepth := 40) +contextual [hs, State.logFail]; done) | (simp only [State.logFail]; (repeat' split) <;> simp (maxDischargeDepth := 40) +contextual [hs])

@[simp] theorem State.setDramBit_wf (s : State) (a : Nat) (i : Nat) (b : Bool) (hs : s.wf = true) : (State.setDramBit
    s a i b).wf = true := by
  first | (simp (maxDischargeDepth := 40) +contextual [hs, State.setDramBit]; done) | (simp only [State.setDramBit]; (repeat' split) <;> simp (maxDischargeDepth := 40) +contextual [hs])

@[simp] theorem State.setCell_wf (s : State) (g : Nat) (idx : Nat) (hs : s.wf = true) : (State.setCell s g idx).wf =
    true := by
  first | (simp (maxDischargeDepth := 40) +contextual [hs, State.setCell]; done) | (simp only [State.setCell]; (repeat' split) <;> simp (maxDischargeDepth := 40) +contextual [hs])

@[simp] theorem State.mapFails_wf (s : State) (n : Nat) (g : Nat) (v : Vec) (fs : List FailCmp) (hs : s.wf = true) :
    (State.mapFails s n g v fs).wf = true := by
  refine foldl_wf _ (fun s x hs => ?_) _ _ hs
  split <;> simp [hs]

@[simp] theorem State.clearMap_wf (s : State) (g : Nat) (hs : s.wf = true) : (State.clearMap s g).wf = true := by
  first | (simp (maxDischargeDepth := 40) +contextual [hs, State.clearMap]; done) | (simp only [State.clearMap]; (repeat' split) <;> simp (maxDischargeDepth := 40) +contextual [hs])

@[simp] theorem State.clearRing_wf (s : State) (g : Nat) (hs : s.wf = true) : (State.clearRing s g).wf = true := by
  first | (simp (maxDischargeDepth := 40) +contextual [hs, State.clearRing]; done) | (simp only [State.clearRing]; (repeat' split) <;> simp (maxDischargeDepth := 40) +contextual [hs])

@[simp] theorem State.setDesc_wf (s : State) (q : Nat) (d : RqDesc) (hs : s.wf = true) : (State.setDesc s q d).wf =
    true := by
  first | (simp (maxDischargeDepth := 40) +contextual [hs, State.setDesc]; done) | (simp only [State.setDesc]; (repeat' split) <;> simp (maxDischargeDepth := 40) +contextual [hs])

@[simp] theorem State.putEntries_wf (s : State) (q : Nat) (es : List RqEntry) (hs : s.wf = true) : (State.putEntries s
    q es).wf = true := by
  first | (simp (maxDischargeDepth := 40) +contextual [hs, State.putEntries]; done) | (simp only [State.putEntries]; (repeat' split) <;> simp (maxDischargeDepth := 40) +contextual [hs])

@[simp] theorem State.applyPush_wf (s : State) (p : Push) (hs : s.wf = true) : (State.applyPush s p).wf = true := by
  first | (simp (maxDischargeDepth := 40) +contextual [hs, State.applyPush]; done) | (simp only [State.applyPush]; (repeat' split) <;> simp (maxDischargeDepth := 40) +contextual [hs])

@[simp] theorem State.backlogLevel_wf (s : State) (hs : s.wf = true) : (State.backlogLevel s).wf = true := by
  first | (simp (maxDischargeDepth := 40) +contextual [hs, State.backlogLevel]; done) | (simp only [State.backlogLevel]; (repeat' split) <;> simp (maxDischargeDepth := 40) +contextual [hs])

@[simp] theorem State.spillBytes_wf (s : State) (hs : s.wf = true) : (State.spillBytes s).wf = true := by
  first | (simp (maxDischargeDepth := 40) +contextual [hs, State.spillBytes]; done) | (simp only [State.spillBytes]; (repeat' split) <;> simp (maxDischargeDepth := 40) +contextual [hs])

@[simp] theorem State.spillGo_wf (x1 : Nat) (x2 : State) (hs : x2.wf = true) : (State.spillGo x1 x2).wf = true := by
  fun_induction State.spillGo x1 x2 <;> simp_all (maxDischargeDepth := 40) +zetaDelta

@[simp] theorem State.spillTo_wf (s : State) (t : Nat) (hs : s.wf = true) : (State.spillTo s t).wf = true := by
  first | (simp (maxDischargeDepth := 40) +contextual [hs, State.spillTo]; done) | (simp only [State.spillTo]; (repeat' split) <;> simp (maxDischargeDepth := 40) +contextual [hs])

@[simp] theorem State.losePush_wf (s : State) (n : Nat) (p : Push) (hs : s.wf = true) : (State.losePush s n p).wf =
    true := by
  first | (simp (maxDischargeDepth := 40) +contextual [hs, State.losePush]; done) | (simp only [State.losePush]; (repeat' split) <;> simp (maxDischargeDepth := 40) +contextual [hs])

@[simp] theorem State.enterPush_wf (s : State) (n : Nat) (p : Push) (hs : s.wf = true) : (State.enterPush s n p).wf =
    true := by
  first | (simp (maxDischargeDepth := 40) +contextual [hs, State.enterPush]; done) | (simp only [State.enterPush]; (repeat' split) <;> simp (maxDischargeDepth := 40) +contextual [hs])

@[simp] theorem State.rqPush_wf (s : State) (n : Nat) (g : Nat) (v : Vec) (fs : List FailCmp) (hs : s.wf = true) :
    (State.rqPush s n g v fs).wf = true := by
  first | (simp (maxDischargeDepth := 40) +contextual [hs, State.rqPush]; done) | (simp only [State.rqPush]; (repeat' split) <;> simp (maxDischargeDepth := 40) +contextual [hs])

@[simp] theorem State.spoilRegion_wf (s : State) (g : Nat) (q : Nat) (hs : s.wf = true) : (State.spoilRegion s g q).wf
    = true := by
  first | (simp (maxDischargeDepth := 40) +contextual [hs, State.spoilRegion]; done) | (simp only [State.spoilRegion]; (repeat' split) <;> simp (maxDischargeDepth := 40) +contextual [hs])

@[simp] theorem State.descEcc_wf (s : State) (q : Nat) (ecc : Ecc) (hs : s.wf = true) : (State.descEcc s q ecc).wf =
    true := by
  first | (simp (maxDischargeDepth := 40) +contextual [hs, State.descEcc]; done) | (simp only [State.descEcc]; (repeat' split) <;> simp (maxDischargeDepth := 40) +contextual [hs])

@[simp] theorem State.meetUpset_wf (s : State) (e : Prod Nat Nat) (k : State → State) (hk : ∀ x, x.wf = true → (k
    x).wf = true) (hs : s.wf = true) : (State.meetUpset s e k).wf = true := by
  first | (simp (maxDischargeDepth := 40) +contextual [hs, hk, State.meetUpset]; done) | (simp only [State.meetUpset]; (repeat' split) <;> simp (maxDischargeDepth := 40) +contextual [hs, hk])

@[simp] theorem State.settleDesc_wf (s : State) (q : Nat) (hs : s.wf = true) : (State.settleDesc s q).wf = true := by
  first | (simp (maxDischargeDepth := 40) +contextual [hs, State.settleDesc]; done) | (simp only [State.settleDesc]; (repeat' split) <;> simp (maxDischargeDepth := 40) +contextual [hs])

@[simp] theorem State.settleEntries_wf (s : State) (g : Nat) (q : Nat) (hs : s.wf = true) : (State.settleEntries s g
    q).wf = true := by
  first | (simp (maxDischargeDepth := 40) +contextual [hs, State.settleEntries]; done) | (simp only [State.settleEntries]; (repeat' split) <;> simp (maxDischargeDepth := 40) +contextual [hs])

@[simp] theorem State.settle_wf (s : State) (g : Nat) (q : Nat) (hs : s.wf = true) : (State.settle s g q).wf = true :=
    by
  first | (simp (maxDischargeDepth := 40) +contextual [hs, State.settle]; done) | (simp only [State.settle]; (repeat' split) <;> simp (maxDischargeDepth := 40) +contextual [hs])

@[simp] theorem State.settleRing_wf (s : State) (g : Nat) (hs : s.wf = true) : (State.settleRing s g).wf = true := by
  first | (simp (maxDischargeDepth := 40) +contextual [hs, State.settleRing]; done) | (simp only [State.settleRing]; (repeat' split) <;> simp (maxDischargeDepth := 40) +contextual [hs])

@[simp] theorem State.clearQueues_wf (s : State) (g : Nat) (hs : s.wf = true) : (State.clearQueues s g).wf = true :=
    by
  first | (simp (maxDischargeDepth := 40) +contextual [hs, State.clearQueues]; done) | (simp only [State.clearQueues]; (repeat' split) <;> simp (maxDischargeDepth := 40) +contextual [hs])

@[simp] theorem State.finalizeRegion_wf (s : State) (g : Nat) (q : Nat) (written : Bool) (hs : s.wf = true) :
    (State.finalizeRegion s g q written).1.wf = true := by
  first | (simp (maxDischargeDepth := 40) +contextual [hs, State.finalizeRegion]; done) | (simp only [State.finalizeRegion]; (repeat' split) <;> simp (maxDischargeDepth := 40) +contextual [hs])

@[simp] theorem State.finalizeGo_wf (g : Nat) (room : Nat) (x1 : List Nat) (x2 : Prod State (Prod (List (List Byte))
    Nat)) (hs : x2.1.wf = true) : (State.finalizeGo g room x1 x2).1.wf = true := by
  fun_induction State.finalizeGo g room x1 x2 <;> simp_all (maxDischargeDepth := 40) +zetaDelta

@[simp] theorem State.finalizeReport_wf (s : State) (ring : Nat) (result : Nat) (records : Nat) (un : Nat) (hs : s.wf
    = true) : (State.finalizeReport s ring result records un).wf = true := by
  first | (simp (maxDischargeDepth := 40) +contextual [hs, State.finalizeReport]; done) | (simp only [State.finalizeReport]; (repeat' split) <;> simp (maxDischargeDepth := 40) +contextual [hs])

@[simp] theorem State.finalizeEnd_wf (s : State) (f : RqFin) (qs : List Nat) (abandoned : Bool) (hs : s.wf = true) :
    (State.finalizeEnd s f qs abandoned).wf = true := by
  first | (simp (maxDischargeDepth := 40) +contextual [hs, State.finalizeEnd]; done) | (simp only [State.finalizeEnd]; (repeat' split) <;> simp (maxDischargeDepth := 40) +contextual [hs])

@[simp] theorem State.abandonFinalize_wf (s : State) (g : Nat) (hs : s.wf = true) : (State.abandonFinalize s g).wf =
    true := by
  first | (simp (maxDischargeDepth := 40) +contextual [hs, State.abandonFinalize]; done) | (simp only [State.abandonFinalize]; (repeat' split) <;> simp (maxDischargeDepth := 40) +contextual [hs])

@[simp] theorem State.rqStart_wf (s : State) (g : Nat) (hs : s.wf = true) : (State.rqStart s g).wf = true := by
  first | (simp (maxDischargeDepth := 40) +contextual [hs, State.rqStart]; done) | (simp only [State.rqStart]; (repeat' split) <;> simp (maxDischargeDepth := 40) +contextual [hs])

@[simp] theorem State.rqClearReq_wf (s : State) (g : Nat) (hs : s.wf = true) : (State.rqClearReq s g).wf = true := by
  first | (simp (maxDischargeDepth := 40) +contextual [hs, State.rqClearReq]; done) | (simp only [State.rqClearReq]; (repeat' split) <;> simp (maxDischargeDepth := 40) +contextual [hs])

@[simp] theorem State.finalizeReq_wf (s : State) (g : Nat) (dirtyOnly : Bool) (hs : s.wf = true) : (State.finalizeReq
    s g dirtyOnly).wf = true := by
  first | (simp (maxDischargeDepth := 40) +contextual [hs, State.finalizeReq]; done) | (simp only [State.finalizeReq]; (repeat' split) <;> simp (maxDischargeDepth := 40) +contextual [hs])

@[simp] theorem State.clearAllQueues_wf (s : State) (hs : s.wf = true) : (State.clearAllQueues s).wf = true := by
  first | (simp (maxDischargeDepth := 40) +contextual [hs, State.clearAllQueues]; done) | (simp only [State.clearAllQueues]; (repeat' split) <;> simp (maxDischargeDepth := 40) +contextual [hs])

end Sys2Proof.Machine
end

