-- ==== Sys2Proof/Laws/WfEngines.lean ====
section
/-! SUPPORT. Every operation keeps the canonical form of the memories and of the register file (`State.wf`). -/

namespace Sys2Proof.Machine

set_option linter.unusedTactic false
set_option linter.unreachableTactic false
set_option linter.unnecessarySeqFocus false
set_option linter.unusedSimpArgs false

@[simp] theorem State.roundTo_wf (s : State) (num : Int) (den : Nat) (hs : s.wf = true) : (State.roundTo s num
    den).2.wf = true := by
  first | (simp (maxDischargeDepth := 40) +contextual [hs, State.roundTo]; done) | (simp only [State.roundTo]; (repeat' split) <;> simp (maxDischargeDepth := 40) +contextual [hs])

@[simp] theorem State.sqrtTo_wf (s : State) (num : Nat) (den : Nat) (hs : s.wf = true) : (State.sqrtTo s num den).2.wf
    = true := by
  first | (simp (maxDischargeDepth := 40) +contextual [hs, State.sqrtTo]; done) | (simp only [State.sqrtTo]; (repeat' split) <;> simp (maxDischargeDepth := 40) +contextual [hs])

@[simp] theorem State.stamp_wf (s : State) (c : Nat) (low : Bool) (rise : Bool) (arr : Nat) (hs : s.wf = true) :
    (State.stamp s c low rise arr).1.wf = true := by
  first | (simp (maxDischargeDepth := 40) +contextual [hs, State.stamp]; done) | (simp only [State.stamp]; (repeat' split) <;> simp (maxDischargeDepth := 40) +contextual [hs])

@[simp] theorem State.unitsSee_wf (s : State) (n : Nat) (d : TdcSt) (rise : Bool) (stamp : Option Int) (t : Int) (hs :
    s.wf = true) : (State.unitsSee s n d rise stamp t).wf = true := by
  first | (simp (maxDischargeDepth := 40) +contextual [hs, State.unitsSee]; done) | (simp only [State.unitsSee]; (repeat' split) <;> simp (maxDischargeDepth := 40) +contextual [hs])

@[simp] theorem State.unitsCold_wf (s : State) (hs : s.wf = true) : (State.unitsCold s).wf = true := by
  first | (simp (maxDischargeDepth := 40) +contextual [hs, State.unitsCold]; done) | (simp only [State.unitsCold]; (repeat' split) <;> simp (maxDischargeDepth := 40) +contextual [hs])

@[simp] theorem State.unitElapse_wf (s : State) (c : Nat) (hs : s.wf = true) : (State.unitElapse s c).wf = true := by
  first | (simp (maxDischargeDepth := 40) +contextual [hs, State.unitElapse]; done) | (simp only [State.unitElapse]; (repeat' split) <;> simp (maxDischargeDepth := 40) +contextual [hs])

@[simp] theorem State.tdcBegin_wf (s : State) (c : Nat) (hs : s.wf = true) : (State.tdcBegin s c).wf = true := by
  first | (simp (maxDischargeDepth := 40) +contextual [hs, State.tdcBegin]; done) | (simp only [State.tdcBegin]; (repeat' split) <;> simp (maxDischargeDepth := 40) +contextual [hs])

@[simp] theorem State.tdcStart_wf (s : State) (c : Nat) (hs : s.wf = true) : (State.tdcStart s c).wf = true := by
  first | (simp (maxDischargeDepth := 40) +contextual [hs, State.tdcStart]; done) | (simp only [State.tdcStart]; (repeat' split) <;> simp (maxDischargeDepth := 40) +contextual [hs])

@[simp] theorem State.tdcAbort_wf (c : Nat) (s : State) (hs : s.wf = true) : (State.tdcAbort c s).wf = true := by
  first | (simp (maxDischargeDepth := 40) +contextual [hs, State.tdcAbort]; done) | (simp only [State.tdcAbort]; (repeat' split) <;> simp (maxDischargeDepth := 40) +contextual [hs])

@[simp] theorem State.tdcAbortAll_wf (s : State) (hs : s.wf = true) : (State.tdcAbortAll s).wf = true := by
  first | (simp (maxDischargeDepth := 40) +contextual [hs, State.tdcAbortAll]; done) | (simp only [State.tdcAbortAll]; (repeat' split) <;> simp (maxDischargeDepth := 40) +contextual [hs])

@[simp] theorem State.tdcTake_wf (s : State) (hs : s.wf = true) : (State.tdcTake s).wf = true := by
  first | (simp (maxDischargeDepth := 40) +contextual [hs, State.tdcTake]; done) | (simp only [State.tdcTake]; (repeat' split) <;> simp (maxDischargeDepth := 40) +contextual [hs])

@[simp] theorem State.tdcRelease_wf (s : State) (hs : s.wf = true) : (State.tdcRelease s).wf = true := by
  first | (simp (maxDischargeDepth := 40) +contextual [hs, State.tdcRelease]; done) | (simp only [State.tdcRelease]; (repeat' split) <;> simp (maxDischargeDepth := 40) +contextual [hs])

@[simp] theorem State.tdcMark_wf (s : State) (n : Nat) (t : Nat) (hs : s.wf = true) : (State.tdcMark s n t).wf = true
    := by
  first | (simp (maxDischargeDepth := 40) +contextual [hs, State.tdcMark]; done) | (simp only [State.tdcMark]; (repeat' split) <;> simp (maxDischargeDepth := 40) +contextual [hs])

@[simp] theorem State.intValue_wf (s : State) (a : StopSum) (hs : s.wf = true) : (State.intValue s a).2.2.wf = true :=
    by
  first | (simp (maxDischargeDepth := 40) +contextual [hs, State.intValue]; done) | (simp only [State.intValue]; (repeat' split) <;> simp (maxDischargeDepth := 40) +contextual [hs])

@[simp] theorem State.writeInts_wf (c : Nat) (x1 : List (Prod Nat StopSum)) (x2 : Prod State Bool) (hs : x2.1.wf =
    true) : (State.writeInts c x1 x2).1.wf = true := by
  fun_induction State.writeInts c x1 x2 <;> simp_all (maxDischargeDepth := 40) +zetaDelta

@[simp] theorem State.sdev_wf (s : State) (a : StopSum) (hs : s.wf = true) : (State.sdev s a).2.wf = true := by
  first | (simp (maxDischargeDepth := 40) +contextual [hs, State.sdev]; done) | (simp only [State.sdev]; (repeat' split) <;> simp (maxDischargeDepth := 40) +contextual [hs])

@[simp] theorem State.tdcDone_wf (s : State) (c : Nat) (hs : s.wf = true) : (State.tdcDone s c).wf = true := by
  first | (simp (maxDischargeDepth := 40) +contextual [hs, State.tdcDone]; done) | (simp only [State.tdcDone]; (repeat' split) <;> simp (maxDischargeDepth := 40) +contextual [hs])

@[simp] theorem State.tdcFlags_wf (s : State) (c : Nat) (u : TdcUnit) (overflow : Bool) (noSignal : Bool) (startValid
    : Bool) (stops : Nat) (hs : s.wf = true) : (State.tdcFlags s c u overflow noSignal startValid stops).wf = true :=
    by
  first | (simp (maxDischargeDepth := 40) +contextual [hs, State.tdcFlags]; done) | (simp only [State.tdcFlags]; (repeat' split) <;> simp (maxDischargeDepth := 40) +contextual [hs])

@[simp] theorem State.tdcResult_wf (s : State) (c : Nat) (hs : s.wf = true) : (State.tdcResult s c).wf = true := by
  first | (simp (maxDischargeDepth := 40) +contextual [hs, State.tdcResult]; done) | (simp only [State.tdcResult]; (repeat' split) <;> simp (maxDischargeDepth := 40) +contextual [hs])

@[simp] theorem State.freqFit_wf (s : State) (c : Nat) (u : TdcUnit) (hs : s.wf = true) : (State.freqFit s c u).1.wf =
    true := by
  first | (simp (maxDischargeDepth := 40) +contextual [hs, State.freqFit]; done) | (simp only [State.freqFit]; (repeat' split) <;> simp (maxDischargeDepth := 40) +contextual [hs])

@[simp] theorem State.freqFree_wf (s : State) (c : Nat) (hs : s.wf = true) : (State.freqFree s c).1.wf = true := by
  first | (simp (maxDischargeDepth := 40) +contextual [hs, State.freqFree]; done) | (simp only [State.freqFree]; (repeat' split) <;> simp (maxDischargeDepth := 40) +contextual [hs])

@[simp] theorem State.freqResult_wf (s : State) (c : Nat) (hs : s.wf = true) : (State.freqResult s c).wf = true := by
  first | (simp (maxDischargeDepth := 40) +contextual [hs, State.freqResult]; done) | (simp only [State.freqResult]; (repeat' split) <;> simp (maxDischargeDepth := 40) +contextual [hs])

@[simp] theorem State.unitResult_wf (s : State) (c : Nat) (hs : s.wf = true) : (State.unitResult s c).wf = true := by
  first | (simp (maxDischargeDepth := 40) +contextual [hs, State.unitResult]; done) | (simp only [State.unitResult]; (repeat' split) <;> simp (maxDischargeDepth := 40) +contextual [hs])

@[simp] theorem State.ringPut_wf (s : State) (i : Nat) (x1 : List Byte) (hs : s.wf = true) : (State.ringPut s i x1).wf
    = true := by
  fun_induction State.ringPut s i x1 <;> simp_all (maxDischargeDepth := 40) +zetaDelta

@[simp] theorem State.streamFill_wf (s : State) (i : Nat) (hs : s.wf = true) : (State.streamFill s i).wf = true := by
  first | (simp (maxDischargeDepth := 40) +contextual [hs, State.streamFill]; done) | (simp only [State.streamFill]; (repeat' split) <;> simp (maxDischargeDepth := 40) +contextual [hs])

@[simp] theorem State.placeRec_wf (s : State) (i : Nat) (r : StreamRec) (hs : s.wf = true) : (State.placeRec s i r).wf
    = true := by
  first | (simp (maxDischargeDepth := 40) +contextual [hs, State.placeRec]; done) | (simp only [State.placeRec]; (repeat' split) <;> simp (maxDischargeDepth := 40) +contextual [hs])

@[simp] theorem State.closeGap_wf (s : State) (i : Nat) (hs : s.wf = true) : (State.closeGap s i).wf = true := by
  first | (simp (maxDischargeDepth := 40) +contextual [hs, State.closeGap]; done) | (simp only [State.closeGap]; (repeat' split) <;> simp (maxDischargeDepth := 40) +contextual [hs])

@[simp] theorem State.loseRec_wf (s : State) (i : Nat) (r : StreamRec) (cause : Nat) (hs : s.wf = true) :
    (State.loseRec s i r cause).wf = true := by
  first | (simp (maxDischargeDepth := 40) +contextual [hs, State.loseRec]; done) | (simp only [State.loseRec]; (repeat' split) <;> simp (maxDischargeDepth := 40) +contextual [hs])

@[simp] theorem State.placeOrLose_wf (s : State) (i : Nat) (r : StreamRec) (hs : s.wf = true) : (State.placeOrLose s i
    r).wf = true := by
  first | (simp (maxDischargeDepth := 40) +contextual [hs, State.placeOrLose]; done) | (simp only [State.placeOrLose]; (repeat' split) <;> simp (maxDischargeDepth := 40) +contextual [hs])

@[simp] theorem State.complete_wf (s : State) (i : Nat) (r : StreamRec) (hs : s.wf = true) : (State.complete s i r).wf
    = true := by
  first | (simp (maxDischargeDepth := 40) +contextual [hs, State.complete]; done) | (simp only [State.complete]; (repeat' split) <;> simp (maxDischargeDepth := 40) +contextual [hs])

@[simp] theorem State.armWindow_wf (s : State) (i : Nat) (a : Nat) (src : Nat) (hs : s.wf = true) : (State.armWindow s
    i a src).wf = true := by
  first | (simp (maxDischargeDepth := 40) +contextual [hs, State.armWindow]; done) | (simp only [State.armWindow]; (repeat' split) <;> simp (maxDischargeDepth := 40) +contextual [hs])

@[simp] theorem State.trigMarks_wf (s : State) (k : Nat) (t : Nat) (flags : Nat) (act : Nat) (chan : Nat) (cycle :
    Nat) (hs : s.wf = true) : (State.trigMarks s k t flags act chan cycle).wf = true := by
  first | (simp (maxDischargeDepth := 40) +contextual [hs, State.trigMarks]; done) | (simp only [State.trigMarks]; (repeat' split) <;> simp (maxDischargeDepth := 40) +contextual [hs])

@[simp] theorem State.seqMarks_wf (s : State) (n : Nat) (t : Nat) (value : Nat) (cycle : Nat) (hs : s.wf = true) :
    (State.seqMarks s n t value cycle).wf = true := by
  first | (simp (maxDischargeDepth := 40) +contextual [hs, State.seqMarks]; done) | (simp only [State.seqMarks]; (repeat' split) <;> simp (maxDischargeDepth := 40) +contextual [hs])

@[simp] theorem State.closeStamps_wf (s : State) (i : Nat) (n : Nat) (hs : s.wf = true) : (State.closeStamps s i n).wf
    = true := by
  first | (simp (maxDischargeDepth := 40) +contextual [hs, State.closeStamps]; done) | (simp only [State.closeStamps]; (repeat' split) <;> simp (maxDischargeDepth := 40) +contextual [hs])

@[simp] theorem State.redStamps_wf (s : State) (i : Nat) (n : Nat) (idx : Nat) (rise : Bool) (stamp : Option Int) (t :
    Int) (hs : s.wf = true) : (State.redStamps s i n idx rise stamp t).wf = true := by
  first | (simp (maxDischargeDepth := 40) +contextual [hs, State.redStamps]; done) | (simp only [State.redStamps]; (repeat' split) <;> simp (maxDischargeDepth := 40) +contextual [hs])

@[simp] theorem State.redPhase_wf (s : State) (i : Nat) (n : Nat) (hist : Bool) (ph : Prod Nat (Prod Nat Nat)) (hs :
    s.wf = true) : (State.redPhase s i n hist ph).wf = true := by
  first | (simp (maxDischargeDepth := 40) +contextual [hs, State.redPhase]; done) | (simp only [State.redPhase]; (repeat' split) <;> simp (maxDischargeDepth := 40) +contextual [hs])

@[simp] theorem State.redStats_wf (s : State) (i : Nat) (n : Nat) (stamp : Option Int) (ph : Option (Prod Nat (Prod
    Nat Nat))) (hs : s.wf = true) : (State.redStats s i n stamp ph).wf = true := by
  first | (simp (maxDischargeDepth := 40) +contextual [hs, State.redStats]; done) | (simp only [State.redStats]; (repeat' split) <;> simp (maxDischargeDepth := 40) +contextual [hs])

@[simp] theorem State.reduce_wf (s : State) (i : Nat) (c : Nat) (low : Bool) (rise : Bool) (idx : Nat) (stamp : Option
    Int) (t : Int) (hs : s.wf = true) : (State.reduce s i c low rise idx stamp t).wf = true := by
  first | (simp (maxDischargeDepth := 40) +contextual [hs, State.reduce]; done) | (simp only [State.reduce]; (repeat' split) <;> simp (maxDischargeDepth := 40) +contextual [hs])

@[simp] theorem State.sendResults_wf (s : State) (i : Nat) (d : Nat) (t1 : Nat) (rs : List StreamRec) (hs : s.wf =
    true) : (State.sendResults s i d t1 rs).wf = true := by
  first | (simp (maxDischargeDepth := 40) +contextual [hs, State.sendResults]; done) | (simp only [State.sendResults]; (repeat' split) <;> simp (maxDischargeDepth := 40) +contextual [hs])

@[simp] theorem State.sendInterval_wf (s : State) (i : Nat) (d : Nat) (t0 : Nat) (t1 : Nat) (hs : s.wf = true) :
    (State.sendInterval s i d t0 t1).wf = true := by
  first | (simp (maxDischargeDepth := 40) +contextual [hs, State.sendInterval]; done) | (simp only [State.sendInterval]; (repeat' split) <;> simp (maxDischargeDepth := 40) +contextual [hs])

@[simp] theorem State.streamsTake_wf (s : State) (c : Nat) (hs : s.wf = true) : (State.streamsTake s c).wf = true :=
    by
  first | (simp (maxDischargeDepth := 40) +contextual [hs, State.streamsTake]; done) | (simp only [State.streamsTake]; (repeat' split) <;> simp (maxDischargeDepth := 40) +contextual [hs])

@[simp] theorem State.streamsRelease_wf (s : State) (c : Nat) (hs : s.wf = true) : (State.streamsRelease s c).wf =
    true := by
  first | (simp (maxDischargeDepth := 40) +contextual [hs, State.streamsRelease]; done) | (simp only [State.streamsRelease]; (repeat' split) <;> simp (maxDischargeDepth := 40) +contextual [hs])

@[simp] theorem State.windowSee_wf (s : State) (i : Nat) (c : Nat) (low : Bool) (rise : Bool) (idx : Nat) (stamp :
    Option Int) (t : Int) (hs : s.wf = true) : (State.windowSee s i c low rise idx stamp t).wf = true := by
  first | (simp (maxDischargeDepth := 40) +contextual [hs, State.windowSee]; done) | (simp only [State.windowSee]; (repeat' split) <;> simp (maxDischargeDepth := 40) +contextual [hs])

@[simp] theorem State.fines_wf (s : State) (num : Int) (den : Nat) (hs : s.wf = true) : (State.fines s num den).2.wf =
    true := by
  first | (simp (maxDischargeDepth := 40) +contextual [hs, State.fines]; done) | (simp only [State.fines]; (repeat' split) <;> simp (maxDischargeDepth := 40) +contextual [hs])

@[simp] theorem State.figs_wf (x1 : List (Option (Prod Int Nat))) (x2 : State) (hs : x2.wf = true) : (State.figs x1
    x2).2.wf = true := by
  fun_induction State.figs x1 x2 <;> simp_all (maxDischargeDepth := 40) +zetaDelta

@[simp] theorem State.recDuty_wf (s : State) (ok : Bool) (hi : Int) (tot : Int) (hs : s.wf = true) : (State.recDuty s
    ok hi tot).2.wf = true := by
  first | (simp (maxDischargeDepth := 40) +contextual [hs, State.recDuty]; done) | (simp only [State.recDuty]; (repeat' split) <;> simp (maxDischargeDepth := 40) +contextual [hs])

@[simp] theorem State.recordEntry_wf (s : State) (i : Nat) (c : Nat) (hs : s.wf = true) : (State.recordEntry s i
    c).2.wf = true := by
  first | (simp (maxDischargeDepth := 40) +contextual [hs, State.recordEntry]; done) | (simp only [State.recordEntry]; (repeat' split) <;> simp (maxDischargeDepth := 40) +contextual [hs])

@[simp] theorem State.recordEntries_wf (i : Nat) (x1 : List Nat) (x2 : Prod (List Byte) State) (hs : x2.2.wf = true) :
    (State.recordEntries i x1 x2).2.wf = true := by
  fun_induction State.recordEntries i x1 x2 <;> simp_all (maxDischargeDepth := 40) +zetaDelta

@[simp] theorem State.closeWindow_wf (s : State) (i : Nat) (hs : s.wf = true) : (State.closeWindow s i).wf = true :=
    by
  first | (simp (maxDischargeDepth := 40) +contextual [hs, State.closeWindow]; done) | (simp only [State.closeWindow]; (repeat' split) <;> simp (maxDischargeDepth := 40) +contextual [hs])

@[simp] theorem State.streamRefuse_wf (s : State) (i : Nat) (reason : Nat) (hs : s.wf = true) : (State.streamRefuse s
    i reason).wf = true := by
  first | (simp (maxDischargeDepth := 40) +contextual [hs, State.streamRefuse]; done) | (simp only [State.streamRefuse]; (repeat' split) <;> simp (maxDischargeDepth := 40) +contextual [hs])

@[simp] theorem State.streamStart_wf (s : State) (i : Nat) (hs : s.wf = true) : (State.streamStart s i).wf = true :=
    by
  first | (simp (maxDischargeDepth := 40) +contextual [hs, State.streamStart]; done) | (simp only [State.streamStart]; (repeat' split) <;> simp (maxDischargeDepth := 40) +contextual [hs])

@[simp] theorem State.streamEnable_wf (s : State) (i : Nat) (hs : s.wf = true) : (State.streamEnable s i).wf = true :=
    by
  first | (simp (maxDischargeDepth := 40) +contextual [hs, State.streamEnable]; done) | (simp only [State.streamEnable]; (repeat' split) <;> simp (maxDischargeDepth := 40) +contextual [hs])

@[simp] theorem State.placeWaiting_wf (i : Nat) (x1 : Nat) (x2 : State) (hs : x2.wf = true) : (State.placeWaiting i x1
    x2).wf = true := by
  fun_induction State.placeWaiting i x1 x2 <;> simp_all (maxDischargeDepth := 40) +zetaDelta

@[simp] theorem State.streamDisable_wf (i : Nat) (s : State) (hs : s.wf = true) : (State.streamDisable i s).wf = true
    := by
  first | (simp (maxDischargeDepth := 40) +contextual [hs, State.streamDisable]; done) | (simp only [State.streamDisable]; (repeat' split) <;> simp (maxDischargeDepth := 40) +contextual [hs])

@[simp] theorem State.streamsDisable_wf (s : State) (hs : s.wf = true) : (State.streamsDisable s).wf = true := by
  first | (simp (maxDischargeDepth := 40) +contextual [hs, State.streamsDisable]; done) | (simp only [State.streamsDisable]; (repeat' split) <;> simp (maxDischargeDepth := 40) +contextual [hs])

@[simp] theorem State.streamsEnd_wf (s : State) (hs : s.wf = true) : (State.streamsEnd s).wf = true := by
  first | (simp (maxDischargeDepth := 40) +contextual [hs, State.streamsEnd]; done) | (simp only [State.streamsEnd]; (repeat' split) <;> simp (maxDischargeDepth := 40) +contextual [hs])

@[simp] theorem State.streamCopy_wf (s : State) (i : Nat) (ecc : Ecc) (hs : s.wf = true) : (State.streamCopy s i
    ecc).wf = true := by
  unfold State.streamCopy
  split
  · exact hs
  · dsimp only
    split
    · exact hs
    · (repeat' split) <;> simp (maxDischargeDepth := 40) [hs]

@[simp] theorem State.trigReset_wf (s : State) (k : Nat) (hs : s.wf = true) : (State.trigReset s k).wf = true := by
  first | (simp (maxDischargeDepth := 40) +contextual [hs, State.trigReset]; done) | (simp only [State.trigReset]; (repeat' split) <;> simp (maxDischargeDepth := 40) +contextual [hs])

@[simp] theorem State.trigDisarm_wf (k : Nat) (s : State) (hs : s.wf = true) : (State.trigDisarm k s).wf = true := by
  first | (simp (maxDischargeDepth := 40) +contextual [hs, State.trigDisarm]; done) | (simp only [State.trigDisarm]; (repeat' split) <;> simp (maxDischargeDepth := 40) +contextual [hs])

@[simp] theorem State.trigDisarmAll_wf (s : State) (hs : s.wf = true) : (State.trigDisarmAll s).wf = true := by
  first | (simp (maxDischargeDepth := 40) +contextual [hs, State.trigDisarmAll]; done) | (simp only [State.trigDisarmAll]; (repeat' split) <;> simp (maxDischargeDepth := 40) +contextual [hs])

@[simp] theorem State.trigRefuse_wf (s : State) (k : Nat) (reason : Nat) (hs : s.wf = true) : (State.trigRefuse s k
    reason).wf = true := by
  first | (simp (maxDischargeDepth := 40) +contextual [hs, State.trigRefuse]; done) | (simp only [State.trigRefuse]; (repeat' split) <;> simp (maxDischargeDepth := 40) +contextual [hs])

@[simp] theorem State.trigArm_wf (s : State) (k : Nat) (hs : s.wf = true) : (State.trigArm s k).wf = true := by
  first | (simp (maxDischargeDepth := 40) +contextual [hs, State.trigArm]; done) | (simp only [State.trigArm]; (repeat' split) <;> simp (maxDischargeDepth := 40) +contextual [hs])

@[simp] theorem State.trigTime_wf (s : State) (k : Nat) (c : Nat) (rise : Bool) (tL : Option Int) (tH : Option Int)
    (sample : Int) (hs : s.wf = true) : (State.trigTime s k c rise tL tH sample).2.2.wf = true := by
  first | (simp (maxDischargeDepth := 40) +contextual [hs, State.trigTime]; done) | (simp only [State.trigTime]; (repeat' split) <;> simp (maxDischargeDepth := 40) +contextual [hs])

@[simp] theorem State.trigFire_wf (s : State) (k : Nat) (j : Nat) (n : Nat) (xs : List (Prod Nat Nat)) (t : Int) (cyc
    : Nat) (hs : s.wf = true) : (State.trigFire s k j n xs t cyc).wf = true := by
  first | (simp (maxDischargeDepth := 40) +contextual [hs, State.trigFire]; done) | (simp only [State.trigFire]; (repeat' split) <;> simp (maxDischargeDepth := 40) +contextual [hs])

@[simp] theorem State.stageLimit_wf (s : State) (k : Nat) (t : Int) (hs : s.wf = true) : (State.stageLimit s k t).wf =
    true := by
  first | (simp (maxDischargeDepth := 40) +contextual [hs, State.stageLimit]; done) | (simp only [State.stageLimit]; (repeat' split) <;> simp (maxDischargeDepth := 40) +contextual [hs])

@[simp] theorem State.trigSample_wf (s : State) (k : Nat) (n : Nat) (xs : List (Prod Nat Nat)) (ts : List (Prod Nat
    Int)) (cyc : Nat) (hs : s.wf = true) : (State.trigSample s k n xs ts cyc).wf = true := by
  first | (simp (maxDischargeDepth := 40) +contextual [hs, State.trigSample]; done) | (simp only [State.trigSample]; (repeat' split) <;> simp (maxDischargeDepth := 40) +contextual [hs])

@[simp] theorem State.trigVector_wf (s : State) (n : Nat) (f : Flight) (hs : s.wf = true) : (State.trigVector s n
    f).wf = true := by
  first | (simp (maxDischargeDepth := 40) +contextual [hs, State.trigVector]; done) | (simp only [State.trigVector]; (repeat' split) <;> simp (maxDischargeDepth := 40) +contextual [hs])

@[simp] theorem State.trigsSee_wf (s : State) (c : Nat) (low : Bool) (rise : Bool) (stamp : Option Int) (t : Int) (hs
    : s.wf = true) : (State.trigsSee s c low rise stamp t).wf = true := by
  first | (simp (maxDischargeDepth := 40) +contextual [hs, State.trigsSee]; done) | (simp only [State.trigsSee]; (repeat' split) <;> simp (maxDischargeDepth := 40) +contextual [hs])

@[simp] theorem State.passedCycle_wf (s : State) (n : Nat) (hs : s.wf = true) : (State.passedCycle s n).2.wf = true :=
    by
  first | (simp (maxDischargeDepth := 40) +contextual [hs, State.passedCycle]; done) | (simp only [State.passedCycle]; (repeat' split) <;> simp (maxDischargeDepth := 40) +contextual [hs])

@[simp] theorem State.pushTiles_wf (g : Nat) (i : Nat) (final : Bool) (cyc : Nat) (x1 : List Nat) (x2 : State) (hs :
    x2.wf = true) : (State.pushTiles g i final cyc x1 x2).wf = true := by
  fun_induction State.pushTiles g i final cyc x1 x2 <;> simp_all (maxDischargeDepth := 40) +zetaDelta

@[simp] theorem State.tilePushEnd_wf (s : State) (g : Nat) (hs : s.wf = true) : (State.tilePushEnd s g).wf = true :=
    by
  first | (simp (maxDischargeDepth := 40) +contextual [hs, State.tilePushEnd]; done) | (simp only [State.tilePushEnd]; (repeat' split) <;> simp (maxDischargeDepth := 40) +contextual [hs])

@[simp] theorem State.trkConfig_wf (s : State) (n : Nat) (hs : s.wf = true) : (State.trkConfig s n).wf = true := by
  first | (simp (maxDischargeDepth := 40) +contextual [hs, State.trkConfig]; done) | (simp only [State.trkConfig]; (repeat' split) <;> simp (maxDischargeDepth := 40) +contextual [hs])

@[simp] theorem State.strobeSym_wf (s : State) (st : Nat) (ui : Nat) (t : Nat) (sym : Nat) (hs : s.wf = true) :
    (State.strobeSym s st ui t sym).wf = true := by
  first | (simp (maxDischargeDepth := 40) +contextual [hs, State.strobeSym]; done) | (simp only [State.strobeSym]; (repeat' split) <;> simp (maxDischargeDepth := 40) +contextual [hs])

@[simp] theorem State.strobeVector_wf (s : State) (n : Nat) (st : Nat) (v : Vec) (syms : List Nat) (hs : s.wf = true)
    : (State.strobeVector s n st v syms).wf = true := by
  first | (simp (maxDischargeDepth := 40) +contextual [hs, State.strobeVector]; done) | (simp only [State.strobeVector]; (repeat' split) <;> simp (maxDischargeDepth := 40) +contextual [hs])

@[simp] theorem State.stray_wf (s : State) (st : Nat) (hs : s.wf = true) : (State.stray s st).wf = true := by
  first | (simp (maxDischargeDepth := 40) +contextual [hs, State.stray]; done) | (simp only [State.stray]; (repeat' split) <;> simp (maxDischargeDepth := 40) +contextual [hs])

@[simp] theorem State.strobeEdge_wf (s : State) (n : Nat) (st : Nat) (lvl : Bool) (t : Nat) (hs : s.wf = true) :
    (State.strobeEdge s n st lvl t).wf = true := by
  first | (simp (maxDischargeDepth := 40) +contextual [hs, State.strobeEdge]; done) | (simp only [State.strobeEdge]; (repeat' split) <;> simp (maxDischargeDepth := 40) +contextual [hs])

@[simp] theorem State.strobeSee_wf (s : State) (c : Nat) (t : Nat) (hs : s.wf = true) : (State.strobeSee s c t).wf =
    true := by
  first | (simp (maxDischargeDepth := 40) +contextual [hs, State.strobeSee]; done) | (simp only [State.strobeSee]; (repeat' split) <;> simp (maxDischargeDepth := 40) +contextual [hs])

@[simp] theorem State.dropBursts_wf (s : State) (st : Nat) (ui : Nat) (hs : s.wf = true) : (State.dropBursts s st
    ui).wf = true := by
  first | (simp (maxDischargeDepth := 40) +contextual [hs, State.dropBursts]; done) | (simp only [State.dropBursts]; (repeat' split) <;> simp (maxDischargeDepth := 40) +contextual [hs])

@[simp] theorem State.ask_wf (s : State) (d : Nat) (t : Nat) (what : Nat) (hs : s.wf = true) : (State.ask s d t
    what).wf = true := by
  first | (simp (maxDischargeDepth := 40) +contextual [hs, State.ask]; done) | (simp only [State.ask]; (repeat' split) <;> simp (maxDischargeDepth := 40) +contextual [hs])

@[simp] theorem State.unask_wf (s : State) (d : Nat) (what : Nat) (hs : s.wf = true) : (State.unask s d what).wf =
    true := by
  first | (simp (maxDischargeDepth := 40) +contextual [hs, State.unask]; done) | (simp only [State.unask]; (repeat' split) <;> simp (maxDischargeDepth := 40) +contextual [hs])

@[simp] theorem State.engineTurn_wf (s : State) (d : Nat) (hs : s.wf = true) : (State.engineTurn s d).wf = true := by
  first | (simp (maxDischargeDepth := 40) +contextual [hs, State.engineTurn]; done) | (simp only [State.engineTurn]; (repeat' split) <;> simp (maxDischargeDepth := 40) +contextual [hs])

@[simp] theorem State.roundLow_wf (s : State) (num : Nat) (den : Nat) (hs : s.wf = true) : (State.roundLow s num
    den).2.wf = true := by
  first | (simp (maxDischargeDepth := 40) +contextual [hs, State.roundLow]; done) | (simp only [State.roundLow]; (repeat' split) <;> simp (maxDischargeDepth := 40) +contextual [hs])

@[simp] theorem State.roundMag_wf (s : State) (num : Int) (den : Nat) (hs : s.wf = true) : (State.roundMag s num
    den).2.wf = true := by
  first | (simp (maxDischargeDepth := 40) +contextual [hs, State.roundMag]; done) | (simp only [State.roundMag]; (repeat' split) <;> simp (maxDischargeDepth := 40) +contextual [hs])

@[simp] theorem State.sqrtLow_wf (s : State) (num : Nat) (den : Nat) (hs : s.wf = true) : (State.sqrtLow s num
    den).2.wf = true := by
  first | (simp (maxDischargeDepth := 40) +contextual [hs, State.sqrtLow]; done) | (simp only [State.sqrtLow]; (repeat' split) <;> simp (maxDischargeDepth := 40) +contextual [hs])

@[simp] theorem State.stageBank_wf (s : State) (c : Nat) (k : Coef) (hs : s.wf = true) : (State.stageBank s c k).wf =
    true := by
  first | (simp (maxDischargeDepth := 40) +contextual [hs, State.stageBank]; done) | (simp only [State.stageBank]; (repeat' split) <;> simp (maxDischargeDepth := 40) +contextual [hs])

@[simp] theorem State.thrDelta_wf (s : State) (d : Nat) (m : ThrMeas) (hs : s.wf = true) : (State.thrDelta s d m).2.wf
    = true := by
  first | (simp (maxDischargeDepth := 40) +contextual [hs, State.thrDelta]; done) | (simp only [State.thrDelta]; (repeat' split) <;> simp (maxDischargeDepth := 40) +contextual [hs])

@[simp] theorem State.iofsOf_wf (s : State) (xs : List (Prod Nat Int)) (j : Nat) (hs : s.wf = true) : (State.iofsOf s
    xs j).2.wf = true := by
  first | (simp (maxDischargeDepth := 40) +contextual [hs, State.iofsOf]; done) | (simp only [State.iofsOf]; (repeat' split) <;> simp (maxDischargeDepth := 40) +contextual [hs])

@[simp] theorem State.gather_wf {α : Type} (f : α → State → Int × State) (xs : List α) (s : State) (hs : s.wf = true)
    (hk : ∀ x s, s.wf = true → (f x s).2.wf = true) : (State.gather f xs s).2.wf = true := by
  induction xs generalizing s with
  | nil => exact hs
  | cons x xs ih => simp [State.gather, ih, hk, hs]

@[simp] theorem State.residuals_wf (s : State) (c : Nat) (z : Stamps) (hs : s.wf = true) : (State.residuals s c
    z).2.wf = true := by
  first | (simp (maxDischargeDepth := 40) +contextual [hs, State.residuals]; done) | (simp only [State.residuals]; (repeat' split) <;> simp (maxDischargeDepth := 40) +contextual [hs])

@[simp] theorem State.derive_wf (s : State) (c : Nat) (k : Coef) (m : ChanMeas) (hs : s.wf = true) : (State.derive s c
    k m).2.wf = true := by
  first | (simp (maxDischargeDepth := 40) +contextual [hs, State.derive]; done) | (simp only [State.derive]; (repeat' split) <;> simp (maxDischargeDepth := 40) +contextual [hs])

@[simp] theorem State.dacResid_wf (s : State) (c : Nat) (m : ChanMeas) (i : Nat) (hs : s.wf = true) : (State.dacResid
    s c m i).2.wf = true := by
  first | (simp (maxDischargeDepth := 40) +contextual [hs, State.dacResid]; done) | (simp only [State.dacResid]; (repeat' split) <;> simp (maxDischargeDepth := 40) +contextual [hs])

@[simp] theorem State.liveOffsets_wf (s : State) (c : Nat) (m : ChanMeas) (hs : s.wf = true) : (State.liveOffsets s c
    m).2.wf = true := by
  first | (simp (maxDischargeDepth := 40) +contextual [hs, State.liveOffsets]; done) | (simp only [State.liveOffsets]; (repeat' split) <;> simp (maxDischargeDepth := 40) +contextual [hs])

@[simp] theorem State.dacFit_wf (s : State) (d : ChanDac) (p : Prod (List Int) (List Int)) (hs : s.wf = true) :
    (State.dacFit s d p).2.wf = true := by
  first | (simp (maxDischargeDepth := 40) +contextual [hs, State.dacFit]; done) | (simp only [State.dacFit]; (repeat' split) <;> simp (maxDischargeDepth := 40) +contextual [hs])

@[simp] theorem State.dacFits_wf (f : FullMeas) (x1 : List Nat) (x2 : State) (hs : x2.wf = true) : (State.dacFits f x1
    x2).2.wf = true := by
  fun_induction State.dacFits f x1 x2 <;> simp_all (maxDischargeDepth := 40) +zetaDelta

@[simp] theorem State.adopt_wf (s : State) (g : Nat) (x : Derived) (ds : List Int) (hits : List (List Nat)) (tables :
    List (List Nat)) (k : Coef) (hs : s.wf = true) : (State.adopt s g x ds hits tables k).2.wf = true := by
  first | (simp (maxDischargeDepth := 40) +contextual [hs, State.adopt]; done) | (simp only [State.adopt]; (repeat' split) <;> simp (maxDischargeDepth := 40) +contextual [hs])

@[simp] theorem State.rejectGroup_wf (s : State) (c : Nat) (g : Nat) (k : Check) (quiet : Bool) (hs : s.wf = true) :
    (State.rejectGroup s c g k quiet).wf = true := by
  first | (simp (maxDischargeDepth := 40) +contextual [hs, State.rejectGroup]; done) | (simp only [State.rejectGroup]; (repeat' split) <;> simp (maxDischargeDepth := 40) +contextual [hs])

@[simp] theorem State.countReject_wf (s : State) (c : Nat) (g : Nat) (hs : s.wf = true) : (State.countReject s c g).wf
    = true := by
  first | (simp (maxDischargeDepth := 40) +contextual [hs, State.countReject]; done) | (simp only [State.countReject]; (repeat' split) <;> simp (maxDischargeDepth := 40) +contextual [hs])

@[simp] theorem State.acceptGroup_wf (s : State) (c : Nat) (g : Nat) (full : Bool) (hs : s.wf = true) :
    (State.acceptGroup s c g full).wf = true := by
  first | (simp (maxDischargeDepth := 40) +contextual [hs, State.acceptGroup]; done) | (simp only [State.acceptGroup]; (repeat' split) <;> simp (maxDischargeDepth := 40) +contextual [hs])

@[simp] theorem State.putFigure_wf (s : State) (f : Field) (v : Int) (hs : s.wf = true) : (State.putFigure s f v).wf =
    true := by
  first | (simp (maxDischargeDepth := 40) +contextual [hs, State.putFigure]; done) | (simp only [State.putFigure]; (repeat' split) <;> simp (maxDischargeDepth := 40) +contextual [hs])

@[simp] theorem State.figResid_wf (s : State) (c : Nat) (x : Derived) (hs : s.wf = true) : (State.figResid s c x).wf =
    true := by
  first | (simp (maxDischargeDepth := 40) +contextual [hs, State.figResid]; done) | (simp only [State.figResid]; (repeat' split) <;> simp (maxDischargeDepth := 40) +contextual [hs])

@[simp] theorem State.figThr_wf (s : State) (c : Nat) (m : ChanMeas) (x : Derived) (hs : s.wf = true) : (State.figThr
    s c m x).wf = true := by
  first | (simp (maxDischargeDepth := 40) +contextual [hs, State.figThr]; done) | (simp only [State.figThr]; (repeat' split) <;> simp (maxDischargeDepth := 40) +contextual [hs])

@[simp] theorem State.figDnl_wf (s : State) (f : Field) (k : Coef) (low : Bool) (v : Option Nat) (hs : s.wf = true) :
    (State.figDnl s f k low v).wf = true := by
  unfold State.figDnl
  split
  · simp [hs]
  · exact State.putFigure_wf _ _ _ (State.roundLow_wf _ _ _ hs)

@[simp] theorem State.figures_wf (s : State) (c : Nat) (groups : Nat) (m : ChanMeas) (x : Derived) (k : Coef) (hs :
    s.wf = true) : (State.figures s c groups m x k).wf = true := by
  first | (simp (maxDischargeDepth := 40) +contextual [hs, State.figures]; done) | (simp only [State.figures]; (repeat' split) <;> simp (maxDischargeDepth := 40) +contextual [hs])

@[simp] theorem State.tdcSync_wf (s : State) (c : Nat) (was : Bool) (hs : s.wf = true) : (State.tdcSync s c was).wf =
    true := by
  first | (simp (maxDischargeDepth := 40) +contextual [hs, State.tdcSync]; done) | (simp only [State.tdcSync]; (repeat' split) <;> simp (maxDischargeDepth := 40) +contextual [hs])

@[simp] theorem State.setPass_wf (s : State) (d : Nat) (p : PassSt) (hs : s.wf = true) : (State.setPass s d p).wf =
    true := by
  first | (simp (maxDischargeDepth := 40) +contextual [hs, State.setPass]; done) | (simp only [State.setPass]; (repeat' split) <;> simp (maxDischargeDepth := 40) +contextual [hs])

@[simp] theorem State.passLend_wf (s : State) (d : Nat) (lent : Bool) (hs : s.wf = true) : (State.passLend s d
    lent).wf = true := by
  first | (simp (maxDischargeDepth := 40) +contextual [hs, State.passLend]; done) | (simp only [State.passLend]; (repeat' split) <;> simp (maxDischargeDepth := 40) +contextual [hs])

@[simp] theorem State.passIdle_wf (d : Nat) (s : State) (hs : s.wf = true) : (State.passIdle d s).wf = true := by
  first | (simp (maxDischargeDepth := 40) +contextual [hs, State.passIdle]; done) | (simp only [State.passIdle]; (repeat' split) <;> simp (maxDischargeDepth := 40) +contextual [hs])

@[simp] theorem State.passStart_wf (s : State) (d : Nat) (c : Nat) (hs : s.wf = true) : (State.passStart s d c).wf =
    true := by
  first | (simp (maxDischargeDepth := 40) +contextual [hs, State.passStart]; done) | (simp only [State.passStart]; (repeat' split) <;> simp (maxDischargeDepth := 40) +contextual [hs])

@[simp] theorem State.passOver_wf (s : State) (d : Nat) (c : Nat) (hs : s.wf = true) : (State.passOver s d c).wf =
    true := by
  first | (simp (maxDischargeDepth := 40) +contextual [hs, State.passOver]; done) | (simp only [State.passOver]; (repeat' split) <;> simp (maxDischargeDepth := 40) +contextual [hs])

@[simp] theorem State.passDrop_wf (d : Nat) (s : State) (hs : s.wf = true) : (State.passDrop d s).wf = true := by
  first | (simp (maxDischargeDepth := 40) +contextual [hs, State.passDrop]; done) | (simp only [State.passDrop]; (repeat' split) <;> simp (maxDischargeDepth := 40) +contextual [hs])

@[simp] theorem State.passesDrop_wf (s : State) (hs : s.wf = true) : (State.passesDrop s).wf = true := by
  first | (simp (maxDischargeDepth := 40) +contextual [hs, State.passesDrop]; done) | (simp only [State.passesDrop]; (repeat' split) <;> simp (maxDischargeDepth := 40) +contextual [hs])

@[simp] theorem State.liveGroups_wf (c : Nat) (p : PassSt) (x : Derived) (ds : List Int) (x1 : List Nat) (x2 : State)
    (x3 : Coef) (x4 : Bool) (hs : x2.wf = true) : (State.liveGroups c p x ds x1 x2 x3 x4).1.wf = true := by
  induction x1 generalizing x2 x3 x4 with
  | nil => exact hs
  | cons g gs ih =>
    unfold State.liveGroups
    dsimp only
    (repeat' split) <;> apply ih <;> simp [hs]

@[simp] theorem State.passEnd_wf (s : State) (d : Nat) (p : PassSt) (m : ChanMeas) (hs : s.wf = true) : (State.passEnd
    s d p m).wf = true := by
  first | (simp (maxDischargeDepth := 40) +contextual [hs, State.passEnd]; done) | (simp only [State.passEnd]; (repeat' split) <;> simp (maxDischargeDepth := 40) +contextual [hs])

@[simp] theorem State.fullStart_wf (s : State) (hs : s.wf = true) : (State.fullStart s).wf = true := by
  first | (simp (maxDischargeDepth := 40) +contextual [hs, State.fullStart]; done) | (simp only [State.fullStart]; (repeat' split) <;> simp (maxDischargeDepth := 40) +contextual [hs])

@[simp] theorem State.fullAbort_wf (s : State) (hs : s.wf = true) : (State.fullAbort s).wf = true := by
  first | (simp (maxDischargeDepth := 40) +contextual [hs, State.fullAbort]; done) | (simp only [State.fullAbort]; (repeat' split) <;> simp (maxDischargeDepth := 40) +contextual [hs])

@[simp] theorem State.fullGroups_wf (f : FullMeas) (x : Derived) (fits : List (Prod Int Int)) (k0 : Coef) (x1 : List
    Nat) (x2 : State) (x3 : Coef) (x4 : Nat) (hs : x2.wf = true) : (State.fullGroups f x fits k0 x1 x2 x3 x4).1.wf =
    true := by
  fun_induction State.fullGroups f x fits k0 x1 x2 x3 x4 <;> simp_all (maxDischargeDepth := 40) +zetaDelta

@[simp] theorem State.fullChan_wf (s : State) (f : FullMeas) (hs : s.wf = true) : (State.fullChan s f).1.wf = true :=
    by
  first | (simp (maxDischargeDepth := 40) +contextual [hs, State.fullChan]; done) | (simp only [State.fullChan]; (repeat' split) <;> simp (maxDischargeDepth := 40) +contextual [hs])

@[simp] theorem State.fullAll_wf (x1 : List FullMeas) (x2 : State) (x3 : Nat) (hs : x2.wf = true) : (State.fullAll x1
    x2 x3).1.wf = true := by
  fun_induction State.fullAll x1 x2 x3 <;> simp_all (maxDischargeDepth := 40) +zetaDelta

@[simp] theorem State.stagedDrop_wf (s : State) (hs : s.wf = true) : (State.stagedDrop s).wf = true := by
  first | (simp (maxDischargeDepth := 40) +contextual [hs, State.stagedDrop]; done) | (simp only [State.stagedDrop]; (repeat' split) <;> simp (maxDischargeDepth := 40) +contextual [hs])

@[simp] theorem State.calEnd_wf (s : State) (hs : s.wf = true) : (State.calEnd s).wf = true := by
  first | (simp (maxDischargeDepth := 40) +contextual [hs, State.calEnd]; done) | (simp only [State.calEnd]; (repeat' split) <;> simp (maxDischargeDepth := 40) +contextual [hs])

@[simp] theorem State.symReserved_wf (s : State) (n : Nat) (c : Nat) (ks : List SymCode) (hs : s.wf = true) :
    (State.symReserved s n c ks).wf = true := by
  first | (simp (maxDischargeDepth := 40) +contextual [hs, State.symReserved]; done) | (simp only [State.symReserved]; (repeat' split) <;> simp (maxDischargeDepth := 40) +contextual [hs])

@[simp] theorem State.chanVector_wf (n : Nat) (slice : Nat) (v : Vec) (c : Nat) (s : State) (hs : s.wf = true) :
    (State.chanVector n slice v c s).wf = true := by
  first | (simp (maxDischargeDepth := 40) +contextual [hs, State.chanVector]; done) | (simp only [State.chanVector]; (repeat' split) <;> simp (maxDischargeDepth := 40) +contextual [hs])

@[simp] theorem State.addPin_wf (s : State) (d : Nat) (p : PinVec) (hs : s.wf = true) : (State.addPin s d p).wf = true
    := by
  first | (simp (maxDischargeDepth := 40) +contextual [hs, State.addPin]; done) | (simp only [State.addPin]; (repeat' split) <;> simp (maxDischargeDepth := 40) +contextual [hs])

@[simp] theorem State.lend_wf (s : State) (n : Nat) (d : Nat) (v : Vec) (syms : List (List Nat)) (hs : s.wf = true) :
    (State.lend s n d v syms).2.wf = true := by
  first | (simp (maxDischargeDepth := 40) +contextual [hs, State.lend]; done) | (simp only [State.lend]; (repeat' split) <;> simp (maxDischargeDepth := 40) +contextual [hs])

@[simp] theorem State.driveEdge_wf (s : State) (c : Nat) (p : PinVec) (y : Nat) (e : Nat) (hs : s.wf = true) :
    (State.driveEdge s c p y e).wf = true := by
  first | (simp (maxDischargeDepth := 40) +contextual [hs, State.driveEdge]; done) | (simp only [State.driveEdge]; (repeat' split) <;> simp (maxDischargeDepth := 40) +contextual [hs])

@[simp] theorem State.serialUi_wf (s : State) (c : Nat) (y : Nat) (hs : s.wf = true) : (State.serialUi s c y).wf =
    true := by
  first | (simp (maxDischargeDepth := 40) +contextual [hs, State.serialUi]; done) | (simp only [State.serialUi]; (repeat' split) <;> simp (maxDischargeDepth := 40) +contextual [hs])

@[simp] theorem State.driveCheck_wf (s : State) (c : Nat) (hs : s.wf = true) : (State.driveCheck s c).wf = true := by
  first | (simp (maxDischargeDepth := 40) +contextual [hs, State.driveCheck]; done) | (simp only [State.driveCheck]; (repeat' split) <;> simp (maxDischargeDepth := 40) +contextual [hs])

@[simp] theorem State.setPin_wf (s : State) (d : Nat) (cyc : Nat) (f : PinVec → PinVec) (hs : s.wf = true) :
    (State.setPin s d cyc f).wf = true := by
  first | (simp (maxDischargeDepth := 40) +contextual [hs, State.setPin]; done) | (simp only [State.setPin]; (repeat' split) <;> simp (maxDischargeDepth := 40) +contextual [hs])

@[simp] theorem State.sample_wf (s : State) (c : Nat) (p : PinVec) (u : Nat) (y : Nat) (low : Bool) (bit : Bool) (t :
    Nat) (hs : s.wf = true) : (State.sample s c p u y low bit t).wf = true := by
  first | (simp (maxDischargeDepth := 40) +contextual [hs, State.sample]; done) | (simp only [State.sample]; (repeat' split) <;> simp (maxDischargeDepth := 40) +contextual [hs])

@[simp] theorem State.vecAtPins_wf (s : State) (n : Nat) (v : Vec) (hs : s.wf = true) : (State.vecAtPins s n v).wf =
    true := by
  first | (simp (maxDischargeDepth := 40) +contextual [hs, State.vecAtPins]; done) | (simp only [State.vecAtPins]; (repeat' split) <;> simp (maxDischargeDepth := 40) +contextual [hs])

@[simp] theorem State.placed_wf (s : State) (n : Nat) (t : Nat) (k : State → State) (hk : ∀ x, x.wf = true → (k x).wf
    = true) (hs : s.wf = true) : (State.placed s n t k).wf = true := by
  first | (simp (maxDischargeDepth := 40) +contextual [hs, hk, State.placed]; done) | (simp only [State.placed]; (repeat' split) <;> simp (maxDischargeDepth := 40) +contextual [hs, hk])

@[simp] theorem State.joinResults_wf (s : State) (n : Nat) (d : Nat) (p : PinVec) (due : List (Prod Nat Nat)) (res :
    List (Prod Nat Nat)) (whole : Bool) (hs : s.wf = true) : (State.joinResults s n d p due res whole).wf = true := by
  first | (simp (maxDischargeDepth := 40) +contextual [hs, State.joinResults]; done) | (simp only [State.joinResults]; (repeat' split) <;> simp (maxDischargeDepth := 40) +contextual [hs])

@[simp] theorem State.setWord_wf (s : State) (g : Nat) (i : Nat) (hs : s.wf = true) : (State.setWord s g i).wf = true
    := by
  first | (simp (maxDischargeDepth := 40) +contextual [hs, State.setWord]; done) | (simp only [State.setWord]; (repeat' split) <;> simp (maxDischargeDepth := 40) +contextual [hs])

@[simp] theorem State.mapEcc_wf (s : State) (n : Nat) (g : Nat) (v : Vec) (fs : List FailCmp) (ue : Bool) (hs : s.wf =
    true) : (State.mapEcc s n g v fs ue).1.wf = true := by
  first | (simp (maxDischargeDepth := 40) +contextual [hs, State.mapEcc]; done) | (simp only [State.mapEcc]; (repeat' split) <;> simp (maxDischargeDepth := 40) +contextual [hs])

@[simp] theorem State.countRing_wf (s : State) (n : Nat) (g : Nat) (fs : List FailCmp) (hs : s.wf = true) :
    (State.countRing s n g fs).wf = true := by
  first | (simp (maxDischargeDepth := 40) +contextual [hs, State.countRing]; done) | (simp only [State.countRing]; (repeat' split) <;> simp (maxDischargeDepth := 40) +contextual [hs])

@[simp] theorem State.markRing_wf (s : State) (g : Nat) (fs : List FailCmp) (unm : Bool) (hs : s.wf = true) :
    (State.markRing s g fs unm).wf = true := by
  first | (simp (maxDischargeDepth := 40) +contextual [hs, State.markRing]; done) | (simp only [State.markRing]; (repeat' split) <;> simp (maxDischargeDepth := 40) +contextual [hs])

@[simp] theorem State.recordFails_wf (s : State) (n : Nat) (g : Nat) (v : Vec) (fs : List FailCmp) (ue : Bool) (hs :
    s.wf = true) : (State.recordFails s n g v fs ue).1.wf = true := by
  first | (simp (maxDischargeDepth := 40) +contextual [hs, State.recordFails]; done) | (simp only [State.recordFails]; (repeat' split) <;> simp (maxDischargeDepth := 40) +contextual [hs])

@[simp] theorem State.recordRing_wf (s : State) (n : Nat) (g : Nat) (v : Vec) (fs : List FailCmp) (ue : Bool) (hs :
    s.wf = true) : (State.recordRing s n g v fs ue).1.wf = true := by
  first | (simp (maxDischargeDepth := 40) +contextual [hs, State.recordRing]; done) | (simp only [State.recordRing]; (repeat' split) <;> simp (maxDischargeDepth := 40) +contextual [hs])

@[simp] theorem State.trialResult_wf (s : State) (n : Nat) (i : Nat) (f : Flight) (hs : s.wf = true) :
    (State.trialResult s n i f).wf = true := by
  first | (simp (maxDischargeDepth := 40) +contextual [hs, State.trialResult]; done) | (simp only [State.trialResult]; (repeat' split) <;> simp (maxDischargeDepth := 40) +contextual [hs])

@[simp] theorem State.recordRings_wf (n : Nat) (v : Vec) (fs : List FailCmp) (x1 : List Nat) (x2 : Prod State Bool)
    (hs : x2.1.wf = true) : (State.recordRings n v fs x1 x2).1.wf = true := by
  fun_induction State.recordRings n v fs x1 x2 <;> simp_all (maxDischargeDepth := 40) +zetaDelta

@[simp] theorem State.processVec_wf (s : State) (n : Nat) (f : Flight) (ue : Bool) (hs : s.wf = true) :
    (State.processVec s n f ue).1.wf = true := by
  first | (simp (maxDischargeDepth := 40) +contextual [hs, State.processVec]; done) | (simp only [State.processVec]; (repeat' split) <;> simp (maxDischargeDepth := 40) +contextual [hs])

@[simp] theorem State.processLine_wf (n : Nat) (x1 : Nat) (x2 : Prod State Bool) (hs : x2.1.wf = true) :
    (State.processLine n x1 x2).1.wf = true := by
  fun_induction State.processLine n x1 x2 <;> simp_all (maxDischargeDepth := 40) +zetaDelta

@[simp] theorem State.returnResults_wf (s : State) (n : Nat) (d : Nat) (p : PinVec) (sel : Nat → Bool) (ok : Bool) (ue
    : Bool) (hs : s.wf = true) : (State.returnResults s n d p sel ok ue).1.wf = true := by
  first | (simp (maxDischargeDepth := 40) +contextual [hs, State.returnResults]; done) | (simp only [State.returnResults]; (repeat' split) <;> simp (maxDischargeDepth := 40) +contextual [hs])

@[simp] theorem State.frameFields_wf (s : State) (d : Nat) (ok : Bool) (hs : s.wf = true) : (State.frameFields s d
    ok).wf = true := by
  first | (simp (maxDischargeDepth := 40) +contextual [hs, State.frameFields]; done) | (simp only [State.frameFields]; (repeat' split) <;> simp (maxDischargeDepth := 40) +contextual [hs])

@[simp] theorem State.flushPushes_wf (s : State) (hs : s.wf = true) : (State.flushPushes s).wf = true := by
  first | (simp (maxDischargeDepth := 40) +contextual [hs, State.flushPushes]; done) | (simp only [State.flushPushes]; (repeat' split) <;> simp (maxDischargeDepth := 40) +contextual [hs])

@[simp] theorem State.leaveRun_wf (s : State) (hs : s.wf = true) : (State.leaveRun s).wf = true := by
  first | (simp (maxDischargeDepth := 40) +contextual [hs, State.leaveRun]; done) | (simp only [State.leaveRun]; (repeat' split) <;> simp (maxDischargeDepth := 40) +contextual [hs])

@[simp] theorem State.actCleared_wf (s : State) (n : Nat) (hs : s.wf = true) : (State.actCleared s n).wf = true := by
  first | (simp (maxDischargeDepth := 40) +contextual [hs, State.actCleared]; done) | (simp only [State.actCleared]; (repeat' split) <;> simp (maxDischargeDepth := 40) +contextual [hs])

@[simp] theorem State.stopReport_wf (s : State) (n : Nat) (t : Nat) (c : Nat) (reason : Nat) (hs : s.wf = true) :
    (State.stopReport s n t c reason).wf = true := by
  first | (simp (maxDischargeDepth := 40) +contextual [hs, State.stopReport]; done) | (simp only [State.stopReport]; (repeat' split) <;> simp (maxDischargeDepth := 40) +contextual [hs])

@[simp] theorem State.flushEvts_wf (d : Nat) (s : State) (hs : s.wf = true) : (State.flushEvts d s).wf = true := by
  first | (simp (maxDischargeDepth := 40) +contextual [hs, State.flushEvts]; done) | (simp only [State.flushEvts]; (repeat' split) <;> simp (maxDischargeDepth := 40) +contextual [hs])

@[simp] theorem State.actStop_wf (s : State) (n : Nat) (t : Nat) (c : Nat) (reason : Nat) (hs : s.wf = true) :
    (State.actStop s n t c reason).wf = true := by
  first | (simp (maxDischargeDepth := 40) +contextual [hs, State.actStop]; done) | (simp only [State.actStop]; (repeat' split) <;> simp (maxDischargeDepth := 40) +contextual [hs])

@[simp] theorem State.drainDie_wf (n : Nat) (d : Nat) (s : State) (hs : s.wf = true) : (State.drainDie n d s).wf =
    true := by
  first | (simp (maxDischargeDepth := 40) +contextual [hs, State.drainDie]; done) | (simp only [State.drainDie]; (repeat' split) <;> simp (maxDischargeDepth := 40) +contextual [hs])

@[simp] theorem State.drainLine_wf (n : Nat) (x1 : Nat) (x2 : State) (hs : x2.wf = true) : (State.drainLine n x1
    x2).wf = true := by
  fun_induction State.drainLine n x1 x2 <;> simp_all (maxDischargeDepth := 40) +zetaDelta

@[simp] theorem State.stopNow_wf (reason : Nat) (n : Nat) (s : State) (hs : s.wf = true) : (State.stopNow reason n
    s).wf = true := by
  first | (simp (maxDischargeDepth := 40) +contextual [hs, State.stopNow]; done) | (simp only [State.stopNow]; (repeat' split) <;> simp (maxDischargeDepth := 40) +contextual [hs])

@[simp] theorem State.stopAll_wf (s : State) (reason : Nat) (hs : s.wf = true) : (State.stopAll s reason).wf = true :=
    by
  first | (simp (maxDischargeDepth := 40) +contextual [hs, State.stopAll]; done) | (simp only [State.stopAll]; (repeat' split) <;> simp (maxDischargeDepth := 40) +contextual [hs])

@[simp] theorem State.mixTorn_wf (x1 : Nat) (x2 : List Byte) (x3 : State) (hs : x3.wf = true) : (State.mixTorn x1 x2
    x3).2.wf = true := by
  fun_induction State.mixTorn x1 x2 x3 <;> simp_all (maxDischargeDepth := 40) +zetaDelta

@[simp] theorem State.flashRead_wf (s : State) (a : Nat) (n : Nat) (hs : s.wf = true) : (State.flashRead s a n).2.wf =
    true := by
  first | (simp (maxDischargeDepth := 40) +contextual [hs, State.flashRead]; done) | (simp only [State.flashRead]; (repeat' split) <;> simp (maxDischargeDepth := 40) +contextual [hs])

@[simp] theorem State.flashPut_wf (s : State) (a : Nat) (bs : List Byte) (hs : s.wf = true) : (State.flashPut s a
    bs).wf = true := by
  first | (simp (maxDischargeDepth := 40) +contextual [hs, State.flashPut]; done) | (simp only [State.flashPut]; (repeat' split) <;> simp (maxDischargeDepth := 40) +contextual [hs])

@[simp] theorem State.flashErase_wf (s : State) (a : Nat) (hs : s.wf = true) : (State.flashErase s a).wf = true := by
  first | (simp (maxDischargeDepth := 40) +contextual [hs, State.flashErase]; done) | (simp only [State.flashErase]; (repeat' split) <;> simp (maxDischargeDepth := 40) +contextual [hs])

@[simp] theorem State.tear_wf (s : State) (a : Nat) (bs : List Byte) (hs : s.wf = true) : (State.tear s a bs).wf =
    true := by
  first | (simp (maxDischargeDepth := 40) +contextual [hs, State.tear]; done) | (simp only [State.tear]; (repeat' split) <;> simp (maxDischargeDepth := 40) +contextual [hs])

@[simp] theorem State.setSlot_wf (s : State) (k : Nat) (reason : Nat) (hs : s.wf = true) : (State.setSlot s k
    reason).wf = true := by
  first | (simp (maxDischargeDepth := 40) +contextual [hs, State.setSlot]; done) | (simp only [State.setSlot]; (repeat' split) <;> simp (maxDischargeDepth := 40) +contextual [hs])

@[simp] theorem State.freeBytes_wf (x1 : Nat) (x2 : State) (hs : x2.wf = true) : (State.freeBytes x1 x2).2.wf = true
    := by
  fun_induction State.freeBytes x1 x2 <;> simp_all (maxDischargeDepth := 40) +zetaDelta

@[simp] theorem State.persistPage_wf (s : State) (evts : List EvtRec) (hs : s.wf = true) : (State.persistPage s
    evts).2.wf = true := by
  first | (simp (maxDischargeDepth := 40) +contextual [hs, State.persistPage]; done) | (simp only [State.persistPage]; (repeat' split) <;> simp (maxDischargeDepth := 40) +contextual [hs])

@[simp] theorem State.persistDue_wf (s : State) (hs : s.wf = true) : (State.persistDue s).wf = true := by
  first | (simp (maxDischargeDepth := 40) +contextual [hs, State.persistDue]; done) | (simp only [State.persistDue]; (repeat' split) <;> simp (maxDischargeDepth := 40) +contextual [hs])

@[simp] theorem State.startPersist_wf (s : State) (hs : s.wf = true) : (State.startPersist s).wf = true := by
  first | (simp (maxDischargeDepth := 40) +contextual [hs, State.startPersist]; done) | (simp only [State.startPersist]; (repeat' split) <;> simp (maxDischargeDepth := 40) +contextual [hs])

@[simp] theorem State.nvmFlags_wf (s : State) (hs : s.wf = true) : (State.nvmFlags s).wf = true := by
  first | (simp (maxDischargeDepth := 40) +contextual [hs, State.nvmFlags]; done) | (simp only [State.nvmFlags]; (repeat' split) <;> simp (maxDischargeDepth := 40) +contextual [hs])

@[simp] theorem State.persistKick_wf (s : State) (hs : s.wf = true) : (State.persistKick s).wf = true := by
  first | (simp (maxDischargeDepth := 40) +contextual [hs, State.persistKick]; done) | (simp only [State.persistKick]; (repeat' split) <;> simp (maxDischargeDepth := 40) +contextual [hs])

@[simp] theorem State.cmdKick_wf (s : State) (hs : s.wf = true) : (State.cmdKick s).wf = true := by
  first | (simp (maxDischargeDepth := 40) +contextual [hs, State.cmdKick]; done) | (simp only [State.cmdKick]; (repeat' split) <;> simp (maxDischargeDepth := 40) +contextual [hs])

@[simp] theorem State.nvmKick_wf (s : State) (hs : s.wf = true) : (State.nvmKick s).wf = true := by
  first | (simp (maxDischargeDepth := 40) +contextual [hs, State.nvmKick]; done) | (simp only [State.nvmKick]; (repeat' split) <;> simp (maxDischargeDepth := 40) +contextual [hs])

@[simp] theorem State.nvmSoil_wf (s : State) (op : Nat) (addr : Nat) (len : Nat) (slot : Nat) (hs : s.wf = true) :
    (State.nvmSoil s op addr len slot).wf = true := by
  first | (simp (maxDischargeDepth := 40) +contextual [hs, State.nvmSoil]; done) | (simp only [State.nvmSoil]; (repeat' split) <;> simp (maxDischargeDepth := 40) +contextual [hs])

@[simp] theorem State.nvmBegin_wf (s : State) (j : NvmJob) (hs : s.wf = true) : (State.nvmBegin s j).wf = true := by
  first | (simp (maxDischargeDepth := 40) +contextual [hs, State.nvmBegin]; done) | (simp only [State.nvmBegin]; (repeat' split) <;> simp (maxDischargeDepth := 40) +contextual [hs])

@[simp] theorem State.nvmCommand_wf (s : State) (op : Nat) (addr : Nat) (len : Nat) (slot : Nat) (src : NvmSrc)
    (signed_ : Bool) (hs : s.wf = true) : (State.nvmCommand s op addr len slot src signed_).wf = true := by
  first | (simp (maxDischargeDepth := 40) +contextual [hs, State.nvmCommand]; done) | (simp only [State.nvmCommand]; (repeat' split) <;> simp (maxDischargeDepth := 40) +contextual [hs])

@[simp] theorem State.nvmStep_wf (s : State) (op : Nat) (addr : Nat) (left : Nat) (host : Nat) (data : List Byte) (q :
    Nat) (id : Nat) (hs : s.wf = true) : (State.nvmStep s op addr left host data q id).wf = true := by
  first | (simp (maxDischargeDepth := 40) +contextual [hs, State.nvmStep]; done) | (simp only [State.nvmStep]; (repeat' split) <;> simp (maxDischargeDepth := 40) +contextual [hs])

@[simp] theorem State.nvmEnd_wf (s : State) (j : NvmJob) (r : Nat) (hs : s.wf = true) : (State.nvmEnd s j r).wf = true
    := by
  first | (simp (maxDischargeDepth := 40) +contextual [hs, State.nvmEnd]; done) | (simp only [State.nvmEnd]; (repeat' split) <;> simp (maxDischargeDepth := 40) +contextual [hs])

@[simp] theorem State.calStored_wf (s : State) (j : NvmJob) (hs : s.wf = true) : (State.calStored s j).wf = true := by
  first | (simp (maxDischargeDepth := 40) +contextual [hs, State.calStored]; done) | (simp only [State.calStored]; (repeat' split) <;> simp (maxDischargeDepth := 40) +contextual [hs])

@[simp] theorem State.nvmOk_wf (s : State) (j : NvmJob) (hs : s.wf = true) : (State.nvmOk s j).wf = true := by
  first | (simp (maxDischargeDepth := 40) +contextual [hs, State.nvmOk]; done) | (simp only [State.nvmOk]; (repeat' split) <;> simp (maxDischargeDepth := 40) +contextual [hs])

@[simp] theorem State.putDone_wf (s : State) (n : Nat) (hs : s.wf = true) : (State.putDone s n).wf = true := by
  first | (simp (maxDischargeDepth := 40) +contextual [hs, State.putDone]; done) | (simp only [State.putDone]; (repeat' split) <;> simp (maxDischargeDepth := 40) +contextual [hs])

@[simp] theorem State.nvmAdvance_wf (s : State) (j : NvmJob) (n : Nat) (hs : s.wf = true) : (State.nvmAdvance s j
    n).wf = true := by
  first | (simp (maxDischargeDepth := 40) +contextual [hs, State.nvmAdvance]; done) | (simp only [State.nvmAdvance]; (repeat' split) <;> simp (maxDischargeDepth := 40) +contextual [hs])

@[simp] theorem State.unitDone_wf (s : State) (u : FlashUnit) (ok : Bool) (hs : s.wf = true) : (State.unitDone s u
    ok).wf = true := by
  first | (simp (maxDischargeDepth := 40) +contextual [hs, State.unitDone]; done) | (simp only [State.unitDone]; (repeat' split) <;> simp (maxDischargeDepth := 40) +contextual [hs])

@[simp] theorem State.wiped1_wf (s : State) (a : Nat) (ok : Bool) (hs : s.wf = true) : (State.wiped1 s a ok).wf = true
    := by
  first | (simp (maxDischargeDepth := 40) +contextual [hs, State.wiped1]; done) | (simp only [State.wiped1]; (repeat' split) <;> simp (maxDischargeDepth := 40) +contextual [hs])

@[simp] theorem State.persistFailed_wf (s : State) (bs : List Byte) (evts : List EvtRec) (hs : s.wf = true) :
    (State.persistFailed s bs evts).wf = true := by
  first | (simp (maxDischargeDepth := 40) +contextual [hs, State.persistFailed]; done) | (simp only [State.persistFailed]; (repeat' split) <;> simp (maxDischargeDepth := 40) +contextual [hs])

@[simp] theorem State.persistOn_wf (s : State) (hs : s.wf = true) : (State.persistOn s).wf = true := by
  first | (simp (maxDischargeDepth := 40) +contextual [hs, State.persistOn]; done) | (simp only [State.persistOn]; (repeat' split) <;> simp (maxDischargeDepth := 40) +contextual [hs])

@[simp] theorem State.bufferEcc_wf (s : State) (u : FlashUnit) (ecc : Ecc) (hs : s.wf = true) : (State.bufferEcc s u
    ecc).2.wf = true := by
  first | (simp (maxDischargeDepth := 40) +contextual [hs, State.bufferEcc]; done) | (simp only [State.bufferEcc]; (repeat' split) <;> simp (maxDischargeDepth := 40) +contextual [hs])

@[simp] theorem State.unitEnd_wf (s : State) (u : FlashUnit) (ok : Bool) (hs : s.wf = true) : (State.unitEnd s u
    ok).wf = true := by
  first | (simp (maxDischargeDepth := 40) +contextual [hs, State.unitEnd]; done) | (simp only [State.unitEnd]; (repeat' split) <;> simp (maxDischargeDepth := 40) +contextual [hs])

@[simp] theorem State.tearUnit_wf (s : State) (hs : s.wf = true) : (State.tearUnit s).wf = true := by
  first | (simp (maxDischargeDepth := 40) +contextual [hs, State.tearUnit]; done) | (simp only [State.tearUnit]; (repeat' split) <;> simp (maxDischargeDepth := 40) +contextual [hs])

@[simp] theorem State.dropErase_wf (s : State) (hs : s.wf = true) : (State.dropErase s).wf = true := by
  first | (simp (maxDischargeDepth := 40) +contextual [hs, State.dropErase]; done) | (simp only [State.dropErase]; (repeat' split) <;> simp (maxDischargeDepth := 40) +contextual [hs])

@[simp] theorem State.writeNvmCmd_wf (s : State) (v : Word) (hs : s.wf = true) : (State.writeNvmCmd s v).wf = true :=
    by
  first | (simp (maxDischargeDepth := 40) +contextual [hs, State.writeNvmCmd]; done) | (simp only [State.writeNvmCmd]; (repeat' split) <;> simp (maxDischargeDepth := 40) +contextual [hs])

@[simp] theorem State.lcDebug_wf (s : State) (hs : s.wf = true) : (State.lcDebug s).wf = true := by
  first | (simp (maxDischargeDepth := 40) +contextual [hs, State.lcDebug]; done) | (simp only [State.lcDebug]; (repeat' split) <;> simp (maxDischargeDepth := 40) +contextual [hs])

@[simp] theorem State.lcRefresh_wf (s : State) (hs : s.wf = true) : (State.lcRefresh s).wf = true := by
  first | (simp (maxDischargeDepth := 40) +contextual [hs, State.lcRefresh]; done) | (simp only [State.lcRefresh]; (repeat' split) <;> simp (maxDischargeDepth := 40) +contextual [hs])

@[simp] theorem State.newNonce_wf (s : State) (hs : s.wf = true) : (State.newNonce s).wf = true := by
  first | (simp (maxDischargeDepth := 40) +contextual [hs, State.newNonce]; done) | (simp only [State.newNonce]; (repeat' split) <;> simp (maxDischargeDepth := 40) +contextual [hs])

@[simp] theorem State.updateCold_wf (s : State) (hs : s.wf = true) : (State.updateCold s).wf = true := by
  first | (simp (maxDischargeDepth := 40) +contextual [hs, State.updateCold]; done) | (simp only [State.updateCold]; (repeat' split) <;> simp (maxDischargeDepth := 40) +contextual [hs])

@[simp] theorem State.selectSource_wf (s : State) (hs : s.wf = true) : (State.selectSource s).wf = true := by
  first | (simp (maxDischargeDepth := 40) +contextual [hs, State.selectSource]; done) | (simp only [State.selectSource]; (repeat' split) <;> simp (maxDischargeDepth := 40) +contextual [hs])

@[simp] theorem State.discipline_wf (s : State) (hs : s.wf = true) : (State.discipline s).wf = true := by
  first | (simp (maxDischargeDepth := 40) +contextual [hs, State.discipline]; done) | (simp only [State.discipline]; (repeat' split) <;> simp (maxDischargeDepth := 40) +contextual [hs])

@[simp] theorem State.rootLost_wf (s : State) (hs : s.wf = true) : (State.rootLost s).wf = true := by
  first | (simp (maxDischargeDepth := 40) +contextual [hs, State.rootLost]; done) | (simp only [State.rootLost]; (repeat' split) <;> simp (maxDischargeDepth := 40) +contextual [hs])

@[simp] theorem State.acquire_wf (s : State) (hs : s.wf = true) : (State.acquire s).wf = true := by
  first | (simp (maxDischargeDepth := 40) +contextual [hs, State.acquire]; done) | (simp only [State.acquire]; (repeat' split) <;> simp (maxDischargeDepth := 40) +contextual [hs])

@[simp] theorem State.syncAgain_wf (s : State) (hs : s.wf = true) : (State.syncAgain s).wf = true := by
  first | (simp (maxDischargeDepth := 40) +contextual [hs, State.syncAgain]; done) | (simp only [State.syncAgain]; (repeat' split) <;> simp (maxDischargeDepth := 40) +contextual [hs])

@[simp] theorem State.recordFault_wf (s : State) (code : Nat) (unit : Nat) (detail : Nat) (hs : s.wf = true) :
    (State.recordFault s code unit detail).wf = true := by
  first | (simp (maxDischargeDepth := 40) +contextual [hs, State.recordFault]; done) | (simp only [State.recordFault]; (repeat' split) <;> simp (maxDischargeDepth := 40) +contextual [hs])

@[simp] theorem State.endService_wf (s : State) (hs : s.wf = true) : (State.endService s).wf = true := by
  first | (simp (maxDischargeDepth := 40) +contextual [hs, State.endService]; done) | (simp only [State.endService]; (repeat' split) <;> simp (maxDischargeDepth := 40) +contextual [hs])

@[simp] theorem State.coreOff_wf (s : State) (hs : s.wf = true) : (State.coreOff s).wf = true := by
  rw [State.wf_iff] at hs ⊢
  obtain ⟨⟨⟨⟨⟨⟨h1, -⟩, h3⟩, h4⟩, h5⟩, h6⟩, h7⟩ := hs
  exact ⟨⟨⟨⟨⟨⟨h1, rfl⟩, h3⟩, h4⟩, h5⟩, h6⟩, (Tab.wf_filter _ _ h7).1⟩

@[simp] theorem State.safeEntry_wf (s : State) (hs : s.wf = true) : (State.safeEntry s).wf = true := by
  first | (simp (maxDischargeDepth := 40) +contextual [hs, State.safeEntry]; done) | (simp only [State.safeEntry]; (repeat' split) <;> simp (maxDischargeDepth := 40) +contextual [hs])

@[simp] theorem State.fatal_wf (s : State) (code : Nat) (unit : Nat) (detail : Nat) (hs : s.wf = true) : (State.fatal
    s code unit detail).wf = true := by
  first | (simp (maxDischargeDepth := 40) +contextual [hs, State.fatal]; done) | (simp only [State.fatal]; (repeat' split) <;> simp (maxDischargeDepth := 40) +contextual [hs])

@[simp] theorem State.keepStatus_wf (s : State) (old : State) (hs : s.wf = true) : (State.keepStatus s old).wf = true
    := by
  first | (simp (maxDischargeDepth := 40) +contextual [hs, State.keepStatus]; done) | (simp only [State.keepStatus]; (repeat' split) <;> simp (maxDischargeDepth := 40) +contextual [hs])

@[simp] theorem State.wiped_wf (s : State) (hs : s.wf = true) : (State.wiped s).wf = true := by
  rw [State.wf_iff] at hs ⊢
  obtain ⟨h, h7⟩ := hs
  exact ⟨h, (Tab.wf_filter _ _ h7).1⟩

@[simp] theorem State.journalNew_wf (s : State) (hs : s.wf = true) : (State.journalNew s).wf = true := by
  first | (simp (maxDischargeDepth := 40) +contextual [hs, State.journalNew]; done) | (simp only [State.journalNew]; (repeat' split) <;> simp (maxDischargeDepth := 40) +contextual [hs])

@[simp] theorem State.freshen_wf (s : State) (hs : s.wf = true) : (State.freshen s).wf = true := by
  first | (simp (maxDischargeDepth := 40) +contextual [hs, State.freshen]; done) | (simp only [State.freshen]; (repeat' split) <;> simp (maxDischargeDepth := 40) +contextual [hs])

@[simp] theorem State.bootCheck_wf (s : State) (hs : s.wf = true) : (State.bootCheck s).wf = true := by
  first | (simp (maxDischargeDepth := 40) +contextual [hs, State.bootCheck]; done) | (simp only [State.bootCheck]; (repeat' split) <;> simp (maxDischargeDepth := 40) +contextual [hs])

@[simp] theorem State.resetBoot_wf (s : State) (hs : s.wf = true) : (State.resetBoot s).wf = true := by
  first | (simp (maxDischargeDepth := 40) +contextual [hs, State.resetBoot]; done) | (simp only [State.resetBoot]; (repeat' split) <;> simp (maxDischargeDepth := 40) +contextual [hs])

@[simp] theorem State.domainsOff_wf (s : State) (hs : s.wf = true) : (State.domainsOff s).wf = true := by
  have h := State.coreOff_wf s.discipline (State.discipline_wf s hs)
  unfold State.domainsOff
  refine State.put_wf _ _ _ (State.put_wf _ _ _ (State.put_wf _ _ _ ?_))
  rw [State.wf_iff] at h ⊢
  obtain ⟨⟨⟨⟨⟨⟨-, h2⟩, h3⟩, h4⟩, h5⟩, h6⟩, h7⟩ := h
  exact ⟨⟨⟨⟨⟨⟨rfl, h2⟩, h3⟩, h4⟩, h5⟩, h6⟩, (Tab.wf_filter _ _ h7).1⟩

@[simp] theorem State.shedding_wf (s : State) (why : Shed) (hs : s.wf = true) : (State.shedding s why).wf = true := by
  unfold State.shedding; split
  · exact hs
  · cases why <;> simp (maxDischargeDepth := 40) [hs]

@[simp] theorem State.off_wf (s : State) (hs : s.wf = true) : (State.off s).wf = true := by
  rw [State.wf_iff] at hs ⊢
  obtain ⟨⟨⟨⟨⟨⟨-, -⟩, -⟩, -⟩, h5⟩, h6⟩, -⟩ := hs
  exact ⟨⟨⟨⟨⟨⟨rfl, rfl⟩, rfl⟩, rfl⟩, h5⟩, h6⟩, rfl⟩

@[simp] theorem State.orphan_wf (s : State) (hs : s.wf = true) : (State.orphan s).wf = true := by
  first | (simp (maxDischargeDepth := 40) +contextual [hs, State.orphan]; done) | (simp only [State.orphan]; (repeat' split) <;> simp (maxDischargeDepth := 40) +contextual [hs])

@[simp] theorem State.enterCal_wf (s : State) (hs : s.wf = true) : (State.enterCal s).wf = true := by
  first | (simp (maxDischargeDepth := 40) +contextual [hs, State.enterCal]; done) | (simp only [State.enterCal]; (repeat' split) <;> simp (maxDischargeDepth := 40) +contextual [hs])

@[simp] theorem State.leaveCal_wf (s : State) (hs : s.wf = true) : (State.leaveCal s).wf = true := by
  first | (simp (maxDischargeDepth := 40) +contextual [hs, State.leaveCal]; done) | (simp only [State.leaveCal]; (repeat' split) <;> simp (maxDischargeDepth := 40) +contextual [hs])

@[simp] theorem State.modeRequest_wf (s : State) (req : Nat) (hs : s.wf = true) : (State.modeRequest s req).wf = true
    := by
  first | (simp (maxDischargeDepth := 40) +contextual [hs, State.modeRequest]; done) | (simp only [State.modeRequest]; (repeat' split) <;> simp (maxDischargeDepth := 40) +contextual [hs])

@[simp] theorem State.writeModeReq_wf (s : State) (v : Word) (hs : s.wf = true) : (State.writeModeReq s v).wf = true
    := by
  first | (simp (maxDischargeDepth := 40) +contextual [hs, State.writeModeReq]; done) | (simp only [State.writeModeReq]; (repeat' split) <;> simp (maxDischargeDepth := 40) +contextual [hs])

end Sys2Proof.Machine
end

