-- ==== Sys2Proof/Laws/Memory.lean ====
section
/-! SUPPORT. Laws of the memories: a byte after bytes are written, and after a sector or a range is cleared; the canonical
form at reset. -/

namespace Sys2Proof.Machine

set_option linter.unusedTactic false
set_option linter.unreachableTactic false
set_option linter.unnecessarySeqFocus false
set_option linter.unusedSimpArgs false

/-- Bytes written read back. -/
theorem State.dramAt_dramPut_in (s : State) {a j : Nat} (bs : List Byte) (h1 : a ≤ j) (h2 : j < a + bs.length) :
    (s.dramPut a bs).dramAt j = bs.getD (j - a) (ramByte j) := by
  simp only [State.dramAt, State.dramPut, State.withDram_dram]
  exact Tab.get_splice_in bs _ h1 h2

/-- Every other byte reads as before. -/
theorem State.dramAt_dramPut_out (s : State) {a j : Nat} (bs : List Byte) (h : j < a ∨ a + bs.length ≤ j) :
    (s.dramPut a bs).dramAt j = s.dramAt j := by
  simp only [State.dramAt, State.dramPut, State.withDram_dram]
  exact Tab.get_splice_out bs _ h

/-- Bytes written read back. -/
theorem State.bankAt_bankPut_in (s : State) {a j : Nat} (bs : List Byte) (h1 : a ≤ j) (h2 : j < a + bs.length) :
    (s.bankPut a bs).bankAt j = bs.getD (j - a) (ramByte j) := by
  simp only [State.bankAt, State.bankPut, State.withBanks_banks]
  exact Tab.get_splice_in bs _ h1 h2

/-- Every other byte reads as before. -/
theorem State.bankAt_bankPut_out (s : State) {a j : Nat} (bs : List Byte) (h : j < a ∨ a + bs.length ≤ j) :
    (s.bankPut a bs).bankAt j = s.bankAt j := by
  simp only [State.bankAt, State.bankPut, State.withBanks_banks]
  exact Tab.get_splice_out bs _ h

/-- Bytes written read back. -/
theorem State.poolAt_poolPut_in (s : State) {a j : Nat} (bs : List Byte) (h1 : a ≤ j) (h2 : j < a + bs.length) :
    (s.poolPut a bs).poolAt j = bs.getD (j - a) (ramByte j) := by
  simp only [State.poolAt, State.poolPut, State.withPool_pool]
  exact Tab.get_splice_in bs _ h1 h2

/-- Every other byte reads as before. -/
theorem State.poolAt_poolPut_out (s : State) {a j : Nat} (bs : List Byte) (h : j < a ∨ a + bs.length ≤ j) :
    (s.poolPut a bs).poolAt j = s.poolAt j := by
  simp only [State.poolAt, State.poolPut, State.withPool_pool]
  exact Tab.get_splice_out bs _ h

/-- Bytes written read back. -/
theorem State.mboxAt_mboxPut_in (s : State) {a j : Nat} (bs : List Byte) (h1 : a ≤ j) (h2 : j < a + bs.length) :
    (s.mboxPut a bs).mboxAt j = bs.getD (j - a) (ramByte j) := by
  simp only [State.mboxAt, State.mboxPut, State.withMailbox_mailbox]
  exact Tab.get_splice_in bs _ h1 h2

/-- Every other byte reads as before. -/
theorem State.mboxAt_mboxPut_out (s : State) {a j : Nat} (bs : List Byte) (h : j < a ∨ a + bs.length ≤ j) :
    (s.mboxPut a bs).mboxAt j = s.mboxAt j := by
  simp only [State.mboxAt, State.mboxPut, State.withMailbox_mailbox]
  exact Tab.get_splice_out bs _ h

/-- Bytes written read back. -/
theorem State.hostAt_hostPut_in (s : State) {a j : Nat} (bs : List Byte) (h1 : a ≤ j) (h2 : j < a + bs.length) :
    (s.hostPut a bs).hostAt j = bs.getD (j - a) (ramByte j) := by
  simp only [State.hostAt, State.hostPut, State.withHostMem_hostMem]
  exact Tab.get_splice_in bs _ h1 h2

/-- Every other byte reads as before. -/
theorem State.hostAt_hostPut_out (s : State) {a j : Nat} (bs : List Byte) (h : j < a ∨ a + bs.length ≤ j) :
    (s.hostPut a bs).hostAt j = s.hostAt j := by
  simp only [State.hostAt, State.hostPut, State.withHostMem_hostMem]
  exact Tab.get_splice_out bs _ h

/-- Bytes written read back. -/
theorem State.flashAt_flashPut_in (s : State) {a j : Nat} (bs : List Byte) (h1 : a ≤ j) (h2 : j < a + bs.length) :
    (s.flashPut a bs).flashAt j = bs.getD (j - a) (flashByte j) := by
  simp only [State.flashAt, State.flashPut, State.withFlash_flash]
  exact Tab.get_splice_in bs _ h1 h2

/-- Every other byte reads as before. -/
theorem State.flashAt_flashPut_out (s : State) {a j : Nat} (bs : List Byte) (h : j < a ∨ a + bs.length ≤ j) :
    (s.flashPut a bs).flashAt j = s.flashAt j := by
  simp only [State.flashAt, State.flashPut, State.withFlash_flash]
  exact Tab.get_splice_out bs _ h

/-- An erased sector reads 0xFF; every other byte of the flash reads as before. -/
theorem State.flashAt_flashErase (s : State) (a j : Nat) :
    (s.flashErase a).flashAt j = if a ≤ j ∧ j < a + sectorSize then 0xFF else s.flashAt j := by
  simp only [State.flashAt, State.flashErase, State.withTorn_others, State.withFlash_flash, Tab.get_clearRange,
    flashByte]

/-- The canonical form holds at reset. -/
theorem State.reset_wf : State.reset.wf = true := by decide

end Sys2Proof.Machine
end

