-- ==== Sys2Proof/Laws/Regs.lean ====
section
/-! SUPPORT. Laws of the register file: a register or a field after a write of it or of another one, and which registers
an interrupt, an event and a mode change may write. -/

namespace Sys2Proof.Machine

set_option linter.unusedTactic false
set_option linter.unreachableTactic false
set_option linter.unnecessarySeqFocus false
set_option linter.unusedSimpArgs false

variable (s : State)

@[simp] theorem ite_regs (c : Prop) [Decidable c] (a b : State) :
    (if c then a else b).regs = if c then a.regs else b.regs := by
  split <;> rfl

/-- A register is read from the register file alone. -/
theorem State.reg_congr {s t : State} (h : t.regs = s.regs) (a : Nat) : t.reg a = s.reg a := by
  rw [State.reg, State.reg, h]

@[simp] theorem State.reg_setReg_same (a : Nat) (w : Word) : (s.setReg a w).reg a = w :=
  Tab.get_set_same _ _ _

theorem State.reg_setReg_ne {a b : Nat} (w : Word) (h : b ≠ a) : (s.setReg a w).reg b = s.reg b :=
  Tab.get_set_ne _ _ h

theorem State.reg_put_ne {f : Field} {a : Nat} (v : Nat) (h : a ≠ f.addr) : (s.put f v).reg a = s.reg a :=
  State.reg_setReg_ne s _ h

theorem State.reg_putB_ne {f : Field} {a : Nat} (b : Bool) (h : a ≠ f.addr) : (s.putB f b).reg a = s.reg a :=
  State.reg_put_ne s _ h

theorem State.reg_bump_ne {f : Field} {a : Nat} (h : a ≠ f.addr) : (s.bump f).reg a = s.reg a :=
  State.reg_put_ne s _ h

theorem State.reg_setPair_ne {lo a : Nat} (v : Nat) (h : a ≠ lo) (h' : a ≠ lo + 4) : (s.setPair lo v).reg a = s.reg a := by
  rw [State.setPair, State.reg_setReg_ne _ _ h', State.reg_setReg_ne _ _ h]

/-- The word of a register after one of its fields is stored. -/
theorem State.reg_put_same (f : Field) (v : Nat) :
    (s.put f v).reg f.addr = BitVec.ofNat 32 (setBits (s.reg f.addr).toNat f.lo f.len v) :=
  State.reg_setReg_same s _ _

theorem State.toNat_put (f : Field) (v : Nat) (h : f.lo + f.len ≤ 32) :
    ((s.put f v).reg f.addr).toNat = setBits (s.reg f.addr).toNat f.lo f.len v := by
  rw [State.reg_put_same, BitVec.toNat_ofNat, Nat.mod_eq_of_lt (setBits_lt _ _ _ _ (s.reg f.addr).isLt h)]

/-- A field stored reads back as the low bits stored. -/
theorem State.fld_put_same (f : Field) (v : Nat) (h : f.lo + f.len ≤ 32) : (s.put f v).fld f = v % 2 ^ f.len := by
  rw [State.fld, State.toNat_put s f v h, bitsOf_setBits_same]

/-- A field of another register reads as before. -/
theorem State.fld_put_ne {f g : Field} (v : Nat) (h : g.addr ≠ f.addr) : (s.put f v).fld g = s.fld g := by
  rw [State.fld, State.fld, State.reg_put_ne s v h]

/-- Another field of the same register reads as before. -/
theorem State.fld_put_apart {f g : Field} (v : Nat) (ha : g.addr = f.addr) (hf : f.lo + f.len ≤ 32)
    (h : f.lo + f.len ≤ g.lo ∨ g.lo + g.len ≤ f.lo) : (s.put f v).fld g = s.fld g := by
  rw [State.fld, State.fld, ha, State.toNat_put s f v hf]
  rcases h with h | h
  · exact bitsOf_setBits_above _ _ _ _ h
  · exact bitsOf_setBits_below _ _ _ _ h

theorem State.flag_putB_same (f : Field) (b : Bool) (h : f.lo + f.len ≤ 32) (h1 : f.len = 1) :
    (s.putB f b).flag f = b := by
  rw [State.flag, State.putB, State.fld_put_same s f _ h, h1]
  cases b <;> rfl

theorem State.flag_put_one (f : Field) (h : f.lo + f.len ≤ 32) (h1 : 0 < f.len) : (s.put f 1).flag f = true := by
  rw [State.flag, State.fld_put_same s f _ h, Nat.mod_eq_of_lt (Nat.one_lt_two_pow (by omega))]
  rfl

theorem State.flag_put_zero (f : Field) (h : f.lo + f.len ≤ 32) : (s.put f 0).flag f = false := by
  rw [State.flag, State.fld_put_same s f _ h, Nat.zero_mod]
  rfl

theorem State.fld_lt (f : Field) : s.fld f < 2 ^ f.len := Nat.mod_lt _ (Nat.two_pow_pos _)

/-! ## Interrupts and events -/

variable {s}

theorem State.raiseVec_reg {a v : Nat} (hv : v < 64) (h : evtReg a = false) : (s.raiseVec v).reg a = s.reg a := by
  have e : v / 32 = 0 ∨ v / 32 = 1 := by omega
  simp only [evtReg, decide_eq_false_iff_not, not_or] at h
  unfold State.raiseVec
  split
  · refine State.reg_put_ne s _ ?_
    rcases e with e | e <;> simp only [MSIX_PBA.PENDING, e] <;> tauto
  · exact State.reg_congr (by simp) a

theorem State.sysIrq_reg {a : Nat} (bit : Nat) (h : evtReg a = false) : (s.sysIrq bit).reg a = s.reg a := by
  have h' := h
  simp only [evtReg, decide_eq_false_iff_not, not_or] at h'
  unfold State.sysIrq
  dsimp only
  split_ifs
  · rfl
  · rw [State.raiseVec_reg (by omega) h]; exact State.reg_put_ne s _ h'.1
  · exact State.reg_put_ne s _ h'.1

theorem State.journalIrq_reg {a : Nat} (h : evtReg a = false) : s.journalIrq.reg a = s.reg a := by
  have hv : s.fld EVT_CFG.VEC < 64 := State.fld_lt s _
  have k : ((s.raiseVec (s.fld EVT_CFG.VEC)).sysIrq 6).reg a = s.reg a := by
    rw [State.sysIrq_reg 6 h, State.raiseVec_reg hv h]
  unfold State.journalIrq
  dsimp only
  split
  · rfl
  · split
    · split
      · exact State.reg_congr (by simp) a
      · exact (State.reg_congr (by simp) a).trans k
    · exact (State.reg_congr (by simp) a).trans k

@[simp] theorem State.dramPut_regs (a : Nat) (bs : List Byte) : (s.dramPut a bs).regs = s.regs := by simp [State.dramPut]
@[simp] theorem State.poolPut_regs (a : Nat) (bs : List Byte) : (s.poolPut a bs).regs = s.regs := by simp [State.poolPut]

theorem State.journalDram_regs (w : Nat) (r : EvtRec) : (s.journalDram w r).regs = s.regs := by
  unfold State.journalDram
  split
  · rfl
  · dsimp only; split <;> simp

theorem State.journal_reg {a : Nat} (r : EvtRec) (h : evtReg a = false) : (s.journal r).reg a = s.reg a := by
  have h' := h
  simp only [evtReg, decide_eq_false_iff_not, not_or] at h'
  simp only [State.journal]
  rw [State.journalIrq_reg h, State.reg_put_ne _ _ h'.2.1, State.reg_congr (State.journalDram_regs _ _),
    State.reg_congr (State.poolPut_regs _ _)]
  split
  · exact State.reg_bump_ne s h'.2.2.1
  · rfl

@[simp] theorem State.persistEvt_regs (r : EvtRec) : (s.persistEvt r).regs = s.regs := by
  simp only [State.persistEvt]; split <;> simp

@[simp] theorem State.setPort_regs (n : Nat) (x : PortSt) : (s.setPort n x).regs = s.regs := by simp

@[simp] theorem State.sendFrame_regs (p : Nat) (f : Frame) : (s.sendFrame p f).regs = s.regs := by
  simp only [State.sendFrame]; split <;> simp

/-- An event leaves every register alone but those of the journal and of interrupts. -/
theorem State.eventAt_reg {a : Nat} (t src code p4 p5 p6 p7 : Nat) (h : evtReg a = false) :
    (s.eventAt t src code p4 p5 p6 p7).reg a = s.reg a := by
  simp only [State.eventAt]
  split
  · exact State.reg_congr (by simp) a
  · have k : ∀ r, ((s.withEvtSeq (s.evtSeq + 1)).journal r).reg a = s.reg a := fun r => by
      rw [State.journal_reg r h]; exact State.reg_congr (by simp) a
    split <;> split <;>
      exact (State.reg_congr (by simp) a).trans (k (s.evtRec t src code p4 p5 p6 p7))

theorem State.event_reg {a : Nat} (src code p4 p5 p6 p7 : Nat) (h : evtReg a = false) :
    (s.event src code p4 p5 p6 p7).reg a = s.reg a := State.eventAt_reg _ _ _ _ _ _ _ h

theorem State.bdIrq_regs (bit : Nat) : (s.bdIrq bit).regs = s.regs := by simp [State.bdIrq]

/-- A mode change leaves every register alone but those of the journal and of interrupts. -/
theorem State.setMode_reg {a : Nat} (m : Mode) (h : evtReg a = false) : (s.setMode m).reg a = s.reg a := by
  unfold State.setMode
  split
  · rfl
  · rw [State.reg_congr (State.bdIrq_regs 2), State.sysIrq_reg 2 h, State.event_reg _ _ _ _ _ _ h]
    exact State.reg_congr (by simp) a

/-- The mode after a mode change. -/
@[simp] theorem State.setMode_mode (m : Mode) : (s.setMode m).mode = m := by
  unfold State.setMode
  split
  · assumption
  · simp only [State.rd_mode, State.bdIrq_frame, State.sysIrq_frame]
    rw [State.event_frame _ _ _ _ _ _ _ _ (by decide)]
    rfl

/-! Fields through events: the same, for a field's register. -/

theorem State.fld_congr {s t : State} {f : Field} (h : t.reg f.addr = s.reg f.addr) : t.fld f = s.fld f := by
  rw [State.fld, State.fld, h]

theorem State.event_fld {f : Field} (src code p4 p5 p6 p7 : Nat) (h : evtReg f.addr = false) :
    (s.event src code p4 p5 p6 p7).fld f = s.fld f := State.fld_congr (State.event_reg _ _ _ _ _ _ h)

theorem State.eventAt_fld {f : Field} (t src code p4 p5 p6 p7 : Nat) (h : evtReg f.addr = false) :
    (s.eventAt t src code p4 p5 p6 p7).fld f = s.fld f := State.fld_congr (State.eventAt_reg _ _ _ _ _ _ _ h)

theorem State.sysIrq_fld {f : Field} (bit : Nat) (h : evtReg f.addr = false) : (s.sysIrq bit).fld f = s.fld f :=
  State.fld_congr (State.sysIrq_reg _ h)

theorem State.setMode_fld {f : Field} (m : Mode) (h : evtReg f.addr = false) : (s.setMode m).fld f = s.fld f :=
  State.fld_congr (State.setMode_reg _ h)

end Sys2Proof.Machine
end

