-- ==== Sys2Proof/Laws/WfBlocks.lean ====
section
/-! SUPPORT. Every operation keeps the canonical form of the memories and of the register file (`State.wf`). -/

namespace Sys2Proof.Machine

set_option linter.unusedTactic false
set_option linter.unreachableTactic false
set_option linter.unnecessarySeqFocus false
set_option linter.unusedSimpArgs false

@[simp] theorem State.consumers_wf (s : State) (c : Nat) (d : TdcSt) (low : Bool) (rise : Bool) (idx : Nat) (stamp :
    Option Int) (t : Int) (hs : s.wf = true) : (State.consumers s c d low rise idx stamp t).wf = true := by
  first | (simp (maxDischargeDepth := 40) +contextual [hs, State.consumers]; done) | (simp only [State.consumers]; (repeat' split) <;> simp (maxDischargeDepth := 40) +contextual [hs])

@[simp] theorem State.writeTdcMeas_wf (s : State) (c : Nat) (v : Word) (hs : s.wf = true) : (State.writeTdcMeas s c
    v).wf = true := by
  first | (simp (maxDischargeDepth := 40) +contextual [hs, State.writeTdcMeas]; done) | (simp only [State.writeTdcMeas]; (repeat' split) <;> simp (maxDischargeDepth := 40) +contextual [hs])

@[simp] theorem State.writeTdcCfg_wf (s : State) (c : Nat) (v : Word) (hs : s.wf = true) : (State.writeTdcCfg s c
    v).wf = true := by
  first | (simp (maxDischargeDepth := 40) +contextual [hs, State.writeTdcCfg]; done) | (simp only [State.writeTdcCfg]; (repeat' split) <;> simp (maxDischargeDepth := 40) +contextual [hs])

@[simp] theorem State.writeTrigCtrl_wf (s : State) (k : Nat) (v : Word) (hs : s.wf = true) : (State.writeTrigCtrl s k
    v).wf = true := by
  first | (simp (maxDischargeDepth := 40) +contextual [hs, State.writeTrigCtrl]; done) | (simp only [State.writeTrigCtrl]; (repeat' split) <;> simp (maxDischargeDepth := 40) +contextual [hs])

@[simp] theorem State.writeStreamCtrl_wf (s : State) (i : Nat) (v : Word) (hs : s.wf = true) : (State.writeStreamCtrl
    s i v).wf = true := by
  first | (simp (maxDischargeDepth := 40) +contextual [hs, State.writeStreamCtrl]; done) | (simp only [State.writeStreamCtrl]; (repeat' split) <;> simp (maxDischargeDepth := 40) +contextual [hs])

@[simp] theorem State.writeTileCfg_wf (s : State) (g : Nat) (v : Word) (hs : s.wf = true) : (State.writeTileCfg s g
    v).wf = true := by
  first | (simp (maxDischargeDepth := 40) +contextual [hs, State.writeTileCfg]; done) | (simp only [State.writeTileCfg]; (repeat' split) <;> simp (maxDischargeDepth := 40) +contextual [hs])

@[simp] theorem State.zeroTiles_wf (s : State) (g : Nat) (hs : s.wf = true) : (State.zeroTiles s g).wf = true := by
  first | (simp (maxDischargeDepth := 40) +contextual [hs, State.zeroTiles]; done) | (simp only [State.zeroTiles]; (repeat' split) <;> simp (maxDischargeDepth := 40) +contextual [hs])

@[simp] theorem State.entryEcc_wf (s : State) (p : Push) (ecc : Ecc) (hs : s.wf = true) : (State.entryEcc s p ecc).wf
    = true := by
  first | (simp (maxDischargeDepth := 40) +contextual [hs, State.entryEcc]; done) | (simp only [State.entryEcc]; (repeat' split) <;> simp (maxDischargeDepth := 40) +contextual [hs])

@[simp] theorem State.applyRead_wf (s : State) (p : Push) (ecc : PushEcc) (hs : s.wf = true) : (State.applyRead s p
    ecc).wf = true := by
  first | (simp (maxDischargeDepth := 40) +contextual [hs, State.applyRead]; done) | (simp only [State.applyRead]; (repeat' split) <;> simp (maxDischargeDepth := 40) +contextual [hs])

@[simp] theorem State.applyOldest_wf (s : State) (ecc : PushEcc) (hs : s.wf = true) : (State.applyOldest s ecc).wf =
    true := by
  first | (simp (maxDischargeDepth := 40) +contextual [hs, State.applyOldest]; done) | (simp only [State.applyOldest]; (repeat' split) <;> simp (maxDischargeDepth := 40) +contextual [hs])

@[simp] theorem State.writeRqCtrl_wf (s : State) (v : Word) (hs : s.wf = true) : (State.writeRqCtrl s v).wf = true :=
    by
  first | (simp (maxDischargeDepth := 40) +contextual [hs, State.writeRqCtrl]; done) | (simp only [State.writeRqCtrl]; (repeat' split) <;> simp (maxDischargeDepth := 40) +contextual [hs])

@[simp] theorem State.writeRqFinalize_wf (s : State) (v : Word) (hs : s.wf = true) : (State.writeRqFinalize s v).wf =
    true := by
  first | (simp (maxDischargeDepth := 40) +contextual [hs, State.writeRqFinalize]; done) | (simp only [State.writeRqFinalize]; (repeat' split) <;> simp (maxDischargeDepth := 40) +contextual [hs])

@[simp] theorem State.writeRqDescSel_wf (s : State) (v : Word) (ecc : Ecc) (hs : s.wf = true) : (State.writeRqDescSel
    s v ecc).wf = true := by
  first | (simp (maxDischargeDepth := 40) +contextual [hs, State.writeRqDescSel]; done) | (simp only [State.writeRqDescSel]; (repeat' split) <;> simp (maxDischargeDepth := 40) +contextual [hs])

@[simp] theorem State.writeRqMapCfg_wf (s : State) (g : Nat) (v : Word) (hs : s.wf = true) : (State.writeRqMapCfg s g
    v).wf = true := by
  first | (simp (maxDischargeDepth := 40) +contextual [hs, State.writeRqMapCfg]; done) | (simp only [State.writeRqMapCfg]; (repeat' split) <;> simp (maxDischargeDepth := 40) +contextual [hs])

@[simp] theorem State.writeRqMap_wf (s : State) (g : Nat) (a : Nat) (v : Word) (hs : s.wf = true) : (State.writeRqMap
    s g a v).wf = true := by
  first | (simp (maxDischargeDepth := 40) +contextual [hs, State.writeRqMap]; done) | (simp only [State.writeRqMap]; (repeat' split) <;> simp (maxDischargeDepth := 40) +contextual [hs])

@[simp] theorem State.writeRqType_wf (s : State) (t : Nat) (v : Word) (hs : s.wf = true) : (State.writeRqType s t
    v).wf = true := by
  first | (simp (maxDischargeDepth := 40) +contextual [hs, State.writeRqType]; done) | (simp only [State.writeRqType]; (repeat' split) <;> simp (maxDischargeDepth := 40) +contextual [hs])

@[simp] theorem State.updateHeld_wf (s : State) (hs : s.wf = true) : (State.updateHeld s).wf = true := by
  first | (simp (maxDischargeDepth := 40) +contextual [hs, State.updateHeld]; done) | (simp only [State.updateHeld]; (repeat' split) <;> simp (maxDischargeDepth := 40) +contextual [hs])

@[simp] theorem State.fullEnd_wf (s : State) (dies : List DieMeas) (ms : List FullMeas) (hs : s.wf = true) :
    (State.fullEnd s dies ms).wf = true := by
  first | (simp (maxDischargeDepth := 40) +contextual [hs, State.fullEnd]; done) | (simp only [State.fullEnd]; (repeat' split) <;> simp (maxDischargeDepth := 40) +contextual [hs])

@[simp] theorem State.blowGo_wf (x1 : List Blow) (x2 : State) (hs : x2.wf = true) : (State.blowGo x1 x2).1.wf = true
    := by
  fun_induction State.blowGo x1 x2 <;> simp_all (maxDischargeDepth := 40) +zetaDelta

@[simp] theorem State.lcReset_wf (s : State) (hs : s.wf = true) : (State.lcReset s).wf = true := by
  first | (simp (maxDischargeDepth := 40) +contextual [hs, State.lcReset]; done) | (simp only [State.lcReset]; (repeat' split) <;> simp (maxDischargeDepth := 40) +contextual [hs])

@[simp] theorem State.lcDone_wf (s : State) (j : LcJob) (hs : s.wf = true) : (State.lcDone s j).wf = true := by
  first | (simp (maxDischargeDepth := 40) +contextual [hs, State.lcDone]; done) | (simp only [State.lcDone]; (repeat' split) <;> simp (maxDischargeDepth := 40) +contextual [hs])

@[simp] theorem State.lcFail_wf (s : State) (j : LcJob) (hs : s.wf = true) : (State.lcFail s j).wf = true := by
  first | (simp (maxDischargeDepth := 40) +contextual [hs, State.lcFail]; done) | (simp only [State.lcFail]; (repeat' split) <;> simp (maxDischargeDepth := 40) +contextual [hs])

@[simp] theorem State.lcRun_wf (s : State) (hs : s.wf = true) : (State.lcRun s).wf = true := by
  first | (simp (maxDischargeDepth := 40) +contextual [hs, State.lcRun]; done) | (simp only [State.lcRun]; (repeat' split) <;> simp (maxDischargeDepth := 40) +contextual [hs])

@[simp] theorem State.lcBegin_wf (s : State) (blows : List Blow) (after : AfterBlow) (src : Option (Prod Nat Nat)) (hs
    : s.wf = true) : (State.lcBegin s blows after src).wf = true := by
  first | (simp (maxDischargeDepth := 40) +contextual [hs, State.lcBegin]; done) | (simp only [State.lcBegin]; (repeat' split) <;> simp (maxDischargeDepth := 40) +contextual [hs])

@[simp] theorem State.setPortState_wf (s : State) (p : Nat) (st : Nat) (cause : Nat) (hs : s.wf = true) :
    (State.setPortState s p st cause).wf = true := by
  first | (simp (maxDischargeDepth := 40) +contextual [hs, State.setPortState]; done) | (simp only [State.setPortState]; (repeat' split) <;> simp (maxDischargeDepth := 40) +contextual [hs])

@[simp] theorem State.portEnable_wf (s : State) (p : Nat) (hs : s.wf = true) : (State.portEnable s p).wf = true := by
  first | (simp (maxDischargeDepth := 40) +contextual [hs, State.portEnable]; done) | (simp only [State.portEnable]; (repeat' split) <;> simp (maxDischargeDepth := 40) +contextual [hs])

@[simp] theorem State.sendTo_wf (s : State) (dest : Nat) (f : Frame) (hs : s.wf = true) : (State.sendTo s dest f).wf =
    true := by
  first | (simp (maxDischargeDepth := 40) +contextual [hs, State.sendTo]; done) | (simp only [State.sendTo]; (repeat' split) <;> simp (maxDischargeDepth := 40) +contextual [hs])

@[simp] theorem State.bench_wf (s : State) (sh : Nat) (d : Nat) (hs : s.wf = true) : (State.bench s sh d).wf = true :=
    by
  first | (simp (maxDischargeDepth := 40) +contextual [hs, State.bench]; done) | (simp only [State.bench]; (repeat' split) <;> simp (maxDischargeDepth := 40) +contextual [hs])

@[simp] theorem State.benchAll_wf (s : State) (d : Nat) (sel : State → Nat → Bool) (hs : s.wf = true) :
    (State.benchAll s d sel).wf = true := by
  first | (simp (maxDischargeDepth := 40) +contextual [hs, State.benchAll]; done) | (simp only [State.benchAll]; (repeat' split) <;> simp (maxDischargeDepth := 40) +contextual [hs])

@[simp] theorem State.disagree_wf (s : State) (sh : Nat) (d : Nat) (hs : s.wf = true) : (State.disagree s sh d).wf =
    true := by
  first | (simp (maxDischargeDepth := 40) +contextual [hs, State.disagree]; done) | (simp only [State.disagree]; (repeat' split) <;> simp (maxDischargeDepth := 40) +contextual [hs])

@[simp] theorem State.disagreeAll_wf (s : State) (d : Nat) (hs : s.wf = true) : (State.disagreeAll s d).wf = true :=
    by
  first | (simp (maxDischargeDepth := 40) +contextual [hs, State.disagreeAll]; done) | (simp only [State.disagreeAll]; (repeat' split) <;> simp (maxDischargeDepth := 40) +contextual [hs])

@[simp] theorem State.deviceLost_wf (d : Nat) (s : State) (hs : s.wf = true) : (State.deviceLost d s).wf = true := by
  first | (simp (maxDischargeDepth := 40) +contextual [hs, State.deviceLost]; done) | (simp only [State.deviceLost]; (repeat' split) <;> simp (maxDischargeDepth := 40) +contextual [hs])

@[simp] theorem State.partnerLost_wf (s : State) (p : Nat) (hs : s.wf = true) : (State.partnerLost s p).wf = true :=
    by
  first | (simp (maxDischargeDepth := 40) +contextual [hs, State.partnerLost]; done) | (simp only [State.partnerLost]; (repeat' split) <;> simp (maxDischargeDepth := 40) +contextual [hs])

@[simp] theorem State.portLeaves_wf (s : State) (p : Nat) (st : Nat) (cause : Nat) (hs : s.wf = true) :
    (State.portLeaves s p st cause).wf = true := by
  first | (simp (maxDischargeDepth := 40) +contextual [hs, State.portLeaves]; done) | (simp only [State.portLeaves]; (repeat' split) <;> simp (maxDischargeDepth := 40) +contextual [hs])

@[simp] theorem State.portRetrain_wf (s : State) (p : Nat) (hs : s.wf = true) : (State.portRetrain s p).wf = true :=
    by
  first | (simp (maxDischargeDepth := 40) +contextual [hs, State.portRetrain]; done) | (simp only [State.portRetrain]; (repeat' split) <;> simp (maxDischargeDepth := 40) +contextual [hs])

@[simp] theorem State.portHold_wf (s : State) (p : Nat) (cause : Nat) (hs : s.wf = true) : (State.portHold s p
    cause).wf = true := by
  first | (simp (maxDischargeDepth := 40) +contextual [hs, State.portHold]; done) | (simp only [State.portHold]; (repeat' split) <;> simp (maxDischargeDepth := 40) +contextual [hs])

@[simp] theorem State.sendReq_wf (s : State) (p : Nat) (tag : Nat) (h : Held) (hs : s.wf = true) : (State.sendReq s p
    tag h).wf = true := by
  first | (simp (maxDischargeDepth := 40) +contextual [hs, State.sendReq]; done) | (simp only [State.sendReq]; (repeat' split) <;> simp (maxDischargeDepth := 40) +contextual [hs])

@[simp] theorem State.tagsGo_wf (p : Nat) (x1 : Nat) (x2 : State) (hs : x2.wf = true) : (State.tagsGo p x1 x2).wf =
    true := by
  fun_induction State.tagsGo p x1 x2 <;> simp_all (maxDischargeDepth := 40) +zetaDelta

@[simp] theorem State.tagFreed_wf (s : State) (p : Nat) (hs : s.wf = true) : (State.tagFreed s p).wf = true := by
  first | (simp (maxDischargeDepth := 40) +contextual [hs, State.tagFreed]; done) | (simp only [State.tagFreed]; (repeat' split) <;> simp (maxDischargeDepth := 40) +contextual [hs])

@[simp] theorem State.request_wf (s : State) (p : Nat) (h : Held) (hs : s.wf = true) : (State.request s p h).wf = true
    := by
  first | (simp (maxDischargeDepth := 40) +contextual [hs, State.request]; done) | (simp only [State.request]; (repeat' split) <;> simp (maxDischargeDepth := 40) +contextual [hs])

@[simp] theorem State.tagsRetired_wf (s : State) (hs : s.wf = true) : (State.tagsRetired s).wf = true := by
  first | (simp (maxDischargeDepth := 40) +contextual [hs, State.tagsRetired]; done) | (simp only [State.tagsRetired]; (repeat' split) <;> simp (maxDischargeDepth := 40) +contextual [hs])

@[simp] theorem State.sendJoin_wf (s : State) (hs : s.wf = true) : (State.sendJoin s).wf = true := by
  first | (simp (maxDischargeDepth := 40) +contextual [hs, State.sendJoin]; done) | (simp only [State.sendJoin]; (repeat' split) <;> simp (maxDischargeDepth := 40) +contextual [hs])

@[simp] theorem State.takeJoin_wf (s : State) (d : Nat) (ws : List Word) (hs : s.wf = true) : (State.takeJoin s d
    ws).wf = true := by
  first | (simp (maxDischargeDepth := 40) +contextual [hs, State.takeJoin]; done) | (simp only [State.takeJoin]; (repeat' split) <;> simp (maxDischargeDepth := 40) +contextual [hs])

@[simp] theorem State.storeBarker_wf (s : State) (p : Nat) (w : BitVec 56) (hs : s.wf = true) : (State.storeBarker s p
    w).wf = true := by
  first | (simp (maxDischargeDepth := 40) +contextual [hs, State.storeBarker]; done) | (simp only [State.storeBarker]; (repeat' split) <;> simp (maxDischargeDepth := 40) +contextual [hs])

@[simp] theorem State.upBarker_wf (s : State) (hs : s.wf = true) : (State.upBarker s).wf = true := by
  first | (simp (maxDischargeDepth := 40) +contextual [hs, State.upBarker]; done) | (simp only [State.upBarker]; (repeat' split) <;> simp (maxDischargeDepth := 40) +contextual [hs])

@[simp] theorem State.downBarker_wf (s : State) (p : Nat) (hs : s.wf = true) : (State.downBarker s p).wf = true := by
  first | (simp (maxDischargeDepth := 40) +contextual [hs, State.downBarker]; done) | (simp only [State.downBarker]; (repeat' split) <;> simp (maxDischargeDepth := 40) +contextual [hs])

@[simp] theorem State.adoptQuality_wf (s : State) (v : List Byte) (hs : s.wf = true) : (State.adoptQuality s v).wf =
    true := by
  first | (simp (maxDischargeDepth := 40) +contextual [hs, State.adoptQuality]; done) | (simp only [State.adoptQuality]; (repeat' split) <;> simp (maxDischargeDepth := 40) +contextual [hs])

@[simp] theorem State.adoptBody_wf (s : State) (rs : List (Prod Nat (List Byte))) (hs : s.wf = true) :
    (State.adoptBody s rs).wf = true := by
  first | (simp (maxDischargeDepth := 40) +contextual [hs, State.adoptBody]; done) | (simp only [State.adoptBody]; (repeat' split) <;> simp (maxDischargeDepth := 40) +contextual [hs])

@[simp] theorem State.applyStore_wf (s : State) (hs : s.wf = true) : (State.applyStore s).1.wf = true := by
  unfold State.applyStore
  split
  · exact hs
  · split
    · exact hs
    · simp (maxDischargeDepth := 40) [hs]

@[simp] theorem State.applyFirmware_wf (s : State) (v : List Byte) (hs : s.wf = true) : (State.applyFirmware s v).wf =
    true := by
  first | (simp (maxDischargeDepth := 40) +contextual [hs, State.applyFirmware]; done) | (simp only [State.applyFirmware]; (repeat' split) <;> simp (maxDischargeDepth := 40) +contextual [hs])

@[simp] theorem State.applyChannelMap_wf (s : State) (v : List Byte) (hs : s.wf = true) : (State.applyChannelMap s
    v).wf = true := by
  first | (simp (maxDischargeDepth := 40) +contextual [hs, State.applyChannelMap]; done) | (simp only [State.applyChannelMap]; (repeat' split) <;> simp (maxDischargeDepth := 40) +contextual [hs])

@[simp] theorem State.applyActMap_wf (s : State) (v : List Byte) (hs : s.wf = true) : (State.applyActMap s v).wf =
    true := by
  first | (simp (maxDischargeDepth := 40) +contextual [hs, State.applyActMap]; done) | (simp only [State.applyActMap]; (repeat' split) <;> simp (maxDischargeDepth := 40) +contextual [hs])

@[simp] theorem State.applyDacs_wf (s : State) (v : List Byte) (hs : s.wf = true) : (State.applyDacs s v).wf = true :=
    by
  first | (simp (maxDischargeDepth := 40) +contextual [hs, State.applyDacs]; done) | (simp only [State.applyDacs]; (repeat' split) <;> simp (maxDischargeDepth := 40) +contextual [hs])

@[simp] theorem State.applyParks_wf (s : State) (v : List Byte) (hs : s.wf = true) : (State.applyParks s v).wf = true
    := by
  first | (simp (maxDischargeDepth := 40) +contextual [hs, State.applyParks]; done) | (simp only [State.applyParks]; (repeat' split) <;> simp (maxDischargeDepth := 40) +contextual [hs])

@[simp] theorem State.applySref_wf (s : State) (v : List Byte) (hs : s.wf = true) : (State.applySref s v).wf = true :=
    by
  first | (simp (maxDischargeDepth := 40) +contextual [hs, State.applySref]; done) | (simp only [State.applySref]; (repeat' split) <;> simp (maxDischargeDepth := 40) +contextual [hs])

@[simp] theorem State.applyMons_wf (s : State) (v : List Byte) (hs : s.wf = true) : (State.applyMons s v).wf = true :=
    by
  first | (simp (maxDischargeDepth := 40) +contextual [hs, State.applyMons]; done) | (simp only [State.applyMons]; (repeat' split) <;> simp (maxDischargeDepth := 40) +contextual [hs])

@[simp] theorem State.applyLink_wf (v : List Byte) (p : Nat) (s : State) (hs : s.wf = true) : (State.applyLink v p
    s).wf = true := by
  first | (simp (maxDischargeDepth := 40) +contextual [hs, State.applyLink]; done) | (simp only [State.applyLink]; (repeat' split) <;> simp (maxDischargeDepth := 40) +contextual [hs])

@[simp] theorem State.applyLinks_wf (s : State) (v : List Byte) (hs : s.wf = true) : (State.applyLinks s v).wf = true
    := by
  first | (simp (maxDischargeDepth := 40) +contextual [hs, State.applyLinks]; done) | (simp only [State.applyLinks]; (repeat' split) <;> simp (maxDischargeDepth := 40) +contextual [hs])

@[simp] theorem State.applyRecord_wf (s : State) (typ : Nat) (v : List Byte) (hs : s.wf = true) : (State.applyRecord s
    typ v).wf = true := by
  first | (simp (maxDischargeDepth := 40) +contextual [hs, State.applyRecord]; done) | (simp only [State.applyRecord]; (repeat' split) <;> simp (maxDischargeDepth := 40) +contextual [hs])

@[simp] theorem State.applyAll_wf (rb : List Readback) (x1 : List (Prod Nat (List Byte))) (x2 : Nat) (x3 : State) (hs
    : x3.wf = true) : (State.applyAll rb x1 x2 x3).1.wf = true := by
  fun_induction State.applyAll rb x1 x2 x3 <;> simp_all (maxDischargeDepth := 40) +zetaDelta

@[simp] theorem State.loadClock_wf (d : Nat) (s : State) (hs : s.wf = true) : (State.loadClock d s).wf = true := by
  first | (simp (maxDischargeDepth := 40) +contextual [hs, State.loadClock]; done) | (simp only [State.loadClock]; (repeat' split) <;> simp (maxDischargeDepth := 40) +contextual [hs])

@[simp] theorem State.applyImage_wf (s : State) (rb : List Readback) (rs : List (Prod Nat (List Byte))) (hs : s.wf =
    true) : (State.applyImage s rb rs).wf = true := by
  first | (simp (maxDischargeDepth := 40) +contextual [hs, State.applyImage]; done) | (simp only [State.applyImage]; (repeat' split) <;> simp (maxDischargeDepth := 40) +contextual [hs])

@[simp] theorem State.bootStep_wf (s : State) (k : Nat) (hs : s.wf = true) : (State.bootStep s k).wf = true := by
  first | (simp (maxDischargeDepth := 40) +contextual [hs, State.bootStep]; done) | (simp only [State.bootStep]; (repeat' split) <;> simp (maxDischargeDepth := 40) +contextual [hs])

@[simp] theorem State.tempMax_wf (s : State) (ts : List (BitVec 16)) (hs : s.wf = true) : (State.tempMax s ts).wf =
    true := by
  first | (simp (maxDischargeDepth := 40) +contextual [hs, State.tempMax]; done) | (simp only [State.tempMax]; (repeat' split) <;> simp (maxDischargeDepth := 40) +contextual [hs])

@[simp] theorem State.keepSample_wf (s : State) (ts : List (BitVec 16)) (hs : s.wf = true) : (State.keepSample s
    ts).wf = true := by
  first | (simp (maxDischargeDepth := 40) +contextual [hs, State.keepSample]; done) | (simp only [State.keepSample]; (repeat' split) <;> simp (maxDischargeDepth := 40) +contextual [hs])

@[simp] theorem State.tempAlert_wf (s : State) (hit : Bool) (hs : s.wf = true) : (State.tempAlert s hit).wf = true :=
    by
  first | (simp (maxDischargeDepth := 40) +contextual [hs, State.tempAlert]; done) | (simp only [State.tempAlert]; (repeat' split) <;> simp (maxDischargeDepth := 40) +contextual [hs])

@[simp] theorem State.tempWarn_wf (s : State) (hit : Bool) (hs : s.wf = true) : (State.tempWarn s hit).wf = true := by
  first | (simp (maxDischargeDepth := 40) +contextual [hs, State.tempWarn]; done) | (simp only [State.tempWarn]; (repeat' split) <;> simp (maxDischargeDepth := 40) +contextual [hs])

@[simp] theorem State.tempSample_wf (s : State) (ts : List (BitVec 16)) (hs : s.wf = true) : (State.tempSample s
    ts).wf = true := by
  first | (simp (maxDischargeDepth := 40) +contextual [hs, State.tempSample]; done) | (simp only [State.tempSample]; (repeat' split) <;> simp (maxDischargeDepth := 40) +contextual [hs])

@[simp] theorem State.clearSram_wf (s : State) (hs : s.wf = true) : (State.clearSram s).wf = true := by
  first | (simp (maxDischargeDepth := 40) +contextual [hs, State.clearSram]; done) | (simp only [State.clearSram]; (repeat' split) <;> simp (maxDischargeDepth := 40) +contextual [hs])

@[simp] theorem State.flashFound_wf (s : State) (f : Sfdp) (hs : s.wf = true) : (State.flashFound s f).wf = true := by
  first | (simp (maxDischargeDepth := 40) +contextual [hs, State.flashFound]; done) | (simp only [State.flashFound]; (repeat' split) <;> simp (maxDischargeDepth := 40) +contextual [hs])

@[simp] theorem State.checkHeader_wf (s : State) (k : Nat) (hs : s.wf = true) : (State.checkHeader s k).wf = true :=
    by
  first | (simp (maxDischargeDepth := 40) +contextual [hs, State.checkHeader]; done) | (simp only [State.checkHeader]; (repeat' split) <;> simp (maxDischargeDepth := 40) +contextual [hs])

@[simp] theorem State.bootFrom_wf (s : State) (k : Nat) (hs : s.wf = true) : (State.bootFrom s k).wf = true := by
  first | (simp (maxDischargeDepth := 40) +contextual [hs, State.bootFrom]; done) | (simp only [State.bootFrom]; (repeat' split) <;> simp (maxDischargeDepth := 40) +contextual [hs])

@[simp] theorem State.rootChange_wf (s : State) (hs : s.wf = true) : (State.rootChange s).wf = true := by
  first | (simp (maxDischargeDepth := 40) +contextual [hs, State.rootChange]; done) | (simp only [State.rootChange]; (repeat' split) <;> simp (maxDischargeDepth := 40) +contextual [hs])

@[simp] theorem State.upAgain_wf (s : State) (hs : s.wf = true) : (State.upAgain s).wf = true := by
  first | (simp (maxDischargeDepth := 40) +contextual [hs, State.upAgain]; done) | (simp only [State.upAgain]; (repeat' split) <;> simp (maxDischargeDepth := 40) +contextual [hs])

@[simp] theorem State.reselect_wf (s : State) (hs : s.wf = true) : (State.reselect s).wf = true := by
  first | (simp (maxDischargeDepth := 40) +contextual [hs, State.reselect]; done) | (simp only [State.reselect]; (repeat' split) <;> simp (maxDischargeDepth := 40) +contextual [hs])

@[simp] theorem State.storeRootCfg_wf (s : State) (v : Word) (hs : s.wf = true) : (State.storeRootCfg s v).wf = true
    := by
  first | (simp (maxDischargeDepth := 40) +contextual [hs, State.storeRootCfg]; done) | (simp only [State.storeRootCfg]; (repeat' split) <;> simp (maxDischargeDepth := 40) +contextual [hs])

@[simp] theorem State.writeRootCfg_wf (s : State) (v : Word) (hs : s.wf = true) : (State.writeRootCfg s v).wf = true
    := by
  first | (simp (maxDischargeDepth := 40) +contextual [hs, State.writeRootCfg]; done) | (simp only [State.writeRootCfg]; (repeat' split) <;> simp (maxDischargeDepth := 40) +contextual [hs])

@[simp] theorem State.dropSource_wf (s : State) (hs : s.wf = true) : (State.dropSource s).wf = true := by
  first | (simp (maxDischargeDepth := 40) +contextual [hs, State.dropSource]; done) | (simp only [State.dropSource]; (repeat' split) <;> simp (maxDischargeDepth := 40) +contextual [hs])

@[simp] theorem State.holdover_wf (s : State) (hs : s.wf = true) : (State.holdover s).wf = true := by
  first | (simp (maxDischargeDepth := 40) +contextual [hs, State.holdover]; done) | (simp only [State.holdover]; (repeat' split) <;> simp (maxDischargeDepth := 40) +contextual [hs])

@[simp] theorem State.seeRefs_wf (s : State) (r : RefSeen) (hs : s.wf = true) : (State.seeRefs s r).wf = true := by
  first | (simp (maxDischargeDepth := 40) +contextual [hs, State.seeRefs]; done) | (simp only [State.seeRefs]; (repeat' split) <;> simp (maxDischargeDepth := 40) +contextual [hs])

@[simp] theorem State.timeWrap_wf (s : State) (hs : s.wf = true) : (State.timeWrap s).wf = true := by
  first | (simp (maxDischargeDepth := 40) +contextual [hs, State.timeWrap]; done) | (simp only [State.timeWrap]; (repeat' split) <;> simp (maxDischargeDepth := 40) +contextual [hs])

@[simp] theorem State.tick_wf (s : State) (hs : s.wf = true) : (State.tick s).wf = true := by
  first | (simp (maxDischargeDepth := 40) +contextual [hs, State.tick]; done) | (simp only [State.tick]; (repeat' split) <;> simp (maxDischargeDepth := 40) +contextual [hs])

@[simp] theorem State.moveTimers_wf (s : State) (d : Int) (hs : s.wf = true) : (State.moveTimers s d).wf = true := by
  rw [State.wf_iff] at hs ⊢
  exact hs

@[simp] theorem State.timeStep_wf (s : State) (v : Int) (hs : s.wf = true) : (State.timeStep s v).wf = true := by
  first | (simp (maxDischargeDepth := 40) +contextual [hs, State.timeStep]; done) | (simp only [State.timeStep]; (repeat' split) <;> simp (maxDischargeDepth := 40) +contextual [hs])

@[simp] theorem State.syncAdvance_wf (s : State) (v : Int) (hs : s.wf = true) : (State.syncAdvance s v).wf = true :=
    by
  first | (simp (maxDischargeDepth := 40) +contextual [hs, State.syncAdvance]; done) | (simp only [State.syncAdvance]; (repeat' split) <;> simp (maxDischargeDepth := 40) +contextual [hs])

@[simp] theorem State.nvmWrite_wf (s : State) (op : Nat) (hs : s.wf = true) : (State.nvmWrite s op).wf = true := by
  first | (simp (maxDischargeDepth := 40) +contextual [hs, State.nvmWrite]; done) | (simp only [State.nvmWrite]; (repeat' split) <;> simp (maxDischargeDepth := 40) +contextual [hs])

@[simp] theorem State.eraseFinish_wf (s : State) (hs : s.wf = true) : (State.eraseFinish s).wf = true := by
  first | (simp (maxDischargeDepth := 40) +contextual [hs, State.eraseFinish]; done) | (simp only [State.eraseFinish]; (repeat' split) <;> simp (maxDischargeDepth := 40) +contextual [hs])

@[simp] theorem State.benchNow_wf (rings : BitVec 64) (n : Nat) (s : State) (hs : s.wf = true) : (State.benchNow rings
    n s).wf = true := by
  first | (simp (maxDischargeDepth := 40) +contextual [hs, State.benchNow]; done) | (simp only [State.benchNow]; (repeat' split) <;> simp (maxDischargeDepth := 40) +contextual [hs])

@[simp] theorem State.monPark_wf (s : State) (g : Nat) (n : Nat) (hs : s.wf = true) : (State.monPark s g n).wf = true
    := by
  first | (simp (maxDischargeDepth := 40) +contextual [hs, State.monPark]; done) | (simp only [State.monPark]; (repeat' split) <;> simp (maxDischargeDepth := 40) +contextual [hs])

@[simp] theorem State.monAbort_wf (s : State) (g : Nat) (n : Nat) (show_ : Option Nat) (hs : s.wf = true) :
    (State.monAbort s g n show_).wf = true := by
  first | (simp (maxDischargeDepth := 40) +contextual [hs, State.monAbort]; done) | (simp only [State.monAbort]; (repeat' split) <;> simp (maxDischargeDepth := 40) +contextual [hs])

@[simp] theorem State.monRing_wf (s : State) (g : Nat) (park : Bool) (abort : Bool) (hs : s.wf = true) :
    (State.monRing s g park abort).wf = true := by
  first | (simp (maxDischargeDepth := 40) +contextual [hs, State.monRing]; done) | (simp only [State.monRing]; (repeat' split) <;> simp (maxDischargeDepth := 40) +contextual [hs])

@[simp] theorem State.pinTrip_wf (s : State) (c : Nat) (high : Bool) (hs : s.wf = true) : (State.pinTrip s c high).wf
    = true := by
  first | (simp (maxDischargeDepth := 40) +contextual [hs, State.pinTrip]; done) | (simp only [State.pinTrip]; (repeat' split) <;> simp (maxDischargeDepth := 40) +contextual [hs])

@[simp] theorem State.senseTrip_wf (s : State) (m : Nat) (uv : Int) (hs : s.wf = true) : (State.senseTrip s m uv).wf =
    true := by
  first | (simp (maxDischargeDepth := 40) +contextual [hs, State.senseTrip]; done) | (simp only [State.senseTrip]; (repeat' split) <;> simp (maxDischargeDepth := 40) +contextual [hs])

@[simp] theorem State.writeSref_wf (s : State) (m : Nat) (v : Word) (hs : s.wf = true) : (State.writeSref s m v).wf =
    true := by
  first | (simp (maxDischargeDepth := 40) +contextual [hs, State.writeSref]; done) | (simp only [State.writeSref]; (repeat' split) <;> simp (maxDischargeDepth := 40) +contextual [hs])

@[simp] theorem State.writeSysPark_wf (s : State) (v : Word) (hs : s.wf = true) : (State.writeSysPark s v).wf = true
    := by
  first | (simp (maxDischargeDepth := 40) +contextual [hs, State.writeSysPark]; done) | (simp only [State.writeSysPark]; (repeat' split) <;> simp (maxDischargeDepth := 40) +contextual [hs])

@[simp] theorem State.ppmuAsk_wf (s : State) (c : Nat) (hs : s.wf = true) : (State.ppmuAsk s c).wf = true := by
  first | (simp (maxDischargeDepth := 40) +contextual [hs, State.ppmuAsk]; done) | (simp only [State.ppmuAsk]; (repeat' split) <;> simp (maxDischargeDepth := 40) +contextual [hs])

@[simp] theorem State.ppmuStart_wf (s : State) (c : Nat) (hs : s.wf = true) : (State.ppmuStart s c).wf = true := by
  first | (simp (maxDischargeDepth := 40) +contextual [hs, State.ppmuStart]; done) | (simp only [State.ppmuStart]; (repeat' split) <;> simp (maxDischargeDepth := 40) +contextual [hs])

@[simp] theorem State.writePpmuCfg_wf (s : State) (c : Nat) (v : Word) (hs : s.wf = true) : (State.writePpmuCfg s c
    v).wf = true := by
  first | (simp (maxDischargeDepth := 40) +contextual [hs, State.writePpmuCfg]; done) | (simp only [State.writePpmuCfg]; (repeat' split) <;> simp (maxDischargeDepth := 40) +contextual [hs])

@[simp] theorem State.ppmuResult_wf (s : State) (c : Nat) (cur : Bool) (vs : List Int) (clamped : Bool) (hs : s.wf =
    true) : (State.ppmuResult s c cur vs clamped).wf = true := by
  first | (simp (maxDischargeDepth := 40) +contextual [hs, State.ppmuResult]; done) | (simp only [State.ppmuResult]; (repeat' split) <;> simp (maxDischargeDepth := 40) +contextual [hs])

@[simp] theorem State.writeSenseMeas_wf (s : State) (m : Nat) (v : Word) (hs : s.wf = true) : (State.writeSenseMeas s
    m v).wf = true := by
  first | (simp (maxDischargeDepth := 40) +contextual [hs, State.writeSenseMeas]; done) | (simp only [State.writeSenseMeas]; (repeat' split) <;> simp (maxDischargeDepth := 40) +contextual [hs])

@[simp] theorem State.writeSrefStatus_wf (s : State) (m : Nat) (v : Word) (hs : s.wf = true) : (State.writeSrefStatus
    s m v).wf = true := by
  first | (simp (maxDischargeDepth := 40) +contextual [hs, State.writeSrefStatus]; done) | (simp only [State.writeSrefStatus]; (repeat' split) <;> simp (maxDischargeDepth := 40) +contextual [hs])

@[simp] theorem State.readbackEvent_wf (s : State) (hs : s.wf = true) : (State.readbackEvent s).wf = true := by
  first | (simp (maxDischargeDepth := 40) +contextual [hs, State.readbackEvent]; done) | (simp only [State.readbackEvent]; (repeat' split) <;> simp (maxDischargeDepth := 40) +contextual [hs])

@[simp] theorem State.srefCheck_wf (s : State) (m : Nat) (uv : Int) (hs : s.wf = true) : (State.srefCheck s m uv).wf =
    true := by
  first | (simp (maxDischargeDepth := 40) +contextual [hs, State.srefCheck]; done) | (simp only [State.srefCheck]; (repeat' split) <;> simp (maxDischargeDepth := 40) +contextual [hs])

@[simp] theorem State.senseCheck_wf (s : State) (m : Nat) (high : Bool) (uv : Int) (hs : s.wf = true) :
    (State.senseCheck s m high uv).wf = true := by
  first | (simp (maxDischargeDepth := 40) +contextual [hs, State.senseCheck]; done) | (simp only [State.senseCheck]; (repeat' split) <;> simp (maxDischargeDepth := 40) +contextual [hs])

@[simp] theorem State.convResult_wf (s : State) (sref : Bool) (m : Nat) (v : BitVec 24) (hs : s.wf = true) :
    (State.convResult s sref m v).wf = true := by
  first | (simp (maxDischargeDepth := 40) +contextual [hs, State.convResult]; done) | (simp only [State.convResult]; (repeat' split) <;> simp (maxDischargeDepth := 40) +contextual [hs])

@[simp] theorem State.writePinStatus_wf (s : State) (c : Nat) (v : Word) (hs : s.wf = true) : (State.writePinStatus s
    c v).wf = true := by
  first | (simp (maxDischargeDepth := 40) +contextual [hs, State.writePinStatus]; done) | (simp only [State.writePinStatus]; (repeat' split) <;> simp (maxDischargeDepth := 40) +contextual [hs])

@[simp] theorem State.writeSeqCtrl_wf (s : State) (n : Nat) (v : Word) (hs : s.wf = true) : (State.writeSeqCtrl s n
    v).wf = true := by
  first | (simp (maxDischargeDepth := 40) +contextual [hs, State.writeSeqCtrl]; done) | (simp only [State.writeSeqCtrl]; (repeat' split) <;> simp (maxDischargeDepth := 40) +contextual [hs])

@[simp] theorem State.seqCtrl_wf (s : State) (n : Nat) (v : Word) (hs : s.wf = true) : (State.seqCtrl s n v).wf = true
    := by
  first | (simp (maxDischargeDepth := 40) +contextual [hs, State.seqCtrl]; done) | (simp only [State.seqCtrl]; (repeat' split) <;> simp (maxDischargeDepth := 40) +contextual [hs])

@[simp] theorem State.timingReport_wf (s : State) (n : Nat) (f : TimingFail) (hs : s.wf = true) : (State.timingReport
    s n f).wf = true := by
  first | (simp (maxDischargeDepth := 40) +contextual [hs, State.timingReport]; done) | (simp only [State.timingReport]; (repeat' split) <;> simp (maxDischargeDepth := 40) +contextual [hs])

@[simp] theorem State.timingClear_wf (s : State) (n : Nat) (hs : s.wf = true) : (State.timingClear s n).wf = true :=
    by
  first | (simp (maxDischargeDepth := 40) +contextual [hs, State.timingClear]; done) | (simp only [State.timingClear]; (repeat' split) <;> simp (maxDischargeDepth := 40) +contextual [hs])

@[simp] theorem State.startChan_wf (c : Nat) (s : State) (hs : s.wf = true) : (State.startChan c s).wf = true := by
  first | (simp (maxDischargeDepth := 40) +contextual [hs, State.startChan]; done) | (simp only [State.startChan]; (repeat' split) <;> simp (maxDischargeDepth := 40) +contextual [hs])

@[simp] theorem State.startReset_wf (s : State) (n : Nat) (hs : s.wf = true) : (State.startReset s n).wf = true := by
  first | (simp (maxDischargeDepth := 40) +contextual [hs, State.startReset]; done) | (simp only [State.startReset]; (repeat' split) <;> simp (maxDischargeDepth := 40) +contextual [hs])

@[simp] theorem State.armedGo_wf (s : State) (n : Nat) (r : StartReq) (hs : s.wf = true) : (State.armedGo s n r).wf =
    true := by
  first | (simp (maxDischargeDepth := 40) +contextual [hs, State.armedGo]; done) | (simp only [State.armedGo]; (repeat' split) <;> simp (maxDischargeDepth := 40) +contextual [hs])

@[simp] theorem State.dmaDramPut_wf (s : State) (a : Nat) (bs : List Byte) (hs : s.wf = true) : (State.dmaDramPut s a
    bs).wf = true := by
  first | (simp (maxDischargeDepth := 40) +contextual [hs, State.dmaDramPut]; done) | (simp only [State.dmaDramPut]; (repeat' split) <;> simp (maxDischargeDepth := 40) +contextual [hs])

@[simp] theorem State.hostDramPut_wf (s : State) (a : Nat) (bs : List Byte) (hs : s.wf = true) : (State.hostDramPut s
    a bs).wf = true := by
  first | (simp (maxDischargeDepth := 40) +contextual [hs, State.hostDramPut]; done) | (simp only [State.hostDramPut]; (repeat' split) <;> simp (maxDischargeDepth := 40) +contextual [hs])

@[simp] theorem State.setPart_wf (s : State) (i : Nat) (size : Bool) (v : Word) (hs : s.wf = true) : (State.setPart s
    i size v).wf = true := by
  first | (simp (maxDischargeDepth := 40) +contextual [hs, State.setPart]; done) | (simp only [State.setPart]; (repeat' split) <;> simp (maxDischargeDepth := 40) +contextual [hs])

@[simp] theorem State.writePart_wf (s : State) (i : Nat) (size : Bool) (v : Word) (hs : s.wf = true) :
    (State.writePart s i size v).wf = true := by
  first | (simp (maxDischargeDepth := 40) +contextual [hs, State.writePart]; done) | (simp only [State.writePart]; (repeat' split) <;> simp (maxDischargeDepth := 40) +contextual [hs])

@[simp] theorem State.writeCbMask_wf (s : State) (n : Nat) (v : Word) (hs : s.wf = true) : (State.writeCbMask s n
    v).wf = true := by
  first | (simp (maxDischargeDepth := 40) +contextual [hs, State.writeCbMask]; done) | (simp only [State.writeCbMask]; (repeat' split) <;> simp (maxDischargeDepth := 40) +contextual [hs])

@[simp] theorem State.ringGuard_wf (s : State) (g : Nat) (k : State → State) (hk : ∀ x, x.wf = true → (k x).wf = true)
    (hs : s.wf = true) : (State.ringGuard s g k).wf = true := by
  first | (simp (maxDischargeDepth := 40) +contextual [hs, hk, State.ringGuard]; done) | (simp only [State.ringGuard]; (repeat' split) <;> simp (maxDischargeDepth := 40) +contextual [hs, hk])

@[simp] theorem State.writeRingCh_wf (s : State) (g : Nat) (i : Nat) (v : Word) (hs : s.wf = true) :
    (State.writeRingCh s g i v).wf = true := by
  first | (simp (maxDischargeDepth := 40) +contextual [hs, State.writeRingCh]; done) | (simp only [State.writeRingCh]; (repeat' split) <;> simp (maxDischargeDepth := 40) +contextual [hs])

@[simp] theorem State.patrolPast_wf (s : State) (r : Nat) (hs : s.wf = true) : (State.patrolPast s r).wf = true := by
  first | (simp (maxDischargeDepth := 40) +contextual [hs, State.patrolPast]; done) | (simp only [State.patrolPast]; (repeat' split) <;> simp (maxDischargeDepth := 40) +contextual [hs])

@[simp] theorem State.leaveUpset_wf (s : State) (id : Nat) (a : Nat) (hs : s.wf = true) : (State.leaveUpset s id a).wf
    = true := by
  first | (simp (maxDischargeDepth := 40) +contextual [hs, State.leaveUpset]; done) | (simp only [State.leaveUpset]; (repeat' split) <;> simp (maxDischargeDepth := 40) +contextual [hs])

@[simp] theorem State.patrolEcc_wf (s : State) (k : Nat) (a : Nat) (ecc : Ecc) (hs : s.wf = true) : (State.patrolEcc s
    k a ecc).wf = true := by
  first | (simp (maxDischargeDepth := 40) +contextual [hs, State.patrolEcc]; done) | (simp only [State.patrolEcc]; (repeat' split) <;> simp (maxDischargeDepth := 40) +contextual [hs])

@[simp] theorem State.scrub_wf (s : State) (a : Nat) (ecc : Ecc) (hs : s.wf = true) : (State.scrub s a ecc).wf = true
    := by
  first | (simp (maxDischargeDepth := 40) +contextual [hs, State.scrub]; done) | (simp only [State.scrub]; (repeat' split) <;> simp (maxDischargeDepth := 40) +contextual [hs])

@[simp] theorem State.patrolRegion_wf (s : State) (r : Nat) (ecc : Ecc) (hs : s.wf = true) : (State.patrolRegion s r
    ecc).wf = true := by
  first | (simp (maxDischargeDepth := 40) +contextual [hs, State.patrolRegion]; done) | (simp only [State.patrolRegion]; (repeat' split) <;> simp (maxDischargeDepth := 40) +contextual [hs])

@[simp] theorem State.patrolDone_wf (s : State) (ok : Bool) (hs : s.wf = true) : (State.patrolDone s ok).wf = true :=
    by
  first | (simp (maxDischargeDepth := 40) +contextual [hs, State.patrolDone]; done) | (simp only [State.patrolDone]; (repeat' split) <;> simp (maxDischargeDepth := 40) +contextual [hs])

@[simp] theorem State.poolEcc_wf (s : State) (o : Nat) (n : Nat) (ecc : Ecc) (hs : s.wf = true) : (State.poolEcc s o n
    ecc).wf = true := by
  first | (simp (maxDischargeDepth := 40) +contextual [hs, State.poolEcc]; done) | (simp only [State.poolEcc]; (repeat' split) <;> simp (maxDischargeDepth := 40) +contextual [hs])

@[simp] theorem State.answer_wf (s : State) (bs : List Byte) (poisoned : Bool) (hs : s.wf = true) : (State.answer s bs
    poisoned).wf = true := by
  first | (simp (maxDischargeDepth := 40) +contextual [hs, State.answer]; done) | (simp only [State.answer]; (repeat' split) <;> simp (maxDischargeDepth := 40) +contextual [hs])

@[simp] theorem State.writePage_wf (s : State) (i : Nat) (v : BitVec 16) (hs : s.wf = true) : (State.writePage s i
    v).wf = true := by
  first | (simp (maxDischargeDepth := 40) +contextual [hs, State.writePage]; done) | (simp only [State.writePage]; (repeat' split) <;> simp (maxDischargeDepth := 40) +contextual [hs])

@[simp] theorem State.rwCollision_wf (s : State) (hs : s.wf = true) : (State.rwCollision s).wf = true := by
  first | (simp (maxDischargeDepth := 40) +contextual [hs, State.rwCollision]; done) | (simp only [State.rwCollision]; (repeat' split) <;> simp (maxDischargeDepth := 40) +contextual [hs])

@[simp] theorem State.answerFree_wf (s : State) (n : Nat) (poisoned : Bool) (hs : s.wf = true) : (State.answerFree s n
    poisoned).wf = true := by
  first | (simp (maxDischargeDepth := 40) +contextual [hs, State.answerFree]; done) | (simp only [State.answerFree]; (repeat' split) <;> simp (maxDischargeDepth := 40) +contextual [hs])

@[simp] theorem State.boardMbox_wf (s : State) (i : Nat) (coll : Option Word) (ecc : Ecc) (hs : s.wf = true) :
    (State.boardMbox s i coll ecc).wf = true := by
  first | (simp (maxDischargeDepth := 40) +contextual [hs, State.boardMbox]; done) | (simp only [State.boardMbox]; (repeat' split) <;> simp (maxDischargeDepth := 40) +contextual [hs])

@[simp] theorem State.boardPut_wf (s : State) (i : Nat) (v : BitVec 16) (coll : BoardColl) (hs : s.wf = true) :
    (State.boardPut s i v coll).wf = true := by
  first | (simp (maxDischargeDepth := 40) +contextual [hs, State.boardPut]; done) | (simp only [State.boardPut]; (repeat' split) <;> simp (maxDischargeDepth := 40) +contextual [hs])

@[simp] theorem State.atomicOn_wf (s : State) (acc : Access) (o : Nat) (n : Nat) (ecc : Ecc) (f : Nat → Nat) (hs :
    s.wf = true) : (State.atomicOn s acc o n ecc f).wf = true := by
  first | (simp (maxDischargeDepth := 40) +contextual [hs, State.atomicOn]; done) | (simp only [State.atomicOn]; (repeat' split) <;> simp (maxDischargeDepth := 40) +contextual [hs])

@[simp] theorem State.atomic_wf (s : State) (at_ : AtomicAt) (n : Nat) (f : Nat → Nat) (hs : s.wf = true) :
    (State.atomic s at_ n f).wf = true := by
  first | (simp (maxDischargeDepth := 40) +contextual [hs, State.atomic]; done) | (simp only [State.atomic]; (repeat' split) <;> simp (maxDischargeDepth := 40) +contextual [hs])

@[simp] theorem State.sendPending_wf (s : State) (v : Nat) (hs : s.wf = true) : (State.sendPending s v).wf = true :=
    by
  first | (simp (maxDischargeDepth := 40) +contextual [hs, State.sendPending]; done) | (simp only [State.sendPending]; (repeat' split) <;> simp (maxDischargeDepth := 40) +contextual [hs])

@[simp] theorem State.writeMsix_wf (s : State) (a : Nat) (v : Word) (hs : s.wf = true) : (State.writeMsix s a v).wf =
    true := by
  first | (simp (maxDischargeDepth := 40) +contextual [hs, State.writeMsix]; done) | (simp only [State.writeMsix]; (repeat' split) <;> simp (maxDischargeDepth := 40) +contextual [hs])

@[simp] theorem State.writeQCfg_wf (s : State) (q : Nat) (v : Word) (hs : s.wf = true) : (State.writeQCfg s q v).wf =
    true := by
  first | (simp (maxDischargeDepth := 40) +contextual [hs, State.writeQCfg]; done) | (simp only [State.writeQCfg]; (repeat' split) <;> simp (maxDischargeDepth := 40) +contextual [hs])

@[simp] theorem State.writeQBase_wf (s : State) (q : Nat) (a : Nat) (v : Word) (hs : s.wf = true) : (State.writeQBase
    s q a v).wf = true := by
  first | (simp (maxDischargeDepth := 40) +contextual [hs, State.writeQBase]; done) | (simp only [State.writeQBase]; (repeat' split) <;> simp (maxDischargeDepth := 40) +contextual [hs])

@[simp] theorem State.writeSqTail_wf (s : State) (q : Nat) (v : Word) (hs : s.wf = true) : (State.writeSqTail s q
    v).wf = true := by
  first | (simp (maxDischargeDepth := 40) +contextual [hs, State.writeSqTail]; done) | (simp only [State.writeSqTail]; (repeat' split) <;> simp (maxDischargeDepth := 40) +contextual [hs])

@[simp] theorem State.complAll_wf (q : Nat) (x1 : Nat) (x2 : State) (hs : x2.wf = true) : (State.complAll q x1 x2).wf
    = true := by
  fun_induction State.complAll q x1 x2 <;> simp_all (maxDischargeDepth := 40) +zetaDelta

@[simp] theorem State.writeCqHead_wf (s : State) (q : Nat) (v : Word) (hs : s.wf = true) : (State.writeCqHead s q
    v).wf = true := by
  first | (simp (maxDischargeDepth := 40) +contextual [hs, State.writeCqHead]; done) | (simp only [State.writeCqHead]; (repeat' split) <;> simp (maxDischargeDepth := 40) +contextual [hs])

@[simp] theorem State.writeTimeout_wf (s : State) (f : Field) (v : Word) (hs : s.wf = true) : (State.writeTimeout s f
    v).wf = true := by
  first | (simp (maxDischargeDepth := 40) +contextual [hs, State.writeTimeout]; done) | (simp only [State.writeTimeout]; (repeat' split) <;> simp (maxDischargeDepth := 40) +contextual [hs])

@[simp] theorem State.resetMsix_wf (s : State) (hs : s.wf = true) : (State.resetMsix s).wf = true := by
  first | (simp (maxDischargeDepth := 40) +contextual [hs, State.resetMsix]; done) | (simp only [State.resetMsix]; (repeat' split) <;> simp (maxDischargeDepth := 40) +contextual [hs])

@[simp] theorem State.functionReset_wf (s : State) (hs : s.wf = true) : (State.functionReset s).wf = true := by
  first | (simp (maxDischargeDepth := 40) +contextual [hs, State.functionReset]; done) | (simp only [State.functionReset]; (repeat' split) <;> simp (maxDischargeDepth := 40) +contextual [hs])

@[simp] theorem State.lcResult_wf (s : State) (r : Nat) (hs : s.wf = true) : (State.lcResult s r).wf = true := by
  first | (simp (maxDischargeDepth := 40) +contextual [hs, State.lcResult]; done) | (simp only [State.lcResult]; (repeat' split) <;> simp (maxDischargeDepth := 40) +contextual [hs])

@[simp] theorem State.lcAdvance_wf (s : State) (req : Nat) (hs : s.wf = true) : (State.lcAdvance s req).wf = true :=
    by
  first | (simp (maxDischargeDepth := 40) +contextual [hs, State.lcAdvance]; done) | (simp only [State.lcAdvance]; (repeat' split) <;> simp (maxDischargeDepth := 40) +contextual [hs])

@[simp] theorem State.writeLcReq_wf (s : State) (v : Word) (hs : s.wf = true) : (State.writeLcReq s v).wf = true := by
  first | (simp (maxDischargeDepth := 40) +contextual [hs, State.writeLcReq]; done) | (simp only [State.writeLcReq]; (repeat' split) <;> simp (maxDischargeDepth := 40) +contextual [hs])

@[simp] theorem State.writeLcDebug_wf (s : State) (v : Word) (hs : s.wf = true) : (State.writeLcDebug s v).wf = true
    := by
  first | (simp (maxDischargeDepth := 40) +contextual [hs, State.writeLcDebug]; done) | (simp only [State.writeLcDebug]; (repeat' split) <;> simp (maxDischargeDepth := 40) +contextual [hs])

@[simp] theorem State.lcEffect_wf (s : State) (b : List Byte) (q : Nat) (id : Nat) (hs : s.wf = true) :
    (State.lcEffect s b q id).wf = true := by
  first | (simp (maxDischargeDepth := 40) +contextual [hs, State.lcEffect]; done) | (simp only [State.lcEffect]; (repeat' split) <;> simp (maxDischargeDepth := 40) +contextual [hs])

@[simp] theorem State.lcRefuse_wf (s : State) (q : Nat) (id : Nat) (r : Nat) (hs : s.wf = true) : (State.lcRefuse s q
    id r).wf = true := by
  first | (simp (maxDischargeDepth := 40) +contextual [hs, State.lcRefuse]; done) | (simp only [State.lcRefuse]; (repeat' split) <;> simp (maxDischargeDepth := 40) +contextual [hs])

@[simp] theorem State.signedRequest_wf (s : State) (b : List Byte) (q : Nat) (id : Nat) (hs : s.wf = true) :
    (State.signedRequest s b q id).wf = true := by
  first | (simp (maxDischargeDepth := 40) +contextual [hs, State.signedRequest]; done) | (simp only [State.signedRequest]; (repeat' split) <;> simp (maxDischargeDepth := 40) +contextual [hs])

@[simp] theorem State.sendGo_wf (s : State) (kind : Nat) (sh : Nat) (cue : Nat) (t : Nat) (hs : s.wf = true) :
    (State.sendGo s kind sh cue t).wf = true := by
  first | (simp (maxDischargeDepth := 40) +contextual [hs, State.sendGo]; done) | (simp only [State.sendGo]; (repeat' split) <;> simp (maxDischargeDepth := 40) +contextual [hs])

@[simp] theorem State.sendWhistle_wf (s : State) (kind : Nat) (sh : Nat) (cue : Nat) (t : Nat) (hs : s.wf = true) :
    (State.sendWhistle s kind sh cue t).wf = true := by
  first | (simp (maxDischargeDepth := 40) +contextual [hs, State.sendWhistle]; done) | (simp only [State.sendWhistle]; (repeat' split) <;> simp (maxDischargeDepth := 40) +contextual [hs])

@[simp] theorem State.writeWhistleCfg_wf (s : State) (v : Word) (hs : s.wf = true) : (State.writeWhistleCfg s v).wf =
    true := by
  first | (simp (maxDischargeDepth := 40) +contextual [hs, State.writeWhistleCfg]; done) | (simp only [State.writeWhistleCfg]; (repeat' split) <;> simp (maxDischargeDepth := 40) +contextual [hs])

@[simp] theorem State.writePortCfg_wf (s : State) (p : Nat) (v : Word) (hs : s.wf = true) : (State.writePortCfg s p
    v).wf = true := by
  first | (simp (maxDischargeDepth := 40) +contextual [hs, State.writePortCfg]; done) | (simp only [State.writePortCfg]; (repeat' split) <;> simp (maxDischargeDepth := 40) +contextual [hs])

@[simp] theorem State.writeShow_wf (s : State) (sh : Nat) (a : Nat) (v : Word) (hs : s.wf = true) : (State.writeShow s
    sh a v).wf = true := by
  first | (simp (maxDischargeDepth := 40) +contextual [hs, State.writeShow]; done) | (simp only [State.writeShow]; (repeat' split) <;> simp (maxDischargeDepth := 40) +contextual [hs])

@[simp] theorem State.unbench_wf (sh : Nat) (d : Nat) (s : State) (hs : s.wf = true) : (State.unbench sh d s).wf =
    true := by
  first | (simp (maxDischargeDepth := 40) +contextual [hs, State.unbench]; done) | (simp only [State.unbench]; (repeat' split) <;> simp (maxDischargeDepth := 40) +contextual [hs])

@[simp] theorem State.writeShowBench_wf (s : State) (sh : Nat) (i : Nat) (v : Word) (hs : s.wf = true) :
    (State.writeShowBench s sh i v).wf = true := by
  first | (simp (maxDischargeDepth := 40) +contextual [hs, State.writeShowBench]; done) | (simp only [State.writeShowBench]; (repeat' split) <;> simp (maxDischargeDepth := 40) +contextual [hs])

@[simp] theorem State.setLatch_wf (s : State) (src : Src) (a : Nat) (w : Word) (hs : s.wf = true) : (State.setLatch s
    src a w).wf = true := by
  first | (simp (maxDischargeDepth := 40) +contextual [hs, State.setLatch]; done) | (simp only [State.setLatch]; (repeat' split) <;> simp (maxDischargeDepth := 40) +contextual [hs])

@[simp] theorem State.latchFor_wf (s : State) (src : Src) (b : Nat) (a : Nat) (hs : s.wf = true) : (State.latchFor s
    src b a).wf = true := by
  first | (simp (maxDischargeDepth := 40) +contextual [hs, State.latchFor]; done) | (simp only [State.latchFor]; (repeat' split) <;> simp (maxDischargeDepth := 40) +contextual [hs])

@[simp] theorem State.readReg_wf (s : State) (src : Src) (a : Nat) (hs : s.wf = true) : (State.readReg s src a).2.wf =
    true := by
  first | (simp (maxDischargeDepth := 40) +contextual [hs, State.readReg]; done) | (simp only [State.readReg]; (repeat' split) <;> simp (maxDischargeDepth := 40) +contextual [hs])

@[simp] theorem State.sramPut_wf (s : State) (id : Nat) (o : Nat) (bs : List Byte) (hs : s.wf = true) : (State.sramPut
    s id o bs).wf = true := by
  first | (simp (maxDischargeDepth := 40) +contextual [hs, State.sramPut]; done) | (simp only [State.sramPut]; (repeat' split) <;> simp (maxDischargeDepth := 40) +contextual [hs])

@[simp] theorem State.busRead_wf (s : State) (src : Src) (a : Nat) (hs : s.wf = true) : (State.busRead s src a).2.wf =
    true := by
  first | (simp (maxDischargeDepth := 40) +contextual [hs, State.busRead]; done) | (simp only [State.busRead]; (repeat' split) <;> simp (maxDischargeDepth := 40) +contextual [hs])

@[simp] theorem State.busReads_wf (src : Src) (x1 : Nat) (x2 : Nat) (x3 : State) (hs : x3.wf = true) : (State.busReads
    src x1 x2 x3).2.wf = true := by
  fun_induction State.busReads src x1 x2 x3 <;> simp_all (maxDischargeDepth := 40) +zetaDelta

@[simp] theorem State.windowEcc_wf (s : State) (src : Src) (a : Nat) (n : Nat) (ecc : Ecc) (hs : s.wf = true) :
    (State.windowEcc s src a n ecc).wf = true := by
  first | (simp (maxDischargeDepth := 40) +contextual [hs, State.windowEcc]; done) | (simp only [State.windowEcc]; (repeat' split) <;> simp (maxDischargeDepth := 40) +contextual [hs])

@[simp] theorem State.pinGuard_wf (s : State) (c : Nat) (k : State → State) (hk : ∀ x, x.wf = true → (k x).wf = true)
    (hs : s.wf = true) : (State.pinGuard s c k).wf = true := by
  first | (simp (maxDischargeDepth := 40) +contextual [hs, hk, State.pinGuard]; done) | (simp only [State.pinGuard]; (repeat' split) <;> simp (maxDischargeDepth := 40) +contextual [hs, hk])

@[simp] theorem State.pinError_wf (s : State) (c : Nat) (a : Nat) (k : State → State) (hk : ∀ x, x.wf = true → (k
    x).wf = true) (hs : s.wf = true) : (State.pinError s c a k).wf = true := by
  first | (simp (maxDischargeDepth := 40) +contextual [hs, hk, State.pinError]; done) | (simp only [State.pinError]; (repeat' split) <;> simp (maxDischargeDepth := 40) +contextual [hs, hk])

@[simp] theorem State.trkGuard_wf (s : State) (c : Nat) (k : State → State) (hk : ∀ x, x.wf = true → (k x).wf = true)
    (hs : s.wf = true) : (State.trkGuard s c k).wf = true := by
  first | (simp (maxDischargeDepth := 40) +contextual [hs, hk, State.trkGuard]; done) | (simp only [State.trkGuard]; (repeat' split) <;> simp (maxDischargeDepth := 40) +contextual [hs, hk])

@[simp] theorem State.seqGuard_wf (s : State) (n : Nat) (k : State → State) (hk : ∀ x, x.wf = true → (k x).wf = true)
    (hs : s.wf = true) : (State.seqGuard s n k).wf = true := by
  first | (simp (maxDischargeDepth := 40) +contextual [hs, hk, State.seqGuard]; done) | (simp only [State.seqGuard]; (repeat' split) <;> simp (maxDischargeDepth := 40) +contextual [hs, hk])

@[simp] theorem State.trigGuard_wf (s : State) (k : Nat) (f : State → State) (hk : ∀ x, x.wf = true → (f x).wf = true)
    (hs : s.wf = true) : (State.trigGuard s k f).wf = true := by
  first | (simp (maxDischargeDepth := 40) +contextual [hs, hk, State.trigGuard]; done) | (simp only [State.trigGuard]; (repeat' split) <;> simp (maxDischargeDepth := 40) +contextual [hs, hk])

@[simp] theorem State.streamGuard_wf (s : State) (i : Nat) (k : State → State) (hk : ∀ x, x.wf = true → (k x).wf =
    true) (hs : s.wf = true) : (State.streamGuard s i k).wf = true := by
  first | (simp (maxDischargeDepth := 40) +contextual [hs, hk, State.streamGuard]; done) | (simp only [State.streamGuard]; (repeat' split) <;> simp (maxDischargeDepth := 40) +contextual [hs, hk])

@[simp] theorem State.writeLow_wf (s : State) (b : Nat) (a : Nat) (v : Word) (hs : s.wf = true) : (State.writeLow s b
    a v).wf = true := by
  first | (simp (maxDischargeDepth := 40) +contextual [hs, State.writeLow]; done) | (simp only [State.writeLow]; (repeat' split) <;> simp (maxDischargeDepth := 40) +contextual [hs])

@[simp] theorem State.writeHostLnk_wf (s : State) (b : Nat) (a : Nat) (i : Nat) (j : Nat) (v : Word) (hs : s.wf =
    true) : (State.writeHostLnk s b a i j v).wf = true := by
  unfold State.writeHostLnk
  split <;> first | (simp (maxDischargeDepth := 40) +contextual [hs]; done) | (split <;> simp (maxDischargeDepth := 40) +contextual [hs])

@[simp] theorem State.writeMid_wf (s : State) (b : Nat) (a : Nat) (i : Nat) (v : Word) (hs : s.wf = true) :
    (State.writeMid s b a i v).wf = true := by
  first | (simp (maxDischargeDepth := 40) +contextual [hs, State.writeMid]; done) | (simp only [State.writeMid]; (repeat' split) <;> simp (maxDischargeDepth := 40) +contextual [hs])

@[simp] theorem State.writeApg_wf (s : State) (n : Nat) (bit : Nat) (a : Nat) (v : Word) (hs : s.wf = true) :
    (State.writeApg s n bit a v).wf = true := by
  first | (simp (maxDischargeDepth := 40) +contextual [hs, State.writeApg]; done) | (simp only [State.writeApg]; (repeat' split) <;> simp (maxDischargeDepth := 40) +contextual [hs])

@[simp] theorem State.writeSeq_wf (s : State) (b : Nat) (a : Nat) (n : Nat) (v : Word) (hs : s.wf = true) :
    (State.writeSeq s b a n v).wf = true := by
  first | (simp (maxDischargeDepth := 40) +contextual [hs, State.writeSeq]; done) | (simp only [State.writeSeq]; (repeat' split) <;> simp (maxDischargeDepth := 40) +contextual [hs])

@[simp] theorem State.writePin_wf (s : State) (b : Nat) (a : Nat) (c : Nat) (v : Word) (hs : s.wf = true) :
    (State.writePin s b a c v).wf = true := by
  first | (simp (maxDischargeDepth := 40) +contextual [hs, State.writePin]; done) | (simp only [State.writePin]; (repeat' split) <;> simp (maxDischargeDepth := 40) +contextual [hs])

@[simp] theorem State.writeFail_wf (s : State) (b : Nat) (a : Nat) (g : Nat) (i : Nat) (v : Word) (hs : s.wf = true) :
    (State.writeFail s b a g i v).wf = true := by
  first | (simp (maxDischargeDepth := 40) +contextual [hs, State.writeFail]; done) | (simp only [State.writeFail]; (repeat' split) <;> simp (maxDischargeDepth := 40) +contextual [hs])

@[simp] theorem State.writeReg_wf (s : State) (b : Nat) (a : Nat) (ix : List Nat) (v : Word) (hs : s.wf = true) :
    (State.writeReg s b a ix v).wf = true := by
  first | (simp (maxDischargeDepth := 40) +contextual [hs, State.writeReg]; done) | (simp only [State.writeReg]; (repeat' split) <;> simp (maxDischargeDepth := 40) +contextual [hs])

@[simp] theorem State.windowWrite_wf (s : State) (id : Nat) (o : Nat) (v : Word) (be : BitVec 4) (hs : s.wf = true) :
    (State.windowWrite s id o v be).wf = true := by
  first | (simp (maxDischargeDepth := 40) +contextual [hs, State.windowWrite]; done) | (simp only [State.windowWrite]; (repeat' split) <;> simp (maxDischargeDepth := 40) +contextual [hs])

@[simp] theorem State.busWrite_wf (s : State) (src : Src) (a : Nat) (v : Word) (be : BitVec 4) (hs : s.wf = true) :
    (State.busWrite s src a v be).wf = true := by
  first | (simp (maxDischargeDepth := 40) +contextual [hs, State.busWrite]; done) | (simp only [State.busWrite]; (repeat' split) <;> simp (maxDischargeDepth := 40) +contextual [hs])

@[simp] theorem State.busWrites_wf (src : Src) (x1 : Nat) (x2 : List Word) (x3 : State) (hs : x3.wf = true) :
    (State.busWrites src x1 x2 x3).wf = true := by
  fun_induction State.busWrites src x1 x2 x3 <;> simp_all (maxDischargeDepth := 40) +zetaDelta

@[simp] theorem State.assignIndex_wf (s : State) (w : BitVec 56) (hs : s.wf = true) : (State.assignIndex s w).wf =
    true := by
  first | (simp (maxDischargeDepth := 40) +contextual [hs, State.assignIndex]; done) | (simp only [State.assignIndex]; (repeat' split) <;> simp (maxDischargeDepth := 40) +contextual [hs])

@[simp] theorem State.resend_wf (s : State) (p : Nat) (f : Unacked → Unacked) (hs : s.wf = true) : (State.resend s p
    f).wf = true := by
  first | (simp (maxDischargeDepth := 40) +contextual [hs, State.resend]; done) | (simp only [State.resend]; (repeat' split) <;> simp (maxDischargeDepth := 40) +contextual [hs])

@[simp] theorem State.portUp_wf (s : State) (p : Nat) (phy : BitVec 16) (w : BitVec 56) (hs : s.wf = true) :
    (State.portUp s p phy w).wf = true := by
  first | (simp (maxDischargeDepth := 40) +contextual [hs, State.portUp]; done) | (simp only [State.portUp]; (repeat' split) <;> simp (maxDischargeDepth := 40) +contextual [hs])

@[simp] theorem State.replay_wf (s : State) (p : Nat) (hs : s.wf = true) : (State.replay s p).wf = true := by
  first | (simp (maxDischargeDepth := 40) +contextual [hs, State.replay]; done) | (simp only [State.replay]; (repeat' split) <;> simp (maxDischargeDepth := 40) +contextual [hs])

@[simp] theorem State.replyTo_wf (s : State) (x : TagSt) (from_ : Nat) (status : Nat) (words : List Word) (hs : s.wf =
    true) : (State.replyTo s x from_ status words).wf = true := by
  first | (simp (maxDischargeDepth := 40) +contextual [hs, State.replyTo]; done) | (simp only [State.replyTo]; (repeat' split) <;> simp (maxDischargeDepth := 40) +contextual [hs])

@[simp] theorem State.receive_wf (s : State) (p : Port) (h : FrameHdr) (rsp : Bool) (k : State → State) (hk : ∀ x,
    x.wf = true → (k x).wf = true) (hs : s.wf = true) : (State.receive s p h rsp k).wf = true := by
  first | (simp (maxDischargeDepth := 40) +contextual [hs, hk, State.receive]; done) | (simp only [State.receive]; (repeat' split) <;> simp (maxDischargeDepth := 40) +contextual [hs, hk])

@[simp] theorem State.passOn_wf (s : State) (p : Port) (h : FrameHdr) (ftype : Nat) (data : List Word) (hs : s.wf =
    true) : (State.passOn s p h ftype data).wf = true := by
  first | (simp (maxDischargeDepth := 40) +contextual [hs, State.passOn]; done) | (simp only [State.passOn]; (repeat' split) <;> simp (maxDischargeDepth := 40) +contextual [hs])

@[simp] theorem State.passReq_wf (s : State) (p : Port) (h : FrameHdr) (wr : Bool) (data : List Word) (hs : s.wf =
    true) : (State.passReq s p h wr data).wf = true := by
  first | (simp (maxDischargeDepth := 40) +contextual [hs, State.passReq]; done) | (simp only [State.passReq]; (repeat' split) <;> simp (maxDischargeDepth := 40) +contextual [hs])

@[simp] theorem State.readWords_wf (s : State) (src : Src) (a : Nat) (n : Nat) (ecc : Ecc) (hs : s.wf = true) :
    (State.readWords s src a n ecc).2.wf = true := by
  first | (simp (maxDischargeDepth := 40) +contextual [hs, State.readWords]; done) | (simp only [State.readWords]; (repeat' split) <;> simp (maxDischargeDepth := 40) +contextual [hs])

@[simp] theorem State.answerFrame_wf (s : State) (p : Port) (h : FrameHdr) (ftype : Nat) (status : Nat) (words : List
    Word) (hs : s.wf = true) : (State.answerFrame s p h ftype status words).wf = true := by
  first | (simp (maxDischargeDepth := 40) +contextual [hs, State.answerFrame]; done) | (simp only [State.answerFrame]; (repeat' split) <;> simp (maxDischargeDepth := 40) +contextual [hs])

@[simp] theorem State.takeReply_wf (s : State) (p : Port) (h : FrameHdr) (wr : Bool) (status : Word) (words : List
    Word) (hs : s.wf = true) : (State.takeReply s p h wr status words).wf = true := by
  first | (simp (maxDischargeDepth := 40) +contextual [hs, State.takeReply]; done) | (simp only [State.takeReply]; (repeat' split) <;> simp (maxDischargeDepth := 40) +contextual [hs])

@[simp] theorem State.recordTells_wf (s : State) (r : EvtRec) (hs : s.wf = true) : (State.recordTells s r).wf = true
    := by
  first | (simp (maxDischargeDepth := 40) +contextual [hs, State.recordTells]; done) | (simp only [State.recordTells]; (repeat' split) <;> simp (maxDischargeDepth := 40) +contextual [hs])

@[simp] theorem State.storeProfile_wf (s : State) (p : Nat) (d : Nat) (ws : List Word) (hs : s.wf = true) :
    (State.storeProfile s p d ws).wf = true := by
  first | (simp (maxDischargeDepth := 40) +contextual [hs, State.storeProfile]; done) | (simp only [State.storeProfile]; (repeat' split) <;> simp (maxDischargeDepth := 40) +contextual [hs])

@[simp] theorem State.takeReport_wf (s : State) (d : Nat) (sh : Nat) (act : Nat) (state : Nat) (hs : s.wf = true) :
    (State.takeReport s d sh act state).wf = true := by
  first | (simp (maxDischargeDepth := 40) +contextual [hs, State.takeReport]; done) | (simp only [State.takeReport]; (repeat' split) <;> simp (maxDischargeDepth := 40) +contextual [hs])

@[simp] theorem State.takeBench_wf (s : State) (sh : Nat) (clear : Bool) (hs : s.wf = true) : (State.takeBench s sh
    clear).wf = true := by
  first | (simp (maxDischargeDepth := 40) +contextual [hs, State.takeBench]; done) | (simp only [State.takeBench]; (repeat' split) <;> simp (maxDischargeDepth := 40) +contextual [hs])

@[simp] theorem State.takeWhistle_wf (s : State) (p : Port) (w : WhistleIn) (kind : Nat) (cue : Nat) (t : Nat) (hs :
    s.wf = true) : (State.takeWhistle s p w kind cue t).wf = true := by
  first | (simp (maxDischargeDepth := 40) +contextual [hs, State.takeWhistle]; done) | (simp only [State.takeWhistle]; (repeat' split) <;> simp (maxDischargeDepth := 40) +contextual [hs])

@[simp] theorem State.dupHit_wf (s : State) (hs : s.wf = true) : (State.dupHit s).wf = true := by
  first | (simp (maxDischargeDepth := 40) +contextual [hs, State.dupHit]; done) | (simp only [State.dupHit]; (repeat' split) <;> simp (maxDischargeDepth := 40) +contextual [hs])

@[simp] theorem State.fetched_wf (s : State) (q : Nat) (c : HostCmd) (hs : s.wf = true) : (State.fetched s q c).wf =
    true := by
  first | (simp (maxDischargeDepth := 40) +contextual [hs, State.fetched]; done) | (simp only [State.fetched]; (repeat' split) <;> simp (maxDischargeDepth := 40) +contextual [hs])

@[simp] theorem State.timeoutEvent_wf (s : State) (q : Nat) (id : Nat) (hs : s.wf = true) : (State.timeoutEvent s q
    id).wf = true := by
  first | (simp (maxDischargeDepth := 40) +contextual [hs, State.timeoutEvent]; done) | (simp only [State.timeoutEvent]; (repeat' split) <;> simp (maxDischargeDepth := 40) +contextual [hs])

@[simp] theorem State.timedOut_wf (s : State) (q : Nat) (id : Nat) (hs : s.wf = true) : (State.timedOut s q id).wf =
    true := by
  first | (simp (maxDischargeDepth := 40) +contextual [hs, State.timedOut]; done) | (simp only [State.timedOut]; (repeat' split) <;> simp (maxDischargeDepth := 40) +contextual [hs])

@[simp] theorem State.waitOver_wf (s : State) (t : Nat) (hs : s.wf = true) : (State.waitOver s t).wf = true := by
  first | (simp (maxDischargeDepth := 40) +contextual [hs, State.waitOver]; done) | (simp only [State.waitOver]; (repeat' split) <;> simp (maxDischargeDepth := 40) +contextual [hs])

@[simp] theorem State.payRead_wf (q : Nat) (s : State) (e : Prod Nat (List Word)) (hs : s.wf = true) : (State.payRead
    q s e).wf = true := by
  first | (simp (maxDischargeDepth := 40) +contextual [hs, State.payRead]; done) | (simp only [State.payRead]; (repeat' split) <;> simp (maxDischargeDepth := 40) +contextual [hs])

@[simp] theorem State.deliverOwed_wf (s : State) (hs : s.wf = true) : (State.deliverOwed s).wf = true := by
  first | (simp (maxDischargeDepth := 40) +contextual [hs, State.deliverOwed]; done) | (simp only [State.deliverOwed]; (repeat' split) <;> simp (maxDischargeDepth := 40) +contextual [hs])

@[simp] theorem State.inRange_wf (s : State) (q : Nat) (id : Nat) (ok : Bool) (k : State → State) (hk : ∀ x, x.wf =
    true → (k x).wf = true) (hs : s.wf = true) : (State.inRange s q id ok k).wf = true := by
  first | (simp (maxDischargeDepth := 40) +contextual [hs, hk, State.inRange]; done) | (simp only [State.inRange]; (repeat' split) <;> simp (maxDischargeDepth := 40) +contextual [hs, hk])

@[simp] theorem State.withData_wf (s : State) (q : Nat) (id : Nat) (d : HostData) (k : List Byte → State → State) (hk
    : ∀ y x, x.wf = true → (k y x).wf = true) (hs : s.wf = true) : (State.withData s q id d k).wf = true := by
  first | (simp (maxDischargeDepth := 40) +contextual [hs, hk, State.withData]; done) | (simp only [State.withData]; (repeat' split) <;> simp (maxDischargeDepth := 40) +contextual [hs, hk])

@[simp] theorem State.regWord_wf (s : State) (q : Nat) (id : Nat) (a : Nat) (ws : List Word) (hs : s.wf = true) :
    (State.regWord s q id a ws).wf = true := by
  first | (simp (maxDischargeDepth := 40) +contextual [hs, State.regWord]; done) | (simp only [State.regWord]; (repeat' split) <;> simp (maxDischargeDepth := 40) +contextual [hs])

@[simp] theorem State.setValid_wf (s : State) (n : Nat) (b : Nat) (v : Bool) (hs : s.wf = true) : (State.setValid s n
    b v).wf = true := by
  first | (simp (maxDischargeDepth := 40) +contextual [hs, State.setValid]; done) | (simp only [State.setValid]; (repeat' split) <;> simp (maxDischargeDepth := 40) +contextual [hs])

@[simp] theorem State.blockStore_wf (s : State) (q : Nat) (id : Nat) (n : Nat) (b : Nat) (bs : List Byte) (hs : s.wf =
    true) : (State.blockStore s q id n b bs).wf = true := by
  first | (simp (maxDischargeDepth := 40) +contextual [hs, State.blockStore]; done) | (simp only [State.blockStore]; (repeat' split) <;> simp (maxDischargeDepth := 40) +contextual [hs])

@[simp] theorem State.blockOpen_wf (s : State) (q : Nat) (id : Nat) (n : Nat) (b : Nat) (bs : List Byte) (hs : s.wf =
    true) : (State.blockOpen s q id n b bs).wf = true := by
  first | (simp (maxDischargeDepth := 40) +contextual [hs, State.blockOpen]; done) | (simp only [State.blockOpen]; (repeat' split) <;> simp (maxDischargeDepth := 40) +contextual [hs])

@[simp] theorem State.finFor_wf (s : State) (q : Nat) (id : Nat) (hs : s.wf = true) : (State.finFor s q id).wf = true
    := by
  first | (simp (maxDischargeDepth := 40) +contextual [hs, State.finFor]; done) | (simp only [State.finFor]; (repeat' split) <;> simp (maxDischargeDepth := 40) +contextual [hs])

@[simp] theorem State.nvmAbortCmd_wf (s : State) (q : Nat) (id : Nat) (hs : s.wf = true) : (State.nvmAbortCmd s q
    id).wf = true := by
  first | (simp (maxDischargeDepth := 40) +contextual [hs, State.nvmAbortCmd]; done) | (simp only [State.nvmAbortCmd]; (repeat' split) <;> simp (maxDischargeDepth := 40) +contextual [hs])

@[simp] theorem State.remoteSend_wf (s : State) (q : Nat) (id : Nat) (d : Nat) (wr : Bool) (data : List Word) (hs :
    s.wf = true) : (State.remoteSend s q id d wr data).wf = true := by
  first | (simp (maxDischargeDepth := 40) +contextual [hs, State.remoteSend]; done) | (simp only [State.remoteSend]; (repeat' split) <;> simp (maxDischargeDepth := 40) +contextual [hs])

end Sys2Proof.Machine
end

