-- ==== Sys2Proof/Laws/WfExec.lean ====
section
/-! SUPPORT. Every command that answers a next state keeps the canonical form of the memories and of the register file. -/

namespace Sys2Proof.Machine

set_option linter.unusedTactic false
set_option linter.unreachableTactic false
set_option linter.unnecessarySeqFocus false
set_option linter.unusedSimpArgs false

theorem execNextVec_wf (n : Act) (ecc : Ecc) (s : State) (hs : s.wf = true) (s' : State) (h : execNextVec n ecc s =
    .next s') : s'.wf = true := by
  simp only [execNextVec] at h
  (repeat' split at h) <;>
    first
      | (obtain h | h | h | ⟨w, h⟩ := microStep_next h <;> rw [h] <;> first | (simp (maxDischargeDepth := 40) +contextual [hs]; done) | ((repeat' split) <;> simp (maxDischargeDepth := 40) +contextual [hs]))
      | (injection h with h; subst h; simp (maxDischargeDepth := 40) +contextual [hs])

theorem execRepeatVec_wf (n : Act) (k : Nat) (s : State) (hs : s.wf = true) (s' : State) (h : execRepeatVec n k s =
    .next s') : s'.wf = true := by
  simp only [execRepeatVec] at h
  (repeat' split at h) <;>
    first
      | (obtain h | h | h | ⟨w, h⟩ := microStep_next h <;> rw [h] <;> first | (simp (maxDischargeDepth := 40) +contextual [hs]; done) | ((repeat' split) <;> simp (maxDischargeDepth := 40) +contextual [hs]))
      | (injection h with h; subst h; simp (maxDischargeDepth := 40) +contextual [hs])

theorem execJump_wf (n : Act) (s : State) (hs : s.wf = true) (s' : State) (h : execJump n s = .next s') : s'.wf = true
    := by
  simp only [execJump] at h
  (repeat' split at h) <;>
    first
      | (obtain h | h | h | ⟨w, h⟩ := microStep_next h <;> rw [h] <;> first | (simp (maxDischargeDepth := 40) +contextual [hs]; done) | ((repeat' split) <;> simp (maxDischargeDepth := 40) +contextual [hs]))
      | (injection h with h; subst h; simp (maxDischargeDepth := 40) +contextual [hs])

theorem execCall_wf (n : Act) (s : State) (hs : s.wf = true) (s' : State) (h : execCall n s = .next s') : s'.wf = true
    := by
  simp only [execCall] at h
  (repeat' split at h) <;>
    first
      | (obtain h | h | h | ⟨w, h⟩ := microStep_next h <;> rw [h] <;> first | (simp (maxDischargeDepth := 40) +contextual [hs]; done) | ((repeat' split) <;> simp (maxDischargeDepth := 40) +contextual [hs]))
      | (injection h with h; subst h; simp (maxDischargeDepth := 40) +contextual [hs])

theorem execRet_wf (n : Act) (s : State) (hs : s.wf = true) (s' : State) (h : execRet n s = .next s') : s'.wf = true
    := by
  simp only [execRet] at h
  (repeat' split at h) <;>
    first
      | (obtain h | h | h | ⟨w, h⟩ := microStep_next h <;> rw [h] <;> first | (simp (maxDischargeDepth := 40) +contextual [hs]; done) | ((repeat' split) <;> simp (maxDischargeDepth := 40) +contextual [hs]))
      | (injection h with h; subst h; simp (maxDischargeDepth := 40) +contextual [hs])

theorem execLoopVec_wf (n : Act) (s : State) (hs : s.wf = true) (s' : State) (h : execLoopVec n s = .next s') : s'.wf
    = true := by
  simp only [execLoopVec] at h
  (repeat' split at h) <;>
    first
      | (obtain h | h | h | ⟨w, h⟩ := microStep_next h <;> rw [h] <;> first | (simp (maxDischargeDepth := 40) +contextual [hs]; done) | ((repeat' split) <;> simp (maxDischargeDepth := 40) +contextual [hs]))
      | (injection h with h; subst h; simp (maxDischargeDepth := 40) +contextual [hs])

theorem execEndloop_wf (n : Act) (s : State) (hs : s.wf = true) (s' : State) (h : execEndloop n s = .next s') : s'.wf
    = true := by
  simp only [execEndloop] at h
  (repeat' split at h) <;>
    first
      | (obtain h | h | h | ⟨w, h⟩ := microStep_next h <;> rw [h] <;> first | (simp (maxDischargeDepth := 40) +contextual [hs]; done) | ((repeat' split) <;> simp (maxDischargeDepth := 40) +contextual [hs]))
      | (injection h with h; subst h; simp (maxDischargeDepth := 40) +contextual [hs])

theorem execBranch_wf (n : Act) (s : State) (hs : s.wf = true) (s' : State) (h : execBranch n s = .next s') : s'.wf =
    true := by
  simp only [execBranch] at h
  (repeat' split at h) <;>
    first
      | (obtain h | h | h | ⟨w, h⟩ := microStep_next h <;> rw [h] <;> first | (simp (maxDischargeDepth := 40) +contextual [hs]; done) | ((repeat' split) <;> simp (maxDischargeDepth := 40) +contextual [hs]))
      | (injection h with h; subst h; simp (maxDischargeDepth := 40) +contextual [hs])

theorem execMatchVec_wf (n : Act) (k : Nat) (s : State) (hs : s.wf = true) (s' : State) (h : execMatchVec n k s =
    .next s') : s'.wf = true := by
  simp only [execMatchVec] at h
  (repeat' split at h) <;>
    first
      | (obtain h | h | h | ⟨w, h⟩ := microStep_next h <;> rw [h] <;> first | (simp (maxDischargeDepth := 40) +contextual [hs]; done) | ((repeat' split) <;> simp (maxDischargeDepth := 40) +contextual [hs]))
      | (injection h with h; subst h; simp (maxDischargeDepth := 40) +contextual [hs])

theorem execMatchTimeout_wf (n : Act) (s : State) (hs : s.wf = true) (s' : State) (h : execMatchTimeout n s = .next
    s') : s'.wf = true := by
  simp only [execMatchTimeout] at h
  (repeat' split at h) <;>
    first
      | contradiction
      | (injection h with h; subst h; simp (maxDischargeDepth := 40) +contextual [hs])

theorem execWaitTime_wf (n : Act) (k : Nat) (s : State) (hs : s.wf = true) (s' : State) (h : execWaitTime n k s =
    .next s') : s'.wf = true := by
  simp only [execWaitTime] at h
  (repeat' split at h) <;>
    first
      | (obtain h | h | h | ⟨w, h⟩ := microStep_next h <;> rw [h] <;> first | (simp (maxDischargeDepth := 40) +contextual [hs]; done) | ((repeat' split) <;> simp (maxDischargeDepth := 40) +contextual [hs]))
      | (injection h with h; subst h; simp (maxDischargeDepth := 40) +contextual [hs])

theorem execWaitTimeReached_wf (n : Act) (s : State) (hs : s.wf = true) (s' : State) (h : execWaitTimeReached n s =
    .next s') : s'.wf = true := by
  simp only [execWaitTimeReached] at h
  (repeat' split at h) <;>
    first
      | contradiction
      | (injection h with h; subst h; simp (maxDischargeDepth := 40) +contextual [hs])

theorem execWaitWhistle_wf (n : Act) (k : Nat) (s : State) (hs : s.wf = true) (s' : State) (h : execWaitWhistle n k s
    = .next s') : s'.wf = true := by
  simp only [execWaitWhistle] at h
  (repeat' split at h) <;>
    first
      | (obtain h | h | h | ⟨w, h⟩ := microStep_next h <;> rw [h] <;> first | (simp (maxDischargeDepth := 40) +contextual [hs]; done) | ((repeat' split) <;> simp (maxDischargeDepth := 40) +contextual [hs]))
      | (injection h with h; subst h; simp (maxDischargeDepth := 40) +contextual [hs])

theorem execWaitTimeout_wf (n : Act) (s : State) (hs : s.wf = true) (s' : State) (h : execWaitTimeout n s = .next s')
    : s'.wf = true := by
  simp only [execWaitTimeout] at h
  (repeat' split at h) <;>
    first
      | contradiction
      | (injection h with h; subst h; simp (maxDischargeDepth := 40) +contextual [hs])

theorem execCallBlock_wf (n : Act) (k : Nat) (s : State) (hs : s.wf = true) (s' : State) (h : execCallBlock n k s =
    .next s') : s'.wf = true := by
  simp only [execCallBlock] at h
  (repeat' split at h) <;>
    first
      | (obtain h | h | h | ⟨w, h⟩ := microStep_next h <;> rw [h] <;> first | (simp (maxDischargeDepth := 40) +contextual [hs]; done) | ((repeat' split) <;> simp (maxDischargeDepth := 40) +contextual [hs]))
      | (injection h with h; subst h; simp (maxDischargeDepth := 40) +contextual [hs])

theorem execSwap_wf (n : Act) (s : State) (hs : s.wf = true) (s' : State) (h : execSwap n s = .next s') : s'.wf = true
    := by
  simp only [execSwap] at h
  (repeat' split at h) <;>
    first
      | (obtain h | h | h | ⟨w, h⟩ := microStep_next h <;> rw [h] <;> first | (simp (maxDischargeDepth := 40) +contextual [hs]; done) | ((repeat' split) <;> simp (maxDischargeDepth := 40) +contextual [hs]))
      | (injection h with h; subst h; simp (maxDischargeDepth := 40) +contextual [hs])

theorem execMarkVec_wf (n : Act) (s : State) (hs : s.wf = true) (s' : State) (h : execMarkVec n s = .next s') : s'.wf
    = true := by
  simp only [execMarkVec] at h
  (repeat' split at h) <;>
    first
      | (obtain h | h | h | ⟨w, h⟩ := microStep_next h <;> rw [h] <;> first | (simp (maxDischargeDepth := 40) +contextual [hs]; done) | ((repeat' split) <;> simp (maxDischargeDepth := 40) +contextual [hs]))
      | (injection h with h; subst h; simp (maxDischargeDepth := 40) +contextual [hs])

theorem execHalt_wf (n : Act) (s : State) (hs : s.wf = true) (s' : State) (h : execHalt n s = .next s') : s'.wf = true
    := by
  simp only [execHalt] at h
  (repeat' split at h) <;>
    first
      | (obtain h | h | h | ⟨w, h⟩ := microStep_next h <;> rw [h] <;> first | (simp (maxDischargeDepth := 40) +contextual [hs]; done) | ((repeat' split) <;> simp (maxDischargeDepth := 40) +contextual [hs]))
      | (injection h with h; subst h; simp (maxDischargeDepth := 40) +contextual [hs])

theorem execPrefetchRecord_wf (n : Act) (k : Nat) (ecc : Ecc) (s : State) (hs : s.wf = true) (s' : State) (h :
    execPrefetchRecord n k ecc s = .next s') : s'.wf = true := by
  simp only [execPrefetchRecord] at h
  (repeat' split at h) <;>
    first
      | contradiction
      | (injection h with h; subst h; simp (maxDischargeDepth := 40) +contextual [hs])

theorem execForwardFrame_wf (d : Die) (f : FwdFrame) (s : State) (hs : s.wf = true) (s' : State) (h : execForwardFrame
    d f s = .next s') : s'.wf = true := by
  simp only [execForwardFrame] at h
  (repeat' split at h) <;>
    first
      | contradiction
      | (injection h with h; subst h; simp (maxDischargeDepth := 40) +contextual [hs])

theorem execPinEdge_wf (c : Chan) (cyc : BitVec 64) (e : PinEv) (raw : Bool) (s : State) (hs : s.wf = true) (s' :
    State) (h : execPinEdge c cyc e raw s = .next s') : s'.wf = true := by
  simp only [execPinEdge] at h
  (repeat' split at h) <;>
    first
      | contradiction
      | (injection h with h; subst h; simp (maxDischargeDepth := 40) +contextual [hs])

theorem execReturnFrame_wf (d : Die) (f : RetFrame) (ecc : Ecc) (s : State) (hs : s.wf = true) (s' : State) (h :
    execReturnFrame d f ecc s = .next s') : s'.wf = true := by
  simp only [execReturnFrame] at h
  (repeat' split at h) <;>
    first
      | contradiction
      | (injection h with h; subst h; simp (maxDischargeDepth := 40) +contextual [hs])

theorem execComparatorTransition_wf (c : Chan) (low : Bool) (rise : Bool) (t : BitVec 70) (code : BitVec 9) (s :
    State) (hs : s.wf = true) (s' : State) (h : execComparatorTransition c low rise t code s = .next s') : s'.wf =
    true := by
  simp only [execComparatorTransition] at h
  (repeat' split at h) <;>
    first
      | contradiction
      | (injection h with h; subst h; simp (maxDischargeDepth := 40) +contextual [hs])

theorem execBurstTimeout_wf (c : Chan) (s : State) (hs : s.wf = true) (s' : State) (h : execBurstTimeout c s = .next
    s') : s'.wf = true := by
  simp only [execBurstTimeout] at h
  (repeat' split at h) <;>
    first
      | contradiction
      | (injection h with h; subst h; simp (maxDischargeDepth := 40) +contextual [hs])

theorem execTdcStart_wf (c : Chan) (v : Word) (s : State) (hs : s.wf = true) (s' : State) (h : execTdcStart c v s =
    .next s') : s'.wf = true := by
  simp only [execTdcStart] at h
  (repeat' split at h) <;>
    first
      | contradiction
      | (injection h with h; subst h; simp (maxDischargeDepth := 40) +contextual [hs])

theorem execTdcAbort_wf (c : Chan) (v : Word) (s : State) (hs : s.wf = true) (s' : State) (h : execTdcAbort c v s =
    .next s') : s'.wf = true := by
  simp only [execTdcAbort] at h
  (repeat' split at h) <;>
    first
      | contradiction
      | (injection h with h; subst h; simp (maxDischargeDepth := 40) +contextual [hs])

theorem execMissClr_wf (c : Chan) (v : Word) (s : State) (hs : s.wf = true) (s' : State) (h : execMissClr c v s =
    .next s') : s'.wf = true := by
  simp only [execMissClr] at h
  (repeat' split at h) <;>
    first
      | contradiction
      | (injection h with h; subst h; simp (maxDischargeDepth := 40) +contextual [hs])

theorem execTdcArmTime_wf (c : Chan) (s : State) (hs : s.wf = true) (s' : State) (h : execTdcArmTime c s = .next s') :
    s'.wf = true := by
  simp only [execTdcArmTime] at h
  (repeat' split at h) <;>
    first
      | contradiction
      | (injection h with h; subst h; simp (maxDischargeDepth := 40) +contextual [hs])

theorem execTdcTimeout_wf (c : Chan) (s : State) (hs : s.wf = true) (s' : State) (h : execTdcTimeout c s = .next s') :
    s'.wf = true := by
  simp only [execTdcTimeout] at h
  (repeat' split at h) <;>
    first
      | contradiction
      | (injection h with h; subst h; simp (maxDischargeDepth := 40) +contextual [hs])

theorem execSkewWindow_wf (c : Chan) (s : State) (hs : s.wf = true) (s' : State) (h : execSkewWindow c s = .next s') :
    s'.wf = true := by
  simp only [execSkewWindow] at h
  (repeat' split at h) <;>
    first
      | contradiction
      | (injection h with h; subst h; simp (maxDischargeDepth := 40) +contextual [hs])

theorem execFreqGate_wf (c : Chan) (s : State) (hs : s.wf = true) (s' : State) (h : execFreqGate c s = .next s') :
    s'.wf = true := by
  simp only [execFreqGate] at h
  (repeat' split at h) <;>
    first
      | contradiction
      | (injection h with h; subst h; simp (maxDischargeDepth := 40) +contextual [hs])

theorem execTdcResult_wf (c : Chan) (s : State) (hs : s.wf = true) (s' : State) (h : execTdcResult c s = .next s') :
    s'.wf = true := by
  simp only [execTdcResult] at h
  (repeat' split at h) <;>
    first
      | contradiction
      | (injection h with h; subst h; simp (maxDischargeDepth := 40) +contextual [hs])

theorem execTrigArm_wf (k : Trig) (v : Word) (s : State) (hs : s.wf = true) (s' : State) (h : execTrigArm k v s =
    .next s') : s'.wf = true := by
  simp only [execTrigArm] at h
  (repeat' split at h) <;>
    first
      | contradiction
      | (injection h with h; subst h; simp (maxDischargeDepth := 40) +contextual [hs])

theorem execTrigDisarm_wf (k : Trig) (v : Word) (s : State) (hs : s.wf = true) (s' : State) (h : execTrigDisarm k v s
    = .next s') : s'.wf = true := by
  simp only [execTrigDisarm] at h
  (repeat' split at h) <;>
    first
      | contradiction
      | (injection h with h; subst h; simp (maxDischargeDepth := 40) +contextual [hs])

theorem execTrigStageTimeout_wf (k : Trig) (s : State) (hs : s.wf = true) (s' : State) (h : execTrigStageTimeout k s =
    .next s') : s'.wf = true := by
  simp only [execTrigStageTimeout] at h
  (repeat' split at h) <;>
    first
      | contradiction
      | (injection h with h; subst h; simp (maxDischargeDepth := 40) +contextual [hs])

theorem execTrigHoldoffEnd_wf (k : Trig) (s : State) (hs : s.wf = true) (s' : State) (h : execTrigHoldoffEnd k s =
    .next s') : s'.wf = true := by
  simp only [execTrigHoldoffEnd] at h
  (repeat' split at h) <;>
    first
      | contradiction
      | (injection h with h; subst h; simp (maxDischargeDepth := 40) +contextual [hs])

theorem execStreamEnable_wf (i : Stream) (v : Word) (s : State) (hs : s.wf = true) (s' : State) (h : execStreamEnable
    i v s = .next s') : s'.wf = true := by
  simp only [execStreamEnable] at h
  (repeat' split at h) <;>
    first
      | contradiction
      | (injection h with h; subst h; simp (maxDischargeDepth := 40) +contextual [hs])

theorem execStreamDisable_wf (i : Stream) (v : Word) (s : State) (hs : s.wf = true) (s' : State) (h :
    execStreamDisable i v s = .next s') : s'.wf = true := by
  simp only [execStreamDisable] at h
  (repeat' split at h) <;>
    first
      | contradiction
      | (injection h with h; subst h; simp (maxDischargeDepth := 40) +contextual [hs])

theorem execIntegEnd_wf (i : Stream) (d : Die) (s : State) (hs : s.wf = true) (s' : State) (h : execIntegEnd i d s =
    .next s') : s'.wf = true := by
  simp only [execIntegEnd] at h
  (repeat' split at h) <;>
    first
      | contradiction
      | (injection h with h; subst h; simp (maxDischargeDepth := 40) +contextual [hs])

theorem execRecordWindowEnd_wf (i : Stream) (s : State) (hs : s.wf = true) (s' : State) (h : execRecordWindowEnd i s =
    .next s') : s'.wf = true := by
  simp only [execRecordWindowEnd] at h
  (repeat' split at h) <;>
    first
      | contradiction
      | (injection h with h; subst h; simp (maxDischargeDepth := 40) +contextual [hs])

theorem execStampsClose_wf (i : Stream) (s : State) (hs : s.wf = true) (s' : State) (h : execStampsClose i s = .next
    s') : s'.wf = true := by
  simp only [execStampsClose] at h
  (repeat' split at h) <;>
    first
      | contradiction
      | (injection h with h; subst h; simp (maxDischargeDepth := 40) +contextual [hs])

theorem execStreamRecord_wf (i : Stream) (s : State) (hs : s.wf = true) (s' : State) (h : execStreamRecord i s = .next
    s') : s'.wf = true := by
  simp only [execStreamRecord] at h
  (repeat' split at h) <;>
    first
      | contradiction
      | (injection h with h; subst h; simp (maxDischargeDepth := 40) +contextual [hs])

theorem execStreamCopy_wf (r : StreamRead) (s : State) (hs : s.wf = true) (s' : State) (h : execStreamCopy r s = .next
    s') : s'.wf = true := by
  simp only [execStreamCopy] at h
  (repeat' split at h) <;>
    first
      | contradiction
      | (injection h with h; subst h; simp (maxDischargeDepth := 40) +contextual [hs])

theorem execFailTilePush_wf (g : Ring) (v : Word) (s : State) (hs : s.wf = true) (s' : State) (h : execFailTilePush g
    v s = .next s') : s'.wf = true := by
  simp only [execFailTilePush] at h
  (repeat' split at h) <;>
    first
      | contradiction
      | (injection h with h; subst h; simp (maxDischargeDepth := 40) +contextual [hs])

theorem execTilePushPeriod_wf (g : Ring) (s : State) (hs : s.wf = true) (s' : State) (h : execTilePushPeriod g s =
    .next s') : s'.wf = true := by
  simp only [execTilePushPeriod] at h
  (repeat' split at h) <;>
    first
      | contradiction
      | (injection h with h; subst h; simp (maxDischargeDepth := 40) +contextual [hs])

theorem execTilePushEnd_wf (g : Ring) (s : State) (hs : s.wf = true) (s' : State) (h : execTilePushEnd g s = .next s')
    : s'.wf = true := by
  simp only [execTilePushEnd] at h
  (repeat' split at h) <;>
    first
      | contradiction
      | (injection h with h; subst h; simp (maxDischargeDepth := 40) +contextual [hs])

theorem execTileClearDone_wf (g : Ring) (s : State) (hs : s.wf = true) (s' : State) (h : execTileClearDone g s = .next
    s') : s'.wf = true := by
  simp only [execTileClearDone] at h
  (repeat' split at h) <;>
    first
      | contradiction
      | (injection h with h; subst h; simp (maxDischargeDepth := 40) +contextual [hs])

theorem execRqPushApply_wf (ecc : PushEcc) (s : State) (hs : s.wf = true) (s' : State) (h : execRqPushApply ecc s =
    .next s') : s'.wf = true := by
  simp only [execRqPushApply] at h
  (repeat' split at h) <;>
    first
      | contradiction
      | (injection h with h; subst h; simp (maxDischargeDepth := 40) +contextual [hs])

theorem execRqCtrlClear_wf (v : Word) (s : State) (hs : s.wf = true) (s' : State) (h : execRqCtrlClear v s = .next s')
    : s'.wf = true := by
  simp only [execRqCtrlClear] at h
  (repeat' split at h) <;>
    first
      | contradiction
      | (injection h with h; subst h; simp (maxDischargeDepth := 40) +contextual [hs])

theorem execRqFinalize_wf (v : Word) (s : State) (hs : s.wf = true) (s' : State) (h : execRqFinalize v s = .next s') :
    s'.wf = true := by
  simp only [execRqFinalize] at h
  (repeat' split at h) <;>
    first
      | contradiction
      | (injection h with h; subst h; simp (maxDischargeDepth := 40) +contextual [hs])

theorem execRqFinalized_wf (s : State) (hs : s.wf = true) (s' : State) (h : execRqFinalized s = .next s') : s'.wf =
    true := by
  simp only [execRqFinalized] at h
  (repeat' split at h) <;>
    first
      | contradiction
      | (injection h with h; subst h; simp (maxDischargeDepth := 40) +contextual [hs])

theorem execRqDescSel_wf (v : Word) (ecc : Ecc) (s : State) (hs : s.wf = true) (s' : State) (h : execRqDescSel v ecc s
    = .next s') : s'.wf = true := by
  simp only [execRqDescSel] at h
  (repeat' split at h) <;>
    first
      | contradiction
      | (injection h with h; subst h; simp (maxDischargeDepth := 40) +contextual [hs])

theorem execRqMapCfgWrite_wf (g : Ring) (v : Word) (s : State) (hs : s.wf = true) (s' : State) (h : execRqMapCfgWrite
    g v s = .next s') : s'.wf = true := by
  simp only [execRqMapCfgWrite] at h
  (repeat' split at h) <;>
    first
      | contradiction
      | (injection h with h; subst h; simp (maxDischargeDepth := 40) +contextual [hs])

theorem execRqClearDone_wf (s : State) (hs : s.wf = true) (s' : State) (h : execRqClearDone s = .next s') : s'.wf =
    true := by
  simp only [execRqClearDone] at h
  (repeat' split at h) <;>
    first
      | contradiction
      | (injection h with h; subst h; simp (maxDischargeDepth := 40) +contextual [hs])

theorem execLivePassStart_wf (d : Die) (s : State) (hs : s.wf = true) (s' : State) (h : execLivePassStart d s = .next
    s') : s'.wf = true := by
  simp only [execLivePassStart] at h
  (repeat' split at h) <;>
    first
      | contradiction
      | (injection h with h; subst h; simp (maxDischargeDepth := 40) +contextual [hs])

theorem execCodeDensityDone_wf (d : Die) (hits : List (List Nat)) (s : State) (hs : s.wf = true) (s' : State) (h :
    execCodeDensityDone d hits s = .next s') : s'.wf = true := by
  simp only [execCodeDensityDone] at h
  (repeat' split at h) <;>
    first
      | contradiction
      | (injection h with h; subst h; simp (maxDischargeDepth := 40) +contextual [hs])

theorem execLivePassEnd_wf (d : Die) (m : ChanMeas) (s : State) (hs : s.wf = true) (s' : State) (h : execLivePassEnd d
    m s = .next s') : s'.wf = true := by
  simp only [execLivePassEnd] at h
  (repeat' split at h) <;>
    first
      | contradiction
      | (injection h with h; subst h; simp (maxDischargeDepth := 40) +contextual [hs])

theorem execCalStarved_wf (d : Die) (s : State) (hs : s.wf = true) (s' : State) (h : execCalStarved d s = .next s') :
    s'.wf = true := by
  simp only [execCalStarved] at h
  (repeat' split at h) <;>
    first
      | contradiction
      | (injection h with h; subst h; simp (maxDischargeDepth := 40) +contextual [hs])

theorem execCalApplyWait_wf (s : State) (hs : s.wf = true) (s' : State) (h : execCalApplyWait s = .next s') : s'.wf =
    true := by
  simp only [execCalApplyWait] at h
  (repeat' split at h) <;>
    first
      | contradiction
      | (injection h with h; subst h; simp (maxDischargeDepth := 40) +contextual [hs])

theorem execFullRunDone_wf (dies : List DieMeas) (ms : List FullMeas) (s : State) (hs : s.wf = true) (s' : State) (h :
    execFullRunDone dies ms s = .next s') : s'.wf = true := by
  simp only [execFullRunDone] at h
  split at h
  · injection h with h; subst h
    have k := State.fullEnd_wf s dies ms hs
    split
    · exact State.writeNvmCmd_wf _ _ k
    · exact k
  · injection h with h; subst h; exact hs

theorem execTempSample_wf (temps : List (BitVec 16)) (s : State) (hs : s.wf = true) (s' : State) (h : execTempSample
    temps s = .next s') : s'.wf = true := by
  simp only [execTempSample] at h
  (repeat' split at h) <;>
    first
      | contradiction
      | (injection h with h; subst h; simp (maxDischargeDepth := 40) +contextual [hs])

theorem execUvloStart_wf (role : BitVec 2) (rma : Bool) (temps : List (BitVec 16)) (s : State) (hs : s.wf = true) (s'
    : State) (h : execUvloStart role rma temps s = .next s') : s'.wf = true := by
  simp only [execUvloStart] at h
  (repeat' split at h) <;>
    first
      | contradiction
      | (injection h with h; subst h; simp (maxDischargeDepth := 40) +contextual [hs])

theorem execSoftStart_wf (rail : Option (Fin 8)) (s : State) (hs : s.wf = true) (s' : State) (h : execSoftStart rail s
    = .next s') : s'.wf = true := by
  simp only [execSoftStart] at h
  (repeat' split at h) <;>
    first
      | contradiction
      | (injection h with h; subst h; simp (maxDischargeDepth := 40) +contextual [hs])

theorem execSramClear_wf (failmap : BitVec 16) (s : State) (hs : s.wf = true) (s' : State) (h : execSramClear failmap
    s = .next s') : s'.wf = true := by
  simp only [execSramClear] at h
  (repeat' split at h) <;>
    first
      | contradiction
      | (injection h with h; subst h; simp (maxDischargeDepth := 40) +contextual [hs])

theorem execReturnErase_wf (sfdp : Option Sfdp) (s : State) (hs : s.wf = true) (s' : State) (h : execReturnErase sfdp
    s = .next s') : s'.wf = true := by
  simp only [execReturnErase] at h
  (repeat' split at h) <;>
    first
      | contradiction
      | (injection h with h; subst h; simp (maxDischargeDepth := 40) +contextual [hs])

theorem execSelfTest_wf (failmap : BitVec 16) (s : State) (hs : s.wf = true) (s' : State) (h : execSelfTest failmap s
    = .next s') : s'.wf = true := by
  simp only [execSelfTest] at h
  (repeat' split at h) <;>
    first
      | contradiction
      | (injection h with h; subst h; simp (maxDischargeDepth := 40) +contextual [hs])

theorem execDramTraining_wf (bad : Option (Prod (Fin 4) (BitVec 16))) (s : State) (hs : s.wf = true) (s' : State) (h :
    execDramTraining bad s = .next s') : s'.wf = true := by
  simp only [execDramTraining] at h
  (repeat' split at h) <;>
    first
      | contradiction
      | (injection h with h; subst h; simp (maxDischargeDepth := 40) +contextual [hs])

theorem execNvmDiscovery_wf (sfdp : Option Sfdp) (s : State) (hs : s.wf = true) (s' : State) (h : execNvmDiscovery
    sfdp s = .next s') : s'.wf = true := by
  simp only [execNvmDiscovery] at h
  (repeat' split at h) <;>
    first
      | contradiction
      | (injection h with h; subst h; simp (maxDischargeDepth := 40) +contextual [hs])

theorem execImageRead_wf (s : State) (hs : s.wf = true) (s' : State) (h : execImageRead s = .next s') : s'.wf = true
    := by
  simp only [execImageRead] at h
  (repeat' split at h) <;>
    first
      | contradiction
      | (injection h with h; subst h; simp (maxDischargeDepth := 40) +contextual [hs])

theorem execApply_wf (rb : List Readback) (s : State) (hs : s.wf = true) (s' : State) (h : execApply rb s = .next s')
    : s'.wf = true := by
  simp only [execApply] at h
  (repeat' split at h) <;>
    first
      | contradiction
      | (injection h with h; subst h; simp (maxDischargeDepth := 40) +contextual [hs])

theorem execIdleEntry_wf (s : State) (hs : s.wf = true) (s' : State) (h : execIdleEntry s = .next s') : s'.wf = true
    := by
  simp only [execIdleEntry] at h
  (repeat' split at h) <;>
    first
      | contradiction
      | (injection h with h; subst h; simp (maxDischargeDepth := 40) +contextual [hs])

theorem execHuCapMeasured_wf (us : Nat) (hu : BitVec 16) (s : State) (hs : s.wf = true) (s' : State) (h :
    execHuCapMeasured us hu s = .next s') : s'.wf = true := by
  simp only [execHuCapMeasured] at h
  (repeat' split at h) <;>
    first
      | contradiction
      | (injection h with h; subst h; simp (maxDischargeDepth := 40) +contextual [hs])

theorem execResetBoot_wf (s : State) (hs : s.wf = true) (s' : State) (h : execResetBoot s = .next s') : s'.wf = true
    := by
  simp only [execResetBoot] at h
  (repeat' split at h) <;>
    first
      | contradiction
      | (injection h with h; subst h; simp (maxDischargeDepth := 40) +contextual [hs])

theorem execEnterCal_wf (s : State) (hs : s.wf = true) (s' : State) (h : execEnterCal s = .next s') : s'.wf = true :=
    by
  simp only [execEnterCal] at h
  (repeat' split at h) <;>
    first
      | contradiction
      | (injection h with h; subst h; simp (maxDischargeDepth := 40) +contextual [hs])

theorem execLeaveCal_wf (s : State) (hs : s.wf = true) (s' : State) (h : execLeaveCal s = .next s') : s'.wf = true :=
    by
  simp only [execLeaveCal] at h
  (repeat' split at h) <;>
    first
      | contradiction
      | (injection h with h; subst h; simp (maxDischargeDepth := 40) +contextual [hs])

theorem execEnterSafe_wf (s : State) (hs : s.wf = true) (s' : State) (h : execEnterSafe s = .next s') : s'.wf = true
    := by
  simp only [execEnterSafe] at h
  (repeat' split at h) <;>
    first
      | contradiction
      | (injection h with h; subst h; simp (maxDischargeDepth := 40) +contextual [hs])

theorem execFatalFault_wf (code : Fin 13) (unit : BitVec 8) (detail : BitVec 16) (s : State) (hs : s.wf = true) (s' :
    State) (h : execFatalFault code unit detail s = .next s') : s'.wf = true := by
  simp only [execFatalFault] at h
  (repeat' split at h) <;>
    first
      | contradiction
      | (injection h with h; subst h; simp (maxDischargeDepth := 40) +contextual [hs])

theorem execRailFault_wf (rail : Fin 8) (s : State) (hs : s.wf = true) (s' : State) (h : execRailFault rail s = .next
    s') : s'.wf = true := by
  simp only [execRailFault] at h
  (repeat' split at h) <;>
    first
      | contradiction
      | (injection h with h; subst h; simp (maxDischargeDepth := 40) +contextual [hs])

theorem execClockLoss_wf (s : State) (hs : s.wf = true) (s' : State) (h : execClockLoss s = .next s') : s'.wf = true
    := by
  simp only [execClockLoss] at h
  (repeat' split at h) <;>
    first
      | contradiction
      | (injection h with h; subst h; simp (maxDischargeDepth := 40) +contextual [hs])

theorem execHkWatchdog_wf (s : State) (hs : s.wf = true) (s' : State) (h : execHkWatchdog s = .next s') : s'.wf = true
    := by
  simp only [execHkWatchdog] at h
  (repeat' split at h) <;>
    first
      | contradiction
      | (injection h with h; subst h; simp (maxDischargeDepth := 40) +contextual [hs])

theorem execEnOff_wf (s : State) (hs : s.wf = true) (s' : State) (h : execEnOff s = .next s') : s'.wf = true := by
  simp only [execEnOff] at h
  (repeat' split at h) <;>
    first
      | contradiction
      | (injection h with h; subst h; simp (maxDischargeDepth := 40) +contextual [hs])

theorem execPfail_wf (s : State) (hs : s.wf = true) (s' : State) (h : execPfail s = .next s') : s'.wf = true := by
  simp only [execPfail] at h
  (repeat' split at h) <;>
    first
      | contradiction
      | (injection h with h; subst h; simp (maxDischargeDepth := 40) +contextual [hs])

theorem execOffEntry_wf (s : State) (hs : s.wf = true) (s' : State) (h : execOffEntry s = .next s') : s'.wf = true :=
    by
  simp only [execOffEntry] at h
  (repeat' split at h) <;>
    first
      | contradiction
      | (injection h with h; subst h; simp (maxDischargeDepth := 40) +contextual [hs])

theorem execVinLow_wf (vin : BitVec 16) (s : State) (hs : s.wf = true) (s' : State) (h : execVinLow vin s = .next s')
    : s'.wf = true := by
  simp only [execVinLow] at h
  (repeat' split at h) <;>
    first
      | contradiction
      | (injection h with h; subst h; simp (maxDischargeDepth := 40) +contextual [hs])

theorem execVinSurge_wf (vin : BitVec 16) (s : State) (hs : s.wf = true) (s' : State) (h : execVinSurge vin s = .next
    s') : s'.wf = true := by
  simp only [execVinSurge] at h
  (repeat' split at h) <;>
    first
      | contradiction
      | (injection h with h; subst h; simp (maxDischargeDepth := 40) +contextual [hs])

theorem execVinSurgeEnd_wf (vin : BitVec 16) (s : State) (hs : s.wf = true) (s' : State) (h : execVinSurgeEnd vin s =
    .next s') : s'.wf = true := by
  simp only [execVinSurgeEnd] at h
  (repeat' split at h) <;>
    first
      | contradiction
      | (injection h with h; subst h; simp (maxDischargeDepth := 40) +contextual [hs])

theorem execPowerHigh_wf (p : BitVec 16) (s : State) (hs : s.wf = true) (s' : State) (h : execPowerHigh p s = .next
    s') : s'.wf = true := by
  simp only [execPowerHigh] at h
  (repeat' split at h) <;>
    first
      | contradiction
      | (injection h with h; subst h; simp (maxDischargeDepth := 40) +contextual [hs])

theorem execHoldupExhausted_wf (s : State) (hs : s.wf = true) (s' : State) (h : execHoldupExhausted s = .next s') :
    s'.wf = true := by
  simp only [execHoldupExhausted] at h
  (repeat' split at h) <;>
    first
      | contradiction
      | (injection h with h; subst h; simp (maxDischargeDepth := 40) +contextual [hs])

theorem execRootChange_wf (v : Word) (s : State) (hs : s.wf = true) (s' : State) (h : execRootChange v s = .next s') :
    s'.wf = true := by
  simp only [execRootChange] at h
  (repeat' split at h) <;>
    first
      | contradiction
      | (injection h with h; subst h; simp (maxDischargeDepth := 40) +contextual [hs])

theorem execRefSrcWrite_wf (v : Word) (s : State) (hs : s.wf = true) (s' : State) (h : execRefSrcWrite v s = .next s')
    : s'.wf = true := by
  simp only [execRefSrcWrite] at h
  (repeat' split at h) <;>
    first
      | contradiction
      | (injection h with h; subst h; simp (maxDischargeDepth := 40) +contextual [hs])

theorem execRootChanged_wf (bad : Option RetrainFail) (s : State) (hs : s.wf = true) (s' : State) (h : execRootChanged
    bad s = .next s') : s'.wf = true := by
  simp only [execRootChanged] at h
  (repeat' split at h) <;>
    first
      | contradiction
      | (injection h with h; subst h; simp (maxDischargeDepth := 40) +contextual [hs])

theorem execRefLost_wf (s : State) (hs : s.wf = true) (s' : State) (h : execRefLost s = .next s') : s'.wf = true := by
  simp only [execRefLost] at h
  (repeat' split at h) <;>
    first
      | contradiction
      | (injection h with h; subst h; simp (maxDischargeDepth := 40) +contextual [hs])

theorem execRefRestored_wf (s : State) (hs : s.wf = true) (s' : State) (h : execRefRestored s = .next s') : s'.wf =
    true := by
  simp only [execRefRestored] at h
  (repeat' split at h) <;>
    first
      | contradiction
      | (injection h with h; subst h; simp (maxDischargeDepth := 40) +contextual [hs])

theorem execSourceValidAgain_wf (seen : RefSeen) (s : State) (hs : s.wf = true) (s' : State) (h : execSourceValidAgain
    seen s = .next s') : s'.wf = true := by
  simp only [execSourceValidAgain] at h
  (repeat' split at h) <;>
    first
      | contradiction
      | (injection h with h; subst h; simp (maxDischargeDepth := 40) +contextual [hs])

theorem execOcxoWarm_wf (s : State) (hs : s.wf = true) (s' : State) (h : execOcxoWarm s = .next s') : s'.wf = true :=
    by
  simp only [execOcxoWarm] at h
  (repeat' split at h) <;>
    first
      | contradiction
      | (injection h with h; subst h; simp (maxDischargeDepth := 40) +contextual [hs])

theorem execOcxoWarmLost_wf (s : State) (hs : s.wf = true) (s' : State) (h : execOcxoWarmLost s = .next s') : s'.wf =
    true := by
  simp only [execOcxoWarmLost] at h
  (repeat' split at h) <;>
    first
      | contradiction
      | (injection h with h; subst h; simp (maxDischargeDepth := 40) +contextual [hs])

theorem execTimeWrap_wf (s : State) (hs : s.wf = true) (s' : State) (h : execTimeWrap s = .next s') : s'.wf = true :=
    by
  simp only [execTimeWrap] at h
  (repeat' split at h) <;>
    first
      | contradiction
      | (injection h with h; subst h; simp (maxDischargeDepth := 40) +contextual [hs])

theorem execSyncExchange_wf (s : State) (hs : s.wf = true) (s' : State) (h : execSyncExchange s = .next s') : s'.wf =
    true := by
  simp only [execSyncExchange] at h
  (repeat' split at h) <;>
    first
      | contradiction
      | (injection h with h; subst h; simp (maxDischargeDepth := 40) +contextual [hs])

theorem execSyncReq_wf (p : Port) (xch : BitVec 8) (rsp : SyncTurn) (s : State) (hs : s.wf = true) (s' : State) (h :
    execSyncReq p xch rsp s = .next s') : s'.wf = true := by
  simp only [execSyncReq] at h
  (repeat' split at h) <;>
    first
      | contradiction
      | (injection h with h; subst h; simp (maxDischargeDepth := 40) +contextual [hs])

theorem execSyncRsp_wf (xch : BitVec 8) (turn : BitVec 24) (t2 : BitVec 64) (t4 : BitVec 64) (s : State) (hs : s.wf =
    true) (s' : State) (h : execSyncRsp xch turn t2 t4 s = .next s') : s'.wf = true := by
  simp only [execSyncRsp] at h
  (repeat' split at h) <;>
    first
      | contradiction
      | (injection h with h; subst h; simp (maxDischargeDepth := 40) +contextual [hs])

theorem execNvmRead_wf (s : State) (hs : s.wf = true) (s' : State) (h : execNvmRead s = .next s') : s'.wf = true := by
  simp only [execNvmRead] at h
  (repeat' split at h) <;>
    first
      | contradiction
      | (injection h with h; subst h; simp (maxDischargeDepth := 40) +contextual [hs])

theorem execNvmProgram_wf (s : State) (hs : s.wf = true) (s' : State) (h : execNvmProgram s = .next s') : s'.wf = true
    := by
  simp only [execNvmProgram] at h
  (repeat' split at h) <;>
    first
      | contradiction
      | (injection h with h; subst h; simp (maxDischargeDepth := 40) +contextual [hs])

theorem execNvmErase_wf (s : State) (hs : s.wf = true) (s' : State) (h : execNvmErase s = .next s') : s'.wf = true :=
    by
  simp only [execNvmErase] at h
  (repeat' split at h) <;>
    first
      | contradiction
      | (injection h with h; subst h; simp (maxDischargeDepth := 40) +contextual [hs])

theorem execEraseSlot_wf (s : State) (hs : s.wf = true) (s' : State) (h : execEraseSlot s = .next s') : s'.wf = true
    := by
  simp only [execEraseSlot] at h
  (repeat' split at h) <;>
    first
      | contradiction
      | (injection h with h; subst h; simp (maxDischargeDepth := 40) +contextual [hs])

theorem execValidateSlot_wf (s : State) (hs : s.wf = true) (s' : State) (h : execValidateSlot s = .next s') : s'.wf =
    true := by
  simp only [execValidateSlot] at h
  (repeat' split at h) <;>
    first
      | contradiction
      | (injection h with h; subst h; simp (maxDischargeDepth := 40) +contextual [hs])

theorem execCalCommit_wf (s : State) (hs : s.wf = true) (s' : State) (h : execCalCommit s = .next s') : s'.wf = true
    := by
  simp only [execCalCommit] at h
  (repeat' split at h) <;>
    first
      | contradiction
      | (injection h with h; subst h; simp (maxDischargeDepth := 40) +contextual [hs])

theorem execNvmAbort_wf (s : State) (hs : s.wf = true) (s' : State) (h : execNvmAbort s = .next s') : s'.wf = true :=
    by
  simp only [execNvmAbort] at h
  (repeat' split at h) <;>
    first
      | contradiction
      | (injection h with h; subst h; simp (maxDischargeDepth := 40) +contextual [hs])

theorem execFlashOpComplete_wf (e : FlashEnd) (s : State) (hs : s.wf = true) (s' : State) (h : execFlashOpComplete e s
    = .next s') : s'.wf = true := by
  simp only [execFlashOpComplete] at h
  (repeat' split at h) <;>
    first
      | contradiction
      | (injection h with h; subst h; simp (maxDischargeDepth := 40) +contextual [hs])

theorem execHoldupRetry_wf (hu : BitVec 16) (s : State) (hs : s.wf = true) (s' : State) (h : execHoldupRetry hu s =
    .next s') : s'.wf = true := by
  simp only [execHoldupRetry] at h
  (repeat' split at h) <;>
    first
      | contradiction
      | (injection h with h; subst h; simp (maxDischargeDepth := 40) +contextual [hs])

theorem execPersistPage_wf (s : State) (hs : s.wf = true) (s' : State) (h : execPersistPage s = .next s') : s'.wf =
    true := by
  simp only [execPersistPage] at h
  (repeat' split at h) <;>
    first
      | contradiction
      | (injection h with h; subst h; simp (maxDischargeDepth := 40) +contextual [hs])

theorem execMonPin_wf (c : Chan) (uv : Int) (s : State) (hs : s.wf = true) (s' : State) (h : execMonPin c uv s = .next
    s') : s'.wf = true := by
  simp only [execMonPin] at h
  (repeat' split at h) <;>
    first
      | contradiction
      | (injection h with h; subst h; simp (maxDischargeDepth := 40) +contextual [hs])

theorem execMonSense_wf (m : Fin 32) (uv : Int) (s : State) (hs : s.wf = true) (s' : State) (h : execMonSense m uv s =
    .next s') : s'.wf = true := by
  simp only [execMonSense] at h
  (repeat' split at h) <;>
    first
      | contradiction
      | (injection h with h; subst h; simp (maxDischargeDepth := 40) +contextual [hs])

theorem execSenseRearm_wf (m : Fin 32) (s : State) (hs : s.wf = true) (s' : State) (h : execSenseRearm m s = .next s')
    : s'.wf = true := by
  simp only [execSenseRearm] at h
  (repeat' split at h) <;>
    first
      | contradiction
      | (injection h with h; subst h; simp (maxDischargeDepth := 40) +contextual [hs])

theorem execSenseBlankExpiry_wf (m : Fin 32) (uv : Int) (s : State) (hs : s.wf = true) (s' : State) (h :
    execSenseBlankExpiry m uv s = .next s') : s'.wf = true := by
  simp only [execSenseBlankExpiry] at h
  (repeat' split at h) <;>
    first
      | contradiction
      | (injection h with h; subst h; simp (maxDischargeDepth := 40) +contextual [hs])

theorem execSrefWrite_wf (m : Fin 32) (v : Word) (s : State) (hs : s.wf = true) (s' : State) (h : execSrefWrite m v s
    = .next s') : s'.wf = true := by
  simp only [execSrefWrite] at h
  (repeat' split at h) <;>
    first
      | contradiction
      | (injection h with h; subst h; simp (maxDischargeDepth := 40) +contextual [hs])

theorem execClrN_wf (s : State) (hs : s.wf = true) (s' : State) (h : execClrN s = .next s') : s'.wf = true := by
  simp only [execClrN] at h
  (repeat' split at h) <;>
    first
      | contradiction
      | (injection h with h; subst h; simp (maxDischargeDepth := 40) +contextual [hs])

theorem execClrNRelease_wf (s : State) (hs : s.wf = true) (s' : State) (h : execClrNRelease s = .next s') : s'.wf =
    true := by
  simp only [execClrNRelease] at h
  (repeat' split at h) <;>
    first
      | contradiction
      | (injection h with h; subst h; simp (maxDischargeDepth := 40) +contextual [hs])

theorem execParkN_wf (s : State) (hs : s.wf = true) (s' : State) (h : execParkN s = .next s') : s'.wf = true := by
  simp only [execParkN] at h
  have k : (s.withPins { s.pins with parkN := false }).wf = true := by simpa using hs
  split at h <;> (simp only [Host.Outcome.next.injEq] at h; subst h)
  · exact k
  · exact State.parkPpmus_wf _ _ (State.abortAll_wf _ _ k)

theorem execParkNRelease_wf (s : State) (hs : s.wf = true) (s' : State) (h : execParkNRelease s = .next s') : s'.wf =
    true := by
  simp only [execParkNRelease] at h
  (repeat' split at h) <;>
    first
      | contradiction
      | (injection h with h; subst h; simp (maxDischargeDepth := 40) +contextual [hs])

theorem execSysParkWrite_wf (v : Word) (s : State) (hs : s.wf = true) (s' : State) (h : execSysParkWrite v s = .next
    s') : s'.wf = true := by
  simp only [execSysParkWrite] at h
  (repeat' split at h) <;>
    first
      | contradiction
      | (injection h with h; subst h; simp (maxDischargeDepth := 40) +contextual [hs])

theorem execPpmuStart_wf (c : Chan) (v : Word) (s : State) (hs : s.wf = true) (s' : State) (h : execPpmuStart c v s =
    .next s') : s'.wf = true := by
  simp only [execPpmuStart] at h
  (repeat' split at h) <;>
    first
      | contradiction
      | (injection h with h; subst h; simp (maxDischargeDepth := 40) +contextual [hs])

theorem execPpmuDone_wf (c : Chan) (vs : List Int) (ok : Bool) (s : State) (hs : s.wf = true) (s' : State) (h :
    execPpmuDone c vs ok s = .next s') : s'.wf = true := by
  simp only [execPpmuDone] at h
  (repeat' split at h) <;>
    first
      | contradiction
      | (injection h with h; subst h; simp (maxDischargeDepth := 40) +contextual [hs])

theorem execDacReadbackScan_wf (c : Chan) (dac : BitVec 6) (uv : Int) (s : State) (hs : s.wf = true) (s' : State) (h :
    execDacReadbackScan c dac uv s = .next s') : s'.wf = true := by
  simp only [execDacReadbackScan] at h
  (repeat' split at h) <;>
    first
      | contradiction
      | (injection h with h; subst h; simp (maxDischargeDepth := 40) +contextual [hs])

theorem execSenseMeasStart_wf (m : Fin 32) (v : Word) (s : State) (hs : s.wf = true) (s' : State) (h :
    execSenseMeasStart m v s = .next s') : s'.wf = true := by
  simp only [execSenseMeasStart] at h
  (repeat' split at h) <;>
    first
      | contradiction
      | (injection h with h; subst h; simp (maxDischargeDepth := 40) +contextual [hs])

theorem execSrefReadbackStart_wf (m : Fin 32) (v : Word) (s : State) (hs : s.wf = true) (s' : State) (h :
    execSrefReadbackStart m v s = .next s') : s'.wf = true := by
  simp only [execSrefReadbackStart] at h
  (repeat' split at h) <;>
    first
      | contradiction
      | (injection h with h; subst h; simp (maxDischargeDepth := 40) +contextual [hs])

theorem execConversionDone_wf (sref : Bool) (m : Fin 32) (v : BitVec 24) (hi : Bool) (s : State) (hs : s.wf = true)
    (s' : State) (h : execConversionDone sref m v hi s = .next s') : s'.wf = true := by
  simp only [execConversionDone] at h
  (repeat' split at h) <;>
    first
      | contradiction
      | (injection h with h; subst h; simp (maxDischargeDepth := 40) +contextual [hs])

theorem execMonDisClear_wf (c : Chan) (s : State) (hs : s.wf = true) (s' : State) (h : execMonDisClear c s = .next s')
    : s'.wf = true := by
  simp only [execMonDisClear] at h
  (repeat' split at h) <;>
    first
      | contradiction
      | (injection h with h; subst h; simp (maxDischargeDepth := 40) +contextual [hs])

theorem execDchkDisClear_wf (c : Chan) (s : State) (hs : s.wf = true) (s' : State) (h : execDchkDisClear c s = .next
    s') : s'.wf = true := by
  simp only [execDchkDisClear] at h
  (repeat' split at h) <;>
    first
      | contradiction
      | (injection h with h; subst h; simp (maxDischargeDepth := 40) +contextual [hs])

theorem execSeqStart_wf (n : Act) (v : Word) (s : State) (hs : s.wf = true) (s' : State) (h : execSeqStart n v s =
    .next s') : s'.wf = true := by
  simp only [execSeqStart] at h
  (repeat' split at h) <;>
    first
      | contradiction
      | (injection h with h; subst h; simp (maxDischargeDepth := 40) +contextual [hs])

theorem execSeqArm_wf (n : Act) (v : Word) (s : State) (hs : s.wf = true) (s' : State) (h : execSeqArm n v s = .next
    s') : s'.wf = true := by
  simp only [execSeqArm] at h
  (repeat' split at h) <;>
    first
      | contradiction
      | (injection h with h; subst h; simp (maxDischargeDepth := 40) +contextual [hs])

theorem execSeqStop_wf (n : Act) (v : Word) (s : State) (hs : s.wf = true) (s' : State) (h : execSeqStop n v s = .next
    s') : s'.wf = true := by
  simp only [execSeqStop] at h
  (repeat' split at h) <;>
    first
      | contradiction
      | (injection h with h; subst h; simp (maxDischargeDepth := 40) +contextual [hs])

theorem execSeqAbort_wf (n : Act) (v : Word) (s : State) (hs : s.wf = true) (s' : State) (h : execSeqAbort n v s =
    .next s') : s'.wf = true := by
  simp only [execSeqAbort] at h
  (repeat' split at h) <;>
    first
      | contradiction
      | (injection h with h; subst h; simp (maxDischargeDepth := 40) +contextual [hs])

theorem execStartChecks_wf (n : Act) (s : State) (hs : s.wf = true) (s' : State) (h : execStartChecks n s = .next s')
    : s'.wf = true := by
  simp only [execStartChecks] at h
  (repeat' split at h) <;>
    first
      | contradiction
      | (injection h with h; subst h; cases s.timingCheck n <;> simp (maxDischargeDepth := 40) [hs])

theorem execActArmed_wf (n : Act) (s : State) (hs : s.wf = true) (s' : State) (h : execActArmed n s = .next s') :
    s'.wf = true := by
  simp only [execActArmed] at h
  (repeat' split at h) <;>
    first
      | contradiction
      | (injection h with h; subst h; simp (maxDischargeDepth := 40) +contextual [hs])

theorem execStartTime_wf (n : Act) (s : State) (hs : s.wf = true) (s' : State) (h : execStartTime n s = .next s') :
    s'.wf = true := by
  simp only [execStartTime] at h
  (repeat' split at h) <;>
    first
      | contradiction
      | (injection h with h; subst h; simp (maxDischargeDepth := 40) +contextual [hs])

theorem execEndOfL_wf (n : Act) (t : BitVec 64) (s : State) (hs : s.wf = true) (s' : State) (h : execEndOfL n t s =
    .next s') : s'.wf = true := by
  simp only [execEndOfL] at h
  (repeat' split at h) <;>
    first
      | contradiction
      | (injection h with h; subst h; simp (maxDischargeDepth := 40) +contextual [hs])

theorem execActStopped_wf (n : Act) (s : State) (hs : s.wf = true) (s' : State) (h : execActStopped n s = .next s') :
    s'.wf = true := by
  simp only [execActStopped] at h
  (repeat' split at h) <;>
    first
      | contradiction
      | (injection h with h; subst h; simp (maxDischargeDepth := 40) +contextual [hs])

theorem execPatrolRegion_wf (ecc : PatrolEcc) (s : State) (hs : s.wf = true) (s' : State) (h : execPatrolRegion ecc s
    = .next s') : s'.wf = true := by
  simp only [execPatrolRegion] at h
  (repeat' split at h) <;>
    first
      | contradiction
      | (injection h with h; subst h; simp (maxDischargeDepth := 40) +contextual [hs])

theorem execPatrolRegionDone_wf (ok : Bool) (s : State) (hs : s.wf = true) (s' : State) (h : execPatrolRegionDone ok s
    = .next s') : s'.wf = true := by
  simp only [execPatrolRegionDone] at h
  (repeat' split at h) <;>
    first
      | contradiction
      | (injection h with h; subst h; simp (maxDischargeDepth := 40) +contextual [hs])

theorem execBoardRead_wf (ba : BitVec 18) (coll : Option Word) (ecc : Ecc) (s : State) (hs : s.wf = true) (s' : State)
    (h : execBoardRead ba coll ecc s = .next s') : s'.wf = true := by
  simp only [execBoardRead] at h
  (repeat' split at h) <;>
    first
      | contradiction
      | (injection h with h; subst h; simp (maxDischargeDepth := 40) +contextual [hs])

theorem execBoardWrite_wf (ba : BitVec 18) (v : BitVec 16) (coll : BoardColl) (s : State) (hs : s.wf = true) (s' :
    State) (h : execBoardWrite ba v coll s = .next s') : s'.wf = true := by
  simp only [execBoardWrite] at h
  (repeat' split at h) <;>
    first
      | contradiction
      | (injection h with h; subst h; simp (maxDischargeDepth := 40) +contextual [hs])

theorem execBcsRelease_wf (s : State) (hs : s.wf = true) (s' : State) (h : execBcsRelease s = .next s') : s'.wf = true
    := by
  simp only [execBcsRelease] at h
  (repeat' split at h) <;>
    first
      | contradiction
      | (injection h with h; subst h; simp (maxDischargeDepth := 40) +contextual [hs])

theorem execAtomicAdd_wf (a : AtomicAt) (wide : Bool) (v : BitVec 64) (s : State) (hs : s.wf = true) (s' : State) (h :
    execAtomicAdd a wide v s = .next s') : s'.wf = true := by
  simp only [execAtomicAdd] at h
  (repeat' split at h) <;>
    first
      | contradiction
      | (injection h with h; subst h; simp (maxDischargeDepth := 40) +contextual [hs])

theorem execAtomicSwap_wf (a : AtomicAt) (wide : Bool) (v : BitVec 64) (s : State) (hs : s.wf = true) (s' : State) (h
    : execAtomicSwap a wide v s = .next s') : s'.wf = true := by
  simp only [execAtomicSwap] at h
  (repeat' split at h) <;>
    first
      | contradiction
      | (injection h with h; subst h; simp (maxDischargeDepth := 40) +contextual [hs])

theorem execBar2Read_wf (a : BitVec 37) (len : Nat) (ecc : Ecc) (s : State) (hs : s.wf = true) (s' : State) (h :
    execBar2Read a len ecc s = .next s') : s'.wf = true := by
  simp only [execBar2Read] at h
  (repeat' split at h) <;>
    first
      | contradiction
      | (injection h with h; subst h; simp (maxDischargeDepth := 40) +contextual [hs])

theorem execBar2Write_wf (a : BitVec 37) (bytes : List Byte) (s : State) (hs : s.wf = true) (s' : State) (h :
    execBar2Write a bytes s = .next s') : s'.wf = true := by
  simp only [execBar2Write] at h
  (repeat' split at h) <;>
    first
      | contradiction
      | (injection h with h; subst h; simp (maxDischargeDepth := 40) +contextual [hs])

theorem execDramPartWrite_wf (i : Fin 16) (size : Bool) (v : Word) (s : State) (hs : s.wf = true) (s' : State) (h :
    execDramPartWrite i size v s = .next s') : s'.wf = true := by
  simp only [execDramPartWrite] at h
  (repeat' split at h) <;>
    first
      | contradiction
      | (injection h with h; subst h; simp (maxDischargeDepth := 40) +contextual [hs])

theorem execSeqCbMaskWrite_wf (n : Act) (v : Word) (s : State) (hs : s.wf = true) (s' : State) (h : execSeqCbMaskWrite
    n v s = .next s') : s'.wf = true := by
  simp only [execSeqCbMaskWrite] at h
  (repeat' split at h) <;>
    first
      | contradiction
      | (injection h with h; subst h; simp (maxDischargeDepth := 40) +contextual [hs])

theorem execFailRingChWrite_wf (g : Ring) (i : Fin 32) (v : Word) (s : State) (hs : s.wf = true) (s' : State) (h :
    execFailRingChWrite g i v s = .next s') : s'.wf = true := by
  simp only [execFailRingChWrite] at h
  (repeat' split at h) <;>
    first
      | contradiction
      | (injection h with h; subst h; simp (maxDischargeDepth := 40) +contextual [hs])

theorem execTdcStatusRead_wf (src : Src) (c : Chan) (s : State) (hs : s.wf = true) (s' : State) (h : execTdcStatusRead
    src c s = .next s') : s'.wf = true := by
  simp only [execTdcStatusRead] at h
  (repeat' split at h) <;>
    first
      | contradiction
      | (injection h with h; subst h; simp (maxDischargeDepth := 40) +contextual [hs])

theorem execLoRead_wf (src : Src) (a : BitVec 26) (ecc : Ecc) (s : State) (hs : s.wf = true) (s' : State) (h :
    execLoRead src a ecc s = .next s') : s'.wf = true := by
  simp only [execLoRead] at h
  (repeat' split at h) <;>
    first
      | contradiction
      | (injection h with h; subst h; simp (maxDischargeDepth := 40) +contextual [hs])

theorem execRegisterWrite_wf (src : Src) (a : BitVec 26) (v : Word) (be : BitVec 4) (s : State) (hs : s.wf = true) (s'
    : State) (h : execRegisterWrite src a v be s = .next s') : s'.wf = true := by
  simp only [execRegisterWrite] at h
  (repeat' split at h) <;>
    first
      | contradiction
      | (injection h with h; subst h; simp (maxDischargeDepth := 40) +contextual [hs])

theorem execLinkActive_wf (p : Port) (res : TrainResult) (s : State) (hs : s.wf = true) (s' : State) (h :
    execLinkActive p res s = .next s') : s'.wf = true := by
  simp only [execLinkActive] at h
  (repeat' split at h) <;>
    first
      | contradiction
      | (injection h with h; subst h; simp (maxDischargeDepth := 40) +contextual [hs])

theorem execRetrain_wf (p : Port) (s : State) (hs : s.wf = true) (s' : State) (h : execRetrain p s = .next s') : s'.wf
    = true := by
  simp only [execRetrain] at h
  (repeat' split at h) <;>
    first
      | contradiction
      | (injection h with h; subst h; simp (maxDischargeDepth := 40) +contextual [hs])

theorem execLnkPortCfgWrite_wf (p : Port) (v : Word) (s : State) (hs : s.wf = true) (s' : State) (h :
    execLnkPortCfgWrite p v s = .next s') : s'.wf = true := by
  simp only [execLnkPortCfgWrite] at h
  (repeat' split at h) <;>
    first
      | contradiction
      | (injection h with h; subst h; simp (maxDischargeDepth := 40) +contextual [hs])

theorem execPartnerRateChange_wf (p : Port) (s : State) (hs : s.wf = true) (s' : State) (h : execPartnerRateChange p s
    = .next s') : s'.wf = true := by
  simp only [execPartnerRateChange] at h
  (repeat' split at h) <;>
    first
      | contradiction
      | (injection h with h; subst h; simp (maxDischargeDepth := 40) +contextual [hs])

theorem execBarkerSend_wf (p : Port) (s : State) (hs : s.wf = true) (s' : State) (h : execBarkerSend p s = .next s') :
    s'.wf = true := by
  simp only [execBarkerSend] at h
  (repeat' split at h) <;>
    first
      | contradiction
      | (injection h with h; subst h; simp (maxDischargeDepth := 40) +contextual [hs])

theorem execBarker_wf (p : Port) (w : BitVec 56) (s : State) (hs : s.wf = true) (s' : State) (h : execBarker p w s =
    .next s') : s'.wf = true := by
  simp only [execBarker] at h
  (repeat' split at h) <;>
    first
      | contradiction
      | (injection h with h; subst h; simp (maxDischargeDepth := 40) +contextual [hs])

theorem execPartnerLost_wf (p : Port) (s : State) (hs : s.wf = true) (s' : State) (h : execPartnerLost p s = .next s')
    : s'.wf = true := by
  simp only [execPartnerLost] at h
  (repeat' split at h) <;>
    first
      | contradiction
      | (injection h with h; subst h; simp (maxDischargeDepth := 40) +contextual [hs])

theorem execAck_wf (p : Port) (seq : BitVec 16) (nak : Bool) (req : BitVec 8) (rsp : BitVec 8) (s : State) (hs : s.wf
    = true) (s' : State) (h : execAck p seq nak req rsp s = .next s') : s'.wf = true := by
  simp only [execAck] at h
  (repeat' split at h) <;>
    first
      | contradiction
      | (injection h with h; subst h; simp (maxDischargeDepth := 40) +contextual [hs])

theorem execReplayTimeout_wf (p : Port) (s : State) (hs : s.wf = true) (s' : State) (h : execReplayTimeout p s = .next
    s') : s'.wf = true := by
  simp only [execReplayTimeout] at h
  (repeat' split at h) <;>
    first
      | contradiction
      | (injection h with h; subst h; simp (maxDischargeDepth := 40) +contextual [hs])

theorem execLnkTimeout_wf (p : Port) (tag : BitVec 8) (s : State) (hs : s.wf = true) (s' : State) (h : execLnkTimeout
    p tag s = .next s') : s'.wf = true := by
  simp only [execLnkTimeout] at h
  (repeat' split at h) <;>
    first
      | contradiction
      | (injection h with h; subst h; simp (maxDischargeDepth := 40) +contextual [hs])

theorem execRdReq_wf (p : Port) (h : FrameHdr) (a : Word) (count : Word) (ecc : Ecc) (s : State) (hs : s.wf = true)
    (s' : State) (h : execRdReq p h a count ecc s = .next s') : s'.wf = true := by
  simp only [execRdReq] at h
  (repeat' split at h) <;>
    first
      | contradiction
      | (injection h with h; subst h; simp (maxDischargeDepth := 40) +contextual [hs])

theorem execWrReq_wf (p : Port) (h : FrameHdr) (a : Word) (words : List Word) (s : State) (hs : s.wf = true) (s' :
    State) (h : execWrReq p h a words s = .next s') : s'.wf = true := by
  simp only [execWrReq] at h
  (repeat' split at h) <;>
    first
      | contradiction
      | (injection h with h; subst h; simp (maxDischargeDepth := 40) +contextual [hs])

theorem execRdRsp_wf (p : Port) (h : FrameHdr) (status : Word) (words : List Word) (s : State) (hs : s.wf = true) (s'
    : State) (h : execRdRsp p h status words s = .next s') : s'.wf = true := by
  simp only [execRdRsp] at h
  (repeat' split at h) <;>
    first
      | contradiction
      | (injection h with h; subst h; simp (maxDischargeDepth := 40) +contextual [hs])

theorem execWrRsp_wf (p : Port) (h : FrameHdr) (status : Word) (s : State) (hs : s.wf = true) (s' : State) (h :
    execWrRsp p h status s = .next s') : s'.wf = true := by
  simp only [execWrRsp] at h
  (repeat' split at h) <;>
    first
      | contradiction
      | (injection h with h; subst h; simp (maxDischargeDepth := 40) +contextual [hs])

theorem execEventFrame_wf (p : Port) (h : FrameHdr) (rec : List Word) (s : State) (hs : s.wf = true) (s' : State) (h :
    execEventFrame p h rec s = .next s') : s'.wf = true := by
  simp only [execEventFrame] at h
  (repeat' split at h) <;>
    first
      | contradiction
      | (injection h with h; subst h; simp (maxDischargeDepth := 40) +contextual [hs])

theorem execJoin_wf (p : Port) (h : FrameHdr) (profile : List Word) (s : State) (hs : s.wf = true) (s' : State) (h :
    execJoin p h profile s = .next s') : s'.wf = true := by
  simp only [execJoin] at h
  (repeat' split at h) <;>
    first
      | contradiction
      | (injection h with h; subst h; simp (maxDischargeDepth := 40) +contextual [hs])

theorem execJoinSend_wf (s : State) (hs : s.wf = true) (s' : State) (h : execJoinSend s = .next s') : s'.wf = true :=
    by
  simp only [execJoinSend] at h
  (repeat' split at h) <;>
    first
      | contradiction
      | (injection h with h; subst h; simp (maxDischargeDepth := 40) +contextual [hs])

theorem execShowReport_wf (p : Port) (h : FrameHdr) (sh : ShowId) (act : Act) (state : BitVec 8) (reason : BitVec 8)
    (cycle : BitVec 64) (t : BitVec 64) (s : State) (hs : s.wf = true) (s' : State) (h : execShowReport p h sh act
    state reason cycle t s = .next s') : s'.wf = true := by
  simp only [execShowReport] at h
  (repeat' split at h) <;>
    first
      | contradiction
      | (injection h with h; subst h; simp (maxDischargeDepth := 40) +contextual [hs])

theorem execShowRunTimeout_wf (sh : ShowId) (s : State) (hs : s.wf = true) (s' : State) (h : execShowRunTimeout sh s =
    .next s') : s'.wf = true := by
  simp only [execShowRunTimeout] at h
  (repeat' split at h) <;>
    first
      | contradiction
      | (injection h with h; subst h; simp (maxDischargeDepth := 40) +contextual [hs])

theorem execBench_wf (p : Port) (h : FrameHdr) (sh : ShowId) (clear : Bool) (s : State) (hs : s.wf = true) (s' :
    State) (h : execBench p h sh clear s = .next s') : s'.wf = true := by
  simp only [execBench] at h
  (repeat' split at h) <;>
    first
      | contradiction
      | (injection h with h; subst h; simp (maxDischargeDepth := 40) +contextual [hs])

theorem execShowUnbench_wf (sh : ShowId) (i : Fin 9) (v : Word) (s : State) (hs : s.wf = true) (s' : State) (h :
    execShowUnbench sh i v s = .next s') : s'.wf = true := by
  simp only [execShowUnbench] at h
  (repeat' split at h) <;>
    first
      | contradiction
      | (injection h with h; subst h; simp (maxDischargeDepth := 40) +contextual [hs])

theorem execStopWhistle_wf (p : Port) (w : WhistleIn) (s : State) (hs : s.wf = true) (s' : State) (h : execStopWhistle
    p w s = .next s') : s'.wf = true := by
  simp only [execStopWhistle] at h
  (repeat' split at h) <;>
    first
      | contradiction
      | (injection h with h; subst h; simp (maxDischargeDepth := 40) +contextual [hs])

theorem execParkWhistle_wf (p : Port) (w : WhistleIn) (s : State) (hs : s.wf = true) (s' : State) (h : execParkWhistle
    p w s = .next s') : s'.wf = true := by
  simp only [execParkWhistle] at h
  (repeat' split at h) <;>
    first
      | contradiction
      | (injection h with h; subst h; simp (maxDischargeDepth := 40) +contextual [hs])

theorem execAbortWhistle_wf (p : Port) (w : WhistleIn) (s : State) (hs : s.wf = true) (s' : State) (h :
    execAbortWhistle p w s = .next s') : s'.wf = true := by
  simp only [execAbortWhistle] at h
  (repeat' split at h) <;>
    first
      | contradiction
      | (injection h with h; subst h; simp (maxDischargeDepth := 40) +contextual [hs])

theorem execStartWhistle_wf (p : Port) (w : WhistleIn) (t : BitVec 64) (s : State) (hs : s.wf = true) (s' : State) (h
    : execStartWhistle p w t s = .next s') : s'.wf = true := by
  simp only [execStartWhistle] at h
  (repeat' split at h) <;>
    first
      | contradiction
      | (injection h with h; subst h; simp (maxDischargeDepth := 40) +contextual [hs])

theorem execCueWhistle_wf (p : Port) (w : WhistleIn) (cue : BitVec 8) (t : BitVec 64) (s : State) (hs : s.wf = true)
    (s' : State) (h : execCueWhistle p w cue t s = .next s') : s'.wf = true := by
  simp only [execCueWhistle] at h
  (repeat' split at h) <;>
    first
      | contradiction
      | (injection h with h; subst h; simp (maxDischargeDepth := 40) +contextual [hs])

theorem execWhistleWindow_wf (s : State) (hs : s.wf = true) (s' : State) (h : execWhistleWindow s = .next s') : s'.wf
    = true := by
  simp only [execWhistleWindow] at h
  (repeat' split at h) <;>
    first
      | contradiction
      | (injection h with h; subst h; simp (maxDischargeDepth := 40) +contextual [hs])

theorem execSendStop_wf (sh : ShowId) (s : State) (hs : s.wf = true) (s' : State) (h : execSendStop sh s = .next s') :
    s'.wf = true := by
  simp only [execSendStop] at h
  (repeat' split at h) <;>
    first
      | contradiction
      | (injection h with h; subst h; simp (maxDischargeDepth := 40) +contextual [hs])

theorem execSendPark_wf (sh : ShowId) (s : State) (hs : s.wf = true) (s' : State) (h : execSendPark sh s = .next s') :
    s'.wf = true := by
  simp only [execSendPark] at h
  (repeat' split at h) <;>
    first
      | contradiction
      | (injection h with h; subst h; simp (maxDischargeDepth := 40) +contextual [hs])

theorem execSendAbort_wf (sh : ShowId) (s : State) (hs : s.wf = true) (s' : State) (h : execSendAbort sh s = .next s')
    : s'.wf = true := by
  simp only [execSendAbort] at h
  (repeat' split at h) <;>
    first
      | contradiction
      | (injection h with h; subst h; simp (maxDischargeDepth := 40) +contextual [hs])

theorem execSendStart_wf (sh : ShowId) (s : State) (hs : s.wf = true) (s' : State) (h : execSendStart sh s = .next s')
    : s'.wf = true := by
  simp only [execSendStart] at h
  (repeat' split at h) <;>
    first
      | contradiction
      | (injection h with h; subst h; simp (maxDischargeDepth := 40) +contextual [hs])

theorem execSendCue_wf (sh : ShowId) (cue : BitVec 8) (s : State) (hs : s.wf = true) (s' : State) (h : execSendCue sh
    cue s = .next s') : s'.wf = true := by
  simp only [execSendCue] at h
  (repeat' split at h) <;>
    first
      | contradiction
      | (injection h with h; subst h; simp (maxDischargeDepth := 40) +contextual [hs])

theorem execQueueEnable_wf (q : Queue) (v : Word) (s : State) (hs : s.wf = true) (s' : State) (h : execQueueEnable q v
    s = .next s') : s'.wf = true := by
  simp only [execQueueEnable] at h
  (repeat' split at h) <;>
    first
      | contradiction
      | (injection h with h; subst h; simp (maxDischargeDepth := 40) +contextual [hs])

theorem execQueueDisable_wf (q : Queue) (v : Word) (s : State) (hs : s.wf = true) (s' : State) (h : execQueueDisable q
    v s = .next s') : s'.wf = true := by
  simp only [execQueueDisable] at h
  (repeat' split at h) <;>
    first
      | contradiction
      | (injection h with h; subst h; simp (maxDischargeDepth := 40) +contextual [hs])

theorem execSqDoorbell_wf (q : Queue) (v : Word) (s : State) (hs : s.wf = true) (s' : State) (h : execSqDoorbell q v s
    = .next s') : s'.wf = true := by
  simp only [execSqDoorbell] at h
  (repeat' split at h) <;>
    first
      | contradiction
      | (injection h with h; subst h; simp (maxDischargeDepth := 40) +contextual [hs])

theorem execCqHeadWrite_wf (q : Queue) (v : Word) (s : State) (hs : s.wf = true) (s' : State) (h : execCqHeadWrite q v
    s = .next s') : s'.wf = true := by
  simp only [execCqHeadWrite] at h
  (repeat' split at h) <;>
    first
      | contradiction
      | (injection h with h; subst h; simp (maxDischargeDepth := 40) +contextual [hs])

theorem execCommandFetch_wf (q : Queue) (c : HostCmd) (s : State) (hs : s.wf = true) (s' : State) (h :
    execCommandFetch q c s = .next s') : s'.wf = true := by
  simp only [execCommandFetch] at h
  (repeat' split at h) <;>
    first
      | contradiction
      | (injection h with h; subst h; simp (maxDischargeDepth := 40) +contextual [hs])

theorem execCommandComplete_wf (q : Queue) (s : State) (hs : s.wf = true) (s' : State) (h : execCommandComplete q s =
    .next s') : s'.wf = true := by
  simp only [execCommandComplete] at h
  (repeat' split at h) <;>
    first
      | contradiction
      | (injection h with h; subst h; simp (maxDischargeDepth := 40) +contextual [hs])

theorem execCmdTimeout_wf (q : Queue) (id : BitVec 64) (s : State) (hs : s.wf = true) (s' : State) (h : execCmdTimeout
    q id s = .next s') : s'.wf = true := by
  simp only [execCmdTimeout] at h
  (repeat' split at h) <;>
    first
      | contradiction
      | (injection h with h; subst h; simp (maxDischargeDepth := 40) +contextual [hs])

theorem execFlr_wf (s : State) (hs : s.wf = true) (s' : State) (h : execFlr s = .next s') : s'.wf = true := by
  simp only [execFlr] at h
  (repeat' split at h) <;>
    first
      | contradiction
      | (injection h with h; subst h; simp (maxDischargeDepth := 40) +contextual [hs])

theorem execPowerStateChange_wf (d3 : Bool) (s : State) (hs : s.wf = true) (s' : State) (h : execPowerStateChange d3 s
    = .next s') : s'.wf = true := by
  simp only [execPowerStateChange] at h
  (repeat' split at h) <;>
    first
      | contradiction
      | (injection h with h; subst h; simp (maxDischargeDepth := 40) +contextual [hs])

theorem execConventionalReset_wf (s : State) (hs : s.wf = true) (s' : State) (h : execConventionalReset s = .next s')
    : s'.wf = true := by
  simp only [execConventionalReset] at h
  (repeat' split at h) <;>
    first
      | contradiction
      | (injection h with h; subst h; simp (maxDischargeDepth := 40) +contextual [hs])

theorem execEvtIrqDefer_wf (s : State) (hs : s.wf = true) (s' : State) (h : execEvtIrqDefer s = .next s') : s'.wf =
    true := by
  simp only [execEvtIrqDefer] at h
  (repeat' split at h) <;>
    first
      | contradiction
      | (injection h with h; subst h; simp (maxDischargeDepth := 40) +contextual [hs])

theorem execBdDoorbell_wf (s : State) (hs : s.wf = true) (s' : State) (h : execBdDoorbell s = .next s') : s'.wf = true
    := by
  simp only [execBdDoorbell] at h
  (repeat' split at h) <;>
    first
      | contradiction
      | (injection h with h; subst h; simp (maxDischargeDepth := 40) +contextual [hs])

theorem execNop_wf (q : Queue) (id : BitVec 64) (s : State) (hs : s.wf = true) (s' : State) (h : execNop q id s =
    .next s') : s'.wf = true := by
  simp only [execNop] at h
  obtain rfl | ⟨c, rfl⟩ | ⟨c, rfl⟩ := cmdStart_next h <;>
    first | (simp (maxDischargeDepth := 40) +contextual [hs]; done) | ((repeat' split) <;> simp (maxDischargeDepth := 40) +contextual [hs])

theorem execRegRead_wf (q : Queue) (id : BitVec 64) (ecc : Ecc) (s : State) (hs : s.wf = true) (s' : State) (h :
    execRegRead q id ecc s = .next s') : s'.wf = true := by
  simp only [execRegRead] at h
  obtain rfl | ⟨c, rfl⟩ | ⟨c, rfl⟩ := cmdStart_next h <;>
    first | (simp (maxDischargeDepth := 40) +contextual [hs]; done) | ((repeat' split) <;> simp (maxDischargeDepth := 40) +contextual [hs])

theorem execRegWrite_wf (q : Queue) (id : BitVec 64) (data : HostData) (s : State) (hs : s.wf = true) (s' : State) (h
    : execRegWrite q id data s = .next s') : s'.wf = true := by
  simp only [execRegWrite] at h
  split at h
  · obtain rfl := Host.Outcome.next.inj h; simp (maxDischargeDepth := 40) [hs]
  obtain rfl | ⟨c, rfl⟩ | ⟨c, rfl⟩ := cmdStart_next h <;>
    first | (simp (maxDischargeDepth := 40) +contextual [hs]; done) | ((repeat' split) <;> simp (maxDischargeDepth := 40) +contextual [hs])

theorem execDmaToDram_wf (q : Queue) (id : BitVec 64) (data : HostData) (s : State) (hs : s.wf = true) (s' : State) (h
    : execDmaToDram q id data s = .next s') : s'.wf = true := by
  simp only [execDmaToDram] at h
  obtain rfl | ⟨c, rfl⟩ | ⟨c, rfl⟩ := cmdStart_next h <;>
    first | (simp (maxDischargeDepth := 40) +contextual [hs]; done) | ((repeat' split) <;> simp (maxDischargeDepth := 40) +contextual [hs])

theorem execDmaFromDram_wf (q : Queue) (id : BitVec 64) (ecc : Ecc) (s : State) (hs : s.wf = true) (s' : State) (h :
    execDmaFromDram q id ecc s = .next s') : s'.wf = true := by
  simp only [execDmaFromDram] at h
  obtain rfl | ⟨c, rfl⟩ | ⟨c, rfl⟩ := cmdStart_next h <;>
    first | (simp (maxDischargeDepth := 40) +contextual [hs]; done) | ((repeat' split) <;> simp (maxDischargeDepth := 40) +contextual [hs])

theorem execLoadBank_wf (q : Queue) (id : BitVec 64) (data : HostData) (s : State) (hs : s.wf = true) (s' : State) (h
    : execLoadBank q id data s = .next s') : s'.wf = true := by
  simp only [execLoadBank] at h
  obtain rfl | ⟨c, rfl⟩ | ⟨c, rfl⟩ := cmdStart_next h <;>
    first | (simp (maxDischargeDepth := 40) +contextual [hs]; done) | ((repeat' split) <;> simp (maxDischargeDepth := 40) +contextual [hs])

theorem execLoadBlock_wf (q : Queue) (id : BitVec 64) (data : HostData) (s : State) (hs : s.wf = true) (s' : State) (h
    : execLoadBlock q id data s = .next s') : s'.wf = true := by
  simp only [execLoadBlock] at h
  obtain rfl | ⟨c, rfl⟩ | ⟨c, rfl⟩ := cmdStart_next h <;>
    first | (simp (maxDischargeDepth := 40) +contextual [hs]; done) | ((repeat' split) <;> simp (maxDischargeDepth := 40) +contextual [hs])

theorem execActStart_wf (q : Queue) (id : BitVec 64) (s : State) (hs : s.wf = true) (s' : State) (h : execActStart q
    id s = .next s') : s'.wf = true := by
  simp only [execActStart] at h
  obtain rfl | ⟨c, rfl⟩ | ⟨c, rfl⟩ := cmdStart_next h <;>
    first | (simp (maxDischargeDepth := 40) +contextual [hs]; done) | ((repeat' split) <;> simp (maxDischargeDepth := 40) +contextual [hs])

theorem execActStop_wf (q : Queue) (id : BitVec 64) (s : State) (hs : s.wf = true) (s' : State) (h : execActStop q id
    s = .next s') : s'.wf = true := by
  simp only [execActStop] at h
  obtain rfl | ⟨c, rfl⟩ | ⟨c, rfl⟩ := cmdStart_next h <;>
    first | (simp (maxDischargeDepth := 40) +contextual [hs]; done) | ((repeat' split) <;> simp (maxDischargeDepth := 40) +contextual [hs])

theorem execActAbort_wf (q : Queue) (id : BitVec 64) (s : State) (hs : s.wf = true) (s' : State) (h : execActAbort q
    id s = .next s') : s'.wf = true := by
  simp only [execActAbort] at h
  obtain rfl | ⟨c, rfl⟩ | ⟨c, rfl⟩ := cmdStart_next h <;>
    first | (simp (maxDischargeDepth := 40) +contextual [hs]; done) | ((repeat' split) <;> simp (maxDischargeDepth := 40) +contextual [hs])

theorem execActWait_wf (q : Queue) (id : BitVec 64) (s : State) (hs : s.wf = true) (s' : State) (h : execActWait q id
    s = .next s') : s'.wf = true := by
  simp only [execActWait] at h
  obtain rfl | ⟨c, rfl⟩ | ⟨c, rfl⟩ := cmdStart_next h <;>
    first | (simp (maxDischargeDepth := 40) +contextual [hs]; done) | ((repeat' split) <;> simp (maxDischargeDepth := 40) +contextual [hs])

theorem execTilePush_wf (q : Queue) (id : BitVec 64) (s : State) (hs : s.wf = true) (s' : State) (h : execTilePush q
    id s = .next s') : s'.wf = true := by
  simp only [execTilePush] at h
  obtain rfl | ⟨c, rfl⟩ | ⟨c, rfl⟩ := cmdStart_next h <;>
    first | (simp (maxDischargeDepth := 40) +contextual [hs]; done) | ((repeat' split) <;> simp (maxDischargeDepth := 40) +contextual [hs])

theorem execFinalize_wf (q : Queue) (id : BitVec 64) (s : State) (hs : s.wf = true) (s' : State) (h : execFinalize q
    id s = .next s') : s'.wf = true := by
  simp only [execFinalize] at h
  obtain rfl | ⟨c, rfl⟩ | ⟨c, rfl⟩ := cmdStart_next h <;>
    first | (simp (maxDischargeDepth := 40) +contextual [hs]; done) | ((repeat' split) <;> simp (maxDischargeDepth := 40) +contextual [hs])

theorem execRqClear_wf (q : Queue) (id : BitVec 64) (s : State) (hs : s.wf = true) (s' : State) (h : execRqClear q id
    s = .next s') : s'.wf = true := by
  simp only [execRqClear] at h
  obtain rfl | ⟨c, rfl⟩ | ⟨c, rfl⟩ := cmdStart_next h <;>
    first | (simp (maxDischargeDepth := 40) +contextual [hs]; done) | ((repeat' split) <;> simp (maxDischargeDepth := 40) +contextual [hs])

theorem execModeReq_wf (q : Queue) (id : BitVec 64) (s : State) (hs : s.wf = true) (s' : State) (h : execModeReq q id
    s = .next s') : s'.wf = true := by
  simp only [execModeReq] at h
  obtain rfl | ⟨c, rfl⟩ | ⟨c, rfl⟩ := cmdStart_next h <;>
    first | (simp (maxDischargeDepth := 40) +contextual [hs]; done) | ((repeat' split) <;> simp (maxDischargeDepth := 40) +contextual [hs])

theorem execNvmCommand_wf (q : Queue) (id : BitVec 64) (data : HostData) (s : State) (hs : s.wf = true) (s' : State)
    (h : execNvmCommand q id data s = .next s') : s'.wf = true := by
  simp only [execNvmCommand] at h
  obtain rfl | ⟨c, rfl⟩ | ⟨c, rfl⟩ := cmdStart_next h <;>
    first | (simp (maxDischargeDepth := 40) +contextual [hs]; done) | ((repeat' split) <;> simp (maxDischargeDepth := 40) +contextual [hs])

theorem execRemoteRead_wf (q : Queue) (id : BitVec 64) (s : State) (hs : s.wf = true) (s' : State) (h : execRemoteRead
    q id s = .next s') : s'.wf = true := by
  simp only [execRemoteRead] at h
  obtain rfl | ⟨c, rfl⟩ | ⟨c, rfl⟩ := cmdStart_next h <;>
    first | (simp (maxDischargeDepth := 40) +contextual [hs]; done) | ((repeat' split) <;> simp (maxDischargeDepth := 40) +contextual [hs])

theorem execRemoteWrite_wf (q : Queue) (id : BitVec 64) (data : HostData) (s : State) (hs : s.wf = true) (s' : State)
    (h : execRemoteWrite q id data s = .next s') : s'.wf = true := by
  simp only [execRemoteWrite] at h
  obtain rfl | ⟨c, rfl⟩ | ⟨c, rfl⟩ := cmdStart_next h <;>
    first | (simp (maxDischargeDepth := 40) +contextual [hs]; done) | ((repeat' split) <;> simp (maxDischargeDepth := 40) +contextual [hs])

theorem execWhistle_wf (q : Queue) (id : BitVec 64) (s : State) (hs : s.wf = true) (s' : State) (h : execWhistle q id
    s = .next s') : s'.wf = true := by
  simp only [execWhistle] at h
  obtain rfl | ⟨c, rfl⟩ | ⟨c, rfl⟩ := cmdStart_next h <;>
    first | (simp (maxDischargeDepth := 40) +contextual [hs]; done) | ((repeat' split) <;> simp (maxDischargeDepth := 40) +contextual [hs])

theorem signedCmd_wf (typ : Nat) (q : Queue) (id : BitVec 64) (data : HostData) (ready : State → Bool) (s : State) (hs
    : s.wf = true) (s' : State) (h : signedCmd typ q id data ready s = .next s') : s'.wf = true := by
  simp only [signedCmd] at h
  obtain rfl | ⟨c, rfl⟩ | ⟨c, rfl⟩ := cmdStart_next h <;>
    first | (simp (maxDischargeDepth := 40) +contextual [hs]; done) | ((repeat' split) <;> simp (maxDischargeDepth := 40) +contextual [hs])

theorem execSignedCalCommit_wf (q : Queue) (id : BitVec 64) (data : HostData) (s : State) (hs : s.wf = true) (s' :
    State) (h : execSignedCalCommit q id data s = .next s') : s'.wf = true := by
  exact signedCmd_wf _ _ _ _ _ _ hs _ h

theorem execKeyProgram_wf (q : Queue) (id : BitVec 64) (data : HostData) (s : State) (hs : s.wf = true) (s' : State)
    (h : execKeyProgram q id data s = .next s') : s'.wf = true := by
  exact signedCmd_wf _ _ _ _ _ _ hs _ h

theorem execKeyRevoke_wf (q : Queue) (id : BitVec 64) (data : HostData) (s : State) (hs : s.wf = true) (s' : State) (h
    : execKeyRevoke q id data s = .next s') : s'.wf = true := by
  exact signedCmd_wf _ _ _ _ _ _ hs _ h

theorem execDecKeyProgram_wf (q : Queue) (id : BitVec 64) (data : HostData) (s : State) (hs : s.wf = true) (s' :
    State) (h : execDecKeyProgram q id data s = .next s') : s'.wf = true := by
  exact signedCmd_wf _ _ _ _ _ _ hs _ h

theorem execReturnAuth_wf (q : Queue) (id : BitVec 64) (data : HostData) (s : State) (hs : s.wf = true) (s' : State)
    (h : execReturnAuth q id data s = .next s') : s'.wf = true := by
  exact signedCmd_wf _ _ _ _ _ _ hs _ h

theorem execAdvanceIntegration_wf (s : State) (hs : s.wf = true) (s' : State) (h : execAdvanceIntegration s = .next
    s') : s'.wf = true := by
  simp only [execAdvanceIntegration] at h
  (repeat' split at h) <;>
    first
      | contradiction
      | (injection h with h; subst h; simp (maxDischargeDepth := 40) +contextual [hs])

theorem execAdvanceField_wf (s : State) (hs : s.wf = true) (s' : State) (h : execAdvanceField s = .next s') : s'.wf =
    true := by
  simp only [execAdvanceField] at h
  (repeat' split at h) <;>
    first
      | contradiction
      | (injection h with h; subst h; simp (maxDischargeDepth := 40) +contextual [hs])

theorem execDebugLock_wf (s : State) (hs : s.wf = true) (s' : State) (h : execDebugLock s = .next s') : s'.wf = true
    := by
  simp only [execDebugLock] at h
  (repeat' split at h) <;>
    first
      | contradiction
      | (injection h with h; subst h; simp (maxDischargeDepth := 40) +contextual [hs])

theorem execJtagInstruction_wf (i : JtagInstr) (s : State) (hs : s.wf = true) (s' : State) (h : execJtagInstruction i
    s = .next s') : s'.wf = true := by
  simp only [execJtagInstruction] at h
  (repeat' split at h) <;>
    first
      | contradiction
      | (injection h with h; subst h; simp (maxDischargeDepth := 40) +contextual [hs])

end Sys2Proof.Machine
end

