-- ==== Sys2Proof/WellFormed.lean ====
section
/-! DEFINITION. Well-formed commands: operands that a sender outside the module can produce. A row that is one of several
writes of a register carries a word whose action bits select it; a list has the length its source gives it. The meanings
are total and do not depend on these checks. -/

namespace Sys2Proof

/-- Whether bit `i` of a word is set. -/
def Instr.bit (v : Word) (i : Nat) : Bool := v.toNat.testBit i

/-- One reading for each of the 40 junction sensors (03, R52). -/
def Instr.sensorsOk (ts : List (BitVec 16)) : Bool := decide (ts.length = 40)

/-- A ROOT_MHZ of CLK_ROOT_CFG that is not reserved (04, R57). -/
def Instr.rootOk (v : Word) : Bool := decide (19200 ≤ v.toNat % 65536 ∧ v.toNat % 65536 ≤ 25600)

/-- An aligned word address (00, R4). -/
def Instr.wordAddr (a : Nat) : Bool := decide (a % 4 = 0)

/-- A BAR2 access that lies in DRAM (18, R325). -/
def Instr.bar2Ok (a n : Nat) : Bool := decide (1 ≤ n ∧ a + n ≤ 137438953472)

/-- The words that a WR_REQ frame carries (17, Table 17-5). -/
def Instr.frameWords (n : Nat) : Bool := decide (1 ≤ n ∧ n ≤ 64)

open Instr in
/-- Whether a command is well formed. -/
def Instr.wf : Instr → Bool
  | .uvloStart _ _ temps => sensorsOk temps
  | .softStart _ => true
  | .sramClear _ => true
  | .returnErase _ => true
  | .selfTest _ => true
  | .dramTraining _ => true
  | .nvmDiscovery _ => true
  | .imageRead => true
  | .apply _ => true
  | .idleEntry => true
  | .huCapMeasured _ _ => true
  | .resetBoot => true
  | .enterCal => true
  | .leaveCal => true
  | .enterSafe => true
  | .fatalFault code _ _ => decide (code ≠ 0)
  | .railFault _ => true
  | .clockLoss => true
  | .hkWatchdog => true
  | .tempSample temps => sensorsOk temps
  | .enOff => true
  | .pfail => true
  | .offEntry => true
  | .vinLow _ => true
  | .vinSurge _ => true
  | .powerHigh _ => true
  | .rootChange v => rootOk v
  | .refSrcWrite v => rootOk v
  | .rootChanged _ => true
  | .refLost => true
  | .refRestored => true
  | .ocxoWarm => true
  | .timeWrap => true
  | .syncExchange => true
  | .syncReq _ _ _ => true
  | .syncRsp _ _ _ _ => true
  | .nvmRead => true
  | .nvmProgram => true
  | .nvmErase => true
  | .eraseSlot => true
  | .validateSlot => true
  | .calCommit => true
  | .nvmAbort => true
  | .flashOpComplete _ => true
  | .holdupRetry _ => true
  | .persistPage => true
  | .ppmuStart _ v => bit v 31
  | .ppmuDone _ _ _ => true
  | .dacReadbackScan _ _ _ => true
  | .senseMeasStart _ v => bit v 31
  | .srefReadbackStart _ v => bit v 31
  | .conversionDone _ _ _ _ => true
  | .seqStart _ v => bit v 0 && !bit v 1 && !bit v 2
  | .seqArm _ v => bit v 3 && !bit v 0 && !bit v 1 && !bit v 2
  | .seqStop _ v => bit v 1 && !bit v 2
  | .seqAbort _ v => bit v 2
  | .startChecks _ => true
  | .actArmed _ => true
  | .startTime _ => true
  | .nextVec _ _ => true
  | .repeatVec _ _ => true
  | .jump _ => true
  | .call _ => true
  | .ret _ => true
  | .loopVec _ => true
  | .endloop _ => true
  | .branch _ => true
  | .matchVec _ _ => true
  | .matchTimeout _ => true
  | .waitTime _ _ => true
  | .waitTimeReached _ => true
  | .waitWhistle _ _ => true
  | .waitTimeout _ => true
  | .callBlock _ _ => true
  | .swap _ => true
  | .markVec _ => true
  | .halt _ => true
  | .prefetchRecord _ _ _ => true
  | .forwardFrame _ _ => true
  | .pinEdge _ _ _ _ => true
  | .returnFrame _ _ _ => true
  | .rqPushApply _ => true
  | .comparatorTransition _ _ _ _ _ => true
  | .burstTimeout _ => true
  | .endOfL _ _ => true
  | .actStopped _ => true
  | .failTilePush _ v => bit v 31
  | .tilePushPeriod _ => true
  | .tileClearDone _ => true
  | .rqCtrlClear v => bit v 31
  | .rqFinalize v => bit v 31
  | .rqFinalized => true
  | .rqDescSel _ _ => true
  | .rqMapCfgWrite _ _ => true
  | .tdcStart _ v => bit v 31 && !bit v 30
  | .tdcAbort _ v => bit v 30
  | .missClr _ v => bit v 15
  | .tdcArmTime _ => true
  | .tdcTimeout _ => true
  | .skewWindow _ => true
  | .freqGate _ => true
  | .tdcResult _ => true
  | .tdcStatusRead _ _ => true
  | .loRead _ a _ => wordAddr a.toNat
  | .trigArm _ v => bit v 31 && !bit v 30
  | .trigDisarm _ v => bit v 30
  | .trigStageTimeout _ => true
  | .trigHoldoffEnd _ => true
  | .streamEnable _ v => bit v 31
  | .streamDisable _ v => !bit v 31
  | .integEnd _ _ => true
  | .recordWindowEnd _ => true
  | .stampsClose _ => true
  | .streamRecord _ => true
  | .streamCopy _ => true
  | .livePassStart _ => true
  | .codeDensityDone _ hits => decide (hits.length = 8)
  | .livePassEnd _ m => decide (m.reads.length = 7) && (m.edgeH ++ m.edgeL).all (fun x => decide (x.1 < 4))
  | .calStarved _ => true
  | .calApplyWait => true
  | .fullRunDone dies _ => decide (dies.length = 16)
  | .monPin _ _ => true
  | .monDisClear _ => true
  | .dchkDisClear _ => true
  | .monSense _ _ => true
  | .senseRearm _ => true
  | .senseBlankExpiry _ _ => true
  | .srefWrite _ _ => true
  | .clrN => true
  | .parkN => true
  | .sysParkWrite _ => true
  | .patrolRegion _ => true
  | .patrolRegionDone _ => true
  | .boardRead _ _ _ => true
  | .boardWrite _ _ _ => true
  | .bcsRelease => true
  | .atomicAdd _ _ _ => true
  | .atomicSwap _ _ _ => true
  | .bar2Read a len _ => bar2Ok a.toNat len
  | .bar2Write a bytes => bar2Ok a.toNat bytes.length
  | .dramPartWrite _ _ _ => true
  | .seqCbMaskWrite _ _ => true
  | .failRingChWrite _ _ _ => true
  | .registerWrite _ a _ _ => wordAddr a.toNat
  | .linkActive _ _ => true
  | .retrain _ => true
  | .lnkPortCfgWrite _ _ => true
  | .barkerSend _ => true
  | .barker _ _ => true
  | .partnerLost _ => true
  | .ack _ _ _ _ _ => true
  | .replayTimeout _ => true
  | .lnkTimeout _ _ => true
  | .rdReq _ _ _ _ _ => true
  | .wrReq _ _ _ words => frameWords words.length
  | .rdRsp _ _ _ words => decide (words.length ≤ 64)
  | .wrRsp _ _ _ => true
  | .eventFrame _ _ rec => decide (rec.length = 8)
  | .join _ _ profile => decide (profile.length = 4)
  | .joinSend => true
  | .showReport _ _ _ _ _ _ _ _ => true
  | .showRunTimeout _ => true
  | .bench _ _ _ _ => true
  | .showUnbench _ _ _ => true
  | .stopWhistle _ _ => true
  | .parkWhistle _ _ => true
  | .abortWhistle _ _ => true
  | .startWhistle _ _ _ => true
  | .cueWhistle _ _ _ _ => true
  | .whistleWindow => true
  | .sendStop _ => true
  | .sendPark _ => true
  | .sendAbort _ => true
  | .sendStart _ => true
  | .sendCue _ _ => true
  | .queueEnable _ v => bit v 31
  | .queueDisable _ v => !bit v 31
  | .sqDoorbell _ _ => true
  | .commandFetch _ c => decide (c.args.length = 6)
  | .commandComplete _ => true
  | .cqHeadWrite _ _ => true
  | .cmdTimeout _ _ => true
  | .flr => true
  | .nop _ _ => true
  | .regRead _ _ _ => true
  | .regWrite _ _ _ => true
  | .dmaToDram _ _ _ => true
  | .dmaFromDram _ _ _ => true
  | .loadBank _ _ _ => true
  | .loadBlock _ _ _ => true
  | .actStart _ _ => true
  | .actStop _ _ => true
  | .actAbort _ _ => true
  | .actWait _ _ => true
  | .tilePush _ _ => true
  | .finalize _ _ => true
  | .rqClear _ _ => true
  | .modeReq _ _ => true
  | .nvmCommand _ _ _ => true
  | .remoteRead _ _ => true
  | .remoteWrite _ _ _ => true
  | .whistle _ _ => true
  | .signedCalCommit _ _ _ => true
  | .keyProgram _ _ _ => true
  | .keyRevoke _ _ _ => true
  | .decKeyProgram _ _ _ => true
  | .returnAuth _ _ _ => true
  | .advanceIntegration => true
  | .advanceField => true
  | .debugLock => true
  | .bdDoorbell => true
  | .evtIrqDefer => true
  | .parkNRelease => true
  | .clrNRelease => true
  | .vinSurgeEnd _ => true
  | .sourceValidAgain _ => true
  | .ocxoWarmLost => true
  | .partnerRateChange _ => true
  | .powerStateChange _ => true
  | .conventionalReset => true
  | .rqClearDone => true
  | .tilePushEnd _ => true
  | .holdupExhausted => true
  | .jtagInstruction _ => true

end Sys2Proof
end

