-- ==== Sys2Proof/Tests/Slice0.lean ====
section
/-! SUPPORT. Tests of the model: for each hypothesis of an obligation a state that meets it (test_wit_<obligation>_<clause>),
ill-formed commands that WellFormed refuses, the manual's examples, and single steps. Expected values come from the manual
and are cited at each test. -/

namespace Sys2Proof.Tests

set_option maxRecDepth 4000
set_option Elab.async false
set_option linter.unusedVariables false

open Machine

/-- The module in a mode, everything else as after reset. -/
def inMode (m : Mode) : State := State.reset.withMode m

/-- BOOT at a step. -/
def inBoot (n : Nat) : State := (inMode .boot).put SYS_MODE.BOOT_STEP n

/-- 40 sensor readings alike. -/
def temps (x : BitVec 16) : List (BitVec 16) := List.replicate 40 x

/-- An image header without a body, as the flash holds it. -/
def emptyHeader : List Byte :=
  let h : List Byte := leBytes 4 0x49585A4C ++ leBytes 4 0x01000001 ++ leBytes 4 0 ++ leBytes 4 1 ++ List.replicate 8 0 ++
    leBytes 4 0xFFFFFFFF ++ List.replicate 224 0
  h ++ leBytes 4 (crc32c h)

/-- A state whose flash of 1 Gbit holds bytes at an address and is erased elsewhere. -/
def flashed (s : State) (a : Nat) (bs : List Byte) : State :=
  (s.put NVM_CFG.DENSITY 1).withFlash (Tab.splice flashByte [] a bs)

/-- A flash that is found and may be written. -/
def nv (s : State) : State :=
  (((s.put NVM_CFG.DENSITY 1).put NVM_CFG.PAGE_LOG2 8).put PWR_HOLDUP_NEED.NEED 0).put NVM_LEN.LEN 300

/-- A microinstruction word: FLOW, TARGET, CSEL, RMOP, VKIND. -/
def uw (flow target csel rmop vkind : Nat) : Nat :=
  flow * 2 ^ 120 + target * 2 ^ 96 + csel * 2 ^ 56 + rmop * 2 ^ 48 + vkind * 2 ^ 46

/-- Act `n`, RUNNING on coding block `n` alone, its prefetcher waiting. -/
def actOn (n : Nat) : State :=
  (((inMode .run).put (SEQ_CB_MASK.MASK n) (2 ^ n)).put (SEQ_STATUS.STATE n) 3).setAct n { pfWait := true }

/-- The same with a microinstruction at address 0 of half 0, where the act stands. -/
def runs (n w : Nat) : State := (actOn n).bankPut (0x200000 * n) (leBytes 16 w)

/-- A state with the hidden state of act `n` replaced. -/
def withAct (n : Nat) (a : ActSt) (s : State) : State := s.setAct n { a with pfWait := true }

/-- A vector that compares nothing and carries no data. -/
def vec0 : Vec :=
  { cycle := 0, time := 0, tset := 0, lset := 0, capt := 0, x := 0, y := 0, z := 0, src := .none, hold := false,
    first := true, working := 0, bench := 0, trial := none, mark := 0 }

/-- A vector at the pins of a die with one symbol in every UI of every channel. -/
def atPins (y : Nat) : PinVec := { vec := vec0, syms := List.replicate 64 (List.replicate 8 y), prev := [] }

/-- Act 3 RUNNING with ring 5, whose one member is channel 192. -/
def ringOn : State := (actOn 3).put (FAIL_RING_CH.MEMBERS 5 6) 1

/-- A vector whose compares ring 5 records. -/
def failVec (capt : Nat) : Vec := { vec0 with capt := capt, working := 32 }

/-- The same at the pins of die 3: channel 192 compares with H in UI 0 and is low. -/
def failPin (capt : Nat) : PinVec := { atPins 0 with vec := failVec capt, syms := [[5]], bits := [(384, 1), (385, 1)] }

/-- Act 3, which waits for the results of that vector alone. -/
def failState (capt : Nat) (a : ActSt) : State :=
  (withAct 3 { a with line := [{ vec := failVec capt }], loaded := 96 } ringOn).setDie 3 { pins := [failPin capt] }

/-- A return frame with every result. -/
def wholeFrame : RetFrame := ⟨BitVec.allOnes 64, 255, true⟩

/-- That vector with the results that the frame brings. -/
def failFlight (capt : Nat) (s : State) : Flight :=
  let p := failPin capt
  let due := (s.expected 3 p 3).filter (fun x => decide (x.1 ∉ p.sent))
  { vec := failVec capt, got := 0 ||| BitVec.ofNat 16 (2 ^ 3), exp := tabJoin [] due, res := tabJoin [] (s.frameResults 3 p true due)
    times := tabJoin [] (due.map (fun x => (x.1, s.resultTime 3 p x.1 (x.2 - 1)))) }

theorem failFlight_last (capt : Nat) (d : Die) (s : State) (h : d = 3 ∧ s.inService = true ∧ s.executing 3 = true ∧
    s.actOfBlock 3 = some 3 ∧ (s.die 3).pins.find? (fun q => !q.back) = some (failPin capt) ∧
    (∀ k, k < 16 → s.flag (ACQ_TRIG_STATUS.ARMED k) = false) ∧
    (∀ x ∈ s.expected 3 (failPin capt) 3, x.1 ∈ (failPin capt).sent ∨
      bitOf wholeFrame.chans.toNat (x.1 % 64) = true ∧ bitOf wholeFrame.uis.toNat (x.1 / 1024) = true) ∧
    (s.act 3).line = [{ vec := failVec capt }] ∧ (∀ b ∈ s.actBlocks 3, b ≠ 3 → bitOf 0 b = true)) :
    LastResults d wholeFrame 3 (failPin capt) (failFlight capt s) s := by
  obtain ⟨rfl, h1, h2, h3, h4, h5, h6, h7, h8⟩ := h
  exact ⟨h1, h2, h3, rfl, h4, rfl, h5, h6, _, _, h7, rfl, h8, rfl, rfl⟩

/-- A measurement unit of a channel in a phase, in mode IDLE. -/
def unitIn (c : Nat) (u : TdcUnit) : State := (inMode .idle).setMu c u

/-- Stream 2 enabled with a KIND. -/
def streamIn (kind : Nat) : State := ((inMode .idle).put (ACQ_STREAM_CTRL.EN 2) 1).put (ACQ_STREAM_CTRL.KIND 2) kind

/-- Stream 2 with a hidden state. -/
def streamWith (x : StreamSt) : State := (streamIn 0).setStream 2 x

/-- The live pass of die 2 on channel 130. -/
def passOn (p : PassSt) : State := (inMode .idle).setDie 2 { pass := some p }

/-- Stream 2 with its DRAM ring behind every partition. -/
def ringPlaced (s : State) : State := s.put (ACQ_STREAM_DRAM_BASE.VALUE 2) 0x400000

/-- Ring 5 of act 3, with one dirty tile, whose push into stream 0 is in progress. -/
def tileOn : State :=
  let s := ((((ringOn.setRing 5 { push := some true }).put (ACQ_STREAM_CTRL.EN 0) 1).put (FAIL_BITMAP_CFG.XBITS 5) 12).put
    (FAIL_TILE_STATUS.DIRTY 5) 1).put (FAIL_BITMAP_BASE.BASE 5) 0x400000
  (s.setPair (SEQ_CYCLE_LO.addr 3) 8).dramPut (s.dirtyBase 5) [1]

/-- What a live pass measures. -/
def quiet : ChanMeas := ⟨[], [], [], ⟨0, 0, [], []⟩, ⟨0, 0, [], []⟩, [], []⟩

/-- What a full run measures of a channel at the least, every stamp alike. -/
def wholeMeas : ChanMeas :=
  let e : List RawStamp := [0, 1, 2, 3].flatMap (fun j => List.replicate 1024 ⟨j, 0, 5⟩)
  let t : ThrMeas := ⟨0, 0, List.replicate 4096 1, List.replicate 4096 1⟩
  ⟨e, e, List.replicate 1024 ⟨0, 0, 5⟩, t, t, [1], []⟩

/-- Hits of a code-density run, alike in every bin. -/
def flatHits : List (List Nat) := List.replicate 8 (List.replicate 512 2048)

/-- CAL with a full run that covers channel 130 alone. -/
def fullRun : State :=
  (State.each (fun i s => s.put (CAL_MASK.CHANNELS i) (if i = 4 then 4 else 0)) (List.range 32)
    (((inMode .cal).put CAL_STATUS.FULL_BUSY 1).put CAL_CTRL.FULL_ALL 0)).put CAL_CTRL.COMMIT 0

/-- The patrol engine on, over the banks, at a region. -/
def patrolAt (r : Nat) (s : State) : State :=
  (((s.put MEM_PATROL_CFG.EN 1).put MEM_PATROL_CFG.ARRAYS 1).put MEM_PATROL_STATUS.ACTIVE 0).withPatrol r

/-- Device 9 with a role, whose port 1 is ACTIVE and holds a hidden state. -/
def portIn (role : Nat) (x : PortSt) : State :=
  (((((inMode .idle).put SYS_DEVIDX.INDEX 9).put SYS_DEVIDX.VALID 1).put SYS_ROLE.ROLE role).put (LNK_STATUS.STATE 1) 2).setPort 1 x

/-- The header of a frame from device 5 to a device. -/
def hdr (dest : Nat) : FrameHdr := ⟨true, 0, 3, BitVec.ofNat 9 dest, 5⟩

/-- A whistle of show 3 from device 5. -/
def wIn : WhistleIn := ⟨true, 1, 3, 5, 0, 0⟩

/-- A host command with CMD_ID 7. -/
def hc (op : BitVec 16) (args : List (BitVec 64)) : HostCmd := ⟨7, op, 0, args⟩

/-- A state with one command at the head of queue 2. -/
def withCmd (c : HostCmd) (s : State) : State := s.setQueue 2 { waiting := [c] }

/-- A state with one started command in queue 2. -/
def withStarted (c : HostCmd) (s : State) : State := s.setQueue 2 { started := [c] }

/-- A port's tag in use for the host command 7 of queue 2. -/
def tag3 (wr : Bool) : TagSt := ⟨3, .cmd 2 7, wr, 0⟩

/-- A signed request: TYPE, KEY_ID, payload, over the serial number 0 and the nonce 0. -/
def request (typ key : Nat) (payload : List Byte) : List Byte :=
  leBytes 4 0x52585A4C ++ leBytes 2 typ ++ leBytes 1 key ++ leBytes 13 0 ++ leBytes 4 payload.length ++ leBytes 8 0 ++
    payload ++ List.replicate 96 0

/-- Customer keys in slots 0 and 1. -/
def keyed : Otp := { keys := [(0, [1]), (1, [2])] }

/-- Energy for a fuse blow, and the OTP with customer keys. -/
def ready (s : State) : State := (s.put PWR_HOLDUP_NEED.NEED 0).withOtp keyed

/-! ## A boot image, byte by byte

Witnesses for the clauses whose hypotheses read a signed or a large image (05, Tables 5-3 to 5-6): the digest is a
constant without a body and the calibration record has 8 MB, so the bytes are followed by proof. -/

theorem length_leBytes (n v : Nat) : (leBytes n v).length = n := by
  induction n generalizing v with
  | zero => rfl
  | succ n ih => simp [leBytes, ih]

theorem leNat_leBytes (n v : Nat) : leNat (leBytes n v) = v % 256 ^ n := by
  induction n generalizing v with
  | zero => simp [leBytes, leNat, Nat.mod_one]
  | succ n ih =>
    rw [leBytes, leNat, ih, BitVec.toNat_ofNat, Nat.pow_succ (n := 256), Nat.mul_comm (256 ^ n) 256, Nat.mod_mul]

theorem slice_splice (t : Tab Byte) (k : Nat) (vs : List Byte) :
    Tab.slice flashByte (Tab.splice flashByte t k vs) k vs.length = vs := by
  induction vs generalizing t k with
  | nil => rfl
  | cons v vs ih =>
    simp only [Tab.splice, List.length_cons, Tab.slice, ih]
    rw [Tab.get_splice_out vs _ (Or.inl (Nat.lt_succ_self k)), Tab.get_set_same]

theorem splice_append (t : Tab Byte) (k : Nat) (vs ws : List Byte) :
    Tab.splice flashByte t k (vs ++ ws) = Tab.splice flashByte (Tab.splice flashByte t k vs) (k + vs.length) ws := by
  induction vs generalizing t k with
  | nil => rfl
  | cons v vs ih => simp only [List.cons_append, Tab.splice, ih, List.length_cons]; congr 1; omega

theorem slice_congr {t u : Tab Byte} (k n : Nat) (h : ∀ j, k ≤ j → j < k + n → Tab.get flashByte t j = Tab.get flashByte u j) :
    Tab.slice flashByte t k n = Tab.slice flashByte u k n := by
  induction n generalizing k with
  | zero => rfl
  | succ n ih =>
    simp only [Tab.slice]
    rw [h k (Nat.le_refl k) (by omega), ih (k + 1) (fun j a b => h j (by omega) (by omega))]

theorem slice_head (t : Tab Byte) (k : Nat) (vs ws : List Byte) :
    Tab.slice flashByte (Tab.splice flashByte t k (vs ++ ws)) k vs.length = vs := by
  rw [splice_append]
  refine (slice_congr k vs.length fun j _ h2 => ?_).trans (slice_splice t k vs)
  exact Tab.get_splice_out ws _ (Or.inl h2)

theorem slice_tail (t : Tab Byte) (k : Nat) (vs ws : List Byte) :
    Tab.slice flashByte (Tab.splice flashByte t k (vs ++ ws)) (k + vs.length) ws.length = ws := by
  rw [splice_append]
  exact slice_splice _ _ ws

theorem crcBits_lt (n c : Nat) (h : c < 2 ^ 32) : crcBits n c < 2 ^ 32 := by
  induction n generalizing c with
  | zero => exact h
  | succ n ih =>
    rw [crcBits]
    apply ih
    split
    · exact Nat.xor_lt_two_pow (by omega) (by decide)
    · omega

theorem crcFold_lt (bs : List Byte) (c : Nat) (h : c < 2 ^ 32) : crcFold bs c < 2 ^ 32 := by
  induction bs generalizing c with
  | nil => exact h
  | cons b bs ih => exact ih _ (crcBits_lt _ _ (Nat.xor_lt_two_pow h (by have := b.isLt; omega)))

theorem crc32c_lt (bs : List Byte) : crc32c bs < 2 ^ 32 :=
  Nat.xor_lt_two_pow (crcFold_lt bs _ (by decide)) (by decide)

/-- A record of an image body (Table 5-4), its value a multiple of 4 bytes long. -/
def recBytes (typ : Nat) (v : List Byte) : List Byte :=
  (leBytes 2 typ ++ leBytes 2 0 ++ leBytes 4 v.length ++ v) ++
    leBytes 4 (crc32c (leBytes 2 typ ++ leBytes 2 0 ++ leBytes 4 v.length ++ v))

/-- A body (Table 5-4): its records in order. -/
def bodyBytes : List (Nat × List Byte) → List Byte
  | [] => []
  | r :: rs => recBytes r.1 r.2 ++ bodyBytes rs

theorem length_recBytes (typ : Nat) (v : List Byte) : (recBytes typ v).length = v.length + 12 := by
  simp only [recBytes, List.length_append, length_leBytes]; omega

theorem length_bodyBytes (rs : List (Nat × List Byte)) : (bodyBytes rs).length = (rs.map (fun r => r.2.length + 12)).sum := by
  induction rs with
  | nil => rfl
  | cons r rs ih => simp only [bodyBytes, List.length_append, length_recBytes, ih, List.map_cons, List.sum_cons]

/-- A record that a body may hold before its last. -/
def plainRec (r : Nat × List Byte) : Prop := r.1 ≠ 0x8000 ∧ r.1 < 65536 ∧ r.2.length % 4 = 0 ∧ r.2.length < 2 ^ 32

theorem tlvs_rec (n typ : Nat) (v rest : List Byte) (ht : typ < 65536) (h4 : v.length % 4 = 0) (hl : v.length < 2 ^ 32) :
    tlvs (n + 1) (recBytes typ v ++ rest) =
      if typ = 0x8000 then (if rest = [] then some [(typ, v)] else none)
      else (tlvs n rest).map (fun r => (typ, v) :: r) := by
  have hlen : leNat (((recBytes typ v ++ rest).drop 4).take 4) = v.length := by
    have e : ((recBytes typ v ++ rest).drop 4).take 4 = leBytes 4 v.length := by
      simp [recBytes, leBytes]
    rw [e, leNat_leBytes]; omega
  have htyp : leNat ((recBytes typ v ++ rest).take 2) = typ := by
    have e : (recBytes typ v ++ rest).take 2 = leBytes 2 typ := by simp [recBytes, leBytes]
    rw [e, leNat_leBytes]; omega
  have hval : ((recBytes typ v ++ rest).drop 8).take v.length = v := by
    have e : (recBytes typ v ++ rest).drop 8 = v ++ (leBytes 4 (crc32c (leBytes 2 typ ++ leBytes 2 0 ++ leBytes 4 v.length ++ v)) ++ rest) := by
      simp [recBytes, leBytes]
    rw [e]; exact List.take_left' rfl
  have hs : 8 + (v.length + 3) / 4 * 4 = v.length + 8 := by omega
  have hb : leBytes 2 typ ++ leBytes 2 0 ++ leBytes 4 v.length ++ v = (recBytes typ v ++ rest).take (v.length + 8) := by
    rw [recBytes, List.append_assoc (leBytes 2 typ ++ leBytes 2 0 ++ leBytes 4 v.length ++ v)]
    refine (List.take_left' ?_).symm
    simp only [List.length_append, length_leBytes]; omega
  have hc : leNat (((recBytes typ v ++ rest).drop (v.length + 8)).take 4) =
      crc32c ((recBytes typ v ++ rest).take (v.length + 8)) := by
    rw [← hb]
    have e : (recBytes typ v ++ rest).drop (v.length + 8) =
        leBytes 4 (crc32c (leBytes 2 typ ++ leBytes 2 0 ++ leBytes 4 v.length ++ v)) ++ rest := by
      rw [recBytes, List.append_assoc (leBytes 2 typ ++ leBytes 2 0 ++ leBytes 4 v.length ++ v)]
      refine List.drop_left' ?_
      simp only [List.length_append, length_leBytes]; omega
    rw [e, List.take_left' (length_leBytes 4 _), leNat_leBytes]
    exact Nat.mod_eq_of_lt (by have := crc32c_lt (leBytes 2 typ ++ leBytes 2 0 ++ leBytes 4 v.length ++ v); omega)
  have hr : (recBytes typ v ++ rest).drop (v.length + 8 + 4) = rest :=
    List.drop_left' (by rw [length_recBytes])
  have hL : (recBytes typ v ++ rest).length = v.length + 12 + rest.length := by
    rw [List.length_append, length_recBytes]
  conv_lhs => unfold tlvs
  simp only [hlen, hs, htyp, hval, hc, hr, ne_eq, not_true_eq_false, if_false]
  rw [if_neg (by omega)]

theorem tlvs_body (rs : List (Nat × List Byte)) (n : Nat) (hn : rs.length ≤ n) (h : ∀ r ∈ rs, plainRec r) :
    tlvs (n + 1) (bodyBytes (rs ++ [(0x8000, [])])) = some (rs ++ [(0x8000, [])]) := by
  induction rs generalizing n with
  | nil =>
    have := tlvs_rec n 0x8000 [] [] (by decide) rfl (by decide)
    simpa [bodyBytes] using this
  | cons r rs ih =>
    obtain ⟨h1, h2, h3, h4⟩ := h r (List.mem_cons_self ..)
    obtain ⟨m, rfl⟩ : ∃ m, n = m + 1 := ⟨n - 1, by simp at hn; omega⟩
    have := tlvs_rec (m + 1) r.1 r.2 (bodyBytes (rs ++ [(0x8000, [])])) h2 h3 h4
    rw [List.cons_append, bodyBytes, this, if_neg h1, ih m (by simpa using hn) (fun x hx => h x (List.mem_cons_of_mem _ hx))]
    rfl

theorem bodyRecords_body (rs : List (Nat × List Byte)) (h : ∀ r ∈ rs, plainRec r)
    (ho : typesOnce (rs ++ [(0x8000, [])]) = true) :
    bodyRecords (bodyBytes (rs ++ [(0x8000, [])])) = some (rs ++ [(0x8000, [])]) := by
  have hl : rs.length ≤ ((rs.map (fun r => r.2.length + 12)).sum) := by
    clear h ho
    induction rs with
    | nil => simp
    | cons r rs ih => simp only [List.length_cons, List.map_cons, List.sum_cons]; omega
  have e : (bodyBytes (rs ++ [(0x8000, [])])).length = (rs.map (fun r => r.2.length + 12)).sum + 12 := by
    rw [length_bodyBytes]; simp
  obtain ⟨n, hn⟩ : ∃ n, (bodyBytes (rs ++ [(0x8000, [])])).length = n + 1 := ⟨(rs.map (fun r => r.2.length + 12)).sum + 11, by omega⟩
  have ht := tlvs_body rs n (by omega) h
  unfold bodyRecords
  rw [hn, ht]
  simp [ho]

/-- A value of zeros. -/
def zeros (n : Nat) : List Byte := List.replicate n 0

@[simp] theorem length_zeros (n : Nat) : (zeros n).length = n := List.length_replicate

theorem all_zeros (n : Nat) (p : Byte → Bool) (h : p 0 = true) : (zeros n).all p = true := by
  rw [List.all_eq_true]
  intro b hb
  rw [List.eq_of_mem_replicate hb]
  exact h

/-- A calibration body (Table 14-4) of zeros. -/
def calRecs : List (Nat × List Byte) := calTypes.map (fun t => (t.1, zeros t.2))

/-- The records of an image (Table 5-5) before its last. -/
def imageRecs : List (Nat × List Byte) :=
  [(0x8001, zeros 8), (0x8002, zeros 4096), (0x8003, zeros 16), (0x8004, leBytes 2 0 ++ (leBytes 2 1024 ++ zeros 143360)),
   (0x8005, zeros 1024), (0x8006, zeros 128), (0x8007, bodyBytes (calRecs ++ [(0x8000, [])])), (0x8008, zeros 4608),
   (0x8009, zeros 68)]

theorem length_calBody : (bodyBytes (calRecs ++ [(0x8000, [])])).length = 8487268 := by
  rw [length_bodyBytes]; simp [calRecs, calTypes]

theorem calRecs_body : bodyRecords (bodyBytes (calRecs ++ [(0x8000, [])])) = some (calRecs ++ [(0x8000, [])]) := by
  refine bodyRecords_body _ (fun r hr => ?_) (by simp [typesOnce, calRecs, calTypes])
  simp only [calRecs, List.mem_map] at hr
  obtain ⟨t, ht, rfl⟩ := hr
  have : t ∈ calTypes → t.1 ≠ 0x8000 ∧ t.1 < 65536 ∧ t.2 % 4 = 0 ∧ t.2 < 2 ^ 32 := by revert t; decide
  simpa [plainRec] using this ht

theorem imageRecs_plain : ∀ r ∈ imageRecs, plainRec r := by
  simp only [imageRecs, List.mem_cons, List.not_mem_nil, or_false, forall_eq_or_imp, forall_eq, plainRec,
    length_zeros, List.length_append, length_leBytes, length_calBody]
  decide

theorem imageRecs_body : bodyRecords (bodyBytes (imageRecs ++ [(0x8000, [])])) = some (imageRecs ++ [(0x8000, [])]) :=
  bodyRecords_body _ imageRecs_plain (by simp [typesOnce, imageRecs])

theorem length_imageBody : (bodyBytes (imageRecs ++ [(0x8000, [])])).length < 2 ^ 32 := by
  rw [length_bodyBytes]; simp [imageRecs, length_calBody, length_leBytes]

theorem calRecs_complete : calComplete (calRecs ++ [(0x8000, [])]) = true ∧ calShaped (calRecs ++ [(0x8000, [])]) = true ∧
    (calCritical (calRecs ++ [(0x8000, [])])).isNone = true := by
  refine ⟨?_, ?_, ?_⟩
  · simp [calComplete, calRecs, calTypes]
  · simp [calShaped, calRecs, calTypes, recOf]
  · simp [calCritical, calRecs, calTypes, calDefined]

theorem imageRecs_ok : ∀ r ∈ imageRecs ++ [(0x8000, [])], valueOk r.1 r.2 = true := by
  have h1 (v : List Byte) : valueOk 0x8001 v =
      (decide (8 ≤ v.length) && decide (leNat (v.take 4) + (v.length - 8) ≤ 0xF00000)) := rfl
  have h2 (v : List Byte) : valueOk 0x8002 v = decide (v.length = 4096) := rfl
  have h3 (v : List Byte) : valueOk 0x8003 v = (decide (v.length = 16) && v.all (fun b => decide (b.toNat < 16 ∨ b.toNat = 255))) := rfl
  have h4 (v : List Byte) : valueOk 0x8004 v =
      (decide (v.length = 143364) && decide (leNat (v.take 2) = 0) && decide (leNat ((v.drop 2).take 2) = 1024)) := rfl
  have h5 (v : List Byte) : valueOk 0x8005 v = (decide (v.length = 1024) && v.all (fun b => decide (b.toNat ≤ 3))) := rfl
  have h6 (v : List Byte) : valueOk 0x8006 v = decide (v.length = 128) := rfl
  have h7 (v : List Byte) (rs : List (Nat × List Byte)) (hv : bodyRecords v = some rs) (hc : calComplete rs = true)
      (hs : calShaped rs = true) (hd : (calCritical rs).isNone = true) : valueOk 0x8007 v = true := by
    have e : valueOk 0x8007 v = (match bodyRecords v with
      | some rs => calComplete rs && calShaped rs && (calCritical rs).isNone
      | none => false) := rfl
    rw [e, hv]
    simp only [hc, hs, hd, Bool.and_self]
  have h8 (v : List Byte) : valueOk 0x8008 v = decide (v.length = 4608) := rfl
  have h9 (v : List Byte) : valueOk 0x8009 v = decide (v.length = 68) := rfl
  have h0 (v : List Byte) : valueOk 0x8000 v = decide (v.length = 0) := rfl
  intro r hr
  simp only [imageRecs, List.cons_append, List.nil_append, List.mem_cons, List.not_mem_nil, or_false] at hr
  rcases hr with rfl | rfl | rfl | rfl | rfl | rfl | rfl | rfl | rfl | rfl
  · rw [h1]; decide
  · rw [h2, length_zeros]; rfl
  · rw [h3, length_zeros, all_zeros 16 _ (by decide)]; rfl
  · rw [h4, List.drop_left' (length_leBytes 2 0), List.take_left' (length_leBytes 2 0), List.take_left' (length_leBytes 2 1024),
      List.length_append, List.length_append, length_leBytes, length_leBytes, length_zeros]
    decide
  · rw [h5, length_zeros, all_zeros 1024 _ (by decide)]; rfl
  · rw [h6, length_zeros]; rfl
  · exact h7 _ _ calRecs_body calRecs_complete.1 calRecs_complete.2.1 calRecs_complete.2.2
  · rw [h8, length_zeros]; rfl
  · rw [h9, length_zeros]; rfl
  · rw [h0]; rfl

theorem applyAll_ok (rs : List (Nat × List Byte)) (i : Nat) (s : State) (h : ∀ r ∈ rs, valueOk r.1 r.2 = true) :
    (State.applyAll [] rs i s).2 = none := by
  induction rs generalizing i s with
  | nil => rfl
  | cons r rs ih =>
    have hr := h r (List.mem_cons_self ..)
    simp only [State.applyAll, hr]
    simpa using ih (i + 1) _ (fun x hx => h x (List.mem_cons_of_mem _ hx))

/-- The first 32 bytes of a header (Table 5-3): the length of the body, GENERATION 1, unsigned, every revision. -/
def headStart (n : Nat) : List Byte :=
  leBytes 4 0x49585A4C ++ leBytes 4 0x01000001 ++ leBytes 4 n ++ leBytes 4 1 ++ leBytes 8 0 ++ leBytes 4 0xFFFFFFFF ++ leBytes 4 0

/-- The first 252 bytes of a header: those, the SHA-384 of the body, no signature. -/
def headBytes (body : List Byte) : List Byte :=
  headStart body.length ++ ((leBytes 48 (Config.sha384 body).toNat).reverse ++ zeros 172)

/-- A header with its CRC. -/
def header (body : List Byte) : List Byte := headBytes body ++ leBytes 4 (crc32c (headBytes body))

/-- BOOT at a step, with slot 0 of a 1 Gbit flash holding an image. -/
def slotted (n : Nat) (body : List Byte) : State :=
  ((((inBoot n).put NVM_CFG.DENSITY 1).withSlotTried (some 0)).withBooted (some 0)).withFlash (Tab.splice flashByte [] 0 (header body ++ body))

theorem slotted_flash (n : Nat) (body : List Byte) :
    (slotted n body).flash = Tab.splice flashByte [] 0 (header body ++ body) := by
  rw [slotted, State.withFlash]

theorem length_headStart (n : Nat) : (headStart n).length = 32 := by
  simp only [headStart, List.length_append, length_leBytes]

theorem length_headBytes (body : List Byte) : (headBytes body).length = 252 := by
  simp only [headBytes, List.length_append, length_headStart, length_leBytes, List.length_reverse, length_zeros]

theorem length_header (body : List Byte) : (header body).length = 256 := by
  simp only [header, List.length_append, length_headBytes, length_leBytes]

theorem header_start (body : List Byte) (m k : Nat) (h : m + k ≤ 32) :
    ((header body).drop m).take k = ((headStart body.length).drop m).take k := by
  have hl := length_headStart body.length
  rw [header, headBytes, List.append_assoc, List.drop_append_of_le_length (by omega),
    List.take_append_of_le_length (by rw [List.length_drop]; omega)]

theorem slotted_header (n : Nat) (body : List Byte) : (slotted n body).slotHeader 0 = header body := by
  have h := slice_head [] 0 (header body) body
  rw [length_header] at h
  have e := slotted_flash n body
  rw [State.slotHeader, Nat.zero_mul, State.flashBytes, e, h]

theorem header_len (body : List Byte) (h : body.length < 2 ^ 32) : hdrBodyLen (header body) = body.length := by
  have e : ((headStart body.length).drop 8).take 4 = leBytes 4 body.length := by simp [headStart, leBytes]
  rw [hdrBodyLen, header_start _ 8 4 (by decide), e, leNat_leBytes]; omega

theorem slotted_body (n : Nat) (body : List Byte) (h : body.length < 2 ^ 32) : (slotted n body).slotBody 0 = body := by
  have h' := slice_tail [] 0 (header body) body
  rw [length_header] at h'
  have e := slotted_flash n body
  rw [State.slotBody, slotted_header, header_len body h, Nat.zero_mul, State.flashBytes, e, h']

/-- A body that ends at once. -/
def noBody : List Byte := bodyBytes ([] ++ [(0x8000, [])])

theorem length_noBody : noBody.length = 12 := by decide

theorem slotted_headerReason : (slotted 6 noBody).headerReason 0 = 0 := by
  have hb := length_noBody
  have h1 : (header noBody).take 252 = headBytes noBody := List.take_left' (length_headBytes _)
  have h2 : leNat ((header noBody).drop 252) = crc32c (headBytes noBody) := by
    rw [header, List.drop_left' (length_headBytes _), leNat_leBytes]
    exact Nat.mod_eq_of_lt (by have := crc32c_lt (headBytes noBody); omega)
  have h4 : hdrBodyLen (header noBody) = 12 := by rw [header_len _ (by rw [hb]; decide), hb]
  have g0 : (header noBody).take 4 = leBytes 4 0x49585A4C := by
    have := header_start noBody 0 4 (by decide)
    rw [hb] at this; simpa [headStart, leBytes] using this
  have g4 : leNat (((header noBody).drop 4).take 1) = 1 := by rw [header_start _ _ _ (by decide), hb]; decide
  have g6 : leNat (((header noBody).drop 6).take 2) = 0x100 := by rw [header_start _ _ _ (by decide), hb]; decide
  have g12 : hdrGeneration (header noBody) = 1 := by rw [hdrGeneration, header_start _ _ _ (by decide), hb]; decide
  have g24 : hdrSrev (header noBody) = 0xFFFFFFFF := by rw [hdrSrev, header_start _ _ _ (by decide), hb]; decide
  have hz : (slotted 6 noBody).slotSize = 41943040 := by decide +kernel
  have ht (a : Nat) : (slotted 6 noBody).tornIn a 256 = false := rfl
  have hr : bitsOf (slotted 6 noBody).otp.rev.toNat 8 5 = 0 := by decide
  rw [State.headerReason]
  simp only [slotted_header, h1, h2, h4, g0, g4, g6, g12, g24, hz, ht, hr]
  simp [bitOf]

theorem slotted_reason : (slotted 6 noBody).slotReason 0 = 0 := by
  have hb := length_noBody
  have h3 : beNat (hdrHash (header noBody)) = (Config.sha384 noBody).toNat := by
    have e : hdrHash (header noBody) = (leBytes 48 (Config.sha384 noBody).toNat).reverse := by
      rw [hdrHash, header, headBytes, List.append_assoc, List.drop_left' (length_headStart _), List.append_assoc,
        List.take_left' (by rw [List.length_reverse, length_leBytes])]
    rw [beNat, e, List.reverse_reverse, leNat_leBytes]
    exact Nat.mod_eq_of_lt (by have := (Config.sha384 noBody).isLt; omega)
  have hd : (slotted 6 noBody).slotBody 0 = noBody := slotted_body 6 noBody (by rw [hb]; decide)
  have hs : hdrSigned (header noBody) = false := by rw [hdrSigned, header_start _ _ _ (by decide), hb]; decide
  have ht (a : Nat) : (slotted 6 noBody).tornIn a 12 = false := rfl
  have hl : (slotted 6 noBody).lcState ≠ 2 := by decide +kernel
  have hr : (bodyRecords noBody).isNone = false := by
    rw [noBody, bodyRecords_body [] (by simp) rfl]; rfl
  rw [State.slotReason]
  simp only [slotted_headerReason, hd, slotted_header, h3, hb, ht, hr, State.signatureOk, hs]
  simpa using hl

theorem test_wit_ImageLoadingCompletes_5 : ∃ (k : Fin 2) (s : State), s.mode = .boot ∧ s.fld SYS_MODE.BOOT_STEP = 6 ∧
    s.slotTried = some k.val ∧ s.slotReason k = 0 :=
  ⟨0, slotted 6 noBody, by decide +kernel, by decide +kernel, by decide +kernel, slotted_reason⟩

theorem test_wit_ImageLoadingCompletes_8 : ∃ (k : Nat) (rb : List Readback) (rs : List (Nat × List Byte)) (s : State),
    s.mode = .boot ∧ s.fld SYS_MODE.BOOT_STEP = 7 ∧ s.booted = some k ∧ bodyRecords (s.slotBody k) = some rs ∧
    (∀ ty ∈ imageTypes, ∃ r ∈ rs, r.1 = ty) ∧ (State.applyAll rb rs 0 s).2 = none :=
  ⟨0, [], imageRecs ++ [(0x8000, [])], slotted 7 (bodyBytes (imageRecs ++ [(0x8000, [])])), by decide +kernel,
    by decide +kernel, by decide +kernel, (congrArg bodyRecords (slotted_body 7 _ length_imageBody)).trans imageRecs_body,
    by simp [imageTypes, imageRecs], applyAll_ok _ _ _ imageRecs_ok⟩

/-- The same image with a first record that is too short. -/
def shortRecs : List (Nat × List Byte) := (0x8001, zeros 4) :: imageRecs.tail

theorem shortRecs_body : bodyRecords (bodyBytes (shortRecs ++ [(0x8000, [])])) = some (shortRecs ++ [(0x8000, [])]) := by
  refine bodyRecords_body _ (fun r hr => ?_) (by simp [typesOnce, shortRecs, imageRecs])
  rcases List.mem_cons.mp hr with rfl | h
  · simp [plainRec]
  · exact imageRecs_plain r (List.mem_of_mem_tail h)

theorem length_shortBody : (bodyBytes (shortRecs ++ [(0x8000, [])])).length < 2 ^ 32 := by
  rw [length_bodyBytes]; simp [shortRecs, imageRecs, length_calBody, length_leBytes]

theorem test_wit_ImageLoadingCompletes_10 : ∃ (k i ty : Nat) (rb : List Readback) (rs : List (Nat × List Byte)) (s : State),
    s.mode = .boot ∧ s.fld SYS_MODE.BOOT_STEP = 7 ∧ s.booted = some k ∧ bodyRecords (s.slotBody k) = some rs ∧
    (∀ ty ∈ imageTypes, ∃ r ∈ rs, r.1 = ty) ∧ (State.applyAll rb rs 0 s).2 = some (i, ty) :=
  ⟨0, 0, 0x8001, [], shortRecs ++ [(0x8000, [])], slotted 7 (bodyBytes (shortRecs ++ [(0x8000, [])])), by decide +kernel,
    by decide +kernel, by decide +kernel, (congrArg bodyRecords (slotted_body 7 _ length_shortBody)).trans shortRecs_body,
    by simp [imageTypes, shortRecs, imageRecs], by
      have h : valueOk 0x8001 (zeros 4) = false := by decide +kernel
      simp [shortRecs, State.applyAll, h]⟩

/-! ## Rules over any step -/

/-- The state a step answers, where it answers one. -/
def nextOr (r : Res) (d : State) : State := match r with | .next t => t | _ => d

/-- Whether a step answers a next state. -/
def isNext (r : Res) : Bool := match r with | .next _ => true | _ => false

theorem next_of {r : Res} (d : State) (h : isNext r = true) : r = .next (nextOr r d) := by
  cases r <;> simp_all [isNext, nextOr]

/-- A trim write with the TAP open. -/
def trimming : State := ((inMode .idle).put LC_DEBUG.TRIM_OPEN 1).withPending [.jtagInstruction (.trim 5 7), .flr]

/-- UVLO_START in OFF. -/
def starting : State := State.reset.withPending [.uvloStart 0 false (temps 0), .flr]

theorem test_wit_StepKeepsCanonicalForm_1 : ∃ s t : State, s.wf = true ∧ step s = .next t :=
  ⟨trimming, _, by decide +kernel, next_of trimming (by decide +kernel)⟩

theorem test_wit_FusesOnlyEverBlown_1 : ∃ s t : State, step s = .next t :=
  ⟨trimming, _, next_of trimming (by decide +kernel)⟩

theorem test_wit_QueueIsFirstInFirstOut_1 : ∃ (c : Instr) (cs : List Instr) (s t : State), s.pending = c :: cs ∧ step s = .next t :=
  ⟨_, _, trimming, _, rfl, next_of trimming (by decide +kernel)⟩

theorem test_wit_TrimsChangeOnlyThroughTheOpenTap_1 : ∃ (c : Instr) (cs : List Instr) (s t : State),
    s.pending = c :: cs ∧ step s = .next t ∧ t.trims ≠ s.trims :=
  ⟨_, _, trimming, _, rfl, next_of trimming (by decide +kernel), by decide +kernel⟩

theorem test_wit_OnlyUvloStartLeavesOff_1 : ∃ (c : Instr) (cs : List Instr) (s t : State),
    s.pending = c :: cs ∧ s.mode = .off ∧ step s = .next t ∧ t.mode ≠ .off :=
  ⟨_, _, starting, _, rfl, rfl, next_of starting (by decide +kernel), by decide +kernel⟩

theorem test_wit_OwnershipStaysExclusive_1 : ∃ (s : State) (g : Ring) (i : Fin 32) (v : Word),
    ∀ h k : Ring, ∀ c, c < 1024 → s.inRing h c = true → s.inRing k c = true → h = k := by
  have hf : ∀ h : Ring, ∀ i : Fin 32, h ≠ 5 → ringOn.fld (FAIL_RING_CH.MEMBERS h i) = 0 := by decide +kernel
  have hr : ∀ h : Ring, ∀ c, c < 1024 → ringOn.inRing h c = true → h = 5 := by
    intro h c hc h1
    by_contra hn
    have := hf h ⟨c / 32, by omega⟩ hn
    simp only at this
    rw [State.inRing, this] at h1
    simp [bitOf] at h1
  exact ⟨ringOn, 5, 6, 1, fun h k c hc h1 h2 => (hr h c hc h1).trans (hr k c hc h2).symm⟩

theorem test_wit_OwnershipStaysExclusive_2 : ∃ (s : State) (n : Act) (v : Word),
    ∀ h k : Act, ∀ b, b < 16 → bitOf (s.fld (SEQ_CB_MASK.MASK h)) b = true →
      bitOf (s.fld (SEQ_CB_MASK.MASK k)) b = true → h = k :=
  ⟨(inMode .idle).put (SEQ_CB_MASK.MASK 3) 8, 3, 9, by decide +kernel⟩

/-! ## Witnesses whose hypotheses range over a list -/

theorem temps_ok (x : BitVec 16) (p : BitVec 16 → Prop) (h : p x) : ∀ y ∈ temps x, p y := by
  intro y hy
  rw [List.eq_of_mem_replicate hy]
  exact h

theorem test_wit_PoweringUpCompletes_1 : ∃ (role : BitVec 2) (rma : Bool) (ts : List (BitVec 16)) (s : State),
    s.mode = .off ∧ s.shed = none ∧ ts.length = 40 ∧ (∀ x ∈ ts, tempInvalid x = false ∧ signed 16 x.toNat < 1280) :=
  ⟨2, false, temps 1279, State.reset, rfl, rfl, rfl, temps_ok 1279 _ (by decide)⟩

theorem test_wit_SupplyAndTemperatureComplete_8 : ∃ (ts : List (BitVec 16)) (s : State),
    s.mode ≠ .off ∧ ts.length = 40 ∧ (∀ x ∈ ts, tempInvalid x = false ∧ signed 16 x.toNat < 1280) :=
  ⟨temps 1279, inMode .run, by decide +kernel, rfl, temps_ok 1279 _ (by decide)⟩

theorem test_wit_SupplyAndTemperatureComplete_9 : ∃ (ts : List (BitVec 16)) (i : Nat) (s : State),
    s.mode ≠ .off ∧ ts.length = 40 ∧ i < 40 ∧
    (∀ x ∈ ts, tempInvalid x = false ∧ signed 16 x.toNat < 1360) ∧ 1280 ≤ signed 16 (ts.getD i 0).toNat ∧
    1280 ≤ signed 16 (s.sensor i).last.toNat ∧ tempInvalid (s.sensor i).last = false :=
  ⟨temps 1280, 39, (inMode .run).setSensor 39 { last := 1280 }, by decide +kernel, rfl, by decide,
    temps_ok 1280 _ (by decide), by decide +kernel, by decide +kernel, by decide +kernel⟩

theorem idle_ringExecuting (g : Nat) (h : g < 64) : (inMode .idle).ringExecuting g = false := by
  have hf : ∀ h : Ring, ∀ i : Fin 32, (inMode .idle).fld (FAIL_RING_CH.MEMBERS h i) = 0 := by decide +kernel
  have hc : (inMode .idle).ringChans g = [] := by
    rw [State.ringChans, List.flatMap_eq_nil_iff]
    intro i hi
    have h0 := hf ⟨g, h⟩ ⟨i, List.mem_range.mp hi⟩
    simp only at h0
    rw [h0]
    rfl
  rw [State.ringExecuting, State.ringAct, hc]

theorem test_wit_DramAndOwnershipComplete_3 : ∃ (a : BitVec 37) (bytes : List Byte) (s : State),
    s.inService = true ∧ a.toNat + bytes.length ≤ dramSize ∧ Clear a.toNat bytes.length s ∧
    (∀ g, g < 64 → s.hitsRing a.toNat bytes.length g = false) :=
  ⟨BitVec.ofNat 37 (dramSize - 4), [1, 2, 3, 4], inMode .idle, by decide +kernel, by decide +kernel,
    by unfold Clear; decide +kernel, fun g h => by rw [State.hitsRing, idle_ringExecuting g h]; rfl⟩

/-! ## Well-formedness: for each check a term that it refuses -/

theorem test_wf_sensors : Instr.wf (.tempSample (temps 0)) = true ∧ Instr.wf (.tempSample []) = false := by decide
theorem test_wf_root : Instr.wf (.rootChange 19200) = true ∧ Instr.wf (.rootChange 19199) = false := by decide
theorem test_wf_wordAddr : Instr.wf (.loRead .pcie 4 .clean) = true ∧ Instr.wf (.loRead .pcie 6 .clean) = false := by decide
theorem test_wf_bar2 : Instr.wf (.bar2Read 0 1 .clean) = true ∧ Instr.wf (.bar2Read 0 0 .clean) = false := by decide
theorem test_wf_frameWords : Instr.wf (.wrReq 1 (hdr 9) 0 [1]) = true ∧ Instr.wf (.wrReq 1 (hdr 9) 0 []) = false := by decide
theorem test_wf_code : Instr.wf (.fatalFault 1 0 0) = true ∧ Instr.wf (.fatalFault 0 0 0) = false := by decide
theorem test_wf_action : Instr.wf (.seqStart 3 1) = true ∧ Instr.wf (.seqStart 3 3) = false := by decide
theorem test_wf_disable : Instr.wf (.streamDisable 2 0) = true ∧ Instr.wf (.streamDisable 2 0x80000000) = false := by decide
theorem test_wf_hits : Instr.wf (.codeDensityDone 2 (List.replicate 8 [])) = true ∧ Instr.wf (.codeDensityDone 2 []) = false := by
  decide
theorem test_wf_quality : Instr.wf (.livePassEnd 2 quiet) = false := by decide
theorem test_wf_dies : Instr.wf (.fullRunDone (List.replicate 16 ⟨0, 0, 0⟩) []) = true ∧ Instr.wf (.fullRunDone [] []) = false := by
  decide
theorem test_wf_record : Instr.wf (.eventFrame 1 (hdr 9) (List.replicate 8 0)) = true ∧
    Instr.wf (.eventFrame 1 (hdr 9) []) = false := by decide
theorem test_wf_profile : Instr.wf (.join 1 (hdr 9) [1, 2, 3, 4]) = true ∧ Instr.wf (.join 1 (hdr 9) [1]) = false := by decide
theorem test_wf_args : Instr.wf (.commandFetch 2 (hc 0 (List.replicate 6 0))) = true ∧
    Instr.wf (.commandFetch 2 (hc 0 [])) = false := by decide

/-- The command table gives no row any bits. -/
theorem test_decode_none : decodeTableWord 8 5 = none := rfl

/-! ## The manual's examples and tables -/

/-- CRC-32C of "123456789" (R74 names the polynomial; the check value is the standard's). -/
theorem test_crc32c : crc32c [0x31, 0x32, 0x33, 0x34, 0x35, 0x36, 0x37, 0x38, 0x39] = 0xE3069283 := by decide +kernel

/-- Example 3-1: the hold-up energy at 50, 28, 29 and 30 V. -/
theorem test_holdup : [50000, 28000, 29000, 30000].map (fun v =>
    (((inMode .idle).put PWR_HOLDUP_CAP.CAP 1000).put PWR_HOLDUP_V.V v).holdupE) = [105000, 19200, 22050, 25000] := by
  decide +kernel

/-- Example 7-2, D1 of vector 0 (data 1, driver low) in the five formats. -/
theorem test_format_d1 : (List.range 5).map (fun f => dataEvent f true false true 0) =
    [some true, some true, some true, some true, some false] := by decide

/-- Example 7-2, D3 of vector 1 (data 0): an event in SBC alone. -/
theorem test_format_d3 : (List.range 5).map (fun f => dataEvent f false false true 2) = [none, none, none, none, some true] := by
  decide

/-- Example 8-2: RUNOUT_MIN in serial mode at k = 0, largest comparator deskew 1,966 fines. -/
theorem test_runout_min : ((runs 2 0).put (PIN_DESKEW_CMP_H.DESKEW 128) 1966).latVectors 2 16 = 106 := by decide +kernel

/-- The pushes of Table 11-6, all in bank 1. -/
def pushes : List (Nat × Nat) :=
  [(0x010, 0x105), (0x010, 0x1A0), (0x010, 0x233), (0x010, 0x300), (0x2C4, 0x105), (0x155, 0x105), (0x300, 0x0F2), (0x3A1, 0x2A7)]

/-- The queue of Example 11-1 after them. -/
def pushed : RqDesc × List RqEntry :=
  pushes.foldl (fun x rc => pushStep 2 2 ⟨12, 12293, rc.1, rc.2, 1, 0, 0⟩ x.1 x.2) ({ dirty := true }, [])

/-- Example 11-1: descriptor words 0 and 1, and entry 0. -/
theorem test_pushes : pushed.1.words.1 = 0x00301107 ∧ pushed.1.words.2.1 = 8 ∧
    (pushed.2.head?.map RqEntry.word) = some 0x8001301010500010 := by decide +kernel

/-- Example 11-1: the search over entries 5 and 6 with one spare of each kind: row 0x300, column 0x2A7, three nodes. -/
theorem test_search : repairTry 1 1 (pushed.2.drop 5) [] [] (none, 0) = (some ([(1, 0x300)], [(1, 0x2A7)]), 3) := by
  decide +kernel

/-- Example 12-1: T of the first four bins, in 1/64 fine. -/
theorem test_bins : (binTable 1048576 0 [2048, 1536, 2560, 4096]) = [32, 88, 152, 256] := by decide

/-- Example 20-1: the addresses. -/
theorem test_addresses : PIN_EDGE.addr 403 (8 * 5 + 6) = 0x5938B8 ∧ FAIL_RING_CH.addr 5 (403 / 32) = 0x814130 ∧
    ACQ_TRIG_PAT.addr 2 1 (210 / 16) = 0xC4934 ∧ LNK_SHOW_BENCH.addr 7 (54 / 32) = 0x743C4 ∧
    SEQ_CYCLE_LO.addr 3 = 0x130010 := by decide

/-- Example 20-1 in reverse: 0x0059_38B8 is PIN_EDGE of channel 403, entry 46. -/
theorem test_decode_address : (regAt 0x5938B8).map (fun x => (x.1.base, x.2)) = some (0x400800, [403, 46]) := by decide +kernel

/-- Example 16-1: the regions of the four arrays. -/
theorem test_regions : (List.range 4).map (fun k => patrolStop k - patrolStart k) = [65536, 32768, 24576, 512] := by decide

/-! ## One step of a command -/

/-- R29: UVLO_START leads from OFF to BOOT. -/
theorem test_uvloStart : (nextOr (step starting) starting).mode = .boot := by decide +kernel

/-- R67: the wrap of the count raises the epoch. -/
theorem test_timeWrap : (nextOr (exec .timeWrap (inMode .idle)) State.reset).epoch = 1 := by decide +kernel

/-- R167: JUMP. -/
theorem test_jump : ((nextOr (exec (.jump 3) (runs 3 (uw 2 65535 0 0 0))) State.reset).act 3).pc = 65535 := by decide +kernel

/-- R169: LOOP, then ENDLOOP, with TARGET 2: the body runs twice. -/
theorem test_loop : ((nextOr (exec (.loopVec 3) (runs 3 (uw 5 2 0 0 0))) State.reset).act 3).loops = [(1, 2)] := by decide +kernel

/-- R146: a start outside IDLE and RUN is refused with code 0x01. -/
theorem test_start_refused : (nextOr (exec (.startChecks 2) ((inMode .cal).put (SEQ_STATUS.STATE 2) 1)) State.reset).fld
    (SEQ_STATUS.START_RESULT 2) = 1 := by decide +kernel

/-- R348: a write with byte enables that are not all set is discarded. -/
theorem test_partial_write : (nextOr (exec (.registerWrite .pcie 0x10000 5 7) (inMode .idle)) State.reset).reg 0x10000 =
    (inMode .idle).reg 0x10000 := by decide +kernel


/-! ## States and operands that meet the hypotheses of the obligations, clause by clause -/


theorem test_wit_IdleStepIsReferenceCycle_1 : ∃ s : State, s.pending = [] :=
  ⟨((inMode .idle).put CLK_STATUS.PCIE_LOCK 1).withTime (BitVec.ofNat 64 (2 ^ 64 - 1)), by decide +kernel⟩

theorem test_wit_PoweringUpCompletes_2 : ∃ (role : BitVec 2) (rma : Bool) (temps : List (BitVec 16)) (i : Nat) (s : State), s.mode = .off ∧ s.shed = none ∧ i < 40 ∧ tempInvalid (temps.getD i 0) = false ∧ 1280 ≤ signed 16 (temps.getD i 0).toNat :=
  ⟨0, true, 1280 :: temps 0, 0, State.reset, by decide +kernel⟩

theorem test_wit_PoweringUpCompletes_3 : ∃ s : State, s.mode = .boot ∧ s.fld SYS_MODE.BOOT_STEP = 1 :=
  ⟨inBoot 1, by decide +kernel⟩

theorem test_wit_PoweringUpCompletes_4 : ∃ (rail : Fin 8) (s : State), s.mode = .boot ∧ s.fld SYS_MODE.BOOT_STEP = 1 :=
  ⟨7, inBoot 1, by decide +kernel⟩

theorem test_wit_BootTestsComplete_1 : ∃ s : State, s.mode = .boot ∧ s.fld SYS_MODE.BOOT_STEP = 2 ∧ s.eraseDue = false ∧ s.otp.broken = false ∧ s.otp.repairs = [] ∧ (s.otp.state = 3 → s.otp.eraseDone = true) :=
  ⟨inBoot 2, by decide +kernel⟩

theorem test_wit_BootTestsComplete_2 : ∃ (failmap : BitVec 16) (s : State), s.mode = .boot ∧ s.fld SYS_MODE.BOOT_STEP = 2 ∧ s.eraseDue = false ∧ (failmap ≠ 0 ∨ s.otp.broken = true) :=
  ⟨0x8000, inBoot 2, by decide +kernel⟩

theorem test_wit_BootTestsComplete_3 : ∃ s : State, s.mode = .boot ∧ s.fld SYS_MODE.BOOT_STEP = 2 ∧ s.eraseDue = false ∧ s.otp.broken = false ∧ s.otp.repairs = [] ∧ s.otp.state = 3 ∧ s.otp.eraseDone = false :=
  ⟨(inBoot 2).withOtp { integration := 7, field := 7, return_ := 7 }, by decide +kernel⟩

theorem test_wit_BootTestsComplete_4 : ∃ (f : Sfdp) (s : State), s.mode = .boot ∧ s.fld SYS_MODE.BOOT_STEP = 2 ∧ s.eraseDue = true ∧ sfdpOk f = true ∧ s.persist.wipeEnd = 0 ∧ s.persistWants = false ∧ s.persist.ahead = none :=
  ⟨⟨true, 2, 8, true⟩, (nv (inBoot 2)).withEraseDue true, by decide +kernel⟩

theorem test_wit_BootTestsComplete_5 : ∃ (a : Nat) (s : State), s.mode = .boot ∧ s.eraseDue = true ∧ s.unit = some (.wipe a) ∧ a + sectorSize < s.persist.wipeEnd :=
  ⟨0, (((inBoot 2).withEraseDue true).withUnit (some (.wipe 0))).withPersist { wipeEnd := 65537 }, by decide +kernel⟩

theorem test_wit_BootTestsComplete_6 : ∃ (a : Nat) (s : State), s.mode = .boot ∧ s.eraseDue = true ∧ s.unit = some (.wipe a) ∧ s.persist.wipeEnd ≠ 0 ∧ s.persist.wipeEnd ≤ a + sectorSize ∧ s.mayBlow = true ∧ s.otp.fails .eraseDone = false :=
  ⟨65536, ready ((((inBoot 2).withEraseDue true).withUnit (some (.wipe 65536))).withPersist { wipeEnd := 131072 }), by decide +kernel⟩

theorem test_wit_BootTestsComplete_7 : ∃ s : State, s.mode = .boot ∧ s.fld SYS_MODE.BOOT_STEP = 2 ∧ s.eraseDue = true ∧ s.persist.wipeEnd = 0 :=
  ⟨(inBoot 2).withEraseDue true, by decide +kernel⟩

theorem test_wit_BootTestsComplete_8 : ∃ (i : Nat) (failmap : BitVec 16) (s : State), s.mode = .boot ∧ s.fld SYS_MODE.BOOT_STEP = 3 ∧ i < 8 ∧ (∀ j, j < i → s.flag (SYS_BIST.DONE j) = true) ∧ s.flag (SYS_BIST.DONE i) = false ∧ failmap.toNat &&& bistUnits i = 0 :=
  ⟨7, 0xFFF0, State.each (fun i s => s.put (SYS_BIST.DONE i) 1) (List.range 7) (inBoot 3), by decide +kernel⟩

theorem test_wit_BootTestsComplete_9 : ∃ (i : Nat) (failmap : BitVec 16) (s : State), s.mode = .boot ∧ s.fld SYS_MODE.BOOT_STEP = 3 ∧ i < 8 ∧ (∀ j, j < i → s.flag (SYS_BIST.DONE j) = true) ∧ s.flag (SYS_BIST.DONE i) = false ∧ failmap.toNat &&& bistUnits i ≠ 0 :=
  ⟨0, 0x8000, inBoot 3, by decide +kernel⟩

theorem test_wit_BootTestsComplete_10 : ∃ s : State, s.mode = .boot ∧ s.fld SYS_MODE.BOOT_STEP = 4 :=
  ⟨inBoot 4, by decide +kernel⟩

theorem test_wit_BootTestsComplete_11 : ∃ (stack : Fin 4) (detail : BitVec 16) (s : State), s.mode = .boot ∧ s.fld SYS_MODE.BOOT_STEP = 4 :=
  ⟨3, 9, inBoot 4, by decide +kernel⟩

theorem test_wit_ImageLoadingCompletes_1 : ∃ (f : Sfdp) (k : Nat) (s : State), s.mode = .boot ∧ s.fld SYS_MODE.BOOT_STEP = 5 ∧ sfdpOk f = true ∧ (s.tearUnit.put NVM_CFG.DENSITY f.density).firstSlot = some k :=
  ⟨⟨true, 1, 8, true⟩, 1, (flashed (inBoot 5) 41943040 emptyHeader), by decide +kernel⟩

theorem test_wit_ImageLoadingCompletes_2 : ∃ s : State, s.mode = .boot ∧ s.fld SYS_MODE.BOOT_STEP = 5 :=
  ⟨inBoot 5, by decide +kernel⟩

theorem test_wit_ImageLoadingCompletes_3 : ∃ (f : Sfdp) (s : State), s.mode = .boot ∧ s.fld SYS_MODE.BOOT_STEP = 5 ∧ sfdpOk f = true ∧ (s.tearUnit.put NVM_CFG.DENSITY f.density).firstSlot = none :=
  ⟨⟨true, 1, 8, true⟩, inBoot 5, by decide +kernel⟩

theorem test_wit_ImageLoadingCompletes_4 : ∃ (f : Sfdp) (s : State), s.mode = .boot ∧ s.fld SYS_MODE.BOOT_STEP = 5 ∧ sfdpOk f = false :=
  ⟨⟨true, 3, 8, true⟩, inBoot 5, by decide +kernel⟩

theorem test_wit_ImageLoadingCompletes_6 : ∃ (k : Fin 2) (s : State), s.mode = .boot ∧ s.fld SYS_MODE.BOOT_STEP = 6 ∧ s.slotTried = some k.val ∧ s.slotReason k ≠ 0 ∧ s.flag SYS_STATUS.SECOND_SLOT = false ∧ s.headerReason (1 - k) = 0 :=
  ⟨0, ((flashed (inBoot 6) 41943040 emptyHeader)).withSlotTried (some 0), by decide +kernel⟩

theorem test_wit_ImageLoadingCompletes_7 : ∃ (k : Fin 2) (s : State), s.mode = .boot ∧ s.fld SYS_MODE.BOOT_STEP = 6 ∧ s.slotTried = some k.val ∧ s.slotReason k ≠ 0 ∧ (s.flag SYS_STATUS.SECOND_SLOT = true ∨ s.headerReason (1 - k) ≠ 0) :=
  ⟨0, ((inBoot 6).put NVM_CFG.DENSITY 1).withSlotTried (some 0), by decide +kernel⟩

theorem test_wit_ImageLoadingCompletes_9 : ∃ (k ty : Nat) (rb : List Readback) (s : State), s.mode = .boot ∧ s.fld SYS_MODE.BOOT_STEP = 7 ∧ s.booted = some k ∧ ty ∈ imageTypes ∧ (∀ r ∈ (bodyRecords (s.slotBody k)).getD [], r.1 ≠ ty) :=
  ⟨0, 0x8001, [], ((flashed (inBoot 7) 0 emptyHeader)).withBooted (some 0), by decide +kernel⟩

theorem test_wit_ImageLoadingCompletes_11 : ∃ s : State, s.mode = .boot ∧ s.fld SYS_MODE.BOOT_STEP = 8 :=
  ⟨inBoot 8, by decide +kernel⟩

theorem test_wit_ModeRequestsComplete_1 : ∃ s : State, s.mode ≠ .off ∧ (s.flag SYS_STATUS.TRANSIT = false ∨ s.mode = .boot) ∧ ¬(s.mode = .boot ∧ s.fld SYS_MODE.BOOT_STEP = 1) ∧ s.flag CLK_STATUS.PCIE_LOCK = true ∧ s.flag SYS_STATUS.THERM_LATCH = false ∧ s.bootHot = none :=
  ⟨((inMode .safe).put CLK_STATUS.PCIE_LOCK 1).put SYS_STATUS.TRANSIT 0, by decide +kernel⟩

theorem test_wit_ModeRequestsComplete_2 : ∃ s : State, s.mode = .boot ∧ s.fld SYS_MODE.BOOT_STEP = 1 ∧ s.flag SYS_STATUS.THERM_LATCH = false :=
  ⟨inBoot 1, by decide +kernel⟩

theorem test_wit_ModeRequestsComplete_3 : ∃ s : State, s.mode = .idle ∧ s.flag SYS_STATUS.TRANSIT = false ∧ (∀ n, n < 16 → s.actState n ≠ 1 ∧ s.actState n ≠ 2) :=
  ⟨(inMode .idle).put SYS_STATUS.TRANSIT 0, by decide +kernel⟩

theorem test_wit_ModeRequestsComplete_4 : ∃ s : State, s.mode ≠ .off ∧ (s.flag SYS_STATUS.TRANSIT = false ∨ s.mode = .boot) ∧ s.flag SYS_STATUS.THERM_LATCH = true ∧ s.tempHot = true :=
  ⟨(((inMode .safe).put SYS_STATUS.THERM_LATCH 1).put PWR_TEMP_MAX.TEMP 1120).put SYS_STATUS.TRANSIT 0, by decide +kernel⟩

theorem test_wit_ModeRequestsComplete_5 : ∃ (n : Act) (s : State), s.mode = .idle ∧ s.flag SYS_STATUS.TRANSIT = false ∧ (s.actState n = 1 ∨ s.actState n = 2) :=
  ⟨3, ((inMode .idle).put SYS_STATUS.TRANSIT 0).put (SEQ_STATUS.STATE 3) 2, by decide +kernel⟩

theorem test_wit_ModeRequestsComplete_6 : ∃ s : State, s.mode = .cal ∧ s.flag SYS_STATUS.TRANSIT = false :=
  ⟨(inMode .cal).put SYS_STATUS.TRANSIT 0, by decide +kernel⟩

theorem test_wit_ModeRequestsComplete_7 : ∃ s : State, s.mode ≠ .off ∧ s.mode ≠ .safe ∧ (s.flag SYS_STATUS.TRANSIT = false ∨ s.mode = .boot) :=
  ⟨inBoot 5, by decide +kernel⟩

theorem test_wit_ModeRequestsComplete_8 : ∃ s : State, s.mode ≠ .off ∧ s.mode ≠ .boot ∧ s.flag SYS_STATUS.TRANSIT = true :=
  ⟨inMode .idle, by decide +kernel⟩

theorem test_wit_ModeRequestsComplete_9 : ∃ s : State, s.mode ≠ .off ∧ s.mode ≠ .idle ∧ (s.flag SYS_STATUS.TRANSIT = false ∨ s.mode = .boot) :=
  ⟨(inMode .run).put SYS_STATUS.TRANSIT 0, by decide +kernel⟩

theorem test_wit_ModeRequestsComplete_10 : ∃ s : State, s.mode ≠ .off ∧ s.mode ≠ .cal ∧ (s.flag SYS_STATUS.TRANSIT = false ∨ s.mode = .boot) :=
  ⟨(inMode .idle).put SYS_STATUS.TRANSIT 0, by decide +kernel⟩

theorem test_wit_ModeRequestsComplete_11 : ∃ s : State, s.mode = .off :=
  ⟨State.reset, by decide +kernel⟩

theorem test_wit_FatalFaultsEndInSafe_1 : ∃ (code : Fin 13) (unit : BitVec 8) (detail : BitVec 16) (s : State), code ≠ 0 ∧ s.mode ≠ .off :=
  ⟨1, 2, 3, inMode .run, by decide +kernel⟩

theorem test_wit_FatalFaultsEndInSafe_2 : ∃ (code : Fin 13) (unit : BitVec 8) (detail : BitVec 16) (s : State), s.mode = .off :=
  ⟨12, 0, 0, State.reset, by decide +kernel⟩

theorem test_wit_FatalFaultsEndInSafe_3 : ∃ (code : Fin 13) (unit : BitVec 8) (detail : BitVec 16) (s : State), code ≠ 0 ∧ code ≠ 5 ∧ s.mode = .safe :=
  ⟨12, 0xFF, 0xFFFF, inMode .safe, by decide +kernel⟩

theorem test_wit_FatalFaultsEndInSafe_4 : ∃ (rail : Fin 8) (s : State), s.mode ≠ .off :=
  ⟨7, inMode .idle, by decide +kernel⟩

theorem test_wit_FatalFaultsEndInSafe_5 : ∃ s : State, s.mode ≠ .off ∧ ¬(s.mode = .boot ∧ s.fld SYS_MODE.BOOT_STEP = 1) :=
  ⟨inBoot 2, by decide +kernel⟩

theorem test_wit_FatalFaultsEndInSafe_6 : ∃ s : State, s.mode = .boot ∧ s.fld SYS_MODE.BOOT_STEP = 1 :=
  ⟨inBoot 1, by decide +kernel⟩

theorem test_wit_FatalFaultsEndInSafe_7 : ∃ s : State, s.mode ≠ .off :=
  ⟨inMode .safe, by decide +kernel⟩

theorem test_wit_SheddingEndsInOff_1 : ∃ s : State, s.mode ≠ .off :=
  ⟨(inMode .idle).dramPut 5 [1], by decide +kernel⟩

theorem test_wit_SheddingEndsInOff_2 : ∃ s : State, s.mode ≠ .off :=
  ⟨inMode .run, by decide +kernel⟩

theorem test_wit_SheddingEndsInOff_3 : ∃ s : State, s.shed ≠ none ∧ s.unit = none :=
  ⟨State.reset.withShed (some .pfail), by decide +kernel⟩

theorem test_wit_SheddingEndsInOff_4 : ∃ s : State, s.shed ≠ none ∧ s.unit ≠ none :=
  ⟨(State.reset.withShed (some .enOff)).withUnit (some (.erase 0 1)), by decide +kernel⟩

theorem test_wit_SheddingEndsInOff_5 : ∃ s : State, s.shed ≠ none :=
  ⟨(State.reset.withShed (some .enOff)).withUnit (some (.program 0 [1])), by decide +kernel⟩

theorem test_wit_SupplyAndTemperatureComplete_1 : ∃ (v : BitVec 16) (s : State), s.mode ≠ .off :=
  ⟨0x8C9F, inMode .idle, by decide +kernel⟩

theorem test_wit_SupplyAndTemperatureComplete_2 : ∃ (v : BitVec 16) (s : State), s.mode ≠ .off :=
  ⟨0xFFFF, inMode .boot, by decide +kernel⟩

theorem test_wit_SupplyAndTemperatureComplete_3 : ∃ (v : BitVec 16) (s : State), s.mode ≠ .off :=
  ⟨75000, inMode .safe, by decide +kernel⟩

theorem test_wit_SupplyAndTemperatureComplete_4 : ∃ (p : BitVec 16) (s : State), s.mode ≠ .off :=
  ⟨60000, inMode .run, by decide +kernel⟩

theorem test_wit_SupplyAndTemperatureComplete_5 : ∃ (us : Nat) (hu : BitVec 16) (s : State), s.mode ≠ .off ∧ s.persist.capDone = false ∧ 2000 ≤ us ∧ us ≤ 100000 :=
  ⟨100000, 50000, inMode .boot, by decide +kernel⟩

theorem test_wit_SupplyAndTemperatureComplete_6 : ∃ (us : Nat) (hu : BitVec 16) (s : State), s.mode ≠ .off ∧ s.persist.capDone = false ∧ (us < 2000 ∨ 100000 < us) :=
  ⟨1999, 50000, inMode .idle, by decide +kernel⟩

theorem test_wit_SupplyAndTemperatureComplete_7 : ∃ (us : Nat) (hu : BitVec 16) (s : State), s.persist.capDone = true :=
  ⟨5, 0, (inMode .idle).withPersist { capDone := true }, by decide +kernel⟩

theorem test_wit_SupplyAndTemperatureComplete_10 : ∃ (ts : List (BitVec 16)) (i : Nat) (s : State), s.mode ≠ .off ∧ ts.length = 40 ∧ i < 40 ∧ tempInvalid (ts.getD i 0) = false ∧ tempInvalid (s.sensor i).last = false ∧ 1360 ≤ signed 16 (ts.getD i 0).toNat ∧ 1360 ≤ signed 16 (s.sensor i).last.toNat :=
  ⟨temps 1360, 0, (inMode .safe).setSensor 0 { last := 1360 }, by decide +kernel⟩

theorem test_wit_RootWritesComplete_1 : ∃ (v : Word) (s : State), s.mode ≠ .off ∧ reservedBits CLK_ROOT_CFG.addr v = 0 ∧ wfld v CLK_ROOT_CFG.ROOT_MHZ = s.fld CLK_ROOT_CFG.ROOT_MHZ ∧ 19200 ≤ wfld v CLK_ROOT_CFG.ROOT_MHZ ∧ wfld v CLK_ROOT_CFG.ROOT_MHZ ≤ 25600 :=
  ⟨BitVec.ofNat 32 25600, inMode .safe, by decide +kernel⟩

theorem test_wit_RootWritesComplete_2 : ∃ (v : Word) (s : State), s.mode = .idle ∧ reservedBits CLK_ROOT_CFG.addr v = 0 ∧ wfld v CLK_ROOT_CFG.ROOT_MHZ ≠ s.fld CLK_ROOT_CFG.ROOT_MHZ ∧ 19200 ≤ wfld v CLK_ROOT_CFG.ROOT_MHZ ∧ wfld v CLK_ROOT_CFG.ROOT_MHZ ≤ 25600 ∧ s.anyExecuting = false ∧ s.flag SYS_STATUS.TRANSIT = false :=
  ⟨BitVec.ofNat 32 19200, (inMode .idle).put SYS_STATUS.TRANSIT 0, by decide +kernel⟩

theorem test_wit_RootWritesComplete_3 : ∃ (v : Word) (s : State), s.mode ≠ .off ∧ s.mode ≠ .idle ∧ reservedBits CLK_ROOT_CFG.addr v = 0 ∧ wfld v CLK_ROOT_CFG.ROOT_MHZ ≠ s.fld CLK_ROOT_CFG.ROOT_MHZ ∧ 19200 ≤ wfld v CLK_ROOT_CFG.ROOT_MHZ ∧ wfld v CLK_ROOT_CFG.ROOT_MHZ ≤ 25600 :=
  ⟨BitVec.ofNat 32 19200, inMode .run, by decide +kernel⟩

theorem test_wit_RootWritesComplete_4 : ∃ s : State, s.flag CLK_STATUS.ROOT_BUSY = true :=
  ⟨(inMode .idle).put CLK_STATUS.ROOT_BUSY 1, by decide +kernel⟩

theorem test_wit_RootWritesComplete_5 : ∃ (d : Die) (s : State), s.flag CLK_STATUS.ROOT_BUSY = true ∧ s.mode ≠ .off :=
  ⟨15, (inMode .idle).put CLK_STATUS.ROOT_BUSY 1, by decide +kernel⟩

theorem test_wit_ReferenceSourcesComplete_1 : ∃ s : State, s.fld CLK_STATUS.SRC_ACTIVE = 2 ∧ s.flag CLK_STATUS.OCXO_OK = true :=
  ⟨((inMode .run).put CLK_STATUS.SRC_ACTIVE 2).put CLK_STATUS.OCXO_OK 1, by decide +kernel⟩

theorem test_wit_ReferenceSourcesComplete_2 : ∃ s : State, s.fld CLK_STATUS.SRC_ACTIVE = 1 ∧ s.hasManager = true ∧ s.flag SYS_STATUS.ORPHANED = false ∧ s.inService = true ∧ s.flag CLK_STATUS.OCXO_OK = true :=
  ⟨(((inMode .run).put CLK_STATUS.SRC_ACTIVE 1).put SYS_ROLE.ROLE 1).put CLK_STATUS.OCXO_OK 1, by decide +kernel⟩

theorem test_wit_ReferenceSourcesComplete_3 : ∃ s : State, (s.fld CLK_STATUS.SRC_ACTIVE = 3 ∨ s.fld CLK_STATUS.SRC_ACTIVE ≠ 0 ∧ s.flag CLK_STATUS.OCXO_OK = false) ∧ s.mode ≠ .off :=
  ⟨(inMode .cal).put CLK_STATUS.SRC_ACTIVE 3, by decide +kernel⟩

theorem test_wit_ReferenceSourcesComplete_4 : ∃ s : State, s.flag CLK_STATUS.HOLDOVER = true ∧ s.fld CLK_STATUS.SRC_ACTIVE = 3 ∧ s.fld CLK_ROOT_CFG.REF_SRC = 0 ∧ s.srcValid (if s.hasManager then 1 else 2) = true :=
  ⟨((((inMode .idle).put CLK_STATUS.HOLDOVER 1).put SYS_ROLE.ROLE 2).put CLK_STATUS.REFIN_VALID 1).put CLK_STATUS.SRC_ACTIVE 3, by decide +kernel⟩

theorem test_wit_ReferenceSourcesComplete_5 : ∃ s : State, s.mode ≠ .off :=
  ⟨inMode .idle, by decide +kernel⟩

theorem test_wit_ReferenceSourcesComplete_6 : ∃ s : State, s.mode ≠ .off :=
  ⟨inMode .run, by decide +kernel⟩

theorem test_wit_ReferenceSourcesComplete_7 : ∃ (r : RefSeen) (s : State), s.mode ≠ .off :=
  ⟨⟨true, false, true⟩, (inMode .idle).put CLK_SYNC_STATUS.STATE 4, by decide +kernel⟩

theorem test_wit_TimeCommandsComplete_1 : ∃ s : State, s.mode ≠ .off :=
  ⟨inMode .run, by decide +kernel⟩

theorem test_wit_TimeCommandsComplete_2 : ∃ s : State, s.hasManager = true ∧ s.portActive 0 = true :=
  ⟨(inMode .idle).put (LNK_STATUS.STATE 0) 2, by decide +kernel⟩

theorem test_wit_TimeCommandsComplete_3 : ∃ (p : Port) (xch : BitVec 8) (r : SyncTurn) (s : State), p ≠ 0 ∧ s.portActive p = true :=
  ⟨16, 255, ⟨9, 20⟩, (inMode .idle).put (LNK_STATUS.STATE 16) 2, by decide +kernel⟩

theorem test_wit_TimeCommandsComplete_4 : ∃ (xch : BitVec 8) (turn : BitVec 24) (t2 t4 : BitVec 64) (t1 : Nat) (s : State), s.sync.t1 = some t1 ∧ s.portActive 0 = true ∧ xch.toNat = s.sync.xch ∧ 0 ≤ since 64 t4.toNat t1 :=
  ⟨5, 100, 700, 1300, 500, ((inMode .idle).put (LNK_STATUS.STATE 0) 2).withSync { xch := 5, t1 := some 500 }, by decide +kernel⟩

theorem test_wit_NvmCommandsComplete_1 : ∃ s : State, s.mode ≠ .off ∧ s.nvm = none ∧ s.unit = none ∧ s.persistWants = false ∧ s.persist.ahead = none ∧ s.persist.wipe = none ∧ s.shed = none ∧ s.nvmRefuse 1 (s.fld NVM_ADDR.ADDR) (s.fld NVM_LEN.LEN) (s.fld NVM_SLOT.SEL) false = 0 :=
  ⟨(nv (inMode .idle)), by decide +kernel⟩

theorem test_wit_NvmCommandsComplete_2 : ∃ s : State, s.mode ≠ .off ∧ s.nvm = none ∧ s.unit = none ∧ s.persistWants = false ∧ s.persist.ahead = none ∧ s.persist.wipe = none ∧ s.shed = none ∧ s.flashMay = true ∧ s.nvmRefuse 2 (s.fld NVM_ADDR.ADDR) (s.fld NVM_LEN.LEN) (s.fld NVM_SLOT.SEL) false = 0 :=
  ⟨(nv (inMode .idle)), by decide +kernel⟩

theorem test_wit_NvmCommandsComplete_3 : ∃ s : State, s.mode ≠ .off ∧ s.nvm = none ∧ s.unit = none ∧ s.persistWants = false ∧ s.persist.ahead = none ∧ s.persist.wipe = none ∧ s.shed = none ∧ s.flashMay = true ∧ s.nvmRefuse 3 (s.fld NVM_ADDR.ADDR) (s.fld NVM_LEN.LEN) (s.fld NVM_SLOT.SEL) false = 0 :=
  ⟨(nv (inMode .safe)), by decide +kernel⟩

theorem test_wit_NvmCommandsComplete_4 : ∃ s : State, s.mode ≠ .off ∧ s.nvm = none ∧ s.unit = none ∧ s.persistWants = false ∧ s.persist.ahead = none ∧ s.persist.wipe = none ∧ s.shed = none ∧ s.flashMay = false ∧ s.nvmRefuse 3 (s.fld NVM_ADDR.ADDR) (s.fld NVM_LEN.LEN) (s.fld NVM_SLOT.SEL) false = 0 :=
  ⟨(nv (inMode .idle)).put PWR_HOLDUP_NEED.NEED 1, by decide +kernel⟩

theorem test_wit_NvmCommandsComplete_5 : ∃ s : State, s.mode ≠ .off ∧ s.nvm = none ∧ s.unit = none ∧ s.persistWants = false ∧ s.persist.ahead = none ∧ s.persist.wipe = none ∧ s.shed = none ∧ s.flashMay = true ∧ s.nvmRefuse 4 (s.fld NVM_ADDR.ADDR) (s.fld NVM_LEN.LEN) (s.fld NVM_SLOT.SEL) false = 0 :=
  ⟨((nv (inMode .idle)).put NVM_SLOT.SEL 1), by decide +kernel⟩

theorem test_wit_NvmCommandsComplete_6 : ∃ s : State, s.mode ≠ .off ∧ s.nvm = none ∧ s.unit = none ∧ s.persistWants = false ∧ s.persist.ahead = none ∧ s.persist.wipe = none ∧ s.shed = none ∧ s.nvmRefuse 5 (s.fld NVM_ADDR.ADDR) (s.fld NVM_LEN.LEN) (s.fld NVM_SLOT.SEL) false = 0 :=
  ⟨(nv (inMode .idle)), by decide +kernel⟩

theorem test_wit_NvmCommandsComplete_7 : ∃ s : State, s.mode ≠ .off ∧ s.nvm = none ∧ s.unit = none ∧ s.persistWants = false ∧ s.persist.ahead = none ∧ s.persist.wipe = none ∧ s.shed = none ∧ s.flashMay = true ∧ s.nvmRefuse 6 (s.fld NVM_ADDR.ADDR) (s.fld NVM_LEN.LEN) (s.fld NVM_SLOT.SEL) false = 0 :=
  ⟨((nv (inMode .idle))).put LC_STATE.STATE 1, by decide +kernel⟩

theorem test_wit_NvmCommandsComplete_8 : ∃ s : State, s.mode ≠ .off ∧ s.nvm = none ∧ s.nvmRefuse 3 (s.fld NVM_ADDR.ADDR) (s.fld NVM_LEN.LEN) (s.fld NVM_SLOT.SEL) false ≠ 0 :=
  ⟨(nv (inMode .idle)).put NVM_ADDR.ADDR 65535, by decide +kernel⟩

theorem test_wit_NvmCommandsComplete_9 : ∃ (j : NvmJob) (s : State), s.mode ≠ .off ∧ s.nvm = some j ∧ s.jobUnit = true :=
  ⟨{ op := 3, addr := 0, len := 65536, slot := 0, todo := [] }, ((inMode .idle).withUnit (some (.erase 0 1))).withNvm (some { op := 3, addr := 0, len := 65536, slot := 0, todo := [] }), by decide +kernel⟩

theorem test_wit_NvmCommandsComplete_10 : ∃ s : State, s.mode ≠ .off ∧ s.nvm = none :=
  ⟨inMode .idle, by decide +kernel⟩

theorem test_wit_NvmCommandsComplete_11 : ∃ (j : NvmJob) (s : State), s.mode ≠ .off ∧ s.nvm = some j :=
  ⟨{ op := 3, addr := 0, len := 65536, slot := 0, todo := [] }, (inMode .idle).withNvm (some { op := 3, addr := 0, len := 65536, slot := 0, todo := [] }), by decide +kernel⟩

theorem test_wit_FlashPortCompletes_1 : ∃ (a n : Nat) (ecc : Ecc) (s : State), s.unit = some (.erase a n) ∧ s.lc = none ∧ s.eraseDue = false :=
  ⟨65536, 1, .clean, (flashed (nv (inMode .idle)) 65530 (List.replicate 12 7)).withUnit (some (.erase 65536 1)), by decide +kernel⟩

theorem test_wit_FlashPortCompletes_2 : ∃ (a : Nat) (bs : List Byte) (ecc : Ecc) (s : State), s.unit = some (.program a bs) ∧ s.lc = none ∧ s.eraseDue = false ∧ ecc ≠ .ue :=
  ⟨512, [1, 2, 3], .clean, ((nv (inMode .idle))).withUnit (some (.program 512 [1, 2, 3])), by decide +kernel⟩

theorem test_wit_FlashPortCompletes_3 : ∃ (a : Nat) (bs : List Byte) (s : State), s.unit = some (.program a bs) ∧ s.lc = none ∧ s.eraseDue = false :=
  ⟨512, [1, 2, 3], ((nv (inMode .idle))).withUnit (some (.program 512 [1, 2, 3])), by decide +kernel⟩

theorem test_wit_FlashPortCompletes_4 : ∃ (a n : Nat) (e : FlashEnd) (s : State), s.unit = some (.read a n) ∧ s.lc = none ∧ s.eraseDue = false :=
  ⟨0, 256, ⟨true, .ue⟩, ((nv (inMode .idle))).withUnit (some (.read 0 256)), by decide +kernel⟩

theorem test_wit_FlashPortCompletes_5 : ∃ (a n : Nat) (ecc : Ecc) (s : State), s.unit = some (.erase a n) ∧ s.lc = none ∧ s.eraseDue = false :=
  ⟨0, 1, .clean, ((nv (inMode .idle))).withUnit (some (.erase 0 1)), by decide +kernel⟩

theorem test_wit_FlashPortCompletes_6 : ∃ (e : FlashEnd) (s : State), s.unit = none :=
  ⟨⟨true, .ue⟩, (inMode .idle), by decide +kernel⟩

theorem test_wit_FlashPortCompletes_7 : ∃ (hu : BitVec 16) (s : State), s.mode ≠ .off ∧ s.lc = none ∧ s.eraseDue = false :=
  ⟨50000, inMode .idle, by decide +kernel⟩

theorem test_wit_FlashPortCompletes_8 : ∃ s : State, s.mode ≠ .off ∧ s.persist.waiting ≠ [] ∧ s.unit = none ∧ s.flag NVM_CFG.PERSIST_EN = true ∧ s.fld NVM_CFG.DENSITY ≠ 0 ∧ s.energyOk = true ∧ s.temp170 = false ∧ s.shed = none :=
  ⟨(((nv (inMode .idle))).put NVM_CFG.PERSIST_EN 1).withPersist { waiting := [[1, 2, 3, 4, 5, 6, 7, 8]] }, by decide +kernel⟩

theorem test_wit_PpmuCommandsComplete_1 : ∃ (c : Chan) (v : Word) (s : State), (s.mode = .idle ∨ s.mode = .run) ∧ reservedBits (PIN_PPMU_CFG.addr c) v = 0 ∧ wbit v 31 = true ∧ (s.store (PIN_PPMU_CFG.addr c) v).fld (PIN_PPMU_CFG.MEAS_SEL c) < 9 ∧ (s.store (PIN_PPMU_CFG.addr c) v).ppmuRefused c = false :=
  ⟨1023, 0x80000000, inMode .idle, by decide +kernel⟩

theorem test_wit_PpmuCommandsComplete_2 : ∃ (c : Chan) (v : Word) (s : State), (s.mode = .idle ∨ s.mode = .run) ∧ reservedBits (PIN_PPMU_CFG.addr c) v = 0 ∧ wbit v 31 = true ∧ (s.store (PIN_PPMU_CFG.addr c) v).fld (PIN_PPMU_CFG.MEAS_SEL c) < 9 ∧ (s.store (PIN_PPMU_CFG.addr c) v).ppmuRefused c = true :=
  ⟨0, 0x80000000, (inMode .run).put (PIN_CFG.UNUSED 0) 1, by decide +kernel⟩

theorem test_wit_PpmuCommandsComplete_3 : ∃ (c : Chan) (vs ws : List Int) (ok : Bool) (since_ : Nat) (s : State), (s.mode = .idle ∨ s.mode = .run) ∧ s.asked (c / 64) (c % 64) = some since_ ∧ vs.length = 2 ^ s.fld (PIN_PPMU_CFG.AVG_LOG2 c) ∧ ws = (if s.fld (PIN_PPMU_CFG.MEAS_SEL c) = 0 then if s.flag (PIN_PPMU_CFG.MODE c) then vs.map (s.satVoltage c) else vs.map satCurrent else vs) :=
  ⟨7, [5], [5], true, 0, (inMode .idle).setDie 0 { asks := [(0, 7)] }, by decide +kernel⟩

theorem test_wit_PpmuCommandsComplete_4 : ∃ (c : Chan) (dac : BitVec 6) (uv : Int) (sel set : Nat) (d : ChanDac) (s : State), (s.mode = .idle ∨ s.mode = .run) ∧ dacSel dac.toNat = some (sel, set) ∧ ChanDac.ofSel sel set = some d ∧ s.dacOk c d uv = false ∧ s.convFree (c / 64) = true ∧ (4 ≤ sel ∨ s.chanExecuting c = false ∨ s.flag (PIN_CFG.LVL_STATIC c) = true) :=
  ⟨7, 36, 8000000, 8, 0, .monHi, inMode .run, by decide +kernel⟩

theorem test_wit_PpmuCommandsComplete_5 : ∃ (c : Chan) (dac : BitVec 6) (uv : Int) (sel set : Nat) (d : ChanDac) (s : State), dacSel dac.toNat = some (sel, set) ∧ ChanDac.ofSel sel set = some d ∧ s.dacOk c d uv = true :=
  ⟨7, 36, 6991211, 8, 0, .monHi, inMode .run, by decide +kernel⟩

theorem test_wit_ConversionsComplete_1 : ∃ (m : Fin 32) (v : Word) (s : State), (s.mode = .idle ∨ s.mode = .run) ∧ reservedBits (MON_SENSE_MEAS.addr m) v = 0 ∧ wbit v 31 = true :=
  ⟨31, 0x80000000, inMode .idle, by decide +kernel⟩

theorem test_wit_ConversionsComplete_2 : ∃ (m : Fin 32) (v : Word) (s : State), s.mode = .cal ∧ reservedBits (MON_SENSE_MEAS.addr m) v = 0 ∧ wbit v 31 = true :=
  ⟨31, 0x80000000, inMode .cal, by decide +kernel⟩

theorem test_wit_ConversionsComplete_3 : ∃ (m : Fin 32) (v : Word) (s : State), (s.mode = .idle ∨ s.mode = .run) ∧ reservedBits (MON_SREF_STATUS.addr m) v = 0 ∧ wbit v 31 = true :=
  ⟨31, 0x80000000, inMode .run, by decide +kernel⟩

theorem test_wit_ConversionsComplete_4 : ∃ (m : Fin 32) (v : Word) (s : State), s.mode = .cal ∧ reservedBits (MON_SREF_STATUS.addr m) v = 0 ∧ wbit v 31 = true :=
  ⟨31, 0x80000000, inMode .cal, by decide +kernel⟩

theorem test_wit_ConversionsComplete_5 : ∃ (m : Fin 32) (v : BitVec 24) (hi : Bool) (since_ : Nat) (s : State), (s.mode = .idle ∨ s.mode = .run) ∧ s.asked (m / 2) (64 + m % 2) = some since_ :=
  ⟨31, 5, true, 0, ((inMode .idle).put (MON_SENSE_MEAS.SEL 31) 1).setDie 15 { asks := [(0, 65)] }, by decide +kernel⟩

theorem test_wit_ConversionsComplete_6 : ∃ (m : Fin 32) (v : BitVec 24) (hi : Bool) (since_ : Nat) (s : State), (s.mode = .idle ∨ s.mode = .run) ∧ s.asked (m / 2) (66 + m % 2) = some since_ :=
  ⟨31, 5, true, 0, (inMode .idle).setDie 15 { asks := [(0, 67)] }, by decide +kernel⟩

theorem test_wit_ConversionsComplete_7 : ∃ (m : Fin 32) (v : BitVec 24) (hi : Bool) (s : State), (s.mode = .idle ∨ s.mode = .run) ∧ s.asked (m / 2) (66 + m % 2) = none ∧ s.convFree (m / 2) = true ∧ s.srefOk m (signed 24 v.toNat) = false :=
  ⟨31, 0x7FFFFF, true, inMode .idle, by decide +kernel⟩

theorem test_wit_SequencerControlCompletes_1 : ∃ (n : Act) (v : Word) (s : State), s.inService = true ∧ reservedBits (SEQ_CTRL.addr n) v = 0 ∧ s.actState n = 0 ∧ wbit v 0 = true ∧ wbit v 1 = false ∧ wbit v 2 = false :=
  ⟨15, 1, (inMode .idle), by decide +kernel⟩

theorem test_wit_SequencerControlCompletes_2 : ∃ (n : Act) (v : Word) (s : State), s.inService = true ∧ reservedBits (SEQ_CTRL.addr n) v = 0 ∧ s.actState n = 0 ∧ wbit v 3 = true ∧ wbit v 0 = false ∧ wbit v 1 = false ∧ wbit v 2 = false :=
  ⟨0, 8, (inMode .run), by decide +kernel⟩

theorem test_wit_SequencerControlCompletes_3 : ∃ (n : Act) (v : Word) (s : State), s.inService = true ∧ reservedBits (SEQ_CTRL.addr n) v = 0 ∧ s.actState n = 3 ∧ (s.act n).stop = none ∧ (s.act n).aborted = false ∧ wbit v 1 = true ∧ wbit v 2 = false :=
  ⟨3, 2, actOn 3, by decide +kernel⟩

theorem test_wit_SequencerControlCompletes_4 : ∃ (n : Act) (v : Word) (s : State), s.inService = true ∧ reservedBits (SEQ_CTRL.addr n) v = 0 ∧ s.actState n = 3 ∧ (s.act n).aborted = false ∧ (s.act n).endL = none ∧ wbit v 2 = true :=
  ⟨3, 4, actOn 3, by decide +kernel⟩

theorem test_wit_SequencerControlCompletes_5 : ∃ (n : Act) (v : Word) (s : State), s.inService = true ∧ reservedBits (SEQ_CTRL.addr n) v = 0 ∧ s.actState n = 0 ∧ wbit v 2 = true :=
  ⟨15, 0xF, inMode .idle, by decide +kernel⟩

theorem test_wit_StartingCompletes_1 : ∃ (n : Act) (s : State), s.actState n = 1 ∧ (s.act n).checked = false ∧ (s.timed n = true ∨ s.fld (TMG_MODE.K n) ≤ 10 ∧ ∀ c ∈ s.actChans n, s.trkReserved c = false) ∧ s.startCheck n = 0 :=
  ⟨2, ((((inMode .idle).put (SEQ_CB_MASK.MASK 2) 4).put (SEQ_STATUS.STATE 2) 1).put (SEQ_CTRL.READY_A 2) 1).put CLK_STATUS.ROOT_BUSY 0, by decide +kernel⟩

theorem test_wit_StartingCompletes_2 : ∃ (n : Act) (s : State), s.actState n = 1 ∧ (s.act n).checked = false ∧ s.startCheck n ≠ 0 ∧ (s.act n).queued = none :=
  ⟨2, (inMode .cal).put (SEQ_STATUS.STATE 2) 1, by decide +kernel⟩

theorem test_wit_StartingCompletes_3 : ∃ (n : Act) (s : State), s.pfFull n = false :=
  ⟨3, withAct 3 { prefetch := [⟨5, 0, 4, 0, 3, none⟩] } (actOn 3), by decide +kernel⟩

theorem test_wit_StartingCompletes_4 : ∃ (n : Act) (s : State), s.actState n = 1 ∧ (s.act n).checked = true ∧ s.pfFull n = true ∧ s.parkHeld n = false ∧ (s.act n).held = none ∧ (s.act n).armedBy = some { arm := true } :=
  ⟨2, ((inMode .idle).put (SEQ_STATUS.STATE 2) 1).setAct 2 { checked := true, armedBy := some { arm := true } }, by decide +kernel⟩

theorem test_wit_StartingCompletes_5 : ∃ (n : Act) (s : State), s.actState n = 1 ∧ (s.act n).checked = true ∧ s.pfFull n = true ∧ s.parkHeld n = false ∧ (s.act n).held = none ∧ (s.act n).armedBy = some {} :=
  ⟨2, ((inMode .idle).put (SEQ_STATUS.STATE 2) 1).setAct 2 { checked := true, armedBy := some {} }, by decide +kernel⟩

theorem test_wit_StartingCompletes_6 : ∃ (n : Act) (t0 : Nat) (s : State), s.actState n = 2 ∧ (s.act n).timedStart = some t0 ∧ s.time.toNat ≤ t0 ∧ t0 < s.time.toNat + 2 ^ 63 ∧ t0 < 2 ^ 64 :=
  ⟨2, 0, ((inMode .idle).put (SEQ_STATUS.STATE 2) 2).setAct 2 { armedBy := some { timed := true, t := 0 } }, by decide +kernel⟩

theorem test_wit_StartingCompletes_7 : ∃ (n : Act) (t0 : Nat) (s : State), s.actState n = 1 ∧ (s.act n).timedStart = some t0 ∧ (s.act n).queued = none :=
  ⟨2, 50, ((inMode .idle).put (SEQ_STATUS.STATE 2) 1).setAct 2 { armedBy := some { timed := true, t := 50 } }, by decide +kernel⟩

theorem test_wit_SingleVectorFlowsComplete_1 : ∃ (n : Act) (s : State), MayRun 0x00 n s :=
  ⟨15, runs 15 0, by unfold MayRun; decide +kernel⟩

theorem test_wit_SingleVectorFlowsComplete_2 : ∃ (n : Act) (s : State), MayRun 0x02 n s :=
  ⟨3, runs 3 (uw 2 65535 0 0 0), by unfold MayRun; decide +kernel⟩

theorem test_wit_SingleVectorFlowsComplete_3 : ∃ (n : Act) (s : State), MayRun 0x03 n s ∧ (s.act n).calls.length < 16 :=
  ⟨3, withAct 3 { calls := List.replicate 15 (0, 0) } (runs 3 (uw 3 5 0 0 0)), by unfold MayRun; decide +kernel⟩

theorem test_wit_SingleVectorFlowsComplete_4 : ∃ (n : Act) (s : State), MayRun 0x03 n s ∧ 16 ≤ (s.act n).calls.length ∧ s.actState n = 3 ∧ (s.act n).stop = none :=
  ⟨3, withAct 3 { calls := List.replicate 16 (0, 0) } (runs 3 (uw 3 5 0 0 0)), by unfold MayRun; decide +kernel⟩

theorem test_wit_SingleVectorFlowsComplete_5 : ∃ (n : Act) (r d : Nat) (cs : List (Nat × Nat)) (s : State), MayRun 0x04 n s ∧ (s.act n).calls = (r, d) :: cs ∧ (s.act n).loops.length = d :=
  ⟨3, 77, 0, [], withAct 3 { calls := [(77, 0)] } (runs 3 (uw 4 0 0 0 0)), by unfold MayRun; decide +kernel⟩

theorem test_wit_SingleVectorFlowsComplete_6 : ∃ (n : Act) (s : State), MayRun 0x05 n s ∧ (s.act n).loops.length < 8 :=
  ⟨3, withAct 3 { loops := List.replicate 7 (1, 1) } (runs 3 (uw 5 9 0 0 0)), by unfold MayRun; decide +kernel⟩

theorem test_wit_SingleVectorFlowsComplete_7 : ∃ (n : Act) (st c : Nat) (ls : List (Nat × Nat)) (s : State), MayRun 0x06 n s ∧ (s.act n).loops = (st, c) :: ls ∧ 1 < c :=
  ⟨3, 40, 2, [], withAct 3 { loops := [(40, 2)] } (runs 3 (uw 6 0 0 0 0)), by unfold MayRun; decide +kernel⟩

theorem test_wit_SingleVectorFlowsComplete_8 : ∃ (n : Act) (st c : Nat) (ls : List (Nat × Nat)) (s : State), MayRun 0x06 n s ∧ (s.act n).loops = (st, c) :: ls ∧ c ≤ 1 :=
  ⟨3, 40, 1, [], withAct 3 { loops := [(40, 1)] } (runs 3 (uw 6 0 0 0 0)), by unfold MayRun; decide +kernel⟩

theorem test_wit_SingleVectorFlowsComplete_9 : ∃ (n : Act) (s : State), MayRun 0x07 n s :=
  ⟨3, runs 3 (uw 7 6 0x80 0 0), by unfold MayRun; decide +kernel⟩

theorem test_wit_SingleVectorFlowsComplete_10 : ∃ (n : Act) (s : State), MayRun 0x0C n s ∧ (0 < (s.act n).swapFollowed ∨ s.swapReady n (s.execHalf n) = true) :=
  ⟨3, (runs 3 (uw 0x0C 6 0 0 0)).put (SEQ_CTRL.READY_B 3) 1, by unfold MayRun; decide +kernel⟩

theorem test_wit_SingleVectorFlowsComplete_11 : ∃ (n : Act) (s : State), MayRun 0x0D n s ∧ bitOf (uTarget (s.microWord n)) 23 = false :=
  ⟨3, runs 3 (uw 0x0D 0x40FFFF 0 0 0), by unfold MayRun; decide +kernel⟩

theorem test_wit_SingleVectorFlowsComplete_12 : ∃ (n : Act) (s : State), MayRun 0x0D n s ∧ bitOf (uTarget (s.microWord n)) 23 = true ∧ (s.act n).lastMark = none :=
  ⟨3, runs 3 (uw 0x0D 0x800001 0 0 0), by unfold MayRun; decide +kernel⟩

theorem test_wit_SingleVectorFlowsComplete_13 : ∃ (n : Act) (l : Nat) (s : State), MayRun 0x0D n s ∧ bitOf (uTarget (s.microWord n)) 23 = true ∧ (s.act n).lastMark = some l ∧ elapsed 64 (s.nextT0 n + s.fwdDepth) l < usFines :=
  ⟨3, 0, withAct 3 { lastMark := some 0 } (runs 3 (uw 0x0D 0x800001 0 0 0)), by unfold MayRun; decide +kernel⟩

theorem test_wit_SingleVectorFlowsComplete_14 : ∃ (n : Act) (s : State), MayRun 0x04 n s ∧ (s.act n).calls = [] ∧ s.actState n = 3 ∧ (s.act n).stop = none :=
  ⟨3, runs 3 (uw 4 0 0 0 0), by unfold MayRun; decide +kernel⟩

theorem test_wit_SingleVectorFlowsComplete_15 : ∃ (n : Act) (r d : Nat) (cs : List (Nat × Nat)) (s : State), MayRun 0x04 n s ∧ (s.act n).calls = (r, d) :: cs ∧ (s.act n).loops.length ≠ d ∧ s.actState n = 3 ∧ (s.act n).stop = none :=
  ⟨3, 77, 1, [], withAct 3 { calls := [(77, 1)] } (runs 3 (uw 4 0 0 0 0)), by unfold MayRun; decide +kernel⟩

theorem test_wit_SingleVectorFlowsComplete_16 : ∃ (n : Act) (s : State), MayRun 0x05 n s ∧ 8 ≤ (s.act n).loops.length ∧ s.actState n = 3 ∧ (s.act n).stop = none :=
  ⟨3, withAct 3 { loops := List.replicate 8 (1, 1) } (runs 3 (uw 5 9 0 0 0)), by unfold MayRun; decide +kernel⟩

theorem test_wit_SingleVectorFlowsComplete_17 : ∃ (n : Act) (s : State), MayRun 0x06 n s ∧ (s.act n).loops = [] ∧ s.actState n = 3 ∧ (s.act n).stop = none :=
  ⟨3, runs 3 (uw 6 0 0 0 0), by unfold MayRun; decide +kernel⟩

theorem test_wit_RepeatAndHaltComplete_1 : ∃ (n : Act) (s : State), MayRun 0x01 n s ∧ (s.act n).prog = .none ∧ uTarget (s.microWord n) = 1 :=
  ⟨3, runs 3 (uw 1 1 0x80 0 0), by unfold MayRun; decide +kernel⟩

theorem test_wit_RepeatAndHaltComplete_2 : ∃ (n : Act) (s : State), MayRun 0x01 n s ∧ (s.act n).prog = .none ∧ 1 < uTarget (s.microWord n) ∧ uCsel (s.microWord n) = 0 :=
  ⟨3, runs 3 (uw 1 2 0 0 0), by unfold MayRun; decide +kernel⟩

theorem test_wit_RepeatAndHaltComplete_3 : ∃ (n : Act) (left : Nat) (s : State), MayRun 0x01 n s ∧ (s.act n).prog = .repeat_ left :=
  ⟨3, 1, withAct 3 { prog := .repeat_ 1 } (runs 3 (uw 1 1 0x80 0 0)), by unfold MayRun; decide +kernel⟩

theorem test_wit_RepeatAndHaltComplete_4 : ∃ (n : Act) (k left : Nat) (s : State), MayRun 0x01 n s ∧ s.actState n = 3 ∧ (s.act n).prog = .repeat_ left ∧ k < left ∧ uCsel (s.microWord n) = 0 :=
  ⟨3, 2, 5, withAct 3 { prog := .repeat_ 5 } (runs 3 (uw 1 9 0 0 0)), by unfold MayRun; decide +kernel⟩

theorem test_wit_RepeatAndHaltComplete_5 : ∃ (n : Act) (s : State), MayRun 0x0E n s ∧ s.actState n = 3 ∧ (s.act n).stop = none :=
  ⟨3, runs 3 (uw 0x0E 0 0 0 0), by unfold MayRun; decide +kernel⟩

theorem test_wit_WaitingFlowsComplete_1 : ∃ (n : Act) (s : State), MayRun 0x08 n s ∧ (s.act n).prog = .none ∧ uRmop (s.microWord n) = 0 ∧ (s.act n).working &&& ~~~(s.act n).bench ≠ 0 :=
  ⟨3, withAct 3 { working := 3, bench := 1 } (runs 3 (uw 8 5 1 0 0)), by unfold MayRun; decide +kernel⟩

theorem test_wit_WaitingFlowsComplete_2 : ∃ (n : Act) (first trials : Nat) (taking matched : BitVec 64) (s : State), s.canIssue n = true ∧ uFlow (s.microWord n) = 0x08 ∧ (s.act n).prog = .match_ first trials taking matched none ∧ uTarget (s.microWord n) ≤ trials ∧ uCsel (s.microWord n) = 0 :=
  ⟨3, 0, 5, 2, 0, withAct 3 { working := 3, bench := 1, prog := .match_ 0 5 2 0 none } (runs 3 (uw 8 5 0 0 0)), by decide +kernel⟩

theorem test_wit_WaitingFlowsComplete_3 : ∃ (n : Act) (s : State), MayRun 0x09 n s ∧ (s.act n).prog = .none ∧ s.nextIssue n < s.waitTw n (s.microWord n) :=
  ⟨3, runs 3 (uw 9 1 0 0 0), by unfold MayRun; decide +kernel⟩

theorem test_wit_WaitingFlowsComplete_4 : ∃ (n : Act) (s : State), MayRun 0x09 n s ∧ (s.act n).prog = .none ∧ s.waitTw n (s.microWord n) ≤ s.nextIssue n :=
  ⟨3, runs 3 (uw 9 0 0 0 0), by unfold MayRun; decide +kernel⟩

theorem test_wit_WaitingFlowsComplete_5 : ∃ (n : Act) (tw : Nat) (s : State), (s.act n).prog = .waitTime tw ∧ s.canIssue n = true ∧ tw ≤ s.nextIssue n :=
  ⟨3, 0, withAct 3 { prog := .waitTime 0 } (runs 3 (uw 9 0 0 0 0)), by decide +kernel⟩

theorem test_wit_WaitingFlowsComplete_6 : ∃ (n : Act) (s : State), MayRun 0x0A n s ∧ (s.act n).prog = .none ∧ (s.act n).cue = none :=
  ⟨3, runs 3 (uw 0x0A 0 0 0 0), by unfold MayRun; decide +kernel⟩

theorem test_wit_WaitingFlowsComplete_7 : ∃ (n : Act) (first : Nat) (s : State), (s.act n).prog = .waitCue first none ∧ s.canIssue n = true ∧ waitU (s.microWord n) ≠ 0 ∧ first + waitU (s.microWord n) ≤ s.nextIssue n :=
  ⟨3, 0, withAct 3 { iss := 2 ^ 40, prog := .waitCue 0 none } (runs 3 (uw 0x0A 256 0 0 0)), by decide +kernel⟩

theorem test_wit_BlockPlayCompletes_1 : ∃ (n : Act) (p : PfBlock) (ps : List PfBlock) (s : State), MayRun 0x0B n s ∧ (s.act n).prog = .none ∧ (s.act n).prefetch = p :: ps ∧ p.mark = 0 ∧ (0 < p.have_ ∨ s.delivered n = true) ∧ p.bad ≠ some 0 ∧ 1 < p.nvec :=
  ⟨3, ⟨5, 0, 2, 0, 1, none⟩, [], withAct 3 { prefetch := [⟨5, 0, 2, 0, 1, none⟩] } (runs 3 (uw 0x0B 5 0 0 1)), by unfold MayRun; decide +kernel⟩

theorem test_wit_BlockPlayCompletes_2 : ∃ (n : Act) (p : PfBlock) (ps : List PfBlock) (s : State), MayRun 0x0B n s ∧ (s.act n).prog = .none ∧ (s.act n).prefetch = p :: ps ∧ p.mark = 0 ∧ (0 < p.have_ ∨ s.delivered n = true) ∧ p.bad ≠ some 0 ∧ p.nvec = 1 :=
  ⟨3, ⟨5, 0, 1, 0, 1, none⟩, [], withAct 3 { prefetch := [⟨5, 0, 1, 0, 1, none⟩] } (runs 3 (uw 0x0B 5 0 0 1)), by unfold MayRun; decide +kernel⟩

theorem test_wit_BlockPlayCompletes_3 : ∃ (n : Act) (s : State), MayRun 0x0B n s ∧ (s.act n).prefetch = [] ∧ s.actState n = 3 ∧ (s.act n).stop = none :=
  ⟨3, runs 3 (uw 0x0B 5 0 0 1), by unfold MayRun; decide +kernel⟩

theorem test_wit_BlockPlayCompletes_4 : ∃ (n : Act) (k : Nat) (p : PfBlock) (s : State), s.executing n = true ∧ (s.act n).prefetch = [p] ∧ p.mark = 0 ∧ p.have_ + k < p.nvec ∧ (s.act n).pfLead + k ≤ 4096 :=
  ⟨3, 0, ⟨5, 0, 1, 0, 0, none⟩, withAct 3 { prefetch := [⟨5, 0, 1, 0, 0, none⟩] } (runs 3 (uw 0x0B 5 0 0 1)), by decide +kernel⟩

theorem test_wit_EndOfRunCompletes_1 : ∃ (n : Act) (s : State), s.actState n = 4 ∧ s.lIssued n = true ∧ (s.act n).endL = none :=
  ⟨3, withAct 3 { stop := some (0, 2) } ((actOn 3).put (SEQ_STATUS.STATE 3) 4), by decide +kernel⟩

theorem test_wit_EndOfRunCompletes_2 : ∃ (n : Act) (e : BitVec 64) (s : State), e ≠ BitVec.ofNat 64 (s.endNow n) :=
  ⟨3, 9, actOn 3, by decide +kernel⟩

theorem test_wit_EndOfRunCompletes_3 : ∃ (n : Act) (e c reason : Nat) (s : State), s.actState n = 4 ∧ s.lIssued n = true ∧ (s.act n).endL = some e ∧ (s.act n).stop = some (c, reason) ∧ (s.act n).line = [] ∧ (s.act n).queued = none :=
  ⟨3, 9, 0, 2, withAct 3 { stop := some (0, 2), endL := some 9 } ((actOn 3).put (SEQ_STATUS.STATE 3) 4), by decide +kernel⟩

theorem test_wit_EndOfRunCompletes_4 : ∃ (n : Act) (e c reason : Nat) (s : State), s.actState n = 4 ∧ s.lIssued n = true ∧ (s.act n).endL = some e ∧ (s.act n).stop = some (c, reason) ∧ (s.act n).line = [] ∧ (s.act n).queued = none ∧ s.mode = .run ∧ (∀ m, m < 16 → m ≠ n.val → s.running m = false) :=
  ⟨3, 9, 0, 2, (withAct 3 { stop := some (0, 2), endL := some 9 } ((actOn 3).put (SEQ_STATUS.STATE 3) 4)).put (PIN_QUALITY_STAT.ELIGIBLE 192) 1, by decide +kernel⟩

theorem test_wit_EndOfRunCompletes_5 : ∃ (n : Act) (s : State), (s.act n).endL = none :=
  ⟨3, actOn 3, by decide +kernel⟩

theorem test_wit_ForwardFramesComplete_1 : ∃ (d : Die) (n : Nat) (v : Vec) (vs : List Vec) (s : State), s.inService = true ∧ (s.die d).fwd = v :: vs ∧ s.actOfBlock d = some n ∧ captApply v.capt = false ∧ s.parkLine n = false ∧ (∀ c ∈ blockChans d, SymCode.reserved ∉ s.codes n c (s.sliceOf n d v) v) :=
  ⟨3, 3, vec0, [], (actOn 3).setDie 3 { fwd := [vec0] }, by decide +kernel⟩

theorem test_wit_ForwardFramesComplete_2 : ∃ (d : Die) (n : Nat) (v : Vec) (vs : List Vec) (s : State), s.inService = true ∧ (s.die d).fwd = v :: vs ∧ s.actOfBlock d = some n ∧ captApply v.capt = true ∧ (∀ c ∈ blockChans d, SymCode.reserved ∉ s.codes n c (s.sliceOf n d v) v) :=
  ⟨3, 3, { vec0 with capt := 1 }, [], (actOn 3).setDie 3 { fwd := [{ vec0 with capt := 1 }] }, by decide +kernel⟩

theorem test_wit_ForwardFramesComplete_3 : ∃ (d : Die) (n : Nat) (v : Vec) (vs : List Vec) (s : State), s.inService = true ∧ (s.die d).fwd = v :: vs ∧ s.actOfBlock d = some n ∧ captApply v.capt = false ∧ s.parkLine n = true :=
  ⟨3, 3, vec0, [], ((actOn 3).put (SEQ_STATUS.STATE 3) 1).setDie 3 { fwd := [vec0] }, by decide +kernel⟩

theorem test_wit_ForwardFramesComplete_4 : ∃ (d : Die) (n : Nat) (v : Vec) (vs : List Vec) (s : State), s.inService = true ∧ (s.die d).fwd = v :: vs ∧ s.actOfBlock d = some n ∧ s.actState n = 3 ∧ (s.act n).aborted = false :=
  ⟨3, 3, vec0, [], (actOn 3).setDie 3 { fwd := [vec0] }, by decide +kernel⟩

theorem test_wit_ForwardFramesComplete_5 : ∃ (d : Die) (n : Nat) (s : State), s.inService = true ∧ s.actOfBlock d = some n ∧ s.actState n = 3 ∧ (s.act n).aborted = false :=
  ⟨3, 3, actOn 3, by decide +kernel⟩

theorem test_wit_PinEdgesComplete_1 : ∃ (c : Chan) (cyc : BitVec 64) (u : Fin 8) (raw : Bool) (p : PinVec) (n y : Nat) (s : State), (s.die (c / 64)).pins.find? (fun q => decide (q.vec.cycle = cyc.toNat)) = some p ∧ s.actOfChan c = some n ∧ p.sym c u = some y ∧ s.timed n = false ∧ s.cutAt n (s.drvTime c (p.bank c) p.vec (s.uiTime n u 0)) = false :=
  ⟨192, 0, 7, 2, atPins 1, 3, 1, (actOn 3).setDie 3 { pins := [atPins 1] }, by decide +kernel⟩

theorem test_wit_PinEdgesComplete_2 : ∃ (c : Chan) (cyc : BitVec 64) (u : Fin 8) (raw : Bool) (p : PinVec) (n y : Nat) (s : State), (s.die (c / 64)).pins.find? (fun q => decide (q.vec.cycle = cyc.toNat)) = some p ∧ s.actOfChan c = some n ∧ p.sym c u = some y ∧ s.cutAt n (s.drvTime c (p.bank c) p.vec (s.uiTime n u 0)) = true :=
  ⟨192, 0, 7, true, atPins 1, 3, 1, ((actOn 3).setDie 3 { pins := [atPins 1] }).put (SEQ_STATUS.STATE 3) 0, by decide +kernel⟩

theorem test_wit_PinEdgesComplete_3 : ∃ (c : Chan) (cyc : BitVec 64) (raw : Bool) (p : PinVec) (n y : Nat) (b : Bool) (s : State), (s.die (c / 64)).pins.find? (fun q => decide (q.vec.cycle = cyc.toNat)) = some p ∧ s.actOfChan c = some n ∧ p.sym c 0 = some y ∧ s.timed n = true ∧ s.fmt c p.vec.tset = 0 ∧ symData y = some b ∧ (s.edge c p.vec.tset 0).isSome = true ∧ s.cutAt n (s.drvTime c (p.bank c) p.vec (s.edgeOf c p.vec.tset 0)) = false :=
  ⟨192, 0, 2, atPins 1, 3, 1, true, (((actOn 3).setDie 3 { pins := [atPins 1] }).put (TMG_MODE.MODE 3) 1).put (PIN_EDGE.EN 192 0) 1, by decide +kernel⟩

theorem test_wit_PinEdgesComplete_4 : ∃ (c : Chan) (cyc : BitVec 64) (e : Fin 9) (raw : Bool) (p : PinVec) (n y : Nat) (s : State), (s.die (c / 64)).pins.find? (fun q => decide (q.vec.cycle = cyc.toNat)) = some p ∧ s.actOfChan c = some n ∧ p.sym c 0 = some y ∧ (symDrives y = true → s.fmt c p.vec.tset < 5) ∧ s.cutAt n (s.drvTime c (p.bank c) p.vec (s.edgeOf c p.vec.tset e)) = true :=
  ⟨192, 0, 8, true, atPins 1, 3, 1, ((actOn 3).setDie 3 { pins := [atPins 1] }).put (SEQ_STATUS.STATE 3) 0, by decide +kernel⟩

theorem test_wit_PinEdgesComplete_5 : ∃ (c : Chan) (cyc : BitVec 64) (u : Fin 8) (low raw : Bool) (p : PinVec) (n y tm : Nat) (s : State), (s.die (c / 64)).pins.find? (fun q => decide (q.vec.cycle = cyc.toNat)) = some p ∧ s.actOfChan c = some n ∧ p.sym c u = some y ∧ s.timed n = false ∧ s.samplePoint n c p low u = some tm ∧ s.cutAt n tm = false ∧ y < 9 :=
  ⟨192, 0, 7, true, true, atPins 8, 3, 8, ((((actOn 3).setDie 3 { pins := [atPins 8] })).samplePoint 3 192 (atPins 8) true 7).getD 0, (actOn 3).setDie 3 { pins := [atPins 8] }, by decide +kernel⟩

theorem test_wit_PinEdgesComplete_6 : ∃ (c : Chan) (cyc : BitVec 64) (u : Fin 8) (low raw o : Bool) (p : PinVec) (n y tm : Nat) (s : State), (s.die (c / 64)).pins.find? (fun q => decide (q.vec.cycle = cyc.toNat)) = some p ∧ s.actOfChan c = some n ∧ p.sym c u = some y ∧ s.timed n = false ∧ s.samplePoint n c p low u = some tm ∧ s.cutAt n tm = false ∧ (y = 9 ∨ y = 10) ∧ s.parked c = false ∧ Tab.get (fun _ => 0) p.bits (2 * (1024 * u + c) + b2n (!low)) = 1 + b2n o ∧ symPasses y (if low then 2 * b2n o + b2n (s.heldBit c low raw tm) else 2 * b2n (s.heldBit c low raw tm) + b2n o) = false :=
  ⟨192, 0, 7, true, true, true, { atPins 9 with bits := [(14720, 2)] }, 3, 9, ((((actOn 3).setDie 3 { pins := [atPins 9] })).samplePoint 3 192 (atPins 9) true 7).getD 0, ((actOn 3).setDie 3 { pins := [{ atPins 9 with bits := [(14720, 2)] }] }).setChan 192 { started := true }, by decide +kernel⟩

theorem test_wit_PinEdgesComplete_7 : ∃ (c : Chan) (cyc : BitVec 64) (low raw : Bool) (p : PinVec) (n y e : Nat) (s : State), (s.die (c / 64)).pins.find? (fun q => decide (q.vec.cycle = cyc.toNat)) = some p ∧ s.actOfChan c = some n ∧ p.sym c 0 = some y ∧ s.timed n = true ∧ s.edge c p.vec.tset 6 = some e ∧ s.cutAt n (s.cmpTime c (p.bank c) low p.vec e) = false ∧ y < 9 :=
  ⟨192, 0, true, true, atPins 2, 3, 2, 0, (((actOn 3).setDie 3 { pins := [atPins 2] }).put (TMG_MODE.MODE 3) 1).put (PIN_EDGE.EN 192 6) 1, by decide +kernel⟩

theorem test_wit_PinEdgesComplete_8 : ∃ (c : Chan) (cyc : BitVec 64) (low raw : Bool) (p : PinVec) (n e1 e : Nat) (s : State), (s.die (c / 64)).pins.find? (fun q => decide (q.vec.cycle = cyc.toNat)) = some p ∧ s.actOfChan c = some n ∧ s.timed n = true ∧ s.edge c p.vec.tset 6 = some e1 ∧ s.edge c p.vec.tset 7 = some e ∧ s.cutAt n (s.cmpTime c (p.bank c) low p.vec e) = false :=
  ⟨192, 0, true, true, atPins 2, 3, 0, 0, ((((actOn 3).setDie 3 { pins := [atPins 2] }).put (TMG_MODE.MODE 3) 1).put (PIN_EDGE.EN 192 6) 1).put (PIN_EDGE.EN 192 7) 1, by decide +kernel⟩

theorem test_wit_PinEdgesComplete_10 : ∃ (c : Chan) (cyc : BitVec 64) (raw : Bool) (p : PinVec) (n : Nat) (s : State), (s.die (c / 64)).pins.find? (fun q => decide (q.vec.cycle = cyc.toNat)) = some p ∧ s.actOfChan c = some n ∧ (s.act n).atPins ≤ cyc.toNat ∧ captMark p.vec.capt = false ∧ bitOf p.vec.mark 22 = false :=
  ⟨192, 0, 2, atPins 9, 3, (actOn 3).setDie 3 { pins := [atPins 9] }, by decide +kernel⟩

theorem test_wit_ReturnFramesComplete_1 : ∃ (d : Die) (fr : RetFrame) (n : Nat) (p : PinVec) (f : Flight) (fs : List Flight) (s : State), s.inService = true ∧ s.executing n = true ∧ s.actOfBlock d = some n ∧ (s.die d).pins.find? (fun q => !q.back) = some p ∧ (s.act n).line = f :: fs ∧ f.vec.cycle = p.vec.cycle ∧ (∃ b ∈ s.actBlocks n, b ≠ d.val ∧ bitOf f.got.toNat b = false) ∧ fr.ok = true ∧ (∀ x ∈ s.expected n p d, x.1 ∈ p.sent ∨ bitOf fr.chans.toNat (x.1 % 64) = true ∧ bitOf fr.uis.toNat (x.1 / 1024) = true) :=
  ⟨3, ⟨BitVec.allOnes 64, 255, true⟩, 3, atPins 2, { vec := vec0 }, [], (withAct 3 { line := [{ vec := vec0 }] } ((actOn 3).put (SEQ_CB_MASK.MASK 3) 24)).setDie 3 { pins := [atPins 2] }, by decide +kernel⟩

theorem test_wit_ReturnFramesComplete_2 : ∃ (d : Die) (fr : RetFrame) (n : Nat) (p : PinVec) (f : Flight) (s : State), s.inService = true ∧ s.executing n = true ∧ s.actOfBlock d = some n ∧ (s.die d).pins.find? (fun q => !q.back) = some p ∧ (s.act n).line = [f] ∧ f.vec.cycle = p.vec.cycle ∧ (∀ b ∈ s.actBlocks n, b ≠ d.val → bitOf f.got.toNat b = true) ∧ f.vec.trial = none ∧ captCmp f.vec.capt = false ∧ fr.ok = true ∧ (∀ x ∈ s.expected n p d, x.1 ∈ p.sent ∨ bitOf fr.chans.toNat (x.1 % 64) = true ∧ bitOf fr.uis.toNat (x.1 / 1024) = true) :=
  ⟨3, ⟨BitVec.allOnes 64, 255, true⟩, 3, atPins 2, { vec := vec0 }, (withAct 3 { line := [{ vec := vec0 }] } (actOn 3)).setDie 3 { pins := [atPins 2] }, by decide +kernel⟩

theorem test_wit_ReturnFramesComplete_3 : ∃ (d : Die) (fr : RetFrame) (n : Nat) (p : PinVec) (f : Flight) (fs : List Flight) (s : State), s.inService = true ∧ s.executing n = true ∧ s.actOfBlock d = some n ∧ (s.die d).pins.find? (fun q => !q.back) = some p ∧ (s.act n).line = f :: fs ∧ f.vec.cycle = p.vec.cycle ∧ (∃ b ∈ s.actBlocks n, b ≠ d.val ∧ bitOf f.got.toNat b = false) ∧ fr.ok = false :=
  ⟨3, ⟨1, 128, false⟩, 3, atPins 2, { vec := vec0 }, [], (withAct 3 { line := [{ vec := vec0 }] } ((actOn 3).put (SEQ_CB_MASK.MASK 3) 24)).setDie 3 { pins := [atPins 2] }, by decide +kernel⟩

theorem test_wit_ReturnFramesComplete_4 : ∃ (d : Die) (fr : RetFrame) (e : Ecc) (s : State), s.inService = true ∧ ((∀ p ∈ (s.die d).pins, p.back = true) ∨ s.actOfBlock d = none ∨ ∃ n, s.actOfBlock d = some n ∧ s.executing n = false) ∧ fr.ok = true :=
  ⟨3, ⟨1, 128, true⟩, .clean, (actOn 3).setDie 3 { pins := [{ atPins 2 with back := true }], evts := [(1, 2)] }, by decide +kernel⟩

theorem test_wit_ReturnFramesComplete_5 : ∃ (d : Die) (fr : RetFrame) (e : Ecc) (s : State), s.inService = true ∧ (s.actOfBlock d = none ∨ ∃ n, s.actOfBlock d = some n ∧ s.executing n = false) ∧ fr.ok = false :=
  ⟨3, ⟨1, 128, false⟩, .clean, ((actOn 3).put (SEQ_STATUS.STATE 3) 0).setDie 3 { pins := [{ atPins 2 with back := true }], dchk := true }, by decide +kernel⟩

theorem test_wit_ReturnFramesComplete_6 : ∃ (d : Die) (fr : RetFrame) (e : Ecc) (s : State), s.inService = false :=
  ⟨3, ⟨1, 128, true⟩, .clean, inMode .safe, by decide +kernel⟩

theorem test_wit_FailingVectorsAreCounted_1 : ∃ (s : State) (n : Nat) (g : Ring) (fs : List FailCmp), (∀ f ∈ fs, f.chan < 1024) :=
  ⟨(actOn 3).put (FAIL_COUNT_LO.COUNT 5) 7, 3, 5, [⟨192, 0, 4, 100, false, false, false⟩], by decide +kernel⟩

theorem test_wit_FailingVectorsAreCounted_2 : ∃ (d : Die) (fr : RetFrame) (n : Nat) (p : PinVec) (F : Flight) (g : Ring) (fs : List FailCmp) (s : State), LastResults d fr n p F s ∧ FailsAlone n g F fs s ∧ s.fld (FAIL_CFG.THRESH g) = 0 ∧ captLog F.vec.capt = false ∧ captMap F.vec.capt = false ∧ captRq F.vec.capt = false :=
  ⟨3, wholeFrame, 3, failPin 32, failFlight 32 ((failState 32 {}).put (FAIL_CFG.THRESH 5) 0), 5, ((failState 32 {}).put (FAIL_CFG.THRESH 5) 0).ringFails 5 (failFlight 32 ((failState 32 {}).put (FAIL_CFG.THRESH 5) 0)).fails, (failState 32 {}).put (FAIL_CFG.THRESH 5) 0, failFlight_last _ _ _ (by decide +kernel), by unfold FailsAlone; decide +kernel, by decide +kernel, by decide +kernel, by decide +kernel, by decide +kernel⟩

theorem test_wit_FailingVectorsAreCounted_3 : ∃ (d : Die) (fr : RetFrame) (n : Nat) (p : PinVec) (F : Flight) (g : Ring) (fs : List FailCmp) (s : State), LastResults d fr n p F s ∧ FailsAlone n g F fs s ∧ s.fld (FAIL_CFG.THRESH g) ≠ 0 ∧ s.fld (FAIL_CFG.THRESH g) ≤ s.pair (FAIL_COUNT_LO.addr g) + 1 ∧ s.flag (FAIL_STATUS.ACTION g) = false ∧ s.flag (FAIL_CFG.STOP g) = true ∧ s.flag (FAIL_CFG.BENCH g) = false ∧ s.fld (FAIL_CFG.WHISTLE g) = 0 ∧ s.actState n = 3 ∧ (s.act n).stop = none ∧ (s.act n).aborted = false ∧ captLog F.vec.capt = false ∧ captMap F.vec.capt = false ∧ captRq F.vec.capt = false :=
  ⟨3, wholeFrame, 3, failPin 32, failFlight 32 (((failState 32 {}).put (FAIL_CFG.THRESH 5) 1).put (FAIL_CFG.STOP 5) 1), 5, (((failState 32 {}).put (FAIL_CFG.THRESH 5) 1).put (FAIL_CFG.STOP 5) 1).ringFails 5 (failFlight 32 (((failState 32 {}).put (FAIL_CFG.THRESH 5) 1).put (FAIL_CFG.STOP 5) 1)).fails, ((failState 32 {}).put (FAIL_CFG.THRESH 5) 1).put (FAIL_CFG.STOP 5) 1, failFlight_last _ _ _ (by decide +kernel), by unfold FailsAlone; decide +kernel, by decide +kernel, by decide +kernel, by decide +kernel, by decide +kernel, by decide +kernel, by decide +kernel, by decide +kernel, by decide +kernel, by decide +kernel, by decide +kernel, by decide +kernel, by decide +kernel⟩

theorem test_wit_FailingVectorsAreCounted_4 : ∃ (d : Die) (fr : RetFrame) (n : Nat) (p : PinVec) (F : Flight) (g : Ring) (fs : List FailCmp) (s : State), LastResults d fr n p F s ∧ FailsAlone n g F fs s ∧ s.fld (FAIL_CFG.THRESH g) ≠ 0 ∧ s.fld (FAIL_CFG.THRESH g) ≤ s.pair (FAIL_COUNT_LO.addr g) + 1 ∧ s.flag (FAIL_STATUS.ACTION g) = false ∧ s.flag (FAIL_CFG.STOP g) = false ∧ s.flag (FAIL_CFG.BENCH g) = true ∧ s.fld (FAIL_CFG.WHISTLE g) = 0 ∧ (s.act n).loaded &&& ~~~((s.act n).bench ||| BitVec.ofNat 64 (2 ^ g.val)) ≠ 0 ∧ captLog F.vec.capt = false ∧ captMap F.vec.capt = false ∧ captRq F.vec.capt = false :=
  ⟨3, wholeFrame, 3, failPin 32, failFlight 32 (((failState 32 {}).put (FAIL_CFG.THRESH 5) 1).put (FAIL_CFG.BENCH 5) 1), 5, (((failState 32 {}).put (FAIL_CFG.THRESH 5) 1).put (FAIL_CFG.BENCH 5) 1).ringFails 5 (failFlight 32 (((failState 32 {}).put (FAIL_CFG.THRESH 5) 1).put (FAIL_CFG.BENCH 5) 1)).fails, ((failState 32 {}).put (FAIL_CFG.THRESH 5) 1).put (FAIL_CFG.BENCH 5) 1, failFlight_last _ _ _ (by decide +kernel), by unfold FailsAlone; decide +kernel, by decide +kernel, by decide +kernel, by decide +kernel, by decide +kernel, by decide +kernel, by decide +kernel, by decide +kernel, by decide +kernel, by decide +kernel, by decide +kernel⟩

theorem test_wit_FailingVectorsAreCounted_5 : ∃ (d : Die) (fr : RetFrame) (n : Nat) (p : PinVec) (F : Flight) (g : Ring) (fs : List FailCmp) (s : State), LastResults d fr n p F s ∧ FailsAlone n g F fs s ∧ s.fld (FAIL_CFG.THRESH g) = 0 ∧ captLog F.vec.capt = true ∧ captMap F.vec.capt = false ∧ captRq F.vec.capt = false ∧ s.fld (FAIL_LOG_WR.INDEX g) < s.fld (FAIL_LOG_SIZE.SIZE g) ∧ s.flag (FAIL_LOG_POLICY.MASK_EN g) = false ∧ s.logBuf + 131072 ≤ 1073741824 :=
  ⟨3, wholeFrame, 3, failPin 48, failFlight 48 ((((failState 48 {}).put (FAIL_CFG.THRESH 5) 0).put (FAIL_LOG_BASE.BASE 5) 0x400000).put (FAIL_LOG_SIZE.SIZE 5) 4), 5, ((((failState 48 {}).put (FAIL_CFG.THRESH 5) 0).put (FAIL_LOG_BASE.BASE 5) 0x400000).put (FAIL_LOG_SIZE.SIZE 5) 4).ringFails 5 (failFlight 48 ((((failState 48 {}).put (FAIL_CFG.THRESH 5) 0).put (FAIL_LOG_BASE.BASE 5) 0x400000).put (FAIL_LOG_SIZE.SIZE 5) 4)).fails, (((failState 48 {}).put (FAIL_CFG.THRESH 5) 0).put (FAIL_LOG_BASE.BASE 5) 0x400000).put (FAIL_LOG_SIZE.SIZE 5) 4, failFlight_last _ _ _ (by decide +kernel), by unfold FailsAlone; decide +kernel, by decide +kernel, by decide +kernel, by decide +kernel, by decide +kernel, by decide +kernel, by decide +kernel, by decide +kernel⟩

theorem test_wit_FailingVectorsAreCounted_6 : ∃ (d : Die) (fr : RetFrame) (n : Nat) (p : PinVec) (F : Flight) (g : Ring) (fs : List FailCmp) (s : State), LastResults d fr n p F s ∧ FailsAlone n g F fs s ∧ s.fld (FAIL_CFG.THRESH g) = 0 ∧ captLog F.vec.capt = false ∧ captMap F.vec.capt = true ∧ captRq F.vec.capt = false :=
  ⟨3, wholeFrame, 3, failPin 40, failFlight 40 ((((failState 40 {}).put (FAIL_CFG.THRESH 5) 0).put (FAIL_BITMAP_BASE.BASE 5) 0x400000).put (FAIL_BITMAP_CFG.XBITS 5) 12), 5, ((((failState 40 {}).put (FAIL_CFG.THRESH 5) 0).put (FAIL_BITMAP_BASE.BASE 5) 0x400000).put (FAIL_BITMAP_CFG.XBITS 5) 12).ringFails 5 (failFlight 40 ((((failState 40 {}).put (FAIL_CFG.THRESH 5) 0).put (FAIL_BITMAP_BASE.BASE 5) 0x400000).put (FAIL_BITMAP_CFG.XBITS 5) 12)).fails, (((failState 40 {}).put (FAIL_CFG.THRESH 5) 0).put (FAIL_BITMAP_BASE.BASE 5) 0x400000).put (FAIL_BITMAP_CFG.XBITS 5) 12, failFlight_last _ _ _ (by decide +kernel), by unfold FailsAlone; decide +kernel, by decide +kernel, by decide +kernel, by decide +kernel, by decide +kernel⟩

theorem test_wit_FailingVectorsAreCounted_7 : ∃ (d : Die) (fr : RetFrame) (n : Nat) (p : PinVec) (F : Flight) (s : State), LastResults d fr n p F s ∧ (∀ g, g < 64 → s.records n g F.vec = false ∨ s.ringFails g F.fails = []) :=
  ⟨3, wholeFrame, 3, failPin 0, failFlight 0 (failState 0 {}), failState 0 {}, failFlight_last _ _ _ (by decide +kernel), by decide +kernel⟩

theorem test_wit_TilePushesComplete_1 : ∃ (g : Ring) (v : Word) (s : State), s.inService = true ∧ reservedBits (FAIL_TILE_CFG.addr g) v = 0 ∧ wbit v 31 = true ∧ (s.ring g).push = none ∧ s.streamOn (wfld v (FAIL_TILE_CFG.STREAM g)) = true :=
  ⟨5, 0x80000000, (inMode .idle).put (ACQ_STREAM_CTRL.EN 0) 1, by decide +kernel⟩

theorem test_wit_TilePushesComplete_2 : ∃ (g : Ring) (v : Word) (s : State), s.inService = true ∧ reservedBits (FAIL_TILE_CFG.addr g) v = 0 ∧ wbit v 31 = true ∧ (s.ring g).push = none ∧ s.streamOn (wfld v (FAIL_TILE_CFG.STREAM g)) = false :=
  ⟨5, 0x80000000, (inMode .idle), by decide +kernel⟩

theorem test_wit_TilePushesComplete_3 : ∃ (g : Ring) (s : State), s.ringExecuting g = true ∧ s.fld (FAIL_TILE_CFG.PERIOD g) ≠ 0 ∧ (s.ring g).push = none ∧ s.streamOn (s.fld (FAIL_TILE_CFG.STREAM g)) = true :=
  ⟨5, (ringOn.put (FAIL_TILE_CFG.PERIOD 5) 1).put (ACQ_STREAM_CTRL.EN 0) 1, by decide +kernel⟩

theorem test_wit_TilePushesComplete_4 : ∃ (g : Ring) (final : Bool) (s : State), (s.ring g).push = some final ∧ s.streamOn (s.fld (FAIL_TILE_CFG.STREAM g)) = true ∧ s.dirtyTiles g = [] :=
  ⟨5, true, (ringOn.setRing 5 { push := some true }).put (ACQ_STREAM_CTRL.EN 0) 1, by decide +kernel⟩

theorem test_wit_TilePushesComplete_5 : ∃ (g : Ring) (final : Bool) (n i tile : Nat) (r : StreamRec) (s : State), (s.ring g).push = some final ∧ i = s.fld (FAIL_TILE_CFG.STREAM g) ∧ s.streamOn i = true ∧ s.dirtyTiles g = [tile] ∧ s.ringAct g = some n ∧ (s.act n).line = [] ∧ s.issued n ≠ 0 ∧ r = s.tileRecord g tile final (s.issued n - 1) ∧ (s.stream i).used + 16 * ((s.stream i).waiting.map StreamRec.units).sum + 16 * r.units + 48 ≤ s.ringSize i ∧ s.staging + 16 * r.units ≤ 1048576 :=
  ⟨5, true, 3, 0, 0, (tileOn.put (ACQ_STREAM_DRAM_SIZE.VALUE 0) 1).tileRecord 5 0 true 7, tileOn.put (ACQ_STREAM_DRAM_SIZE.VALUE 0) 1, by decide +kernel⟩

theorem test_wit_TilePushesComplete_6 : ∃ (g : Ring) (final : Bool) (n i tile : Nat) (ts : List Nat) (s : State), (s.ring g).push = some final ∧ i = s.fld (FAIL_TILE_CFG.STREAM g) ∧ s.streamOn i = true ∧ s.dirtyTiles g = tile :: ts ∧ s.ringAct g = some n ∧ s.ringSize i < (s.stream i).used + 16 * ((s.stream i).waiting.map StreamRec.units).sum + 608 :=
  ⟨5, true, 3, 0, 0, [], tileOn.put (ACQ_STREAM_DRAM_SIZE.VALUE 0) 0, by decide +kernel⟩

theorem test_wit_TilePushesComplete_7 : ∃ (g : Ring) (final : Bool) (s : State), (s.ring g).push = some final ∧ s.streamOn (s.fld (FAIL_TILE_CFG.STREAM g)) = false :=
  ⟨5, false, ringOn.setRing 5 { push := some false }, by decide +kernel⟩

theorem test_wit_TilePushesComplete_8 : ∃ (g : Ring) (s : State), s.inService = true ∧ s.flag (FAIL_TILE_STATUS.CLEARING g) = true ∧ s.mapWidthsOk g = true ∧ s.areaBad g 2 (s.mapArea g) = false :=
  ⟨5, (((inMode .idle).put (FAIL_TILE_STATUS.CLEARING 5) 1).put (FAIL_BITMAP_CFG.XBITS 5) 12).put (FAIL_BITMAP_BASE.BASE 5) 0x400000, by decide +kernel⟩

theorem test_wit_RegionQueueCommandsComplete_1 : ∃ (v : Word) (s : State), s.inService = true ∧ reservedBits RQ_CTRL.addr v = 0 ∧ wbit v 31 = true ∧ s.ringExecuting (wfld v RQ_CTRL.RING) = false ∧ s.rq.fin = none ∧ s.flag RQ_STATUS.CLEARING = false :=
  ⟨0x80050000, inMode .idle, by decide +kernel⟩

theorem test_wit_RegionQueueCommandsComplete_2 : ∃ (v : Word) (s : State), s.inService = true ∧ reservedBits RQ_CTRL.addr v = 0 ∧ wbit v 31 = true ∧ s.ringExecuting (wfld v RQ_CTRL.RING) = true :=
  ⟨0x80050000, ringOn, by decide +kernel⟩

theorem test_wit_RegionQueueCommandsComplete_4 : ∃ (v : Word) (s : State), s.inService = true ∧ reservedBits RQ_FINALIZE.addr v = 0 ∧ wbit v 31 = true ∧ s.rq.fin = none ∧ s.flag RQ_STATUS.CLEARING = false ∧ s.ringExecuting (wfld v RQ_FINALIZE.RING) = false :=
  ⟨0x80050000, inMode .idle, by decide +kernel⟩

theorem test_wit_RegionQueueCommandsComplete_5 : ∃ (v : Word) (s : State), s.inService = true ∧ reservedBits RQ_FINALIZE.addr v = 0 ∧ wbit v 31 = true ∧ s.rq.fin.isSome = true :=
  ⟨0x80050000, (inMode .idle).withRq { fin := some ⟨1, false, false, none⟩ }, by decide +kernel⟩

theorem test_wit_RegionQueueCommandsComplete_6 : ∃ (f : RqFin) (s : State), s.inService = true ∧ s.rq.fin = some f ∧ f.none_ = true ∧ f.src = none ∧ s.rq.upset = [] :=
  ⟨⟨5, false, true, none⟩, (inMode .idle).withRq { fin := some ⟨5, false, true, none⟩ }, by decide +kernel⟩

theorem test_wit_RegionQueueCommandsComplete_7 : ∃ (f : RqFin) (s : State), s.inService = true ∧ s.rq.fin = some f ∧ f.none_ = false ∧ f.src = none ∧ s.pushWaits f.ring = false ∧ f.ring < 64 ∧ s.rq.upset = [] :=
  ⟨⟨63, true, false, none⟩, (inMode .idle).withRq { fin := some ⟨63, true, false, none⟩ }, by decide +kernel⟩

theorem test_wit_RegionQueueCommandsComplete_8 : ∃ (f : RqFin) (s : State), s.rq.fin = some f ∧ f.none_ = false ∧ s.pushWaits f.ring = true :=
  ⟨⟨5, false, false, none⟩, (inMode .idle).withRq { fin := some ⟨5, false, false, none⟩, buf := [⟨5, 0, 0, 0, 0, 0, 0⟩] }, by decide +kernel⟩

theorem test_wit_RegionQueueCommandsComplete_9 : ∃ (p : Push) (ps : List Push) (s : State), s.inService = true ∧ s.rq.backlog = [] ∧ s.rq.buf = p :: ps ∧ elapsed 64 s.time.toNat s.rq.time = 0 ∧ s.rq.upset = [] :=
  ⟨⟨5, 3, 1, 2, 0, 0, 9⟩, [], (inMode .run).withRq { buf := [⟨5, 3, 1, 2, 0, 0, 9⟩] }, by decide +kernel⟩

theorem test_wit_RegionQueueCommandsComplete_10 : ∃ (p : Push) (ps : List Push) (s : State), s.inService = true ∧ s.rq.backlog = p :: ps ∧ elapsed 64 s.time.toNat s.rq.time = 0 ∧ s.rq.upset = [] :=
  ⟨⟨5, 3, 1, 2, 0, 0, 9⟩, [], (inMode .run).withRq { backlog := [⟨5, 3, 1, 2, 0, 0, 9⟩] }, by decide +kernel⟩

theorem test_wit_RegionQueueCommandsComplete_11 : ∃ (v : Word) (a : Nat) (s : State), s.inService = true ∧ reservedBits RQ_DESC_SEL.addr v = 0 ∧ s.rq.upset = [(2, a)] ∧ rangesMeet a 8 (12 * v.toNat) 12 = true :=
  ⟨3, 36, (inMode .idle).withRq { upset := [(2, 36)] }, by decide +kernel⟩

theorem test_wit_RegionQueueCommandsComplete_12 : ∃ (v : Word) (s : State), s.inService = true ∧ reservedBits RQ_DESC_SEL.addr v = 0 ∧ s.rq.upset = [] :=
  ⟨3, inMode .idle, by decide +kernel⟩

theorem test_wit_RegionQueueCommandsComplete_13 : ∃ (g : Ring) (v : Word) (s : State), s.inService = true ∧ reservedBits (RQ_MAP_CFG.addr g) v = 0 ∧ s.ringExecuting g = false ∧ wfld v (RQ_MAP_CFG.CHUNK_BASE g) + wfld v (RQ_MAP_CFG.CHUNK_CNT g) ≤ 256 ∧ s.chunkOverlap g (wfld v (RQ_MAP_CFG.CHUNK_BASE g)) (wfld v (RQ_MAP_CFG.CHUNK_CNT g)) = false :=
  ⟨5, 0x00100001, inMode .idle, by decide +kernel⟩

theorem test_wit_RegionQueueCommandsComplete_14 : ∃ (g : Ring) (v : Word) (s : State), s.inService = true ∧ reservedBits (RQ_MAP_CFG.addr g) v = 0 ∧ s.ringExecuting g = true :=
  ⟨5, 0x00100001, ringOn, by decide +kernel⟩

theorem test_wit_QueuesKeepTheirBound_1 : ∃ (sr sc : Nat) (p : Push) (d : RqDesc) (es : List RqEntry), es.length = d.count ∧ d.count ≤ 64 :=
  ⟨4, 4, ⟨5, 3, 1, 2, 0, 0, 9⟩, { count := 0 }, [], by decide +kernel⟩

theorem test_wit_MeasurementCommandsComplete_1 : ∃ (c : Chan) (v : Word) (s : State), s.inService = true ∧ reservedBits (PIN_TDC_MEAS.addr c) v = 0 ∧ wbit v 31 = true ∧ wbit v 30 = false ∧ (s.store (PIN_TDC_MEAS.addr c) v).tdcRefused c = false ∧ (s.store (PIN_TDC_MEAS.addr c) v).tdcReserved c = false :=
  ⟨7, 0x80010000, inMode .idle, by decide +kernel⟩

theorem test_wit_MeasurementCommandsComplete_2 : ∃ (c : Chan) (v : Word) (s : State), s.inService = true ∧ reservedBits (PIN_TDC_MEAS.addr c) v = 0 ∧ wbit v 31 = true ∧ wbit v 30 = false ∧ (s.store (PIN_TDC_MEAS.addr c) v).tdcRefused c = true :=
  ⟨7, 0x80010000, inMode .cal, by decide +kernel⟩

theorem test_wit_MeasurementCommandsComplete_3 : ∃ (c : Chan) (v : Word) (s : State), s.inService = true ∧ reservedBits (PIN_TDC_MEAS.addr c) v = 0 ∧ wbit v 30 = true ∧ (s.mu c).phase ≠ .idle :=
  ⟨7, 0x40000000, unitIn 7 { phase := .gate }, by decide +kernel⟩

theorem test_wit_MeasurementCommandsComplete_4 : ∃ (c : Chan) (v : Word) (s : State), s.inService = true ∧ reservedBits (PIN_TDC_CFG.addr c) v = 0 ∧ wbit v 15 = true :=
  ⟨7, 0x8000, inMode .idle, by decide +kernel⟩

theorem test_wit_MeasurementCommandsComplete_5 : ∃ (c : Chan) (s : State), (s.mu c).phase = .armTime :=
  ⟨7, unitIn 7 { phase := .armTime }, by decide +kernel⟩

theorem test_wit_MeasurementsEnd_1 : ∃ (c : Chan) (s : State), ((s.mu c).phase = .start ∨ (s.mu c).phase = .stops ∧ (s.mu c).start.isSome = true) ∧ (s.mu c).limit ≠ 0 ∧ (s.mu c).kind < 3 :=
  ⟨7, unitIn 7 { phase := .start, limit := 1, kind := 2 }, by decide +kernel⟩

theorem test_wit_MeasurementsEnd_2 : ∃ (c : Chan) (a : Int) (s : State), (s.mu c).phase = .stops ∧ (s.mu c).kind = 3 ∧ (s.mu c).start = some a :=
  ⟨7, 5, unitIn 7 { phase := .stops, kind := 3, start := some 5 }, by decide +kernel⟩

theorem test_wit_MeasurementsEnd_3 : ∃ (c : Chan) (s : State), (s.mu c).phase = .gate ∧ (s.mu c).kind = 4 ∧ (s.mu c).avg = 0 ∧ (s.mu c).cont = false :=
  ⟨7, unitIn 7 { phase := .gate, kind := 4 }, by decide +kernel⟩

theorem test_wit_MeasurementsEnd_4 : ∃ (c : Chan) (s : State), (s.mu c).phase = .gate ∧ (s.mu c).kind = 4 ∧ (s.mu c).rep + 1 < 2 ^ (s.mu c).avg :=
  ⟨7, unitIn 7 { phase := .gate, kind := 4, avg := 1 }, by decide +kernel⟩

theorem test_wit_MeasurementsEnd_5 : ∃ (c : Chan) (s : State), (s.mu c).phase = .complete ∧ (s.mu c).kind ≠ 4 ∧ (s.mu c).cont = false :=
  ⟨7, unitIn 7 { phase := .complete }, by decide +kernel⟩

theorem test_wit_TransitionsComplete_1 : ∃ (c : Chan) (low rise : Bool) (t : BitVec 70) (code : BitVec 9) (s : State), s.mode ≠ .idle ∧ s.mode ≠ .run :=
  ⟨7, true, true, 100, 3, inMode .cal, by decide +kernel⟩

theorem test_wit_TransitionsComplete_2 : ∃ (c : Chan) (low rise : Bool) (t0 : BitVec 70) (code : BitVec 9) (s : State), (s.mode = .idle ∨ s.mode = .run) ∧ (s.tdc (tdcNum c low)).out = none ∧ s.tdcEnabled c low = true ∧ s.tdcHeld c = false :=
  ⟨7, true, true, 100, 3, (inMode .idle).put (PIN_TDC_CFG.EN_L 7) 1, by decide +kernel⟩

theorem test_wit_TransitionsComplete_3 : ∃ (c : Chan) (low rise : Bool) (t0 : BitVec 70) (code : BitVec 9) (o : Nat) (s : State), (s.mode = .idle ∨ s.mode = .run) ∧ (s.tdc (tdcNum c low)).out = some o ∧ elapsed 70 ((t0.toNat + s.finePart ((s.chan c).active.tab low ((s.tdc (tdcNum c low)).cnt % 4) code.toNat)) % 2 ^ 70) o < s.holdoff c low :=
  ⟨7, true, true, 1, 3, 100, ((inMode .idle).setTdc 15 { out := some 100 }).put (PIN_HOLDOFF.HO_L 7) 1, by decide +kernel⟩

theorem test_wit_TransitionsComplete_4 : ∃ (c : Chan) (b : Burst) (j : Nat) (bs : List Burst) (s : State), s.isStrobe c = true ∧ timeoutBurst (s.fld (PIN_TRK_CFG.BURST_LEN c)) (s.chan c).bursts = some (b, j, bs) :=
  ⟨192, ⟨0, 0, [], none⟩, 0, [⟨0, 0, [], some 0⟩], (((actOn 3).put (PIN_TRK_CFG.ROLE 192) 2).put (PIN_TRK_CFG.BURST_LEN 192) 1).setChan 192 { bursts := [⟨0, 0, [], none⟩] }, by decide +kernel⟩

theorem test_wit_ReadsComplete_1 : ∃ (src : Src) (c : Chan) (s : State), s.inService = true :=
  ⟨.pcie, 1023, inMode .idle, by decide +kernel⟩

theorem test_wit_ReadsComplete_2 : ∃ (src : Src) (s : State), s.mode ≠ .off :=
  ⟨.engine, (inMode .boot).withTime 0xFFFFFFFF00000001, by decide +kernel⟩

theorem test_wit_ReadsComplete_3 : ∃ (src : Src) (a : BitVec 26) (r : RegRow) (ix : List Nat) (s : State), s.accessOf src a.toNat ≠ .none ∧ a.toNat % 4 = 0 ∧ sramWindow a.toNat = none ∧ regAt a.toNat = some (r, ix) ∧ isLatched r.base = true :=
  ⟨.pcie, 0x10014, ⟨"CLK_TIME_HI", 0x10014, [], 0x0, 0x0, 0x0, 0x0, 0, 0xFFFFFFFF⟩, [], inMode .safe, by decide +kernel⟩

theorem test_wit_ReadsComplete_4 : ∃ (src : Src) (a : BitVec 26) (s : State), s.inService = true ∧ a.toNat % 4 = 0 ∧ sramWindow a.toNat = none ∧ regAt a.toNat = none :=
  ⟨.pcie, 0x9000, inMode .idle, by decide +kernel⟩

theorem test_wit_ReadsComplete_5 : ∃ (src : Src) (a : BitVec 26) (s : State), s.inService = true ∧ a.toNat % 4 = 0 ∧ 0x1000000 ≤ a.toNat ∧ a.toNat < 0x2000000 :=
  ⟨.pcie, 0x1FFFFFC, inMode .run, by decide +kernel⟩

theorem test_wit_WritesComplete_1 : ∃ (src : Src) (g : Ring) (v : Word) (s : State), s.inService = true ∧ reservedBits (FAIL_CFG.addr g) v = 0 :=
  ⟨.pcie, 63, 0, inMode .idle, by decide +kernel⟩

theorem test_wit_WritesComplete_2 : ∃ (src : Src) (a : BitVec 26) (v : Word) (r : RegRow) (ix : List Nat) (s : State), a.toNat % 4 = 0 ∧ s.accessOf src a.toNat = .full ∧ sramWindow a.toNat = none ∧ regAt a.toNat = some (r, ix) ∧ r.base ∉ Machine.actingBases ∧ reservedBits a.toNat v = 0 :=
  ⟨.pcie, BitVec.ofNat 26 (FAIL_CFG.addr 5), 0, ((regAt (FAIL_CFG.addr 5)).get (by decide +kernel)).1, [5], inMode .idle, by decide +kernel⟩

theorem test_wit_WritesComplete_3 : ∃ (src : Src) (a : BitVec 26) (v : Word) (be : BitVec 4) (s : State), sramWindow a.toNat = none ∧ be ≠ 0xF :=
  ⟨.pcie, 0x10000, 5, 7, inMode .idle, by decide +kernel⟩

theorem test_wit_WritesComplete_4 : ∃ (src : Src) (a : BitVec 26) (v : Word) (be : BitVec 4) (s : State), sramWindow a.toNat = none ∧ regAt a.toNat = none :=
  ⟨.pcie, 0x9000, 5, 15, inMode .idle, by decide +kernel⟩

theorem test_wit_WritesComplete_5 : ∃ (src : Src) (a : BitVec 26) (v : Word) (be : BitVec 4) (s : State), s.inService = true ∧ a.toNat % 4 = 0 ∧ 0x1000000 ≤ a.toNat ∧ a.toNat < 0x2000000 :=
  ⟨.pcie, 0x1000000, 5, 15, inMode .idle, by decide +kernel⟩

theorem test_wit_WritesComplete_6 : ∃ (r : RegRow) (old v i : Nat), i < 32 ∧ old < 2 ^ 32 ∧ v < 2 ^ 32 ∧ r.rw < 2 ^ 32 ∧ r.w1c < 2 ^ 32 :=
  ⟨⟨"X", 0, [], 0xF, 0xF0, 0xF00, 0, 0, 0xFFF⟩, 5, 3, 31, by decide +kernel⟩

theorem test_wit_TriggersComplete_1 : ∃ (k : Trig) (v : Word) (n : Act) (s : State), (s.mode = .idle ∨ s.mode = .run) ∧ reservedBits (ACQ_TRIG_CTRL.addr k) v = 0 ∧ wbit v 31 = true ∧ wbit v 30 = false ∧ s.trigAct k = some n.val ∧ (s.store (ACQ_TRIG_CTRL.addr k) v).trigReserved k = false :=
  ⟨15, 0x80000000, 3, (actOn 3).setReg (ACQ_TRIG_PAT.addr 15 0 12) 1, by decide +kernel⟩

theorem test_wit_TriggersComplete_2 : ∃ (k : Trig) (v : Word) (s : State), (s.mode = .idle ∨ s.mode = .run) ∧ reservedBits (ACQ_TRIG_CTRL.addr k) v = 0 ∧ wbit v 31 = true ∧ wbit v 30 = false ∧ s.trigAct k = none :=
  ⟨0, 0x80000000, inMode .idle, by decide +kernel⟩

theorem test_wit_TriggersComplete_3 : ∃ (k : Trig) (v : Word) (s : State), s.mode = .cal ∧ reservedBits (ACQ_TRIG_CTRL.addr k) v = 0 ∧ wbit v 31 = true ∧ wbit v 30 = false :=
  ⟨0, 0x80000000, inMode .cal, by decide +kernel⟩

theorem test_wit_TriggersComplete_4 : ∃ (k : Trig) (v : Word) (s : State), s.inService = true ∧ reservedBits (ACQ_TRIG_CTRL.addr k) v = 0 ∧ wbit v 30 = true :=
  ⟨15, 0x40000000, inMode .idle, by decide +kernel⟩

theorem test_wit_TriggersComplete_5 : ∃ (k : Trig) (s : State), s.flag (ACQ_TRIG_STATUS.ARMED k) = true ∧ s.fld (ACQ_TRIG_STATUS.STAGE k) ≠ 0 ∧ s.fld (ACQ_TRIG_TLIM.TLIM k (s.fld (ACQ_TRIG_STATUS.STAGE k))) ≠ 0 :=
  ⟨2, (((inMode .run).put (ACQ_TRIG_STATUS.ARMED 2) 1).put (ACQ_TRIG_STATUS.STAGE 2) 1).put (ACQ_TRIG_TLIM.TLIM 2 1) 5, by decide +kernel⟩

theorem test_wit_TriggersComplete_6 : ∃ (k : Trig) (h : Nat) (s : State), (s.trig k).holdTo = some h :=
  ⟨2, 9, (inMode .run).setTrig 2 { holdTo := some 9 }, by decide +kernel⟩

theorem test_wit_TriggersComplete_7 : ∃ (k : Trig) (s : State), (s.trig k).holdTo = none :=
  ⟨2, inMode .run, by decide +kernel⟩

theorem test_wit_StreamsComplete_1 : ∃ (i : Stream) (v : Word) (s : State), (s.mode = .idle ∨ s.mode = .run) ∧ reservedBits (ACQ_STREAM_CTRL.addr i) v = 0 ∧ wbit v 31 = true ∧ s.streamOn i = false ∧ ((s.store (ACQ_STREAM_CTRL.addr i) v).put (ACQ_STREAM_CTRL.EN i) 0).streamReserved i = false ∧ ((s.store (ACQ_STREAM_CTRL.addr i) v).put (ACQ_STREAM_CTRL.EN i) 0).streamMisplaced i = false ∧ ((s.store (ACQ_STREAM_CTRL.addr i) v).put (ACQ_STREAM_CTRL.EN i) 0).streamBad i = false ∧ ((s.store (ACQ_STREAM_CTRL.addr i) v).put (ACQ_STREAM_CTRL.EN i) 0).streamConflict i = false :=
  ⟨2, 0x80000020, ringPlaced (inMode .idle), by decide +kernel⟩

theorem test_wit_StreamsComplete_2 : ∃ (i : Stream) (v : Word) (s : State), (s.mode = .idle ∨ s.mode = .run) ∧ reservedBits (ACQ_STREAM_CTRL.addr i) v = 0 ∧ wbit v 31 = true ∧ s.streamOn i = false ∧ ((s.store (ACQ_STREAM_CTRL.addr i) v).put (ACQ_STREAM_CTRL.EN i) 0).streamReserved i = false ∧ ((s.store (ACQ_STREAM_CTRL.addr i) v).put (ACQ_STREAM_CTRL.EN i) 0).streamMisplaced i = false ∧ ((s.store (ACQ_STREAM_CTRL.addr i) v).put (ACQ_STREAM_CTRL.EN i) 0).streamBad i = true :=
  ⟨2, 0x80000010, ringPlaced (inMode .idle), by decide +kernel⟩

theorem test_wit_StreamsComplete_3 : ∃ (i : Stream) (v : Word) (s : State), s.inService = true ∧ reservedBits (ACQ_STREAM_CTRL.addr i) v = 0 ∧ wbit v 31 = false ∧ s.streamOn i = true :=
  ⟨2, 0, streamIn 0, by decide +kernel⟩

theorem test_wit_StreamsComplete_4 : ∃ (i : Stream) (v : Word) (s : State), s.inService = true ∧ reservedBits (ACQ_STREAM_CTRL.addr i) v = 0 ∧ wbit v 31 = false ∧ s.streamOn i = true ∧ s.streamCtrlChanges i v = false ∧ (s.stream i).gap = none ∧ (s.stream i).waiting = [] :=
  ⟨2, 0x20000, streamIn 0, by decide +kernel⟩

theorem test_wit_StreamsComplete_5 : ∃ (i : Stream) (d : Die) (s : State), s.streamOn i = true ∧ 2 ≤ s.fld (ACQ_STREAM_CTRL.KIND i) ∧ s.fld (ACQ_STREAM_CTRL.KIND i) ≤ 4 :=
  ⟨2, 5, streamIn 4, by decide +kernel⟩

theorem test_wit_StreamsComplete_6 : ∃ (i : Stream) (w : Nat × Nat) (s : State), (s.stream i).win = some w :=
  ⟨2, (0, 1), streamWith { win := some (0, 1) }, by decide +kernel⟩

theorem test_wit_StreamsComplete_7 : ∃ (i : Stream) (n t0 : Nat) (s : State), s.streamOn i = true ∧ s.fld (ACQ_STREAM_CTRL.KIND i) = 5 ∧ oldestStamps (s.stream i).reds = some (n, t0) :=
  ⟨2, 130, 7, (streamIn 5).setStream 2 { reds := [(130, { ents := [5], t0 := 7 })] }, by decide +kernel⟩

theorem test_wit_StreamsComplete_8 : ∃ (i : Stream) (r : StreamRec) (s : State), nextReady (s.stream i).waiting = some r ∧ (s.stream i).gap = none ∧ (s.stream i).used + 16 * r.units + 48 ≤ s.ringSize i :=
  ⟨2, ⟨0, 0, 5, [], 0⟩, streamWith { waiting := [⟨0, 0, 5, [], 0⟩] }, by decide +kernel⟩

theorem test_wit_StreamsComplete_9 : ∃ (i : Stream) (r : StreamRec) (s : State), nextReady (s.stream i).waiting = some r ∧ (s.stream i).gap = none ∧ s.ringSize i < (s.stream i).used + 16 * r.units + 48 :=
  ⟨2, ⟨0, 0, 5, [], 0⟩, (streamWith { waiting := [⟨0, 0, 5, [], 0⟩] }).put (ACQ_STREAM_DRAM_SIZE.VALUE 2) 0, by decide +kernel⟩

theorem test_wit_StreamsComplete_10 : ∃ (i : Stream) (n q pad : Nat) (rest : List (Nat × Nat)) (e : Ecc) (s : State), (s.stream i).ring = (n, q) :: rest ∧ s.d3hot = false ∧ pad = (if (s.hostRing i).2 < s.fld (ACQ_STREAM_HOST_WR.VALUE i) + n then (s.hostRing i).2 - s.fld (ACQ_STREAM_HOST_WR.VALUE i) else 0) ∧ (s.fld (ACQ_STREAM_HOST_WR.VALUE i) + (s.hostRing i).2 - s.fld (ACQ_STREAM_HOST_RD.VALUE i)) % max 1 (s.hostRing i).2 + pad + n + 1 ≤ (s.hostRing i).2 :=
  ⟨2, 3, 0, 0, [], .clean, streamWith { ring := [(3, 0)] }, by decide +kernel⟩

theorem test_wit_StreamsComplete_11 : ∃ (i : Stream) (n q pad : Nat) (rest : List (Nat × Nat)) (e : Ecc) (s : State), (s.stream i).ring = (n, q) :: rest ∧ s.d3hot = false ∧ pad = (if (s.hostRing i).2 < s.fld (ACQ_STREAM_HOST_WR.VALUE i) + n then (s.hostRing i).2 - s.fld (ACQ_STREAM_HOST_WR.VALUE i) else 0) ∧ (s.hostRing i).2 < (s.fld (ACQ_STREAM_HOST_WR.VALUE i) + (s.hostRing i).2 - s.fld (ACQ_STREAM_HOST_RD.VALUE i)) % max 1 (s.hostRing i).2 + pad + n + 1 :=
  ⟨2, 3, 0, 0, [], .clean, (streamWith { ring := [(3, 0)] }).put (ACQ_STREAM_HOST_RD.VALUE 2) 1, by decide +kernel⟩

theorem test_wit_StreamsComplete_12 : ∃ (x : StreamRead) (s : State), s.d3hot = true :=
  ⟨⟨2, .clean⟩, (streamIn 0).withD3hot true, by decide +kernel⟩

theorem test_wit_CalibrationCompletes_1 : ∃ (d : Die) (c : Nat) (s : State), (s.mode = .idle ∨ s.mode = .run) ∧ s.flag CAL_CTRL.LIVE_EN = true ∧ (s.die d).pass = none ∧ s.passNext d = some c :=
  ⟨2, 128, ((inMode .idle).put CAL_CTRL.LIVE_EN 1).put (CAL_MASK.CHANNELS 4) 0xFFFFFFFF, by decide +kernel⟩

theorem test_wit_CalibrationCompletes_2 : ∃ (d : Die) (hits : List (List Nat)) (p : PassSt) (s : State), (s.die d).pass = some p ∧ bitOf p.groups 0 = true ∧ p.tables = none ∧ hitsWhole hits = true :=
  ⟨2, flatHits, { chan := 130, start := 0, groups := 1 }, passOn { chan := 130, start := 0, groups := 1 }, by decide +kernel⟩

theorem test_wit_CalibrationCompletes_3 : ∃ (d : Die) (m : ChanMeas) (p : PassSt) (s : State), (s.die d).pass = some p ∧ p.chan < 1024 ∧ (bitOf p.groups 0 = false ∨ p.tables.isSome = true) ∧ (∀ g, g < 4 → bitOf p.groups g = true → s.groupWhole p.chan g m = true) :=
  ⟨2, { quiet with reads := List.replicate 37 [5] }, { chan := 130, start := 0, groups := 8 }, passOn { chan := 130, start := 0, groups := 8 }, by decide +kernel⟩

theorem test_wit_CalibrationCompletes_4 : ∃ (d : Die) (p : PassSt) (s : State), (s.die d).pass = some p ∧ s.fld CAL_SCHED.TIMEOUT ≠ 0 :=
  ⟨2, { chan := 130, start := 0, groups := 1 }, passOn { chan := 130, start := 0, groups := 1 }, by decide +kernel⟩

theorem test_wit_CalibrationCompletes_5 : ∃ (t0 : Nat) (s : State), s.cal.since = some t0 ∧ s.cal.warned = false ∧ s.fld CAL_CTRL.PEND_WARN ≠ 0 :=
  ⟨9, (inMode .idle).withCal { since := some 9 }, by decide +kernel⟩

theorem test_wit_CalibrationCompletes_6 : ∃ (dies : List DieMeas) (ms : List FullMeas) (s : State), s.mode = .cal ∧ s.flag CAL_STATUS.FULL_BUSY = true ∧ s.runWhole dies ms = true :=
  ⟨List.replicate 16 ⟨0, 0, 0⟩, [⟨130, wholeMeas, List.replicate 7 (List.replicate 16 1, List.replicate 16 1), flatHits⟩], fullRun, by decide +kernel⟩

theorem test_wit_MonitorsComplete_1 : ∃ (c : Chan) (uv : Int) (high : Bool) (s : State), s.flag (PIN_MON_WIN.EN c) = true ∧ s.inService = true ∧ s.stage c ≠ .calbus ∧ s.pinSide c uv = some high ∧ s.fld (PIN_MON_WIN.ESC c) = 0 :=
  ⟨7, -3000000, false, (inMode .idle).put (PIN_MON_WIN.EN 7) 1, by decide +kernel⟩

theorem test_wit_MonitorsComplete_2 : ∃ (c : Chan) (uv : Int) (s : State), s.pinSide c uv = none :=
  ⟨7, -2000000, inMode .idle, by decide +kernel⟩

theorem test_wit_MonitorsComplete_3 : ∃ (c : Chan) (uv : Int) (high : Bool) (g n : Nat) (s : State), s.flag (PIN_MON_WIN.EN c) = true ∧ s.inService = true ∧ s.stage c ≠ .calbus ∧ s.pinSide c uv = some high ∧ bitOf (s.fld (PIN_MON_WIN.ESC c)) 0 = true ∧ bitOf (s.fld (PIN_MON_WIN.ESC c)) 1 = false ∧ s.ringOf c = some g ∧ s.ringAct g = some n ∧ s.executing n = true :=
  ⟨192, 8000000, true, 5, 3, (ringOn.put (PIN_MON_WIN.EN 192) 1).put (PIN_MON_WIN.ESC 192) 1, by decide +kernel⟩

theorem test_wit_MonitorsComplete_4 : ∃ (m : Fin 32) (uv : Int) (high : Bool) (s : State), s.senseActive m = true ∧ s.senseSide m uv = some high ∧ s.flag (MON_SENSE_ACTION.PARK m) = false ∧ s.flag (MON_SENSE_ACTION.ABORT m) = false ∧ s.flag (MON_SENSE_ACTION.CLR m) = true :=
  ⟨31, 8000000, true, ((inMode .idle).put (MON_SENSE_ACTION.EN 31) 1).put (MON_SENSE_ACTION.CLR 31) 1, by decide +kernel⟩

theorem test_wit_MonitorsComplete_5 : ∃ (m : Fin 32) (uv : Int) (s : State), (s.senseActive m = false ∨ s.senseSide m uv = none) :=
  ⟨31, -2000000, inMode .idle, by decide +kernel⟩

theorem test_wit_MonitorsComplete_6 : ∃ (m : Fin 32) (s : State), s.inService = true :=
  ⟨31, inMode .idle, by decide +kernel⟩

theorem test_wit_MonitorsComplete_7 : ∃ (m : Fin 32) (uv : Int) (s : State), s.flag (MON_SENSE_BLANK.BLANKING m) = true ∧ s.senseSide m uv = none :=
  ⟨31, -1000000, (inMode .idle).put (MON_SENSE_BLANK.BLANKING 31) 1, by decide +kernel⟩

theorem test_wit_MonitorsComplete_8 : ∃ (m : Fin 32) (uv : Int) (high : Bool) (s : State), s.flag (MON_SENSE_BLANK.BLANKING m) = true ∧ s.inService = true ∧ s.senseSide m uv = some high ∧ s.flag (MON_SENSE_ACTION.EN m) = true ∧ s.flag (MON_SENSE_ACTION.TRIPPED m) = false ∧ s.flag (MON_SENSE_ACTION.PARK m) = false ∧ s.flag (MON_SENSE_ACTION.ABORT m) = false ∧ s.flag (MON_SENSE_ACTION.CLR m) = false :=
  ⟨31, -2000000, false, ((inMode .idle).put (MON_SENSE_BLANK.BLANKING 31) 1).put (MON_SENSE_ACTION.EN 31) 1, by decide +kernel⟩

theorem test_wit_MonitorsComplete_9 : ∃ (c : Chan) (s : State), s.inService = true :=
  ⟨1023, inMode .idle, by decide +kernel⟩

theorem test_wit_MonitorsComplete_10 : ∃ (c : Chan) (s : State), s.inService = true :=
  ⟨1023, inMode .idle, by decide +kernel⟩

theorem test_wit_SrefAndParksComplete_1 : ∃ (m : Fin 32) (v : Word) (s : State), s.inService = true ∧ reservedBits (MON_SREF_CODE.addr m) v = 0 ∧ s.clrActive = false ∧ s.mode ≠ .cal :=
  ⟨31, 0xFFFF, inMode .idle, by decide +kernel⟩

theorem test_wit_SrefAndParksComplete_2 : ∃ (m : Fin 32) (v : Word) (s : State), s.inService = true ∧ reservedBits (MON_SREF_CODE.addr m) v = 0 ∧ (s.clrActive = true ∨ s.mode = .cal) :=
  ⟨31, 0xFFFF, (inMode .idle).withPins { clrN := false }, by decide +kernel⟩

theorem test_wit_SrefAndParksComplete_3 : ∃ s : State, s.mode ≠ .off :=
  ⟨inMode .idle, by decide +kernel⟩

theorem test_wit_SrefAndParksComplete_5 : ∃ s : State, s.mode ≠ .off :=
  ⟨inMode .idle, by decide +kernel⟩

theorem test_wit_SrefAndParksComplete_7 : ∃ (v : Word) (s : State), s.inService = true ∧ reservedBits SYS_PARK.addr v = 0 :=
  ⟨0xFFFF, inMode .idle, by decide +kernel⟩

theorem test_wit_PatrolCompletes_1 : ∃ (r : Nat) (b : BitVec 37) (s : State), s.inService = true ∧ s.flag MEM_PATROL_CFG.EN = true ∧ s.flag MEM_PATROL_STATUS.ACTIVE = false ∧ s.patrolFrom 4 s.patrol = some r ∧ s.patrolSkips r = false :=
  ⟨5, 0, patrolAt 5 (inMode .idle), by decide +kernel⟩

theorem test_wit_PatrolCompletes_2 : ∃ (r : Nat) (b : BitVec 37) (s : State), s.inService = true ∧ s.flag MEM_PATROL_CFG.EN = true ∧ s.flag MEM_PATROL_STATUS.ACTIVE = false ∧ s.patrolFrom 4 s.patrol = some r ∧ s.patrolSkips r = true ∧ s.patrol ≠ 0 :=
  ⟨12288, 0, patrolAt 12288 (actOn 3), by decide +kernel⟩

theorem test_wit_PatrolCompletes_3 : ∃ s : State, s.flag MEM_PATROL_STATUS.ACTIVE = true :=
  ⟨(inMode .idle).put MEM_PATROL_STATUS.ACTIVE 1, by decide +kernel⟩

theorem test_wit_PatrolCompletes_4 : ∃ s : State, s.flag MEM_PATROL_STATUS.ACTIVE = true :=
  ⟨(inMode .idle).put MEM_PATROL_STATUS.ACTIVE 1, by decide +kernel⟩

theorem test_wit_BoardPortAndAtomicsComplete_1 : ∃ (ba : BitVec 18) (s : State), s.mode ≠ .off ∧ ba.toNat < 131072 :=
  ⟨131071, inMode .safe, by decide +kernel⟩

theorem test_wit_BoardPortAndAtomicsComplete_2 : ∃ (ba : BitVec 18) (s : State), s.mode ≠ .off ∧ 131072 ≤ ba.toNat :=
  ⟨131072, inMode .safe, by decide +kernel⟩

theorem test_wit_BoardPortAndAtomicsComplete_3 : ∃ (ba : BitVec 18) (w : Word) (s : State), s.mode ≠ .off ∧ ba.toNat < 131072 :=
  ⟨131071, 5, inMode .safe, by decide +kernel⟩

theorem test_wit_BoardPortAndAtomicsComplete_4 : ∃ (ba : BitVec 18) (v : BitVec 16) (s : State), s.mode ≠ .off ∧ ba.toNat < 131072 :=
  ⟨131071, 5, inMode .safe, by decide +kernel⟩

theorem test_wit_BoardPortAndAtomicsComplete_5 : ∃ (ba : BitVec 18) (v : BitVec 16) (w : Word) (s : State), s.mode ≠ .off ∧ ba.toNat < 131072 ∧ bitsOf w.toNat (16 * (ba.toNat % 2)) 16 ≠ v.toNat :=
  ⟨131071, 5, 6, inMode .safe, by decide +kernel⟩

theorem test_wit_BoardPortAndAtomicsComplete_6 : ∃ (v : BitVec 16) (s : State), s.mode ≠ .off :=
  ⟨5, inMode .idle, by decide +kernel⟩

theorem test_wit_BoardPortAndAtomicsComplete_8 : ∃ (a : BitVec 26) (wide : Bool) (v : BitVec 64) (s : State), s.inService = true ∧ 0x1000000 ≤ a.toNat ∧ a.toNat < 0x2000000 ∧ a.toNat % (if wide then 8 else 4) = 0 :=
  ⟨0x1FFFFF8, true, 5, inMode .idle, by decide +kernel⟩

theorem test_wit_BoardPortAndAtomicsComplete_9 : ∃ (a : BitVec 26) (wide : Bool) (v : BitVec 64) (s : State), s.inService = true ∧ 0x1000000 ≤ a.toNat ∧ a.toNat < 0x2000000 ∧ a.toNat % (if wide then 8 else 4) = 0 :=
  ⟨0x1FFFFFC, false, 5, inMode .idle, by decide +kernel⟩

theorem test_wit_BoardPortAndAtomicsComplete_10 : ∃ (a : BitVec 26) (wide : Bool) (v : BitVec 64) (s : State), s.mode ≠ .off ∧ a.toNat < 0x1000000 :=
  ⟨0xFFFFF8, true, 5, inMode .safe, by decide +kernel⟩

theorem test_wit_BoardPortAndAtomicsComplete_11 : ∃ (x : AtomicAt) (wide : Bool) (v : BitVec 64) (s : State), s.mode ≠ .off ∧ atomicWord (if wide then 8 else 4) x = none :=
  ⟨.bar2 true 5, true, 5, inMode .idle, by decide +kernel⟩

theorem test_wit_BoardPortAndAtomicsComplete_13 : ∃ (o : BitVec 24) (v : BitVec 64) (s : State), s.mode ≠ .off :=
  ⟨0xFFFFFC, 5, inMode .safe, by decide +kernel⟩

theorem test_wit_DramAndOwnershipComplete_1 : ∃ (a : BitVec 37) (len : Nat) (s : State), s.inService = true ∧ a.toNat + len ≤ dramSize :=
  ⟨BitVec.ofNat 37 (dramSize - 8), 8, (inMode .idle).dramPut (dramSize - 1) [7], by decide +kernel⟩

theorem test_wit_DramAndOwnershipComplete_2 : ∃ (a : BitVec 37) (len : Nat) (s : State), s.inService = false ∧ s.mode ≠ .off ∧ a.toNat + len ≤ dramSize :=
  ⟨BitVec.ofNat 37 (dramSize - 8), 8, inMode .safe, by decide +kernel⟩

theorem test_wit_DramAndOwnershipComplete_4 : ∃ (i : Fin 16) (v : Word) (s : State), s.inService = true ∧ reservedBits (MEM_DRAM_PART.addr i) v = 0 ∧ 2 ≤ i.val ∧ s.anyExecuting = false ∧ s.rq.fin = none ∧ (s.store (MEM_DRAM_PART.addr i) v).partsOk = true ∧ (∀ k, k < 16 → s.streamOn k = false ∨ (s.store (MEM_DRAM_PART.addr i) v).streamMisplaced k = false) :=
  ⟨2, 0, inMode .idle, by decide +kernel⟩

theorem test_wit_DramAndOwnershipComplete_5 : ∃ (i : Fin 16) (size : Bool) (v : Word) (s : State), s.inService = true ∧ reservedBits (if size then MEM_DRAM_PART_SIZE.addr i else MEM_DRAM_PART.addr i) v = 0 ∧ s.anyExecuting = true :=
  ⟨15, true, 5, actOn 3, by decide +kernel⟩

theorem test_wit_DramAndOwnershipComplete_6 : ∃ (n : Act) (v : Word) (s : State), s.inService = true ∧ reservedBits (SEQ_CB_MASK.addr n) v = 0 ∧ s.anyExecuting = false :=
  ⟨3, 9, inMode .idle, by decide +kernel⟩

theorem test_wit_DramAndOwnershipComplete_7 : ∃ (n : Act) (v : Word) (s : State), s.inService = true ∧ reservedBits (SEQ_CB_MASK.addr n) v = 0 ∧ s.executing n = true ∧ s.fld (SEQ_CB_MASK.MASK n) ≠ wfld v (SEQ_CB_MASK.MASK n) :=
  ⟨3, 9, actOn 3, by decide +kernel⟩

theorem test_wit_DramAndOwnershipComplete_8 : ∃ (g : Ring) (i : Fin 32) (v : Word) (s : State), s.inService = true ∧ s.anyExecuting = false :=
  ⟨5, 6, 3, inMode .idle, by decide +kernel⟩

theorem test_wit_DramAndOwnershipComplete_9 : ∃ (g : Ring) (i : Fin 32) (v : Word) (s : State), s.inService = true ∧ s.ringExecuting g = true :=
  ⟨5, 6, 3, ringOn, by decide +kernel⟩

theorem test_wit_LinkPortsComplete_1 : ∃ (p : Port) (phy root : BitVec 16) (w : BitVec 56) (s : State), p ≠ 0 ∧ (s.fld (LNK_STATUS.STATE p) = 1 ∨ s.fld (LNK_STATUS.STATE p) = 3) ∧ root.toNat = s.fld CLK_ROOT_CFG.ROOT_MHZ ∧ s.roleAllowed p (bitsOf w.toNat 21 2) = true ∧ bitsOf w.toNat 21 2 = s.fld (LNK_PORT_CFG.EXP_ROLE p) :=
  ⟨1, 5, 25600, 0, ((portIn 2 {}).put (LNK_STATUS.STATE 1) 1).put (LNK_PORT_CFG.EXP_ROLE 1) 0, by decide +kernel⟩

theorem test_wit_LinkPortsComplete_2 : ∃ (phy root : BitVec 16) (w : BitVec 56) (s : State), (s.fld (LNK_STATUS.STATE 0) = 1 ∨ s.fld (LNK_STATUS.STATE 0) = 3) ∧ root.toNat = s.fld CLK_ROOT_CFG.ROOT_MHZ ∧ s.roleAllowed 0 (bitsOf w.toNat 21 2) = true ∧ bitsOf w.toNat 21 2 = s.fld (LNK_PORT_CFG.EXP_ROLE 0) :=
  ⟨5, 25600, 0x400000, (((portIn 0 {}).put (LNK_STATUS.STATE 0) 3).put SYS_DEVIDX.VALID 0).put (LNK_PORT_CFG.EXP_ROLE 0) 2, by decide +kernel⟩

theorem test_wit_LinkPortsComplete_3 : ∃ (p : Port) (phy root : BitVec 16) (w : BitVec 56) (s : State), (s.fld (LNK_STATUS.STATE p) = 1 ∨ s.fld (LNK_STATUS.STATE p) = 3) ∧ root.toNat = s.fld CLK_ROOT_CFG.ROOT_MHZ ∧ (s.roleAllowed p (bitsOf w.toNat 21 2) = false ∨ bitsOf w.toNat 21 2 ≠ s.fld (LNK_PORT_CFG.EXP_ROLE p)) :=
  ⟨1, 5, 25600, 0x400000, (portIn 2 {}).put (LNK_STATUS.STATE 1) 1, by decide +kernel⟩

theorem test_wit_LinkPortsComplete_4 : ∃ (p : Port) (phy root : BitVec 16) (w : BitVec 56) (s : State), (s.fld (LNK_STATUS.STATE p) = 1 ∨ s.fld (LNK_STATUS.STATE p) = 3) ∧ root.toNat ≠ s.fld CLK_ROOT_CFG.ROOT_MHZ :=
  ⟨16, 5, 25601, 0, (portIn 2 {}).put (LNK_STATUS.STATE 16) 3, by decide +kernel⟩

theorem test_wit_LinkPortsComplete_5 : ∃ (p : Port) (s : State), (s.fld (LNK_STATUS.STATE p) = 1 ∨ s.fld (LNK_STATUS.STATE p) = 3) :=
  ⟨16, (portIn 2 {}).put (LNK_STATUS.STATE 16) 3, by decide +kernel⟩

theorem test_wit_LinkPortsComplete_6 : ∃ (p : Port) (s : State), (s.fld (LNK_STATUS.STATE p) = 1 ∨ s.fld (LNK_STATUS.STATE p) = 3) :=
  ⟨16, (portIn 2 {}).put (LNK_STATUS.STATE 16) 3, by decide +kernel⟩

theorem test_wit_LinkPortsComplete_7 : ∃ (p : Port) (s : State), s.portActive p = true :=
  ⟨1, portIn 2 {}, by decide +kernel⟩

theorem test_wit_LinkPortsComplete_8 : ∃ (p : Port) (s : State), s.portActive p = true ∧ (s.port p).there = false :=
  ⟨1, portIn 2 {}, by decide +kernel⟩

theorem test_wit_LinkPortsComplete_9 : ∃ (p : Port) (v : Word) (s : State), s.inService = true ∧ reservedBits (LNK_PORT_CFG.addr p) v = 0 ∧ wbit v 31 = false :=
  ⟨16, 0, inMode .idle, by decide +kernel⟩

theorem test_wit_LinkPortsComplete_10 : ∃ (p : Port) (v : Word) (s : State), s.inService = true ∧ reservedBits (LNK_PORT_CFG.addr p) v = 0 ∧ wbit v 31 = false ∧ (s.port p).there = false :=
  ⟨1, 0, portIn 2 {}, by decide +kernel⟩

theorem test_wit_LinkPortsComplete_11 : ∃ (p : Port) (v : Word) (s : State), s.inService = true ∧ reservedBits (LNK_PORT_CFG.addr p) v = 0 ∧ wbit v 31 = true ∧ s.portAllowed p = true ∧ (s.fld (LNK_STATUS.STATE p) = 0 ∨ s.fld (LNK_STATUS.STATE p) = 4) :=
  ⟨1, 0x80000000, (portIn 2 {}).put (LNK_STATUS.STATE 1) 4, by decide +kernel⟩

theorem test_wit_LinkPortsComplete_12 : ∃ (p : Port) (s : State), s.fld (LNK_STATUS.STATE p) = 4 :=
  ⟨1, (portIn 2 {}).put (LNK_STATUS.STATE 1) 4, by decide +kernel⟩

theorem test_wit_LinkPortsComplete_13 : ∃ (p : Port) (s : State), (s.fld (LNK_STATUS.STATE p) = 1 ∨ s.portActive p = true) :=
  ⟨1, portIn 2 {}, by decide +kernel⟩

theorem test_wit_LinkPortsComplete_14 : ∃ (p : Port) (w : BitVec 56) (s : State), s.portActive p = true :=
  ⟨1, 0xFFFFFFFFFFFFFF, portIn 2 {}, by decide +kernel⟩

theorem test_wit_LinkPortsComplete_15 : ∃ (p : Port) (w : BitVec 56) (s : State), p ≠ 0 ∧ s.portActive p = true ∧ s.role ≠ 2 :=
  ⟨1, 77, portIn 1 {}, by decide +kernel⟩

theorem test_wit_LinkPortsComplete_16 : ∃ (p : Port) (s : State), s.portActive p = true ∧ (s.port p).there = true :=
  ⟨1, portIn 2 { there := true }, by decide +kernel⟩

theorem test_wit_LinkPortsComplete_17 : ∃ (p : Port) (s : State), s.portActive p = true ∧ (s.port p).there = true ∧ p ≠ 0 ∧ s.role = 1 ∧ s.flag EVT_CFG.FWD = true ∧ s.evtFiltered 7 5 = false :=
  ⟨1, (portIn 1 { there := true }).put EVT_CFG.FWD 1, by decide +kernel⟩

theorem test_wit_LinkPortsComplete_18 : ∃ (p : Port) (s : State), s.portActive p = true ∧ (s.port p).there = true ∧ p ≠ 0 ∧ s.role = 1 ∧ s.portActive 0 = true ∧ (s.port 0).waiting = [] ∧ 0 < (s.port 0).credReq :=
  ⟨1, ((portIn 1 { there := true }).put (LNK_STATUS.STATE 0) 2).setPort 0 { credReq := 1 }, by decide +kernel⟩

theorem test_wit_LinkPortsComplete_19 : ∃ (p : Port) (s : State), s.portActive p = true ∧ (s.port p).there = true ∧ p ≠ 0 ∧ s.role = 2 :=
  ⟨1, (portIn 2 { there := true }).put (LNK_STATUS.P_ROLE 1) 1, by decide +kernel⟩

theorem test_wit_LinkPortsComplete_20 : ∃ (p : Port) (s : State), s.portActive p = true ∧ (s.port p).there = false :=
  ⟨1, portIn 2 {}, by decide +kernel⟩

theorem test_wit_LinkFramesComplete_1 : ∃ (p : Port) (seq : BitVec 16) (req rsp : BitVec 8) (s : State), s.portActive p = true ∧ (s.port p).waiting = [] :=
  ⟨1, 5, 9, 9, portIn 2 {}, by decide +kernel⟩

theorem test_wit_LinkFramesComplete_2 : ∃ (p : Port) (seq : BitVec 16) (req rsp : BitVec 8) (u : Unacked) (us : List Unacked) (s : State), s.portActive p = true ∧ (s.port p).waiting = [] ∧ (s.port p).unacked.filter (fun u => !ackReleases seq.toNat true u.frame.seq) = u :: us ∧ u.retries < 8 ∧ s.past (u.first + 4 * usFines) = false :=
  ⟨1, 5, 9, 9, ⟨⟨7, 3, 1, 9, 5, []⟩, 7, 0, 0⟩, [], portIn 2 { unacked := [⟨⟨7, 3, 1, 9, 5, []⟩, 7, 0, 0⟩] }, by decide +kernel⟩

theorem test_wit_LinkFramesComplete_3 : ∃ (p : Port) (u : Unacked) (us : List Unacked) (s : State), s.portActive p = true ∧ (s.port p).unacked = u :: us ∧ u.retries < 8 ∧ s.past (u.last + 3276800) = true ∧ s.past (u.first + 4 * usFines) = false :=
  ⟨1, ⟨⟨0, 3, 1, 9, 5, []⟩, 7, 0, 0⟩, [], (portIn 2 { unacked := [⟨⟨0, 3, 1, 9, 5, []⟩, 7, 0, 0⟩] }).withTime 3276800, by decide +kernel⟩

theorem test_wit_LinkFramesComplete_4 : ∃ (p : Port) (u : Unacked) (us : List Unacked) (s : State), s.portActive p = true ∧ (s.port p).unacked = u :: us ∧ s.past (u.last + 3276800) = true ∧ (8 ≤ u.retries ∨ s.past (u.first + 4 * usFines) = true) ∧ (s.port p).there = false :=
  ⟨1, ⟨⟨0, 3, 1, 9, 5, []⟩, 8, 0, 0⟩, [], (portIn 2 { unacked := [⟨⟨0, 3, 1, 9, 5, []⟩, 8, 0, 0⟩] }).withTime 3276801, by decide +kernel⟩

theorem test_wit_LinkFramesComplete_5 : ∃ (p : Port) (tag : BitVec 8) (x : TagSt) (q id : Nat) (c : HostCmd) (r : List HostCmd) (s : State), (s.port p).tags.find? (fun y => decide (y.tag = tag.toNat)) = some x ∧ x.who = .cmd q id ∧ takeCmd id (s.queue q).started = some (c, r) ∧ (s.port p).held = [] :=
  ⟨1, 3, tag3 false, 2, 7, hc 0x50 [], [], withStarted (hc 0x50 []) (portIn 2 { tags := [tag3 false] }), by decide +kernel⟩

theorem test_wit_LinkFramesComplete_6 : ∃ (p o : Port) (tag : BitVec 8) (x : TagSt) (g src : Nat) (s : State), (s.port p).tags.find? (fun y => decide (y.tag = tag.toNat)) = some x ∧ x.who = .port o g src ∧ o ≠ p ∧ (s.port p).held = [] ∧ s.portActive o = true ∧ (s.port o).waiting = [] ∧ 0 < (s.port o).credRsp :=
  ⟨1, 4, 3, ⟨3, .port 4 9 5, false, 0⟩, 9, 5, ((portIn 2 { tags := [⟨3, .port 4 9 5, false, 0⟩] }).put (LNK_STATUS.STATE 4) 2).setPort 4 { credRsp := 1 }, by decide +kernel⟩

theorem test_wit_LinkFramesComplete_7 : ∃ (p : Port) (h : FrameHdr) (a count : Word) (s : State), Arrives p h s ∧ s.forMe h = true ∧ s.inService = true ∧ 0x1000000 ≤ a.toNat ∧ a.toNat < 0x2000000 ∧ a.toNat % 4 = 0 ∧ count = 1 ∧ (s.port p).waiting = [] ∧ 0 < (s.port p).credRsp :=
  ⟨1, hdr 9, 0x1FFFFFC, 1, portIn 2 { credRsp := 1 }, by unfold Arrives; decide +kernel⟩

theorem test_wit_LinkFramesComplete_8 : ∃ (p : Port) (h : FrameHdr) (a count : Word) (ecc : Ecc) (s : State), Arrives p h s ∧ s.forMe h = true ∧ remoteOk a.toNat count.toNat = false ∧ (s.port p).waiting = [] ∧ 0 < (s.port p).credRsp :=
  ⟨1, hdr 9, 0x3FFFFFC, 2, .clean, portIn 2 { credRsp := 1 }, by unfold Arrives; decide +kernel⟩

theorem test_wit_LinkFramesComplete_9 : ∃ (p : Port) (h : FrameHdr) (a count : Word) (ecc : Ecc) (o g : Nat) (s : State), Arrives p h s ∧ s.forMe h = false ∧ s.onward p h = some o ∧ s.freeTag o = some g ∧ (s.port o).held = [] ∧ s.portActive o = true ∧ (s.port o).waiting = [] ∧ 0 < (s.port o).credReq :=
  ⟨1, hdr 7, 0, 1, .clean, 0, 0, ((portIn 1 {}).put (LNK_STATUS.STATE 0) 2).setPort 0 { credReq := 1 }, by unfold Arrives; decide +kernel⟩

theorem test_wit_LinkFramesComplete_10 : ∃ (p : Port) (h : FrameHdr) (a count : Word) (ecc : Ecc) (o : Nat) (s : State), Arrives p h s ∧ s.forMe h = false ∧ s.onward p h = some o ∧ s.freeTag o = none :=
  ⟨1, hdr 7, 0, 1, .clean, 0, (portIn 1 {}).setPort 0 { tags := (List.range 256).map (fun g => ⟨g, .cmd 2 7, false, 0⟩) }, by unfold Arrives; decide +kernel⟩

theorem test_wit_LinkFramesComplete_11 : ∃ (p : Port) (h : FrameHdr) (a : Word) (words : List Word) (o g : Nat) (s : State), Arrives p h s ∧ s.forMe h = false ∧ s.onward p h = some o ∧ s.freeTag o = some g ∧ (s.port o).held = [] ∧ s.portActive o = true ∧ (s.port o).waiting = [] ∧ 0 < (s.port o).credReq :=
  ⟨1, hdr 7, 0, [1], 0, 0, ((portIn 1 {}).put (LNK_STATUS.STATE 0) 2).setPort 0 { credReq := 1 }, by unfold Arrives; decide +kernel⟩

theorem test_wit_LinkFramesComplete_12 : ∃ (p : Port) (h : FrameHdr) (a : Word) (words : List Word) (s : State), Arrives p h s ∧ s.forMe h = true ∧ s.inService = true ∧ 0x1000000 ≤ a.toNat ∧ a.toNat + 4 * words.length ≤ 0x2000000 ∧ a.toNat % 4 = 0 ∧ 1 ≤ words.length ∧ words.length ≤ 64 ∧ (s.port p).waiting = [] ∧ 0 < (s.port p).credRsp :=
  ⟨1, hdr 9, 0x1FFFFF8, [1, 2], portIn 2 { credRsp := 1 }, by unfold Arrives; decide +kernel⟩

theorem test_wit_LinkFramesComplete_13 : ∃ (p : Port) (h : FrameHdr) (words : List Word) (x : TagSt) (q id : Nat) (c : HostCmd) (r : List HostCmd) (s : State), Arrives p h s ∧ (s.port p).tags.find? (fun y => decide (y.tag = h.tag.toNat ∧ y.wr = false)) = some x ∧ x.who = .cmd q id ∧ takeCmd id (s.queue q).started = some (c, r) ∧ (s.port p).held = [] ∧ s.d3hot = false :=
  ⟨1, hdr 9, [5], tag3 false, 2, 7, hc 0x50 [], [], withStarted (hc 0x50 []) (portIn 2 { tags := [tag3 false] }), by unfold Arrives; decide +kernel⟩

theorem test_wit_LinkFramesComplete_14 : ∃ (p : Port) (h : FrameHdr) (words : List Word) (x : TagSt) (q id : Nat) (s : State), Arrives p h s ∧ (s.port p).tags.find? (fun y => decide (y.tag = h.tag.toNat ∧ y.wr = false)) = some x ∧ x.who = .cmd q id ∧ (s.port p).held = [] ∧ s.d3hot = true ∧ x.wr = false :=
  ⟨1, hdr 9, [5], tag3 false, 2, 7, (portIn 2 { tags := [tag3 false] }).withD3hot true, by unfold Arrives; decide +kernel⟩

theorem test_wit_LinkFramesComplete_15 : ∃ (p : Port) (h : FrameHdr) (x : TagSt) (q id : Nat) (c : HostCmd) (r : List HostCmd) (s : State), Arrives p h s ∧ (s.port p).tags.find? (fun y => decide (y.tag = h.tag.toNat ∧ y.wr = true)) = some x ∧ x.who = .cmd q id ∧ takeCmd id (s.queue q).started = some (c, r) ∧ (s.port p).held = [] :=
  ⟨1, hdr 9, tag3 true, 2, 7, hc 0x51 [], [], withStarted (hc 0x51 []) (portIn 2 { tags := [tag3 true] }), by unfold Arrives; decide +kernel⟩

theorem test_wit_LinkFramesComplete_16 : ∃ (p : Port) (h : FrameHdr) (status : Word) (s : State), Arrives p h s ∧ (∀ y ∈ (s.port p).tags, y.tag ≠ h.tag.toNat) ∧ (∃ y ∈ s.retiredTags p, y.1 = h.tag.toNat) :=
  ⟨1, hdr 9, 0, portIn 2 { retired := [(3, 99)] }, by unfold Arrives; decide +kernel⟩

theorem test_wit_LinkFramesComplete_17 : ∃ (p : Port) (h : FrameHdr) (record : List Word) (s : State), Arrives p h s ∧ s.forMe h = true ∧ s.role = 2 ∧ record.length = 8 ∧ bitsOf (record.getD 2 0).toNat 16 6 = 0 :=
  ⟨1, hdr 9, [1, 2, 3, 4, 5, 6, 7, 8], portIn 2 {}, by unfold Arrives; decide +kernel⟩

theorem test_wit_LinkFramesComplete_18 : ∃ (p : Port) (h : FrameHdr) (record : List Word) (s : State), s.portActive p = true ∧ s.mode ≠ .safe ∧ h.crcOk = false ∧ (s.port p).nak = false :=
  ⟨1, { hdr 9 with crcOk := false }, [], portIn 2 {}, by decide +kernel⟩

theorem test_wit_LinkFramesComplete_19 : ∃ (p : Port) (h : FrameHdr) (profile : List Word) (s : State), Arrives p h s ∧ s.forMe h = true ∧ s.role = 2 ∧ s.profMismatch h.src.toNat (profile.take 4) = 0 :=
  ⟨1, hdr 9, [0, 0, 0x02000000, 0], portIn 2 {}, by unfold Arrives; decide +kernel⟩

theorem test_wit_LinkFramesComplete_20 : ∃ s : State, s.hasManager = true ∧ s.portActive 0 = true ∧ (s.port 0).waiting = [] ∧ 0 < (s.port 0).credReq :=
  ⟨((portIn 1 {}).put (LNK_STATUS.STATE 0) 2).setPort 0 { credReq := 1 }, by decide +kernel⟩

theorem test_wit_LinkFramesComplete_21 : ∃ (p : Port) (h : FrameHdr) (sh : ShowId) (act : Act) (state reason : BitVec 8) (cycle at_ : BitVec 64) (s : State), Arrives p h s ∧ s.forMe h = true ∧ s.role = 2 :=
  ⟨1, hdr 9, 3, 15, 0, 2, 100, 100, portIn 2 {}, by unfold Arrives; decide +kernel⟩

theorem test_wit_ShowsAndWhistlesComplete_1 : ∃ (sh : ShowId) (d : Nat) (s : State), s.role = 2 ∧ s.flag (LNK_SHOW_CFG.RUNNING sh) = true ∧ d ∈ s.showDevs sh ∧ d ∉ (s.show_ sh).ran ∧ d ∉ (s.show_ sh).bad ∧ s.devBenched sh d = false ∧ s.flag (LNK_SHOW_CFG.ALL_OR_NONE sh) = false :=
  ⟨3, 5, ((portIn 2 {}).put (LNK_SHOW_CFG.RUNNING 3) 1).put (LNK_SHOW_DEV.DEVICES 3 0) 32, by decide +kernel⟩

theorem test_wit_ShowsAndWhistlesComplete_2 : ∃ (sh : ShowId) (s : State), s.role = 2 ∧ s.flag (LNK_SHOW_CFG.RUNNING sh) = true ∧ (∀ d ∈ s.showDevs sh, d ∈ (s.show_ sh).ran ∨ s.devBenched sh d = true) :=
  ⟨3, (portIn 2 {}).put (LNK_SHOW_CFG.RUNNING 3) 1, by decide +kernel⟩

theorem test_wit_ShowsAndWhistlesComplete_3 : ∃ (p : Port) (h : FrameHdr) (sh : ShowId) (clear : Bool) (s : State), Arrives p h s ∧ s.forMe h = true :=
  ⟨1, hdr 9, 3, false, portIn 1 {}, by unfold Arrives; decide +kernel⟩

theorem test_wit_ShowsAndWhistlesComplete_4 : ∃ (sh : ShowId) (i : Fin 9) (v : Word) (s : State), s.inService = true ∧ reservedBits (LNK_SHOW_BENCH.addr sh i) v = 0 ∧ (i = 8 → v.toNat < 131072) :=
  ⟨255, 8, 131071, portIn 2 {}, by decide +kernel⟩

theorem test_wit_ShowsAndWhistlesComplete_5 : ∃ (p : Port) (w : WhistleIn) (s : State), s.portActive p = true ∧ w.copies = true ∧ s.whistleDup w = false :=
  ⟨1, wIn, portIn 1 {}, by decide +kernel⟩

theorem test_wit_ShowsAndWhistlesComplete_6 : ∃ (p : Port) (w : WhistleIn) (at_ : BitVec 64) (s : State), s.portActive p = true ∧ w.copies = true ∧ s.whistleDup w = false ∧ s.flag (LNK_SHOW_CFG.BENCHED w.sh) = false ∧ s.flag SYS_STATUS.ORPHANED = false :=
  ⟨1, wIn, 9, portIn 1 {}, by decide +kernel⟩

theorem test_wit_ShowsAndWhistlesComplete_7 : ∃ (p : Port) (w : WhistleIn) (cue : BitVec 8) (at_ : BitVec 64) (s : State), s.portActive p = true ∧ w.copies = true ∧ s.whistleDup w = false :=
  ⟨1, wIn, 4, 9, portIn 1 {}, by decide +kernel⟩

theorem test_wit_ShowsAndWhistlesComplete_8 : ∃ (p : Port) (w : WhistleIn) (s : State), s.portActive p = true ∧ w.copies = true ∧ s.whistleDup w = true :=
  ⟨1, wIn, (portIn 1 {}).withWhistles { last := [(5, some (1, 0))] }, by decide +kernel⟩

theorem test_wit_ShowsAndWhistlesComplete_9 : ∃ (p : Port) (w : WhistleIn) (s : State), s.portActive p = true ∧ w.copies = false :=
  ⟨1, { wIn with copies := false }, portIn 1 {}, by decide +kernel⟩

theorem test_wit_ShowsAndWhistlesComplete_10 : ∃ (w : Whistle) (ws : List Whistle) (s : State), s.whistles.waiting = w :: ws :=
  ⟨{ wn := 0, kind := 1, show_ := 3, origin := 9 }, [], (portIn 2 {}).withWhistles { waiting := [{ wn := 0, kind := 1, show_ := 3, origin := 9 }] }, by decide +kernel⟩

theorem test_wit_ShowsAndWhistlesComplete_11 : ∃ (sh : ShowId) (s : State), s.inService = true ∧ s.whistleRoom = true :=
  ⟨255, portIn 2 {}, by decide +kernel⟩

theorem test_wit_ShowsAndWhistlesComplete_12 : ∃ (sh : ShowId) (s : State), s.inService = true ∧ s.whistleRoom = false :=
  ⟨255, (portIn 2 {}).withWhistles { times := List.replicate 128 0 }, by decide +kernel⟩

theorem test_wit_ShowsAndWhistlesComplete_13 : ∃ (sh : ShowId) (n : Act) (s : State), s.inService = true ∧ s.sendRefuse 4 sh (s.pair LNK_WHISTLE_TIME_LO.addr) = 0 ∧ s.flag (LNK_SHOW_CFG.BENCHED sh) = false ∧ s.flag SYS_STATUS.ORPHANED = false ∧ n.val ∈ s.showActs sh ∧ s.actState n = 0 :=
  ⟨3, 15, (((portIn 2 {}).put (LNK_SHOW_CFG.VALID 3) 1).put (LNK_SHOW_CFG.ACTS 3) 32768).setReg LNK_WHISTLE_TIME_HI.addr 1, by decide +kernel⟩

theorem test_wit_ShowsAndWhistlesComplete_14 : ∃ (sh : ShowId) (s : State), s.inService = true ∧ s.sendRefuse 4 sh (s.pair LNK_WHISTLE_TIME_LO.addr) ≠ 0 :=
  ⟨3, portIn 1 {}, by decide +kernel⟩

theorem test_wit_ShowsAndWhistlesComplete_15 : ∃ (sh : ShowId) (cue : BitVec 8) (s : State), s.inService = true ∧ s.sendRefuse 5 sh (s.pair LNK_WHISTLE_TIME_LO.addr) = 0 :=
  ⟨3, 9, (portIn 2 {}).put (LNK_SHOW_CFG.VALID 3) 1, by decide +kernel⟩

theorem test_wit_HostQueuesComplete_1 : ∃ (q : Queue) (v : Word) (s : State), s.inService = true ∧ reservedBits (HOST_Q_CFG.addr q) v = 0 ∧ wbit v 31 = true :=
  ⟨7, 0x80000000, inMode .idle, by decide +kernel⟩

theorem test_wit_HostQueuesComplete_2 : ∃ (q : Queue) (v : Word) (s : State), s.inService = true ∧ reservedBits (HOST_Q_CFG.addr q) v = 0 ∧ wbit v 31 = false :=
  ⟨7, 0, inMode .idle, by decide +kernel⟩

theorem test_wit_HostQueuesComplete_3 : ∃ (q : Queue) (v : Word) (s : State), s.inService = true ∧ reservedBits (HOST_Q_SQ_TAIL.addr q) v = 0 ∧ ringPasses (s.fld (HOST_Q_SQ_TAIL.TAIL q)) (wfld v (HOST_Q_SQ_TAIL.TAIL q)) (s.fld (HOST_Q_SQ_HEAD.HEAD q)) true = false :=
  ⟨7, 1023, inMode .idle, by decide +kernel⟩

theorem test_wit_HostQueuesComplete_4 : ∃ (q : Queue) (v : Word) (s : State), s.inService = true ∧ reservedBits (HOST_Q_CQ_HEAD.addr q) v = 0 ∧ s.cqFull q = false ∧ ringPasses (s.fld (HOST_Q_CQ_HEAD.HEAD q)) (wfld v (HOST_Q_CQ_HEAD.HEAD q)) (s.fld (HOST_Q_CQ_TAIL.TAIL q)) false = false :=
  ⟨7, 0, inMode .idle, by decide +kernel⟩

theorem test_wit_HostQueuesComplete_5 : ∃ (q : Queue) (c : HostCmd) (s : State), s.mode ≠ .off ∧ s.canFetch q = true ∧ (∀ p, p < q.val → s.fetchFirst p = false) ∧ (∀ w ∈ (s.queue q).window, w.id ≠ c.id.toNat) ∧ (∀ d ∈ (s.queue q).waiting ++ (s.queue q).started ++ (s.queue q).cut, d.id ≠ c.id) ∧ (∀ o ∈ (s.queue q).done, o.id ≠ c.id.toNat) :=
  ⟨2, hc 0 [], ((inMode .idle).put (HOST_Q_CFG.EN 2) 1).put (HOST_Q_SQ_TAIL.TAIL 2) 1, by decide +kernel⟩

theorem test_wit_HostQueuesComplete_6 : ∃ (q : Queue) (c : HostCmd) (w : Compl) (s : State), s.mode ≠ .off ∧ s.canFetch q = true ∧ (∀ p, p < q.val → s.fetchFirst p = false) ∧ (s.queue q).window.find? (fun x => decide (x.id = c.id.toNat)) = some w :=
  ⟨2, hc 0 [], { id := 7, status := 0, result := 0 }, (((inMode .idle).put (HOST_Q_CFG.EN 2) 1).put (HOST_Q_SQ_TAIL.TAIL 2) 1).setQueue 2 { window := [{ id := 7, status := 0, result := 0 }] }, by decide +kernel⟩

theorem test_wit_HostQueuesComplete_7 : ∃ (q : Queue) (c d : HostCmd) (s : State), s.mode ≠ .off ∧ s.canFetch q = true ∧ (∀ p, p < q.val → s.fetchFirst p = false) ∧ (∀ w ∈ (s.queue q).window, w.id ≠ c.id.toNat) ∧ d ∈ (s.queue q).waiting ++ (s.queue q).started ++ (s.queue q).cut ∧ d.id = c.id :=
  ⟨2, hc 0 [], hc 0 [], ((withCmd (hc 0 []) (inMode .idle)).put (HOST_Q_CFG.EN 2) 1).put (HOST_Q_SQ_TAIL.TAIL 2) 1, by decide +kernel⟩

theorem test_wit_HostQueuesComplete_8 : ∃ (q : Queue) (c : HostCmd) (s : State), (s.mode = .off ∨ s.canFetch q = false ∨ (∃ p, p < q.val ∧ s.fetchFirst p = true)) :=
  ⟨7, hc 0 [], inMode .idle, by decide +kernel⟩

theorem test_wit_HostQueuesComplete_9 : ∃ (q : Queue) (o w : Compl) (os : List Compl) (s : State), (s.queue q).done = o :: os ∧ w = { o with at_ := some (o.at_.getD s.time.toNat) } ∧ (∀ d ∈ (s.queue q).started ++ (s.queue q).cut, d.opcode ≠ 0x20 ∧ d.opcode ≠ 0x23) ∧ s.cqRoom q = true ∧ s.d3hot = false :=
  ⟨2, { id := 7, status := 0, result := 5 }, { id := 7, status := 0, result := 5, at_ := some 0 }, [], (inMode .idle).setQueue 2 { done := [{ id := 7, status := 0, result := 5 }] }, by decide +kernel⟩

theorem test_wit_HostQueuesComplete_10 : ∃ (q : Queue) (c : HostCmd) (n : Nat) (ns : List Nat) (s : State), (s.queue q).started = [c] ∧ (s.queue q).cut = [] ∧ c.opcode = 0x23 ∧ bitList (argOf c 0) 16 0 = n :: ns ∧ s.actsStopped (argOf c 0) = true ∧ s.cqRoom q = false :=
  ⟨2, hc 0x23 [8], 3, [], (withStarted (hc 0x23 [8]) (inMode .idle)).put (HOST_Q_CQ_HEAD.HEAD 2) 1, by decide +kernel⟩

theorem test_wit_HostQueuesComplete_11 : ∃ (q : Queue) (c : HostCmd) (s : State), (s.queue q).started = [c] ∧ (s.queue q).cut = [] ∧ c.opcode = 0x20 ∧ (∀ n ∈ bitList (argOf c 0) 16 0, s.startPending n = false) ∧ s.cqRoom q = false :=
  ⟨2, hc 0x20 [8], (withStarted (hc 0x20 [8]) (inMode .idle)).put (HOST_Q_CQ_HEAD.HEAD 2) 1, by decide +kernel⟩

theorem test_wit_HostQueuesComplete_12 : ∃ (q : Queue) (c : HostCmd) (r : List HostCmd) (s : State), (s.queue q).waiting = c :: r ∧ timeoutBounds c.opcode.toNat = true :=
  ⟨2, hc 0x20 [1], [], withCmd (hc 0x20 [1]) (inMode .idle), by decide +kernel⟩

theorem test_wit_HostQueuesComplete_13 : ∃ (q : Queue) (c : HostCmd) (r : List HostCmd) (j : NvmJob) (s : State), takeCmd c.id.toNat (s.queue q).waiting = none ∧ s.nvm = some j ∧ j.src = .cmd q c.id.toNat ∧ s.jobUnit = true ∧ j.owed = false ∧ takeCmd c.id.toNat (s.queue q).started = some (c, r) :=
  ⟨2, hc 0x30 [], [], { op := 1, addr := 0, len := 300, slot := 0, todo := [], src := .cmd 2 7 }, ((withStarted (hc 0x30 []) (inMode .idle)).withNvm (some { op := 1, addr := 0, len := 300, slot := 0, todo := [], src := .cmd 2 7 })).withUnit (some (.read 0 256)), by decide +kernel⟩

theorem test_wit_HostQueuesComplete_14 : ∃ (q : Queue) (c : HostCmd) (r : List HostCmd) (j : NvmJob) (s : State), takeCmd c.id.toNat (s.queue q).waiting = none ∧ s.nvm = some j ∧ j.src = .cmd q c.id.toNat ∧ j.owed = true ∧ takeCmd c.id.toNat (s.queue q).started = some (c, r) ∧ (∀ d ∈ r ++ (s.queue q).cut, d.id ≠ c.id) :=
  ⟨2, hc 0x41 [], [], { op := 1, addr := 0, len := 300, slot := 0, todo := [], src := .cmd 2 7, owed := true }, (withStarted (hc 0x41 []) (inMode .idle)).withNvm (some { op := 1, addr := 0, len := 300, slot := 0, todo := [], src := .cmd 2 7, owed := true }), by decide +kernel⟩

theorem test_wit_HostQueuesComplete_15 : ∃ s : State, s.mode ≠ .off :=
  ⟨inMode .idle, by decide +kernel⟩

theorem test_wit_HostQueuesComplete_16 : ∃ s : State, s.mode ≠ .off :=
  ⟨inMode .run, by decide +kernel⟩

theorem test_wit_HostQueuesComplete_17 : ∃ s : State, s.mode ≠ .off :=
  ⟨inMode .idle, by decide +kernel⟩

theorem test_wit_HostQueuesComplete_18 : ∃ s : State, s.mode ≠ .off ∧ (∀ q : Queue, (s.queue q).owed = []) ∧ (∀ j, s.nvm = some j → j.owed = false) :=
  ⟨(inMode .idle).withD3hot true, by decide +kernel⟩

theorem test_wit_HostQueuesComplete_19 : ∃ (q : Queue) (id : Nat) (words : List Word) (c : HostCmd) (r : List HostCmd) (s : State), s.mode ≠ .off ∧ s.nvm = none ∧ (s.queue q).owed = [(id, words)] ∧ (∀ p : Queue, p ≠ q → (s.queue p).owed = []) ∧ takeCmd id (s.queue q).started = some (c, r) :=
  ⟨2, 7, [5], hc 0x50 [9, 9, 9, 0x1000], [], ((inMode .idle).setQueue 2 { started := [hc 0x50 [9, 9, 9, 0x1000]], owed := [(7, [5])] }).withD3hot true, by decide +kernel⟩

theorem test_wit_HostQueuesComplete_20 : ∃ s : State, s.mode ≠ .off :=
  ⟨inMode .idle, by decide +kernel⟩

theorem test_wit_HostQueuesComplete_21 : ∃ (t0 : Nat) (s : State), s.evtDefer = true ∧ s.evtIrq = some t0 ∧ (s.at_ (t0 + usFines)).past (t0 + usFines) = true ∧ s.fld EVT_CFG.IRQ_LEVEL ≠ 0 ∧ s.fld EVT_CFG.IRQ_LEVEL ≤ s.unread :=
  ⟨9, ((((inMode .idle).put EVT_WR.COUNT 3).put EVT_CFG.IRQ_LEVEL 2).withEvtDefer true).withEvtIrq (some 9), by decide +kernel⟩

theorem test_wit_HostTransfersComplete_1 : ∃ (q : Queue) (c : HostCmd) (s : State), MayStart q 0 c s :=
  ⟨2, hc 0 [], withCmd (hc 0 []) (inMode .idle), by unfold MayStart; decide +kernel⟩

theorem test_wit_HostTransfersComplete_2 : ∃ (q : Queue) (c : HostCmd) (s : State), MayStart q 1 c s ∧ s.d3hot = false ∧ remoteOk (argOf c 0) (argOf c 1) = true :=
  ⟨2, hc 1 [0x10, 1, 0x1000], withCmd (hc 1 [0x10, 1, 0x1000]) (inMode .idle), by unfold MayStart; decide +kernel⟩

theorem test_wit_HostTransfersComplete_3 : ∃ (q : Queue) (c : HostCmd) (s : State), MayStart q 1 c s ∧ s.d3hot = false ∧ remoteOk (argOf c 0) (argOf c 1) = false :=
  ⟨2, hc 1 [0x10, 65, 0x1000], withCmd (hc 1 [0x10, 65, 0x1000]) (inMode .idle), by unfold MayStart; decide +kernel⟩

theorem test_wit_HostTransfersComplete_4 : ∃ (q : Queue) (c : HostCmd) (bs : List Byte) (s : State), MayStart q 2 c s ∧ s.inService = true ∧ remoteOk (argOf c 0) (argOf c 1) = true ∧ 0x1000000 ≤ argOf c 0 ∧ argOf c 0 < 0x2000000 ∧ bs.length = 4 * argOf c 1 ∧ (∀ e ∈ (s.queue q).writes, e.1 ≠ c.id.toNat) :=
  ⟨2, hc 2 [0x1FFFFF8, 2, 0x1000], [1, 2, 3, 4, 5, 6, 7, 8], withCmd (hc 2 [0x1FFFFF8, 2, 0x1000]) (inMode .idle), by unfold MayStart; decide +kernel⟩

theorem test_wit_HostTransfersComplete_5 : ∃ (q : Queue) (c : HostCmd) (r : List HostCmd) (data : HostData) (a : Nat) (w : Word) (ws : List Word) (s : State), s.inService = true ∧ (s.queue q).writes.find? (fun e => decide (e.1 = c.id.toNat)) = some (c.id.toNat, a, w :: ws) ∧ a % 4 = 0 ∧ 0x1000000 ≤ a ∧ a < 0x2000000 ∧ takeCmd c.id.toNat (s.queue q).started = some (c, r) :=
  ⟨2, hc 2 [], [], .bytes [], 0x1000004, 5, [6], (inMode .idle).setQueue 2 { started := [hc 2 []], writes := [(7, 0x1000004, [5, 6])] }, by decide +kernel⟩

theorem test_wit_HostTransfersComplete_6 : ∃ (q : Queue) (c : HostCmd) (e : DmaErr) (s : State), MayStart q 2 c s ∧ remoteOk (argOf c 0) (argOf c 1) = true ∧ (∀ e ∈ (s.queue q).writes, e.1 ≠ c.id.toNat) :=
  ⟨2, hc 2 [0x10, 1, 0x1000], .timeout, withCmd (hc 2 [0x10, 1, 0x1000]) (inMode .idle), by unfold MayStart; decide +kernel⟩

theorem test_wit_HostTransfersComplete_7 : ∃ (q : Queue) (c : HostCmd) (bs : List Byte) (s : State), MayStart q 0x10 c s ∧ dmaRange (argOf c 1) (argOf c 2) = true ∧ bs.length = argOf c 2 ∧ Clear (argOf c 1) bs.length s :=
  ⟨2, hc 0x10 [0, 64, 4], [1, 2, 3, 4], withCmd (hc 0x10 [0, 64, 4]) (inMode .idle), by unfold MayStart Clear; decide +kernel⟩

theorem test_wit_HostTransfersComplete_8 : ∃ (q : Queue) (c : HostCmd) (bs : List Byte) (s : State), s.headCmd q c.id 0x10 = some c ∧ s.mode = .safe :=
  ⟨2, hc 0x10 [0, 64, 4], [1, 2, 3, 4], withCmd (hc 0x10 [0, 64, 4]) (inMode .safe), by decide +kernel⟩

theorem test_wit_HostTransfersComplete_9 : ∃ (q : Queue) (c : HostCmd) (s : State), MayStart q 0x11 c s ∧ s.d3hot = false ∧ dmaRange (argOf c 0) (argOf c 2) = true :=
  ⟨2, hc 0x11 [64, 0, 4], withCmd (hc 0x11 [64, 0, 4]) (inMode .idle), by unfold MayStart; decide +kernel⟩

theorem test_wit_HostTransfersComplete_10 : ∃ (q : Queue) (c : HostCmd) (bs : List Byte) (s : State), MayStart q 0x12 c s ∧ bankRange c = true ∧ s.halfExecuting (argOf c 1 % 16) (argOf c 1 / 16) = false ∧ bs.length = argOf c 3 :=
  ⟨2, hc 0x12 [0, 31, 1048560, 16], leBytes 16 7, withCmd (hc 0x12 [0, 31, 1048560, 16]) (inMode .idle), by unfold MayStart; decide +kernel⟩

theorem test_wit_HostTransfersComplete_11 : ∃ (q : Queue) (c : HostCmd) (bs : List Byte) (s : State), MayStart q 0x12 c s ∧ bankRange c = true ∧ s.halfExecuting (argOf c 1 % 16) (argOf c 1 / 16) = true ∧ bs.length = argOf c 3 :=
  ⟨2, hc 0x12 [0, 3, 0, 16], leBytes 16 7, withCmd (hc 0x12 [0, 3, 0, 16]) (actOn 3), by unfold MayStart; decide +kernel⟩

theorem test_wit_HostTransfersComplete_12 : ∃ (q : Queue) (c : HostCmd) (bs : List Byte) (n b : Nat) (s : State), MayStart q 0x13 c s ∧ blockRange c = true ∧ blockArgs c = (n, b, false) ∧ s.executing n = false ∧ bs.length = s.blockLen c ∧ (s.blockEntry n b).1 + (s.blockEntry n b).2.1 * (s.blockEntry n b).2.2.1 ≤ dramSize ∧ Clear (s.blockEntry n b).1 bs.length s ∧ ((s.blockEntry n b).1 + bs.length ≤ s.blockFlags n b ∨ s.blockFlags n b < (s.blockEntry n b).1) :=
  ⟨2, hc 0x13 [0, 3], [1, 2, 3, 4], 3, 0, withCmd (hc 0x13 [0, 3]) ((inMode .idle).dramPut 0 (leBytes 8 4096 ++ leBytes 4 1 ++ leBytes 2 4)), by unfold MayStart Clear; decide +kernel⟩

theorem test_wit_HostTransfersComplete_13 : ∃ (q : Queue) (c : HostCmd) (k : BitVec 256) (raw : List Byte) (n b : Nat) (s : State), MayStart q 0x13 c s ∧ blockRange c = true ∧ blockArgs c = (n, b, true) ∧ s.executing n = false ∧ raw.length = s.blockLen c ∧ (s.blockEntry n b).1 + (s.blockEntry n b).2.1 * (s.blockEntry n b).2.2.1 ≤ dramSize ∧ s.otp.patternKey = some k :=
  ⟨2, hc 0x13 [0, 0x100000003], 5, List.replicate 32 9, 3, 0, (withCmd (hc 0x13 [0, 0x100000003]) ((inMode .idle).dramPut 0 (leBytes 8 4096 ++ leBytes 4 1 ++ leBytes 2 4))).withOtp { patternKey := some 5 }, by unfold MayStart; decide +kernel⟩

theorem test_wit_HostTransfersComplete_14 : ∃ (q : Queue) (c : HostCmd) (raw : List Byte) (n b : Nat) (s : State), MayStart q 0x13 c s ∧ blockRange c = true ∧ blockArgs c = (n, b, true) ∧ s.executing n = false ∧ raw.length = s.blockLen c ∧ (s.blockEntry n b).1 + (s.blockEntry n b).2.1 * (s.blockEntry n b).2.2.1 ≤ dramSize ∧ s.otp.patternKey = none :=
  ⟨2, hc 0x13 [0, 0x100000003], List.replicate 32 9, 3, 0, withCmd (hc 0x13 [0, 0x100000003]) ((inMode .idle).dramPut 0 (leBytes 8 (dramSize - 4) ++ leBytes 4 1 ++ leBytes 2 4)), by unfold MayStart; decide +kernel⟩

theorem test_wit_HostTransfersComplete_15 : ∃ (q : Queue) (c : HostCmd) (n b : Nat) (enc : Bool) (e : DmaErr) (s : State), MayStart q 0x13 c s ∧ blockRange c = true ∧ blockArgs c = (n, b, enc) ∧ s.executing n = false ∧ (s.blockEntry n b).1 + (s.blockEntry n b).2.1 * (s.blockEntry n b).2.2.1 ≤ dramSize :=
  ⟨2, hc 0x13 [0, 3], 3, 0, false, .abort, withCmd (hc 0x13 [0, 3]) ((inMode .idle).dramPut 0 (leBytes 8 (dramSize - 4) ++ leBytes 4 1 ++ leBytes 2 4)), by unfold MayStart; decide +kernel⟩

theorem test_wit_HostTransfersComplete_16 : ∃ (q : Queue) (c : HostCmd) (n b : Nat) (enc : Bool) (e : DmaErr) (s : State), MayStart q 0x13 c s ∧ blockRange c = true ∧ blockArgs c = (n, b, enc) ∧ s.executing n = true :=
  ⟨2, hc 0x13 [0, 3], 3, 0, false, .poisoned, withCmd (hc 0x13 [0, 3]) (actOn 3), by unfold MayStart; decide +kernel⟩

theorem test_wit_HostCommandsComplete_1 : ∃ (q : Queue) (c : HostCmd) (s : State), MayStart q 0x20 c s ∧ argOf c 0 < 65536 :=
  ⟨2, hc 0x20 [0xFFFF], withCmd (hc 0x20 [0xFFFF]) (inMode .idle), by unfold MayStart; decide +kernel⟩

theorem test_wit_HostCommandsComplete_2 : ∃ (q : Queue) (c : HostCmd) (s : State), MayStart q 0x21 c s ∧ argOf c 0 < 65536 :=
  ⟨2, hc 0x21 [0xFFFF], withCmd (hc 0x21 [0xFFFF]) (actOn 3), by unfold MayStart; decide +kernel⟩

theorem test_wit_HostCommandsComplete_3 : ∃ (q : Queue) (c : HostCmd) (s : State), MayStart q 0x22 c s ∧ argOf c 0 < 65536 ∧ (∀ n : Act, bitOf (argOf c 0) n = true → s.startPending n = false) :=
  ⟨2, hc 0x22 [0xFFFF], withCmd (hc 0x22 [0xFFFF]) (actOn 3), by unfold MayStart; decide +kernel⟩

theorem test_wit_HostCommandsComplete_4 : ∃ (q p : Queue) (c d : HostCmd) (n : Act) (s : State), MayStart q 0x22 c s ∧ argOf c 0 < 65536 ∧ bitOf (argOf c 0) n = true ∧ s.startPending n = true ∧ d ∈ (s.queue p).started ∧ d.opcode = 0x20 ∧ bitOf (argOf d 0) n = true ∧ outcome c 0 0 ∉ (s.queue q).done :=
  ⟨2, 5, hc 0x22 [8], hc 0x20 [8], 3, ((withCmd (hc 0x22 [8]) (inMode .idle)).setQueue 5 { started := [hc 0x20 [8]] }).put (SEQ_STATUS.STATE 3) 1, by unfold MayStart; decide +kernel⟩

theorem test_wit_HostCommandsComplete_5 : ∃ (q : Queue) (c : HostCmd) (n : Nat) (ns : List Nat) (s : State), MayStart q 0x23 c s ∧ argOf c 0 < 65536 ∧ bitList (argOf c 0) 16 0 = n :: ns ∧ s.actsStopped (argOf c 0) = true ∧ (∀ d ∈ (s.queue q).started, d.opcode ≠ 0x23) :=
  ⟨2, hc 0x23 [4], 2, [], withCmd (hc 0x23 [4]) (actOn 3), by unfold MayStart; decide +kernel⟩

theorem test_wit_HostCommandsComplete_6 : ∃ (q : Queue) (c : HostCmd) (s : State), MayStart q 0x23 c s ∧ argOf c 0 < 65536 ∧ s.actsStopped (argOf c 0) = false ∧ (∀ d ∈ (s.queue q).started, d.opcode ≠ 0x23) :=
  ⟨2, hc 0x23 [8], withCmd (hc 0x23 [8]) (actOn 3), by unfold MayStart; decide +kernel⟩

theorem test_wit_HostCommandsComplete_7 : ∃ (q : Queue) (c : HostCmd) (s : State), MayStart q 0x30 c s :=
  ⟨2, hc 0x30 [5], withCmd (hc 0x30 [5]) (inMode .idle), by unfold MayStart; decide +kernel⟩

theorem test_wit_HostCommandsComplete_8 : ∃ (q : Queue) (c : HostCmd) (s : State), MayStart q 0x31 c s ∧ argOf c 0 < 64 ∧ s.rq.fin = none ∧ s.flag RQ_STATUS.CLEARING = false ∧ s.ringExecuting (argOf c 0) = false :=
  ⟨2, hc 0x31 [63, 0], withCmd (hc 0x31 [63, 0]) (inMode .idle), by unfold MayStart; decide +kernel⟩

theorem test_wit_HostCommandsComplete_9 : ∃ (q : Queue) (c : HostCmd) (s : State), MayStart q 0x32 c s ∧ argOf c 0 < 64 ∧ s.rq.fin = none ∧ s.flag RQ_STATUS.CLEARING = false ∧ s.ringExecuting (argOf c 0) = false :=
  ⟨2, hc 0x32 [63], withCmd (hc 0x32 [63]) (inMode .idle), by unfold MayStart; decide +kernel⟩

theorem test_wit_HostCommandsComplete_10 : ∃ (q : Queue) (c : HostCmd) (s : State), MayStart q 0x40 c s ∧ argOf c 0 = 2 ∧ s.mode = .idle ∧ s.flag SYS_STATUS.TRANSIT = false ∧ (∀ n, n < 16 → s.actState n ≠ 1 ∧ s.actState n ≠ 2) :=
  ⟨2, hc 0x40 [2], withCmd (hc 0x40 [2]) ((inMode .idle).put SYS_STATUS.TRANSIT 0), by unfold MayStart; decide +kernel⟩

theorem test_wit_HostCommandsComplete_11 : ∃ (q : Queue) (c : HostCmd) (s : State), MayStart q 0x40 c s ∧ argOf c 0 = 3 ∧ s.mode ≠ .cal ∧ s.flag SYS_STATUS.TRANSIT = false :=
  ⟨2, hc 0x40 [3], withCmd (hc 0x40 [3]) ((inMode .idle).put SYS_STATUS.TRANSIT 0), by unfold MayStart; decide +kernel⟩

theorem test_wit_HostCommandsComplete_12 : ∃ (q : Queue) (c : HostCmd) (data : HostData) (s : State), MayStart q 0x41 c s ∧ argOf c 0 = 1 ∧ argOf c 4 ≤ 1 ∧ s.nvm = none ∧ s.unit = none ∧ s.persistWants = false ∧ s.shed = none ∧ s.persist.ahead = none ∧ s.persist.wipe = none ∧ s.nvmRefuse 1 (argOf c 1) (min (argOf c 2) 65536) 0 false = 0 :=
  ⟨2, hc 0x41 [1, 0, 4], .bytes [], withCmd (hc 0x41 [1, 0, 4]) (nv (inMode .idle)), by unfold MayStart; decide +kernel⟩

theorem test_wit_HostCommandsComplete_13 : ∃ (q : Queue) (c : HostCmd) (data : HostData) (s : State), MayStart q 0x41 c s ∧ argOf c 0 = 3 ∧ argOf c 4 ≤ 1 ∧ s.nvm = none ∧ s.nvmRefuse 3 (argOf c 1) (argOf c 2) (argOf c 4) false ≠ 0 :=
  ⟨2, hc 0x41 [3, 1, 0], .bytes [], withCmd (hc 0x41 [3, 1, 0]) (nv (inMode .idle)), by unfold MayStart; decide +kernel⟩

theorem test_wit_HostCommandsComplete_14 : ∃ (q : Queue) (c : HostCmd) (p g : Nat) (s : State), MayStart q 0x50 c s ∧ remoteRange c = true ∧ s.remotePort (argOf c 0) = some p ∧ s.freeTag p = some g ∧ (s.port p).held = [] ∧ s.portActive p = true ∧ (s.port p).waiting = [] ∧ 0 < (s.port p).credReq :=
  ⟨2, hc 0x50 [5, 0x10, 1], 5, 0, withCmd (hc 0x50 [5, 0x10, 1]) (((portIn 2 {}).put (LNK_STATUS.STATE 5) 2).setPort 5 { credReq := 1 }), by unfold MayStart; decide +kernel⟩

theorem test_wit_HostCommandsComplete_15 : ∃ (q : Queue) (c : HostCmd) (s : State), MayStart q 0x50 c s ∧ remoteRange c = true ∧ s.remotePort (argOf c 0) = none :=
  ⟨2, hc 0x50 [9, 0x10, 1], withCmd (hc 0x50 [9, 0x10, 1]) (portIn 2 {}), by unfold MayStart; decide +kernel⟩

theorem test_wit_HostCommandsComplete_16 : ∃ (q : Queue) (c : HostCmd) (s : State), MayStart q 0x50 c s ∧ remoteRange c = true ∧ s.remoteReady (argOf c 0) = false :=
  ⟨2, hc 0x50 [5, 0x10, 1], withCmd (hc 0x50 [5, 0x10, 1]) ((portIn 2 {}).setPort 5 { tags := (List.range 256).map (fun g => ⟨g, .cmd 2 7, false, 0⟩) }), by unfold MayStart; decide +kernel⟩

theorem test_wit_HostCommandsComplete_17 : ∃ (q : Queue) (c : HostCmd) (bs : List Byte) (p g : Nat) (s : State), MayStart q 0x51 c s ∧ remoteRange c = true ∧ bs.length = 4 * argOf c 2 ∧ s.remotePort (argOf c 0) = some p ∧ s.freeTag p = some g ∧ (s.port p).held = [] ∧ s.portActive p = true ∧ (s.port p).waiting = [] ∧ 0 < (s.port p).credReq :=
  ⟨2, hc 0x51 [5, 0x10, 1], [1, 2, 3, 4], 5, 0, withCmd (hc 0x51 [5, 0x10, 1]) (((portIn 2 {}).put (LNK_STATUS.STATE 5) 2).setPort 5 { credReq := 1 }), by unfold MayStart; decide +kernel⟩

theorem test_wit_HostCommandsComplete_18 : ∃ (q : Queue) (c : HostCmd) (s : State), MayStart q 0x52 c s ∧ whistleRange c = true ∧ s.sendRefuse (bitsOf (argOf c 0) 0 3) (bitsOf (argOf c 0) 8 8) (argOf c 1) = 0 :=
  ⟨2, hc 0x52 [0x301], withCmd (hc 0x52 [0x301]) (portIn 2 {}), by unfold MayStart; decide +kernel⟩

theorem test_wit_HostCommandsComplete_19 : ∃ (q : Queue) (c : HostCmd) (s : State), MayStart q 0x52 c s ∧ whistleRange c = true ∧ s.sendRefuse (bitsOf (argOf c 0) 0 3) (bitsOf (argOf c 0) 8 8) (argOf c 1) ≠ 0 :=
  ⟨2, hc 0x52 [0x304, 0], withCmd (hc 0x52 [0x304, 0]) (portIn 2 {}), by unfold MayStart; decide +kernel⟩

theorem test_wit_SignedRequestsComplete_1 : ∃ (q : Queue) (c : HostCmd) (b : List Byte) (s : State), MayStart q 0x60 c s ∧ b.length = argOf c 1 ∧ Passes b s ∧ reqType b = 1 ∧ s.nvm = none ∧ s.nvmRefuse 6 0 0 0 true = 0 :=
  ⟨2, hc 0x60 [0, 128], request 1 0x80 [], withCmd (hc 0x60 [0, 128]) (nv (inMode .idle)), by unfold MayStart Passes; decide +kernel⟩

theorem test_wit_SignedRequestsComplete_2 : ∃ (q : Queue) (c : HostCmd) (b : List Byte) (s : State), MayStart q 0x60 c s ∧ b.length = argOf c 1 ∧ Passes b s ∧ reqType b = 2 ∧ s.lc = none ∧ s.energyOk = true ∧ s.shed = none :=
  ⟨2, hc 0x60 [0, 228], request 2 0x80 (leBytes 4 2 ++ List.replicate 96 1), withCmd (hc 0x60 [0, 228]) (ready (inMode .idle)), by unfold MayStart Passes; decide +kernel⟩

theorem test_wit_SignedRequestsComplete_3 : ∃ (q : Queue) (c : HostCmd) (b : List Byte) (s : State), MayStart q 0x60 c s ∧ b.length = argOf c 1 ∧ Passes b s ∧ reqType b = 3 ∧ s.lc = none ∧ s.energyOk = true ∧ s.shed = none :=
  ⟨2, hc 0x60 [0, 132], request 3 0x80 (leBytes 4 1), withCmd (hc 0x60 [0, 132]) ((ready (inMode .idle)).put LC_STATE.STATE 1), by unfold MayStart Passes; decide +kernel⟩

theorem test_wit_SignedRequestsComplete_4 : ∃ (q : Queue) (c : HostCmd) (b : List Byte) (s : State), MayStart q 0x60 c s ∧ b.length = argOf c 1 ∧ Passes b s ∧ reqType b = 4 ∧ s.lc = none ∧ s.energyOk = true ∧ s.shed = none :=
  ⟨2, hc 0x60 [0, 160], request 4 0x80 (List.replicate 32 1), withCmd (hc 0x60 [0, 160]) (ready (inMode .idle)), by unfold MayStart Passes; decide +kernel⟩

theorem test_wit_SignedRequestsComplete_5 : ∃ (q : Queue) (c : HostCmd) (b : List Byte) (s : State), MayStart q 0x60 c s ∧ b.length = argOf c 1 ∧ Passes b s ∧ reqType b = 0x10 ∧ s.lc = none ∧ s.energyOk = true ∧ s.shed = none :=
  ⟨2, hc 0x60 [0, 128], request 0x10 0x80 [], withCmd (hc 0x60 [0, 128]) (((ready (inMode .idle)).put LC_STATE.STATE 1).put LC_STATE.RMA_PIN 1), by unfold MayStart Passes; decide +kernel⟩

theorem test_wit_SignedRequestsComplete_6 : ∃ (q : Queue) (c : HostCmd) (b : List Byte) (s : State), MayStart q 0x60 c s ∧ b.length = argOf c 1 ∧ reqType b = 3 ∧ s.fld LC_TOKEN_STATUS.BADSIG = 8 :=
  ⟨2, hc 0x60 [0, 132], request 3 0x80 (leBytes 4 1), withCmd (hc 0x60 [0, 132]) ((inMode .idle).put LC_TOKEN_STATUS.BADSIG 8), by unfold MayStart; decide +kernel⟩

theorem test_wit_LifeCycleCommandsComplete_1 : ∃ s : State, s.lcMode = true ∧ s.flag LC_TOKEN_STATUS.BUSY = false ∧ s.lcState = 0 ∧ s.lc = none ∧ s.energyOk = true ∧ s.shed = none ∧ (∀ k, k < 3 → s.otp.fails (.integration k) = false) :=
  ⟨ready (inMode .idle), by decide +kernel⟩

theorem test_wit_LifeCycleCommandsComplete_2 : ∃ s : State, s.lcMode = true ∧ s.flag LC_TOKEN_STATUS.BUSY = false ∧ s.lcState = 1 ∧ s.lc = none ∧ s.energyOk = true ∧ s.shed = none ∧ s.keyLeft none = true ∧ (∀ k, k < 3 → s.otp.fails (.field k) = false) :=
  ⟨(ready (inMode .idle)).put LC_STATE.STATE 1, by decide +kernel⟩

theorem test_wit_LifeCycleCommandsComplete_3 : ∃ s : State, s.lcMode = true ∧ s.flag LC_TOKEN_STATUS.BUSY = false ∧ s.lcState = 0 ∧ s.lc = none ∧ s.energyOk = true ∧ s.shed = none ∧ s.otp.integration = 0 ∧ s.otp.fails (.integration 0) = true :=
  ⟨(ready (inMode .idle)).withOtp { integration := 0, defects := [(Blow.integration 0).fuse] }, by decide +kernel⟩

theorem test_wit_LifeCycleCommandsComplete_4 : ∃ s : State, s.lcMode = true ∧ s.flag LC_TOKEN_STATUS.BUSY = false ∧ s.lcState ≠ 0 :=
  ⟨(ready (inMode .safe)).put LC_STATE.STATE 2, by decide +kernel⟩

theorem test_wit_LifeCycleCommandsComplete_5 : ∃ s : State, s.lcMode = true ∧ s.flag LC_TOKEN_STATUS.BUSY = false ∧ s.lcState = 1 ∧ s.keyLeft none = false :=
  ⟨(inMode .idle).put LC_STATE.STATE 1, by decide +kernel⟩

theorem test_wit_LifeCycleCommandsComplete_6 : ∃ s : State, s.mode ≠ .off ∧ s.lcMode = false ∧ s.flag LC_TOKEN_STATUS.BUSY = false :=
  ⟨inMode .run, by decide +kernel⟩

theorem test_wit_LifeCycleCommandsComplete_7 : ∃ s : State, s.mode ≠ .off :=
  ⟨inMode .idle, by decide +kernel⟩

theorem test_wit_LifeCycleCommandsComplete_8 : ∃ s : State, s.mode ≠ .off :=
  ⟨inMode .idle, by decide +kernel⟩

theorem test_wit_LifeCycleCommandsComplete_9 : ∃ s : State, s.mode ≠ .off :=
  ⟨inMode .safe, by decide +kernel⟩

theorem test_wit_LifeCycleCommandsComplete_10 : ∃ s : State, s.mode ≠ .off :=
  ⟨inMode .idle, by decide +kernel⟩

theorem test_wit_LifeCycleCommandsComplete_11 : ∃ (a : BitVec 32) (v : Word) (s : State), s.mode ≠ .off ∧ s.flag LC_DEBUG.TRIM_OPEN = true :=
  ⟨5, 7, (inMode .idle).put LC_DEBUG.TRIM_OPEN 1, by decide +kernel⟩

theorem test_wit_LifeCycleCommandsComplete_12 : ∃ (a : BitVec 32) (v : Word) (s : State), s.mode ≠ .off ∧ s.flag LC_DEBUG.TRIM_OPEN = false :=
  ⟨5, 7, (inMode .idle).put LC_DEBUG.TRIM_OPEN 0, by decide +kernel⟩

theorem test_wit_HostErrorsGoOn_1 : ∃ (src : Src) (a : BitVec 26) (v : Word) (s : State), a.toNat % 4 = 0 ∧ s.accessOf src a.toNat = .full ∧ sramWindow a.toNat = none ∧ reservedBits a.toNat v ≠ 0 :=
  ⟨.pcie, BitVec.ofNat 26 (FAIL_CFG.addr 63), 0xFFFFFFFF, inMode .idle, by decide +kernel⟩

theorem test_wit_HostErrorsGoOn_2 : ∃ (c : Instr) (a : Nat) (v : Word) (s : State), rowWrite c = some (a, v) ∧ s.access a = .full ∧ reservedBits a v ≠ 0 :=
  ⟨.seqStart 15 0xFFFFFFFF, SEQ_CTRL.addr 15, 0xFFFFFFFF, inMode .cal, by decide +kernel⟩

theorem test_wit_HostErrorsGoOn_3 : ∃ (src : Src) (a : BitVec 26) (v : Word) (be : BitVec 4) (s : State), a.toNat % 4 = 0 ∧ s.accessOf src a.toNat = .full ∧ 0x2000000 ≤ a.toNat ∧ s.halfExecuting ((a.toNat - 0x2000000) / 0x200000) ((a.toNat - 0x2000000) / 0x100000 % 2) = true :=
  ⟨.pcie, BitVec.ofNat 26 (0x2000000 + 0x200000 * 3 + 0xFFFFC), 5, 15, actOn 3, by decide +kernel⟩

theorem test_wit_HostErrorsGoOn_4 : ∃ (src : Src) (a : BitVec 26) (r : RegRow) (ix : List Nat) (v : Word) (s : State), a.toNat % 4 = 0 ∧ s.accessOf src a.toNat = .full ∧ regAt a.toNat = some (r, ix) ∧ reservedBits a.toNat v = 0 ∧ ((r.base ∈ [TMG_PERIOD_LO.addr 0 0, TMG_PERIOD_HI.addr 0 0] ∧ s.executing (ix.getD 0 0) = true) ∨ (r.base ∈ [PIN_LVL_HI.addr 0 0, PIN_LVL_LO.addr 0 0, PIN_TS_FMT.addr 0 0, PIN_EDGE.addr 0 0] ∧ s.chanExecuting (ix.getD 0 0) = true)) :=
  ⟨.pcie, BitVec.ofNat 26 (TMG_PERIOD_HI.addr 3 63), ⟨"TMG_PERIOD_HI", 0x200104, [(16, 0x10000), (64, 0x80)], 0x80000001, 0x0, 0x0, 0x0, 0, 0x80000001⟩, [3, 63], 1, actOn 3, by decide +kernel⟩

theorem test_wit_HostErrorsGoOn_5 : ∃ (n : Act) (k flow : Nat) (c : Instr) (s : State), s.canIssue n = true ∧ uFlow (s.microWord n) = flow ∧ flowRow n k flow = some c ∧ uReserved (s.microWord n) = true :=
  ⟨3, 1, 2, .jump 3, runs 3 (uw 2 65535 0 0 0 + 2 ^ 45), by decide +kernel⟩

theorem test_wit_HostErrorsGoOn_6 : ∃ (n : Act) (s : State), s.actState n = 1 ∧ (s.act n).checked = false ∧ s.timed n = false ∧ 10 < s.fld (TMG_MODE.K n) :=
  ⟨15, ((inMode .idle).put (SEQ_STATUS.STATE 15) 1).put (TMG_MODE.K 15) 11, by decide +kernel⟩

theorem test_wit_HostErrorsGoOn_7 : ∃ (d : Die) (p : PassSt) (s : State), (s.die d).pass = some p ∧ s.fld CAL_SCHED.TIMEOUT = 0 :=
  ⟨2, { chan := 130, start := 0, groups := 1 }, (passOn { chan := 130, start := 0, groups := 1 }).put CAL_SCHED.TIMEOUT 0, by decide +kernel⟩

theorem test_wit_HostErrorsGoOn_8 : ∃ (c : Chan) (v : Word) (s : State), s.inService = true ∧ reservedBits (PIN_PPMU_CFG.addr c) v = 0 ∧ wbit v 31 = true ∧ 9 ≤ wfld v (PIN_PPMU_CFG.MEAS_SEL c) :=
  ⟨1023, BitVec.ofNat 32 (0x80000000 + 9 * 2 ^ (PIN_PPMU_CFG.MEAS_SEL 1023).lo), inMode .idle, by decide +kernel⟩

theorem test_wit_HostErrorsGoOn_9 : ∃ (m : Fin 32) (v : Word) (s : State), s.inService = true ∧ reservedBits (MON_SENSE_MEAS.addr m) v = 0 ∧ wbit v 31 = true ∧ wfld v (MON_SENSE_MEAS.SEL m) = 3 :=
  ⟨31, BitVec.ofNat 32 (0x80000000 + 3 * 2 ^ (MON_SENSE_MEAS.SEL 31).lo), inMode .idle, by decide +kernel⟩

theorem test_wit_HostErrorsGoOn_10 : ∃ (v : Word) (s : State), s.access CLK_ROOT_CFG.addr = .full ∧ reservedBits CLK_ROOT_CFG.addr v = 0 ∧ (wfld v CLK_ROOT_CFG.ROOT_MHZ < 19200 ∨ 25600 < wfld v CLK_ROOT_CFG.ROOT_MHZ) :=
  ⟨BitVec.ofNat 32 25601, inMode .run, by decide +kernel⟩

theorem test_wit_HostErrorsGoOn_11 : ∃ (q : Queue) (v : Word) (s : State), s.inService = true ∧ reservedBits (HOST_Q_SQ_TAIL.addr q) v = 0 ∧ ringPasses (s.fld (HOST_Q_SQ_TAIL.TAIL q)) (wfld v (HOST_Q_SQ_TAIL.TAIL q)) (s.fld (HOST_Q_SQ_HEAD.HEAD q)) true = true :=
  ⟨7, 0, ((inMode .idle).put (HOST_Q_SQ_TAIL.TAIL 7) 1022).put (HOST_Q_SQ_HEAD.HEAD 7) 1023, by decide +kernel⟩

theorem test_wit_HostErrorsGoOn_12 : ∃ (q : Queue) (v : Word) (s : State), s.inService = true ∧ reservedBits (HOST_Q_CQ_HEAD.addr q) v = 0 ∧ ringPasses (s.fld (HOST_Q_CQ_HEAD.HEAD q)) (wfld v (HOST_Q_CQ_HEAD.HEAD q)) (s.fld (HOST_Q_CQ_TAIL.TAIL q)) false = true :=
  ⟨7, 1, inMode .idle, by decide +kernel⟩

theorem test_wit_HostErrorsGoOn_13 : ∃ (a : BitVec 37) (bytes : List Byte) (s : State), s.inService = true ∧ a.toNat + bytes.length ≤ dramSize :=
  ⟨BitVec.ofNat 37 4095, [1, 2], ((ringOn.put (FAIL_LOG_BASE.BASE 5) 1).put (FAIL_LOG_SIZE.SIZE 5) 1).put (FAIL_CFG.THRESH 5) 1, by decide +kernel⟩

theorem test_wit_HostErrorsGoOn_14 : ∃ (q : Queue) (c : HostCmd) (bs : List Byte) (s : State), MayStart q 0x10 c s ∧ dmaRange (argOf c 1) (argOf c 2) = true ∧ bs.length = argOf c 2 :=
  ⟨2, hc 0x10 [0, 131072, 4], [1, 2, 3, 4], withCmd (hc 0x10 [0, 131072, 4]) (((actOn 3).put (SEQ_BLOCK_TABLE.BASE 3) 1).put (MEM_DRAM_PART.BASE 0) 0x1000000), by unfold MayStart; decide +kernel⟩

theorem test_wit_HostErrorsGoOn_15 : ∃ (q : Queue) (c : HostCmd) (bs : List Byte) (n b : Nat) (enc : Bool) (s : State), MayStart q 0x13 c s ∧ blockRange c = true ∧ blockArgs c = (n, b, enc) ∧ s.executing n = false ∧ bs.length = s.blockLen c ∧ dramSize < (s.blockEntry n b).1 + (s.blockEntry n b).2.1 * (s.blockEntry n b).2.2.1 :=
  ⟨2, hc 0x13 [0, 3], List.replicate 4 0, 3, 0, false, withCmd (hc 0x13 [0, 3]) ((inMode .idle).dramPut 0 (leBytes 8 (dramSize - 3) ++ leBytes 4 1 ++ leBytes 2 4)), by unfold MayStart; decide +kernel⟩

theorem test_wit_HostErrorsGoOn_16 : ∃ (i : Fin 16) (size : Bool) (v : Word) (s : State), s.inService = true ∧ reservedBits (if size then MEM_DRAM_PART_SIZE.addr i else MEM_DRAM_PART.addr i) v = 0 ∧ s.anyExecuting = false ∧ s.rq.fin = none ∧ (s.setPart i size v).partsOk = false ∧ (∀ k, k < 16 → s.streamOn k = false ∨ (s.setPart i size v).streamMisplaced k = false) :=
  ⟨2, false, BitVec.ofNat 32 (4 * 2 ^ (MEM_DRAM_PART.KIND 2).lo), inMode .idle, by decide +kernel⟩

theorem test_wit_HostErrorsGoOn_17 : ∃ (g : Ring) (v : Word) (s : State), s.inService = true ∧ reservedBits (RQ_MAP_CFG.addr g) v = 0 ∧ s.ringExecuting g = false ∧ 256 < wfld v (RQ_MAP_CFG.CHUNK_BASE g) + wfld v (RQ_MAP_CFG.CHUNK_CNT g) :=
  ⟨5, BitVec.ofNat 32 (255 * 2 ^ (RQ_MAP_CFG.CHUNK_BASE 5).lo + 2 * 2 ^ (RQ_MAP_CFG.CHUNK_CNT 5).lo), inMode .idle, by decide +kernel⟩

theorem test_wit_HostErrorsGoOn_18 : ∃ (v : Word) (s : State), s.inService = true ∧ reservedBits RQ_FINALIZE.addr v = 0 ∧ wbit v 31 = true ∧ s.rq.fin = none ∧ s.flag RQ_STATUS.CLEARING = false ∧ s.ringExecuting (wfld v RQ_FINALIZE.RING) = true :=
  ⟨BitVec.ofNat 32 (0x80000000 + 5 * 2 ^ RQ_FINALIZE.RING.lo), ringOn, by decide +kernel⟩

theorem test_wit_HostErrorsGoOn_19 : ∃ (k : Trig) (v : Word) (n : Act) (s : State), (s.mode = .idle ∨ s.mode = .run) ∧ reservedBits (ACQ_TRIG_CTRL.addr k) v = 0 ∧ wbit v 31 = true ∧ wbit v 30 = false ∧ s.trigAct k = some n.val ∧ (s.store (ACQ_TRIG_CTRL.addr k) v).trigReserved k = true :=
  ⟨15, 0x80000000, 3, ((actOn 3).setReg (ACQ_TRIG_PAT.addr 15 0 12) 1).put (ACQ_TRIG_STAGE.COUNT 15 0) 0, by decide +kernel⟩

theorem test_wit_HostErrorsGoOn_20 : ∃ (i : Stream) (v : Word) (s : State), (s.mode = .idle ∨ s.mode = .run) ∧ reservedBits (ACQ_STREAM_CTRL.addr i) v = 0 ∧ wbit v 31 = true ∧ s.streamOn i = false ∧ (((s.store (ACQ_STREAM_CTRL.addr i) v).put (ACQ_STREAM_CTRL.EN i) 0).streamReserved i = true ∨ ((s.store (ACQ_STREAM_CTRL.addr i) v).put (ACQ_STREAM_CTRL.EN i) 0).streamMisplaced i = true) :=
  ⟨2, BitVec.ofNat 32 (0x80000000 + 6 * 2 ^ (ACQ_STREAM_CTRL.KIND 2).lo), inMode .idle, by decide +kernel⟩

theorem test_wit_HostErrorsGoOn_21 : ∃ (c : Chan) (cyc : BitVec 64) (e : Fin 9) (raw : Bool) (p : PinVec) (n y : Nat) (s : State), (s.die (c / 64)).pins.find? (fun x => decide (x.vec.cycle = cyc.toNat)) = some p ∧ s.actOfChan c = some n ∧ s.timed n = true ∧ p.sym c 0 = some y ∧ symDrives y = true ∧ 5 ≤ s.fmt c p.vec.tset :=
  ⟨192, 0, 0, 2, atPins 1, 3, 1, (((actOn 3).setDie 3 { pins := [atPins 1] }).put (TMG_MODE.MODE 3) 1).setReg (PIN_TS_FMT.addr 192 0) 5, by decide +kernel⟩

theorem test_wit_HostErrorsGoOn_22 : ∃ (i : Fin 16) (size : Bool) (v : Word) (s : State), s.inService = true ∧ reservedBits (if size then MEM_DRAM_PART_SIZE.addr i else MEM_DRAM_PART.addr i) v = 0 ∧ s.anyExecuting = false ∧ s.rq.fin = none :=
  ⟨15, false, 0, ringPlaced (streamIn 2), by decide +kernel⟩

end Sys2Proof.Tests
end

section
/-! PROOF. Every command, and so every step, keeps the canonical form of the memories and of the register file (O4). -/

namespace Sys2Proof.Machine

/-! ## The canonical form, command by command -/

/-- Every command that answers a next state keeps the canonical form. -/
theorem exec_wf {s s' : State} (hs : s.wf = true) (c : Instr) (h : exec c s = .next s') : s'.wf = true := by
  cases c with
  | uvloStart => exact execUvloStart_wf (hs := hs) (h := h)
  | softStart => exact execSoftStart_wf (hs := hs) (h := h)
  | sramClear => exact execSramClear_wf (hs := hs) (h := h)
  | returnErase => exact execReturnErase_wf (hs := hs) (h := h)
  | selfTest => exact execSelfTest_wf (hs := hs) (h := h)
  | dramTraining => exact execDramTraining_wf (hs := hs) (h := h)
  | nvmDiscovery => exact execNvmDiscovery_wf (hs := hs) (h := h)
  | imageRead => exact execImageRead_wf (hs := hs) (h := h)
  | apply => exact execApply_wf (hs := hs) (h := h)
  | idleEntry => exact execIdleEntry_wf (hs := hs) (h := h)
  | huCapMeasured => exact execHuCapMeasured_wf (hs := hs) (h := h)
  | resetBoot => exact execResetBoot_wf (hs := hs) (h := h)
  | enterCal => exact execEnterCal_wf (hs := hs) (h := h)
  | leaveCal => exact execLeaveCal_wf (hs := hs) (h := h)
  | enterSafe => exact execEnterSafe_wf (hs := hs) (h := h)
  | fatalFault => exact execFatalFault_wf (hs := hs) (h := h)
  | railFault => exact execRailFault_wf (hs := hs) (h := h)
  | clockLoss => exact execClockLoss_wf (hs := hs) (h := h)
  | hkWatchdog => exact execHkWatchdog_wf (hs := hs) (h := h)
  | tempSample => exact execTempSample_wf (hs := hs) (h := h)
  | enOff => exact execEnOff_wf (hs := hs) (h := h)
  | pfail => exact execPfail_wf (hs := hs) (h := h)
  | offEntry => exact execOffEntry_wf (hs := hs) (h := h)
  | vinLow => exact execVinLow_wf (hs := hs) (h := h)
  | vinSurge => exact execVinSurge_wf (hs := hs) (h := h)
  | powerHigh => exact execPowerHigh_wf (hs := hs) (h := h)
  | rootChange => exact execRootChange_wf (hs := hs) (h := h)
  | refSrcWrite => exact execRefSrcWrite_wf (hs := hs) (h := h)
  | rootChanged => exact execRootChanged_wf (hs := hs) (h := h)
  | refLost => exact execRefLost_wf (hs := hs) (h := h)
  | refRestored => exact execRefRestored_wf (hs := hs) (h := h)
  | ocxoWarm => exact execOcxoWarm_wf (hs := hs) (h := h)
  | timeWrap => exact execTimeWrap_wf (hs := hs) (h := h)
  | syncExchange => exact execSyncExchange_wf (hs := hs) (h := h)
  | syncReq => exact execSyncReq_wf (hs := hs) (h := h)
  | syncRsp => exact execSyncRsp_wf (hs := hs) (h := h)
  | nvmRead => exact execNvmRead_wf (hs := hs) (h := h)
  | nvmProgram => exact execNvmProgram_wf (hs := hs) (h := h)
  | nvmErase => exact execNvmErase_wf (hs := hs) (h := h)
  | eraseSlot => exact execEraseSlot_wf (hs := hs) (h := h)
  | validateSlot => exact execValidateSlot_wf (hs := hs) (h := h)
  | calCommit => exact execCalCommit_wf (hs := hs) (h := h)
  | nvmAbort => exact execNvmAbort_wf (hs := hs) (h := h)
  | flashOpComplete => exact execFlashOpComplete_wf (hs := hs) (h := h)
  | holdupRetry => exact execHoldupRetry_wf (hs := hs) (h := h)
  | persistPage => exact execPersistPage_wf (hs := hs) (h := h)
  | ppmuStart => exact execPpmuStart_wf (hs := hs) (h := h)
  | ppmuDone => exact execPpmuDone_wf (hs := hs) (h := h)
  | dacReadbackScan => exact execDacReadbackScan_wf (hs := hs) (h := h)
  | senseMeasStart => exact execSenseMeasStart_wf (hs := hs) (h := h)
  | srefReadbackStart => exact execSrefReadbackStart_wf (hs := hs) (h := h)
  | conversionDone => exact execConversionDone_wf (hs := hs) (h := h)
  | seqStart => exact execSeqStart_wf (hs := hs) (h := h)
  | seqArm => exact execSeqArm_wf (hs := hs) (h := h)
  | seqStop => exact execSeqStop_wf (hs := hs) (h := h)
  | seqAbort => exact execSeqAbort_wf (hs := hs) (h := h)
  | startChecks => exact execStartChecks_wf (hs := hs) (h := h)
  | actArmed => exact execActArmed_wf (hs := hs) (h := h)
  | startTime => exact execStartTime_wf (hs := hs) (h := h)
  | nextVec => exact execNextVec_wf (hs := hs) (h := h)
  | repeatVec => exact execRepeatVec_wf (hs := hs) (h := h)
  | jump => exact execJump_wf (hs := hs) (h := h)
  | call => exact execCall_wf (hs := hs) (h := h)
  | ret => exact execRet_wf (hs := hs) (h := h)
  | loopVec => exact execLoopVec_wf (hs := hs) (h := h)
  | endloop => exact execEndloop_wf (hs := hs) (h := h)
  | branch => exact execBranch_wf (hs := hs) (h := h)
  | matchVec => exact execMatchVec_wf (hs := hs) (h := h)
  | matchTimeout => exact execMatchTimeout_wf (hs := hs) (h := h)
  | waitTime => exact execWaitTime_wf (hs := hs) (h := h)
  | waitTimeReached => exact execWaitTimeReached_wf (hs := hs) (h := h)
  | waitWhistle => exact execWaitWhistle_wf (hs := hs) (h := h)
  | waitTimeout => exact execWaitTimeout_wf (hs := hs) (h := h)
  | callBlock => exact execCallBlock_wf (hs := hs) (h := h)
  | swap => exact execSwap_wf (hs := hs) (h := h)
  | markVec => exact execMarkVec_wf (hs := hs) (h := h)
  | halt => exact execHalt_wf (hs := hs) (h := h)
  | prefetchRecord => exact execPrefetchRecord_wf (hs := hs) (h := h)
  | forwardFrame => exact execForwardFrame_wf (hs := hs) (h := h)
  | pinEdge => exact execPinEdge_wf (hs := hs) (h := h)
  | returnFrame => exact execReturnFrame_wf (hs := hs) (h := h)
  | rqPushApply => exact execRqPushApply_wf (hs := hs) (h := h)
  | comparatorTransition => exact execComparatorTransition_wf (hs := hs) (h := h)
  | burstTimeout => exact execBurstTimeout_wf (hs := hs) (h := h)
  | endOfL => exact execEndOfL_wf (hs := hs) (h := h)
  | actStopped => exact execActStopped_wf (hs := hs) (h := h)
  | failTilePush => exact execFailTilePush_wf (hs := hs) (h := h)
  | tilePushPeriod => exact execTilePushPeriod_wf (hs := hs) (h := h)
  | tileClearDone => exact execTileClearDone_wf (hs := hs) (h := h)
  | rqCtrlClear => exact execRqCtrlClear_wf (hs := hs) (h := h)
  | rqFinalize => exact execRqFinalize_wf (hs := hs) (h := h)
  | rqFinalized => exact execRqFinalized_wf (hs := hs) (h := h)
  | rqDescSel => exact execRqDescSel_wf (hs := hs) (h := h)
  | rqMapCfgWrite => exact execRqMapCfgWrite_wf (hs := hs) (h := h)
  | tdcStart => exact execTdcStart_wf (hs := hs) (h := h)
  | tdcAbort => exact execTdcAbort_wf (hs := hs) (h := h)
  | missClr => exact execMissClr_wf (hs := hs) (h := h)
  | tdcArmTime => exact execTdcArmTime_wf (hs := hs) (h := h)
  | tdcTimeout => exact execTdcTimeout_wf (hs := hs) (h := h)
  | skewWindow => exact execSkewWindow_wf (hs := hs) (h := h)
  | freqGate => exact execFreqGate_wf (hs := hs) (h := h)
  | tdcResult => exact execTdcResult_wf (hs := hs) (h := h)
  | tdcStatusRead => exact execTdcStatusRead_wf (hs := hs) (h := h)
  | loRead => exact execLoRead_wf (hs := hs) (h := h)
  | trigArm => exact execTrigArm_wf (hs := hs) (h := h)
  | trigDisarm => exact execTrigDisarm_wf (hs := hs) (h := h)
  | trigStageTimeout => exact execTrigStageTimeout_wf (hs := hs) (h := h)
  | trigHoldoffEnd => exact execTrigHoldoffEnd_wf (hs := hs) (h := h)
  | streamEnable => exact execStreamEnable_wf (hs := hs) (h := h)
  | streamDisable => exact execStreamDisable_wf (hs := hs) (h := h)
  | integEnd => exact execIntegEnd_wf (hs := hs) (h := h)
  | recordWindowEnd => exact execRecordWindowEnd_wf (hs := hs) (h := h)
  | stampsClose => exact execStampsClose_wf (hs := hs) (h := h)
  | streamRecord => exact execStreamRecord_wf (hs := hs) (h := h)
  | streamCopy => exact execStreamCopy_wf (hs := hs) (h := h)
  | livePassStart => exact execLivePassStart_wf (hs := hs) (h := h)
  | codeDensityDone => exact execCodeDensityDone_wf (hs := hs) (h := h)
  | livePassEnd => exact execLivePassEnd_wf (hs := hs) (h := h)
  | calStarved => exact execCalStarved_wf (hs := hs) (h := h)
  | calApplyWait => exact execCalApplyWait_wf (hs := hs) (h := h)
  | fullRunDone => exact execFullRunDone_wf (hs := hs) (h := h)
  | monPin => exact execMonPin_wf (hs := hs) (h := h)
  | monDisClear => exact execMonDisClear_wf (hs := hs) (h := h)
  | dchkDisClear => exact execDchkDisClear_wf (hs := hs) (h := h)
  | monSense => exact execMonSense_wf (hs := hs) (h := h)
  | senseRearm => exact execSenseRearm_wf (hs := hs) (h := h)
  | senseBlankExpiry => exact execSenseBlankExpiry_wf (hs := hs) (h := h)
  | srefWrite => exact execSrefWrite_wf (hs := hs) (h := h)
  | clrN => exact execClrN_wf (hs := hs) (h := h)
  | parkN => exact execParkN_wf (hs := hs) (h := h)
  | sysParkWrite => exact execSysParkWrite_wf (hs := hs) (h := h)
  | patrolRegion => exact execPatrolRegion_wf (hs := hs) (h := h)
  | patrolRegionDone => exact execPatrolRegionDone_wf (hs := hs) (h := h)
  | boardRead => exact execBoardRead_wf (hs := hs) (h := h)
  | boardWrite => exact execBoardWrite_wf (hs := hs) (h := h)
  | bcsRelease => exact execBcsRelease_wf (hs := hs) (h := h)
  | atomicAdd => exact execAtomicAdd_wf (hs := hs) (h := h)
  | atomicSwap => exact execAtomicSwap_wf (hs := hs) (h := h)
  | bar2Read => exact execBar2Read_wf (hs := hs) (h := h)
  | bar2Write => exact execBar2Write_wf (hs := hs) (h := h)
  | dramPartWrite => exact execDramPartWrite_wf (hs := hs) (h := h)
  | seqCbMaskWrite => exact execSeqCbMaskWrite_wf (hs := hs) (h := h)
  | failRingChWrite => exact execFailRingChWrite_wf (hs := hs) (h := h)
  | registerWrite => exact execRegisterWrite_wf (hs := hs) (h := h)
  | linkActive => exact execLinkActive_wf (hs := hs) (h := h)
  | retrain => exact execRetrain_wf (hs := hs) (h := h)
  | lnkPortCfgWrite => exact execLnkPortCfgWrite_wf (hs := hs) (h := h)
  | barkerSend => exact execBarkerSend_wf (hs := hs) (h := h)
  | barker => exact execBarker_wf (hs := hs) (h := h)
  | partnerLost => exact execPartnerLost_wf (hs := hs) (h := h)
  | ack => exact execAck_wf (hs := hs) (h := h)
  | replayTimeout => exact execReplayTimeout_wf (hs := hs) (h := h)
  | lnkTimeout => exact execLnkTimeout_wf (hs := hs) (h := h)
  | rdReq => exact execRdReq_wf _ _ _ _ _ s hs s' h
  | wrReq => exact execWrReq_wf _ _ _ _ s hs s' h
  | rdRsp => exact execRdRsp_wf _ _ _ _ s hs s' h
  | wrRsp => exact execWrRsp_wf _ _ _ s hs s' h
  | eventFrame => exact execEventFrame_wf _ _ _ s hs s' h
  | join => exact execJoin_wf _ _ _ s hs s' h
  | joinSend => exact execJoinSend_wf (hs := hs) (h := h)
  | showReport => exact execShowReport_wf _ _ _ _ _ _ _ _ s hs s' h
  | showRunTimeout => exact execShowRunTimeout_wf (hs := hs) (h := h)
  | bench => exact execBench_wf _ _ _ _ s hs s' h
  | showUnbench => exact execShowUnbench_wf (hs := hs) (h := h)
  | stopWhistle => exact execStopWhistle_wf (hs := hs) (h := h)
  | parkWhistle => exact execParkWhistle_wf (hs := hs) (h := h)
  | abortWhistle => exact execAbortWhistle_wf (hs := hs) (h := h)
  | startWhistle => exact execStartWhistle_wf (hs := hs) (h := h)
  | cueWhistle => exact execCueWhistle_wf (hs := hs) (h := h)
  | whistleWindow => exact execWhistleWindow_wf (hs := hs) (h := h)
  | sendStop => exact execSendStop_wf (hs := hs) (h := h)
  | sendPark => exact execSendPark_wf (hs := hs) (h := h)
  | sendAbort => exact execSendAbort_wf (hs := hs) (h := h)
  | sendStart => exact execSendStart_wf (hs := hs) (h := h)
  | sendCue => exact execSendCue_wf (hs := hs) (h := h)
  | queueEnable => exact execQueueEnable_wf (hs := hs) (h := h)
  | queueDisable => exact execQueueDisable_wf (hs := hs) (h := h)
  | sqDoorbell => exact execSqDoorbell_wf (hs := hs) (h := h)
  | commandFetch => exact execCommandFetch_wf (hs := hs) (h := h)
  | commandComplete => exact execCommandComplete_wf (hs := hs) (h := h)
  | cqHeadWrite => exact execCqHeadWrite_wf (hs := hs) (h := h)
  | cmdTimeout => exact execCmdTimeout_wf (hs := hs) (h := h)
  | flr => exact execFlr_wf (hs := hs) (h := h)
  | nop => exact execNop_wf (hs := hs) (h := h)
  | regRead => exact execRegRead_wf (hs := hs) (h := h)
  | regWrite => exact execRegWrite_wf (hs := hs) (h := h)
  | dmaToDram => exact execDmaToDram_wf (hs := hs) (h := h)
  | dmaFromDram => exact execDmaFromDram_wf (hs := hs) (h := h)
  | loadBank => exact execLoadBank_wf (hs := hs) (h := h)
  | loadBlock => exact execLoadBlock_wf (hs := hs) (h := h)
  | actStart => exact execActStart_wf (hs := hs) (h := h)
  | actStop => exact execActStop_wf (hs := hs) (h := h)
  | actAbort => exact execActAbort_wf (hs := hs) (h := h)
  | actWait => exact execActWait_wf (hs := hs) (h := h)
  | tilePush => exact execTilePush_wf (hs := hs) (h := h)
  | finalize => exact execFinalize_wf (hs := hs) (h := h)
  | rqClear => exact execRqClear_wf (hs := hs) (h := h)
  | modeReq => exact execModeReq_wf (hs := hs) (h := h)
  | nvmCommand => exact execNvmCommand_wf (hs := hs) (h := h)
  | remoteRead => exact execRemoteRead_wf (hs := hs) (h := h)
  | remoteWrite => exact execRemoteWrite_wf (hs := hs) (h := h)
  | whistle => exact execWhistle_wf (hs := hs) (h := h)
  | signedCalCommit => exact execSignedCalCommit_wf (hs := hs) (h := h)
  | keyProgram => exact execKeyProgram_wf (hs := hs) (h := h)
  | keyRevoke => exact execKeyRevoke_wf (hs := hs) (h := h)
  | decKeyProgram => exact execDecKeyProgram_wf (hs := hs) (h := h)
  | returnAuth => exact execReturnAuth_wf (hs := hs) (h := h)
  | advanceIntegration => exact execAdvanceIntegration_wf (hs := hs) (h := h)
  | advanceField => exact execAdvanceField_wf (hs := hs) (h := h)
  | debugLock => exact execDebugLock_wf (hs := hs) (h := h)
  | bdDoorbell => exact execBdDoorbell_wf (hs := hs) (h := h)
  | evtIrqDefer => exact execEvtIrqDefer_wf (hs := hs) (h := h)
  | parkNRelease => exact execParkNRelease_wf (hs := hs) (h := h)
  | clrNRelease => exact execClrNRelease_wf (hs := hs) (h := h)
  | vinSurgeEnd => exact execVinSurgeEnd_wf (hs := hs) (h := h)
  | sourceValidAgain => exact execSourceValidAgain_wf (hs := hs) (h := h)
  | ocxoWarmLost => exact execOcxoWarmLost_wf (hs := hs) (h := h)
  | partnerRateChange => exact execPartnerRateChange_wf (hs := hs) (h := h)
  | powerStateChange => exact execPowerStateChange_wf (hs := hs) (h := h)
  | conventionalReset => exact execConventionalReset_wf (hs := hs) (h := h)
  | rqClearDone => exact execRqClearDone_wf (hs := hs) (h := h)
  | tilePushEnd => exact execTilePushEnd_wf (hs := hs) (h := h)
  | holdupExhausted => exact execHoldupExhausted_wf (hs := hs) (h := h)
  | jtagInstruction => exact execJtagInstruction_wf (hs := hs) (h := h)
/-- Settles O4: an empty queue ticks, and every command keeps the form. -/
theorem stepKeepsCanonicalForm : Obligations.StepKeepsCanonicalForm := by
  unfold Obligations.StepKeepsCanonicalForm
  intro s t hs h
  cases hp : s.pending with
  | nil =>
    obtain rfl : s.tick = t := by simpa only [step, hp, Host.Outcome.next.injEq] using h
    exact State.tick_wf s hs
  | cons c cs =>
    have h' : exec c (s.withPending cs) = .next t := by simpa only [step, hp] using h
    exact exec_wf ((State.withPending_wf s cs).trans hs) c h'

end Sys2Proof.Machine
end

section
/-! PROOF. A reference cycle on an empty queue (O2). -/

namespace Sys2Proof.Machine

/-! ## Requests that wait for a link tag: what their leaving does not touch (R310) -/

theorem State.each_inv {α : Type} {P : State → α} {f : Nat → State → State} (h : ∀ n s, P (f n s) = P s) :
    ∀ (l : List Nat) (s : State), P (State.each f l s) = P s
  | [], _ => rfl
  | n :: l, s => (State.each_inv h l (f n s)).trans (h n s)

@[simp] theorem State.sendFrame_acts (s : State) (p : Nat) (f : Frame) : (s.sendFrame p f).acts = s.acts := by
  simp only [State.sendFrame]; split <;> simp

@[simp] theorem State.sendReq_regs (s : State) (p tag : Nat) (h : Held) : (s.sendReq p tag h).regs = s.regs := by
  simp [State.sendReq]

@[simp] theorem State.sendReq_acts (s : State) (p tag : Nat) (h : Held) : (s.sendReq p tag h).acts = s.acts := by
  simp [State.sendReq]

theorem State.tagsGo_regs_acts (p : Nat) : ∀ (n : Nat) (s : State),
    (State.tagsGo p n s).regs = s.regs ∧ (State.tagsGo p n s).acts = s.acts
  | 0, _ => ⟨rfl, rfl⟩
  | n + 1, s => by
    simp only [State.tagsGo]
    split
    · obtain ⟨hr, ha⟩ := State.tagsGo_regs_acts p n
        ((s.setPort p { s.port p with held := ‹_› }).sendReq p ‹_› ‹_›)
      exact ⟨by rw [hr]; simp, by rw [ha]; simp⟩
    · exact ⟨rfl, rfl⟩

theorem State.tagsRetired_regs (s : State) : s.tagsRetired.regs = s.regs :=
  State.each_inv (P := State.regs) (fun p s => by
    split
    · rfl
    · exact (State.tagsGo_regs_acts p _ s).1) _ s

theorem State.tagsRetired_acts (s : State) : s.tagsRetired.acts = s.acts :=
  State.each_inv (P := State.acts) (fun p s => by
    split
    · rfl
    · exact (State.tagsGo_regs_acts p _ s).2) _ s

/-- Where no request waits for a tag, retired tags bring nothing about. -/
theorem State.tagsRetired_of_none_held (s : State) (h : ∀ p, (s.port p).held = []) : s.tagsRetired = s := by
  have key : ∀ l : List Nat,
      State.each (fun p s => if (s.port p).held = [] then s else s.tagFreed p) l s = s := by
    intro l
    induction l with
    | nil => rfl
    | cons p l ih => simpa only [State.each, h p, if_true] using ih
  exact key _

/-! ## The reference cycle (R64, R65, R67) -/

/-- The time after a reference cycle: it advances by 65,536 fines and the slew term, modulo its 64 bits. -/
theorem State.tick_time {s : State} (hc : s.counting = true) :
    s.tick.time = BitVec.ofInt 64 ((s.time.toNat : Int) + 65536 + s.slew) := by
  have hw : ∀ t : State, t.timeWrap.time = t.time := fun t =>
    (State.event_frame _ _ _ _ _ _ _ .time (by decide)).trans rfl
  have hr : ∀ t : State, t.tagsRetired.time = t.time := fun t => t.tagsRetired_frame .time
  simp only [State.tick, hc, if_true, hr]
  split
  · exact hw _
  · rfl

/-- A reference cycle in which the count does not wrap: the time, then the requests that wait for a tag. -/
theorem State.tick_of_no_wrap {s : State} (hc : s.counting = true)
    (h : (s.time.toNat : Int) + 65536 + s.slew < 2 ^ 64) :
    s.tick = (s.withTime (BitVec.ofInt 64 ((s.time.toNat : Int) + 65536 + s.slew))).tagsRetired := by
  simp only [State.tick, hc, if_true, if_neg (not_le.mpr h)]

/-- A wrap of the count starts the next epoch. -/
theorem State.tick_epoch_of_wrap {s : State} (hc : s.counting = true)
    (h : (2 : Int) ^ 64 ≤ (s.time.toNat : Int) + 65536 + s.slew) : s.tick.epoch = s.epoch + 1 := by
  simp only [State.tick, hc, if_true, if_pos h]
  exact (State.tagsRetired_frame _ .epoch).trans
    ((State.event_frame _ _ _ _ _ _ _ .epoch (by decide)).trans rfl)

theorem toNat_ofInt_of_lt {x : Int} (h0 : 0 ≤ x) (h1 : x < 2 ^ 64) : ((BitVec.ofInt 64 x).toNat : Int) = x := by
  rw [BitVec.toNat_ofInt]; omega

theorem toNat_ofInt_of_wrap {x : Int} (h0 : (2 : Int) ^ 64 ≤ x) (h1 : x < 2 ^ 65) :
    ((BitVec.ofInt 64 x).toNat : Int) = x - 2 ^ 64 := by
  rw [BitVec.toNat_ofInt]; omega

/-- Settles O2: the tick of an empty queue, by whether the count runs and whether it wraps. -/
theorem idleStepIsReferenceCycle : Obligations.IdleStepIsReferenceCycle := by
  unfold Obligations.IdleStepIsReferenceCycle
  intro s hp
  refine ⟨s.tick, by simp only [step, hp], (s.tick_frame .pending (by decide) (by decide) (by decide)).trans hp,
    s.tick_frame .mode (by decide) (by decide) (by decide), ?_, ?_, ?_⟩
  · intro hc; simp [State.tick, hc]
  · intro hc h0 h1
    have ht := State.tick_of_no_wrap hc h1
    refine ⟨by rw [State.tick_time hc, toNat_ofInt_of_lt h0 h1], ?_, ?_, ?_, ?_⟩
    · rw [ht]; exact (State.tagsRetired_frame _ .epoch).trans rfl
    · rw [ht, State.tagsRetired_regs]
    · rw [ht, State.tagsRetired_acts]
    · intro hh
      rw [ht, State.tagsRetired_of_none_held (s.withTime (BitVec.ofInt 64 _)) hh]
  · intro hc h0 h1
    exact ⟨by rw [State.tick_time hc, toNat_ofInt_of_wrap h0 h1], State.tick_epoch_of_wrap hc h0⟩

end Sys2Proof.Machine
end

section
/-! SUPPORT. Where a register stands (20, R348), what a bus write does there (R347, R349), and the word that a store leaves (R5). -/

namespace Sys2Proof.Machine

/-! ## Bits -/

theorem bitOf_eq_testBit (v i : Nat) : bitOf v i = v.testBit i := by
  rw [bitOf, Nat.testBit_eq_decide_div_mod_eq]

theorem testBit_bitsOf (v lo len i : Nat) : (bitsOf v lo len).testBit i = (decide (i < len) && v.testBit (lo + i)) := by
  rw [bitsOf, Nat.testBit_mod_two_pow, Nat.testBit_div_two_pow, Nat.add_comm]

/-- A bit of the complement of a 32-bit mask. -/
theorem testBit_mask_compl {m i : Nat} (hm : m < 2 ^ 32) (hi : i < 32) : (0xFFFFFFFF - m).testBit i = !m.testBit i := by
  have e : 0xFFFFFFFF - m = 2 ^ 32 - (m + 1) := by omega
  rw [e, Nat.testBit_two_pow_sub_succ hm]
  simp [hi]

/-! ## The word a write stores, bit by bit (R5) -/

/-- An RW bit takes the written bit, a W1C bit that the write sets is cleared, any other bit keeps its value. -/
theorem RegRow.testBit_written (r : RegRow) {old v i : Nat} (hi : i < 32) (hrw : r.rw < 2 ^ 32) (hw : r.w1c < 2 ^ 32) :
    (r.written old v).testBit i =
      ((if r.rw.testBit i then v.testBit i else old.testBit i) && !(v.testBit i && r.w1c.testBit i)) := by
  have hvw : v &&& r.w1c < 2 ^ 32 := Nat.lt_of_le_of_lt Nat.and_le_right hw
  simp only [RegRow.written, Nat.testBit_and, Nat.testBit_or, testBit_mask_compl hrw hi, testBit_mask_compl hvw hi]
  cases r.rw.testBit i <;> simp

/-- A field of RW bits takes the written word's. -/
theorem RegRow.bitsOf_written (r : RegRow) {old v lo len : Nat} (hlen : lo + len ≤ 32) (hrw : r.rw < 2 ^ 32)
    (hw : r.w1c = 0) (h : bitsOf r.rw lo len = 2 ^ len - 1) : bitsOf (r.written old v) lo len = bitsOf v lo len := by
  refine Nat.eq_of_testBit_eq fun i => ?_
  rw [testBit_bitsOf, testBit_bitsOf]
  by_cases hi : i < len
  · have hb : r.rw.testBit (lo + i) = true := by
      have hbits := testBit_bitsOf r.rw lo len i
      rw [h, Nat.testBit_two_pow_sub_one] at hbits
      simpa [hi] using hbits.symm
    rw [r.testBit_written (by omega) hrw (by omega), hb, hw]
    simp
  · simp [hi]

/-- The word that a write stores is a word. -/
theorem RegRow.written_lt (r : RegRow) (old v : Nat) : r.written old v < 2 ^ 32 :=
  Nat.lt_of_le_of_lt Nat.and_le_right (by omega)

/-! ## The register that stands at an address (R348, Table 20-1) -/

/-- The outermost index of a register's copy, and the others where they stand in copy 0. -/
theorem RegRow.indices_instance {cnt str c d : Nat} (ds : List (Nat × Nat)) (hc : c < cnt) (hd : d < str) :
    RegRow.indices ((cnt, str) :: ds) (str * c + d) = (RegRow.indices ds d).map (c :: ·) := by
  have hdiv : (str * c + d) / str = c := by
    rw [Nat.mul_add_div (by omega), Nat.div_eq_of_lt hd, Nat.add_zero]
  have hmod : (str * c + d) % str = d := by
    rw [Nat.mul_add_mod, Nat.mod_eq_of_lt hd]
  rw [RegRow.indices, hdiv, hmod, if_pos hc]

/-- Whether a register is one of a family with `cnt` instances at stride `str`, at offsets up to `o` from base `B`. -/
def RegRow.inFamily (B cnt str o : Nat) (r : RegRow) : Bool :=
  decide (B ≤ r.base) && decide (r.base ≤ B + o) && decide (r.dims.head? = some (cnt, str))

/-- In such a family what stands at an offset of copy `c` is what stands there in copy 0. -/
theorem regFind_instance {B cnt str c o : Nat} (hc : c < cnt) (ho : o < str) :
    ∀ {rows : List RegRow}, rows.all (RegRow.inFamily B cnt str o) = true →
      regFind rows (B + str * c + o) = (regFind rows (B + o)).map (fun x => (x.1, c :: x.2.tail))
  | [], _ => rfl
  | r :: rs, h => by
    obtain ⟨hr, hrs⟩ : RegRow.inFamily B cnt str o r = true ∧ rs.all (RegRow.inFamily B cnt str o) = true := by
      simpa only [List.all_cons, Bool.and_eq_true] using h
    obtain ⟨⟨hB, hle⟩, hd⟩ : (B ≤ r.base ∧ r.base ≤ B + o) ∧ r.dims.head? = some (cnt, str) := by
      simpa only [RegRow.inFamily, Bool.and_eq_true, decide_eq_true_eq] using hr
    obtain ⟨ds, hds⟩ : ∃ ds, r.dims = (cnt, str) :: ds := List.head?_eq_some_iff.mp hd
    have ih := regFind_instance hc ho hrs
    have hoff : B + str * c + o - r.base = str * c + (B + o - r.base) := by omega
    have hlt : B + o - r.base < str := by omega
    have hzero := RegRow.indices_instance (cnt := cnt) (c := 0) ds (by omega) hlt
    rw [Nat.mul_zero, Nat.zero_add] at hzero
    rw [regFind, regFind, if_pos hle, if_pos (by omega), hds, hoff,
      RegRow.indices_instance ds hc hlt, hzero]
    cases RegRow.indices ds (B + o - r.base) with
    | none => exact ih
    | some ix => rfl

/-- What a first part of the rows holds is found in all of them. -/
theorem regFind_append {a : Nat} {x : RegRow × List Nat} :
    ∀ {rows : List RegRow} (more : List RegRow), regFind rows a = some x → regFind (rows ++ more) a = some x
  | [], _, h => nomatch h
  | r :: rs, more, h => by
    rw [List.cons_append, regFind] at *
    split at h <;> rename_i hle
    · rw [if_pos hle]
      split at h
      · exact h
      · exact regFind_append more h
    · rw [if_neg hle]; exact regFind_append more h

/-- A register found in copy 0 of the first `k` rows, all of one family, is found in every copy. -/
theorem regFind_of_family {rows : List RegRow} {B cnt str c o i : Nat} {r : RegRow} {ix : List Nat} (k : Nat) (hc : c < cnt)
    (ho : o < str) (hk : (rows.take k).all (RegRow.inFamily B cnt str o) = true)
    (h : regFind (rows.take k) (B + o) = some (r, i :: ix)) : regFind rows (B + str * c + o) = some (r, c :: ix) := by
  have hf : regFind (rows.take k) (B + str * c + o) = some (r, c :: ix) := by
    rw [regFind_instance hc ho hk, h]; rfl
  have := regFind_append (rows.drop k) hf
  rwa [List.take_append_drop] at this

/-- A register found is one of the rows, and starts at the address or below it. -/
theorem regFind_mem {a : Nat} {r : RegRow} {ix : List Nat} :
    ∀ {rows : List RegRow}, regFind rows a = some (r, ix) → r ∈ rows ∧ r.base ≤ a
  | [], h => nomatch h
  | q :: rs, h => by
    rw [regFind] at h
    have ih : regFind rs a = some (r, ix) → r ∈ q :: rs ∧ r.base ≤ a := fun h =>
      ⟨List.mem_cons_of_mem _ (regFind_mem h).1, (regFind_mem h).2⟩
    split at h <;> rename_i hle
    · split at h
      · obtain ⟨rfl, -⟩ : q = r ∧ _ = ix := by simpa using h
        exact ⟨List.mem_cons_self, hle⟩
      · exact ih h
    · exact ih h

theorem regRowsAt_seq {a : Nat} (h : 0x100000 ≤ a ∧ a < 0x200000) : regRowsAt a = regRows.seq := by
  unfold regRowsAt
  repeat rw [if_neg (by omega)]
  rw [if_pos h]

theorem regRowsAt_pin {a : Nat} (h : 0x400000 ≤ a ∧ a < 0x800000) : regRowsAt a = regRows.pin := by
  unfold regRowsAt
  repeat rw [if_neg (by omega)]
  rw [if_pos h]

theorem regRowsAt_fail {a : Nat} (h : 0x800000 ≤ a ∧ a < 0x900000) : regRowsAt a = regRows.fail := by
  unfold regRowsAt
  repeat rw [if_neg (by omega)]
  rw [if_pos h]

/-- Registers stand below the SRAM windows. -/
theorem regAt_lt {a : Nat} {x : RegRow × List Nat} (h : regAt a = some x) : a < 0x900000 := by
  by_contra hlt
  have e : regRowsAt a = [] := by
    unfold regRowsAt
    repeat rw [if_neg (by omega)]
  rw [regAt, e] at h
  cases h

theorem sramWindow_eq_none {a : Nat} (h : a < 0xF00000) : sramWindow a = none := by
  unfold sramWindow
  repeat rw [if_neg (by omega)]

theorem regAt_FAIL_CFG (g : Ring) : regAt (FAIL_CFG.addr g) =
    some (⟨"FAIL_CFG", 0x800000, [(64, 0x4000)], 0xFFFF03C0, 0x0, 0x0, 0x10000, 0, 0xFFFF03C0⟩, [g.val]) := by
  have hg := g.isLt
  rw [regAt, FAIL_CFG.addr, regRowsAt_fail (by omega)]
  exact regFind_of_family (o := 0) 1 hg (by omega) (by decide) rfl

/-! ## A write of BAR0, by what stands at its address -/

/-- A register without an action or a guard of its own is stored. -/
theorem State.writeReg_of_not_acting (s : State) {b : Nat} (a : Nat) (ix : List Nat) (v : Word) (h : b ∉ actingBases) :
    s.writeReg b a ix v = s.store a v := by
  have low : s.writeLow b a v = s.store a v := by
    unfold State.writeLow
    split
    on_goal -1 => rfl
    all_goals exact absurd (by decide) h
  have hostLnk : ∀ i j, s.writeHostLnk b a i j v = s.store a v := fun i j => by
    unfold State.writeHostLnk
    split
    on_goal -1 => rfl
    all_goals exact absurd (by decide) h
  have mid : ∀ i, s.writeMid b a i v = s.store a v := fun i => by
    unfold State.writeMid
    split
    on_goal -1 => rfl
    all_goals exact absurd (by decide) h
  have seq : ∀ n, s.writeSeq b a n v = s.store a v := fun n => by
    unfold State.writeSeq
    split
    on_goal -1 => rfl
    all_goals exact absurd (by decide) h
  have pin : ∀ c, s.writePin b a c v = s.store a v := fun c => by
    unfold State.writePin
    split
    on_goal -1 => rfl
    all_goals exact absurd (by decide) h
  have fail : ∀ g i, s.writeFail b a g i v = s.store a v := fun g i => by
    unfold State.writeFail
    split
    on_goal -1 => rfl
    all_goals exact absurd (by decide) h
  simp only [State.writeReg, low, hostLnk, mid, seq, pin, fail, ite_self]

/-- A write that no register and no window takes (R348). -/
theorem State.busWrite_of_reserved (s : State) (src : Src) {a : Nat} (v : Word) (be : BitVec 4) (hw : sramWindow a = none)
    (hr : regAt a = none) : s.busWrite src a v be = s := by
  unfold State.busWrite
  rw [hw, hr]
  split <;> rfl

/-- A write of a register with a byte enable clear (R349). -/
theorem State.busWrite_of_partial (s : State) (src : Src) {a : Nat} (v : Word) {be : BitVec 4} (hw : sramWindow a = none)
    (hbe : be ≠ 0xF) : s.busWrite src a v be = s := by
  unfold State.busWrite
  rw [hw]
  split
  · dsimp only
    split
    · rfl
    · rw [if_pos hbe]
  · rfl

/-- A whole word written to a register that the bus reaches. -/
theorem State.busWrite_of_reg {s : State} {src : Src} {a : Nat} {r : RegRow} {ix : List Nat} (v : Word)
    (ha : s.accessOf src a = .full) (hr : regAt a = some (r, ix)) :
    s.busWrite src a v 0xF =
      if reservedBits a v = 0 then s.writeReg r.base a ix v else s.errWrite a (fun s => s.writeReg r.base a ix v) := by
  have hw := sramWindow_eq_none (Nat.lt_trans (regAt_lt hr) (by omega))
  unfold State.busWrite
  rw [ha, hw, hr]
  dsimp only
  rw [if_neg (by simp), ite_not]

/-- A word written into an SRAM window that the bus reaches. -/
theorem State.busWrite_of_window {s : State} {src : Src} {a id o : Nat} (v : Word) (be : BitVec 4)
    (ha : s.accessOf src a = .full) (hw : sramWindow a = some (id, o)) :
    s.busWrite src a v be = s.windowWrite id o v be := by
  unfold State.busWrite
  rw [ha, hw]

theorem exec_registerWrite_of_aligned {src : Src} {a : BitVec 26} (v : Word) (be : BitVec 4) (s : State) (h : a.toNat % 4 = 0) :
    exec (.registerWrite src a v be) s = .next (s.busWrite src a.toNat v be) := by
  simp only [exec_registerWrite, execRegisterWrite, h]
  exact if_neg (by simp)

theorem State.mode_of_inService {s : State} (h : s.inService = true) : s.mode = .idle ∨ s.mode = .run ∨ s.mode = .cal := by
  unfold State.inService at h
  cases hm : s.mode <;> simp_all

/-- In service the bus reaches everything (R347). -/
theorem State.access_of_inService {s : State} (h : s.inService = true) (a : Nat) : s.access a = .full := by
  rcases s.mode_of_inService h with h | h | h <;> simp only [State.access, h]

theorem State.accessOf_of_inService {s : State} (h : s.inService = true) (src : Src) (a : Nat) : s.accessOf src a = .full := by
  have ha := s.access_of_inService h a
  rcases s.mode_of_inService h with h | h | h <;> cases src <;> simp [State.accessOf, h, ha]

/-- The word at an address after a store there (R5, R354). -/
theorem State.reg_store {s : State} {a : Nat} {r : RegRow} {ix : List Nat} (v : Word) (hr : regAt a = some (r, ix)) :
    (s.store a v).reg a =
      if s.locked a then s.reg a else BitVec.ofNat 32 (r.written (s.reg a).toNat v.toNat) := by
  simp only [State.store, hr]
  split
  · rfl
  · exact State.reg_setReg_same s a _

/-- A store changes one register. -/
theorem State.store_onlyRegs (s : State) (a : Nat) (v : Word) : OnlyRegs [a] s (s.store a v) := by
  unfold State.store
  split
  · exact ⟨rfl, fun _ _ => rfl⟩
  · split
    · exact ⟨rfl, fun _ _ => rfl⟩
    · exact ⟨rfl, fun b hb => State.reg_setReg_ne s _ (by simpa using hb)⟩

end Sys2Proof.Machine
end

section
/-! PROOF. Writes of BAR0 (O42). -/

namespace Sys2Proof.Machine

/-! ## Registers (R5, R348, R349) -/

/-- A write of a register without an action or a guard of its own is stored. -/
theorem exec_registerWrite_of_not_acting {src : Src} {a : BitVec 26} {v : Word} {r : RegRow} {ix : List Nat} {s : State}
    (h4 : a.toNat % 4 = 0) (ha : s.accessOf src a.toNat = .full) (hr : regAt a.toNat = some (r, ix))
    (hb : r.base ∉ actingBases) (hv : reservedBits a.toNat v = 0) :
    exec (.registerWrite src a v 0xF) s = .next (s.store a.toNat v) := by
  rw [exec_registerWrite_of_aligned v _ s h4, State.busWrite_of_reg v ha hr, if_pos hv, State.writeReg_of_not_acting s _ _ v hb]

/-- A write that the bus discards changes nothing, aligned or not. -/
theorem exec_registerWrite_of_discarded {src : Src} {a : BitVec 26} {v : Word} {be : BitVec 4} {s : State}
    (h : s.busWrite src a.toNat v be = s) : exec (.registerWrite src a v be) s = .next s := by
  rw [exec_registerWrite, execRegisterWrite, h, ite_self]

theorem FAIL_CFG_not_locked (g : Nat) (s : State) : s.locked (FAIL_CFG.addr g) = false := by
  unfold State.locked FAIL_CFG.addr
  rw [if_neg (by omega), if_neg (by simp only [CLK_OCXO_TRIM.addr]; omega)]

/-- A field of RW bits reads the written word's after a store. -/
theorem State.fld_store_of_rw {s : State} {a lo len : Nat} {r : RegRow} {ix : List Nat} (v : Word)
    (hr : regAt a = some (r, ix)) (hl : s.locked a = false) (hf : lo + len ≤ 32) (hrw : r.rw < 2 ^ 32) (hw : r.w1c = 0)
    (h : bitsOf r.rw lo len = 2 ^ len - 1) : (s.store a v).fld ⟨a, lo, len⟩ = bitsOf v.toNat lo len := by
  have hreg : (s.store a v).reg a = BitVec.ofNat 32 (r.written (s.reg a).toNat v.toNat) := by
    rw [State.reg_store v hr, hl, if_neg (by simp)]
  rw [State.fld, hreg, BitVec.toNat_ofNat, Nat.mod_eq_of_lt (r.written_lt _ _), r.bitsOf_written hf hrw hw h]

/-- One RW bit reads the written word's after a store. -/
theorem State.flag_store_of_rw {s : State} {a lo : Nat} {r : RegRow} {ix : List Nat} (v : Word)
    (hr : regAt a = some (r, ix)) (hl : s.locked a = false) (hf : lo + 1 ≤ 32) (hrw : r.rw < 2 ^ 32) (hw : r.w1c = 0)
    (h : bitsOf r.rw lo 1 = 1) : (s.store a v).flag ⟨a, lo, 1⟩ = wbit v lo := by
  rw [State.flag, State.fld_store_of_rw v hr hl hf hrw hw h, wbit, bitOf, bitsOf]
  exact decide_eq_decide.mpr (by omega)

/-! ## SRAM windows (R325) -/

/-- A bit of a byte-enable mask chooses between the new and the old byte. -/
theorem getD_mergeBe (be : BitVec 4) (old new : List Byte) {i : Nat} (hi : i < 4) (d : Byte) :
    (mergeBe be old new).getD i d = if bitOf be.toNat i then new.getD i 0 else old.getD i 0 := by
  simp [mergeBe, List.getD_eq_getElem?_getD, hi]

theorem length_mergeBe (be : BitVec 4) (old new : List Byte) : (mergeBe be old new).length = 4 := by simp [mergeBe]

/-- Byte i of a number in little-endian order. -/
theorem getD_leBytes (d : Byte) : ∀ {n i : Nat} (v : Nat), i < n → (leBytes n v).getD i d = BitVec.ofNat 8 (v / 256 ^ i)
  | _ + 1, 0, v, _ => by simp [leBytes]
  | n + 1, i + 1, v, h => by
    have ih := getD_leBytes d (n := n) (i := i) (v / 256) (by omega)
    rw [leBytes, List.getD_cons_succ, ih, Nat.div_div_eq_div_mul, Nat.pow_succ']

/-- An entry of a slice of a table. -/
theorem Tab.getD_slice {α : Type} (f : Nat → α) (t : Tab α) (d : α) :
    ∀ {n i : Nat} (k : Nat), i < n → (Tab.slice f t k n).getD i d = Tab.get f t (k + i)
  | _ + 1, 0, _, _ => rfl
  | n + 1, i + 1, k, h => by
    have ih := Tab.getD_slice f t d (n := n) (i := i) (k + 1) (by omega)
    rw [Tab.slice, List.getD_cons_succ, ih, Nat.add_assoc, Nat.add_comm 1 i]

/-- The bytes of the pool after a write into its window: those enabled are the word's, all others as before. -/
theorem State.windowWrite_pool (s : State) (o : Nat) (v : Word) (be : BitVec 4) :
    (∀ i, i < 4 → bitOf be.toNat i = true →
      (s.windowWrite 1 o v be).poolAt (o + i) = BitVec.ofNat 8 (v.toNat / 256 ^ i)) ∧
    (∀ i, i < 4 → bitOf be.toNat i = false → (s.windowWrite 1 o v be).poolAt (o + i) = s.poolAt (o + i)) ∧
    (∀ b, b < o ∨ o + 4 ≤ b → (s.windowWrite 1 o v be).poolAt b = s.poolAt b) ∧
    (s.windowWrite 1 o v be).withPool s.pool = s := by
  have hw : s.windowWrite 1 o v be = s.poolPut o (mergeBe be (s.poolBytes o 4) (leBytes 4 v.toNat)) := rfl
  have hlen := length_mergeBe be (s.poolBytes o 4) (leBytes 4 v.toNat)
  have lane : ∀ i, i < 4 → (s.windowWrite 1 o v be).poolAt (o + i) =
      if bitOf be.toNat i then (leBytes 4 v.toNat).getD i 0 else (s.poolBytes o 4).getD i 0 := fun i hi => by
    rw [hw, State.poolAt_poolPut_in s _ (Nat.le_add_right o i) (by omega), Nat.add_sub_cancel_left, getD_mergeBe be _ _ hi]
  refine ⟨fun i hi hb => ?_, fun i hi hb => ?_, fun b hb => ?_, ?_⟩
  · rw [lane i hi, hb, if_pos rfl, getD_leBytes 0 v.toNat hi]
  · rw [lane i hi, hb, if_neg Bool.false_ne_true]
    exact Tab.getD_slice ramByte s.pool 0 o hi
  · rw [hw, State.poolAt_poolPut_out s _ (by omega)]
  · rw [hw]; rfl

theorem sramWindow_pool {a : Nat} (h : 0x1000000 ≤ a ∧ a < 0x2000000) : sramWindow a = some (1, a - 0x1000000) := by
  rw [sramWindow, if_neg (by omega), if_pos h]

/-- Settles O42: registers by the word that a store leaves, SRAM lane by lane, access types by the bits of that word. -/
theorem writesComplete : Obligations.WritesComplete := by
  unfold Obligations.WritesComplete
  refine ⟨?_, ?_, ?_, ?_, ?_, ?_⟩
  · intro src g v s hs hv
    have hg := g.isLt
    have ha : (BitVec.ofNat 26 (FAIL_CFG.addr g)).toNat = FAIL_CFG.addr g := by
      rw [BitVec.toNat_ofNat, Nat.mod_eq_of_lt (by unfold FAIL_CFG.addr; omega)]
    have hr := regAt_FAIL_CFG g
    have hl := FAIL_CFG_not_locked g s
    have he := exec_registerWrite_of_not_acting (src := src) (a := BitVec.ofNat 26 (FAIL_CFG.addr g)) (v := v) (s := s)
      (by rw [ha]; unfold FAIL_CFG.addr; omega) (State.accessOf_of_inService hs _ _) (by rw [ha]; exact hr) (by decide)
      (by rw [ha]; exact hv)
    rw [ha] at he
    refine ⟨_, he, ?_, ?_, ?_, State.store_onlyRegs s _ v⟩
    · exact State.fld_store_of_rw (lo := 16) (len := 16) v hr hl (by decide) (by decide) rfl (by decide)
    · exact State.flag_store_of_rw (lo := 7) v hr hl (by decide) (by decide) rfl (by decide)
    · exact State.flag_store_of_rw (lo := 6) v hr hl (by decide) (by decide) rfl (by decide)
  · intro src a v r ix s h4 ha _ hr hb hv
    exact ⟨_, exec_registerWrite_of_not_acting h4 ha hr hb hv, State.reg_store v hr, State.store_onlyRegs s _ v⟩
  · intro src a v be s hw hbe
    exact exec_registerWrite_of_discarded (State.busWrite_of_partial s src v hw hbe)
  · intro src a v be s hw hr
    exact exec_registerWrite_of_discarded (State.busWrite_of_reserved s src v be hw hr)
  · intro src a v be s hs h4 hlo hhi
    have hb := State.busWrite_of_window v be (State.accessOf_of_inService hs src a.toNat) (sramWindow_pool ⟨hlo, hhi⟩)
    exact ⟨_, exec_registerWrite_of_aligned v be s h4, by rw [hb]; exact State.windowWrite_pool s _ v be⟩
  · intro r old v i hi _ _ hrw hw
    simp only [bitOf_eq_testBit]
    exact r.testBit_written hi hrw hw

end Sys2Proof.Machine
end

section
/-! SUPPORT. What no host error reaches, and that whatever a host error disturbs spares it (R9). -/

namespace Sys2Proof.Machine

/-! ## What no host error reaches (R9) -/

/-- The bits of a register that no host error reaches: those of SYS, CLK, PWR, NVM, LC, EVT, MON and CAL, of PIN_CFG, PIN_MON_WIN,
SEQ_CB_MASK and FAIL_RING_CH, PIN_STATUS.MON_DIS and SEQ_STATUS.STATE; by base address. -/
def shelter (b : Nat) : Nat :=
  if b < 0x60000 ∨ (0x90000 ≤ b ∧ b < 0xB0000) then 0xFFFFFFFF
  else match b with
    | 0x400000 | 0x400500 | 0x100020 | 0x800100 => 0xFFFFFFFF
    | 0x400004 => 0x80
    | 0x100004 => 0x7
    | _ => 0

/-- The same by address; where no register stands nothing is written. -/
def shelterAt (a : Nat) : Nat :=
  match regAt a with
  | some (r, _) => shelter r.base
  | none => 0xFFFFFFFF

theorem shelterAt_of_reg {a : Nat} {r : RegRow} {ix : List Nat} (h : regAt a = some (r, ix)) : shelterAt a = shelter r.base := by
  rw [shelterAt, h]

/-- The registers of SYS to EVT, of MON and of CAL are sheltered as a whole, with the addresses between them. -/
theorem shelterAt_of_block {a : Nat} (h : a < 0x60000 ∨ (0x90000 ≤ a ∧ a < 0xB0000)) : shelterAt a = 0xFFFFFFFF := by
  cases hr : regAt a with
  | none => rw [shelterAt, hr]
  | some x =>
    obtain ⟨r, ix⟩ := x
    obtain ⟨hmem, hle⟩ := regFind_mem hr
    rw [shelterAt_of_reg hr]
    refine if_pos ?_
    rcases h with h | ⟨hlo, hhi⟩
    · exact .inl (by omega)
    · have hbase : (regRowsAt a).all (fun r => decide (0x90000 ≤ r.base)) = true := by
        unfold regRowsAt
        repeat rw [if_neg (by omega)]
        split
        · rfl
        · rw [if_pos (by omega)]; rfl
      exact .inr ⟨by simpa using List.all_eq_true.mp hbase r hmem, by omega⟩

theorem regAt_PIN_CFG (c : Chan) : regAt (PIN_CFG.addr c) =
    some (⟨"PIN_CFG", 0x400000, [(1024, 0x1000)], 0xF, 0x0, 0x0, 0x2, 0, 0x10F⟩, [c.val]) := by
  have hc := c.isLt
  rw [regAt, PIN_CFG.addr, regRowsAt_pin (by omega)]
  exact regFind_of_family (o := 0) 1 hc (by omega) (by decide) rfl

theorem regAt_PIN_STATUS (c : Chan) : regAt (PIN_STATUS.addr c) =
    some (⟨"PIN_STATUS", 0x400004, [(1024, 0x1000)], 0x0, 0x3E0, 0x0, 0x2, 0, 0xFFFFF3FF⟩, [c.val]) := by
  have hc := c.isLt
  have e : PIN_STATUS.addr c = 0x400000 + 0x1000 * c + 4 := by unfold PIN_STATUS.addr; omega
  rw [regAt, e, regRowsAt_pin (by omega)]
  exact regFind_of_family 2 hc (by omega) (by decide) rfl

theorem regAt_PIN_MON_WIN (c : Chan) : regAt (PIN_MON_WIN.addr c) =
    some (⟨"PIN_MON_WIN", 0x400500, [(1024, 0x1000)], 0xB3FF03FF, 0x0, 0x0, 0x3FF0000, 0, 0xB3FF03FF⟩, [c.val]) := by
  have hc := c.isLt
  have e : PIN_MON_WIN.addr c = 0x400000 + 0x1000 * c + 0x500 := by unfold PIN_MON_WIN.addr; omega
  rw [regAt, e, regRowsAt_pin (by omega)]
  exact regFind_of_family 33 hc (by omega) (by decide) rfl

theorem regAt_PIN_PPMU_CFG (c : Chan) : regAt (PIN_PPMU_CFG.addr c) =
    some (⟨"PIN_PPMU_CFG", 0x400400, [(1024, 0x1000)], 0x4FFFFF1F, 0x0, 0x80000000, 0x0, 0, 0xCFFFFF1F⟩, [c.val]) := by
  have hc := c.isLt
  have e : PIN_PPMU_CFG.addr c = 0x400000 + 0x1000 * c + 0x400 := by unfold PIN_PPMU_CFG.addr; omega
  rw [regAt, e, regRowsAt_pin (by omega)]
  exact regFind_of_family 30 hc (by omega) (by decide) rfl

theorem regAt_SEQ_STATUS (n : Act) : regAt (SEQ_STATUS.addr n) =
    some (⟨"SEQ_STATUS", 0x100004, [(16, 0x10000)], 0x0, 0xC00, 0x0, 0x0, 0, 0xFFFF0D87⟩, [n.val]) := by
  have hn := n.isLt
  have e : SEQ_STATUS.addr n = 0x100000 + 0x10000 * n + 4 := by unfold SEQ_STATUS.addr; omega
  rw [regAt, e, regRowsAt_seq (by omega)]
  exact regFind_of_family 2 hn (by omega) (by decide) rfl

theorem regAt_SEQ_CB_MASK (n : Act) : regAt (SEQ_CB_MASK.addr n) =
    some (⟨"SEQ_CB_MASK", 0x100020, [(16, 0x10000)], 0xFFFF, 0x0, 0x0, 0x0, 0, 0xFFFF⟩, [n.val]) := by
  have hn := n.isLt
  have e : SEQ_CB_MASK.addr n = 0x100000 + 0x10000 * n + 0x20 := by unfold SEQ_CB_MASK.addr; omega
  rw [regAt, e, regRowsAt_seq (by omega)]
  exact regFind_of_family 8 hn (by omega) (by decide) rfl

theorem regAt_FAIL_RING_CH (g : Ring) (i : Fin 32) : regAt (FAIL_RING_CH.addr g i) =
    some (⟨"FAIL_RING_CH", 0x800100, [(64, 0x4000), (32, 0x4)], 0xFFFFFFFF, 0x0, 0x0, 0x0, 0, 0xFFFFFFFF⟩, [g.val, i.val]) := by
  have hg := g.isLt
  have hi := i.isLt
  have e : FAIL_RING_CH.addr g i = 0x800000 + 0x4000 * g + (0x100 + 4 * i) := by unfold FAIL_RING_CH.addr; omega
  have hfamily : ∀ j : Fin 32, regRows.fail.all (RegRow.inFamily 0x800000 64 0x4000 (0x100 + 4 * j)) = true := by decide
  have hfind : ∀ j : Fin 32, regFind regRows.fail (0x800000 + (0x100 + 4 * j)) =
      some (⟨"FAIL_RING_CH", 0x800100, [(64, 0x4000), (32, 0x4)], 0xFFFFFFFF, 0x0, 0x0, 0x0, 0, 0xFFFFFFFF⟩, [0, j.val]) := by
    decide
  rw [regAt, e, regRowsAt_fail (by omega), regFind_instance hg (by omega) (hfamily i), hfind i]
  rfl

/-! ## The free parts of the registers spare what is sheltered -/

/-- A base address outside the blocks sheltered as a whole, and none of the six registers with sheltered bits. -/
theorem shelter_of_open {b : Nat} (hblock : ¬ (b < 0x60000 ∨ (0x90000 ≤ b ∧ b < 0xB0000)))
    (h : b ∉ [0x400000, 0x400500, 0x100020, 0x800100, 0x400004, 0x100004]) : shelter b = 0 := by
  unfold shelter
  rw [if_neg hblock]
  split
  on_goal -1 => rfl
  all_goals exact absurd (by decide) h

/-- A register of an open block. -/
theorem shelter_of_range {b : Nat} (h : (0x60000 ≤ b ∧ b < 0x90000) ∨ (0xB0000 ≤ b ∧ b < 0x100000)) : shelter b = 0 :=
  shelter_of_open (by omega) (by simp only [List.mem_cons, List.not_mem_nil, or_false]; omega)

theorem pinOwn_shelter (r : RegRow) (h : 0x400000 ≤ r.base ∧ r.base < 0x800000) : pinOwn r &&& shelter r.base = 0 := by
  by_cases h0 : r.base = 0x400000
  · have e : pinOwn r = 0 := by unfold pinOwn; rw [h0]; rfl
    rw [e, Nat.zero_and]
  by_cases h1 : r.base = 0x400500
  · have e : pinOwn r = 0 := by unfold pinOwn; rw [h1]; rfl
    rw [e, Nat.zero_and]
  by_cases h2 : r.base = 0x400004
  · have e : pinOwn r = 0xFFFFF330 := by unfold pinOwn; rw [h2]; rfl
    rw [e, h2]; rfl
  · rw [shelter_of_open (by omega) (by simp only [List.mem_cons, List.not_mem_nil, or_false]; omega), Nat.and_zero]

theorem ringOwn_shelter (r : RegRow) (h : 0x800000 ≤ r.base) : ringOwn r &&& shelter r.base = 0 := by
  by_cases h0 : r.base = 0x800100
  · have e : ringOwn r = 0 := by unfold ringOwn; rw [h0]; rfl
    rw [e, Nat.zero_and]
  · rw [shelter_of_open (by omega) (by simp only [List.mem_cons, List.not_mem_nil, or_false]; omega), Nat.and_zero]

theorem seqOwn_shelter (r : RegRow) (h : 0x100000 ≤ r.base ∧ r.base < 0x400000) : seqOwn r &&& shelter r.base = 0 := by
  by_cases h0 : r.base = 0x100020
  · have e : seqOwn r = 0 := by unfold seqOwn; rw [h0]; rfl
    rw [e, Nat.zero_and]
  by_cases h1 : r.base = 0x100004
  · have e : seqOwn r = 0xFFFF0D80 := by unfold seqOwn; rw [h1]; rfl
    rw [e, h1]; rfl
  · rw [shelter_of_open (by omega) (by simp only [List.mem_cons, List.not_mem_nil, or_false]; omega), Nat.and_zero]

/-- The module-wide registers that host errors reach stand in open blocks. -/
theorem wideOwn_eq_zero_or (r : RegRow) :
    wideOwn r = 0 ∨ (0x60000 ≤ r.base ∧ r.base < 0x90000) ∨ (0xB0000 ≤ r.base ∧ r.base < 0x100000) := by
  unfold wideOwn
  generalize r.base = b
  split
  case h_10 => exact .inl rfl
  all_goals exact .inr (by omega)

theorem wideOwn_shelter (r : RegRow) : wideOwn r &&& shelter r.base = 0 := by
  rcases wideOwn_eq_zero_or r with h | h
  · rw [h, Nat.zero_and]
  · rw [shelter_of_range h, Nat.and_zero]

/-- Whether the names of some rows' bits are bits of a word. -/
def namesFit (rows : List RegRow) : Bool := rows.all (fun r => decide (r.named < 2 ^ 32))

theorem namesFit_ite {p : Prop} [Decidable p] {l l' : List RegRow} (h : namesFit l = true) (h' : namesFit l' = true) :
    namesFit (if p then l else l') = true := by
  split
  · exact h
  · exact h'

theorem regRowsAt_namesFit (a : Nat) : namesFit (regRowsAt a) = true := by
  unfold regRowsAt
  repeat refine namesFit_ite rfl ?_
  rfl

theorem regAt_named_lt {a : Nat} {r : RegRow} {ix : List Nat} (h : regAt a = some (r, ix)) : r.named < 2 ^ 32 :=
  of_decide_eq_true (List.all_eq_true.mp (regRowsAt_namesFit a) r (regFind_mem h).1)

/-- A mask by address that reaches no sheltered bit. -/
def Spares (m : Nat → Nat) : Prop := ∀ a, m a < 2 ^ 32 ∧ m a &&& shelterAt a = 0

theorem pinOwn_lt {r : RegRow} (h : r.named < 2 ^ 32) : pinOwn r < 2 ^ 32 := by
  unfold pinOwn
  split <;> omega

theorem ringOwn_lt {r : RegRow} (h : r.named < 2 ^ 32) : ringOwn r < 2 ^ 32 := by
  unfold ringOwn
  split <;> omega

theorem seqOwn_lt {r : RegRow} (h : r.named < 2 ^ 32) : seqOwn r < 2 ^ 32 := by
  unfold seqOwn
  split <;> omega

theorem wideOwn_lt {r : RegRow} (h : r.named < 2 ^ 32) : wideOwn r < 2 ^ 32 := by
  unfold wideOwn
  split <;> omega

/-- One copy of a block: its mask spares what each of its rows' masks spares. -/
theorem spares_instBits {own : RegRow → Nat} {lo hi : Nat} (i : Nat)
    (h : ∀ r : RegRow, r.named < 2 ^ 32 → lo ≤ r.base ∧ r.base < hi → own r < 2 ^ 32 ∧ own r &&& shelter r.base = 0) :
    Spares (instBits own lo hi i) := by
  intro a
  unfold instBits
  cases hr : regAt a with
  | none => exact ⟨Nat.two_pow_pos 32, Nat.zero_and _⟩
  | some x =>
    obtain ⟨r, ix⟩ := x
    dsimp only
    rw [shelterAt_of_reg hr]
    split
    · rename_i hin
      exact h r (regAt_named_lt hr) ⟨hin.1, hin.2.1⟩
    · exact ⟨Nat.two_pow_pos 32, Nat.zero_and _⟩

/-- The named bits of one copy of an open block. -/
theorem spares_instBits_named {lo hi : Nat} (i : Nat)
    (h : (0x60000 ≤ lo ∧ hi ≤ 0x90000) ∨ (0xB0000 ≤ lo ∧ hi ≤ 0x100000)) :
    Spares (instBits RegRow.named lo hi i) :=
  spares_instBits i fun r hn hr => ⟨hn, by rw [shelter_of_range (by omega), Nat.and_zero]⟩

theorem spares_pinBits (i : Nat) : Spares (instBits pinOwn 0x400000 0x800000 i) :=
  spares_instBits i fun r hn hr => ⟨pinOwn_lt hn, pinOwn_shelter r hr⟩

theorem spares_ringBits (i : Nat) : Spares (instBits ringOwn 0x800000 0x900000 i) :=
  spares_instBits i fun r hn hr => ⟨ringOwn_lt hn, ringOwn_shelter r hr.1⟩

theorem Spares.or {m m' : Nat → Nat} (h : Spares m) (h' : Spares m') : Spares (fun a => m a ||| m' a) := fun a =>
  ⟨Nat.or_lt_two_pow (h a).1 (h' a).1, by rw [Nat.and_or_distrib_right, (h a).2, (h' a).2, Nat.or_zero]⟩

/-- The register bits of an act. -/
theorem spares_actBits (s : State) (n : Nat) : Spares (s.actBits n) := by
  intro a
  unfold State.actBits
  cases hr : regAt a with
  | none => exact ⟨Nat.two_pow_pos 32, Nat.zero_and _⟩
  | some x =>
    obtain ⟨r, ix⟩ := x
    have hn := regAt_named_lt hr
    dsimp only
    rw [shelterAt_of_reg hr]
    split_ifs with h1 h2 _ h3
    · exact ⟨Nat.two_pow_pos 32, Nat.zero_and _⟩
    · exact ⟨seqOwn_lt hn, seqOwn_shelter r (by omega)⟩
    · exact ⟨Nat.two_pow_pos 32, Nat.zero_and _⟩
    · exact ⟨pinOwn_lt hn, pinOwn_shelter r (by omega)⟩
    · exact ⟨Nat.two_pow_pos 32, Nat.zero_and _⟩
    · exact ⟨ringOwn_lt hn, ringOwn_shelter r (by omega)⟩
    · exact ⟨Nat.two_pow_pos 32, Nat.zero_and _⟩

/-- The register bits of a module-wide block that no act hangs on. -/
theorem spares_wideBits {a : Nat} {r : RegRow} {ix : List Nat} (h : regAt a = some (r, ix)) :
    Spares (fun b => if b = a then wideOwn r else 0) := by
  intro b
  dsimp only
  split
  · rename_i e
    subst e
    rw [shelterAt_of_reg h]
    exact ⟨wideOwn_lt (regAt_named_lt h), wideOwn_shelter r⟩
  · exact ⟨Nat.two_pow_pos 32, Nat.zero_and _⟩

/-! ## Parts mixed from another state: what that leaves alone -/

/-- Mixing registers changes the register file alone. -/
theorem State.mixRegs_eq (s t : State) (m : Nat → Nat) : (s.mixRegs t m).withRegs s.regs = s :=
  State.each_inv (P := fun u => u.withRegs s.regs)
    (f := fun a s => s.setReg a (BitVec.ofNat 32 (mixWord (m a) (s.reg a).toNat (t.reg a).toNat))) (fun _ _ => rfl) _ s

/-- Mixing DRAM changes DRAM alone. -/
theorem State.mixDram_eq (s t : State) (own : Nat → Bool) : (s.mixDram t own).withDram s.dram = s :=
  State.each_inv (P := fun u => u.withDram s.dram) (fun a s => by split <;> rfl) _ s

/-! ## States that differ only where a host error reaches -/

/-- A state with the parts that host errors reach taken from another. -/
def State.confine (s t : State) : State :=
  { t with regs := s.regs, dram := s.dram, acts := s.acts, chans := s.chans, rings := s.rings, rq := s.rq, trigs := s.trigs,
           streams := s.streams, queues := s.queues, shows := s.shows, freeCtr := s.freeCtr }

/-- A step of a host error: no more than what it may reach differs, and there no sheltered bit of a register, no park, bank,
start or abort. -/
structure Spared (s t : State) : Prop where
  confined : s.confine t = s
  regs : ∀ a i, (shelterAt a).testBit i = true → (t.reg a).toNat.testBit i = (s.reg a).toNat.testBit i
  chans : ∀ c, (t.chan c).park = (s.chan c).park ∧ (t.chan c).ringPark = (s.chan c).ringPark ∧
    (t.chan c).active = (s.chan c).active ∧ (t.chan c).staged = (s.chan c).staged
  acts : ∀ n, (t.act n).armedBy = (s.act n).armedBy ∧ (t.act n).aborted = (s.act n).aborted

theorem Spared.refl (s : State) : Spared s s :=
  ⟨rfl, fun _ _ _ => rfl, fun _ => ⟨rfl, rfl, rfl, rfl⟩, fun _ => ⟨rfl, rfl⟩⟩

theorem Spared.trans {s t u : State} (h : Spared s t) (k : Spared t u) : Spared s u where
  confined := calc
    s.confine u = s.confine (t.confine u) := rfl
    _ = s := by rw [k.confined, h.confined]
  regs a i hi := (k.regs a i hi).trans (h.regs a i hi)
  chans c := by
    obtain ⟨k1, k2, k3, k4⟩ := k.chans c
    obtain ⟨h1, h2, h3, h4⟩ := h.chans c
    exact ⟨k1.trans h1, k2.trans h2, k3.trans h3, k4.trans h4⟩
  acts n := ⟨(k.acts n).1.trans (h.acts n).1, (k.acts n).2.trans (h.acts n).2⟩

theorem Spared.each {f : Nat → State → State} (h : ∀ n s, Spared s (f n s)) :
    ∀ (l : List Nat) (s : State), Spared s (State.each f l s)
  | [], s => .refl s
  | n :: l, s => (h n s).trans (Spared.each h l (f n s))

theorem Spared.ite {s t u : State} {p : Prop} [Decidable p] (ht : Spared s t) (hu : Spared s u) :
    Spared s (if p then t else u) := by
  split
  · exact ht
  · exact hu

/-- A change elsewhere than in registers, channels and acts. -/
theorem Spared.of_same {s t : State} (h : s.confine t = s) (hr : t.regs = s.regs) (hc : t.chans = s.chans)
    (ha : t.acts = s.acts) : Spared s t where
  confined := h
  regs _ _ _ := by rw [State.reg_congr hr]
  chans c := by simp only [State.chan, hc, and_self]
  acts n := by simp only [State.act, ha, and_self]

/-- A register whose sheltered bits stay. -/
theorem Spared.setReg {s : State} {a : Nat} {w : Word}
    (h : ∀ i, (shelterAt a).testBit i = true → w.toNat.testBit i = (s.reg a).toNat.testBit i) : Spared s (s.setReg a w) where
  confined := rfl
  regs b i hi := by
    by_cases hb : b = a
    · subst hb; rw [State.reg_setReg_same]; exact h i hi
    · rw [State.reg_setReg_ne s w hb]
  chans _ := ⟨rfl, rfl, rfl, rfl⟩
  acts _ := ⟨rfl, rfl⟩

/-- A register without sheltered bits. -/
theorem Spared.setReg_open (s : State) {a : Nat} (w : Word) (h : shelterAt a = 0) : Spared s (s.setReg a w) :=
  .setReg fun i hi => by rw [h, Nat.zero_testBit] at hi; cases hi

theorem Spared.put_open (s : State) {f : Field} (v : Nat) (h : shelterAt f.addr = 0) : Spared s (s.put f v) :=
  .setReg_open s _ h

theorem Spared.store_open (s : State) {a : Nat} (v : Word) (h : shelterAt a = 0) : Spared s (s.store a v) := by
  unfold State.store
  split
  · exact .refl s
  · exact .ite (.refl s) (.setReg_open s _ h)

theorem Spared.setAct (s : State) (n : Nat) {x : ActSt} (h : x.armedBy = (s.act n).armedBy ∧ x.aborted = (s.act n).aborted) :
    Spared s (s.setAct n x) where
  confined := rfl
  regs _ _ _ := rfl
  chans _ := ⟨rfl, rfl, rfl, rfl⟩
  acts m := by
    by_cases hm : m = n
    · subst hm; rw [State.setAct_same]; exact h
    · rw [State.setAct_ne s x hm]; exact ⟨rfl, rfl⟩

theorem Spared.setChan (s : State) (c : Nat) {x : ChanSt} (h : x.park = (s.chan c).park ∧ x.ringPark = (s.chan c).ringPark ∧
    x.active = (s.chan c).active ∧ x.staged = (s.chan c).staged) : Spared s (s.setChan c x) where
  confined := rfl
  regs _ _ _ := rfl
  chans d := by
    by_cases hd : d = c
    · subst hd; rw [State.setChan_same]; exact h
    · rw [State.setChan_ne s _ hd]; exact ⟨rfl, rfl, rfl, rfl⟩
  acts _ := ⟨rfl, rfl⟩

theorem Spared.setChan_mix (s : State) (c : Nat) (y : ChanSt) : Spared s (s.setChan c ((s.chan c).mix y)) :=
  .setChan s c ⟨rfl, rfl, rfl, rfl⟩

theorem Spared.takeFree (s : State) : Spared s s.takeFree := .of_same rfl rfl rfl rfl
theorem Spared.dramPut (s : State) (a : Nat) (bs : List Byte) : Spared s (s.dramPut a bs) := .of_same rfl rfl rfl rfl
theorem Spared.setRing (s : State) (g : Nat) (x : RingSt) : Spared s (s.setRing g x) := .of_same rfl rfl rfl rfl
theorem Spared.setTrig (s : State) (k : Nat) (x : TrigSt) : Spared s (s.setTrig k x) := .of_same rfl rfl rfl rfl
theorem Spared.setStream (s : State) (i : Nat) (x : StreamSt) : Spared s (s.setStream i x) := .of_same rfl rfl rfl rfl
theorem Spared.setQueue (s : State) (q : Nat) (x : QueueSt) : Spared s (s.setQueue q x) := .of_same rfl rfl rfl rfl
theorem Spared.setShow (s : State) (n : Nat) (x : ShowSt) : Spared s (s.setShow n x) := .of_same rfl rfl rfl rfl
theorem Spared.withRq (s : State) (x : RqSt) : Spared s (s.withRq x) := .of_same rfl rfl rfl rfl

/-- Registers mixed under a mask that spares. -/
theorem Spared.mixRegs (s t : State) {m : Nat → Nat} (h : Spares m) : Spared s (s.mixRegs t m) := by
  refine .each (fun a s => .setReg fun i hi => ?_) _ s
  obtain ⟨hlt, hand⟩ := h a
  have hm : (m a).testBit i = false := by
    have hb := congrArg (Nat.testBit · i) hand
    simpa [hi] using hb
  by_cases h32 : i < 32
  · rw [BitVec.toNat_ofNat, Nat.testBit_mod_two_pow, mixWord, Nat.testBit_or, Nat.testBit_and, Nat.testBit_and,
      testBit_mask_compl hlt h32, hm]
    simp [h32]
  · rw [Nat.testBit_lt_two_pow, Nat.testBit_lt_two_pow]
    · exact Nat.lt_of_lt_of_le (BitVec.isLt _) (Nat.pow_le_pow_right (by omega) (by omega))
    · exact Nat.lt_of_lt_of_le (BitVec.isLt _) (Nat.pow_le_pow_right (by omega) (by omega))

theorem Spared.mixDram (s t : State) (own : Nat → Bool) : Spared s (s.mixDram t own) :=
  .each (fun _ s => .ite (.dramPut s _ _) (.refl s)) _ s

/-! ### What every host error leaves free is spared -/

theorem Spared.disturbAct (n : Nat) (s : State) : Spared s (s.disturbAct n) := by
  unfold State.disturbAct
  refine Spared.trans ?_ (.each (fun g s => .setRing s g _) _ _)
  refine Spared.trans ?_ (.each (fun c s => .setChan_mix s c _) _ _)
  refine Spared.trans ?_ (.setAct _ n ⟨rfl, rfl⟩)
  exact ((Spared.takeFree s).trans (.mixRegs _ _ (spares_actBits s n))).trans (.mixDram _ _ _)

theorem Spared.disturbChan (c : Nat) (s : State) : Spared s (s.disturbChan c) := by
  have hc : (s.takeFree.mixRegs s.anyState (instBits pinOwn 0x400000 0x800000 c)).chan c = s.chan c := by
    have h := congrArg (State.chan · c) (s.takeFree.mixRegs_eq s.anyState (instBits pinOwn 0x400000 0x800000 c))
    exact h
  have h : Spared s ((s.takeFree.mixRegs s.anyState (instBits pinOwn 0x400000 0x800000 c)).setChan c
      ((s.chan c).mix (s.anyState.chan c))) :=
    ((Spared.takeFree s).trans (.mixRegs _ s.anyState (spares_pinBits c))).trans
      (.setChan _ c (by rw [hc]; exact ⟨rfl, rfl, rfl, rfl⟩))
  unfold State.disturbChan
  split
  · exact .ite (h.trans (.disturbAct _ _)) h
  · exact h

theorem Spared.disturbRing (g : Nat) (s : State) : Spared s (s.disturbRing g) := by
  have h := (((Spared.takeFree s).trans (.mixRegs _ s.anyState (spares_ringBits g))).trans
    (.mixDram _ s.anyState (inAreas (s.ringAreas g)))).trans (.setRing _ g (s.anyState.ring g))
  unfold State.disturbRing
  split
  · exact .ite (h.trans (.disturbAct _ _)) h
  · exact h

theorem Spared.disturbTrig (k : Nat) (s : State) : Spared s (s.disturbTrig k) :=
  ((Spared.takeFree s).trans (.mixRegs _ _
    ((spares_instBits_named k (by omega)).or (spares_instBits_named k (by omega))))).trans (.setTrig _ k _)

theorem Spared.disturbStream (i : Nat) (s : State) : Spared s (s.disturbStream i) :=
  (((Spared.takeFree s).trans (.mixRegs _ _ (spares_instBits_named i (by omega)))).trans (.mixDram _ _ _)).trans
    (.setStream _ i _)

theorem Spared.disturbQueue (q : Nat) (s : State) : Spared s (s.disturbQueue q) :=
  ((Spared.takeFree s).trans (.mixRegs _ _ (spares_instBits_named q (by omega)))).trans (.setQueue _ q _)

theorem Spared.disturbShow (n : Nat) (s : State) : Spared s (s.disturbShow n) :=
  ((Spared.takeFree s).trans (.mixRegs _ _ (spares_instBits_named n (by omega)))).trans (.setShow _ n _)

theorem Spared.disturbQueues (g : Nat) (s : State) : Spared s (s.disturbQueues g) :=
  (((Spared.takeFree s).trans (.mixRegs _ _ (spares_instBits_named g (by omega)))).trans (.mixDram _ _ _)).trans
    (.withRq _ _)

theorem Spared.disturbAt (s : State) (a : Nat) : Spared s (s.disturbAt a) := by
  unfold State.disturbAt
  cases hr : regAt a with
  | none => exact .refl s
  | some x =>
    obtain ⟨r, ix⟩ := x
    dsimp only
    split_ifs
    · exact .disturbQueue _ s
    · exact .disturbShow _ s
    · exact .disturbQueues _ s
    · exact .disturbStream _ s
    · exact .disturbTrig _ s
    · exact .disturbAct _ s
    · exact .disturbChan _ s
    · exact .disturbRing _ s
    · exact (Spared.takeFree s).trans (.mixRegs _ _ (spares_wideBits hr))

/-! ## From spared to undisturbed -/

/-- A register sheltered as a whole. -/
theorem Spared.reg_eq {s t : State} (h : Spared s t) {a : Nat} (ha : shelterAt a = 0xFFFFFFFF) : t.reg a = s.reg a := by
  refine BitVec.eq_of_toNat_eq (Nat.eq_of_testBit_eq fun i => ?_)
  by_cases hi : i < 32
  · refine h.regs a i ?_
    rw [ha, show 0xFFFFFFFF = 2 ^ 32 - 1 from rfl, Nat.testBit_two_pow_sub_one]
    exact decide_eq_true hi
  · have hw : ∀ w : Word, w.toNat.testBit i = false := fun w =>
      Nat.testBit_lt_two_pow (Nat.lt_of_lt_of_le w.isLt (Nat.pow_le_pow_right (by omega) (by omega)))
    rw [hw, hw]

/-- A field whose bits are sheltered. -/
theorem Spared.fld_eq {s t : State} (h : Spared s t) {f : Field}
    (hf : ∀ i, i < f.len → (shelterAt f.addr).testBit (f.lo + i) = true) : t.fld f = s.fld f := by
  refine Nat.eq_of_testBit_eq fun i => ?_
  rw [State.fld, State.fld, testBit_bitsOf, testBit_bitsOf]
  by_cases hi : i < f.len
  · rw [h.regs _ _ (hf i hi)]
  · simp [hi]

theorem Spared.undisturbed {s t : State} (h : Spared s t) : Undisturbed s t := by
  have pinCfg : ∀ c : Chan, shelterAt (PIN_CFG.addr c) = 0xFFFFFFFF := fun c => shelterAt_of_reg (regAt_PIN_CFG c)
  have monWin : ∀ c : Chan, shelterAt (PIN_MON_WIN.addr c) = 0xFFFFFFFF := fun c => shelterAt_of_reg (regAt_PIN_MON_WIN c)
  have pinStatus : ∀ c : Chan, shelterAt (PIN_STATUS.addr c) = 0x80 := fun c => shelterAt_of_reg (regAt_PIN_STATUS c)
  have seqStatus : ∀ n : Act, shelterAt (SEQ_STATUS.addr n) = 0x7 := fun n => shelterAt_of_reg (regAt_SEQ_STATUS n)
  have cbMask : ∀ n : Act, shelterAt (SEQ_CB_MASK.addr n) = 0xFFFFFFFF := fun n => shelterAt_of_reg (regAt_SEQ_CB_MASK n)
  have ringCh : ∀ (g : Ring) (i : Fin 32), shelterAt (FAIL_RING_CH.addr g i) = 0xFFFFFFFF := fun g i =>
    shelterAt_of_reg (regAt_FAIL_RING_CH g i)
  refine ⟨h.confined, fun a ha => h.reg_eq (shelterAt_of_block ha), h.chans,
    fun c => ⟨h.reg_eq (pinCfg c), h.reg_eq (monWin c), ?_⟩, h.acts, fun n => ⟨?_, h.reg_eq (cbMask n)⟩,
    fun g i => h.reg_eq (ringCh g i)⟩
  · have hf : t.fld (PIN_STATUS.MON_DIS c) = s.fld (PIN_STATUS.MON_DIS c) := h.fld_eq fun i hi => by
      obtain rfl : i = 0 := by simp only [PIN_STATUS.MON_DIS] at hi; omega
      rw [show (PIN_STATUS.MON_DIS c).addr = PIN_STATUS.addr c from rfl, pinStatus]
      exact (by decide : Nat.testBit 0x80 (7 + 0) = true)
    rw [State.flag, State.flag, hf]
  · refine h.fld_eq fun i hi => ?_
    have hi : i < 3 := hi
    rw [show (SEQ_STATUS.STATE n).addr = SEQ_STATUS.addr n from rfl, seqStatus]
    exact (by decide : ∀ i, i < 3 → Nat.testBit 7 (0 + i) = true) i hi

end Sys2Proof.Machine
end

section
/-! PROOF. Host errors of register writes: reserved bits, executing halves, timing and level sets (O60). -/

namespace Sys2Proof.Machine

/-! ## What a disturbance leaves alone beside (R9) -/

theorem State.act_congr {s t : State} (h : t.acts = s.acts) (m : Nat) : t.act m = s.act m := by
  rw [State.act, State.act, h]

@[simp] theorem State.mixRegs_acts (s t : State) (m : Nat → Nat) : (s.mixRegs t m).acts = s.acts :=
  State.each_inv (P := State.acts) (by intro _ _; rfl) _ s

@[simp] theorem State.mixDram_acts (s t : State) (own : Nat → Bool) : (s.mixDram t own).acts = s.acts :=
  State.each_inv (P := State.acts) (by intro _ _; split <;> rfl) _ s

theorem State.disturbAct_act_ne {m n : Nat} (s : State) (h : m ≠ n) : (s.disturbAct n).act m = s.act m := by
  unfold State.disturbAct
  refine (State.act_congr (State.each_inv (P := State.acts) (by intro _ _; rfl) _ _) m).trans ?_
  refine (State.act_congr (State.each_inv (P := State.acts) (by intro _ _; rfl) _ _) m).trans ?_
  exact (State.setAct_ne _ _ h).trans (State.act_congr (by simp [State.takeFree]) m)

/-! ## Register writes that are host errors (R6, R9, Table 18-11) -/

/-- A register write that is a host error, whose effect spares what is sheltered. -/
theorem Spared.errWrite (s : State) (a : Nat) {k : State → State} (h : ∀ s, Spared s (k s)) : Spared s (s.errWrite a k) := by
  unfold State.errWrite
  exact ((Spared.takeFree s).trans (.ite (h _) (.refl _))).trans (.disturbAt _ a)

/-- One that has no effect: by the free value, or at a register of the life cycle. -/
theorem Spared.errWrite_of_no_effect {s : State} {a : Nat} (k : State → State)
    (h : s.free.toNat % 2 = 0 ∨ (0x40000 ≤ a ∧ a < 0x50000)) : Spared s (s.errWrite a k) := by
  unfold State.errWrite
  dsimp only
  rw [if_neg (by omega)]
  exact (Spared.takeFree s).trans (.disturbAt _ a)

theorem regAt_of_reservedBits {a : Nat} {v : Word} (h : reservedBits a v ≠ 0) : ∃ r ix, regAt a = some (r, ix) := by
  unfold reservedBits at h
  split at h
  · exact ⟨_, _, ‹_›⟩
  · exact absurd rfl h

theorem State.busWrite_of_reservedBits {s : State} {src : Src} {a : Nat} {v : Word} (ha : s.accessOf src a = .full)
    (hv : reservedBits a v ≠ 0) : ∃ k, s.busWrite src a v 0xF = s.errWrite a k := by
  obtain ⟨r, ix, hr⟩ := regAt_of_reservedBits hv
  exact ⟨_, by rw [State.busWrite_of_reg v ha hr, if_neg hv]⟩

theorem State.hostWrite_of_reservedBits {s : State} {a : Nat} {v : Word} (k : State → State) (ha : s.access a = .full)
    (hv : reservedBits a v ≠ 0) : s.hostWrite a v k = s.errWrite a k := by
  rw [State.hostWrite, if_pos ha, if_neg hv]

theorem State.hostWrite_of_access {s : State} {a : Nat} {v : Word} (k : State → State) (ha : s.access a = .full)
    (hv : reservedBits a v = 0) : s.hostWrite a v k = k s := by
  rw [State.hostWrite, if_pos ha, if_pos hv]

/-- Where the host may write, so may PCIe (R347). -/
theorem State.accessOf_pcie {s : State} {a : Nat} (h : s.access a = .full) : s.accessOf .pcie a = .full := by
  unfold State.accessOf
  rw [if_neg]
  · exact h
  · intro hm
    rw [State.access, hm] at h
    cases h

/-- A row of one fixed register is the host's write of it, or a bus write of PCIe. -/
theorem exec_of_rowWrite {c : Instr} {a : Nat} {v : Word} (h : rowWrite c = some (a, v)) (s : State) :
    (∃ k, exec c s = .next (s.hostWrite a v k)) ∨ exec c s = .next (s.busWrite .pcie a v 0xF) := by
  unfold rowWrite at h
  split at h
  case h_32 => cases h
  case h_15 | h_16 | h_17 | h_18 | h_19 | h_20 => obtain ⟨rfl, rfl⟩ := Prod.mk.inj (Option.some.inj h); exact .inr rfl
  all_goals obtain ⟨rfl, rfl⟩ := Prod.mk.inj (Option.some.inj h); exact .inl ⟨_, rfl⟩

/-- Reserved bits written by such a row. -/
theorem exec_of_rowWrite_reservedBits {c : Instr} {a : Nat} {v : Word} {s : State} (h : rowWrite c = some (a, v))
    (ha : s.access a = .full) (hv : reservedBits a v ≠ 0) : ∃ k, exec c s = .next (s.errWrite a k) := by
  rcases exec_of_rowWrite h s with ⟨k, hk⟩ | hk
  · exact ⟨k, by rw [hk, State.hostWrite_of_reservedBits k ha hv]⟩
  · obtain ⟨k, hb⟩ := State.busWrite_of_reservedBits (State.accessOf_pcie ha) hv
    exact ⟨k, by rw [hk, hb]⟩

/-! ### A write into an executing half (R138) -/

/-- Free bytes drawn change only the place in the free values. -/
theorem State.freeBytes_eq : ∀ (n : Nat) (s : State),
    (State.freeBytes n s).1.length = n ∧ ∃ k, (State.freeBytes n s).2 = s.withFreeCtr k
  | 0, s => ⟨rfl, s.freeCtr, rfl⟩
  | n + 1, s => by
    obtain ⟨hl, k, hk⟩ := State.freeBytes_eq n s.takeFree
    exact ⟨congrArg (· + 1) hl, k, hk⟩

theorem sramWindow_banks {a : Nat} (h : 0x2000000 ≤ a) (h' : a < 0x4000000) : sramWindow a = some (0, a - 0x2000000) := by
  rw [sramWindow, if_neg (by omega), if_neg (by omega), if_pos ⟨h, h'⟩]

theorem State.windowWrite_executing {s : State} {o : Nat} (v : Word) (be : BitVec 4)
    (h : s.halfExecuting (o / 0x200000) (o / 0x100000 % 2) = true) :
    s.windowWrite 0 o v be =
      ((State.freeBytes 4 s).2.bankPut o (State.freeBytes 4 s).1).disturbAct (o / 0x200000) := by
  rw [State.windowWrite, if_pos ⟨rfl, h⟩]
  rfl

/-- Free bytes in a bank and a disturbed act: the other banks' bytes, the other acts and what is sheltered stay. -/
theorem State.disturbed_bank (s : State) (n o : Nat) :
    ∃ t, ((State.freeBytes 4 s).2.bankPut o (State.freeBytes 4 s).1).disturbAct n = t ∧ Spared (s.withBanks t.banks) t ∧
      (∀ b, b < o ∨ o + 4 ≤ b → t.bankAt b = s.bankAt b) ∧ (∀ m, m ≠ n → t.act m = s.act m) ∧
      t.mode = s.mode ∧ t.time = s.time ∧ t.otp = s.otp := by
  obtain ⟨hlen, k, hfree⟩ := State.freeBytes_eq 4 s
  rw [hfree]
  generalize (State.freeBytes 4 s).1 = bs at hlen
  have hf : ∀ fd : Followed, fd ≠ .dram →
      (((s.withFreeCtr k).bankPut o bs).disturbAct n).rd fd = ((s.withFreeCtr k).bankPut o bs).rd fd := fun fd h =>
    State.disturbAct_frame n _ fd h
  have hbanks := hf .banks (by decide)
  refine ⟨_, rfl, ?_, fun b hb => ?_, fun m hm => State.disturbAct_act_ne _ hm, hf .mode (by decide), hf .time (by decide),
    hf .otp (by decide)⟩
  · refine Spared.trans ?_ (.disturbAct n _)
    rw [show (((s.withFreeCtr k).bankPut o bs).disturbAct n).banks = _ from hbanks]
    exact .of_same rfl rfl rfl rfl
  · rw [State.bankAt, show (((s.withFreeCtr k).bankPut o bs).disturbAct n).banks = _ from hbanks]
    exact State.bankAt_bankPut_out (s.withFreeCtr k) bs (by omega)

/-! ### Writes of timing sets and level sets under an executing act (R96, R131) -/

/-- A timing set of an executing act, a level set, a format or an edge of a channel of one. -/
theorem State.writeReg_executing {s : State} {b : Nat} (a : Nat) {ix : List Nat} (v : Word)
    (h : (b ∈ [TMG_PERIOD_LO.addr 0 0, TMG_PERIOD_HI.addr 0 0] ∧ s.executing (ix.getD 0 0) = true) ∨
      (b ∈ [PIN_LVL_HI.addr 0 0, PIN_LVL_LO.addr 0 0, PIN_TS_FMT.addr 0 0, PIN_EDGE.addr 0 0] ∧
        s.chanExecuting (ix.getD 0 0) = true)) :
    s.writeReg b a ix v = s.errWrite a (fun s => s.store a v) ∧ shelter b = 0 := by
  simp only [List.mem_cons, List.not_mem_nil, or_false] at h
  rcases h with ⟨rfl | rfl, he⟩ | ⟨rfl | rfl | rfl | rfl, he⟩
  · exact ⟨if_pos he, rfl⟩
  · exact ⟨if_pos he, rfl⟩
  · exact ⟨if_pos he, rfl⟩
  · exact ⟨if_pos he, rfl⟩
  · exact ⟨if_pos he, rfl⟩
  · exact ⟨if_pos he, rfl⟩

/-! ### The clauses -/

theorem registerWrite_reservedBits {src : Src} {a : BitVec 26} {v : Word} {s : State} (h4 : a.toNat % 4 = 0)
    (ha : s.accessOf src a.toNat = .full) (hv : reservedBits a.toNat v ≠ 0) :
    ∃ t, exec (.registerWrite src a v 0xF) s = .next t ∧
      (s.free.toNat % 2 = 0 ∨ (0x40000 ≤ a.toNat ∧ a.toNat < 0x50000) → Undisturbed s t) := by
  obtain ⟨k, hb⟩ := State.busWrite_of_reservedBits ha hv
  exact ⟨_, exec_registerWrite_of_aligned v 0xF s h4, fun h => by
    rw [hb]; exact (Spared.errWrite_of_no_effect k h).undisturbed⟩

theorem rowWrite_reservedBits {c : Instr} {a : Nat} {v : Word} {s : State} (h : rowWrite c = some (a, v))
    (ha : s.access a = .full) (hv : reservedBits a v ≠ 0) :
    ∃ t, exec c s = .next t ∧ (s.free.toNat % 2 = 0 → Undisturbed s t) := by
  obtain ⟨k, hk⟩ := exec_of_rowWrite_reservedBits h ha hv
  exact ⟨_, hk, fun h => (Spared.errWrite_of_no_effect k (.inl h)).undisturbed⟩

theorem registerWrite_executingHalf {src : Src} {a : BitVec 26} (v : Word) (be : BitVec 4) {s : State} (h4 : a.toNat % 4 = 0)
    (ha : s.accessOf src a.toNat = .full) (hlo : 0x2000000 ≤ a.toNat)
    (hx : s.halfExecuting ((a.toNat - 0x2000000) / 0x200000) ((a.toNat - 0x2000000) / 0x100000 % 2) = true) :
    ∃ t, exec (.registerWrite src a v be) s = .next t ∧ Undisturbed (s.withBanks t.banks) t ∧
      (∀ b, b < a.toNat - 0x2000000 ∨ a.toNat - 0x2000000 + 4 ≤ b → t.bankAt b = s.bankAt b) ∧
      (∀ m, m ≠ (a.toNat - 0x2000000) / 0x200000 → t.act m = s.act m) ∧ t.mode = s.mode ∧ t.time = s.time ∧
      t.otp = s.otp := by
  obtain ⟨t, ht, hspared, hbank, hacts, hrest⟩ := s.disturbed_bank ((a.toNat - 0x2000000) / 0x200000) (a.toNat - 0x2000000)
  refine ⟨t, ?_, hspared.undisturbed, hbank, hacts, hrest⟩
  rw [exec_registerWrite_of_aligned v be s h4, State.busWrite_of_window v be ha (sramWindow_banks hlo a.isLt),
    State.windowWrite_executing v be hx, ht]

theorem registerWrite_executingSets {src : Src} {a : BitVec 26} {r : RegRow} {ix : List Nat} {v : Word} {s : State}
    (h4 : a.toNat % 4 = 0) (ha : s.accessOf src a.toNat = .full) (hr : regAt a.toNat = some (r, ix))
    (hv : reservedBits a.toNat v = 0)
    (hx : (r.base ∈ [TMG_PERIOD_LO.addr 0 0, TMG_PERIOD_HI.addr 0 0] ∧ s.executing (ix.getD 0 0) = true) ∨
      (r.base ∈ [PIN_LVL_HI.addr 0 0, PIN_LVL_LO.addr 0 0, PIN_TS_FMT.addr 0 0, PIN_EDGE.addr 0 0] ∧
        s.chanExecuting (ix.getD 0 0) = true)) :
    ∃ t, exec (.registerWrite src a v 0xF) s = .next t ∧ Undisturbed s t := by
  obtain ⟨hw, hopen⟩ := State.writeReg_executing (s := s) a.toNat v hx
  refine ⟨_, exec_registerWrite_of_aligned v 0xF s h4, ?_⟩
  rw [State.busWrite_of_reg v ha hr, if_pos hv, hw]
  exact (Spared.errWrite s _ fun s => .store_open s v ((shelterAt_of_reg hr).trans hopen)).undisturbed

end Sys2Proof.Machine
end

section
/-! SUPPORT. What events and interrupts leave alone: acts and dies. -/

namespace Sys2Proof.Machine

/-! ## What an event and an interrupt leave alone (R326, R334-R336) -/

@[simp] theorem State.put_acts (s : State) (f : Field) (v : Nat) : (s.put f v).acts = s.acts := by simp [State.put]
@[simp] theorem State.putB_acts (s : State) (f : Field) (b : Bool) : (s.putB f b).acts = s.acts := by simp [State.putB]
@[simp] theorem State.bump_acts (s : State) (f : Field) : (s.bump f).acts = s.acts := by simp [State.bump]
@[simp] theorem State.setPair_acts (s : State) (lo v : Nat) : (s.setPair lo v).acts = s.acts := by simp [State.setPair]
@[simp] theorem State.put_dies (s : State) (f : Field) (v : Nat) : (s.put f v).dies = s.dies := by simp [State.put]
@[simp] theorem State.putB_dies (s : State) (f : Field) (b : Bool) : (s.putB f b).dies = s.dies := by simp [State.putB]
@[simp] theorem State.bump_dies (s : State) (f : Field) : (s.bump f).dies = s.dies := by simp [State.bump]

@[simp] theorem ite_acts (c : Prop) [Decidable c] (a b : State) : (if c then a else b).acts = if c then a.acts else b.acts := by
  split <;> rfl

@[simp] theorem ite_dies (c : Prop) [Decidable c] (a b : State) : (if c then a else b).dies = if c then a.dies else b.dies := by
  split <;> rfl

/-- The acts and the dies are as before. -/
def SameBodies (s t : State) : Prop := t.acts = s.acts ∧ t.dies = s.dies

theorem SameBodies.refl (s : State) : SameBodies s s := ⟨rfl, rfl⟩

theorem SameBodies.trans {s t u : State} (h : SameBodies s t) (k : SameBodies t u) : SameBodies s u :=
  ⟨k.1.trans h.1, k.2.trans h.2⟩

theorem SameBodies.ite {s t u : State} {p : Prop} [Decidable p] (ht : SameBodies s t) (hu : SameBodies s u) :
    SameBodies s (if p then t else u) := by
  split
  · exact ht
  · exact hu

theorem SameBodies.put (s : State) (f : Field) (v : Nat) : SameBodies s (s.put f v) := ⟨by simp, by simp⟩

theorem SameBodies.raiseVec (s : State) (v : Nat) : SameBodies s (s.raiseVec v) := .ite (.put s _ _) ⟨by simp, by simp⟩

theorem SameBodies.sysIrq (s : State) (bit : Nat) : SameBodies s (s.sysIrq bit) :=
  .ite (.refl s) (.ite ((SameBodies.put s _ _).trans (.raiseVec _ 0)) (.put s _ _))

theorem SameBodies.journalIrq (s : State) : SameBodies s s.journalIrq := by
  have irq := (SameBodies.raiseVec s (s.fld EVT_CFG.VEC)).trans (.sysIrq _ 6)
  have raise : SameBodies s ((((s.raiseVec (s.fld EVT_CFG.VEC)).sysIrq 6).withEvtIrq (some s.time.toNat)).withEvtDefer false) :=
    ⟨by simpa using irq.1, by simpa using irq.2⟩
  refine .ite (.refl s) ?_
  split
  · exact .ite ⟨by simp, by simp⟩ raise
  · exact raise

theorem SameBodies.journalDram (s : State) (w : Nat) (r : EvtRec) : SameBodies s (s.journalDram w r) := by
  unfold State.journalDram
  split
  · exact .refl s
  · exact .ite (.refl s) ⟨by simp [State.dramPut], by simp [State.dramPut]⟩

theorem SameBodies.journal (s : State) (r : EvtRec) : SameBodies s (s.journal r) := by
  have lost : SameBodies s (if 32768 ≤ s.unread then s.bump EVT_LOST.COUNT else s) := .ite (.put s _ _) (.refl s)
  have pool : ∀ (u : State) (a : Nat) (bs : List Byte), SameBodies u (u.poolPut a bs) := fun u a bs =>
    ⟨by simp [State.poolPut], by simp [State.poolPut]⟩
  exact (((lost.trans (pool _ _ _)).trans (.journalDram _ _ r)).trans (.put _ _ _)).trans (.journalIrq _)

theorem SameBodies.sendFrame (s : State) (p : Nat) (f : Frame) : SameBodies s (s.sendFrame p f) :=
  .ite ⟨by simp, by simp⟩ ⟨by simp, by simp⟩

theorem SameBodies.persistEvt (s : State) (r : EvtRec) : SameBodies s (s.persistEvt r) :=
  .ite ⟨by simp, by simp⟩ ⟨by simp, by simp⟩

theorem SameBodies.eventAt (s : State) (t src code p4 p5 p6 p7 : Nat) : SameBodies s (s.eventAt t src code p4 p5 p6 p7) := by
  have seq : SameBodies s (s.withEvtSeq (s.evtSeq + 1)) := ⟨by simp, by simp⟩
  have journaled := seq.trans (.journal _ (s.evtRec t src code p4 p5 p6 p7))
  refine .ite seq (SameBodies.trans ?_ (.ite (.sendFrame _ _ _) (.refl _)))
  exact journaled.trans (.ite (.persistEvt _ _) (.refl _))

/-- An event leaves the acts and the dies alone. -/
theorem SameBodies.event (s : State) (src code p4 p5 p6 p7 : Nat) : SameBodies s (s.event src code p4 p5 p6 p7) :=
  .eventAt _ _ _ _ _ _ _ _

@[simp] theorem State.event_acts (s : State) (src code p4 p5 p6 p7 : Nat) : (s.event src code p4 p5 p6 p7).acts = s.acts :=
  (SameBodies.event s _ _ _ _ _ _).1

theorem State.event_dies (s : State) (src code p4 p5 p6 p7 : Nat) : (s.event src code p4 p5 p6 p7).dies = s.dies :=
  (SameBodies.event s _ _ _ _ _ _).2

end Sys2Proof.Machine
end

section
/-! SUPPORT. Operations that leave acts alone, and starts that touch no act but their own. -/

namespace Sys2Proof.Machine

/-! ## Operations that leave the acts alone -/

theorem State.each_acts {f : Nat → State → State} (h : ∀ n s, (f n s).acts = s.acts) (l : List Nat) (s : State) :
    (State.each f l s).acts = s.acts := State.each_inv h l s

@[simp] theorem State.showReport_acts (s : State) (n : Nat) : (s.showReport n).acts = s.acts := by
  unfold State.showReport
  split
  · exact State.each_acts (fun sh s => by simp) _ s
  · rfl

@[simp] theorem State.showEnd_acts (s : State) (sh : Nat) : (s.showEnd sh).acts = s.acts := by simp [State.showEnd]

@[simp] theorem State.showEnds_acts (s : State) (n : Nat) : (s.showEnds n).acts = s.acts :=
  State.each_acts (fun sh s => by simp) _ s

@[simp] theorem State.setActState_acts (s : State) (n st : Nat) : (s.setActState n st).acts = s.acts := by
  simp [State.setActState]

@[simp] theorem State.tilePush_acts (s : State) (g : Nat) (final : Bool) : (s.tilePush g final).acts = s.acts := by
  simp [State.tilePush]

@[simp] theorem State.tdcSwitched_acts (s : State) (c : Nat) : (s.tdcSwitched c).acts = s.acts := by simp [State.tdcSwitched]

@[simp] theorem State.switchBank_acts (c : Nat) (s : State) : (s.switchBank c).acts = s.acts := by simp [State.switchBank]

@[simp] theorem State.switchBanks_acts (s : State) (cs : List Nat) : (s.switchBanks cs).acts = s.acts :=
  State.each_acts State.switchBank_acts cs s

@[simp] theorem State.finalPushes_acts (s : State) (n : Nat) : (s.finalPushes n).acts = s.acts :=
  State.each_acts (fun g s => by simp) _ s

@[simp] theorem State.neverRan_acts (s : State) (n : Nat) : (s.neverRan n).acts = s.acts := by simp [State.neverRan]

@[simp] theorem State.seqEvent_acts (s : State) (n code p4 p5 p6 p7 : Nat) : (s.seqEvent n code p4 p5 p6 p7).acts = s.acts := by
  simp [State.seqEvent]

@[simp] theorem State.markLate_acts (s : State) (n : Nat) : (s.markLate n).acts = s.acts := by simp [State.markLate]

@[simp] theorem State.freeArea_acts (s : State) (x : Nat × Nat) : (s.freeArea x).acts = s.acts := by
  simp [State.freeArea, State.takeFree]

@[simp] theorem State.clearMap_acts (s : State) (g : Nat) : (s.clearMap g).acts = s.acts := by simp [State.clearMap]

@[simp] theorem State.clearRing_acts (s : State) (g : Nat) : (s.clearRing g).acts = s.acts := by simp [State.clearRing]

@[simp] theorem State.backlogLevel_acts (s : State) : s.backlogLevel.acts = s.acts := by simp [State.backlogLevel]

@[simp] theorem State.clearQueues_acts (s : State) (g : Nat) : (s.clearQueues g).acts = s.acts := by simp [State.clearQueues]

@[simp] theorem State.finish_acts (s : State) (q id status result : Nat) : (s.finish q id status result).acts = s.acts := by
  unfold State.finish
  dsimp only
  split
  · simp
  · split <;> simp

@[simp] theorem State.finalizeRegion_acts (s : State) (g q : Nat) (written : Bool) :
    (s.finalizeRegion g q written).1.acts = s.acts := by
  unfold State.finalizeRegion
  dsimp only
  split <;> simp [State.setDesc]

@[simp] theorem State.finalizeGo_acts (g room : Nat) : ∀ (qs : List Nat) (r : State × List (List Byte) × Nat),
    (State.finalizeGo g room qs r).1.acts = r.1.acts
  | [], _ => rfl
  | q :: qs, (s, _, _) => by
    rw [State.finalizeGo]
    exact (State.finalizeGo_acts g room qs _).trans (by simp)

theorem State.withRq_acts (s : State) (x : RqSt) : (s.withRq x).acts = s.acts := by simp

@[simp] theorem State.finalizeReport_acts (s : State) (ring result records un : Nat) :
    (s.finalizeReport ring result records un).acts = s.acts := by
  unfold State.finalizeReport
  refine (State.event_acts _ _ _ _ _ _ _).trans ((State.withRq_acts _ _).trans ?_)
  rw [State.put_acts, State.put_acts, State.put_acts]

@[simp] theorem State.finalizeEnd_acts (s : State) (f : RqFin) (qs : List Nat) (abandoned : Bool) :
    (s.finalizeEnd f qs abandoned).acts = s.acts := by
  cases hf : f.src <;> simp [State.finalizeEnd, hf, State.dramPut]

@[simp] theorem State.abandonFinalize_acts (s : State) (g : Nat) : (s.abandonFinalize g).acts = s.acts := by
  unfold State.abandonFinalize
  split <;> simp [State.takeFree]

@[simp] theorem State.rqStart_acts (s : State) (g : Nat) : (s.rqStart g).acts = s.acts := by simp [State.rqStart]

@[simp] theorem State.trkConfig_acts (s : State) (n : Nat) : (s.trkConfig n).acts = s.acts := by
  unfold State.trkConfig
  split
  · rfl
  · exact State.each_acts (fun c s => by simp) _ s

@[simp] theorem State.timingClear_acts (s : State) (n : Nat) : (s.timingClear n).acts = s.acts := by simp [State.timingClear]

@[simp] theorem State.timingReport_acts (s : State) (n : Nat) (f : TimingFail) : (s.timingReport n f).acts = s.acts := by
  simp [State.timingReport]

/-! ## Operations of one act -/

/-- Every act but one is as before. -/
def OtherActs (n : Nat) (s t : State) : Prop := ∀ m, m ≠ n → t.act m = s.act m

theorem OtherActs.of_acts {n : Nat} {s t : State} (h : t.acts = s.acts) : OtherActs n s t := fun m _ => State.act_congr h m

theorem OtherActs.trans {n : Nat} {s t u : State} (h : OtherActs n s t) (k : OtherActs n t u) : OtherActs n s u :=
  fun m hm => (k m hm).trans (h m hm)

theorem OtherActs.setAct (n : Nat) (s : State) (x : ActSt) : OtherActs n s (s.setAct n x) := fun _ hm => State.setAct_ne s x hm

theorem OtherActs.disturbAct (n : Nat) (s : State) : OtherActs n s (s.disturbAct n) := fun _ hm => s.disturbAct_act_ne hm

theorem OtherActs.ite {n : Nat} {s t u : State} {p : Prop} [Decidable p] (ht : OtherActs n s t) (hu : OtherActs n s u) :
    OtherActs n s (if p then t else u) := by
  split
  · exact ht
  · exact hu

/-- A reserved code met by an act: a host error of that act. -/
theorem OtherActs.ite_disturbAct {n : Nat} {s u : State} {p : Prop} [Decidable p] (h : OtherActs n s u) :
    OtherActs n s (if p then u.disturbAct n else u) := .ite (h.trans (.disturbAct n u)) h

theorem OtherActs.acceptStart (n : Nat) (r : StartReq) (s : State) : OtherActs n s (s.acceptStart n r) := by
  have hold : ∀ (l : List Nat) (u : State), (State.each State.holdHyst l u).acts = u.acts :=
    State.each_acts (fun c s => by simp [State.holdHyst])
  unfold State.acceptStart
  dsimp only
  refine OtherActs.trans ?_ (.of_acts ((State.setActState_acts _ n 1).trans ((State.put_acts _ _ _).trans
    ((State.put_acts _ _ _).trans (hold _ _)))))
  exact .setAct n s _

theorem OtherActs.acceptQueued (n : Nat) (s : State) : OtherActs n s (s.acceptQueued n) := by
  unfold State.acceptQueued
  split
  · exact .of_acts rfl
  · refine .ite ?_ ?_
    · refine OtherActs.trans ?_ (.of_acts (State.markLate_acts _ n))
      exact (OtherActs.setAct n s _).trans (.of_acts (State.put_acts _ _ _))
    · refine OtherActs.trans ?_ (.acceptStart n _ _)
      exact (OtherActs.setAct n s _).trans (.of_acts (State.put_acts _ _ _))

theorem OtherActs.refuseStart (n code : Nat) (s : State) : OtherActs n s (s.refuseStart n code) := by
  unfold State.refuseStart
  refine OtherActs.trans ?_ (.acceptQueued n _)
  refine OtherActs.trans ?_ (.of_acts ((State.neverRan_acts _ n).trans (State.seqEvent_acts _ _ _ _ _ _ _)))
  exact OtherActs.trans (.of_acts (by simp)) (.setAct n _ _)

/-- A step of the prefetcher that is taken changes the act alone. -/
theorem OtherActs.pfStep {n : Nat} {s t : State} (h : s.pfStep n = some t) : OtherActs n s t := by
  simp only [State.pfStep] at h
  (repeat' split at h) <;> cases h
  all_goals exact .setAct n s _

theorem OtherActs.pfRun (n : Nat) : ∀ (k : Nat) (s : State), OtherActs n s (State.pfRun n k s)
  | 0, _ => .of_acts rfl
  | k + 1, s => by
    unfold State.pfRun
    split
    · exact .of_acts rfl
    · exact (OtherActs.pfStep ‹_›).trans (.pfRun n k _)

theorem OtherActs.pfResume (n : Nat) (s : State) : OtherActs n s (s.pfResume n) := (OtherActs.setAct n s _).trans (.pfRun n _ _)

theorem OtherActs.startReset (n : Nat) (s : State) : OtherActs n s (s.startReset n) := by
  have dies : ∀ (l : List Nat) (u : State),
      (State.each (fun d s => s.setDie d { s.die d with fwd := [], pins := [] }) l u).acts = u.acts :=
    State.each_acts (fun d s => by simp)
  have chans : ∀ (l : List Nat) (u : State), (State.each State.startChan l u).acts = u.acts :=
    State.each_acts (fun c s => by simp [State.startChan])
  have rings : ∀ (l : List Nat) (u : State),
      (State.each (fun g s => if s.ringAct g = some n then (s.clearRing g).rqStart g else s) l u).acts = u.acts :=
    State.each_acts (fun g s => by simp)
  have benched : ∀ (l : List Nat) (u : State),
      (State.each (fun g s => s.put (FAIL_STATUS.BENCHED g) 1) l u).acts = u.acts :=
    State.each_acts (fun g s => by simp)
  unfold State.startReset
  refine .ite_disturbAct ?_
  refine OtherActs.trans ?_ (.of_acts ((State.switchBanks_acts _ _).trans ((State.trkConfig_acts _ n).trans
    ((State.timingClear_acts _ n).trans ((benched _ _).trans ((rings _ _).trans ((chans _ _).trans (dies _ _))))))))
  exact OtherActs.trans (.of_acts (by simp)) (.setAct n _ _)

theorem execStartChecks_otherActs {n : Act} {s t : State} (h : execStartChecks n s = .next t) : OtherActs n s t := by
  unfold execStartChecks at h
  split at h
  · split at h
    · rw [← Host.Outcome.next.inj h]
      exact .ite_disturbAct ((OtherActs.startReset n s).trans (.pfResume n _))
    · rw [← Host.Outcome.next.inj h]
      refine OtherActs.trans (.of_acts ?_) (.refuseStart n 8 _)
      cases s.timingCheck n <;> simp
    · rw [← Host.Outcome.next.inj h]
      exact .refuseStart n _ s
  · rw [← Host.Outcome.next.inj h]
    exact .of_acts rfl

end Sys2Proof.Machine
end

section
/-! PROOF. Host errors of acts, channels, the root, queues, the analyzer, triggers, streams and of host writes of DRAM (O60). -/

namespace Sys2Proof.Machine

/-! ## Clauses that say what few commands touch -/

/-- What the frames follow of a command is all that `Still` speaks of. -/
theorem still_of_frame {s t : State} (h : ∀ fd : Followed, fd ≠ .dram → fd ≠ .mode → fd ≠ .time → fd ≠ .sensors → t.rd fd = s.rd fd) :
    Still s t :=
  ⟨h .pending (by decide) (by decide) (by decide) (by decide), h .otp (by decide) (by decide) (by decide) (by decide),
    h .trims (by decide) (by decide) (by decide) (by decide), h .jtag (by decide) (by decide) (by decide) (by decide),
    h .epoch (by decide) (by decide) (by decide) (by decide), h .flash (by decide) (by decide) (by decide) (by decide),
    h .banks (by decide) (by decide) (by decide) (by decide), h .shed (by decide) (by decide) (by decide) (by decide),
    h .d3hot (by decide) (by decide) (by decide) (by decide), h .hostMem (by decide) (by decide) (by decide) (by decide)⟩

theorem steady_of_frame {s t : State} (h : ∀ fd : Followed, fd ≠ .dram → t.rd fd = s.rd fd) : Steady s t :=
  ⟨still_of_frame fun fd hd _ _ _ => h fd hd, h .mode (by decide), h .time (by decide), h .sensors (by decide)⟩

/-! ## Acts (R146, R158) -/

theorem microStep_of_reserved {flow n : Nat} {s : State} (k : Nat → State → State) (hc : s.canIssue n = true)
    (hw : uFlow (s.microWord n) = flow) (hr : uReserved (s.microWord n) = true) :
    microStep flow n s k = .next (s.disturbAct n) := by
  simp [microStep, hc, hw, hr]

/-- A word with a reserved code met by the row of its FLOW opcode. -/
theorem exec_flowRow_of_reserved {n : Act} {k flow : Nat} {c : Instr} {s : State} (hc : s.canIssue n = true)
    (hw : uFlow (s.microWord n) = flow) (h : flowRow n k flow = some c) (hr : uReserved (s.microWord n) = true) :
    exec c s = .next (s.disturbAct n) := by
  unfold flowRow at h
  split at h
  case h_16 => cases h
  all_goals
    obtain rfl := Option.some.inj h
    simp only [exec_nextVec, execNextVec, hc, Bool.not_true, Bool.false_eq_true, if_false, exec_repeatVec, execRepeatVec,
      exec_jump, execJump, exec_call, execCall, exec_ret, execRet, exec_loopVec, execLoopVec, exec_endloop, execEndloop,
      exec_branch, execBranch, exec_matchVec, execMatchVec, exec_waitTime, execWaitTime, exec_waitWhistle, execWaitWhistle,
      exec_callBlock, execCallBlock, exec_swap, execSwap, exec_markVec, execMarkVec, exec_halt, execHalt]
    exact microStep_of_reserved _ hc hw hr

theorem execStartChecks_next (n : Act) (s : State) : ∃ t, execStartChecks n s = .next t := by
  unfold execStartChecks
  split
  · split <;> exact ⟨_, rfl⟩
  · exact ⟨_, rfl⟩

theorem startChecks_otherActs (n : Act) (s : State) :
    ∃ t, exec (.startChecks n) s = .next t ∧ (∀ m, m ≠ n.val → t.act m = s.act m) ∧ t.time = s.time ∧ Still s t := by
  obtain ⟨t, ht⟩ := execStartChecks_next n s
  have hf : ∀ fd : Followed, fd ≠ .dram → t.rd fd = s.rd fd := fun fd h => execStartChecks_frame n s t ht fd h
  obtain ⟨hstill, -, htime, -⟩ := steady_of_frame hf
  exact ⟨t, ht, execStartChecks_otherActs ht, htime, hstill⟩

/-- A reserved format of a timed vector that drives. -/
theorem exec_pinEdge_of_reserved {c : Chan} {cyc : BitVec 64} {e : Fin 9} {raw : Bool} {p : PinVec} {n y : Nat} {s : State}
    (hp : (s.die (c / 64)).pins.find? (fun x => decide (x.vec.cycle = cyc.toNat)) = some p) (hn : s.actOfChan c = some n)
    (ht : s.timed n = true) (hy : p.sym c 0 = some y) (hd : symDrives y = true) (hf : 5 ≤ s.fmt c p.vec.tset) :
    exec (.pinEdge c cyc (.edge e) raw) s = .next (s.disturbAct n) := by
  rw [exec_pinEdge, execPinEdge, hp, hn]
  simp only [hy, ht, hd, hf]
  simp

/-! ## Channels, the root, queues, the analyzer, triggers, streams -/

theorem PIN_PPMU_CFG_not_locked (c : Nat) (s : State) : s.locked (PIN_PPMU_CFG.addr c) = false := by
  unfold State.locked PIN_PPMU_CFG.addr
  rw [if_neg (by omega), if_neg (by simp only [CLK_OCXO_TRIM.addr]; omega)]

theorem shelterAt_PIN_PPMU_CFG (c : Chan) : shelterAt (PIN_PPMU_CFG.addr c) = 0 := shelterAt_of_reg (regAt_PIN_PPMU_CFG c)

/-- A reserved PPMU measurement: the field that selects it is RW, so after the store it is the written one. -/
theorem State.writePpmuCfg_of_reserved {c : Chan} {v : Word} (s : State) (h31 : wbit v 31 = true)
    (hsel : 9 ≤ wfld v (PIN_PPMU_CFG.MEAS_SEL c)) : Spared s (s.writePpmuCfg c v) := by
  have hfld : (s.store (PIN_PPMU_CFG.addr c) v).fld (PIN_PPMU_CFG.MEAS_SEL c) = wfld v (PIN_PPMU_CFG.MEAS_SEL c) :=
    State.fld_store_of_rw (lo := 8) (len := 4) v (regAt_PIN_PPMU_CFG c) (PIN_PPMU_CFG_not_locked c s) (by decide) (by decide)
      rfl (by decide)
  have hcut : ∀ u : State, (u.put (PIN_PPMU_CFG.CONNECT c) 0).fld (PIN_PPMU_CFG.MEAS_SEL c) =
      u.fld (PIN_PPMU_CFG.MEAS_SEL c) := fun u =>
    State.fld_put_apart u 0 rfl (by simp [PIN_PPMU_CFG.CONNECT]) (by simp [PIN_PPMU_CFG.CONNECT, PIN_PPMU_CFG.MEAS_SEL])
  have hstore := Spared.store_open s v (shelterAt_PIN_PPMU_CFG c)
  unfold State.writePpmuCfg
  dsimp only
  rw [if_pos h31]
  split
  · rw [hcut, hfld, if_pos hsel]
    exact (hstore.trans (.put_open _ 0 (shelterAt_PIN_PPMU_CFG c))).trans (.disturbChan c _)
  · rw [hfld, if_pos hsel]
    exact hstore.trans (.disturbChan c _)

theorem State.ask_regs (s : State) (d t what : Nat) : (s.ask d t what).regs = s.regs := by simp [State.ask]

theorem State.store_reg_ne (s : State) {a b : Nat} (v : Word) (h : b ≠ a) : (s.store a v).reg b = s.reg b :=
  (s.store_onlyRegs a v).2 b (by simpa using h)

theorem State.writeSenseMeas_regsBut (s : State) (m : Nat) (v : Word) : RegsBut [MON_SENSE_MEAS.addr m] s (s.writeSenseMeas m v) := by
  intro a ha
  have hne : a ≠ MON_SENSE_MEAS.addr m := by simpa using ha
  have hput : ∀ (u : State) (f : Field) (x : Nat), f.addr = MON_SENSE_MEAS.addr m → (u.put f x).reg a = u.reg a :=
    fun u f x hf => State.reg_put_ne u x (hf ▸ hne)
  unfold State.writeSenseMeas
  dsimp only
  split_ifs
  · exact (hput _ _ _ rfl).trans (s.store_reg_ne v hne)
  · exact ((State.reg_congr (State.ask_regs _ _ _ _) a).trans (hput _ _ _ rfl)).trans (s.store_reg_ne v hne)
  · exact s.store_reg_ne v hne

theorem State.disturbQueue_queue_ne {p q : Nat} (s : State) (h : p ≠ q) : (s.disturbQueue q).queue p = s.queue p := by
  have hr := congrArg (State.queue · p) (s.takeFree.mixRegs_eq s.anyState (instBits RegRow.named 0x60000 0x60800 q))
  exact (Tab.get_set_ne _ _ h).trans hr

theorem State.store_queue (s : State) (a : Nat) (v : Word) (p : Nat) : (s.store a v).queue p = s.queue p := by
  unfold State.store
  split
  · rfl
  · split <;> rfl

theorem shelterAt_queue : (∀ q : Queue, shelterAt (HOST_Q_SQ_TAIL.addr q) = 0) ∧ ∀ q : Queue, shelterAt (HOST_Q_CQ_HEAD.addr q) = 0 := by
  decide

/-- A stored index of a queue that passes its limit: the queue is disturbed, the others are not. -/
theorem Spared.store_disturbQueue (s : State) (q a : Nat) (v : Word) (h : shelterAt a = 0) :
    Spared s ((s.store a v).disturbQueue q) ∧ ∀ p, p ≠ q → ((s.store a v).disturbQueue q).queue p = s.queue p :=
  ⟨(Spared.store_open s v h).trans (.disturbQueue q _), fun p hp =>
    (State.disturbQueue_queue_ne _ hp).trans (s.store_queue a v p)⟩

theorem regAt_HOST_Q_SQ_TAIL : ∀ q : Queue, regAt (HOST_Q_SQ_TAIL.addr q) =
    some (⟨"HOST_Q_SQ_TAIL", 0x60014, [(8, 0x100)], 0x3FF, 0x0, 0x0, 0x0, 0, 0x3FF⟩, [q.val]) := by decide

theorem regAt_HOST_Q_CQ_HEAD : ∀ q : Queue, regAt (HOST_Q_CQ_HEAD.addr q) =
    some (⟨"HOST_Q_CQ_HEAD", 0x6001C, [(8, 0x100)], 0x3FF, 0x0, 0x0, 0x0, 0, 0x3FF⟩, [q.val]) := by decide

theorem exec_sqDoorbell_of_inService {q : Queue} {v : Word} {s : State} (hs : s.inService = true)
    (hv : reservedBits (HOST_Q_SQ_TAIL.addr q) v = 0) : exec (.sqDoorbell q v) s = .next (s.writeSqTail q v) := by
  rw [exec_sqDoorbell, execSqDoorbell, State.busWrite_of_reg v (State.accessOf_of_inService hs _ _) (regAt_HOST_Q_SQ_TAIL q),
    if_pos hv]
  rfl

theorem exec_cqHeadWrite_of_inService {q : Queue} {v : Word} {s : State} (hs : s.inService = true)
    (hv : reservedBits (HOST_Q_CQ_HEAD.addr q) v = 0) : exec (.cqHeadWrite q v) s = .next (s.writeCqHead q v) := by
  rw [exec_cqHeadWrite, execCqHeadWrite, State.busWrite_of_reg v (State.accessOf_of_inService hs _ _) (regAt_HOST_Q_CQ_HEAD q),
    if_pos hv]
  rfl

/-- Region queues asked to be finalized: whatever the answer, only the analyzer changes. -/
theorem Spared.finalizeReq (s : State) (g : Nat) (dirtyOnly : Bool) : Spared s (s.finalizeReq g dirtyOnly) := by
  have hfin : shelterAt RQ_FINALIZE.addr = 0 := by decide
  have hstat : shelterAt RQ_STATUS.addr = 0 := by decide
  refine .ite (.put_open s 1 hfin) ?_
  have started := (Spared.put_open s (f := RQ_FINALIZE.DONE) 0 hfin).trans (.put_open _ (f := RQ_STATUS.FINALIZING) 1 hstat)
  exact .ite ((started.trans (.withRq _ _)).trans (.disturbQueues g _)) (started.trans (.withRq _ _))

theorem Spared.writeRqFinalize (s : State) (v : Word) : Spared s (s.writeRqFinalize v) := by
  have hstore := Spared.store_open s (a := RQ_FINALIZE.addr) v (by decide)
  exact .ite (hstore.trans (.finalizeReq _ _ _)) hstore

/-! ### Triggers and streams -/

theorem State.store_mode (s : State) (a : Nat) (v : Word) : (s.store a v).mode = s.mode := by
  unfold State.store
  split
  · rfl
  · split <;> rfl

theorem State.put_mode (s : State) (f : Field) (v : Nat) : (s.put f v).mode = s.mode := rfl

theorem State.put_trig (s : State) (f : Field) (v k : Nat) : (s.put f v).trig k = s.trig k := rfl

theorem State.put_stream (s : State) (f : Field) (v i : Nat) : (s.put f v).stream i = s.stream i := rfl

theorem State.store_trig (s : State) (a : Nat) (v : Word) (k : Nat) : (s.store a v).trig k = s.trig k := by
  unfold State.store
  split
  · rfl
  · split <;> rfl

theorem State.store_stream (s : State) (a : Nat) (v : Word) (i : Nat) : (s.store a v).stream i = s.stream i := by
  unfold State.store
  split
  · rfl
  · split <;> rfl

theorem State.disturbTrig_trig_ne {j k : Nat} (s : State) (h : j ≠ k) : (s.disturbTrig k).trig j = s.trig j := by
  have hr := congrArg (State.trig · j) (s.takeFree.mixRegs_eq s.anyState
    (fun a => instBits RegRow.named 0xC0000 0xC2000 k a ||| instBits RegRow.named 0xC4000 0xD0000 k a))
  exact (Tab.get_set_ne _ _ h).trans hr

theorem State.disturbStream_stream_ne {i j : Nat} (s : State) (h : j ≠ i) : (s.disturbStream i).stream j = s.stream j := by
  have hr := congrArg (State.stream · j) (s.takeFree.mixRegs_eq s.anyState (instBits RegRow.named 0xC2000 0xC4000 i))
  have hd := congrArg (State.stream · j) ((s.takeFree.mixRegs s.anyState (instBits RegRow.named 0xC2000 0xC4000 i)).mixDram_eq
    s.anyState (inAreas [(s.fld (ACQ_STREAM_DRAM_BASE.VALUE i) * 4096, s.fld (ACQ_STREAM_DRAM_SIZE.VALUE i) * 4096)]))
  exact (Tab.get_set_ne _ _ h).trans (Eq.trans hd hr)

theorem shelterAt_trig : (∀ k : Trig, shelterAt (ACQ_TRIG_CTRL.addr k) = 0) ∧ ∀ k : Trig, shelterAt (ACQ_TRIG_STATUS.addr k) = 0 := by
  decide

theorem shelterAt_ACQ_STREAM_CTRL : ∀ i : Stream, shelterAt (ACQ_STREAM_CTRL.addr i) = 0 := by decide

/-- An ARM of a unit with reserved codes: the unit is disturbed, or refused where its channels belong to no one act. -/
theorem State.writeTrigCtrl_of_reserved {k : Trig} {v : Word} {s : State} (hm : s.mode = .idle ∨ s.mode = .run)
    (h31 : wbit v 31 = true) (h30 : wbit v 30 = false) (hr : (s.store (ACQ_TRIG_CTRL.addr k) v).trigReserved k = true) :
    Spared s (s.writeTrigCtrl k v) ∧ ∀ j, j ≠ k.val → (s.writeTrigCtrl k v).trig j = s.trig j := by
  obtain ⟨hctrl, hstat⟩ := shelterAt_trig
  have hstore := Spared.store_open s v (hctrl k)
  have hmode := s.store_mode (ACQ_TRIG_CTRL.addr k) v
  have hother := fun j => s.store_trig (ACQ_TRIG_CTRL.addr k) v j
  have hw : s.writeTrigCtrl k v = (s.store (ACQ_TRIG_CTRL.addr k) v).trigArm k := by
    simp [State.writeTrigCtrl, h30, h31]
  rw [hw]
  generalize s.store (ACQ_TRIG_CTRL.addr k) v = u at *
  unfold State.trigArm
  rw [if_neg (by rcases hm with hm | hm <;> simp [hmode, hm])]
  split
  · refine ⟨(hstore.trans (.put_open u (f := ACQ_TRIG_STATUS.REFUSED k) 1 (hstat k))).trans
      (.put_open _ (f := ACQ_TRIG_STATUS.REASON k) 1 (hstat k)), fun j _ => ?_⟩
    rw [State.trigRefuse, State.put_trig, State.put_trig, hother]
  · rw [if_pos hr]
    exact ⟨hstore.trans (.disturbTrig k u), fun j hj => (u.disturbTrig_trig_ne hj).trans (hother j)⟩

/-- An enable of a stream with reserved codes or a misplaced ring. -/
theorem State.writeStreamCtrl_of_reserved {i : Stream} {v : Word} {s : State} (hm : s.mode = .idle ∨ s.mode = .run)
    (h31 : wbit v 31 = true) (hoff : s.streamOn i = false)
    (hr : ((s.store (ACQ_STREAM_CTRL.addr i) v).put (ACQ_STREAM_CTRL.EN i) 0).streamReserved i = true ∨
      ((s.store (ACQ_STREAM_CTRL.addr i) v).put (ACQ_STREAM_CTRL.EN i) 0).streamMisplaced i = true) :
    Spared s (s.writeStreamCtrl i v) ∧ ∀ j, j ≠ i.val → (s.writeStreamCtrl i v).stream j = s.stream j := by
  have hctrl := shelterAt_ACQ_STREAM_CTRL i
  have hstored : Spared s ((s.store (ACQ_STREAM_CTRL.addr i) v).put (ACQ_STREAM_CTRL.EN i) 0) :=
    (Spared.store_open s v hctrl).trans (.put_open _ 0 hctrl)
  have hmode : ((s.store (ACQ_STREAM_CTRL.addr i) v).put (ACQ_STREAM_CTRL.EN i) 0).mode = s.mode := by
    rw [State.put_mode, State.store_mode]
  have hother : ∀ j, ((s.store (ACQ_STREAM_CTRL.addr i) v).put (ACQ_STREAM_CTRL.EN i) 0).stream j = s.stream j := fun j => by
    rw [State.put_stream, State.store_stream]
  have hw : s.writeStreamCtrl i v = ((s.store (ACQ_STREAM_CTRL.addr i) v).put (ACQ_STREAM_CTRL.EN i) 0).streamEnable i := by
    simp [State.writeStreamCtrl, hoff, h31]
  rw [hw]
  generalize (s.store (ACQ_STREAM_CTRL.addr i) v).put (ACQ_STREAM_CTRL.EN i) 0 = u at *
  unfold State.streamEnable
  rw [if_neg (by rcases hm with hm | hm <;> simp [hmode, hm]), if_pos hr]
  exact ⟨hstored.trans (.disturbStream i u), fun j hj => (u.disturbStream_stream_ne hj).trans (hother j)⟩

/-! ### Host writes of DRAM (R143, R197, R199, R251) -/

theorem Spared.dmaDramPut (s : State) (a : Nat) (bs : List Byte) : Spared s (s.dmaDramPut a bs) :=
  (((Spared.dramPut s a bs).trans (.each .disturbQueues _ _)).trans (.each .disturbStream _ _)).trans (.each .disturbAct _ _)

theorem Spared.hostDramPut (s : State) (a : Nat) (bs : List Byte) : Spared s (s.hostDramPut a bs) :=
  (Spared.dmaDramPut s a bs).trans (.each .disturbRing _ _)

theorem exec_bar2Write_of_inService {a : BitVec 37} {bytes : List Byte} {s : State} (hs : s.inService = true)
    (h : a.toNat + bytes.length ≤ dramSize) : exec (.bar2Write a bytes) s = .next (s.hostDramPut a.toNat bytes) := by
  rw [exec_bar2Write, execBar2Write, if_neg (by simp [hs, h])]

end Sys2Proof.Machine
end

section
/-! PROOF. A calibration pass that a reserved timeout ends (O60). -/

namespace Sys2Proof.Machine

/-! ## The end of a pass (R108, R232, R262, R265) -/

theorem State.die_congr {s t : State} (h : t.dies = s.dies) (d : Nat) : t.die d = s.die d := by
  rw [State.die, State.die, h]

theorem State.tdcBegin_dies (s : State) (c : Nat) : (s.tdcBegin c).dies = s.dies := by simp [State.tdcBegin]

theorem State.tdcBegin_regs (s : State) (c : Nat) : (s.tdcBegin c).regs = s.regs := by simp [State.tdcBegin]

theorem State.tdcTake_dies (s : State) : s.tdcTake.dies = s.dies :=
  State.each_inv (P := State.dies) (by intro c s; simp) _ s

theorem State.tdcRelease_dies (s : State) : s.tdcRelease.dies = s.dies :=
  State.each_inv (P := State.dies) (by intro c s; simp [State.tdcBegin_dies]) _ s

/-- The TDCs that follow a pass do not touch the dies. -/
theorem State.tdcSync_dies (s : State) (c : Nat) (was : Bool) : (s.tdcSync c was).dies = s.dies := by
  unfold State.tdcSync
  split_ifs
  · rfl
  · exact (State.tdcRelease_dies _).trans (by simp [State.streamsRelease])
  · exact Eq.trans (by simp [State.streamsTake]) s.tdcTake_dies

/-- Of the registers they write those of the channels alone. -/
theorem State.tdcSync_reg (s : State) (c : Nat) (was : Bool) {a : Nat} (h : a < 0x400000) : (s.tdcSync c was).reg a = s.reg a := by
  have hput : ∀ (u : State) (k v : Nat), (u.put (PIN_TDC_STATUS.STALE k) v).reg a = u.reg a := fun u k v =>
    State.reg_put_ne u v (by simp only [PIN_TDC_STATUS.STALE, PIN_TDC_STATUS.addr]; omega)
  have htake : s.tdcTake.reg a = s.reg a := by
    refine State.each_inv (P := fun u => u.reg a) (fun k u => ?_) _ s
    dsimp only
    split
    · exact (hput _ _ _).trans (State.reg_congr (by simp) a)
    · rfl
  have hrelease : ∀ u : State, u.tdcRelease.reg a = u.reg a := fun u => by
    refine State.each_inv (P := fun u => u.reg a) (fun k u => ?_) _ u
    dsimp only
    split
    · exact (State.reg_congr (State.tdcBegin_regs _ _) a).trans (hput _ _ _)
    · rfl
  unfold State.tdcSync
  split_ifs
  · rfl
  · exact (hrelease _).trans (State.reg_congr (by simp [State.streamsRelease]) a)
  · exact (State.reg_congr (by simp [State.streamsTake]) a).trans htake

theorem State.put_die (s : State) (f : Field) (v d : Nat) : (s.put f v).die d = s.die d := rfl

theorem State.setChan_die (s : State) (c : Nat) (x : ChanSt) (d : Nat) : (s.setChan c x).die d = s.die d := rfl

theorem State.setChan_regs (s : State) (c : Nat) (x : ChanSt) : (s.setChan c x).regs = s.regs := rfl

/-- A request at a converter leaves the passes alone. -/
theorem State.ask_pass (s : State) (d e t what : Nat) : ((s.ask e t what).die d).pass = (s.die d).pass := by
  unfold State.ask
  by_cases h : d = e
  · subst h; rw [State.setDie_same]
  · rw [State.setDie_ne s _ h]

/-- A pass that is over has left its die. -/
theorem State.passOver_pass (s : State) (d c : Nat) : ((s.passOver d c).die d).pass = none := by
  have hsync : ∀ (u : State) (was : Bool), ((u.tdcSync c was).die d).pass = (u.die d).pass := fun u was => by
    rw [State.die_congr (u.tdcSync_dies c was) d]
  have hput : ∀ (u : State) (f : Field) (v : Nat), ((u.put f v).die d).pass = (u.die d).pass := fun u f v => by rw [State.put_die]
  have hchan : ∀ (u : State) (x : ChanSt), ((u.setChan c x).die d).pass = (u.die d).pass := fun u x => by rw [State.setChan_die]
  have hstale : ∀ x : ChanSt, (((((s.setDie d { s.die d with pass := none }).setChan c x).put (PIN_STATUS.STALE c) 0).put
      (PIN_PPMU_MEAS.STALE c) 0).die d).pass = none := fun x => by
    rw [hput, hput, hchan, State.setDie_same]
  unfold State.passOver
  dsimp only
  rw [hsync, State.putB, hput]
  split
  · rw [State.ask_pass, hchan]
    exact hstale _
  · exact hstale _

/-- The end of a pass leaves CAL_REJECTS alone. -/
theorem State.passOver_reg_CAL_REJECTS (s : State) (d c : Nat) : (s.passOver d c).reg CAL_REJECTS.addr = s.reg CAL_REJECTS.addr := by
  have hput : ∀ (u : State) (f : Field) (v : Nat), CAL_REJECTS.addr ≠ f.addr → (u.put f v).reg CAL_REJECTS.addr =
      u.reg CAL_REJECTS.addr := fun u f v h => State.reg_put_ne u v h
  have hstale : ∀ x : ChanSt, ((((s.setDie d { s.die d with pass := none }).setChan c x).put (PIN_STATUS.STALE c) 0).put
      (PIN_PPMU_MEAS.STALE c) 0).reg CAL_REJECTS.addr = s.reg CAL_REJECTS.addr := fun x => by
    rw [hput _ _ _ (by simp only [CAL_REJECTS.addr, PIN_PPMU_MEAS.STALE, PIN_PPMU_MEAS.addr]; omega),
      hput _ _ _ (by simp only [CAL_REJECTS.addr, PIN_STATUS.STALE, PIN_STATUS.addr]; omega)]
    exact State.reg_congr (by simp) _
  unfold State.passOver
  dsimp only
  rw [State.tdcSync_reg _ _ _ (by decide), State.putB, hput _ _ _ (by decide)]
  split
  · exact (State.reg_congr ((State.ask_regs _ _ _ _).trans (State.setChan_regs _ _ _)) _).trans (hstale _)
  · exact hstale _

/-- A pass abandoned by chance under the reserved TIMEOUT 0: by the free value, or not at all. -/
theorem exec_calStarved_of_reserved {d : Die} {p : PassSt} {s : State} (hp : (s.die d).pass = some p)
    (ht : s.fld CAL_SCHED.TIMEOUT = 0) :
    ∃ t, exec (.calStarved d) s = .next t ∧ (s.free.toNat % 2 = 0 → t = s.takeFree) ∧
      (s.free.toNat % 2 = 1 → (t.die d).pass = none ∧
        t.fld CAL_REJECTS.STARVED = satN 16 (s.fld CAL_REJECTS.STARVED + 1)) ∧ Steady s t := by
  rw [exec_calStarved]
  unfold execCalStarved
  rw [hp]
  dsimp only
  rw [ht]
  by_cases hfree : s.free.toNat % 2 = 0
  · rw [if_pos ⟨rfl, hfree⟩]
    exact ⟨_, rfl, fun _ => rfl, fun h => absurd h (by omega), steady_of_frame fun fd _ => s.takeFree_frame fd⟩
  · rw [if_neg (by simp [hfree]), if_pos rfl]
    refine ⟨_, rfl, fun h => absurd h hfree, fun _ => ⟨?_, ?_⟩, steady_of_frame fun fd hd => ?_⟩
    · rw [State.die_congr (State.event_dies _ _ _ _ _ _ _), State.bump, State.put_die]
      exact State.passOver_pass _ d p.chan
    · have hstarved : (s.takeFree.passOver d p.chan).fld CAL_REJECTS.STARVED = s.fld CAL_REJECTS.STARVED :=
        State.fld_congr (State.passOver_reg_CAL_REJECTS s.takeFree d p.chan)
      rw [State.event_fld _ _ _ _ _ _ (by decide), State.bump, State.fld_put_same _ _ _ (by decide), hstarved]
      exact Nat.mod_eq_of_lt (Nat.lt_of_le_of_lt (Nat.min_le_right _ _) (by decide))
    · rw [State.event_frame _ _ _ _ _ _ _ _ hd, State.bump_frame, State.passOver_frame, State.takeFree_frame]

end Sys2Proof.Machine
end

section
/-! PROOF. Host errors of DMA_TO_DRAM and LOAD_BLOCK (O60). -/

namespace Sys2Proof.Machine

/-! ## Host commands that start and end (R328, Table 18-4) -/

/-- The last of the started commands is the one found by its id, where no other has it. -/
theorem takeCmd_append {c : HostCmd} : ∀ {l : List HostCmd}, (∀ d ∈ l, d.id ≠ c.id) → takeCmd c.id.toNat (l ++ [c]) = some (c, l)
  | [], _ => if_pos rfl
  | d :: l, h => by
    have hd : d.id.toNat ≠ c.id.toNat := fun e => h d List.mem_cons_self (BitVec.eq_of_toNat_eq e)
    have ih := takeCmd_append (c := c) fun e he => h e (List.mem_cons_of_mem d he)
    rw [List.cons_append, takeCmd, if_neg hd, ih]
    rfl

theorem cmdStart_of_mayStart {q op : Nat} {c : HostCmd} {ready : HostCmd → State → Bool} (k : HostCmd → State → State) {s : State}
    (h : MayStart q op c s) (hr : ready c s = true) : cmdStart q c.id op ready k s = .next (k c (s.startHead q)) := by
  obtain ⟨hhead, hsafe, hdma, -⟩ := h
  have hmode : ¬ (s.mode = .safe ∧ opcodeSafe op = false) := fun ⟨hm, ho⟩ => by simp [hsafe hm] at ho
  simp only [cmdStart, hhead]
  rw [if_neg hmode, hdma, hr]
  rfl

/-- The head command of a queue is the first of those that wait. -/
theorem State.waiting_of_headCmd {s : State} {q op : Nat} {id : BitVec 64} {c : HostCmd} (h : s.headCmd q id op = some c) :
    ∃ r, (s.queue q).waiting = c :: r := by
  unfold State.headCmd at h
  split at h
  · cases h
  · rename_i d r hw
    dsimp only at h
    split at h
    · obtain rfl := Option.some.inj h
      exact ⟨r, hw⟩
    · cases h

theorem State.startHead_of_headCmd {s : State} {q op : Nat} {id : BitVec 64} {c : HostCmd} (h : s.headCmd q id op = some c) :
    s.startHead q = s.setQueue q { s.queue q with
      waiting := (s.queue q).waiting.drop 1, started := (s.queue q).started ++ [c], waits := (s.queue q).otherWaits c } := by
  obtain ⟨r, hr⟩ := State.waiting_of_headCmd h
  simp only [State.startHead, hr]
  rfl

/-- A started command finished. -/
theorem State.finish_of_started {s : State} {q status : Nat} {c : HostCmd} {r : List HostCmd}
    (h : takeCmd c.id.toNat (s.queue q).started = some (c, r)) :
    s.finish q c.id.toNat status 0 = s.setQueue q ((s.queue q).ended c r status 0) := by
  have hf : ((s.queue q).forget c.id.toNat).started = (s.queue q).started := rfl
  simp only [State.finish, hf, h]
  rfl

theorem State.queue_congr {s t : State} (h : t.queues = s.queues) (q : Nat) : t.queue q = s.queue q := by
  rw [State.queue, State.queue, h]

/-- A command that starts and ends, with nothing done to the queues between. -/
theorem ended_of_finish {q op status : Nat} {c : HostCmd} {s u : State} (h : MayStart q op c s)
    (hu : u.queues = (s.startHead q).queues) : Ended q c status 0 s (u.finish q c.id.toNat status 0) := by
  obtain ⟨hhead, -, -, hids⟩ := h
  have hs := State.startHead_of_headCmd hhead
  have hq : u.queue q = { s.queue q with
      waiting := (s.queue q).waiting.drop 1, started := (s.queue q).started ++ [c], waits := (s.queue q).otherWaits c } := by
    rw [State.queue_congr hu, hs, State.setQueue_same]
  have hf := State.finish_of_started (s := u) (q := q) (status := status) (r := (s.queue q).started) (by
    rw [hq]; exact takeCmd_append hids)
  refine ⟨?_, fun p hp => ?_⟩
  · rw [hf, State.setQueue_same, hq]
    rfl
  · rw [hf, State.setQueue_ne _ _ hp, State.queue_congr hu, hs, State.setQueue_ne _ _ hp]

theorem Spared.finish (s : State) (q id status result : Nat) : Spared s (s.finish q id status result) := by
  unfold State.finish
  dsimp only
  split
  · exact .setQueue s q _
  · split
    · exact .setQueue s q _
    · exact .refl s

theorem Spared.startHead (s : State) (q : Nat) : Spared s (s.startHead q) := by
  unfold State.startHead
  dsimp only
  split
  · exact .refl s
  · exact .setQueue s q _

/-! ### Disturbances leave the queues of commands alone -/

@[simp] theorem State.mixRegs_queues (s t : State) (m : Nat → Nat) : (s.mixRegs t m).queues = s.queues :=
  State.each_inv (P := State.queues) (by intro _ _; rfl) _ s

@[simp] theorem State.mixDram_queues (s t : State) (own : Nat → Bool) : (s.mixDram t own).queues = s.queues :=
  State.each_inv (P := State.queues) (by intro _ _; split <;> rfl) _ s

theorem State.disturbQueues_queues (g : Nat) (s : State) : (s.disturbQueues g).queues = s.queues := by
  unfold State.disturbQueues
  simp [State.takeFree]

theorem State.disturbStream_queues (i : Nat) (s : State) : (s.disturbStream i).queues = s.queues := by
  unfold State.disturbStream
  simp [State.takeFree]

theorem State.disturbAct_queues (n : Nat) (s : State) : (s.disturbAct n).queues = s.queues := by
  unfold State.disturbAct
  refine (State.each_inv (P := State.queues) (by intro _ _; rfl) _ _).trans ?_
  refine (State.each_inv (P := State.queues) (by intro _ _; rfl) _ _).trans ?_
  simp [State.takeFree]

theorem State.dmaDramPut_queues (s : State) (a : Nat) (bs : List Byte) : (s.dmaDramPut a bs).queues = s.queues :=
  (State.each_inv State.disturbAct_queues _ _).trans ((State.each_inv State.disturbStream_queues _ _).trans
    ((State.each_inv State.disturbQueues_queues _ _).trans (by simp [State.dramPut])))

/-- DMA_TO_DRAM, into whatever it meets. -/
theorem exec_dmaToDram_of_mayStart {q : Queue} {c : HostCmd} {bs : List Byte} {s : State} (h : MayStart q 0x10 c s)
    (hr : dmaRange (argOf c 1) (argOf c 2) = true) (hl : bs.length = argOf c 2) :
    ∃ t, exec (.dmaToDram q c.id (.bytes bs)) s = .next t ∧ Undisturbed s t ∧ Ended q c 0 0 s t := by
  refine ⟨((s.startHead q).dmaDramPut (argOf c 1) bs).finish q c.id.toNat 0 0, ?_, ?_, ?_⟩
  · rw [exec_dmaToDram, execDmaToDram, cmdStart_of_mayStart _ h (by simp [dataFits, hl]), State.inRange, hr, if_pos rfl]
    rfl
  · exact (((Spared.startHead s q).trans (.dmaDramPut _ _ _)).trans (.finish _ _ _ _ _)).undisturbed
  · exact ended_of_finish h (State.dmaDramPut_queues _ _ _)

/-- LOAD_BLOCK of a block whose records leave DRAM. -/
theorem exec_loadBlock_of_outside {q : Queue} {c : HostCmd} {bs : List Byte} {n b : Nat} {enc : Bool} {s : State}
    (h : MayStart q 0x13 c s) (hr : blockRange c = true) (ha : blockArgs c = (n, b, enc)) (hx : s.executing n = false)
    (hl : bs.length = s.blockLen c)
    (ho : dramSize < (s.blockEntry n b).1 + (s.blockEntry n b).2.1 * (s.blockEntry n b).2.2.1) :
    ∃ t status, exec (.loadBlock q c.id (.bytes bs)) s = .next t ∧ Undisturbed s t ∧ Ended q c status 0 s t := by
  have hs := State.startHead_of_headCmd h.1
  have hx' : (s.startHead q).executing n = false := by rw [hs]; exact hx
  have he' : (s.startHead q).blockEntry n b = s.blockEntry n b := by rw [hs]; rfl
  refine ⟨((s.startHead q).disturbAct n).takeFree.finish q c.id.toNat (((s.startHead q).disturbAct n).free.toNat % 16) 0, _,
    ?_, ?_, ended_of_finish h (State.disturbAct_queues n _)⟩
  · rw [exec_loadBlock, execLoadBlock, cmdStart_of_mayStart _ h (by simp [dataFits, hl]), State.inRange, hr, if_pos rfl, ha]
    dsimp only
    rw [hx', he', if_neg Bool.false_ne_true, if_pos ho]
  · exact ((((Spared.startHead s q).trans (.disturbAct n _)).trans (.takeFree _)).trans (.finish _ _ _ _ _)).undisturbed

end Sys2Proof.Machine
end

section
/-! PROOF. Host errors of partitions, and all host errors together (O60). -/

namespace Sys2Proof.Machine

/-! ## Partitions (R300, R301) -/

theorem State.each_inv_mem {α : Type} {P : State → α} {f : Nat → State → State} :
    ∀ {l : List Nat} (s : State), (∀ n ∈ l, ∀ s, P (f n s) = P s) → P (State.each f l s) = P s
  | [], _, _ => rfl
  | n :: _, s, h =>
    (State.each_inv_mem (f n s) fun m hm => h m (List.mem_cons_of_mem n hm)).trans (h n List.mem_cons_self s)

theorem State.withRq_reg (s : State) (x : RqSt) (a : Nat) : (s.withRq x).reg a = s.reg a := rfl

theorem State.backlogLevel_reg {s : State} {a : Nat} (h : a ≠ RQ_STATUS.addr) (he : evtReg a = false) :
    s.backlogLevel.reg a = s.reg a := by
  have hput : (s.put RQ_STATUS.BACKLOG s.rq.backlog.length).reg a = s.reg a := State.reg_put_ne s _ h
  unfold State.backlogLevel
  dsimp only
  split
  · rw [State.event_reg _ _ _ _ _ _ he, State.withRq_reg, hput]
  · split
    · rw [State.withRq_reg, hput]
    · exact hput

/-- The queues of a ring cleared: registers of the queues and of events alone. -/
theorem State.clearQueues_reg {s : State} {g a : Nat} (hg : g < 64) (ha : 0xC0000 ≤ a) (he : evtReg a = false) :
    (s.clearQueues g).reg a = s.reg a := by
  unfold State.clearQueues
  dsimp only
  rw [State.backlogLevel_reg (by simp only [RQ_STATUS.addr]; omega) he,
    State.reg_setReg_ne _ _ (by simp only [RQ_RING_PUSH.addr]; omega),
    State.reg_setReg_ne _ _ (by simp only [RQ_RING_LOST.addr]; omega),
    State.reg_setReg_ne _ _ (by simp only [RQ_RING_STATUS.addr]; omega), State.withRq_reg]

theorem State.clearAllQueues_reg {s : State} {a : Nat} (ha : 0xC0000 ≤ a) (he : evtReg a = false) :
    s.clearAllQueues.reg a = s.reg a := by
  unfold State.clearAllQueues
  dsimp only
  rw [State.backlogLevel_reg (by simp only [RQ_STATUS.addr]; omega) he, State.withRq_reg]
  exact State.each_inv_mem (P := fun s => s.reg a) s fun g hg s => State.clearQueues_reg (List.mem_range.mp hg) ha he

/-- A partition written leaves the registers of streams alone. -/
theorem State.setPart_reg {s : State} {i a : Nat} (size : Bool) (v : Word) (hi : i < 16) (ha : 0xC0000 ≤ a)
    (he : evtReg a = false) : (s.setPart i size v).reg a = s.reg a := by
  have hpart : a ≠ MEM_DRAM_PART.addr i := by simp only [MEM_DRAM_PART.addr]; omega
  have hsize : a ≠ MEM_DRAM_PART_SIZE.addr i := by simp only [MEM_DRAM_PART_SIZE.addr]; omega
  have hput : ∀ x, (s.put (MEM_DRAM_PART.BASE i) x).reg a = s.reg a := fun x => State.reg_put_ne s x hpart
  unfold State.setPart
  dsimp only
  split_ifs
  · rfl
  · exact s.store_reg_ne v hsize
  · exact hput _
  · rw [State.clearAllQueues_reg ha he, hput]
  · exact s.store_reg_ne v hpart

theorem State.setPart_streamOn {s : State} {i k : Nat} (size : Bool) (v : Word) (hi : i < 16) (hk : k < 16) :
    (s.setPart i size v).streamOn k = s.streamOn k := by
  have he : evtReg (ACQ_STREAM_CTRL.addr k) = false :=
    (by decide : ∀ k : Stream, evtReg (ACQ_STREAM_CTRL.addr k) = false) ⟨k, hk⟩
  have ha : 0xC0000 ≤ ACQ_STREAM_CTRL.addr k := by simp only [ACQ_STREAM_CTRL.addr]; omega
  have hreg : (s.setPart i size v).reg (ACQ_STREAM_CTRL.EN k).addr = s.reg (ACQ_STREAM_CTRL.EN k).addr :=
    State.setPart_reg size v hi ha he
  rw [State.streamOn, State.streamOn, State.flag, State.flag, State.fld_congr hreg]

/-- The enabled streams whose rings lie across another kind's partition after a partition write are those that it disturbs. -/
def State.partVictims (s : State) : List Nat := (List.range 16).filter (fun k => s.streamOn k && s.streamMisplaced k)

theorem State.writePart_eq {s : State} (i : Nat) (size : Bool) (v : Word) (hx : s.anyExecuting = false) (hf : s.rq.fin = none) :
    s.writePart i size v =
      (let u := State.each State.disturbStream (s.setPart i size v).partVictims (s.setPart i size v)
       if u.partsOk then u else u.takeFree.mixDram u.anyState (inAreas u.badSpans)) := by
  rw [State.writePart, if_neg (by simp [hx, hf])]
  rfl

/-- What a partition write leaves free: the streams' own and the bytes of partitions that are not as R300 and R301 ask. -/
theorem Spared.writePart {s : State} (i : Nat) (size : Bool) (v : Word) (hx : s.anyExecuting = false) (hf : s.rq.fin = none) :
    Spared (s.setPart i size v) (s.writePart i size v) := by
  have hstreams := Spared.each Spared.disturbStream (s.setPart i size v).partVictims (s.setPart i size v)
  rw [State.writePart_eq i size v hx hf]
  exact .ite hstreams ((hstreams.trans (.takeFree _)).trans (.mixDram _ _ _))

theorem State.partVictims_setPart {s : State} {i : Nat} {size : Bool} {v : Word} (hi : i < 16)
    (h : ∀ k, k < 16 → s.streamOn k = false ∨ (s.setPart i size v).streamMisplaced k = false) :
    (s.setPart i size v).partVictims = [] := by
  refine List.filter_eq_nil_iff.mpr fun k hk => ?_
  have hk : k < 16 := List.mem_range.mp hk
  rw [State.setPart_streamOn size v hi hk]
  rcases h k hk with h | h <;> simp [h]

theorem State.mixDram_regs (s t : State) (own : Nat → Bool) : (s.mixDram t own).regs = s.regs :=
  State.each_inv (P := State.regs) (fun _ _ => by split <;> rfl) _ s

theorem State.writePart_regs {s : State} {i : Nat} {size : Bool} {v : Word} (hi : i < 16) (hx : s.anyExecuting = false)
    (hf : s.rq.fin = none) (hb : (s.setPart i size v).partsOk = false)
    (h : ∀ k, k < 16 → s.streamOn k = false ∨ (s.setPart i size v).streamMisplaced k = false) :
    (s.writePart i size v).regs = (s.setPart i size v).regs := by
  have hw := State.writePart_eq i size v hx hf
  rw [State.partVictims_setPart hi h] at hw
  generalize s.setPart i size v = u at *
  rw [hw]
  simp only [State.each, hb]
  exact (State.mixDram_regs _ _ _).trans rfl

theorem exec_dramPartWrite_of_inService {i : Fin 16} {size : Bool} {v : Word} {s : State} (hs : s.inService = true)
    (hv : reservedBits (if size then MEM_DRAM_PART_SIZE.addr i else MEM_DRAM_PART.addr i) v = 0) :
    exec (.dramPartWrite i size v) s = .next (s.writePart i size v) := by
  rw [exec_dramPartWrite, execDramPartWrite, State.hostWrite_of_access _ (State.access_of_inService hs _) hv]

/-! ## Host errors (R9) -/

theorem exec_ppmuStart_of_reserved {c : Chan} {v : Word} {s : State} (hs : s.inService = true)
    (hv : reservedBits (PIN_PPMU_CFG.addr c) v = 0) (h31 : wbit v 31 = true) (hsel : 9 ≤ wfld v (PIN_PPMU_CFG.MEAS_SEL c)) :
    ∃ t, exec (.ppmuStart c v) s = .next t ∧ Undisturbed s t := by
  refine ⟨s.writePpmuCfg c v, ?_, (s.writePpmuCfg_of_reserved h31 hsel).undisturbed⟩
  rw [exec_ppmuStart, execPpmuStart, State.hostWrite_of_access _ (State.access_of_inService hs _) hv]

theorem exec_senseMeasStart_steady {m : Fin 32} {v : Word} {s : State} (hs : s.inService = true)
    (hv : reservedBits (MON_SENSE_MEAS.addr m) v = 0) :
    ∃ t, exec (.senseMeasStart m v) s = .next t ∧ Steady s t ∧ RegsBut [MON_SENSE_MEAS.addr m] s t := by
  have he : execSenseMeasStart m v s = .next (s.writeSenseMeas m v) := by
    rw [execSenseMeasStart, State.hostWrite_of_access _ (State.access_of_inService hs _) hv]
  exact ⟨s.writeSenseMeas m v, (exec_senseMeasStart m v s).trans he,
    steady_of_frame fun fd hd => execSenseMeasStart_frame m v s _ he fd hd, s.writeSenseMeas_regsBut m v⟩

theorem exec_rootChange_of_reserved {v : Word} {s : State} (ha : s.access CLK_ROOT_CFG.addr = .full)
    (hv : reservedBits CLK_ROOT_CFG.addr v = 0)
    (hm : wfld v CLK_ROOT_CFG.ROOT_MHZ < 19200 ∨ 25600 < wfld v CLK_ROOT_CFG.ROOT_MHZ) :
    ∃ t, exec (.rootChange v) s = .next t ∧ exec (.refSrcWrite v) s = .next t ∧ OnlyRegs [CLK_STATUS.addr] s.takeFree t := by
  have hw : s.hostWrite CLK_ROOT_CFG.addr v (fun s => s.writeRootCfg v) = s.freeField CLK_STATUS.ROOT_REFUSED := by
    rw [State.hostWrite_of_access _ ha hv, State.writeRootCfg, if_pos hm]
  refine ⟨s.freeField CLK_STATUS.ROOT_REFUSED, ?_, ?_, rfl, fun a h => State.reg_put_ne _ _ fun e => h (List.mem_singleton.mpr e)⟩
  · rw [exec_rootChange, execRootChange, hw]
  · rw [exec_refSrcWrite, execRefSrcWrite, hw]

/-- A ring index past its limit: the word is stored and the queue is disturbed, and no other. -/
theorem exec_sqDoorbell_of_passes {q : Queue} {v : Word} {s : State} (hs : s.inService = true)
    (hv : reservedBits (HOST_Q_SQ_TAIL.addr q) v = 0)
    (h : ringPasses (s.fld (HOST_Q_SQ_TAIL.TAIL q)) (wfld v (HOST_Q_SQ_TAIL.TAIL q)) (s.fld (HOST_Q_SQ_HEAD.HEAD q)) true = true) :
    ∃ t, exec (.sqDoorbell q v) s = .next t ∧ Undisturbed s t ∧ (∀ p, p ≠ q.val → t.queue p = s.queue p) := by
  obtain ⟨hspared, hother⟩ := Spared.store_disturbQueue s q (HOST_Q_SQ_TAIL.addr q) v (shelterAt_queue.1 q)
  refine ⟨_, ?_, hspared.undisturbed, hother⟩
  rw [exec_sqDoorbell_of_inService hs hv, State.writeSqTail, if_pos h]

theorem exec_cqHeadWrite_of_passes {q : Queue} {v : Word} {s : State} (hs : s.inService = true)
    (hv : reservedBits (HOST_Q_CQ_HEAD.addr q) v = 0)
    (h : ringPasses (s.fld (HOST_Q_CQ_HEAD.HEAD q)) (wfld v (HOST_Q_CQ_HEAD.HEAD q)) (s.fld (HOST_Q_CQ_TAIL.TAIL q)) false = true) :
    ∃ t, exec (.cqHeadWrite q v) s = .next t ∧ Undisturbed s t ∧ (∀ p, p ≠ q.val → t.queue p = s.queue p) := by
  obtain ⟨hspared, hother⟩ := Spared.store_disturbQueue s q (HOST_Q_CQ_HEAD.addr q) v (shelterAt_queue.2 q)
  refine ⟨_, ?_, hspared.undisturbed, hother⟩
  rw [exec_cqHeadWrite_of_inService hs hv, State.writeCqHead, if_pos h]

theorem exec_rqMapCfgWrite_of_outside {g : Ring} {v : Word} {s : State} (hs : s.inService = true)
    (hv : reservedBits (RQ_MAP_CFG.addr g) v = 0) (hx : s.ringExecuting g = false)
    (h : 256 < wfld v (RQ_MAP_CFG.CHUNK_BASE g) + wfld v (RQ_MAP_CFG.CHUNK_CNT g)) :
    ∃ t, exec (.rqMapCfgWrite g v) s = .next t ∧ Undisturbed s t := by
  refine ⟨s.disturbQueues g, ?_, (Spared.disturbQueues g s).undisturbed⟩
  rw [exec_rqMapCfgWrite, execRqMapCfgWrite, State.hostWrite_of_access _ (State.access_of_inService hs _) hv,
    State.writeRqMapCfg, hx, if_neg Bool.false_ne_true, if_pos h]

theorem exec_rqFinalize_of_inService {v : Word} {s : State} (hs : s.inService = true) (hv : reservedBits RQ_FINALIZE.addr v = 0) :
    ∃ t, exec (.rqFinalize v) s = .next t ∧ Undisturbed s t := by
  refine ⟨s.writeRqFinalize v, ?_, (Spared.writeRqFinalize s v).undisturbed⟩
  rw [exec_rqFinalize, execRqFinalize, State.hostWrite_of_access _ (State.access_of_inService hs _) hv]

theorem State.inService_of_mode {s : State} (h : s.mode = .idle ∨ s.mode = .run) : s.inService = true := by
  rcases h with h | h <;> simp [State.inService, h]

theorem exec_trigArm_of_reserved {k : Trig} {v : Word} {s : State} (hm : s.mode = .idle ∨ s.mode = .run)
    (hv : reservedBits (ACQ_TRIG_CTRL.addr k) v = 0) (h31 : wbit v 31 = true) (h30 : wbit v 30 = false)
    (hr : (s.store (ACQ_TRIG_CTRL.addr k) v).trigReserved k = true) :
    ∃ t, exec (.trigArm k v) s = .next t ∧ Undisturbed s t ∧ (∀ j, j ≠ k.val → t.trig j = s.trig j) := by
  obtain ⟨hspared, hother⟩ := State.writeTrigCtrl_of_reserved hm h31 h30 hr
  refine ⟨_, ?_, hspared.undisturbed, hother⟩
  rw [exec_trigArm, execTrigArm, State.hostWrite_of_access _ (State.access_of_inService (State.inService_of_mode hm) _) hv]

theorem exec_streamEnable_of_reserved {i : Stream} {v : Word} {s : State} (hm : s.mode = .idle ∨ s.mode = .run)
    (hv : reservedBits (ACQ_STREAM_CTRL.addr i) v = 0) (h31 : wbit v 31 = true) (hoff : s.streamOn i = false)
    (hr : ((s.store (ACQ_STREAM_CTRL.addr i) v).put (ACQ_STREAM_CTRL.EN i) 0).streamReserved i = true ∨
      ((s.store (ACQ_STREAM_CTRL.addr i) v).put (ACQ_STREAM_CTRL.EN i) 0).streamMisplaced i = true) :
    ∃ t, exec (.streamEnable i v) s = .next t ∧ Undisturbed s t ∧ (∀ j, j ≠ i.val → t.stream j = s.stream j) := by
  obtain ⟨hspared, hother⟩ := State.writeStreamCtrl_of_reserved hm h31 hoff hr
  refine ⟨_, ?_, hspared.undisturbed, hother⟩
  rw [exec_streamEnable, execStreamEnable,
    State.hostWrite_of_access _ (State.access_of_inService (State.inService_of_mode hm) _) hv]

/-- A command whose outcome is the disturbance of one act. -/
theorem disturbAct_next {c : Instr} {n : Nat} {s : State} (h : exec c s = .next (s.disturbAct n)) :
    ∃ t, exec c s = .next t ∧ Undisturbed s t ∧ (∀ m, m ≠ n → t.act m = s.act m) :=
  ⟨_, h, (Spared.disturbAct n s).undisturbed, fun _ hm => s.disturbAct_act_ne hm⟩

/-- Settles O60: each host error's outcome differs from the state before only where R9 lets it (`Spared`), so that what R9
protects is undisturbed. -/
theorem hostErrorsGoOn : Obligations.HostErrorsGoOn := by
  unfold Obligations.HostErrorsGoOn
  refine ⟨?_, ?_, ?_, ?_, ?_, ?_, ?_, ?_, ?_, ?_, ?_, ?_, ?_, ?_, ?_, ?_, ?_, ?_, ?_, ?_, ?_, ?_⟩
  · exact fun _ _ _ _ h4 ha _ hv => registerWrite_reservedBits h4 ha hv
  · exact fun _ _ _ _ h ha hv => rowWrite_reservedBits h ha hv
  · exact fun _ _ v be _ h4 ha hlo hx => registerWrite_executingHalf v be h4 ha hlo hx
  · exact fun _ _ _ _ _ _ h4 ha hr hv hx => registerWrite_executingSets h4 ha hr hv hx
  · exact fun _ _ _ _ _ hc hw h hr => disturbAct_next (exec_flowRow_of_reserved hc hw h hr)
  · exact fun n s _ _ _ _ => startChecks_otherActs n s
  · exact fun _ _ _ hp ht => exec_calStarved_of_reserved hp ht
  · exact fun _ _ _ hs hv h31 hsel => exec_ppmuStart_of_reserved hs hv h31 hsel
  · exact fun _ _ _ hs hv _ _ => exec_senseMeasStart_steady hs hv
  · exact fun _ _ ha hv hm => exec_rootChange_of_reserved ha hv hm
  · exact fun _ _ _ hs hv h => exec_sqDoorbell_of_passes hs hv h
  · exact fun _ _ _ hs hv h => exec_cqHeadWrite_of_passes hs hv h
  · exact fun _ _ s hs h => ⟨_, exec_bar2Write_of_inService hs h, (Spared.hostDramPut s _ _).undisturbed⟩
  · exact fun _ _ _ _ h hr hl => exec_dmaToDram_of_mayStart h hr hl
  · exact fun _ _ _ _ _ _ _ h hr ha hx hl ho => exec_loadBlock_of_outside h hr ha hx hl ho
  · exact fun i size v s hs hv hx hf hb hk => ⟨_, exec_dramPartWrite_of_inService hs hv,
      State.writePart_regs i.isLt hx hf hb hk,
      steady_of_frame fun fd hd => execDramPartWrite_frame i size v s _ (exec_dramPartWrite_of_inService hs hv) fd hd⟩
  · exact fun _ _ _ hs hv hx h => exec_rqMapCfgWrite_of_outside hs hv hx h
  · exact fun _ _ hs hv _ _ _ _ => exec_rqFinalize_of_inService hs hv
  · exact fun _ _ _ _ hm hv h31 h30 _ hr => exec_trigArm_of_reserved hm hv h31 h30 hr
  · exact fun _ _ _ hm hv h31 hoff hr => exec_streamEnable_of_reserved hm hv h31 hoff hr
  · exact fun _ _ _ _ _ _ _ _ hp hn ht hy hd hf => disturbAct_next (exec_pinEdge_of_reserved hp hn ht hy hd hf)
  · exact fun i size v _ hs hv hx hf => ⟨_, exec_dramPartWrite_of_inService hs hv, (Spared.writePart i size v hx hf).undisturbed⟩

end Sys2Proof.Machine
end

section
/-! PROOF. BAR2, and the moves of partitions, blocks and rings (O50). -/

namespace Sys2Proof.Machine

/-! ## Numbers and operations applied one after another -/

/-- Bits that are not set are not cleared. -/
theorem and_mask_compl_of_disjoint {m v : Nat} (hm : m < 2 ^ 32) (hv : v < 2 ^ 32) (h : m &&& v = 0) :
    m &&& (0xFFFFFFFF - v) = m := by
  refine Nat.eq_of_testBit_eq fun i => ?_
  have hb : (m.testBit i && v.testBit i) = false := by
    rw [← Nat.testBit_and, h, Nat.zero_testBit]
  by_cases hi : i < 32
  · rw [Nat.testBit_and, testBit_mask_compl hv hi]
    revert hb
    cases m.testBit i <;> cases v.testBit i <;> simp
  · rw [Nat.testBit_and, Nat.testBit_lt_two_pow (Nat.lt_of_lt_of_le hm (Nat.pow_le_pow_right (by omega) (by omega)))]
    rfl

/-- A part of the state by number, where each operation changes the part of its own number alone. -/
theorem State.each_own {α : Type} {f : Nat → State → State} {P : Nat → State → α} {G : Nat → α → α}
    (own : ∀ k s, P k (f k s) = G k (P k s)) (other : ∀ j k s, j ≠ k → P j (f k s) = P j s) :
    ∀ {l : List Nat}, l.Nodup → ∀ (s : State) (j : Nat), P j (State.each f l s) = if j ∈ l then G j (P j s) else P j s
  | [], _, _, _ => rfl
  | k :: l, hl, s, j => by
    obtain ⟨hk, hl⟩ := List.nodup_cons.mp hl
    rw [State.each, State.each_own own other hl]
    by_cases hj : j = k
    · subst hj
      rw [if_neg hk, own, if_pos List.mem_cons_self]
    · rw [other j k s hj]
      simp [hj]

theorem filter_range_eq_nil {n : Nat} {p : Nat → Bool} (h : ∀ i, i < n → p i = false) : (List.range n).filter p = [] :=
  List.filter_eq_nil_iff.mpr fun i hi => by simp [h i (List.mem_range.mp hi)]

/-! ## BAR2 (R12, R325) -/

theorem State.mode_ne_off_of_inService {s : State} (h : s.inService = true) : s.mode ≠ .off := by
  rcases State.mode_of_inService h with h | h | h <;> simp [h]

/-- A read of BAR2: DRAM in service, all ones elsewhere. -/
theorem exec_bar2Read_of_mode {a : BitVec 37} {len : Nat} {s : State} (hm : s.mode ≠ .off) (h : a.toNat + len ≤ dramSize) :
    exec (.bar2Read a len .clean) s =
      .next (s.answer (if s.inService then s.dramBytes a.toNat len else List.replicate len 0xFF) false) := by
  rw [exec_bar2Read, execBar2Read, if_neg (not_or.mpr ⟨hm, by omega⟩)]
  split <;> rfl

/-- A write of DRAM that meets nothing in use stores its bytes and does no more. -/
theorem State.dmaDramPut_of_clear {s : State} {a : Nat} {bs : List Byte} (h : Clear a bs.length s) :
    s.dmaDramPut a bs = s.dramPut a bs := by
  obtain ⟨hpool, hstream, hblocks⟩ := h
  unfold State.dmaDramPut actNums
  dsimp only
  rw [filter_range_eq_nil hpool, filter_range_eq_nil hstream, filter_range_eq_nil hblocks]
  rfl

theorem State.hostDramPut_of_clear {s : State} {a : Nat} {bs : List Byte} (h : Clear a bs.length s)
    (hr : ∀ g, g < 64 → s.hitsRing a bs.length g = false) : s.hostDramPut a bs = s.dramPut a bs := by
  rw [State.hostDramPut, State.dmaDramPut_of_clear h, filter_range_eq_nil hr]
  rfl

/-- The bytes of DRAM after bytes are written: those written, and all others as before. -/
theorem State.dramPut_bytes (s : State) (a : Nat) (bs : List Byte) :
    (∀ i, i < bs.length → (s.dramPut a bs).dramAt (a + i) = bs.getD i 0) ∧
    (∀ b, b < a ∨ a + bs.length ≤ b → (s.dramPut a bs).dramAt b = s.dramAt b) ∧ (s.dramPut a bs).withDram s.dram = s := by
  refine ⟨fun i hi => ?_, fun b hb => s.dramAt_dramPut_out bs hb, rfl⟩
  rw [s.dramAt_dramPut_in bs (Nat.le_add_right a i) (by omega), Nat.add_sub_cancel_left]
  rfl

/-! ## Partitions (R300, R301) -/

theorem regAt_MEM_DRAM_PART : ∀ i : Fin 16, regAt (MEM_DRAM_PART.addr i) =
    some (⟨"MEM_DRAM_PART", 0x80100, [(16, 0x8)], 0x9FFFFFFF, 0x0, 0x0, 0x0, 3, 0x9FFFFFFF⟩, [i.val]) := by decide

theorem MEM_DRAM_PART_not_locked (i : Fin 16) (s : State) : s.locked (MEM_DRAM_PART.addr i) = false := by
  have hi := i.isLt
  unfold State.locked MEM_DRAM_PART.addr
  rw [if_neg (by omega), if_neg (by simp only [CLK_OCXO_TRIM.addr]; omega)]

/-- One of the partitions 2 to 15 written, so that all are as R300 and R301 ask and no stream is misplaced. -/
theorem State.writePart_of_ok {s : State} {i : Fin 16} {v : Word} (hi : 2 ≤ i.val) (hx : s.anyExecuting = false)
    (hf : s.rq.fin = none) (hok : (s.store (MEM_DRAM_PART.addr i) v).partsOk = true)
    (h : ∀ k, k < 16 → s.streamOn k = false ∨ (s.store (MEM_DRAM_PART.addr i) v).streamMisplaced k = false) :
    s.writePart i false v = s.store (MEM_DRAM_PART.addr i) v := by
  have hset : s.setPart i false v = s.store (MEM_DRAM_PART.addr i) v := by
    rw [State.setPart, if_neg Bool.false_ne_true, if_neg (by omega)]
  rw [← hset] at h hok ⊢
  rw [State.writePart_eq _ _ _ hx hf, State.partVictims_setPart i.isLt h]
  exact if_pos hok

theorem State.writePart_of_executing {s : State} (i : Nat) (size : Bool) (v : Word) (hx : s.anyExecuting = true) :
    s.writePart i size v = s.put MEM_PART_STATUS.REFUSED 1 := if_pos (.inl hx)

/-- A field stored changes one register. -/
theorem State.put_onlyRegs (s : State) (f : Field) (v : Nat) : OnlyRegs [f.addr] s (s.put f v) :=
  ⟨rfl, fun _ ha => State.reg_put_ne s v (by simpa using ha)⟩

/-! ## Who owns a block, a channel, a ring (R132, R181) -/

theorem State.actOfBlock_lt {s : State} {b n : Nat} (h : s.actOfBlock b = some n) : n < 16 :=
  List.mem_range.mp (List.mem_of_find?_eq_some h)

theorem State.ringAct_lt {s : State} {g n : Nat} (h : s.ringAct g = some n) : n < 16 := by
  unfold State.ringAct at h
  split at h
  · cases h
  · split at h
    · split at h
      · rw [← Option.some.inj h]
        exact State.actOfBlock_lt ‹_›
      · cases h
    · cases h

theorem State.executing_of_anyExecuting {s : State} (h : s.anyExecuting = false) {n : Nat} (hn : n < 16) : s.executing n = false := by
  have := List.any_eq_false.mp h n (List.mem_range.mpr hn)
  simpa using this

theorem State.ringExecuting_of_anyExecuting {s : State} (h : s.anyExecuting = false) (g : Nat) : s.ringExecuting g = false := by
  unfold State.ringExecuting
  split
  · exact State.executing_of_anyExecuting h (State.ringAct_lt ‹_›)
  · rfl

theorem State.chanExecuting_of_anyExecuting {s : State} (h : s.anyExecuting = false) (c : Nat) : s.chanExecuting c = false := by
  unfold State.chanExecuting
  split
  · exact State.executing_of_anyExecuting h (State.actOfBlock_lt ‹_›)
  · rfl

theorem mem_bitList {v b : Nat} : ∀ {n i : Nat}, b ∈ bitList v n i → i ≤ b ∧ b < i + n
  | n + 1, i, h => by
    rw [bitList] at h
    split at h
    · rcases List.mem_cons.mp h with rfl | h
      · omega
      · have := mem_bitList h
        omega
    · have := mem_bitList h
      omega

theorem mem_blockChans {b c : Nat} (h : c ∈ blockChans b) : c / 64 = b := by
  obtain ⟨i, hi, rfl⟩ := List.mem_map.mp h
  have := List.mem_range.mp hi
  omega

theorem State.setReg_withRegs (s : State) (a : Nat) (w : Word) (r : Tab Word) : (s.setReg a w).withRegs r = s.withRegs r := rfl

/-- A field stored changes the register file alone. -/
theorem State.put_withRegs (s : State) (f : Field) (v : Nat) (r : Tab Word) : (s.put f v).withRegs r = s.withRegs r :=
  State.setReg_withRegs s _ _ r

/-! ### PPMUs that a forced park disconnects (R105) -/

theorem State.dropPpmu_reg {s : State} {c a : Nat} (h : a ≠ PIN_PPMU_CFG.addr c) (h' : a ≠ PIN_PPMU_MEAS.addr c) :
    (State.dropPpmu c s).reg a = s.reg a := by
  unfold State.dropPpmu
  split
  · rw [State.reg_put_ne _ _ h', State.reg_put_ne _ _ h]
  · rfl

/-- A register of neither kind. -/
theorem State.parkPpmus_reg {s : State} {cs : List Nat} {a : Nat}
    (h : ∀ c ∈ cs, a ≠ PIN_PPMU_CFG.addr c ∧ a ≠ PIN_PPMU_MEAS.addr c) : (s.parkPpmus cs).reg a = s.reg a :=
  State.each_inv_mem (P := fun u => u.reg a) s fun c hc _ => State.dropPpmu_reg (h c hc).1 (h c hc).2

theorem State.parkPpmus_eq (s : State) (cs : List Nat) (r : Tab Word) : (s.parkPpmus cs).withRegs r = s.withRegs r :=
  State.each_inv (P := fun u => u.withRegs r) (fun c u => by
    unfold State.dropPpmu
    split
    · exact (State.put_withRegs _ _ _ r).trans (State.put_withRegs _ _ _ r)
    · rfl) _ s

/-- The registers of acts are none of those of PPMUs. -/
theorem State.parkPpmus_reg_lt {s : State} {cs : List Nat} {a : Nat} (h : a < 0x400000) : (s.parkPpmus cs).reg a = s.reg a :=
  State.parkPpmus_reg fun c _ => by simp only [PIN_PPMU_CFG.addr, PIN_PPMU_MEAS.addr]; omega

/-! ### Blocks (R132) -/

/-- The blocks that an act gains leave every other act. -/
def State.loseBlocks (n new : Nat) (s : State) : State :=
  State.each (fun m s =>
    if m = n then s else s.put (SEQ_CB_MASK.MASK m) (s.fld (SEQ_CB_MASK.MASK m) &&& (65535 - new))) actNums s

theorem State.loseBlocks_fld {n new m : Nat} (s : State) (hm : m < 16) (h : m ≠ n) :
    (s.loseBlocks n new).fld (SEQ_CB_MASK.MASK m) = s.fld (SEQ_CB_MASK.MASK m) &&& (65535 - new) := by
  have own : ∀ k (u : State), (if k = n then u else u.put (SEQ_CB_MASK.MASK k) (u.fld (SEQ_CB_MASK.MASK k) &&& (65535 - new))).fld
      (SEQ_CB_MASK.MASK k) = if k = n then u.fld (SEQ_CB_MASK.MASK k) else u.fld (SEQ_CB_MASK.MASK k) &&& (65535 - new) := by
    intro k u
    split
    · rfl
    · rw [State.fld_put_same _ _ _ (by simp [SEQ_CB_MASK.MASK])]
      exact Nat.mod_eq_of_lt (Nat.lt_of_le_of_lt Nat.and_le_left (u.fld_lt (SEQ_CB_MASK.MASK k)))
  have other : ∀ j k (u : State), j ≠ k → (if k = n then u else u.put (SEQ_CB_MASK.MASK k)
      (u.fld (SEQ_CB_MASK.MASK k) &&& (65535 - new))).fld (SEQ_CB_MASK.MASK j) = u.fld (SEQ_CB_MASK.MASK j) := by
    intro j k u hjk
    split
    · rfl
    · exact State.fld_put_ne u _ (by simp only [SEQ_CB_MASK.MASK, SEQ_CB_MASK.addr]; omega)
  have heach := State.each_own (P := fun k u => u.fld (SEQ_CB_MASK.MASK k))
    (G := fun k x => if k = n then x else x &&& (65535 - new)) own other (List.nodup_range (n := 16)) s m
  rw [if_pos (List.mem_range.mpr hm), if_neg h] at heach
  exact heach

theorem State.loseBlocks_eq (s : State) (n new : Nat) (r : Tab Word) : (s.loseBlocks n new).withRegs r = s.withRegs r :=
  State.each_inv (P := fun u => u.withRegs r) (fun m u => by
    split
    · rfl
    · exact State.put_withRegs u _ _ r) _ s

/-- A write of an act's blocks that is not refused. -/
theorem State.writeCbMask_of_anyExecuting {s : State} {n : Act} {v : Word} (h : s.anyExecuting = false) :
    ∃ cs, s.writeCbMask n v = ((s.loseBlocks n (wfld v (SEQ_CB_MASK.MASK n))).put (SEQ_CB_MASK.MASK n)
      (wfld v (SEQ_CB_MASK.MASK n))).parkPpmus cs := by
  refine ⟨_, if_neg ?_⟩
  rintro ⟨-, hx | hx⟩
  · rw [State.executing_of_anyExecuting h n.isLt] at hx
    cases hx
  · obtain ⟨m, hm, hx⟩ := List.any_eq_true.mp hx
    obtain ⟨b, -, hb⟩ := List.mem_filterMap.mp hm
    rw [State.executing_of_anyExecuting h (State.actOfBlock_lt hb)] at hx
    cases hx

theorem exec_seqCbMaskWrite_of_inService {n : Act} {v : Word} {s : State} (hs : s.inService = true)
    (hv : reservedBits (SEQ_CB_MASK.addr n) v = 0) : exec (.seqCbMaskWrite n v) s = .next (s.writeCbMask n v) := by
  rw [exec_seqCbMaskWrite, execSeqCbMaskWrite, State.hostWrite_of_access _ (State.access_of_inService hs _) hv]

/-! ### Rings (R181, R197) -/

/-- The channels that a ring gains leave every other ring. -/
def State.loseMembers (g i v : Nat) (s : State) : State :=
  State.each (fun h s =>
    if h = g then s
    else
      let m := s.fld (FAIL_RING_CH.MEMBERS h i)
      if m &&& v = 0 then s else s.put (FAIL_RING_CH.MEMBERS h i) (m &&& (0xFFFFFFFF - v))) (List.range 64) s

theorem State.loseMembers_fld {g i v h : Nat} (s : State) (hv : v < 2 ^ 32) (hh : h < 64) (hne : h ≠ g) :
    (s.loseMembers g i v).fld (FAIL_RING_CH.MEMBERS h i) = s.fld (FAIL_RING_CH.MEMBERS h i) &&& (0xFFFFFFFF - v) := by
  have own : ∀ k (u : State), (if k = g then u
      else
        let m := u.fld (FAIL_RING_CH.MEMBERS k i)
        if m &&& v = 0 then u else u.put (FAIL_RING_CH.MEMBERS k i) (m &&& (0xFFFFFFFF - v))).fld (FAIL_RING_CH.MEMBERS k i) =
      if k = g then u.fld (FAIL_RING_CH.MEMBERS k i) else u.fld (FAIL_RING_CH.MEMBERS k i) &&& (0xFFFFFFFF - v) := by
    intro k u
    have hlt : u.fld (FAIL_RING_CH.MEMBERS k i) < 2 ^ 32 := u.fld_lt _
    dsimp only
    split
    · rfl
    · split
      · exact (and_mask_compl_of_disjoint hlt hv ‹_›).symm
      · rw [State.fld_put_same _ _ _ (by simp [FAIL_RING_CH.MEMBERS])]
        exact Nat.mod_eq_of_lt (Nat.lt_of_le_of_lt Nat.and_le_left hlt)
  have other : ∀ j k (u : State), j ≠ k → (if k = g then u
      else
        let m := u.fld (FAIL_RING_CH.MEMBERS k i)
        if m &&& v = 0 then u else u.put (FAIL_RING_CH.MEMBERS k i) (m &&& (0xFFFFFFFF - v))).fld (FAIL_RING_CH.MEMBERS j i) =
      u.fld (FAIL_RING_CH.MEMBERS j i) := by
    intro j k u hjk
    dsimp only
    split_ifs
    · rfl
    · rfl
    · exact State.fld_put_ne u _ (by simp only [FAIL_RING_CH.MEMBERS, FAIL_RING_CH.addr]; omega)
  have heach := State.each_own (P := fun k u => u.fld (FAIL_RING_CH.MEMBERS k i))
    (G := fun k x => if k = g then x else x &&& (0xFFFFFFFF - v)) own other (List.nodup_range (n := 64)) s h
  rw [if_pos (List.mem_range.mpr hh), if_neg hne] at heach
  exact heach

theorem State.loseMembers_eq (s : State) (g i v : Nat) (r : Tab Word) : (s.loseMembers g i v).withRegs r = s.withRegs r :=
  State.each_inv (P := fun u => u.withRegs r) (fun m u => by
    dsimp only
    split_ifs
    · rfl
    · rfl
    · exact State.put_withRegs u _ _ r) _ s

theorem State.loseMembers_reg {s : State} {g i v a : Nat} (h : ∀ k, k < 64 → a ≠ FAIL_RING_CH.addr k i) :
    (s.loseMembers g i v).reg a = s.reg a :=
  State.each_inv_mem (P := fun u => u.reg a) s fun k hk u => by
    dsimp only
    split_ifs
    · rfl
    · rfl
    · exact State.reg_put_ne u _ (h k (List.mem_range.mp hk))

theorem State.writeRingCh_of_anyExecuting {s : State} (g i : Nat) (v : Word) (h : s.anyExecuting = false) :
    s.writeRingCh g i v = (s.loseMembers g i v.toNat).put (FAIL_RING_CH.MEMBERS g i) v.toNat := by
  refine if_neg (not_or.mpr ⟨?_, ?_⟩)
  · rw [State.ringExecuting_of_anyExecuting h]
    exact Bool.false_ne_true
  · rw [List.any_eq_true.not]
    rintro ⟨k, -, hk⟩
    rw [State.chanExecuting_of_anyExecuting h] at hk
    cases hk

/-- Every bit of FAIL_RING_CH has a name. -/
theorem reservedBits_FAIL_RING_CH (g : Ring) (i : Fin 32) (v : Word) : reservedBits (FAIL_RING_CH.addr g i) v = 0 := by
  rw [reservedBits, regAt_FAIL_RING_CH]
  exact Nat.and_zero _

theorem exec_failRingChWrite_of_inService {g : Ring} {i : Fin 32} {v : Word} {s : State} (hs : s.inService = true) :
    exec (.failRingChWrite g i v) s = .next (s.writeRingCh g i v) := by
  rw [exec_failRingChWrite, execFailRingChWrite,
    State.hostWrite_of_access _ (State.access_of_inService hs _) (reservedBits_FAIL_RING_CH g i v)]

/-- Settles O50: each command by the operation that it is in service, and each operation by what it stores. -/
theorem dramAndOwnershipComplete : Obligations.DramAndOwnershipComplete := by
  unfold Obligations.DramAndOwnershipComplete
  refine ⟨?_, ?_, ?_, ?_, ?_, ?_, ?_, ?_, ?_⟩
  · intro a len s hs h
    exact ⟨_, exec_bar2Read_of_mode (State.mode_ne_off_of_inService hs) h, by rw [if_pos hs]; rfl, rfl⟩
  · intro a len s hs hm h
    exact ⟨_, exec_bar2Read_of_mode hm h, by rw [if_neg (by simp [hs])]; rfl, rfl⟩
  · intro a bytes s hs h hc hr
    exact ⟨_, exec_bar2Write_of_inService hs h, by
      rw [State.hostDramPut_of_clear hc hr]; exact s.dramPut_bytes a.toNat bytes⟩
  · intro i v s hs hv hi hx hf hok hk
    have hreg := regAt_MEM_DRAM_PART i
    have hl := MEM_DRAM_PART_not_locked i s
    refine ⟨s.store (MEM_DRAM_PART.addr i) v, ?_, ?_, ?_, ?_, s.store_onlyRegs _ v⟩
    · rw [exec_dramPartWrite_of_inService hs (by simpa using hv), State.writePart_of_ok hi hx hf hok hk]
    · exact State.fld_store_of_rw (lo := 0) (len := 25) v hreg hl (by decide) (by decide) rfl (by decide)
    · exact State.flag_store_of_rw (lo := 31) v hreg hl (by decide) (by decide) rfl (by decide)
    · exact State.fld_store_of_rw (lo := 25) (len := 4) v hreg hl (by decide) (by decide) rfl (by decide)
  · intro i size v s hs hv hx
    refine ⟨s.put MEM_PART_STATUS.REFUSED 1, ?_, State.flag_put_one _ _ (by decide) (by decide), s.put_onlyRegs _ 1⟩
    rw [exec_dramPartWrite_of_inService hs hv, State.writePart_of_executing _ _ _ hx]
  · intro n v s hs hv hx
    obtain ⟨cs, hw⟩ := State.writeCbMask_of_anyExecuting (n := n) (v := v) hx
    have hmask : ∀ m : Act, (SEQ_CB_MASK.MASK m).addr < 0x400000 := fun m => by
      have := m.isLt
      simp only [SEQ_CB_MASK.MASK, SEQ_CB_MASK.addr]; omega
    refine ⟨_, exec_seqCbMaskWrite_of_inService hs hv, ?_, fun m hm => ?_, ?_⟩
    · rw [hw, State.fld_congr (State.parkPpmus_reg_lt (hmask n)), State.fld_put_same _ _ _ (by simp [SEQ_CB_MASK.MASK])]
      exact Nat.mod_eq_of_lt (Nat.mod_lt _ (Nat.two_pow_pos _))
    · have hne : m.val ≠ n.val := fun e => hm (Fin.ext e)
      rw [hw, State.fld_congr (State.parkPpmus_reg_lt (hmask m)),
        State.fld_put_ne _ _ (by simp only [SEQ_CB_MASK.MASK, SEQ_CB_MASK.addr]; omega), s.loseBlocks_fld m.isLt hne]
    · rw [hw]
      exact ((State.parkPpmus_eq _ cs _).trans (State.put_withRegs _ _ _ _)).trans (s.loseBlocks_eq n _ _)
  · intro n v s hs hv hx hne
    refine ⟨s.put (SEQ_STATUS.CFG_REFUSED n) 1, ?_, State.flag_put_one _ _ (by simp [SEQ_STATUS.CFG_REFUSED])
      (by simp [SEQ_STATUS.CFG_REFUSED]), s.put_onlyRegs _ 1⟩
    rw [exec_seqCbMaskWrite_of_inService hs hv]
    exact congrArg _ (if_pos ⟨hne, .inl hx⟩)
  · intro g i v s hs hx
    refine ⟨_, exec_failRingChWrite_of_inService hs, ?_⟩
    rw [State.writeRingCh_of_anyExecuting g i v hx]
    refine ⟨?_, fun h hh => ?_, (State.put_withRegs _ _ _ _).trans (s.loseMembers_eq g i v.toNat _), fun a ha => ?_⟩
    · rw [State.fld_put_same _ _ _ (by simp [FAIL_RING_CH.MEMBERS])]
      exact Nat.mod_eq_of_lt v.isLt
    · have hne : h.val ≠ g.val := fun e => hh (Fin.ext e)
      rw [State.fld_put_ne _ _ (by simp only [FAIL_RING_CH.MEMBERS, FAIL_RING_CH.addr]; omega),
        s.loseMembers_fld v.isLt h.isLt hne]
    · have hmem : ∀ k, k < 64 → a ≠ FAIL_RING_CH.addr k i := fun k hk e =>
        ha (List.mem_map.mpr ⟨k, List.mem_range.mpr hk, e.symm⟩)
      rw [State.reg_put_ne _ _ (hmem g g.isLt), State.loseMembers_reg hmem]
  · intro g i v s hs hx
    refine ⟨s.put (FAIL_STATUS.CFG_REFUSED g) 1, ?_, State.flag_put_one _ _ (by simp [FAIL_STATUS.CFG_REFUSED])
      (by simp [FAIL_STATUS.CFG_REFUSED]), s.put_onlyRegs _ 1⟩
    rw [exec_failRingChWrite_of_inService hs]
    exact congrArg _ (if_pos (.inl hx))

end Sys2Proof.Machine
end

section
/-! PROOF. A REG_WRITE that starts drops what its queue owes of its CMD_ID, so that HostTransfersComplete fails (O56). -/

namespace Sys2Proof.Machine

/-! ## REG_WRITE (R351) -/

/-- A REG_WRITE that starts writes its first word. -/
theorem exec_regWrite_of_mayStart {q : Queue} {c : HostCmd} {bs : List Byte} {s : State} (h : MayStart q 2 c s)
    (hr : remoteOk (argOf c 0) (argOf c 1) = true) (hl : bs.length = 4 * argOf c 1)
    (hw : ∀ e ∈ (s.queue q).writes, e.1 ≠ c.id.toNat) :
    exec (.regWrite q c.id (.bytes bs)) s =
      .next ((s.startHead q).regWord q c.id.toNat (argOf c 0) (bytesWords (argOf c 1) bs)) := by
  have hnone : (s.queue q).writes.find? (fun e => decide (e.1 = c.id.toNat)) = none :=
    List.find?_eq_none.mpr fun e he => by simpa using hw e he
  rw [exec_regWrite, execRegWrite, hnone]
  dsimp only
  rw [cmdStart_of_mayStart _ h (by simp [dataFits, hl]), State.inRange, hr, if_pos rfl]
  rfl

/-- A word written into the pool, with more words to come: what the queue owed of the command is dropped. -/
theorem State.regWord_owed {s : State} {q id a : Nat} {w : Word} {r : List Word} (hr : r ≠ []) (hs : s.inService = true)
    (ha : 0x1000000 ≤ a ∧ a < 0x2000000) : ((s.regWord q id a (w :: r)).queue q).owed = ((s.queue q).forget id).owed := by
  have hin : (s.setQueue q ((s.queue q).forget id)).inService = true := hs
  have hq : ((s.setQueue q ((s.queue q).forget id)).busWrite .engine a w 0xF).queue q = (s.queue q).forget id := by
    rw [State.busWrite_of_window w 0xF (State.accessOf_of_inService hin _ _) (sramWindow_pool ha)]
    exact State.setQueue_same s q _
  unfold State.regWord
  dsimp only
  rw [if_neg hr]
  split
  · rw [State.setQueue_same, hq]
  · rw [hq]

/-! ## The counterexample -/

/-- A REG_WRITE of two words at the start of the pool, with CMD_ID 7. -/
def twoWordWrite : HostCmd := ⟨7, 2, 0, [0x1000000, 2]⟩

/-- The module in IDLE, with that command at the head of queue 0, which owes the words of a remote read with CMD_ID 7 (R327). -/
def owingState : State := (State.reset.withMode .idle).setQueue 0 { waiting := [twoWordWrite], owed := [(7, [])] }

theorem mayStart_owingState : MayStart 0 2 twoWordWrite owingState := by
  unfold MayStart
  decide +kernel

/-- Refutes O56: its fourth clause says that a REG_WRITE of more than one word leaves `owed` as it was, but with its first
word the queue drops what it owes of that CMD_ID (`State.regWord_owed`), and no premise keeps such an entry out. -/
theorem not_hostTransfersComplete : ¬ Obligations.HostTransfersComplete := by
  unfold Obligations.HostTransfersComplete
  rintro ⟨-, -, -, hwrite, -⟩
  have hnowrites : ∀ e ∈ (owingState.queue (0 : Queue)).writes, e.1 ≠ twoWordWrite.id.toNat := by decide
  obtain ⟨t, ht, -, hqueue, -⟩ := hwrite 0 twoWordWrite (List.replicate 8 0) owingState mayStart_owingState rfl rfl (by decide)
    (by decide) rfl hnowrites
  rw [exec_regWrite_of_mayStart mayStart_owingState rfl rfl hnowrites] at ht
  have hdropped : (t.queue (0 : Queue)).owed = [] := by
    rw [← Host.Outcome.next.inj ht]
    exact State.regWord_owed (by decide) rfl (by decide)
  have hkept : (t.queue (0 : Queue)).owed = [(7, [])] := by rw [hqueue (by decide)]; rfl
  rw [hdropped] at hkept
  cases hkept

end Sys2Proof.Machine
end

section
/-! SUPPORT. What an event leaves alone, and what the triggers that see a vector leave alone. -/

namespace Sys2Proof.Machine

/-! ## What an event writes beside its number (R326, R334-R336) -/

/-- A state with the parts that events and interrupts write taken from another. -/
def State.unjournaled (s t : State) : State :=
  { t with regs := s.regs, msix := s.msix, evtIrq := s.evtIrq, evtDefer := s.evtDefer, pool := s.pool, dram := s.dram,
           persist := s.persist, ports := s.ports }

/-- No more than what events and interrupts write differs. -/
def Journaled (s t : State) : Prop := s.unjournaled t = s

theorem Journaled.refl (s : State) : Journaled s s := rfl

theorem Journaled.trans {s t u : State} (h : Journaled s t) (k : Journaled t u) : Journaled s u :=
  calc
    s.unjournaled u = s.unjournaled (t.unjournaled u) := rfl
    _ = s := by rw [show t.unjournaled u = t from k]; exact h

theorem Journaled.ite {s t u : State} {p : Prop} [Decidable p] (ht : Journaled s t) (hu : Journaled s u) :
    Journaled s (if p then t else u) := by
  split
  · exact ht
  · exact hu

theorem Journaled.put (s : State) (f : Field) (v : Nat) : Journaled s (s.put f v) := rfl

theorem Journaled.raiseVec (s : State) (v : Nat) : Journaled s (s.raiseVec v) := .ite (.put s _ _) rfl

theorem Journaled.sysIrq (s : State) (bit : Nat) : Journaled s (s.sysIrq bit) :=
  .ite (.refl s) (.ite ((Journaled.put s _ _).trans (.raiseVec _ 0)) (.put s _ _))

theorem Journaled.journalIrq (s : State) : Journaled s s.journalIrq := by
  have irq : Journaled s ((((s.raiseVec (s.fld EVT_CFG.VEC)).sysIrq 6).withEvtIrq (some s.time.toNat)).withEvtDefer false) :=
    ((Journaled.raiseVec s _).trans (.sysIrq _ 6)).trans rfl
  refine .ite (.refl s) ?_
  split
  · exact .ite rfl irq
  · exact irq

theorem Journaled.journalDram (s : State) (w : Nat) (r : EvtRec) : Journaled s (s.journalDram w r) := by
  unfold State.journalDram
  split
  · exact .refl s
  · exact .ite (.refl s) rfl

theorem Journaled.journal (s : State) (r : EvtRec) : Journaled s (s.journal r) := by
  have lost : Journaled s (if 32768 ≤ s.unread then s.bump EVT_LOST.COUNT else s) := .ite (.put s _ _) (.refl s)
  have pool : ∀ (u : State) (a : Nat) (bs : List Byte), Journaled u (u.poolPut a bs) := fun _ _ _ => rfl
  exact (((lost.trans (pool _ _ _)).trans (.journalDram _ _ r)).trans (.put _ _ _)).trans (.journalIrq _)

theorem Journaled.persistEvt (s : State) (r : EvtRec) : Journaled s (s.persistEvt r) := .ite rfl rfl

theorem Journaled.sendFrame (s : State) (p : Nat) (f : Frame) : Journaled s (s.sendFrame p f) := .ite rfl rfl

/-- An event takes the next number, and writes no more than what it journals. -/
theorem Journaled.eventAt (s : State) (t src code p4 p5 p6 p7 : Nat) :
    Journaled (s.withEvtSeq (s.evtSeq + 1)) (s.eventAt t src code p4 p5 p6 p7) := by
  have journaled := Journaled.journal (s.withEvtSeq (s.evtSeq + 1)) (s.evtRec t src code p4 p5 p6 p7)
  refine .ite (.refl _) (Journaled.trans ?_ (.ite (.sendFrame _ _ _) (.refl _)))
  exact journaled.trans (.ite (.persistEvt _ _) (.refl _))

theorem Journaled.bodies {s t : State} (h : Journaled s t) :
    t.acts = s.acts ∧ t.dies = s.dies ∧ t.chans = s.chans ∧ t.evtSeq = s.evtSeq := by
  have e : s.unjournaled t = s := h
  exact ⟨(congrArg State.acts e :), (congrArg State.dies e :), (congrArg State.chans e :), (congrArg State.evtSeq e :)⟩

theorem State.eventAt_evtSeq (s : State) (t src code p4 p5 p6 p7 : Nat) :
    (s.eventAt t src code p4 p5 p6 p7).evtSeq = s.evtSeq + 1 := (Journaled.eventAt s t src code p4 p5 p6 p7).bodies.2.2.2

theorem State.eventAt_bodies (s : State) (t src code p4 p5 p6 p7 : Nat) : SameBodies s (s.eventAt t src code p4 p5 p6 p7) := by
  obtain ⟨hacts, hdies, -, -⟩ := (Journaled.eventAt s t src code p4 p5 p6 p7).bodies
  exact ⟨hacts, hdies⟩

theorem State.event_chans (s : State) (src code p4 p5 p6 p7 : Nat) : (s.event src code p4 p5 p6 p7).chans = s.chans :=
  (Journaled.eventAt s s.time.toNat src code p4 p5 p6 p7).bodies.2.2.1

theorem State.event_evtSeq (s : State) (src code p4 p5 p6 p7 : Nat) : (s.event src code p4 p5 p6 p7).evtSeq = s.evtSeq + 1 :=
  s.eventAt_evtSeq _ _ _ _ _ _ _

/-- The registers of events and interrupts stand below those of acts, channels and rings. -/
theorem evtReg_of_ge {a : Nat} (h : 0x100000 ≤ a) : evtReg a = false :=
  decide_eq_false (by simp only [SYS_IRQ_STATUS.addr, EVT_WR.addr, EVT_LOST.addr, MSIX_PBA.addr]; omega)

/-! ## What triggers change when they see a vector (R234-R238) -/

/-- The acts, the dies and the registers of acts, timing, channels and rings are as before. -/
def AcqOnly (s t : State) : Prop := SameBodies s t ∧ ∀ a, 0x100000 ≤ a → t.reg a = s.reg a

theorem AcqOnly.of_same {s t : State} (ha : t.acts = s.acts) (hd : t.dies = s.dies) (hr : t.regs = s.regs) : AcqOnly s t :=
  ⟨⟨ha, hd⟩, fun _ _ => State.reg_congr hr _⟩

theorem AcqOnly.refl (s : State) : AcqOnly s s := .of_same rfl rfl rfl

theorem AcqOnly.trans {s t u : State} (h : AcqOnly s t) (k : AcqOnly t u) : AcqOnly s u :=
  ⟨h.1.trans k.1, fun a ha => (k.2 a ha).trans (h.2 a ha)⟩

theorem AcqOnly.ite {s t u : State} {p : Prop} [Decidable p] (ht : AcqOnly s t) (hu : AcqOnly s u) :
    AcqOnly s (if p then t else u) := by
  split
  · exact ht
  · exact hu

theorem AcqOnly.each {f : Nat → State → State} :
    ∀ {l : List Nat} (s : State), (∀ n ∈ l, ∀ s, AcqOnly s (f n s)) → AcqOnly s (State.each f l s)
  | [], s, _ => .refl s
  | n :: _, s, h =>
    (h n List.mem_cons_self s).trans (AcqOnly.each (f n s) fun m hm => h m (List.mem_cons_of_mem n hm))

theorem AcqOnly.put (s : State) {f : Field} (v : Nat) (h : f.addr < 0x100000) : AcqOnly s (s.put f v) :=
  ⟨.put s f v, fun _ ha => State.reg_put_ne s v (by omega)⟩

theorem AcqOnly.setPair (s : State) {lo : Nat} (v : Nat) (h : lo + 4 < 0x100000) : AcqOnly s (s.setPair lo v) :=
  ⟨⟨rfl, rfl⟩, fun _ ha => State.reg_setPair_ne s v (by omega) (by omega)⟩

theorem AcqOnly.setTrig (s : State) (k : Nat) (x : TrigSt) : AcqOnly s (s.setTrig k x) := .of_same rfl rfl rfl

theorem AcqOnly.setStream (s : State) (i : Nat) (x : StreamSt) : AcqOnly s (s.setStream i x) := .of_same rfl rfl rfl

theorem AcqOnly.takeFree (s : State) : AcqOnly s s.takeFree := .of_same rfl rfl rfl

theorem AcqOnly.event (s : State) (src code p4 p5 p6 p7 : Nat) : AcqOnly s (s.event src code p4 p5 p6 p7) :=
  ⟨.event s src code p4 p5 p6 p7, fun _ ha => State.event_reg _ _ _ _ _ _ (evtReg_of_ge ha)⟩

/-! ### Streams: marks and windows -/

theorem AcqOnly.streamFill (s : State) {i : Nat} (hi : i < 16) : AcqOnly s (s.streamFill i) :=
  (AcqOnly.put s _ (show 0xC2058 + 0x100 * i < _ by omega)).trans (.put _ _ (show 0xC204C + 0x100 * i < _ by omega))

theorem AcqOnly.loseRec (s : State) {i : Nat} (hi : i < 16) (r : StreamRec) (cause : Nat) : AcqOnly s (s.loseRec i r cause) := by
  have counted : ∀ (x : StreamSt) (v : Nat),
      AcqOnly s (((s.setStream i x).setPair (ACQ_STREAM_LOST_LO.addr i) v).streamFill i) := fun x v =>
    ((AcqOnly.setStream s i x).trans (.setPair _ v (by unfold ACQ_STREAM_LOST_LO.addr; omega))).trans (.streamFill _ hi)
  unfold State.loseRec
  exact .ite ((counted _ _).trans (.event _ _ _ _ _ _ _)) (counted _ _)

theorem AcqOnly.complete (s : State) {i : Nat} (hi : i < 16) (r : StreamRec) : AcqOnly s (s.complete i r) :=
  .ite (.loseRec s hi r 2) (.setStream s i _)

theorem AcqOnly.armWindow (s : State) {i : Nat} (hi : i < 16) (a src : Nat) : AcqOnly s (s.armWindow i a src) :=
  .ite (.put s _ (show 0xC204C + 0x100 * i < _ by omega)) (.setStream s i _)

theorem AcqOnly.trigMarks (s : State) (k t flags act chan cycle : Nat) : AcqOnly s (s.trigMarks k t flags act chan cycle) := by
  refine .each s fun i hi u => .ite ?_ (.refl u)
  have hi : i < 16 := List.mem_range.mp hi
  have marked : AcqOnly u (if bitOf (u.fld (ACQ_STREAM_SRC.TRIG_MASK i)) k then
      u.complete i (markRecord u.time.toNat t flags 1 k act chan cycle) else u) := .ite (.complete u hi _) (.refl u)
  exact marked.trans (.ite (.armWindow _ hi t k) (.refl _))

/-! ### Trigger units -/

theorem AcqOnly.trigReset (s : State) {k : Nat} (hk : k < 16) : AcqOnly s (s.trigReset k) :=
  (AcqOnly.put s _ (show 0xC0004 + 0x100 * k < _ by omega)).trans (.put _ _ (show 0xC0004 + 0x100 * k < _ by omega))

theorem AcqOnly.roundTo (s : State) (num : Int) (den : Nat) : AcqOnly s (s.roundTo num den).2 := by
  unfold State.roundTo
  split
  · exact .refl s
  · exact .takeFree s

theorem AcqOnly.trigTime (s : State) (k c : Nat) (rise : Bool) (tL tH : Option Int) (sample : Int) :
    AcqOnly s (s.trigTime k c rise tL tH sample).2.2 := by
  unfold State.trigTime
  split
  · exact .refl s
  · split
    · exact .refl s
    · exact .refl s
    · exact .refl s
    · dsimp only
      split_ifs
      · exact .roundTo s _ _
      · exact .refl s
      · exact .refl s

theorem AcqOnly.trigFire (s : State) {k : Nat} (hk : k < 16) (j n : Nat) (xs : List (Nat × Nat)) (t : Int) (cyc : Nat) :
    AcqOnly s (s.trigFire k j n xs t cyc) := by
  have chosen : ∀ (u : State) (q : Option Nat),
      AcqOnly u (match q with | some c => (c, u) | none => (u.free.toNat % 1024, u.takeFree)).2 := fun u q => by
    cases q
    · exact .takeFree u
    · exact .refl u
  unfold State.trigFire
  dsimp only
  refine AcqOnly.trans ?_ (.trigMarks _ _ _ _ _ _ _)
  refine AcqOnly.trans ?_ (.ite (.setTrig _ _ _) (.put _ _ (show 0xC0004 + 0x100 * k < _ by omega)))
  refine AcqOnly.trans ?_ (.trigReset _ hk)
  refine AcqOnly.trans ?_ (.setPair _ _ (by unfold ACQ_TRIG_TIME_LO.addr; omega))
  refine AcqOnly.trans ?_ (.put _ _ (show 0xC0004 + 0x100 * k < _ by omega))
  refine AcqOnly.trans ?_ (.put _ _ (show 0xC0030 + 0x100 * k < _ by omega))
  exact (AcqOnly.trigTime s _ _ _ _ _ _).trans (chosen _ _)

theorem AcqOnly.stageLimit (s : State) {k : Nat} (hk : k < 16) (t : Int) : AcqOnly s (s.stageLimit k t) :=
  .ite ((AcqOnly.trigReset s hk).trans (.put _ _ (show 0xC0034 + 0x100 * k < _ by omega))) (.refl s)

theorem AcqOnly.trigSample (s : State) {k : Nat} (hk : k < 16) (n : Nat) (xs : List (Nat × Nat)) (ts : List (Nat × Int))
    (cyc : Nat) : AcqOnly s (s.trigSample k n xs ts cyc) := by
  have status : ∀ (u : State) (f : Field) (v : Nat), f.addr = ACQ_TRIG_STATUS.addr k → AcqOnly u (u.put f v) := fun u f v hf =>
    .put u v (by rw [hf]; unfold ACQ_TRIG_STATUS.addr; omega)
  unfold State.trigSample
  dsimp only
  refine AcqOnly.trans ?_ (.setTrig _ _ _)
  refine (AcqOnly.stageLimit s hk _).trans (.ite (.ite (status _ _ _ rfl) (.ite (.trigFire _ hk _ _ _ _ _) ?_)) (.refl _))
  exact ((status _ _ _ rfl).trans (status _ _ _ rfl)).trans (.setTrig _ _ _)

/-- The samples of a vector change no act, no die and no register of acts, channels and rings. -/
theorem AcqOnly.trigVector (s : State) (n : Nat) (f : Flight) : AcqOnly s (s.trigVector n f) := by
  refine .each s fun k hk u => .ite ?_ (.refl u)
  have hk : k < 16 := List.mem_range.mp hk
  exact .each u fun _ _ w => .ite (.ite (.refl w) (.trigSample w hk _ _ _ _)) (.refl w)

end Sys2Proof.Machine
end

section
/-! PROOF. Return frames (O32). -/

namespace Sys2Proof.Machine

/-! ## What a vector's results depend on -/

theorem State.flag_congr {s t : State} {f : Field} (h : t.reg f.addr = s.reg f.addr) : t.flag f = s.flag f := by
  rw [State.flag, State.flag, State.fld_congr h]

theorem State.timed_congr {s t : State} {n : Nat} (h : t.reg (TMG_MODE.addr n) = s.reg (TMG_MODE.addr n)) : t.timed n = s.timed n :=
  State.flag_congr h

theorem State.edge_congr {s t : State} {c i e : Nat}
    (h : t.reg (PIN_EDGE.addr c (8 * i + e)) = s.reg (PIN_EDGE.addr c (8 * i + e))) : t.edge c i e = s.edge c i e := by
  rw [State.edge, State.edge, State.flag_congr (f := PIN_EDGE.EN c (8 * i + e)) h,
    State.fld_congr (f := PIN_EDGE.TIME c (8 * i + e)) h]

theorem State.strobed_congr {s t : State} {n c : Nat} {v : Vec} (hm : t.reg (TMG_MODE.addr n) = s.reg (TMG_MODE.addr n))
    (he : t.reg (PIN_EDGE.addr c (8 * v.tset + 6)) = s.reg (PIN_EDGE.addr c (8 * v.tset + 6))) :
    t.strobed n c v = s.strobed n c v := by
  rw [State.strobed, State.strobed, State.timed_congr hm, State.edge_congr he]

theorem State.expected_congr {s t : State} {n d : Nat} {p : PinVec} (h : ∀ a, 0x100000 ≤ a → t.reg a = s.reg a) :
    t.expected n p d = s.expected n p d := by
  have hstrobed : ∀ c, t.strobed n c p.vec = s.strobed n c p.vec := fun c =>
    State.strobed_congr (h _ (by unfold TMG_MODE.addr; omega)) (h _ (by unfold PIN_EDGE.addr; omega))
  simp only [State.expected, hstrobed]

theorem State.executing_congr {s t : State} {n : Nat} (h : t.reg (SEQ_STATUS.addr n) = s.reg (SEQ_STATUS.addr n)) :
    t.executing n = s.executing n := by
  rw [State.executing, State.executing, State.actState, State.actState, State.fld_congr (f := SEQ_STATUS.STATE n) h]

theorem State.actOfBlock_congr {s t : State} {b : Nat} (h : ∀ m, t.reg (SEQ_CB_MASK.addr m) = s.reg (SEQ_CB_MASK.addr m)) :
    t.actOfBlock b = s.actOfBlock b := by
  have hmask : ∀ m, t.fld (SEQ_CB_MASK.MASK m) = s.fld (SEQ_CB_MASK.MASK m) := fun m => State.fld_congr (h m)
  simp only [State.actOfBlock, hmask]

theorem State.actBlocks_congr {s t : State} {n : Nat} (h : t.reg (SEQ_CB_MASK.addr n) = s.reg (SEQ_CB_MASK.addr n)) :
    t.actBlocks n = s.actBlocks n := by
  rw [State.actBlocks, State.actBlocks, State.fld_congr (f := SEQ_CB_MASK.MASK n) h]

/-! ## What a return frame brings beside results (R17, R18) -/

/-- The die once a frame has taken what waits there beside results. -/
def DieSt.fieldsTaken (x : DieSt) : DieSt := { x with dchk := false, monv := false, stale := false, evts := x.evts.tail }

/-- A frame's fields: taken from the die, and at most an event. -/
theorem State.frameFields_bodies (s : State) (d : Nat) (ok : Bool) :
    SameBodies (s.setDie d (s.die d).fieldsTaken) (s.frameFields d ok) := by
  unfold State.frameFields
  dsimp only
  cases ok with
  | true =>
    rw [if_pos rfl]
    split
    · exact State.eventAt_bodies _ _ _ _ _ _ _ _
    · exact .refl _
  | false =>
    rw [if_neg Bool.false_ne_true]
    split
    · exact .event _ _ _ _ _ _ _
    · exact (SameBodies.event _ _ _ _ _ _ _).trans ⟨rfl, rfl⟩

theorem State.frameFields_act (s : State) (d : Nat) (ok : Bool) (m : Nat) : (s.frameFields d ok).act m = s.act m :=
  State.act_congr (s.frameFields_bodies d ok).1 m

theorem State.frameFields_die (s : State) (d : Nat) (ok : Bool) : (s.frameFields d ok).die d = (s.die d).fieldsTaken :=
  (State.die_congr (s.frameFields_bodies d ok).2 d).trans (s.setDie_same d _)

theorem State.frameFields_die_ne (s : State) {d b : Nat} (ok : Bool) (h : b ≠ d) : (s.frameFields d ok).die b = s.die b :=
  (State.die_congr (s.frameFields_bodies d ok).2 b).trans (s.setDie_ne _ h)

theorem State.frameFields_reg (s : State) (d : Nat) (ok : Bool) {a : Nat} (h : evtReg a = false) :
    (s.frameFields d ok).reg a = s.reg a := by
  unfold State.frameFields
  dsimp only
  cases ok with
  | true =>
    rw [if_pos rfl]
    split
    · exact State.eventAt_reg _ _ _ _ _ _ _ h
    · rfl
  | false =>
    rw [if_neg Bool.false_ne_true]
    split
    · exact State.event_reg _ _ _ _ _ _ h
    · exact State.event_reg _ _ _ _ _ _ h

theorem State.frameFields_reg_ge (s : State) (d : Nat) (ok : Bool) (a : Nat) (h : 0x100000 ≤ a) :
    (s.frameFields d ok).reg a = s.reg a := s.frameFields_reg d ok (evtReg_of_ge h)

/-- A good frame brings one event that waits, if one does; a bad one is an event. -/
theorem State.frameFields_evtSeq (s : State) (d : Nat) (ok : Bool) :
    (s.frameFields d ok).evtSeq = s.evtSeq + (if ok then BitVec.ofNat 32 (min 1 (s.die d).evts.length) else 1) := by
  unfold State.frameFields
  dsimp only
  cases ok with
  | true =>
    rw [if_pos rfl, if_pos rfl]
    split
    · rename_i h
      rw [State.eventAt_evtSeq, h, List.length_cons, Nat.min_eq_left (by omega)]
      rfl
    · rename_i h
      rw [h]
      exact (BitVec.add_zero _).symm
  | false =>
    rw [if_neg Bool.false_ne_true, if_neg Bool.false_ne_true]
    split
    · exact State.event_evtSeq _ _ _ _ _ _ _
    · exact State.event_evtSeq _ _ _ _ _ _ _

theorem State.frameFields_actOfBlock (s : State) (d : Nat) (ok : Bool) (b : Nat) :
    (s.frameFields d ok).actOfBlock b = s.actOfBlock b :=
  State.actOfBlock_congr fun m => s.frameFields_reg_ge d ok _ (by unfold SEQ_CB_MASK.addr; omega)

theorem State.frameFields_executing (s : State) (d : Nat) (ok : Bool) (n : Nat) :
    (s.frameFields d ok).executing n = s.executing n :=
  State.executing_congr (s.frameFields_reg_ge d ok _ (by unfold SEQ_STATUS.addr; omega))

/-! ## A frame's results joined to their vector's -/

/-- Whether a frame carries the result of a channel and UI. -/
def frameCarries (fr : RetFrame) (k : Nat) : Bool := bitOf fr.chans.toNat (k % 64) && bitOf fr.uis.toNat (k / 1024)

/-- The results of a vector that have not returned yet. -/
def State.leftOf (s : State) (n d : Nat) (p : PinVec) : List (Nat × Nat) :=
  (s.expected n p d).filter (fun x => decide (x.1 ∉ p.sent))

/-- Those of them that a frame carries. -/
def State.dueOf (s : State) (n d : Nat) (p : PinVec) (sel : Nat → Bool) : List (Nat × Nat) :=
  (s.leftOf n d p).filter (fun x => sel x.1)

/-- Whether a frame carries the last of them. -/
def State.wholeOf (s : State) (n d : Nat) (p : PinVec) (sel : Nat → Bool) : Bool :=
  decide ((s.dueOf n d p sel).length = (s.leftOf n d p).length)

/-- A vector in the delay line with a frame's results joined to its own. -/
def Flight.joined (cyc : Nat) (bit : BitVec 16) (due res times : List (Nat × Nat)) (f : Flight) : Flight :=
  if f.vec.cycle = cyc then
    { f with got := f.got ||| bit, exp := tabJoin f.exp due, res := tabJoin f.res res, times := tabJoin f.times times }
  else f

/-- The state before a frame's results pass: they have left the die and joined those of their vector. -/
def State.joined (s : State) (n d : Nat) (p : PinVec) (sel : Nat → Bool) (ok : Bool) : State :=
  let due := s.dueOf n d p sel
  let whole := s.wholeOf n d p sel
  let u := s.setPin d p.vec.cycle (fun q => { q with sent := q.sent ++ due.map Prod.fst, back := whole })
  let u := u.setDie d { u.die d with stale := due.any (fun x => decide (p.lent = some (x.1 % 1024))) }
  u.joinResults n d p due (s.frameResults n p ok due) whole

/-- The bursts that end before a vector which has returned are forgotten (R196). -/
def State.dropDone (n d : Nat) (p : PinVec) (whole : Bool) (s : State) : State :=
  State.each (fun c s => if s.isStrobe c ∧ whole then s.dropBursts c ((p.vec.cycle + 1) * s.uis n) else s) (blockChans d) s

theorem State.returnResults_eq (s : State) (n d : Nat) (p : PinVec) (sel : Nat → Bool) (ok ue : Bool) :
    (s.returnResults n d p sel ok ue).1 = (State.processLine n ((s.joined n d p sel ok).act n).line.length
      (s.joined n d p sel ok, ue)).1.dropDone n d p (s.wholeOf n d p sel) := by
  unfold State.returnResults State.dropDone State.joined State.wholeOf State.dueOf State.leftOf
  rfl

theorem State.joined_die (s : State) (n d : Nat) (p : PinVec) (sel : Nat → Bool) (ok : Bool) :
    (s.joined n d p sel ok).die d = { s.die d with
      pins := (s.die d).pins.map (fun q => if q.vec.cycle = p.vec.cycle then
        { q with sent := q.sent ++ (s.dueOf n d p sel).map Prod.fst, back := s.wholeOf n d p sel } else q)
      stale := (s.dueOf n d p sel).any (fun x => decide (p.lent = some (x.1 % 1024))) } := by
  refine (State.die_congr (t := s.joined n d p sel ok)
    (s := (s.setPin d p.vec.cycle _).setDie d { (s.setPin d p.vec.cycle _).die d with stale := _ }) rfl d).trans ?_
  rw [State.setDie_same, State.setPin, State.setDie_same]

theorem State.joined_die_ne (s : State) {n d b : Nat} (p : PinVec) (sel : Nat → Bool) (ok : Bool) (h : b ≠ d) :
    (s.joined n d p sel ok).die b = s.die b :=
  (State.setDie_ne (s.setPin d p.vec.cycle _) _ h).trans (s.setDie_ne _ h)

theorem State.joined_act (s : State) (n d : Nat) (p : PinVec) (sel : Nat → Bool) (ok : Bool) :
    ∃ times, (s.joined n d p sel ok).act n = { s.act n with
      line := (s.act n).line.map (Flight.joined p.vec.cycle
        (if s.wholeOf n d p sel then BitVec.ofNat 16 (2 ^ d) else 0) (s.dueOf n d p sel)
        (s.frameResults n p ok (s.dueOf n d p sel)) times) } :=
  ⟨_, State.setAct_same _ n _⟩

theorem State.joined_act_ne (s : State) {n m : Nat} (d : Nat) (p : PinVec) (sel : Nat → Bool) (ok : Bool) (h : m ≠ n) :
    (s.joined n d p sel ok).act m = s.act m := State.setAct_ne _ _ h

theorem State.joined_reg (s : State) (n d : Nat) (p : PinVec) (sel : Nat → Bool) (ok : Bool) (a : Nat) :
    (s.joined n d p sel ok).reg a = s.reg a := rfl

theorem State.joined_evtSeq (s : State) (n d : Nat) (p : PinVec) (sel : Nat → Bool) (ok : Bool) :
    (s.joined n d p sel ok).evtSeq = s.evtSeq := rfl

theorem State.joined_frame (s : State) (n d : Nat) (p : PinVec) (sel : Nat → Bool) (ok : Bool) (fd : Followed) :
    (s.joined n d p sel ok).rd fd = s.rd fd := by simp [State.joined]

/-- Bursts forgotten change the channels alone. -/
theorem State.dropDone_eq (n d : Nat) (p : PinVec) (whole : Bool) (s : State) :
    (s.dropDone n d p whole).withChans s.chans = s :=
  State.each_inv (P := fun u => u.withChans s.chans) (fun c u => by
    split
    · unfold State.dropBursts
      dsimp only
      split <;> rfl
    · rfl) _ s

theorem State.dropDone_same (n d : Nat) (p : PinVec) (whole : Bool) (s : State) :
    SameBodies s (s.dropDone n d p whole) ∧ (s.dropDone n d p whole).regs = s.regs ∧
      (s.dropDone n d p whole).evtSeq = s.evtSeq := by
  have e := State.dropDone_eq n d p whole s
  exact ⟨⟨(congrArg State.acts e :), (congrArg State.dies e :)⟩, (congrArg State.regs e :), (congrArg State.evtSeq e :)⟩

theorem State.dropDone_frame (n d : Nat) (p : PinVec) (whole : Bool) (s : State) (fd : Followed) :
    (s.dropDone n d p whole).rd fd = s.rd fd := by simp [State.dropDone]

/-! ## The vectors whose results are complete -/

theorem Flight.joined_vec (cyc : Nat) (bit : BitVec 16) (due res times : List (Nat × Nat)) (f : Flight) :
    (f.joined cyc bit due res times).vec = f.vec := by
  unfold Flight.joined
  split <;> rfl

theorem bitOf_toNat_or (x y : BitVec 16) (b : Nat) : bitOf (x ||| y).toNat b = (bitOf x.toNat b || bitOf y.toNat b) := by
  simp only [bitOf_eq_testBit, BitVec.toNat_or, Nat.testBit_or]

theorem bitOf_ofNat_two_pow {d b : Nat} (hb : b < 16) : bitOf (BitVec.ofNat 16 (2 ^ d)).toNat b = decide (d = b) := by
  rw [bitOf_eq_testBit, BitVec.toNat_ofNat, Nat.testBit_mod_two_pow, Nat.testBit_two_pow, decide_eq_true hb, Bool.true_and]

/-- The blocks that have returned a vector once block `d` has returned its last results. -/
theorem Flight.bitOf_got_joined {cyc d b : Nat} {whole : Bool} (due res times : List (Nat × Nat)) {f : Flight}
    (hf : f.vec.cycle = cyc) (hb : b < 16) :
    bitOf (f.joined cyc (if whole then BitVec.ofNat 16 (2 ^ d) else 0) due res times).got.toNat b =
      (bitOf f.got.toNat b || (whole && decide (d = b))) := by
  unfold Flight.joined
  rw [if_pos hf, bitOf_toNat_or]
  cases whole with
  | true => rw [if_pos rfl, bitOf_ofNat_two_pow hb, Bool.true_and]
  | false =>
    rw [if_neg Bool.false_ne_true]
    rw [show (0 : BitVec 16).toNat = 0 from rfl, bitOf_eq_testBit 0, Nat.zero_testBit, Bool.false_and]

/-- While the oldest vector waits for a block, nothing passes. -/
theorem State.processLine_of_waiting {s : State} {n : Nat} {f : Flight} {fs : List Flight} {ue : Bool}
    (hl : (s.act n).line = f :: fs) (hg : s.allGot n f = false) : ∀ k, State.processLine n k (s, ue) = (s, ue)
  | 0 => rfl
  | k + 1 => by
    unfold State.processLine
    rw [hl]
    exact if_neg (by rw [hg]; exact Bool.false_ne_true)

/-- A vector that compares nothing passes the triggers alone. -/
theorem State.processLine_of_plain {s : State} {n : Nat} {f : Flight} {ue : Bool} (hl : (s.act n).line = [f])
    (hg : s.allGot n f = true) (ht : f.vec.trial = none) (hc : captCmp f.vec.capt = false) :
    State.processLine n 1 (s, ue) = ((s.setAct n { s.act n with line := [] }).trigVector n f, ue) := by
  have hp : ∀ u : State, u.processVec n f ue = (u.trigVector n f, ue) := fun u => by
    simp only [State.processVec, ht, hc, Bool.false_eq_true, if_false, if_true]
  unfold State.processLine
  rw [hl]
  dsimp only
  rw [if_pos hg, hp]
  rfl

/-! ## The frames of a block -/

/-- A frame for the oldest vector with results to return. -/
theorem exec_returnFrame_of_vector {d : Die} {fr : RetFrame} {n : Nat} {p : PinVec} {s : State} (hs : s.inService = true)
    (hx : s.executing n = true) (ha : s.actOfBlock d = some n) (hp : (s.die d).pins.find? (fun q => !q.back) = some p) :
    exec (.returnFrame d fr .clean) s =
      .next ((s.frameFields d fr.ok).returnResults n d p (frameCarries fr) fr.ok false).1 := by
  have hp' : ((s.frameFields d fr.ok).die d).pins.find? (fun q => !q.back) = some p := by
    rw [s.frameFields_die]; exact hp
  rw [exec_returnFrame, execReturnFrame, if_neg (by simp [hs])]
  dsimp only
  rw [s.frameFields_actOfBlock, ha, hp']
  dsimp only
  rw [s.frameFields_executing, hx]
  rfl

/-- A frame that waits for other blocks' results of its vector. -/
theorem exec_returnFrame_of_waiting {d : Die} {fr : RetFrame} {n : Nat} {p : PinVec} {f : Flight} {fs : List Flight} {s : State}
    (hs : s.inService = true) (hx : s.executing n = true) (ha : s.actOfBlock d = some n)
    (hp : (s.die d).pins.find? (fun q => !q.back) = some p) (hl : (s.act n).line = f :: fs) (hf : f.vec.cycle = p.vec.cycle)
    (hw : ∃ b ∈ s.actBlocks n, b ≠ d.val ∧ bitOf f.got.toNat b = false) :
    exec (.returnFrame d fr .clean) s = .next (((s.frameFields d fr.ok).joined n d p (frameCarries fr) fr.ok).dropDone n d p
      ((s.frameFields d fr.ok).wholeOf n d p (frameCarries fr))) := by
  rw [exec_returnFrame_of_vector hs hx ha hp]
  have hblocks : (s.frameFields d fr.ok).actBlocks n = s.actBlocks n :=
    State.actBlocks_congr (s.frameFields_reg_ge d fr.ok _ (by unfold SEQ_CB_MASK.addr; omega))
  have hline : ((s.frameFields d fr.ok).act n).line = f :: fs := by rw [s.frameFields_act, hl]
  generalize s.frameFields d fr.ok = u at *
  obtain ⟨times, hact⟩ := u.joined_act n d p (frameCarries fr) fr.ok
  have hwaits : (u.joined n d p (frameCarries fr) fr.ok).allGot n (f.joined p.vec.cycle
      (if u.wholeOf n d p (frameCarries fr) then BitVec.ofNat 16 (2 ^ d.val) else 0) (u.dueOf n d p (frameCarries fr))
      (u.frameResults n p fr.ok (u.dueOf n d p (frameCarries fr))) times) = false := by
    obtain ⟨b, hb, hne, hgot⟩ := hw
    rw [← hblocks] at hb
    have hlt : b < 16 := by have := mem_bitList hb; omega
    refine List.all_eq_false.mpr ⟨b, hb, ?_⟩
    rw [Flight.bitOf_got_joined _ _ _ hf hlt, hgot, decide_eq_false (fun e => hne e.symm)]
    simp
  rw [State.returnResults_eq, State.processLine_of_waiting (by rw [hact, hline, List.map_cons]) hwaits]

/-- What such a frame leaves as it was, and what it takes from the die. -/
theorem State.joined_dropDone_rest (s : State) (n d : Nat) (p : PinVec) (sel : Nat → Bool) (ok : Bool) {t : State}
    (ht : t = ((s.frameFields d ok).joined n d p sel ok).dropDone n d p ((s.frameFields d ok).wholeOf n d p sel)) :
    (t.die d).dchk = false ∧ (t.die d).evts = (s.die d).evts.tail ∧ t.evtSeq = (s.frameFields d ok).evtSeq ∧
      (∀ b, b ≠ d → t.die b = s.die b) ∧ (∀ m, m ≠ n → t.act m = s.act m) ∧ Steady s t ∧ RegsButEvents [] s t := by
  obtain ⟨⟨hacts, hdies⟩, hregs, hseq⟩ := State.dropDone_same n d p ((s.frameFields d ok).wholeOf n d p sel)
    ((s.frameFields d ok).joined n d p sel ok)
  rw [← ht] at hacts hdies hregs hseq
  have hdie : t.die d = ((s.frameFields d ok).joined n d p sel ok).die d := State.die_congr hdies d
  rw [State.joined_die, State.frameFields_die] at hdie
  refine ⟨by rw [hdie]; rfl, by rw [hdie]; rfl, by rw [hseq, State.joined_evtSeq], fun b hb => ?_, fun m hm => ?_,
    steady_of_frame fun fd hd => ?_, fun a _ he => ?_⟩
  · rw [State.die_congr hdies, State.joined_die_ne _ _ _ _ hb, s.frameFields_die_ne ok hb]
  · rw [State.act_congr hacts, State.joined_act_ne _ _ _ _ _ hm, s.frameFields_act]
  · rw [ht, State.dropDone_frame, State.joined_frame, State.frameFields_frame _ _ _ _ hd]
  · rw [State.reg_congr hregs, State.joined_reg, s.frameFields_reg d ok he]

/-! ## Results that are lost, results that are the last -/

/-- Entries joined to a table that are all of a kind, one of them at a key: what the table holds there is of that kind. -/
theorem get_tabJoin {P : Nat → Prop} {k : Nat} : ∀ {es : List (Nat × Nat)} {t : Tab Nat}, (∀ e ∈ es, P e.2) →
    (k ∈ es.map Prod.fst ∨ P (Tab.get (fun _ => 0) t k)) → P (Tab.get (fun _ => 0) (tabJoin t es) k)
  | [], _, _, h => h.resolve_left (by simp)
  | (j, v) :: es, t, hP, h => by
    refine get_tabJoin (es := es) (t := Tab.set (fun _ => 0) t j v) (fun e he => hP e (List.mem_cons_of_mem _ he)) ?_
    by_cases hk : k = j
    · subst hk
      exact .inr (by rw [Tab.get_set_same]; exact hP _ List.mem_cons_self)
    · rw [Tab.get_set_ne _ _ hk]
      rw [List.map_cons, List.mem_cons] at h
      exact h.imp_left fun h => h.resolve_left hk

/-- The results of a frame whose CRC fails say that they are lost. -/
theorem State.frameResults_lost (s : State) (n : Nat) (p : PinVec) (due : List (Nat × Nat)) :
    ∀ e ∈ s.frameResults n p false due, bitOf e.2 5 = true := by
  intro e he
  obtain ⟨x, -, rfl⟩ := List.mem_map.mp he
  dsimp only
  rw [if_pos rfl]
  split <;> decide

theorem State.frameResults_keys (s : State) (n : Nat) (p : PinVec) (ok : Bool) (due : List (Nat × Nat)) :
    (s.frameResults n p ok due).map Prod.fst = due.map Prod.fst := by
  unfold State.frameResults
  rw [List.map_map]
  rfl

theorem State.dueOf_frameFields (s : State) (n d : Nat) (ok : Bool) (p : PinVec) (sel : Nat → Bool) :
    (s.frameFields d ok).dueOf n d p sel = s.dueOf n d p sel := by
  unfold State.dueOf State.leftOf
  rw [State.expected_congr (s.frameFields_reg_ge d ok)]

/-- A frame that carries what has not returned carries the last results. -/
theorem State.wholeOf_of_all {s : State} {n d : Nat} {p : PinVec} {fr : RetFrame} (ok : Bool)
    (h : ∀ x ∈ s.expected n p d, x.1 ∈ p.sent ∨ bitOf fr.chans.toNat (x.1 % 64) = true ∧ bitOf fr.uis.toNat (x.1 / 1024) = true) :
    (s.frameFields d ok).wholeOf n d p (frameCarries fr) = true := by
  unfold State.wholeOf State.dueOf State.leftOf
  rw [State.expected_congr (s.frameFields_reg_ge d ok), List.filter_eq_self.mpr fun x hx => ?_]
  · exact decide_eq_true rfl
  · obtain ⟨hx, hsent⟩ := List.mem_filter.mp hx
    obtain ⟨hc, hu⟩ := (h x hx).resolve_left (of_decide_eq_true hsent)
    rw [frameCarries, hc, hu]
    rfl

/-- A vector that has returned whole has returned, with the vectors at the pins as they were. -/
theorem State.joined_pins {s : State} {n d : Nat} {p : PinVec} {sel : Nat → Bool} (ok : Bool) (h : s.wholeOf n d p sel = true) :
    (∀ q ∈ ((s.joined n d p sel ok).die d).pins, q.vec.cycle = p.vec.cycle → q.back = true) ∧
      ((s.joined n d p sel ok).die d).pins.map (·.vec) = (s.die d).pins.map (·.vec) := by
  rw [s.joined_die]
  dsimp only
  constructor
  · intro q hq hc
    obtain ⟨r, -, rfl⟩ := List.mem_map.mp hq
    split
    · exact h
    · rename_i hr
      rw [if_neg hr] at hc
      exact absurd hc hr
  · rw [List.map_map]
    refine List.map_congr_left fun q _ => ?_
    rw [Function.comp_apply]
    split <;> rfl

/-! ## Frames without results -/

/-- A frame for a block without a vector that waits for results, or whose act does not run, brings no results. -/
theorem exec_returnFrame_of_no_vector {d : Die} {fr : RetFrame} {e : Ecc} {s : State} (hs : s.inService = true)
    (h : (∀ p ∈ (s.die d).pins, p.back = true) ∨ s.actOfBlock d = none ∨
      ∃ n, s.actOfBlock d = some n ∧ s.executing n = false) :
    exec (.returnFrame d fr e) s = .next (s.frameFields d fr.ok) := by
  rw [exec_returnFrame, execReturnFrame, if_neg (by simp [hs])]
  dsimp only
  rw [s.frameFields_actOfBlock, s.frameFields_die]
  rcases h with h | h | ⟨n, hn, hx⟩
  · rw [show (s.die d).fieldsTaken.pins.find? (fun p => !p.back) = none from
      List.find?_eq_none.mpr fun p hp => by simp [h p hp]]
    cases s.actOfBlock d <;> rfl
  · rw [h]
  · rw [hn]
    split
    · rename_i m p hm _
      rw [← Option.some.inj hm, s.frameFields_executing, if_pos hx]
    · rfl

/-- A frame that brings no results. -/
theorem State.frameFields_rest (s : State) (d : Nat) (ok : Bool) :
    ((s.frameFields d ok).die d).pins = (s.die d).pins ∧ ((s.frameFields d ok).die d).dchk = false ∧
      ((s.frameFields d ok).die d).evts = (s.die d).evts.tail ∧ Steady s (s.frameFields d ok) ∧
      RegsButEvents [] s (s.frameFields d ok) := by
  rw [s.frameFields_die]
  exact ⟨rfl, rfl, rfl, steady_of_frame fun fd hd => State.frameFields_frame _ _ _ _ hd, fun a _ he => s.frameFields_reg d ok he⟩

theorem State.frameFields_of_no_events {s : State} {d : Nat} (h : (s.die d).evts = []) :
    (s.frameFields d true).withDies s.dies = s := by
  unfold State.frameFields
  dsimp only
  rw [if_pos rfl, h]
  rfl

/-! ## Frames with a vector's results -/

/-- The last results of a vector that waits for other blocks join those of the vector. -/
theorem returnFrame_of_waiting {d : Die} {fr : RetFrame} {n : Nat} {p : PinVec} {f : Flight} {fs : List Flight} {s : State}
    (hs : s.inService = true) (hx : s.executing n = true) (ha : s.actOfBlock d = some n)
    (hp : (s.die d).pins.find? (fun q => !q.back) = some p) (hl : (s.act n).line = f :: fs) (hf : f.vec.cycle = p.vec.cycle)
    (hw : ∃ b ∈ s.actBlocks n, b ≠ d.val ∧ bitOf f.got.toNat b = false) (hok : fr.ok = true)
    (hall : ∀ x ∈ s.expected n p d,
      x.1 ∈ p.sent ∨ bitOf fr.chans.toNat (x.1 % 64) = true ∧ bitOf fr.uis.toNat (x.1 / 1024) = true) :
    ∃ t, exec (.returnFrame d fr .clean) s = .next t ∧
      (∀ q ∈ (t.die d).pins, q.vec.cycle = p.vec.cycle → q.back = true) ∧
      (t.die d).pins.map (·.vec) = (s.die d).pins.map (·.vec) ∧ (t.act n).line.map (·.vec) = (s.act n).line.map (·.vec) ∧
      ((t.act n).line.head?.map (fun g => bitOf g.got.toNat d)) = some true ∧
      (t.die d).dchk = false ∧ (t.die d).evts = (s.die d).evts.tail ∧ t.evtSeq = s.evtSeq + min 1 (s.die d).evts.length ∧
      (∀ b, b ≠ d.val → t.die b = s.die b) ∧ (∀ m, m ≠ n → t.act m = s.act m) ∧ Steady s t ∧ RegsButEvents [] s t := by
  refine ⟨_, exec_returnFrame_of_waiting hs hx ha hp hl hf hw, ?_⟩
  obtain ⟨hdchk, hevts, hseq, hdies, hacts, hsteady, hregs⟩ := s.joined_dropDone_rest n d p (frameCarries fr) fr.ok rfl
  have hwhole := State.wholeOf_of_all fr.ok hall
  obtain ⟨hback, hvecs⟩ := State.joined_pins fr.ok hwhole
  obtain ⟨⟨hta, htd⟩, -, -⟩ := State.dropDone_same n d p ((s.frameFields d fr.ok).wholeOf n d p (frameCarries fr))
    ((s.frameFields d fr.ok).joined n d p (frameCarries fr) fr.ok)
  obtain ⟨times, hact⟩ := (s.frameFields d fr.ok).joined_act n d p (frameCarries fr) fr.ok
  have hev : (s.frameFields d fr.ok).evtSeq = s.evtSeq + min 1 (s.die d).evts.length := by
    rw [s.frameFields_evtSeq, hok, if_pos rfl]
    rfl
  rw [s.frameFields_die] at hvecs
  rw [s.frameFields_act, hl, List.map_cons] at hact
  rw [State.die_congr htd, State.act_congr hta, hact]
  refine ⟨hback, hvecs, ?_, ?_, ?_, ?_, hseq.trans hev, hdies, hacts, hsteady, hregs⟩
  · rw [hl, List.map_cons, List.map_cons, Flight.joined_vec, List.map_map]
    refine congrArg _ (List.map_congr_left fun g _ => ?_)
    exact Flight.joined_vec _ _ _ _ _ _
  · rw [List.head?_cons, Option.map_some, Flight.bitOf_got_joined _ _ _ hf d.isLt, hwhole, decide_eq_true rfl]
    simp
  · rw [← State.die_congr htd, hdchk]
  · rw [← State.die_congr htd, hevts]

/-- The last results of the act's only vector, which compares nothing, let it pass. -/
theorem returnFrame_of_last_plain {d : Die} {fr : RetFrame} {n : Nat} {p : PinVec} {f : Flight} {s : State}
    (hs : s.inService = true) (hx : s.executing n = true) (ha : s.actOfBlock d = some n)
    (hp : (s.die d).pins.find? (fun q => !q.back) = some p) (hl : (s.act n).line = [f]) (hf : f.vec.cycle = p.vec.cycle)
    (hw : ∀ b ∈ s.actBlocks n, b ≠ d.val → bitOf f.got.toNat b = true) (ht : f.vec.trial = none)
    (hc : captCmp f.vec.capt = false)
    (hall : ∀ x ∈ s.expected n p d,
      x.1 ∈ p.sent ∨ bitOf fr.chans.toNat (x.1 % 64) = true ∧ bitOf fr.uis.toNat (x.1 / 1024) = true) :
    ∃ t, exec (.returnFrame d fr .clean) s = .next t ∧
      (∀ q ∈ (t.die d).pins, q.vec.cycle = p.vec.cycle → q.back = true) ∧ (t.act n).line = [] ∧
      (∀ g, t.pair (FAIL_COUNT_LO.addr g) = s.pair (FAIL_COUNT_LO.addr g)) ∧ Steady s t := by
  refine ⟨_, exec_returnFrame_of_vector hs hx ha hp, ?_⟩
  have hwhole := State.wholeOf_of_all fr.ok hall
  have hblocks : (s.frameFields d fr.ok).actBlocks n = s.actBlocks n :=
    State.actBlocks_congr (s.frameFields_reg_ge d fr.ok _ (by unfold SEQ_CB_MASK.addr; omega))
  have hline : ((s.frameFields d fr.ok).act n).line = [f] := by rw [s.frameFields_act, hl]
  have hregs := s.frameFields_reg_ge d fr.ok
  have hfd : ∀ fd : Followed, fd ≠ .dram → (s.frameFields d fr.ok).rd fd = s.rd fd := fun fd h => State.frameFields_frame _ _ _ _ h
  generalize s.frameFields d fr.ok = u at *
  obtain ⟨hback, -⟩ := State.joined_pins fr.ok hwhole
  obtain ⟨times, hact⟩ := u.joined_act n d p (frameCarries fr) fr.ok
  have hlinej : ((u.joined n d p (frameCarries fr) fr.ok).act n).line = [f.joined p.vec.cycle
      (if u.wholeOf n d p (frameCarries fr) then BitVec.ofNat 16 (2 ^ d.val) else 0) (u.dueOf n d p (frameCarries fr))
      (u.frameResults n p fr.ok (u.dueOf n d p (frameCarries fr))) times] := by
    rw [hact, hline]
    rfl
  have hregj : ∀ a, (u.joined n d p (frameCarries fr) fr.ok).reg a = u.reg a := u.joined_reg n d p (frameCarries fr) fr.ok
  have hfdj : ∀ fd, (u.joined n d p (frameCarries fr) fr.ok).rd fd = u.rd fd := u.joined_frame n d p (frameCarries fr) fr.ok
  rw [State.returnResults_eq, hlinej]
  generalize u.joined n d p (frameCarries fr) fr.ok = w at *
  have hgot : w.allGot n (f.joined p.vec.cycle
      (if u.wholeOf n d p (frameCarries fr) then BitVec.ofNat 16 (2 ^ d.val) else 0) (u.dueOf n d p (frameCarries fr))
      (u.frameResults n p fr.ok (u.dueOf n d p (frameCarries fr))) times) = true := by
    refine List.all_eq_true.mpr fun b hb => ?_
    rw [State.actBlocks_congr (hregj _), hblocks] at hb
    have hlt : b < 16 := by have := mem_bitList hb; omega
    rw [Flight.bitOf_got_joined _ _ _ hf hlt, hwhole, Bool.true_and]
    by_cases e : d.val = b
    · rw [decide_eq_true e, Bool.or_true]
    · rw [hw b hb (Ne.symm e), Bool.true_or]
  rw [List.length_singleton, State.processLine_of_plain hlinej hgot (by rw [Flight.joined_vec, ht])
    (by rw [Flight.joined_vec, hc])]
  dsimp only
  generalize f.joined _ _ _ _ _ = g at *
  obtain ⟨⟨hta, htd⟩, htr⟩ := AcqOnly.trigVector (w.setAct n { w.act n with line := [] }) n g
  have hfdt : ∀ fd : Followed, fd ≠ .dram → ((w.setAct n { w.act n with line := [] }).trigVector n g).rd fd = w.rd fd :=
    fun fd h => (State.trigVector_frame _ _ _ _ h).trans (State.setAct_frame _ _ _ _)
  generalize (w.setAct n { w.act n with line := [] }).trigVector n g = v at *
  obtain ⟨⟨hda, hdd⟩, hdr, -⟩ := State.dropDone_same n d p (u.wholeOf n d p (frameCarries fr)) v
  have hreg : ∀ a, 0x100000 ≤ a → (v.dropDone n d p (u.wholeOf n d p (frameCarries fr))).reg a = s.reg a := fun a h =>
    (State.reg_congr hdr a).trans ((htr a h).trans ((hregj a).trans (hregs a h)))
  refine ⟨?_, ?_, fun k => ?_, steady_of_frame fun fd h => ?_⟩
  · rw [State.die_congr (hdd.trans htd)]
    exact hback
  · rw [State.act_congr (hda.trans hta), State.setAct_same]
  · rw [State.pair, hreg _ (by unfold FAIL_COUNT_LO.addr; omega), hreg _ (by unfold FAIL_COUNT_LO.addr; omega), State.pair]
  · rw [State.dropDone_frame, hfdt fd h, hfdj, hfd fd h]

/-- A frame whose CRC fails loses the results it carried, which is an event. -/
theorem returnFrame_of_bad {d : Die} {fr : RetFrame} {n : Nat} {p : PinVec} {f : Flight} {fs : List Flight} {s : State}
    (hs : s.inService = true) (hx : s.executing n = true) (ha : s.actOfBlock d = some n)
    (hp : (s.die d).pins.find? (fun q => !q.back) = some p) (hl : (s.act n).line = f :: fs) (hf : f.vec.cycle = p.vec.cycle)
    (hw : ∃ b ∈ s.actBlocks n, b ≠ d.val ∧ bitOf f.got.toNat b = false) (hok : fr.ok = false) :
    ∃ t, exec (.returnFrame d fr .clean) s = .next t ∧ t.evtSeq = s.evtSeq + 1 ∧ (t.die d).evts = (s.die d).evts.tail ∧
      (∀ g, (t.act n).line.head? = some g → ∀ x ∈ s.expected n p d, x.1 ∉ p.sent →
        bitOf fr.chans.toNat (x.1 % 64) = true → bitOf fr.uis.toNat (x.1 / 1024) = true →
        bitOf (Tab.get (fun _ => 0) g.res x.1) 5 = true) ∧ Steady s t ∧ RegsButEvents [] s t := by
  refine ⟨_, exec_returnFrame_of_waiting hs hx ha hp hl hf hw, ?_⟩
  obtain ⟨-, hevts, hseq, -, -, hsteady, hregs⟩ := s.joined_dropDone_rest n d p (frameCarries fr) fr.ok rfl
  obtain ⟨⟨hta, -⟩, -, -⟩ := State.dropDone_same n d p ((s.frameFields d fr.ok).wholeOf n d p (frameCarries fr))
    ((s.frameFields d fr.ok).joined n d p (frameCarries fr) fr.ok)
  obtain ⟨times, hact⟩ := (s.frameFields d fr.ok).joined_act n d p (frameCarries fr) fr.ok
  rw [s.frameFields_evtSeq, hok, if_neg Bool.false_ne_true] at hseq
  rw [s.frameFields_act, hl, List.map_cons, s.dueOf_frameFields] at hact
  refine ⟨by rw [hok, hseq], hevts, fun g hg x hxe hsent hch hui => ?_, hsteady, hregs⟩
  rw [State.act_congr hta, hact, List.head?_cons] at hg
  rw [← Option.some.inj hg, Flight.joined, if_pos hf]
  refine get_tabJoin (P := fun v => bitOf v 5 = true) (by rw [hok]; exact State.frameResults_lost _ n p _) (.inl ?_)
  rw [State.frameResults_keys]
  refine List.mem_map.mpr ⟨x, List.mem_filter.mpr ⟨List.mem_filter.mpr ⟨hxe, decide_eq_true hsent⟩, ?_⟩, rfl⟩
  rw [frameCarries, hch, hui]
  rfl

/-- Settles O32: a frame's fields come first, then the results it carries of the oldest vector with results to return join
those of that vector, and the delay line moves only where no block is waited for. -/
theorem returnFramesComplete : Obligations.ReturnFramesComplete := by
  unfold Obligations.ReturnFramesComplete
  refine ⟨fun d fr n p f fs s hs hx ha hp hl hf hw hok hall => returnFrame_of_waiting hs hx ha hp hl hf hw hok hall,
    fun d fr n p f s hs hx ha hp hl hf hw ht hc _ hall => returnFrame_of_last_plain hs hx ha hp hl hf hw ht hc hall,
    fun d fr n p f fs s hs hx ha hp hl hf hw hok => returnFrame_of_bad hs hx ha hp hl hf hw hok,
    fun d fr e s hs h hok => ?_, fun d fr e s hs h hok => ?_, fun d fr e s hs => ?_⟩
  · obtain ⟨hpins, hdchk, hevts, hsteady, hregs⟩ := s.frameFields_rest d fr.ok
    refine ⟨_, exec_returnFrame_of_no_vector hs h, hpins, hdchk, hevts, ?_, fun hev => ?_, hsteady, hregs⟩
    · rw [s.frameFields_evtSeq, hok, if_pos rfl]
      rfl
    · rw [hok]
      exact State.frameFields_of_no_events hev
  · obtain ⟨hpins, hdchk, hevts, hsteady, hregs⟩ := s.frameFields_rest d fr.ok
    refine ⟨_, exec_returnFrame_of_no_vector hs (.inr h), hpins, hdchk, hevts, ?_, (s.frameFields_bodies d fr.ok).1, hsteady, hregs⟩
    rw [s.frameFields_evtSeq, hok, if_neg Bool.false_ne_true]
  · rw [exec_returnFrame, execReturnFrame, if_pos hs]

end Sys2Proof.Machine
end

section
/-! PROOF. Forward frames (O30). -/

namespace Sys2Proof.Machine

/-! ## What the codes of a vector depend on (R14, R145, R160) -/

/-- The registers of acts and timing, and the codings of the channels, are as before. -/
def SameCoding (s t : State) : Prop :=
  (∀ a, 0x100000 ≤ a → a < 0x400000 → t.reg a = s.reg a) ∧ ∀ c, t.reg (PIN_CFG.addr c) = s.reg (PIN_CFG.addr c)

theorem SameCoding.of_regs {s t : State} (h : t.regs = s.regs) : SameCoding s t :=
  ⟨fun a _ _ => State.reg_congr h a, fun _ => State.reg_congr h _⟩

theorem SameCoding.trans {s t u : State} (h : SameCoding s t) (k : SameCoding t u) : SameCoding s u :=
  ⟨fun a ha hb => (k.1 a ha hb).trans (h.1 a ha hb), fun c => (k.2 c).trans (h.2 c)⟩

section
variable {s t : State} {n : Nat} (h : SameCoding s t) (hn : n < 16)
include h

theorem SameCoding.enc (c : Nat) : t.flag (PIN_CFG.ENC c) = s.flag (PIN_CFG.ENC c) := State.flag_congr (h.2 c)

include hn

theorem SameCoding.timed : t.timed n = s.timed n :=
  State.timed_congr (h.1 _ (by unfold TMG_MODE.addr; omega) (by unfold TMG_MODE.addr; omega))

theorem SameCoding.uis : t.uis n = s.uis n := by
  rw [State.uis, State.uis, h.timed hn, State.fld_congr (f := TMG_MODE.K n)
    (h.1 (TMG_MODE.addr n) (by unfold TMG_MODE.addr; omega) (by unfold TMG_MODE.addr; omega))]

theorem SameCoding.actBlocks : t.actBlocks n = s.actBlocks n :=
  State.actBlocks_congr (h.1 _ (by unfold SEQ_CB_MASK.addr; omega) (by unfold SEQ_CB_MASK.addr; omega))

theorem SameCoding.sliceBytes (b : Nat) : t.sliceBytes n b = s.sliceBytes n b := by
  simp only [State.sliceBytes, h.enc, h.uis hn]

theorem SameCoding.sliceAt (d : Nat) : t.sliceAt n d = s.sliceAt n d := by
  have hbytes : t.sliceBytes n = s.sliceBytes n := funext fun b => h.sliceBytes hn b
  rw [State.sliceAt, State.sliceAt, h.actBlocks hn, hbytes]

theorem SameCoding.chanAt (c : Nat) : t.chanAt n c = s.chanAt n c := by
  simp only [State.chanAt, State.symBits, h.enc, h.uis hn]

theorem SameCoding.sliceOf (hd : t.dram = s.dram) (d : Nat) (v : Vec) : t.sliceOf n d v = s.sliceOf n d v := by
  have hbytes : ∀ a k, t.dramBytes a k = s.dramBytes a k := fun a k => by
    rw [State.dramBytes, State.dramBytes, hd]
  unfold State.sliceOf
  rw [h.sliceAt hn, h.sliceBytes hn]
  cases v.src with
  | block a => exact congrArg leNat (hbytes _ _)
  | none => rfl
  | apg a data topo => rfl

theorem SameCoding.chanPos (c : Nat) : t.chanPos n c = s.chanPos n c := by
  simp only [State.chanPos, State.actChans, h.actBlocks hn]

theorem SameCoding.apgCode {p : Nat} (hp : p ≤ 0x10000) (a data : Nat) (topo : Bool) (u : Nat) :
    t.apgCode n p a data topo u = s.apgCode n p a data topo u := by
  have hsrc : t.pinSrc n p = s.pinSrc n p := by
    rw [State.pinSrc, State.pinSrc, h.1 _ (by unfold APG_PINSRC.addr; omega) (by unfold APG_PINSRC.addr; omega)]
  have hstride : t.fld (APG_CFG.STRIDE n) = s.fld (APG_CFG.STRIDE n) :=
    State.fld_congr (h.1 (APG_CFG.addr n) (by unfold APG_CFG.addr; omega) (by unfold APG_CFG.addr; omega))
  rw [State.apgCode, State.apgCode, hsrc, hstride]

end

theorem bitList_length_le (v : Nat) : ∀ n i, (bitList v n i).length ≤ n
  | 0, _ => Nat.le_refl 0
  | n + 1, i => by
    have := bitList_length_le v n (i + 1)
    rw [bitList]
    split
    · rw [List.length_cons]
      omega
    · omega

theorem length_flatMap_blockChans : ∀ l : List Nat, (l.flatMap blockChans).length = 64 * l.length
  | [] => rfl
  | b :: l => by
    have hb : (blockChans b).length = 64 := by rw [blockChans, List.length_map, List.length_range]
    rw [List.flatMap_cons, List.length_append, length_flatMap_blockChans l, hb, List.length_cons]
    omega

/-- An act has at most 1024 channels. -/
theorem State.chanPos_le (s : State) (n c : Nat) : s.chanPos n c ≤ 0x10000 := by
  have hblocks : (s.actBlocks n).length ≤ 16 := bitList_length_le _ _ _
  have hchans : (s.actChans n).length = 64 * (s.actBlocks n).length := length_flatMap_blockChans _
  have := List.idxOf_le_length (a := c) (l := s.actChans n)
  unfold State.chanPos
  omega

/-- The codes of a vector at a channel. -/
theorem SameCoding.codes {s t : State} {n c : Nat} (h : SameCoding s t) (hn : n < 16)
    (hc : (t.chan c).codes = (s.chan c).codes) (slice : Nat) (v : Vec) : t.codes n c slice v = s.codes n c slice v := by
  have hcode : ∀ u, t.symCode n c slice v u = s.symCode n c slice v u := fun u => by
    unfold State.symCode
    cases v.src with
    | none => dsimp only; rw [hc]
    | apg a data topo => dsimp only; rw [h.chanPos hn]; exact h.apgCode hn (s.chanPos_le n c) a data topo u
    | block a => dsimp only; rw [h.enc, h.chanAt hn]
  rw [State.codes, State.codes, h.uis hn]
  exact List.map_congr_left fun u _ => hcode u

/-! ## What the symbols and the settings of a vector at one channel depend on -/

/-- What reaches a channel with a vector: its last symbol, PIN_HYST and PIN_HOLDOFF in force; the bank stays (R102, R122). -/
def Received (n slice : Nat) (v : Vec) (c : Nat) (s : State) (x : ChanSt) : Prop :=
  x.lastSym = (executed (s.dir c v.tset) (s.strobed n c v) (s.chan c).lastSym (s.codes n c slice v)).getLast? ∧
    x.hyst = (s.reg (PIN_HYST.addr c)).toNat ∧ x.hold = (s.reg (PIN_HOLDOFF.addr c)).toNat ∧ x.active = (s.chan c).active

/-- The registers and the channel that a channel's symbols depend on are as before: all registers from its own on, with those
of its act. -/
theorem Received.congr {n slice c : Nat} {v : Vec} {s t : State} {x : ChanSt} (hn : n < 16) (h : SameCoding s t)
    (hr : ∀ a, 0x400100 + 0x1000 * c ≤ a → t.reg a = s.reg a) (hc : t.chan c = s.chan c) (hx : Received n slice v c t x) :
    Received n slice v c s x := by
  have hdir : t.dir c v.tset = s.dir c v.tset := by
    rw [State.dir, State.dir, hr _ (by unfold PIN_TS_FMT.addr; omega)]
  have hstrobed : t.strobed n c v = s.strobed n c v :=
    State.strobed_congr (h.1 _ (by unfold TMG_MODE.addr; omega) (by unfold TMG_MODE.addr; omega))
      (hr _ (by unfold PIN_EDGE.addr; omega))
  unfold Received at hx
  rw [hdir, hstrobed, hc, h.codes hn (congrArg _ hc), hr _ (by unfold PIN_HYST.addr; omega),
    hr _ (by unfold PIN_HOLDOFF.addr; omega)] at hx
  exact hx

/-! ## A vector at one channel (R122) -/

theorem State.chan_congr {s t : State} (h : t.chans = s.chans) (c : Nat) : t.chan c = s.chan c := by
  rw [State.chan, State.chan, h]

/-- What a vector changes at a channel: that channel, PIN_STATUS there, and what events write. -/
def ChanOnly (c : Nat) (s t : State) : Prop :=
  SameBodies s t ∧ (∀ x, x ≠ c → t.chan x = s.chan x) ∧
    ∀ a, evtReg a = false → a ≠ PIN_STATUS.addr c → t.reg a = s.reg a

theorem ChanOnly.refl (c : Nat) (s : State) : ChanOnly c s s := ⟨.refl s, fun _ _ => rfl, fun _ _ _ => rfl⟩

theorem ChanOnly.trans {c : Nat} {s t u : State} (h : ChanOnly c s t) (k : ChanOnly c t u) : ChanOnly c s u :=
  ⟨h.1.trans k.1, fun x hx => (k.2.1 x hx).trans (h.2.1 x hx), fun a he ha => (k.2.2 a he ha).trans (h.2.2 a he ha)⟩

theorem ChanOnly.setChan (c : Nat) (s : State) (x : ChanSt) : ChanOnly c s (s.setChan c x) :=
  ⟨⟨rfl, rfl⟩, fun _ hx => s.setChan_ne x hx, fun _ _ _ => rfl⟩

theorem ChanOnly.put (c : Nat) (s : State) {f : Field} (v : Nat) (h : f.addr = PIN_STATUS.addr c) : ChanOnly c s (s.put f v) :=
  ⟨.put s f v, fun _ _ => rfl, fun _ _ ha => State.reg_put_ne s v (by rw [h]; exact ha)⟩

theorem ChanOnly.event (c : Nat) (s : State) (src code p4 p5 p6 p7 : Nat) : ChanOnly c s (s.event src code p4 p5 p6 p7) :=
  ⟨.event s src code p4 p5 p6 p7, fun _ _ => State.chan_congr (s.event_chans src code p4 p5 p6 p7) _,
    fun _ he _ => State.event_reg _ _ _ _ _ _ he⟩

theorem ChanOnly.each {c : Nat} {f : Nat → State → State} (h : ∀ k s, ChanOnly c s (f k s)) :
    ∀ (l : List Nat) (s : State), ChanOnly c s (State.each f l s)
  | [], s => .refl c s
  | k :: l, s => (h k s).trans (ChanOnly.each h l (f k s))

/-! ### Strobes (R195) -/

/-- A channel without what it keeps of a strobe's bursts. -/
def ChanSt.unstrobed (x : ChanSt) : ChanSt := { x with preRun := 0, bursts := [] }

theorem ChanOnly.strobeSym (s : State) (c ui t sym : Nat) : ChanOnly c s (s.strobeSym c ui t sym) := by
  unfold State.strobeSym
  dsimp only
  split
  · exact .setChan c s _
  · exact .setChan c s _

theorem ChanOnly.strobeVector (s : State) (n c : Nat) (v : Vec) (ys : List Nat) : ChanOnly c s (s.strobeVector n c v ys) :=
  .each (fun _ _ => .strobeSym _ _ _ _ _) _ s

/-- The symbols of a strobe change only what it keeps of its bursts. -/
theorem State.strobeVector_unstrobed (s : State) (n c : Nat) (v : Vec) (ys : List Nat) :
    ((s.strobeVector n c v ys).chan c).unstrobed = (s.chan c).unstrobed :=
  State.each_inv (P := fun u => (u.chan c).unstrobed) (fun _ u => by
    unfold State.strobeSym
    dsimp only
    split
    · rw [State.setChan_same]
      rfl
    · rw [State.setChan_same]
      rfl) _ s

/-! ### Reserved symbols (R122) -/

theorem ChanOnly.symReserved (s : State) (n c : Nat) (ks : List SymCode) : ChanOnly c s (s.symReserved n c ks) := by
  unfold State.symReserved
  dsimp only
  split
  · exact (ChanOnly.setChan c s _).trans (.event c _ _ _ _ _ _ _)
  · exact .refl c s

theorem State.symReserved_active (s : State) (n c : Nat) (ks : List SymCode) :
    ((s.symReserved n c ks).chan c).active = (s.chan c).active := by
  unfold State.symReserved
  dsimp only
  split
  · refine (congrArg ChanSt.active (State.chan_congr (State.event_chans _ _ _ _ _ _ _) c)).trans ?_
    rw [State.setChan_same]
  · rfl

/-- A strobe's bursts last of all. -/
theorem State.strobeVector_ite (s : State) (n c : Nat) (v : Vec) (ys : List Nat) :
    ChanOnly c s (if s.isStrobe c then s.strobeVector n c v ys else s) ∧
      ((if s.isStrobe c then s.strobeVector n c v ys else s).chan c).unstrobed = (s.chan c).unstrobed := by
  split
  · exact ⟨.strobeVector s n c v ys, s.strobeVector_unstrobed n c v ys⟩
  · exact ⟨.refl c s, rfl⟩

/-- A vector without a reserved code at a channel. -/
theorem State.chanVector_of_codes {s : State} {n slice c : Nat} {v : Vec} (h : SymCode.reserved ∉ s.codes n c slice v) :
    ChanOnly c s (s.chanVector n slice v c) ∧ Received n slice v c s ((s.chanVector n slice v c).chan c) := by
  have hsym := ChanOnly.symReserved s n c (s.codes n c slice v)
  have hactive := s.symReserved_active n c (s.codes n c slice v)
  unfold State.chanVector
  dsimp only
  rw [if_neg h]
  generalize s.symReserved n c (s.codes n c slice v) = u at *
  generalize hx : ({ u.chan c with
    lastSym := _, symDrive := _, codes := _, rejoin := _, hyst := _, hold := _ } : ChanSt) = x
  generalize hlevel : (if (u.setChan c x).flag (PIN_CFG.LVL_STATIC c) then 0 else v.lset) = level
  obtain ⟨hlast, hun⟩ := State.strobeVector_ite ((u.setChan c x).put (PIN_STATUS.LSET_NOW c) level) n c v
    (executed (s.dir c v.tset) (s.strobed n c v) (s.chan c).lastSym (s.codes n c slice v))
  have hchan : ((u.setChan c x).put (PIN_STATUS.LSET_NOW c) level).chan c = x := State.setChan_same u c x
  rw [hchan] at hun
  have hreg : ∀ a, 0x400100 + 0x1000 * c ≤ a → u.reg a = s.reg a := fun a ha =>
    hsym.2.2 a (evtReg_of_ge (by omega)) (by unfold PIN_STATUS.addr; omega)
  refine ⟨hsym.trans ((ChanOnly.setChan c u x).trans ((ChanOnly.put c _ level rfl).trans hlast)),
    (congrArg ChanSt.lastSym hun :).trans ?_, (congrArg ChanSt.hyst hun :).trans ?_, (congrArg ChanSt.hold hun :).trans ?_,
    (congrArg ChanSt.active hun :).trans ?_⟩
  · rw [← hx]
    rfl
  · rw [← hx, ← hreg _ (by unfold PIN_HYST.addr; omega)]
    rfl
  · rw [← hx, ← hreg _ (by unfold PIN_HOLDOFF.addr; omega)]
    rfl
  · rw [← hactive, ← hx]
    rfl

/-- What a vector at one channel leaves of the codings. -/
theorem ChanOnly.coding {c : Nat} {s t : State} (h : ChanOnly c s t) : SameCoding s t :=
  ⟨fun a ha hb => h.2.2 a (evtReg_of_ge ha) (by unfold PIN_STATUS.addr; omega),
    fun x => h.2.2 _ (evtReg_of_ge (by unfold PIN_CFG.addr; omega)) (by unfold PIN_CFG.addr PIN_STATUS.addr; omega)⟩

/-- A vector at channels in ascending order: one channel's PIN_STATUS is none of the registers that those after it read. -/
theorem State.each_chanVector {n slice : Nat} {v : Vec} (hn : n < 16) : ∀ {l : List Nat} {s : State}, l.Pairwise (· < ·) →
    (∀ c ∈ l, SymCode.reserved ∉ s.codes n c slice v) →
    SameBodies s (State.each (State.chanVector n slice v) l s) ∧
      (∀ x, x ∉ l → (State.each (State.chanVector n slice v) l s).chan x = s.chan x) ∧
      (∀ a, evtReg a = false → (∀ c ∈ l, a ≠ PIN_STATUS.addr c) →
        (State.each (State.chanVector n slice v) l s).reg a = s.reg a) ∧
      ∀ c ∈ l, Received n slice v c s ((State.each (State.chanVector n slice v) l s).chan c)
  | [], s, _, _ => ⟨.refl s, fun _ _ => rfl, fun _ _ _ => rfl, fun _ h => absurd h (by simp)⟩
  | c :: l, s, hl, h => by
    obtain ⟨hlt, hl⟩ := List.pairwise_cons.mp hl
    have hc : c ∉ l := fun hc => Nat.lt_irrefl c (hlt c hc)
    obtain ⟨honly, hown⟩ := State.chanVector_of_codes (h c List.mem_cons_self)
    have hcoding := honly.coding
    obtain ⟨hbodies, hothers, hregs⟩ := honly
    have hlater : ∀ x ∈ l, (State.chanVector n slice v c s).chan x = s.chan x := fun x hx =>
      hothers x (Nat.ne_of_gt (hlt x hx))
    have hcodes : ∀ x ∈ l, SymCode.reserved ∉ (State.chanVector n slice v c s).codes n x slice v := fun x hx => by
      rw [hcoding.codes hn (congrArg _ (hlater x hx))]
      exact h x (List.mem_cons_of_mem c hx)
    obtain ⟨ihbodies, ihothers, ihregs, ihown⟩ := State.each_chanVector hn hl hcodes
    rw [State.each]
    refine ⟨hbodies.trans ihbodies, fun x hx => ?_, fun a he ha => ?_, fun x hx => ?_⟩
    · rw [List.mem_cons, not_or] at hx
      exact (ihothers x hx.2).trans (hothers x hx.1)
    · exact (ihregs a he fun x hx => ha x (List.mem_cons_of_mem c hx)).trans (hregs a he (ha c List.mem_cons_self))
    · rcases List.mem_cons.mp hx with rfl | hx
      · rw [ihothers x hc]
        exact hown
      · have := hlt x hx
        refine Received.congr hn hcoding (fun a ha => ?_) (hlater x hx) (ihown x hx)
        exact hregs a (evtReg_of_ge (by omega)) (by unfold PIN_STATUS.addr; omega)

theorem pairwise_blockChans (d : Nat) : (blockChans d).Pairwise (· < ·) :=
  List.pairwise_map.mpr (List.pairwise_lt_range.imp fun h => by omega)

/-! ## A frame's vector at a block -/

/-- The vector that a frame begins has left those on their way (R13). -/
def State.arrived (s : State) (d : Nat) (v : Vec) (vs : List Vec) : State :=
  (s.at_ (v.time + s.fwdDepth)).setDie d { s.die d with fwd := vs }

/-- A vector behind the park line, or lost: without symbols at the pins (R22). -/
def parkedVec (v : Vec) : PinVec := { vec := v, syms := [], prev := [] }

/-- A vector with its symbols at the pins of a block. -/
def State.brought (s : State) (n d : Nat) (v : Vec) : State :=
  let pr := s.lend n d v (s.blockSyms n d (s.sliceOf n d v) v)
  let pv : PinVec :=
    { vec := v, syms := s.blockSyms n d (s.sliceOf n d v) v, prev := (blockChans d).map (fun c => (pr.2.chan c).symDrive)
      banks := (blockChans d).map pr.2.bankOf, lent := pr.1 }
  State.each (State.chanVector n (s.sliceOf n d v) v) (blockChans d) (pr.2.addPin d pv)

section
variable {d : Die} {n : Nat} {v : Vec} {vs : List Vec} {s : State} (hs : s.inService = true) (hf : (s.die d).fwd = v :: vs)
  (ha : s.actOfBlock d = some n)
include hs hf ha

/-- A frame whose CRC fails and begins a vector. -/
theorem exec_forwardFrame_of_bad :
    exec (.forwardFrame d ⟨true, false⟩) s = .next (((s.arrived d v vs).addPin d (parkedVec v)).abortAct 0x12 n) := by
  rw [exec_forwardFrame, execForwardFrame, ha]
  dsimp only
  rw [if_neg (by simp [hs]), if_neg (by simp), hf]
  dsimp only
  rw [if_pos rfl]
  rfl

/-- A frame that arrives: with CAPT.APPLY the block's eligible banks switch first. -/
theorem exec_forwardFrame_of_good {u : State}
    (hu : (if captApply v.capt then (s.arrived d v vs).switchBanks (blockChans d) else s.arrived d v vs) = u) :
    exec (.forwardFrame d ⟨true, true⟩) s =
      .next (if u.parkLine n then u.addPin d (parkedVec v) else u.brought n d v) := by
  rw [exec_forwardFrame, execForwardFrame, ha]
  dsimp only
  rw [if_neg (by simp [hs]), if_neg (by simp), hf]
  unfold State.arrived at hu
  dsimp only at hu ⊢
  rw [if_neg (by simp), hu]
  split <;> rfl

end

/-- A vector borrowed for a pass takes a free choice at most (R263). -/
theorem State.lend_eq (s : State) (n d : Nat) (v : Vec) (syms : List (List Nat)) :
    ∃ k, (s.lend n d v syms).2 = s.withFreeCtr k := by
  unfold State.lend
  split
  · split
    · exact ⟨_, rfl⟩
    · exact ⟨s.freeCtr, rfl⟩
  · exact ⟨s.freeCtr, rfl⟩

theorem State.addPin_die (s : State) (d : Nat) (p : PinVec) :
    ((s.addPin d p).die d).fwd = (s.die d).fwd ∧ ((s.addPin d p).die d).pins.getLast? = some p := by
  rw [State.addPin, State.setDie_same]
  exact ⟨rfl, List.getLast?_concat⟩

theorem State.addPin_die_ne (s : State) {d b : Nat} (p : PinVec) (h : b ≠ d) : (s.addPin d p).die b = s.die b :=
  s.setDie_ne _ h

/-- Time and the die's list of vectors are all that changes when a vector leaves those on their way. -/
theorem State.arrived_eq (s : State) (d : Nat) (v : Vec) (vs : List Vec) :
    ∃ tm, s.arrived d v vs = (s.withTime tm).setDie d { s.die d with fwd := vs } := by
  unfold State.arrived State.at_
  split
  · exact ⟨_, rfl⟩
  · exact ⟨s.time, rfl⟩

/-- A vector that reaches the pins with its symbols. -/
structure Brought (n d : Nat) (v : Vec) (s t : State) : Prop where
  fwd : (t.die d).fwd = (s.die d).fwd
  pin : ∃ p, (t.die d).pins.getLast? = some p ∧ p.vec = v ∧ p.syms = s.blockSyms n d (s.sliceOf n d v) v ∧
    p.banks = (blockChans d).map s.bankOf
  dies : ∀ b, b ≠ d → t.die b = s.die b
  chans : ∀ c, c / 64 ≠ d → t.chan c = s.chan c
  regs : ∀ a, evtReg a = false → (∀ c, a ≠ PIN_STATUS.addr c) → t.reg a = s.reg a
  received : ∀ c ∈ blockChans d, Received n (s.sliceOf n d v) v c s (t.chan c)

theorem State.brought_spec {s : State} {n d : Nat} {v : Vec} (hn : n < 16)
    (h : ∀ c ∈ blockChans d, SymCode.reserved ∉ s.codes n c (s.sliceOf n d v) v) : Brought n d v s (s.brought n d v) := by
  unfold State.brought
  dsimp only
  obtain ⟨k, hk⟩ := s.lend_eq n d v (s.blockSyms n d (s.sliceOf n d v) v)
  rw [hk]
  generalize hp : ({ vec := v, syms := _, prev := _, banks := _, lent := _ } : PinVec) = p
  have hchans : ((s.withFreeCtr k).addPin d p).chans = s.chans := rfl
  have hregs : ((s.withFreeCtr k).addPin d p).regs = s.regs := rfl
  have hcoding : SameCoding s ((s.withFreeCtr k).addPin d p) := .of_regs hregs
  have hcodes : ∀ c ∈ blockChans d, SymCode.reserved ∉ ((s.withFreeCtr k).addPin d p).codes n c (s.sliceOf n d v) v :=
    fun c hc => by
      rw [hcoding.codes hn (congrArg _ (State.chan_congr hchans c))]
      exact h c hc
  obtain ⟨⟨-, hdies⟩, hothers, hreg, hown⟩ := State.each_chanVector hn (pairwise_blockChans d) hcodes
  obtain ⟨hfwd, hpins⟩ := (s.withFreeCtr k).addPin_die d p
  refine ⟨?_, ⟨p, ?_, ?_⟩, fun b hb => ?_, fun c hc => ?_, fun a he ha => ?_, fun c hc => ?_⟩
  · rw [State.die_congr hdies, hfwd]
    rfl
  · rw [State.die_congr hdies, hpins]
  · rw [← hp]
    exact ⟨rfl, rfl, rfl⟩
  · exact (State.die_congr hdies b).trans (State.addPin_die_ne _ p hb)
  · exact (hothers c fun hm => hc (mem_blockChans hm)).trans (State.chan_congr hchans c)
  · exact (hreg a he fun c _ => ha c).trans (State.reg_congr hregs a)
  · exact (hown c hc).congr hn hcoding (fun a _ => State.reg_congr hregs a) (State.chan_congr hchans c)

/-- A vector that has left those on their way changes nothing that its symbols come from. -/
theorem State.arrived_same (s : State) (d : Nat) (v : Vec) (vs : List Vec) :
    (s.arrived d v vs).regs = s.regs ∧ (s.arrived d v vs).chans = s.chans ∧ (s.arrived d v vs).acts = s.acts ∧
      (s.arrived d v vs).dram = s.dram ∧ ((s.arrived d v vs).die d).fwd = vs ∧
      ∀ b, b ≠ d → (s.arrived d v vs).die b = s.die b := by
  obtain ⟨tm, h⟩ := s.arrived_eq d v vs
  rw [h]
  refine ⟨rfl, rfl, rfl, rfl, ?_, fun b hb => ?_⟩
  · rw [State.setDie_same]
  · exact State.setDie_ne _ _ hb

theorem State.parkLine_congr {s t : State} {n : Nat} (hr : t.reg (SEQ_STATUS.addr n) = s.reg (SEQ_STATUS.addr n))
    (ha : t.acts = s.acts) : t.parkLine n = s.parkLine n := by
  rw [State.parkLine, State.parkLine, State.act_congr ha, State.actState, State.actState,
    State.fld_congr (f := SEQ_STATUS.STATE n) hr]

theorem State.bankOf_congr {s t : State} {c : Nat} (h : (t.chan c).active = (s.chan c).active) : t.bankOf c = s.bankOf c := by
  rw [State.bankOf, State.bankOf, h]

/-- A vector's symbols at a block. -/
theorem State.blockSyms_congr {s t : State} {n d slice : Nat} {v : Vec} (hr : t.regs = s.regs) (hc : t.chans = s.chans) (hn : n < 16) :
    t.blockSyms n d slice v = s.blockSyms n d slice v := by
  refine List.map_congr_left fun c _ => ?_
  rw [State.dir, State.dir, State.reg_congr hr, State.strobed_congr (State.reg_congr hr _) (State.reg_congr hr _),
    (SameCoding.of_regs hr).codes hn (congrArg _ (State.chan_congr hc c)), State.chan_congr hc]

/-! ## The banks that a vector with CAPT.APPLY switches (R22) -/

theorem State.tdcSwitched_same (s : State) (c : Nat) :
    (s.tdcSwitched c).dies = s.dies ∧ (s.tdcSwitched c).chans = s.chans ∧ (s.tdcSwitched c).regs = s.regs := by
  unfold State.tdcSwitched
  exact ⟨rfl, rfl, rfl⟩

/-- The registers that a switch of a channel's bank stores. -/
def bankRegs (c : Nat) : List Nat :=
  [PIN_TDC_CFG.addr c, PIN_QUALITY_STAT.addr c, PIN_QUALITY_AGE_LO.addr c, PIN_QUALITY_AGE_LO.addr c + 4, CAL_STATUS.addr]

theorem not_mem_bankRegs {a c : Nat} : a ∉ bankRegs c ↔ a ≠ 0x400300 + 0x1000 * c ∧ a ≠ 0x400718 + 0x1000 * c ∧
    a ≠ 0x400710 + 0x1000 * c ∧ a ≠ 0x400714 + 0x1000 * c ∧ a ≠ 0xA0004 := by
  simp only [bankRegs, PIN_TDC_CFG.addr, PIN_QUALITY_STAT.addr, PIN_QUALITY_AGE_LO.addr, CAL_STATUS.addr, List.mem_cons,
    List.not_mem_nil, or_false, not_or]
  omega

/-- What a switch of a channel's bank stores there. -/
def State.bankStored (s : State) (c : Nat) (k : Coef) : State :=
  let s := (s.putB (PIN_TDC_CFG.BT_CAL_H c) k.btH).putB (PIN_TDC_CFG.BT_CAL_L c) k.btL
  let s := (s.put (PIN_QUALITY_STAT.ELIGIBLE c) 0).setPair (PIN_QUALITY_AGE_LO.addr c) s.time.toNat
  s.put CAL_STATUS.PENDING (s.fld CAL_STATUS.PENDING - 1)

theorem Journaled.setPair (s : State) (lo v : Nat) : Journaled s (s.setPair lo v) := rfl

theorem Journaled.bankStored (s : State) (c : Nat) (k : Coef) : Journaled s (s.bankStored c k) :=
  ((((Journaled.put s _ _).trans (.put _ _ _)).trans (.put _ _ _)).trans (.setPair _ _ _)).trans (.put _ _ _)

theorem State.bankStored_reg (s : State) {c a : Nat} (k : Coef) (h : a ∉ bankRegs c) : (s.bankStored c k).reg a = s.reg a := by
  simp only [bankRegs, List.mem_cons, List.not_mem_nil, or_false, not_or] at h
  obtain ⟨ht, hq, hl, hh, hc⟩ := h
  unfold State.bankStored
  dsimp only
  rw [State.reg_put_ne _ _ hc, State.reg_setPair_ne _ _ hl hh, State.reg_put_ne _ _ hq, State.putB, State.reg_put_ne _ _ ht,
    State.putB, State.reg_put_ne _ _ ht]

theorem State.bankStored_eligible (s : State) (c : Nat) (k : Coef) :
    (s.bankStored c k).flag (PIN_QUALITY_STAT.ELIGIBLE c) = false := by
  unfold State.bankStored
  dsimp only
  have hage : PIN_QUALITY_STAT.addr c ≠ PIN_QUALITY_AGE_LO.addr c ∧ PIN_QUALITY_STAT.addr c ≠ PIN_QUALITY_AGE_LO.addr c + 4 ∧
      PIN_QUALITY_STAT.addr c ≠ CAL_STATUS.addr := by
    unfold PIN_QUALITY_STAT.addr PIN_QUALITY_AGE_LO.addr CAL_STATUS.addr
    omega
  rw [State.flag_congr (f := PIN_QUALITY_STAT.ELIGIBLE c) (State.reg_put_ne (f := CAL_STATUS.PENDING) _ _ hage.2.2),
    State.flag_congr (f := PIN_QUALITY_STAT.ELIGIBLE c) (State.reg_setPair_ne _ _ hage.1 hage.2.1)]
  exact State.flag_put_zero _ _ (by simp [PIN_QUALITY_STAT.ELIGIBLE])

/-- A switch stores the registers, and beside them changes the channel, its TDCs and the calibration's clock alone. -/
theorem State.switchBank_of_eligible {c : Nat} {s t : State} (h : s.flag (PIN_QUALITY_STAT.ELIGIBLE c) = true)
    (ht : (s.setChan c { s.chan c with active := (s.chan c).staged, staged := {} }).bankStored c (s.chan c).staged = t) :
    (State.switchBank c s).dies = t.dies ∧ (State.switchBank c s).chans = t.chans ∧ (State.switchBank c s).regs = t.regs := by
  unfold State.bankStored at ht
  unfold State.switchBank
  rw [if_pos h]
  dsimp only at ht ⊢
  rw [ht]
  split
  · exact State.tdcSwitched_same _ c
  · exact State.tdcSwitched_same _ c

/-- What a switch of one channel's bank leaves alone. -/
theorem State.switchBank_rest (c : Nat) (s : State) :
    (State.switchBank c s).dies = s.dies ∧ (∀ x, x ≠ c → (State.switchBank c s).chan x = s.chan x) ∧
      ((State.switchBank c s).chan c).codes = (s.chan c).codes ∧
      ∀ a, a ∉ bankRegs c → (State.switchBank c s).reg a = s.reg a := by
  cases h : s.flag (PIN_QUALITY_STAT.ELIGIBLE c) with
  | false =>
    rw [State.switchBank, if_neg (by rw [h]; exact Bool.false_ne_true)]
    exact ⟨rfl, fun _ _ => rfl, rfl, fun _ _ => rfl⟩
  | true =>
    obtain ⟨hdies, hchans, hregs⟩ := State.switchBank_of_eligible h rfl
    obtain ⟨-, hbd, hbc, -⟩ := (Journaled.bankStored (s.setChan c { s.chan c with active := (s.chan c).staged, staged := {} })
      c (s.chan c).staged).bodies
    have hchan := State.chan_congr (hchans.trans hbc)
    refine ⟨hdies.trans hbd, fun x hx => ?_, ?_, fun a ha => ?_⟩
    · rw [hchan, State.setChan_ne _ _ hx]
    · rw [hchan, State.setChan_same]
    · rw [State.reg_congr hregs, State.bankStored_reg _ _ ha]
      rfl

/-- A channel's bank, the one staged, and whether it is eligible. -/
def State.bankState (c : Nat) (s : State) : Coef × Coef × Bool :=
  ((s.chan c).active, (s.chan c).staged, s.flag (PIN_QUALITY_STAT.ELIGIBLE c))

theorem State.bankState_switchBank (c : Nat) (s : State) : State.bankState c (State.switchBank c s) =
    if (State.bankState c s).2.2 then ((State.bankState c s).2.1, {}, false) else State.bankState c s := by
  cases h : s.flag (PIN_QUALITY_STAT.ELIGIBLE c) with
  | false =>
    rw [State.switchBank, if_neg (by rw [h]; exact Bool.false_ne_true)]
    exact (if_neg (by rw [State.bankState, h]; exact Bool.false_ne_true)).symm
  | true =>
    obtain ⟨-, hchans, hregs⟩ := State.switchBank_of_eligible h rfl
    obtain ⟨-, -, hbc, -⟩ := (Journaled.bankStored (s.setChan c { s.chan c with active := (s.chan c).staged, staged := {} })
      c (s.chan c).staged).bodies
    rw [if_pos (show (State.bankState c s).2.2 = true from h), State.bankState, State.chan_congr (hchans.trans hbc),
      State.setChan_same, State.flag_congr (State.reg_congr hregs _), State.bankStored_eligible]
    rfl

theorem State.bankState_switchBank_ne {c x : Nat} (s : State) (h : x ≠ c) :
    State.bankState x (State.switchBank c s) = State.bankState x s := by
  obtain ⟨-, hchan, -, hreg⟩ := State.switchBank_rest c s
  have hflag : (State.switchBank c s).flag (PIN_QUALITY_STAT.ELIGIBLE x) = s.flag (PIN_QUALITY_STAT.ELIGIBLE x) :=
    State.flag_congr (hreg (PIN_QUALITY_STAT.addr x) (not_mem_bankRegs.mpr (by unfold PIN_QUALITY_STAT.addr; omega)))
  rw [State.bankState, hchan x h, hflag, State.bankState]

/-- Eligible banks of the channels of a list become active. -/
theorem State.switchBanks_active {cs : List Nat} {c : Nat} {s : State} (hcs : cs.Nodup) (hc : c ∈ cs)
    (h : s.flag (PIN_QUALITY_STAT.ELIGIBLE c) = true) :
    ((s.switchBanks cs).chan c).active = (s.chan c).staged ∧ (s.switchBanks cs).flag (PIN_QUALITY_STAT.ELIGIBLE c) = false := by
  have heach := State.each_own (P := State.bankState) (G := fun _ x => if x.2.2 then (x.2.1, {}, false) else x)
    State.bankState_switchBank (fun _ _ s h => State.bankState_switchBank_ne s h) hcs s c
  rw [if_pos hc, if_pos (show (State.bankState c s).2.2 = true from h)] at heach
  exact ⟨congrArg Prod.fst heach, congrArg (·.2.2) heach⟩

/-- What the switches of the channels of a list leave alone. -/
theorem State.switchBanks_rest (s : State) (cs : List Nat) :
    (s.switchBanks cs).dies = s.dies ∧ (∀ x, x ∉ cs → (s.switchBanks cs).chan x = s.chan x) ∧
      (∀ x, ((s.switchBanks cs).chan x).codes = (s.chan x).codes) ∧ SameCoding s (s.switchBanks cs) := by
  have hreg : ∀ a, (∀ c, a ∉ bankRegs c) → (s.switchBanks cs).reg a = s.reg a := fun a ha =>
    State.each_inv (P := fun u => u.reg a) (fun c u => by
      obtain ⟨-, -, -, hreg⟩ := State.switchBank_rest c u
      exact hreg a (ha c)) cs s
  refine ⟨State.each_inv (P := State.dies) (fun c u => (State.switchBank_rest c u).1) cs s,
    fun x hx => State.each_inv_mem (P := fun u => u.chan x) s fun c hc u => (State.switchBank_rest c u).2.1 x ?_,
    fun x => State.each_inv (P := fun u => (u.chan x).codes) (fun c u => ?_) cs s, fun a ha hb => ?_, fun x => ?_⟩
  · rintro rfl
    exact hx hc
  · obtain ⟨-, hchan, hcodes, -⟩ := State.switchBank_rest c u
    by_cases hx : x = c
    · rw [hx, hcodes]
    · rw [hchan x hx]
  · exact hreg a fun c => not_mem_bankRegs.mpr (by omega)
  · exact hreg _ fun c => not_mem_bankRegs.mpr (by unfold PIN_CFG.addr; omega)

/-! ## Frames that arrive -/

theorem State.addPin_reg (s : State) (d : Nat) (p : PinVec) (a : Nat) : (s.addPin d p).reg a = s.reg a := rfl

theorem State.addPin_act (s : State) (d : Nat) (p : PinVec) (n : Nat) : (s.addPin d p).act n = s.act n := rfl

theorem State.addPin_actState (s : State) (d : Nat) (p : PinVec) (n : Nat) : (s.addPin d p).actState n = s.actState n :=
  State.fld_congr (s.addPin_reg d p _)

theorem State.addPin_chan (s : State) (d : Nat) (p : PinVec) (c : Nat) : (s.addPin d p).chan c = s.chan c := rfl

theorem dram_of_frame {s t : State} (h : ∀ fd : Followed, t.rd fd = s.rd fd) : t.dram = s.dram := h .dram

/-- A forward frame keeps the mode, and everything that only the system's own commands change. -/
theorem forwardFrame_still {d : Die} {f : FwdFrame} {s t : State} (h : exec (.forwardFrame d f) s = .next t) :
    t.mode = s.mode ∧ Still s t :=
  ⟨execForwardFrame_frame d f s t h .mode (by decide) (by decide),
    still_of_frame fun fd hd _ ht _ => execForwardFrame_frame d f s t h fd ht hd⟩

section
variable {d : Die} {n : Nat} {v : Vec} {vs : List Vec} {s : State} (hs : s.inService = true) (hf : (s.die d).fwd = v :: vs)
  (ha : s.actOfBlock d = some n)
include hs hf ha

/-- A vector in front of the park line. -/
theorem forwardFrame_of_running (happly : captApply v.capt = false) (hpark : s.parkLine n = false)
    (hcodes : ∀ c ∈ blockChans d, SymCode.reserved ∉ s.codes n c (s.sliceOf n d v) v) :
    ∃ t p, exec (.forwardFrame d ⟨true, true⟩) s = .next t ∧ (t.die d).fwd = vs ∧ (t.die d).pins.getLast? = some p ∧
      p.vec = v ∧ p.syms = s.blockSyms n d (s.sliceOf n d v) v ∧ p.banks = (blockChans d).map s.bankOf ∧
      (∀ c ∈ blockChans d, (t.chan c).lastSym = (executed (s.dir c v.tset) (s.strobed n c v) (s.chan c).lastSym
          (s.codes n c (s.sliceOf n d v) v)).getLast? ∧
        (t.chan c).hyst = (s.reg (PIN_HYST.addr c)).toNat ∧ (t.chan c).hold = (s.reg (PIN_HOLDOFF.addr c)).toNat) ∧
      (∀ b, b ≠ d.val → t.die b = s.die b) ∧ (∀ c, c / 64 ≠ d.val → t.chan c = s.chan c) ∧
      t.mode = s.mode ∧ Still s t := by
  have hn : n < 16 := State.actOfBlock_lt ha
  obtain ⟨hregs, hchans, hacts, hdram, hfwd, hdies⟩ := s.arrived_same d v vs
  have hexec := exec_forwardFrame_of_good hs hf ha (if_neg (by rw [happly]; exact Bool.false_ne_true))
  have hline : (s.arrived d v vs).parkLine n = false := (State.parkLine_congr (State.reg_congr hregs _) hacts).trans hpark
  have hcoding := SameCoding.of_regs hregs
  have hslice : (s.arrived d v vs).sliceOf n d v = s.sliceOf n d v := hcoding.sliceOf hn hdram d v
  rw [hline, if_neg Bool.false_ne_true] at hexec
  obtain ⟨hbfwd, ⟨p, hp, hvec, hsyms, hbanks⟩, hbdies, hbchans, -, hreceived⟩ := State.brought_spec (s := s.arrived d v vs)
    (d := d) (v := v) hn fun c hc => by
      rw [hslice, hcoding.codes hn (congrArg _ (State.chan_congr hchans c))]
      exact hcodes c hc
  obtain ⟨hmode, hstill⟩ := forwardFrame_still hexec
  refine ⟨_, p, hexec, hbfwd.trans hfwd, hp, hvec, ?_, ?_, fun c hc => ?_, fun b hb => (hbdies b hb).trans (hdies b hb),
    fun c hc => (hbchans c hc).trans (State.chan_congr hchans c), hmode, hstill⟩
  · rw [hsyms, hslice, State.blockSyms_congr hregs hchans hn]
  · rw [hbanks]
    exact List.map_congr_left fun c _ => State.bankOf_congr (congrArg _ (State.chan_congr hchans c))
  · have hrec := (hreceived c hc).congr hn hcoding (fun a _ => State.reg_congr hregs a) (State.chan_congr hchans c)
    rw [hslice] at hrec
    obtain ⟨hlast, hhyst, hhold, -⟩ := hrec
    exact ⟨hlast, hhyst, hhold⟩

/-- A vector with CAPT.APPLY. -/
theorem forwardFrame_of_apply (happly : captApply v.capt = true)
    (hcodes : ∀ c ∈ blockChans d, SymCode.reserved ∉ s.codes n c (s.sliceOf n d v) v) :
    ∃ t, exec (.forwardFrame d ⟨true, true⟩) s = .next t ∧ (t.die d).fwd = vs ∧
      (∀ c : Chan, c.val ∈ blockChans d → s.flag (PIN_QUALITY_STAT.ELIGIBLE c) = true →
        (t.chan c).active = (s.chan c).staged ∧ t.flag (PIN_QUALITY_STAT.ELIGIBLE c) = false) ∧
      (∀ b, b ≠ d.val → t.die b = s.die b) ∧ (∀ c, c / 64 ≠ d.val → t.chan c = s.chan c) ∧
      t.mode = s.mode ∧ Still s t := by
  have hn : n < 16 := State.actOfBlock_lt ha
  obtain ⟨hregs, hchans, -, hdram, hfwd, hdies⟩ := s.arrived_same d v vs
  have hexec := exec_forwardFrame_of_good hs hf ha (if_pos happly)
  obtain ⟨hmode, hstill⟩ := forwardFrame_still hexec
  obtain ⟨hsdies, hschans, hscodes, hscoding⟩ := (s.arrived d v vs).switchBanks_rest (blockChans d)
  have hactive : ∀ c ∈ blockChans d, s.flag (PIN_QUALITY_STAT.ELIGIBLE c) = true →
      (((s.arrived d v vs).switchBanks (blockChans d)).chan c).active = (s.chan c).staged ∧
        ((s.arrived d v vs).switchBanks (blockChans d)).flag (PIN_QUALITY_STAT.ELIGIBLE c) = false := fun c hc he => by
    rw [← State.chan_congr hchans c]
    exact State.switchBanks_active ((pairwise_blockChans d).imp Nat.ne_of_lt) hc
      ((State.flag_congr (State.reg_congr hregs _)).trans he)
  have hdram : ((s.arrived d v vs).switchBanks (blockChans d)).dram = s.dram :=
    (dram_of_frame (State.switchBanks_frame _ (blockChans d))).trans hdram
  generalize (s.arrived d v vs).switchBanks (blockChans d) = u at *
  have hcoding := (SameCoding.of_regs hregs).trans hscoding
  have huchans : ∀ c, c / 64 ≠ d.val → u.chan c = s.chan c := fun c hc =>
    (hschans c fun hm => hc (mem_blockChans hm)).trans (State.chan_congr hchans c)
  have hudies : ∀ b, b ≠ d.val → u.die b = s.die b := fun b hb => (State.die_congr hsdies b).trans (hdies b hb)
  have hufwd : (u.die d).fwd = vs := by rw [State.die_congr hsdies, hfwd]
  refine ⟨_, hexec, ?_⟩
  generalize hw : (if u.parkLine n then u.addPin d (parkedVec v) else u.brought n d v) = w at hmode hstill ⊢
  split at hw
  · subst hw
    obtain ⟨hafwd, -⟩ := u.addPin_die d (parkedVec v)
    refine ⟨hafwd.trans hufwd, fun c hc he => ?_, fun b hb => (u.addPin_die_ne _ hb).trans (hudies b hb),
      fun c hc => (u.addPin_chan d _ c).trans (huchans c hc), hmode, hstill⟩
    obtain ⟨hact, helig⟩ := hactive c hc he
    exact ⟨(congrArg _ (u.addPin_chan d _ c)).trans hact, (State.flag_congr (u.addPin_reg d _ _)).trans helig⟩
  · subst hw
    obtain ⟨hbfwd, -, hbdies, hbchans, hbregs, hreceived⟩ := State.brought_spec (s := u) (d := d) (v := v) hn fun c hc => by
      rw [hcoding.sliceOf hn hdram, hcoding.codes hn ((hscodes c).trans (congrArg _ (State.chan_congr hchans c)))]
      exact hcodes c hc
    refine ⟨hbfwd.trans hufwd, fun c hc he => ?_, fun b hb => (hbdies b hb).trans (hudies b hb),
      fun c hc => (hbchans c hc).trans (huchans c hc), hmode, hstill⟩
    obtain ⟨hact, helig⟩ := hactive c hc he
    obtain ⟨-, -, -, hkept⟩ := hreceived c hc
    refine ⟨hkept.trans hact, (State.flag_congr (hbregs _ (evtReg_of_ge ?_) fun x => ?_)).trans helig⟩
    · show 0x100000 ≤ PIN_QUALITY_STAT.addr c
      unfold PIN_QUALITY_STAT.addr
      omega
    · show PIN_QUALITY_STAT.addr c ≠ PIN_STATUS.addr x
      unfold PIN_QUALITY_STAT.addr PIN_STATUS.addr
      omega

/-- A vector behind the park line. -/
theorem forwardFrame_of_parked (happly : captApply v.capt = false) (hpark : s.parkLine n = true) :
    ∃ t, exec (.forwardFrame d ⟨true, true⟩) s = .next t ∧ (t.die d).fwd = vs ∧
      (t.die d).pins.getLast? = some { vec := v, syms := [], prev := [] } ∧
      (∀ b, b ≠ d.val → t.die b = s.die b) ∧ (t.withDies s.dies).withTime s.time = s := by
  obtain ⟨hregs, -, hacts, -, hfwd, hdies⟩ := s.arrived_same d v vs
  have hexec := exec_forwardFrame_of_good hs hf ha (if_neg (by rw [happly]; exact Bool.false_ne_true))
  have hline : (s.arrived d v vs).parkLine n = true := (State.parkLine_congr (State.reg_congr hregs _) hacts).trans hpark
  rw [hline, if_pos rfl] at hexec
  obtain ⟨hafwd, hapins⟩ := (s.arrived d v vs).addPin_die d (parkedVec v)
  refine ⟨_, hexec, hafwd.trans hfwd, hapins, fun b hb => (State.addPin_die_ne _ _ hb).trans (hdies b hb), ?_⟩
  obtain ⟨tm, h⟩ := s.arrived_eq d v vs
  rw [h]
  rfl

end

/-! ## An act that aborts (R150) -/

/-- The states of the shows are reported, and nothing else than frames follows. -/
theorem Journaled.showReport (s : State) (n : Nat) : Journaled s (s.showReport n) := by
  have each : ∀ (l : List Nat) (u : State), Journaled u (State.each (fun sh u =>
      if n ∈ u.showActs sh then u.sendFrame 0 (u.reportFrame sh n) else u) l u) := fun l => by
    induction l with
    | nil => exact Journaled.refl
    | cons k l ih => exact fun u => (Journaled.ite (.sendFrame u _ _) (.refl u)).trans (ih _)
  exact .ite (each _ s) (.refl s)

theorem State.showReport_regs (s : State) (n : Nat) : (s.showReport n).regs = s.regs := by
  have sent : ∀ (u : State) (f : Frame), (u.sendFrame 0 f).regs = u.regs := fun u f => by
    simp only [State.sendFrame]
    split <;> simp
  unfold State.showReport
  split
  · exact State.each_inv (P := State.regs) (fun k u => by
      split
      · exact sent u _
      · rfl) _ s
  · rfl

theorem Journaled.setActState_four (s : State) (n : Nat) : Journaled s (s.setActState n 4) := by
  rw [State.setActState, if_neg (by decide)]
  exact (Journaled.put s _ 4).trans (.showReport _ n)

theorem Journaled.parkPpmus (s : State) (cs : List Nat) : Journaled s (s.parkPpmus cs) := by
  have each : ∀ (l : List Nat) (u : State), Journaled u (State.each State.dropPpmu l u) := fun l => by
    induction l with
    | nil => exact Journaled.refl
    | cons k l ih => exact fun u => (Journaled.ite ((Journaled.put u _ 0).trans (.put _ _ 1)) (.refl u)).trans (ih _)
  exact each cs s

/-- A queued start that is dropped. -/
theorem State.dropQueued_rest (s : State) (n : Nat) :
    (s.dropQueued n).dies = s.dies ∧
      (((s.dropQueued n).act n).aborted = (s.act n).aborted ∧ ((s.dropQueued n).act n).endL = (s.act n).endL) ∧
      ∀ f : Field, f.addr = SEQ_STATUS.addr n → f.lo + f.len ≤ 8 ∨ 9 ≤ f.lo ∧ f.lo + f.len ≤ 24 →
        (s.dropQueued n).fld f = s.fld f := by
  unfold State.dropQueued
  split
  · exact ⟨rfl, ⟨rfl, rfl⟩, fun _ _ _ => rfl⟩
  · rename_i q hq
    unfold State.missStart State.seqEvent
    dsimp only
    obtain ⟨ha, hd⟩ := SameBodies.event ((((s.setAct n { s.act n with queued := none }).put (SEQ_STATUS.QUEUED n) 0).bump
      (SEQ_MISSED_START.COUNT n)).put (SEQ_STATUS.START_RESULT n) 0x0B) (16 + n) 5 0 0 0 0
    refine ⟨hd.trans ?_, ?_, fun f hf hlo => ?_⟩
    · rw [State.put_dies, State.bump_dies, State.put_dies]
      rfl
    · rw [State.act_congr ha, State.act_congr (State.put_acts _ _ _), State.act_congr (State.bump_acts _ _),
        State.act_congr (State.put_acts _ _ _), State.setAct_same]
      exact ⟨rfl, rfl⟩
    · have hmiss : f.addr ≠ (SEQ_MISSED_START.COUNT n).addr := by
        rw [hf]
        show SEQ_STATUS.addr n ≠ SEQ_MISSED_START.addr n
        unfold SEQ_STATUS.addr SEQ_MISSED_START.addr
        omega
      rw [State.fld_congr (State.event_reg _ _ _ _ _ _ (evtReg_of_ge (by rw [hf]; unfold SEQ_STATUS.addr; omega))),
        State.fld_put_apart _ _ (by rw [hf]; rfl) (by simp [SEQ_STATUS.START_RESULT])
          (.inr (by simp only [SEQ_STATUS.START_RESULT]; omega)),
        State.bump, State.fld_put_ne _ _ hmiss,
        State.fld_put_apart _ _ (by rw [hf]; rfl) (by simp [SEQ_STATUS.QUEUED]) (by simp only [SEQ_STATUS.QUEUED]; omega)]
      rfl

theorem State.setAct_fld (s : State) (n : Nat) (x : ActSt) (f : Field) : (s.setAct n x).fld f = s.fld f := rfl

/-- A stop's reason stored with the act's part of it. -/
theorem State.stopStored (s : State) (n : Nat) (x : ActSt) {reason : Nat} (hr : reason < 256) :
    ((s.setAct n x).put (SEQ_STATUS.STOP_REASON n) reason).dies = s.dies ∧
      ((s.setAct n x).put (SEQ_STATUS.STOP_REASON n) reason).act n = x ∧
      ((s.setAct n x).put (SEQ_STATUS.STOP_REASON n) reason).fld (SEQ_STATUS.STATE n) = s.fld (SEQ_STATUS.STATE n) ∧
      ((s.setAct n x).put (SEQ_STATUS.STOP_REASON n) reason).fld (SEQ_STATUS.STOP_REASON n) = reason := by
  refine ⟨State.put_dies _ _ _, ?_, ?_, ?_⟩
  · rw [State.act_congr (State.put_acts _ _ _), State.setAct_same]
  · exact (State.fld_put_apart (f := SEQ_STATUS.STOP_REASON n) (g := SEQ_STATUS.STATE n) _ _ rfl (by simp [SEQ_STATUS.STOP_REASON])
      (.inr (by simp [SEQ_STATUS.STOP_REASON, SEQ_STATUS.STATE]))).trans (State.setAct_fld s n x _)
  · rw [State.fld_put_same _ _ _ (by simp [SEQ_STATUS.STOP_REASON])]
    exact Nat.mod_eq_of_lt hr

/-- The program counter of an abort's last vector stored, where there is one. -/
def State.pcFixed (s : State) (n : Nat) (pc : Nat × Nat) : State :=
  if s.issued n = 0 then s else (s.put (SEQ_PC.ADDR n) pc.1).put (SEQ_PC.HALF n) pc.2

theorem State.pcFixed_rest (s : State) (n : Nat) (pc : Nat × Nat) :
    (s.pcFixed n pc).dies = s.dies ∧ (s.pcFixed n pc).acts = s.acts ∧
      ∀ f : Field, f.addr = SEQ_STATUS.addr n → (s.pcFixed n pc).fld f = s.fld f := by
  have hpc : ∀ (u : State) (f g : Field) (x : Nat), g.addr = SEQ_STATUS.addr n → f.addr = SEQ_PC.addr n →
      (u.put f x).fld g = u.fld g := fun u f g x hg hf => State.fld_put_ne u x (by
    rw [hg, hf]
    unfold SEQ_STATUS.addr SEQ_PC.addr
    omega)
  unfold State.pcFixed
  split
  · exact ⟨rfl, rfl, fun _ _ => rfl⟩
  · exact ⟨(State.put_dies _ _ _).trans (State.put_dies _ _ _), (State.put_acts _ _ _).trans (State.put_acts _ _ _),
      fun f hf => (hpc _ _ f _ hf rfl).trans (hpc _ _ f _ hf rfl)⟩

/-- An act once an abort has fixed its stop. -/
def State.aborting (s : State) (n reason : Nat) : ActSt :=
  { s.act n with stop := some (s.issued n, reason), aborted := true, prog := .none, endL := some (s.abortEnd n) }

/-- The stop that an abort fixes: its place, its reason and the program counter of its last vector. -/
def State.abortFixed (s : State) (n reason : Nat) : State :=
  ((s.setAct n (s.aborting n reason)).put (SEQ_STATUS.STOP_REASON n) reason).pcFixed n (s.act n).lastPc

theorem State.abortFixed_rest (s : State) (n : Nat) {reason : Nat} (hr : reason < 256) :
    (s.abortFixed n reason).dies = s.dies ∧ (s.abortFixed n reason).act n = s.aborting n reason ∧
      (s.abortFixed n reason).actState n = s.actState n ∧ (s.abortFixed n reason).fld (SEQ_STATUS.STOP_REASON n) = reason := by
  obtain ⟨hdies, hact, hstate, hreason⟩ := s.stopStored n (s.aborting n reason) hr
  unfold State.abortFixed
  generalize (s.setAct n (s.aborting n reason)).put (SEQ_STATUS.STOP_REASON n) reason = u at *
  obtain ⟨hpdies, hpacts, hpfld⟩ := u.pcFixed_rest n (s.act n).lastPc
  refine ⟨hpdies.trans hdies, (State.act_congr hpacts n).trans hact, ?_, (hpfld _ rfl).trans hreason⟩
  rw [State.actState, hpfld _ rfl, hstate, State.actState]

/-- STATE 4 stored keeps the reason. -/
theorem State.setActState_four_rest (s : State) (n : Nat) :
    (s.setActState n 4).actState n = 4 ∧
      (s.setActState n 4).fld (SEQ_STATUS.STOP_REASON n) = s.fld (SEQ_STATUS.STOP_REASON n) := by
  have hregs : (s.setActState n 4).regs = (s.put (SEQ_STATUS.STATE n) 4).regs := by
    rw [State.setActState, if_neg (by decide)]
    exact State.showReport_regs _ n
  constructor
  · rw [State.actState, State.fld_congr (State.reg_congr hregs _), State.fld_put_same _ _ _ (by simp [SEQ_STATUS.STATE])]
    rfl
  · rw [State.fld_congr (State.reg_congr hregs _)]
    exact State.fld_put_apart _ _ rfl (by simp [SEQ_STATUS.STATE]) (.inl (by simp [SEQ_STATUS.STOP_REASON, SEQ_STATUS.STATE]))

/-- An act that runs, and has not aborted yet, aborts. -/
theorem State.abortAct_eq {s : State} {n reason : Nat} (hr : reason < 256) (h : s.actState n = 3) (ha : (s.act n).aborted = false) :
    s.abortAct reason n = (((s.abortFixed n reason).setActState n 4).parkPpmus
      (((s.abortFixed n reason).setActState n 4).actChans n)).dropQueued n := by
  have hrun : s.running n ∧ !(s.act n).aborted := by
    rw [State.running, h, ha]
    decide
  obtain ⟨-, -, hstate, -⟩ := s.abortFixed_rest n hr
  rw [h] at hstate
  unfold State.abortFixed State.pcFixed State.aborting at hstate ⊢
  unfold State.abortAct
  rw [if_neg (by omega), if_pos hrun]
  dsimp only at hstate ⊢
  rw [if_pos hstate]

/-- A running act aborts: it is STOPPING with the abort's reason, behind the park line, and no die's vectors change. -/
theorem State.abortAct_of_running {s : State} {n reason : Nat} (hn : n < 16) (hr : reason < 256) (h : s.actState n = 3)
    (ha : (s.act n).aborted = false) :
    (s.abortAct reason n).dies = s.dies ∧ (s.abortAct reason n).actState n = 4 ∧
      (s.abortAct reason n).fld (SEQ_STATUS.STOP_REASON n) = reason ∧ ((s.abortAct reason n).act n).aborted = true ∧
      (s.abortAct reason n).parkLine n = true := by
  obtain ⟨hdies, hfixed, -, hreason⟩ := s.abortFixed_rest n hr
  obtain ⟨hstate, hkept⟩ := (s.abortFixed n reason).setActState_four_rest n
  obtain ⟨hsacts, hsdies, -, -⟩ := (Journaled.setActState_four (s.abortFixed n reason) n).bodies
  have haborted : (((s.abortFixed n reason).setActState n 4).act n).aborted = true := by
    rw [State.act_congr hsacts, hfixed]
    rfl
  have hend : (((s.abortFixed n reason).setActState n 4).act n).endL.isSome = true := by
    rw [State.act_congr hsacts, hfixed]
    rfl
  rw [State.abortAct_eq hr h ha]
  generalize (s.abortFixed n reason).setActState n 4 = u at *
  obtain ⟨hpacts, hpdies, -, -⟩ := (Journaled.parkPpmus u (u.actChans n)).bodies
  obtain ⟨hqdies, ⟨hqab, hqend⟩, hfld⟩ := (u.parkPpmus (u.actChans n)).dropQueued_rest n
  have hpark : ∀ f : Field, f.addr = SEQ_STATUS.addr n → (u.parkPpmus (u.actChans n)).fld f = u.fld f := fun f hf =>
    State.fld_congr (State.parkPpmus_reg_lt (by rw [hf]; unfold SEQ_STATUS.addr; omega))
  rw [State.act_congr hpacts] at hqab hqend
  refine ⟨hqdies.trans (hpdies.trans (hsdies.trans hdies)), ?_, ?_, hqab.trans haborted, ?_⟩
  · rw [State.actState, hfld _ rfl (.inl (by simp [SEQ_STATUS.STATE])), hpark _ rfl]
    exact hstate
  · rw [hfld _ rfl (.inr (by simp [SEQ_STATUS.STOP_REASON])), hpark _ rfl, hkept, hreason]
  · rw [State.parkLine, hqend, hend, Bool.or_true]

/-! ## Frames that are lost (R16) -/

/-- A lost frame that begins a vector: the vector is at the pins without symbols, and the act aborts. -/
theorem forwardFrame_of_lost_vector {d : Die} {n : Nat} {v : Vec} {vs : List Vec} {s : State} (hs : s.inService = true)
    (hf : (s.die d).fwd = v :: vs) (ha : s.actOfBlock d = some n) (hr : s.actState n = 3) (hab : (s.act n).aborted = false) :
    ∃ t, exec (.forwardFrame d ⟨true, false⟩) s = .next t ∧ (t.die d).fwd = vs ∧
      (t.die d).pins.getLast? = some { vec := v, syms := [], prev := [] } ∧ t.actState n = 4 ∧
      t.fld (SEQ_STATUS.STOP_REASON n) = 0x12 ∧ (t.act n).aborted = true ∧ t.parkLine n = true ∧
      (∀ b, b ≠ d.val → t.die b = s.die b) ∧ t.mode = s.mode ∧ Still s t := by
  have hexec := exec_forwardFrame_of_bad hs hf ha
  obtain ⟨hmode, hstill⟩ := forwardFrame_still hexec
  refine ⟨_, hexec, ?_⟩
  obtain ⟨hregs, -, hacts, -, hfwd, hdies⟩ := s.arrived_same d v vs
  obtain ⟨hpfwd, hpin⟩ := (s.arrived d v vs).addPin_die d (parkedVec v)
  have hpdies : ∀ b, b ≠ d.val → ((s.arrived d v vs).addPin d (parkedVec v)).die b = s.die b := fun b hb =>
    (State.addPin_die_ne _ _ hb).trans (hdies b hb)
  have hpstate : ((s.arrived d v vs).addPin d (parkedVec v)).actState n = 3 := by
    rw [State.addPin_actState, State.actState, State.fld_congr (State.reg_congr hregs _), ← State.actState, hr]
  have hpab : (((s.arrived d v vs).addPin d (parkedVec v)).act n).aborted = false := by
    rw [State.addPin_act, State.act_congr hacts, hab]
  generalize (s.arrived d v vs).addPin d (parkedVec v) = u at *
  obtain ⟨hadies, hstate, hreason, haborted, hpark⟩ := State.abortAct_of_running (reason := 0x12) (State.actOfBlock_lt ha)
    (by decide) hpstate hpab
  refine ⟨?_, ?_, hstate, hreason, haborted, hpark, fun b hb => (State.die_congr hadies b).trans (hpdies b hb), hmode, hstill⟩
  · rw [State.die_congr hadies, hpfwd, hfwd]
  · rw [State.die_congr hadies, hpin]
    rfl

/-- A lost frame that begins no vector aborts the act all the same. -/
theorem forwardFrame_of_lost {d : Die} {n : Nat} {s : State} (hs : s.inService = true) (ha : s.actOfBlock d = some n)
    (hr : s.actState n = 3) (hab : (s.act n).aborted = false) :
    ∃ t, exec (.forwardFrame d ⟨false, false⟩) s = .next t ∧ t.actState n = 4 ∧
      t.fld (SEQ_STATUS.STOP_REASON n) = 0x12 ∧ (t.act n).aborted = true ∧ t.parkLine n = true ∧ t.dies = s.dies ∧
      Steady s t := by
  have hexec : exec (.forwardFrame d ⟨false, false⟩) s = .next (s.abortAct 0x12 n) := by
    rw [exec_forwardFrame, execForwardFrame, ha]
    dsimp only
    rw [if_neg (by simp [hs]), if_pos rfl]
    rfl
  obtain ⟨hadies, hstate, hreason, haborted, hpark⟩ := State.abortAct_of_running (reason := 0x12) (State.actOfBlock_lt ha)
    (by decide) hr hab
  exact ⟨_, hexec, hstate, hreason, haborted, hpark, hadies, steady_of_frame fun fd hd => State.abortAct_frame _ _ _ _ hd⟩

/-- Nothing else: a frame that arrives and begins no vector. -/
theorem exec_forwardFrame_of_none (d : Die) (s : State) : exec (.forwardFrame d ⟨false, true⟩) s = .next s := by
  rw [exec_forwardFrame, execForwardFrame]
  cases s.actOfBlock d with
  | none => rfl
  | some n =>
    dsimp only
    split
    · rfl
    · rfl

/-- Settles O30: the symbols of a vector come from registers that no earlier channel of the same frame changes, so each
channel of the block takes its own from the state that the frame meets. -/
theorem forwardFramesComplete : Obligations.ForwardFramesComplete := by
  unfold Obligations.ForwardFramesComplete
  exact ⟨fun d n v vs s hs hf ha happly hpark hcodes => forwardFrame_of_running hs hf ha happly hpark hcodes,
    fun d n v vs s hs hf ha happly hcodes => forwardFrame_of_apply hs hf ha happly hcodes,
    fun d n v vs s hs hf ha happly hpark => forwardFrame_of_parked hs hf ha happly hpark,
    fun d n v vs s hs hf ha hr hab => forwardFrame_of_lost_vector hs hf ha hr hab,
    fun d n s hs ha hr hab => forwardFrame_of_lost hs ha hr hab, exec_forwardFrame_of_none⟩

end Sys2Proof.Machine
end

section
/-! PROOF. BOOT's tests complete, or lead to SAFE (O10). -/

namespace Sys2Proof.Machine

/-! ## What the port takes first -/

theorem State.nvmFlags_unit (s : State) : s.nvmFlags.unit = s.unit := rfl

/-- A due persist page comes before a sector of a RETURN module (R86, R345). -/
theorem State.nvmKick_unit_of_persistWants {s : State} (hu : s.unit = none) (hw : s.persistWants = true)
    (hm : s.persistMay = true) : ∃ a page evts, s.nvmKick.unit = some (.persist a page evts) := by
  rw [State.nvmKick, if_neg (by simp [hu]), if_pos ⟨hw, hm⟩, State.nvmFlags_unit]
  exact ⟨_, _, _, rfl⟩

/-- The flash of a RETURN module found: all of its sectors are to be erased. -/
def State.wipeBegun (s : State) (f : Sfdp) : State :=
  (s.tearUnit.flashFound f).withPersist
    { (s.tearUnit.flashFound f).persist with wipe := some 0, wipeEnd := f.density * 134217728 }

theorem exec_returnErase_of_sfdpOk {f : Sfdp} {s : State} (hb : s.bootAt 2 = true) (he : s.eraseDue = true)
    (hf : sfdpOk f = true) (hw : s.persist.wipeEnd = 0) :
    exec (.returnErase (some f)) s = .next (s.wipeBegun f).nvmKick := by
  rw [exec_returnErase, execReturnErase, if_pos ⟨hb, he⟩, if_neg (by simp [hw])]
  dsimp only
  rw [if_neg (by simp [hf])]
  rfl

/-! ## An event that waits -/

/-- A RETURN module in BOOT step 2 with an event that waits for a page: no flash is known yet, so that the page is not
wanted; the energy suffices and no sensor is hot. -/
def eventWaits : State :=
  { State.reset with
    mode := .boot
    regs := [(SYS_MODE.addr, 0x200), (PWR_HOLDUP_NEED.addr, 0)]
    eraseDue := true
    persist := { waiting := [List.replicate 8 0], due := 1 } }

/-- The smallest flash that R73 accepts. -/
def smallFlash : Sfdp := ⟨false, 1, 8, true⟩

/-- Refutes O10: RETURN_ERASE stores the flash's density, and with it the persist page that was due before becomes wanted
and takes the port, so that the first sector waits although the flash may be written. -/
theorem not_bootTestsComplete : ¬ Obligations.BootTestsComplete := by
  unfold Obligations.BootTestsComplete
  rintro ⟨-, -, -, herase, -⟩
  obtain ⟨t, hexec, -, -, -, -, -, -, hwipe, -⟩ := herase smallFlash eventWaits rfl (by decide) rfl (by decide) rfl
    (by decide) rfl
  rw [exec_returnErase_of_sfdpOk (by decide) rfl (by decide) rfl] at hexec
  obtain ⟨a, page, evts, hpage⟩ :=
    State.nvmKick_unit_of_persistWants (s := eventWaits.wipeBegun smallFlash) rfl (by decide) (by decide)
  rw [Host.Outcome.next.inj hexec, hwipe (by decide)] at hpage
  cases hpage

end Sys2Proof.Machine
end

section
/-! SUPPORT. What the end of a mode leaves of SYS and of the wires (O12, O13, O14): the registers of 02 that no interrupt
and no event changes, and the state of the pins. One lemma per operation; `simp` rewrites with it. -/

namespace Sys2Proof.Machine

/-- Whether a register is one of SYS (02); not SYS_IRQ_STATUS, in which any event may set a bit. -/
def sysReg (a : Nat) : Bool := decide (a < 0x10000 ∧ a ≠ SYS_IRQ_STATUS.addr)

@[simp] theorem sysReg_add {a b : Nat} (h : 0x10000 ≤ a) : sysReg (a + b) = false :=
  decide_eq_false (by omega)

@[simp] theorem sysReg_of_le {a : Nat} (h : 0x10000 ≤ a) : sysReg a = false :=
  decide_eq_false (by omega)

/-- What is followed: the wires, but the interrupts to the backend, and a register of SYS. -/
inductive Anchor
  | wires
  | sys (a : Nat)

/-- The type of what is followed. -/
abbrev Anchor.Ty : Anchor → Type
  | .wires => Pins
  | .sys _ => Option Word

/-- The value of what is followed; a register that is not of SYS has none. -/
def State.anchor (s : State) : (k : Anchor) → k.Ty
  | .wires => { s.pins with bdIrq := 0 }
  | .sys a => if sysReg a then some (s.reg a) else none

theorem State.anchor_of {s t : State} (hp : { t.pins with bdIrq := 0 } = { s.pins with bdIrq := 0 })
    (hr : ∀ a, sysReg a = true → t.reg a = s.reg a) (k : Anchor) : t.anchor k = s.anchor k := by
  cases k with
  | wires => exact hp
  | sys a =>
    by_cases h : sysReg a = true
    · simp only [State.anchor, hr a h]
    · simp only [State.anchor, if_neg h]

theorem State.anchor_congr {s t : State} {k : Anchor} (hp : t.pins = s.pins) (hr : t.regs = s.regs) :
    t.anchor k = s.anchor k :=
  State.anchor_of (by rw [hp]) (fun a _ => State.reg_congr hr a) k

theorem State.reg_of_anchor {s t : State} {a : Nat} (h : t.anchor (.sys a) = s.anchor (.sys a)) (ha : sysReg a = true) :
    t.reg a = s.reg a := by
  simpa only [State.anchor, if_pos ha, Option.some.injEq] using h

theorem Spared.anchor {s t : State} (h : Spared s t) (k : Anchor) : t.anchor k = s.anchor k := by
  refine State.anchor_of ?_ (fun a ha => h.reg_eq (shelterAt_of_block ?_)) k
  · have hpins : (s.confine t).pins = s.pins := congrArg State.pins h.confined
    rw [show t.pins = s.pins from hpins]
  · exact .inl (Nat.lt_trans (of_decide_eq_true ha).1 (by decide))

@[simp] theorem ite_anchor (c : Prop) [Decidable c] (a b : State) (k : Anchor) :
    (if c then a else b).anchor k = if c then a.anchor k else b.anchor k := by
  split <;> rfl

@[simp] theorem foldl_anchor {α : Type} (f : State → α → State) (l : List α) (s : State) (k : Anchor)
    (h : ∀ s x, (f s x).anchor k = s.anchor k) : (l.foldl f s).anchor k = s.anchor k := by
  induction l generalizing s with
  | nil => rfl
  | cons x l ih => rw [List.foldl_cons, ih, h]

@[simp] theorem State.each_anchor (f : Nat → State → State) (l : List Nat) (s : State) (k : Anchor)
    (h : ∀ n s, (f n s).anchor k = s.anchor k) : (State.each f l s).anchor k = s.anchor k :=
  State.each_keep (fun s => s.anchor k) f h l s

@[simp] theorem State.setReg_anchor (s : State) {a : Nat} (w : Word) (k : Anchor) (h : sysReg a = false) :
    (s.setReg a w).anchor k = s.anchor k := by
  refine State.anchor_of (s := s) (t := s.setReg a w) rfl (fun b hb => State.reg_setReg_ne s w fun he => ?_) k
  rw [he, h] at hb
  cases hb

@[simp] theorem State.put_anchor (s : State) {f : Field} (v : Nat) (k : Anchor) (h : sysReg f.addr = false) :
    (s.put f v).anchor k = s.anchor k :=
  State.setReg_anchor s _ k h

@[simp] theorem State.put_wires (s : State) (f : Field) (v : Nat) : (s.put f v).anchor .wires = s.anchor .wires := by
  cases s
  rfl

@[simp] theorem State.withShed_anchor (s : State) (v : Option Shed) (an : Anchor) :
    (s.withShed v).anchor an = s.anchor an :=
  State.anchor_congr rfl rfl

@[simp] theorem State.persistDue_anchor (s : State) (an : Anchor) : s.persistDue.anchor an = s.anchor an :=
  State.anchor_congr rfl rfl

@[simp] theorem State.putB_anchor (s : State) {f : Field} (b : Bool) (k : Anchor) (h : sysReg f.addr = false) :
    (s.putB f b).anchor k = s.anchor k :=
  State.put_anchor s _ k h

@[simp] theorem State.bump_anchor (s : State) {f : Field} (k : Anchor) (h : sysReg f.addr = false) :
    (s.bump f).anchor k = s.anchor k :=
  State.put_anchor s _ k h

@[simp] theorem State.setPair_anchor (s : State) {lo : Nat} (v : Nat) (k : Anchor) (h : 0x10000 ≤ lo) :
    (s.setPair lo v).anchor k = s.anchor k := by
  rw [State.setPair, State.setReg_anchor _ _ _ (sysReg_add h), State.setReg_anchor _ _ _ (sysReg_of_le h)]

@[simp] theorem State.bdIrq_anchor (s : State) (bit : Nat) (k : Anchor) : (s.bdIrq bit).anchor k = s.anchor k :=
  State.anchor_of rfl (fun _ _ => rfl) k

@[simp] theorem State.disturbAct_anchor (n : Nat) (s : State) (k : Anchor) : (s.disturbAct n).anchor k = s.anchor k :=
  (Spared.disturbAct n s).anchor k

@[simp] theorem State.disturbRing_anchor (g : Nat) (s : State) (k : Anchor) : (s.disturbRing g).anchor k = s.anchor k :=
  (Spared.disturbRing g s).anchor k

@[simp] theorem State.disturbQueues_anchor (g : Nat) (s : State) (k : Anchor) :
    (s.disturbQueues g).anchor k = s.anchor k :=
  (Spared.disturbQueues g s).anchor k

@[simp] theorem State.withMode_anchor (s : State) (v : Mode) (an : Anchor) : (s.withMode v).anchor an = s.anchor an :=
  State.anchor_congr rfl rfl

@[simp] theorem State.withEvtSeq_anchor (s : State) (v : Word) (an : Anchor) : (s.withEvtSeq v).anchor an = s.anchor
    an :=
  State.anchor_congr rfl rfl

@[simp] theorem State.withEvtIrq_anchor (s : State) (v : Option Nat) (an : Anchor) : (s.withEvtIrq v).anchor an =
    s.anchor an :=
  State.anchor_congr rfl rfl

@[simp] theorem State.withEvtDefer_anchor (s : State) (v : Bool) (an : Anchor) : (s.withEvtDefer v).anchor an =
    s.anchor an :=
  State.anchor_congr rfl rfl

@[simp] theorem State.withMsix_anchor (s : State) (v : Tab Nat) (an : Anchor) : (s.withMsix v).anchor an = s.anchor an
    :=
  State.anchor_congr rfl rfl

@[simp] theorem State.withDram_anchor (s : State) (v : List Host.Cell) (an : Anchor) : (s.withDram v).anchor an =
    s.anchor an :=
  State.anchor_congr rfl rfl

@[simp] theorem State.withPool_anchor (s : State) (v : List Host.Cell) (an : Anchor) : (s.withPool v).anchor an =
    s.anchor an :=
  State.anchor_congr rfl rfl

@[simp] theorem State.withMailbox_anchor (s : State) (v : List Host.Cell) (an : Anchor) : (s.withMailbox v).anchor an
    = s.anchor an :=
  State.anchor_congr rfl rfl

@[simp] theorem State.withHostMem_anchor (s : State) (v : List Host.Cell) (an : Anchor) : (s.withHostMem v).anchor an
    = s.anchor an :=
  State.anchor_congr rfl rfl

@[simp] theorem State.withTorn_anchor (s : State) (v : Tab (Option Byte)) (an : Anchor) : (s.withTorn v).anchor an =
    s.anchor an :=
  State.anchor_congr rfl rfl

@[simp] theorem State.withSensors_anchor (s : State) (v : Tab Sensor) (an : Anchor) : (s.withSensors v).anchor an =
    s.anchor an :=
  State.anchor_congr rfl rfl

@[simp] theorem State.withPersist_anchor (s : State) (v : Persist) (an : Anchor) : (s.withPersist v).anchor an =
    s.anchor an :=
  State.anchor_congr rfl rfl

@[simp] theorem State.withNvm_anchor (s : State) (v : Option NvmJob) (an : Anchor) : (s.withNvm v).anchor an =
    s.anchor an :=
  State.anchor_congr rfl rfl

@[simp] theorem State.withUnit_anchor (s : State) (v : Option FlashUnit) (an : Anchor) : (s.withUnit v).anchor an =
    s.anchor an :=
  State.anchor_congr rfl rfl

@[simp] theorem State.withActs_anchor (s : State) (v : Tab ActSt) (an : Anchor) : (s.withActs v).anchor an = s.anchor
    an :=
  State.anchor_congr rfl rfl

@[simp] theorem State.withDies_anchor (s : State) (v : Tab DieSt) (an : Anchor) : (s.withDies v).anchor an = s.anchor
    an :=
  State.anchor_congr rfl rfl

@[simp] theorem State.withChans_anchor (s : State) (v : Tab ChanSt) (an : Anchor) : (s.withChans v).anchor an =
    s.anchor an :=
  State.anchor_congr rfl rfl

@[simp] theorem State.withRings_anchor (s : State) (v : Tab RingSt) (an : Anchor) : (s.withRings v).anchor an =
    s.anchor an :=
  State.anchor_congr rfl rfl

@[simp] theorem State.withLogBuf_anchor (s : State) (v : Nat) (an : Anchor) : (s.withLogBuf v).anchor an = s.anchor an
    :=
  State.anchor_congr rfl rfl

@[simp] theorem State.withLogTime_anchor (s : State) (v : Nat) (an : Anchor) : (s.withLogTime v).anchor an = s.anchor
    an :=
  State.anchor_congr rfl rfl

@[simp] theorem State.withRq_anchor (s : State) (v : RqSt) (an : Anchor) : (s.withRq v).anchor an = s.anchor an :=
  State.anchor_congr rfl rfl

@[simp] theorem State.withTdcs_anchor (s : State) (v : Tab TdcSt) (an : Anchor) : (s.withTdcs v).anchor an = s.anchor
    an :=
  State.anchor_congr rfl rfl

@[simp] theorem State.withUnits_anchor (s : State) (v : Tab TdcUnit) (an : Anchor) : (s.withUnits v).anchor an =
    s.anchor an :=
  State.anchor_congr rfl rfl

@[simp] theorem State.withTrigs_anchor (s : State) (v : Tab TrigSt) (an : Anchor) : (s.withTrigs v).anchor an =
    s.anchor an :=
  State.anchor_congr rfl rfl

@[simp] theorem State.withStreams_anchor (s : State) (v : Tab StreamSt) (an : Anchor) : (s.withStreams v).anchor an =
    s.anchor an :=
  State.anchor_congr rfl rfl

@[simp] theorem State.withCal_anchor (s : State) (v : CalSt) (an : Anchor) : (s.withCal v).anchor an = s.anchor an :=
  State.anchor_congr rfl rfl

@[simp] theorem State.withPorts_anchor (s : State) (v : Tab PortSt) (an : Anchor) : (s.withPorts v).anchor an =
    s.anchor an :=
  State.anchor_congr rfl rfl

@[simp] theorem State.withWhistles_anchor (s : State) (v : WhistleSt) (an : Anchor) : (s.withWhistles v).anchor an =
    s.anchor an :=
  State.anchor_congr rfl rfl

@[simp] theorem State.withQueues_anchor (s : State) (v : Tab QueueSt) (an : Anchor) : (s.withQueues v).anchor an =
    s.anchor an :=
  State.anchor_congr rfl rfl

@[simp] theorem State.withEp_anchor (s : State) (v : Option (Nat × Nat)) (an : Anchor) : (s.withEp v).anchor an =
    s.anchor an :=
  State.anchor_congr rfl rfl

@[simp] theorem State.withBlanks_anchor (s : State) (v : Tab Nat) (an : Anchor) : (s.withBlanks v).anchor an =
    s.anchor an :=
  State.anchor_congr rfl rfl

@[simp] theorem State.withFreeCtr_anchor (s : State) (v : Nat) (an : Anchor) : (s.withFreeCtr v).anchor an = s.anchor
    an :=
  State.anchor_congr rfl rfl

@[simp] theorem State.setAct_anchor (s : State) (n : Nat) (x : ActSt) (an : Anchor) : (s.setAct n x).anchor an =
    s.anchor an :=
  State.anchor_congr rfl rfl

@[simp] theorem State.setDie_anchor (s : State) (n : Nat) (x : DieSt) (an : Anchor) : (s.setDie n x).anchor an =
    s.anchor an :=
  State.anchor_congr rfl rfl

@[simp] theorem State.setChan_anchor (s : State) (n : Nat) (x : ChanSt) (an : Anchor) : (s.setChan n x).anchor an =
    s.anchor an :=
  State.anchor_congr rfl rfl

@[simp] theorem State.setRing_anchor (s : State) (n : Nat) (x : RingSt) (an : Anchor) : (s.setRing n x).anchor an =
    s.anchor an :=
  State.anchor_congr rfl rfl

@[simp] theorem State.setPort_anchor (s : State) (n : Nat) (x : PortSt) (an : Anchor) : (s.setPort n x).anchor an =
    s.anchor an :=
  State.anchor_congr rfl rfl

@[simp] theorem State.setQueue_anchor (s : State) (n : Nat) (x : QueueSt) (an : Anchor) : (s.setQueue n x).anchor an =
    s.anchor an :=
  State.anchor_congr rfl rfl

@[simp] theorem State.setSensor_anchor (s : State) (n : Nat) (x : Sensor) (an : Anchor) : (s.setSensor n x).anchor an
    = s.anchor an :=
  State.anchor_congr rfl rfl

@[simp] theorem State.setTdc_anchor (s : State) (n : Nat) (x : TdcSt) (an : Anchor) : (s.setTdc n x).anchor an =
    s.anchor an :=
  State.anchor_congr rfl rfl

@[simp] theorem State.setMu_anchor (s : State) (n : Nat) (x : TdcUnit) (an : Anchor) : (s.setMu n x).anchor an =
    s.anchor an :=
  State.anchor_congr rfl rfl

@[simp] theorem State.setTrig_anchor (s : State) (n : Nat) (x : TrigSt) (an : Anchor) : (s.setTrig n x).anchor an =
    s.anchor an :=
  State.anchor_congr rfl rfl

@[simp] theorem State.setStream_anchor (s : State) (n : Nat) (x : StreamSt) (an : Anchor) : (s.setStream n x).anchor
    an = s.anchor an :=
  State.anchor_congr rfl rfl

@[simp] theorem State.takeFree_anchor (s : State) (an : Anchor) : (State.takeFree s).anchor an = s.anchor an :=
  State.anchor_congr rfl rfl

@[simp] theorem State.dramPut_anchor (s : State) (a : Nat) (bs : List Byte) (an : Anchor) : (State.dramPut s a
    bs).anchor an = s.anchor an :=
  State.anchor_congr rfl rfl

@[simp] theorem State.poolPut_anchor (s : State) (a : Nat) (bs : List Byte) (an : Anchor) : (State.poolPut s a
    bs).anchor an = s.anchor an :=
  State.anchor_congr rfl rfl

@[simp] theorem State.mboxPut_anchor (s : State) (a : Nat) (bs : List Byte) (an : Anchor) : (State.mboxPut s a
    bs).anchor an = s.anchor an :=
  State.anchor_congr rfl rfl

@[simp] theorem State.hostPut_anchor (s : State) (a : Nat) (bs : List Byte) (an : Anchor) : (State.hostPut s a
    bs).anchor an = s.anchor an :=
  State.anchor_congr rfl rfl

@[simp] theorem State.hostPutEp_anchor (s : State) (a : Nat) (bs : List Byte) (bad : Bool) (an : Anchor) :
    (State.hostPutEp s a bs bad).anchor an = s.anchor an := by
  simp [State.hostPutEp]

@[simp] theorem State.raiseVec_anchor (s : State) (v : Nat) (an : Anchor) : (State.raiseVec s v).anchor an = s.anchor
    an := by
  simp [State.raiseVec, MSIX_PBA.PENDING, MSIX_PBA.addr]

@[simp] theorem State.sysIrq_anchor (s : State) (bit : Nat) (an : Anchor) : (s.sysIrq bit).anchor an = s.anchor an := by
  have hput : (s.put ⟨SYS_IRQ_STATUS.addr, bit, 1⟩ 1).anchor an = s.anchor an :=
    State.put_anchor s _ an (decide_eq_false fun h => h.2 rfl)
  simp [State.sysIrq, hput]

@[simp] theorem State.sendFrame_anchor (s : State) (p : Nat) (f : Frame) (an : Anchor) : (State.sendFrame s p
    f).anchor an = s.anchor an := by
  simp [State.sendFrame]

@[simp] theorem State.journalIrq_anchor (s : State) (an : Anchor) : (State.journalIrq s).anchor an = s.anchor an := by
  simp only [State.journalIrq]
  (repeat' split) <;> simp

@[simp] theorem State.journalDram_anchor (s : State) (w : Nat) (r : EvtRec) (an : Anchor) : (State.journalDram s w
    r).anchor an = s.anchor an := by
  simp only [State.journalDram]
  (repeat' split) <;> simp

@[simp] theorem State.journal_anchor (s : State) (r : EvtRec) (an : Anchor) : (State.journal s r).anchor an = s.anchor
    an := by
  simp [State.journal, EVT_LOST.COUNT, EVT_LOST.addr, EVT_WR.COUNT, EVT_WR.addr]

@[simp] theorem State.persistEvt_anchor (s : State) (r : EvtRec) (an : Anchor) : (State.persistEvt s r).anchor an =
    s.anchor an := by
  simp [State.persistEvt]

@[simp] theorem State.eventAt_anchor (s : State) (t : Nat) (src : Nat) (code : Nat) (p4 : Nat) (p5 : Nat) (p6 : Nat)
    (p7 : Nat) (an : Anchor) : (State.eventAt s t src code p4 p5 p6 p7).anchor an = s.anchor an := by
  simp [State.eventAt]

@[simp] theorem State.event_anchor (s : State) (src : Nat) (code : Nat) (p4 : Nat) (p5 : Nat) (p6 : Nat) (p7 : Nat)
    (an : Anchor) : (State.event s src code p4 p5 p6 p7).anchor an = s.anchor an := by
  simp [State.event]

@[simp] theorem State.setMode_anchor (s : State) (m : Mode) (an : Anchor) : (State.setMode s m).anchor an = s.anchor
    an := by
  simp [State.setMode]

@[simp] theorem State.eccUe_anchor (s : State) (id : Nat) (addr : Nat) (an : Anchor) : (State.eccUe s id addr).anchor
    an = s.anchor an := by
  simp [State.eccUe, MEM_ECC_STATUS.UE_CNT, MEM_ECC_STATUS.UE_DRAM, MEM_ECC_STATUS.UE_SRAM, MEM_ECC_STATUS.addr]

@[simp] theorem State.finish_anchor (s : State) (q : Nat) (id : Nat) (status : Nat) (result : Nat) (an : Anchor) :
    (State.finish s q id status result).anchor an = s.anchor an := by
  simp only [State.finish]
  (repeat' split) <;> simp

@[simp] theorem State.abortCmds_anchor (s : State) (sel : HostCmd → Bool) (an : Anchor) : (State.abortCmds s
    sel).anchor an = s.anchor an := by
  simp [State.abortCmds]

@[simp] theorem State.abortStarts_anchor (s : State) (n : Nat) (an : Anchor) : (State.abortStarts s n).anchor an =
    s.anchor an := by
  simp [State.abortStarts]

@[simp] theorem State.tdcSwitched_anchor (s : State) (c : Nat) (an : Anchor) : (State.tdcSwitched s c).anchor an =
    s.anchor an :=
  State.anchor_congr rfl rfl

@[simp] theorem State.switchBank_anchor (c : Nat) (s : State) (an : Anchor) : (State.switchBank c s).anchor an =
    s.anchor an := by
  simp only [State.switchBank]
  (repeat' split) <;> simp [CAL_STATUS.PENDING, CAL_STATUS.addr, Nat.le_add_right_of_le, PIN_QUALITY_AGE_LO.addr,
    PIN_QUALITY_STAT.ELIGIBLE, PIN_QUALITY_STAT.addr, PIN_TDC_CFG.BT_CAL_H, PIN_TDC_CFG.BT_CAL_L, PIN_TDC_CFG.addr]

@[simp] theorem State.switchBanks_anchor (s : State) (cs : List Nat) (an : Anchor) : (State.switchBanks s cs).anchor
    an = s.anchor an := by
  simp [State.switchBanks]

@[simp] theorem State.switchAll_anchor (s : State) (an : Anchor) : (State.switchAll s).anchor an = s.anchor an := by
  simp [State.switchAll]

@[simp] theorem State.showEnd_anchor (s : State) (sh : Nat) (an : Anchor) : (State.showEnd s sh).anchor an = s.anchor
    an := by
  simp [State.showEnd, LNK_SHOW_CFG.RUNNING, LNK_SHOW_CFG.addr]

@[simp] theorem State.showEnds_anchor (s : State) (n : Nat) (an : Anchor) : (State.showEnds s n).anchor an = s.anchor
    an := by
  simp [State.showEnds]

@[simp] theorem State.cutPpmu_anchor (c : Nat) (s : State) (an : Anchor) : (State.cutPpmu c s).anchor an = s.anchor an
    := by
  simp only [State.cutPpmu]
  (repeat' split) <;> simp [PIN_PPMU_CFG.CONNECT, PIN_PPMU_CFG.addr]

@[simp] theorem State.cutPpmus_anchor (s : State) (an : Anchor) : (State.cutPpmus s).anchor an = s.anchor an := by
  simp [State.cutPpmus]

@[simp] theorem State.dropPpmu_anchor (c : Nat) (s : State) (an : Anchor) : (State.dropPpmu c s).anchor an = s.anchor
    an := by
  simp only [State.dropPpmu]
  (repeat' split) <;> simp [PIN_PPMU_CFG.CONNECT, PIN_PPMU_CFG.addr, PIN_PPMU_MEAS.PARKED, PIN_PPMU_MEAS.addr]

@[simp] theorem State.parkPpmus_anchor (s : State) (cs : List Nat) (an : Anchor) : (State.parkPpmus s cs).anchor an =
    s.anchor an := by
  simp [State.parkPpmus]

@[simp] theorem State.seqEvent_anchor (s : State) (n : Nat) (code : Nat) (p4 : Nat) (p5 : Nat) (p6 : Nat) (p7 : Nat)
    (an : Anchor) : (State.seqEvent s n code p4 p5 p6 p7).anchor an = s.anchor an := by
  simp [State.seqEvent]

@[simp] theorem State.showReport_anchor (s : State) (n : Nat) (an : Anchor) : (State.showReport s n).anchor an =
    s.anchor an := by
  simp [State.showReport]

@[simp] theorem State.setActState_anchor (s : State) (n : Nat) (st : Nat) (an : Anchor) : (State.setActState s n
    st).anchor an = s.anchor an := by
  simp [State.setActState, SEQ_STATUS.STATE, SEQ_STATUS.addr]

@[simp] theorem State.missStart_anchor (s : State) (n : Nat) (an : Anchor) : (State.missStart s n).anchor an =
    s.anchor an := by
  simp [State.missStart, SEQ_MISSED_START.COUNT, SEQ_MISSED_START.addr, SEQ_STATUS.START_RESULT, SEQ_STATUS.addr]

@[simp] theorem State.dropQueued_anchor (s : State) (n : Nat) (an : Anchor) : (State.dropQueued s n).anchor an =
    s.anchor an := by
  simp only [State.dropQueued]
  (repeat' split) <;> simp [SEQ_STATUS.QUEUED, SEQ_STATUS.addr]

@[simp] theorem State.holdHyst_anchor (c : Nat) (s : State) (an : Anchor) : (State.holdHyst c s).anchor an = s.anchor
    an :=
  State.anchor_congr rfl rfl

@[simp] theorem State.acceptStart_anchor (s : State) (n : Nat) (r : StartReq) (an : Anchor) : (State.acceptStart s n
    r).anchor an = s.anchor an := by
  simp [State.acceptStart, SEQ_STATUS.EXEC_HALF, SEQ_STATUS.START_RESULT, SEQ_STATUS.addr]

@[simp] theorem State.markLate_anchor (s : State) (n : Nat) (an : Anchor) : (State.markLate s n).anchor an = s.anchor
    an := by
  simp [State.markLate, SEQ_STATUS.START_RESULT, SEQ_STATUS.addr]

@[simp] theorem State.acceptQueued_anchor (s : State) (n : Nat) (an : Anchor) : (State.acceptQueued s n).anchor an =
    s.anchor an := by
  simp only [State.acceptQueued]
  (repeat' split) <;> simp [SEQ_STATUS.QUEUED, SEQ_STATUS.addr]

@[simp] theorem State.tilePush_anchor (s : State) (g : Nat) (final : Bool) (an : Anchor) : (State.tilePush s g
    final).anchor an = s.anchor an := by
  simp [State.tilePush, FAIL_TILE_STATUS.PUSHING, FAIL_TILE_STATUS.STREAM_OFF, FAIL_TILE_STATUS.addr]

@[simp] theorem State.finalPushes_anchor (s : State) (n : Nat) (an : Anchor) : (State.finalPushes s n).anchor an =
    s.anchor an := by
  simp [State.finalPushes]

@[simp] theorem State.neverRan_anchor (s : State) (n : Nat) (an : Anchor) : (State.neverRan s n).anchor an = s.anchor
    an := by
  simp [State.neverRan]

@[simp] theorem State.stopEarly_anchor (s : State) (n : Nat) (reason : Nat) (an : Anchor) : (State.stopEarly s n
    reason).anchor an = s.anchor an := by
  simp [State.stopEarly, Nat.le_add_right_of_le, SEQ_CYCLE_LO.addr, SEQ_PC.ADDR, SEQ_PC.HALF, SEQ_PC.addr,
    SEQ_STATUS.STOP_REASON, SEQ_STATUS.addr]

@[simp] theorem State.fixStop_anchor (s : State) (n : Nat) (cnt : Nat) (reason : Nat) (an : Anchor) : (State.fixStop s
    n cnt reason).anchor an = s.anchor an := by
  simp only [State.fixStop]
  (repeat' split) <;> simp [SEQ_STATUS.STOP_REASON, SEQ_STATUS.addr]

@[simp] theorem State.gracefulStop_anchor (reason : Nat) (n : Nat) (s : State) (an : Anchor) : (State.gracefulStop
    reason n s).anchor an = s.anchor an := by
  simp [State.gracefulStop]

@[simp] theorem State.failStop_anchor (n : Nat) (F : Nat) (reason : Nat) (s : State) (an : Anchor) : (State.failStop n
    F reason s).anchor an = s.anchor an := by
  simp [State.failStop, SEQ_STATUS.RUNOUT_LATE, SEQ_STATUS.addr]

@[simp] theorem State.abortAct_anchor (reason : Nat) (n : Nat) (s : State) (an : Anchor) : (State.abortAct reason n
    s).anchor an = s.anchor an := by
  simp only [State.abortAct]
  (repeat' split) <;> simp [SEQ_PC.ADDR, SEQ_PC.HALF, SEQ_PC.addr, SEQ_STATUS.STOP_REASON, SEQ_STATUS.addr]

@[simp] theorem State.release_anchor (s : State) (n : Nat) (t : Option Nat) (an : Anchor) : (State.release s n
    t).anchor an = s.anchor an := by
  simp [State.release]

@[simp] theorem State.startAct_anchor (r : StartReq) (n : Nat) (s : State) (an : Anchor) : (State.startAct r n
    s).anchor an = s.anchor an := by
  simp [State.startAct, SEQ_STATUS.QUEUED, SEQ_STATUS.START_RESULT, SEQ_STATUS.addr]

@[simp] theorem State.blankStart_anchor (m : Nat) (t : Nat) (s : State) (an : Anchor) : (State.blankStart m t
    s).anchor an = s.anchor an := by
  simp only [State.blankStart]
  (repeat' split) <;> simp [MON_SENSE_BLANK.BLANKING, MON_SENSE_BLANK.addr]

@[simp] theorem State.srefChanged_anchor (s : State) (m : Nat) (an : Anchor) : (State.srefChanged s m).anchor an =
    s.anchor an := by
  simp [State.srefChanged]

@[simp] theorem State.srefClear_anchor (source : Nat) (m : Nat) (s : State) (an : Anchor) : (State.srefClear source m
    s).anchor an = s.anchor an := by
  simp only [State.srefClear]
  (repeat' split) <;> simp [MON_SREF_CODE.CODE, MON_SREF_CODE.addr, MON_SREF_STATUS.CLEARED, MON_SREF_STATUS.SOURCE,
    MON_SREF_STATUS.addr]

@[simp] theorem State.srefClearAll_anchor (s : State) (an : Anchor) : (State.srefClearAll s).anchor an = s.anchor an
    := by
  simp [State.srefClearAll]

@[simp] theorem State.whistleOn_anchor (s : State) (w : Whistle) (ps : List Nat) (an : Anchor) : (State.whistleOn s w
    ps).anchor an = s.anchor an := by
  simp [State.whistleOn]

@[simp] theorem State.whistleSend_anchor (s : State) (w : Whistle) (an : Anchor) : (State.whistleSend s w).anchor an =
    s.anchor an := by
  simp [State.whistleSend, LNK_WHISTLE_CFG.LAST_WN, LNK_WHISTLE_CFG.addr]

@[simp] theorem State.whistleCalled_anchor (s : State) (w : Whistle) (an : Anchor) : (State.whistleCalled s w).anchor
    an = s.anchor an := by
  simp [State.whistleCalled]

@[simp] theorem State.keepCue_anchor (cue : Nat) (t : Nat) (n : Nat) (s : State) (an : Anchor) : (State.keepCue cue t
    n s).anchor an = s.anchor an := by
  simp [State.keepCue]

@[simp] theorem State.whistleStart_anchor (sh : Nat) (t : Nat) (n : Nat) (s : State) (an : Anchor) :
    (State.whistleStart sh t n s).anchor an = s.anchor an := by
  simp [State.whistleStart]

@[simp] theorem State.deliverTo_anchor (s : State) (kind : Nat) (sh : Nat) (t : Nat) (cue : Nat) (ns : List Nat) (an :
    Anchor) : (State.deliverTo s kind sh t cue ns).anchor an = s.anchor an := by
  simp only [State.deliverTo]
  (repeat' split) <;> simp

@[simp] theorem State.countPin_anchor (s : State) (c : Nat) (an : Anchor) : (State.countPin s c).anchor an = s.anchor
    an := by
  simp [State.countPin, Nat.le_add_right_of_le, PIN_FAILCNT_LO.addr]

@[simp] theorem State.firstFail_anchor (s : State) (g : Nat) (v : Vec) (fs : List FailCmp) (an : Anchor) :
    (State.firstFail s g v fs).anchor an = s.anchor an := by
  simp only [State.firstFail]
  (repeat' split) <;> simp [FAIL_FIRST_ADDR_LO.addr, FAIL_FIRST_CYCLE_LO.addr, FAIL_FIRST_PIN.addr,
    FAIL_FIRST_TIME_LO.addr, FAIL_STATUS.FIRST_VALID, FAIL_STATUS.addr, Nat.le_add_right_of_le]

@[simp] theorem State.benchByFail_anchor (s : State) (n : Nat) (g : Nat) (F : Nat) (an : Anchor) : (State.benchByFail
    s n g F).anchor an = s.anchor an := by
  simp [State.benchByFail, FAIL_STATUS.BENCHED, FAIL_STATUS.addr]

@[simp] theorem State.ringWhistle_anchor (s : State) (n : Nat) (g : Nat) (F : Nat) (kind : Nat) (stops : Bool) (an :
    Anchor) : (State.ringWhistle s n g F kind stops).anchor an = s.anchor an := by
  simp only [State.ringWhistle]
  (repeat' split) <;> simp

@[simp] theorem State.ringAction_anchor (s : State) (n : Nat) (g : Nat) (F : Nat) (an : Anchor) : (State.ringAction s
    n g F).1.anchor an = s.anchor an := by
  simp [State.ringAction, FAIL_STATUS.ACTION, FAIL_STATUS.addr]

@[simp] theorem State.drainLog_anchor (s : State) (t : Nat) (an : Anchor) : (State.drainLog s t).anchor an = s.anchor
    an := by
  simp [State.drainLog]

@[simp] theorem State.logWrite_anchor (s : State) (g : Nat) (v : Vec) (fs : List FailCmp) (idx : Nat) (msk : List
    Byte) (first : Bool) (acted : Bool) (unmapped : Bool) (an : Anchor) : (State.logWrite s g v fs idx msk first acted
    unmapped).anchor an = s.anchor an := by
  simp [State.logWrite, FAIL_LOG_WR.INDEX, FAIL_LOG_WR.WRAPPED, FAIL_LOG_WR.addr]

@[simp] theorem State.logDrop_anchor (s : State) (g : Nat) (an : Anchor) : (State.logDrop s g).anchor an = s.anchor an
    := by
  simp [State.logDrop, FAIL_LOG_DROP.RATE, FAIL_LOG_DROP.addr, FAIL_STATUS.LOG_GAP, FAIL_STATUS.addr]

@[simp] theorem State.logFail_anchor (s : State) (g : Nat) (v : Vec) (fs : List FailCmp) (first : Bool) (acted : Bool)
    (unmapped : Bool) (an : Anchor) : (State.logFail s g v fs first acted unmapped).anchor an = s.anchor an := by
  simp only [State.logFail]
  (repeat' split) <;> simp [FAIL_LOG_DROP.FULL, FAIL_LOG_DROP.addr, FAIL_LOG_WR.WRAPPED, FAIL_LOG_WR.addr,
    FAIL_STATUS.LOG_FULL, FAIL_STATUS.addr]

@[simp] theorem State.setDramBit_anchor (s : State) (a : Nat) (i : Nat) (b : Bool) (an : Anchor) : (State.setDramBit s
    a i b).anchor an = s.anchor an :=
  State.anchor_congr rfl rfl

@[simp] theorem State.setCell_anchor (s : State) (g : Nat) (idx : Nat) (an : Anchor) : (State.setCell s g idx).anchor
    an = s.anchor an := by
  simp [State.setCell, FAIL_TILE_STATUS.DIRTY, FAIL_TILE_STATUS.addr]

@[simp] theorem State.mapFails_anchor (s : State) (n g : Nat) (v : Vec) (fs : List FailCmp) (an : Anchor) :
    (s.mapFails n g v fs).anchor an = s.anchor an :=
  foldl_anchor _ _ _ _ fun s f => by cases s.cellOf n g v f <;> simp

@[simp] theorem State.backlogLevel_anchor (s : State) (an : Anchor) : (State.backlogLevel s).anchor an = s.anchor an
    := by
  simp only [State.backlogLevel]
  (repeat' split) <;> simp [RQ_STATUS.BACKLOG, RQ_STATUS.addr]

@[simp] theorem State.spillBytes_anchor (s : State) (an : Anchor) : (State.spillBytes s).anchor an = s.anchor an :=
  State.anchor_congr rfl rfl

@[simp] theorem State.spillGo_anchor (x1 : Nat) (x2 : State) (an : Anchor) : (State.spillGo x1 x2).anchor an =
    x2.anchor an := by
  fun_induction State.spillGo x1 x2 <;> simp_all +zetaDelta

@[simp] theorem State.spillTo_anchor (s : State) (t : Nat) (an : Anchor) : (State.spillTo s t).anchor an = s.anchor an
    := by
  simp [State.spillTo]

@[simp] theorem State.losePush_anchor (s : State) (n : Nat) (p : Push) (an : Anchor) : (State.losePush s n p).anchor
    an = s.anchor an := by
  simp only [State.losePush]
  (repeat' split) <;> simp [RQ_RING_LOST.COUNT, RQ_RING_LOST.addr, RQ_RING_STATUS.LOST, RQ_RING_STATUS.addr]

@[simp] theorem State.enterPush_anchor (s : State) (n : Nat) (p : Push) (an : Anchor) : (State.enterPush s n p).anchor
    an = s.anchor an := by
  simp [State.enterPush, RQ_RING_PUSH.COUNT, RQ_RING_PUSH.addr]

@[simp] theorem State.rqPush_anchor (s : State) (n : Nat) (g : Nat) (v : Vec) (fs : List FailCmp) (an : Anchor) :
    (State.rqPush s n g v fs).anchor an = s.anchor an := by
  simp [State.rqPush]

@[simp] theorem State.roundTo_anchor (s : State) (num : Int) (den : Nat) (an : Anchor) : (State.roundTo s num
    den).2.anchor an = s.anchor an := by
  simp [State.roundTo]

@[simp] theorem State.tdcBegin_anchor (s : State) (c : Nat) (an : Anchor) : (State.tdcBegin s c).anchor an = s.anchor
    an :=
  State.anchor_congr rfl rfl

@[simp] theorem State.tdcAbort_anchor (c : Nat) (s : State) (an : Anchor) : (State.tdcAbort c s).anchor an = s.anchor
    an := by
  simp [State.tdcAbort, PIN_TDC_STATUS.ABORTED, PIN_TDC_STATUS.BUSY, PIN_TDC_STATUS.DONE, PIN_TDC_STATUS.STALE,
    PIN_TDC_STATUS.START_VALID, PIN_TDC_STATUS.STOP_VALID, PIN_TDC_STATUS.addr]

@[simp] theorem State.tdcAbortAll_anchor (s : State) (an : Anchor) : (State.tdcAbortAll s).anchor an = s.anchor an :=
    by
  simp [State.tdcAbortAll]

@[simp] theorem State.tdcTake_anchor (s : State) (an : Anchor) : s.tdcTake.anchor an = s.anchor an :=
  State.each_anchor _ _ _ _ fun c s => by simp [PIN_TDC_STATUS.STALE, PIN_TDC_STATUS.addr]

@[simp] theorem State.tdcRelease_anchor (s : State) (an : Anchor) : s.tdcRelease.anchor an = s.anchor an :=
  State.each_anchor _ _ _ _ fun c s => by simp [PIN_TDC_STATUS.STALE, PIN_TDC_STATUS.addr]

@[simp] theorem State.streamFill_anchor (s : State) (i : Nat) (an : Anchor) : (State.streamFill s i).anchor an =
    s.anchor an := by
  simp [State.streamFill, ACQ_STREAM_FILL.VALUE, ACQ_STREAM_FILL.addr, ACQ_STREAM_STATUS.GAP_OPEN,
    ACQ_STREAM_STATUS.addr]

@[simp] theorem State.loseRec_anchor (s : State) (i : Nat) (r : StreamRec) (cause : Nat) (an : Anchor) :
    (State.loseRec s i r cause).anchor an = s.anchor an := by
  simp [State.loseRec, ACQ_STREAM_LOST_LO.addr, Nat.le_add_right_of_le]

@[simp] theorem State.complete_anchor (s : State) (i : Nat) (r : StreamRec) (an : Anchor) : (State.complete s i
    r).anchor an = s.anchor an := by
  simp [State.complete]

@[simp] theorem State.armWindow_anchor (s : State) (i : Nat) (a : Nat) (src : Nat) (an : Anchor) : (State.armWindow s
    i a src).anchor an = s.anchor an := by
  simp [State.armWindow, ACQ_STREAM_STATUS.OVERLAP, ACQ_STREAM_STATUS.addr]

@[simp] theorem State.trigMarks_anchor (s : State) (k : Nat) (t : Nat) (flags : Nat) (act : Nat) (chan : Nat) (cycle :
    Nat) (an : Anchor) : (State.trigMarks s k t flags act chan cycle).anchor an = s.anchor an := by
  simp [State.trigMarks]

@[simp] theorem State.streamsTake_anchor (s : State) (c : Nat) (an : Anchor) : (State.streamsTake s c).anchor an =
    s.anchor an :=
  State.anchor_congr rfl rfl

@[simp] theorem State.streamsRelease_anchor (s : State) (c : Nat) (an : Anchor) : (State.streamsRelease s c).anchor an
    = s.anchor an :=
  State.anchor_congr rfl rfl

@[simp] theorem State.streamsEnd_anchor (s : State) (an : Anchor) : s.streamsEnd.anchor an = s.anchor an := by
  rw [State.streamsEnd, State.withStreams_anchor]
  exact State.each_anchor _ _ _ _ fun i s => by
    simp [ACQ_STREAM_CTRL.EN, ACQ_STREAM_CTRL.addr, ACQ_STREAM_FILL.VALUE, ACQ_STREAM_FILL.addr,
      ACQ_STREAM_STATUS.GAP_OPEN, ACQ_STREAM_STATUS.HOST_FULL, ACQ_STREAM_STATUS.addr]

@[simp] theorem State.trigReset_anchor (s : State) (k : Nat) (an : Anchor) : (State.trigReset s k).anchor an =
    s.anchor an := by
  simp [State.trigReset, ACQ_TRIG_STATUS.COUNT, ACQ_TRIG_STATUS.STAGE, ACQ_TRIG_STATUS.addr]

@[simp] theorem State.trigDisarm_anchor (k : Nat) (s : State) (an : Anchor) : (State.trigDisarm k s).anchor an =
    s.anchor an := by
  simp [State.trigDisarm, ACQ_TRIG_STATUS.ARMED, ACQ_TRIG_STATUS.addr]

@[simp] theorem State.trigDisarmAll_anchor (s : State) (an : Anchor) : (State.trigDisarmAll s).anchor an = s.anchor an
    := by
  simp [State.trigDisarmAll]

@[simp] theorem State.trigTime_anchor (s : State) (k : Nat) (c : Nat) (rise : Bool) (tL : Option Int) (tH : Option
    Int) (sample : Int) (an : Anchor) : (State.trigTime s k c rise tL tH sample).2.2.anchor an = s.anchor an := by
  simp only [State.trigTime]
  (repeat' split) <;> simp

@[simp] theorem State.trigFire_anchor (s : State) (k : Nat) (j : Nat) (n : Nat) (xs : List (Prod Nat Nat)) (t : Int)
    (cyc : Nat) (an : Anchor) : (State.trigFire s k j n xs t cyc).anchor an = s.anchor an := by
  simp only [State.trigFire]
  (repeat' split) <;> simp [ACQ_TRIG_FIRES.VALUE, ACQ_TRIG_FIRES.addr, ACQ_TRIG_STATUS.ARMED, ACQ_TRIG_STATUS.FIRED,
    ACQ_TRIG_STATUS.addr, ACQ_TRIG_TIME_LO.addr, Nat.le_add_right_of_le]

@[simp] theorem State.stageLimit_anchor (s : State) (k : Nat) (t : Int) (an : Anchor) : (State.stageLimit s k
    t).anchor an = s.anchor an := by
  simp [State.stageLimit, ACQ_TRIG_TIMEOUTS.VALUE, ACQ_TRIG_TIMEOUTS.addr]

@[simp] theorem State.trigSample_anchor (s : State) (k : Nat) (n : Nat) (xs : List (Prod Nat Nat)) (ts : List (Prod
    Nat Int)) (cyc : Nat) (an : Anchor) : (State.trigSample s k n xs ts cyc).anchor an = s.anchor an := by
  simp only [State.trigSample]
  (repeat' split) <;> simp [ACQ_TRIG_STATUS.COUNT, ACQ_TRIG_STATUS.STAGE, ACQ_TRIG_STATUS.addr]

@[simp] theorem State.trigVector_anchor (s : State) (n : Nat) (f : Flight) (an : Anchor) : (State.trigVector s n
    f).anchor an = s.anchor an := by
  simp [State.trigVector]

@[simp] theorem State.dropBursts_anchor (s : State) (st : Nat) (ui : Nat) (an : Anchor) : (State.dropBursts s st
    ui).anchor an = s.anchor an := by
  simp [State.dropBursts]

@[simp] theorem State.ask_anchor (s : State) (d : Nat) (t : Nat) (what : Nat) (an : Anchor) : (State.ask s d t
    what).anchor an = s.anchor an :=
  State.anchor_congr rfl rfl

@[simp] theorem State.tdcSync_anchor (s : State) (c : Nat) (was : Bool) (an : Anchor) : (State.tdcSync s c was).anchor
    an = s.anchor an := by
  simp [State.tdcSync]

@[simp] theorem State.setPass_anchor (s : State) (d : Nat) (p : PassSt) (an : Anchor) : (State.setPass s d p).anchor
    an = s.anchor an := by
  simp [State.setPass]

@[simp] theorem State.passLend_anchor (s : State) (d : Nat) (lent : Bool) (an : Anchor) : (State.passLend s d
    lent).anchor an = s.anchor an := by
  simp only [State.passLend]
  (repeat' split) <;> simp

@[simp] theorem State.passIdle_anchor (d : Nat) (s : State) (an : Anchor) : (State.passIdle d s).anchor an = s.anchor
    an := by
  simp only [State.passIdle]
  (repeat' split) <;> simp

@[simp] theorem State.passOver_anchor (s : State) (d : Nat) (c : Nat) (an : Anchor) : (State.passOver s d c).anchor an
    = s.anchor an := by
  simp [State.passOver, CAL_STATUS.LIVE_BUSY, CAL_STATUS.addr, PIN_PPMU_MEAS.STALE, PIN_PPMU_MEAS.addr,
    PIN_STATUS.STALE, PIN_STATUS.addr]

@[simp] theorem State.passDrop_anchor (d : Nat) (s : State) (an : Anchor) : (State.passDrop d s).anchor an = s.anchor
    an := by
  simp only [State.passDrop]
  (repeat' split) <;> simp

@[simp] theorem State.passesDrop_anchor (s : State) (an : Anchor) : (State.passesDrop s).anchor an = s.anchor an := by
  simp [State.passesDrop]

@[simp] theorem State.fullAbort_anchor (s : State) (an : Anchor) : (State.fullAbort s).anchor an = s.anchor an := by
  simp only [State.fullAbort]
  (repeat' split) <;> simp [CAL_STATUS.FULL_BUSY, CAL_STATUS.FULL_RESULT, CAL_STATUS.addr]

@[simp] theorem State.stagedDrop_anchor (s : State) (an : Anchor) : s.stagedDrop.anchor an = s.anchor an := by
  rw [State.stagedDrop, State.withCal_anchor, State.put_anchor _ _ _ (by simp [CAL_STATUS.PENDING, CAL_STATUS.addr])]
  exact State.each_anchor _ _ _ _ fun c s => by
    split <;> simp [PIN_QUALITY_STAT.ELIGIBLE, PIN_QUALITY_STAT.addr]

@[simp] theorem State.calEnd_anchor (s : State) (an : Anchor) : (State.calEnd s).anchor an = s.anchor an := by
  simp [State.calEnd]

@[simp] theorem State.setPin_anchor (s : State) (d : Nat) (cyc : Nat) (f : PinVec → PinVec) (an : Anchor) :
    (State.setPin s d cyc f).anchor an = s.anchor an :=
  State.anchor_congr rfl rfl

@[simp] theorem State.joinResults_anchor (s : State) (n : Nat) (d : Nat) (p : PinVec) (due : List (Prod Nat Nat)) (res
    : List (Prod Nat Nat)) (whole : Bool) (an : Anchor) : (State.joinResults s n d p due res whole).anchor an =
    s.anchor an :=
  State.anchor_congr rfl rfl

@[simp] theorem State.setWord_anchor (s : State) (g : Nat) (i : Nat) (an : Anchor) : (State.setWord s g i).anchor an =
    s.anchor an := by
  simp [State.setWord]

@[simp] theorem State.mapEcc_anchor (s : State) (n : Nat) (g : Nat) (v : Vec) (fs : List FailCmp) (ue : Bool) (an :
    Anchor) : (State.mapEcc s n g v fs ue).1.anchor an = s.anchor an := by
  simp only [State.mapEcc]
  (repeat' split) <;> simp

@[simp] theorem State.countRing_anchor (s : State) (n : Nat) (g : Nat) (fs : List FailCmp) (an : Anchor) :
    (State.countRing s n g fs).anchor an = s.anchor an := by
  simp [State.countRing, FAIL_COUNT_LO.addr, Nat.le_add_right_of_le]

@[simp] theorem State.markRing_anchor (s : State) (g : Nat) (fs : List FailCmp) (unm : Bool) (an : Anchor) :
    (State.markRing s g fs unm).anchor an = s.anchor an := by
  simp [State.markRing, FAIL_STATUS.LINK_ERR, FAIL_STATUS.MISSING, FAIL_STATUS.UNMAPPED, FAIL_STATUS.addr]

@[simp] theorem State.recordFails_anchor (s : State) (n : Nat) (g : Nat) (v : Vec) (fs : List FailCmp) (ue : Bool) (an
    : Anchor) : (State.recordFails s n g v fs ue).1.anchor an = s.anchor an := by
  simp [State.recordFails]

@[simp] theorem State.recordRing_anchor (s : State) (n : Nat) (g : Nat) (v : Vec) (fs : List FailCmp) (ue : Bool) (an
    : Anchor) : (State.recordRing s n g v fs ue).1.anchor an = s.anchor an := by
  simp [State.recordRing]

@[simp] theorem State.trialResult_anchor (s : State) (n : Nat) (i : Nat) (f : Flight) (an : Anchor) :
    (State.trialResult s n i f).anchor an = s.anchor an := by
  simp only [State.trialResult]
  (repeat' split) <;> simp

@[simp] theorem State.recordRings_anchor (n : Nat) (v : Vec) (fs : List FailCmp) (x1 : List Nat) (x2 : Prod State
    Bool) (an : Anchor) : (State.recordRings n v fs x1 x2).1.anchor an = x2.1.anchor an := by
  fun_induction State.recordRings n v fs x1 x2 <;> simp_all +zetaDelta

@[simp] theorem State.processVec_anchor (s : State) (n : Nat) (f : Flight) (ue : Bool) (an : Anchor) :
    (State.processVec s n f ue).1.anchor an = s.anchor an := by
  simp only [State.processVec]
  (repeat' split) <;> simp

@[simp] theorem State.processLine_anchor (n : Nat) (x1 : Nat) (x2 : Prod State Bool) (an : Anchor) :
    (State.processLine n x1 x2).1.anchor an = x2.1.anchor an := by
  fun_induction State.processLine n x1 x2 <;> simp_all +zetaDelta

@[simp] theorem State.returnResults_anchor (s : State) (n : Nat) (d : Nat) (p : PinVec) (sel : Nat → Bool) (ok : Bool)
    (ue : Bool) (an : Anchor) : (State.returnResults s n d p sel ok ue).1.anchor an = s.anchor an := by
  simp [State.returnResults]

@[simp] theorem State.flushPushes_anchor (s : State) (an : Anchor) : (State.flushPushes s).anchor an = s.anchor an :=
    by
  simp [State.flushPushes]

@[simp] theorem State.leaveRun_anchor (s : State) (an : Anchor) : (State.leaveRun s).anchor an = s.anchor an := by
  simp [State.leaveRun]

@[simp] theorem State.actCleared_anchor (s : State) (n : Nat) (an : Anchor) : (State.actCleared s n).anchor an =
    s.anchor an :=
  State.anchor_congr rfl rfl

@[simp] theorem State.stopReport_anchor (s : State) (n : Nat) (t : Nat) (c : Nat) (reason : Nat) (an : Anchor) :
    (State.stopReport s n t c reason).anchor an = s.anchor an := by
  simp [State.stopReport]

@[simp] theorem State.flushEvts_anchor (d : Nat) (s : State) (an : Anchor) : (State.flushEvts d s).anchor an =
    s.anchor an := by
  simp [State.flushEvts]

@[simp] theorem State.actStop_anchor (s : State) (n : Nat) (t : Nat) (c : Nat) (reason : Nat) (an : Anchor) :
    (State.actStop s n t c reason).anchor an = s.anchor an := by
  simp [State.actStop]

@[simp] theorem State.drainDie_anchor (n : Nat) (d : Nat) (s : State) (an : Anchor) : (State.drainDie n d s).anchor an
    = s.anchor an := by
  simp [State.drainDie]

@[simp] theorem State.drainLine_anchor (n : Nat) (x1 : Nat) (x2 : State) (an : Anchor) : (State.drainLine n x1
    x2).anchor an = x2.anchor an := by
  fun_induction State.drainLine n x1 x2 <;> simp_all +zetaDelta

@[simp] theorem State.stopNow_anchor (reason : Nat) (n : Nat) (s : State) (an : Anchor) : (State.stopNow reason n
    s).anchor an = s.anchor an := by
  simp only [State.stopNow]
  (repeat' split) <;> simp

@[simp] theorem State.stopAll_anchor (s : State) (reason : Nat) (an : Anchor) : (State.stopAll s reason).anchor an =
    s.anchor an := by
  simp [State.stopAll]

@[simp] theorem State.tear_anchor (s : State) (a : Nat) (bs : List Byte) (an : Anchor) : (State.tear s a bs).anchor an
    = s.anchor an :=
  State.anchor_congr rfl rfl

@[simp] theorem State.setSlot_anchor (s : State) (k : Nat) (reason : Nat) (an : Anchor) : (State.setSlot s k
    reason).anchor an = s.anchor an := by
  simp [State.setSlot, NVM_SLOT.REASON_A, NVM_SLOT.REASON_B, NVM_SLOT.VALID_A, NVM_SLOT.VALID_B, NVM_SLOT.addr]

@[simp] theorem State.freeBytes_anchor (x1 : Nat) (x2 : State) (an : Anchor) : (State.freeBytes x1 x2).2.anchor an =
    x2.anchor an := by
  fun_induction State.freeBytes x1 x2 <;> simp_all +zetaDelta

@[simp] theorem State.persistPage_anchor (s : State) (evts : List EvtRec) (an : Anchor) : (State.persistPage s
    evts).2.anchor an = s.anchor an := by
  simp [State.persistPage]

@[simp] theorem State.startPersist_anchor (s : State) (an : Anchor) : (State.startPersist s).anchor an = s.anchor an
    := by
  simp [State.startPersist]

@[simp] theorem State.nvmFlags_anchor (s : State) (an : Anchor) : (State.nvmFlags s).anchor an = s.anchor an := by
  simp [State.nvmFlags, NVM_STATUS.HOLDUP_LOW, NVM_STATUS.PENDING, NVM_STATUS.TEMP_HIGH, NVM_STATUS.addr]

@[simp] theorem State.persistKick_anchor (s : State) (an : Anchor) : (State.persistKick s).anchor an = s.anchor an :=
    by
  simp [State.persistKick]

@[simp] theorem State.cmdKick_anchor (s : State) (an : Anchor) : (State.cmdKick s).anchor an = s.anchor an := by
  simp only [State.cmdKick]
  (repeat' split) <;> simp

@[simp] theorem State.nvmKick_anchor (s : State) (an : Anchor) : (State.nvmKick s).anchor an = s.anchor an := by
  simp only [State.nvmKick]
  (repeat' split) <;> simp

@[simp] theorem State.nvmSoil_anchor (s : State) (op : Nat) (addr : Nat) (len : Nat) (slot : Nat) (an : Anchor) :
    (State.nvmSoil s op addr len slot).anchor an = s.anchor an := by
  simp [State.nvmSoil]

@[simp] theorem State.nvmBegin_anchor (s : State) (j : NvmJob) (an : Anchor) : (State.nvmBegin s j).anchor an =
    s.anchor an := by
  simp [State.nvmBegin, NVM_STATUS.BUSY, NVM_STATUS.DONE, NVM_STATUS.LAST_OP, NVM_STATUS.addr]

@[simp] theorem State.nvmCommand_anchor (s : State) (op : Nat) (addr : Nat) (len : Nat) (slot : Nat) (src : NvmSrc)
    (signed_ : Bool) (an : Anchor) : (State.nvmCommand s op addr len slot src signed_).anchor an = s.anchor an := by
  simp only [State.nvmCommand]
  (repeat' split) <;> simp [NVM_STATUS.DONE, NVM_STATUS.LAST_OP, NVM_STATUS.RESULT, NVM_STATUS.addr]

@[simp] theorem State.nvmStep_anchor (s : State) (op : Nat) (addr : Nat) (left : Nat) (host : Nat) (data : List Byte)
    (q : Nat) (id : Nat) (an : Anchor) : (State.nvmStep s op addr left host data q id).anchor an = s.anchor an := by
  simp only [State.nvmStep]
  (repeat' split) <;> simp

@[simp] theorem State.nvmEnd_anchor (s : State) (j : NvmJob) (r : Nat) (an : Anchor) : (State.nvmEnd s j r).anchor an
    = s.anchor an := by
  simp only [State.nvmEnd]
  (repeat' split) <;> simp [LC_TOKEN_STATUS.BUSY, LC_TOKEN_STATUS.addr, NVM_STATUS.BUSY, NVM_STATUS.RESULT,
    NVM_STATUS.addr]

@[simp] theorem State.persistOn_anchor (s : State) (an : Anchor) : (State.persistOn s).anchor an = s.anchor an :=
  State.anchor_congr rfl rfl

@[simp] theorem State.tearUnit_anchor (s : State) (an : Anchor) : (State.tearUnit s).anchor an = s.anchor an := by
  simp only [State.tearUnit]
  (repeat' split) <;> simp

@[simp] theorem State.dropErase_anchor (s : State) (an : Anchor) : (State.dropErase s).anchor an = s.anchor an := by
  simp only [State.dropErase]
  (repeat' split) <;> simp

@[simp] theorem State.endService_anchor (s : State) (an : Anchor) : (State.endService s).anchor an = s.anchor an := by
  simp [State.endService]

@[simp] theorem State.keepSample_anchor (s : State) (ts : List (BitVec 16)) (an : Anchor) : (State.keepSample s
    ts).anchor an = s.anchor an := by
  simp [State.keepSample]

end Sys2Proof.Machine
end

section
/-! SUPPORT. What the end of a mode leaves of the mode itself. -/

namespace Sys2Proof.Machine

/-- A mode that the acts do not change: IDLE and RUN take turns as acts start and stop, and CAL is of their kind. -/
def Mode.still : Mode → Option Mode
  | .idle | .run | .cal => none
  | m => some m

theorem Mode.eq_of_still {m n : Mode} (h : m.still = n.still) (hn : n.still ≠ none) : m = n := by
  cases m <;> cases n <;> simp_all [Mode.still]

@[simp] theorem ite_still (c : Prop) [Decidable c] (m n : Mode) :
    (if c then m else n).still = if c then m.still else n.still :=
  apply_ite Mode.still c m n

@[simp] theorem foldl_still {α : Type} (f : State → α → State) (l : List α) (s : State)
    (h : ∀ s x, ((f s x).rd .mode).still = (s.rd .mode).still) : ((l.foldl f s).rd .mode).still = (s.rd .mode).still := by
  induction l generalizing s with
  | nil => rfl
  | cons x l ih => rw [List.foldl_cons, ih, h]

@[simp] theorem State.each_still (f : Nat → State → State) (l : List Nat) (s : State)
    (h : ∀ n s, ((f n s).rd .mode).still = (s.rd .mode).still) : ((State.each f l s).rd .mode).still = (s.rd .mode).still :=
  State.each_keep (fun s => (s.rd .mode).still) f h l s

@[simp] theorem State.setMode_mode_rd (s : State) (m : Mode) : (s.setMode m).rd .mode = m := s.setMode_mode m

/-- IDLE, RUN and CAL take turns: none of them is followed. -/
theorem State.setMode_still {s : State} {m : Mode} (hs : (s.rd .mode).still = none) (hm : m.still = none) :
    ((s.setMode m).rd .mode).still = (s.rd .mode).still := by
  rw [State.setMode_mode_rd, hm, hs]

/-- An act released out of IDLE. -/
theorem State.toRun_still (s : State) :
    ((if s.mode = .idle then s.setMode .run else s).rd .mode).still = (s.rd .mode).still := by
  split
  next h => exact State.setMode_still (by rw [← State.rd_mode, h]; rfl) rfl
  next => rfl

@[simp] theorem State.release_still (s : State) (n : Nat) (t : Option Nat) :
    ((s.release n t).rd .mode).still = (s.rd .mode).still := by
  simp only [State.release, State.toRun_still]
  simp

@[simp] theorem State.leaveRun_still (s : State) : (s.leaveRun.rd .mode).still = (s.rd .mode).still := by
  rw [State.leaveRun]
  split
  next h =>
    rw [State.switchAll_frame]
    exact State.setMode_still (by rw [← State.rd_mode, h.1]; rfl) rfl
  next => rfl

@[simp] theorem State.startAct_still (r : StartReq) (n : Nat) (s : State) : ((State.startAct r n s).rd .mode).still =
    (s.rd .mode).still := by
  simp [State.startAct]

@[simp] theorem State.whistleStart_still (sh : Nat) (t : Nat) (n : Nat) (s : State) : ((State.whistleStart sh t n
    s).rd .mode).still = (s.rd .mode).still := by
  simp [State.whistleStart]

@[simp] theorem State.deliverTo_still (s : State) (kind : Nat) (sh : Nat) (t : Nat) (cue : Nat) (ns : List Nat) :
    ((State.deliverTo s kind sh t cue ns).rd .mode).still = (s.rd .mode).still := by
  simp only [State.deliverTo]
  (repeat' split) <;> simp

@[simp] theorem State.deliver_still (s : State) (kind : Nat) (sh : Nat) (t : Nat) (cue : Nat) : ((State.deliver s kind
    sh t cue).rd .mode).still = (s.rd .mode).still := by
  simp [State.deliver]

@[simp] theorem State.ringWhistle_still (s : State) (n : Nat) (g : Nat) (F : Nat) (kind : Nat) (stops : Bool) :
    ((State.ringWhistle s n g F kind stops).rd .mode).still = (s.rd .mode).still := by
  simp only [State.ringWhistle]
  (repeat' split) <;> simp

@[simp] theorem State.ringAction_still (s : State) (n : Nat) (g : Nat) (F : Nat) : ((State.ringAction s n g F).1.rd
    .mode).still = (s.rd .mode).still := by
  simp [State.ringAction]

@[simp] theorem State.recordFails_still (s : State) (n : Nat) (g : Nat) (v : Vec) (fs : List FailCmp) (ue : Bool) :
    ((State.recordFails s n g v fs ue).1.rd .mode).still = (s.rd .mode).still := by
  simp [State.recordFails]

@[simp] theorem State.recordRing_still (s : State) (n : Nat) (g : Nat) (v : Vec) (fs : List FailCmp) (ue : Bool) :
    ((State.recordRing s n g v fs ue).1.rd .mode).still = (s.rd .mode).still := by
  simp [State.recordRing]

@[simp] theorem State.recordRings_still (n : Nat) (v : Vec) (fs : List FailCmp) (x1 : List Nat) (x2 : Prod State Bool)
    : ((State.recordRings n v fs x1 x2).1.rd .mode).still = (x2.1.rd .mode).still := by
  fun_induction State.recordRings n v fs x1 x2 <;> simp_all +zetaDelta

@[simp] theorem State.processVec_still (s : State) (n : Nat) (f : Flight) (ue : Bool) : ((State.processVec s n f
    ue).1.rd .mode).still = (s.rd .mode).still := by
  simp only [State.processVec]
  (repeat' split) <;> simp

@[simp] theorem State.processLine_still (n : Nat) (x1 : Nat) (x2 : Prod State Bool) : ((State.processLine n x1
    x2).1.rd .mode).still = (x2.1.rd .mode).still := by
  fun_induction State.processLine n x1 x2 <;> simp_all +zetaDelta

@[simp] theorem State.returnResults_still (s : State) (n : Nat) (d : Nat) (p : PinVec) (sel : Nat → Bool) (ok : Bool)
    (ue : Bool) : ((State.returnResults s n d p sel ok ue).1.rd .mode).still = (s.rd .mode).still := by
  simp [State.returnResults]

@[simp] theorem State.actStop_still (s : State) (n : Nat) (t : Nat) (c : Nat) (reason : Nat) : ((State.actStop s n t c
    reason).rd .mode).still = (s.rd .mode).still := by
  simp [State.actStop]

@[simp] theorem State.drainDie_still (n : Nat) (d : Nat) (s : State) : ((State.drainDie n d s).rd .mode).still = (s.rd
    .mode).still := by
  simp [State.drainDie]

@[simp] theorem State.drainLine_still (n : Nat) (x1 : Nat) (x2 : State) : ((State.drainLine n x1 x2).rd .mode).still =
    (x2.rd .mode).still := by
  fun_induction State.drainLine n x1 x2 <;> simp_all +zetaDelta

@[simp] theorem State.stopNow_still (reason : Nat) (n : Nat) (s : State) : ((State.stopNow reason n s).rd .mode).still
    = (s.rd .mode).still := by
  simp only [State.stopNow]
  (repeat' split) <;> simp

@[simp] theorem State.stopAll_still (s : State) (reason : Nat) : ((State.stopAll s reason).rd .mode).still = (s.rd
    .mode).still := by
  simp [State.stopAll]

@[simp] theorem State.endService_still (s : State) : ((State.endService s).rd .mode).still = (s.rd .mode).still := by
  simp [State.endService]

end Sys2Proof.Machine
end

section
/-! PROOF. EN low, PFAIL and the end of shedding lead to OFF (O14). -/

namespace Sys2Proof.Machine

/-! ## The mode and the wires -/

/-- The end of service leaves a mode that the acts do not change. -/
theorem State.endService_mode {s : State} {m : Mode} (h : s.rd .mode = m) (hm : m.still ≠ none) :
    s.endService.rd .mode = m :=
  Mode.eq_of_still (by rw [State.endService_still, h]) hm

theorem State.en_wires (s : State) : s.pins.en = (s.anchor .wires).en := by cases s; rfl

theorem State.dramAt_of_empty {s : State} (h : s.dram = []) (a : Nat) : s.dramAt a = 0 := by
  rw [State.dramAt, h]
  rfl

theorem State.bankAt_of_empty {s : State} (h : s.banks = []) (a : Nat) : s.bankAt a = 0 := by
  rw [State.bankAt, h]
  rfl

/-! ## The supply domains -/

@[simp] theorem State.discipline_anchor (s : State) (an : Anchor) : s.discipline.anchor an = s.anchor an := by
  simp only [State.discipline]
  split <;> simp [CLK_OCXO_TRIM.TRIM, CLK_OCXO_TRIM.addr]

theorem State.domainsOff_wires (s : State) : s.domainsOff.anchor .wires = s.anchor .wires := by
  rw [State.domainsOff, ← State.discipline_anchor s .wires]
  generalize s.discipline = u
  rfl

theorem State.domainsOff_dram (s : State) : s.domainsOff.rd .dram = [] := by
  simp only [State.domainsOff, State.put_frame]
  rfl

theorem State.domainsOff_banks (s : State) : s.domainsOff.rd .banks = [] := by
  simp only [State.domainsOff, State.put_frame]
  rfl

/-! ## Shedding -/

@[simp] theorem State.withShed_rd (s : State) (v : Option Shed) : (s.withShed v).rd .shed = v := rfl

/-- The state in which a shedding sequence with one persist page has the domains switched off: in OFF, service ended. -/
def State.shedFrom (s : State) (why : Shed) : State :=
  ((((((s.setMode .off).put SYS_STATUS.TRANSIT 1).endService).withShed (some why)).persistDue.dropErase).domainsOff).persistKick

/-- What is left where service has ended and the domains are off. -/
theorem State.shedFrom_keeps (s : State) (why : Shed) :
    (s.shedFrom why).mode = .off ∧ (s.shedFrom why).shed = some why ∧ (s.shedFrom why).pins.en = s.pins.en ∧
      (∀ a, (s.shedFrom why).dramAt a = 0) ∧ (∀ a, (s.shedFrom why).bankAt a = 0) ∧ (s.shedFrom why).otp = s.otp ∧
      (s.shedFrom why).pending = s.pending := by
  have hmode : (((s.setMode .off).put SYS_STATUS.TRANSIT 1).endService).rd .mode = .off :=
    State.endService_mode (by simp) (Option.some_ne_none _)
  refine ⟨?_, ?_, ?_, State.dramAt_of_empty ?_, State.bankAt_of_empty ?_, ?_, ?_⟩
  · rw [State.rd_mode]
    simp [State.shedFrom, hmode]
  · rw [State.rd_shed]
    simp [State.shedFrom]
  · rw [State.en_wires, State.en_wires]
    simp [State.shedFrom, State.domainsOff_wires]
  · rw [State.rd_dram]
    simp [State.shedFrom, State.domainsOff_dram]
  · rw [State.rd_banks]
    simp [State.shedFrom, State.domainsOff_banks]
  · rw [State.rd_otp, State.rd_otp]
    simp [State.shedFrom]
  · rw [State.rd_pending, State.rd_pending]
    simp [State.shedFrom]

theorem State.shedding_enOff {s : State} (h : s.mode ≠ .off) : s.shedding .enOff = (s.event 0 4).shedFrom .enOff := by
  unfold State.shedding
  split
  next ho => exact absurd ho h
  next => rfl

theorem State.shedding_pfail {s : State} (h : s.mode ≠ .off) : s.shedding .pfail = (s.event 2 1).shedFrom .pfail := by
  unfold State.shedding
  split
  next ho => exact absurd ho h
  next => rfl

/-! ## The end of shedding -/

theorem State.off_reg (s : State) (a : Nat) : s.off.reg a = regReset a := rfl

/-- Settles O14: the end of service leaves the mode OFF and the wires; the domains that go off take the DRAM and the banks
with them. -/
theorem sheddingEndsInOff : Obligations.SheddingEndsInOff := by
  unfold Obligations.SheddingEndsInOff
  refine ⟨fun s h => ?_, fun s h => ?_, fun s hs hu => ?_, fun s hs hu => ?_, fun s hs => ?_⟩
  · obtain ⟨hmode, hshed, hen, hdram, hbanks, hotp, hpend⟩ :=
      State.shedFrom_keeps ((s.withPins { s.pins with en := false }).event 0 4) .enOff
    refine ⟨_, ?_, hmode, hshed, hen.trans ?_, hdram, hbanks, hotp.trans ?_, hpend.trans ?_⟩
    · rw [exec_enOff, execEnOff, State.shedding_enOff (by exact h)]
    · rw [State.en_wires, State.event_anchor]
      rfl
    · rw [State.rd_otp, State.rd_otp]
      simp
    · rw [State.rd_pending, State.rd_pending]
      simp
  · obtain ⟨hmode, hshed, -, hdram, hbanks, hotp, hpend⟩ := State.shedFrom_keeps (s.event 2 1) .pfail
    refine ⟨_, ?_, hmode, hshed, hdram, hbanks, hotp.trans ?_, hpend.trans ?_⟩
    · rw [exec_pfail, execPfail, State.shedding_pfail h]
    · rw [State.rd_otp, State.rd_otp]
      simp
    · rw [State.rd_pending, State.rd_pending]
      simp
  · refine ⟨s.off, ?_, rfl, rfl, s.off_reg, fun a => ⟨rfl, rfl, rfl, rfl⟩, rfl, rfl, rfl, rfl⟩
    rw [exec_offEntry, execOffEntry, if_pos ⟨hs, hu⟩]
  · rw [exec_offEntry, execOffEntry, if_neg fun h => hu h.2]
  · refine ⟨s.tearUnit.off, ?_, rfl, rfl, State.off_reg _, rfl, ?_, ?_⟩
    · rw [exec_holdupExhausted, execHoldupExhausted, if_pos hs]
    · exact s.tearUnit_frame .otp
    · exact s.tearUnit_frame .pending

end Sys2Proof.Machine
end

section
/-! PROOF. Fatal faults, rail faults, clock loss and the watchdog end in SAFE (O13). -/

namespace Sys2Proof.Machine

/-! ## A register of SYS through the end of service -/

/-- An entry whose key is kept reads the same from a table that is filtered by key. -/
theorem Tab.get_filter_key {α : Type} {d : Nat → α} {p : Nat → Bool} (t : Tab α) {k : Nat} (hk : p k = true) :
    Tab.get d (t.filter fun e => p e.1) k = Tab.get d t k := by
  induction t with
  | nil => rfl
  | cons e t ih =>
    obtain ⟨j, v⟩ := e
    by_cases hj : k = j
    · subst hj
      simp [hk, Tab.get]
    · by_cases hp : p j = true <;> simp [hp, Tab.get, hj, ih]

theorem State.coreOff_reg (s : State) {a : Nat} (h : a < 0xA0000) : s.coreOff.reg a = s.reg a :=
  Tab.get_filter_key (p := fun b => decide (b < 0xA0000)) s.regs (decide_eq_true h)

@[simp] theorem State.coreOff_anchor (s : State) (an : Anchor) : s.coreOff.anchor an = s.anchor an :=
  State.anchor_of (s := s) (t := s.coreOff) rfl
    (fun _ h => s.coreOff_reg (Nat.lt_trans (of_decide_eq_true h).1 (by decide))) an

theorem State.coreOff_banks (s : State) : s.coreOff.rd .banks = [] := rfl

theorem State.fld_of_anchor {s t : State} {f : Field} (h : t.anchor (.sys f.addr) = s.anchor (.sys f.addr))
    (hs : sysReg f.addr = true) : t.fld f = s.fld f :=
  State.fld_congr (State.reg_of_anchor h hs)

theorem State.toNat_reg (s : State) (a : Nat) : (s.reg a).toNat = s.fld ⟨a, 0, 32⟩ := by
  rw [State.fld, bitsOf, pow_zero, Nat.div_one, Nat.mod_eq_of_lt (s.reg a).isLt]

/-- A field apart from TRANSIT keeps its value where TRANSIT is stored. -/
theorem State.fld_put_transit (s : State) (v : Nat) {f : Field} (h : f.addr ≠ SYS_STATUS.addr ∨ 1 ≤ f.lo) :
    (s.put SYS_STATUS.TRANSIT v).fld f = s.fld f := by
  by_cases ha : f.addr = SYS_STATUS.addr
  · exact State.fld_put_apart s v ha (by decide) (.inl (h.resolve_left (not_not_intro ha)))
  · exact State.fld_put_ne s v ha

/-! ## SAFE entered -/

/-- Service has ended in SAFE: the commands that SAFE does not take are aborted. -/
def State.safeServiceEnd (s : State) : State :=
  ((s.setMode .safe).put SYS_STATUS.TRANSIT 1).endService.abortCmds (fun c => !opcodeSafe c.opcode.toNat)

/-- The domain that SAFE does without is off, with the DRAM where it was not trained. -/
def State.safeDomain (s : State) : State :=
  if s.trained then s.safeServiceEnd.coreOff else s.safeServiceEnd.coreOff.withDram []

theorem State.safeEntry_eq (s : State) : s.safeEntry =
    (((((s.safeDomain.event 0 1 (s.safeDomain.reg SYS_FAULT_CODE.addr).toNat).sysIrq 0).bdIrq 0).persistDue.put
      SYS_STATUS.TRANSIT 0).put MEM_PATROL_STATUS.ACTIVE 0).persistKick := rfl

theorem State.safeServiceEnd_mode (s : State) : s.safeServiceEnd.rd .mode = .safe := by
  rw [State.safeServiceEnd, State.abortCmds_frame]
  exact State.endService_mode (by simp) (Option.some_ne_none _)

theorem State.safeEntry_mode (s : State) : s.safeEntry.mode = .safe := by
  rw [State.rd_mode, State.safeEntry_eq]
  simp [State.safeDomain, State.safeServiceEnd_mode]

/-- The banks of the domain that goes off are lost with it. -/
theorem State.safeEntry_bankAt (s : State) (a : Nat) : s.safeEntry.bankAt a = 0 := by
  refine State.bankAt_of_empty ?_ a
  rw [State.rd_banks, State.safeEntry_eq]
  simp [State.safeDomain, State.coreOff_banks]

/-- A register of SYS keeps its fields, but for TRANSIT, which is set and clear again. -/
theorem State.safeEntry_fld (s : State) {f : Field} (hs : sysReg f.addr = true)
    (hf : f.addr ≠ SYS_STATUS.addr ∨ 1 ≤ f.lo) : s.safeEntry.fld f = s.fld f := by
  have hfirst : ((s.setMode .safe).put SYS_STATUS.TRANSIT 1).fld f = s.fld f := by
    rw [State.fld_put_transit _ _ hf]
    exact State.fld_of_anchor (s.setMode_anchor .safe _) hs
  have hdomain : s.safeDomain.fld f = s.fld f := by
    rw [← hfirst]
    refine State.fld_of_anchor ?_ hs
    simp [State.safeDomain, State.safeServiceEnd]
  rw [State.safeEntry_eq, State.fld_of_anchor (State.persistKick_anchor _ _) hs,
    State.fld_of_anchor (State.put_anchor _ _ _ (by decide)) hs, State.fld_put_transit _ _ hf, ← hdomain]
  refine State.fld_of_anchor ?_ hs
  simp

/-! ## A fault recorded -/

/-- The fault is noted in SYS_FAULT, and in SYS_FAULT_CODE where that was 0 (R40). -/
def State.faultNoted (s : State) (code unit detail : Nat) : State :=
  if (s.put SYS_FAULT.SEEN (s.fld SYS_FAULT.SEEN ||| 2 ^ (code - 1))).fld SYS_FAULT_CODE.CODE = 0 then
    (s.put SYS_FAULT.SEEN (s.fld SYS_FAULT.SEEN ||| 2 ^ (code - 1))).setReg SYS_FAULT_CODE.addr
      (BitVec.ofNat 32 (code + 256 * unit + 65536 * detail))
  else s.put SYS_FAULT.SEEN (s.fld SYS_FAULT.SEEN ||| 2 ^ (code - 1))

theorem State.recordFault_eq (s : State) (code unit detail : Nat) : s.recordFault code unit detail =
    (((s.faultNoted code unit detail).event 0 2 (code + 256 * unit + 65536 * detail)).sysIrq 1).bdIrq 1 := rfl

theorem State.recordFault_anchor (s : State) (code unit detail : Nat) (an : Anchor) :
    (s.recordFault code unit detail).anchor an = (s.faultNoted code unit detail).anchor an := by
  simp [State.recordFault_eq]

theorem State.faultNoted_reg_ne (s : State) {a : Nat} (code unit detail : Nat) (h : a ≠ SYS_FAULT.addr)
    (h' : a ≠ SYS_FAULT_CODE.addr) : (s.faultNoted code unit detail).reg a = s.reg a := by
  have hput := State.reg_put_ne s (f := SYS_FAULT.SEEN) (s.fld SYS_FAULT.SEEN ||| 2 ^ (code - 1)) h
  rw [State.faultNoted]
  split
  · rw [State.reg_setReg_ne _ _ h', hput]
  · exact hput

theorem State.faultNoted_seen (s : State) {code : Nat} (unit detail : Nat) (hc : code - 1 < 12) :
    bitOf ((s.faultNoted code unit detail).fld SYS_FAULT.SEEN) (code - 1) = true := by
  have hseen : (s.faultNoted code unit detail).fld SYS_FAULT.SEEN = (s.fld SYS_FAULT.SEEN ||| 2 ^ (code - 1)) % 2 ^ 12 := by
    refine Eq.trans ?_ (State.fld_put_same s SYS_FAULT.SEEN _ (by decide))
    rw [State.faultNoted]
    split
    · exact State.fld_congr (State.reg_setReg_ne _ _ (by decide))
    · rfl
  rw [hseen, bitOf_eq_testBit, Nat.testBit_mod_two_pow, Nat.testBit_or, Nat.testBit_two_pow_self, Bool.or_true, Bool.and_true]
  exact decide_eq_true hc

theorem State.faultNoted_code (s : State) (code unit detail : Nat) (h : s.fld SYS_FAULT_CODE.CODE = 0) :
    (s.faultNoted code unit detail).reg SYS_FAULT_CODE.addr = BitVec.ofNat 32 (code + 256 * unit + 65536 * detail) := by
  rw [State.faultNoted, if_pos (by rw [State.fld_put_ne s _ (by decide), h]), State.reg_setReg_same]

theorem State.faultNoted_code_kept (s : State) (code unit detail : Nat) (h : s.fld SYS_FAULT_CODE.CODE ≠ 0) :
    (s.faultNoted code unit detail).reg SYS_FAULT_CODE.addr = s.reg SYS_FAULT_CODE.addr := by
  rw [State.faultNoted, if_neg (by rw [State.fld_put_ne s _ (by decide)]; exact h), State.reg_put_ne s _ (by decide)]

theorem faultWord_toNat (code : Fin 13) (unit : BitVec 8) (detail : BitVec 16) :
    (BitVec.ofNat 32 (code.val + 256 * unit.toNat + 65536 * detail.toNat)).toNat =
      code.val + 256 * unit.toNat + 65536 * detail.toNat := by
  rw [BitVec.toNat_ofNat, Nat.mod_eq_of_lt (by omega)]

/-! ## A fatal fault -/

/-- What a fatal fault does in every mode but OFF; in another than SAFE, SAFE is entered then (R37, R53). -/
def State.faulted (s : State) (code unit detail : Nat) : State :=
  if code = 5 then ((s.recordFault code unit detail).put SYS_STATUS.THERM_LATCH 1).dropErase
  else s.recordFault code unit detail

theorem State.fatal_of_safe {s : State} (code unit detail : Nat) (h : s.mode = .safe) :
    s.fatal code unit detail = s.faulted code unit detail := by
  rw [State.fatal, if_neg (by rw [h]; decide)]
  exact if_pos (decide_eq_true h)

theorem State.fatal_of_other {s : State} (code unit detail : Nat) (ho : s.mode ≠ .off) (h : s.mode ≠ .safe) :
    s.fatal code unit detail = (s.faulted code unit detail).safeEntry := by
  rw [State.fatal, if_neg ho]
  exact if_neg (by simpa using h)

theorem State.faulted_frame (s : State) (code unit detail : Nat) (fd : Followed) (h1 : fd ≠ .dram) (h2 : fd ≠ .hostMem) :
    (s.faulted code unit detail).rd fd = s.rd fd := by
  rw [State.faulted]
  split <;> simp [h1, h2]

/-- The registers of SYS that the record leaves keep their fields as the module enters SAFE or stays there. -/
theorem State.fatal_fld {s : State} {code unit detail : Nat} {f : Field} (ho : s.mode ≠ .off) (hs : sysReg f.addr = true)
    (hf : f.addr ≠ SYS_STATUS.addr ∨ 1 ≤ f.lo) :
    (s.fatal code unit detail).fld f = (s.faulted code unit detail).fld f := by
  by_cases h : s.mode = .safe
  · rw [State.fatal_of_safe _ _ _ h]
  · rw [State.fatal_of_other _ _ _ ho h, State.safeEntry_fld _ hs hf]

theorem State.faulted_fld (s : State) (code unit detail : Nat) {f : Field} (hs : sysReg f.addr = true)
    (hf : f.addr ≠ SYS_STATUS.addr) : (s.faulted code unit detail).fld f = (s.faultNoted code unit detail).fld f := by
  rw [← State.fld_of_anchor (s.recordFault_anchor code unit detail _) hs, State.faulted]
  split
  · rw [State.fld_of_anchor (State.dropErase_anchor _ _) hs, State.fld_put_ne _ _ hf]
  · rfl

theorem State.faulted_thermLatch (s : State) (unit detail : Nat) :
    (s.faulted 5 unit detail).flag SYS_STATUS.THERM_LATCH = true := by
  rw [State.faulted, if_pos rfl, State.flag, State.fld_of_anchor (State.dropErase_anchor _ _) (by decide), ← State.flag]
  exact State.flag_put_one _ _ (by decide) (by decide)

theorem State.fatal_mode {s : State} (code unit detail : Nat) (ho : s.mode ≠ .off) :
    (s.fatal code unit detail).mode = .safe := by
  by_cases h : s.mode = .safe
  · rw [State.fatal_of_safe _ _ _ h, State.rd_mode, State.faulted_frame _ _ _ _ _ (by decide) (by decide), ← State.rd_mode, h]
  · rw [State.fatal_of_other _ _ _ ho h, State.safeEntry_mode]

theorem State.fatal_bankAt {s : State} (code unit detail : Nat) (ho : s.mode ≠ .off) (h : s.mode ≠ .safe) (a : Nat) :
    (s.fatal code unit detail).bankAt a = 0 := by
  rw [State.fatal_of_other _ _ _ ho h, State.safeEntry_bankAt]

theorem State.fatal_off {s : State} (code unit detail : Nat) (h : s.mode = .off) : s.fatal code unit detail = s := by
  rw [State.fatal, if_pos h]

theorem State.fatal_otp (s : State) (code unit detail : Nat) : (s.fatal code unit detail).otp = s.otp := by
  rw [State.rd_otp, State.rd_otp]
  simp

theorem State.faultLow_of_safe {s : State} (h : s.mode = .safe) : s.faultLow = true := by
  rw [State.faultLow, h]
  rfl

/-! ## The obligation's clauses -/

theorem exec_fatalFault_of_ne_zero {code : Fin 13} (unit : BitVec 8) (detail : BitVec 16) (s : State) (hc : code ≠ 0) :
    exec (.fatalFault code unit detail) s = .next (s.fatal code unit.toNat detail.toNat) := by
  rw [exec_fatalFault, execFatalFault, if_neg hc]

/-- A fatal fault in a mode with power. -/
theorem fatalFault_ends_in_safe {code : Fin 13} (unit : BitVec 8) (detail : BitVec 16) {s : State} (hc : code ≠ 0)
    (ho : s.mode ≠ .off) :
    ∃ t, exec (.fatalFault code unit detail) s = .next t ∧ t.mode = .safe ∧ t.faultLow = true ∧ t.otp = s.otp ∧
      (s.mode ≠ .safe → ∀ a, t.bankAt a = 0) ∧ t.pending = s.pending ∧
      (code = 5 → t.flag SYS_STATUS.THERM_LATCH = true) ∧ bitOf (t.fld SYS_FAULT.SEEN) (code.val - 1) = true ∧
      (s.fld SYS_FAULT_CODE.CODE = 0 →
        (t.reg SYS_FAULT_CODE.addr).toNat = code.val + 256 * unit.toNat + 65536 * detail.toNat) := by
  have hmode := State.fatal_mode code unit.toNat detail.toNat ho
  refine ⟨_, exec_fatalFault_of_ne_zero unit detail s hc, hmode, State.faultLow_of_safe hmode, State.fatal_otp _ _ _ _,
    State.fatal_bankAt _ _ _ ho, ?_, ?_, ?_, fun hcode => ?_⟩
  · rw [State.rd_pending, State.rd_pending]
    simp
  · rintro rfl
    rw [State.flag, State.fatal_fld ho (by decide) (.inr (by decide)), ← State.flag]
    exact s.faulted_thermLatch _ _
  · rw [State.fatal_fld ho (by decide) (.inl (by decide)), State.faulted_fld _ _ _ _ (by decide) (by decide)]
    exact s.faultNoted_seen _ _ (by omega)
  · rw [State.toNat_reg, State.fatal_fld ho (by decide) (.inl (by decide)), State.faulted_fld _ _ _ _ (by decide) (by decide),
      ← State.toNat_reg, s.faultNoted_code _ _ _ hcode, faultWord_toNat]

/-- A further fault in SAFE. -/
theorem fatalFault_recorded_in_safe {code : Fin 13} (unit : BitVec 8) (detail : BitVec 16) {s : State} (hc : code ≠ 0)
    (h5 : code ≠ 5) (hs : s.mode = .safe) :
    ∃ t, exec (.fatalFault code unit detail) s = .next t ∧ bitOf (t.fld SYS_FAULT.SEEN) (code.val - 1) = true ∧
      (s.fld SYS_FAULT_CODE.CODE = 0 →
        (t.reg SYS_FAULT_CODE.addr).toNat = code.val + 256 * unit.toNat + 65536 * detail.toNat) ∧
      (s.fld SYS_FAULT_CODE.CODE ≠ 0 → t.reg SYS_FAULT_CODE.addr = s.reg SYS_FAULT_CODE.addr) ∧ Steady s t ∧
      RegsButEvents [SYS_FAULT.addr, SYS_FAULT_CODE.addr] s t := by
  have hfatal : s.fatal code unit.toNat detail.toNat = s.recordFault code unit.toNat detail.toNat := by
    rw [State.fatal_of_safe _ _ _ hs, State.faulted, if_neg fun h : code.val = 5 => h5 (Fin.ext h)]
  have hanchor := s.recordFault_anchor code unit.toNat detail.toNat
  refine ⟨_, (exec_fatalFault_of_ne_zero unit detail s hc).trans (congrArg Host.Outcome.next hfatal), ?_, fun hcode => ?_,
    fun hcode => ?_, steady_of_frame fun fd hd => State.recordFault_frame _ _ _ _ _ hd, fun a ha he => ?_⟩
  · rw [State.fld_of_anchor (hanchor _) (by decide)]
    exact s.faultNoted_seen _ _ (by omega)
  · rw [State.reg_of_anchor (hanchor _) (by decide), s.faultNoted_code _ _ _ hcode, faultWord_toNat]
  · rw [State.reg_of_anchor (hanchor _) (by decide), s.faultNoted_code_kept _ _ _ hcode]
  · rw [State.recordFault_eq, State.reg_congr (State.bdIrq_regs _), State.sysIrq_reg _ he, State.event_reg _ _ _ _ _ _ he]
    exact s.faultNoted_reg_ne _ _ _ (fun h => ha (by simp [h])) fun h => ha (by simp [h])

theorem State.rootLost_rd (s : State) (fd : Followed) : s.rootLost.rd fd = s.rd fd := by
  simp [State.rootLost]

/-- Settles O13: the record of a fault is in registers of SYS, which the end of service and the domains that go off
leave. -/
theorem fatalFaultsEndInSafe : Obligations.FatalFaultsEndInSafe := by
  unfold Obligations.FatalFaultsEndInSafe
  refine ⟨fun code unit detail s hc ho => fatalFault_ends_in_safe unit detail hc ho, fun code unit detail s ho => ?_,
    fun code unit detail s hc h5 hs => fatalFault_recorded_in_safe unit detail hc h5 hs, fun rail s ho => ?_,
    fun s ho hb => ?_, fun s hm hstep => ?_, fun s ho => ?_⟩
  · rw [exec_fatalFault, execFatalFault, State.fatal_off _ _ _ ho, ite_self]
  · refine ⟨_, ?_, State.fatal_mode 8 rail 0 (s := s.put PWR_STATUS.POWER_GOOD 0) ho, State.fatal_otp _ _ _ _⟩
    rw [exec_railFault, execRailFault, if_neg ho]
  · have hmode : s.rootLost.mode = s.mode := by rw [State.rd_mode, State.rootLost_rd, ← State.rd_mode]
    have hotp : s.rootLost.otp = s.otp := by rw [State.rd_otp, State.rootLost_rd, ← State.rd_otp]
    refine ⟨_, ?_, State.fatal_mode 7 0 0 (hmode ▸ ho), (State.fatal_otp _ _ _ _).trans hotp⟩
    rw [exec_clockLoss, execClockLoss, if_neg]
    rintro (h | h)
    · exact ho h
    · rw [State.bootAt, Bool.and_eq_true, decide_eq_true_eq, decide_eq_true_eq] at h
      exact hb h
  · rw [exec_clockLoss, execClockLoss, if_pos (.inr (by simp [State.bootAt, hm, hstep]))]
  · refine ⟨_, ?_, State.fatal_mode 9 0 0 ho, State.fatal_otp _ _ _ _⟩
    rw [exec_hkWatchdog, execHkWatchdog]

end Sys2Proof.Machine
end

section
/-! PROOF. RESET_BOOT, ENTER_CAL, LEAVE_CAL and ENTER_SAFE complete or are refused (O12). -/

namespace Sys2Proof.Machine

/-! ## The fuses reported (R341) -/

theorem Otp.state_lt (o : Otp) : o.state < 4 := by
  unfold Otp.state
  split
  · decide
  · split
    · decide
    · split <;> decide

/-- LC_STATE with its fields stored. -/
def State.lcReported (s : State) : State :=
  (((((s.put LC_STATE.STATE s.otp.state).putB LC_STATE.DEC_KEY s.otp.patternKey.isSome).putB LC_STATE.ERASE_DONE
    s.otp.eraseDone).putB LC_STATE.RMA_PIN (!s.pins.rma)).put LC_STATE.PROGRAMMED s.otp.programmed).put LC_STATE.REVOKED
    s.otp.revoked.toNat

theorem State.lcRefresh_eq (s : State) : s.lcRefresh =
    ((s.lcReported.setPair SYS_SERIAL_LO.addr s.otp.serial.toNat).setReg SYS_REV.addr s.otp.rev).lcDebug := rfl

theorem State.withJtag_reg (s : State) (v a : Nat) : (s.withJtag v).reg a = s.reg a := rfl

theorem State.lcDebug_reg (s : State) {a : Nat} (h : a ≠ LC_DEBUG.addr) : s.lcDebug.reg a = s.reg a := by
  rw [State.lcDebug, State.withJtag_reg, State.reg_putB_ne _ _ h, State.reg_putB_ne _ _ h]

/-- The rest of the report is in other registers. -/
theorem State.lcRefresh_reg (s : State) {a : Nat} (h1 : a ≠ SYS_SERIAL_LO.addr) (h2 : a ≠ SYS_SERIAL_LO.addr + 4)
    (h3 : a ≠ SYS_REV.addr) (h4 : a ≠ LC_DEBUG.addr) : s.lcRefresh.reg a = s.lcReported.reg a := by
  rw [State.lcRefresh_eq, State.lcDebug_reg _ h4, State.reg_setReg_ne _ _ h3, State.setPair, State.reg_setReg_ne _ _ h2,
    State.reg_setReg_ne _ _ h1]

theorem State.lcReported_reg (s : State) {a : Nat} (h : a ≠ LC_STATE.addr) : s.lcReported.reg a = s.reg a := by
  unfold State.lcReported
  rw [State.reg_put_ne _ _ h, State.reg_put_ne _ _ h, State.reg_putB_ne _ _ h, State.reg_putB_ne _ _ h,
    State.reg_putB_ne _ _ h, State.reg_put_ne _ _ h]

theorem State.lcReported_state (s : State) : s.lcReported.fld LC_STATE.STATE = s.otp.state := by
  unfold State.lcReported State.putB
  rw [State.fld_put_apart _ _ (by decide) (by decide) (by decide), State.fld_put_apart _ _ (by decide) (by decide) (by decide),
    State.fld_put_apart _ _ (by decide) (by decide) (by decide), State.fld_put_apart _ _ (by decide) (by decide) (by decide),
    State.fld_put_apart _ _ (by decide) (by decide) (by decide), State.fld_put_same _ _ _ (by decide)]
  exact Nat.mod_eq_of_lt s.otp.state_lt

theorem State.lcReported_rmaPin (s : State) : s.lcReported.flag LC_STATE.RMA_PIN = !s.pins.rma := by
  unfold State.lcReported
  rw [State.flag, State.fld_put_apart _ _ (by decide) (by decide) (by decide), State.fld_put_apart _ _ (by decide) (by decide) (by decide),
    ← State.flag]
  exact State.flag_putB_same _ _ _ (by decide) rfl

theorem State.lcRefresh_state (s : State) : s.lcRefresh.fld LC_STATE.STATE = s.otp.state := by
  rw [State.fld_congr (State.lcRefresh_reg _ (by decide) (by decide) (by decide) (by decide)), State.lcReported_state]

theorem State.lcRefresh_rmaPin (s : State) : s.lcRefresh.flag LC_STATE.RMA_PIN = !s.pins.rma := by
  rw [State.flag_congr (State.lcRefresh_reg _ (by decide) (by decide) (by decide) (by decide)), State.lcReported_rmaPin]

theorem State.newNonce_reg (s : State) {a : Nat} (h : a ≠ LC_NONCE.addr) : s.newNonce.reg a = s.reg a :=
  State.reg_setReg_ne s _ h

/-! ## BOOT entered again (R30) -/

theorem State.bootHot_congr {s t : State} (h : t.sensors = s.sensors) : t.bootHot = s.bootHot := by
  unfold State.bootHot State.invalidSensors State.sensor
  rw [h]

/-- What `freshen` does before the fuses are reported. -/
def State.freshened (s : State) : State :=
  ((((s.discipline.abortCmds fun _ => true).wiped.put EVT_WR.COUNT ((s.discipline.abortCmds fun _ => true).fld
    EVT_WR.COUNT)).put EVT_LOST.COUNT ((s.discipline.abortCmds fun _ => true).fld EVT_LOST.COUNT)).keepStatus
    s.discipline).selectSource

theorem State.freshen_eq (s : State) : s.freshen = s.freshened.lcRefresh.newNonce := rfl

theorem State.updateCold_acts (s : State) : s.updateCold.acts = s.acts := by
  simp only [State.updateCold]
  split <;> rfl

theorem State.keepStatus_acts (s old : State) : (s.keepStatus old).acts = s.acts := by
  simp [State.keepStatus]

theorem State.wiped_acts (s : State) : s.wiped.acts = [] := rfl

theorem State.freshened_acts (s : State) : s.freshened.acts = [] := by
  rw [State.freshened, State.selectSource, State.updateCold_acts, State.put_acts, State.keepStatus_acts, State.put_acts,
    State.put_acts, State.wiped_acts]

theorem State.lcReported_acts (s : State) : s.lcReported.acts = s.acts := by
  simp only [State.lcReported, State.put_acts, State.putB_acts]

theorem State.withJtag_acts (s : State) (v : Nat) : (s.withJtag v).acts = s.acts := rfl

theorem State.lcDebug_acts (s : State) : s.lcDebug.acts = s.acts := by
  rw [State.lcDebug, State.withJtag_acts, State.putB_acts, State.putB_acts]

theorem State.setReg_acts (s : State) (a : Nat) (w : Word) : (s.setReg a w).acts = s.acts := rfl

theorem State.lcRefresh_acts (s : State) : s.lcRefresh.acts = s.acts := by
  rw [State.lcRefresh_eq, State.lcDebug_acts, State.setReg_acts, State.setPair_acts, State.lcReported_acts]

theorem State.newNonce_acts (s : State) : s.newNonce.acts = s.acts := rfl

theorem State.freshen_acts (s : State) : s.freshen.acts = [] := by
  rw [State.freshen_eq, State.newNonce_acts, State.lcRefresh_acts, State.freshened_acts]

theorem State.freshen_lcState (s : State) : s.freshen.fld LC_STATE.STATE = s.otp.state := by
  have hotp : s.freshened.otp = s.otp := by
    rw [State.rd_otp, State.rd_otp]
    simp [State.freshened]
  rw [State.freshen_eq, State.fld_congr (State.newNonce_reg _ (by decide)), State.lcRefresh_state, hotp]

/-- BOOT begun again at a step. -/
def State.bootAgain (s : State) (step : Nat) : State :=
  (((s.journalNew.setMode .boot).endService.freshen).put SYS_MODE.BOOT_STEP step).put SYS_STATUS.TRANSIT 1

theorem State.bootAgain_rd (s : State) (step : Nat) {fd : Followed} (h1 : fd ≠ .jtag) (h2 : fd ≠ .mode) (h3 : fd ≠ .dram) :
    (s.bootAgain step).rd fd = s.rd fd := by
  simp [State.bootAgain, h1, h2, h3]

theorem State.bootAgain_mode (s : State) (step : Nat) : (s.bootAgain step).mode = .boot := by
  rw [State.rd_mode]
  have h := State.endService_mode (s := s.journalNew.setMode .boot) (m := .boot) (by simp) (Option.some_ne_none _)
  simp [State.bootAgain, h]

theorem State.resetBoot_of_cool {s : State} (hlock : s.flag CLK_STATUS.PCIE_LOCK = true) (hcool : s.bootHot = none) :
    s.resetBoot = s.bootAgain 2 := by
  have hsensors : (s.bootAgain 2).sensors = s.sensors := by
    rw [State.rd_sensors, State.rd_sensors, s.bootAgain_rd 2 (by decide) (by decide) (by decide)]
  have hhot : (s.bootAgain 2).bootHot = none := by rw [State.bootHot_congr hsensors, hcool]
  calc s.resetBoot = (s.bootAgain 2).bootCheck := by rw [State.resetBoot, hlock]; rfl
    _ = s.bootAgain 2 := by rw [State.bootCheck, hhot]

/-! ## A request taken or refused (R31) -/

/-- SYS_MODE_REQ takes a request with a valid KEY in every mode with power. -/
theorem State.hostWrite_modeReq {s : State} {v : Word} (k : State → State) (ho : s.mode ≠ .off)
    (hv : reservedBits SYS_MODE_REQ.addr v = 0) : s.hostWrite SYS_MODE_REQ.addr v k = k s := by
  refine State.hostWrite_of_access k ?_ hv
  unfold State.access
  split
  next h => exact absurd h ho
  all_goals decide

theorem exec_resetBoot_of_on {s : State} (ho : s.mode ≠ .off) : exec .resetBoot s = .next (s.modeRequest 1) := by
  rw [exec_resetBoot, execResetBoot, State.hostWrite_modeReq _ ho (by decide)]

theorem exec_enterCal_of_on {s : State} (ho : s.mode ≠ .off) : exec .enterCal s = .next (s.modeRequest 2) := by
  rw [exec_enterCal, execEnterCal, State.hostWrite_modeReq _ ho (by decide)]

theorem exec_leaveCal_of_on {s : State} (ho : s.mode ≠ .off) : exec .leaveCal s = .next (s.modeRequest 3) := by
  rw [exec_leaveCal, execLeaveCal, State.hostWrite_modeReq _ ho (by decide)]

theorem exec_enterSafe_of_on {s : State} (ho : s.mode ≠ .off) : exec .enterSafe s = .next (s.modeRequest 4) := by
  rw [exec_enterSafe, execEnterSafe, State.hostWrite_modeReq _ ho (by decide)]

theorem State.modeRequest_of_result {s : State} {req r : Nat} (hd : reqDefined req = true) (hr : s.reqResult req = r)
    (h0 : r ≠ 0) : s.modeRequest req = s.put SYS_STATUS.REQ_RESULT r := by
  rw [State.modeRequest, if_neg (by simp [hd]), hr]
  exact if_pos h0

/-- A refused request stores REQ_RESULT and nothing else. -/
theorem refused_result {c : Instr} {s : State} {req r : Nat} (hexec : exec c s = .next (s.modeRequest req))
    (hd : reqDefined req = true) (hr : s.reqResult req = r) (h0 : r ≠ 0) (hlt : r < 16) :
    ∃ t, exec c s = .next t ∧ t.fld SYS_STATUS.REQ_RESULT = r ∧ OnlyRegs [SYS_STATUS.addr] s t := by
  refine ⟨s.put SYS_STATUS.REQ_RESULT r, ?_, ?_, State.put_onlyRegs _ _ _⟩
  · rw [hexec, State.modeRequest_of_result hd hr h0]
  · rw [State.fld_put_same s _ _ (by decide)]
    exact Nat.mod_eq_of_lt hlt

theorem State.reqResult_of_transit {s : State} (req : Nat) (ht : s.flag SYS_STATUS.TRANSIT = true) (hb : s.mode ≠ .boot) :
    s.reqResult req = 1 := by
  unfold State.reqResult
  exact if_pos ⟨ht, hb⟩

theorem State.not_transit {s : State} (h : s.flag SYS_STATUS.TRANSIT = false ∨ s.mode = .boot) :
    ¬(s.flag SYS_STATUS.TRANSIT = true ∧ s.mode ≠ .boot) := by
  rintro ⟨ht, hb⟩
  exact h.elim (fun hf => by simp [hf] at ht) hb

theorem State.reqResult_one {s : State} (h : s.flag SYS_STATUS.TRANSIT = false ∨ s.mode = .boot) :
    s.reqResult 1 = if s.flag SYS_STATUS.THERM_LATCH && s.tempHot then 4 else 0 := by
  rw [State.reqResult, if_neg (State.not_transit h)]

theorem State.reqResult_two {s : State} (h : s.flag SYS_STATUS.TRANSIT = false ∨ s.mode = .boot) :
    s.reqResult 2 = if s.mode ≠ .idle then 3
      else if actNums.any (fun n => decide (s.actState n = 1 ∨ s.actState n = 2)) then 5 else 0 := by
  rw [State.reqResult, if_neg (State.not_transit h)]

theorem State.reqResult_three {s : State} (h : s.flag SYS_STATUS.TRANSIT = false ∨ s.mode = .boot) :
    s.reqResult 3 = if s.mode = .cal then 0 else 3 := by
  rw [State.reqResult, if_neg (State.not_transit h)]

theorem State.reqResult_four {s : State} (h : s.flag SYS_STATUS.TRANSIT = false ∨ s.mode = .boot) :
    s.reqResult 4 = if s.mode = .safe ∨ s.mode = .off then 3 else 0 := by
  unfold State.reqResult
  exact if_neg (State.not_transit h)

/-- The requests that are taken, from the state with REQ_RESULT 0. -/
theorem State.modeRequest_one {s : State} (hr : s.reqResult 1 = 0) (hb : ¬(s.mode = .boot ∧ s.fld SYS_MODE.BOOT_STEP = 1)) :
    s.modeRequest 1 = (s.put SYS_STATUS.REQ_RESULT 0).resetBoot := by
  rw [State.modeRequest, if_neg (by decide), hr]
  exact (if_neg (not_not_intro rfl)).trans (if_neg (by rwa [State.put_mode, State.fld_put_ne s _ (by decide)]))

theorem State.modeRequest_one_in_bootStep_one {s : State} (hr : s.reqResult 1 = 0) (hm : s.mode = .boot)
    (hstep : s.fld SYS_MODE.BOOT_STEP = 1) : s.modeRequest 1 = s.put SYS_STATUS.REQ_RESULT 0 := by
  rw [State.modeRequest, if_neg (by decide), hr]
  exact (if_neg (not_not_intro rfl)).trans (if_pos ⟨hm, by rw [State.fld_put_ne s _ (by decide), hstep]⟩)

theorem State.modeRequest_two {s : State} (hr : s.reqResult 2 = 0) :
    s.modeRequest 2 = (s.put SYS_STATUS.REQ_RESULT 0).enterCal := by
  rw [State.modeRequest, if_neg (by decide), hr]
  rfl

theorem State.modeRequest_three {s : State} (hr : s.reqResult 3 = 0) :
    s.modeRequest 3 = (s.put SYS_STATUS.REQ_RESULT 0).fullAbort.leaveCal := by
  rw [State.modeRequest, if_neg (by decide), hr]
  rfl

theorem State.modeRequest_four {s : State} (hr : s.reqResult 4 = 0) :
    s.modeRequest 4 = (s.put SYS_STATUS.REQ_RESULT 0).fatal 0x0C 0 0 := by
  rw [State.modeRequest, if_neg (by decide), hr]
  rfl

/-! ## The obligation's clauses -/

theorem resetBoot_leads_to_bootStep_two {s : State} (ho : s.mode ≠ .off)
    (ht : s.flag SYS_STATUS.TRANSIT = false ∨ s.mode = .boot) (hb : ¬(s.mode = .boot ∧ s.fld SYS_MODE.BOOT_STEP = 1))
    (hlock : s.flag CLK_STATUS.PCIE_LOCK = true) (hlatch : s.flag SYS_STATUS.THERM_LATCH = false) (hcool : s.bootHot = none) :
    ∃ t, exec .resetBoot s = .next t ∧ t.mode = .boot ∧ t.fld SYS_MODE.BOOT_STEP = 2 ∧
      t.flag SYS_STATUS.TRANSIT = true ∧ t.otp = s.otp ∧ t.flash = s.flash ∧ t.pending = s.pending ∧ t.acts = [] ∧
      t.fld LC_STATE.STATE = s.otp.state := by
  have hreset : (s.put SYS_STATUS.REQ_RESULT 0).resetBoot = (s.put SYS_STATUS.REQ_RESULT 0).bootAgain 2 :=
    State.resetBoot_of_cool (by rwa [State.flag, State.fld_put_ne s _ (by decide)]) hcool
  have hexec : exec .resetBoot s = .next ((s.put SYS_STATUS.REQ_RESULT 0).bootAgain 2) := by
    rw [exec_resetBoot_of_on ho, State.modeRequest_one (by rw [State.reqResult_one ht, hlatch]; rfl) hb, hreset]
  have hrd : ∀ fd : Followed, fd ≠ .jtag → fd ≠ .mode → fd ≠ .dram →
      ((s.put SYS_STATUS.REQ_RESULT 0).bootAgain 2).rd fd = s.rd fd := fun fd h1 h2 h3 => by
    rw [State.bootAgain_rd _ _ h1 h2 h3, State.put_frame]
  refine ⟨_, hexec, State.bootAgain_mode _ _, ?_, ?_, ?_, ?_, ?_, ?_, ?_⟩
  · rw [State.bootAgain, State.fld_put_ne _ _ (by decide), State.fld_put_same _ _ _ (by decide)]
    rfl
  · exact State.flag_put_one _ _ (by decide) (by decide)
  · rw [State.rd_otp, State.rd_otp, hrd _ (by decide) (by decide) (by decide)]
  · rw [State.rd_flash, State.rd_flash, hrd _ (by decide) (by decide) (by decide)]
  · rw [State.rd_pending, State.rd_pending, hrd _ (by decide) (by decide) (by decide)]
  · rw [State.bootAgain, State.put_acts, State.put_acts, State.freshen_acts]
  · rw [State.bootAgain, State.fld_put_ne _ _ (by decide), State.fld_put_ne _ _ (by decide), State.freshen_lcState,
      State.rd_otp, State.rd_otp]
    simp

theorem resetBoot_in_bootStep_one {s : State} (hm : s.mode = .boot) (hstep : s.fld SYS_MODE.BOOT_STEP = 1)
    (hlatch : s.flag SYS_STATUS.THERM_LATCH = false) :
    ∃ t, exec .resetBoot s = .next t ∧ t.fld SYS_STATUS.REQ_RESULT = 0 ∧ OnlyRegs [SYS_STATUS.addr] s t := by
  refine ⟨s.put SYS_STATUS.REQ_RESULT 0, ?_, State.fld_put_same s _ _ (by decide), State.put_onlyRegs _ _ _⟩
  rw [exec_resetBoot_of_on (by rw [hm]; decide),
    State.modeRequest_one_in_bootStep_one (by rw [State.reqResult_one (.inr hm), hlatch]; rfl) hm hstep]

theorem enterCal_leads_to_cal {s : State} (hm : s.mode = .idle) (ht : s.flag SYS_STATUS.TRANSIT = false)
    (hacts : ∀ n, n < 16 → s.actState n ≠ 1 ∧ s.actState n ≠ 2) :
    ∃ t, exec .enterCal s = .next t ∧ t.mode = .cal ∧ Still s t := by
  have hnone : ¬actNums.any (fun n => decide (s.actState n = 1 ∨ s.actState n = 2)) = true := by
    simp only [List.any_eq_true, decide_eq_true_eq, not_exists, not_and, not_or]
    exact fun n hn => hacts n (List.mem_range.1 hn)
  refine ⟨(s.put SYS_STATUS.REQ_RESULT 0).enterCal, ?_, ?_, still_of_frame fun fd hd hmode _ _ => ?_⟩
  · rw [exec_enterCal_of_on (by rw [hm]; decide), State.modeRequest_two]
    rw [State.reqResult_two (.inl ht), if_neg (not_not_intro hm), if_neg hnone]
  · rw [State.rd_mode]
    simp [State.enterCal]
  · rw [State.enterCal_frame _ _ hmode hd, State.put_frame]

theorem leaveCal_leads_to_idle {s : State} (hm : s.mode = .cal) (ht : s.flag SYS_STATUS.TRANSIT = false) :
    ∃ t, exec .leaveCal s = .next t ∧ t.mode = .idle ∧ Still s t := by
  refine ⟨(s.put SYS_STATUS.REQ_RESULT 0).fullAbort.leaveCal, ?_, ?_, still_of_frame fun fd hd hmode _ _ => ?_⟩
  · rw [exec_leaveCal_of_on (by rw [hm]; decide), State.modeRequest_three]
    rw [State.reqResult_three (.inl ht), if_pos hm]
  · rw [State.rd_mode]
    simp [State.leaveCal]
  · rw [State.leaveCal_frame _ _ hmode hd, State.fullAbort_frame _ _ hd, State.put_frame]

theorem enterSafe_leads_to_safe {s : State} (ho : s.mode ≠ .off) (hs : s.mode ≠ .safe)
    (ht : s.flag SYS_STATUS.TRANSIT = false ∨ s.mode = .boot) :
    ∃ t, exec .enterSafe s = .next t ∧ t.mode = .safe ∧ t.otp = s.otp ∧ (∀ a, t.bankAt a = 0) := by
  refine ⟨(s.put SYS_STATUS.REQ_RESULT 0).fatal 0x0C 0 0, ?_, State.fatal_mode _ _ _ ho, State.fatal_otp _ _ _ _,
    State.fatal_bankAt _ _ _ ho hs⟩
  rw [exec_enterSafe_of_on ho, State.modeRequest_four]
  rw [State.reqResult_four ht, if_neg (not_or_intro hs ho)]

theorem enterCal_refused_by_act {n : Act} {s : State} (hm : s.mode = .idle) (ht : s.flag SYS_STATUS.TRANSIT = false)
    (ha : s.actState n = 1 ∨ s.actState n = 2) : s.reqResult 2 = 5 := by
  rw [State.reqResult_two (.inl ht), if_neg (not_not_intro hm), if_pos]
  exact List.any_eq_true.2 ⟨n, List.mem_range.2 n.isLt, decide_eq_true ha⟩

/-- A request while a transition other than BOOT is in progress. -/
theorem modeRequest_refused_in_transit {s : State} (ho : s.mode ≠ .off) (hb : s.mode ≠ .boot)
    (ht : s.flag SYS_STATUS.TRANSIT = true) :
    ∀ c ∈ [Instr.resetBoot, .enterCal, .leaveCal, .enterSafe],
      ∃ t, exec c s = .next t ∧ t.fld SYS_STATUS.REQ_RESULT = 1 ∧ OnlyRegs [SYS_STATUS.addr] s t := by
  have hr := fun req => State.reqResult_of_transit req ht hb
  simp only [List.forall_mem_cons]
  refine ⟨?_, ?_, ?_, ?_, fun c hc => absurd hc List.not_mem_nil⟩
  · exact refused_result (exec_resetBoot_of_on ho) rfl (hr 1) (by decide) (by decide)
  · exact refused_result (exec_enterCal_of_on ho) rfl (hr 2) (by decide) (by decide)
  · exact refused_result (exec_leaveCal_of_on ho) rfl (hr 3) (by decide) (by decide)
  · exact refused_result (exec_enterSafe_of_on ho) rfl (hr 4) (by decide) (by decide)

/-- Settles O12: a request with a valid KEY is answered by its REQ_RESULT; one that is taken ends in its mode, whatever
ends with the mode before. -/
theorem modeRequestsComplete : Obligations.ModeRequestsComplete := by
  unfold Obligations.ModeRequestsComplete
  refine ⟨fun s ho ht hb hlock hlatch hcool => resetBoot_leads_to_bootStep_two ho ht hb hlock hlatch hcool,
    fun s hm hstep hlatch => resetBoot_in_bootStep_one hm hstep hlatch,
    fun s hm ht hacts => enterCal_leads_to_cal hm ht hacts, fun s ho ht hlatch hhot => ?_, fun n s hm ht ha => ?_,
    fun s hm ht => leaveCal_leads_to_idle hm ht, fun s ho hs ht => enterSafe_leads_to_safe ho hs ht,
    fun s ho hb ht => modeRequest_refused_in_transit ho hb ht, fun s ho hi ht => ?_, fun s ho hc ht => ?_, fun s ho => ?_⟩
  · refine refused_result (exec_resetBoot_of_on ho) rfl ?_ (by decide) (by decide)
    rw [State.reqResult_one ht, hlatch, hhot]
    rfl
  · exact refused_result (exec_enterCal_of_on (by rw [hm]; decide)) rfl (enterCal_refused_by_act hm ht ha) (by decide) (by decide)
  · refine refused_result (exec_enterCal_of_on ho) rfl ?_ (by decide) (by decide)
    rw [State.reqResult_two ht, if_pos hi]
  · refine refused_result (exec_leaveCal_of_on ho) rfl ?_ (by decide) (by decide)
    rw [State.reqResult_three ht, if_neg hc]
  · rw [exec_enterSafe, execEnterSafe, State.hostWrite, if_neg (by rw [State.access, ho]; decide)]

end Sys2Proof.Machine
end

section
/-! PROOF. UVLO_START and SOFT_START complete, or lead to SAFE (O9). -/

namespace Sys2Proof.Machine

/-! ## The samples kept (R52) -/

/-- One sensor's sample kept. -/
def State.keepOne (ts : List (BitVec 16)) (i : Nat) (s : State) : State :=
  let u := s.setSensor i { last := ts.getD i 0, bad := (s.sensor i).bad || tempInvalid (ts.getD i 0) }
  if tempInvalid (ts.getD i 0) ∧ (s.sensor i).bad = false then u.event 2 9 else u

theorem State.keepSample_eq (s : State) (ts : List (BitVec 16)) :
    s.keepSample ts = State.each (State.keepOne ts) (List.range 40) s := rfl

theorem State.keepOne_sensors (ts : List (BitVec 16)) (i : Nat) (s : State) :
    (State.keepOne ts i s).sensors =
      (s.setSensor i { last := ts.getD i 0, bad := (s.sensor i).bad || tempInvalid (ts.getD i 0) }).sensors := by
  rw [State.keepOne]
  split
  · rw [State.rd_sensors, State.rd_sensors, State.event_frame _ _ _ _ _ _ _ _ (by decide)]
  · rfl

theorem State.sensor_congr {s t : State} (h : t.sensors = s.sensors) (i : Nat) : t.sensor i = s.sensor i := by
  rw [State.sensor, State.sensor, h]

theorem State.keepOne_same (ts : List (BitVec 16)) (i : Nat) (s : State) :
    ((State.keepOne ts i s).sensor i).last = ts.getD i 0 := by
  rw [State.sensor_congr (State.keepOne_sensors ts i s), State.setSensor_same]

theorem State.keepOne_ne (ts : List (BitVec 16)) {i j : Nat} (s : State) (h : j ≠ i) :
    (State.keepOne ts i s).sensor j = s.sensor j := by
  rw [State.sensor_congr (State.keepOne_sensors ts i s), State.setSensor_ne _ _ h]

theorem State.each_keepOne_of_not_mem (ts : List (BitVec 16)) {j : Nat} (l : List Nat) (s : State) (h : j ∉ l) :
    (State.each (State.keepOne ts) l s).sensor j = s.sensor j := by
  induction l generalizing s with
  | nil => rfl
  | cons i l ih =>
    obtain ⟨hne, hl⟩ := not_or.1 fun hj => h (List.mem_cons.2 hj)
    rw [State.each, ih _ hl, State.keepOne_ne ts s hne]

theorem State.each_keepOne_of_mem (ts : List (BitVec 16)) {j : Nat} (l : List Nat) (s : State) (h : j ∈ l) :
    ((State.each (State.keepOne ts) l s).sensor j).last = ts.getD j 0 := by
  induction l generalizing s with
  | nil => cases h
  | cons i l ih =>
    rw [State.each]
    by_cases hj : j ∈ l
    · exact ih _ hj
    · obtain rfl : j = i := (List.mem_cons.1 h).resolve_right hj
      rw [State.each_keepOne_of_not_mem ts l _ hj, State.keepOne_same]

theorem State.keepSample_last (s : State) (ts : List (BitVec 16)) {i : Nat} (h : i < 40) :
    ((s.keepSample ts).sensor i).last = ts.getD i 0 := by
  rw [State.keepSample_eq, State.each_keepOne_of_mem ts _ _ (List.mem_range.2 h)]

/-! ## A sensor too hot for BOOT (R32) -/

theorem State.bootHot_of_cool {s : State}
    (h : ∀ i, i < 40 → tempInvalid (s.sensor i).last = false ∧ signed 16 (s.sensor i).last.toNat < 1280) :
    s.bootHot = none := by
  have hvalid : s.invalidSensors = [] :=
    List.filter_eq_nil_iff.2 fun i hi => by simp [(h i (List.mem_range.1 hi)).1]
  rw [State.bootHot, hvalid, if_neg (by decide), List.find?_eq_none]
  intro i hi
  have hcool := (h i (List.mem_range.1 hi)).2
  simp only [Bool.and_eq_true, decide_eq_true_eq, not_and, not_le]
  exact fun _ => hcool

theorem State.bootHot_of_hot {s : State} {i : Nat} (hi : i < 40) (hv : tempInvalid (s.sensor i).last = false)
    (hh : 1280 ≤ signed 16 (s.sensor i).last.toNat) : ∃ u, s.bootHot = some u := by
  rw [← Option.isSome_iff_exists, State.bootHot]
  split
  next hmany =>
    rw [List.isSome_head?]
    intro hnil
    rw [hnil] at hmany
    exact absurd hmany (by decide)
  next =>
    rw [List.find?_isSome]
    exact ⟨i, List.mem_range.2 hi, by simp [hv, hh]⟩

/-! ## Powered up (R29) -/

@[simp] theorem State.tempMax_anchor (s : State) (ts : List (BitVec 16)) (an : Anchor) :
    (s.tempMax ts).anchor an = s.anchor an := by
  simp only [State.tempMax]
  split <;> simp [PWR_TEMP_MAX.INVALID, PWR_TEMP_MAX.SENSOR, PWR_TEMP_MAX.TEMP, PWR_TEMP_MAX.addr]

theorem State.wires_eq (s : State) : s.anchor .wires = { s.pins with bdIrq := 0 } := by cases s; rfl

theorem State.setReg_wires (s : State) (a : Nat) (w : Word) : (s.setReg a w).anchor .wires = s.anchor .wires := by
  cases s
  rfl

theorem State.withJtag_wires (s : State) (v : Nat) : (s.withJtag v).anchor .wires = s.anchor .wires := by
  cases s
  rfl

theorem State.lcRefresh_wires (s : State) : s.lcRefresh.anchor .wires = s.anchor .wires := by
  rw [State.lcRefresh_eq, State.lcDebug, State.withJtag_wires]
  simp only [State.lcReported, State.putB, State.setPair, State.put_wires, State.setReg_wires]

/-- The straps sampled, TRANSIT set, in BOOT step 1. -/
def State.strapped (s : State) (role : BitVec 2) (rma : Bool) : State :=
  ((((((s.withPins { s.pins with en := true, role := role, rma := rma }).setMode .boot).put SYS_MODE.BOOT_STEP 1).put
    SYS_ROLE.ROLE role.toNat).putB SYS_DEVIDX.VALID (decide (2 ≤ role.toNat))).put SYS_STATUS.TRANSIT 1)

/-- The temperatures sampled; where CLR_N is low the SREF units are at their clear codes. -/
def State.sampledUp (s : State) (temps : List (BitVec 16)) : State :=
  if ((s.keepSample temps).tempMax temps).pins.clrN then (s.keepSample temps).tempMax temps else ((s.keepSample temps).tempMax temps).srefClearAll

/-- The state that the temperatures of BOOT step 1 are checked in. -/
def State.poweredUp (s : State) (role : BitVec 2) (rma : Bool) (temps : List (BitVec 16)) : State :=
  ((s.strapped role rma).sampledUp temps).lcRefresh.newNonce

theorem exec_uvloStart_of_off (role : BitVec 2) (rma : Bool) (temps : List (BitVec 16)) {s : State} (ho : s.mode = .off)
    (hs : s.shed = none) : exec (.uvloStart role rma temps) s = .next (s.poweredUp role rma temps).bootCheck := by
  have h : ¬(s.mode ≠ .off ∨ s.shed ≠ none) := fun h => h.elim (fun h => h ho) fun h => h hs
  rw [exec_uvloStart, execUvloStart, if_neg h]
  rfl

theorem State.sampledUp_anchor (s : State) (temps : List (BitVec 16)) (an : Anchor) :
    (s.sampledUp temps).anchor an = s.anchor an := by
  simp [State.sampledUp]

theorem State.sampledUp_frame (s : State) (temps : List (BitVec 16)) (fd : Followed) (h1 : fd ≠ .dram) (h2 : fd ≠ .sensors) :
    (s.sampledUp temps).rd fd = s.rd fd := by
  simp [State.sampledUp, h1, h2]

theorem State.sampledUp_sensors (s : State) (temps : List (BitVec 16)) :
    (s.sampledUp temps).sensors = (s.keepSample temps).sensors := by
  rw [State.rd_sensors, State.rd_sensors, State.sampledUp]
  split <;> simp

theorem State.strapped_frame (s : State) (role : BitVec 2) (rma : Bool) (fd : Followed) (h1 : fd ≠ .mode) (h2 : fd ≠ .dram) :
    (s.strapped role rma).rd fd = s.rd fd := by
  simp [State.strapped, h1, h2]

theorem State.poweredUp_sensor (s : State) (role : BitVec 2) (rma : Bool) (temps : List (BitVec 16)) {i : Nat} (h : i < 40) :
    ((s.poweredUp role rma temps).sensor i).last = temps.getD i 0 := by
  have hsensors : (s.poweredUp role rma temps).sensors = ((s.strapped role rma).sampledUp temps).sensors := by
    rw [State.rd_sensors, State.rd_sensors]
    simp [State.poweredUp]
  rw [State.sensor_congr (hsensors.trans (State.sampledUp_sensors _ _)), State.keepSample_last _ _ h]

theorem State.poweredUp_mode (s : State) (role : BitVec 2) (rma : Bool) (temps : List (BitVec 16)) :
    (s.poweredUp role rma temps).mode = .boot := by
  rw [State.rd_mode]
  simp [State.poweredUp, State.sampledUp_frame, State.strapped]

/-- A field of SYS that the fuses do not report. -/
theorem State.poweredUp_fld (s : State) (role : BitVec 2) (rma : Bool) (temps : List (BitVec 16)) {f : Field}
    (hs : sysReg f.addr = true) (h1 : f.addr ≠ SYS_SERIAL_LO.addr) (h2 : f.addr ≠ SYS_SERIAL_LO.addr + 4)
    (h3 : f.addr ≠ SYS_REV.addr) : (s.poweredUp role rma temps).fld f = (s.strapped role rma).fld f := by
  have hlt : f.addr < 0x10000 := (of_decide_eq_true hs).1
  have hne : ∀ a, 0x10000 ≤ a → f.addr ≠ a := fun a ha h => absurd (h ▸ ha) (Nat.not_le.2 hlt)
  rw [← State.fld_of_anchor (State.sampledUp_anchor (s.strapped role rma) temps _) hs]
  refine State.fld_congr ?_
  rw [State.poweredUp, State.newNonce_reg _ (hne _ (by decide)), State.lcRefresh_reg _ h1 h2 h3 (hne _ (by decide)),
    State.lcReported_reg _ (hne _ (by decide))]

theorem State.sampledUp_wires (s : State) (role : BitVec 2) (rma : Bool) (temps : List (BitVec 16)) :
    ((s.strapped role rma).sampledUp temps).anchor .wires =
      { s.pins with en := true, role := role, rma := rma, bdIrq := 0 } := by
  rw [State.sampledUp_anchor]
  simp only [State.strapped, State.putB, State.put_wires, State.setMode_anchor]
  rw [State.wires_eq]

theorem State.poweredUp_wires (s : State) (role : BitVec 2) (rma : Bool) (temps : List (BitVec 16)) :
    (s.poweredUp role rma temps).anchor .wires = { s.pins with en := true, role := role, rma := rma, bdIrq := 0 } := by
  rw [State.poweredUp, State.newNonce, State.takeFree_anchor, State.setReg_wires, State.lcRefresh_wires,
    State.sampledUp_wires]

theorem State.rma_wires (s : State) : s.pins.rma = (s.anchor .wires).rma := by cases s; rfl

theorem State.role_wires (s : State) : s.pins.role = (s.anchor .wires).role := by cases s; rfl

/-- The fuses are reported, and RMA_N as it was sampled. -/
theorem State.poweredUp_lcState (s : State) (role : BitVec 2) (rma : Bool) (temps : List (BitVec 16)) :
    (s.poweredUp role rma temps).fld LC_STATE.STATE = s.otp.state ∧
      (s.poweredUp role rma temps).flag LC_STATE.RMA_PIN = !rma := by
  have hotp : ((s.strapped role rma).sampledUp temps).otp = s.otp := by
    rw [State.rd_otp, State.rd_otp, State.sampledUp_frame _ _ _ (by decide) (by decide),
      State.strapped_frame _ _ _ _ (by decide) (by decide)]
  have hrma : ((s.strapped role rma).sampledUp temps).pins.rma = rma := by
    rw [State.rma_wires, State.sampledUp_wires]
  have hreg := State.newNonce_reg ((s.strapped role rma).sampledUp temps).lcRefresh (a := LC_STATE.addr) (by decide)
  constructor
  · rw [State.poweredUp, State.fld_congr hreg, State.lcRefresh_state, hotp]
  · rw [State.poweredUp, State.flag_congr hreg, State.lcRefresh_rmaPin, hrma]

/-- The straps and TRANSIT. -/
theorem State.strapped_fields (s : State) (role : BitVec 2) (rma : Bool) :
    (s.strapped role rma).fld SYS_MODE.BOOT_STEP = 1 ∧ (s.strapped role rma).fld SYS_ROLE.ROLE = role.toNat ∧
      (s.strapped role rma).flag SYS_DEVIDX.VALID = decide (2 ≤ role.toNat) ∧
      (s.strapped role rma).flag SYS_STATUS.TRANSIT = true := by
  unfold State.strapped
  refine ⟨?_, ?_, ?_, State.flag_put_one _ _ (by decide) (by decide)⟩
  · rw [State.fld_put_ne _ _ (by decide), State.putB, State.fld_put_ne _ _ (by decide), State.fld_put_ne _ _ (by decide),
      State.fld_put_same _ _ _ (by decide)]
    rfl
  · rw [State.fld_put_ne _ _ (by decide), State.putB, State.fld_put_ne _ _ (by decide), State.fld_put_same _ _ _ (by decide)]
    exact Nat.mod_eq_of_lt role.isLt
  · rw [State.flag, State.fld_put_ne _ _ (by decide), ← State.flag]
    exact State.flag_putB_same _ _ _ (by decide) rfl

/-- The module in BOOT step 1 where no sensor is too hot. -/
theorem uvloStart_leads_to_boot (role : BitVec 2) (rma : Bool) (temps : List (BitVec 16)) {s : State} (ho : s.mode = .off)
    (hs : s.shed = none) (hlen : temps.length = 40)
    (hcool : ∀ x ∈ temps, tempInvalid x = false ∧ signed 16 x.toNat < 1280) :
    ∃ t, exec (.uvloStart role rma temps) s = .next t ∧ t.mode = .boot ∧ t.fld SYS_MODE.BOOT_STEP = 1 ∧
      t.fld SYS_ROLE.ROLE = role.toNat ∧ t.flag SYS_DEVIDX.VALID = decide (2 ≤ role.toNat) ∧
      t.flag SYS_STATUS.TRANSIT = true ∧ t.fld LC_STATE.STATE = s.otp.state ∧ t.flag LC_STATE.RMA_PIN = !rma ∧
      t.pins.en = true ∧ t.pins.role = role ∧ t.pins.rma = rma ∧ t.otp = s.otp ∧ t.flash = s.flash ∧
      t.pending = s.pending := by
  have hhot : (s.poweredUp role rma temps).bootHot = none := by
    refine State.bootHot_of_cool fun i hi => ?_
    rw [State.poweredUp_sensor _ _ _ _ hi, List.getD_eq_getElem _ _ (by omega)]
    exact hcool _ (List.getElem_mem _)
  have hexec : exec (.uvloStart role rma temps) s = .next (s.poweredUp role rma temps) := by
    rw [exec_uvloStart_of_off role rma temps ho hs, State.bootCheck, hhot]
  have hrd : ∀ fd : Followed, fd ≠ .jtag → fd ≠ .mode → fd ≠ .dram → fd ≠ .sensors →
      (s.poweredUp role rma temps).rd fd = s.rd fd := fun fd h1 h2 h3 h4 => by
    simp [State.poweredUp, State.sampledUp_frame, State.strapped_frame, h1, h2, h3, h4]
  obtain ⟨hlc, hpin⟩ := State.poweredUp_lcState s role rma temps
  obtain ⟨hstep, hrole, hvalid, htransit⟩ := State.strapped_fields s role rma
  have hfld : ∀ f : Field, sysReg f.addr = true → f.addr ≠ SYS_SERIAL_LO.addr → f.addr ≠ SYS_SERIAL_LO.addr + 4 →
      f.addr ≠ SYS_REV.addr → (s.poweredUp role rma temps).fld f = (s.strapped role rma).fld f :=
    fun f h0 h1 h2 h3 => State.poweredUp_fld s role rma temps h0 h1 h2 h3
  have hwires := State.poweredUp_wires s role rma temps
  refine ⟨_, hexec, State.poweredUp_mode _ _ _ _, ?_, ?_, ?_, ?_, hlc, hpin, ?_, ?_, ?_, ?_, ?_, ?_⟩
  · rw [hfld _ (by decide) (by decide) (by decide) (by decide), hstep]
  · rw [hfld _ (by decide) (by decide) (by decide) (by decide), hrole]
  · rw [State.flag, hfld _ (by decide) (by decide) (by decide) (by decide), ← State.flag, hvalid]
  · rw [State.flag, hfld _ (by decide) (by decide) (by decide) (by decide), ← State.flag, htransit]
  · rw [State.en_wires, hwires]
  · rw [State.role_wires, hwires]
  · rw [State.rma_wires, hwires]
  · rw [State.rd_otp, State.rd_otp, hrd _ (by decide) (by decide) (by decide) (by decide)]
  · rw [State.rd_flash, State.rd_flash, hrd _ (by decide) (by decide) (by decide) (by decide)]
  · rw [State.rd_pending, State.rd_pending, hrd _ (by decide) (by decide) (by decide) (by decide)]

/-- A valid sensor at 160 degrees or more: fatal fault 5 (R32). -/
theorem uvloStart_leads_to_safe (role : BitVec 2) (rma : Bool) {temps : List (BitVec 16)} {i : Nat} {s : State}
    (ho : s.mode = .off) (hs : s.shed = none) (hi : i < 40) (hv : tempInvalid (temps.getD i 0) = false)
    (hh : 1280 ≤ signed 16 (temps.getD i 0).toNat) :
    ∃ t, exec (.uvloStart role rma temps) s = .next t ∧ t.mode = .safe ∧ t.otp = s.otp := by
  obtain ⟨u, hu⟩ : ∃ u, (s.poweredUp role rma temps).bootHot = some u :=
    State.bootHot_of_hot hi (by rwa [State.poweredUp_sensor _ _ _ _ hi]) (by rwa [State.poweredUp_sensor _ _ _ _ hi])
  have hexec : exec (.uvloStart role rma temps) s = .next ((s.poweredUp role rma temps).fatal 5 u 0) := by
    rw [exec_uvloStart_of_off role rma temps ho hs, State.bootCheck, hu]
  refine ⟨_, hexec, State.fatal_mode _ _ _ (by rw [State.poweredUp_mode]; decide), ?_⟩
  rw [State.rd_otp, State.rd_otp]
  exact execUvloStart_frame _ _ _ _ _ hexec _ (by decide) (by decide) (by decide) (by decide) (by decide) (by decide)

/-! ## The end of BOOT step 1 -/

theorem State.updateCold_eq (s : State) : ∃ cold us, s.updateCold = (s.putB CLK_STATUS.TB_COLD cold).withUnits us := by
  rw [State.updateCold]
  split
  · exact ⟨_, _, rfl⟩
  · exact ⟨_, s.units, rfl⟩

/-- A choice of the clock source is in CLK_STATUS and in the units that measure a gate. -/
theorem State.selectSource_eq (s : State) : ∃ src cold us,
    s.selectSource = ((s.put CLK_STATUS.SRC_ACTIVE src).putB CLK_STATUS.TB_COLD cold).withUnits us := by
  obtain ⟨cold, us, h⟩ := State.updateCold_eq (s.put CLK_STATUS.SRC_ACTIVE
    (if s.flag CLK_STATUS.ROOT_LOCK = false then 0 else if s.srcValid s.srcWanted then s.srcWanted else 3))
  exact ⟨_, cold, us, h⟩

/-- The clocks locked and the count begun. -/
def State.clocksUp (s : State) : State :=
  ((((((s.put CLK_STATUS.OCXO_OK 1).put CLK_STATUS.ROOT_LOCK 1).put CLK_STATUS.PCIE_LOCK 1).selectSource).withTime
    0).withCounting true)

theorem exec_softStart_of_step {s : State} (rail : Option (Fin 8)) (hm : s.mode = .boot)
    (hstep : s.fld SYS_MODE.BOOT_STEP = 1) : exec (.softStart rail) s =
      match rail with
      | some r => .next (s.clocksUp.fatal 8 r 0)
      | none => .next ((s.clocksUp.put PWR_STATUS.POWER_GOOD 1).bootStep 2) := by
  rw [exec_softStart, execSoftStart, if_pos (by simp [State.bootAt, hm, hstep])]
  rfl

/-- The registers that SOFT_START stores. -/
def State.softRegs (s : State) (src : Nat) (cold : Bool) : State :=
  (((((((s.put CLK_STATUS.OCXO_OK 1).put CLK_STATUS.ROOT_LOCK 1).put CLK_STATUS.PCIE_LOCK 1).put CLK_STATUS.SRC_ACTIVE
    src).putB CLK_STATUS.TB_COLD cold).put PWR_STATUS.POWER_GOOD 1).put SYS_MODE.BOOT_STEP 2)

theorem State.put_withUnits (s : State) (f : Field) (v : Nat) (us : Tab TdcUnit) :
    (s.withUnits us).put f v = (s.put f v).withUnits us := by cases s; rfl

theorem State.put_withTime (s : State) (f : Field) (v : Nat) (t : BitVec 64) :
    (s.withTime t).put f v = (s.put f v).withTime t := by cases s; rfl

theorem State.put_withCounting (s : State) (f : Field) (v : Nat) (b : Bool) :
    (s.withCounting b).put f v = (s.put f v).withCounting b := by cases s; rfl

theorem State.clocksUp_eq (s : State) : ∃ src cold us, (s.clocksUp.put PWR_STATUS.POWER_GOOD 1).bootStep 2 =
    (((s.softRegs src cold).withUnits us).withTime 0).withCounting true := by
  obtain ⟨src, cold, us, hsel⟩ :=
    State.selectSource_eq (((s.put CLK_STATUS.OCXO_OK 1).put CLK_STATUS.ROOT_LOCK 1).put CLK_STATUS.PCIE_LOCK 1)
  refine ⟨src, cold, us, ?_⟩
  rw [State.clocksUp, hsel, State.bootStep]
  simp only [State.put_withCounting, State.put_withTime, State.put_withUnits]
  rfl

theorem State.softRegs_reg (s : State) (src : Nat) (cold : Bool) :
    RegsBut [CLK_STATUS.addr, PWR_STATUS.addr, SYS_MODE.addr] s (s.softRegs src cold) := fun a ha => by
  simp only [List.mem_cons, List.not_mem_nil, or_false, not_or] at ha
  obtain ⟨hclk, hpwr, hmode⟩ := ha
  rw [State.softRegs, State.reg_put_ne _ _ hmode, State.reg_put_ne _ _ hpwr, State.reg_putB_ne _ _ hclk,
    State.reg_put_ne _ _ hclk, State.reg_put_ne _ _ hclk, State.reg_put_ne _ _ hclk, State.reg_put_ne _ _ hclk]

/-- A field of CLK_STATUS apart from SRC_ACTIVE and TB_COLD, as the locks leave it. -/
theorem State.softRegs_clk (s : State) (src : Nat) (cold : Bool) {f : Field} (ha : f.addr = CLK_STATUS.addr)
    (h : f.lo + f.len ≤ 8 ∨ f.lo + f.len = 11 ∧ 10 ≤ f.lo) : (s.softRegs src cold).fld f =
      (((s.put CLK_STATUS.OCXO_OK 1).put CLK_STATUS.ROOT_LOCK 1).put CLK_STATUS.PCIE_LOCK 1).fld f := by
  have hcold : CLK_STATUS.TB_COLD.lo + CLK_STATUS.TB_COLD.len ≤ f.lo ∨ f.lo + f.len ≤ CLK_STATUS.TB_COLD.lo :=
    .inr (show f.lo + f.len ≤ 11 by omega)
  have hsrc : CLK_STATUS.SRC_ACTIVE.lo + CLK_STATUS.SRC_ACTIVE.len ≤ f.lo ∨ f.lo + f.len ≤ CLK_STATUS.SRC_ACTIVE.lo :=
    show 10 ≤ f.lo ∨ f.lo + f.len ≤ 8 by omega
  rw [State.softRegs, State.fld_put_ne _ _ (by rw [ha]; decide), State.fld_put_ne _ _ (by rw [ha]; decide), State.putB,
    State.fld_put_apart _ _ (by exact ha) (by decide) hcold, State.fld_put_apart _ _ (by exact ha) (by decide) hsrc]

theorem State.softRegs_locks (s : State) (src : Nat) (cold : Bool) :
    (s.softRegs src cold).flag CLK_STATUS.OCXO_OK = true ∧ (s.softRegs src cold).flag CLK_STATUS.ROOT_LOCK = true ∧
      (s.softRegs src cold).flag CLK_STATUS.PCIE_LOCK = true := by
  refine ⟨?_, ?_, ?_⟩
  · rw [State.flag, State.softRegs_clk _ _ _ rfl (by decide), State.fld_put_apart _ _ (by decide) (by decide) (by decide),
      State.fld_put_apart _ _ (by decide) (by decide) (by decide), ← State.flag]
    exact State.flag_put_one _ _ (by decide) (by decide)
  · rw [State.flag, State.softRegs_clk _ _ _ rfl (by decide), State.fld_put_apart _ _ (by decide) (by decide) (by decide),
      ← State.flag]
    exact State.flag_put_one _ _ (by decide) (by decide)
  · rw [State.flag, State.softRegs_clk _ _ _ rfl (by decide), ← State.flag]
    exact State.flag_put_one _ _ (by decide) (by decide)

theorem State.softRegs_withRegs (s : State) (src : Nat) (cold : Bool) (r : Tab Word) :
    (s.softRegs src cold).withRegs r = s.withRegs r := by
  simp only [State.softRegs, State.putB, State.put_withRegs]

theorem State.reg_of_counting (u : State) (us : Tab TdcUnit) (t : BitVec 64) (b : Bool) (a : Nat) :
    (((u.withUnits us).withTime t).withCounting b).reg a = u.reg a := rfl

/-- Registers, time, units and the count are all that a state with these differs in. -/
theorem State.restored {s u : State} (h : u.withRegs s.regs = s) (us : Tab TdcUnit) (t : BitVec 64) (b : Bool) :
    ((((((u.withUnits us).withTime t).withCounting b).withRegs s.regs).withTime s.time).withUnits s.units).withCounting
      s.counting = s := calc
  _ = (((u.withRegs s.regs).withTime s.time).withUnits s.units).withCounting s.counting := rfl
  _ = s := by rw [h]

theorem softStart_ends_bootStep_one {s : State} (hm : s.mode = .boot) (hstep : s.fld SYS_MODE.BOOT_STEP = 1) :
    ∃ t, exec (.softStart none) s = .next t ∧ t.mode = .boot ∧ t.fld SYS_MODE.BOOT_STEP = 2 ∧ t.time = 0 ∧
      t.flag CLK_STATUS.OCXO_OK = true ∧ t.flag CLK_STATUS.ROOT_LOCK = true ∧ t.flag CLK_STATUS.PCIE_LOCK = true ∧
      t.flag PWR_STATUS.POWER_GOOD = true ∧ t.counting = true ∧
      (((t.withRegs s.regs).withTime s.time).withUnits s.units).withCounting s.counting = s ∧
      RegsBut [CLK_STATUS.addr, PWR_STATUS.addr, SYS_MODE.addr] s t := by
  obtain ⟨src, cold, us, heq⟩ := s.clocksUp_eq
  obtain ⟨hocxo, hroot, hpcie⟩ := s.softRegs_locks src cold
  have hreg := State.reg_of_counting (s.softRegs src cold) us 0 true
  refine ⟨_, (exec_softStart_of_step none hm hstep).trans (congrArg Host.Outcome.next heq), ?_, ?_, rfl, ?_, ?_, ?_, ?_, rfl,
    State.restored (s.softRegs_withRegs src cold s.regs) us 0 true, fun a ha => (hreg a).trans (s.softRegs_reg src cold a ha)⟩
  · rw [State.rd_mode, ← hm, State.rd_mode]
    simp [State.softRegs]
  · rw [State.fld_congr (hreg _)]
    exact State.fld_put_same _ _ _ (by decide)
  · rw [State.flag_congr (hreg _), hocxo]
  · rw [State.flag_congr (hreg _), hroot]
  · rw [State.flag_congr (hreg _), hpcie]
  · rw [State.flag_congr (hreg _), State.softRegs, State.flag, State.fld_put_ne _ _ (by decide), ← State.flag]
    exact State.flag_put_one _ _ (by decide) (by decide)

/-- A rail out of range: fatal fault 8 (R32). -/
theorem softStart_leads_to_safe (rail : Fin 8) {s : State} (hm : s.mode = .boot) (hstep : s.fld SYS_MODE.BOOT_STEP = 1) :
    ∃ t, exec (.softStart (some rail)) s = .next t ∧ t.mode = .safe ∧ t.otp = s.otp := by
  have hmode : s.clocksUp.mode = .boot := by
    rw [State.rd_mode, ← hm, State.rd_mode]
    simp [State.clocksUp]
  have hotp : s.clocksUp.otp = s.otp := by
    rw [State.rd_otp, State.rd_otp]
    simp [State.clocksUp]
  exact ⟨_, exec_softStart_of_step (some rail) hm hstep, State.fatal_mode _ _ _ (by rw [hmode]; decide),
    (State.fatal_otp _ _ _ _).trans hotp⟩

/-- Settles O9: the registers of SYS that BOOT step 1 stores come through the temperatures' check, which alone decides
between BOOT and SAFE. -/
theorem poweringUpCompletes : Obligations.PoweringUpCompletes := by
  unfold Obligations.PoweringUpCompletes
  exact ⟨fun role rma temps s ho hs hlen hcool => uvloStart_leads_to_boot role rma temps ho hs hlen hcool,
    fun role rma temps i s ho hs hi hv hh => uvloStart_leads_to_safe role rma ho hs hi hv hh,
    fun s hm hstep => softStart_ends_bootStep_one hm hstep, fun rail s hm hstep => softStart_leads_to_safe rail hm hstep⟩

end Sys2Proof.Machine
end

section
/-! SUPPORT. What the links, the whistles and the monitors leave of the mode: only IDLE and RUN take turns. -/

namespace Sys2Proof.Machine

@[simp] theorem Mode.still_idle : Mode.idle.still = none := rfl

theorem State.still_of_inService {s : State} (h : s.inService = true) : (s.rd .mode).still = none := by
  rw [← State.rd_mode]
  unfold State.inService at h
  split at h
  next hm => rw [hm]; rfl
  next hm => rw [hm]; rfl
  next hm => rw [hm]; rfl
  next => cases h

/-- A device that serves is in IDLE after it is orphaned, and stays in the mode it is in otherwise (R17). -/
@[simp] theorem State.orphan_still (s : State) : (s.orphan.rd .mode).still = (s.rd .mode).still := by
  have hfirst : ((s.put SYS_STATUS.ORPHANED 1).sysIrq 4).rd .mode = s.rd .mode := by simp
  rw [← hfirst, State.orphan]
  generalize (s.put SYS_STATUS.ORPHANED 1).sysIrq 4 = u
  dsimp only
  split
  next hu => simp [State.still_of_inService hu]
  next => rfl

@[simp] theorem State.disagree_still (s : State) (sh : Nat) (d : Nat) : ((State.disagree s sh d).rd .mode).still =
    (s.rd .mode).still := by
  simp [State.disagree]

@[simp] theorem State.disagreeAll_still (s : State) (d : Nat) : ((State.disagreeAll s d).rd .mode).still = (s.rd
    .mode).still := by
  simp [State.disagreeAll]

@[simp] theorem State.deviceLost_still (d : Nat) (s : State) : ((State.deviceLost d s).rd .mode).still = (s.rd
    .mode).still := by
  simp [State.deviceLost]

@[simp] theorem State.partnerLost_still (s : State) (p : Nat) : ((State.partnerLost s p).rd .mode).still = (s.rd
    .mode).still := by
  simp [State.partnerLost]

@[simp] theorem State.portLeaves_still (s : State) (p : Nat) (st : Nat) (cause : Nat) : ((State.portLeaves s p st
    cause).rd .mode).still = (s.rd .mode).still := by
  simp [State.portLeaves]

@[simp] theorem State.portRetrain_still (s : State) (p : Nat) : ((State.portRetrain s p).rd .mode).still = (s.rd
    .mode).still := by
  simp [State.portRetrain]

@[simp] theorem State.portHold_still (s : State) (p : Nat) (cause : Nat) : ((State.portHold s p cause).rd .mode).still
    = (s.rd .mode).still := by
  simp [State.portHold]

@[simp] theorem State.takeJoin_still (s : State) (d : Nat) (ws : List Word) : ((State.takeJoin s d ws).rd .mode).still
    = (s.rd .mode).still := by
  simp [State.takeJoin]

@[simp] theorem State.upBarker_still (s : State) : ((State.upBarker s).rd .mode).still = (s.rd .mode).still := by
  simp [State.upBarker]

@[simp] theorem State.downBarker_still (s : State) (p : Nat) : ((State.downBarker s p).rd .mode).still = (s.rd
    .mode).still := by
  simp [State.downBarker]

@[simp] theorem State.holdover_still (s : State) : ((State.holdover s).rd .mode).still = (s.rd .mode).still := by
  simp [State.holdover]

@[simp] theorem State.armedGo_still (s : State) (n : Nat) (r : StartReq) : ((State.armedGo s n r).rd .mode).still =
    (s.rd .mode).still := by
  simp [State.armedGo]

@[simp] theorem State.replay_still (s : State) (p : Nat) : ((State.replay s p).rd .mode).still = (s.rd .mode).still :=
    by
  simp only [State.replay]
  (repeat' split) <;> simp

@[simp] theorem State.recordTells_still (s : State) (r : EvtRec) : ((State.recordTells s r).rd .mode).still = (s.rd
    .mode).still := by
  simp [State.recordTells]

@[simp] theorem State.takeWhistle_still (s : State) (p : Port) (w : WhistleIn) (kind : Nat) (cue : Nat) (t : Nat) :
    ((State.takeWhistle s p w kind cue t).rd .mode).still = (s.rd .mode).still := by
  simp [State.takeWhistle]

end Sys2Proof.Machine
end

section
/-! PROOF. Only UVLO_START leaves OFF (O8). -/

namespace Sys2Proof.Machine

/-! ## OFF kept -/

theorem off_of_frame {s t : State} (hs : s.mode = .off) (h : t.rd .mode = s.rd .mode) : t.mode = .off := h.trans hs

theorem off_of_still {s t : State} (hs : s.mode = .off) (h : (t.rd .mode).still = (s.rd .mode).still) : t.mode = .off :=
  Mode.eq_of_still (h.trans (congrArg Mode.still hs)) (Option.some_ne_none _)

/-- A command that ends in a state in OFF. -/
theorem off_of_next {t u : State} (h : (Host.Outcome.next u : Res) = .next t) (hu : u.mode = .off) : t.mode = .off :=
  Host.Outcome.next.inj h ▸ hu

section
variable {s : State} (hs : s.mode = .off)
include hs

theorem State.bootAt_of_off (k : Nat) : s.bootAt k = false := by
  rw [State.bootAt, hs]
  rfl

theorem State.inService_of_off : s.inService = false := by
  rw [State.inService, hs]

/-! ## Writes and reads (R347) -/

theorem State.access_of_off (a : Nat) : s.access a = .none := by
  rw [State.access, hs]

theorem State.accessOf_of_off (src : Src) (a : Nat) : s.accessOf src a = .none := by
  unfold State.accessOf
  exact if_pos hs

theorem State.hostWrite_of_off (a : Nat) (v : Word) (k : State → State) : s.hostWrite a v k = s := by
  rw [State.hostWrite, State.access_of_off hs, if_neg (by decide)]

theorem State.busWrite_of_off (src : Src) (a : Nat) (v : Word) (be : BitVec 4) : s.busWrite src a v be = s := by
  rw [State.busWrite, State.accessOf_of_off hs]

theorem State.windowEcc_of_off (src : Src) (a n : Nat) (ecc : Ecc) : s.windowEcc src a n ecc = s := by
  rw [State.windowEcc, State.windowOpen, State.accessOf_of_off hs, if_pos rfl]

theorem State.busWrite_off (src : Src) (a : Nat) (v : Word) (be : BitVec 4) : (s.busWrite src a v be).mode = .off := by
  rw [State.busWrite_of_off hs, hs]

theorem State.hostWrite_off (a : Nat) (v : Word) (k : State → State) : (s.hostWrite a v k).mode = .off := by
  rw [State.hostWrite_of_off hs, hs]

theorem State.busWrites_off (src : Src) (a : Nat) (ws : List Word) : (State.busWrites src a ws s).mode = .off := by
  induction ws generalizing a with
  | nil => exact hs
  | cons w ws ih => rw [State.busWrites, State.busWrite_of_off hs, ih]

theorem State.readWords_off (src : Src) (a n : Nat) (ecc : Ecc) : (s.readWords src a n ecc).2.mode = .off := by
  have hreads : (State.busReads src n a s).2.mode = .off := off_of_frame hs (State.busReads_frame _ _ _ _ _)
  rw [State.readWords, State.windowEcc_of_off hreads]
  dsimp only
  split
  · exact off_of_frame hreads (State.freeBytes_frame _ _ _)
  · exact hreads

theorem State.fatal_mode_of_off (code unit detail : Nat) : (s.fatal code unit detail).mode = .off := by
  rw [State.fatal_off _ _ _ hs, hs]

theorem State.shedding_off (why : Shed) : (s.shedding why).mode = .off := by
  unfold State.shedding
  split
  next => exact hs
  next ho => exact absurd hs ho

/-! ## The pool (R132) -/

theorem State.poolEcc_off (o n : Nat) (ecc : Ecc) : (s.poolEcc o n ecc).mode = .off := by
  have hecc : (s.sramEcc 1 o n ecc).mode = .off := off_of_frame hs (State.sramEcc_frame _ _ _ _ _ _ (by decide))
  rw [State.poolEcc]
  split
  · exact State.fatal_mode_of_off hecc _ _ _
  · exact hecc

theorem State.atomicOn_off (acc : Access) (o n : Nat) (ecc : Ecc) (f : Nat → Nat) : (s.atomicOn acc o n ecc f).mode = .off := by
  rw [State.atomicOn]
  refine off_of_frame (State.poolEcc_off ?_ o n ecc) (State.answer_frame _ _ _ _)
  refine off_of_frame hs ?_
  simp

theorem State.atomic_off (a : AtomicAt) (n : Nat) (f : Nat → Nat) : (s.atomic a n f).mode = .off := by
  rw [State.atomic]
  split
  · exact hs
  · split
    · exact hs
    · split
      · exact off_of_frame hs (State.answer_frame _ _ _ _)
      · exact State.atomicOn_off hs _ _ _ _ _

/-! ## The lifecycle (R341): the reset of a transition waits for power -/

theorem State.lcReset_of_off : s.lcReset = s := by
  rw [State.lcReset]
  split
  · split
    · exact if_pos (.inr hs)
    · rfl
  · rfl

theorem State.lcReset_off : s.lcReset.mode = .off := by
  rw [State.lcReset_of_off hs, hs]

theorem State.lcDone_off (j : LcJob) : (s.lcDone j).mode = .off := by
  rw [State.lcDone]
  split
  · exact hs
  · split <;> exact off_of_frame hs (by simp)
  · refine State.lcReset_off (off_of_frame hs ?_)
    split <;> simp

theorem State.lcRun_off : s.lcRun.mode = .off := by
  rw [State.lcRun]
  split
  · exact hs
  · split
    · exact hs
    next j hj hb =>
      have hgo : (State.blowGo j.blows s).1.mode = .off := off_of_frame hs (State.blowGo_frame _ _ _ (by decide) (by decide))
      refine off_of_frame ?_ (State.nvmFlags_frame _ _)
      split
      · exact State.lcDone_off hgo _
      · split
        · exact off_of_frame hgo (State.lcFail_frame _ _ _ (by decide))
        · exact hgo

/-! ## Host commands: none is taken (R321) -/

theorem State.headCmd_of_off (q : Nat) (id : BitVec 64) (op : Nat) : s.headCmd q id op = none := by
  rw [State.headCmd]
  split
  · rfl
  · exact if_neg fun h => h.2.2.1 hs

theorem cmdStart_of_off (q : Nat) (id : BitVec 64) (op : Nat) (ready : HostCmd → State → Bool) (k : HostCmd → State → State) :
    cmdStart q id op ready k s = .next s := by
  rw [cmdStart, State.headCmd_of_off hs]

theorem State.regWord_off (q id a : Nat) (ws : List Word) : (s.regWord q id a ws).mode = .off := by
  have hq : (s.setQueue q ((s.queue q).forget id)).mode = .off := hs
  unfold State.regWord
  split
  · exact off_of_frame hq (State.finish_frame _ _ _ _ _ _)
  · dsimp only
    rw [State.busWrite_of_off hq]
    split
    · exact off_of_frame hq (State.finish_frame _ _ _ _ _ _)
    · split
      · exact hq
      · exact hq

/-! ## Frames that arrive -/

theorem State.receive_off (p : Port) (h : FrameHdr) (rsp : Bool) {k : State → State}
    (hk : ∀ u : State, u.mode = .off → (k u).mode = .off) : (s.receive p h rsp k).mode = .off := by
  rw [State.receive]
  split
  · dsimp only
    split
    · exact hk _ hs
    · split
      · exact hs
      · split
        · exact hs
        · exact hs
  · exact hs

/-! ## The commands that may change the mode, from OFF -/

theorem execSoftStart_of_off (rail : Option (Fin 8)) : execSoftStart rail s = .next s := by
  rw [execSoftStart, if_neg (by simp [State.bootAt_of_off hs])]

theorem execSramClear_of_off (failmap : BitVec 16) : execSramClear failmap s = .next s := by
  rw [execSramClear, if_neg (by simp [State.bootAt_of_off hs])]

theorem execSelfTest_of_off (failmap : BitVec 16) : execSelfTest failmap s = .next s := by
  rw [execSelfTest, if_neg (by simp [State.bootAt_of_off hs])]

theorem execDramTraining_of_off (bad : Option (Fin 4 × BitVec 16)) : execDramTraining bad s = .next s := by
  unfold execDramTraining
  exact if_neg (by simp [State.bootAt_of_off hs])

theorem execNvmDiscovery_of_off (sfdp : Option Sfdp) : execNvmDiscovery sfdp s = .next s := by
  rw [execNvmDiscovery, if_neg (by simp [State.bootAt_of_off hs])]

theorem execImageRead_of_off : execImageRead s = .next s := by
  rw [execImageRead, if_neg (by simp [State.bootAt_of_off hs])]

theorem execApply_of_off (rb : List Readback) : execApply rb s = .next s := by
  rw [execApply, if_neg (by simp [State.bootAt_of_off hs])]

theorem execIdleEntry_of_off : execIdleEntry s = .next s := by
  rw [execIdleEntry, if_neg (by simp [State.bootAt_of_off hs])]

theorem execFatalFault_of_off (code : Fin 13) (unit : BitVec 8) (detail : BitVec 16) :
    execFatalFault code unit detail s = .next s := by
  rw [execFatalFault, State.fatal_off _ _ _ hs, ite_self]

theorem execRailFault_of_off (rail : Fin 8) : execRailFault rail s = .next s := by
  rw [execRailFault, if_pos hs]

theorem execClockLoss_of_off : execClockLoss s = .next s := by
  rw [execClockLoss, if_pos (.inl hs)]

theorem execTempSample_of_off (temps : List (BitVec 16)) : execTempSample temps s = .next s := by
  rw [execTempSample, if_pos (.inl hs)]

theorem execReturnFrame_of_off (d : Die) (f : RetFrame) (ecc : Ecc) : execReturnFrame d f ecc s = .next s := by
  rw [execReturnFrame, if_pos (State.inService_of_off hs)]

theorem execFullRunDone_of_off (dies : List DieMeas) (ms : List FullMeas) : execFullRunDone dies ms s = .next s := by
  rw [execFullRunDone, if_neg (by simp [hs])]

theorem execLoRead_of_off (src : Src) (a : BitVec 26) (ecc : Ecc) : execLoRead src a ecc s = .next s := by
  rw [execLoRead, if_pos (.inl hs)]

theorem execMonPin_of_off (c : Chan) (uv : Int) : execMonPin c uv s = .next s := by
  rw [execMonPin]
  split
  · rfl
  · exact if_neg (by simp [State.inService_of_off hs])

theorem State.senseTrip_of_off (m : Nat) (uv : Int) : s.senseTrip m uv = s := by
  rw [State.senseTrip]
  split
  · rfl
  · exact if_neg (by simp [State.senseActive, State.inService_of_off hs])

theorem execRegRead_of_off (q : Queue) (id : BitVec 64) (ecc : Ecc) : execRegRead q id ecc s = .next s := by
  rw [execRegRead, cmdStart_of_off hs]

theorem execActStart_of_off (q : Queue) (id : BitVec 64) : execActStart q id s = .next s := by
  rw [execActStart, cmdStart_of_off hs]

theorem execModeReq_of_off (q : Queue) (id : BitVec 64) : execModeReq q id s = .next s := by
  rw [execModeReq, cmdStart_of_off hs]

theorem execWhistle_of_off (q : Queue) (id : BitVec 64) : execWhistle q id s = .next s := by
  rw [execWhistle, cmdStart_of_off hs]

theorem signedCmd_of_off (typ : Nat) (q : Queue) (id : BitVec 64) (data : HostData) (ready : State → Bool) :
    signedCmd typ q id data ready s = .next s := by
  rw [signedCmd, cmdStart_of_off hs]

theorem execSignedCalCommit_of_off (q : Queue) (id : BitVec 64) (data : HostData) : execSignedCalCommit q id data s = .next s := by
  rw [execSignedCalCommit, signedCmd_of_off hs]

theorem execKeyProgram_of_off (q : Queue) (id : BitVec 64) (data : HostData) : execKeyProgram q id data s = .next s := by
  rw [execKeyProgram, signedCmd_of_off hs]

theorem execKeyRevoke_of_off (q : Queue) (id : BitVec 64) (data : HostData) : execKeyRevoke q id data s = .next s := by
  rw [execKeyRevoke, signedCmd_of_off hs]

theorem execDecKeyProgram_of_off (q : Queue) (id : BitVec 64) (data : HostData) : execDecKeyProgram q id data s = .next s := by
  rw [execDecKeyProgram, signedCmd_of_off hs]

theorem execReturnAuth_of_off (q : Queue) (id : BitVec 64) (data : HostData) : execReturnAuth q id data s = .next s := by
  rw [execReturnAuth, signedCmd_of_off hs]

variable {t : State}

theorem execUvloStart_off {role : BitVec 2} {rma : Bool} {temps : List (BitVec 16)}
    (h : execUvloStart role rma temps s = .next t) : t.mode = .off ∨ s.shed = none := by
  by_cases hshed : s.shed = none
  · exact .inr hshed
  · rw [execUvloStart, if_pos (.inr hshed)] at h
    exact .inl (off_of_next h hs)

theorem execRootChanged_off {bad : Option RetrainFail} (h : execRootChanged bad s = .next t) : t.mode = .off := by
  unfold execRootChanged at h
  split at h
  · split at h
    · exact off_of_next h (off_of_frame hs (by simp))
    · exact off_of_next h (State.fatal_mode_of_off hs _ _ _)
    · exact off_of_next h (State.fatal_mode_of_off hs _ _ _)
  · exact off_of_next h hs

theorem execRefLost_off (h : execRefLost s = .next t) : t.mode = .off := by
  rw [execRefLost] at h
  split at h
  · exact off_of_next h hs
  · exact off_of_next h (State.fatal_mode_of_off (off_of_frame hs (by simp [State.rootLost])) _ _ _)
  · split at h
    · exact off_of_next h (off_of_still hs s.holdover_still)
    · exact off_of_next h (State.fatal_mode_of_off (off_of_frame hs (by simp [State.rootLost])) _ _ _)

theorem execFlashOpComplete_off {e : FlashEnd} (h : execFlashOpComplete e s = .next t) : t.mode = .off := by
  rw [execFlashOpComplete] at h
  split at h
  · exact off_of_next h hs
  · exact off_of_next h (State.lcReset_off (off_of_frame hs (by simp)))

theorem execHoldupRetry_off {hu : BitVec 16} (h : execHoldupRetry hu s = .next t) : t.mode = .off := by
  rw [execHoldupRetry] at h
  split at h
  · exact off_of_next h hs
  · exact off_of_next h (State.lcReset_off (State.lcRun_off (off_of_frame hs (by simp))))

theorem execOffEntry_off (h : execOffEntry s = .next t) : t.mode = .off := by
  rw [execOffEntry] at h
  split at h
  · exact off_of_next h rfl
  · exact off_of_next h hs

theorem execHoldupExhausted_off (h : execHoldupExhausted s = .next t) : t.mode = .off := by
  rw [execHoldupExhausted] at h
  split at h
  · exact off_of_next h rfl
  · exact off_of_next h hs

theorem execSenseBlankExpiry_off {m : Fin 32} {uv : Int} (h : execSenseBlankExpiry m uv s = .next t) : t.mode = .off := by
  rw [execSenseBlankExpiry] at h
  split at h
  · have hblank : ∀ x : Nat, (((s.at_ x).put (MON_SENSE_BLANK.BLANKING m) 0).withBlanks
        (Tab.set (fun _ => 0) s.blanks m 0)).mode = .off := fun x => off_of_frame hs (by simp)
    refine off_of_next h ?_
    rw [State.senseTrip_of_off (hblank _)]
    exact hblank _
  · exact off_of_next h hs

theorem execActArmed_off {n : Act} (h : execActArmed n s = .next t) : t.mode = .off := by
  rw [execActArmed] at h
  dsimp only at h
  split at h
  · split at h
    · exact off_of_next h (off_of_frame hs (by simp))
    · split at h
      · exact off_of_next h (off_of_still hs (by simp))
      · exact off_of_next h (off_of_still hs (by simp))
      · exact off_of_next h (off_of_frame hs (by simp))
  · exact off_of_next h hs

theorem execStartTime_off {n : Act} (h : execStartTime n s = .next t) : t.mode = .off := by
  rw [execStartTime] at h
  split at h
  · exact off_of_next h hs
  · split at h
    · exact off_of_next h (off_of_still hs (by simp))
    · split at h
      · exact off_of_next h (off_of_frame hs (by simp))
      · exact off_of_next h hs

theorem execActStopped_off {n : Act} (h : execActStopped n s = .next t) : t.mode = .off := by
  rw [execActStopped] at h
  split at h
  · split at h
    · exact off_of_next h (off_of_still hs (by simp))
    · exact off_of_next h hs
  · exact off_of_next h hs

theorem execRegisterWrite_off {src : Src} {a : BitVec 26} {v : Word} {be : BitVec 4}
    (h : execRegisterWrite src a v be s = .next t) : t.mode = .off := by
  rw [execRegisterWrite] at h
  split at h
  · exact off_of_next h hs
  · exact off_of_next h (State.busWrite_off hs _ _ _ _)

theorem execLinkActive_off {p : Port} {res : TrainResult} (h : execLinkActive p res s = .next t) : t.mode = .off := by
  unfold execLinkActive at h
  split at h
  · split at h
    · dsimp only at h
      split at h
      · exact off_of_next h (off_of_still hs (State.portHold_still _ _ _))
      · split at h
        · exact off_of_next h (off_of_frame hs (by simp))
        · exact off_of_next h (off_of_still hs (State.portHold_still _ _ _))
    · exact off_of_next h (off_of_still hs (State.portHold_still _ _ _))
    · exact off_of_next h (off_of_still hs (State.portHold_still _ _ _))
  · exact off_of_next h hs

theorem execBarker_off {p : Port} {w : BitVec 56} (h : execBarker p w s = .next t) : t.mode = .off := by
  rw [execBarker] at h
  split at h
  · dsimp only at h
    split at h
    · exact off_of_next h (off_of_still hs (by simp))
    · exact off_of_next h (off_of_still hs (by simp))
  · split at h
    · exact off_of_next h (off_of_frame hs (by simp))
    · exact off_of_next h hs

theorem execPartnerLost_off {p : Port} (h : execPartnerLost p s = .next t) : t.mode = .off := by
  rw [execPartnerLost] at h
  split at h
  · exact off_of_next h (off_of_still hs (State.partnerLost_still _ _))
  · exact off_of_next h hs

theorem execAck_off {p : Port} {seq : BitVec 16} {nak : Bool} {req rsp : BitVec 8} (h : execAck p seq nak req rsp s = .next t) :
    t.mode = .off := by
  rw [execAck] at h
  split at h
  · exact off_of_next h (off_of_still hs (by simp))
  · exact off_of_next h hs

theorem execReplayTimeout_off {p : Port} (h : execReplayTimeout p s = .next t) : t.mode = .off := by
  rw [execReplayTimeout] at h
  split at h
  · exact off_of_next h hs
  · split at h
    · exact off_of_next h (off_of_still hs (by simp))
    · exact off_of_next h hs

theorem execRdReq_off {p : Port} {f : FrameHdr} {a count : Word} {ecc : Ecc} (h : execRdReq p f a count ecc s = .next t) :
    t.mode = .off := by
  refine off_of_next h (State.receive_off hs _ _ _ fun u hu => ?_)
  split
  · split
    · exact off_of_frame (State.readWords_off hu _ _ _ _) (State.answerFrame_frame _ _ _ _ _ _ _)
    · exact off_of_frame hu (State.answerFrame_frame _ _ _ _ _ _ _)
  · exact off_of_frame hu (State.passReq_frame _ _ _ _ _ _ (by decide))

theorem execWrReq_off {p : Port} {f : FrameHdr} {a : Word} {words : List Word} (h : execWrReq p f a words s = .next t) :
    t.mode = .off := by
  refine off_of_next h (State.receive_off hs _ _ _ fun u hu => ?_)
  split
  · split
    · exact off_of_frame (State.busWrites_off hu _ _ _) (State.answerFrame_frame _ _ _ _ _ _ _)
    · exact off_of_frame hu (State.answerFrame_frame _ _ _ _ _ _ _)
  · exact off_of_frame hu (State.passReq_frame _ _ _ _ _ _ (by decide))

theorem execEventFrame_off {p : Port} {f : FrameHdr} {rec : List Word} (h : execEventFrame p f rec s = .next t) :
    t.mode = .off := by
  refine off_of_next h (State.receive_off hs _ _ _ fun u hu => off_of_still hu ?_)
  split
  · split <;> simp
  · simp

theorem execJoin_off {p : Port} {f : FrameHdr} {profile : List Word} (h : execJoin p f profile s = .next t) :
    t.mode = .off := by
  refine off_of_next h (State.receive_off hs _ _ _ fun u hu => off_of_still hu ?_)
  dsimp only
  split
  · split <;> simp
  · simp

theorem execShowRunTimeout_off {sh : ShowId} (h : execShowRunTimeout sh s = .next t) : t.mode = .off := by
  rw [execShowRunTimeout] at h
  split at h
  · exact off_of_next h (off_of_still hs (by simp))
  · exact off_of_next h hs

theorem execRegWrite_off {q : Queue} {id : BitVec 64} {data : HostData} (h : execRegWrite q id data s = .next t) :
    t.mode = .off := by
  rw [execRegWrite] at h
  split at h
  · exact off_of_next h (State.regWord_off hs _ _ _ _)
  · rw [cmdStart_of_off hs] at h
    exact off_of_next h hs

end

end Sys2Proof.Machine
end

section
/-! PROOF. Only UVLO_START leaves OFF (O8): the commands one by one. -/

namespace Sys2Proof.Machine

/-- Every command that answers a next state in OFF stays in OFF, but UVLO_START where no shedding goes on. -/
theorem exec_of_off {s t : State} (hs : s.mode = .off) (c : Instr) (h : exec c s = .next t) :
    t.mode = .off ∨ ∃ role rma temps, c = .uvloStart role rma temps ∧ s.shed = none := by
  cases c with
  | uvloStart role rma temps => exact (execUvloStart_off hs h).imp_right fun hshed => ⟨role, rma, temps, rfl, hshed⟩
  | softStart => exact .inl (off_of_next ((execSoftStart_of_off hs _).symm.trans h) hs)
  | sramClear => exact .inl (off_of_next ((execSramClear_of_off hs _).symm.trans h) hs)
  | returnErase => exact .inl (off_of_frame hs (execReturnErase_frame (h := h) (fd := .mode)))
  | selfTest => exact .inl (off_of_next ((execSelfTest_of_off hs _).symm.trans h) hs)
  | dramTraining => exact .inl (off_of_next ((execDramTraining_of_off hs _).symm.trans h) hs)
  | nvmDiscovery => exact .inl (off_of_next ((execNvmDiscovery_of_off hs _).symm.trans h) hs)
  | imageRead => exact .inl (off_of_next ((execImageRead_of_off hs).symm.trans h) hs)
  | apply => exact .inl (off_of_next ((execApply_of_off hs _).symm.trans h) hs)
  | idleEntry => exact .inl (off_of_next ((execIdleEntry_of_off hs).symm.trans h) hs)
  | huCapMeasured => exact .inl (off_of_frame hs (execHuCapMeasured_frame (h := h) (fd := .mode) (h1 := by decide)))
  | resetBoot => exact .inl (off_of_next h (State.hostWrite_off hs _ _ _))
  | enterCal => exact .inl (off_of_next h (State.hostWrite_off hs _ _ _))
  | leaveCal => exact .inl (off_of_next h (State.hostWrite_off hs _ _ _))
  | enterSafe => exact .inl (off_of_next h (State.hostWrite_off hs _ _ _))
  | fatalFault => exact .inl (off_of_next ((execFatalFault_of_off hs _ _ _).symm.trans h) hs)
  | railFault => exact .inl (off_of_next ((execRailFault_of_off hs _).symm.trans h) hs)
  | clockLoss => exact .inl (off_of_next ((execClockLoss_of_off hs).symm.trans h) hs)
  | hkWatchdog => exact .inl (off_of_next h (State.fatal_mode_of_off hs _ _ _))
  | tempSample => exact .inl (off_of_next ((execTempSample_of_off hs _).symm.trans h) hs)
  | enOff => exact .inl (off_of_next h (State.shedding_off (off_of_frame hs (State.withPins_frame _ _ _)) _))
  | pfail => exact .inl (off_of_next h (State.shedding_off hs _))
  | offEntry => exact .inl (execOffEntry_off hs h)
  | vinLow => exact .inl (off_of_frame hs (execVinLow_frame (h := h) (fd := .mode) (h1 := by decide)))
  | vinSurge => exact .inl (off_of_frame hs (execVinSurge_frame (h := h) (fd := .mode) (h1 := by decide)))
  | powerHigh => exact .inl (off_of_frame hs (execPowerHigh_frame (h := h) (fd := .mode) (h1 := by decide)))
  | rootChange => exact .inl (off_of_next h (State.hostWrite_off hs _ _ _))
  | refSrcWrite => exact .inl (off_of_next h (State.hostWrite_off hs _ _ _))
  | rootChanged => exact .inl (execRootChanged_off hs h)
  | refLost => exact .inl (execRefLost_off hs h)
  | refRestored => exact .inl (off_of_frame hs (execRefRestored_frame (h := h) (fd := .mode) (h1 := by decide)))
  | ocxoWarm => exact .inl (off_of_frame hs (execOcxoWarm_frame (h := h) (fd := .mode)))
  | timeWrap => exact .inl (off_of_frame hs (execTimeWrap_frame (h := h) (fd := .mode) (h1 := by decide) (h2 := by decide) (h3 := by decide)))
  | syncExchange => exact .inl (off_of_frame hs (execSyncExchange_frame (h := h) (fd := .mode)))
  | syncReq => exact .inl (off_of_frame hs (execSyncReq_frame (h := h) (fd := .mode)))
  | syncRsp => exact .inl (off_of_frame hs (execSyncRsp_frame (h := h) (fd := .mode) (h1 := by decide) (h2 := by decide)))
  | nvmRead => exact .inl (off_of_frame hs (execNvmRead_frame (h := h) (fd := .mode) (h1 := by decide) (h2 := by decide)))
  | nvmProgram => exact .inl (off_of_frame hs (execNvmProgram_frame (h := h) (fd := .mode) (h1 := by decide) (h2 := by decide)))
  | nvmErase => exact .inl (off_of_frame hs (execNvmErase_frame (h := h) (fd := .mode) (h1 := by decide) (h2 := by decide)))
  | eraseSlot => exact .inl (off_of_frame hs (execEraseSlot_frame (h := h) (fd := .mode) (h1 := by decide) (h2 := by decide)))
  | validateSlot => exact .inl (off_of_frame hs (execValidateSlot_frame (h := h) (fd := .mode) (h1 := by decide) (h2 := by decide)))
  | calCommit => exact .inl (off_of_frame hs (execCalCommit_frame (h := h) (fd := .mode) (h1 := by decide) (h2 := by decide)))
  | nvmAbort => exact .inl (off_of_frame hs (execNvmAbort_frame (h := h) (fd := .mode) (h1 := by decide) (h2 := by decide)))
  | flashOpComplete => exact .inl (execFlashOpComplete_off hs h)
  | holdupRetry => exact .inl (execHoldupRetry_off hs h)
  | persistPage => exact .inl (off_of_frame hs (execPersistPage_frame (h := h) (fd := .mode)))
  | ppmuStart => exact .inl (off_of_frame hs (execPpmuStart_frame (h := h) (fd := .mode) (h1 := by decide)))
  | ppmuDone => exact .inl (off_of_frame hs (execPpmuDone_frame (h := h) (fd := .mode) (h1 := by decide)))
  | dacReadbackScan => exact .inl (off_of_frame hs (execDacReadbackScan_frame (h := h) (fd := .mode) (h1 := by decide)))
  | senseMeasStart => exact .inl (off_of_frame hs (execSenseMeasStart_frame (h := h) (fd := .mode) (h1 := by decide)))
  | srefReadbackStart => exact .inl (off_of_frame hs (execSrefReadbackStart_frame (h := h) (fd := .mode) (h1 := by decide)))
  | conversionDone => exact .inl (off_of_frame hs (execConversionDone_frame (h := h) (fd := .mode) (h1 := by decide) (h2 := by decide)))
  | seqStart => exact .inl (off_of_next h (State.hostWrite_off hs _ _ _))
  | seqArm => exact .inl (off_of_next h (State.hostWrite_off hs _ _ _))
  | seqStop => exact .inl (off_of_next h (State.hostWrite_off hs _ _ _))
  | seqAbort => exact .inl (off_of_next h (State.hostWrite_off hs _ _ _))
  | startChecks => exact .inl (off_of_frame hs (execStartChecks_frame (h := h) (fd := .mode) (h1 := by decide)))
  | actArmed => exact .inl (execActArmed_off hs h)
  | startTime => exact .inl (execStartTime_off hs h)
  | nextVec => exact .inl (off_of_frame hs (execNextVec_frame (h := h) (fd := .mode) (h1 := by decide)))
  | repeatVec => exact .inl (off_of_frame hs (execRepeatVec_frame (h := h) (fd := .mode) (h1 := by decide)))
  | jump => exact .inl (off_of_frame hs (execJump_frame (h := h) (fd := .mode) (h1 := by decide)))
  | call => exact .inl (off_of_frame hs (execCall_frame (h := h) (fd := .mode) (h1 := by decide)))
  | ret => exact .inl (off_of_frame hs (execRet_frame (h := h) (fd := .mode) (h1 := by decide)))
  | loopVec => exact .inl (off_of_frame hs (execLoopVec_frame (h := h) (fd := .mode) (h1 := by decide)))
  | endloop => exact .inl (off_of_frame hs (execEndloop_frame (h := h) (fd := .mode) (h1 := by decide)))
  | branch => exact .inl (off_of_frame hs (execBranch_frame (h := h) (fd := .mode) (h1 := by decide)))
  | matchVec => exact .inl (off_of_frame hs (execMatchVec_frame (h := h) (fd := .mode) (h1 := by decide)))
  | matchTimeout => exact .inl (off_of_frame hs (execMatchTimeout_frame (h := h) (fd := .mode) (h1 := by decide)))
  | waitTime => exact .inl (off_of_frame hs (execWaitTime_frame (h := h) (fd := .mode) (h1 := by decide)))
  | waitTimeReached => exact .inl (off_of_frame hs (execWaitTimeReached_frame (h := h) (fd := .mode)))
  | waitWhistle => exact .inl (off_of_frame hs (execWaitWhistle_frame (h := h) (fd := .mode) (h1 := by decide)))
  | waitTimeout => exact .inl (off_of_frame hs (execWaitTimeout_frame (h := h) (fd := .mode) (h1 := by decide)))
  | callBlock => exact .inl (off_of_frame hs (execCallBlock_frame (h := h) (fd := .mode) (h1 := by decide)))
  | swap => exact .inl (off_of_frame hs (execSwap_frame (h := h) (fd := .mode) (h1 := by decide)))
  | markVec => exact .inl (off_of_frame hs (execMarkVec_frame (h := h) (fd := .mode) (h1 := by decide)))
  | halt => exact .inl (off_of_frame hs (execHalt_frame (h := h) (fd := .mode) (h1 := by decide)))
  | prefetchRecord => exact .inl (off_of_frame hs (execPrefetchRecord_frame (h := h) (fd := .mode) (h1 := by decide)))
  | forwardFrame => exact .inl (off_of_frame hs (execForwardFrame_frame (h := h) (fd := .mode) (h1 := by decide) (h2 := by decide)))
  | pinEdge => exact .inl (off_of_frame hs (execPinEdge_frame (h := h) (fd := .mode) (h1 := by decide) (h2 := by decide)))
  | returnFrame => exact .inl (off_of_next ((execReturnFrame_of_off hs _ _ _).symm.trans h) hs)
  | rqPushApply => exact .inl (off_of_frame hs (execRqPushApply_frame (h := h) (fd := .mode) (h1 := by decide)))
  | comparatorTransition => exact .inl (off_of_frame hs (execComparatorTransition_frame (h := h) (fd := .mode) (h1 := by decide) (h2 := by decide)))
  | burstTimeout => exact .inl (off_of_frame hs (execBurstTimeout_frame (h := h) (fd := .mode) (h1 := by decide)))
  | endOfL => exact .inl (off_of_frame hs (execEndOfL_frame (h := h) (fd := .mode) (h1 := by decide)))
  | actStopped => exact .inl (execActStopped_off hs h)
  | failTilePush => exact .inl (off_of_frame hs (execFailTilePush_frame (h := h) (fd := .mode) (h1 := by decide)))
  | tilePushPeriod => exact .inl (off_of_frame hs (execTilePushPeriod_frame (h := h) (fd := .mode)))
  | tileClearDone => exact .inl (off_of_frame hs (execTileClearDone_frame (h := h) (fd := .mode) (h1 := by decide)))
  | rqCtrlClear => exact .inl (off_of_frame hs (execRqCtrlClear_frame (h := h) (fd := .mode) (h1 := by decide)))
  | rqFinalize => exact .inl (off_of_frame hs (execRqFinalize_frame (h := h) (fd := .mode) (h1 := by decide)))
  | rqFinalized => exact .inl (off_of_frame hs (execRqFinalized_frame (h := h) (fd := .mode) (h1 := by decide)))
  | rqDescSel => exact .inl (off_of_frame hs (execRqDescSel_frame (h := h) (fd := .mode) (h1 := by decide)))
  | rqMapCfgWrite => exact .inl (off_of_frame hs (execRqMapCfgWrite_frame (h := h) (fd := .mode) (h1 := by decide)))
  | tdcStart => exact .inl (off_of_frame hs (execTdcStart_frame (h := h) (fd := .mode) (h1 := by decide)))
  | tdcAbort => exact .inl (off_of_frame hs (execTdcAbort_frame (h := h) (fd := .mode) (h1 := by decide)))
  | missClr => exact .inl (off_of_frame hs (execMissClr_frame (h := h) (fd := .mode) (h1 := by decide)))
  | tdcArmTime => exact .inl (off_of_frame hs (execTdcArmTime_frame (h := h) (fd := .mode) (h1 := by decide)))
  | tdcTimeout => exact .inl (off_of_frame hs (execTdcTimeout_frame (h := h) (fd := .mode) (h1 := by decide)))
  | skewWindow => exact .inl (off_of_frame hs (execSkewWindow_frame (h := h) (fd := .mode) (h1 := by decide)))
  | freqGate => exact .inl (off_of_frame hs (execFreqGate_frame (h := h) (fd := .mode) (h1 := by decide)))
  | tdcResult => exact .inl (off_of_frame hs (execTdcResult_frame (h := h) (fd := .mode)))
  | tdcStatusRead => exact .inl (off_of_frame hs (execTdcStatusRead_frame (h := h) (fd := .mode)))
  | loRead => exact .inl (off_of_next ((execLoRead_of_off hs _ _ _).symm.trans h) hs)
  | trigArm => exact .inl (off_of_frame hs (execTrigArm_frame (h := h) (fd := .mode) (h1 := by decide)))
  | trigDisarm => exact .inl (off_of_frame hs (execTrigDisarm_frame (h := h) (fd := .mode) (h1 := by decide)))
  | trigStageTimeout => exact .inl (off_of_frame hs (execTrigStageTimeout_frame (h := h) (fd := .mode) (h1 := by decide)))
  | trigHoldoffEnd => exact .inl (off_of_frame hs (execTrigHoldoffEnd_frame (h := h) (fd := .mode) (h1 := by decide)))
  | streamEnable => exact .inl (off_of_frame hs (execStreamEnable_frame (h := h) (fd := .mode) (h1 := by decide)))
  | streamDisable => exact .inl (off_of_frame hs (execStreamDisable_frame (h := h) (fd := .mode) (h1 := by decide)))
  | integEnd => exact .inl (off_of_frame hs (execIntegEnd_frame (h := h) (fd := .mode) (h1 := by decide) (h2 := by decide)))
  | recordWindowEnd => exact .inl (off_of_frame hs (execRecordWindowEnd_frame (h := h) (fd := .mode) (h1 := by decide) (h2 := by decide)))
  | stampsClose => exact .inl (off_of_frame hs (execStampsClose_frame (h := h) (fd := .mode) (h1 := by decide) (h2 := by decide)))
  | streamRecord => exact .inl (off_of_frame hs (execStreamRecord_frame (h := h) (fd := .mode) (h1 := by decide) (h2 := by decide)))
  | streamCopy => exact .inl (off_of_frame hs (execStreamCopy_frame (h := h) (fd := .mode) (h1 := by decide) (h2 := by decide)))
  | livePassStart => exact .inl (off_of_frame hs (execLivePassStart_frame (h := h) (fd := .mode)))
  | codeDensityDone => exact .inl (off_of_frame hs (execCodeDensityDone_frame (h := h) (fd := .mode)))
  | livePassEnd => exact .inl (off_of_frame hs (execLivePassEnd_frame (h := h) (fd := .mode) (h1 := by decide)))
  | calStarved => exact .inl (off_of_frame hs (execCalStarved_frame (h := h) (fd := .mode) (h1 := by decide) (h2 := by decide)))
  | calApplyWait => exact .inl (off_of_frame hs (execCalApplyWait_frame (h := h) (fd := .mode) (h1 := by decide) (h2 := by decide)))
  | fullRunDone => exact .inl (off_of_next ((execFullRunDone_of_off hs _ _).symm.trans h) hs)
  | monPin => exact .inl (off_of_next ((execMonPin_of_off hs _ _).symm.trans h) hs)
  | monDisClear => exact .inl (off_of_frame hs (execMonDisClear_frame (h := h) (fd := .mode) (h1 := by decide)))
  | dchkDisClear => exact .inl (off_of_frame hs (execDchkDisClear_frame (h := h) (fd := .mode) (h1 := by decide)))
  | monSense => exact .inl (off_of_next h (by rw [State.senseTrip_of_off hs, hs]))
  | senseRearm => exact .inl (off_of_frame hs (execSenseRearm_frame (h := h) (fd := .mode) (h1 := by decide)))
  | senseBlankExpiry => exact .inl (execSenseBlankExpiry_off hs h)
  | srefWrite => exact .inl (off_of_frame hs (execSrefWrite_frame (h := h) (fd := .mode) (h1 := by decide)))
  | clrN => exact .inl (off_of_frame hs (execClrN_frame (h := h) (fd := .mode)))
  | parkN => exact .inl (off_of_frame hs (execParkN_frame (h := h) (fd := .mode) (h1 := by decide)))
  | sysParkWrite => exact .inl (off_of_frame hs (execSysParkWrite_frame (h := h) (fd := .mode) (h1 := by decide)))
  | patrolRegion => exact .inl (off_of_frame hs (execPatrolRegion_frame (h := h) (fd := .mode) (h1 := by decide)))
  | patrolRegionDone => exact .inl (off_of_frame hs (execPatrolRegionDone_frame (h := h) (fd := .mode) (h1 := by decide)))
  | boardRead => exact .inl (off_of_frame hs (execBoardRead_frame (h := h) (fd := .mode) (h1 := by decide)))
  | boardWrite => exact .inl (off_of_frame hs (execBoardWrite_frame (h := h) (fd := .mode) (h1 := by decide)))
  | bcsRelease => exact .inl (off_of_frame hs (execBcsRelease_frame (h := h) (fd := .mode)))
  | atomicAdd => exact .inl (off_of_next h (State.atomic_off hs _ _ _))
  | atomicSwap => exact .inl (off_of_next h (State.atomic_off hs _ _ _))
  | bar2Read => exact .inl (off_of_frame hs (execBar2Read_frame (h := h) (fd := .mode) (h1 := by decide)))
  | bar2Write => exact .inl (off_of_frame hs (execBar2Write_frame (h := h) (fd := .mode) (h1 := by decide)))
  | dramPartWrite => exact .inl (off_of_frame hs (execDramPartWrite_frame (h := h) (fd := .mode) (h1 := by decide)))
  | seqCbMaskWrite => exact .inl (off_of_frame hs (execSeqCbMaskWrite_frame (h := h) (fd := .mode) (h1 := by decide)))
  | failRingChWrite => exact .inl (off_of_frame hs (execFailRingChWrite_frame (h := h) (fd := .mode) (h1 := by decide)))
  | registerWrite => exact .inl (execRegisterWrite_off hs h)
  | linkActive => exact .inl (execLinkActive_off hs h)
  | retrain => exact .inl (off_of_next h (off_of_still hs (State.portRetrain_still _ _)))
  | lnkPortCfgWrite => exact .inl (off_of_next h (State.busWrite_off hs _ _ _ _))
  | barkerSend => exact .inl (off_of_frame hs (execBarkerSend_frame (h := h) (fd := .mode)))
  | barker => exact .inl (execBarker_off hs h)
  | partnerLost => exact .inl (execPartnerLost_off hs h)
  | ack => exact .inl (execAck_off hs h)
  | replayTimeout => exact .inl (execReplayTimeout_off hs h)
  | lnkTimeout => exact .inl (off_of_frame hs (execLnkTimeout_frame (h := h) (fd := .mode) (h1 := by decide) (h2 := by decide) (h3 := by decide)))
  | rdReq => exact .inl (execRdReq_off hs h)
  | wrReq => exact .inl (execWrReq_off hs h)
  | rdRsp => exact .inl (off_of_frame hs (execRdRsp_frame _ _ _ _ _ _ h .mode (by decide)))
  | wrRsp => exact .inl (off_of_frame hs (execWrRsp_frame _ _ _ _ _ h .mode (by decide)))
  | eventFrame => exact .inl (execEventFrame_off hs h)
  | join => exact .inl (execJoin_off hs h)
  | joinSend => exact .inl (off_of_frame hs (execJoinSend_frame (h := h) (fd := .mode)))
  | showReport => exact .inl (off_of_frame hs (execShowReport_frame _ _ _ _ _ _ _ _ _ _ h .mode (by decide)))
  | showRunTimeout => exact .inl (execShowRunTimeout_off hs h)
  | bench => exact .inl (off_of_frame hs (execBench_frame _ _ _ _ _ _ h .mode (by decide)))
  | showUnbench => exact .inl (off_of_next h (State.busWrite_off hs _ _ _ _))
  | stopWhistle => exact .inl (off_of_next h (off_of_still hs (State.takeWhistle_still _ _ _ _ _ _)))
  | parkWhistle => exact .inl (off_of_next h (off_of_still hs (State.takeWhistle_still _ _ _ _ _ _)))
  | abortWhistle => exact .inl (off_of_next h (off_of_still hs (State.takeWhistle_still _ _ _ _ _ _)))
  | startWhistle => exact .inl (off_of_next h (off_of_still hs (State.takeWhistle_still _ _ _ _ _ _)))
  | cueWhistle => exact .inl (off_of_next h (off_of_still hs (State.takeWhistle_still _ _ _ _ _ _)))
  | whistleWindow => exact .inl (off_of_frame hs (execWhistleWindow_frame (h := h) (fd := .mode) (h1 := by decide)))
  | sendStop => exact .inl (off_of_next h (State.busWrite_off hs _ _ _ _))
  | sendPark => exact .inl (off_of_next h (State.busWrite_off hs _ _ _ _))
  | sendAbort => exact .inl (off_of_next h (State.busWrite_off hs _ _ _ _))
  | sendStart => exact .inl (off_of_next h (State.busWrite_off hs _ _ _ _))
  | sendCue => exact .inl (off_of_next h (State.busWrite_off hs _ _ _ _))
  | queueEnable => exact .inl (off_of_next h (State.busWrite_off hs _ _ _ _))
  | queueDisable => exact .inl (off_of_next h (State.busWrite_off hs _ _ _ _))
  | sqDoorbell => exact .inl (off_of_next h (State.busWrite_off hs _ _ _ _))
  | commandFetch => exact .inl (off_of_frame hs (execCommandFetch_frame (h := h) (fd := .mode) (h1 := by decide)))
  | commandComplete => exact .inl (off_of_frame hs (execCommandComplete_frame (h := h) (fd := .mode) (h1 := by decide)))
  | cqHeadWrite => exact .inl (off_of_next h (State.busWrite_off hs _ _ _ _))
  | cmdTimeout => exact .inl (off_of_frame hs (execCmdTimeout_frame (h := h) (fd := .mode) (h1 := by decide) (h2 := by decide) (h3 := by decide)))
  | flr => exact .inl (off_of_frame hs (execFlr_frame (h := h) (fd := .mode) (h1 := by decide)))
  | nop => exact .inl (off_of_frame hs (execNop_frame (h := h) (fd := .mode)))
  | regRead => exact .inl (off_of_next ((execRegRead_of_off hs _ _ _).symm.trans h) hs)
  | regWrite => exact .inl (execRegWrite_off hs h)
  | dmaToDram => exact .inl (off_of_frame hs (execDmaToDram_frame (h := h) (fd := .mode) (h1 := by decide)))
  | dmaFromDram => exact .inl (off_of_frame hs (execDmaFromDram_frame (h := h) (fd := .mode) (h1 := by decide) (h2 := by decide)))
  | loadBank => exact .inl (off_of_frame hs (execLoadBank_frame (h := h) (fd := .mode) (h1 := by decide)))
  | loadBlock => exact .inl (off_of_frame hs (execLoadBlock_frame (h := h) (fd := .mode) (h1 := by decide)))
  | actStart => exact .inl (off_of_next ((execActStart_of_off hs _ _).symm.trans h) hs)
  | actStop => exact .inl (off_of_frame hs (execActStop_frame (h := h) (fd := .mode) (h1 := by decide)))
  | actAbort => exact .inl (off_of_frame hs (execActAbort_frame (h := h) (fd := .mode) (h1 := by decide)))
  | actWait => exact .inl (off_of_frame hs (execActWait_frame (h := h) (fd := .mode)))
  | tilePush => exact .inl (off_of_frame hs (execTilePush_frame (h := h) (fd := .mode)))
  | finalize => exact .inl (off_of_frame hs (execFinalize_frame (h := h) (fd := .mode) (h1 := by decide)))
  | rqClear => exact .inl (off_of_frame hs (execRqClear_frame (h := h) (fd := .mode) (h1 := by decide)))
  | modeReq => exact .inl (off_of_next ((execModeReq_of_off hs _ _).symm.trans h) hs)
  | nvmCommand => exact .inl (off_of_frame hs (execNvmCommand_frame (h := h) (fd := .mode) (h1 := by decide)))
  | remoteRead => exact .inl (off_of_frame hs (execRemoteRead_frame (h := h) (fd := .mode) (h1 := by decide)))
  | remoteWrite => exact .inl (off_of_frame hs (execRemoteWrite_frame (h := h) (fd := .mode) (h1 := by decide)))
  | whistle => exact .inl (off_of_next ((execWhistle_of_off hs _ _).symm.trans h) hs)
  | signedCalCommit => exact .inl (off_of_next ((execSignedCalCommit_of_off hs _ _ _).symm.trans h) hs)
  | keyProgram => exact .inl (off_of_next ((execKeyProgram_of_off hs _ _ _).symm.trans h) hs)
  | keyRevoke => exact .inl (off_of_next ((execKeyRevoke_of_off hs _ _ _).symm.trans h) hs)
  | decKeyProgram => exact .inl (off_of_next ((execDecKeyProgram_of_off hs _ _ _).symm.trans h) hs)
  | returnAuth => exact .inl (off_of_next ((execReturnAuth_of_off hs _ _ _).symm.trans h) hs)
  | advanceIntegration => exact .inl (off_of_next h (State.busWrite_off hs _ _ _ _))
  | advanceField => exact .inl (off_of_next h (State.busWrite_off hs _ _ _ _))
  | debugLock => exact .inl (off_of_next h (State.busWrite_off hs _ _ _ _))
  | bdDoorbell => exact .inl (off_of_next h (State.busWrite_off hs _ _ _ _))
  | evtIrqDefer => exact .inl (off_of_frame hs (execEvtIrqDefer_frame (h := h) (fd := .mode) (h1 := by decide)))
  | parkNRelease => exact .inl (off_of_frame hs (execParkNRelease_frame (h := h) (fd := .mode)))
  | clrNRelease => exact .inl (off_of_frame hs (execClrNRelease_frame (h := h) (fd := .mode)))
  | vinSurgeEnd => exact .inl (off_of_frame hs (execVinSurgeEnd_frame (h := h) (fd := .mode)))
  | sourceValidAgain => exact .inl (off_of_frame hs (execSourceValidAgain_frame (h := h) (fd := .mode)))
  | ocxoWarmLost => exact .inl (off_of_frame hs (execOcxoWarmLost_frame (h := h) (fd := .mode)))
  | partnerRateChange => exact .inl (off_of_frame hs (execPartnerRateChange_frame (h := h) (fd := .mode)))
  | powerStateChange => exact .inl (off_of_frame hs (execPowerStateChange_frame (h := h) (fd := .mode) (h1 := by decide) (h2 := by decide)))
  | conventionalReset => exact .inl (off_of_frame hs (execConventionalReset_frame (h := h) (fd := .mode) (h1 := by decide) (h2 := by decide)))
  | rqClearDone => exact .inl (off_of_frame hs (execRqClearDone_frame (h := h) (fd := .mode)))
  | tilePushEnd => exact .inl (off_of_frame hs (execTilePushEnd_frame (h := h) (fd := .mode) (h1 := by decide)))
  | holdupExhausted => exact .inl (execHoldupExhausted_off hs h)
  | jtagInstruction => exact .inl (off_of_frame hs (execJtagInstruction_frame (h := h) (fd := .mode) (h1 := by decide) (h2 := by decide)))

/-- Settles O8: from OFF no start of service, no reset and no fault is taken, and what the links and the acts still do lets
only IDLE and RUN take turns. -/
theorem onlyUvloStartLeavesOff : Obligations.OnlyUvloStartLeavesOff := by
  unfold Obligations.OnlyUvloStartLeavesOff
  intro c cs s t hpend hs hstep ht
  rw [step, hpend] at hstep
  exact (exec_of_off (s := s.withPending cs) hs c hstep).resolve_left ht

end Sys2Proof.Machine
end

section
/-! SUPPORT. What an event leaves of the persist area's record: whether the hold-up capacitance was measured (R48). -/

namespace Sys2Proof.Machine

@[simp] theorem ite_persist (c : Prop) [Decidable c] (a b : State) :
    (if c then a else b).persist = if c then a.persist else b.persist := by
  split <;> rfl

@[simp] theorem State.put_persist (s : State) (f : Field) (v : Nat) : (s.put f v).persist = s.persist := rfl

theorem State.bump_persist (s : State) (f : Field) : (s.bump f).persist = s.persist := rfl

theorem State.poolPut_persist (s : State) (a : Nat) (bs : List Byte) : (s.poolPut a bs).persist = s.persist := rfl

@[simp] theorem State.raiseVec_persist (s : State) (v : Nat) : (s.raiseVec v).persist = s.persist := by
  simp [State.raiseVec]

@[simp] theorem State.sysIrq_persist (s : State) (bit : Nat) : (s.sysIrq bit).persist = s.persist := by
  simp [State.sysIrq]

@[simp] theorem State.journalIrq_persist (s : State) : s.journalIrq.persist = s.persist := by
  rw [State.journalIrq]
  split
  · rfl
  · split <;> simp

@[simp] theorem State.journalDram_persist (s : State) (w : Nat) (r : EvtRec) :
    (s.journalDram w r).persist = s.persist := by
  unfold State.journalDram
  split
  · rfl
  · simp [State.dramPut]

@[simp] theorem State.journal_persist (s : State) (r : EvtRec) : (s.journal r).persist = s.persist := by
  simp only [State.journal]
  rw [State.journalIrq_persist, State.put_persist, State.journalDram_persist, State.poolPut_persist, ite_persist,
    State.bump_persist, ite_self]

@[simp] theorem State.sendFrame_persist (s : State) (p : Nat) (f : Frame) : (s.sendFrame p f).persist = s.persist := by
  simp [State.sendFrame]

/-- A persisted event joins those that wait, or is counted. -/
@[simp] theorem State.persistEvt_capDone (s : State) (r : EvtRec) :
    (s.persistEvt r).persist.capDone = s.persist.capDone := by
  rw [State.persistEvt]
  split <;> rfl

theorem State.eventAt_capDone (s : State) (t src code p4 p5 p6 p7 : Nat) :
    (s.eventAt t src code p4 p5 p6 p7).persist.capDone = s.persist.capDone := by
  simp only [State.eventAt]
  (repeat' split) <;> simp

theorem State.event_capDone (s : State) (src code p4 p5 p6 p7 : Nat) :
    (s.event src code p4 p5 p6 p7).persist.capDone = s.persist.capDone :=
  s.eventAt_capDone _ _ _ _ _ _ _

end Sys2Proof.Machine
end

section
/-! PROOF. Supply and temperature (O15). -/

namespace Sys2Proof.Machine

/-! ## What is noted before an event -/

/-- An event adds the registers of the journal and of interrupts to those that changed. -/
theorem regsButEvents_event {as : List Nat} {s u : State} (h : RegsBut as s u) (src code p4 p5 p6 p7 : Nat) :
    RegsButEvents as s (u.event src code p4 p5 p6 p7) := fun a ha he =>
  (State.event_reg _ _ _ _ _ _ he).trans (h a ha)

/-- A field of 16 bits holds a measured value. -/
theorem State.fld_put_measured (s : State) {f : Field} (v : BitVec 16) (hf : f.lo + f.len ≤ 32) (h16 : f.len = 16) :
    (s.put f v.toNat).fld f = v.toNat := by
  rw [State.fld_put_same s _ _ hf, h16]
  exact Nat.mod_eq_of_lt v.isLt

/-! ## The input voltage and the input power (R44, R46) -/

/-- The input voltage stored, with a bit of PWR_STATUS. -/
def State.vinNoted (s : State) (v : BitVec 16) (f : Field) (b : Nat) : State := (s.put PWR_VIN.VIN v.toNat).put f b

theorem State.vinNoted_vin (s : State) (v : BitVec 16) {f : Field} (b : Nat) (hf : f.addr = PWR_STATUS.addr) :
    (s.vinNoted v f b).fld PWR_VIN.VIN = v.toNat := by
  rw [State.vinNoted, State.fld_put_ne _ _ (by rw [hf]; decide)]
  exact s.fld_put_measured v (by decide) rfl

theorem State.vinNoted_reg (s : State) (v : BitVec 16) {f : Field} (b : Nat) (hf : f.addr = PWR_STATUS.addr) :
    RegsBut [PWR_VIN.addr, PWR_STATUS.addr] s (s.vinNoted v f b) := fun a ha => by
  simp only [List.mem_cons, List.not_mem_nil, or_false, not_or] at ha
  obtain ⟨hvin, hstatus⟩ := ha
  rw [State.vinNoted, State.reg_put_ne _ _ (hf ▸ hstatus), State.reg_put_ne _ _ hvin]

/-- An event of the input voltage: value, status bit, event. -/
theorem State.vinEvent_noted (s : State) (v : BitVec 16) {f : Field} (code : Nat) (hf : f.addr = PWR_STATUS.addr)
    (hb : f.lo + f.len ≤ 32) (hlen : 0 < f.len) :
    ((s.vinNoted v f 1).event 2 code).fld PWR_VIN.VIN = v.toNat ∧ ((s.vinNoted v f 1).event 2 code).flag f = true ∧
      ((s.vinNoted v f 1).event 2 code).evtSeq = s.evtSeq + 1 ∧ Steady s ((s.vinNoted v f 1).event 2 code) ∧
      RegsButEvents [PWR_VIN.addr, PWR_STATUS.addr] s ((s.vinNoted v f 1).event 2 code) := by
  refine ⟨?_, ?_, State.event_evtSeq _ _ _ _ _ _ _, steady_of_frame fun fd hd => ?_, regsButEvents_event (s.vinNoted_reg v 1 hf) _ _ _ _ _ _⟩
  · rw [State.event_fld _ _ _ _ _ _ (by decide), s.vinNoted_vin v 1 hf]
  · rw [State.flag_congr (State.event_reg _ _ _ _ _ _ (by rw [hf]; decide))]
    exact State.flag_put_one _ _ hb hlen
  · simp [State.vinNoted, hd]

theorem powerHigh_noted (p : BitVec 16) {s : State} (ho : s.mode ≠ .off) :
    ∃ t, exec (.powerHigh p) s = .next t ∧ t.fld PWR_INPUT_P.P = p.toNat ∧ t.evtSeq = s.evtSeq + 1 ∧ Steady s t ∧
      RegsButEvents [PWR_INPUT_P.addr] s t := by
  have hreg : RegsBut [PWR_INPUT_P.addr] s (s.put PWR_INPUT_P.P p.toNat) := (s.put_onlyRegs PWR_INPUT_P.P _).2
  refine ⟨(s.put PWR_INPUT_P.P p.toNat).event 2 4, ?_, ?_, State.event_evtSeq _ _ _ _ _ _ _,
    steady_of_frame fun fd hd => ?_, regsButEvents_event hreg _ _ _ _ _ _⟩
  · rw [exec_powerHigh, execPowerHigh, if_neg ho]
  · rw [State.event_fld _ _ _ _ _ _ (by decide)]
    exact s.fld_put_measured p (by decide) rfl
  · simp [hd]

/-! ## The hold-up capacitance (R48) -/

/-- A quotient to a whole unit is less than a unit off; a free value is all that it may take. -/
theorem State.roundLow_near (s : State) (num : Nat) {den : Nat} (hd : 0 < den) :
    ∃ c k, s.roundLow num den = (c, s.withFreeCtr k) ∧ |(den : Int) * c - num| < den := by
  have hmod : ((num % den : Nat) : Int) < den := Int.ofNat_lt.2 (Nat.mod_lt num hd)
  have hpos : 0 ≤ ((num % den : Nat) : Int) := Int.natCast_nonneg _
  have hdiv : (den : Int) * (num / den : Nat) + (num % den : Nat) = num := mod_cast Nat.div_add_mod num den
  rw [State.roundLow, Nat.max_eq_right hd]
  split
  next =>
    refine ⟨_, s.freeCtr, rfl, ?_⟩
    rw [abs_lt]
    constructor <;> linarith
  next hhalf =>
    refine ⟨_, s.freeCtr + 1, rfl, ?_⟩
    have hhalf' : (den : Int) ≤ 2 * (num % den : Nat) := mod_cast Nat.le_of_not_lt hhalf
    rw [abs_lt, Nat.cast_add, mul_add]
    rcases Nat.mod_two_eq_zero_or_one s.free.toNat with h | h
    · rw [h, Nat.cast_zero, mul_zero]
      constructor <;> linarith
    · rw [h, Nat.cast_one, mul_one]
      constructor <;> linarith

/-- The HU voltage stored; the capacitance is measured no more until OFF. -/
def State.holdupNoted (s : State) (hu : BitVec 16) : State :=
  (s.put PWR_HOLDUP_V.V hu.toNat).withPersist { s.persist with capDone := true }

/-- A capacitance stored, or 0 where there is none. -/
def State.capNoted (s : State) (c valid : Nat) : State := (s.put PWR_HOLDUP_CAP.CAP c).put PWR_STATUS.CAP_VALID valid

theorem State.capNoted_frame (s : State) (c valid : Nat) (fd : Followed) : (s.capNoted c valid).rd fd = s.rd fd := by
  simp [State.capNoted]

theorem State.capNoted_cap (s : State) {c : Nat} (valid : Nat) (hc : c < 65536) :
    (s.capNoted c valid).fld PWR_HOLDUP_CAP.CAP = c := by
  rw [State.capNoted, State.fld_put_ne _ _ (by decide), State.fld_put_same _ _ _ (by decide)]
  exact Nat.mod_eq_of_lt hc

theorem exec_huCapMeasured_of_valid {us : Nat} (hu : BitVec 16) {s : State} (ho : s.mode ≠ .off)
    (hd : s.persist.capDone = false) (h1 : 2000 ≤ us) (h2 : us ≤ 100000) : exec (.huCapMeasured us hu) s =
      .next (((s.holdupNoted hu).roundLow us 20).2.capNoted ((s.holdupNoted hu).roundLow us 20).1 1) := by
  have h : ¬(s.mode = .off ∨ s.persist.capDone = true) := not_or_intro ho (by simp [hd])
  rw [exec_huCapMeasured, execHuCapMeasured, if_neg h]
  exact if_pos ⟨h1, h2⟩

theorem exec_huCapMeasured_of_invalid {us : Nat} (hu : BitVec 16) {s : State} (ho : s.mode ≠ .off)
    (hd : s.persist.capDone = false) (hus : us < 2000 ∨ 100000 < us) :
    exec (.huCapMeasured us hu) s = .next (((s.holdupNoted hu).capNoted 0 0).event 2 5) := by
  have h : ¬(s.mode = .off ∨ s.persist.capDone = true) := not_or_intro ho (by simp [hd])
  rw [exec_huCapMeasured, execHuCapMeasured, if_neg h]
  exact if_neg (by omega)

theorem huCapMeasured_stores {us : Nat} (hu : BitVec 16) {s : State} (ho : s.mode ≠ .off)
    (hd : s.persist.capDone = false) (h1 : 2000 ≤ us) (h2 : us ≤ 100000) :
    ∃ t, exec (.huCapMeasured us hu) s = .next t ∧ t.flag PWR_STATUS.CAP_VALID = true ∧
      |20 * (t.fld PWR_HOLDUP_CAP.CAP : Int) - us| < 20 ∧ t.fld PWR_HOLDUP_V.V = hu.toNat ∧ t.persist.capDone = true ∧
      Steady s t ∧ RegsBut [PWR_HOLDUP_V.addr, PWR_HOLDUP_CAP.addr, PWR_STATUS.addr] s t := by
  obtain ⟨c, k, hround, hnear⟩ := (s.holdupNoted hu).roundLow_near us (den := 20) (by decide)
  have hexec := exec_huCapMeasured_of_valid hu ho hd h1 h2
  rw [hround] at hexec
  have hc : c < 65536 := by
    rw [abs_lt] at hnear
    omega
  refine ⟨_, hexec, State.flag_put_one _ _ (by decide) (by decide), ?_, ?_, rfl, steady_of_frame fun fd hd => ?_,
    fun a ha => ?_⟩
  · rw [State.capNoted_cap _ _ hc]
    exact hnear
  · rw [State.capNoted, State.fld_put_ne _ _ (by decide), State.fld_put_ne _ _ (by decide)]
    exact s.fld_put_measured hu (by decide) rfl
  · rw [State.capNoted_frame]
    simp [State.holdupNoted]
  · simp only [List.mem_cons, List.not_mem_nil, or_false, not_or] at ha
    obtain ⟨hv, hcap, hstatus⟩ := ha
    rw [State.capNoted, State.reg_put_ne _ _ hstatus, State.reg_put_ne _ _ hcap]
    exact s.reg_put_ne _ hv

theorem huCapMeasured_stores_none {us : Nat} (hu : BitVec 16) {s : State} (ho : s.mode ≠ .off)
    (hd : s.persist.capDone = false) (hus : us < 2000 ∨ 100000 < us) :
    ∃ t, exec (.huCapMeasured us hu) s = .next t ∧ t.flag PWR_STATUS.CAP_VALID = false ∧ t.fld PWR_HOLDUP_CAP.CAP = 0 ∧
      t.persist.capDone = true ∧ t.evtSeq = s.evtSeq + 1 ∧ Steady s t := by
  refine ⟨_, exec_huCapMeasured_of_invalid hu ho hd hus, ?_, ?_, State.event_capDone _ _ _ _ _ _ _,
    State.event_evtSeq _ _ _ _ _ _ _, steady_of_frame fun fd hd => ?_⟩
  · rw [State.flag_congr (State.event_reg _ _ _ _ _ _ (by decide))]
    exact State.flag_put_zero _ _ (by decide)
  · rw [State.event_fld _ _ _ _ _ _ (by decide), State.capNoted_cap _ _ (by decide)]
  · rw [State.event_frame _ _ _ _ _ _ _ _ hd, State.capNoted_frame]
    simp [State.holdupNoted]

/-! ## Sensors that reach a threshold (R52, R53) -/

theorem getD_mem_of_length {ts : List (BitVec 16)} {n i : Nat} (hlen : ts.length = n) (hi : i < n) : ts.getD i 0 ∈ ts := by
  rw [List.getD_eq_getElem _ _ (hlen ▸ hi)]
  exact List.getElem_mem _

theorem State.reached_of_below (s : State) {ts : List (BitVec 16)} {lim : Int} (hlen : ts.length = 40)
    (h : ∀ x ∈ ts, signed 16 x.toNat < lim) : s.reached ts lim = none := by
  rw [State.reached, List.find?_eq_none]
  intro i hi
  have hbelow := h _ (getD_mem_of_length hlen (List.mem_range.1 hi))
  simp only [Bool.and_eq_true, decide_eq_true_eq, not_and, not_le]
  exact fun h => absurd hbelow (not_lt.2 h.2)

theorem State.reached_of_twice {s : State} {ts : List (BitVec 16)} {lim : Int} {i : Nat} (hi : i < 40)
    (hv : tempInvalid (ts.getD i 0) = false) (hv' : tempInvalid (s.sensor i).last = false)
    (hh : lim ≤ signed 16 (ts.getD i 0).toNat) (hh' : lim ≤ signed 16 (s.sensor i).last.toNat) :
    ∃ u, s.reached ts lim = some u := by
  rw [← Option.isSome_iff_exists, State.reached, List.find?_isSome]
  refine ⟨i, List.mem_range.2 hi, ?_⟩
  simp only [hv, hv', Bool.not_false, Bool.true_and, Bool.and_eq_true, decide_eq_true_eq]
  exact ⟨hh, hh'⟩

/-! ## A sample (R52, R53) -/

/-- A sample kept, with PWR_TEMP_MAX and the alert and the warning that it gives. -/
def State.sampled (s : State) (ts : List (BitVec 16)) : State :=
  (((s.keepSample ts).tempMax ts).tempAlert (s.reached ts (8 * (s.fld PWR_TEMP_CFG.ALERT_C : Int))).isSome).tempWarn
    (s.reached ts 1120).isSome

theorem State.sampled_frame (s : State) (ts : List (BitVec 16)) (fd : Followed) (h1 : fd ≠ .dram) (h2 : fd ≠ .sensors) :
    (s.sampled ts).rd fd = s.rd fd := by
  simp [State.sampled, h1, h2]

theorem State.sampled_mode (s : State) (ts : List (BitVec 16)) : (s.sampled ts).mode = s.mode := by
  rw [State.rd_mode, s.sampled_frame ts _ (by decide) (by decide), ← State.rd_mode]

theorem State.sampled_otp (s : State) (ts : List (BitVec 16)) : (s.sampled ts).otp = s.otp := by
  rw [State.rd_otp, s.sampled_frame ts _ (by decide) (by decide), ← State.rd_otp]

theorem State.sampled_last (s : State) (ts : List (BitVec 16)) {i : Nat} (h : i < 40) :
    ((s.sampled ts).sensor i).last = ts.getD i 0 := by
  have hsensors : (s.sampled ts).sensors = (s.keepSample ts).sensors := by
    rw [State.rd_sensors, State.rd_sensors]
    simp [State.sampled]
  rw [State.sensor_congr hsensors, s.keepSample_last ts h]

theorem State.keepSample_reg (s : State) (ts : List (BitVec 16)) {a : Nat} (h : evtReg a = false) :
    (s.keepSample ts).reg a = s.reg a := by
  rw [State.keepSample_eq]
  refine State.each_inv (P := fun u => u.reg a) (fun i u => ?_) _ s
  rw [State.keepOne]
  split
  · rw [State.event_reg _ _ _ _ _ _ h]
    rfl
  · rfl

theorem State.tempMax_reg (s : State) (ts : List (BitVec 16)) {a : Nat} (h : a ≠ PWR_TEMP_MAX.addr) :
    (s.tempMax ts).reg a = s.reg a := by
  rw [State.tempMax]
  split
  · rw [State.reg_put_ne _ _ h, State.reg_put_ne _ _ h, State.reg_put_ne _ _ h]
  · exact State.reg_put_ne _ _ h

theorem State.withAlertArmed_reg (s : State) (b : Bool) (a : Nat) : (s.withAlertArmed b).reg a = s.reg a := rfl

theorem State.withWarnArmed_reg (s : State) (b : Bool) (a : Nat) : (s.withWarnArmed b).reg a = s.reg a := rfl

theorem State.tempAlert_reg (s : State) (hit : Bool) {a : Nat} (h : a ≠ PWR_STATUS.addr) (he : evtReg a = false) :
    (s.tempAlert hit).reg a = s.reg a := by
  simp only [State.tempAlert]
  split_ifs
  · rw [State.withAlertArmed_reg, State.sysIrq_reg _ he, State.event_reg _ _ _ _ _ _ he, State.reg_put_ne _ _ h]
  · rw [State.withAlertArmed_reg, State.reg_put_ne _ _ h]
  · rfl

theorem State.tempWarn_reg (s : State) (hit : Bool) {a : Nat} (he : evtReg a = false) :
    (s.tempWarn hit).reg a = s.reg a := by
  simp only [State.tempWarn]
  split_ifs
  · rw [State.withWarnArmed_reg, State.sysIrq_reg _ he, State.event_reg _ _ _ _ _ _ he]
  · rw [State.withWarnArmed_reg]
  · rfl

theorem State.sampled_reg (s : State) (ts : List (BitVec 16)) :
    RegsButEvents [PWR_TEMP_MAX.addr, PWR_STATUS.addr, SYS_STATUS.addr] s (s.sampled ts) := fun a ha he => by
  simp only [List.mem_cons, List.not_mem_nil, or_false, not_or] at ha
  obtain ⟨hmax, hstatus, -⟩ := ha
  rw [State.sampled, State.tempWarn_reg _ _ he, State.tempAlert_reg _ _ hstatus he, State.tempMax_reg _ _ hmax,
    State.keepSample_reg _ _ he]

theorem State.shutdownUnit_of_valid {s : State} (h : ∀ i, i < 40 → tempInvalid (s.sensor i).last = false) :
    s.shutdownUnit none = none := by
  have hvalid : s.invalidSensors = [] :=
    List.filter_eq_nil_iff.2 fun i hi => by simp [h i (List.mem_range.1 hi)]
  simp [State.shutdownUnit, hvalid]

/-! ### What follows a sample -/

theorem exec_tempSample_of_on {ts : List (BitVec 16)} {s : State} (ho : s.mode ≠ .off) (hlen : ts.length = 40) :
    exec (.tempSample ts) s = .next (s.tempSample ts) := by
  rw [exec_tempSample, execTempSample, if_neg (not_or_intro ho (not_not_intro hlen))]

/-- No shutdown. -/
theorem State.tempSample_of_cool {s : State} {ts : List (BitVec 16)} (hoff : s.reached ts 1360 = none)
    (hshut : (s.sampled ts).shutdownUnit (s.reached ts 1280) = none) : s.tempSample ts = s.sampled ts := by
  unfold State.tempSample
  refine (if_neg (by simp [hoff])).trans ?_
  rw [← State.sampled, hshut]

/-- 160 degrees: fatal fault 5, but for SAFE with THERM_LATCH set, where a sector erase is abandoned (R54). -/
theorem State.tempSample_of_shutdown {s : State} {ts : List (BitVec 16)} {u : Nat} (hoff : s.reached ts 1360 = none)
    (hshut : s.reached ts 1280 = some u) : s.tempSample ts =
      if (s.sampled ts).mode = .safe ∧ (s.sampled ts).flag SYS_STATUS.THERM_LATCH then (s.sampled ts).dropErase
      else (s.sampled ts).fatal 5 u 0 := by
  unfold State.tempSample
  refine (if_neg (by simp [hoff])).trans ?_
  rw [hshut]
  exact if_congr Iff.rfl (if_pos (.inl rfl)) rfl

/-- 170 degrees. -/
theorem State.tempSample_of_off {s : State} {ts : List (BitVec 16)} {u : Nat} (hoff : s.reached ts 1360 = some u) :
    s.tempSample ts = (s.sampled ts).shedding .tempOff := by
  unfold State.tempSample
  exact if_pos (by simp [hoff])

/-! ## Shutdown and shedding (R53, R54) -/

/-- A thermal fault, or one more while THERM_LATCH is set, ends in SAFE with THERM_LATCH. -/
theorem State.thermal_ends_in_safe {s : State} (u : Nat) (ho : s.mode ≠ .off) {t : State}
    (ht : t = if s.mode = .safe ∧ s.flag SYS_STATUS.THERM_LATCH then s.dropErase else s.fatal 5 u 0) :
    t.mode = .safe ∧ t.flag SYS_STATUS.THERM_LATCH = true ∧ t.otp = s.otp := by
  subst ht
  split
  next h =>
    obtain ⟨hsafe, hlatch⟩ := h
    refine ⟨?_, ?_, ?_⟩
    · rw [State.rd_mode, State.dropErase_frame _ _ (by decide), ← State.rd_mode, hsafe]
    · rw [State.flag, State.fld_of_anchor (State.dropErase_anchor _ _) (by decide), ← State.flag, hlatch]
    · rw [State.rd_otp, State.dropErase_frame _ _ (by decide), ← State.rd_otp]
  next =>
    refine ⟨State.fatal_mode _ _ _ ho, ?_, State.fatal_otp _ _ _ _⟩
    rw [State.flag, State.fatal_fld ho (by decide) (.inr (by decide)), ← State.flag]
    exact s.faulted_thermLatch _ _

/-- No persist page is due. -/
def State.noPageDue (s : State) : State := s.withPersist { s.persist with due := 0 }

/-- The shedding sequence of 170 degrees, after its event: the domains off, with no persist page. -/
def State.shedAt170 (s : State) : State :=
  ((((((s.setMode .off).put SYS_STATUS.TRANSIT 1).endService).withShed (some .tempOff)).persistDue.noPageDue).tearUnit).domainsOff

theorem State.noPageDue_frame (s : State) (fd : Followed) : s.noPageDue.rd fd = s.rd fd := by
  simp [State.noPageDue]

theorem State.shedding_tempOff {s : State} (h : s.mode ≠ .off) : s.shedding .tempOff = (s.event 2 8).shedAt170 := by
  unfold State.shedding
  split
  next ho => exact absurd ho h
  next => rw [State.shedAt170, State.noPageDue]

theorem State.shedAt170_keeps (s : State) :
    s.shedAt170.mode = .off ∧ s.shedAt170.shed = some .tempOff ∧ s.shedAt170.otp = s.otp := by
  have hmode : (((s.setMode .off).put SYS_STATUS.TRANSIT 1).endService).rd .mode = .off :=
    State.endService_mode (by simp) (Option.some_ne_none _)
  refine ⟨?_, ?_, ?_⟩
  · rw [State.rd_mode]
    simp [State.shedAt170, State.noPageDue_frame, hmode]
  · rw [State.rd_shed]
    simp [State.shedAt170, State.noPageDue_frame]
  · rw [State.rd_otp, State.rd_otp]
    simp [State.shedAt170, State.noPageDue_frame]

/-! ## The obligation's clauses -/

/-- A sample below 160 degrees. -/
theorem tempSample_keeps_mode {ts : List (BitVec 16)} {s : State} (ho : s.mode ≠ .off) (hlen : ts.length = 40)
    (hcool : ∀ x ∈ ts, tempInvalid x = false ∧ signed 16 x.toNat < 1280) :
    ∃ t, exec (.tempSample ts) s = .next t ∧ t.mode = s.mode ∧ (∀ i, i < 40 → (t.sensor i).last = ts.getD i 0) ∧
      Still s t ∧ RegsButEvents [PWR_TEMP_MAX.addr, PWR_STATUS.addr, SYS_STATUS.addr] s t := by
  have hshut : s.reached ts 1280 = none := s.reached_of_below hlen fun x hx => (hcool x hx).2
  have hoff : s.reached ts 1360 = none := s.reached_of_below hlen fun x hx => (hcool x hx).2.trans (by decide)
  have hvalid : (s.sampled ts).shutdownUnit (s.reached ts 1280) = none := by
    rw [hshut]
    refine State.shutdownUnit_of_valid fun i hi => ?_
    rw [s.sampled_last ts hi]
    exact (hcool _ (getD_mem_of_length hlen hi)).1
  refine ⟨_, (exec_tempSample_of_on ho hlen).trans (congrArg Host.Outcome.next (State.tempSample_of_cool hoff hvalid)),
    s.sampled_mode ts, fun i hi => s.sampled_last ts hi, still_of_frame fun fd hd _ _ hsens => s.sampled_frame ts fd hd hsens,
    s.sampled_reg ts⟩

/-- 160 degrees in two samples, and no sensor at 170. -/
theorem tempSample_leads_to_safe {ts : List (BitVec 16)} {i : Nat} {s : State} (ho : s.mode ≠ .off) (hlen : ts.length = 40)
    (hi : i < 40) (hbelow : ∀ x ∈ ts, tempInvalid x = false ∧ signed 16 x.toNat < 1360)
    (hh : 1280 ≤ signed 16 (ts.getD i 0).toNat) (hh' : 1280 ≤ signed 16 (s.sensor i).last.toNat)
    (hv : tempInvalid (s.sensor i).last = false) :
    ∃ t, exec (.tempSample ts) s = .next t ∧ t.mode = .safe ∧ t.flag SYS_STATUS.THERM_LATCH = true ∧ t.otp = s.otp := by
  obtain ⟨u, hshut⟩ := State.reached_of_twice hi (hbelow _ (getD_mem_of_length hlen hi)).1 hv hh hh'
  have hoff : s.reached ts 1360 = none := s.reached_of_below hlen fun x hx => (hbelow x hx).2
  obtain ⟨hmode, hlatch, hotp⟩ :=
    State.thermal_ends_in_safe u (by rwa [s.sampled_mode ts]) (State.tempSample_of_shutdown hoff hshut)
  exact ⟨_, exec_tempSample_of_on ho hlen, hmode, hlatch, hotp.trans (s.sampled_otp ts)⟩

/-- 170 degrees in two samples. -/
theorem tempSample_sheds {ts : List (BitVec 16)} {i : Nat} {s : State} (ho : s.mode ≠ .off) (hlen : ts.length = 40)
    (hi : i < 40) (hv : tempInvalid (ts.getD i 0) = false) (hv' : tempInvalid (s.sensor i).last = false)
    (hh : 1360 ≤ signed 16 (ts.getD i 0).toNat) (hh' : 1360 ≤ signed 16 (s.sensor i).last.toNat) :
    ∃ t, exec (.tempSample ts) s = .next t ∧ t.mode = .off ∧ t.shed = some .tempOff ∧ t.otp = s.otp := by
  obtain ⟨u, hoff⟩ := State.reached_of_twice hi hv hv' hh hh'
  have hsheds : s.tempSample ts = ((s.sampled ts).event 2 8).shedAt170 := by
    rw [State.tempSample_of_off hoff, State.shedding_tempOff (by rwa [s.sampled_mode ts])]
  obtain ⟨hmode, hshed, hotp⟩ := ((s.sampled ts).event 2 8).shedAt170_keeps
  refine ⟨_, (exec_tempSample_of_on ho hlen).trans (congrArg Host.Outcome.next hsheds), hmode, hshed, hotp.trans ?_⟩
  rw [State.rd_otp, State.event_frame _ _ _ _ _ _ _ _ (by decide), ← State.rd_otp, s.sampled_otp ts]

/-- Settles O15: a supply event stores its value and its bit before it is raised; a sample is kept and reported whatever
follows, which the sensors that reach 160 and 170 degrees in two samples decide. -/
theorem supplyAndTemperatureComplete : Obligations.SupplyAndTemperatureComplete := by
  unfold Obligations.SupplyAndTemperatureComplete
  refine ⟨fun v s ho => ⟨_, ?_, s.vinEvent_noted v 2 (f := PWR_STATUS.VIN_LOW) rfl (by decide) (by decide)⟩,
    fun v s ho => ⟨_, ?_, s.vinEvent_noted v 3 (f := PWR_STATUS.VIN_SURGE) rfl (by decide) (by decide)⟩,
    fun v s ho => ⟨s.vinNoted v PWR_STATUS.VIN_SURGE 0, ?_, s.vinNoted_vin v 0 rfl, State.flag_put_zero _ _ (by decide), rfl,
      s.vinNoted_reg v 0 rfl⟩,
    fun p s ho => powerHigh_noted p ho, fun us hu s ho hd h1 h2 => huCapMeasured_stores hu ho hd h1 h2,
    fun us hu s ho hd hus => huCapMeasured_stores_none hu ho hd hus, fun us hu s hd => ?_,
    fun ts s ho hlen hcool => tempSample_keeps_mode ho hlen hcool,
    fun ts i s ho hlen hi hbelow hh hh' hv => tempSample_leads_to_safe ho hlen hi hbelow hh hh' hv,
    fun ts i s ho hlen hi hv hv' hh hh' => tempSample_sheds ho hlen hi hv hv' hh hh'⟩
  · rw [exec_vinLow, execVinLow, if_neg ho, State.vinNoted]
  · rw [exec_vinSurge, execVinSurge, if_neg ho, State.vinNoted]
  · rw [exec_vinSurgeEnd, execVinSurgeEnd, if_neg ho, State.vinNoted]
  · rw [exec_huCapMeasured, execHuCapMeasured, if_pos (.inr hd)]

end Sys2Proof.Machine
end

section
/-! PROOF. Reads of BAR0 (O41). -/

namespace Sys2Proof.Machine

/-! ## Latches (R7, R66, R229) -/

theorem State.latch_setLatch_same (s : State) (src : Src) (a : Nat) (w : Word) : (s.setLatch src a w).latch src a = w :=
  Tab.get_set_same _ _ _

theorem State.latch_setLatch_ne (s : State) (src : Src) {a b : Nat} (w : Word) (h : b ≠ a) :
    (s.setLatch src a w).latch src b = s.latch src b :=
  Tab.get_set_ne _ _ (by omega)

/-- What the bus reads of a register does not come from the latches. -/
theorem State.view_setLatch (s : State) (src : Src) (a b : Nat) (w : Word) : (s.setLatch src a w).view b = s.view b := rfl

/-- The words at the addresses `f i` latched, in order. -/
def State.latchViews (src : Src) (f : Nat → Nat) : List Nat → State → State :=
  State.each fun i s => s.setLatch src (f i) (s.view (f i))

theorem State.withReply_answer (s : State) (bs : List Byte) (b : Bool) (r : Option Reply) :
    (s.answer bs b).withReply r = s.withReply r := rfl

theorem State.withLatches_setLatch (s : State) (src : Src) (a : Nat) (w : Word) (r : Option Reply) (l : Tab Word) :
    ((s.setLatch src a w).withReply r).withLatches l = (s.withReply r).withLatches l := rfl

theorem State.withReply_withLatches_self (s : State) : (s.withReply s.reply).withLatches s.latches = s := rfl

/-- A read that latches words changes the latches and its answer alone. -/
theorem State.answer_latchViews_frame (src : Src) (f : Nat → Nat) (l : List Nat) (s : State) (bs : List Byte) (b : Bool) :
    (((State.latchViews src f l s).answer bs b).withReply s.reply).withLatches s.latches = s := by
  rw [State.withReply_answer]
  exact State.each_keep (fun u => (u.withReply s.reply).withLatches s.latches) _
    (fun i u => u.withLatches_setLatch src (f i) _ _ _) l s

theorem State.latch_latchViews_of_not_mem (src : Src) (f : Nat → Nat) {b : Nat} {l : List Nat} (s : State)
    (h : ∀ i ∈ l, b ≠ f i) : (State.latchViews src f l s).latch src b = s.latch src b :=
  State.each_inv_mem (P := fun u => u.latch src b) s fun i hi u => u.latch_setLatch_ne src _ (h i hi)

theorem State.latch_latchViews_of_mem (src : Src) {f : Nat → Nat} (hf : f.Injective) {i : Nat} {l : List Nat} (s : State)
    (h : i ∈ l) : (State.latchViews src f l s).latch src (f i) = s.view (f i) := by
  induction l generalizing s with
  | nil => cases h
  | cons j l ih =>
    rw [State.latchViews, State.each]
    by_cases hl : i ∈ l
    · exact (ih _ hl).trans (s.view_setLatch src _ _ _)
    · obtain rfl := (List.mem_cons.mp h).resolve_right hl
      refine (State.latch_latchViews_of_not_mem src f _ fun k hk he => hl (by rwa [hf he])).trans ?_
      exact s.latch_setLatch_same src _ _

@[simp] theorem State.latch_answer (s : State) (src : Src) (a : Nat) (bs : List Byte) (b : Bool) :
    (s.answer bs b).latch src a = s.latch src a := rfl

theorem State.answer_reply (s : State) (bs : List Byte) (b : Bool) : (s.answer bs b).reply = some { bytes := bs, poisoned := b } := rfl

/-! ## What a read finds (R5, R348) -/

/-- A register that reads its latch. -/
theorem State.readReg_of_latched {s : State} {src : Src} {a : Nat} {r : RegRow} {ix : List Nat} (hr : regAt a = some (r, ix))
    (hl : isLatched r.base = true) : s.readReg src a = (s.latch src a, s) := by
  simp only [State.readReg, hr, if_pos hl]

/-- A register without a side effect of its own reads as the bus sees it, with what its read latches. -/
theorem State.readReg_of_plain {s : State} {src : Src} {a : Nat} {r : RegRow} {ix : List Nat} (hr : regAt a = some (r, ix))
    (hl : isLatched r.base = false) (h : r.base ∉ [0x10030, 0x20004, 0x20030]) :
    s.readReg src a = (s.view a, s.latchFor src r.base a) := by
  simp only [List.mem_cons, List.not_mem_nil, or_false, not_or] at h
  obtain ⟨htrim, hvin, hp⟩ := h
  simp [State.readReg, hr, hl, htrim, hvin, hp]

theorem State.busRead_of_reg {s : State} {src : Src} {a : Nat} (ha : s.accessOf src a ≠ .none) (hw : sramWindow a = none) :
    s.busRead src a = s.readReg src a := by
  unfold State.busRead
  rw [hw]
  split
  · exact absurd ‹_› ha
  · rfl

theorem State.busRead_of_window {s : State} {src : Src} {a id o : Nat} (ha : s.accessOf src a ≠ .none)
    (hw : sramWindow a = some (id, o)) : s.busRead src a = (BitVec.ofNat 32 (leNat (s.sramBytes id o 4)), s) := by
  unfold State.busRead
  rw [hw]
  split
  · exact absurd ‹_› ha
  · rfl

/-- A read without an error of a register or of a reserved address (R353). -/
theorem exec_loRead_of_reg {s : State} {src : Src} {a : BitVec 26} {n : Nat} (hn : a.toNat = n) (ho : s.mode ≠ .off)
    (h4 : n % 4 = 0) (ha : s.accessOf src n ≠ .none) (hw : sramWindow n = none) :
    exec (.loRead src a .clean) s = .next ((s.readReg src n).2.answer (leBytes 4 (s.readReg src n).1.toNat) false) := by
  subst hn
  have hwin : ∀ u : State, u.windowOpen src a.toNat = none := fun u => by rw [State.windowOpen, hw, ite_self]
  rw [exec_loRead, execLoRead, if_neg (by simp [ho, h4]), State.busRead_of_reg ha hw]
  simp [hwin, State.windowEcc]

theorem exec_loRead_of_window {s : State} {src : Src} {a : BitVec 26} {o : Nat} (ho : s.mode ≠ .off) (h4 : a.toNat % 4 = 0)
    (ha : s.accessOf src a.toNat ≠ .none) (hw : sramWindow a.toNat = some (1, o)) :
    exec (.loRead src a .clean) s = .next (s.answer (leBytes 4 (BitVec.ofNat 32 (leNat (s.poolBytes o 4))).toNat) false) := by
  have hwin : s.windowOpen src a.toNat = some (1, o) := by rw [State.windowOpen, if_neg ha, hw]
  rw [exec_loRead, execLoRead, if_neg (by simp [ho, h4]), State.busRead_of_window ha hw]
  simp [State.windowEcc, hwin, State.poolEcc, State.sramEcc, State.sramBytes]

/-- Only the low 32 bits of a number reach its four bytes. -/
theorem leBytes_four_mod (v : Nat) : leBytes 4 (BitVec.ofNat 32 v).toNat = leBytes 4 v := by
  simp only [leBytes, BitVec.toNat_ofNat, List.cons.injEq, and_true]
  refine ⟨?_, ?_, ?_, ?_⟩ <;> refine BitVec.eq_of_toNat_eq ?_ <;> simp only [BitVec.toNat_ofNat] <;> omega

theorem regAt_PIN_TDC_STATUS (c : Chan) : regAt (PIN_TDC_STATUS.addr c) =
    some (⟨"PIN_TDC_STATUS", 0x400310, [(1024, 0x1000)], 0x0, 0x800000, 0x0, 0x0, 0, 0xFFE0FFFF⟩, [c.val]) := by
  have hc := c.isLt
  have e : PIN_TDC_STATUS.addr c = 0x400000 + 0x1000 * c + 0x310 := by unfold PIN_TDC_STATUS.addr; omega
  rw [regAt, e, regRowsAt_pin (by omega)]
  exact regFind_of_family 18 hc (by omega) (by decide) rfl

/-- The words of the results behind PIN_TDC_STATUS. -/
def tdcResultAddr (c : Chan) (i : Nat) : Nat := PIN_TDC_STATUS.addr c + 8 + 4 * i

theorem tdcResultAddr_injective (c : Chan) : (tdcResultAddr c).Injective := fun i j h => by
  unfold tdcResultAddr at h
  omega

theorem State.latchFor_tdcStatus (src : Src) (c : Chan) (s : State) :
    s.latchFor src 0x400310 (PIN_TDC_STATUS.addr c) = State.latchViews src (tdcResultAddr c) (List.range 22) s := by
  rw [State.latchFor, if_neg (by decide), if_neg (by decide), if_pos rfl]
  rfl

/-- A read of PIN_TDC_STATUS latches the 22 words of the results behind it (R229). -/
theorem exec_tdcStatusRead_of_inService (src : Src) (c : Chan) {s : State} (hs : s.inService = true) :
    exec (.tdcStatusRead src c) s = .next ((State.latchViews src (tdcResultAddr c) (List.range 22) s).answer
      (leBytes 4 (s.view (PIN_TDC_STATUS.addr c)).toNat) false) := by
  have hr := regAt_PIN_TDC_STATUS c
  have hw : sramWindow (PIN_TDC_STATUS.addr c) = none := sramWindow_eq_none (Nat.lt_trans (regAt_lt hr) (by omega))
  have ha : s.accessOf src (PIN_TDC_STATUS.addr c) ≠ .none := by rw [State.accessOf_of_inService hs]; decide
  rw [exec_tdcStatusRead, execTdcStatusRead, if_neg (State.mode_ne_off_of_inService hs), State.busRead_of_reg ha hw,
    State.readReg_of_plain hr (by decide) (by decide), State.latchFor_tdcStatus]

/-! ## CLK_TIME_LO (R66) -/

/-- The registers below those of the links are open to the host in every mode with power (R347). -/
theorem State.access_of_low {s : State} {a : Nat} (ho : s.mode ≠ .off) (ha : a < 0x60000) : s.access a = .full := by
  have hb : bootAccess a = .full := if_pos ha
  have hs : safeAccess a = .full := if_pos (by omega)
  unfold State.access
  split
  · exact absurd ‹_› ho
  · exact hb
  · exact hs
  · rfl

theorem State.accessOf_of_low {s : State} (src : Src) {a : Nat} (ho : s.mode ≠ .off) (ha : a < 0x60000) :
    s.accessOf src a = .full := by
  have hk : hkSafe a = .full := if_pos (.inl (by omega))
  cases src
  case housekeeping => exact (if_neg ho).trans (by rw [hk, ite_self])
  all_goals exact (if_neg ho).trans (State.access_of_low ho ha)

theorem State.view_of_regAt {s : State} {a : Nat} {r : RegRow} {ix : List Nat} (h : regAt a = some (r, ix)) :
    s.view a = BitVec.ofNat 32 (s.viewOf r.base ix (s.reg a).toNat &&& (r.named &&& (0xFFFFFFFF - r.wo))) := by
  rw [State.view, h]

theorem and_low_ones (v : Nat) : BitVec.ofNat 32 (v &&& 0xFFFFFFFF) = BitVec.ofNat 32 v := by
  rw [show (0xFFFFFFFF : Nat) = 2 ^ 32 - 1 from rfl, Nat.and_two_pow_sub_one_eq_mod]
  exact BitVec.eq_of_toNat_eq (by simp)

theorem State.view_time (s : State) : s.view 0x10010 = BitVec.ofNat 32 s.time.toNat ∧
    s.view 0x10014 = BitVec.ofNat 32 (s.time.toNat / 2 ^ 32) ∧ s.view 0x10018 = s.epoch := by
  refine ⟨?_, ?_, ?_⟩
  · rw [State.view_of_regAt (r := ⟨"CLK_TIME_LO", 0x10010, [], 0x0, 0x0, 0x0, 0x0, 0, 0xFFFFFFFF⟩) (ix := []) (by decide)]
    refine (and_low_ones _).trans (BitVec.eq_of_toNat_eq ?_)
    simp [State.viewOf]
  · rw [State.view_of_regAt (r := ⟨"CLK_TIME_HI", 0x10014, [], 0x0, 0x0, 0x0, 0x0, 0, 0xFFFFFFFF⟩) (ix := []) (by decide)]
    exact and_low_ones _
  · rw [State.view_of_regAt (r := ⟨"CLK_EPOCH", 0x10018, [], 0x0, 0x0, 0x0, 0x0, 0, 0xFFFFFFFF⟩) (ix := []) (by decide)]
    exact (and_low_ones _).trans (BitVec.eq_of_toNat_eq (by simp [State.viewOf]))

theorem State.latchFor_time (s : State) (src : Src) : s.latchFor src 0x10010 0x10010 =
    (s.setLatch src 0x10014 (s.view 0x10014)).setLatch src 0x10018 (s.view 0x10018) := if_pos rfl

theorem exec_loRead_time (src : Src) {s : State} (ho : s.mode ≠ .off) :
    exec (.loRead src 0x10010 .clean) s =
      .next (((s.setLatch src 0x10014 (s.view 0x10014)).setLatch src 0x10018 (s.view 0x10018)).answer
        (leBytes 4 (s.view 0x10010).toNat) false) := by
  have hr : regAt 0x10010 = some (⟨"CLK_TIME_LO", 0x10010, [], 0x0, 0x0, 0x0, 0x0, 0, 0xFFFFFFFF⟩, []) := by decide
  have ha : s.accessOf src 0x10010 ≠ .none := by rw [State.accessOf_of_low src ho (by decide)]; decide
  have hread : s.readReg src 0x10010 =
      (s.view 0x10010, (s.setLatch src 0x10014 (s.view 0x10014)).setLatch src 0x10018 (s.view 0x10018)) := by
    rw [State.readReg_of_plain hr (by decide) (by decide), State.latchFor_time]
  rw [exec_loRead_of_reg (n := 0x10010) rfl ho (by decide) ha (sramWindow_eq_none (by decide)), hread]

/-- Settles O41: a read answers with the word that the bus sees or that is latched, and changes the latches alone. -/
theorem readsComplete : Obligations.ReadsComplete := by
  unfold Obligations.ReadsComplete
  refine ⟨fun src c s hs => ⟨_, exec_tdcStatusRead_of_inService src c hs, ?_, fun i hi => ?_, ?_⟩,
    fun src s ho => ⟨_, exec_loRead_time src ho, ?_, ?_, ?_, ?_⟩,
    fun src a r ix s ha h4 hw hr hl => ⟨s.answer (leBytes 4 (s.latch src a.toNat).toNat) false, ?_, rfl, rfl⟩,
    fun src a s hs h4 hw hr => ⟨s.answer [0, 0, 0, 0] false, ?_, rfl, rfl⟩,
    fun src a s hs h4 hlo hhi => ⟨s.answer (leBytes 4 (leNat (s.poolBytes (a.toNat - 0x1000000) 4))) false, ?_, rfl, rfl⟩⟩
  · exact State.answer_reply _ _ _
  · rw [State.latch_answer]
    exact State.latch_latchViews_of_mem src (tdcResultAddr_injective c) s (List.mem_range.mpr hi)
  · exact State.answer_latchViews_frame src _ _ s _ _
  · obtain ⟨hlo, -, -⟩ := s.view_time
    rw [State.answer_reply, hlo, leBytes_four_mod]
  · obtain ⟨-, hhi, -⟩ := s.view_time
    rw [State.latch_answer, State.latch_setLatch_ne _ src _ (by decide), State.latch_setLatch_same, hhi]
  · obtain ⟨-, -, hep⟩ := s.view_time
    rw [State.latch_answer, State.latch_setLatch_same, hep]
  · rw [State.withReply_answer, State.withLatches_setLatch, State.withLatches_setLatch, State.withReply_withLatches_self]
  · have ho : s.mode ≠ .off := fun ho => ha (State.accessOf_of_off ho src _)
    rw [exec_loRead_of_reg rfl ho h4 ha hw, State.readReg_of_latched hr hl]
  · have hread : s.readReg src a.toNat = (0, s) := by simp only [State.readReg, hr]
    have hzero : leBytes 4 (0 : Word).toNat = [0, 0, 0, 0] := by decide
    rw [exec_loRead_of_reg rfl (State.mode_ne_off_of_inService hs) h4 (by rw [State.accessOf_of_inService hs]; decide) hw, hread,
      hzero]
  · rw [exec_loRead_of_window (State.mode_ne_off_of_inService hs) h4 (by rw [State.accessOf_of_inService hs]; decide)
      (sramWindow_pool ⟨hlo, hhi⟩), leBytes_four_mod]

end Sys2Proof.Machine
end

section
/-! PROOF. Time and the SYNC exchange (O18). -/

namespace Sys2Proof.Machine

/-! ## What an event leaves of the synchronization -/

theorem Journaled.sync_eq {s t : State} (h : Journaled s t) : t.sync = s.sync ∧ t.slew = s.slew := by
  have e : s.unjournaled t = s := h
  exact ⟨(congrArg State.sync e :), (congrArg State.slew e :)⟩

@[simp] theorem State.event_sync (s : State) (src code p4 p5 p6 p7 : Nat) : (s.event src code p4 p5 p6 p7).sync = s.sync :=
  (Journaled.eventAt s s.time.toNat src code p4 p5 p6 p7).sync_eq.1

@[simp] theorem State.put_sync (s : State) (f : Field) (v : Nat) : (s.put f v).sync = s.sync := by simp [State.put]

@[simp] theorem State.put_slew (s : State) (f : Field) (v : Nat) : (s.put f v).slew = s.slew := by simp [State.put]

/-! ## The wrap of the count (R67) -/

/-- Of what the frames follow, the wrap of the count moves the epoch, and its event the journal in DRAM. -/
theorem State.timeWrap_epoch (s : State) : s.timeWrap.epoch = s.epoch + 1 := by
  rw [State.timeWrap, State.rd_epoch, State.event_frame _ _ _ _ _ _ _ _ (by decide)]
  rfl

theorem State.timeWrap_evtSeq (s : State) : s.timeWrap.evtSeq = s.evtSeq + 1 := by
  rw [State.timeWrap, State.event_evtSeq]

theorem State.timeWrap_regs (s : State) : RegsButEvents [] s s.timeWrap := fun a _ he => by
  rw [State.timeWrap, State.event_reg _ _ _ _ _ _ he]
  rfl

theorem State.withTime_keep (s : State) (x : BitVec 64) :
    (s.withTime x).epoch = s.epoch ∧ (s.withTime x).evtSeq = s.evtSeq ∧ ∀ a, (s.withTime x).reg a = s.reg a :=
  ⟨rfl, rfl, fun _ => rfl⟩

/-- A count set to 0 with its epoch, as TIME_WRAP does. -/
theorem State.timeWrap_withTime_frame (s : State) (x : BitVec 64) (fd : Followed) (ht : fd ≠ .time) (he : fd ≠ .epoch)
    (hd : fd ≠ .dram) : (s.withTime x).timeWrap.rd fd = s.rd fd :=
  (State.timeWrap_frame _ _ he hd).trans (State.withTime_frame _ _ _ ht)

/-! ## A whistle on one port (R313) -/

theorem State.whistleOn_port (s : State) (w : Whistle) {p : Nat} (hp : s.portActive p = true) :
    s.whistleOn w [p] = s.setPort p { s.port p with sent := (s.port p).sent ++ [.whistle w] } := by
  simp [State.whistleOn, State.each, hp]

theorem State.put_setPort_port (s : State) (f : Field) (v : Nat) (p o : Nat) (x : PortSt) :
    ((s.setPort p x).put f v).port o = (s.setPort p x).port o := rfl

theorem State.withSync_port (s : State) (y : SyncSt) (p : Nat) : (s.withSync y).port p = s.port p := rfl

theorem State.withSync_setPort_frame (s : State) (y : SyncSt) (p : Nat) (x : PortSt) :
    (((s.withSync y).setPort p x).withSync s.sync).withPorts s.ports = s := rfl

theorem exec_syncExchange_of_active {s : State} (hm : s.hasManager = true) (hp : s.portActive 0 = true) :
    exec .syncExchange s = .next ((s.withSync { s.sync with xch := (s.sync.xch + 1) % 256, t1 := some s.time.toNat }).setPort 0
      { s.port 0 with
        sent := (s.port 0).sent ++ [.whistle { wn := (s.sync.xch + 1) % 256, kind := 5, show_ := 0, origin := 0 }] }) := by
  rw [exec_syncExchange, execSyncExchange, if_pos ⟨hm, hp⟩]
  exact congrArg _ (State.whistleOn_port (s.withSync _) _ hp)

/-- A number of two's complement is one of the field's width. -/
theorem twos_lt (n : Nat) (v : Int) : twos n v < 2 ^ n := by
  have hpos : (0 : Int) < (2 ^ n : Nat) := by exact_mod_cast Nat.two_pow_pos n
  have hlt : v % (2 ^ n : Nat) < (2 ^ n : Nat) := Int.emod_lt_of_pos v hpos
  have hnn : 0 ≤ v % (2 ^ n : Nat) := Int.emod_nonneg v (by omega)
  unfold twos
  omega

theorem State.fld_put_roundTrip (s : State) (p : Nat) (v : Int) :
    (s.put (LNK_DELAY.RT p) (twos 24 v)).fld (LNK_DELAY.RT p) = twos 24 v :=
  (s.fld_put_same (LNK_DELAY.RT p) _ (by simp [LNK_DELAY.RT])).trans (Nat.mod_eq_of_lt (twos_lt 24 v))

/-! ## The reply (R68, R71) -/

theorem State.withSync_reg (s : State) (y : SyncSt) (a : Nat) : (s.withSync y).reg a = s.reg a := rfl

theorem State.withSlew_reg (s : State) (v : Int) (a : Nat) : (s.withSlew v).reg a = s.reg a := rfl

theorem State.acquire_reg (s : State) (a : Nat) : s.acquire.reg a =
    (((s.put CLK_SYNC_STATUS.STATE 1).put CLK_SYNC_STATUS.EXCH 0).put CLK_SYNC_STATUS.UP_OUT 0).reg a := by
  rw [State.acquire, State.withSlew_reg, State.withSync_reg]

theorem State.acquire_reg_ne (s : State) {a : Nat} (h : a ≠ CLK_SYNC_STATUS.addr) : s.acquire.reg a = s.reg a := by
  rw [State.acquire_reg, State.reg_put_ne _ _ h, State.reg_put_ne _ _ h, State.reg_put_ne _ _ h]

theorem State.timeStep_reg_ne (s : State) (v : Int) {a : Nat} (h : a ≠ CLK_SYNC_STATUS.addr) (he : evtReg a = false) :
    (s.timeStep v).reg a = s.reg a := by
  rw [State.timeStep, State.reg_put_ne _ _ h, State.reg_put_ne _ _ h, State.reg_put_ne _ _ h, State.event_reg _ _ _ _ _ _ he]
  rfl

theorem State.timeStep_t1 (s : State) (v : Int) : (s.timeStep v).sync.t1 = s.sync.t1 := by
  simp [State.timeStep]

theorem State.syncAdvance_reg_ne (s : State) (v : Int) {a : Nat} (h : a ≠ CLK_SYNC_STATUS.addr) (he : evtReg a = false) :
    (s.syncAdvance v).reg a = s.reg a := by
  unfold State.syncAdvance
  split
  · split
    · exact s.timeStep_reg_ne v h he
    · rfl
  · split
    · rw [State.event_reg _ _ _ _ _ _ he, State.reg_put_ne _ _ h]
      rfl
    · rfl
  · split
    · rfl
    · exact s.acquire_reg_ne h
  · rfl

/-- The state machine sends no request of its own. -/
theorem State.syncAdvance_t1 (s : State) (v : Int) (h : s.sync.t1 = none) : (s.syncAdvance v).sync.t1 = none := by
  unfold State.syncAdvance
  split
  · split
    · exact (s.timeStep_t1 v).trans h
    · exact h
  · split
    · rw [State.event_sync]
      exact h
    · exact h
  · split
    · exact h
    · rfl
  · exact h

theorem State.mode_of_frame {s t : State} (h : t.rd .mode = s.rd .mode) : t.mode = s.mode := by
  rw [State.rd_mode, h, ← State.rd_mode]

/-- The round trip and the offset of a reply stored, before the filter reads them. -/
def State.syncHeard (s : State) (rt theta2 : Int) : State :=
  let s := s.put (LNK_DELAY.RT 0) (twos 24 rt)
  let s := s.withSync { s.sync with t1 := none, thetas := lastN 16 (s.sync.thetas ++ [theta2]) }
  s.bump CLK_SYNC_STATUS.EXCH

/-- The reply with its filtered offset, before the state machine takes its step. -/
def State.syncReply (s : State) (rt theta2 : Int) : State :=
  (s.syncHeard rt theta2).setReg CLK_SYNC_OFFSET.addr (BitVec.ofNat 32 (twos 32 (s.syncHeard rt theta2).filtered))

theorem State.syncReply_t1 (s : State) (rt theta2 : Int) : (s.syncReply rt theta2).sync.t1 = none := by
  simp [State.syncReply, State.syncHeard, State.bump]

theorem State.syncReply_frame (s : State) (rt theta2 : Int) (fd : Followed) : (s.syncReply rt theta2).rd fd = s.rd fd := by
  simp [State.syncReply, State.syncHeard]

theorem State.syncReply_roundTrip (s : State) (rt theta2 : Int) :
    (s.syncReply rt theta2).fld (LNK_DELAY.RT 0) = twos 24 rt := by
  have hreg : (s.syncReply rt theta2).reg (LNK_DELAY.RT 0).addr = (s.put (LNK_DELAY.RT 0) (twos 24 rt)).reg (LNK_DELAY.RT 0).addr := by
    rw [State.syncReply, State.reg_setReg_ne _ _ (by decide), State.syncHeard, State.reg_bump_ne _ (by decide), State.withSync_reg]
  exact (State.fld_congr hreg).trans (s.fld_put_roundTrip 0 rt)

theorem State.at_keep (s : State) (t : Nat) : (s.at_ t).sync = s.sync ∧ (s.at_ t).regs = s.regs := by
  unfold State.at_
  split <;> exact ⟨rfl, rfl⟩

/-- Twice the offset that an exchange measures (R68). -/
def State.syncOffset (s : State) (turn : BitVec 24) (t1 : Nat) (t2 t4 : BitVec 64) : Int :=
  since 64 t1 t2.toNat + since 64 t4.toNat (t2.toNat + turn.toNat) +
    (signed 16 (s.fld (LNK_DELAY_ASYM.CABLE 0)) + signed 16 (s.fld (LNK_DELAY_ASYM.PHY 0)))

theorem State.portActive_of_regs {s t : State} (h : t.regs = s.regs) (p : Nat) : t.portActive p = s.portActive p := by
  rw [State.portActive, State.fld_congr (s := s) (by rw [State.reg, State.reg, h])]
  rfl

theorem exec_syncRsp_of_reply {xch : BitVec 8} (turn : BitVec 24) (t2 : BitVec 64) {t4 : BitVec 64} {t1 : Nat} {s : State}
    (ht : s.sync.t1 = some t1) (hp : s.portActive 0 = true) (hx : xch.toNat = s.sync.xch) (hs : 0 ≤ since 64 t4.toNat t1) :
    ∃ theta2 v, exec (.syncRsp xch turn t2 t4) s =
      .next (((s.at_ t4.toNat).syncReply (since 64 t4.toNat t1 - turn.toNat) theta2).syncAdvance v) := by
  obtain ⟨hsync, hregs⟩ := s.at_keep t4.toNat
  refine ⟨(s.at_ t4.toNat).syncOffset turn t1 t2 t4,
    ((s.at_ t4.toNat).syncHeard (since 64 t4.toNat t1 - turn.toNat) ((s.at_ t4.toNat).syncOffset turn t1 t2 t4)).filtered, ?_⟩
  rw [exec_syncRsp, execSyncRsp, ht]
  exact if_pos ⟨(State.portActive_of_regs hregs 0).trans hp, by rw [hsync]; exact hx, hs⟩

/-- Settles O18: each command of time puts its registers and leaves the rest. -/
theorem timeCommandsComplete : Obligations.TimeCommandsComplete := by
  unfold Obligations.TimeCommandsComplete
  refine ⟨fun s ho => ?_, fun s hm hp => ?_, fun p xch r s h0 hp => ?_,
    fun xch turn t2 t4 t1 s ht hp hx hs => ?_⟩
  · obtain ⟨hepoch, hseq, hreg⟩ := s.withTime_keep 0
    refine ⟨(s.withTime 0).timeWrap, ?_, ?_, ?_, ?_, ?_, ?_, ?_, ?_, ?_⟩
    · rw [exec_timeWrap, execTimeWrap, if_neg ho]
    · rw [State.rd_time, State.timeWrap_frame _ _ (by decide) (by decide), ← State.rd_time, State.withTime_time]
    · rw [State.timeWrap_epoch, hepoch]
    · rw [State.timeWrap_evtSeq, hseq]
    · rw [State.rd_mode, s.timeWrap_withTime_frame 0 _ (by decide) (by decide) (by decide), ← State.rd_mode]
    · rw [State.rd_otp, s.timeWrap_withTime_frame 0 _ (by decide) (by decide) (by decide), ← State.rd_otp]
    · rw [State.rd_flash, s.timeWrap_withTime_frame 0 _ (by decide) (by decide) (by decide), ← State.rd_flash]
    · rw [State.rd_banks, s.timeWrap_withTime_frame 0 _ (by decide) (by decide) (by decide), ← State.rd_banks]
    · exact fun a ha he => (State.timeWrap_regs _ a ha he).trans (hreg a)
  · refine ⟨_, exec_syncExchange_of_active hm hp, ?_, ?_, fun p h => ?_, State.withSync_setPort_frame s _ 0 _⟩
    · simp
    · rw [State.setPort_same]
    · rw [State.setPort_ne _ _ h, State.withSync_port]
  · refine ⟨_, by rw [exec_syncReq, execSyncReq, if_pos ⟨h0, hp⟩, State.whistleOn_port _ _ hp],
      State.fld_put_roundTrip _ _ _, ?_, fun o h => ?_, steady_of_frame fun fd _ => ?_, fun a ha => ?_⟩
    · rw [State.put_setPort_port, State.setPort_same]
    · rw [State.put_setPort_port, State.setPort_ne _ _ h]
    · simp
    · exact State.reg_put_ne _ _ (fun h => ha (List.mem_singleton.mpr h))
  · obtain ⟨theta2, v, hexec⟩ := exec_syncRsp_of_reply turn t2 ht hp hx hs
    have hframe : ∀ fd : Followed, fd ≠ .time → fd ≠ .dram →
        (((s.at_ t4.toNat).syncReply (since 64 t4.toNat t1 - turn.toNat) theta2).syncAdvance v).rd fd = s.rd fd := by
      intro fd htime hdram
      rw [State.syncAdvance_frame _ _ _ htime hdram, State.syncReply_frame, State.at_frame _ _ _ htime]
    refine ⟨_, hexec, State.syncAdvance_t1 _ _ (State.syncReply_t1 _ _ _), ?_,
      State.mode_of_frame (hframe .mode (by decide) (by decide)), still_of_frame fun fd hdram _ htime _ => hframe fd htime hdram⟩
    exact (State.fld_congr (State.syncAdvance_reg_ne _ _ (by decide) (by decide))).trans (State.syncReply_roundTrip _ _ _)

end Sys2Proof.Machine
end

section
/-! SUPPORT. What the operations of the reference source write (O16, O17). -/

namespace Sys2Proof.Machine

/-! ## The fields of CLK_STATUS -/

/-- A field of CLK_STATUS below HOLDOVER: what the monitors say of the sources, the locks of the root. -/
def Field.monitor (f : Field) : Prop := f.addr = CLK_STATUS.addr ∧ f.lo + f.len ≤ 7

/-- A field of CLK_STATUS from HOLDOVER on: what the module has chosen. -/
def Field.choice (f : Field) : Prop := f.addr = CLK_STATUS.addr ∧ 7 ≤ f.lo ∧ f.lo + f.len ≤ 32

theorem State.fld_put_choice {s : State} {f g : Field} (v : Nat) (hf : f.choice) (hg : g.monitor) :
    (s.put f v).fld g = s.fld g := by
  obtain ⟨hfa, hlo, hlen⟩ := hf
  obtain ⟨hga, hend⟩ := hg
  exact State.fld_put_apart s v (hga.trans hfa.symm) hlen (.inr (hend.trans hlo))

theorem choice_HOLDOVER : CLK_STATUS.HOLDOVER.choice := ⟨rfl, by decide, by decide⟩

theorem choice_SRC_ACTIVE : CLK_STATUS.SRC_ACTIVE.choice := ⟨rfl, by decide, by decide⟩

theorem State.flag_of_fld {s t : State} {f : Field} (h : t.fld f = s.fld f) : t.flag f = s.flag f := by
  rw [State.flag, State.flag, h]

/-! ## TB_COLD (R63) -/

theorem State.withUnits_reg (s : State) (us : Tab TdcUnit) (a : Nat) : (s.withUnits us).reg a = s.reg a := rfl

theorem State.withUnits_fld (s : State) (us : Tab TdcUnit) (f : Field) : (s.withUnits us).fld f = s.fld f := rfl

/-- The mark of a cold time base writes no register but CLK_STATUS, and of that TB_COLD. -/
theorem State.updateCold_reg_ne (s : State) {a : Nat} (h : a ≠ CLK_STATUS.addr) : s.updateCold.reg a = s.reg a := by
  obtain ⟨cold, us, he⟩ := s.updateCold_eq
  rw [he, State.withUnits_reg, State.reg_putB_ne _ _ h]

theorem State.updateCold_fld {s : State} {f : Field} (ha : f.addr = CLK_STATUS.addr) (h : f.lo + f.len ≤ 11) :
    s.updateCold.fld f = s.fld f := by
  obtain ⟨cold, us, he⟩ := s.updateCold_eq
  rw [he, State.withUnits_fld]
  exact State.fld_put_apart s _ ha (by decide) (.inr h)

theorem State.updateCold_flag {s : State} {f : Field} (ha : f.addr = CLK_STATUS.addr) (h : f.lo + f.len ≤ 11) :
    s.updateCold.flag f = s.flag f := State.flag_of_fld (State.updateCold_fld ha h)

theorem State.updateCold_cold (s : State) : s.updateCold.flag CLK_STATUS.TB_COLD =
    (!s.flag CLK_STATUS.OCXO_WARM || (decide (s.fld CLK_STATUS.SRC_ACTIVE = 1) && s.flag (LNK_STATUS.P_TB_COLD 0))) := by
  simp only [State.updateCold]
  split
  · exact s.flag_putB_same CLK_STATUS.TB_COLD _ (by decide) rfl
  · exact s.flag_putB_same CLK_STATUS.TB_COLD _ (by decide) rfl

/-- What an operation leaves of the synchronization (R71). -/
def SyncKept (s t : State) : Prop := t.sync = s.sync ∧ t.slew = s.slew ∧ t.reg CLK_SYNC_STATUS.addr = s.reg CLK_SYNC_STATUS.addr

theorem SyncKept.refl (s : State) : SyncKept s s := ⟨rfl, rfl, rfl⟩

theorem SyncKept.trans {s t u : State} (h : SyncKept s t) (k : SyncKept t u) : SyncKept s u := by
  obtain ⟨hsync, hslew, hreg⟩ := h
  obtain ⟨ksync, kslew, kreg⟩ := k
  exact ⟨ksync.trans hsync, kslew.trans hslew, kreg.trans hreg⟩

theorem SyncKept.put {s : State} {f : Field} (v : Nat) (h : f.addr ≠ CLK_SYNC_STATUS.addr) : SyncKept s (s.put f v) :=
  ⟨s.put_sync f v, s.put_slew f v, State.reg_put_ne s v h.symm⟩

theorem SyncKept.putB {s : State} {f : Field} (b : Bool) (h : f.addr ≠ CLK_SYNC_STATUS.addr) : SyncKept s (s.putB f b) :=
  .put _ h

theorem SyncKept.withUnits (s : State) (us : Tab TdcUnit) : SyncKept s (s.withUnits us) := ⟨rfl, rfl, rfl⟩

theorem SyncKept.updateCold (s : State) : SyncKept s s.updateCold := by
  obtain ⟨cold, us, he⟩ := s.updateCold_eq
  rw [he]
  exact (SyncKept.putB cold (by decide)).trans (.withUnits _ us)

theorem SyncKept.syncState_eq {s t : State} (h : SyncKept s t) : t.syncState = s.syncState := by
  obtain ⟨-, -, hreg⟩ := h
  exact State.fld_congr hreg

/-! ## The disciplining loop (R61) -/

theorem State.discipline_cases (s : State) : s.discipline = s ∨ ∃ v, s.discipline = s.takeFree.put CLK_OCXO_TRIM.TRIM v := by
  simp only [State.discipline]
  split
  · exact .inr ⟨_, rfl⟩
  · exact .inl rfl

theorem State.takeFree_reg (s : State) (a : Nat) : s.takeFree.reg a = s.reg a := rfl

theorem SyncKept.takeFree (s : State) : SyncKept s s.takeFree := ⟨rfl, rfl, rfl⟩

theorem State.discipline_reg_ne (s : State) {a : Nat} (h : a ≠ CLK_OCXO_TRIM.addr) : s.discipline.reg a = s.reg a := by
  rcases s.discipline_cases with he | ⟨v, he⟩ <;> rw [he]
  rw [State.reg_put_ne _ _ h, State.takeFree_reg]

theorem State.discipline_fld (s : State) {f : Field} (h : f.addr ≠ CLK_OCXO_TRIM.addr) : s.discipline.fld f = s.fld f :=
  State.fld_congr (s.discipline_reg_ne h)

theorem SyncKept.discipline (s : State) : SyncKept s s.discipline := by
  rcases s.discipline_cases with he | ⟨v, he⟩ <;> rw [he]
  · exact .refl s
  · exact (SyncKept.takeFree s).trans (.put v (by decide))

/-! ## The selected source (R59) -/

theorem State.hasManager_congr {s t : State} (h : t.reg SYS_ROLE.addr = s.reg SYS_ROLE.addr) : t.hasManager = s.hasManager :=
  congrArg (fun n => decide (n < 2)) (State.fld_congr (f := SYS_ROLE.ROLE) h)

theorem State.srcValid_congr {s t : State} (h : ∀ f : Field, f.monitor → t.fld f = s.fld f) (n : Nat) :
    t.srcValid n = s.srcValid n := by
  have hflag : ∀ f : Field, f.monitor → t.flag f = s.flag f := fun f hf => State.flag_of_fld (h f hf)
  unfold State.srcValid
  rw [hflag CLK_STATUS.LINK_VALID ⟨rfl, by decide⟩, hflag CLK_STATUS.REFIN_VALID ⟨rfl, by decide⟩]

theorem State.srcWanted_congr {s t : State} (hcfg : t.reg CLK_ROOT_CFG.addr = s.reg CLK_ROOT_CFG.addr)
    (hrole : t.reg SYS_ROLE.addr = s.reg SYS_ROLE.addr) (h : ∀ f : Field, f.monitor → t.fld f = s.fld f) :
    t.srcWanted = s.srcWanted := by
  have hrefin : t.flag CLK_STATUS.REFIN_VALID = s.flag CLK_STATUS.REFIN_VALID :=
    State.flag_of_fld (h CLK_STATUS.REFIN_VALID ⟨rfl, by decide⟩)
  unfold State.srcWanted
  rw [State.fld_congr (f := CLK_ROOT_CFG.REF_SRC) hcfg, State.hasManager_congr hrole, hrefin]

theorem State.srcWanted_lt (s : State) : s.srcWanted < 4 := by
  have hsrc : s.fld CLK_ROOT_CFG.REF_SRC < 2 ^ CLK_ROOT_CFG.REF_SRC.len := State.fld_lt s _
  unfold State.srcWanted
  split
  · split
    · omega
    · split <;> omega
  · exact hsrc

theorem State.selectSource_reg_ne (s : State) {a : Nat} (h : a ≠ CLK_STATUS.addr) : s.selectSource.reg a = s.reg a := by
  rw [State.selectSource, State.updateCold_reg_ne _ h, State.reg_put_ne _ _ h]

theorem State.selectSource_monitor {s : State} {f : Field} (hf : f.monitor) : s.selectSource.fld f = s.fld f := by
  obtain ⟨ha, hend⟩ := hf
  rw [State.selectSource, State.updateCold_fld ha (by omega), State.fld_put_choice _ choice_SRC_ACTIVE ⟨ha, hend⟩]

theorem SyncKept.selectSource (s : State) : SyncKept s s.selectSource :=
  (SyncKept.put _ (by decide)).trans (.updateCold _)

/-- While the root is locked, the source the module runs from is the selected one, or the OCXO. -/
theorem State.selectSource_active {s : State} (h : s.flag CLK_STATUS.ROOT_LOCK = true) :
    s.selectSource.fld CLK_STATUS.SRC_ACTIVE = if s.srcValid s.srcWanted then s.srcWanted else 3 := by
  have hlt : (if s.srcValid s.srcWanted then s.srcWanted else 3) < 4 := by
    have := s.srcWanted_lt
    split <;> omega
  rw [State.selectSource, State.updateCold_fld rfl (by decide), State.fld_put_same _ _ _ (by decide), if_neg (by simp [h])]
  exact Nat.mod_eq_of_lt hlt

/-! ## The synchronization acquired again (R71) -/

/-- The synchronization has just begun. -/
def Acquiring (s : State) : Prop := s.syncState = 1 ∧ s.slew = 0 ∧ s.sync.thetas = []

theorem State.acquire_acquiring (s : State) : Acquiring s.acquire := by
  refine ⟨?_, rfl, rfl⟩
  rw [State.syncState, State.fld_congr (s.acquire_reg _),
    State.fld_put_apart (f := CLK_SYNC_STATUS.UP_OUT) (g := CLK_SYNC_STATUS.STATE) _ _ rfl (by decide) (by decide),
    State.fld_put_apart (f := CLK_SYNC_STATUS.EXCH) (g := CLK_SYNC_STATUS.STATE) _ _ rfl (by decide) (by decide),
    State.fld_put_same _ _ _ (by decide)]
  rfl

theorem State.upAgain_of_ne {s : State} (h : s.syncState ≠ 4) : s.upAgain = s := by
  rw [State.upAgain, if_neg fun hc => h hc.2]

theorem State.upAgain_cases (s : State) : s.upAgain = s ∨ s.upAgain = s.acquire := by
  unfold State.upAgain
  split
  · exact .inr rfl
  · exact .inl rfl

theorem State.upAgain_acquiring {s : State} (hl : s.flag CLK_STATUS.LINK_VALID = true) (h4 : s.syncState = 4) :
    Acquiring s.upAgain := by
  rw [State.upAgain, if_pos ⟨hl, h4⟩]
  exact s.acquire_acquiring

theorem State.upAgain_reg_ne (s : State) {a : Nat} (h : a ≠ CLK_SYNC_STATUS.addr) : s.upAgain.reg a = s.reg a := by
  rcases s.upAgain_cases with he | he <;> rw [he]
  exact s.acquire_reg_ne h

theorem State.upAgain_fld (s : State) {f : Field} (h : f.addr ≠ CLK_SYNC_STATUS.addr) : s.upAgain.fld f = s.fld f :=
  State.fld_congr (s.upAgain_reg_ne h)

/-! ## The move to the selected source (R57, R59) -/

/-- The move to the selected source ends in one of three states. -/
theorem State.reselect_cases (s : State) :
    s.discipline.srcValid s.discipline.srcWanted = true ∧
      s.reselect = (s.discipline.selectSource.put CLK_STATUS.HOLDOVER 0).upAgain ∨
    s.discipline.flag CLK_STATUS.HOLDOVER = true ∧ s.reselect = s.discipline ∨ s.reselect = s.discipline.selectSource := by
  simp only [State.reselect]
  split
  · exact .inl ⟨‹_›, rfl⟩
  · split
    · exact .inr (.inl ⟨‹_›, rfl⟩)
    · exact .inr (.inr rfl)

theorem State.reselect_reg_ne (s : State) {a : Nat} (h : a ∉ [CLK_STATUS.addr, CLK_SYNC_STATUS.addr, CLK_OCXO_TRIM.addr]) :
    s.reselect.reg a = s.reg a := by
  simp only [List.mem_cons, List.not_mem_nil, or_false, not_or] at h
  obtain ⟨hstatus, hsync, htrim⟩ := h
  rcases s.reselect_cases with ⟨-, he⟩ | ⟨-, he⟩ | he <;> rw [he]
  · rw [State.upAgain_reg_ne _ hsync, State.reg_put_ne _ _ hstatus, State.selectSource_reg_ne _ hstatus,
      State.discipline_reg_ne _ htrim]
  · rw [State.discipline_reg_ne _ htrim]
  · rw [State.selectSource_reg_ne _ hstatus, State.discipline_reg_ne _ htrim]

/-- What the monitors say is no choice of the module's. -/
theorem State.reselect_monitor {s : State} {f : Field} (hf : f.monitor) : s.reselect.fld f = s.fld f := by
  have htrim : f.addr ≠ CLK_OCXO_TRIM.addr := hf.1 ▸ (by decide : CLK_STATUS.addr ≠ CLK_OCXO_TRIM.addr)
  have hsync : f.addr ≠ CLK_SYNC_STATUS.addr := hf.1 ▸ (by decide : CLK_STATUS.addr ≠ CLK_SYNC_STATUS.addr)
  rcases s.reselect_cases with ⟨-, he⟩ | ⟨-, he⟩ | he <;> rw [he]
  · rw [State.upAgain_fld _ hsync, State.fld_put_choice _ choice_HOLDOVER hf,
      State.selectSource_monitor hf, State.discipline_fld _ htrim]
  · rw [State.discipline_fld _ htrim]
  · rw [State.selectSource_monitor hf, State.discipline_fld _ htrim]

/-- Outside holdover, the source the module runs from is the selected one, or the OCXO. -/
theorem State.reselect_active {s : State} (hlock : s.reselect.flag CLK_STATUS.ROOT_LOCK = true)
    (hhold : s.reselect.flag CLK_STATUS.HOLDOVER = false) :
    s.reselect.fld CLK_STATUS.SRC_ACTIVE = if s.srcValid s.srcWanted then s.srcWanted else 3 := by
  have hmon : ∀ f : Field, f.monitor → s.discipline.fld f = s.fld f := fun f hf =>
    s.discipline_fld (hf.1 ▸ (by decide : CLK_STATUS.addr ≠ CLK_OCXO_TRIM.addr))
  have hlock' : s.discipline.flag CLK_STATUS.ROOT_LOCK = true := by
    have hmonitor : CLK_STATUS.ROOT_LOCK.monitor := ⟨rfl, by decide⟩
    rw [State.flag, hmon _ hmonitor, ← State.reselect_monitor hmonitor]
    exact hlock
  rw [← State.srcWanted_congr (s.discipline_reg_ne (by decide)) (s.discipline_reg_ne (by decide)) hmon,
    ← State.srcValid_congr hmon, ← State.selectSource_active hlock']
  rcases s.reselect_cases with ⟨-, he⟩ | ⟨hh, he⟩ | he
  · rw [he, State.upAgain_fld _ (by decide),
      State.fld_put_apart (f := CLK_STATUS.HOLDOVER) (g := CLK_STATUS.SRC_ACTIVE) _ _ rfl (by decide) (by decide)]
  · rw [he, hh] at hhold
    cases hhold
  · rw [he]

/-- The move keeps the synchronization, or begins it again. -/
theorem State.reselect_sync (s : State) : SyncKept s s.reselect ∨ Acquiring s.reselect ∧ s.syncState = 4 := by
  have hkept : SyncKept s (s.discipline.selectSource.put CLK_STATUS.HOLDOVER 0) :=
    ((SyncKept.discipline s).trans (.selectSource _)).trans (.put 0 (by decide))
  rcases s.reselect_cases with ⟨-, he⟩ | ⟨-, he⟩ | he <;> rw [he]
  · by_cases h4 : s.syncState = 4
    · rcases State.upAgain_cases (s.discipline.selectSource.put CLK_STATUS.HOLDOVER 0) with hu | hu <;> rw [hu]
      · exact .inl hkept
      · exact .inr ⟨State.acquire_acquiring _, h4⟩
    · rw [State.upAgain_of_ne (hkept.syncState_eq.trans_ne h4)]
      exact .inl hkept
  · exact .inl (.discipline s)
  · exact .inl ((SyncKept.discipline s).trans (.selectSource _))

end Sys2Proof.Machine
end

section
/-! PROOF. Root changes (O16). -/

namespace Sys2Proof.Machine

/-! ## The write (R57) -/

theorem regAt_CLK_ROOT_CFG : regAt CLK_ROOT_CFG.addr =
    some (⟨"CLK_ROOT_CFG", 0x10000, [], 0x113FFFF, 0x0, 0x0, 0x1006400, 0, 0x113FFFF⟩, []) := by decide

theorem State.hostWrite_rootCfg {v : Word} {s : State} (ho : s.mode ≠ .off) (hv : reservedBits CLK_ROOT_CFG.addr v = 0)
    (hlo : 19200 ≤ wfld v CLK_ROOT_CFG.ROOT_MHZ) (hhi : wfld v CLK_ROOT_CFG.ROOT_MHZ ≤ 25600) :
    s.hostWrite CLK_ROOT_CFG.addr v (fun s => s.writeRootCfg v) =
      if wfld v CLK_ROOT_CFG.ROOT_MHZ = s.fld CLK_ROOT_CFG.ROOT_MHZ then s.storeRootCfg v
      else if s.mode = .idle ∧ s.anyExecuting = false ∧ s.flag SYS_STATUS.TRANSIT = false then (s.storeRootCfg v).rootChange
      else s.put CLK_STATUS.ROOT_REFUSED 1 := by
  rw [State.hostWrite_of_access _ (State.access_of_low ho (by decide)) hv]
  exact if_neg (by omega)

theorem State.storeRootCfg_refSrc (s : State) (v : Word) :
    (s.storeRootCfg v).fld CLK_ROOT_CFG.REF_SRC = wfld v CLK_ROOT_CFG.REF_SRC := by
  have hstore : (s.store CLK_ROOT_CFG.addr v).fld CLK_ROOT_CFG.REF_SRC = wfld v CLK_ROOT_CFG.REF_SRC :=
    State.fld_store_of_rw v regAt_CLK_ROOT_CFG rfl (by decide) (by decide) rfl (by decide)
  simp only [State.storeRootCfg]
  split
  · exact hstore
  · exact (State.fld_congr (State.reselect_reg_ne _ (by decide))).trans hstore

theorem State.storeRootCfg_of_same {s : State} {v : Word} (hsrc : wfld v CLK_ROOT_CFG.REF_SRC = s.fld CLK_ROOT_CFG.REF_SRC)
    (href : wfld v CLK_ROOT_CFG.REFIN_10M = s.fld CLK_ROOT_CFG.REFIN_10M) : s.storeRootCfg v = s.store CLK_ROOT_CFG.addr v :=
  if_pos ⟨hsrc, href⟩

theorem State.storeRootCfg_of_ne {s : State} {v : Word} (hsrc : wfld v CLK_ROOT_CFG.REF_SRC ≠ s.fld CLK_ROOT_CFG.REF_SRC) :
    s.storeRootCfg v = (s.store CLK_ROOT_CFG.addr v).reselect := if_neg fun h => hsrc h.1

theorem State.storeRootCfg_regsBut (s : State) (v : Word) :
    RegsBut [CLK_ROOT_CFG.addr, CLK_STATUS.addr, CLK_SYNC_STATUS.addr, CLK_OCXO_TRIM.addr] s (s.storeRootCfg v) := fun a ha => by
  have hcfg : a ≠ CLK_ROOT_CFG.addr := fun h => ha (h ▸ List.mem_cons_self)
  simp only [State.storeRootCfg]
  split
  · exact s.store_reg_ne v hcfg
  · exact (State.reselect_reg_ne _ fun h => ha (List.mem_cons_of_mem _ h)).trans (s.store_reg_ne v hcfg)

/-- The move to the selected source leaves what the choice of a source reads (R59). -/
theorem State.reselect_choice (s : State) : s.reselect.srcWanted = s.srcWanted ∧ ∀ n, s.reselect.srcValid n = s.srcValid n :=
  ⟨State.srcWanted_congr (s.reselect_reg_ne (by decide)) (s.reselect_reg_ne (by decide)) fun _ hf => State.reselect_monitor hf,
    State.srcValid_congr fun _ hf => State.reselect_monitor hf⟩

/-! ## The root change keeps IDLE (R57) -/

/-- An ABORT of a show's acts leaves the mode. -/
theorem State.deliver_abort_frame (s : State) (sh t cue : Nat) {fd : Followed} (h : fd ≠ .dram) :
    (s.deliver 3 sh t cue).rd fd = s.rd fd :=
  State.each_keep (fun u => u.rd fd) (State.abortAct 0x0E) (fun n u => State.abortAct_frame 0x0E n u fd h) _ s

theorem State.disagree_frame_mode (s : State) (sh d : Nat) {fd : Followed} (h : fd ≠ .dram) :
    (s.disagree sh d).rd fd = s.rd fd := by
  simp only [State.disagree]
  split
  · rfl
  · split
    · rw [State.deliver_abort_frame _ _ _ _ h, State.whistleCalled_frame, State.event_frame _ _ _ _ _ _ _ _ h, State.setShow_frame]
    · rw [State.bench_frame _ _ _ _ h, State.event_frame _ _ _ _ _ _ _ _ h, State.setShow_frame]

theorem State.deviceLost_frame_mode (d : Nat) (s : State) {fd : Followed} (h : fd ≠ .dram) :
    (State.deviceLost d s).rd fd = s.rd fd := by
  have hall : (s.disagreeAll d).rd fd = s.rd fd := State.each_keep (fun u => u.rd fd) _ (fun sh u => by
    split
    · exact u.disagree_frame_mode sh d h
    · rfl) _ s
  rw [State.deviceLost, State.event_frame _ _ _ _ _ _ _ _ h, State.benchAll_frame _ _ _ _ h, State.setDev_frame, hall]

/-- A module that has lost its manager in service is in IDLE (R41). -/
theorem State.orphan_mode_of_inService {s : State} (h : s.inService = true) : s.orphan.mode = .idle := by
  have hin : ((s.put SYS_STATUS.ORPHANED 1).sysIrq 4).inService = true := by
    have hmode : ((s.put SYS_STATUS.ORPHANED 1).sysIrq 4).mode = s.mode := State.mode_of_frame (by simp)
    rw [State.inService, hmode]
    exact h
  simp only [State.orphan, if_pos hin]
  rw [State.rd_mode, State.syncAgain_frame, State.switchAll_frame, ← State.rd_mode, State.setMode_mode]

theorem State.inService_of_idle {s : State} (h : s.mode = .idle) : s.inService = true := by
  rw [State.inService, h]

theorem State.partnerLost_idle {s : State} (p : Nat) (h : s.mode = .idle) : (s.partnerLost p).mode = .idle := by
  have hidle : ∀ {u : State}, u.rd .mode = s.rd .mode → u.mode = .idle := fun hu => (State.mode_of_frame hu).trans h
  simp only [State.partnerLost]
  split
  · split
    · split
      · refine State.orphan_mode_of_inService (State.inService_of_idle (hidle ?_))
        split <;> simp
      · exact hidle (by simp)
    · split
      · split <;> exact hidle (by simp)
      · split
        · refine hidle ((State.each_keep (fun u => u.rd .mode) State.deviceLost
            (fun d u => State.deviceLost_frame_mode d u (by decide)) _ _).trans (by simp))
        · exact hidle (by simp)
  · exact h

theorem State.portRetrain_idle {s : State} (p : Nat) (h : s.mode = .idle) : (s.portRetrain p).mode = .idle := by
  have hstate : (((s.bump (LNK_STATUS.RETRAINS p)).setPortState p 3 0)).mode = .idle := (State.mode_of_frame (by simp)).trans h
  simp only [State.portRetrain, State.portLeaves]
  split
  · split
    · exact State.partnerLost_idle p hstate
    · exact hstate
  · exact h

theorem State.each_idle {f : Nat → State → State} (hf : ∀ p u, u.mode = .idle → (f p u).mode = .idle) :
    ∀ (l : List Nat) {s : State}, s.mode = .idle → (State.each f l s).mode = .idle
  | [], _, h => h
  | p :: l, _, h => State.each_idle hf l (hf p _ h)

theorem State.rootChange_idle {s : State} (h : s.mode = .idle) : s.rootChange.mode = .idle := by
  have hends : (s.passesDrop.tdcAbortAll.trigDisarmAll.streamsDisable).mode = .idle := (State.mode_of_frame (by simp)).trans h
  refine (State.put_mode _ _ _).trans (State.each_idle (fun p u hu => ?_) _ hends)
  split
  · exact State.portRetrain_idle p hu
  · split
    · exact (State.mode_of_frame (by simp)).trans hu
    · exact hu

theorem State.rootChange_busy (s : State) : s.rootChange.flag CLK_STATUS.ROOT_BUSY = true :=
  State.flag_put_one _ _ (by decide) (by decide)

/-! ## The retraining that follows -/

theorem exec_rootChanged_done {s : State} (h : s.flag CLK_STATUS.ROOT_BUSY = true) :
    exec (.rootChanged none) s = .next ((s.event 1 3).put CLK_STATUS.ROOT_BUSY 0) := by
  rw [exec_rootChanged, execRootChanged, if_pos h]

theorem exec_rootChanged_die (d : Die) {s : State} (h : s.flag CLK_STATUS.ROOT_BUSY = true) :
    exec (.rootChanged (some (.die d))) s = .next (s.fatal 0x0A d 0) := by
  rw [exec_rootChanged, execRootChanged, if_pos h]

/-- Settles O16: a write of CLK_ROOT_CFG moves the source, changes the root or is refused. -/
theorem rootWritesComplete : Obligations.RootWritesComplete := by
  unfold Obligations.RootWritesComplete
  refine ⟨fun v s ho hv hsame hlo hhi => ⟨s.storeRootCfg v, ?_, s.storeRootCfg_refSrc v, fun hsrc href => ?_,
      fun hsrc hlock hhold => ?_, steady_of_frame fun fd _ => s.storeRootCfg_frame v fd, s.storeRootCfg_regsBut v⟩,
    fun v s hm hv hne hlo hhi hx htr => ⟨(s.storeRootCfg v).rootChange, ?_, State.rootChange_busy _, ?_, ?_⟩,
    fun v s ho hm hv hne hlo hhi => ⟨s.put CLK_STATUS.ROOT_REFUSED 1, ?_, State.flag_put_one _ _ (by decide) (by decide),
      s.put_onlyRegs _ _⟩,
    fun s hb => ⟨_, exec_rootChanged_done hb, State.flag_put_zero _ _ (by decide), ?_,
      steady_of_frame fun fd hd => by simp [hd], ?_⟩,
    fun d s hb ho => ⟨_, exec_rootChanged_die d hb, State.fatal_mode _ _ _ ho, State.fatal_otp _ _ _ _⟩⟩
  · rw [exec_refSrcWrite, execRefSrcWrite, State.hostWrite_rootCfg ho hv hlo hhi, if_pos hsame]
  · rw [State.storeRootCfg_of_same hsrc href]
    exact s.store_onlyRegs _ _
  · obtain ⟨hwanted, hvalid⟩ := (s.store CLK_ROOT_CFG.addr v).reselect_choice
    rw [State.storeRootCfg_of_ne hsrc] at hlock hhold ⊢
    rw [State.reselect_active hlock hhold, hwanted, hvalid]
  · have ho : s.mode ≠ .off := by rw [hm]; decide
    rw [exec_rootChange, execRootChange, State.hostWrite_rootCfg ho hv hlo hhi, if_neg hne, if_pos ⟨hm, hx, htr⟩]
  · exact State.rootChange_idle ((State.mode_of_frame (s.storeRootCfg_frame v _)).trans hm)
  · exact still_of_frame fun fd hd hmode _ _ => (State.rootChange_frame _ fd hmode hd).trans (s.storeRootCfg_frame v fd)
  · rw [exec_rootChange, execRootChange, State.hostWrite_rootCfg ho hv hlo hhi, if_neg hne, if_neg fun h => hm h.1]
  · exact s.event_evtSeq _ _ _ _ _ _
  · exact fun a ha he => (State.reg_put_ne _ _ fun h => ha (List.mem_singleton.mpr h)).trans (State.event_reg _ _ _ _ _ _ he)

end Sys2Proof.Machine
end

section
/-! SUPPORT. What the entry to SAFE leaves of the clocks (O17): no sequence that ends service writes a register of CLK. One lemma
per operation; `simp` rewrites with it. -/

namespace Sys2Proof.Machine

/-- Whether a register is one of CLK (04). -/
def clkAddr (a : Nat) : Bool := decide (0x10000 ≤ a ∧ a < 0x20000)

@[simp] theorem clkAddr_add {a b : Nat} (h : 0x20000 ≤ a) : clkAddr (a + b) = false :=
  decide_eq_false (by omega)

@[simp] theorem clkAddr_of_le {a : Nat} (h : 0x20000 ≤ a) : clkAddr a = false :=
  decide_eq_false (by omega)

/-- The registers of CLK; 0 stands for every other. -/
def State.clk (s : State) (a : Nat) : Word := if clkAddr a then s.reg a else 0

theorem State.reg_of_clk {s t : State} (h : t.clk = s.clk) {a : Nat} (ha : clkAddr a = true) : t.reg a = s.reg a := by
  have hword := congrFun h a
  rwa [State.clk, State.clk, if_pos ha, if_pos ha] at hword

theorem State.clk_of {s t : State} (h : ∀ a, clkAddr a = true → t.reg a = s.reg a) : t.clk = s.clk := by
  funext a
  by_cases ha : clkAddr a = true
  · rw [State.clk, State.clk, if_pos ha, if_pos ha]
    exact h a ha
  · rw [State.clk, State.clk, if_neg ha, if_neg ha]

theorem State.clk_congr {s t : State} (h : t.regs = s.regs) : t.clk = s.clk :=
  State.clk_of fun a _ => State.reg_congr h a

theorem Spared.clk {s t : State} (h : Spared s t) : t.clk = s.clk :=
  State.clk_of fun _ ha => h.reg_eq (shelterAt_of_block (.inl (Nat.lt_trans (of_decide_eq_true ha).2 (by decide))))

@[simp] theorem ite_clk (c : Prop) [Decidable c] (s t : State) : (if c then s else t).clk = if c then s.clk else t.clk := by
  split <;> rfl

@[simp] theorem foldl_clk {α : Type} (f : State → α → State) (l : List α) (s : State)
    (h : ∀ s x, (f s x).clk = s.clk) : (l.foldl f s).clk = s.clk := by
  induction l generalizing s with
  | nil => rfl
  | cons x l ih => rw [List.foldl_cons, ih, h]

@[simp] theorem State.each_clk (f : Nat → State → State) (l : List Nat) (s : State)
    (h : ∀ n s, (f n s).clk = s.clk) : (State.each f l s).clk = s.clk :=
  State.each_keep State.clk f h l s

@[simp] theorem State.setReg_clk (s : State) {a : Nat} (w : Word) (h : clkAddr a = false) : (s.setReg a w).clk = s.clk := by
  refine State.clk_of fun b hb => State.reg_setReg_ne s w fun he => ?_
  rw [he, h] at hb
  cases hb

@[simp] theorem State.put_clk (s : State) {f : Field} (v : Nat) (h : clkAddr f.addr = false) : (s.put f v).clk = s.clk :=
  State.setReg_clk s _ h

@[simp] theorem State.putB_clk (s : State) {f : Field} (b : Bool) (h : clkAddr f.addr = false) : (s.putB f b).clk = s.clk :=
  State.put_clk s _ h

@[simp] theorem State.bump_clk (s : State) {f : Field} (h : clkAddr f.addr = false) : (s.bump f).clk = s.clk :=
  State.put_clk s _ h

@[simp] theorem State.setPair_clk (s : State) {lo : Nat} (v : Nat) (h : 0x20000 ≤ lo) : (s.setPair lo v).clk = s.clk := by
  rw [State.setPair, State.setReg_clk _ _ (clkAddr_add h), State.setReg_clk _ _ (clkAddr_of_le h)]

@[simp] theorem State.bdIrq_clk (s : State) (bit : Nat) : (s.bdIrq bit).clk = s.clk :=
  State.clk_congr (s.bdIrq_regs bit)

@[simp] theorem State.disturbRing_clk (g : Nat) (s : State) : (s.disturbRing g).clk = s.clk :=
  (Spared.disturbRing g s).clk

@[simp] theorem State.disturbQueues_clk (g : Nat) (s : State) : (s.disturbQueues g).clk = s.clk :=
  (Spared.disturbQueues g s).clk

@[simp] theorem State.withMode_clk (s : State) (v : Mode) : (s.withMode v).clk = s.clk :=
  State.clk_congr rfl

@[simp] theorem State.withEvtSeq_clk (s : State) (v : Word) : (s.withEvtSeq v).clk = s.clk :=
  State.clk_congr rfl

@[simp] theorem State.withEvtIrq_clk (s : State) (v : Option Nat) : (s.withEvtIrq v).clk = s.clk :=
  State.clk_congr rfl

@[simp] theorem State.withEvtDefer_clk (s : State) (v : Bool) : (s.withEvtDefer v).clk = s.clk :=
  State.clk_congr rfl

@[simp] theorem State.withMsix_clk (s : State) (v : Tab Nat) : (s.withMsix v).clk = s.clk :=
  State.clk_congr rfl

@[simp] theorem State.withDram_clk (s : State) (v : List Host.Cell) : (s.withDram v).clk = s.clk :=
  State.clk_congr rfl

@[simp] theorem State.withPersist_clk (s : State) (v : Persist) : (s.withPersist v).clk = s.clk :=
  State.clk_congr rfl

@[simp] theorem State.withNvm_clk (s : State) (v : Option NvmJob) : (s.withNvm v).clk = s.clk :=
  State.clk_congr rfl

@[simp] theorem State.withUnit_clk (s : State) (v : Option FlashUnit) : (s.withUnit v).clk = s.clk :=
  State.clk_congr rfl

@[simp] theorem State.withLogBuf_clk (s : State) (v : Nat) : (s.withLogBuf v).clk = s.clk :=
  State.clk_congr rfl

@[simp] theorem State.withLogTime_clk (s : State) (v : Nat) : (s.withLogTime v).clk = s.clk :=
  State.clk_congr rfl

@[simp] theorem State.withRq_clk (s : State) (v : RqSt) : (s.withRq v).clk = s.clk :=
  State.clk_congr rfl

@[simp] theorem State.withUnits_clk (s : State) (v : Tab TdcUnit) : (s.withUnits v).clk = s.clk :=
  State.clk_congr rfl

@[simp] theorem State.withStreams_clk (s : State) (v : Tab StreamSt) : (s.withStreams v).clk = s.clk :=
  State.clk_congr rfl

@[simp] theorem State.withCal_clk (s : State) (v : CalSt) : (s.withCal v).clk = s.clk :=
  State.clk_congr rfl

@[simp] theorem State.withWhistles_clk (s : State) (v : WhistleSt) : (s.withWhistles v).clk = s.clk :=
  State.clk_congr rfl

@[simp] theorem State.withEp_clk (s : State) (v : Option (Nat × Nat)) : (s.withEp v).clk = s.clk :=
  State.clk_congr rfl

@[simp] theorem State.withBlanks_clk (s : State) (v : Tab Nat) : (s.withBlanks v).clk = s.clk :=
  State.clk_congr rfl

@[simp] theorem State.setAct_clk (s : State) (n : Nat) (x : ActSt) : (s.setAct n x).clk = s.clk :=
  State.clk_congr rfl

@[simp] theorem State.setDie_clk (s : State) (n : Nat) (x : DieSt) : (s.setDie n x).clk = s.clk :=
  State.clk_congr rfl

@[simp] theorem State.setChan_clk (s : State) (n : Nat) (x : ChanSt) : (s.setChan n x).clk = s.clk :=
  State.clk_congr rfl

@[simp] theorem State.setRing_clk (s : State) (n : Nat) (x : RingSt) : (s.setRing n x).clk = s.clk :=
  State.clk_congr rfl

@[simp] theorem State.setPort_clk (s : State) (n : Nat) (x : PortSt) : (s.setPort n x).clk = s.clk :=
  State.clk_congr rfl

@[simp] theorem State.setQueue_clk (s : State) (n : Nat) (x : QueueSt) : (s.setQueue n x).clk = s.clk :=
  State.clk_congr rfl

@[simp] theorem State.setTdc_clk (s : State) (n : Nat) (x : TdcSt) : (s.setTdc n x).clk = s.clk :=
  State.clk_congr rfl

@[simp] theorem State.setMu_clk (s : State) (n : Nat) (x : TdcUnit) : (s.setMu n x).clk = s.clk :=
  State.clk_congr rfl

@[simp] theorem State.setTrig_clk (s : State) (n : Nat) (x : TrigSt) : (s.setTrig n x).clk = s.clk :=
  State.clk_congr rfl

@[simp] theorem State.setStream_clk (s : State) (n : Nat) (x : StreamSt) : (s.setStream n x).clk = s.clk :=
  State.clk_congr rfl

@[simp] theorem State.takeFree_clk (s : State) : (State.takeFree s).clk = s.clk :=
  State.clk_congr rfl

@[simp] theorem State.dramPut_clk (s : State) (a : Nat) (bs : List Byte) : (State.dramPut s a bs).clk = s.clk :=
  State.clk_congr rfl

@[simp] theorem State.poolPut_clk (s : State) (a : Nat) (bs : List Byte) : (State.poolPut s a bs).clk = s.clk :=
  State.clk_congr rfl

@[simp] theorem State.mboxPut_clk (s : State) (a : Nat) (bs : List Byte) : (State.mboxPut s a bs).clk = s.clk :=
  State.clk_congr rfl

@[simp] theorem State.hostPut_clk (s : State) (a : Nat) (bs : List Byte) : (State.hostPut s a bs).clk = s.clk :=
  State.clk_congr rfl

@[simp] theorem State.hostPutEp_clk (s : State) (a : Nat) (bs : List Byte) (bad : Bool) :
    (State.hostPutEp s a bs bad).clk = s.clk := by
  simp [State.hostPutEp]

@[simp] theorem State.raiseVec_clk (s : State) (v : Nat) : (State.raiseVec s v).clk = s.clk := by
  simp [State.raiseVec, MSIX_PBA.PENDING, MSIX_PBA.addr]

@[simp] theorem State.sysIrq_clk (s : State) (bit : Nat) : (s.sysIrq bit).clk = s.clk := by
  have hput : (s.put ⟨SYS_IRQ_STATUS.addr, bit, 1⟩ 1).clk = s.clk := State.put_clk s 1 rfl
  simp [State.sysIrq, hput]

@[simp] theorem State.sendFrame_clk (s : State) (p : Nat) (f : Frame) : (State.sendFrame s p f).clk = s.clk := by
  simp [State.sendFrame]

@[simp] theorem State.journalIrq_clk (s : State) : (State.journalIrq s).clk = s.clk := by
  simp only [State.journalIrq]
  (repeat' split) <;> simp

@[simp] theorem State.journalDram_clk (s : State) (w : Nat) (r : EvtRec) : (State.journalDram s w r).clk = s.clk := by
  simp only [State.journalDram]
  (repeat' split) <;> simp

@[simp] theorem State.journal_clk (s : State) (r : EvtRec) : (State.journal s r).clk = s.clk := by
  simp [State.journal, EVT_LOST.COUNT, EVT_LOST.addr, EVT_WR.COUNT, EVT_WR.addr]

@[simp] theorem State.persistEvt_clk (s : State) (r : EvtRec) : (State.persistEvt s r).clk = s.clk := by
  simp [State.persistEvt]

@[simp] theorem State.eventAt_clk (s : State) (t src code p4 p5 p6 p7 : Nat) :
    (State.eventAt s t src code p4 p5 p6 p7).clk = s.clk := by
  simp [State.eventAt]

@[simp] theorem State.event_clk (s : State) (src code p4 p5 p6 p7 : Nat) :
    (State.event s src code p4 p5 p6 p7).clk = s.clk := by
  simp [State.event]

@[simp] theorem State.setMode_clk (s : State) (m : Mode) : (State.setMode s m).clk = s.clk := by
  simp [State.setMode]

@[simp] theorem State.eccUe_clk (s : State) (id addr : Nat) : (State.eccUe s id addr).clk = s.clk := by
  simp [State.eccUe, MEM_ECC_STATUS.UE_CNT, MEM_ECC_STATUS.UE_DRAM, MEM_ECC_STATUS.UE_SRAM, MEM_ECC_STATUS.addr]

@[simp] theorem State.finish_clk (s : State) (q id status result : Nat) :
    (State.finish s q id status result).clk = s.clk := by
  simp only [State.finish]
  (repeat' split) <;> simp

@[simp] theorem State.abortCmds_clk (s : State) (sel : HostCmd → Bool) : (State.abortCmds s sel).clk = s.clk := by
  simp [State.abortCmds]

@[simp] theorem State.abortStarts_clk (s : State) (n : Nat) : (State.abortStarts s n).clk = s.clk := by
  simp [State.abortStarts]

@[simp] theorem State.tdcSwitched_clk (s : State) (c : Nat) : (State.tdcSwitched s c).clk = s.clk := by
  rw [State.tdcSwitched, State.withUnits_clk, State.setTdc_clk, State.setTdc_clk]

@[simp] theorem State.switchBank_clk (c : Nat) (s : State) : (State.switchBank c s).clk = s.clk := by
  simp only [State.switchBank]
  (repeat' split) <;> simp [CAL_STATUS.PENDING, CAL_STATUS.addr, Nat.le_add_right_of_le, PIN_QUALITY_AGE_LO.addr,
    PIN_QUALITY_STAT.ELIGIBLE, PIN_QUALITY_STAT.addr, PIN_TDC_CFG.BT_CAL_H, PIN_TDC_CFG.BT_CAL_L, PIN_TDC_CFG.addr]

@[simp] theorem State.switchBanks_clk (s : State) (cs : List Nat) : (State.switchBanks s cs).clk = s.clk := by
  simp [State.switchBanks]

@[simp] theorem State.switchAll_clk (s : State) : (State.switchAll s).clk = s.clk := by
  simp [State.switchAll]

@[simp] theorem State.showEnd_clk (s : State) (sh : Nat) : (State.showEnd s sh).clk = s.clk := by
  simp [State.showEnd, LNK_SHOW_CFG.RUNNING, LNK_SHOW_CFG.addr]

@[simp] theorem State.showEnds_clk (s : State) (n : Nat) : (State.showEnds s n).clk = s.clk := by
  simp [State.showEnds]

@[simp] theorem State.cutPpmu_clk (c : Nat) (s : State) : (State.cutPpmu c s).clk = s.clk := by
  simp only [State.cutPpmu]
  (repeat' split) <;> simp [PIN_PPMU_CFG.CONNECT, PIN_PPMU_CFG.addr]

@[simp] theorem State.cutPpmus_clk (s : State) : (State.cutPpmus s).clk = s.clk := by
  simp [State.cutPpmus]

@[simp] theorem State.dropPpmu_clk (c : Nat) (s : State) : (State.dropPpmu c s).clk = s.clk := by
  simp only [State.dropPpmu]
  (repeat' split) <;> simp [PIN_PPMU_CFG.CONNECT, PIN_PPMU_CFG.addr, PIN_PPMU_MEAS.PARKED, PIN_PPMU_MEAS.addr]

@[simp] theorem State.parkPpmus_clk (s : State) (cs : List Nat) : (State.parkPpmus s cs).clk = s.clk := by
  simp [State.parkPpmus]

@[simp] theorem State.seqEvent_clk (s : State) (n code p4 p5 p6 p7 : Nat) :
    (State.seqEvent s n code p4 p5 p6 p7).clk = s.clk := by
  simp [State.seqEvent]

@[simp] theorem State.showReport_clk (s : State) (n : Nat) : (State.showReport s n).clk = s.clk := by
  simp [State.showReport]

@[simp] theorem State.setActState_clk (s : State) (n st : Nat) : (State.setActState s n st).clk = s.clk := by
  simp [State.setActState, SEQ_STATUS.STATE, SEQ_STATUS.addr]

@[simp] theorem State.missStart_clk (s : State) (n : Nat) : (State.missStart s n).clk = s.clk := by
  simp [State.missStart, SEQ_MISSED_START.COUNT, SEQ_MISSED_START.addr, SEQ_STATUS.START_RESULT, SEQ_STATUS.addr]

@[simp] theorem State.dropQueued_clk (s : State) (n : Nat) : (State.dropQueued s n).clk = s.clk := by
  simp only [State.dropQueued]
  (repeat' split) <;> simp [SEQ_STATUS.QUEUED, SEQ_STATUS.addr]

@[simp] theorem State.holdHyst_clk (c : Nat) (s : State) : (State.holdHyst c s).clk = s.clk :=
  State.clk_congr rfl

@[simp] theorem State.acceptStart_clk (s : State) (n : Nat) (r : StartReq) : (State.acceptStart s n r).clk = s.clk := by
  simp [State.acceptStart, SEQ_STATUS.EXEC_HALF, SEQ_STATUS.START_RESULT, SEQ_STATUS.addr]

@[simp] theorem State.markLate_clk (s : State) (n : Nat) : (State.markLate s n).clk = s.clk := by
  simp [State.markLate, SEQ_STATUS.START_RESULT, SEQ_STATUS.addr]

@[simp] theorem State.acceptQueued_clk (s : State) (n : Nat) : (State.acceptQueued s n).clk = s.clk := by
  simp only [State.acceptQueued]
  (repeat' split) <;> simp [SEQ_STATUS.QUEUED, SEQ_STATUS.addr]

@[simp] theorem State.tilePush_clk (s : State) (g : Nat) (final : Bool) : (State.tilePush s g final).clk = s.clk := by
  simp [State.tilePush, FAIL_TILE_STATUS.PUSHING, FAIL_TILE_STATUS.STREAM_OFF, FAIL_TILE_STATUS.addr]

@[simp] theorem State.finalPushes_clk (s : State) (n : Nat) : (State.finalPushes s n).clk = s.clk := by
  simp [State.finalPushes]

@[simp] theorem State.neverRan_clk (s : State) (n : Nat) : (State.neverRan s n).clk = s.clk := by
  simp [State.neverRan]

@[simp] theorem State.stopEarly_clk (s : State) (n reason : Nat) : (State.stopEarly s n reason).clk = s.clk := by
  simp [State.stopEarly, Nat.le_add_right_of_le, SEQ_CYCLE_LO.addr, SEQ_PC.ADDR, SEQ_PC.HALF, SEQ_PC.addr,
    SEQ_STATUS.STOP_REASON, SEQ_STATUS.addr]

@[simp] theorem State.fixStop_clk (s : State) (n cnt reason : Nat) : (State.fixStop s n cnt reason).clk = s.clk := by
  simp only [State.fixStop]
  (repeat' split) <;> simp [SEQ_STATUS.STOP_REASON, SEQ_STATUS.addr]

@[simp] theorem State.gracefulStop_clk (reason n : Nat) (s : State) : (State.gracefulStop reason n s).clk = s.clk := by
  simp [State.gracefulStop]

@[simp] theorem State.failStop_clk (n F reason : Nat) (s : State) : (State.failStop n F reason s).clk = s.clk := by
  simp [State.failStop, SEQ_STATUS.RUNOUT_LATE, SEQ_STATUS.addr]

@[simp] theorem State.abortAct_clk (reason n : Nat) (s : State) : (State.abortAct reason n s).clk = s.clk := by
  simp only [State.abortAct]
  (repeat' split) <;> simp [SEQ_PC.ADDR, SEQ_PC.HALF, SEQ_PC.addr, SEQ_STATUS.STOP_REASON, SEQ_STATUS.addr]

@[simp] theorem State.release_clk (s : State) (n : Nat) (t : Option Nat) : (State.release s n t).clk = s.clk := by
  simp [State.release]

@[simp] theorem State.startAct_clk (r : StartReq) (n : Nat) (s : State) : (State.startAct r n s).clk = s.clk := by
  simp [State.startAct, SEQ_STATUS.QUEUED, SEQ_STATUS.START_RESULT, SEQ_STATUS.addr]

@[simp] theorem State.blankStart_clk (m t : Nat) (s : State) : (State.blankStart m t s).clk = s.clk := by
  simp only [State.blankStart]
  (repeat' split) <;> simp [MON_SENSE_BLANK.BLANKING, MON_SENSE_BLANK.addr]

@[simp] theorem State.srefChanged_clk (s : State) (m : Nat) : (State.srefChanged s m).clk = s.clk := by
  simp [State.srefChanged]

@[simp] theorem State.srefClear_clk (source m : Nat) (s : State) : (State.srefClear source m s).clk = s.clk := by
  simp only [State.srefClear]
  (repeat' split) <;> simp [MON_SREF_CODE.CODE, MON_SREF_CODE.addr, MON_SREF_STATUS.CLEARED, MON_SREF_STATUS.SOURCE,
    MON_SREF_STATUS.addr]

@[simp] theorem State.srefClearAll_clk (s : State) : (State.srefClearAll s).clk = s.clk := by
  simp [State.srefClearAll]

@[simp] theorem State.whistleOn_clk (s : State) (w : Whistle) (ps : List Nat) :
    (State.whistleOn s w ps).clk = s.clk := by
  simp [State.whistleOn]

@[simp] theorem State.whistleSend_clk (s : State) (w : Whistle) : (State.whistleSend s w).clk = s.clk := by
  simp [State.whistleSend, LNK_WHISTLE_CFG.LAST_WN, LNK_WHISTLE_CFG.addr]

@[simp] theorem State.whistleCalled_clk (s : State) (w : Whistle) : (State.whistleCalled s w).clk = s.clk := by
  simp [State.whistleCalled]

@[simp] theorem State.keepCue_clk (cue t n : Nat) (s : State) : (State.keepCue cue t n s).clk = s.clk := by
  simp [State.keepCue]

@[simp] theorem State.whistleStart_clk (sh t n : Nat) (s : State) : (State.whistleStart sh t n s).clk = s.clk := by
  simp [State.whistleStart]

@[simp] theorem State.deliverTo_clk (s : State) (kind sh t cue : Nat) (ns : List Nat) :
    (State.deliverTo s kind sh t cue ns).clk = s.clk := by
  simp only [State.deliverTo]
  (repeat' split) <;> simp

@[simp] theorem State.countPin_clk (s : State) (c : Nat) : (State.countPin s c).clk = s.clk := by
  simp [State.countPin, Nat.le_add_right_of_le, PIN_FAILCNT_LO.addr]

@[simp] theorem State.firstFail_clk (s : State) (g : Nat) (v : Vec) (fs : List FailCmp) :
    (State.firstFail s g v fs).clk = s.clk := by
  simp only [State.firstFail]
  (repeat' split) <;> simp [FAIL_FIRST_ADDR_LO.addr, FAIL_FIRST_CYCLE_LO.addr, FAIL_FIRST_PIN.addr,
    FAIL_FIRST_TIME_LO.addr, FAIL_STATUS.FIRST_VALID, FAIL_STATUS.addr, Nat.le_add_right_of_le]

@[simp] theorem State.benchByFail_clk (s : State) (n g F : Nat) : (State.benchByFail s n g F).clk = s.clk := by
  simp [State.benchByFail, FAIL_STATUS.BENCHED, FAIL_STATUS.addr]

@[simp] theorem State.ringWhistle_clk (s : State) (n g F kind : Nat) (stops : Bool) :
    (State.ringWhistle s n g F kind stops).clk = s.clk := by
  simp only [State.ringWhistle]
  (repeat' split) <;> simp

@[simp] theorem State.ringAction_clk (s : State) (n g F : Nat) : (State.ringAction s n g F).1.clk = s.clk := by
  simp [State.ringAction, FAIL_STATUS.ACTION, FAIL_STATUS.addr]

@[simp] theorem State.drainLog_clk (s : State) (t : Nat) : (State.drainLog s t).clk = s.clk := by
  simp [State.drainLog]

@[simp] theorem State.logWrite_clk (s : State) (g : Nat) (v : Vec) (fs : List FailCmp) (idx : Nat)
    (msk : List Byte) (first acted unmapped : Bool) :
    (State.logWrite s g v fs idx msk first acted unmapped).clk = s.clk := by
  simp [State.logWrite, FAIL_LOG_WR.INDEX, FAIL_LOG_WR.WRAPPED, FAIL_LOG_WR.addr]

@[simp] theorem State.logDrop_clk (s : State) (g : Nat) : (State.logDrop s g).clk = s.clk := by
  simp [State.logDrop, FAIL_LOG_DROP.RATE, FAIL_LOG_DROP.addr, FAIL_STATUS.LOG_GAP, FAIL_STATUS.addr]

@[simp] theorem State.logFail_clk (s : State) (g : Nat) (v : Vec) (fs : List FailCmp) (first acted unmapped : Bool) :
    (State.logFail s g v fs first acted unmapped).clk = s.clk := by
  simp only [State.logFail]
  (repeat' split) <;> simp [FAIL_LOG_DROP.FULL, FAIL_LOG_DROP.addr, FAIL_LOG_WR.WRAPPED, FAIL_LOG_WR.addr,
    FAIL_STATUS.LOG_FULL, FAIL_STATUS.addr]

@[simp] theorem State.setDramBit_clk (s : State) (a i : Nat) (b : Bool) : (State.setDramBit s a i b).clk = s.clk :=
  State.clk_congr rfl

@[simp] theorem State.setCell_clk (s : State) (g idx : Nat) : (State.setCell s g idx).clk = s.clk := by
  simp [State.setCell, FAIL_TILE_STATUS.DIRTY, FAIL_TILE_STATUS.addr]

@[simp] theorem State.mapFails_clk (s : State) (n g : Nat) (v : Vec) (fs : List FailCmp) :
    (s.mapFails n g v fs).clk = s.clk :=
  foldl_clk _ _ _ fun s f => by cases s.cellOf n g v f <;> simp

@[simp] theorem State.backlogLevel_clk (s : State) : (State.backlogLevel s).clk = s.clk := by
  simp only [State.backlogLevel]
  (repeat' split) <;> simp [RQ_STATUS.BACKLOG, RQ_STATUS.addr]

@[simp] theorem State.spillBytes_clk (s : State) : (State.spillBytes s).clk = s.clk :=
  State.clk_congr rfl

@[simp] theorem State.spillGo_clk (x1 : Nat) (x2 : State) : (State.spillGo x1 x2).clk = x2.clk := by
  fun_induction State.spillGo x1 x2 <;> simp_all +zetaDelta

@[simp] theorem State.spillTo_clk (s : State) (t : Nat) : (State.spillTo s t).clk = s.clk := by
  simp [State.spillTo]

@[simp] theorem State.losePush_clk (s : State) (n : Nat) (p : Push) : (State.losePush s n p).clk = s.clk := by
  simp only [State.losePush]
  (repeat' split) <;> simp [RQ_RING_LOST.COUNT, RQ_RING_LOST.addr, RQ_RING_STATUS.LOST, RQ_RING_STATUS.addr]

@[simp] theorem State.enterPush_clk (s : State) (n : Nat) (p : Push) : (State.enterPush s n p).clk = s.clk := by
  simp [State.enterPush, RQ_RING_PUSH.COUNT, RQ_RING_PUSH.addr]

@[simp] theorem State.rqPush_clk (s : State) (n g : Nat) (v : Vec) (fs : List FailCmp) :
    (State.rqPush s n g v fs).clk = s.clk := by
  simp [State.rqPush]

@[simp] theorem State.roundTo_clk (s : State) (num : Int) (den : Nat) : (State.roundTo s num den).2.clk = s.clk := by
  simp [State.roundTo]

@[simp] theorem State.tdcBegin_clk (s : State) (c : Nat) : (State.tdcBegin s c).clk = s.clk :=
  State.clk_congr rfl

@[simp] theorem State.tdcAbort_clk (c : Nat) (s : State) : (State.tdcAbort c s).clk = s.clk := by
  simp [State.tdcAbort, PIN_TDC_STATUS.ABORTED, PIN_TDC_STATUS.BUSY, PIN_TDC_STATUS.DONE, PIN_TDC_STATUS.STALE,
    PIN_TDC_STATUS.START_VALID, PIN_TDC_STATUS.STOP_VALID, PIN_TDC_STATUS.addr]

@[simp] theorem State.tdcAbortAll_clk (s : State) : (State.tdcAbortAll s).clk = s.clk := by
  simp [State.tdcAbortAll]

@[simp] theorem State.tdcTake_clk (s : State) : s.tdcTake.clk = s.clk :=
  State.each_clk _ _ _ fun c s => by simp [PIN_TDC_STATUS.STALE, PIN_TDC_STATUS.addr]

@[simp] theorem State.tdcRelease_clk (s : State) : s.tdcRelease.clk = s.clk :=
  State.each_clk _ _ _ fun c s => by simp [PIN_TDC_STATUS.STALE, PIN_TDC_STATUS.addr]

@[simp] theorem State.streamFill_clk (s : State) (i : Nat) : (State.streamFill s i).clk = s.clk := by
  simp [State.streamFill, ACQ_STREAM_FILL.VALUE, ACQ_STREAM_FILL.addr, ACQ_STREAM_STATUS.GAP_OPEN,
    ACQ_STREAM_STATUS.addr]

@[simp] theorem State.loseRec_clk (s : State) (i : Nat) (r : StreamRec) (cause : Nat) :
    (State.loseRec s i r cause).clk = s.clk := by
  simp [State.loseRec, ACQ_STREAM_LOST_LO.addr, Nat.le_add_right_of_le]

@[simp] theorem State.complete_clk (s : State) (i : Nat) (r : StreamRec) : (State.complete s i r).clk = s.clk := by
  simp [State.complete]

@[simp] theorem State.armWindow_clk (s : State) (i a src : Nat) : (State.armWindow s i a src).clk = s.clk := by
  simp [State.armWindow, ACQ_STREAM_STATUS.OVERLAP, ACQ_STREAM_STATUS.addr]

@[simp] theorem State.trigMarks_clk (s : State) (k t flags act chan cycle : Nat) :
    (State.trigMarks s k t flags act chan cycle).clk = s.clk := by
  simp [State.trigMarks]

@[simp] theorem State.streamsTake_clk (s : State) (c : Nat) : (State.streamsTake s c).clk = s.clk :=
  State.clk_congr rfl

@[simp] theorem State.streamsRelease_clk (s : State) (c : Nat) : (State.streamsRelease s c).clk = s.clk :=
  State.clk_congr rfl

@[simp] theorem State.streamsEnd_clk (s : State) : s.streamsEnd.clk = s.clk := by
  rw [State.streamsEnd, State.withStreams_clk]
  exact State.each_clk _ _ _ fun i s => by
    simp [ACQ_STREAM_CTRL.EN, ACQ_STREAM_CTRL.addr, ACQ_STREAM_FILL.VALUE, ACQ_STREAM_FILL.addr,
      ACQ_STREAM_STATUS.GAP_OPEN, ACQ_STREAM_STATUS.HOST_FULL, ACQ_STREAM_STATUS.addr]

@[simp] theorem State.trigReset_clk (s : State) (k : Nat) : (State.trigReset s k).clk = s.clk := by
  simp [State.trigReset, ACQ_TRIG_STATUS.COUNT, ACQ_TRIG_STATUS.STAGE, ACQ_TRIG_STATUS.addr]

@[simp] theorem State.trigDisarm_clk (k : Nat) (s : State) : (State.trigDisarm k s).clk = s.clk := by
  simp [State.trigDisarm, ACQ_TRIG_STATUS.ARMED, ACQ_TRIG_STATUS.addr]

@[simp] theorem State.trigDisarmAll_clk (s : State) : (State.trigDisarmAll s).clk = s.clk := by
  simp [State.trigDisarmAll]

@[simp] theorem State.trigTime_clk (s : State) (k c : Nat) (rise : Bool) (tL tH : Option Int) (sample : Int) :
    (State.trigTime s k c rise tL tH sample).2.2.clk = s.clk := by
  simp only [State.trigTime]
  (repeat' split) <;> simp

@[simp] theorem State.trigFire_clk (s : State) (k j n : Nat) (xs : List (Prod Nat Nat)) (t : Int) (cyc : Nat) :
    (State.trigFire s k j n xs t cyc).clk = s.clk := by
  simp only [State.trigFire]
  (repeat' split) <;> simp [ACQ_TRIG_FIRES.VALUE, ACQ_TRIG_FIRES.addr, ACQ_TRIG_STATUS.ARMED, ACQ_TRIG_STATUS.FIRED,
    ACQ_TRIG_STATUS.addr, ACQ_TRIG_TIME_LO.addr, Nat.le_add_right_of_le]

@[simp] theorem State.stageLimit_clk (s : State) (k : Nat) (t : Int) : (State.stageLimit s k t).clk = s.clk := by
  simp [State.stageLimit, ACQ_TRIG_TIMEOUTS.VALUE, ACQ_TRIG_TIMEOUTS.addr]

@[simp] theorem State.trigSample_clk (s : State) (k n : Nat) (xs : List (Prod Nat Nat)) (ts : List (Prod Nat Int))
    (cyc : Nat) :
    (State.trigSample s k n xs ts cyc).clk = s.clk := by
  simp only [State.trigSample]
  (repeat' split) <;> simp [ACQ_TRIG_STATUS.COUNT, ACQ_TRIG_STATUS.STAGE, ACQ_TRIG_STATUS.addr]

@[simp] theorem State.trigVector_clk (s : State) (n : Nat) (f : Flight) : (State.trigVector s n f).clk = s.clk := by
  simp [State.trigVector]

@[simp] theorem State.dropBursts_clk (s : State) (st ui : Nat) : (State.dropBursts s st ui).clk = s.clk := by
  simp [State.dropBursts]

@[simp] theorem State.ask_clk (s : State) (d t what : Nat) : (State.ask s d t what).clk = s.clk :=
  State.clk_congr rfl

@[simp] theorem State.tdcSync_clk (s : State) (c : Nat) (was : Bool) : (State.tdcSync s c was).clk = s.clk := by
  simp [State.tdcSync]

@[simp] theorem State.setPass_clk (s : State) (d : Nat) (p : PassSt) : (State.setPass s d p).clk = s.clk := by
  simp [State.setPass]

@[simp] theorem State.passLend_clk (s : State) (d : Nat) (lent : Bool) : (State.passLend s d lent).clk = s.clk := by
  simp only [State.passLend]
  (repeat' split) <;> simp

@[simp] theorem State.passIdle_clk (d : Nat) (s : State) : (State.passIdle d s).clk = s.clk := by
  simp only [State.passIdle]
  (repeat' split) <;> simp

@[simp] theorem State.passOver_clk (s : State) (d c : Nat) : (State.passOver s d c).clk = s.clk := by
  simp [State.passOver, CAL_STATUS.LIVE_BUSY, CAL_STATUS.addr, PIN_PPMU_MEAS.STALE, PIN_PPMU_MEAS.addr,
    PIN_STATUS.STALE, PIN_STATUS.addr]

@[simp] theorem State.passDrop_clk (d : Nat) (s : State) : (State.passDrop d s).clk = s.clk := by
  simp only [State.passDrop]
  (repeat' split) <;> simp

@[simp] theorem State.passesDrop_clk (s : State) : (State.passesDrop s).clk = s.clk := by
  simp [State.passesDrop]

@[simp] theorem State.fullAbort_clk (s : State) : (State.fullAbort s).clk = s.clk := by
  simp only [State.fullAbort]
  (repeat' split) <;> simp [CAL_STATUS.FULL_BUSY, CAL_STATUS.FULL_RESULT, CAL_STATUS.addr]

@[simp] theorem State.stagedDrop_clk (s : State) : s.stagedDrop.clk = s.clk := by
  rw [State.stagedDrop, State.withCal_clk, State.put_clk _ _ (by simp [CAL_STATUS.PENDING, CAL_STATUS.addr])]
  exact State.each_clk _ _ _ fun c s => by
    split <;> simp [PIN_QUALITY_STAT.ELIGIBLE, PIN_QUALITY_STAT.addr]

@[simp] theorem State.calEnd_clk (s : State) : (State.calEnd s).clk = s.clk := by
  simp [State.calEnd]

@[simp] theorem State.setPin_clk (s : State) (d cyc : Nat) (f : PinVec → PinVec) :
    (State.setPin s d cyc f).clk = s.clk :=
  State.clk_congr rfl

@[simp] theorem State.joinResults_clk (s : State) (n d : Nat) (p : PinVec) (due res : List (Prod Nat Nat))
    (whole : Bool) :
    (State.joinResults s n d p due res whole).clk = s.clk :=
  State.clk_congr rfl

@[simp] theorem State.setWord_clk (s : State) (g i : Nat) : (State.setWord s g i).clk = s.clk := by
  simp [State.setWord]

@[simp] theorem State.mapEcc_clk (s : State) (n g : Nat) (v : Vec) (fs : List FailCmp) (ue : Bool) :
    (State.mapEcc s n g v fs ue).1.clk = s.clk := by
  simp only [State.mapEcc]
  (repeat' split) <;> simp

@[simp] theorem State.countRing_clk (s : State) (n g : Nat) (fs : List FailCmp) :
    (State.countRing s n g fs).clk = s.clk := by
  simp [State.countRing, FAIL_COUNT_LO.addr, Nat.le_add_right_of_le]

@[simp] theorem State.markRing_clk (s : State) (g : Nat) (fs : List FailCmp) (unm : Bool) :
    (State.markRing s g fs unm).clk = s.clk := by
  simp [State.markRing, FAIL_STATUS.LINK_ERR, FAIL_STATUS.MISSING, FAIL_STATUS.UNMAPPED, FAIL_STATUS.addr]

@[simp] theorem State.recordFails_clk (s : State) (n g : Nat) (v : Vec) (fs : List FailCmp) (ue : Bool) :
    (State.recordFails s n g v fs ue).1.clk = s.clk := by
  simp [State.recordFails]

@[simp] theorem State.recordRing_clk (s : State) (n g : Nat) (v : Vec) (fs : List FailCmp) (ue : Bool) :
    (State.recordRing s n g v fs ue).1.clk = s.clk := by
  simp [State.recordRing]

@[simp] theorem State.trialResult_clk (s : State) (n i : Nat) (f : Flight) :
    (State.trialResult s n i f).clk = s.clk := by
  simp only [State.trialResult]
  (repeat' split) <;> simp

@[simp] theorem State.recordRings_clk (n : Nat) (v : Vec) (fs : List FailCmp) (x1 : List Nat) (x2 : Prod State Bool) :
    (State.recordRings n v fs x1 x2).1.clk = x2.1.clk := by
  fun_induction State.recordRings n v fs x1 x2 <;> simp_all +zetaDelta

@[simp] theorem State.processVec_clk (s : State) (n : Nat) (f : Flight) (ue : Bool) :
    (State.processVec s n f ue).1.clk = s.clk := by
  simp only [State.processVec]
  (repeat' split) <;> simp

@[simp] theorem State.processLine_clk (n x1 : Nat) (x2 : Prod State Bool) :
    (State.processLine n x1 x2).1.clk = x2.1.clk := by
  fun_induction State.processLine n x1 x2 <;> simp_all +zetaDelta

@[simp] theorem State.returnResults_clk (s : State) (n d : Nat) (p : PinVec) (sel : Nat → Bool) (ok ue : Bool) :
    (State.returnResults s n d p sel ok ue).1.clk = s.clk := by
  simp [State.returnResults]

@[simp] theorem State.flushPushes_clk (s : State) : (State.flushPushes s).clk = s.clk := by
  simp [State.flushPushes]

@[simp] theorem State.leaveRun_clk (s : State) : (State.leaveRun s).clk = s.clk := by
  simp [State.leaveRun]

@[simp] theorem State.actCleared_clk (s : State) (n : Nat) : (State.actCleared s n).clk = s.clk :=
  State.clk_congr rfl

@[simp] theorem State.stopReport_clk (s : State) (n t c reason : Nat) :
    (State.stopReport s n t c reason).clk = s.clk := by
  simp [State.stopReport]

@[simp] theorem State.flushEvts_clk (d : Nat) (s : State) : (State.flushEvts d s).clk = s.clk := by
  simp [State.flushEvts]

@[simp] theorem State.actStop_clk (s : State) (n t c reason : Nat) : (State.actStop s n t c reason).clk = s.clk := by
  simp [State.actStop]

@[simp] theorem State.drainDie_clk (n d : Nat) (s : State) : (State.drainDie n d s).clk = s.clk := by
  simp [State.drainDie]

@[simp] theorem State.drainLine_clk (n x1 : Nat) (x2 : State) : (State.drainLine n x1 x2).clk = x2.clk := by
  fun_induction State.drainLine n x1 x2 <;> simp_all +zetaDelta

@[simp] theorem State.stopNow_clk (reason n : Nat) (s : State) : (State.stopNow reason n s).clk = s.clk := by
  simp only [State.stopNow]
  (repeat' split) <;> simp

@[simp] theorem State.stopAll_clk (s : State) (reason : Nat) : (State.stopAll s reason).clk = s.clk := by
  simp [State.stopAll]

@[simp] theorem State.tear_clk (s : State) (a : Nat) (bs : List Byte) : (State.tear s a bs).clk = s.clk :=
  State.clk_congr rfl

@[simp] theorem State.setSlot_clk (s : State) (k reason : Nat) : (State.setSlot s k reason).clk = s.clk := by
  simp [State.setSlot, NVM_SLOT.REASON_A, NVM_SLOT.REASON_B, NVM_SLOT.VALID_A, NVM_SLOT.VALID_B, NVM_SLOT.addr]

@[simp] theorem State.freeBytes_clk (x1 : Nat) (x2 : State) : (State.freeBytes x1 x2).2.clk = x2.clk := by
  fun_induction State.freeBytes x1 x2 <;> simp_all +zetaDelta

@[simp] theorem State.persistPage_clk (s : State) (evts : List EvtRec) : (State.persistPage s evts).2.clk = s.clk := by
  simp [State.persistPage]

@[simp] theorem State.startPersist_clk (s : State) : (State.startPersist s).clk = s.clk := by
  simp [State.startPersist]

@[simp] theorem State.nvmFlags_clk (s : State) : (State.nvmFlags s).clk = s.clk := by
  simp [State.nvmFlags, NVM_STATUS.HOLDUP_LOW, NVM_STATUS.PENDING, NVM_STATUS.TEMP_HIGH, NVM_STATUS.addr]

@[simp] theorem State.persistKick_clk (s : State) : (State.persistKick s).clk = s.clk := by
  simp [State.persistKick]

@[simp] theorem State.cmdKick_clk (s : State) : (State.cmdKick s).clk = s.clk := by
  simp only [State.cmdKick]
  (repeat' split) <;> simp

@[simp] theorem State.nvmKick_clk (s : State) : (State.nvmKick s).clk = s.clk := by
  simp only [State.nvmKick]
  (repeat' split) <;> simp

@[simp] theorem State.nvmSoil_clk (s : State) (op addr len slot : Nat) :
    (State.nvmSoil s op addr len slot).clk = s.clk := by
  simp [State.nvmSoil]

@[simp] theorem State.nvmBegin_clk (s : State) (j : NvmJob) : (State.nvmBegin s j).clk = s.clk := by
  simp [State.nvmBegin, NVM_STATUS.BUSY, NVM_STATUS.DONE, NVM_STATUS.LAST_OP, NVM_STATUS.addr]

@[simp] theorem State.nvmCommand_clk (s : State) (op addr len slot : Nat) (src : NvmSrc) (signed_ : Bool) :
    (State.nvmCommand s op addr len slot src signed_).clk = s.clk := by
  simp only [State.nvmCommand]
  (repeat' split) <;> simp [NVM_STATUS.DONE, NVM_STATUS.LAST_OP, NVM_STATUS.RESULT, NVM_STATUS.addr]

@[simp] theorem State.nvmStep_clk (s : State) (op addr left host : Nat) (data : List Byte) (q id : Nat) :
    (State.nvmStep s op addr left host data q id).clk = s.clk := by
  simp only [State.nvmStep]
  (repeat' split) <;> simp

@[simp] theorem State.nvmEnd_clk (s : State) (j : NvmJob) (r : Nat) : (State.nvmEnd s j r).clk = s.clk := by
  simp only [State.nvmEnd]
  (repeat' split) <;> simp [LC_TOKEN_STATUS.BUSY, LC_TOKEN_STATUS.addr, NVM_STATUS.BUSY, NVM_STATUS.RESULT,
    NVM_STATUS.addr]

@[simp] theorem State.persistOn_clk (s : State) : (State.persistOn s).clk = s.clk :=
  State.clk_congr rfl

@[simp] theorem State.tearUnit_clk (s : State) : (State.tearUnit s).clk = s.clk := by
  simp only [State.tearUnit]
  (repeat' split) <;> simp

@[simp] theorem State.dropErase_clk (s : State) : (State.dropErase s).clk = s.clk := by
  simp only [State.dropErase]
  (repeat' split) <;> simp

@[simp] theorem State.endService_clk (s : State) : (State.endService s).clk = s.clk := by
  simp [State.endService]

end Sys2Proof.Machine
end

section
/-! PROOF. Loss and return of reference sources and of the warm OCXO (O17). -/

namespace Sys2Proof.Machine

/-! ## A fatal fault leaves CLK -/

theorem State.safeServiceEnd_clk (s : State) : s.safeServiceEnd.clk = s.clk := by
  rw [State.safeServiceEnd, State.abortCmds_clk, State.endService_clk, State.put_clk _ _ rfl, State.setMode_clk]

theorem State.coreOff_clk (s : State) : s.coreOff.clk = s.clk :=
  State.clk_of fun _ h => s.coreOff_reg (Nat.lt_trans (of_decide_eq_true h).2 (by decide))

theorem State.safeDomain_clk (s : State) : s.safeDomain.clk = s.clk := by
  have hoff : s.safeServiceEnd.coreOff.clk = s.clk := (State.coreOff_clk _).trans s.safeServiceEnd_clk
  rw [State.safeDomain]
  split
  · exact hoff
  · exact (State.withDram_clk _ _).trans hoff

theorem State.safeEntry_clk (s : State) : s.safeEntry.clk = s.clk := by
  rw [State.safeEntry_eq, State.persistKick_clk, State.put_clk _ _ rfl, State.put_clk _ _ rfl, State.persistDue, State.withPersist_clk,
    State.bdIrq_clk, State.sysIrq_clk, State.event_clk, State.safeDomain_clk]

theorem State.recordFault_clk (s : State) (code unit detail : Nat) : (s.recordFault code unit detail).clk = s.clk := by
  rw [State.recordFault_eq, State.bdIrq_clk, State.sysIrq_clk, State.event_clk]
  refine State.clk_of fun a ha => s.faultNoted_reg_ne code unit detail (fun h => ?_) fun h => ?_
  · rw [h] at ha
    exact absurd ha (by decide)
  · rw [h] at ha
    exact absurd ha (by decide)

/-- A fatal fault records itself in SYS and ends in SAFE: the clocks are as it finds them (R37). -/
theorem State.fatal_clk (s : State) (code unit detail : Nat) : (s.fatal code unit detail).clk = s.clk := by
  have hfaulted : (s.faulted code unit detail).clk = s.clk := by
    rw [State.faulted, ite_clk, State.dropErase_clk, State.put_clk _ _ rfl, State.recordFault_clk, ite_self]
  by_cases ho : s.mode = .off
  · rw [State.fatal_off _ _ _ ho]
  · by_cases hs : s.mode = .safe
    · rw [State.fatal_of_safe _ _ _ hs, hfaulted]
    · rw [State.fatal_of_other _ _ _ ho hs, State.safeEntry_clk, hfaulted]

/-! ## The events' number -/

theorem State.put_evtSeq (s : State) (f : Field) (v : Nat) : (s.put f v).evtSeq = s.evtSeq := rfl

theorem State.takeFree_evtSeq (s : State) : s.takeFree.evtSeq = s.evtSeq := rfl

theorem State.withUnits_evtSeq (s : State) (us : Tab TdcUnit) : (s.withUnits us).evtSeq = s.evtSeq := rfl

theorem State.withSync_evtSeq (s : State) (y : SyncSt) : (s.withSync y).evtSeq = s.evtSeq := rfl

theorem State.withSlew_evtSeq (s : State) (v : Int) : (s.withSlew v).evtSeq = s.evtSeq := rfl

theorem State.updateCold_evtSeq (s : State) : s.updateCold.evtSeq = s.evtSeq := by
  obtain ⟨cold, us, he⟩ := s.updateCold_eq
  rw [he, State.withUnits_evtSeq, State.putB, State.put_evtSeq]

theorem State.discipline_evtSeq (s : State) : s.discipline.evtSeq = s.evtSeq := by
  rcases s.discipline_cases with he | ⟨v, he⟩ <;> rw [he]
  rw [State.put_evtSeq, State.takeFree_evtSeq]

theorem State.acquire_evtSeq (s : State) : s.acquire.evtSeq = s.evtSeq := by
  rw [State.acquire, State.withSlew_evtSeq, State.withSync_evtSeq, State.put_evtSeq, State.put_evtSeq, State.put_evtSeq]

theorem State.upAgain_evtSeq (s : State) : s.upAgain.evtSeq = s.evtSeq := by
  rcases s.upAgain_cases with he | he <;> rw [he]
  exact s.acquire_evtSeq

/-! ## Holdover (R60, R71) -/

theorem State.dropSource_cases (s : State) :
    s.dropSource = s ∨ ∃ f : Field, f.monitor ∧ s.dropSource = s.put f 0 := by
  unfold State.dropSource
  split
  · exact .inr ⟨CLK_STATUS.LINK_VALID, ⟨rfl, by decide⟩, rfl⟩
  · exact .inr ⟨CLK_STATUS.REFIN_VALID, ⟨rfl, by decide⟩, rfl⟩
  · exact .inl rfl

theorem State.dropSource_reg_ne (s : State) {a : Nat} (h : a ≠ CLK_STATUS.addr) : s.dropSource.reg a = s.reg a := by
  rcases s.dropSource_cases with he | ⟨f, ⟨hf, -⟩, he⟩ <;> rw [he]
  exact State.reg_put_ne _ _ (hf ▸ h)

theorem State.dropSource_evtSeq (s : State) : s.dropSource.evtSeq = s.evtSeq := by
  rcases s.dropSource_cases with he | ⟨f, -, he⟩ <;> rw [he]
  rfl

/-- The synchronization in holdover, where it had locked or slewed (R71). -/
def State.syncHeld (s : State) : State :=
  if s.syncState = 2 ∨ s.syncState = 3 then ((s.put CLK_SYNC_STATUS.STATE 4).put CLK_SYNC_STATUS.UP_OUT 0).withSlew 0 else s

theorem State.syncHeld_reg_ne (s : State) {a : Nat} (h : a ≠ CLK_SYNC_STATUS.addr) : s.syncHeld.reg a = s.reg a := by
  unfold State.syncHeld
  split
  · rw [State.withSlew_reg, State.reg_put_ne _ _ h, State.reg_put_ne _ _ h]
  · rfl

theorem State.syncHeld_evtSeq (s : State) : s.syncHeld.evtSeq = s.evtSeq := by
  unfold State.syncHeld
  split
  · rw [State.withSlew_evtSeq, State.put_evtSeq, State.put_evtSeq]
  · rfl

/-- The root runs from the OCXO in place of a source that is lost. -/
def State.rootHeld (s : State) : State := (s.discipline.dropSource.put CLK_STATUS.HOLDOVER 1).put CLK_STATUS.SRC_ACTIVE 3

/-- The module in holdover, before it asks whether its manager is lost with LINK. -/
def State.held (s : State) : State := s.rootHeld.syncHeld.updateCold.event 1 1

theorem State.holdover_eq (s : State) : s.holdover =
    if decide (s.fld CLK_STATUS.SRC_ACTIVE = 1) ∧ s.held.hasManager ∧ s.held.flag SYS_STATUS.ORPHANED = false then s.held.orphan
    else s.held := rfl

theorem State.rootHeld_reg_ne (s : State) {a : Nat} (h : a ≠ CLK_STATUS.addr) (htrim : a ≠ CLK_OCXO_TRIM.addr) :
    s.rootHeld.reg a = s.reg a := by
  rw [State.rootHeld, State.reg_put_ne _ _ h, State.reg_put_ne _ _ h, State.dropSource_reg_ne _ h, State.discipline_reg_ne _ htrim]

theorem State.held_regsBut (s : State) : RegsButEvents [CLK_STATUS.addr, CLK_SYNC_STATUS.addr, CLK_OCXO_TRIM.addr] s s.held := by
  refine regsButEvents_event (fun a ha => ?_) _ _ _ _ _ _
  simp only [List.mem_cons, List.not_mem_nil, or_false, not_or] at ha
  obtain ⟨hstatus, hsync, htrim⟩ := ha
  rw [State.updateCold_reg_ne _ hstatus, State.syncHeld_reg_ne _ hsync, State.rootHeld_reg_ne _ hstatus htrim]

/-- Below TB_COLD, CLK_STATUS is what the lost source has left. -/
theorem State.held_fld {s : State} {f : Field} (ha : f.addr = CLK_STATUS.addr) (h : f.lo + f.len ≤ 11) :
    s.held.fld f = s.rootHeld.fld f := by
  have hevent : evtReg f.addr = false := by rw [ha]; decide
  have hsync : f.addr ≠ CLK_SYNC_STATUS.addr := by rw [ha]; decide
  rw [State.held, State.event_fld _ _ _ _ _ _ hevent, State.updateCold_fld ha h, State.fld_congr (State.syncHeld_reg_ne _ hsync)]

theorem State.held_evtSeq (s : State) : s.held.evtSeq = s.evtSeq + 1 := by
  rw [State.held, State.event_evtSeq, State.updateCold_evtSeq, State.syncHeld_evtSeq, State.rootHeld,
    State.put_evtSeq, State.put_evtSeq, State.dropSource_evtSeq, State.discipline_evtSeq]

theorem State.held_frame (s : State) {fd : Followed} (h : fd ≠ .dram) : s.held.rd fd = s.rd fd := by
  have hsync : ∀ u : State, u.syncHeld.rd fd = u.rd fd := fun u => by
    unfold State.syncHeld
    split <;> simp
  rw [State.held, State.event_frame _ _ _ _ _ _ _ _ h, State.updateCold_frame, hsync, State.rootHeld]
  simp

theorem State.rootHeld_refin {s : State} (h : s.fld CLK_STATUS.SRC_ACTIVE = 2) :
    s.rootHeld.flag CLK_STATUS.REFIN_VALID = false := by
  have hsrc : s.discipline.fld CLK_STATUS.SRC_ACTIVE = 2 := (s.discipline_fld (by decide)).trans h
  have hmonitor : CLK_STATUS.REFIN_VALID.monitor := ⟨rfl, by decide⟩
  rw [State.rootHeld, State.dropSource, hsrc, State.flag, State.fld_put_choice _ choice_SRC_ACTIVE hmonitor,
    State.fld_put_choice _ choice_HOLDOVER hmonitor, ← State.flag]
  exact State.flag_put_zero _ _ (by decide)

theorem State.rootHeld_holdover (s : State) : s.rootHeld.flag CLK_STATUS.HOLDOVER = true := by
  have hsrc : s.rootHeld.fld CLK_STATUS.HOLDOVER = (s.discipline.dropSource.put CLK_STATUS.HOLDOVER 1).fld CLK_STATUS.HOLDOVER :=
    State.fld_put_apart (f := CLK_STATUS.SRC_ACTIVE) (g := CLK_STATUS.HOLDOVER) _ _ rfl (by decide) (by decide)
  exact (State.flag_of_fld hsrc).trans (State.flag_put_one _ _ (by decide) (by decide))

/-! ## The manager lost with LINK (R41) -/

@[simp] theorem State.withSlew_anchor (s : State) (v : Int) (an : Anchor) : (s.withSlew v).anchor an = s.anchor an :=
  State.anchor_congr rfl rfl

@[simp] theorem State.withSync_anchor (s : State) (v : SyncSt) (an : Anchor) : (s.withSync v).anchor an = s.anchor an :=
  State.anchor_congr rfl rfl

@[simp] theorem State.acquire_anchor (s : State) (an : Anchor) : s.acquire.anchor an = s.anchor an := by
  simp [State.acquire, CLK_SYNC_STATUS.STATE, CLK_SYNC_STATUS.EXCH, CLK_SYNC_STATUS.UP_OUT, CLK_SYNC_STATUS.addr]

@[simp] theorem State.syncAgain_anchor (s : State) (an : Anchor) : s.syncAgain.anchor an = s.anchor an := by
  simp [State.syncAgain]

theorem State.orphan_orphaned (s : State) : s.orphan.flag SYS_STATUS.ORPHANED = true := by
  have hanchor : s.orphan.anchor (.sys SYS_STATUS.addr) = (s.put SYS_STATUS.ORPHANED 1).anchor (.sys SYS_STATUS.addr) := by
    simp [State.orphan]
  rw [State.flag, State.fld_of_anchor hanchor (by decide), ← State.flag]
  exact State.flag_put_one _ _ (by decide) (by decide)

theorem State.held_inService (s : State) : s.held.inService = s.inService := by
  rw [State.inService, State.inService, State.mode_of_frame (s.held_frame (by decide))]

theorem exec_refLost_held {s : State} (h0 : s.fld CLK_STATUS.SRC_ACTIVE ≠ 0) (h3 : s.fld CLK_STATUS.SRC_ACTIVE ≠ 3)
    (hok : s.flag CLK_STATUS.OCXO_OK = true) : exec .refLost s = .next s.holdover := by
  rw [exec_refLost, execRefLost]
  split
  · exact absurd ‹_› h0
  · exact absurd ‹_› h3
  · rw [if_pos hok]

/-- LINK is lost with the manager: the module in holdover is orphaned. -/
theorem State.holdover_orphan {s : State} (h1 : s.fld CLK_STATUS.SRC_ACTIVE = 1) (hm : s.hasManager = true)
    (ho : s.flag SYS_STATUS.ORPHANED = false) : s.holdover = s.held.orphan := by
  have hmanager : s.held.hasManager = true := (State.hasManager_congr (s.held_regsBut _ (by decide) (by decide))).trans hm
  have horphaned : s.held.flag SYS_STATUS.ORPHANED = false :=
    (State.flag_congr (s.held_regsBut _ (by decide) (by decide))).trans ho
  rw [State.holdover_eq, if_pos ⟨decide_eq_true h1, hmanager, horphaned⟩]

theorem State.holdover_held {s : State} (h1 : s.fld CLK_STATUS.SRC_ACTIVE ≠ 1) : s.holdover = s.held := by
  rw [State.holdover_eq, if_neg fun h => h1 (of_decide_eq_true h.1)]

/-! ## No clock is left (R37, R56) -/

theorem State.rootLost_active (s : State) : s.rootLost.fld CLK_STATUS.SRC_ACTIVE = 0 := by
  rw [State.rootLost, State.updateCold_fld rfl (by decide), State.fld_put_same _ _ _ (by decide), Nat.zero_mod]

/-- Without an OCXO the loss of the active source is CLOCK_LOSS. -/
theorem exec_refLost_fatal {s : State} (h : s.fld CLK_STATUS.SRC_ACTIVE = 3 ∨ s.fld CLK_STATUS.SRC_ACTIVE ≠ 0 ∧
    s.flag CLK_STATUS.OCXO_OK = false) : ∃ u : State, u.mode = s.mode ∧ u.otp = s.otp ∧
      exec .refLost s = .next (u.rootLost.fatal 7 0 0) := by
  have hput : (s.put CLK_STATUS.OCXO_OK 0).mode = s.mode ∧ (s.put CLK_STATUS.OCXO_OK 0).otp = s.otp := ⟨rfl, rfl⟩
  have hdrop : s.dropSource.mode = s.mode ∧ s.dropSource.otp = s.otp := by
    rcases s.dropSource_cases with he | ⟨f, -, he⟩ <;> rw [he]
    · exact ⟨rfl, rfl⟩
    · exact ⟨rfl, rfl⟩
  rw [exec_refLost, execRefLost]
  split
  next h0 => exact absurd h (by simp [h0])
  next => exact ⟨_, hput.1, hput.2, rfl⟩
  next h0 h3 =>
    obtain ⟨-, hok⟩ := h.resolve_left h3
    rw [if_neg (by simp [hok])]
    exact ⟨_, hdrop.1, hdrop.2, rfl⟩

/-- The module without a clock is in SAFE on the fallback oscillator. -/
theorem State.clockLoss_keeps {u : State} (ho : u.mode ≠ .off) : (u.rootLost.fatal 7 0 0).mode = .safe ∧
    (u.rootLost.fatal 7 0 0).fld CLK_STATUS.SRC_ACTIVE = 0 ∧ (u.rootLost.fatal 7 0 0).otp = u.otp := by
  have hmode : u.rootLost.mode = u.mode := State.mode_of_frame (u.rootLost_frame _)
  have hotp : u.rootLost.otp = u.otp := by rw [State.rd_otp, State.rootLost_frame, ← State.rd_otp]
  refine ⟨State.fatal_mode _ _ _ (hmode.trans_ne ho), ?_, (State.fatal_otp _ _ _ _).trans hotp⟩
  exact (State.fld_congr (State.reg_of_clk (State.fatal_clk _ _ _ _) (by decide))).trans u.rootLost_active

/-! ## The preferred source comes back (R60) -/

/-- The root runs from source `p` again, before the synchronization is looked at. -/
def State.sourceBack (s : State) (p : Nat) : State :=
  (((s.put CLK_STATUS.SRC_ACTIVE p).put CLK_STATUS.HOLDOVER 0).updateCold).event 1 2

theorem exec_refRestored_of_valid {s : State} (hh : s.flag CLK_STATUS.HOLDOVER = true) (ha : s.fld CLK_STATUS.SRC_ACTIVE = 3)
    (hr : s.fld CLK_ROOT_CFG.REF_SRC = 0) (hv : s.srcValid (if s.hasManager then 1 else 2) = true) :
    exec .refRestored s = .next (s.sourceBack (if s.hasManager then 1 else 2)).upAgain := by
  rw [exec_refRestored, execRefRestored]
  exact if_pos ⟨hh, hr, hv, ha⟩

theorem State.sourceBack_fld {s : State} {f : Field} (p : Nat) (ha : f.addr = CLK_STATUS.addr) (h : f.lo + f.len ≤ 11) :
    (s.sourceBack p).upAgain.fld f = ((s.put CLK_STATUS.SRC_ACTIVE p).put CLK_STATUS.HOLDOVER 0).fld f := by
  have hevent : evtReg f.addr = false := by rw [ha]; decide
  have hsync : f.addr ≠ CLK_SYNC_STATUS.addr := by rw [ha]; decide
  rw [State.upAgain_fld _ hsync, State.sourceBack, State.event_fld _ _ _ _ _ _ hevent, State.updateCold_fld ha h]

theorem State.sourceBack_active (s : State) {p : Nat} (hp : p < 4) :
    (s.sourceBack p).upAgain.fld CLK_STATUS.SRC_ACTIVE = p := by
  have hsrc : ((s.put CLK_STATUS.SRC_ACTIVE p).put CLK_STATUS.HOLDOVER 0).fld CLK_STATUS.SRC_ACTIVE =
      (s.put CLK_STATUS.SRC_ACTIVE p).fld CLK_STATUS.SRC_ACTIVE :=
    State.fld_put_apart (f := CLK_STATUS.HOLDOVER) (g := CLK_STATUS.SRC_ACTIVE) _ _ rfl (by decide) (by decide)
  rw [State.sourceBack_fld _ rfl (by decide), hsrc, State.fld_put_same _ _ _ (by decide)]
  exact Nat.mod_eq_of_lt hp

theorem State.sourceBack_regsBut (s : State) (p : Nat) :
    RegsButEvents [CLK_STATUS.addr, CLK_SYNC_STATUS.addr] s (s.sourceBack p).upAgain := fun a ha he => by
  simp only [List.mem_cons, List.not_mem_nil, or_false, not_or] at ha
  obtain ⟨hstatus, hsync⟩ := ha
  rw [State.upAgain_reg_ne _ hsync, State.sourceBack, State.event_reg _ _ _ _ _ _ he, State.updateCold_reg_ne _ hstatus,
    State.reg_put_ne _ _ hstatus, State.reg_put_ne _ _ hstatus]

theorem State.sourceBack_evtSeq (s : State) (p : Nat) : (s.sourceBack p).upAgain.evtSeq = s.evtSeq + 1 := by
  rw [State.upAgain_evtSeq, State.sourceBack, State.event_evtSeq, State.updateCold_evtSeq, State.put_evtSeq, State.put_evtSeq]

/-! ## What the monitors see (R60) -/

/-- One source as its monitor sees it; of the active one this is not the place. -/
def State.see (act n : Nat) (f : Field) (b : Bool) (s : State) : State := if act = n then s else s.putB f b

theorem State.seeRefs_eq (s : State) (r : RefSeen) : s.seeRefs r =
    ((s.see (s.fld CLK_STATUS.SRC_ACTIVE) 1 CLK_STATUS.LINK_VALID r.link).see (s.fld CLK_STATUS.SRC_ACTIVE) 2
      CLK_STATUS.REFIN_VALID r.refin).see (s.fld CLK_STATUS.SRC_ACTIVE) 3 CLK_STATUS.OCXO_OK r.ocxo := rfl

theorem State.see_reg_ne (s : State) (act n : Nat) {f : Field} (b : Bool) {a : Nat} (h : a ≠ f.addr) :
    (s.see act n f b).reg a = s.reg a := by
  unfold State.see
  split
  · rfl
  · exact State.reg_putB_ne _ _ h

theorem State.see_same (s : State) (act n : Nat) {f : Field} (b : Bool) (h : f.lo + f.len ≤ 32) (h1 : f.len = 1) :
    (s.see act n f b).flag f = if act = n then s.flag f else b := by
  unfold State.see
  split
  · rfl
  · exact s.flag_putB_same f b h h1

theorem State.see_apart (s : State) (act n : Nat) {f g : Field} (b : Bool) (ha : g.addr = f.addr) (hf : f.lo + f.len ≤ 32)
    (h : f.lo + f.len ≤ g.lo ∨ g.lo + g.len ≤ f.lo) : (s.see act n f b).fld g = s.fld g := by
  unfold State.see
  split
  · rfl
  · exact State.fld_put_apart _ _ ha hf h

theorem SyncKept.see (s : State) (act n : Nat) {f : Field} (b : Bool) (h : f.addr ≠ CLK_SYNC_STATUS.addr) :
    SyncKept s (s.see act n f b) := by
  unfold State.see
  split
  · exact .refl s
  · exact .putB b h

theorem SyncKept.seeRefs (s : State) (r : RefSeen) : SyncKept s (s.seeRefs r) :=
  ((SyncKept.see s _ _ _ (by decide)).trans (.see _ _ _ _ (by decide))).trans (.see _ _ _ _ (by decide))

theorem State.seeRefs_reg_ne (s : State) (r : RefSeen) {a : Nat} (h : a ≠ CLK_STATUS.addr) : (s.seeRefs r).reg a = s.reg a := by
  rw [State.seeRefs_eq, State.see_reg_ne _ _ _ _ h, State.see_reg_ne _ _ _ _ h, State.see_reg_ne _ _ _ _ h]

theorem State.see_flag_apart (s : State) (act n : Nat) (f g : Field) (b : Bool) (ha : g.addr = f.addr) (hf : f.lo + f.len ≤ 32)
    (h : f.lo + f.len ≤ g.lo ∨ g.lo + g.len ≤ f.lo) : (s.see act n f b).flag g = s.flag g :=
  State.flag_of_fld (s.see_apart act n b ha hf h)

theorem State.seeRefs_link (s : State) (r : RefSeen) : (s.seeRefs r).flag CLK_STATUS.LINK_VALID =
    if s.fld CLK_STATUS.SRC_ACTIVE = 1 then s.flag CLK_STATUS.LINK_VALID else r.link := by
  rw [State.seeRefs_eq, State.see_flag_apart _ _ _ CLK_STATUS.OCXO_OK CLK_STATUS.LINK_VALID _ rfl (by decide) (by decide),
    State.see_flag_apart _ _ _ CLK_STATUS.REFIN_VALID CLK_STATUS.LINK_VALID _ rfl (by decide) (by decide),
    State.see_same _ _ _ _ (by decide) rfl]

theorem State.seeRefs_refin (s : State) (r : RefSeen) : (s.seeRefs r).flag CLK_STATUS.REFIN_VALID =
    if s.fld CLK_STATUS.SRC_ACTIVE = 2 then s.flag CLK_STATUS.REFIN_VALID else r.refin := by
  rw [State.seeRefs_eq, State.see_flag_apart _ _ _ CLK_STATUS.OCXO_OK CLK_STATUS.REFIN_VALID _ rfl (by decide) (by decide),
    State.see_same _ _ _ _ (by decide) rfl,
    State.see_flag_apart _ _ _ CLK_STATUS.LINK_VALID CLK_STATUS.REFIN_VALID _ rfl (by decide) (by decide)]

theorem State.seeRefs_ocxo (s : State) (r : RefSeen) : (s.seeRefs r).flag CLK_STATUS.OCXO_OK =
    if s.fld CLK_STATUS.SRC_ACTIVE = 3 then s.flag CLK_STATUS.OCXO_OK else r.ocxo := by
  rw [State.seeRefs_eq, State.see_same _ _ _ _ (by decide) rfl,
    State.see_flag_apart _ _ _ CLK_STATUS.REFIN_VALID CLK_STATUS.OCXO_OK _ rfl (by decide) (by decide),
    State.see_flag_apart _ _ _ CLK_STATUS.LINK_VALID CLK_STATUS.OCXO_OK _ rfl (by decide) (by decide)]

/-! ## A source is valid again (R60, R71) -/

/-- What the module does with what its monitors see, from `u` to `t`: it keeps that, writes no register but those of the clocks,
and begins the synchronization again where it is held and LINK is valid. -/
structure SourceTaken (u t : State) : Prop where
  monitor : ∀ f : Field, f.monitor → t.fld f = u.fld f
  regs : RegsBut [CLK_STATUS.addr, CLK_SYNC_STATUS.addr, CLK_OCXO_TRIM.addr] u t
  frame : ∀ fd : Followed, t.rd fd = u.rd fd
  acquiring : u.flag CLK_STATUS.LINK_VALID = true → u.syncState = 4 → Acquiring t
  kept : u.syncState ≠ 4 → SyncKept u t

theorem Field.monitor.ne_sync {f : Field} (h : f.monitor) : f.addr ≠ CLK_SYNC_STATUS.addr := by
  rw [h.1]
  decide

theorem SourceTaken.upAgain (u : State) : SourceTaken u u.upAgain where
  monitor _ hf := u.upAgain_fld hf.ne_sync
  regs _ ha := u.upAgain_reg_ne fun h => ha (by simp [h])
  frame fd := u.upAgain_frame fd
  acquiring hl h4 := State.upAgain_acquiring hl h4
  kept h4 := by
    rw [State.upAgain_of_ne h4]
    exact .refl u

theorem SourceTaken.reselect (u : State) : SourceTaken u u.reselect.upAgain where
  monitor _ hf := (State.upAgain_fld _ hf.ne_sync).trans (State.reselect_monitor hf)
  regs _ ha := (State.upAgain_reg_ne _ fun h => ha (by simp [h])).trans (State.reselect_reg_ne _ ha)
  frame fd := (State.upAgain_frame _ fd).trans (u.reselect_frame fd)
  acquiring hl h4 := by
    have hlink : u.reselect.flag CLK_STATUS.LINK_VALID = true :=
      (State.flag_of_fld (State.reselect_monitor ⟨rfl, by decide⟩)).trans hl
    rcases u.reselect_sync with hkept | ⟨hacq, -⟩
    · exact State.upAgain_acquiring hlink (hkept.syncState_eq.trans h4)
    · rw [State.upAgain_of_ne (by rw [hacq.1]; decide)]
      exact hacq
  kept h4 := by
    have hkept : SyncKept u u.reselect := u.reselect_sync.resolve_right fun h => h4 h.2
    rw [State.upAgain_of_ne (hkept.syncState_eq.trans_ne h4)]
    exact hkept

/-- The host's choice is taken at once, the module's own with REF_RESTORED; then the synchronization is looked at. -/
theorem exec_sourceValidAgain_taken (r : RefSeen) {s : State} (ho : s.mode ≠ .off) :
    ∃ t, exec (.sourceValidAgain r) s = .next t ∧ SourceTaken (s.seeRefs r) t := by
  rw [exec_sourceValidAgain, execSourceValidAgain, if_neg ho]
  dsimp only
  split
  · exact ⟨_, rfl, .upAgain _⟩
  · exact ⟨_, rfl, .reselect _⟩

/-! ## The OCXO warms and cools (R61, R62, R63) -/

theorem exec_ocxoWarm_of_power {s : State} (ho : s.mode ≠ .off) :
    exec .ocxoWarm s = .next (s.put CLK_STATUS.OCXO_WARM 1).updateCold := by
  rw [exec_ocxoWarm, execOcxoWarm, if_neg ho]

theorem exec_ocxoWarmLost_of_power {s : State} (ho : s.mode ≠ .off) :
    exec .ocxoWarmLost s = .next (s.discipline.put CLK_STATUS.OCXO_WARM 0).updateCold := by
  rw [exec_ocxoWarmLost, execOcxoWarmLost, if_neg ho]

theorem State.withUnits_withRegs (s : State) (us : Tab TdcUnit) (r : Tab Word) :
    (s.withUnits us).withRegs r = (s.withRegs r).withUnits us := rfl

theorem State.put_updateCold_frame (s : State) (f : Field) (v : Nat) :
    ((s.put f v).updateCold.withRegs s.regs).withUnits s.units = s := by
  obtain ⟨cold, us, he⟩ := (s.put f v).updateCold_eq
  rw [he, State.withUnits_withRegs, State.putB, State.put_withRegs, State.put_withRegs]

/-- A warm OCXO leaves the time base cold where the UP partner's is. -/
theorem State.warm_cold (s : State) : (s.put CLK_STATUS.OCXO_WARM 1).updateCold.flag CLK_STATUS.TB_COLD =
    (decide (s.fld CLK_STATUS.SRC_ACTIVE = 1) && s.flag (LNK_STATUS.P_TB_COLD 0)) := by
  have hsrc : (s.put CLK_STATUS.OCXO_WARM 1).fld CLK_STATUS.SRC_ACTIVE = s.fld CLK_STATUS.SRC_ACTIVE :=
    State.fld_put_apart _ _ rfl (by decide) (by decide)
  have hpartner : (s.put CLK_STATUS.OCXO_WARM 1).flag (LNK_STATUS.P_TB_COLD 0) = s.flag (LNK_STATUS.P_TB_COLD 0) :=
    State.flag_of_fld (State.fld_put_ne _ _ (by decide))
  rw [State.updateCold_cold, State.flag_put_one _ _ (by decide) (by decide), hsrc, hpartner]
  rfl

theorem State.cooled_cold (s : State) : (s.put CLK_STATUS.OCXO_WARM 0).updateCold.flag CLK_STATUS.TB_COLD = true := by
  rw [State.updateCold_cold, State.flag_put_zero _ _ (by decide)]
  rfl

/-- Settles O17: a lost source leads to holdover, IDLE or SAFE, a valid one back to service. -/
theorem referenceSourcesComplete : Obligations.ReferenceSourcesComplete := by
  unfold Obligations.ReferenceSourcesComplete
  refine ⟨fun s h2 hok => ?_, fun s h1 hm ho hs hok => ?_, fun s h ho => ?_, fun s hh ha hr hv => ?_, fun s ho => ?_, fun s ho => ?_,
    fun r s ho => ?_⟩
  · refine ⟨s.held, ?_, ?_, ?_, ?_, s.held_evtSeq, steady_of_frame fun fd hd => s.held_frame hd, s.held_regsBut⟩
    · rw [exec_refLost_held (by omega) (by omega) hok, State.holdover_held (by omega)]
    · exact (State.flag_of_fld (State.held_fld rfl (by decide))).trans s.rootHeld_holdover
    · exact (State.held_fld rfl (by decide)).trans (State.fld_put_same _ _ _ (by decide))
    · exact (State.flag_of_fld (State.held_fld rfl (by decide))).trans (State.rootHeld_refin h2)
  · refine ⟨s.holdover, exec_refLost_held (by omega) (by omega) hok, ?_, ?_,
      still_of_frame fun fd hd hmode _ _ => s.holdover_frame fd hmode hd⟩
    · rw [State.holdover_orphan h1 hm ho]
      exact State.orphan_mode_of_inService (s.held_inService.trans hs)
    · rw [State.holdover_orphan h1 hm ho]
      exact State.orphan_orphaned _
  · obtain ⟨u, hmode, hotp, hexec⟩ := exec_refLost_fatal h
    obtain ⟨hsafe, hsrc, hfuses⟩ := State.clockLoss_keeps (hmode.trans_ne ho)
    exact ⟨_, hexec, hsafe, hsrc, hfuses.trans hotp⟩
  · refine ⟨_, exec_refRestored_of_valid hh ha hr hv, ?_, ?_, State.sourceBack_evtSeq _ _, steady_of_frame fun fd hd => ?_,
      State.sourceBack_regsBut _ _⟩
    · exact State.sourceBack_active _ (by split <;> decide)
    · exact (State.flag_of_fld (State.sourceBack_fld _ rfl (by decide))).trans (State.flag_put_zero _ _ (by decide))
    · simp [State.sourceBack, hd]
  · refine ⟨_, exec_ocxoWarm_of_power ho, ?_, s.warm_cold, State.put_updateCold_frame _ _ _, fun a hne => ?_⟩
    · rw [State.updateCold_flag rfl (by decide), State.flag_put_one _ _ (by decide) (by decide)]
    · have hne : a ≠ CLK_STATUS.addr := fun h => hne (List.mem_singleton.mpr h)
      rw [State.updateCold_reg_ne _ hne, State.reg_put_ne _ _ hne]
  · refine ⟨_, exec_ocxoWarmLost_of_power ho, ?_, State.cooled_cold _, steady_of_frame fun fd _ => by simp, fun a hne => ?_⟩
    · rw [State.updateCold_flag rfl (by decide), State.flag_put_zero _ _ (by decide)]
    · simp only [List.mem_cons, List.not_mem_nil, or_false, not_or] at hne
      obtain ⟨hstatus, htrim⟩ := hne
      rw [State.updateCold_reg_ne _ hstatus, State.reg_put_ne _ _ hstatus, State.discipline_reg_ne _ htrim]
  · obtain ⟨t, hexec, htaken⟩ := exec_sourceValidAgain_taken r ho
    have hseen : SyncKept s (s.seeRefs r) := .seeRefs s r
    refine ⟨t, hexec, (State.flag_of_fld (htaken.monitor _ ⟨rfl, by decide⟩)).trans (s.seeRefs_link r),
      (State.flag_of_fld (htaken.monitor _ ⟨rfl, by decide⟩)).trans (s.seeRefs_refin r),
      (State.flag_of_fld (htaken.monitor _ ⟨rfl, by decide⟩)).trans (s.seeRefs_ocxo r), fun h1 hl h4 => ?_, fun h4 => ?_,
      steady_of_frame fun fd _ => (htaken.frame fd).trans (s.seeRefs_frame r fd), fun a hne => ?_⟩
    · exact htaken.acquiring (by rw [State.seeRefs_link, if_neg h1, hl]) (hseen.syncState_eq.trans h4)
    · exact hseen.trans (htaken.kept (hseen.syncState_eq.trans_ne h4))
    · exact (htaken.regs a hne).trans (s.seeRefs_reg_ne r fun h => hne (h ▸ List.mem_cons_self))

end Sys2Proof.Machine
end

section
/-! PROOF. An ACT_WAIT that starts finishes one that a Function Level Reset has cut off, so that HostCommandsComplete fails
(O57). -/

namespace Sys2Proof.Machine

/-! ## ACT_WAIT (Table 18-5) -/

theorem exec_actWait_of_mayStart {q : Queue} {c : HostCmd} {s : State} (h : MayStart q 0x23 c s) (hm : argOf c 0 < 65536) :
    exec (.actWait q c.id) s = .next ((s.startHead q).actWaitDone q) := by
  rw [exec_actWait, execActWait, cmdStart_of_mayStart _ h rfl, State.inRange, actMask, decide_eq_true hm, if_pos rfl]

/-- A command that a Function Level Reset has cut off leaves its queue when it finishes (R327). -/
theorem State.finish_cut {s : State} {q id status result : Nat} {c : HostCmd} {r : List HostCmd}
    (hstarted : takeCmd id (s.queue q).started = none) (hcut : takeCmd id (s.queue q).cut = some (c, r)) :
    ((s.finish q id status result).queue q).cut = r := by
  have hstarted' : takeCmd id ((s.queue q).forget id).started = none := hstarted
  have hcut' : takeCmd id ((s.queue q).forget id).cut = some (c, r) := hcut
  simp only [State.finish, hstarted', hcut', State.setQueue_same]

/-- So does an ACT_WAIT that is cut off, where it is the first of its queue whose acts are all STOPPED. -/
theorem State.actWaitDone_cut {s : State} {q n : Nat} {c : HostCmd} {r : List HostCmd} {ns : List Nat}
    (hfirst : (s.running_ q).find? (fun c => decide (c.opcode = 0x23) && s.actsStopped (argOf c 0)) = some c)
    (hacts : bitList (argOf c 0) 16 0 = n :: ns) (hstarted : takeCmd c.id.toNat (s.queue q).started = none)
    (hcut : takeCmd c.id.toNat (s.queue q).cut = some (c, r)) : ((s.actWaitDone q).queue q).cut = r := by
  rw [State.actWaitDone, hfirst]
  dsimp only
  rw [hacts]
  exact State.finish_cut hstarted hcut

/-! ## The counterexample -/

/-- An ACT_WAIT for act 0. -/
def waitForArming : HostCmd := ⟨7, 0x23, 0, [0x1]⟩

/-- An ACT_WAIT for act 1. -/
def waitForStopped : HostCmd := ⟨1, 0x23, 0, [0x2]⟩

/-- The module in IDLE with act 0 ARMING and act 1 STOPPED: the wait for act 0 is at the head of queue 0, and a Function Level
Reset has cut off the one for act 1, which has not finished yet. -/
def cutWaitState : State :=
  ((State.reset.withMode .idle).put (SEQ_STATUS.STATE 0) 1).setQueue 0 { waiting := [waitForArming], cut := [waitForStopped] }

theorem mayStart_cutWaitState : MayStart 0 0x23 waitForArming cutWaitState := by
  unfold MayStart
  decide +kernel

/-- The wait for act 0 starts, and what has what it waits for is the other one. -/
theorem cutWaitState_finishes : (((cutWaitState.startHead 0).actWaitDone 0).queue 0).cut = [] :=
  State.actWaitDone_cut (c := waitForStopped) (n := 1) (ns := []) (by decide +kernel) (by decide) (by decide) (by decide)

/-- Refutes O57: its sixth clause says that an ACT_WAIT whose acts are not all STOPPED starts and leaves its queue otherwise
as it was; no premise keeps out an ACT_WAIT that is cut off and whose acts are all STOPPED, and that one finishes
(`State.actWaitDone_cut`). -/
theorem not_hostCommandsComplete : ¬ Obligations.HostCommandsComplete := by
  unfold Obligations.HostCommandsComplete
  rintro ⟨-, -, -, -, -, hwait, -⟩
  obtain ⟨t, hexec, ⟨hqueue, -⟩, -⟩ :=
    hwait 0 waitForArming cutWaitState mayStart_cutWaitState (by decide) (by decide +kernel) (by decide)
  rw [exec_actWait_of_mayStart mayStart_cutWaitState (by decide)] at hexec
  have hfinished : (t.queue (0 : Queue)).cut = [] := by
    rw [← Host.Outcome.next.inj hexec]
    exact cutWaitState_finishes
  have hkept : (t.queue (0 : Queue)).cut = [waitForStopped] := by
    rw [hqueue]
    rfl
  rw [hfinished] at hkept
  cases hkept

end Sys2Proof.Machine
end

section
/-! SUPPORT. What the header checks of an image slot read, and which registers the report of a slot writes (05). -/

namespace Sys2Proof.Machine

/-- What the header checks of a slot read (R77): the flash with its torn bytes, its density, the fuses. -/
def State.headerView (s : State) : List Host.Cell × Tab (Option Byte) × Nat × Otp :=
  (s.flash, s.torn, s.fld NVM_CFG.DENSITY, s.otp)

theorem State.slotSize_congr {s t : State} (h : t.headerView = s.headerView) : t.slotSize = s.slotSize := by
  simp only [State.headerView, Prod.mk.injEq] at h
  obtain ⟨-, -, hdensity, -⟩ := h
  rw [State.slotSize, State.slotSize, State.flashSize, State.flashSize, hdensity]

theorem State.slotHeader_congr {s t : State} (h : t.headerView = s.headerView) (k : Nat) : t.slotHeader k = s.slotHeader k := by
  have hsize := State.slotSize_congr h
  simp only [State.headerView, Prod.mk.injEq] at h
  obtain ⟨hflash, -, -, -⟩ := h
  rw [State.slotHeader, State.slotHeader, State.flashBytes, State.flashBytes, hsize, hflash]

theorem State.headerReason_congr {s t : State} (h : t.headerView = s.headerView) (k : Nat) :
    t.headerReason k = s.headerReason k := by
  have hsize := State.slotSize_congr h
  have hheader := State.slotHeader_congr h
  simp only [State.headerView, Prod.mk.injEq] at h
  obtain ⟨-, htorn, -, hotp⟩ := h
  rw [State.headerReason, State.headerReason, hheader, hsize, State.tornIn, State.tornIn, htorn, hotp]

theorem State.firstSlot_congr {s t : State} (h : t.headerView = s.headerView) : t.firstSlot = s.firstSlot := by
  rw [State.firstSlot, State.firstSlot, State.headerReason_congr h, State.headerReason_congr h, State.slotHeader_congr h,
    State.slotHeader_congr h]

theorem State.headerView_put (s : State) {f : Field} (v : Nat) (h : NVM_CFG.DENSITY.addr ≠ f.addr) :
    (s.put f v).headerView = s.headerView := by
  rw [State.headerView, State.fld_put_ne s v h]
  rfl

/-- An event leaves the flash alone, and every register of NVM. -/
theorem State.headerView_event (s : State) (src code p4 p5 p6 p7 : Nat) :
    (s.event src code p4 p5 p6 p7).headerView = s.headerView := by
  have e : (s.withEvtSeq (s.evtSeq + 1)).unjournaled (s.event src code p4 p5 p6 p7) = s.withEvtSeq (s.evtSeq + 1) :=
    Journaled.eventAt s s.time.toNat src code p4 p5 p6 p7
  have hflash : (s.event src code p4 p5 p6 p7).flash = s.flash := (congrArg State.flash e :)
  have htorn : (s.event src code p4 p5 p6 p7).torn = s.torn := (congrArg State.torn e :)
  have hotp : (s.event src code p4 p5 p6 p7).otp = s.otp := (congrArg State.otp e :)
  rw [State.headerView, State.event_fld _ _ _ _ _ _ (by decide), hflash, htorn, hotp]
  rfl

/-- The report of a slot is in NVM_SLOT (R89). -/
theorem State.setSlot_reg_ne (s : State) (k reason : Nat) {a : Nat} (h : a ≠ NVM_SLOT.addr) :
    (s.setSlot k reason).reg a = s.reg a := by
  unfold State.setSlot
  split
  · rw [State.reg_put_ne _ _ h, State.reg_putB_ne _ _ h]
  · rw [State.reg_put_ne _ _ h, State.reg_putB_ne _ _ h]

theorem State.setSlot_fld_ne (s : State) (k reason : Nat) {f : Field} (h : f.addr ≠ NVM_SLOT.addr) :
    (s.setSlot k reason).fld f = s.fld f :=
  State.fld_congr (s.setSlot_reg_ne k reason h)

theorem State.headerView_setSlot (s : State) (k reason : Nat) : (s.setSlot k reason).headerView = s.headerView := by
  unfold State.setSlot
  split
  · rw [State.headerView_put _ _ (by decide), State.putB, State.headerView_put _ _ (by decide)]
  · rw [State.headerView_put _ _ (by decide), State.putB, State.headerView_put _ _ (by decide)]

theorem State.put_slotTried (s : State) (f : Field) (v : Nat) : (s.put f v).slotTried = s.slotTried := rfl

theorem State.withSlotTried_fld (s : State) (v : Option Nat) (f : Field) : (s.withSlotTried v).fld f = s.fld f := rfl

theorem State.withSlotTried_unit (s : State) (v : Option Nat) : (s.withSlotTried v).unit = s.unit := rfl

theorem State.put_unit (s : State) (f : Field) (v : Nat) : (s.put f v).unit = s.unit := rfl

theorem State.setSlot_unit (s : State) (k reason : Nat) : (s.setSlot k reason).unit = s.unit := by
  unfold State.setSlot
  split
  · rw [State.put_unit, State.putB, State.put_unit]
  · rw [State.put_unit, State.putB, State.put_unit]

end Sys2Proof.Machine
end

section
/-! PROOF. NVM_DISCOVERY, IMAGE_READ, APPLY and IDLE_ENTRY complete, or lead to SAFE (O11). -/

namespace Sys2Proof.Machine

theorem State.bootAt_of_mode {s : State} {k : Nat} (hm : s.mode = .boot) (hs : s.fld SYS_MODE.BOOT_STEP = k) :
    s.bootAt k = true := by
  rw [State.bootAt, hm, hs, decide_eq_true rfl, decide_eq_true rfl]
  rfl

theorem Mode.ne_off_of_boot {m : Mode} (h : m = .boot) : m ≠ .off := by
  rw [h]
  decide

theorem State.otp_of_frame {s t : State} (h : t.rd .otp = s.rd .otp) : t.otp = s.otp := by
  rw [State.rd_otp, State.rd_otp, h]

/-- A fatal fault found in BOOT leads to SAFE, with the fuses as they were before what led to it. -/
theorem fatal_of_boot {c : Instr} {s u : State} {code unit detail : Nat} (hm : s.mode = .boot)
    (hexec : exec c s = .next (u.fatal code unit detail)) (hmode : u.rd .mode = s.rd .mode)
    (hotp : u.rd .otp = s.rd .otp) :
    ∃ t, exec c s = .next t ∧ t.mode = .safe ∧ t.otp = s.otp :=
  ⟨_, hexec, State.fatal_mode _ _ _ (Mode.ne_off_of_boot ((State.mode_of_frame hmode).trans hm)),
    (State.fatal_otp _ _ _ _).trans (State.otp_of_frame hotp)⟩

/-! ## Step 5: the flash found (R73) -/

/-- The flash reset and found, and the headers of both slots checked. -/
def State.discovered (s : State) (f : Sfdp) : State := ((s.tearUnit.flashFound f).checkHeader 0).checkHeader 1

@[simp] theorem State.discovered_frame (s : State) (f : Sfdp) (fd : Followed) : (s.discovered f).rd fd = s.rd fd := by
  simp [State.discovered, State.checkHeader]

theorem State.discovered_fld (s : State) (f : Sfdp) {g : Field} (h : g.addr ≠ NVM_SLOT.addr) :
    (s.discovered f).fld g = (s.tearUnit.flashFound f).fld g := by
  rw [State.discovered, State.checkHeader, State.setSlot_fld_ne _ _ _ h, State.checkHeader, State.setSlot_fld_ne _ _ _ h]

theorem Sfdp.density_of_ok {f : Sfdp} (h : sfdpOk f = true) : f.density = 1 ∨ f.density = 2 := by
  simp only [sfdpOk, Bool.and_eq_true, decide_eq_true_eq] at h
  exact h.1.1

theorem State.flashFound_density (s : State) (f : Sfdp) : (s.flashFound f).fld NVM_CFG.DENSITY = f.density % 2 ^ 4 := by
  rw [State.flashFound, State.fld_put_apart _ _ (by decide) (by decide) (by decide), State.fld_put_same _ _ _ (by decide)]
  rfl

theorem State.flashFound_protocol (s : State) (f : Sfdp) :
    (s.flashFound f).fld NVM_CFG.PROTOCOL = if f.octal then 2 else 1 := by
  rw [State.flashFound, State.fld_put_same _ _ _ (by decide)]
  split <;> rfl

/-- Of what discovery stores the header checks read the density alone. -/
theorem State.discovered_firstSlot (s : State) (f : Sfdp) :
    (s.discovered f).firstSlot = (s.tearUnit.put NVM_CFG.DENSITY f.density).firstSlot := by
  refine State.firstSlot_congr ?_
  have hfound : (s.tearUnit.flashFound f).headerView = (s.tearUnit.put NVM_CFG.DENSITY f.density).headerView := by
    rw [State.headerView, State.flashFound_density, State.headerView, State.fld_put_same _ _ _ (by decide)]
    rfl
  rw [State.discovered, State.checkHeader, State.headerView_setSlot, State.checkHeader, State.headerView_setSlot, hfound]

theorem State.tearUnit_unit (s : State) : s.tearUnit.unit = none := by
  unfold State.tearUnit
  split
  · assumption
  · split <;> rfl

theorem State.discovered_unit (s : State) (f : Sfdp) : (s.discovered f).unit = none := by
  rw [State.discovered, State.checkHeader, State.setSlot_unit, State.checkHeader, State.setSlot_unit, State.flashFound,
    State.put_unit, State.put_unit, State.put_unit, State.tearUnit_unit]

theorem exec_nvmDiscovery_none {s : State} (h : s.bootAt 5 = true) :
    exec (.nvmDiscovery none) s = .next (s.tearUnit.fatal 3 0 0) := by
  rw [exec_nvmDiscovery, execNvmDiscovery, if_pos h]

theorem exec_nvmDiscovery_refused {f : Sfdp} {s : State} (h : s.bootAt 5 = true) (hf : sfdpOk f = false) :
    exec (.nvmDiscovery (some f)) s = .next (s.tearUnit.fatal 3 0 0) := by
  rw [exec_nvmDiscovery, execNvmDiscovery, if_pos h]
  exact if_neg (by simp [hf])

theorem exec_nvmDiscovery_slot {f : Sfdp} {k : Nat} {s : State} (h : s.bootAt 5 = true) (hf : sfdpOk f = true)
    (hk : (s.discovered f).firstSlot = some k) :
    exec (.nvmDiscovery (some f)) s = .next (((s.discovered f).withSlotTried (some k)).bootStep 6) := by
  rw [exec_nvmDiscovery, execNvmDiscovery, if_pos h]
  refine (if_pos hf).trans ?_
  dsimp only
  rw [← State.discovered, hk]

theorem exec_nvmDiscovery_noSlot {f : Sfdp} {s : State} (h : s.bootAt 5 = true) (hf : sfdpOk f = true)
    (hk : (s.discovered f).firstSlot = none) :
    exec (.nvmDiscovery (some f)) s = .next ((s.discovered f).fatal 3 0 0) := by
  rw [exec_nvmDiscovery, execNvmDiscovery, if_pos h]
  refine (if_pos hf).trans ?_
  dsimp only
  rw [← State.discovered, hk]

theorem nvmDiscovery_finds_slot {f : Sfdp} {k : Nat} {s : State} (hm : s.mode = .boot) (hs : s.fld SYS_MODE.BOOT_STEP = 5)
    (hf : sfdpOk f = true) (hk : (s.tearUnit.put NVM_CFG.DENSITY f.density).firstSlot = some k) :
    ∃ t, exec (.nvmDiscovery (some f)) s = .next t ∧ t.mode = .boot ∧ t.fld SYS_MODE.BOOT_STEP = 6 ∧
      t.slotTried = some k ∧ t.fld NVM_CFG.DENSITY = f.density ∧ t.fld NVM_CFG.PROTOCOL = (if f.octal then 2 else 1) ∧
      t.unit = none ∧ t.otp = s.otp := by
  have hexec := exec_nvmDiscovery_slot (State.bootAt_of_mode hm hs) hf ((s.discovered_firstSlot f).trans hk)
  refine ⟨_, hexec, (State.mode_of_frame (by simp [State.bootStep])).trans hm, State.fld_put_same _ _ _ (by decide),
    (State.put_slotTried _ _ _).trans (State.withSlotTried_slotTried _ _), ?_, ?_, ?_,
    State.otp_of_frame (by simp [State.bootStep])⟩
  · rw [State.bootStep, State.fld_put_ne _ _ (by decide), State.withSlotTried_fld, s.discovered_fld f (by decide),
      State.flashFound_density]
    have := Sfdp.density_of_ok hf
    exact Nat.mod_eq_of_lt (by omega)
  · rw [State.bootStep, State.fld_put_ne _ _ (by decide), State.withSlotTried_fld, s.discovered_fld f (by decide),
      State.flashFound_protocol]
  · rw [State.bootStep, State.put_unit, State.withSlotTried_unit, State.discovered_unit]

/-! ## Step 6: a slot read (R82) -/

/-- A slot that is not valid reported, before any other is tried. -/
def State.slotFailed (s : State) (k : Nat) : State :=
  (((s.setSlot k (s.slotReason k)).event 3 1).put SYS_STATUS.SECOND_SLOT 1)

@[simp] theorem State.slotFailed_frame (s : State) (k : Nat) {fd : Followed} (h : fd ≠ .dram) :
    (s.slotFailed k).rd fd = s.rd fd := by
  simp [State.slotFailed, h]

theorem State.slotFailed_headerReason (s : State) (k j : Nat) : (s.slotFailed k).headerReason j = s.headerReason j :=
  State.headerReason_congr (by
    rw [State.slotFailed, State.headerView_put _ _ (by decide), State.headerView_event, State.headerView_setSlot]) j

theorem State.slotFailed_bootStep (s : State) (k : Nat) :
    (s.slotFailed k).fld SYS_MODE.BOOT_STEP = s.fld SYS_MODE.BOOT_STEP := by
  rw [State.slotFailed, State.fld_put_ne _ _ (by decide), State.event_fld _ _ _ _ _ _ (by decide),
    State.setSlot_fld_ne _ _ _ (by decide)]

theorem exec_imageRead_valid {k : Nat} {s : State} (h : s.bootAt 6 = true) (hk : s.slotTried = some k)
    (hr : s.slotReason k = 0) : exec .imageRead s = .next (s.bootFrom k) := by
  rw [exec_imageRead, execImageRead, if_pos h, hk]
  exact if_pos hr

theorem exec_imageRead_second {k : Nat} {s : State} (h : s.bootAt 6 = true) (hk : s.slotTried = some k)
    (hr : s.slotReason k ≠ 0) (h2 : s.flag SYS_STATUS.SECOND_SLOT = true) :
    exec .imageRead s = .next ((s.setSlot k (s.slotReason k)).fatal 3 0 0) := by
  have h2' : (s.setSlot k (s.slotReason k)).flag SYS_STATUS.SECOND_SLOT = true :=
    (State.flag_of_fld (State.setSlot_fld_ne _ _ _ (by decide))).trans h2
  rw [exec_imageRead, execImageRead, if_pos h, hk]
  exact (if_neg hr).trans (if_pos h2')

theorem exec_imageRead_first {k : Nat} {s : State} (h : s.bootAt 6 = true) (hk : s.slotTried = some k)
    (hr : s.slotReason k ≠ 0) (h1 : s.flag SYS_STATUS.SECOND_SLOT = false) :
    exec .imageRead s = if s.headerReason (1 - k) = 0 then .next ((s.slotFailed k).withSlotTried (some (1 - k)))
      else .next ((s.slotFailed k).fatal 3 0 0) := by
  have h1' : (s.setSlot k (s.slotReason k)).flag SYS_STATUS.SECOND_SLOT = false :=
    (State.flag_of_fld (State.setSlot_fld_ne _ _ _ (by decide))).trans h1
  rw [exec_imageRead, execImageRead, if_pos h, hk]
  refine ((if_neg hr).trans (if_neg (by simp [h1']))).trans ?_
  rw [← s.slotFailed_headerReason k]
  rfl

theorem imageRead_boots {k : Fin 2} {s : State} (hm : s.mode = .boot) (hs : s.fld SYS_MODE.BOOT_STEP = 6)
    (hk : s.slotTried = some k.val) (hr : s.slotReason k = 0) :
    ∃ t, exec .imageRead s = .next t ∧ t.mode = .boot ∧ t.fld SYS_MODE.BOOT_STEP = 7 ∧ t.booted = some k.val ∧
      t.fld SYS_STATUS.SLOT = k ∧ t.fld NVM_SLOT.BOOTED = k ∧ Steady s t := by
  refine ⟨_, exec_imageRead_valid (State.bootAt_of_mode hm hs) hk hr, (State.mode_of_frame (s.bootFrom_frame k _)).trans hm,
    State.fld_put_same _ _ _ (by decide), rfl, ?_, ?_, steady_of_frame fun fd _ => s.bootFrom_frame k fd⟩
  · rw [State.bootFrom, State.bootStep, State.fld_put_ne _ _ (by decide), State.fld_put_ne _ _ (by decide),
      State.fld_put_same _ _ _ (by decide)]
    exact Nat.mod_eq_of_lt k.isLt
  · rw [State.bootFrom, State.bootStep, State.fld_put_ne _ _ (by decide), State.fld_put_same _ _ _ (by decide)]
    exact Nat.mod_eq_of_lt k.isLt

theorem imageRead_tries_other {k : Fin 2} {s : State} (hm : s.mode = .boot) (hs : s.fld SYS_MODE.BOOT_STEP = 6)
    (hk : s.slotTried = some k.val) (hr : s.slotReason k ≠ 0) (h1 : s.flag SYS_STATUS.SECOND_SLOT = false)
    (ho : s.headerReason (1 - k) = 0) :
    ∃ t, exec .imageRead s = .next t ∧ t.mode = .boot ∧ t.slotTried = some (1 - k.val) ∧
      t.flag SYS_STATUS.SECOND_SLOT = true ∧ t.fld SYS_MODE.BOOT_STEP = 6 := by
  refine ⟨_, (exec_imageRead_first (State.bootAt_of_mode hm hs) hk hr h1).trans (if_pos ho),
    (State.mode_of_frame (by simp)).trans hm, State.withSlotTried_slotTried _ _, ?_,
    (State.withSlotTried_fld _ _ _).trans ((s.slotFailed_bootStep k).trans hs)⟩
  rw [State.flag, State.withSlotTried_fld, ← State.flag]
  exact State.flag_put_one _ _ (by decide) (by decide)

theorem imageRead_gives_up {k : Fin 2} {s : State} (hm : s.mode = .boot) (hs : s.fld SYS_MODE.BOOT_STEP = 6)
    (hk : s.slotTried = some k.val) (hr : s.slotReason k ≠ 0)
    (hno : s.flag SYS_STATUS.SECOND_SLOT = true ∨ s.headerReason (1 - k) ≠ 0) :
    ∃ t, exec .imageRead s = .next t ∧ t.mode = .safe ∧ t.otp = s.otp := by
  have hat := State.bootAt_of_mode hm hs
  by_cases h2 : s.flag SYS_STATUS.SECOND_SLOT = true
  · exact fatal_of_boot hm (exec_imageRead_second hat hk hr h2) (State.setSlot_frame _ _ _ _) (State.setSlot_frame _ _ _ _)
  · have hexec := (exec_imageRead_first hat hk hr (Bool.not_eq_true _ ▸ h2)).trans (if_neg (hno.resolve_left h2))
    exact fatal_of_boot hm hexec (s.slotFailed_frame k (by decide)) (s.slotFailed_frame k (by decide))

/-! ## Step 7: the image applied (R79, R81) -/

theorem exec_apply_booted {k : Nat} {rb : List Readback} {s : State} (h : s.bootAt 7 = true) (hk : s.booted = some k) :
    exec (.apply rb) s = .next (s.applyImage rb ((bodyRecords (s.slotBody k)).getD [])) := by
  rw [exec_apply, execApply, if_pos h, hk]

/-- The first required type that is missing, if any. -/
def missingType (rs : List (Nat × List Byte)) : Option Nat := imageTypes.find? fun t => rs.all fun r => decide (r.1 ≠ t)

theorem missingType_none {rs : List (Nat × List Byte)} (h : ∀ ty ∈ imageTypes, ∃ r ∈ rs, r.1 = ty) : missingType rs = none := by
  refine List.find?_eq_none.2 fun ty hty hall => ?_
  obtain ⟨r, hr, he⟩ := h ty hty
  exact of_decide_eq_true (List.all_eq_true.1 hall r hr) he

theorem missingType_some {rs : List (Nat × List Byte)} {ty : Nat} (hty : ty ∈ imageTypes) (h : ∀ r ∈ rs, r.1 ≠ ty) :
    ∃ t, missingType rs = some t := by
  refine Option.isSome_iff_exists.1 (List.find?_isSome.2 ⟨ty, hty, ?_⟩)
  exact List.all_eq_true.2 fun r hr => decide_eq_true (h r hr)

theorem State.applyImage_of_missing {s : State} {rb : List Readback} {rs : List (Nat × List Byte)} {t : Nat}
    (h : missingType rs = some t) : s.applyImage rb rs = s.fatal 4 ((rs.length - 1) % 256) t := by
  rw [State.applyImage, show imageTypes.find? _ = some t from h]

theorem State.applyImage_of_refused {s : State} {rb : List Readback} {rs : List (Nat × List Byte)} {x : Nat × Nat}
    (h : missingType rs = none) (hx : (State.applyAll rb rs 0 s).2 = some x) :
    s.applyImage rb rs = (State.applyAll rb rs 0 s).1.fatal 4 (x.1 % 256) x.2 := by
  rw [State.applyImage, show imageTypes.find? _ = none from h]
  dsimp only
  rw [hx]

/-- The image applied and the calibration store brought into force: each die loads its clock, and step 8 comes next. -/
def State.stepEight (s : State) : State := (State.each State.loadClock (List.range 16) s).put SYS_MODE.BOOT_STEP 8

theorem State.applyImage_of_storeRefused {s : State} {rb : List Readback} {rs : List (Nat × List Byte)} {x : Nat × Nat}
    (h : missingType rs = none) (hall : (State.applyAll rb rs 0 s).2 = none)
    (hx : (State.applyAll rb rs 0 s).1.applyStore.2 = some x) :
    s.applyImage rb rs = (State.applyAll rb rs 0 s).1.applyStore.1.fatal 4 (x.1 % 256) x.2 := by
  rw [State.applyImage, show imageTypes.find? _ = none from h]
  dsimp only
  rw [hall]
  dsimp only
  rw [hx]

theorem State.applyImage_of_adopted {s : State} {rb : List Readback} {rs : List (Nat × List Byte)}
    (h : missingType rs = none) (hall : (State.applyAll rb rs 0 s).2 = none)
    (hx : (State.applyAll rb rs 0 s).1.applyStore.2 = none) :
    s.applyImage rb rs = (State.applyAll rb rs 0 s).1.applyStore.1.stepEight := by
  rw [State.applyImage, show imageTypes.find? _ = none from h]
  dsimp only
  rw [hall]
  dsimp only
  rw [hx, State.stepEight]

theorem State.loadClock_same (d : Nat) (s : State) : ((s.loadClock d).die d).clock.isSome = true := by
  rw [State.loadClock, State.setDie_same]
  rfl

/-- A die that has a copy of the count keeps one. -/
theorem State.loadClock_keeps {d : Nat} (e : Nat) (s : State) (h : (s.die d).clock.isSome = true) :
    ((s.loadClock e).die d).clock.isSome = true := by
  by_cases he : d = e
  · rw [he]
    exact s.loadClock_same e
  · rw [State.loadClock, State.setDie_ne _ _ he]
    exact h

theorem State.each_loadClock {d : Nat} {l : List Nat} (s : State) (h : d ∈ l) :
    ((State.each State.loadClock l s).die d).clock.isSome = true := by
  induction l generalizing s with
  | nil => cases h
  | cons e l ih =>
    rcases List.mem_cons.1 h with rfl | hl
    · exact State.each_keeps (P := fun u => (u.die d).clock.isSome = true) State.loadClock
        (fun e u hu => State.loadClock_keeps e u hu) l _ (s.loadClock_same d)
    · exact ih _ hl

theorem State.stepEight_clock (s : State) {d : Nat} (h : d < 16) : (s.stepEight.die d).clock.isSome = true :=
  (congrArg (fun x => x.clock.isSome) (State.put_die _ _ _ _)).trans (s.each_loadClock (List.mem_range.2 h))

@[simp] theorem State.stepEight_frame (s : State) (fd : Followed) : s.stepEight.rd fd = s.rd fd := by
  simp [State.stepEight]

/-- The records, then the store, leave all but DRAM. -/
theorem State.applied_frame (s : State) (rb : List Readback) (rs : List (Nat × List Byte)) {fd : Followed} (h : fd ≠ .dram) :
    (State.applyAll rb rs 0 s).1.applyStore.1.rd fd = s.rd fd := by
  rw [State.applyStore_frame _ _ h, State.applyAll_frame _ _ _ _ _ h]

theorem apply_of_records {k : Nat} {rb : List Readback} {rs : List (Nat × List Byte)} {s : State} (hm : s.mode = .boot)
    (hs : s.fld SYS_MODE.BOOT_STEP = 7) (hk : s.booted = some k) (hrs : bodyRecords (s.slotBody k) = some rs) :
    exec (.apply rb) s = .next (s.applyImage rb rs) := by
  rw [exec_apply_booted (State.bootAt_of_mode hm hs) hk, hrs, Option.getD_some]

theorem apply_all_records {k : Nat} {rb : List Readback} {rs : List (Nat × List Byte)} {s : State} (hm : s.mode = .boot)
    (hs : s.fld SYS_MODE.BOOT_STEP = 7) (hk : s.booted = some k) (hrs : bodyRecords (s.slotBody k) = some rs)
    (htypes : ∀ ty ∈ imageTypes, ∃ r ∈ rs, r.1 = ty) (hall : (State.applyAll rb rs 0 s).2 = none) :
    ∃ t, exec (.apply rb) s = .next t ∧ t.otp = s.otp ∧
      (if ((State.applyAll rb rs 0 s).1.applyStore).2 = none then
        t.mode = .boot ∧ t.fld SYS_MODE.BOOT_STEP = 8 ∧ t.flash = s.flash ∧ (∀ d, d < 16 → (t.die d).clock.isSome = true)
       else t.mode = .safe) := by
  have hexec := apply_of_records (rb := rb) hm hs hk hrs
  have hframe : ∀ {fd : Followed}, fd ≠ .dram → (State.applyAll rb rs 0 s).1.applyStore.1.rd fd = s.rd fd :=
    fun h => s.applied_frame rb rs h
  cases hstore : (State.applyAll rb rs 0 s).1.applyStore.2 with
  | some x =>
    rw [State.applyImage_of_storeRefused (missingType_none htypes) hall hstore] at hexec
    obtain ⟨t, ht, hsafe, hotp⟩ := fatal_of_boot hm hexec (hframe (by decide)) (hframe (by decide))
    exact ⟨t, ht, hotp, by rw [if_neg (by simp)]; exact hsafe⟩
  | none =>
    rw [State.applyImage_of_adopted (missingType_none htypes) hall hstore] at hexec
    have hframe' : ∀ {fd : Followed}, fd ≠ .dram → (State.applyAll rb rs 0 s).1.applyStore.1.stepEight.rd fd = s.rd fd :=
      fun h => (State.stepEight_frame _ _).trans (hframe h)
    refine ⟨_, hexec, State.otp_of_frame (hframe' (by decide)), ?_⟩
    rw [if_pos rfl]
    exact ⟨(State.mode_of_frame (hframe' (by decide))).trans hm, State.fld_put_same _ _ _ (by decide),
      hframe' (fd := .flash) (by decide), fun d hd => State.stepEight_clock _ hd⟩

theorem apply_missing_record {k ty : Nat} {rb : List Readback} {s : State} (hm : s.mode = .boot)
    (hs : s.fld SYS_MODE.BOOT_STEP = 7) (hk : s.booted = some k) (hty : ty ∈ imageTypes)
    (hno : ∀ r ∈ (bodyRecords (s.slotBody k)).getD [], r.1 ≠ ty) :
    ∃ t, exec (.apply rb) s = .next t ∧ t.mode = .safe ∧ t.otp = s.otp := by
  obtain ⟨u, hu⟩ := missingType_some hty hno
  have hexec := exec_apply_booted (rb := rb) (State.bootAt_of_mode hm hs) hk
  rw [State.applyImage_of_missing hu] at hexec
  exact fatal_of_boot hm hexec rfl rfl

theorem apply_refused_record {k i ty : Nat} {rb : List Readback} {rs : List (Nat × List Byte)} {s : State} (hm : s.mode = .boot)
    (hs : s.fld SYS_MODE.BOOT_STEP = 7) (hk : s.booted = some k) (hrs : bodyRecords (s.slotBody k) = some rs)
    (htypes : ∀ ty ∈ imageTypes, ∃ r ∈ rs, r.1 = ty) (hall : (State.applyAll rb rs 0 s).2 = some (i, ty)) :
    ∃ t, exec (.apply rb) s = .next t ∧ t.mode = .safe ∧ t.otp = s.otp :=
  fatal_of_boot hm
    ((apply_of_records hm hs hk hrs).trans (congrArg _ (State.applyImage_of_refused (missingType_none htypes) hall)))
    (State.applyAll_frame _ _ _ _ _ (by decide)) (State.applyAll_frame _ _ _ _ _ (by decide))

/-! ## Step 8: IDLE entered (R33) -/

/-- BOOT ends in IDLE. -/
def State.bootEnd (s : State) : State := ((s.bootStep 0xF).setMode .idle).put SYS_STATUS.TRANSIT 0

theorem exec_idleEntry_of_boot {s : State} (h : s.bootAt 8 = true) : exec .idleEntry s = .next s.bootEnd := by
  rw [exec_idleEntry, execIdleEntry, if_pos h, State.bootEnd]

theorem idleEntry_leads_to_idle {s : State} (hm : s.mode = .boot) (hs : s.fld SYS_MODE.BOOT_STEP = 8) :
    ∃ t, exec .idleEntry s = .next t ∧ t.mode = .idle ∧ t.fld SYS_MODE.BOOT_STEP = 0xF ∧
      t.flag SYS_STATUS.TRANSIT = false ∧ Still s t ∧ RegsButEvents [SYS_MODE.addr, SYS_STATUS.addr] s t := by
  refine ⟨_, exec_idleEntry_of_boot (State.bootAt_of_mode hm hs), ?_, ?_, State.flag_put_zero _ _ (by decide),
    still_of_frame fun fd hd hmode _ _ => ?_, fun a ha he => ?_⟩
  · rw [State.bootEnd, State.put_mode, State.setMode_mode]
  · rw [State.bootEnd, State.fld_put_ne _ _ (by decide), State.setMode_fld _ (by decide)]
    exact State.fld_put_same _ _ _ (by decide)
  · simp [State.bootEnd, State.bootStep, hd, hmode]
  · simp only [List.mem_cons, List.not_mem_nil, or_false, not_or] at ha
    obtain ⟨hmodeAddr, hstatusAddr⟩ := ha
    rw [State.bootEnd, State.reg_put_ne _ _ hstatusAddr, State.setMode_reg _ he]
    exact State.reg_put_ne _ _ hmodeAddr

/-- Settles O11: each step of BOOT from 5 to 8 goes on, or ends in a fatal fault, which leads from BOOT to SAFE. -/
theorem imageLoadingCompletes : Obligations.ImageLoadingCompletes := by
  unfold Obligations.ImageLoadingCompletes
  refine ⟨fun f k s hm hs hf hk => nvmDiscovery_finds_slot hm hs hf hk, fun s hm hs => ?_, fun f s hm hs hf hk => ?_,
    fun f s hm hs hf => ?_, fun k s hm hs hk hr => imageRead_boots hm hs hk hr,
    fun k s hm hs hk hr h1 ho => imageRead_tries_other hm hs hk hr h1 ho,
    fun k s hm hs hk hr hno => imageRead_gives_up hm hs hk hr hno,
    fun k rb rs s hm hs hk hrs htypes hall => apply_all_records hm hs hk hrs htypes hall,
    fun k ty rb s hm hs hk hty hno => apply_missing_record hm hs hk hty hno,
    fun k i ty rb rs s hm hs hk hrs htypes hall => apply_refused_record hm hs hk hrs htypes hall,
    fun s hm hs => idleEntry_leads_to_idle hm hs⟩
  · exact fatal_of_boot hm (exec_nvmDiscovery_none (State.bootAt_of_mode hm hs)) (s.tearUnit_frame _) (s.tearUnit_frame _)
  · exact fatal_of_boot hm (exec_nvmDiscovery_noSlot (State.bootAt_of_mode hm hs) hf ((s.discovered_firstSlot f).trans hk))
      (s.discovered_frame f _) (s.discovered_frame f _)
  · exact fatal_of_boot hm (exec_nvmDiscovery_refused (State.bootAt_of_mode hm hs) hf) (s.tearUnit_frame _) (s.tearUnit_frame _)

end Sys2Proof.Machine
end

section
/-! SUPPORT. The NVM port takes a command: the refusals, the idle port, the unit that comes next (05, R87, R88). -/

namespace Sys2Proof.Machine

/-! ## What a command's bookkeeping leaves of the port -/

/-- The job of the port and the registers NVM_STATUS and NVM_SLOT are all that differs. -/
def PortKept (s t : State) : Prop :=
  (t.withRegs s.regs).withNvm s.nvm = s ∧ RegsBut [NVM_STATUS.addr, NVM_SLOT.addr] s t

theorem PortKept.refl (s : State) : PortKept s s := ⟨rfl, fun _ _ => rfl⟩

theorem PortKept.trans {s t u : State} (h : PortKept s t) (k : PortKept t u) : PortKept s u := by
  obtain ⟨hrest, hregs⟩ := h
  obtain ⟨krest, kregs⟩ := k
  refine ⟨?_, fun a ha => (kregs a ha).trans (hregs a ha)⟩
  calc
    (u.withRegs s.regs).withNvm s.nvm = (((u.withRegs t.regs).withNvm t.nvm).withRegs s.regs).withNvm s.nvm := rfl
    _ = s := by rw [krest, hrest]

theorem PortKept.put (s : State) {f : Field} (v : Nat) (h : f.addr = NVM_STATUS.addr ∨ f.addr = NVM_SLOT.addr) :
    PortKept s (s.put f v) := by
  refine ⟨rfl, fun a ha => State.reg_put_ne s v fun e => ha ?_⟩
  rw [e]
  simpa using h

theorem PortKept.withNvm (s : State) (j : Option NvmJob) : PortKept s (s.withNvm j) := ⟨rfl, fun _ _ => rfl⟩

theorem PortKept.setSlot (s : State) (k reason : Nat) : PortKept s (s.setSlot k reason) := by
  unfold State.setSlot State.putB
  split
  · exact (PortKept.put s _ (.inr rfl)).trans (.put _ _ (.inr rfl))
  · exact (PortKept.put s _ (.inr rfl)).trans (.put _ _ (.inr rfl))

theorem PortKept.ite {s t u : State} {p : Prop} [Decidable p] (ht : PortKept s t) (hu : PortKept s u) :
    PortKept s (if p then t else u) := by
  split
  · exact ht
  · exact hu

theorem PortKept.nvmSoil (s : State) (op addr len slot : Nat) : PortKept s (s.nvmSoil op addr len slot) := by
  have first : PortKept s
      (if s.reaches (s.nvmSpan op addr len slot).1 (s.nvmSpan op addr len slot).2 0 then s.setSlot 0 8 else s) :=
    .ite (.setSlot s _ _) (.refl s)
  exact .ite (first.trans (.ite (.setSlot _ _ _) (.refl _))) (.refl s)

theorem PortKept.fld {s t : State} {f : Field} (h : PortKept s t) (hf : f.addr ∉ [NVM_STATUS.addr, NVM_SLOT.addr]) :
    t.fld f = s.fld f :=
  State.fld_congr (h.2 _ hf)

theorem PortKept.flag {s t : State} {f : Field} (h : PortKept s t) (hf : f.addr ∉ [NVM_STATUS.addr, NVM_SLOT.addr]) :
    t.flag f = s.flag f :=
  State.flag_of_fld (h.fld hf)

theorem PortKept.unit_eq {s t : State} (h : PortKept s t) : t.unit = s.unit := (congrArg State.unit h.1 :)

theorem PortKept.persist_eq {s t : State} (h : PortKept s t) : t.persist = s.persist := (congrArg State.persist h.1 :)

theorem PortKept.shed_eq {s t : State} (h : PortKept s t) : t.shed = s.shed := (congrArg State.shed h.1 :)

theorem PortKept.mboxBytes_eq {s t : State} (h : PortKept s t) (a n : Nat) : t.mboxBytes a n = s.mboxBytes a n := by
  have hmailbox : t.mailbox = s.mailbox := (congrArg State.mailbox h.1 :)
  rw [State.mboxBytes, State.mboxBytes, hmailbox]

theorem PortKept.pageSize_eq {s t : State} (h : PortKept s t) : t.pageSize = s.pageSize := by
  rw [State.pageSize, State.pageSize, h.fld (by decide)]

theorem PortKept.persistWants_eq {s t : State} (h : PortKept s t) : t.persistWants = s.persistWants := by
  rw [State.persistWants, State.persistWants, h.persist_eq, h.shed_eq, h.flag (by decide), h.fld (by decide)]

/-- The hold-up energy, the shedding and the temperature are as before (R49, R54). -/
theorem PortKept.flashMay_eq {s t : State} (h : PortKept s t) : t.flashMay = s.flashMay := by
  have hvolt : t.fld PWR_HOLDUP_V.V = s.fld PWR_HOLDUP_V.V := h.fld (by decide)
  have hcap : t.fld PWR_HOLDUP_CAP.CAP = s.fld PWR_HOLDUP_CAP.CAP := h.fld (by decide)
  have hneed : t.fld PWR_HOLDUP_NEED.NEED = s.fld PWR_HOLDUP_NEED.NEED := h.fld (by decide)
  have htemp : t.fld PWR_TEMP_MAX.TEMP = s.fld PWR_TEMP_MAX.TEMP := h.fld (by decide)
  rw [State.flashMay, State.flashMay, State.energyOk, State.energyOk, State.holdupE, State.holdupE, State.tempHot, State.tempHot,
    h.shed_eq, hvolt, hcap, hneed, htemp]

/-- The unit that comes next depends on the page size and the NVM buffer alone. -/
theorem PortKept.nextUnit_eq {s t : State} (h : PortKept s t) (l : List FlashUnit) : t.nextUnit l = s.nextUnit l := by
  cases l with
  | nil => rfl
  | cons u r => cases u <;> simp only [State.nextUnit, h.pageSize_eq, h.mboxBytes_eq]

/-! ## The unit that comes next (R88) -/

theorem State.nextUnit_read (s : State) (a n : Nat) (r : List FlashUnit) :
    ∃ r', s.nextUnit (.read a n :: r) = some (.read a (min n 256), r') := by
  by_cases h : n ≤ 256
  · exact ⟨r, by rw [State.nextUnit, if_pos h, Nat.min_eq_left h]⟩
  · exact ⟨_, by rw [State.nextUnit, if_neg h, Nat.min_eq_right (by omega)]⟩

theorem State.nextUnit_erase (s : State) (a n : Nat) (r : List FlashUnit) :
    ∃ r', s.nextUnit (.erase a n :: r) = some (.erase a 1, r') := by
  by_cases h : n ≤ 1
  · exact ⟨r, by rw [State.nextUnit, if_pos h]⟩
  · exact ⟨_, by rw [State.nextUnit, if_neg h]⟩

/-- At the start of a page the unit is the page, or less where the buffer holds less. -/
theorem State.nextUnit_buffer {s : State} {a : Nat} (n : Nat) (r : List FlashUnit) (h : a % s.pageSize = 0) :
    ∃ r', s.nextUnit (.buffer a 0 n :: r) = some (.program a (s.mboxBytes 0x30000 (min n s.pageSize)), r') := by
  rw [State.nextUnit, h]
  exact ⟨_, rfl⟩

/-! ## The idle port -/

/-- No unit is in progress, and none but a command's comes before (R86, R345, R51). -/
def PortIdle (s : State) : Prop :=
  s.unit = none ∧ s.persistWants = false ∧ s.persist.ahead = none ∧ s.persist.wipe = none ∧ s.shed = none

theorem PortKept.portIdle {s t : State} (h : PortKept s t) (hs : PortIdle s) : PortIdle t := by
  rw [PortIdle, h.unit_eq, h.persistWants_eq, h.persist_eq, h.shed_eq]
  exact hs

theorem State.nvmKick_of_idle {s : State} (h : PortIdle s) : s.nvmKick = s.cmdKick.nvmFlags := by
  obtain ⟨hunit, hwants, hahead, hwipe, hshed⟩ := h
  rw [State.nvmKick, if_neg (by simp [hunit]), if_neg (by simp [hwants]), if_neg (by simp [hshed]), hahead, hwipe]

theorem State.cmdKick_starts {s : State} {j : NvmJob} {u : FlashUnit} {r : List FlashUnit} (hj : s.nvm = some j)
    (hu : s.nextUnit j.todo = some (u, r)) (hmay : u.gated = false ∨ s.flashMay = true) :
    s.cmdKick = (s.withUnit (some u)).withNvm (some { j with todo := r, since := s.time.toNat }) := by
  simp only [State.cmdKick, hj, hu]
  exact if_pos hmay

theorem State.cmdKick_waits {s : State} {j : NvmJob} {u : FlashUnit} {r : List FlashUnit} (hj : s.nvm = some j)
    (hu : s.nextUnit j.todo = some (u, r)) (hg : u.gated = true) (hmay : s.flashMay = false) : s.cmdKick = s := by
  simp only [State.cmdKick, hj, hu]
  exact if_neg (by simp [hg, hmay])

/-! ## NVM_STATUS -/

theorem State.nvmFlags_reg_ne (s : State) {a : Nat} (h : a ≠ NVM_STATUS.addr) : s.nvmFlags.reg a = s.reg a := by
  unfold State.nvmFlags
  dsimp only
  rw [State.reg_putB_ne _ _ h, State.reg_putB_ne _ _ h, State.reg_putB_ne _ _ h]

/-- A field apart from PENDING, HOLDUP_LOW and TEMP_HIGH. -/
theorem State.nvmFlags_fld (s : State) {f : Field} (ha : f.addr = NVM_STATUS.addr) (h : f.lo + f.len ≤ 1 ∨ 4 ≤ f.lo) :
    s.nvmFlags.fld f = s.fld f := by
  unfold State.nvmFlags State.putB
  dsimp only
  have hmiss : ∀ (u : State) (v : Nat) {g : Field}, g.addr = NVM_STATUS.addr → 1 ≤ g.lo → g.lo + g.len ≤ 4 →
      (u.put g v).fld f = u.fld f :=
    fun u v g hg h1 h2 => State.fld_put_apart u v (ha.trans hg.symm) (by omega) (by omega)
  rw [hmiss _ _ rfl (by decide) (by decide), hmiss _ _ rfl (by decide) (by decide), hmiss _ _ rfl (by decide) (by decide)]

theorem State.nvmFlags_pending (s : State) : s.nvmFlags.flag NVM_STATUS.PENDING = (s.unit.isNone && s.cmdGated) := by
  unfold State.nvmFlags
  dsimp only
  rw [State.flag, State.putB, State.fld_put_apart _ _ (by decide) (by decide) (by decide), State.putB,
    State.fld_put_apart _ _ (by decide) (by decide) (by decide), ← State.flag]
  exact State.flag_putB_same _ _ _ (by decide) rfl

/-! ## A command taken or refused -/

/-- A job put down, before its first unit: BUSY, LAST_OP, DONE = 0. -/
def State.nvmBegun (s : State) (j : NvmJob) : State :=
  (((s.put NVM_STATUS.BUSY 1).put NVM_STATUS.LAST_OP j.op).put NVM_STATUS.DONE 0).withNvm (some j)

theorem PortKept.nvmBegun (s : State) (j : NvmJob) : PortKept s (s.nvmBegun j) :=
  (((PortKept.put s 1 (.inl rfl)).trans (.put _ _ (.inl rfl))).trans (.put _ _ (.inl rfl))).trans (.withNvm _ _)

theorem State.nvmBegun_nvm (s : State) (j : NvmJob) : (s.nvmBegun j).nvm = some j := State.withNvm_nvm _ _

theorem State.withNvm_reg (s : State) (j : Option NvmJob) (a : Nat) : (s.withNvm j).reg a = s.reg a := rfl

theorem State.withUnit_reg (s : State) (u : Option FlashUnit) (a : Nat) : (s.withUnit u).reg a = s.reg a := rfl

theorem State.nvmBegun_reg_ne (s : State) (j : NvmJob) {a : Nat} (h : a ≠ NVM_STATUS.addr) :
    (s.nvmBegun j).reg a = s.reg a := by
  rw [State.nvmBegun, State.withNvm_reg, State.reg_put_ne _ _ h, State.reg_put_ne _ _ h, State.reg_put_ne _ _ h]

theorem State.nvmBegun_busy (s : State) (j : NvmJob) : (s.nvmBegun j).fld NVM_STATUS.BUSY = 1 := by
  rw [State.nvmBegun, State.fld_congr (State.withNvm_reg _ _ _), State.fld_put_apart _ _ (by decide) (by decide) (by decide),
    State.fld_put_apart _ _ (by decide) (by decide) (by decide), State.fld_put_same _ _ _ (by decide)]
  rfl

theorem State.nvmBegun_lastOp (s : State) (j : NvmJob) : (s.nvmBegun j).fld NVM_STATUS.LAST_OP = j.op % 2 ^ 4 := by
  rw [State.nvmBegun, State.fld_congr (State.withNvm_reg _ _ _), State.fld_put_apart _ _ (by decide) (by decide) (by decide),
    State.fld_put_same _ _ _ (by decide)]
  rfl

theorem State.nvmCommand_of_taken {s : State} {op addr len slot : Nat} {src : NvmSrc} {signed_ : Bool}
    (h : s.nvmRefuse op addr len slot signed_ = 0) :
    s.nvmCommand op addr len slot src signed_ =
      ((s.nvmSoil op addr len slot).nvmBegun (s.nvmJob op addr len slot src)).nvmKick := by
  rw [State.nvmCommand, h]
  exact if_neg (not_not_intro rfl)

/-- RESULT, LAST_OP and DONE of a command that is refused. -/
def State.nvmRefused (s : State) (op r : Nat) : State :=
  ((s.put NVM_STATUS.RESULT r).put NVM_STATUS.LAST_OP op).put NVM_STATUS.DONE 0

theorem State.nvmCommand_of_refused {s : State} {op addr len slot : Nat} {signed_ : Bool}
    (h : s.nvmRefuse op addr len slot signed_ ≠ 0) :
    s.nvmCommand op addr len slot .reg signed_ = s.nvmRefused op (s.nvmRefuse op addr len slot signed_) := by
  rw [State.nvmCommand]
  exact if_pos h

theorem State.nvmRefused_result (s : State) (op : Nat) {r : Nat} (h : r < 16) :
    (s.nvmRefused op r).fld NVM_STATUS.RESULT = r := by
  rw [State.nvmRefused, State.fld_put_apart _ _ (by decide) (by decide) (by decide),
    State.fld_put_apart _ _ (by decide) (by decide) (by decide), State.fld_put_same _ _ _ (by decide)]
  exact Nat.mod_eq_of_lt h

theorem OnlyRegs.trans {as : List Nat} {s t u : State} (h : OnlyRegs as s t) (k : OnlyRegs as t u) : OnlyRegs as s u := by
  obtain ⟨hrest, hregs⟩ := h
  obtain ⟨krest, kregs⟩ := k
  refine ⟨?_, fun a ha => (kregs a ha).trans (hregs a ha)⟩
  calc
    u.withRegs s.regs = (u.withRegs t.regs).withRegs s.regs := rfl
    _ = s := by rw [krest, hrest]

theorem State.nvmRefused_onlyRegs (s : State) (op r : Nat) : OnlyRegs [NVM_STATUS.addr] s (s.nvmRefused op r) :=
  OnlyRegs.trans (OnlyRegs.trans (s.put_onlyRegs NVM_STATUS.RESULT r) (State.put_onlyRegs _ NVM_STATUS.LAST_OP op))
    (State.put_onlyRegs _ NVM_STATUS.DONE 0)

theorem State.nvmRefuse_lt (s : State) (op addr len slot : Nat) (signed_ : Bool) : s.nvmRefuse op addr len slot signed_ < 16 := by
  unfold State.nvmRefuse
  dsimp only
  split_ifs <;> decide

/-- A PROGRAM that is not refused begins at the start of a page (Table 5-8). -/
theorem State.aligned_of_nvmRefuse {s : State} {addr len slot : Nat} {signed_ : Bool}
    (h : s.nvmRefuse 2 addr len slot signed_ = 0) : addr % s.pageSize = 0 := by
  by_contra hne
  unfold State.nvmRefuse at h
  dsimp only at h
  rw [if_pos (c := 2 = 2 ∧ addr % s.pageSize ≠ 0) ⟨rfl, hne⟩] at h
  split_ifs at h

theorem State.nvmSoil_of_other (s : State) {op : Nat} (addr len slot : Nat) (h : op ∉ [2, 3, 4]) :
    s.nvmSoil op addr len slot = s := by
  refine if_neg fun ho => h ?_
  simpa using ho

/-- A command taken by the idle port, with the unit that comes first. -/
theorem State.nvmCommand_starts {s : State} {op addr len slot : Nat} {src : NvmSrc} {signed_ : Bool} {u : FlashUnit}
    (hr : s.nvmRefuse op addr len slot signed_ = 0) (hidle : PortIdle s)
    (hnext : ∃ r, s.nextUnit (s.nvmJob op addr len slot src).todo = some (u, r)) (hmay : u.gated = false ∨ s.flashMay = true) :
    ∃ j, s.nvmCommand op addr len slot src signed_ =
      ((((s.nvmSoil op addr len slot).nvmBegun (s.nvmJob op addr len slot src)).withUnit (some u)).withNvm
        (some j)).nvmFlags := by
  have hkept := (PortKept.nvmSoil s op addr len slot).trans (.nvmBegun _ (s.nvmJob op addr len slot src))
  obtain ⟨r, hu⟩ := hnext
  have hstarts := State.cmdKick_starts (State.nvmBegun_nvm _ _) ((hkept.nextUnit_eq _).trans hu) (by rwa [hkept.flashMay_eq])
  exact ⟨_, (State.nvmCommand_of_taken hr).trans
    ((State.nvmKick_of_idle (hkept.portIdle hidle)).trans (congrArg State.nvmFlags hstarts))⟩

/-- A command taken by the idle port whose first unit is deferred. -/
theorem State.nvmCommand_waits {s : State} {op addr len slot : Nat} {src : NvmSrc} {signed_ : Bool} {u : FlashUnit}
    (hr : s.nvmRefuse op addr len slot signed_ = 0) (hidle : PortIdle s)
    (hnext : ∃ r, s.nextUnit (s.nvmJob op addr len slot src).todo = some (u, r)) (hg : u.gated = true)
    (hmay : s.flashMay = false) :
    s.nvmCommand op addr len slot src signed_ =
        ((s.nvmSoil op addr len slot).nvmBegun (s.nvmJob op addr len slot src)).nvmFlags ∧
      ((s.nvmSoil op addr len slot).nvmBegun (s.nvmJob op addr len slot src)).cmdGated = true := by
  have hkept := (PortKept.nvmSoil s op addr len slot).trans (.nvmBegun _ (s.nvmJob op addr len slot src))
  obtain ⟨r, hu⟩ := hnext
  have hu' := (hkept.nextUnit_eq _).trans hu
  refine ⟨?_, ?_⟩
  · rw [State.nvmCommand_of_taken hr, State.nvmKick_of_idle (hkept.portIdle hidle),
      State.cmdKick_waits (State.nvmBegun_nvm _ _) hu' hg (by rwa [hkept.flashMay_eq])]
  · simp only [State.cmdGated, State.nvmBegun_nvm, hu', hg]

end Sys2Proof.Machine
end

section
/-! PROOF. NVM commands start, wait, are refused or are aborted (O19). -/

namespace Sys2Proof.Machine

/-! ## The write of NVM_CMD (R87) -/

/-- NVM_CMD with its KEY and an OP. -/
def nvmWord (op : Nat) : Word := BitVec.ofNat 32 (0xA5000000 + op)

theorem nvmWord_fields {op : Nat} (h : op ≤ 7) :
    wfld (nvmWord op) NVM_CMD.OP = op ∧ wfld (nvmWord op) NVM_CMD.KEY = 0xA5 ∧ reservedBits NVM_CMD.addr (nvmWord op) = 0 := by
  interval_cases op <;> decide

/-- NVM_CMD is written in every mode with power. -/
theorem State.access_nvmCmd {s : State} (ho : s.mode ≠ .off) : s.access NVM_CMD.addr = .full := by
  unfold State.access
  split
  next h => exact absurd h ho
  all_goals decide

theorem State.nvmWrite_of_on {s : State} {op : Nat} (ho : s.mode ≠ .off) (hop : op ≤ 7) :
    s.nvmWrite op = s.writeNvmCmd (nvmWord op) := by
  obtain ⟨-, -, hreserved⟩ := nvmWord_fields hop
  exact State.hostWrite_of_access _ (State.access_nvmCmd ho) hreserved

/-- A command by register, with its parameters in NVM_ADDR, NVM_LEN and NVM_SLOT, while none runs. -/
theorem State.nvmWrite_command {s : State} {op : Nat} (ho : s.mode ≠ .off) (hn : s.nvm = none) (hop : op < 7) :
    s.nvmWrite op = s.nvmCommand op (s.fld NVM_ADDR.ADDR) (s.fld NVM_LEN.LEN) (s.fld NVM_SLOT.SEL) .reg false := by
  obtain ⟨hOp, hKey, -⟩ := nvmWord_fields hop.le
  rw [State.nvmWrite_of_on ho hop.le, State.writeNvmCmd, hOp, hKey, hn]
  exact (if_neg (by decide)).trans (if_neg hop.ne)

/-- A command while one runs. -/
theorem State.nvmWrite_busy {s : State} {op : Nat} {j : NvmJob} (ho : s.mode ≠ .off) (hn : s.nvm = some j) (hop : op < 7) :
    s.nvmWrite op = s.put NVM_STATUS.RESULT 1 := by
  obtain ⟨hOp, -, -⟩ := nvmWord_fields hop.le
  rw [State.nvmWrite_of_on ho hop.le, State.writeNvmCmd, hOp, hn]
  exact if_neg fun ⟨_, hAbort⟩ => hop.ne hAbort

theorem State.nvmWrite_abort_none {s : State} (ho : s.mode ≠ .off) (hn : s.nvm = none) :
    s.nvmWrite 7 = (s.put NVM_STATUS.RESULT 0).put NVM_STATUS.LAST_OP 7 := by
  obtain ⟨hOp, hKey, -⟩ := nvmWord_fields (op := 7) le_rfl
  rw [State.nvmWrite_of_on ho le_rfl, State.writeNvmCmd, hOp, hKey, hn]
  exact (if_neg (by decide)).trans (if_pos rfl)

theorem State.nvmWrite_abort_unit {s : State} {j : NvmJob} (ho : s.mode ≠ .off) (hn : s.nvm = some j) (hu : s.jobUnit = true) :
    s.nvmWrite 7 = s.withNvm (some { j with aborted := true }) := by
  obtain ⟨hOp, hKey, -⟩ := nvmWord_fields (op := 7) le_rfl
  rw [State.nvmWrite_of_on ho le_rfl, State.writeNvmCmd, hOp, hKey, hn]
  exact (if_pos (by decide)).trans (if_pos hu)

/-! ## What a command that is taken leaves -/

/-- The registers that the write of an OP may change: NVM_STATUS, and NVM_SLOT where the OP soils slots (R89). -/
def nvmRegs (op : Nat) : List Nat := if op ∈ [2, 3, 4] then [NVM_STATUS.addr, NVM_SLOT.addr] else [NVM_STATUS.addr]

theorem State.nvmSoil_regsBut (s : State) (op addr len slot : Nat) : RegsBut (nvmRegs op) s (s.nvmSoil op addr len slot) := by
  unfold nvmRegs
  split
  · exact (PortKept.nvmSoil s op addr len slot).2
  next h =>
    rw [State.nvmSoil_of_other s addr len slot h]
    exact fun _ _ => rfl

theorem nvmStatus_mem_nvmRegs (op : Nat) : NVM_STATUS.addr ∈ nvmRegs op := by
  unfold nvmRegs
  split <;> simp

theorem ne_nvmStatus_of_not_mem {op a : Nat} (h : a ∉ nvmRegs op) : a ≠ NVM_STATUS.addr := by
  rintro rfl
  exact h (nvmStatus_mem_nvmRegs op)

theorem State.nvmBegun_nvmSoil_regsBut (s : State) (op addr len slot : Nat) (j : NvmJob) :
    RegsBut (nvmRegs op) s ((s.nvmSoil op addr len slot).nvmBegun j) := fun a ha => by
  rw [State.nvmBegun_reg_ne _ _ (ne_nvmStatus_of_not_mem ha), s.nvmSoil_regsBut op addr len slot a ha]

theorem State.nvmWrite_steady {s : State} {op : Nat} (ho : s.mode ≠ .off) (hn : s.nvm = none) (hop : op < 7) :
    Steady s (s.nvmWrite op) := by
  rw [State.nvmWrite_command ho hn hop]
  exact steady_of_frame fun fd _ => State.nvmCommand_frame _ _ _ _ _ _ _ fd

/-- The command by register: the job that it begins. -/
def State.regJob (s : State) (op : Nat) : NvmJob :=
  s.nvmJob op (s.fld NVM_ADDR.ADDR) (s.fld NVM_LEN.LEN) (s.fld NVM_SLOT.SEL) .reg

/-- The RESULT with which the command by register is refused. -/
def State.regRefuse (s : State) (op : Nat) : Nat :=
  s.nvmRefuse op (s.fld NVM_ADDR.ADDR) (s.fld NVM_LEN.LEN) (s.fld NVM_SLOT.SEL) false

/-- A command that the idle port takes begins with its first unit. -/
theorem nvmWrite_starts {s : State} {op : Nat} {u : FlashUnit} (ho : s.mode ≠ .off) (hn : s.nvm = none) (hop : op < 7)
    (hidle : PortIdle s) (hr : s.regRefuse op = 0) (hj : (s.regJob op).op = op)
    (hnext : ∃ r, s.nextUnit (s.regJob op).todo = some (u, r)) (hmay : u.gated = false ∨ s.flashMay = true) :
    (s.nvmWrite op).unit = some u ∧ (s.nvmWrite op).flag NVM_STATUS.BUSY = true ∧ (s.nvmWrite op).fld NVM_STATUS.LAST_OP = op ∧
      Steady s (s.nvmWrite op) ∧ RegsBut (nvmRegs op) s (s.nvmWrite op) := by
  obtain ⟨j, hcmd⟩ := State.nvmCommand_starts hr hidle hnext hmay
  have hwrite := (State.nvmWrite_command ho hn hop).trans hcmd
  have hfld : ∀ {f : Field}, f.addr = NVM_STATUS.addr → f.lo + f.len ≤ 1 ∨ 4 ≤ f.lo → (s.nvmWrite op).fld f =
      ((s.nvmSoil op (s.fld NVM_ADDR.ADDR) (s.fld NVM_LEN.LEN) (s.fld NVM_SLOT.SEL)).nvmBegun (s.regJob op)).fld f :=
    fun ha hl => by
      rw [hwrite, State.nvmFlags_fld _ ha hl]
      exact State.fld_congr ((State.withNvm_reg _ _ _).trans (State.withUnit_reg _ _ _))
  refine ⟨?_, ?_, ?_, State.nvmWrite_steady ho hn hop, fun a ha => ?_⟩
  · rw [hwrite, State.nvmFlags_unit]
  · rw [State.flag, hfld rfl (by decide), State.nvmBegun_busy]
    rfl
  · rw [hfld rfl (by decide), State.nvmBegun_lastOp, hj]
    exact Nat.mod_eq_of_lt (by omega)
  · rw [hwrite, State.nvmFlags_reg_ne _ (ne_nvmStatus_of_not_mem ha), State.withNvm_reg, State.withUnit_reg]
    exact s.nvmBegun_nvmSoil_regsBut op _ _ _ _ a ha

/-- A command that the idle port takes while its first unit may not start waits (R49, R54). -/
theorem nvmWrite_waits {s : State} {op : Nat} {u : FlashUnit} (ho : s.mode ≠ .off) (hn : s.nvm = none) (hop : op < 7)
    (hidle : PortIdle s) (hr : s.regRefuse op = 0) (hnext : ∃ r, s.nextUnit (s.regJob op).todo = some (u, r))
    (hg : u.gated = true) (hmay : s.flashMay = false) :
    (s.nvmWrite op).unit = none ∧ (s.nvmWrite op).flag NVM_STATUS.PENDING = true ∧ (s.nvmWrite op).flag NVM_STATUS.BUSY = true ∧
      Steady s (s.nvmWrite op) := by
  obtain ⟨hcmd, hgated⟩ := State.nvmCommand_waits hr hidle hnext hg hmay
  have hwrite := (State.nvmWrite_command ho hn hop).trans hcmd
  have hunit : (s.nvmWrite op).unit = none := by
    rw [hwrite, State.nvmFlags_unit]
    exact ((PortKept.nvmSoil s op _ _ _).trans (.nvmBegun _ _)).unit_eq.trans hidle.1
  refine ⟨hunit, ?_, ?_, State.nvmWrite_steady ho hn hop⟩
  · rw [hwrite, State.nvmFlags_unit] at hunit
    rw [hwrite, State.nvmFlags_pending, hgated, hunit]
    rfl
  · rw [hwrite, State.flag, State.nvmFlags_fld _ rfl (by decide), State.nvmBegun_busy]
    rfl

theorem nvmWrite_refused {s : State} {op : Nat} (ho : s.mode ≠ .off) (hn : s.nvm = none) (hop : op < 7)
    (hr : s.regRefuse op ≠ 0) :
    (s.nvmWrite op).fld NVM_STATUS.RESULT = s.regRefuse op ∧ OnlyRegs [NVM_STATUS.addr] s (s.nvmWrite op) := by
  have hwrite := (State.nvmWrite_command ho hn hop).trans (State.nvmCommand_of_refused hr)
  rw [hwrite]
  exact ⟨State.nvmRefused_result _ _ (State.nvmRefuse_lt _ _ _ _ _ _), State.nvmRefused_onlyRegs _ _ _⟩

/-- A CAL_COMMIT begins with the erase of its sectors (R84). -/
theorem State.regJob_calCommit_todo (s : State) : ∃ n r, (s.regJob 6).todo = .erase (s.calJob .reg).addr n :: r :=
  ⟨_, _, rfl⟩

/-- Settles O19: a command that is not refused puts its job down, and the idle port takes the job's first unit where it may
start; a refused one writes NVM_STATUS alone. -/
theorem nvmCommandsComplete : Obligations.NvmCommandsComplete := by
  unfold Obligations.NvmCommandsComplete
  refine ⟨fun s ho hn hunit hwants hahead hwipe hshed hr => ?_,
    fun s ho hn hunit hwants hahead hwipe hshed hmay hr => ?_,
    fun s ho hn hunit hwants hahead hwipe hshed hmay hr => ?_,
    fun s ho hn hunit hwants hahead hwipe hshed hmay hr => ?_,
    fun s ho hn hunit hwants hahead hwipe hshed hmay hr => ?_,
    fun s ho hn hunit hwants hahead hwipe hshed hr => ?_,
    fun s ho hn hunit hwants hahead hwipe hshed hmay hr => ?_,
    fun s ho hn hr => ?_, fun j s ho hn hj => ?_, fun s ho hn => ?_,
    fun j s ho hn => ?_⟩
  · exact ⟨_, exec_nvmRead s, nvmWrite_starts (op := 1) ho hn (by decide) ⟨hunit, hwants, hahead, hwipe, hshed⟩ hr rfl
      (s.nextUnit_read _ _ _) (.inl rfl)⟩
  · exact ⟨_, exec_nvmProgram s, nvmWrite_starts (op := 2) ho hn (by decide) ⟨hunit, hwants, hahead, hwipe, hshed⟩ hr rfl
      (State.nextUnit_buffer _ _ (State.aligned_of_nvmRefuse hr)) (.inr hmay)⟩
  · exact ⟨_, exec_nvmErase s, nvmWrite_starts (op := 3) ho hn (by decide) ⟨hunit, hwants, hahead, hwipe, hshed⟩ hr rfl
      (s.nextUnit_erase _ _ _) (.inr hmay)⟩
  · exact ⟨_, exec_nvmErase s, nvmWrite_waits (op := 3) ho hn (by decide) ⟨hunit, hwants, hahead, hwipe, hshed⟩ hr
      (s.nextUnit_erase _ _ _) rfl hmay⟩
  · obtain ⟨hstarted, -, hrest⟩ := nvmWrite_starts (op := 4) ho hn (by decide) ⟨hunit, hwants, hahead, hwipe, hshed⟩ hr rfl
      (s.nextUnit_erase _ _ _) (.inr hmay)
    exact ⟨_, exec_eraseSlot s, hstarted, hrest⟩
  · obtain ⟨hstarted, -, hrest⟩ := nvmWrite_starts (op := 5) ho hn (by decide) ⟨hunit, hwants, hahead, hwipe, hshed⟩ hr rfl
      (s.nextUnit_read _ _ _) (.inl rfl)
    exact ⟨_, exec_validateSlot s, hstarted, hrest⟩
  · obtain ⟨n, r, htodo⟩ := s.regJob_calCommit_todo
    obtain ⟨hstarted, -, hrest⟩ := nvmWrite_starts (op := 6) ho hn (by decide) ⟨hunit, hwants, hahead, hwipe, hshed⟩ hr rfl
      (htodo ▸ s.nextUnit_erase _ _ _) (.inr hmay)
    exact ⟨_, exec_calCommit s, hstarted, hrest⟩
  · exact ⟨_, exec_nvmErase s, nvmWrite_refused (op := 3) ho hn (by decide) hr⟩
  · refine ⟨_, (exec_nvmAbort s).trans (congrArg Host.Outcome.next (State.nvmWrite_abort_unit ho hn hj)), rfl, rfl⟩
  · refine ⟨_, (exec_nvmAbort s).trans (congrArg Host.Outcome.next (State.nvmWrite_abort_none ho hn)), ?_, ?_,
      OnlyRegs.trans (s.put_onlyRegs NVM_STATUS.RESULT 0) (State.put_onlyRegs _ NVM_STATUS.LAST_OP 7)⟩
    · rw [State.fld_put_apart _ _ (by decide) (by decide) (by decide), State.fld_put_same _ _ _ (by decide)]
      rfl
    · exact State.fld_put_same _ _ _ (by decide)
  · exact ⟨_, (exec_nvmErase s).trans (congrArg Host.Outcome.next (State.nvmWrite_busy ho hn (by decide))),
      State.fld_put_same _ _ _ (by decide), s.put_onlyRegs NVM_STATUS.RESULT 1⟩

end Sys2Proof.Machine
end

section
/-! SUPPORT. What the requests and results of a die's converter read and write (06, R109), and fields that a bus write keeps. -/

namespace Sys2Proof.Machine

/-! ## Fields after a bus write (R5) -/

theorem State.flag_eq_testBit (s : State) (a lo : Nat) : s.flag ⟨a, lo, 1⟩ = (s.reg a).toNat.testBit lo := by
  have hb : s.flag ⟨a, lo, 1⟩ = bitOf (s.reg a).toNat lo := by
    simp only [State.flag, State.fld, bitOf, bitsOf]
    exact decide_eq_decide.mpr (by omega)
  rw [hb, bitOf_eq_testBit]

/-- A store, bit by bit: an RW bit takes the written one, a W1C bit that is written is cleared, any other bit is kept. -/
theorem State.testBit_store {s : State} {a i : Nat} {r : RegRow} {ix : List Nat} (v : Word) (hr : regAt a = some (r, ix))
    (hl : s.locked a = false) (hi : i < 32) (hrw : r.rw < 2 ^ 32) (hw : r.w1c < 2 ^ 32) :
    ((s.store a v).reg a).toNat.testBit i =
      ((if r.rw.testBit i then v.toNat.testBit i else (s.reg a).toNat.testBit i) && !(v.toNat.testBit i && r.w1c.testBit i)) := by
  rw [State.reg_store v hr, hl, if_neg (by simp), BitVec.toNat_ofNat, Nat.mod_eq_of_lt (r.written_lt _ _),
    r.testBit_written hi hrw hw]

/-- A field of RW bits, none of them W1C, reads the written word's after a store. -/
theorem State.fld_store_of_rw_only {s : State} {a lo len : Nat} {r : RegRow} {ix : List Nat} (v : Word)
    (hr : regAt a = some (r, ix)) (hl : s.locked a = false) (hrw : r.rw < 2 ^ 32) (hw : r.w1c < 2 ^ 32) (hlen : lo + len ≤ 32)
    (h : bitsOf r.rw lo len = 2 ^ len - 1) (h' : bitsOf r.w1c lo len = 0) :
    (s.store a v).fld ⟨a, lo, len⟩ = bitsOf v.toNat lo len := by
  refine Nat.eq_of_testBit_eq fun i => ?_
  have hrw' := testBit_bitsOf r.rw lo len i
  have hw' := testBit_bitsOf r.w1c lo len i
  rw [h, Nat.testBit_two_pow_sub_one] at hrw'
  rw [h', Nat.zero_testBit] at hw'
  rw [State.fld, testBit_bitsOf, testBit_bitsOf]
  by_cases hi : i < len
  · have hi' : lo + i < 32 := by omega
    simp only [State.testBit_store v hr hl hi' hrw hw]
    simp_all
  · simp [hi]

/-- A W1C bit that a write sets is clear after it. -/
theorem State.flag_store_of_w1c {s : State} {a lo : Nat} {r : RegRow} {ix : List Nat} {v : Word} (hr : regAt a = some (r, ix))
    (hl : s.locked a = false) (hlo : lo < 32) (hrw : r.rw < 2 ^ 32) (hw : r.w1c < 2 ^ 32) (h : r.w1c.testBit lo = true)
    (hv : v.toNat.testBit lo = true) : (s.store a v).flag ⟨a, lo, 1⟩ = false := by
  rw [State.flag_eq_testBit, State.testBit_store v hr hl hlo hrw hw, h, hv]
  simp

/-- A bit that is not RW is kept by a write that does not set it. -/
theorem State.flag_store_of_clear {s : State} {a lo : Nat} {r : RegRow} {ix : List Nat} {v : Word} (hr : regAt a = some (r, ix))
    (hl : s.locked a = false) (hlo : lo < 32) (hrw : r.rw < 2 ^ 32) (hw : r.w1c < 2 ^ 32) (h : r.rw.testBit lo = false)
    (hv : v.toNat.testBit lo = false) : (s.store a v).flag ⟨a, lo, 1⟩ = s.flag ⟨a, lo, 1⟩ := by
  rw [State.flag_eq_testBit, State.testBit_store v hr hl hlo hrw hw, h, hv, State.flag_eq_testBit]
  simp

/-- Only the factory trims of SREF clear codes and of the OCXO are ever locked (R354). -/
theorem State.not_locked {a : Nat} (s : State) (h : a < 0x91004 ∨ 0x91200 ≤ a ∨ a % 16 ≠ 4) (h' : a ≠ CLK_OCXO_TRIM.addr) :
    s.locked a = false := by
  rw [State.locked, if_neg (by omega), if_neg h']

theorem OnlyRegs.die {as : List Nat} {s t : State} (h : OnlyRegs as s t) (d : Nat) : t.die d = s.die d :=
  (congrArg (State.die · d) h.1 :)

theorem OnlyRegs.chans {as : List Nat} {s t : State} (h : OnlyRegs as s t) : t.chans = s.chans := (congrArg State.chans h.1 :)

theorem OnlyRegs.chan {as : List Nat} {s t : State} (h : OnlyRegs as s t) (c : Nat) : t.chan c = s.chan c :=
  State.chan_congr (OnlyRegs.chans h) c

theorem OnlyRegs.time {as : List Nat} {s t : State} (h : OnlyRegs as s t) : t.time = s.time := (congrArg State.time h.1 :)

theorem OnlyRegs.evtSeq {as : List Nat} {s t : State} (h : OnlyRegs as s t) : t.evtSeq = s.evtSeq :=
  (congrArg State.evtSeq h.1 :)

theorem OnlyRegs.mode {as : List Nat} {s t : State} (h : OnlyRegs as s t) : t.mode = s.mode := (congrArg State.mode h.1 :)

theorem OnlyRegs.put_of_mem {as : List Nat} {s t : State} {f : Field} (v : Nat) (h : OnlyRegs as s t) (hf : f.addr ∈ as) :
    OnlyRegs as s (t.put f v) :=
  ⟨h.1, fun a ha => (t.reg_put_ne v (ne_of_mem_of_not_mem hf ha).symm).trans (h.2 a ha)⟩

/-! ## Instants and free values -/

/-- An event that stands for an instant changes the time alone. -/
theorem State.at_eq (s : State) (t : Nat) : ∃ v, s.at_ t = s.withTime v := by
  unfold State.at_
  split
  · exact ⟨_, rfl⟩
  · exact ⟨s.time, rfl⟩

theorem State.withFreeCtr_reg (s : State) (k a : Nat) : (s.withFreeCtr k).reg a = s.reg a := rfl

theorem State.withFreeCtr_die (s : State) (k d : Nat) : (s.withFreeCtr k).die d = s.die d := rfl

theorem State.withFreeCtr_evtSeq (s : State) (k : Nat) : (s.withFreeCtr k).evtSeq = s.evtSeq := rfl

theorem State.withFreeCtr_chans (s : State) (k : Nat) : (s.withFreeCtr k).chans = s.chans := rfl

/-- What the calibration engine's turn leaves to choose is the free value alone. -/
theorem State.engineTurn_eq (s : State) (d : Nat) : ∃ k, s.engineTurn d = s.withFreeCtr k := by
  unfold State.engineTurn
  split
  · exact ⟨_, rfl⟩
  · exact ⟨s.freeCtr, rfl⟩

/-! ## Requests at a die's converter (R109) -/

theorem State.ask_die (s : State) (d t what : Nat) :
    ((s.ask d t what).die d).asks = (s.die d).asks.filter (fun x => decide (x.2 ≠ what)) ++ [(t, what)] := by
  simp [State.ask]

theorem State.ask_die_ne (s : State) (d t what : Nat) {e : Nat} (h : e ≠ d) : (s.ask d t what).die e = s.die e :=
  s.setDie_ne _ h

theorem State.ask_fld (s : State) (d t what : Nat) (f : Field) : (s.ask d t what).fld f = s.fld f := rfl

theorem State.ask_flag (s : State) (d t what : Nat) (f : Field) : (s.ask d t what).flag f = s.flag f := rfl

theorem State.unask_die (s : State) (d what : Nat) :
    ((s.unask d what).die d).asks = (s.die d).asks.filter (fun x => decide (x.2 ≠ what)) := by
  simp [State.unask]

theorem State.unask_die_ne (s : State) (d what : Nat) {e : Nat} (h : e ≠ d) : (s.unask d what).die e = s.die e :=
  s.setDie_ne _ h

/-- The request `what` of die d that was next has been converted by t: its result is stored from here on. -/
def State.turned (s : State) (d what t : Nat) : State := ((s.engineTurn d).at_ t).unask d what

theorem State.turned_eq (s : State) (d what t : Nat) :
    ∃ k v, s.turned d what t = ((s.withFreeCtr k).withTime v).unask d what := by
  obtain ⟨k, hk⟩ := s.engineTurn_eq d
  obtain ⟨v, hv⟩ := (s.withFreeCtr k).at_eq t
  exact ⟨k, v, by rw [State.turned, hk, hv]⟩

theorem State.turned_reg (s : State) (d what t a : Nat) : (s.turned d what t).reg a = s.reg a := by
  obtain ⟨k, v, h⟩ := s.turned_eq d what t
  rw [h]
  rfl

theorem State.turned_evtSeq (s : State) (d what t : Nat) : (s.turned d what t).evtSeq = s.evtSeq := by
  obtain ⟨k, v, h⟩ := s.turned_eq d what t
  rw [h]
  rfl

theorem State.turned_chans (s : State) (d what t : Nat) : (s.turned d what t).chans = s.chans := by
  obtain ⟨k, v, h⟩ := s.turned_eq d what t
  rw [h]
  rfl

theorem State.turned_asks (s : State) (d what t : Nat) :
    ((s.turned d what t).die d).asks = (s.die d).asks.filter (fun x => decide (x.2 ≠ what)) := by
  obtain ⟨k, v, h⟩ := s.turned_eq d what t
  rw [h, State.unask_die]
  rfl

theorem State.turned_die_ne (s : State) (d what t : Nat) {e : Nat} (he : e ≠ d) : (s.turned d what t).die e = s.die e := by
  obtain ⟨k, v, h⟩ := s.turned_eq d what t
  rw [h, State.unask_die_ne _ _ _ he]
  rfl

theorem State.setDie_withRegs (s : State) (d : Nat) (x : DieSt) (r : Tab Word) :
    (s.setDie d x).withRegs r = (s.withRegs r).setDie d x := rfl

theorem State.setDie_withChans (s : State) (d : Nat) (x : DieSt) (cs : Tab ChanSt) :
    (s.setDie d x).withChans cs = (s.withChans cs).setDie d x := rfl

theorem State.setDie_withDies (s : State) (d : Nat) (x : DieSt) (ds : Tab DieSt) :
    (s.setDie d x).withDies ds = s.withDies ds := rfl

theorem State.setChan_withRegs (s : State) (c : Nat) (x : ChanSt) (r : Tab Word) :
    (s.setChan c x).withRegs r = (s.withRegs r).setChan c x := rfl

theorem State.setChan_withChans (s : State) (c : Nat) (x : ChanSt) (cs : Tab ChanSt) :
    (s.setChan c x).withChans cs = s.withChans cs := rfl

/-! ## Events beside registers -/

theorem RegsBut.refl (as : List Nat) (s : State) : RegsBut as s s := fun _ _ => rfl

theorem RegsBut.events {as : List Nat} {s t : State} (h : RegsBut as s t) : RegsButEvents as s t := fun a ha _ => h a ha

theorem RegsBut.put_of_mem {as : List Nat} {s t : State} {f : Field} (v : Nat) (h : RegsBut as s t) (hf : f.addr ∈ as) :
    RegsBut as s (t.put f v) := fun a ha =>
  (t.reg_put_ne v (ne_of_mem_of_not_mem hf ha).symm).trans (h a ha)

theorem RegsButEvents.put_of_mem {as : List Nat} {s t : State} {f : Field} (v : Nat) (h : RegsButEvents as s t)
    (hf : f.addr ∈ as) : RegsButEvents as s (t.put f v) :=
  fun a ha he => (t.reg_put_ne v (ne_of_mem_of_not_mem hf ha).symm).trans (h a ha he)

theorem RegsButEvents.eventAt {as : List Nat} {s u : State} (h : RegsButEvents as s u) (t src code p4 p5 p6 p7 : Nat) :
    RegsButEvents as s (u.eventAt t src code p4 p5 p6 p7) := fun a ha he =>
  (u.eventAt_reg t src code p4 p5 p6 p7 he).trans (h a ha he)

end Sys2Proof.Machine
end

section
/-! PROOF. SENSE and SREF conversions (O22). -/

namespace Sys2Proof.Machine

/-! ## Requests (R284) -/

theorem regAt_MON_SENSE_MEAS : ∀ m : Fin 32, regAt (MON_SENSE_MEAS.addr m) =
    some (⟨"MON_SENSE_MEAS", 0x90010, [(32, 0x20)], 0x60000000, 0x4000000, 0x80000000, 0x0, 0, 0xFCFFFFFF⟩, [m.val]) := by
  decide

theorem MON_SENSE_MEAS_not_locked (m : Fin 32) (s : State) : s.locked (MON_SENSE_MEAS.addr m) = false :=
  s.not_locked (.inl (by unfold MON_SENSE_MEAS.addr; omega)) (by unfold MON_SENSE_MEAS.addr CLK_OCXO_TRIM.addr; omega)

theorem exec_senseMeasStart_of_inService {m : Fin 32} {v : Word} {s : State} (hs : s.inService = true)
    (hv : reservedBits (MON_SENSE_MEAS.addr m) v = 0) : exec (.senseMeasStart m v) s = .next (s.writeSenseMeas m v) := by
  rw [exec_senseMeasStart, execSenseMeasStart, State.hostWrite_of_access _ (State.access_of_inService hs _) hv]

theorem exec_srefReadbackStart_of_inService {m : Fin 32} {v : Word} {s : State} (hs : s.inService = true)
    (hv : reservedBits (MON_SREF_STATUS.addr m) v = 0) :
    exec (.srefReadbackStart m v) s = .next (s.writeSrefStatus m v) := by
  rw [exec_srefReadbackStart, execSrefReadbackStart, State.hostWrite_of_access _ (State.access_of_inService hs _) hv]

theorem State.inService_of_cal {s : State} (h : s.mode = .cal) : s.inService = true := by simp [State.inService, h]

theorem Mode.ne_cal_of_idle_or_run {m : Mode} (h : m = .idle ∨ m = .run) : m ≠ .cal := by
  rcases h with rfl | rfl <;> decide

/-- A register stored, a bit of it cleared, and a request that then waits at a die's converter: nothing else changes. -/
theorem asked_rest (s : State) {f : Field} (v : Word) (d t what : Nat) :
    ((((s.store f.addr v).put f 0).ask d t what).die d).asks =
        (s.die d).asks.filter (fun x => decide (x.2 ≠ what)) ++ [(t, what)] ∧
      (∀ e, e ≠ d → (((s.store f.addr v).put f 0).ask d t what).die e = s.die e) ∧
      ((((s.store f.addr v).put f 0).ask d t what).withRegs s.regs).withDies s.dies = s ∧
      RegsBut [f.addr] s (((s.store f.addr v).put f 0).ask d t what) := by
  obtain ⟨hrest, hregs⟩ := OnlyRegs.put_of_mem (f := f) 0 (s.store_onlyRegs f.addr v) List.mem_cons_self
  refine ⟨?_, fun e he => ?_, ?_, hregs⟩
  · rw [State.ask_die, State.put_die, OnlyRegs.die (s.store_onlyRegs f.addr v)]
  · rw [State.ask_die_ne _ _ _ _ he, State.put_die, OnlyRegs.die (s.store_onlyRegs f.addr v)]
  · have hdies := congrArg (State.withDies · s.dies) hrest
    exact hdies

theorem senseMeasStart_waits {m : Fin 32} {v : Word} {s : State} (hm : s.mode = .idle ∨ s.mode = .run)
    (hv : reservedBits (MON_SENSE_MEAS.addr m) v = 0) (h31 : wbit v 31 = true) :
    ∃ t, exec (.senseMeasStart m v) s = .next t ∧ t.fld (MON_SENSE_MEAS.SEL m) = wfld v (MON_SENSE_MEAS.SEL m) ∧
      t.flag (MON_SENSE_MEAS.DONE m) = false ∧
      (t.die (m / 2)).asks = (s.die (m / 2)).asks.filter (fun x => decide (x.2 ≠ 64 + m.val % 2)) ++
        [(s.time.toNat, 64 + m.val % 2)] ∧
      (∀ d, d ≠ m.val / 2 → t.die d = s.die d) ∧ (t.withRegs s.regs).withDies s.dies = s ∧
      RegsBut [MON_SENSE_MEAS.addr m] s t := by
  have hw : s.writeSenseMeas m v = ((s.store (MON_SENSE_MEAS.addr m) v).put (MON_SENSE_MEAS.DONE m) 0).ask (m / 2)
      s.time.toNat (64 + m % 2) := by
    simp only [State.writeSenseMeas, h31, State.store_mode, OnlyRegs.time (s.store_onlyRegs _ v), Mode.ne_cal_of_idle_or_run hm, if_true, if_false]
  refine ⟨_, exec_senseMeasStart_of_inService (State.inService_of_mode hm) hv, ?_, ?_, ?_⟩
  · rw [hw, State.ask_fld, State.fld_put_apart (f := MON_SENSE_MEAS.DONE m) (g := MON_SENSE_MEAS.SEL m) _ 0 rfl
      (by simp [MON_SENSE_MEAS.DONE]) (by simp [MON_SENSE_MEAS.DONE, MON_SENSE_MEAS.SEL])]
    exact State.fld_store_of_rw_only v (regAt_MON_SENSE_MEAS m) (MON_SENSE_MEAS_not_locked m s) (by decide) (by decide)
      (by decide) (by decide) (by decide)
  · rw [hw, State.ask_flag]
    exact State.flag_put_zero _ (MON_SENSE_MEAS.DONE m) (by simp [MON_SENSE_MEAS.DONE])
  · rw [hw]
    exact asked_rest s (f := MON_SENSE_MEAS.DONE m) v (m / 2) s.time.toNat (64 + m % 2)

theorem senseMeasStart_blocked {m : Fin 32} {v : Word} {s : State} (hm : s.mode = .cal)
    (hv : reservedBits (MON_SENSE_MEAS.addr m) v = 0) (h31 : wbit v 31 = true) :
    ∃ t, exec (.senseMeasStart m v) s = .next t ∧ t.flag (MON_SENSE_MEAS.BLOCKED m) = true ∧
      OnlyRegs [MON_SENSE_MEAS.addr m] s t := by
  have hw : s.writeSenseMeas m v = (s.store (MON_SENSE_MEAS.addr m) v).put (MON_SENSE_MEAS.BLOCKED m) 1 := by
    simp only [State.writeSenseMeas, h31, State.store_mode, hm, if_true]
  refine ⟨_, exec_senseMeasStart_of_inService (State.inService_of_cal hm) hv, ?_, ?_⟩
  · rw [hw]
    exact State.flag_put_one _ (MON_SENSE_MEAS.BLOCKED m) (by simp [MON_SENSE_MEAS.BLOCKED]) (by simp [MON_SENSE_MEAS.BLOCKED])
  · rw [hw]
    exact OnlyRegs.put_of_mem 1 (s.store_onlyRegs _ v) List.mem_cons_self

theorem srefReadbackStart_waits {m : Fin 32} {v : Word} {s : State} (hm : s.mode = .idle ∨ s.mode = .run)
    (hv : reservedBits (MON_SREF_STATUS.addr m) v = 0) (h31 : wbit v 31 = true) :
    ∃ t, exec (.srefReadbackStart m v) s = .next t ∧ t.flag (MON_SREF_STATUS.RB_DONE m) = false ∧
      (t.die (m / 2)).asks = (s.die (m / 2)).asks.filter (fun x => decide (x.2 ≠ 66 + m.val % 2)) ++
        [(s.time.toNat, 66 + m.val % 2)] ∧
      (∀ d, d ≠ m.val / 2 → t.die d = s.die d) ∧ (t.withRegs s.regs).withDies s.dies = s ∧
      RegsBut [MON_SREF_STATUS.addr m] s t := by
  have hw : s.writeSrefStatus m v = ((s.store (MON_SREF_STATUS.addr m) v).put (MON_SREF_STATUS.RB_DONE m) 0).ask (m / 2)
      s.time.toNat (66 + m % 2) := by
    simp only [State.writeSrefStatus, h31, State.store_mode, OnlyRegs.time (s.store_onlyRegs _ v), ne_eq, Mode.ne_cal_of_idle_or_run hm,
      not_false_eq_true, and_self, if_true]
  refine ⟨_, exec_srefReadbackStart_of_inService (State.inService_of_mode hm) hv, ?_, ?_⟩
  · rw [hw, State.ask_flag]
    exact State.flag_put_zero _ (MON_SREF_STATUS.RB_DONE m) (by simp [MON_SREF_STATUS.RB_DONE])
  · rw [hw]
    exact asked_rest s (f := MON_SREF_STATUS.RB_DONE m) v (m / 2) s.time.toNat (66 + m % 2)

theorem srefReadbackStart_in_cal {m : Fin 32} {v : Word} {s : State} (hm : s.mode = .cal)
    (hv : reservedBits (MON_SREF_STATUS.addr m) v = 0) :
    ∃ t, exec (.srefReadbackStart m v) s = .next t ∧ OnlyRegs [MON_SREF_STATUS.addr m] s t := by
  have hw : s.writeSrefStatus m v = s.store (MON_SREF_STATUS.addr m) v :=
    if_neg fun h => h.2 ((s.store_mode _ v).trans hm)
  exact ⟨_, exec_srefReadbackStart_of_inService (State.inService_of_cal hm) hv, hw ▸ s.store_onlyRegs _ v⟩

/-! ## Readbacks against Table 6-7 (R111) -/

/-- Neither the journal's nor the interrupts' registers are the host requests' own. -/
theorem evtReg_MON : ∀ m : Fin 32, evtReg (MON_SENSE_MEAS.addr m) = false ∧ evtReg (MON_SREF_STATUS.addr m) = false := by
  decide

theorem State.readbackEvent_reg (s : State) {a : Nat} (h : evtReg a = false) : s.readbackEvent.reg a = s.reg a :=
  State.event_reg _ _ _ _ _ _ h

theorem State.readbackEvent_die (s : State) (d : Nat) : s.readbackEvent.die d = s.die d :=
  State.die_congr (State.event_dies _ _ _ _ _ _ _) d

theorem State.readbackEvent_evtSeq (s : State) : s.readbackEvent.evtSeq = s.evtSeq + 1 := State.event_evtSeq _ _ _ _ _ _ _

/-- A readback that may have stored its verdict in one register and raised an event: the dies and the other fields of that
register that the verdict does not share are as before. -/
structure Checked (f : Field) (u t : State) : Prop where
  die : ∀ d, t.die d = u.die d
  regs : RegsButEvents [f.addr] u t
  apart : ∀ g : Field, g.addr = f.addr → g.lo + g.len ≤ f.lo ∨ f.lo + f.len ≤ g.lo → t.fld g = u.fld g

theorem Checked.refl (f : Field) (u : State) : Checked f u u := ⟨fun _ => rfl, fun _ _ _ => rfl, fun _ _ _ => rfl⟩

theorem Checked.put {f : Field} (u : State) (v : Nat) (hf : f.lo + f.len ≤ 32) : Checked f u (u.put f v) where
  die _ := rfl
  regs := RegsBut.events (RegsBut.put_of_mem v (RegsBut.refl [f.addr] u) List.mem_cons_self)
  apart _ ha h := State.fld_put_apart u v ha hf h.symm

theorem Checked.takeFree_put {f : Field} (u : State) (v : Nat) (hf : f.lo + f.len ≤ 32) : Checked f u (u.takeFree.put f v) :=
  have h : Checked f u.takeFree (u.takeFree.put f v) := .put u.takeFree v hf
  ⟨h.die, h.regs, h.apart⟩

theorem Checked.readbackEvent {f : Field} {u t : State} (h : Checked f u t) (he : evtReg f.addr = false) :
    Checked f u t.readbackEvent where
  die d := (t.readbackEvent_die d).trans (h.die d)
  regs := fun a ha hev => (t.readbackEvent_reg hev).trans (h.regs a ha hev)
  apart g ha hg := (State.fld_congr (t.readbackEvent_reg (ha ▸ he))).trans (h.apart g ha hg)

theorem Checked.flag {f g : Field} {u t : State} (h : Checked f u t) (ha : g.addr = f.addr)
    (hg : g.lo + g.len ≤ f.lo ∨ f.lo + f.len ≤ g.lo) : t.flag g = u.flag g := State.flag_of_fld (h.apart g ha hg)

theorem State.srefCheck_checked (s : State) (m : Fin 32) (uv : Int) :
    Checked (MON_SREF_STATUS.RB_FAIL m) s (s.srefCheck m uv) := by
  unfold State.srefCheck
  split
  · exact .refl _ s
  · exact (Checked.put s 1 (by simp [MON_SREF_STATUS.RB_FAIL])).readbackEvent (evtReg_MON m).2

/-- An SREF readback outside Table 6-7. -/
theorem State.srefCheck_bad {s : State} {m : Fin 32} {uv : Int} (h : s.srefOk m uv = false) :
    (s.srefCheck m uv).flag (MON_SREF_STATUS.RB_FAIL m) = true ∧ (s.srefCheck m uv).evtSeq = s.evtSeq + 1 := by
  rw [State.srefCheck, h, if_neg Bool.false_ne_true]
  exact ⟨(State.flag_congr (State.readbackEvent_reg _ (evtReg_MON m).2)).trans
    (State.flag_put_one s (MON_SREF_STATUS.RB_FAIL m) (by simp [MON_SREF_STATUS.RB_FAIL]) (by simp [MON_SREF_STATUS.RB_FAIL])),
    (State.readbackEvent_evtSeq _).trans (by rw [State.put_evtSeq])⟩

theorem State.senseCheck_checked (s : State) (m : Fin 32) (high : Bool) (uv : Int) :
    Checked (MON_SENSE_MEAS.RB_FAIL m) s (s.senseCheck m high uv) := by
  unfold State.senseCheck
  split
  · exact .put s 0 (by simp [MON_SENSE_MEAS.RB_FAIL])
  · exact (Checked.put s 1 (by simp [MON_SENSE_MEAS.RB_FAIL])).readbackEvent (evtReg_MON m).1

theorem State.senseCheck_fail (s : State) (m : Fin 32) (high : Bool) (uv : Int) :
    (s.senseCheck m high uv).flag (MON_SENSE_MEAS.RB_FAIL m) = !s.senseOk m high uv := by
  cases h : s.senseOk m high uv
  · rw [State.senseCheck, h, if_neg Bool.false_ne_true]
    exact (State.flag_congr (State.readbackEvent_reg _ (evtReg_MON m).1)).trans
      (State.flag_put_one s (MON_SENSE_MEAS.RB_FAIL m) (by simp [MON_SENSE_MEAS.RB_FAIL]) (by simp [MON_SENSE_MEAS.RB_FAIL]))
  · rw [State.senseCheck, h, if_pos rfl]
    exact State.flag_put_zero s (MON_SENSE_MEAS.RB_FAIL m) (by simp [MON_SENSE_MEAS.RB_FAIL])

/-! ## Results (R109, R284) -/

theorem exec_conversionDone_of_asked {sref : Bool} {m : Fin 32} {v : BitVec 24} {hi : Bool} {t : Nat} {s : State}
    (hm : s.mode = .idle ∨ s.mode = .run) (h : s.asked (m / 2) ((if sref then 66 else 64) + m % 2) = some t) :
    exec (.conversionDone sref m v hi) s =
      .next ((s.turned (m / 2) ((if sref then 66 else 64) + m % 2) (t + convFines)).convResult sref m v) := by
  have hn : ¬(s.mode ≠ .idle ∧ s.mode ≠ .run) := by tauto
  simp only [exec_conversionDone, execConversionDone, if_neg hn, h, State.turned]

theorem conversionDone_kept {sref : Bool} {m : Fin 32} {v : BitVec 24} {hi : Bool} {s t : State}
    (h : exec (.conversionDone sref m v hi) s = .next t) : t.mode = s.mode ∧ Still s t := by
  have frame : ∀ fd : Followed, fd ≠ .time → fd ≠ .dram → t.rd fd = s.rd fd := fun fd ht hd =>
    execConversionDone_frame sref m v hi s t h fd ht hd
  exact ⟨State.mode_of_frame (frame .mode (by decide) (by decide)), still_of_frame fun fd hd _ ht _ => frame fd ht hd⟩

/-- An input's or a limit's value stored, with DONE. -/
def State.senseStored (s : State) (m v : Nat) : State := (s.put (MON_SENSE_MEAS.VALUE m) v).put (MON_SENSE_MEAS.DONE m) 1

theorem State.senseStored_reg (s : State) (m v : Nat) {a : Nat} (h : a ≠ MON_SENSE_MEAS.addr m) :
    (s.senseStored m v).reg a = s.reg a :=
  (State.reg_put_ne (f := MON_SENSE_MEAS.DONE m) _ 1 h).trans (State.reg_put_ne (f := MON_SENSE_MEAS.VALUE m) s v h)

theorem State.senseStored_done (s : State) (m v : Nat) : (s.senseStored m v).flag (MON_SENSE_MEAS.DONE m) = true :=
  State.flag_put_one _ (MON_SENSE_MEAS.DONE m) (by simp [MON_SENSE_MEAS.DONE]) (by simp [MON_SENSE_MEAS.DONE])

theorem State.senseStored_value (s : State) (m : Nat) (v : BitVec 24) :
    (s.senseStored m v.toNat).fld (MON_SENSE_MEAS.VALUE m) = v.toNat := by
  rw [State.senseStored, State.fld_put_apart (f := MON_SENSE_MEAS.DONE m) (g := MON_SENSE_MEAS.VALUE m) _ 1 rfl
    (by simp [MON_SENSE_MEAS.DONE]) (by simp [MON_SENSE_MEAS.DONE, MON_SENSE_MEAS.VALUE]), State.fld_put_same _ _ _ (by simp [MON_SENSE_MEAS.VALUE])]
  exact Nat.mod_eq_of_lt v.isLt

theorem State.senseStored_senseOk (s : State) (m v : Nat) (high : Bool) (uv : Int) :
    (s.senseStored m v).senseOk m high uv = s.senseOk m high uv := by
  have hlo : (s.senseStored m v).fld (MON_SENSE_LO.CODE m) = s.fld (MON_SENSE_LO.CODE m) :=
    State.fld_congr (s.senseStored_reg m v (by simp [MON_SENSE_LO.CODE, MON_SENSE_LO.addr, MON_SENSE_MEAS.addr]))
  have hhi : (s.senseStored m v).fld (MON_SENSE_HI.CODE m) = s.fld (MON_SENSE_HI.CODE m) :=
    State.fld_congr (s.senseStored_reg m v (by simp [MON_SENSE_HI.CODE, MON_SENSE_HI.addr, MON_SENSE_MEAS.addr]))
  rw [State.senseOk, hlo, hhi, State.senseOk]

theorem State.senseStored_die (s : State) (m v d : Nat) : (s.senseStored m v).die d = s.die d := by
  rw [State.senseStored, State.put_die, State.put_die]

/-- The result of a SENSE request by what SEL selects: 0 an input, 1 and 2 the low and the high limit. -/
theorem State.convResult_sense (s : State) (m : Nat) (v : BitVec 24) :
    s.convResult false m v = match s.fld (MON_SENSE_MEAS.SEL m) with
      | 0 => s.senseStored m v.toNat
      | 1 => (s.senseStored m v.toNat).senseCheck m false (signed 24 v.toNat)
      | 2 => (s.senseStored m v.toNat).senseCheck m true (signed 24 v.toNat)
      | _ => (s.senseStored m v.toNat).takeFree.put (MON_SENSE_MEAS.VALUE m) (s.free.toNat % 2 ^ 24) := by
  rfl

/-- After the value and DONE have been stored, a SENSE result may change RB_FAIL, and VALUE where SEL selects nothing. -/
theorem State.convResult_sense_checked (s : State) (m : Fin 32) (v : BitVec 24) :
    ∃ f : Field, (f = MON_SENSE_MEAS.RB_FAIL m ∨ s.fld (MON_SENSE_MEAS.SEL m) = 3 ∧ f = MON_SENSE_MEAS.VALUE m) ∧
      Checked f (s.senseStored m v.toNat) (s.convResult false m v) := by
  have hlt : s.fld (MON_SENSE_MEAS.SEL m) < 4 := s.fld_lt (MON_SENSE_MEAS.SEL m)
  rw [State.convResult_sense]
  split
  · exact ⟨_, .inl rfl, .refl _ _⟩
  · exact ⟨_, .inl rfl, State.senseCheck_checked _ m false _⟩
  · exact ⟨_, .inl rfl, State.senseCheck_checked _ m true _⟩
  next h0 h1 h2 =>
    refine ⟨_, .inr ⟨?_, rfl⟩, .takeFree_put _ _ (by simp [MON_SENSE_MEAS.VALUE])⟩
    grind

theorem State.convResult_sense_limit (s : State) (m : Fin 32) (v : BitVec 24) (high : Bool)
    (h : s.fld (MON_SENSE_MEAS.SEL m) = if high then 2 else 1) :
    (s.convResult false m v).flag (MON_SENSE_MEAS.RB_FAIL m) = !s.senseOk m high (signed 24 v.toNat) := by
  have hr : s.convResult false m v = (s.senseStored m v.toNat).senseCheck m high (signed 24 v.toNat) := by
    rw [State.convResult_sense, h]
    cases high <;> simp only [if_true, Bool.false_eq_true, if_false]
  rw [hr, State.senseCheck_fail, State.senseStored_senseOk]

/-- What a SENSE result stores, and leaves. -/
theorem State.convResult_sense_stores (s : State) (m : Fin 32) (v : BitVec 24) :
    (s.convResult false m v).flag (MON_SENSE_MEAS.DONE m) = true ∧
      (s.fld (MON_SENSE_MEAS.SEL m) ≠ 3 → (s.convResult false m v).fld (MON_SENSE_MEAS.VALUE m) = v.toNat) ∧
      (∀ d, (s.convResult false m v).die d = s.die d) ∧
      RegsButEvents [MON_SENSE_MEAS.addr m] s (s.convResult false m v) := by
  obtain ⟨f, hf, hc⟩ := s.convResult_sense_checked m v
  have ha : f.addr = MON_SENSE_MEAS.addr m := by rcases hf with rfl | ⟨-, rfl⟩ <;> rfl
  refine ⟨?_, fun h3 => ?_, fun d => (hc.die d).trans (s.senseStored_die m _ d), fun a hm he => ?_⟩
  · refine (hc.flag (g := MON_SENSE_MEAS.DONE m) ha.symm ?_).trans (s.senseStored_done m _)
    rcases hf with rfl | ⟨-, rfl⟩ <;> simp [MON_SENSE_MEAS.DONE, MON_SENSE_MEAS.RB_FAIL, MON_SENSE_MEAS.VALUE]
  · obtain rfl := hf.resolve_right fun h => h3 h.1
    exact (hc.apart (MON_SENSE_MEAS.VALUE m) rfl (by simp [MON_SENSE_MEAS.RB_FAIL, MON_SENSE_MEAS.VALUE])).trans
      (s.senseStored_value m v)
  · exact (hc.regs a (ha ▸ hm) he).trans (s.senseStored_reg m _ (by simpa using hm))

theorem conversionDone_sense {m : Fin 32} {v : BitVec 24} {hi : Bool} {since_ : Nat} {s : State}
    (hm : s.mode = .idle ∨ s.mode = .run) (h : s.asked (m / 2) (64 + m % 2) = some since_) :
    ∃ t, exec (.conversionDone false m v hi) s = .next t ∧ t.flag (MON_SENSE_MEAS.DONE m) = true ∧
      (s.fld (MON_SENSE_MEAS.SEL m) ≠ 3 → t.fld (MON_SENSE_MEAS.VALUE m) = v.toNat) ∧
      (s.fld (MON_SENSE_MEAS.SEL m) = 1 → t.flag (MON_SENSE_MEAS.RB_FAIL m) = !s.senseOk m false (signed 24 v.toNat)) ∧
      (s.fld (MON_SENSE_MEAS.SEL m) = 2 → t.flag (MON_SENSE_MEAS.RB_FAIL m) = !s.senseOk m true (signed 24 v.toNat)) ∧
      (t.die (m / 2)).asks = (s.die (m / 2)).asks.filter (fun x => decide (x.2 ≠ 64 + m.val % 2)) ∧
      (∀ d, d ≠ m.val / 2 → t.die d = s.die d) ∧ t.mode = s.mode ∧ Still s t ∧
      RegsButEvents [MON_SENSE_MEAS.addr m] s t := by
  have he := exec_conversionDone_of_asked (sref := false) (v := v) (hi := hi) hm h
  obtain ⟨hmode, hstill⟩ := conversionDone_kept he
  have hreg : ∀ a, (s.turned (m / 2) (64 + m % 2) (since_ + convFines)).reg a = s.reg a := s.turned_reg _ _ _
  have hok : ∀ high uv, (s.turned (m / 2) (64 + m % 2) (since_ + convFines)).senseOk m high uv = s.senseOk m high uv := fun high uv => by
    rw [State.senseOk, State.senseOk, State.fld_congr (hreg _), State.fld_congr (hreg _)]
  obtain ⟨hdone, hvalue, hdie, hregs⟩ := (s.turned (m / 2) (64 + m % 2) (since_ + convFines)).convResult_sense_stores m v
  have hlimit := (s.turned (m / 2) (64 + m % 2) (since_ + convFines)).convResult_sense_limit m v
  simp only [State.fld_congr (f := MON_SENSE_MEAS.SEL m) (hreg _), hok] at hvalue hlimit
  refine ⟨_, he, hdone, hvalue, hlimit false, hlimit true, ?_, fun d hd => ?_, hmode, hstill, fun a hm he => ?_⟩
  · exact (congrArg DieSt.asks (hdie _)).trans (s.turned_asks _ _ _)
  · exact (hdie d).trans (s.turned_die_ne _ _ _ hd)
  · exact (hregs a hm he).trans (hreg a)

/-- An SREF readback's value stored, with RB_DONE. -/
def State.srefStored (s : State) (m v : Nat) : State := (s.put (MON_SREF_STATUS.VALUE m) v).put (MON_SREF_STATUS.RB_DONE m) 1

theorem State.srefStored_reg (s : State) (m v : Nat) {a : Nat} (h : a ≠ MON_SREF_STATUS.addr m) :
    (s.srefStored m v).reg a = s.reg a :=
  (State.reg_put_ne (f := MON_SREF_STATUS.RB_DONE m) _ 1 h).trans (State.reg_put_ne (f := MON_SREF_STATUS.VALUE m) s v h)

theorem State.srefStored_done (s : State) (m v : Nat) : (s.srefStored m v).flag (MON_SREF_STATUS.RB_DONE m) = true :=
  State.flag_put_one _ (MON_SREF_STATUS.RB_DONE m) (by simp [MON_SREF_STATUS.RB_DONE]) (by simp [MON_SREF_STATUS.RB_DONE])

theorem State.srefStored_value (s : State) (m v : Nat) :
    (s.srefStored m v).fld (MON_SREF_STATUS.VALUE m) = v % 2 ^ (MON_SREF_STATUS.VALUE m).len := by
  rw [State.srefStored, State.fld_put_apart (f := MON_SREF_STATUS.RB_DONE m) (g := MON_SREF_STATUS.VALUE m) _ 1 rfl
    (by simp [MON_SREF_STATUS.RB_DONE]) (by simp [MON_SREF_STATUS.RB_DONE, MON_SREF_STATUS.VALUE]),
    State.fld_put_same _ _ _ (by simp [MON_SREF_STATUS.VALUE])]

theorem State.srefStored_die (s : State) (m v d : Nat) : (s.srefStored m v).die d = s.die d := by
  rw [State.srefStored, State.put_die, State.put_die]

theorem State.srefStored_evtSeq (s : State) (m v : Nat) : (s.srefStored m v).evtSeq = s.evtSeq := by
  rw [State.srefStored, State.put_evtSeq, State.put_evtSeq]

theorem State.srefOk_congr {s t : State} (m : Nat) (uv : Int) (h : t.reg (MON_SREF_CODE.addr m) = s.reg (MON_SREF_CODE.addr m)) :
    t.srefOk m uv = s.srefOk m uv := by
  rw [State.srefOk, State.srefOk, State.fld_congr (f := MON_SREF_CODE.CODE m) h]

theorem State.convResult_sref (s : State) (m : Nat) (v : BitVec 24) :
    s.convResult true m v = (s.srefStored m v.toNat).srefCheck m (signed 24 v.toNat) := by
  rw [State.convResult, if_pos rfl, State.srefStored]

theorem conversionDone_sref {m : Fin 32} {v : BitVec 24} {hi : Bool} {since_ : Nat} {s : State}
    (hm : s.mode = .idle ∨ s.mode = .run) (h : s.asked (m / 2) (66 + m % 2) = some since_) :
    ∃ t, exec (.conversionDone true m v hi) s = .next t ∧ t.flag (MON_SREF_STATUS.RB_DONE m) = true ∧
      t.fld (MON_SREF_STATUS.VALUE m) = v.toNat % 2 ^ (MON_SREF_STATUS.VALUE m).len ∧
      (s.srefOk m (signed 24 v.toNat) = false → t.flag (MON_SREF_STATUS.RB_FAIL m) = true ∧ t.evtSeq = s.evtSeq + 1) ∧
      (t.die (m / 2)).asks = (s.die (m / 2)).asks.filter (fun x => decide (x.2 ≠ 66 + m.val % 2)) ∧
      (∀ d, d ≠ m.val / 2 → t.die d = s.die d) ∧ t.mode = s.mode ∧ Still s t ∧
      RegsButEvents [MON_SREF_STATUS.addr m] s t := by
  have he := exec_conversionDone_of_asked (sref := true) (v := v) (hi := hi) hm h
  obtain ⟨hmode, hstill⟩ := conversionDone_kept he
  rw [State.convResult_sref] at he hmode hstill
  generalize hu : s.turned (m / 2) ((if true = true then 66 else 64) + m % 2) (since_ + convFines) = u at he hmode hstill
  have hreg : ∀ a, u.reg a = s.reg a := hu ▸ s.turned_reg _ _ _
  have hc := State.srefCheck_checked (u.srefStored m v.toNat) m (signed 24 v.toNat)
  have hdie : ∀ d, ((u.srefStored m v.toNat).srefCheck m (signed 24 v.toNat)).die d = u.die d := fun d =>
    (hc.die d).trans (u.srefStored_die m _ d)
  refine ⟨_, he, ?_, ?_, fun hbad => ?_, ?_, fun d hd => ?_, hmode, hstill, fun a ha hev => ?_⟩
  · exact (hc.flag (g := MON_SREF_STATUS.RB_DONE m) rfl
      (by simp [MON_SREF_STATUS.RB_DONE, MON_SREF_STATUS.RB_FAIL])).trans (u.srefStored_done m _)
  · exact (hc.apart (MON_SREF_STATUS.VALUE m) rfl
      (by simp [MON_SREF_STATUS.VALUE, MON_SREF_STATUS.RB_FAIL])).trans (u.srefStored_value m _)
  · have hok : (u.srefStored m v.toNat).srefOk m (signed 24 v.toNat) = s.srefOk m (signed 24 v.toNat) :=
      State.srefOk_congr m _ ((u.srefStored_reg m _ (by simp [MON_SREF_CODE.addr, MON_SREF_STATUS.addr])).trans (hreg _))
    obtain ⟨hfail, hseq⟩ := State.srefCheck_bad (hok.trans hbad)
    refine ⟨hfail, hseq.trans ?_⟩
    rw [State.srefStored_evtSeq, ← hu, State.turned_evtSeq]
  · rw [hdie, ← hu]
    exact s.turned_asks _ _ _
  · rw [hdie, ← hu]
    exact s.turned_die_ne _ _ _ hd
  · exact (hc.regs a ha hev).trans ((u.srefStored_reg m _ (by simpa using ha)).trans (hreg a))

/-! ## Background readbacks (R111) -/

theorem srefBackgroundReadback_bad {m : Fin 32} {v : BitVec 24} {hi : Bool} {s : State} (hm : s.mode = .idle ∨ s.mode = .run)
    (hn : s.asked (m / 2) (66 + m % 2) = none) (hf : s.convFree (m / 2) = true) (hbad : s.srefOk m (signed 24 v.toNat) = false) :
    ∃ t, exec (.conversionDone true m v hi) s = .next t ∧ t.flag (MON_SREF_STATUS.RB_FAIL m) = true ∧
      t.evtSeq = s.evtSeq + 1 ∧ Steady s t ∧ RegsButEvents [MON_SREF_STATUS.addr m] s t := by
  have he : exec (.conversionDone true m v hi) s = .next ((s.engineTurn (m / 2)).srefCheck m (signed 24 v.toNat)) := by
    have hmode : ¬(s.mode ≠ .idle ∧ s.mode ≠ .run) := by tauto
    simp only [exec_conversionDone, execConversionDone, if_neg hmode, if_true, hn, hf, Bool.true_eq_false, if_false]
  obtain ⟨k, hk⟩ := s.engineTurn_eq (m / 2)
  rw [hk] at he
  obtain ⟨hfail, hseq⟩ := State.srefCheck_bad (s := s.withFreeCtr k) hbad
  exact ⟨_, he, hfail, hseq, steady_of_frame ((s.withFreeCtr k).srefCheck_frame m _), ((s.withFreeCtr k).srefCheck_checked m _).regs⟩

/-- Settles O22: a request stores its word and waits at the die's converter, a result is stored and checked against
Table 6-7, and a background readback is checked alone. -/
theorem conversionsComplete : Obligations.ConversionsComplete := by
  unfold Obligations.ConversionsComplete
  exact ⟨fun _ _ _ => senseMeasStart_waits, fun _ _ _ => senseMeasStart_blocked, fun _ _ _ => srefReadbackStart_waits,
    fun _ _ _ hm hv _ => srefReadbackStart_in_cal hm hv, fun _ _ _ _ _ => conversionDone_sense,
    fun _ _ _ _ _ => conversionDone_sref, fun _ _ _ _ => srefBackgroundReadback_bad⟩

end Sys2Proof.Machine
end

section
/-! PROOF. PPMU measurements and DAC readbacks (O21). -/

namespace Sys2Proof.Machine

/-! ## Starting a measurement (R105, R107, R108) -/

/-- The state in which a write of PIN_PPMU_CFG decides on START: the word stored, CONNECT clear while a forced park or a
disable holds the channel. -/
def State.ppmuStored (s : State) (c : Nat) (v : Word) : State :=
  if s.forcedPark c || s.disabled c then (s.store (PIN_PPMU_CFG.addr c) v).put (PIN_PPMU_CFG.CONNECT c) 0
  else s.store (PIN_PPMU_CFG.addr c) v

theorem State.writePpmuCfg_of_start {s : State} {c : Nat} {v : Word} (h31 : wbit v 31 = true)
    (hsel : (s.ppmuStored c v).fld (PIN_PPMU_CFG.MEAS_SEL c) < 9) :
    s.writePpmuCfg c v = if (s.ppmuStored c v).ppmuRefused c then (s.ppmuStored c v).put (PIN_PPMU_MEAS.BLOCKED c) 1
      else (s.ppmuStored c v).ppmuStart c := by
  rw [State.ppmuStored] at hsel ⊢
  rw [State.writePpmuCfg, if_pos h31, if_neg (Nat.not_le.mpr hsel)]

theorem State.ppmuStored_onlyRegs (s : State) (c : Nat) (v : Word) :
    OnlyRegs [PIN_PPMU_CFG.addr c] s (s.ppmuStored c v) := by
  unfold State.ppmuStored
  split
  · exact OnlyRegs.put_of_mem (f := PIN_PPMU_CFG.CONNECT c) 0 (s.store_onlyRegs _ v) List.mem_cons_self
  · exact s.store_onlyRegs _ v

/-- Clearing CONNECT leaves the other fields of the written word. -/
theorem State.ppmuStored_fld (s : State) (c : Nat) (v : Word) (lo len : Nat) (hlo : 1 ≤ lo) :
    (s.ppmuStored c v).fld ⟨PIN_PPMU_CFG.addr c, lo, len⟩ =
      (s.store (PIN_PPMU_CFG.addr c) v).fld ⟨PIN_PPMU_CFG.addr c, lo, len⟩ := by
  unfold State.ppmuStored
  split
  · exact State.fld_put_apart (f := PIN_PPMU_CFG.CONNECT c) _ 0 rfl (by simp [PIN_PPMU_CFG.CONNECT])
      (by simp [PIN_PPMU_CFG.CONNECT, hlo])
  · rfl

theorem State.ppmuStored_die (s : State) (c : Nat) (v : Word) (d : Nat) : (s.ppmuStored c v).die d = s.die d :=
  OnlyRegs.die (s.ppmuStored_onlyRegs c v) d

theorem State.ppmuStored_chan (s : State) (c : Nat) (v : Word) (e : Nat) : (s.ppmuStored c v).chan e = s.chan e :=
  OnlyRegs.chan (s.ppmuStored_onlyRegs c v) e

theorem State.ppmuStored_time (s : State) (c : Nat) (v : Word) : (s.ppmuStored c v).time = s.time :=
  OnlyRegs.time (s.ppmuStored_onlyRegs c v)

theorem State.ppmuStored_mode (s : State) (c : Nat) (v : Word) : (s.ppmuStored c v).mode = s.mode :=
  OnlyRegs.mode (s.ppmuStored_onlyRegs c v)

theorem State.put_time (s : State) (f : Field) (v : Nat) : (s.put f v).time = s.time := rfl

theorem State.put_chan (s : State) (f : Field) (v c : Nat) : (s.put f v).chan c = s.chan c := rfl

theorem State.chanExecuting_congr {s t : State} {c : Nat}
    (hm : ∀ n, t.reg (SEQ_CB_MASK.addr n) = s.reg (SEQ_CB_MASK.addr n))
    (hs : ∀ n < 16, t.reg (SEQ_STATUS.addr n) = s.reg (SEQ_STATUS.addr n)) : t.chanExecuting c = s.chanExecuting c := by
  rw [State.chanExecuting, State.chanExecuting, State.actOfChan, State.actOfChan, State.actOfBlock_congr hm]
  split
  next n h => exact State.executing_congr (hs n (State.actOfBlock_lt h))
  next => rfl

/-- Whether a START is refused does not depend on CONNECT. -/
theorem State.ppmuStored_refused (s : State) (c : Nat) (v : Word) :
    (s.ppmuStored c v).ppmuRefused c = (s.store (PIN_PPMU_CFG.addr c) v).ppmuRefused c := by
  have hreg : ∀ a, a ≠ PIN_PPMU_CFG.addr c → (s.ppmuStored c v).reg a = (s.store (PIN_PPMU_CFG.addr c) v).reg a := fun a ha =>
    ((s.ppmuStored_onlyRegs c v).2 a (by simpa using ha)).trans ((s.store_onlyRegs _ v).2 a (by simpa using ha)).symm
  have hcfg : (s.ppmuStored c v).reg (PIN_CFG.addr c) = (s.store (PIN_PPMU_CFG.addr c) v).reg (PIN_CFG.addr c) :=
    hreg _ (by simp [PIN_CFG.addr, PIN_PPMU_CFG.addr])
  have hsel : (s.ppmuStored c v).fld (PIN_PPMU_CFG.MEAS_SEL c) = _ := s.ppmuStored_fld c v 8 4 (by decide)
  have hset : (s.ppmuStored c v).fld (PIN_PPMU_CFG.RB_SET c) = _ := s.ppmuStored_fld c v 12 4 (by decide)
  have hexec : (s.ppmuStored c v).chanExecuting c = (s.store (PIN_PPMU_CFG.addr c) v).chanExecuting c :=
    State.chanExecuting_congr (fun n => hreg _ (by unfold SEQ_CB_MASK.addr PIN_PPMU_CFG.addr; omega))
      (fun n _ => hreg _ (by unfold SEQ_STATUS.addr PIN_PPMU_CFG.addr; omega))
  rw [State.ppmuRefused, hsel, hset, hexec, State.ppmuStored_chan, State.ppmuStored_mode,
    State.flag_congr (f := PIN_CFG.UNUSED c) hcfg, State.flag_congr (f := PIN_CFG.LVL_STATIC c) hcfg, State.ppmuRefused,
    OnlyRegs.chan (s.store_onlyRegs _ v), State.store_mode]
  rfl

theorem State.settleFines_congr {s t : State} {c : Nat} (h : t.reg (PIN_PPMU_CFG.addr c) = s.reg (PIN_PPMU_CFG.addr c)) :
    t.settleFines c = s.settleFines c := by
  rw [State.settleFines, State.settleFines, State.fld_congr (f := PIN_PPMU_CFG.SETTLE c) h]

/-- The requests of a channel's die after a START: none of its own while a live pass holds the channel. -/
def State.ppmuAsks (s : State) (c : Nat) (stale : Bool) : List (Nat × Nat) :=
  (s.die (c / 64)).asks.filter (fun x => decide (x.2 ≠ c % 64)) ++
    (if stale then [] else [(s.time.toNat + s.settleFines c, c % 64)])

/-- What a START that is taken adds to the cleared DONE bit: the channel waits, or asks. -/
def State.ppmuBegun (s : State) (c : Nat) (stale : Bool) : State :=
  (s.setChan c { s.chan c with meas := stale }).setDie (c / 64) { s.die (c / 64) with asks := s.ppmuAsks c stale }

theorem State.ppmuBegun_waits (s : State) (c : Nat) :
    s.ppmuBegun c true = (s.unask (c / 64) (c % 64)).setChan c { s.chan c with meas := true } := by
  rw [State.ppmuBegun, State.ppmuAsks, if_pos rfl, List.append_nil]
  rfl

theorem State.ppmuBegun_asks (s : State) (c : Nat) :
    s.ppmuBegun c false = (s.setChan c { s.chan c with meas := false }).ppmuAsk c := by
  have hsettle : (s.setChan c { s.chan c with meas := false }).settleFines c = s.settleFines c := State.settleFines_congr rfl
  have htime : (s.setChan c { s.chan c with meas := false }).time = s.time := rfl
  rw [State.ppmuBegun, State.ppmuAsks, if_neg Bool.false_ne_true, State.ppmuAsk, hsettle, htime, State.ask, State.setChan_die]

theorem State.ppmuStart_eq (s : State) (c : Nat) :
    s.ppmuStart c = (s.put (PIN_PPMU_MEAS.DONE c) 0).ppmuBegun c (s.flag (PIN_STATUS.STALE c)) := by
  have hstale : (s.put (PIN_PPMU_MEAS.DONE c) 0).flag (PIN_STATUS.STALE c) = s.flag (PIN_STATUS.STALE c) :=
    State.flag_congr (s.reg_put_ne (f := PIN_PPMU_MEAS.DONE c) 0
      (by simp [PIN_STATUS.STALE, PIN_STATUS.addr, PIN_PPMU_MEAS.DONE, PIN_PPMU_MEAS.addr]))
  rw [State.ppmuStart, hstale]
  cases s.flag (PIN_STATUS.STALE c)
  · rw [if_neg Bool.false_ne_true, State.ppmuBegun_asks]
  · rw [if_pos rfl, State.ppmuBegun_waits]

theorem State.ppmuBegun_reg (s : State) (c : Nat) (b : Bool) (a : Nat) : (s.ppmuBegun c b).reg a = s.reg a := rfl

theorem State.ppmuBegun_meas (s : State) (c : Nat) (b : Bool) : ((s.ppmuBegun c b).chan c).meas = b :=
  congrArg ChanSt.meas (s.setChan_same c _)

theorem State.ppmuBegun_die (s : State) (c : Nat) (b : Bool) : ((s.ppmuBegun c b).die (c / 64)).asks = s.ppmuAsks c b :=
  congrArg DieSt.asks ((s.setChan c _).setDie_same (c / 64) _)

theorem State.ppmuBegun_chan_ne (s : State) {c e : Nat} (b : Bool) (h : e ≠ c) : (s.ppmuBegun c b).chan e = s.chan e :=
  s.setChan_ne _ h

theorem State.ppmuBegun_die_ne (s : State) {c d : Nat} (b : Bool) (h : d ≠ c / 64) : (s.ppmuBegun c b).die d = s.die d :=
  (s.setChan c _).setDie_ne _ h

theorem State.ppmuBegun_rest (s u : State) (c : Nat) (b : Bool) :
    (((u.ppmuBegun c b).withRegs s.regs).withChans s.chans).withDies s.dies =
      ((u.withRegs s.regs).withChans s.chans).withDies s.dies := by
  rw [State.ppmuBegun, State.setDie_withRegs, State.setDie_withChans, State.setDie_withDies, State.setChan_withRegs,
    State.setChan_withChans]

theorem State.put_measCfg_onlyRegs {s u : State} {c : Nat} {f : Field} (v : Nat) (h : OnlyRegs [PIN_PPMU_CFG.addr c] s u)
    (hf : f.addr = PIN_PPMU_MEAS.addr c) : OnlyRegs [PIN_PPMU_CFG.addr c, PIN_PPMU_MEAS.addr c] s (u.put f v) :=
  OnlyRegs.put_of_mem v ⟨h.1, fun a ha => h.2 a (by simp_all)⟩ (by simp [hf])

theorem exec_ppmuStart_of_inService {c : Chan} {v : Word} {s : State} (hs : s.inService = true)
    (hv : reservedBits (PIN_PPMU_CFG.addr c) v = 0) : exec (.ppmuStart c v) s = .next (s.writePpmuCfg c v) := by
  rw [exec_ppmuStart, execPpmuStart, State.hostWrite_of_access _ (State.access_of_inService hs _) hv]

theorem ppmuStart_taken {c : Chan} {v : Word} {s : State} (hm : s.mode = .idle ∨ s.mode = .run)
    (hv : reservedBits (PIN_PPMU_CFG.addr c) v = 0) (h31 : wbit v 31 = true)
    (hsel : (s.store (PIN_PPMU_CFG.addr c) v).fld (PIN_PPMU_CFG.MEAS_SEL c) < 9)
    (href : (s.store (PIN_PPMU_CFG.addr c) v).ppmuRefused c = false) :
    ∃ t, exec (.ppmuStart c v) s = .next t ∧ t.flag (PIN_PPMU_MEAS.DONE c) = false ∧
      (t.chan c).meas = s.flag (PIN_STATUS.STALE c) ∧
      (t.die (c / 64)).asks = (s.die (c / 64)).asks.filter (fun x => decide (x.2 ≠ c.val % 64)) ++
        (if s.flag (PIN_STATUS.STALE c) then []
         else [(s.time.toNat + (s.store (PIN_PPMU_CFG.addr c) v).settleFines c, c.val % 64)]) ∧
      (∀ e, e ≠ c.val → t.chan e = s.chan e) ∧ (∀ d, d ≠ c.val / 64 → t.die d = s.die d) ∧
      ((t.withRegs s.regs).withChans s.chans).withDies s.dies = s ∧
      RegsBut [PIN_PPMU_CFG.addr c, PIN_PPMU_MEAS.addr c] s t := by
  have hsel' : (s.ppmuStored c v).fld (PIN_PPMU_CFG.MEAS_SEL c) < 9 := (s.ppmuStored_fld c v 8 4 (by decide)).trans_lt hsel
  have hsettle : (s.ppmuStored c v).settleFines c = (s.store (PIN_PPMU_CFG.addr c) v).settleFines c :=
    congrArg (· * usFines) (s.ppmuStored_fld c v 20 8 (by decide))
  have hstale : (s.ppmuStored c v).flag (PIN_STATUS.STALE c) = s.flag (PIN_STATUS.STALE c) :=
    State.flag_congr ((s.ppmuStored_onlyRegs c v).2 _ (by simp [PIN_STATUS.STALE, PIN_STATUS.addr, PIN_PPMU_CFG.addr]))
  have he := exec_ppmuStart_of_inService (State.inService_of_mode hm) hv
  rw [State.writePpmuCfg_of_start h31 hsel', State.ppmuStored_refused, href, if_neg Bool.false_ne_true] at he
  obtain ⟨hrest, hregs⟩ := State.put_measCfg_onlyRegs (f := PIN_PPMU_MEAS.DONE c) 0 (s.ppmuStored_onlyRegs c v) rfl
  have hdone := (s.ppmuStored c v).flag_put_zero (PIN_PPMU_MEAS.DONE c) (by simp [PIN_PPMU_MEAS.DONE])
  have hsettle' : ((s.ppmuStored c v).put (PIN_PPMU_MEAS.DONE c) 0).settleFines c = (s.ppmuStored c v).settleFines c :=
    State.settleFines_congr (State.reg_put_ne _ (f := PIN_PPMU_MEAS.DONE c) 0
      (by simp [PIN_PPMU_CFG.addr, PIN_PPMU_MEAS.DONE, PIN_PPMU_MEAS.addr]))
  rw [State.ppmuStart_eq, hstale] at he
  refine ⟨_, he, (State.flag_congr (State.ppmuBegun_reg _ _ _ _)).trans hdone, State.ppmuBegun_meas _ _ _, ?_, fun e h => ?_,
    fun d h => ?_, ?_, fun a ha => ?_⟩
  · rw [State.ppmuBegun_die, State.ppmuAsks, hsettle', hsettle, State.put_die, State.put_time, State.ppmuStored_die,
      State.ppmuStored_time]
  · rw [State.ppmuBegun_chan_ne _ _ h, State.put_chan, State.ppmuStored_chan]
  · rw [State.ppmuBegun_die_ne _ _ h, State.put_die, State.ppmuStored_die]
  · rw [State.ppmuBegun_rest, hrest]
  · rw [State.ppmuBegun_reg]
    exact hregs a ha

theorem ppmuStart_refused {c : Chan} {v : Word} {s : State} (hm : s.mode = .idle ∨ s.mode = .run)
    (hv : reservedBits (PIN_PPMU_CFG.addr c) v = 0) (h31 : wbit v 31 = true)
    (hsel : (s.store (PIN_PPMU_CFG.addr c) v).fld (PIN_PPMU_CFG.MEAS_SEL c) < 9)
    (href : (s.store (PIN_PPMU_CFG.addr c) v).ppmuRefused c = true) :
    ∃ t, exec (.ppmuStart c v) s = .next t ∧ t.flag (PIN_PPMU_MEAS.BLOCKED c) = true ∧
      OnlyRegs [PIN_PPMU_CFG.addr c, PIN_PPMU_MEAS.addr c] s t := by
  have hsel' : (s.ppmuStored c v).fld (PIN_PPMU_CFG.MEAS_SEL c) < 9 := (s.ppmuStored_fld c v 8 4 (by decide)).trans_lt hsel
  have he := exec_ppmuStart_of_inService (State.inService_of_mode hm) hv
  rw [State.writePpmuCfg_of_start h31 hsel', State.ppmuStored_refused, href, if_pos rfl] at he
  exact ⟨_, he, State.flag_put_one _ (PIN_PPMU_MEAS.BLOCKED c) (by simp [PIN_PPMU_MEAS.BLOCKED]) (by simp [PIN_PPMU_MEAS.BLOCKED]),
    State.put_measCfg_onlyRegs 1 (s.ppmuStored_onlyRegs c v) rfl⟩

/-! ## Results (R106, R107, R109, R110) -/

/-- The mean is a whole number next to the quotient. -/
theorem State.roundTo_next (s : State) (num : Int) {den : Nat} (h : 0 < den) :
    (∃ k, (s.roundTo num den).2 = s.withFreeCtr k) ∧ |(s.roundTo num den).1 * den - num| < den := by
  have hmean : ∀ b : Int, (num / den + b) * den - num = b * den - num % den := fun b => by
    linarith [Int.ediv_mul_add_emod num den, add_mul (num / (den : Int)) b den]
  have hpos : (0 : Int) ≤ num % den := Int.emod_nonneg _ (by omega)
  have hlt : num % (den : Int) < den := Int.emod_lt_of_pos _ (by omega)
  rw [State.roundTo]
  split
  next h0 =>
    have hm := hmean 0
    rw [add_zero, h0] at hm
    exact ⟨⟨s.freeCtr, rfl⟩, by simp [hm, h]⟩
  next h0 =>
    refine ⟨⟨_, rfl⟩, ?_⟩
    rw [hmean, abs_lt]
    rcases Nat.mod_two_eq_zero_or_one s.free.toNat with hb | hb <;> rw [hb] <;> omega

/-- The fields of a result stored, before a readback's verdict. -/
def State.ppmuMeasured (s : State) (c v : Nat) (ovr clamped : Bool) : State :=
  (((s.put (PIN_PPMU_MEAS.VALUE c) v).put (PIN_PPMU_MEAS.DONE c) 1).putB (PIN_PPMU_MEAS.OVERRANGE c) ovr).putB
    (PIN_PPMU_MEAS.CLAMP c) clamped

/-- The verdict of a readback, which the channel's RB_FAIL keeps. -/
def State.ppmuVerdict (s : State) (c : Nat) (bad : Bool) : State :=
  if bad then (s.putB (PIN_PPMU_MEAS.RB_FAIL c) bad).put (PIN_STATUS.RB_FAIL c) 1 else s.putB (PIN_PPMU_MEAS.RB_FAIL c) bad

/-- A result's fields with the verdict on the DAC, where one was read back. -/
def State.ppmuReadback (s : State) (c : Nat) (dac : Option ChanDac) (v : Int) : State :=
  match dac with
  | none => s
  | some d => s.ppmuVerdict c (!s.dacOk c d v)

theorem State.ppmuResult_eq (s : State) (c : Nat) (cur : Bool) (vs : List Int) (clamped : Bool) :
    s.ppmuResult c cur vs clamped =
      ((s.roundTo vs.sum (max 1 vs.length)).2.ppmuMeasured c (twos 24 (s.roundTo vs.sum (max 1 vs.length)).1)
        (cur && overRange vs) clamped).ppmuReadback c
        (ChanDac.ofSel (s.fld (PIN_PPMU_CFG.MEAS_SEL c)) (s.fld (PIN_PPMU_CFG.RB_SET c)))
        (s.roundTo vs.sum (max 1 vs.length)).1 := by
  unfold State.ppmuResult State.ppmuReadback State.ppmuMeasured
  cases ChanDac.ofSel (s.fld (PIN_PPMU_CFG.MEAS_SEL c)) (s.fld (PIN_PPMU_CFG.RB_SET c)) with
  | none => rfl
  | some d => simp only [State.ppmuVerdict]

theorem State.ppmuMeasured_onlyRegs (s : State) (c v : Nat) (ovr clamped : Bool) :
    OnlyRegs [PIN_PPMU_MEAS.addr c] s (s.ppmuMeasured c v ovr clamped) :=
  have h1 := s.put_onlyRegs (PIN_PPMU_MEAS.VALUE c) v
  have h2 := OnlyRegs.put_of_mem (f := PIN_PPMU_MEAS.DONE c) 1 h1 List.mem_cons_self
  have h3 := OnlyRegs.put_of_mem (f := PIN_PPMU_MEAS.OVERRANGE c) (b2n ovr) h2 List.mem_cons_self
  OnlyRegs.put_of_mem (f := PIN_PPMU_MEAS.CLAMP c) (b2n clamped) h3 List.mem_cons_self

theorem State.ppmuMeasured_value (s : State) (c v : Nat) (ovr clamped : Bool) (hv : v < 2 ^ 24) :
    (s.ppmuMeasured c v ovr clamped).fld (PIN_PPMU_MEAS.VALUE c) = v := by
  rw [State.ppmuMeasured, State.putB, State.putB,
    State.fld_put_apart (f := PIN_PPMU_MEAS.CLAMP c) (g := PIN_PPMU_MEAS.VALUE c) _ _ rfl
      (by simp [PIN_PPMU_MEAS.CLAMP]) (by simp [PIN_PPMU_MEAS.CLAMP, PIN_PPMU_MEAS.VALUE]),
    State.fld_put_apart (f := PIN_PPMU_MEAS.OVERRANGE c) (g := PIN_PPMU_MEAS.VALUE c) _ _ rfl
      (by simp [PIN_PPMU_MEAS.OVERRANGE]) (by simp [PIN_PPMU_MEAS.OVERRANGE, PIN_PPMU_MEAS.VALUE]),
    State.fld_put_apart (f := PIN_PPMU_MEAS.DONE c) (g := PIN_PPMU_MEAS.VALUE c) _ _ rfl
      (by simp [PIN_PPMU_MEAS.DONE]) (by simp [PIN_PPMU_MEAS.DONE, PIN_PPMU_MEAS.VALUE]),
    State.fld_put_same _ _ _ (by simp [PIN_PPMU_MEAS.VALUE])]
  exact Nat.mod_eq_of_lt hv

theorem State.ppmuMeasured_done (s : State) (c v : Nat) (ovr clamped : Bool) :
    (s.ppmuMeasured c v ovr clamped).flag (PIN_PPMU_MEAS.DONE c) = true := by
  refine (State.flag_of_fld ?_).trans (State.flag_put_one (s.put (PIN_PPMU_MEAS.VALUE c) v) (PIN_PPMU_MEAS.DONE c)
    (by simp [PIN_PPMU_MEAS.DONE]) (by simp [PIN_PPMU_MEAS.DONE]))
  rw [State.ppmuMeasured, State.putB, State.putB,
    State.fld_put_apart (f := PIN_PPMU_MEAS.CLAMP c) (g := PIN_PPMU_MEAS.DONE c) _ _ rfl
      (by simp [PIN_PPMU_MEAS.CLAMP]) (by simp [PIN_PPMU_MEAS.CLAMP, PIN_PPMU_MEAS.DONE]),
    State.fld_put_apart (f := PIN_PPMU_MEAS.OVERRANGE c) (g := PIN_PPMU_MEAS.DONE c) _ _ rfl
      (by simp [PIN_PPMU_MEAS.OVERRANGE]) (by simp [PIN_PPMU_MEAS.OVERRANGE, PIN_PPMU_MEAS.DONE])]

theorem State.ppmuMeasured_clamp (s : State) (c v : Nat) (ovr clamped : Bool) :
    (s.ppmuMeasured c v ovr clamped).flag (PIN_PPMU_MEAS.CLAMP c) = clamped := by
  rw [State.ppmuMeasured, State.flag_putB_same _ _ _ (by simp [PIN_PPMU_MEAS.CLAMP]) (by simp [PIN_PPMU_MEAS.CLAMP])]

theorem State.ppmuVerdict_onlyRegs (s : State) (c : Nat) (bad : Bool) :
    OnlyRegs [PIN_PPMU_MEAS.addr c, PIN_STATUS.addr c] s (s.ppmuVerdict c bad) := by
  have h : OnlyRegs [PIN_PPMU_MEAS.addr c, PIN_STATUS.addr c] s (s.putB (PIN_PPMU_MEAS.RB_FAIL c) bad) :=
    OnlyRegs.put_of_mem (f := PIN_PPMU_MEAS.RB_FAIL c) (b2n bad) ⟨rfl, fun _ _ => rfl⟩ (by simp [PIN_PPMU_MEAS.RB_FAIL])
  unfold State.ppmuVerdict
  split
  · exact OnlyRegs.put_of_mem (f := PIN_STATUS.RB_FAIL c) 1 h (by simp [PIN_STATUS.RB_FAIL])
  · exact h

/-- A verdict changes no other register of the channel's than its RB_FAIL bits. -/
theorem State.ppmuVerdict_measReg (s : State) (c : Nat) (bad : Bool) :
    (s.ppmuVerdict c bad).reg (PIN_PPMU_MEAS.addr c) = (s.putB (PIN_PPMU_MEAS.RB_FAIL c) bad).reg (PIN_PPMU_MEAS.addr c) := by
  unfold State.ppmuVerdict
  split
  · exact State.reg_put_ne (f := PIN_STATUS.RB_FAIL c) _ 1 (by simp [PIN_PPMU_MEAS.addr, PIN_STATUS.RB_FAIL, PIN_STATUS.addr])
  · rfl

theorem State.ppmuVerdict_fail (s : State) (c : Nat) (bad : Bool) :
    (s.ppmuVerdict c bad).flag (PIN_PPMU_MEAS.RB_FAIL c) = bad :=
  (State.flag_congr (f := PIN_PPMU_MEAS.RB_FAIL c) (s.ppmuVerdict_measReg c bad)).trans
    (s.flag_putB_same (PIN_PPMU_MEAS.RB_FAIL c) bad (by simp [PIN_PPMU_MEAS.RB_FAIL]) (by simp [PIN_PPMU_MEAS.RB_FAIL]))

theorem State.ppmuVerdict_fld (s : State) (c : Nat) (bad : Bool) {lo len : Nat} (h : lo + len ≤ 28) :
    (s.ppmuVerdict c bad).fld ⟨PIN_PPMU_MEAS.addr c, lo, len⟩ = s.fld ⟨PIN_PPMU_MEAS.addr c, lo, len⟩ :=
  (State.fld_congr (s.ppmuVerdict_measReg c bad)).trans
    (State.fld_put_apart (f := PIN_PPMU_MEAS.RB_FAIL c) s (b2n bad) rfl (by simp [PIN_PPMU_MEAS.RB_FAIL])
      (by simp [PIN_PPMU_MEAS.RB_FAIL, h]))

theorem State.ppmuReadback_onlyRegs (s : State) (c : Nat) (dac : Option ChanDac) (v : Int) :
    OnlyRegs [PIN_PPMU_MEAS.addr c, PIN_STATUS.addr c] s (s.ppmuReadback c dac v) := by
  cases dac with
  | none => exact ⟨rfl, fun _ _ => rfl⟩
  | some d => exact s.ppmuVerdict_onlyRegs c _

theorem State.ppmuReadback_fld (s : State) (c : Nat) (dac : Option ChanDac) (v : Int) {lo len : Nat} (h : lo + len ≤ 28) :
    (s.ppmuReadback c dac v).fld ⟨PIN_PPMU_MEAS.addr c, lo, len⟩ = s.fld ⟨PIN_PPMU_MEAS.addr c, lo, len⟩ := by
  cases dac with
  | none => rfl
  | some d => exact s.ppmuVerdict_fld c _ h

theorem State.dacOk_congr {s t : State} {c : Nat} {d : ChanDac} (uv : Int)
    (h : t.reg (d.field c).addr = s.reg (d.field c).addr) : t.dacOk c d uv = s.dacOk c d uv := by
  rw [State.dacOk, State.dacOk, State.dacV, State.dacV, State.fld_congr h]

/-- The code of a DAC that a measurement selects stands in none of the registers of results. -/
theorem ChanDac.field_addr_of_ofSel {sel set c : Nat} {d : ChanDac} (h : ChanDac.ofSel sel set = some d) (hset : set < 16) :
    (d.field c).addr ≠ PIN_PPMU_MEAS.addr c ∧ (d.field c).addr ≠ PIN_STATUS.addr c := by
  unfold ChanDac.ofSel at h
  split at h <;> cases h <;>
    simp only [ChanDac.field, PIN_LVL_HI.CODE, PIN_LVL_HI.addr, PIN_LVL_LO.CODE, PIN_LVL_LO.addr, PIN_VTT.CODE, PIN_VTT.addr,
      PIN_THR_H.CODE, PIN_THR_H.addr, PIN_THR_L.CODE, PIN_THR_L.addr, PIN_MON_WIN.LO, PIN_MON_WIN.HI, PIN_MON_WIN.addr,
      PIN_PPMU_MEAS.addr, PIN_STATUS.addr] <;> omega

/-- What the result of a measurement stores: a whole number next to the mean, with the verdict on a DAC that was read back. -/
theorem State.ppmuResult_stores (s : State) (c : Nat) (cur : Bool) (vs : List Int) (clamped : Bool) (hvs : 0 < vs.length) :
    (s.ppmuResult c cur vs clamped).flag (PIN_PPMU_MEAS.DONE c) = true ∧
      (∃ m : Int, (s.ppmuResult c cur vs clamped).fld (PIN_PPMU_MEAS.VALUE c) = twos 24 m ∧
        |m * vs.length - vs.sum| < vs.length ∧
        ∀ d, ChanDac.ofSel (s.fld (PIN_PPMU_CFG.MEAS_SEL c)) (s.fld (PIN_PPMU_CFG.RB_SET c)) = some d →
          (s.ppmuResult c cur vs clamped).flag (PIN_PPMU_MEAS.RB_FAIL c) = !s.dacOk c d m) ∧
      (s.ppmuResult c cur vs clamped).flag (PIN_PPMU_MEAS.CLAMP c) = clamped ∧
      ∃ k, OnlyRegs [PIN_PPMU_MEAS.addr c, PIN_STATUS.addr c] (s.withFreeCtr k) (s.ppmuResult c cur vs clamped) := by
  have hmax : max 1 vs.length = vs.length := by omega
  obtain ⟨⟨k, hk⟩, hnext⟩ := s.roundTo_next vs.sum hvs
  rw [State.ppmuResult_eq, hmax, hk]
  generalize (s.roundTo vs.sum vs.length).1 = m at hnext ⊢
  have hm := (s.withFreeCtr k).ppmuMeasured_onlyRegs c (twos 24 m) (cur && overRange vs) clamped
  have hvalue := (s.withFreeCtr k).ppmuMeasured_value c _ (cur && overRange vs) clamped (twos_lt 24 m)
  have hdone := (s.withFreeCtr k).ppmuMeasured_done c (twos 24 m) (cur && overRange vs) clamped
  have hclamp := (s.withFreeCtr k).ppmuMeasured_clamp c (twos 24 m) (cur && overRange vs) clamped
  generalize (s.withFreeCtr k).ppmuMeasured c (twos 24 m) (cur && overRange vs) clamped = u at hm hvalue hdone hclamp ⊢
  have hset : s.fld (PIN_PPMU_CFG.RB_SET c) < 16 := s.fld_lt (PIN_PPMU_CFG.RB_SET c)
  generalize hdac : ChanDac.ofSel (s.fld (PIN_PPMU_CFG.MEAS_SEL c)) (s.fld (PIN_PPMU_CFG.RB_SET c)) = dac
  refine ⟨?_, ⟨m, ?_, hnext, fun d hd => ?_⟩, ?_, k, ?_⟩
  · exact (State.flag_of_fld (u.ppmuReadback_fld c dac m (lo := 24) (len := 1) (by decide))).trans hdone
  · exact (u.ppmuReadback_fld c dac m (lo := 0) (len := 24) (by decide)).trans hvalue
  · subst hd
    have hok : u.dacOk c d m = s.dacOk c d m := State.dacOk_congr m
      (hm.2 _ (by simpa using (ChanDac.field_addr_of_ofSel hdac hset).1))
    exact (u.ppmuVerdict_fail c _).trans (by rw [hok])
  · exact (State.flag_of_fld (u.ppmuReadback_fld c dac m (lo := 26) (len := 1) (by decide))).trans hclamp
  · exact OnlyRegs.trans ⟨hm.1, fun a ha => hm.2 a (by simp_all)⟩ (u.ppmuReadback_onlyRegs c dac m)

theorem State.satVoltage_congr {s t : State} (c : Nat) (h : ∀ a, t.reg a = s.reg a) : t.satVoltage c = s.satVoltage c := by
  funext v
  rw [State.satVoltage, State.fld_congr (h _), State.fld_congr (h _), State.satVoltage]

theorem State.atClamp_congr {s t : State} (c : Nat) (h : ∀ a, t.reg a = s.reg a) : t.atClamp c = s.atClamp c := by
  funext v
  rw [State.atClamp, State.flag_congr (h _), State.fld_congr (h _), State.fld_congr (h _), State.atClamp]

/-- The conversions of a measurement as its result takes them: the PPMU's own held at its clamps (R106). -/
def State.ppmuHeld (s : State) (c : Nat) (vs : List Int) : List Int :=
  if s.fld (PIN_PPMU_CFG.MEAS_SEL c) = 0 then
    if s.flag (PIN_PPMU_CFG.MODE c) then vs.map (s.satVoltage c) else vs.map satCurrent
  else vs

theorem State.ppmuHeld_length (s : State) (c : Nat) (vs : List Int) : (s.ppmuHeld c vs).length = vs.length := by
  unfold State.ppmuHeld
  split_ifs <;> simp

/-- The clamp bit of a result: whether a clamp acted on the PPMU (R106). -/
def State.ppmuClamped (s : State) (c : Nat) (vs : List Int) (ok : Bool) : Bool :=
  decide (s.fld (PIN_PPMU_CFG.MEAS_SEL c) = 0) && (!ok || vs.any (s.atClamp c))

/-- The result stored of the request that was next, by the instant t. -/
def State.ppmuTaken (s : State) (c : Nat) (vs : List Int) (ok : Bool) (t : Nat) : State :=
  (s.turned (c / 64) (c % 64) t).ppmuResult c
    (decide (s.fld (PIN_PPMU_CFG.MEAS_SEL c) = 0) && !s.flag (PIN_PPMU_CFG.MODE c)) (s.ppmuHeld c vs) (s.ppmuClamped c vs ok)

theorem exec_ppmuDone_of_asked {c : Chan} {vs : List Int} {ok : Bool} {since_ : Nat} {s : State}
    (hm : s.mode = .idle ∨ s.mode = .run) (h : s.asked (c / 64) (c % 64) = some since_)
    (hlen : vs.length = 2 ^ s.fld (PIN_PPMU_CFG.AVG_LOG2 c)) :
    exec (.ppmuDone c vs ok) s = .next (if (s.ppmuTaken c vs ok (since_ + vs.length * convFines)).flag (PIN_PPMU_CFG.CONT c)
      then (s.ppmuTaken c vs ok (since_ + vs.length * convFines)).ppmuAsk c
      else s.ppmuTaken c vs ok (since_ + vs.length * convFines)) := by
  have hreg := s.turned_reg (c / 64) (c % 64) (since_ + vs.length * convFines)
  have hheld : (if (decide (s.fld (PIN_PPMU_CFG.MEAS_SEL c) = 0) && !s.flag (PIN_PPMU_CFG.MODE c)) = true then vs.map satCurrent
      else if decide (s.fld (PIN_PPMU_CFG.MEAS_SEL c) = 0) = true then vs.map (s.satVoltage c) else vs) = s.ppmuHeld c vs := by
    unfold State.ppmuHeld
    by_cases hsel : s.fld (PIN_PPMU_CFG.MEAS_SEL c) = 0 <;> cases s.flag (PIN_PPMU_CFG.MODE c) <;> simp [hsel]
  rw [exec_ppmuDone, execPpmuDone, h]
  dsimp only
  rw [if_pos ⟨hm, hlen⟩, ← State.turned, State.satVoltage_congr c hreg, State.atClamp_congr c hreg, hheld, ← State.ppmuClamped,
    ← State.ppmuTaken]

theorem State.ppmuTaken_onlyRegs (s : State) (c : Nat) (vs : List Int) (ok : Bool) (t : Nat) (hvs : 0 < vs.length) :
    ∃ k, OnlyRegs [PIN_PPMU_MEAS.addr c, PIN_STATUS.addr c] ((s.turned (c / 64) (c % 64) t).withFreeCtr k)
      (s.ppmuTaken c vs ok t) :=
  ((s.turned (c / 64) (c % 64) t).ppmuResult_stores c _ (s.ppmuHeld c vs) _ (by rwa [State.ppmuHeld_length])).2.2.2

theorem State.ppmuTaken_reg (s : State) {c a : Nat} (vs : List Int) (ok : Bool) (t : Nat) (hvs : 0 < vs.length)
    (ha : a ∉ [PIN_PPMU_MEAS.addr c, PIN_STATUS.addr c]) : (s.ppmuTaken c vs ok t).reg a = s.reg a := by
  obtain ⟨k, -, hregs⟩ := s.ppmuTaken_onlyRegs c vs ok t hvs
  rw [hregs a ha, State.withFreeCtr_reg, State.turned_reg]

theorem State.ppmuTaken_die (s : State) (c : Nat) (vs : List Int) (ok : Bool) (t d : Nat) (hvs : 0 < vs.length) :
    (s.ppmuTaken c vs ok t).die d = (s.turned (c / 64) (c % 64) t).die d := by
  obtain ⟨k, h⟩ := s.ppmuTaken_onlyRegs c vs ok t hvs
  rw [OnlyRegs.die h, State.withFreeCtr_die]

theorem State.ppmuTaken_chans (s : State) (c : Nat) (vs : List Int) (ok : Bool) (t : Nat) (hvs : 0 < vs.length) :
    (s.ppmuTaken c vs ok t).chans = s.chans := by
  obtain ⟨k, h⟩ := s.ppmuTaken_onlyRegs c vs ok t hvs
  rw [OnlyRegs.chans h, State.withFreeCtr_chans, State.turned_chans]

theorem ppmuDone_kept {c : Chan} {vs : List Int} {ok : Bool} {s t : State} (h : exec (.ppmuDone c vs ok) s = .next t) :
    t.mode = s.mode ∧ Still s t := by
  have frame : ∀ fd : Followed, fd ≠ .time → t.rd fd = s.rd fd := execPpmuDone_frame c vs ok s t h
  exact ⟨State.mode_of_frame (frame .mode (by decide)), still_of_frame fun fd _ _ ht _ => frame fd ht⟩

theorem State.ppmuAsk_fld (s : State) (c : Nat) (f : Field) : (s.ppmuAsk c).fld f = s.fld f := s.ask_fld _ _ _ f

theorem State.ppmuAsk_flag (s : State) (c : Nat) (f : Field) : (s.ppmuAsk c).flag f = s.flag f := s.ask_flag _ _ _ f

theorem State.ppmuAsk_reg (s : State) (c a : Nat) : (s.ppmuAsk c).reg a = s.reg a := rfl

theorem State.ppmuAsk_chans (s : State) (c : Nat) : (s.ppmuAsk c).chans = s.chans := rfl

theorem State.ppmuAsk_time (s : State) (c : Nat) : (s.ppmuAsk c).time = s.time := rfl

theorem State.ppmuAsk_die_ne (s : State) {c d : Nat} (h : d ≠ c / 64) : (s.ppmuAsk c).die d = s.die d := s.ask_die_ne _ _ _ h

/-- A request of its own joins those that wait for a channel's die, after one that was answered. -/
theorem State.ppmuAsk_of_unasked {s u : State} {c : Nat}
    (h : (u.die (c / 64)).asks = (s.die (c / 64)).asks.filter (fun x => decide (x.2 ≠ c % 64)))
    (hcfg : u.reg (PIN_PPMU_CFG.addr c) = s.reg (PIN_PPMU_CFG.addr c)) :
    ((u.ppmuAsk c).die (c / 64)).asks = (s.die (c / 64)).asks.filter (fun x => decide (x.2 ≠ c % 64)) ++
      [((u.ppmuAsk c).time.toNat + s.settleFines c, c % 64)] := by
  rw [State.ppmuAsk_time, State.ppmuAsk, State.ask_die, h, List.filter_filter, State.settleFines_congr hcfg]
  simp only [Bool.and_self]

theorem ppmuDone_stores {c : Chan} {vs ws : List Int} {ok : Bool} {since_ : Nat} {s : State}
    (hm : s.mode = .idle ∨ s.mode = .run) (h : s.asked (c / 64) (c % 64) = some since_)
    (hlen : vs.length = 2 ^ s.fld (PIN_PPMU_CFG.AVG_LOG2 c)) (hws : ws = s.ppmuHeld c vs) :
    ∃ t, exec (.ppmuDone c vs ok) s = .next t ∧ t.flag (PIN_PPMU_MEAS.DONE c) = true ∧
      (∃ m : Int, t.fld (PIN_PPMU_MEAS.VALUE c) = twos 24 m ∧ |m * vs.length - ws.sum| < vs.length ∧
        ∀ d, ChanDac.ofSel (s.fld (PIN_PPMU_CFG.MEAS_SEL c)) (s.fld (PIN_PPMU_CFG.RB_SET c)) = some d →
          t.flag (PIN_PPMU_MEAS.RB_FAIL c) = !s.dacOk c d m) ∧
      (s.fld (PIN_PPMU_CFG.MEAS_SEL c) = 0 → t.flag (PIN_PPMU_MEAS.CLAMP c) = (!ok || vs.any (s.atClamp c))) ∧
      (t.die (c / 64)).asks = (s.die (c / 64)).asks.filter (fun x => decide (x.2 ≠ c.val % 64)) ++
        (if s.flag (PIN_PPMU_CFG.CONT c) then [(t.time.toNat + s.settleFines c, c.val % 64)] else []) ∧
      t.chans = s.chans ∧ (∀ d, d ≠ c.val / 64 → t.die d = s.die d) ∧ t.mode = s.mode ∧ Still s t ∧
      RegsBut [PIN_PPMU_MEAS.addr c, PIN_STATUS.addr c] s t := by
  have hvs : 0 < vs.length := hlen ▸ Nat.two_pow_pos _
  have he := exec_ppmuDone_of_asked (ok := ok) hm h hlen
  obtain ⟨hmode, hstill⟩ := ppmuDone_kept he
  generalize hat : since_ + vs.length * convFines = at_ at he hmode hstill
  obtain ⟨hdone, hvalue, hclamp, -⟩ := (s.turned (c / 64) (c % 64) at_).ppmuResult_stores c
    (decide (s.fld (PIN_PPMU_CFG.MEAS_SEL c) = 0) && !s.flag (PIN_PPMU_CFG.MODE c)) (s.ppmuHeld c vs) (s.ppmuClamped c vs ok)
    (by rwa [State.ppmuHeld_length])
  rw [← State.ppmuTaken] at hdone hvalue hclamp
  rw [State.ppmuHeld_length, ← hws, State.fld_congr (s.turned_reg _ _ _ _), State.fld_congr (s.turned_reg _ _ _ _)] at hvalue
  simp only [State.dacOk_congr _ (s.turned_reg _ _ _ _)] at hvalue
  have hreg : ∀ a, a ∉ [PIN_PPMU_MEAS.addr c, PIN_STATUS.addr c] → (s.ppmuTaken c vs ok at_).reg a = s.reg a := fun a =>
    s.ppmuTaken_reg vs ok at_ hvs
  have hcfg := hreg (PIN_PPMU_CFG.addr c) (by simp [PIN_PPMU_CFG.addr, PIN_PPMU_MEAS.addr, PIN_STATUS.addr])
  have hasks := (congrArg DieSt.asks (s.ppmuTaken_die c vs ok at_ (c / 64) hvs)).trans (s.turned_asks _ _ at_)
  have hdie : ∀ d, d ≠ c.val / 64 → (s.ppmuTaken c vs ok at_).die d = s.die d := fun d hd =>
    (s.ppmuTaken_die c vs ok at_ d hvs).trans (s.turned_die_ne _ _ at_ hd)
  have hchans := s.ppmuTaken_chans c vs ok at_ hvs
  have hclamp' : s.fld (PIN_PPMU_CFG.MEAS_SEL c) = 0 →
      (s.ppmuTaken c vs ok at_).flag (PIN_PPMU_MEAS.CLAMP c) = (!ok || vs.any (s.atClamp c)) := fun h0 => by
    rw [hclamp, State.ppmuClamped, decide_eq_true h0, Bool.true_and]
  rw [State.flag_congr (f := PIN_PPMU_CFG.CONT c) hcfg] at he hmode hstill
  generalize s.ppmuTaken c vs ok at_ = r at *
  cases hcont : s.flag (PIN_PPMU_CFG.CONT c)
  · rw [hcont, if_neg Bool.false_ne_true] at he hmode hstill
    exact ⟨r, he, hdone, hvalue, hclamp', hasks.trans (List.append_nil _).symm, hchans, hdie, hmode, hstill, hreg⟩
  · rw [hcont, if_pos rfl] at he hmode hstill
    obtain ⟨m, hm, hvalue⟩ := hvalue
    exact ⟨r.ppmuAsk c, he, (r.ppmuAsk_flag c _).trans hdone,
      ⟨m, (r.ppmuAsk_fld c _).trans hm, hvalue.1, fun d hd => (r.ppmuAsk_flag c _).trans (hvalue.2 d hd)⟩,
      fun h0 => (r.ppmuAsk_flag c _).trans (hclamp' h0), State.ppmuAsk_of_unasked hasks hcfg, (r.ppmuAsk_chans c).trans hchans,
      fun d hd => (r.ppmuAsk_die_ne hd).trans (hdie d hd), hmode, hstill, fun a ha => (r.ppmuAsk_reg c a).trans (hreg a ha)⟩

/-! ## Background readbacks (R112) -/

theorem State.pinEvent_reg (s : State) (c code w4 : Nat) {a : Nat} (h : evtReg a = false) :
    (s.pinEvent c code w4).reg a = s.reg a := State.eventAt_reg _ _ _ _ _ _ _ h

theorem dacReadbackScan_bad {c : Chan} {dac : BitVec 6} {uv : Int} {sel set : Nat} {d : ChanDac} {s : State}
    (hm : s.mode = .idle ∨ s.mode = .run) (hsel : dacSel dac.toNat = some (sel, set)) (hd : ChanDac.ofSel sel set = some d)
    (hbad : s.dacOk c d uv = false) (hf : s.convFree (c / 64) = true)
    (hskip : 4 ≤ sel ∨ s.chanExecuting c = false ∨ s.flag (PIN_CFG.LVL_STATIC c) = true) :
    ∃ t, exec (.dacReadbackScan c dac uv) s = .next t ∧ t.flag (PIN_STATUS.RB_FAIL c) = true ∧
      t.evtSeq = s.evtSeq + 1 ∧ Steady s t ∧ RegsButEvents [PIN_STATUS.addr c] s t := by
  have hread : (decide (sel ≤ 3) && s.chanExecuting c && !s.flag (PIN_CFG.LVL_STATIC c)) = false := by
    rcases hskip with h | h | h
    · simp [Nat.not_le.mpr (show 3 < sel from h)]
    · simp [h]
    · simp [h]
  have he : exec (.dacReadbackScan c dac uv) s =
      .next (((s.engineTurn (c / 64)).put (PIN_STATUS.RB_FAIL c) 1).pinEvent c 3 (c.val + 65536 * sel)) := by
    rw [exec_dacReadbackScan, execDacReadbackScan, hsel]
    dsimp only
    rw [if_pos ⟨hm, hread, hf, by simp [hd, hbad]⟩]
  obtain ⟨k, hk⟩ := s.engineTurn_eq (c / 64)
  rw [hk] at he
  refine ⟨_, he, ?_, ?_, steady_of_frame fun fd hfd => ?_, fun a ha hev => ?_⟩
  · exact (State.flag_congr (State.pinEvent_reg _ c 3 _ (evtReg_of_ge (by simp [PIN_STATUS.RB_FAIL, PIN_STATUS.addr]; omega)))).trans
      (State.flag_put_one _ (PIN_STATUS.RB_FAIL c) (by simp [PIN_STATUS.RB_FAIL]) (by simp [PIN_STATUS.RB_FAIL]))
  · rw [State.pinEvent, State.eventAt_evtSeq, State.put_evtSeq, State.withFreeCtr_evtSeq]
  · rw [State.pinEvent_frame _ _ _ _ fd hfd, State.put_frame]
    rfl
  · rw [State.pinEvent_reg _ _ _ _ hev, State.reg_put_ne (f := PIN_STATUS.RB_FAIL c) _ 1 (by simpa [PIN_STATUS.RB_FAIL] using ha),
      State.withFreeCtr_reg]

theorem dacReadbackScan_good {c : Chan} {dac : BitVec 6} {uv : Int} {sel set : Nat} {d : ChanDac} {s : State}
    (hsel : dacSel dac.toNat = some (sel, set)) (hd : ChanDac.ofSel sel set = some d) (hok : s.dacOk c d uv = true) :
    ∃ t, exec (.dacReadbackScan c dac uv) s = .next t ∧ { t with freeCtr := s.freeCtr } = s := by
  have he : exec (.dacReadbackScan c dac uv) s = .next (s.engineTurn (c / 64)) := by
    rw [exec_dacReadbackScan, execDacReadbackScan, hsel]
    dsimp only
    rw [if_neg (by simp [hd, hok])]
  obtain ⟨k, hk⟩ := s.engineTurn_eq (c / 64)
  exact ⟨_, he, by rw [hk]⟩

/-- Settles O21: a START asks, waits or is refused; a result stores a whole number next to the mean with its verdict, and
the background scan keeps the verdict of a bad readback alone. -/
theorem ppmuCommandsComplete : Obligations.PpmuCommandsComplete := by
  unfold Obligations.PpmuCommandsComplete
  exact ⟨fun _ _ _ => ppmuStart_taken, fun _ _ _ => ppmuStart_refused, fun _ _ _ _ _ _ => ppmuDone_stores,
    fun _ _ _ _ _ _ _ => dacReadbackScan_bad, fun _ _ _ _ _ _ _ => dacReadbackScan_good⟩

end Sys2Proof.Machine
end

section
/-! PROOF. Edges at a pin (O31). -/

namespace Sys2Proof.Machine

/-! ## Edges that are placed, and edges that are cut (R119, R130, R133) -/

theorem State.placed_of_open {s : State} {n t : Nat} (k : State → State) (h : s.cutAt n t = false) :
    s.placed n t k = k (s.at_ t) := by
  rw [State.placed, h, if_neg Bool.false_ne_true]

theorem State.placed_of_cut {s : State} {n t : Nat} (k : State → State) (h : s.cutAt n t = true) : s.placed n t k = s := by
  rw [State.placed, h, if_pos rfl]

theorem State.withTime_chan (s : State) (v : BitVec 64) (c : Nat) : (s.withTime v).chan c = s.chan c := rfl

theorem State.withTime_die (s : State) (v : BitVec 64) (d : Nat) : (s.withTime v).die d = s.die d := rfl

theorem State.withTime_act (s : State) (v : BitVec 64) (n : Nat) : (s.withTime v).act n = s.act n := rfl

theorem State.withTime_reg (s : State) (v : BitVec 64) (a : Nat) : (s.withTime v).reg a = s.reg a := rfl

/-- A channel changed at an instant: nothing else is. -/
theorem State.setChan_at_rest (s : State) (v : BitVec 64) (c : Nat) (x : ChanSt) :
    (((s.withTime v).setChan c x).withChans s.chans).withTime s.time = s := by
  rw [State.setChan_withChans]

theorem State.setChan_at_ne (s : State) (v : BitVec 64) {c e : Nat} (x : ChanSt) (h : e ≠ c) :
    ((s.withTime v).setChan c x).chan e = s.chan e :=
  ((s.withTime v).setChan_ne x h).trans (s.withTime_chan v e)

section
variable {c : Chan} {cyc : BitVec 64} {raw : Bool} {p : PinVec} {n : Nat} {s : State}
  (hp : (s.die (c / 64)).pins.find? (fun q => decide (q.vec.cycle = cyc.toNat)) = some p) (hn : s.actOfChan c = some n)

include hp in
/-- The vector of an edge is the one whose cycle the edge names. -/
theorem pins_find_cycle : p.vec.cycle = cyc.toNat := by
  simpa using List.find?_some hp

include hp hn

theorem exec_pinEdge_ui {u : Fin 8} {y : Nat} (hy : p.sym c u = some y) (hm : s.timed n = false) :
    exec (.pinEdge c cyc (.ui u) raw) s =
      .next (s.placed n (s.drvTime c (p.bank c) p.vec (s.uiTime n u 0)) (fun s => s.serialUi c y)) := by
  simp only [exec_pinEdge, execPinEdge, hp, hn, hy, hm, Bool.false_eq_true, if_false]

/-- A serial UI directs the stage of its channel. -/
theorem pinEdge_ui_directs {u : Fin 8} {y : Nat} (hy : p.sym c u = some y) (hm : s.timed n = false)
    (hopen : s.cutAt n (s.drvTime c (p.bank c) p.vec (s.uiTime n u 0)) = false) :
    ∃ t, exec (.pinEdge c cyc (.ui u) raw) s = .next t ∧ (t.chan c).driving = symDrives y ∧ (t.chan c).started = true ∧
      (t.chan c).p = (symData y).getD (s.chan c).p ∧ (∀ x, x ≠ c.val → t.chan x = s.chan x) ∧
      (t.withChans s.chans).withTime s.time = s := by
  obtain ⟨v, hv⟩ := s.at_eq (s.drvTime c (p.bank c) p.vec (s.uiTime n u 0))
  have he := exec_pinEdge_ui (raw := raw) hp hn hy hm
  rw [State.placed_of_open _ hopen, hv] at he
  have hx := (s.withTime v).setChan_same c
    { s.chan c with started := true, driving := symDrives y, p := (symData y).getD (s.chan c).p }
  exact ⟨_, he, congrArg ChanSt.driving hx, congrArg ChanSt.started hx, congrArg ChanSt.p hx,
    fun e h => s.setChan_at_ne v _ h, s.setChan_at_rest v c _⟩

theorem pinEdge_ui_cut {u : Fin 8} {y : Nat} (hy : p.sym c u = some y)
    (hcut : s.cutAt n (s.drvTime c (p.bank c) p.vec (s.uiTime n u 0)) = true) :
    exec (.pinEdge c cyc (.ui u) raw) s = .next s := by
  cases hm : s.timed n
  · rw [exec_pinEdge_ui hp hn hy hm, State.placed_of_cut _ hcut]
  · simp only [exec_pinEdge, execPinEdge, hp, hn, hy, hm, if_true]

theorem exec_pinEdge_edge {e : Fin 9} {y : Nat} (hy : p.sym c 0 = some y) (hm : s.timed n = true)
    (hfmt : symDrives y = true → s.fmt c p.vec.tset < 5) :
    exec (.pinEdge c cyc (.edge e) raw) s =
      .next (s.placed n (s.drvTime c (p.bank c) p.vec (s.edgeOf c p.vec.tset e)) (fun s => s.driveEdge c p y e)) := by
  have hok : ¬(symDrives y = true ∧ 5 ≤ s.fmt c p.vec.tset) := fun h => absurd (hfmt h.1) (Nat.not_lt.mpr h.2)
  simp only [exec_pinEdge, execPinEdge, hp, hn, hy, hm, Bool.true_eq_false, if_false, if_neg hok]

/-- A data edge of a format that drives the bit itself moves the channel's level to it. -/
theorem pinEdge_data_directs {y : Nat} {b : Bool} (hy : p.sym c 0 = some y) (hm : s.timed n = true)
    (hfmt : s.fmt c p.vec.tset = 0) (hb : symData y = some b) (hset : (s.edge c p.vec.tset 0).isSome = true)
    (hopen : s.cutAt n (s.drvTime c (p.bank c) p.vec (s.edgeOf c p.vec.tset 0)) = false) :
    ∃ t, exec (.pinEdge c cyc (.edge 0) raw) s = .next t ∧ (t.chan c).p = b ∧
      (∀ x, x ≠ c.val → t.chan x = s.chan x) ∧ (t.withChans s.chans).withTime s.time = s := by
  obtain ⟨v, hv⟩ := s.at_eq (s.drvTime c (p.bank c) p.vec (s.edgeOf c p.vec.tset 0))
  have he := exec_pinEdge_edge (raw := raw) (e := 0) hp hn hy hm (fun _ => hfmt ▸ by decide)
  rw [Fin.val_zero, State.placed_of_open _ hopen, hv] at he
  have hset' : ((s.withTime v).edge c p.vec.tset 0).isNone = false := by
    rw [show (s.withTime v).edge c p.vec.tset 0 = s.edge c p.vec.tset 0 from rfl]
    simpa using hset
  have hdrive : (s.withTime v).driveEdge c p y 0 = (s.withTime v).setChan c { s.chan c with p := b } := by
    have hfmt' : (s.withTime v).fmt c p.vec.tset = 0 := hfmt
    simp only [State.driveEdge, hset', hb, hfmt', dataEvent]
    rfl
  exact ⟨_, he.trans (congrArg _ hdrive), congrArg ChanSt.p ((s.withTime v).setChan_same c _),
    fun e h => s.setChan_at_ne v _ h, s.setChan_at_rest v c _⟩

theorem pinEdge_edge_cut {e : Fin 9} {y : Nat} (hy : p.sym c 0 = some y)
    (hfmt : symDrives y = true → s.fmt c p.vec.tset < 5)
    (hcut : s.cutAt n (s.drvTime c (p.bank c) p.vec (s.edgeOf c p.vec.tset e)) = true) :
    exec (.pinEdge c cyc (.edge e) raw) s = .next s := by
  cases hm : s.timed n
  · simp only [exec_pinEdge, execPinEdge, hp, hn, hy, hm, if_true]
  · rw [exec_pinEdge_edge hp hn hy hm hfmt, State.placed_of_cut _ hcut]

end

/-! ## What a die keeps of a vector (R103, R127) -/

theorem State.setPin_pins (s : State) (d cyc : Nat) (f : PinVec → PinVec) :
    ((s.setPin d cyc f).die d).pins = (s.die d).pins.map (fun p => if p.vec.cycle = cyc then f p else p) :=
  congrArg DieSt.pins (s.setDie_same d _)

theorem State.setPin_die_ne (s : State) {d e : Nat} (cyc : Nat) (f : PinVec → PinVec) (h : e ≠ d) :
    (s.setPin d cyc f).die e = s.die e := s.setDie_ne _ h

/-- Each vector of that cycle is one that `f` has changed. -/
theorem State.mem_setPin {s : State} {d cyc : Nat} {f : PinVec → PinVec} {q : PinVec}
    (h : q ∈ ((s.setPin d cyc f).die d).pins) (hc : q.vec.cycle = cyc) : ∃ r, q = f r := by
  rw [State.setPin_pins, List.mem_map] at h
  obtain ⟨r, -, rfl⟩ := h
  by_cases hr : r.vec.cycle = cyc
  · exact ⟨r, if_pos hr⟩
  · rw [if_neg hr] at hc
    exact absurd hc hr

/-- What `f` keeps of each vector of that cycle stays in every place. -/
theorem State.setPin_map {α : Type} (s : State) (d cyc : Nat) (f : PinVec → PinVec) (g : PinVec → α)
    (h : ∀ p, p.vec.cycle = cyc → g (f p) = g p) : ((s.setPin d cyc f).die d).pins.map g = (s.die d).pins.map g := by
  rw [State.setPin_pins, List.map_map]
  refine List.map_congr_left fun p _ => ?_
  by_cases hp : p.vec.cycle = cyc
  · simp only [Function.comp_apply, if_pos hp, h p hp]
  · simp only [Function.comp_apply, if_neg hp]

theorem State.setPin_at_rest (s : State) (v : BitVec 64) (d cyc : Nat) (f : PinVec → PinVec) :
    (((s.withTime v).setPin d cyc f).withDies s.dies).withTime s.time = s := by
  rw [State.setPin, State.setDie_withDies]

/-- The vector after a sample of UI u at channel c (R103, R127). -/
def State.sampledPin (s : State) (c : Nat) (p : PinVec) (u y : Nat) (low bit : Bool) (t : Nat) : PinVec :=
  { p with
    bits := Tab.set (fun _ => 0) p.bits (2 * (1024 * u + c) + b2n low) (sampleBit (s.parked c) (s.heldBit c low bit t))
    times := if low = decide (y = 4 ∨ y = 9) then Tab.set (fun _ => 0) p.times (1024 * u + c) (t + 1) else p.times }

theorem State.sampledPin_vec (s : State) (c : Nat) (p : PinVec) (u y : Nat) (low bit : Bool) (t : Nat) :
    (s.sampledPin c p u y low bit t).vec = p.vec := rfl

theorem State.sampledPin_bit (s : State) (c : Nat) (p : PinVec) (u y : Nat) (low bit : Bool) (t : Nat) :
    Tab.get (fun _ => 0) (s.sampledPin c p u y low bit t).bits (2 * (1024 * u + c) + b2n low) =
      sampleBit (s.parked c) (s.heldBit c low bit t) := Tab.get_set_same _ _ _

theorem State.sampledPin_bit_other (s : State) (c : Nat) (p : PinVec) (u y : Nat) (low bit : Bool) (t : Nat) :
    Tab.get (fun _ => 0) (s.sampledPin c p u y low bit t).bits (2 * (1024 * u + c) + b2n (!low)) =
      Tab.get (fun _ => 0) p.bits (2 * (1024 * u + c) + b2n (!low)) :=
  Tab.get_set_ne _ _ (by cases low <;> simp [b2n])

/-- The state in which a sample is kept with its vector. -/
def State.sampleKept (s : State) (c : Nat) (p : PinVec) (u y : Nat) (low bit : Bool) (t : Nat) : State :=
  s.setPin (c / 64) p.vec.cycle (fun _ => s.sampledPin c p u y low bit t)

/-- A symbol that is not verified (R103). -/
theorem State.sample_of_unverified (s : State) (c : Nat) (p : PinVec) (u : Nat) {y : Nat} (low bit : Bool) (t : Nat)
    (hy : y < 9) : s.sample c p u y low bit t = s.sampleKept c p u y low bit t := by
  unfold State.sample
  dsimp only
  rw [if_neg (by omega)]
  rfl

/-- A driven level that the two comparators contradict (R103). -/
theorem State.sample_of_contradicted {s : State} {c : Nat} {p : PinVec} {u y r : Nat} {low bit : Bool} {t : Nat}
    (hy : y = 9 ∨ y = 10) (hr : (s.sampledPin c p u y low bit t).raw (1024 * u + c) = some (r, false))
    (hbad : symPasses y r = false) : s.sample c p u y low bit t = (s.sampleKept c p u y low bit t).driveCheck c := by
  rw [State.sampledPin] at hr
  unfold State.sample
  dsimp only
  rw [if_pos hy, hr]
  dsimp only
  rw [hbad, if_neg Bool.false_ne_true]
  rfl

/-- What a sample at an instant keeps, and leaves. -/
theorem State.sampleKept_at (s : State) (v : BitVec 64) (c : Nat) (p : PinVec) (u y : Nat) (low bit : Bool) (t : Nat) :
    (∀ q ∈ (((s.withTime v).sampleKept c p u y low bit t).die (c / 64)).pins, q.vec.cycle = p.vec.cycle →
        Tab.get (fun _ => 0) q.bits (2 * (1024 * u + c) + b2n low) = sampleBit (s.parked c) (s.heldBit c low bit t)) ∧
      (((s.withTime v).sampleKept c p u y low bit t).die (c / 64)).pins.map (·.vec.cycle) =
        (s.die (c / 64)).pins.map (·.vec.cycle) ∧
      (∀ b, b ≠ c / 64 → ((s.withTime v).sampleKept c p u y low bit t).die b = s.die b) ∧
      (((s.withTime v).sampleKept c p u y low bit t).withDies s.dies).withTime s.time = s := by
  refine ⟨fun q hq hc => ?_, ?_, fun b hb => ?_, s.setPin_at_rest v _ _ _⟩
  · obtain ⟨r, rfl⟩ := State.mem_setPin hq hc
    exact (s.withTime v).sampledPin_bit c p u y low bit t
  · exact (s.withTime v).setPin_map _ _ _ (fun q => q.vec.cycle) fun r hr => hr.symm
  · exact ((s.withTime v).setPin_die_ne _ _ hb).trans (s.withTime_die v b)

section
variable {c : Chan} {cyc : BitVec 64} {raw : Bool} {p : PinVec} {n : Nat} {s : State}
  (hp : (s.die (c / 64)).pins.find? (fun q => decide (q.vec.cycle = cyc.toNat)) = some p) (hn : s.actOfChan c = some n)
include hp hn

theorem exec_pinEdge_sample {u : Fin 8} {low : Bool} {y tm : Nat} (hy : p.sym c u = some y) (hm : s.timed n = false)
    (ht : s.samplePoint n c p low u = some tm) (hopen : s.cutAt n tm = false) :
    exec (.pinEdge c cyc (.sample u low) raw) s = .next ((s.at_ tm).sample c p u y low raw tm) := by
  simp only [exec_pinEdge, execPinEdge, hp, hn, hy, ht, hm, Bool.false_eq_true, if_false, State.placed_of_open _ hopen]

theorem pinEdge_sample_keeps {u : Fin 8} {low : Bool} {y tm : Nat} (hy : p.sym c u = some y) (hm : s.timed n = false)
    (ht : s.samplePoint n c p low u = some tm) (hopen : s.cutAt n tm = false) (h9 : y < 9) :
    ∃ t, exec (.pinEdge c cyc (.sample u low) raw) s = .next t ∧
      (∀ q ∈ (t.die (c.val / 64)).pins, q.vec.cycle = cyc.toNat → Tab.get (fun _ => 0) q.bits (2 * (1024 * u + c) + b2n low) =
        sampleBit (s.parked c) (s.heldBit c low raw tm)) ∧
      (t.die (c / 64)).pins.map (·.vec.cycle) = (s.die (c / 64)).pins.map (·.vec.cycle) ∧
      (∀ b, b ≠ c.val / 64 → t.die b = s.die b) ∧ (t.withDies s.dies).withTime s.time = s := by
  obtain ⟨v, hv⟩ := s.at_eq tm
  have he := exec_pinEdge_sample (raw := raw) hp hn hy hm ht hopen
  rw [hv, State.sample_of_unverified _ _ _ _ _ _ _ h9] at he
  exact ⟨_, he, pins_find_cycle hp ▸ s.sampleKept_at v c p u y low raw tm⟩

theorem exec_pinEdge_s1 {low : Bool} {y e : Nat} (hy : p.sym c 0 = some y) (hm : s.timed n = true)
    (hset : s.edge c p.vec.tset 6 = some e) (hopen : s.cutAt n (s.cmpTime c (p.bank c) low p.vec e) = false) :
    exec (.pinEdge c cyc (.s1 low) raw) s = .next ((s.at_ (s.cmpTime c (p.bank c) low p.vec e)).sample c p 0 y low raw
      (s.cmpTime c (p.bank c) low p.vec e)) := by
  simp only [exec_pinEdge, execPinEdge, hp, hn, hy, hset, hm, Bool.true_eq_false, if_false, State.placed_of_open _ hopen]

/-- S1 of a timed vector samples its one UI. -/
theorem pinEdge_s1_keeps {low : Bool} {y e : Nat} (hy : p.sym c 0 = some y) (hm : s.timed n = true)
    (hset : s.edge c p.vec.tset 6 = some e) (hopen : s.cutAt n (s.cmpTime c (p.bank c) low p.vec e) = false) (h9 : y < 9) :
    ∃ t, exec (.pinEdge c cyc (.s1 low) raw) s = .next t ∧
      (∀ q ∈ (t.die (c.val / 64)).pins, q.vec.cycle = cyc.toNat → Tab.get (fun _ => 0) q.bits (2 * c + b2n low) =
        sampleBit (s.parked c) (s.heldBit c low raw (s.cmpTime c (p.bank c) low p.vec e))) ∧
      (t.die (c / 64)).pins.map (·.vec.cycle) = (s.die (c / 64)).pins.map (·.vec.cycle) ∧
      (∀ b, b ≠ c.val / 64 → t.die b = s.die b) ∧ (t.withDies s.dies).withTime s.time = s := by
  obtain ⟨v, hv⟩ := s.at_eq (s.cmpTime c (p.bank c) low p.vec e)
  have he := exec_pinEdge_s1 (raw := raw) hp hn hy hm hset hopen
  rw [hv, State.sample_of_unverified _ _ _ _ _ _ _ h9] at he
  have hkept := s.sampleKept_at v c p 0 y low raw (s.cmpTime c (p.bank c) low p.vec e)
  simp only [Nat.mul_zero, Nat.zero_add] at hkept
  exact ⟨_, he, pins_find_cycle hp ▸ hkept⟩

/-- S2 closes the window of a compare that the pin has moved in. -/
theorem pinEdge_s2_closes {low : Bool} {e1 e : Nat} (hm : s.timed n = true) (h1 : s.edge c p.vec.tset 6 = some e1)
    (h2 : s.edge c p.vec.tset 7 = some e) (hopen : s.cutAt n (s.cmpTime c (p.bank c) low p.vec e) = false) :
    ∃ t, exec (.pinEdge c cyc (.s2 low true) raw) s = .next t ∧
      (∀ q ∈ (t.die (c.val / 64)).pins, q.vec.cycle = cyc.toNat → c.val ∈ q.moved) ∧
      (t.die (c / 64)).pins.map (·.bits) = (s.die (c / 64)).pins.map (·.bits) ∧
      (∀ b, b ≠ c.val / 64 → t.die b = s.die b) ∧ (t.withDies s.dies).withTime s.time = s := by
  obtain ⟨v, hv⟩ := s.at_eq (s.cmpTime c (p.bank c) low p.vec e)
  have he : exec (.pinEdge c cyc (.s2 low true) raw) s =
      .next ((s.withTime v).setPin (c / 64) p.vec.cycle (fun q => { q with moved := c.val :: q.moved })) := by
    simp only [exec_pinEdge, execPinEdge, hp, hn, h1, h2, hm, Bool.true_eq_false, or_self, if_false,
      State.placed_of_open _ hopen, hv]
  rw [pins_find_cycle hp] at he
  refine ⟨_, he, fun q hq hc => ?_, ?_, fun b hb => ?_, s.setPin_at_rest v _ _ _⟩
  · obtain ⟨r, rfl⟩ := State.mem_setPin hq hc
    exact List.mem_cons_self
  · exact (s.withTime v).setPin_map _ _ _ (fun q => q.bits) fun _ _ => rfl
  · exact ((s.withTime v).setPin_die_ne _ _ hb).trans (s.withTime_die v b)

end

theorem pinEdge_s2_still (c : Chan) (cyc : BitVec 64) (low raw : Bool) (s : State) :
    exec (.pinEdge c cyc (.s2 low false) raw) s = .next s := by
  rw [exec_pinEdge, execPinEdge]
  split
  · dsimp only
    split <;> simp
  · rfl

/-! ## Drive checks (R103, R104) -/

theorem State.fld_bump_same (s : State) (f : Field) (h : f.lo + f.len ≤ 32) :
    (s.bump f).fld f = satN f.len (s.fld f + 1) := by
  rw [State.bump, State.fld_put_same _ _ _ h]
  have hpos := Nat.two_pow_pos f.len
  exact Nat.mod_eq_of_lt (by unfold satN; omega)

/-- A drive check flagged and counted. -/
def State.driveCounted (s : State) (c : Nat) : State :=
  ((s.setDie (c / 64) { s.die (c / 64) with dchk := true }).put (PIN_STATUS.DCHK c) 1).bump (PIN_STATUS.DCHK_CNT c)

/-- The first drive check of a channel joins the events that wait at its die. -/
def State.driveNoted (s : State) (c : Nat) : State :=
  if (s.chan c).dchkSeen then s
  else
    let x := s.die (c / 64)
    (s.setChan c { s.chan c with dchkSeen := true }).setDie (c / 64)
      { x with evts := x.evts ++ [(c, s.dieTime (c / 64) s.time.toNat)] }

theorem State.driveCheck_eq (s : State) (c : Nat) :
    s.driveCheck c = if ((s.driveCounted c).driveNoted c).flag (PIN_CFG.DCHK_OFF c)
      then ((s.driveCounted c).driveNoted c).put (PIN_STATUS.DCHK_DIS c) 1 else (s.driveCounted c).driveNoted c := rfl

theorem State.driveCounted_onlyRegs (s : State) (c : Nat) :
    OnlyRegs [PIN_STATUS.addr c] (s.setDie (c / 64) { s.die (c / 64) with dchk := true }) (s.driveCounted c) :=
  OnlyRegs.put_of_mem (f := PIN_STATUS.DCHK_CNT c) _ (State.put_onlyRegs _ (PIN_STATUS.DCHK c) 1) List.mem_cons_self

theorem State.driveCounted_flag (s : State) (c : Nat) : (s.driveCounted c).flag (PIN_STATUS.DCHK c) = true := by
  refine (State.flag_of_fld ?_).trans (State.flag_put_one (s.setDie (c / 64) { s.die (c / 64) with dchk := true })
    (PIN_STATUS.DCHK c) (by simp [PIN_STATUS.DCHK]) (by simp [PIN_STATUS.DCHK]))
  rw [State.driveCounted, State.bump, State.fld_put_apart (f := PIN_STATUS.DCHK_CNT c) (g := PIN_STATUS.DCHK c) _ _ rfl
    (by simp [PIN_STATUS.DCHK_CNT]) (by simp [PIN_STATUS.DCHK, PIN_STATUS.DCHK_CNT])]

theorem State.driveCounted_count (s : State) (c : Nat) :
    (s.driveCounted c).fld (PIN_STATUS.DCHK_CNT c) = satN 16 (s.fld (PIN_STATUS.DCHK_CNT c) + 1) := by
  rw [State.driveCounted, State.fld_bump_same _ _ (by simp [PIN_STATUS.DCHK_CNT]),
    State.fld_put_apart (f := PIN_STATUS.DCHK c) (g := PIN_STATUS.DCHK_CNT c) _ _ rfl
      (by simp [PIN_STATUS.DCHK]) (by simp [PIN_STATUS.DCHK, PIN_STATUS.DCHK_CNT])]
  rfl

theorem State.driveNoted_reg (s : State) (c a : Nat) : (s.driveNoted c).reg a = s.reg a := by
  unfold State.driveNoted
  split <;> rfl

theorem State.driveNoted_time (s : State) (c : Nat) : (s.driveNoted c).time = s.time := by
  unfold State.driveNoted
  split <;> rfl

theorem State.driveNoted_evtSeq (s : State) (c : Nat) : (s.driveNoted c).evtSeq = s.evtSeq := by
  unfold State.driveNoted
  split <;> rfl

theorem State.driveNoted_seen (s : State) (c : Nat) : ((s.driveNoted c).chan c).dchkSeen = true := by
  unfold State.driveNoted
  split
  next h => exact h
  next => exact congrArg ChanSt.dchkSeen (s.setChan_same c _)

theorem State.driveNoted_chan_ne (s : State) {c e : Nat} (h : e ≠ c) : (s.driveNoted c).chan e = s.chan e := by
  unfold State.driveNoted
  split
  · rfl
  · exact s.setChan_ne _ h

theorem State.driveNoted_dchk (s : State) (c : Nat) : ((s.driveNoted c).die (c / 64)).dchk = (s.die (c / 64)).dchk := by
  unfold State.driveNoted
  split
  · rfl
  · dsimp only
    rw [State.setDie_same]

theorem State.driveNoted_evts (s : State) (c : Nat) : ((s.driveNoted c).die (c / 64)).evts = (s.die (c / 64)).evts ++
    (if (s.chan c).dchkSeen then [] else [(c, s.dieTime (c / 64) s.time.toNat)]) := by
  unfold State.driveNoted
  split
  · exact (List.append_nil _).symm
  · exact congrArg DieSt.evts (State.setDie_same _ (c / 64) _)

/-- What a drive check stores, and leaves. -/
theorem State.driveCheck_stores (s : State) (c : Nat) :
    (s.driveCheck c).flag (PIN_STATUS.DCHK c) = true ∧
      (s.driveCheck c).fld (PIN_STATUS.DCHK_CNT c) = satN 16 (s.fld (PIN_STATUS.DCHK_CNT c) + 1) ∧
      RegsBut [PIN_STATUS.addr c] s (s.driveCheck c) ∧
      OnlyRegs [PIN_STATUS.addr c] ((s.driveCounted c).driveNoted c) (s.driveCheck c) := by
  have hregs : RegsBut [PIN_STATUS.addr c] s ((s.driveCounted c).driveNoted c) := fun a ha =>
    (State.driveNoted_reg _ c a).trans ((s.driveCounted_onlyRegs c).2 a ha)
  have hflag : ((s.driveCounted c).driveNoted c).flag (PIN_STATUS.DCHK c) = true :=
    (State.flag_congr (State.driveNoted_reg _ c _)).trans (s.driveCounted_flag c)
  have hcount : ((s.driveCounted c).driveNoted c).fld (PIN_STATUS.DCHK_CNT c) = satN 16 (s.fld (PIN_STATUS.DCHK_CNT c) + 1) :=
    (State.fld_congr (State.driveNoted_reg _ c _)).trans (s.driveCounted_count c)
  rw [State.driveCheck_eq]
  generalize (s.driveCounted c).driveNoted c = u at *
  split
  · refine ⟨?_, ?_, RegsBut.put_of_mem (f := PIN_STATUS.DCHK_DIS c) 1 hregs List.mem_cons_self, u.put_onlyRegs _ 1⟩
    · rw [State.flag_of_fld (State.fld_put_apart (f := PIN_STATUS.DCHK_DIS c) (g := PIN_STATUS.DCHK c) u 1 rfl
        (by simp [PIN_STATUS.DCHK_DIS]) (by simp [PIN_STATUS.DCHK, PIN_STATUS.DCHK_DIS])), hflag]
    · rw [State.fld_put_apart (f := PIN_STATUS.DCHK_DIS c) (g := PIN_STATUS.DCHK_CNT c) u 1 rfl
        (by simp [PIN_STATUS.DCHK_DIS]) (by simp [PIN_STATUS.DCHK_CNT, PIN_STATUS.DCHK_DIS]), hcount]
  · exact ⟨hflag, hcount, hregs, rfl, fun _ _ => rfl⟩

/-- The die, the channels and the event that a drive check leaves. -/
theorem State.driveCheck_notes (s : State) (c : Nat) :
    ((s.driveCheck c).chan c).dchkSeen = true ∧ ((s.driveCheck c).die (c / 64)).dchk = true ∧
      (s.driveCheck c).evtSeq = s.evtSeq ∧ ((s.driveCheck c).die (c / 64)).evts = (s.die (c / 64)).evts ++
        (if (s.chan c).dchkSeen then [] else [(c, s.dieTime (c / 64) (s.driveCheck c).time.toNat)]) ∧
      ∀ x, x ≠ c → (s.driveCheck c).chan x = s.chan x := by
  have h := (s.driveCheck_stores c).2.2.2
  have h0 := s.driveCounted_onlyRegs c
  have hdie : (s.driveCounted c).die (c / 64) = { s.die (c / 64) with dchk := true } :=
    (OnlyRegs.die h0 _).trans (s.setDie_same _ _)
  have hchan : ∀ e, (s.driveCounted c).chan e = s.chan e := fun e => (OnlyRegs.chan h0 e).trans rfl
  have htime : (s.driveCounted c).time = s.time := (OnlyRegs.time h0).trans rfl
  have hdt : ∀ t, (s.driveCounted c).dieTime (c / 64) t = s.dieTime (c / 64) t := fun t => by
    rw [State.dieTime, State.dieTime, hdie]
  refine ⟨?_, ?_, ?_, ?_, fun x hx => ?_⟩
  · rw [OnlyRegs.chan h, State.driveNoted_seen]
  · rw [OnlyRegs.die h, State.driveNoted_dchk, hdie]
  · rw [OnlyRegs.evtSeq h, State.driveNoted_evtSeq, OnlyRegs.evtSeq h0]
    rfl
  · rw [OnlyRegs.die h, State.driveNoted_evts, OnlyRegs.time h, State.driveNoted_time, hdt, hchan, hdie, htime]
  · rw [OnlyRegs.chan h, State.driveNoted_chan_ne _ hx, hchan]

/-- Two samples, the other one `o`, of a channel that was not parked: the raw state that they make (R178). -/
theorem State.sampledPin_raw {s : State} {c : Nat} {p : PinVec} {u y t : Nat} {low bit o : Bool} (hpark : s.parked c = false)
    (ho : Tab.get (fun _ => 0) p.bits (2 * (1024 * u + c) + b2n (!low)) = 1 + b2n o) :
    (s.sampledPin c p u y low bit t).raw (1024 * u + c) =
      some (if low then 2 * b2n o + b2n (s.heldBit c low bit t) else 2 * b2n (s.heldBit c low bit t) + b2n o, false) := by
  have hbit := s.sampledPin_bit c p u y low bit t
  have hother := s.sampledPin_bit_other c p u y low bit t
  rw [ho] at hother
  rw [hpark] at hbit
  cases low <;> simp only [b2n, Bool.not_false, Bool.not_true, cond_false, cond_true, Nat.add_zero] at hbit hother <;>
    rw [PinVec.raw, hbit, hother] <;>
    cases o <;> cases s.heldBit c _ bit t <;> rfl

theorem State.sampleKept_evts (s : State) (c : Nat) (p : PinVec) (u y : Nat) (low bit : Bool) (t : Nat) :
    ((s.sampleKept c p u y low bit t).die (c / 64)).evts = (s.die (c / 64)).evts :=
  (congrArg DieSt.evts (s.setDie_same (c / 64) _) :)

theorem State.sampleKept_dieTime (s : State) (c : Nat) (p : PinVec) (u y : Nat) (low bit : Bool) (t i : Nat) :
    (s.sampleKept c p u y low bit t).dieTime (c / 64) i = s.dieTime (c / 64) i := by
  rw [State.dieTime, State.sampleKept, State.setPin, State.setDie_same, State.dieTime]

theorem pinEdge_kept {c : Chan} {cyc : BitVec 64} {e : PinEv} {raw : Bool} {s t : State}
    (h : exec (.pinEdge c cyc e raw) s = .next t) : t.mode = s.mode ∧ Still s t := by
  have frame : ∀ fd : Followed, fd ≠ .time → fd ≠ .dram → t.rd fd = s.rd fd := execPinEdge_frame c cyc e raw s t h
  exact ⟨State.mode_of_frame (frame .mode (by decide) (by decide)), still_of_frame fun fd hd _ ht _ => frame fd ht hd⟩

section
variable {c : Chan} {cyc : BitVec 64} {raw : Bool} {p : PinVec} {n : Nat} {s : State}
  (hp : (s.die (c / 64)).pins.find? (fun q => decide (q.vec.cycle = cyc.toNat)) = some p) (hn : s.actOfChan c = some n)
include hp hn

/-- A driven level that the comparators contradict: a drive check. -/
theorem pinEdge_sample_contradicted {u : Fin 8} {low o : Bool} {y tm : Nat} (hy : p.sym c u = some y) (hm : s.timed n = false)
    (ht : s.samplePoint n c p low u = some tm) (hopen : s.cutAt n tm = false) (h9 : y = 9 ∨ y = 10)
    (hpark : s.parked c = false) (ho : Tab.get (fun _ => 0) p.bits (2 * (1024 * u + c) + b2n (!low)) = 1 + b2n o)
    (hbad : symPasses y (if low then 2 * b2n o + b2n (s.heldBit c low raw tm) else 2 * b2n (s.heldBit c low raw tm) + b2n o) =
      false) :
    ∃ t, exec (.pinEdge c cyc (.sample u low) raw) s = .next t ∧ t.flag (PIN_STATUS.DCHK c) = true ∧
      t.fld (PIN_STATUS.DCHK_CNT c) = satN 16 (s.fld (PIN_STATUS.DCHK_CNT c) + 1) ∧ (t.chan c).dchkSeen = true ∧
      (t.die (c / 64)).dchk = true ∧ t.evtSeq = s.evtSeq ∧ (t.die (c / 64)).evts = (s.die (c / 64)).evts ++
        (if (s.chan c).dchkSeen then [] else [(c.val, s.dieTime (c / 64) t.time.toNat)]) ∧
      (∀ x, x ≠ c.val → t.chan x = s.chan x) ∧ t.mode = s.mode ∧ Still s t ∧
      RegsBut [PIN_STATUS.addr c] s t := by
  obtain ⟨v, hv⟩ := s.at_eq tm
  have he := exec_pinEdge_sample (raw := raw) hp hn hy hm ht hopen
  rw [hv, State.sample_of_contradicted h9 (State.sampledPin_raw (s := s.withTime v) hpark ho) hbad] at he
  obtain ⟨hmode, hstill⟩ := pinEdge_kept he
  have hevts := (s.withTime v).sampleKept_evts c p u y low raw tm
  have hclock := (s.withTime v).sampleKept_dieTime c p u y low raw tm
  have hreg : ∀ a, ((s.withTime v).sampleKept c p u y low raw tm).reg a = s.reg a := fun _ => rfl
  have hchan : ∀ e, ((s.withTime v).sampleKept c p u y low raw tm).chan e = s.chan e := fun _ => rfl
  have hseq : ((s.withTime v).sampleKept c p u y low raw tm).evtSeq = s.evtSeq := rfl
  obtain ⟨hflag, hcount, hregs, -⟩ := ((s.withTime v).sampleKept c p u y low raw tm).driveCheck_stores c
  obtain ⟨hseen, hdchk, hseq', hnoted, hothers⟩ := ((s.withTime v).sampleKept c p u y low raw tm).driveCheck_notes c
  rw [State.fld_congr (hreg _)] at hcount
  rw [hevts, hclock, hchan] at hnoted
  exact ⟨_, he, hflag, hcount, hseen, hdchk, hseq'.trans hseq, hnoted, fun x hx => (hothers x hx).trans (hchan x),
    hmode, hstill, fun a ha => (hregs a ha).trans (hreg a)⟩

end

/-! ## T0 (R176, R239, R280) -/

theorem State.tdcBegin_acts (s : State) (c : Nat) : (s.tdcBegin c).acts = s.acts := by simp [State.tdcBegin]

theorem State.tdcTake_acts (s : State) : s.tdcTake.acts = s.acts :=
  State.each_inv (P := State.acts) (by intro c s; simp) _ s

theorem State.tdcRelease_acts (s : State) : s.tdcRelease.acts = s.acts :=
  State.each_inv (P := State.acts) (by intro c s; simp [State.tdcBegin_acts]) _ s

theorem State.tdcSync_acts (s : State) (c : Nat) (was : Bool) : (s.tdcSync c was).acts = s.acts := by
  unfold State.tdcSync
  split_ifs
  · rfl
  · exact (State.tdcRelease_acts _).trans (by simp [State.streamsRelease])
  · exact Eq.trans (by simp [State.streamsTake]) s.tdcTake_acts

theorem State.passLend_acts (s : State) (d : Nat) (lent : Bool) : (s.passLend d lent).acts = s.acts := by
  unfold State.passLend State.setPass
  split
  · exact State.tdcSync_acts _ _ _
  · rfl

theorem State.passLend_of_none {s : State} {d : Nat} (lent : Bool) (h : (s.die d).pass = none) : s.passLend d lent = s := by
  rw [State.passLend, h]

/-- A vector without marks only counts as the next at the pins. -/
theorem State.vecAtPins_of_unmarked {s : State} {n : Nat} {v : Vec} (h : (s.act n).atPins ≤ v.cycle)
    (hcapt : captMark v.capt = false) (hmark : bitOf v.mark 22 = false) :
    s.vecAtPins n v = s.setAct n { s.act n with atPins := v.cycle + 1 } := by
  simp only [State.vecAtPins, Nat.not_lt.mpr h, hcapt, hmark, Bool.false_eq_true, if_false]

theorem pinEdge_t0_counts {c : Chan} {cyc : BitVec 64} {raw : Bool} {p : PinVec} {n : Nat} {s : State}
    (hp : (s.die (c / 64)).pins.find? (fun q => decide (q.vec.cycle = cyc.toNat)) = some p) (hn : s.actOfChan c = some n)
    (hle : (s.act n).atPins ≤ cyc.toNat) (hcapt : captMark p.vec.capt = false) (hmark : bitOf p.vec.mark 22 = false) :
    ∃ t, exec (.pinEdge c cyc .t0 raw) s = .next t ∧ (t.act n).atPins = cyc.toNat + 1 ∧
      (∀ m, m ≠ n → t.act m = s.act m) ∧
      ((s.die (c / 64)).pass = none → (t.withActs s.acts).withTime s.time = s) := by
  have hc := pins_find_cycle hp
  obtain ⟨v, hv⟩ := s.at_eq (p.vec.time + s.fwdDepth)
  have he : exec (.pinEdge c cyc .t0 raw) s = .next
      (((s.withTime v).setAct n { s.act n with atPins := p.vec.cycle + 1 }).passLend (c / 64) p.lent.isSome) := by
    have hle' : ((s.withTime v).act n).atPins ≤ p.vec.cycle := hc ▸ hle
    simp only [exec_pinEdge, execPinEdge, hp, hn, hv, State.vecAtPins_of_unmarked hle' hcapt hmark, State.withTime_act]
  have hacts := ((s.withTime v).setAct n { s.act n with atPins := p.vec.cycle + 1 }).passLend_acts (c / 64) p.lent.isSome
  refine ⟨_, he, ?_, fun m hm => ?_, fun hnone => ?_⟩
  · rw [State.act_congr hacts, State.setAct_same, hc]
  · rw [State.act_congr hacts, State.setAct_ne _ _ hm, State.withTime_act]
  · rw [State.passLend_of_none (s := (s.withTime v).setAct n _) _ hnone]
    rfl

/-- Settles O31: an edge that is not cut directs the stage, keeps a sample, notes a drive check or closes a window; T0 of a
vector without marks counts it. -/
theorem pinEdgesComplete : Obligations.PinEdgesComplete := by
  unfold Obligations.PinEdgesComplete
  exact ⟨fun _ _ _ _ _ _ _ _ hp hn => pinEdge_ui_directs hp hn, fun _ _ _ _ _ _ _ _ hp hn => pinEdge_ui_cut hp hn,
    fun _ _ _ _ _ _ _ _ hp hn => pinEdge_data_directs hp hn, fun _ _ _ _ _ _ _ _ hp hn => pinEdge_edge_cut hp hn,
    fun _ _ _ _ _ _ _ _ _ _ hp hn => pinEdge_sample_keeps hp hn,
    fun _ _ _ _ _ _ _ _ _ _ _ hp hn => pinEdge_sample_contradicted hp hn,
    fun _ _ _ _ _ _ _ _ _ hp hn => pinEdge_s1_keeps hp hn, fun _ _ _ _ _ _ _ _ _ hp hn => pinEdge_s2_closes hp hn,
    pinEdge_s2_still, fun _ _ _ _ _ _ hp hn => pinEdge_t0_counts hp hn⟩

end Sys2Proof.Machine
end

section
/-! SUPPORT. What a monitor's park of a ring keeps: PIN_STATUS, and while the act runs the other channels (15, R275). -/

namespace Sys2Proof.Machine

/-! ## What a park of a ring keeps: PIN_STATUS of a channel, and the channels (R130, R135, R151) -/

/-- The channels, and PIN_STATUS of one. -/
def State.pinRest (c : Chan) (s : State) : Tab ChanSt × Word := (s.chans, s.reg (PIN_STATUS.addr c))

theorem State.pinRest_of {c : Chan} {s t : State} (hc : t.chans = s.chans)
    (hr : t.reg (PIN_STATUS.addr c) = s.reg (PIN_STATUS.addr c)) : State.pinRest c t = State.pinRest c s :=
  Prod.ext hc hr

theorem State.pinRest_put (c : Chan) (s : State) {f : Field} (v : Nat) (h : PIN_STATUS.addr c ≠ f.addr) :
    State.pinRest c (s.put f v) = State.pinRest c s :=
  State.pinRest_of rfl (s.reg_put_ne v h)

/-- The registers of acts, and below them. -/
theorem State.pinRest_put_low (c : Chan) (s : State) {f : Field} (v : Nat) (h : f.addr < 0x400000) :
    State.pinRest c (s.put f v) = State.pinRest c s :=
  s.pinRest_put c v (by unfold PIN_STATUS.addr; omega)

theorem State.pinRest_setAct (c : Chan) (s : State) (n : Nat) (x : ActSt) :
    State.pinRest c (s.setAct n x) = State.pinRest c s := rfl

theorem State.pinRest_event (c : Chan) (s : State) (src code p4 p5 p6 p7 : Nat) :
    State.pinRest c (s.event src code p4 p5 p6 p7) = State.pinRest c s :=
  State.pinRest_of (s.event_chans _ _ _ _ _ _) (s.event_reg _ _ _ _ _ _ (evtReg_of_ge (by unfold PIN_STATUS.addr; omega)))

theorem SEQ_STATUS_addr_lt {n : Nat} (hn : n < 16) : SEQ_STATUS.addr n < 0x400000 := by unfold SEQ_STATUS.addr; omega

theorem State.pinRest_showReport (c : Chan) (s : State) (n : Nat) : State.pinRest c (s.showReport n) = State.pinRest c s :=
  State.pinRest_of (Journaled.showReport s n).bodies.2.2.1 (State.reg_congr (s.showReport_regs n) _)

theorem State.pinRest_showEnds (c : Chan) (s : State) (n : Nat) : State.pinRest c (s.showEnds n) = State.pinRest c s := by
  refine State.each_inv_mem (P := State.pinRest c) s fun sh hsh u => ?_
  have hlt : sh < 256 := List.mem_range.mp hsh
  unfold State.showEnd
  dsimp only
  split
  · split
    · exact u.pinRest_put_low c (f := LNK_SHOW_CFG.RUNNING sh) 0 (by simp only [LNK_SHOW_CFG.RUNNING, LNK_SHOW_CFG.addr]; omega)
    · rfl
  · rfl

theorem State.pinRest_setActState (c : Chan) (s : State) {n : Nat} (st : Nat) (hn : n < 16) :
    State.pinRest c (s.setActState n st) = State.pinRest c s := by
  have h := (State.pinRest_showReport c (s.put (SEQ_STATUS.STATE n) st) n).trans
    (s.pinRest_put_low c (f := SEQ_STATUS.STATE n) st (SEQ_STATUS_addr_lt hn))
  unfold State.setActState
  dsimp only
  split
  · exact (State.pinRest_showEnds c _ n).trans h
  · exact h

/-- A stop of an act with its reason stored, before its state. -/
def State.stopFixed (s : State) (n cnt reason : Nat) : State :=
  (s.setAct n { s.act n with stop := some (cnt, reason) }).put (SEQ_STATUS.STOP_REASON n) reason

theorem State.fixStop_cases (s : State) (n cnt reason : Nat) :
    s.fixStop n cnt reason = s ∨ s.fixStop n cnt reason = s.stopFixed n cnt reason ∨
      s.fixStop n cnt reason = (s.stopFixed n cnt reason).setActState n 4 := by
  unfold State.fixStop State.stopFixed
  dsimp only
  split_ifs
  · exact .inr (.inr rfl)
  · exact .inr (.inl rfl)
  · exact .inl rfl

theorem State.failStop_cases (n F reason : Nat) (s : State) :
    ∃ cnt, State.failStop n F reason s = s.fixStop n cnt reason ∨
      State.failStop n F reason s = (s.fixStop n cnt reason).put (SEQ_STATUS.RUNOUT_LATE n) 1 := by
  unfold State.failStop
  dsimp only
  split_ifs
  · exact ⟨_, .inl rfl⟩
  · exact ⟨_, .inr rfl⟩
  · exact ⟨_, .inl rfl⟩

theorem State.pinRest_fixStop (c : Chan) (s : State) {n : Nat} (cnt reason : Nat) (hn : n < 16) :
    State.pinRest c (s.fixStop n cnt reason) = State.pinRest c s := by
  have h : State.pinRest c (s.stopFixed n cnt reason) = State.pinRest c s :=
    (State.pinRest_put_low c _ (f := SEQ_STATUS.STOP_REASON n) reason (SEQ_STATUS_addr_lt hn)).trans (s.pinRest_setAct c n _)
  obtain he | he | he := s.fixStop_cases n cnt reason <;> rw [he]
  · exact h
  · exact (State.pinRest_setActState c _ 4 hn).trans h

theorem State.pinRest_failStop (c : Chan) (s : State) {n : Nat} (F reason : Nat) (hn : n < 16) :
    State.pinRest c (State.failStop n F reason s) = State.pinRest c s := by
  obtain ⟨cnt, he | he⟩ := State.failStop_cases n F reason s <;> rw [he]
  · exact s.pinRest_fixStop c cnt _ hn
  · exact (State.pinRest_put_low c _ (f := SEQ_STATUS.RUNOUT_LATE n) 1 (SEQ_STATUS_addr_lt hn)).trans
      (s.pinRest_fixStop c cnt _ hn)

theorem State.pinRest_benchSet (c : Chan) (s : State) (n : Nat) (rings : BitVec 64) :
    State.pinRest c (s.benchSet n rings) = State.pinRest c s := by
  refine (State.each_inv_mem (P := State.pinRest c) _ fun g hg u => ?_).trans (s.pinRest_setAct c n _)
  have hlt := (mem_bitList hg).2
  have hc := c.isLt
  exact u.pinRest_put c (f := FAIL_STATUS.BENCHED g) 1 (by
    simp only [PIN_STATUS.addr, FAIL_STATUS.BENCHED, FAIL_STATUS.addr]; omega)

theorem State.pinRest_benchRings (c : Chan) (s : State) {n : Nat} (rings : BitVec 64) (F : Nat) (hn : n < 16) :
    State.pinRest c (s.benchRings n rings F) = State.pinRest c s := by
  unfold State.benchRings
  dsimp only
  split
  · exact (State.pinRest_failStop c _ F 5 hn).trans (s.pinRest_benchSet c n rings)
  · exact s.pinRest_benchSet c n rings

/-- The parks that rings hold, and PIN_STATUS of a channel. -/
def State.pinView (c : Chan) (s : State) : (Nat → Bool) × Word :=
  (fun x => (s.chan x).ringPark, s.reg (PIN_STATUS.addr c))

theorem State.pinView_of_rest {c : Chan} {s t : State} (h : State.pinRest c t = State.pinRest c s) :
    State.pinView c t = State.pinView c s := by
  have hc : t.chans = s.chans := congrArg Prod.fst h
  have hr : t.reg (PIN_STATUS.addr c) = s.reg (PIN_STATUS.addr c) := congrArg Prod.snd h
  exact Prod.ext (funext fun x => by simp only [State.pinView, State.chan_congr hc]) hr

/-- A channel changed beside its park. -/
theorem State.pinView_setChan (c : Chan) (s : State) (x : Nat) {y : ChanSt} (h : y.ringPark = (s.chan x).ringPark) :
    State.pinView c (s.setChan x y) = State.pinView c s := by
  refine Prod.ext (funext fun e => ?_) rfl
  by_cases he : e = x
  · subst he
    simp only [State.pinView, State.setChan_same, h]
  · simp only [State.pinView, State.setChan_ne _ _ he]

theorem State.pinView_holdHyst (c : Chan) (s : State) (x : Nat) : State.pinView c (State.holdHyst x s) = State.pinView c s :=
  s.pinView_setChan c x rfl

theorem State.pinView_switchBank (c : Chan) (s : State) (x : Nat) : State.pinView c (State.switchBank x s) = State.pinView c s := by
  cases h : s.flag (PIN_QUALITY_STAT.ELIGIBLE x) with
  | false => rw [State.switchBank, if_neg (by rw [h]; exact Bool.false_ne_true)]
  | true =>
    obtain ⟨-, hchans, hregs⟩ := State.switchBank_of_eligible h rfl
    obtain ⟨-, -, hbc, -⟩ := (Journaled.bankStored (s.setChan x { s.chan x with active := (s.chan x).staged, staged := {} })
      x (s.chan x).staged).bodies
    have hreg : PIN_STATUS.addr c ∉ bankRegs x := not_mem_bankRegs.mpr (by unfold PIN_STATUS.addr; omega)
    exact (State.pinView_of_rest (State.pinRest_of (hchans.trans hbc) ((State.reg_congr hregs _).trans
      (State.bankStored_reg _ _ hreg)))).trans (s.pinView_setChan c x rfl)

theorem State.pinView_tilePush (c : Chan) (s : State) (g : Nat) (final : Bool) :
    State.pinView c (s.tilePush g final) = State.pinView c s := by
  have hc := c.isLt
  have hput : ∀ (u : State) (f : Field) (v : Nat), f.addr = FAIL_TILE_STATUS.addr g →
      State.pinView c (u.put f v) = State.pinView c u := fun u f v hf =>
    State.pinView_of_rest (u.pinRest_put c v (by rw [hf]; unfold PIN_STATUS.addr FAIL_TILE_STATUS.addr; omega))
  unfold State.tilePush
  split
  · rfl
  · split
    · exact hput s _ 1 rfl
    · exact hput (s.setRing g _) _ 1 rfl

theorem State.pinView_neverRan (c : Chan) (s : State) (n : Nat) : State.pinView c (s.neverRan n) = State.pinView c s := by
  have hpushes : State.pinView c (s.finalPushes n) = State.pinView c s :=
    State.each_inv (P := State.pinView c) (fun g u => by
      split
      · exact u.pinView_tilePush c g true
      · rfl) _ s
  exact (State.each_inv (P := State.pinView c) (fun x u => u.pinView_switchBank c x) _ _).trans hpushes

theorem State.pinView_acceptStart (c : Chan) (s : State) {n : Nat} (r : StartReq) (hn : n < 16) :
    State.pinView c (s.acceptStart n r) = State.pinView c s := by
  have hput : ∀ (u : State) (f : Field) (v : Nat), f.addr = SEQ_STATUS.addr n → State.pinView c (u.put f v) = State.pinView c u :=
    fun u f v hf => State.pinView_of_rest (u.pinRest_put_low c v (hf ▸ SEQ_STATUS_addr_lt hn))
  have hheld : ∀ (l : List Nat) (u : State), State.pinView c (State.each State.holdHyst l u) = State.pinView c u :=
    State.each_inv (P := State.pinView c) fun x u => u.pinView_holdHyst c x
  unfold State.acceptStart
  dsimp only
  rw [State.pinView_of_rest (State.pinRest_setActState c _ 1 hn), hput _ _ _ rfl, hput _ _ _ rfl, hheld,
    State.pinView_of_rest (s.pinRest_setAct c n _)]

theorem State.pinView_markLate (c : Chan) (s : State) {n : Nat} (hn : n < 16) : State.pinView c (s.markLate n) = State.pinView c s := by
  have hsend : ∀ (u : State) (f : Frame), State.pinView c (u.sendFrame 0 f) = State.pinView c u := fun u f =>
    State.pinView_of_rest (State.pinRest_of (Journaled.sendFrame u 0 f).bodies.2.2.1 (State.reg_congr (by
      simp only [State.sendFrame]
      split <;> simp) _))
  have h : State.pinView c ((s.put (SEQ_STATUS.START_RESULT n) 0x09).seqEvent n 4) = State.pinView c s :=
    (State.pinView_of_rest (State.pinRest_event c _ _ _ _ _ _ _)).trans
      (State.pinView_of_rest (s.pinRest_put_low c (f := SEQ_STATUS.START_RESULT n) 9 (SEQ_STATUS_addr_lt hn)))
  unfold State.markLate
  dsimp only
  split
  · exact (hsend _ _).trans h
  · exact h

theorem State.pinView_acceptQueued (c : Chan) (s : State) {n : Nat} (hn : n < 16) :
    State.pinView c (s.acceptQueued n) = State.pinView c s := by
  have h : ∀ x, State.pinView c ((s.setAct n x).put (SEQ_STATUS.QUEUED n) 0) = State.pinView c s := fun x =>
    State.pinView_of_rest ((State.pinRest_put_low c _ (f := SEQ_STATUS.QUEUED n) 0 (SEQ_STATUS_addr_lt hn)).trans
      (s.pinRest_setAct c n x))
  unfold State.acceptQueued
  split
  · rfl
  · dsimp only
    split
    · exact (State.pinView_markLate c _ hn).trans (h _)
    · exact (State.pinView_acceptStart c _ _ hn).trans (h _)

theorem State.pinView_stopEarly (c : Chan) (s : State) {n : Nat} (reason : Nat) (hn : n < 16) :
    State.pinView c (s.stopEarly n reason) = State.pinView c s := by
  have hput : ∀ (u : State) (f : Field) (v : Nat), f.addr < 0x400000 → State.pinView c (u.put f v) = State.pinView c u :=
    fun u f v hf => State.pinView_of_rest (u.pinRest_put_low c v hf)
  have hpair : ∀ (u : State) (v : Nat), State.pinView c (u.setPair (SEQ_CYCLE_LO.addr n) v) = State.pinView c u := fun u v =>
    State.pinView_of_rest (State.pinRest_of rfl (u.reg_setPair_ne v (by unfold PIN_STATUS.addr SEQ_CYCLE_LO.addr; omega)
      (by unfold PIN_STATUS.addr SEQ_CYCLE_LO.addr; omega)))
  have hpc : SEQ_PC.addr n < 0x400000 := by unfold SEQ_PC.addr; omega
  unfold State.stopEarly
  dsimp only
  rw [State.pinView_acceptQueued c _ hn, State.pinView_neverRan, State.seqEvent,
    State.pinView_of_rest (State.pinRest_event c _ _ _ _ _ _ _), State.pinView_of_rest (State.pinRest_setAct c _ _ _),
    State.pinView_of_rest (State.pinRest_setActState c _ 0 hn), hpair, hput _ _ _ hpc, hput _ _ _ hpc,
    hput _ _ _ (SEQ_STATUS_addr_lt hn)]

theorem State.pinView_benchNow (c : Chan) (s : State) {n : Nat} (rings : BitVec 64) (hn : n < 16) :
    State.pinView c (State.benchNow rings n s) = State.pinView c s := by
  have hset := State.pinView_of_rest (s.pinRest_benchSet c n rings)
  unfold State.benchNow
  dsimp only
  split
  · exact State.pinView_of_rest (s.pinRest_benchRings c rings _ hn)
  · split
    · exact (State.pinView_stopEarly c _ 5 hn).trans hset
    · exact hset

/-! ## The bench mask (R134, R135) -/

theorem State.benchSet_bench (s : State) (n : Nat) (rings : BitVec 64) :
    ((s.benchSet n rings).act n).bench = (s.act n).bench ||| rings := by
  have hacts : (s.benchSet n rings).acts = (s.setAct n { s.act n with bench := (s.act n).bench ||| rings }).acts :=
    State.each_inv (P := State.acts) (fun g u => u.put_acts _ 1) _ _
  rw [State.act_congr hacts, State.setAct_same]

theorem State.fixStop_bench (s : State) (n cnt reason : Nat) : ((s.fixStop n cnt reason).act n).bench = (s.act n).bench := by
  have h : ((s.stopFixed n cnt reason).act n).bench = (s.act n).bench := by
    rw [State.stopFixed, State.act_congr (State.put_acts _ _ _), State.setAct_same]
  obtain he | he | he := s.fixStop_cases n cnt reason <;> rw [he]
  · exact h
  · rw [State.act_congr (State.setActState_acts _ n 4), h]

theorem State.failStop_bench (n F reason : Nat) (s : State) : ((State.failStop n F reason s).act n).bench = (s.act n).bench := by
  obtain ⟨cnt, he | he⟩ := State.failStop_cases n F reason s <;> rw [he]
  · exact s.fixStop_bench n cnt reason
  · rw [State.act_congr (State.put_acts _ _ _), State.fixStop_bench]

theorem State.benchRings_bench (s : State) (n : Nat) (rings : BitVec 64) (F : Nat) :
    ((s.benchRings n rings F).act n).bench = (s.act n).bench ||| rings := by
  unfold State.benchRings
  dsimp only
  split
  · rw [State.failStop_bench, State.benchSet_bench]
  · exact s.benchSet_bench n rings

theorem bitOf_or_two_pow {b : BitVec 64} {g : Nat} (hg : g < 64) : bitOf (b ||| BitVec.ofNat 64 (2 ^ g)).toNat g = true := by
  have hlt : 2 ^ g < 2 ^ 64 := Nat.pow_lt_pow_right (by decide) hg
  rw [bitOf_eq_testBit, BitVec.toNat_or, BitVec.toNat_ofNat, Nat.mod_eq_of_lt hlt, Nat.testBit_or, Nat.testBit_two_pow_self,
    Bool.or_true]

/-! ## A ring that a monitor parks (R275, R276) -/

/-- A ring's park forced on a channel. -/
def State.ringParkedAt (c : Nat) (s : State) : State := s.setChan c { s.chan c with ringPark := true }

/-- The parks of a ring's members forced. -/
def State.ringParked (s : State) (cs : List Nat) : State := State.each State.ringParkedAt cs s

theorem State.ringParkedAt_ringPark (s : State) (c : Nat) : ((State.ringParkedAt c s).chan c).ringPark = true :=
  congrArg ChanSt.ringPark (s.setChan_same c _)

theorem State.ringParked_chan_ne {s : State} {cs : List Nat} {x : Nat} (h : x ∉ cs) : (s.ringParked cs).chan x = s.chan x :=
  State.each_inv_mem (P := fun u => u.chan x) s fun _ hc u => u.setChan_ne _ (ne_of_mem_of_not_mem hc h).symm

theorem State.ringParked_ringPark {x : Nat} {cs : List Nat} (s : State) (h : x ∈ cs) :
    ((s.ringParked cs).chan x).ringPark = true := by
  induction cs generalizing s with
  | nil => cases h
  | cons c cs ih =>
    by_cases hx : x ∈ cs
    · exact ih (State.ringParkedAt c s) hx
    · obtain rfl := (List.mem_cons.mp h).resolve_right hx
      have he := State.ringParked_chan_ne (s := State.ringParkedAt x s) hx
      exact (congrArg ChanSt.ringPark he).trans (s.ringParkedAt_ringPark x)

theorem State.ringParked_regs (s : State) (cs : List Nat) : (s.ringParked cs).regs = s.regs :=
  State.each_inv (P := State.regs) (f := State.ringParkedAt) (fun _ _ => rfl) cs s

theorem State.parkPpmus_chans (s : State) (cs : List Nat) : (s.parkPpmus cs).chans = s.chans :=
  (Journaled.parkPpmus s cs).bodies.2.2.1

theorem State.monPark_eq (s : State) (g n : Nat) : s.monPark g n =
    State.benchNow (BitVec.ofNat 64 (2 ^ g)) n ((s.ringParked (s.ringChans g)).parkPpmus (s.ringChans g)) := rfl

/-- What a monitor's park of a ring does: its members are parked, and PIN_STATUS of no channel changes; while the act runs no
other channel does, and the ring is benched. -/
theorem State.monPark_parks (c : Chan) (s : State) {g n : Nat} (hg : g < 64) (hn : n < 16) :
    (s.monPark g n).reg (PIN_STATUS.addr c) = s.reg (PIN_STATUS.addr c) ∧
      (∀ x ∈ s.ringChans g, ((s.monPark g n).chan x).ringPark = true) ∧
      (s.running n = true → (∀ x, x ∉ s.ringChans g → (s.monPark g n).chan x = s.chan x) ∧
        bitOf ((s.monPark g n).act n).bench.toNat g = true) := by
  rw [State.monPark_eq]
  have hchans := State.parkPpmus_chans (s.ringParked (s.ringChans g)) (s.ringChans g)
  have hreg : ((s.ringParked (s.ringChans g)).parkPpmus (s.ringChans g)).reg (PIN_STATUS.addr c) = s.reg (PIN_STATUS.addr c) :=
    (State.parkPpmus_reg fun x _ => by unfold PIN_STATUS.addr PIN_PPMU_CFG.addr PIN_PPMU_MEAS.addr; omega).trans
      (State.reg_congr (s.ringParked_regs _) _)
  have hrun : ((s.ringParked (s.ringChans g)).parkPpmus (s.ringChans g)).running n = s.running n := by
    have h : ((s.ringParked (s.ringChans g)).parkPpmus (s.ringChans g)).actState n = s.actState n :=
      State.fld_congr (f := SEQ_STATUS.STATE n) ((State.parkPpmus_reg_lt (SEQ_STATUS_addr_lt hn)).trans
        (State.reg_congr (s.ringParked_regs _) _))
    rw [State.running, State.running, h]
  generalize (s.ringParked (s.ringChans g)).parkPpmus (s.ringChans g) = u at hchans hreg hrun ⊢
  have hview := u.pinView_benchNow c (BitVec.ofNat 64 (2 ^ g)) hn
  refine ⟨(congrArg Prod.snd hview :).trans hreg, fun x hx => ?_, fun hr => ?_⟩
  · have hpark := (congrFun (congrArg Prod.fst hview :) x : _ = _)
    exact hpark.trans ((congrArg ChanSt.ringPark (State.chan_congr hchans x)).trans (s.ringParked_ringPark hx))
  · rw [State.benchNow, if_pos (hrun.trans hr)]
    refine ⟨fun x hx => ?_, ?_⟩
    · have hrest := congrArg Prod.fst (u.pinRest_benchRings c (BitVec.ofNat 64 (2 ^ g)) (u.issued n - 1) hn)
      exact (State.chan_congr (hrest.trans hchans) x).trans (State.ringParked_chan_ne hx)
    · rw [State.benchRings_bench]
      exact bitOf_or_two_pow hg

end Sys2Proof.Machine
end

section
/-! PROOF. Monitors (O46). -/

namespace Sys2Proof.Machine

theorem State.withBlanks_reg (s : State) (b : Tab Nat) (a : Nat) : (s.withBlanks b).reg a = s.reg a := rfl

theorem State.withBlanks_evtSeq (s : State) (b : Tab Nat) : (s.withBlanks b).evtSeq = s.evtSeq := rfl

theorem State.withBlanks_mode (s : State) (b : Tab Nat) : (s.withBlanks b).mode = s.mode := rfl

theorem State.withBlanks_time (s : State) (b : Tab Nat) : (s.withBlanks b).time = s.time := rfl

theorem State.withBlanks_withRegs (s : State) (b : Tab Nat) (r : Tab Word) :
    (s.withBlanks b).withRegs r = (s.withRegs r).withBlanks b := rfl

/-! ## SENSE monitors (R278, R279) -/

theorem State.monRing_of_none (s : State) (g : Nat) : s.monRing g false false = s := by
  unfold State.monRing
  split
  · rfl
  · simp

theorem evtReg_MON_SENSE_ACTION : ∀ m : Fin 32, evtReg (MON_SENSE_ACTION.addr m) = false := by decide

/-- A SENSE monitor that has tripped, before what it acts on. -/
def State.senseTripped (s : State) (m : Nat) (high : Bool) : State :=
  (s.put (MON_SENSE_ACTION.TRIPPED m) 1).event 9 1 (m + 65536 * b2n high)

theorem State.senseTripped_trips (s : State) (m : Fin 32) (high : Bool) :
    (s.senseTripped m high).flag (MON_SENSE_ACTION.TRIPPED m) = true :=
  (State.flag_congr (State.event_reg _ _ _ _ _ _ (evtReg_MON_SENSE_ACTION m))).trans
    (s.flag_put_one (MON_SENSE_ACTION.TRIPPED m) (by simp [MON_SENSE_ACTION.TRIPPED]) (by simp [MON_SENSE_ACTION.TRIPPED]))

/-- The other fields of its register say what it acts on. -/
theorem State.senseTripped_fld (s : State) (m : Fin 32) (high : Bool) {lo len : Nat} (h : lo + len ≤ 30 ∨ 31 ≤ lo) :
    (s.senseTripped m high).fld ⟨MON_SENSE_ACTION.addr m, lo, len⟩ = s.fld ⟨MON_SENSE_ACTION.addr m, lo, len⟩ :=
  (State.fld_congr (State.event_reg _ _ _ _ _ _ (evtReg_MON_SENSE_ACTION m))).trans
    (State.fld_put_apart (f := MON_SENSE_ACTION.TRIPPED m) s 1 rfl (by simp [MON_SENSE_ACTION.TRIPPED])
      (by simp only [MON_SENSE_ACTION.TRIPPED]; omega))

theorem State.senseTripped_regs (s : State) (m : Nat) (high : Bool) :
    RegsButEvents [MON_SENSE_ACTION.addr m] s (s.senseTripped m high) :=
  RegsButEvents.eventAt (RegsBut.events (s.put_onlyRegs (MON_SENSE_ACTION.TRIPPED m) 1).2) _ _ _ _ _ _ _

theorem State.senseTripped_evtSeq (s : State) (m : Nat) (high : Bool) : (s.senseTripped m high).evtSeq = s.evtSeq + 1 := by
  rw [State.senseTripped, State.event_evtSeq, State.put_evtSeq]

theorem State.senseTripped_steady (s : State) (m : Nat) (high : Bool) : Steady s (s.senseTripped m high) :=
  steady_of_frame fun fd hd => by rw [State.senseTripped, State.event_frame _ _ _ _ _ _ _ fd hd, State.put_frame]

/-- A SENSE monitor without actions on a ring trips, and may clear its output. -/
theorem State.senseTrip_of_no_ring {s : State} {m : Fin 32} {uv : Int} {high : Bool} (hside : s.senseSide m uv = some high)
    (ha : s.senseActive m = true) (hpark : s.flag (MON_SENSE_ACTION.PARK m) = false)
    (habort : s.flag (MON_SENSE_ACTION.ABORT m) = false) :
    s.senseTrip m uv = if s.flag (MON_SENSE_ACTION.CLR m)
      then State.srefClear 2 (s.fld (MON_SENSE_ACTION.SREF m)) (s.senseTripped m high) else s.senseTripped m high := by
  have hp : (s.senseTripped m high).flag (MON_SENSE_ACTION.PARK m) = false :=
    (State.flag_of_fld (s.senseTripped_fld m high (.inl (by decide)))).trans hpark
  have hb : (s.senseTripped m high).flag (MON_SENSE_ACTION.ABORT m) = false :=
    (State.flag_of_fld (s.senseTripped_fld m high (.inl (by decide)))).trans habort
  have hc : (s.senseTripped m high).flag (MON_SENSE_ACTION.CLR m) = s.flag (MON_SENSE_ACTION.CLR m) :=
    State.flag_of_fld (s.senseTripped_fld m high (.inl (by decide)))
  have hsref : (s.senseTripped m high).fld (MON_SENSE_ACTION.SREF m) = s.fld (MON_SENSE_ACTION.SREF m) :=
    s.senseTripped_fld m high (.inl (by decide))
  rw [State.senseTrip, hside]
  dsimp only
  rw [if_pos ha, ← State.senseTripped, hp, hb, State.monRing_of_none, hc, hsref]

/-! ## SREF outputs that a monitor clears (R283) -/

/-- An output forced to its clear code, before the blanking timers that follow it. -/
def State.srefForced (s : State) (source m : Nat) : State :=
  ((s.put (MON_SREF_CODE.CODE m) (s.fld (MON_SREF_CLRCODE.CODE m))).put (MON_SREF_STATUS.CLEARED m) 1).put
    (MON_SREF_STATUS.SOURCE m) source

theorem State.srefClear_eq (source m : Nat) (s : State) : State.srefClear source m s =
    if s.fld (MON_SREF_CODE.CODE m) = s.fld (MON_SREF_CLRCODE.CODE m) then s.srefForced source m
    else (s.srefForced source m).srefChanged m := by
  rw [State.srefClear, State.srefForced]

theorem State.blankStart_reg {m t a : Nat} {s : State} (h : a ≠ MON_SENSE_BLANK.addr m) :
    (State.blankStart m t s).reg a = s.reg a := by
  unfold State.blankStart
  dsimp only
  split
  · rfl
  · rw [State.withBlanks_reg, s.reg_put_ne (f := MON_SENSE_BLANK.BLANKING m) 1 h]

theorem State.blankStart_evtSeq (m t : Nat) (s : State) : (State.blankStart m t s).evtSeq = s.evtSeq := by
  unfold State.blankStart
  dsimp only
  split
  · rfl
  · rw [State.withBlanks_evtSeq, State.put_evtSeq]

/-- The blanking timers stand in registers of their own. -/
theorem State.srefChanged_reg {s : State} {m a : Nat} (h : ∀ i < 32, a ≠ MON_SENSE_BLANK.addr i) :
    (s.srefChanged m).reg a = s.reg a :=
  State.each_inv_mem (P := fun u => u.reg a) s (fun i hi u => by
    split
    · exact State.blankStart_reg (h i (List.mem_range.mp hi))
    · rfl)

theorem State.srefChanged_evtSeq (s : State) (m : Nat) : (s.srefChanged m).evtSeq = s.evtSeq :=
  State.each_inv (P := State.evtSeq) (fun i u => by
    split
    · exact State.blankStart_evtSeq i _ u
    · rfl) _ s

theorem State.srefClear_reg {source m a : Nat} {s : State} (h : ∀ i < 32, a ≠ MON_SENSE_BLANK.addr i) :
    (State.srefClear source m s).reg a = (s.srefForced source m).reg a := by
  rw [State.srefClear_eq]
  split
  · rfl
  · exact State.srefChanged_reg h

theorem State.srefClear_evtSeq (source m : Nat) (s : State) : (State.srefClear source m s).evtSeq = s.evtSeq := by
  have hf : (s.srefForced source m).evtSeq = s.evtSeq := by
    rw [State.srefForced, State.put_evtSeq, State.put_evtSeq, State.put_evtSeq]
  rw [State.srefClear_eq]
  split
  · exact hf
  · exact (State.srefChanged_evtSeq _ m).trans hf

theorem State.srefForced_reg_ne {s : State} {source m a : Nat} (hc : a ≠ MON_SREF_CODE.addr m)
    (hs : a ≠ MON_SREF_STATUS.addr m) : (s.srefForced source m).reg a = s.reg a := by
  rw [State.srefForced, State.reg_put_ne (f := MON_SREF_STATUS.SOURCE m) _ _ hs,
    State.reg_put_ne (f := MON_SREF_STATUS.CLEARED m) _ _ hs, State.reg_put_ne (f := MON_SREF_CODE.CODE m) _ _ hc]

/-- An output cleared reads its clear code. -/
theorem State.srefClear_code (source m : Nat) (s : State) :
    (State.srefClear source m s).fld (MON_SREF_CODE.CODE m) = s.fld (MON_SREF_CLRCODE.CODE m) := by
  have hne : MON_SREF_CODE.addr m ≠ MON_SREF_STATUS.addr m := by unfold MON_SREF_CODE.addr MON_SREF_STATUS.addr; omega
  rw [State.fld_congr (f := MON_SREF_CODE.CODE m) (State.srefClear_reg
      (by intro i hi; simp only [MON_SREF_CODE.CODE, MON_SREF_CODE.addr, MON_SENSE_BLANK.addr]; omega)),
    State.srefForced, State.fld_put_ne (f := MON_SREF_STATUS.SOURCE m) _ _ hne,
    State.fld_put_ne (f := MON_SREF_STATUS.CLEARED m) _ _ hne,
    State.fld_put_same _ (MON_SREF_CODE.CODE m) _ (by simp [MON_SREF_CODE.CODE])]
  exact Nat.mod_eq_of_lt (s.fld_lt (MON_SREF_CLRCODE.CODE m))

theorem State.srefClear_source {source : Nat} (m : Nat) (s : State) (h : source < 4) :
    (State.srefClear source m s).fld (MON_SREF_STATUS.SOURCE m) = source := by
  rw [State.fld_congr (f := MON_SREF_STATUS.SOURCE m) (State.srefClear_reg
      (by intro i hi; simp only [MON_SREF_STATUS.SOURCE, MON_SREF_STATUS.addr, MON_SENSE_BLANK.addr]; omega)),
    State.srefForced, State.fld_put_same _ (MON_SREF_STATUS.SOURCE m) _ (by simp [MON_SREF_STATUS.SOURCE])]
  exact Nat.mod_eq_of_lt h

theorem monSense_clears {m : Fin 32} {uv : Int} {high : Bool} {s : State} (ha : s.senseActive m = true)
    (hside : s.senseSide m uv = some high) (hpark : s.flag (MON_SENSE_ACTION.PARK m) = false)
    (habort : s.flag (MON_SENSE_ACTION.ABORT m) = false) (hclr : s.flag (MON_SENSE_ACTION.CLR m) = true) :
    ∃ t, exec (.monSense m uv) s = .next t ∧ t.flag (MON_SENSE_ACTION.TRIPPED m) = true ∧
      t.fld (MON_SREF_CODE.CODE (s.fld (MON_SENSE_ACTION.SREF m))) =
        s.fld (MON_SREF_CLRCODE.CODE (s.fld (MON_SENSE_ACTION.SREF m))) ∧
      t.fld (MON_SREF_STATUS.SOURCE (s.fld (MON_SENSE_ACTION.SREF m))) = 2 ∧ t.evtSeq = s.evtSeq + 1 ∧ Steady s t := by
  have hlt : s.fld (MON_SENSE_ACTION.SREF m) < 32 := s.fld_lt (MON_SENSE_ACTION.SREF m)
  have he : exec (.monSense m uv) s =
      .next (State.srefClear 2 (s.fld (MON_SENSE_ACTION.SREF m)) (s.senseTripped m high)) := by
    rw [exec_monSense, execMonSense, State.senseTrip_of_no_ring hside ha hpark habort, if_pos hclr]
  generalize s.fld (MON_SENSE_ACTION.SREF m) = r at hlt he ⊢
  refine ⟨_, he, ?_, ?_, State.srefClear_source r _ (by decide), ?_, steady_of_frame fun fd hd => ?_⟩
  · have hm := m.isLt
    rw [State.flag_congr (f := MON_SENSE_ACTION.TRIPPED m) ((State.srefClear_reg
        (by intro i hi; simp only [MON_SENSE_ACTION.TRIPPED, MON_SENSE_ACTION.addr, MON_SENSE_BLANK.addr]; omega)).trans
      (State.srefForced_reg_ne
        (by simp only [MON_SENSE_ACTION.TRIPPED, MON_SENSE_ACTION.addr, MON_SREF_CODE.addr]; omega)
        (by simp only [MON_SENSE_ACTION.TRIPPED, MON_SENSE_ACTION.addr, MON_SREF_STATUS.addr]; omega))),
      State.senseTripped_trips]
  · have hev : ∀ i : Fin 32, evtReg (MON_SREF_CLRCODE.addr i) = false := by decide
    rw [State.srefClear_code, State.fld_congr (f := MON_SREF_CLRCODE.CODE r) (s.senseTripped_regs m high _ ?_ (hev ⟨r, hlt⟩))]
    simp only [MON_SREF_CLRCODE.CODE, MON_SREF_CLRCODE.addr, MON_SENSE_ACTION.addr, List.mem_singleton]
    omega
  · rw [State.srefClear_evtSeq, State.senseTripped_evtSeq]
  · rw [State.srefClear_frame, State.senseTripped, State.event_frame _ _ _ _ _ _ _ fd hd, State.put_frame]

theorem monSense_still {m : Fin 32} {uv : Int} {s : State} (h : s.senseActive m = false ∨ s.senseSide m uv = none) :
    exec (.monSense m uv) s = .next s := by
  rw [exec_monSense, execMonSense, State.senseTrip]
  rcases h with h | h
  · simp only [h, Bool.false_eq_true, if_false]
    split <;> rfl
  · rw [h]

theorem reservedBits_MON_SENSE_ACTION : ∀ m : Fin 32, reservedBits (MON_SENSE_ACTION.addr m) 0x40000000 = 0 := by decide

theorem senseRearm_rearms {m : Fin 32} {s : State} (hs : s.inService = true) :
    ∃ t, exec (.senseRearm m) s = .next t ∧ t.flag (MON_SENSE_ACTION.TRIPPED m) = false ∧
      t.flag (MON_SENSE_ACTION.EN m) = s.flag (MON_SENSE_ACTION.EN m) ∧ OnlyRegs [MON_SENSE_ACTION.addr m] s t := by
  refine ⟨s.put (MON_SENSE_ACTION.TRIPPED m) 0, ?_, ?_, ?_, s.put_onlyRegs (MON_SENSE_ACTION.TRIPPED m) 0⟩
  · rw [exec_senseRearm, execSenseRearm, State.hostWrite_of_access _ (State.access_of_inService hs _)
      (reservedBits_MON_SENSE_ACTION m)]
  · exact s.flag_put_zero (MON_SENSE_ACTION.TRIPPED m) (by simp [MON_SENSE_ACTION.TRIPPED])
  · exact State.flag_of_fld (State.fld_put_apart (f := MON_SENSE_ACTION.TRIPPED m) (g := MON_SENSE_ACTION.EN m) s 0 rfl
      (by simp [MON_SENSE_ACTION.TRIPPED]) (by simp [MON_SENSE_ACTION.TRIPPED, MON_SENSE_ACTION.EN]))

/-! ## The end of blanking (R280) -/

/-- A monitor's blanking over, at its deadline. -/
def State.unblanked (s : State) (m : Nat) : State :=
  ((s.at_ (Tab.get (fun _ => s.time.toNat) s.blanks m)).put (MON_SENSE_BLANK.BLANKING m) 0).withBlanks
    (Tab.set (fun _ => 0) s.blanks m 0)

theorem exec_senseBlankExpiry_of_blanking {m : Fin 32} {uv : Int} {s : State}
    (h : s.flag (MON_SENSE_BLANK.BLANKING m) = true) :
    exec (.senseBlankExpiry m uv) s = .next ((s.unblanked m).senseTrip m uv) := by
  rw [exec_senseBlankExpiry, execSenseBlankExpiry, if_pos h, State.unblanked]

theorem State.unblanked_reg {s : State} {m a : Nat} (h : a ≠ MON_SENSE_BLANK.addr m) : (s.unblanked m).reg a = s.reg a := by
  obtain ⟨v, hv⟩ := s.at_eq (Tab.get (fun _ => s.time.toNat) s.blanks m)
  rw [State.unblanked, hv, State.withBlanks_reg, State.reg_put_ne (f := MON_SENSE_BLANK.BLANKING m) _ 0 h, State.withTime_reg]

theorem State.unblanked_blanking (s : State) (m : Nat) : (s.unblanked m).flag (MON_SENSE_BLANK.BLANKING m) = false := by
  rw [State.unblanked, State.flag_congr (f := MON_SENSE_BLANK.BLANKING m) (State.withBlanks_reg _ _ _)]
  exact State.flag_put_zero _ (MON_SENSE_BLANK.BLANKING m) (by simp [MON_SENSE_BLANK.BLANKING])

theorem State.unblanked_evtSeq (s : State) (m : Nat) : (s.unblanked m).evtSeq = s.evtSeq := by
  obtain ⟨v, hv⟩ := s.at_eq (Tab.get (fun _ => s.time.toNat) s.blanks m)
  rw [State.unblanked, hv, State.withBlanks_evtSeq, State.put_evtSeq]

theorem State.unblanked_mode (s : State) (m : Nat) : (s.unblanked m).mode = s.mode := by
  obtain ⟨v, hv⟩ := s.at_eq (Tab.get (fun _ => s.time.toNat) s.blanks m)
  rw [State.unblanked, hv, State.withBlanks_mode, State.put_mode]

theorem State.unblanked_frame (s : State) (m : Nat) (fd : Followed) (h : fd ≠ .time) : (s.unblanked m).rd fd = s.rd fd := by
  obtain ⟨v, hv⟩ := s.at_eq (Tab.get (fun _ => s.time.toNat) s.blanks m)
  rw [State.unblanked, hv, State.withBlanks_frame, State.put_frame, State.withTime_frame _ _ fd h]

theorem State.unblanked_rest (s : State) (m : Nat) :
    (s.unblanked m).time = (s.at_ (Tab.get (fun _ => s.time.toNat) s.blanks m)).time ∧
      Tab.get (fun _ => 0) (s.unblanked m).blanks m = 0 ∧
      (((s.unblanked m).withRegs s.regs).withTime s.time).withBlanks s.blanks = s := by
  refine ⟨?_, ?_, ?_⟩
  · rw [State.unblanked, State.withBlanks_time, State.put_time]
  · rw [State.unblanked, State.withBlanks_blanks, Tab.get_set_same]
  · obtain ⟨v, hv⟩ := s.at_eq (Tab.get (fun _ => s.time.toNat) s.blanks m)
    rw [State.unblanked, hv, State.withBlanks_withRegs, State.put_withRegs]

theorem State.senseSide_congr {s t : State} {m : Nat} (uv : Int) (hlo : t.reg (MON_SENSE_LO.addr m) = s.reg (MON_SENSE_LO.addr m))
    (hhi : t.reg (MON_SENSE_HI.addr m) = s.reg (MON_SENSE_HI.addr m)) : t.senseSide m uv = s.senseSide m uv := by
  rw [State.senseSide, State.senseSide, State.fld_congr (f := MON_SENSE_LO.CODE m) hlo, State.fld_congr (f := MON_SENSE_HI.CODE m) hhi]

theorem State.unblanked_senseSide (s : State) (m : Nat) (uv : Int) : (s.unblanked m).senseSide m uv = s.senseSide m uv :=
  State.senseSide_congr uv (State.unblanked_reg (by unfold MON_SENSE_LO.addr MON_SENSE_BLANK.addr; omega))
    (State.unblanked_reg (by unfold MON_SENSE_HI.addr MON_SENSE_BLANK.addr; omega))

theorem senseBlankExpiry_ends {m : Fin 32} {uv : Int} {s : State} (hb : s.flag (MON_SENSE_BLANK.BLANKING m) = true)
    (hside : s.senseSide m uv = none) :
    ∃ t, exec (.senseBlankExpiry m uv) s = .next t ∧ t.flag (MON_SENSE_BLANK.BLANKING m) = false ∧
      t.time = (s.at_ (Tab.get (fun _ => s.time.toNat) s.blanks m)).time ∧ Tab.get (fun _ => 0) t.blanks m = 0 ∧
      ((t.withRegs s.regs).withTime s.time).withBlanks s.blanks = s ∧ RegsBut [MON_SENSE_BLANK.addr m] s t := by
  have he := exec_senseBlankExpiry_of_blanking (uv := uv) hb
  rw [State.senseTrip, State.unblanked_senseSide, hside] at he
  obtain ⟨htime, hblanks, hrest⟩ := s.unblanked_rest m
  exact ⟨_, he, s.unblanked_blanking m, htime, hblanks, hrest, fun a ha => State.unblanked_reg (by simpa using ha)⟩

theorem senseBlankExpiry_trips {m : Fin 32} {uv : Int} {high : Bool} {s : State}
    (hb : s.flag (MON_SENSE_BLANK.BLANKING m) = true) (hs : s.inService = true) (hside : s.senseSide m uv = some high)
    (hen : s.flag (MON_SENSE_ACTION.EN m) = true) (htrip : s.flag (MON_SENSE_ACTION.TRIPPED m) = false)
    (hpark : s.flag (MON_SENSE_ACTION.PARK m) = false) (habort : s.flag (MON_SENSE_ACTION.ABORT m) = false)
    (hclr : s.flag (MON_SENSE_ACTION.CLR m) = false) :
    ∃ t, exec (.senseBlankExpiry m uv) s = .next t ∧ t.flag (MON_SENSE_BLANK.BLANKING m) = false ∧
      t.flag (MON_SENSE_ACTION.TRIPPED m) = true ∧ t.evtSeq = s.evtSeq + 1 ∧ t.mode = s.mode ∧ Still s t ∧
      RegsButEvents [MON_SENSE_BLANK.addr m, MON_SENSE_ACTION.addr m] s t := by
  have hne : MON_SENSE_ACTION.addr m ≠ MON_SENSE_BLANK.addr m := by unfold MON_SENSE_ACTION.addr MON_SENSE_BLANK.addr; omega
  have hact : ∀ f : Field, f.addr = MON_SENSE_ACTION.addr m → (s.unblanked m).flag f = s.flag f := fun f hf =>
    State.flag_congr (State.unblanked_reg (hf ▸ hne))
  have hev : ∀ m : Fin 32, evtReg (MON_SENSE_BLANK.addr m) = false := by decide
  have hframe : ∀ fd : Followed, fd ≠ .dram → fd ≠ .time → ((s.unblanked m).senseTripped m high).rd fd = s.rd fd :=
    fun fd hd ht => by
      rw [State.senseTripped, State.event_frame _ _ _ _ _ _ _ fd hd, State.put_frame, State.unblanked_frame _ _ fd ht]
  have hin : (s.unblanked m).inService = true := by rwa [State.inService, State.unblanked_mode]
  have ha : (s.unblanked m).senseActive m = true := by
    rw [State.senseActive, hact _ rfl, hact _ rfl, hen, htrip, hin, State.unblanked_blanking]
    rfl
  have he := exec_senseBlankExpiry_of_blanking (uv := uv) hb
  rw [State.senseTrip_of_no_ring ((s.unblanked_senseSide m uv).trans hside) ha ((hact _ rfl).trans hpark)
    ((hact _ rfl).trans habort), (hact _ rfl).trans hclr, if_neg Bool.false_ne_true] at he
  have hregs := (s.unblanked m).senseTripped_regs m high
  refine ⟨_, he, ?_, State.senseTripped_trips _ m high, ?_, State.mode_of_frame (hframe .mode (by decide) (by decide)),
    still_of_frame fun fd hd _ ht _ => hframe fd hd ht, fun a ha hae => ?_⟩
  · rw [State.flag_congr (f := MON_SENSE_BLANK.BLANKING m) (hregs _ (by simpa [MON_SENSE_BLANK.BLANKING] using hne.symm) (hev m)), State.unblanked_blanking]
  · rw [State.senseTripped_evtSeq, State.unblanked_evtSeq]
  · simp only [List.mem_cons, List.not_mem_nil, or_false, not_or] at ha
    exact (hregs a (by simpa using ha.2) hae).trans (State.unblanked_reg ha.1)

/-! ## Disables that the host clears (R104, R277) -/

theorem State.writePinStatus_onlyRegs (s : State) (c : Nat) (v : Word) :
    RegsBut [PIN_STATUS.addr c] s (s.writePinStatus c v) ∧ ((s.writePinStatus c v).withRegs s.regs).withChans s.chans = s ∧
      ∀ a, (s.writePinStatus c v).reg a = (s.store (PIN_STATUS.addr c) v).reg a := by
  obtain ⟨hrest, hregs⟩ := s.store_onlyRegs (PIN_STATUS.addr c) v
  have hall := congrArg (State.withChans · s.chans) hrest
  unfold State.writePinStatus
  generalize s.store (PIN_STATUS.addr c) v = u at hrest hregs hall ⊢
  dsimp only
  split
  · refine ⟨hregs, ?_, fun _ => rfl⟩
    rw [State.setChan_withRegs, State.setChan_withChans]
    exact hall
  · exact ⟨hregs, hall, fun _ => rfl⟩

/-- A disable that ends while the act executes is over from the next vector boundary on. -/
theorem State.writePinStatus_disabled {s : State} {c : Nat} {v : Word} (hc : c < 1024) (he : s.chanExecuting c = true)
    (hd : s.disabled c = true) : (s.writePinStatus c v).disabled c = true := by
  obtain ⟨hregs, -, -⟩ := s.writePinStatus_onlyRegs c v
  have hexec : (s.writePinStatus c v).chanExecuting c = true :=
    (State.chanExecuting_congr (fun n => hregs _ (by simp only [List.mem_singleton]; unfold SEQ_CB_MASK.addr PIN_STATUS.addr; omega))
      (fun n hn => hregs _ (by simp only [List.mem_singleton]; unfold SEQ_STATUS.addr PIN_STATUS.addr; omega))).trans he
  by_cases ht : (s.store (PIN_STATUS.addr c) v).disabled c = false
  · have hr : ((s.writePinStatus c v).chan c).rejoin = true := by
      rw [State.writePinStatus]
      dsimp only
      rw [if_pos ⟨hd, ht, he⟩, State.setChan_same]
    rw [State.disabled, hr, hexec, Bool.and_self, Bool.or_true]
  · rw [State.writePinStatus]
    dsimp only
    rw [if_neg fun h => ht h.2.1]
    exact Bool.of_not_eq_false ht

theorem State.writePinStatus_chans {s : State} {c : Nat} {v : Word} (he : s.chanExecuting c = false) :
    (s.writePinStatus c v).chans = s.chans := by
  rw [State.writePinStatus]
  dsimp only
  rw [if_neg (by simp [he]), OnlyRegs.chans (s.store_onlyRegs _ v)]

theorem PIN_STATUS_not_locked (c : Nat) (s : State) : s.locked (PIN_STATUS.addr c) = false :=
  s.not_locked (.inr (.inl (by unfold PIN_STATUS.addr; omega))) (by unfold PIN_STATUS.addr CLK_OCXO_TRIM.addr; omega)

/-- A write of 1 to one of the W1C bits of PIN_STATUS clears it and keeps the others. -/
theorem State.writePinStatus_flag (s : State) (c : Chan) (v : Word) {i : Nat} (hi : 5 ≤ i) (hi' : i ≤ 9) :
    (s.writePinStatus c v).flag ⟨PIN_STATUS.addr c, i, 1⟩ =
      if v.toNat.testBit i then false else s.flag ⟨PIN_STATUS.addr c, i, 1⟩ := by
  obtain ⟨-, -, hreg⟩ := s.writePinStatus_onlyRegs c v
  have hw : (0x3E0 : Nat).testBit i = true := by interval_cases i <;> decide
  rw [State.flag_congr (hreg _)]
  split
  next hv =>
    exact State.flag_store_of_w1c (regAt_PIN_STATUS c) (PIN_STATUS_not_locked c s) (by omega) (by decide) (by decide) hw hv
  next hv =>
    exact State.flag_store_of_clear (regAt_PIN_STATUS c) (PIN_STATUS_not_locked c s) (by omega) (by decide) (by decide)
      (Nat.zero_testBit i) (Bool.of_not_eq_true hv)

theorem reservedBits_PIN_STATUS (c : Chan) (v : Word) :
    reservedBits (PIN_STATUS.addr c) v = v.toNat &&& (0xFFFFFFFF - 0xFFFFF3FF) := by
  rw [reservedBits, regAt_PIN_STATUS]

theorem monDisClear_clears {c : Chan} {s : State} (hs : s.inService = true) :
    ∃ t, exec (.monDisClear c) s = .next t ∧ t.flag (PIN_STATUS.MON_DIS c) = false ∧
      t.flag (PIN_STATUS.DCHK_DIS c) = s.flag (PIN_STATUS.DCHK_DIS c) ∧ (t.withRegs s.regs).withChans s.chans = s ∧
      (s.chanExecuting c = true → s.disabled c = true → t.disabled c = true) ∧
      (s.chanExecuting c = false → t.chans = s.chans) ∧ RegsBut [PIN_STATUS.addr c] s t := by
  obtain ⟨hregs, hrest, -⟩ := s.writePinStatus_onlyRegs c 0x80
  refine ⟨s.writePinStatus c 0x80, ?_, s.writePinStatus_flag c 0x80 (i := 7) (by decide) (by decide),
    s.writePinStatus_flag c 0x80 (i := 6) (by decide) (by decide), hrest, State.writePinStatus_disabled c.isLt,
    State.writePinStatus_chans, hregs⟩
  rw [exec_monDisClear, execMonDisClear, State.hostWrite_of_access _ (State.access_of_inService hs _)
    ((reservedBits_PIN_STATUS c _).trans (by decide))]

theorem dchkDisClear_clears {c : Chan} {s : State} (hs : s.inService = true) :
    ∃ t, exec (.dchkDisClear c) s = .next t ∧ t.flag (PIN_STATUS.DCHK_DIS c) = false ∧
      t.flag (PIN_STATUS.MON_DIS c) = s.flag (PIN_STATUS.MON_DIS c) ∧ (t.withRegs s.regs).withChans s.chans = s ∧
      (s.chanExecuting c = true → s.disabled c = true → t.disabled c = true) ∧
      (s.chanExecuting c = false → t.chans = s.chans) ∧ RegsBut [PIN_STATUS.addr c] s t := by
  obtain ⟨hregs, hrest, -⟩ := s.writePinStatus_onlyRegs c 0x40
  refine ⟨s.writePinStatus c 0x40, ?_, s.writePinStatus_flag c 0x40 (i := 6) (by decide) (by decide),
    s.writePinStatus_flag c 0x40 (i := 7) (by decide) (by decide), hrest, State.writePinStatus_disabled c.isLt,
    State.writePinStatus_chans, hregs⟩
  rw [exec_dchkDisClear, execDchkDisClear, State.hostWrite_of_access _ (State.access_of_inService hs _)
    ((reservedBits_PIN_STATUS c _).trans (by decide))]

/-! ## Pin monitors (R276, R277, R281) -/

theorem State.dropPpmu_onlyRegs (c : Nat) (s : State) :
    OnlyRegs [PIN_PPMU_CFG.addr c, PIN_PPMU_MEAS.addr c] s (State.dropPpmu c s) := by
  unfold State.dropPpmu
  split
  · have h := OnlyRegs.put_of_mem (as := [PIN_PPMU_CFG.addr c, PIN_PPMU_MEAS.addr c]) (s := s) (t := s)
      (f := PIN_PPMU_CFG.CONNECT c) 0 ⟨rfl, fun _ _ => rfl⟩ (by simp [PIN_PPMU_CFG.CONNECT])
    exact OnlyRegs.put_of_mem (f := PIN_PPMU_MEAS.PARKED c) 1 h (by simp [PIN_PPMU_MEAS.PARKED])
  · exact ⟨rfl, fun _ _ => rfl⟩

theorem State.dropPpmu_connect (c : Nat) (s : State) : (State.dropPpmu c s).flag (PIN_PPMU_CFG.CONNECT c) = false := by
  unfold State.dropPpmu
  split
  · have hne : PIN_PPMU_CFG.addr c ≠ PIN_PPMU_MEAS.addr c := by unfold PIN_PPMU_CFG.addr PIN_PPMU_MEAS.addr; omega
    rw [State.flag_congr (f := PIN_PPMU_CFG.CONNECT c) (State.reg_put_ne (f := PIN_PPMU_MEAS.PARKED c) _ 1 hne)]
    exact s.flag_put_zero (PIN_PPMU_CFG.CONNECT c) (by simp [PIN_PPMU_CFG.CONNECT])
  next h => exact Bool.of_not_eq_true h

/-- A channel that its window monitor has disabled, before the monitor's actions on the ring. -/
def State.pinTripped (s : State) (c : Nat) (high : Bool) : State :=
  (State.dropPpmu c ((s.put (PIN_STATUS.MON_DIS c) 1).setDie (c / 64) { s.die (c / 64) with monv := true })).pinEvent c 2
    (c + 65536 * b2n high)

theorem State.pinTrip_eq (s : State) (c : Nat) (high : Bool) :
    s.pinTrip c high = ((s.pinTripped c high).ringOf c).elim (s.pinTripped c high) fun g =>
      (s.pinTripped c high).monRing g (bitOf ((s.pinTripped c high).fld (PIN_MON_WIN.ESC c)) 0)
        (bitOf ((s.pinTripped c high).fld (PIN_MON_WIN.ESC c)) 1) := by
  rw [State.pinTrip]
  dsimp only
  rw [← State.pinTripped]
  cases (s.pinTripped c high).ringOf c <;> rfl

theorem State.setDie_reg (s : State) (d : Nat) (x : DieSt) (a : Nat) : (s.setDie d x).reg a = s.reg a := rfl

theorem State.eventAt_chans (s : State) (t src code p4 p5 p6 p7 : Nat) :
    (s.eventAt t src code p4 p5 p6 p7).chans = s.chans := by
  obtain ⟨-, -, h, -⟩ := (Journaled.eventAt s t src code p4 p5 p6 p7).bodies
  exact h

theorem State.pinTripped_regs (s : State) (c : Nat) (high : Bool) :
    RegsButEvents [PIN_STATUS.addr c, PIN_PPMU_CFG.addr c, PIN_PPMU_MEAS.addr c] s (s.pinTripped c high) := fun a ha he => by
  simp only [List.mem_cons, List.not_mem_nil, or_false, not_or] at ha
  obtain ⟨hs, hcfg, hmeas⟩ := ha
  rw [State.pinTripped, State.pinEvent_reg _ _ _ _ he, State.dropPpmu_reg hcfg hmeas, State.setDie_reg,
    State.reg_put_ne (f := PIN_STATUS.MON_DIS c) s 1 hs]

theorem State.pinTripped_disables (s : State) (c : Chan) (high : Bool) :
    (s.pinTripped c high).flag (PIN_STATUS.MON_DIS c) = true := by
  have hreg : (s.pinTripped c high).reg (PIN_STATUS.addr c) = (s.put (PIN_STATUS.MON_DIS c) 1).reg (PIN_STATUS.addr c) := by
    rw [State.pinTripped, State.pinEvent_reg _ _ _ _ (evtReg_of_ge (by unfold PIN_STATUS.addr; omega)),
      State.dropPpmu_reg (by unfold PIN_STATUS.addr PIN_PPMU_CFG.addr; omega)
        (by unfold PIN_STATUS.addr PIN_PPMU_MEAS.addr; omega), State.setDie_reg]
  rw [State.flag_congr (f := PIN_STATUS.MON_DIS c) hreg]
  exact s.flag_put_one (PIN_STATUS.MON_DIS c) (by simp [PIN_STATUS.MON_DIS]) (by simp [PIN_STATUS.MON_DIS])

theorem State.pinTripped_connect (s : State) (c : Nat) (high : Bool) :
    (s.pinTripped c high).flag (PIN_PPMU_CFG.CONNECT c) = false := by
  rw [State.pinTripped, State.flag_congr (f := PIN_PPMU_CFG.CONNECT c)
    (State.pinEvent_reg _ _ _ _ (evtReg_of_ge (by simp only [PIN_PPMU_CFG.CONNECT, PIN_PPMU_CFG.addr]; omega)))]
  exact State.dropPpmu_connect c _

theorem State.pinTripped_chans (s : State) (c : Nat) (high : Bool) : (s.pinTripped c high).chans = s.chans := by
  rw [State.pinTripped, State.pinEvent, State.eventAt_chans, OnlyRegs.chans (State.dropPpmu_onlyRegs c _)]
  rfl

theorem State.pinTripped_evtSeq (s : State) (c : Nat) (high : Bool) : (s.pinTripped c high).evtSeq = s.evtSeq + 1 := by
  rw [State.pinTripped, State.pinEvent, State.eventAt_evtSeq, OnlyRegs.evtSeq (State.dropPpmu_onlyRegs c _)]
  rfl

theorem State.pinTripped_frame (s : State) (c : Nat) (high : Bool) (fd : Followed) (h : fd ≠ .dram) :
    (s.pinTripped c high).rd fd = s.rd fd := by
  rw [State.pinTripped, State.pinEvent_frame _ _ _ _ fd h, State.dropPpmu_frame, State.setDie_frame, State.put_frame]

theorem State.modeHiz_congr {s t : State} (hm : t.mode = s.mode) (hs : t.shed = s.shed)
    (hr : t.reg SYS_MODE.addr = s.reg SYS_MODE.addr) : t.modeHiz = s.modeHiz := by
  rw [State.modeHiz, State.modeHiz, hm, hs, State.fld_congr (f := SYS_MODE.BOOT_STEP) hr]

/-- A channel that is not on the calibration bus is high-impedance once it is disabled. -/
theorem State.stage_of_trip {s t : State} {c : Nat} (hst : s.stage c ≠ .calbus) (hd : t.disabled c = true)
    (hu : t.flag (PIN_CFG.UNUSED c) = s.flag (PIN_CFG.UNUSED c)) (hz : t.modeHiz = s.modeHiz) (hm : t.mode = s.mode) :
    t.stage c = .hiz := by
  rw [State.stage] at hst ⊢
  rw [hu, hz, hm, hd]
  split_ifs at hst ⊢ <;> simp_all

theorem exec_monPin_of_side {c : Chan} {uv : Int} {high : Bool} {s : State} (hen : s.flag (PIN_MON_WIN.EN c) = true)
    (hs : s.inService = true) (hst : s.stage c ≠ .calbus) (hside : s.pinSide c uv = some high) :
    exec (.monPin c uv) s = .next (s.pinTrip c high) := by
  rw [exec_monPin, execMonPin, hside]
  dsimp only
  rw [if_pos ⟨hen, hs, hst⟩]

theorem monPin_disables {c : Chan} {uv : Int} {high : Bool} {s : State} (hen : s.flag (PIN_MON_WIN.EN c) = true)
    (hs : s.inService = true) (hst : s.stage c ≠ .calbus) (hside : s.pinSide c uv = some high)
    (hesc : s.fld (PIN_MON_WIN.ESC c) = 0) :
    ∃ t, exec (.monPin c uv) s = .next t ∧ t.flag (PIN_STATUS.MON_DIS c) = true ∧ t.stage c = .hiz ∧
      t.flag (PIN_PPMU_CFG.CONNECT c) = false ∧ t.evtSeq = s.evtSeq + 1 ∧ Steady s t ∧
      RegsButEvents [PIN_STATUS.addr c, PIN_PPMU_CFG.addr c, PIN_PPMU_MEAS.addr c] s t := by
  have hregs := s.pinTripped_regs c high
  have hdis := s.pinTripped_disables c high
  have hsteady : Steady s (s.pinTripped c high) := steady_of_frame (s.pinTripped_frame c high)
  obtain ⟨⟨-, -, -, -, -, -, -, hshed, -, -⟩, hmode, -, -⟩ := id hsteady
  have hesc' : (s.pinTripped c high).fld (PIN_MON_WIN.ESC c) = 0 :=
    (State.fld_congr (hregs _ (by simp [PIN_MON_WIN.ESC, PIN_MON_WIN.addr, PIN_STATUS.addr, PIN_PPMU_CFG.addr, PIN_PPMU_MEAS.addr])
      (evtReg_of_ge (by simp only [PIN_MON_WIN.ESC, PIN_MON_WIN.addr]; omega)))).trans hesc
  have he : exec (.monPin c uv) s = .next (s.pinTripped c high) := by
    rw [exec_monPin_of_side hen hs hst hside, State.pinTrip_eq, hesc']
    cases (s.pinTripped c high).ringOf c with
    | none => rfl
    | some g => exact congrArg _ (State.monRing_of_none _ g)
  have hunused : (s.pinTripped c high).flag (PIN_CFG.UNUSED c) = s.flag (PIN_CFG.UNUSED c) :=
    State.flag_congr (hregs _ (by simp [PIN_CFG.UNUSED, PIN_CFG.addr, PIN_STATUS.addr, PIN_PPMU_CFG.addr, PIN_PPMU_MEAS.addr])
      (evtReg_of_ge (by simp only [PIN_CFG.UNUSED, PIN_CFG.addr]; omega)))
  have hhiz : (s.pinTripped c high).modeHiz = s.modeHiz := State.modeHiz_congr hmode hshed
    (hregs _ (by simp only [SYS_MODE.addr, PIN_STATUS.addr, PIN_PPMU_CFG.addr, PIN_PPMU_MEAS.addr, List.mem_cons,
      List.not_mem_nil, or_false]; omega) (by decide))
  have hd : (s.pinTripped c high).disabled c = true := by rw [State.disabled, hdis, Bool.true_or, Bool.true_or]
  exact ⟨_, he, hdis, State.stage_of_trip hst hd hunused hhiz hmode, s.pinTripped_connect c high, s.pinTripped_evtSeq c high,
    hsteady, hregs⟩

theorem monPin_still {c : Chan} {uv : Int} {s : State} (h : s.pinSide c uv = none) : exec (.monPin c uv) s = .next s := by
  rw [exec_monPin, execMonPin, h]

theorem State.ringOf_lt {s : State} {c g : Nat} (h : s.ringOf c = some g) : g < 64 :=
  List.mem_range.mp (List.mem_of_find?_eq_some h)

/-- Rings by the registers that name their members. -/
theorem State.ringChans_congr {s t : State} {g : Nat} (h : ∀ i, t.reg (FAIL_RING_CH.addr g i) = s.reg (FAIL_RING_CH.addr g i)) :
    t.ringChans g = s.ringChans g := by
  have hf : ∀ i, t.fld (FAIL_RING_CH.MEMBERS g i) = s.fld (FAIL_RING_CH.MEMBERS g i) := fun i => State.fld_congr (h i)
  simp only [State.ringChans, hf]

theorem State.ringOf_congr {s t : State} {c : Nat} (h : ∀ g i, t.reg (FAIL_RING_CH.addr g i) = s.reg (FAIL_RING_CH.addr g i)) :
    t.ringOf c = s.ringOf c := by
  have hf : ∀ g i, t.fld (FAIL_RING_CH.MEMBERS g i) = s.fld (FAIL_RING_CH.MEMBERS g i) := fun g i => State.fld_congr (h g i)
  simp only [State.ringOf, State.inRing, hf]

theorem State.ringAct_congr {s t : State} {g : Nat} (h : ∀ i, t.reg (FAIL_RING_CH.addr g i) = s.reg (FAIL_RING_CH.addr g i))
    (hm : ∀ m, t.reg (SEQ_CB_MASK.addr m) = s.reg (SEQ_CB_MASK.addr m)) : t.ringAct g = s.ringAct g := by
  have hc : ∀ c, t.actOfChan c = s.actOfChan c := fun c => State.actOfBlock_congr hm
  simp only [State.ringAct, State.ringChans_congr h, hc]

/-- The park action alone, on a ring whose act executes. -/
theorem State.monRing_of_park {s : State} {g n : Nat} (ha : s.ringAct g = some n) (he : s.executing n = true) :
    s.monRing g true false = s.monPark g n := by
  rw [State.monRing, ha]
  dsimp only
  rw [if_pos he, if_pos rfl, if_neg Bool.false_ne_true]

theorem monPin_parks {c : Chan} {uv : Int} {high : Bool} {g n : Nat} {s : State} (hen : s.flag (PIN_MON_WIN.EN c) = true)
    (hs : s.inService = true) (hst : s.stage c ≠ .calbus) (hside : s.pinSide c uv = some high)
    (hpark : bitOf (s.fld (PIN_MON_WIN.ESC c)) 0 = true) (habort : bitOf (s.fld (PIN_MON_WIN.ESC c)) 1 = false)
    (hring : s.ringOf c = some g) (hact : s.ringAct g = some n) (hexec : s.executing n = true) :
    ∃ t, exec (.monPin c uv) s = .next t ∧ t.flag (PIN_STATUS.MON_DIS c) = true ∧
      (∀ x ∈ s.ringChans g, (t.chan x).ringPark = true) ∧ Steady s t ∧
      (s.running n = true → (∀ x, x ∉ s.ringChans g → t.chan x = s.chan x) ∧ bitOf (t.act n).bench.toNat g = true) := by
  have hg := State.ringOf_lt hring
  have hn := State.ringAct_lt hact
  have hc := c.isLt
  have hregs : ∀ a, a ≠ PIN_STATUS.addr c → a ≠ PIN_PPMU_CFG.addr c → a ≠ PIN_PPMU_MEAS.addr c → 0x100000 ≤ a →
      (s.pinTripped c high).reg a = s.reg a := fun a h1 h2 h3 h4 =>
    s.pinTripped_regs c high a (by simp [h1, h2, h3]) (evtReg_of_ge h4)
  have hmembers : ∀ g i, (s.pinTripped c high).reg (FAIL_RING_CH.addr g i) = s.reg (FAIL_RING_CH.addr g i) := fun g i =>
    hregs _ (by unfold FAIL_RING_CH.addr PIN_STATUS.addr; omega) (by unfold FAIL_RING_CH.addr PIN_PPMU_CFG.addr; omega)
      (by unfold FAIL_RING_CH.addr PIN_PPMU_MEAS.addr; omega) (by unfold FAIL_RING_CH.addr; omega)
  have hmask : ∀ m, (s.pinTripped c high).reg (SEQ_CB_MASK.addr m) = s.reg (SEQ_CB_MASK.addr m) := fun m =>
    hregs _ (by unfold SEQ_CB_MASK.addr PIN_STATUS.addr; omega) (by unfold SEQ_CB_MASK.addr PIN_PPMU_CFG.addr; omega)
      (by unfold SEQ_CB_MASK.addr PIN_PPMU_MEAS.addr; omega) (by unfold SEQ_CB_MASK.addr; omega)
  have hstate : (s.pinTripped c high).reg (SEQ_STATUS.addr n) = s.reg (SEQ_STATUS.addr n) :=
    hregs _ (by unfold SEQ_STATUS.addr PIN_STATUS.addr; omega) (by unfold SEQ_STATUS.addr PIN_PPMU_CFG.addr; omega)
      (by unfold SEQ_STATUS.addr PIN_PPMU_MEAS.addr; omega) (by unfold SEQ_STATUS.addr; omega)
  have hesc : (s.pinTripped c high).fld (PIN_MON_WIN.ESC c) = s.fld (PIN_MON_WIN.ESC c) :=
    State.fld_congr (hregs _ (by simp [PIN_MON_WIN.ESC, PIN_MON_WIN.addr, PIN_STATUS.addr])
      (by simp [PIN_MON_WIN.ESC, PIN_MON_WIN.addr, PIN_PPMU_CFG.addr])
      (by simp [PIN_MON_WIN.ESC, PIN_MON_WIN.addr, PIN_PPMU_MEAS.addr])
      (by simp only [PIN_MON_WIN.ESC, PIN_MON_WIN.addr]; omega))
  have he : exec (.monPin c uv) s = .next ((s.pinTripped c high).monPark g n) := by
    rw [exec_monPin_of_side hen hs hst hside, State.pinTrip_eq, State.ringOf_congr hmembers, hring, hesc, hpark, habort]
    exact congrArg _ (State.monRing_of_park ((State.ringAct_congr (hmembers g) hmask).trans hact)
      ((State.executing_congr hstate).trans hexec))
  have hrun : (s.pinTripped c high).running n = s.running n := by
    rw [State.running, State.running, State.actState, State.actState, State.fld_congr (f := SEQ_STATUS.STATE n) hstate]
  obtain ⟨hdis, hparked, hrunning⟩ := (s.pinTripped c high).monPark_parks c hg hn
  rw [State.ringChans_congr (hmembers g)] at hparked hrunning
  rw [hrun] at hrunning
  refine ⟨_, he, (State.flag_congr (f := PIN_STATUS.MON_DIS c) hdis).trans (s.pinTripped_disables c high), hparked,
    steady_of_frame fun fd hd => ?_, fun hr => ⟨fun x hx => ?_, (hrunning hr).2⟩⟩
  · rw [State.monPark_frame _ _ _ fd hd, State.pinTripped_frame s c high fd hd]
  · exact ((hrunning hr).1 x hx).trans (State.chan_congr (s.pinTripped_chans c high) x)

/-- Settles O46: a pin monitor disables its channel and may park the ring, a SENSE monitor trips and may clear its output,
the writes of 1 rearm and re-enable, and blanking ends at its deadline. -/
theorem monitorsComplete : Obligations.MonitorsComplete := by
  unfold Obligations.MonitorsComplete
  exact ⟨fun _ _ _ _ => monPin_disables, fun _ _ _ => monPin_still, fun _ _ _ _ _ _ => monPin_parks,
    fun _ _ _ _ => monSense_clears, fun _ _ _ => monSense_still, fun _ _ => senseRearm_rearms,
    fun _ _ _ => senseBlankExpiry_ends, fun _ _ _ _ => senseBlankExpiry_trips, fun _ _ => monDisClear_clears,
    fun _ _ => dchkDisClear_clears⟩

end Sys2Proof.Machine
end

section
/-! PROOF. Comparator transitions and burst timeouts (O40). -/

namespace Sys2Proof.Machine

/-! ## What the consumers of a transition keep: the TDCs and the channels (R232, R238, R241, R242) -/

/-- The TDCs and the channels. -/
def State.sensed (s : State) : Tab TdcSt × Tab ChanSt := (s.tdcs, s.chans)

theorem State.sensed_put (s : State) (f : Field) (v : Nat) : (s.put f v).sensed = s.sensed := rfl

theorem State.sensed_setPair (s : State) (lo v : Nat) : (s.setPair lo v).sensed = s.sensed := rfl

theorem State.sensed_setStream (s : State) (i : Nat) (x : StreamSt) : (s.setStream i x).sensed = s.sensed := rfl

theorem State.sensed_setTrig (s : State) (k : Nat) (x : TrigSt) : (s.setTrig k x).sensed = s.sensed := rfl

theorem State.sensed_withUnits (s : State) (us : Tab TdcUnit) : (s.withUnits us).sensed = s.sensed := rfl

theorem State.event_tdcs (s : State) (src code p4 p5 p6 p7 : Nat) : (s.event src code p4 p5 p6 p7).tdcs = s.tdcs := by
  have h : (s.withEvtSeq (s.evtSeq + 1)).unjournaled (s.event src code p4 p5 p6 p7) = s.withEvtSeq (s.evtSeq + 1) :=
    Journaled.eventAt s s.time.toNat src code p4 p5 p6 p7
  exact (congrArg State.tdcs h :)

theorem State.sensed_event (s : State) (src code p4 p5 p6 p7 : Nat) : (s.event src code p4 p5 p6 p7).sensed = s.sensed :=
  Prod.ext (s.event_tdcs _ _ _ _ _ _) (s.event_chans _ _ _ _ _ _)

theorem State.sensed_roundTo (s : State) (num : Int) (den : Nat) : (s.roundTo num den).2.sensed = s.sensed := by
  unfold State.roundTo
  split <;> rfl

theorem State.sensed_streamFill (s : State) (i : Nat) : (s.streamFill i).sensed = s.sensed := by
  rw [State.streamFill, State.putB, State.sensed_put, State.sensed_put]

theorem State.sensed_loseRec (s : State) (i : Nat) (r : StreamRec) (cause : Nat) : (s.loseRec i r cause).sensed = s.sensed := by
  have counted : ∀ (u : State) (lo v : Nat), ((u.setPair lo v).streamFill i).sensed = u.sensed := fun u lo v =>
    ((u.setPair lo v).sensed_streamFill i).trans (u.sensed_setPair lo v)
  unfold State.loseRec
  dsimp only
  split_ifs
  · exact (State.sensed_event ..).trans ((counted ..).trans (s.sensed_setStream ..))
  · exact (counted ..).trans (s.sensed_setStream ..)

theorem State.sensed_complete (s : State) (i : Nat) (r : StreamRec) : (s.complete i r).sensed = s.sensed := by
  unfold State.complete
  split
  · exact s.sensed_loseRec i r 2
  · exact s.sensed_setStream i _

theorem State.sensed_closeStamps (s : State) (i n : Nat) : (s.closeStamps i n).sensed = s.sensed := by
  unfold State.closeStamps
  dsimp only
  split
  · rfl
  · exact (State.sensed_complete ..).trans (s.sensed_setStream ..)

theorem State.sensed_redStamps (s : State) (i n idx : Nat) (rise : Bool) (stamp : Option Int) (t : Int) :
    (s.redStamps i n idx rise stamp t).sensed = s.sensed := by
  have kept : ∀ (k : Nat) (x : StreamSt),
      (if 64 ≤ k then (s.setStream i x).closeStamps i n else s.setStream i x).sensed = s.sensed := fun k x => by
    split
    · exact (State.sensed_closeStamps ..).trans (s.sensed_setStream i x)
    · exact s.sensed_setStream i x
  unfold State.redStamps
  dsimp only
  split
  · rfl
  · exact kept _ _

theorem State.sensed_redPhase (s : State) (i n : Nat) (hist : Bool) (ph : Nat × Nat × Nat) :
    (s.redPhase i n hist ph).sensed = s.sensed := s.sensed_setStream ..

theorem State.sensed_redStats (s : State) (i n : Nat) (stamp : Option Int) (ph : Option (Nat × Nat × Nat)) :
    (s.redStats i n stamp ph).sensed = s.sensed := by
  unfold State.redStats
  dsimp only
  split_ifs <;> split
  · exact (State.sensed_setStream ..).trans (s.sensed_roundTo ..)
  · exact s.sensed_setStream ..
  · exact (State.sensed_setStream ..).trans (s.sensed_roundTo ..)
  · exact s.sensed_setStream ..

theorem State.sensed_reduce (s : State) (i c : Nat) (low rise : Bool) (idx : Nat) (stamp : Option Int) (t : Int) :
    (s.reduce i c low rise idx stamp t).sensed = s.sensed := by
  unfold State.reduce
  dsimp only
  split
  · rfl
  split
  · exact s.sensed_redStamps ..
  refine (State.sensed_setStream ..).trans ?_
  split
  · split
    · exact s.sensed_redPhase ..
    · exact s.sensed_redPhase ..
    · exact s.sensed_redStats ..
    · rfl
  · rfl

theorem State.sensed_windowSee (s : State) (i c : Nat) (low rise : Bool) (idx : Nat) (stamp : Option Int) (t : Int) :
    (s.windowSee i c low rise idx stamp t).sensed = s.sensed := by
  unfold State.windowSee
  dsimp only
  split
  · rfl
  split
  · exact s.sensed_setStream ..
  · rfl

theorem State.sensed_trigsSee (s : State) (c : Nat) (low rise : Bool) (stamp : Option Int) (t : Int) :
    (s.trigsSee c low rise stamp t).sensed = s.sensed :=
  State.each_inv (P := State.sensed) (fun k u => by
    split
    · exact u.sensed_setTrig k _
    · rfl) _ s

theorem State.sensed_consumers (s : State) (c : Nat) (d : TdcSt) (low rise : Bool) (idx : Nat) (stamp : Option Int) (t : Int) :
    (s.consumers c d low rise idx stamp t).sensed = s.sensed :=
  (State.sensed_trigsSee _ c low rise stamp t).trans ((State.sensed_withUnits _ _).trans
    (State.each_inv (P := State.sensed)
      (fun i u => (State.sensed_windowSee _ i c low rise idx stamp t).trans (u.sensed_reduce i c low rise idx stamp t)) _ s))

theorem State.tdc_of_tdcs {s t : State} (h : t.tdcs = s.tdcs) (n : Nat) : t.tdc n = s.tdc n := by
  rw [State.tdc, State.tdc, h]

theorem State.chan_of_chans {s t : State} (h : t.chans = s.chans) (c : Nat) : t.chan c = s.chan c := by
  rw [State.chan, State.chan, h]

theorem State.tdc_of_sensed {s t : State} (h : t.sensed = s.sensed) (n : Nat) : t.tdc n = s.tdc n :=
  State.tdc_of_tdcs (congrArg Prod.fst h) n

theorem State.chan_of_sensed {s t : State} (h : t.sensed = s.sensed) (c : Nat) : t.chan c = s.chan c :=
  State.chan_of_chans (congrArg Prod.snd h) c

/-! ## A transition at a strobe (R194 to R196): its tracking and its ring -/

/-- What a transition at a strobe keeps: every TDC and die, what enables the channel's TDCs, the outputs of its comparators
and every other channel. -/
structure StrobeKept (c : Chan) (s t : State) : Prop where
  tdcs : t.tdcs = s.tdcs
  dies : t.dies = s.dies
  cfg : t.reg (PIN_TDC_CFG.addr c) = s.reg (PIN_TDC_CFG.addr c)
  others : ∀ x, x ≠ c.val → t.chan x = s.chan x
  outH : (t.chan c).outH = (s.chan c).outH
  outL : (t.chan c).outL = (s.chan c).outL

theorem StrobeKept.refl (c : Chan) (s : State) : StrobeKept c s s := ⟨rfl, rfl, rfl, fun _ _ => rfl, rfl, rfl⟩

theorem StrobeKept.trans {c : Chan} {s t u : State} (h : StrobeKept c s t) (k : StrobeKept c t u) : StrobeKept c s u :=
  ⟨k.tdcs.trans h.tdcs, k.dies.trans h.dies, k.cfg.trans h.cfg, fun x hx => (k.others x hx).trans (h.others x hx),
    k.outH.trans h.outH, k.outL.trans h.outL⟩

theorem StrobeKept.setChan {c : Chan} {s : State} {x : ChanSt} (hH : x.outH = (s.chan c).outH) (hL : x.outL = (s.chan c).outL) :
    StrobeKept c s (s.setChan c x) :=
  ⟨rfl, rfl, rfl, fun _ he => State.setChan_ne s x he, by rw [State.setChan_same, hH], by rw [State.setChan_same, hL]⟩

theorem StrobeKept.of_chans {c : Chan} {s t : State} (htdcs : t.tdcs = s.tdcs) (hdies : t.dies = s.dies)
    (hchans : t.chans = s.chans) (hcfg : t.reg (PIN_TDC_CFG.addr c) = s.reg (PIN_TDC_CFG.addr c)) : StrobeKept c s t := by
  have hchan : ∀ x, t.chan x = s.chan x := State.chan_of_chans hchans
  exact ⟨htdcs, hdies, hcfg, fun x _ => hchan x, by rw [hchan], by rw [hchan]⟩

theorem StrobeKept.event (c : Chan) (s : State) (src code p4 p5 p6 p7 : Nat) :
    StrobeKept c s (s.event src code p4 p5 p6 p7) :=
  .of_chans (State.event_tdcs ..) (State.event_dies ..) (State.event_chans ..) (State.event_reg _ _ _ _ _ _ (decide_eq_false (by
    have hc := c.isLt
    simp only [PIN_TDC_CFG.addr, SYS_IRQ_STATUS.addr, EVT_WR.addr, EVT_LOST.addr, MSIX_PBA.addr]
    omega)))

theorem StrobeKept.setRing (c : Chan) (s : State) (g : Nat) (x : RingSt) : StrobeKept c s (s.setRing g x) :=
  .of_chans rfl rfl rfl rfl

theorem StrobeKept.put_stray (c : Chan) (s : State) {g : Nat} (_hg : g < 64) : StrobeKept c s (s.put (FAIL_STATUS.STRAY g) 1) :=
  .of_chans rfl rfl rfl (s.reg_put_ne 1 (by
    have hc := c.isLt
    simp only [PIN_TDC_CFG.addr, FAIL_STATUS.STRAY, FAIL_STATUS.addr]
    omega))

theorem StrobeKept.stray (c : Chan) (s : State) : StrobeKept c s (s.stray c) := by
  unfold State.stray
  split
  · exact .refl c s
  next g hg =>
    have hput := StrobeKept.put_stray c s (State.ringOf_lt hg)
    dsimp only
    split_ifs
    · exact (hput.trans (.setRing c _ g _)).trans (.event c _ _ _ _ _ _ _)
    · exact hput

theorem StrobeKept.strobeEdge (c : Chan) (s : State) (n : Nat) (lvl : Bool) (t : Nat) :
    StrobeKept c s (s.strobeEdge n c lvl t) := by
  have seen : StrobeKept c s (s.setChan c { s.chan c with lvl := some lvl, since := t }) := .setChan rfl rfl
  unfold State.strobeEdge
  dsimp only
  split
  · exact seen.trans (.setChan rfl rfl)
  split
  · exact seen.trans (.stray c _)
  · exact seen

theorem StrobeKept.strobeSee (c : Chan) (s : State) (t : Nat) : StrobeKept c s (s.strobeSee c t) := by
  unfold State.strobeSee
  split
  · exact .refl c s
  split
  · exact .refl c s
  split
  · split
    · exact .refl c s
    · exact .strobeEdge c s _ _ t
  · exact .setChan rfl rfl
  · exact .refl c s

/-! ## The count of a TDC (R217, R218) -/

theorem State.setTdc_chans (s : State) (n : Nat) (x : TdcSt) : (s.setTdc n x).chans = s.chans := rfl

theorem State.setChan_tdcs (s : State) (c : Nat) (x : ChanSt) : (s.setChan c x).tdcs = s.tdcs := rfl

theorem State.withTime_tdc (s : State) (v : BitVec 64) (n : Nat) : (s.withTime v).tdc n = s.tdc n := rfl

theorem State.put_chans (s : State) (f : Field) (v : Nat) : (s.put f v).chans = s.chans := rfl

theorem State.put_tdc (s : State) (f : Field) (v n : Nat) : (s.put f v).tdc n = s.tdc n := rfl

theorem State.stamp_cnt (s : State) (c : Nat) (low rise : Bool) (arr : Nat) :
    ((s.stamp c low rise arr).1.tdc (tdcNum c low)).cnt = (s.tdc (tdcNum c low)).cnt + 1 := by
  unfold State.stamp
  dsimp only
  split
  · rw [State.setTdc_same]
    split <;> rfl
  · rw [State.put_tdc, State.setTdc_same]

theorem State.stamp_tdc_ne (s : State) (c : Nat) (low rise : Bool) (arr : Nat) {n : Nat} (h : n ≠ tdcNum c low) :
    (s.stamp c low rise arr).1.tdc n = s.tdc n := by
  unfold State.stamp
  dsimp only
  split
  · exact State.setTdc_ne s _ h
  · rw [State.put_tdc, State.setTdc_ne s _ h]

theorem State.stamp_chans (s : State) (c : Nat) (low rise : Bool) (arr : Nat) : (s.stamp c low rise arr).1.chans = s.chans := by
  unfold State.stamp
  dsimp only
  split
  · exact State.setTdc_chans ..
  · exact (State.put_chans ..).trans (State.setTdc_chans ..)

theorem State.tdcEnabled_congr {s t : State} {c : Nat} (h : t.reg (PIN_TDC_CFG.addr c) = s.reg (PIN_TDC_CFG.addr c)) (low : Bool) :
    t.tdcEnabled c low = s.tdcEnabled c low := by
  rw [State.tdcEnabled, State.tdcEnabled, State.flag_congr (f := PIN_TDC_CFG.EN_L c) h, State.flag_congr (f := PIN_TDC_CFG.EN_H c) h]

theorem State.tdcHeld_congr {s t : State} (h : t.dies = s.dies) (c : Nat) : t.tdcHeld c = s.tdcHeld c := by
  rw [State.tdcHeld, State.tdcHeld, State.die_congr h]

/-! ## Transitions at a comparator (R101, R216 to R218) -/

theorem State.acquiring_of_mode {s : State} (h : s.mode = .idle ∨ s.mode = .run) : s.acquiring = true := by
  rcases h with h | h <;> rw [State.acquiring, h]

theorem State.not_acquiring_of_mode {s : State} (hi : s.mode ≠ .idle) (hr : s.mode ≠ .run) : s.acquiring = false := by
  unfold State.acquiring
  split
  · contradiction
  · contradiction
  · rfl

/-- A transition's instant at its comparator by the interpolator's table, in 1/64 fine (R219). -/
def State.arrival (s : State) (c : Nat) (low : Bool) (t : BitVec 70) (code : BitVec 9) : Nat :=
  (t.toNat + s.finePart ((s.chan c).active.tab low ((s.tdc (tdcNum c low)).cnt % 4) code.toNat)) % 2 ^ 70

/-- Whether a transition that arrives at `arr` lies inside the hold-off of its comparator (R101). -/
def State.heldOff (s : State) (c : Nat) (low : Bool) (arr : Nat) : Bool :=
  match (s.tdc (tdcNum c low)).out with
  | some o => decide (elapsed 70 arr o < s.holdoff c low)
  | none => false

/-- The state once a transition that arrives at `arr` is past the hold-off: its comparator has seen it. -/
def State.comparatorSees (s : State) (c : Nat) (low rise : Bool) (arr : Nat) : State :=
  let u := (s.at_ (arr / 64)).setTdc (tdcNum c low) { s.tdc (tdcNum c low) with out := some arr }
  u.setChan c ((u.chan c).output low rise)

/-- A transition's instant without the K terms and the interpolator's offset, as its stamp has it (R219). -/
def State.stampTime (s : State) (c : Nat) (low : Bool) (j arr : Nat) : Int :=
  (arr : Int) - s.cmpK64 c low - (s.chan c).active.iofs.getD (4 * b2n low + j) 0

/-- What a transition that its comparator has seen does: it is given to the strobe's tracking, and to the consumers of its TDC
where that is enabled and not held; `d` is the TDC before it. -/
def State.transitionSeen (s : State) (c : Nat) (d : TdcSt) (low rise : Bool) (arr : Nat) : State :=
  let at_ := s.stampTime c low (d.cnt % 4) arr
  let u := s.strobeSee c (at_ % 2 ^ 70).toNat
  if u.tdcEnabled c low = true ∧ u.tdcHeld c = false then
    let pr := u.stamp c low rise arr
    pr.1.consumers c d low rise pr.2.1 pr.2.2 at_
  else u.trigsSee c low rise none at_

theorem execComparatorTransition_eq (c : Chan) (low rise : Bool) (t : BitVec 70) (code : BitVec 9) (s : State) :
    execComparatorTransition c low rise t code s =
      if !s.acquiring then .next s
      else if s.heldOff c low (s.arrival c low t code) then .next s
      else .next ((s.comparatorSees c low rise (s.arrival c low t code)).transitionSeen c (s.tdc (tdcNum c low)) low rise
        (s.arrival c low t code)) := by
  unfold execComparatorTransition State.transitionSeen
  dsimp only
  rw [apply_ite Host.Outcome.next]
  rfl

section
variable {c : Chan} {low rise : Bool} {t0 : BitVec 70} {code : BitVec 9} {s : State}

theorem comparatorTransition_unserved (hi : s.mode ≠ .idle) (hr : s.mode ≠ .run) :
    exec (.comparatorTransition c low rise t0 code) s = .next s := by
  rw [exec_comparatorTransition, execComparatorTransition_eq, State.not_acquiring_of_mode hi hr]
  rfl

theorem State.heldOff_of_some {c : Nat} {o arr : Nat} (ho : (s.tdc (tdcNum c low)).out = some o) :
    s.heldOff c low arr = decide (elapsed 70 arr o < s.holdoff c low) := by
  rw [State.heldOff, ho]

theorem State.heldOff_of_none {c : Nat} {arr : Nat} (ho : (s.tdc (tdcNum c low)).out = none) :
    s.heldOff c low arr = false := by
  rw [State.heldOff, ho]

theorem comparatorTransition_hidden {o : Nat} (hm : s.mode = .idle ∨ s.mode = .run) (ho : (s.tdc (tdcNum c low)).out = some o)
    (h : elapsed 70 (s.arrival c low t0 code) o < s.holdoff c low) :
    exec (.comparatorTransition c low rise t0 code) s = .next s := by
  rw [exec_comparatorTransition, execComparatorTransition_eq, State.acquiring_of_mode hm, State.heldOff_of_some ho,
    decide_eq_true h]
  rfl

theorem exec_comparatorTransition_seen (hm : s.mode = .idle ∨ s.mode = .run) (ho : (s.tdc (tdcNum c low)).out = none) :
    exec (.comparatorTransition c low rise t0 code) s =
      .next ((s.comparatorSees c low rise (s.arrival c low t0 code)).transitionSeen c (s.tdc (tdcNum c low)) low rise
        (s.arrival c low t0 code)) := by
  rw [exec_comparatorTransition, execComparatorTransition_eq, State.acquiring_of_mode hm, State.heldOff_of_none ho]
  rfl

end

theorem State.comparatorSees_eq (s : State) (c : Nat) (low rise : Bool) (arr : Nat) : ∃ v, s.comparatorSees c low rise arr =
    ((s.withTime v).setTdc (tdcNum c low) { s.tdc (tdcNum c low) with out := some arr }).setChan c ((s.chan c).output low rise) := by
  obtain ⟨v, hv⟩ := s.at_eq (arr / 64)
  rw [State.comparatorSees, hv]
  exact ⟨v, rfl⟩

theorem State.comparatorSees_tdc_cnt (s : State) (c : Nat) (low rise : Bool) (arr : Nat) :
    ((s.comparatorSees c low rise arr).tdc (tdcNum c low)).cnt = (s.tdc (tdcNum c low)).cnt := by
  obtain ⟨v, hv⟩ := s.comparatorSees_eq c low rise arr
  rw [hv, State.tdc_of_tdcs (State.setChan_tdcs ..), State.setTdc_same]

theorem State.comparatorSees_tdc_ne (s : State) (c : Nat) (low rise : Bool) (arr : Nat) {n : Nat} (h : n ≠ tdcNum c low) :
    (s.comparatorSees c low rise arr).tdc n = s.tdc n := by
  obtain ⟨v, hv⟩ := s.comparatorSees_eq c low rise arr
  rw [hv, State.tdc_of_tdcs (State.setChan_tdcs ..), State.setTdc_ne _ _ h, State.withTime_tdc]

theorem State.comparatorSees_chan (s : State) (c : Nat) (low rise : Bool) (arr : Nat) :
    (s.comparatorSees c low rise arr).chan c = (s.chan c).output low rise := by
  obtain ⟨v, hv⟩ := s.comparatorSees_eq c low rise arr
  rw [hv, State.setChan_same]

theorem State.comparatorSees_chan_ne (s : State) (c : Nat) (low rise : Bool) (arr : Nat) {x : Nat} (h : x ≠ c) :
    (s.comparatorSees c low rise arr).chan x = s.chan x := by
  obtain ⟨v, hv⟩ := s.comparatorSees_eq c low rise arr
  rw [hv, State.setChan_ne _ _ h, State.chan_of_chans (State.setTdc_chans ..), State.withTime_chan]

theorem State.comparatorSees_dies (s : State) (c : Nat) (low rise : Bool) (arr : Nat) :
    (s.comparatorSees c low rise arr).dies = s.dies := by
  obtain ⟨v, hv⟩ := s.comparatorSees_eq c low rise arr
  rw [hv]
  rfl

theorem State.comparatorSees_reg (s : State) (c : Nat) (low rise : Bool) (arr a : Nat) :
    (s.comparatorSees c low rise arr).reg a = s.reg a := by
  obtain ⟨v, hv⟩ := s.comparatorSees_eq c low rise arr
  rw [hv]
  rfl

/-- The TDCs and channels after a transition that an enabled TDC counts are those that the stamping leaves. -/
theorem State.transitionSeen_sensed {c : Nat} {d : TdcSt} {low rise : Bool} {arr : Nat} {s : State}
    (hen : ∀ a, (s.strobeSee c a).tdcEnabled c low = true) (hheld : ∀ a, (s.strobeSee c a).tdcHeld c = false) :
    ∃ a, (s.transitionSeen c d low rise arr).sensed = ((s.strobeSee c a).stamp c low rise arr).1.sensed := by
  refine ⟨(s.stampTime c low (d.cnt % 4) arr % 2 ^ 70).toNat, ?_⟩
  rw [State.transitionSeen]
  dsimp only
  rw [if_pos ⟨hen _, hheld _⟩]
  exact State.sensed_consumers ..

section
variable {c : Chan} {low rise : Bool} {t0 : BitVec 70} {code : BitVec 9} {s : State}

theorem comparatorTransition_frame {t : State} (h : exec (.comparatorTransition c low rise t0 code) s = .next t) :
    t.mode = s.mode ∧ Still s t := by
  have frame : ∀ fd : Followed, fd ≠ .time → fd ≠ .dram → t.rd fd = s.rd fd :=
    execComparatorTransition_frame c low rise t0 code s t h
  exact ⟨State.mode_of_frame (frame .mode (by decide) (by decide)), still_of_frame fun fd hd _ ht _ => frame fd ht hd⟩

/-- The outputs, the channels and the TDCs after a transition that is counted (R216 to R218). -/
theorem comparatorTransition_counts (hm : s.mode = .idle ∨ s.mode = .run) (ho : (s.tdc (tdcNum c low)).out = none)
    (hen : s.tdcEnabled c low = true) (hheld : s.tdcHeld c = false) :
    ∃ t, exec (.comparatorTransition c low rise t0 code) s = .next t ∧
      (t.tdc (tdcNum c low)).cnt = (s.tdc (tdcNum c low)).cnt + 1 ∧
      (low = false → (t.chan c).outH = rise ∧ (t.chan c).outL = (s.chan c).outL) ∧
      (low = true → (t.chan c).outL = !rise ∧ (t.chan c).outH = (s.chan c).outH) ∧
      (∀ n, n ≠ tdcNum c low → t.tdc n = s.tdc n) ∧ (∀ x, x ≠ c.val → t.chan x = s.chan x) ∧ t.mode = s.mode ∧ Still s t := by
  have he := exec_comparatorTransition_seen (rise := rise) (t0 := t0) (code := code) hm ho
  obtain ⟨hmode, hstill⟩ := comparatorTransition_frame he
  generalize s.arrival c low t0 code = arr at he hmode hstill
  have kept : ∀ a, StrobeKept c (s.comparatorSees c low rise arr) ((s.comparatorSees c low rise arr).strobeSee c a) :=
    fun a => .strobeSee c _ a
  obtain ⟨a, hsensed⟩ := State.transitionSeen_sensed (d := s.tdc (tdcNum c low)) (rise := rise) (arr := arr)
    (fun a => (State.tdcEnabled_congr ((kept a).cfg.trans (s.comparatorSees_reg ..)) low).trans hen)
    (fun a => (State.tdcHeld_congr ((kept a).dies.trans (s.comparatorSees_dies ..)) c).trans hheld)
  generalize (s.comparatorSees c low rise arr).transitionSeen c (s.tdc (tdcNum c low)) low rise arr = t
    at he hmode hstill hsensed
  obtain ⟨htdcs, -, -, hothers, hH, hL⟩ := kept a
  have htdc := State.tdc_of_sensed hsensed
  have hchan : ∀ x, t.chan x = ((s.comparatorSees c low rise arr).strobeSee c a).chan x := fun x =>
    (State.chan_of_sensed hsensed x).trans (State.chan_of_chans (State.stamp_chans ..) x)
  rw [s.comparatorSees_chan] at hH hL
  refine ⟨t, he, ?_, ?_, ?_, fun n hn => ?_, fun x hx => ?_, hmode, hstill⟩
  · rw [htdc, State.stamp_cnt, State.tdc_of_tdcs htdcs, s.comparatorSees_tdc_cnt]
  · rintro rfl
    exact ⟨(congrArg ChanSt.outH (hchan c)).trans hH, (congrArg ChanSt.outL (hchan c)).trans hL⟩
  · rintro rfl
    exact ⟨(congrArg ChanSt.outL (hchan c)).trans hL, (congrArg ChanSt.outH (hchan c)).trans hH⟩
  · rw [htdc, State.stamp_tdc_ne _ _ _ _ _ hn, State.tdc_of_tdcs htdcs, s.comparatorSees_tdc_ne c low rise arr hn]
  · rw [hchan, hothers x hx, s.comparatorSees_chan_ne c low rise arr hx]

end

/-! ## The timeout of a burst (R196) -/

theorem Burst.lacks_some {b : Burst} {len j : Nat} (h : b.lacks len = some j) :
    (b.edge j).isNone = true ∧ (∀ i, i < j → (b.edge i).isSome = true) ∧ j < len := by
  obtain ⟨hj, hlt, hbefore⟩ := List.find?_range_eq_some.mp h
  exact ⟨hj, fun i hi => by simpa using hbefore i hi, List.mem_range.mp hlt⟩

/-- The burst that times out: it had not failed, its first beat without an edge is the one named, and it fails from there. -/
theorem timeoutBurst_some {len j : Nat} {b : Burst} : ∀ {l bs : List Burst}, timeoutBurst len l = some (b, j, bs) →
    b ∈ l ∧ b.failFrom = none ∧ { b with failFrom := some j } ∈ bs ∧ b.lacks len = some j
  | [], _, h => nomatch h
  | x :: xs, bs, h => by
    rw [timeoutBurst] at h
    split at h
    next k hk =>
      obtain ⟨rfl, rfl, rfl⟩ : x = b ∧ k = j ∧ _ = bs := by simpa using h
      obtain ⟨hfresh, hlacks⟩ : x.failFrom = none ∧ x.lacks len = some k := by simpa using hk
      exact ⟨List.mem_cons_self, hfresh, List.mem_cons_self, hlacks⟩
    next =>
      obtain ⟨⟨y, i, r⟩, hr, he⟩ := Option.map_eq_some_iff.mp h
      obtain ⟨rfl, rfl, rfl⟩ : y = b ∧ i = j ∧ x :: r = bs := by simpa using he
      obtain ⟨hmem, hfresh, hfail, hlacks⟩ := timeoutBurst_some hr
      exact ⟨List.mem_cons_of_mem _ hmem, hfresh, List.mem_cons_of_mem _ hfail, hlacks⟩

/-- A beat at the timed out one or after it fails with MISSING_STROBE. -/
theorem State.missingStrobe_of_failed {s : State} {c ui j : Nat} {b : Burst}
    (h : s.burstOf c ui = some { b with failFrom := some j }) (hui : b.b + j ≤ ui) : s.missingStrobe c ui = true := by
  have hfails : ({ b with failFrom := some j } : Burst).fails (ui - b.b) = true := decide_eq_true (by omega)
  rw [State.missingStrobe, h]
  dsimp only
  rw [hfails, Bool.true_or]

theorem State.actOfChan_of_strobe {s : State} {c : Nat} (h : s.isStrobe c = true) : ∃ n, s.actOfChan c = some n := by
  rw [State.isStrobe] at h
  cases hn : s.actOfChan c with
  | none => simp [hn] at h
  | some n => exact ⟨n, rfl⟩

theorem exec_burstTimeout_strobe {c : Chan} {b : Burst} {j : Nat} {bs : List Burst} {s : State} (hs : s.isStrobe c = true)
    (h : timeoutBurst (s.fld (PIN_TRK_CFG.BURST_LEN c)) (s.chan c).bursts = some (b, j, bs)) :
    ∃ v, exec (.burstTimeout c) s = .next ((s.withTime v).setChan c { s.chan c with bursts := bs }) := by
  obtain ⟨n, hn⟩ := State.actOfChan_of_strobe hs
  rw [exec_burstTimeout, execBurstTimeout, hn]
  dsimp only
  rw [hs, h]
  obtain ⟨v, hv⟩ := s.at_eq
    (((b.e0 + s.ui64 n j + s.ui64 n 1 / 2 : Nat) + s.cmpK64 c (s.flag (PIN_TRK_CFG.PRE_LVL c)) : Int) / 64).toNat
  exact ⟨v, congrArg (fun u : State => Host.Outcome.next (u.setChan c { s.chan c with bursts := bs })) hv⟩

theorem burstTimeout_fails {c : Chan} {b : Burst} {j : Nat} {bs : List Burst} {s : State} (hs : s.isStrobe c = true)
    (h : timeoutBurst (s.fld (PIN_TRK_CFG.BURST_LEN c)) (s.chan c).bursts = some (b, j, bs)) :
    ∃ t, exec (.burstTimeout c) s = .next t ∧ (t.chan c).bursts = bs ∧ b ∈ (s.chan c).bursts ∧ b.failFrom = none ∧
      { b with failFrom := some j } ∈ bs ∧ (b.edge j).isNone = true ∧ (∀ i, i < j → (b.edge i).isSome = true) ∧
      j < s.fld (PIN_TRK_CFG.BURST_LEN c) ∧
      (∀ x ui, t.burstOf x ui = some { b with failFrom := some j } → b.b + j ≤ ui → t.missingStrobe x ui = true) ∧
      (∀ x, x ≠ c.val → t.chan x = s.chan x) ∧ (t.withChans s.chans).withTime s.time = s := by
  obtain ⟨v, he⟩ := exec_burstTimeout_strobe hs h
  obtain ⟨hmem, hfresh, hfail, hlacks⟩ := timeoutBurst_some h
  obtain ⟨hedge, hbefore, hlt⟩ := Burst.lacks_some hlacks
  exact ⟨_, he, by rw [State.setChan_same], hmem, hfresh, hfail, hedge, hbefore, hlt,
    fun _ _ => State.missingStrobe_of_failed, fun _ hx => s.setChan_at_ne v _ hx, s.setChan_at_rest v c _⟩

/-- Settles O40: outside IDLE and RUN, and inside the hold-off, the comparator does not see a transition; one that is counted
passes the strobe's tracking and the consumers, which keep TDCs and outputs; a burst fails from the first beat it lacks. -/
theorem transitionsComplete : Obligations.TransitionsComplete := by
  unfold Obligations.TransitionsComplete
  exact ⟨fun _ _ _ _ _ _ => comparatorTransition_unserved, fun _ _ _ _ _ _ => comparatorTransition_counts,
    fun _ _ _ _ _ _ _ hm ho h => comparatorTransition_hidden hm ho h, fun _ _ _ _ _ => burstTimeout_fails⟩

end Sys2Proof.Machine
end
